-- ==== Sys2Proof/Word.lean ====
section
/-!
DEFINITION. The word types of the S9 block: 32-bit registers (00_scope.md R8), bytes, and the indices its
commands carry. Only the types stand here; arithmetic on them is in Sys2Proof/Machine/Bits.lean.
-/

namespace Sys2Proof

/-- A 32-bit register, frame word or IFP word (R8, R47). -/
abbrev Word := BitVec 32
/-- One byte on a wire or in memory. -/
abbrev Byte := BitVec 8
/-- A port slot, 0 to 2,047 (01_architecture.md R13). -/
abbrev Slot := BitVec 11
/-- A tent, 0 to 7. -/
abbrev TentIx := BitVec 3
/-- An optical engine, 0 to 15. -/
abbrev EngIx := BitVec 4
/-- A fibre pair, 0 to 511. -/
abbrev FpIx := BitVec 9
/-- A virtual channel, 0 to 7. -/
abbrev Vc := BitVec 3
/-- A VOQ of a tent, 0 to 16,383: egress slot times 8 plus VC (04_buffers.md R90). -/
abbrev VoqIx := BitVec 14
/-- A reduction stream, 0 to 4,095. -/
abbrev StreamIx := BitVec 12
/-- A tumbler sliver, 512 to a tent, tent in the upper bits. -/
abbrev SliverIx := BitVec 12
/-- A die: tents 0 to 7, Big Top 8 (16_registers.md R466). -/
abbrev DieIx := Fin 9
/-- A microring of an engine by its status entry: transmit and receive of 160 sites (10_optics.md R293). -/
abbrev RingIx := Fin 320
/-- A tumbler's scalar or vector register number (08_tumblers.md R234). -/
abbrev Reg5 := BitVec 5
/-- A tumbler's predicate register number, and other 3-bit choices. -/
abbrev Reg3 := BitVec 3

end Sys2Proof
end

