-- ==== Sys2Proof/Syntax.lean ====
section
/-!
DEFINITION. The commands of the S9 block. Every row of spec/opcode_table.json is one constructor of `Instr`;
its operands say which object the step acts on and what arrives from outside the part with it (a flit, a
measurement, a request). The table gives no row any bits.
-/

namespace Sys2Proof

/-- Who makes a register access (14_host_mgmt.md R418 SOURCE): the driver over CXL, or firmware, which also
carries out the requests of BMT over Ethernet and VC6 and of MCTP. -/
inductive Requester where
  | driver
  | firmware
  | bmtEth
  | bmtVc6
  | mctp
  deriving DecidableEq, Repr

/-- A link direction, seen from this part. -/
inductive Dir where
  | tx
  | rx
  deriving DecidableEq, Repr

/-- What SECDED answers of one read: nothing wrong, an error corrected, an error it cannot correct (04_buffers.md R98). -/
inductive Ecc where
  | good
  | corrected
  | wrong
  deriving DecidableEq, Repr

/-- One cell as it is read for transmission (R97, R98): the data, with the bytes as read where they are wrong, and its
next-pointer entry. -/
structure CellRead where
  data  : Ecc
  bytes : List Byte
  link  : Ecc
  deriving DecidableEq, Repr

/-- A flit as the receiver has it after FEC (02_itzal_link.md R32, R34): its 256 bytes, whether it overlaps an
uncorrectable codeword, the wavelength it came on, the corrected symbols and uncorrectable codewords decoded
with it, and the lane timestamp's sub-tick value (R260). -/
structure FlitRx where
  bytes   : List Byte
  fecBad  : Bool
  wl      : Fin 5
  corr    : Nat
  uncorr  : Nat
  sub     : BitVec 5
  deriving DecidableEq, Repr

/-- A lane-marker codeword (R31): the wavelength it came on, the logical position, slot counter and port slot
number it carries, whether the lane had lost light or lock since its previous marker (R492), and the deskew
measured against the port's other lanes in picoseconds (R33). -/
structure LaneMarker where
  wl       : Fin 5
  pos      : BitVec 2
  ctr      : Word
  portSlot : BitVec 16
  afterGap : Bool
  skewPs   : Nat
  deriving DecidableEq, Repr

/-- The readings of one monitor integration (10_optics.md R304): laser tap and fibre tap powers, one per tap. -/
structure MonReadings where
  lasers : List Int
  taps   : List Int
  deriving DecidableEq, Repr

/-- What a calibration measured (R296): a monitor that showed no response to its own dither, a microring that lost lock, and
the couplings of the transmit and the receive row in units of 2^-15, row i holding those from heater i to microrings i - 4 to
i + 4. -/
structure CalResult where
  silent : Bool
  lost   : Bool
  tx     : List (List Int)
  rx     : List (List Int)
  deriving DecidableEq, Repr

/-- What a memory device's training found (11_memory.md R330, R332): its organisation differs and it is excluded, or the
ports that have trained. -/
structure TrainResult where
  excluded : Bool
  ports    : BitVec 4
  deriving DecidableEq, Repr

/-- What an uncorrectable row of GDDR7 held (R336): a 64-byte block of a region, a staged node, the retained state or the
fingerprints of a chunk, a library slot's copy, or a spill block of a VOQ with its bytes as read. -/
inductive MemItem where
  | block (region off : Nat)
  | node (st e c : Nat)
  | kept (st e c : Nat)
  | print (st e c : Nat)
  | kernel (slot : Nat)
  | spill (q i : Nat) (bytes : List Byte)
  deriving DecidableEq, Repr

/-- What a bank's refresh slot closes (R336, R337, R339): the corrected and uncorrectable errors that reads of the row and its
scrub have met since the bank's slot before, the accesses that waited for this one, and what uncorrectable blocks of the row held. -/
structure RefreshWork where
  corr   : Nat
  uncorr : Nat
  stalls : Nat
  held   : List MemItem
  deriving DecidableEq, Repr

/-- Where a requester's access goes (R8; 14_host_mgmt.md R406 to R409): an offset of BAR0 or BAR2, or of the function's
configuration space. -/
inductive HostAddr where
  | bar0 (a : BitVec 28)
  | bar2 (a : BitVec 32)
  | config (a : BitVec 12)
  deriving DecidableEq, Repr

/-- The instruction that the JTAG port holds (17_electrical_package.md R486): BYPASS, one of the boundary scan, or another. -/
inductive TapInstr where
  | bypass
  | boundary (code : Nat)
  | other (code : Nat)
  deriving DecidableEq, Repr

/-- What the board does at pins that have no row of their own before it drives a reset pin: it programs a flash device while the
S9 leaves the SPI pins alone, with the bytes from an offset of a chip select's device as they read afterwards
(15_boot_security.md R434), or loads an instruction into the JTAG port (17_electrical_package.md R486).
DESIGN CHOICE, log entry 165. -/
inductive BoardAct where
  | flash (cs : Bool) (off : BitVec 26) (bytes : List Byte)
  | jtag (i : TapInstr)
  deriving DecidableEq, Repr

/-- A common command code that the I3C controller sends (14_host_mgmt.md R424): dynamic address assignment with the address given,
the end of every dynamic address, or another broadcast. -/
inductive I3cCcc where
  | entdaa (addr : BitVec 7)
  | rstdaa
  | other (code : BitVec 7)
  deriving DecidableEq, Repr

/-- A DOE request object (14_host_mgmt.md R415). -/
inductive DoeReq where
  | discovery (index : BitVec 8)
  | spdm (len : Nat)
  | table (handle : BitVec 16)
  | tooLarge
  deriving DecidableEq, Repr

/-- A frame on the management Ethernet lane (R421): an ARP request for an address, an ICMPv4 echo request to an address,
the address a DHCPv4 server offers, the lease it grants, an NTP answer with the time in nanoseconds, an IEEE 1588 message other than a Delay_Req to
port 319 or 320, a BMT message of unknown version or operation, or any other frame. Delay_Req and BMT's operations have rows
of their own. -/
inductive EthMsg where
  | arp (target sender : BitVec 32)
  | icmpEcho (dst src : BitVec 32) (data : List Byte)
  | dhcpOffer (addr : BitVec 32)
  | dhcpAck (addr : BitVec 32)
  | ntp (ns : BitVec 64)
  | ptp
  | bmtBad (seq : Word)
  | other
  deriving DecidableEq, Repr

/-- What the boot ROM meets beside the flash contents (15_boot_security.md R433, R434): whether the fuses are sensed, the
known-answer tests pass, and each flash device identifies in octal mode. -/
structure RomRun where
  fuseOk : Bool
  testOk : Bool
  octalA : Bool
  octalB : Bool
  deriving DecidableEq, Repr

/-- The fatal conditions (12_faults.md R378), in the order of their CAUSE. -/
inductive FatalCause where
  | tables | arbitration | master | cores | assertion | watchdog | ordered
  deriving DecidableEq, Repr

/-- What a requester may own: a time pin or a trigger unit (09_network_time.md R282). -/
inductive Owned where
  | pin (i : Fin 8)
  | unit (u : BitVec 5)
  deriving DecidableEq, Repr

/-- The path a BMT message comes by (R422). -/
inductive BmtPath where
  | ethernet
  | vc6
  deriving DecidableEq, Repr

/-- The PLDM sensors of R425. -/
inductive PldmSensor where
  | junction (die : DieIx)
  | packagePower
  | coreRail
  | memTemp (d : BitVec 4)
  | deviceState
  deriving DecidableEq, Repr

/-- The transports that carry SPDM (15_boot_security.md R441, R444); over MCTP with the requester's endpoint ID. -/
inductive SpdmVia where
  | doe
  | mctp (eid : BitVec 8)
  deriving DecidableEq, Repr

/-- A hardware fault that strikes a sliver as it takes a part: one that changes the sum of an element of the part's chunk
(12_faults.md R352), one that makes the chunk's result come out with other payloads and that nothing in the sliver detects
(R354), or an uncorrectable error in instruction memory, scratch or a register of the tumbler (08_tumblers.md R217, R233), which
the tumbler meets after so many more instructions, applications of its own combine among them. -/
inductive Upset where
  | none
  | sum (elem : Nat) (delta : Int)
  | result (pays : List (List Byte))
  | tumbler (after : Nat)
  deriving DecidableEq, Repr


/-- The commands of the block: one constructor per row of spec/opcode_table.json, with the row's operands. -/
inductive Instr where
  /-- REGISTER_WRITE (R10). -/
  | registerWrite (src : Requester) (addr : HostAddr) (size : Nat) (data : BitVec 64)
  /-- COUNTER_LO_READ (R11). -/
  | counterLoRead (src : Requester) (addr : BitVec 28)
  /-- COUNTER_HI_READ (R11). -/
  | counterHiRead (src : Requester) (addr : BitVec 28)
  /-- UCIE_MODULE_FAIL (R15). -/
  | ucieModuleFail (t : TentIx)
  /-- REPLICA_CHECK (R18). -/
  | replicaCheck (t : TentIx) (diff : Int)
  /-- REPLICA_RELOAD (R18). -/
  | replicaReload (t : TentIx)
  /-- ENV_EXCURSION_START (R21). -/
  | envExcursionStart (mv : BitVec 16) (die : DieIx) (tj : BitVec 16)
  /-- ENV_EXCURSION_END (R21). -/
  | envExcursionEnd (mv : BitVec 16) (die : DieIx) (tj : BitVec 16)
  /-- FLIT_RECEIVE (R40). -/
  | flitReceive (p : Slot) (rx : FlitRx)
  /-- LANE_MARKER_RECEIVE (R492). -/
  | laneMarkerReceive (p : Slot) (m : LaneMarker)
  /-- RETRY_REQ (R40). -/
  | retryReq (p : Slot) (seq : BitVec 16)
  /-- RETRY_REQ_REPEAT (R40). -/
  | retryReqRepeat (p : Slot)
  /-- LANE_MAP_REQ (R59). -/
  | laneMapReq (p : Slot) (force : Bool) (map : BitVec 12) (t : BitVec 32)
  /-- LANE_MAP_ACK (R59). -/
  | laneMapAck (p : Slot) (t : BitVec 32)
  /-- LANE_MAP_NAK (R59). -/
  | laneMapNak (p : Slot) (reason : BitVec 8) (t : BitVec 32)
  /-- LANE_MAP_SWITCH (R59). -/
  | laneMapSwitch (p : Slot) (dir : Dir)
  /-- LANE_MAP_CANCEL (R59). -/
  | laneMapCancel (p : Slot)
  /-- LANE_ADOPT (R60). -/
  | laneAdopt (p : Slot) (lane : BitVec 2) (wl : BitVec 3)
  /-- LANE_FAIL (R60). -/
  | laneFail (p : Slot) (lane : BitVec 2)
  /-- LANE_FEC_LOSS (R60). -/
  | laneFecLoss (p : Slot) (lane : BitVec 2) (othersLocked : Bool)
  /-- PAUSE (R61). -/
  | pause (p : Slot) (len : BitVec 24)
  /-- RESUME (R61). -/
  | resume (p : Slot)
  /-- PAUSE_TIMEOUT (R61). -/
  | pauseTimeout (p : Slot)
  /-- LINK_SILENCE_TIMEOUT (R42). -/
  | linkSilenceTimeout (p : Slot)
  /-- PORT_UP (R56). -/
  | portUp (p : Slot) (trips : Vector Nat 16) (up : Bool)
  /-- TRAINING_RETRY (R56). -/
  | trainingRetry (p : Slot)
  /-- FP_MODE_WRITE (R30). -/
  | fpModeWrite (src : Requester) (f : FpIx) (value : Word)
  /-- PORT_ENABLE (R94). -/
  | portEnable (src : Requester) (p : Slot) (value : Word)
  /-- PORT_DISABLE (R457). -/
  | portDisable (src : Requester) (p : Slot) (value : Word)
  /-- RESERVE_RETURN (R94). -/
  | reserveReturn (p : Slot)
  /-- INGRESS_HEADER_STAGE (R49). -/
  | ingressHeaderStage (p : Slot) (entry : Ecc)
  /-- FENCE_RELEASE (R85). -/
  | fenceRelease (p : Slot)
  /-- BACKLOG_REPORT (R75). -/
  | backlogReport (p : Slot)
  /-- MIDWAY_GRANT (R136). -/
  | midwayGrant (p : Slot) (v : Vc) (reads : List CellRead)
  /-- MIDWAY_TRANSFER (R351). -/
  | midwayTransfer (p : Slot) (v : Vc) (bad : Bool) (retries : Nat) (reads : List CellRead)
  /-- FLIT_SLOT (R123). -/
  | flitSlot (p : Slot) (sub : BitVec 5)
  /-- TRN_BUCKET_WRITE (R122). -/
  | trnBucketWrite (src : Requester) (p : Slot) (v : Vc) (w : BitVec 2) (value : Word)
  /-- SPILL_BLOCK_TIMER (R107). -/
  | spillBlockTimer (t : TentIx) (q : VoqIx) (reads : List CellRead)
  /-- SPILL_RECALL (R107). -/
  | spillRecall (t : TentIx) (q : VoqIx)
  /-- SPILL_RECALL_DONE (R107). -/
  | spillRecallDone (t : TentIx) (q : VoqIx) (bad : Option (List Byte))
  /-- USH_AUDIT (R99). -/
  | ushAudit (src : Requester) (t : TentIx)
  /-- USH_AUDIT_DONE (R99). -/
  | ushAuditDone (t : TentIx)
  /-- GATE_ENTRY_START (R128). -/
  | gateEntryStart (p : Slot)
  /-- GL_COMMIT (R132). -/
  | glCommit (src : Requester) (p : Slot)
  /-- GL_CANCEL (R132). -/
  | glCancel (src : Requester) (p : Slot)
  /-- GL_STOP (R132). -/
  | glStop (src : Requester) (p : Slot)
  /-- GL_SWITCH (R132). -/
  | glSwitch (p : Slot)
  /-- BYPASS_START (R131). -/
  | bypassStart (p : Slot)
  /-- BYPASS_RESTORE (R131). -/
  | bypassRestore (p : Slot)
  /-- BYPASS_END (R131). -/
  | bypassEnd (p : Slot)
  /-- BYPASS_REALIGN_TIMEOUT (R131). -/
  | bypassRealignTimeout (p : Slot)
  /-- FWD_TBL_WRITE (R74). -/
  | fwdTblWrite (src : Requester) (table : BitVec 2) (bank : Bool) (index : BitVec 14)
  /-- FWD_TBL_READ (R461). -/
  | fwdTblRead (src : Requester) (table : BitVec 2) (bank : Bool) (index : BitVec 14)
  /-- FWD_TBL_DONE (R74). -/
  | fwdTblDone
  /-- FWD_SWITCH (R83). -/
  | fwdSwitch (src : Requester) (atTrig : Bool) (trig : BitVec 5)
  /-- FWD_BANK_SWITCH (R84). -/
  | fwdBankSwitch (t : TentIx)
  /-- FWD_FLUSH_OLD (R86). -/
  | fwdFlushOld (src : Requester)
  /-- FWD_COPY (R87). -/
  | fwdCopy (src : Requester)
  /-- FWD_COPY_DONE (R87). -/
  | fwdCopyDone
  /-- FWD_DRAINED (R86). -/
  | fwdDrained
  /-- FWD_NOTICE_GO (R462). -/
  | fwdNoticeGo (src : Requester) (count : BitVec 15) (first : BitVec 14)
  /-- CAR_TBL_WRITE (R146). -/
  | carTblWrite (src : Requester) (table : BitVec 2) (index : BitVec 16)
  /-- CAR_TBL_READ (R185). -/
  | carTblRead (src : Requester) (table : BitVec 2) (index : BitVec 16)
  /-- STREAM_RESERVE (R152). -/
  | streamReserve (src : Requester) (st : StreamIx)
  /-- STREAM_RESERVE_DONE (R152). -/
  | streamReserveDone (st : StreamIx)
  /-- STREAM_ACTIVATE (R153). -/
  | streamActivate (src : Requester) (st : StreamIx) (e : BitVec 16)
  /-- STREAM_DRAIN (R153). -/
  | streamDrain (src : Requester) (st : StreamIx)
  /-- STREAM_ABORT (R153). -/
  | streamAbort (src : Requester) (st : StreamIx) (e : BitVec 16)
  /-- STREAM_ABORT_DONE (R153). -/
  | streamAbortDone (st : StreamIx)
  /-- STREAM_RELEASE (R153). -/
  | streamRelease (src : Requester) (st : StreamIx)
  /-- STREAM_FREED (R153). -/
  | streamFreed (st : StreamIx)
  /-- CONTRIBUTION_STEER (R158). -/
  | contributionSteer (p : Slot)
  /-- SLIVER_TAKE_PART (R159). -/
  | sliverTakePart (sl : SliverIx) (upset : Upset)
  /-- RESULT_RELEASE (R180). -/
  | resultRelease (sl : SliverIx)
  /-- SLOT_STALL (R160). -/
  | slotStall (st : StreamIx) (e : BitVec 16) (c : Word)
  /-- DRAIN_MARK_SET (R375). -/
  | drainMarkSet (p : Slot) (st : StreamIx)
  /-- SNT_REPLAY (R202). -/
  | sntReplay (src : Requester) (st : StreamIx) (e : BitVec 16)
  /-- SNT_RETRACT (R203). -/
  | sntRetract (src : Requester) (st : StreamIx) (e : BitVec 16)
  /-- RETRACT_RECOMPUTE_DONE (R203). -/
  | retractRecomputeDone (st : StreamIx) (faulty : Option (List (List Byte)))
  /-- SEAL_RECORD_WRITE (R209). -/
  | sealRecordWrite (st : StreamIx)
  /-- SEAL_SIGN_TIMER (R211). -/
  | sealSignTimer
  /-- TWIN_COMPLETE (R356). -/
  | twinComplete (st : StreamIx) (e : BitVec 16) (c : Word) (faulty : Option (List (List Byte)))
  /-- THIRD_COMPUTE_DONE (R357). -/
  | thirdComputeDone (st : StreamIx) (e : BitVec 16) (c : Word) (faulty : Option (List (List Byte)))
  /-- WATCH_EXPIRE (R357). -/
  | watchExpire (sl : SliverIx)
  /-- KLOAD_STAGE (R221). -/
  | kloadStage (src : Requester) (piece : BitVec 2)
  /-- KLOAD_VERIFY (R222). -/
  | kloadVerify (src : Requester) (slot : BitVec 8)
  /-- KLOAD_VERIFY_DONE (R222). -/
  | kloadVerifyDone
  /-- KLOAD_UNLOAD (R221). -/
  | kloadUnload (src : Requester) (slot : BitVec 8)
  /-- KLOAD_INFO (R221). -/
  | kloadInfo (src : Requester) (slot : BitVec 8)
  /-- TMB_SUBST (R254). -/
  | tmbSubst (src : Requester) (t : TentIx) (l : BitVec 9)
  /-- SUBST_TAKE (R254). -/
  | substTake (sl : SliverIx)
  /-- SALU (R241). -/
  | salu (sl : SliverIx) (d a b : Reg5) (func : BitVec 8)
  /-- ADDI (R236). -/
  | addi (sl : SliverIx) (d a : Reg5) (imm : BitVec 16)
  /-- ANDI (R236). -/
  | andi (sl : SliverIx) (d a : Reg5) (imm : BitVec 16)
  /-- ORI (R236). -/
  | ori (sl : SliverIx) (d a : Reg5) (imm : BitVec 16)
  /-- XORI (R236). -/
  | xori (sl : SliverIx) (d a : Reg5) (imm : BitVec 16)
  /-- LUI (R236). -/
  | lui (sl : SliverIx) (d a : Reg5) (imm : BitVec 16)
  /-- SHIFTI (R236). -/
  | shifti (sl : SliverIx) (d a : Reg5) (imm : BitVec 16)
  /-- SFPU (R241). -/
  | sfpu (sl : SliverIx) (d a b : Reg5) (func : BitVec 8)
  /-- FFMA (R241). -/
  | ffma (sl : SliverIx) (d a b c : Reg5)
  /-- LDW (R246). -/
  | ldw (sl : SliverIx) (t base : Reg5) (off : BitVec 13)
  /-- LDH (R246). -/
  | ldh (sl : SliverIx) (t base : Reg5) (off : BitVec 13)
  /-- LDHU (R246). -/
  | ldhu (sl : SliverIx) (t base : Reg5) (off : BitVec 13)
  /-- LDB (R246). -/
  | ldb (sl : SliverIx) (t base : Reg5) (off : BitVec 13)
  /-- LDBU (R246). -/
  | ldbu (sl : SliverIx) (t base : Reg5) (off : BitVec 13)
  /-- STW (R246). -/
  | stw (sl : SliverIx) (t base : Reg5) (off : BitVec 13)
  /-- STH (R246). -/
  | sth (sl : SliverIx) (t base : Reg5) (off : BitVec 13)
  /-- STB (R246). -/
  | stb (sl : SliverIx) (t base : Reg5) (off : BitVec 13)
  /-- VLD (R246). -/
  | vld (sl : SliverIx) (t base : Reg5) (pg : Reg3) (off : BitVec 13)
  /-- VST (R246). -/
  | vst (sl : SliverIx) (t base : Reg5) (pg : Reg3) (off : BitVec 13)
  /-- BEQ (R247). -/
  | beq (sl : SliverIx) (a b : Reg5) (off : BitVec 16)
  /-- BNE (R247). -/
  | bne (sl : SliverIx) (a b : Reg5) (off : BitVec 16)
  /-- BLT (R247). -/
  | blt (sl : SliverIx) (a b : Reg5) (off : BitVec 16)
  /-- BGE (R247). -/
  | bge (sl : SliverIx) (a b : Reg5) (off : BitVec 16)
  /-- BLTU (R247). -/
  | bltu (sl : SliverIx) (a b : Reg5) (off : BitVec 16)
  /-- BGEU (R247). -/
  | bgeu (sl : SliverIx) (a b : Reg5) (off : BitVec 16)
  /-- J (R247). -/
  | kjump (sl : SliverIx) (off : BitVec 26)
  /-- LOOP (R247). -/
  | kloop (sl : SliverIx) (a lidx : Reg5) (off : BitVec 16)
  /-- EXIT (R230). -/
  | kexit (sl : SliverIx)
  /-- FAULT (R233). -/
  | kfault (sl : SliverIx) (d a : Reg5) (imm : BitVec 16)
  /-- VALU (R242). -/
  | valu (sl : SliverIx) (d a b : Reg5) (pg ty : Reg3) (func : BitVec 5)
  /-- VCMP (R242). -/
  | vcmp (sl : SliverIx) (d a b : Reg5) (pg ty : Reg3) (func : BitVec 5)
  /-- VFMA (R243). -/
  | vfma (sl : SliverIx) (d a b c : Reg5) (pg ty : Reg3)
  /-- VFMS (R243). -/
  | vfms (sl : SliverIx) (d a b c : Reg5) (pg ty : Reg3)
  /-- VFNMA (R243). -/
  | vfnma (sl : SliverIx) (d a b c : Reg5) (pg ty : Reg3)
  /-- VCVT (R244). -/
  | vcvt (sl : SliverIx) (d a b : Reg5) (pg ty : Reg3) (func : BitVec 5)
  /-- VRED (R245). -/
  | vred (sl : SliverIx) (d a b : Reg5) (pg ty : Reg3) (func : BitVec 5)
  /-- VSEL (R242). -/
  | vsel (sl : SliverIx) (d a b : Reg5) (pg ty : Reg3) (func : BitVec 5)
  /-- VXF (R242). -/
  | vxf (sl : SliverIx) (d a b : Reg5) (pg ty : Reg3) (func : BitVec 5)
  /-- VMOV (R242). -/
  | vmov (sl : SliverIx) (d a b : Reg5) (pg ty : Reg3) (func : BitVec 5)
  /-- PLOGIC (R242). -/
  | plogic (sl : SliverIx) (d a b : Reg5) (func : BitVec 8)
  /-- RDSYS (R250). -/
  | rdsys (sl : SliverIx) (d sel : Reg5)
  /-- TIME_APPLY (R259). -/
  | timeApply
  /-- NOW_READ (R260). -/
  | nowRead (src : Requester)
  /-- RATE_HI_WRITE (R287). -/
  | rateHiWrite (src : Requester) (value : Word)
  /-- SERVO_START (R266). -/
  | servoStart (src : Requester) (root : Bool) (parent : Slot)
  /-- SERVO_REARM (R266). -/
  | servoRearm (src : Requester) (root : Bool) (parent : Slot)
  /-- SERVO_SETTIME (R266). -/
  | servoSettime (src : Requester) (root : Bool) (parent : Slot)
  /-- SERVO_STOP (R266). -/
  | servoStop (src : Requester) (root : Bool) (parent : Slot)
  /-- SYNC (R264). -/
  | sync (p : Slot)
  /-- FOLLOW_UP (R269). -/
  | followUp (p : Slot)
  /-- PDELAY_REQ (R270). -/
  | pdelayReq (p : Slot)
  /-- PDELAY_RESP (R270). -/
  | pdelayResp (p : Slot)
  /-- PDELAY_RESP_FOLLOW_UP (R270). -/
  | pdelayRespFollowUp (p : Slot)
  /-- DELAY_REQ (R269). -/
  | delayReq (seq : BitVec 16) (ident : BitVec 80) (corr : BitVec 64) (domain : BitVec 8) (option : Bool) (sub : BitVec 5)
  /-- SYNC_SEND_TIMER (R271). -/
  | syncSendTimer
  /-- PDELAY_REQ_TIMER (R270). -/
  | pdelayReqTimer
  /-- ETH_PTP_TIMER (R273). -/
  | ethPtpTimer
  /-- SYNC_TIMEOUT (R265). -/
  | syncTimeout
  /-- TRIGGER_ARM (R278). -/
  | triggerArm (src : Requester) (u : BitVec 5) (value : Word)
  /-- TRIGGER_DISARM (R279). -/
  | triggerDisarm (src : Requester) (u : BitVec 5)
  /-- TRIGGER_FIRE (R279). -/
  | triggerFire (u : BitVec 5)
  /-- LAUNCH_BUFFER_SEND (R283). -/
  | launchBufferSend (p : Slot) (sub : BitVec 5)
  /-- PIN_CAPTURE (R281). -/
  | pinCapture (pin : Reg3) (rising : Bool) (sub : BitVec 5)
  /-- OWNER_RELEASE (R282). -/
  | ownerRelease (src : Requester) (x : Owned)
  /-- HEATER_CYCLE (R294). -/
  | heaterCycle (e : EngIx) (loops : List Int)
  /-- HEATER_STARVED (R294). -/
  | heaterStarved (e : EngIx) (loops : List Int)
  /-- MONITOR_INTEGRATION (R304). -/
  | monitorIntegration (e : EngIx) (rd : MonReadings)
  /-- SPARE_READY (R308). -/
  | spareReady (e : EngIx) (q : BitVec 2) (upper : Bool)
  /-- LASER_SWAP (R309). -/
  | laserSwap (e : EngIx) (q : BitVec 2)
  /-- LASER_SWAP_RELEASE (R309). -/
  | laserSwapRelease (e : EngIx) (q : BitVec 2)
  /-- MODULE_POLL (R305). -/
  | modulePoll (e : EngIx) (ready : Bool) (failed : List Nat) (monitors : List Int)
  /-- LANE_HEALTH_CHECK (R313). -/
  | laneHealthCheck (p : Slot)
  /-- RING_VERIFY_DONE (R300). -/
  | ringVerifyDone (e : EngIx) (site : RingIx) (own : Nat) (gaps : List Int) (tone : Reg3)
  /-- RING_REVERIFY (R300). -/
  | ringReverify (e : EngIx) (site : RingIx) (own : Nat) (gaps : List Int) (tone : Reg3)
  /-- RING_SEARCH_STEP (R301). -/
  | ringSearchStep (e : EngIx) (site : RingIx) (peak : Bool) (own : Nat) (gaps : List Int) (tone : Reg3)
  /-- XT_CAL (R296). -/
  | xtCal (src : Requester) (e : EngIx)
  /-- XT_CAL_TIMER (R296). -/
  | xtCalTimer (e : EngIx)
  /-- XT_CAL_DEFERRED_START (R296). -/
  | xtCalDeferredStart (e : EngIx)
  /-- XT_CAL_DONE (R296). -/
  | xtCalDone (e : EngIx) (cal : CalResult)
  /-- XT_COMMIT (R297). -/
  | xtCommit (src : Requester) (e : EngIx)
  /-- APR_ENTER (R315). -/
  | aprEnter (f : FpIx)
  /-- APR_PULSE_START (R316). -/
  | aprPulseStart (f : FpIx)
  /-- APR_PULSE_END (R316). -/
  | aprPulseEnd (f : FpIx)
  /-- APR_EXIT (R316). -/
  | aprExit (f : FpIx)
  /-- LASER_INPUT_LOST (R318). -/
  | laserInputLost (e : EngIx) (q : BitVec 2)
  /-- ENGINE_START (R319). -/
  | engineStart (src : Requester) (e : EngIx)
  /-- ENGINE_CONTINUITY_CHECK (R319). -/
  | engineContinuityCheck (e : EngIx) (pwr : List Int)
  /-- ENGINE_READY (R319). -/
  | engineReady (e : EngIx) (cal : CalResult)
  /-- TRP_XCONN_WRITE (R321). -/
  | trpXconnWrite (src : Requester) (f : FpIx) (value : Word)
  /-- MEM_TRAIN_DONE (R332). -/
  | memTrainDone (d : BitVec 4) (tr : TrainResult)
  /-- MEM_INIT (R335). -/
  | memInit (src : Requester) (t : TentIx)
  /-- MEM_INIT_DONE (R332). -/
  | memInitDone (t : TentIx)
  /-- REFRESH_SLOT (R337). -/
  | refreshSlot (t : TentIx) (port : Reg3) (row : BitVec 24) (work : RefreshWork)
  /-- MEM_PLAN_COMMIT (R342). -/
  | memPlanCommit (src : Requester) (t : TentIx)
  /-- MEM_DEVICE_FAIL (R345). -/
  | memDeviceFail (d : BitVec 4)
  /-- MEM_REBUILD_DONE (R346). -/
  | memRebuildDone (t : TentIx)
  /-- HOST_MEM_READ (R413). -/
  | hostMemRead (dpa : BitVec 36) (bad : BitVec 2)
  /-- HOST_MEM_WRITE (R413). -/
  | hostMemWrite (dpa : BitVec 36) (data : List Byte)
  /-- CORE_FAIL (R25). -/
  | coreFail (core : Fin 5)
  /-- FATAL_CONDITION (R378). -/
  | fatalCondition (cause : FatalCause)
  /-- WATCHDOG_EXPIRE (R378). -/
  | watchdogExpire
  /-- DUMP_DONE (R379). -/
  | dumpDone (core log : List Byte)
  /-- DUMP_FATAL_ORDER (R381). -/
  | dumpFatalOrder (src : Requester)
  /-- DUMP_ACK (R378). -/
  | dumpAck (src : Requester)
  /-- CNT_SNAP (R385). -/
  | cntSnap (src : Requester) (page : BitVec 12)
  /-- CNT_CLEAR (R386). -/
  | cntClear (src : Requester) (page : BitVec 12)
  /-- SNAPSHOT_DONE (R385). -/
  | snapshotDone (page : BitVec 12)
  /-- OCC_MONITOR_TICK (R388). -/
  | occMonitorTick (t : TentIx) (m : BitVec 4)
  /-- SAMPLER_CFG_WRITE (R392). -/
  | samplerCfgWrite (src : Requester) (t : TentIx) (k : BitVec 4) (filt : Bool) (value : Word)
  /-- OCC_CFG_WRITE (R388). -/
  | occCfgWrite (src : Requester) (t : TentIx) (m : BitVec 4) (n : Bool) (value : Word)
  /-- SMPQ_TAIL_WRITE (R394). -/
  | smpqTailWrite (src : Requester) (value : Word)
  /-- BACKLOG_NOTICE (R400). -/
  | backlogNotice
  /-- BAR2_WRITE (R410). -/
  | bar2Write (src : Requester) (addr : BitVec 32) (data : List Word)
  /-- INT_FORCE (R418). -/
  | intForce (src : Requester) (page : BitVec 12) (value : Word)
  /-- INT_EN_WRITE (R420). -/
  | intEnWrite (src : Requester) (page : BitVec 12) (pend : Bool) (value : Word)
  /-- FUNCTION_LEVEL_RESET (R407). -/
  | functionLevelReset
  /-- GET_EVENT_RECORDS (R414). -/
  | getEventRecords
  /-- CLEAR_EVENT_RECORDS (R414). -/
  | clearEventRecords (n : Nat)
  /-- GET_TIMESTAMP (R414). -/
  | getTimestamp
  /-- SET_TIMESTAMP (R414). -/
  | setTimestamp (ns : BitVec 64)
  /-- GET_SUPPORTED_LOGS (R414). -/
  | getSupportedLogs
  /-- GET_LOG (R414). -/
  | getLog (offset len : Nat)
  /-- IDENTIFY_MEMORY_DEVICE (R414). -/
  | identifyMemoryDevice
  /-- GET_HEALTH_INFO (R414). -/
  | getHealthInfo
  /-- MAILBOX_UNSUPPORTED (R414). -/
  | mailboxUnsupported (opcode : BitVec 16)
  /-- DOE_REQUEST (R415). -/
  | doeRequest (inst : Bool) (req : DoeReq)
  /-- DOE_ABORT (R415). -/
  | doeAbort (inst : Bool)
  /-- ETH_FRAME_RECEIVE (R421). -/
  | ethFrameReceive (m : EthMsg)
  /-- BMT_READ (R422). -/
  | bmtRead (path : BmtPath) (seq : Word) (space : BitVec 8) (count : BitVec 16) (addr : Word)
  /-- BMT_WRITE (R422). -/
  | bmtWrite (path : BmtPath) (seq : Word) (space : BitVec 8) (addr : Word) (data : List Word)
  /-- BMT_SUBSCRIBE (R422). -/
  | bmtSubscribe (path : BmtPath) (seq : Word) (sender : BitVec 48)
  /-- I3C_ENTDAA (R424). -/
  | i3cEntdaa (ccc : I3cCcc)
  /-- I3C_GETSTATUS (R433). -/
  | i3cGetstatus
  /-- MCTP_CONTROL (R424). -/
  | mctpControl (ty : BitVec 7) (eid : BitVec 8) (setEid : Option (BitVec 8))
  /-- GET_TID (R425). -/
  | getTid
  /-- GET_PLDM_VERSION (R425). -/
  | getPldmVersion (ty : BitVec 8)
  /-- GET_PLDM_TYPES (R425). -/
  | getPldmTypes
  /-- GET_PLDM_COMMANDS (R425). -/
  | getPldmCommands (ty : BitVec 8)
  /-- PLDM_SENSOR_READ (R425). -/
  | pldmSensorRead (sensor : PldmSensor)
  /-- REQUEST_UPDATE (R448). -/
  | requestUpdate
  /-- TRANSFER_COMPLETE (R448). -/
  | transferComplete (ok : Bool) (image : List Byte)
  /-- VERIFY_COMPLETE (R448). -/
  | verifyComplete
  /-- APPLY_COMPLETE (R448). -/
  | applyComplete
  /-- ACTIVATE_FIRMWARE (R448). -/
  | activateFirmware (selfContained : Bool)
  /-- CANCEL_UPDATE (R448). -/
  | cancelUpdate
  /-- GET_VERSION (R444). -/
  | getVersion (via : SpdmVia)
  /-- GET_CAPABILITIES (R441). -/
  | getCapabilities (via : SpdmVia)
  /-- NEGOTIATE_ALGORITHMS (R441). -/
  | negotiateAlgorithms (via : SpdmVia)
  /-- GET_DIGESTS (R441). -/
  | getDigests (via : SpdmVia)
  /-- GET_CERTIFICATE (R441). -/
  | getCertificate (via : SpdmVia) (offset len : Nat)
  /-- CHALLENGE (R443). -/
  | challenge (via : SpdmVia) (nonce : BitVec 256)
  /-- GET_MEASUREMENTS (R442). -/
  | getMeasurements (via : SpdmVia) (index : BitVec 8) (nonce : BitVec 256)
  /-- POWER_ON_RESET (R427). -/
  | powerOnReset (straps : BitVec 4)
  /-- RESET_COLD (R430). -/
  | resetCold (src : Requester)
  /-- RESET_WARM (R430). -/
  | resetWarm (src : Requester)
  /-- RESET_MANAGEMENT (R432). -/
  | resetManagement (src : Requester)
  /-- RESET_TAKE_EFFECT (R430). -/
  | resetTakeEffect (straps : BitVec 4)
  /-- RST_COLD_PIN (R427). -/
  | rstColdPin (straps : BitVec 4) (board : List BoardAct)
  /-- RST_WARM_PIN (R429). -/
  | rstWarmPin (board : List BoardAct)
  /-- HOST_INTERFACE_RESET (R427). -/
  | hostInterfaceReset
  /-- BOOT_ROM_RUN (R433). -/
  | bootRomRun (rom : RomRun)
  /-- FW_CONFIRM (R447). -/
  | fwConfirm
  /-- FWUP_OPEN (R446). -/
  | fwupOpen (src : Requester)
  /-- FWUP_WRITE (R446). -/
  | fwupWrite (src : Requester) (piece : BitVec 10)
  /-- FWUP_CLOSE (R446). -/
  | fwupClose (src : Requester)
  /-- FWUP_ACTIVATE (R446). -/
  | fwupActivate (src : Requester) (mode : Bool)
  /-- FWUP_REVERT (R446). -/
  | fwupRevert (src : Requester)
  /-- FWUP_ABORT (R446). -/
  | fwupAbort (src : Requester)
  /-- ADVANCE_SVN (R438). -/
  | advanceSvn (src : Requester) (value : BitVec 8)
  /-- SET_OWNER (R438). -/
  | setOwner (src : Requester)
  /-- PWR_OK_RISE (R472). -/
  | pwrOkRise (straps : BitVec 4)
  /-- PWR_OK_FALL (R474). -/
  | pwrOkFall
  /-- RAIL_FAULT (R468). -/
  | railFault (rail : Fin 9) (mv : BitVec 16)
  /-- REFCLK_LOSS (R477). -/
  | refclkLoss
  /-- CXL_REFCLK_LOSS (R477). -/
  | cxlRefclkLoss
  /-- THERMAL_TRIP (R480). -/
  | thermalTrip (die : DieIx) (tj : BitVec 16)
  /-- FUSE_RAIL_CHANGE (R471). -/
  | fuseRailChange (present : Bool)
  /-- REGISTER_READ (R8). -/
  | registerRead (src : Requester) (addr : HostAddr) (size : Nat)
  /-- SPILL_BLOCK_WRITTEN (R106). -/
  | spillBlockWritten (t : TentIx) (q : VoqIx) (reads : List CellRead)
  /-- REPLAY_DONE (R207). -/
  | replayDone
  /-- FWUP_COMMAND_DONE (R446). -/
  | fwupCommandDone (flashError : Bool)
  /-- FUSE_OPERATION_DONE (R438). -/
  | fuseOperationDone
  /-- KLOAD_STAGE_DONE (R221). -/
  | kloadStageDone
  /-- FWD_NOTICE_SEND (R462). -/
  | fwdNoticeSend
  /-- CXL_LINK_TRAIN (R406). -/
  | cxlLinkTrain (x8 : Bool) (speed : Fin 3) (flit256 : Bool)
  /-- CXL_LINK_LOSS (R426). -/
  | cxlLinkLoss
  /-- REFCLK_RETURN (R477). -/
  | refclkReturn (straps : BitVec 4)
  /-- MONITOR_STARVED (R304). -/
  | monitorStarved (e : EngIx) (rd : MonReadings)
  /-- CALIBRATION_DEFERRED (R296). -/
  | calibrationDeferred (e : EngIx)
  /-- PIN_PULSE_END (R281). -/
  | pinPulseEnd (pin : Reg3)
  /-- MEM_DEVICE_HOT (R337). -/
  | memDeviceHot (d : BitVec 4) (hot : Bool)
  /-- ILLEGAL_INSTRUCTION_WORD (R237). -/
  | illegalInstructionWord (sl : SliverIx)
  deriving DecidableEq, Repr

end Sys2Proof
end

