-- ==== Sys2Proof/Decode.lean ====
section
/-!
DEFINITION. The decoder of the command table: no row of spec/opcode_table.json gives bits, so no word spells a
command.
-/

namespace Sys2Proof

/-- The command a word of `nbits` bits spells by the table: none, for the table gives no row any bits. -/
def decodeTableWord (_nbits _w : Nat) : Option Instr := none

end Sys2Proof
end

