-- ==== Sys2Proof/Config.lean ====
section
/-!
DEFINITION. Free values: constants without a body for what the spec leaves open or does not state. Nothing can
evaluate one or prove a value of it; a claim that mentions one holds for every value.
-/

namespace Sys2Proof

/-- The value number `i` the spec does not state, where the block goes on. Each use takes a fresh index from
`Box.freeCtr`. -/
opaque Config.freeBits : Nat → BitVec 64

/-- The result of an integer SUM whose wide partials set NAN, PINF or NINF (their bits, in that order from bit 0):
06_collectives.md R168 asks for the NaN or infinity of RFMT, which an integer format does not have.
DESIGN CHOICE, log entry 79. -/
opaque Config.flaggedInt (rfmt flags : Nat) : BitVec 64

/-- The signature, `r` above `s`, where 64 candidates of the nonce generator of RFC 6979 in a row do not serve
(07_determinism_audit.md R211): the generator goes on, and the model leaves the value open.
DESIGN CHOICE, log entry 174. -/
opaque Config.signature (key : BitVec 384) (digest : List (BitVec 8)) : BitVec 768

/-- The part of the alias certificate that its issuer signs, by the alias public key and the vendor, model, version, svn, layer and
fwid of its TcbInfo (15_boot_security.md R439): its encoding is not stated. -/
opaque Config.aliasTbs (pub : List (BitVec 8)) (vendor model : String) (version svn layer : Nat) (fwid : List (BitVec 8)) :
    List (BitVec 8)
/-- A certificate from its signed part and the issuer's signature over it (R439): the encoding is not stated. -/
opaque Config.certOf (tbs sig : List (BitVec 8)) : List (BitVec 8)

/-- The heater code that spans 1.2 FSR on a microring, at most 65,535 (10_optics.md R293, R301).
DESIGN CHOICE, log entry 109. -/
opaque Config.fsrCode (ring : Nat) : BitVec 16

/-- The setpoint a microring's lock loop gives (10_optics.md R294, R299): from the row (true for transmit), the target of its lock
point, the setpoint before and the lock sample. The spec does not state the loop's law.
DESIGN CHOICE, log entry 108. -/
opaque Config.lockLoop (transmit : Bool) (target : Nat) (set sample : Int) : Int

/-- The factory-set fraction of its monitor's peak at which a transmit microring locks, in units of 2^-16 (R299).
DESIGN CHOICE, log entry 109. -/
opaque Config.slopeFraction (ring : Nat) : BitVec 16

/-- The shape of the 5 kHz dither at a tick of its 128,000 tk period, in 2^-15 heater code steps before its bound of ±0.02 mW
(R299).
DESIGN CHOICE, log entry 108. -/
opaque Config.dither (phase : Nat) : Int

/-- The clock identity in the S9's PTP messages (09_network_time.md R269): the spec does not state it. -/
opaque Config.clockId : BitVec 64

/-! What manufacture gives the part (15_boot_security.md R437 to R439, R442). -/

/-- The 384-bit unique device secret.
DESIGN CHOICE, log entry 8. -/
opaque Config.uds : BitVec 384
/-- The vendor key hash in the fuses. -/
opaque Config.vendorHash : BitVec 384
/-- The device serial. -/
opaque Config.serial : BitVec 64
/-- The management MAC address. -/
opaque Config.mac : BitVec 48
/-- DEBUG_LOCKED. -/
opaque Config.debugLocked : Bool
/-- The secret key of KeyGen(x) where x is no candidate that FIPS 186-5 appendix A.2.2 takes (R439).
DESIGN CHOICE, log entry 174. -/
opaque Config.keyGenAgain (x : List (BitVec 8)) : BitVec 384
/-- The certificates above the DeviceID certificate in slot 0: root, manufacturing CA (R441). -/
opaque Config.caCerts : List (BitVec 8)
/-- Byte `i` of the identity sector of a flash device as manufactured (R434). -/
opaque Config.identity (cs i : Nat) : BitVec 8
/-- Where the DeviceID certificate lies in the identity sector, and its length (R434, R439): not stated. -/
opaque Config.deviceCertAt : Nat × Nat
/-- Digest of the boot ROM. -/
opaque Config.romDigest : BitVec 384
/-- Digest of the boot configuration that firmware applied. -/
opaque Config.bootConfig : BitVec 384
/-- Ballasin's PCI-SIG vendor ID (14_host_mgmt.md R406): not stated. -/
opaque Config.vendorId : BitVec 16
/-- What a word of configuration space that no rule lays out holds after a reset of the function, and after a write (R406, R407):
not stated.
PRESUMED, log entry 172. -/
opaque Config.cfgWord (a : Nat) : BitVec 32
/-- A word of configuration space after a write. -/
opaque Config.cfgWrite (a : Nat) (old v : BitVec 32) : BitVec 32
/-- Whether a write of a word of configuration space sets or clears the host's Memory_Active (R412): where that bit lies is not
stated.
PRESUMED, log entry 172. -/
opaque Config.memActive (a : Nat) (v : BitVec 32) : Option Bool
/-- A word of the CXL component registers and memory device registers after a reset, and after a write (R416): not stated.
DESIGN CHOICE, log entry 25. -/
opaque Config.cxlWord (a : Nat) : BitVec 32
/-- A word of the CXL component or memory device registers after a write. -/
opaque Config.cxlWrite (a : Nat) (old v : BitVec 32) : BitVec 32
/-- Whether a word of the CXL component registers belongs to the HDM decoder (R407, R416): not stated. -/
opaque Config.hdmWord (a : Nat) : Bool
/-- The I3C provisional ID that a device serial gives (R424): not stated. -/
opaque Config.provisionalId (serial : BitVec 64) : BitVec 48
/-- The units of the host window that the boot configuration names, where it names any (R412). -/
opaque Config.bootUnits : Option Nat
/-- The static IPv4 address of the firmware configuration, where it holds one (R421). -/
opaque Config.staticIp : Option (BitVec 32)
/-- The MCTP terminus ID that GetTID reports (14_host_mgmt.md R425): not stated. -/
opaque Config.tid : BitVec 8
/-- Effect word of an entry of the Command Effects Log (R414): not stated. -/
opaque Config.commandEffect (opcode : Nat) : BitVec 16

/-- Byte `i` of the payload in which a part's wide partials leave where they exceed 4,096 bytes (06_collectives.md R171): the
S9 never sends more, and PART must be chosen so that a part fits (R170).
DESIGN CHOICE, log entry 162. -/
opaque Config.oversize (payload : List (BitVec 8)) (i : Nat) : BitVec 8
/-- The bank of a row of a GDDR7 port, and that of the spare row of an entry of its spare map (11_memory.md R339): the devices' own.
DESIGN CHOICE, log entry 119. -/
opaque Config.rowBank (row : Nat) : Nat
/-- The bank of a spare row. -/
opaque Config.spareBank (entry : Nat) : Nat
/-- The place of an input fingerprint in its tent's part of region 3, by stream, epoch, chunk, contributor and part
(07_determinism_audit.md R208): canonical, and not stated.
DESIGN CHOICE, log entry 118. -/
opaque Config.fpPlace (stream epoch chunk j k : Nat) : Nat

end Sys2Proof
end

