-- ==== Sys2Proof/Machine/Bits.lean ====
section
/-!
DEFINITION. Bit fields, byte orders and modular helpers. Frames, flits and other wire forms go most significant
byte first (00_scope.md R7); registers and structures in device memory are little-endian (R7).
-/

namespace Sys2Proof.Machine

/-- Bits `[lo + width - 1 : lo]` of a number. -/
def natField (n lo width : Nat) : Nat := n / 2 ^ lo % 2 ^ width

/-- Bits `[lo + width - 1 : lo]` of a word, as a number. -/
def wordField (w : Word) (lo width : Nat) : Nat := natField w.toNat lo width

/-- A word with one field replaced by `v` modulo the field's width. -/
def wordWith (w : Word) (lo width v : Nat) : Word :=
  BitVec.ofNat 32 (w.toNat - wordField w lo width * 2 ^ lo + v % 2 ^ width * 2 ^ lo)

/-- Bit `i` of a word. -/
def wordBit (w : Word) (i : Nat) : Bool := w.getLsbD i

/-- A Boolean as a bit. -/
def b2n (b : Bool) : Nat := if b then 1 else 0

/-- The low `n` bytes of a number, most significant first (R7, wires). -/
def bytesBE : Nat → Nat → List Byte
  | 0, _ => []
  | n + 1, v => BitVec.ofNat 8 (v / 256 ^ n) :: bytesBE n v

/-- The low `n` bytes of a number, least significant first (R7, device memory). -/
def bytesLE : Nat → Nat → List Byte
  | 0, _ => []
  | n + 1, v => BitVec.ofNat 8 v :: bytesLE n (v / 256)

/-- The number a most-significant-first byte list spells. -/
def natBE (bs : List Byte) : Nat := bs.foldl (fun a b => a * 256 + b.toNat) 0

/-- The number a least-significant-first byte list spells. -/
def natLE (bs : List Byte) : Nat := bs.foldr (fun b a => b.toNat + a * 256) 0

/-- Bytes `[i, i + n)` of a list, zero beyond its end. -/
def bytesAt (bs : List Byte) (i n : Nat) : List Byte := (List.range n).map fun k => bs.getD (i + k) 0

/-- A number at byte offset `i`, `n` bytes, most significant first. -/
def beAt (bs : List Byte) (i n : Nat) : Nat := natBE (bytesAt bs i n)

/-- A number at byte offset `i`, `n` bytes, least significant first. -/
def leAt (bs : List Byte) (i n : Nat) : Nat := natLE (bytesAt bs i n)

/-- The big-endian 32-bit words of a byte list, four bytes each. -/
def wordsBE (bs : List Byte) : List Word :=
  (List.range (bs.length / 4)).map fun i => BitVec.ofNat 32 (beAt bs (4 * i) 4)

/-- The little-endian 32-bit words of a byte list. -/
def wordsLE (bs : List Byte) : List Word :=
  (List.range (bs.length / 4)).map fun i => BitVec.ofNat 32 (leAt bs (4 * i) 4)

/-- The bytes of little-endian words. -/
def wordBytesLE (ws : List Word) : List Byte := ws.flatMap fun w => bytesLE 4 w.toNat

/-- The bytes of big-endian words. -/
def wordBytesBE (ws : List Word) : List Byte := ws.flatMap fun w => bytesBE 4 w.toNat

/-- Replaces `vs.length` list elements from index `i`; elements beyond the list's end are dropped. -/
def listPut {α : Type} (l : List α) (i : Nat) (vs : List α) : List α :=
  l.mapIdx fun k x => if i ≤ k ∧ k < i + vs.length then vs.getD (k - i) x else x

/-- A list cut or padded with `x` to `n` elements. -/
def padTo {α : Type} (n : Nat) (x : α) (l : List α) : List α := l.take n ++ List.replicate (n - l.length) x

/-- `⌈a / b⌉`. -/
def ceilDiv (a b : Nat) : Nat := (a + b - 1) / b

/-- A two's complement reading of the low `w` bits. -/
def toSigned (w n : Nat) : Int := if n % 2 ^ w < 2 ^ (w - 1) then (n % 2 ^ w : Nat) else (n % 2 ^ w : Nat) - (2 ^ w : Nat)

/-- The low `w` bits of an integer in two's complement. -/
def ofSigned (w : Nat) (i : Int) : Nat := (i % (2 ^ w : Nat)).toNat

/-- `a` modulo `2^16` less `b`: the cumulative differences of R43. -/
def sub16 (a b : Nat) : Nat := (a + 65536 - b % 65536) % 65536

/-- The first index in a list of naturals at which `p` holds. -/
def firstIx (p : Nat → Bool) (l : List Nat) : Option Nat := l.find? p

end Sys2Proof.Machine
end

