-- ==== Sys2Proof/Machine/Crc.lean ====
section
/-!
DEFINITION. The three checks of the wire: CRC-32 of IEEE 802.3 over a flit (02_itzal_link.md R36), CRC-32C over
a frame and over records (R53), CRC-64/ECMA-182 as the fingerprint of a payload (R55).
-/

namespace Sys2Proof.Machine

/-- One bit of a reflected CRC: shift right, the polynomial folded in where a one falls out. -/
def crcReflBit (poly c : Nat) : Nat := if c % 2 = 1 then (c / 2) ^^^ poly else c / 2

/-- One byte of a reflected 32-bit CRC. -/
def crcReflByte (poly c : Nat) (b : Byte) : Nat :=
  let x := c ^^^ b.toNat
  let x := crcReflBit poly (crcReflBit poly (crcReflBit poly (crcReflBit poly x)))
  crcReflBit poly (crcReflBit poly (crcReflBit poly (crcReflBit poly x)))

/-- A reflected 32-bit CRC with initial value and final XOR all ones. -/
def crcRefl (poly : Nat) (bs : List Byte) : Word :=
  BitVec.ofNat 32 (bs.foldl (crcReflByte poly) 0xFFFFFFFF ^^^ 0xFFFFFFFF)

/-- The link CRC of R36: polynomial 0x04C1_1DB7 reflected. -/
def crc32 (bs : List Byte) : Word := crcRefl 0xEDB88320 bs

/-- The end-to-end CRC-32C of R53: polynomial 0x1EDC_6F41 reflected. -/
def crc32c (bs : List Byte) : Word := crcRefl 0x82F63B78 bs

/-- One bit of the unreflected 64-bit CRC. -/
def crc64Bit (c : Nat) : Nat :=
  if c / 2 ^ 63 = 1 then (c * 2 % 2 ^ 64) ^^^ 0x42F0E1EBA9EA3693 else c * 2 % 2 ^ 64

/-- One byte of the unreflected 64-bit CRC. -/
def crc64Byte (c : Nat) (b : Byte) : Nat :=
  let x := c ^^^ (b.toNat * 2 ^ 56)
  let x := crc64Bit (crc64Bit (crc64Bit (crc64Bit x)))
  crc64Bit (crc64Bit (crc64Bit (crc64Bit x)))

/-- The fingerprint FPRINT of R55: CRC-64/ECMA-182 with initial value and final XOR 0. -/
def crc64 (bs : List Byte) : BitVec 64 := BitVec.ofNat 64 (bs.foldl crc64Byte 0)

end Sys2Proof.Machine
end

