-- ==== Sys2Proof/Machine/Maps.lean ====
section
/-!
DEFINITION. Sparse maps in one canonical form: a list of (key, value) pairs with keys strictly rising and no
entry equal to what an unlisted key reads as. Registers, tables, counters, GDDR7 and flash contents are such
maps, so that equal contents are equal data.
-/

namespace Sys2Proof.Machine

/-- A sparse map from keys to values.
DESIGN CHOICE, log entry 12. -/
abbrev Sparse (α : Type) := List (Nat × α)

/-- The value at a key: the entry's, or what an unlisted key reads as. -/
def mapGet {α : Type} (dflt : Nat → α) : Sparse α → Nat → α
  | [], k => dflt k
  | (k', v) :: m, k => if k' = k then v else mapGet dflt m k

/-- Writes one key: a key that takes the unlisted value is listed no more.
DESIGN CHOICE, log entry 146. -/
def mapSet {α : Type} [DecidableEq α] (dflt : Nat → α) : Sparse α → Nat → α → Sparse α
  | [], k, v => if v = dflt k then [] else [(k, v)]
  | (k', v') :: m, k, v =>
    if k < k' then (if v = dflt k then ((k', v') :: m).filter fun e => decide (e.1 ≠ k) else (k, v) :: (k', v') :: m)
    else if k = k' then (if v = dflt k then m.filter fun e => decide (e.1 ≠ k) else (k, v) :: m)
    else (k', v') :: mapSet dflt m k v

/-- Every key of the map is at least `lo`, keys rise strictly, and no entry holds the unlisted value. -/
def mapWfFrom {α : Type} [DecidableEq α] (dflt : Nat → α) : Nat → Sparse α → Bool
  | _, [] => true
  | lo, (k, v) :: m => decide (lo ≤ k) && decide (v ≠ dflt k) && mapWfFrom dflt (k + 1) m

/-- The canonical form of a sparse map. -/
def mapWf {α : Type} [DecidableEq α] (dflt : Nat → α) (m : Sparse α) : Bool := mapWfFrom dflt 0 m

/-- Drops every entry whose key lies in `[lo, lo + n)`: those keys read as unlisted again. -/
def mapClear {α : Type} (m : Sparse α) (lo n : Nat) : Sparse α :=
  m.filter fun e => !(decide (lo ≤ e.1) && decide (e.1 < lo + n))

/-- The values of `n` consecutive keys. -/
def mapRange {α : Type} (dflt : Nat → α) (m : Sparse α) (k n : Nat) : List α :=
  (List.range n).map fun i => mapGet dflt m (k + i)

/-- Writes consecutive keys from a list. -/
def mapSetAll {α : Type} [DecidableEq α] (dflt : Nat → α) (m : Sparse α) (k : Nat) : List α → Sparse α
  | [] => m
  | v :: vs => mapSetAll dflt (mapSet dflt m k v) (k + 1) vs

/-! Small keyed tables of records: an association list in rising key order, a missing key reading as a default. -/

/-- Every entry whose key satisfies `p` is dropped. -/
def mapDrop {α : Type} (m : Sparse α) (p : Nat → Bool) : Sparse α := m.filter fun e => !p e.1

/-! Sorting: structural, so that it evaluates. -/

/-- Inserts before the first element it may precede. -/
def insertBy {α : Type} (le : α → α → Bool) (x : α) : List α → List α
  | [] => [x]
  | y :: ys => if le x y then x :: y :: ys else y :: insertBy le x ys

/-- A stable sort. -/
def sortBy {α : Type} (le : α → α → Bool) (l : List α) : List α := l.foldr (insertBy le) []

end Sys2Proof.Machine
end

