-- ==== Sys2Proof/Machine/RegMap.lean ====
section
/-!
DEFINITION. The register map: every page of R450, every register of chapters 02 to 17 with its place, its access
types and its reset value, and a reference to each field. One 32-bit word is kept per register, at its BAR0
offset (14_host_mgmt.md R416); the registers of the CAL window are kept once per port slot, unfolded at
0x2000_0000 + 0x8000 * slot (05_egress_scheduling.md R140), and `CAL_WIN_SEL` chooses which a page shows.
-/

namespace Sys2Proof.Machine

/-- Every register of stepping B0's pages, the common header's and the counter area's first. -/
inductive RegId where
  | PAGE_ID | PAGE_CAPS | PAGE_STATUS | PAGE_ERR | INT_PEND | INT_EN | INT_FORCE
  | CNT_CTRL | CNT_STATUS | CNT_SNAP_TICK_LO | CNT_SNAP_TICK_HI | CNT_OVF
  | MSIX_ADDR_LO | MSIX_ADDR_HI | MSIX_DATA | MSIX_CONTROL | MSIX_PBA
  | LNK_VER_CTRL | LNK_FP_MODE | LNK_PORT_CTRL | LNK_PORT_STATUS | LNK_TRAIN_STATUS
  | LNK_LANE_MAP | LNK_RTT | LNK_PARTNER_INFO | LNK_PARTNER_ID_LO | LNK_PARTNER_ID_HI
  | LNK_PARTNER_ID_ADDR | LNK_CREDIT_INIT0 | LNK_CREDIT_INIT1 | LNK_CREDIT_INIT2 | LNK_CREDIT_INIT3
  | FWD_CTRL | FWD_HALL | FWD_HASH_SEED | FWD_SELF_ADDR | FWD_EPOCH_CTRL
  | FWD_EPOCH_STATUS | FWD_TBL_CMD | FWD_TBL_STATUS | FWD_NOTICE_CTRL | FWD_NOTICE_STATUS
  | FWD_WIN | TRN_PORT_OVH | USH_CTRL | USH_COLL_CELLS | USH_PART_CFG
  | USH_VC_MAP | USH_CLASS | USH_SPILL_CTRL | USH_STATUS | USH_PART_OCC
  | USH_UNRESERVED | USH_POOL_SMALL | USH_POOL_MED | USH_POOL_LARGE | CAL_WIN_SEL
  | CAL_PORT_CTRL | CAL_VC_PRIO | CAL_DWRR_Q0 | CAL_DWRR_Q1 | CAL_PSH_RATE
  | CAL_PSH_BURST | CAL_VSH_RATE | CAL_VSH_BURST | CAL_GL_BASE_LO | CAL_GL_BASE_HI
  | CAL_GL_LEN | CAL_GL_SWITCH_LO | CAL_GL_SWITCH_HI | CAL_GL_CMD | CAL_GL_STATUS
  | CAL_GL_CYCLE_LO | CAL_GL_CYCLE_HI | CAL_SCHED_STATUS | CAL_MARK_CFG | MDW_LINK_STATUS
  | MDW_WSEL | MDW_WEIGHT | CAR_TBL_CMD | CAR_TBL_STATUS | CAR_STREAM_CMD
  | CAR_STREAM_STATUS | CAR_STALL_TK | CAR_STALL_INFO0 | CAR_STALL_INFO1 | CAR_STALL_INFO2
  | CAR_TWIN_CTRL | CAR_TWIN_STATUS | CAR_DRAIN_SEL | CAR_DRAIN_STATUS | CAR_TWIN_EN
  | CAR_WATCH | CAR_WIN | TMB_KLOAD_CMD | TMB_KLOAD_LEN | TMB_KLOAD_STATUS
  | TMB_KINFO | TMB_KWC | TMB_KDIGEST | TMB_FAULT_INFO0 | TMB_FAULT_INFO1
  | TMB_FAULT_INFO2 | TMB_FAULT_INFO3 | TMB_WIN | TMB_SUBST_CMD | TMB_SUBST_STATUS
  | TMB_SLIVER_MAP | TGT_SERVO_CTRL | TGT_SERVO_STATUS | TGT_SERVO_GAIN | TGT_NOW_LO
  | TGT_NOW_HI | TGT_NOW_FRAC | TGT_RATE_LO | TGT_RATE_HI | TGT_OFFSET_LO
  | TGT_OFFSET_HI | TGT_OFFSET_FRAC | TGT_SET_LO | TGT_SET_HI | TGT_REPLICA_ERR
  | TGT_PTP_CTRL | TGT_PIN_CFG | TGT_PIN_CAP_LO | TGT_PIN_CAP_HI | TGT_PIN_CAP_SUB
  | TGT_TRIG_CTRL | TGT_TRIG_TIME_LO | TGT_TRIG_TIME_HI | TGT_TRIG_SUB | TGT_TRIG_PERIOD
  | TGT_TRIG_WIDTH | TGT_TRIG_STATUS | TGT_TRIG_COUNT | TGT_PORT_TIME | TGT_PORT_ASYM
  | TGT_PORT_DELAY | TGT_LAUNCH_BUF | SPT_CTRL | SPT_STATUS | SPT_LANE_CFG
  | SPT_HEAT_CTRL | SPT_HEAT_STATUS | SPT_MON_CTRL | SPT_XT_CTRL | SPT_XT_STATUS
  | SPT_APR_STATUS | SPT_FP_READY | SPT_LSR_GROUP | SPT_LSR_CFG | SPT_LSR_PWR
  | SPT_RING | SPT_XT_WIN | TRP_XCONN | TRP_JOINED | TRP_TAP
  | MEM_CTRL | MEM_PLAN_CMD | MEM_PLAN_STATUS | MEM_USABLE_MIB | MEM_DEV_STATUS
  | MEM_REGION_SIZE | MEM_REGION_BASE | MEM_POOL_FREE | MEM_MAP_SEL | SNT_CMD
  | SNT_CHUNK | SNT_TARGET | SNT_STATUS | SNT_FQ_HEAD | SNT_FQ_TAIL
  | SNT_MISSED | SNT_POLICY | SNT_FQ | BRK_CTRL | BRK_SEED
  | BRK_RING_CFG | BRK_SRING_HEAD | BRK_SRING_TAIL | BRK_TRING_HEAD | BRK_TRING_TAIL
  | BRK_TRACE_CTRL | BRK_HINT_HOT | BRK_HINT_COOL | BRK_HINT_INTERVAL | BRK_SMP_CFG
  | BRK_SMP_FILT | BRK_OCC_CFG | BRK_OCC_N | BRK_OCC_MAX | MGT_FAULT_CFG
  | MGT_RECOVERY | MGT_FQ_HEAD | MGT_FQ_TAIL | MGT_SQ_HEAD | MGT_SQ_TAIL
  | MGT_DUMP_CMD | MGT_DUMP_STATUS | MGT_OOB_CTRL | MGT_ETH_MAC_LO | MGT_ETH_MAC_HI
  | MGT_INT_SUM | MGT_ERR_SUM | MGT_SMPQ_HEAD | MGT_SMPQ_TAIL | MGT_FQ
  | MGT_SQ | MGT_SMPQ_WIN | CXL_WIN_CFG | CXL_LINK_STATUS | CXL_UNMAPPED_ADDR
  | CXL_WIN_MAP | SEC_RESET_CMD | SEC_RESET_STATUS | SEC_BOOT_STATUS | SEC_FUSE_STATUS
  | SEC_SERIAL_LO | SEC_SERIAL_HI | SEC_FWUP_CMD | SEC_FWUP_STATUS | SEC_FUSE_CMD
  | SEC_FWUP_LEN | SEC_SEAL_CTRL | SEC_SEAL_STATUS | SEC_SEAL_SEQ_LO | SEC_SEAL_SEQ_HI
  | SEC_SEAL_HEAD | SEC_SEAL_TAIL | SEC_WIN | PWR_ENV_STATUS | PWR_STRAPS
  | PWR_TJ | PWR_RAIL | PWR_PKG
  deriving DecidableEq, Repr

/-- The registers of a page: name, page offset, distance between copies, number of copies. -/
structure RegRow where
  id     : RegId
  off    : Nat
  stride : Nat
  count  : Nat
  deriving DecidableEq, Repr

/-- What a register allows: the masks of its RW, W1C and WO bits; bits outside are RO or reserved. -/
structure RegMask where
  rw  : Nat
  w1c : Nat
  wo  : Nat
  ro  : Nat
  deriving DecidableEq, Repr

/-- A field of one register: the word's BAR0 offset, the field's low bit and its width. -/
structure Fld where
  addr  : Nat
  lo    : Nat
  width : Nat
  deriving DecidableEq, Repr

/-- A page, numbered 256 times its die (tents 0 to 7, Big Top 8) plus its slot. -/
abbrev Page := Nat

/-- The page of block code `code`, copy 0, on tent `t` (R417). -/
def tentPage (t code : Nat) : Page := 256 * t + code
/-- The Big Top page of block code `code` (R417). -/
def btPage (code : Nat) : Page := 2048 + code

/-- The BAR0 offset of a page (R416, R450). -/
def pageBase (p : Page) : Nat :=
  if p / 256 = 8 then p % 256 * 0x10000 else 0x1000000 * (p / 256 + 1) + p % 256 * 0x10000

/-- Number of counters of a page (R450), none where no page stands. -/
def pageNcnt (p : Page) : Option Nat :=
  if p / 256 = 8 then
    match p % 256 with
    | 6 => some 24
    | 7 => some 5
    | 8 => some 0
    | 9 => some 3
    | 13 => some 3
    | 15 => some 6
    | 16 => some 3
    | 17 => some 1
    | 18 => some 1
    | _ => none
  else if p / 256 < 8 then
    match p % 256 with
    | 1 => some 2944
    | 2 => some 1538
    | 3 => some 2048
    | 4 => some 2053
    | 36 => some 2048
    | 5 => some 2304
    | 7 => some 2560
    | 8 => some 2051
    | 9 => some 256
    | 10 => some 78
    | 11 => some 0
    | 12 => some 40
    | 14 => some 67
    | _ => none
  else none

/-- The page has an indirect window (R450; FWD's in tent 0 only, R461). -/
def pageHasWin (p : Page) : Bool :=
  if p / 256 = 8 then decide (p % 256 ∈ [7, 8, 9, 13, 15, 17])
  else decide (p % 256 ∈ [1, 3, 5, 8, 9, 10, 12]) || decide (p = 2)

/-- The 113 pages of stepping B0 (R450, R466). -/
def pagesOfDie (d : Nat) : List Page :=
  if d = 8 then [6, 7, 8, 9, 13, 15, 16, 17, 18].map fun c => 2048 + c
  else [1, 2, 3, 4, 36, 5, 7, 8, 9, 10, 11, 12, 14].map fun c => 256 * d + c

/-- The MSI-X vector of a page (R450, R420). -/
def pageVector (p : Page) : Nat :=
  if p / 256 = 8 then (if p % 256 ∈ [16, 17, 18] then p % 256 - 16 else p % 256)
  else 16 + 16 * (p / 256) + p % 32

/-- The pages that drive the same vector as `p`: only USH has two instances (R450). -/
def vectorPages (p : Page) : List Page :=
  if p / 256 < 8 ∧ p % 32 = 4 then [p / 256 * 256 + 0x04, p / 256 * 256 + 0x24] else [p]

/-- The block causes of a page's INT_PEND (R465), without the two common bits. -/
def pageCauses (p : Page) : Nat :=
  if p / 256 = 8 then
    match p % 256 with
    | 0x06 => 2 | 0x07 => 8 | 0x08 => 1 | 0x09 => 5 | 0x0D => 4 | 0x0F => 4 | 0x10 => 3 | 0x11 => 4 | 0x12 => 2
    | _ => 0
  else
    match p % 256 with
    | 0x01 => 5 | 0x02 => 5 | 0x03 => 1 | 0x04 => 4 | 0x05 => 5 | 0x07 => 2 | 0x08 => 2 | 0x09 => 1 | 0x0A => 6
    | 0x0C => 4 | 0x0E => 2
    | _ => 0

/-- The bits of a page's INT_PEND that are not reserved (R465, R418). -/
def pageIntMask (p : Page) : Nat := 2 ^ pageCauses p - 1 + 2 ^ 30 + 2 ^ 31

/-- The registers of the common header and the counter area (R418, R383). -/
def headerRows : List RegRow :=
    [⟨.PAGE_ID, 0, 4, 1⟩, ⟨.PAGE_CAPS, 4, 4, 1⟩, ⟨.PAGE_STATUS, 8, 4, 1⟩, ⟨.PAGE_ERR, 12, 4, 1⟩,
     ⟨.INT_PEND, 16, 4, 1⟩, ⟨.INT_EN, 20, 4, 1⟩, ⟨.INT_FORCE, 24, 4, 1⟩]
/-- The counter area's control words (R383, R402), on pages that have counters. -/
def counterRows : List RegRow :=
    [⟨.CNT_CTRL, 0x1000, 4, 1⟩, ⟨.CNT_STATUS, 0x1004, 4, 1⟩, ⟨.CNT_SNAP_TICK_LO, 0x1008, 4, 1⟩,
     ⟨.CNT_SNAP_TICK_HI, 0x100C, 4, 1⟩, ⟨.CNT_OVF, 0x1100, 4, 128⟩]
/-- The registers of the CAL window, by their window offset (R140). -/
def calWinRows : List RegRow :=
    [⟨.CAL_PORT_CTRL, 0xC000, 4, 1⟩,
     ⟨.CAL_VC_PRIO, 0xC004, 4, 1⟩,
     ⟨.CAL_DWRR_Q0, 0xC008, 4, 1⟩,
     ⟨.CAL_DWRR_Q1, 0xC00C, 4, 1⟩,
     ⟨.CAL_PSH_RATE, 0xC010, 4, 1⟩,
     ⟨.CAL_PSH_BURST, 0xC014, 4, 1⟩,
     ⟨.CAL_VSH_RATE, 0xC020, 8, 8⟩,
     ⟨.CAL_VSH_BURST, 0xC024, 8, 8⟩,
     ⟨.CAL_GL_BASE_LO, 0xC060, 16, 2⟩,
     ⟨.CAL_GL_BASE_HI, 0xC064, 16, 2⟩,
     ⟨.CAL_GL_LEN, 0xC068, 16, 2⟩,
     ⟨.CAL_GL_SWITCH_LO, 0xC080, 4, 1⟩,
     ⟨.CAL_GL_SWITCH_HI, 0xC084, 4, 1⟩,
     ⟨.CAL_GL_CMD, 0xC088, 4, 1⟩,
     ⟨.CAL_GL_STATUS, 0xC08C, 4, 1⟩,
     ⟨.CAL_GL_CYCLE_LO, 0xC090, 4, 1⟩,
     ⟨.CAL_GL_CYCLE_HI, 0xC094, 4, 1⟩,
     ⟨.CAL_SCHED_STATUS, 0xC098, 4, 1⟩,
     ⟨.CAL_MARK_CFG, 0xC0A0, 4, 1⟩]

/-- The registers of the MDW page of Big Top. -/
def mdwRowsBt : List RegRow :=
    [⟨.MDW_LINK_STATUS, 0x100, 4, 8⟩,
     ⟨.MDW_WSEL, 0x140, 4, 1⟩,
     ⟨.MDW_WEIGHT, 0x150, 4, 8⟩]
/-- The registers of the CAR page of Big Top. -/
def carRowsBt : List RegRow :=
    [⟨.CAR_TBL_CMD, 0x100, 4, 1⟩,
     ⟨.CAR_TBL_STATUS, 0x104, 4, 1⟩,
     ⟨.CAR_STREAM_CMD, 0x110, 4, 1⟩,
     ⟨.CAR_STREAM_STATUS, 0x114, 4, 1⟩,
     ⟨.CAR_STALL_TK, 0x120, 4, 1⟩,
     ⟨.CAR_STALL_INFO0, 0x124, 4, 1⟩,
     ⟨.CAR_STALL_INFO1, 0x128, 4, 1⟩,
     ⟨.CAR_STALL_INFO2, 0x12C, 4, 1⟩,
     ⟨.CAR_TWIN_CTRL, 0x130, 4, 1⟩,
     ⟨.CAR_TWIN_STATUS, 0x134, 4, 1⟩,
     ⟨.CAR_DRAIN_SEL, 0x138, 4, 1⟩,
     ⟨.CAR_DRAIN_STATUS, 0x13C, 4, 1⟩,
     ⟨.CAR_TWIN_EN, 0x400, 4, 128⟩,
     ⟨.CAR_WATCH, 0x600, 4, 128⟩,
     ⟨.CAR_WIN, 0x8000, 4, 68⟩]
/-- The registers of the TMB page of Big Top. -/
def tmbRowsBt : List RegRow :=
    [⟨.TMB_KLOAD_CMD, 0x100, 4, 1⟩,
     ⟨.TMB_KLOAD_LEN, 0x104, 4, 1⟩,
     ⟨.TMB_KLOAD_STATUS, 0x108, 4, 1⟩,
     ⟨.TMB_KINFO, 0x110, 4, 1⟩,
     ⟨.TMB_KWC, 0x114, 4, 5⟩,
     ⟨.TMB_KDIGEST, 0x140, 4, 12⟩,
     ⟨.TMB_FAULT_INFO0, 0x180, 4, 1⟩,
     ⟨.TMB_FAULT_INFO1, 0x184, 4, 1⟩,
     ⟨.TMB_FAULT_INFO2, 0x188, 4, 1⟩,
     ⟨.TMB_FAULT_INFO3, 0x18C, 4, 1⟩,
     ⟨.TMB_WIN, 0x8000, 4, 8192⟩]
/-- The registers of the TGT page of Big Top. -/
def tgtRowsBt : List RegRow :=
    [⟨.TGT_SERVO_CTRL, 0x100, 4, 1⟩,
     ⟨.TGT_SERVO_STATUS, 0x104, 4, 1⟩,
     ⟨.TGT_SERVO_GAIN, 0x108, 4, 1⟩,
     ⟨.TGT_NOW_LO, 0x110, 4, 1⟩,
     ⟨.TGT_NOW_HI, 0x114, 4, 1⟩,
     ⟨.TGT_NOW_FRAC, 0x118, 4, 1⟩,
     ⟨.TGT_RATE_LO, 0x120, 4, 1⟩,
     ⟨.TGT_RATE_HI, 0x124, 4, 1⟩,
     ⟨.TGT_OFFSET_LO, 0x128, 4, 1⟩,
     ⟨.TGT_OFFSET_HI, 0x12C, 4, 1⟩,
     ⟨.TGT_OFFSET_FRAC, 0x130, 4, 1⟩,
     ⟨.TGT_SET_LO, 0x138, 4, 1⟩,
     ⟨.TGT_SET_HI, 0x13C, 4, 1⟩,
     ⟨.TGT_REPLICA_ERR, 0x140, 4, 1⟩,
     ⟨.TGT_PTP_CTRL, 0x150, 4, 1⟩,
     ⟨.TGT_PIN_CFG, 0x200, 4, 8⟩,
     ⟨.TGT_PIN_CAP_LO, 0x240, 16, 8⟩,
     ⟨.TGT_PIN_CAP_HI, 0x244, 16, 8⟩,
     ⟨.TGT_PIN_CAP_SUB, 0x248, 16, 8⟩,
     ⟨.TGT_TRIG_CTRL, 0x8000, 32, 32⟩,
     ⟨.TGT_TRIG_TIME_LO, 0x8004, 32, 32⟩,
     ⟨.TGT_TRIG_TIME_HI, 0x8008, 32, 32⟩,
     ⟨.TGT_TRIG_SUB, 0x800C, 32, 32⟩,
     ⟨.TGT_TRIG_PERIOD, 0x8010, 32, 32⟩,
     ⟨.TGT_TRIG_WIDTH, 0x8014, 32, 32⟩,
     ⟨.TGT_TRIG_STATUS, 0x8018, 32, 32⟩,
     ⟨.TGT_TRIG_COUNT, 0x801C, 32, 32⟩]
/-- The registers of the SNT page of Big Top. -/
def sntRowsBt : List RegRow :=
    [⟨.SNT_CMD, 0x100, 4, 1⟩,
     ⟨.SNT_CHUNK, 0x104, 4, 1⟩,
     ⟨.SNT_TARGET, 0x108, 4, 1⟩,
     ⟨.SNT_STATUS, 0x10C, 4, 1⟩,
     ⟨.SNT_FQ_HEAD, 0x110, 4, 1⟩,
     ⟨.SNT_FQ_TAIL, 0x114, 4, 1⟩,
     ⟨.SNT_MISSED, 0x200, 4, 64⟩,
     ⟨.SNT_POLICY, 0x8000, 4, 4096⟩,
     ⟨.SNT_FQ, 0xC000, 4, 4096⟩]
/-- The registers of the MGT page of Big Top. -/
def mgtRowsBt : List RegRow :=
    [⟨.MGT_FAULT_CFG, 0x100, 4, 1⟩,
     ⟨.MGT_RECOVERY, 0x104, 4, 1⟩,
     ⟨.MGT_FQ_HEAD, 0x110, 4, 1⟩,
     ⟨.MGT_FQ_TAIL, 0x114, 4, 1⟩,
     ⟨.MGT_SQ_HEAD, 0x118, 4, 1⟩,
     ⟨.MGT_SQ_TAIL, 0x11C, 4, 1⟩,
     ⟨.MGT_DUMP_CMD, 0x120, 4, 1⟩,
     ⟨.MGT_DUMP_STATUS, 0x124, 4, 1⟩,
     ⟨.MGT_OOB_CTRL, 0x130, 4, 1⟩,
     ⟨.MGT_ETH_MAC_LO, 0x138, 4, 1⟩,
     ⟨.MGT_ETH_MAC_HI, 0x13C, 4, 1⟩,
     ⟨.MGT_INT_SUM, 0x140, 4, 9⟩,
     ⟨.MGT_ERR_SUM, 0x180, 4, 9⟩,
     ⟨.MGT_SMPQ_HEAD, 0x1C0, 4, 1⟩,
     ⟨.MGT_SMPQ_TAIL, 0x1C4, 4, 1⟩,
     ⟨.MGT_FQ, 0x8000, 4, 4096⟩,
     ⟨.MGT_SQ, 0xC000, 4, 2048⟩,
     ⟨.MGT_SMPQ_WIN, 0xE000, 4, 80⟩]
/-- The registers of the CXL page of Big Top. -/
def cxlRowsBt : List RegRow :=
    [⟨.CXL_WIN_CFG, 0x100, 4, 1⟩,
     ⟨.CXL_LINK_STATUS, 0x104, 4, 1⟩,
     ⟨.CXL_UNMAPPED_ADDR, 0x108, 4, 1⟩,
     ⟨.CXL_WIN_MAP, 0x200, 4, 32⟩]
/-- The registers of the SEC page of Big Top. -/
def secRowsBt : List RegRow :=
    [⟨.SEC_RESET_CMD, 0x100, 4, 1⟩,
     ⟨.SEC_RESET_STATUS, 0x104, 4, 1⟩,
     ⟨.SEC_BOOT_STATUS, 0x108, 4, 1⟩,
     ⟨.SEC_FUSE_STATUS, 0x10C, 4, 1⟩,
     ⟨.SEC_SERIAL_LO, 0x110, 4, 1⟩,
     ⟨.SEC_SERIAL_HI, 0x114, 4, 1⟩,
     ⟨.SEC_FWUP_CMD, 0x120, 4, 1⟩,
     ⟨.SEC_FWUP_STATUS, 0x124, 4, 1⟩,
     ⟨.SEC_FUSE_CMD, 0x128, 4, 1⟩,
     ⟨.SEC_FWUP_LEN, 0x12C, 4, 1⟩,
     ⟨.SEC_SEAL_CTRL, 0x400, 4, 1⟩,
     ⟨.SEC_SEAL_STATUS, 0x404, 4, 1⟩,
     ⟨.SEC_SEAL_SEQ_LO, 0x408, 4, 1⟩,
     ⟨.SEC_SEAL_SEQ_HI, 0x40C, 4, 1⟩,
     ⟨.SEC_SEAL_HEAD, 0x410, 4, 1⟩,
     ⟨.SEC_SEAL_TAIL, 0x414, 4, 1⟩,
     ⟨.SEC_WIN, 0x8000, 4, 8192⟩]
/-- The registers of the PWR page of Big Top. -/
def pwrRowsBt : List RegRow :=
    [⟨.PWR_ENV_STATUS, 0x100, 4, 1⟩,
     ⟨.PWR_STRAPS, 0x104, 4, 1⟩,
     ⟨.PWR_TJ, 0x110, 4, 9⟩,
     ⟨.PWR_RAIL, 0x140, 4, 9⟩,
     ⟨.PWR_PKG, 0x180, 4, 1⟩]
/-- The register rows of a Big Top page by its slot. -/
def btRows (slot : Nat) : List RegRow :=
  match slot with
  | 0x06 => mdwRowsBt
  | 0x07 => carRowsBt
  | 0x08 => tmbRowsBt
  | 0x09 => tgtRowsBt
  | 0x0D => sntRowsBt
  | 0x0F => mgtRowsBt
  | 0x10 => cxlRowsBt
  | 0x11 => secRowsBt
  | 0x12 => pwrRowsBt
  | _ => []

/-- The registers of the LNK page of a tent. -/
def lnkRowsTent : List RegRow :=
    [⟨.LNK_VER_CTRL, 0x100, 4, 1⟩,
     ⟨.LNK_FP_MODE, 0x200, 4, 64⟩,
     ⟨.LNK_PORT_CTRL, 0x8000, 64, 256⟩,
     ⟨.LNK_PORT_STATUS, 0x8004, 64, 256⟩,
     ⟨.LNK_TRAIN_STATUS, 0x8008, 64, 256⟩,
     ⟨.LNK_LANE_MAP, 0x800C, 64, 256⟩,
     ⟨.LNK_RTT, 0x8010, 64, 256⟩,
     ⟨.LNK_PARTNER_INFO, 0x8014, 64, 256⟩,
     ⟨.LNK_PARTNER_ID_LO, 0x8018, 64, 256⟩,
     ⟨.LNK_PARTNER_ID_HI, 0x801C, 64, 256⟩,
     ⟨.LNK_PARTNER_ID_ADDR, 0x8020, 64, 256⟩,
     ⟨.LNK_CREDIT_INIT0, 0x8028, 64, 256⟩,
     ⟨.LNK_CREDIT_INIT1, 0x802C, 64, 256⟩,
     ⟨.LNK_CREDIT_INIT2, 0x8030, 64, 256⟩,
     ⟨.LNK_CREDIT_INIT3, 0x8034, 64, 256⟩]
/-- The registers of the FWD page of a tent. -/
def fwdRowsTent : List RegRow :=
    [⟨.FWD_CTRL, 0x100, 4, 1⟩,
     ⟨.FWD_HALL, 0x104, 4, 1⟩,
     ⟨.FWD_HASH_SEED, 0x108, 4, 1⟩,
     ⟨.FWD_SELF_ADDR, 0x10C, 4, 1⟩,
     ⟨.FWD_EPOCH_CTRL, 0x110, 4, 1⟩,
     ⟨.FWD_EPOCH_STATUS, 0x114, 4, 1⟩,
     ⟨.FWD_TBL_CMD, 0x120, 4, 1⟩,
     ⟨.FWD_TBL_STATUS, 0x124, 4, 1⟩,
     ⟨.FWD_NOTICE_CTRL, 0x130, 4, 1⟩,
     ⟨.FWD_NOTICE_STATUS, 0x134, 4, 1⟩,
     ⟨.FWD_WIN, 0x8000, 4, 8⟩]
/-- The registers of the TRN page of a tent. -/
def trnRowsTent : List RegRow :=
    [⟨.TRN_PORT_OVH, 0x200, 4, 256⟩]
/-- The registers of the USH page of a tent. -/
def ushRowsTent : List RegRow :=
    [⟨.USH_CTRL, 0x100, 4, 1⟩,
     ⟨.USH_COLL_CELLS, 0x104, 4, 1⟩,
     ⟨.USH_PART_CFG, 0x110, 4, 4⟩,
     ⟨.USH_VC_MAP, 0x120, 4, 1⟩,
     ⟨.USH_CLASS, 0x124, 4, 1⟩,
     ⟨.USH_SPILL_CTRL, 0x130, 4, 1⟩,
     ⟨.USH_STATUS, 0x140, 4, 1⟩,
     ⟨.USH_PART_OCC, 0x150, 4, 4⟩,
     ⟨.USH_UNRESERVED, 0x160, 4, 1⟩,
     ⟨.USH_POOL_SMALL, 0x170, 4, 1⟩,
     ⟨.USH_POOL_MED, 0x174, 4, 1⟩,
     ⟨.USH_POOL_LARGE, 0x178, 4, 1⟩]
/-- The registers of the CAL page of a tent. -/
def calRowsTent : List RegRow :=
    [⟨.CAL_WIN_SEL, 0x100, 4, 1⟩]
/-- The registers of the TMB page of a tent. -/
def tmbRowsTent : List RegRow :=
    [⟨.TMB_SUBST_CMD, 0x100, 4, 1⟩,
     ⟨.TMB_SUBST_STATUS, 0x104, 4, 1⟩,
     ⟨.TMB_SLIVER_MAP, 0x8000, 4, 512⟩]
/-- The registers of the TGT page of a tent. -/
def tgtRowsTent : List RegRow :=
    [⟨.TGT_PORT_TIME, 0x8000, 16, 256⟩,
     ⟨.TGT_PORT_ASYM, 0x8004, 16, 256⟩,
     ⟨.TGT_PORT_DELAY, 0x8008, 16, 256⟩,
     ⟨.TGT_LAUNCH_BUF, 0xA000, 4, 2048⟩]
/-- The registers of the SPT page of a tent. -/
def sptRowsTent : List RegRow :=
    [⟨.SPT_CTRL, 0x100, 4, 1⟩,
     ⟨.SPT_STATUS, 0x104, 4, 1⟩,
     ⟨.SPT_LANE_CFG, 0x108, 4, 1⟩,
     ⟨.SPT_HEAT_CTRL, 0x140, 64, 2⟩,
     ⟨.SPT_HEAT_STATUS, 0x144, 64, 2⟩,
     ⟨.SPT_MON_CTRL, 0x148, 64, 2⟩,
     ⟨.SPT_XT_CTRL, 0x14C, 64, 2⟩,
     ⟨.SPT_XT_STATUS, 0x150, 64, 2⟩,
     ⟨.SPT_APR_STATUS, 0x154, 64, 2⟩,
     ⟨.SPT_FP_READY, 0x158, 64, 2⟩,
     ⟨.SPT_LSR_GROUP, 0x21C, 32, 8⟩,
     ⟨.SPT_LSR_CFG, 0x200, 4, 64⟩,
     ⟨.SPT_LSR_PWR, 0x400, 4, 64⟩,
     ⟨.SPT_RING, 0x8000, 4, 1024⟩,
     ⟨.SPT_XT_WIN, 0xC000, 4, 2048⟩]
/-- The registers of the TRP page of a tent. -/
def trpRowsTent : List RegRow :=
    [⟨.TRP_XCONN, 0x100, 4, 64⟩,
     ⟨.TRP_JOINED, 0x200, 4, 2⟩,
     ⟨.TRP_TAP, 0x300, 4, 64⟩]
/-- The registers of the MEM page of a tent. -/
def memRowsTent : List RegRow :=
    [⟨.MEM_CTRL, 0x100, 4, 1⟩,
     ⟨.MEM_PLAN_CMD, 0x104, 4, 1⟩,
     ⟨.MEM_PLAN_STATUS, 0x108, 4, 1⟩,
     ⟨.MEM_USABLE_MIB, 0x10C, 4, 1⟩,
     ⟨.MEM_DEV_STATUS, 0x110, 4, 2⟩,
     ⟨.MEM_REGION_SIZE, 0x120, 4, 8⟩,
     ⟨.MEM_REGION_BASE, 0x140, 4, 8⟩,
     ⟨.MEM_POOL_FREE, 0x160, 4, 2⟩,
     ⟨.MEM_MAP_SEL, 0x180, 4, 1⟩]
/-- The registers of the BRK page of a tent. -/
def brkRowsTent : List RegRow :=
    [⟨.BRK_CTRL, 0x100, 4, 1⟩,
     ⟨.BRK_SEED, 0x108, 4, 1⟩,
     ⟨.BRK_RING_CFG, 0x110, 4, 1⟩,
     ⟨.BRK_SRING_HEAD, 0x120, 4, 1⟩,
     ⟨.BRK_SRING_TAIL, 0x124, 4, 1⟩,
     ⟨.BRK_TRING_HEAD, 0x128, 4, 1⟩,
     ⟨.BRK_TRING_TAIL, 0x12C, 4, 1⟩,
     ⟨.BRK_TRACE_CTRL, 0x130, 4, 1⟩,
     ⟨.BRK_HINT_HOT, 0x140, 4, 1⟩,
     ⟨.BRK_HINT_COOL, 0x144, 4, 1⟩,
     ⟨.BRK_HINT_INTERVAL, 0x148, 4, 1⟩,
     ⟨.BRK_SMP_CFG, 0x200, 8, 16⟩,
     ⟨.BRK_SMP_FILT, 0x204, 8, 16⟩,
     ⟨.BRK_OCC_CFG, 0x400, 16, 16⟩,
     ⟨.BRK_OCC_N, 0x404, 16, 16⟩,
     ⟨.BRK_OCC_MAX, 0x408, 16, 16⟩]
/-- The register rows of a tent page by its slot. -/
def tentRows (slot : Nat) : List RegRow :=
  match slot with
  | 0x01 => lnkRowsTent
  | 0x02 => fwdRowsTent
  | 0x03 => trnRowsTent
  | 0x04 => ushRowsTent
  | 0x05 => calRowsTent
  | 0x08 => tmbRowsTent
  | 0x09 => tgtRowsTent
  | 0x0A => sptRowsTent
  | 0x0B => trpRowsTent
  | 0x0C => memRowsTent
  | 0x0E => brkRowsTent
  | _ => []

/-- A register found at an address: which, on which die (or port slot, for the CAL window), which copy. -/
structure RegAt where
  id  : RegId
  die : Nat
  ix  : Nat
  deriving DecidableEq, Repr

/-- The copy of a row that an offset names. -/
def rowIx (r : RegRow) (off : Nat) : Option Nat :=
  if r.off ≤ off ∧ (off - r.off) % r.stride = 0 ∧ (off - r.off) / r.stride < r.count then
    some ((off - r.off) / r.stride) else none

/-- The register a list of rows has at an offset. -/
def findRow (die off : Nat) : List RegRow → Option RegAt
  | [] => none
  | r :: rs =>
    match rowIx r off with
    | some i => some ⟨r.id, die, i⟩
    | none => findRow die off rs

/-- The page an address below 0x0900_0000 lies in. -/
def addrPage (a : Nat) : Page :=
  if a < 0x1000000 then 2048 + a / 0x10000 else (a / 0x1000000 - 1) * 256 + a / 0x10000 % 256

/-- The rows to search on a page. -/
def pageRows (p : Page) : List RegRow :=
  if p / 256 = 8 then btRows (p % 256) else if p % 256 = 0x02 ∧ p ≠ 2 then fwdRowsTent.filter (fun r => r.off < 0x8000)
  else tentRows (p % 256)

/-- The registers of the MSI-X table and its pending bits, slot 0xF2 of Big Top (R416), in the layout of PCI. -/
def msixRows : List RegRow :=
  [⟨.MSIX_ADDR_LO, 0, 16, 256⟩, ⟨.MSIX_ADDR_HI, 4, 16, 256⟩, ⟨.MSIX_DATA, 8, 16, 256⟩,
   ⟨.MSIX_CONTROL, 12, 16, 256⟩, ⟨.MSIX_PBA, 0x8000, 4, 8⟩]

/-- The register at an address: a BAR0 offset, or the unfolded CAL window from 0x2000_0000. -/
def regAt (a : Nat) : Option RegAt :=
  if 0x20000000 ≤ a then findRow ((a - 0x20000000) / 0x8000) ((a - 0x20000000) % 0x8000 + 0x8000) calWinRows
  else if 0x9000000 ≤ a then none
  else if a / 0x10000 = 0xF2 then findRow 8 (a % 0x10000) msixRows
  else
    let p := addrPage a
    let off := a % 0x10000
    match pageNcnt p with
    | none => none
    | some n =>
      if off < 0x100 then findRow (p / 256) off headerRows
      else if 0x1000 ≤ off ∧ off < 0x1300 then (if n = 0 then none else findRow (p / 256) off counterRows)
      else findRow (p / 256) off (pageRows p)

/-- The access masks of each register (R10). -/
def regMask (id : RegId) : RegMask :=
  match id with
  | .PAGE_ID => ⟨0, 0, 0, 0xFFFFFFFF⟩
  | .PAGE_CAPS => ⟨0, 0, 0, 0xCFFF⟩
  | .PAGE_STATUS => ⟨0, 0, 0, 3⟩
  | .PAGE_ERR => ⟨0, 7, 0, 0xFFFF0F00⟩
  | .INT_PEND => ⟨0, 0xFFFFFFFF, 0, 0⟩
  | .INT_EN => ⟨0xFFFFFFFF, 0, 0, 0⟩
  | .INT_FORCE => ⟨0, 0, 0xFFFFFFFF, 0⟩
  | .CNT_CTRL => ⟨0x3F8, 0, 3, 0⟩
  | .CNT_STATUS => ⟨0, 4, 0, 3⟩
  | .CNT_SNAP_TICK_LO | .CNT_SNAP_TICK_HI => ⟨0, 0, 0, 0xFFFFFFFF⟩
  | .CNT_OVF => ⟨0, 0xFFFFFFFF, 0, 0⟩
  | .MSIX_ADDR_LO | .MSIX_ADDR_HI | .MSIX_DATA => ⟨0xFFFFFFFF, 0, 0, 0⟩
  | .MSIX_CONTROL => ⟨1, 0, 0, 0⟩
  | .MSIX_PBA => ⟨0, 0, 0, 0xFFFFFFFF⟩
  | .LNK_VER_CTRL => ⟨0x3, 0x0, 0x0, 0x0⟩
  | .LNK_FP_MODE => ⟨0x7, 0x0, 0x0, 0x0⟩
  | .LNK_PORT_CTRL => ⟨0x7, 0x0, 0x0, 0x0⟩
  | .LNK_PORT_STATUS => ⟨0x0, 0xC, 0x0, 0xFBC3⟩
  | .LNK_TRAIN_STATUS => ⟨0x0, 0x0, 0x0, 0xF7⟩
  | .LNK_LANE_MAP => ⟨0x0, 0x0, 0x0, 0xFFF0FFF⟩
  | .LNK_RTT => ⟨0x0, 0x0, 0x0, 0xFFFFFF⟩
  | .LNK_PARTNER_INFO => ⟨0x0, 0x0, 0x0, 0xFFFFFFFF⟩
  | .LNK_PARTNER_ID_LO => ⟨0x0, 0x0, 0x0, 0xFFFFFFFF⟩
  | .LNK_PARTNER_ID_HI => ⟨0x0, 0x0, 0x0, 0xFFFFFFFF⟩
  | .LNK_PARTNER_ID_ADDR => ⟨0xFFFFFFFF, 0x0, 0x0, 0x0⟩
  | .LNK_CREDIT_INIT0 => ⟨0xFFFFFFFF, 0x0, 0x0, 0x0⟩
  | .LNK_CREDIT_INIT1 => ⟨0xFFFFFFFF, 0x0, 0x0, 0x0⟩
  | .LNK_CREDIT_INIT2 => ⟨0xFFFFFFFF, 0x0, 0x0, 0x0⟩
  | .LNK_CREDIT_INIT3 => ⟨0xFFFFFFFF, 0x0, 0x0, 0x0⟩
  | .FWD_CTRL => ⟨0xC1, 0x0, 0x0, 0x0⟩
  | .FWD_HALL => ⟨0xF, 0x0, 0x0, 0x0⟩
  | .FWD_HASH_SEED => ⟨0xFFFFFFFF, 0x0, 0x0, 0x0⟩
  | .FWD_SELF_ADDR => ⟨0xFFFFFFFF, 0x0, 0x0, 0x0⟩
  | .FWD_EPOCH_CTRL => ⟨0xFC00, 0x0, 0x7, 0x0⟩
  | .FWD_EPOCH_STATUS => ⟨0x0, 0x0, 0x0, 0x1F⟩
  | .FWD_TBL_CMD => ⟨0x0, 0x0, 0xF0003FFF, 0x0⟩
  | .FWD_TBL_STATUS => ⟨0x0, 0x2, 0x0, 0x1⟩
  | .FWD_NOTICE_CTRL => ⟨0x7FFF3FFF, 0x0, 0x80000000, 0x0⟩
  | .FWD_NOTICE_STATUS => ⟨0x0, 0x0, 0x0, 0x1⟩
  | .FWD_WIN => ⟨0xFFFFFFFF, 0x0, 0x0, 0x0⟩
  | .TRN_PORT_OVH => ⟨0x1FF, 0x0, 0x0, 0x0⟩
  | .USH_CTRL => ⟨0x3, 0x0, 0x8, 0x0⟩
  | .USH_COLL_CELLS => ⟨0x7FFFF, 0x0, 0x0, 0x0⟩
  | .USH_PART_CFG => ⟨0xF807FFFF, 0x0, 0x0, 0x0⟩
  | .USH_VC_MAP => ⟨0x3F3F, 0x0, 0x0, 0x0⟩
  | .USH_CLASS => ⟨0x1FF1FF, 0x0, 0x0, 0x0⟩
  | .USH_SPILL_CTRL => ⟨0xF0FFFFFF, 0x0, 0x0, 0x0⟩
  | .USH_STATUS => ⟨0x0, 0x1, 0x0, 0x1E⟩
  | .USH_PART_OCC => ⟨0x0, 0x0, 0x0, 0x7FFFF⟩
  | .USH_UNRESERVED => ⟨0x0, 0x0, 0x0, 0x7FFFF⟩
  | .USH_POOL_SMALL => ⟨0x3FFFF, 0x0, 0x0, 0x0⟩
  | .USH_POOL_MED => ⟨0x3FFFF, 0x0, 0x0, 0x0⟩
  | .USH_POOL_LARGE => ⟨0x3FFFF, 0x0, 0x0, 0x0⟩
  | .CAL_WIN_SEL => ⟨0xFF, 0x0, 0x0, 0x0⟩
  | .CAL_PORT_CTRL => ⟨0x1FFFF, 0x0, 0x0, 0x0⟩
  | .CAL_VC_PRIO => ⟨0x33333333, 0x0, 0x0, 0x0⟩
  | .CAL_DWRR_Q0 => ⟨0xFFFFFFFF, 0x0, 0x0, 0x0⟩
  | .CAL_DWRR_Q1 => ⟨0xFFFFFFFF, 0x0, 0x0, 0x0⟩
  | .CAL_PSH_RATE => ⟨0x80FFFFFF, 0x0, 0x0, 0x0⟩
  | .CAL_PSH_BURST => ⟨0xFFFFFF, 0x0, 0x0, 0x0⟩
  | .CAL_VSH_RATE => ⟨0x80FFFFFF, 0x0, 0x0, 0x0⟩
  | .CAL_VSH_BURST => ⟨0xFFFFFF, 0x0, 0x0, 0x0⟩
  | .CAL_GL_BASE_LO => ⟨0xFFFFFFFF, 0x0, 0x0, 0x0⟩
  | .CAL_GL_BASE_HI => ⟨0xFFFFFFFF, 0x0, 0x0, 0x0⟩
  | .CAL_GL_LEN => ⟨0x7FF, 0x0, 0x0, 0x0⟩
  | .CAL_GL_SWITCH_LO => ⟨0xFFFFFFFF, 0x0, 0x0, 0x0⟩
  | .CAL_GL_SWITCH_HI => ⟨0xFFFFFFFF, 0x0, 0x0, 0x0⟩
  | .CAL_GL_CMD => ⟨0x0, 0x0, 0x7, 0x0⟩
  | .CAL_GL_STATUS => ⟨0x0, 0x18, 0x0, 0xFF000027⟩
  | .CAL_GL_CYCLE_LO => ⟨0x0, 0x0, 0x0, 0xFFFFFFFF⟩
  | .CAL_GL_CYCLE_HI => ⟨0x0, 0x0, 0x0, 0xFFFFFFFF⟩
  | .CAL_SCHED_STATUS => ⟨0x0, 0x3F, 0x0, 0x40⟩
  | .CAL_MARK_CFG => ⟨0xFF07FFFF, 0x0, 0x0, 0x0⟩
  | .MDW_LINK_STATUS => ⟨0x0, 0x0, 0x0, 0x63F⟩
  | .MDW_WSEL => ⟨0x3FFF, 0x0, 0x0, 0x0⟩
  | .MDW_WEIGHT => ⟨0x0, 0x0, 0x0, 0x1FFF⟩
  | .CAR_TBL_CMD => ⟨0x0, 0x0, 0xE00FFFF, 0x0⟩
  | .CAR_TBL_STATUS => ⟨0x0, 0x2, 0x0, 0x1⟩
  | .CAR_STREAM_CMD => ⟨0x0, 0x0, 0xFFFFFFFF, 0x0⟩
  | .CAR_STREAM_STATUS => ⟨0x0, 0x2, 0x0, 0xFF000001⟩
  | .CAR_STALL_TK => ⟨0xFFFFFF, 0x0, 0x0, 0x0⟩
  | .CAR_STALL_INFO0 => ⟨0x0, 0x0, 0x0, 0xFFFF0FFF⟩
  | .CAR_STALL_INFO1 => ⟨0x0, 0x0, 0x0, 0xFFFFFFFF⟩
  | .CAR_STALL_INFO2 => ⟨0x0, 0x0, 0x0, 0x1FFF⟩
  | .CAR_TWIN_CTRL => ⟨0x8000001F, 0x0, 0x0, 0x0⟩
  | .CAR_TWIN_STATUS => ⟨0x0, 0x3, 0x0, 0x0⟩
  | .CAR_DRAIN_SEL => ⟨0xFFF, 0x0, 0x0, 0x0⟩
  | .CAR_DRAIN_STATUS => ⟨0x0, 0x0, 0x0, 0x1⟩
  | .CAR_TWIN_EN => ⟨0xFFFFFFFF, 0x0, 0x0, 0x0⟩
  | .CAR_WATCH => ⟨0xFFFFFFFF, 0x0, 0x0, 0x0⟩
  | .CAR_WIN => ⟨0xFFFFFFFF, 0x0, 0x0, 0x0⟩
  | .TMB_KLOAD_CMD => ⟨0x0, 0x0, 0xFC0000FF, 0x0⟩
  | .TMB_KLOAD_LEN => ⟨0x1FFFF, 0x0, 0x0, 0x0⟩
  | .TMB_KLOAD_STATUS => ⟨0x0, 0x6, 0x0, 0xFF000071⟩
  | .TMB_KINFO => ⟨0x0, 0x0, 0x0, 0xFC000000⟩
  | .TMB_KWC => ⟨0x0, 0x0, 0x0, 0xFFFFFFFF⟩
  | .TMB_KDIGEST => ⟨0x0, 0x0, 0x0, 0xFFFFFFFF⟩
  | .TMB_FAULT_INFO0 => ⟨0x0, 0x0, 0x0, 0xFFFFFFFF⟩
  | .TMB_FAULT_INFO1 => ⟨0x0, 0x0, 0x0, 0xFFFFFFFF⟩
  | .TMB_FAULT_INFO2 => ⟨0x0, 0x80000, 0x0, 0xFFF03FFF⟩
  | .TMB_FAULT_INFO3 => ⟨0x0, 0x0, 0x0, 0xFFFF0000⟩
  | .TMB_WIN => ⟨0xFFFFFFFF, 0x0, 0x0, 0x0⟩
  | .TMB_SUBST_CMD => ⟨0x0, 0x0, 0x800001FF, 0x0⟩
  | .TMB_SUBST_STATUS => ⟨0x0, 0x80, 0x0, 0xFF00007F⟩
  | .TMB_SLIVER_MAP => ⟨0x0, 0x0, 0x0, 0xC00003FF⟩
  | .TGT_SERVO_CTRL => ⟨0x87FF, 0x0, 0xF0000000, 0x0⟩
  | .TGT_SERVO_STATUS => ⟨0x0, 0xE0, 0x0, 0x7⟩
  | .TGT_SERVO_GAIN => ⟨0xFFFCFFFF, 0x0, 0x0, 0x0⟩
  | .TGT_NOW_LO => ⟨0x0, 0x0, 0x0, 0xFFFFFFFF⟩
  | .TGT_NOW_HI => ⟨0x0, 0x0, 0x0, 0xFFFFFFFF⟩
  | .TGT_NOW_FRAC => ⟨0x0, 0x0, 0x0, 0xFFFF⟩
  | .TGT_RATE_LO => ⟨0xFFFFFFFF, 0x0, 0x0, 0x0⟩
  | .TGT_RATE_HI => ⟨0xFF, 0x0, 0x0, 0x0⟩
  | .TGT_OFFSET_LO => ⟨0x0, 0x0, 0x0, 0xFFFFFFFF⟩
  | .TGT_OFFSET_HI => ⟨0x0, 0x0, 0x0, 0xFFFFFFFF⟩
  | .TGT_OFFSET_FRAC => ⟨0x0, 0x0, 0x0, 0xFFFF⟩
  | .TGT_SET_LO => ⟨0xFFFFFFFF, 0x0, 0x0, 0x0⟩
  | .TGT_SET_HI => ⟨0xFFFFFFFF, 0x0, 0x0, 0x0⟩
  | .TGT_REPLICA_ERR => ⟨0x0, 0xFF, 0x0, 0x0⟩
  | .TGT_PTP_CTRL => ⟨0xFFFF0003, 0x0, 0x0, 0x0⟩
  | .TGT_PIN_CFG => ⟨0xC000000E, 0x0, 0x0, 0x0⟩
  | .TGT_PIN_CAP_LO => ⟨0x0, 0x0, 0x0, 0xFFFFFFFF⟩
  | .TGT_PIN_CAP_HI => ⟨0x0, 0x0, 0x0, 0xFFFFFFFF⟩
  | .TGT_PIN_CAP_SUB => ⟨0x0, 0x0, 0x0, 0x8000001F⟩
  | .TGT_TRIG_CTRL => ⟨0xEFFE07FF, 0x0, 0x0, 0x0⟩
  | .TGT_TRIG_TIME_LO => ⟨0xFFFFFFFF, 0x0, 0x0, 0x0⟩
  | .TGT_TRIG_TIME_HI => ⟨0xFFFFFFFF, 0x0, 0x0, 0x0⟩
  | .TGT_TRIG_SUB => ⟨0x1F, 0x0, 0x0, 0x0⟩
  | .TGT_TRIG_PERIOD => ⟨0xFFFFFFFF, 0x0, 0x0, 0x0⟩
  | .TGT_TRIG_WIDTH => ⟨0xFFFF, 0x0, 0x0, 0x0⟩
  | .TGT_TRIG_STATUS => ⟨0x0, 0xF, 0x0, 0x0⟩
  | .TGT_TRIG_COUNT => ⟨0x0, 0x0, 0x0, 0xFFFFFFFF⟩
  | .TGT_PORT_TIME => ⟨0x3, 0x0, 0x0, 0x0⟩
  | .TGT_PORT_ASYM => ⟨0xFFFF, 0x0, 0x0, 0x0⟩
  | .TGT_PORT_DELAY => ⟨0x0, 0x0, 0x0, 0xFFFFFF⟩
  | .TGT_LAUNCH_BUF => ⟨0xFFFFFFFF, 0x0, 0x0, 0x0⟩
  | .SPT_CTRL => ⟨0x0, 0x0, 0x3, 0x0⟩
  | .SPT_STATUS => ⟨0x0, 0xC, 0x0, 0x3⟩
  | .SPT_LANE_CFG => ⟨0xFFFF, 0x0, 0x0, 0x0⟩
  | .SPT_HEAT_CTRL => ⟨0x80FFFFFF, 0x0, 0x0, 0x0⟩
  | .SPT_HEAT_STATUS => ⟨0x0, 0xC, 0x0, 0x3⟩
  | .SPT_MON_CTRL => ⟨0x80000007, 0x0, 0x0, 0x0⟩
  | .SPT_XT_CTRL => ⟨0x2000FFFF, 0x0, 0xC0000000, 0x0⟩
  | .SPT_XT_STATUS => ⟨0x0, 0xE, 0x0, 0xFFFF0001⟩
  | .SPT_APR_STATUS => ⟨0x0, 0x0, 0x0, 0xFFFFFFFF⟩
  | .SPT_FP_READY => ⟨0x0, 0x0, 0x0, 0xFFFFFFFF⟩
  | .SPT_LSR_GROUP => ⟨0x0, 0x18, 0x0, 0x7⟩
  | .SPT_LSR_CFG => ⟨0xFFFF0000, 0x0, 0x0, 0xFC00⟩
  | .SPT_LSR_PWR => ⟨0x0, 0x0, 0x0, 0xFFFF⟩
  | .SPT_RING => ⟨0x0, 0x0, 0x0, 0xE0E0FFFF⟩
  | .SPT_XT_WIN => ⟨0xFFFFFFFF, 0x0, 0x0, 0x0⟩
  | .TRP_XCONN => ⟨0x8000001F, 0x0, 0x0, 0x0⟩
  | .TRP_JOINED => ⟨0x0, 0x0, 0x0, 0xFFFFFFFF⟩
  | .TRP_TAP => ⟨0x0, 0x0, 0x0, 0xFFFF⟩
  | .MEM_CTRL => ⟨0x0, 0x0, 0x1, 0x0⟩
  | .MEM_PLAN_CMD => ⟨0x0, 0x0, 0x1, 0x0⟩
  | .MEM_PLAN_STATUS => ⟨0x0, 0x2, 0x0, 0xFF00001D⟩
  | .MEM_USABLE_MIB => ⟨0x0, 0x0, 0x0, 0x3FFFF⟩
  | .MEM_DEV_STATUS => ⟨0x0, 0x0, 0x0, 0xFFFFF00F⟩
  | .MEM_REGION_SIZE => ⟨0x3FFFF, 0x0, 0x0, 0x0⟩
  | .MEM_REGION_BASE => ⟨0x0, 0x0, 0x0, 0x3FFFF⟩
  | .MEM_POOL_FREE => ⟨0x0, 0x0, 0x0, 0x3FFFF⟩
  | .MEM_MAP_SEL => ⟨0x7FFFF, 0x0, 0x0, 0x0⟩
  | .SNT_CMD => ⟨0x0, 0x0, 0xFFFFFFFF, 0x0⟩
  | .SNT_CHUNK => ⟨0xFFFFFFFF, 0x0, 0x0, 0x0⟩
  | .SNT_TARGET => ⟨0xFFFF87FF, 0x0, 0x0, 0x0⟩
  | .SNT_STATUS => ⟨0x0, 0xE, 0x0, 0xFF000001⟩
  | .SNT_FQ_HEAD => ⟨0x0, 0x0, 0x0, 0x3FF⟩
  | .SNT_FQ_TAIL => ⟨0x3FF, 0x0, 0x0, 0x0⟩
  | .SNT_MISSED => ⟨0x0, 0xFFFFFFFF, 0x0, 0x0⟩
  | .SNT_POLICY => ⟨0x3, 0x0, 0x0, 0x0⟩
  | .SNT_FQ => ⟨0x0, 0x0, 0x0, 0xFFFFFFFF⟩
  | .BRK_CTRL => ⟨0xC0000000, 0x0, 0x0, 0x0⟩
  | .BRK_SEED => ⟨0xFFFFFFFF, 0x0, 0x0, 0x0⟩
  | .BRK_RING_CFG => ⟨0x7FF, 0x0, 0x0, 0x0⟩
  | .BRK_SRING_HEAD => ⟨0x0, 0x0, 0x0, 0xFFFFFFFF⟩
  | .BRK_SRING_TAIL => ⟨0xFFFFFFFF, 0x0, 0x0, 0x0⟩
  | .BRK_TRING_HEAD => ⟨0x0, 0x0, 0x0, 0xFFFFFFFF⟩
  | .BRK_TRING_TAIL => ⟨0xFFFFFFFF, 0x0, 0x0, 0x0⟩
  | .BRK_TRACE_CTRL => ⟨0xC0000000, 0x0, 0x0, 0x0⟩
  | .BRK_HINT_HOT => ⟨0x8007FFFF, 0x0, 0x0, 0x0⟩
  | .BRK_HINT_COOL => ⟨0x7FFFF, 0x0, 0x0, 0x0⟩
  | .BRK_HINT_INTERVAL => ⟨0xFFFFFF, 0x0, 0x0, 0x0⟩
  | .BRK_SMP_CFG => ⟨0xFFE000FF, 0x0, 0x0, 0x0⟩
  | .BRK_SMP_FILT => ⟨0xFF00007F, 0x0, 0x0, 0x0⟩
  | .BRK_OCC_CFG => ⟨0xFC003FFF, 0x0, 0x0, 0x0⟩
  | .BRK_OCC_N => ⟨0x7FFFF, 0x0, 0x0, 0x0⟩
  | .BRK_OCC_MAX => ⟨0x0, 0x0, 0x0, 0xFFFFFFFF⟩
  | .MGT_FAULT_CFG => ⟨0xFFFFFFFF, 0x0, 0x0, 0x0⟩
  | .MGT_RECOVERY => ⟨0xFFFFFF01, 0x0, 0x0, 0x0⟩
  | .MGT_FQ_HEAD => ⟨0x0, 0x0, 0x0, 0x3FF⟩
  | .MGT_FQ_TAIL => ⟨0x3FF, 0x0, 0x0, 0x0⟩
  | .MGT_SQ_HEAD => ⟨0x0, 0x0, 0x0, 0xFF⟩
  | .MGT_SQ_TAIL => ⟨0xFF, 0x0, 0x0, 0x0⟩
  | .MGT_DUMP_CMD => ⟨0x0, 0x0, 0xC0000000, 0x0⟩
  | .MGT_DUMP_STATUS => ⟨0x0, 0x8, 0x0, 0xFF000007⟩
  | .MGT_OOB_CTRL => ⟨0x3, 0x0, 0x0, 0x0⟩
  | .MGT_ETH_MAC_LO => ⟨0x0, 0x0, 0x0, 0xFFFFFFFF⟩
  | .MGT_ETH_MAC_HI => ⟨0x0, 0x0, 0x0, 0xFFFF⟩
  | .MGT_INT_SUM => ⟨0x0, 0x0, 0x0, 0x7FFFE⟩
  | .MGT_ERR_SUM => ⟨0x0, 0x0, 0x0, 0x7FFFE⟩
  | .MGT_SMPQ_HEAD => ⟨0x0, 0x0, 0x0, 0x1FF⟩
  | .MGT_SMPQ_TAIL => ⟨0x1FF, 0x0, 0x0, 0x0⟩
  | .MGT_FQ => ⟨0x0, 0x0, 0x0, 0xFFFFFFFF⟩
  | .MGT_SQ => ⟨0x0, 0x0, 0x0, 0xFFFFFFFF⟩
  | .MGT_SMPQ_WIN => ⟨0x0, 0x0, 0x0, 0xFFFFFFFF⟩
  | .CXL_WIN_CFG => ⟨0xFF, 0x0, 0x0, 0x0⟩
  | .CXL_LINK_STATUS => ⟨0x0, 0x0, 0x0, 0x1FF⟩
  | .CXL_UNMAPPED_ADDR => ⟨0x0, 0x0, 0x0, 0xFFFFFFFF⟩
  | .CXL_WIN_MAP => ⟨0xFE00FFFF, 0x0, 0x0, 0x0⟩
  | .SEC_RESET_CMD => ⟨0x0, 0x0, 0xFF000007, 0x0⟩
  | .SEC_RESET_STATUS => ⟨0x0, 0x0, 0x0, 0xF7⟩
  | .SEC_BOOT_STATUS => ⟨0x0, 0x0, 0x0, 0xFFFFFF1F⟩
  | .SEC_FUSE_STATUS => ⟨0x0, 0x0, 0x0, 0xFFFF000F⟩
  | .SEC_SERIAL_LO => ⟨0x0, 0x0, 0x0, 0xFFFFFFFF⟩
  | .SEC_SERIAL_HI => ⟨0x0, 0x0, 0x0, 0xFFFFFFFF⟩
  | .SEC_FWUP_CMD => ⟨0x0, 0x0, 0xF80003FF, 0x0⟩
  | .SEC_FWUP_STATUS => ⟨0x0, 0x4, 0x0, 0xFF000003⟩
  | .SEC_FUSE_CMD => ⟨0x0, 0x0, 0xF00000FF, 0x0⟩
  | .SEC_FWUP_LEN => ⟨0x1FFFFFF, 0x0, 0x0, 0x0⟩
  | .SEC_SEAL_CTRL => ⟨0x80FFFFFF, 0x0, 0x0, 0x0⟩
  | .SEC_SEAL_STATUS => ⟨0x0, 0x8, 0x0, 0x7⟩
  | .SEC_SEAL_SEQ_LO => ⟨0x0, 0x0, 0x0, 0xFFFFFFFF⟩
  | .SEC_SEAL_SEQ_HI => ⟨0x0, 0x0, 0x0, 0xFFFFFFFF⟩
  | .SEC_SEAL_HEAD => ⟨0x0, 0x0, 0x0, 0xFFFFFFFF⟩
  | .SEC_SEAL_TAIL => ⟨0xFFFFFFFF, 0x0, 0x0, 0x0⟩
  | .SEC_WIN => ⟨0xFFFFFFFF, 0x0, 0x0, 0x0⟩
  | .PWR_ENV_STATUS => ⟨0x0, 0x0, 0x0, 0xFF07⟩
  | .PWR_STRAPS => ⟨0x0, 0x0, 0x0, 0xF⟩
  | .PWR_TJ => ⟨0x0, 0x0, 0x0, 0xFFFF⟩
  | .PWR_RAIL => ⟨0x0, 0x0, 0x0, 0xFFFF⟩
  | .PWR_PKG => ⟨0x0, 0x0, 0x0, 0xFFFF⟩

/-- `PAGE_ID` of a page (R418). -/
def pageIdWord (p : Page) : Nat :=
  p % 32 * 2 ^ 24 + (if p / 256 = 8 then 15 else p / 256) * 2 ^ 20 + p % 256 / 32 * 2 ^ 16 + 0x100

/-- `PAGE_CAPS` of a page (R450). -/
def pageCapsWord (p : Page) : Nat :=
  let n := (pageNcnt p).getD 0
  b2n (decide (0 < n)) * 2 ^ 15 + b2n (pageHasWin p) * 2 ^ 14 + n

/-- The default plan's region sizes in MiB (11_memory.md R340): region 0 exists in tent 0 only. -/
def regionResetMib (t r : Nat) : Nat :=
  match r with
  | 0 => if t = 0 then 64 else 0
  | 1 => 256 | 2 => 32 | 3 => 512 | 4 => 1024 | 5 => 36864 | 6 => 65536 | _ => 16384

/-- The default window map of R412: entry `k` as (tent, region, first unit, units). -/
def winMapReset (k : Nat) : Nat :=
  let enc (t r f c : Nat) := 2 ^ 31 + t * 2 ^ 28 + r * 2 ^ 25 + f * 2 ^ 8 + c
  if k = 0 then enc 0 0 0 1 else if k = 1 then enc 0 1 1 1 else if k = 2 then enc 0 3 2 2
  else if k = 3 then enc 0 4 4 4
  else if k < 25 then
    let n := (k - 4) / 3 + 1
    let b := 8 + 7 * (n - 1)
    match (k - 4) % 3 with
    | 0 => enc n 1 b 1
    | 1 => enc n 3 (b + 1) 2
    | _ => enc n 4 (b + 3) 4
  else 0

/-- The reset value of copy `i` of a register on die `d`. -/
def regReset (id : RegId) (d i : Nat) : Nat :=
  match id with
  | .MSIX_CONTROL => 1
  | .USH_PART_CFG => (if i = 0 then 208896 else if i = 1 then 32768 else 0) + 6 * 2 ^ 27
  | .SPT_LSR_CFG => if i % 8 < 7 then 0x8000 * 2 ^ 16 + (if i % 8 ≤ 4 then i % 8 else 7) * 2 ^ 10 else 0
  | .TMB_SLIVER_MAP => i / 16 * 2 ^ 5 + i % 16
  | .MEM_REGION_SIZE => regionResetMib d i
  | .CXL_WIN_MAP => winMapReset i
  | .LNK_LANE_MAP => 0xFFF0FFF
  | .LNK_CREDIT_INIT0 => 0x1000100
  | .LNK_CREDIT_INIT1 => 0x2000200
  | .LNK_CREDIT_INIT2 => 0x1000020
  | .LNK_CREDIT_INIT3 => 0x200000
  | .MGT_ETH_MAC_LO => Config.mac.toNat % 2 ^ 32
  | .MGT_ETH_MAC_HI => Config.mac.toNat / 2 ^ 32
  | .FWD_SELF_ADDR => 0xFFFFFFFF
  | .FWD_EPOCH_STATUS => 0x4
  | .USH_COLL_CELLS => 0x10000
  | .USH_VC_MAP => 0x500
  | .USH_CLASS => 0xFD0B4
  | .USH_SPILL_CTRL => 0xCA4040
  | .USH_POOL_SMALL => 0x4000
  | .USH_POOL_MED => 0x3000
  | .USH_POOL_LARGE => 0x1800
  | .CAL_PORT_CTRL => 0xFF
  | .CAL_VC_PRIO => 0x1320121
  | .CAL_DWRR_Q0 => 0x46464646
  | .CAL_DWRR_Q1 => 0x46464646
  | .CAL_MARK_CFG => 0x4000800
  | .MDW_LINK_STATUS => 0x28
  | .CAR_STALL_TK => 0x9C400
  | .CAR_TWIN_CTRL => 0x8
  | .TMB_SUBST_STATUS => 0x20
  | .TGT_SERVO_GAIN => 0x82280010
  | .TGT_PTP_CTRL => 0x10000
  | .TGT_TRIG_WIDTH => 0x1
  | .SPT_LANE_CFG => 0x40
  | .SPT_HEAT_CTRL => 0x1900
  | .SPT_MON_CTRL => 0x3
  | .SPT_XT_CTRL => 0x20000708
  | .SPT_APR_STATUS => 0xFFFFFFFF
  | .SPT_LSR_GROUP => 0x2
  | .SPT_RING => if i % 512 < 320 then 0xE00000 else 0
  | .SNT_TARGET => 0x18000
  | .BRK_SEED => 0x1
  | .BRK_RING_CFG => 0x200
  | .BRK_TRACE_CTRL => 0x80000000
  | .BRK_HINT_HOT => 0x10000
  | .BRK_HINT_COOL => 0x8000
  | .BRK_HINT_INTERVAL => 0x1900
  | .MGT_FAULT_CFG => 0xA30A18
  | .CXL_WIN_CFG => 0x40
  | .SEC_FUSE_STATUS => 0xB00000
  | .SEC_SEAL_CTRL => 0x9C400
  | _ => 0

/-- What a register word that nothing has written reads as: its reset value. -/
def resetWord (a : Nat) : Word :=
  if a < 0x9000000 ∧ a % 0x10000 = 0 ∧ a / 0x10000 ≠ 0xF2 ∧ (pageNcnt (addrPage a)).isSome then BitVec.ofNat 32 (pageIdWord (addrPage a))
  else if a < 0x9000000 ∧ a % 0x10000 = 4 ∧ a / 0x10000 ≠ 0xF2 ∧ (pageNcnt (addrPage a)).isSome then
    BitVec.ofNat 32 (pageCapsWord (addrPage a))
  else
    match regAt a with
    | some r => BitVec.ofNat 32 (regReset r.id r.die r.ix)
    | none => 0

/-! The fields, each by its register's place. Arguments: the tent, the port slot, the fibre pair or the engine,
then the copy's index. -/

/-- A field of a page's common header or counter control words. -/
def pageFld (p : Page) (off lo width : Nat) : Fld := ⟨pageBase p + off, lo, width⟩

/-- `PAGE_STATUS_READY` of page `p`. -/
def PAGE_STATUS_READY (p : Page) : Fld := pageFld p 0x8 0 1
/-- `PAGE_STATUS_FROZEN` of page `p`. -/
def PAGE_STATUS_FROZEN (p : Page) : Fld := pageFld p 0x8 1 1
/-- `PAGE_ERR_ACCERR` of page `p`. -/
def PAGE_ERR_ACCERR (p : Page) : Fld := pageFld p 0xC 0 1
/-- `PAGE_ERR_RSVW` of page `p`. -/
def PAGE_ERR_RSVW (p : Page) : Fld := pageFld p 0xC 1 1
/-- `PAGE_ERR_OVERRUN` of page `p`. -/
def PAGE_ERR_OVERRUN (p : Page) : Fld := pageFld p 0xC 2 1
/-- `PAGE_ERR_SOURCE` of page `p`. -/
def PAGE_ERR_SOURCE (p : Page) : Fld := pageFld p 0xC 8 4
/-- `PAGE_ERR_OFFSET` of page `p`. -/
def PAGE_ERR_OFFSET (p : Page) : Fld := pageFld p 0xC 16 16
/-- `INT_PEND_ALL` of page `p`. -/
def INT_PEND_ALL (p : Page) : Fld := pageFld p 0x10 0 32
/-- `INT_EN_ALL` of page `p`. -/
def INT_EN_ALL (p : Page) : Fld := pageFld p 0x14 0 32
/-- `CNT_CTRL_VIEW` of page `p`. -/
def CNT_CTRL_VIEW (p : Page) : Fld := pageFld p 0x1000 3 1
/-- `CNT_CTRL_SRC` of page `p`. -/
def CNT_CTRL_SRC (p : Page) : Fld := pageFld p 0x1000 4 1
/-- `CNT_CTRL_TRIG` of page `p`. -/
def CNT_CTRL_TRIG (p : Page) : Fld := pageFld p 0x1000 5 5
/-- `CNT_STATUS_BUSY` of page `p`. -/
def CNT_STATUS_BUSY (p : Page) : Fld := pageFld p 0x1004 0 1
/-- `CNT_STATUS_VALID` of page `p`. -/
def CNT_STATUS_VALID (p : Page) : Fld := pageFld p 0x1004 1 1
/-- `CNT_STATUS_MISS` of page `p`. -/
def CNT_STATUS_MISS (p : Page) : Fld := pageFld p 0x1004 2 1
/-- `CNT_SNAP_LO` of page `p`. -/
def CNT_SNAP_LO (p : Page) : Fld := pageFld p 0x1008 0 32
/-- `CNT_SNAP_HI` of page `p`. -/
def CNT_SNAP_HI (p : Page) : Fld := pageFld p 0x100C 0 32
/-- The BAR0 offset of `LNK_VER_CTRL` (16_registers.md, R456). -/
def LNK_VER_CTRL_at (t : Nat) : Nat := 0x1000000 * (t + 1) + 0x10100
/-- `LNK_VER_CTRL.MIN_MINOR`. -/
def LNK_VER_CTRL_MIN_MINOR (t : Nat) : Fld := ⟨LNK_VER_CTRL_at t, 0, 2⟩
/-- The BAR0 offset of `LNK_FP_MODE` (16_registers.md, R456). -/
def LNK_FP_MODE_at (f : Nat) : Nat := 0x1000000 * (f / 64 + 1) + 0x10200 + 4 * (f % 64)
/-- `LNK_FP_MODE.MODE`. -/
def LNK_FP_MODE_MODE (f : Nat) : Fld := ⟨LNK_FP_MODE_at f, 0, 3⟩
/-- The BAR0 offset of `LNK_PORT_CTRL` (16_registers.md, R457). -/
def LNK_PORT_CTRL_at (s : Nat) : Nat := 0x1000000 * (s / 256 + 1) + 0x18000 + 64 * (s % 256)
/-- `LNK_PORT_CTRL.ROLE`. -/
def LNK_PORT_CTRL_ROLE (s : Nat) : Fld := ⟨LNK_PORT_CTRL_at s, 1, 2⟩
/-- `LNK_PORT_CTRL.ENABLE`. -/
def LNK_PORT_CTRL_ENABLE (s : Nat) : Fld := ⟨LNK_PORT_CTRL_at s, 0, 1⟩
/-- The BAR0 offset of `LNK_PORT_STATUS` (16_registers.md, R458). -/
def LNK_PORT_STATUS_at (s : Nat) : Nat := 0x1000000 * (s / 256 + 1) + 0x18004 + 64 * (s % 256)
/-- `LNK_PORT_STATUS.PAUSED`. -/
def LNK_PORT_STATUS_PAUSED (s : Nat) : Fld := ⟨LNK_PORT_STATUS_at s, 15, 1⟩
/-- `LNK_PORT_STATUS.CHANGE_PENDING`. -/
def LNK_PORT_STATUS_CHANGE_PENDING (s : Nat) : Fld := ⟨LNK_PORT_STATUS_at s, 14, 1⟩
/-- `LNK_PORT_STATUS.N`. -/
def LNK_PORT_STATUS_N (s : Nat) : Fld := ⟨LNK_PORT_STATUS_at s, 11, 3⟩
/-- `LNK_PORT_STATUS.VER`. -/
def LNK_PORT_STATUS_VER (s : Nat) : Fld := ⟨LNK_PORT_STATUS_at s, 6, 4⟩
/-- `LNK_PORT_STATUS.RETRY_EXHAUSTED`. -/
def LNK_PORT_STATUS_RETRY_EXHAUSTED (s : Nat) : Fld := ⟨LNK_PORT_STATUS_at s, 3, 1⟩
/-- `LNK_PORT_STATUS.SKEW`. -/
def LNK_PORT_STATUS_SKEW (s : Nat) : Fld := ⟨LNK_PORT_STATUS_at s, 2, 1⟩
/-- `LNK_PORT_STATUS.TRAINING`. -/
def LNK_PORT_STATUS_TRAINING (s : Nat) : Fld := ⟨LNK_PORT_STATUS_at s, 1, 1⟩
/-- `LNK_PORT_STATUS.UP`. -/
def LNK_PORT_STATUS_UP (s : Nat) : Fld := ⟨LNK_PORT_STATUS_at s, 0, 1⟩
/-- The BAR0 offset of `LNK_TRAIN_STATUS` (16_registers.md, R459). -/
def LNK_TRAIN_STATUS_at (s : Nat) : Nat := 0x1000000 * (s / 256 + 1) + 0x18008 + 64 * (s % 256)
/-- `LNK_TRAIN_STATUS.STEP`. -/
def LNK_TRAIN_STATUS_STEP (s : Nat) : Fld := ⟨LNK_TRAIN_STATUS_at s, 4, 4⟩
/-- `LNK_TRAIN_STATUS.CREDIT_ERR`. -/
def LNK_TRAIN_STATUS_CREDIT_ERR (s : Nat) : Fld := ⟨LNK_TRAIN_STATUS_at s, 2, 1⟩
/-- `LNK_TRAIN_STATUS.MODE_MISMATCH`. -/
def LNK_TRAIN_STATUS_MODE_MISMATCH (s : Nat) : Fld := ⟨LNK_TRAIN_STATUS_at s, 1, 1⟩
/-- `LNK_TRAIN_STATUS.VER_MISMATCH`. -/
def LNK_TRAIN_STATUS_VER_MISMATCH (s : Nat) : Fld := ⟨LNK_TRAIN_STATUS_at s, 0, 1⟩
/-- The BAR0 offset of `LNK_LANE_MAP` (16_registers.md, R459). -/
def LNK_LANE_MAP_at (s : Nat) : Nat := 0x1000000 * (s / 256 + 1) + 0x1800C + 64 * (s % 256)
/-- `LNK_LANE_MAP.TX`. -/
def LNK_LANE_MAP_TX (s : Nat) : Fld := ⟨LNK_LANE_MAP_at s, 16, 12⟩
/-- `LNK_LANE_MAP.RX`. -/
def LNK_LANE_MAP_RX (s : Nat) : Fld := ⟨LNK_LANE_MAP_at s, 0, 12⟩
/-- The BAR0 offset of `LNK_RTT` (16_registers.md, R459). -/
def LNK_RTT_at (s : Nat) : Nat := 0x1000000 * (s / 256 + 1) + 0x18010 + 64 * (s % 256)
/-- `LNK_RTT.RTT`. -/
def LNK_RTT_RTT (s : Nat) : Fld := ⟨LNK_RTT_at s, 0, 24⟩
/-- The BAR0 offset of `LNK_PARTNER_INFO` (16_registers.md, R459). -/
def LNK_PARTNER_INFO_at (s : Nat) : Nat := 0x1000000 * (s / 256 + 1) + 0x18014 + 64 * (s % 256)
/-- `LNK_PARTNER_INFO.KIND`. -/
def LNK_PARTNER_INFO_KIND (s : Nat) : Fld := ⟨LNK_PARTNER_INFO_at s, 24, 8⟩
/-- `LNK_PARTNER_INFO.TCAPS`. -/
def LNK_PARTNER_INFO_TCAPS (s : Nat) : Fld := ⟨LNK_PARTNER_INFO_at s, 16, 8⟩
/-- `LNK_PARTNER_INFO.SLOT`. -/
def LNK_PARTNER_INFO_SLOT (s : Nat) : Fld := ⟨LNK_PARTNER_INFO_at s, 0, 16⟩
/-- The BAR0 offset of `LNK_PARTNER_ID_LO` (16_registers.md, R459). -/
def LNK_PARTNER_ID_LO_at (s : Nat) : Nat := 0x1000000 * (s / 256 + 1) + 0x18018 + 64 * (s % 256)
/-- `LNK_PARTNER_ID_LO.SERIAL`. -/
def LNK_PARTNER_ID_LO_SERIAL (s : Nat) : Fld := ⟨LNK_PARTNER_ID_LO_at s, 0, 32⟩
/-- The BAR0 offset of `LNK_PARTNER_ID_HI` (16_registers.md, R459). -/
def LNK_PARTNER_ID_HI_at (s : Nat) : Nat := 0x1000000 * (s / 256 + 1) + 0x1801C + 64 * (s % 256)
/-- `LNK_PARTNER_ID_HI.SERIAL`. -/
def LNK_PARTNER_ID_HI_SERIAL (s : Nat) : Fld := ⟨LNK_PARTNER_ID_HI_at s, 0, 32⟩
/-- The BAR0 offset of `LNK_PARTNER_ID_ADDR` (16_registers.md, R459). -/
def LNK_PARTNER_ID_ADDR_at (s : Nat) : Nat := 0x1000000 * (s / 256 + 1) + 0x18020 + 64 * (s % 256)
/-- `LNK_PARTNER_ID_ADDR.ADDR`. -/
def LNK_PARTNER_ID_ADDR_ADDR (s : Nat) : Fld := ⟨LNK_PARTNER_ID_ADDR_at s, 0, 32⟩
/-- The BAR0 offset of `LNK_CREDIT_INIT0` (16_registers.md, R460). -/
def LNK_CREDIT_INIT0_at (s : Nat) : Nat := 0x1000000 * (s / 256 + 1) + 0x18028 + 64 * (s % 256)
/-- `LNK_CREDIT_INIT0.EVEN`. -/
def LNK_CREDIT_INIT0_EVEN (s : Nat) : Fld := ⟨LNK_CREDIT_INIT0_at s, 16, 16⟩
/-- `LNK_CREDIT_INIT0.ODD`. -/
def LNK_CREDIT_INIT0_ODD (s : Nat) : Fld := ⟨LNK_CREDIT_INIT0_at s, 0, 16⟩
/-- The BAR0 offset of `LNK_CREDIT_INIT1` (16_registers.md, R460). -/
def LNK_CREDIT_INIT1_at (s : Nat) : Nat := 0x1000000 * (s / 256 + 1) + 0x1802C + 64 * (s % 256)
/-- `LNK_CREDIT_INIT1.EVEN`. -/
def LNK_CREDIT_INIT1_EVEN (s : Nat) : Fld := ⟨LNK_CREDIT_INIT1_at s, 16, 16⟩
/-- `LNK_CREDIT_INIT1.ODD`. -/
def LNK_CREDIT_INIT1_ODD (s : Nat) : Fld := ⟨LNK_CREDIT_INIT1_at s, 0, 16⟩
/-- The BAR0 offset of `LNK_CREDIT_INIT2` (16_registers.md, R460). -/
def LNK_CREDIT_INIT2_at (s : Nat) : Nat := 0x1000000 * (s / 256 + 1) + 0x18030 + 64 * (s % 256)
/-- `LNK_CREDIT_INIT2.EVEN`. -/
def LNK_CREDIT_INIT2_EVEN (s : Nat) : Fld := ⟨LNK_CREDIT_INIT2_at s, 16, 16⟩
/-- `LNK_CREDIT_INIT2.ODD`. -/
def LNK_CREDIT_INIT2_ODD (s : Nat) : Fld := ⟨LNK_CREDIT_INIT2_at s, 0, 16⟩
/-- The BAR0 offset of `LNK_CREDIT_INIT3` (16_registers.md, R460). -/
def LNK_CREDIT_INIT3_at (s : Nat) : Nat := 0x1000000 * (s / 256 + 1) + 0x18034 + 64 * (s % 256)
/-- `LNK_CREDIT_INIT3.EVEN`. -/
def LNK_CREDIT_INIT3_EVEN (s : Nat) : Fld := ⟨LNK_CREDIT_INIT3_at s, 16, 16⟩
/-- `LNK_CREDIT_INIT3.ODD`. -/
def LNK_CREDIT_INIT3_ODD (s : Nat) : Fld := ⟨LNK_CREDIT_INIT3_at s, 0, 16⟩
/-- The BAR0 offset of `FWD_CTRL` (03_forwarding.md, R88). -/
def FWD_CTRL_at (t : Nat) : Nat := 0x1000000 * (t + 1) + 0x20100
/-- `FWD_CTRL.HALL_MODE`. -/
def FWD_CTRL_HALL_MODE (t : Nat) : Fld := ⟨FWD_CTRL_at t, 6, 2⟩
/-- `FWD_CTRL.FWD_EN`. -/
def FWD_CTRL_FWD_EN (t : Nat) : Fld := ⟨FWD_CTRL_at t, 0, 1⟩
/-- The BAR0 offset of `FWD_HALL` (03_forwarding.md, R88). -/
def FWD_HALL_at (t : Nat) : Nat := 0x1000000 * (t + 1) + 0x20104
/-- `FWD_HALL.HALL`. -/
def FWD_HALL_HALL (t : Nat) : Fld := ⟨FWD_HALL_at t, 0, 4⟩
/-- The BAR0 offset of `FWD_HASH_SEED` (03_forwarding.md, R76,R88). -/
def FWD_HASH_SEED_at (t : Nat) : Nat := 0x1000000 * (t + 1) + 0x20108
/-- `FWD_HASH_SEED.SEED`. -/
def FWD_HASH_SEED_SEED (t : Nat) : Fld := ⟨FWD_HASH_SEED_at t, 0, 32⟩
/-- The BAR0 offset of `FWD_SELF_ADDR` (03_forwarding.md, R68,R88). -/
def FWD_SELF_ADDR_at (t : Nat) : Nat := 0x1000000 * (t + 1) + 0x2010C
/-- `FWD_SELF_ADDR.ADDR`. -/
def FWD_SELF_ADDR_ADDR (t : Nat) : Fld := ⟨FWD_SELF_ADDR_at t, 0, 32⟩
/-- The BAR0 offset of `FWD_EPOCH_CTRL` (03_forwarding.md, R89). -/
def FWD_EPOCH_CTRL_at (t : Nat) : Nat := 0x1000000 * (t + 1) + 0x20110
/-- `FWD_EPOCH_CTRL.TRIG`. -/
def FWD_EPOCH_CTRL_TRIG (t : Nat) : Fld := ⟨FWD_EPOCH_CTRL_at t, 11, 5⟩
/-- `FWD_EPOCH_CTRL.SRC`. -/
def FWD_EPOCH_CTRL_SRC (t : Nat) : Fld := ⟨FWD_EPOCH_CTRL_at t, 10, 1⟩
/-- `FWD_EPOCH_CTRL.COPY`. -/
def FWD_EPOCH_CTRL_COPY (t : Nat) : Fld := ⟨FWD_EPOCH_CTRL_at t, 2, 1⟩
/-- `FWD_EPOCH_CTRL.FLUSH_OLD`. -/
def FWD_EPOCH_CTRL_FLUSH_OLD (t : Nat) : Fld := ⟨FWD_EPOCH_CTRL_at t, 1, 1⟩
/-- `FWD_EPOCH_CTRL.SWITCH`. -/
def FWD_EPOCH_CTRL_SWITCH (t : Nat) : Fld := ⟨FWD_EPOCH_CTRL_at t, 0, 1⟩
/-- The BAR0 offset of `FWD_EPOCH_STATUS` (03_forwarding.md, R89). -/
def FWD_EPOCH_STATUS_at (t : Nat) : Nat := 0x1000000 * (t + 1) + 0x20114
/-- `FWD_EPOCH_STATUS.COPY_BUSY`. -/
def FWD_EPOCH_STATUS_COPY_BUSY (t : Nat) : Fld := ⟨FWD_EPOCH_STATUS_at t, 4, 1⟩
/-- `FWD_EPOCH_STATUS.FENCED`. -/
def FWD_EPOCH_STATUS_FENCED (t : Nat) : Fld := ⟨FWD_EPOCH_STATUS_at t, 3, 1⟩
/-- `FWD_EPOCH_STATUS.DRAINED`. -/
def FWD_EPOCH_STATUS_DRAINED (t : Nat) : Fld := ⟨FWD_EPOCH_STATUS_at t, 2, 1⟩
/-- `FWD_EPOCH_STATUS.PENDING`. -/
def FWD_EPOCH_STATUS_PENDING (t : Nat) : Fld := ⟨FWD_EPOCH_STATUS_at t, 1, 1⟩
/-- `FWD_EPOCH_STATUS.LIVE`. -/
def FWD_EPOCH_STATUS_LIVE (t : Nat) : Fld := ⟨FWD_EPOCH_STATUS_at t, 0, 1⟩
/-- The BAR0 offset of `FWD_TBL_CMD` (16_registers.md, R461). -/
def FWD_TBL_CMD_at (t : Nat) : Nat := 0x1000000 * (t + 1) + 0x20120
/-- `FWD_TBL_CMD.TABLE`. -/
def FWD_TBL_CMD_TABLE (t : Nat) : Fld := ⟨FWD_TBL_CMD_at t, 30, 2⟩
/-- `FWD_TBL_CMD.READ`. -/
def FWD_TBL_CMD_READ (t : Nat) : Fld := ⟨FWD_TBL_CMD_at t, 29, 1⟩
/-- `FWD_TBL_CMD.BANK`. -/
def FWD_TBL_CMD_BANK (t : Nat) : Fld := ⟨FWD_TBL_CMD_at t, 28, 1⟩
/-- `FWD_TBL_CMD.INDEX`. -/
def FWD_TBL_CMD_INDEX (t : Nat) : Fld := ⟨FWD_TBL_CMD_at t, 0, 14⟩
/-- The BAR0 offset of `FWD_TBL_STATUS` (16_registers.md, R461). -/
def FWD_TBL_STATUS_at (t : Nat) : Nat := 0x1000000 * (t + 1) + 0x20124
/-- `FWD_TBL_STATUS.REJECTED`. -/
def FWD_TBL_STATUS_REJECTED (t : Nat) : Fld := ⟨FWD_TBL_STATUS_at t, 1, 1⟩
/-- `FWD_TBL_STATUS.BUSY`. -/
def FWD_TBL_STATUS_BUSY (t : Nat) : Fld := ⟨FWD_TBL_STATUS_at t, 0, 1⟩
/-- The BAR0 offset of `FWD_NOTICE_CTRL` (16_registers.md, R462). -/
def FWD_NOTICE_CTRL_at (t : Nat) : Nat := 0x1000000 * (t + 1) + 0x20130
/-- `FWD_NOTICE_CTRL.GO`. -/
def FWD_NOTICE_CTRL_GO (t : Nat) : Fld := ⟨FWD_NOTICE_CTRL_at t, 31, 1⟩
/-- `FWD_NOTICE_CTRL.COUNT`. -/
def FWD_NOTICE_CTRL_COUNT (t : Nat) : Fld := ⟨FWD_NOTICE_CTRL_at t, 16, 15⟩
/-- `FWD_NOTICE_CTRL.FIRST`. -/
def FWD_NOTICE_CTRL_FIRST (t : Nat) : Fld := ⟨FWD_NOTICE_CTRL_at t, 0, 14⟩
/-- The BAR0 offset of `FWD_NOTICE_STATUS` (16_registers.md, R462). -/
def FWD_NOTICE_STATUS_at (t : Nat) : Nat := 0x1000000 * (t + 1) + 0x20134
/-- `FWD_NOTICE_STATUS.BUSY`. -/
def FWD_NOTICE_STATUS_BUSY (t : Nat) : Fld := ⟨FWD_NOTICE_STATUS_at t, 0, 1⟩
/-- The BAR0 offset of `FWD_WIN` (16_registers.md, R461). -/
def FWD_WIN_at (t i : Nat) : Nat := 0x1000000 * (t + 1) + 0x28000 + 4 * i
/-- `FWD_WIN.W`. -/
def FWD_WIN_W (t i : Nat) : Fld := ⟨FWD_WIN_at t i, 0, 32⟩
/-- The BAR0 offset of `TRN_PORT_OVH` (05_egress_scheduling.md, R139). -/
def TRN_PORT_OVH_at (s : Nat) : Nat := 0x1000000 * (s / 256 + 1) + 0x30200 + 4 * (s % 256)
/-- `TRN_PORT_OVH.OVH`. -/
def TRN_PORT_OVH_OVH (s : Nat) : Fld := ⟨TRN_PORT_OVH_at s, 0, 9⟩
/-- The BAR0 offset of `USH_CTRL` (04_buffers.md, R114). -/
def USH_CTRL_at (t : Nat) : Nat := 0x1000000 * (t + 1) + 0x40100
/-- `USH_CTRL.AUDIT`. -/
def USH_CTRL_AUDIT (t : Nat) : Fld := ⟨USH_CTRL_at t, 3, 1⟩
/-- `USH_CTRL.ALLOC_MODE`. -/
def USH_CTRL_ALLOC_MODE (t : Nat) : Fld := ⟨USH_CTRL_at t, 0, 2⟩
/-- The BAR0 offset of `USH_COLL_CELLS` (04_buffers.md, R114). -/
def USH_COLL_CELLS_at (t : Nat) : Nat := 0x1000000 * (t + 1) + 0x40104
/-- `USH_COLL_CELLS.CELLS`. -/
def USH_COLL_CELLS_CELLS (t : Nat) : Fld := ⟨USH_COLL_CELLS_at t, 0, 19⟩
/-- The BAR0 offset of `USH_PART_CFG` (04_buffers.md, R115). -/
def USH_PART_CFG_at (t i : Nat) : Nat := 0x1000000 * (t + 1) + 0x40110 + 4 * i
/-- `USH_PART_CFG.MODE`. -/
def USH_PART_CFG_MODE (t i : Nat) : Fld := ⟨USH_PART_CFG_at t i, 31, 1⟩
/-- `USH_PART_CFG.ALPHA`. -/
def USH_PART_CFG_ALPHA (t i : Nat) : Fld := ⟨USH_PART_CFG_at t i, 27, 4⟩
/-- `USH_PART_CFG.SIZE`. -/
def USH_PART_CFG_SIZE (t i : Nat) : Fld := ⟨USH_PART_CFG_at t i, 0, 19⟩
/-- The BAR0 offset of `USH_VC_MAP` (04_buffers.md, R116). -/
def USH_VC_MAP_at (t : Nat) : Nat := 0x1000000 * (t + 1) + 0x40120
/-- `USH_VC_MAP.VC6`. -/
def USH_VC_MAP_VC6 (t : Nat) : Fld := ⟨USH_VC_MAP_at t, 12, 2⟩
/-- `USH_VC_MAP.VC5`. -/
def USH_VC_MAP_VC5 (t : Nat) : Fld := ⟨USH_VC_MAP_at t, 10, 2⟩
/-- `USH_VC_MAP.VC4`. -/
def USH_VC_MAP_VC4 (t : Nat) : Fld := ⟨USH_VC_MAP_at t, 8, 2⟩
/-- `USH_VC_MAP.VC2`. -/
def USH_VC_MAP_VC2 (t : Nat) : Fld := ⟨USH_VC_MAP_at t, 4, 2⟩
/-- `USH_VC_MAP.VC1`. -/
def USH_VC_MAP_VC1 (t : Nat) : Fld := ⟨USH_VC_MAP_at t, 2, 2⟩
/-- `USH_VC_MAP.VC0`. -/
def USH_VC_MAP_VC0 (t : Nat) : Fld := ⟨USH_VC_MAP_at t, 0, 2⟩
/-- The BAR0 offset of `USH_CLASS` (04_buffers.md, R116). -/
def USH_CLASS_at (t : Nat) : Nat := 0x1000000 * (t + 1) + 0x40124
/-- `USH_CLASS.VC6`. -/
def USH_CLASS_VC6 (t : Nat) : Fld := ⟨USH_CLASS_at t, 18, 3⟩
/-- `USH_CLASS.VC5`. -/
def USH_CLASS_VC5 (t : Nat) : Fld := ⟨USH_CLASS_at t, 15, 3⟩
/-- `USH_CLASS.VC4`. -/
def USH_CLASS_VC4 (t : Nat) : Fld := ⟨USH_CLASS_at t, 12, 3⟩
/-- `USH_CLASS.VC2`. -/
def USH_CLASS_VC2 (t : Nat) : Fld := ⟨USH_CLASS_at t, 6, 3⟩
/-- `USH_CLASS.VC1`. -/
def USH_CLASS_VC1 (t : Nat) : Fld := ⟨USH_CLASS_at t, 3, 3⟩
/-- `USH_CLASS.VC0`. -/
def USH_CLASS_VC0 (t : Nat) : Fld := ⟨USH_CLASS_at t, 0, 3⟩
/-- The BAR0 offset of `USH_SPILL_CTRL` (04_buffers.md, R117). -/
def USH_SPILL_CTRL_at (t : Nat) : Nat := 0x1000000 * (t + 1) + 0x40130
/-- `USH_SPILL_CTRL.EN`. -/
def USH_SPILL_CTRL_EN (t : Nat) : Fld := ⟨USH_SPILL_CTRL_at t, 28, 4⟩
/-- `USH_SPILL_CTRL.ON`. -/
def USH_SPILL_CTRL_ON (t : Nat) : Fld := ⟨USH_SPILL_CTRL_at t, 20, 4⟩
/-- `USH_SPILL_CTRL.OFF`. -/
def USH_SPILL_CTRL_OFF (t : Nat) : Fld := ⟨USH_SPILL_CTRL_at t, 16, 4⟩
/-- `USH_SPILL_CTRL.WRATE`. -/
def USH_SPILL_CTRL_WRATE (t : Nat) : Fld := ⟨USH_SPILL_CTRL_at t, 8, 8⟩
/-- `USH_SPILL_CTRL.RDRATE`. -/
def USH_SPILL_CTRL_RDRATE (t : Nat) : Fld := ⟨USH_SPILL_CTRL_at t, 0, 8⟩
/-- The BAR0 offset of `USH_STATUS` (04_buffers.md, R118). -/
def USH_STATUS_at (t : Nat) : Nat := 0x1000000 * (t + 1) + 0x40140
/-- `USH_STATUS.AUDIT_BUSY`. -/
def USH_STATUS_AUDIT_BUSY (t : Nat) : Fld := ⟨USH_STATUS_at t, 4, 1⟩
/-- `USH_STATUS.DESC_LIMIT`. -/
def USH_STATUS_DESC_LIMIT (t : Nat) : Fld := ⟨USH_STATUS_at t, 3, 1⟩
/-- `USH_STATUS.SPILL_FULL`. -/
def USH_STATUS_SPILL_FULL (t : Nat) : Fld := ⟨USH_STATUS_at t, 2, 1⟩
/-- `USH_STATUS.SPILLING`. -/
def USH_STATUS_SPILLING (t : Nat) : Fld := ⟨USH_STATUS_at t, 1, 1⟩
/-- `USH_STATUS.RESV_SHORT`. -/
def USH_STATUS_RESV_SHORT (t : Nat) : Fld := ⟨USH_STATUS_at t, 0, 1⟩
/-- The BAR0 offset of `USH_PART_OCC` (04_buffers.md, R118). -/
def USH_PART_OCC_at (t i : Nat) : Nat := 0x1000000 * (t + 1) + 0x40150 + 4 * i
/-- `USH_PART_OCC.CELLS`. -/
def USH_PART_OCC_CELLS (t i : Nat) : Fld := ⟨USH_PART_OCC_at t i, 0, 19⟩
/-- The BAR0 offset of `USH_UNRESERVED` (04_buffers.md, R118). -/
def USH_UNRESERVED_at (t : Nat) : Nat := 0x1000000 * (t + 1) + 0x40160
/-- `USH_UNRESERVED.CELLS`. -/
def USH_UNRESERVED_CELLS (t : Nat) : Fld := ⟨USH_UNRESERVED_at t, 0, 19⟩
/-- The BAR0 offset of `USH_POOL_SMALL` (04_buffers.md, R118). -/
def USH_POOL_SMALL_at (t : Nat) : Nat := 0x1000000 * (t + 1) + 0x40170
/-- `USH_POOL_SMALL.BLOCKS`. -/
def USH_POOL_SMALL_BLOCKS (t : Nat) : Fld := ⟨USH_POOL_SMALL_at t, 0, 18⟩
/-- The BAR0 offset of `USH_POOL_MED` (04_buffers.md, R118). -/
def USH_POOL_MED_at (t : Nat) : Nat := 0x1000000 * (t + 1) + 0x40174
/-- `USH_POOL_MED.BLOCKS`. -/
def USH_POOL_MED_BLOCKS (t : Nat) : Fld := ⟨USH_POOL_MED_at t, 0, 18⟩
/-- The BAR0 offset of `USH_POOL_LARGE` (04_buffers.md, R118). -/
def USH_POOL_LARGE_at (t : Nat) : Nat := 0x1000000 * (t + 1) + 0x40178
/-- `USH_POOL_LARGE.BLOCKS`. -/
def USH_POOL_LARGE_BLOCKS (t : Nat) : Fld := ⟨USH_POOL_LARGE_at t, 0, 18⟩
/-- The BAR0 offset of `CAL_WIN_SEL` (05_egress_scheduling.md, R140). -/
def CAL_WIN_SEL_at (t : Nat) : Nat := 0x1000000 * (t + 1) + 0x50100
/-- `CAL_WIN_SEL.SLOT`. -/
def CAL_WIN_SEL_SLOT (t : Nat) : Fld := ⟨CAL_WIN_SEL_at t, 0, 8⟩
/-- The BAR0 offset of `CAL_PORT_CTRL` (05_egress_scheduling.md, R141). -/
def CAL_PORT_CTRL_at (s : Nat) : Nat := 0x20000000 + 0x8000 * s + 0x4000
/-- `CAL_PORT_CTRL.OVH`. -/
def CAL_PORT_CTRL_OVH (s : Nat) : Fld := ⟨CAL_PORT_CTRL_at s, 8, 9⟩
/-- `CAL_PORT_CTRL.IDLE_GATES`. -/
def CAL_PORT_CTRL_IDLE_GATES (s : Nat) : Fld := ⟨CAL_PORT_CTRL_at s, 0, 8⟩
/-- The BAR0 offset of `CAL_VC_PRIO` (05_egress_scheduling.md, R141). -/
def CAL_VC_PRIO_at (s : Nat) : Nat := 0x20000000 + 0x8000 * s + 0x4004
/-- `CAL_VC_PRIO.LEVEL0`. -/
def CAL_VC_PRIO_LEVEL0 (s : Nat) : Fld := ⟨CAL_VC_PRIO_at s, 0, 2⟩
/-- `CAL_VC_PRIO.LEVEL1`. -/
def CAL_VC_PRIO_LEVEL1 (s : Nat) : Fld := ⟨CAL_VC_PRIO_at s, 4, 2⟩
/-- `CAL_VC_PRIO.LEVEL2`. -/
def CAL_VC_PRIO_LEVEL2 (s : Nat) : Fld := ⟨CAL_VC_PRIO_at s, 8, 2⟩
/-- `CAL_VC_PRIO.LEVEL3`. -/
def CAL_VC_PRIO_LEVEL3 (s : Nat) : Fld := ⟨CAL_VC_PRIO_at s, 12, 2⟩
/-- `CAL_VC_PRIO.LEVEL4`. -/
def CAL_VC_PRIO_LEVEL4 (s : Nat) : Fld := ⟨CAL_VC_PRIO_at s, 16, 2⟩
/-- `CAL_VC_PRIO.LEVEL5`. -/
def CAL_VC_PRIO_LEVEL5 (s : Nat) : Fld := ⟨CAL_VC_PRIO_at s, 20, 2⟩
/-- `CAL_VC_PRIO.LEVEL6`. -/
def CAL_VC_PRIO_LEVEL6 (s : Nat) : Fld := ⟨CAL_VC_PRIO_at s, 24, 2⟩
/-- `CAL_VC_PRIO.LEVEL7`. -/
def CAL_VC_PRIO_LEVEL7 (s : Nat) : Fld := ⟨CAL_VC_PRIO_at s, 28, 2⟩
/-- The BAR0 offset of `CAL_DWRR_Q0` (05_egress_scheduling.md, R141). -/
def CAL_DWRR_Q0_at (s : Nat) : Nat := 0x20000000 + 0x8000 * s + 0x4008
/-- `CAL_DWRR_Q0.Q3`. -/
def CAL_DWRR_Q0_Q3 (s : Nat) : Fld := ⟨CAL_DWRR_Q0_at s, 24, 8⟩
/-- `CAL_DWRR_Q0.Q2`. -/
def CAL_DWRR_Q0_Q2 (s : Nat) : Fld := ⟨CAL_DWRR_Q0_at s, 16, 8⟩
/-- `CAL_DWRR_Q0.Q1`. -/
def CAL_DWRR_Q0_Q1 (s : Nat) : Fld := ⟨CAL_DWRR_Q0_at s, 8, 8⟩
/-- `CAL_DWRR_Q0.Q0`. -/
def CAL_DWRR_Q0_Q0 (s : Nat) : Fld := ⟨CAL_DWRR_Q0_at s, 0, 8⟩
/-- The BAR0 offset of `CAL_DWRR_Q1` (05_egress_scheduling.md, R141). -/
def CAL_DWRR_Q1_at (s : Nat) : Nat := 0x20000000 + 0x8000 * s + 0x400C
/-- `CAL_DWRR_Q1.Q7`. -/
def CAL_DWRR_Q1_Q7 (s : Nat) : Fld := ⟨CAL_DWRR_Q1_at s, 24, 8⟩
/-- `CAL_DWRR_Q1.Q6`. -/
def CAL_DWRR_Q1_Q6 (s : Nat) : Fld := ⟨CAL_DWRR_Q1_at s, 16, 8⟩
/-- `CAL_DWRR_Q1.Q5`. -/
def CAL_DWRR_Q1_Q5 (s : Nat) : Fld := ⟨CAL_DWRR_Q1_at s, 8, 8⟩
/-- `CAL_DWRR_Q1.Q4`. -/
def CAL_DWRR_Q1_Q4 (s : Nat) : Fld := ⟨CAL_DWRR_Q1_at s, 0, 8⟩
/-- The BAR0 offset of `CAL_PSH_RATE` (05_egress_scheduling.md, R140). -/
def CAL_PSH_RATE_at (s : Nat) : Nat := 0x20000000 + 0x8000 * s + 0x4010
/-- `CAL_PSH_RATE.EN`. -/
def CAL_PSH_RATE_EN (s : Nat) : Fld := ⟨CAL_PSH_RATE_at s, 31, 1⟩
/-- `CAL_PSH_RATE.RATE`. -/
def CAL_PSH_RATE_RATE (s : Nat) : Fld := ⟨CAL_PSH_RATE_at s, 0, 24⟩
/-- The BAR0 offset of `CAL_PSH_BURST` (05_egress_scheduling.md, R140). -/
def CAL_PSH_BURST_at (s : Nat) : Nat := 0x20000000 + 0x8000 * s + 0x4014
/-- `CAL_PSH_BURST.BURST`. -/
def CAL_PSH_BURST_BURST (s : Nat) : Fld := ⟨CAL_PSH_BURST_at s, 0, 24⟩
/-- The BAR0 offset of `CAL_VSH_RATE` (05_egress_scheduling.md, R140). -/
def CAL_VSH_RATE_at (s i : Nat) : Nat := 0x20000000 + 0x8000 * s + 0x4020 + 8 * i
/-- `CAL_VSH_RATE.EN`. -/
def CAL_VSH_RATE_EN (s i : Nat) : Fld := ⟨CAL_VSH_RATE_at s i, 31, 1⟩
/-- `CAL_VSH_RATE.RATE`. -/
def CAL_VSH_RATE_RATE (s i : Nat) : Fld := ⟨CAL_VSH_RATE_at s i, 0, 24⟩
/-- The BAR0 offset of `CAL_VSH_BURST` (05_egress_scheduling.md, R140). -/
def CAL_VSH_BURST_at (s i : Nat) : Nat := 0x20000000 + 0x8000 * s + 0x4024 + 8 * i
/-- `CAL_VSH_BURST.BURST`. -/
def CAL_VSH_BURST_BURST (s i : Nat) : Fld := ⟨CAL_VSH_BURST_at s i, 0, 24⟩
/-- The BAR0 offset of `CAL_GL_BASE_LO` (05_egress_scheduling.md, R140). -/
def CAL_GL_BASE_LO_at (s i : Nat) : Nat := 0x20000000 + 0x8000 * s + 0x4060 + 16 * i
/-- `CAL_GL_BASE_LO.BASE`. -/
def CAL_GL_BASE_LO_BASE (s i : Nat) : Fld := ⟨CAL_GL_BASE_LO_at s i, 0, 32⟩
/-- The BAR0 offset of `CAL_GL_BASE_HI` (05_egress_scheduling.md, R140). -/
def CAL_GL_BASE_HI_at (s i : Nat) : Nat := 0x20000000 + 0x8000 * s + 0x4064 + 16 * i
/-- `CAL_GL_BASE_HI.BASE`. -/
def CAL_GL_BASE_HI_BASE (s i : Nat) : Fld := ⟨CAL_GL_BASE_HI_at s i, 0, 32⟩
/-- The BAR0 offset of `CAL_GL_LEN` (05_egress_scheduling.md, R140). -/
def CAL_GL_LEN_at (s i : Nat) : Nat := 0x20000000 + 0x8000 * s + 0x4068 + 16 * i
/-- `CAL_GL_LEN.LEN`. -/
def CAL_GL_LEN_LEN (s i : Nat) : Fld := ⟨CAL_GL_LEN_at s i, 0, 11⟩
/-- The BAR0 offset of `CAL_GL_SWITCH_LO` (05_egress_scheduling.md, R140). -/
def CAL_GL_SWITCH_LO_at (s : Nat) : Nat := 0x20000000 + 0x8000 * s + 0x4080
/-- `CAL_GL_SWITCH_LO.T`. -/
def CAL_GL_SWITCH_LO_T (s : Nat) : Fld := ⟨CAL_GL_SWITCH_LO_at s, 0, 32⟩
/-- The BAR0 offset of `CAL_GL_SWITCH_HI` (05_egress_scheduling.md, R140). -/
def CAL_GL_SWITCH_HI_at (s : Nat) : Nat := 0x20000000 + 0x8000 * s + 0x4084
/-- `CAL_GL_SWITCH_HI.T`. -/
def CAL_GL_SWITCH_HI_T (s : Nat) : Fld := ⟨CAL_GL_SWITCH_HI_at s, 0, 32⟩
/-- The BAR0 offset of `CAL_GL_CMD` (05_egress_scheduling.md, R142). -/
def CAL_GL_CMD_at (s : Nat) : Nat := 0x20000000 + 0x8000 * s + 0x4088
/-- `CAL_GL_CMD.STOP`. -/
def CAL_GL_CMD_STOP (s : Nat) : Fld := ⟨CAL_GL_CMD_at s, 2, 1⟩
/-- `CAL_GL_CMD.CANCEL`. -/
def CAL_GL_CMD_CANCEL (s : Nat) : Fld := ⟨CAL_GL_CMD_at s, 1, 1⟩
/-- `CAL_GL_CMD.COMMIT`. -/
def CAL_GL_CMD_COMMIT (s : Nat) : Fld := ⟨CAL_GL_CMD_at s, 0, 1⟩
/-- The BAR0 offset of `CAL_GL_STATUS` (05_egress_scheduling.md, R142). -/
def CAL_GL_STATUS_at (s : Nat) : Nat := 0x20000000 + 0x8000 * s + 0x408C
/-- `CAL_GL_STATUS.REASON`. -/
def CAL_GL_STATUS_REASON (s : Nat) : Fld := ⟨CAL_GL_STATUS_at s, 24, 8⟩
/-- `CAL_GL_STATUS.BYPASS_ACTIVE`. -/
def CAL_GL_STATUS_BYPASS_ACTIVE (s : Nat) : Fld := ⟨CAL_GL_STATUS_at s, 5, 1⟩
/-- `CAL_GL_STATUS.DISCONT`. -/
def CAL_GL_STATUS_DISCONT (s : Nat) : Fld := ⟨CAL_GL_STATUS_at s, 4, 1⟩
/-- `CAL_GL_STATUS.REJECTED`. -/
def CAL_GL_STATUS_REJECTED (s : Nat) : Fld := ⟨CAL_GL_STATUS_at s, 3, 1⟩
/-- `CAL_GL_STATUS.PENDING`. -/
def CAL_GL_STATUS_PENDING (s : Nat) : Fld := ⟨CAL_GL_STATUS_at s, 2, 1⟩
/-- `CAL_GL_STATUS.RUNNING`. -/
def CAL_GL_STATUS_RUNNING (s : Nat) : Fld := ⟨CAL_GL_STATUS_at s, 1, 1⟩
/-- `CAL_GL_STATUS.ACTIVE_BANK`. -/
def CAL_GL_STATUS_ACTIVE_BANK (s : Nat) : Fld := ⟨CAL_GL_STATUS_at s, 0, 1⟩
/-- The BAR0 offset of `CAL_GL_CYCLE_LO` (05_egress_scheduling.md, R140). -/
def CAL_GL_CYCLE_LO_at (s : Nat) : Nat := 0x20000000 + 0x8000 * s + 0x4090
/-- `CAL_GL_CYCLE_LO.CYCLE`. -/
def CAL_GL_CYCLE_LO_CYCLE (s : Nat) : Fld := ⟨CAL_GL_CYCLE_LO_at s, 0, 32⟩
/-- The BAR0 offset of `CAL_GL_CYCLE_HI` (05_egress_scheduling.md, R140). -/
def CAL_GL_CYCLE_HI_at (s : Nat) : Nat := 0x20000000 + 0x8000 * s + 0x4094
/-- `CAL_GL_CYCLE_HI.CYCLE`. -/
def CAL_GL_CYCLE_HI_CYCLE (s : Nat) : Fld := ⟨CAL_GL_CYCLE_HI_at s, 0, 32⟩
/-- The BAR0 offset of `CAL_SCHED_STATUS` (07_determinism_audit.md, R216). -/
def CAL_SCHED_STATUS_at (s : Nat) : Nat := 0x20000000 + 0x8000 * s + 0x4098
/-- `CAL_SCHED_STATUS.IN_ENV`. -/
def CAL_SCHED_STATUS_IN_ENV (s : Nat) : Fld := ⟨CAL_SCHED_STATUS_at s, 6, 1⟩
/-- `CAL_SCHED_STATUS.LATE`. -/
def CAL_SCHED_STATUS_LATE (s : Nat) : Fld := ⟨CAL_SCHED_STATUS_at s, 5, 1⟩
/-- `CAL_SCHED_STATUS.CONGEST`. -/
def CAL_SCHED_STATUS_CONGEST (s : Nat) : Fld := ⟨CAL_SCHED_STATUS_at s, 4, 1⟩
/-- `CAL_SCHED_STATUS.CREDIT`. -/
def CAL_SCHED_STATUS_CREDIT (s : Nat) : Fld := ⟨CAL_SCHED_STATUS_at s, 3, 1⟩
/-- `CAL_SCHED_STATUS.LINK`. -/
def CAL_SCHED_STATUS_LINK (s : Nat) : Fld := ⟨CAL_SCHED_STATUS_at s, 2, 1⟩
/-- `CAL_SCHED_STATUS.TIME`. -/
def CAL_SCHED_STATUS_TIME (s : Nat) : Fld := ⟨CAL_SCHED_STATUS_at s, 1, 1⟩
/-- `CAL_SCHED_STATUS.ENV`. -/
def CAL_SCHED_STATUS_ENV (s : Nat) : Fld := ⟨CAL_SCHED_STATUS_at s, 0, 1⟩
/-- The BAR0 offset of `CAL_MARK_CFG` (13_counters.md, R405). -/
def CAL_MARK_CFG_at (s : Nat) : Nat := 0x20000000 + 0x8000 * s + 0x40A0
/-- `CAL_MARK_CFG.VCMASK`. -/
def CAL_MARK_CFG_VCMASK (s : Nat) : Fld := ⟨CAL_MARK_CFG_at s, 24, 8⟩
/-- `CAL_MARK_CFG.MARK_CELLS`. -/
def CAL_MARK_CFG_MARK_CELLS (s : Nat) : Fld := ⟨CAL_MARK_CFG_at s, 0, 19⟩
/-- The BAR0 offset of `MDW_LINK_STATUS` (16_registers.md, R463). -/
def MDW_LINK_STATUS_at (i : Nat) : Nat := 0x60100 + 4 * i
/-- `MDW_LINK_STATUS.UNFIT`. -/
def MDW_LINK_STATUS_UNFIT (i : Nat) : Fld := ⟨MDW_LINK_STATUS_at i, 10, 1⟩
/-- `MDW_LINK_STATUS.DEGRADED`. -/
def MDW_LINK_STATUS_DEGRADED (i : Nat) : Fld := ⟨MDW_LINK_STATUS_at i, 9, 1⟩
/-- `MDW_LINK_STATUS.MODULES`. -/
def MDW_LINK_STATUS_MODULES (i : Nat) : Fld := ⟨MDW_LINK_STATUS_at i, 0, 6⟩
/-- The BAR0 offset of `MDW_WSEL` (16_registers.md, R463). -/
def MDW_WSEL_at : Nat := 0x60140
/-- `MDW_WSEL.SLOT`. -/
def MDW_WSEL_SLOT : Fld := ⟨MDW_WSEL_at, 3, 11⟩
/-- `MDW_WSEL.VC`. -/
def MDW_WSEL_VC : Fld := ⟨MDW_WSEL_at, 0, 3⟩
/-- The BAR0 offset of `MDW_WEIGHT` (16_registers.md, R463). -/
def MDW_WEIGHT_at (i : Nat) : Nat := 0x60150 + 4 * i
/-- `MDW_WEIGHT.B`. -/
def MDW_WEIGHT_B (i : Nat) : Fld := ⟨MDW_WEIGHT_at i, 0, 13⟩
/-- The BAR0 offset of `CAR_TBL_CMD` (06_collectives.md, R185). -/
def CAR_TBL_CMD_at : Nat := 0x70100
/-- `CAR_TBL_CMD.TABLE`. -/
def CAR_TBL_CMD_TABLE : Fld := ⟨CAR_TBL_CMD_at, 26, 2⟩
/-- `CAR_TBL_CMD.READ`. -/
def CAR_TBL_CMD_READ : Fld := ⟨CAR_TBL_CMD_at, 25, 1⟩
/-- `CAR_TBL_CMD.INDEX`. -/
def CAR_TBL_CMD_INDEX : Fld := ⟨CAR_TBL_CMD_at, 0, 16⟩
/-- The BAR0 offset of `CAR_TBL_STATUS` (06_collectives.md, R185). -/
def CAR_TBL_STATUS_at : Nat := 0x70104
/-- `CAR_TBL_STATUS.REJECTED`. -/
def CAR_TBL_STATUS_REJECTED : Fld := ⟨CAR_TBL_STATUS_at, 1, 1⟩
/-- `CAR_TBL_STATUS.BUSY`. -/
def CAR_TBL_STATUS_BUSY : Fld := ⟨CAR_TBL_STATUS_at, 0, 1⟩
/-- The BAR0 offset of `CAR_STREAM_CMD` (06_collectives.md, R185). -/
def CAR_STREAM_CMD_at : Nat := 0x70110
/-- `CAR_STREAM_CMD.CMD`. -/
def CAR_STREAM_CMD_CMD : Fld := ⟨CAR_STREAM_CMD_at, 28, 4⟩
/-- `CAR_STREAM_CMD.STREAM`. -/
def CAR_STREAM_CMD_STREAM : Fld := ⟨CAR_STREAM_CMD_at, 16, 12⟩
/-- `CAR_STREAM_CMD.ARG`. -/
def CAR_STREAM_CMD_ARG : Fld := ⟨CAR_STREAM_CMD_at, 0, 16⟩
/-- The BAR0 offset of `CAR_STREAM_STATUS` (06_collectives.md, R185). -/
def CAR_STREAM_STATUS_at : Nat := 0x70114
/-- `CAR_STREAM_STATUS.REASON`. -/
def CAR_STREAM_STATUS_REASON : Fld := ⟨CAR_STREAM_STATUS_at, 24, 8⟩
/-- `CAR_STREAM_STATUS.REFUSED`. -/
def CAR_STREAM_STATUS_REFUSED : Fld := ⟨CAR_STREAM_STATUS_at, 1, 1⟩
/-- `CAR_STREAM_STATUS.BUSY`. -/
def CAR_STREAM_STATUS_BUSY : Fld := ⟨CAR_STREAM_STATUS_at, 0, 1⟩
/-- The BAR0 offset of `CAR_STALL_TK` (06_collectives.md, R185). -/
def CAR_STALL_TK_at : Nat := 0x70120
/-- `CAR_STALL_TK.LIMIT`. -/
def CAR_STALL_TK_LIMIT : Fld := ⟨CAR_STALL_TK_at, 0, 24⟩
/-- The BAR0 offset of `CAR_STALL_INFO0` (06_collectives.md, R185). -/
def CAR_STALL_INFO0_at : Nat := 0x70124
/-- `CAR_STALL_INFO0.CEPOCH`. -/
def CAR_STALL_INFO0_CEPOCH : Fld := ⟨CAR_STALL_INFO0_at, 16, 16⟩
/-- `CAR_STALL_INFO0.STREAM`. -/
def CAR_STALL_INFO0_STREAM : Fld := ⟨CAR_STALL_INFO0_at, 0, 12⟩
/-- The BAR0 offset of `CAR_STALL_INFO1` (06_collectives.md, R185). -/
def CAR_STALL_INFO1_at : Nat := 0x70128
/-- `CAR_STALL_INFO1.CHUNK`. -/
def CAR_STALL_INFO1_CHUNK : Fld := ⟨CAR_STALL_INFO1_at, 0, 32⟩
/-- The BAR0 offset of `CAR_STALL_INFO2` (06_collectives.md, R185). -/
def CAR_STALL_INFO2_at : Nat := 0x7012C
/-- `CAR_STALL_INFO2.MISSING`. -/
def CAR_STALL_INFO2_MISSING : Fld := ⟨CAR_STALL_INFO2_at, 0, 13⟩
/-- The BAR0 offset of `CAR_TWIN_CTRL` (12_faults.md, R382). -/
def CAR_TWIN_CTRL_at : Nat := 0x70130
/-- `CAR_TWIN_CTRL.EN`. -/
def CAR_TWIN_CTRL_EN : Fld := ⟨CAR_TWIN_CTRL_at, 31, 1⟩
/-- `CAR_TWIN_CTRL.K`. -/
def CAR_TWIN_CTRL_K : Fld := ⟨CAR_TWIN_CTRL_at, 0, 5⟩
/-- The BAR0 offset of `CAR_TWIN_STATUS` (12_faults.md, R382). -/
def CAR_TWIN_STATUS_at : Nat := 0x70134
/-- `CAR_TWIN_STATUS.THREEWAY`. -/
def CAR_TWIN_STATUS_THREEWAY : Fld := ⟨CAR_TWIN_STATUS_at, 1, 1⟩
/-- `CAR_TWIN_STATUS.MISMATCH`. -/
def CAR_TWIN_STATUS_MISMATCH : Fld := ⟨CAR_TWIN_STATUS_at, 0, 1⟩
/-- The BAR0 offset of `CAR_DRAIN_SEL` (12_faults.md, R382). -/
def CAR_DRAIN_SEL_at : Nat := 0x70138
/-- `CAR_DRAIN_SEL.STREAM`. -/
def CAR_DRAIN_SEL_STREAM : Fld := ⟨CAR_DRAIN_SEL_at, 0, 12⟩
/-- The BAR0 offset of `CAR_DRAIN_STATUS` (12_faults.md, R382). -/
def CAR_DRAIN_STATUS_at : Nat := 0x7013C
/-- `CAR_DRAIN_STATUS.DONE`. -/
def CAR_DRAIN_STATUS_DONE : Fld := ⟨CAR_DRAIN_STATUS_at, 0, 1⟩
/-- The BAR0 offset of `CAR_TWIN_EN` (12_faults.md, R382). -/
def CAR_TWIN_EN_at (i : Nat) : Nat := 0x70400 + 4 * i
/-- `CAR_TWIN_EN.EN`. -/
def CAR_TWIN_EN_EN (i : Nat) : Fld := ⟨CAR_TWIN_EN_at i, 0, 32⟩
/-- The BAR0 offset of `CAR_WATCH` (12_faults.md, R382). -/
def CAR_WATCH_at (i : Nat) : Nat := 0x70600 + 4 * i
/-- `CAR_WATCH.WATCH`. -/
def CAR_WATCH_WATCH (i : Nat) : Fld := ⟨CAR_WATCH_at i, 0, 32⟩
/-- The BAR0 offset of `CAR_WIN` (06_collectives.md, R185). -/
def CAR_WIN_at (i : Nat) : Nat := 0x78000 + 4 * i
/-- `CAR_WIN.W`. -/
def CAR_WIN_W (i : Nat) : Fld := ⟨CAR_WIN_at i, 0, 32⟩
/-- The BAR0 offset of `TMB_KLOAD_CMD` (08_tumblers.md, R255). -/
def TMB_KLOAD_CMD_at : Nat := 0x80100
/-- `TMB_KLOAD_CMD.CMD`. -/
def TMB_KLOAD_CMD_CMD : Fld := ⟨TMB_KLOAD_CMD_at, 28, 4⟩
/-- `TMB_KLOAD_CMD.PIECE`. -/
def TMB_KLOAD_CMD_PIECE : Fld := ⟨TMB_KLOAD_CMD_at, 26, 2⟩
/-- `TMB_KLOAD_CMD.SLOT`. -/
def TMB_KLOAD_CMD_SLOT : Fld := ⟨TMB_KLOAD_CMD_at, 0, 8⟩
/-- The BAR0 offset of `TMB_KLOAD_LEN` (08_tumblers.md, R255). -/
def TMB_KLOAD_LEN_at : Nat := 0x80104
/-- `TMB_KLOAD_LEN.LENGTH`. -/
def TMB_KLOAD_LEN_LENGTH : Fld := ⟨TMB_KLOAD_LEN_at, 0, 17⟩
/-- The BAR0 offset of `TMB_KLOAD_STATUS` (08_tumblers.md, R255). -/
def TMB_KLOAD_STATUS_at : Nat := 0x80108
/-- `TMB_KLOAD_STATUS.REASON`. -/
def TMB_KLOAD_STATUS_REASON : Fld := ⟨TMB_KLOAD_STATUS_at, 24, 8⟩
/-- `TMB_KLOAD_STATUS.STAGED`. -/
def TMB_KLOAD_STATUS_STAGED : Fld := ⟨TMB_KLOAD_STATUS_at, 4, 3⟩
/-- `TMB_KLOAD_STATUS.REJECTED`. -/
def TMB_KLOAD_STATUS_REJECTED : Fld := ⟨TMB_KLOAD_STATUS_at, 2, 1⟩
/-- `TMB_KLOAD_STATUS.ACCEPTED`. -/
def TMB_KLOAD_STATUS_ACCEPTED : Fld := ⟨TMB_KLOAD_STATUS_at, 1, 1⟩
/-- `TMB_KLOAD_STATUS.BUSY`. -/
def TMB_KLOAD_STATUS_BUSY : Fld := ⟨TMB_KLOAD_STATUS_at, 0, 1⟩
/-- The BAR0 offset of `TMB_KINFO` (08_tumblers.md, R255). -/
def TMB_KINFO_at : Nat := 0x80110
/-- `TMB_KINFO.VALID`. -/
def TMB_KINFO_VALID : Fld := ⟨TMB_KINFO_at, 31, 1⟩
/-- `TMB_KINFO.KIND`. -/
def TMB_KINFO_KIND : Fld := ⟨TMB_KINFO_at, 30, 1⟩
/-- `TMB_KINFO.FMT`. -/
def TMB_KINFO_FMT : Fld := ⟨TMB_KINFO_at, 26, 4⟩
/-- The BAR0 offset of `TMB_KWC` (08_tumblers.md, R255). -/
def TMB_KWC_at (i : Nat) : Nat := 0x80114 + 4 * i
/-- `TMB_KWC.W`. -/
def TMB_KWC_W (i : Nat) : Fld := ⟨TMB_KWC_at i, 0, 32⟩
/-- The BAR0 offset of `TMB_KDIGEST` (08_tumblers.md, R255). -/
def TMB_KDIGEST_at (i : Nat) : Nat := 0x80140 + 4 * i
/-- `TMB_KDIGEST.DIGEST`. -/
def TMB_KDIGEST_DIGEST (i : Nat) : Fld := ⟨TMB_KDIGEST_at i, 0, 32⟩
/-- The BAR0 offset of `TMB_FAULT_INFO0` (08_tumblers.md, R255). -/
def TMB_FAULT_INFO0_at : Nat := 0x80180
/-- `TMB_FAULT_INFO0.CEPOCH`. -/
def TMB_FAULT_INFO0_CEPOCH : Fld := ⟨TMB_FAULT_INFO0_at, 16, 16⟩
/-- `TMB_FAULT_INFO0.CAUSE`. -/
def TMB_FAULT_INFO0_CAUSE : Fld := ⟨TMB_FAULT_INFO0_at, 12, 4⟩
/-- `TMB_FAULT_INFO0.STREAM`. -/
def TMB_FAULT_INFO0_STREAM : Fld := ⟨TMB_FAULT_INFO0_at, 0, 12⟩
/-- The BAR0 offset of `TMB_FAULT_INFO1` (08_tumblers.md, R255). -/
def TMB_FAULT_INFO1_at : Nat := 0x80184
/-- `TMB_FAULT_INFO1.CHUNK`. -/
def TMB_FAULT_INFO1_CHUNK : Fld := ⟨TMB_FAULT_INFO1_at, 0, 32⟩
/-- The BAR0 offset of `TMB_FAULT_INFO2` (08_tumblers.md, R255). -/
def TMB_FAULT_INFO2_at : Nat := 0x80188
/-- `TMB_FAULT_INFO2.SLIVER`. -/
def TMB_FAULT_INFO2_SLIVER : Fld := ⟨TMB_FAULT_INFO2_at, 20, 12⟩
/-- `TMB_FAULT_INFO2.VALID`. -/
def TMB_FAULT_INFO2_VALID : Fld := ⟨TMB_FAULT_INFO2_at, 19, 1⟩
/-- `TMB_FAULT_INFO2.PC`. -/
def TMB_FAULT_INFO2_PC : Fld := ⟨TMB_FAULT_INFO2_at, 0, 14⟩
/-- The BAR0 offset of `TMB_FAULT_INFO3` (08_tumblers.md, R255). -/
def TMB_FAULT_INFO3_at : Nat := 0x8018C
/-- `TMB_FAULT_INFO3.FCODE`. -/
def TMB_FAULT_INFO3_FCODE : Fld := ⟨TMB_FAULT_INFO3_at, 16, 16⟩
/-- The BAR0 offset of `TMB_WIN` (08_tumblers.md, R255). -/
def TMB_WIN_at (i : Nat) : Nat := 0x88000 + 4 * i
/-- `TMB_WIN.W`. -/
def TMB_WIN_W (i : Nat) : Fld := ⟨TMB_WIN_at i, 0, 32⟩
/-- The BAR0 offset of `TMB_SUBST_CMD` (08_tumblers.md, R256). -/
def TMB_SUBST_CMD_at (t : Nat) : Nat := 0x1000000 * (t + 1) + 0x80100
/-- `TMB_SUBST_CMD.GO`. -/
def TMB_SUBST_CMD_GO (t : Nat) : Fld := ⟨TMB_SUBST_CMD_at t, 31, 1⟩
/-- `TMB_SUBST_CMD.LSLIVER`. -/
def TMB_SUBST_CMD_LSLIVER (t : Nat) : Fld := ⟨TMB_SUBST_CMD_at t, 0, 9⟩
/-- The BAR0 offset of `TMB_SUBST_STATUS` (08_tumblers.md, R256). -/
def TMB_SUBST_STATUS_at (t : Nat) : Nat := 0x1000000 * (t + 1) + 0x80104
/-- `TMB_SUBST_STATUS.REASON`. -/
def TMB_SUBST_STATUS_REASON (t : Nat) : Fld := ⟨TMB_SUBST_STATUS_at t, 24, 8⟩
/-- `TMB_SUBST_STATUS.REFUSED`. -/
def TMB_SUBST_STATUS_REFUSED (t : Nat) : Fld := ⟨TMB_SUBST_STATUS_at t, 7, 1⟩
/-- `TMB_SUBST_STATUS.PENDING`. -/
def TMB_SUBST_STATUS_PENDING (t : Nat) : Fld := ⟨TMB_SUBST_STATUS_at t, 6, 1⟩
/-- `TMB_SUBST_STATUS.SPARES_FREE`. -/
def TMB_SUBST_STATUS_SPARES_FREE (t : Nat) : Fld := ⟨TMB_SUBST_STATUS_at t, 0, 6⟩
/-- The BAR0 offset of `TMB_SLIVER_MAP` (08_tumblers.md, R256). -/
def TMB_SLIVER_MAP_at (t i : Nat) : Nat := 0x1000000 * (t + 1) + 0x88000 + 4 * i
/-- `TMB_SLIVER_MAP.QUAR`. -/
def TMB_SLIVER_MAP_QUAR (t i : Nat) : Fld := ⟨TMB_SLIVER_MAP_at t i, 31, 1⟩
/-- `TMB_SLIVER_MAP.SUBST`. -/
def TMB_SLIVER_MAP_SUBST (t i : Nat) : Fld := ⟨TMB_SLIVER_MAP_at t i, 30, 1⟩
/-- `TMB_SLIVER_MAP.ARRAY`. -/
def TMB_SLIVER_MAP_ARRAY (t i : Nat) : Fld := ⟨TMB_SLIVER_MAP_at t i, 5, 5⟩
/-- `TMB_SLIVER_MAP.POS`. -/
def TMB_SLIVER_MAP_POS (t i : Nat) : Fld := ⟨TMB_SLIVER_MAP_at t i, 0, 5⟩
/-- The BAR0 offset of `TGT_SERVO_CTRL` (09_network_time.md, R288). -/
def TGT_SERVO_CTRL_at : Nat := 0x90100
/-- `TGT_SERVO_CTRL.CMD`. -/
def TGT_SERVO_CTRL_CMD : Fld := ⟨TGT_SERVO_CTRL_at, 28, 4⟩
/-- `TGT_SERVO_CTRL.ROOT`. -/
def TGT_SERVO_CTRL_ROOT : Fld := ⟨TGT_SERVO_CTRL_at, 15, 1⟩
/-- `TGT_SERVO_CTRL.PARENT`. -/
def TGT_SERVO_CTRL_PARENT : Fld := ⟨TGT_SERVO_CTRL_at, 0, 11⟩
/-- The BAR0 offset of `TGT_SERVO_STATUS` (09_network_time.md, R288). -/
def TGT_SERVO_STATUS_at : Nat := 0x90104
/-- `TGT_SERVO_STATUS.DISCONT`. -/
def TGT_SERVO_STATUS_DISCONT : Fld := ⟨TGT_SERVO_STATUS_at, 7, 1⟩
/-- `TGT_SERVO_STATUS.REFUSED`. -/
def TGT_SERVO_STATUS_REFUSED : Fld := ⟨TGT_SERVO_STATUS_at, 6, 1⟩
/-- `TGT_SERVO_STATUS.RATE_CLAMP`. -/
def TGT_SERVO_STATUS_RATE_CLAMP : Fld := ⟨TGT_SERVO_STATUS_at, 5, 1⟩
/-- `TGT_SERVO_STATUS.STATE`. -/
def TGT_SERVO_STATUS_STATE : Fld := ⟨TGT_SERVO_STATUS_at, 0, 3⟩
/-- The BAR0 offset of `TGT_SERVO_GAIN` (09_network_time.md, R288). -/
def TGT_SERVO_GAIN_at : Nat := 0x90108
/-- `TGT_SERVO_GAIN.LOG_INT`. -/
def TGT_SERVO_GAIN_LOG_INT : Fld := ⟨TGT_SERVO_GAIN_at, 27, 5⟩
/-- `TGT_SERVO_GAIN.KP`. -/
def TGT_SERVO_GAIN_KP : Fld := ⟨TGT_SERVO_GAIN_at, 23, 4⟩
/-- `TGT_SERVO_GAIN.KI`. -/
def TGT_SERVO_GAIN_KI : Fld := ⟨TGT_SERVO_GAIN_at, 18, 5⟩
/-- `TGT_SERVO_GAIN.OOB`. -/
def TGT_SERVO_GAIN_OOB : Fld := ⟨TGT_SERVO_GAIN_at, 0, 16⟩
/-- The BAR0 offset of `TGT_NOW_LO` (09_network_time.md, R287). -/
def TGT_NOW_LO_at : Nat := 0x90110
/-- `TGT_NOW_LO.F`. -/
def TGT_NOW_LO_F : Fld := ⟨TGT_NOW_LO_at, 0, 32⟩
/-- The BAR0 offset of `TGT_NOW_HI` (09_network_time.md, R287). -/
def TGT_NOW_HI_at : Nat := 0x90114
/-- `TGT_NOW_HI.F`. -/
def TGT_NOW_HI_F : Fld := ⟨TGT_NOW_HI_at, 0, 32⟩
/-- The BAR0 offset of `TGT_NOW_FRAC` (09_network_time.md, R287). -/
def TGT_NOW_FRAC_at : Nat := 0x90118
/-- `TGT_NOW_FRAC.FRAC`. -/
def TGT_NOW_FRAC_FRAC : Fld := ⟨TGT_NOW_FRAC_at, 0, 16⟩
/-- The BAR0 offset of `TGT_RATE_LO` (09_network_time.md, R287). -/
def TGT_RATE_LO_at : Nat := 0x90120
/-- `TGT_RATE_LO.RATE`. -/
def TGT_RATE_LO_RATE : Fld := ⟨TGT_RATE_LO_at, 0, 32⟩
/-- The BAR0 offset of `TGT_RATE_HI` (09_network_time.md, R287). -/
def TGT_RATE_HI_at : Nat := 0x90124
/-- `TGT_RATE_HI.RATE`. -/
def TGT_RATE_HI_RATE : Fld := ⟨TGT_RATE_HI_at, 0, 8⟩
/-- The BAR0 offset of `TGT_OFFSET_LO` (09_network_time.md, R287). -/
def TGT_OFFSET_LO_at : Nat := 0x90128
/-- `TGT_OFFSET_LO.OFF`. -/
def TGT_OFFSET_LO_OFF : Fld := ⟨TGT_OFFSET_LO_at, 0, 32⟩
/-- The BAR0 offset of `TGT_OFFSET_HI` (09_network_time.md, R287). -/
def TGT_OFFSET_HI_at : Nat := 0x9012C
/-- `TGT_OFFSET_HI.OFF`. -/
def TGT_OFFSET_HI_OFF : Fld := ⟨TGT_OFFSET_HI_at, 0, 32⟩
/-- The BAR0 offset of `TGT_OFFSET_FRAC` (09_network_time.md, R287). -/
def TGT_OFFSET_FRAC_at : Nat := 0x90130
/-- `TGT_OFFSET_FRAC.FRAC`. -/
def TGT_OFFSET_FRAC_FRAC : Fld := ⟨TGT_OFFSET_FRAC_at, 0, 16⟩
/-- The BAR0 offset of `TGT_SET_LO` (09_network_time.md, R287). -/
def TGT_SET_LO_at : Nat := 0x90138
/-- `TGT_SET_LO.SET`. -/
def TGT_SET_LO_SET : Fld := ⟨TGT_SET_LO_at, 0, 32⟩
/-- The BAR0 offset of `TGT_SET_HI` (09_network_time.md, R287). -/
def TGT_SET_HI_at : Nat := 0x9013C
/-- `TGT_SET_HI.SET`. -/
def TGT_SET_HI_SET : Fld := ⟨TGT_SET_HI_at, 0, 32⟩
/-- The BAR0 offset of `TGT_REPLICA_ERR` (09_network_time.md, R287). -/
def TGT_REPLICA_ERR_at : Nat := 0x90140
/-- `TGT_REPLICA_ERR.ERR`. -/
def TGT_REPLICA_ERR_ERR : Fld := ⟨TGT_REPLICA_ERR_at, 0, 8⟩
/-- The BAR0 offset of `TGT_PTP_CTRL` (09_network_time.md, R288). -/
def TGT_PTP_CTRL_at : Nat := 0x90150
/-- `TGT_PTP_CTRL.DOMAIN`. -/
def TGT_PTP_CTRL_DOMAIN : Fld := ⟨TGT_PTP_CTRL_at, 24, 8⟩
/-- `TGT_PTP_CTRL.RELAY_DOMAIN`. -/
def TGT_PTP_CTRL_RELAY_DOMAIN : Fld := ⟨TGT_PTP_CTRL_at, 16, 8⟩
/-- `TGT_PTP_CTRL.ETH_EN`. -/
def TGT_PTP_CTRL_ETH_EN : Fld := ⟨TGT_PTP_CTRL_at, 1, 1⟩
/-- `TGT_PTP_CTRL.RELAY_EN`. -/
def TGT_PTP_CTRL_RELAY_EN : Fld := ⟨TGT_PTP_CTRL_at, 0, 1⟩
/-- The BAR0 offset of `TGT_PIN_CFG` (09_network_time.md, R281). -/
def TGT_PIN_CFG_at (i : Nat) : Nat := 0x90200 + 4 * i
/-- `TGT_PIN_CFG.OWNER`. -/
def TGT_PIN_CFG_OWNER (i : Nat) : Fld := ⟨TGT_PIN_CFG_at i, 30, 2⟩
/-- `TGT_PIN_CFG.MODE`. -/
def TGT_PIN_CFG_MODE (i : Nat) : Fld := ⟨TGT_PIN_CFG_at i, 2, 2⟩
/-- `TGT_PIN_CFG.POL`. -/
def TGT_PIN_CFG_POL (i : Nat) : Fld := ⟨TGT_PIN_CFG_at i, 1, 1⟩
/-- The BAR0 offset of `TGT_PIN_CAP_LO` (09_network_time.md, R281). -/
def TGT_PIN_CAP_LO_at (i : Nat) : Nat := 0x90240 + 16 * i
/-- `TGT_PIN_CAP_LO.T`. -/
def TGT_PIN_CAP_LO_T (i : Nat) : Fld := ⟨TGT_PIN_CAP_LO_at i, 0, 32⟩
/-- The BAR0 offset of `TGT_PIN_CAP_HI` (09_network_time.md, R281). -/
def TGT_PIN_CAP_HI_at (i : Nat) : Nat := 0x90244 + 16 * i
/-- `TGT_PIN_CAP_HI.T`. -/
def TGT_PIN_CAP_HI_T (i : Nat) : Fld := ⟨TGT_PIN_CAP_HI_at i, 0, 32⟩
/-- The BAR0 offset of `TGT_PIN_CAP_SUB` (09_network_time.md, R281). -/
def TGT_PIN_CAP_SUB_at (i : Nat) : Nat := 0x90248 + 16 * i
/-- `TGT_PIN_CAP_SUB.OVW`. -/
def TGT_PIN_CAP_SUB_OVW (i : Nat) : Fld := ⟨TGT_PIN_CAP_SUB_at i, 31, 1⟩
/-- `TGT_PIN_CAP_SUB.SUB`. -/
def TGT_PIN_CAP_SUB_SUB (i : Nat) : Fld := ⟨TGT_PIN_CAP_SUB_at i, 0, 5⟩
/-- The BAR0 offset of `TGT_TRIG_CTRL` (09_network_time.md, R277). -/
def TGT_TRIG_CTRL_at (i : Nat) : Nat := 0x98000 + 32 * i
/-- `TGT_TRIG_CTRL.OWNER`. -/
def TGT_TRIG_CTRL_OWNER (i : Nat) : Fld := ⟨TGT_TRIG_CTRL_at i, 30, 2⟩
/-- `TGT_TRIG_CTRL.ARM`. -/
def TGT_TRIG_CTRL_ARM (i : Nat) : Fld := ⟨TGT_TRIG_CTRL_at i, 29, 1⟩
/-- `TGT_TRIG_CTRL.ACTION`. -/
def TGT_TRIG_CTRL_ACTION (i : Nat) : Fld := ⟨TGT_TRIG_CTRL_at i, 24, 4⟩
/-- `TGT_TRIG_CTRL.PIN`. -/
def TGT_TRIG_CTRL_PIN (i : Nat) : Fld := ⟨TGT_TRIG_CTRL_at i, 21, 3⟩
/-- `TGT_TRIG_CTRL.BUF`. -/
def TGT_TRIG_CTRL_BUF (i : Nat) : Fld := ⟨TGT_TRIG_CTRL_at i, 17, 4⟩
/-- `TGT_TRIG_CTRL.TARGET`. -/
def TGT_TRIG_CTRL_TARGET (i : Nat) : Fld := ⟨TGT_TRIG_CTRL_at i, 0, 11⟩
/-- The BAR0 offset of `TGT_TRIG_TIME_LO` (09_network_time.md, R277). -/
def TGT_TRIG_TIME_LO_at (i : Nat) : Nat := 0x98004 + 32 * i
/-- `TGT_TRIG_TIME_LO.TIME`. -/
def TGT_TRIG_TIME_LO_TIME (i : Nat) : Fld := ⟨TGT_TRIG_TIME_LO_at i, 0, 32⟩
/-- The BAR0 offset of `TGT_TRIG_TIME_HI` (09_network_time.md, R277). -/
def TGT_TRIG_TIME_HI_at (i : Nat) : Nat := 0x98008 + 32 * i
/-- `TGT_TRIG_TIME_HI.TIME`. -/
def TGT_TRIG_TIME_HI_TIME (i : Nat) : Fld := ⟨TGT_TRIG_TIME_HI_at i, 0, 32⟩
/-- The BAR0 offset of `TGT_TRIG_SUB` (09_network_time.md, R277). -/
def TGT_TRIG_SUB_at (i : Nat) : Nat := 0x9800C + 32 * i
/-- `TGT_TRIG_SUB.SUB`. -/
def TGT_TRIG_SUB_SUB (i : Nat) : Fld := ⟨TGT_TRIG_SUB_at i, 0, 5⟩
/-- The BAR0 offset of `TGT_TRIG_PERIOD` (09_network_time.md, R277). -/
def TGT_TRIG_PERIOD_at (i : Nat) : Nat := 0x98010 + 32 * i
/-- `TGT_TRIG_PERIOD.PERIOD`. -/
def TGT_TRIG_PERIOD_PERIOD (i : Nat) : Fld := ⟨TGT_TRIG_PERIOD_at i, 0, 32⟩
/-- The BAR0 offset of `TGT_TRIG_WIDTH` (09_network_time.md, R277). -/
def TGT_TRIG_WIDTH_at (i : Nat) : Nat := 0x98014 + 32 * i
/-- `TGT_TRIG_WIDTH.WIDTH`. -/
def TGT_TRIG_WIDTH_WIDTH (i : Nat) : Fld := ⟨TGT_TRIG_WIDTH_at i, 0, 16⟩
/-- The BAR0 offset of `TGT_TRIG_STATUS` (09_network_time.md, R277). -/
def TGT_TRIG_STATUS_at (i : Nat) : Nat := 0x98018 + 32 * i
/-- `TGT_TRIG_STATUS.LATE`. -/
def TGT_TRIG_STATUS_LATE (i : Nat) : Fld := ⟨TGT_TRIG_STATUS_at i, 3, 1⟩
/-- `TGT_TRIG_STATUS.DISCONT`. -/
def TGT_TRIG_STATUS_DISCONT (i : Nat) : Fld := ⟨TGT_TRIG_STATUS_at i, 2, 1⟩
/-- `TGT_TRIG_STATUS.SKIPPED`. -/
def TGT_TRIG_STATUS_SKIPPED (i : Nat) : Fld := ⟨TGT_TRIG_STATUS_at i, 1, 1⟩
/-- `TGT_TRIG_STATUS.FIRED`. -/
def TGT_TRIG_STATUS_FIRED (i : Nat) : Fld := ⟨TGT_TRIG_STATUS_at i, 0, 1⟩
/-- The BAR0 offset of `TGT_TRIG_COUNT` (09_network_time.md, R277). -/
def TGT_TRIG_COUNT_at (i : Nat) : Nat := 0x9801C + 32 * i
/-- `TGT_TRIG_COUNT.COUNT`. -/
def TGT_TRIG_COUNT_COUNT (i : Nat) : Fld := ⟨TGT_TRIG_COUNT_at i, 0, 32⟩
/-- The BAR0 offset of `TGT_PORT_TIME` (09_network_time.md, R289). -/
def TGT_PORT_TIME_at (s : Nat) : Nat := 0x1000000 * (s / 256 + 1) + 0x98000 + 16 * (s % 256)
/-- `TGT_PORT_TIME.ROLE`. -/
def TGT_PORT_TIME_ROLE (s : Nat) : Fld := ⟨TGT_PORT_TIME_at s, 0, 2⟩
/-- The BAR0 offset of `TGT_PORT_ASYM` (09_network_time.md, R289). -/
def TGT_PORT_ASYM_at (s : Nat) : Nat := 0x1000000 * (s / 256 + 1) + 0x98004 + 16 * (s % 256)
/-- `TGT_PORT_ASYM.ASYM`. -/
def TGT_PORT_ASYM_ASYM (s : Nat) : Fld := ⟨TGT_PORT_ASYM_at s, 0, 16⟩
/-- The BAR0 offset of `TGT_PORT_DELAY` (09_network_time.md, R289). -/
def TGT_PORT_DELAY_at (s : Nat) : Nat := 0x1000000 * (s / 256 + 1) + 0x98008 + 16 * (s % 256)
/-- `TGT_PORT_DELAY.DELAY`. -/
def TGT_PORT_DELAY_DELAY (s : Nat) : Fld := ⟨TGT_PORT_DELAY_at s, 0, 24⟩
/-- The BAR0 offset of `TGT_LAUNCH_BUF` (09_network_time.md, R283). -/
def TGT_LAUNCH_BUF_at (t i : Nat) : Nat := 0x1000000 * (t + 1) + 0x9A000 + 4 * i
/-- `TGT_LAUNCH_BUF.W`. -/
def TGT_LAUNCH_BUF_W (t i : Nat) : Fld := ⟨TGT_LAUNCH_BUF_at t i, 0, 32⟩
/-- The BAR0 offset of `SPT_CTRL` (10_optics.md, R325). -/
def SPT_CTRL_at (t : Nat) : Nat := 0x1000000 * (t + 1) + 0xA0100
/-- `SPT_CTRL.START1`. -/
def SPT_CTRL_START1 (t : Nat) : Fld := ⟨SPT_CTRL_at t, 1, 1⟩
/-- `SPT_CTRL.START0`. -/
def SPT_CTRL_START0 (t : Nat) : Fld := ⟨SPT_CTRL_at t, 0, 1⟩
/-- The BAR0 offset of `SPT_STATUS` (10_optics.md, R325). -/
def SPT_STATUS_at (t : Nat) : Nat := 0x1000000 * (t + 1) + 0xA0104
/-- `SPT_STATUS.CONTINUITY1`. -/
def SPT_STATUS_CONTINUITY1 (t : Nat) : Fld := ⟨SPT_STATUS_at t, 3, 1⟩
/-- `SPT_STATUS.CONTINUITY0`. -/
def SPT_STATUS_CONTINUITY0 (t : Nat) : Fld := ⟨SPT_STATUS_at t, 2, 1⟩
/-- `SPT_STATUS.READY1`. -/
def SPT_STATUS_READY1 (t : Nat) : Fld := ⟨SPT_STATUS_at t, 1, 1⟩
/-- `SPT_STATUS.READY0`. -/
def SPT_STATUS_READY0 (t : Nat) : Fld := ⟨SPT_STATUS_at t, 0, 1⟩
/-- The BAR0 offset of `SPT_LANE_CFG` (10_optics.md, R325). -/
def SPT_LANE_CFG_at (t : Nat) : Nat := 0x1000000 * (t + 1) + 0xA0108
/-- `SPT_LANE_CFG.UNCORR_LIM`. -/
def SPT_LANE_CFG_UNCORR_LIM (t : Nat) : Fld := ⟨SPT_LANE_CFG_at t, 0, 16⟩
/-- The BAR0 offset of `SPT_HEAT_CTRL` (10_optics.md, R326). -/
def SPT_HEAT_CTRL_at (e : Nat) : Nat := 0x1000000 * (e / 2 + 1) + 0xA0140 + 64 * (e % 2)
/-- `SPT_HEAT_CTRL.SRC`. -/
def SPT_HEAT_CTRL_SRC (e : Nat) : Fld := ⟨SPT_HEAT_CTRL_at e, 31, 1⟩
/-- `SPT_HEAT_CTRL.PERIOD`. -/
def SPT_HEAT_CTRL_PERIOD (e : Nat) : Fld := ⟨SPT_HEAT_CTRL_at e, 0, 24⟩
/-- The BAR0 offset of `SPT_HEAT_STATUS` (10_optics.md, R326). -/
def SPT_HEAT_STATUS_at (e : Nat) : Nat := 0x1000000 * (e / 2 + 1) + 0xA0144 + 64 * (e % 2)
/-- `SPT_HEAT_STATUS.CLAMP`. -/
def SPT_HEAT_STATUS_CLAMP (e : Nat) : Fld := ⟨SPT_HEAT_STATUS_at e, 3, 1⟩
/-- `SPT_HEAT_STATUS.STARVED`. -/
def SPT_HEAT_STATUS_STARVED (e : Nat) : Fld := ⟨SPT_HEAT_STATUS_at e, 2, 1⟩
/-- `SPT_HEAT_STATUS.HELD`. -/
def SPT_HEAT_STATUS_HELD (e : Nat) : Fld := ⟨SPT_HEAT_STATUS_at e, 1, 1⟩
/-- `SPT_HEAT_STATUS.SEARCH`. -/
def SPT_HEAT_STATUS_SEARCH (e : Nat) : Fld := ⟨SPT_HEAT_STATUS_at e, 0, 1⟩
/-- The BAR0 offset of `SPT_MON_CTRL` (10_optics.md, R326). -/
def SPT_MON_CTRL_at (e : Nat) : Nat := 0x1000000 * (e / 2 + 1) + 0xA0148 + 64 * (e % 2)
/-- `SPT_MON_CTRL.SRC`. -/
def SPT_MON_CTRL_SRC (e : Nat) : Fld := ⟨SPT_MON_CTRL_at e, 31, 1⟩
/-- `SPT_MON_CTRL.INT`. -/
def SPT_MON_CTRL_INT (e : Nat) : Fld := ⟨SPT_MON_CTRL_at e, 0, 3⟩
/-- The BAR0 offset of `SPT_XT_CTRL` (10_optics.md, R326). -/
def SPT_XT_CTRL_at (e : Nat) : Nat := 0x1000000 * (e / 2 + 1) + 0xA014C + 64 * (e % 2)
/-- `SPT_XT_CTRL.CAL`. -/
def SPT_XT_CTRL_CAL (e : Nat) : Fld := ⟨SPT_XT_CTRL_at e, 31, 1⟩
/-- `SPT_XT_CTRL.COMMIT`. -/
def SPT_XT_CTRL_COMMIT (e : Nat) : Fld := ⟨SPT_XT_CTRL_at e, 30, 1⟩
/-- `SPT_XT_CTRL.AUTO`. -/
def SPT_XT_CTRL_AUTO (e : Nat) : Fld := ⟨SPT_XT_CTRL_at e, 29, 1⟩
/-- `SPT_XT_CTRL.INTERVAL`. -/
def SPT_XT_CTRL_INTERVAL (e : Nat) : Fld := ⟨SPT_XT_CTRL_at e, 0, 16⟩
/-- The BAR0 offset of `SPT_XT_STATUS` (10_optics.md, R326). -/
def SPT_XT_STATUS_at (e : Nat) : Nat := 0x1000000 * (e / 2 + 1) + 0xA0150 + 64 * (e % 2)
/-- `SPT_XT_STATUS.ROWDIFF`. -/
def SPT_XT_STATUS_ROWDIFF (e : Nat) : Fld := ⟨SPT_XT_STATUS_at e, 16, 16⟩
/-- `SPT_XT_STATUS.DEFERRED`. -/
def SPT_XT_STATUS_DEFERRED (e : Nat) : Fld := ⟨SPT_XT_STATUS_at e, 3, 1⟩
/-- `SPT_XT_STATUS.FAIL`. -/
def SPT_XT_STATUS_FAIL (e : Nat) : Fld := ⟨SPT_XT_STATUS_at e, 2, 1⟩
/-- `SPT_XT_STATUS.DONE`. -/
def SPT_XT_STATUS_DONE (e : Nat) : Fld := ⟨SPT_XT_STATUS_at e, 1, 1⟩
/-- `SPT_XT_STATUS.BUSY`. -/
def SPT_XT_STATUS_BUSY (e : Nat) : Fld := ⟨SPT_XT_STATUS_at e, 0, 1⟩
/-- The BAR0 offset of `SPT_APR_STATUS` (10_optics.md, R326). -/
def SPT_APR_STATUS_at (e : Nat) : Nat := 0x1000000 * (e / 2 + 1) + 0xA0154 + 64 * (e % 2)
/-- `SPT_APR_STATUS.APR`. -/
def SPT_APR_STATUS_APR (e : Nat) : Fld := ⟨SPT_APR_STATUS_at e, 0, 32⟩
/-- The BAR0 offset of `SPT_FP_READY` (10_optics.md, R326). -/
def SPT_FP_READY_at (e : Nat) : Nat := 0x1000000 * (e / 2 + 1) + 0xA0158 + 64 * (e % 2)
/-- `SPT_FP_READY.READY`. -/
def SPT_FP_READY_READY (e : Nat) : Fld := ⟨SPT_FP_READY_at e, 0, 32⟩
/-- The BAR0 offset of `SPT_LSR_GROUP` (10_optics.md, R328). -/
def SPT_LSR_GROUP_at (t i : Nat) : Nat := 0x1000000 * (t + 1) + 0xA021C + 32 * i
/-- `SPT_LSR_GROUP.INPUT_LOST`. -/
def SPT_LSR_GROUP_INPUT_LOST (t i : Nat) : Fld := ⟨SPT_LSR_GROUP_at t i, 4, 1⟩
/-- `SPT_LSR_GROUP.NOSPARE`. -/
def SPT_LSR_GROUP_NOSPARE (t i : Nat) : Fld := ⟨SPT_LSR_GROUP_at t i, 3, 1⟩
/-- `SPT_LSR_GROUP.SWAP_BUSY`. -/
def SPT_LSR_GROUP_SWAP_BUSY (t i : Nat) : Fld := ⟨SPT_LSR_GROUP_at t i, 2, 1⟩
/-- `SPT_LSR_GROUP.SPARES_FREE`. -/
def SPT_LSR_GROUP_SPARES_FREE (t i : Nat) : Fld := ⟨SPT_LSR_GROUP_at t i, 0, 2⟩
/-- The BAR0 offset of `SPT_LSR_CFG` (10_optics.md, R328). -/
def SPT_LSR_CFG_at (t i : Nat) : Nat := 0x1000000 * (t + 1) + 0xA0200 + 4 * i
/-- `SPT_LSR_CFG.NOM`. -/
def SPT_LSR_CFG_NOM (t i : Nat) : Fld := ⟨SPT_LSR_CFG_at t i, 16, 16⟩
/-- `SPT_LSR_CFG.STATE`. -/
def SPT_LSR_CFG_STATE (t i : Nat) : Fld := ⟨SPT_LSR_CFG_at t i, 13, 3⟩
/-- `SPT_LSR_CFG.ROLE`. -/
def SPT_LSR_CFG_ROLE (t i : Nat) : Fld := ⟨SPT_LSR_CFG_at t i, 10, 3⟩
/-- The BAR0 offset of `SPT_LSR_PWR` (10_optics.md, R324). -/
def SPT_LSR_PWR_at (t i : Nat) : Nat := 0x1000000 * (t + 1) + 0xA0400 + 4 * i
/-- `SPT_LSR_PWR.PWR`. -/
def SPT_LSR_PWR_PWR (t i : Nat) : Fld := ⟨SPT_LSR_PWR_at t i, 0, 16⟩
/-- The BAR0 offset of `SPT_RING` (10_optics.md, R327). -/
def SPT_RING_at (t i : Nat) : Nat := 0x1000000 * (t + 1) + 0xA8000 + 4 * i
/-- `SPT_RING.STATE`. -/
def SPT_RING_STATE (t i : Nat) : Fld := ⟨SPT_RING_at t i, 29, 3⟩
/-- `SPT_RING.TONE`. -/
def SPT_RING_TONE (t i : Nat) : Fld := ⟨SPT_RING_at t i, 21, 3⟩
/-- `SPT_RING.HEAT`. -/
def SPT_RING_HEAT (t i : Nat) : Fld := ⟨SPT_RING_at t i, 0, 16⟩
/-- The BAR0 offset of `SPT_XT_WIN` (10_optics.md, R327). -/
def SPT_XT_WIN_at (t i : Nat) : Nat := 0x1000000 * (t + 1) + 0xAC000 + 4 * i
/-- `SPT_XT_WIN.EVEN`. -/
def SPT_XT_WIN_EVEN (t i : Nat) : Fld := ⟨SPT_XT_WIN_at t i, 16, 16⟩
/-- `SPT_XT_WIN.ODD`. -/
def SPT_XT_WIN_ODD (t i : Nat) : Fld := ⟨SPT_XT_WIN_at t i, 0, 16⟩
/-- The BAR0 offset of `TRP_XCONN` (10_optics.md, R329). -/
def TRP_XCONN_at (f : Nat) : Nat := 0x1000000 * (f / 64 + 1) + 0xB0100 + 4 * (f % 64)
/-- `TRP_XCONN.VALID`. -/
def TRP_XCONN_VALID (f : Nat) : Fld := ⟨TRP_XCONN_at f, 31, 1⟩
/-- `TRP_XCONN.PARTNER`. -/
def TRP_XCONN_PARTNER (f : Nat) : Fld := ⟨TRP_XCONN_at f, 0, 5⟩
/-- The BAR0 offset of `TRP_JOINED` (10_optics.md, R329). -/
def TRP_JOINED_at (e : Nat) : Nat := 0x1000000 * (e / 2 + 1) + 0xB0200 + 4 * (e % 2)
/-- `TRP_JOINED.JOINED`. -/
def TRP_JOINED_JOINED (e : Nat) : Fld := ⟨TRP_JOINED_at e, 0, 32⟩
/-- The BAR0 offset of `TRP_TAP` (10_optics.md, R329). -/
def TRP_TAP_at (f : Nat) : Nat := 0x1000000 * (f / 64 + 1) + 0xB0300 + 4 * (f % 64)
/-- `TRP_TAP.PWR`. -/
def TRP_TAP_PWR (f : Nat) : Fld := ⟨TRP_TAP_at f, 0, 16⟩
/-- The BAR0 offset of `MEM_CTRL` (11_memory.md, R348). -/
def MEM_CTRL_at (t : Nat) : Nat := 0x1000000 * (t + 1) + 0xC0100
/-- `MEM_CTRL.INIT`. -/
def MEM_CTRL_INIT (t : Nat) : Fld := ⟨MEM_CTRL_at t, 0, 1⟩
/-- The BAR0 offset of `MEM_PLAN_CMD` (11_memory.md, R348). -/
def MEM_PLAN_CMD_at (t : Nat) : Nat := 0x1000000 * (t + 1) + 0xC0104
/-- `MEM_PLAN_CMD.COMMIT`. -/
def MEM_PLAN_CMD_COMMIT (t : Nat) : Fld := ⟨MEM_PLAN_CMD_at t, 0, 1⟩
/-- The BAR0 offset of `MEM_PLAN_STATUS` (11_memory.md, R348). -/
def MEM_PLAN_STATUS_at (t : Nat) : Nat := 0x1000000 * (t + 1) + 0xC0108
/-- `MEM_PLAN_STATUS.REASON`. -/
def MEM_PLAN_STATUS_REASON (t : Nat) : Fld := ⟨MEM_PLAN_STATUS_at t, 24, 8⟩
/-- `MEM_PLAN_STATUS.REBUILD`. -/
def MEM_PLAN_STATUS_REBUILD (t : Nat) : Fld := ⟨MEM_PLAN_STATUS_at t, 4, 1⟩
/-- `MEM_PLAN_STATUS.OVERCOMMIT`. -/
def MEM_PLAN_STATUS_OVERCOMMIT (t : Nat) : Fld := ⟨MEM_PLAN_STATUS_at t, 3, 1⟩
/-- `MEM_PLAN_STATUS.SINGLE`. -/
def MEM_PLAN_STATUS_SINGLE (t : Nat) : Fld := ⟨MEM_PLAN_STATUS_at t, 2, 1⟩
/-- `MEM_PLAN_STATUS.REJECTED`. -/
def MEM_PLAN_STATUS_REJECTED (t : Nat) : Fld := ⟨MEM_PLAN_STATUS_at t, 1, 1⟩
/-- `MEM_PLAN_STATUS.BUSY`. -/
def MEM_PLAN_STATUS_BUSY (t : Nat) : Fld := ⟨MEM_PLAN_STATUS_at t, 0, 1⟩
/-- The BAR0 offset of `MEM_USABLE_MIB` (11_memory.md, R348). -/
def MEM_USABLE_MIB_at (t : Nat) : Nat := 0x1000000 * (t + 1) + 0xC010C
/-- `MEM_USABLE_MIB.MIB`. -/
def MEM_USABLE_MIB_MIB (t : Nat) : Fld := ⟨MEM_USABLE_MIB_at t, 0, 18⟩
/-- The BAR0 offset of `MEM_DEV_STATUS` (11_memory.md, R348). -/
def MEM_DEV_STATUS_at (t i : Nat) : Nat := 0x1000000 * (t + 1) + 0xC0110 + 4 * i
/-- `MEM_DEV_STATUS.SPARE_FREE`. -/
def MEM_DEV_STATUS_SPARE_FREE (t i : Nat) : Fld := ⟨MEM_DEV_STATUS_at t i, 16, 16⟩
/-- `MEM_DEV_STATUS.PORT_OK`. -/
def MEM_DEV_STATUS_PORT_OK (t i : Nat) : Fld := ⟨MEM_DEV_STATUS_at t i, 12, 4⟩
/-- `MEM_DEV_STATUS.HOT`. -/
def MEM_DEV_STATUS_HOT (t i : Nat) : Fld := ⟨MEM_DEV_STATUS_at t i, 3, 1⟩
/-- `MEM_DEV_STATUS.STATE`. -/
def MEM_DEV_STATUS_STATE (t i : Nat) : Fld := ⟨MEM_DEV_STATUS_at t i, 0, 3⟩
/-- The BAR0 offset of `MEM_REGION_SIZE` (11_memory.md, R348). -/
def MEM_REGION_SIZE_at (t i : Nat) : Nat := 0x1000000 * (t + 1) + 0xC0120 + 4 * i
/-- `MEM_REGION_SIZE.MIB`. -/
def MEM_REGION_SIZE_MIB (t i : Nat) : Fld := ⟨MEM_REGION_SIZE_at t i, 0, 18⟩
/-- The BAR0 offset of `MEM_REGION_BASE` (11_memory.md, R348). -/
def MEM_REGION_BASE_at (t i : Nat) : Nat := 0x1000000 * (t + 1) + 0xC0140 + 4 * i
/-- `MEM_REGION_BASE.MIB`. -/
def MEM_REGION_BASE_MIB (t i : Nat) : Fld := ⟨MEM_REGION_BASE_at t i, 0, 18⟩
/-- The BAR0 offset of `MEM_POOL_FREE` (11_memory.md, R348). -/
def MEM_POOL_FREE_at (t i : Nat) : Nat := 0x1000000 * (t + 1) + 0xC0160 + 4 * i
/-- `MEM_POOL_FREE.MIB`. -/
def MEM_POOL_FREE_MIB (t i : Nat) : Fld := ⟨MEM_POOL_FREE_at t i, 0, 18⟩
/-- The BAR0 offset of `MEM_MAP_SEL` (11_memory.md, R348). -/
def MEM_MAP_SEL_at (t : Nat) : Nat := 0x1000000 * (t + 1) + 0xC0180
/-- `MEM_MAP_SEL.PORT`. -/
def MEM_MAP_SEL_PORT (t : Nat) : Fld := ⟨MEM_MAP_SEL_at t, 16, 3⟩
/-- `MEM_MAP_SEL.PAGE`. -/
def MEM_MAP_SEL_PAGE (t : Nat) : Fld := ⟨MEM_MAP_SEL_at t, 0, 16⟩
/-- The BAR0 offset of `SNT_CMD` (07_determinism_audit.md, R214). -/
def SNT_CMD_at : Nat := 0xD0100
/-- `SNT_CMD.CMD`. -/
def SNT_CMD_CMD : Fld := ⟨SNT_CMD_at, 28, 4⟩
/-- `SNT_CMD.STREAM`. -/
def SNT_CMD_STREAM : Fld := ⟨SNT_CMD_at, 16, 12⟩
/-- `SNT_CMD.CEPOCH`. -/
def SNT_CMD_CEPOCH : Fld := ⟨SNT_CMD_at, 0, 16⟩
/-- The BAR0 offset of `SNT_CHUNK` (07_determinism_audit.md, R214). -/
def SNT_CHUNK_at : Nat := 0xD0104
/-- `SNT_CHUNK.FIRST`. -/
def SNT_CHUNK_FIRST : Fld := ⟨SNT_CHUNK_at, 0, 32⟩
/-- The BAR0 offset of `SNT_TARGET` (07_determinism_audit.md, R214). -/
def SNT_TARGET_at : Nat := 0xD0108
/-- `SNT_TARGET.COUNT`. -/
def SNT_TARGET_COUNT : Fld := ⟨SNT_TARGET_at, 16, 16⟩
/-- `SNT_TARGET.ALL`. -/
def SNT_TARGET_ALL : Fld := ⟨SNT_TARGET_at, 15, 1⟩
/-- `SNT_TARGET.PORT`. -/
def SNT_TARGET_PORT : Fld := ⟨SNT_TARGET_at, 0, 11⟩
/-- The BAR0 offset of `SNT_STATUS` (07_determinism_audit.md, R214). -/
def SNT_STATUS_at : Nat := 0xD010C
/-- `SNT_STATUS.REASON`. -/
def SNT_STATUS_REASON : Fld := ⟨SNT_STATUS_at, 24, 8⟩
/-- `SNT_STATUS.UNRECOV`. -/
def SNT_STATUS_UNRECOV : Fld := ⟨SNT_STATUS_at, 3, 1⟩
/-- `SNT_STATUS.NULL`. -/
def SNT_STATUS_NULL : Fld := ⟨SNT_STATUS_at, 2, 1⟩
/-- `SNT_STATUS.REFUSED`. -/
def SNT_STATUS_REFUSED : Fld := ⟨SNT_STATUS_at, 1, 1⟩
/-- `SNT_STATUS.BUSY`. -/
def SNT_STATUS_BUSY : Fld := ⟨SNT_STATUS_at, 0, 1⟩
/-- The BAR0 offset of `SNT_FQ_HEAD` (12_faults.md, R382). -/
def SNT_FQ_HEAD_at : Nat := 0xD0110
/-- `SNT_FQ_HEAD.INDEX`. -/
def SNT_FQ_HEAD_INDEX : Fld := ⟨SNT_FQ_HEAD_at, 0, 10⟩
/-- The BAR0 offset of `SNT_FQ_TAIL` (12_faults.md, R382). -/
def SNT_FQ_TAIL_at : Nat := 0xD0114
/-- `SNT_FQ_TAIL.INDEX`. -/
def SNT_FQ_TAIL_INDEX : Fld := ⟨SNT_FQ_TAIL_at, 0, 10⟩
/-- The BAR0 offset of `SNT_MISSED` (07_determinism_audit.md, R214). -/
def SNT_MISSED_at (i : Nat) : Nat := 0xD0200 + 4 * i
/-- `SNT_MISSED.MISSED`. -/
def SNT_MISSED_MISSED (i : Nat) : Fld := ⟨SNT_MISSED_at i, 0, 32⟩
/-- The BAR0 offset of `SNT_POLICY` (07_determinism_audit.md, R214). -/
def SNT_POLICY_at (i : Nat) : Nat := 0xD8000 + 4 * i
/-- `SNT_POLICY.POLICY`. -/
def SNT_POLICY_POLICY (i : Nat) : Fld := ⟨SNT_POLICY_at i, 0, 2⟩
/-- The BAR0 offset of `SNT_FQ` (12_faults.md, R382). -/
def SNT_FQ_at (i : Nat) : Nat := 0xDC000 + 4 * i
/-- `SNT_FQ.W`. -/
def SNT_FQ_W (i : Nat) : Fld := ⟨SNT_FQ_at i, 0, 32⟩
/-- The BAR0 offset of `BRK_CTRL` (13_counters.md, R403). -/
def BRK_CTRL_at (t : Nat) : Nat := 0x1000000 * (t + 1) + 0xE0100
/-- `BRK_CTRL.EN`. -/
def BRK_CTRL_EN (t : Nat) : Fld := ⟨BRK_CTRL_at t, 31, 1⟩
/-- `BRK_CTRL.WRAP`. -/
def BRK_CTRL_WRAP (t : Nat) : Fld := ⟨BRK_CTRL_at t, 30, 1⟩
/-- The BAR0 offset of `BRK_SEED` (13_counters.md, R403). -/
def BRK_SEED_at (t : Nat) : Nat := 0x1000000 * (t + 1) + 0xE0108
/-- `BRK_SEED.SEED`. -/
def BRK_SEED_SEED (t : Nat) : Fld := ⟨BRK_SEED_at t, 0, 32⟩
/-- The BAR0 offset of `BRK_RING_CFG` (13_counters.md, R403). -/
def BRK_RING_CFG_at (t : Nat) : Nat := 0x1000000 * (t + 1) + 0xE0110
/-- `BRK_RING_CFG.SAMPLE_MIB`. -/
def BRK_RING_CFG_SAMPLE_MIB (t : Nat) : Fld := ⟨BRK_RING_CFG_at t, 0, 11⟩
/-- The BAR0 offset of `BRK_SRING_HEAD` (13_counters.md, R403). -/
def BRK_SRING_HEAD_at (t : Nat) : Nat := 0x1000000 * (t + 1) + 0xE0120
/-- `BRK_SRING_HEAD.INDEX`. -/
def BRK_SRING_HEAD_INDEX (t : Nat) : Fld := ⟨BRK_SRING_HEAD_at t, 0, 32⟩
/-- The BAR0 offset of `BRK_SRING_TAIL` (13_counters.md, R403). -/
def BRK_SRING_TAIL_at (t : Nat) : Nat := 0x1000000 * (t + 1) + 0xE0124
/-- `BRK_SRING_TAIL.INDEX`. -/
def BRK_SRING_TAIL_INDEX (t : Nat) : Fld := ⟨BRK_SRING_TAIL_at t, 0, 32⟩
/-- The BAR0 offset of `BRK_TRING_HEAD` (13_counters.md, R403). -/
def BRK_TRING_HEAD_at (t : Nat) : Nat := 0x1000000 * (t + 1) + 0xE0128
/-- `BRK_TRING_HEAD.INDEX`. -/
def BRK_TRING_HEAD_INDEX (t : Nat) : Fld := ⟨BRK_TRING_HEAD_at t, 0, 32⟩
/-- The BAR0 offset of `BRK_TRING_TAIL` (13_counters.md, R403). -/
def BRK_TRING_TAIL_at (t : Nat) : Nat := 0x1000000 * (t + 1) + 0xE012C
/-- `BRK_TRING_TAIL.INDEX`. -/
def BRK_TRING_TAIL_INDEX (t : Nat) : Fld := ⟨BRK_TRING_TAIL_at t, 0, 32⟩
/-- The BAR0 offset of `BRK_TRACE_CTRL` (13_counters.md, R403). -/
def BRK_TRACE_CTRL_at (t : Nat) : Nat := 0x1000000 * (t + 1) + 0xE0130
/-- `BRK_TRACE_CTRL.FOLLOW`. -/
def BRK_TRACE_CTRL_FOLLOW (t : Nat) : Fld := ⟨BRK_TRACE_CTRL_at t, 31, 1⟩
/-- `BRK_TRACE_CTRL.STRIP`. -/
def BRK_TRACE_CTRL_STRIP (t : Nat) : Fld := ⟨BRK_TRACE_CTRL_at t, 30, 1⟩
/-- The BAR0 offset of `BRK_HINT_HOT` (13_counters.md, R403). -/
def BRK_HINT_HOT_at (t : Nat) : Nat := 0x1000000 * (t + 1) + 0xE0140
/-- `BRK_HINT_HOT.EN`. -/
def BRK_HINT_HOT_EN (t : Nat) : Fld := ⟨BRK_HINT_HOT_at t, 31, 1⟩
/-- `BRK_HINT_HOT.HOT`. -/
def BRK_HINT_HOT_HOT (t : Nat) : Fld := ⟨BRK_HINT_HOT_at t, 0, 19⟩
/-- The BAR0 offset of `BRK_HINT_COOL` (13_counters.md, R403). -/
def BRK_HINT_COOL_at (t : Nat) : Nat := 0x1000000 * (t + 1) + 0xE0144
/-- `BRK_HINT_COOL.COOL`. -/
def BRK_HINT_COOL_COOL (t : Nat) : Fld := ⟨BRK_HINT_COOL_at t, 0, 19⟩
/-- The BAR0 offset of `BRK_HINT_INTERVAL` (13_counters.md, R403). -/
def BRK_HINT_INTERVAL_at (t : Nat) : Nat := 0x1000000 * (t + 1) + 0xE0148
/-- `BRK_HINT_INTERVAL.INTERVAL`. -/
def BRK_HINT_INTERVAL_INTERVAL (t : Nat) : Fld := ⟨BRK_HINT_INTERVAL_at t, 0, 24⟩
/-- The BAR0 offset of `BRK_SMP_CFG` (13_counters.md, R404). -/
def BRK_SMP_CFG_at (t i : Nat) : Nat := 0x1000000 * (t + 1) + 0xE0200 + 8 * i
/-- `BRK_SMP_CFG.EN`. -/
def BRK_SMP_CFG_EN (t i : Nat) : Fld := ⟨BRK_SMP_CFG_at t i, 31, 1⟩
/-- `BRK_SMP_CFG.POINT`. -/
def BRK_SMP_CFG_POINT (t i : Nat) : Fld := ⟨BRK_SMP_CFG_at t i, 30, 1⟩
/-- `BRK_SMP_CFG.DEST`. -/
def BRK_SMP_CFG_DEST (t i : Nat) : Fld := ⟨BRK_SMP_CFG_at t i, 28, 2⟩
/-- `BRK_SMP_CFG.TRACE`. -/
def BRK_SMP_CFG_TRACE (t i : Nat) : Fld := ⟨BRK_SMP_CFG_at t i, 27, 1⟩
/-- `BRK_SMP_CFG.ALLPORTS`. -/
def BRK_SMP_CFG_ALLPORTS (t i : Nat) : Fld := ⟨BRK_SMP_CFG_at t i, 26, 1⟩
/-- `BRK_SMP_CFG.LOG2N`. -/
def BRK_SMP_CFG_LOG2N (t i : Nat) : Fld := ⟨BRK_SMP_CFG_at t i, 21, 5⟩
/-- `BRK_SMP_CFG.PORT`. -/
def BRK_SMP_CFG_PORT (t i : Nat) : Fld := ⟨BRK_SMP_CFG_at t i, 0, 8⟩
/-- The BAR0 offset of `BRK_SMP_FILT` (13_counters.md, R404). -/
def BRK_SMP_FILT_at (t i : Nat) : Nat := 0x1000000 * (t + 1) + 0xE0204 + 8 * i
/-- `BRK_SMP_FILT.VCMASK`. -/
def BRK_SMP_FILT_VCMASK (t i : Nat) : Fld := ⟨BRK_SMP_FILT_at t i, 24, 8⟩
/-- `BRK_SMP_FILT.KINDMASK`. -/
def BRK_SMP_FILT_KINDMASK (t i : Nat) : Fld := ⟨BRK_SMP_FILT_at t i, 0, 7⟩
/-- The BAR0 offset of `BRK_OCC_CFG` (13_counters.md, R404). -/
def BRK_OCC_CFG_at (t i : Nat) : Nat := 0x1000000 * (t + 1) + 0xE0400 + 16 * i
/-- `BRK_OCC_CFG.EN`. -/
def BRK_OCC_CFG_EN (t i : Nat) : Fld := ⟨BRK_OCC_CFG_at t i, 31, 1⟩
/-- `BRK_OCC_CFG.IE`. -/
def BRK_OCC_CFG_IE (t i : Nat) : Fld := ⟨BRK_OCC_CFG_at t i, 30, 1⟩
/-- `BRK_OCC_CFG.SRC`. -/
def BRK_OCC_CFG_SRC (t i : Nat) : Fld := ⟨BRK_OCC_CFG_at t i, 26, 4⟩
/-- `BRK_OCC_CFG.INDEX`. -/
def BRK_OCC_CFG_INDEX (t i : Nat) : Fld := ⟨BRK_OCC_CFG_at t i, 0, 14⟩
/-- The BAR0 offset of `BRK_OCC_N` (13_counters.md, R404). -/
def BRK_OCC_N_at (t i : Nat) : Nat := 0x1000000 * (t + 1) + 0xE0404 + 16 * i
/-- `BRK_OCC_N.N`. -/
def BRK_OCC_N_N (t i : Nat) : Fld := ⟨BRK_OCC_N_at t i, 0, 19⟩
/-- The BAR0 offset of `BRK_OCC_MAX` (13_counters.md, R404). -/
def BRK_OCC_MAX_at (t i : Nat) : Nat := 0x1000000 * (t + 1) + 0xE0408 + 16 * i
/-- `BRK_OCC_MAX.MAX`. -/
def BRK_OCC_MAX_MAX (t i : Nat) : Fld := ⟨BRK_OCC_MAX_at t i, 0, 32⟩
/-- The BAR0 offset of `MGT_FAULT_CFG` (12_faults.md, R381). -/
def MGT_FAULT_CFG_at : Nat := 0xF0100
/-- `MGT_FAULT_CFG.WINDOW`. -/
def MGT_FAULT_CFG_WINDOW : Fld := ⟨MGT_FAULT_CFG_at, 20, 12⟩
/-- `MGT_FAULT_CFG.THRESH`. -/
def MGT_FAULT_CFG_THRESH : Fld := ⟨MGT_FAULT_CFG_at, 16, 4⟩
/-- `MGT_FAULT_CFG.BAND`. -/
def MGT_FAULT_CFG_BAND : Fld := ⟨MGT_FAULT_CFG_at, 8, 8⟩
/-- `MGT_FAULT_CFG.LONG`. -/
def MGT_FAULT_CFG_LONG : Fld := ⟨MGT_FAULT_CFG_at, 0, 8⟩
/-- The BAR0 offset of `MGT_RECOVERY` (12_faults.md, R381). -/
def MGT_RECOVERY_at : Nat := 0xF0104
/-- `MGT_RECOVERY.GEN`. -/
def MGT_RECOVERY_GEN : Fld := ⟨MGT_RECOVERY_at, 16, 16⟩
/-- `MGT_RECOVERY.STEP`. -/
def MGT_RECOVERY_STEP : Fld := ⟨MGT_RECOVERY_at, 8, 8⟩
/-- `MGT_RECOVERY.BUSY`. -/
def MGT_RECOVERY_BUSY : Fld := ⟨MGT_RECOVERY_at, 0, 1⟩
/-- The BAR0 offset of `MGT_FQ_HEAD` (12_faults.md, R381). -/
def MGT_FQ_HEAD_at : Nat := 0xF0110
/-- `MGT_FQ_HEAD.INDEX`. -/
def MGT_FQ_HEAD_INDEX : Fld := ⟨MGT_FQ_HEAD_at, 0, 10⟩
/-- The BAR0 offset of `MGT_FQ_TAIL` (12_faults.md, R381). -/
def MGT_FQ_TAIL_at : Nat := 0xF0114
/-- `MGT_FQ_TAIL.INDEX`. -/
def MGT_FQ_TAIL_INDEX : Fld := ⟨MGT_FQ_TAIL_at, 0, 10⟩
/-- The BAR0 offset of `MGT_SQ_HEAD` (12_faults.md, R381). -/
def MGT_SQ_HEAD_at : Nat := 0xF0118
/-- `MGT_SQ_HEAD.INDEX`. -/
def MGT_SQ_HEAD_INDEX : Fld := ⟨MGT_SQ_HEAD_at, 0, 8⟩
/-- The BAR0 offset of `MGT_SQ_TAIL` (12_faults.md, R381). -/
def MGT_SQ_TAIL_at : Nat := 0xF011C
/-- `MGT_SQ_TAIL.INDEX`. -/
def MGT_SQ_TAIL_INDEX : Fld := ⟨MGT_SQ_TAIL_at, 0, 8⟩
/-- The BAR0 offset of `MGT_DUMP_CMD` (12_faults.md, R381). -/
def MGT_DUMP_CMD_at : Nat := 0xF0120
/-- `MGT_DUMP_CMD.FATAL`. -/
def MGT_DUMP_CMD_FATAL : Fld := ⟨MGT_DUMP_CMD_at, 31, 1⟩
/-- `MGT_DUMP_CMD.ACK`. -/
def MGT_DUMP_CMD_ACK : Fld := ⟨MGT_DUMP_CMD_at, 30, 1⟩
/-- The BAR0 offset of `MGT_DUMP_STATUS` (12_faults.md, R381). -/
def MGT_DUMP_STATUS_at : Nat := 0xF0124
/-- `MGT_DUMP_STATUS.CAUSE`. -/
def MGT_DUMP_STATUS_CAUSE : Fld := ⟨MGT_DUMP_STATUS_at, 24, 8⟩
/-- `MGT_DUMP_STATUS.SKIPPED`. -/
def MGT_DUMP_STATUS_SKIPPED : Fld := ⟨MGT_DUMP_STATUS_at, 3, 1⟩
/-- `MGT_DUMP_STATUS.NODUMP`. -/
def MGT_DUMP_STATUS_NODUMP : Fld := ⟨MGT_DUMP_STATUS_at, 2, 1⟩
/-- `MGT_DUMP_STATUS.DONE`. -/
def MGT_DUMP_STATUS_DONE : Fld := ⟨MGT_DUMP_STATUS_at, 1, 1⟩
/-- `MGT_DUMP_STATUS.WRITING`. -/
def MGT_DUMP_STATUS_WRITING : Fld := ⟨MGT_DUMP_STATUS_at, 0, 1⟩
/-- The BAR0 offset of `MGT_OOB_CTRL` (14_host_mgmt.md, R423). -/
def MGT_OOB_CTRL_at : Nat := 0xF0130
/-- `MGT_OOB_CTRL.VC6_WR`. -/
def MGT_OOB_CTRL_VC6_WR : Fld := ⟨MGT_OOB_CTRL_at, 1, 1⟩
/-- `MGT_OOB_CTRL.ETH_WR`. -/
def MGT_OOB_CTRL_ETH_WR : Fld := ⟨MGT_OOB_CTRL_at, 0, 1⟩
/-- The BAR0 offset of `MGT_ETH_MAC_LO` (16_registers.md, R466). -/
def MGT_ETH_MAC_LO_at : Nat := 0xF0138
/-- `MGT_ETH_MAC_LO.MAC`. -/
def MGT_ETH_MAC_LO_MAC : Fld := ⟨MGT_ETH_MAC_LO_at, 0, 32⟩
/-- The BAR0 offset of `MGT_ETH_MAC_HI` (16_registers.md, R466). -/
def MGT_ETH_MAC_HI_at : Nat := 0xF013C
/-- `MGT_ETH_MAC_HI.MAC`. -/
def MGT_ETH_MAC_HI_MAC : Fld := ⟨MGT_ETH_MAC_HI_at, 0, 16⟩
/-- The BAR0 offset of `MGT_INT_SUM` (16_registers.md, R466). -/
def MGT_INT_SUM_at (i : Nat) : Nat := 0xF0140 + 4 * i
/-- `MGT_INT_SUM.BLOCK`. -/
def MGT_INT_SUM_BLOCK (i : Nat) : Fld := ⟨MGT_INT_SUM_at i, 1, 18⟩
/-- The BAR0 offset of `MGT_ERR_SUM` (16_registers.md, R466). -/
def MGT_ERR_SUM_at (i : Nat) : Nat := 0xF0180 + 4 * i
/-- `MGT_ERR_SUM.BLOCK`. -/
def MGT_ERR_SUM_BLOCK (i : Nat) : Fld := ⟨MGT_ERR_SUM_at i, 1, 18⟩
/-- The BAR0 offset of `MGT_SMPQ_HEAD` (13_counters.md, R394). -/
def MGT_SMPQ_HEAD_at : Nat := 0xF01C0
/-- `MGT_SMPQ_HEAD.INDEX`. -/
def MGT_SMPQ_HEAD_INDEX : Fld := ⟨MGT_SMPQ_HEAD_at, 0, 9⟩
/-- The BAR0 offset of `MGT_SMPQ_TAIL` (13_counters.md, R394). -/
def MGT_SMPQ_TAIL_at : Nat := 0xF01C4
/-- `MGT_SMPQ_TAIL.INDEX`. -/
def MGT_SMPQ_TAIL_INDEX : Fld := ⟨MGT_SMPQ_TAIL_at, 0, 9⟩
/-- The BAR0 offset of `MGT_FQ` (12_faults.md, R381). -/
def MGT_FQ_at (i : Nat) : Nat := 0xF8000 + 4 * i
/-- `MGT_FQ.W`. -/
def MGT_FQ_W (i : Nat) : Fld := ⟨MGT_FQ_at i, 0, 32⟩
/-- The BAR0 offset of `MGT_SQ` (12_faults.md, R381). -/
def MGT_SQ_at (i : Nat) : Nat := 0xFC000 + 4 * i
/-- `MGT_SQ.W`. -/
def MGT_SQ_W (i : Nat) : Fld := ⟨MGT_SQ_at i, 0, 32⟩
/-- The BAR0 offset of `MGT_SMPQ_WIN` (13_counters.md, R394). -/
def MGT_SMPQ_WIN_at (i : Nat) : Nat := 0xFE000 + 4 * i
/-- `MGT_SMPQ_WIN.W`. -/
def MGT_SMPQ_WIN_W (i : Nat) : Fld := ⟨MGT_SMPQ_WIN_at i, 0, 32⟩
/-- The BAR0 offset of `CXL_WIN_CFG` (14_host_mgmt.md, R426). -/
def CXL_WIN_CFG_at : Nat := 0x100100
/-- `CXL_WIN_CFG.UNITS`. -/
def CXL_WIN_CFG_UNITS : Fld := ⟨CXL_WIN_CFG_at, 0, 8⟩
/-- The BAR0 offset of `CXL_LINK_STATUS` (14_host_mgmt.md, R426). -/
def CXL_LINK_STATUS_at : Nat := 0x100104
/-- `CXL_LINK_STATUS.NOFLIT`. -/
def CXL_LINK_STATUS_NOFLIT : Fld := ⟨CXL_LINK_STATUS_at, 8, 1⟩
/-- `CXL_LINK_STATUS.MEM_ACTIVE`. -/
def CXL_LINK_STATUS_MEM_ACTIVE : Fld := ⟨CXL_LINK_STATUS_at, 7, 1⟩
/-- `CXL_LINK_STATUS.WIDTH`. -/
def CXL_LINK_STATUS_WIDTH : Fld := ⟨CXL_LINK_STATUS_at, 4, 3⟩
/-- `CXL_LINK_STATUS.SPEED`. -/
def CXL_LINK_STATUS_SPEED : Fld := ⟨CXL_LINK_STATUS_at, 0, 4⟩
/-- The BAR0 offset of `CXL_UNMAPPED_ADDR` (14_host_mgmt.md, R426). -/
def CXL_UNMAPPED_ADDR_at : Nat := 0x100108
/-- `CXL_UNMAPPED_ADDR.ADDR`. -/
def CXL_UNMAPPED_ADDR_ADDR : Fld := ⟨CXL_UNMAPPED_ADDR_at, 0, 32⟩
/-- The BAR0 offset of `CXL_WIN_MAP` (14_host_mgmt.md, R426). -/
def CXL_WIN_MAP_at (i : Nat) : Nat := 0x100200 + 4 * i
/-- `CXL_WIN_MAP.VALID`. -/
def CXL_WIN_MAP_VALID (i : Nat) : Fld := ⟨CXL_WIN_MAP_at i, 31, 1⟩
/-- `CXL_WIN_MAP.TENT`. -/
def CXL_WIN_MAP_TENT (i : Nat) : Fld := ⟨CXL_WIN_MAP_at i, 28, 3⟩
/-- `CXL_WIN_MAP.REGION`. -/
def CXL_WIN_MAP_REGION (i : Nat) : Fld := ⟨CXL_WIN_MAP_at i, 25, 3⟩
/-- `CXL_WIN_MAP.FIRST`. -/
def CXL_WIN_MAP_FIRST (i : Nat) : Fld := ⟨CXL_WIN_MAP_at i, 8, 8⟩
/-- `CXL_WIN_MAP.COUNT`. -/
def CXL_WIN_MAP_COUNT (i : Nat) : Fld := ⟨CXL_WIN_MAP_at i, 0, 8⟩
/-- The BAR0 offset of `SEC_RESET_CMD` (15_boot_security.md, R449). -/
def SEC_RESET_CMD_at : Nat := 0x110100
/-- `SEC_RESET_CMD.KEY`. -/
def SEC_RESET_CMD_KEY : Fld := ⟨SEC_RESET_CMD_at, 24, 8⟩
/-- `SEC_RESET_CMD.KIND`. -/
def SEC_RESET_CMD_KIND : Fld := ⟨SEC_RESET_CMD_at, 0, 3⟩
/-- The BAR0 offset of `SEC_RESET_STATUS` (15_boot_security.md, R449). -/
def SEC_RESET_STATUS_at : Nat := 0x110104
/-- `SEC_RESET_STATUS.SOURCE`. -/
def SEC_RESET_STATUS_SOURCE : Fld := ⟨SEC_RESET_STATUS_at, 4, 4⟩
/-- `SEC_RESET_STATUS.LAST`. -/
def SEC_RESET_STATUS_LAST : Fld := ⟨SEC_RESET_STATUS_at, 0, 3⟩
/-- The BAR0 offset of `SEC_BOOT_STATUS` (15_boot_security.md, R449). -/
def SEC_BOOT_STATUS_at : Nat := 0x110108
/-- `SEC_BOOT_STATUS.REASON`. -/
def SEC_BOOT_STATUS_REASON : Fld := ⟨SEC_BOOT_STATUS_at, 24, 8⟩
/-- `SEC_BOOT_STATUS.SVN`. -/
def SEC_BOOT_STATUS_SVN : Fld := ⟨SEC_BOOT_STATUS_at, 16, 8⟩
/-- `SEC_BOOT_STATUS.BOOT_STATE`. -/
def SEC_BOOT_STATUS_BOOT_STATE : Fld := ⟨SEC_BOOT_STATUS_at, 8, 8⟩
/-- `SEC_BOOT_STATUS.OCTAL_FAIL`. -/
def SEC_BOOT_STATUS_OCTAL_FAIL : Fld := ⟨SEC_BOOT_STATUS_at, 4, 1⟩
/-- `SEC_BOOT_STATUS.CONFIRMED`. -/
def SEC_BOOT_STATUS_CONFIRMED : Fld := ⟨SEC_BOOT_STATUS_at, 3, 1⟩
/-- `SEC_BOOT_STATUS.FALLBACK`. -/
def SEC_BOOT_STATUS_FALLBACK : Fld := ⟨SEC_BOOT_STATUS_at, 2, 1⟩
/-- `SEC_BOOT_STATUS.SLOT`. -/
def SEC_BOOT_STATUS_SLOT : Fld := ⟨SEC_BOOT_STATUS_at, 1, 1⟩
/-- `SEC_BOOT_STATUS.TRIAL`. -/
def SEC_BOOT_STATUS_TRIAL : Fld := ⟨SEC_BOOT_STATUS_at, 0, 1⟩
/-- The BAR0 offset of `SEC_FUSE_STATUS` (15_boot_security.md, R449). -/
def SEC_FUSE_STATUS_at : Nat := 0x11010C
/-- `SEC_FUSE_STATUS.MIN_SVN`. -/
def SEC_FUSE_STATUS_MIN_SVN : Fld := ⟨SEC_FUSE_STATUS_at, 24, 8⟩
/-- `SEC_FUSE_STATUS.STEPPING`. -/
def SEC_FUSE_STATUS_STEPPING : Fld := ⟨SEC_FUSE_STATUS_at, 16, 8⟩
/-- `SEC_FUSE_STATUS.FUSE_BUSY`. -/
def SEC_FUSE_STATUS_FUSE_BUSY : Fld := ⟨SEC_FUSE_STATUS_at, 3, 1⟩
/-- `SEC_FUSE_STATUS.FUSE_RAIL`. -/
def SEC_FUSE_STATUS_FUSE_RAIL : Fld := ⟨SEC_FUSE_STATUS_at, 2, 1⟩
/-- `SEC_FUSE_STATUS.DEBUG_LOCKED`. -/
def SEC_FUSE_STATUS_DEBUG_LOCKED : Fld := ⟨SEC_FUSE_STATUS_at, 1, 1⟩
/-- `SEC_FUSE_STATUS.OWNER_MODE`. -/
def SEC_FUSE_STATUS_OWNER_MODE : Fld := ⟨SEC_FUSE_STATUS_at, 0, 1⟩
/-- The BAR0 offset of `SEC_SERIAL_LO` (15_boot_security.md, R449). -/
def SEC_SERIAL_LO_at : Nat := 0x110110
/-- `SEC_SERIAL_LO.SERIAL`. -/
def SEC_SERIAL_LO_SERIAL : Fld := ⟨SEC_SERIAL_LO_at, 0, 32⟩
/-- The BAR0 offset of `SEC_SERIAL_HI` (15_boot_security.md, R449). -/
def SEC_SERIAL_HI_at : Nat := 0x110114
/-- `SEC_SERIAL_HI.SERIAL`. -/
def SEC_SERIAL_HI_SERIAL : Fld := ⟨SEC_SERIAL_HI_at, 0, 32⟩
/-- The BAR0 offset of `SEC_FWUP_CMD` (15_boot_security.md, R449). -/
def SEC_FWUP_CMD_at : Nat := 0x110120
/-- `SEC_FWUP_CMD.CMD`. -/
def SEC_FWUP_CMD_CMD : Fld := ⟨SEC_FWUP_CMD_at, 28, 4⟩
/-- `SEC_FWUP_CMD.MODE`. -/
def SEC_FWUP_CMD_MODE : Fld := ⟨SEC_FWUP_CMD_at, 27, 1⟩
/-- `SEC_FWUP_CMD.PIECE`. -/
def SEC_FWUP_CMD_PIECE : Fld := ⟨SEC_FWUP_CMD_at, 0, 10⟩
/-- The BAR0 offset of `SEC_FWUP_STATUS` (15_boot_security.md, R449). -/
def SEC_FWUP_STATUS_at : Nat := 0x110124
/-- `SEC_FWUP_STATUS.REASON`. -/
def SEC_FWUP_STATUS_REASON : Fld := ⟨SEC_FWUP_STATUS_at, 24, 8⟩
/-- `SEC_FWUP_STATUS.DONE`. -/
def SEC_FWUP_STATUS_DONE : Fld := ⟨SEC_FWUP_STATUS_at, 2, 1⟩
/-- `SEC_FWUP_STATUS.OPEN`. -/
def SEC_FWUP_STATUS_OPEN : Fld := ⟨SEC_FWUP_STATUS_at, 1, 1⟩
/-- `SEC_FWUP_STATUS.BUSY`. -/
def SEC_FWUP_STATUS_BUSY : Fld := ⟨SEC_FWUP_STATUS_at, 0, 1⟩
/-- The BAR0 offset of `SEC_FUSE_CMD` (15_boot_security.md, R449). -/
def SEC_FUSE_CMD_at : Nat := 0x110128
/-- `SEC_FUSE_CMD.OP`. -/
def SEC_FUSE_CMD_OP : Fld := ⟨SEC_FUSE_CMD_at, 28, 4⟩
/-- `SEC_FUSE_CMD.VALUE`. -/
def SEC_FUSE_CMD_VALUE : Fld := ⟨SEC_FUSE_CMD_at, 0, 8⟩
/-- The BAR0 offset of `SEC_FWUP_LEN` (15_boot_security.md, R449). -/
def SEC_FWUP_LEN_at : Nat := 0x11012C
/-- `SEC_FWUP_LEN.LENGTH`. -/
def SEC_FWUP_LEN_LENGTH : Fld := ⟨SEC_FWUP_LEN_at, 0, 25⟩
/-- The BAR0 offset of `SEC_SEAL_CTRL` (07_determinism_audit.md, R215). -/
def SEC_SEAL_CTRL_at : Nat := 0x110400
/-- `SEC_SEAL_CTRL.EN`. -/
def SEC_SEAL_CTRL_EN : Fld := ⟨SEC_SEAL_CTRL_at, 31, 1⟩
/-- `SEC_SEAL_CTRL.SIGN_TK`. -/
def SEC_SEAL_CTRL_SIGN_TK : Fld := ⟨SEC_SEAL_CTRL_at, 0, 24⟩
/-- The BAR0 offset of `SEC_SEAL_STATUS` (07_determinism_audit.md, R215). -/
def SEC_SEAL_STATUS_at : Nat := 0x110404
/-- `SEC_SEAL_STATUS.DROP`. -/
def SEC_SEAL_STATUS_DROP : Fld := ⟨SEC_SEAL_STATUS_at, 3, 1⟩
/-- `SEC_SEAL_STATUS.LOG_FULL`. -/
def SEC_SEAL_STATUS_LOG_FULL : Fld := ⟨SEC_SEAL_STATUS_at, 2, 1⟩
/-- `SEC_SEAL_STATUS.LAG`. -/
def SEC_SEAL_STATUS_LAG : Fld := ⟨SEC_SEAL_STATUS_at, 1, 1⟩
/-- `SEC_SEAL_STATUS.KEY_READY`. -/
def SEC_SEAL_STATUS_KEY_READY : Fld := ⟨SEC_SEAL_STATUS_at, 0, 1⟩
/-- The BAR0 offset of `SEC_SEAL_SEQ_LO` (07_determinism_audit.md, R215). -/
def SEC_SEAL_SEQ_LO_at : Nat := 0x110408
/-- `SEC_SEAL_SEQ_LO.SEQ`. -/
def SEC_SEAL_SEQ_LO_SEQ : Fld := ⟨SEC_SEAL_SEQ_LO_at, 0, 32⟩
/-- The BAR0 offset of `SEC_SEAL_SEQ_HI` (07_determinism_audit.md, R215). -/
def SEC_SEAL_SEQ_HI_at : Nat := 0x11040C
/-- `SEC_SEAL_SEQ_HI.SEQ`. -/
def SEC_SEAL_SEQ_HI_SEQ : Fld := ⟨SEC_SEAL_SEQ_HI_at, 0, 32⟩
/-- The BAR0 offset of `SEC_SEAL_HEAD` (07_determinism_audit.md, R215). -/
def SEC_SEAL_HEAD_at : Nat := 0x110410
/-- `SEC_SEAL_HEAD.HEAD`. -/
def SEC_SEAL_HEAD_HEAD : Fld := ⟨SEC_SEAL_HEAD_at, 0, 32⟩
/-- The BAR0 offset of `SEC_SEAL_TAIL` (07_determinism_audit.md, R215). -/
def SEC_SEAL_TAIL_at : Nat := 0x110414
/-- `SEC_SEAL_TAIL.TAIL`. -/
def SEC_SEAL_TAIL_TAIL : Fld := ⟨SEC_SEAL_TAIL_at, 0, 32⟩
/-- The BAR0 offset of `SEC_WIN` (15_boot_security.md, R449). -/
def SEC_WIN_at (i : Nat) : Nat := 0x118000 + 4 * i
/-- `SEC_WIN.W`. -/
def SEC_WIN_W (i : Nat) : Fld := ⟨SEC_WIN_at i, 0, 32⟩
/-- The BAR0 offset of `PWR_ENV_STATUS` (16_registers.md, R464). -/
def PWR_ENV_STATUS_at : Nat := 0x120100
/-- `PWR_ENV_STATUS.TJ_MAX`. -/
def PWR_ENV_STATUS_TJ_MAX : Fld := ⟨PWR_ENV_STATUS_at, 8, 8⟩
/-- `PWR_ENV_STATUS.TJ_HIGH`. -/
def PWR_ENV_STATUS_TJ_HIGH : Fld := ⟨PWR_ENV_STATUS_at, 2, 1⟩
/-- `PWR_ENV_STATUS.RAIL_LOW`. -/
def PWR_ENV_STATUS_RAIL_LOW : Fld := ⟨PWR_ENV_STATUS_at, 1, 1⟩
/-- `PWR_ENV_STATUS.BELOW_GUARANTEE`. -/
def PWR_ENV_STATUS_BELOW_GUARANTEE : Fld := ⟨PWR_ENV_STATUS_at, 0, 1⟩
/-- The BAR0 offset of `PWR_STRAPS` (17_electrical_package.md, R490). -/
def PWR_STRAPS_at : Nat := 0x120104
/-- `PWR_STRAPS.SPARE`. -/
def PWR_STRAPS_SPARE : Fld := ⟨PWR_STRAPS_at, 3, 1⟩
/-- `PWR_STRAPS.TEST`. -/
def PWR_STRAPS_TEST : Fld := ⟨PWR_STRAPS_at, 2, 1⟩
/-- `PWR_STRAPS.FLASH_RECOVER`. -/
def PWR_STRAPS_FLASH_RECOVER : Fld := ⟨PWR_STRAPS_at, 1, 1⟩
/-- `PWR_STRAPS.ETH_MODE`. -/
def PWR_STRAPS_ETH_MODE : Fld := ⟨PWR_STRAPS_at, 0, 1⟩
/-- The BAR0 offset of `PWR_TJ` (17_electrical_package.md, R490). -/
def PWR_TJ_at (i : Nat) : Nat := 0x120110 + 4 * i
/-- `PWR_TJ.TJ`. -/
def PWR_TJ_TJ (i : Nat) : Fld := ⟨PWR_TJ_at i, 0, 16⟩
/-- The BAR0 offset of `PWR_RAIL` (17_electrical_package.md, R490). -/
def PWR_RAIL_at (i : Nat) : Nat := 0x120140 + 4 * i
/-- `PWR_RAIL.MV`. -/
def PWR_RAIL_MV (i : Nat) : Fld := ⟨PWR_RAIL_at i, 0, 16⟩
/-- The BAR0 offset of `PWR_PKG` (17_electrical_package.md, R490). -/
def PWR_PKG_at : Nat := 0x120180
/-- `PWR_PKG.W`. -/
def PWR_PKG_W : Fld := ⟨PWR_PKG_at, 0, 16⟩

end Sys2Proof.Machine
end

