-- ==== Sys2Proof/Machine/State.lean ====
section
/-!
DEFINITION. The state of the S9 block, as plain data. Every register word of R450's pages lies in `regs` at its
BAR0 offset, every table entry of the BAR2 window in `tabs`; the records below hold the state the spec gives the
part beside them. `Box` is the block, `State` adds what few commands touch: the queue of waiting commands, the
GDDR7 and flash contents and the fuses.
-/

namespace Sys2Proof.Machine

/-- Why the block stops: the one fault of the model. -/
inductive Fault where
  /-- Raised by no command of this model: the block has no access the spec calls nonexistent and answers to none
  with a stop (R416 gives every unmapped offset a meaning). Safe: a stop proves nothing. -/
  | noSuchObject
  deriving DecidableEq, Repr

/-- Why a command has no meaning.
DESIGN CHOICE, log entry 147. -/
inductive Refusal where
  /-- Raised by a command's arm of `exec` that is not modelled yet. Safe: nothing follows from it. -/
  | notModelled (mnemonic : String)
  deriving DecidableEq, Repr

/-- What the whole device is doing (12_faults.md R378; 15_boot_security.md R428, R430; 17_electrical_package.md
R472, R474, R480). -/
inductive Phase where
  | held         -- a reset source or a missing rail holds the device
  | run          -- out of reset: the boot ROM and then firmware run
  | quiesced     -- a reset is in its quiesce interval
  | failStopped  -- fail-stopped after a fatal condition
  | tripped      -- a thermal trip or rail fault has shut the device down
  deriving DecidableEq, Repr

/-- A lane timestamp: fabric tick of the tent's replica and 1/32 tk within it (09_network_time.md R260); and the whole fabric tick
that the replica reads as the lane synchroniser delivers the flit (06_collectives.md R183). -/
structure Stamp where
  tick  : Nat := 0
  sub   : Nat := 0
  whole : Nat := 0
  deriving DecidableEq, Repr

/-- A frame as its bytes in wire order: 64 header bytes, the payload, 8 trailer bytes (02_itzal_link.md R47). -/
abbrev Frame := List Byte

/-- What a traced frame has passed: its stages S0 to S6 where reached (13_counters.md R396). -/
structure Trace where
  followed : Bool
  inPort   : Nat
  by_      : Option Nat          -- the sampler that tagged it, none where it was only followed
  s0       : Stamp
  stages   : List (Option Nat)   -- S1 to S6, in 1/32 tk of fabric time
  deriving DecidableEq, Repr

/-- A frame that has landed and waits for the header stage (04_buffers.md R92). -/
structure Landed where
  frame : Frame
  stamp : Stamp
  lane  : Nat          -- wavelength of its first flit
  cells : List Nat
  gen   : Nat          -- generation of the landing reserve charged
  rawAt : Nat          -- tick of the tent's replica counter at which its first flit was delivered (05_egress_scheduling.md R121)
  deriving DecidableEq, Repr

/-- A DATA flit held for retry: SEQ, FSTART and body (R39). -/
structure TxFlit where
  seq    : Nat
  fstart : Nat
  body   : List Byte
  deriving DecidableEq, Repr

/-- A lane map change pending in one direction (R59). -/
structure LaneChange where
  map   : Nat
  at_   : Nat       -- switch slot T
  force : Bool
  acked : Bool
  sent  : Bool      -- the request has left, so T stands
  deriving DecidableEq, Repr

/-- A VC3 contribution, a drain marker or a time message that has passed the header stage and waits for the block
that consumes it (06_collectives.md R158; 12_faults.md R375; 09_network_time.md R268). A contribution keeps its
cells until its sliver has taken it (04_buffers.md R111). -/
structure Arrived where
  frame : Frame
  stamp : Stamp
  cells : List Nat
  gen   : Nat
  trace : Option Trace
  dest  : Option Nat      -- the sliver to which it has been steered
  deriving DecidableEq, Repr

/-- A landing-reserve generation: the reserves taken by one enable of the port (R92, R94). -/
structure ResGen where
  gen   : Nat
  cells : List Nat    -- by VC
  deriving DecidableEq, Repr

/-- The link state of one port slot (02_itzal_link.md R33 to R63). -/
structure Port where
  txSeq    : Nat := 0                  -- next SEQ to assign
  rxSeq    : Nat := 0                  -- next SEQ expected
  retry    : List TxFlit := []         -- DATA flits not yet acknowledged, oldest first
  resend   : Option Nat := none        -- the next SEQ to send again
  freed    : List Nat := List.replicate 8 0   -- CCUM of this receiver, by VC (R43)
  sent     : List Nat := List.replicate 8 0   -- SENT, by VC
  pccum    : List Nat := List.replicate 8 0   -- the partner's CCUM as last received
  told     : List Nat := List.replicate 8 0   -- CCUM as last sent (R46)
  rot      : Nat := 0                  -- next VC of the credit rotation
  vc5Last  : Bool := false             -- VC5 took the first slot of the previous flit
  txSlot   : Nat := 0                  -- slot counters (R33)
  rxSlot   : Nat := 0
  part     : List Byte := []           -- the frame partly received
  partAt   : Stamp := {}               -- lane timestamp of its first flit
  partLane : Nat := 0
  partRaw  : Nat := 0                  -- and the tick of the replica counter then
  partCells : List Nat := []           -- cells its flits have taken so far (04_buffers.md R92)
  skip     : Bool := false             -- skipping to the next frame start after a framing error (R38)
  rrOut    : Option (Nat × Nat) := none   -- RETRY_REQ outstanding: times sent, raw tick last sent (R40)
  lastGood : Nat := 0                  -- raw tick of the last flit that passed its CRC (R42)
  ctlQ     : List (List Byte) := []    -- control messages waiting, oldest first
  txVc     : Option Nat := none        -- the VC whose staged head is being sent (R123)
  landed   : List Landed := []         -- frames landed, oldest first
  steer    : List Arrived := []        -- contributions and drain markers for Carousel, oldest first
  ptp      : List Arrived := []        -- messages for Tightrope, oldest first
  pendTx   : Option LaneChange := none
  pendRx   : Option LaneChange := none
  pauseTx  : Option Nat := none        -- own PAUSE: raw tick of its end
  pauseRx  : Option Nat := none        -- partner's PAUSE: raw tick at which its limit ends (R61)
  darkTill : Option Nat := none        -- bypass window: raw tick at which silence detection resumes (R131)
  realign  : List Nat := []            -- lanes whose marker has come since the window's end
  inWindow : Bool := false             -- a bypass window is in force and nothing is sent
  block    : List Byte := []           -- the partner's capability block as last received (R57)
  twice    : Bool := false             -- it came identical twice in a row
  echoSeen : Bool := false             -- the partner's echo flag has been seen set
  peer     : List Byte := []           -- the block of the partner's last complete exchange (R459)
  minMinor : Nat := 0                  -- LNK_VER_CTRL.MIN_MINOR as the present training attempt took it (R456)
  trainAt  : Option Nat := none        -- raw tick at which training step 1 began
  ctags    : Nat := 0                  -- originated control frames and notices since link up (R54)
  nseq     : Nat := 0                  -- reach notices sent (R80)
  hseq     : Nat := 0                  -- backlog notices sent (R400)
  laneBad  : List Nat := List.replicate 4 0   -- consecutive failed flits of each logical lane (R60)
  gen      : Nat := 0                  -- landing-reserve generation in use
  resv     : List ResGen := []         -- generations that hold reserves
  laneBits : List Nat := List.replicate 5 0   -- flit bits sent on each wavelength since its last lane marker (R31)
  found    : List Nat := []            -- wavelengths on which training has found a lane marker (R56 step 2)
  aligned  : List Nat := []            -- wavelengths that are deskewed (R33, R56 step 3)
  marks    : Sparse (Nat × Nat) := []  -- logical position and slot number of the last marker, by wavelength (R31)
  stray    : List Nat := List.replicate 4 7   -- wavelength outside the map that carries a lane's slots, 7 none (R60)
  aligning : Bool := false             -- after a bypass window: the lanes are not aligned yet (R131)
  laneLost : List Nat := []            -- wavelengths whose FEC lock is lost
  lastTx   : Nat := 0                  -- raw tick of the last flit slot
  quar     : List Nat := []            -- receive wavelengths quarantined (12_faults.md R360)
  txQuar   : List Nat := []            -- transmit wavelengths quarantined
  fecPrev  : List Int := []            -- LNK_FEC_UNCORR at the last health check, by wavelength, less what clears have taken since (10_optics.md R313)
  deriving DecidableEq, Repr

/-- Where a frame's cells are charged (04_buffers.md R91). -/
inductive Charge where
  | landing (port gen vc : Nat)
  | partition (p : Nat)
  | recall                      -- the VOQ's recall reserve (R107)
  | spill                       -- the spill region
  | quota (stream : Nat)        -- a result in its stream's quota of the collective region (R111)
  deriving DecidableEq, Repr

/-- A descriptor of a queued frame (R91), in order of enqueue. -/
structure Desc where
  id      : Nat
  frame   : Frame
  tent    : Nat
  inPort  : Option Nat          -- none where Carousel originated the frame
  egress  : Nat
  vc      : Nat
  cls     : Nat                 -- class of the VC at enqueue (R91)
  cells   : List Nat            -- cells held in SRAM, in chain order
  ncells  : Nat                 -- cells of the frame
  charge  : Charge
  pool    : Option (Nat × Nat)  -- pool block: pool and index (R100)
  admitAt : Nat                 -- order of admission
  bank    : Nat
  fence   : Bool
  alone   : Bool                -- its VOQ held no other frame when it was enqueued (01_architecture.md R22)
  spilled : Bool                -- its cells lie in the spill region
  bad     : Option Nat          -- first byte from which the frame is sent as zeros (R97)
  corrupt : Bool                -- sent with bytes read uncorrectable (R98, R108)
  stamp   : Stamp
  trace   : Option Trace
  deriving DecidableEq, Repr

/-- Which result a staged copy is of: the record's number, the chunk, the part or group. -/
structure ResKey where
  id    : Nat
  chunk : Nat
  part  : Nat
  deriving DecidableEq, Repr

/-- A frame granted by Midway and bound for one port's staging (R111): transfers arrived, bytes sent. -/
structure Staged where
  desc    : Desc
  total   : Nat                 -- transfers of the frame
  arrived : Nat                 -- transfers staged
  cut     : Bool                -- every condition of R22 held
  at_     : Nat                 -- tick at which its first transfer was staged, in 1/32 tk of fabric time
  ready   : Nat                 -- and from which it may start
  heldAt  : Option Nat := none  -- when a shaper or credit last kept it from being a candidate (R190)
  late    : Bool                -- it has broken the staging condition (07_determinism_audit.md R190)
  started : Bool
  sentB   : Nat                 -- bytes placed in flits
  result  : Option ResKey       -- the result it copies, for a frame Carousel originated
  tries   : Nat                 -- times the next transfer has failed its CRC (R351)
  deriving DecidableEq, Repr

/-- A result frame (or a retraction notice) that Carousel originated, in its stream's result queue, with the ports
still due a copy, those whose turn it has won, and those whose copies the egress tent has not accepted yet (01_architecture.md R24; 06_collectives.md R180). -/
structure ResRec where
  id      : Nat
  stream  : Nat
  cepoch  : Nat
  chunk   : Nat
  part    : Nat
  tent    : Nat
  frame   : Frame
  bcast   : Bool
  due     : List Nat
  won     : List Nat
  crossing : List Nat            -- ports whose copies are crossing Midway
  cells   : List Nat
  bank    : Nat
  replay  : Bool
  bad     : Option Nat := none  -- as a descriptor's (04_buffers.md R97, R98)
  corrupt : Bool := false
  deriving DecidableEq, Repr

/-- A deficit round over a few queues: the queue the pointer stands at, whether the visit is fresh, deficits. Before the first
decision it stands fresh at queue 0 with every deficit 0.
DESIGN CHOICE, log entry 158. -/
structure Drr where
  at_     : Nat := 0
  fresh   : Bool := true
  deficit : Sparse Nat := []
  deriving DecidableEq, Repr

/-- Midway's arbitration for one egress port and VC (05_egress_scheduling.md R136, R137). -/
structure Mdw where
  tents : Drr := {}
  inner : Sparse Drr := []       -- within a tent: VOQ is queue 0, stream x's result queue x + 1
  deriving DecidableEq, Repr

/-- A token bucket: tokens in 1/256 byte and the tick they stand at (R121). -/
structure Bucket where
  tokens : Nat := 0
  last   : Nat := 0
  deriving DecidableEq, Repr

/-- What the Trapeze bypass of a port is doing (R131). -/
inductive Window where
  | none
  | connected       -- the fibres are connecting or connected to the joined port
  | restoring       -- the fibres return to their engine
  | dark            -- a mismatch: the port stays dark for the entry
  deriving DecidableEq, Repr

/-- Calliope's state for one port (R123 to R135). -/
structure Cal where
  levels   : Sparse Drr := []           -- by level; queues are the VCs
  deficit  : Sparse Nat := []           -- the VCs' deficits (R125)
  port     : Bucket := {}
  vcs      : Sparse Bucket := []
  switchAt : Option Nat := none         -- instant S of a pending switch
  stopAt   : Option Nat := none         -- instant of a pending stop
  since    : Nat := 0                   -- S of the running list
  window   : Window := .none
  winEnd   : Nat := 0                   -- fabric tick at which the bypass entry ends
  entryAt  : Nat := 0                   -- fabric tick at which the entry in force began
  deriving DecidableEq, Repr

/-- A spill block (04_buffers.md R107): its cells in queue order as (descriptor, cells), and whether written. -/
structure SpillBlock where
  parts   : List (Nat × Nat)
  cells   : Nat                 -- cells it has taken, those of frames that have left since among them
  written : Bool
  firstAt : Nat                 -- raw tick of its first cell
  bad     : Option (List Byte) := none   -- the bytes it reads as, where it is uncorrectable (11_memory.md R336)
  gone    : Bool := false       -- its bytes were lost with a device, and read as 0 (11_memory.md R346)
  deriving DecidableEq, Repr

/-- The spill state of one VOQ (R106, R107). -/
structure Spill where
  part      : Nat               -- the partition it spills for
  blocks    : List SpillBlock   -- oldest first
  recalling : Bool              -- the oldest block is being read
  deriving DecidableEq, Repr

/-- A sampler's state (13_counters.md R392, R393): LFSR, frames still to pass, the last draw, records made, records
lost since the last one written, and whether it draws afresh at the next eligible frame. -/
structure Sampler where
  lfsr  : Nat := 0
  c     : Nat := 0
  c0    : Nat := 0
  seq   : Nat := 0
  lost  : Nat := 0
  fresh : Bool := false
  deriving DecidableEq, Repr

/-- What each tent holds beside its registers. -/
structure Tent where
  alloc   : List Nat := []              -- allocated cells, rising (R96)
  ptr     : Nat := 0                    -- the allocation pointer
  spray   : Sparse Nat := []            -- rotation pointers: pipeline * 2048 + bundle; pipeline 8 is the results' (R75)
  own     : Sparse Nat := []            -- cells it contributed to the latest report, by port * 8 + VC
  coll    : Nat := 0                    -- cells of the collective region that stream reservations hold (R94)
  bank    : Nat := 0                    -- the forwarding bank its lookups use (R82, R83)
  checkAt : Nat := 0                    -- raw tick of the last comparison of its replica (01_architecture.md R18)
  audit   : Option (List Nat) := none   -- cells allocated since before the running audit began (R99)
  shrunk  : List Nat := []              -- partitions shrunk below their occupancy and not yet drained below SIZE (R102)
  links   : Sparse Nat := []            -- link memory: the next pointer of each cell of a chain (R95)
  weak    : List Nat := []              -- SRAM rows whose cells are withheld, bank * 768 + row (R95; 12_faults.md R360)
  mapped  : List Nat := []              -- rows mapped onto redundant rows of their banks, oldest first (R360)
  linkAt  : Nat := 0                    -- egress port whose frame had the last transfer on the tent's link (05_egress_scheduling.md R137)
  linkOut : Nat := 0                    -- and the tent's own egress port that it last served
  writeAt : Nat := 0                    -- raw time in 1/100 tk from which spill may write, and read, its next block (R108)
  readAt  : Nat := 0
  recs    : Nat × Nat := (0, 0)         -- a second of raw ticks, and the records its rings took in it (R394)
  deriving DecidableEq, Repr

/-- A forwarding table command in progress: the entry's BAR2 offset and its words, or a READ (R74, R461). -/
structure FwdOp where
  at_   : Nat
  words : List Word
  read  : Bool
  deriving DecidableEq, Repr

/-- A bank switch requested (R83): the trigger unit it waits for, the instant of that unit's firing once it has fired or a tent
has acted on it, tents that have not yet taken it. -/
structure FwdSwitch where
  trig  : Option Nat
  inst  : Option Nat
  left  : List Nat
  deriving DecidableEq, Repr

/-! ### Carousel (06_collectives.md, 07_determinism_audit.md, 08_tumblers.md) -/

/-- What a lane group keeps for one element of an open chunk: the sum and flags of R166 with the residue of R352,
or the extreme or combination so far of R494 with its index. -/
structure Acc where
  a     : Int  := 0
  res   : Nat  := 0
  nan   : Bool := false
  pinf  : Bool := false
  ninf  : Bool := false
  allnz : Bool := true
  has   : Bool := false
  val   : Nat  := 0
  idx   : Nat  := 0
  deriving DecidableEq, Repr

/-- A contribution part that Midway has steered to a sliver, and the transfers that have crossed (R158, R231). -/
structure Part where
  frame   : Frame
  port    : Nat
  stamp   : Stamp
  trace   : Option Trace
  j       : Nat          -- contributor index
  mset    : Nat          -- the binding of its epoch
  mepoch  : Nat
  gen     : Nat          -- the stream's generation when it was steered
  total   : Nat
  arrived : Nat
  tries   : Nat
  deriving DecidableEq, Repr

/-- A retained contribution part: header and payload (R199, R200); the list's order is the acceptance order. -/
structure KeptPart where
  chunk : Nat
  j     : Nat
  k     : Nat
  bytes : List Byte
  deriving DecidableEq, Repr

/-- A staged node of the canonical tree of one part (R172, R173): first relative leaf, level, value. -/
structure TreeNode where
  k     : Nat
  a     : Nat
  level : Nat
  val   : List Byte
  deriving DecidableEq, Repr

/-- A result frame's content: part or group number, element offset and count, payload (R180). -/
structure ResultPart where
  part    : Nat
  elemOff : Nat
  nelem   : Nat
  payload : List Byte
  deriving DecidableEq, Repr

/-- Why a completed result waits before its release (R352, R357). -/
inductive Hold where
  | none
  | twin (tent : Nat)                                      -- the pre-release twin runs
  | third (tent : Nat) (twin : List (List Byte))           -- the third computation runs
  deriving DecidableEq, Repr

/-- An open slot of a sliver: one chunk of one epoch (R155). -/
structure ChunkSlot where
  stream   : Nat
  epoch    : Nat
  chunk    : Nat
  mset     : Nat
  mepoch   : Nat
  opened   : Nat                        -- raw tick at which it opened
  arrived  : List (Nat × Nat) := []     -- (contributor, part), in acceptance order
  accs     : List Acc := []
  nodes    : List TreeNode := []
  roots    : Sparse (Option (List Byte)) := []   -- the root's value, by part
  kstate   : Sparse Byte := []          -- the state window (R229)
  watch    : List KeptPart := []        -- watch copies (R358)
  tlast    : Nat := 0                   -- latest arrival tick (R183)
  poisoned : Bool := false
  stalled  : Bool := false
  done     : Bool := false
  out      : List ResultPart := []      -- the result not yet released
  hold     : Hold := .none
  checked  : Bool := false              -- released as it is: a twin has agreed, or none is to run (12_faults.md R357)
  wrong    : Option (List (List Byte)) := none   -- payloads that an undetected fault gives the result
  deriving DecidableEq, Repr

/-- The entry point of an invocation (R226). -/
inductive Entry where
  | openE | stepE | closeE | combineE
  deriving DecidableEq, Repr

/-- An invocation in progress on a tumbler (R226 to R230). -/
structure Inv where
  entry  : Entry
  epoch  : Nat
  chunk  : Nat
  part   : Option Part             -- the part a STEP takes, and that an OPEN will step
  k      : Nat                     -- part number
  a      : Nat := 0                -- COMBINE: first relative leaf of the left node
  level  : Nat := 0                -- and its level
  pc     : Nat := 0
  s      : List Nat := List.replicate 32 0             -- scalar registers
  v      : List (List Byte) := List.replicate 32 (List.replicate 64 0)
  p      : List Nat := List.replicate 8 0
  opA    : List Byte := []
  opB    : List Byte := []
  state  : Sparse Byte := []       -- the chunk's state window while the invocation runs
  work   : Sparse Byte := []
  result : Sparse Byte := []
  loops  : Sparse Nat := []        -- body executions since the last entry, by the LOOP's word index
  slots  : Nat := 0                -- issue slots used
  deriving DecidableEq, Repr

/-- A sliver: its intake, open slots and tumbler (R151, R217, R231). -/
structure Sliver where
  intake  : List Part := []
  slots   : List ChunkSlot := []
  inv     : Option Inv := none
  invokes : Nat := 0               -- invocations its tumbler has begun (R250)
  diag    : Option Inv := none     -- registers of a diagnostic image, on a sliver of no stream (R250)
  upsetIn : Option Nat := none     -- instructions until its tumbler meets an uncorrectable error (R217, R233)
  deriving DecidableEq, Repr

/-- A twin of a released chunk in progress (R355): the tent whose spare position runs it. -/
structure Twin where
  epoch : Nat
  chunk : Nat
  tent  : Nat
  deriving DecidableEq, Repr

/-- A retraction of one chunk (R203): its REASON and, after a twin mismatch, the twin's payloads and position. -/
structure Retraction where
  epoch  : Nat
  chunk  : Nat
  reason : Nat
  twin   : Option (Nat × List (List Byte))
  deriving DecidableEq, Repr

/-- A retained or released result frame of an epoch. -/
structure KeptResult where
  chunk : Nat
  part  : Nat
  tent  : Nat
  frame : Frame                    -- header and payload; the trailer is made again
  deriving DecidableEq, Repr

/-- What the S9 keeps of one epoch of a stream (R157, R200, R208). -/
structure EpochRec where
  epoch    : Nat
  mset     : Nat
  mepoch   : Nat
  nc       : Nat                         -- contributors of its binding
  bmap     : List Nat                    -- ports of its binding's BMAP
  released : List Nat := []              -- chunks released
  flags    : List (Nat × Nat × Nat) := []   -- by chunk: elements that set GUARD, RANGE
  barrier  : Option Nat := none          -- release instant of a barrier epoch
  fps      : List (Nat × Nat × Nat × BitVec 64) := []   -- input fingerprints: chunk, j, k
  rfps     : List (Nat × Nat × BitVec 64) := []         -- result fingerprints: chunk, part
  results  : List KeptResult := []       -- retained results
  kept     : List KeptPart := []         -- retained contributions
  short    : List Nat := []              -- tents that have stopped retaining
  freed    : Bool := false               -- its retained state has been given up
  incomplete : Bool := false             -- its fingerprints could not be staged
  done     : Bool := false
  tdone    : Nat := 0                    -- fabric tick at which it completed
  passed   : Bool := false               -- its seal record has been asked for
  owed     : Nat := 0                    -- amendments of it owed before it completed
  sealSeq  : Option Nat := none          -- SEQ of its seal record
  sealHead : List Byte := []             -- bytes 12 to 55 and FLAGS of its seal record as asked for
  sealFlags : Nat := 0
  unrecov  : List Nat := []              -- chunks retracted with CODE 2
  deriving DecidableEq, Repr

/-- What a stream holds beside its table entry. -/
structure StreamX where
  held     : Bool := false               -- its resources are taken
  gen      : Nat := 0                    -- counts ACTIVATE and ABORT
  cur      : Nat := 0                    -- the CUR it had last, for EPOCH_HI (R210)
  epochHi  : Nat := 0
  epochs   : List EpochRec := []         -- in order of opening
  image    : List Byte := []             -- the kernel image it took (R225)
  aborted  : List Nat := []              -- epochs an ABORT in progress discards
  drainOn  : Bool := false               -- a DRAIN has been given since the last ACTIVATE
  marked   : List Nat := []              -- drain set: ports that have marked or gone down (R375)
  drained  : Bool := false               -- CAR_DRAIN_STATUS.DONE of the stream
  releasing : Bool := false              -- an accepted RELEASE waits (R153)
  rseq     : Nat := 0                    -- retractions (R204)
  retract  : Option Retraction := none
  retractQ : List Retraction := []
  twins    : List Twin := []
  deriving DecidableEq, Repr

/-- A seal record still to be written (R208, R209): bytes 1 to 63 but SEQ and AMENDS, and the digest's parts. -/
structure SealJob where
  stream : Nat
  epoch  : Nat
  type   : Nat
  flags  : Nat
  head   : List Byte                     -- bytes 12 to 55
  ctx    : List Byte
  kd     : List Byte
  chunks : List (List Byte)              -- the input of each H(c)
  blank  : Bool                          -- DIGEST is zeros
  amends : Nat
  deriving DecidableEq, Repr

/-- The newest seal record: its bytes and where it lies in the ring, none while it waits in the queue. -/
structure SealLast where
  bytes : List Byte
  index : Option Nat
  deriving DecidableEq, Repr

/-- A Safety Net replay in progress (R202). -/
structure Replay where
  stream : Nat
  ids    : List Nat                      -- numbers of its results
  broken : Bool := false                 -- a memory device that held its results has failed (12_faults.md R377)
  deriving DecidableEq, Repr

/-- A fault event as firmware's windowed counting holds it (R359, R361): class, unit, tent, raw tick and junction
temperature. -/
structure FaultEvent where
  cls  : Nat
  unit : Nat
  tent : Nat
  raw  : Nat
  temp : Nat
  deriving DecidableEq, Repr

/-! ### Optics (10_optics.md) -/

/-- A microring's loop (R294 to R302): its setpoint in 2^-15 heater code steps, what re-basing has added to its
heater in 2^-30 steps beside it, whether it is clamped, the search step, whether a bypass window has just released it, whether its setpoint
holds the parking offset (R302), and whether it was searching when it was held. -/
structure Ring where
  set     : Int  := 0
  off     : Int  := 0
  clamped : Bool := false
  step    : Nat  := 0
  byp     : Bool := false
  parked  : Bool := false
  seeking : Bool := false
  deriving DecidableEq, Repr

/-- A laser's consecutive readings (R306, R307): at or below -1 dB, above -0.5 dB, at or below -2 dB, and the first
readings while NOM is not set. -/
structure Laser where
  warn  : Nat := 0
  clear : Nat := 0
  mig   : Nat := 0
  first : List Int := []
  deriving DecidableEq, Repr

/-- A replacement of a laser of a group (R308 to R312): its spare, whether that is ready, whether migration has begun
and is forced, whether ELM_SYNC has risen. -/
structure Arm where
  laser  : Nat
  spare  : Nat
  ready  : Bool
  mig    : Bool
  forced : Bool
  swap   : Bool
  deriving DecidableEq, Repr

/-- A laser group: its replacements, oldest first, the raw tick of the last ELM_SYNC, ports paused and microrings held for it,
(port, wavelength, logical lane) to add back, and the wavelengths whose swap has run, so that they may be (R309). -/
structure LaserGroup where
  arms   : List Arm := []
  syncAt : Nat := 0
  paused : List Nat := []
  held   : List Nat := []
  moved  : List (Nat × Nat × Nat) := []
  back   : List Nat := []
  deriving DecidableEq, Repr

/-- An engine (R294 to R319): its bring-up step (0 none, 1 lit, 2 ramped) and when it began, ELM_EN, heater cycles and
integrations in progress with the last firing of each, a calibration waiting since, the calibrations made by the
interval timer, a commit for the next cycle boundary, the matrix in force by 9 * row + column offset, the couplings last measured
in 2^-15 by 1440 * row of microrings + 9 * heater + offset, whether a microring has lost its lock during the calibration, the raw
tick of the last module poll, whether the module reports ModuleReady, and what polls have logged: tick, that report, lasers reported
failed, monitors (R305). -/
structure Engine where
  boot    : Nat := 0
  bootAt  : Nat := 0
  elm     : Bool := false
  heatRun : Bool := false
  heatAt  : Nat := 0
  monRun  : Bool := false
  monFree : Bool := false
  monAt   : Nat := 0
  due     : Option Nat := none
  calSlot : Nat := 0
  commit  : Bool := false
  matrix  : Sparse Int := []
  couple  : Sparse Int := []
  calLost : Bool := false
  pollAt  : Nat := 0
  ready   : Bool := false
  polls   : List (Nat × Bool × List Nat × List Int) := []
  deriving DecidableEq, Repr

/-- The eye-safety shutdown of a fibre pair (R315, R316): raw ticks of its entry and its last pulse, the shutter. -/
structure Apr where
  since   : Nat := 0
  pulseAt : Nat := 0
  open_   : Bool := false
  deriving DecidableEq, Repr

/-! ### Tightrope (09_network_time.md) -/

/-- A change that waits for its apply tick (R259): a RATE in 2^-48, a step in 1/32 tk, or the value SETTIME gives F;
`track` marks the servo's acquisition step (R263). -/
structure Apply where
  at_   : Nat
  rate  : Option Int := none
  step  : Option Int := none
  set   : Option Nat := none
  track : Bool := false
  deriving DecidableEq, Repr

/-- The servo (R262 to R266): offsets collected in ACQUIRE, the integral term, offsets out of bound in a row, the raw
tick of the last valid Sync, whether PARENT has been written since the last measurement, the raw ticks at which its
timers last ran, and TGT_RATE lo as last written (R287). -/
structure Servo where
  offs   : List Int := []
  integ  : Int := 0
  oob    : Nat := 0
  heard  : Nat := 0
  fresh  : Bool := false
  syncAt : Nat := 0
  pdAt   : Nat := 0
  ethAt  : Nat := 0
  ethSeq : Nat := 0
  rateLo : Nat := 0
  deriving DecidableEq, Repr

/-- A Sync of the relayed domain on its way out of one port (R272): the port it came by, its sequence number and
sourcePortIdentity, its lane timestamp and that of the relayed Sync in 1/32 tk, and its Follow_Up. -/
structure Relay where
  src   : Nat
  seq   : Nat
  ident : List Byte
  rx    : Nat
  tx   : Option Nat := none
  fu   : Option (List Byte) := none
  deriving DecidableEq, Repr

/-- A Pdelay_Resp that waits for its follow-up: sequence number, t2 less its correction in 2^-16 ns, t4 in 1/32 tk. -/
structure PdResp where
  seq : Nat
  t2  : Int
  t4  : Nat
  deriving DecidableEq, Repr

/-- What a port holds of time transfer (R268 to R272): the Sync that waits for its Follow_Up (sequence number,
correction in 2^-16 ns, t2 in 1/32 tk), its own sequence numbers, its outstanding Pdelay_Req with t1, the answer to it,
the last eight path delays in 2^-16 ns, the lane timestamps of the requests it answers, and relayed messages. -/
structure Ptp where
  sync   : Option (Nat × Int × Nat) := none
  seqS   : Nat := 0
  seqP   : Nat := 0
  req    : Option (Nat × Option Nat) := none
  resp   : Option PdResp := none
  delays : List Int := []
  answer : List (Nat × List Byte × Int) := []
  relays : List Relay := []
  deriving DecidableEq, Repr

/-- A time pin (R281): driven active, the fabric time in 1/32 tk at which its pulse ends, the last captured edge in 1/32 tk of the
raw counter, and whether that capture's lo word is unread. -/
structure Pin where
  active : Bool := false
  till   : Option Nat := none
  last   : Option Nat := none
  unread : Bool := false
  deriving DecidableEq, Repr

/-- A launch that waits for its slot (R283): port, trigger unit, header and payload, instant of the firing in 1/32 tk
of the tent's fabric time. -/
structure Launch where
  port  : Nat
  unit  : Nat
  frame : List Byte
  at_   : Nat
  deriving DecidableEq, Repr

/-- A library command in progress (R221). -/
inductive KOp where
  | stage (piece : Nat)
  | verify (slot : Nat)
  deriving DecidableEq, Repr

/-! ### Power, boot, reset and the dump (12_faults.md, 15_boot_security.md, 17_electrical_package.md) -/

/-- The fuses that a fuse operation can still blow (15_boot_security.md R438): blown bits of the MIN_SVN field, the owner
key hash and OWNER_MODE. -/
structure Fuses where
  svn       : Nat := 0
  owner     : BitVec 384 := 0
  ownerMode : Bool := false
  deriving DecidableEq, Repr

/-- A fuse operation in progress: the MIN_SVN it raises to, or the hash it blows (R438). -/
inductive FuseOp where
  | advance (value : Nat)
  | owner (hash : BitVec 384)
  deriving DecidableEq, Repr

/-- The image that runs: its slot, update generation, version and measurement M (R439). -/
structure Image where
  slot  : Nat := 0
  gen   : Nat := 0
  fwver : Nat := 0
  meas  : List Byte := []
  deriving DecidableEq, Repr

/-- A firmware update command in progress (R446); CLOSE with the length it checks. -/
inductive FwOp where
  | openSlot
  | write (piece : Nat)
  | close (len : Nat)
  | revert
  deriving DecidableEq, Repr

/-- The firmware update session (R445): the path that holds it (0 the registers, 1 PLDM), the pieces written, the command
in progress. -/
structure Update where
  path   : Option Nat := none
  pieces : List Nat := []
  op     : Option FwOp := none
  deriving DecidableEq, Repr

/-- A reset that waits for the end of its quiesce interval (R430): kind (1 cold, 2 warm), source, raw tick of the request. -/
structure ResetReq where
  kind : Nat
  src  : Nat
  at_  : Nat
  deriving DecidableEq, Repr

/-- The fatal dump (12_faults.md R378, R379): causes, the ticks of the fatal condition, DUMPSEQ, and whether a complete
dump waits for its acknowledgement. -/
structure Dump where
  cause : Nat := 0
  add   : Nat := 0
  ftick : Nat := 0
  raw   : Nat := 0
  seq   : Nat := 0
  held  : Bool := false
  deriving DecidableEq, Repr

/-- A Memory Module Event Record of the CXL mailbox (14_host_mgmt.md R414). -/
inductive CxlEvent where
  | deviceFail (d : Nat)
  | rebuildStart (t : Nat)
  | rebuildEnd (t : Nat)
  deriving DecidableEq, Repr

/-- An SPDM connection (15_boot_security.md R444): 0 none, 1 version, 2 capabilities, 3 algorithms agreed; on MCTP the
requester's endpoint ID. -/
structure Spdm where
  phase : Nat := 0
  eid   : Nat := 0
  deriving DecidableEq, Repr

/-- The DMTF type of a measurement (15_boot_security.md R442). -/
inductive MeasType where
  | immutableRom
  | mutableFirmware
  | hardwareConfig
  | firmwareConfig
  | freshnessFree
  deriving DecidableEq, Repr

/-- A measurement (R442): its index, its DMTF type, whether it is a raw bit stream rather than a digest, and its bytes. -/
structure Meas where
  index : Nat
  type  : MeasType
  raw   : Bool
  value : List Byte
  deriving DecidableEq, Repr

/-- An answer on a management path, by what it says: the encodings are those of the standards the spec names.
DESIGN CHOICE, log entry 10. -/
inductive Reply where
  | mboxDone
  | mboxUnsupported
  | mboxInvalid
  | mboxEvents (l : List CxlEvent)
  | mboxTimestamp (ns : Nat)
  | mboxLogs (logs : List String)
  | mboxLog (bytes : List Byte)
  | mboxIdentify (total volatileCap persistent : Nat)
  | mboxHealth (temp : Int) (lifeUsed : Nat)
  | doeProtocol (inst : Nat) (protocol next : Nat)
  | doeCdat (dpaMib : Nat) (isVolatile : Bool) (latencyNs readGBs writeGBs : Nat)   -- DSMAS and DSLBIS (14_host_mgmt.md R414)
  | doeEnd
  | arp (mac : Nat) (target : Nat)
  | icmpEcho (dst : Nat) (data : List Byte)
  | bmt (path : BmtPath) (op count seq : Nat) (data : List Word)
  | i3cStatus (bits : Nat)
  | i3cNack
  | i3cAck
  | i3cPid (id : BitVec 48)
  | mctpEid (eid : Nat)
  | mctpTypes (tys : List Nat)
  | mctpError
  | pldmTid (tid : Nat)
  | pldmVersion (ty : Nat)
  | pldmTypes (tys : List Nat)
  | pldmCommands (ty : Nat)
  | pldmInvalid
  | pldmSensor (value : Int)
  | pldmState (v : Nat)
  | pldmEvent (v : Nat)
  | pldmUpdate (done : Bool) (reason : Nat)
  | pldmComponent (classification identifier stamp maxTransfer : Nat)   -- 15_boot_security.md R448
  | spdmVersions (vs : List Nat)
  | spdmCapabilities (cert chal : Bool) (meas ctExponent : Nat)
  | spdmAlgorithms (asym baseHash measHash measSpec : String)
  | spdmDigests (digest : List Byte)
  | spdmCertificate (part : List Byte) (remainder : Nat)
  | spdmChallenge (digest meas : List Byte) (nonce : BitVec 256) (sig : List Byte)
  | spdmMeasurements (total : Nat) (l : List Meas) (nonce : BitVec 256) (sig : List Byte)
  | spdmError (name : String)
  deriving DecidableEq, Repr

/-- A request on the laser bus, in the terms of custom page B4h and the CMIS registers the S9 uses (10_optics.md R305). -/
inductive LaserReq where
  | vendor                                                    -- page 00h
  | identify                                                  -- identifier and module state of the lower memory
  | flags                                                     -- module state, flags and monitors of the lower memory
  | module (ready : Bool)                                     -- to ModuleReady, or to ModuleLowPwr
  | power (laser : Nat) (dbm : Option Int) (tone : Option Nat) -- output at a power in 0.01 dBm, with a tone
  | tune (laser : Nat) (wl : Nat)                             -- target frequency of a wavelength, output disabled
  | arm (old new : Nat)                                       -- the group's swap
  deriving DecidableEq, Repr

/-- What leaves the block at its pins and links, newest first in `outbox`. -/
inductive Out where
  | readData (src : Requester) (ws : List Word)
  | msix (v : Nat)
  | flit (p pos wl : Nat) (bytes : List Byte)          -- on the lane of a logical position and wavelength (02_itzal_link.md R33)
  | marker (p wl pos ctr : Nat)                        -- a lane-marker codeword: wavelength, position, slot counter (R31)
  | elmEn (m : Nat) (high : Bool)                      -- ELM_EN of a laser module (R305)
  | laserBus (m q : Nat) (r : LaserReq)                -- a request about a laser group of a module (R305)
  | pin (i : Nat) (level : Option Bool) (at_ : Nat)    -- a time pin is driven, or left at high impedance, at 1/32 tk (09_network_time.md R281)
  | elmSync (m : Nat)                                  -- ELM_SYNC of a laser module rises (10_optics.md R305)
  | ethPtp (event : Bool) (msg : List Byte)            -- a PTP message to UDP port 319 or 320 (09_network_time.md R269)
  | memData (dpa : Nat) (bytes : List Byte) (poison : Bool)   -- completion of a CXL.mem read (14_host_mgmt.md R413)
  | memAck (dpa : Nat)                                 -- completion of a CXL.mem write (R413)
  | bmtEvent (dst : BitVec 48) (record : List Byte)    -- an EVENT to the collector at an address (R422)
  | ethLane (baseX : Bool)                             -- the management lane starts as 1000BASE-X, else as 10GBASE-R (R421)
  | dhcpDiscover                                       -- the DHCPv4 client asks for an address (R421)
  | dhcpRequest (addr : BitVec 32)                     -- and for the one offered
  | ntpRequest                                         -- the NTP client asks for the time (R421)
  | syslog (record : List Byte)                        -- an entry of the firmware log (R421)
  | reply (r : Reply)                                  -- an answer on a management path
  deriving DecidableEq, Repr

/-- The block. -/
structure Box where
  phase    : Phase := .run
  raw      : Nat := 0                    -- Tightrope's raw tick counter (09_network_time.md R257)
  freeCtr  : Nat := 0                    -- the MODEL's own: index of the next free value
  outbox   : List Out := []              -- the MODEL's own: what the block has sent
  regs     : Sparse Word := []           -- register words by BAR0 offset
  tabs     : Sparse Word := []           -- table words by BAR2 offset
  ctrs     : Sparse (BitVec 64) := []    -- counters by page * 4096 + index (13_counters.md R383)
  shadows  : Sparse (BitVec 64) := []    -- shadow copies (R385)
  copying  : Sparse (BitVec 64) := []    -- snapshots being copied
  copyTick : Sparse Nat := []            -- and the tick of each
  preClear : Sparse (BitVec 64) := []    -- counters as they stood before a CLEAR of this tick (R401)
  clearAt  : Sparse Nat := []            -- by page: one more than the raw tick of its last CLEAR, 0 none
  snapWait : List (Nat × Nat) := []      -- pages whose replica has not reached the instant of a firing, with it (R385)
  snapHad  : List (Nat × Nat) := []      -- pages that took theirs before the master fired the unit
  hiLatch  : Sparse (BitVec 64) := []    -- by page * 4096 + index: the value latched by the last lo read (R11)
  fa       : Int := 0                    -- fabric time at raw tick `na`, in 2^-48 tk (R259)
  na       : Nat := 0
  rate     : Int := 0                    -- RATE in force, in 2^-48
  repl     : Sparse Int := []            -- each tent replica's difference from the master, in ticks (R18)
  ports    : Sparse Port := []
  tents    : Sparse Tent := []
  descs    : List Desc := []             -- queued frames in order of enqueue, every tent
  descId   : Nat := 0
  admits   : Nat := 0
  spills   : Sparse Spill := []          -- by tent * 16384 + VOQ
  staging  : Sparse (List Staged) := []  -- by egress port * 8 + VC, in order of grant
  results  : List ResRec := []           -- result queues, in order of release
  fwdOp    : Option FwdOp := none
  fwdSw    : Option FwdSwitch := none
  notices  : List (List (Nat × Nat)) := []   -- restoration notices still to send (16_registers.md R462)
  mdw      : Sparse Mdw := []            -- by egress port * 8 + VC
  cals     : Sparse Cal := []            -- by port slot
  buckets  : Sparse Bucket := []         -- Turnstile's, by port slot * 8 + VC
  backlog  : Sparse Nat := []            -- B(p, v) as last reported, by port * 8 + VC (R398)
  mem      : Sparse Byte := []           -- GDDR7 contents by tent, region and offset (11_memory.md R340)
  samplers : Sparse Sampler := []        -- by tent * 16 + sampler
  smpq     : List (List Byte) := []      -- Big Top's sample queue, oldest first (R394)
  inbox    : List Frame := []            -- Ringmaster's inbox (R111)
  qlens    : Sparse Nat := []            -- records held: 0 flushed results, 1 fault events, 2 suspects
  collector : Option (BmtPath × BitVec 48) := none   -- the BMT subscriber and its path (14_host_mgmt.md R422)
  vc6Q     : List (Nat × List Byte) := []            -- EVENTs that wait to go out on VC6, with their destinations (R422)
  bmtSecond : Nat × Nat := (0, 0)        -- second of the raw counter and BMT requests served in it (R422)
  portErrs : Sparse (List Nat) := []     -- raw ticks of recent contribution errors by port (12_faults.md R368)
  slivers  : Sparse Sliver := []
  streams  : Sparse StreamX := []
  carOp    : Option (Nat × Nat) := none  -- the stream command in progress: CMD and stream (R152, R153)
  bOpened  : List Nat := []              -- groups in which an epoch bound to B has opened (R146)
  resId    : Nat := 0                    -- next record number of a result
  replay   : Option Replay := none
  kernels  : Sparse (List Byte) := []    -- the kernel library: images by slot (08_tumblers.md R220)
  kpieces  : Sparse (List Byte) := []    -- pieces staged since the last VERIFY (R221)
  kop      : Option KOp := none
  substs   : List Nat := []              -- slivers whose substitution is pending (R254)
  sealJobs : List SealJob := []          -- records still to be written, oldest first
  sealQ    : List (List Byte) := []      -- records waiting for room in the ring (R212)
  sealLast : Option SealLast := none
  sealSigned : Nat := 0                  -- raw tick of the last signature (R211)
  aliasKey : BitVec 384 := 0             -- the alias secret key, where no requester reads it (R440)
  aliasCert : List Byte := []            -- the alias certificate (15_boot_security.md R439)
  deviceKey : BitVec 384 := 0            -- the DeviceID secret key, until the engine clears it (R440)
  udsLocked : Bool := false              -- the unique device secret is locked (R440)
  events   : List FaultEvent := []       -- fault events, oldest first
  spareQuar : List (Nat × Nat) := []     -- spare positions quarantined: tent and array (12_faults.md R360)
  occs     : Sparse Bool := []           -- by tent * 16 + monitor: its quantity was above N at the last tick (R388)
  hot      : List Nat := []              -- hot ports (13_counters.md R400)
  hotQ     : List Nat := []              -- ports whose state has changed since the last notice, oldest first
  hintAt   : Nat := 0                    -- raw tick of the last backlog notice
  rings    : Sparse Ring := []           -- by engine * 320 + status entry
  lasers   : Sparse Laser := []          -- by (engine * 4 + input) * 7 + laser
  lgroups  : Sparse LaserGroup := []     -- by engine * 4 + input
  engines  : Sparse Engine := []
  aprs     : Sparse Apr := []            -- by fibre pair
  plans    : Sparse Nat := []            -- region sizes in force in MiB, by tent * 8 + region (11_memory.md R342)
  trained  : List Nat := []              -- memory devices that have finished training (R332 step 6)
  initing  : List Nat := []              -- tents whose initialisation runs (R335)
  spares   : Sparse Word := []           -- spare maps, by (tent * 8 + port) * 2^20 + entry (R339, R348)
  memKept  : Bool := false               -- the last reset preserved memory (R335)
  hostReads : List (Nat × Nat) := []     -- host reads that wait for a rebuild: DPA, uncorrectable copies (R344)
  badBlocks : List (Nat × Nat) := []     -- uncorrectable 64-byte blocks: device, address key (R334)
  kernBad  : List (Nat × Nat) := []      -- uncorrectable copies of library slots: device, slot (R336)
  deadDevs : List Nat := []              -- devices that have failed since the last cold reset (R345)
  applies  : List Apply := []            -- in order of request
  servo    : Servo := {}
  ptps     : Sparse Ptp := []            -- by port slot
  pins     : Sparse Pin := []
  launches : List Launch := []           -- in order of firing
  fuses    : Fuses := {}
  fuseOp   : Option FuseOp := none
  fuseRail : Bool := false               -- VPP_FUSE is above 2.3 V (17_electrical_package.md R471)
  flash    : Sparse Byte := []           -- both flash devices, by chip select * 2^26 + offset (15_boot_security.md R434)
  image    : Image := {}
  update   : Update := {}
  resetReq : Option ResetReq := none
  pwrOk    : Bool := true                -- the PWR_OK pin
  railsBad : List Nat := []              -- rails out of range (17_electrical_package.md R468)
  refLost  : Bool := false               -- the fabric reference is missing or far off (R477)
  straps   : Nat := 0                    -- levels of the four straps at the last sampling (R473)
  memTemps : List Nat := List.replicate 16 0   -- temperatures of the memory devices as last read (14_host_mgmt.md R425)
  tap      : TapInstr := .bypass         -- the JTAG port's instruction (R486)
  alarm    : Bool := false               -- ALARM_N is driven low (R487)
  trip     : Bool := false               -- THERMTRIP_N is driven low (R480)
  calShed  : Nat := 0                    -- seconds that firmware adds to calibration intervals on three cores (R25)
  cores    : List Nat := []              -- Ringmaster cores that have failed, of five (01_architecture.md R25)
  dump     : Dump := {}
  sealHash : List Byte := List.replicate 48 0   -- SHA-384 of the last seal record of earlier chains (R429)
  wall     : Option (Nat × Nat) := none  -- wall time in ns as set at a raw tick (00_scope.md R6)
  cxlLog   : List CxlEvent := []         -- Memory Module Event Records, oldest first (14_host_mgmt.md R414)
  doeError : List Nat := []              -- DOE instances whose Error bit is set (R415)
  doeBusy  : List Nat := []              -- and those whose Busy bit is
  cfg      : Sparse (Option Word) := []  -- words of configuration space that have been written since the function's reset (R406)
  cxlRegs  : Sparse (Option Word) := []  -- and of the CXL component and memory device registers, by BAR0 offset (R416)
  ip       : Option (BitVec 32) := none  -- the DHCPv4 lease or the static address (R421)
  ethSecond : Nat × Nat := (0, 0)        -- second of the raw counter and management frames in it (R421)
  i3cAddr  : Option (BitVec 7) := none   -- dynamic address (R424)
  eid      : Nat := 0                    -- MCTP endpoint ID, 0 none
  spdmDoe  : Spdm := {}
  spdmMctp : Spdm := {}
  spdmSigs : List Nat := []              -- raw ticks of the SPDM signatures of the last second (R443)
  bar2     : Option (Nat × List Word) := none   -- a BAR2 entry in progress: its offset and words (R410)
  deriving DecidableEq, Repr

/-- The machine: the block and the commands waiting, first in, first out.
DESIGN CHOICE, log entry 5. -/
structure State extends Box where
  pending : List Instr := []
  deriving DecidableEq, Repr

/-- The machine right after reset: every register at its reset value, every table and memory empty, no command
waiting.
DESIGN CHOICE, log entries 2, 6, 7, 62.
DESIGN CHOICE, log entry 165. -/
def State.reset : State := {}

end Sys2Proof.Machine
end

