-- ==== Sys2Proof/Machine/Flags.lean ====
section
/-!
DEFINITION. Registers by word and field, the error indications of a page (14_host_mgmt.md R418), its interrupt
causes and vectors (R420), and its counters (13_counters.md R383).
-/

namespace Sys2Proof.Machine

/-- The register word at a BAR0 offset (or in the unfolded CAL window). -/
def Box.word (s : Box) (a : Nat) : Word := mapGet resetWord s.regs a

/-- Replaces a register word. -/
def Box.setWord (s : Box) (a : Nat) (w : Word) : Box := { s with regs := mapSet resetWord s.regs a w }

/-- The value of a field. -/
def Box.rd (s : Box) (f : Fld) : Nat := wordField (s.word f.addr) f.lo f.width

/-- A field replaced, modulo its width. -/
def Box.wr (s : Box) (f : Fld) (v : Nat) : Box := s.setWord f.addr (wordWith (s.word f.addr) f.lo f.width v)

/-- A field that is not zero. -/
def Box.is (s : Box) (f : Fld) : Bool := s.rd f != 0

/-- A one-bit field set or cleared. -/
def Box.put (s : Box) (f : Fld) (b : Bool) : Box := s.wr f (b2n b)

/-- A table word of the BAR2 window (R409); tables reset to 0. -/
def Box.tab (s : Box) (a : Nat) : Word := mapGet (fun _ => 0) s.tabs a

/-- Replaces a table word. -/
def Box.setTab (s : Box) (a : Nat) (w : Word) : Box := { s with tabs := mapSet (fun _ => 0) s.tabs a w }

/-- The words of a table entry. -/
def Box.tabEntry (s : Box) (a n : Nat) : List Word := (List.range n).map fun i => s.tab (a + 4 * i)

/-- Replaces the words of a table entry. -/
def Box.setTabEntry (s : Box) (a : Nat) : List Word → Box
  | [] => s
  | w :: ws => Box.setTabEntry (s.setTab a w) (a + 4) ws

/-- Something leaves the block.
DESIGN CHOICE, log entry 11. -/
def Box.emit (s : Box) (o : Out) : Box := { s with outbox := o :: s.outbox }

/-! ### Interrupts -/

/-- The summary of a page's vector: some page of it has a bit set in both INT_PEND and INT_EN (R420). -/
def Box.vectorUp (s : Box) (p : Page) : Bool :=
  (vectorPages p).any fun q => Nat.land (s.rd (INT_PEND_ALL q)) (s.rd (INT_EN_ALL q)) != 0

/-- The mask bit of an MSI-X vector.
PRESUMED, log entry 4. -/
def msixMask (v : Nat) : Fld := ⟨0xF20000 + 16 * v + 12, 0, 1⟩
/-- The pending bit of an MSI-X vector. -/
def msixPba (v : Nat) : Fld := ⟨0xF28000 + 4 * (v / 32), v % 32, 1⟩

/-- Sends a vector's message, or sets its pending bit while the vector is masked (R420). -/
def Box.sendVector (s : Box) (v : Nat) : Box :=
  if s.is (msixMask v) then s.put (msixPba v) true else s.emit (.msix v)

/-- Sets a cause bit of a page's INT_PEND whether or not INT_EN enables it; the vector's message goes out when
its summary rises (R420, R465). -/
def Box.raiseInt (s : Box) (p : Page) (bit : Nat) : Box :=
  let s' := s.put (pageFld p 16 bit 1) true
  if !s.vectorUp p && s'.vectorUp p then s'.sendVector (pageVector p) else s'

/-- Sends the vector's message again where a write of INT_PEND or INT_EN leaves its summary at 1 (R420). -/
def Box.resendVector (s : Box) (p : Page) : Box :=
  if s.vectorUp p then s.sendVector (pageVector p) else s

/-! ### Error indications -/

/-- The page of a register word; the unfolded CAL window belongs to its tent's CAL page. -/
def wordPage (a : Nat) : Page := if 0x20000000 ≤ a then tentPage ((a - 0x20000000) / 0x8000 / 256) 0x05 else addrPage a

/-- The page offset of a register word. -/
def wordOff (a : Nat) : Nat := if 0x20000000 ≤ a then (a - 0x20000000) % 0x8000 + 0x8000 else a % 0x10000

/-- SOURCE of a requester: the driver is 0, firmware and all it carries out is 1 (R418).
DEDUCED, log entry 33. -/
def srcCode : Requester → Nat
  | .driver => 0
  | _ => 1

/-- Latches OFFSET and SOURCE at the first error, marks a further one as OVERRUN, sets the indication `f` and
raises the page's ERR cause when ACCERR or RSVW becomes set (R418).
DEDUCED, log entry 17. -/
def Box.pageErr (s : Box) (p : Page) (off : Nat) (src : Requester) (f : Fld) : Box :=
  let s1 :=
    if s.is (PAGE_ERR_ACCERR p) || s.is (PAGE_ERR_RSVW p) then s.put (PAGE_ERR_OVERRUN p) true
    else (s.wr (PAGE_ERR_OFFSET p) off).wr (PAGE_ERR_SOURCE p) (srcCode src)
  let s2 := s1.put f true
  if s.is f then s2 else s2.raiseInt p 31

/-- The access-error indication of a page. -/
def Box.accErr (s : Box) (p : Page) (off : Nat) (src : Requester) : Box := s.pageErr p off src (PAGE_ERR_ACCERR p)

/-- The reserved-write indication of a page (R9, R12). -/
def Box.rsvWrite (s : Box) (p : Page) (off : Nat) (src : Requester) : Box := s.pageErr p off src (PAGE_ERR_RSVW p)

/-- The access-error indication for a register named by its BAR0 offset. -/
def Box.accErrAt (s : Box) (a : Nat) (src : Requester) : Box := s.accErr (wordPage a) (wordOff a) src

/-- The reserved-write indication for a register named by its BAR0 offset. -/
def Box.rsvWriteAt (s : Box) (a : Nat) (src : Requester) : Box := s.rsvWrite (wordPage a) (wordOff a) src

/-! ### Counters -/

/-- The live value of counter `i` of a page. -/
def Box.ctr (s : Box) (p : Page) (i : Nat) : BitVec 64 := mapGet (fun _ => 0) s.ctrs (p * 4096 + i)

/-- The overflow bit of counter `i` of a page (R383). -/
def ovfFld (p : Page) (i : Nat) : Fld := pageFld p (0x1100 + 4 * (i / 32)) (i % 32) 1

/-- Adds to a counter; a carry out of bit 63 sets its overflow bit and the page's overflow cause (R383). -/
def Box.bump (s : Box) (p : Page) (i n : Nat) : Box :=
  let v := (s.ctr p i).toNat + n
  let s1 := { s with ctrs := mapSet (fun _ => 0) s.ctrs (p * 4096 + i) (BitVec.ofNat 64 v) }
  if 2 ^ 64 ≤ v then (s1.put (ovfFld p i) true).raiseInt p 30 else s1

/-- Adds one to a counter. -/
def Box.count (s : Box) (p : Page) (i : Nat) : Box := s.bump p i 1

/-! ### Block codes (R417) -/

/-- The LNK page of a tent. -/
def lnkPage (t : Nat) : Page := tentPage t 0x01
/-- The FWD page of a tent. -/
def fwdPage (t : Nat) : Page := tentPage t 0x02
/-- The TRN page of a tent. -/
def trnPage (t : Nat) : Page := tentPage t 0x03
/-- The USH page of a tent, copy 0. -/
def ushPage (t : Nat) : Page := tentPage t 0x04
/-- The USH page of a tent, copy 1. -/
def ushPage1 (t : Nat) : Page := tentPage t 0x24
/-- The CAL page of a tent. -/
def calPage (t : Nat) : Page := tentPage t 0x05
/-- The CAR page of a tent. -/
def carTentPage (t : Nat) : Page := tentPage t 0x07
/-- The TMB page of a tent. -/
def tmbTentPage (t : Nat) : Page := tentPage t 0x08
/-- The TGT page of a tent. -/
def tgtTentPage (t : Nat) : Page := tentPage t 0x09
/-- The SPT page of a tent. -/
def sptPage (t : Nat) : Page := tentPage t 0x0A
/-- The MEM page of a tent. -/
def memPage (t : Nat) : Page := tentPage t 0x0C
/-- The BRK page of a tent. -/
def brkPage (t : Nat) : Page := tentPage t 0x0E
/-- The MDW page. -/
def mdwPage : Page := btPage 0x06
/-- The CAR page of Big Top. -/
def carPage : Page := btPage 0x07
/-- The TMB page of Big Top. -/
def tmbPage : Page := btPage 0x08
/-- The TGT page of Big Top. -/
def tgtPage : Page := btPage 0x09
/-- The SNT page. -/
def sntPage : Page := btPage 0x0D
/-- The MGT page. -/
def mgtPage : Page := btPage 0x0F
/-- The CXL page. -/
def cxlPage : Page := btPage 0x10
/-- The SEC page. -/
def secPage : Page := btPage 0x11
/-- The PWR page. -/
def pwrPage : Page := btPage 0x12

/-! ### Port slots and modes (01_architecture.md R13) -/

/-- The mode of the fibre pair that holds a slot (R28). -/
def Box.slotMode (s : Box) (p : Nat) : Nat := s.rd (LNK_FP_MODE_MODE (p / 4))

/-- A slot that is a port in its fibre pair's current mode (R13). -/
def Box.isPort (s : Box) (p : Nat) : Bool :=
  match s.slotMode p with
  | 1 => p % 4 == 0
  | 2 => p % 2 == 0
  | 3 => true
  | _ => false

/-- The slots that are ports in the modes in force, in the order of their pairs: a pair whose mode is not listed is off. -/
def Box.portSlots (s : Box) : List Nat :=
  (s.regs.flatMap fun e =>
    let t := e.1 / 0x1000000
    let o := e.1 % 0x1000000
    if 1 ≤ t ∧ t ≤ 8 ∧ 0x10200 ≤ o ∧ o < 0x10300 then
      [0, 1, 2, 3].map fun i => 4 * (64 * (t - 1) + (o - 0x10200) / 4) + i
    else []).filter s.isPort

/-- Counts an event of a port slot: nothing where the slot is no port (R454). -/
def Box.countPort (s : Box) (pg : Page) (i p n : Nat) : Box := if s.isPort p then s.bump pg i n else s

/-- LNK counter `k` of a port (R467). -/
def Box.lnkCount (s : Box) (k p : Nat) : Box := s.countPort (lnkPage (p / 256)) (256 * k + p % 256) p 1

/-- FWD discard counter `k` of an ingress port (R467). -/
def Box.fwdCount (s : Box) (k p : Nat) : Box := s.countPort (fwdPage (p / 256)) (256 * k + p % 256) p 1

/-- CAL counter `k` of an egress port, by `n` (R467). -/
def Box.calCount (s : Box) (k p n : Nat) : Box := s.countPort (calPage (p / 256)) (256 * k + p % 256) p n

/-- CAR discard counter `k` of a port on its tent's page (R467). -/
def Box.carCount (s : Box) (k p : Nat) : Box := s.countPort (carTentPage (p / 256)) (256 * k + p % 256) p 1

/-! ### Time (R18, 09_network_time.md R259) -/

/-- The difference of a tent's replica from the master, in ticks. -/
def Box.replOff (s : Box) (t : Nat) : Int := mapGet (fun _ => 0) s.repl t

/-- A rate is at most 2^34 in magnitude (R259). -/
def clampRate (r : Int) : Int := max (-(2 ^ 34)) (min (2 ^ 34) r)

/-- An anchor of fabric time with the RATE from it on (R258): F_a in 2^-48 tk, n_a, RATE in 2^-48. -/
structure Anchor where
  fa   : Int
  na   : Int
  rate : Int
  deriving DecidableEq, Repr

/-- F at the raw tick count `n`, in 2^-48 tk (R258). -/
def Anchor.time (x : Anchor) (n : Int) : Int := x.fa + (n - x.na) * (2 ^ 48 + x.rate)

/-- The anchor after a change at its apply tick (R258, R259, R263). -/
def Anchor.change (x : Anchor) (a : Apply) : Anchor :=
  { fa := match a.set, a.step with
      | some v, _ => (v : Int) * 2 ^ 48
      | none, some d => x.time a.at_ + d * 2 ^ 43
      | none, none => x.time a.at_,
    na := a.at_,
    rate := match a.rate with
      | some r => clampRate r
      | none => x.rate }

/-- The anchor in force at the raw tick count `n`: a change applies at its apply tick before any instant is evaluated there,
whether or not its other effects have been carried out (R259). -/
def Box.anchor (s : Box) (n : Int) : Anchor :=
  (s.applies.filter fun a => decide ((a.at_ : Int) ≤ n)).foldl Anchor.change ⟨s.fa, s.na, s.rate⟩

/-- Fabric time at the raw tick count `n`, in 2^-48 tk (R258). -/
def Box.fabric48 (s : Box) (n : Int) : Int := (s.anchor n).time n

/-- Fabric time `sub` thirty-seconds of a tick after the raw tick count `n`, truncated to 1/32 tk (R260). -/
def Box.fabric32 (s : Box) (n : Int) (sub : Nat) : Nat :=
  ((s.fabric48 n + sub * (2 ^ 48 + (s.anchor n).rate) / 32) / 2 ^ 43 % 2 ^ 69).toNat

/-- The whole fabric tick of the master now, modulo 2^64. -/
def Box.nowTick (s : Box) : Nat := (s.fabric48 s.raw / 2 ^ 48 % 2 ^ 64).toNat

/-- The tick of a tent's replica counter (R18; 05_egress_scheduling.md R121). -/
def Box.replTick (s : Box) (t : Nat) : Nat := ((s.raw + s.replOff t) % 2 ^ 64).toNat

/-- The whole fabric tick a tent reads on its replica now. -/
def Box.tentTick (s : Box) (t : Nat) : Nat := (s.fabric48 (s.raw + s.replOff t) / 2 ^ 48 % 2 ^ 64).toNat

/-- A lane timestamp of a tent in 1/32 tk: its replica's fabric time `sub` thirty-seconds of a tick into the tick (R260). -/
def Box.tent32 (s : Box) (t sub : Nat) : Nat := s.fabric32 (s.raw + s.replOff t) sub

/-- The same as tick and part. -/
def Box.laneStamp (s : Box) (t sub : Nat) : Stamp := ⟨s.tent32 t sub / 32, s.tent32 t sub % 32, s.tentTick t⟩

/-- The master's fabric time in 1/32 tk. -/
def Box.now32 (s : Box) (sub : Nat) : Nat := s.fabric32 s.raw sub

/-! ### Free values -/

/-- Takes the next index of a free value.
DESIGN CHOICE, log entry 3. -/
def Box.takeFree (s : Box) : Nat × Box := (s.freeCtr, { s with freeCtr := s.freeCtr + 1 })

/-! ### Records -/

/-- The link record of a port slot. -/
def Box.port (s : Box) (p : Nat) : Port := mapGet (fun _ => {}) s.ports p
/-- Replaces the link record of a port slot. -/
def Box.setPort (s : Box) (p : Nat) (x : Port) : Box := { s with ports := mapSet (fun _ => {}) s.ports p x }
/-- The record of a tent. -/
def Box.tent (s : Box) (t : Nat) : Tent := mapGet (fun _ => {}) s.tents t
/-- Replaces the record of a tent. -/
def Box.setTent (s : Box) (t : Nat) (x : Tent) : Box := { s with tents := mapSet (fun _ => {}) s.tents t x }
/-- Calliope's record of a port. -/
def Box.cal (s : Box) (p : Nat) : Cal := mapGet (fun _ => {}) s.cals p
/-- Replaces Calliope's record of a port. -/
def Box.setCal (s : Box) (p : Nat) (x : Cal) : Box := { s with cals := mapSet (fun _ => {}) s.cals p x }
/-- The staging of an egress port and VC, keyed port * 8 + VC. -/
def Box.staged (s : Box) (k : Nat) : List Staged := mapGet (fun _ => []) s.staging k
/-- Replaces the staging of an egress port and VC. -/
def Box.setStaged (s : Box) (k : Nat) (x : List Staged) : Box :=
  { s with staging := mapSet (fun _ => []) s.staging k x }
/-- The port is up. -/
def Box.up (s : Box) (p : Nat) : Bool := s.is (LNK_PORT_STATUS_UP p)
/-- The agreed minor version of a port's link (R58). -/
def Box.minor (s : Box) (p : Nat) : Nat := s.rd (LNK_PORT_STATUS_VER p) % 4
/-- All port slots. -/
def allSlots : List Nat := List.range 2048

end Sys2Proof.Machine
end

