-- ==== Sys2Proof/Machine/Operands.lean ====
section
/-!
DEFINITION. What the wire carries: frame headers and trailers (02_itzal_link.md R47, R50, R53), flits (R34),
control messages (R35) and capability blocks (R57), read and built byte by byte, most significant byte first.
-/

namespace Sys2Proof.Machine

/-! ### Frames -/

/-- Header word `i` of a frame (R47). -/
def frW (f : Frame) (i : Nat) : Nat := beAt f (4 * i) 4
/-- VMAJ, as coded: 1 stands for version 1. -/
def frVmaj (f : Frame) : Nat := natField (frW f 0) 30 2
/-- VMIN. -/
def frVmin (f : Frame) : Nat := natField (frW f 0) 28 2
/-- FKIND. -/
def frKind (f : Frame) : Nat := natField (frW f 0) 24 4
/-- The virtual channel. -/
def frVc (f : Frame) : Nat := natField (frW f 0) 21 3
/-- The ordered channel; 0 is unordered. -/
def frOch (f : Frame) : Nat := natField (frW f 0) 13 8
/-- Payload length in 64-byte units. -/
def frPlen (f : Frame) : Nat := natField (frW f 0) 6 7
/-- The destination address. -/
def frDst (f : Frame) : Nat := frW f 1
/-- The source address. -/
def frSrc (f : Frame) : Nat := frW f 2
/-- HOPS of the hop words. -/
def frHops (f : Frame) : Nat := natField (frW f 14) 24 4
/-- BTAG of the hop words. -/
def frBtag (f : Frame) : Bool := (frW f 14).testBit 29
/-- CMARK of the hop words. -/
def frCmark (f : Frame) : Bool := (frW f 14).testBit 30
/-- CODE of a kind 4 frame (R51). -/
def frCode (f : Frame) : Nat := natField (frW f 4) 24 8
/-- GROUP (R50). -/
def frGroup (f : Frame) : Nat := natField (frW f 4) 18 14
/-- STREAM. -/
def frStream (f : Frame) : Nat := natField (frW f 4) 4 12
/-- CEPOCH. -/
def frCepoch (f : Frame) : Nat := natField (frW f 5) 16 16
/-- MEPOCH. -/
def frMepoch (f : Frame) : Nat := natField (frW f 5) 0 16
/-- LEAF. -/
def frLeaf (f : Frame) : Nat := natField (frW f 6) 12 20
/-- FMT. -/
def frFmt (f : Frame) : Nat := natField (frW f 6) 8 4
/-- PFORM. -/
def frPform (f : Frame) : Nat := natField (frW f 6) 4 4
/-- ELEMOFF. -/
def frElemOff (f : Frame) : Nat := frW f 7
/-- LSPAN. -/
def frLspan (f : Frame) : Nat := natField (frW f 8) 12 20
/-- NELEM. -/
def frNelem (f : Frame) : Nat := natField (frW f 9) 16 16
/-- FPRINT. -/
def frFprint (f : Frame) : BitVec 64 := BitVec.ofNat 64 (beAt f 40 8)
/-- The payload bytes. -/
def frPayload (f : Frame) : List Byte := (f.drop 64).take (64 * frPlen f)
/-- The frame tag of the trailer (R53). -/
def frTag (f : Frame) : Nat := beAt f (64 + 64 * frPlen f) 4
/-- The CRC-32C of the trailer. -/
def frCrc (f : Frame) : Nat := beAt f (68 + 64 * frPlen f) 4
/-- The length a PLEN gives (R37). -/
def frameLen (plen : Nat) : Nat := 72 + 64 * plen
/-- The cells a frame of `n` bytes costs (R43). -/
def cellsOf (n : Nat) : Nat := ceilDiv n 256
/-- Transfers of a frame across Midway: one per cell. -/
def frCells (f : Frame) : Nat := cellsOf f.length

/-- The CRC-32C a frame should carry: the hop words count as zeros (R53). -/
def frameCrc (f : Frame) : Word :=
  crc32c (f.take 56 ++ List.replicate 8 0 ++ (f.drop 64).take (64 * frPlen f + 4))

/-- The end-to-end CRC of a consumed frame is right (R54). -/
def frCrcOk (f : Frame) : Bool := (frameCrc f).toNat == frCrc f

/-- A frame with hop word W14 replaced. -/
def frWithHop (f : Frame) (w : Nat) : Frame := listPut f 56 (bytesBE 4 w)

/-- Header word 0 of an originated frame: VMAJ 1, reserved bits 0 (R493). -/
def frWord0 (vmin kind vc och plen : Nat) : Nat :=
  2 ^ 30 + vmin % 4 * 2 ^ 28 + kind % 16 * 2 ^ 24 + vc % 8 * 2 ^ 21 + och % 256 * 2 ^ 13 + plen % 128 * 2 ^ 6

/-- A frame built from its sixteen header words, payload (padded to whole units) and tag, its CRC computed. -/
def mkFrame (ws : List Nat) (payload : List Byte) (tag : Nat) : Frame :=
  let body := ws.flatMap (bytesBE 4) ++ payload ++ bytesBE 4 tag
  body ++ bytesBE 4 (frameCrc body).toNat

/-- A payload padded with zeros to whole 64-byte units. -/
def padPayload (bs : List Byte) : List Byte := padTo (64 * ceilDiv bs.length 64) 0 bs

/-- A link-local or routed control frame that the S9 originates: VMIN 0, reserved words 0 (R80, R493). -/
def mkControl (kind dst src : Nat) (w4to11 : List Nat) (payload : List Byte) (tag : Nat) : Frame :=
  let pay := padPayload payload
  mkFrame ([frWord0 0 kind 5 0 (pay.length / 64), dst, src, 0] ++ padTo 8 0 w4to11 ++ [0, 0, 0, 0]) pay tag

/-- The tag of a frame replaced and its CRC computed again (R54: the trailer is made once the port is known). -/
def frRetag (f : Frame) (tag : Nat) : Frame :=
  let g := listPut f (64 + 64 * frPlen f) (bytesBE 4 tag)
  listPut g (68 + 64 * frPlen f) (bytesBE 4 (frameCrc g).toNat)

/-- The minimum minor version of a frame kind (R48). -/
def kindMinMinor (k : Nat) : Nat :=
  match k with
  | 1 | 2 | 3 => 1
  | 6 => 2
  | _ => 0

/-- The virtual channels a frame kind may use (R48). -/
def kindVcOk (k v : Nat) : Bool :=
  match k with
  | 0 => v == 0 || v == 1 || v == 2 || v == 6
  | 1 => v == 3
  | 2 | 3 | 6 => v == 4
  | 4 | 5 => v == 5
  | _ => false

/-! ### Flits -/

/-- The 64-bit flit header (R34). -/
def flHdr (b : List Byte) : Nat := beAt b 0 8
/-- FTYPE. -/
def flType (b : List Byte) : Nat := natField (flHdr b) 60 4
/-- SEQ. -/
def flSeq (b : List Byte) : Nat := natField (flHdr b) 44 16
/-- ACK. -/
def flAck (b : List Byte) : Nat := natField (flHdr b) 28 16
/-- FSTART. -/
def flFstart (b : List Byte) : Nat := natField (flHdr b) 19 5
/-- CVC. -/
def flCvc (b : List Byte) : Nat := natField (flHdr b) 16 3
/-- CCUM. -/
def flCcum (b : List Byte) : Nat := natField (flHdr b) 0 16
/-- The body, 240 bytes. -/
def flBody (b : List Byte) : List Byte := (b.drop 8).take 240
/-- The extension word. -/
def flExt (b : List Byte) : Nat := beAt b 248 4
/-- The link CRC is right (R36). -/
def flCrcOk (b : List Byte) : Bool := (crc32 (b.take 252)).toNat == beAt b 252 4

/-- A flit from its header fields, body and extension word, with its link CRC (R34, R36). -/
def mkFlit (ftype seq ack fstart cvc ccum : Nat) (body : List Byte) (ext : Nat) : List Byte :=
  let h := ftype % 16 * 2 ^ 60 + seq % 65536 * 2 ^ 44 + ack % 65536 * 2 ^ 28 + fstart % 32 * 2 ^ 19
    + cvc % 8 * 2 ^ 16 + ccum % 65536
  let b := bytesBE 8 h ++ padTo 240 0 body ++ bytesBE 4 ext
  b ++ bytesBE 4 (crc32 b).toNat

/-- Control message RETRY_REQ (R35). -/
def msgRetryReq (seq : Nat) : List Byte := 0x01 :: bytesBE 2 seq
/-- Control message LANE_MAP_REQ: flags, map in three bits a lane, switch slot. -/
def msgLaneReq (force : Bool) (map t : Nat) : List Byte :=
  0x02 :: (bytesBE 1 (b2n force) ++ bytesBE 2 map ++ bytesBE 4 t)
/-- Control message LANE_MAP_ACK. -/
def msgLaneAck (t : Nat) : List Byte := 0x03 :: ([0, 0, 0] ++ bytesBE 4 t)
/-- Control message LANE_MAP_NAK. -/
def msgLaneNak (reason t : Nat) : List Byte := 0x04 :: (bytesBE 1 reason ++ [0, 0] ++ bytesBE 4 t)
/-- Control message LANE_FAIL. -/
def msgLaneFail (lane : Nat) : List Byte := 0x05 :: bytesBE 1 lane
/-- Control message PAUSE. -/
def msgPause (len : Nat) : List Byte := 0x06 :: bytesBE 3 len
/-- Control message RESUME. -/
def msgResume : List Byte := [0x07]

/-- The lanes of a map that are in use, in order: wavelength codes 0 to 4, 7 is unused (R35). The logical lanes 0 to N - 1 of
R33 are these, counted over the entries in use.
DESIGN CHOICE, log entry 166. -/
def mapLanes (m : Nat) : List Nat := ([9, 6, 3, 0].map fun lo => natField m lo 3).filter (· ≤ 4)
/-- The wavelength of logical lane `i` of a map. -/
def mapLane (m i : Nat) : Nat := natField m (9 - 3 * i) 3
/-- A map with logical lane `i` given wavelength `w`. -/
def mapWithLane (m i w : Nat) : Nat := m - mapLane m i * 2 ^ (9 - 3 * i) + w % 8 * 2 ^ (9 - 3 * i)

/-! ### Capability blocks (R57) -/

/-- The wavelengths of a port by its slot within the fibre pair and the pair's mode (R13). -/
def portLanes (mode p : Nat) : List Nat :=
  match mode with
  | 1 => [0, 1, 2, 3]
  | 2 => if p % 4 = 0 then [0, 1] else [2, 3]
  | 3 => [p % 4]
  | _ => []

/-- The retry buffer's depth in a mode (R39). -/
def retryDepth (mode : Nat) : Nat :=
  match mode with
  | 1 => 4096
  | 2 => 2048
  | 3 => 1024
  | _ => 0

/-- The kind 4 to S9 device code, serial and slot of a block. -/
def blkKind (b : List Byte) : Nat := beAt b 5 1
/-- The partner's initial credit of a VC. -/
def blkCredit (b : List Byte) (v : Nat) : Nat := beAt b (18 + 2 * v) 2
/-- The block without its echo flag: what must arrive identical twice (R57 byte 35). -/
def blkCore (b : List Byte) : List Byte := b.take 35 ++ b.drop 36

end Sys2Proof.Machine
end

