-- ==== Sys2Proof/Machine/Ops.lean ====
section
/-!
DEFINITION. Operations that several families share: exported timestamps (09_network_time.md R261), the record
queues of Big Top (12_faults.md R359, R366, R368, R381), the landing and returning of credit (02_itzal_link.md
R43) and what a frame that the S9 originates on a port needs.
-/

namespace Sys2Proof.Machine

/-! ### How a command acts -/

/-- The outcome of a command. -/
abbrev Result := Host.Outcome State Fault Refusal

/-- What only the clock, the power pins, the resets and the fuse engine reach, taken from `a`: the raw tick counter, the
fuses, the rails, the reference and the straps (09_network_time.md R257; 15_boot_security.md R428, R438;
17_electrical_package.md R468, R472, R473, R477). -/
def Box.anchored (b a : Box) : Box :=
  { b with raw := a.raw, fuses := a.fuses, pwrOk := a.pwrOk, railsBad := a.railsBad, refLost := a.refLost, straps := a.straps }

/-- A command acts on the block; the clock, the fuses and the power pins stay as they are.
DESIGN CHOICE, log entry 14. -/
def State.onBox (s : State) (f : Box → Box) : State := { s with toBox := (f s.toBox).anchored s.toBox }

/-- A power, reset or fuse command acts on the whole part. -/
def State.onPart (s : State) (f : Box → Box) : State := { s with toBox := f s.toBox }

/-- The device has power and no reset source holds it. -/
def Phase.alive : Phase → Bool
  | .held => false
  | .tripped => false
  | _ => true

/-- A command acts while the device is out of reset; a held or tripped device takes no notice of it (R428, R480). -/
def State.act (s : State) (f : Box → Box) : Result := .next (if s.phase.alive then s.onBox f else s)

/-- The same for a reset or fuse command. -/
def State.actPart (s : State) (f : Box → Box) : Result := .next (if s.phase.alive then s.onPart f else s)

/-- A command acts while the device runs: not while it is held, in a reset's quiesce interval, fail-stopped or
tripped (R378, R430).
DESIGN CHOICE, log entry 15. -/
def State.actRun (s : State) (f : Box → Box) : Result := .next (if s.phase = .run then s.onBox f else s)

/-- Whether a write of the register word at `a` is taken while the device is fail-stopped: MGT_DUMP_CMD, INT_PEND,
INT_EN and CNT_CTRL of any page, and the CXL page (R419). -/
def frozenWritable (a : Nat) : Bool :=
  a == MGT_DUMP_CMD_at || a % 0x10000 == 0x10 || a % 0x10000 == 0x14 || a % 0x10000 == 0x1000
    || addrPage a == cxlPage

/-- A register write passes the gates every page has: while the device is fail-stopped it is ignored without an
indication but for the registers R419 names, and while the page is not READY it is ignored with the access-error
indication but for the common header (R453).
DEDUCED, log entry 16. -/
def Box.gateWrite (s : Box) (a : Nat) (src : Requester) (f : Box → Box) : Box :=
  let p := wordPage a
  if s.phase = .failStopped ∧ frozenWritable a = false then s
  else if s.is (PAGE_STATUS_READY p) = false ∧ 0x100 ≤ wordOff a then s.accErr p (wordOff a) src
  else f s

/-- A requester's accesses reach the device: the driver's while the CXL link is up (14_host_mgmt.md R426).
DESIGN CHOICE, log entry 26. -/
def Box.reaches (s : Box) (src : Requester) : Bool := src != .driver || s.rd CXL_LINK_STATUS_WIDTH != 0

/-- A command of a requester acts where it reaches the device. -/
def State.actHost (s : State) (src : Requester) (f : Box → Box) : Result := s.act fun b => if b.reaches src then f b else b

/-- A command that writes the register word at `a` for a requester. -/
def State.actReg (s : State) (a : Nat) (src : Requester) (f : Box → Box) : Result :=
  s.actHost src fun b => b.gateWrite a src f

/-! ### Exported timestamps -/

/-- The 96-bit exported form of a timestamp (R261). -/
def stampWord (tick sub : Nat) : Nat :=
  let v := tick % 640000000 * 102400 + sub * 3200
  tick / 640000000 % 2 ^ 48 * 2 ^ 48 + v / 65536 * 2 ^ 16 + v % 65536

/-- A timestamp in a little-endian structure of device memory: 12 bytes (R261, R7). -/
def stampLE (x : Stamp) : List Byte := bytesLE 12 (stampWord x.tick x.sub)

/-- A timestamp in 1/32 tk. -/
def stamp32 (x : Stamp) : Nat := x.tick * 32 + x.sub

/-! ### The record queues of Big Top -/

/-- A ring of records in a page's window: its number in `qlens`, the window's BAR0 offset, its records and the
bytes of each, the index fields. -/
structure RecQueue where
  ix   : Nat
  base : Nat
  recs : Nat
  size : Nat
  head : Fld
  tail : Fld
  deriving DecidableEq, Repr

/-- The flushed-result queue (R366, R382). -/
def flushQueue : RecQueue := ⟨0, SNT_FQ_at 0, 1024, 16, SNT_FQ_HEAD_INDEX, SNT_FQ_TAIL_INDEX⟩
/-- The fault event queue (R359, R381). -/
def faultQueue : RecQueue := ⟨1, MGT_FQ_at 0, 1024, 16, MGT_FQ_HEAD_INDEX, MGT_FQ_TAIL_INDEX⟩
/-- The suspect queue (R368, R381). -/
def suspectQueue : RecQueue := ⟨2, MGT_SQ_at 0, 256, 32, MGT_SQ_HEAD_INDEX, MGT_SQ_TAIL_INDEX⟩

/-- Records a queue holds.
DESIGN CHOICE, log entry 35. -/
def Box.queued (s : Box) (q : RecQueue) : Nat := mapGet (fun _ => 0) s.qlens q.ix

/-- Sets the number of records a queue holds. -/
def Box.setQueued (s : Box) (q : RecQueue) (n : Nat) : Box :=
  { s with qlens := mapSet (fun _ => 0) s.qlens q.ix n }

/-- Writes the words of a register window. -/
def Box.setWords (s : Box) (a : Nat) : List Word → Box
  | [] => s
  | w :: ws => Box.setWords (s.setWord a w) (a + 4) ws

/-- Appends a record; a full queue drops it and counts it in counter `i` of `p`, with MGT cause 3 for the queues of MGT
(R366, R381; 16_registers.md R465). -/
def Box.post (s : Box) (q : RecQueue) (p : Page) (i : Nat) (rec : List Byte) : Box :=
  if q.recs ≤ s.queued q then (if p = mgtPage then (s.count p i).raiseInt p 3 else s.count p i)
  else
    let h := s.rd q.head
    ((s.setWords (q.base + q.size * h) (wordsLE rec)).wr q.head ((h + 1) % q.recs)).setQueued q (s.queued q + 1)

/-- A BMT message (R422) of an operation, count and sequence number: SPACE and ADDR come from `r`, since what an answer or an
EVENT holds there is not stated.
DESIGN CHOICE, log entry 140. -/
def bmtMessage (op count seq r : Nat) (data : List Byte) : List Byte :=
  bytesBE 1 1 ++ bytesBE 1 op ++ bytesBE 2 count ++ bytesBE 4 seq ++ bytesBE 1 (r / 2 ^ 32) ++ [0, 0, 0] ++ bytesBE 4 r ++ data

/-- A record also goes to the BMT collector as an EVENT, where one has subscribed (R422): over VC6 it waits for its frame.
DESIGN CHOICE, log entry 140. -/
def Box.bmtEvent (s : Box) (rec : List Byte) : Box :=
  match s.collector with
  | none => s
  | some (.ethernet, a) => s.emit (.bmtEvent a rec)
  | some (.vc6, a) =>
    let r (i : Nat) : Nat := (Config.freeBits (s.freeCtr + i)).toNat
    { s with freeCtr := s.freeCtr + 2, vc6Q := s.vc6Q ++ [(a.toNat, bmtMessage 5 (rec.length / 4) (r 0) (r 1) rec)] }

/-- A fault or suspect record is an entry of the firmware log, which Syslog sends where the port has an address (R421), and an EVENT
of the collector.
DESIGN CHOICE, log entry 175. -/
def Box.bmtNotify (s : Box) (rec : List Byte) : Box := (if s.ip.isSome then s.emit (.syslog rec) else s).bmtEvent rec

/-- Enters the loss of a result frame in the flushed-result queue and raises SNT cause 2 (R366, R465). -/
def Box.postFlushed (s : Box) (stream cepoch chunk part port reason : Nat) : Box :=
  let r := bytesLE 2 stream ++ bytesLE 2 cepoch ++ bytesLE 4 chunk ++ bytesLE 1 part ++ bytesLE 2 port
    ++ bytesLE 1 reason ++ bytesLE 4 0
  let s' := s.post flushQueue sntPage 2 r
  if s.queued flushQueue = 0 then s'.raiseInt sntPage 2 else s'

/-- The junction temperature of a die in whole degrees, rounded down (17_electrical_package.md R490).
DEDUCED, log entry 126. -/
def Box.dieDegrees (s : Box) (d : Nat) : Int := toSigned 16 (s.rd (PWR_TJ_TJ d)) / 8

/-- The same as the signed byte of a fault event (R381). -/
def Box.dieTemp (s : Box) (d : Nat) : Nat := ofSigned 8 (s.dieDegrees d)

/-- Posts a fault event (R359): class, cause, unit, tent (8 for Big Top), pattern; MGT cause 1.
DESIGN CHOICE, log entry 60. -/
def Box.postFault (s : Box) (cls cause unit tent pattern : Nat) : Box :=
  let r := bytesLE 8 s.raw ++ bytesLE 1 cls ++ bytesLE 1 cause ++ bytesLE 2 unit ++ bytesLE 1 tent
    ++ bytesLE 1 (s.dieTemp tent) ++ bytesLE 1 pattern ++ [0]
  let ev : FaultEvent := ⟨cls, unit, tent, s.raw, s.dieTemp tent⟩
  let span := max (s.rd MGT_FAULT_CFG_LONG * 3600) (s.rd MGT_FAULT_CFG_WINDOW) * 640000000
  let keep (e : FaultEvent) : Bool := decide (s.raw ≤ e.raw + span)
  let s1 : Box := { s with events := s.events.filter keep ++ [ev] }
  ((s1.post faultQueue mgtPage 1 r).bmtNotify r).raiseInt mgtPage 1

/-- Events of one resource, those less than 640,000 raw ticks after the one before counting as one (R359). -/
def clusterEvents : Option Nat → List FaultEvent → List FaultEvent
  | _, [] => []
  | last, e :: es =>
    let joined := match last with
      | some r => decide (e.raw < r + 640000)
      | none => false
    if joined then clusterEvents (some e.raw) es else e :: clusterEvents (some e.raw) es

/-- Windows of a resource's events in one temperature band, numbered (R361). -/
def bandWindows (window band : Nat) (b : Int) (es : List FaultEvent) : List Nat :=
  ((es.filter fun e => toSigned 8 e.temp / (band : Int) == b).map fun e => e.raw / window).eraseDups

/-- A resource is lasting: THRESH events within WINDOW seconds, or THRESH distinct windows of one temperature band
within LONG hours (R359, R361). -/
def Box.lasting (s : Box) (cls unit tent : Nat) : Bool :=
  let es := clusterEvents none (s.events.filter fun e => e.cls == cls && e.unit == unit && e.tent == tent)
  let window := s.rd MGT_FAULT_CFG_WINDOW * 640000000
  let band := s.rd MGT_FAULT_CFG_BAND
  let th := s.rd MGT_FAULT_CFG_THRESH
  decide (th ≤ (es.filter fun e => decide (s.raw < e.raw + window)).length)
    || es.any fun e => decide (th ≤ (bandWindows window band (toSigned 8 e.temp / (band : Int)) es).length)

/-- Posts a suspect record (R368) and raises MGT cause 0. -/
def Box.postSuspect (s : Box) (kind port stream cepoch mepoch contrib chunk : Nat) : Box :=
  let r := bytesLE 1 kind ++ [0] ++ bytesLE 2 port ++ bytesLE 2 stream ++ bytesLE 2 cepoch ++ bytesLE 2 mepoch
    ++ bytesLE 2 contrib ++ bytesLE 4 chunk ++ bytesLE 8 s.nowTick ++ bytesLE 8 0
  ((s.post suspectQueue mgtPage 2 r).bmtNotify r).raiseInt mgtPage 0

/-! ### The scheduling envelope (07_determinism_audit.md R190) -/

/-- A gate list runs on the port (R132). -/
def Box.listRuns (s : Box) (p : Nat) : Bool := s.is (CAL_GL_STATUS_RUNNING p)

/-- A condition of a port's envelope breaks: the sticky bit is set, and CAL cause 4 when it was clear (R190, R216, R465). -/
def Box.envBreak (s : Box) (p bit : Nat) : Box :=
  let f : Fld := { CAL_SCHED_STATUS_ENV p with lo := bit }
  if s.is f then s else (s.put f true).raiseInt (calPage (p / 256)) 4

/-- The same for what R190 counts since the list started: a changed lane count, a PAUSE, a bypass mismatch, and the
conditions of gated VCs.
DEDUCED, log entries 61, 149. -/
def Box.envEvent (s : Box) (p bit : Nat) : Box := if s.listRuns p then s.envBreak p bit else s

/-- The ports on which a gate list runs. -/
def Box.listPorts (s : Box) : List Nat :=
  (s.regs.filterMap fun e =>
    if 0x20000000 ≤ e.1 ∧ (e.1 - 0x20000000) % 0x8000 = 0x408C then some ((e.1 - 0x20000000) / 0x8000) else none).filter
    fun p => s.listRuns p

/-- A condition breaks for every port of the tents given. -/
def Box.envBreakAll (s : Box) (ts : List Nat) (bit : Nat) : Box :=
  (s.portSlots.filter fun p => p / 256 ∈ ts).foldl (fun b p => b.envBreak p bit) s

/-- The class of a VC (04_buffers.md R116). -/
def Box.vcClass (s : Box) (t v : Nat) : Nat := wordField (s.word (USH_CLASS_at t)) (3 * v) 3

/-! ### Credit (R43) -/

/-- Adds `n` at index `i` of a list of counts modulo 65,536. -/
def addAt16 (l : List Nat) (i n : Nat) : List Nat := l.set i ((l.getD i 0 + n) % 65536)

/-- Cells freed for a VC come back as credit: CCUM rises (R43). -/
def Box.giveCredit (s : Box) (p v n : Nat) : Box :=
  let x := s.port p
  s.setPort p { x with freed := addAt16 x.freed v n }

/-- The initial credit of a VC on a port (R44, R460). -/
def Box.creditInit (s : Box) (p v : Nat) : Nat :=
  let a := match v / 2 with
    | 0 => LNK_CREDIT_INIT0_at p
    | 1 => LNK_CREDIT_INIT1_at p
    | 2 => LNK_CREDIT_INIT2_at p
    | _ => LNK_CREDIT_INIT3_at p
  wordField (s.word a) (if v % 2 = 0 then 16 else 0) 16

/-- A control message waits for the port's next transmit slot (R35). -/
def Box.sendCtl (s : Box) (p : Nat) (m : List Byte) : Box :=
  let x := s.port p
  s.setPort p { x with ctlQ := x.ctlQ ++ [m] }

/-! ### Originated control frames -/

/-- A frame that the S9 originates on a port is staged there whole, with the forwarding bank given, whatever room the staging has.
DESIGN CHOICE, log entry 171. -/
def Box.stageOwn (s : Box) (p bank : Nat) (g : Frame) : Box :=
  let n := frCells g
  let d : Desc := { id := s.descId, frame := g, tent := p / 256, inPort := none, egress := p, vc := frVc g,
                    cls := s.vcClass (p / 256) (frVc g),
                    cells := [], ncells := n, charge := .partition 8, pool := none, admitAt := 0,
                    bank := bank, fence := false, alone := false, spilled := false, bad := none,
                    corrupt := false, stamp := {}, trace := none }
  let st : Staged := { desc := d, total := n, arrived := n, cut := false, at_ := s.tent32 (p / 256) 0,
                       ready := s.tent32 (p / 256) 0, late := false, started := false, sentB := 0,
                       result := none, tries := 0 }
  let k := 8 * p + frVc g
  { s.setStaged k (s.staged k ++ [st]) with descId := s.descId + 1 }

/-- A control frame or notice that the S9 originates on a port is staged there with the port's count as its tag (R54). -/
def Box.originate (s : Box) (p : Nat) (f : Frame) : Box :=
  let x := s.port p
  (s.setPort p { x with ctags := (x.ctags + 1) % 2 ^ 32 }).stageOwn p (s.rd (FWD_EPOCH_STATUS_LIVE 0)) (frRetag f x.ctags)

/-! ### Management Ethernet -/

/-- A frame arrives on the management lane: beyond 50,000 in a second of the raw tick counter it is dropped and counted in
MGT_ETH_DISC (14_host_mgmt.md R421).
DEDUCED, log entry 145. -/
def Box.ethFrame (s : Box) (f : Box → Box) : Box :=
  let sec := s.raw / 640000000
  let n := if s.ethSecond.1 = sec then s.ethSecond.2 else 0
  let s1 : Box := { s with ethSecond := (sec, n + 1) }
  if 50000 ≤ n then s1.count mgtPage 4 else f s1

/-- TIME of a trigger unit (09_network_time.md R277). -/
def Box.trigTime (s : Box) (u : Nat) : Nat := s.rd (TGT_TRIG_TIME_HI_TIME u) * 2 ^ 32 + s.rd (TGT_TRIG_TIME_LO_TIME u)

/-- STATE of a microring of an engine by its status entry (10_optics.md R327). -/
def ringState (e i : Nat) : Fld := SPT_RING_STATE (e / 2) (512 * (e % 2) + i)

/-- Ports that are up and marked leaf-facing (R80, R457). -/
def Box.leafPorts (s : Box) : List Nat :=
  allSlots.filter fun p => s.up p && s.rd (LNK_PORT_CTRL_ROLE p) == 1

end Sys2Proof.Machine
end

