-- ==== Sys2Proof/Machine/Barker.lean ====
section
/-!
DEFINITION. Barker: samplers, their records and rings (13_counters.md R391 to R394), traced frames (R395, R396),
and the codes of a backlog (R398).
-/

namespace Sys2Proof.Machine

/-- The key of a GDDR7 byte: tent, region, offset. -/
def memKey (t r off : Nat) : Nat := (t * 8 + r) * 2 ^ 40 + off

/-- What a GDDR7 byte reads as where nothing has written it: initialisation leaves 0 (11_memory.md R335). -/
def memDflt : Nat → Byte := fun _ => 0

/-- Writes bytes into a region of a tent; a block written whole is poisoned no more (11_memory.md R334).
DESIGN CHOICE, log entry 118. -/
def Box.memWrite (s : Box) (t r off : Nat) (bs : List Byte) : Box :=
  let k := memKey t r off
  { s with mem := mapSetAll memDflt s.mem k bs,
           badBlocks := s.badBlocks.filter fun x => !(decide (k ≤ x.2) && decide (x.2 + 64 ≤ k + bs.length)) }

/-- Reads bytes of a region of a tent. -/
def Box.memRead (s : Box) (t r off n : Nat) : List Byte := mapRange memDflt s.mem (memKey t r off) n

/-- What the plan gives a region where nothing has changed it: the default of R340. -/
def planDflt (k : Nat) : Nat := regionResetMib (k / 8) (k % 8)

/-- The size of a region in MiB in the plan in force (11_memory.md R342, R347). -/
def Box.planSize (s : Box) (t r : Nat) : Nat := mapGet planDflt s.plans (8 * t + r)

/-- The MiB of a region that hold data: none while the tent has no usable memory (R332 step 7, R345).
DEDUCED, log entry 116. -/
def Box.regionMib (s : Box) (t r : Nat) : Nat := if s.rd (MEM_USABLE_MIB_MIB t) = 0 then 0 else s.planSize t r

/-- The same in bytes. -/
def Box.regionBytes (s : Box) (t r : Nat) : Nat := s.regionMib t r * 2 ^ 20

/-- A rebuild runs: every interleaved region of the tent counts as full (R346). -/
def Box.rebuilding (s : Box) (t : Nat) : Bool := s.is (MEM_PLAN_STATUS_REBUILD t)

/-! ### Random selection (R392) -/

/-- One step of the Galois register with taps 0x8020_0003. -/
def lfsrStep (x : Nat) : Nat := if x % 2 = 1 then (x / 2) ^^^ 0x80200003 else x / 2

/-- `n` steps. -/
def lfsrSteps : Nat → Nat → Nat
  | 0, x => x
  | n + 1, x => lfsrSteps n (lfsrStep x)

/-- `draw()`: advance 32 steps until the low bits are not all ones; the bound on the tries is never reached by
a register of full period. -/
def lfsrDraw (n : Nat) : Nat → Nat → Nat × Nat
  | 0, x => (x, 0)
  | fuel + 1, x =>
    let y := lfsrSteps 32 x
    if y % (2 * n) = 2 * n - 1 then lfsrDraw n fuel y else (y, y % (2 * n))

/-- A 32-bit value rotated left. -/
def rotl32 (x k : Nat) : Nat := (x * 2 ^ (k % 32) + x / 2 ^ (32 - k % 32)) % 2 ^ 32

/-- A sampler's record. -/
def Box.sampler (s : Box) (i : Nat) : Sampler := mapGet (fun _ => {}) s.samplers i
/-- Replaces a sampler's record. -/
def Box.setSampler (s : Box) (i : Nat) (x : Sampler) : Box :=
  { s with samplers := mapSet (fun _ => {}) s.samplers i x }

/-- Draws for sampler `k` of tent `t` with its LOG2N. -/
def Box.samplerDraw (s : Box) (t k : Nat) (x : Sampler) : Sampler :=
  let (y, c) := lfsrDraw (2 ^ s.rd (BRK_SMP_CFG_LOG2N t k)) 4096 x.lfsr
  { x with lfsr := y, c := c, c0 := c, fresh := false }

/-- Enabling a sampler seeds it: BRK_SEED rotated left by its number (R392). -/
def Box.samplerEnable (s : Box) (t k : Nat) : Box :=
  let x := s.sampler (16 * t + k)
  s.setSampler (16 * t + k) (s.samplerDraw t k { x with lfsr := rotl32 (s.rd (BRK_SEED_SEED t)) k })

/-- Sampler `k` of tent `t` is enabled, and its tent's samplers are. -/
def Box.samplerOn (s : Box) (t k : Nat) : Bool := s.is (BRK_CTRL_EN t) && s.is (BRK_SMP_CFG_EN t k)

/-- A frame on port `p` is eligible for a sampler at a point (R391). -/
def Box.eligible (s : Box) (t k point p : Nat) (f : Frame) : Bool :=
  s.samplerOn t k && s.rd (BRK_SMP_CFG_POINT t k) == point
    && (s.is (BRK_SMP_CFG_ALLPORTS t k) || s.rd (BRK_SMP_CFG_PORT t k) == p % 256)
    && (s.rd (BRK_SMP_FILT_VCMASK t k)).testBit (frVc f) && (s.rd (BRK_SMP_FILT_KINDMASK t k)).testBit (frKind f)

/-! ### Rings (R394) -/

/-- Bytes of the sample ring of a tent: SAMPLE_MIB of region 4, as far as the region in force reaches. -/
def Box.sampleRingBytes (s : Box) (t : Nat) : Nat := min (s.rd (BRK_RING_CFG_SAMPLE_MIB t) * 2 ^ 20) (s.regionBytes t 4)

/-- Writes a record to a ring in region 4: `some` state, or none where the record is dropped because the ring is
full and does not wrap, region 4 counts as full, or the tent has written 8 M records in this second. Record i lies at
position i modulo the ring's records.
DEDUCED, log entry 58; DESIGN CHOICE, log entry 59. -/
def Box.ringWrite (s : Box) (t base cap size : Nat) (head tail : Fld) (r : List Byte) : Option Box :=
  let h := s.rd head
  let full := (h + 2 ^ 32 - s.rd tail) % 2 ^ 32 ≥ cap
  let sec := s.raw / 640000000
  let x := s.tent t
  let n := if x.recs.1 = sec then x.recs.2 else 0
  if cap = 0 ∨ s.rebuilding t = true ∨ 8000000 ≤ n then none
  else
    let s1 := (s.setTent t { x with recs := (sec, n + 1) }).memWrite t 4 (base + h % cap * size) r
    if full then
      if s.is (BRK_CTRL_WRAP t) then some ((s1.wr head (h + 1)).wr tail (s.rd tail + 1)) else none
    else some (s1.wr head (h + 1))

/-- Writes a 320-byte sample record to the sample ring. -/
def Box.sampleRing (s : Box) (t : Nat) (r : List Byte) : Option Box :=
  s.ringWrite t 0 (s.sampleRingBytes t / 320) 320 (BRK_SRING_HEAD_INDEX t) (BRK_SRING_TAIL_INDEX t) r

/-- Writes a 64-byte trace record to the trace ring. -/
def Box.traceRing (s : Box) (t : Nat) (r : List Byte) : Option Box :=
  s.ringWrite t (s.sampleRingBytes t) ((s.regionBytes t 4 - s.sampleRingBytes t) / 64) 64
    (BRK_TRING_HEAD_INDEX t) (BRK_TRING_TAIL_INDEX t) r

/-- A record with its CRC-32C in bytes `at` to `at + 3`, over every other byte. -/
def sealCrc (r : List Byte) (at_ : Nat) : List Byte :=
  listPut r at_ (bytesLE 4 (crc32c (r.take at_ ++ r.drop (at_ + 4))).toNat)

/-- What a sample record reports of a frame (R393). -/
structure SampleInfo where
  frame   : Frame
  port    : Nat
  outPort : Option Nat
  disp    : Nat
  corrupt : Bool
  stamp   : Stamp
  qcells  : Nat
  deriving DecidableEq, Repr

/-- The 320-byte sample record (R393). -/
def sampleRecord (k point tent : Nat) (i : SampleInfo) (x : Sampler) : List Byte :=
  let hdr := bytesLE 1 1 ++ bytesLE 1 1 ++ bytesLE 1 (k + 128 * point) ++ bytesLE 1 tent ++ bytesLE 2 i.port
    ++ bytesLE 2 (i.outPort.getD 0xFFFF) ++ bytesLE 1 i.disp
    ++ bytesLE 1 (b2n (decide (256 < i.frame.length)) + 2 * b2n i.corrupt) ++ bytesLE 2 i.frame.length
    ++ bytesLE 4 x.seq ++ stampLE i.stamp ++ bytesLE 4 (x.c0 + 1) ++ bytesLE 4 x.lost ++ bytesLE 4 i.qcells
  sealCrc (padTo 64 0 hdr ++ padTo 256 0 i.frame) 60

/-- The records dropped since the last one written, after a record of which a copy was written, or dropped, at some
destination (R393).
DESIGN CHOICE, log entry 157. -/
def lostNext (lost : Nat) (written dropped : Bool) : Nat := (if written then 0 else lost) + b2n dropped

/-- Writes a selected frame's record to the destinations of DEST (R394). -/
def Box.sampleWrite (s : Box) (t k point : Nat) (i : SampleInfo) : Box :=
  let x := s.sampler (16 * t + k)
  let r := sampleRecord k point t i x
  let s0 := s.count (brkPage t) (2 * k)
  let dest := s.rd (BRK_SMP_CFG_DEST t k)
  let ring := if dest.testBit 0 then s0.sampleRing t r else none
  let full := decide (256 ≤ s0.smpq.length)
  let drop0 := dest.testBit 0 && ring.isNone
  let drop1 := dest.testBit 1 && full
  let s1 := if drop0 then (s0.count (brkPage t) (2 * k + 1)).raiseInt (brkPage t) 1 else ring.getD s0
  let s2 := s1.setSampler (16 * t + k)
    { x with seq := (x.seq + 1) % 2 ^ 32, lost := lostNext x.lost (ring.isSome || (dest.testBit 1 && !full)) (drop0 || drop1) }
  if drop1 then (s2.count mgtPage 3).raiseInt (brkPage t) 1
  else if dest.testBit 1 then
    { (s2.wr MGT_SMPQ_HEAD_INDEX (s2.rd MGT_SMPQ_HEAD_INDEX + 1)) with smpq := s2.smpq ++ [r] }
  else s2

/-- One sampler sees one frame at a point: it counts down, or selects it. The Boolean says that a TRACE sampler
tagged the frame (R392, R395). -/
def Box.sampleOne (s : Box) (t k point : Nat) (i : SampleInfo) : Box × Bool :=
  if s.eligible t k point i.port i.frame then
    let x0 := s.sampler (16 * t + k)
    let x := if x0.fresh then s.samplerDraw t k x0 else x0
    if x.c = 0 then
      let s1 := s.setSampler (16 * t + k) x
      let s2 := if s.is (BRK_SMP_CFG_TRACE t k) then s1 else s1.sampleWrite t k point i
      let y := s2.sampler (16 * t + k)
      (s2.setSampler (16 * t + k) (s2.samplerDraw t k y), s.is (BRK_SMP_CFG_TRACE t k))
    else (s.setSampler (16 * t + k) { x with c := x.c - 1 }, false)
  else (s, false)

/-- Every sampler of a tent sees a frame at a point; the first that tagged it. -/
def Box.samplePoint (s : Box) (t point : Nat) (i : SampleInfo) : Box × Option Nat :=
  (List.range 16).foldl (fun (b : Box × Option Nat) k =>
    let (s', g) := b.1.sampleOne t k point i
    (s', if b.2.isNone && g then some k else b.2)) (s, none)

/-! ### Traced frames (R395, R396) -/

/-- The frames a tent follows: those in its VOQs and granted to any staging, and the contributions that came by its ports, until a
sliver has taken them (R395). -/
def Box.tracedIn (s : Box) (t : Nat) : Nat :=
  (s.descs.filter fun d => d.tent = t ∧ d.trace.isSome).length
    + ((s.staging.flatMap (·.2)).countP fun x => decide (x.desc.tent = t) && x.desc.trace.isSome)
    + (s.ports.map fun e => if e.1 / 256 = t then e.2.steer.countP fun a => a.trace.isSome && a.dest.isNone else 0).sum
    + (s.slivers.map fun e => e.2.intake.countP fun q => decide (q.port / 256 = t) && q.trace.isSome).sum

/-- The stages of a trace as deltas from S0 in 1/32 tk, and whether one saturated. -/
def traceDeltas (x : Trace) : List Nat × Bool :=
  let ds := x.stages.map fun o => o.map fun v => v - stamp32 x.s0
  (ds.map fun o => min (o.getD 0xFFFFFFFF) 0xFFFFFFFF, ds.any fun o => decide (0xFFFFFFFF ≤ o.getD 0))

/-- The 64-byte trace record of a frame that leaves (R396). -/
def traceRecord (x : Trace) (outPort : Option Nat) (exit : Nat) (f : Frame) : List Byte :=
  let (ds, sat) := traceDeltas x
  sealCrc (bytesLE 1 1 ++ bytesLE 1 2 ++ bytesLE 2 x.inPort ++ bytesLE 2 (outPort.getD 0xFFFF) ++ bytesLE 1 exit
    ++ bytesLE 1 (b2n x.followed + 2 * b2n sat) ++ stampLE x.s0 ++ (padTo 6 0xFFFFFFFF ds).flatMap (bytesLE 4)
    ++ bytesLE 4 (frTag f) ++ bytesLE 4 (frDst f) ++ bytesLE 4 (frSrc f) ++ bytesLE 4 (frW f 0) ++ bytesLE 4 0) 60

/-- A traced frame leaves: the tent that holds it writes the record, under the drop and wrap rules of R394. A record dropped counts
for the sampler that tagged the frame, in its ingress tent.
DESIGN CHOICE, log entry 157. -/
def Box.traceExit (s : Box) (t : Nat) (tr : Option Trace) (outPort : Option Nat) (exit : Nat) (f : Frame) : Box :=
  match tr with
  | none => s
  | some x =>
    match s.traceRing t (traceRecord x outPort exit f) with
    | some s' => s'
    | none =>
      match x.by_ with
      | some k =>
        let u := x.inPort / 256
        let y := s.sampler (16 * u + k)
        ((s.setSampler (16 * u + k) { y with lost := y.lost + 1 }).count (brkPage u) (2 * k + 1)).raiseInt (brkPage u) 1
      | none => s.raiseInt (brkPage t) 1

/-- A trace with stage `i` (1 to 6) reached at an instant in 1/32 tk. -/
def traceStage (tr : Option Trace) (i v : Nat) : Option Trace :=
  tr.map fun x => { x with stages := (padTo 6 none x.stages).set (i - 1) (some v) }

/-- The tick a tent reads, in 1/32 tk. -/
def Box.tick32 (s : Box) (t : Nat) : Nat := s.tentTick t * 32

/-! ### The code of a backlog (R398) -/

/-- The 8-bit code of a backlog of `b` cells. -/
def backlogCode (b : Nat) : Nat :=
  if b < 16 then b
  else if b < 524288 then
    let e := Nat.log2 b - 3
    e * 16 + (b / 2 ^ (e - 1) - 16)
  else 255

end Sys2Proof.Machine
end

