-- ==== Sys2Proof/Machine/Usher.lean ====
section
/-!
DEFINITION. Usher, one per tent: cells and the allocation pointer (04_buffers.md R95, R96), landing reserves
(R92, R94), size pools (R100), partitions and admission (R93, R102 to R105), spill (R106 to R108), and the ways
a queued frame is discarded (R103, R109, R110).
-/

namespace Sys2Proof.Machine

/-- Cells of a tent's store. -/
def storeCells : Nat := 393216

/-! ### Cells (R96, R97) -/

/-- The lowest number at or after `c` that a rising list does not hold. -/
def nextFree : List Nat → Nat → Nat
  | [], c => c
  | x :: xs, c => if x < c then nextFree xs c else if x = c then nextFree xs (c + 1) else c

/-- Inserts into a rising list without repeats. -/
def insertCell : List Nat → Nat → List Nat
  | [], c => [c]
  | x :: xs, c => if c < x then c :: x :: xs else if c = x then x :: xs else x :: insertCell xs c

/-- The first cell past the three size pools: native chains start there in pool mode (R100). -/
def Box.poolEnd (s : Box) (t : Nat) : Nat :=
  2 * s.rd (USH_POOL_SMALL_BLOCKS t) + 8 * s.rd (USH_POOL_MED_BLOCKS t) + 18 * s.rd (USH_POOL_LARGE_BLOCKS t)

/-- The tent runs S7 size pools. -/
def Box.poolMode (s : Box) (t : Nat) : Bool := s.rd (USH_CTRL_ALLOC_MODE t) == 1

/-- The lowest cell a native chain may use. -/
def Box.chainBase (s : Box) (t : Nat) : Nat := if s.poolMode t then s.poolEnd t else 0

/-- The lowest free cell at or after the pointer, wrapping (R96). -/
def searchCell (alloc : List Nat) (lo ptr : Nat) : Option Nat :=
  let c := nextFree alloc (max lo ptr)
  if c < storeCells then some c
  else
    let d := nextFree alloc lo
    if d < storeCells then some d else none

/-- Allocates up to `n` cells in order; the pointer moves past each (R96). -/
def allocLoop (lo : Nat) : Nat → List Nat → Nat → List Nat × List Nat × Nat
  | 0, alloc, ptr => ([], alloc, ptr)
  | n + 1, alloc, ptr =>
    match searchCell alloc lo ptr with
    | none => ([], alloc, ptr)
    | some c =>
      let (cs, a', p') := allocLoop lo n (insertCell alloc c) ((c + 1) % storeCells)
      (c :: cs, a', p')

/-- The SRAM row of a cell, as bank * 768 + row (R95). -/
def cellRow (c : Nat) : Nat := c % 128 * 768 + c / 512

/-- The four cells of a row (R95). -/
def rowCells (r : Nat) : List Nat := [0, 1, 2, 3].map fun i => 512 * (r % 768) + 128 * i + r / 768

/-- The cells Usher withholds: the free ones of the rows that are lasting (12_faults.md R360). -/
def Box.withheldCells (s : Box) (t : Nat) : List Nat :=
  ((s.tent t).weak.flatMap rowCells).filter fun c => c ∉ (s.tent t).alloc

/-- The next-pointer entries of a chain (R95). -/
def linkChain : Sparse Nat → List Nat → Sparse Nat
  | m, c :: d :: cs => linkChain (mapSet (fun _ => 0) m c d) (d :: cs)
  | m, _ => m

/-- A chain grows to `n` cells: the new ones are taken from the free cells that are not withheld, in order from the
allocation pointer, and linked (R95, R96). -/
def Box.growCells (s : Box) (t : Nat) (own : List Nat) (n : Nat) : List Nat × Box :=
  let x := s.tent t
  let (cs, _, p) := allocLoop (s.chainBase t) (n - own.length) ((s.withheldCells t).foldl insertCell x.alloc) x.ptr
  (own ++ cs, s.setTent t { x with
    alloc := cs.foldl insertCell x.alloc, ptr := p, links := linkChain x.links ((own.getLast?).toList ++ cs) })

/-- Allocates the chain of a frame. -/
def Box.allocCells (s : Box) (t n : Nat) : List Nat × Box := s.growCells t [] n

/-- A lasting row whose four cells are free is mapped onto one of the 32 redundant rows of its bank while one is left, and its
cells are free again (12_faults.md R360, R363). The events of the row it replaces count no further.
DESIGN CHOICE, log entry 154. -/
def Box.rowRepair (s : Box) (t r : Nat) : Box :=
  let x := s.tent t
  if r ∈ x.weak ∧ ((rowCells r).all fun c => decide (c ∉ x.alloc)) = true ∧ x.mapped.countP (fun q => q / 768 = r / 768) < 32 then
    { s.setTent t { x with weak := x.weak.filter (· ≠ r), mapped := x.mapped ++ [r] } with
      events := s.events.filter fun e => !(e.cls == 5 && e.unit == r && e.tent == t) }
  else s

/-- A corrected error in a cell is a fault event of its row; the cells of a lasting row are withheld (12_faults.md R360). -/
def Box.rowFault (s : Box) (t c : Nat) : Box :=
  let (i, s1) := s.takeFree
  let r := cellRow c
  let s2 := s1.postFault 5 ((Config.freeBits i).toNat % 256) r t 0
  if s2.lasting 5 r t = true ∧ r ∉ (s2.tent t).weak then
    Box.rowRepair (s2.setTent t { s2.tent t with weak := (s2.tent t).weak ++ [r] }) t r
  else s2

/-- Frees one cell that must lie at or above `lo`: a cell out of range or not marked allocated is ignored and counted in
USH_PTR_ERR (R97). A running audit looks at it no more (R99). -/
def Box.freeCellFrom (s : Box) (t lo c : Nat) : Box :=
  let x := s.tent t
  if c < storeCells ∧ lo ≤ c ∧ c ∈ x.alloc then
    Box.rowRepair (s.setTent t { x with alloc := x.alloc.filter (· != c), audit := x.audit.map fun l => l.filter (· != c) })
      t (cellRow c)
  else s.count (ushPage t) 2048

/-- Frees one cell of a native chain; in pool mode those lie at or above the end of the pools (R97, R100). -/
def Box.freeCell (s : Box) (t c : Nat) : Box := s.freeCellFrom t (s.chainBase t) c

/-- Frees the cells of a frame. -/
def Box.freeCells (s : Box) (t : Nat) (cs : List Nat) : Box := cs.foldl (fun b c => b.freeCell t c) s

/-! ### Size pools (R100) -/

/-- Cells of a block: a pool block counts whole (R100). -/
def poolCells : Nat → Nat
  | 0 => 2
  | 1 => 8
  | _ => 18

/-- The smallest pool a frame's PLEN fits (R100). -/
def poolFor (plen : Nat) : Nat := if plen ≤ 6 then 0 else if plen ≤ 30 then 1 else 2

/-- Blocks of pool `k`. -/
def Box.poolBlocks (s : Box) (t k : Nat) : Nat :=
  match k with
  | 0 => s.rd (USH_POOL_SMALL_BLOCKS t)
  | 1 => s.rd (USH_POOL_MED_BLOCKS t)
  | _ => s.rd (USH_POOL_LARGE_BLOCKS t)

/-- The first cell of pool `k`. -/
def Box.poolBase (s : Box) (t k : Nat) : Nat :=
  match k with
  | 0 => 0
  | 1 => 2 * s.rd (USH_POOL_SMALL_BLOCKS t)
  | _ => 2 * s.rd (USH_POOL_SMALL_BLOCKS t) + 8 * s.rd (USH_POOL_MED_BLOCKS t)

/-- A pointer to a block of pool `k` starts at pool base + i × cells per block (R97, R100). -/
def Box.blockOk (s : Box) (t k c : Nat) : Bool :=
  decide (s.poolBase t k ≤ c) && (c - s.poolBase t k) % poolCells k == 0
    && decide ((c - s.poolBase t k) / poolCells k < s.poolBlocks t k)

/-- Frees the cells of a block by its pointer (R97). -/
def Box.freeBlockAt (s : Box) (t k : Nat) (cs : List Nat) : Box :=
  if s.blockOk t k (cs.headD storeCells) then cs.foldl (fun b c => b.freeCellFrom t 0 c) s else s.count (ushPage t) 2048

/-! ### Reading for transmission (R97, R98) -/

/-- A frame whose cell or transfer `i` could not be read or came as zeros: every byte from it onward is 0; its header
travels in the descriptors (R97; 12_faults.md R351). -/
def zeroFrom (f : Frame) (i : Nat) : Frame :=
  let k := max 64 (256 * i)
  f.take k ++ List.replicate (f.length - k) 0

/-- The cells that `n` pointers reach from the first one. -/
def chainFrom (links : Sparse Nat) : Nat → Nat → List Nat
  | 0, _ => []
  | n + 1, c => c :: chainFrom links n (mapGet (fun _ => 0) links c)

/-- What reading a frame has given: its bytes as they are sent, the cells reached, the first byte sent as zero, and whether
some byte is wrong. -/
structure ReadOut where
  frame   : Frame
  cells   : List Nat
  bad     : Option Nat
  corrupt : Bool
  deriving DecidableEq, Repr

/-- Some data of the first `n` cells are wrong. -/
def wrongCells (n : Nat) (reads : List CellRead) : List Nat :=
  (List.range n).filter fun i => (reads[i]?).any fun r => r.data == .wrong

/-- Reads cells `off` to `off + n - 1` of a frame of a tent's store, and the next pointers that lead on from them: pointer checks
and next-pointer errors, then SECDED of each cell (R97, R98). `reads` says what SECDED answers, cell by cell from `off`. Cells of a
pool block have no next pointers. What is read as a contribution or for a spill write is checked as for transmission.
DEDUCED, log entry 92. -/
def Box.readSpan (s : Box) (t : Nat) (cells : List Nat) (pool : Option (Nat × Nat)) (f : Frame) (reads : List CellRead)
    (off n : Nat) : ReadOut × Box :=
  let chain := match pool with
    | some _ => cells
    | none => chainFrom (s.tent t).links cells.length (cells.headD 0)
  let stop := min cells.length (off + n)
  let at_ (i : Nat) : Option CellRead := if i < off then none else reads[i - off]?
  let link (i : Nat) : Ecc := if pool.isSome then .good else ((at_ i).map CellRead.link).getD .good
  let ok (i : Nat) : Bool :=
    let c := chain.getD i 0
    decide (c < storeCells) && (match pool with
      | some (k, _) => i != 0 || s.blockOk t k c
      | none => decide (s.chainBase t ≤ c) && (i == 0 || link (i - 1) != .wrong))
  let fail := ((List.range cells.length).filter fun i => decide (off ≤ i) && decide (i ≤ stop)).find? fun i => !ok i
  let m := min stop (fail.getD stop)
  let wrong := (wrongCells (m - off) reads).map (· + off)
  let f1 := wrong.foldl (fun g i =>
    listPut g (256 * i) (bytesAt (((at_ i).map CellRead.bytes).getD []) 0 (min 256 (g.length - 256 * i)))) f
  let s1 := wrong.foldl (fun (b : Box) _ => (b.count (ushPage t) 2050).raiseInt (ushPage t) 0) s
  let s2 := ((List.range m).filter fun i => (at_ i).any fun r => r.data == .corrected).foldl
    (fun (b : Box) i => (b.count (ushPage t) 2049).rowFault t (chain.getD i 0)) s1
  let s3 := ((List.range m).filter fun i => i + 1 < cells.length ∧ link i = .corrected).foldl
    (fun (b : Box) _ => b.count (ushPage t) 2049) s2
  match fail with
  | none => (⟨f1, cells, none, !wrong.isEmpty⟩, s3)
  | some i =>
    (⟨zeroFrom f1 i, cells.take i, some (256 * i), !wrong.isEmpty⟩, (s3.count (ushPage t) 2048).raiseInt (ushPage t) 0)

/-- Reads a whole frame of a tent's store (R97, R98). -/
def Box.readFrame (s : Box) (t : Nat) (cells : List Nat) (pool : Option (Nat × Nat)) (f : Frame) (reads : List CellRead) : ReadOut × Box :=
  s.readSpan t cells pool f reads 0 cells.length

/-- A descriptor after some of its cells have been read. -/
def Desc.readAs (d : Desc) (r : ReadOut) : Desc :=
  { d with frame := r.frame, cells := r.cells, corrupt := d.corrupt || r.corrupt, bad := match r.bad with
      | some i => some i
      | none => d.bad }

/-! ### Who holds what -/

/-- Every staged frame with its place. -/
def Box.allStaged (s : Box) : List Staged := s.staging.flatMap (·.2)

/-- The descriptors whose cells a tent still holds: queued, or crossing Midway with transfers to come. -/
def Box.held (s : Box) (t : Nat) : List Desc :=
  (s.descs.filter fun d => d.tent = t)
    ++ (s.allStaged.filterMap fun x => if x.desc.tent = t ∧ x.arrived < x.total then some x.desc else none)

/-- The cells a descriptor's charge counts. -/
def descCells (d : Desc) : Nat :=
  match d.pool with
  | some (k, _) => poolCells k
  | none => d.ncells

/-- The occupancy of a partition: frames charged to it, and the recall reserves it has lent, in use or not (R106).
DESIGN CHOICE, log entry 155. -/
def Box.partOcc (s : Box) (t p : Nat) : Nat :=
  ((s.held t).map fun d => if d.charge = .partition p then descCells d else 0).sum
    + 32 * s.spills.countP fun e => decide (e.1 / 16384 = t) && decide (e.2.part = p)

/-- The size of a partition. -/
def Box.partSize (s : Box) (t p : Nat) : Nat := s.rd (USH_PART_CFG_SIZE t p)

/-- The partition a VC is mapped to (R116). -/
def Box.vcPart (s : Box) (t v : Nat) : Nat := wordField (s.word (USH_VC_MAP_at t)) (2 * v) 2

/-- The ports of a tent. -/
def tentPorts (t : Nat) : List Nat := (List.range 256).map (256 * t + ·)

/-- Landing reserves of a tent on the VCs given, over every generation still held (R94). -/
def Box.landingHeld (s : Box) (t : Nat) (vs : List Nat) : Nat :=
  (s.ports.map fun e =>
    if e.1 / 256 = t then (e.2.resv.map fun g => (vs.map fun v => g.cells.getD v 0).sum).sum else 0).sum

/-- The VCs that land outside the collective region. -/
def landVcs : List Nat := [0, 1, 2, 4, 5, 6]

/-- The unreserved count of R94 less the cells withheld (12_faults.md R363), as an integer so that a check may look below zero. -/
def Box.unreserved (s : Box) (t : Nat) : Int :=
  (storeCells : Int) - (s.withheldCells t).length - s.rd (USH_COLL_CELLS_CELLS t) - s.partSize t 0 - s.partSize t 1 - s.partSize t 2
    - s.partSize t 3 - s.landingHeld t landVcs

/-- The part of the collective region not committed to VC3 reserves or stream reservations (R94). -/
def Box.collFree (s : Box) (t : Nat) : Int :=
  (s.rd (USH_COLL_CELLS_CELLS t) : Int) - s.landingHeld t [3] - (s.tent t).coll

/-- Some frame is still charged to generation `g` of a port's landing reserves. -/
def Box.genInUse (s : Box) (p g : Nat) : Bool :=
  ((s.port p).landed.any fun l => l.gen == g) || ((s.port p).partCells != [] && (s.port p).gen == g)
    || ((s.port p).steer.any fun c => c.gen == g && c.cells != [])
    || ((s.held (p / 256)).any fun d => match d.charge with
        | .landing q g' _ => q == p && g' == g
        | _ => false)

/-! ### The cells a VOQ holds (R75, R106) -/

/-- The descriptors of a VOQ in queue order. -/
def Box.voq (s : Box) (t egress v : Nat) : List Desc :=
  s.descs.filter fun d => d.tent = t ∧ d.egress = egress ∧ d.vc = v

/-- The cells of a VOQ, spilled cells included. -/
def Box.voqCells (s : Box) (t egress v : Nat) : Nat := ((s.voq t egress v).map descCells).sum

/-! ### Returning a frame's cells and credit -/

/-- What leaving does: the cells or the block are freed, and a landing charge returns its cells as credit (R93, R109). -/
def Box.release (s : Box) (d : Desc) : Box :=
  let s1 := match d.pool with
    | some (k, _) => s.freeBlockAt d.tent k d.cells
    | none => s.freeCells d.tent d.cells
  match d.charge with
  | .landing p g v => if (s1.port p).gen = g then s1.giveCredit p v d.ncells else s1
  | _ => s1

/-- Spill blocks without the parts that do not satisfy `keep`: a block left empty is freed, but for the one being read (R108). -/
def keepParts (keep : Nat → Bool) (sp : Spill) : Spill :=
  let bs := sp.blocks.map fun b => { b with parts := b.parts.filter fun q => keep q.1 }
  let used (b : SpillBlock) : Bool := b.parts != []
  { sp with blocks := if sp.recalling then bs.take 1 ++ (bs.drop 1).filter used else bs.filter used }

/-- The frames a partly received frame's cells belong to are given up: the cells are freed (R92; 02_itzal_link.md R38, R42). -/
def Box.partFree (s : Box) (p : Nat) : Box :=
  let s1 := s.freeCells (p / 256) (s.port p).partCells
  s1.setPort p { s1.port p with part := [], partCells := [] }

/-- A descriptor leaves every spill block of its VOQ. -/
def Box.unspill (s : Box) (d : Desc) : Box :=
  let k := d.tent * 16384 + 8 * d.egress + d.vc
  { s with spills := s.spills.map fun e => if e.1 = k then (e.1, keepParts (· != d.id) e.2) else e }

/-- A queued frame leaves without transmission: its cells and credit return, its spill blocks are freed, its
trace ends with `exit` (R103, R108, R110). -/
def Box.dropDesc (s : Box) (d : Desc) (exit : Nat) : Box :=
  let s1 := { s with descs := s.descs.filter fun e => e.id ≠ d.id }
  ((s1.release d).unspill d).traceExit d.tent d.trace (some d.egress) exit d.frame

/-! ### Admission (R93, R102 to R105) -/

/-- ALPHA times a count, as numerator over 64 (R105). -/
def alphaNum (code : Nat) : Nat := 2 ^ code

/-- Blocks of a pool in use in a tent. -/
def Box.poolUsed (s : Box) (t k : Nat) : List Nat :=
  (s.held t).filterMap fun d => match d.pool with
    | some (k', i) => if k' = k then some i else none
    | none => none

/-- The lowest number not in a list, by trying one more candidate than the list is long. -/
def lowestOut (l : List Nat) : Nat := ((List.range (l.length + 1)).find? fun i => i ∉ l).getD l.length

/-- The blocks of a pool that hold a cell withheld with its row (12_faults.md R360, R363). -/
def Box.withheldBlocks (s : Box) (t k : Nat) : List Nat :=
  ((s.withheldCells t).filter (s.poolBase t k ≤ ·)).map fun c => (c - s.poolBase t k) / poolCells k

/-- A free block: the smallest pool that fits, else the next larger (R100). Of a pool's free blocks the lowest is taken.
DESIGN CHOICE, log entry 167. -/
def Box.freeBlock (s : Box) (t plen : Nat) : Option (Nat × Nat) :=
  ([0, 1, 2].filter (poolFor plen ≤ ·)).findSome? fun k =>
    let i := lowestOut (s.poolUsed t k ++ s.withheldBlocks t k)
    if i < s.poolBlocks t k then some (k, i) else none

/-- The cells of a block. -/
def Box.blockCells (s : Box) (t : Nat) (b : Nat × Nat) : List Nat :=
  (List.range (poolCells b.1)).map fun i => s.poolBase t b.1 + b.2 * poolCells b.1 + i

/-- A frame some spill block already claims (R104). -/
def Box.spillClaimed (s : Box) (d : Desc) : Bool :=
  s.spills.any fun e => e.2.blocks.any fun b => b.parts.any fun q => q.1 == d.id

/-- The frames push-out may evict for a class: charged to `p`, in SRAM, not claimed for spill, not granted, of a
lower class, and where no fitting block is free holding a block at least as large as the pool needed (R100, R103). -/
def Box.eligibleOut (s : Box) (t p cls : Nat) (pool : Option Nat) : List Desc :=
  s.descs.filter fun d => decide (d.tent = t) && decide (d.charge = .partition p) && !d.spilled
    && !s.spillClaimed d && decide (d.cls < cls) && (match pool, d.pool with
      | none, _ => true
      | some k, some (k', _) => decide (k ≤ k')
      | some _, none => false)

/-- The element of a list with the largest key; the first of several. -/
def argMax {α : Type} (key : α → Nat) : List α → Option α
  | [] => none
  | x :: xs =>
    match argMax key xs with
    | none => some x
    | some y => if key y ≤ key x then some x else some y

/-- The victim of one eviction: lowest class, the VOQ with most eligible cells of it (ties to the lowest VOQ),
its most recently admitted eligible frame (R103). -/
def victim (el : List Desc) : Option Desc :=
  match argMax (fun d => 8 - d.cls) el with
  | none => none
  | some c =>
    let cl := el.filter fun d => d.cls = c.cls
    let qs := sortBy (· ≤ ·) (cl.map fun d => 8 * d.egress + d.vc)
    match argMax (fun q => ((cl.filter fun d => 8 * d.egress + d.vc = q).map descCells).sum) qs with
    | none => none
    | some q => argMax (fun d => d.admitAt) (cl.filter fun d => 8 * d.egress + d.vc = q)

/-- Discards one victim, counted by its own ingress port and VC (R103, R467). -/
def Box.evict (s : Box) (t : Nat) (d : Desc) : Box :=
  match d.inPort with
  | some p => (s.dropDesc d 3).countPort (ushPage t) (8 * (p % 256) + d.vc) p 1
  | none => s.dropDesc d 3

/-- The pool that a frame needs and none of whose fitting blocks is free, in pool mode (R100). -/
def Box.blockShort (s : Box) (t plen : Nat) : Option Nat :=
  if s.poolMode t = true ∧ (s.freeBlock t plen).isNone = true then some (poolFor plen) else none

/-- The cells a frame of `n` cells is charged: a block's in pool mode (R100). -/
def Box.needCells (s : Box) (t n plen : Nat) : Nat :=
  if s.poolMode t then
    match s.freeBlock t plen with
    | some (k, _) => poolCells k
    | none => poolCells (poolFor plen)
  else n

/-- The free room of a partition for a frame: none where no fitting block is free (R100). -/
def Box.freeRoom (s : Box) (t p plen : Nat) : Nat :=
  if (s.blockShort t plen).isSome then 0 else s.partSize t p - s.partOcc t p

/-- The partition has room for the frame (R100, R103). -/
def Box.roomFor (s : Box) (t p n plen : Nat) : Bool :=
  (s.blockShort t plen).isNone && decide (s.partOcc t p + s.needCells t n plen ≤ s.partSize t p)

/-- Push-out's eviction loop (R103): at most `fuel` victims; the free count is read again before each (R104).
DEDUCED, log entry 55. -/
def Box.pushOut (t p n plen cls : Nat) : Nat → Box → Box
  | 0, s => s
  | fuel + 1, s =>
    if s.roomFor t p n plen then s
    else
      match victim (s.eligibleOut t p cls (s.blockShort t plen)) with
      | none => s
      | some d => Box.pushOut t p n plen cls fuel (s.evict t d)

/-- A partition that was shrunk below its occupancy and has drained below its SIZE admits again (R102). -/
def Box.regrow (s : Box) (t p : Nat) : Box :=
  if s.partOcc t p < s.partSize t p then
    s.setTent t { s.tent t with shrunk := (s.tent t).shrunk.filter (· ≠ p) }
  else s

/-- One admission attempt of a frame of `n` cells for VOQ (egress, v) in partition `p` that is not held by a shrink: whether
it is admitted, and the state after any push-out (R93, R100, R103, R105). `plen` picks the pool block. -/
def Box.admitOpen (s : Box) (t p egress v n plen : Nat) : Bool × Box :=
  let need := s.needCells t n plen
  if s.rd (USH_PART_CFG_MODE t p) = 1 then
    let q := (((s.held t).filter fun d => d.egress = egress ∧ d.vc = v ∧ d.charge = .partition p).map descCells).sum
    (decide (64 * (q + need) ≤ alphaNum (s.rd (USH_PART_CFG_ALPHA t p)) * s.freeRoom t p plen), s)
  else if s.roomFor t p n plen then (true, s)
  else
    let cls := s.vcClass t v
    let el := s.eligibleOut t p cls (s.blockShort t plen)
    if s.freeRoom t p plen + (el.map descCells).sum < need then (false, s)
    else
      let s' := Box.pushOut t p n plen cls el.length s
      (s'.roomFor t p n plen, s')

/-- One admission attempt: a partition shrunk below its occupancy admits nothing and evicts nothing until it has drained
below the new size (R102). -/
def Box.admitFrame (s : Box) (t p egress v n plen : Nat) : Bool × Box :=
  let s1 := s.regrow t p
  if p ∈ (s1.tent t).shrunk then (false, s1) else s1.admitOpen t p egress v n plen

/-! ### Congestion (07_determinism_audit.md R190) -/

/-- The BAR2 offset of a gate-list entry (05_egress_scheduling.md R127). -/
def gateAt (p b k : Nat) : Nat := 0x2000000 + 0x4000 * p + 0x2000 * b + 8 * k

/-- GATE of an entry. -/
def Box.entGate (s : Box) (p b k : Nat) : Nat := wordField (s.tab (gateAt p b k)) 24 8
/-- DURATION of an entry. -/
def Box.entDur (s : Box) (p b k : Nat) : Nat := wordField (s.tab (gateAt p b k)) 0 24
/-- BYPASS of an entry. -/
def Box.entBypass (s : Box) (p b k : Nat) : Bool := wordBit (s.tab (gateAt p b k + 4)) 0
/-- LEN of a bank. -/
def Box.glLen (s : Box) (p b : Nat) : Nat := s.rd (CAL_GL_LEN_LEN p b)

/-- The bank that CAL_GL_STATUS shows as active. -/
def Box.activeBank (s : Box) (p : Nat) : Nat := s.rd (CAL_GL_STATUS_ACTIVE_BANK p)

/-- A gated VC: closed in at least one entry of the running list (R190). -/
def Box.gatedVc (s : Box) (p v : Nat) : Bool :=
  s.listRuns p && (List.range (s.glLen p (s.activeBank p))).any fun k => !(s.entGate p (s.activeBank p) k).testBit v

/-- A partition of a tent refused, pushed out or spilled: the envelope of every port with a gated VC mapped to it
is broken (R190). -/
def Box.congest (s : Box) (t part : Nat) : Box :=
  (s.listPorts.filter fun p => landVcs.any fun v => decide (s.vcPart t v = part) && s.gatedVc p v).foldl
    (fun b p => b.envEvent p 4) s

/-! ### Spill (R106 to R108) -/

/-- The spill record of a VOQ. -/
def Box.spillOf (s : Box) (t q : Nat) : Option Spill := (s.spills.find? fun e => e.1 = t * 16384 + q).map (·.2)

/-- Replaces or removes the spill record of a VOQ, keys rising. -/
def setSpillIn (k : Nat) (x : Option Spill) : Sparse Spill → Sparse Spill
  | [] => match x with
    | some y => [(k, y)]
    | none => []
  | (k', y') :: m =>
    if k < k' then (match x with
      | some y => (k, y) :: (k', y') :: m
      | none => (k', y') :: m)
    else if k = k' then (match x with
      | some y => (k, y) :: m
      | none => m)
    else (k', y') :: setSpillIn k x m

/-- Sets the spill record of a VOQ. -/
def Box.setSpill (s : Box) (t q : Nat) (x : Option Spill) : Box :=
  { s with spills := setSpillIn (t * 16384 + q) x s.spills }

/-- Spill blocks a tent uses. -/
def Box.spillBlocks (s : Box) (t : Nat) : Nat :=
  ((s.spills.filter fun e => e.1 / 16384 = t).map fun e => e.2.blocks.length).sum

/-- Spill blocks the tent's region 7 holds. -/
def Box.spillCap (s : Box) (t : Nat) : Nat := s.regionBytes t 7 / 4096

/-- Spilled frames of a tent. -/
def Box.spilledFrames (s : Box) (t : Nat) : Nat := s.descs.countP fun d => decide (d.tent = t) && d.spilled

/-- Frames of a tent that are spilled or being spilled: those the descriptor limit is held against (R108). -/
def Box.spillFrames (s : Box) (t : Nat) : Nat :=
  s.descs.countP fun d => decide (d.tent = t) && (d.spilled || s.spillClaimed d)

/-- Cells in use of a VOQ's recall reserve (R107). -/
def Box.recallUse (s : Box) (t q : Nat) : Nat :=
  (((s.held t).filter fun d => 8 * d.egress + d.vc = q ∧ (d.charge = .recall ∨ d.charge = .spill)).map fun d => d.cells.length).sum

/-- The levels of USH_STATUS follow the tent's spill state (R118; 11_memory.md R346); SPILL_FULL or DESC_LIMIT rising raises
USH cause 2 (R465). -/
def Box.spillStatus (s : Box) (t : Nat) : Box :=
  let any := s.spills.any fun e => e.1 / 16384 == t
  let full := decide (s.spillCap t ≤ s.spillBlocks t) || s.rebuilding t
  let lim := decide (131072 ≤ s.spilledFrames t)
  let rise := (full && !s.is (USH_STATUS_SPILL_FULL t)) || (lim && !s.is (USH_STATUS_DESC_LIMIT t))
  let s1 := ((s.put (USH_STATUS_SPILLING t) any).put (USH_STATUS_SPILL_FULL t) full).put (USH_STATUS_DESC_LIMIT t) lim
  if rise then s1.raiseInt (ushPage t) 2 else s1

/-- Appends `n` cells of a frame to a VOQ's spill blocks, 16 cells a block, opening blocks as needed (R107). -/
def addSpill (id now : Nat) : Nat → Nat → List SpillBlock → List SpillBlock
  | 0, _, bs => bs
  | fuel + 1, n, bs =>
    if n = 0 then bs
    else
      match bs.getLast? with
      | some b =>
        if b.written = false ∧ b.cells < 16 then
          let k := min n (16 - b.cells)
          addSpill id now fuel (n - k)
            (bs.dropLast ++ [{ b with parts := b.parts ++ [(id, k)], cells := b.cells + k }])
        else
          let k := min n 16
          addSpill id now fuel (n - k) (bs ++ [{ parts := [(id, k)], cells := k, written := false, firstAt := now }])
      | none =>
        let k := min n 16
        addSpill id now fuel (n - k) (bs ++ [{ parts := [(id, k)], cells := k, written := false, firstAt := now }])

/-- A full spill block of a list waits for its write. -/
def blockWaits (bs : List SpillBlock) : Bool := bs.any fun b => !b.written && decide (16 ≤ b.cells)

/-- Assigns to spill blocks the admitted frames behind the first 32 cells of a spilling VOQ that are not assigned yet, in queue
order up to the first that the region, the descriptor limit or the write cap keeps in SRAM, where the tent runs no size pools
(R101, R106, R107, R108): while a full block of the tent waits for its write, no further frame is assigned. A frame so claimed is
being spilled: push-out and transmission leave it alone (R104). Clearing EN does not end the spill state of a VOQ.
DEDUCED, log entry 56; DESIGN CHOICE, log entry 168. -/
def Box.spillAssign (s : Box) (t q : Nat) : Box :=
  match s.spillOf t q with
  | none => s
  | some sp =>
    if s.rd (USH_SPILL_CTRL_WRATE t) = 0 ∨ s.poolMode t = true then s
    else
      let held := s.spillFrames t
      let others := (s.spills.filter fun e => e.1 / 16384 = t ∧ e.1 % 16384 ≠ q).any fun e => blockWaits e.2.blocks
      let step (acc : Nat × Option Nat × List SpillBlock) (d : Desc) : Nat × Option Nat × List SpillBlock :=
        match acc with
        | (ahead, none, bs) => (ahead, none, bs)
        | (ahead, some k, bs) =>
          let mine := bs.any fun b => b.parts.any fun x => x.1 == d.id
          if 32 ≤ ahead ∧ d.charge = .partition sp.part ∧ mine = false ∧ d.spilled = false then
            if s.spillBlocks t - sp.blocks.length + bs.length + ceilDiv d.ncells 16 < s.spillCap t + 1
                ∧ held + k < 131072 ∧ s.rebuilding t = false ∧ others = false ∧ blockWaits bs = false then
              (ahead + d.ncells, some (k + 1), addSpill d.id s.raw (d.ncells + 1) d.ncells bs)
            else (ahead, none, bs)
          else (ahead + d.ncells, some k, bs)
      let bs := ((s.voq t (q / 8) (q % 8)).foldl step (0, some 0, sp.blocks)).2.2
      if bs = sp.blocks then s else (s.setSpill t q (some { sp with blocks := bs })).congest t sp.part

/-- VOQs of a tent with frames charged to `p` that do not spill, in rising order. -/
def Box.spillCandidates (s : Box) (t p : Nat) : List Nat :=
  sortBy (· ≤ ·)
    (((s.descs.filter fun d => d.tent = t ∧ d.charge = .partition p).map fun d => 8 * d.egress + d.vc).eraseDups.filter
      fun q => (s.spillOf t q).isNone)

/-- Puts the VOQ with most cells charged to `p` into spill state where R106 says so: EN, occupancy at or above
ON / 16 of the size, and 32 cells to lend. -/
def Box.spillStart (s : Box) (t p : Nat) : Box :=
  let occ := s.partOcc t p
  if (s.rd (USH_SPILL_CTRL_EN t)).testBit p = true ∧ s.poolMode t = false
      ∧ s.rd (USH_SPILL_CTRL_ON t) * s.partSize t p ≤ 16 * occ ∧ occ + 32 ≤ s.partSize t p then
    match argMax (fun q => (((s.voq t (q / 8) (q % 8)).filter fun d => d.charge = .partition p).map descCells).sum)
        (s.spillCandidates t p) with
    | none => s
    | some q => (s.setSpill t q (some ⟨p, [], false⟩)).spillAssign t q
  else s

/-- A VOQ leaves spill state where it holds no spilled frame and its partition's occupancy is at or below OFF / 16: its recall
reserve returns to the partition, to which recalled frames that still wait are charged (R106). -/
def Box.spillLeaveOne (s : Box) (t q : Nat) : Box :=
  match s.spillOf t q with
  | none => s
  | some sp =>
    if (s.voq t (q / 8) (q % 8)).any (fun d => d.spilled) = true
        ∨ s.rd (USH_SPILL_CTRL_OFF t) * s.partSize t sp.part < 16 * s.partOcc t sp.part then s
    else
      { s.setSpill t q none with descs := s.descs.map fun d =>
          if d.tent = t ∧ 8 * d.egress + d.vc = q ∧ d.charge = .recall then { d with charge := .partition sp.part } else d }

/-- The VOQs of a tent in spill state. -/
def Box.spillVoqs (s : Box) (t : Nat) : List Nat := (s.spills.filter fun e => e.1 / 16384 = t).map fun e => e.1 % 16384

/-- VOQs that may leave spill state do (R106). -/
def Box.spillLeave (s : Box) (t : Nat) : Box := (s.spillVoqs t).foldl (fun b q => b.spillLeaveOne t q) s

/-- With WRATE 0 spill writes stop: what is not written stays in SRAM and is claimed no more (R108, R117).
DEDUCED, log entry 56. -/
def Box.spillStop (s : Box) (t : Nat) : Box :=
  if s.rd (USH_SPILL_CTRL_WRATE t) ≠ 0 then s
  else
    let out := (s.descs.filter fun d => d.spilled).map fun d => d.id
    { s with spills := s.spills.map fun e =>
        if e.1 / 16384 = t then (e.1, keepParts (fun i => decide (i ∈ out)) e.2) else e }

/-- What Usher looks at after the occupancy of a tent has changed: VOQs leave or enter spill state, new frames of
spilling VOQs are assigned, the status levels follow. -/
def Box.spillSettle (s : Box) (t : Nat) : Box :=
  let s1 := (s.spillStop t).spillLeave t
  let s2 := [0, 1, 2, 3].foldl (fun b p => b.spillStart t p) s1
  let s3 := (s2.spillVoqs t).foldl (fun b q => b.spillAssign t q) s2
  s3.spillStatus t

/-- Frames whose every spill block is written leave SRAM: their cells are freed and charged to the spill region
(R106, R108). -/
def Box.spillCommit (s : Box) (t q : Nat) : Box :=
  match s.spillOf t q with
  | none => s
  | some sp =>
    let done (d : Desc) : Bool :=
      !d.spilled && decide (d.tent = t) && decide (8 * d.egress + d.vc = q)
        && (sp.blocks.any fun b => b.parts.any fun x => x.1 == d.id)
        && (sp.blocks.all fun b => b.written || b.parts.all fun x => x.1 != d.id)
    let gone := s.descs.filter done
    let s1 := gone.foldl (fun b d => b.freeCells t d.cells) s
    { s1 with descs := s1.descs.map fun d =>
        if done d then { d with spilled := true, cells := [], charge := .spill } else d }

/-- Marks the oldest block that is not written as written, where `ready` holds of it. -/
def markWritten (ready : SpillBlock → Bool) : List SpillBlock → List SpillBlock
  | [] => []
  | b :: bs => if b.written then b :: markWritten ready bs
    else if ready b then { b with written := true } :: bs else b :: bs

/-- Cells of frame `id` in the written blocks of a list. -/
def writtenCells (id : Nat) (bs : List SpillBlock) : Nat :=
  (bs.map fun b => if b.written then ((b.parts.filter fun x => x.1 = id).map (·.2)).sum else 0).sum

/-- The cells of one part of a block are read as the block is written (R97, R98); `off` counts the frame's cells before them. -/
def Box.spillRead (s : Box) (id off n : Nat) (reads : List CellRead) : Box :=
  match s.descs.find? fun d => d.id == id with
  | none => s
  | some d =>
    let (r, s1) := s.readSpan d.tent d.cells d.pool d.frame reads off n
    { s1 with descs := s1.descs.map fun x => if x.id = id then x.readAs r else x }

/-- The parts of a block are read in order. -/
def spillReads (bs : List SpillBlock) : List (Nat × Nat) → List CellRead → Box → Box
  | [], _, s => s
  | (id, n) :: ps, reads, s => spillReads bs ps (reads.drop n) (s.spillRead id (writtenCells id bs) n (reads.take n))

/-- The time in 1/100 tk that a 4 KiB block takes at a rate of `rate` times 4 GB/s, 6.25 bytes a tick each (R117, R3). -/
def blockTime (rate : Nat) : Nat := ceilDiv 65536 rate

/-- Writes the oldest unwritten block of a VOQ that is ready, no sooner than WRATE allows and not while the tent rebuilds; its
cells are read for that (R97, R98, R107, R108, R117; 11_memory.md R346).
DESIGN CHOICE, log entry 156. -/
def Box.spillWrite (s : Box) (t q : Nat) (ready : SpillBlock → Bool) (reads : List CellRead) : Box :=
  match s.spillOf t q with
  | none => s
  | some sp =>
    let rate := s.rd (USH_SPILL_CTRL_WRATE t)
    let bs := markWritten ready sp.blocks
    if rate = 0 ∨ 100 * s.raw < (s.tent t).writeAt ∨ bs = sp.blocks ∨ s.rebuilding t = true then s
    else
      let now := (sp.blocks.find? fun b => !b.written).elim [] fun b => b.parts
      let s0 := spillReads sp.blocks now reads s
      let s1 := (s0.setTent t { s0.tent t with writeAt := 100 * s.raw + blockTime rate }).setSpill t q (some { sp with blocks := bs })
      (s1.spillCommit t q).spillSettle t

/-- SPILL_BLOCK_WRITTEN (R106, R107): a full block is written. -/
def execSpillBlockWritten (t : TentIx) (q : VoqIx) (reads : List CellRead) (s : State) : Result :=
  s.actRun fun b => b.spillWrite t.toNat q.toNat (fun k => decide (16 ≤ k.cells)) reads

/-- SPILL_BLOCK_TIMER (R107): a block is written 640 tk after its first cell arrived, full or not. -/
def execSpillBlockTimer (t : TentIx) (q : VoqIx) (reads : List CellRead) (s : State) : Result :=
  s.actRun fun b => b.spillWrite t.toNat q.toNat (fun k => decide (k.firstAt + 640 ≤ b.raw)) reads

/-- Cells of frames in SRAM between the head of a VOQ and its first spilled frame (R107). -/
def Box.aheadOfSpill (s : Box) (t q : Nat) : Nat :=
  (((s.voq t (q / 8) (q % 8)).takeWhile fun d => !d.spilled).map fun d => d.ncells).sum

/-- Cells of a spill block that still have to come back. -/
def SpillBlock.left (b : SpillBlock) : Nat := (b.parts.map fun x => x.2).sum

/-- The next block is read when fewer than 32 cells lie ahead of the first spilled frame and the recall reserve
has room for it, no sooner than RDRATE allows (R107, R108, R117).
DESIGN CHOICE, log entry 156. -/
def Box.spillRecall (s : Box) (t q : Nat) : Box :=
  match s.spillOf t q with
  | none => s
  | some sp =>
    let rate := s.rd (USH_SPILL_CTRL_RDRATE t)
    match sp.blocks with
    | b :: _ =>
      if b.written = true ∧ sp.recalling = false ∧ s.aheadOfSpill t q < 32 ∧ rate ≠ 0 ∧ (s.tent t).readAt ≤ 100 * s.raw
          ∧ s.recallUse t q + b.left ≤ 32 ∧ (b.parts.all fun x => s.descs.any fun d => d.id == x.1 && d.spilled) = true then
        (s.setTent t { s.tent t with readAt := 100 * s.raw + blockTime rate }).setSpill t q (some { sp with recalling := true })
      else s
    | [] => s

/-- SPILL_RECALL (R107). -/
def execSpillRecall (t : TentIx) (q : VoqIx) (s : State) : Result := s.actRun fun b => b.spillRecall t.toNat q.toNat

/-- Some cells of a frame come back from a block: they are allocated and charged to the recall reserve; where the read was
uncorrectable its bytes are those read (R107, R108). -/
def Box.recallPart (s : Box) (t id n : Nat) (read : Option (List Byte)) : Box :=
  match s.descs.find? fun d => d.id == id with
  | none => s
  | some d =>
    let (cs, s1) := s.growCells t d.cells (d.cells.length + n)
    let at_ := 256 * d.cells.length
    let e : Desc := match read with
      | some bs => { d with frame := listPut d.frame at_ (bytesAt bs 0 (min (256 * n) (d.frame.length - at_))), corrupt := true }
      | none => d
    let whole := decide (d.ncells ≤ cs.length)
    { s1 with descs := s1.descs.map fun x =>
        if x.id = id then { e with cells := cs, spilled := !whole, charge := if whole then .recall else .spill } else x }

/-- The parts of a block come back in order; `off` counts the cells before them. -/
def recallParts (t : Nat) (read : Option (List Byte)) : List (Nat × Nat) → Nat → Box → Box
  | [], _, s => s
  | (id, n) :: ps, off, s => recallParts t read ps (off + n) (s.recallPart t id n (read.map fun bs => bs.drop (256 * off)))

/-- A block read completes (R107, R108): its cells are charged to the recall reserve; a frame with all its cells back lies in
SRAM again. Bytes that `read` gives stand in the frames in place of their own; an uncorrectable read counts USH_SPILL_UNCORR. -/
def Box.spillRecallDone (s : Box) (t q : Nat) (read : Option (List Byte)) (uncorr : Bool) : Box :=
  match s.spillOf t q with
  | none => s
  | some sp =>
    match sp.recalling, sp.blocks with
    | true, b :: bs =>
      let s0 := if uncorr then (s.count (ushPage t) 2051).raiseInt (ushPage t) 0 else s
      let s1 := s0.setSpill t q (some { sp with blocks := bs, recalling := false })
      (recallParts t read b.parts 0 s1).spillSettle t
    | _, _ => s

/-- The block that a VOQ's recall reads. -/
def Box.recallBlock (s : Box) (t q : Nat) : Option SpillBlock :=
  match s.spillOf t q with
  | some sp => if sp.recalling then sp.blocks.head? else none
  | none => none

/-! ### Flushes (R77, R86, R110) -/

/-- Discards the queued frames that satisfy `p`, in order, each with `act` after it. -/
def Box.discardWhere (s : Box) (p : Desc → Bool) (exit : Nat) (act : Box → Desc → Box) : Box :=
  (s.descs.filter p).foldl (fun b d => act (b.dropDesc d exit) d) s

/-! ### Audit (R99) -/

/-- Cells that a descriptor, a landed frame, a contribution or a result of a tent reaches. -/
def Box.reachedCells (s : Box) (t : Nat) : List Nat :=
  ((s.held t).flatMap fun d => d.cells)
    ++ (s.ports.flatMap fun e =>
        if e.1 / 256 = t then (e.2.landed.flatMap fun l => l.cells) ++ e.2.partCells ++ e.2.steer.flatMap fun c => c.cells else [])
    ++ (s.results.flatMap fun r => if r.tent = t then r.cells else [])

/-- An audit starts; while one runs the write is ignored with the access-error indication (R99). -/
def Box.ushAudit (s : Box) (src : Requester) (t : Nat) : Box :=
  if s.is (USH_STATUS_AUDIT_BUSY t) then s.accErrAt (USH_CTRL_at t) src
  else (s.setTent t { s.tent t with audit := some (s.tent t).alloc }).put (USH_STATUS_AUDIT_BUSY t) true

/-- USH_AUDIT (R99): a write of USH_CTRL.AUDIT. -/
def execUshAudit (src : Requester) (t : TentIx) (s : State) : Result :=
  s.actReg (USH_CTRL_at t.toNat) src fun b => b.ushAudit src t.toNat

/-- The audit ends (R99, R465): cells that have been allocated since before it began and that nothing reaches are freed and
counted; AUDIT_BUSY clears and USH cause 1 is set. -/
def Box.ushAuditDone (s : Box) (t : Nat) : Box :=
  match (s.tent t).audit with
  | none => s
  | some was =>
    let reached := s.reachedCells t
    let lost := was.filter fun c => c ∈ (s.tent t).alloc ∧ c ∉ reached
    let s1 := lost.foldl (fun b c => b.freeCellFrom t 0 c) (s.setTent t { s.tent t with audit := none })
    ((s1.bump (ushPage t) 2052 lost.length).put (USH_STATUS_AUDIT_BUSY t) false).raiseInt (ushPage t) 1

/-- USH_AUDIT_DONE (R99). -/
def execUshAuditDone (t : TentIx) (s : State) : Result := s.actRun fun b => b.ushAuditDone t.toNat

/-- Reserves of generations no longer in use, and to which no frame is charged, return (R94). -/
def Box.reserveReturn (s : Box) (p : Nat) : Box :=
  let x := s.port p
  let keep (g : ResGen) : Bool := s.genInUse p g.gen || (s.is (LNK_PORT_CTRL_ENABLE p) && g.gen == x.gen)
  s.setPort p { x with resv := x.resv.filter keep }

/-- RESERVE_RETURN (R94). -/
def execReserveReturn (p : Slot) (s : State) : Result := s.actRun fun b => b.reserveReturn p.toNat

end Sys2Proof.Machine
end

