-- ==== Sys2Proof/Machine/Forward.lean ====
section
/-!
DEFINITION. Forwarding: the tables and their banks (03_forwarding.md R71 to R73), the lookup (R66 to R70, R75,
R76, R79), reach and its notices (R77, R80), table commands (R74; 16_registers.md R461, R462) and bank switches
(R82 to R89). Every tent's copy of the tables holds the same words, so one copy stands for all eight; each tent
has its own live bank.
-/

namespace Sys2Proof.Machine

/-! ### Table entries (R71 to R73, 14_host_mgmt.md R409) -/

/-- BAR2 offset of a row entry. -/
def rowAt (b i : Nat) : Nat := 0x100000 * b + 4 * i
/-- BAR2 offset of a rack entry. -/
def rackAt (b i : Nat) : Nat := 0x100000 * b + 0x10000 + 4 * i
/-- BAR2 offset of a bundle entry. -/
def bundleAt (b i : Nat) : Nat := 0x100000 * b + 0x20000 + 32 * i

/-- MODE of a row entry. -/
def Box.rowMode (s : Box) (b i : Nat) : Nat := wordField (s.tab (rowAt b i)) 30 2
/-- BUNDLE of a row entry. -/
def Box.rowBundle (s : Box) (b i : Nat) : Nat := wordField (s.tab (rowAt b i)) 19 11
/-- NMEM of a bundle. -/
def Box.nmem (s : Box) (b k : Nat) : Nat := wordField (s.tab (bundleAt b k)) 28 4
/-- Member `m` of a bundle: its port slot (R73). -/
def Box.member (s : Box) (b k m : Nat) : Nat :=
  wordField (s.tab (bundleAt b k + 4 * (1 + m / 2))) (if m % 2 = 0 then 16 else 0) 11
/-- Member `m` of a bundle may carry traffic. -/
def Box.memLive (s : Box) (b k m : Nat) : Bool :=
  decide (m < s.nmem b k) && (s.tab (bundleAt b k)).getLsbD (20 + m)
/-- PIN of hash bucket `h`. -/
def Box.pin (s : Box) (b k h : Nat) : Nat := wordField (s.tab (bundleAt b k + 4 * (5 + h / 8))) (4 * (h % 8)) 3
/-- The bundle has a live member. -/
def Box.bundleLive (s : Box) (b k : Nat) : Bool := (List.range 8).any fun m => s.memLive b k m

/-! ### The lookup (R69) -/

/-- What the lookup finds: the frame is this device's, it is discarded under FWD counter `k`, or it leaves at one
egress slot. -/
inductive Route where
  | self
  | discard (k : Nat)
  | out (slot : Nat)
  deriving DecidableEq, Repr

/-- Stages 2 to 5 (R69): the bundle of a destination in a bank, or the counter of the discard. -/
def Box.routeBundle (s : Box) (b dst : Nat) : Except Nat Nat :=
  if s.is (FWD_CTRL_FWD_EN 0) = false ∨ natField dst 28 4 ≠ s.rd (FWD_HALL_HALL 0) then .error 1
  else
    match s.rowMode b (natField dst 20 8) with
    | 2 =>
      let k := s.rowBundle b (natField dst 20 8)
      if s.bundleLive b k then .ok k else .error 4
    | 1 =>
      let w := s.tab (rackAt b (natField dst 14 14))
      if wordBit w 31 = false then .error 3
      else
        let k := wordField w 19 11
        if s.bundleLive b k then .ok k
        else if wordBit w 30 = true ∧ s.bundleLive b (wordField w 8 11) = true then .ok (wordField w 8 11)
        else .error 4
    | _ => .error 2

/-- The hash bucket of an ordered channel (R76). -/
def Box.hashBucket (s : Box) (f : Frame) : Nat :=
  let x := frSrc f ^^^ frDst f ^^^ (frVc f * 256) ^^^ frOch f ^^^ s.rd (FWD_HASH_SEED_SEED 0)
  (List.range 8).foldl (fun a i => a ^^^ natField x (4 * i) 4) 0

/-- The first live member at or after `m`, wrapping after NMEM - 1 (R75, R79). -/
def Box.liveFrom (s : Box) (b k m : Nat) : Option Nat :=
  let n := s.nmem b k
  ((List.range n).map fun i => (m + i) % n).find? fun j => s.memLive b k j

/-- The queue measure Q(m) of R75 in tent `t` for member slot `p` and VC `v`. -/
def Box.queueMeasure (s : Box) (t p v : Nat) : Nat :=
  s.voqCells t p v + (mapGet (fun _ => 0) s.backlog (8 * p + v) - mapGet (fun _ => 0) (s.tent t).own (8 * p + v))

/-- The member a frame is sprayed to: least Q among the live, ties from the rotation pointer on (R75). -/
def Box.sprayMember (s : Box) (t b k ptr v : Nat) : Option Nat :=
  let n := s.nmem b k
  let ms := ((List.range n).map fun i => (ptr % n + i) % n).filter fun j => s.memLive b k j
  argMax (fun j => 2 ^ 40 - s.queueMeasure t (s.member b k j) v) ms

/-- The rotation pointer's key: pipeline (8 for results) and bundle. -/
def sprayKey (pipe k : Nat) : Nat := 2048 * pipe + k

/-- The ingress pipeline of a port: each serves 8 fibre pairs. -/
def pipelineOf (p : Nat) : Nat := p % 256 / 32

/-- The lookup of a frame in a bank, in tent `t`, by pipeline `pipe`; a spray advances the bundle's pointer
(R69, R75, R76). -/
def Box.lookup (s : Box) (t pipe b : Nat) (f : Frame) : Route × Box :=
  if frDst f = s.rd (FWD_SELF_ADDR_ADDR 0) ∧ frDst f ≠ 0xFFFFFFFF then
    (if (frKind f = 5 ∧ frVc f = 5) ∨ (frKind f = 0 ∧ frVc f = 6) then .self else .discard 0, s)
  else
    match s.routeBundle b (frDst f) with
    | .error k => (.discard k, s)
    | .ok k =>
      if frOch f = 0 then
        let x := s.tent t
        let ptr := mapGet (fun _ => 0) x.spray (sprayKey pipe k)
        match s.sprayMember t b k ptr (frVc f) with
        | none => (.discard 4, s)
        | some m => (.out (s.member b k m),
            s.setTent t { x with spray := mapSet (fun _ => 0) x.spray (sprayKey pipe k) ((ptr + 1) % 8) })
      else
        match s.liveFrom b k (s.pin b k (s.hashBucket f)) with
        | none => (.discard 4, s)
        | some m => (.out (s.member b k m), s)

/-! ### Reach (R77, R80) -/

/-- Rack `r` is reachable in bank `b`: stages 3 to 5 of R69 would find a live member. -/
def Box.rackReach (s : Box) (b r : Nat) : Bool :=
  match s.rowMode b (r / 64) with
  | 2 => s.bundleLive b (s.rowBundle b (r / 64))
  | 1 =>
    let w := s.tab (rackAt b r)
    wordBit w 31 && (s.bundleLive b (wordField w 19 11) || (wordBit w 30 && s.bundleLive b (wordField w 8 11)))
  | _ => false

/-- The racks whose row or rack entry a bank lists, rising: no other rack can be reachable. -/
def Box.listedRacks (s : Box) (b : Nat) : List Nat :=
  let rows := s.tabs.filterMap fun e => if rowAt b 0 ≤ e.1 ∧ e.1 < rowAt b 256 then some ((e.1 - rowAt b 0) / 4) else none
  let whole := (rows.filter fun i => s.rowMode b i = 2).flatMap fun i => (List.range 64).map (64 * i + ·)
  let racks := s.tabs.filterMap fun e =>
    if rackAt b 0 ≤ e.1 ∧ e.1 < rackAt b 16384 then some ((e.1 - rackAt b 0) / 4) else none
  sortBy (· ≤ ·) (whole ++ racks.filter fun r => s.rowMode b (r / 64) = 1)

/-- The reachable racks of a bank, rising. -/
def Box.reachable (s : Box) (b : Nat) : List Nat := (s.listedRacks b).filter fun r => s.rackReach b r

/-- Maximal ranges (first, count) of a rising list. -/
def toRanges : List Nat → List (Nat × Nat)
  | [] => []
  | x :: xs =>
    match toRanges xs with
    | (f, n) :: rs => if x + 1 = f then (x, n + 1) :: rs else (x, 1) :: (f, n) :: rs
    | [] => [(x, 1)]

/-- A list cut into pieces of at most `n` elements; `fuel` bounds the pieces. -/
def chunksOf {α : Type} (n : Nat) : Nat → List α → List (List α)
  | 0, _ => []
  | fuel + 1, l => if l = [] then [] else l.take n :: chunksOf n fuel (l.drop n)

/-- Sends one reach notice on every leaf-facing port that is up (R80), each with the number of notices that its port has sent
before it; the tents that send one raise FWD cause 2 for a withdrawal.
DESIGN CHOICE, log entry 160. -/
def Box.sendNotice (s : Box) (code : Nat) (rs : List (Nat × Nat)) : Box :=
  let ports := s.leafPorts
  let pay := rs.flatMap fun r => bytesBE 2 r.1 ++ bytesBE 2 r.2
  let s1 := ports.foldl (fun (b : Box) p =>
    let x := b.port p
    let f := mkControl 4 (b.rd (LNK_PARTNER_ID_ADDR_ADDR p)) (b.rd (FWD_SELF_ADDR_ADDR 0))
      [code * 2 ^ 24 + x.nseq, rs.length * 2 ^ 21] pay 0
    (b.setPort p { x with nseq := (x.nseq + 1) % 65536 }).originate p f) s
  if code = 0x21 then ((ports.map (· / 256)).eraseDups).foldl (fun b t => b.raiseInt (fwdPage t) 2) s1 else s1

/-- Withdrawal notices for the racks that were reachable and no longer are, with the suspect record of kind 4
(R80, 12_faults.md R368); `port` is the port whose loss caused it. -/
def Box.withdraw (s : Box) (before after : List Nat) (port : Nat) : Box :=
  let lost := before.filter fun r => r ∉ after
  if lost = [] then s
  else
    let rs := toRanges lost
    ((chunksOf 1024 (rs.length + 1) rs).foldl (fun b c => b.sendNotice 0x21 c) s).postSuspect 4 port 0 0 0 0 0

/-- A BMT message leaves as a kind 0 frame on VC6 with OCH 0 on the port that its lookup gives, VMIN 0, HOPS 0 and its CRC-32C
computed (14_host_mgmt.md R422; 02_itzal_link.md R52, R54, R493): one without a route is lost. Its lookup is made in tent 0 with
a rotation pointer of its own; W4 to W11, the endpoint's own, and the tag, which R54 states for control frames and results
alone, are free.
DESIGN CHOICE, log entry 140. -/
def Box.vc6Send (s : Box) (dst : Nat) (m : List Byte) : Box :=
  let r (i : Nat) : Nat := (Config.freeBits (s.freeCtr + i)).toNat
  let pay := padPayload m
  let own := (List.range 8).map fun i => r (1 + i / 2) / 2 ^ (32 * (i % 2)) % 2 ^ 32
  let f := mkFrame ([frWord0 0 0 6 0 (pay.length / 64), dst, s.rd (FWD_SELF_ADDR_ADDR 0), 0] ++ own ++ [0, 0, 0, 0]) pay (r 0)
  match Box.lookup { s with freeCtr := s.freeCtr + 5 } 0 9 (s.tent 0).bank f with
  | (.out q, s1) => s1.stageOwn q (s.tent 0).bank f
  | (_, s1) => s1

/-- The EVENTs that wait leave (R422). -/
def Box.vc6Drain (s : Box) : Box := s.vc6Q.foldl (fun b e => b.vc6Send e.1 e.2) { s with vc6Q := [] }

/-- Clears the LIVE bit of every member that satisfies `p`, in bank `b` (R77, R84). -/
def Box.clearLive (s : Box) (b : Nat) (p : Nat → Bool) : Box :=
  let ks := (s.tabs.filterMap fun e =>
    if bundleAt b 0 ≤ e.1 ∧ e.1 < bundleAt b 2048 then some ((e.1 - bundleAt b 0) / 32) else none).eraseDups
  ks.foldl (fun (acc : Box) k =>
    (List.range (acc.nmem b k)).foldl (fun (a : Box) m =>
      if a.memLive b k m && p (a.member b k m) then
        a.setTab (bundleAt b k) (wordWith (a.tab (bundleAt b k)) (20 + m) 1 0)
      else a) acc) s

/-! ### Frames under the old bank (R85, R86) -/

/-- The bank a tent's lookups use. -/
def Box.liveBank (s : Box) (t : Nat) : Nat := (s.tent t).bank

/-- A queued frame of a tent was looked up in a bank that is no longer live. -/
def Box.oldBank (s : Box) (t bank : Nat) : Bool := bank != s.liveBank t

/-- Frames queued under the old bank in all tents: in VOQs, in result queues and in staging (R86). -/
def Box.oldFrames (s : Box) : Nat :=
  (s.descs.countP fun d => s.oldBank d.tent d.bank) + (s.results.countP fun r => s.oldBank r.tent r.bank)
    + s.allStaged.countP fun x => s.oldBank x.desc.tent x.desc.bank

/-- FENCED follows the fenced frames (R89). -/
def Box.fenceStatus (s : Box) : Box := s.put (FWD_EPOCH_STATUS_FENCED 0) (s.descs.any fun d => d.fence)

/-- DRAINED is set, with FWD cause 1 on tent 0's page, once every tent counts no frame under the old bank
(R86, R465). -/
def Box.drainCheck (s : Box) : Box :=
  if s.is (FWD_EPOCH_STATUS_DRAINED 0) = false ∧ s.fwdSw = none ∧ s.oldFrames = 0 then
    ((s.put (FWD_EPOCH_STATUS_DRAINED 0) true).raiseInt (fwdPage 0) 1).fenceStatus
  else s

/-- FWD_DRAINED (R86). -/
def execFwdDrained (s : State) : Result := s.actRun Box.drainCheck

/-- An ordered frame of ingress port `p` is still queued under the old bank (R85). -/
def Box.orderedOld (s : Box) (p : Nat) : Bool :=
  (s.descs.any fun d => d.inPort == some p && frOch d.frame != 0 && s.oldBank d.tent d.bank)
    || s.allStaged.any fun x => x.desc.inPort == some p && frOch x.desc.frame != 0 && s.oldBank x.desc.tent x.desc.bank

/-- The fence of an ingress port is released when none of its ordered frames is left under the old bank (R85). -/
def Box.fenceRelease (s : Box) (p : Nat) : Box :=
  if s.orderedOld p then s
  else
    let free (d : Desc) : Desc := if d.inPort = some p then { d with fence := false } else d
    Box.fenceStatus { s with descs := s.descs.map free }

/-- FENCE_RELEASE (R85). -/
def execFenceRelease (p : Slot) (s : State) : Result := s.actRun fun b => b.fenceRelease p.toNat

/-! ### Table commands (R74, R461) -/

/-- The BAR2 offset of an entry and its words: table 0 row, 1 rack, 2 bundle. -/
def fwdEntryAt (table b i : Nat) : Nat × Nat :=
  match table with
  | 0 => (rowAt b i, 1)
  | 1 => (rackAt b i, 1)
  | _ => (bundleAt b i, 8)

/-- The entries of a table. -/
def fwdTableLen (table : Nat) : Nat :=
  match table with
  | 0 => 256
  | 1 => 16384
  | _ => 2048

/-- The defined bits of word `i` of an entry (R71 to R73). -/
def fwdWordMask (table i : Nat) : Nat :=
  match table with
  | 0 => 0xFFF80000
  | 1 => 0xFFFFFF00
  | _ => match i with
    | 0 => 0xFFF00000
    | 1 | 2 | 3 | 4 => 0x07FF07FF
    | 5 | 6 => 0x77777777
    | _ => 0

/-- A word with the bits outside a mask stored as 0. -/
def maskWord (w : Word) (m : Nat) : Word := w &&& BitVec.ofNat 32 m

/-- The checks of R74 on an entry for a bank: true where it is rejected. -/
def Box.fwdReject (s : Box) (table b : Nat) (ws : List Word) : Bool :=
  let w := fun i => ws.getD i 0
  let nm := wordField (w 0) 28 4
  let bad := match table with
    | 0 => wordField (w 0) 30 2 == 3
    | 1 => false
    | _ => decide (8 < nm)
        || ((List.range nm).any fun m => !s.isPort (wordField (w (1 + m / 2)) (if m % 2 = 0 then 16 else 0) 11))
        || (decide (nm ≠ 0) && (List.range 16).any fun h => decide (nm ≤ wordField (w (5 + h / 8)) (4 * (h % 8)) 3))
  let standby := 1 - s.rd (FWD_EPOCH_STATUS_LIVE 0)
  bad || b != standby || !s.is (FWD_EPOCH_STATUS_DRAINED 0) || s.is (FWD_EPOCH_STATUS_PENDING 0)

/-- Some word of an entry sets a reserved bit. -/
def fwdReserved (table : Nat) (ws : List Word) : Bool :=
  (List.range ws.length).any fun i => maskWord (ws.getD i 0) (fwdWordMask table i) != ws.getD i 0

/-- The words of an entry with reserved bits stored as 0. -/
def fwdClean (table : Nat) (ws : List Word) : List Word :=
  ws.mapIdx fun i w => maskWord w (fwdWordMask table i)

/-- A table command is taken, written from the window or read into it; `BUSY` holds until FWD_TBL_DONE. While BUSY
or a copy runs it is ignored with the access-error indication, and so is an index beyond the table (R74, R87,
R461). A rejected write sets REJECTED, the access-error indication and FWD cause 4.
DEDUCED, log entry 24. -/
def Box.fwdTblCmd (s : Box) (src : Requester) (table b i : Nat) (read : Bool) : Box :=
  let a := FWD_TBL_CMD_at 0
  if table = 3 then s.rsvWriteAt a src
  else if s.is (FWD_TBL_STATUS_BUSY 0) then s.accErrAt a src
  else if fwdTableLen table ≤ i then s.accErrAt a src
  else
    let (at_, n) := fwdEntryAt table b i
    if read then { (s.put (FWD_TBL_STATUS_BUSY 0) true) with fwdOp := some ⟨at_, [], true⟩ }
    else
      let ws := (List.range n).map fun k => s.word (FWD_WIN_at 0 k)
      if s.is (FWD_EPOCH_STATUS_COPY_BUSY 0) then s.accErrAt a src
      else if s.fwdReject table b ws then
        ((s.put (FWD_TBL_STATUS_REJECTED 0) true).accErrAt a src).raiseInt (fwdPage 0) 4
      else
        let s1 := if fwdReserved table ws then s.rsvWriteAt a src else s
        { (s1.put (FWD_TBL_STATUS_BUSY 0) true) with fwdOp := some ⟨at_, fwdClean table ws, false⟩ }

/-- FWD_TBL_WRITE (R74). -/
def execFwdTblWrite (src : Requester) (table : BitVec 2) (bank : Bool) (index : BitVec 14) (s : State) : Result :=
  s.actReg (FWD_TBL_CMD_at 0) src fun b => b.fwdTblCmd src table.toNat (b2n bank) index.toNat false

/-- FWD_TBL_READ (R461). -/
def execFwdTblRead (src : Requester) (table : BitVec 2) (bank : Bool) (index : BitVec 14) (s : State) : Result :=
  s.actReg (FWD_TBL_CMD_at 0) src fun b => b.fwdTblCmd src table.toNat (b2n bank) index.toNat true

/-- Words of an entry of the tables. -/
def fwdEntryWords (at_ : Nat) : Nat := if at_ % 0x100000 < 0x20000 then 1 else 8

/-- A table command completes: every copy holds the entry, or the window does (R74, R461). -/
def Box.fwdTblDone (s : Box) : Box :=
  match s.fwdOp with
  | none => s
  | some o =>
    let s1 := if o.read then s.setWords (FWD_WIN_at 0 0) (s.tabEntry o.at_ (fwdEntryWords o.at_))
      else s.setTabEntry o.at_ o.words
    { (s1.put (FWD_TBL_STATUS_BUSY 0) false) with fwdOp := none }

/-- FWD_TBL_DONE (R74). -/
def execFwdTblDone (s : State) : Result := s.actRun Box.fwdTblDone

/-! ### Bank switches (R83, R84) -/

/-- A switch is requested, at once or at a trigger unit's instant, or refused with the access-error indication
(R83). -/
def Box.fwdSwitch (s : Box) (src : Requester) (atTrig : Bool) (trig : Nat) : Box :=
  if s.is (FWD_EPOCH_STATUS_PENDING 0) || !s.is (FWD_EPOCH_STATUS_DRAINED 0) || s.is (FWD_TBL_STATUS_BUSY 0)
      || s.is (FWD_EPOCH_STATUS_COPY_BUSY 0) then
    s.accErrAt (FWD_EPOCH_CTRL_at 0) src
  else
    { (s.put (FWD_EPOCH_STATUS_PENDING 0) true) with
      fwdSw := some ⟨if atTrig then some trig else none, none, List.range 8⟩ }

/-- FWD_SWITCH (R83): the write sets SRC and TRIG, then requests the switch. A refused request leaves SRC and TRIG as written.
DESIGN CHOICE, log entry 160. -/
def execFwdSwitch (src : Requester) (atTrig : Bool) (trig : BitVec 5) (s : State) : Result :=
  s.actReg (FWD_EPOCH_CTRL_at 0) src fun b =>
    ((b.put (FWD_EPOCH_CTRL_SRC 0) atTrig).wr (FWD_EPOCH_CTRL_TRIG 0) trig.toNat).fwdSwitch src atTrig trig.toNat

/-- A tent may take the switch (R83): at once with SRC = 0; else once its own replica reads the instant of the trigger unit
(09_network_time.md R258, R279), that of its firing or, before it, that for which it is armed. -/
def Box.switchDue (s : Box) (w : FwdSwitch) (t : Nat) : Bool :=
  match w.trig, w.inst with
  | none, _ => true
  | some _, some i => decide (i ≤ s.tentTick t)
  | some u, none => s.is (TGT_TRIG_CTRL_ARM u) && decide (s.trigTime u ≤ s.tentTick t)

/-- One tent takes the switch (R83, R84). The first clears the LIVE bits of members whose port is not up in the
bank that goes live; with the last, LIVE names the new bank, PENDING clears, FWD cause 0 is set on tent 0's page,
and racks that the switch made unreachable are withdrawn (R80). DRAINED clears where a frame is queued under the old bank
(R86).
DEDUCED, log entry 63. -/
def Box.fwdBankSwitch (s : Box) (t : Nat) : Box :=
  match s.fwdSw with
  | none => s
  | some w =>
    if s.switchDue w t = true ∧ t ∈ w.left then
      let old := s.rd (FWD_EPOCH_STATUS_LIVE 0)
      let new := 1 - old
      let s1 := s.clearLive new fun p => !s.up p
      let s1' := s1.setTent t { s1.tent t with bank := new }
      let s2 := if s1'.oldFrames = 0 then s1' else s1'.put (FWD_EPOCH_STATUS_DRAINED 0) false
      let left := w.left.filter (· ≠ t)
      if left = [] then
        let s3 := { ((s2.wr (FWD_EPOCH_STATUS_LIVE 0) new).put (FWD_EPOCH_STATUS_PENDING 0) false) with fwdSw := none }
        let port := (Config.freeBits s3.freeCtr).toNat % 65536
        let s4 := Box.withdraw { s3 with freeCtr := s3.freeCtr + 1 } (s3.reachable old) (s3.reachable new) port
        (s4.raiseInt (fwdPage 0) 0).fenceStatus
      else { s2 with fwdSw := some { w with left := left, inst := w.inst <|> w.trig.map s.trigTime } }
    else s

/-- FWD_BANK_SWITCH (R84). -/
def execFwdBankSwitch (t : TentIx) (s : State) : Result := s.actRun fun b => b.fwdBankSwitch t.toNat

/-- A trigger unit fires at the instant `i`: a pending switch that waits for it has its instant (R83). -/
def Box.fwdTrigger (s : Box) (u i : Nat) : Box :=
  match s.fwdSw with
  | some w => if w.trig = some u ∧ w.inst = none then { s with fwdSw := some { w with inst := some i } } else s
  | none => s

/-- A copy of a result frame of kind 2 or 3 is lost at a port (R366). -/
def Box.loseCopy (s : Box) (f : Frame) (k : ResKey) (port reason : Nat) : Box :=
  if frKind f = 2 ∨ frKind f = 3 then s.postFlushed (frStream f) (frCepoch f) k.chunk k.part port reason else s

/-- A result lost to a flush or a retirement: one entry for each port it was due at (R366). -/
def Box.loseResult (s : Box) (r : ResRec) (ports : List Nat) (reason : Nat) : Box :=
  ports.foldl (fun b p => b.loseCopy r.frame ⟨r.id, r.chunk, r.part⟩ p reason) s

/-- The tent that holds a granted frame: its egress tent once it is staged whole there (13_counters.md R396). -/
def Staged.heldIn (x : Staged) : Nat := if x.arrived < x.total then x.desc.tent else x.desc.egress / 256

/-- Every frame queued under the old bank is discarded, fences are released, and DRAINED follows once frames being
sent have ended (R86). Frames that the S9 originated without a lookup count under the bank that was live then, and go uncounted.
DESIGN CHOICE, log entry 160. -/
def Box.fwdFlushOld (s : Box) : Box :=
  if s.is (FWD_EPOCH_STATUS_DRAINED 0) then s
  else
    let s1 := s.discardWhere (fun d => s.oldBank d.tent d.bank) 4 fun b d =>
      match d.inPort with
      | some p => b.fwdCount 5 p
      | none => b
    let oldSt (x : Staged) : Bool := s.oldBank x.desc.tent x.desc.bank && !x.started
    let gone := s1.allStaged.filter oldSt
    let s2 := { s1 with staging := (s1.staging.map fun e => (e.1, e.2.filter fun x => !oldSt x)).filter fun e => e.2 ≠ [] }
    let s3 := gone.foldl (fun (b : Box) x =>
      let b1 := (if x.arrived < x.total then b.release x.desc else b).traceExit x.heldIn x.desc.trace
        (some x.desc.egress) 4 x.desc.frame
      match x.desc.inPort with
      | some p => b1.fwdCount 5 p
      | none => match x.result with
        | some k => b1.loseCopy x.desc.frame k x.desc.egress 1
        | none => b1) s2
    let oldRes := s3.results.filter fun r => s.oldBank r.tent r.bank
    let s4 := oldRes.foldl (fun (b : Box) r => (b.freeCells r.tent r.cells).loseResult r (r.due ++ r.won) 1)
      { s3 with results := s3.results.filter fun r => !s.oldBank r.tent r.bank }
    let s5 : Box := { s4 with descs := s4.descs.map fun d => { d with fence := false } }
    ((List.range 8).foldl (fun b t => b.spillSettle t) s5).fenceStatus.drainCheck

/-- FWD_FLUSH_OLD (R86). -/
def execFwdFlushOld (src : Requester) (s : State) : Result :=
  s.actReg (FWD_EPOCH_CTRL_at 0) src Box.fwdFlushOld

/-- A copy of the live bank into the standby bank starts, or is refused like a write (R87, R74). -/
def Box.fwdCopy (s : Box) (src : Requester) : Box :=
  if !s.is (FWD_EPOCH_STATUS_DRAINED 0) || s.is (FWD_EPOCH_STATUS_COPY_BUSY 0) || s.is (FWD_TBL_STATUS_BUSY 0)
      || s.is (FWD_EPOCH_STATUS_PENDING 0) then
    s.accErrAt (FWD_EPOCH_CTRL_at 0) src
  else s.put (FWD_EPOCH_STATUS_COPY_BUSY 0) true

/-- FWD_COPY (R87). -/
def execFwdCopy (src : Requester) (s : State) : Result := s.actReg (FWD_EPOCH_CTRL_at 0) src fun b => b.fwdCopy src

/-- The copy completes: the standby bank's words are the live bank's, LIVE bits included (R87). -/
def Box.fwdCopyDone (s : Box) : Box :=
  if s.is (FWD_EPOCH_STATUS_COPY_BUSY 0) then
    let live := s.rd (FWD_EPOCH_STATUS_LIVE 0)
    let src := s.tabs.filter fun e => decide (0x100000 * live ≤ e.1) && decide (e.1 < 0x100000 * live + 0x30000)
    let s1 := { s with tabs := mapClear s.tabs (0x100000 * (1 - live)) 0x30000 }
    (src.foldr (fun e b => b.setTab (0x100000 * (1 - live) + (e.1 - 0x100000 * live)) e.2) s1).put
      (FWD_EPOCH_STATUS_COPY_BUSY 0) false
  else s

/-- FWD_COPY_DONE (R87). -/
def execFwdCopyDone (s : State) : Result := s.actRun Box.fwdCopyDone

/-! ### Restoration notices (R462) -/

/-- GO lists the reachable racks of the range in the live bank, in maximal ranges, to be sent in notices of up to
1,024 ranges; it is ignored with the access-error indication where R462 says so. -/
def Box.noticeGo (s : Box) (src : Requester) (count first : Nat) : Box :=
  if s.is (FWD_NOTICE_STATUS_BUSY 0) || count == 0 || decide (16384 < first + count) then
    s.accErrAt (FWD_NOTICE_CTRL_at 0) src
  else
    let rs := toRanges ((s.reachable (s.rd (FWD_EPOCH_STATUS_LIVE 0))).filter fun r => first ≤ r ∧ r < first + count)
    let ns := chunksOf 1024 (rs.length + 1) rs
    if ns = [] then s else { (s.put (FWD_NOTICE_STATUS_BUSY 0) true) with notices := ns }

/-- FWD_NOTICE_GO (R462): the write sets COUNT and FIRST, then GO acts. -/
def execFwdNoticeGo (src : Requester) (count : BitVec 15) (first : BitVec 14) (s : State) : Result :=
  s.actReg (FWD_NOTICE_CTRL_at 0) src fun b =>
    ((b.wr (FWD_NOTICE_CTRL_COUNT 0) count.toNat).wr (FWD_NOTICE_CTRL_FIRST 0) first.toNat).noticeGo src count.toNat
      first.toNat

/-- The next restoration notice leaves; BUSY clears with the last (R462). -/
def Box.noticeSend (s : Box) : Box :=
  match s.notices with
  | [] => s
  | n :: ns =>
    let s1 : Box := { s.sendNotice 0x22 n with notices := ns }
    if ns = [] then s1.put (FWD_NOTICE_STATUS_BUSY 0) false else s1

/-- FWD_NOTICE_SEND (R462). -/
def execFwdNoticeSend (s : State) : Result := s.actRun Box.noticeSend

/-! ### Losing a port (R77, R110) -/

/-- Flushes every VOQ of a lost port in every tent, its staging and its result copies, counting each frame in USH_FLUSH_LINK of the
slot on its ingress tent's page (R77, R110, R366). A frame that the S9 originated counts on the page of the tent that
originated it, the port's own for a control frame.
DESIGN CHOICE, log entry 170. -/
def Box.flushPort (s : Box) (p : Nat) : Box :=
  let s1 := s.discardWhere (fun d => d.egress == p) 4 fun b d => b.count (ushPage1 d.tent) p
  let st := (List.range 8).flatMap fun v => s1.staged (8 * p + v)
  let s2 := (List.range 8).foldl (fun (b : Box) v => b.setStaged (8 * p + v) []) s1
  let s3 := st.foldl (fun (b : Box) x =>
    let b1 := if x.arrived < x.total then b.release x.desc else b
    if x.started then b1
    else
      let b2 := (b1.traceExit x.heldIn x.desc.trace (some p) 4 x.desc.frame).count (ushPage1 x.desc.tent) p
      match x.result with
      | some k => b2.loseCopy x.desc.frame k p 1
      | none => b2) s2
  let hit (r : ResRec) : Bool := decide (p ∈ r.due) || decide (p ∈ r.won)
  let s4 := (s3.results.filter hit).foldl (fun (b : Box) r => (b.loseResult r [p] 1).count (ushPage1 r.tent) p) s3
  let cut (r : ResRec) : ResRec :=
    { r with due := r.due.filter (· ≠ p), won := r.won.filter (· ≠ p), crossing := r.crossing.filter (· ≠ p) }
  let gone (r : ResRec) : Bool := decide (r.due = []) && decide (r.won = []) && decide (r.crossing = [])
  let dead := (s4.results.map cut).filter gone
  dead.foldl (fun (b : Box) r => b.freeCells r.tent r.cells)
    { s4 with results := (s4.results.map cut).filter fun r => !gone r }

/-- A port is lost (R77): its LIVE bits clear in both banks, its queues are flushed, reach is judged again and
what became unreachable is withdrawn. -/
def Box.reroute (s : Box) (p : Nat) : Box :=
  let live := s.rd (FWD_EPOCH_STATUS_LIVE 0)
  let before := s.reachable live
  let s1 := (s.clearLive 0 (· == p)).clearLive 1 (· == p)
  let s2 := s1.flushPort p
  let s3 := s2.withdraw before (s2.reachable live) p
  ((List.range 8).foldl (fun b t => b.spillSettle t) s3).fenceStatus

end Sys2Proof.Machine
end

