-- ==== Sys2Proof/Machine/Groups.lean ====
section
/-!
DEFINITION. The entries of Carousel's tables: groups (06_collectives.md R144), streams (R145), membership sets and
contributors (R147), the binding of an epoch (R149), and the drain set (12_faults.md R375).
-/

namespace Sys2Proof.Machine

/-- A group entry. -/
structure Grp where
  valid   : Bool
  op      : Nat
  fmt     : Nat
  rfmt    : Nat
  dest    : Bool
  rwide   : Bool
  barrier : Bool
  seals   : Bool
  lbase   : Nat
  lcount  : Nat
  dst     : Nat
  mepochA : Nat
  msetA   : Nat
  mepochB : Nat
  bvalid  : Bool
  msetB   : Nat
  fromB   : Nat
  margin  : Nat
  hdim    : Nat
  kslot   : Nat
  deriving DecidableEq, Repr

/-- A stream entry. -/
structure Strm where
  state  : Nat
  group  : Nat
  elems  : Nat
  chunk  : Nat
  part   : Nat
  slots  : Nat
  base   : Nat
  nsliv  : Nat
  cur    : Nat
  rquota : Nat
  tstage : Nat
  snret  : Nat
  deriving DecidableEq, Repr

/-- The BAR2 offset of an entry of a Carousel table: 0 group, 1 stream, 2 membership set, 3 contributor (R409). -/
def carEntryAt (table i : Nat) : Nat :=
  match table with
  | 0 => 0x1000000 + 64 * i
  | 1 => 0x1100000 + 32 * i
  | 2 => 0x1200000 + 512 * i
  | _ => 0x1400000 + 8 * i

/-- Words of an entry. -/
def carEntryWords (table : Nat) : Nat :=
  match table with
  | 0 => 16
  | 1 => 8
  | 2 => 68
  | _ => 2

/-- Entries of a table. -/
def carTableLen (table : Nat) : Nat :=
  match table with
  | 0 => 16384
  | 3 => 65536
  | _ => 4096

/-- The group entry that sixteen words spell. -/
def grpOf (w : Nat → Word) : Grp :=
  { valid := wordBit (w 0) 31, op := wordField (w 0) 27 4, fmt := wordField (w 0) 23 4, rfmt := wordField (w 0) 19 4,
    dest := wordBit (w 0) 18, rwide := wordBit (w 0) 17, barrier := wordBit (w 0) 16, seals := wordBit (w 0) 15,
    lbase := wordField (w 1) 12 20, lcount := wordField (w 2) 14 18, dst := (w 3).toNat,
    mepochA := wordField (w 4) 16 16, msetA := wordField (w 4) 0 12, mepochB := wordField (w 5) 16 16,
    bvalid := wordBit (w 5) 15, msetB := wordField (w 5) 0 12, fromB := wordField (w 6) 16 16,
    margin := wordField (w 7) 0 24, hdim := wordField (w 8) 23 9, kslot := wordField (w 9) 0 16 }

/-- A group entry. -/
def Box.grp (s : Box) (g : Nat) : Grp := grpOf fun i => s.tab (carEntryAt 0 g + 4 * i)

/-- A stream entry. -/
def Box.strm (s : Box) (st : Nat) : Strm :=
  let w := fun i => s.tab (carEntryAt 1 st + 4 * i)
  { state := wordField (w 0) 30 2, group := wordField (w 0) 16 14, elems := (w 1).toNat,
    chunk := wordField (w 2) 16 16, part := wordField (w 2) 8 8, slots := wordField (w 2) 0 8,
    base := wordField (w 3) 20 12, nsliv := wordField (w 3) 7 13, cur := wordField (w 4) 16 16,
    rquota := wordField (w 5) 0 16, tstage := wordField (w 6) 0 20, snret := wordField (w 7) 0 20 }

/-- The group of a stream. -/
def Box.strmGrp (s : Box) (st : Nat) : Grp := s.grp (s.strm st).group

/-- Hardware writes a field of a stream entry. -/
def Box.setStrm (s : Box) (st word lo width v : Nat) : Box :=
  let a := carEntryAt 1 st + 4 * word
  s.setTab a (wordWith (s.tab a) lo width v)

/-- STATE of a stream. -/
def Box.setStrmState (s : Box) (st v : Nat) : Box := s.setStrm st 0 30 2 v

/-- What a stream holds beside its entry. -/
def Box.sx (s : Box) (st : Nat) : StreamX := mapGet (fun _ => {}) s.streams st

/-- Replaces what a stream holds beside its entry. -/
def Box.setSx (s : Box) (st : Nat) (x : StreamX) : Box := { s with streams := mapSet (fun _ => {}) s.streams st x }

/-- The stream is not free: its STATE is not 0, or its reservation is in progress (R146, R152). -/
def Box.strmBusy (s : Box) (st : Nat) : Bool := (s.strm st).state != 0 || (s.sx st).held

/-- The streams that are not free. -/
def Box.busyStreams (s : Box) : List Nat := (s.streams.map (·.1)).filter fun st => s.strmBusy st

/-- A completed epoch waits for its seal record (07_determinism_audit.md R212). -/
def Box.sealLag (s : Box) : Bool :=
  (s.sealJobs.any fun j => j.type == 1)
    || s.streams.any fun e => e.2.held && (s.strmGrp e.1).seals && e.2.epochs.any fun q => q.done && !q.passed

/-- A sliver. -/
def Box.sliver (s : Box) (i : Nat) : Sliver := mapGet (fun _ => {}) s.slivers i
/-- Replaces a sliver. -/
def Box.setSliver (s : Box) (i : Nat) (x : Sliver) : Box := { s with slivers := mapSet (fun _ => {}) s.slivers i x }

/-! ### Membership (R147, R149) -/

/-- A contributor: LEAF, LSPAN and PORT. -/
structure Contrib where
  leaf  : Nat
  lspan : Nat
  port  : Nat
  deriving DecidableEq, Repr

/-- A contributor entry. -/
def Box.contribEntry (s : Box) (i : Nat) : Contrib :=
  let w0 := s.tab (carEntryAt 3 i)
  ⟨wordField w0 12 20, wordField (s.tab (carEntryAt 3 i + 4)) 14 18, wordField w0 0 11⟩

/-- CBASE and NC of a membership set. -/
def Box.setRange (s : Box) (m : Nat) : Nat × Nat :=
  let w := s.tab (carEntryAt 2 m)
  (wordField w 16 16, wordField w 0 13)

/-- The contributors of a membership set, by contributor index. -/
def Box.contribs (s : Box) (m : Nat) : List Contrib :=
  (List.range (s.setRange m).2).map fun j => s.contribEntry ((s.setRange m).1 + j)

/-- The ports of a membership set's BMAP, rising. -/
def Box.bmap (s : Box) (m : Nat) : List Nat :=
  (List.range 64).flatMap fun i =>
    let w := s.tab (carEntryAt 2 m + 4 * (4 + i))
    if w = 0 then [] else ((List.range 32).filter fun b => wordBit w b).map (32 * i + ·)

/-- The binding of a collective epoch: its membership set and membership epoch (R149). -/
def Grp.binding (g : Grp) (e : Nat) : Nat × Nat :=
  if g.bvalid ∧ (e + 65536 - g.fromB) % 65536 < 32768 then (g.msetB, g.mepochB) else (g.msetA, g.mepochA)

/-- The epoch is bound to B. -/
def Grp.boundB (g : Grp) (e : Nat) : Bool := g.bvalid && decide ((e + 65536 - g.fromB) % 65536 < 32768)

/-- The sets that a group's bindings name. -/
def Grp.sets (g : Grp) : List Nat := g.msetA :: (if g.bvalid then [g.msetB] else [])

/-! ### The drain set (12_faults.md R375) -/

/-- The stream's drain set is complete: DONE, once. -/
def Box.drainEval (s : Box) (st : Nat) : Box :=
  let x := s.sx st
  let ports := (s.strmGrp st).sets.flatMap fun m => (s.contribs m).map fun c => c.port
  if x.drainOn = true ∧ x.drained = false ∧ ports.all (fun p => decide (p ∈ x.marked)) = true then
    (s.setSx st { x with drained := true }).raiseInt carPage 7
  else s

/-- A port marks a stream, or goes down, after its DRAIN. -/
def Box.drainMark (s : Box) (st p : Nat) : Box :=
  let x := s.sx st
  if x.drainOn = false ∨ p ∈ x.marked then s else (s.setSx st { x with marked := x.marked ++ [p] }).drainEval st

/-- A group's bindings have changed: its draining streams are looked at again. -/
def Box.drainGroup (s : Box) (gi : Nat) : Box :=
  ((s.streams.map (·.1)).filter fun st => (s.sx st).drainOn && (s.strm st).group == gi).foldl (fun b st => b.drainEval st) s

/-- A port goes down: every draining stream notes it. -/
def Box.drainPortDown (s : Box) (p : Nat) : Box :=
  ((s.streams.map (·.1)).filter fun st => (s.sx st).drainOn).foldl (fun b st => b.drainMark st p) s

/-- STREAM and GROUP of a drain marker. -/
def markStream (f : Frame) : Nat := natField (frW f 4) 12 12
/-- GROUP of a drain marker. -/
def markGroup (f : Frame) : Nat := natField (frW f 5) 18 14

/-- A drain marker names a draining or reserved stream and its group. -/
def Box.markerOk (s : Box) (f : Frame) : Bool :=
  let e := s.strm (markStream f)
  (e.state == 3 || e.state == 1) && e.group == markGroup f

end Sys2Proof.Machine
end

