-- ==== Sys2Proof/Machine/Time.lean ====
section
/-!
DEFINITION. Fabric time changes (09_network_time.md R259), PTP messages (R268 to R273) and what the launch of an event
message starts. The layout of a PTP message is that of IEEE 1588-2019 (PRESUMED, assumption log).
-/

namespace Sys2Proof.Machine

/-! ### Rate and state of the servo (R259, R262) -/

/-- A change is requested: its apply tick is 64 tk after the request (R259).
DESIGN CHOICE, log entry 93. -/
def Box.request (s : Box) (a : Apply) : Box := { s with applies := s.applies ++ [{ a with at_ := s.raw + 64 }] }

/-- A rate change is requested. -/
def Box.requestRate (s : Box) (r : Int) : Box := s.request { at_ := 0, rate := some r }

/-- STATE of the servo. -/
def Box.servoState (s : Box) : Nat := s.rd TGT_SERVO_STATUS_STATE

/-- The servo enters a state: the fabric time condition of R190 is broken in every state but TRACK and ROOT, and
entering OUT_OF_BOUND raises the time interrupt (R262, R264, R465). -/
def Box.servoEnter (s : Box) (st : Nat) : Box :=
  let s1 := s.wr TGT_SERVO_STATUS_STATE st
  let s2 := if st = 1 ∨ st = 3 then s1 else s1.envBreakAll (List.range 8) 1
  if st = 5 then s2.raiseInt tgtPage 0 else s2

/-- HOLDOVER: RATE is held at the integral term (R262). -/
def Box.servoHoldover (s : Box) : Box := (s.servoEnter 4).requestRate s.servo.integ

/-- The parent port of the servo goes down: TRACK becomes HOLDOVER (R265). -/
def Box.servoParentLost (s : Box) (p : Nat) : Box :=
  if s.servoState = 3 ∧ s.rd TGT_SERVO_CTRL_PARENT = p then s.servoHoldover else s

/-! ### PTP messages (R268, R269) -/

/-- What a port holds of time transfer. -/
def Box.ptp (s : Box) (p : Nat) : Ptp := mapGet (fun _ => {}) s.ptps p
/-- Replaces it. -/
def Box.setPtp (s : Box) (p : Nat) (x : Ptp) : Box := { s with ptps := mapSet (fun _ => {}) s.ptps p x }

/-- Fabric time in 1/32 tk as 2^-16 ns (R261). -/
def unitsOf (t32 : Nat) : Nat := t32 * 3200

/-- The ten-byte timestamp of a PTP message: seconds and nanoseconds of a time in 2^-16 ns. -/
def ptpStamp (u : Nat) : List Byte := bytesBE 6 (u / 65536000000000) ++ bytesBE 4 (u % 65536000000000 / 65536)

/-- The time in 2^-16 ns that the ten bytes at `i` of a message spell. -/
def ptpTime (m : List Byte) (i : Nat) : Nat := beAt m i 6 * 65536000000000 + beAt m (i + 6) 4 * 65536

/-- The fraction of a time below its whole nanosecond: FRAC of R261. -/
def ptpFrac (u : Nat) : Nat := u % 65536

/-- messageType. -/
def ptpType (m : List Byte) : Nat := beAt m 0 1 % 16
/-- versionPTP. -/
def ptpVersion (m : List Byte) : Nat := beAt m 1 1 % 16
/-- domainNumber. -/
def ptpDomain (m : List Byte) : Nat := beAt m 4 1
/-- twoStepFlag. -/
def ptpTwoStep (m : List Byte) : Bool := (beAt m 6 1).testBit 1
/-- correctionField in 2^-16 ns. -/
def ptpCorr (m : List Byte) : Int := toSigned 64 (beAt m 8 8)
/-- sequenceId. -/
def ptpSeq (m : List Byte) : Nat := beAt m 30 2
/-- sourcePortIdentity. -/
def ptpIdent (m : List Byte) : List Byte := bytesAt m 20 10
/-- A message with another correctionField. -/
def ptpWithCorr (m : List Byte) (c : Int) : List Byte := listPut m 8 (bytesBE 8 (ofSigned 64 c))

/-- controlField of a message type. -/
def ptpControl (ty : Nat) : Nat :=
  match ty with
  | 0 => 0
  | 1 => 1
  | 8 => 2
  | 9 => 3
  | _ => 5

/-- A message from its type, flags, domain, correction, port number (0 for the management Ethernet), sequence number,
logMessageInterval and body.
PRESUMED, log entry 98. -/
def ptpMsg (ty flags domain : Nat) (corr : Int) (port seq log : Nat) (body : List Byte) : List Byte :=
  bytesBE 1 ty ++ bytesBE 1 0x12 ++ bytesBE 2 (34 + body.length) ++ bytesBE 1 domain ++ [0] ++ bytesBE 2 flags
    ++ bytesBE 8 (ofSigned 64 corr) ++ bytesBE 4 0 ++ bytesBE 8 Config.clockId.toNat ++ bytesBE 2 port ++ bytesBE 2 seq
    ++ bytesBE 1 (ptpControl ty) ++ bytesBE 1 log ++ body

/-- A message on an Itzal port: logMessageInterval 0x7F, port number slot + 1. -/
def Box.portMsg (s : Box) (p ty flags : Nat) (corr : Int) (seq : Nat) (body : List Byte) : List Byte :=
  ptpMsg ty flags (s.rd TGT_PTP_CTRL_DOMAIN) corr (p + 1) seq 0x7F body

/-- A PTP message leaves on a port in a link-local control frame (R268). -/
def Box.sendPtp (s : Box) (p : Nat) (m : List Byte) : Box :=
  s.originate p (mkControl 4 (s.rd (LNK_PARTNER_ID_ADDR_ADDR p)) (s.rd (FWD_SELF_ADDR_ADDR 0)) [0x30 * 2 ^ 24] m 0)

/-- D of a port in 2^-16 ns (R270): the median of the last eight values, until then half of LNK_RTT.
DEDUCED, log entry 97. -/
def Box.pathDelay (s : Box) (p : Nat) : Int :=
  if (s.ptp p).delays.length < 8 then (s.rd (LNK_RTT_RTT p) * 3200 / 2 : Nat) else (s.rd (TGT_PORT_DELAY_DELAY p) * 3200 : Nat)

/-- A relayed Sync has left and its Follow_Up has come: the Follow_Up goes out with the port's D and the residence time
added to its correctionField (R272). -/
def Box.relaySettle (s : Box) (p : Nat) : Box :=
  let x := s.ptp p
  let ready := x.relays.filter fun r => r.tx.isSome && r.fu.isSome
  let s1 := s.setPtp p { x with relays := x.relays.filter fun r => r.tx = none ∨ r.fu = none }
  ready.foldl (fun (b : Box) r =>
    let m := r.fu.getD []
    b.sendPtp p (ptpWithCorr m (ptpCorr m + s.pathDelay r.src + ((r.tx.getD 0 : Int) - r.rx) * 3200))) s1

/-- A relayed Sync that has not left yet is the one of a sequence number and sourcePortIdentity (R272). -/
def Relay.waits (q : Nat) (id : List Byte) (r : Relay) : Bool := r.seq == q && r.ident == id && r.tx.isNone

/-- The first such Sync has left: those of one port leave in the order in which they came (R272). -/
def stampFirst (q : Nat) (id : List Byte) (t32 : Nat) : List Relay → List Relay
  | [] => []
  | r :: rs => if r.waits q id then { r with tx := some t32 } :: rs else r :: stampFirst q id t32 rs

/-- The launch of an event message on a port at a lane timestamp in 1/32 tk (R268): a Sync of the fabric domain is
followed by its Follow_Up (R271), a relayed one is stamped (R272), a Pdelay_Req's t1 is kept and a Pdelay_Resp is
followed by Pdelay_Resp_Follow_Up with t3 (R270).
DEDUCED, log entry 100. -/
def Box.ptpLaunch (s : Box) (p : Nat) (f : Frame) (t32 : Nat) : Box :=
  let m := frPayload f
  let x := s.ptp p
  let q := ptpSeq m
  let u := unitsOf t32
  if frKind f ≠ 4 ∨ frCode f ≠ 0x30 then s
  else
    match ptpType m with
    | 0 =>
      if x.relays.any (Relay.waits q (ptpIdent m)) then
        (s.setPtp p { x with relays := stampFirst q (ptpIdent m) t32 x.relays }).relaySettle p
      else s.sendPtp p (s.portMsg p 8 0 (ptpFrac u : Nat) q (ptpStamp u))
    | 2 =>
      match x.req with
      | some (n, none) => if n = q then s.setPtp p { x with req := some (n, some t32) } else s
      | _ => s
    | 3 =>
      match x.answer.find? fun a => a.1 = q ∧ a.2.1 = bytesAt m 44 10 with
      | some (_, id, c) =>
        (s.setPtp p { x with answer := x.answer.filter fun a => ¬ (a.1 = q ∧ a.2.1 = id) }).sendPtp p
          (s.portMsg p 10 0 (c + (ptpFrac u : Nat)) q (ptpStamp u ++ id))
      | none => s
    | _ => s

end Sys2Proof.Machine
end

