-- ==== Sys2Proof/Machine/Link.lean ====
section
/-!
DEFINITION. Itzal links: training and capability blocks (02_itzal_link.md R56 to R58, R62), flits in and the frames
they carry (R32 to R40), link retry, port-down (R42, R492), lane map changes (R59, R60) and pauses (R61).
-/

namespace Sys2Proof.Machine

/-! ### Status bits that follow the link record -/

/-- The lanes of the transmit and receive maps in force. -/
def Box.txLanes (s : Box) (p : Nat) : List Nat := mapLanes (s.rd (LNK_LANE_MAP_TX p))
/-- The wavelengths the receiver uses, in logical order. -/
def Box.rxLanes (s : Box) (p : Nat) : List Nat := mapLanes (s.rd (LNK_LANE_MAP_RX p))

/-- CHANGE_PENDING, PAUSED and N of a port follow its link record and its transmit map (R458). -/
def Box.syncLink (s : Box) (p : Nat) : Box :=
  let x := s.port p
  let s1 := (s.put (LNK_PORT_STATUS_CHANGE_PENDING p) (x.pendTx.isSome || x.pendRx.isSome)).put
    (LNK_PORT_STATUS_PAUSED p) (x.pauseTx.isSome || x.pauseRx.isSome)
  s1.wr (LNK_PORT_STATUS_N p) (if s.up p then (s.txLanes p).length else 0)

/-- Replaces the link record and lets the status bits follow. -/
def Box.setLink (s : Box) (p : Nat) (x : Port) : Box := (s.setPort p x).syncLink p

/-! ### Training (R56 to R58) -/

/-- The wavelengths of a port in its mode, λ4 too at 800G (R28). -/
def Box.modeLanes (s : Box) (p : Nat) : List Nat :=
  let m := s.slotMode p
  portLanes m p ++ (if m = 1 then [4] else [])

/-- STATE of the microring that serves a wavelength of a port, in the receive row or the transmit row (10_optics.md R324). -/
def Box.laneRing (s : Box) (p w : Nat) (rx : Bool) : Nat :=
  s.rd (ringState (p / 128) ((if rx then 160 else 0) + 5 * (p / 4 % 32) + w))

/-- Every microring of the port's own wavelengths is verified (10_optics.md R300); in each direction a quarantined wavelength is left
out (12_faults.md R360). -/
def Box.ringsReady (s : Box) (p : Nat) : Bool :=
  let row (rx : Bool) (quar : List Nat) : Bool :=
    let ls := (s.modeLanes p).filter fun w => w ∉ quar
    ls != [] && ls.all fun w => s.laneRing p w rx == 3
  row false (s.port p).txQuar && row true (s.port p).quar

/-- The wavelengths locked at a port's receiver: their microrings are locked, verified or held there, and the lane has not
lost FEC lock and is not quarantined (R57; 10_optics.md R327). -/
def Box.receivable (s : Box) (p : Nat) : List Nat :=
  (s.modeLanes p).filter fun w =>
    w ∉ (s.port p).laneLost ∧ w ∉ (s.port p).quar ∧ 2 ≤ s.laneRing p w true ∧ s.laneRing p w true ≤ 4

/-- Every wavelength that the receiver has locked is deskewed (R33, R56 step 3). -/
def Box.deskewed (s : Box) (p : Nat) : Bool :=
  s.receivable p != [] && (s.receivable p).all fun w => decide (w ∈ (s.port p).aligned)

/-- The capability block the S9 sends on a port (R57, R58; 09_network_time.md R274). -/
def Box.ownBlock (s : Box) (p : Nat) : List Byte :=
  let m := s.slotMode p
  bytesBE 1 1 ++ bytesBE 1 0x13 ++ bytesBE 1 (0x10 + (s.port p).minMinor) ++ bytesBE 1 m
    ++ bytesBE 1 ((s.receivable p).map fun w => 2 ^ w).sum ++ bytesBE 1 3 ++ bytesBE 2 (retryDepth m)
    ++ bytesBE 4 (s.rd SEC_SERIAL_HI_SERIAL) ++ bytesBE 4 (s.rd SEC_SERIAL_LO_SERIAL) ++ bytesBE 2 p
    ++ (List.range 8).flatMap (fun v => bytesBE 2 (s.creditInit p v)) ++ bytesBE 1 0x07
    ++ bytesBE 1 (b2n (s.port p).twice)

/-! ### Sending flits (R31, R33, R34, R46) -/

/-- The VC of the next credit slot: the next in rotation whose counter has changed, else the next (R46). -/
def nextCredit (x : Port) (skip : Option Nat) : Nat :=
  let order := ((List.range 7).map fun i => (x.rot + i) % 7).filter fun v => some v ≠ skip
  ((order.find? fun v => x.freed.getD v 0 ≠ x.told.getD v 0).getD (order.getD 0 0))

/-- Fills the credit slots of one flit: first, second where the link is at 1.3, and the record after (R46). VC5 takes at most
every second first slot, in the rotation too. -/
def creditSlots (x : Port) (two : Bool) : Nat × Option Nat × Port :=
  let five := !x.vc5Last && x.freed.getD 5 0 != x.told.getD 5 0
  let a := if five then 5 else nextCredit x (if x.vc5Last then some 5 else none)
  let x1 := { x with told := x.told.set a (x.freed.getD a 0), vc5Last := a == 5,
                     rot := if five then x.rot else (a + 1) % 7 }
  if two then
    let b := nextCredit x1 (some a)
    (a, some b, { x1 with told := x1.told.set b (x1.freed.getD b 0), rot := (b + 1) % 7 })
  else (a, none, x1)

/-- Bits of flits between two lane-marker codewords of a lane: 256 codewords of 514 symbols (R31). -/
def markerBits : Nat := 256 * 5140

/-- A flit goes out on a lane, given by its logical position and wavelength; after 256 codewords of flit bits a lane-marker
codeword goes before it, with the lane's wavelength and position, the port's slot counter and slot number (R31, R33). -/
def Box.laneFlit (s : Box) (p pos w : Nat) (fl : List Byte) : Box :=
  let x := s.port p
  let n := x.laneBits.getD w 0
  let s1 := if markerBits ≤ n then s.emit (.marker p w pos x.txSlot) else s
  ((s1.setPort p { x with laneBits := x.laneBits.set w (n % markerBits + 2048) })).emit (.flit p pos w fl)

/-- Sends one flit in the port's next transmit slot: slot t goes out on logical lane t mod N (R33). -/
def Box.sendFlit (s : Box) (p ftype seq fstart : Nat) (body : List Byte) : Box :=
  let x := s.port p
  let (a, b, y) := creditSlots x (decide (3 ≤ s.minor p))
  let ext := match b with
    | some v => v * 2 ^ 29 + x.freed.getD v 0 * 2 ^ 13 + 1
    | none => 0
  let fl := mkFlit ftype seq (sub16 x.rxSeq 1) fstart a (x.freed.getD a 0) body ext
  let lanes := s.txLanes p
  let pos := x.txSlot % max 1 lanes.length
  let s1 := (s.setPort p y).laneFlit p pos (lanes.getD pos 7) fl
  s1.setPort p { s1.port p with txSlot := (x.txSlot + 1) % 2 ^ 32, lastTx := s.raw }

/-- A TRAIN flit with the capability block leaves on every lane of the port (R35, R56, R57). No map is in force, so a lane
marker that goes before it gives the wavelength's number as the logical position.
DESIGN CHOICE, log entry 166. -/
def Box.trainFlit (s : Box) (p : Nat) : Box :=
  let x := s.port p
  let fl := mkFlit 3 x.txSeq (sub16 x.rxSeq 1) 31 0 (x.freed.getD 0 0) (s.ownBlock p) 0
  let s1 := (s.modeLanes p).foldl (fun (b : Box) w => b.laneFlit p w w fl) s
  s1.setPort p { s1.port p with lastTx := s.raw }

/-- The agreed version of a block: the lower of the two highest, as major and minor nibbles (R58). -/
def agreedVer (blk : List Byte) : Nat := min 0x13 (beAt blk 1 1)

/-- The causes that hold the port in training with a partner's block (R58): version, mode, credit. -/
def Box.causesOf (s : Box) (p : Nat) (b : List Byte) : Bool × Bool × Bool :=
  let v := agreedVer b
  (decide (v < 0x10 + (s.port p).minMinor) || decide (v < beAt b 2 1),
   beAt b 3 1 != s.slotMode p, blkCredit b 7 != 0)

/-- The same with the block last received. -/
def Box.trainCauses (s : Box) (p : Nat) : Bool × Bool × Bool := s.causesOf p (s.port p).block

/-- LNK_TRAIN_STATUS shows the causes as they hold with the block that the partner's last complete exchange left. -/
def Box.showCauses (s : Box) (p : Nat) : Box :=
  let (v, m, c) := s.causesOf p (s.port p).peer
  ((s.put (LNK_TRAIN_STATUS_VER_MISMATCH p) v).put (LNK_TRAIN_STATUS_MODE_MISMATCH p) m).put
    (LNK_TRAIN_STATUS_CREDIT_ERR p) c

/-- Training step 1: an enabled port whose microrings are verified sends TRAIN flits (R56, R300). The attempt takes MIN_MINOR
as it stands (16_registers.md R456), and a cause of R58 that no longer holds is shown no more. -/
def Box.trainStart (s : Box) (p : Nat) : Box :=
  if s.is (LNK_PORT_CTRL_ENABLE p) = true ∧ s.isPort p = true ∧ s.ringsReady p = true ∧ s.up p = false then
    let x := { s.port p with minMinor := s.rd (LNK_VER_CTRL_MIN_MINOR (p / 256)) }
    let s0 := s.setPort p x
    let s1 := if x.peer = [] then s0 else s0.showCauses p
    ((s1.setPort p { x with block := [], twice := false, echoSeen := false, found := [], aligned := [], trainAt := some s.raw }).put
      (LNK_PORT_STATUS_TRAINING p) true).wr (LNK_TRAIN_STATUS_STEP p) 1
  else s

/-- A capability block arrives in a TRAIN flit (R57): identical twice sets the own echo flag; with the partner's
echo seen, step 4 is complete, the partner's words are taken and the causes judged (R58, R459). -/
def Box.blockReceive (s : Box) (p : Nat) (blk : List Byte) : Box :=
  let x := s.port p
  let twice := x.twice || (x.block != [] && blkCore x.block == blkCore blk)
  let echo := x.echoSeen || beAt blk 35 1 == 1
  let s1 := s.setPort p { x with block := blk, twice := twice, echoSeen := echo }
  if twice && echo then
    let s2 := ((((s1.setPort p { s1.port p with peer := blk }).wr (LNK_PARTNER_INFO_KIND p) (blkKind blk)).wr (LNK_PARTNER_INFO_TCAPS p) (beAt blk 34 1)).wr
      (LNK_PARTNER_INFO_SLOT p) (beAt blk 16 2)).wr (LNK_PARTNER_ID_LO_SERIAL p) (beAt blk 12 4)
    ((s2.wr (LNK_PARTNER_ID_HI_SERIAL p) (beAt blk 8 4)).showCauses p).wr (LNK_TRAIN_STATUS_STEP p) 4
  else s1

/-- A lane map built from receivable wavelengths (R62): each logical lane keeps its wavelength where the other end
receives it, moves to λ4 where that is free and received, and is left unused otherwise.
DEDUCED, log entry 44. -/
def buildMap (lanes : List Nat) (rcv : Nat → Bool) (spare : Bool) : Nat :=
  let step (acc : List Nat × Bool) (w : Nat) : List Nat × Bool :=
    if rcv w then (acc.1 ++ [w], acc.2) else if acc.2 then (acc.1 ++ [4], false) else (acc.1 ++ [7], acc.2)
  let (ls, _) := lanes.foldl step ([], spare && rcv 4)
  (padTo 4 7 ls).foldl (fun a w => a * 8 + w) 0

/-- The median of sixteen round trips: the mean of the two middle ones.
DEDUCED, log entry 40. -/
def medianTrip (l : List Nat) : Nat :=
  let m := sortBy (· ≤ ·) l
  (m.getD 7 0 + m.getD 8 0) / 2

/-- The transmit map that training builds (R62): the wavelengths that the partner's block shows as received, but for those that are
quarantined here (12_faults.md R360). -/
def Box.upTxMap (s : Box) (p : Nat) : Nat :=
  let x := s.port p
  buildMap (portLanes (s.slotMode p) p) (fun w => (beAt x.block 4 1).testBit w && !x.txQuar.contains w) (s.slotMode p == 1)

/-- The receive map that training builds (R62). -/
def Box.upRxMap (s : Box) (p : Nat) : Nat :=
  buildMap (portLanes (s.slotMode p) p) (fun w => decide (w ∈ s.receivable p)) (s.slotMode p == 1)

/-- The round trips may be timed (R56 step 5): the lanes are deskewed, step 4 is complete, none of the causes of R58
holds, and the port has a lane to send on (12_faults.md R363). -/
def Box.mayTime (s : Box) (p : Nat) : Bool :=
  let x := s.port p
  let (v, m, c) := s.trainCauses p
  s.is (LNK_PORT_STATUS_TRAINING p) && s.deskewed p && x.twice && x.echoSeen && !(v || m || c) && mapLanes (s.upTxMap p) != []

/-- Training step 5: the median of the sixteen round trips is stored (R56, R459). -/
def Box.tripsTimed (s : Box) (p : Nat) (trips : List Nat) : Box :=
  (s.wr (LNK_RTT_RTT p) (medianTrip trips)).wr (LNK_TRAIN_STATUS_STEP p) 5

/-- Training completes (R56 steps 5 and 6): RTT, counters at their start, the maps built afresh, UP and LNK
cause 0.
DESIGN CHOICE, log entry 43. -/
def Box.portUp (s0 : Box) (p : Nat) (trips : List Nat) : Box :=
  if s0.mayTime p then
    let s := s0.tripsTimed p trips
    let x := s.port p
    let init := (List.range 8).map fun i => s.creditInit p i
    let y : Port := { x with
      txSeq := 0, rxSeq := 0, retry := [], resend := none, freed := init, told := init,
      sent := List.replicate 8 0, pccum := (List.range 8).map (blkCredit x.block), rot := 0, vc5Last := false,
      txSlot := 0, rxSlot := 0, part := [], skip := false, rrOut := none, lastGood := s.raw, ctlQ := [],
      txVc := none, pendTx := none, pendRx := none, pauseTx := none, pauseRx := none, darkTill := none,
      realign := [], inWindow := false, aligning := false, trainAt := none, ctags := 0, laneBad := List.replicate 4 0,
      stray := List.replicate 4 7 }
    let s1 := ((s.setPort p y).wr (LNK_LANE_MAP_TX p) (s.upTxMap p)).wr (LNK_LANE_MAP_RX p) (s.upRxMap p)
    let s2 := ((s1.wr (LNK_TRAIN_STATUS_STEP p) 6).put (LNK_PORT_STATUS_TRAINING p) false).put (LNK_PORT_STATUS_UP p) true
    let ver := agreedVer x.block
    ((s2.wr (LNK_PORT_STATUS_VER p) (ver / 16 * 4 + ver % 16 % 4)).syncLink p).raiseInt (lnkPage (p / 256)) 0
  else s0

/-- PORT_UP (R56). The trips are sixteen measured round trips in 1/32 tk; with `up` false the command ends after step 5. -/
def execPortUp (p : Slot) (trips : Vector Nat 16) (up : Bool) (s : State) : Result :=
  s.actRun fun b =>
    if up then b.portUp p.toNat trips.toList
    else if b.mayTime p.toNat then b.tripsTimed p.toNat trips.toList
    else b

/-- The attempt is over 100 ms after step 1: it is counted and starts again (R56); LNK cause 2. -/
def Box.trainingRetry (s : Box) (p : Nat) : Box :=
  match (s.port p).trainAt with
  | none => s
  | some t =>
    if s.is (LNK_PORT_STATUS_TRAINING p) = true ∧ t + 64000000 ≤ s.raw then
      ((s.lnkCount 7 p).raiseInt (lnkPage (p / 256)) 2).trainStart p
    else s

/-- TRAINING_RETRY (R56). -/
def execTrainingRetry (p : Slot) (s : State) : Result := s.actRun fun b => b.trainingRetry p.toNat

/-! ### Port-down (R42) -/

/-- Steps 1 to 4 of R42 and R62: TRAIN flits leave, the retry buffer, partial frames and pending changes are discarded,
counters are reset, UP clears with LNK cause 1. -/
def Box.linkDown (s0 : Box) (p : Nat) : Box :=
  let s := (s0.trainFlit p).partFree p
  let x := s.port p
  let y : Port := { x with
    txSeq := 0, rxSeq := 0, retry := [], resend := none, freed := List.replicate 8 0, told := List.replicate 8 0,
    sent := List.replicate 8 0, pccum := List.replicate 8 0, rot := 0, vc5Last := false, txSlot := 0, rxSlot := 0,
    part := [], skip := false, rrOut := none, ctlQ := [], txVc := none, pendTx := none, pendRx := none,
    pauseTx := none, pauseRx := none, darkTill := none, realign := [], inWindow := false, aligning := false, block := [],
    twice := false, echoSeen := false, trainAt := none, laneBad := List.replicate 4 0, stray := List.replicate 4 7,
    found := [], aligned := [] }
  let s1 := (((s.setPort p y).put (LNK_PORT_STATUS_UP p) false).wr (LNK_PORT_STATUS_VER p) 0).wr
    (LNK_LANE_MAP_TX p) 0xFFF
  let s2 := (((s1.wr (LNK_LANE_MAP_RX p) 0xFFF).syncLink p).wr (LNK_TRAIN_STATUS_STEP p) 0).raiseInt
    (lnkPage (p / 256)) 1
  (s2.envBreak p 2).servoParentLost p

/-- A port goes down (R42, R77): after the link, the fault event and the suspect record, then the reroute. A lasting port
is disabled with a suspect of kind 5 (12_faults.md R360); another still enabled trains again at once.
DEDUCED, log entry 51. -/
def Box.portDown (s : Box) (p : Nat) : Box :=
  if s.up p = false then s
  else
    let (i, s3) := (s.linkDown p).takeFree
    let s4 := (s3.postFault 9 ((Config.freeBits i).toNat % 256) (p % 256) (p / 256) 0).postSuspect 1 p 0 0 0 0 0
    let s5 := (s4.reroute p).drainPortDown p
    if s5.lasting 9 (p % 256) (p / 256) then (s5.put (LNK_PORT_CTRL_ENABLE p) false).postSuspect 5 p 0 0 0 0 0
    else s5.trainStart p

/-- LINK_SILENCE_TIMEOUT (R42, R61, R131): no flit has passed its CRC for 1,280 tk, while detection is not
suspended by the partner's PAUSE or by a bypass window. -/
def Box.silence (s : Box) (p : Nat) : Box :=
  let x := s.port p
  let dark := match x.darkTill with
    | some t => x.inWindow || decide (s.raw < t)
    | none => x.inWindow
  if s.up p = true ∧ x.lastGood + 1280 ≤ s.raw ∧ x.pauseRx = none ∧ dark = false then s.portDown p else s

/-- LINK_SILENCE_TIMEOUT (R42). -/
def execLinkSilenceTimeout (p : Slot) (s : State) : Result := s.actRun fun b => b.silence p.toNat

/-- SKEW is set with LNK cause 3 and the port goes down (R33, R492). -/
def Box.skewDown (s : Box) (p : Nat) : Box :=
  ((s.put (LNK_PORT_STATUS_SKEW p) true).raiseInt (lnkPage (p / 256)) 3).portDown p

/-! ### Link retry (R39, R40) -/

/-- A control message takes the next transmit slot; only a RESUME that waits stays before it (R40, R61). -/
def ctlFirst (q : List (List Byte)) (m : List Byte) : List (List Byte) :=
  match q with
  | r :: rest => if r = msgResume then r :: m :: rest else m :: q
  | [] => [m]

/-- RETRY_REQ for the expected SEQ goes out in the next transmit slot, unless one is outstanding already (R40). -/
def Box.wantRetry (s : Box) (p : Nat) : Box :=
  let x := s.port p
  match x.rrOut with
  | some _ => s
  | none => s.setPort p { x with rrOut := some (1, s.raw), ctlQ := ctlFirst x.ctlQ (msgRetryReq x.rxSeq) }

/-- A received RETRY_REQ rewinds to the named SEQ, counted in LNK_RETRY_CNT, or is counted in LNK_PROTO_ERR where
the SEQ is not held (R40). -/
def Box.onRetryReq (s : Box) (p seq : Nat) : Box :=
  let x := s.port p
  if x.retry.any fun f => f.seq == seq then (s.setPort p { x with resend := some seq }).lnkCount 0 p
  else s.lnkCount 1 p

/-- RETRY_REQ (R40). -/
def execRetryReq (p : Slot) (seq : BitVec 16) (s : State) : Result :=
  s.actRun fun b => if b.up p.toNat then b.onRetryReq p.toNat seq.toNat else b

/-- RETRY_REQ is repeated every LNK_RTT + 256 tk after it left; after the eighth without the flit the port goes down with
RETRY_EXHAUSTED (R40, R42). None is sent, or counted as sent, while one still waits to leave or the port sends nothing. -/
def Box.retryRepeat (s : Box) (p : Nat) : Box :=
  let x := s.port p
  let waits := x.ctlQ.any fun m => beAt m 0 1 == 1
  match x.rrOut with
  | none => s
  | some (n, t) =>
    if waits || x.pauseTx.isSome || x.inWindow || x.aligning then s
    else if s.up p = true ∧ t + s.rd (LNK_RTT_RTT p) / 32 + 256 ≤ s.raw then
      if 8 ≤ n then
        ((s.put (LNK_PORT_STATUS_RETRY_EXHAUSTED p) true).raiseInt (lnkPage (p / 256)) 3).portDown p
      else s.setPort p { x with rrOut := some (n + 1, s.raw), ctlQ := ctlFirst x.ctlQ (msgRetryReq x.rxSeq) }
    else s

/-- RETRY_REQ_REPEAT (R40). -/
def execRetryReqRepeat (p : Slot) (s : State) : Result := s.actRun fun b => b.retryRepeat p.toNat

/-! ### Lane maps (R59, R60) -/

/-- Slot `t` has been reached by a 32-bit slot counter at `now`. -/
def slotReached (now t : Nat) : Bool := decide ((now + 2 ^ 32 - t) % 2 ^ 32 < 2 ^ 31)

/-- A received LANE_MAP_REQ is checked and answered (R59 step 2, R60): a forced one replaces any pending change. T counts from
the slot that carried the request, the last one received. Where several reasons hold, the lowest is given.
DESIGN CHOICE, log entry 152. -/
def Box.onLaneReq (s : Box) (p : Nat) (force : Bool) (map t : Nat) : Box :=
  let x := s.port p
  let d := (t + 2 ^ 32 + 1 - x.rxSlot) % 2 ^ 32
  let used := [0, 1, 2, 3].map (mapLane map) |>.filter (· ≠ 7)
  if used.any fun w => decide (w ∉ s.receivable p ∨ w ∉ x.aligned) then s.sendCtl p (msgLaneNak 1 t)
  else if x.pendRx.isSome && !force then s.sendCtl p (msgLaneNak 2 t)
  else if d < (if force then 64 else 4096) ∨ 65536 < d then s.sendCtl p (msgLaneNak 3 t)
  else (s.setLink p { x with pendRx := some ⟨map, t, force, true, true⟩ }).sendCtl p (msgLaneAck t)

/-- LANE_MAP_REQ (R59). -/
def execLaneMapReq (p : Slot) (force : Bool) (map : BitVec 12) (t : BitVec 32) (s : State) : Result :=
  s.actRun fun b => if b.up p.toNat then b.onLaneReq p.toNat force map.toNat t.toNat else b

/-- A received LANE_MAP_ACK confirms the pending change it names (R59). -/
def Box.onLaneAck (s : Box) (p t : Nat) : Box :=
  let x := s.port p
  match x.pendTx with
  | some c => if c.sent = true ∧ c.at_ = t then s.setPort p { x with pendTx := some { c with acked := true } } else s
  | none => s

/-- LANE_MAP_ACK (R59). -/
def execLaneMapAck (p : Slot) (t : BitVec 32) (s : State) : Result := s.actRun fun b => b.onLaneAck p.toNat t.toNat

/-- A received LANE_MAP_NAK ends the planned change it names; a forced one goes on (R59, R60).
DEDUCED, log entry 42. -/
def Box.onLaneNak (s : Box) (p t : Nat) : Box :=
  let x := s.port p
  match x.pendTx with
  | some c => if c.sent = true ∧ c.at_ = t ∧ c.force = false then s.setLink p { x with pendTx := none } else s
  | none => s

/-- LANE_MAP_NAK (R59): the reason is the partner's. -/
def execLaneMapNak (p : Slot) (_reason : BitVec 8) (t : BitVec 32) (s : State) : Result :=
  s.actRun fun b => b.onLaneNak p.toNat t.toNat

/-- At switch slot T the new map is in force (R59 step 3); a change of N breaks the envelope (R190). -/
def Box.laneSwitch (s : Box) (p : Nat) (d : Dir) : Box :=
  let x := s.port p
  match d with
  | .tx =>
    match x.pendTx with
    | some c =>
      if c.sent && slotReached x.txSlot c.at_ && (c.acked || c.force) then
        let n := (s.txLanes p).length
        let s1 := (s.wr (LNK_LANE_MAP_TX p) c.map).setLink p { x with pendTx := none }
        if (s1.txLanes p).length = n then s1 else s1.envEvent p 2
      else s
    | none => s
  | .rx =>
    match x.pendRx with
    | some c =>
      if slotReached x.rxSlot c.at_ then (s.wr (LNK_LANE_MAP_RX p) c.map).setLink p { x with pendRx := none } else s
    | none => s

/-- LANE_MAP_SWITCH (R59). -/
def execLaneMapSwitch (p : Slot) (d : Dir) (s : State) : Result := s.actRun fun b => b.laneSwitch p.toNat d

/-- A planned change without its ACK by slot T - 1,024 is cancelled (R59). -/
def Box.laneCancel (s : Box) (p : Nat) : Box :=
  let x := s.port p
  match x.pendTx with
  | some c =>
    if c.sent && !c.force && !c.acked && slotReached (x.txSlot + 1024) c.at_ then s.setLink p { x with pendTx := none } else s
  | none => s

/-- LANE_MAP_CANCEL (R59). -/
def execLaneMapCancel (p : Slot) (s : State) : Result := s.actRun fun b => b.laneCancel p.toNat

/-- A change of the own transmit map is requested: LANE_MAP_REQ waits for its slot and the change is pending. A planned one
is not made while another is pending (R59, R60). -/
def Box.laneChange (s : Box) (p : Nat) (force : Bool) (map : Nat) : Box :=
  let x := s.port p
  if (x.pendTx.isSome && !force) || !s.up p then s
  else
    s.setLink p { x with pendTx := some ⟨map, 0, force, false, false⟩,
                         ctlQ := (x.ctlQ.filter fun m => beAt m 0 1 != 2) ++ [msgLaneReq force map 0] }

/-- A control message as it leaves in the port's next slot: the repeat of a RETRY_REQ is timed from there (R40); a LANE_MAP_REQ gets its switch slot T there, the least that the
rule allows after that slot, 4,096 slots for a planned change and 64 for a forced one (R59, R60).
DESIGN CHOICE, log entry 152. -/
def Box.stampCtl (s : Box) (p : Nat) (m : List Byte) : List Byte × Box :=
  let x := s.port p
  if beAt m 0 1 = 1 then (m, s.setPort p { x with rrOut := x.rrOut.map fun r => (r.1, s.raw) })
  else match x.pendTx with
  | some c =>
    if beAt m 0 1 = 2 ∧ c.sent = false then
      let t := (x.txSlot + (if c.force then 64 else 4096)) % 2 ^ 32
      (msgLaneReq c.force c.map t, s.setPort p { x with pendTx := some { c with at_ := t, sent := true } })
    else (m, s)
  | none => (m, s)

/-- The transmit map without wavelength `w`: the lane moves to λ4 where an 800G port has it free, it is not quarantined and the
partner receives it, and is shed otherwise (R59, R60). -/
def Box.mapWithout (s : Box) (p w : Nat) : Nat :=
  let m := s.rd (LNK_LANE_MAP_TX p)
  match [0, 1, 2, 3].find? fun i => mapLane m i == w with
  | none => m
  | some i =>
    let free := s.slotMode p == 1 && !(mapLanes m).contains 4 && (beAt (s.port p).block 4 1).testBit 4
      && !(s.port p).txQuar.contains 4
    mapWithLane m i (if free then 4 else 7)

/-- A received LANE_FAIL makes the sender force a change that removes the lost wavelength (R60). A port with one
lane has nothing to shed onto (R61). -/
def Box.onLaneFail (s : Box) (p lane : Nat) : Box :=
  match (s.txLanes p)[lane]? with
  | none => s
  | some w =>
    let m := s.mapWithout p w
    if mapLanes m = [] then s else s.laneChange p true m

/-- LANE_FAIL (R60). -/
def execLaneFail (p : Slot) (lane : BitVec 2) (s : State) : Result :=
  s.actRun fun b => if b.up p.toNat then b.onLaneFail p.toNat lane.toNat else b

/-- The receiver adopts a wavelength outside its map for a lane after 16 failed flits, while that wavelength carries flits
that pass their CRC in the lane's slots (R60); LNK cause 4. -/
def Box.laneAdopt (s : Box) (p lane w : Nat) : Box :=
  let m := s.rd (LNK_LANE_MAP_RX p)
  match (s.rxLanes p)[lane]? with
  | none => s
  | some old =>
    match [0, 1, 2, 3].find? fun i => mapLane m i == old with
    | none => s
    | some i =>
      if s.up p = true ∧ 16 ≤ (s.port p).laneBad.getD lane 0 ∧ (mapLanes m).contains w = false
          ∧ w ∈ s.modeLanes p ∧ (s.port p).stray.getD lane 7 = w then
        (((s.wr (LNK_LANE_MAP_RX p) (mapWithLane m i w)).setPort p
          { s.port p with laneBad := (s.port p).laneBad.set lane 0, stray := (s.port p).stray.set lane 7 }).lnkCount 8 p).raiseInt (lnkPage (p / 256)) 4
      else s

/-- LANE_ADOPT (R60). -/
def execLaneAdopt (p : Slot) (lane : BitVec 2) (wl : BitVec 3) (s : State) : Result :=
  s.actRun fun b => b.laneAdopt p.toNat lane.toNat wl.toNat

/-- A fault event against a lane: loss of FEC lock; a lasting lane is left out of the map (12_faults.md R359, R360). -/
def Box.laneFault (s : Box) (p w : Nat) : Box :=
  let (i, s1) := s.takeFree
  let unit := 5 * (p / 4 % 64) + w
  let s2 := s1.postFault 1 ((Config.freeBits i).toNat % 256) unit (p / 256) (s.rxLanes p).length
  let x := s2.port p
  if s2.lasting 1 unit (p / 256) then s2.setPort p { x with quar := w :: x.quar.filter (· ≠ w) } else s2

/-- A lane has lost FEC lock for 640 tk: LANE_FAIL goes out while another active lane holds lock (R60, R492). -/
def Box.laneFecLoss (s : Box) (p lane : Nat) (others : Bool) : Box :=
  match (s.rxLanes p)[lane]? with
  | none => s
  | some w =>
    if s.up p = false then s
    else
      let x := s.port p
      let s1 := s.setPort p { x with laneLost := w :: x.laneLost.filter (· ≠ w), aligned := x.aligned.filter (· ≠ w) }
      let s2 := s1.laneFault p w
      if others = true ∧ 1 < (s.rxLanes p).length then s2.sendCtl p (msgLaneFail lane) else s2

/-- LANE_FEC_LOSS (R60). -/
def execLaneFecLoss (p : Slot) (lane : BitVec 2) (othersLocked : Bool) (s : State) : Result :=
  s.actRun fun b => b.laneFecLoss p.toNat lane.toNat othersLocked

/-! ### Pauses (R61) -/

/-- A pending lane map change is cancelled before its request has left: the request goes too (R61, R62). -/
def dropLaneReq (q : List (List Byte)) : List (List Byte) := q.filter fun m => beAt m 0 1 != 2

/-- A received PAUSE suspends silence detection until RESUME or its length plus 5,120 tk, and cancels pending
changes; below version 1.2 it is counted in LNK_PROTO_ERR (R58, R61). A length above 32,000 tk is taken as it stands.
DESIGN CHOICE, log entry 152. -/
def Box.onPause (s : Box) (p len : Nat) : Box :=
  if s.minor p < 2 then s.lnkCount 1 p
  else
    let x := s.port p
    (s.setLink p { x with pauseRx := some (s.raw + len + 5120), pendTx := none, pendRx := none,
                          ctlQ := dropLaneReq x.ctlQ }).envEvent p 2

/-- PAUSE (R61). -/
def execPause (p : Slot) (len : BitVec 24) (s : State) : Result :=
  s.actRun fun b => if b.up p.toNat then b.onPause p.toNat len.toNat else b

/-- A received RESUME: slot counters are 0 at the slot that carried it, so the next receive slot is 1, and RETRY_REQ for the
expected SEQ goes out, once: no flit of a pause has failed (R61 step 4). Without a pause in force it is ignored.
DESIGN CHOICE, log entry 152. -/
def Box.onResume (s : Box) (p : Nat) : Box :=
  let x := s.port p
  if s.minor p < 2 then s.lnkCount 1 p
  else if x.pauseRx = none then s
  else
    s.setLink p { x with pauseRx := none, txSlot := 0, rxSlot := 1, lastGood := s.raw,
                         ctlQ := ctlFirst x.ctlQ (msgRetryReq x.rxSeq) }

/-- RESUME (R61). -/
def execResume (p : Slot) (s : State) : Result := s.actRun fun b => if b.up p.toNat then b.onResume p.toNat else b

/-- RESUME has not come within the extended limit: the port goes down (R61). -/
def Box.pauseTimeout (s : Box) (p : Nat) : Box :=
  match (s.port p).pauseRx with
  | some t => if t ≤ s.raw then s.portDown p else s
  | none => s

/-- PAUSE_TIMEOUT (R61). -/
def execPauseTimeout (p : Slot) (s : State) : Result := s.actRun fun b => b.pauseTimeout p.toNat

/-- The S9 pauses its own sending (R61 step 1): on a link agreed at 1.2 or above. -/
def Box.sendPause (s : Box) (p len : Nat) : Box :=
  let x := s.port p
  if s.up p = false ∨ s.minor p < 2 ∨ x.pauseTx.isSome then s
  else
    (s.setLink p { x with pauseTx := some (s.raw + min len 32000), pendTx := none, pendRx := none,
                          ctlQ := dropLaneReq x.ctlQ ++ [msgPause (min len 32000)] }).envEvent p 2

/-- The S9 resumes (R61 steps 3 and 4): RESUME goes first, slot counters start at 0, RETRY_REQ follows. -/
def Box.sendResume (s : Box) (p : Nat) : Box :=
  let x := s.port p
  if x.pauseTx = none then s
  else
    s.setLink p { x with pauseTx := none, txSlot := 0, rxSlot := 0, lastGood := s.raw,
                         ctlQ := [msgResume, msgRetryReq x.rxSeq] ++ x.ctlQ }

/-! ### Received flits (R32 to R40) -/

/-- When and where a frame's first flit came: lane timestamp, tick of the replica counter, wavelength. -/
structure FirstFlit where
  stamp : Stamp
  raw   : Nat
  lane  : Nat
  deriving DecidableEq, Repr

/-- The last bytes of a frame have come: it has the rest of its cells and waits for the header stage (04_buffers.md R92). -/
def Box.frameLand (s : Box) (p : Nat) (f : Frame) (at_ : FirstFlit) : Box :=
  let (cs, s1) := s.growCells (p / 256) (s.port p).partCells (frCells f)
  let x := s1.port p
  s1.setPort p { x with landed := x.landed ++ [⟨f, at_.stamp, at_.lane, cs, x.gen, at_.raw⟩], part := [], partCells := [] }

/-- Bytes of a frame have come and more follow: it takes cells for them, charged to the landing reserve of its port and VC
(04_buffers.md R92). -/
def Box.frameGrow (s : Box) (p : Nat) (bs : List Byte) (at_ : FirstFlit) : Box :=
  let (cs, s1) := s.growCells (p / 256) (s.port p).partCells (cellsOf bs.length)
  s1.setPort p { s1.port p with part := bs, partAt := at_.stamp, partRaw := at_.raw, partLane := at_.lane, partCells := cs }

/-- The frame bytes a header's first word announces. -/
def partLen (bs : List Byte) : Nat := frameLen (frPlen bs)

/-- A VC that takes no frames: VC7, and one whose credit is 0 (R45). -/
def Box.vcClosed (s : Box) (p v : Nat) : Bool := v == 7 || s.creditInit p v == 0

/-- A framing error (R38): the frame in progress is discarded, counted, its cells are freed and return as credit, and frames are
skipped to the next flit with a frame start. On a closed VC the frame counts in LNK_DISC_KIND too, and no credit returns
(R45). -/
def Box.framingError (s : Box) (p : Nat) (inProgress : List Byte) : Box :=
  let s1 :=
    if inProgress = [] then s
    else if s.vcClosed p (frVc inProgress) then s.lnkCount 3 p
    else s.giveCredit p (frVc inProgress) (cellsOf (partLen inProgress))
  let s2 := s1.partFree p
  (s2.setPort p { s2.port p with skip := true }).lnkCount 2 p

/-- Frames that start in the rest of a body, one after the other; a zero first word is padding (R37). -/
def Box.takeFrames (p : Nat) (now : FirstFlit) : Nat → List Byte → Box → Box
  | 0, _, s => s
  | fuel + 1, bs, s =>
    if bs.length < 8 ∨ beAt bs 0 4 = 0 then s
    else if 64 < frPlen bs then s.framingError p bs
    else
      let n := partLen bs
      if n ≤ bs.length then Box.takeFrames p now fuel (bs.drop n) (s.frameLand p (bs.take n) now)
      else s.frameGrow p bs now

/-- The body of an accepted DATA flit goes to the frame layer (R37, R38). While frames are skipped, an FSTART of 30 is no further
framing error.
DESIGN CHOICE, log entry 152. -/
def Box.deliverBody (s : Box) (p fstart : Nat) (body : List Byte) (now : FirstFlit) : Box :=
  let x := s.port p
  if x.skip then
    if fstart < 30 then
      Box.takeFrames p now 31 (body.drop (8 * fstart)) (s.setPort p { x with skip := false })
    else s
  else
    let need := if x.part = [] then 0 else partLen x.part - x.part.length
    let carried := min need 240
    if fstart = 30 ∨ (fstart < 30 ∧ 8 * fstart < carried) then s.framingError p x.part
    else
      let got := x.part ++ body.take carried
      let s1 :=
        if x.part = [] then s
        else if need ≤ 240 then s.frameLand p got ⟨x.partAt, x.partRaw, x.partLane⟩
        else s.frameGrow p got ⟨x.partAt, x.partRaw, x.partLane⟩
      if fstart < 30 then Box.takeFrames p now 31 (body.drop (8 * fstart)) s1 else s1

/-- A CTRL flit's message (R35): each acts as its own step; a reserved code is counted in LNK_PROTO_ERR.
DEDUCED, log entry 41. -/
def Box.onCtl (s : Box) (p : Nat) (body : List Byte) : Box :=
  match beAt body 0 1 with
  | 1 => s.onRetryReq p (beAt body 1 2)
  | 2 => s.onLaneReq p ((beAt body 1 1) % 2 == 1) (beAt body 2 2 % 4096) (beAt body 4 4)
  | 3 => s.onLaneAck p (beAt body 4 4)
  | 4 => s.onLaneNak p (beAt body 4 4)
  | 5 => s.onLaneFail p (beAt body 1 1)
  | 6 => s.onPause p (beAt body 1 3)
  | 7 => s.onResume p
  | _ => s.lnkCount 1 p

/-- ACK and credit counters of a good flit are taken (R34, R39, R43); a resend whose next flit the ACK has taken goes on with
the first flit still held (R40). -/
def Box.takeHeader (s : Box) (p : Nat) (b : List Byte) : Box :=
  let x := s.port p
  let ack := flAck b
  let kept := x.retry.filter fun f => !decide (sub16 ack f.seq < 32768)
  let pc := x.pccum.set (flCvc b) (flCcum b)
  let ext := flExt b
  let pc2 := if 3 ≤ s.minor p ∧ ext % 2 = 1 then pc.set (natField ext 29 3) (natField ext 13 16) else pc
  let again := x.resend.bind fun q => if kept.any fun f => f.seq == q then some q else (kept.head?).map fun f => f.seq
  s.setPort p { x with retry := kept, resend := again, pccum := pc2, lastGood := s.raw }

/-- A flit on a port that is up, after its slot has been counted: `lane` is its logical lane. Bits that do not come on the
wavelength the receive map gives that lane are no flit of the slot (R33); where they pass the CRC on a wavelength outside the
map, the receiver notes it (R60). -/
def Box.flitUp (s : Box) (p lane : Nat) (rx : FlitRx) : Box :=
  let b := rx.bytes
  let bad := rx.fecBad || !flCrcOk b || rx.wl.toNat != (s.rxLanes p).getD lane 7
  let reserved := !bad && decide (4 ≤ flType b)
  if bad || reserved then
    let x := s.port p
    let out := !rx.fecBad && flCrcOk b && !(s.rxLanes p).contains rx.wl.toNat
    let s1 := s.setPort p { x with
      laneBad := x.laneBad.set lane (x.laneBad.getD lane 0 + 1),
      stray := if out then x.stray.set lane rx.wl.toNat else x.stray }
    let s2 := if reserved then s1.lnkCount 1 p else s1
    if reserved || flType b == 0 then s2.wantRetry p else s2
  else
    let x := s.port p
    let s1 := (s.setPort p { x with laneBad := x.laneBad.set lane 0 }).takeHeader p b
    match flType b with
    | 0 =>
      if flSeq b = x.rxSeq then
        let y := s1.port p
        let s2 := s1.setPort p { y with rxSeq := (x.rxSeq + 1) % 65536, rrOut := none }
        s2.deliverBody p (flFstart b) (flBody b) ⟨s.laneStamp (p / 256) rx.sub.toNat, s.replTick (p / 256), rx.wl.toNat⟩
      else if sub16 x.rxSeq (flSeq b) < 32768 then (s1.lnkCount 0 p).wantRetry p
      else s1.wantRetry p
    | 2 => s1.onCtl p (flBody b)
    | _ => s1

/-- A flit that arrives while the lanes are not aligned is discarded; a DATA flit among them is asked for once they are
(R131). -/
def Box.flitDropped (s : Box) (p : Nat) (b : List Byte) : Box :=
  let x := s.port p
  if flType b = 0 ∧ x.rrOut = none then s.setPort p { x with rrOut := some (0, s.raw) } else s

/-- A flit arrives (R32, R34, R40, R42, R57): FEC counts, then the layer the port is in. A TRAIN flit
on a port that is up takes it down, on whichever lane it comes (R35).
DEDUCED, log entries 38, 39. -/
def Box.flitReceive (s : Box) (p : Nat) (rx : FlitRx) : Box :=
  let lnk := lnkPage (p / 256)
  let l := 2304 + 2 * (5 * (p / 4 % 64) + rx.wl.toNat)
  if s.isPort p = false then s
  else
    let s1 := (s.bump lnk l rx.corr).bump lnk (l + 1) rx.uncorr
    if s1.up p then
      let x := s1.port p
      let s2 := s1.setPort p { x with rxSlot := (x.rxSlot + 1) % 2 ^ 32 }
      let good := !rx.fecBad && flCrcOk rx.bytes
      if x.inWindow then s2
      else if good && flType rx.bytes == 3 then s2.portDown p
      else if x.aligning then s2.flitDropped p rx.bytes
      else s2.flitUp p (x.rxSlot % max 1 (s1.rxLanes p).length) rx
    else if s1.is (LNK_PORT_STATUS_TRAINING p) && s1.deskewed p && !rx.fecBad && flCrcOk rx.bytes && flType rx.bytes == 3 then
      s1.blockReceive p ((flBody rx.bytes).take 240)
    else s1

/-- FLIT_RECEIVE (R40): the receiver takes 256 bytes a slot. -/
def execFlitReceive (p : Slot) (rx : FlitRx) (s : State) : Result :=
  s.actRun fun b => b.flitReceive p.toNat { rx with bytes := padTo 256 0 rx.bytes }

/-- A lane marker found in training (R56 steps 2 and 3): its lane is FEC-locked, what it says is kept, and the lane counts as deskewed where it lies
within 160 ns of the others (R33). STEP follows: 2 with a marker found on every locked wavelength, 3 with all deskewed. -/
def Box.markerTrain (s : Box) (p : Nat) (m : LaneMarker) : Box :=
  let w := m.wl.toNat
  let x := s.port p
  let x1 := { x with
    laneLost := x.laneLost.filter (· ≠ w),
    found := w :: x.found.filter (· ≠ w), aligned := if m.skewPs ≤ 160000 then w :: x.aligned.filter (· ≠ w) else x.aligned,
    marks := mapSet (fun _ => (0, 0)) x.marks w (m.pos.toNat, m.portSlot.toNat) }
  let s1 := s.setPort p x1
  let st := s1.rd (LNK_TRAIN_STATUS_STEP p)
  if 3 ≤ st then s1
  else if s1.deskewed p then s1.wr (LNK_TRAIN_STATUS_STEP p) 3
  else if (s1.receivable p).all fun w => decide (w ∈ x1.found) then s1.wr (LNK_TRAIN_STATUS_STEP p) 2
  else s1

/-- A lane marker (R31, R33, R131, R492): too much skew, or a count that disagrees after a gap, takes the port
down with SKEW; after a bypass window the receiver takes the sender's count once every active lane has shown a
marker, and asks for its expected SEQ, again and again only where a DATA flit was discarded. -/
def Box.laneMarker (s : Box) (p : Nat) (m : LaneMarker) : Box :=
  let x := s.port p
  if s.is (LNK_PORT_STATUS_TRAINING p) then s.markerTrain p m
  else if s.up p = false ∨ x.inWindow = true then s
  else if 160000 < m.skewPs then s.skewDown p
  else if x.aligning then
    let seen := m.wl.toNat :: x.realign.filter (· ≠ m.wl.toNat)
    if (s.rxLanes p).all fun w => decide (w ∈ seen) then
      s.setPort p { x with realign := [], aligning := false, rxSlot := m.ctr.toNat, lastGood := s.raw,
                           rrOut := x.rrOut.map fun r => (r.1 + 1, s.raw), ctlQ := ctlFirst x.ctlQ (msgRetryReq x.rxSeq) }
    else s.setPort p { x with realign := seen }
  else
    let w := m.wl.toNat
    let s1 := s.setPort p { x with
      laneLost := x.laneLost.filter (· ≠ w), aligned := w :: x.aligned.filter (· ≠ w),
      marks := mapSet (fun _ => (0, 0)) x.marks w (m.pos.toNat, m.portSlot.toNat) }
    if m.afterGap = true ∧ m.ctr.toNat ≠ x.rxSlot then s1.skewDown p else s1

/-- LANE_MARKER_RECEIVE (R492). -/
def execLaneMarkerReceive (p : Slot) (m : LaneMarker) (s : State) : Result :=
  s.actRun fun b => b.laneMarker p.toNat m

end Sys2Proof.Machine
end

