-- ==== Sys2Proof/Machine/Ingress.lean ====
section
/-!
DEFINITION. The ingress header stage: checks (02_itzal_link.md R45, R49), Turnstile (05_egress_scheduling.md R119 to
R122), lookup and fence (03_forwarding.md R69, R85), admission and enqueue (04_buffers.md R93), what the S9
consumes itself (R51, R54, R68), and the backlog reports (R75).
-/

namespace Sys2Proof.Machine

/-! ### Token buckets (R121, R126) -/

/-- The bucket at a tick, refilled (R121). -/
def Bucket.refill (b : Bucket) (rate burst t : Nat) : Bucket :=
  if b.last < t then ⟨min (burst * 256) (b.tokens + rate * (t - b.last)), t⟩ else b

/-- A configuration write (R122): EN rising fills the bucket, any other write clamps it. -/
def Bucket.configure (b : Bucket) (rise : Bool) (burst t : Nat) : Bucket :=
  if rise then ⟨burst * 256, t⟩ else ⟨min b.tokens (burst * 256), b.last⟩

/-- The counted length of a frame of `n` bytes under a 9-bit signed overhead (R120, R125). -/
def countedLen (n ovh : Nat) : Nat := ((n : Int) + toSigned 9 ovh).toNat

/-- BAR2 offset of Turnstile's bucket of a slot and VC (R139, 14_host_mgmt.md R409). -/
def bucketAt (p v : Nat) : Nat := 0x4000000 + 0x80 * p + 16 * v

/-- Turnstile's bucket. -/
def Box.bucket (s : Box) (p v : Nat) : Bucket := mapGet (fun _ => {}) s.buckets (8 * p + v)

/-- Replaces Turnstile's bucket. -/
def Box.setBucket (s : Box) (p v : Nat) (b : Bucket) : Box :=
  { s with buckets := mapSet (fun _ => {}) s.buckets (8 * p + v) b }

/-- Turnstile polices a frame of `n` bytes whose first flit came at tick `t` of the replica counter (R121): whether it passes. A policed
frame is counted in TRN_DROP.POLICED and raises TRN cause 0. -/
def Box.police (s : Box) (p v n t : Nat) : Bool × Box :=
  let cfg := s.tab (bucketAt p v)
  if wordBit cfg 31 = false then (true, s)
  else
    let len := countedLen n (s.rd (TRN_PORT_OVH_OVH p))
    let b := (s.bucket p v).refill (wordField cfg 0 24) (wordField (s.tab (bucketAt p v + 4)) 0 24) t
    let ok := decide (len * 256 ≤ b.tokens)
    let c : Bucket := if ok then { b with tokens := b.tokens - len * 256 } else b
    let s1 := (s.setBucket p v c).setTab (bucketAt p v + 8) (BitVec.ofNat 32 (c.tokens / 256))
    (ok, if ok then s1 else (s1.countPort (trnPage (p / 256)) (8 * (p % 256) + v) p 1).raiseInt (trnPage (p / 256)) 0)

/-- A write of word `w` of a bucket (R122, R139): TOKENS is read-only, the fourth word reserved.
DEDUCED, log entry 28. -/
def Box.bucketWrite (s : Box) (src : Requester) (p v w : Nat) (x : Word) : Box :=
  let a := bucketAt p v
  let pg := trnPage (p / 256)
  let off := 0x8000 + 128 * (p % 256) + 16 * v + 4 * w
  let t := s.replTick (p / 256)
  let chk (m : Nat) (b : Box) : Box := if maskWord x m = x then b else b.rsvWrite pg off src
  if s.isPort p = false then s.rsvWrite pg off src
  else
    match w with
    | 0 =>
      let rise := wordBit x 31 && !wordBit (s.tab a) 31
      chk 0x80FFFFFF ((s.setTab a (maskWord x 0x80FFFFFF)).setBucket p v
        ((s.bucket p v).configure rise (wordField (s.tab (a + 4)) 0 24) t))
    | 1 =>
      chk 0x00FFFFFF ((s.setTab (a + 4) (maskWord x 0x00FFFFFF)).setBucket p v
        ((s.bucket p v).configure false (wordField x 0 24) t))
    | 2 => chk 0x00FFFFFF s
    | _ => chk 0 s

/-- TRN_BUCKET_WRITE (R122). -/
def execTrnBucketWrite (src : Requester) (p : Slot) (v : Vc) (w : BitVec 2) (value : Word) (s : State) : Result :=
  s.actReg (pageBase (trnPage (p.toNat / 256)) + 0x8000 + 128 * (p.toNat % 256) + 16 * v.toNat + 4 * w.toNat) src
    fun b => b.bucketWrite src p.toNat v.toNat w.toNat value

/-! ### Landed frames that end here -/

/-- A landed frame that is not queued leaves its landing reserve: its cells are freed and, unless its VC is closed,
returned as credit (02_itzal_link.md R43, R45). -/
def Box.landedGone (s : Box) (p : Nat) (l : Landed) (credit : Bool) : Box :=
  let s1 := s.freeCells (p / 256) l.cells
  if credit = true ∧ (s1.port p).gen = l.gen then s1.giveCredit p (frVc l.frame) (frCells l.frame) else s1

/-- What the header stage decides of a frame. -/
inductive Verdict where
  | closed                     -- R45
  | bad (k : Nat)              -- R49: LNK counter
  | egressVersion (slot : Nat) -- R49: counted on the egress port
  | lookup (k : Nat)           -- R69: FWD counter
  | tableBad                   -- an entry of the lookup is uncorrectable (12_faults.md R349)
  | policed                    -- R121
  | badCrc                     -- R54
  | badCode                    -- R51
  | badMarker                  -- 12_faults.md R375
  | steer                      -- R158, R375: for Carousel
  | ptp                        -- R51: for Tightrope
  | inbox                      -- R68: for Ringmaster
  | inboxFull                  -- R111
  | queue (slot : Nat)
  deriving DecidableEq, Repr

/-- DISP of the sample record (13_counters.md R393).
DEDUCED, log entry 47. -/
def Verdict.disp : Verdict → Nat
  | .queue _ => 0
  | .steer => 1
  | .ptp => 2
  | .inbox => 2
  | .policed => 4
  | _ => 3

/-- EXIT of the trace record of a frame that ends at the header stage, none where it goes on (R396). -/
def Verdict.exit : Verdict → Option Nat
  | .queue _ => none
  | .steer => none
  | .policed => some 2
  | .ptp => some 6
  | .inbox => some 6
  | _ => some 1

/-- The checks of R45 and R49 on the ingress side, in the order of the table. -/
def Box.headerCheck (s : Box) (p : Nat) (f : Frame) : Option Verdict :=
  let k := frKind f
  if s.vcClosed p (frVc f) then some .closed
  else if frVmaj f ≠ 1 ∨ s.minor p < frVmin f ∨ s.minor p < kindMinMinor k then some (.bad 4)
  else if 7 ≤ k ∨ k = 3 ∨ kindVcOk k (frVc f) = false then some (.bad 3)
  else if 64 < frPlen f then some (.bad 2)
  else if frHops f = 15 then some (.bad 5)
  else none

/-- What becomes of a frame that passed the ingress checks, its lookup and Turnstile's answer.
DEDUCED, log entry 48. -/
def Box.consume (s : Box) (f : Frame) (r : Route) : Verdict :=
  match frKind f with
  | 1 => .steer
  | 4 =>
    if frCrcOk f = false then .badCrc
    else if frCode f = 0x30 then .ptp
    else if frCode f = 0x40 then (if s.markerOk f then .steer else .badMarker)
    else .badCode
  | _ =>
    match r with
    | .out q => .queue q
    | _ => if frCrcOk f = false then .badCrc else if 512 ≤ s.inbox.length then .inboxFull else .inbox

/-- The egress-version check of R49 on the chosen port. -/
def Box.egressVersion (s : Box) (f : Frame) (q : Nat) : Bool :=
  s.up q && (decide (s.minor q < frVmin f) || decide (s.minor q < kindMinMinor (frKind f)))

/-- The header stage's decision: the verdict, the state after lookup and Turnstile (R49, R69, R119). A frame that
the lookup discards costs no tokens, and a frame that is discarded after it, by the egress-version check or by Turnstile, moves
no spray pointer. `entry` says what SECDED answers for the table entries that the lookup reads (12_faults.md R349).
DESIGN CHOICE, log entry 46. -/
def Box.judge (s : Box) (p : Nat) (l : Landed) (entry : Ecc) : Verdict × Box :=
  let f := l.frame
  match s.headerCheck p f with
  | some v => (v, s)
  | none =>
    let local_ := frKind f == 1 || frKind f == 4
    if local_ = false ∧ entry = .wrong then (.tableBad, s) else
    let (r, s1) := if local_ then (Route.self, s) else s.lookup (p / 256) (pipelineOf p) (s.liveBank (p / 256)) f
    match r with
    | .discard k => (.lookup k, s)
    | r =>
      let egr := match r with
        | .out q => s.egressVersion f q
        | _ => false
      if egr then
        match r with
        | .out q => (.egressVersion q, s)
        | _ => (.lookup 0, s)
      else
        match s.police p (frVc f) f.length l.rawAt with
        | (false, s') => (.policed, s')
        | (true, _) => (s.consume f r, (s1.police p (frVc f) f.length l.rawAt).2)

/-! ### Enqueue -/

/-- The switch is being drained and this tent has taken it (R85). -/
def Box.draining (s : Box) (t : Nat) : Bool :=
  !s.is (FWD_EPOCH_STATUS_DRAINED 0) && (match s.fwdSw with
    | some w => decide (t ∉ w.left)
    | none => true)

/-- An ordered frame needs the fence: the old bank would have sent it elsewhere (R85). -/
def Box.needsFence (s : Box) (t p : Nat) (f : Frame) (slot : Nat) : Bool :=
  frOch f != 0 && s.draining t && (match (s.lookup t (pipelineOf p) (1 - s.liveBank t) f).1 with
    | .out q => q != slot
    | _ => false)

/-- The frame enters its VOQ, landed-only or admitted (R93): one attempt, and credit at once where it is
admitted. In pool mode an admitted frame moves to a block (R100). -/
def Box.enqueue (s : Box) (p : Nat) (l : Landed) (slot : Nat) (tr : Option Trace) : Box :=
  let t := p / 256
  let f := l.frame
  let v := frVc f
  let n := frCells f
  let part := s.vcPart t v
  let (ok, s1) := s.admitFrame t part slot v n (frPlen f)
  let alone := (s.voq t slot v).isEmpty
  let pool' := if s.poolMode t && ok then s1.freeBlock t (frPlen f) else none
  let d : Desc :=
    { id := s1.descId, frame := f, tent := t, inPort := some p, egress := slot, vc := v, cls := s.vcClass t v,
      cells := match pool' with
        | some b => s1.blockCells t b
        | none => l.cells,
      ncells := n, charge := if ok then .partition part else .landing p l.gen v, pool := pool', admitAt := s1.admits,
      bank := s.liveBank t, fence := s.needsFence t p f slot, alone := alone, spilled := false, bad := none,
      corrupt := false, stamp := l.stamp, trace := traceStage tr 2 (s.tick32 t) }
  let s2 := match pool' with
    | some b =>
      let c := s1.freeCells t l.cells
      c.setTent t { c.tent t with alloc := (c.blockCells t b).foldl insertCell (c.tent t).alloc }
    | none => s1
  let s3 : Box := { s2 with descs := s2.descs ++ [d], descId := s2.descId + 1, admits := s2.admits + 1 }
  let s4 := if ok ∧ (s3.port p).gen = l.gen then s3.giveCredit p v n else s3
  let s5 := if ok = true ∧ s1.descs.length = s.descs.length then s4 else s4.congest t part
  (s5.spillSettle t).fenceStatus

/-! ### The stage -/

/-- A frame that arrived with BTAG set is followed (13_counters.md R395), unless 64 traced frames are already. -/
def Box.followTrace (s : Box) (p : Nat) (l : Landed) : Option Trace × Box :=
  let t := p / 256
  if frBtag l.frame = true ∧ 3 ≤ s.minor p ∧ s.is (BRK_TRACE_CTRL_FOLLOW t) = true then
    if s.tracedIn t < 64 then (some ⟨true, p, none, l.stamp, []⟩, s.count (brkPage t) 64) else (none, s.count (brkPage t) 65)
  else (none, s)

/-- A TRACE sampler tagged the frame: it is traced from here, within the limit (R395). -/
def Box.tagTrace (s : Box) (p : Nat) (l : Landed) (tagged : Option Nat) (tr : Option Trace) : Option Trace × Box :=
  let t := p / 256
  match tr with
  | some x => (some x, s)
  | none =>
    if tagged = none then (none, s)
    else if s.tracedIn t < 64 then (some ⟨false, p, tagged, l.stamp, []⟩, s.count (brkPage t) 64)
    else (none, s.count (brkPage t) 65)

/-- The samplers see the frame once its disposition is decided (R391): every frame that passed the checks of R49. -/
def Box.ingressSample (s : Box) (p : Nat) (l : Landed) (v : Verdict) : Box × Option Nat :=
  let info : SampleInfo :=
    { frame := l.frame, port := p,
      outPort := match v with
        | .queue q => some q
        | _ => none,
      disp := v.disp, corrupt := false, stamp := l.stamp,
      qcells := match v with
        | .queue q => s.voqCells (p / 256) q (frVc l.frame)
        | _ => 0 }
  match v with
  | .closed => (s, none)
  | .bad _ => (s, none)
  | .egressVersion _ => (s, none)
  | _ => s.samplePoint (p / 256) 0 info

/-- Carries out a verdict. -/
def Box.settle (s : Box) (p : Nat) (l : Landed) (v : Verdict) (tr : Option Trace) : Box :=
  let gone := s.landedGone p l (v != .closed)
  let it : Arrived := ⟨l.frame, l.stamp, [], l.gen, tr, none⟩
  let s1 := match v with
    | .closed => gone.lnkCount 3 p
    | .bad k => gone.lnkCount k p
    | .egressVersion q => gone.lnkCount 4 q
    | .lookup k => gone.fwdCount k p
    | .tableBad => (gone.count (fwdPage (p / 256)) 1537).raiseInt (fwdPage (p / 256)) 3
    | .policed => gone
    | .badCrc => gone.lnkCount 6 p
    | .badCode => gone.lnkCount 3 p
    | .badMarker => gone.carCount 0 p
    | .inboxFull => gone.count mgtPage 0
    | .inbox => { gone with inbox := gone.inbox ++ [l.frame] }
    | .ptp => gone.setPort p { gone.port p with ptp := (gone.port p).ptp ++ [it] }
    | .steer =>
      if frKind l.frame = 1 then
        s.setPort p { s.port p with steer := (s.port p).steer ++ [{ it with cells := l.cells }] }
      else gone.setPort p { gone.port p with steer := (gone.port p).steer ++ [it] }
    | .queue q => s.enqueue p l q tr
  match v.exit with
  | some e => s1.traceExit (p / 256) tr none e l.frame
  | none => s1

/-- The header stage takes the oldest landed frame of a port. -/
def Box.headerStage (s : Box) (p : Nat) (entry : Ecc) : Box :=
  match (s.port p).landed with
  | [] => s
  | l :: ls =>
    let s0 := s.setPort p { s.port p with landed := ls }
    let (tr0, s1) := s0.followTrace p l
    let (v, s2) := s1.judge p l entry
    let (s3, tagged) := s2.ingressSample p l v
    let (tr1, s4) := s3.tagTrace p l tagged tr0
    s4.settle p l v (traceStage tr1 1 (s4.tick32 (p / 256)))

/-- INGRESS_HEADER_STAGE (R49). -/
def execIngressHeaderStage (p : Slot) (entry : Ecc) (s : State) : Result := s.actRun fun b => b.headerStage p.toNat entry

/-! ### Backlog (13_counters.md R398) -/

/-- Transfers of a staged frame not yet sent. -/
def Staged.left (x : Staged) : Nat := x.total - x.sentB / 256

/-- Transfers that the staging of a port and VC holds or has granted (R111). -/
def Box.stagedUse (s : Box) (k : Nat) : Nat := ((s.staged k).map Staged.left).sum

/-- B(p, v): the cells queued for a port and VC in every tent, and its staging (R398). -/
def Box.backlogNow (s : Box) (p v : Nat) : Nat :=
  ((List.range 8).map fun t => s.voqCells t p v).sum + s.stagedUse (8 * p + v)

/-- A port becomes hot when its summed backlog reaches HOT and cools at COOL or below; the change is listed for the next
notice (R400).
DESIGN CHOICE, log entry 65. -/
def Box.hotCheck (s : Box) (p : Nat) : Box :=
  let sum := ((List.range 8).map fun v => mapGet (fun _ => 0) s.backlog (8 * p + v)).sum
  let was := decide (p ∈ s.hot)
  let now := if was then decide (s.rd (BRK_HINT_COOL_COOL 0) < sum) else decide (s.rd (BRK_HINT_HOT_HOT 0) ≤ sum)
  if s.is (BRK_HINT_HOT_EN 0) = false ∨ now = was then s
  else
    { s with hot := if now then s.hot ++ [p] else s.hot.filter (· ≠ p),
             hotQ := if p ∈ s.hotQ then s.hotQ.filter (· ≠ p) else s.hotQ ++ [p] }

/-- A port's Calliope reports B(p, v) of every VC, and each tent keeps what it contributed (R75). -/
def Box.backlogReport (s : Box) (p : Nat) : Box :=
  Box.hotCheck ((List.range 8).foldl (fun (b : Box) v =>
    let b1 : Box := { b with backlog := mapSet (fun _ => 0) b.backlog (8 * p + v) (s.backlogNow p v) }
    (List.range 8).foldl (fun (c : Box) t =>
      let x := c.tent t
      c.setTent t { x with own := mapSet (fun _ => 0) x.own (8 * p + v) (s.voqCells t p v) }) b1) s) p

/-- BACKLOG_REPORT (R75). -/
def execBacklogReport (p : Slot) (s : State) : Result := s.actRun fun b => b.backlogReport p.toNat

end Sys2Proof.Machine
end

