-- ==== Sys2Proof/Machine/Calliope.lean ====
section
/-!
DEFINITION. Calliope, one per egress port: gate lists (05_egress_scheduling.md R127 to R135), shapers
(R126), levels and deficit round robin (R123 to R125), hop words (02_itzal_link.md R52; 13_counters.md R397, R399),
slot accounting (R389) and the flit slot (R33 to R39).
-/

namespace Sys2Proof.Machine

/-! ### Deficit weighted round robin (R125, R136, R137) -/

/-- The queue after `q` in a rising list, wrapping. -/
def nextQueue (qs : List Nat) (q : Nat) : Nat := ((qs.find? fun x => decide (q < x)).getD (qs.headD 0))

/-- One decision of a deficit round: queues in order, quantum, the head's length where the queue is a candidate, and
whether a queue is empty. A fresh visit to a candidate always sends, so the fuel is not reached. -/
def drrPick (qs : List Nat) (quantum : Nat → Nat) (head : Nat → Option Nat) (empty : Nat → Bool) :
    Nat → Drr → Option (Nat × Drr)
  | 0, _ => none
  | fuel + 1, d =>
    let q := d.at_
    let get (m : Sparse Nat) : Nat := mapGet (fun _ => 0) m q
    let skip (m : Sparse Nat) : Option (Nat × Drr) :=
      let m' := if q ∈ qs ∧ empty q = true then mapSet (fun _ => 0) m q 0 else m
      drrPick qs quantum head empty fuel { at_ := nextQueue qs q, fresh := true, deficit := m' }
    match (if q ∈ qs then head q else none) with
    | none => skip d.deficit
    | some len =>
      let m := if d.fresh then mapSet (fun _ => 0) d.deficit q (get d.deficit + quantum q) else d.deficit
      if len ≤ get m then some (q, { at_ := q, fresh := false, deficit := mapSet (fun _ => 0) m q (get m - len) })
      else skip m

/-! ### The gate list in force (R128, R132) -/

/-- BASE of a bank. -/
def Box.glBase (s : Box) (p b : Nat) : Nat := s.rd (CAL_GL_BASE_HI_BASE p b) * 2 ^ 32 + s.rd (CAL_GL_BASE_LO_BASE p b)

/-- CYCLE of a bank. -/
def Box.glCycle (s : Box) (p b : Nat) : Nat := ((List.range (s.glLen p b)).map fun k => s.entDur p b k).sum

/-- IDLE_GATES of a port. -/
def Box.idleGates (s : Box) (p : Nat) : Nat := s.rd (CAL_PORT_CTRL_IDLE_GATES p)

/-- The entry of a bank at position `pos` of its cycle, its start and its end within the cycle; the durations before
`k` sum to `acc`. -/
def entryAtPos (dur : Nat → Nat) (pos : Nat) : Nat → Nat → Nat → Nat × Nat × Nat
  | 0, k, acc => (k, acc, acc + dur k)
  | fuel + 1, k, acc => if pos < acc + dur k then (k, acc, acc + dur k) else entryAtPos dur pos fuel (k + 1) (acc + dur k)

/-- What a port's gates are: the open VCs, the entry's number (none outside a list), its start and end in fabric
ticks (no end where nothing follows), whether it is a bypass window, and the gates that follow. -/
structure GateNow where
  gates  : Nat
  entry  : Option Nat
  start  : Nat
  stop   : Option Nat
  bypass : Bool
  after  : Nat
  deriving DecidableEq, Repr

/-- The entry of bank `b` in force at fabric tick `f` (R128); IDLE_GATES until BASE (R132). -/
def Box.bankGate (s : Box) (p b f : Nat) : GateNow :=
  let base := s.glBase p b
  let len := s.glLen p b
  if f < base then ⟨s.idleGates p, none, 0, some base, false, s.entGate p b 0⟩
  else
    let cyc := s.glCycle p b
    let pos := (f - base) % cyc
    let (k, a, e) := entryAtPos (s.entDur p b) pos (len - 1) 0 0
    let nxt := if k + 1 < len then k + 1 else 0
    ⟨s.entGate p b k, some k, f - pos + a, some (f - pos + e), s.entBypass p b k, s.entGate p b nxt⟩

/-- The gates in force now (R123, R129, R132): what would cross a pending switch or stop looks at what is in force
after it.
DEDUCED, log entry 52. -/
def Box.gateNow (s : Box) (p : Nat) : GateNow :=
  let f := s.tentTick (p / 256)
  let x := s.cal p
  let b := s.activeBank p
  let g := if s.listRuns p then s.bankGate p b f else ⟨s.idleGates p, none, 0, none, false, s.idleGates p⟩
  let cut (at_ gates : Nat) : GateNow :=
    match g.stop with
    | some e => if e < at_ then g else { g with stop := some at_, after := gates }
    | none => { g with stop := some at_, after := gates }
  match x.switchAt, x.stopAt with
  | some a, _ => cut a (s.bankGate p (1 - b) a).gates
  | none, some a => cut a (s.idleGates p)
  | none, none => g

/-- Active transmit lanes. -/
def Box.txN (s : Box) (p : Nat) : Nat := (s.txLanes p).length

/-- The frame passes the guard (R129): its launch length, flits plus one at 4096 / (625 N) tk each, ends by the end
of the entry, or the VC is open in the entry that follows. Whether it would outlast that one too is not looked at.
DESIGN CHOICE, log entry 169. -/
def Box.guardOk (s : Box) (p v n sub : Nat) (g : GateNow) : Bool :=
  match g.stop with
  | none => true
  | some e =>
    let now := s.tent32 (p / 256) sub
    g.after.testBit v
      || decide ((ceilDiv n 240 + 1) * 4096 * 32 ≤ (e * 32 - now) * 625 * s.txN p)

/-! ### Candidates (R123) -/

/-- Counted length of a frame under the port's egress overhead (R125). -/
def Box.egressLen (s : Box) (p n : Nat) : Nat := countedLen n (s.rd (CAL_PORT_CTRL_OVH p))

/-- LEVEL of a VC (R124). -/
def Box.vcLevel (s : Box) (p v : Nat) : Nat := wordField (s.word (CAL_VC_PRIO_at p)) (4 * v) 2

/-- Quantum of a VC in bytes (R125). -/
def Box.quantum (s : Box) (p v : Nat) : Nat :=
  64 * wordField (s.word (if v < 4 then CAL_DWRR_Q0_at p else CAL_DWRR_Q1_at p)) (8 * (v % 4)) 8

/-- The head of a VC's staging that may be started: whole, or cut-through with its first transfer staged (R22). -/
def Box.headFrame (s : Box) (p v : Nat) : Option Staged :=
  match s.staged (8 * p + v) with
  | x :: _ => if x.arrived = x.total ∨ (x.cut = true ∧ 0 < x.arrived) then some x else none
  | [] => none

/-- The partner's credit covers a frame (R43). -/
def Box.creditCovers (s : Box) (p v n : Nat) : Bool :=
  let x := s.port p
  decide (cellsOf n ≤ sub16 (x.pccum.getD v 0) (x.sent.getD v 0))

/-- The bucket of a VC's shaper, refilled to the tick of the tent's replica counter (R121, R126). -/
def Box.vcShaper (s : Box) (p v : Nat) : Bucket :=
  (mapGet (fun _ => {}) (s.cal p).vcs v : Bucket).refill (s.rd (CAL_VSH_RATE_RATE p v)) (s.rd (CAL_VSH_BURST_BURST p v))
    (s.replTick (p / 256))

/-- The port shaper's bucket, refilled to now. -/
def Box.portShaper (s : Box) (p : Nat) : Bucket :=
  (s.cal p).port.refill (s.rd (CAL_PSH_RATE_RATE p)) (s.rd (CAL_PSH_BURST_BURST p)) (s.replTick (p / 256))

/-- Both shapers hold a counted length; a disabled shaper holds any (R126). -/
def Box.shapersHold (s : Box) (p v len : Nat) : Bool :=
  (!s.is (CAL_VSH_RATE_EN p v) || decide (len * 256 ≤ (s.vcShaper p v).tokens))
    && (!s.is (CAL_PSH_RATE_EN p) || decide (len * 256 ≤ (s.portShaper p).tokens))

/-- Why a VC's head is not a candidate, or that it is one. -/
inductive Held where
  | noHead
  | gate
  | guard
  | shaper
  | credit       -- held only by partner credit
  | free
  deriving DecidableEq, Repr

/-- The state of a VC's staging at a decision (R123, R389); a head that is being sent waits for nothing. -/
def Box.heldBy (s : Box) (p v sub : Nat) (g : GateNow) : Held :=
  match s.headFrame p v with
  | none => .noHead
  | some x =>
    let n := x.desc.frame.length
    if x.started then .noHead
    else if g.gates.testBit v = false then .gate
    else if s.guardOk p v n sub g = false then .guard
    else if s.shapersHold p v (s.egressLen p n) = false then .shaper
    else if s.creditCovers p v n = false then .credit
    else .free

/-- Calliope's choice among the candidates (R123, R125): the VC, and Calliope's record after the round. -/
def Box.choose (s : Box) (p : Nat) (cands : List Nat) : Option (Nat × Cal) :=
  let x := s.cal p
  [3, 2, 1, 0].findSome? fun lv =>
    let here := cands.filter fun v => s.vcLevel p v = lv
    if here = [] then none
    else
      let d : Drr := { (mapGet (fun _ => {}) x.levels lv : Drr) with deficit := x.deficit }
      let head (v : Nat) : Option Nat :=
        if v ∈ here then (s.headFrame p v).map fun h => s.egressLen p h.desc.frame.length else none
      (drrPick ((List.range 8).filter fun v => s.vcLevel p v = lv) (s.quantum p) head
          (fun v => decide (s.staged (8 * p + v) = [])) 20 d).map fun (v, d') =>
        (v, { x with levels := mapSet (fun _ => {}) x.levels lv { d' with deficit := [] }, deficit := d'.deficit })

/-! ### Launch (R52, R397, R399) -/

/-- The hop word of a frame at launch on a port, and whether it carries a local mark.
DEDUCED, log entry 49. -/
def Box.hopWord (s : Box) (p : Nat) (d : Desc) : Nat × Bool :=
  let f := d.frame
  let b := s.backlogNow p d.vc - ((s.headFrame p d.vc).map Staged.left).getD 0
  let mark := (s.rd (CAL_MARK_CFG_VCMASK p)).testBit d.vc && decide (s.rd (CAL_MARK_CFG_MARK_CELLS p) ≤ b)
  let fwd := d.inPort.isSome
  let hops := if fwd then min (frHops f + 1) 15 else 0
  let tep := if frKind f = 4 then 0 else d.bank
  let w := (if fwd then frW f 14 % 2 ^ 16 + natField (frW f 14) 28 1 * 2 ^ 28 else 0) + tep * 2 ^ 31 + hops * 2 ^ 24
  if 3 ≤ s.minor p then
    let cm := mark || (fwd && frCmark f)
    let bt := ((fwd && frBtag f) || d.trace.isSome) && !s.is (BRK_TRACE_CTRL_STRIP (p / 256))
    (w + b2n cm * 2 ^ 30 + b2n bt * 2 ^ 29 + backlogCode b * 2 ^ 16, mark)
  else (w, false)

/-- A decision that weighs a VC's head against the shapers refills them, whether or not the frame starts (R121, R126). -/
def Box.refillShapers (s : Box) (p v : Nat) : Box :=
  let x := s.cal p
  let x1 := if s.is (CAL_VSH_RATE_EN p v) then { x with vcs := mapSet (fun _ => {}) x.vcs v (s.vcShaper p v) } else x
  s.setCal p (if s.is (CAL_PSH_RATE_EN p) then { x1 with port := s.portShaper p } else x1)

/-- Takes a counted length from both shapers (R126). -/
def Box.takeShapers (s : Box) (p v len : Nat) : Box :=
  let x := s.cal p
  let a := s.vcShaper p v
  let b := s.portShaper p
  let x1 := if s.is (CAL_VSH_RATE_EN p v) then
      { x with vcs := mapSet (fun _ => {}) x.vcs v { a with tokens := a.tokens - len * 256 } } else x
  s.setCal p (if s.is (CAL_PSH_RATE_EN p) then { x1 with port := { b with tokens := b.tokens - len * 256 } } else x1)

/-- Replaces the head of a VC's staging. -/
def Box.setHead (s : Box) (k : Nat) (x : Staged) : Box := s.setStaged k (x :: (s.staged k).drop 1)

/-- A barrier result launched at or after its release instant is counted on the egress port's tent, with TGT cause 0
there (09_network_time.md R284, R465). -/
def Box.barrierLate (s : Box) (p : Nat) (f : Frame) (now : Nat) : Box :=
  if (frKind f = 2 ∨ frKind f = 3) ∧ (s.grp (frGroup f)).barrier = true ∧ beAt (frPayload f) 8 8 * 32 ≤ now then
    (s.countPort (tgtTentPage (p / 256)) (p % 256) p 1).raiseInt (tgtTentPage (p / 256)) 0
  else s

/-- Calliope starts the head of a VC: hop words, credit, sampler, trace (R52, R123, R391, R396). -/
def Box.startFrame (s : Box) (p v sub : Nat) : Box :=
  match s.headFrame p v with
  | none => s
  | some x =>
    let t := p / 256
    let now := s.tent32 t sub
    let (w, mark) := s.hopWord p x.desc
    let f := frWithHop x.desc.frame w
    let n := f.length
    let q := s.backlogNow p v - x.left
    let y := s.port p
    let s2 := s.setPort p { y with sent := addAt16 y.sent v (cellsOf n), txVc := some v }
    let tr := traceStage (traceStage x.desc.trace 5 (s.tick32 t)) 6 now
    let s3 := s2.setHead (8 * p + v) { x with started := true, desc := { x.desc with frame := f, trace := none } }
    let s4 := if mark then s3.calCount 8 p 1 else s3
    let (s5, _) := s4.samplePoint t 1
      { frame := f, port := p, outPort := none, disp := 0, corrupt := x.desc.bad.isSome || x.desc.corrupt,
        stamp := s.laneStamp t sub, qcells := q }
    ((s5.barrierLate p f now).ptpLaunch p f now).traceExit t tr (some p) 0 f

/-- A head that only a shaper or the partner's credit keeps from being a candidate is so still at this decision (R123, R190). -/
def Box.noteHeld (s : Box) (p v sub : Nat) : Box :=
  match s.headFrame p v with
  | some x => s.setHead (8 * p + v) { x with heldAt := some (s.tent32 (p / 256) sub) }
  | none => s

/-- The staging condition of R190: a candidate that became one after the entry's start, staged after it or held at or after
it by a shaper or credit, while a frame staged before it still waits breaks it, once per frame.
DEDUCED, log entry 61. -/
def Box.lateCheck (s : Box) (p : Nat) (cands : List Nat) (g : GateNow) : Box :=
  match g.entry with
  | none => s
  | some _ =>
    let start := g.start * 32
    let old (v : Nat) : Bool := (List.range 8).any fun w =>
      ((s.staged (8 * p + w)).drop (if w = v then 1 else 0)).any fun x => decide (0 < x.arrived) && decide (x.at_ < start) && !x.started
    cands.foldl (fun (b : Box) v =>
      match b.headFrame p v with
      | some x =>
        let after := decide (start < x.ready) || x.heldAt.any fun h => decide (start ≤ h)
        if x.late = false ∧ after = true ∧ old v = true then
          ((b.setHead (8 * p + v) { x with late := true }).envEvent p 5).calCount 2 p 1
        else b
      | none => b) s

/-! ### Launch buffers (09_network_time.md R283) -/

/-- LATE of a unit is set, with TGT cause 2 (R279, R283, R465).
DEDUCED, log entry 103. -/
def Box.trigLate (s : Box) (u : Nat) : Box := (s.put (TGT_TRIG_STATUS_LATE u) true).raiseInt tgtPage 2

/-- The frame of a launch buffer as the S9 originates it: VMAJ 1, VMIN 0, HOPS 0, reserved bits and words 0, and the trailer
with the port's tag (R54, R283, R493; 02_itzal_link.md R49, R50). -/
def launchFrame (f : List Byte) (tag : Nat) : Frame :=
  mkFrame ([frWord0 0 (frKind f) (frVc f) (frOch f) (frPlen f), frDst f, frSrc f, 0]
    ++ ((List.range 8).map fun i => frW f (4 + i)) ++ [0, 0, 0, 0]) (frPayload f) tag

/-- The frame of a launch waits at the head of the port's VC5 staging (R54, R283). -/
def Box.stageLaunch (s : Box) (l : Launch) : Box :=
  let x := s.port l.port
  let g := launchFrame l.frame x.ctags
  let n := frCells g
  let t := l.port / 256
  let d : Desc := { id := s.descId, frame := g, tent := t, inPort := none, egress := l.port, vc := 5, cls := s.vcClass t 5,
                    cells := [], ncells := n, charge := .partition 8, pool := none, admitAt := 0,
                    bank := s.rd (FWD_EPOCH_STATUS_LIVE 0), fence := false, alone := false, spilled := false,
                    bad := none, corrupt := false, stamp := {}, trace := none }
  let at_ := s.tent32 t 0
  let st : Staged := { desc := d, total := n, arrived := n, cut := false, at_ := at_, ready := at_, late := false,
                       started := false, sentB := 0, result := none, tries := 0 }
  let k := 8 * l.port + 5
  let s1 := s.setPort l.port { x with ctags := (x.ctags + 1) % 2 ^ 32 }
  { s1.setStaged k (st :: s1.staged k) with descId := s1.descId + 1 }

/-- A launch waits on the port with VC5 open and fails the guard (R129). -/
def Box.launchGuard (s : Box) (p sub : Nat) (g : GateNow) : Bool :=
  match s.launches.find? fun l => l.port == p with
  | none => false
  | some l => g.gates.testBit 5 && !s.guardOk p 5 (l.frame.length + 8) sub g

/-- A firing's frame starts (R283) in the first flit slot in which the VC5 gate is open, the guard of R129 lets it, the
partner's credit covers the frame and no frame is in progress, before every staged frame and past the shapers; the unit is LATE where the frame leaves more than
one flit time and 44.5 ns after the firing. None where no launch may start now.
DEDUCED, log entry 105. -/
def Box.launchStart (s : Box) (p sub : Nat) : Option Box :=
  match s.launches.find? fun l => l.port == p with
  | none => none
  | some l =>
    let x := s.port p
    let sends := s.up p && !x.inWindow && !x.aligning && x.pauseTx.isNone && x.resend.isNone
      && decide (x.retry.length < retryDepth (s.slotMode p))
    if sends = true ∧ x.txVc = none ∧ (s.gateNow p).gates.testBit 5 = true
        ∧ s.guardOk p 5 (l.frame.length + 8) sub (s.gateNow p) = true ∧ s.creditCovers p 5 (l.frame.length + 8) = true then
      let delta := s.tent32 (p / 256) sub - l.at_
      let n := s.txN p
      let s1 := { s with launches := s.launches.erase l }
      let s2 := (s1.stageLaunch l).startFrame p 5 sub
      some (if 32 * (4096 + 17800 * n) < delta * 625 * n then s2.trigLate l.unit else s2)
    else none

/-- Decides among the staged frames whether one starts at this point of the port's stream, and starts it (R123). -/
def Box.pickStaged (s0 : Box) (p sub : Nat) : Box :=
  let g := s0.gateNow p
  let s := ((List.range 8).filter fun v => s0.heldBy p v sub g ∈ [.shaper, .credit, .free]).foldl
    (fun (b : Box) v => b.refillShapers p v) s0
  let cands := (List.range 8).filter fun v => s.heldBy p v sub g = .free
  let s1 := (List.range 8).foldl (fun (b : Box) v =>
    if s.heldBy p v sub g = .credit ∧ s.gatedVc p v = true then b.envEvent p 3 else b) s
  let s2 := ((List.range 8).filter fun v => s.heldBy p v sub g ∈ [.shaper, .credit]).foldl (fun (b : Box) v => b.noteHeld p v sub) s1
  let s3 := s2.lateCheck p cands g
  match s3.choose p cands with
  | some (v, c) =>
    let n := ((s3.headFrame p v).map fun x => x.desc.frame.length).getD 0
    ((s3.setCal p c).takeShapers p v (s3.egressLen p n)).startFrame p v sub
  | none => s3

/-- Decides whether a frame starts at this point of the port's stream, and starts it: a launch that may start first (R123, R283). -/
def Box.pickFrame (s : Box) (p sub : Nat) : Box :=
  match s.launchStart p sub with
  | some s' => s'
  | none => s.pickStaged p sub

/-! ### Filling a flit (R37) -/

/-- Bytes of the frame being sent that have been staged. -/
def Staged.bytes (x : Staged) : Nat := if x.arrived = x.total then x.desc.frame.length else 256 * x.arrived

/-- The frame being sent has left (R86, R111): its staging goes. -/
def Box.frameSent (s : Box) (p v : Nat) : Box :=
  (s.setStaged (8 * p + v) ((s.staged (8 * p + v)).drop 1)).setPort p { s.port p with txVc := none }

/-- Fills the rest of a body: continues the frame being sent, then starts further frames while Calliope offers one
(R37). Answers the body, FSTART (31 for none) and the state; a cut-through frame whose next bytes are not staged
leaves the body as it is. -/
def Box.fillBody (p sub : Nat) : Nat → List Byte → Nat → Box → List Byte × Nat × Box
  | 0, body, fs, s => (body, fs, s)
  | fuel + 1, body, fs, s =>
    let room := 240 - body.length
    if room = 0 then (body, fs, s)
    else
      match (s.port p).txVc with
      | some v =>
        match s.staged (8 * p + v) with
        | [] => (body, fs, s)
        | x :: _ =>
          let n := x.desc.frame.length
          let k := min room (n - x.sentB)
          if x.bytes < x.sentB + k then (body, fs, s)
          else
            let body' := body ++ (x.desc.frame.drop x.sentB).take k
            if x.sentB + k = n then Box.fillBody p sub fuel body' fs (s.frameSent p v)
            else (body', fs, s.setHead (8 * p + v) { x with sentB := x.sentB + k })
      | none =>
        let s1 := s.pickFrame p sub
        if (s1.port p).txVc = none then (body, fs, s1)
        else Box.fillBody p sub fuel body (if fs = 31 then body.length / 8 else fs) s1

/-! ### The flit slot (R33, R39, R123, R389) -/

/-- The port is silent under its own PAUSE: the message has gone (R61).
DESIGN CHOICE, log entry 45. -/
def Box.ownPause (s : Box) (p : Nat) : Bool := (s.port p).pauseTx.isSome && !((s.port p).ctlQ.any fun m => beAt m 0 1 == 6)

/-- A slot without a DATA flit is classified (R389). -/
def Box.idleClass (s : Box) (p sub : Nat) : Nat :=
  let g := s.gateNow p
  let hs := (List.range 8).map fun v => s.heldBy p v sub g
  if s.ownPause p || decide (retryDepth (s.slotMode p) ≤ (s.port p).retry.length) then 6
  else if hs.all fun h => h == .noHead then 5
  else if hs.any fun h => h == .credit then 6
  else 4

/-- A DATA flit goes out for the first time (R39). -/
def Box.sendData (s : Box) (p fs : Nat) (body : List Byte) : Box :=
  let x := s.port p
  let b := padTo 240 0 body
  let s1 := s.setPort p { x with retry := x.retry ++ [⟨x.txSeq, fs, b⟩], txSeq := (x.txSeq + 1) % 65536 }
  s1.sendFlit p 0 x.txSeq fs b

/-- The flit that a resend sends next, where the retry buffer holds it (R40). -/
def Port.again (x : Port) : Option TxFlit := x.resend.bind fun q => x.retry.find? fun f => f.seq == q

/-- The next flit of a resend goes out again (R40): the resend ends with the last flit held. -/
def Box.sendAgain (s : Box) (p : Nat) (f : TxFlit) : Box :=
  let x := s.port p
  let nxt := (f.seq + 1) % 65536
  let more := x.retry.any fun g => g.seq == nxt
  (s.setPort p { x with resend := if more then some nxt else none }).sendFlit p 0 f.seq f.fstart f.body

/-- One transmit slot of a port that is up and sends: control messages first, then a resend, then new frames, else
IDLE. After a bypass window it sends IDLE flits alone until its own receiver is aligned (R131).
DESIGN CHOICE, log entry 153. -/
def Box.upSlot (s : Box) (p sub : Nat) : Box :=
  let x := s.port p
  let idle (b : Box) : Box := b.sendFlit p 1 (b.port p).txSeq 31 []
  match (if s.ownPause p || x.aligning then [] else x.ctlQ) with
  | m :: ms =>
    let (c, s1) := ((s.calCount (s.idleClass p sub) p 1).setPort p { x with ctlQ := ms }).stampCtl p m
    s1.sendFlit p 2 x.txSeq 31 c
  | [] =>
    if x.pauseTx.isSome then s.calCount 6 p 1
    else if x.aligning then idle (s.calCount (s.idleClass p sub) p 1)
    else
      match x.again with
      | some f => (s.sendAgain p f).calCount 4 p 1
      | none =>
        if retryDepth (s.slotMode p) ≤ x.retry.length then idle (s.calCount 6 p 1)
        else
          let (body, fs, s1) := Box.fillBody p sub 31 [] 31 s
          if body = [] then idle (s1.calCount (s1.idleClass p sub) p 1) else (s1.sendData p fs body).calCount 3 p 1

/-- The next flit slot of a port (R123): a port in training sends TRAIN flits with its capability block, a bypass
window sends nothing and is counted in CAL_SLOT_BYPASS. -/
def Box.flitSlot (s : Box) (p sub : Nat) : Box :=
  if s.isPort p = false then s
  else if s.up p then
    if (s.port p).inWindow then s.calCount 7 p 1
    else (s.upSlot p sub).spillSettle (p / 256)
  else if s.is (LNK_PORT_STATUS_TRAINING p) then s.trainFlit p
  else s

/-- A stopped device sends TRAIN flits on every port that is up (12_faults.md R378; 15_boot_security.md R430). -/
def Box.stoppedSlot (s : Box) (p : Nat) : Box := if s.up p then s.trainFlit p else s

/-- FLIT_SLOT (R123): the slot starts `sub` thirty-seconds of a tick into the tick. -/
def execFlitSlot (p : Slot) (sub : BitVec 5) (s : State) : Result :=
  .next (match s.phase with
    | .held => s
    | .run => s.onBox fun b => b.flitSlot p.toNat sub.toNat
    | _ => s.onBox fun b => b.stoppedSlot p.toNat)

/-! ### Gate-list commands (R132, R134) -/

/-- The reason a bank is rejected, in the order of R134; 0 where it is accepted. -/
def Box.glReason (s : Box) (p b : Nat) : Nat :=
  let len := s.glLen p b
  let ks := List.range len
  if len = 0 ∨ 1024 < len then 1
  else if ks.any fun k => decide (s.entDur p b k < 16) then 2
  else if (ks.any fun k => s.entBypass p b k) && (s.slotMode p != 1 || decide (s.minor p < 2)) then 3
  else if ks.any fun k => s.entBypass p b k && (s.entGate p b k != 0 || decide (s.entDur p b k < 15360)) then 4
  else 0

/-- The first cycle boundary of the running list at or after a time, or after now where it has passed (R132). -/
def Box.boundary (s : Box) (p w : Nat) : Nat :=
  let b := s.activeBank p
  let base := s.glBase p b
  let t := max w (s.tentTick (p / 256))
  if t ≤ base then base else base + ceilDiv (t - base) (s.glCycle p b) * s.glCycle p b

/-- CAL_GL_SWITCH. -/
def Box.glSwitchTime (s : Box) (p : Nat) : Nat := s.rd (CAL_GL_SWITCH_HI_T p) * 2 ^ 32 + s.rd (CAL_GL_SWITCH_LO_T p)

/-- COMMIT (R132, R134): REASON is written with every commit, 0 where it is accepted, whatever REJECTED holds.
DESIGN CHOICE, log entry 158. -/
def Box.glCommit (s : Box) (src : Requester) (p : Nat) : Box :=
  if s.is (CAL_GL_STATUS_PENDING p) then s.accErrAt (CAL_GL_CMD_at p) src
  else
    let b := 1 - s.activeBank p
    let r := s.glReason p b
    let s1 := s.wr (CAL_GL_STATUS_REASON p) r
    if r ≠ 0 then (s1.put (CAL_GL_STATUS_REJECTED p) true).raiseInt (calPage (p / 256)) 1
    else
      let at_ := if s.listRuns p then s.boundary p (s.glSwitchTime p) else max (s.glSwitchTime p) (s.tentTick (p / 256))
      (s1.setCal p { s1.cal p with switchAt := some at_ }).put (CAL_GL_STATUS_PENDING p) true

/-- STOP (R132). -/
def Box.glStop (s : Box) (src : Requester) (p : Nat) : Box :=
  if s.is (CAL_GL_STATUS_PENDING p) || !s.listRuns p then s.accErrAt (CAL_GL_CMD_at p) src
  else
    (s.setCal p { s.cal p with stopAt := some (s.boundary p (s.glSwitchTime p)) }).put (CAL_GL_STATUS_PENDING p) true

/-- CANCEL (R132). -/
def Box.glCancel (s : Box) (src : Requester) (p : Nat) : Box :=
  if s.is (CAL_GL_STATUS_PENDING p) = false then s.accErrAt (CAL_GL_CMD_at p) src
  else (s.setCal p { s.cal p with switchAt := none, stopAt := none }).put (CAL_GL_STATUS_PENDING p) false

/-- A command to a slot that is not a port is ignored with the reserved-write indication (R13).
DEDUCED, log entry 22. -/
def Box.onPort (s : Box) (src : Requester) (p a : Nat) (f : Box → Box) : Box :=
  if s.isPort p then f s else s.rsvWriteAt a src

/-- GL_COMMIT (R132). -/
def execGlCommit (src : Requester) (p : Slot) (s : State) : Result :=
  s.actReg (CAL_GL_CMD_at p.toNat) src fun b =>
    b.onPort src p.toNat (CAL_GL_CMD_at p.toNat) fun c => c.glCommit src p.toNat

/-- GL_CANCEL (R132). -/
def execGlCancel (src : Requester) (p : Slot) (s : State) : Result :=
  s.actReg (CAL_GL_CMD_at p.toNat) src fun b =>
    b.onPort src p.toNat (CAL_GL_CMD_at p.toNat) fun c => c.glCancel src p.toNat

/-- GL_STOP (R132). -/
def execGlStop (src : Requester) (p : Slot) (s : State) : Result :=
  s.actReg (CAL_GL_CMD_at p.toNat) src fun b =>
    b.onPort src p.toNat (CAL_GL_CMD_at p.toNat) fun c => c.glStop src p.toNat

/-- The entry in force at the port's fabric tick becomes the port's (R128): its gates apply from its start tick, and
BYPASS_ACTIVE shows whether it is a bypass entry (R142). -/
def Box.gateEntryStart (s : Box) (p : Nat) : Box :=
  if s.listRuns p then
    let g := s.gateNow p
    (s.setCal p { s.cal p with entryAt := g.start }).put (CAL_GL_STATUS_BYPASS_ACTIVE p) g.bypass
  else s

/-- At instant S the standby bank becomes active, or the stop takes effect (R132); CAL cause 2. BYPASS_ACTIVE follows the
list then in force (R142). -/
def Box.glSwitch (s : Box) (p : Nat) : Box :=
  let x := s.cal p
  let f := s.tentTick (p / 256)
  let due (o : Option Nat) : Bool := match o with
    | some a => decide (a ≤ f)
    | none => false
  if due x.switchAt then
    let b := 1 - s.activeBank p
    let s1 := ((s.wr (CAL_GL_STATUS_ACTIVE_BANK p) b).put (CAL_GL_STATUS_RUNNING p) true).put (CAL_GL_STATUS_PENDING p) false
    let c := s1.glCycle p b
    let s2 := (s1.wr (CAL_GL_CYCLE_LO_CYCLE p) (c % 2 ^ 32)).wr (CAL_GL_CYCLE_HI_CYCLE p) (c / 2 ^ 32)
    ((s2.setCal p { x with switchAt := none, since := x.switchAt.getD f }).raiseInt (calPage (p / 256)) 2).gateEntryStart p
  else if due x.stopAt then
    let s1 := (s.put (CAL_GL_STATUS_RUNNING p) false).put (CAL_GL_STATUS_PENDING p) false
    let s2 := ((s1.wr (CAL_GL_CYCLE_LO_CYCLE p) 0).wr (CAL_GL_CYCLE_HI_CYCLE p) 0).put (CAL_GL_STATUS_BYPASS_ACTIVE p) false
    (s2.setCal p { x with stopAt := none }).raiseInt (calPage (p / 256)) 2
  else s

/-- GL_SWITCH (R132). -/
def execGlSwitch (p : Slot) (s : State) : Result := s.actRun fun b => b.glSwitch p.toNat

/-- GATE_ENTRY_START (R128). -/
def execGateEntryStart (p : Slot) (s : State) : Result := s.actRun fun b => b.gateEntryStart p.toNat

/-- Fabric time jumps under a running list (R135): DISCONT and CAL cause 3; the list resumes at the position of the
new time. -/
def Box.glDiscont (s : Box) (p : Nat) : Box :=
  if s.listRuns p then
    ((s.put (CAL_GL_STATUS_DISCONT p) true).raiseInt (calPage (p / 256)) 3).gateEntryStart p
  else s

end Sys2Proof.Machine
end

