-- ==== Sys2Proof/Machine/RegOps.lean ====
section
/-!
DEFINITION. Plain register writes (00_scope.md R9, R10): what a write does to a register without checks or commands of
its own.
-/

namespace Sys2Proof.Machine

/-- The bits of a register that are defined at all. -/
def RegMask.known (m : RegMask) : Nat := Nat.lor (Nat.lor m.rw m.w1c) (Nat.lor m.wo m.ro)

/-- The access masks of the register at an address; the causes of INT_PEND and INT_FORCE and the bits of CNT_OVF are their
page's (R383, R465), and copies of a row that hold no register have no bits. -/
def maskAt (a : Nat) : RegMask :=
  match regAt a with
  | none => ⟨0, 0, 0, 0⟩
  | some r =>
    match r.id with
    | .INT_PEND => ⟨0, pageIntMask (wordPage a), 0, 0⟩
    | .INT_FORCE => ⟨0, 0, pageIntMask (wordPage a), 0⟩
    | .CNT_OVF => ⟨0, 2 ^ min 32 ((pageNcnt (wordPage a)).getD 0 - 32 * r.ix) - 1, 0, 0⟩
    | .SPT_LSR_PWR => if r.ix % 8 = 7 then ⟨0, 0, 0, 0⟩ else regMask .SPT_LSR_PWR
    | .SPT_RING => if r.ix % 512 < 320 then regMask .SPT_RING else ⟨0, 0, 0, 0⟩
    | id => regMask id

/-- Bits of `v` outside the mask `m`. -/
def bitsOut (v m : Nat) : Nat := v - Nat.land v m

/-- The word after a write: RW bits take the written value, W1C bits written as 1 clear, the others stay (R10). -/
def writtenWord (m : RegMask) (old v : Nat) : Nat :=
  let keep := bitsOut old m.rw
  bitsOut keep (Nat.land v m.w1c) + Nat.land v m.rw

/-- A write that sets a reserved bit sets the reserved-write indication (R9). -/
def Box.rsvCheck (s : Box) (src : Requester) (a v : Nat) : Box :=
  if bitsOut v (maskAt a).known = 0 then s else s.rsvWriteAt a src

/-- A plain write of the register word at an address (R9, R10): an offset without a register is reserved. -/
def Box.plainWrite (s : Box) (src : Requester) (a v : Nat) : Box :=
  let s1 := s.rsvCheck src a v
  s1.setWord a (BitVec.ofNat 32 (writtenWord (maskAt a) (s1.word a).toNat v))

end Sys2Proof.Machine
end

