-- ==== Sys2Proof/Machine/Counters.lean ====
section
/-!
DEFINITION. Counters as software sees them (00_scope.md R11; 13_counters.md R383 to R386), occupancy monitors (R387,
R388), sampler configuration and the sample queue (R392, R394), and backlog notices (R400).
-/

namespace Sys2Proof.Machine

/-! ### Snapshots and clears (R385, R386) -/

/-- A page that has counters. -/
def hasCounters (p : Page) : Bool := (pageNcnt p).any (0 < ·)

/-- Every page of the package. -/
def allPages : List Page := (List.range 9).flatMap pagesOfDie

/-- The fabric tick a page reads: its tent's replica, or the master. -/
def Box.pageTick (s : Box) (p : Page) : Nat := if p / 256 < 8 then s.tentTick (p / 256) else s.nowTick

/-- The counters of a page out of a map. -/
def pageCounters (m : Sparse (BitVec 64)) (p : Page) : Sparse (BitVec 64) :=
  m.filter fun e => decide (p * 4096 ≤ e.1) && decide (e.1 < p * 4096 + 4096)

/-- A map with a page's counters replaced. -/
def replaceCounters (m c : Sparse (BitVec 64)) (p : Page) : Sparse (BitVec 64) :=
  c.foldl (fun m e => mapSet (fun _ => 0) m e.1 e.2) (mapClear m (p * 4096) 4096)

/-- The counters of a page as a snapshot at this tick takes them: those from before a CLEAR of the same tick (R401). -/
def Box.snapSource (s : Box) (p : Page) : Sparse (BitVec 64) :=
  if mapGet (fun _ => 0) s.clearAt p = s.raw + 1 then pageCounters s.preClear p else pageCounters s.ctrs p

/-- A snapshot request: the copy starts, or MISS is set while one runs (R385). -/
def Box.snapTake (s : Box) (p : Page) : Box :=
  if s.is (CNT_STATUS_BUSY p) then s.put (CNT_STATUS_MISS p) true
  else
    { (s.put (CNT_STATUS_BUSY p) true) with
      copying := replaceCounters s.copying (s.snapSource p) p,
      copyTick := mapSet (fun _ => 0) s.copyTick p (s.pageTick p) }

/-- The copy completes and the shadow switches whole (R385). -/
def Box.snapDone (s : Box) (p : Page) : Box :=
  if s.is (CNT_STATUS_BUSY p) = false then s
  else
    let t := mapGet (fun _ => 0) s.copyTick p
    let s1 : Box := { s with
      shadows := replaceCounters s.shadows (pageCounters s.copying p) p, copying := mapClear s.copying (p * 4096) 4096,
      copyTick := mapSet (fun _ => 0) s.copyTick p 0 }
    (((s1.put (CNT_STATUS_BUSY p) false).put (CNT_STATUS_VALID p) true).wr (CNT_SNAP_LO p) (t % 2 ^ 32)).wr (CNT_SNAP_HI p)
      (t / 2 ^ 32)

/-- The pages that name unit `u` for their snapshots (R385). -/
def Box.snapPages (s : Box) (u : Nat) : List Page :=
  allPages.filter fun p => hasCounters p && s.is (CNT_CTRL_SRC p) && s.rd (CNT_CTRL_TRIG p) == u

/-- Every firing of unit `u`, at the instant `i`, takes a snapshot of each page that names it once the page's replica reads that
instant (R385; 09_network_time.md R279). -/
def Box.snapTrigger (s : Box) (u i : Nat) : Box :=
  (s.snapPages u).foldl (fun (b : Box) p =>
    if (p, i) ∈ b.snapHad then { b with snapHad := b.snapHad.filter (· ≠ (p, i)) }
    else if i ≤ b.pageTick p then b.snapTake p
    else { b with snapWait := b.snapWait ++ [(p, i)] }) s

/-- At a tick: pages whose replica now reads the instant of a firing take their snapshots, and so do those whose replica is ahead
of the master that fires the unit (R385; 09_network_time.md R279). -/
def Box.snapTick (s : Box) : Box :=
  let due := s.snapWait.filter fun e => decide (e.2 ≤ s.pageTick e.1)
  let s1 := due.foldl (fun (b : Box) e => b.snapTake e.1) { s with snapWait := s.snapWait.filter fun e => e ∉ due }
  if s1.repl = [] then s1
  else
    ((List.range 32).filter fun u => s1.is (TGT_TRIG_CTRL_ARM u)).foldl (fun (b : Box) u =>
      ((b.snapPages u).filter fun p => decide (b.trigTime u ≤ b.pageTick p) && decide ((p, b.trigTime u) ∉ b.snapHad)).foldl
        (fun (c : Box) p => { c.snapTake p with snapHad := c.snapHad ++ [(p, b.trigTime u)] }) b) s1

/-- A clear of an LNK page's counters keeps the rises that lane health reads: the last readings fall by what is cleared
(10_optics.md R313). -/
def Box.fecRebase (s : Box) (p : Page) : Box :=
  let less (q w : Nat) (v : Int) : Int := v - (s.ctr p (2305 + 2 * (5 * (q / 4 % 64) + w))).toNat
  { s with ports := s.ports.map fun e =>
      if lnkPage (e.1 / 256) = p then (e.1, { e.2 with fecPrev := e.2.fecPrev.mapIdx fun w v => less e.1 w v }) else e }

/-- CLEAR sets every live counter and CNT_OVF bit of the page to 0 (R386); the counts stay known to a snapshot of the same
tick (R401). -/
def Box.cntClear (s : Box) (p : Page) : Box :=
  let a := pageBase p + 0x1100
  { s.fecRebase p with
    preClear := replaceCounters s.preClear (s.snapSource p) p, clearAt := mapSet (fun _ => 0) s.clearAt p (s.raw + 1),
    ctrs := mapClear s.ctrs (p * 4096) 4096, regs := mapClear s.regs a 0x200 }

/-- A write of CNT_CTRL (R385, R386, R402): CLEAR with SNAP, or SNAP with SRC = 1, is ignored with the access-error
indication. -/
def Box.cntCtrl (s : Box) (src : Requester) (p : Page) (v : Nat) : Box :=
  let a := pageBase p + 0x1000
  let clear := v.testBit 0
  let snap := v.testBit 1
  if snap && (clear || v.testBit 4) then s.accErrAt a src
  else
    let s1 := s.plainWrite src a v
    if clear then s1.cntClear p else if snap then s1.snapTake p else s1

/-- The value of CNT_CTRL with its command bits replaced, its other bits as they stand. -/
def Box.cntWith (s : Box) (p : Page) (cmd : Nat) : Nat := (s.word (pageBase p + 0x1000)).toNat / 4 * 4 + cmd

/-- SNAPSHOT_DONE (R385). -/
def execSnapshotDone (page : BitVec 12) (s : State) : Result :=
  s.act fun b => b.snapDone page.toNat

/-! ### Reading counters (R11, R385, R454) -/

/-- The counter index of a page offset, the hi words' included. -/
def ctrIndex (off : Nat) : Nat := (off - 0x1300) / 8

/-- A page offset of the counter area that holds a counter of the page. -/
def isCtrOff (p : Page) (off : Nat) : Bool :=
  decide (0x1300 ≤ off) && decide (off < 0x8000) && off % 4 == 0 && decide (ctrIndex off < (pageNcnt p).getD 0)

/-- The port slot a counter belongs to (R454, R467). -/
def counterSlot (p : Page) (i : Nat) : Option Nat :=
  let t := p / 256
  if 8 ≤ t then none
  else
    match p % 256 with
    | 0x01 => if i < 2304 then some (256 * t + i % 256) else none
    | 0x02 => if i < 1536 then some (256 * t + i % 256) else none
    | 0x03 => some (256 * t + i / 8)
    | 0x04 => if i < 2048 then some (256 * t + i / 8) else none
    | 0x24 => some i
    | 0x05 => some (256 * t + i % 256)
    | 0x07 => some (256 * t + i % 256)
    | 0x09 => some (256 * t + i)
    | _ => none

/-- The value a read of counter `i` returns: live, or the shadow in view; 0 while the page is not READY (R453) and for a
slot that is no port (R454).
DEDUCED, log entry 37. -/
def Box.ctrView (s : Box) (p : Page) (i : Nat) : BitVec 64 :=
  if s.is (PAGE_STATUS_READY p) = false then 0
  else if ((counterSlot p i).all s.isPort) = false then 0
  else if s.is (CNT_CTRL_VIEW p) then mapGet (fun _ => 0) s.shadows (p * 4096 + i) else s.ctr p i

/-- A read of a lo word returns it and latches the whole value.
DEDUCED, log entry 18. -/
def Box.ctrLo (s : Box) (p : Page) (i : Nat) : Word × Box :=
  let v := s.ctrView p i
  (BitVec.ofNat 32 v.toNat, { s with hiLatch := mapSet (fun _ => 0) s.hiLatch (p * 4096 + i) v })

/-- The upper half latched at the last lo read of a 64-bit quantity of a page; 0 where none has been read since reset, which R11
leaves open.
DESIGN CHOICE, log entry 150. -/
def Box.hiHalf (s : Box) (p : Page) (i : Nat) : Word :=
  BitVec.ofNat 32 ((mapGet (fun _ => 0) s.hiLatch (p * 4096 + i) : BitVec 64).toNat / 2 ^ 32)

/-- A read of a hi word returns the upper half latched last for the counter; 0 while the page is not READY (R453). -/
def Box.ctrHi (s : Box) (p : Page) (i : Nat) : Word := if s.is (PAGE_STATUS_READY p) then s.hiHalf p i else 0

/-! ### Occupancy monitors (R387, R388) -/

/-- Cells charged to the landing reserve of a port and VC. -/
def Box.landingUse (s : Box) (p v : Nat) : Nat :=
  (((s.port p).landed.filter fun l => frVc l.frame == v).map fun l => frCells l.frame).sum
    + (if v = 3 then ((s.port p).steer.map fun a => a.cells.length).sum else 0)
    + (if frVc (s.port p).part = v then (s.port p).partCells.length else 0)
    + ((s.held (p / 256)).map fun d => match d.charge with
        | .landing q _ u => if q = p ∧ u = v then d.ncells else 0
        | _ => 0).sum

/-- The quantity a monitor of tent `t` watches. -/
def Box.occQuantity (s : Box) (t src i : Nat) : Nat :=
  match src with
  | 0 => s.voqCells t (i / 8) (i % 8)
  | 1 => s.partOcc t i
  | 2 => s.landingUse (256 * t + i / 8) (i % 8)
  | 3 => ((s.staged (8 * (256 * t) + i)).map fun x => x.arrived - x.sentB / 256).sum
  | 4 => s.spillBlocks t
  | 5 => (s.sliver (8 * i + t)).slots.length
  | 6 => (s.sliver (8 * i + t)).intake.length
  | _ => s.backlogNow (i / 8) (i % 8)

/-- The largest INDEX of each source (R387). -/
def occMaxIndex (src : Nat) : Nat :=
  match src with
  | 1 => 3
  | 2 | 3 => 2047
  | 4 => 0
  | 5 | 6 => 511
  | _ => 16383

/-- One tick of an enabled monitor (R388).
DEDUCED, log entry 66. -/
def Box.occTick (s : Box) (t m : Nat) : Box :=
  if s.is (BRK_OCC_CFG_EN t m) = false then s
  else
    let q := s.occQuantity t (s.rd (BRK_OCC_CFG_SRC t m)) (s.rd (BRK_OCC_CFG_INDEX t m))
    let above := decide (s.rd (BRK_OCC_N_N t m) < q)
    let was := mapGet (fun _ => false) s.occs (16 * t + m)
    let s1 := if above then s.count (brkPage t) (32 + 2 * m) else s
    let s2 := if above && !was then
        let c := s1.count (brkPage t) (33 + 2 * m)
        if s.is (BRK_OCC_CFG_IE t m) then c.raiseInt (brkPage t) 0 else c
      else s1
    let s3 : Box := { s2 with occs := mapSet (fun _ => false) s2.occs (16 * t + m) above }
    s3.wr (BRK_OCC_MAX_MAX t m) (max (s3.rd (BRK_OCC_MAX_MAX t m)) (min q 0xFFFFFFFF))

/-- OCC_MONITOR_TICK (R388). -/
def execOccMonitorTick (t : TentIx) (m : BitVec 4) (s : State) : Result := s.actRun fun b => b.occTick t.toNat m.toNat

/-- A write of a monitor's configuration or threshold (R387, R388, R404). -/
def Box.occCfg (s : Box) (src : Requester) (t m : Nat) (n : Bool) (v : Nat) : Box :=
  let a := if n then BRK_OCC_N_at t m else BRK_OCC_CFG_at t m
  let sr := natField v 26 4
  if n = false ∧ 8 ≤ sr then s.rsvWriteAt a src
  else if n = false ∧ occMaxIndex sr < natField v 0 14 then s.accErrAt a src
  else
    let s1 := s.plainWrite src a v
    { (s1.wr (BRK_OCC_MAX_MAX t m) 0) with occs := mapSet (fun _ => false) s1.occs (16 * t + m) false }

/-- OCC_CFG_WRITE (R388). -/
def execOccCfgWrite (src : Requester) (t : TentIx) (m : BitVec 4) (n : Bool) (value : Word) (s : State) : Result :=
  s.actReg (if n then BRK_OCC_N_at t.toNat m.toNat else BRK_OCC_CFG_at t.toNat m.toNat) src fun b =>
    b.occCfg src t.toNat m.toNat n value.toNat

/-! ### Samplers (R391, R392, R394, R395) -/

/-- A sampler of the tent is enabled by BRK_CTRL.EN: it is seeded (R392). -/
def Box.samplersEnable (s : Box) (t : Nat) : Box :=
  ((List.range 16).filter fun k => s.is (BRK_SMP_CFG_EN t k)).foldl (fun b k => b.samplerEnable t k) s

/-- A write of a sampler's two words (R392, R395, R404): it seeds a sampler it enables and makes any other draw afresh at
its next eligible frame. -/
def Box.samplerCfg (s : Box) (src : Requester) (t k : Nat) (filt : Bool) (v : Nat) : Box :=
  let a := if filt then BRK_SMP_FILT_at t k else BRK_SMP_CFG_at t k
  let log := natField v 21 5
  if filt = false ∧ v.testBit 31 = true ∧ (log < 4 ∨ 24 < log) then s.rsvWriteAt a src
  else if filt = false ∧ v.testBit 27 = true ∧ v.testBit 30 = true then s.accErrAt a src
  else
    let s1 := s.plainWrite src a v
    if filt = false ∧ s.samplerOn t k = false ∧ s1.samplerOn t k = true then s1.samplerEnable t k
    else s1.setSampler (16 * t + k) { s1.sampler (16 * t + k) with fresh := true }

/-- SAMPLER_CFG_WRITE (R392). -/
def execSamplerCfgWrite (src : Requester) (t : TentIx) (k : BitVec 4) (filt : Bool) (value : Word) (s : State) : Result :=
  s.actReg (if filt then BRK_SMP_FILT_at t.toNat k.toNat else BRK_SMP_CFG_at t.toNat k.toNat) src fun b =>
    b.samplerCfg src t.toNat k.toNat filt value.toNat

/-- A write of MGT_SMPQ_TAIL releases records; one that would pass HEAD is ignored with the access-error indication
(R394). -/
def Box.smpqTail (s : Box) (src : Requester) (v : Nat) : Box :=
  let n := (v % 512 + 512 - s.rd MGT_SMPQ_TAIL_INDEX) % 512
  if s.smpq.length < n then s.accErrAt MGT_SMPQ_TAIL_at src
  else { (s.plainWrite src MGT_SMPQ_TAIL_at v) with smpq := s.smpq.drop n }

/-- SMPQ_TAIL_WRITE (R394). -/
def execSmpqTailWrite (src : Requester) (value : Word) (s : State) : Result :=
  s.actReg MGT_SMPQ_TAIL_at src fun b => b.smpqTail src value.toNat

/-! ### Backlog notices (R400) -/

/-- The 16-byte entry of a port in a notice. -/
def Box.hintEntry (s : Box) (p : Nat) : List Byte :=
  let sum := ((List.range 8).map fun v => mapGet (fun _ => 0) s.backlog (8 * p + v)).sum
  bytesBE 4 (s.rd (LNK_PARTNER_ID_HI_SERIAL p)) ++ bytesBE 4 (s.rd (LNK_PARTNER_ID_LO_SERIAL p))
    ++ bytesBE 2 (s.rd (LNK_PARTNER_INFO_SLOT p)) ++ bytesBE 1 (backlogCode sum) ++ bytesBE 1 (b2n (decide (p ∈ s.hot)))
    ++ bytesBE 4 0

/-- A backlog notice leaves on every leaf-facing port that is up, with up to 256 changed ports, at most once per
INTERVAL. -/
def Box.backlogNotice (s : Box) : Box :=
  if s.is (BRK_HINT_HOT_EN 0) = false ∨ s.hotQ = [] ∨ s.raw < s.hintAt + s.rd (BRK_HINT_INTERVAL_INTERVAL 0) then s
  else
    let ps := s.hotQ.take 256
    let pay := ps.flatMap s.hintEntry
    let send (b : Box) (p : Nat) : Box :=
      let x := b.port p
      let f := mkControl 4 (b.rd (LNK_PARTNER_ID_ADDR_ADDR p)) (b.rd (FWD_SELF_ADDR_ADDR 0))
        [0x23 * 2 ^ 24 + x.hseq, ps.length * 2 ^ 23] pay 0
      ((b.setPort p { x with hseq := (x.hseq + 1) % 65536 }).originate p f).count (brkPage 0) 66
    s.leafPorts.foldl send { s with hotQ := s.hotQ.drop 256, hintAt := s.raw }

/-- BACKLOG_NOTICE (R400). -/
def execBacklogNotice (s : State) : Result := s.actRun Box.backlogNotice

end Sys2Proof.Machine
end

