-- ==== Sys2Proof/Machine/Float.lean ====
section
/-!
DEFINITION. Floating point as the spec counts it: a value is an integer times a power of two, operations are exact
and each is rounded once, roundTiesToEven (06_collectives.md R168; 08_tumblers.md R240, R251, R252).
-/

namespace Sys2Proof.Machine

/-- A binary format: exponent and fraction bits, and whether the top exponent stands for infinities and NaNs
(E4M3 has no infinity and one NaN, R162). -/
structure FpFmt where
  e    : Nat
  m    : Nat
  ieee : Bool
  deriving DecidableEq, Repr

def fp32 : FpFmt := ⟨8, 23, true⟩
def bf16 : FpFmt := ⟨8, 7, true⟩
def fp16 : FpFmt := ⟨5, 10, true⟩
def fp64 : FpFmt := ⟨11, 52, true⟩
def e4m3 : FpFmt := ⟨4, 3, false⟩
def e5m2 : FpFmt := ⟨5, 2, true⟩

/-- A floating-point datum: NaN, an infinity, or (-1)^neg * mag * 2^exp. -/
inductive Fp where
  | nan
  | inf (neg : Bool)
  | fin (neg : Bool) (mag : Nat) (exp : Int)
  deriving DecidableEq, Repr

/-- The exponent bias. -/
def FpFmt.bias (f : FpFmt) : Int := 2 ^ (f.e - 1) - 1

/-- The weight of the lowest subnormal bit. -/
def FpFmt.qmin (f : FpFmt) : Int := 1 - f.bias - f.m

/-- The canonical NaN of a format (R162). -/
def FpFmt.qnan (f : FpFmt) : Nat :=
  if f.ieee then (2 ^ f.e - 1) * 2 ^ f.m + 2 ^ (f.m - 1) else 2 ^ (f.e + f.m) - 1

/-- The datum a code stands for. -/
def FpFmt.decode (f : FpFmt) (n : Nat) : Fp :=
  let neg := n.testBit (f.e + f.m)
  let ex := natField n f.m f.e
  let fr := natField n 0 f.m
  if ex = 2 ^ f.e - 1 ∧ f.ieee = true then (if fr = 0 then .inf neg else .nan)
  else if f.ieee = false ∧ ex = 2 ^ f.e - 1 ∧ fr = 2 ^ f.m - 1 then .nan
  else if ex = 0 then .fin neg fr f.qmin
  else .fin neg (2 ^ f.m + fr) (f.qmin + (ex - 1))

/-- `mag / 2^s` rounded to nearest, ties to even. -/
def roundShift (mag s : Nat) : Nat :=
  let q := mag / 2 ^ s
  let r := mag % 2 ^ s
  if 2 * r > 2 ^ s ∨ (2 * r = 2 ^ s ∧ q % 2 = 1) then q + 1 else q

/-- The largest finite code. -/
def FpFmt.maxFin (f : FpFmt) : Nat := if f.ieee then (2 ^ f.e - 1) * 2 ^ f.m - 1 else 2 ^ (f.e + f.m) - 2

/-- A datum rounded to a format: its code, and whether an E4M3 value was saturated (R168). -/
def FpFmt.round (f : FpFmt) : Fp → Nat × Bool
  | .nan => (f.qnan, false)
  | .inf neg =>
    let sg := b2n neg * 2 ^ (f.e + f.m)
    if f.ieee then (sg + (f.maxFin + 1), false) else (f.qnan, false)
  | .fin neg mag exp =>
    let sg := b2n neg * 2 ^ (f.e + f.m)
    if mag = 0 then (sg, false)
    else
      let top : Int := (Nat.log2 mag : Int) + exp
      let q : Int := max (top - f.m) f.qmin
      let m := if q ≤ exp then mag * 2 ^ (exp - q).toNat else roundShift mag (q - exp).toNat
      let code := (q - f.qmin).toNat * 2 ^ f.m + m
      if code ≤ f.maxFin then (sg + code, false)
      else if f.ieee then (sg + (f.maxFin + 1), false) else (sg + f.maxFin, true)

/-- The code of a datum rounded to a format; an overflow of E4M3 saturates. -/
def FpFmt.code (f : FpFmt) (x : Fp) : Nat := (f.round x).1

/-- The datum rounded to a format. -/
def FpFmt.rnd (f : FpFmt) (x : Fp) : Fp := f.decode (f.code x)

/-! ### Exact operations -/

/-- The signed integer of a finite value in units of 2^e. -/
def finInt (neg : Bool) (mag : Nat) (exp e : Int) : Int :=
  let v : Int := mag * 2 ^ (exp - e).toNat
  if neg then -v else v

/-- Exact sum: an exact zero of unlike signs is +0 (R174, R240). -/
def Fp.add : Fp → Fp → Fp
  | .nan, _ => .nan
  | _, .nan => .nan
  | .inf a, .inf b => if a = b then .inf a else .nan
  | .inf a, _ => .inf a
  | _, .inf b => .inf b
  | .fin a m x, .fin b n y =>
    if m = 0 ∧ n = 0 then .fin (a && b) 0 x
    else
      let e := min x y
      let i := finInt a m x e + finInt b n y e
      .fin (decide (i < 0)) i.natAbs e

/-- Sign flipped. -/
def Fp.neg : Fp → Fp
  | .nan => .nan
  | .inf a => .inf !a
  | .fin a m x => .fin (!a) m x

/-- Sign cleared. -/
def Fp.abs : Fp → Fp
  | .nan => .nan
  | .inf _ => .inf false
  | .fin _ m x => .fin false m x

/-- Exact product. -/
def Fp.mul : Fp → Fp → Fp
  | .nan, _ => .nan
  | _, .nan => .nan
  | .inf a, .inf b => .inf (a != b)
  | .inf a, .fin b n _ => if n = 0 then .nan else .inf (a != b)
  | .fin a m _, .inf b => if m = 0 then .nan else .inf (a != b)
  | .fin a m x, .fin b n y => .fin (a != b) (m * n) (x + y)

/-- Exact a × b + c. -/
def Fp.fma (a b c : Fp) : Fp := (a.mul b).add c

/-- The quotient to 128 bits and a sticky bit below: enough for one correct rounding to any format here. -/
def Fp.div : Fp → Fp → Fp
  | .nan, _ => .nan
  | _, .nan => .nan
  | .inf _, .inf _ => .nan
  | .inf a, .fin b _ _ => .inf (a != b)
  | .fin a _ x, .inf b => .fin (a != b) 0 x
  | .fin a m x, .fin b n y =>
    if n = 0 then (if m = 0 then .nan else .inf (a != b))
    else
      let k := 128 + Nat.log2 n
      let q := m * 2 ^ k / n
      .fin (a != b) (2 * q + b2n (decide (m * 2 ^ k % n ≠ 0))) (x - y - k - 1)

/-- The integer square root, bit by bit from bit `i`. -/
def isqrt (n : Nat) : Nat → Nat → Nat
  | 0, r => r
  | i + 1, r => isqrt n i (if (r + 2 ^ i) * (r + 2 ^ i) ≤ n then r + 2 ^ i else r)

/-- The square root to more than 100 bits and a sticky bit below. -/
def Fp.sqrt : Fp → Fp
  | .nan => .nan
  | .inf a => if a then .nan else .inf false
  | .fin a m x =>
    if m = 0 then .fin a 0 x
    else if a then .nan
    else
      let odd := (x % 2).toNat
      let n := m * 2 ^ (odd + 200)
      let r := isqrt n (Nat.log2 n / 2 + 1) 0
      .fin false (2 * r + b2n (decide (r * r ≠ n))) ((x - odd - 200) / 2 - 1)

/-! ### Order -/

/-- Comparison of two data that are no NaN: -1, 0 or 1; the zeros are equal. -/
def Fp.cmp : Fp → Fp → Int
  | .inf a, .inf b => if a = b then 0 else if a then -1 else 1
  | .inf a, _ => if a then -1 else 1
  | _, .inf b => if b then 1 else -1
  | .fin a m x, .fin b n y =>
    let e := min x y
    let i := finInt a m x e
    let j := finInt b n y e
    if i < j then -1 else if j < i then 1 else 0
  | _, _ => 0

/-- NaN. -/
def Fp.isNan : Fp → Bool
  | .nan => true
  | _ => false

/-- The sign. -/
def Fp.isNeg : Fp → Bool
  | .nan => false
  | .inf a => a
  | .fin a _ _ => a

/-- a = b: no NaN is equal to anything (R240). -/
def Fp.eq (a b : Fp) : Bool := !a.isNan && !b.isNan && a.cmp b == 0
/-- a < b. -/
def Fp.lt (a b : Fp) : Bool := !a.isNan && !b.isNan && decide (a.cmp b < 0)
/-- a ≤ b. -/
def Fp.le (a b : Fp) : Bool := !a.isNan && !b.isNan && decide (a.cmp b ≤ 0)

/-- The order of MIN and MAX: -0 below +0 (R240). -/
def Fp.below (a b : Fp) : Bool := decide (a.cmp b < 0) || (a.cmp b == 0 && a.isNeg && !b.isNeg)

/-- MIN (R240). -/
def Fp.min (a b : Fp) : Fp := if a.isNan || b.isNan then .nan else if b.below a then b else a
/-- MAX (R240). -/
def Fp.max (a b : Fp) : Fp := if a.isNan || b.isNan then .nan else if a.below b then b else a

/-! ### Integers -/

/-- A finite value rounded to an integer, ties to even. -/
def Fp.toInt : Fp → Int
  | .fin neg mag exp =>
    let v : Nat := if 0 ≤ exp then mag * 2 ^ exp.toNat else roundShift mag (-exp).toNat
    if neg then -(v : Int) else v
  | _ => 0

/-- An integer as a datum. -/
def Fp.ofInt (i : Int) : Fp := .fin (decide (i < 0)) i.natAbs 0

/-- FP32 or other to INT32, rounded to nearest even, saturating, NaN to 0 (R241, R244). -/
def Fp.toI32 (x : Fp) : Nat :=
  match x with
  | .nan => 0
  | .inf neg => if neg then 2 ^ 31 else 2 ^ 31 - 1
  | x => ofSigned 32 (Max.max (-2 ^ 31) (Min.min (2 ^ 31 - 1) x.toInt))

/-! ### EXP and LOG (R251, R252): each operation rounded once to binary64 -/

/-- Rounded to binary64. -/
def r64 (x : Fp) : Fp := fp64.rnd x

/-- LN2 of R251. -/
def ln2 : Fp := fp64.decode 0x3FE62E42FEFA39EF

/-- n!. -/
def fact : Nat → Nat
  | 0 => 1
  | n + 1 => (n + 1) * fact n

/-- Cn: the binary64 value nearest to 1 / n!. -/
def expC (n : Nat) : Fp := r64 ((Fp.ofInt 1).div (Fp.ofInt (fact n)))

/-- Horner's rule from the coefficient `n` down to 0. -/
def horner (c : Nat → Fp) (r : Fp) : Nat → Fp → Fp
  | 0, p => p
  | n + 1, p => horner c r n (r64 (p.fma r (c n)))

/-- A datum times a power of two. -/
def Fp.scale (x : Fp) (k : Int) : Fp :=
  match x with
  | .fin a m e => .fin a m (e + k)
  | y => y

/-- EXP of an FP32 code (R251). -/
def exp32 (n : Nat) : Nat :=
  match fp32.decode n with
  | .nan => fp32.qnan
  | .inf neg => if neg then 0 else 0x7F800000
  | x =>
    if (fp32.decode 0x42B17218).le x then 0x7F800000
    else if x.le (fp32.decode 0xC2D00000) then 0
    else
      let k := (r64 (x.mul (fp64.decode 0x3FF71547652B82FE))).toInt
      let r := r64 ((Fp.ofInt (-k)).fma ln2 x)
      fp32.code ((horner expC r 8 (expC 8)).scale k)

/-- Dn: the binary64 value nearest to 1 / (2n + 1). -/
def logD (n : Nat) : Fp := r64 ((Fp.ofInt 1).div (Fp.ofInt (2 * n + 1)))

/-- LOG of an FP32 code (R252). -/
def log32 (n : Nat) : Nat :=
  match fp32.decode n with
  | .nan => fp32.qnan
  | .inf neg => if neg then fp32.qnan else 0x7F800000
  | .fin neg mag exp =>
    if mag = 0 then 0xFF800000
    else if neg then fp32.qnan
    else
      let e0 : Int := Nat.log2 mag + exp
      let m0 : Fp := .fin false mag (-(Nat.log2 mag : Int))
      let big := (fp64.decode 0x3FF6A09E667F3BCD).lt m0
      let m := if big then m0.scale (-1) else m0
      let e := if big then e0 + 1 else e0
      let f := m.add (Fp.ofInt (-1))
      let s := r64 (f.div (f.add (Fp.ofInt 2)))
      let z := r64 (s.mul s)
      let q := horner logD z 6 (logD 6)
      let l := r64 ((s.scale 1).mul q)
      fp32.code (r64 ((Fp.ofInt e).fma ln2 l))

end Sys2Proof.Machine
end

