-- ==== Sys2Proof/Machine/Arith.lean ====
section
/-!
DEFINITION. Carousel's arithmetic (06_collectives.md): formats and operators (R161 to R164), the exact accumulator
(R165 to R168, R494), wide partials (R170, R171), and the combine functions of the tree (R174, R177).
-/

namespace Sys2Proof.Machine

/-! ### Formats (R162) -/

/-- Bytes of an element of a format code other than MXFP8; LSEM takes its head dimension. -/
def elemBytes (fmt hdim : Nat) : Nat :=
  match fmt with
  | 0 => 4
  | 1 => 2
  | 2 => 2
  | 7 => 4
  | 8 => 8
  | 9 => 8
  | 10 => 8 + 4 * hdim
  | _ => 1

/-- Elements per accumulator entry; each MAXLOC or MINLOC element takes one (R164). -/
def packOf (op fmt : Nat) : Nat :=
  if op = 3 ∨ op = 4 then 1
  else match fmt with
    | 2 => 3
    | 3 => 5
    | 4 => 5
    | 7 => 5
    | 8 => 3
    | 9 => 3
    | _ => 1

/-- W of a format's accumulator class (R165). -/
def classW (fmt : Nat) : Nat :=
  match fmt with
  | 2 => 96
  | 8 => 96
  | 3 => 64
  | 4 => 64
  | 7 => 64
  | _ => 320

/-- LSB of a format's accumulator class (R165). -/
def classLsb (fmt : Nat) : Int :=
  match fmt with
  | 2 => -24
  | 3 => -16
  | 4 => -16
  | 7 => 0
  | 8 => 0
  | _ => -149

/-- Limbs of a wide partial of the class (R170). -/
def classLimbs (fmt : Nat) : Nat :=
  match classW fmt with
  | 320 => 5
  | 96 => 2
  | _ => 1

/-- The binary format of a floating-point code. -/
def fpOf (fmt : Nat) : FpFmt :=
  match fmt with
  | 0 => fp32
  | 1 => bf16
  | 2 => fp16
  | 3 => e4m3
  | 4 => e5m2
  | 5 => e4m3
  | 6 => e5m2
  | _ => fp64

/-- The code is an integer format. -/
def intFmt (fmt : Nat) : Bool := fmt == 7 || fmt == 8

/-- Bits of an integer format. -/
def intBits (fmt : Nat) : Nat := if fmt = 7 then 32 else 64

/-- OP, FMT, RFMT, RWIDE and BARRIER that a group entry may not combine (R161, R162). -/
def comboBad (op fmt rfmt : Nat) (rwide barrier : Bool) : Bool :=
  let fmtOk := match op with
    | 0 => fmt ≤ 9
    | 1 => fmt ≤ 4 || (7 ≤ fmt && fmt ≤ 9)
    | 2 => fmt ≤ 4 || (7 ≤ fmt && fmt ≤ 9)
    | 3 => fmt == 0 || fmt == 7
    | 4 => fmt == 0 || fmt == 7
    | 5 => intFmt fmt
    | 6 => intFmt fmt
    | 7 => intFmt fmt
    | 8 => fmt == 7
    | 9 => fmt == 10
    | 10 => fmt ≤ 11
    | _ => false
  let rfmtOk :=
    if op = 0 ∧ fmt ≤ 6 then rfmt ≤ 4
    else if (op = 0 ∨ op = 8) ∧ fmt = 7 then rfmt == 7 || rfmt == 8
    else rfmt == fmt
  !fmtOk || !rfmtOk || (barrier && op != 8) || (rwide && !(op == 0 && fmt ≤ 8))

/-- The group's streams run in tree mode by their operator alone (R172). -/
def treeOp (op fmt : Nat) : Bool := (op == 0 && fmt == 9) || op == 9

/-! ### Payloads in plain form -/

/-- The payload bytes of a plain part before its padding (R162, R163, R164). -/
def plainBytes (op fmt hdim n : Nat) : Nat :=
  if op = 3 ∨ op = 4 then 8 * n
  else if fmt = 5 ∨ fmt = 6 then 64 * ceilDiv (n / 32) 64 + n
  else elemBytes fmt hdim * n

/-- The padding of a plain part is zero: the end of the payload, and for MXFP8 the gap after the scales. -/
def plainPadOk (op fmt hdim n : Nat) (pay : List Byte) : Bool :=
  let used := plainBytes op fmt hdim n
  (pay.drop used).all (· == 0) &&
    (if fmt = 5 ∨ fmt = 6 then ((pay.take (64 * ceilDiv (n / 32) 64)).drop (n / 32)).all (· == 0) else true)

/-- Element `i` of a plain SUM or COUNT part as a datum. -/
def plainFp (fmt : Nat) (n : Nat) (pay : List Byte) (i : Nat) : Fp :=
  if fmt = 5 ∨ fmt = 6 then
    let x := beAt pay (i / 32) 1
    if x = 255 then .nan
    else ((fpOf fmt).decode (beAt pay (64 * ceilDiv (n / 32) 64 + i) 1)).scale ((x : Int) - 127)
  else
    let w := elemBytes fmt 0
    (fpOf fmt).decode (beAt pay (w * i) w)

/-! ### The accumulator (R166, R167, R494) -/

/-- The residue modulo 3 of an integer. -/
def res3 (i : Int) : Nat := (i % 3).toNat

/-- An addend goes into A, its residue beside it (R352). -/
def Acc.addInt (x : Acc) (i : Int) : Acc := { x with a := x.a + i, res := (x.res + res3 i) % 3 }

/-- A floating-point input of a SUM (R166). -/
def Acc.addFp (lsb : Int) (x : Acc) : Fp → Acc
  | .nan => { x with nan := true, allnz := false }
  | .inf neg => if neg then { x with ninf := true, allnz := false } else { x with pinf := true, allnz := false }
  | .fin neg mag exp => { x.addInt (finInt neg mag exp lsb) with allnz := x.allnz && neg && mag == 0 }

/-- The values of MAX, MIN and the LOC operators in order: floating-point codes or two's complement. -/
def extremeFp (fmt v : Nat) : Fp := if intFmt fmt then Fp.ofInt (toSigned (intBits fmt) v) else (fpOf fmt).decode v

/-- An input of MAX or MIN (R161, R494). -/
def Acc.extreme (x : Acc) (big : Bool) (fmt v : Nat) : Acc :=
  let y := extremeFp fmt v
  if y.isNan then { x with nan := true }
  else if x.has = false then { x with has := true, val := v }
  else
    let o := extremeFp fmt x.val
    if (if big then o.below y else y.below o) then { x with val := v } else x

/-- An input of MAXLOC or MINLOC: value and index (R164). -/
def Acc.loc (x : Acc) (big : Bool) (fmt v i : Nat) : Acc :=
  let y := extremeFp fmt v
  if y.isNan then
    if x.nan then { x with idx := min x.idx i } else { x with nan := true, idx := i }
  else if x.nan then x
  else if x.has = false then { x with has := true, val := v, idx := i }
  else
    let o := extremeFp fmt x.val
    let c := if big then o.cmp y else y.cmp o
    if c < 0 then { x with val := v, idx := i }
    else if c = 0 ∧ i < x.idx then { x with val := v, idx := i }
    else if c = 0 ∧ i = x.idx ∧ v ≠ x.val then { x with val := 0 }
    else x

/-- An input of AND, OR or XOR. -/
def Acc.bitop (x : Acc) (op v : Nat) : Acc :=
  if x.has = false then { x with has := true, val := v }
  else match op with
    | 5 => { x with val := x.val &&& v }
    | 6 => { x with val := x.val ||| v }
    | _ => { x with val := x.val ^^^ v }

/-- Element `i` of a plain part of `n` elements goes into its accumulator. -/
def Acc.plain (x : Acc) (op fmt n : Nat) (pay : List Byte) (i : Nat) : Acc :=
  let w := elemBytes fmt 0
  match op with
  | 0 => if intFmt fmt then { x.addInt (toSigned (intBits fmt) (beAt pay (w * i) w)) with allnz := false }
         else x.addFp (classLsb fmt) (plainFp fmt n pay i)
  | 1 => x.extreme true fmt (beAt pay (w * i) w)
  | 2 => x.extreme false fmt (beAt pay (w * i) w)
  | 3 => x.loc true fmt (beAt pay (8 * i) 4) (beAt pay (8 * i + 4) 4)
  | 4 => x.loc false fmt (beAt pay (8 * i) 4) (beAt pay (8 * i + 4) 4)
  | 8 => { x.addInt (toSigned 32 (beAt pay (4 * i) 4)) with allnz := false }
  | _ => x.bitop op (beAt pay (w * i) w)

/-! ### Wide partials (R170, R171) -/

/-- A wide partial record: its flags and the integer its limbs spell. -/
structure WideRec where
  nan   : Bool
  pinf  : Bool
  ninf  : Bool
  allnz : Bool
  a     : Int
  deriving DecidableEq, Repr

/-- The limbs of a record, present ones read in order from byte `at_`, absent ones all NEG. -/
def wideLimbs (pay : List Byte) (neg : Bool) (lmask : Nat) : Nat → Nat → Nat → List Nat
  | 0, _, _ => []
  | n + 1, k, at_ =>
    if lmask.testBit k then beAt pay at_ 8 :: wideLimbs pay neg lmask n (k + 1) (at_ + 8)
    else (if neg then 2 ^ 64 - 1 else 0) :: wideLimbs pay neg lmask n (k + 1) at_

/-- The number that limbs spell, least significant first. -/
def limbsNat (ls : List Nat) : Nat := ls.foldr (fun x a => x + a * 2 ^ 64) 0

/-- One record at byte `at_`: the record and the byte after it, none where it is not well formed. -/
def wideRec (fmt : Nat) (pay : List Byte) (at_ : Nat) : Option (WideRec × Nat) :=
  let d := beAt pay at_ 8
  let lmask := natField d 54 5
  let nl := classLimbs fmt
  let cnt := ((List.range 5).filter fun k => lmask.testBit k).length
  let ls := wideLimbs pay (d.testBit 59) lmask nl 0 (at_ + 8)
  let v := limbsNat ls
  let topOk := classW fmt != 96 || natField v 96 32 == (if v.testBit 95 then 2 ^ 32 - 1 else 0)
  if pay.length < at_ + 8 + 8 * cnt ∨ 2 ^ nl ≤ lmask ∨ natField d 0 54 ≠ 0 ∨ topOk = false then none
  else some (⟨d.testBit 63, d.testBit 62, d.testBit 61, d.testBit 60, toSigned (64 * nl) v⟩, at_ + 8 + 8 * cnt)

/-- `n` records from byte `at_`, and the byte after the last. -/
def wideRecs (fmt : Nat) (pay : List Byte) : Nat → Nat → Option (List WideRec × Nat)
  | 0, at_ => some ([], at_)
  | n + 1, at_ =>
    match wideRec fmt pay at_ with
    | none => none
    | some (r, a) =>
      match wideRecs fmt pay n a with
      | none => none
      | some (rs, e) => some (r :: rs, e)

/-- The records of a wide payload, where they, the padding and the length are well formed (R158 step 10, R170). -/
def wideParse (fmt n : Nat) (pay : List Byte) : Option (List WideRec) :=
  match wideRecs fmt pay n 0 with
  | none => none
  | some (rs, e) => if (pay.drop e).all (· == 0) ∧ pay.length = 64 * ceilDiv e 64 then some rs else none

/-- A wide partial record goes into an accumulator (R166). -/
def Acc.wide (x : Acc) (r : WideRec) : Acc :=
  { x.addInt r.a with nan := x.nan || r.nan, pinf := x.pinf || r.pinf, ninf := x.ninf || r.ninf,
                      allnz := x.allnz && r.allnz }

/-- The record RWIDE sends: the low W bits of A, each limb equal to its sign extension left out (R171). -/
def wideOut (fmt : Nat) (x : Acc) : List Byte :=
  let w := classW fmt
  let nl := classLimbs fmt
  let v := toSigned w (ofSigned w x.a)
  let u := ofSigned (64 * nl) v
  let neg := decide (v < 0)
  let ls := (List.range nl).map fun k => natField u (64 * k) 64
  let fill := if neg then 2 ^ 64 - 1 else 0
  let mask := ((List.range nl).map fun k => if ls.getD k 0 = fill then 0 else 2 ^ k).sum
  let d := b2n x.nan * 2 ^ 63 + b2n x.pinf * 2 ^ 62 + b2n x.ninf * 2 ^ 61 + b2n x.allnz * 2 ^ 60 + b2n neg * 2 ^ 59
    + mask * 2 ^ 54
  bytesBE 8 d ++ (ls.filter (· ≠ fill)).flatMap (bytesBE 8)

/-! ### Finalising (R168) -/

/-- A does not fit in its W bits: GUARD. -/
def guardBad (fmt : Nat) (a : Int) : Bool :=
  decide (a < -(2 ^ (classW fmt - 1) : Nat)) || decide ((2 ^ (classW fmt - 1) : Nat) ≤ a)

/-- An integer saturated to a format, and RANGE. -/
def satInt (bits : Nat) (a : Int) : Nat × Bool :=
  let hi : Int := (2 ^ (bits - 1) : Nat) - 1
  let lo : Int := -(2 ^ (bits - 1) : Nat)
  if hi < a then (ofSigned bits hi, true) else if a < lo then (ofSigned bits lo, true) else (ofSigned bits a, false)

/-- The result of a SUM or COUNT element: its code in RFMT, and RANGE. -/
def sumResult (fmt rfmt : Nat) (x : Acc) : Nat × Bool :=
  if intFmt rfmt then
    (if x.nan || x.pinf || x.ninf then
      ((Config.flaggedInt rfmt (b2n x.nan + 2 * b2n x.pinf + 4 * b2n x.ninf)).toNat, false)
     else satInt (intBits rfmt) x.a)
  else
    let f := fpOf rfmt
    if x.nan ∨ (x.pinf ∧ x.ninf) then (f.qnan, false)
    else if x.pinf then f.round (.inf false)
    else if x.ninf then f.round (.inf true)
    else if x.a = 0 then (f.code (.fin x.allnz 0 0), false)
    else f.round (.fin (decide (x.a < 0)) x.a.natAbs (classLsb fmt))

/-- The bytes of one element's result, and whether it set GUARD and RANGE. -/
def elemResult (op fmt rfmt : Nat) (rwide : Bool) (x : Acc) : List Byte × Bool × Bool :=
  if op = 0 ∨ op = 8 then
    let g := guardBad fmt x.a
    if rwide then (wideOut fmt x, g, false)
    else
      let r := sumResult fmt rfmt x
      (bytesBE (elemBytes rfmt 0) r.1, g, r.2)
  else if op = 3 ∨ op = 4 then
    (bytesBE 4 (if x.nan then fp32.qnan else x.val) ++ bytesBE 4 x.idx, false, false)
  else
    (bytesBE (elemBytes rfmt 0) (if x.nan then (fpOf rfmt).qnan else x.val), false, false)

/-! ### Combines of the tree -/

/-- The words of a payload as codes of `w` bytes. -/
def codesOf (w n : Nat) (pay : List Byte) : List Nat := (List.range n).map fun i => beAt pay (w * i) w

/-- f for SUM of FP64 (R174). -/
def fp64Combine (n : Nat) (x y : List Byte) : List Byte :=
  padTo x.length 0 ((List.range n).flatMap fun i =>
    bytesBE 8 (fp64.code ((fp64.decode (beAt x (8 * i) 8)).add (fp64.decode (beAt y (8 * i) 8)))))

/-- FP32 product and sum of codes, each rounded once. -/
def mul32 (a b : Nat) : Nat := fp32.code ((fp32.decode a).mul (fp32.decode b))
/-- FP32 fused multiply and add of codes. -/
def fma32 (a b c : Nat) : Nat := fp32.code ((fp32.decode a).fma (fp32.decode b) (fp32.decode c))

/-- f for one LSEM triple given as its FP32 codes m, s, o (R177). -/
def lsemMerge (x y : List Nat) : List Nat :=
  if (x ++ y).any fun c => (fp32.decode c).isNan then x.map fun _ => fp32.qnan
  else
    let m1 := fp32.decode (x.getD 0 0)
    let m2 := fp32.decode (y.getD 0 0)
    let m := fp32.code (m1.max m2)
    let wt (mi : Fp) : Nat :=
      if mi.eq (fp32.decode m) then 0x3F800000 else exp32 (fp32.code (mi.add (fp32.decode m).neg))
    let a1 := wt m1
    let a2 := wt m2
    m :: (List.zip (x.drop 1) (y.drop 1)).map fun p => fma32 p.2 a2 (mul32 p.1 a1)

/-- f for LSEM over a part of `n` triples (R177). -/
def lsemCombine (hdim n : Nat) (x y : List Byte) : List Byte :=
  let w := 8 + 4 * hdim
  padTo x.length 0 ((List.range n).flatMap fun i =>
    (lsemMerge (codesOf 4 (2 + hdim) (x.drop (w * i))) (codesOf 4 (2 + hdim) (y.drop (w * i)))).flatMap (bytesBE 4))

end Sys2Proof.Machine
end

