-- ==== Sys2Proof/Machine/Curve.lean ====
section
/-!
DEFINITION. The public-key arithmetic of the boot and security engine: the curve P-384 (SP 800-186), ECDSA over it and KeyGen
(FIPS 186-5), deterministic nonces (RFC 6979) and HMAC-SHA-384 (FIPS 198-1), as 07_determinism_audit.md R211 and
15_boot_security.md R437 and R439 name them.
-/

namespace Sys2Proof.Machine

/-- HMAC-SHA-384 (FIPS 198-1) with a key of at most 128 bytes.
DEDUCED, log entry 9. -/
def hmac384 (key msg : List Byte) : List Byte :=
  let k := padTo 128 0 key
  sha384 ((k.map (· ^^^ 0x5C)) ++ sha384 ((k.map (· ^^^ 0x36)) ++ msg))

/-! ### The field and the curve -/

/-- The prime of the field. -/
def curveP : Nat := 2 ^ 384 - 2 ^ 128 - 2 ^ 96 + 2 ^ 32 - 1

/-- The order of the curve. -/
def curveN : Nat := 0xFFFFFFFFFFFFFFFFFFFFFFFFFFFFFFFFFFFFFFFFFFFFFFFFC7634D81F4372DDF581A0DB248B0A77AECEC196ACCC52973

/-- The curve's coefficient b; a is -3. -/
def curveB : Nat := 0xB3312FA7E23EE7E4988E056BE3F82D19181D9C6EFE8141120314088F5013875AC656398D8A2ED19D2A85C8EDD3EC2AEF

/-- `a - b` modulo the prime, for reduced `b`. -/
def fieldSub (a b : Nat) : Nat := (a + curveP - b) % curveP

/-- A power modulo `m` of at most 384 bits in the exponent. -/
def powMod (m b e : Nat) : Nat :=
  (List.range 384).foldl (fun acc i => let q := acc * acc % m; if e.testBit (383 - i) then q * b % m else q) 1

/-- The inverse modulo a prime. -/
def invMod (m a : Nat) : Nat := powMod m (a % m) (m - 2)

/-- A point in Jacobian coordinates; `z` is 0 at infinity. -/
structure CurvePt where
  x : Nat
  y : Nat
  z : Nat
  deriving DecidableEq, Repr

/-- The base point. -/
def curveG : CurvePt :=
  ⟨0xAA87CA22BE8B05378EB1C71EF320AD746E1D3B628BA79B9859F741E082542A385502F25DBF55296C3A545E3872760AB7,
   0x3617DE4A96262C6F5D9E98BF9292DC29F8F41DBD289A147CE9DA3113B5F0B8C00A60B1CE1D7E819D7A431D7C90EA0E5F, 1⟩

/-- The point at infinity. -/
def curveO : CurvePt := ⟨1, 1, 0⟩

/-- A point added to itself. -/
def CurvePt.double (p : CurvePt) : CurvePt :=
  let d := p.z * p.z % curveP
  let g := p.y * p.y % curveP
  let b := p.x * g % curveP
  let a := 3 * (fieldSub p.x d * ((p.x + d) % curveP)) % curveP
  let x := fieldSub (a * a) (8 * b % curveP)
  ⟨x, fieldSub (a * fieldSub (4 * b) x) (8 * g * g % curveP), 2 * p.y * p.z % curveP⟩

/-- The sum of two points. -/
def CurvePt.add (p q : CurvePt) : CurvePt :=
  if p.z = 0 then q
  else if q.z = 0 then p
  else
    let zp := p.z * p.z % curveP
    let zq := q.z * q.z % curveP
    let u := p.x * zq % curveP
    let s := p.y * (q.z * zq % curveP) % curveP
    let h := fieldSub (q.x * zp) u
    let r := fieldSub (q.y * (p.z * zp % curveP)) s
    if h = 0 then (if r = 0 then p.double else curveO)
    else
      let hh := h * h % curveP
      let hhh := h * hh % curveP
      let v := u * hh % curveP
      let x := fieldSub (r * r) ((hhh + 2 * v) % curveP)
      ⟨x, fieldSub (r * fieldSub v x) (s * hhh % curveP), h * p.z % curveP * q.z % curveP⟩

/-- A multiple of a point. -/
def CurvePt.mul (k : Nat) (p : CurvePt) : CurvePt :=
  (List.range 384).foldl (fun acc i => let d := acc.double; if k.testBit (383 - i) then d.add p else d) curveO

/-- The affine coordinates of a point that is not at infinity. -/
def CurvePt.affine (p : CurvePt) : Nat × Nat :=
  let i := invMod curveP p.z
  let ii := i * i % curveP
  (p.x * ii % curveP, p.y * (i * ii % curveP) % curveP)

/-- Affine coordinates name a point of the curve. -/
def onCurve (x y : Nat) : Bool :=
  decide (x < curveP ∧ y < curveP) && y * y % curveP == fieldSub (x * x * x + curveB) (3 * x % curveP)

/-! ### ECDSA (FIPS 186-5 section 6) -/

/-- The signature (r then s, big-endian) over a SHA-384 digest verifies under a public key (x then y): each key and signature is
96 bytes. -/
def ecdsaOk (pub digest sig : List Byte) : Bool :=
  let x := beAt pub 0 48
  let y := beAt pub 48 48
  let r := beAt sig 0 48
  let s := beAt sig 48 48
  if onCurve x y = false ∨ r = 0 ∨ curveN ≤ r ∨ s = 0 ∨ curveN ≤ s then false
  else
    let w := invMod curveN s
    let q := (CurvePt.mul (natBE digest * w % curveN) curveG).add (CurvePt.mul (r * w % curveN) ⟨x, y, 1⟩)
    q.z != 0 && q.affine.1 % curveN == r

/-- The public key of a secret key: x then y. -/
def publicKey (d : Nat) : List Byte :=
  let a := (CurvePt.mul d curveG).affine
  bytesBE 48 a.1 ++ bytesBE 48 a.2

/-- The secret key of KeyGen(x) (FIPS 186-5 appendix A.2.2): x as an integer plus 1; where that is too large the appendix draws
again, and the spec names no second input.
DESIGN CHOICE, log entry 174. -/
def keyGen (x : List Byte) : BitVec 384 :=
  let c := natBE x
  if c ≤ curveN - 2 then BitVec.ofNat 384 (c + 1) else Config.keyGenAgain x

/-! ### Deterministic nonces (RFC 6979) -/

/-- The first of the generator's candidates that serves, from its key and value; `fuel` bounds the candidates looked at. -/
def nonceSign (d e : Nat) : Nat → List Byte → List Byte → Option (List Byte)
  | 0, _, _ => none
  | fuel + 1, key, v =>
    let t := hmac384 key v
    let k := natBE t
    let r := (CurvePt.mul k curveG).affine.1 % curveN
    let s := invMod curveN k * ((e + r * d) % curveN) % curveN
    if 0 < k ∧ k < curveN ∧ r ≠ 0 ∧ s ≠ 0 then some (bytesBE 48 r ++ bytesBE 48 s)
    else
      let key' := hmac384 key (t ++ [0])
      nonceSign d e fuel key' (hmac384 key' t)

/-- The ECDSA P-384 signature of a SHA-384 digest under a secret key, r then s, with the nonce of RFC 6979 (R211). A run of the
nonce generator longer than 64 candidates has no value here.
DESIGN CHOICE, log entry 174. -/
def ecdsaSign (key : BitVec 384) (digest : List Byte) : List Byte :=
  let x := bytesBE 48 key.toNat
  let h := bytesBE 48 (natBE digest % curveN)
  let v := List.replicate 48 (1 : Byte)
  let k1 := hmac384 (List.replicate 48 0) (v ++ [0] ++ x ++ h)
  let v1 := hmac384 k1 v
  let k2 := hmac384 k1 (v1 ++ [1] ++ x ++ h)
  (nonceSign key.toNat (natBE digest) 64 k2 (hmac384 k2 v1)).getD (bytesBE 96 (Config.signature key digest).toNat)

end Sys2Proof.Machine
end

