-- ==== Sys2Proof/Machine/Image.lean ====
section
/-!
DEFINITION. Kernel images (08_tumblers.md R219): their header, code words and constants.
-/

namespace Sys2Proof.Machine

/-- KIND: 0 streaming, 1 tree-only. -/
def imgKind (b : List Byte) : Nat := leAt b 5 1
/-- FMT. -/
def imgFmt (b : List Byte) : Nat := leAt b 6 1
/-- CODE_WORDS. -/
def imgCodeWords (b : List Byte) : Nat := leAt b 8 2
/-- CONST_LINES. -/
def imgConstLines (b : List Byte) : Nat := leAt b 10 2
/-- STATE_LINES. -/
def imgStateLines (b : List Byte) : Nat := leAt b 12 2
/-- Entry point `i`: 0 OPEN, 1 STEP, 2 CLOSE, 3 COMBINE. -/
def imgEntry (b : List Byte) (i : Nat) : Nat := leAt b (16 + 2 * i) 2
/-- The entry is present. -/
def imgHas (b : List Byte) (i : Nat) : Bool := imgEntry b i != 0xFFFF
/-- The declared worst case of entry `i`. -/
def imgW (b : List Byte) (i : Nat) : Nat := leAt b (24 + 4 * i) 4
/-- LOOPLIM. -/
def imgLoopLim (b : List Byte) (i : Nat) : Nat := leAt b (40 + 4 * i) 4
/-- Code word `i`. -/
def imgCode (b : List Byte) (i : Nat) : Nat := leAt b (256 + 4 * i) 4
/-- The length the header gives. -/
def imgLen (b : List Byte) : Nat := 256 + 4 * imgCodeWords b + 64 * imgConstLines b
/-- Byte `i` of the constants. -/
def imgConst (b : List Byte) (i : Nat) : Byte := b.getD (256 + 4 * imgCodeWords b + i) 0

end Sys2Proof.Machine
end

