-- ==== Sys2Proof/Machine/Seal.lean ====
section
/-!
DEFINITION. The shape of a stream's epochs (06_collectives.md R154, R157, R180) and result seals
(07_determinism_audit.md R208 to R212): the records asked for, the ring of region 0, and the signatures.
-/

namespace Sys2Proof.Machine

/-- The mode of a stream: 0 exact, 1 tree, 2 streaming kernel (R161, R179, R220). -/
def Box.strmMode (s : Box) (st : Nat) : Nat :=
  let g := s.strmGrp st
  if treeOp g.op g.fmt then 1
  else if g.op = 10 then (if imgKind (s.sx st).image = 1 then 1 else 2)
  else 0

/-- Bytes of an element of a result. -/
def resultBytes (g : Grp) : Nat := if g.op = 3 ∨ g.op = 4 then 8 else elemBytes g.rfmt g.hdim

/-- G of R180: the groups a chunk of `n` elements is sent in. -/
def resultGroups (g : Grp) (n : Nat) : Nat := max 1 (ceilDiv n (4096 / resultBytes g))

/-- The tents that hold slivers of a stream (R151). -/
def Strm.tents (e : Strm) : List Nat :=
  (List.range 8).filter fun t => (List.range (min 8 e.nsliv)).any fun i => (e.base + i) % 8 == t

/-! ### Chunks and parts (R154) -/

/-- Chunks of an epoch. -/
def Strm.chunks (e : Strm) : Nat := ceilDiv e.elems e.chunk

/-- Elements of a part but for the last of an epoch. -/
def Strm.partElems (e : Strm) : Nat := e.chunk / e.part

/-- Elements of chunk `c`. -/
def Strm.chunkElems (e : Strm) (c : Nat) : Nat := min e.chunk (e.elems - c * e.chunk)

/-- Parts of chunk `c` that exist. -/
def Strm.chunkParts (e : Strm) (c : Nat) : Nat := ceilDiv (e.chunkElems c) e.partElems

/-- Elements of part `k` of chunk `c`. -/
def Strm.partLen (e : Strm) (c k : Nat) : Nat := min e.partElems (e.chunkElems c - k * e.partElems)

/-- The sliver of chunk `c`. -/
def Strm.owner (e : Strm) (c : Nat) : Nat := e.base + c % e.nsliv

/-- The tent of chunk `c`. -/
def Strm.tentOf (e : Strm) (c : Nat) : Nat := e.owner c % 8

/-- Where part or group `i` of chunk `c`'s result lies: ELEMOFF and NELEM (R180). -/
def resultSpan (g : Grp) (e : Strm) (c i : Nat) : Nat × Nat :=
  let n := e.chunkElems c
  if g.rwide then (c * e.chunk + i * e.partElems, e.partLen c i)
  else if g.op = 10 then (c * e.chunk, n)
  else
    let m := ceilDiv n (resultGroups g n)
    (c * e.chunk + i * m, min m (n - i * m))

/-! ### Epochs (R157, R210) -/

/-- CUR takes a value; EPOCH_HI counts a fall (R210). -/
def Box.setCur (s : Box) (st e : Nat) : Box :=
  let x := s.sx st
  (s.setStrm st 4 16 16 e).setSx st
    { x with cur := e, epochHi := if e < x.cur then (x.epochHi + 1) % 2 ^ 32 else x.epochHi }

/-- CUROPEN and NEXTOPEN of a stream. -/
def Box.curOpen (s : Box) (st : Nat) : Bool := wordBit (s.tab (carEntryAt 1 st + 16)) 0
/-- NEXTOPEN. -/
def Box.nextOpen (s : Box) (st : Nat) : Bool := wordBit (s.tab (carEntryAt 1 st + 16)) 1

/-- Sets CUROPEN and NEXTOPEN. -/
def Box.setOpen (s : Box) (st : Nat) (c n : Bool) : Box := s.setStrm st 4 0 2 (b2n c + 2 * b2n n)

/-- The record of epoch `e` of a stream. -/
def StreamX.epochRec (x : StreamX) (e : Nat) : Option EpochRec := x.epochs.find? fun r => r.epoch == e

/-- Changes the record of epoch `e` of a stream. -/
def Box.onRec (s : Box) (st e : Nat) (f : EpochRec → EpochRec) : Box :=
  let x := s.sx st
  s.setSx st { x with epochs := x.epochs.map fun r => if r.epoch = e then f r else r }

/-- The epochs of a stream that are open and not complete. -/
def Box.liveEpochs (s : Box) (st : Nat) : List Nat :=
  let cur := (s.strm st).cur
  let open_ := (if s.curOpen st then [cur] else []) ++ (if s.nextOpen st then [(cur + 1) % 65536] else [])
  open_.filter fun e => !((s.sx st).epochs.any fun r => r.epoch == e && r.done)

/-- Binding B becomes binding A once an epoch bound to B has opened and no open epoch of the group's streams is bound
to A (R149); drain sets follow the bindings (12_faults.md R375).
DEDUCED, log entry 89. -/
def Box.promote (s : Box) (gi : Nat) : Box :=
  let g := s.grp gi
  let mine := s.busyStreams.filter fun st => (s.strm st).group == gi
  if g.bvalid = true ∧ gi ∈ s.bOpened ∧ (mine.all fun st => (s.liveEpochs st).all g.boundB) = true then
    let w5 := s.tab (carEntryAt 0 gi + 20)
    let s1 := (s.setTab (carEntryAt 0 gi + 16) (w5 &&& 0xFFFF0FFF)).setTab (carEntryAt 0 gi + 20) (wordWith w5 15 1 0)
    Box.drainGroup { s1 with bOpened := s1.bOpened.filter (· ≠ gi) } gi
  else s

/-! ### Seal records (R208, R209) -/

/-- Elements of an epoch that set GUARD (R169). -/
def EpochRec.guards (r : EpochRec) : Nat := (r.flags.map fun x => x.2.1).sum
/-- Elements of an epoch that set RANGE. -/
def EpochRec.ranges (r : EpochRec) : Nat := (r.flags.map fun x => x.2.2).sum

/-- The fingerprints of an input chunk in canonical order, then of its results (R208). -/
def chunkInput (r : EpochRec) (c : Nat) : List Byte :=
  let le (a b : Nat × Nat × Nat × BitVec 64) : Bool :=
    decide (a.2.1 < b.2.1) || (a.2.1 == b.2.1 && decide (a.2.2.1 ≤ b.2.2.1))
  let ins := sortBy le (r.fps.filter fun x => x.1 == c)
  let outs := sortBy (fun a b => decide (a.2.1 ≤ b.2.1)) (r.rfps.filter fun x => x.1 == c)
  bytesBE 4 c ++ ins.flatMap (fun x => bytesBE 8 x.2.2.2.toNat) ++ outs.flatMap fun x => bytesBE 8 x.2.2.toNat

/-- Next SEQ.
DESIGN CHOICE, log entry 83. -/
def Box.sealSeqNow (s : Box) : Nat := s.rd SEC_SEAL_SEQ_HI_SEQ * 2 ^ 32 + s.rd SEC_SEAL_SEQ_LO_SEQ

/-- The SEQ that the next record asked for will carry: records take theirs in the order in which they are asked for,
a chain start before the first (R209). -/
def Box.sealNext (s : Box) : Nat :=
  s.sealSeqNow + s.sealJobs.length + (if s.sealLast = none then 1 else 0)

/-- The device serial as eight bytes of device memory (R57, R209). -/
def Box.serialLE (s : Box) : List Byte := bytesLE 8 (s.rd SEC_SERIAL_HI_SERIAL * 2 ^ 32 + s.rd SEC_SERIAL_LO_SERIAL)

/-- A record of TYPE 1, or an amendment of TYPE 2, for an epoch is asked for (R208, R209): FLAGS but SIGNED, bytes 12
to 55, and the parts of the digest. An amendment repeats the fields of the epoch's record, with the corrected GUARD and RANGE and
its own TDONE. -/
def Box.sealPush (s : Box) (st : Nat) (r : EpochRec) (type amends : Nat) (unrecov : Bool) : Box :=
  let e := s.strm st
  let g := s.strmGrp st
  let x := s.sx st
  let mode := s.strmMode st
  let guard := decide (0 < r.guards)
  let range := decide (0 < r.ranges)
  let own := b2n r.incomplete * 2 ^ 12 + b2n (r.short != []) * 2 ^ 11 + b2n g.barrier * 2 ^ 9
  let flags := b2n guard * 2 ^ 14 + b2n range * 2 ^ 13 + b2n unrecov * 2 ^ 10 + (if type = 1 then own else r.sealFlags)
  let full := s.serialLE ++ bytesLE 2 e.group ++ bytesLE 2 st ++ bytesLE 2 r.epoch ++ bytesLE 2 r.mepoch
    ++ bytesLE 1 g.op ++ bytesLE 1 g.fmt ++ bytesLE 1 g.rfmt ++ bytesLE 1 mode ++ bytesLE 4 e.chunks
    ++ bytesLE 4 x.epochHi ++ bytesLE 8 r.tdone ++ bytesLE 8 (if r.incomplete then 0 else r.fps.length)
  let head := if type = 1 then full else listPut r.sealHead 28 (bytesLE 8 s.nowTick)
  let ctx := bytesBE 2 e.group ++ bytesBE 2 st ++ bytesBE 2 r.epoch ++ bytesBE 2 r.mepoch ++ bytesBE 1 g.op
    ++ bytesBE 1 g.fmt ++ bytesBE 1 g.rfmt ++ bytesBE 1 mode ++ bytesBE 4 e.elems ++ bytesBE 2 e.chunk
    ++ bytesBE 1 e.part ++ bytesBE 1 (b2n g.rwide) ++ bytesBE 4 g.lbase ++ bytesBE 4 g.lcount ++ bytesBE 2 r.nc
    ++ bytesBE 2 g.hdim ++ bytesBE 2 (b2n guard * 2 ^ 15 + b2n range * 2 ^ 14) ++ List.replicate 14 0
  let job : SealJob :=
    { stream := st, epoch := r.epoch, type := type, flags := flags, head := head, ctx := ctx,
      kd := if g.op = 10 then sha384 x.image else List.replicate 48 0,
      chunks := (List.range e.chunks).map (chunkInput r), blank := r.incomplete || unrecov, amends := amends }
  let s1 : Box := { s with sealJobs := s.sealJobs ++ [job] }
  if type = 1 then s1.onRec st r.epoch fun z => { z with sealHead := full, sealFlags := own } else s1

/-- A complete epoch's record is asked for, once, and the amendments it owes after it (R203, R208). -/
def Box.sealAsk (s : Box) (st : Nat) (r : EpochRec) : Box :=
  let amend (b : Box) : Box :=
    match (b.sx st).epochRec r.epoch with
    | some z => b.sealPush st z 2 s.sealNext (z.unrecov != [])
    | none => b
  let s1 := if (s.strmGrp st).seals = true ∧ r.passed = false then
      (List.range r.owed).foldl (fun b _ => amend b) (s.sealPush st r 1 0 false)
    else s
  s1.onRec st r.epoch fun q => { q with passed := true }

/-- The stream's complete epochs whose record has not been asked for are asked for (R208). -/
def Box.sealOwed (s : Box) (st : Nat) : Box :=
  ((s.sx st).epochs.filter fun r => r.done && !r.passed).foldl (fun b r => b.sealAsk st r) s

/-- The digest of a job (R208); zeros where it is blank. -/
def SealJob.digest (j : SealJob) : List Byte :=
  if j.blank then List.replicate 48 0 else sha384 (j.ctx ++ j.kd ++ j.chunks.flatMap sha384)

/-- Bytes 0 to 159 of a record, signed or not. -/
def sealBody (type flags seq : Nat) (head : List Byte) (amends : Nat) (prevh digest : List Byte) (signed : Bool) :
    List Byte :=
  bytesLE 1 1 ++ bytesLE 1 type ++ bytesLE 2 (flags + b2n signed * 2 ^ 15) ++ bytesLE 8 seq ++ padTo 44 0 head
    ++ bytesLE 8 amends ++ padTo 48 0 prevh ++ padTo 48 0 digest

/-- A record of 256 bytes from its first 160: signed with the alias key, or with zeros (R209, R211). -/
def Box.sealBytes (s : Box) (body : List Byte) (signed : Bool) : List Byte :=
  body ++ (if signed then ecdsaSign s.aliasKey (sha384 body) else List.replicate 96 0)

/-- Records that the ring of region 0 holds. -/
def Box.sealCap (s : Box) : Nat := s.regionBytes 0 0 / 256

/-- Records not yet copied out. -/
def Box.sealHeld (s : Box) : Nat := (s.rd SEC_SEAL_HEAD_HEAD + 2 ^ 32 - s.rd SEC_SEAL_TAIL_TAIL) % 2 ^ 32

/-- The ring has room for a record (R212, R215). -/
def Box.sealRoom (s : Box) : Bool := decide (s.sealHeld < s.sealCap)

/-- A record is written at HEAD.
DEDUCED, log entry 84. -/
def Box.sealRing (s : Box) (b : List Byte) : Box :=
  let h := s.rd SEC_SEAL_HEAD_HEAD
  ((s.memWrite 0 0 (256 * (h % max 1 s.sealCap)) b).wr SEC_SEAL_HEAD_HEAD (h + 1))

/-- Up to `fuel` records that wait in the queue of Big Top go to the ring while it has room (R212). -/
def Box.sealDrain : Nat → Box → Box
  | 0, s => s
  | fuel + 1, s =>
    match s.sealQ with
    | [] => s
    | b :: bs =>
      if s.sealRoom then
        let h := s.rd SEC_SEAL_HEAD_HEAD
        let s1 : Box := { s.sealRing b with sealQ := bs }
        Box.sealDrain fuel (if bs = [] then { s1 with sealLast := s1.sealLast.map fun l => { l with index := some h } } else s1)
      else s

/-- A record takes the next SEQ and goes to the ring, to the queue, or is dropped: SEC_SEAL_DROP, DROP, SEC cause 1
(R212). A dropped record is not the last one written.
DESIGN CHOICE, log entry 82. -/
def Box.sealPlace (s : Box) (b : List Byte) : Box :=
  let n := s.sealSeqNow + 1
  let s1 := (s.wr SEC_SEAL_SEQ_LO_SEQ (n % 2 ^ 32)).wr SEC_SEAL_SEQ_HI_SEQ (n / 2 ^ 32)
  let h := s.rd SEC_SEAL_HEAD_HEAD
  if s.sealQ = [] ∧ s.sealRoom = true then { s1.sealRing b with sealLast := some ⟨b, some h⟩ }
  else if s.sealQ.length < 64 then { s1 with sealQ := s1.sealQ ++ [b], sealLast := some ⟨b, none⟩ }
  else
    let s2 := (s1.count secPage 0).put SEC_SEAL_STATUS_DROP true
    if s.is SEC_SEAL_STATUS_DROP then s2 else s2.raiseInt secPage 1

/-- The seal engine may sign (R211). -/
def Box.maySign (s : Box) : Bool := s.is SEC_SEAL_CTRL_EN && s.is SEC_SEAL_STATUS_KEY_READY

/-- Writes one record of a type: chain starts and amendments are signed at once (R211). -/
def Box.sealWrite (s : Box) (type flags : Nat) (head : List Byte) (amends : Nat) (digest : List Byte) : Box :=
  let prevh := match s.sealLast with
    | some l => if type = 3 then List.replicate 48 0 else sha384 l.bytes
    | none => List.replicate 48 0
  let signed := s.maySign && type != 1
  let s1 := s.sealPlace (s.sealBytes (sealBody type flags s.sealSeqNow head amends prevh digest signed) signed)
  if signed then { s1 with sealSigned := s.raw } else s1

/-- The chain-start record, the first after each reset (R209). -/
def Box.sealStart (s : Box) : Box :=
  if s.sealLast.isSome then s
  else
    let head := s.serialLE ++ List.replicate 20 0 ++ bytesLE 8 s.nowTick ++ List.replicate 8 0
    s.sealWrite 3 0 head 0 (sha384 s.aliasCert)

/-- The oldest record asked for is written, if it is the stream's (R208, R209, R212). -/
def Box.sealRecord (s : Box) (st : Nat) : Box :=
  match s.sealJobs with
  | [] => s
  | j :: js =>
    if j.stream ≠ st then s
    else
      let s1 := Box.sealStart { s with sealJobs := js }
      let seq := s1.sealSeqNow
      let s2 := s1.sealWrite j.type j.flags j.head j.amends j.digest
      if j.type = 1 then s2.onRec st j.epoch fun r => if r.passed then { r with sealSeq := some seq } else r else s2

/-- SEAL_RECORD_WRITE (R209). -/
def execSealRecordWrite (st : StreamIx) (s : State) : Result := s.actRun fun b => b.sealRecord st.toNat

/-- SIGN_TK ticks have passed since the last signature: the newest record is signed, in the ring or in the queue
(R211). -/
def Box.sealSign (s : Box) : Box :=
  match s.sealLast with
  | none => s
  | some l =>
    if s.maySign = true ∧ s.sealSigned + s.rd SEC_SEAL_CTRL_SIGN_TK ≤ s.raw ∧ leAt l.bytes 2 2 < 2 ^ 15 then
      let body := bytesAt l.bytes 0 2 ++ bytesLE 2 (leAt l.bytes 2 2 + 2 ^ 15) ++ bytesAt l.bytes 4 156
      let b := s.sealBytes body true
      let s1 : Box := { s with sealLast := some { l with bytes := b }, sealSigned := s.raw }
      match l.index with
      | some h => s1.memWrite 0 0 (256 * (h % max 1 s.sealCap)) b
      | none => { s1 with sealQ := s1.sealQ.dropLast ++ [b] }
    else s

/-- SEAL_SIGN_TIMER (R211). -/
def execSealSignTimer (s : State) : Result := s.actRun Box.sealSign

end Sys2Proof.Machine
end

