-- ==== Sys2Proof/Machine/Carousel.lean ====
section
/-!
DEFINITION. Carousel's tables and stream commands (06_collectives.md R143 to R155, R157, R185; 08_tumblers.md R220,
R225; 12_faults.md R374 to R376), and substitution of tumblers (08_tumblers.md R254).
-/

namespace Sys2Proof.Machine

/-! ### Tables (R146, R148, R149) -/

/-- The defined bits of word `i` of an entry. -/
def carWordMask (table i : Nat) : Nat :=
  match table with
  | 0 => match i with
    | 0 => 0xFFFF8000
    | 1 => 0xFFFFF000
    | 2 => 0xFFFFC000
    | 3 => 0xFFFFFFFF
    | 4 => 0xFFFF0FFF
    | 5 => 0xFFFF8FFF
    | 6 => 0xFFFF0000
    | 7 => 0x00FFFFFF
    | 8 => 0xFF800000
    | 9 => 0x0000FFFF
    | _ => 0
  | 1 => match i with
    | 0 => 0xFFFF0000
    | 1 => 0xFFFFFFFF
    | 2 => 0xFFFFFFFF
    | 3 => 0xFFFFFF80
    | 4 => 0xFFFF000F
    | 5 => 0x0000FFFF
    | _ => 0x000FFFFF
  | 2 => if i = 0 then 0xFFFF1FFF else if i < 4 then 0 else 0xFFFFFFFF
  | _ => if i = 0 then 0xFFFFF7FF else 0xFFFFC000

/-- The read-only bits of word `i` of a stream entry (R145). -/
def strmRoMask (i : Nat) : Nat :=
  match i with
  | 0 => 0xC0000000
  | 2 => 0x000000FF
  | 4 => 0xFFFF000F
  | _ => 0

/-- Levels of the tree of a group: K (R172). -/
def treeK (n : Nat) : Nat := if n ≤ 1 then 0 else Nat.log2 (n - 1) + 1

/-- The level at which a range of relative leaves is a node, the lowest (R172). -/
def nodeLevel (n a span : Nat) : Option Nat :=
  (List.range (treeK n + 1)).find? fun k => a % 2 ^ k == 0 && a + span == min (a + 2 ^ k) n

/-- The group's streams run in tree mode: by its operator, or by the kind of the kernel in its slot (R172, R220). -/
def Box.treeGroup (s : Box) (g : Grp) : Bool :=
  treeOp g.op g.fmt || (g.op == 10 && imgKind (mapGet (fun _ => []) s.kernels g.kslot) == 1)

/-- A membership set suits a group: every range inside its leaves and, in tree mode, a node of the tree
(R152 REASON 4). -/
def Box.setFits (s : Box) (g : Grp) (m : Nat) : Bool :=
  (s.contribs m).all fun c =>
    decide (g.lbase ≤ c.leaf) && decide (c.leaf + c.lspan ≤ g.lbase + g.lcount)
      && (!s.treeGroup g || (nodeLevel g.lcount (c.leaf - g.lbase) c.lspan).isSome)

/-- Contributor ranges rise strictly and do not overlap. -/
def risingContribs : List Contrib → Bool
  | a :: b :: l => decide (a.leaf < b.leaf) && decide (a.leaf + a.lspan ≤ b.leaf) && risingContribs (b :: l)
  | _ => true

/-- A set descriptor passes R148. -/
def Box.setOk (s : Box) (ws : List Word) : Bool :=
  let cbase := wordField (ws.getD 0 0) 16 16
  let nc := wordField (ws.getD 0 0) 0 13
  let cs := (List.range nc).map fun j => s.contribEntry (cbase + j)
  decide (1 ≤ nc) && decide (nc ≤ 4096) && decide (cbase + nc ≤ 65536) && risingContribs cs
    && cs.all (fun c => s.isPort c.port)
    && (List.range 2048).all fun p => !wordBit (ws.getD (4 + p / 32) 0) (p % 32) || s.isPort p

/-- The sets named by a binding of a group with a stream that is not free. -/
def Box.busySets (s : Box) : List Nat := s.busyStreams.flatMap fun st => (s.strmGrp st).sets

/-- The checks of R146, R148 and R149 on the new words of an entry: true where the write may be stored. -/
def Box.carWriteOk (s : Box) (table i : Nat) (ws old : List Word) : Bool :=
  let same := ws == old
  match table with
  | 0 =>
    let g := grpOf fun k => ws.getD k 0
    let o := grpOf fun k => old.getD k 0
    let busy := s.busyStreams.any fun st => (s.strm st).group == i
    let bWords := ws.getD 5 0 != old.getD 5 0 || ws.getD 6 0 != old.getD 6 0
    let others := (List.range 16).any fun k => k != 5 && k != 6 && ws.getD k 0 != old.getD k 0
    same || (!comboBad g.op g.fmt g.rfmt g.rwide g.barrier
      && !(busy && (others || (bWords && o.bvalid && decide (i ∈ s.bOpened))))
      && !(bWords && g.bvalid && !s.setFits g g.msetB))
  | 1 => same || !s.strmBusy i
  | 2 => s.setOk ws && (same || decide (i ∉ s.busySets))
  | _ => same || !(s.busySets.any fun m => decide ((s.setRange m).1 ≤ i) && decide (i < (s.setRange m).1 + (s.setRange m).2))

/-- A table entry is written: reserved bits are stored as 0 with the reserved-write indication, read-only bits keep
their value, and a rejected write keeps the old entry, sets REJECTED, the access-error indication and CAR cause 2
(R146).
DEDUCED, log entry 67. -/
def Box.carEntryWrite (s : Box) (src : Requester) (table i : Nat) (raw : List Word) : Box :=
  let at_ := carEntryAt table i
  let old := s.tabEntry at_ (carEntryWords table)
  let rsv := (List.range raw.length).any fun k => maskWord (raw.getD k 0) (carWordMask table k) != raw.getD k 0
  let s1 := if rsv then s.rsvWriteAt CAR_TBL_CMD_at src else s
  let clean := raw.mapIdx fun k w => maskWord w (carWordMask table k)
  let ws := if table = 1 then
      clean.mapIdx fun k w => maskWord w (0xFFFFFFFF - strmRoMask k) ||| maskWord (old.getD k 0) (strmRoMask k)
    else clean
  if s.carWriteOk table i ws old = false then
    ((s1.put CAR_TBL_STATUS_REJECTED true).accErrAt CAR_TBL_CMD_at src).raiseInt carPage 2
  else
    let s2 := if table = 0 ∧ (ws.getD 5 0 ≠ old.getD 5 0 ∨ ws.getD 6 0 ≠ old.getD 6 0) then
        { s1 with bOpened := s1.bOpened.filter (· ≠ i) } else s1
    let s3 := s2.setTabEntry at_ ws
    if table = 0 then s3.drainGroup i else s3

/-- A CAR_TBL_CMD write: the window is copied into the entry, or the entry into the window; BUSY stays to the next raw tick,
and a command given till then is ignored with the access-error indication (R185).
DESIGN CHOICE, log entry 62. -/
def Box.carTblCmd (s0 : Box) (src : Requester) (table i : Nat) (read : Bool) : Box :=
  if s0.is CAR_TBL_STATUS_BUSY = true ∨ carTableLen table ≤ i then s0.accErrAt CAR_TBL_CMD_at src
  else
    let s := s0.put CAR_TBL_STATUS_BUSY true
    if read then s.setWords (CAR_WIN_at 0) (s.tabEntry (carEntryAt table i) (carEntryWords table))
    else s.carEntryWrite src table i ((List.range (carEntryWords table)).map fun k => s.word (CAR_WIN_at k))

/-- CAR_TBL_WRITE (R146). -/
def execCarTblWrite (src : Requester) (table : BitVec 2) (index : BitVec 16) (s : State) : Result :=
  s.actReg CAR_TBL_CMD_at src fun b => b.carTblCmd src table.toNat index.toNat false

/-- CAR_TBL_READ (R185). -/
def execCarTblRead (src : Requester) (table : BitVec 2) (index : BitVec 16) (s : State) : Result :=
  s.actReg CAR_TBL_CMD_at src fun b => b.carTblCmd src table.toNat index.toNat true

/-! ### Substitution of tumblers (08_tumblers.md R254, R256) -/

/-- The stream a sliver belongs to. -/
def Box.sliverOwner (s : Box) (sl : Nat) : Option Nat :=
  (s.streams.map (·.1)).find? fun st => (s.sx st).held && decide ((s.strm st).base ≤ sl)
    && decide (sl < (s.strm st).base + (s.strm st).nsliv)

/-- A sliver moves to its array's spare: the map shows it, its quarantine ends, PENDING clears where nothing else
waits in the tent.
DEDUCED, log entry 70. -/
def Box.substTake (s : Box) (sl : Nat) : Box :=
  let t := sl % 8
  let l := sl / 8
  let s1 : Box := { s with substs := s.substs.filter (· ≠ sl) }
  let s2 := ((s1.put (TMB_SLIVER_MAP_SUBST t l) true).wr (TMB_SLIVER_MAP_POS t l) 16).put (TMB_SLIVER_MAP_QUAR t l) false
  let s3 := (s2.put (TMB_SUBST_STATUS_PENDING t) (s2.substs.any fun x => x % 8 == t)).count (tmbTentPage t) 2
  s3.raiseInt (tmbTentPage t) 1

/-- The slivers of a stream whose substitution waits are substituted. -/
def Box.substStream (s : Box) (st : Nat) : Box :=
  (s.substs.filter fun sl => s.sliverOwner sl = some st).foldl (fun b sl => b.substTake sl) s

/-- The array of a local sliver. -/
def arrayOf (l : Nat) : Nat := l / 16

/-- The spare of an array is in use, or is quarantined (R254; 12_faults.md R360). -/
def Box.spareUsed (s : Box) (t arr : Nat) : Bool :=
  s.spareQuar.contains (t, arr) || (List.range 16).any fun i => s.is (TMB_SLIVER_MAP_SUBST t (16 * arr + i))

/-- TMB_SUBST_CMD: the substitution is made at once, deferred, or refused (R254). SPARES_FREE counts a spare as
used from the acceptance. -/
def Box.tmbSubst (s : Box) (t l : Nat) : Box :=
  let sl := 8 * l + t
  let reason :=
    if s.is (TMB_SLIVER_MAP_SUBST t l) then 2
    else if s.substs.any fun x => x % 8 == t && arrayOf (x / 8) == arrayOf l then 3
    else if s.spareUsed t (arrayOf l) then 1
    else 0
  if reason ≠ 0 then
    ((s.wr (TMB_SUBST_STATUS_REASON t) reason).put (TMB_SUBST_STATUS_REFUSED t) true).raiseInt (tmbTentPage t) 1
  else
    let s1 := s.wr (TMB_SUBST_STATUS_SPARES_FREE t) (s.rd (TMB_SUBST_STATUS_SPARES_FREE t) - 1)
    match s.sliverOwner sl with
    | some st =>
      if 2 ≤ (s.strm st).state then
        { (s1.put (TMB_SUBST_STATUS_PENDING t) true) with substs := s1.substs ++ [sl] }
      else s1.substTake sl
    | none => s1.substTake sl

/-- TMB_SUBST (R254). -/
def execTmbSubst (src : Requester) (t : TentIx) (l : BitVec 9) (s : State) : Result :=
  s.actReg (TMB_SUBST_CMD_at t.toNat) src fun b => b.tmbSubst t.toNat l.toNat

/-- SUBST_TAKE (R254): a pending substitution whose stream is reserved or free, or is being aborted. -/
def execSubstTake (sl : SliverIx) (s : State) : Result :=
  s.actRun fun b =>
    if sl.toNat ∉ b.substs then b
    else match b.sliverOwner sl.toNat with
      | some st => if (b.strm st).state ≤ 1 ∨ b.carOp = some (4, st) then b.substTake sl.toNat else b
      | none => b.substTake sl.toNat

/-! ### What a stream needs (R152, R155, R180, R343) -/

/-- Entries a chunk needs: E (R155). -/
def chunkEntries (g : Grp) (chunk : Nat) : Nat :=
  if treeOp g.op g.fmt = true ∨ g.op = 10 then 0 else ceilDiv chunk (packOf g.op g.fmt)

/-- SLOTS (R155), or 0 where ELEMS, CHUNK or PART is invalid (R152 REASON 6, R163). -/
def slotsOf (g : Grp) (e : Strm) : Nat :=
  let n := e.chunk / e.part
  let en := chunkEntries g e.chunk
  if e.elems = 0 ∨ e.chunk = 0 ∨ e.part ∉ [1, 2, 4, 8, 16] ∨ e.chunk % e.part ≠ 0 ∨ 1024 < en
    ∨ ((g.fmt = 5 ∨ g.fmt = 6) ∧ n % 32 ≠ 0) ∨ 4096 < plainBytes g.op g.fmt g.hdim n then 0
  else min (min (if en = 0 then 32 else 2048 / en) (32 / e.part)) 32

/-- The payload of the largest result frame of a chunk of `n` elements (R180). -/
def chunkResult (g : Grp) (e : Strm) (n : Nat) : Nat :=
  if g.rwide then min 4096 ((8 + 8 * classLimbs g.fmt) * min n (e.chunk / e.part))
  else resultBytes g * ceilDiv n (resultGroups g n)

/-- The payload of the largest result frame that a stream can produce (R152 REASON 7, R180): an epoch's chunks are whole ones, where
ELEMS reaches CHUNK, and what is left over. -/
def largestResult (g : Grp) (e : Strm) : Nat :=
  if g.barrier then 64
  else if g.op = 10 then 4096
  else max (if e.chunk ≤ e.elems then chunkResult g e e.chunk else 0)
    (if e.elems % e.chunk = 0 then 0 else chunkResult g e (e.elems % e.chunk))

/-- MiB of a pool committed in a tent: SNRET of region 5 or TSTAGE of region 6 (R343). -/
def Box.committed (s : Box) (t r : Nat) : Nat :=
  ((s.streams.map (·.1)).map fun st =>
    let e := s.strm st
    if (s.sx st).held ∧ t ∈ e.tents then (if r = 5 then e.snret else e.tstage) else 0).sum

/-- The uncommitted MiB of a pool: none while the tent rebuilds (R343, R346). -/
def Box.poolFree (s : Box) (t r : Nat) : Nat :=
  if s.rebuilding t then 0 else s.regionMib t r - s.committed t r

/-- A device of the tent holds the library slot in a copy that reads correctly (11_memory.md R331, R336). -/
def Box.kernelCopy (s : Box) (t slot : Nat) : Bool :=
  (List.range 2).any fun c => s.rd (MEM_DEV_STATUS_STATE t c) == 2 && !s.kernBad.contains (2 * t + c, slot)

/-- The kernel slot may serve a reservation (R220, R336). -/
def Box.kernelOk (s : Box) (g : Grp) (e : Strm) : Bool :=
  let b := mapGet (fun _ => []) s.kernels g.kslot
  decide (g.kslot < 256) && b != [] && s.kop != some (.verify g.kslot) && imgFmt b == g.fmt
    && e.tents.all fun t => s.kernelCopy t g.kslot

/-- The reason to refuse a reservation, 0 where there is none; where several of R152's cases hold, the lowest.
DESIGN CHOICE, log entry 182. -/
def Box.reserveReason (s : Box) (st : Nat) : Nat :=
  let e := s.strm st
  let g := s.grp e.group
  if s.strmBusy st then 1
  else if g.valid = false then 2
  else if 131072 < g.lbase + g.lcount ∨ g.lcount = 0 then 3
  else if g.sets.any fun m => !s.setFits g m then 4
  else if 4096 < e.base + e.nsliv ∨ e.nsliv = 0
    ∨ (List.range e.nsliv).any (fun i => (s.sliverOwner (e.base + i)).isSome
        || s.is (TMB_SLIVER_MAP_QUAR ((e.base + i) % 8) ((e.base + i) / 8))) then 5
  else if slotsOf g e < 2 then 6
  else if e.rquota < 2 * cellsOf (frameLen (ceilDiv (largestResult g e) 64))
    ∨ e.tents.any (fun t => decide (s.collFree t < e.rquota)) then 7
  else if e.tents.any (fun t => decide (s.poolFree t 6 < e.tstage) || decide (s.poolFree t 5 < e.snret)
      || s.rebuilding t) then 8
  else if g.op = 10 ∧ s.kernelOk g e = false then 9
  else 0

/-! ### Stream commands (R153, R185, R491) -/

/-- A stream command is refused with a reason (R152, R153). -/
def Box.strmRefuse (s : Box) (reason : Nat) : Box :=
  ((s.wr CAR_STREAM_STATUS_REASON reason).put CAR_STREAM_STATUS_REFUSED true).raiseInt carPage 3

/-- The slivers of a stream. -/
def Strm.slivers (e : Strm) : List Nat := (List.range e.nsliv).map (e.base + ·)

/-- Every open slot and invocation of a stream is discarded. -/
def Box.clearSlots (s : Box) (st : Nat) : Box :=
  { s with slivers := (s.slivers.map fun x =>
      if x.1 ∈ (s.strm st).slivers then
        (x.1, { x.2 with slots := x.2.slots.filter fun c => c.stream ≠ st, inv := none })
      else x).filter fun x => x.2 ≠ {} }

/-- RESERVE: every resource at once, or a refusal (R152), with REASON 10 while a RELEASE is under way (R153). Registers that a
diagnostic image left in its slivers are gone.
DEDUCED, log entry 68. -/
def Box.strmReserve (s : Box) (st : Nat) : Box :=
  let r := if (s.sx st).releasing then 10 else s.reserveReason st
  if r ≠ 0 then s.strmRefuse r
  else
    let e := s.strm st
    let s1 := s.setSx st { ({} : StreamX) with held := true, gen := (s.sx st).gen, cur := e.cur }
    let s2 := e.tents.foldl (fun b t => b.setTent t { b.tent t with coll := (b.tent t).coll + e.rquota }) s1
    let idle := (s2.slivers.map fun x => if x.1 ∈ e.slivers then (x.1, { x.2 with diag := none }) else x).filter fun x => x.2 ≠ {}
    { (s2.put CAR_STREAM_STATUS_BUSY true) with carOp := some (1, st), slivers := idle }

/-- ACTIVATE (R153). -/
def Box.strmActivate (s : Box) (st e : Nat) : Box :=
  if (s.strm st).state ≠ 1 ∨ (s.sx st).releasing then s.strmRefuse 10
  else
    let s1 := (s.setCur st e).setOpen st false false
    (s1.setSx st { s1.sx st with gen := (s1.sx st).gen + 1 }).setStrmState st 2

/-- A draining stream is reserved again once every open epoch is complete; records still owed are asked for, and its
substitutions taken (R153, R208; 08_tumblers.md R254).
DEDUCED, log entry 69. -/
def Box.drainEnd (s : Box) (st : Nat) : Box :=
  if (s.strm st).state = 3 ∧ s.liveEpochs st = [] then ((s.sealOwed st).setStrmState st 1).substStream st else s

/-- DRAIN (R153, R375): the drain set clears; with no open epoch to complete the stream is reserved again at once. -/
def Box.strmDrain (s : Box) (st : Nat) : Box :=
  if (s.strm st).state ≠ 2 then s.strmRefuse 10
  else
    let s1 := (s.setSx st { s.sx st with drainOn := true, drained := false, marked := [] }).drainEval st
    (s1.setStrmState st 3).drainEnd st

/-- ABORT (R153, R207): every open epoch is discarded with its slots, staged nodes, unreleased and retained state;
STATE follows when it completes.
DEDUCED, log entry 85. -/
def Box.strmAbort (s : Box) (st e : Nat) : Box :=
  let n := s.strm st
  let old := [n.cur, (n.cur + 1) % 65536]
  if (n.state ≠ 2 ∧ n.state ≠ 3) ∨ e ∈ old ∨ (e + 1) % 65536 ∈ old then s.strmRefuse 10
  else
    let s0 := s.sealOwed st
    let s1 := ((s0.clearSlots st).setCur st e).setOpen st false false
    let x := s1.sx st
    let live (i : Nat) (d : Bool) : Bool := d || decide (i ∉ old)
    let doneOf (i : Nat) : Bool := x.epochs.any fun r => r.epoch == i && r.done
    let runs := (x.retract.toList ++ x.retractQ).filter fun r => live r.epoch (doneOf r.epoch)
    let s2 := s1.setSx st { x with
      gen := x.gen + 1, aborted := old,
      epochs := x.epochs.filter fun r => live r.epoch r.done,
      retract := runs.head?,
      retractQ := runs.drop 1,
      twins := x.twins.filter fun w => live w.epoch (doneOf w.epoch) }
    { ((s2.promote n.group).put CAR_STREAM_STATUS_BUSY true) with carOp := some (4, st) }

/-- RELEASE (R153). -/
def Box.strmRelease (s : Box) (st : Nat) : Box :=
  if (s.strm st).state ≠ 1 ∨ (s.sx st).releasing then s.strmRefuse 10
  else s.setSx st { s.sx st with releasing := true }

/-- A write of CAR_STREAM_CMD (R185, R374). -/
def Box.strmCmd (s : Box) (src : Requester) (cmd st arg : Nat) : Box :=
  if s.is CAR_STREAM_STATUS_BUSY then s.accErrAt CAR_STREAM_CMD_at src
  else match cmd with
    | 1 => s.strmReserve st
    | 2 => s.strmActivate st arg
    | 3 => s.strmDrain st
    | 4 => s.strmAbort st arg
    | 5 => s.strmRelease st
    | _ => s.rsvWriteAt CAR_STREAM_CMD_at src

/-- STREAM_RESERVE (R152). -/
def execStreamReserve (src : Requester) (st : StreamIx) (s : State) : Result :=
  s.actReg CAR_STREAM_CMD_at src fun b => b.strmCmd src 1 st.toNat 0

/-- STREAM_ACTIVATE (R153). -/
def execStreamActivate (src : Requester) (st : StreamIx) (e : BitVec 16) (s : State) : Result :=
  s.actReg CAR_STREAM_CMD_at src fun b => b.strmCmd src 2 st.toNat e.toNat

/-- STREAM_DRAIN (R153). -/
def execStreamDrain (src : Requester) (st : StreamIx) (s : State) : Result :=
  s.actReg CAR_STREAM_CMD_at src fun b => b.strmCmd src 3 st.toNat 0

/-- STREAM_ABORT (R153). -/
def execStreamAbort (src : Requester) (st : StreamIx) (e : BitVec 16) (s : State) : Result :=
  s.actReg CAR_STREAM_CMD_at src fun b => b.strmCmd src 4 st.toNat e.toNat

/-- STREAM_RELEASE (R153). -/
def execStreamRelease (src : Requester) (st : StreamIx) (s : State) : Result :=
  s.actReg CAR_STREAM_CMD_at src fun b => b.strmCmd src 5 st.toNat 0

/-- A reservation completes: SLOTS is set, the kernel is copied and STATE reads reserved (R152, R155, R225). -/
def Box.reserveDone (s : Box) (st : Nat) : Box :=
  if s.carOp ≠ some (1, st) then s
  else
    let e := s.strm st
    let g := s.grp e.group
    let s1 := (s.setStrm st 2 0 8 (slotsOf g e)).setStrmState st 1
    let s2 := if g.op = 10 then s1.setSx st { s1.sx st with image := mapGet (fun _ => []) s1.kernels g.kslot } else s1
    { (s2.put CAR_STREAM_STATUS_BUSY false) with carOp := none }

/-- STREAM_RESERVE_DONE (R152). -/
def execStreamReserveDone (st : StreamIx) (s : State) : Result := s.actRun fun b => b.reserveDone st.toNat

/-- An abort completes: pending substitutions are taken and STATE returns to active (R153, R254). -/
def Box.abortDone (s : Box) (st : Nat) : Box :=
  if s.carOp ≠ some (4, st) then s
  else
    let s1 := (s.substStream st).setStrmState st 2
    let s2 := s1.setSx st { s1.sx st with aborted := [] }
    { (s2.put CAR_STREAM_STATUS_BUSY false) with carOp := none }

/-- STREAM_ABORT_DONE (R153). -/
def execStreamAbortDone (st : StreamIx) (s : State) : Result := s.actRun fun b => b.abortDone st.toNat

/-- Result cells of the stream lie in a tent: its results in queues or crossing Midway. -/
def Box.strmResults (s : Box) (st : Nat) : Bool :=
  s.results.any fun r => r.stream == st && r.cells != []

/-- A released stream's resources return once its result cells have left and no retraction or replay of it runs
(R153, R207, R376). -/
def Box.strmFreed (s : Box) (st : Nat) : Box :=
  let x := s.sx st
  let busyReplay := match s.replay with
    | some r => r.stream == st
    | none => false
  if x.releasing = false ∨ s.strmResults st = true ∨ x.retract ≠ none ∨ x.retractQ ≠ [] ∨ busyReplay = true then s
  else
    let e := s.strm st
    let s1 := (s.clearSlots st).substStream st
    let s2 := e.tents.foldl (fun b t => b.setTent t { b.tent t with coll := (b.tent t).coll - e.rquota }) s1
    (s2.setSx st { ({} : StreamX) with gen := x.gen, cur := x.cur }).setStrmState st 0

/-- STREAM_FREED (R153). -/
def execStreamFreed (st : StreamIx) (s : State) : Result := s.actRun fun b => b.strmFreed st.toNat

end Sys2Proof.Machine
end

