-- ==== Sys2Proof/Machine/SafetyNet.lean ====
section
/-!
DEFINITION. Safety Net: what an epoch retains (07_determinism_audit.md R199 to R202), result frames in their queues
(06_collectives.md R180; 02_itzal_link.md R493), retractions (R203 to R207), and the spare positions that twins use
(12_faults.md R354 to R357).
-/

namespace Sys2Proof.Machine

/-! ### Retention (R199 to R201) -/

/-- SNT_POLICY of a stream. -/
def Box.policy (s : Box) (st : Nat) : Nat := s.rd (SNT_POLICY_POLICY st)

/-- Bytes a stream retains in a tent. -/
def Box.keptBytes (s : Box) (st t : Nat) : Nat :=
  let e := s.strm st
  ((s.sx st).epochs.map fun r =>
    ((r.kept.filter fun q => e.tentOf q.chunk == t).map fun q => q.bytes.length).sum
      + ((r.results.filter fun q => q.tent == t).map fun q => q.frame.length).sum).sum

/-- `n` more bytes fit into the stream's SNRET of a tent and, in an overcommitted region, into what is left of it; while
it rebuilds the region counts as full (R201; 11_memory.md R346, R347). -/
def Box.keepRoom (s : Box) (st t n : Nat) : Bool :=
  !s.rebuilding t && decide (s.keptBytes st t + n ≤ (s.strm st).snret * 2 ^ 20)
    && decide (((s.streams.map (·.1)).map fun x => s.keptBytes x t).sum + n ≤ s.regionBytes t 5)

/-- An epoch stops retaining in a tent (R201, R465). -/
def Box.keepShort (s : Box) (st e t : Nat) : Box :=
  ((s.onRec st e fun r => { r with short := t :: r.short }).count sntPage 0).raiseInt sntPage 3

/-- An accepted contribution part is retained under policy 2 (R199, R200).
DEDUCED, log entry 91. -/
def Box.keepPart (s : Box) (st e c j k t : Nat) (f : Frame) : Box :=
  match (s.sx st).epochRec e with
  | none => s
  | some r =>
    let b := f.take (64 + 64 * frPlen f)
    if s.policy st ≠ 2 ∨ t ∈ r.short then s
    else if s.keepRoom st t b.length then s.onRec st e fun q => { q with kept := q.kept ++ [⟨c, j, k, b⟩] }
    else s.keepShort st e t

/-- A released result frame is retained under policies 1 and 2 (R199). -/
def Box.keepResult (s : Box) (st e c part t : Nat) (f : Frame) : Box :=
  match (s.sx st).epochRec e with
  | none => s
  | some r =>
    let b := f.take (64 + 64 * frPlen f)
    if s.policy st = 0 ∨ t ∈ r.short then s
    else if s.keepRoom st t b.length then s.onRec st e fun q => { q with results := q.results ++ [⟨c, part, t, b⟩] }
    else s.keepShort st e t

/-- The parts of a chunk among retained copies, in acceptance order: a part that came again after its chunk was released took
no share in the result. -/
def partsOf (c : Nat) (l : List KeptPart) : List KeptPart :=
  (l.filter fun q => q.chunk == c).foldl (fun a q => if a.any fun x => x.j == q.j && x.k == q.k then a else a ++ [q]) []

/-- Every part of a chunk is retained (R200). -/
def Box.chunkKept (s : Box) (st : Nat) (r : EpochRec) (c : Nat) : Bool :=
  decide (r.nc * (s.strm st).chunkParts c ≤ (partsOf c r.kept).length)

/-- Frames of a chunk's result (R180). -/
def Box.chunkFrames (s : Box) (st c : Nat) : Nat :=
  let g := s.strmGrp st
  let e := s.strm st
  if g.barrier ∨ (g.op = 10 ∧ g.rwide = false) then 1
  else if g.rwide then e.chunkParts c
  else resultGroups g (e.chunkElems c)

/-- Every result frame of a chunk is retained. -/
def Box.resultsKept (s : Box) (st : Nat) (r : EpochRec) (c : Nat) : Bool :=
  decide (c ∈ r.released) && decide (s.chunkFrames st c ≤ (r.results.filter fun q => q.chunk == c).length)

/-- Input fingerprints staged in a tent, in bytes. -/
def Box.stagedFps (s : Box) (t : Nat) : Nat :=
  8 * ((s.streams.map (·.1)).map fun st =>
    let e := s.strm st
    ((s.sx st).epochs.map fun r => (r.fps.filter fun x => e.tentOf x.1 == t).length).sum).sum

/-- An input fingerprint goes to its canonical place in the tent's region 3; where it cannot be written the epoch is
INCOMPLETE (R208, R212, R346). -/
def Box.stageFp (s : Box) (st e c j k : Nat) (fp : BitVec 64) : Box :=
  let t := (s.strm st).tentOf c
  match (s.sx st).epochRec e with
  | none => s
  | some r =>
    if (s.strmGrp st).seals = false ∨ r.incomplete then s
    else if s.rebuilding t = true ∨ s.regionBytes t 3 < s.stagedFps t + 8 then
      s.onRec st e fun q => { q with incomplete := true }
    else
      let other (x : Nat × Nat × Nat × BitVec 64) : Bool := !(x.1 == c && x.2.1 == j && x.2.2.1 == k)
      (s.onRec st e fun q => { q with fps := q.fps.filter other ++ [(c, j, k, fp)] }).memWrite t 3
        (8 * (Config.fpPlace st e c j k % (s.regionBytes t 3 / 8))) (bytesBE 8 fp.toNat)

/-- A retraction of an epoch is running or waits. -/
def StreamX.retracting (x : StreamX) (e : Nat) : Bool :=
  (x.retract.any fun q => q.epoch == e) || x.retractQ.any fun q => q.epoch == e

/-- Epochs whose second successor has opened give up what they keep, once no retraction of theirs and no twin is left
(R200, R207; 12_faults.md R356). -/
def Box.dropOld (s : Box) (st : Nat) : Box :=
  let x := s.sx st
  let old (r : EpochRec) : Bool := (x.epochs.any fun q => q.epoch == (r.epoch + 2) % 65536) && !x.retracting r.epoch
    && !x.twins.any fun w => w.epoch == r.epoch
  s.setSx st { x with epochs := x.epochs.filter fun r => !old r }

/-! ### Results in their queues (R180, R66, R493) -/

/-- The frame of a result part (R180, R50, R54). -/
def Box.resultFrame (s : Box) (st : Nat) (r : EpochRec) (q : ResultPart) : Frame :=
  let g := s.strmGrp st
  let fp := crc64 q.payload
  mkFrame
    [frWord0 (if g.rwide then 2 else 1) (if g.dest then 3 else 2) 4 0 (q.payload.length / 64), g.dst,
     s.rd (FWD_SELF_ADDR_ADDR 0), 0, (s.strm st).group * 2 ^ 18 + st * 2 ^ 4, r.epoch * 2 ^ 16 + r.mepoch,
     g.rfmt * 2 ^ 8 + b2n g.rwide * 2 ^ 4, q.elemOff, g.lcount * 2 ^ 12, q.nelem * 2 ^ 16,
     fp.toNat / 2 ^ 32, fp.toNat % 2 ^ 32, 0, 0, 0, 0]
    q.payload (fp.toNat % 2 ^ 32)

/-- A port is recorded as having missed a retraction notice (R205). -/
def Box.missed (s : Box) (p : Nat) : Box := s.put { SNT_MISSED_MISSED (p / 32) with lo := p % 32, width := 1 } true

/-- A copy that is not sent: a result enters the flushed-result queue with reason 3, a notice's port is recorded
(R66, R180, R205, R493). -/
def Box.notSent (s : Box) (st e c part : Nat) (f : Frame) (port : Nat) : Box :=
  if frKind f = 6 then (if port < 2048 then s.missed port else s) else s.postFlushed st e c part port 3

/-- A port that is up and whose link carries the frame. -/
def Box.carries (s : Box) (f : Frame) (p : Nat) : Bool := s.up p && decide (frVmin f ≤ s.minor p)

/-- The loss of a copy at a port: counted in LNK_DISC_VERSION where the version is the reason (R493). -/
def Box.withheld (s : Box) (st e c part : Nat) (f : Frame) (p : Nat) : Box :=
  (if s.up p then s.lnkCount 4 p else s).notSent st e c part f p

/-- A frame that Carousel originates enters its stream's result queue in tent `t` (R180): to the ports of `ports`
where it is broadcast, else along its lookup. -/
def Box.queueResult (s : Box) (st e c part t : Nat) (f : Frame) (bcast : Bool) (ports cells : List Nat)
    (replay : Bool) : Box :=
  let add (b : Box) (due : List Nat) : Box :=
    let r : ResRec := { id := b.resId, stream := st, cepoch := e, chunk := c, part := part, tent := t, frame := f,
                        bcast := bcast, due := due, won := [], crossing := [], cells := cells, bank := b.liveBank t, replay := replay }
    { b with results := b.results ++ [r], resId := b.resId + 1 }
  if bcast then
    let s1 := (ports.filter fun p => !s.carries f p).foldl (fun b p => b.withheld st e c part f p) s
    match ports.filter (s.carries f) with
    | [] => s1.freeCells t cells
    | due => add s1 due
  else
    match s.lookup t 8 (s.liveBank t) f with
    | (.out q, s1) =>
      if (s1.up q = true ∨ frKind f = 6) ∧ s1.carries f q = false then (s.withheld st e c part f q).freeCells t cells else add s1 [q]
    | (_, _) => (s.notSent st e c part f 0xFFFF).freeCells t cells

/-! ### Retractions (R203 to R207) -/

/-- The fingerprints of a chunk's result frames, in order of part. -/
def chunkFps (r : EpochRec) (c : Nat) : List (Nat × BitVec 64) :=
  sortBy (fun a b => decide (a.1 ≤ b.1)) ((r.rfps.filter fun x => x.1 == c).map fun x => (x.2.1, x.2.2))

/-- A retraction notice for one frame (R204). -/
def Box.noticeFrame (s : Box) (st : Nat) (r : EpochRec) (c part : Nat) (fp : BitVec 64) (code reason rseq : Nat)
    (newfp : BitVec 64) (seq : Nat) : Frame :=
  let g := s.strmGrp st
  let sp := resultSpan g (s.strm st) c part
  let pay := bytesBE 1 code ++ bytesBE 1 reason ++ bytesBE 2 rseq ++ bytesBE 8 newfp.toNat ++ bytesBE 8 seq
  mkFrame
    [frWord0 2 6 4 0 1, g.dst, s.rd (FWD_SELF_ADDR_ADDR 0), 0, (s.strm st).group * 2 ^ 18 + st * 2 ^ 4,
     r.epoch * 2 ^ 16 + r.mepoch, g.rfmt * 2 ^ 8 + b2n g.rwide * 2 ^ 4, sp.1, g.lcount * 2 ^ 12, sp.2 * 2 ^ 16,
     fp.toNat / 2 ^ 32, fp.toNat % 2 ^ 32, 0, 0, 0, 0]
    (padTo 64 0 pay) 0

/-- A fault event against a sliver (12_faults.md R357, R359, R360): its watch bit is set, and a lasting sliver is
quarantined.
DESIGN CHOICE, log entry 90. -/
def Box.sliverFault (s : Box) (sl pattern : Nat) : Box :=
  let (i, s1) := s.takeFree
  let s2 := s1.postFault 7 ((Config.freeBits i).toNat % 256) (sl / 8) (sl % 8) pattern
  let s3 := s2.put { CAR_WATCH_WATCH (sl / 32) with lo := sl % 32, width := 1 } true
  if s3.lasting 7 (sl / 8) (sl % 8) then s3.put (TMB_SLIVER_MAP_QUAR (sl % 8) (sl / 8)) true else s3

/-- A fault event against a spare position of a tent, which is not stated; array `a`'s is unit 512 + a, and a lasting one is
quarantined (12_faults.md R359, R360).
DEDUCED, log entry 70. -/
def Box.spareFault (s : Box) (t pattern : Nat) : Box :=
  let (i, s1) := s.takeFree
  let v := (Config.freeBits i).toNat
  let a := v / 256 % 32
  let s2 := s1.postFault 7 (v % 256) (512 + a) t pattern
  if s2.lasting 7 (512 + a) t = true ∧ (t, a) ∉ s2.spareQuar then { s2 with spareQuar := s2.spareQuar ++ [(t, a)] } else s2

/-- THREEWAY is set with CAR cause 5 (R356, R465). -/
def Box.threeWay (s : Box) : Box := (s.put CAR_TWIN_STATUS_THREEWAY true).raiseInt carPage 5

/-- The tent of a retraction's recomputation or of a third computation: the next in order that is not rebuilding
(R203, R377). -/
def Box.thirdTent (s : Box) (t : Nat) : Nat :=
  (((List.range 7).map fun i => (t + 1 + i) % 8).find? fun u => !s.rebuilding u).getD ((t + 1) % 8)

/-- After a twin mismatch, what the recomputation says of the three positions (R356). -/
def Box.judgeTwin (s : Box) (st : Nat) (q : Retraction) (old new : List (BitVec 64)) : Box :=
  let own := (s.strm st).owner q.chunk
  let fmt := (s.strmGrp st).fmt
  match q.twin with
  | none => s
  | some (t, pays) =>
    if new = old then s.spareFault t fmt
    else if new = pays.map crc64 then s.sliverFault own fmt
    else (((s.threeWay).sliverFault own fmt).spareFault t fmt).spareFault (s.thirdTent (own % 8)) fmt

/-- A retraction ends (R203): with the recomputed payloads, or with none where it is unrecoverable. Equal
fingerprints are a null retraction; otherwise every differing frame is retracted, and corrected under CODE 1, with the chunk's
GUARD and RANGE counts `fl` (R205, R209).
DEDUCED, log entry 87. -/
def Box.retractSend (s : Box) (st : Nat) (q : Retraction) (new : Option (List (List Byte))) (fl : Nat × Nat) : Box :=
  match (s.sx st).epochRec q.epoch with
  | none => s
  | some r =>
    let g := s.strmGrp st
    let t := (s.strm st).tentOf q.chunk
    let old := chunkFps r q.chunk
    let fpAt (pays : List (List Byte)) (i : Nat) : BitVec 64 := match pays[i]? with
      | some b => crc64 (padPayload b)
      | none => (old.getD i (0, 0)).2
    let newFps := match new with
      | some pays => (List.range old.length).map (fpAt pays)
      | none => []
    let s0 := if new.isSome then s.judgeTwin st q (old.map (·.2)) newFps else s
    if new.isSome ∧ newFps = old.map (·.2) then (s0.put SNT_STATUS_NULL true).count sntPage 1
    else
      let code := if new.isSome then 1 else 2
      let x := s0.sx st
      let rseq := (x.rseq + 1) % 65536
      let s1 := s0.setSx st { x with rseq := rseq }
      let head (part : Nat) (b : List Byte) : Frame :=
        let sp := resultSpan g (s.strm st) q.chunk part
        let h := s.resultFrame st r ⟨part, sp.1, sp.2, padPayload b⟩
        h.take (h.length - 8)
      let change (z : EpochRec) : EpochRec :=
        match new with
        | none => { z with unrecov := q.chunk :: z.unrecov }
        | some pays =>
          { z with
            flags := z.flags.map fun y => if y.1 = q.chunk then (y.1, fl) else y,
            rfps := z.rfps.map fun y => if y.1 = q.chunk then (y.1, y.2.1, fpAt pays y.2.1) else y,
            results := z.results.map fun y =>
              match decide (y.chunk = q.chunk), pays[y.part]? with
              | true, some b => { y with frame := head y.part b }
              | _, _ => y }
      let s2 := s1.onRec st q.epoch change
      let r2 := ((s2.sx st).epochRec q.epoch).getD r
      let (i, s3) := s2.takeFree
      let seq := if g.seals = true ∧ r.passed = true then s3.sealNext else (Config.freeBits i).toNat
      let s4 :=
        if g.seals = false then s3
        else if r.passed then
          let at_ := (s3.sealJobs.findIdx? fun j => j.stream == st && j.epoch == q.epoch && j.type == 1).getD 0
          let amends := r.sealSeq.getD (s3.sealSeqNow + at_ + (if s3.sealLast = none then 1 else 0))
          s3.sealPush st r2 2 amends (code == 2)
        else s3.onRec st q.epoch fun z => { z with owed := z.owed + 1 }
      let hit := (List.range old.length).filter fun k => new = none ∨ newFps.getD k 0 ≠ (old.getD k (0, 0)).2
      let send (b : Box) (k : Nat) : Box :=
        let o := old.getD k (0, 0)
        let n := s.noticeFrame st r q.chunk o.1 o.2 code q.reason rseq (if code = 1 then newFps.getD k 0 else 0) seq
        let b1 := b.queueResult st q.epoch q.chunk o.1 t n g.dest r.bmap [] true
        match new with
        | none => b1
        | some pays =>
          let sp := resultSpan g (s.strm st) q.chunk o.1
          b1.queueResult st q.epoch q.chunk o.1 t
            (b1.resultFrame st r ⟨o.1, sp.1, sp.2, padPayload (pays.getD k [])⟩) g.dest r.bmap [] true
      let s5 := (hit.foldl send s4).raiseInt sntPage 1
      if code = 2 then s5.put SNT_STATUS_UNRECOV true else s5

/-- A retraction begins: where the chunk's contributions are retained it waits for the recomputation, otherwise it is
unrecoverable at once (R203); true where it waits. -/
def Box.retractBegin (s : Box) (st : Nat) (q : Retraction) : Bool × Box :=
  match (s.sx st).epochRec q.epoch with
  | none => (false, s)
  | some r =>
    if s.policy st = 2 ∧ s.chunkKept st r q.chunk = true then
      (true, s.setSx st { s.sx st with retract := some q })
    else (false, s.retractSend st q none (0, 0))

/-- The retractions that wait begin, one after the other, until one needs its recomputation. -/
def Box.retractNext (st : Nat) : Nat → Box → Box
  | 0, s => s
  | fuel + 1, s =>
    let x := s.sx st
    match x.retract, x.retractQ with
    | none, q :: qs =>
      match (s.setSx st { x with retractQ := qs }).retractBegin st q with
      | (true, b) => b
      | (false, b) => Box.retractNext st fuel b
    | _, _ => s

/-- A retraction is asked for (R203, R207): it begins, waits behind one that is pending, or is unrecoverable at once
where 16 wait already. -/
def Box.retractAsk (s : Box) (st : Nat) (q : Retraction) : Box :=
  let x := s.sx st
  if x.retract = none then (s.retractBegin st q).2.dropOld st
  else if x.retractQ.length < 16 then s.setSx st { x with retractQ := x.retractQ ++ [q] }
  else s.retractSend st q none (0, 0)

/-! ### Safety Net commands (R202, R207, R214) -/

/-- A command is refused (R214). -/
def Box.sntRefuse (s : Box) (reason : Nat) : Box :=
  ((s.wr SNT_STATUS_REASON reason).put SNT_STATUS_REFUSED true).raiseInt sntPage 0

/-- The first reason to refuse a command on the chunks given (R214); `replay` asks for retained results and a
target.
DEDUCED, log entry 86. -/
def Box.sntReason (s : Box) (st e first count : Nat) (replay : Bool) : Nat :=
  let n := s.strm st
  match (s.sx st).epochRec e with
  | none => if n.state ≠ 2 ∧ n.state ≠ 3 then 1 else 2
  | some r =>
    let cs := (List.range count).map (first + ·)
    if n.state ≠ 2 ∧ n.state ≠ 3 then 1
    else if cs.any fun c => decide (c ∈ r.unrecov) || (decide (c < n.chunks) && decide (0 < s.policy st)
        && !(if replay then s.resultsKept st r c else decide (c ∈ r.released))) then 2
    else if count = 0 ∨ n.chunks < first + count then 3
    else if s.policy st = 0 then 4
    else if replay = false ∧ (s.sx st).retract.isSome then 5
    else if replay = true ∧ s.is SNT_TARGET_ALL = false
        ∧ ((s.strmGrp st).dest = false ∨ s.rd SNT_TARGET_PORT ∉ r.bmap) then 6
    else 0

/-- REPLAY (R202): the retained frames of the chunks enter the result queue again, their trailers made afresh. -/
def Box.sntReplay (s : Box) (st e : Nat) : Box :=
  let first := s.rd SNT_CHUNK_FIRST
  let count := s.rd SNT_TARGET_COUNT
  let reason := s.sntReason st e first count true
  match (s.sx st).epochRec e with
  | none => s.sntRefuse reason
  | some r =>
    if reason ≠ 0 then s.sntRefuse reason
    else
      let g := s.strmGrp st
      let ports := if s.is SNT_TARGET_ALL then r.bmap else [s.rd SNT_TARGET_PORT]
      let mine := ((List.range count).map (first + ·)).flatMap fun c =>
        sortBy (fun a b => decide (a.part ≤ b.part)) (r.results.filter fun q => q.chunk == c)
      let send (b : Box) (q : KeptResult) : Box :=
        let fp := crc64 (q.frame.drop 64)
        let body := q.frame ++ bytesBE 4 (fp.toNat % 2 ^ 32)
        b.queueResult st e q.chunk q.part q.tent (body ++ bytesBE 4 (frameCrc body).toNat) g.dest ports [] true
      let s1 := mine.foldl send s
      let ids := (List.range (s1.resId - s.resId)).map (s.resId + ·)
      { (s1.put SNT_STATUS_BUSY true) with replay := some { stream := st, ids := ids } }

/-- RETRACT (R203). -/
def Box.sntRetract (s : Box) (st e : Nat) : Box :=
  let c := s.rd SNT_CHUNK_FIRST
  let reason := s.sntReason st e c 1 false
  if reason ≠ 0 then s.sntRefuse reason else s.retractAsk st ⟨e, c, 2, none⟩

/-- A write of SNT_CMD (R214). -/
def Box.sntCmd (s : Box) (src : Requester) (cmd st e : Nat) : Box :=
  if s.is SNT_STATUS_BUSY then s.accErrAt SNT_CMD_at src
  else match cmd with
    | 1 => s.sntReplay st e
    | 2 => s.sntRetract st e
    | _ => s.rsvWriteAt SNT_CMD_at src

/-- SNT_REPLAY (R202). -/
def execSntReplay (src : Requester) (st : StreamIx) (e : BitVec 16) (s : State) : Result :=
  s.actReg SNT_CMD_at src fun b => b.sntCmd src 1 st.toNat e.toNat

/-- SNT_RETRACT (R203). -/
def execSntRetract (src : Requester) (st : StreamIx) (e : BitVec 16) (s : State) : Result :=
  s.actReg SNT_CMD_at src fun b => b.sntCmd src 2 st.toNat e.toNat

/-- A replay ends once its last frame has left (R202, R207); one that lost a memory device ends refused with REASON 2
(12_faults.md R377). -/
def Box.replayDone (s : Box) : Box :=
  match s.replay with
  | none => s
  | some r =>
    let left := (s.results.any fun q => decide (q.id ∈ r.ids))
      || s.allStaged.any fun x => x.result.any fun k => decide (k.id ∈ r.ids)
    if left then s
    else
      let s1 : Box := { (s.put SNT_STATUS_BUSY false) with replay := none }
      if r.broken then s1.sntRefuse 2 else s1

/-- REPLAY_DONE (R207). -/
def execReplayDone (s : State) : Result := s.actRun Box.replayDone

/-! ### Spare positions for twins (12_faults.md R355) -/

/-- Twins that run in a tent. -/
def Box.twinsIn (s : Box) (t : Nat) : Nat :=
  (s.streams.map fun x => x.2.twins.countP fun w => w.tent == t).sum
    + (s.slivers.map fun x => x.2.slots.countP fun c => c.hold == .twin t).sum

/-- A spare position of a tent is free for a twin: one is kept for recomputations, quarantined ones are out of use, and a tent in single-device mode or
rebuilding is skipped. -/
def Box.twinFree (s : Box) (t : Nat) : Bool :=
  decide (s.twinsIn t + 1 + (s.spareQuar.filter fun x => x.1 == t).length < s.rd (TMB_SUBST_STATUS_SPARES_FREE t)) && !s.is (MEM_PLAN_STATUS_SINGLE t)
    && !s.rebuilding t

/-- The tent that runs a twin of tent `t`'s chunk: (t + 4) mod 8, else the next in order that can. -/
def Box.twinTent (s : Box) (t : Nat) : Option Nat :=
  ((List.range 8).map fun i => (t + 4 + i) % 8).find? fun u => u != t && s.twinFree u

/-- The sampling rule of R354, but for what is retained. -/
def Box.twinned (s : Box) (st e c : Nat) : Bool :=
  s.policy st == 2 && s.is { CAR_TWIN_EN_EN (st / 32) with lo := st % 32, width := 1 } && s.is CAR_TWIN_CTRL_EN
    && !(s.strmGrp st).barrier && (c + e * 40503) % 2 ^ s.rd CAR_TWIN_CTRL_K == 0

/-- A sliver is under watch (R357). -/
def Box.watched (s : Box) (sl : Nat) : Bool := s.is { CAR_WATCH_WATCH (sl / 32) with lo := sl % 32, width := 1 }

/-- A chunk that cannot be twinned is counted in CAR_TWIN_SKIP (R355, R358). -/
def Box.twinSkip (s : Box) : Box := s.count carPage 3

/-- A twin of a released chunk starts, or is skipped (R354, R355).
DEDUCED, log entry 88. -/
def Box.twinStart (s : Box) (st e c : Nat) : Box :=
  let sl := (s.strm st).owner c
  if s.watched sl = true ∨ s.twinned st e c = false then s
  else
    match (s.sx st).epochRec e, s.twinTent (sl % 8) with
    | some r, some u =>
      if s.chunkKept st r c then s.setSx st { s.sx st with twins := (s.sx st).twins ++ [⟨e, c, u⟩] } else s.twinSkip
    | _, _ => s.twinSkip

/-- A twin disagrees: MISMATCH and CAR cause 4 (R356, R465). -/
def Box.twinBad (s : Box) : Box := (s.put CAR_TWIN_STATUS_MISMATCH true).raiseInt carPage 4

/-- The twin of a released chunk completes with the payloads it has computed (R356): it agrees, or a retraction with REASON 1
starts. -/
def Box.twinPost (s : Box) (st : Nat) (w : Twin) (pays : List (List Byte)) : Box :=
  let x := s.sx st
  let s1 := s.setSx st { x with twins := x.twins.filter (· ≠ w) }
  match x.epochRec w.epoch with
  | some r =>
    if pays.map (fun b => crc64 (padPayload b)) = (chunkFps r w.chunk).map (·.2) then (s1.count carPage 2).dropOld st
    else s1.twinBad.retractAsk st ⟨w.epoch, w.chunk, 1, some (w.tent, pays.map padPayload)⟩
  | none => s1

end Sys2Proof.Machine
end

