-- ==== Sys2Proof/Machine/Tumbler.lean ====
section
/-!
DEFINITION. The tumbler's instruction set as operations on an invocation (08_tumblers.md R226 to R251): words and
which of them are legal, issue slots, registers, windows, scalar and vector functions. The commands that run an
instruction are in TumblerRun.lean.
-/

namespace Sys2Proof.Machine

/-! ### Words (R235, R236) -/

/-- Format R. -/
def encR (op d a b func : Nat) : Nat := op * 2 ^ 26 + d * 2 ^ 21 + a * 2 ^ 16 + b * 2 ^ 11 + func
/-- Format I. -/
def encI (op d a imm : Nat) : Nat := op * 2 ^ 26 + d * 2 ^ 21 + a * 2 ^ 16 + imm
/-- Format F. -/
def encF (op d a b c : Nat) : Nat := op * 2 ^ 26 + d * 2 ^ 21 + a * 2 ^ 16 + b * 2 ^ 11 + c * 2 ^ 6
/-- Format V. -/
def encV (op d a b pg ty func : Nat) : Nat :=
  op * 2 ^ 26 + d * 2 ^ 21 + a * 2 ^ 16 + b * 2 ^ 11 + pg * 2 ^ 8 + ty * 2 ^ 5 + func
/-- Format V4. -/
def encV4 (op d a b c pg ty : Nat) : Nat :=
  op * 2 ^ 26 + d * 2 ^ 21 + a * 2 ^ 16 + b * 2 ^ 11 + c * 2 ^ 6 + pg * 2 ^ 3 + ty
/-- Format M. -/
def encM (op t base pg off : Nat) : Nat := op * 2 ^ 26 + t * 2 ^ 21 + base * 2 ^ 16 + pg * 2 ^ 13 + off
/-- Format J. -/
def encJ (op off : Nat) : Nat := op * 2 ^ 26 + off

/-- OPCODE, bits [31:26]. -/
def kOp (w : Nat) : Nat := natField w 26 6
/-- Field [25:21]. -/
def kD (w : Nat) : Nat := natField w 21 5
/-- Field [20:16]. -/
def kA (w : Nat) : Nat := natField w 16 5
/-- Field [15:11]. -/
def kB (w : Nat) : Nat := natField w 11 5
/-- The type of a V word. -/
def kTy (w : Nat) : Nat := natField w 5 3
/-- The function of a V word. -/
def kFunc (w : Nat) : Nat := natField w 0 5

/-- Bytes of a lane of a type (R238). -/
def laneBytes (ty : Nat) : Nat :=
  match ty with
  | 1 => 2
  | 2 => 2
  | 3 => 8
  | 6 => 8
  | _ => 4

/-- Lanes of a type. -/
def lanes (ty : Nat) : Nat := 64 / laneBytes ty

/-- A floating type: 0 to 3. -/
def tyFp (ty : Nat) : Bool := ty ≤ 3
/-- An integer type: 4 to 6. -/
def tyInt (ty : Nat) : Bool := 4 ≤ ty && ty ≤ 6

/-- A word that a tumbler executes: no reserved opcode, function, type or field value, no p0 as destination, a type
the instruction allows (R222 REASON 2, R237, R242 to R244). -/
def kLegal (w : Nat) : Bool :=
  let op := kOp w
  let d := kD w
  let a := kA w
  let b := kB w
  let ty := kTy w
  let fn := kFunc w
  match op with
  | 0x01 => natField w 8 3 == 0 && natField w 0 8 ≤ 17
  | 0x07 => natField w 14 2 != 3
  | 0x08 => natField w 8 3 == 0 && natField w 0 8 ≤ 13
  | 0x09 => natField w 0 6 == 0
  | 0x28 => natField w 0 26 == 0
  | 0x30 => ty ≤ 6 && fn ≤ 12 && (fn ≤ 9 || tyInt ty)
  | 0x31 => ty ≤ 6 && fn ≤ 3 && (fn ≤ 2 || tyFp ty) && d < 8 && d != 0
  | 0x35 => ty == 0 && fn ≤ 20
  | 0x36 => ty ≤ 6 && fn ≤ 4 && (fn ≤ 2 || ty == 0 || ty == 4)
  | 0x37 => ty ≤ 6 && fn == 0
  | 0x38 => fn ≤ 3 && (ty == 0 || (2 ≤ fn && ty == 3))
  | 0x39 => (ty ≤ 2 || ty == 4 || ty == 5) && fn ≤ 2 && (fn == 0 || b < lanes ty) && (fn != 2 || natField w 8 3 == 0)
  | 0x3A =>
    let f8 := natField w 0 8
    natField w 8 3 == 0 && f8 ≤ 8 && (f8 == 6 || 7 ≤ f8 || (d < 8 && d != 0)) && (f8 == 5 || a < 8)
      && (4 ≤ f8 || b < 8)
  | 0x3E => a ≤ 4 && natField w 0 16 == 0
  | _ =>
    if op ∈ [0x02, 0x03, 0x04, 0x05, 0x06, 0x18, 0x19, 0x20, 0x21, 0x22, 0x23, 0x24, 0x25, 0x26, 0x27, 0x29] then true
    else if 0x10 ≤ op ∧ op ≤ 0x17 then natField w 13 3 == 0
    else if 0x32 ≤ op ∧ op ≤ 0x34 then natField w 0 3 ≤ 3
    else false

/-- Issue slots of a legal word (R249). -/
def kCost (w : Nat) : Nat :=
  let op := kOp w
  let ty := kTy w
  let wide := ty == 3 || ty == 6
  match op with
  | 0x38 => if 2 ≤ kFunc w ∧ ty = 3 then 8 else 4
  | 0x35 => if 16 ≤ kFunc w ∧ kFunc w ≤ 18 then 2 else 1
  | 0x32 => if natField w 0 3 = 3 then 2 else 1
  | 0x33 => if natField w 0 3 = 3 then 2 else 1
  | 0x34 => if natField w 0 3 = 3 then 2 else 1
  | 0x30 => if wide then 2 else 1
  | 0x31 => if wide then 2 else 1
  | 0x36 => if wide then 2 else 1
  | 0x37 => if wide then 2 else 1
  | _ => 1

/-! ### Registers (R234) -/

/-- A scalar register: s0 reads as 0. -/
def Inv.sr (v : Inv) (i : Nat) : Nat := if i = 0 then 0 else v.s.getD i 0
/-- A scalar register written; s0 discards. -/
def Inv.setS (v : Inv) (i x : Nat) : Inv := if i = 0 then v else { v with s := v.s.set i (x % 2 ^ 32) }
/-- A vector register. -/
def Inv.vr (v : Inv) (i : Nat) : List Byte := v.v.getD i (List.replicate 64 0)
/-- A vector register written. -/
def Inv.setV (v : Inv) (i : Nat) (x : List Byte) : Inv := { v with v := v.v.set i (padTo 64 0 x) }
/-- A predicate register: p0 reads as all ones. -/
def Inv.pr (v : Inv) (i : Nat) : Nat := if i = 0 then 2 ^ 32 - 1 else v.p.getD i 0
/-- A predicate register written. -/
def Inv.setP (v : Inv) (i x : Nat) : Inv := if i = 0 then v else { v with p := v.p.set i (x % 2 ^ 32) }

/-- What an instruction leads to. -/
inductive KOut where
  | next (v : Inv)
  | jump (v : Inv) (pc : Nat)
  | loop (v : Inv) (pc : Nat)        -- a LOOP's own backward jump
  | exit
  | fault (cause fcode : Nat)
  deriving DecidableEq, Repr

/-! ### Memory (R227, R229, R246) -/

/-- Where an access of `n` bytes lies: its window's number and whether it may be stored to. 0 state, 1 workspace,
2 constants, 3 operand A, 4 operand B, 5 result. -/
def Inv.window (v : Inv) (img : List Byte) (at_ n : Nat) : Option (Nat × Bool) :=
  let inW (lo len : Nat) : Bool := decide (lo ≤ at_) && decide (at_ + n ≤ lo + len)
  if v.entry ≠ .combineE ∧ inW 0 (64 * imgStateLines img) = true then some (0, true)
  else if inW 0x2000 0x8000 then some (1, true)
  else if inW 0xA000 (64 * imgConstLines img) then some (2, false)
  else if inW 0xE000 0x1000 then some (3, false)
  else if inW 0xF000 0x1000 then some (4, false)
  else if inW 0x10000 0x1000 then some (5, true)
  else none

/-- A byte of a window. -/
def Inv.byteAt (v : Inv) (img : List Byte) (win at_ : Nat) : Byte :=
  match win with
  | 0 => mapGet (fun _ => 0) v.state at_
  | 1 => mapGet (fun _ => 0) v.work at_
  | 2 => imgConst img (at_ - 0xA000)
  | 3 => v.opA.getD (at_ - 0xE000) 0
  | 4 => v.opB.getD (at_ - 0xF000) 0
  | _ => mapGet (fun _ => 0) v.result at_

/-- Bytes stored into a window that may be stored to. -/
def Inv.storeBytes (v : Inv) (win at_ : Nat) (bs : List Byte) : Inv :=
  match win with
  | 0 => { v with state := mapSetAll (fun _ => 0) v.state at_ bs }
  | 1 => { v with work := mapSetAll (fun _ => 0) v.work at_ bs }
  | _ => { v with result := mapSetAll (fun _ => 0) v.result at_ bs }

/-- The address of an access: base + off × size, modulo 2^32. -/
def Inv.addr (v : Inv) (base off size : Nat) : Nat := ofSigned 32 ((v.sr base : Int) + toSigned 13 off * size)

/-- A load of `n` bytes at a multiple of `align`: the bytes, or the fault's cause. -/
def Inv.load (v : Inv) (img : List Byte) (at_ n align : Nat) : Except Nat (List Byte) :=
  if at_ % align ≠ 0 then .error 3
  else match v.window img at_ n with
    | none => .error 2
    | some (w, _) => .ok ((List.range n).map fun i => v.byteAt img w (at_ + i))

/-- A store of bytes. -/
def Inv.store (v : Inv) (img : List Byte) (at_ align : Nat) (bs : List Byte) : Except Nat Inv :=
  if at_ % align ≠ 0 then .error 3
  else match v.window img at_ bs.length with
    | none => .error 2
    | some (w, rw) => if rw then .ok (v.storeBytes w at_ bs) else .error 4

/-- A scalar load: `size` bytes, sign-extended where `sx` (R236).
DEDUCED, log entry 73. -/
def kLoad (size : Nat) (sx : Bool) (t base off : Nat) (img : List Byte) (v : Inv) : KOut :=
  match v.load img (v.addr base off size) size size with
  | .error c => .fault c 0
  | .ok bs => .next (v.setS t (if sx then ofSigned 32 (toSigned (8 * size) (natBE bs)) else natBE bs))

/-- A scalar store of the low `size` bytes. -/
def kStore (size t base off : Nat) (img : List Byte) (v : Inv) : KOut :=
  match v.store img (v.addr base off size) size (bytesBE size (v.sr t)) with
  | .error c => .fault c 0
  | .ok v' => .next v'

/-- Bytes of `new` where the predicate bit of their 16-bit sub-lane is set, of `old` elsewhere (R248). -/
def mergeBytes (p : Nat) (old new : List Byte) : List Byte :=
  (List.range 64).map fun i => if p.testBit (i / 2) then new.getD i 0 else old.getD i 0

/-- VLD. -/
def kVld (t base pg off : Nat) (img : List Byte) (v : Inv) : KOut :=
  match v.load img (v.addr base off 4) 64 4 with
  | .error c => .fault c 0
  | .ok bs => .next (v.setV t (mergeBytes (v.pr pg) (v.vr t) bs))

/-- VST: bytes whose predicate bit is clear keep what memory held. -/
def kVst (t base pg off : Nat) (img : List Byte) (v : Inv) : KOut :=
  let at_ := v.addr base off 4
  match v.load img at_ 64 4 with
  | .error c => .fault c 0
  | .ok old =>
    match v.store img at_ 4 (mergeBytes (v.pr pg) old (v.vr t)) with
    | .error c => .fault c 0
    | .ok v' => .next v'

/-! ### Scalar functions (R239, R241) -/

/-- Set bits of a number's low 32. -/
def popc (x : Nat) : Nat := ((List.range 32).filter fun i => x.testBit i).length

/-- SALU. -/
def salu (func a b : Nat) : Nat :=
  let sa := toSigned 32 a
  let sb := toSigned 32 b
  match func with
  | 0 => (a + b) % 2 ^ 32
  | 1 => ofSigned 32 (sa - sb)
  | 2 => a &&& b
  | 3 => a ||| b
  | 4 => a ^^^ b
  | 5 => a * 2 ^ (b % 32) % 2 ^ 32
  | 6 => a / 2 ^ (b % 32)
  | 7 => ofSigned 32 (sa / (2 ^ (b % 32) : Nat))
  | 8 => a * b % 2 ^ 32
  | 9 => a * b / 2 ^ 32
  | 10 => if sb < sa then b else a
  | 11 => if sa < sb then b else a
  | 12 => min a b
  | 13 => max a b
  | 14 => b2n (decide (sa < sb))
  | 15 => b2n (decide (a < b))
  | 16 => if a = 0 then 32 else 31 - Nat.log2 a
  | _ => popc a

/-- A floating-point code of a format, rounded once. -/
def fpCode (f : FpFmt) (x : Fp) : Nat := f.code x

/-- SFPU (R241, R240).
DEDUCED, log entry 72. -/
def sfpu (func a b : Nat) : Nat :=
  let x := fp32.decode a
  let y := fp32.decode b
  match func with
  | 0 => fp32.code (x.add y)
  | 1 => fp32.code (x.add y.neg)
  | 2 => fp32.code (x.mul y)
  | 3 => fp32.code (x.min y)
  | 4 => fp32.code (x.max y)
  | 5 => fp32.code x.abs
  | 6 => fp32.code x.neg
  | 7 => b2n (x.eq y)
  | 8 => b2n (x.lt y)
  | 9 => b2n (x.le y)
  | 10 => b2n (x.isNan || y.isNan)
  | 11 => b2n (x.isNan || y.isNan)
  | 12 => x.toI32
  | _ => fp32.code (Fp.ofInt (toSigned 32 a))

/-! ### Lanes (R238) -/

/-- The lanes of a register as codes. -/
def lanesOf (ty : Nat) (r : List Byte) : List Nat := codesOf (laneBytes ty) (lanes ty) r

/-- A register from its lanes. -/
def ofLanes (ty : Nat) (l : List Nat) : List Byte := l.flatMap (bytesBE (laneBytes ty))

/-- The predicate bit of lane `i` of a type. -/
def laneOn (ty p i : Nat) : Bool := p.testBit (laneBytes ty / 2 * i)

/-- The binary format of a floating type. -/
def tyFmt (ty : Nat) : FpFmt :=
  match ty with
  | 0 => fp32
  | 1 => bf16
  | 2 => fp16
  | _ => fp64

/-- A lane as a signed or, for UINT32, unsigned integer. -/
def laneInt (ty x : Nat) : Int := if ty = 5 then (x : Int) else toSigned (8 * laneBytes ty) x

/-- Lane order: -0 below +0 in floating types. -/
def laneBelow (ty a b : Nat) : Bool :=
  if tyFp ty then ((tyFmt ty).decode a).below ((tyFmt ty).decode b) else decide (laneInt ty a < laneInt ty b)

/-- A lane of a floating type is NaN. -/
def laneNan (ty a : Nat) : Bool := tyFp ty && ((tyFmt ty).decode a).isNan

/-- MIN and MAX of lanes (R240). -/
def laneMinMax (ty : Nat) (big : Bool) (a b : Nat) : Nat :=
  if laneNan ty a || laneNan ty b then (tyFmt ty).qnan
  else if big then (if laneBelow ty a b then b else a) else (if laneBelow ty b a then b else a)

/-- The sum of two lanes, rounded or wrapped. -/
def laneAdd (ty a b : Nat) : Nat :=
  if tyFp ty then (tyFmt ty).code (((tyFmt ty).decode a).add ((tyFmt ty).decode b))
  else (a + b) % 2 ^ (8 * laneBytes ty)

/-- VALU on one lane (R242). -/
def valuLane (ty func a b : Nat) : Nat :=
  let w := 8 * laneBytes ty
  let f := tyFmt ty
  let x := f.decode a
  let y := f.decode b
  let fp := tyFp ty
  match func with
  | 0 => laneAdd ty a b
  | 1 => if fp then f.code (x.add y.neg) else ofSigned w ((a : Int) - b)
  | 2 => if fp then f.code (x.mul y) else a * b % 2 ^ w
  | 3 => laneMinMax ty false a b
  | 4 => laneMinMax ty true a b
  | 5 => if fp then f.code x.abs else ofSigned w (laneInt ty a).natAbs
  | 6 => if fp then f.code x.neg else ofSigned w (-(a : Int))
  | 7 => a &&& b
  | 8 => a ||| b
  | 9 => a ^^^ b
  | 10 => a * 2 ^ (b % w) % 2 ^ w
  | 11 => a / 2 ^ (b % w)
  | _ => ofSigned w (toSigned w a / (2 ^ (b % w) : Nat))

/-- Lane by lane: enabled lanes take `f i`, the others the old value. -/
def predLanes (ty p : Nat) (old : List Byte) (f : Nat → Nat) : List Byte :=
  let o := lanesOf ty old
  ofLanes ty ((List.range (lanes ty)).map fun i => if laneOn ty p i then f i else o.getD i 0)

/-- VALU. -/
def kValu (d a b pg ty func : Nat) (_ : List Byte) (v : Inv) : KOut :=
  let x := lanesOf ty (v.vr a)
  let y := lanesOf ty (v.vr b)
  .next (v.setV d (predLanes ty (v.pr pg) (v.vr d) fun i => valuLane ty func (x.getD i 0) (y.getD i 0)))

/-- VCMP on one lane. -/
def vcmpLane (ty func a b : Nat) : Bool :=
  if tyFp ty then
    let x := (tyFmt ty).decode a
    let y := (tyFmt ty).decode b
    match func with
    | 0 => x.eq y
    | 1 => x.lt y
    | 2 => x.le y
    | _ => x.isNan || y.isNan
  else
    match func with
    | 0 => a == b
    | 1 => decide (laneInt ty a < laneInt ty b)
    | _ => decide (laneInt ty a ≤ laneInt ty b)

/-- VCMP: every predicate bit that an enabled lane covers. -/
def kVcmp (d a b pg ty func : Nat) (_ : List Byte) (v : Inv) : KOut :=
  let x := lanesOf ty (v.vr a)
  let y := lanesOf ty (v.vr b)
  let per := laneBytes ty / 2
  let bit (k : Nat) : Bool :=
    let i := k / per
    if laneOn ty (v.pr pg) i then vcmpLane ty func (x.getD i 0) (y.getD i 0) else (v.pr d).testBit k
  .next (v.setP d (((List.range 32).map fun k => b2n (bit k) * 2 ^ k).sum))

/-- VFMA, VFMS and VFNMA (R243): the signs of the product and of the addend. -/
def kVfma (negP negC : Bool) (d a b c pg ty : Nat) (_ : List Byte) (v : Inv) : KOut :=
  let f := tyFmt ty
  let at_ (r : Nat) (i : Nat) : Fp := f.decode ((lanesOf ty (v.vr r)).getD i 0)
  let sg (n : Bool) (x : Fp) : Fp := if n then x.neg else x
  .next (v.setV d (predLanes ty (v.pr pg) (v.vr d) fun i =>
    f.code ((sg negP ((at_ a i).mul (at_ b i))).add (sg negC (at_ c i)))))

/-- The element codes of a conversion: destination type, or none for bytes, and the elements (R244).
DEDUCED, log entry 74. -/
def vcvtElems (func : Nat) (va vb : List Byte) : Option Nat × List Nat :=
  let cv (f g : FpFmt) (x : Nat) : Nat := g.code (f.decode x)
  let half (f : FpFmt) (q : Nat) : List Nat := (codesOf 2 16 (va.drop (32 * q))).map (cv f fp32)
  let quarter (f : FpFmt) (q : Nat) : List Nat := (codesOf 1 16 (va.drop (16 * q))).map (cv f fp32)
  let narrow (g : FpFmt) : List Nat := ((codesOf 4 16 va) ++ (codesOf 4 16 vb)).map (cv fp32 g)
  match func with
  | 0 => (some 0, half bf16 0)
  | 1 => (some 0, half bf16 1)
  | 2 => (some 0, half fp16 0)
  | 3 => (some 0, half fp16 1)
  | 12 => (some 1, narrow bf16)
  | 13 => (some 2, narrow fp16)
  | 14 => (some 0, (codesOf 4 16 va).map fun x => fp32.code (Fp.ofInt (toSigned 32 x)))
  | 15 => (some 4, (codesOf 4 16 va).map fun x => (fp32.decode x).toI32)
  | 16 => (some 3, (codesOf 4 8 va).map (cv fp32 fp64))
  | 17 => (some 3, (codesOf 4 8 (va.drop 32)).map (cv fp32 fp64))
  | 18 => (some 0, ((codesOf 8 8 va) ++ (codesOf 8 8 vb)).map (cv fp64 fp32))
  | 19 => (none, (codesOf 4 16 va).map (cv fp32 e4m3))
  | 20 => (none, (codesOf 4 16 va).map (cv fp32 e5m2))
  | n => if n ≤ 7 then (some 0, quarter e4m3 (n - 4)) else (some 0, quarter e5m2 (n - 8))

/-- VCVT: the predicate applies to destination elements (R244). -/
def kVcvt (d a b pg func : Nat) (_ : List Byte) (v : Inv) : KOut :=
  match vcvtElems func (v.vr a) (v.vr b) with
  | (some ty, es) => .next (v.setV d (predLanes ty (v.pr pg) (v.vr d) fun i => es.getD i 0))
  | (none, es) =>
    .next (v.setV d ((List.range 64).map fun i =>
      if 16 ≤ i then 0 else if (v.pr pg).testBit (i / 2) then BitVec.ofNat 8 (es.getD i 0) else (v.vr d).getD i 0))

/-- Adjacent pairs added until one value remains (R245). -/
def pairSum (ty : Nat) : Nat → List Nat → Nat
  | 0, l => l.headD 0
  | n + 1, l => pairSum ty n ((List.range (l.length / 2)).map fun i => laneAdd ty (l.getD (2 * i) 0) (l.getD (2 * i + 1) 0))

/-- What a disabled lane contributes to MAX or MIN: the lowest or the highest value of the type (R245). -/
def laneExtreme (ty : Nat) (low : Bool) : Nat :=
  let w := 8 * laneBytes ty
  if tyFp ty then (tyFmt ty).code (.inf low)
  else if ty = 5 then (if low then 0 else 2 ^ 32 - 1)
  else if low then 2 ^ (w - 1) else 2 ^ (w - 1) - 1

/-- VRED (R245). -/
def kVred (d a pg ty func : Nat) (_ : List Byte) (v : Inv) : KOut :=
  let x := lanesOf ty (v.vr a)
  let n := lanes ty
  let on := (List.range n).filter fun i => laneOn ty (v.pr pg) i
  let big := func == 1 || func == 3
  let fold := on.foldl (fun m i => laneMinMax ty big m (x.getD i 0)) (laneExtreme ty big)
  let none0 := if tyFp ty then (tyFmt ty).code (.fin true 0 0) else 0
  let res : List Nat :=
    if func = 0 then
      [pairSum ty (Nat.log2 n) ((List.range n).map fun i => if i ∈ on then x.getD i 0 else none0)]
    else if func ≤ 2 then [fold]
    else
      let hit (i : Nat) : Bool :=
        let y := x.getD i 0
        if laneNan ty fold then laneNan ty y
        else !laneNan ty y && !laneBelow ty y fold && !laneBelow ty fold y
      [fold, (on.find? hit).getD 16]
  .next (v.setV d (ofLanes ty (padTo n 0 res)))

/-- VSEL. -/
def kVsel (d a b pg ty : Nat) (_ : List Byte) (v : Inv) : KOut :=
  .next (v.setV d (predLanes ty (v.pr pg) (v.vr b) fun i => (lanesOf ty (v.vr a)).getD i 0))

/-- VXF on one lane: EXP, LOG, DIV, SQRT (R242, R251, R252). -/
def vxfLane (ty func a b : Nat) : Nat :=
  let f := tyFmt ty
  match func with
  | 0 => exp32 a
  | 1 => log32 a
  | 2 => f.code ((f.decode a).div (f.decode b))
  | _ => f.code (f.decode a).sqrt

/-- VXF. -/
def kVxf (d a b pg ty func : Nat) (_ : List Byte) (v : Inv) : KOut :=
  let x := lanesOf ty (v.vr a)
  let y := lanesOf ty (v.vr b)
  .next (v.setV d (predLanes ty (v.pr pg) (v.vr d) fun i => vxfLane ty func (x.getD i 0) (y.getD i 0)))

/-- VBCAST, VEXT and VINS: the b field of the last two is a lane number (R242). -/
def kVmov (d a b pg ty func : Nat) (_ : List Byte) (v : Inv) : KOut :=
  let m := 2 ^ (8 * laneBytes ty)
  match func with
  | 0 => .next (v.setV d (predLanes ty (v.pr pg) (v.vr d) fun _ => v.sr a % m))
  | 1 => .next (v.setS d ((lanesOf ty (v.vr a)).getD b 0))
  | _ => .next (v.setV d (ofLanes ty ((lanesOf ty (v.vr d)).set b (v.sr a % m))))

/-- PLOGIC (R242, R248). -/
def kPlogic (d a b func : Nat) (_ : List Byte) (v : Inv) : KOut :=
  let ones := 2 ^ 32 - 1
  match func with
  | 0 => .next (v.setP d (v.pr a &&& v.pr b))
  | 1 => .next (v.setP d (v.pr a ||| v.pr b))
  | 2 => .next (v.setP d (v.pr a ^^^ v.pr b))
  | 3 => .next (v.setP d (v.pr a &&& (ones ^^^ v.pr b)))
  | 4 => .next (v.setP d (ones ^^^ v.pr a))
  | 5 => .next (v.setP d (v.sr a))
  | 6 => .next (v.setS d (v.pr a))
  | 7 => .next (v.setS d (popc (v.pr a)))
  | _ => .next (v.setS d (((List.range 32).find? fun i => (v.pr a).testBit i).getD 32))

/-! ### Control (R247) -/

/-- A branch or J: forward by a signed count of words. -/
def kBranch (taken : Bool) (bits off : Nat) (v : Inv) : KOut :=
  if taken then .jump v ((v.pc : Int) + toSigned bits off).toNat else .next v

/-- Whether a branch of opcode 0x20 + `k` is taken. -/
def branchTaken (k a b : Nat) : Bool :=
  match k with
  | 0 => a == b
  | 1 => a != b
  | 2 => decide (toSigned 32 a < toSigned 32 b)
  | 3 => decide (toSigned 32 b ≤ toSigned 32 a)
  | 4 => decide (a < b)
  | _ => decide (b ≤ a)

/-- LOOP: the count falls; a jump that would begin execution LOOPLIM + 1 faults with cause 5.
DEDUCED, log entry 75. -/
def kLoop (a lidx off : Nat) (img : List Byte) (v : Inv) : KOut :=
  let n := ofSigned 32 ((v.sr a : Int) - 1)
  let v1 := v.setS a n
  if v1.sr a = 0 then .next v1
  else
    let done := mapGet (fun _ => 0) v.loops v.pc + 1
    if imgLoopLim img lidx < done + 1 then .fault 5 0
    else .loop { v1 with loops := mapSet (fun _ => 0) v1.loops v.pc done } ((v.pc : Int) + toSigned 16 off).toNat

/-- The word index of the body of the LOOP at word `i`. -/
def loopTarget (img : List Byte) (i : Nat) : Nat := ((i : Int) + toSigned 16 (natField (imgCode img i) 0 16)).toNat

/-- Control reaches word `pc` other than by the LOOP at word `own`: the bodies that begin there are entered. -/
def Inv.enter (v : Inv) (img : List Byte) (pc : Nat) (own : Option Nat) : Inv :=
  { v with pc := pc, loops := v.loops.filter fun e => own == some e.1 || loopTarget img e.1 != pc }

end Sys2Proof.Machine
end

