-- ==== Sys2Proof/Machine/Sliver.lean ====
section
/-!
DEFINITION. Slivers at work: steering (06_collectives.md R158; 08_tumblers.md R231), the checks and the taking of a part
(R158 to R160), exact sums, the canonical tree (R172, R173), the start of invocations (08_tumblers.md R226, R228),
completion, pre-release twins (12_faults.md R352, R357, R358), and the release of results with the end of epochs
(R157, R180, R196).
-/

namespace Sys2Proof.Machine

/-! ### Steering (R158 steps 1 to 4) -/

/-- CEPOCH is acceptable (R157, R153): CUR or CUR + 1, and while draining only an epoch that is open. -/
def Box.epochOk (s : Box) (st e : Nat) : Bool :=
  let n := s.strm st
  (e == n.cur && (n.state == 2 || s.curOpen st)) || (e == (n.cur + 1) % 65536 && (n.state == 2 || s.nextOpen st))

/-- Steps 1 to 4: the contributor index with the epoch's binding, or the index of the CAR counter. -/
def Box.steerCheck (s : Box) (p : Nat) (f : Frame) : Except Nat (Nat × Nat × Nat) :=
  let st := frStream f
  let n := s.strm st
  let g := s.grp (frGroup f)
  let (m, me) := g.binding (frCepoch f)
  let span := if s.minor p < 2 then 1 else frLspan f
  if g.valid = false ∨ (n.state ≠ 2 ∧ n.state ≠ 3) ∨ n.group ≠ frGroup f then .error 0
  else if s.epochOk st (frCepoch f) = false then .error 1
  else if frMepoch f ≠ me then .error 2
  else
    match (s.contribs m).findIdx? fun c => c.leaf == frLeaf f && c.lspan == span && c.port == p with
    | none => .error 2
    | some j =>
      if frFmt f ≠ g.fmt ∨ (frPform f ≠ 0 ∧ ¬(frPform f = 1 ∧ g.op = 0 ∧ treeOp g.op g.fmt = false)) then .error 3
      else .ok (j, m, me)

/-- A contribution leaves its landing cells, with its credit (R43, R111, R158). -/
def Box.steerGone (s : Box) (p : Nat) (it : Arrived) : Box :=
  let s1 := s.freeCells (p / 256) it.cells
  if (s1.port p).gen = it.gen then s1.giveCredit p (frVc it.frame) (frCells it.frame) else s1

/-- What steering does with one waiting contribution: the state after it, none while its sliver's intake is full. -/
def Box.steerOne (s : Box) (p i : Nat) (it : Arrived) : Option Box :=
  let x := s.port p
  let without : Box := s.setPort p { x with steer := x.steer.eraseIdx i }
  match s.steerCheck p it.frame with
  | .error k =>
    some (((without.steerGone p it).carCount k p).traceExit (p / 256) it.trace none 5 it.frame)
  | .ok (j, m, me) =>
    let n := s.strm (frStream it.frame)
    let sl := n.owner (frElemOff it.frame / n.chunk)
    let v := s.sliver sl
    if 2 ≤ v.intake.length then none
    else
      let tr := traceStage it.trace 3 (s.tick32 (p / 256))
      let q : Part := { frame := it.frame, port := p, stamp := it.stamp, trace := tr, j := j, mset := m, mepoch := me,
                        gen := (s.sx (frStream it.frame)).gen, total := frCells it.frame, arrived := 0, tries := 0 }
      some ((s.setPort p { x with steer := x.steer.set i { it with dest := some sl } }).setSliver sl
        { v with intake := v.intake ++ [q] })

/-- The first waiting contribution of a port that can go on does: the tent goes on past those that wait for a full
intake (R231). -/
def Box.steer (s : Box) (p : Nat) : Box :=
  let items := (s.port p).steer
  (((List.range items.length).findSome? fun i =>
    match items[i]? with
    | some it => if frKind it.frame = 1 ∧ it.dest = none then s.steerOne p i it else none
    | none => none).getD s)

/-- CONTRIBUTION_STEER (R158). -/
def execContributionSteer (p : Slot) (s : State) : Result := s.actRun fun b => b.steer p.toNat

/-- The drain marker of a stream with no contribution of its port before it sets the port's bit, and leaves (12_faults.md R375;
13_counters.md R396). -/
def Box.drainMarkSet (s : Box) (p st : Nat) : Box :=
  let x := s.port p
  let ahead := (x.steer.takeWhile fun a => frKind a.frame != 1).length
  match x.steer.findIdx? fun a => frKind a.frame == 4 && markStream a.frame == st with
  | none => s
  | some i =>
    match x.steer[i]? with
    | some it =>
      if i < ahead then
        ((s.setPort p { x with steer := x.steer.eraseIdx i }).drainMark st p).traceExit (p / 256) it.trace none 5 it.frame
      else s
    | none => s

/-- DRAIN_MARK_SET (R375). -/
def execDrainMarkSet (p : Slot) (st : StreamIx) (s : State) : Result := s.actRun fun b => b.drainMarkSet p.toNat st.toNat

/-! ### Slots (R155) -/

/-- The slot of a chunk in a sliver. -/
def Box.slotOf (s : Box) (sl st e c : Nat) : Option ChunkSlot :=
  (s.sliver sl).slots.find? fun x => x.stream == st && x.epoch == e && x.chunk == c

/-- Replaces the slot of a chunk, or takes a new one. -/
def Box.putSlot (s : Box) (sl : Nat) (y : ChunkSlot) : Box :=
  let v := s.sliver sl
  let same (x : ChunkSlot) : Bool := x.stream == y.stream && x.epoch == y.epoch && x.chunk == y.chunk
  s.setSliver sl { v with slots := if v.slots.any same then v.slots.map fun x => if same x then y else x
                                   else v.slots ++ [y] }

/-- Frees the slot of a chunk. -/
def Box.freeSlot (s : Box) (sl st e c : Nat) : Box :=
  let v := s.sliver sl
  s.setSliver sl { v with slots := v.slots.filter fun x => !(x.stream == st && x.epoch == e && x.chunk == c) }

/-- A slot is poisoned: it releases nothing, never completes, and its watch copies are freed (08_tumblers.md R233; 12_faults.md
R357, R358). -/
def Box.poison (s : Box) (sl st e c : Nat) : Box :=
  match s.slotOf sl st e c with
  | none => s
  | some y => s.putSlot sl { y with poisoned := true, done := false, watch := [], hold := .none, out := [], nodes := [], roots := [] }

/-! ### The canonical tree (R172, R173) -/

/-- Some contributor of the set covers a leaf of the node at relative leaf `a`, level `k`. -/
def nodeCovered (lbase : Nat) (cs : List Contrib) (a k : Nat) : Bool :=
  cs.any fun c => decide (c.leaf - lbase < a + 2 ^ k) && decide (a < c.leaf - lbase + c.lspan)

/-- Where a value at a node of part `k` gets to: the root, a staged node, or a combine with a staged sibling. -/
inductive Climb where
  | root (x : List Byte)
  | staged (nodes : List TreeNode)
  | combine (left right : List Byte) (nodes : List TreeNode) (a level : Nat)
  deriving DecidableEq, Repr

/-- One value climbs until it is the root, is staged, or meets its sibling (R173). -/
def climb (n : Nat) (covered : Nat → Nat → Bool) (part : Nat) :
    Nat → List TreeNode → Nat → Nat → List Byte → Climb
  | 0, _, _, _, x => .root x
  | fuel + 1, nodes, a, k, x =>
    if treeK n ≤ k then .root x
    else
      let b := if a / 2 ^ k % 2 = 0 then a + 2 ^ k else a - 2 ^ k
      if n ≤ b ∨ covered b k = false then climb n covered part fuel nodes (min a b) (k + 1) x
      else
        match nodes.find? fun y => y.k == part && y.a == b && y.level == k with
        | some y =>
          let rest := nodes.filter fun z => z != y
          if a < b then .combine x y.val rest a k else .combine y.val x rest b k
        | none => .staged (nodes ++ [⟨part, a, k, x⟩])

/-- A value climbs to its end with the combine `f` of the nodes at a relative leaf and a level: the staged nodes, the root's
value where it is reached, and the combines it took. -/
def climbAll (f : Nat → Nat → List Byte → List Byte → List Byte) (n : Nat) (covered : Nat → Nat → Bool) (part : Nat) :
    Nat → List TreeNode → Nat → Nat → List Byte → Nat → List TreeNode × Option (List Byte) × Nat
  | 0, nodes, _, _, x, cnt => (nodes, some x, cnt)
  | fuel + 1, nodes, a, k, x, cnt =>
    match climb n covered part 18 nodes a k x with
    | .root y => (nodes, some y, cnt)
    | .staged ns => (ns, none, cnt)
    | .combine l r ns a0 k0 => climbAll f n covered part fuel ns a0 (k0 + 1) (f a0 k0 l r) (cnt + 1)

/-- The combine of a built-in tree operator (R174, R177). -/
def builtin (g : Grp) (nelem : Nat) : List Byte → List Byte → List Byte :=
  if g.op = 9 then lsemCombine g.hdim nelem else fp64Combine nelem

/-- Bytes of staged nodes of a stream in a tent. -/
def Box.stagedTree (s : Box) (st t : Nat) : Nat :=
  (s.slivers.map fun x =>
    if x.1 % 8 = t then
      (x.2.slots.map fun c => if c.stream = st then (c.nodes.map fun y => y.val.length).sum else 0).sum
    else 0).sum

/-- Bytes of the values of staged nodes. -/
def nodeBytes (nodes : List TreeNode) : Nat := (nodes.map fun y => y.val.length).sum

/-- A contribution would need a staged node beyond TSTAGE or the region, or in a tent that rebuilds, once the nodes it combines
with are taken (R173, R176; 11_memory.md R346, R347). A kernel's value counts as long as the part.
DESIGN CHOICE, log entry 80. -/
def Box.noStage (s : Box) (st sl : Nat) (g : Grp) (nodes : List TreeNode) (cs : List Contrib) (k : Nat) (f : Frame) : Bool :=
  let a := frLeaf f - g.lbase
  let span := (cs.find? fun c => c.leaf == frLeaf f).elim 1 fun c => c.lspan
  let lv := (nodeLevel g.lcount a span).getD 0
  let x := List.replicate (64 * frPlen f) (0 : Byte)
  let (ns, root, _) := climbAll (fun _ _ _ _ => x) g.lcount (nodeCovered g.lbase cs) k 18 nodes a lv x 0
  let t := sl % 8
  let grows (used : Nat) : Nat := used - nodeBytes nodes + nodeBytes ns
  root.isNone && (s.rebuilding t || decide ((s.strm st).tstage * 2 ^ 20 < grows (s.stagedTree st t))
    || decide (s.regionBytes t 6 < grows ((s.streams.map (·.1)).map fun x => s.stagedTree x t).sum))

/-! ### Adding a part (R166, R494) -/

/-- A part goes into the accumulators of its chunk, the first of its elements at index `at_`. -/
def addPart (g : Grp) (accs : List Acc) (at_ : Nat) (f : Frame) : List Acc :=
  let n := frNelem f
  let pay := frPayload f
  let recs := if frPform f = 1 then (wideParse g.fmt n pay).getD [] else []
  accs.mapIdx fun i x =>
    if i < at_ ∨ at_ + n ≤ i then x
    else if frPform f = 1 then (match recs[i - at_]? with
      | some r => x.wide r
      | none => x)
    else x.plain g.op g.fmt n pay (i - at_)

/-- The accumulators of a chunk with the parts given, in order. -/
def sumParts (g : Grp) (e : Strm) (c : Nat) (ps : List KeptPart) : List Acc :=
  ps.foldl (fun accs q => addPart g accs (q.k * e.partElems) q.bytes) (List.replicate (e.chunkElems c) ({} : Acc))

/-! ### Results (R168, R180, R183) -/

/-- The groups of R180 of a chunk's element results. The records of a part never leave in more than 4,096 bytes, and what leaves
where they exceed that is not stated (R171).
DESIGN CHOICE, log entry 162. -/
def groupParts (g : Grp) (e : Strm) (c : Nat) (elems : List (List Byte)) : List ResultPart :=
  let k := if g.rwide then e.chunkParts c else resultGroups g (e.chunkElems c)
  (List.range k).map fun i =>
    let sp := resultSpan g e c i
    let pay := padPayload (((elems.drop (sp.1 - c * e.chunk)).take sp.2).flatMap id)
    ⟨i, sp.1, sp.2, if 4096 < pay.length then (List.range 4096).map (Config.oversize pay) else pay⟩

/-- The payload of a barrier's result (R183). -/
def barrierPayload (count : List Byte) (release : Nat) : List Byte :=
  padTo 64 0 (padTo 8 0 count ++ bytesBE 8 release)

/-- The result of an exact chunk: its frames, and the elements that set GUARD and RANGE. -/
def exactResult (g : Grp) (e : Strm) (c tlast : Nat) (accs : List Acc) : List ResultPart × Nat × Nat :=
  let rs := accs.map (elemResult g.op g.fmt g.rfmt g.rwide)
  let out := if g.barrier then
      [⟨0, c * e.chunk, 1, barrierPayload ((rs.head?.elim [] fun x => x.1)) (tlast + g.margin)⟩]
    else groupParts g e c (rs.map (·.1))
  (out, (rs.filter fun x => x.2.1).length, (rs.filter fun x => x.2.2).length)

/-- The result of a tree chunk from the roots of its parts: elements for the built-in operators, the bytes as they are
for a kernel, whose chunk leaves in one frame (R180, R230). -/
def treeResult (g : Grp) (e : Strm) (c : Nat) (roots : Sparse (Option (List Byte))) : List ResultPart :=
  let ks := List.range (e.chunkParts c)
  let root (k : Nat) : List Byte := (mapGet (fun _ => none) roots k).getD []
  if g.op = 10 then
    [⟨0, c * e.chunk, e.chunkElems c, (padPayload (ks.flatMap root)).take 4096⟩]
  else
    let w := elemBytes g.fmt g.hdim
    groupParts g e c (ks.flatMap fun k =>
      let b := root k
      (List.range (e.partLen c k)).map fun i => bytesAt b (w * i) w)

/-- The residue of some accumulator disagrees with its sum (12_faults.md R352). -/
def residueBad (accs : List Acc) : Bool := accs.any fun x => res3 x.a != x.res

/-! ### Completion (R160, R352, R357, R358) -/

/-- The parts of a chunk at hand for its recomputation, in acceptance order: retained, or in its watch copies (R200, R358). -/
def Box.partsAtHand (s : Box) (y : ChunkSlot) : List KeptPart :=
  let kept := match (s.sx y.stream).epochRec y.epoch with
    | some r => partsOf y.chunk r.kept
    | none => []
  y.arrived.filterMap fun x => (kept ++ y.watch).find? fun q => q.j == x.1 && q.k == x.2

/-- Every accepted part of a watched chunk is at hand for its twin. -/
def Box.twinParts (s : Box) (y : ChunkSlot) : Bool := decide (y.arrived.length ≤ (s.partsAtHand y).length)

/-- A completed result waits for its pre-release twin where its sliver is under watch; where it cannot be checked it is
poisoned on a quarantined sliver and released unchecked, counted in CAR_TWIN_SKIP, on any other. -/
def Box.holdWatched (s : Box) (sl : Nat) (y : ChunkSlot) : Box :=
  if s.watched sl = false ∨ y.checked = true then s.putSlot sl y
  else
    match s.twinParts y, s.twinTent (sl % 8) with
    | true, some u => s.putSlot sl { y with hold := .twin u }
    | _, _ =>
      if s.is (TMB_SLIVER_MAP_QUAR (sl % 8) (sl / 8)) then (s.putSlot sl y).poison sl y.stream y.epoch y.chunk
      else (s.putSlot sl { y with checked := true }).twinSkip

/-- The payloads that an undetected fault gives a result in place of its own. -/
def ChunkSlot.upsetOut (y : ChunkSlot) (out : List ResultPart) : List ResultPart :=
  match y.wrong with
  | none => out
  | some pays => out.mapIdx fun i o => match pays[i]? with
    | some b => { o with payload := padPayload b }
    | none => o

/-- A chunk's result is final: its flags go to the epoch, and the result waits for its release; one that has been recomputed
needs no twin (R352). -/
def Box.chunkDone (s : Box) (sl : Nat) (y : ChunkSlot) (out : List ResultPart) (guards ranges : Nat)
    (check : Bool) : Box :=
  let rel := if (s.strmGrp y.stream).barrier then some (y.tlast + (s.strmGrp y.stream).margin) else none
  let s1 := s.onRec y.stream y.epoch fun r =>
    { r with flags := (r.flags.filter fun x => x.1 != y.chunk) ++ [(y.chunk, guards, ranges)], barrier := rel }
  let z := { y with done := true }
  if check then s1.holdWatched sl { z with out := y.upsetOut out } else s1.putSlot sl { z with out := out, checked := true }

/-- An exact chunk is complete: residues are compared; a mismatch withholds the result, which is recomputed from the
retained parts or poisons the slot (R352). -/
def Box.exactDone (s : Box) (sl : Nat) (y : ChunkSlot) : Box :=
  let g := s.strmGrp y.stream
  let e := s.strm y.stream
  if residueBad y.accs then
    let s1 := ((s.count carPage 4).raiseInt carPage 6).sliverFault sl g.fmt
    match (s1.sx y.stream).epochRec y.epoch with
    | some r =>
      if s1.policy y.stream = 2 ∧ s1.chunkKept y.stream r y.chunk = true then
        let (out, gd, rg) := exactResult g e y.chunk y.tlast
          (sumParts g e y.chunk (partsOf y.chunk r.kept))
        s1.chunkDone sl y out gd rg false
      else (s1.putSlot sl y).poison sl y.stream y.epoch y.chunk
    | none => (s1.putSlot sl y).poison sl y.stream y.epoch y.chunk
  else
    let (out, gd, rg) := exactResult g e y.chunk y.tlast y.accs
    s.chunkDone sl y out gd rg true

/-- Every part of every contributor has arrived (R160). -/
def Box.allArrived (s : Box) (y : ChunkSlot) : Bool :=
  decide ((s.setRange y.mset).2 * (s.strm y.stream).chunkParts y.chunk ≤ y.arrived.length)

/-! ### Faults of a tumbler (08_tumblers.md R233) -/

/-- A fault at word `pc` of an invocation, or in the tumbler's own combine: it is counted, the first is recorded, the chunk's slot is
poisoned; causes 1, 8 and 9 count against the sliver. -/
def Box.tumblerFault (s : Box) (sl st epoch chunk pc cause fcode : Nat) : Box :=
  let pg := tmbTentPage (sl % 8)
  let s2 := s.count pg 1
  let s3 :=
    if s2.is TMB_FAULT_INFO2_VALID then s2
    else
      let a := ((s2.wr TMB_FAULT_INFO0_CEPOCH epoch).wr TMB_FAULT_INFO0_CAUSE cause).wr TMB_FAULT_INFO0_STREAM st
      let b := ((a.wr TMB_FAULT_INFO1_CHUNK chunk).wr TMB_FAULT_INFO2_SLIVER sl).wr TMB_FAULT_INFO2_PC pc
      (b.wr TMB_FAULT_INFO3_FCODE fcode).put TMB_FAULT_INFO2_VALID true
  let s4 := (s3.poison sl st epoch chunk).raiseInt pg 0
  if cause = 1 ∨ cause = 8 ∨ cause = 9 then s4.sliverFault sl (s.strmGrp st).fmt else s4

/-- The tumbler has run `n` instructions more. -/
def Box.upsetTick (s : Box) (sl n : Nat) : Box :=
  match (s.sliver sl).upsetIn with
  | none => s
  | some k => s.setSliver sl { s.sliver sl with upsetIn := some (k - n) }

/-- The uncorrectable error has been met. -/
def Box.upsetMet (s : Box) (sl : Nat) : Box := s.setSliver sl { s.sliver sl with upsetIn := none }

/-! ### Invocations (08_tumblers.md R226, R228, R229) -/

/-- A register file with the registers given. -/
def entryRegs (l : List (Nat × Nat)) : List Nat := l.foldl (fun r x => r.set x.1 (x.2 % 2 ^ 32)) (List.replicate 32 0)

/-- The registers that every entry sets (R228). -/
def commonRegs (g : Grp) (e : Strm) : List (Nat × Nat) := [(8, e.part), (9, g.hdim), (10, g.fmt), (11, g.lcount)]

/-- What an invocation of a kernel is of: its image, the group, the stream, the epoch and the chunk. -/
structure KCtx where
  img   : List Byte
  g     : Grp
  n     : Strm
  epoch : Nat
  chunk : Nat
  deriving DecidableEq, Repr

/-- The context of a stream's chunk. -/
def Box.kctx (s : Box) (st e c : Nat) : KCtx := ⟨(s.sx st).image, s.strmGrp st, s.strm st, e, c⟩

/-- OPEN or CLOSE of a chunk, with its state window. -/
def KCtx.chunkInv (x : KCtx) (state : Sparse Byte) (entry : Entry) (part : Option Part) : Inv :=
  { entry := entry, epoch := x.epoch, chunk := x.chunk, part := part, k := 0,
    pc := imgEntry x.img (if entry = .openE then 0 else 2), state := state,
    s := entryRegs (commonRegs x.g x.n ++ [(2, x.n.chunkElems x.chunk), (3, x.chunk * x.n.chunk)]) }

/-- STEP of part `k` of contributor `j`, whose LSPAN is the binding's, with the chunk's state window. -/
def KCtx.stepInv (x : KCtx) (state : Sparse Byte) (part : Option Part) (f : Frame) (k j span : Nat) : Inv :=
  { entry := .stepE, epoch := x.epoch, chunk := x.chunk, part := part, k := k, pc := imgEntry x.img 1,
    opA := frPayload f, state := state,
    s := entryRegs (commonRegs x.g x.n ++ [(1, 64 * frPlen f), (2, frNelem f), (3, frElemOff f), (4, k), (5, j),
      (6, frLeaf f), (7, span)]) }

/-- COMBINE of two nodes: the left one at relative leaf `a`, level `lv`. -/
def KCtx.combineInv (x : KCtx) (k a lv : Nat) (left right : List Byte) : Inv :=
  { entry := .combineE, epoch := x.epoch, chunk := x.chunk, part := none, k := k, a := a, level := lv,
    pc := imgEntry x.img 3, opA := left, opB := right,
    s := entryRegs (commonRegs x.g x.n ++ [(1, left.length), (2, x.n.partLen x.chunk k),
      (3, x.chunk * x.n.chunk + k * x.n.partElems), (4, lv), (5, a), (6, min (a + 2 ^ (lv + 1)) x.g.lcount - a),
      (12, right.length)]) }

/-- An invocation starts on a sliver's tumbler, counted in TMB_INVOKE and for the sliver itself. -/
def Box.invoke (s : Box) (sl : Nat) (v : Inv) : Box :=
  let x := s.sliver sl
  (s.setSliver sl { x with inv := some v, invokes := x.invokes + 1 }).count (tmbTentPage (sl % 8)) 0

/-- OPEN or CLOSE of a chunk. -/
def Box.invokeChunk (s : Box) (sl : Nat) (y : ChunkSlot) (entry : Entry) (part : Option Part) : Box :=
  s.invoke sl ((s.kctx y.stream y.epoch y.chunk).chunkInv y.kstate entry part)

/-- LSPAN of contributor `j` of a binding. -/
def Box.spanOf (s : Box) (mset j : Nat) : Nat := (s.contribs mset)[j]?.elim 1 fun x => x.lspan

/-- STEP of a part. -/
def Box.invokeStep (s : Box) (sl : Nat) (y : ChunkSlot) (q : Part) (k : Nat) : Box :=
  s.invoke sl ((s.kctx y.stream y.epoch y.chunk).stepInv y.kstate (some q) q.frame k q.j (s.spanOf y.mset q.j))

/-- COMBINE of two nodes: the left one at relative leaf `a`, level `lv`. -/
def Box.invokeCombine (s : Box) (sl : Nat) (y : ChunkSlot) (k a lv : Nat) (left right : List Byte) : Box :=
  s.invoke sl ((s.kctx y.stream y.epoch y.chunk).combineInv k a lv left right)

/-! ### Tree chunks -/

/-- The chunk is complete once every part has its root (R160, R173). -/
def Box.treeDone (s : Box) (sl : Nat) (y : ChunkSlot) : Box :=
  let e := s.strm y.stream
  if s.allArrived y = true ∧ e.chunkParts y.chunk ≤ y.roots.length then
    s.chunkDone sl y (treeResult (s.strmGrp y.stream) e y.chunk y.roots) 0 0 true
  else s.putSlot sl y

/-- A kernel's value climbs: to the root, to staging, or to its next COMBINE (R173, R179).
DEDUCED, log entry 78. -/
def Box.treeKernel (s : Box) (sl : Nat) (y : ChunkSlot) (k a lv : Nat) (x : List Byte) : Box :=
  let g := s.strmGrp y.stream
  let cs := s.contribs y.mset
  match climb g.lcount (nodeCovered g.lbase cs) k 18 y.nodes a lv x with
  | .root b => s.treeDone sl { y with roots := mapSet (fun _ => none) y.roots k (some b) }
  | .staged ns => s.putSlot sl { y with nodes := ns }
  | .combine l r ns a0 k0 =>
    let z := { y with nodes := ns }
    (s.putSlot sl z).invokeCombine sl z k a0 k0 l r

/-- A contribution of a built-in tree operator climbs with the tumbler's own combine, whose issue slots are not stated
(R218, 13_counters.md R390); an uncorrectable error that the tumbler meets in it is cause 8, at a place that is not stated
(08_tumblers.md R233).
DESIGN CHOICE, log entry 179. -/
def Box.treeBuiltin (s : Box) (sl : Nat) (y : ChunkSlot) (k a lv : Nat) (x : List Byte) : Box :=
  let g := s.strmGrp y.stream
  let cs := s.contribs y.mset
  let n := (s.strm y.stream).partLen y.chunk k
  let (ns, root, cnt) := climbAll (fun _ _ => builtin g n) g.lcount (nodeCovered g.lbase cs) k 18 y.nodes a lv x 0
  let (i, s1) := s.takeFree
  let s2 := if cnt = 0 then s1
    else s1.bump (tmbTentPage (sl % 8)) (3 + 4 * (sl / 8)) ((Config.freeBits i).toNat % 2 ^ 32)
  if (s.sliver sl).upsetIn.any fun n => decide (n < cnt) then
    let (pc, s3) := s1.takeFree
    ((s3.putSlot sl y).upsetMet sl).tumblerFault sl y.stream y.epoch y.chunk ((Config.freeBits pc).toNat % 16384) 8 0
  else
  let s2 := s2.upsetTick sl cnt
  match root with
  | some b => s2.treeDone sl { y with nodes := ns, roots := mapSet (fun _ => none) y.roots k (some b) }
  | none => s2.putSlot sl { y with nodes := ns }

/-! ### Opening an epoch (R157, R149) -/

/-- An epoch opens with its first accepted contribution: its record replaces an older one of the same number, epochs
two before it give up what they keep, and binding B may be promoted. -/
def Box.openEpoch (s : Box) (st e mset mepoch : Nat) : Box :=
  let n := s.strm st
  let isCur := e == n.cur
  if (if isCur then s.curOpen st else s.nextOpen st) then s
  else
    let s1 := s.setOpen st (isCur || s.curOpen st) (!isCur || s.nextOpen st)
    let x := s1.sx st
    let r : EpochRec := { epoch := e, mset := mset, mepoch := mepoch, nc := (s.setRange mset).2, bmap := s.bmap mset }
    let s2 := (s1.setSx st { x with epochs := (x.epochs.filter fun q => q.epoch != e) ++ [r] }).dropOld st
    let s3 : Box := if (s.grp n.group).boundB e ∧ n.group ∉ s2.bOpened then { s2 with bOpened := n.group :: s2.bOpened }
      else s2
    s3.promote n.group

/-! ### Taking a part (R158 steps 5 to 10, R159) -/

/-- Step 5: the chunk and part that ELEMOFF and NELEM name, with PLEN and padding right in plain form. That the elements fill whole
blocks of 32 is asked in plain form only (R163).
DESIGN CHOICE, log entry 183. -/
def partNamed (g : Grp) (e : Strm) (f : Frame) : Option (Nat × Nat) :=
  let off := frElemOff f
  let n := frNelem f
  let c := off / e.chunk
  let k := off % e.chunk / e.partElems
  if off < e.elems ∧ off % e.chunk % e.partElems = 0 ∧ k < e.part ∧ n = e.partLen c k then
    if frPform f = 1 then some (c, k)
    else if ((g.fmt = 5 ∨ g.fmt = 6) ∧ n % 32 ≠ 0) ∨ frPlen f ≠ ceilDiv (plainBytes g.op g.fmt g.hdim n) 64
        ∨ plainPadOk g.op g.fmt g.hdim n (frPayload f) = false then none
    else some (c, k)
  else none

/-- The checks of the owning sliver in order: chunk and part, or the index of the CAR counter. What Midway has checked
is checked again against an ABORT or a RELEASE in between, but not the binding that the contribution passed step 3 under (R149).
DESIGN CHOICE, log entries 80, 181. -/
def Box.takeCheck (s : Box) (sl : Nat) (q : Part) : Except Nat (Nat × Nat) :=
  let f := q.frame
  let st := frStream f
  let n := s.strm st
  let g := s.strmGrp st
  if (n.state ≠ 2 ∧ n.state ≠ 3) ∨ n.group ≠ frGroup f then .error 0
  else if (s.sx st).gen ≠ q.gen ∨ s.epochOk st (frCepoch f) = false then .error 1
  else
    match partNamed g n f with
    | none => .error 3
    | some (c, k) =>
      let y := s.slotOf sl st (frCepoch f) c
      if y.isNone ∧ n.slots ≤ (s.sliver sl).slots.length then .error 4
      else if y.any fun z => decide ((q.j, k) ∈ z.arrived) then .error 5
      else if frCrcOk f = false then .error 7
      else if crc64 (frPayload f) ≠ frFprint f then .error 8
      else if frPform f = 1 ∧ (wideParse g.fmt (frNelem f) (frPayload f)).isNone then .error 6
      else if s.strmMode st = 1 ∧ y.any ChunkSlot.poisoned = false ∧ s.noStage st sl g (y.elim [] fun z => z.nodes) (s.contribs q.mset) k f then .error 4
      else .ok (c, k)

/-- A contribution fails its CRC-32C or its fingerprint: CAR cause 0 of the ingress tent, and a suspect of kind 3 when
THRESH of them lie within WINDOW (12_faults.md R368, R465).
DEDUCED, log entry 64. -/
def Box.contribError (s : Box) (p st : Nat) : Box :=
  let window := s.rd MGT_FAULT_CFG_WINDOW * 640000000
  let old := (mapGet (fun _ => []) s.portErrs p).filter fun t => decide (s.raw < t + window)
  let now := old ++ [s.raw]
  let s1 : Box := { s with portErrs := mapSet (fun _ => []) s.portErrs p now }
  let s2 := s1.raiseInt (carTentPage (p / 256)) 0
  if now.length = s.rd MGT_FAULT_CFG_THRESH then s2.postSuspect 3 p st 0 0 0 0 else s2

/-- Bytes of watch copies in a tent. -/
def Box.watchBytes (s : Box) (t : Nat) : Nat :=
  (s.slivers.map fun x =>
    if x.1 % 8 = t then (x.2.slots.map fun c => (c.watch.map fun q => q.bytes.length).sum).sum else 0).sum

/-- A watched sliver keeps a copy of an accepted part that Safety Net does not hold, in the uncommitted part of
region 5 (12_faults.md R358). -/
def Box.watchKeep (s : Box) (sl : Nat) (y : ChunkSlot) (j k : Nat) (f : Frame) : ChunkSlot :=
  let b := f.take (64 + 64 * frPlen f)
  let held := (s.sx y.stream).epochs.any fun r =>
    r.epoch == y.epoch && r.kept.any fun q => q.chunk == y.chunk && q.j == j && q.k == k
  if s.watched sl = false ∨ held = true ∨ s.poolFree (sl % 8) 5 * 2 ^ 20 < s.watchBytes (sl % 8) + b.length then y
  else { y with watch := y.watch ++ [⟨y.chunk, j, k, b⟩] }

/-- What a fault changes as a part is taken: one accumulator but not its residue, or the result's payloads (12_faults.md R352,
R354). -/
def ChunkSlot.upset (y : ChunkSlot) : Upset → ChunkSlot
  | .sum i d => { y with accs := y.accs.mapIdx fun n x => if n = i then { x with a := x.a + d } else x }
  | .result pays => { y with wrong := some pays }
  | _ => y

/-- A part that has passed every check is taken: its epoch opens, its copies are kept, and it is added, staged or given
to the kernel (R159). -/
def Box.acceptPart (s : Box) (sl : Nat) (q : Part) (c k : Nat) (up : Upset) : Box :=
  let f := q.frame
  let st := frStream f
  let e := frCepoch f
  let s1 := s.openEpoch st e q.mset q.mepoch
  let n := s1.strm st
  let g := s1.strmGrp st
  let fresh := (s1.slotOf sl st e c).isNone
  let y0 := (s1.slotOf sl st e c).getD
    { stream := st, epoch := e, chunk := c, mset := q.mset, mepoch := q.mepoch, opened := s1.raw,
      accs := if s1.strmMode st = 0 then List.replicate (n.chunkElems c) {} else [] }
  let s2 := (s1.keepPart st e c q.j k (sl % 8) f).stageFp st e c q.j k (frFprint f)
  let y1 := { y0 with arrived := y0.arrived ++ [(q.j, k)], tlast := max y0.tlast q.stamp.whole }
  if y1.poisoned then s2.putSlot sl y1
  else
    let x := s2.watchKeep sl y1 q.j k f
    let y := x.upset up
    match s2.strmMode st with
    | 0 =>
      let z := { x with accs := addPart g x.accs (k * n.partElems) f }.upset up
      if s2.allArrived z then s2.exactDone sl z else s2.putSlot sl z
    | 1 =>
      let a := frLeaf f - g.lbase
      let lv := (nodeLevel g.lcount a (s2.spanOf q.mset q.j)).getD 0
      if g.op = 10 then s2.treeKernel sl y k a lv (frPayload f) else s2.treeBuiltin sl y k a lv (frPayload f)
    | _ =>
      if fresh = true ∧ imgHas (s2.sx st).image 0 = true then (s2.putSlot sl y).invokeChunk sl y .openE (some q)
      else (s2.putSlot sl y).invokeStep sl y q k

/-- The sliver takes the first part of its intake that has arrived whole, while no invocation runs (R159, R226).
DEDUCED, log entry 81. -/
def Box.takePart (s : Box) (sl : Nat) (up : Upset) : Box :=
  let v := s.sliver sl
  match v.inv, v.intake.find? fun q => decide (q.arrived = q.total) with
  | none, some q =>
    let s0 := s.setSliver sl { v with intake := v.intake.erase q }
    let p := q.port
    let tr := traceStage q.trace 4 (s.tick32 (sl % 8))
    let s1 := s0.traceExit (sl % 8) tr none 5 q.frame
    match s1.takeCheck sl q with
    | .ok (c, k) => s1.acceptPart sl q c k up
    | .error i =>
      let s2 := s1.carCount i p
      if i = 7 ∨ i = 8 then s2.contribError p (frStream q.frame) else s2
  | _, _ => s

/-! ### Release (R111, R157, R180, R196) -/

/-- Result cells of a stream in use in a tent. -/
def Box.quotaUsed (s : Box) (st t : Nat) : Nat :=
  ((s.results.filter fun r => r.stream == st && r.tent == t).map fun r => r.cells.length).sum

/-- The result frames of a slot that the stream's quota holds go out, in order; what is left stays (R111). -/
def Box.releaseFrames (sl st : Nat) (r : EpochRec) : Nat → ChunkSlot → Box → ChunkSlot × Box
  | 0, y, s => (y, s)
  | fuel + 1, y, s =>
    match y.out with
    | [] => (y, s)
    | o :: os =>
      let f := s.resultFrame st r o
      let n := frCells f
      let t := sl % 8
      if (s.strm st).rquota < s.quotaUsed st t + n then (y, s)
      else
        let (cs, s1) := s.allocCells t n
        let s2 := s1.queueResult st r.epoch y.chunk o.part t f (s.strmGrp st).dest r.bmap cs false
        let s3 := (s2.onRec st r.epoch fun z => { z with rfps := z.rfps ++ [(y.chunk, o.part, frFprint f)] }).keepResult
          st r.epoch y.chunk o.part t f
        Box.releaseFrames sl st r fuel { y with out := os } s3

/-- CUR advances past every complete epoch; each asks for its seal record, and for the amendments it owes, in epoch
order (R157, R196, R208).
DEDUCED, log entry 69. -/
def Box.advance (st : Nat) : Nat → Box → Box
  | 0, s => s
  | fuel + 1, s =>
    let cur := (s.strm st).cur
    match (s.sx st).epochRec cur with
    | some r =>
      if r.done = true ∧ s.curOpen st = true then
        let s2 := s.sealAsk st r
        Box.advance st fuel ((s2.setCur st ((cur + 1) % 65536)).setOpen st (s.nextOpen st) false)
      else s
    | none => s

/-- Every chunk of an epoch has been released (R157, R169): its flags are counted and shown, its leftover slots are
freed, CUR advances, binding B may be promoted and a draining stream ends. -/
def Box.epochDone (s : Box) (st : Nat) (r : EpochRec) : Box :=
  let s1 := s.onRec st r.epoch fun z => { z with done := true, tdone := s.nowTick }
  let s2 := (s1.bump carPage 0 r.guards).bump carPage 1 r.ranges
  let s3 := s2.setStrm st 4 2 2 (2 * b2n (decide (0 < r.guards)) + b2n (decide (0 < r.ranges)))
  let s4 := if 0 < r.guards + r.ranges then s3.raiseInt carPage 1 else s3
  let drop (v : Sliver) : Sliver := { v with slots := v.slots.filter fun c => !(c.stream == st && c.epoch == r.epoch) }
  let s5 : Box := { s4 with slivers := (s4.slivers.map fun x => (x.1, drop x.2)).filter fun x => x.2 ≠ {} }
  ((Box.advance st 3 s5).promote (s.strm st).group).drainEnd st

/-- A chunk's last result frame has been released: its slot is freed, a twin may start, and its epoch may be complete. -/
def Box.chunkReleased (s : Box) (sl : Nat) (y : ChunkSlot) : Box :=
  let st := y.stream
  let s1 := (s.freeSlot sl st y.epoch y.chunk).onRec st y.epoch fun r =>
    { r with released := if y.chunk ∈ r.released then r.released else r.released ++ [y.chunk] }
  let s2 := s1.twinStart st y.epoch y.chunk
  match (s2.sx st).epochRec y.epoch with
  | some r => if (s2.strm st).chunks ≤ r.released.length ∧ r.done = false then s2.epochDone st r else s2
  | none => s2

/-- The first slot of the sliver that may release its result does (R111, R160, R180); one that has completed before its sliver came
under watch waits for its twin first (12_faults.md R357). -/
def Box.releaseResult (s : Box) (sl : Nat) : Box :=
  match (s.sliver sl).slots.find? fun y => y.done && !y.poisoned && y.hold == .none && y.out != [] with
  | none => s
  | some y =>
    match (s.sx y.stream).epochRec y.epoch with
    | none => s
    | some r =>
      if s.watched sl = true ∧ y.checked = false then s.holdWatched sl y
      else
        let (z, s1) := Box.releaseFrames sl y.stream r y.out.length { y with checked := true } s
        if z.out = [] then s1.chunkReleased sl z else s1.putSlot sl z

/-- RESULT_RELEASE (R180). -/
def execResultRelease (sl : SliverIx) (s : State) : Result := s.actRun fun b => b.releaseResult sl.toNat

/-! ### Stalls (R160; 12_faults.md R368) -/

/-- A slot open for CAR_STALL_TK ticks without completing: CAR cause 0, CAR_STALL_INFO, and a suspect of kind 2 where a
contributor is missing. -/
def Box.slotStall (s : Box) (st e c : Nat) : Box :=
  let sl := (s.strm st).owner c
  match s.slotOf sl st e c with
  | none => s
  | some y =>
    let lim := s.rd CAR_STALL_TK_LIMIT
    if lim = 0 ∨ y.stalled = true ∨ y.done = true ∨ s.raw < y.opened + lim then s
    else
      let parts := (s.strm st).chunkParts c
      let cs := s.contribs y.mset
      let miss := (List.range cs.length).find? fun j => (y.arrived.filter fun x => x.1 == j).length < parts
      let (i, s1) := (s.putSlot sl { y with stalled := true }).takeFree
      let m := miss.getD ((Config.freeBits i).toNat % 8192)
      let s2 := (((s1.wr CAR_STALL_INFO0_CEPOCH e).wr CAR_STALL_INFO0_STREAM st).wr CAR_STALL_INFO1_CHUNK c).wr
        CAR_STALL_INFO2_MISSING m
      let s3 := s2.raiseInt carPage 0
      match miss with
      | some j => s3.postSuspect 2 ((cs[j]?.elim 0 fun x => x.port)) st e y.mepoch j c
      | none => s3

/-- SLOT_STALL (R160). -/
def execSlotStall (st : StreamIx) (e : BitVec 16) (c : Word) (s : State) : Result :=
  s.actRun fun b => b.slotStall st.toNat e.toNat c.toNat

/-! ### Watch (12_faults.md R357, R363) -/

/-- Firmware clears a sliver's watch bit WINDOW seconds after its last event, unless it is quarantined or its
substitution is pending (R357, R363). -/
def Box.watchExpire (s : Box) (sl : Nat) : Box :=
  let window := s.rd MGT_FAULT_CFG_WINDOW * 640000000
  let recent := s.events.any fun x => x.cls == 7 && x.unit == sl / 8 && x.tent == sl % 8 && decide (s.raw < x.raw + window)
  if recent = true ∨ s.is (TMB_SLIVER_MAP_QUAR (sl % 8) (sl / 8)) = true ∨ sl ∈ s.substs then s
  else s.put { CAR_WATCH_WATCH (sl / 32) with lo := sl % 32, width := 1 } false

/-- WATCH_EXPIRE (R357). -/
def execWatchExpire (sl : SliverIx) (s : State) : Result := s.actRun fun b => b.watchExpire sl.toNat

end Sys2Proof.Machine
end

