-- ==== Sys2Proof/Machine/TumblerRun.lean ====
section
/-!
DEFINITION. The instructions of a tumbler as commands (08_tumblers.md R226 to R250): each runs on a sliver whose
invocation has reached exactly that word, and the ends of invocations, by EXIT (R230) or by a fault (R233).
-/

namespace Sys2Proof.Machine

/-! ### The end of an invocation -/

/-- A fault ends the invocation, and its slots are wasted (R233). -/
def Box.invFault (s : Box) (sl st : Nat) (v : Inv) (cause fcode : Nat) : Box :=
  ((s.setSliver sl { s.sliver sl with inv := none }).bump (tmbTentPage (sl % 8)) (3 + 4 * (sl / 8) + 1) v.slots).tumblerFault sl st
    v.epoch v.chunk v.pc cause fcode

/-- The bytes an invocation leaves as its result, the first of its result window, padded to whole units (R229, R230). -/
def Inv.output (v : Inv) : List Byte := padPayload (mapRange (fun _ => 0) v.result 0x10000 (v.sr 1))

/-- EXIT ends the invocation (R226, R230): OPEN is followed by its STEP, the STEP that completes the chunk by CLOSE,
CLOSE by the result, COMBINE by the climb of the combined node. -/
def Box.invExit (s : Box) (sl st : Nat) (v : Inv) : Box :=
  if (v.entry = .closeE ∨ v.entry = .combineE) ∧ 4096 < v.sr 1 then s.invFault sl st v 7 0
  else
    let s1 := (s.setSliver sl { s.sliver sl with inv := none }).bump (tmbTentPage (sl % 8)) (3 + 4 * (sl / 8)) v.slots
    match s1.slotOf sl st v.epoch v.chunk with
    | none => s1
    | some y =>
      let z := { y with kstate := v.state }
      match v.entry with
      | .openE =>
        match v.part with
        | some q => (s1.putSlot sl z).invokeStep sl z q (((partNamed (s.strmGrp st) (s.strm st) q.frame).elim 0 fun x => x.2))
        | none => s1.putSlot sl z
      | .stepE => if s1.allArrived z then (s1.putSlot sl z).invokeChunk sl z .closeE none else s1.putSlot sl z
      | .closeE =>
        let e := s1.strm st
        s1.chunkDone sl { y with kstate := [] } [⟨0, v.chunk * e.chunk, e.chunkElems v.chunk, v.output⟩] 0 0 true
      | .combineE => s1.treeKernel sl y v.k v.a (v.level + 1) v.output

/-- A part is taken; an uncorrectable error of the tumbler strikes in what it leads to (R217, R233).
DESIGN CHOICE, log entry 179. -/
def Box.takeUpset (s : Box) (sl : Nat) (up : Upset) : Box :=
  match up with
  | .tumbler n => (s.setSliver sl { s.sliver sl with upsetIn := some n }).takePart sl up
  | _ => s.takePart sl up

/-- SLIVER_TAKE_PART (06_collectives.md R159). -/
def execSliverTakePart (sl : SliverIx) (upset : Upset) (s : State) : Result :=
  s.actRun fun b => b.takeUpset sl.toNat upset

/-! ### One instruction -/

/-- The entry's number in the image. -/
def Entry.ix : Entry → Nat
  | .openE => 0
  | .stepE => 1
  | .closeE => 2
  | .combineE => 3

/-- The word at a word index: nothing lies beyond the code. -/
def kWordAt (img : List Byte) (pc : Nat) : Nat := if pc < imgCodeWords img then imgCode img pc else 0

/-- A sliver's tumbler runs the instruction word `w` where its invocation has reached it: an uncorrectable error that it meets there
faults with cause 8, an illegal word with cause 1, slots beyond the loader's figure with cause 9.
DEDUCED, log entry 76. -/
def Box.kRun (s : Box) (sl w : Nat) (f : List Byte → Inv → KOut) : Box :=
  match (s.sliver sl).inv, s.sliverOwner sl with
  | some v, some st =>
    let img := (s.sx st).image
    if kWordAt img v.pc ≠ w then s
    else if (s.sliver sl).upsetIn = some 0 then (s.upsetMet sl).invFault sl st v 8 0
    else
    let s := s.upsetTick sl 1
    if kLegal w = false then s.invFault sl st v 1 0
    else
      let v1 := { v with slots := v.slots + kCost w }
      if imgW img v.entry.ix < v1.slots then s.invFault sl st v1 9 0
      else
        let keep (x : Inv) : Box := s.setSliver sl { s.sliver sl with inv := some x }
        match f img v1 with
        | .next x => keep (x.enter img (v.pc + 1) none)
        | .jump x pc => keep (x.enter img pc none)
        | .loop x pc => keep (x.enter img pc (some v.pc))
        | .exit => s.invExit sl st v1
        | .fault c fc => s.invFault sl st v1 c fc
  | _, _ => s

/-- The word at the sliver's invocation is no instruction (R237). -/
def Box.kIllegal (s : Box) (sl : Nat) : Box :=
  match (s.sliver sl).inv, s.sliverOwner sl with
  | some v, some st => if kLegal (kWordAt (s.sx st).image v.pc) then s else s.invFault sl st v 1 0
  | _, _ => s

/-- ILLEGAL_INSTRUCTION_WORD (R237). -/
def execIllegalInstructionWord (sl : SliverIx) (s : State) : Result := s.actRun fun b => b.kIllegal sl.toNat

/-- An instruction that writes one scalar register. -/
def kScalar (d : Nat) (f : Inv → Nat) (_ : List Byte) (v : Inv) : KOut := .next (v.setS d (f v))

/-- SALU (R241). -/
def execSalu (sl : SliverIx) (d a b : Reg5) (func : BitVec 8) (s : State) : Result :=
  s.actRun fun x => x.kRun sl.toNat (encR 0x01 d.toNat a.toNat b.toNat func.toNat)
    (kScalar d.toNat fun v => salu func.toNat (v.sr a.toNat) (v.sr b.toNat))

/-- ADDI (R236): the immediate is sign-extended. -/
def execAddi (sl : SliverIx) (d a : Reg5) (imm : BitVec 16) (s : State) : Result :=
  s.actRun fun x => x.kRun sl.toNat (encI 0x02 d.toNat a.toNat imm.toNat)
    (kScalar d.toNat fun v => ofSigned 32 ((v.sr a.toNat : Int) + toSigned 16 imm.toNat))

/-- ANDI (R236). -/
def execAndi (sl : SliverIx) (d a : Reg5) (imm : BitVec 16) (s : State) : Result :=
  s.actRun fun x => x.kRun sl.toNat (encI 0x03 d.toNat a.toNat imm.toNat)
    (kScalar d.toNat fun v => v.sr a.toNat &&& imm.toNat)

/-- ORI (R236). -/
def execOri (sl : SliverIx) (d a : Reg5) (imm : BitVec 16) (s : State) : Result :=
  s.actRun fun x => x.kRun sl.toNat (encI 0x04 d.toNat a.toNat imm.toNat)
    (kScalar d.toNat fun v => v.sr a.toNat ||| imm.toNat)

/-- XORI (R236). -/
def execXori (sl : SliverIx) (d a : Reg5) (imm : BitVec 16) (s : State) : Result :=
  s.actRun fun x => x.kRun sl.toNat (encI 0x05 d.toNat a.toNat imm.toNat)
    (kScalar d.toNat fun v => v.sr a.toNat ^^^ imm.toNat)

/-- LUI (R236). -/
def execLui (sl : SliverIx) (d a : Reg5) (imm : BitVec 16) (s : State) : Result :=
  s.actRun fun x => x.kRun sl.toNat (encI 0x06 d.toNat a.toNat imm.toNat) (kScalar d.toNat fun _ => imm.toNat * 2 ^ 16)

/-- A shift by a constant: SHLI, SHRI or SRAI (R236, R241). -/
def shiftImm (imm x : Nat) : Nat := salu (5 + imm / 2 ^ 14) x (imm % 32)

/-- SHIFTI (R236). -/
def execShifti (sl : SliverIx) (d a : Reg5) (imm : BitVec 16) (s : State) : Result :=
  s.actRun fun x => x.kRun sl.toNat (encI 0x07 d.toNat a.toNat imm.toNat)
    (kScalar d.toNat fun v => shiftImm imm.toNat (v.sr a.toNat))

/-- SFPU (R241). -/
def execSfpu (sl : SliverIx) (d a b : Reg5) (func : BitVec 8) (s : State) : Result :=
  s.actRun fun x => x.kRun sl.toNat (encR 0x08 d.toNat a.toNat b.toNat func.toNat)
    (kScalar d.toNat fun v => sfpu func.toNat (v.sr a.toNat) (v.sr b.toNat))

/-- FFMA (R236). -/
def execFfma (sl : SliverIx) (d a b c : Reg5) (s : State) : Result :=
  s.actRun fun x => x.kRun sl.toNat (encF 0x09 d.toNat a.toNat b.toNat c.toNat)
    (kScalar d.toNat fun v => fma32 (v.sr a.toNat) (v.sr b.toNat) (v.sr c.toNat))

/-- LDW (R246). -/
def execLdw (sl : SliverIx) (t base : Reg5) (off : BitVec 13) (s : State) : Result :=
  s.actRun fun x => x.kRun sl.toNat (encM 0x10 t.toNat base.toNat 0 off.toNat)
    (kLoad 4 false t.toNat base.toNat off.toNat)

/-- LDH (R246). -/
def execLdh (sl : SliverIx) (t base : Reg5) (off : BitVec 13) (s : State) : Result :=
  s.actRun fun x => x.kRun sl.toNat (encM 0x11 t.toNat base.toNat 0 off.toNat)
    (kLoad 2 true t.toNat base.toNat off.toNat)

/-- LDHU (R246). -/
def execLdhu (sl : SliverIx) (t base : Reg5) (off : BitVec 13) (s : State) : Result :=
  s.actRun fun x => x.kRun sl.toNat (encM 0x12 t.toNat base.toNat 0 off.toNat)
    (kLoad 2 false t.toNat base.toNat off.toNat)

/-- LDB (R246). -/
def execLdb (sl : SliverIx) (t base : Reg5) (off : BitVec 13) (s : State) : Result :=
  s.actRun fun x => x.kRun sl.toNat (encM 0x13 t.toNat base.toNat 0 off.toNat)
    (kLoad 1 true t.toNat base.toNat off.toNat)

/-- LDBU (R246). -/
def execLdbu (sl : SliverIx) (t base : Reg5) (off : BitVec 13) (s : State) : Result :=
  s.actRun fun x => x.kRun sl.toNat (encM 0x14 t.toNat base.toNat 0 off.toNat)
    (kLoad 1 false t.toNat base.toNat off.toNat)

/-- STW (R246). -/
def execStw (sl : SliverIx) (t base : Reg5) (off : BitVec 13) (s : State) : Result :=
  s.actRun fun x => x.kRun sl.toNat (encM 0x15 t.toNat base.toNat 0 off.toNat)
    (kStore 4 t.toNat base.toNat off.toNat)

/-- STH (R246). -/
def execSth (sl : SliverIx) (t base : Reg5) (off : BitVec 13) (s : State) : Result :=
  s.actRun fun x => x.kRun sl.toNat (encM 0x16 t.toNat base.toNat 0 off.toNat)
    (kStore 2 t.toNat base.toNat off.toNat)

/-- STB (R246). -/
def execStb (sl : SliverIx) (t base : Reg5) (off : BitVec 13) (s : State) : Result :=
  s.actRun fun x => x.kRun sl.toNat (encM 0x17 t.toNat base.toNat 0 off.toNat)
    (kStore 1 t.toNat base.toNat off.toNat)

/-- VLD (R246). -/
def execVld (sl : SliverIx) (t base : Reg5) (pg : Reg3) (off : BitVec 13) (s : State) : Result :=
  s.actRun fun x => x.kRun sl.toNat (encM 0x18 t.toNat base.toNat pg.toNat off.toNat)
    (kVld t.toNat base.toNat pg.toNat off.toNat)

/-- VST (R246). -/
def execVst (sl : SliverIx) (t base : Reg5) (pg : Reg3) (off : BitVec 13) (s : State) : Result :=
  s.actRun fun x => x.kRun sl.toNat (encM 0x19 t.toNat base.toNat pg.toNat off.toNat)
    (kVst t.toNat base.toNat pg.toNat off.toNat)

/-- BEQ (R247). -/
def execBeq (sl : SliverIx) (a b : Reg5) (off : BitVec 16) (s : State) : Result :=
  s.actRun fun x => x.kRun sl.toNat (encI 0x20 a.toNat b.toNat off.toNat)
    fun _ v => kBranch (branchTaken 0 (v.sr a.toNat) (v.sr b.toNat)) 16 off.toNat v

/-- BNE (R247). -/
def execBne (sl : SliverIx) (a b : Reg5) (off : BitVec 16) (s : State) : Result :=
  s.actRun fun x => x.kRun sl.toNat (encI 0x21 a.toNat b.toNat off.toNat)
    fun _ v => kBranch (branchTaken 1 (v.sr a.toNat) (v.sr b.toNat)) 16 off.toNat v

/-- BLT (R247). -/
def execBlt (sl : SliverIx) (a b : Reg5) (off : BitVec 16) (s : State) : Result :=
  s.actRun fun x => x.kRun sl.toNat (encI 0x22 a.toNat b.toNat off.toNat)
    fun _ v => kBranch (branchTaken 2 (v.sr a.toNat) (v.sr b.toNat)) 16 off.toNat v

/-- BGE (R247). -/
def execBge (sl : SliverIx) (a b : Reg5) (off : BitVec 16) (s : State) : Result :=
  s.actRun fun x => x.kRun sl.toNat (encI 0x23 a.toNat b.toNat off.toNat)
    fun _ v => kBranch (branchTaken 3 (v.sr a.toNat) (v.sr b.toNat)) 16 off.toNat v

/-- BLTU (R247). -/
def execBltu (sl : SliverIx) (a b : Reg5) (off : BitVec 16) (s : State) : Result :=
  s.actRun fun x => x.kRun sl.toNat (encI 0x24 a.toNat b.toNat off.toNat)
    fun _ v => kBranch (branchTaken 4 (v.sr a.toNat) (v.sr b.toNat)) 16 off.toNat v

/-- BGEU (R247). -/
def execBgeu (sl : SliverIx) (a b : Reg5) (off : BitVec 16) (s : State) : Result :=
  s.actRun fun x => x.kRun sl.toNat (encI 0x25 a.toNat b.toNat off.toNat)
    fun _ v => kBranch (branchTaken 5 (v.sr a.toNat) (v.sr b.toNat)) 16 off.toNat v

/-- J (R247). -/
def execKjump (sl : SliverIx) (off : BitVec 26) (s : State) : Result :=
  s.actRun fun x => x.kRun sl.toNat (encJ 0x26 off.toNat) fun _ v => kBranch true 26 off.toNat v

/-- LOOP (R247). -/
def execKloop (sl : SliverIx) (a lidx : Reg5) (off : BitVec 16) (s : State) : Result :=
  s.actRun fun x => x.kRun sl.toNat (encI 0x27 a.toNat lidx.toNat off.toNat) (kLoop a.toNat lidx.toNat off.toNat)

/-- EXIT (R230). -/
def execKexit (sl : SliverIx) (s : State) : Result := s.actRun fun x => x.kRun sl.toNat (encJ 0x28 0) fun _ _ => .exit

/-- FAULT (R233): cause 6 with its code. -/
def execKfault (sl : SliverIx) (d a : Reg5) (imm : BitVec 16) (s : State) : Result :=
  s.actRun fun x => x.kRun sl.toNat (encI 0x29 d.toNat a.toNat imm.toNat) fun _ _ => .fault 6 imm.toNat

/-- VALU (R242). -/
def execValu (sl : SliverIx) (d a b : Reg5) (pg ty : Reg3) (func : BitVec 5) (s : State) : Result :=
  s.actRun fun x => x.kRun sl.toNat
    (encV 0x30 d.toNat a.toNat b.toNat pg.toNat ty.toNat func.toNat)
    (kValu d.toNat a.toNat b.toNat pg.toNat ty.toNat func.toNat)

/-- VCMP (R242). -/
def execVcmp (sl : SliverIx) (d a b : Reg5) (pg ty : Reg3) (func : BitVec 5) (s : State) : Result :=
  s.actRun fun x => x.kRun sl.toNat
    (encV 0x31 d.toNat a.toNat b.toNat pg.toNat ty.toNat func.toNat)
    (kVcmp d.toNat a.toNat b.toNat pg.toNat ty.toNat func.toNat)

/-- VCVT (R244). -/
def execVcvt (sl : SliverIx) (d a b : Reg5) (pg ty : Reg3) (func : BitVec 5) (s : State) : Result :=
  s.actRun fun x => x.kRun sl.toNat
    (encV 0x35 d.toNat a.toNat b.toNat pg.toNat ty.toNat func.toNat)
    (kVcvt d.toNat a.toNat b.toNat pg.toNat func.toNat)

/-- VRED (R245). -/
def execVred (sl : SliverIx) (d a b : Reg5) (pg ty : Reg3) (func : BitVec 5) (s : State) : Result :=
  s.actRun fun x => x.kRun sl.toNat
    (encV 0x36 d.toNat a.toNat b.toNat pg.toNat ty.toNat func.toNat)
    (kVred d.toNat a.toNat pg.toNat ty.toNat func.toNat)

/-- VSEL (R242). -/
def execVsel (sl : SliverIx) (d a b : Reg5) (pg ty : Reg3) (func : BitVec 5) (s : State) : Result :=
  s.actRun fun x => x.kRun sl.toNat
    (encV 0x37 d.toNat a.toNat b.toNat pg.toNat ty.toNat func.toNat)
    (kVsel d.toNat a.toNat b.toNat pg.toNat ty.toNat)

/-- VXF (R242). -/
def execVxf (sl : SliverIx) (d a b : Reg5) (pg ty : Reg3) (func : BitVec 5) (s : State) : Result :=
  s.actRun fun x => x.kRun sl.toNat
    (encV 0x38 d.toNat a.toNat b.toNat pg.toNat ty.toNat func.toNat)
    (kVxf d.toNat a.toNat b.toNat pg.toNat ty.toNat func.toNat)

/-- VMOV (R242). -/
def execVmov (sl : SliverIx) (d a b : Reg5) (pg ty : Reg3) (func : BitVec 5) (s : State) : Result :=
  s.actRun fun x => x.kRun sl.toNat
    (encV 0x39 d.toNat a.toNat b.toNat pg.toNat ty.toNat func.toNat)
    (kVmov d.toNat a.toNat b.toNat pg.toNat ty.toNat func.toNat)

/-- VFMA (R243). -/
def execVfma (sl : SliverIx) (d a b c : Reg5) (pg ty : Reg3) (s : State) : Result :=
  s.actRun fun x => x.kRun sl.toNat (encV4 0x32 d.toNat a.toNat b.toNat c.toNat pg.toNat ty.toNat)
    (kVfma false false d.toNat a.toNat b.toNat c.toNat pg.toNat ty.toNat)

/-- VFMS (R243). -/
def execVfms (sl : SliverIx) (d a b c : Reg5) (pg ty : Reg3) (s : State) : Result :=
  s.actRun fun x => x.kRun sl.toNat (encV4 0x33 d.toNat a.toNat b.toNat c.toNat pg.toNat ty.toNat)
    (kVfma false true d.toNat a.toNat b.toNat c.toNat pg.toNat ty.toNat)

/-- VFNMA (R243). -/
def execVfnma (sl : SliverIx) (d a b c : Reg5) (pg ty : Reg3) (s : State) : Result :=
  s.actRun fun x => x.kRun sl.toNat (encV4 0x34 d.toNat a.toNat b.toNat c.toNat pg.toNat ty.toNat)
    (kVfma true false d.toNat a.toNat b.toNat c.toNat pg.toNat ty.toNat)

/-- PLOGIC (R242). -/
def execPlogic (sl : SliverIx) (d a b : Reg5) (func : BitVec 8) (s : State) : Result :=
  s.actRun fun x => x.kRun sl.toNat (encR 0x3A d.toNat a.toNat b.toNat func.toNat)
    (kPlogic d.toNat a.toNat b.toNat func.toNat)

/-- What RDSYS reads (R250): the tent's tick replica in two words, the low one first, the invocations of the sliver's tumbler,
its array and position, and a random word, which is a free value.
DEDUCED, log entry 77. -/
def Box.rdsys (s : Box) (sl sel i : Nat) : Nat :=
  let t := sl % 8
  let l := sl / 8
  match sel with
  | 0 => s.replTick t % 2 ^ 32
  | 1 => s.replTick t / 2 ^ 32
  | 2 => (s.sliver sl).invokes % 2 ^ 32
  | 3 => s.rd (TMB_SLIVER_MAP_ARRAY t l) * 32 + s.rd (TMB_SLIVER_MAP_POS t l)
  | _ => (Config.freeBits i).toNat % 2 ^ 32

/-- RDSYS (R250): on a sliver that belongs to no stream a diagnostic image runs it, with registers of its own; on any other it
runs as every instruction does. -/
def Box.rdsysRun (s0 : Box) (sl d sel : Nat) : Box :=
  let (i, s) := s0.takeFree
  let x := s.rdsys sl sel i
  match s.sliverOwner sl with
  | some _ => s.kRun sl (encI 0x3E d sel 0) (kScalar d fun _ => x)
  | none =>
    let v := s.sliver sl
    let r := v.diag.getD { entry := .openE, epoch := 0, chunk := 0, part := none, k := 0 }
    if kLegal (encI 0x3E d sel 0) then s.setSliver sl { v with diag := some (r.setS d x) } else s

/-- RDSYS (R250). -/
def execRdsys (sl : SliverIx) (d sel : Reg5) (s : State) : Result :=
  s.actRun fun x => x.rdsysRun sl.toNat d.toNat sel.toNat

end Sys2Proof.Machine
end

