-- ==== Sys2Proof/Machine/Recompute.lean ====
section
/-!
DEFINITION. Recomputation of a chunk from the parts at hand (07_determinism_audit.md R200, R203; 12_faults.md R355 to
R358): exact sums, the canonical tree, or the kernel fed its parts in acceptance order; with it the ends of retractions, twins
and third computations.
-/

namespace Sys2Proof.Machine

/-! ### A kernel run to its end (08_tumblers.md R226) -/

/-- What an instruction word of a library kernel does: RDSYS, which the loader refuses, has no meaning here (R236, R250). -/
def kFun (w : Nat) : List Byte → Inv → KOut :=
  let d := kD w
  let a := kA w
  let b := kB w
  let c := natField w 6 5
  let f8 := natField w 0 8
  let imm := natField w 0 16
  let off := natField w 0 13
  let mp := natField w 13 3
  let pg := natField w 8 3
  let ty := kTy w
  let fn := kFunc w
  let p4 := natField w 3 3
  let t4 := natField w 0 3
  match kOp w with
  | 0x01 => kScalar d fun v => salu f8 (v.sr a) (v.sr b)
  | 0x02 => kScalar d fun v => ofSigned 32 ((v.sr a : Int) + toSigned 16 imm)
  | 0x03 => kScalar d fun v => v.sr a &&& imm
  | 0x04 => kScalar d fun v => v.sr a ||| imm
  | 0x05 => kScalar d fun v => v.sr a ^^^ imm
  | 0x06 => kScalar d fun _ => imm * 2 ^ 16
  | 0x07 => kScalar d fun v => shiftImm imm (v.sr a)
  | 0x08 => kScalar d fun v => sfpu f8 (v.sr a) (v.sr b)
  | 0x09 => kScalar d fun v => fma32 (v.sr a) (v.sr b) (v.sr c)
  | 0x10 => kLoad 4 false d a off
  | 0x11 => kLoad 2 true d a off
  | 0x12 => kLoad 2 false d a off
  | 0x13 => kLoad 1 true d a off
  | 0x14 => kLoad 1 false d a off
  | 0x15 => kStore 4 d a off
  | 0x16 => kStore 2 d a off
  | 0x17 => kStore 1 d a off
  | 0x18 => kVld d a mp off
  | 0x19 => kVst d a mp off
  | 0x20 => fun _ v => kBranch (branchTaken 0 (v.sr d) (v.sr a)) 16 imm v
  | 0x21 => fun _ v => kBranch (branchTaken 1 (v.sr d) (v.sr a)) 16 imm v
  | 0x22 => fun _ v => kBranch (branchTaken 2 (v.sr d) (v.sr a)) 16 imm v
  | 0x23 => fun _ v => kBranch (branchTaken 3 (v.sr d) (v.sr a)) 16 imm v
  | 0x24 => fun _ v => kBranch (branchTaken 4 (v.sr d) (v.sr a)) 16 imm v
  | 0x25 => fun _ v => kBranch (branchTaken 5 (v.sr d) (v.sr a)) 16 imm v
  | 0x26 => fun _ v => kBranch true 26 (natField w 0 26) v
  | 0x27 => kLoop d a imm
  | 0x28 => fun _ _ => .exit
  | 0x29 => fun _ _ => .fault 6 imm
  | 0x30 => kValu d a b pg ty fn
  | 0x31 => kVcmp d a b pg ty fn
  | 0x32 => kVfma false false d a b c p4 t4
  | 0x33 => kVfma false true d a b c p4 t4
  | 0x34 => kVfma true false d a b c p4 t4
  | 0x35 => kVcvt d a b pg fn
  | 0x36 => kVred d a pg ty fn
  | 0x37 => kVsel d a b pg ty
  | 0x38 => kVxf d a b pg ty fn
  | 0x39 => kVmov d a b pg ty fn
  | 0x3A => kPlogic d a b f8
  | _ => fun _ v => .next v

/-- An invocation runs to its EXIT, in at most `fuel` instructions; none where it faults. Each instruction takes an issue slot,
so the slots of its entry bound them. -/
def Inv.run (img : List Byte) : Nat → Inv → Option Inv
  | 0, _ => none
  | fuel + 1, v =>
    let w := kWordAt img v.pc
    let v1 := { v with slots := v.slots + kCost w }
    if kLegal w = false ∨ imgW img v.entry.ix < v1.slots then none
    else
      match kFun w img v1 with
      | .next x => Inv.run img fuel (x.enter img (v.pc + 1) none)
      | .jump x pc => Inv.run img fuel (x.enter img pc none)
      | .loop x pc => Inv.run img fuel (x.enter img pc (some v.pc))
      | .exit => some v1
      | .fault _ _ => none

/-- The invocation at its EXIT, with all the instructions its entry may take. -/
def Inv.toExit (img : List Byte) (v : Inv) : Option Inv := Inv.run img (imgW img v.entry.ix + 1) v

/-- The state window that an OPEN or STEP leaves. -/
def KCtx.stateAfter (x : KCtx) (v : Inv) : Sparse Byte := (v.toExit x.img).elim [] fun y => y.state

/-- A streaming kernel's result from its parts in acceptance order, with the LSPAN of each contributor (R200, R226). -/
def KCtx.stream (x : KCtx) (span : Nat → Nat) (ps : List KeptPart) : List Byte :=
  let st0 := if imgHas x.img 0 then x.stateAfter (x.chunkInv [] .openE none) else []
  let st1 := ps.foldl (fun st q => x.stateAfter (x.stepInv st none q.bytes q.k q.j (span q.j))) st0
  ((x.chunkInv st1 .closeE none).toExit x.img).elim [] Inv.output

/-- The combine of a tree-only kernel for part `k`. -/
def KCtx.combine (x : KCtx) (k a lv : Nat) (l r : List Byte) : List Byte :=
  ((x.combineInv k a lv l r).toExit x.img).elim [] Inv.output

/-! ### A chunk (R200, R203) -/

/-- The roots of a chunk's parts from the parts given, under a combine for each part (06_collectives.md R173). -/
def treeRoots (f : Nat → Nat → Nat → List Byte → List Byte → List Byte) (g : Grp) (covered : Nat → Nat → Bool)
    (span : Nat → Nat) (ps : List KeptPart) : Sparse (Option (List Byte)) :=
  (ps.foldl (fun (x : List TreeNode × Sparse (Option (List Byte))) q =>
    let a := frLeaf q.bytes - g.lbase
    let lv := (nodeLevel g.lcount a (span q.j)).getD 0
    let (ns, root, _) := climbAll (f q.k) g.lcount covered q.k 18 x.1 a lv (frPayload q.bytes) 0
    (ns, match root with
      | some b => mapSet (fun _ => none) x.2 q.k (some b)
      | none => x.2)) ([], [])).2

/-- Chunk `c` of an epoch from the parts given: its result, and the elements that set GUARD and RANGE, in the arithmetic of the
original mode and under the binding of the epoch (R203). -/
def Box.recompute (s : Box) (st : Nat) (r : EpochRec) (c : Nat) (ps : List KeptPart) : List ResultPart × Nat × Nat :=
  let g := s.strmGrp st
  let e := s.strm st
  let x := s.kctx st r.epoch c
  let span := s.spanOf r.mset
  match s.strmMode st with
  | 0 => exactResult g e c (r.barrier.getD 0 - g.margin) (sumParts g e c ps)
  | 1 =>
    let f (k : Nat) : Nat → Nat → List Byte → List Byte → List Byte :=
      if g.op = 10 then x.combine k else fun _ _ => builtin g (e.partLen c k)
    (treeResult g e c (treeRoots f g (nodeCovered g.lbase (s.contribs r.mset)) span ps), 0, 0)
  | _ => ([⟨0, c * e.chunk, e.chunkElems c, x.stream span ps⟩], 0, 0)

/-- The payloads of a recomputed result. -/
def payloadsOf (x : List ResultPart × Nat × Nat) : List (List Byte) := x.1.map fun o => o.payload

/-! ### Retractions (R203) -/

/-- The recomputation of the pending retraction ends, in the payloads it has computed or, where a fault gives it others, in
those; where a part has been lost meanwhile the retraction is unrecoverable (11_memory.md R346). -/
def Box.retractDone (s : Box) (st : Nat) (faulty : Option (List (List Byte))) : Box :=
  let x := s.sx st
  match x.retract with
  | none => s
  | some q =>
    let s1 := s.setSx st { x with retract := none }
    let s2 := match x.epochRec q.epoch with
      | none => s1
      | some r =>
        if s.chunkKept st r q.chunk = false then s1.retractSend st q none (0, 0)
        else
          let v := s.recompute st r q.chunk (partsOf q.chunk r.kept)
          s1.retractSend st q (some (faulty.getD (payloadsOf v))) v.2
    (Box.retractNext st 17 s2).dropOld st

/-- RETRACT_RECOMPUTE_DONE (R203). -/
def execRetractRecomputeDone (st : StreamIx) (faulty : Option (List (List Byte))) (s : State) : Result :=
  s.actRun fun b => b.retractDone st.toNat faulty

/-! ### Twins (12_faults.md R355 to R357) -/

/-- Fingerprints of result payloads. -/
def payFps (pays : List (List Byte)) : List (BitVec 64) := pays.map fun b => crc64 (padPayload b)

/-- A held result's own fingerprints. -/
def ChunkSlot.outFps (y : ChunkSlot) : List (BitVec 64) := y.out.map fun o => crc64 o.payload

/-- What a twin or third computation of a held result gives: its own payloads, or those that a fault gives it. -/
def Box.heldPays (s : Box) (y : ChunkSlot) (faulty : Option (List (List Byte))) : List (List Byte) :=
  faulty.getD (match (s.sx y.stream).epochRec y.epoch with
    | some r => payloadsOf (s.recompute y.stream r y.chunk (s.partsAtHand y))
    | none => [])

/-- A twin completes (R356, R357): a held result is freed for release when the twin agrees and waits for a third computation when
it does not; one whose parts are no longer at hand cannot be checked (R358). -/
def Box.twinComplete (s : Box) (st e c : Nat) (faulty : Option (List (List Byte))) : Box :=
  let sl := (s.strm st).owner c
  match s.slotOf sl st e c with
  | some y =>
    match y.hold with
    | .twin u =>
      let free := { y with hold := .none }
      if s.twinParts y = false then s.holdWatched sl free
      else
        let pays := s.heldPays y faulty
        if payFps pays = y.outFps then s.putSlot sl { free with checked := true }
        else (s.putSlot sl { y with hold := .third u (pays.map padPayload) }).twinBad
    | _ => s
  | none =>
    match (s.sx st).twins.find? fun w => w.epoch == e && w.chunk == c, (s.sx st).epochRec e with
    | some w, some r =>
      if s.chunkKept st r c then s.twinPost st w (faulty.getD (payloadsOf (s.recompute st r c (partsOf c r.kept))))
      else (s.setSx st { s.sx st with twins := (s.sx st).twins.filter (· ≠ w) }).twinSkip
    | _, _ => s

/-- TWIN_COMPLETE (R356). -/
def execTwinComplete (st : StreamIx) (e : BitVec 16) (c : Word) (faulty : Option (List (List Byte))) (s : State) : Result :=
  s.actRun fun b => b.twinComplete st.toNat e.toNat c.toNat faulty

/-- The third computation of a held result ends (R357): the value two of the three share is released, with a fault
event against the third; where all differ the slot is poisoned and THREEWAY set. Without its parts it cannot be checked (R358). -/
def Box.thirdDone (s : Box) (st e c : Nat) (faulty : Option (List (List Byte))) : Box :=
  let sl := (s.strm st).owner c
  let fmt := (s.strmGrp st).fmt
  match s.slotOf sl st e c with
  | none => s
  | some y =>
    match y.hold with
    | .third u twin =>
      let free := { y with hold := .none, checked := true }
      let third := payFps (s.heldPays y faulty)
      if s.twinParts y = false then s.holdWatched sl { y with hold := .none }
      else if third = y.outFps then (s.putSlot sl free).spareFault u fmt
      else if third = payFps twin then
        let out := y.out.mapIdx fun i o => { o with payload := padPayload (twin.getD i o.payload) }
        (s.putSlot sl { free with out := out }).sliverFault sl fmt
      else (s.poison sl st e c).threeWay
    | _ => s

/-- THIRD_COMPUTE_DONE (R357). -/
def execThirdComputeDone (st : StreamIx) (e : BitVec 16) (c : Word) (faulty : Option (List (List Byte))) (s : State) :
    Result := s.actRun fun b => b.thirdDone st.toNat e.toNat c.toNat faulty

end Sys2Proof.Machine
end

