-- ==== Sys2Proof/Machine/Clock.lean ====
section
/-!
DEFINITION. One raw tick of Tightrope's oscillator with no command waiting (09_network_time.md R257): the counter advances, and
what the block counts or sets at every tick happens.
-/

namespace Sys2Proof.Machine

/-- A tent in which a fenced frame waits counts the tick in FWD_FENCE_TK (03_forwarding.md R85). -/
def Box.fenceTick (s : Box) : Box :=
  (List.range 8).foldl (fun b t => if s.descs.any fun d => d.fence && d.tent == t then b.count (fwdPage t) 1536 else b) s

/-- A port with a frame that fails the guard, staged or in a launch buffer, counts the tick in CAL_GUARD_TK
(05_egress_scheduling.md R129). -/
def Box.guardTick (s : Box) (p : Nat) : Box :=
  let g := s.gateNow p
  if ((List.range 8).any fun v => s.heldBy p v 0 g == .guard) || s.launchGuard p 0 g then s.calCount 0 p 1 else s

/-- The envelope conditions that are states set their sticky bits at every tick (07_determinism_audit.md R190): the operating
point, fabric time, a port that is not up. -/
def Box.envelopeTick (s : Box) (p : Nat) : Box :=
  let s1 := if s.is PWR_ENV_STATUS_BELOW_GUARANTEE then s.envBreak p 0 else s
  let s2 := if (s.servoState ≠ 1 ∧ s.servoState ≠ 3) ∨ s.replOff (p / 256) ≠ 0 then s1.envBreak p 1 else s1
  if s.up p then s2 else s2.envBreak p 2

/-- The ports on which a list runs or is about to run. -/
def Box.gatePorts (s : Box) : List Nat :=
  (s.listPorts ++ (s.cals.filter fun e => e.2.switchAt.isSome).map fun e => e.1).eraseDups

/-- A completed chunk of a sliver waits because its stream's result quota is full (04_buffers.md R111). -/
def Box.quotaFull (s : Box) (sl : Nat) : Bool :=
  (s.sliver sl).slots.any fun y => y.done && !y.poisoned && match (s.sx y.stream).epochRec y.epoch, y.out with
    | some r, o :: _ =>
      decide ((s.strm y.stream).rquota < s.quotaUsed y.stream (sl % 8) + frCells (s.resultFrame y.stream r o))
    | _, _ => false

/-- The empty handshakes of an idle tumbler in a tick, as many as the core's speed gives, which is not stated
(13_counters.md R390): back-starved in an invocation, and where a part in the intake cannot start because the result quota is full
or a staged sibling may still be read; front-starved where no part in the intake can start one.
DESIGN CHOICE, log entry 163. -/
def Box.starveTick (s : Box) (sl : Nat) : Box :=
  let v := s.sliver sl
  let whole := v.intake.any fun q => q.arrived == q.total
  let waits := s.quotaFull sl || v.slots.any fun y => y.nodes != []
  if v.inv = none ∧ whole = true ∧ waits = false then s
  else
    let (i, s1) := s.takeFree
    s1.bump (tmbTentPage (sl % 8)) (3 + 4 * (sl / 8) + (if v.inv = none ∧ whole = false then 2 else 3)) ((Config.freeBits i).toNat % 2 ^ 32)

/-- The slivers whose tumblers are accounted: those of streams in tree or kernel mode that are reserved, active or draining
(R390). -/
def Box.accounted (s : Box) : List Nat :=
  (s.busyStreams.filter fun st => s.strmMode st != 0 && decide (1 ≤ (s.strm st).state)).flatMap fun st => (s.strm st).slivers

/-- Table commands, table commits and plan checks that were in progress are so no more (06_collectives.md R185;
11_memory.md R348; 14_host_mgmt.md R411); a forwarding command ends with FWD_TBL_DONE.
DESIGN CHOICE, log entry 62. -/
def Box.busyTick (s : Box) : Box :=
  let s1 := if s.is CAR_TBL_STATUS_BUSY then s.put CAR_TBL_STATUS_BUSY false else s
  let s2 := if s1.fwdOp.isNone && s1.is (FWD_TBL_STATUS_BUSY 0) then s1.put (FWD_TBL_STATUS_BUSY 0) false else s1
  (List.range 8).foldl (fun b t => if b.is (MEM_PLAN_STATUS_BUSY t) then b.put (MEM_PLAN_STATUS_BUSY t) false else b) s2

/-- What a running device does at a tick: it counts its waits, looks at the envelope of every port, takes the snapshots that
are due, and sends the EVENTs that wait. -/
def Box.tickWork (s : Box) : Box :=
  let s1 := s.gatePorts.foldl (fun b p => b.guardTick p) s.fenceTick
  let s2 := s1.portSlots.foldl (fun b p => b.envelopeTick p) s1
  (s2.accounted.foldl Box.starveTick s2).busyTick.snapTick.vc6Drain

/-- The package power and the memory devices' temperatures are read again (14_host_mgmt.md R425; 17_electrical_package.md R490): no
command carries what the sensors find.
DESIGN CHOICE, log entry 164. -/
def Box.sense (s : Box) : Box :=
  let r (i : Nat) : Nat := (Config.freeBits (s.freeCtr + i)).toNat % 65536
  { s.wr PWR_PKG_W (r 0) with freeCtr := s.freeCtr + 17, memTemps := (List.range 16).map fun d => r (d + 1) }

/-- What happens at a tick while the device is out of reset: sensors are read every 1 ms, and a DOE response is ready. -/
def Box.aliveTick (s : Box) : Box :=
  let s1 : Box := { s with doeBusy := [] }
  if s1.raw % 640000 = 0 then s1.sense else s1

/-- A raw tick passes. -/
def State.tick (s : State) : State :=
  let s1 := s.onPart fun b => { b with raw := b.raw + 1 }
  let s2 := if s1.phase.alive then s1.onBox Box.aliveTick else s1
  if s1.phase = .run then s2.onBox Box.tickWork else s2

end Sys2Proof.Machine
end

