-- ==== Sys2Proof/Machine/Memory.lean ====
section
/-!
DEFINITION. The GDDR7 memory (11_memory.md): training and initialisation, refresh and maintenance slots, row sparing, the
region plan, a device failure and its rebuild, and the host's memory window (14_host_mgmt.md R412, R413).
-/

namespace Sys2Proof.Machine

/-! ### Devices (R330 to R333, R348) -/

/-- STATE of a device. -/
def Box.devState (s : Box) (d : Nat) : Nat := s.rd (MEM_DEV_STATUS_STATE (d / 2) (d % 2))

/-- A device is present: neither failed nor excluded. -/
def Box.devPresent (s : Box) (d : Nat) : Bool := s.devState d != 3 && s.devState d != 4

/-- The other device of its tent. -/
def otherDev (d : Nat) : Nat := if d % 2 = 0 then d + 1 else d - 1

/-- Usable MiB of a tent with `n` ready devices (R333). -/
def usableMib (n : Nat) : Nat :=
  match n with
  | 0 => 0
  | 1 => 66252
  | _ => 132505

/-- Spare rows of a port (R330). -/
def portSpares : Nat := 35156

/-- The key of an entry of a port's spare map; there are as many entries as spare rows. -/
def spareKey (t port i : Nat) : Nat := (t * 8 + port) * 2 ^ 20 + i

/-- Valid entries of a port's spare map. -/
def Box.sparesUsed (s : Box) (t port : Nat) : Nat :=
  (s.spares.filter fun e => e.1 / 2 ^ 20 == t * 8 + port && e.2.getLsbD 31).length

/-- SPARE_FREE of a controller: the port with the fewest. -/
def Box.spareFree (s : Box) (t c : Nat) : Box :=
  let free := ([0, 1, 2, 3].map fun k => portSpares - s.sparesUsed t (4 * c + k)).foldl min portSpares
  s.wr (MEM_DEV_STATUS_SPARE_FREE t c) free

/-- The memory error interrupt (R336). -/
def Box.memError (s : Box) (t : Nat) : Box := s.raiseInt (memPage t) 0

/-! ### Row sparing (R339) -/

/-- The first entry of a port's spare map that is not valid and whose spare row lies in the bank of a row. -/
def Box.spareSlot (s : Box) (t port row : Nat) : Option Nat :=
  (List.range portSpares).find? fun i =>
    !((mapGet (fun _ => 0) s.spares (spareKey t port i) : Word).getLsbD 31) && Config.spareBank i == Config.rowBank row

/-- A failing row is replaced by one of its bank: MEM_SPARED, the entry with POISON where a block could not be corrected; without
a free spare row the memory error interrupt is raised and the row stays in use.
DESIGN CHOICE, log entry 119. -/
def Box.spareRow (s : Box) (t port row : Nat) (poison : Bool) : Box :=
  match s.spareSlot t port row with
  | none => s.memError t
  | some i =>
    let w : Word := BitVec.ofNat 32 (2 ^ 31 + b2n poison * 2 ^ 30 + row % 2 ^ 24)
    let s1 := { s with spares := mapSet (fun _ => 0) s.spares (spareKey t port i) w }
    (s1.count (memPage t) (5 * port + 4)).spareFree t (port / 4)

/-- A present device has finished training and is not ready yet (R332). -/
def Box.waitsInit (s : Box) (d : Nat) : Bool := s.devState d != 2 && s.trained.contains d

/-- A write of the spare map window: only between the end of training and INIT (R332, R339). A port has no entry beyond its spare
rows, and a write of one changes nothing.
DESIGN CHOICE, log entry 119. -/
def Box.spareWrite (s : Box) (src : Requester) (t i a v : Nat) : Box :=
  let devs := [2 * t, 2 * t + 1].filter s.devPresent
  let at_ := 8192 * s.rd (MEM_MAP_SEL_PAGE t) + i
  if devs ≠ [] ∧ (devs.all s.waitsInit) = true ∧ t ∉ s.initing then
    let port := s.rd (MEM_MAP_SEL_PORT t)
    let k := spareKey t port at_
    let s1 := if natField v 24 6 = 0 then s else s.rsvWriteAt a src
    if portSpares ≤ at_ then s1
    else { s1 with spares := mapSet (fun _ => 0) s1.spares k (BitVec.ofNat 32 (v - natField v 24 6 * 2 ^ 24)) }.spareFree t (port / 4)
  else s.accErrAt a src

/-- A read of the spare map window: an entry that no port has reads as 0. -/
def Box.spareRead (s : Box) (t i : Nat) : Word :=
  let at_ := 8192 * s.rd (MEM_MAP_SEL_PAGE t) + i
  if portSpares ≤ at_ then 0 else mapGet (fun _ => 0) s.spares (spareKey t (s.rd (MEM_MAP_SEL_PORT t)) at_)

/-! ### What an uncorrectable read costs (R336) -/

/-- The seal of an epoch is INCOMPLETE (07_determinism_audit.md R212), in the record that waits to be written too. -/
def Box.sealLose (s : Box) (st e : Nat) : Box :=
  let job (j : SealJob) : SealJob :=
    if j.stream = st ∧ j.epoch = e then
      { j with flags := j.flags ||| 2 ^ 12, blank := true, head := listPut j.head 36 (List.replicate 8 0) }
    else j
  let waits := s.sealJobs.any fun j => j.stream == st && j.epoch == e && j.type == 1
  let s1 := s.onRec st e fun r =>
    { r with incomplete := true, sealFlags := if waits then r.sealFlags ||| 2 ^ 12 else r.sealFlags,
             sealHead := if waits then listPut r.sealHead 36 (List.replicate 8 0) else r.sealHead }
  { s1 with sealJobs := s1.sealJobs.map job }

/-- A chunk counts as not retained (07_determinism_audit.md R202, R203): neither its contributions nor its results; a replay
of its stream ends refused. -/
def Box.keptLose (s : Box) (st e c : Nat) : Box :=
  let sl := (s.strm st).owner c
  let s1 := s.onRec st e fun r =>
    { r with kept := r.kept.filter fun q => q.chunk != c, results := r.results.filter fun q => q.chunk != c }
  let s2 := match s1.slotOf sl st e c with
    | some y => s1.putSlot sl { y with watch := [] }
    | none => s1
  match s2.replay with
  | some r => if r.stream = st then { s2 with replay := some { r with broken := true } } else s2
  | none => s2

/-- The blocks of a spill block's VOQ with block `i` reading as `bytes`. -/
def Box.spillBad (s : Box) (t q i : Nat) (bytes : List Byte) : Box :=
  match s.spillOf t q with
  | none => s
  | some sp => s.setSpill t q (some { sp with blocks := sp.blocks.mapIdx fun n b => if n = i then { b with bad := some bytes } else b })

/-- What an uncorrectable block of a device held is lost as its region's rule says (R336); a block of regions that are read
through the host's window or hold mirrored copies stays uncorrectable until it is written (R334).
DESIGN CHOICE, log entry 118. -/
def Box.itemLost (s : Box) (d : Nat) (x : MemItem) : Box :=
  let t := d / 2
  let mine (st c : Nat) : Bool := (s.strm st).tentOf c == t
  match x with
  | .block r off => { s with badBlocks := (d, memKey t r (off - off % 64)) :: s.badBlocks }
  | .node st e c =>
    let sl := (s.strm st).owner c
    match s.slotOf sl st e c with
    | some y => if mine st c = true ∧ y.nodes ≠ [] then s.poison sl st e c else s
    | none => s
  | .kept st e c => if mine st c then s.keptLose st e c else s
  | .print st e c => if mine st c then s.sealLose st e else s
  | .kernel slot => { s with kernBad := (d, slot) :: s.kernBad }
  | .spill q i bytes => s.spillBad t q i bytes

/-- A refresh slot of a bank (R337): MEM_REF_CNT, the accesses that waited for it in MEM_REF_STALL, and what reads of the row and
the scrub have met: corrected errors are a fault event of the row, spared once it is lasting; uncorrectable ones are counted with
MEM cause 0, the row is spared at once, and what it held is lost (R336, R339; 12_faults.md R360).
DESIGN CHOICE, log entry 119. -/
def Box.refreshSlot (s : Box) (t port row : Nat) (w : RefreshWork) : Box :=
  let pg := memPage t
  let d := 2 * t + port / 4
  if s.devState d ≠ 2 then s
  else
    let s1 := ((s.count pg (5 * port + 2)).bump pg (5 * port + 3) w.stalls).bump pg (5 * port) w.corr
    if w.uncorr ≠ 0 then
      w.held.foldl (fun b x => b.itemLost d x) (((s1.bump pg (5 * port + 1) w.uncorr).memError t).spareRow t port row true)
    else if w.corr = 0 then s1
    else
      let unit := port * 2 ^ 24 + row
      let (k, s2) := s1.takeFree
      let s3 := s2.postFault 6 ((Config.freeBits k).toNat % 256) unit t 0
      if s3.lasting 6 unit t then s3.spareRow t port row false else s3

/-- REFRESH_SLOT (R337). -/
def execRefreshSlot (t : TentIx) (port : Reg3) (row : BitVec 24) (work : RefreshWork) (s : State) : Result :=
  s.actRun fun b => b.refreshSlot t.toNat port.toNat row.toNat work

/-- A device reports its temperature (R337): HOT above 85 °C, MEM cause 3 when it becomes set. -/
def Box.deviceHot (s : Box) (d : Nat) (hot : Bool) : Box :=
  let f := MEM_DEV_STATUS_HOT (d / 2) (d % 2)
  if hot = true ∧ s.is f = false then (s.put f true).raiseInt (memPage (d / 2)) 3 else s.put f hot

/-- MEM_DEVICE_HOT (R337). -/
def execMemDeviceHot (d : BitVec 4) (hot : Bool) (s : State) : Result := s.actRun fun b => b.deviceHot d.toNat hot

/-! ### The region plan (R340 to R343, R347) -/

/-- The sizes of a plan as the plan in force has them. -/
def Box.planNow (s : Box) (t : Nat) : List Nat := (List.range 8).map (s.planSize t)

/-- Puts a plan in force; MEM_REGION_SIZE shows it. -/
def Box.setPlan (s : Box) (t : Nat) (sizes : List Nat) : Box :=
  (List.range 8).foldl (fun (b : Box) r =>
    ({ b with plans := mapSet planDflt b.plans (8 * t + r) (sizes.getD r 0) }).wr (MEM_REGION_SIZE_MIB t r) (sizes.getD r 0)) s

/-- OVERCOMMIT follows the commitments in regions 5 and 6 (R347). -/
def Box.overcommit (s : Box) (t : Nat) : Box :=
  s.put (MEM_PLAN_STATUS_OVERCOMMIT t)
    (decide (s.planSize t 5 < s.committed t 5) || decide (s.planSize t 6 < s.committed t 6))

/-- The cost of a plan (R341). -/
def planCost (single : Bool) (sizes : List Nat) : Nat := (if single then 0 else (sizes.take 3).sum) + sizes.sum

/-- The sizes that fit below a limit, in index order: each region keeps what still fits (R347). -/
def shrinkPlan (limit : Nat) : List Nat → List Nat
  | [] => []
  | x :: xs => min x limit :: shrinkPlan (limit - min x limit) xs

/-- The plan is laid out on one device: it shrinks from region 7 downward where it does not fit (R346, R347).
DEDUCED, log entry 57. -/
def Box.shrink (s : Box) (t : Nat) : Box := (s.setPlan t (shrinkPlan (usableMib 1) (s.planNow t))).overcommit t

/-- The base of a region: the MiB of the regions below it. -/
def planBase (sizes : List Nat) (r : Nat) : Nat := (sizes.take r).sum

/-- MEM_REGION_BASE (R348). -/
def Box.regionBase (s : Box) (t r : Nat) : Nat := planBase (s.planNow t) r

/-- The first reason to reject a plan (R342), 0 where there is none. -/
def Box.planReason (s : Box) (t : Nat) (sizes : List Nat) : Nat :=
  let now := s.planNow t
  let moved (r : Nat) : Bool := sizes.getD r 0 != now.getD r 0 || planBase sizes r != planBase now r
  let sealBusy := (s.streams.map (·.1)).any fun st => s.strmBusy st && (s.strmGrp st).seals
  if s.rd (MEM_USABLE_MIB_MIB t) < planCost (s.is (MEM_PLAN_STATUS_SINGLE t)) sizes then 1
  else if moved 0 && (s.rd SEC_SEAL_HEAD_HEAD != s.rd SEC_SEAL_TAIL_TAIL || s.sealLag) then 2
  else if moved 1 && s.is MGT_DUMP_STATUS_WRITING then 3
  else if moved 3 && sealBusy then 4
  else if moved 4 && s.is (BRK_CTRL_EN t) then 5
  else if (moved 5 || moved 6) && (s.committed t 5 != 0 || s.committed t 6 != 0) then 6
  else if moved 7 && (s.rd (USH_SPILL_CTRL_EN t) != 0 || s.spilledFrames t != 0) then 7
  else if s.rebuilding t then 8
  else 0

/-- COMMIT (R342, R348): MEM cause 2 where the plan is rejected; BUSY stays to the next raw tick, and a commit written till then
is ignored with the access-error indication.
DESIGN CHOICE, log entry 62. -/
def Box.planCommit (s0 : Box) (src : Requester) (t : Nat) : Box :=
  let s := s0.put (MEM_PLAN_STATUS_BUSY t) true
  let sizes := (List.range 8).map fun r => s.rd (MEM_REGION_SIZE_MIB t r)
  let reason := s.planReason t sizes
  if s0.is (MEM_PLAN_STATUS_BUSY t) then s0.accErrAt (MEM_PLAN_CMD_at t) src
  else if reason = 0 then ((s.setPlan t sizes).overcommit t).spillStatus t
  else ((s.wr (MEM_PLAN_STATUS_REASON t) reason).put (MEM_PLAN_STATUS_REJECTED t) true).raiseInt (memPage t) 2

/-- MEM_PLAN_COMMIT (R342). -/
def execMemPlanCommit (src : Requester) (t : TentIx) (s : State) : Result :=
  s.actReg (MEM_PLAN_CMD_at t.toNat) src fun b => b.planCommit src t.toNat

/-- A write of MEM_REGION_SIZE: region 2's, and a size of region 0 in tents 1 to 7, are refused (R342). -/
def Box.regionSizeWrite (s : Box) (src : Requester) (t r a v : Nat) : Box :=
  if r = 2 ∨ (r = 0 ∧ t ≠ 0 ∧ v % 2 ^ 18 ≠ 0) then s.accErrAt a src else s.plainWrite src a v

/-! ### A device fails (R345, R346) -/

/-- The contents of regions `rs` of a tent are gone. -/
def Box.memForget (s : Box) (t : Nat) (rs : List Nat) : Box :=
  let hit (k : Nat) : Bool := decide (k / 2 ^ 40 / 8 = t) && rs.contains (k / 2 ^ 40 % 8)
  { s with mem := mapDrop s.mem hit, badBlocks := s.badBlocks.filter fun x => !hit x.2 }

/-- The sample and trace rings of a tent restart empty. -/
def Box.ringsEmpty (s : Box) (t : Nat) : Box :=
  (((s.wr (BRK_SRING_HEAD_INDEX t) 0).wr (BRK_SRING_TAIL_INDEX t) 0).wr (BRK_TRING_HEAD_INDEX t) 0).wr
    (BRK_TRING_TAIL_INDEX t) 0

/-- Epochs with fingerprints staged in the tent are sealed INCOMPLETE, with the records that wait to be written, and what is
retained in it, for Safety Net or for a watch, counts as not retained: a retraction that waits for it ends with CODE 2 (R346). -/
def Box.epochsLost (s : Box) (t : Nat) : Box :=
  let here (st : Nat) : EpochRec → EpochRec := fun r =>
    { r with kept := r.kept.filter fun q => (s.strm st).tentOf q.chunk != t, results := r.results.filter fun q => q.tent != t }
  let staged : List (Nat × Nat) := s.streams.flatMap fun x =>
    (x.2.epochs.filter fun r => r.fps.any fun q => (s.strm x.1).tentOf q.1 == t).map fun r => (x.1, r.epoch)
  let waiting : List (Nat × Nat) := (s.sealJobs.filter fun j =>
    (List.range j.chunks.length).any fun c => (s.strm j.stream).tentOf c == t).map fun j => (j.stream, j.epoch)
  let s1 : Box := { s with
    streams := s.streams.map fun x => (x.1, { x.2 with epochs := x.2.epochs.map (here x.1) }),
    slivers := s.slivers.map fun x => (x.1, if x.1 % 8 = t then { x.2 with slots := x.2.slots.map fun y => { y with watch := [] } } else x.2) }
  (staged ++ waiting).foldl (fun b x => b.sealLose x.1 x.2) s1

/-- The stream runs in tree mode. -/
def Box.treeStream (s : Box) (st : Nat) : Bool :=
  let g := s.strmGrp st
  treeOp g.op g.fmt || (g.op == 10 && imgKind (s.sx st).image == 1)

/-- Open slots of tree-mode streams in slivers of the tent are poisoned (08_tumblers.md R233). -/
def Box.treesLost (s : Box) (t : Nat) : Box :=
  (s.slivers.filter fun x => x.1 % 8 == t).foldl (fun (b : Box) x =>
    (x.2.slots.filter fun y => s.treeStream y.stream).foldl (fun c y => c.poison x.1 y.stream y.epoch y.chunk) b) s

/-- Spilled frames of the tent keep their place; what their blocks held reads as 0 at their recall, and each counts in
USH_SPILL_UNCORR, USH cause 0 (R346; 04_buffers.md R108). -/
def Box.spillLost (s : Box) (t : Nat) : Box :=
  let n := s.spilledFrames t
  let lose (x : Spill) : Spill := { x with blocks := x.blocks.map fun b => { b with gone := b.gone || b.written } }
  let out := (s.descs.filter fun d => d.spilled).map fun d => d.id
  let s1 := { s with spills := s.spills.map fun e =>
    (e.1, if e.1 / 16384 = t then lose (keepParts (fun i => decide (i ∈ out)) e.2) else e.2) }
  if n = 0 then s1 else (s1.bump (ushPage t) 2051 n).raiseInt (ushPage t) 0

/-- What every interleaved region of a tent held is lost (R346). -/
def Box.loseInterleaved (s : Box) (t : Nat) : Box :=
  ((((s.memForget t [3, 4, 5, 6, 7]).ringsEmpty t).epochsLost t).treesLost t).spillLost t

/-- A Memory Module Event Record is logged for the host (14_host_mgmt.md R414): CXL cause 2. -/
def Box.cxlEvent (s : Box) (e : CxlEvent) : Box := { s with cxlLog := s.cxlLog ++ [e] }.raiseInt cxlPage 2

/-- A replay of a stream with results in the tent is broken (12_faults.md R377). -/
def Box.replayBreak (s : Box) (t : Nat) : Box :=
  match s.replay with
  | some r => if t ∈ (s.strm r.stream).tents then { s with replay := some { r with broken := true } } else s
  | none => s

/-- Where a device physical address lies: tent, region and byte offset (14_host_mgmt.md R412). -/
def Box.winPlace (s : Box) (dpa : Nat) : Option (Nat × Nat × Nat) :=
  let u := dpa / 2 ^ 28
  if s.rd CXL_WIN_CFG_UNITS ≤ u then none
  else
    ((List.range 32).find? fun k =>
      s.is (CXL_WIN_MAP_VALID k) && decide (s.rd (CXL_WIN_MAP_FIRST k) ≤ u)
        && decide (u < s.rd (CXL_WIN_MAP_FIRST k) + s.rd (CXL_WIN_MAP_COUNT k))).map fun k =>
      (s.rd (CXL_WIN_MAP_TENT k), s.rd (CXL_WIN_MAP_REGION k), dpa - s.rd (CXL_WIN_MAP_FIRST k) * 2 ^ 28)

/-- Eight times `n` bytes of free values. -/
def Box.freeBytes (s : Box) (n : Nat) : List Byte × Box :=
  ((List.range n).flatMap fun i => bytesLE 8 (Config.freeBits (s.freeCtr + i)).toNat,
   { s with freeCtr := s.freeCtr + n })

/-- A region is mirrored (R340). -/
def mirrored (r : Nat) : Bool := decide (r ≤ 2)

/-- An uncorrectable read of a device's copy of a region (R334, R336, R339): counted on its row's port, MEM cause 0, the row spared.
The port is the data row's where the region is interleaved over both devices (R331); otherwise which port, and which row, is not
stated. -/
def Box.readUncorr (s : Box) (t c r off : Nat) : Box :=
  let (k, s1) := s.takeFree
  let v := (Config.freeBits k).toNat
  let port := if mirrored r = false ∧ s.is (MEM_PLAN_STATUS_SINGLE t) = false then off / 1984 % 8 else 4 * c + v % 4
  ((s1.count (memPage t) (5 * port + 1)).memError t).spareRow t port (v / 4) true

/-- The controllers whose device holds a byte of a region: both that are in use for a mirrored one; for an interleaved one the one of
the data row's port, or the only one in use. -/
def Box.holders (s : Box) (t r off : Nat) : List Nat :=
  let use := [0, 1].filter fun c => s.devState (2 * t + c) == 2
  if mirrored r ∨ use.length < 2 then use else [off / 1984 % 8 / 4]

/-- A read of a 64-byte block completes (R331, R336; 14_host_mgmt.md R413): zeros where nothing is mapped or beyond the region's size.
Each copy that reads uncorrectable, as `bad` says or because its block is poisoned, is counted and its row spared; where no copy reads
correctly the block returns with poison set, a seal record's bytes as zeros, others as read.
DESIGN CHOICE, log entry 118. -/
def Box.hostServe (s : Box) (dpa bad : Nat) : Box :=
  let a := dpa - dpa % 64
  let zeros : List Byte := List.replicate 64 0
  match s.winPlace a with
  | none => s.emit (.memData a zeros false)
  | some (t, r, off) =>
    if s.regionBytes t r ≤ off then s.emit (.memData a zeros false)
    else
      let fails (c : Nat) : Bool := bad.testBit c || s.badBlocks.contains (2 * t + c, memKey t r off)
      let all := s.holders t r off
      let lost := all.filter fails
      let s1 := lost.foldl (fun (b : Box) c => { b.readUncorr t c r off with
        badBlocks := (2 * t + c, memKey t r off) :: b.badBlocks.filter fun x => x != (2 * t + c, memKey t r off) }) s
      if lost.length < all.length then s1.emit (.memData a (s1.memRead t r off 64) false)
      else
        let (bs, s2) := s1.freeBytes 8
        s2.emit (.memData a (if r = 0 then zeros else bs) true)

/-- A host read waits while its region is under rebuild (R344). -/
def Box.hostWaits (s : Box) (dpa : Nat) : Bool :=
  match s.winPlace (dpa - dpa % 64) with
  | some (t, r, _) => decide (3 ≤ r) && s.rebuilding t
  | none => false

/-- The host reads that no longer wait are served (R344). -/
def Box.serveWaiting (s : Box) : Box :=
  let go := s.hostReads.filter fun q => !s.hostWaits q.1
  go.foldl (fun b q => b.hostServe q.1 q.2) { s with hostReads := s.hostReads.filter fun q => s.hostWaits q.1 }

/-- A device fails (R345): STATE 3, SINGLE and MEM cause 0; with a surviving device the tent rebuilds on it, without one
every region is lost.
DEDUCED, log entry 120. -/
def Box.deviceFail (s : Box) (d : Nat) : Box :=
  let t := d / 2
  if s.devPresent d = false then s
  else
    let s1 := ((s.wr (MEM_DEV_STATUS_STATE t (d % 2)) 3).wr (MEM_DEV_STATUS_PORT_OK t (d % 2)) 0).put
      (MEM_PLAN_STATUS_SINGLE t) true
    let s2 := (({ s1 with trained := s1.trained.filter (· ≠ d), deadDevs := d :: s1.deadDevs.filter (· ≠ d),
                          badBlocks := s1.badBlocks.filter fun x => x.1 != d, kernBad := s1.kernBad.filter fun x => x.1 != d }.memError t).cxlEvent (.deviceFail d)).replayBreak t
    if s.rd (MEM_USABLE_MIB_MIB t) = 0 then s2
    else
      let s3 := s2.loseInterleaved t
      if s.devState (otherDev d) = 2 then
        ((((s3.wr (MEM_USABLE_MIB_MIB t) (usableMib 1)).put (MEM_PLAN_STATUS_REBUILD t) true).shrink t).spillStatus t).cxlEvent
          (.rebuildStart t)
      else
        ((((s3.memForget t [0, 1, 2]).wr (MEM_USABLE_MIB_MIB t) 0).put (MEM_PLAN_STATUS_REBUILD t) false).spillStatus t).serveWaiting

/-- MEM_DEVICE_FAIL (R345). -/
def execMemDeviceFail (d : BitVec 4) (s : State) : Result := s.actRun fun b => b.deviceFail d.toNat

/-! ### The host's window (14_host_mgmt.md R412, R413) -/

/-- HOST_MEM_READ (R413). -/
def execHostMemRead (dpa : BitVec 36) (bad : BitVec 2) (s : State) : Result :=
  s.actHost .driver fun b =>
    if b.hostWaits dpa.toNat then { b with hostReads := b.hostReads ++ [(dpa.toNat, bad.toNat)] }
    else b.hostServe dpa.toNat bad.toNat

/-- HOST_MEM_WRITE (R413): the data is discarded and the write counted in CXL_MEM_WR_DROP. -/
def execHostMemWrite (dpa : BitVec 36) (_data : List Byte) (s : State) : Result :=
  s.actHost .driver fun b => (b.count cxlPage 1).emit (.memAck dpa.toNat)

/-- The rebuild ends (R346): the interleaved area is initialised, MEM cause 1, and the host reads that waited are
served. -/
def Box.rebuildDone (s : Box) (t : Nat) : Box :=
  if s.rebuilding t = false then s
  else
    ((((s.put (MEM_PLAN_STATUS_REBUILD t) false).raiseInt (memPage t) 1).spillStatus t).cxlEvent (.rebuildEnd t)).serveWaiting

/-- MEM_REBUILD_DONE (R346). -/
def execMemRebuildDone (t : TentIx) (s : State) : Result := s.actRun fun b => b.rebuildDone t.toNat

/-- A spill block comes back (04_buffers.md R107, R108): as its own bytes, as zeros where a device has taken them, or as read where
it is uncorrectable, which is counted and its row spared as any uncorrectable read is (R336, R339). Where the block lies in region 7 is
not stated. -/
def Box.spillBack (s : Box) (t q : Nat) (bad : Option (List Byte)) : Box :=
  match s.recallBlock t q with
  | none => s
  | some b =>
    if b.gone then s.spillRecallDone t q (some (List.replicate 4096 0)) false
    else
      match bad.or b.bad with
      | none => s.spillRecallDone t q none false
      | some bs =>
        let (k, s1) := s.takeFree
        let off := (Config.freeBits k).toNat
        (s1.readUncorr t ((s1.holders t 7 off).headD 0) 7 off).spillRecallDone t q (some bs) true

/-- SPILL_RECALL_DONE (04_buffers.md R107, R108). -/
def execSpillRecallDone (t : TentIx) (q : VoqIx) (bad : Option (List Byte)) (s : State) : Result :=
  s.actRun fun b => b.spillBack t.toNat q.toNat bad

/-! ### Training and initialisation (R332, R335) -/

/-- A device's training ends (R332): excluded, failed where a port has failed a step three times, or waiting for INIT, when STATE
is 1 no more and not 2 yet.
DEDUCED, log entry 117. -/
def Box.trainDone (s : Box) (d : Nat) (tr : TrainResult) : Box :=
  let t := d / 2
  let c := d % 2
  if 2 ≤ s.devState d ∨ d ∈ s.trained then s
  else if tr.excluded then (s.wr (MEM_DEV_STATUS_STATE t c) 4).put (MEM_PLAN_STATUS_SINGLE t) true
  else if tr.ports ≠ 15 then s.deviceFail d
  else
    let s1 := (s.wr (MEM_DEV_STATUS_STATE t c) 0).wr (MEM_DEV_STATUS_PORT_OK t c) 15
    { s1 with trained := d :: s1.trained.filter (· ≠ d) }.spareFree t c

/-- MEM_TRAIN_DONE (R332). -/
def execMemTrainDone (d : BitVec 4) (tr : TrainResult) (s : State) : Result := s.actRun fun b => b.trainDone d.toNat tr

/-- INIT (R332, R348): refused unless every present device has finished training; with the devices ready already it
starts nothing.
DEDUCED, log entry 117. -/
def Box.memInit (s : Box) (src : Requester) (t : Nat) : Box :=
  let devs := [2 * t, 2 * t + 1].filter s.devPresent
  if (devs.all fun d => s.devState d == 2 || s.trained.contains d) = false then s.accErrAt (MEM_CTRL_at t) src
  else if t ∈ s.initing ∨ (devs.any s.waitsInit) = false then s
  else { s with initing := t :: s.initing }

/-- MEM_INIT (R335). -/
def execMemInit (src : Requester) (t : TentIx) (s : State) : Result :=
  s.actReg (MEM_CTRL_at t.toNat) src fun b => b.memInit src t.toNat

/-- Initialisation ends (R332 step 7, R335): every mapped row reads as zero, but for regions 0 and 1 after a reset that
preserves memory; the plan is in force and the devices are ready. -/
def Box.memInitDone (s : Box) (t : Nat) : Box :=
  if t ∉ s.initing then s
  else
    let devs := [2 * t, 2 * t + 1].filter s.devPresent
    let s1 := { s with initing := s.initing.filter (· ≠ t) }.memForget t (if s.memKept then [2, 3, 4, 5, 6, 7] else List.range 8)
    let s2 := devs.foldl (fun (b : Box) d => b.wr (MEM_DEV_STATUS_STATE t (d % 2)) 2) s1
    let s3 := s2.wr (MEM_USABLE_MIB_MIB t) (usableMib devs.length)
    (if devs.length = 1 then s3.shrink t else s3).spillSettle t

/-- MEM_INIT_DONE (R332). -/
def execMemInitDone (t : TentIx) (s : State) : Result := s.actRun fun b => b.memInitDone t.toNat

end Sys2Proof.Machine
end

