-- ==== Sys2Proof/Machine/Optics.lean ====
section
/-!
DEFINITION. Spotlight and Trapeze (10_optics.md): microrings, heaters and the crosstalk matrix (R293 to R302), lasers
and their replacement (R305 to R312), lane health (R313), eye safety (R315 to R318), the bring-up of an engine (R319),
and the bypass windows of a port (R320 to R322; 05_egress_scheduling.md R131).
-/

namespace Sys2Proof.Machine

/-! ### Records -/

/-- A microring: engine and status entry, transmit sites 0 to 159, receive sites from 160 (R324). -/
def Box.ring (s : Box) (e i : Nat) : Ring := mapGet (fun _ => {}) s.rings (320 * e + i)
/-- Replaces a microring. -/
def Box.setRing (s : Box) (e i : Nat) (x : Ring) : Box := { s with rings := mapSet (fun _ => {}) s.rings (320 * e + i) x }
/-- The record of an engine. -/
def Box.engine (s : Box) (e : Nat) : Engine := mapGet (fun _ => {}) s.engines e
/-- Replaces an engine's record. -/
def Box.setEngine (s : Box) (e : Nat) (x : Engine) : Box := { s with engines := mapSet (fun _ => {}) s.engines e x }
/-- The record of a laser group. -/
def Box.lgroup (s : Box) (e q : Nat) : LaserGroup := mapGet (fun _ => {}) s.lgroups (4 * e + q)
/-- Replaces a laser group's record. -/
def Box.setLgroup (s : Box) (e q : Nat) (x : LaserGroup) : Box :=
  { s with lgroups := mapSet (fun _ => {}) s.lgroups (4 * e + q) x }
/-- The readings of a laser. -/
def Box.laser (s : Box) (e q k : Nat) : Laser := mapGet (fun _ => {}) s.lasers ((4 * e + q) * 7 + k)
/-- Replaces a laser's readings. -/
def Box.setLaser (s : Box) (e q k : Nat) (x : Laser) : Box :=
  { s with lasers := mapSet (fun _ => {}) s.lasers ((4 * e + q) * 7 + k) x }
/-- The eye-safety record of a fibre pair. -/
def Box.apr (s : Box) (f : Nat) : Apr := mapGet (fun _ => {}) s.aprs f
/-- Replaces the eye-safety record of a fibre pair. -/
def Box.setApr (s : Box) (f : Nat) (x : Apr) : Box := { s with aprs := mapSet (fun _ => {}) s.aprs f x }
/-- The local number of a laser group in its tent: 4 x + q. -/
def groupIx (e q : Nat) : Nat := 4 * (e % 2) + q
/-- The index of a laser's registers in its tent. -/
def laserIx (e q k : Nat) : Nat := 8 * groupIx e q + k
/-- The bit of a fibre pair in a per-engine register. -/
def pairBit (f : Nat → Fld) (p : Nat) : Fld := { f (p / 32) with lo := p % 32, width := 1 }
/-- A fibre pair is in APR or in mode 0 (R326). -/
def Box.inApr (s : Box) (f : Nat) : Bool := s.is (pairBit SPT_APR_STATUS_APR f)
/-- The mode of a fibre pair. -/
def Box.pairMode (s : Box) (f : Nat) : Nat := s.rd (LNK_FP_MODE_MODE f)
/-- The port slots of a fibre pair that are ports. -/
def Box.pairPorts (s : Box) (f : Nat) : List Nat := ([0, 1, 2, 3].map (4 * f + ·)).filter s.isPort
/-- A port of the fibre pair is enabled. -/
def Box.pairEnabled (s : Box) (f : Nat) : Bool := (s.pairPorts f).any fun p => s.is (LNK_PORT_CTRL_ENABLE p)

/-! ### Microrings (R298 to R302) -/

/-- HELD and SEARCH of an engine follow its microrings (R326). -/
def Box.ringLevels (s : Box) (e : Nat) : Box :=
  let any (v : Nat) : Bool := (List.range 320).any fun i => s.rd (ringState e i) == v
  (s.put (SPT_HEAT_STATUS_HELD e) (any 4)).put (SPT_HEAT_STATUS_SEARCH e) (any 1)

/-- The status entries of a fibre pair's microrings: wavelengths 0 to 4, transmit then receive. -/
def pairRings (f : Nat) : List Nat := (List.range 5).flatMap fun k => [5 * (f % 32) + k, 160 + 5 * (f % 32) + k]

/-- A fibre pair's bit in SPT_FP_READY follows its microrings: all verified, the λ4 ones parked outside 800G mode
(R300, R302); a port whose own microrings have become ready begins to train (02_itzal_link.md R56). -/
def Box.pairReady (s : Box) (f : Nat) : Box :=
  let e := f / 32
  let ok (i : Nat) : Bool :=
    let st := s.rd (ringState e i)
    st == 3 || (st == 5 && i % 5 == 4 && s.pairMode f != 1)
  let ready := s.pairMode f != 0 && (pairRings f).all ok
  s.put (pairBit SPT_FP_READY_READY f) ready

/-- Sets a microring's state, and what follows from it: a port whose last microring is verified now begins to train
(02_itzal_link.md R56; R300). -/
def Box.ringTo (s : Box) (e i v : Nat) : Box :=
  let f := 32 * e + i % 160 / 5
  let s1 := ((s.wr (ringState e i) v).ringLevels e).pairReady f
  ((s.pairPorts f).filter fun p => !s.ringsReady p && s1.ringsReady p).foldl (fun b p => b.trainStart p) s1

/-- A microring begins its search: heater code 0 (R301). -/
def Box.ringSearch (s : Box) (e i : Nat) : Box :=
  ((s.setRing e i { s.ring e i with set := 0, off := 0, step := 0, clamped := false, parked := false, seeking := false }).wr
    (SPT_RING_HEAT (e / 2) (512 * (e % 2) + i)) 0).ringTo e i 1

/-- A microring is switched off or has failed: heater at 0 (R302). -/
def Box.ringOff (s : Box) (e i v : Nat) : Box :=
  ((s.setRing e i {}).wr (SPT_RING_HEAT (e / 2) (512 * (e % 2) + i)) 0).ringTo e i v

/-- The verification of R300: the own tone in percent of what the laser power predicts, and by how many decibels the
four others lie below it.
DEDUCED, log entry 110. -/
def ringPasses (own : Nat) (gaps : List Int) : Bool := decide (50 ≤ own) && gaps.all fun g => decide (10 ≤ g)

/-- The port of a fibre pair that holds a wavelength. -/
def Box.laneOwner (s : Box) (f k : Nat) : Option Nat :=
  (s.pairPorts f).find? fun p => (s.modeLanes p).contains k

/-- The wavelength of a microring is quarantined in its direction (12_faults.md R360). -/
def Box.ringQuar (s : Box) (e i : Nat) : Bool :=
  (s.laneOwner (32 * e + i % 160 / 5) (i % 5)).any fun p =>
    (if i < 160 then (s.port p).txQuar else (s.port p).quar).contains (i % 5)

/-- The lanes that a swap has moved or shed are added back once it has run and the transmit microring is verified, but for a
quarantined one (R309 step 8, R311; 12_faults.md R360). -/
def Box.addBack (s : Box) (e i : Nat) : Box :=
  let f := 32 * e + i / 5
  let q := f % 32 / 8
  let k := i % 5
  let g := s.lgroup e q
  match if i < 160 ∧ k ∈ g.back ∧ s.ringQuar e i = false then g.moved.find? fun m => m.1 / 4 == f && m.2.1 == k else none with
  | none => s
  | some (p, w, j) =>
    if (s.port p).pendTx.isSome then s
    else (s.laneChange p false (mapWithLane (s.rd (LNK_LANE_MAP_TX p)) j w)).setLgroup e q
      { g with moved := g.moved.filter (· ≠ (p, w, j)) }

/-- The setpoint that parking adds, in 2^-15 code steps: about 4.2 mW, which the spec states no closer (R302): between 4.15 and
4.25 mW.
DESIGN CHOICE, log entry 161. -/
def parkStep (k : Nat) : Nat := 148532019 + (Config.freeBits k).toNat % 3579085

/-- A verification passes: the microring is verified, a λ4 one of a breakout pair parked 400 GHz lower, once (R302). -/
def Box.ringVerified (s : Box) (e i : Nat) : Box :=
  let m := s.pairMode (32 * e + i % 160 / 5)
  let x := s.ring e i
  if i % 5 = 4 ∧ (m = 2 ∨ m = 3) then
    if x.parked then (s.setRing e i { x with byp := false }).ringTo e i 5
    else
      let (k, s1) := s.takeFree
      (s1.setRing e i { x with set := x.set + parkStep k, byp := false, parked := true }).ringTo e i 5
  else ((s.setRing e i { x with byp := false }).ringTo e i 3).addBack e i

/-- A port stops sending on a quarantined wavelength: its lane moves or is shed at once, and a port without another lane goes down
(12_faults.md R360, R363). -/
def Box.laneOut (s : Box) (p w : Nat) : Box :=
  if s.up p = false ∨ w ∉ s.txLanes p then s
  else if mapLanes (s.mapWithout p w) = [] then s.portDown p
  else s.laneChange p true (s.mapWithout p w)

/-- A microring's fault event (12_faults.md R359, R360): a lasting one is switched off and its wavelength left out of
the port's map. Answers whether it is lasting. -/
def Box.ringFault (s : Box) (e i : Nat) : Bool × Box :=
  let (k, s1) := s.takeFree
  let unit := 320 * (e % 2) + i
  let s2 := s1.postFault 2 ((Config.freeBits k).toNat % 256) unit (e / 2) 0
  if s2.lasting 2 unit (e / 2) then
    let w := i % 5
    (true, match s2.laneOwner (32 * e + i % 160 / 5) w with
      | some p =>
        let x := s2.port p
        if i < 160 then (s2.setPort p { x with txQuar := w :: x.txQuar.filter (· ≠ w) }).laneOut p w
        else s2.setPort p { x with quar := w :: x.quar.filter (· ≠ w) }
      | none => s2)
  else (false, s2)

/-- A lock lost while a calibration runs makes that fail (R296). -/
def Box.calBroken (s : Box) (e : Nat) : Box :=
  if s.is (SPT_XT_STATUS_BUSY e) then s.setEngine e { s.engine e with calLost := true } else s

/-- A verification fails: counted in SPT_WRONG_LOCK and searched again, or off where the microring is lasting; the port
of one that a bypass window released goes down (R301, R322). -/
def Box.ringWrong (s : Box) (e i : Nat) : Box :=
  let f := 32 * e + i % 160 / 5
  let byp := (s.ring e i).byp
  let (off, s0) := ((s.calBroken e).count (sptPage (e / 2)) (4 + e % 2)).ringFault e i
  let s1 := if off then s0.ringOff e i 0 else s0.ringSearch e i
  let s2 := s1.setRing e i { s1.ring e i with byp := false }
  if byp then (s.pairPorts f).foldl (fun b p => b.portDown p) s2 else s2

/-- A port of the fibre pair of a microring is in a bypass window. -/
def Box.ringDark (s : Box) (e i : Nat) : Bool := (s.pairPorts (32 * e + i % 160 / 5)).any fun p => (s.port p).inWindow

/-- A locked or verified microring has been demodulated over 1 ms (R300). A transmit microring that a laser swap has released
inside a bypass window is verified after the window (R312). -/
def Box.ringJudge (s : Box) (e i state own : Nat) (gaps : List Int) (tone : Nat) : Box :=
  if s.rd (ringState e i) ≠ state ∨ (state = 2 ∧ s.ringDark e i = true) then s
  else
    let s1 := s.wr (SPT_RING_TONE (e / 2) (512 * (e % 2) + i)) tone
    if ringPasses own gaps then s1.ringVerified e i else s1.ringWrong e i

/-- RING_VERIFY_DONE (R300). -/
def execRingVerifyDone (e : EngIx) (site : RingIx) (own : Nat) (gaps : List Int) (tone : Reg3) (s : State) : Result :=
  s.actRun fun b => b.ringJudge e.toNat site.val 2 own gaps tone.toNat

/-- RING_REVERIFY (R300): once per second. -/
def execRingReverify (e : EngIx) (site : RingIx) (own : Nat) (gaps : List Int) (tone : Reg3) (s : State) : Result :=
  s.actRun fun b => b.ringJudge e.toNat site.val 3 own gaps tone.toNat

/-- One step of a search (R301): the heater rises by 1/4,096 of the code that spans 1.2 FSR, which is the engine's own;
a peak whose pilots pass locks here, and the last step without one marks the microring failed with SPT cause 0. -/
def Box.ringStep (s : Box) (e i : Nat) (peak : Bool) (own : Nat) (gaps : List Int) (tone : Nat) : Box :=
  let x := s.ring e i
  if s.rd (ringState e i) ≠ 1 then s
  else
    let span := (Config.fsrCode (320 * e + i)).toNat
    let s1 := s.setRing e i { x with step := x.step + 1, set := (((x.step + 1) * span * 8 : Nat) : Int) }
    let s2 := s1.wr (SPT_RING_TONE (e / 2) (512 * (e % 2) + i)) (if peak then tone else 7)
    if peak = true ∧ ringPasses own gaps = true then s2.ringVerified e i
    else if 4096 ≤ x.step + 1 then (s2.ringOff e i 6).raiseInt (sptPage (e / 2)) 0
    else s2

/-- RING_SEARCH_STEP (R301). -/
def execRingSearchStep (e : EngIx) (site : RingIx) (peak : Bool) (own : Nat) (gaps : List Int) (tone : Reg3)
    (s : State) : Result :=
  s.actRun fun b => b.ringStep e.toNat site.val peak own gaps tone.toNat

/-! ### Heaters (R293 to R297) -/

/-- The coefficient M[i][i + d - 4] in force, in Q1.15; absent outside 0 to 159 (R295). -/
def Engine.coef (x : Engine) (i d : Nat) : Int :=
  if i + d < 4 ∨ 163 < i + d then 0 else mapGet (fun _ => 0) x.matrix (9 * i + d)

/-- The heater power a row's setpoints ask for, in 2^-30 code steps (R295), by site. -/
def heatSum (x : Engine) (t : Nat → Int) (i : Nat) : Int :=
  t i * 2 ^ 15 + ((List.range 9).map fun d => x.coef i d * (if i + d < 4 then 0 else t (i + d - 4))).sum

/-- Rounds to the nearest heater code, ties to even. -/
def roundCode (h : Int) : Int :=
  let q := h / 2 ^ 30
  let r := h % 2 ^ 30
  if 2 ^ 29 < r ∨ (r = 2 ^ 29 ∧ q % 2 = 1) then q + 1 else q

/-- A microring whose heater runs: not off and not failed (R302). -/
def Box.heated (s : Box) (e i : Nat) : Bool := s.rd (ringState e i) != 0 && s.rd (ringState e i) != 6

/-- The dither of a lock loop at the present tick: 5 kHz, within ±0.02 mW, in 2^-15 code steps (R299). -/
def Box.ditherNow (s : Box) : Int := max (-715816) (min 715816 (Config.dither (s.raw % 128000)))

/-- A microring whose lock loop runs: locked, verified or parked (R294, R302). -/
def Box.looped (s : Box) (e i : Nat) : Bool := s.rd (ringState e i) ∈ [2, 3, 5]

/-- The setpoint of status entry `i` as the rows see it, with its loop's dither: none outside 0 to 159 and of an unheated
microring. -/
def Box.rowSet (s : Box) (e row j : Nat) : Int :=
  let i := 160 * row + j
  if j < 160 ∧ s.heated e i = true then (s.ring e i).set + (if s.looped e i then s.ditherNow else 0) else 0

/-- The exact heater power of a microring. -/
def Box.heatOf (s : Box) (e i : Nat) : Int :=
  (s.ring e i).off + heatSum (s.engine e) (s.rowSet e (i / 160)) (i % 160)

/-- The lock point of a microring as a fraction of its monitor's peak, in 2^-16: the peak for a receive one, the factory-set
fraction for a transmit one (R299). -/
def lockTarget (e i : Nat) : Nat := if i < 160 then (Config.slopeFraction (320 * e + i)).toNat else 65536

/-- Step 2 of a cycle: the loops of locked and verified microrings give their setpoints from their lock samples; a clamped one holds
its own, and that of a parked one holds the offset (R294, R295, R299, R302).
DESIGN CHOICE, log entry 108. -/
def Box.runLoops (s : Box) (e : Nat) (samples : List Int) : Box :=
  (List.range 320).foldl (fun (b : Box) i =>
    let x := b.ring e i
    match samples[i]? with
    | some t =>
      if b.looped e i = true ∧ x.parked = false ∧ x.clamped = false then
        b.setRing e i { x with set := Config.lockLoop (decide (i < 160)) (lockTarget e i) x.set t }
      else b
    | none => b) s

/-- Step 4: every heater is written at one instant; a result out of range is clamped (R295). -/
def Box.writeHeaters (s : Box) (e : Nat) : Box :=
  (List.range 320).foldl (fun (b : Box) i =>
    if s.heated e i = false then b.wr (SPT_RING_HEAT (e / 2) (512 * (e % 2) + i)) 0
    else
      let h := s.heatOf e i
      let out := decide (h < 0) || decide (65535 * 2 ^ 30 < h)
      let code := if h < 0 then 0 else if 65535 * 2 ^ 30 < h then 65535 else (roundCode h).toNat
      let b1 := (b.setRing e i { b.ring e i with clamped := out }).wr (SPT_RING_HEAT (e / 2) (512 * (e % 2) + i)) code
      if out then b1.put (SPT_HEAT_STATUS_CLAMP e) true else b1) s

/-- The staging matrix of an engine (R327). -/
def Box.stagedMatrix (s : Box) (e : Nat) : Sparse Int :=
  (List.range 160).foldl (fun m i =>
    (List.range 9).foldl (fun m d =>
      let w := s.word (SPT_XT_WIN_at (e / 2) (1024 * (e % 2) + 5 * i + d / 2))
      let v := toSigned 16 (wordField w (if d % 2 = 0 then 16 else 0) 16)
      if i + d < 4 ∨ 163 < i + d then m else mapSet (fun _ => 0) m (9 * i + d) v) m) []

/-- The solution of `n` linear equations in `n` unknowns by elimination: a row holds the coefficients and the right side last. None
where they have no one solution. -/
def solveRows : Nat → List (List Rat) → Option (List Rat)
  | 0, _ => some []
  | n + 1, rows =>
    match rows.find? fun r => r.headD 0 != 0 with
    | none => none
    | some p =>
      let rest := (rows.erase p).map fun r => List.zipWith (fun a b => a - r.headD 0 / p.headD 1 * b) r.tail p.tail
      (solveRows n rest).map fun xs => ((p.getLastD 0 - (List.zipWith (· * ·) p.tail xs).sum) / p.headD 1) :: xs

/-- The setpoints of a row's heated microrings, by status entry, for which the matrix of `x` gives the heater powers of the one in
force (R297), to the step of a setpoint; none where that matrix gives no such setpoints. -/
def Box.rebased (s : Box) (e : Nat) (x : Engine) (row : Nat) : List (Nat × Int) :=
  let js := (List.range 160).filter fun j => s.heated e (160 * row + j)
  let coef (i j : Nat) : Rat :=
    (((if i = j then 2 ^ 15 else 0) + if j ≤ i + 4 ∧ i ≤ j + 4 then x.coef i (j + 4 - i) else 0 : Int) : Rat)
  match solveRows js.length (js.map fun i => js.map (coef i) ++ [(s.heatOf e (160 * row + i) : Rat)]) with
  | none => []
  | some us => (js.zip us).map fun u =>
    let i := 160 * row + u.1
    (i, u.2.floor - if s.looped e i then s.ditherNow else 0)

/-- A new matrix takes effect at a cycle boundary, every setpoint re-based so that no heater moves (R297): what the step of a
setpoint leaves over, or a matrix that no setpoints fit, stays beside it.
DESIGN CHOICE, log entry 109. -/
def Box.takeMatrix (s : Box) (e : Nat) : Box :=
  let x := s.engine e
  if x.commit = false then s
  else
    let y : Engine := { x with commit := false, matrix := s.stagedMatrix e }
    let s1 := (s.rebased e y 0 ++ s.rebased e y 1).foldl (fun (b : Box) u => b.setRing e u.1 { b.ring e u.1 with set := u.2 })
      (s.setEngine e y)
    (((List.range 320).filter (s.heated e)).foldl (fun (b : Box) i =>
      let r := b.ring e i
      b.setRing e i { r with off := r.off + s.heatOf e i - s1.heatOf e i }) s1).put (SPT_XT_STATUS_BUSY e) false

/-- A heater cycle (R294). -/
def Box.heaterCycle (s : Box) (e : Nat) (samples : List Int) : Box :=
  let s1 := ((s.runLoops e samples).writeHeaters e).takeMatrix e
  s1.setEngine e { s1.engine e with heatRun := false }

/-- The cycle of an engine: every PERIOD ticks, or the one a firing has started (R294). -/
def Box.cycleDue (s : Box) (e : Nat) (samples : List Int) : Box :=
  let x := s.engine e
  if s.is (SPT_HEAT_CTRL_SRC e) then (if x.heatRun then s.heaterCycle e samples else s)
  else if x.heatAt + s.rd (SPT_HEAT_CTRL_PERIOD e) ≤ s.raw then (s.setEngine e { x with heatAt := s.raw }).heaterCycle e samples
  else s

/-- HEATER_CYCLE (R294). -/
def execHeaterCycle (e : EngIx) (samples : List Int) (s : State) : Result :=
  s.actRun fun b => b.cycleDue e.toNat samples

/-- A write of SPT_HEAT_CTRL (R326): the wait of R294 for a firing begins where SRC becomes 1. -/
def Box.heatCtrl (s : Box) (src : Requester) (e v : Nat) : Box :=
  let a := SPT_HEAT_CTRL_at e
  if v % 2 ^ 24 < 1280 ∨ 64000 < v % 2 ^ 24 then s.accErrAt a src
  else
    let s1 := s.plainWrite src a v
    if v.testBit 31 = true ∧ s.is (SPT_HEAT_CTRL_SRC e) = false then s1.setEngine e { s1.engine e with heatAt := s.raw } else s1

/-- A write of SPT_MON_CTRL (R303, R326). -/
def Box.monCtrl (s : Box) (src : Requester) (e v : Nat) : Box :=
  let a := SPT_MON_CTRL_at e
  if 5 ≤ v % 8 then s.rsvWriteAt a src
  else
    let s1 := s.plainWrite src a v
    if v.testBit 31 = true ∧ s.is (SPT_MON_CTRL_SRC e) = false then s1.setEngine e { s1.engine e with monAt := s.raw } else s1

/-- 1 ms without a firing makes Spotlight run a cycle itself and set STARVED (R294). -/
def Box.heaterStarved (s : Box) (e : Nat) (samples : List Int) : Box :=
  let x := s.engine e
  if s.is (SPT_HEAT_CTRL_SRC e) = true ∧ x.heatAt + 640000 ≤ s.raw then
    ((s.setEngine e { x with heatAt := s.raw }).put (SPT_HEAT_STATUS_STARVED e) true).heaterCycle e samples
  else s

/-- HEATER_STARVED (R294). -/
def execHeaterStarved (e : EngIx) (samples : List Int) (s : State) : Result :=
  s.actRun fun b => b.heaterStarved e.toNat samples

/-- A trigger unit with ACTION 3 fires: a cycle starts, or is ignored and counted while one runs (R294). -/
def Box.heatFire (s : Box) (e : Nat) : Box :=
  let x := s.engine e
  if s.is (SPT_HEAT_CTRL_SRC e) = false then s
  else if x.heatRun then (s.count (sptPage (e / 2)) (e % 2)).setEngine e { x with heatAt := s.raw }
  else s.setEngine e { x with heatRun := true, heatAt := s.raw }

/-- Something runs in the engine that defers a calibration: a search, a laser swap, a bypass window or an eye-safety
shutdown (R296). -/
def Box.calBlocked (s : Box) (e : Nat) : Bool :=
  s.is (SPT_HEAT_STATUS_SEARCH e) || s.is (TRP_JOINED_JOINED e)
    || ([0, 1, 2, 3].any fun q => s.is (SPT_LSR_GROUP_SWAP_BUSY (e / 2) (groupIx e q)))
    || (List.range 32).any fun j => s.inApr (32 * e + j) && s.pairMode (32 * e + j) != 0

/-- A due calibration starts where nothing defers it (R296). -/
def Box.calTry (s : Box) (e : Nat) : Box :=
  let x := s.engine e
  if x.due.isSome = true ∧ s.calBlocked e = false ∧ s.is (SPT_XT_STATUS_BUSY e) = false then
    (s.setEngine e { x with due := none, calLost := false }).put (SPT_XT_STATUS_BUSY e) true
  else s

/-- A calibration becomes due. -/
def Box.calDue (s : Box) (e : Nat) : Box :=
  let x := s.engine e
  (s.setEngine e { x with due := some (x.due.getD s.raw) }).calTry e

/-- CAL (R296, R297): while BUSY the write is ignored with the access-error indication. -/
def Box.xtCal (s : Box) (src : Requester) (e : Nat) : Box :=
  if s.is (SPT_XT_STATUS_BUSY e) then s.accErrAt (SPT_XT_CTRL_at e) src else s.calDue e

/-- XT_CAL (R296). -/
def execXtCal (src : Requester) (e : EngIx) (s : State) : Result :=
  s.actReg (SPT_XT_CTRL_at e.toNat) src fun b => b.xtCal src e.toNat

/-- The ticks between an engine's periodic calibrations, with what three cores make firmware shed (R296; 01_architecture.md R25). -/
def Box.calInterval (s : Box) (e : Nat) : Nat := (s.rd (SPT_XT_CTRL_INTERVAL e) + s.calShed) * 640000000

/-- The instant of an engine's next periodic calibration: every INTERVAL seconds, offset by e / 16 of it (R296).
DEDUCED, log entry 115. -/
def Box.calInstant (s : Box) (e : Nat) : Nat :=
  s.calInterval e * (s.engine e).calSlot + e * s.calInterval e / 16

/-- The periodic calibrations of an engine that are over at the present raw tick. -/
def Box.calSlots (s : Box) (e : Nat) : Nat :=
  let iv := s.calInterval e
  if s.raw < e * iv / 16 then 0 else (s.raw - e * iv / 16) / iv + 1

/-- XT_CAL_TIMER (R296). -/
def execXtCalTimer (e : EngIx) (s : State) : Result :=
  s.actRun fun b =>
    if b.is (SPT_XT_CTRL_AUTO e.toNat) = true ∧ b.calInstant e.toNat ≤ b.raw then
      Box.calDue (b.setEngine e.toNat { b.engine e.toNat with calSlot := (b.engine e.toNat).calSlot + 1 }) e.toNat
    else b

/-- XT_CAL_DEFERRED_START (R296). -/
def execXtCalDeferredStart (e : EngIx) (s : State) : Result := s.actRun fun b => b.calTry e.toNat

/-- CALIBRATION_DEFERRED (R296): a calibration has waited 1 s. -/
def execCalibrationDeferred (e : EngIx) (s : State) : Result :=
  s.actRun fun b => match (b.engine e.toNat).due with
    | some t => if t + 640000000 ≤ b.raw then b.put (SPT_XT_STATUS_DEFERRED e.toNat) true else b
    | none => b

/-- A microring, by status entry, that takes no part in a calibration: a held, parked or searching one (R296). -/
def Box.calOut (s : Box) (e i : Nat) : Bool := s.rd (ringState e i) ∈ [1, 4, 5]

/-- A measured coupling from heater i to microring j of a row, in 2^-15. -/
def calCoupling (cal : CalResult) (row i j : Nat) : Int :=
  ((((if row = 0 then cal.tx else cal.rx)[i]?).getD [])[j + 4 - i]?).getD 0

/-- Heater i and microring j of a row both take part. -/
def Box.calPair (s : Box) (e row i j : Nat) : Bool := !s.calOut e (160 * row + i) && !s.calOut e (160 * row + j)

/-- The pairs of different sites within four places of each other. -/
def sitePairs : List (Nat × Nat) :=
  (List.range 160).flatMap fun i => ((List.range 9).filter fun d =>
    d != 4 && decide (4 ≤ i + d) && decide (i + d ≤ 163)).map fun d => (i, i + d - 4)

/-- The couplings that a calibration measures: row, heater and microring. -/
def Box.calPairs (s : Box) (e : Nat) : List (Nat × Nat × Nat) :=
  [0, 1].flatMap fun row => (sitePairs.filter fun x => s.calPair e row x.1 x.2).map (row, ·)

/-- Step 3 of a calibration: the coupling from heater i to microring j of a row in 2^-15; where one of them takes no part the old
one (R296). -/
def Box.coupling (s : Box) (e : Nat) (cal : CalResult) (row i j : Nat) : Int :=
  if s.calPair e row i j then calCoupling cal row i j else mapGet (fun _ => 0) (s.engine e).couple (1440 * row + 9 * i + (j + 4 - i))

/-- The sum of the two rows' couplings, which is their mean in 2^-16. -/
def Box.meanCoupling (s : Box) (e : Nat) (cal : CalResult) (i j : Nat) : Int := s.coupling e cal 0 i j + s.coupling e cal 1 i j

/-- The couplings that an engine holds after a calibration. -/
def Box.couplings (s : Box) (e : Nat) (cal : CalResult) : Sparse Int :=
  (s.calPairs e).foldl (fun m x =>
    mapSet (fun _ => 0) m (1440 * x.1 + 9 * x.2.1 + (x.2.2 + 4 - x.2.1)) (calCoupling cal x.1 x.2.1 x.2.2)) (s.engine e).couple

/-- A value in 2^-n below the unit of Q1.15 as a staging word: which way a fraction is rounded, and what stands for a value
outside Q1.15, is not stated (R295, R296).
DESIGN CHOICE, log entry 109. -/
def calWord (x : Int) (n k : Nat) : Nat :=
  let v := x / 2 ^ n + (if x % 2 ^ n ≠ 0 ∧ (Config.freeBits k).getLsbD 0 = true then 1 else 0)
  if v < -(2 ^ 15) ∨ 2 ^ 15 - 1 < v then (Config.freeBits k).toNat % 65536 else ofSigned 16 v

/-- M[i][i + d - 4] of step 4 as a staging word (R296): minus the coupling back, on the diagonal the sum of the products. -/
def Box.calCoef (s : Box) (e : Nat) (cal : CalResult) (k i d : Nat) : Nat :=
  if d = 4 then
    calWord (((List.range 9).filter fun x => x != 4 && decide (4 ≤ i + x) && decide (i + x ≤ 163)).map fun x =>
      s.meanCoupling e cal i (i + x - 4) * s.meanCoupling e cal (i + x - 4) i).sum 17 k
  else calWord (-(s.meanCoupling e cal (i + d - 4) i)) 1 k

/-- A calibration writes the staging rows (R296, R327). -/
def Box.calRows (s : Box) (e : Nat) (cal : CalResult) : Box :=
  (List.range 160).foldl (fun (b : Box) i =>
    (List.range 9).foldl (fun (b : Box) d =>
      let f : Fld := ⟨SPT_XT_WIN_at (e / 2) (1024 * (e % 2) + 5 * i + d / 2), if d % 2 = 0 then 16 else 0, 16⟩
      if i + d < 4 ∨ 163 < i + d then b
      else b.wr f (s.calCoef e cal (s.freeCtr + 9 * i + d) i d)) b) { s with freeCtr := s.freeCtr + 1440 }

/-- A calibration fails: a coupling of 0.5 or more, a monitor without response, a lost lock (R296). -/
def Box.calFails (s : Box) (e : Nat) (cal : CalResult) : Bool :=
  cal.silent || cal.lost || (s.engine e).calLost
    || (s.calPairs e).any fun x => decide (2 ^ 14 ≤ (calCoupling cal x.1 x.2.1 x.2.2).natAbs)

/-- The largest difference between the two rows' couplings (R296). -/
def Box.rowDiff (s : Box) (e : Nat) (cal : CalResult) : Nat :=
  sitePairs.foldl (fun m x => max m (s.coupling e cal 0 x.1 x.2 - s.coupling e cal 1 x.1 x.2).natAbs) 0

/-- A calibration ends (R296, R465): FAIL with SPT cause 3, or the staging rows, ROWDIFF and DONE; with
AUTO the matrix takes effect at the next cycle boundary.
DEDUCED, log entry 111. -/
def Box.calEnd (s : Box) (e : Nat) (cal : CalResult) : Box :=
  if s.calFails e cal then
    ((s.put (SPT_XT_STATUS_FAIL e) true).raiseInt (sptPage (e / 2)) 3).put (SPT_XT_STATUS_BUSY e) false
  else
    let s0 := s.calRows e cal
    let s1 := (s0.setEngine e { s0.engine e with couple := s.couplings e cal }).wr (SPT_XT_STATUS_ROWDIFF e) (s.rowDiff e cal)
    let s2 := (s1.put (SPT_XT_STATUS_DONE e) true).put (SPT_XT_STATUS_FAIL e) false
    if s2.is (SPT_XT_CTRL_AUTO e) then s2.setEngine e { s2.engine e with commit := true }
    else s2.put (SPT_XT_STATUS_BUSY e) false

/-- XT_CAL_DONE (R296). -/
def execXtCalDone (e : EngIx) (cal : CalResult) (s : State) : Result :=
  s.actRun fun b => if b.is (SPT_XT_STATUS_BUSY e.toNat) = true ∧ (b.engine e.toNat).commit = false
    then b.calEnd e.toNat cal else b

/-- COMMIT (R297). -/
def Box.xtCommit (s : Box) (src : Requester) (e : Nat) : Box :=
  if s.is (SPT_XT_STATUS_BUSY e) then s.accErrAt (SPT_XT_CTRL_at e) src
  else (s.setEngine e { s.engine e with commit := true }).put (SPT_XT_STATUS_BUSY e) true

/-- XT_COMMIT (R297). -/
def execXtCommit (src : Requester) (e : EngIx) (s : State) : Result :=
  s.actReg (SPT_XT_CTRL_at e.toNat) src fun b => b.xtCommit src e.toNat

/-! ### Lasers (R305 to R312) -/

/-- STATE of a laser. -/
def laserState (e q k : Nat) : Fld := SPT_LSR_CFG_STATE (e / 2) (laserIx e q k)
/-- NOM of a laser, in 0.01 dBm; none while it is not set. -/
def Box.nom (s : Box) (e q k : Nat) : Option Int :=
  let v := s.rd (SPT_LSR_CFG_NOM (e / 2) (laserIx e q k))
  if v = 0x8000 then none else some (toSigned 16 v)
/-- The wavelength a laser serves. -/
def Box.laserRole (s : Box) (e q k : Nat) : Nat := s.rd (SPT_LSR_CFG_ROLE (e / 2) (laserIx e q k))

/-- SPARES_FREE counts the spares that are neither ready nor in role, nor retired after a role (R311, R328). -/
def Box.sparesFree (s : Box) (e q : Nat) : Box :=
  let armed (k : Nat) : Bool := (s.lgroup e q).arms.any fun a => a.spare == k && a.ready
  let n := ([5, 6].filter fun k => !(armed k) && s.laserRole e q k == 7 && s.rd (laserState e q k) != 5).length
  s.wr (SPT_LSR_GROUP_SPARES_FREE (e / 2) (groupIx e q)) n

/-- The SPT laser interrupt (R465). -/
def Box.laserInt (s : Box) (e : Nat) : Box := s.raiseInt (sptPage (e / 2)) 1

/-- A spare is taken for a faded laser: the lower-numbered idle one, tuned and armed over the laser bus; without one
NOSPARE is set (R308, R311). -/
def Box.armSpare (s : Box) (e q k : Nat) : Box :=
  let g := s.lgroup e q
  if g.arms.any fun a => a.laser == k then s
  else
    match [5, 6].find? fun j => s.laserRole e q j == 7 && s.rd (laserState e q j) == 6 && !(g.arms.any fun a => a.spare == j) with
    | some j => ((s.setLgroup e q { g with arms := g.arms ++ [⟨k, j, false, false, false, false⟩] }).emit
        (.laserBus e q (.tune j (s.laserRole e q k)))).emit (.laserBus e q (.arm k j))
    | none => (s.put (SPT_LSR_GROUP_NOSPARE (e / 2) (groupIx e q)) true).laserInt e

/-- The fibre pairs of a group (R292). -/
def groupPairs (e q : Nat) : List Nat := (List.range 8).map (32 * e + 8 * q + ·)

/-- A fibre pair of the group whose lanes are moved: with an enabled port, outside a bypass window and a shutdown
(R309, R312). -/
def Box.movable (s : Box) (f : Nat) : Bool :=
  s.pairEnabled f && !s.inApr f && !(s.pairPorts f).any fun p => (s.port p).inWindow

/-- The ports of a fibre pair whose lane on a wavelength is moved or shed: none in 200G mode (R309). -/
def Box.lanePorts (s : Box) (f w : Nat) : List Nat :=
  if s.pairMode f = 3 then []
  else (s.pairPorts f).filter fun p => s.up p && decide (w ∈ s.txLanes p) && decide (mapLanes (s.mapWithout p w) ≠ [])

/-- Lanes on a faded wavelength move to λ4 or are shed, planned or forced, and are noted for the add (R309, R310). -/
def Box.moveLanes (s : Box) (e q w : Nat) (force : Bool) : Box :=
  ((groupPairs e q).filter s.movable).foldl (fun (b : Box) f =>
    (b.lanePorts f w).foldl (fun (b : Box) p =>
      let g := b.lgroup e q
      let m := b.rd (LNK_LANE_MAP_TX p)
      let j := ([0, 1, 2, 3].find? fun i => mapLane m i == w).getD 0
      (b.laneChange p force (b.mapWithout p w)).setLgroup e q
        { g with moved := if g.moved.any (fun x => x.1 == p && x.2.1 == w) then g.moved else g.moved ++ [(p, w, j)],
                 back := g.back.filter (· ≠ w) }) b) s

/-- A laser reaches -2 dB or -3 dB: migration begins, or turns forced (R309, R310). Without a spare no swap will run and
SWAP_BUSY stays clear (R311, R328). -/
def Box.migrate (s : Box) (e q k : Nat) (force : Bool) : Box :=
  let s1 := s.armSpare e q k
  let g := s1.lgroup e q
  let up (a : Arm) : Arm := if a.laser = k then { a with mig := true, forced := a.forced || force } else a
  let busy := s1.is (SPT_LSR_GROUP_SWAP_BUSY (e / 2) (groupIx e q)) || g.arms.any fun a => a.laser == k
  let s2 := (s1.setLgroup e q { g with arms := g.arms.map up }).put (SPT_LSR_GROUP_SWAP_BUSY (e / 2) (groupIx e q)) busy
  (((s2.wr (laserState e q k) (if force then 4 else 3)).moveLanes e q (s.laserRole e q k) force).sparesFree e q).laserInt e

/-- One reading of an active laser is judged against NOM (R307).
DEDUCED, log entry 112. -/
def Box.judgeLaser (s : Box) (e q k : Nat) (v nom : Int) : Box :=
  let x := s.laser e q k
  let d := v - nom
  let y : Laser := { x with warn := if d ≤ -100 then x.warn + 1 else 0, clear := if -50 < d then x.clear + 1 else 0,
                            mig := if d ≤ -200 then x.mig + 1 else 0 }
  let st := s.rd (laserState e q k)
  let s1 := s.setLaser e q k y
  let normal := st == 1 || st == 7
  if d ≤ -300 ∧ (normal = true ∨ st = 2 ∨ st = 3) then s1.migrate e q k true
  else if 4 ≤ y.mig ∧ (normal = true ∨ st = 2) then s1.migrate e q k false
  else if 16 ≤ y.warn ∧ normal = true then (((s1.wr (laserState e q k) 2).armSpare e q k).sparesFree e q).laserInt e
  else if 64 ≤ y.clear ∧ st = 2 then s1.wr (laserState e q k) (if k < 5 then 1 else 7)
  else s1

/-- The mean of a laser's first 64 readings becomes its NOM (R306); which way a fraction is rounded is not stated. -/
def Box.firstNom (s : Box) (e q k : Nat) (v : Int) : Box :=
  let x := s.laser e q k
  let rs := x.first ++ [v]
  if rs.length < 64 then s.setLaser e q k { x with first := rs }
  else
    let (i, s1) := s.takeFree
    let up : Int := if rs.sum % 64 ≠ 0 ∧ (Config.freeBits i).getLsbD 0 = true then 1 else 0
    (s1.setLaser e q k { x with first := [] }).wr (SPT_LSR_CFG_NOM (e / 2) (laserIx e q k)) (ofSigned 16 (rs.sum / 64 + up))

/-- An integration completes (R304, R306, R329): laser powers by 7 q + laser, judged while the laser is active and the
engine lit; output taps by local fibre pair. -/
def Box.integrate (s : Box) (e : Nat) (r : MonReadings) : Box :=
  let x := s.engine e
  let one (b : Box) (n : Nat) : Box :=
    match r.lasers[n]? with
    | none => b
    | some v =>
      let q := n / 7
      let k := n % 7
      let b1 := b.wr (SPT_LSR_PWR_PWR (e / 2) (laserIx e q k)) (ofSigned 16 v)
      let st := b1.rd (laserState e q k)
      let active := decide (1 ≤ st ∧ st ≤ 4) || (st == 7 && b1.laserRole e q k != 7)
      if active = false ∨ x.boot ≠ 0 then b1
      else match b1.nom e q k with
        | some nom => b1.judgeLaser e q k v nom
        | none => b1.firstNom e q k v
  let s1 := (List.range 28).foldl one s
  let tap (b : Box) (j : Nat) : Box :=
    match r.taps[j]? with
    | some v => b.wr (TRP_TAP_PWR (32 * e + j)) (ofSigned 16 v)
    | none => b
  let s2 := (List.range 32).foldl tap s1
  s2.setEngine e { s2.engine e with monRun := false }

/-- MONITOR_INTEGRATION (R304): free-running, or the integration a firing has started. -/
def execMonitorIntegration (e : EngIx) (rd : MonReadings) (s : State) : Result :=
  s.actRun fun b => if b.is (SPT_MON_CTRL_SRC e.toNat) = false ∨ (b.engine e.toNat).monRun = true
      ∨ (b.engine e.toNat).monFree = true then b.integrate e.toNat rd else b

/-- An integration time in ticks (R303). -/
def monTicks (code : Nat) : Nat := 640 * 10 ^ code

/-- Ten integration times without a firing: Spotlight integrates itself and runs free until the next firing (R304). -/
def Box.monStarved (s : Box) (e : Nat) (r : MonReadings) : Box :=
  let x := s.engine e
  if s.is (SPT_MON_CTRL_SRC e) = true ∧ x.monFree = false
      ∧ x.monAt + 10 * monTicks (s.rd (SPT_MON_CTRL_INT e)) ≤ s.raw then
    ((s.setEngine e { x with monFree := true }).put (SPT_HEAT_STATUS_STARVED e) true).integrate e r
  else s

/-- MONITOR_STARVED (R304). -/
def execMonitorStarved (e : EngIx) (rd : MonReadings) (s : State) : Result := s.actRun fun b => b.monStarved e.toNat rd

/-- A trigger unit with ACTION 2 fires: every converter starts, or the firing is ignored and counted (R304). -/
def Box.monFire (s : Box) (e : Nat) : Box :=
  let x := s.engine e
  if s.is (SPT_MON_CTRL_SRC e) = false then s
  else if x.monRun then (s.count (sptPage (e / 2)) (2 + e % 2)).setEngine e { x with monAt := s.raw, monFree := false }
  else s.setEngine e { x with monRun := true, monAt := s.raw, monFree := false }

/-- The module reports spare `k` tuned and locked (R308). -/
def Box.spareReady (s : Box) (e q k : Nat) : Box :=
  let g := s.lgroup e q
  match g.arms.find? fun a => !a.ready && a.spare == k with
  | none => s
  | some a =>
    let arms := g.arms.map fun b => if b.spare = a.spare then { b with ready := true } else b
    ((s.setLgroup e q { g with arms := arms }).wr (laserState e q a.spare) 7).sparesFree e q

/-- SPARE_READY (R308). -/
def execSpareReady (e : EngIx) (q : BitVec 2) (upper : Bool) (s : State) : Result :=
  s.actRun fun b => b.spareReady e.toNat q.toNat (if upper then 6 else 5)

/-- The λk transmit microrings of a group's eight fibre pairs; a pair in eye-safety shutdown is skipped (R312). -/
def Box.groupSites (s : Box) (e q w : Nat) : List Nat :=
  ((List.range 8).filter fun j => !s.inApr (32 * e + 8 * q + j)).map fun j => 5 * (8 * q + j) + w

/-- A microring is held: its setpoint is frozen (R302). -/
def Box.ringHold (s : Box) (e i : Nat) : Box :=
  let st := s.rd (ringState e i)
  if st ∈ [1, 2, 3, 5] then (s.setRing e i { s.ring e i with seeking := st == 1 }).ringTo e i 4 else s

/-- A held microring is released: its loop resumes from the frozen setpoint, a search from its step, and a locked one is
verified again; a parked one, which no laser line lies near, is parked on (R302).
DESIGN CHOICE, log entry 161. -/
def Box.ringRelease (s : Box) (e i : Nat) : Box :=
  let x := s.ring e i
  if s.rd (ringState e i) = 4 then (s.setRing e i { x with seeking := false }).ringTo e i (if x.seeking then 1 else if x.parked then 5 else 2) else s

/-- Every lane that can move is off the faded wavelength (R309). -/
def Box.lanesOff (s : Box) (e q w : Nat) : Bool :=
  ((groupPairs e q).filter s.movable).all fun f => (s.lanePorts f w).isEmpty

/-- The swap of the oldest migration whose spare is ready, one at a time in a group (R309 steps 1 to 3, R312): where a lane is still
on the wavelength without a pending change, the change is asked for again. Pairs in eye-safety shutdown are skipped, and ports in a
bypass window, whose lanes carry no flits, need no pause. -/
def Box.laserSwap (s : Box) (e q : Nat) : Box :=
  let g := s.lgroup e q
  match g.arms.find? fun a => a.mig && a.ready with
  | none => s
  | some a =>
    if g.arms.any (fun b => b.swap) then s
    else
      let w := s.laserRole e q a.laser
      if s.lanesOff e q w = false then s.moveLanes e q w a.forced
      else
        let ports := ((groupPairs e q).filter fun f => s.pairMode f == 3 && s.movable f && decide (w < 4)).map fun f => 4 * f + w
        let s1 := ports.foldl (fun b p => b.sendPause p 32000) s
        let s2 := (s.groupSites e q w).foldl (fun (b : Box) i => b.ringHold e i) s1
        let arms := g.arms.map fun b => if b.laser = a.laser then { b with swap := true } else b
        (s2.setLgroup e q { s2.lgroup e q with arms := arms, syncAt := s.raw, paused := ports, held := s.groupSites e q w }).emit
          (.elmSync e)

/-- LASER_SWAP (R309). -/
def execLaserSwap (e : EngIx) (q : BitVec 2) (s : State) : Result := s.actRun fun b => b.laserSwap e.toNat q.toNat

/-- 15 µs after ELM_SYNC (R309 steps 5 to 7): holds are released, paused ports resumed, the old laser is retired and
the spare takes its role, counted in SPT_SWAPS. -/
def Box.laserRelease (s : Box) (e q : Nat) : Box :=
  let g := s.lgroup e q
  match g.arms.find? fun a => a.swap with
  | none => s
  | some a =>
    if s.raw < g.syncAt + 9600 then s
    else
      let w := s.laserRole e q a.laser
      let s1 := g.held.foldl (fun (b : Box) i => b.ringRelease e i) s
      let s2 := g.paused.foldl (fun b p => b.sendResume p) s1
      let old := laserIx e q a.laser
      let new := laserIx e q a.spare
      let t := e / 2
      let s3 := ((s2.wr (laserState e q a.laser) 5).wr (SPT_LSR_CFG_ROLE t old) 7).wr (SPT_LSR_CFG_ROLE t new) w
      let s4 := (s3.wr (SPT_LSR_CFG_NOM t new) (s.rd (SPT_LSR_CFG_NOM t old))).setLaser e q a.spare {}
      let rest := g.arms.filter fun b => b.laser != a.laser
      let s5 := s4.setLgroup e q { s4.lgroup e q with arms := rest, paused := [], held := [], back := w :: g.back }
      ((s5.put (SPT_LSR_GROUP_SWAP_BUSY t (groupIx e q)) (rest.any fun b => b.mig)).sparesFree e q).count (sptPage t)
        (70 + groupIx e q)

/-- LASER_SWAP_RELEASE (R309). -/
def execLaserSwapRelease (e : EngIx) (q : BitVec 2) (s : State) : Result :=
  s.actRun fun b => b.laserRelease e.toNat q.toNat

/-- The S9 moves a module between its states (R305): to ModuleReady when firmware starts and before an engine comes up, to
ModuleLowPwr when the engine is taken down.
DESIGN CHOICE, log entry 178. -/
def Box.moduleMove (s : Box) (e : Nat) (ready : Bool) : Box :=
  (if ready then s.emit (.laserBus e 0 .identify) else s).emit (.laserBus e 0 (.module ready))

/-- Every 10 ms a module's state, flags and per-laser monitors are read over the laser bus and logged (R305): a laser it reports
failed is handled as at -3.0 dB (R312); `failed` names lasers as 7 q + laser. -/
def Box.modulePoll (s0 : Box) (e : Nat) (ready : Bool) (failed : List Nat) (monitors : List Int) : Box :=
  let x := s0.engine e
  if s0.raw < x.pollAt + 6400000 then s0 else
  let s := (s0.setEngine e { x with pollAt := s0.raw, ready := ready, polls := x.polls ++ [(s0.raw, ready, failed, monitors)] }).emit
    (.laserBus e 0 .flags)
  (failed.filter (· < 28)).foldl (fun (b : Box) n =>
    let st := b.rd (laserState e (n / 7) (n % 7))
    if (1 ≤ st ∧ st ≤ 3) ∨ (st = 7 ∧ b.laserRole e (n / 7) (n % 7) ≠ 7) then b.migrate e (n / 7) (n % 7) true else b) s

/-- MODULE_POLL (R305). -/
def execModulePoll (e : EngIx) (ready : Bool) (failed : List Nat) (monitors : List Int) (s : State) : Result :=
  s.actRun fun b => b.modulePoll e.toNat ready failed monitors

/-- A 6 dB drop at a laser-input tap (R318): ELM_EN goes low, INPUT_LOST and SPT cause 1 are set, and the engine must be
brought up again.
DEDUCED, log entry 113. -/
def Box.inputLost (s : Box) (e q : Nat) : Box :=
  let s1 := ((s.setEngine e { s.engine e with elm := false, boot := 0 }).emit (.elmEn e false)).moduleMove e false
  let rdy := if e % 2 = 0 then SPT_STATUS_READY0 (e / 2) else SPT_STATUS_READY1 (e / 2)
  ((s1.put rdy false).put (SPT_LSR_GROUP_INPUT_LOST (e / 2) (groupIx e q)) true).laserInt e

/-- LASER_INPUT_LOST (R318). -/
def execLaserInputLost (e : EngIx) (q : BitVec 2) (s : State) : Result := s.actRun fun b => b.inputLost e.toNat q.toNat

/-! ### Receive lane health (R313) -/

/-- The fibre pair of a port is joined through Trapeze or switching. -/
def Box.joined (s : Box) (f : Nat) : Bool := s.is (pairBit TRP_JOINED_JOINED f)

/-- Once every millisecond the counts of every receive lane are read, and a lane of a port that is up whose uncorrectable count has
risen by UNCORR_LIM or more is reported with LANE_FAIL and a fault event (R313; 12_faults.md R360); while the pair is joined the
counts are not read (R322). -/
def Box.laneHealth (s : Box) (p : Nat) : Box :=
  let f := p / 4
  if s.joined f then s
  else
    let t := p / 256
    let cnt (w : Nat) : Int := (s.ctr (lnkPage t) (2305 + 2 * (5 * (f % 64) + w))).toNat
    let lim := s.rd (SPT_LANE_CFG_UNCORR_LIM t)
    let prev := (s.port p).fecPrev
    let lanes := if s.up p then s.rxLanes p else []
    let bad := (List.range lanes.length).filter fun i =>
      let w := lanes.getD i 0
      decide (lim ≠ 0) && decide ((lim : Int) ≤ (cnt w - prev.getD w 0) % 2 ^ 64)
    let s1 := s.setPort p { s.port p with fecPrev := (List.range 5).map cnt }
    bad.foldl (fun b i => (b.laneFault p (lanes.getD i 0)).sendCtl p (msgLaneFail i)) s1

/-- LANE_HEALTH_CHECK (R313). -/
def execLaneHealthCheck (p : Slot) (s : State) : Result := s.actRun fun b => b.laneHealth p.toNat

/-! ### Eye safety (R315 to R317) -/

/-- A fibre pair enters APR: its shutter closes, counted in SPT_APR_EVENTS, SPT cause 2. -/
def Box.aprEnter (s : Box) (f : Nat) : Box :=
  if s.pairMode f = 0 ∨ s.inApr f = true then s
  else
    let t := f / 64
    (((s.put (pairBit SPT_APR_STATUS_APR f) true).setApr f ⟨s.raw, s.raw, false⟩).count (sptPage t) (6 + f % 64)).raiseInt
      (sptPage t) 2

/-- APR_ENTER (R315). -/
def execAprEnter (f : FpIx) (s : State) : Result := s.actRun fun b => b.aprEnter f.toNat

/-- Every 100 ms, from 100 ms after entry, the shutter opens (R316). -/
def Box.aprPulse (s : Box) (f : Nat) : Box :=
  let x := s.apr f
  if s.pairMode f ≠ 0 ∧ s.inApr f = true ∧ x.open_ = false ∧ x.pulseAt + 64000000 ≤ s.raw then
    s.setApr f { x with pulseAt := s.raw, open_ := true }
  else s

/-- APR_PULSE_START (R316). -/
def execAprPulseStart (f : FpIx) (s : State) : Result := s.actRun fun b => b.aprPulse f.toNat

/-- After 2 ms the shutter closes again (R316). -/
def Box.aprPulseEnd (s : Box) (f : Nat) : Box :=
  let x := s.apr f
  if s.inApr f = true ∧ x.open_ = true ∧ x.pulseAt + 1280000 ≤ s.raw then s.setApr f { x with open_ := false } else s

/-- APR_PULSE_END (R316). -/
def execAprPulseEnd (f : FpIx) (s : State) : Result := s.actRun fun b => b.aprPulseEnd f.toNat

/-- A fibre pair leaves APR with the shutter open (R316): its receive microrings are searched where they were off, and
verified again where they were locked (R312, R319 step 6), after which its enabled ports train from the start; parked ones
stay parked.
DESIGN CHOICE, log entry 161. -/
def Box.aprExit (s : Box) (f : Nat) : Box :=
  if s.pairMode f = 0 ∨ s.inApr f = false then s
  else
    let e := f / 32
    let s1 := (s.put (pairBit SPT_APR_STATUS_APR f) false).setApr f { s.apr f with open_ := true }
    (pairRings f).foldl (fun (b : Box) i =>
      let st := b.rd (ringState e i)
      if st = 0 then (if 160 ≤ i ∧ s.ringQuar e i = false then b.ringSearch e i else b)
      else if st = 3 then b.ringTo e i 2 else b) s1

/-- APR_EXIT (R316). -/
def execAprExit (f : FpIx) (s : State) : Result := s.actRun fun b => b.aprExit f.toNat

/-! ### Bringing an engine up (R319) -/

/-- READY of an engine. -/
def engReady (e : Nat) : Fld := if e % 2 = 0 then SPT_STATUS_READY0 (e / 2) else SPT_STATUS_READY1 (e / 2)

/-- The lasers of an engine as 7 q + laser: none that is retired (R328). -/
def Box.litLasers (s : Box) (e : Nat) : List Nat := (List.range 28).filter fun n => s.rd (laserState e (n / 7) (n % 7)) != 5

/-- Those that serve a wavelength (R298). -/
def Box.activeLasers (s : Box) (e : Nat) : List Nat := (s.litLasers e).filter fun n => s.laserRole e (n / 7) (n % 7) != 7

/-- Every laser is set to NOM less `down`, the active ones with the tone of their wavelength, a spare that is idle without one
(R298, R319). -/
def Box.setLasers (s : Box) (e : Nat) (down : Int) : Box :=
  (s.litLasers e).foldl (fun (b : Box) n =>
    let role := b.laserRole e (n / 7) (n % 7)
    b.emit (.laserBus e (n / 7)
      (.power (n % 7) ((b.nom e (n / 7) (n % 7)).map (· - down)) (if role = 7 then none else some role)))) s

/-- START (R319): ignored with the access-error indication while READY or a bring-up is in progress; else the module is
moved to ModuleReady where it is not, its vendor data are read, every laser is set to NOM - 10 dB with its tone, and ELM_EN rises
(R305). -/
def Box.engineStart (s : Box) (src : Requester) (e : Nat) : Box :=
  if s.is (engReady e) = true ∨ (s.engine e).boot ≠ 0 then s.accErrAt (SPT_CTRL_at (e / 2)) src
  else
    let s0 := if (s.engine e).ready then s else s.moduleMove e true
    let s1 := (s0.setEngine e { s.engine e with boot := 1, bootAt := s.raw, elm := true }).emit (.laserBus e 0 .vendor)
    (s1.setLasers e 1000).emit (.elmEn e true)

/-- ENGINE_START (R319). -/
def execEngineStart (src : Requester) (e : EngIx) (s : State) : Result :=
  s.actReg (SPT_CTRL_at (e.toNat / 2)) src fun b => b.engineStart src e.toNat

/-- A reduced laser power lies within ±1.5 dB of NOM - 10 dB; where NOM is not set, what it is held against is not
stated (R306, R319). -/
def Box.litOk (s : Box) (e : Nat) (pwr : List Int) (free : Nat) (n : Nat) : Bool :=
  match s.nom e (n / 7) (n % 7), pwr[n]? with
  | some nom, some v => decide (-150 ≤ v - (nom - 1000)) && decide (v - (nom - 1000) ≤ 150)
  | some _, none => false
  | none, _ => (Config.freeBits (free + n)).getLsbD 0

/-- The continuity check of step 2 (R319): `pwr` holds the lasers' powers by 7 q + laser. A failure lowers ELM_EN and sets
CONTINUITY with SPT cause 4; otherwise the lasers ramp to NOM, those that were absent are active and the spares idle, and the
transmit microrings of enabled fibre pairs are searched. -/
def Box.continuity (s : Box) (e : Nat) (pwr : List Int) : Box :=
  let x := s.engine e
  if x.boot ≠ 1 ∨ s.raw < x.bootAt + 6400000 then s
  else
    let s0 : Box := { s with freeCtr := s.freeCtr + 28 }
    if (s.activeLasers e).all (s.litOk e pwr s.freeCtr) = false then
      let f := if e % 2 = 0 then SPT_STATUS_CONTINUITY0 (e / 2) else SPT_STATUS_CONTINUITY1 (e / 2)
      ((((s0.setEngine e { x with boot := 0, elm := false }).emit (.elmEn e false)).moduleMove e false).put f true).raiseInt
        (sptPage (e / 2)) 4
    else
      let lit (b : Box) (n : Nat) : Box :=
        let st := b.rd (laserState e (n / 7) (n % 7))
        if st = 0 then b.wr (laserState e (n / 7) (n % 7)) (if n % 7 < 5 then 1 else 6) else b
      let s1 := (List.range 28).foldl lit ((s0.setEngine e { x with boot := 2 }).setLasers e 0)
      ((List.range 32).filter fun j => s.pairEnabled (32 * e + j)).foldl (fun (b : Box) j =>
        ((List.range 5).filter fun k => !s.ringQuar e (5 * j + k)).foldl (fun b k => b.ringSearch e (5 * j + k)) b) s1

/-- ENGINE_CONTINUITY_CHECK (R319). -/
def execEngineContinuityCheck (e : EngIx) (pwr : List Int) (s : State) : Result :=
  s.actRun fun b => b.continuity e.toNat pwr

/-- Steps 4 and 5 (R319): once the transmit microrings of enabled fibre pairs are verified, the matrix is calibrated and
READY is set with SPT cause 5; a failed calibration sets FAIL and READY waits. -/
def Box.engineUp (s : Box) (e : Nat) (cal : CalResult) : Box :=
  let x := s.engine e
  let done := ((List.range 32).filter fun j => s.pairEnabled (32 * e + j)).all fun j =>
    (List.range 5).all fun k => decide (s.rd (ringState e (5 * j + k)) ∈ [3, 5]) || s.ringQuar e (5 * j + k)
  if x.boot ≠ 2 ∨ done = false then s
  else
    let s0 := s.setEngine e { x with calLost := false }
    let s1 := (s0.put (SPT_XT_STATUS_BUSY e) true).calEnd e cal
    if s0.calFails e cal = false then
      ((s1.setEngine e { s1.engine e with boot := 0 }).put (engReady e) true).raiseInt (sptPage (e / 2)) 5
    else s1

/-- ENGINE_READY (R319). -/
def execEngineReady (e : EngIx) (cal : CalResult) (s : State) : Result := s.actRun fun b => b.engineUp e.toNat cal

/-! ### Trapeze (R320 to R322) -/

/-- A gate list that holds a bypass entry runs on a port or has been committed there. -/
def Box.bypassList (s : Box) (p : Nat) : Bool :=
  let has (b : Nat) : Bool := (List.range (s.glLen p b)).any fun k => s.entBypass p b k
  (s.listRuns p && has (s.activeBank p)) || ((s.cal p).switchAt.isSome && has (1 - s.activeBank p))

/-- A write of TRP_XCONN (R321): with VALID both entries are written, or the write is rejected with the access-error
indication; without it the entry alone.
DEDUCED, log entry 114. -/
def Box.xconnWrite (s : Box) (src : Requester) (f v : Nat) : Box :=
  let s0 := if natField v 5 26 = 0 then s else s.rsvWriteAt (TRP_XCONN_at f) src
  let g := f / 32 * 32 + v % 32
  if natField v 31 1 = 0 then (s0.put (TRP_XCONN_VALID f) false).wr (TRP_XCONN_PARTNER f) (v % 32)
  else
    let other := s0.is (TRP_XCONN_VALID g) && s0.rd (TRP_XCONN_PARTNER g) != f % 32
    if other || s0.joined f || s0.joined g || s0.bypassList (4 * f) || s0.bypassList (4 * g) then
      s0.accErrAt (TRP_XCONN_at f) src
    else
      let one (b : Box) (x y : Nat) : Box := (b.put (TRP_XCONN_VALID x) true).wr (TRP_XCONN_PARTNER x) (y % 32)
      one (one s0 f g) g f

/-- TRP_XCONN_WRITE (R321). -/
def execTrpXconnWrite (src : Requester) (f : FpIx) (value : Word) (s : State) : Result :=
  s.actReg (TRP_XCONN_at f.toNat) src fun b => b.xconnWrite src f.toNat value.toNat

/-- The port joined to this one is at the start of a bypass entry at the same tick (R131, R321). -/
def Box.partnerWindow (s : Box) (p start : Nat) : Bool :=
  let f := p / 4
  let q := 4 * (f / 32 * 32 + s.rd (TRP_XCONN_PARTNER f))
  s.is (TRP_XCONN_VALID f) && s.listRuns q && (s.gateNow q).bypass && (s.gateNow q).start == start

/-- A bypass entry begins (R131): the port sends nothing more, silence detection stops, and Trapeze connects the pair
and holds its receive microrings, or counts a mismatch with CAL cause 0. -/
def Box.bypassStart (s : Box) (p : Nat) : Box :=
  let g := s.gateNow p
  if s.listRuns p = false ∨ g.bypass = false ∨ (s.cal p).window ≠ .none then s
  else
    let e := p / 4 / 32
    let end_ := g.stop.getD 0
    let s1 := s.setPort p { s.port p with inWindow := true, realign := [], aligning := false }
    if s.partnerWindow p g.start then
      let s2 := (s1.setCal p { s1.cal p with window := .connected, winEnd := end_ }).put (pairBit TRP_JOINED_JOINED (p / 4)) true
      ((pairRings (p / 4)).filter (160 ≤ ·)).foldl (fun (b : Box) i => b.ringHold e i) s2
    else
      (((s1.setCal p { s1.cal p with window := .dark, winEnd := end_ }).calCount 1 p 1).raiseInt (calPage (p / 256)) 0).envEvent
        p 2

/-- BYPASS_START (R131). -/
def execBypassStart (p : Slot) (s : State) : Result := s.actRun fun b => b.bypassStart p.toNat

/-- 7,680 tk before the entry's end Trapeze restores the fibres (R131). -/
def Box.bypassRestore (s : Box) (p : Nat) : Box :=
  let x := s.cal p
  if x.window = .connected ∧ x.winEnd ≤ s.tentTick (p / 256) + 7680 then s.setCal p { x with window := .restoring } else s

/-- BYPASS_RESTORE (R131). -/
def execBypassRestore (p : Slot) (s : State) : Result := s.actRun fun b => b.bypassRestore p.toNat

/-- The end of a bypass entry in force (R131 step 4): the slot counter starts at 0 and sending resumes; the receiver
realigns within 5,120 tk. After a join the receive microrings are released and verified (R322). -/
def Box.bypassStop (s : Box) (p : Nat) : Box :=
  let x := s.cal p
  if x.window = .none then s
  else
    let e := p / 4 / 32
    let y := s.port p
    let s1 := (s.setCal p { x with window := .none }).setPort p
      { y with inWindow := false, txSlot := 0, realign := [], aligning := s.up p, darkTill := some (s.raw + 5120) }
    let s2 := s1.put (pairBit TRP_JOINED_JOINED (p / 4)) false
    if x.window = .dark then s2
    else ((pairRings (p / 4)).filter (160 ≤ ·)).foldl (fun (b : Box) i =>
      if b.rd (ringState e i) = 4 then Box.ringRelease (b.setRing e i { b.ring e i with byp := true }) e i else b) s2

/-- The entry ends at its stop tick (R131 step 4). -/
def Box.bypassEnd (s : Box) (p : Nat) : Box :=
  if s.tentTick (p / 256) < (s.cal p).winEnd then s else s.bypassStop p

/-- Fabric time jumps (R135): under a running list the entry in force ends at once, a bypass entry with it, and the list goes
on at the position of the new time. -/
def Box.listJump (s : Box) (p : Nat) : Box := if s.listRuns p then (s.bypassStop p).glDiscont p else s

/-- BYPASS_END (R131). -/
def execBypassEnd (p : Slot) (s : State) : Result := s.actRun fun b => b.bypassEnd p.toNat

/-- 5,120 tk after a window's end silence is detected again, and a receiver that has not realigned takes the port down
(R131). -/
def Box.realignTimeout (s : Box) (p : Nat) : Box :=
  match (s.port p).darkTill with
  | some t =>
    if s.raw < t then s
    else if (s.port p).aligning then s.portDown p
    else s.setPort p { s.port p with darkTill := none }
  | none => s

/-- BYPASS_REALIGN_TIMEOUT (R131). -/
def execBypassRealignTimeout (p : Slot) (s : State) : Result := s.actRun fun b => b.realignTimeout p.toNat

end Sys2Proof.Machine
end

