-- ==== Sys2Proof/Machine/Fault.lean ====
section
/-!
DEFINITION. Fatal conditions, fail-stop and the dump (12_faults.md R378 to R381), failed Ringmaster cores (01_architecture.md
R25), UCIe modules (R15), and excursions from the guaranteed corner (R21).
-/

namespace Sys2Proof.Machine

/-! ### Stopping -/

/-- TRAIN flits leave on every port that is up (R378; 15_boot_security.md R430). -/
def Box.trainAll (s : Box) : Box := (allSlots.filter s.up).foldl (fun b p => b.trainFlit p) s

/-- BOOT_STATE (15_boot_security.md R433). -/
def Box.bootState (s : Box) : Nat := s.rd SEC_BOOT_STATUS_BOOT_STATE

/-- Firmware runs: it has been handed control and not every core is lost. -/
def Box.firmware (s : Box) : Bool := s.bootState == 1 && decide (s.cores.length < 5)

/-- The device state that PLDM reports (14_host_mgmt.md R425), in the order of its list: 0 booting, 1 running, 2
fail-stopped, 3 dump ready. -/
def Box.deviceState (s : Box) : Nat :=
  if s.phase = .failStopped then (if s.is MGT_DUMP_STATUS_DONE then 3 else 2)
  else if s.bootState = 1 then 1
  else 0

/-- A PlatformEventMessage with the device state (R425). -/
def Box.pldmNotify (s : Box) : Box := if s.firmware then s.emit (.reply (.pldmEvent s.deviceState)) else s

/-- Every page reports FROZEN (14_host_mgmt.md R419). -/
def Box.freeze (s : Box) : Box := allPages.foldl (fun b p => b.put (PAGE_STATUS_FROZEN p) true) s

/-- A fatal condition (R378): launches and intake stop, TRAIN flits leave; the dump begins unless every core is lost or the
previous dump waits for its acknowledgement. One during a dump is recorded as its second cause and becomes CAUSE; where it is
the loss of every core, no dump can be written any more (R377).
DEDUCED, log entry 125. -/
def Box.fatal (s : Box) (c : Nat) : Box :=
  if s.phase = .failStopped then
    if s.is MGT_DUMP_STATUS_WRITING = false then s
    else
      let s1 := ({ s with dump := { s.dump with add := c } } : Box).wr MGT_DUMP_STATUS_CAUSE c
      if c = 4 then { (s1.put MGT_DUMP_STATUS_WRITING false).put MGT_DUMP_STATUS_NODUMP true with alarm := true } else s1
  else
    let s1 : Box := { s.trainAll with
      phase := .failStopped, dump := { s.dump with cause := c, add := 0, ftick := s.nowTick, raw := s.raw } }
    let s2 := s1.freeze.wr MGT_DUMP_STATUS_CAUSE c
    let s3 :=
      if c = 4 then { s2.put MGT_DUMP_STATUS_NODUMP true with alarm := true }
      else if s.dump.held then s2.put MGT_DUMP_STATUS_SKIPPED true
      else s2.put MGT_DUMP_STATUS_WRITING true
    s3.pldmNotify

/-- CAUSE of a fatal condition (R378). -/
def fatalCode : FatalCause → Nat
  | .tables => 1
  | .arbitration => 2
  | .master => 3
  | .cores => 4
  | .assertion => 5
  | .watchdog => 6
  | .ordered => 7

/-- FATAL_CONDITION (R378): a cause of its table.
DESIGN CHOICE, log entry 148. -/
def execFatalCondition (cause : FatalCause) (s : State) : Result := s.act fun b => b.fatal (fatalCode cause)

/-- WATCHDOG_EXPIRE (R378): the watchdog is armed while firmware runs (15_boot_security.md R433).
DESIGN CHOICE, log entry 139. -/
def execWatchdogExpire (s : State) : Result := s.act fun b => if b.bootState = 1 then b.fatal 6 else b

/-- Management requests in flight to a failed core are lost (01_architecture.md R25): which of the requests that wait it had is
not stated, so a free value says it of each frame of kind 0 in the inbox and of the update command in progress.
DESIGN CHOICE, log entry 151. -/
def Box.requestsLost (s : Box) : Box :=
  let (k, s1) := s.takeFree
  let v := Config.freeBits k
  let keep := (s1.inbox.zipIdx.filter fun x => frKind x.1 != 0 || !v.getLsbD (1 + x.2 % 63)).map (·.1)
  let s2 : Box := { s1 with inbox := keep }
  if v.getLsbD 0 && s2.update.op.isSome then
    { s2.put SEC_FWUP_STATUS_BUSY false with update := { s2.update with op := none } }
  else s2

/-- On three cores firmware calibrates at a reduced rate, which the spec does not state (01_architecture.md R25): every interval is
longer by a free number of seconds, and the next calibration is the first at the new rate.
DESIGN CHOICE, log entry 151. -/
def Box.shedCalibration (s : Box) : Box :=
  if s.cores.length = 2 then
    let (k, s1) := s.takeFree
    let s2 : Box := { s1 with calShed := 1 + (Config.freeBits k).toNat % 65535 }
    (List.range 16).foldl (fun b e => b.setEngine e { b.engine e with calSlot := b.calSlots e }) s2
  else s

/-- A Ringmaster core fails (R360; 01_architecture.md R25): its fault event, the requests it had are lost, and on three cores
calibration is shed; the fifth of the five cores is fatal. -/
def Box.coreFail (s : Box) (c : Nat) : Box :=
  if c ∈ s.cores then s
  else
    let (k, s1) := s.takeFree
    let s2 := ((({ s1 with cores := c :: s1.cores } : Box).postFault 8 ((Config.freeBits k).toNat % 256) c 8 0).requestsLost).shedCalibration
    if 5 ≤ s2.cores.length then s2.fatal 4 else s2

/-- CORE_FAIL (01_architecture.md R25). -/
def execCoreFail (core : Fin 5) (s : State) : Result := s.act fun b => b.coreFail core.toNat

/-! ### Orders of the dump (R378, R381) -/

/-- Wall time now in ns: as set, and the raw ticks of 1.5625 ns since; 0 while it has not been set (00_scope.md R6).
DESIGN CHOICE, log entry 123. -/
def Box.wallNow (s : Box) : Nat :=
  match s.wall with
  | some (ns, at_) => ns + (s.raw - at_) * 25 / 16
  | none => 0

/-- A write of MGT_DUMP_CMD (R378, R381): ACK first, then FATAL. -/
def Box.dumpCmd (s : Box) (src : Requester) (v : Nat) : Box :=
  let s1 := s.rsvCheck src MGT_DUMP_CMD_at v
  let s2 : Box := if v.testBit 30 then { s1 with dump := { s1.dump with held := false } } else s1
  if v.testBit 31 then s2.fatal 7 else s2

/-- DUMP_FATAL_ORDER (R381). -/
def execDumpFatalOrder (src : Requester) (s : State) : Result :=
  s.actReg MGT_DUMP_CMD_at src fun b => b.dumpCmd src (2 ^ 31)

/-- DUMP_ACK (R378). -/
def execDumpAck (src : Requester) (s : State) : Result := s.actReg MGT_DUMP_CMD_at src fun b => b.dumpCmd src (2 ^ 30)

/-! ### Tent links (01_architecture.md R15, R463) -/

/-- A UCIe module is removed: DEGRADED, UNFIT with 30 or fewer, MDW cause 0; which module it was is not stated. -/
def Box.moduleFail (s : Box) (t : Nat) : Box :=
  let n := s.rd (MDW_LINK_STATUS_MODULES t)
  if n = 0 then s
  else
    let (k, s1) := s.takeFree
    let v := (Config.freeBits k).toNat
    let s2 := ((s1.wr (MDW_LINK_STATUS_MODULES t) (n - 1)).put (MDW_LINK_STATUS_DEGRADED t) true).put
      (MDW_LINK_STATUS_UNFIT t) (decide (n ≤ 31))
    (s2.postFault 4 (v / 64 % 256) (v % 40) t 0).raiseInt mdwPage 0

/-- UCIE_MODULE_FAIL (R15). -/
def execUcieModuleFail (t : TentIx) (s : State) : Result := s.actRun fun b => b.moduleFail t.toNat

/-! ### The guaranteed corner (01_architecture.md R21; 16_registers.md R464; 17_electrical_package.md R479) -/

/-- A reading of the core rail: RAIL_LOW follows (R464). -/
def Box.coreRail (s : Box) (mv : Nat) : Box :=
  (s.wr (PWR_RAIL_MV 0) mv).put PWR_ENV_STATUS_RAIL_LOW (decide (mv < 620))

/-- A reading of a die's junction: TJ_HIGH and TJ_MAX follow (R464; 17_electrical_package.md R479). -/
def Box.junction (s : Box) (die tj : Nat) : Box :=
  let s1 := s.wr (PWR_TJ_TJ die) tj
  let temps := (List.range 9).map fun d => toSigned 16 (s1.rd (PWR_TJ_TJ d))
  (s1.put PWR_ENV_STATUS_TJ_HIGH (temps.any fun x => decide (840 < x))).wr PWR_ENV_STATUS_TJ_MAX
    (ofSigned 8 (temps.foldl max (-1024) / 8))

/-- BELOW_GUARANTEE follows RAIL_LOW and TJ_HIGH: when it is set the excursion is counted, PWR cause 0, and every port
leaves scheduled operation (07_determinism_audit.md R190); when it clears, PWR cause 1. -/
def Box.guarantee (s : Box) : Box :=
  let below := s.is PWR_ENV_STATUS_RAIL_LOW || s.is PWR_ENV_STATUS_TJ_HIGH
  let was := s.is PWR_ENV_STATUS_BELOW_GUARANTEE
  let s2 := s.put PWR_ENV_STATUS_BELOW_GUARANTEE below
  if below && !was then
    let s3 := (s2.count pwrPage 0).raiseInt pwrPage 0
    s3.envBreakAll (List.range 8) 0
  else if !below && was then s2.raiseInt pwrPage 1
  else s2

/-- Readings of the core rail and of a die's junction. -/
def Box.envUpdate (s : Box) (mv die tj : Nat) : Box := ((s.coreRail mv).junction die tj).guarantee

end Sys2Proof.Machine
end

