-- ==== Sys2Proof/Machine/Flash.lean ====
section
/-!
DEFINITION. The boot flash and what it holds (15_boot_security.md R434, R435), the checks of an image (R437), and the fuse
operations (R438).
-/

namespace Sys2Proof.Machine

/-! ### Flash devices (R434) -/

/-- The key of a flash byte: chip select and offset. -/
def flashKey (cs off : Nat) : Nat := cs * 2 ^ 26 + off

/-- Where the identity sector of a device begins: its last 64 KiB. -/
def identityAt : Nat := 0x3FF0000

/-- What a flash byte reads as where nothing has programmed it: erased, and the identity sector as manufactured. -/
def flashDflt (k : Nat) : Byte := if k % 2 ^ 26 < identityAt then 0xFF else Config.identity (k / 2 ^ 26) (k % 2 ^ 26 - identityAt)

/-- Reads bytes of a flash device. -/
def Box.flashRead (s : Box) (cs off n : Nat) : List Byte := mapRange flashDflt s.flash (flashKey cs off) n

/-- Programs bytes: bits only change from 1 to 0. -/
def Box.flashProgram (s : Box) (cs off : Nat) (bs : List Byte) : Box :=
  let old := s.flashRead cs off bs.length
  { s with flash := mapSetAll flashDflt s.flash (flashKey cs off) (List.zipWith (· &&& ·) old bs) }

/-- The S9 leaves its SPI pins at high impedance: in reset, and in BOOT_STATE 2 (R434; 17_electrical_package.md R486). -/
def Box.spiHighZ (s : Box) : Bool := s.phase == .held || s.bootState == 2

/-- The instruction that acts: boundary scan at all times, and with DEBUG_LOCKED every other as BYPASS
(17_electrical_package.md R486). -/
def tapActs (locked : Bool) : TapInstr → TapInstr
  | .other c => if locked then .bypass else .other c
  | i => i

/-- The board acts at the SPI pins, in BOOT_STATE 2 where they are left to it (R434), or at the JTAG port.
DESIGN CHOICE, log entry 165. -/
def Box.boardAct (s : Box) : BoardAct → Box
  | .flash cs off bytes =>
    if s.bootState = 2 then
      { s with flash := mapSetAll flashDflt s.flash (flashKey (b2n cs) off.toNat) (bytes.take (2 ^ 26 - off.toNat)) }
    else s
  | .jtag i => { s with tap := tapActs Config.debugLocked i }

/-- Erases a range of whole sectors. -/
def Box.flashErase (s : Box) (cs off n : Nat) : Box := { s with flash := mapClear s.flash (flashKey cs off) n }

/-- Where an image lies on its device, and how long it may be. -/
def imageAt : Nat := 0x10000
/-- 32 MiB. -/
def imageMax : Nat := 2 ^ 25

/-! ### Boot control records (R435) -/

/-- The record of a slot as bytes. -/
def Box.bootRec (s : Box) (slot : Nat) : List Byte := s.flashRead slot 0 64

/-- MAGIC and CRC of a record are right. -/
def recValid (r : List Byte) : Bool := leAt r 0 4 == 0x42435231 && leAt r 8 4 == (crc32c (r.take 8)).toNat
/-- GEN. -/
def recGen (r : List Byte) : Nat := leAt r 4 4
/-- TRIES. -/
def recTries (r : List Byte) : Nat := leAt r 12 1
/-- CONFIRM says confirmed. -/
def recConfirmed (r : List Byte) : Bool := leAt r 13 1 == 0

/-- A slot is usable (R436). -/
def recUsable (r : List Byte) : Bool := recValid r && leAt r 14 1 == 0xFF && (recConfirmed r || recTries r != 0)

/-- The first 15 bytes of a new record (R435, R446). -/
def newRec (gen : Nat) : List Byte :=
  let h := bytesLE 4 0x42435231 ++ bytesLE 4 gen
  h ++ bytesLE 4 (crc32c h).toNat ++ bytesLE 1 7 ++ [0xFF, 0xFF]

/-! ### Images (R437) -/

/-- Bytes of a slot's image. -/
def Box.imageBytes (s : Box) (slot off n : Nat) : List Byte := s.flashRead slot (imageAt + off) n

/-- MIN_SVN (R438). -/
def Box.minSvn (s : Box) : Nat := s.fuses.svn

/-- The first check of R437 that the image of a slot fails, in the order of its table, within a length; 0 where it passes
all.
DEDUCED, log entry 128. -/
def Box.imageReason (s : Box) (slot limit : Nat) : Nat :=
  let h := s.imageBytes slot 0 1024
  let bodyLen := leAt h 16 4
  let own := s.fuses.ownerMode
  let zero (i n : Nat) : Bool := (bytesAt h i n).all (· == 0)
  let vendorSig := bytesAt h 768 96
  if leAt h 0 4 ≠ 0x57465A42 ∨ leAt h 4 1 ≠ 1 ∨ leAt h 5 1 ≠ 1 then 1
  else if leAt h 6 1 < s.minSvn then 4
  else if zero 7 1 = false then 1
  else if (leAt h 12 4).testBit 0 = false then 3
  else if limit < 1024 + bodyLen ∨ bodyLen ≤ leAt h 20 4 then 2
  else if bytesAt h 24 48 ≠ sha384 (s.imageBytes slot 1024 bodyLen) then 9
  else if sha384 (bytesAt h 72 96) ≠ bytesBE 48 Config.vendorHash.toNat then 5
  else if own = true ∧ sha384 (bytesAt h 168 96) ≠ bytesBE 48 s.fuses.owner.toNat then 7
  else if zero 264 504 = false then 1
  else if ecdsaOk (bytesAt h 72 96) (sha384 (h.take 168 ++ List.replicate 96 0 ++ bytesAt h 264 504)) vendorSig = false then 6
  else if own = true ∧ ecdsaOk (bytesAt h 168 96) (sha384 (h.take 768 ++ vendorSig)) (bytesAt h 864 96) = false then 8
  else if zero 960 64 = false then 1
  else 0

/-! ### Fuse operations (R438; 17_electrical_package.md R471) -/

/-- SEC_FUSE_STATUS shows the fuses and the rail. -/
def Box.showFuses (s : Box) : Box :=
  ((((s.wr SEC_FUSE_STATUS_MIN_SVN s.fuses.svn).wr SEC_FUSE_STATUS_STEPPING 0xB0).put SEC_FUSE_STATUS_DEBUG_LOCKED
    Config.debugLocked).put SEC_FUSE_STATUS_OWNER_MODE s.fuses.ownerMode).put SEC_FUSE_STATUS_FUSE_RAIL s.fuseRail

/-- A fuse operation is cut short: a bit being blown may read either way, OWNER_MODE stays 0.
DESIGN CHOICE, log entry 127. -/
def Box.fuseBreak (s : Box) : Box :=
  match s.fuseOp with
  | none => s
  | some (.advance v) =>
    let (k, s1) := s.takeFree
    { s1 with fuseOp := none, fuses := { s1.fuses with
        svn := s1.fuses.svn + (Config.freeBits k).toNat % (v - s1.fuses.svn + 1) } }
  | some (.owner h) =>
    let part := (List.range 6).foldl (fun (a : BitVec 384) i => a <<< 64 ||| (Config.freeBits (s.freeCtr + i)).zeroExtend 384) 0
    { s with fuseOp := none, freeCtr := s.freeCtr + 6, fuses := { s.fuses with owner := s.fuses.owner ||| (h &&& part) } }

/-- VPP_FUSE crosses 2.3 V, at any time: its removal during a fuse operation acts as power loss. -/
def Box.fuseRailChange (s : Box) (present : Bool) : Box :=
  let s1 := { s with fuseRail := present }.put SEC_FUSE_STATUS_FUSE_RAIL present
  if present = false ∧ s.fuseOp.isSome then (s1.fuseBreak.put SEC_FUSE_STATUS_FUSE_BUSY false).showFuses else s1

/-- FUSE_RAIL_CHANGE (17_electrical_package.md R471). -/
def execFuseRailChange (present : Bool) (s : State) : Result := .next (s.onPart fun b => b.fuseRailChange present)

/-- A command to SEC_FUSE_CMD: taken only from the driver, with the rail present and no operation in progress, and where
the operation's own conditions hold. -/
def Box.fuseCmd (s : Box) (src : Requester) (v : Nat) : Box :=
  let a := SEC_FUSE_CMD_at
  let op := natField v 28 4
  let value := natField v 0 8
  let ok := match op with
    | 1 => s.is SEC_BOOT_STATUS_CONFIRMED && decide (s.minSvn < value) && decide (value ≤ s.rd SEC_BOOT_STATUS_SVN)
        && decide (value ≤ 128)
    | _ => !s.fuses.ownerMode
  if op ≠ 1 ∧ op ≠ 2 then s.rsvWriteAt a src
  else if src ≠ .driver ∨ s.fuseRail = false ∨ s.fuseOp.isSome ∨ ok = false then s.accErrAt a src
  else
    let hash := BitVec.ofNat 384 (natBE (wordBytesLE ((List.range 12).map fun i => s.word (SEC_WIN_at i))))
    { (s.rsvCheck src a v).put SEC_FUSE_STATUS_FUSE_BUSY true with
      fuseOp := some (if op = 1 then .advance value else .owner hash) }

/-- ADVANCE_SVN (R438). -/
def execAdvanceSvn (src : Requester) (value : BitVec 8) (s : State) : Result :=
  s.actReg SEC_FUSE_CMD_at src fun b => b.fuseCmd src (2 ^ 28 + value.toNat)

/-- SET_OWNER (R438). -/
def execSetOwner (src : Requester) (s : State) : Result := s.actReg SEC_FUSE_CMD_at src fun b => b.fuseCmd src (2 * 2 ^ 28)

/-- The bits are blown and verified, OWNER_MODE last: FUSE_BUSY clears, SEC cause 2. -/
def Box.fuseDone (s : Box) : Box :=
  match s.fuseOp with
  | none => s
  | some o =>
    let fs := match o with
      | .advance v => { s.fuses with svn := max s.fuses.svn v }
      | .owner h => { s.fuses with owner := s.fuses.owner ||| h, ownerMode := true }
    ((({ s with fuseOp := none, fuses := fs }).put SEC_FUSE_STATUS_FUSE_BUSY false).showFuses).raiseInt secPage 2

/-- FUSE_OPERATION_DONE (R438). -/
def execFuseOperationDone (s : State) : Result := s.actPart Box.fuseDone

end Sys2Proof.Machine
end

