-- ==== Sys2Proof/Machine/Reset.lean ====
section
/-!
DEFINITION. Resets (15_boot_security.md R427 to R432), the CXL link (14_host_mgmt.md R406, R407, R426), and power, clocks and
the thermal trip (17_electrical_package.md R468 to R480).
-/

namespace Sys2Proof.Machine

/-! ### What a reset leaves (R428, R429) -/

/-- The hash that SPDM and R429 keep of the last seal record written. -/
def Box.lastSealHash (s : Box) : List Byte :=
  match s.sealLast with
  | some l => sha384 l.bytes
  | none => s.sealHash

/-- What no reset touches: fuses, flash, the levels at the pins, and what the model counts for itself. -/
def Box.bare (s : Box) : Box :=
  { freeCtr := s.freeCtr, outbox := s.outbox, fuses := s.fuses, fuseRail := s.fuseRail, flash := s.flash, pwrOk := s.pwrOk,
    railsBad := s.railsBad, refLost := s.refLost, straps := s.straps, trip := s.trip, alarm := s.trip, tap := s.tap }

/-- Nothing holds the device in reset (17_electrical_package.md R472, R477). -/
def Box.mayRun (s : Box) : Bool := s.pwrOk && decide (s.railsBad = []) && !s.refLost

/-- LAST and SOURCE of SEC_RESET_STATUS. -/
def Box.resetNote (s : Box) (kind src : Nat) : Box := (s.wr SEC_RESET_STATUS_LAST kind).wr SEC_RESET_STATUS_SOURCE src

/-- The registers that show pins and fuses after a reset. -/
def Box.pinWords (s : Box) : Box :=
  (((s.setWord PWR_STRAPS_at (BitVec.ofNat 32 s.straps)).put SEC_FUSE_STATUS_FUSE_RAIL s.fuseRail))

/-- A power-on reset: everything restarts, and the device is held while a rail, PWR_OK or the reference is missing. -/
def Box.powerOn (s : Box) : Box :=
  let b := { s.fuseBreak with trip := false }.bare
  (({ b with phase := if b.mayRun then .run else .held }.pinWords)).resetNote 0 0

/-- The same where it may end the hold: as the device leaves reset it samples its straps (17_electrical_package.md R472, R473). -/
def Box.powerRelease (s : Box) (straps : Nat) : Box := (if s.mayRun then { s with straps := straps } else s).powerOn

/-- A cold reset, which samples the straps (R473). -/
def Box.coldReset (s : Box) (src straps : Nat) : Box := ({ s.fuseBreak with straps := straps }.bare.pinWords).resetNote 1 src

/-- A warm reset keeps regions 0 and 1 of GDDR7, the spare maps, which devices have failed (11_memory.md R345), the seal SEQ and last hash, DUMPSEQ and the dump's
acknowledgement (R429). -/
def Box.warmReset (s : Box) (src : Nat) : Box :=
  let b : Box := { s.fuseBreak.bare with
    mem := mapDrop s.mem fun k => decide (1 < k / 2 ^ 40 % 8), memKept := true, spares := s.spares,
    deadDevs := s.deadDevs, badBlocks := s.badBlocks.filter fun x => decide (x.2 / 2 ^ 40 % 8 ≤ 1),
    sealHash := s.lastSealHash, dump := { seq := s.dump.seq, held := s.dump.held } }
  let b1 := (b.setWord SEC_SEAL_SEQ_LO_at (s.word SEC_SEAL_SEQ_LO_at)).setWord SEC_SEAL_SEQ_HI_at (s.word SEC_SEAL_SEQ_HI_at)
  b1.pinWords.resetNote 2 src

/-- The fault events that the queue holds, as firmware counts them anew (R432): RAWTICK, CLASS, UNIT, TENT, TEMP. -/
def Box.queuedEvents (s : Box) : List FaultEvent :=
  let n := s.queued faultQueue
  (List.range n).map fun i =>
    let r := (s.rd MGT_FQ_TAIL_INDEX + i) % 1024
    let w (j : Nat) : Nat := (s.word (MGT_FQ_at (4 * r + j))).toNat
    ⟨natField (w 2) 0 8, natField (w 2) 16 16, natField (w 3) 0 8, w 1 * 2 ^ 32 + w 0, natField (w 3) 8 8⟩

/-- KEY_READY changes: SEC cause 3 (R440). -/
def Box.keyReady (s : Box) (v : Bool) : Box :=
  if s.is SEC_SEAL_STATUS_KEY_READY = v then s else (s.put SEC_SEAL_STATUS_KEY_READY v).raiseInt secPage 3

/-- A management reset (R428, R432): Ringmaster, the ROM and the key state restart; sessions, requests and the update in
progress are lost; traffic, time and optics go on. Seal records of the time without a key continue the chain, unsigned. That the
device boots is told by a PlatformEventMessage (14_host_mgmt.md R425).
DEDUCED, log entry 136. -/
def Box.mgmtReset (s : Box) (src : Nat) : Box :=
  let s0 := if s.firmware then s.emit (.reply (.pldmEvent 0)) else s
  let s1 : Box := { (s0.keyReady false) with
    aliasKey := 0, aliasCert := [], udsLocked := false, image := {}, update := {}, collector := none, vc6Q := [], eid := 0,
    spdmDoe := {}, spdmMctp := {}, spdmSigs := [], inbox := [], portErrs := [], events := s.queuedEvents, alarm := s.trip }
  let s2 := (s1.wr SEC_BOOT_STATUS_BOOT_STATE 0).put SEC_FWUP_STATUS_OPEN false
  (s2.put SEC_FWUP_STATUS_BUSY false).resetNote 3 src

/-- A management reset is asked for: any reset in progress absorbs it (R431). -/
def Box.mgmtAsk (s : Box) (src : Nat) : Box :=
  if s.resetReq.isSome ∨ s.bootState = 0 then s else s.mgmtReset src

/-! ### Reset requests (R430, R431, R449) -/

/-- SOURCE of a requester (R449).
DEDUCED, log entry 138. -/
def resetSource : Requester → Nat
  | .driver => 2
  | _ => 3

/-- A cold (1) or warm (2) reset is asked for: the device is quiesced, and a stronger request takes the place of a weaker
one. -/
def Box.quiesce (s : Box) (kind src : Nat) : Box :=
  match s.resetReq with
  | some r => if kind < r.kind then { s with resetReq := some ⟨kind, src, s.raw⟩ } else s
  | none => { s.trainAll with phase := .quiesced, resetReq := some ⟨kind, src, s.raw⟩ }

/-- A write of SEC_RESET_CMD: KEY and KIND are checked; a management reset is absorbed by any reset in progress. -/
def Box.resetCmd (s : Box) (src : Requester) (v : Nat) : Box :=
  let a := SEC_RESET_CMD_at
  let kind := natField v 0 3
  if natField v 24 8 ≠ 0xA5 then s.accErrAt a src
  else if kind = 0 ∨ 3 < kind then s.rsvWriteAt a src
  else
    let s1 := s.rsvCheck src a v
    if kind ≤ 2 then s1.quiesce kind (resetSource src)
    else s1.mgmtAsk (resetSource src)

/-- The value of SEC_RESET_CMD for a kind. -/
def resetWordOf (kind : Nat) : Nat := 0xA5000000 + kind

/-- RESET_COLD (R430). -/
def execResetCold (src : Requester) (s : State) : Result := s.actReg SEC_RESET_CMD_at src fun b => b.resetCmd src (resetWordOf 1)
/-- RESET_WARM (R430). -/
def execResetWarm (src : Requester) (s : State) : Result := s.actReg SEC_RESET_CMD_at src fun b => b.resetCmd src (resetWordOf 2)
/-- RESET_MANAGEMENT (R432). -/
def execResetManagement (src : Requester) (s : State) : Result :=
  s.actReg SEC_RESET_CMD_at src fun b => b.resetCmd src (resetWordOf 3)

/-- The reset asked for takes effect 10 µs after its request (R430). -/
def Box.resetEffect (s : Box) (straps : Nat) : Box :=
  match s.resetReq with
  | some r => if r.at_ + 6400 ≤ s.raw then (if r.kind = 1 then s.coldReset r.src straps else s.warmReset r.src) else s
  | none => s

/-- RESET_TAKE_EFFECT (R430); the straps as they stand at the pins. -/
def execResetTakeEffect (straps : BitVec 4) (s : State) : Result := s.actPart fun b => b.resetEffect straps.toNat

/-- A reset pin acts at once, but not while the device is held (R430; 17_electrical_package.md R486); a cold reset in its
quiesce interval absorbs the warm pin (R431). `board` is what the board has done at other
pins before it. -/
def Box.resetPin (s : Box) (kind straps : Nat) (board : List BoardAct) : Box :=
  let s := board.foldl Box.boardAct s
  if s.phase = .held then s
  else if kind = 1 then s.coldReset 1 straps
  else if s.resetReq.any fun r => r.kind == 1 then s
  else s.warmReset 1

/-- RST_COLD_PIN (R427); the straps as they stand at the pins. -/
def execRstColdPin (straps : BitVec 4) (board : List BoardAct) (s : State) : Result :=
  .next (s.onPart fun b => b.resetPin 1 straps.toNat board)
/-- RST_WARM_PIN (R429). -/
def execRstWarmPin (board : List BoardAct) (s : State) : Result := .next (s.onPart fun b => b.resetPin 2 0 board)

/-! ### The CXL link and function (14_host_mgmt.md R406, R407, R426) -/

/-- The function's own state is reset (R407): configuration space with the BARs, the MSI-X table and PBA, the HDM decoder and the
DOE state; its outstanding requests are discarded. -/
def Box.functionReset (s : Box) : Box :=
  { s with regs := mapClear s.regs 0xF20000 0x10000, cfg := [], cxlRegs := mapDrop s.cxlRegs Config.hdmWord, doeError := [],
           doeBusy := [], spdmDoe := {}, hostReads := [] }

/-- FUNCTION_LEVEL_RESET (R407): asked for by the host, over the link. -/
def execFunctionLevelReset (s : State) : Result := s.actHost .driver Box.functionReset

/-- The CXL link is down: the driver's accesses no longer reach the device (R426). -/
def Box.cxlDown (s : Box) : Box := (s.wr CXL_LINK_STATUS_WIDTH 0).wr CXL_LINK_STATUS_SPEED 0

/-- CXL_LINK_LOSS (R426). -/
def execCxlLinkLoss (s : State) : Result := s.act Box.cxlDown

/-- CXL_REFCLK_LOSS (17_electrical_package.md R477). -/
def execCxlRefclkLoss (s : State) : Result := s.act Box.cxlDown

/-- A host-interface reset (R427, R428): the CXL page and its counters, the controller, the component registers and the function
restart; the page stays ready. A stronger reset in progress absorbs it, a management reset included (R431).
DEDUCED, log entry 137. -/
def Box.hostReset (s : Box) : Box :=
  if s.resetReq.isSome ∨ s.bootState = 0 then s
  else
    let f := PAGE_STATUS_READY cxlPage
    let frozen := s.is (PAGE_STATUS_FROZEN cxlPage)
    let s1 : Box := { s with
      regs := mapClear s.regs (pageBase cxlPage) 0x10000, ctrs := mapClear s.ctrs (cxlPage * 4096) 4096,
      shadows := mapClear s.shadows (cxlPage * 4096) 4096, copying := mapClear s.copying (cxlPage * 4096) 4096,
      bar2 := none, cxlLog := [], cxlRegs := [] }
    (((s1.put f (s.is f)).put (PAGE_STATUS_FROZEN cxlPage) frozen).functionReset).resetNote 4 5

/-- HOST_INTERFACE_RESET (R427). -/
def execHostInterfaceReset (s : State) : Result := s.act Box.hostReset

/-- The link trains once firmware runs: width and speed, or NOFLIT with CXL cause 0 where the partner lacks 256-byte flits
(R406, R425). -/
def Box.cxlTrain (s : Box) (width speed : Nat) (flit256 : Bool) : Box :=
  if s.firmware = false then s
  else if flit256 then ((s.wr CXL_LINK_STATUS_WIDTH width).wr CXL_LINK_STATUS_SPEED speed).put CXL_LINK_STATUS_NOFLIT false
  else if s.is CXL_LINK_STATUS_NOFLIT then s
  else ((s.put CXL_LINK_STATUS_NOFLIT true).raiseInt cxlPage 0).pldmNotify

/-- CXL_LINK_TRAIN (R406): eight lanes or four, at one of three speeds, in the codes of CXL_LINK_STATUS (R405). -/
def execCxlLinkTrain (x8 : Bool) (speed : Fin 3) (flit256 : Bool) (s : State) : Result :=
  s.act fun b => b.cxlTrain (3 + b2n x8) (4 + speed.toNat) flit256

/-! ### Power and clocks (17_electrical_package.md R468 to R480) -/

/-- POWER_ON_RESET (R427): the rails have been in range for 1 ms; the straps as they stand at the pins. -/
def execPowerOnReset (straps : BitVec 4) (s : State) : Result :=
  .next (s.onPart fun b => { b with railsBad := [] }.powerRelease straps.toNat)

/-- PWR_OK goes high: everything restarts, and the straps are sampled as the device leaves reset (R472, R473).
DEDUCED, log entry 134. -/
def Box.pwrOkRise (s : Box) (straps : Nat) : Box := if s.pwrOk then s else { s with pwrOk := true }.powerRelease straps

/-- PWR_OK_RISE (R472); the straps in the order of PWR_STRAPS. -/
def execPwrOkRise (straps : BitVec 4) (s : State) : Result := .next (s.onPart fun b => b.pwrOkRise straps.toNat)

/-- PWR_OK goes low: TRAIN flits leave, ELM_EN falls and the shutters close, and the next start is a power-on reset (R474,
R475). THERMTRIP_N stays low while a trip is latched (R480, R486).
DEDUCED, log entry 135. -/
def Box.pwrOkFall (s : Box) : Box :=
  if s.pwrOk = false then s
  else { ({ (if s.phase.alive then s.trainAll.anchored s else s) with pwrOk := false }.powerOn) with trip := s.trip }

/-- PWR_OK_FALL (R474). -/
def execPwrOkFall (s : State) : Result := .next (s.onPart Box.pwrOkFall)

/-- The operating range of a rail in half millivolts (R468). -/
def railRange : Nat → Nat × Nat
  | 0 => (1100, 1700)
  | 1 => (1552, 1648)
  | 2 => (2328, 2472)
  | 3 => (6270, 6930)
  | 4 => (1455, 1545)
  | 5 => (1552, 1648)
  | 6 => (2134, 2266)
  | 7 => (1649, 1751)
  | _ => (3420, 3780)

/-- A rail's voltage as it stands: out of its range for more than 1 µs, it holds the device in power-on reset (R468); within it,
the core rail decides BELOW_GUARANTEE (R470). -/
def Box.railRead (s : Box) (rail mv : Nat) : Box :=
  let (lo, hi) := railRange rail
  if lo ≤ 2 * mv ∧ 2 * mv ≤ hi then
    if rail = 0 ∧ s.phase.alive = true then (s.coreRail mv).guarantee.anchored s else s.wr (PWR_RAIL_MV rail) mv
  else ({ s with railsBad := rail :: s.railsBad.filter (· ≠ rail) }.powerOn).wr (PWR_RAIL_MV rail) mv

/-- RAIL_FAULT (R468). -/
def execRailFault (rail : Fin 9) (mv : BitVec 16) (s : State) : Result :=
  .next (s.onPart fun b => b.railRead rail.toNat mv.toNat)

/-- REFCLK_LOSS (R477): the device is held in power-on reset. -/
def execRefclkLoss (s : State) : Result := .next (s.onPart fun b => { b with refLost := true }.powerOn)

/-- REFCLK_RETURN (R477). -/
def execRefclkReturn (straps : BitVec 4) (s : State) : Result :=
  .next (s.onPart fun b => if b.refLost then { b with refLost := false }.powerRelease straps.toNat else b)

/-- A die's junction as read (R479): a thermal trip at 120 °C (R480) drives THERMTRIP_N and ALARM_N low, sends TRAIN flits,
drives every ELM_EN low and closes every shutter. -/
def Box.thermalTrip (s : Box) (die tj : Nat) : Box :=
  let s1 := (s.junction die tj).guarantee
  if toSigned 16 tj < 960 then s1
  else
    { s1.trainAll with
      phase := .tripped, trip := true, alarm := true,
      engines := s1.engines.map fun e => (e.1, { e.2 with elm := false }),
      aprs := s1.aprs.map fun e => (e.1, { e.2 with open_ := false }) }

/-- THERMAL_TRIP (R480). -/
def execThermalTrip (die : DieIx) (tj : BitVec 16) (s : State) : Result :=
  s.act fun b => b.thermalTrip die.toNat tj.toNat

/-- The core rail and a die's junction are read together: a rail out of its operating range resets (R468), a junction of
120 °C trips (R479), and within both limits BELOW_GUARANTEE follows (01_architecture.md R21). -/
def Box.cornerRead (s : Box) (mv die tj : Nat) : Box :=
  let (lo, hi) := railRange 0
  if 2 * mv < lo ∨ hi < 2 * mv then s.railRead 0 mv
  else if toSigned 16 tj < 960 then (s.envUpdate mv die tj).anchored s
  else ((s.coreRail mv).thermalTrip die tj).anchored s

/-- ENV_EXCURSION_START (01_architecture.md R21). -/
def execEnvExcursionStart (mv : BitVec 16) (die : DieIx) (tj : BitVec 16) (s : State) : Result :=
  s.actPart fun b => b.cornerRead mv.toNat die.toNat tj.toNat

/-- ENV_EXCURSION_END (01_architecture.md R21). -/
def execEnvExcursionEnd (mv : BitVec 16) (die : DieIx) (tj : BitVec 16) (s : State) : Result :=
  s.actPart fun b => b.cornerRead mv.toNat die.toNat tj.toNat

end Sys2Proof.Machine
end

