-- ==== Sys2Proof/Machine/Boot.lean ====
section
/-!
DEFINITION. The boot ROM (15_boot_security.md R433 to R440), the confirmation of a trial image (R447), and firmware updates
through the registers and PLDM (R445, R446, R448).
-/

namespace Sys2Proof.Machine

/-! ### Identity (R439) -/

/-- "BZX-ALIAS" in ASCII. -/
def aliasLabel : List Byte := [0x42, 0x5A, 0x58, 0x2D, 0x41, 0x4C, 0x49, 0x41, 0x53]

/-- "BZX-DEVICEID" in ASCII. -/
def deviceLabel : List Byte := [0x42, 0x5A, 0x58, 0x2D, 0x44, 0x45, 0x56, 0x49, 0x43, 0x45, 0x49, 0x44]

/-- The unique device secret as the bytes that the derivations take. -/
def udsBytes : List Byte := bytesBE 48 Config.uds.toNat

/-- Measurement M of a slot's image: header bytes 0 to 767, then MIN_SVN, OWNER_MODE, DEBUG_LOCKED and the slot. -/
def Box.measure (s : Box) (slot : Nat) : List Byte :=
  sha384 (s.imageBytes slot 0 768 ++ bytesBE 1 s.minSvn ++ bytesBE 1 (b2n s.fuses.ownerMode)
    ++ bytesBE 1 (b2n Config.debugLocked) ++ bytesBE 1 slot)

/-- The alias key of a measurement: KeyGen(HMAC(CDI, "BZX-ALIAS")) with CDI = HMAC(UDS, M). -/
def aliasOf (m : List Byte) : BitVec 384 := keyGen (hmac384 (hmac384 udsBytes m) aliasLabel)

/-- The DeviceID key: KeyGen(HMAC(UDS, "BZX-DEVICEID")). -/
def deviceIdKey : BitVec 384 := keyGen (hmac384 udsBytes deviceLabel)

/-- The alias certificate: the alias public key with its TcbInfo, signed by the DeviceID key. -/
def aliasCertOf (deviceKey aliasKey : BitVec 384) (fwver svn : Nat) (m : List Byte) : List Byte :=
  let tbs := Config.aliasTbs (publicKey aliasKey.toNat) "Ballasin Microsystems" "Zwixon S9" fwver svn 1 m
  Config.certOf tbs (ecdsaSign deviceKey (sha384 tbs))

/-- The identity keys and the alias certificate of a slot's image are derived (R433 step 5), while the device secret is not
locked. -/
def Box.deriveKeys (s : Box) (slot : Nat) : Box :=
  if s.udsLocked then s
  else
    let m := s.measure slot
    let h := s.imageBytes slot 0 12
    { s with
      image := { slot := slot, gen := recGen (s.bootRec slot), fwver := leAt h 8 4, meas := m },
      deviceKey := deviceIdKey, aliasKey := aliasOf m,
      aliasCert := aliasCertOf deviceIdKey (aliasOf m) (leAt h 8 4) (leAt h 6 1) m }

/-- Step 5 ends: the DeviceID secret key is cleared, the device secret is locked and the seal engine has its key (R440); the next
seal record starts a chain (R432). -/
def Box.lockSecrets (s : Box) : Box :=
  { s with deviceKey := 0, udsLocked := true, sealHash := s.lastSealHash, sealLast := none }.keyReady true

/-! ### Choosing a slot (R436) -/

/-- Fuses are sensed (R433 step 1): serial and fuse status; MGT_ETH_MAC has its fuses' value from reset on
(16_registers.md R466). -/
def Box.senseFuses (s : Box) : Box :=
  let n := Config.serial.toNat
  ((s.wr SEC_SERIAL_LO_SERIAL n).wr SEC_SERIAL_HI_SERIAL (n / 2 ^ 32)).showFuses

/-- The boot stops: BOOT_STATE 2, 3 or 4, with the alarm output driven (R433, R487). -/
def Box.bootStop (s : Box) (v : Nat) : Box := { s.wr SEC_BOOT_STATUS_BOOT_STATE v with alarm := true }

/-- The usable slots, the higher GEN first, slot A first on a tie. -/
def Box.slotOrder (s : Box) : List Nat :=
  let a := s.bootRec 0
  let b := s.bootRec 1
  match recUsable a, recUsable b with
  | true, true => if recGen a < recGen b then [1, 0] else [0, 1]
  | true, false => [0]
  | false, true => [1]
  | false, false => []

/-- A trial is spent: the lowest set bit of TRIES is programmed to 0. -/
def Box.spendTry (s : Box) (slot : Nat) : Box :=
  let n := recTries (s.bootRec slot)
  s.flashProgram slot 12 [BitVec.ofNat 8 (Nat.land n (n - 1))]

/-- A slot's record before and after what the ROM does to it, and its verdict: 0 boots. -/
def Box.trySlot (s : Box) (slot : Nat) : Nat × Box :=
  let s1 := if leAt (s.bootRec slot) 13 1 = 0xFF then s.spendTry slot else s
  let reason := s1.imageReason slot imageMax
  if reason = 0 then (0, s1)
  else (reason, (s1.flashProgram slot 14 [0]).wr SEC_BOOT_STATUS_REASON reason)

/-- The memory devices begin to train (R332), but for those that have failed since the last cold reset, whose tents start in
single-device mode (R345). -/
def Box.memTrain (s : Box) : Box :=
  (List.range 16).foldl (fun (b : Box) d =>
    let f := MEM_DEV_STATUS_STATE (d / 2) (d % 2)
    if b.rd f ≠ 0 ∨ d ∈ b.trained then b
    else if d ∈ b.deadDevs then (b.wr f 3).put (MEM_PLAN_STATUS_SINGLE (d / 2)) true
    else b.wr f 1) s

/-- The management lane starts as its strap says, and the port has the static address of the firmware configuration or asks for one;
with an address, its NTP client asks for the time (14_host_mgmt.md R421; 17_electrical_package.md R473).
DESIGN CHOICE, log entry 175. -/
def Box.netStart (s : Box) : Box :=
  let a := if s.ip.isSome then s.ip else Config.staticIp
  { s.emit (.ethLane (s.is PWR_STRAPS_ETH_MODE)) with ip := a }.emit (if a.isSome then .ntpRequest else .dhcpDiscover)

/-- Firmware sets the host window's units from its boot configuration, while the host has not set Memory_Active
(14_host_mgmt.md R412). -/
def Box.windowStart (s : Box) : Box :=
  match Config.bootUnits with
  | none => s
  | some n => if s.is CXL_LINK_STATUS_MEM_ACTIVE = true ∨ n = 0 ∨ 238 < n then s else s.wr CXL_WIN_CFG_UNITS n

/-- A recovery pass in progress starts again (R432; 12_faults.md R370). -/
def Box.passRestart (s : Box) : Box :=
  if s.is MGT_RECOVERY_BUSY then s.wr MGT_RECOVERY_GEN (s.rd MGT_RECOVERY_GEN + 1) else s

/-- Control passes to the image of a slot (R433 steps 5 and 6, R440): identity, status, KEY_READY; firmware brings the pages
out of reset (16_registers.md R453) moves the laser modules to ModuleReady and starts the
management lane and memory training. -/
def Box.handOver (s : Box) (slot : Nat) (fallback : Bool) : Box :=
  let r := s.bootRec slot
  let h := s.imageBytes slot 0 12
  let s1 := (s.deriveKeys slot).lockSecrets
  let s2 := ((((s1.wr SEC_BOOT_STATUS_SVN (leAt h 6 1)).put SEC_BOOT_STATUS_CONFIRMED (recConfirmed r)).put
    SEC_BOOT_STATUS_TRIAL (!recConfirmed r)).put SEC_BOOT_STATUS_FALLBACK fallback).wr SEC_BOOT_STATUS_SLOT slot
  let s3 := s2.wr SEC_BOOT_STATUS_BOOT_STATE 1
  let s4 := (List.range 16).foldl (fun b e => b.moduleMove e true) s3
  (((allPages.foldl (fun (b : Box) p => b.put (PAGE_STATUS_READY p) true) s4).memTrain).passRestart.windowStart.netStart).pldmNotify

/-- The ROM tries the slots in order; with none left, BOOT_STATE 2. -/
def Box.bootSlots (s : Box) : List Nat → Bool → Box
  | [], _ => s.bootStop 2
  | slot :: rest, fallback =>
    let (reason, s1) := s.trySlot slot
    if reason = 0 then s1.handOver slot fallback else Box.bootSlots s1 rest true

/-- The boot ROM runs (R433 to R436; 17_electrical_package.md R473): fuses, self-test, the recovery strap, the slots. Where
no slot is usable, an invalid record is REASON 10 (R437).
DEDUCED, log entry 133. -/
def Box.bootRun (s : Box) (r : RomRun) : Box :=
  if s.bootState ≠ 0 then s
  else if r.fuseOk = false then s.bootStop 4
  else
    let s1 := s.senseFuses
    if r.testOk = false then s1.bootStop 3
    else if s1.straps.testBit 1 then s1.bootStop 2
    else
      let s2 := s1.put SEC_BOOT_STATUS_OCTAL_FAIL (!(r.octalA && r.octalB))
      let order := s2.slotOrder
      if order = [] ∧ (recValid (s2.bootRec 0) && recValid (s2.bootRec 1)) = false then
        (s2.wr SEC_BOOT_STATUS_REASON 10).bootStop 2
      else s2.bootSlots order false

/-- BOOT_ROM_RUN (R433).
DESIGN CHOICE, log entry 13. -/
def execBootRomRun (rom : RomRun) (s : State) : Result := s.act fun b => b.bootRun rom

/-! ### Confirmation (R447) -/

/-- The start-up checks: a ready memory device in every tent, and the CXL link or the I3C port serving.
DEDUCED, log entry 132. -/
def Box.startupOk (s : Box) : Bool :=
  ((List.range 8).all fun t => s.rd (MEM_DEV_STATUS_STATE t 0) == 2 || s.rd (MEM_DEV_STATUS_STATE t 1) == 2)
    && (s.is CXL_LINK_STATUS_WIDTH || s.i3cAddr.isSome)

/-- Firmware programs CONFIRM of the running slot. -/
def Box.fwConfirm (s : Box) : Box :=
  if s.firmware && s.startupOk then (s.flashProgram s.image.slot 13 [0]).put SEC_BOOT_STATUS_CONFIRMED true else s

/-- FW_CONFIRM (R447). -/
def execFwConfirm (s : State) : Result := s.actRun Box.fwConfirm

/-! ### Firmware update (R445, R446, R448) -/

/-- The slot that is not running. -/
def Box.otherSlot (s : Box) : Nat := 1 - s.image.slot

/-- A command of an update ends: BUSY clears, REASON, DONE, SEC cause 0. -/
def Box.fwupEnd (s : Box) (reason : Nat) : Box :=
  (({ s with update := { s.update with op := none } }.put SEC_FWUP_STATUS_BUSY false).wr SEC_FWUP_STATUS_REASON reason).put
    SEC_FWUP_STATUS_DONE true |>.raiseInt secPage 0

/-- A command of an update begins. -/
def Box.fwupStart (s : Box) (o : FwOp) : Box :=
  { s.put SEC_FWUP_STATUS_BUSY true with update := { s.update with op := some o } }

/-- The session ends. -/
def Box.fwupClosed (s : Box) : Box :=
  { s.put SEC_FWUP_STATUS_OPEN false with update := { s.update with path := none, pieces := [] } }

/-- OPEN on a path; REASON 16 while a session is open on any. The boot control record goes first, so that a reset or power
loss from then on leaves the slot unusable. -/
def Box.fwupOpen (s : Box) (path : Nat) : Box :=
  if s.update.path.isSome then s.fwupEnd 16
  else
    ({ s.put SEC_FWUP_STATUS_OPEN true with update := { path := some path } }.fwupStart .openSlot).flashErase s.otherSlot 0
      imageAt

/-- REVERT is allowed: the other slot is usable and its SVN at least MIN_SVN. -/
def Box.mayRevert (s : Box) : Bool :=
  recUsable (s.bootRec s.otherSlot) && decide (s.minSvn ≤ leAt (s.imageBytes s.otherSlot 0 8) 6 1)

/-- ACTIVATE: mode 1 starts a management reset now. -/
def Box.fwupActivate (s : Box) (mode : Bool) (src : Nat) : Box :=
  let s1 := s.fwupEnd 0
  if mode then s1.mgmtAsk src else s1

/-- ABORT on a path; REASON 17 where it holds no session. -/
def Box.fwupAbort (s : Box) (path : Nat) : Box :=
  if s.update.path ≠ some path then s.fwupEnd 17 else s.fwupClosed.fwupEnd 0

/-- A write of SEC_FWUP_CMD (R446, R449): ignored with the access-error indication while a command runs, and while firmware does not,
so that nothing reaches the SPI pins in BOOT_STATE 2 (R434).
DEDUCED, log entry 129. -/
def Box.fwupCmd (s : Box) (src : Requester) (v : Nat) : Box :=
  let a := SEC_FWUP_CMD_at
  let cmd := natField v 28 4
  if cmd = 0 ∨ 6 < cmd then s.rsvWriteAt a src
  else if s.is SEC_FWUP_STATUS_BUSY = true ∨ s.firmware = false then s.accErrAt a src
  else
    let s1 := s.rsvCheck src a v
    let mine := decide (s.update.path = some 0)
    match cmd with
    | 1 => s1.fwupOpen 0
    | 2 => if mine then s1.fwupStart (.write (natField v 0 10)) else s1.fwupEnd 17
    | 3 => if mine then s1.fwupStart (.close (s.rd SEC_FWUP_LEN_LENGTH)) else s1.fwupEnd 17
    | 4 => s1.fwupActivate (v.testBit 27) (resetSource src)
    | 5 => if s.mayRevert then s1.fwupStart .revert else s1.fwupEnd 19
    | _ => s1.fwupAbort 0

/-- FWUP_OPEN (R446). -/
def execFwupOpen (src : Requester) (s : State) : Result := s.actReg SEC_FWUP_CMD_at src fun b => b.fwupCmd src (2 ^ 28)
/-- FWUP_WRITE (R446). -/
def execFwupWrite (src : Requester) (piece : BitVec 10) (s : State) : Result :=
  s.actReg SEC_FWUP_CMD_at src fun b => b.fwupCmd src (2 * 2 ^ 28 + piece.toNat)
/-- FWUP_CLOSE (R446). -/
def execFwupClose (src : Requester) (s : State) : Result := s.actReg SEC_FWUP_CMD_at src fun b => b.fwupCmd src (3 * 2 ^ 28)
/-- FWUP_ACTIVATE (R446). -/
def execFwupActivate (src : Requester) (mode : Bool) (s : State) : Result :=
  s.actReg SEC_FWUP_CMD_at src fun b => b.fwupCmd src (4 * 2 ^ 28 + b2n mode * 2 ^ 27)
/-- FWUP_REVERT (R446). -/
def execFwupRevert (src : Requester) (s : State) : Result := s.actReg SEC_FWUP_CMD_at src fun b => b.fwupCmd src (5 * 2 ^ 28)
/-- FWUP_ABORT (R446). -/
def execFwupAbort (src : Requester) (s : State) : Result := s.actReg SEC_FWUP_CMD_at src fun b => b.fwupCmd src (6 * 2 ^ 28)

/-- The bytes of SEC_FWUP's window.
DEDUCED, log entry 131. -/
def Box.fwupWindow (s : Box) : List Byte := wordBytesLE ((List.range 8192).map fun i => s.word (SEC_WIN_at i))

/-- Every piece that a length covers has been written. -/
def Box.piecesOk (s : Box) (len : Nat) : Bool := (List.range (ceilDiv len 32768)).all fun p => s.update.pieces.contains p

/-- CLOSE completes: REASON 18 for a missing piece, then the checks of R437; a good image gets its boot control record and
the session ends. -/
def Box.fwupCloseDone (s : Box) (len : Nat) : Box :=
  let slot := s.otherSlot
  let reason := if s.piecesOk len then s.imageReason slot len else 18
  if reason = 0 then ((s.flashProgram slot 0 (newRec ((s.image.gen + 1) % 2 ^ 32))).fwupClosed).fwupEnd 0
  else s.fwupEnd reason

/-- Flash bytes after a failed erase or program are not stated: free values.
DESIGN CHOICE, log entry 130. -/
def Box.flashLost (s : Box) (slot off n : Nat) : Box :=
  let (bs, s1) := s.freeBytes (n / 8)
  { s1 with flash := mapSetAll flashDflt s1.flash (flashKey slot off) bs }

/-- A command of an update finishes; a flash error is REASON 20 (R446). -/
def Box.fwupDone (s : Box) (flashError : Bool) : Box :=
  let slot := s.otherSlot
  match s.update.op with
  | none => s
  | some .openSlot =>
    if flashError then (s.flashLost slot 0 (imageAt + imageMax)).fwupEnd 20
    else (s.flashErase slot 0 (imageAt + imageMax)).fwupEnd 0
  | some (.write p) =>
    if flashError then (s.flashLost slot (imageAt + 32768 * p) 32768).fwupEnd 20
    else
      let s1 := s.flashProgram slot (imageAt + 32768 * p) s.fwupWindow
      { s1 with update := { s1.update with pieces := p :: s1.update.pieces.filter (· ≠ p) } }.fwupEnd 0
  | some (.close len) => if flashError then (s.flashLost slot 0 16).fwupEnd 20 else s.fwupCloseDone len
  | some .revert =>
    if flashError then s.fwupEnd 20 else (s.flashProgram s.image.slot 14 [0]).fwupEnd 0

/-- FWUP_COMMAND_DONE (R446). -/
def execFwupCommandDone (flashError : Bool) (s : State) : Result := s.act fun b => b.fwupDone flashError

/-! ### PLDM type 5 (R448) -/

/-- A PLDM command acts while firmware runs and the I3C port has its address (R424); its answer says how the update stands. -/
def State.actPldm (s : State) (f : Box → Box) : Result :=
  s.actRun fun b => if b.firmware = true ∧ b.i3cAddr.isSome = true then f b else b.emit (.reply .i3cNack)

/-- The most bytes that one RequestFirmwareData asks for (R448). -/
def pldmPiece : Nat := 256

/-- The one component: classification, identifier, comparison stamp, and the transfer size (R448). -/
def Box.componentReply (s : Box) : Box := s.emit (.reply (.pldmComponent 0x000A 0x0001 s.image.fwver pldmPiece))

/-- A second session is asked for while a command of the open one runs (R445): REASON 16, and that command goes on. -/
def Box.fwupBusy (s : Box) : Box := if s.update.path.isSome then s.wr SEC_FWUP_STATUS_REASON 16 else s

/-- The answer of an update command: whether one is complete, and REASON. -/
def Box.updateReply (s : Box) : Box :=
  s.emit (.reply (.pldmUpdate (!s.is SEC_FWUP_STATUS_BUSY) (s.rd SEC_FWUP_STATUS_REASON)))

/-- REQUEST_UPDATE (R448): OPEN on the PLDM path. -/
def execRequestUpdate (s : State) : Result :=
  s.actPldm fun b => (if b.is SEC_FWUP_STATUS_BUSY then b.fwupBusy else b.fwupOpen 1).componentReply.updateReply

/-- The transfer ends: the bytes transferred stand in flash, and CLOSE begins over their length. -/
def Box.transferDone (s : Box) (ok : Bool) (image : List Byte) : Box :=
  if s.update.path ≠ some 1 ∨ s.is SEC_FWUP_STATUS_BUSY = true ∨ ok = false then s
  else
    let s1 := s.flashProgram s.otherSlot imageAt (image.take imageMax)
    { s1 with update := { s1.update with pieces := List.range (ceilDiv image.length 32768) } }.fwupStart (.close image.length)

/-- TRANSFER_COMPLETE (R448): the slot holds 32 MiB, and CLOSE judges the length. -/
def execTransferComplete (ok : Bool) (image : List Byte) (s : State) : Result :=
  s.actPldm fun b => (b.transferDone ok image).updateReply

/-- VERIFY_COMPLETE (R448): reports the result of CLOSE with its REASON. -/
def execVerifyComplete (s : State) : Result := s.actPldm Box.updateReply

/-- APPLY_COMPLETE (R448): reports the record written. -/
def execApplyComplete (s : State) : Result := s.actPldm Box.updateReply

/-- ACTIVATE_FIRMWARE (R448): ACTIVATE with mode 1 where it is self-contained, else mode 0. -/
def execActivateFirmware (selfContained : Bool) (s : State) : Result :=
  s.actPldm fun b => if b.is SEC_FWUP_STATUS_BUSY then b.updateReply else b.updateReply.fwupActivate selfContained 4

/-- CANCEL_UPDATE (R448): ABORT. -/
def execCancelUpdate (s : State) : Result :=
  s.actPldm fun b => (if b.is SEC_FWUP_STATUS_BUSY then b else b.fwupAbort 1).updateReply

end Sys2Proof.Machine
end

