-- ==== Sys2Proof/Machine/Midway.lean ====
section
/-!
DEFINITION. Midway: the grant of one frame to one ingress tent (05_egress_scheduling.md R136, R137), broadcast copies
(01_architecture.md R24; 04_buffers.md R111), and the transfers that cross (12_faults.md R351, R353;
01_architecture.md R22).
-/

namespace Sys2Proof.Machine

/-! ### Requests (R136, R137) -/

/-- What a tent may offer for an egress port and VC: a queued frame, or a record of a result queue. -/
inductive Offer where
  | frame (d : Desc)
  | result (r : ResRec)
  deriving DecidableEq, Repr

/-- The frame of an offer. -/
def Offer.bytes : Offer → Frame
  | .frame d => d.frame
  | .result r => r.frame

/-- The tent's results due at a port on a VC, in order of release. -/
def Box.dueResults (s : Box) (t p v : Nat) : List ResRec :=
  s.results.filter fun r => decide (r.tent = t) && decide (frVc r.frame = v) && decide (p ∈ r.due)

/-- Ingress ports of a tent with frames in a VOQ. -/
def Box.voqPorts (s : Box) (t p v : Nat) : List Nat := ((s.voq t p v).filterMap Desc.inPort).eraseDups

/-- Streams of a tent with a result due at a port. -/
def Box.dueStreams (s : Box) (t p v : Nat) : List Nat := ((s.dueResults t p v).map ResRec.stream).eraseDups

/-- B_t: the ingress ports with frames in the VOQ, and the result queues that hold a result for the port (R136). -/
def Box.weight (s : Box) (t p v : Nat) : Nat := (s.voqPorts t p v).length + (s.dueStreams t p v).length

/-- The queues of a tent for a port and VC: the VOQ is 0, the result queue of stream x is x + 1. -/
def Box.innerQueues (s : Box) (t p v : Nat) : List Nat :=
  (if (s.voq t p v).isEmpty then [] else [0]) ++ sortBy (· ≤ ·) ((s.dueStreams t p v).map (· + 1))

/-- The head of an inner queue where Midway may grant it: a fenced head, a spilled one and one claimed for spill hold their VOQ
(03_forwarding.md R85; 04_buffers.md R104, R107). -/
def Box.innerHead (s : Box) (t p v q : Nat) : Option Offer :=
  if q = 0 then
    match s.voq t p v with
    | d :: _ => if d.fence = true ∨ d.spilled = true ∨ s.spillClaimed d = true then none else some (.frame d)
    | [] => none
  else ((s.dueResults t p v).find? fun r => r.stream + 1 == q).map .result

/-- What a tent offers next, with the tent's round after it (R137): a queue that has emptied has lost its deficit (R125). -/
def Box.tentOffer (s : Box) (m : Mdw) (t p v : Nat) : Option (Offer × Drr) :=
  let qs := s.innerQueues t p v
  let quantum (q : Nat) : Nat := if q = 0 then (s.voqPorts t p v).length * 4480 else 4480
  let d0 : Drr := mapGet (fun _ => {}) m.inner t
  let d : Drr := { d0 with deficit := d0.deficit.filter fun e => decide (e.1 ∈ qs) }
  if qs.all fun q => (s.innerHead t p v q).isNone then none
  else
    match drrPick qs quantum (fun q => (s.innerHead t p v q).map fun o => o.bytes.length) (fun _ => false)
        (qs.length + 2) d with
    | some (q, d') => (s.innerHead t p v q).map fun o => (o, d')
    | none => none

/-- Midway's arbitration record of an egress port and VC. -/
def Box.mdwOf (s : Box) (p v : Nat) : Mdw := mapGet (fun _ => {}) s.mdw (8 * p + v)

/-- The grant of R136: the tent and its offer, with the record after the decision. -/
def Box.midwayPick (s : Box) (p v : Nat) : Option (Nat × Offer × Mdw) :=
  let m := s.mdwOf p v
  let offers := (List.range 8).map fun t => s.tentOffer m t p v
  let head (t : Nat) : Option Nat := (offers.getD t none).map fun o => o.1.bytes.length
  match drrPick (List.range 8) (fun t => s.weight t p v * 4480) head (fun t => decide (s.weight t p v = 0)) 17 m.tents with
  | some (t, d) => (offers.getD t none).map fun o =>
      (t, o.1, { tents := d, inner := mapSet (fun _ => {}) m.inner t o.2 })
  | none => none

/-! ### Staging room (R111) -/

/-- Transfers held by broadcast turns that are won and whose copy is not sent yet. -/
def Box.wonUse (s : Box) (p v : Nat) : Nat :=
  (s.results.map fun r => if p ∈ r.won ∧ frVc r.frame = v then frCells r.frame else 0).sum

/-- The port's staging has room for `n` more transfers. -/
def Box.stagingRoom (s : Box) (p v n : Nat) : Bool := decide (s.stagedUse (8 * p + v) + s.wonUse p v + n ≤ 32)

/-! ### Granting -/

/-- A granted frame before its first transfer. -/
def stagedOf (d : Desc) (key : Option ResKey) : Staged :=
  { desc := d, total := d.ncells, arrived := 0, cut := false, at_ := 0, ready := 0, late := false, started := false,
    sentB := 0, result := key, tries := 0 }

/-- Appends a granted frame to a port's staging. -/
def Box.stageOn (s : Box) (p v : Nat) (x : Staged) : Box :=
  s.setStaged (8 * p + v) (s.staged (8 * p + v) ++ [x])

/-- A VOQ's head is granted and crosses (R93: its charge stays until its last transfer has been accepted). -/
def Box.grantFrame (s : Box) (p v : Nat) (d : Desc) : Box :=
  let s1 : Box := { s with descs := s.descs.filter fun e => e.id ≠ d.id }
  s1.stageOn p v (stagedOf { d with trace := traceStage d.trace 3 (s.tick32 d.tent) } none)

/-- The copy of a result for one port (R24). A notice takes the port's control tag (02_itzal_link.md R54). -/
def Box.copyTo (s : Box) (r : ResRec) (p : Nat) : Box :=
  let v := frVc r.frame
  let x := s.port p
  let f := if frKind r.frame = 6 then frRetag r.frame x.ctags else r.frame
  let s1 := if frKind r.frame = 6 then s.setPort p { x with ctags := (x.ctags + 1) % 2 ^ 32 } else s
  let d : Desc :=
    { id := s1.descId, frame := f, tent := r.tent, inPort := none, egress := p, vc := v, cls := s1.vcClass r.tent v, cells := [],
      ncells := frCells f, charge := .quota r.stream, pool := none, admitAt := s1.admits, bank := r.bank, fence := false,
      alone := false, spilled := false, bad := r.bad, corrupt := r.corrupt, stamp := {}, trace := none }
  Box.stageOn { s1 with descId := s1.descId + 1 } p v (stagedOf d (some ⟨r.id, r.chunk, r.part⟩))

/-- Ports of an egress tent in a list. -/
def inTent (u : Nat) (ps : List Nat) : List Nat := ps.filter fun p => p / 256 = u

/-- A result crosses to tent `u` once its turn is won at every member port there at which it is due, and no earlier
result of its queue still waits for one of those ports (R24, R111, R137). -/
def Box.sendCopies (s : Box) (u : Nat) (r : ResRec) : Box :=
  match s.results.find? fun q => q.id == r.id with
  | none => s
  | some r =>
    let mine := inTent u r.won
    let earlier := s.results.any fun q => decide (q.id < r.id) && decide (q.stream = r.stream) && decide (q.tent = r.tent)
      && q.won.any fun p => decide (p ∈ mine)
    if mine = [] ∨ inTent u r.due ≠ [] ∨ earlier = true then s
    else
      let s1 := mine.foldl (fun b p => b.copyTo r p) s
      { s1 with results := s1.results.map fun q =>
          if q.id = r.id then { q with won := q.won.filter fun p => p ∉ mine, crossing := q.crossing ++ mine } else q }

/-- Every result whose turns are won crosses to a tent, in order of release. -/
def Box.crossTent (s : Box) (u : Nat) : Box := s.results.foldl (fun b r => b.sendCopies u r) s

/-- A result wins its turn at a port. -/
def Box.winTurn (s : Box) (p : Nat) (r : ResRec) : Box :=
  { s with results := s.results.map fun q =>
      if q.id = r.id then { q with due := q.due.filter (· ≠ p), won := q.won ++ [p] } else q }

/-- MDW counters 8 to 15: frame bytes granted to a tent (R467). -/
def Box.grantBytes (s : Box) (t n : Nat) : Box := s.bump mdwPage (8 + t) n

/-- A granted frame is read out of its tent's store (04_buffers.md R97, R98): where a pointer fails, the cells beyond it stay
allocated. -/
def Box.readDesc (s : Box) (d : Desc) (reads : List CellRead) : Desc × Box :=
  let (r, s1) := s.readFrame d.tent d.cells d.pool d.frame reads
  (d.readAs r, s1)

/-- A result is read for its turn at a port (R97, R98). -/
def Box.readResult (s : Box) (r : ResRec) (reads : List CellRead) : Box :=
  let (o, s1) := s.readFrame r.tent r.cells none r.frame reads
  { s1 with results := s1.results.map fun q =>
      if q.id = r.id then { q with frame := o.frame, cells := o.cells, corrupt := q.corrupt || o.corrupt, bad := match o.bad with
        | some i => some i
        | none => q.bad } else q }

/-- Midway grants one frame where the port's staging has room for it (R111, R136), and it is read. Where there is none the
decision stands and waits.
DEDUCED, log entry 54. -/
def Box.midwayGrant (s : Box) (p v : Nat) (reads : List CellRead) : Box :=
  let s0 := s.crossTent (p / 256)
  match s0.midwayPick p v with
  | none => s0
  | some (t, o, m) =>
    if s0.stagingRoom p v (frCells o.bytes) = false then s0
    else
      let s1 := Box.grantBytes { s0 with mdw := mapSet (fun _ => {}) s0.mdw (8 * p + v) m } t o.bytes.length
      match o with
      | .frame d =>
        let (d', s2) := s1.readDesc d reads
        (s2.grantFrame p v d').spillSettle t
      | .result r => ((s1.readResult r reads).winTurn p r).crossTent (p / 256)

/-- MIDWAY_GRANT (R136). -/
def execMidwayGrant (p : Slot) (v : Vc) (reads : List CellRead) (s : State) : Result :=
  s.actRun fun b => b.midwayGrant p.toNat v.toNat reads

/-! ### Transfers (R351) -/

/-- A transfer fails its CRC: counted for the tent link, sent again. True with the fourth failure, when its data are
taken as zeros and the Midway error is raised (R351, R465).
DEDUCED, log entry 53. -/
def Box.transferBad (s : Box) (t tries : Nat) : Bool × Box :=
  let s1 := s.count mdwPage t
  if tries + 1 < 4 then (false, s1) else (true, s1.raiseInt mdwPage 1)

/-- The retries of the UCIe adapters that a transfer met on a tent link (07_determinism_audit.md R194; 16_registers.md R467). -/
def Box.d2dRetries (s : Box) (t retries : Nat) : Box := s.bump mdwPage (16 + t) retries

/-- The first transfer of a frame reaches the egress tent: whether every condition of R22 holds.
DEDUCED, log entry 50. -/
def Box.cutThrough (s : Box) (p : Nat) (d : Desc) : Bool :=
  match d.inPort with
  | none => false
  | some q =>
    d.alone && d.charge != .recall && decide (s.slotMode q ≤ s.slotMode p) && (s.port p).txVc.isNone
      && (List.range 8).all fun v => (s.staged (8 * p + v)).all fun x => decide (x.arrived = 0)

/-- A staged frame after one more transfer. -/
def Box.stagedNext (s : Box) (p : Nat) (x : Staged) (zero : Bool) : Staged :=
  let now := s.tick32 (p / 256)
  let d := if zero then { x.desc with frame := zeroFrom x.desc.frame x.arrived, bad := some (256 * x.arrived) } else x.desc
  let x1 := if x.arrived = 0 then
      { x with desc := { d with trace := traceStage d.trace 4 now }, cut := s.cutThrough p d, at_ := now, ready := now }
    else { x with desc := d }
  { x1 with arrived := x.arrived + 1, tries := 0,
            ready := if x.arrived + 1 = x.total ∧ x1.cut = false then now else x1.ready }

/-- A result copy's FPRINT does not match its payload (R353). -/
def fprintBad (f : Frame) : Bool := (frKind f == 2 || frKind f == 3) && crc64 (frPayload f) != frFprint f

/-- The egress tent has accepted a result's copies for some ports: the result's cells leave with its last copy. -/
def Box.crossed (s : Box) (id : Nat) (ps : List Nat) : Box :=
  let cut (r : ResRec) : ResRec := if r.id = id then { r with crossing := r.crossing.filter fun p => p ∉ ps } else r
  let gone (r : ResRec) : Bool :=
    decide (r.id = id) && decide (r.due = []) && decide (r.won = []) && decide (r.crossing = [])
  let all := s.results.map cut
  (all.filter gone).foldl (fun b r => b.freeCells r.tent r.cells) { s with results := all.filter fun r => !gone r }

/-- The egress result check of one staged copy (R353, R366). -/
def Box.egressCheck (s : Box) (p v id : Nat) : Box :=
  match (s.staged (8 * p + v)).find? fun x => x.result.any fun k => k.id == id with
  | none => s
  | some x =>
    if fprintBad x.desc.frame then
      let s1 := s.setStaged (8 * p + v) ((s.staged (8 * p + v)).filter fun y => y.desc.id ≠ x.desc.id)
      let s2 := (s1.carCount 9 p).raiseInt (carTentPage (p / 256)) 1
      match x.result with
      | some k => s2.loseCopy x.desc.frame k p 2
      | none => s2
    else s

/-- Replaces the first frame of a staging that is not whole. -/
def putOpen (y : Staged) : List Staged → List Staged
  | [] => []
  | x :: xs => if x.arrived < x.total then y :: xs else x :: putOpen y xs

/-- The first frame of a staging that is not whole. -/
def firstOpen (l : List Staged) : Option Staged := l.find? fun x => decide (x.arrived < x.total)

/-- A transfer of a queued frame reaches its egress tent: staged; with the last its cells and credit return (R93). -/
def Box.frameTransfer (s : Box) (p v : Nat) (x : Staged) (zero : Bool) : Box :=
  let y := s.stagedNext p x zero
  let s1 := s.setStaged (8 * p + v) (putOpen y (s.staged (8 * p + v)))
  if y.arrived = y.total then (s1.release x.desc).spillSettle x.desc.tent else s1

/-- A transfer of a result reaches its egress tent, which copies it to every member port there (R24). -/
def Box.resultTransfer (s : Box) (p v : Nat) (x : Staged) (key : ResKey) (zero : Bool) : Box :=
  let ports := (tentPorts (p / 256)).filter fun q => (s.staged (8 * q + v)).any fun y =>
    decide (y.arrived < y.total) && y.result.any fun k => k.id == key.id
  let step (b : Box) (q : Nat) : Box :=
    b.setStaged (8 * q + v) ((b.staged (8 * q + v)).map fun y =>
      if y.result.any (fun k => k.id == key.id) = true then s.stagedNext q y zero else y)
  let s1 := ports.foldl step s
  if x.arrived + 1 = x.total then ports.foldl (fun b q => b.egressCheck q v key.id) (s1.crossed key.id ports) else s1

/-- The waiting contribution of a port that crosses to a sliver, with its place, and its part's place in the sliver's intake. -/
def Box.crossing (s : Box) (p : Nat) : Option (Nat × Arrived × Nat) :=
  ((s.port p).steer.findIdx? fun a => a.dest.isSome).bind fun i =>
    ((s.port p).steer[i]?).bind fun it =>
      ((s.sliver (it.dest.getD 0)).intake.findIdx? fun q => q.port == p && decide (q.arrived < q.total)).map fun j => (i, it, j)

/-- A part of a sliver's intake changes. -/
def Box.onPartOf (s : Box) (sl j : Nat) (f : Part → Part) : Box :=
  let v := s.sliver sl
  s.setSliver sl { v with intake := v.intake.mapIdx fun k q => if k = j then f q else q }

/-- The next cell of a contribution is read from its landing cells before its first try to cross (04_buffers.md R97, R98). -/
def Box.partRead (s : Box) (p i j : Nat) (it : Arrived) (reads : List CellRead) : Box :=
  let sl := it.dest.getD 0
  match (s.sliver sl).intake[j]? with
  | none => s
  | some q =>
    if q.tries = 0 then
      let (r, s1) := s.readSpan (p / 256) it.cells none q.frame reads q.arrived 1
      Box.onPartOf (s1.setPort p { s1.port p with steer := (s1.port p).steer.set i { it with cells := r.cells } }) sl j
        fun z => { z with frame := r.frame }
    else s

/-- A transfer of a contribution that has been read reaches its sliver's intake; with the last it leaves its landing cells. -/
def Box.partArrive (s : Box) (p i j : Nat) (it : Arrived) (zero : Bool) : Box :=
  let sl := it.dest.getD 0
  let s1 := s.onPartOf sl j fun q => { q with
    frame := if zero then zeroFrom q.frame q.arrived else q.frame, arrived := q.arrived + 1, tries := 0 }
  if ((s1.sliver sl).intake[j]?).any (fun q => decide (q.arrived = q.total)) = true then
    Box.steerGone (s1.setPort p { s1.port p with steer := (s1.port p).steer.eraseIdx i }) p
      (((s1.port p).steer[i]?).getD it)
  else s1

/-- A contribution's next cell is read and crosses to its sliver's intake (06_collectives.md R158; R231; 04_buffers.md R97,
R98). -/
def Box.partTransfer (s : Box) (p : Nat) (bad : Bool) (retries : Nat) (reads : List CellRead) : Box :=
  match s.crossing p with
  | none => s
  | some (i, it, j) =>
    let sl := it.dest.getD 0
    let s0 := (s.partRead p i j it reads).d2dRetries (sl % 8) retries
    if bad then
      match s0.transferBad (sl % 8) ((((s0.sliver sl).intake[j]?).map Part.tries).getD 0) with
      | (true, s1) => s1.partArrive p i j it true
      | (false, s1) => s1.onPartOf sl j fun q => { q with tries := q.tries + 1 }
    else s0.partArrive p i j it false

/-- The egress ports to which frames of a tent have transfers to come, in rising order. -/
def Box.linkPorts (s : Box) (t : Nat) : List Nat :=
  (s.staging.filterMap fun e => (firstOpen e.2).bind fun x => if x.desc.tent = t then some (e.1 / 8) else none).eraseDups

/-- The egress port whose turn it is on a tent's link: the next after the last one served, in rotation by transfer (R137).
DEDUCED, log entry 159. -/
def Box.linkTurn (s : Box) (t : Nat) : Nat :=
  let ps := s.linkPorts t
  (ps.find? fun q => decide ((s.tent t).linkAt < q)).getD (ps.headD 0)

/-- The egress ports of a tent whose transfer is next on the link of some ingress tent, in rising order. -/
def Box.turnPorts (s : Box) (u : Nat) : List Nat :=
  sortBy (· ≤ ·) ((((List.range 8).filter fun t => s.linkPorts t != []).map s.linkTurn).filter (· / 256 = u)).eraseDups

/-- The egress port whose turn it is on the link of its own tent, among those whose transfer is next where it comes from (R137).
DEDUCED, log entry 159. -/
def Box.outTurn (s : Box) (u : Nat) : Nat :=
  let ps := s.turnPorts u
  (ps.find? fun q => decide ((s.tent u).linkOut < q)).getD (ps.headD 0)

/-- A transfer of `x` toward port `p` also serves port `q`: the same port, or a copy of the same result in the same tent. -/
def Box.sameTransfer (s : Box) (p q v : Nat) (x : Staged) : Bool :=
  p == q || (p / 256 == q / 256 && (match x.result with
    | some k => (s.staged (8 * q + v)).any fun y => decide (y.arrived < y.total) && y.result.any fun j => j.id == k.id
    | none => false))

/-- The next transfer on its way to a port and VC crosses the links of both tents where it is its turn on each (R137), and reaches
the egress tent, or fails its CRC there (R351). -/
def Box.egressTransfer (s0 : Box) (p v : Nat) (bad : Bool) (retries : Nat) : Box :=
  match firstOpen (s0.staged (8 * p + v)) with
  | none => s0
  | some x =>
    let q := s0.linkTurn x.desc.tent
    let r := s0.outTurn (p / 256)
    if s0.sameTransfer p q v x = false ∨ s0.sameTransfer p r v x = false then s0 else
    let s1 := s0.setTent x.desc.tent { s0.tent x.desc.tent with linkAt := q }
    let s := (s1.setTent (p / 256) { s1.tent (p / 256) with linkOut := r }).d2dRetries (p / 256) retries
    let next (b : Box) (zero : Bool) : Box :=
      match x.result with
      | some k => b.resultTransfer p v x k zero
      | none => b.frameTransfer p v x zero
    if bad then
      match s.transferBad (p / 256) x.tries with
      | (true, s1) => next s1 true
      | (false, s1) => s1.setStaged (8 * p + v) (putOpen { x with tries := x.tries + 1 } (s1.staged (8 * p + v)))
    else next s false

/-- MIDWAY_TRANSFER (R351): on VC3 `p` is the ingress port of the contribution, on the others the egress port. -/
def execMidwayTransfer (p : Slot) (v : Vc) (bad : Bool) (retries : Nat) (reads : List CellRead)
    (s : State) : Result :=
  s.actRun fun b =>
    if v.toNat = 3 then b.partTransfer p.toNat bad retries reads else b.egressTransfer p.toNat v.toNat bad retries

end Sys2Proof.Machine
end

