-- ==== Sys2Proof/Machine/PortCtl.lean ====
section
/-!
DEFINITION. Port modes and port control (02_itzal_link.md R28 to R30, R44; 16_registers.md R454, R456, R457, R460): what a
write of LNK_FP_MODE, LNK_PORT_CTRL and LNK_CREDIT_INIT does.
-/

namespace Sys2Proof.Machine

/-! ### The mode of a fibre pair (R28, R30, R456) -/

/-- The default credits of a mode in the words of LNK_CREDIT_INIT (R44, R460): half at 400G, a quarter at 200G. -/
def defaultCredits (mode : Nat) : List Nat :=
  let d := 2 ^ (mode - 1)
  [[256, 256], [512, 512], [256, 32], [32, 0]].map fun w => w.getD 0 0 / d * 65536 + w.getD 1 0 / d

/-- Loads the default credits of the pair's mode into the slots that are ports in it. -/
def Box.loadCredits (s : Box) (f : Nat) : Box :=
  (s.pairPorts f).foldl (fun (b : Box) p =>
    b.setWords (LNK_CREDIT_INIT0_at p) ((defaultCredits (s.pairMode f)).map (BitVec.ofNat 32))) s

/-- A counter of a fibre pair: of one of its slots, or of one of its receive lanes (R454, R467).
DEDUCED, log entry 36. -/
def pairCounter (f p i : Nat) : Bool :=
  (counterSlot p i).any (fun q => q / 4 == f)
    || (p == lnkPage (f / 64) && decide (2304 ≤ i) && decide ((i - 2304) / 10 = f % 64))

/-- Clears the counters of a fibre pair (R454), and with them its lanes' last health readings (10_optics.md R313). -/
def Box.clearPair (s0 : Box) (f : Nat) : Box :=
  let s := ([0, 1, 2, 3].map (4 * f + ·)).foldl (fun (b : Box) p => b.setPort p { b.port p with fecPrev := [] }) s0
  { s with ctrs := mapDrop s.ctrs fun k => pairCounter f (k / 4096) (k % 4096) }

/-- A fibre pair starts in APR when it leaves mode 0 (R317). -/
def Box.aprBegin (s : Box) (f : Nat) : Box := (s.put (pairBit SPT_APR_STATUS_APR f) false).aprEnter f

/-- The microrings follow a new mode (R302): off in mode 0; those of λ4 parked in the modes of several ports, and sought
again at 800G.
DEDUCED, log entry 122. -/
def Box.modeRings (s : Box) (f : Nat) : Box :=
  let e := f / 32
  if s.pairMode f = 0 then (pairRings f).foldl (fun b i => b.ringOff e i 0) s
  else
    let l4 := (pairRings f).filter fun i => i % 5 == 4
    let s1 := l4.foldl (fun (b : Box) i =>
      if s.pairMode f = 1 then (if b.rd (ringState e i) = 5 then b.ringSearch e i else b)
      else if b.rd (ringState e i) = 3 then b.ringVerified e i else b) s
    s1.pairReady f

/-- A write of LNK_FP_MODE (R28, R30, R77, R456): a reserved mode is ignored with the reserved-write indication; the write
is ignored with the access-error indication while a slot of the pair is enabled. -/
def Box.fpMode (s : Box) (src : Requester) (f v : Nat) : Box :=
  let a := LNK_FP_MODE_at f
  if 4 ≤ natField v 0 3 then s.rsvWriteAt a src
  else if s.pairEnabled f then s.accErrAt a src
  else
    let was := s.pairPorts f
    let old := s.pairMode f
    let s1 := s.plainWrite src a v
    let s2 := (was.filter fun p => !s1.isPort p).foldl (fun (b : Box) p => b.reroute p) s1
    let s3 := (s2.loadCredits f).clearPair f
    let s4 := if old = 0 ∧ s3.pairMode f ≠ 0 then s3.aprBegin f
      else if s3.pairMode f = 0 then (s3.put (pairBit SPT_APR_STATUS_APR f) true).setApr f {}
      else s3
    s4.modeRings f

/-- FP_MODE_WRITE (R30). -/
def execFpModeWrite (src : Requester) (f : FpIx) (value : Word) (s : State) : Result :=
  s.actReg (LNK_FP_MODE_at f.toNat) src fun b => b.fpMode src f.toNat value.toNat

/-! ### Port control (R13, R94, R457) -/

/-- The landing reserves an enable of the port takes: its initial credits (R92). -/
def Box.reserves (s : Box) (p : Nat) : List Nat := (List.range 8).map (s.creditInit p)

/-- The two checks of R94. -/
def Box.reservesFit (s : Box) (p : Nat) : Bool :=
  let r := s.reserves p
  decide ((((landVcs.map fun v => r.getD v 0).sum : Nat) : Int) ≤ s.unreserved (p / 256))
    && decide (((r.getD 3 0 : Nat) : Int) ≤ s.collFree (p / 256))

/-- Microrings of an enabled pair that are off or failed are sought (R302, R319): the transmit ones once the lasers of the
engine are lit, the receive ones once APR has ended. One whose wavelength is quarantined stays off (12_faults.md R360). -/
def Box.seekRings (s : Box) (f : Nat) : Box :=
  let e := f / 32
  let lit := s.is (engReady e) || (s.engine e).boot == 2
  let go (i : Nat) : Bool :=
    (s.rd (ringState e i) == 0 || s.rd (ringState e i) == 6)
      && (if i < 160 then lit else !s.inApr f)
      && !s.ringQuar e i
  ((pairRings f).filter go).foldl (fun b i => b.ringSearch e i) s

/-- An enable that passed its checks: new landing reserves in a generation of their own (R94), and the port trains once
its microrings are verified (R56). -/
def Box.portOpen (s : Box) (p : Nat) : Box :=
  let x := s.port p
  let s1 := s.setPort p { x with gen := x.gen + 1, resv := x.resv ++ [⟨x.gen + 1, s.reserves p⟩] }
  (s1.seekRings (p / 4)).trainStart p

/-- ENABLE is cleared (R457): a port that is up goes down under steps 1 to 4 of R42 and its queues are flushed; training
ends, and the reserves return once nothing is charged to them.
DEDUCED, log entry 121. -/
def Box.portClose (s : Box) (p : Nat) : Box :=
  let s1 := if s.up p then ((s.linkDown p).reroute p).drainPortDown p else s
  let s2 := (s1.put (LNK_PORT_STATUS_TRAINING p) false).wr (LNK_TRAIN_STATUS_STEP p) 0
  (s2.setPort p { s2.port p with trainAt := none, block := [], twice := false, echoSeen := false }).reserveReturn p

/-- A write of LNK_PORT_CTRL (R13, R94, R457). -/
def Box.portCtrl (s : Box) (src : Requester) (p v : Nat) : Box :=
  let a := LNK_PORT_CTRL_at p
  let on := v.testBit 0
  let was := s.is (LNK_PORT_CTRL_ENABLE p)
  if s.isPort p = false ∨ natField v 1 2 = 3 then s.rsvWriteAt a src
  else if on && !was then
    if s.reservesFit p then (s.plainWrite src a v).portOpen p
    else
      let t := p / 256
      let f := USH_STATUS_RESV_SHORT t
      let s1 := s.plainWrite src a (v - 1)
      let s2 := if s1.is f then s1 else (s1.put f true).raiseInt (ushPage t) 3
      s2.accErrAt a src
  else if !on && was then (s.plainWrite src a v).portClose p
  else s.plainWrite src a v

/-- A word with bit 0 set. -/
def withEnable (v : Word) : Nat := 2 * (v.toNat / 2) + 1

/-- PORT_ENABLE (R94). -/
def execPortEnable (src : Requester) (p : Slot) (value : Word) (s : State) : Result :=
  s.actReg (LNK_PORT_CTRL_at p.toNat) src fun b => b.portCtrl src p.toNat (withEnable value)

/-- PORT_DISABLE (R457). -/
def execPortDisable (src : Requester) (p : Slot) (value : Word) (s : State) : Result :=
  s.actReg (LNK_PORT_CTRL_at p.toNat) src fun b => b.portCtrl src p.toNat (withEnable value - 1)

/-- A write of a word of LNK_CREDIT_INIT (R13, R44, R460): ignored while the port is enabled; values above 8,192 are
clamped, and VC7's is ignored. -/
def Box.creditWrite (s : Box) (src : Requester) (p w v : Nat) : Box :=
  let a := LNK_CREDIT_INIT0_at p + 4 * w
  let hi := natField v 16 16
  let lo := if w = 3 then 0 else natField v 0 16
  if s.isPort p = false then s.rsvWriteAt a src
  else if s.is (LNK_PORT_CTRL_ENABLE p) then s.accErrAt a src
  else
    let s1 := if 8192 < hi ∨ 8192 < lo then s.rsvWriteAt a src else s
    s1.setWord a (BitVec.ofNat 32 (min hi 8192 * 65536 + min lo 8192))

end Sys2Proof.Machine
end

