-- ==== Sys2Proof/Machine/CalRegs.lean ====
section
/-!
DEFINITION. Register writes of Calliope, Turnstile and the Usher that carry checks of their own (04_buffers.md R94, R101,
R114 to R117; 05_egress_scheduling.md R120, R122, R125 to R127, R132, R139 to R142).
-/

namespace Sys2Proof.Machine

/-! ### Turnstile and Calliope -/

/-- A 9-bit overhead lies from -32 to +255 (R120, R125). -/
def ovhOk (v : Nat) : Bool := decide (v % 512 ≤ 255) || decide (480 ≤ v % 512)

/-- A write of TRN_PORT_OVH (R120, R139). -/
def Box.ovhWrite (s : Box) (src : Requester) (p v : Nat) : Box :=
  let a := TRN_PORT_OVH_at p
  s.onPort src p a fun b => if ovhOk v then b.plainWrite src a v else b.rsvWriteAt a src

/-- A bank of gate entries that a write may not change: the running list's, and the one a pending switch commits
(R132). -/
def Box.bankProtected (s : Box) (p b : Nat) : Bool :=
  (s.listRuns p && s.activeBank p == b) || ((s.cal p).switchAt.isSome && s.activeBank p != b)

/-- A write of word `w` of a gate-list entry, at page address `a` (R127, R132). -/
def Box.gateWord (s : Box) (src : Requester) (a p b k w v : Nat) : Box :=
  s.onPort src p a fun x =>
    if x.bankProtected p b then x.accErrAt a src
    else
      let y := if w = 1 ∧ 2 ≤ v then x.rsvWriteAt a src else x
      y.setTab (gateAt p b k + 4 * w) (BitVec.ofNat 32 (if w = 1 then v % 2 else v))

/-- A write of a shaper's word: EN rising fills the bucket, any other write clamps it (R122, R126, R140). -/
def Box.shaperWrite (s : Box) (src : Requester) (a p : Nat) (vc : Option Nat) (burst : Bool) (v : Nat) : Box :=
  let rate := if burst then a - 4 else a
  let rise := !burst && v.testBit 31 && !wordBit (s.word rate) 31
  let s1 := s.plainWrite src a v
  let depth := wordField (s1.word (rate + 4)) 0 24
  let t := s.replTick (p / 256)
  let x := s1.cal p
  match vc with
  | none => s1.setCal p { x with port := x.port.configure rise depth t }
  | some i => s1.setCal p { x with vcs := mapSet (fun _ => {}) x.vcs i (Bucket.configure (mapGet (fun _ => {}) x.vcs i) rise depth t) }

/-- A write of CAL_GL_CMD: one command at a time (R132, R142). -/
def Box.glCmd (s : Box) (src : Requester) (p v : Nat) : Box :=
  let a := CAL_GL_CMD_at p
  let s1 := s.rsvCheck src a v
  match v % 8 with
  | 0 => s1
  | 1 => s1.glCommit src p
  | 2 => s1.glCancel src p
  | 4 => s1.glStop src p
  | _ => s1.accErrAt a src

/-- A write of a status register whose REASON returns to 0 with the bit that reports it (16_registers.md R491).
DESIGN CHOICE, log entry 158. -/
def Box.reasonWrite (s : Box) (src : Requester) (bit reason : Fld) (v : Nat) : Box :=
  let s1 := s.plainWrite src bit.addr v
  if v.testBit bit.lo then s1.wr reason 0 else s1

/-- A write of a register of the CAL window of slot `p` (R140 to R142). -/
def Box.calWrite (s : Box) (src : Requester) (r : RegAt) (a v : Nat) : Box :=
  let p := r.die
  s.onPort src p a fun b =>
    match r.id with
    | .CAL_PORT_CTRL => if ovhOk (v / 256) then b.plainWrite src a v else b.rsvWriteAt a src
    | .CAL_DWRR_Q0 | .CAL_DWRR_Q1 =>
      if [0, 8, 16, 24].any fun lo => decide (natField v lo 8 < 70) then b.accErrAt a src else b.plainWrite src a v
    | .CAL_PSH_RATE => b.shaperWrite src a p none false v
    | .CAL_PSH_BURST => b.shaperWrite src a p none true v
    | .CAL_VSH_RATE => b.shaperWrite src a p (some r.ix) false v
    | .CAL_VSH_BURST => b.shaperWrite src a p (some r.ix) true v
    | .CAL_GL_BASE_LO | .CAL_GL_BASE_HI | .CAL_GL_LEN =>
      if b.bankProtected p r.ix then b.accErrAt a src else b.plainWrite src a v
    | .CAL_GL_CMD => b.glCmd src p v
    | .CAL_GL_STATUS => b.reasonWrite src (CAL_GL_STATUS_REJECTED p) (CAL_GL_STATUS_REASON p) v
    | _ => b.plainWrite src a v

/-- CYCLE of the running list, 0 while none runs (R140). -/
def Box.cycleNow (s : Box) (p : Nat) : Nat := if s.listRuns p then s.glCycle p (s.activeBank p) else 0

/-- CAL_SCHED_STATUS with IN_ENV: a list runs and every bit in [5:0] is clear (07_determinism_audit.md R216). -/
def Box.schedStatus (s : Box) (p : Nat) : Word :=
  let w := wordField (s.word (CAL_SCHED_STATUS_at p)) 0 6
  BitVec.ofNat 32 (if s.listRuns p = true ∧ w = 0 then 64 else w)

/-! ### The Usher -/

/-- Every port of the tent is disabled. -/
def Box.tentOff (s : Box) (t : Nat) : Bool := (tentPorts t).all fun p => !s.is (LNK_PORT_CTRL_ENABLE p)

/-- The tent holds no frame: none has landed in part or whole, waits for Carousel, is queued, is a result, or is staged (R101). -/
def Box.tentEmpty (s : Box) (t : Nat) : Bool :=
  s.held t == []
    && (s.ports.all fun e => e.1 / 256 != t || (e.2.landed == [] && e.2.partCells == [] && e.2.steer.all fun a => a.cells == []))
    && (s.results.all fun r => r.tent != t) && s.staging.all fun e => e.1 / 8 / 256 != t || e.2 == []

/-- Cells of the three pools together (R101, R118). -/
def Box.poolSum (s : Box) (t : Nat) : Nat :=
  poolCells 0 * s.rd (USH_POOL_SMALL_BLOCKS t) + poolCells 1 * s.rd (USH_POOL_MED_BLOCKS t)
    + poolCells 2 * s.rd (USH_POOL_LARGE_BLOCKS t)

/-- A write of USH_CTRL (R99, R101, R114).
DEDUCED, log entry 29. -/
def Box.ushCtrl (s : Box) (src : Requester) (t v : Nat) : Box :=
  let a := USH_CTRL_at t
  let m := v % 4
  let sizes := ([0, 1, 2, 3].map (s.partSize t)).sum
  let bad := m ≠ s.rd (USH_CTRL_ALLOC_MODE t)
    ∧ (s.tentOff t = false ∨ s.tentEmpty t = false ∨ (m = 1 ∧ sizes < s.poolSum t))
  if 2 ≤ m then s.rsvWriteAt a src
  else if bad then s.accErrAt a src
  else
    let s1 := s.plainWrite src a v
    if v.testBit 3 then s1.ushAudit src t else s1

/-- A write of a pool's block count (R101, R118). -/
def Box.poolWrite (s : Box) (src : Requester) (t a v : Nat) : Box :=
  if wordField (s.word a) 0 18 ≠ v % 2 ^ 18 ∧ (s.tentOff t = false ∨ s.tentEmpty t = false) then s.accErrAt a src
  else s.plainWrite src a v

/-- A write of USH_COLL_CELLS (R114). -/
def Box.collWrite (s : Box) (src : Requester) (t v : Nat) : Box :=
  let a := USH_COLL_CELLS_at t
  let n : Nat := v % 2 ^ 19
  let reserved := s.streams.any fun e => e.2.held && decide (t ∈ (s.strm e.1).tents)
  let left : Int := s.unreserved t + s.rd (USH_COLL_CELLS_CELLS t) - (n : Int)
  if s.tentOff t = false ∨ reserved = true ∨ left < 0 ∨ n < s.landingHeld t [3] then s.accErrAt a src
  else s.plainWrite src a v

/-- A write of USH_PART_CFG (R105, R115); a SIZE below the occupancy holds admissions (R102). -/
def Box.partWrite (s : Box) (src : Requester) (t i v : Nat) : Box :=
  let a := USH_PART_CFG_at t i
  let n : Nat := v % 2 ^ 19
  let left : Int := s.unreserved t + s.partSize t i - (n : Int)
  if 10 ≤ natField v 27 4 then s.rsvWriteAt a src
  else if s.partSize t i < n ∧ left < 0 then s.accErrAt a src
  else
    let s1 := s.plainWrite src a v
    let x := s1.tent t
    let rest := x.shrunk.filter (· ≠ i)
    s1.setTent t { x with shrunk := if n < s1.partOcc t i then i :: rest else rest }

/-- A write of USH_SPILL_CTRL (R117). -/
def Box.spillCtrl (s : Box) (src : Requester) (t v : Nat) : Box :=
  let a := USH_SPILL_CTRL_at t
  let on := natField v 20 4
  if on = 0 ∨ on ≤ natField v 16 4 ∨ 320 < natField v 8 8 + natField v 0 8 then s.accErrAt a src
  else (s.plainWrite src a v).spillSettle t

end Sys2Proof.Machine
end

