-- ==== Sys2Proof/Machine/Loader.lean ====
section
/-!
DEFINITION. The Slolvo loader and the kernel library (08_tumblers.md R219 to R225, R255).
-/

namespace Sys2Proof.Machine

/-! ### The loader's checks (R222) -/

/-- A multi-way set of words as the bits of a number. -/
abbrev WordSet := Nat

/-- The signed offset of a word of format B. -/
def kOff16 (w : Nat) : Int := toSigned 16 (natField w 0 16)

/-- REASON 1: the header. -/
def badHeader (b : List Byte) : Bool :=
  leAt b 0 4 != 0x54424B31 || leAt b 4 1 != 1 || decide (1 < imgKind b) || decide (11 < imgFmt b)
    || imgCodeWords b == 0 || decide (16384 < imgCodeWords b) || decide (256 < imgConstLines b)
    || decide (96 < imgStateLines b) || (imgKind b == 1 && imgStateLines b != 0) || leAt b 14 2 != 0
    || !((b.take 256).drop 168).all (· == 0) || (List.range 32).any fun i => decide (65535 < imgLoopLim b i)

/-- The code words of an image. -/
def imgWords (b : List Byte) : List Nat := (List.range (imgCodeWords b)).map fun i => imgCode b i

/-- The LOOPs of a code: own word, first word of the body, LOOPLIM. -/
structure KLoopInfo where
  at_   : Nat
  first : Int
  lim   : Nat
  deriving DecidableEq, Repr

/-- The loops of an image, in word order. -/
def imgLoops (b : List Byte) : List KLoopInfo :=
  ((imgWords b).mapIdx fun i w => (i, w)).filterMap fun x =>
    if kOp x.2 = 0x27 then some ⟨x.1, x.1 + kOff16 x.2, imgLoopLim b (kA x.2)⟩ else none

/-- The target of a branch or J at word `i`, none for another word. -/
def kTarget (i w : Nat) : Option Int :=
  let op := kOp w
  if 0x20 ≤ op ∧ op ≤ 0x25 then some (i + kOff16 w)
  else if op = 0x26 then some (i + toSigned 26 (natField w 0 26))
  else none

/-- The words that may follow word `i`. -/
def kSucc (i w : Nat) : List Nat :=
  match kOp w with
  | 0x28 => []
  | 0x29 => []
  | 0x26 => [((i : Int) + toSigned 26 (natField w 0 26)).toNat]
  | op => (i + 1) :: (if (0x20 ≤ op ∧ op ≤ 0x25) ∨ op = 0x27 then [((i : Int) + kOff16 w).toNat] else [])

/-- One pass of reachability over the code. -/
def reachPass (ws : List Nat) (r : WordSet) : WordSet :=
  ((ws.foldl (fun (x : Nat × WordSet) w =>
    (x.1 + 1, if x.2.testBit x.1 then (kSucc x.1 w).foldl (fun m j => m ||| 2 ^ j) x.2 else x.2)) (0, r))).2

/-- Passes repeated. -/
def reachPasses (ws : List Nat) : Nat → WordSet → WordSet
  | 0, r => r
  | n + 1, r => reachPasses ws n (reachPass ws r)

/-- REASON 4: control flow. A path reaches the end of the code when a word that an entry reaches has the word after
the last as a successor; six passes settle loops nested four deep. -/
def badFlow (b : List Byte) : Bool :=
  let n := imgCodeWords b
  let ws := imgWords b
  let iws := ws.mapIdx fun i w => (i, w)
  let loops := imgLoops b
  let brs := iws.filterMap fun x => (kTarget x.1 x.2).map fun t => (x.1, t)
  let inside (l : KLoopInfo) (i : Int) : Bool := decide (l.first ≤ i) && decide (i ≤ l.at_)
  let nested (l m : KLoopInfo) : Bool := decide (m.first ≤ l.first) && decide (l.at_ ≤ m.at_)
  let entries := (List.range 4).filterMap fun i => if imgHas b i ∧ imgEntry b i < n then some (imgEntry b i) else none
  (brs.any fun x => decide (x.2 ≤ x.1) || decide ((n : Int) ≤ x.2))
    || (loops.any fun l => decide ((l.at_ : Int) ≤ l.first) || decide (l.first < 0) || l.lim == 0)
    || (brs.any fun x => loops.any fun l => !inside l x.1 && inside l x.2 && x.2 != l.first)
    || (loops.any fun l => loops.any fun m =>
        (inside m l.first || inside m l.at_) && !nested l m && !nested m l)
    || (loops.any fun l => decide (4 < (loops.filter fun m => nested l m).length))
    || (reachPasses ws 6 (entries.foldl (fun m e => m ||| 2 ^ e) 0)).testBit n

/-- REASON 5: the entries. -/
def badEntries (b : List Byte) : Bool :=
  let has := fun i => imgHas b i
  (if imgKind b = 0 then !has 1 || !has 2 || has 3 else !has 3 || has 0 || has 1 || has 2)
    || (List.range 4).any fun i => has i && decide (imgCodeWords b ≤ imgEntry b i)

/-! ### Worst cases (R223) -/

/-- The most slots from a word to each goal: key 0 is EXIT, key `L + 1` the execution of the LOOP at word `L`. -/
abbrev KCosts := List (Nat × Nat)

/-- The larger of two tables, goal by goal. -/
def costMax (a b : KCosts) : KCosts :=
  b.foldl (fun m e =>
    match m.find? fun x => x.1 = e.1 with
    | none => m ++ [e]
    | some x => if x.2 < e.2 then m.map fun y => if y.1 = e.1 then e else y else m) a

/-- Every entry of a table raised by `n`. -/
def costAdd (n : Nat) (a : KCosts) : KCosts := a.map fun e => (e.1, e.2 + n)

/-- What one body execution costs, and what leads out of its first word. -/
structure KBody where
  loop : KLoopInfo
  full : Option Nat
  raw  : KCosts
  deriving DecidableEq, Repr

/-- A loop entered at its first word: LOOPLIM executions and what follows, or fewer and a way out (R223). -/
def costEnter (l : KLoopInfo) (raw after : KCosts) : KCosts :=
  let rest := raw.filter fun e => e.1 ≠ l.at_ + 1
  match raw.find? fun e => e.1 = l.at_ + 1 with
  | none => rest
  | some (_, b) => costMax (costMax rest (costAdd ((l.lim - 1) * b) rest)) (costAdd (l.lim * b) after)

/-- The costs of word `i` from the tables of the words after it, nearest first. -/
def costWord (i w : Nat) (after : List KCosts) : KCosts :=
  match kOp w with
  | 0x28 => [(0, 1)]
  | 0x29 => []
  | 0x27 => [(i + 1, 1)]
  | _ => costAdd (kCost w) ((kSucc i w).foldl (fun m j => costMax m (after.getD (j - i - 1) [])) [])

/-- One word of the pass from the last word to the first: the tables so far, and the bodies met. -/
def costStep (loops : List KLoopInfo) (acc : List KCosts × List KBody) (x : Nat × Nat) : List KCosts × List KBody :=
  let mine := loops.filter fun l => l.first = (x.1 : Int)
  let r := mine.foldl (fun (y : KCosts × List KBody) l =>
    let b : KBody := ⟨l, (y.1.find? fun e => e.1 = l.at_ + 1).map (·.2), y.1⟩
    (costEnter l y.1 (acc.1.getD (l.at_ - x.1) []), b :: y.2)) (costWord x.1 x.2 acc.1, acc.2)
  (r.1 :: acc.1, r.2)

/-- An entry inside a body: its first execution is what remains of it (R247). -/
def costPartial (tbl : List KCosts) (bodies : List KBody) : Nat → KCosts → KCosts
  | 0, c => c
  | n + 1, c =>
    match (c.filter fun e => e.1 ≠ 0).foldl (fun (m : Option (Nat × Nat)) e => match m with
        | none => some e
        | some y => if e.1 < y.1 then some e else some y) none with
    | none => c
    | some (g, p) =>
      let rest := c.filter fun e => e.1 ≠ g
      let next := match bodies.find? fun b => b.loop.at_ + 1 = g with
        | none => rest
        | some b =>
          let after := tbl.getD g []
          match b.full with
          | none => rest
          | some f =>
            let more := if 2 ≤ b.loop.lim then costAdd (p + (b.loop.lim - 2) * f) (b.raw.filter fun e => e.1 ≠ g) else []
            costMax (costMax rest more) (costAdd (p + (b.loop.lim - 1) * f) after)
      costPartial tbl bodies n next

/-- The worst case of each entry, 0 where it is absent. -/
def worstCases (b : List Byte) : List Nat :=
  let ws := (imgWords b).mapIdx fun i w => (i, w)
  let r := ws.reverse.foldl (costStep (imgLoops b)) ([], [])
  (List.range 4).map fun i =>
    if imgHas b i then
      (((costPartial r.1 r.2 5 (r.1.getD (imgEntry b i) [])).find? fun e => e.1 = 0).map (·.2)).getD 0
    else 0

/-- The per-part figure (R223). -/
def partFigure (b : List Byte) : Nat := if imgKind b = 0 then imgW b 0 + imgW b 1 + imgW b 2 else 17 * imgW b 3

/-- REASON 9: a load or store with base s0 outside every window, or a store into a read-only one. -/
def badStatic (b : List Byte) : Bool :=
  let v : Inv := { entry := .stepE, epoch := 0, chunk := 0, part := none, k := 0 }
  (imgWords b).any fun w =>
    let op := kOp w
    if op < 0x10 ∨ 0x19 < op ∨ kA w ≠ 0 then false
    else
      let size := if op = 0x11 ∨ op = 0x12 ∨ op = 0x16 then 2 else if op = 0x13 ∨ op = 0x14 ∨ op = 0x17 then 1 else 4
      let n := if 0x18 ≤ op then 64 else size
      let isStore := (0x15 ≤ op && op ≤ 0x17) || op == 0x19
      match v.window b (v.addr 0 (natField w 0 13) size) n with
      | none => true
      | some (_, rw) => isStore && !rw

/-- The image as staged: its three pieces, zeros where none was staged. -/
def Box.stagedImage (s : Box) : List Byte :=
  (List.range 3).flatMap fun p => padTo 32768 0 (mapGet (fun _ => []) s.kpieces p)

/-- The first failing reason of R222 for the staged image and its LENGTH, 0 where every check passes. -/
def Box.loaderReason (s : Box) (slot : Nat) : Nat :=
  let b := s.stagedImage
  let len := s.rd TMB_KLOAD_LEN_LENGTH
  let used := (List.range (ceilDiv len 32768)).any fun p => mapGet (fun _ => []) s.kpieces p == []
  let inUse := s.busyStreams.any fun st =>
    (s.strmGrp st).valid && (s.strmGrp st).op == 10 && (s.strmGrp st).kslot == slot
  if badHeader b then 1
  else if (imgWords b).any fun w => !kLegal w then 2
  else if (imgWords b).any fun w => kOp w == 0x3E then 3
  else if badFlow b then 4
  else if badEntries b then 5
  else if worstCases b ≠ (List.range 4).map (imgW b) ∨ (worstCases b).any (fun w => decide (1048576 < w)) then 6
  else if len ≠ imgLen b ∨ used = true then 7
  else if inUse then 8
  else if badStatic b then 9
  else 0

/-! ### Library commands (R221, R255) -/

/-- A slot is named by a valid KERNEL group that has a stream not free (R221). -/
def Box.kslotInUse (s : Box) (slot : Nat) : Bool :=
  s.busyStreams.any fun st => (s.strmGrp st).valid && (s.strmGrp st).op == 10 && (s.strmGrp st).kslot == slot

/-- A library command is rejected. -/
def Box.kReject (s : Box) (reason : Nat) : Box :=
  ((s.wr TMB_KLOAD_STATUS_REASON reason).put TMB_KLOAD_STATUS_REJECTED true).raiseInt tmbPage 0

/-- A slot's figures are copied into the registers. -/
def Box.kInfo (s : Box) (slot : Nat) : Box :=
  let b := mapGet (fun _ => []) s.kernels slot
  let has := b != []
  let w := fun i => if has then imgW b i else 0
  let dig := if has then sha384 b else []
  let s1 := ((s.put TMB_KINFO_VALID has).wr TMB_KINFO_KIND (if has then imgKind b else 0)).wr TMB_KINFO_FMT
    (if has then imgFmt b else 0)
  let s2 := (List.range 4).foldl (fun (x : Box) i => x.wr (TMB_KWC_W i) (w i)) s1
  let s3 := s2.wr (TMB_KWC_W 4) (if has then partFigure b else 0)
  ((List.range 12).foldl (fun (x : Box) i => x.wr (TMB_KDIGEST_DIGEST i) (beAt dig (4 * i) 4)) s3).raiseInt tmbPage 0

/-- Writes the library slot in all eight tents: whatever copy was uncorrectable is so no more (R221; 11_memory.md R334). -/
def Box.putKernel (s : Box) (slot : Nat) (image : List Byte) : Box :=
  { s with kernels := mapSet (fun _ => []) s.kernels slot image, kernBad := s.kernBad.filter fun x => x.2 != slot }

/-- A write of TMB_KLOAD_CMD (R221, R255).
DEDUCED, log entry 71. -/
def Box.kloadCmd (s : Box) (src : Requester) (cmd piece slot : Nat) : Box :=
  if s.is TMB_KLOAD_STATUS_BUSY then s.accErrAt TMB_KLOAD_CMD_at src
  else match cmd with
    | 1 =>
      if piece = 3 then s.rsvWriteAt TMB_KLOAD_CMD_at src
      else { (s.put TMB_KLOAD_STATUS_BUSY true) with kop := some (.stage piece) }
    | 2 => if s.kslotInUse slot then s.kReject 8
           else { (s.put TMB_KLOAD_STATUS_BUSY true) with kop := some (.verify slot) }
    | 3 => if s.kslotInUse slot then s.kReject 8
           else (s.putKernel slot []).raiseInt tmbPage 0
    | 4 => s.kInfo slot
    | _ => s.rsvWriteAt TMB_KLOAD_CMD_at src

/-- KLOAD_STAGE (R221). -/
def execKloadStage (src : Requester) (piece : BitVec 2) (s : State) : Result :=
  s.actReg TMB_KLOAD_CMD_at src fun b => b.kloadCmd src 1 piece.toNat 0

/-- KLOAD_VERIFY (R222). -/
def execKloadVerify (src : Requester) (slot : BitVec 8) (s : State) : Result :=
  s.actReg TMB_KLOAD_CMD_at src fun b => b.kloadCmd src 2 0 slot.toNat

/-- KLOAD_UNLOAD (R221). -/
def execKloadUnload (src : Requester) (slot : BitVec 8) (s : State) : Result :=
  s.actReg TMB_KLOAD_CMD_at src fun b => b.kloadCmd src 3 0 slot.toNat

/-- KLOAD_INFO (R221). -/
def execKloadInfo (src : Requester) (slot : BitVec 8) (s : State) : Result :=
  s.actReg TMB_KLOAD_CMD_at src fun b => b.kloadCmd src 4 0 slot.toNat

/-- The staging copy of a piece completes: STAGED shows the pieces staged since the last VERIFY, one bit each. -/
def Box.kloadStageDone (s : Box) : Box :=
  match s.kop with
  | some (.stage p) =>
    let bs := wordBytesLE ((List.range 8192).map fun i => s.word (TMB_WIN_at i))
    let n := s.rd TMB_KLOAD_STATUS_STAGED
    { ((s.put TMB_KLOAD_STATUS_BUSY false).wr TMB_KLOAD_STATUS_STAGED (n ||| 2 ^ p)) with
      kop := none, kpieces := mapSet (fun _ => []) s.kpieces p bs }
  | _ => s

/-- KLOAD_STAGE_DONE (R221). -/
def execKloadStageDone (s : State) : Result := s.actRun Box.kloadStageDone

/-- The loader's checks end: the image is written to the slot in all eight tents, or rejected with the first failing
reason (R221, R222, R224). -/
def Box.kloadVerifyDone (s : Box) : Box :=
  match s.kop with
  | some (.verify slot) =>
    let r := s.loaderReason slot
    let s1 : Box := { ((s.put TMB_KLOAD_STATUS_BUSY false).wr TMB_KLOAD_STATUS_STAGED 0) with kop := none, kpieces := [] }
    if r ≠ 0 then s1.kReject r
    else
      ((s1.put TMB_KLOAD_STATUS_ACCEPTED true).putKernel slot (s.stagedImage.take (s.rd TMB_KLOAD_LEN_LENGTH))).raiseInt tmbPage 0
  | _ => s

/-- KLOAD_VERIFY_DONE (R222). -/
def execKloadVerifyDone (s : State) : Result := s.actRun Box.kloadVerifyDone

end Sys2Proof.Machine
end

