-- ==== Sys2Proof/Machine/Tightrope.lean ====
section
/-!
DEFINITION. Tightrope (09_network_time.md): the apply tick and discontinuities, the servo and its commands, time
transfer over VC5 and management Ethernet, trigger units, time pins, launch buffers, and the replica check of R18.
-/

namespace Sys2Proof.Machine

/-! ### Trigger units (R277 to R283) -/

/-- The fabric tick on which a unit evaluates its instant: the acting tent's for ACTION 4, else the master's (R279). -/
def Box.trigTick (s : Box) (u : Nat) : Nat :=
  if s.rd (TGT_TRIG_CTRL_ACTION u) = 4 then s.tentTick (s.rd (TGT_TRIG_CTRL_TARGET u) / 256) else s.nowTick

/-- The owner code of a requester (R282). -/
def ownerCode : Requester → Nat
  | .driver => 2
  | _ => 1

/-- Whether a write of OWNER = `new` is the requester's to make: it claims a free object or keeps or releases its own
(R282). -/
def ownerOk (me cur new : Nat) : Bool := if cur = 0 then new == me else cur == me && (new == me || new == 0)

/-- What a time pin holds. -/
def Box.timePin (s : Box) (i : Nat) : Pin := mapGet (fun _ => {}) s.pins i
/-- Replaces it. -/
def Box.setPin (s : Box) (i : Nat) (x : Pin) : Box := { s with pins := mapSet (fun _ => {}) s.pins i x }

/-- The level a pin is driven to, by POL; none at high impedance (R281). -/
def Box.pinLevel (s : Box) (i : Nat) : Option Bool :=
  if s.rd (TGT_PIN_CFG_MODE i) ∈ [1, 2] then some ((s.timePin i).active != s.is (TGT_PIN_CFG_POL i)) else none

/-- A pin takes its level at an instant in 1/32 tk of fabric time. -/
def Box.pinOut (s : Box) (i at_ : Nat) : Box := s.emit (.pin i (s.pinLevel i) at_)

/-- Fires the pin of a unit in its output mode, the edge placed at `at_` in 1/32 tk (R279, R281): a pulse of WIDTH ticks, or a
toggled level. -/
def Box.pinFire (s : Box) (u at_ : Nat) : Box :=
  let i := s.rd (TGT_TRIG_CTRL_PIN u)
  let x := s.timePin i
  match s.rd (TGT_PIN_CFG_MODE i) with
  | 1 => (s.setPin i { x with active := true, till := some (at_ + 32 * s.rd (TGT_TRIG_WIDTH_WIDTH u)) }).pinOut i at_
  | 2 => (s.setPin i { x with active := !x.active }).pinOut i at_
  | _ => s

/-- The bytes of launch buffer `b` of a tent, in frame word order (R283). -/
def Box.launchBuf (s : Box) (t b : Nat) : List Byte :=
  (List.range 128).flatMap fun k => bytesBE 4 (s.word (TGT_LAUNCH_BUF_at t (128 * b + k))).toNat

/-- A launch buffer holds a valid frame: VMAJ 1, VC5, FKIND 4 or 5, PLEN at most 7 (R283). -/
def launchValid (f : List Byte) : Bool :=
  frVmaj f == 1 && frVc f == 5 && (frKind f == 4 || frKind f == 5) && decide (frPlen f ≤ 7)

/-- The action of a firing whose edge stands at `at_` (R278). -/
def Box.trigAction (s : Box) (u at_ : Nat) : Box :=
  let tgt := s.rd (TGT_TRIG_CTRL_TARGET u)
  match s.rd (TGT_TRIG_CTRL_ACTION u) with
  | 1 => s.pinFire u at_
  | 2 => s.monFire tgt
  | 3 => s.heatFire tgt
  | 4 =>
    let f := s.launchBuf (tgt / 256) (s.rd (TGT_TRIG_CTRL_BUF u))
    { s with launches := s.launches ++ [⟨tgt, u, f.take (64 + 64 * frPlen f), s.tent32 (tgt / 256) 0⟩] }
  | _ => s

/-- TIME of a periodic unit after a firing, the fabric tick being `f` (R279): the next instant, or the first after `f`
where that has been reached, and whether any was skipped. -/
def nextInstant (t period f : Nat) : Nat × Bool :=
  let t1 := t + period
  if t1 ≤ f then (t1 + ((f - t1) / period + 1) * period, true) else (t1, false)

/-- TIME of a periodic unit that a forward step has fired: the first instant at or after `f` (R280). -/
def stepInstant (t period f : Nat) : Nat × Bool :=
  let t1 := t + period
  if t1 < f then (t1 + ceilDiv (f - t1) period * period, true) else (t1, false)

/-- TIME of a unit advanced to the instant given, SKIPPED set where one was skipped. -/
def Box.setInstant (s : Box) (u : Nat) (r : Nat × Bool) : Box :=
  let s1 := (s.wr (TGT_TRIG_TIME_LO_TIME u) (r.1 % 2 ^ 32)).wr (TGT_TRIG_TIME_HI_TIME u) (r.1 / 2 ^ 32)
  if r.2 then s1.put (TGT_TRIG_STATUS_SKIPPED u) true else s1

/-- A unit fires with its edge at `at_` (R279): FIRED and COUNT; a one-shot unit is disarmed, a periodic one advances by
`next`; its action runs, and the blocks that name it act, each at the unit's instant on its own replica, or at once where the
instant lies ahead of a late arming. -/
def Box.trigRun (s : Box) (u at_ : Nat) (next : Nat → Nat → Nat → Nat × Bool) : Box :=
  let period := s.rd (TGT_TRIG_PERIOD_PERIOD u)
  let s1 := (s.put (TGT_TRIG_STATUS_FIRED u) true).wr (TGT_TRIG_COUNT_COUNT u) (s.rd (TGT_TRIG_COUNT_COUNT u) + 1)
  let s2 :=
    if period = 0 then s1.put (TGT_TRIG_CTRL_ARM u) false
    else s1.setInstant u (next (s.trigTime u) period (s.trigTick u))
  let i := if s.trigTime u ≤ s.trigTick u then s.trigTime u else 0
  ((s2.trigAction u at_).fwdTrigger u i).snapTrigger u i

/-- An armed unit whose instant has been reached. -/
def Box.trigDue (s : Box) (u : Nat) : Bool := s.is (TGT_TRIG_CTRL_ARM u) && decide (s.trigTime u ≤ s.trigTick u)

/-! ### Discontinuities and the apply tick (R259, R267, R280) -/

/-- What a discontinuity does to one unit (R280): an armed unit that a forward step has passed fires once at once.
DEDUCED, log entry 104. -/
def Box.trigStep (s : Box) (u : Nat) : Box :=
  if s.trigDue u then
    (s.put (TGT_TRIG_STATUS_DISCONT u) true).trigRun u (s.now32 0) stepInstant
  else s

/-- A discontinuity of the tents `ts` (R267): DISCONT with TGT cause 0, TIME of every port, the running lists, and the
units `us` where the step was forward. -/
def Box.discontinuity (s : Box) (ts us : List Nat) (forward : Bool) : Box :=
  let s1 := (s.put TGT_SERVO_STATUS_DISCONT true).raiseInt tgtPage 0
  let s2 := s1.envBreakAll ts 1
  let s3 := (s2.listPorts.filter fun p => ts.contains (p / 256)).foldl (fun b p => b.listJump p) s2
  if forward then us.foldl (fun b u => b.trigStep u) s3 else s3

/-- The RATE in force and the words that show it (R259, R287).
DEDUCED, log entry 94. -/
def Box.setRate (s : Box) (r : Int) : Box :=
  let c := clampRate r
  let w := ofSigned 40 c
  let s1 := ({ s with rate := c }.wr TGT_RATE_LO_RATE (w % 2 ^ 32)).wr TGT_RATE_HI_RATE (w / 2 ^ 32)
  if c = r then s1 else s1.put TGT_SERVO_STATUS_RATE_CLAMP true

/-- One change takes effect at its apply tick (R258, R259, R263). -/
def Box.applyOne (s : Box) (a : Apply) : Box :=
  let old : Anchor := ⟨s.fa, s.na, s.rate⟩
  let new := old.change a
  let s1 := { s with fa := new.fa, na := a.at_ }
  let s2 := match a.rate with
    | some r => s1.setRate r
    | none => s1
  let s3 := if a.set.isSome || a.step.isSome then s2.discontinuity (List.range 8) (List.range 32) (decide (old.time a.at_ < new.fa)) else s2
  if a.track then { s3 with servo := { s3.servo with oob := 0, heard := s3.raw, fresh := false } }.servoEnter 3 else s3

/-- Every change whose apply tick has come takes effect, in order. -/
def Box.timeApply (s : Box) : Box :=
  let s1 := { s with applies := s.applies.filter fun a => decide (s.raw < a.at_) }
  (s.applies.filter fun a => decide (a.at_ ≤ s.raw)).foldl (fun b a => b.applyOne a) s1

/-- TIME_APPLY (R259). -/
def execTimeApply (s : State) : Result := s.act fun b => b.timeApply

/-- The changes whose apply tick has come take effect before anything that follows from an instant (R259). -/
def Box.timeDue (s : Box) : Box := if s.applies.any fun a => decide (a.at_ ≤ s.raw) then s.timeApply else s

/-! ### Firing and arming (R277 to R279) -/

/-- What a unit's action acts on: a pin, an engine or a port, and the blocks that name the unit itself where there is none. -/
def Box.trigTarget (s : Box) (u : Nat) : Nat × Nat :=
  match s.rd (TGT_TRIG_CTRL_ACTION u) with
  | 1 => (1, s.rd (TGT_TRIG_CTRL_PIN u))
  | 2 => (2, s.rd (TGT_TRIG_CTRL_TARGET u))
  | 3 => (2, s.rd (TGT_TRIG_CTRL_TARGET u))
  | 4 => (4, s.rd (TGT_TRIG_CTRL_TARGET u))
  | _ => (0, u)

/-- The raw tick at which a unit's instant is reached on its counter, as fabric time now runs (R258, R279). -/
def Box.trigAt (s : Box) (u : Nat) : Int :=
  let off := if s.rd (TGT_TRIG_CTRL_ACTION u) = 4 then s.replOff (s.rd (TGT_TRIG_CTRL_TARGET u) / 256) else 0
  let x := s.anchor (s.raw + off)
  x.na - off - (x.fa - (s.trigTime u : Int) * 2 ^ 48) / (2 ^ 48 + x.rate)

/-- A unit whose instant has been reached fires, its pin edge at TIME + SUB / 32; lower-numbered units that fire at the same tick with
the same target fire before it (R279). -/
def Box.trigFire (s : Box) (u : Nat) : Box :=
  if s.trigDue u then
    ((List.range (u + 1)).filter fun v => s.trigDue v && s.trigTarget v == s.trigTarget u && s.trigAt v == s.trigAt u).foldl
      (fun b v => b.trigRun v (32 * b.trigTime v + b.rd (TGT_TRIG_SUB_SUB v)) nextInstant) s
  else s

/-- A unit whose instant came in an earlier tick has fired by now; in the tick itself a disarm may win (R279).
DEDUCED, log entry 102. -/
def Box.trigOverdue (s : Box) (u : Nat) : Box :=
  let b := s.timeDue
  if b.trigDue u = true ∧ b.trigAt u < b.raw then b.trigFire u else b

/-- TRIGGER_FIRE (R279). -/
def execTriggerFire (u : BitVec 5) (s : State) : Result := s.actRun fun b => b.timeDue.trigFire u.toNat

/-- Arming is refused (R278): a pin of another owner or not in an output mode, no such engine, no port, or no valid
frame. -/
def Box.armRefused (s : Box) (u : Nat) : Bool :=
  let tgt := s.rd (TGT_TRIG_CTRL_TARGET u)
  let pin := s.rd (TGT_TRIG_CTRL_PIN u)
  let mode := s.rd (TGT_PIN_CFG_MODE pin)
  match s.rd (TGT_TRIG_CTRL_ACTION u) with
  | 1 => s.rd (TGT_PIN_CFG_OWNER pin) != s.rd (TGT_TRIG_CTRL_OWNER u) || (mode != 1 && mode != 2)
  | 2 | 3 => decide (15 < tgt)
  | 4 => !s.isPort tgt || !launchValid (s.launchBuf (tgt / 256) (s.rd (TGT_TRIG_CTRL_BUF u)))
  | _ => false

/-- A unit is armed (R278, R279): COUNT restarts, and one armed fewer than 640 tk before its instant fires at once. -/
def Box.trigArm (s : Box) (src : Requester) (u : Nat) : Box :=
  if s.armRefused u then s.accErrAt (TGT_TRIG_CTRL_at u) src
  else
    let s1 := (s.put (TGT_TRIG_CTRL_ARM u) true).wr (TGT_TRIG_COUNT_COUNT u) 0
    if s.trigTime u < s.trigTick u + 640 then ((s1.trigLate u).count tgtPage 2).trigRun u (s.now32 0) nextInstant else s1

/-- A write of a unit's word +0 (R277, R278, R282). One that sets OWNER to 0 with ARM = 1 releases and so disarms.
DEDUCED, log entry 102; DESIGN CHOICE, log entry 180. -/
def Box.trigCtrl (s : Box) (src : Requester) (u v : Nat) : Box :=
  let s := s.trigOverdue u
  let a := TGT_TRIG_CTRL_at u
  let new := natField v 30 2
  let armed := s.is (TGT_TRIG_CTRL_ARM u)
  if new = 3 ∨ 5 ≤ natField v 24 4 then s.rsvWriteAt a src
  else if ownerOk (ownerCode src) (s.rd (TGT_TRIG_CTRL_OWNER u)) new = false then s.accErrAt a src
  else if armed = true ∧ v.testBit 29 = true ∧ new ≠ 0 then s.accErrAt a src
  else
    let s1 := (s.plainWrite src a v).put (TGT_TRIG_CTRL_ARM u) false
    if v.testBit 29 = true ∧ new ≠ 0 then s1.trigArm src u else s1

/-- TRIGGER_ARM (R278). -/
def execTriggerArm (src : Requester) (u : BitVec 5) (value : Word) (s : State) : Result :=
  s.actReg (TGT_TRIG_CTRL_at u.toNat) src fun b => b.trigCtrl src u.toNat (value ||| 0x20000000#32).toNat

/-- TRIGGER_DISARM (R279): word +0 as it stands with ARM = 0. -/
def execTriggerDisarm (src : Requester) (u : BitVec 5) (s : State) : Result :=
  s.actReg (TGT_TRIG_CTRL_at u.toNat) src fun b =>
    b.trigCtrl src u.toNat (b.word (TGT_TRIG_CTRL_at u.toNat) &&& 0xDFFFFFFF#32).toNat

/-- A write of another word of a unit (R277, R282): the owner's alone, words +4 to +20 not while armed, PERIOD not from
1 to 63, WIDTH not 0. -/
def Box.trigWord (s : Box) (src : Requester) (u a v : Nat) : Box :=
  let s := s.trigOverdue u
  let k := a - TGT_TRIG_CTRL_at u
  if s.rd (TGT_TRIG_CTRL_OWNER u) ≠ ownerCode src then s.accErrAt a src
  else if s.is (TGT_TRIG_CTRL_ARM u) = true ∧ k ≤ 20 then s.accErrAt a src
  else if (k = 16 ∧ 1 ≤ v ∧ v ≤ 63) ∨ (k = 20 ∧ v % 65536 = 0) then s.accErrAt a src
  else s.plainWrite src a v

/-! ### Launch buffers (R283) -/

/-- A write of a launch buffer's word: ignored while an armed unit names the buffer. -/
def Box.launchWord (s : Box) (src : Requester) (t i a v : Nat) : Box :=
  let named (u : Nat) : Bool :=
    s.is (TGT_TRIG_CTRL_ARM u) && s.rd (TGT_TRIG_CTRL_ACTION u) == 4 && s.rd (TGT_TRIG_CTRL_TARGET u) / 256 == t
      && s.rd (TGT_TRIG_CTRL_BUF u) == i / 128
  if (List.range 32).any named then s.accErrAt a src else s.plainWrite src a v

/-- LAUNCH_BUFFER_SEND (R283). -/
def execLaunchBufferSend (p : Slot) (sub : BitVec 5) (s : State) : Result :=
  s.actRun fun b => (b.launchStart p.toNat sub.toNat).getD b

/-! ### Time pins (R281, R282) -/

/-- Disarms every unit that drives a pin (R282). -/
def Box.pinDisarm (s : Box) (i : Nat) : Box :=
  (List.range 32).foldl (fun (s : Box) u =>
    let b := s.trigOverdue u
    if b.is (TGT_TRIG_CTRL_ARM u) = true ∧ b.rd (TGT_TRIG_CTRL_ACTION u) = 1 ∧ b.rd (TGT_TRIG_CTRL_PIN u) = i then
      b.put (TGT_TRIG_CTRL_ARM u) false else b) s

/-- A write of TGT_PIN_CFG (R281, R282): a release disarms the pin's units and sets MODE to 0; a change of MODE leaves
the pin inactive; the pin takes the level that MODE and POL give it. -/
def Box.pinCfg (s : Box) (src : Requester) (i v : Nat) : Box :=
  let a := TGT_PIN_CFG_at i
  let new := natField v 30 2
  if new = 3 then s.rsvWriteAt a src
  else if ownerOk (ownerCode src) (s.rd (TGT_PIN_CFG_OWNER i)) new = false then s.accErrAt a src
  else
    let mode := s.rd (TGT_PIN_CFG_MODE i)
    let s1 := s.plainWrite src a v
    let s2 := if new = 0 then (s1.wr (TGT_PIN_CFG_MODE i) 0).pinDisarm i else s1
    let s3 := if s2.rd (TGT_PIN_CFG_MODE i) = mode then s2 else s2.setPin i {}
    if s3.pinLevel i = s.pinLevel i then s3 else s3.pinOut i (s.now32 0)

/-- An active edge on a pin in input capture (R281): its fabric time goes to TGT_PIN_CAP with TGT cause 1; an edge less
than 64 tk after the last captured one is not captured.
DEDUCED, log entry 106. -/
def Box.pinEdge (s : Box) (i : Nat) (rising : Bool) (sub : Nat) : Box :=
  let x := s.timePin i
  let now := s.raw * 32 + sub
  let close := match x.last with
    | some t => decide (now < t + 64 * 32)
    | none => false
  if s.rd (TGT_PIN_CFG_MODE i) ≠ 3 ∨ rising = s.is (TGT_PIN_CFG_POL i) ∨ close = true then s
  else
    let f := s.now32 sub
    let s1 := ((s.wr (TGT_PIN_CAP_LO_T i) (f / 32 % 2 ^ 32)).wr (TGT_PIN_CAP_HI_T i) (f / 2 ^ 37)).wr (TGT_PIN_CAP_SUB_SUB i) (f % 32)
    let s2 := s1.put (TGT_PIN_CAP_SUB_OVW i) x.unread
    (s2.setPin i { x with last := some now, unread := true }).raiseInt tgtPage 1

/-- PIN_CAPTURE (R281). -/
def execPinCapture (pin : Reg3) (rising : Bool) (sub : BitVec 5) (s : State) : Result :=
  s.actRun fun b => b.pinEdge pin.toNat rising sub.toNat

/-- A pulse ends WIDTH ticks after its firing (R281). -/
def Box.pulseEnd (s : Box) (i : Nat) : Box :=
  match (s.timePin i).till with
  | some t => if t / 32 ≤ s.nowTick then (s.setPin i { s.timePin i with active := false, till := none }).pinOut i t else s
  | none => s

/-- PIN_PULSE_END (R281). -/
def execPinPulseEnd (pin : Reg3) (s : State) : Result := s.actRun fun b => b.pulseEnd pin.toNat

/-- OWNER_RELEASE (R282): the configuration word as it stands with OWNER = 0. -/
def execOwnerRelease (src : Requester) (x : Owned) (s : State) : Result :=
  match x with
  | .pin i => s.actReg (TGT_PIN_CFG_at i.val) src fun b =>
      b.pinCfg src i.val (b.word (TGT_PIN_CFG_at i.val) &&& 0x3FFFFFFF#32).toNat
  | .unit u => s.actReg (TGT_TRIG_CTRL_at u.toNat) src fun b =>
      b.trigCtrl src u.toNat (b.word (TGT_TRIG_CTRL_at u.toNat) &&& 0x3FFFFFFF#32).toNat

/-! ### Reading fabric time (R260, R287) -/

/-- A read of TGT_NOW lo latches F and F - raw. -/
def Box.latchNow (s : Box) : Box :=
  let f := s.fabric48 s.raw
  let v := ofSigned 112 f
  let o := ofSigned 112 (f - (s.raw : Int) * 2 ^ 48)
  let s1 := ((s.wr TGT_NOW_LO_F (v / 2 ^ 48)).wr TGT_NOW_HI_F (v / 2 ^ 80)).wr TGT_NOW_FRAC_FRAC (v / 2 ^ 32)
  ((s1.wr TGT_OFFSET_LO_OFF (o / 2 ^ 48)).wr TGT_OFFSET_HI_OFF (o / 2 ^ 80)).wr TGT_OFFSET_FRAC_FRAC (o / 2 ^ 32)

/-- NOW_READ (R260): while the page is not READY the read returns 0 and latches nothing (R453). -/
def execNowRead (src : Requester) (s : State) : Result :=
  s.actHost src fun b =>
    if b.is (PAGE_STATUS_READY tgtPage) then
      let c := b.latchNow
      c.emit (.readData src [c.word TGT_NOW_LO_at])
    else b.emit (.readData src [0])

/-! ### The servo (R262 to R266, R287, R288) -/

/-- A product with 2^e, rounded toward zero. -/
def scaleBy (o e : Int) : Int := if 0 ≤ e then o * 2 ^ e.toNat else o.tdiv (2 ^ (-e).toNat)

/-- LOG_INT. -/
def Box.logInt (s : Box) : Nat := s.rd TGT_SERVO_GAIN_LOG_INT

/-- The values of a list in rising order. -/
def sortInts (l : List Int) : List Int := sortBy (fun a b => decide (a ≤ b)) l

/-- The median of eight: the mean of the 4th and 5th smallest, truncated toward zero. -/
def medianEight (l : List Int) : Int :=
  let o := sortInts l
  (o.getD 3 0 + o.getD 4 0).tdiv 2

/-- The eighth measurement of ACQUIRE requests the one step (R263). -/
def Box.acquire (s : Box) (l : List Int) : Box :=
  let r := (scaleBy (l.getD 7 0 - l.getD 0 0) (43 - (s.logInt : Int))).tdiv 7
  { s with servo := { s.servo with integ := clampRate r } }.request
    { at_ := 0, rate := some r, step := some (medianEight l), track := true }

/-- A measurement in TRACK (R264). -/
def Box.trackOffset (s : Box) (o : Int) : Box :=
  let base : Int := 43 - s.logInt
  if ((32 * s.rd TGT_SERVO_GAIN_OOB : Nat) : Int) < o.natAbs then
    let n := s.servo.oob + 1
    let s1 := s.count tgtPage 0
    if n = 4 then { s1 with servo := { s1.servo with oob := 0 } }.servoEnter 5
    else { s1 with servo := { s1.servo with oob := n } }
  else
    let i := clampRate (s.servo.integ + scaleBy o (base - s.rd TGT_SERVO_GAIN_KI))
    { s with servo := { s.servo with integ := i, oob := 0 } }.requestRate (i + scaleBy o (base - s.rd TGT_SERVO_GAIN_KP))

/-- A valid offset measurement in 1/32 tk drives the servo (R263 to R265).
DEDUCED, log entry 96. -/
def Box.servoMeasure (s : Box) (o : Int) : Box :=
  let small := decide (o.natAbs ≤ 32 * s.rd TGT_SERVO_GAIN_OOB)
  let s1 := { s with servo := { s.servo with fresh := false } }
  match s.servoState with
  | 2 =>
    if 8 ≤ s.servo.offs.length then s1
    else
      let l := s.servo.offs ++ [o]
      let s2 := { s1 with servo := { s1.servo with offs := l } }
      if l.length = 8 then s2.acquire l else s2
  | 3 => if s.servo.fresh = true ∧ small = false then s1.servoEnter 5 else s1.trackOffset o
  | 4 =>
    if small then ({ s1 with servo := { s1.servo with oob := 0 } }.servoEnter 3).trackOffset o else s1.servoEnter 5
  | _ => s

/-- Begins to collect measurements (R263): a step not yet applied is dropped. -/
def Box.servoAcquire (s0 : Box) : Box :=
  let s := s0.timeDue
  { s with servo := { s.servo with offs := [], oob := 0, fresh := false },
           applies := s.applies.filter fun a => !a.track }.servoEnter 2

/-- A command in a state that allows it (R266).
DEDUCED, log entry 95. -/
def Box.servoCmd (s : Box) (cmd : Nat) : Option Box :=
  let st := s.servoState
  match cmd with
  | 1 => if st = 0 then some (if s.is TGT_SERVO_CTRL_ROOT then s.servoEnter 1 else s.servoAcquire) else none
  | 2 => if 2 ≤ st then some s.servoAcquire else none
  | 3 =>
    if st = 1 then
      some (s.request { at_ := 0, set := some (s.rd TGT_SET_HI_SET * 2 ^ 32 + s.rd TGT_SET_LO_SET) })
    else none
  | 4 => if st = 0 then none else some ({ s.timeDue with applies := [] }.servoEnter 0)
  | _ => some s

/-- A write of TGT_SERVO_CTRL (R266, R288). -/
def Box.servoCtrl (s : Box) (src : Requester) (v : Nat) : Box :=
  let cmd := natField v 28 4
  if 5 ≤ cmd then s.rsvWriteAt TGT_SERVO_CTRL_at src
  else
    let old := s.rd TGT_SERVO_CTRL_PARENT
    let s1 := s.plainWrite src TGT_SERVO_CTRL_at v
    let s2 := if s1.rd TGT_SERVO_CTRL_PARENT = old then s1 else { s1 with servo := { s1.servo with fresh := true } }
    match s2.servoCmd cmd with
    | some t => t
    | none => (s2.put TGT_SERVO_STATUS_REFUSED true).raiseInt tgtPage 4

/-- The value of TGT_SERVO_CTRL for a command. -/
def servoWord (cmd : Nat) (root : Bool) (parent : Slot) : Nat := cmd * 2 ^ 28 + b2n root * 2 ^ 15 + parent.toNat

/-- SERVO_START (R266). -/
def execServoStart (src : Requester) (root : Bool) (parent : Slot) (s : State) : Result :=
  s.actReg TGT_SERVO_CTRL_at src fun b => b.servoCtrl src (servoWord 1 root parent)

/-- SERVO_REARM (R266). -/
def execServoRearm (src : Requester) (root : Bool) (parent : Slot) (s : State) : Result :=
  s.actReg TGT_SERVO_CTRL_at src fun b => b.servoCtrl src (servoWord 2 root parent)

/-- SERVO_SETTIME (R266). -/
def execServoSettime (src : Requester) (root : Bool) (parent : Slot) (s : State) : Result :=
  s.actReg TGT_SERVO_CTRL_at src fun b => b.servoCtrl src (servoWord 3 root parent)

/-- SERVO_STOP (R266). -/
def execServoStop (src : Requester) (root : Bool) (parent : Slot) (s : State) : Result :=
  s.actReg TGT_SERVO_CTRL_at src fun b => b.servoCtrl src (servoWord 4 root parent)

/-- A write of TGT_RATE hi requests the rate formed with the lo last written, in FREE and ROOT; in another state it is
ignored (R266, R287). -/
def Box.rateHi (s : Box) (src : Requester) (v : Nat) : Box :=
  if 2 ≤ s.servoState then s.accErrAt TGT_RATE_HI_at src
  else (s.rsvCheck src TGT_RATE_HI_at v).requestRate (toSigned 40 (v % 256 * 2 ^ 32 + s.servo.rateLo))

/-- A write of TGT_RATE lo only holds its value (R287). -/
def Box.rateLo (s : Box) (src : Requester) (v : Nat) : Box :=
  if 2 ≤ s.servoState then s.accErrAt TGT_RATE_LO_at src else { s with servo := { s.servo with rateLo := v } }

/-- RATE_HI_WRITE (R287). -/
def execRateHiWrite (src : Requester) (value : Word) (s : State) : Result :=
  s.actReg TGT_RATE_HI_at src fun b => b.rateHi src value.toNat

/-- A write of TGT_SERVO_GAIN: LOG_INT outside 12 to 20, KI below KP or OOB 0 are refused (R288). -/
def Box.servoGain (s : Box) (src : Requester) (v : Nat) : Box :=
  let l := natField v 27 5
  if l < 12 ∨ 20 < l ∨ natField v 18 5 < natField v 23 4 ∨ natField v 0 16 = 0 then s.accErrAt TGT_SERVO_GAIN_at src
  else s.plainWrite src TGT_SERVO_GAIN_at v

/-- Eight intervals without a valid Sync in TRACK (R265). -/
def Box.syncTimeout (s : Box) : Box :=
  if s.servoState = 3 ∧ s.servo.heard + 8 * 2 ^ s.logInt ≤ s.raw then s.servoHoldover else s

/-- SYNC_TIMEOUT (R265). -/
def execSyncTimeout (s : State) : Result := s.actRun fun b => b.syncTimeout

/-! ### Time messages (R268 to R274) -/

/-- ROLE of a port. -/
def Box.timeRole (s : Box) (p : Nat) : Nat := s.rd (TGT_PORT_TIME_ROLE p)

/-- The partner takes fabric time over VC5 (R274). -/
def Box.partnerTimes (s : Box) (p : Nat) : Bool := (beAt (s.port p).block 34 1).testBit 0

/-- A message is discarded and counted in TGT_PTP_DISC (R269). -/
def Box.ptpDiscard (s : Box) : Box := s.count tgtPage 1

/-- Message types the S9 takes on Itzal ports (R269). -/
def ptpTypes : List Nat := [0, 2, 3, 8, 10]

/-- The length of a message of a type without a TLV. -/
def ptpLen (ty : Nat) : Nat := if ty ∈ [2, 3, 10] then 54 else 44

/-- A message that carries a TLV or is secured, which the S9 supports neither of (R269).
PRESUMED, log entry 98. -/
def ptpOption (m : List Byte) : Bool := decide (ptpLen (ptpType m) < beAt m 2 2) || (beAt m 6 1).testBit 7

/-- The head of a port's time messages, where it is of type `ty`, is taken and given to `f`; a head of an unsupported
type, version or transport, with a TLV or secured, or on a port that takes none, is discarded and counted (R269, R274, R289). -/
def Box.ptpTake (s : Box) (p ty : Nat) (f : List Byte → Nat → Box → Box) : Box :=
  match (s.port p).ptp with
  | [] => s
  | a :: rest =>
    let m := frPayload a.frame
    let gone := s.setPort p { s.port p with ptp := rest }
    let short := decide (m.length < 44)
    if s.timeRole p = 0 ∨ s.partnerTimes p = false ∨ short = true ∨ ptpVersion m ≠ 2 ∨ ptpType m ∉ ptpTypes
        ∨ ptpOption m = true then
      gone.ptpDiscard
    else if ptpType m = ty then f m (stamp32 a.stamp) gone
    else s

/-- The servo takes time messages of this port: PARENT, with ROLE 1, in the fabric domain (R271, R289). -/
def Box.fromParent (s : Box) (p : Nat) (m : List Byte) : Bool :=
  ptpDomain m == s.rd TGT_PTP_CTRL_DOMAIN && s.timeRole p == 1 && s.rd TGT_SERVO_CTRL_PARENT == p

/-- The message belongs to the relayed domain on a ROLE 3 port (R272). -/
def Box.relays (s : Box) (p : Nat) (m : List Byte) : Bool :=
  s.is TGT_PTP_CTRL_RELAY_EN && s.timeRole p == 3 && ptpDomain m == s.rd TGT_PTP_CTRL_RELAY_DOMAIN

/-- The servo takes measurements: ACQUIRE, TRACK or HOLDOVER (R271). -/
def Box.servoTakes (s : Box) : Bool := 2 ≤ s.servoState && s.servoState ≤ 4

/-- A Sync (R264, R270 to R272). -/
def Box.onSync (s : Box) (p : Nat) (m : List Byte) (t2 : Nat) : Box :=
  if ptpTwoStep m = false then s.ptpDiscard
  else if s.relays p m then
    (allSlots.filter fun q => q != p && s.up q && s.timeRole q == 3).foldl (fun (b : Box) q =>
      let x := b.ptp q
      (b.setPtp q { x with relays := x.relays ++ [{ src := p, seq := ptpSeq m, ident := ptpIdent m, rx := t2 }] }).sendPtp q m) s
  else if s.fromParent p m then
    if s.servoTakes then
      { s with servo := { s.servo with heard := s.raw } }.setPtp p
        { s.ptp p with sync := some (ptpSeq m, ptpCorr m, t2) }
    else s
  else s.ptpDiscard

/-- SYNC (R264). -/
def execSync (p : Slot) (s : State) : Result := s.actRun fun b => b.ptpTake p.toNat 0 fun m t c => c.onSync p.toNat m t

/-- A Follow_Up completes its Sync's measurement, o = (t1 + correctionField + D + ASYM) - t2 (R270). -/
def Box.onFollowUp (s : Box) (p : Nat) (m : List Byte) : Box :=
  if s.relays p m then
    let mine (r : Relay) : Bool := r.src == p && r.seq == ptpSeq m && r.ident == ptpIdent m && r.fu.isNone
    let qs := allSlots.filter fun q => (s.ptp q).relays.any mine
    if qs = [] then s.ptpDiscard
    else qs.foldl (fun (b : Box) q =>
      let x := b.ptp q
      (b.setPtp q { x with relays := x.relays.map fun r => if mine r then { r with fu := some m } else r }).relaySettle q) s
  else if s.fromParent p m then
    match (s.ptp p).sync with
    | some (q, c, t2) =>
      if q = ptpSeq m ∧ s.servoTakes = true then
        let asym := toSigned 16 (s.rd (TGT_PORT_ASYM_ASYM p)) * 3200
        let o := (ptpTime m 34 : Int) + c + ptpCorr m + s.pathDelay p + asym - (unitsOf t2 : Nat)
        (s.setPtp p { s.ptp p with sync := none }).servoMeasure (o.tdiv 3200)
      else s.ptpDiscard
    | none => s.ptpDiscard
  else s.ptpDiscard

/-- FOLLOW_UP (R269). -/
def execFollowUp (p : Slot) (s : State) : Result := s.actRun fun b => b.ptpTake p.toNat 8 fun m _ c => c.onFollowUp p.toNat m

/-- A port that measures delay: ROLE 1 or 2 (R270). -/
def Box.measures (s : Box) (p : Nat) (m : List Byte) : Bool :=
  (s.timeRole p == 1 || s.timeRole p == 2) && ptpDomain m == s.rd TGT_PTP_CTRL_DOMAIN

/-- A Pdelay_Req is answered with t2; Pdelay_Resp_Follow_Up with t3 goes out when the answer has left (R270). -/
def Box.onPdReq (s : Box) (p : Nat) (m : List Byte) (t2 : Nat) : Box :=
  if s.measures p m then
    let u := unitsOf t2
    let x := s.ptp p
    (s.setPtp p { x with answer := x.answer ++ [(ptpSeq m, ptpIdent m, ptpCorr m)] }).sendPtp p
      (s.portMsg p 3 0x0200 (-((ptpFrac u : Nat) : Int)) (ptpSeq m) (ptpStamp u ++ ptpIdent m))
  else s.ptpDiscard

/-- PDELAY_REQ (R270). -/
def execPdelayReq (p : Slot) (s : State) : Result :=
  s.actRun fun b => b.ptpTake p.toNat 2 fun m t c => c.onPdReq p.toNat m t

/-- A Pdelay_Resp to the outstanding request gives t2 and t4 (R270).
DEDUCED, log entry 99. -/
def Box.onPdResp (s : Box) (p : Nat) (m : List Byte) (t4 : Nat) : Box :=
  let x := s.ptp p
  match x.req with
  | some (q, some _) =>
    if s.measures p m = true ∧ ptpTwoStep m = true ∧ q = ptpSeq m then
      s.setPtp p { x with resp := some ⟨q, (ptpTime m 34 : Int) - ptpCorr m, t4⟩ }
    else s.ptpDiscard
  | _ => s.ptpDiscard

/-- PDELAY_RESP (R270). -/
def execPdelayResp (p : Slot) (s : State) : Result :=
  s.actRun fun b => b.ptpTake p.toNat 3 fun m t c => c.onPdResp p.toNat m t

/-- The follow-up gives t3: D = ((t4 - t1) - (t3 - t2)) / 2; DELAY is the median of the last eight (R270, R289). -/
def Box.onPdFollow (s : Box) (p : Nat) (m : List Byte) : Box :=
  let x := s.ptp p
  match x.req, x.resp with
  | some (_, some t1), some r =>
    if s.measures p m = true ∧ r.seq = ptpSeq m then
      let d := (((r.t4 : Int) - t1) * 3200 - ((ptpTime m 34 : Int) + ptpCorr m - r.t2)).tdiv 2
      let l := (x.delays ++ [d]).drop (x.delays.length - 7)
      let s1 := s.setPtp p { x with req := none, resp := none, delays := l }
      if l.length = 8 then s1.wr (TGT_PORT_DELAY_DELAY p) ((medianEight l).tdiv 3200).toNat else s1
    else s.ptpDiscard
  | _, _ => s.ptpDiscard

/-- PDELAY_RESP_FOLLOW_UP (R270). -/
def execPdelayRespFollowUp (p : Slot) (s : State) : Result :=
  s.actRun fun b => b.ptpTake p.toNat 10 fun m _ c => c.onPdFollow p.toNat m

/-- Ports that are up in one of the roles. -/
def Box.rolePorts (s : Box) (rs : List Nat) : List Nat := allSlots.filter fun p => s.up p && rs.contains (s.timeRole p)

/-- A Sync leaves on every ROLE 2 port each interval (R271).
DESIGN CHOICE, log entry 101. -/
def Box.syncSend (s : Box) : Box :=
  if s.raw < s.servo.syncAt + 2 ^ s.logInt then s
  else
    let s1 := { s with servo := { s.servo with syncAt := s.raw } }
    (s1.rolePorts [2]).foldl (fun (b : Box) p =>
      let x := b.ptp p
      (b.setPtp p { x with seqS := (x.seqS + 1) % 65536 }).sendPtp p
        (b.portMsg p 0 0x0200 0 x.seqS (List.replicate 10 0))) s1

/-- SYNC_SEND_TIMER (R271). -/
def execSyncSendTimer (s : State) : Result := s.actRun fun b => b.syncSend

/-- A Pdelay_Req leaves on every ROLE 1 or 2 port each eight intervals (R270). -/
def Box.pdelaySend (s : Box) : Box :=
  if s.raw < s.servo.pdAt + 8 * 2 ^ s.logInt then s
  else
    let s1 := { s with servo := { s.servo with pdAt := s.raw } }
    (s1.rolePorts [1, 2]).foldl (fun (b : Box) p =>
      let x := b.ptp p
      (b.setPtp p { x with seqP := (x.seqP + 1) % 65536, req := some (x.seqP, none), resp := none }).sendPtp p
        (b.portMsg p 2 0 0 x.seqP (List.replicate 20 0))) s1

/-- PDELAY_REQ_TIMER (R270). -/
def execPdelayReqTimer (s : State) : Result := s.actRun fun b => b.pdelaySend

/-! ### Management Ethernet (R273) -/

/-- A message on management Ethernet: logMessageInterval is the base-2 logarithm of the interval in seconds, rounded
down, LOG_INT - 30. -/
def Box.ethMsg (s : Box) (ty flags : Nat) (corr : Int) (seq : Nat) (body : List Byte) : List Byte :=
  ptpMsg ty flags (s.rd TGT_PTP_CTRL_DOMAIN) corr 0 seq (ofSigned 8 ((s.logInt : Int) - 30)) body

/-- Announce, Sync and Follow_Up leave each interval while ETH_EN is set (R269, R273). Announce carries the clock's
identity as grandmaster; what it says of clock quality and priority is open. -/
def Box.ethSend (s : Box) : Box :=
  if s.is TGT_PTP_CTRL_ETH_EN = false ∨ s.raw < s.servo.ethAt + 2 ^ s.logInt then s
  else
    let q := s.servo.ethSeq
    let u := unitsOf (s.now32 0)
    let (k, s1) := { s with servo := { s.servo with ethAt := s.raw, ethSeq := (q + 1) % 65536 } }.takeFree
    let quality := bytesBE 8 (Config.freeBits k).toNat
    let ann := List.replicate 13 0 ++ quality.take 6 ++ bytesBE 8 Config.clockId.toNat ++ quality.drop 6 ++ [0]
    ((s1.emit (.ethPtp false (s.ethMsg 11 0x0008 0 q ann))).emit
      (.ethPtp true (s.ethMsg 0 0x0200 0 q (List.replicate 10 0)))).emit
      (.ethPtp false (s.ethMsg 8 0 (ptpFrac u : Nat) q (ptpStamp u)))

/-- ETH_PTP_TIMER (R273). -/
def execEthPtpTimer (s : State) : Result := s.actRun fun b => b.ethSend

/-- A Delay_Req on management Ethernet is answered with Delay_Resp (R269); without ETH_EN the frame is dropped and
counted in MGT_ETH_DISC (14_host_mgmt.md R421), in another domain, with a TLV
or secured in TGT_PTP_DISC. -/
def Box.ethDelay (s : Box) (seq ident : Nat) (corr : Int) (domain : Nat) (option : Bool) (sub : Nat) : Box :=
  if s.is TGT_PTP_CTRL_ETH_EN = false then s.count mgtPage 4
  else if option = true ∨ domain ≠ s.rd TGT_PTP_CTRL_DOMAIN then s.ptpDiscard
  else
    let u := unitsOf (s.now32 sub)
    s.emit (.ethPtp false (s.ethMsg 9 0 (corr - ptpFrac u) seq (ptpStamp u ++ bytesBE 10 ident)))

/-- DELAY_REQ (R269). -/
def execDelayReq (seq : BitVec 16) (ident : BitVec 80) (corr : BitVec 64) (domain : BitVec 8)
    (option : Bool) (sub : BitVec 5) (s : State) : Result :=
  s.actRun fun b => b.ethFrame fun x => x.ethDelay seq.toNat ident.toNat corr.toInt domain.toNat option sub.toNat

/-! ### Replicas (01_architecture.md R18) -/

/-- Trigger units that a tent's replica decides: ACTION 4 on one of its ports (R279). -/
def Box.tentUnits (s : Box) (t : Nat) : List Nat :=
  (List.range 32).filter fun u => s.rd (TGT_TRIG_CTRL_ACTION u) == 4 && s.rd (TGT_TRIG_CTRL_TARGET u) / 256 == t

/-- The comparison once per 640,000,000 tk: a replica that differs by a tick or more is in error, TGT cause 3, and its tent
leaves scheduled operation.
DESIGN CHOICE, log entry 107. -/
def Box.replicaCheck (s : Box) (t : Nat) (diff : Int) : Box :=
  let s1 := { s with repl := mapSet (fun _ => 0) s.repl t diff }.setTent t { s.tent t with checkAt := s.raw }
  if s.raw < (s.tent t).checkAt + 640000000 then s
  else if diff = 0 then s1
  else ((s1.put { TGT_REPLICA_ERR_ERR with lo := t, width := 1 } true).raiseInt tgtPage 3).envBreakAll [t] 1

/-- REPLICA_CHECK (R18). -/
def execReplicaCheck (t : TentIx) (diff : Int) (s : State) : Result := s.actRun fun b => b.replicaCheck t.toNat diff

/-- At the next whole second of the raw counter after the comparison a replica in error is reloaded: a discontinuity of its
tent (R18, R267).
DESIGN CHOICE, log entry 107. -/
def Box.replicaReload (s : Box) (t : Nat) : Box :=
  let d := s.replOff t
  if d = 0 ∨ s.raw / 640000000 ≤ (s.tent t).checkAt / 640000000 then s
  else { s with repl := mapSet (fun _ => 0) s.repl t 0 }.discontinuity [t] (s.tentUnits t) (decide (d < 0))

/-- REPLICA_RELOAD (R18). -/
def execReplicaReload (t : TentIx) (s : State) : Result := s.actRun fun b => b.replicaReload t.toNat

end Sys2Proof.Machine
end

