-- ==== Sys2Proof/Machine/Mmio.lean ====
section
/-!
DEFINITION. Register accesses over BAR0 and table loads over BAR2 (00_scope.md R8 to R11; 14_host_mgmt.md R409 to R411,
R416 to R420, R426; 16_registers.md R450 to R466, R491): each register's own rule for a write, the live views, and the
commands that are writes.
-/

namespace Sys2Proof.Machine

/-! ### Unmapped accesses (R409, R416) -/

/-- An access to a reserved slot, region or table offset: counted, its offset latched, CXL cause 1. -/
def Box.unmapped (s : Box) (addr : Nat) : Box :=
  ((s.count cxlPage 0).wr CXL_UNMAPPED_ADDR_ADDR addr).raiseInt cxlPage 1

/-! ### Interrupt registers and MSI-X (R418, R420) -/

/-- A W1C register of the common header: the clears come first, so that what the write itself sets ends set (R452). -/
def Box.headerWrite (s : Box) (src : Requester) (a v : Nat) : Box :=
  Box.rsvCheck (s.setWord a (BitVec.ofNat 32 (writtenWord (maskAt a) (s.word a).toNat v))) src a v

/-- A write of INT_PEND or INT_EN: the vector's message goes out where its summary stays 1.
DEDUCED, log entry 20. -/
def Box.intWrite (s : Box) (src : Requester) (p : Page) (pend : Bool) (v : Nat) : Box :=
  (s.headerWrite src (pageBase p + (if pend then 16 else 20)) v).resendVector p

/-- A write of INT_FORCE sets causes; it has no effect on a reserved bit (R418, R465).
DEDUCED, log entry 21. -/
def Box.intForce (s : Box) (p : Page) (v : Nat) : Box :=
  (List.range 32).foldl (fun (b : Box) i => if v.testBit i && (pageIntMask p).testBit i then b.raiseInt p i else b) s

/-- A write of PAGE_ERR: OFFSET and SOURCE hold until both indications are clear (R418). -/
def Box.pageErrWrite (s : Box) (src : Requester) (p : Page) (v : Nat) : Box :=
  let a := pageBase p + 12
  let s1 := s.setWord a (BitVec.ofNat 32 (writtenWord (maskAt a) (s.word a).toNat v))
  let s2 := if s1.is (PAGE_ERR_ACCERR p) || s1.is (PAGE_ERR_RSVW p) then s1
    else (s1.wr (PAGE_ERR_OFFSET p) 0).wr (PAGE_ERR_SOURCE p) 0
  s2.rsvCheck src a v

/-- A write into the MSI-X table: a vector unmasked sends the message it owes (R420). -/
def Box.msixWrite (s : Box) (a v : Nat) : Box :=
  let s1 := s.setWord a (BitVec.ofNat 32 (writtenWord (maskAt a) (s.word a).toNat v))
  let k := a % 0x10000 / 16
  if a % 0x10000 < 0x1000 ∧ s1.is (msixMask k) = false ∧ s1.is (msixPba k) = true then
    (s1.put (msixPba k) false).emit (.msix k)
  else s1

/-! ### Registers that tents 1 to 7 copy from tent 0 (R88, R89, R403, R462) -/

/-- The register is written on the tent-0 page, and the other tents' pages show it.
DEDUCED, log entry 23. -/
def tentZero (id : RegId) : Bool :=
  match id with
  | .FWD_CTRL | .FWD_HALL | .FWD_HASH_SEED | .FWD_SELF_ADDR | .FWD_EPOCH_CTRL | .FWD_EPOCH_STATUS | .FWD_NOTICE_CTRL
  | .FWD_NOTICE_STATUS | .BRK_HINT_HOT | .BRK_HINT_COOL | .BRK_HINT_INTERVAL => true
  | _ => false

/-- The tent-0 copy of a register word of a tent. -/
def tentZeroAt (a : Nat) : Nat := 0x1000000 + a % 0x1000000

/-! ### Forwarding, time and optics -/

/-- A write of FWD_CTRL (R70, R88). -/
def Box.fwdCtrl (s : Box) (src : Requester) (a v : Nat) : Box :=
  if natField v 6 2 ≠ 0 then s.rsvWriteAt a src else s.plainWrite src a v

/-- A write of FWD_EPOCH_CTRL (R83, R86, R87, R89). -/
def Box.epochCtrl (s : Box) (src : Requester) (v : Nat) : Box :=
  let a := FWD_EPOCH_CTRL_at 0
  match v % 8 with
  | 0 => s.plainWrite src a v
  | 1 => (s.plainWrite src a v).fwdSwitch src (v.testBit 10) (natField v 11 5)
  | 2 => (s.plainWrite src a v).fwdFlushOld
  | 4 => (s.plainWrite src a v).fwdCopy src
  | _ => s.accErrAt a src

/-- A write of FWD_TBL_CMD on the tent-0 page (R461).
DESIGN CHOICE, log entry 173. -/
def Box.tblCmdWrite (s : Box) (src : Requester) (v : Nat) : Box :=
  (s.rsvCheck src (FWD_TBL_CMD_at 0) v).fwdTblCmd src (natField v 30 2) (natField v 28 1) (natField v 0 14) (v.testBit 29)

/-- A write of FWD_NOTICE_CTRL (R462). -/
def Box.noticeCtrl (s : Box) (src : Requester) (v : Nat) : Box :=
  let s1 := s.plainWrite src (FWD_NOTICE_CTRL_at 0) v
  if v.testBit 31 then s1.noticeGo src (natField v 16 15) (natField v 0 14) else s1

/-- A write of SPT_CTRL (R319, R325). -/
def Box.sptCtrl (s : Box) (src : Requester) (t v : Nat) : Box :=
  let s1 := s.rsvCheck src (SPT_CTRL_at t) v
  let s2 := if v.testBit 0 then s1.engineStart src (2 * t) else s1
  if v.testBit 1 then s2.engineStart src (2 * t + 1) else s2

/-- A write of SPT_XT_CTRL (R296, R297, R326). -/
def Box.xtCtrl (s : Box) (src : Requester) (e v : Nat) : Box :=
  let a := SPT_XT_CTRL_at e
  if s.is (SPT_XT_STATUS_BUSY e) = true ∨ v % 65536 < 60 then s.accErrAt a src
  else
    let old := s.rd (SPT_XT_CTRL_INTERVAL e)
    let s1 := s.plainWrite src a v
    let s2 := if v % 65536 = old then s1 else s1.setEngine e { s1.engine e with calSlot := s1.calSlots e }
    let s3 := if v.testBit 31 then s2.xtCal src e else s2
    if v.testBit 30 then s3.xtCommit src e else s3

/-- A write of a word of the staging matrix (R297, R327): a coefficient outside the columns is ignored. -/
def Box.xtWinWrite (s : Box) (src : Requester) (t i a v : Nat) : Box :=
  let e := 2 * t + i / 1024
  let row := i % 1024 / 5
  let w := i % 1024 % 5
  let ok (d : Nat) : Bool := decide (4 ≤ row + d) && decide (row + d ≤ 163)
  if s.is (SPT_XT_STATUS_BUSY e) then s.accErrAt a src
  else if 800 ≤ i % 1024 then (if v = 0 then s else s.rsvWriteAt a src)
  else
    let s1 := if w = 4 ∧ v % 65536 ≠ 0 then s.rsvWriteAt a src else s
    let hi := if ok (2 * w) then natField v 16 16 else 0
    let lo := if decide (w < 4) && ok (2 * w + 1) then natField v 0 16 else 0
    s1.setWord a (BitVec.ofNat 32 (hi * 65536 + lo))

/-- A write of SPT_LSR_CFG: ignored while the laser's swap is armed or runs (R312, R328). -/
def Box.lsrCfg (s : Box) (src : Requester) (t i a v : Nat) : Box :=
  let g := s.lgroup (2 * t + i / 32) (i / 8 % 4)
  if g.arms.any fun x => x.laser == i % 8 then s.accErrAt a src else s.plainWrite src a v

/-! ### Collectives, Safety Net and the library -/

/-- A write of SNT_POLICY (R199, R214). -/
def Box.policyWrite (s : Box) (src : Requester) (st a v : Nat) : Box :=
  if v % 4 = 3 then s.rsvWriteAt a src
  else if s.strmBusy st then s.accErrAt a src
  else s.plainWrite src a v

/-- A write of a record queue's TAIL releases the records it passes.
DEDUCED, log entry 32. -/
def Box.queueTail (s : Box) (src : Requester) (q : RecQueue) (v : Nat) : Box :=
  let n := (v % q.recs + q.recs - s.rd q.tail) % q.recs
  let held := if n ≤ s.queued q then s.queued q - n else (s.rd q.head + q.recs - v % q.recs) % q.recs
  (s.plainWrite src q.tail.addr v).setQueued q held

/-! ### Barker -/

/-- A write of BRK_CTRL: EN rising seeds the tent's samplers (R392, R403). -/
def Box.brkCtrl (s : Box) (src : Requester) (t v : Nat) : Box :=
  let was := s.is (BRK_CTRL_EN t)
  let s1 := s.plainWrite src (BRK_CTRL_at t) v
  if v.testBit 31 && !was then s1.samplersEnable t else s1

/-- A write of BRK_RING_CFG (R403). -/
def Box.ringCfg (s : Box) (src : Requester) (t v : Nat) : Box :=
  let a := BRK_RING_CFG_at t
  if s.is (BRK_CTRL_EN t) = true ∨ s.planSize t 4 < v % 2048 then s.accErrAt a src else s.plainWrite src a v

/-- A write of a hint register of tent 0 (R400, R403): COOL stays below HOT, INTERVAL at 640 or more. -/
def Box.hintWrite (s : Box) (src : Requester) (id : RegId) (a v : Nat) : Box :=
  let n := v % 2 ^ 19
  let bad := match id with
    | .BRK_HINT_HOT => decide (n ≤ s.rd (BRK_HINT_COOL_COOL 0))
    | .BRK_HINT_COOL => decide (s.rd (BRK_HINT_HOT_HOT 0) ≤ n)
    | _ => decide (v % 2 ^ 24 < 640)
  if bad then s.accErrAt a src else s.plainWrite src a v

/-! ### The host window (R412, R426) -/

/-- A write of CXL_WIN_CFG.
DESIGN CHOICE, log entries 31, 173. -/
def Box.winCfg (s : Box) (src : Requester) (v : Nat) : Box :=
  let n := v % 256
  if s.is CXL_LINK_STATUS_MEM_ACTIVE = true ∨ n = 0 ∨ 238 < n then s.accErrAt CXL_WIN_CFG_at src
  else s.plainWrite src CXL_WIN_CFG_at v

/-- A write of a window map entry.
DEDUCED, log entry 30. -/
def Box.winMap (s : Box) (src : Requester) (k v : Nat) : Box :=
  let a := CXL_WIN_MAP_at k
  let region := natField v 25 3
  let first := natField v 8 8
  let count := natField v 0 8
  let overlap (j : Nat) : Bool :=
    j != k && s.is (CXL_WIN_MAP_VALID j) && decide (first < s.rd (CXL_WIN_MAP_FIRST j) + s.rd (CXL_WIN_MAP_COUNT j))
      && decide (s.rd (CXL_WIN_MAP_FIRST j) < first + count)
  if region ∉ [0, 1, 3, 4] ∨ s.rd CXL_WIN_CFG_UNITS < first + count
      ∨ (v.testBit 31 = true ∧ (List.range 32).any overlap = true) then s.accErrAt a src
  else s.plainWrite src a v

/-! ### One register write -/

/-- A page register's own rule for a write (R10 and the rule of each register). A write that the rule ignores with the access-error
indication and that sets reserved bits sets the indication that its rule names.
DESIGN CHOICE, log entry 173. -/
def Box.regRule (s : Box) (src : Requester) (r : RegAt) (a v : Nat) : Box :=
  let t := r.die
  let i := r.ix
  let p := addrPage a
  let slot := 256 * t + i
  match r.id with
  | .PAGE_ERR => s.pageErrWrite src p v
  | .INT_PEND => s.intWrite src p true v
  | .INT_EN => s.intWrite src p false v
  | .INT_FORCE => s.intForce p v
  | .CNT_CTRL => s.cntCtrl src p v
  | .LNK_FP_MODE => s.fpMode src (64 * t + i) v
  | .LNK_PORT_CTRL => s.portCtrl src slot v
  | .LNK_PARTNER_ID_ADDR => s.onPort src slot a fun b => b.plainWrite src a v
  | .LNK_CREDIT_INIT0 => s.creditWrite src slot 0 v
  | .LNK_CREDIT_INIT1 => s.creditWrite src slot 1 v
  | .LNK_CREDIT_INIT2 => s.creditWrite src slot 2 v
  | .LNK_CREDIT_INIT3 => s.creditWrite src slot 3 v
  | .FWD_CTRL => s.fwdCtrl src a v
  | .FWD_EPOCH_CTRL => s.epochCtrl src v
  | .FWD_TBL_CMD => if t = 0 then s.tblCmdWrite src v else s.accErrAt a src
  | .FWD_NOTICE_CTRL => s.noticeCtrl src v
  | .TRN_PORT_OVH => s.ovhWrite src slot v
  | .USH_CTRL => s.ushCtrl src t v
  | .USH_COLL_CELLS => s.collWrite src t v
  | .USH_PART_CFG => s.partWrite src t i v
  | .USH_SPILL_CTRL => s.spillCtrl src t v
  | .USH_POOL_SMALL | .USH_POOL_MED | .USH_POOL_LARGE => s.poolWrite src t a v
  | .CAR_TBL_CMD => (s.rsvCheck src a v).carTblCmd src (natField v 26 2) (natField v 0 16) (v.testBit 25)
  | .CAR_STREAM_CMD => s.strmCmd src (natField v 28 4) (natField v 16 12) (natField v 0 16)
  | .CAR_STREAM_STATUS => s.reasonWrite src CAR_STREAM_STATUS_REFUSED CAR_STREAM_STATUS_REASON v
  | .CAR_TWIN_CTRL => if 21 ≤ v % 32 then s.rsvWriteAt a src else s.plainWrite src a v
  | .TMB_KLOAD_CMD => (s.rsvCheck src a v).kloadCmd src (natField v 28 4) (natField v 26 2) (natField v 0 8)
  | .TMB_KLOAD_STATUS => s.reasonWrite src TMB_KLOAD_STATUS_REJECTED TMB_KLOAD_STATUS_REASON v
  | .TMB_WIN => if s.is TMB_KLOAD_STATUS_BUSY then s.accErrAt a src else s.plainWrite src a v
  | .TMB_SUBST_CMD =>
    let s1 := s.rsvCheck src a v
    if v.testBit 31 then s1.tmbSubst t (natField v 0 9) else s1
  | .TMB_SUBST_STATUS => s.reasonWrite src (TMB_SUBST_STATUS_REFUSED t) (TMB_SUBST_STATUS_REASON t) v
  | .TGT_SERVO_CTRL => s.servoCtrl src v
  | .TGT_SERVO_GAIN => s.servoGain src v
  | .TGT_RATE_LO => s.rateLo src v
  | .TGT_RATE_HI => s.rateHi src v
  | .TGT_PIN_CFG => s.pinCfg src i v
  | .TGT_TRIG_CTRL => s.trigCtrl src i v
  | .TGT_TRIG_TIME_LO | .TGT_TRIG_TIME_HI | .TGT_TRIG_SUB | .TGT_TRIG_PERIOD | .TGT_TRIG_WIDTH | .TGT_TRIG_STATUS
  | .TGT_TRIG_COUNT => s.trigWord src i a v
  | .TGT_PORT_TIME | .TGT_PORT_ASYM => s.onPort src slot a fun b => b.plainWrite src a v
  | .TGT_LAUNCH_BUF => s.launchWord src t i a v
  | .SPT_CTRL => s.sptCtrl src t v
  | .SPT_HEAT_CTRL => s.heatCtrl src (2 * t + i) v
  | .SPT_MON_CTRL => s.monCtrl src (2 * t + i) v
  | .SPT_XT_CTRL => s.xtCtrl src (2 * t + i) v
  | .SPT_XT_WIN => s.xtWinWrite src t i a v
  | .SPT_LSR_CFG => s.lsrCfg src t i a v
  | .TRP_XCONN => s.xconnWrite src (64 * t + i) v
  | .MEM_CTRL =>
    let s1 := s.rsvCheck src a v
    if v.testBit 0 then s1.memInit src t else s1
  | .MEM_PLAN_CMD =>
    let s1 := s.rsvCheck src a v
    if v.testBit 0 then s1.planCommit src t else s1
  | .MEM_PLAN_STATUS => s.reasonWrite src (MEM_PLAN_STATUS_REJECTED t) (MEM_PLAN_STATUS_REASON t) v
  | .MEM_REGION_SIZE => s.regionSizeWrite src t i a v
  | .SNT_CMD => s.sntCmd src (natField v 28 4) (natField v 16 12) (natField v 0 16)
  | .SNT_STATUS => s.reasonWrite src SNT_STATUS_REFUSED SNT_STATUS_REASON v
  | .SNT_FQ_TAIL => s.queueTail src flushQueue v
  | .SNT_POLICY => s.policyWrite src i a v
  | .BRK_CTRL => s.brkCtrl src t v
  | .BRK_SEED => if v = 0 then s.accErrAt a src else s.plainWrite src a v
  | .BRK_RING_CFG => s.ringCfg src t v
  | .BRK_HINT_HOT | .BRK_HINT_COOL | .BRK_HINT_INTERVAL => s.hintWrite src r.id a v
  | .BRK_SMP_CFG => s.samplerCfg src t i false v
  | .BRK_SMP_FILT => s.samplerCfg src t i true v
  | .BRK_OCC_CFG => s.occCfg src t i false v
  | .BRK_OCC_N => s.occCfg src t i true v
  | .MGT_FAULT_CFG =>
    if natField v 20 12 = 0 ∨ natField v 16 4 = 0 ∨ natField v 8 8 = 0 ∨ natField v 0 8 = 0 then s.accErrAt a src
    else s.plainWrite src a v
  | .MGT_RECOVERY => if src = .driver then s.accErrAt a src else s.plainWrite src a v
  | .MGT_FQ_TAIL => s.queueTail src faultQueue v
  | .MGT_SQ_TAIL => s.queueTail src suspectQueue v
  | .MGT_DUMP_CMD => s.dumpCmd src v
  | .MGT_OOB_CTRL => if src = .driver ∨ src = .firmware then s.plainWrite src a v else s
  | .MGT_SMPQ_TAIL => s.smpqTail src v
  | .CXL_WIN_CFG => s.winCfg src v
  | .CXL_WIN_MAP => s.winMap src i v
  | .SEC_RESET_CMD => s.resetCmd src v
  | .SEC_FWUP_CMD => s.fwupCmd src v
  | .SEC_FUSE_CMD => s.fuseCmd src v
  | .SEC_SEAL_CTRL => if v % 2 ^ 24 < 640000 then s.accErrAt a src else s.plainWrite src a v
  | .SEC_SEAL_TAIL =>
    let s1 := s.plainWrite src a v
    Box.sealDrain (s1.sealQ.length + 1) s1
  | .SEC_WIN => if s.is SEC_FWUP_STATUS_BUSY then s.accErrAt a src else s.plainWrite src a v
  | _ => s.plainWrite src a v

/-! ### Where a BAR0 word lies -/

/-- What a word of BAR0 is (R409, R416, R450): nothing, a CXL register of slots 0xF0 and 0xF1, a word of the MSI-X slot, a
counter word, a word of a gate-list entry or a bucket, a spare map entry, or a register word. -/
inductive Place where
  | nothing
  | cxlBlock
  | msix
  | counter (p i : Nat) (hi : Bool)
  | gate (p b k w : Nat)
  | bucket (p v w : Nat)
  | spare (t i : Nat)
  | reg (a : Nat)
  deriving DecidableEq, Repr

/-- The place of the word at a BAR0 offset; the CAL window shows the slot CAL_WIN_SEL selects (R140). -/
def Box.place (s : Box) (a : Nat) : Place :=
  let p := addrPage a
  let t := p / 256
  let off := a % 0x10000
  let o := off - 0x8000
  if a / 0x10000 = 0xF0 ∨ a / 0x10000 = 0xF1 then .cxlBlock
  else if a / 0x10000 = 0xF2 then .msix
  else if 0x9000000 ≤ a ∨ (pageNcnt p).isNone then .nothing
  else if isCtrOff p off then .counter p (ctrIndex off) (decide (off % 8 = 4))
  else if off < 0x8000 ∨ t = 8 then .reg a
  else if p % 256 = 0x03 then .bucket (256 * t + o / 128) (o % 128 / 16) (o % 16 / 4)
  else if p % 256 = 0x05 then
    let x := 256 * t + s.rd (CAL_WIN_SEL_SLOT t)
    if off < 0xC000 then .gate x (o / 0x2000) (o % 0x2000 / 8) (o % 8 / 4) else .reg (0x20000000 + 0x8000 * x + o)
  else if p % 256 = 0x0C then .spare t (o / 4)
  else .reg a

/-- A write of the register word at a BAR0 offset `a`, seen by its place. -/
def Box.placeWrite (s : Box) (src : Requester) (a : Nat) (pl : Place) (v : Nat) : Box :=
  match pl with
  | .gate p b k w => s.gateWord src a p b k w v
  | .bucket p x w => s.bucketWrite src p x w (BitVec.ofNat 32 v)
  | .spare t i => s.spareWrite src t i a v
  | .reg b =>
    match regAt b with
    | none => if v = 0 then s else s.rsvWriteAt b src
    | some r =>
      if 0x20000000 ≤ b then s.calWrite src r b v
      else if tentZero r.id = true ∧ r.die ≠ 0 then s.rsvCheck src b v
      else s.regRule src r b v
  | _ => s

/-- A word of the CXL component registers or the memory device registers (R416).
DESIGN CHOICE, log entry 25. -/
def Box.cxlWord (s : Box) (a : Nat) : Word := (mapGet (fun _ => none) s.cxlRegs a).getD (Config.cxlWord a)

/-- An aligned 32-bit write of BAR0. -/
def Box.writeWord (s : Box) (src : Requester) (a v : Nat) : Box :=
  match s.place a with
  | .nothing => s.unmapped a
  | .msix => s.msixWrite a v
  | .cxlBlock => { s with cxlRegs := mapSet (fun _ => none) s.cxlRegs a (some (Config.cxlWrite a (s.cxlWord a) (BitVec.ofNat 32 v))) }
  | pl => s.gateWrite a src fun b => b.placeWrite src a pl v

/-- A write of BAR0 by size and alignment (R8): two words, lower first, for an aligned 64-bit write; any other is ignored
with the access-error indication of its page, and without it while the device is fail-stopped (R419). -/
def Box.regWrite (s : Box) (src : Requester) (a size v : Nat) : Box :=
  if size = 4 ∧ a % 4 = 0 then s.writeWord src a (v % 2 ^ 32)
  else if size = 8 ∧ a % 8 = 0 then (s.writeWord src a (v % 2 ^ 32)).writeWord src (a + 4) (v / 2 ^ 32)
  else if s.place a = .nothing then s.unmapped a
  else if (s.phase = .failStopped ∧ frozenWritable (a / 4 * 4) = false) ∨ (pageNcnt (addrPage a)).isNone then s
  else s.accErr (addrPage a) (a % 0x10000) src


/-- CNT_SNAP (R385): on a page without counters, a write of the offset at which CNT_CTRL would stand. -/
def execCntSnap (src : Requester) (page : BitVec 12) (s : State) : Result :=
  let p := page.toNat
  if hasCounters p then s.actReg (pageBase p + 0x1000) src fun b => b.cntCtrl src p (b.cntWith p 2)
  else s.actHost src fun b => b.writeWord src (pageBase p + 0x1000) 2

/-- CNT_CLEAR (R386): on a page without counters, a write of the offset at which CNT_CTRL would stand. -/
def execCntClear (src : Requester) (page : BitVec 12) (s : State) : Result :=
  let p := page.toNat
  if hasCounters p then s.actReg (pageBase p + 0x1000) src fun b => b.cntCtrl src p (b.cntWith p 1)
  else s.actHost src fun b => b.writeWord src (pageBase p + 0x1000) 1

/-- INT_FORCE (R418): on a page that does not exist, a write of an unmapped offset (R416). -/
def execIntForce (src : Requester) (page : BitVec 12) (value : Word) (s : State) : Result :=
  let p := page.toNat
  if (pageNcnt p).isSome then s.actReg (pageBase p + 24) src fun b => b.intForce p value.toNat
  else s.actHost src fun b => b.writeWord src (pageBase p + 24) value.toNat

/-- INT_EN_WRITE (R420): a write of INT_PEND or INT_EN; on a page that does not exist, of an unmapped offset (R416). -/
def execIntEnWrite (src : Requester) (page : BitVec 12) (pend : Bool) (value : Word) (s : State) : Result :=
  let p := page.toNat
  if (pageNcnt p).isSome then
    s.actReg (pageBase p + (if pend then 16 else 20)) src fun b => b.intWrite src p pend value.toNat
  else s.actHost src fun b => b.writeWord src (pageBase p + (if pend then 16 else 20)) value.toNat

/-! ### Reads -/

/-- The bits of a summary word of a die: block codes with a page that `f` marks (R466). -/
def summary (d : Nat) (f : Page → Bool) : Nat :=
  ((List.range 18).map fun k => if (pagesOfDie d).any fun p => p % 32 == k + 1 && f p then 2 ^ (k + 1) else 0).sum

/-- A summary of INT_PEND and INT_EN. -/
def Box.intSum (s : Box) (d : Nat) : Nat :=
  summary d fun p => Nat.land (s.rd (INT_PEND_ALL p)) (s.rd (INT_EN_ALL p)) != 0

/-- A summary of PAGE_ERR. -/
def Box.errSum (s : Box) (d : Nat) : Nat :=
  summary d fun p => s.is (PAGE_ERR_ACCERR p) || s.is (PAGE_ERR_RSVW p) || s.is (PAGE_ERR_OVERRUN p)

/-- A 64-bit pair read under R11: the lo word latches the whole value. -/
def Box.latchPair (s : Box) (p i : Nat) (lo hi : Fld) : Word × Box :=
  let v := BitVec.ofNat 64 (s.rd hi * 2 ^ 32 + s.rd lo)
  (BitVec.ofNat 32 v.toNat, { s with hiLatch := mapSet (fun _ => 0) s.hiLatch (p * 4096 + i) v })

/-- The word of the sample queue's window: the record at TAIL; with the queue empty what it shows is not stated (R394).
DESIGN CHOICE, log entry 34. -/
def Box.smpqWord (s : Box) (i : Nat) : Word × Box :=
  match s.smpq with
  | r :: _ => (BitVec.ofNat 32 (leAt r (4 * i) 4), s)
  | [] => let (k, s1) := s.takeFree; ((Config.freeBits k).truncate 32, s1)

/-- A read of TGT_PIN_CAP lo: the capture is read (R281). -/
def Box.pinRead (s : Box) (i : Nat) : Box :=
  let x : Pin := mapGet (fun _ => {}) s.pins i
  { s with pins := mapSet (fun _ => {}) s.pins i { x with unread := false } }

/-- What a read of a register of a READY page returns, and what it leaves. -/
def Box.regView (s : Box) (r : RegAt) (a : Nat) : Word × Box :=
  let t := r.die
  let i := r.ix
  let live (n : Nat) : Word × Box := (BitVec.ofNat 32 n, s)
  match r.id with
  | .CNT_SNAP_TICK_LO =>
    s.latchPair (addrPage a) 4095 (CNT_SNAP_LO (addrPage a)) (CNT_SNAP_HI (addrPage a))
  | .CNT_SNAP_TICK_HI => (s.hiHalf (addrPage a) 4095, s)
  | .SEC_SEAL_SEQ_LO => s.latchPair secPage 4094 SEC_SEAL_SEQ_LO_SEQ SEC_SEAL_SEQ_HI_SEQ
  | .SEC_SEAL_SEQ_HI => (s.hiHalf secPage 4094, s)
  | .USH_PART_OCC => live (s.partOcc t i)
  | .USH_UNRESERVED => live (s.unreserved t).toNat
  | .CAL_GL_CYCLE_LO => live (s.cycleNow t)
  | .CAL_GL_CYCLE_HI => live (s.cycleNow t / 2 ^ 32)
  | .CAL_SCHED_STATUS => (s.schedStatus t, s)
  | .MDW_WEIGHT => live (s.weight i (s.rd MDW_WSEL_SLOT) (s.rd MDW_WSEL_VC))
  | .CAR_DRAIN_STATUS => live (b2n (s.sx (s.rd CAR_DRAIN_SEL_STREAM)).drained)
  | .TGT_NOW_LO => let s1 := s.latchNow; (s1.word a, s1)
  | .TGT_RATE_LO => live (ofSigned 40 (s.anchor s.raw).rate)
  | .TGT_RATE_HI => live (ofSigned 40 (s.anchor s.raw).rate / 2 ^ 32)
  | .TGT_PIN_CAP_LO => (s.word a, s.pinRead i)
  | .MEM_REGION_BASE => live (s.regionBase t i)
  | .MEM_POOL_FREE => live (s.poolFree t (5 + i))
  | .MGT_INT_SUM => live (s.intSum i)
  | .MGT_ERR_SUM => live (s.errSum i)
  | .MGT_SMPQ_WIN => s.smpqWord i
  | .SEC_SEAL_STATUS =>
    live (s.rd SEC_SEAL_STATUS_DROP * 8 + b2n (!s.sealRoom) * 4 + b2n s.sealLag * 2 + s.rd SEC_SEAL_STATUS_KEY_READY)
  | id => (s.word (if tentZero id then tentZeroAt a else a), s)

/-- A read of the register word at a BAR0 offset, seen by its place. -/
def Box.placeRead (s : Box) (pl : Place) : Word × Box :=
  match pl with
  | .counter p i hi => if hi then (s.ctrHi p i, s) else s.ctrLo p i
  | .gate p b k w => (s.tab (gateAt p b k + 4 * w), s)
  | .bucket p v w => (s.tab (bucketAt p v + 4 * w), s)
  | .spare t i => (s.spareRead t i, s)
  | .reg a =>
    match regAt a with
    | none => (0, s)
    | some r => s.regView r a
  | _ => (0, s)

/-- What a word of a page that is not READY reads as: its reset value (R453), of PWR_STRAPS the sampled straps
(17_electrical_package.md R490). -/
def Box.resetRead (s : Box) (pl : Place) : Word :=
  match pl with
  | .reg a => if a = PWR_STRAPS_at then s.word a else resetWord a
  | _ => 0

/-- An aligned 32-bit read of BAR0.
DEDUCED, log entry 19; DESIGN CHOICE, log entry 25. -/
def Box.readWord (s : Box) (a : Nat) : Word × Box :=
  match s.place a with
  | .nothing => (0, s.unmapped a)
  | .msix => (s.word a, s)
  | .cxlBlock => (s.cxlWord a, s)
  | pl => if s.is (PAGE_STATUS_READY (addrPage a)) = false ∧ 0x100 ≤ a % 0x10000 then (s.resetRead pl, s) else s.placeRead pl

/-- All ones for a read of `size` bytes, in words (R8). -/
def onesRead (size : Nat) : List Word :=
  (List.range (ceilDiv size 4)).map fun i => BitVec.ofNat 32 ((2 ^ (8 * size) - 1) / 2 ^ (32 * i))

/-- A read of BAR0 by size and alignment (R8): all ones, with the access-error indication, for any other access. -/
def Box.regRead (s : Box) (src : Requester) (a size : Nat) : List Word × Box :=
  if size = 4 ∧ a % 4 = 0 then let r := s.readWord a; ([r.1], r.2)
  else if size = 8 ∧ a % 8 = 0 then
    let r := s.readWord a
    let q := r.2.readWord (a + 4)
    ([r.1, q.1], q.2)
  else if s.place a = .nothing then (onesRead size, s.unmapped a)
  else if (pageNcnt (addrPage a)).isNone then (onesRead size, s)
  else (onesRead size, s.accErr (addrPage a) (a % 0x10000) src)

/-- COUNTER_LO_READ (R11): at an address that is no counter's lo word, a register read of it. -/
def execCounterLoRead (src : Requester) (addr : BitVec 28) (s : State) : Result :=
  let p := addrPage addr.toNat
  let off := addr.toNat % 0x10000
  if isCtrOff p off = true ∧ off % 8 = 0 then
    s.actHost src fun b => let r := b.ctrLo p (ctrIndex off); r.2.emit (.readData src [r.1])
  else s.actHost src fun b => let r := b.regRead src addr.toNat 4; r.2.emit (.readData src r.1)

/-- COUNTER_HI_READ (R11): at an address that is no counter's hi word, a register read of it. -/
def execCounterHiRead (src : Requester) (addr : BitVec 28) (s : State) : Result :=
  let p := addrPage addr.toNat
  let off := addr.toNat % 0x10000
  if isCtrOff p off = true ∧ off % 8 = 4 then s.actHost src fun b => b.emit (.readData src [b.ctrHi p (ctrIndex off)])
  else s.actHost src fun b => let r := b.regRead src addr.toNat 4; r.2.emit (.readData src r.1)

/-! ### BAR2 (R409 to R411) -/

/-- The tables that BAR2 maps. -/
inductive Table where
  | fwd (table bank i : Nat)
  | car (table i : Nat)
  | gate (p b k : Nat)
  | bucket (p v : Nat)
  deriving DecidableEq, Repr

/-- The entry that holds a BAR2 word: its table, first offset and words; none for a reserved offset. -/
def bar2Entry (a : Nat) : Option (Table × Nat × Nat) :=
  let b := a / 0x100000
  let o := a % 0x100000
  if a < 0x200000 then
    if o < 0x400 then some (.fwd 0 b (o / 4), a, 1)
    else if 0x10000 ≤ o ∧ o < 0x20000 then some (.fwd 1 b ((o - 0x10000) / 4), a, 1)
    else if 0x20000 ≤ o ∧ o < 0x30000 then some (.fwd 2 b ((o - 0x20000) / 32), a / 32 * 32, 8)
    else none
  else if b = 0x10 then some (.car 0 (o / 64), a / 64 * 64, 16)
  else if b = 0x11 ∧ o < 0x20000 then some (.car 1 (o / 32), a / 32 * 32, 8)
  else if (b = 0x12 ∨ b = 0x13) ∧ a % 512 < 272 then some (.car 2 ((a - 0x1200000) / 512), a / 512 * 512, 68)
  else if b = 0x14 ∧ o < 0x80000 then some (.car 3 (o / 8), a / 8 * 8, 2)
  else if 0x2000000 ≤ a ∧ a < 0x4000000 then
    let g := a - 0x2000000
    some (.gate (g / 0x4000) (g % 0x4000 / 0x2000) (g % 0x2000 / 8), a / 8 * 8, 2)
  else if 0x4000000 ≤ a ∧ a < 0x4040000 then
    some (.bucket ((a - 0x4000000) / 0x80) (a % 0x80 / 16), a / 16 * 16, 4)
  else none

/-- The register word that stands for a table entry in the gates and indications of the register path; a gate-list entry's lies in
the CAL window, a bucket's in that of TRN. -/
def tableReg : Table → Nat
  | .fwd _ _ _ => FWD_TBL_CMD_at 0
  | .car _ _ => CAR_TBL_CMD_at
  | .gate p b k => pageBase (calPage (p / 256)) + 0x8000 + 0x2000 * b + 8 * k
  | .bucket p v => pageBase (trnPage (p / 256)) + 0x8000 + 128 * (p % 256) + 16 * v

/-- A complete forwarding entry passes the checks of R74; its commit shows as BUSY till the next raw tick (R411).
DESIGN CHOICE, log entry 62. -/
def Box.fwdCommit (s : Box) (src : Requester) (table bank i : Nat) (ws : List Word) : Box :=
  let a := FWD_TBL_CMD_at 0
  if s.is (FWD_EPOCH_STATUS_COPY_BUSY 0) then s.accErrAt a src
  else if s.fwdReject table bank ws then
    ((s.put (FWD_TBL_STATUS_REJECTED 0) true).accErrAt a src).raiseInt (fwdPage 0) 4
  else
    let s1 := if fwdReserved table ws then s.rsvWriteAt a src else s
    (s1.setTabEntry (fwdEntryAt table bank i).1 (fwdClean table ws)).put (FWD_TBL_STATUS_BUSY 0) true

/-- A complete entry is committed under the checks of its register path, with its table's BUSY set till the next raw tick
(R410, R411).
DESIGN CHOICE, log entry 62. -/
def Box.tableCommit (s : Box) (src : Requester) (tb : Table) (ws : List Word) : Box :=
  let w (k : Nat) : Word := ws.getD k 0
  s.gateWrite (tableReg tb) src fun b =>
    match tb with
    | .fwd table bank i => b.fwdCommit src table bank i ws
    | .car table i => (b.carEntryWrite src table i ws).put CAR_TBL_STATUS_BUSY true
    | .gate p bk k =>
      let x := b.gateWord src (tableReg tb) p bk k 0 (w 0).toNat
      if b.isPort p = false ∨ b.bankProtected p bk = true then x else x.gateWord src (tableReg tb + 4) p bk k 1 (w 1).toNat
    | .bucket p v =>
      let x := b.bucketWrite src p v 1 (w 1)
      if b.isPort p = false then x
      else ((x.bucketWrite src p v 0 (w 0)).bucketWrite src p v 2 (w 2)).bucketWrite src p v 3 (w 3)

/-- One word of a BAR2 write: it continues the entry in progress, begins one, or is discarded; a write that does not continue the
entry in progress, one of a reserved offset included, discards the words gathered, and what is lost is counted (R410). -/
def Box.bar2Word (s : Box) (src : Requester) (a : Nat) (w : Word) : Box :=
  match bar2Entry a with
  | none => (if s.bar2.isSome then Box.count { s with bar2 := none } cxlPage 2 else s).unmapped (2 ^ 31 + a % 2 ^ 31)
  | some (tb, e, n) =>
    let k := (a - e) / 4
    let take (b : Box) (ws : List Word) : Box :=
      if ws.length = n then Box.tableCommit { b with bar2 := none } src tb ws else { b with bar2 := some (e, ws) }
    match s.bar2 with
    | some (e', ws) =>
      if e' = e ∧ ws.length = k then take s (ws ++ [w])
      else
        let s1 := Box.count { s with bar2 := none } cxlPage 2
        if k = 0 then take s1 [w] else s1
    | none => if k = 0 then take s [w] else s.count cxlPage 2

/-- Consecutive words of BAR2; a fail-stopped device ignores them (R419).
DEDUCED, log entry 27. -/
def Box.bar2Words (s : Box) (src : Requester) (a : Nat) : List Word → Box
  | [] => s
  | w :: ws => Box.bar2Words (if s.phase = .failStopped then s else s.bar2Word src a w) src (a + 4) ws

/-- A BAR2 write that does not start at a word boundary is ignored, with the access-error indication of its table's register
path, or counted where the offset is reserved (R8, R409).
DEDUCED, log entry 27. -/
def Box.bar2Skew (s : Box) (src : Requester) (a : Nat) : Box :=
  match bar2Entry (a / 4 * 4) with
  | none => s.unmapped (2 ^ 31 + a % 2 ^ 31)
  | some (tb, _, _) => if s.phase = .failStopped then s else s.accErrAt (tableReg tb) src

/-- BAR2_WRITE (R410). -/
def execBar2Write (src : Requester) (addr : BitVec 32) (data : List Word) (s : State) : Result :=
  s.actHost src fun b => if addr.toNat % 4 = 0 then b.bar2Words src addr.toNat data else b.bar2Skew src addr.toNat

/-- A read of a BAR2 word returns the committed content; a reserved offset reads 0, and only writes of it are counted (R409,
R410). -/
def Box.bar2Read (s : Box) (a : Nat) : Word × Box :=
  match bar2Entry a with
  | none => (0, s)
  | some _ => (s.tab a, s)

/-- Reads `n` words of BAR2 in rising order. -/
def Box.bar2ReadWords (s : Box) (a n : Nat) : List Word := (List.range n).map fun i => (s.bar2Read (a + 4 * i)).1

/-- A read of BAR2: aligned, of any multiple of 4 bytes (R408); any other returns all ones, with the access-error indication of the
table's register path (R8).
DEDUCED, log entry 27. -/
def Box.bar2Access (s : Box) (src : Requester) (a size : Nat) : List Word × Box :=
  if a % 4 = 0 ∧ size % 4 = 0 ∧ 0 < size then (s.bar2ReadWords a (size / 4), s)
  else (onesRead size, match bar2Entry (a / 4 * 4) with
    | none => s
    | some (tb, _, _) => s.accErrAt (tableReg tb) src)

/-! ### Configuration space (R406 to R408, R412) -/

/-- A word of configuration space after a reset of the function: vendor and Device ID, Revision ID and class code, the BARs, of
which the 64-bit types of BAR0 and BAR2 are set (R406, R408). Where the header holds them is PCI's own layout.
PRESUMED, log entry 172. -/
def cfgReset (a : Nat) : Word :=
  match a with
  | 0x00 => BitVec.ofNat 32 (0x0590 * 65536 + Config.vendorId.toNat)
  | 0x08 => 0x050210B0
  | 0x10 => 4
  | 0x14 => 0
  | 0x18 => 4
  | 0x1C => 0
  | 0x20 => 0
  | 0x24 => 0
  | a => Config.cfgWord a

/-- A word of configuration space. -/
def Box.cfgRead (s : Box) (a : Nat) : Word := (mapGet (fun _ => none) s.cfg a).getD (cfgReset a)

/-- A word of configuration space after a write: the identity is read-only, BAR0 of 256 MiB takes its address bits from 28 up,
BAR2 of 4 GiB those from 32 up, and BAR4 and BAR5 read as 0 (R406, R408).
PRESUMED, log entry 172. -/
def cfgWritten (a : Nat) (old v : Word) : Word :=
  match a with
  | 0x00 => old
  | 0x08 => old
  | 0x10 => (v &&& 0xF0000000) ||| 4
  | 0x14 => v
  | 0x18 => 4
  | 0x1C => v
  | 0x20 => 0
  | 0x24 => 0
  | a => Config.cfgWrite a old v

/-- Bytes `off` to `off + n - 1` of a word replaced by the low bytes of `v`. -/
def cfgMerge (old : Word) (off n v : Nat) : Word :=
  BitVec.ofNat 32 (natLE (listPut (bytesLE 4 old.toNat) off (bytesLE n v)))

/-- A size and place that a configuration access may have: 1, 2 or 4 bytes, aligned. -/
def cfgSize (a size : Nat) : Bool := (size == 1 || size == 2 || size == 4) && a % size == 0

/-- A write of configuration space by the host, which may set Memory_Active (R412). -/
def Box.cfgStore (s : Box) (a size v : Nat) : Box :=
  if cfgSize a size = false then s
  else
    let w := a / 4 * 4
    let x := cfgMerge (s.cfgRead w) (a % 4) size v
    let s1 : Box := { s with cfg := mapSet (fun _ => none) s.cfg w (some (cfgWritten w (s.cfgRead w) x)) }
    match Config.memActive w x with
    | some b => s1.put CXL_LINK_STATUS_MEM_ACTIVE b
    | none => s1

/-- A read of configuration space: all ones where the size or alignment is none that it takes. -/
def Box.cfgAccess (s : Box) (a size : Nat) : List Word :=
  if cfgSize a size then [BitVec.ofNat 32 (leAt (bytesLE 4 (s.cfgRead (a / 4 * 4)).toNat) (a % 4) size)] else onesRead size

/-! ### Accesses by a requester -/

/-- The little-endian words of an access of `size` bytes. -/
def dataWords (size : Nat) (data : BitVec 64) : List Word :=
  (List.range (size / 4)).map fun i => BitVec.ofNat 32 (data.toNat / 2 ^ (32 * i))

/-- A write by space. Only the driver reaches configuration space. -/
def Box.hostWrite (s : Box) (src : Requester) (addr : HostAddr) (size : Nat) (data : BitVec 64) : Box :=
  match addr with
  | .bar0 a => s.regWrite src a.toNat size data.toNat
  | .bar2 a =>
    if a.toNat % 4 = 0 ∧ (size = 4 ∨ size = 8) then s.bar2Words src a.toNat (dataWords size data) else s.bar2Skew src a.toNat
  | .config a => if src = .driver then s.cfgStore a.toNat size data.toNat else s

/-- A read by space. -/
def Box.hostRead (s : Box) (src : Requester) (addr : HostAddr) (size : Nat) : List Word × Box :=
  match addr with
  | .bar0 a => s.regRead src a.toNat size
  | .bar2 a => s.bar2Access src a.toNat size
  | .config a => (if src = .driver then s.cfgAccess a.toNat size else onesRead size, s)

/-- REGISTER_WRITE (R8, R10). -/
def execRegisterWrite (src : Requester) (addr : HostAddr) (size : Nat) (data : BitVec 64) (s : State) : Result :=
  s.actHost src fun b => b.hostWrite src addr size data

/-- REGISTER_READ (R8, R10, R11). -/
def execRegisterRead (src : Requester) (addr : HostAddr) (size : Nat) (s : State) : Result :=
  s.actHost src fun b => let r := b.hostRead src addr size; r.2.emit (.readData src r.1)

end Sys2Proof.Machine
end

