-- ==== Sys2Proof/Machine/Dump.lean ====
section
/-!
DEFINITION. The fatal dump (12_faults.md R379): its sections out of the state of the block, its layout in each tent's region 1,
and its completion.
-/

namespace Sys2Proof.Machine

/-- A section of a dump: its tent, TYPE and content. -/
structure DumpSection where
  tent  : Nat
  ty    : Nat
  bytes : List Byte
  deriving DecidableEq, Repr

/-! ### What the sections hold

The spec lists the sections and leaves their layout to firmware; the model puts them together in the order of their types and in
the layouts below. DESIGN CHOICE, log entry 124. -/

/-- The register pages of a die, 64 KiB each in the order of their slots, as reads return them (14_host_mgmt.md R419). -/
def Box.dumpPages (s : Box) (die : Nat) : List Byte :=
  (pagesOfDie die).flatMap fun p => (List.range 16384).flatMap fun i => bytesLE 4 (s.readWord (pageBase p + 4 * i)).1.toNat

/-- The records that a queue holds, oldest first. -/
def Box.dumpQueue (s : Box) (q : RecQueue) : List Byte :=
  (List.range (s.queued q)).flatMap fun i =>
    let r := (s.rd q.tail + i) % q.recs
    (List.range (q.size / 4)).flatMap fun j => bytesLE 4 (s.word (q.base + q.size * r + 4 * j)).toNat

/-- An open slot of a sliver: sliver, stream, epoch, chunk, the tick at which it opened, its flags and its arrivals. -/
def dumpSlot (sl : Nat) (x : ChunkSlot) : List Byte :=
  bytesLE 2 sl ++ bytesLE 2 x.stream ++ bytesLE 2 x.epoch ++ bytesLE 4 x.chunk ++ bytesLE 8 x.opened
    ++ bytesLE 2 (b2n x.poisoned + 2 * b2n x.stalled + 4 * b2n x.done) ++ bytesLE 4 x.arrived.length
    ++ x.arrived.flatMap fun a => bytesLE 2 a.1 ++ bytesLE 2 a.2

/-- Stream and slot state of a tent: the entries of streams that are in use, then the open slots of its slivers. -/
def Box.dumpStreams (s : Box) (t : Nat) : List Byte :=
  ((s.streams.filter fun e => e.2.held).flatMap fun e =>
      bytesLE 2 e.1 ++ bytesLE 2 e.2.cur ++ (s.tabEntry (carEntryAt 1 e.1) 8).flatMap fun w => bytesLE 4 w.toNat)
    ++ (s.slivers.filter fun e => e.1 % 8 == t).flatMap fun e => e.2.slots.flatMap (dumpSlot e.1)

/-- The collective tables in the layout of the table window (14_host_mgmt.md R409). -/
def Box.dumpTables (s : Box) : List Byte :=
  [(16384, 0, 16), (4096, 1, 8), (4096, 2, 68), (65536, 3, 2)].flatMap fun x =>
    (List.range x.1).flatMap fun i => (s.tabEntry (carEntryAt x.2.1 i) x.2.2).flatMap fun w => bytesLE 4 w.toNat

/-- The sections of the dump; what the cores and the firmware log hold comes from Ringmaster. -/
def Box.dumpSections (s : Box) (core log : List Byte) : List DumpSection :=
  (List.range 8).flatMap fun t =>
    let own : List DumpSection := [⟨t, 1, s.dumpPages t⟩]
    if t = 0 then
      own ++ [⟨0, 2, s.dumpQueue faultQueue⟩, ⟨0, 3, s.dumpQueue suspectQueue⟩, ⟨0, 4, s.dumpStreams 0⟩, ⟨0, 5, core⟩, ⟨0, 6, log⟩,
        ⟨0, 7, s.dumpPages 8⟩, ⟨0, 8, s.dumpTables⟩]
    else own ++ [⟨t, 4, s.dumpStreams t⟩]

/-! ### Layout (R379) -/

/-- The next 64-byte unit. -/
def align64 (n : Nat) : Nat := 64 * ceilDiv n 64

/-- Lays sections out from an offset on, up to 256 MiB and 240 sections: the placed ones, and whether one did not fit.
DESIGN CHOICE, log entry 124. -/
def layDump : List DumpSection → Nat → Nat → List (Nat × DumpSection) × Bool
  | [], _, _ => ([], false)
  | d :: ds, off, n =>
    if 240 ≤ n ∨ 2 ^ 28 < off + d.bytes.length then ([], true)
    else
      let (l, tr) := layDump ds (align64 (off + d.bytes.length)) (n + 1)
      ((off, d) :: l, tr)

/-- The 16-byte entry of a section. -/
def dumpEntry (x : Nat × DumpSection) : List Byte :=
  bytesLE 2 x.2.ty ++ [0, 0] ++ bytesLE 4 (x.1 / 64) ++ bytesLE 4 x.2.bytes.length
    ++ bytesLE 4 (crc32c x.2.bytes).toNat

/-- The 4 KiB header of a tent's dump. -/
def Box.dumpHeader (s : Box) (t : Nat) (l : List (Nat × DumpSection)) (truncated : Bool) : List Byte :=
  let flags := 2 ^ 15 + b2n (s.dump.add != 0) * 2 ^ 14 + b2n truncated * 2 ^ 13
  padTo 4096 0 (padTo 256 0 (bytesLE 4 0x5A444D50 ++ bytesLE 1 1 ++ bytesLE 1 t ++ bytesLE 2 flags ++ bytesLE 4 s.dump.cause
    ++ bytesLE 4 s.dump.add ++ s.serialLE ++ bytesLE 8 (s.dump.seq + 1) ++ bytesLE 8 s.dump.ftick ++ bytesLE 8 s.dump.raw
    ++ bytesLE 8 s.wallNow ++ bytesLE 4 s.image.fwver ++ bytesLE 4 l.length) ++ l.flatMap dumpEntry)

/-- Writes a tent's dump into its region 1, the header last; nothing where the tent has no usable memory. -/
def Box.dumpTent (s : Box) (secs : List DumpSection) (t : Nat) : Box :=
  if s.regionMib t 1 = 0 then s
  else
    let (l, tr) := layDump (secs.filter fun d => d.tent == t) 4096 0
    (l.foldl (fun (b : Box) x => b.memWrite t 1 x.1 x.2.bytes) s).memWrite t 1 0 (s.dumpHeader t l tr)

/-- The dump is complete: DONE, MGT cause 2, ALARM_N, DUMPSEQ. -/
def Box.dumpDone (s : Box) (secs : List DumpSection) : Box :=
  if s.is MGT_DUMP_STATUS_WRITING = true ∧ s.firmware = true then
    let s1 := (List.range 8).foldl (fun (b : Box) t => b.dumpTent secs t) s
    let s2 := ((s1.put MGT_DUMP_STATUS_WRITING false).put MGT_DUMP_STATUS_DONE true).raiseInt mgtPage 2
    { s2 with alarm := true, dump := { s2.dump with seq := s2.dump.seq + 1, held := true } }.pldmNotify
  else s

/-- DUMP_DONE (R379): the operands are what only Ringmaster knows, the state of its cores and the firmware log. -/
def execDumpDone (core log : List Byte) (s : State) : Result := s.act fun b => b.dumpDone (b.dumpSections core log)

end Sys2Proof.Machine
end

