-- ==== Sys2Proof/Machine/Mgmt.lean ====
section
/-!
DEFINITION. The CXL mailbox and DOE, management Ethernet, BMT, I3C, MCTP and PLDM (14_host_mgmt.md R414, R415, R421 to R425),
and SPDM (15_boot_security.md R441 to R444).
-/

namespace Sys2Proof.Machine

/-- An answer leaves on a management path. -/
def Box.answer (s : Box) (r : Reply) : Box := s.emit (.reply r)

/-! ### The CXL memory device mailbox (R414) -/

/-- The commands that the mailbox implements. -/
def mailboxOpcodes : List Nat := [0x0100, 0x0101, 0x0300, 0x0301, 0x0400, 0x0401, 0x4000, 0x4200]

/-- The Command Effects Log: opcode and effect of each command. -/
def effectsLog : List Byte := mailboxOpcodes.flatMap fun c => bytesLE 2 c ++ bytesLE 2 (Config.commandEffect c).toNat

/-- The device physical address range in MiB (R412). -/
def Box.dpaMib (s : Box) : Nat := s.rd CXL_WIN_CFG_UNITS * 256

/-- GET_EVENT_RECORDS (R414). -/
def execGetEventRecords (s : State) : Result := s.actHost .driver fun b => b.answer (.mboxEvents b.cxlLog)

/-- The oldest `n` event records are cleared. -/
def Box.clearEvents (s : Box) (n : Nat) : Box :=
  if n ≤ s.cxlLog.length then Box.answer { s with cxlLog := s.cxlLog.drop n } .mboxDone else s.answer .mboxInvalid

/-- CLEAR_EVENT_RECORDS (R414). -/
def execClearEventRecords (n : Nat) (s : State) : Result := s.actHost .driver fun b => b.clearEvents n

/-- GET_TIMESTAMP (R414). -/
def execGetTimestamp (s : State) : Result := s.actHost .driver fun b => b.answer (.mboxTimestamp b.wallNow)

/-- Wall time is set (00_scope.md R6). -/
def Box.setWall (s : Box) (ns : Nat) : Box := { s with wall := some (ns, s.raw) }

/-- SET_TIMESTAMP (R414). -/
def execSetTimestamp (ns : BitVec 64) (s : State) : Result :=
  s.actHost .driver fun b => (b.setWall ns.toNat).answer .mboxDone

/-- GET_SUPPORTED_LOGS (R414): one log. -/
def execGetSupportedLogs (s : State) : Result :=
  s.actHost .driver fun b => b.answer (.mboxLogs ["Command Effects Log"])

/-- GET_LOG (R414). -/
def execGetLog (offset len : Nat) (s : State) : Result :=
  s.actHost .driver fun b =>
    b.answer (if offset + len ≤ effectsLog.length then .mboxLog ((effectsLog.drop offset).take len) else .mboxInvalid)

/-- IDENTIFY_MEMORY_DEVICE (R414). -/
def execIdentifyMemoryDevice (s : State) : Result :=
  s.actHost .driver fun b => b.answer (.mboxIdentify b.dpaMib b.dpaMib 0)

/-- GET_HEALTH_INFO (R414): Big Top's temperature, life used 0. -/
def execGetHealthInfo (s : State) : Result :=
  s.actHost .driver fun b => b.answer (.mboxHealth (b.dieDegrees 8) 0)

/-- MAILBOX_UNSUPPORTED (R414): every other command; an opcode that is supported has its answer from its own command. -/
def execMailboxUnsupported (opcode : BitVec 16) (s : State) : Result :=
  s.actHost .driver fun b => if opcode.toNat ∈ mailboxOpcodes then b else b.answer .mboxUnsupported

/-! ### DOE (R415) -/

/-- A DOE mailbox takes an object while it is not Busy: it is Busy from the object to its response, which is read at the next raw
tick; an object written while it is Busy is discarded.
DESIGN CHOICE, log entry 176. -/
def Box.doeTake (s : Box) (inst : Nat) (f : Box → Box) : Box :=
  if s.doeBusy.contains inst then s else f { s with doeBusy := inst :: s.doeBusy }

/-- A request object that a DOE mailbox has taken: discovery on both, SPDM on copy 0, Table Access on copy 1. An SPDM request here is
one that no row names. The CDAT marks its range volatile (R414). -/
def Box.doeAnswer (s : Box) (inst : Nat) (r : DoeReq) : Box :=
  match r with
  | .discovery i =>
    if i = 0 then s.answer (.doeProtocol inst 0 1)
    else if i = 1 then s.answer (.doeProtocol inst (if inst = 0 then 1 else 2) 0)
    else s.answer .doeEnd
  | .spdm _ => if inst = 0 ∧ s.firmware = true then s.answer (.spdmError "UnsupportedRequest") else s
  | .table _ => if inst = 1 then s.answer (.doeCdat s.dpaMib true 2000 8 0) else s
  | .tooLarge => s

/-- An object is larger than a mailbox takes. -/
def doeTooLarge : DoeReq → Bool
  | .tooLarge => true
  | .spdm len => decide (4096 < len)
  | _ => false

/-- A request object is written to a DOE mailbox: one beyond 4,096 bytes sets the Error bit and is discarded. -/
def Box.doeRequest (s : Box) (inst : Nat) (r : DoeReq) : Box :=
  s.doeTake inst fun b =>
    if doeTooLarge r then { s with doeError := if s.doeError.contains inst then s.doeError else inst :: s.doeError }
    else b.doeAnswer inst r

/-- DOE_REQUEST (R415). -/
def execDoeRequest (inst : Bool) (req : DoeReq) (s : State) : Result :=
  s.actHost .driver fun b => b.doeRequest (b2n inst) req

/-- DOE_ABORT (R415): the exchange ends, and the Error bit with it. -/
def execDoeAbort (inst : Bool) (s : State) : Result :=
  s.actHost .driver fun b =>
    { b with doeError := b.doeError.filter (· ≠ b2n inst), doeBusy := b.doeBusy.filter (· ≠ b2n inst) }

/-! ### Management Ethernet (R421) -/

/-- A BMT answer: on Ethernet to the requester, on VC6 as a kind 0 frame with OCH 0 to `dst` (R422). -/
def Box.bmtAnswer (s : Box) (path : BmtPath) (dst op seq : Nat) (count : Nat) (data : List Word) : Box :=
  match path with
  | .ethernet => s.answer (.bmt path op count seq data)
  | .vc6 =>
    let (k, s1) := s.takeFree
    s1.vc6Send dst (bmtMessage op count seq (Config.freeBits k).toNat (data.flatMap fun w => bytesBE 4 w.toNat))

/-- A NACK with its reason. -/
def Box.bmtNack (s : Box) (path : BmtPath) (dst seq reason : Nat) : Box :=
  s.bmtAnswer path dst 4 seq 1 [BitVec.ofNat 32 reason]

/-- The services of the lane; every other frame is dropped and counted in MGT_ETH_DISC; a PTP message that the S9 does not
implement counts in TGT_PTP_DISC while the master port is enabled (09_network_time.md R269, R273). -/
def Box.ethService (s : Box) (m : EthMsg) : Box :=
  match m with
  | .arp target sender =>
    if s.ip = some target then
      s.answer (.arp (s.rd MGT_ETH_MAC_HI_MAC * 2 ^ 32 + s.rd MGT_ETH_MAC_LO_MAC) sender.toNat)
    else s
  | .icmpEcho dst src data => if s.ip = some dst then s.answer (.icmpEcho src.toNat data) else s.count mgtPage 4
  | .dhcpOffer a => s.emit (.dhcpRequest a)
  | .dhcpAck a => Box.emit { s with ip := some a } .ntpRequest
  | .ntp ns => s.setWall ns.toNat
  | .ptp => if s.is TGT_PTP_CTRL_ETH_EN then s.count tgtPage 1 else s.count mgtPage 4
  | .bmtBad seq => s.bmtNack .ethernet 0 seq.toNat 1
  | .other => s.count mgtPage 4

/-- ETH_FRAME_RECEIVE (R421): while firmware runs. -/
def execEthFrameReceive (m : EthMsg) (s : State) : Result :=
  s.act fun b => if b.firmware then b.ethFrame fun x => x.ethService m else b

/-! ### BMT (R422, R423) -/

/-- A BMT request as it arrived: where an answer on VC6 goes, and the fields of its header. -/
structure BmtReq where
  dst   : Nat
  ver   : Nat
  op    : Nat
  count : Nat
  seq   : Nat
  space : Nat
  addr  : Nat
  data  : List Word
  deriving DecidableEq, Repr

/-- The request in the payload of a kind 0 frame on VC6. -/
def bmtOf (f : Frame) : BmtReq :=
  let p := frPayload f
  let n := beAt p 2 2
  ⟨frSrc f, beAt p 0 1, beAt p 1 1, n, beAt p 4 4, beAt p 8 1, beAt p 12 4,
   if beAt p 1 1 = 2 then wordsBE ((p.drop 16).take (4 * n)) else []⟩

/-- BMT acts as firmware on its path. -/
def bmtSource : BmtPath → Requester
  | .ethernet => .bmtEth
  | .vc6 => .bmtVc6

/-- The space, address and count of a READ or WRITE are good: BAR0 or BAR2, 1 to 256 words, within the space. -/
def BmtReq.good (r : BmtReq) : Bool :=
  (r.space == 0 || r.space == 2) && decide (1 ≤ r.count ∧ r.count ≤ 256) && r.addr % 4 == 0
    && decide (r.addr + 4 * r.count ≤ if r.space = 0 then 2 ^ 28 else 2 ^ 32)

/-- Reads `n` words of a space in rising address order. -/
def Box.bmtWords (s : Box) (space a : Nat) : Nat → List Word × Box
  | 0 => ([], s)
  | n + 1 =>
    let r := if space = 0 then s.readWord a else s.bar2Read a
    let q := Box.bmtWords r.2 space (a + 4) n
    (r.1 :: q.1, q.2)

/-- Writes words of a space in rising address order, as long as firmware runs.
DEDUCED, log entry 141. -/
def Box.bmtStore (s : Box) (src : Requester) (space a : Nat) : List Word → Box
  | [] => s
  | w :: ws =>
    let s1 :=
      if s.firmware = false then s
      else if space = 0 then s.writeWord src a w.toNat
      else s.bar2Words src a [w]
    Box.bmtStore s1 src space (a + 4) ws

/-- A WRITE touches a register that no BMT WRITE may: MGT_OOB_CTRL (R423) or SEC_FUSE_CMD (15_boot_security.md R438). -/
def BmtReq.barred (r : BmtReq) : Bool :=
  r.space == 0 && (List.range r.count).any fun i => r.addr + 4 * i == MGT_OOB_CTRL_at || r.addr + 4 * i == SEC_FUSE_CMD_at

/-- Writes are enabled on a path (R423). -/
def Box.bmtMayWrite (s : Box) (path : BmtPath) : Bool :=
  match path with
  | .ethernet => s.is MGT_OOB_CTRL_ETH_WR
  | .vc6 => s.is MGT_OOB_CTRL_VC6_WR

/-- A READ is answered by a REPLY with its words. -/
def Box.bmtRead (s : Box) (path : BmtPath) (r : BmtReq) : Box :=
  if r.good = false then s.bmtNack path r.dst r.seq 3
  else
    let q := s.bmtWords r.space r.addr r.count
    q.2.bmtAnswer path r.dst 3 r.seq r.count q.1

/-- A WRITE is applied word by word and answered by a REPLY with COUNT 0. -/
def Box.bmtWrite (s : Box) (path : BmtPath) (r : BmtReq) : Box :=
  if s.bmtMayWrite path = false ∨ r.barred = true then s.bmtNack path r.dst r.seq 2
  else if r.good = false ∨ r.data.length ≠ r.count then s.bmtNack path r.dst r.seq 3
  else
    let s1 := s.bmtStore (bmtSource path) r.space r.addr r.data
    if s1.firmware then s1.bmtAnswer path r.dst 3 r.seq 0 [] else s1

/-- SUBSCRIBE makes the sender the collector. -/
def Box.bmtSubscribe (s : Box) (path : BmtPath) (r : BmtReq) (sender : Nat) : Box :=
  if r.count ≠ 0 then s.bmtNack path r.dst r.seq 3
  else Box.bmtAnswer { s with collector := some (path, BitVec.ofNat 48 sender) } path r.dst 3 r.seq 0 []

/-- A request is counted in its second of the raw counter and served; whether firmware serves one beyond the 10,000 that it
serves at least, or answers it with NACK 4, is open (R422).
DESIGN CHOICE, log entry 140. -/
def Box.bmtRated (s : Box) (path : BmtPath) (r : BmtReq) (f : Box → BmtReq → Box) : Box :=
  let sec := s.raw / 640000000
  let n := if s.bmtSecond.1 = sec then s.bmtSecond.2 else 0
  let s1 : Box := { s with bmtSecond := (sec, n + 1) }
  if n < 10000 then f s1 r
  else
    let (k, s2) := s1.takeFree
    if (Config.freeBits k).getLsbD 0 then s2.bmtNack path r.dst r.seq 4 else f s2 r

/-- A BMT request reaches firmware. Over Ethernet it counts against the lane's rate; over VC6 it is the oldest kind 0 frame
of Ringmaster's inbox, taken where it spells the request of the command (a WRITE whatever its COUNT says of its words), and
answered with NACK 1 where its version or operation is unknown.
DESIGN CHOICE, log entry 140. -/
def Box.bmtServe (s : Box) (path : BmtPath) (want : BmtReq) (f : Box → BmtReq → Box) : Box :=
  if s.firmware = false then s
  else
    match path with
    | .ethernet => s.ethFrame fun x => x.bmtRated path want f
    | .vc6 =>
      match s.inbox.dropWhile fun g => frKind g != 0 with
      | [] => s
      | g :: rest =>
        let r := bmtOf g
        let s1 : Box := { s with inbox := rest }
        if r.ver ≠ 1 ∨ (r.op ≠ 1 ∧ r.op ≠ 2 ∧ r.op ≠ 6) then s1.bmtNack .vc6 r.dst r.seq 1
        else if { r with dst := 0, count := if r.op = 2 then r.data.length else r.count } = want then s1.bmtRated path r f
        else s

/-- BMT_READ (R422). -/
def execBmtRead (path : BmtPath) (seq : Word) (space : BitVec 8) (count : BitVec 16) (addr : Word) (s : State) : Result :=
  s.act fun b =>
    b.bmtServe path ⟨0, 1, 1, count.toNat, seq.toNat, space.toNat, addr.toNat, []⟩ fun x r => x.bmtRead path r

/-- BMT_WRITE (R422, R423). -/
def execBmtWrite (path : BmtPath) (seq : Word) (space : BitVec 8) (addr : Word) (data : List Word) (s : State) : Result :=
  s.act fun b =>
    b.bmtServe path ⟨0, 1, 2, data.length, seq.toNat, space.toNat, addr.toNat, data⟩ fun x r => x.bmtWrite path r

/-- SUBSCRIBE's request, whose SPACE and ADDR mean nothing. -/
def Box.subscribeOf (s : Box) (path : BmtPath) (seq : Nat) : BmtReq :=
  let blank : BmtReq := ⟨0, 1, 6, 0, seq, 0, 0, []⟩
  match path with
  | .ethernet => blank
  | .vc6 =>
    match s.inbox.dropWhile fun g => frKind g != 0 with
    | [] => blank
    | g :: _ => let r := bmtOf g; { blank with count := r.count, space := r.space, addr := r.addr, data := r.data }

/-- BMT_SUBSCRIBE (R422); over VC6 the sender is the frame's SRC. -/
def execBmtSubscribe (path : BmtPath) (seq : Word) (sender : BitVec 48) (s : State) : Result :=
  s.act fun b =>
    b.bmtServe path (b.subscribeOf path seq.toNat) fun x r =>
      x.bmtSubscribe path r (if path = .vc6 then r.dst else sender.toNat)

/-! ### I3C and MCTP (R424) -/

/-- A broadcast CCC: the port takes a dynamic address by its provisional ID where it has none, gives it up with RSTDAA, and
acknowledges any other (R424).
PRESUMED, log entry 177. -/
def Box.i3cCcc (s : Box) (c : I3cCcc) : Box :=
  match c with
  | .entdaa a =>
    if s.i3cAddr.isSome then s else Box.answer { s with i3cAddr := some a } (.i3cPid (Config.provisionalId Config.serial))
  | .rstdaa => Box.answer { s with i3cAddr := none } .i3cAck
  | .other _ => s.answer .i3cAck

/-- I3C_ENTDAA (R424). -/
def execI3cEntdaa (ccc : I3cCcc) (s : State) : Result := s.act fun b => b.i3cCcc ccc

/-- GETSTATUS returns BOOT_STATE in bits [15:8] (15_boot_security.md R433); the low byte is not stated.
DESIGN CHOICE, log entry 144. -/
def Box.i3cStatus (s : Box) : Box :=
  match s.i3cAddr with
  | none => s.answer .i3cNack
  | some _ => let (k, s1) := s.takeFree; s1.answer (.i3cStatus (s.bootState * 256 + (Config.freeBits k).toNat % 256))

/-- I3C_GETSTATUS (15_boot_security.md R433). -/
def execI3cGetstatus (s : State) : Result := s.act Box.i3cStatus

/-- The I3C port takes private transfers: it has a dynamic address and firmware runs (R424). -/
def Box.i3cReady (s : Box) : Bool := s.i3cAddr.isSome && s.firmware

/-- A management command over MCTP: NACKed on I3C until the port takes private transfers (R424). -/
def State.actMctp (s : State) (f : Box → Box) : Result := s.act fun b => if b.i3cReady then f b else b.answer .i3cNack

/-- An MCTP message to this endpoint or to the null endpoint: control messages are answered; of types 1 and 5 the requests
supported have rows of their own, and any other SPDM request is unsupported (15_boot_security.md R441); any other type is discarded
and counted in MGT_MCTP_DISC (R424). -/
def Box.mctp (s : Box) (ty eid : Nat) (setEid : Option Nat) : Box :=
  if eid ≠ 0 ∧ eid ≠ s.eid then s
  else if ty = 0 then
    match setEid with
    | some e => if e = 0 ∨ e = 255 then s.answer .mctpError else Box.answer { s with eid := e } (.mctpEid e)
    | none => (s.answer (.mctpEid s.eid)).answer (.mctpTypes [0, 1, 5])
  else if ty = 5 then s.answer (.spdmError "UnsupportedRequest")
  else if ty = 1 then s
  else s.count mgtPage 5

/-- MCTP_CONTROL (R424). -/
def execMctpControl (ty : BitVec 7) (eid : BitVec 8) (setEid : Option (BitVec 8)) (s : State) : Result :=
  s.actMctp fun b => b.mctp ty.toNat eid.toNat (setEid.map BitVec.toNat)

/-! ### PLDM types 0 and 2 (R425) -/

/-- The PLDM types of the S9. -/
def pldmTypes : List Nat := [0, 2, 5]

/-- GET_TID (R425). -/
def execGetTid (s : State) : Result := s.actMctp fun b => b.answer (.pldmTid Config.tid.toNat)

/-- GET_PLDM_VERSION (R425). -/
def execGetPldmVersion (ty : BitVec 8) (s : State) : Result :=
  s.actMctp fun b => b.answer (if ty.toNat ∈ pldmTypes then .pldmVersion ty.toNat else .pldmInvalid)

/-- GET_PLDM_TYPES (R425). -/
def execGetPldmTypes (s : State) : Result := s.actMctp fun b => b.answer (.pldmTypes pldmTypes)

/-- GET_PLDM_COMMANDS (R425). -/
def execGetPldmCommands (ty : BitVec 8) (s : State) : Result :=
  s.actMctp fun b => b.answer (if ty.toNat ∈ pldmTypes then .pldmCommands ty.toNat else .pldmInvalid)

/-- The sensors of PLDM type 2 read the registers of the PWR page (17_electrical_package.md R490), and the memory devices' temperatures
as last read. -/
def Box.pldmSensor (s : Box) (x : PldmSensor) : Box :=
  match x with
  | .junction d => s.answer (.pldmSensor (toSigned 16 (s.rd (PWR_TJ_TJ d.toNat))))
  | .packagePower => s.answer (.pldmSensor (s.rd PWR_PKG_W))
  | .coreRail => s.answer (.pldmSensor (s.rd (PWR_RAIL_MV 0)))
  | .memTemp d => s.answer (.pldmSensor (toSigned 16 (s.memTemps.getD d.toNat 0)))
  | .deviceState => s.answer (.pldmState s.deviceState)

/-- PLDM_SENSOR_READ (R425). -/
def execPldmSensorRead (sensor : PldmSensor) (s : State) : Result :=
  s.actMctp fun b => b.pldmSensor sensor

/-! ### SPDM (15_boot_security.md R441 to R444) -/

/-- The connection of a transport. -/
def Box.spdm (s : Box) : SpdmVia → Spdm
  | .doe => s.spdmDoe
  | .mctp _ => s.spdmMctp

/-- The connection of a transport replaced. -/
def Box.setSpdm (s : Box) (via : SpdmVia) (c : Spdm) : Box :=
  match via with
  | .doe => { s with spdmDoe := c }
  | .mctp _ => { s with spdmMctp := c }

/-- The requester's endpoint ID, 0 on DOE. -/
def viaEid : SpdmVia → Nat
  | .doe => 0
  | .mctp e => e.toNat

/-- An SPDM request reaches firmware: over DOE as an object of instance 0, which the driver writes while it is not Busy and which
goes unanswered while firmware does not run; over MCTP as a private transfer (R415, R424). -/
def Box.spdmTake (s : Box) (via : SpdmVia) (f : Box → Box) : Box :=
  match via with
  | .doe => if s.reaches .driver then s.doeTake 0 fun b => if b.firmware then f b else b else s
  | .mctp _ => if s.i3cReady then f s else s.answer .i3cNack

/-- The same as a command. -/
def State.actSpdm (s : State) (via : SpdmVia) (f : Box → Box) : Result := s.act fun b => b.spdmTake via f

/-- A request after GET_VERSION: from another endpoint RequestResynch (R444), out of its phase UnexpectedRequest.
PRESUMED, log entry 142; DEDUCED, log entry 143. -/
def Box.spdmIn (s : Box) (via : SpdmVia) (phase : Nat) (f : Box → Box) : Box :=
  let c := s.spdm via
  if c.eid ≠ (viaEid via) then s.answer (.spdmError "RequestResynch")
  else if c.phase ≠ phase then s.answer (.spdmError "UnexpectedRequest")
  else f s

/-- GET_VERSION (R444) restarts the connection of its transport. -/
def execGetVersion (via : SpdmVia) (s : State) : Result :=
  s.actSpdm via fun b => (b.setSpdm via ⟨1, (viaEid via)⟩).answer (.spdmVersions [0x11, 0x12])

/-- GET_CAPABILITIES (R441): CERT_CAP, CHAL_CAP, MEAS_CAP 2, CTExponent 16. -/
def execGetCapabilities (via : SpdmVia) (s : State) : Result :=
  s.actSpdm via fun b => b.spdmIn via 1 fun x => (x.setSpdm via ⟨2, (viaEid via)⟩).answer (.spdmCapabilities true true 2 16)

/-- The algorithms of R441. -/
def spdmAlgs : Reply := .spdmAlgorithms "TPM_ALG_ECDSA_ECC_NIST_P384" "SHA-384" "SHA-384" "DMTF"

/-- NEGOTIATE_ALGORITHMS (R441). -/
def execNegotiateAlgorithms (via : SpdmVia) (s : State) : Result :=
  s.actSpdm via fun b => b.spdmIn via 2 fun x => (x.setSpdm via ⟨3, (viaEid via)⟩).answer spdmAlgs

/-- The DeviceID certificate, in the identity sector of chip select 0 (R434, R439). -/
def Box.deviceCert (s : Box) : List Byte := s.flashRead 0 (identityAt + Config.deviceCertAt.1) Config.deviceCertAt.2

/-- The chain in slot 0: root, manufacturing CA, DeviceID certificate, alias certificate (R441). -/
def Box.certSlot (s : Box) : List Byte := Config.caCerts ++ s.deviceCert ++ s.aliasCert

/-- GET_DIGESTS (R441). -/
def execGetDigests (via : SpdmVia) (s : State) : Result :=
  s.actSpdm via fun b => b.spdmIn via 3 fun x => x.answer (.spdmDigests (sha384 x.certSlot))

/-- A part of the chain and the bytes that remain after it. -/
def Box.spdmCert (s : Box) (offset len : Nat) : Box :=
  let c := s.certSlot
  if c.length < offset then s.answer (.spdmError "InvalidRequest")
  else
    let part := (c.drop offset).take len
    s.answer (.spdmCertificate part (c.length - offset - part.length))

/-- GET_CERTIFICATE (R441). -/
def execGetCertificate (via : SpdmVia) (offset len : Nat) (s : State) : Result :=
  s.actSpdm via fun b => b.spdmIn via 3 fun x => x.spdmCert offset len

/-- Signatures of the last second of raw ticks (R443). -/
def Box.recentSigs (s : Box) : List Nat := s.spdmSigs.filter fun t => decide (s.raw < t + 640000000)

/-- A signed response, up to 100 a second; beyond them ERROR Busy (R443). The seal engine signs with the alias key the digest of the
exchange, which is not in the State: that digest is a free value. -/
def Box.spdmSigned (s : Box) (f : Box → List Byte → Box) : Box :=
  if 100 ≤ s.recentSigs.length then s.answer (.spdmError "Busy")
  else
    let (digest, s1) := s.freeBytes 6
    f { s1 with spdmSigs := s.raw :: s.recentSigs } (ecdsaSign s.aliasKey digest)

/-- Index 4: slot, GEN, TRIES, CONFIRM and REVOKE of the slot that runs. -/
def Box.measRaw (s : Box) : List Byte :=
  let r := s.bootRec s.image.slot
  bytesBE 1 s.image.slot ++ bytesAt r 4 4 ++ bytesAt r 12 3

/-- The digest of the kernel library: the 256 kernel digests in slot order, zeros for an empty slot. -/
def Box.measKernels (s : Box) : List Byte :=
  sha384 ((List.range 256).flatMap fun i =>
    let b := mapGet (fun _ => []) s.kernels i
    if b = [] then List.replicate 48 0 else sha384 b)

/-- A measurement by index (R442). -/
def Box.measurement (s : Box) (i : Nat) : List Byte :=
  match i with
  | 1 => bytesBE 48 Config.romDigest.toNat
  | 2 => s.image.meas
  | 3 => sha384 (bytesBE 1 s.minSvn ++ bytesBE 1 (b2n s.fuses.ownerMode) ++ bytesBE 48 s.fuses.owner.toNat
      ++ bytesBE 1 (b2n Config.debugLocked) ++ bytesBE 1 (s.rd SEC_FUSE_STATUS_STEPPING))
  | 4 => s.measRaw
  | 5 => bytesBE 48 Config.bootConfig.toNat
  | 6 => s.measKernels
  | _ => sha384 (bytesBE 8 (s.sealSeqNow - 1) ++ s.lastSealHash)

/-- The DMTF type of an index (R442). -/
def measType : Nat → MeasType
  | 1 => .immutableRom
  | 2 => .mutableFirmware
  | 3 => .hardwareConfig
  | 4 => .firmwareConfig
  | 5 => .firmwareConfig
  | 6 => .mutableFirmware
  | _ => .freshnessFree

/-- A measurement as it is reported: index 4 as a raw bit stream, the others as digests (R442). -/
def Box.meas (s : Box) (i : Nat) : Meas := ⟨i, measType i, i == 4, s.measurement i⟩

/-- Every measurement, by index. -/
def Box.allMeasurements (s : Box) : List Meas := (List.range 7).map fun i => s.meas (i + 1)

/-- CHALLENGE (R441, R443): the chain's digest and the digest of the measurements. -/
def execChallenge (via : SpdmVia) (nonce : BitVec 256) (s : State) : Result :=
  s.actSpdm via fun b =>
    b.spdmIn via 3 fun x => x.spdmSigned fun y sig =>
      y.answer (.spdmChallenge (sha384 y.certSlot) (sha384 (y.allMeasurements.flatMap Meas.value)) nonce sig)

/-- The measurements that an index asks for: 0 asks only for their number, 255 for all of them. -/
def Box.measurementsAt (s : Box) (i : Nat) : Option (List Meas) :=
  if i = 0 then some []
  else if i ≤ 7 then some [s.meas i]
  else if i = 255 then some s.allMeasurements
  else none

/-- Signed measurements of an index (R442). -/
def Box.spdmMeasure (s : Box) (i : Nat) (nonce : BitVec 256) : Box :=
  match s.measurementsAt i with
  | none => s.answer (.spdmError "InvalidRequest")
  | some l => s.spdmSigned fun y sig => y.answer (.spdmMeasurements 7 l nonce sig)

/-- GET_MEASUREMENTS (R442). -/
def execGetMeasurements (via : SpdmVia) (index : BitVec 8) (nonce : BitVec 256) (s : State) : Result :=
  s.actSpdm via fun b => b.spdmIn via 3 fun x => x.spdmMeasure index.toNat nonce

end Sys2Proof.Machine
end

