-- ==== Sys2Proof/Machine/Dispatch.lean ====
section
/-!
DEFINITION. One arm per command: its meaning (16_registers.md R463; spec/opcode_table.json).
-/

namespace Sys2Proof.Machine

open Sys2Proof

/-- The effect of a command on everything but the queue. -/
def exec (i : Instr) (s : State) : Host.Outcome State Fault Refusal :=
  match i with
  | .registerWrite src addr size data => Sys2Proof.Machine.execRegisterWrite src addr size data s
  | .counterLoRead src addr => Sys2Proof.Machine.execCounterLoRead src addr s
  | .counterHiRead src addr => Sys2Proof.Machine.execCounterHiRead src addr s
  | .ucieModuleFail t => Sys2Proof.Machine.execUcieModuleFail t s
  | .replicaCheck t diff => Sys2Proof.Machine.execReplicaCheck t diff s
  | .replicaReload t => Sys2Proof.Machine.execReplicaReload t s
  | .envExcursionStart mv die tj => Sys2Proof.Machine.execEnvExcursionStart mv die tj s
  | .envExcursionEnd mv die tj => Sys2Proof.Machine.execEnvExcursionEnd mv die tj s
  | .flitReceive p rx => Sys2Proof.Machine.execFlitReceive p rx s
  | .laneMarkerReceive p m => Sys2Proof.Machine.execLaneMarkerReceive p m s
  | .retryReq p seq => Sys2Proof.Machine.execRetryReq p seq s
  | .retryReqRepeat p => Sys2Proof.Machine.execRetryReqRepeat p s
  | .laneMapReq p force map t => Sys2Proof.Machine.execLaneMapReq p force map t s
  | .laneMapAck p t => Sys2Proof.Machine.execLaneMapAck p t s
  | .laneMapNak p reason t => Sys2Proof.Machine.execLaneMapNak p reason t s
  | .laneMapSwitch p dir => Sys2Proof.Machine.execLaneMapSwitch p dir s
  | .laneMapCancel p => Sys2Proof.Machine.execLaneMapCancel p s
  | .laneAdopt p lane wl => Sys2Proof.Machine.execLaneAdopt p lane wl s
  | .laneFail p lane => Sys2Proof.Machine.execLaneFail p lane s
  | .laneFecLoss p lane othersLocked => Sys2Proof.Machine.execLaneFecLoss p lane othersLocked s
  | .pause p len => Sys2Proof.Machine.execPause p len s
  | .resume p => Sys2Proof.Machine.execResume p s
  | .pauseTimeout p => Sys2Proof.Machine.execPauseTimeout p s
  | .linkSilenceTimeout p => Sys2Proof.Machine.execLinkSilenceTimeout p s
  | .portUp p trips up => Sys2Proof.Machine.execPortUp p trips up s
  | .trainingRetry p => Sys2Proof.Machine.execTrainingRetry p s
  | .fpModeWrite src f value => Sys2Proof.Machine.execFpModeWrite src f value s
  | .portEnable src p value => Sys2Proof.Machine.execPortEnable src p value s
  | .portDisable src p value => Sys2Proof.Machine.execPortDisable src p value s
  | .reserveReturn p => Sys2Proof.Machine.execReserveReturn p s
  | .ingressHeaderStage p entry => Sys2Proof.Machine.execIngressHeaderStage p entry s
  | .fenceRelease p => Sys2Proof.Machine.execFenceRelease p s
  | .backlogReport p => Sys2Proof.Machine.execBacklogReport p s
  | .midwayGrant p v reads => Sys2Proof.Machine.execMidwayGrant p v reads s
  | .midwayTransfer p v bad retries reads => Sys2Proof.Machine.execMidwayTransfer p v bad retries reads s
  | .flitSlot p sub => Sys2Proof.Machine.execFlitSlot p sub s
  | .trnBucketWrite src p v w value => Sys2Proof.Machine.execTrnBucketWrite src p v w value s
  | .spillBlockTimer t q reads => Sys2Proof.Machine.execSpillBlockTimer t q reads s
  | .spillRecall t q => Sys2Proof.Machine.execSpillRecall t q s
  | .spillRecallDone t q bad => Sys2Proof.Machine.execSpillRecallDone t q bad s
  | .ushAudit src t => Sys2Proof.Machine.execUshAudit src t s
  | .ushAuditDone t => Sys2Proof.Machine.execUshAuditDone t s
  | .gateEntryStart p => Sys2Proof.Machine.execGateEntryStart p s
  | .glCommit src p => Sys2Proof.Machine.execGlCommit src p s
  | .glCancel src p => Sys2Proof.Machine.execGlCancel src p s
  | .glStop src p => Sys2Proof.Machine.execGlStop src p s
  | .glSwitch p => Sys2Proof.Machine.execGlSwitch p s
  | .bypassStart p => Sys2Proof.Machine.execBypassStart p s
  | .bypassRestore p => Sys2Proof.Machine.execBypassRestore p s
  | .bypassEnd p => Sys2Proof.Machine.execBypassEnd p s
  | .bypassRealignTimeout p => Sys2Proof.Machine.execBypassRealignTimeout p s
  | .fwdTblWrite src table bank index => Sys2Proof.Machine.execFwdTblWrite src table bank index s
  | .fwdTblRead src table bank index => Sys2Proof.Machine.execFwdTblRead src table bank index s
  | .fwdTblDone => Sys2Proof.Machine.execFwdTblDone s
  | .fwdSwitch src atTrig trig => Sys2Proof.Machine.execFwdSwitch src atTrig trig s
  | .fwdBankSwitch t => Sys2Proof.Machine.execFwdBankSwitch t s
  | .fwdFlushOld src => Sys2Proof.Machine.execFwdFlushOld src s
  | .fwdCopy src => Sys2Proof.Machine.execFwdCopy src s
  | .fwdCopyDone => Sys2Proof.Machine.execFwdCopyDone s
  | .fwdDrained => Sys2Proof.Machine.execFwdDrained s
  | .fwdNoticeGo src count first => Sys2Proof.Machine.execFwdNoticeGo src count first s
  | .carTblWrite src table index => Sys2Proof.Machine.execCarTblWrite src table index s
  | .carTblRead src table index => Sys2Proof.Machine.execCarTblRead src table index s
  | .streamReserve src st => Sys2Proof.Machine.execStreamReserve src st s
  | .streamReserveDone st => Sys2Proof.Machine.execStreamReserveDone st s
  | .streamActivate src st e => Sys2Proof.Machine.execStreamActivate src st e s
  | .streamDrain src st => Sys2Proof.Machine.execStreamDrain src st s
  | .streamAbort src st e => Sys2Proof.Machine.execStreamAbort src st e s
  | .streamAbortDone st => Sys2Proof.Machine.execStreamAbortDone st s
  | .streamRelease src st => Sys2Proof.Machine.execStreamRelease src st s
  | .streamFreed st => Sys2Proof.Machine.execStreamFreed st s
  | .contributionSteer p => Sys2Proof.Machine.execContributionSteer p s
  | .sliverTakePart sl upset => Sys2Proof.Machine.execSliverTakePart sl upset s
  | .resultRelease sl => Sys2Proof.Machine.execResultRelease sl s
  | .slotStall st e c => Sys2Proof.Machine.execSlotStall st e c s
  | .drainMarkSet p st => Sys2Proof.Machine.execDrainMarkSet p st s
  | .sntReplay src st e => Sys2Proof.Machine.execSntReplay src st e s
  | .sntRetract src st e => Sys2Proof.Machine.execSntRetract src st e s
  | .retractRecomputeDone st faulty => Sys2Proof.Machine.execRetractRecomputeDone st faulty s
  | .sealRecordWrite st => Sys2Proof.Machine.execSealRecordWrite st s
  | .sealSignTimer => Sys2Proof.Machine.execSealSignTimer s
  | .twinComplete st e c faulty => Sys2Proof.Machine.execTwinComplete st e c faulty s
  | .thirdComputeDone st e c faulty => Sys2Proof.Machine.execThirdComputeDone st e c faulty s
  | .watchExpire sl => Sys2Proof.Machine.execWatchExpire sl s
  | .kloadStage src piece => Sys2Proof.Machine.execKloadStage src piece s
  | .kloadVerify src slot => Sys2Proof.Machine.execKloadVerify src slot s
  | .kloadVerifyDone => Sys2Proof.Machine.execKloadVerifyDone s
  | .kloadUnload src slot => Sys2Proof.Machine.execKloadUnload src slot s
  | .kloadInfo src slot => Sys2Proof.Machine.execKloadInfo src slot s
  | .tmbSubst src t l => Sys2Proof.Machine.execTmbSubst src t l s
  | .substTake sl => Sys2Proof.Machine.execSubstTake sl s
  | .salu sl d a b func => Sys2Proof.Machine.execSalu sl d a b func s
  | .addi sl d a imm => Sys2Proof.Machine.execAddi sl d a imm s
  | .andi sl d a imm => Sys2Proof.Machine.execAndi sl d a imm s
  | .ori sl d a imm => Sys2Proof.Machine.execOri sl d a imm s
  | .xori sl d a imm => Sys2Proof.Machine.execXori sl d a imm s
  | .lui sl d a imm => Sys2Proof.Machine.execLui sl d a imm s
  | .shifti sl d a imm => Sys2Proof.Machine.execShifti sl d a imm s
  | .sfpu sl d a b func => Sys2Proof.Machine.execSfpu sl d a b func s
  | .ffma sl d a b c => Sys2Proof.Machine.execFfma sl d a b c s
  | .ldw sl t base off => Sys2Proof.Machine.execLdw sl t base off s
  | .ldh sl t base off => Sys2Proof.Machine.execLdh sl t base off s
  | .ldhu sl t base off => Sys2Proof.Machine.execLdhu sl t base off s
  | .ldb sl t base off => Sys2Proof.Machine.execLdb sl t base off s
  | .ldbu sl t base off => Sys2Proof.Machine.execLdbu sl t base off s
  | .stw sl t base off => Sys2Proof.Machine.execStw sl t base off s
  | .sth sl t base off => Sys2Proof.Machine.execSth sl t base off s
  | .stb sl t base off => Sys2Proof.Machine.execStb sl t base off s
  | .vld sl t base pg off => Sys2Proof.Machine.execVld sl t base pg off s
  | .vst sl t base pg off => Sys2Proof.Machine.execVst sl t base pg off s
  | .beq sl a b off => Sys2Proof.Machine.execBeq sl a b off s
  | .bne sl a b off => Sys2Proof.Machine.execBne sl a b off s
  | .blt sl a b off => Sys2Proof.Machine.execBlt sl a b off s
  | .bge sl a b off => Sys2Proof.Machine.execBge sl a b off s
  | .bltu sl a b off => Sys2Proof.Machine.execBltu sl a b off s
  | .bgeu sl a b off => Sys2Proof.Machine.execBgeu sl a b off s
  | .kjump sl off => Sys2Proof.Machine.execKjump sl off s
  | .kloop sl a lidx off => Sys2Proof.Machine.execKloop sl a lidx off s
  | .kexit sl => Sys2Proof.Machine.execKexit sl s
  | .kfault sl d a imm => Sys2Proof.Machine.execKfault sl d a imm s
  | .valu sl d a b pg ty func => Sys2Proof.Machine.execValu sl d a b pg ty func s
  | .vcmp sl d a b pg ty func => Sys2Proof.Machine.execVcmp sl d a b pg ty func s
  | .vfma sl d a b c pg ty => Sys2Proof.Machine.execVfma sl d a b c pg ty s
  | .vfms sl d a b c pg ty => Sys2Proof.Machine.execVfms sl d a b c pg ty s
  | .vfnma sl d a b c pg ty => Sys2Proof.Machine.execVfnma sl d a b c pg ty s
  | .vcvt sl d a b pg ty func => Sys2Proof.Machine.execVcvt sl d a b pg ty func s
  | .vred sl d a b pg ty func => Sys2Proof.Machine.execVred sl d a b pg ty func s
  | .vsel sl d a b pg ty func => Sys2Proof.Machine.execVsel sl d a b pg ty func s
  | .vxf sl d a b pg ty func => Sys2Proof.Machine.execVxf sl d a b pg ty func s
  | .vmov sl d a b pg ty func => Sys2Proof.Machine.execVmov sl d a b pg ty func s
  | .plogic sl d a b func => Sys2Proof.Machine.execPlogic sl d a b func s
  | .rdsys sl d sel => Sys2Proof.Machine.execRdsys sl d sel s
  | .timeApply => Sys2Proof.Machine.execTimeApply s
  | .nowRead src => Sys2Proof.Machine.execNowRead src s
  | .rateHiWrite src value => Sys2Proof.Machine.execRateHiWrite src value s
  | .servoStart src root parent => Sys2Proof.Machine.execServoStart src root parent s
  | .servoRearm src root parent => Sys2Proof.Machine.execServoRearm src root parent s
  | .servoSettime src root parent => Sys2Proof.Machine.execServoSettime src root parent s
  | .servoStop src root parent => Sys2Proof.Machine.execServoStop src root parent s
  | .sync p => Sys2Proof.Machine.execSync p s
  | .followUp p => Sys2Proof.Machine.execFollowUp p s
  | .pdelayReq p => Sys2Proof.Machine.execPdelayReq p s
  | .pdelayResp p => Sys2Proof.Machine.execPdelayResp p s
  | .pdelayRespFollowUp p => Sys2Proof.Machine.execPdelayRespFollowUp p s
  | .delayReq seq ident corr domain option sub => Sys2Proof.Machine.execDelayReq seq ident corr domain option sub s
  | .syncSendTimer => Sys2Proof.Machine.execSyncSendTimer s
  | .pdelayReqTimer => Sys2Proof.Machine.execPdelayReqTimer s
  | .ethPtpTimer => Sys2Proof.Machine.execEthPtpTimer s
  | .syncTimeout => Sys2Proof.Machine.execSyncTimeout s
  | .triggerArm src u value => Sys2Proof.Machine.execTriggerArm src u value s
  | .triggerDisarm src u => Sys2Proof.Machine.execTriggerDisarm src u s
  | .triggerFire u => Sys2Proof.Machine.execTriggerFire u s
  | .launchBufferSend p sub => Sys2Proof.Machine.execLaunchBufferSend p sub s
  | .pinCapture pin rising sub => Sys2Proof.Machine.execPinCapture pin rising sub s
  | .ownerRelease src x => Sys2Proof.Machine.execOwnerRelease src x s
  | .heaterCycle e loops => Sys2Proof.Machine.execHeaterCycle e loops s
  | .heaterStarved e loops => Sys2Proof.Machine.execHeaterStarved e loops s
  | .monitorIntegration e rd => Sys2Proof.Machine.execMonitorIntegration e rd s
  | .spareReady e q upper => Sys2Proof.Machine.execSpareReady e q upper s
  | .laserSwap e q => Sys2Proof.Machine.execLaserSwap e q s
  | .laserSwapRelease e q => Sys2Proof.Machine.execLaserSwapRelease e q s
  | .modulePoll e ready failed monitors => Sys2Proof.Machine.execModulePoll e ready failed monitors s
  | .laneHealthCheck p => Sys2Proof.Machine.execLaneHealthCheck p s
  | .ringVerifyDone e site own gaps tone => Sys2Proof.Machine.execRingVerifyDone e site own gaps tone s
  | .ringReverify e site own gaps tone => Sys2Proof.Machine.execRingReverify e site own gaps tone s
  | .ringSearchStep e site peak own gaps tone => Sys2Proof.Machine.execRingSearchStep e site peak own gaps tone s
  | .xtCal src e => Sys2Proof.Machine.execXtCal src e s
  | .xtCalTimer e => Sys2Proof.Machine.execXtCalTimer e s
  | .xtCalDeferredStart e => Sys2Proof.Machine.execXtCalDeferredStart e s
  | .xtCalDone e cal => Sys2Proof.Machine.execXtCalDone e cal s
  | .xtCommit src e => Sys2Proof.Machine.execXtCommit src e s
  | .aprEnter f => Sys2Proof.Machine.execAprEnter f s
  | .aprPulseStart f => Sys2Proof.Machine.execAprPulseStart f s
  | .aprPulseEnd f => Sys2Proof.Machine.execAprPulseEnd f s
  | .aprExit f => Sys2Proof.Machine.execAprExit f s
  | .laserInputLost e q => Sys2Proof.Machine.execLaserInputLost e q s
  | .engineStart src e => Sys2Proof.Machine.execEngineStart src e s
  | .engineContinuityCheck e pwr => Sys2Proof.Machine.execEngineContinuityCheck e pwr s
  | .engineReady e cal => Sys2Proof.Machine.execEngineReady e cal s
  | .trpXconnWrite src f value => Sys2Proof.Machine.execTrpXconnWrite src f value s
  | .memTrainDone d tr => Sys2Proof.Machine.execMemTrainDone d tr s
  | .memInit src t => Sys2Proof.Machine.execMemInit src t s
  | .memInitDone t => Sys2Proof.Machine.execMemInitDone t s
  | .refreshSlot t port row work => Sys2Proof.Machine.execRefreshSlot t port row work s
  | .memPlanCommit src t => Sys2Proof.Machine.execMemPlanCommit src t s
  | .memDeviceFail d => Sys2Proof.Machine.execMemDeviceFail d s
  | .memRebuildDone t => Sys2Proof.Machine.execMemRebuildDone t s
  | .hostMemRead dpa bad => Sys2Proof.Machine.execHostMemRead dpa bad s
  | .hostMemWrite dpa data => Sys2Proof.Machine.execHostMemWrite dpa data s
  | .coreFail core => Sys2Proof.Machine.execCoreFail core s
  | .fatalCondition cause => Sys2Proof.Machine.execFatalCondition cause s
  | .watchdogExpire => Sys2Proof.Machine.execWatchdogExpire s
  | .dumpDone core log => Sys2Proof.Machine.execDumpDone core log s
  | .dumpFatalOrder src => Sys2Proof.Machine.execDumpFatalOrder src s
  | .dumpAck src => Sys2Proof.Machine.execDumpAck src s
  | .cntSnap src page => Sys2Proof.Machine.execCntSnap src page s
  | .cntClear src page => Sys2Proof.Machine.execCntClear src page s
  | .snapshotDone page => Sys2Proof.Machine.execSnapshotDone page s
  | .occMonitorTick t m => Sys2Proof.Machine.execOccMonitorTick t m s
  | .samplerCfgWrite src t k filt value => Sys2Proof.Machine.execSamplerCfgWrite src t k filt value s
  | .occCfgWrite src t m n value => Sys2Proof.Machine.execOccCfgWrite src t m n value s
  | .smpqTailWrite src value => Sys2Proof.Machine.execSmpqTailWrite src value s
  | .backlogNotice => Sys2Proof.Machine.execBacklogNotice s
  | .bar2Write src addr data => Sys2Proof.Machine.execBar2Write src addr data s
  | .intForce src page value => Sys2Proof.Machine.execIntForce src page value s
  | .intEnWrite src page pend value => Sys2Proof.Machine.execIntEnWrite src page pend value s
  | .functionLevelReset => Sys2Proof.Machine.execFunctionLevelReset s
  | .getEventRecords => Sys2Proof.Machine.execGetEventRecords s
  | .clearEventRecords n => Sys2Proof.Machine.execClearEventRecords n s
  | .getTimestamp => Sys2Proof.Machine.execGetTimestamp s
  | .setTimestamp ns => Sys2Proof.Machine.execSetTimestamp ns s
  | .getSupportedLogs => Sys2Proof.Machine.execGetSupportedLogs s
  | .getLog offset len => Sys2Proof.Machine.execGetLog offset len s
  | .identifyMemoryDevice => Sys2Proof.Machine.execIdentifyMemoryDevice s
  | .getHealthInfo => Sys2Proof.Machine.execGetHealthInfo s
  | .mailboxUnsupported opcode => Sys2Proof.Machine.execMailboxUnsupported opcode s
  | .doeRequest inst req => Sys2Proof.Machine.execDoeRequest inst req s
  | .doeAbort inst => Sys2Proof.Machine.execDoeAbort inst s
  | .ethFrameReceive m => Sys2Proof.Machine.execEthFrameReceive m s
  | .bmtRead path seq space count addr => Sys2Proof.Machine.execBmtRead path seq space count addr s
  | .bmtWrite path seq space addr data => Sys2Proof.Machine.execBmtWrite path seq space addr data s
  | .bmtSubscribe path seq sender => Sys2Proof.Machine.execBmtSubscribe path seq sender s
  | .i3cEntdaa ccc => Sys2Proof.Machine.execI3cEntdaa ccc s
  | .i3cGetstatus => Sys2Proof.Machine.execI3cGetstatus s
  | .mctpControl ty eid setEid => Sys2Proof.Machine.execMctpControl ty eid setEid s
  | .getTid => Sys2Proof.Machine.execGetTid s
  | .getPldmVersion ty => Sys2Proof.Machine.execGetPldmVersion ty s
  | .getPldmTypes => Sys2Proof.Machine.execGetPldmTypes s
  | .getPldmCommands ty => Sys2Proof.Machine.execGetPldmCommands ty s
  | .pldmSensorRead sensor => Sys2Proof.Machine.execPldmSensorRead sensor s
  | .requestUpdate => Sys2Proof.Machine.execRequestUpdate s
  | .transferComplete ok image => Sys2Proof.Machine.execTransferComplete ok image s
  | .verifyComplete => Sys2Proof.Machine.execVerifyComplete s
  | .applyComplete => Sys2Proof.Machine.execApplyComplete s
  | .activateFirmware selfContained => Sys2Proof.Machine.execActivateFirmware selfContained s
  | .cancelUpdate => Sys2Proof.Machine.execCancelUpdate s
  | .getVersion via => Sys2Proof.Machine.execGetVersion via s
  | .getCapabilities via => Sys2Proof.Machine.execGetCapabilities via s
  | .negotiateAlgorithms via => Sys2Proof.Machine.execNegotiateAlgorithms via s
  | .getDigests via => Sys2Proof.Machine.execGetDigests via s
  | .getCertificate via offset len => Sys2Proof.Machine.execGetCertificate via offset len s
  | .challenge via nonce => Sys2Proof.Machine.execChallenge via nonce s
  | .getMeasurements via index nonce => Sys2Proof.Machine.execGetMeasurements via index nonce s
  | .powerOnReset straps => Sys2Proof.Machine.execPowerOnReset straps s
  | .resetCold src => Sys2Proof.Machine.execResetCold src s
  | .resetWarm src => Sys2Proof.Machine.execResetWarm src s
  | .resetManagement src => Sys2Proof.Machine.execResetManagement src s
  | .resetTakeEffect straps => Sys2Proof.Machine.execResetTakeEffect straps s
  | .rstColdPin straps board => Sys2Proof.Machine.execRstColdPin straps board s
  | .rstWarmPin board => Sys2Proof.Machine.execRstWarmPin board s
  | .hostInterfaceReset => Sys2Proof.Machine.execHostInterfaceReset s
  | .bootRomRun rom => Sys2Proof.Machine.execBootRomRun rom s
  | .fwConfirm => Sys2Proof.Machine.execFwConfirm s
  | .fwupOpen src => Sys2Proof.Machine.execFwupOpen src s
  | .fwupWrite src piece => Sys2Proof.Machine.execFwupWrite src piece s
  | .fwupClose src => Sys2Proof.Machine.execFwupClose src s
  | .fwupActivate src mode => Sys2Proof.Machine.execFwupActivate src mode s
  | .fwupRevert src => Sys2Proof.Machine.execFwupRevert src s
  | .fwupAbort src => Sys2Proof.Machine.execFwupAbort src s
  | .advanceSvn src value => Sys2Proof.Machine.execAdvanceSvn src value s
  | .setOwner src => Sys2Proof.Machine.execSetOwner src s
  | .pwrOkRise straps => Sys2Proof.Machine.execPwrOkRise straps s
  | .pwrOkFall => Sys2Proof.Machine.execPwrOkFall s
  | .railFault rail mv => Sys2Proof.Machine.execRailFault rail mv s
  | .refclkLoss => Sys2Proof.Machine.execRefclkLoss s
  | .cxlRefclkLoss => Sys2Proof.Machine.execCxlRefclkLoss s
  | .thermalTrip die tj => Sys2Proof.Machine.execThermalTrip die tj s
  | .fuseRailChange present => Sys2Proof.Machine.execFuseRailChange present s
  | .registerRead src addr size => Sys2Proof.Machine.execRegisterRead src addr size s
  | .spillBlockWritten t q reads => Sys2Proof.Machine.execSpillBlockWritten t q reads s
  | .replayDone => Sys2Proof.Machine.execReplayDone s
  | .fwupCommandDone flashError => Sys2Proof.Machine.execFwupCommandDone flashError s
  | .fuseOperationDone => Sys2Proof.Machine.execFuseOperationDone s
  | .kloadStageDone => Sys2Proof.Machine.execKloadStageDone s
  | .fwdNoticeSend => Sys2Proof.Machine.execFwdNoticeSend s
  | .cxlLinkTrain x8 speed flit256 => Sys2Proof.Machine.execCxlLinkTrain x8 speed flit256 s
  | .cxlLinkLoss => Sys2Proof.Machine.execCxlLinkLoss s
  | .refclkReturn straps => Sys2Proof.Machine.execRefclkReturn straps s
  | .monitorStarved e rd => Sys2Proof.Machine.execMonitorStarved e rd s
  | .calibrationDeferred e => Sys2Proof.Machine.execCalibrationDeferred e s
  | .pinPulseEnd pin => Sys2Proof.Machine.execPinPulseEnd pin s
  | .memDeviceHot d hot => Sys2Proof.Machine.execMemDeviceHot d hot s
  | .illegalInstructionWord sl => Sys2Proof.Machine.execIllegalInstructionWord sl s

end Sys2Proof.Machine
end

