-- ==== Sys2Proof/Safety.lean ====
section
/-!
DEFINITION. What counts as a safe run, and the terms in which claims speak: the canonical form of the maps, when a register
write acts, which words a cause or an error indication touches, and how fuses may change.
-/

namespace Sys2Proof.Safety

open Sys2Proof Sys2Proof.Machine

/-- Register words, table words, counters and GDDR7 contents are in canonical form (see Machine/Maps.lean). -/
def wellFormed (s : State) : Bool :=
  mapWf resetWord s.regs && mapWf (fun _ => 0) s.tabs && mapWf (fun _ => 0) s.ctrs && mapWf memDflt s.mem

/-- The device runs, the requester's accesses reach it and the page of the register word at `a` is READY: a write of the word
acts (12_faults.md R378; 14_host_mgmt.md R419, R426; 16_registers.md R453). -/
def takesWrite (s : State) (src : Requester) (a : Nat) : Prop :=
  s.phase = .run ∧ s.reaches src = true ∧ s.is (PAGE_STATUS_READY (wordPage a)) = true

/-- Registers with neither a write rule nor a computed read of their own (16_registers.md): a write takes their bits as
00_scope.md R9 and R10 say, and a read returns the word. -/
def plainRegs : List RegId :=
  [.PAGE_ID, .PAGE_CAPS, .PAGE_STATUS, .CNT_STATUS, .CNT_OVF, .LNK_VER_CTRL, .LNK_PORT_STATUS, .LNK_TRAIN_STATUS,
   .LNK_LANE_MAP, .LNK_RTT, .LNK_PARTNER_INFO, .FWD_HALL, .FWD_HASH_SEED, .FWD_SELF_ADDR, .FWD_EPOCH_STATUS,
   .FWD_TBL_STATUS, .FWD_WIN, .USH_VC_MAP, .USH_CLASS, .USH_STATUS, .MDW_LINK_STATUS, .MDW_WSEL, .CAR_TBL_STATUS,
   .CAR_STALL_TK, .CAR_STALL_INFO0, .CAR_TWIN_STATUS, .CAR_DRAIN_SEL, .CAR_TWIN_EN, .CAR_WATCH, .CAR_WIN, .TMB_KLOAD_LEN,
   .TMB_FAULT_INFO2, .TMB_SLIVER_MAP, .TGT_SERVO_STATUS, .TGT_SET_LO, .TGT_SET_HI, .TGT_REPLICA_ERR, .TGT_PTP_CTRL,
   .SPT_STATUS, .SPT_LANE_CFG, .SPT_HEAT_STATUS, .SPT_XT_STATUS, .SPT_LSR_GROUP, .SPT_LSR_PWR, .SPT_RING, .TRP_JOINED,
   .MEM_USABLE_MIB, .MEM_DEV_STATUS, .SNT_CHUNK, .SNT_TARGET, .BRK_OCC_MAX, .MGT_DUMP_STATUS, .CXL_LINK_STATUS,
   .SEC_BOOT_STATUS, .SEC_FUSE_STATUS, .SEC_FWUP_LEN, .PWR_ENV_STATUS, .PWR_STRAPS, .PWR_TJ]

/-- The words that setting a cause of a page can touch: its INT_PEND, and its vector's MSI-X pending word (R420). -/
def causeWords (p : Page) : List Nat := [pageBase p + 16, 0xF28000 + 4 * (pageVector p / 32)]

/-- The words that an error indication of a page can touch: its PAGE_ERR and the words of its ERR cause (R418). -/
def errorWords (p : Page) : List Nat := (pageBase p + 12) :: causeWords p

/-- Every register word but those listed is as before. -/
def sameWords (ws : List Nat) (s t : Box) : Prop := ∀ a, a ∉ ws → t.word a = s.word a

/-- A device that no reset source holds has power, its rails in range and the fabric reference (17_electrical_package.md R468,
R472, R477). -/
def releasedRight (s : State) : Prop := s.phase ≠ .held → s.mayRun = true

/-- Fuses only ever blow: MIN_SVN does not fall, a blown bit of the owner hash and a blown OWNER_MODE stay (15_boot_security.md
R438). -/
def fusesKept (x y : Fuses) : Prop :=
  x.svn ≤ y.svn ∧ x.owner &&& y.owner = x.owner ∧ (x.ownerMode = true → y.ownerMode = true)

/-- The invocation `v` of a sliver of stream `st` has reached the instruction word `w`, which is legal and for which the
loader's figure leaves issue slots, and the tumbler meets no uncorrectable error (08_tumblers.md R226, R233, R237). -/
def atWord (s : State) (sl st : Nat) (v : Inv) (w : Nat) : Prop :=
  s.phase = .run ∧ (s.sliver sl).inv = some v ∧ (s.sliver sl).upsetIn = none ∧ s.sliverOwner sl = some st
    ∧ kWordAt (s.sx st).image v.pc = w
    ∧ kLegal w = true ∧ v.slots + kCost w ≤ imgW (s.sx st).image v.entry.ix

/-- The state after that word has run and left the invocation as `x`, which goes on at word `pc`, by the LOOP at word `own`
where there is one: its issue slots are counted and nothing outside the invocation changes. -/
def ranWord (s : State) (sl st w : Nat) (x : Inv) (pc : Nat) (own : Option Nat) : State :=
  { s with slivers := (s.setSliver sl { s.sliver sl with
      inv := some (Inv.enter { x with slots := x.slots + kCost w } (s.sx st).image pc own) }).slivers }

/-- The same where the invocation goes on with the next word. -/
def ranNext (s : State) (sl st w : Nat) (x : Inv) : State := ranWord s sl st w x (x.pc + 1) none

/-- The sum of a vector's lanes in the tree of VRED: lanes 2i and 2i + 1 first, then adjacent pairs of those sums
(08_tumblers.md R245). -/
def laneTree (ty : Nat) (leaf : Nat → Nat) : Nat → Nat → Nat
  | 0, i => leaf i
  | k + 1, i => laneAdd ty (laneTree ty leaf k (2 * i)) (laneTree ty leaf k (2 * i + 1))

/-- What a port that has gone down has left (02_itzal_link.md R42; 03_forwarding.md R77): its link, sequence, credit and slot
counters at 0, nothing kept for a resend or partly received, no change or pause pending, no frame queued, staged or due on
it, and no live candidate of either bank that names it. -/
def portCleared (t : Box) (p : Nat) : Prop :=
  let x := t.port p
  t.up p = false ∧ t.rd (LNK_LANE_MAP_TX p) = 0xFFF ∧ t.rd (LNK_LANE_MAP_RX p) = 0xFFF ∧ t.rd (LNK_PORT_STATUS_VER p) = 0
    ∧ x.txSeq = 0 ∧ x.rxSeq = 0 ∧ x.txSlot = 0 ∧ x.rxSlot = 0 ∧ x.retry = [] ∧ x.resend = none ∧ x.part = []
    ∧ x.partCells = [] ∧ x.ctlQ = [] ∧ x.pendTx = none ∧ x.pendRx = none ∧ x.pauseTx = none ∧ x.pauseRx = none
    ∧ x.rrOut = none ∧ x.sent = List.replicate 8 0 ∧ x.pccum = List.replicate 8 0
    ∧ t.is (pageFld (lnkPage (p / 256)) 16 1 1) = true
    ∧ (∀ d, d ∈ t.descs → d.egress ≠ p) ∧ (∀ v, v < 8 → t.staged (8 * p + v) = [])
    ∧ (∀ r, r ∈ t.results → p ∉ r.due ∧ p ∉ r.won)
    ∧ ∀ b k m, b < 2 → k < 2048 → m < t.nmem b k → t.memLive b k m = true → t.member b k m ≠ p

/-- A port has gone down from `s` to `t`: TRAIN flits left first, and the port is cleared. -/
def wentDown (s t : Box) (p : Nat) : Prop :=
  portCleared t p ∧ ∃ o, t.outbox = o ++ (s.trainFlit p).outbox

/-- The flit of a port's next transmit slot: it goes out on logical lane slot mod N, with the credit slots that are due
(02_itzal_link.md R33, R34, R46). -/
def slotFlit (s : Box) (p ftype seq fstart : Nat) (body : List Byte) : Out :=
  let x := s.port p
  let c := creditSlots x (decide (3 ≤ s.minor p))
  let pos := x.txSlot % max 1 (s.txLanes p).length
  let ext := match c.2.1 with
    | some v => v * 2 ^ 29 + x.freed.getD v 0 * 2 ^ 13 + 1
    | none => 0
  .flit p pos ((s.txLanes p).getD pos 7) (mkFlit ftype seq (sub16 x.rxSeq 1) fstart c.1 (x.freed.getD c.1 0) body ext)

/-- From `s` to `t` the port has sent that flit in its next transmit slot, and every other output before `s` is still there. -/
def sentFlit (s t : Box) (p ftype seq fstart : Nat) (body : List Byte) : Prop :=
  (∃ o r, t.outbox = o ++ slotFlit s p ftype seq fstart body :: (r ++ s.outbox))
    ∧ (t.port p).txSlot = ((s.port p).txSlot + 1) % 2 ^ 32 ∧ (t.port p).lastTx = s.raw

/-- From `s` to `t` a PTP message has been put last in a port's staging, in a control frame to its partner (09_network_time.md
R268; 02_itzal_link.md R54). -/
def sentPtp (s t : Box) (p : Nat) (m : List Byte) : Prop :=
  let f := frRetag (mkControl 4 (s.rd (LNK_PARTNER_ID_ADDR_ADDR p)) (s.rd (FWD_SELF_ADDR_ADDR 0)) [0x30 * 2 ^ 24] m 0)
    (s.port p).ctags
  ∃ x, t.staged (8 * p + frVc f) = s.staged (8 * p + frVc f) ++ [x] ∧ x.desc.frame = f ∧ x.desc.egress = p
    ∧ (t.port p).ctags = ((s.port p).ctags + 1) % 2 ^ 32

/-- The oldest time message that waits on a port is `a`, with `rest` behind it, and the S9 takes it as type `ty`
(09_network_time.md R268, R269, R274). -/
def timeHead (s : Box) (p ty : Nat) (a : Arrived) (rest : List Arrived) : Prop :=
  (s.port p).ptp = a :: rest ∧ s.timeRole p ≠ 0 ∧ s.partnerTimes p = true ∧ 44 ≤ (frPayload a.frame).length
    ∧ ptpVersion (frPayload a.frame) = 2 ∧ ptpType (frPayload a.frame) = ty ∧ ptpOption (frPayload a.frame) = false

/-- An SPDM request reaches firmware: over DOE from a driver whose link is up, as an object that instance 0 takes, over MCTP once
the port takes private transfers (14_host_mgmt.md R415, R424). -/
def spdmHere (s : Box) (via : SpdmVia) : Prop :=
  match via with
  | .doe => s.reaches .driver = true ∧ 0 ∉ s.doeBusy ∧ s.firmware = true
  | .mctp _ => s.i3cReady = true

/-- The state in which it is answered: instance 0 is Busy with an object it has taken (14_host_mgmt.md R415). -/
def spdmTaken (s : State) (via : SpdmVia) : State :=
  match via with
  | .doe => { s with doeBusy := 0 :: s.doeBusy }
  | .mctp _ => s

/-- The BMT request `want` reaches firmware on a path as `r`, within the 10,000 a second that it serves at least, and leaves
the block as `s1`: over Ethernet within the lane's rate, over VC6 as the oldest frame of kind 0 in the inbox
(14_host_mgmt.md R421, R422). -/
def bmtHere (s : Box) (path : BmtPath) (want r : BmtReq) (s1 : Box) : Prop :=
  let sec := s.raw / 640000000
  let m := if s.bmtSecond.1 = sec then s.bmtSecond.2 else 0
  s.firmware = true ∧ m < 10000 ∧ match path with
    | .ethernet =>
      let n := if s.ethSecond.1 = sec then s.ethSecond.2 else 0
      n < 50000 ∧ r = want ∧ s1 = { s with ethSecond := (sec, n + 1), bmtSecond := (sec, m + 1) }
    | .vc6 => ∃ g rest, (s.inbox.dropWhile fun g => frKind g != 0) = g :: rest ∧ r = bmtOf g ∧ r.ver = 1
        ∧ { r with dst := 0, count := if r.op = 2 then r.data.length else r.count } = want ∧ s1 = { s with inbox := rest, bmtSecond := (sec, m + 1) }

end Sys2Proof.Safety
end

