-- ==== Sys2Proof/WellFormed.lean ====
section
/-!
DEFINITION. Which commands are well formed: operands that can be what the command's row names. An operand whose
type already bounds it needs no check. `exec` answers the others too: an access to an address that is none of the row's is what
the register path makes of it (R8, R416), a mailbox opcode of the supported set is that command's business.
-/

namespace Sys2Proof

/-- A flit has 256 bytes (02_itzal_link.md R34). -/
def FlitRx.wf (x : FlitRx) : Bool := x.bytes.length == 256

/-- The address is that of a counter's lo (0) or hi (4) word (00_scope.md R11; 13_counters.md R383). -/
def ctrAddr (addr : BitVec 28) (word : Nat) : Bool :=
  let off := addr.toNat % 0x10000
  Machine.isCtrOff (Machine.addrPage addr.toNat) off && off % 8 == word

/-- Only the driver reaches the function's configuration space. -/
def hostAddrOk (src : Requester) : HostAddr → Bool
  | .config _ => src == .driver
  | _ => true

/-- The operands of a command can be what its row names. -/
def Instr.wf : Instr → Bool
  | .counterLoRead _ addr => ctrAddr addr 0
  | .counterHiRead _ addr => ctrAddr addr 4
  | .flitReceive _ rx => rx.wf
  | .cntSnap _ page => Machine.hasCounters page.toNat
  | .cntClear _ page => Machine.hasCounters page.toNat
  | .snapshotDone page => Machine.hasCounters page.toNat
  | .registerWrite src addr _ _ => hostAddrOk src addr
  | .registerRead src addr _ => hostAddrOk src addr
  | .bar2Write _ addr _ => addr.toNat % 4 == 0
  | .intForce _ page _ => (Machine.pageNcnt page.toNat).isSome
  | .intEnWrite _ page _ _ => (Machine.pageNcnt page.toNat).isSome
  | .mailboxUnsupported opcode => !decide (opcode.toNat ∈ Machine.mailboxOpcodes)
  | .transferComplete _ image => decide (image.length ≤ Machine.imageMax)
  | .ucieModuleFail .. | .replicaCheck .. | .replicaReload .. | .envExcursionStart ..
  | .envExcursionEnd .. | .laneMarkerReceive .. | .retryReq .. | .retryReqRepeat .. | .laneMapReq .. | .laneMapAck ..
  | .laneMapNak .. | .laneMapSwitch .. | .laneMapCancel .. | .laneAdopt .. | .laneFail .. | .laneFecLoss ..
  | .pause .. | .resume .. | .pauseTimeout .. | .linkSilenceTimeout .. | .portUp .. | .trainingRetry ..
  | .fpModeWrite .. | .portEnable .. | .portDisable .. | .reserveReturn .. | .ingressHeaderStage ..
  | .fenceRelease .. | .backlogReport .. | .midwayGrant .. | .midwayTransfer .. | .flitSlot .. | .trnBucketWrite ..
  | .spillBlockTimer .. | .spillRecall .. | .spillRecallDone .. | .ushAudit .. | .ushAuditDone ..
  | .gateEntryStart .. | .glCommit .. | .glCancel .. | .glStop .. | .glSwitch .. | .bypassStart ..
  | .bypassRestore .. | .bypassEnd .. | .bypassRealignTimeout .. | .fwdTblWrite .. | .fwdTblRead .. | .fwdTblDone
  | .fwdSwitch .. | .fwdBankSwitch .. | .fwdFlushOld .. | .fwdCopy .. | .fwdCopyDone | .fwdDrained | .fwdNoticeGo ..
  | .carTblWrite .. | .carTblRead .. | .streamReserve .. | .streamReserveDone .. | .streamActivate ..
  | .streamDrain .. | .streamAbort .. | .streamAbortDone .. | .streamRelease .. | .streamFreed ..
  | .contributionSteer .. | .sliverTakePart .. | .resultRelease .. | .slotStall .. | .drainMarkSet .. | .sntReplay ..
  | .sntRetract .. | .retractRecomputeDone .. | .sealRecordWrite .. | .sealSignTimer | .twinComplete ..
  | .thirdComputeDone .. | .watchExpire .. | .kloadStage .. | .kloadVerify .. | .kloadVerifyDone | .kloadUnload ..
  | .kloadInfo .. | .tmbSubst .. | .substTake .. | .salu .. | .addi .. | .andi .. | .ori .. | .xori .. | .lui ..
  | .shifti .. | .sfpu .. | .ffma .. | .ldw .. | .ldh .. | .ldhu .. | .ldb .. | .ldbu .. | .stw .. | .sth ..
  | .stb .. | .vld .. | .vst .. | .beq .. | .bne .. | .blt .. | .bge .. | .bltu .. | .bgeu .. | .kjump .. | .kloop ..
  | .kexit .. | .kfault .. | .valu .. | .vcmp .. | .vfma .. | .vfms .. | .vfnma .. | .vcvt .. | .vred .. | .vsel ..
  | .vxf .. | .vmov .. | .plogic .. | .rdsys .. | .timeApply | .nowRead .. | .rateHiWrite .. | .servoStart ..
  | .servoRearm .. | .servoSettime .. | .servoStop .. | .sync .. | .followUp .. | .pdelayReq .. | .pdelayResp ..
  | .pdelayRespFollowUp .. | .delayReq .. | .syncSendTimer | .pdelayReqTimer | .ethPtpTimer | .syncTimeout
  | .triggerArm .. | .triggerDisarm .. | .triggerFire .. | .launchBufferSend .. | .pinCapture .. | .ownerRelease ..
  | .heaterCycle .. | .heaterStarved .. | .monitorIntegration .. | .spareReady .. | .laserSwap ..
  | .laserSwapRelease .. | .modulePoll .. | .laneHealthCheck .. | .ringVerifyDone .. | .ringReverify ..
  | .ringSearchStep .. | .xtCal .. | .xtCalTimer .. | .xtCalDeferredStart .. | .xtCalDone .. | .xtCommit ..
  | .aprEnter .. | .aprPulseStart .. | .aprPulseEnd .. | .aprExit .. | .laserInputLost .. | .engineStart ..
  | .engineContinuityCheck .. | .engineReady .. | .trpXconnWrite .. | .memTrainDone .. | .memInit ..
  | .memInitDone .. | .refreshSlot .. | .memPlanCommit .. | .memDeviceFail .. | .memRebuildDone .. | .hostMemRead ..
  | .hostMemWrite .. | .coreFail .. | .fatalCondition .. | .watchdogExpire | .dumpDone .. | .dumpFatalOrder ..
  | .dumpAck .. | .occMonitorTick .. | .samplerCfgWrite .. | .occCfgWrite .. | .smpqTailWrite .. | .backlogNotice
  | .functionLevelReset | .getEventRecords | .clearEventRecords .. | .getTimestamp | .setTimestamp ..
  | .getSupportedLogs | .getLog .. | .identifyMemoryDevice | .getHealthInfo | .doeRequest .. | .doeAbort ..
  | .ethFrameReceive .. | .bmtRead .. | .bmtWrite .. | .bmtSubscribe .. | .i3cEntdaa .. | .i3cGetstatus
  | .mctpControl .. | .getTid | .getPldmVersion .. | .getPldmTypes | .getPldmCommands .. | .pldmSensorRead ..
  | .requestUpdate | .verifyComplete | .applyComplete | .activateFirmware .. | .cancelUpdate | .getVersion ..
  | .getCapabilities .. | .negotiateAlgorithms .. | .getDigests .. | .getCertificate .. | .challenge ..
  | .getMeasurements .. | .powerOnReset .. | .resetCold .. | .resetWarm .. | .resetManagement .. | .resetTakeEffect ..
  | .rstColdPin .. | .rstWarmPin .. | .hostInterfaceReset | .bootRomRun .. | .fwConfirm | .fwupOpen .. | .fwupWrite ..
  | .fwupClose .. | .fwupActivate .. | .fwupRevert .. | .fwupAbort .. | .advanceSvn .. | .setOwner .. | .pwrOkRise ..
  | .pwrOkFall | .railFault .. | .refclkLoss | .cxlRefclkLoss | .thermalTrip .. | .fuseRailChange ..
  | .spillBlockWritten .. | .replayDone | .fwupCommandDone .. | .fuseOperationDone
  | .kloadStageDone | .fwdNoticeSend | .cxlLinkTrain .. | .cxlLinkLoss | .refclkReturn .. | .monitorStarved ..
  | .calibrationDeferred .. | .pinPulseEnd .. | .memDeviceHot .. | .illegalInstructionWord .. => true

end Sys2Proof
end

