-- ==== Sys2Proof/Certificates/Slice0/Obligations.lean ====
section
/-!
DEFINITION. The statements about the model. Each names the rules of the spec it formalises, or the choice of the model it
states. A command is shown to complete by its next state.
-/

open Sys2Proof Sys2Proof.Machine Sys2Proof.Safety

/-! ### The machine as a whole -/

/-- A step with a command at the front of the queue is that command's effect, with the rest of the queue waiting. DESIGN
CHOICE (log entry 1): on an empty queue a step is one raw tick of Tightrope's counter, which leaves the fuses, the pins
and the queue as they are. -/
def Obligations.StepRunsTheFrontCommand : Prop :=
  (∀ (s : State) (c : Instr) (q : List Instr), step { s with pending := c :: q } = exec c { s with pending := q })
    ∧ ∀ s : State, s.pending = [] → ∃ t, step s = .next t ∧ t.raw = s.raw + 1 ∧ t.pending = [] ∧ t.fuses = s.fuses
        ∧ t.pwrOk = s.pwrOk ∧ t.railsBad = s.railsBad ∧ t.refLost = s.refLost ∧ t.straps = s.straps

/-- Every command answers a next state in every state, and so does a step, with the command's state where one waits: nothing
faults, nothing is refused and no operand, well formed or not, stops the block. From a state whose register, table,
counter and memory maps are in canonical form every step reaches such a state, whatever waits. The model's own choices in
it: log entries 12, 147. -/
def Obligations.WellFormedCommandsComplete : Prop :=
  (∀ s t : State, wellFormed s = true → step s = .next t → wellFormed t = true)
  ∧ (∀ (i : Instr) (s : State), ∃ t, exec i s = .next t)
    ∧ (∀ s : State, ∃ t, step s = .next t)
    ∧ ∀ (i : Instr) (s : State) (q : List Instr), i.wf = true → s.pending = i :: q → ∃ t, step s = .next t ∧ t.pending = q

/-- No command takes from the queue or adds to it, and only the commands of power, reset and the fuses may change the raw tick
counter, the fuses, what the power pins and the reference say, and the straps. The model's own choices in it: log entry
14. -/
def Obligations.CommandsTouchOnlyTheirPart : Prop :=
  ∀ (i : Instr) (s t : State), exec i s = .next t →
    t.pending = s.pending
    ∧ (t.raw = s.raw ∧ t.fuses = s.fuses ∧ t.pwrOk = s.pwrOk ∧ t.railsBad = s.railsBad ∧ t.refLost = s.refLost
          ∧ t.straps = s.straps
      ∨ i ∈ [Instr.pwrOkFall, .refclkLoss, .fuseOperationDone]
      ∨ (∃ v, i ∈ [Instr.powerOnReset v, .resetTakeEffect v, .refclkReturn v, .pwrOkRise v])
      ∨ (∃ v board, i = .rstColdPin v board) ∨ (∃ board, i = .rstWarmPin board)
      ∨ (∃ mv d tj, (2 * mv.toNat < 1100 ∨ 1700 < 2 * mv.toNat)
          ∧ i ∈ [Instr.envExcursionStart mv d tj, .envExcursionEnd mv d tj]) ∨ (∃ r mv, i = .railFault r mv) ∨ ∃ b, i = .fuseRailChange b)

/-- A fuse never un-blows: whatever a step does, MIN_SVN does not fall, a blown bit of the owner key hash stays blown and
OWNER_MODE stays set. -/
def Obligations.FusesOnlyBlow : Prop :=
  ∀ s t : State, step s = .next t → fusesKept s.fuses t.fuses

/-- The device is out of reset only with PWR_OK high, every rail in range and the fabric reference present: an invariant of
every step. -/
def Obligations.RunsOnlyWithPowerAndReference : Prop :=
  ∀ s t : State, releasedRight s → step s = .next t → releasedRight t

/-- What reset leaves: the device runs, no command waits, every map is in canonical form, every page is out of READY and shows
its identity, and the invariants hold. DESIGN CHOICE (log entry 2): State.reset is the part with the boot ROM about to
run. The model's own choices in it: log entries 6, 7. -/
def Obligations.ResetLeavesTheMachineReady : Prop :=
  State.reset.phase = .run ∧ State.reset.pending = [] ∧ State.reset.raw = 0 ∧ wellFormed State.reset = true
    ∧ releasedRight State.reset ∧ State.reset.fuses.ownerMode = false ∧ State.reset.bootState = 0
    ∧ ∀ a, State.reset.word a = resetWord a

/-! ### Power, resets, boot (15_boot_security.md, 17_electrical_package.md) -/

/-- A power-on reset. A rail out of its range, PWR_OK falling and a lost fabric reference hold the device; within its range a
rail is only shown, and the core rail of a live device decides BELOW_GUARANTEE with the junctions; once PWR_OK is high
with every rail in range and the reference present it starts again: the raw tick counter and RESET_STATUS restart, the
straps are sampled and show, and tables, counters, memory and the queues of the block are empty. Fuses and flash stay, the
fuses where no fuse operation was cut short. The model's own choices in it: log entries 6, 12, 134. -/
def Obligations.PowerOnResetHoldsAndRestarts : Prop :=
  ∀ s : State,
    (∀ (rail : Fin 9) (mv : BitVec 16),
      let (lo, hi) := railRange rail.toNat
      if lo ≤ 2 * mv.toNat ∧ 2 * mv.toNat ≤ hi then
        (rail ≠ 0 ∨ s.phase.alive = false →
          exec (.railFault rail mv) s = .next { s with toBox := s.toBox.wr (PWR_RAIL_MV rail.toNat) mv.toNat })
        ∧ (rail = 0 → s.phase.alive = true → ∃ t, exec (.railFault rail mv) s = .next t ∧ t.phase = s.phase
            ∧ t.rd (PWR_RAIL_MV 0) = mv.toNat ∧ t.is PWR_ENV_STATUS_RAIL_LOW = decide (mv.toNat < 620)
            ∧ t.is PWR_ENV_STATUS_BELOW_GUARANTEE = (decide (mv.toNat < 620) || s.is PWR_ENV_STATUS_TJ_HIGH)
            ∧ t.pending = s.pending)
      else ∃ t, exec (.railFault rail mv) s = .next t ∧ t.phase = .held ∧ rail.toNat ∈ t.railsBad
        ∧ t.rd (PWR_RAIL_MV rail.toNat) = mv.toNat ∧ t.pending = s.pending)
    ∧ (s.pwrOk = true → ∃ t, exec .pwrOkFall s = .next t ∧ t.phase = .held ∧ t.pwrOk = false ∧ t.mem = [] ∧ t.raw = 0)
    ∧ (∃ t, exec .refclkLoss s = .next t ∧ t.phase = .held ∧ t.refLost = true ∧ t.raw = 0)
    ∧ (∀ straps : BitVec 4, s.refLost = true → s.pwrOk = true → s.railsBad = [] →
        ∃ t, exec (.refclkReturn straps) s = .next t ∧ t.phase = .run ∧ t.refLost = false
          ∧ t.word PWR_STRAPS_at = BitVec.ofNat 32 straps.toNat ∧ t.raw = 0 ∧ t.mem = [] ∧ t.tabs = [])
    ∧ (∀ straps : BitVec 4, s.pwrOk = false → s.refLost = false → s.railsBad = [] →
        ∃ t, exec (.pwrOkRise straps) s = .next t ∧ t.phase = .run ∧ t.pwrOk = true
          ∧ t.word PWR_STRAPS_at = BitVec.ofNat 32 straps.toNat ∧ t.raw = 0 ∧ t.mem = [])
    ∧ (∀ straps : BitVec 4, s.pwrOk = true → s.refLost = false →
        ∃ t, exec (.powerOnReset straps) s = .next t ∧ t.phase = .run ∧ t.railsBad = [] ∧ t.straps = straps.toNat
        ∧ t.word PWR_STRAPS_at = BitVec.ofNat 32 straps.toNat ∧ t.raw = 0 ∧ t.tabs = [] ∧ t.ctrs = [] ∧ t.mem = [] ∧ t.ports = [] ∧ t.descs = [] ∧ t.streams = []
        ∧ t.flash = s.flash ∧ (s.fuseOp = none → t.fuses = s.fuses) ∧ t.rd SEC_RESET_STATUS_LAST = 0
        ∧ sameWords [SEC_RESET_STATUS_at, SEC_FUSE_STATUS_at, PWR_STRAPS_at] State.reset.toBox t.toBox)

/-- A cold or warm reset asked for through SEC_RESET_CMD quiesces the device at once and takes effect 6,400 raw ticks later;
before that nothing happens. A reset on a pin acts at once, after what the board has done at the SPI pins and the JTAG
port; a cold one samples the straps. The model's own choices in it: log entries 15, 134, 138, 165. -/
def Obligations.ResetsQuiesceThenTakeEffect : Prop :=
  ∀ s : State,
    (∀ src : Requester, takesWrite s src SEC_RESET_CMD_at → s.resetReq = none →
      (∃ t, exec (.resetCold src) s = .next t ∧ t.phase = .quiesced ∧ t.resetReq = some ⟨1, resetSource src, s.raw⟩
        ∧ t = { s with ports := t.ports, outbox := t.outbox, phase := .quiesced, resetReq := t.resetReq })
      ∧ ∃ t, exec (.resetWarm src) s = .next t ∧ t.phase = .quiesced ∧ t.resetReq = some ⟨2, resetSource src, s.raw⟩
        ∧ t = { s with ports := t.ports, outbox := t.outbox, phase := .quiesced, resetReq := t.resetReq })
    ∧ (∀ (r : ResetReq) (straps : BitVec 4), s.phase = .quiesced → s.resetReq = some r →
        (s.raw < r.at_ + 6400 → exec (.resetTakeEffect straps) s = .next s)
        ∧ (r.at_ + 6400 ≤ s.raw → r.kind = 1 ∨ r.kind = 2 →
            ∃ t, exec (.resetTakeEffect straps) s = .next t ∧ t.phase = .run ∧ t.resetReq = none ∧ t.raw = 0
              ∧ t.rd SEC_RESET_STATUS_LAST = r.kind ∧ t.rd SEC_RESET_STATUS_SOURCE = r.src % 16 ∧ t.tabs = []
              ∧ t.flash = s.flash ∧ (s.fuseOp = none → t.fuses = s.fuses)
              ∧ (r.kind = 1 → t.mem = [] ∧ t.straps = straps.toNat ∧ t.word PWR_STRAPS_at = BitVec.ofNat 32 straps.toNat)
              ∧ (r.kind = 2 → ∀ k, mapGet memDflt t.mem k = if 1 < k / 2 ^ 40 % 8 then memDflt k else mapGet memDflt s.mem k)))
    ∧ (∀ (straps : BitVec 4) (board : List BoardAct), s.phase ≠ .held →
        ∃ t, exec (.rstColdPin straps board) s = .next t ∧ t.phase = .run ∧ t.mem = [] ∧ t.spares = []
        ∧ t.flash = (board.foldl Box.boardAct s.toBox).flash ∧ t.tap = (board.foldl Box.boardAct s.toBox).tap
        ∧ t.straps = straps.toNat ∧ t.word PWR_STRAPS_at = BitVec.ofNat 32 straps.toNat ∧ t.rd SEC_RESET_STATUS_LAST = 1 ∧ t.rd SEC_RESET_STATUS_SOURCE = 1 ∧ t.pending = s.pending)
    ∧ (∀ (board : List BoardAct), s.phase ≠ .held → s.resetReq = none →
        ∃ t, exec (.rstWarmPin board) s = .next t ∧ t.phase = .run ∧ t.spares = s.spares ∧ t.straps = s.straps
        ∧ t.flash = (board.foldl Box.boardAct s.toBox).flash ∧ t.tap = (board.foldl Box.boardAct s.toBox).tap
        ∧ t.dump.seq = s.dump.seq ∧ t.dump.held = s.dump.held ∧ t.word SEC_SEAL_SEQ_LO_at = s.word SEC_SEAL_SEQ_LO_at
        ∧ t.word SEC_SEAL_SEQ_HI_at = s.word SEC_SEAL_SEQ_HI_at ∧ t.sealHash = s.lastSealHash
        ∧ t.rd SEC_RESET_STATUS_LAST = 2 ∧ t.rd SEC_RESET_STATUS_SOURCE = 1 ∧ t.pending = s.pending)

/-- A management reset restarts the boot ROM and the key state and ends the update session and the out-of-band sessions; it
leaves ports, tables, queued frames, streams, time, optics and memory as they are. The host's interface: its reset
restarts the CXL page, its counters and the function; a function-level reset configuration space, the HDM decoder, the
MSI-X table and the DOE state; loss of the link or of its reference clears width and speed and nothing else; training
reports width and speed, or NOFLIT where the partner has no 256-byte flits. The model's own choices in it: log entries
136, 137, 138, 172. -/
def Obligations.NarrowResetsLeaveTraffic : Prop :=
  (∀ (s : State) (src : Requester), takesWrite s src SEC_RESET_CMD_at → s.resetReq = none → s.bootState ≠ 0 →
    ∃ t, exec (.resetManagement src) s = .next t ∧ t.bootState = 0 ∧ t.is SEC_SEAL_STATUS_KEY_READY = false
      ∧ t.update = {} ∧ t.collector = none ∧ t.eid = 0 ∧ t.spdmDoe = {} ∧ t.spdmMctp = {} ∧ t.inbox = []
      ∧ t.is SEC_FWUP_STATUS_OPEN = false ∧ t.is SEC_FWUP_STATUS_BUSY = false
      ∧ t.rd SEC_BOOT_STATUS_REASON = s.rd SEC_BOOT_STATUS_REASON ∧ t.rd SEC_RESET_STATUS_LAST = 3 ∧ t.rd SEC_RESET_STATUS_SOURCE = resetSource src
      ∧ (s.firmware = true → ∃ o, t.outbox = o ++ .reply (.pldmEvent 0) :: s.outbox)
      ∧ t = { s with regs := t.regs, outbox := t.outbox, aliasKey := 0, aliasCert := [], udsLocked := false, image := {},
                     update := {}, collector := none, vc6Q := [], eid := 0, spdmDoe := {}, spdmMctp := {}, spdmSigs := [], inbox := [],
                     portErrs := [], events := t.events, alarm := s.trip }
      ∧ sameWords ([SEC_RESET_STATUS_at, SEC_BOOT_STATUS_at, SEC_FWUP_STATUS_at, SEC_SEAL_STATUS_at]
          ++ causeWords secPage) s.toBox t.toBox)
  ∧ (∀ s : State, s.phase = .run →
    (s.resetReq = none → s.bootState ≠ 0 → ∃ t, exec .hostInterfaceReset s = .next t ∧ t.cxlLog = [] ∧ t.bar2 = none
      ∧ t.doeError = [] ∧ t.doeBusy = [] ∧ t.hostReads = [] ∧ t.cfg = [] ∧ t.cxlRegs = []
      ∧ (∀ i, i < 4096 → t.ctr cxlPage i = 0) ∧ (∀ k, k < cxlPage * 4096 ∨ cxlPage * 4096 + 4096 ≤ k → mapGet (fun _ => 0) t.ctrs k = mapGet (fun _ => 0) s.ctrs k)
      ∧ t.rd SEC_RESET_STATUS_LAST = 4 ∧ t.rd SEC_RESET_STATUS_SOURCE = 5 ∧ t.tabs = s.tabs ∧ t.mem = s.mem
      ∧ t.is (PAGE_STATUS_READY cxlPage) = s.is (PAGE_STATUS_READY cxlPage)
      ∧ ∀ a, a ≠ SEC_RESET_STATUS_at → a / 0x10000 ≠ 0x10 → a / 0x10000 ≠ 0xF2 → t.word a = s.word a)
    ∧ (s.reaches .driver = true → exec .functionLevelReset s
        = .next { s with regs := mapClear s.regs 0xF20000 0x10000, cfg := [], cxlRegs := mapDrop s.cxlRegs Config.hdmWord,
                         doeError := [], doeBusy := [], spdmDoe := {}, hostReads := [] })
    ∧ (∃ t, exec .cxlLinkLoss s = .next t ∧ exec .cxlRefclkLoss s = .next t ∧ t.rd CXL_LINK_STATUS_WIDTH = 0
        ∧ t.rd CXL_LINK_STATUS_SPEED = 0 ∧ t = { s with regs := t.regs } ∧ sameWords [CXL_LINK_STATUS_at] s.toBox t.toBox)
    ∧ ∀ (x8 : Bool) (speed : Fin 3), s.firmware = true →
        (∃ t, exec (.cxlLinkTrain x8 speed true) s = .next t ∧ t.rd CXL_LINK_STATUS_WIDTH = (if x8 then 4 else 3)
          ∧ t.rd CXL_LINK_STATUS_SPEED = 4 + speed.toNat ∧ t.is CXL_LINK_STATUS_NOFLIT = false ∧ t = { s with regs := t.regs })
        ∧ (s.is CXL_LINK_STATUS_NOFLIT = false → ∃ t, exec (.cxlLinkTrain x8 speed false) s = .next t
            ∧ t.is CXL_LINK_STATUS_NOFLIT = true ∧ t.is (pageFld cxlPage 16 0 1) = true
            ∧ t = { s with regs := t.regs, outbox := t.outbox }))


/-! ### Boot, fuses and firmware updates (15_boot_security.md) -/

/-- The boot ROM runs while BOOT_STATE is 0: a fuse failure is BOOT_STATE 4, a self-test failure 3, the recovery strap or no
usable slot 2, with the alarm driven; a usable slot whose image passes the checks boots, with BOOT_STATE 1, its slot,
KEY_READY and the pages READY. After the ROM has run the command does nothing. Firmware confirms its image once a memory
device of every tent is ready and the CXL link or the I3C port serves: the byte CONFIRM of the running slot is programmed
and CONFIRMED reads 1; before that nothing happens. The model's own choices in it: log entries 2, 128, 132, 133, 175, 178. -/
def Obligations.BootVerdictIsReachedAndConfirmed : Prop :=
  (∀ (s : State) (rom : RomRun), s.phase = .run →
    (s.bootState ≠ 0 → exec (.bootRomRun rom) s = .next s)
    ∧ (s.bootState = 0 → ∃ t, exec (.bootRomRun rom) s = .next t ∧ t.pending = s.pending ∧ t.mem = s.mem ∧ t.tabs = s.tabs
        ∧ (rom.fuseOk = false → t.bootState = 4 ∧ t.alarm = true)
        ∧ (rom.fuseOk = true → rom.testOk = false → t.bootState = 3 ∧ t.alarm = true)
        ∧ (rom.fuseOk = true → rom.testOk = true → s.straps.testBit 1 = true → t.bootState = 2 ∧ t.alarm = true)
        ∧ (rom.fuseOk = true → rom.testOk = true → s.straps.testBit 1 = false →
            ((s.slotOrder = [] → t.bootState = 2 ∧ t.alarm = true)
            ∧ ∀ slot rest, s.slotOrder = slot :: rest →
                let b := s.senseFuses.put SEC_BOOT_STATUS_OCTAL_FAIL (!(rom.octalA && rom.octalB))
                if (b.trySlot slot).1 = 0 then
                  t.bootState = 1 ∧ t.rd SEC_BOOT_STATUS_SLOT = slot ∧ t.is SEC_BOOT_STATUS_FALLBACK = false
                    ∧ (s.udsLocked = false → t.image.slot = slot ∧ t.aliasKey = aliasOf ((b.trySlot slot).2.measure slot))
                    ∧ t.udsLocked = true ∧ t.deviceKey = 0 ∧ t.is SEC_SEAL_STATUS_KEY_READY = true
                    ∧ ∀ p, p ∈ allPages → t.is (PAGE_STATUS_READY p) = true
                else rest = [] → t.bootState = 2 ∧ t.alarm = true))))
  ∧ (∀ s : State, s.phase = .run →
    (s.firmware = true → s.startupOk = true → ∃ t, exec .fwConfirm s = .next t
      ∧ t.is SEC_BOOT_STATUS_CONFIRMED = true ∧ mapGet flashDflt t.flash (flashKey s.image.slot 13) = 0
      ∧ (∀ k, k ≠ flashKey s.image.slot 13 → mapGet flashDflt t.flash k = mapGet flashDflt s.flash k)
      ∧ t = { s with regs := t.regs, flash := t.flash } ∧ sameWords [SEC_BOOT_STATUS_at] s.toBox t.toBox)
    ∧ (s.firmware = false ∨ s.startupOk = false → exec .fwConfirm s = .next s))

/-- Fuse operations: the driver's command begins one where its conditions hold and the rail is present; from any other
requester it is ignored with the access-error indication. The end of the operation blows the bits, clears FUSE_BUSY and
raises SEC cause 2. The rail may come and go in every phase of the device; removing it ends an operation in progress, with
OWNER_MODE as it was. The model's own choices in it: log entry 127. -/
def Obligations.FuseOperationsBlowWhatTheyName : Prop :=
  (∀ s : State, takesWrite s .driver SEC_FUSE_CMD_at → s.fuseOp = none →
    (∀ value : BitVec 8, s.fuseRail = true → s.is SEC_BOOT_STATUS_CONFIRMED = true → s.fuses.svn < value.toNat →
      value.toNat ≤ s.rd SEC_BOOT_STATUS_SVN → value.toNat ≤ 128 →
      ∃ t, exec (.advanceSvn .driver value) s = .next t ∧ t.fuseOp = some (.advance value.toNat)
        ∧ t.is SEC_FUSE_STATUS_FUSE_BUSY = true ∧ t = { s with regs := t.regs, fuseOp := t.fuseOp }
        ∧ sameWords [SEC_FUSE_STATUS_at] s.toBox t.toBox
        ∧ ∃ u, exec .fuseOperationDone t = .next u ∧ u.fuses = { s.fuses with svn := value.toNat } ∧ u.fuseOp = none
          ∧ u.is SEC_FUSE_STATUS_FUSE_BUSY = false ∧ u.rd SEC_FUSE_STATUS_MIN_SVN = value.toNat
          ∧ u.is (pageFld secPage 16 2 1) = true)
    ∧ (s.fuseRail = true → s.fuses.ownerMode = false →
      ∃ t, exec (.setOwner .driver) s = .next t ∧ t.is SEC_FUSE_STATUS_FUSE_BUSY = true
        ∧ t = { s with regs := t.regs, fuseOp := t.fuseOp }
        ∧ ∃ u, exec .fuseOperationDone t = .next u ∧ u.fuses.ownerMode = true ∧ u.fuses.svn = s.fuses.svn
          ∧ s.fuses.owner &&& u.fuses.owner = s.fuses.owner ∧ u.is SEC_FUSE_STATUS_OWNER_MODE = true)
    ∧ (∀ src value, src ≠ .driver → ∃ t, exec (.advanceSvn src value) s = .next t ∧ exec (.setOwner src) s = .next t
        ∧ t = { s with regs := t.regs, outbox := t.outbox } ∧ t.is (PAGE_ERR_ACCERR secPage) = true
        ∧ sameWords (errorWords secPage) s.toBox t.toBox))
  ∧ ∀ s : State,
    (∀ present, s.fuseOp = none → exec (.fuseRailChange present) s
        = .next { s with fuseRail := present, regs := (s.put SEC_FUSE_STATUS_FUSE_RAIL present).regs })
    ∧ (s.fuseOp.isSome = true → ∃ t, exec (.fuseRailChange false) s = .next t ∧ t.fuseOp = none ∧ t.fuseRail = false
        ∧ t.is SEC_FUSE_STATUS_FUSE_BUSY = false ∧ t.fuses.ownerMode = s.fuses.ownerMode ∧ fusesKept s.fuses t.fuses)

/-- The commands of a firmware update through the registers. OPEN begins a session, erases the boot control record of the slot
that does not run, so that the slot is usable no more, and holds the path; WRITE, CLOSE and REVERT begin their work; ABORT
ends the session; ACTIVATE ends at once. A command out of place ends with its REASON: 16 for an OPEN of an open session,
17 without one, 19 for a REVERT with no slot to go back to; without firmware a command is ignored with the access-error
indication. PLDM carries the same update while firmware runs and the I3C port has its address: REQUEST_UPDATE is OPEN, and
REASON 16 while a command of a session runs, TRANSFER_COMPLETE puts the image in flash and begins CLOSE, VERIFY_COMPLETE
and APPLY_COMPLETE report how it stands, ACTIVATE_FIRMWARE is ACTIVATE and CANCEL_UPDATE ABORT. The model's own choices in
it: log entries 129, 131. -/
def Obligations.UpdateCommandsOpenAndFollowTheSession : Prop :=
  (∀ (s : State) (src : Requester), takesWrite s src SEC_FWUP_CMD_at → s.is SEC_FWUP_STATUS_BUSY = false →
    (s.firmware = false → ∃ t, exec (.fwupOpen src) s = .next t ∧ t.is (PAGE_ERR_ACCERR secPage) = true
      ∧ t = { s with regs := t.regs, outbox := t.outbox } ∧ sameWords (errorWords secPage) s.toBox t.toBox)
    ∧ (s.firmware = true → (∃ t, exec (.fwupOpen src) s = .next t ∧ if s.update.path = none
      then t.update = { path := some 0, op := some .openSlot } ∧ t.is SEC_FWUP_STATUS_BUSY = true
        ∧ t.is SEC_FWUP_STATUS_OPEN = true ∧ recUsable (t.bootRec t.otherSlot) = false
        ∧ t = { s with regs := t.regs, update := t.update, flash := mapClear s.flash (flashKey s.otherSlot 0) imageAt }
      else t.rd SEC_FWUP_STATUS_REASON = 16 ∧ t.update.path = s.update.path)
    ∧ (∀ piece : BitVec 10, ∃ t, exec (.fwupWrite src piece) s = .next t ∧ if s.update.path = some 0
      then t.update = { s.update with op := some (.write piece.toNat) } ∧ t.is SEC_FWUP_STATUS_BUSY = true
        ∧ t = { s with regs := t.regs, update := t.update }
      else t.rd SEC_FWUP_STATUS_REASON = 17)
    ∧ (∃ t, exec (.fwupClose src) s = .next t ∧ if s.update.path = some 0
      then t.update = { s.update with op := some (.close (s.rd SEC_FWUP_LEN_LENGTH)) } ∧ t.is SEC_FWUP_STATUS_BUSY = true
        ∧ t = { s with regs := t.regs, update := t.update }
      else t.rd SEC_FWUP_STATUS_REASON = 17)
    ∧ (∃ t, exec (.fwupRevert src) s = .next t ∧ if s.mayRevert = true
      then t.update = { s.update with op := some .revert } ∧ t.is SEC_FWUP_STATUS_BUSY = true
        ∧ t = { s with regs := t.regs, update := t.update }
      else t.rd SEC_FWUP_STATUS_REASON = 19)
    ∧ (∃ t, exec (.fwupAbort src) s = .next t ∧ t.flash = s.flash ∧ if s.update.path = some 0
      then t.update = {} ∧ t.is SEC_FWUP_STATUS_OPEN = false ∧ t.rd SEC_FWUP_STATUS_REASON = 0
      else t.rd SEC_FWUP_STATUS_REASON = 17)
    ∧ (∃ t, exec (.fwupActivate src false) s = .next t ∧ t.rd SEC_FWUP_STATUS_REASON = 0
        ∧ t.is SEC_FWUP_STATUS_DONE = true ∧ t.bootState = s.bootState ∧ t.flash = s.flash)
    ∧ (s.resetReq = none → ∃ t, exec (.fwupActivate src true) s = .next t ∧ t.bootState = 0 ∧ t.update = {}
        ∧ t.flash = s.flash)))
  ∧ (∀ s : State, s.phase = .run → s.i3cReady = true →
    (s.update.path ≠ none → s.is SEC_FWUP_STATUS_BUSY = true → ∃ t, exec .requestUpdate s = .next t
      ∧ t.rd SEC_FWUP_STATUS_REASON = 16 ∧ t.update = s.update ∧ t = { s with regs := t.regs, outbox := t.outbox })
    ∧ (s.update.path = none → s.is SEC_FWUP_STATUS_BUSY = false → ∃ t, exec .requestUpdate s = .next t
      ∧ t.update = { path := some 1, op := some .openSlot } ∧ t.is SEC_FWUP_STATUS_OPEN = true
      ∧ t.flash = mapClear s.flash (flashKey s.otherSlot 0) imageAt ∧ t.outbox = .reply (.pldmUpdate false (s.rd SEC_FWUP_STATUS_REASON))
          :: .reply (.pldmComponent 0x000A 0x0001 s.image.fwver 256) :: s.outbox)
    ∧ (∀ image : List Byte, image.length ≤ imageMax → s.update.path = some 1 → s.is SEC_FWUP_STATUS_BUSY = false →
        ∃ t, exec (.transferComplete true image) s = .next t ∧ t.update.op = some (.close image.length)
          ∧ t.is SEC_FWUP_STATUS_BUSY = true
          ∧ ∀ i, i < image.length → mapGet flashDflt t.flash (flashKey (1 - s.image.slot) (imageAt + i))
              = mapGet flashDflt s.flash (flashKey (1 - s.image.slot) (imageAt + i)) &&& image.getD i 0)
    ∧ (∃ t, exec .verifyComplete s = .next t ∧ exec .applyComplete s = .next t
        ∧ t = { s with outbox := .reply (.pldmUpdate (!s.is SEC_FWUP_STATUS_BUSY) (s.rd SEC_FWUP_STATUS_REASON)) :: s.outbox })
    ∧ (s.is SEC_FWUP_STATUS_BUSY = false → ∃ t, exec (.activateFirmware false) s = .next t
        ∧ t.rd SEC_FWUP_STATUS_REASON = 0 ∧ t.is SEC_FWUP_STATUS_DONE = true ∧ t.bootState = s.bootState
        ∧ t.flash = s.flash)
    ∧ (s.is SEC_FWUP_STATUS_BUSY = false → s.resetReq = none → ∃ t, exec (.activateFirmware true) s = .next t ∧ t.bootState = 0
        ∧ t.flash = s.flash)
    ∧ (s.update.path = some 1 → s.is SEC_FWUP_STATUS_BUSY = false → ∃ t, exec .cancelUpdate s = .next t ∧ t.update = {}
        ∧ t.is SEC_FWUP_STATUS_OPEN = false ∧ t.flash = s.flash))

/-- What an update command leaves when it finishes: OPEN erases the inactive slot, WRITE programs its piece from the window,
CLOSE writes the new boot record only where every piece is there and the image passes its checks, REVERT revokes the
running slot; every other flash byte stays. A flash error is REASON 20. The model's own choices in it: log entries 128,
129, 130. -/
def Obligations.UpdateCommandsFinish : Prop :=
  ∀ (s : State) (o : FwOp), s.phase = .run → s.update.op = some o →
    (∃ t, exec (.fwupCommandDone true) s = .next t ∧ t.rd SEC_FWUP_STATUS_REASON = 20 ∧ t.update.op = none)
    ∧ ∃ t, exec (.fwupCommandDone false) s = .next t ∧ t.update.op = none ∧ t.is SEC_FWUP_STATUS_BUSY = false
      ∧ t.is SEC_FWUP_STATUS_DONE = true ∧ t.is (pageFld secPage 16 0 1) = true
      ∧ t = { s with regs := t.regs, outbox := t.outbox, update := t.update, flash := t.flash }
      ∧ match o with
        | .openSlot => t.rd SEC_FWUP_STATUS_REASON = 0
            ∧ ∀ k, mapGet flashDflt t.flash k
                = if flashKey (1 - s.image.slot) 0 ≤ k ∧ k < flashKey (1 - s.image.slot) (imageAt + imageMax) then 0xFF
                  else mapGet flashDflt s.flash k
        | .write p => t.rd SEC_FWUP_STATUS_REASON = 0 ∧ p ∈ t.update.pieces
            ∧ ∀ k, let a := flashKey (1 - s.image.slot) (imageAt + 32768 * p)
                mapGet flashDflt t.flash k
                  = if a ≤ k ∧ k < a + 32768 then mapGet flashDflt s.flash k &&& s.fwupWindow.getD (k - a) 0
                    else mapGet flashDflt s.flash k
        | .close len =>
            if s.piecesOk len = true ∧ s.imageReason (1 - s.image.slot) len = 0
            then t.rd SEC_FWUP_STATUS_REASON = 0 ∧ t.update = {} ∧ t.is SEC_FWUP_STATUS_OPEN = false
              ∧ ∀ k, k < flashKey (1 - s.image.slot) 0 ∨ flashKey (1 - s.image.slot) 15 ≤ k →
                  mapGet flashDflt t.flash k = mapGet flashDflt s.flash k
            else t.rd SEC_FWUP_STATUS_REASON ≠ 0 ∧ t.flash = s.flash ∧ t.update.path = s.update.path
        | .revert => t.rd SEC_FWUP_STATUS_REASON = 0
            ∧ ∀ k, mapGet flashDflt t.flash k
                = if k = flashKey s.image.slot 14 then 0 else mapGet flashDflt s.flash k


/-! ### Memory (11_memory.md; 14_host_mgmt.md R412 to R414) -/

/-- Training, INIT and the end of initialisation: a trained device waits for INIT with its training over, one of another
organisation is excluded; INIT starts once every present device has trained; at its end the devices are ready, the tent
has its usable memory, and every region it initialises reads as zero. COMMIT puts the written region sizes in force where
no reason forbids it; otherwise it shows the reason, raises MEM cause 2 and leaves the plan; while one is being checked it
is ignored with the access-error indication. The model's own choices in it: log entries 62, 116, 117. -/
def Obligations.MemoryTrainsAndIsPlanned : Prop :=
  (∀ s : State, s.phase = .run →
    (∀ (d : BitVec 4) (tr : TrainResult), s.devState d.toNat < 2 → d.toNat ∉ s.trained →
      (tr.excluded = true → ∃ t, exec (.memTrainDone d tr) s = .next t ∧ t.devState d.toNat = 4
        ∧ t.is (MEM_PLAN_STATUS_SINGLE (d.toNat / 2)) = true ∧ t = { s with regs := t.regs })
      ∧ (tr.excluded = false → tr.ports = 15 → ∃ t, exec (.memTrainDone d tr) s = .next t ∧ t.waitsInit d.toNat = true
        ∧ t.devState d.toNat ≠ 1 ∧ t.rd (MEM_DEV_STATUS_PORT_OK (d.toNat / 2) (d.toNat % 2)) = 15 ∧ d.toNat ∈ t.trained
        ∧ t = { s with regs := t.regs, trained := t.trained }))
    ∧ (∀ (src : Requester) (t : TentIx), takesWrite s src (MEM_CTRL_at t.toNat) → t.toNat ∉ s.initing →
        let devs := [2 * t.toNat, 2 * t.toNat + 1].filter s.devPresent
        (devs.all fun d => s.devState d == 2 || s.trained.contains d) = true → (devs.any s.waitsInit) = true →
        exec (.memInit src t) s = .next { s with initing := t.toNat :: s.initing })
    ∧ ∀ t : TentIx, t.toNat ∈ s.initing → ∃ u, exec (.memInitDone t) s = .next u ∧ t.toNat ∉ u.initing
        ∧ (∀ d, d = 2 * t.toNat ∨ d = 2 * t.toNat + 1 → s.devPresent d = true → u.devState d = 2)
        ∧ u.rd (MEM_USABLE_MIB_MIB t.toNat) = usableMib ([2 * t.toNat, 2 * t.toNat + 1].filter s.devPresent).length
        ∧ (∀ k, k / 2 ^ 40 / 8 = t.toNat → s.memKept = false ∨ 2 ≤ k / 2 ^ 40 % 8 → mapGet memDflt u.mem k = memDflt k)
        ∧ (∀ k, k / 2 ^ 40 / 8 ≠ t.toNat ∨ (s.memKept = true ∧ k / 2 ^ 40 % 8 < 2) →
            mapGet memDflt u.mem k = mapGet memDflt s.mem k)
        ∧ (s.descs = [] → s.spills = [] →
            u = { s with regs := u.regs, mem := u.mem, badBlocks := u.badBlocks, plans := u.plans, initing := u.initing,
                         outbox := u.outbox }))
  ∧ (∀ (s : State) (src : Requester) (t : TentIx), takesWrite s src (MEM_PLAN_CMD_at t.toNat) →
    let sizes := (List.range 8).map fun r => s.rd (MEM_REGION_SIZE_MIB t.toNat r)
    (s.is (MEM_PLAN_STATUS_BUSY t.toNat) = true → ∃ u, exec (.memPlanCommit src t) s = .next u
      ∧ u.is (PAGE_ERR_ACCERR (memPage t.toNat)) = true ∧ u = { s with regs := u.regs, outbox := u.outbox }
      ∧ sameWords (errorWords (memPage t.toNat)) s.toBox u.toBox)
    ∧ (s.is (MEM_PLAN_STATUS_BUSY t.toNat) = false → s.planReason t.toNat sizes = 0 → ∃ u, exec (.memPlanCommit src t) s = .next u
      ∧ (∀ r, r < 8 → u.planSize t.toNat r = s.rd (MEM_REGION_SIZE_MIB t.toNat r)) ∧ u.mem = s.mem)
    ∧ (s.is (MEM_PLAN_STATUS_BUSY t.toNat) = false → s.planReason t.toNat sizes ≠ 0 → ∃ u, exec (.memPlanCommit src t) s = .next u
      ∧ u.rd (MEM_PLAN_STATUS_REASON t.toNat) = s.planReason t.toNat sizes ∧ u.is (MEM_PLAN_STATUS_REJECTED t.toNat) = true
      ∧ u.is (pageFld (memPage t.toNat) 16 2 1) = true ∧ u = { s with regs := u.regs, outbox := u.outbox }
      ∧ sameWords ((MEM_PLAN_STATUS_REASON t.toNat).addr :: causeWords (memPage t.toNat)) s.toBox u.toBox))

/-- A refresh slot counts in MEM_REF_CNT and the accesses that waited for it in MEM_REF_STALL; uncorrectable errors count too
and raise MEM cause 0, and a block that cannot be corrected stays uncorrectable. HOT follows the device's report, with MEM
cause 3 when it becomes set. The host's memory window, while the CXL link is up: a read returns the block's bytes where a
copy reads correctly, a seal record's block as zeros with poison set where none does, zeros where nothing is mapped, and
waits while its region is under rebuild; a write changes no memory and is counted. A memory device that fails reads STATE
3 and its tent SINGLE, with MEM cause 0; where the other device is ready the tent goes on with half the memory and
rebuilds, the interleaved regions 3 to 7 lost and regions 0 to 2 and every other tent's memory kept. The rebuild's end
clears REBUILD with MEM cause 1 and logs the event. The model's own choices in it: log entries 116, 118, 119, 120. -/
def Obligations.MemoryIsRefreshedReadAndKept : Prop :=
  (∀ s : State, s.phase = .run →
    (∀ (t : TentIx) (port : Reg3) (row : BitVec 24), s.devState (2 * t.toNat + port.toNat / 4) = 2 →
      (∀ (n : Nat) (held : List MemItem), ∃ u, exec (.refreshSlot t port row ⟨0, 0, n, held⟩) s = .next u
        ∧ u.ctr (memPage t.toNat) (5 * port.toNat + 2) = s.ctr (memPage t.toNat) (5 * port.toNat + 2) + 1
        ∧ u.ctr (memPage t.toNat) (5 * port.toNat + 3) = s.ctr (memPage t.toNat) (5 * port.toNat + 3) + BitVec.ofNat 64 n
        ∧ (∀ p i, p * 4096 + i ∉ [2, 3].map (fun j => memPage t.toNat * 4096 + (5 * port.toNat + j)) → u.ctr p i = s.ctr p i)
        ∧ u = { s with regs := u.regs, ctrs := u.ctrs, outbox := u.outbox })
      ∧ (∀ (work : RefreshWork) (r off : Nat), work.uncorr ≠ 0 → work.held = [.block r off] →
          ∃ u, exec (.refreshSlot t port row work) s = .next u
            ∧ (2 * t.toNat + port.toNat / 4, memKey t.toNat r (off - off % 64)) ∈ u.badBlocks ∧ u.mem = s.mem)
      ∧ ∀ work : RefreshWork, work.uncorr ≠ 0 → work.held = [] → ∃ u, exec (.refreshSlot t port row work) s = .next u
        ∧ u.ctr (memPage t.toNat) (5 * port.toNat) = s.ctr (memPage t.toNat) (5 * port.toNat) + BitVec.ofNat 64 work.corr
        ∧ u.ctr (memPage t.toNat) (5 * port.toNat + 1)
            = s.ctr (memPage t.toNat) (5 * port.toNat + 1) + BitVec.ofNat 64 work.uncorr
        ∧ u.is (pageFld (memPage t.toNat) 16 0 1) = true
        ∧ u = { s with regs := u.regs, ctrs := u.ctrs, outbox := u.outbox, spares := u.spares })
    ∧ ∀ (d : BitVec 4) (hot : Bool), ∃ u, exec (.memDeviceHot d hot) s = .next u
        ∧ u.is (MEM_DEV_STATUS_HOT (d.toNat / 2) (d.toNat % 2)) = hot
        ∧ (hot = true → s.is (MEM_DEV_STATUS_HOT (d.toNat / 2) (d.toNat % 2)) = false →
            u.is (pageFld (memPage (d.toNat / 2)) 16 3 1) = true)
        ∧ u = { s with regs := u.regs, outbox := u.outbox }
        ∧ sameWords ((MEM_DEV_STATUS_HOT (d.toNat / 2) (d.toNat % 2)).addr :: causeWords (memPage (d.toNat / 2))) s.toBox u.toBox)
  ∧ ((∀ (s : State) (dpa : BitVec 36), s.phase = .run → s.reaches .driver = true →
    let a := dpa.toNat - dpa.toNat % 64
    (s.winPlace a = none → ∀ bad,
      exec (.hostMemRead dpa bad) s = .next { s with outbox := .memData a (List.replicate 64 0) false :: s.outbox })
    ∧ (∀ (bad : BitVec 2) t r off, s.winPlace a = some (t, r, off) → s.hostWaits dpa.toNat = false → off < s.regionBytes t r →
        let fails := fun c => bad.toNat.testBit c || s.badBlocks.contains (2 * t + c, memKey t r off)
        ((s.holders t r off) ≠ [] → (s.holders t r off).all (fun c => !fails c) = true →
          exec (.hostMemRead dpa bad) s = .next { s with outbox := .memData a (s.memRead t r off 64) false :: s.outbox })
        ∧ ((s.holders t r off).any (fun c => !fails c) = true → ∃ u, exec (.hostMemRead dpa bad) s = .next u
            ∧ u.outbox.head? = some (.memData a (s.memRead t r off 64) false) ∧ u.mem = s.mem)
        ∧ ((s.holders t r off).all fails = true → r = 0 → ∃ u, exec (.hostMemRead dpa bad) s = .next u
            ∧ u.outbox.head? = some (.memData a (List.replicate 64 0) true) ∧ u.mem = s.mem))
    ∧ (s.hostWaits dpa.toNat = true → ∀ bad : BitVec 2,
        exec (.hostMemRead dpa bad) s = .next { s with hostReads := s.hostReads ++ [(dpa.toNat, bad.toNat)] })
    ∧ ∀ data, ∃ u, exec (.hostMemWrite dpa data) s = .next u ∧ u.ctr cxlPage 1 = s.ctr cxlPage 1 + 1
        ∧ u = { s with regs := u.regs, ctrs := u.ctrs, outbox := u.outbox } ∧ u.outbox.head? = some (.memAck dpa.toNat))
  ∧ (∀ s : State, s.phase = .run →
    (∀ d : BitVec 4, s.devPresent d.toNat = true → s.devState (otherDev d.toNat) = 2 →
      s.rd (MEM_USABLE_MIB_MIB (d.toNat / 2)) ≠ 0 → ∃ u, exec (.memDeviceFail d) s = .next u ∧ u.devState d.toNat = 3
        ∧ u.devState (otherDev d.toNat) = 2 ∧ u.is (MEM_PLAN_STATUS_SINGLE (d.toNat / 2)) = true
        ∧ u.rd (MEM_USABLE_MIB_MIB (d.toNat / 2)) = 66252 ∧ u.rebuilding (d.toNat / 2) = true
        ∧ u.is (pageFld (memPage (d.toNat / 2)) 16 0 1) = true ∧ d.toNat ∈ u.deadDevs
        ∧ u.cxlLog = s.cxlLog ++ [.deviceFail d.toNat, .rebuildStart (d.toNat / 2)]
        ∧ ∀ k, mapGet memDflt u.mem k
            = if k / 2 ^ 40 / 8 = d.toNat / 2 ∧ 3 ≤ k / 2 ^ 40 % 8 then memDflt k else mapGet memDflt s.mem k)
    ∧ ∀ t : TentIx, s.rebuilding t.toNat = true → s.hostReads = [] → ∃ u, exec (.memRebuildDone t) s = .next u
        ∧ u.rebuilding t.toNat = false ∧ u.is (pageFld (memPage t.toNat) 16 1 1) = true
        ∧ u.cxlLog = s.cxlLog ++ [.rebuildEnd t.toNat] ∧ u.mem = s.mem))


/-! ### Register accesses, counters and interrupts (00_scope.md, 13_counters.md, 14_host_mgmt.md, 16_registers.md) -/

/-- A register access by its requester, size, place and page, once the requester reaches the device. A write of a register
without a rule of its own sets RW bits, clears W1C bits written as 1, leaves the others and marks a reserved bit; a read
returns the word and changes nothing; a copy of a tent-0 register is read-only; two words of 64 bits go lower word first.
A page that is not READY ignores a write with the access-error indication, and so does any misaligned or wrongly sized
access of a mapped page; an access to a slot that holds no page is counted, its offset latched and CXL cause 1 raised. The
BARs of configuration space take their address bits. A BAR2 write stages the words of a table entry in order, over as many
commands as they take, and commits the entry, under the checks of its register path, with its last word; a write that does
not go on with it discards what is staged and is counted. The model's own choices in it: log entries 16, 19, 27, 172. -/
def Obligations.RegisterAndTableAccesses : Prop :=
  (∀ (s : State) (src : Requester), s.phase = .run → s.reaches src = true →
    (∀ (addr : BitVec 28) (data : BitVec 64) (r : RegAt), addr.toNat % 4 = 0 → s.place addr.toNat = .reg addr.toNat →
        regAt addr.toNat = some r → r.id ∈ plainRegs → s.is (PAGE_STATUS_READY (addrPage addr.toNat)) = true →
        let v := data.toNat % 2 ^ 32
        let m := maskAt addr.toNat
        let p := addrPage addr.toNat
        (∃ t, exec (.registerWrite src (.bar0 addr) 4 data) s = .next t ∧ t = { s with regs := t.regs, outbox := t.outbox }
          ∧ (∀ i, i < 32 → (t.word addr.toNat).getLsbD i
              = if tentZero r.id = true ∧ r.die ≠ 0 then (s.word addr.toNat).getLsbD i
                else if m.rw.testBit i then v.testBit i
                else ((s.word addr.toNat).getLsbD i && !(m.w1c.testBit i && v.testBit i)))
          ∧ (if bitsOut v m.known = 0 then sameWords [addr.toNat] s.toBox t.toBox
             else t.is (PAGE_ERR_RSVW p) = true ∧ sameWords (addr.toNat :: errorWords p) s.toBox t.toBox))
        ∧ exec (.registerRead src (.bar0 addr) 4) s = .next { s with
            outbox := .readData src [s.word (if tentZero r.id then tentZeroAt addr.toNat else addr.toNat)] :: s.outbox })
    ∧ (∀ data : BitVec 64, s.is (PAGE_STATUS_READY tgtPage) = true →
        (∃ t, exec (.registerWrite src (.bar0 (BitVec.ofNat 28 TGT_SET_LO_at)) 8 data) s = .next t
          ∧ t.word TGT_SET_LO_at = BitVec.ofNat 32 data.toNat ∧ t.word TGT_SET_HI_at = BitVec.ofNat 32 (data.toNat / 2 ^ 32)
          ∧ t = { s with regs := t.regs } ∧ sameWords [TGT_SET_LO_at, TGT_SET_HI_at] s.toBox t.toBox)
        ∧ exec (.registerRead src (.bar0 (BitVec.ofNat 28 TGT_SET_LO_at)) 8) s
          = .next { s with outbox := .readData src [s.word TGT_SET_LO_at, s.word TGT_SET_HI_at] :: s.outbox })
    ∧ (∀ (addr : BitVec 28) (data : BitVec 64) (r : RegAt), addr.toNat % 4 = 0 → s.place addr.toNat = .reg addr.toNat →
        regAt addr.toNat = some r → 0x100 ≤ addr.toNat % 0x10000 → s.is (PAGE_STATUS_READY (addrPage addr.toNat)) = false →
        ∃ t, exec (.registerWrite src (.bar0 addr) 4 data) s = .next t
          ∧ t.is (PAGE_ERR_ACCERR (addrPage addr.toNat)) = true ∧ t = { s with regs := t.regs, outbox := t.outbox }
          ∧ sameWords (errorWords (addrPage addr.toNat)) s.toBox t.toBox)
    ∧ (∀ (addr : BitVec 28) (size : Nat) (data : BitVec 64), addr.toNat < 0x9000000 →
        (pageNcnt (addrPage addr.toNat)).isSome = true → addr.toNat / 0x10000 ∉ [0xF0, 0xF1, 0xF2] →
        ¬ (size = 4 ∧ addr.toNat % 4 = 0) → ¬ (size = 8 ∧ addr.toNat % 8 = 0) →
        (∃ t, exec (.registerWrite src (.bar0 addr) size data) s = .next t
          ∧ t.is (PAGE_ERR_ACCERR (addrPage addr.toNat)) = true ∧ t = { s with regs := t.regs, outbox := t.outbox }
          ∧ sameWords (errorWords (addrPage addr.toNat)) s.toBox t.toBox)
        ∧ ∃ t, exec (.registerRead src (.bar0 addr) size) s = .next t ∧ t.is (PAGE_ERR_ACCERR (addrPage addr.toNat)) = true
          ∧ t.outbox.head? = some (.readData src (onesRead size)))
    ∧ (∀ (addr : BitVec 28) (data : BitVec 64), (pageNcnt (addrPage addr.toNat)).isNone = true →
        addr.toNat / 0x10000 ∉ [0xF0, 0xF1, 0xF2] → addr.toNat % 4 = 0 →
        ∃ t, exec (.registerWrite src (.bar0 addr) 4 data) s = .next t ∧ t.ctr cxlPage 0 = s.ctr cxlPage 0 + 1
          ∧ t.rd CXL_UNMAPPED_ADDR_ADDR = addr.toNat ∧ t.is (pageFld cxlPage 16 1 1) = true
          ∧ t = { s with regs := t.regs, ctrs := t.ctrs, outbox := t.outbox }))
  ∧ (∀ (s : State) (data : BitVec 64), s.phase = .run → s.reaches .driver = true →
    (∃ t, exec (.registerWrite .driver (.config 0x10) 4 data) s = .next t ∧ t = { s with regs := t.regs, cfg := t.cfg }
      ∧ t.cfgRead 0x10 = (BitVec.ofNat 32 data.toNat &&& 0xF0000000) ||| 4)
    ∧ (∃ t, exec (.registerWrite .driver (.config 0x20) 4 data) s = .next t ∧ t.cfgRead 0x20 = 0)
    ∧ exec (.registerRead .driver (.config 0) 4) s = .next { s with outbox := .readData .driver [s.cfgRead 0] :: s.outbox })
  ∧ (∀ (s : State) (src : Requester) (addr : BitVec 32) (tb : Table) (n : Nat) (w : Word) (ws : List Word), s.phase = .run →
    s.reaches src = true →
    addr.toNat % 4 = 0 → bar2Entry addr.toNat = some (tb, addr.toNat, n) →
    (s.bar2 = none → 0 < ws.length → ws.length < n →
      exec (.bar2Write src addr ws) s = .next { s with bar2 := some (addr.toNat, ws) })
    ∧ (s.bar2 = none → ws.length = n → exec (.bar2Write src addr ws) s = .next (s.onBox fun b => b.tableCommit src tb ws))
    ∧ (∀ old : List Word, s.bar2 = some (addr.toNat, old) → 0 < old.length → old.length < n →
        let at_ : BitVec 32 := addr + BitVec.ofNat 32 (4 * old.length)
        (old.length + ws.length < n →
          exec (.bar2Write src at_ ws) s = .next { s with bar2 := some (addr.toNat, old ++ ws) })
        ∧ (old.length + ws.length = n → exec (.bar2Write src at_ ws) s
            = .next (s.onBox fun b => Box.tableCommit { b with bar2 := none } src tb (old ++ ws))))
    ∧ (∀ (e : Nat) (old : List Word), s.bar2 = some (e, old) → e ≠ addr.toNat → 1 < n →
        ∃ t, exec (.bar2Write src addr [w]) s = .next t ∧ t.bar2 = some (addr.toNat, [w])
          ∧ t.ctr cxlPage 2 = s.ctr cxlPage 2 + 1 ∧ t.tabs = s.tabs))

/-- A read of a counter's lo word returns its low half and latches the whole value; a read of its hi word returns the upper
half as latched, whatever the counter has become. CLEAR sets every live counter of its page to 0 and leaves other pages'
counters and every shadow copy; SNAP starts the copy of a page's counters with BUSY, as they were before a CLEAR of the
same tick, and its end shows the copy with VALID and the tick of the request. The model's own choices in it: log entries
18, 37, 150. -/
def Obligations.CountersReadSnapAndClear : Prop :=
  (∀ (s : State) (src : Requester) (addr : BitVec 28), s.phase = .run → s.reaches src = true →
    let p := addrPage addr.toNat
    let i := ctrIndex (addr.toNat % 0x10000)
    (ctrAddr addr 0 = true → exec (.counterLoRead src addr) s
      = .next { s with hiLatch := mapSet (fun _ => 0) s.hiLatch (p * 4096 + i) (s.ctrView p i),
                       outbox := .readData src [BitVec.ofNat 32 (s.ctrView p i).toNat] :: s.outbox })
    ∧ (ctrAddr addr 4 = true → s.is (PAGE_STATUS_READY p) = true → ∀ v : BitVec 64,
        mapGet (fun _ => 0) s.hiLatch (p * 4096 + i) = v →
        exec (.counterHiRead src addr) s
          = .next { s with outbox := .readData src [BitVec.ofNat 32 (v.toNat / 2 ^ 32)] :: s.outbox }))
  ∧ (∀ (s : State) (src : Requester) (page : BitVec 12), s.phase = .run → s.reaches src = true →
    hasCounters page.toNat = true →
    let p := page.toNat
    (s.is (PAGE_STATUS_READY p) = true → ∃ t, exec (.cntClear src page) s = .next t
      ∧ (∀ i, i < 4096 → t.ctr p i = 0)
      ∧ (∀ k, k < p * 4096 ∨ p * 4096 + 4096 ≤ k → mapGet (fun _ => 0) t.ctrs k = mapGet (fun _ => 0) s.ctrs k)
      ∧ t.shadows = s.shadows
      ∧ t = { s with regs := t.regs, ctrs := t.ctrs, outbox := t.outbox, ports := t.ports, preClear := t.preClear, clearAt := t.clearAt })
    ∧ (s.is (PAGE_STATUS_READY p) = true → s.is (CNT_CTRL_SRC p) = false → s.is (CNT_STATUS_BUSY p) = false →
        ∃ t, exec (.cntSnap src page) s = .next t ∧ t.is (CNT_STATUS_BUSY p) = true
          ∧ (mapGet (fun _ => 0) s.clearAt p ≠ s.raw + 1 →
              t.copying = replaceCounters s.copying (pageCounters s.ctrs p) p)
          ∧ (mapGet (fun _ => 0) s.clearAt p = s.raw + 1 →
              t.copying = replaceCounters s.copying (pageCounters s.preClear p) p)
          ∧ mapGet (fun _ => 0) t.copyTick p = s.pageTick p ∧ t.ctrs = s.ctrs ∧ t.shadows = s.shadows)
    ∧ (s.is (CNT_STATUS_BUSY p) = true → ∃ t, exec (.snapshotDone page) s = .next t
        ∧ t.is (CNT_STATUS_BUSY p) = false ∧ t.is (CNT_STATUS_VALID p) = true
        ∧ t.shadows = replaceCounters s.shadows (pageCounters s.copying p) p ∧ t.ctrs = s.ctrs
        ∧ t.rd (CNT_SNAP_LO p) + t.rd (CNT_SNAP_HI p) * 2 ^ 32 = mapGet (fun _ => 0) s.copyTick p % 2 ^ 64))

/-- INT_FORCE sets exactly the causes written, reserved ones excepted; a write of INT_EN replaces it and a write of INT_PEND
clears the causes written as 1; neither touches any other register but the vector's pending bit. The model's own choices
in it: log entries 4, 20, 21. -/
def Obligations.InterruptRegistersSetAndClear : Prop :=
  ∀ (s : State) (src : Requester) (page : BitVec 12) (value : Word), s.phase = .run → s.reaches src = true →
    (pageNcnt page.toNat).isSome = true →
    let p := page.toNat
    (∃ t, exec (.intForce src page value) s = .next t ∧ t = { s with regs := t.regs, outbox := t.outbox }
      ∧ (∀ i, i < 32 → t.is (pageFld p 16 i 1)
          = (s.is (pageFld p 16 i 1) || (value.toNat.testBit i && (pageIntMask p).testBit i)))
      ∧ sameWords (causeWords p) s.toBox t.toBox)
    ∧ (∃ t, exec (.intEnWrite src page false value) s = .next t ∧ t.word (pageBase p + 20) = value
        ∧ t = { s with regs := t.regs, outbox := t.outbox }
        ∧ sameWords [pageBase p + 20, 0xF28000 + 4 * (pageVector p / 32)] s.toBox t.toBox)
    ∧ (bitsOut value.toNat (pageIntMask p) = 0 →
        ∃ t, exec (.intEnWrite src page true value) s = .next t ∧ t = { s with regs := t.regs, outbox := t.outbox }
          ∧ (∀ i, i < 32 → t.is (pageFld p 16 i 1) = (s.is (pageFld p 16 i 1) && !value.toNat.testBit i))
          ∧ sameWords (causeWords p) s.toBox t.toBox)

/-! ### Fatal conditions and the guaranteed corner (01_architecture.md, 12_faults.md, 17_electrical_package.md) -/

/-- A fatal condition stops the device, freezes every page, records its cause and begins the dump unless no core is left or a
dump waits for its acknowledgement; the watchdog and the driver's order are causes 6 and 7; a further one is recorded
while the dump is written, and the loss of every core then ends it without a dump. The end of a dump sets DONE, raises MGT
cause 2, drives the alarm and advances DUMPSEQ; DUMP_ACK releases it, so that the next fatal condition is dumped again.
The model's own choices in it: log entries 124, 125. -/
def Obligations.FatalConditionsStopAndDump : Prop :=
  (∀ s : State,
    (s.phase = .run → ∀ cause : FatalCause,
      ∃ t, exec (.fatalCondition cause) s = .next t ∧ t.phase = .failStopped ∧ t.rd MGT_DUMP_STATUS_CAUSE = fatalCode cause
        ∧ (∀ p, p ∈ allPages → t.is (PAGE_STATUS_FROZEN p) = true) ∧ t.dump.cause = fatalCode cause ∧ t.dump.ftick = s.nowTick
        ∧ t.dump.raw = s.raw
        ∧ (cause = .cores → t.is MGT_DUMP_STATUS_NODUMP = true ∧ t.alarm = true)
        ∧ (cause ≠ .cores → s.dump.held = true → t.is MGT_DUMP_STATUS_SKIPPED = true)
        ∧ (cause ≠ .cores → s.dump.held = false → t.is MGT_DUMP_STATUS_WRITING = true)
        ∧ t.mem = s.mem ∧ t.tabs = s.tabs ∧ t.ctrs = s.ctrs)
    ∧ (s.phase = .failStopped → s.is MGT_DUMP_STATUS_WRITING = true → ∀ cause : FatalCause,
        ∃ t, exec (.fatalCondition cause) s = .next t ∧ t.rd MGT_DUMP_STATUS_CAUSE = fatalCode cause
          ∧ t.dump = { s.dump with add := fatalCode cause }
          ∧ t.is MGT_DUMP_STATUS_WRITING = decide (cause ≠ .cores)
          ∧ (cause = .cores → t.is MGT_DUMP_STATUS_NODUMP = true ∧ t.alarm = true)
          ∧ t = { s with regs := t.regs, dump := t.dump, alarm := t.alarm } ∧ sameWords [MGT_DUMP_STATUS_at] s.toBox t.toBox)
    ∧ (s.phase = .run → s.bootState = 1 → ∃ t, exec .watchdogExpire s = .next t ∧ t.phase = .failStopped
        ∧ t.rd MGT_DUMP_STATUS_CAUSE = 6)
    ∧ (∀ src : Requester, takesWrite s src MGT_DUMP_CMD_at → ∃ t, exec (.dumpFatalOrder src) s = .next t ∧ t.phase = .failStopped
        ∧ t.rd MGT_DUMP_STATUS_CAUSE = 7)
    ∧ ∀ core : Fin 5, s.phase = .run → core.toNat ∉ s.cores →
        ∃ t, exec (.coreFail core) s = .next t ∧ t.cores = core.toNat :: s.cores
          ∧ (s.cores.length = 4 → t.phase = .failStopped ∧ t.rd MGT_DUMP_STATUS_CAUSE = 4)
          ∧ (s.cores.length < 4 → t.phase = .run ∧ t.is (pageFld mgtPage 16 1 1) = true))
  ∧ (∀ s : State, s.phase = .run ∨ s.phase = .failStopped →
    (∀ core log : List Byte, s.is MGT_DUMP_STATUS_WRITING = true → s.firmware = true →
      ∃ t, exec (.dumpDone core log) s = .next t ∧ t.is MGT_DUMP_STATUS_DONE = true ∧ t.is MGT_DUMP_STATUS_WRITING = false
        ∧ t.alarm = true ∧ t.dump.seq = s.dump.seq + 1 ∧ t.dump.held = true ∧ t.is (pageFld mgtPage 16 2 1) = true
        ∧ t = { s with regs := t.regs, outbox := t.outbox, mem := t.mem, badBlocks := t.badBlocks, alarm := true, dump := t.dump })
    ∧ ∀ src : Requester, s.reaches src = true → s.is (PAGE_STATUS_READY mgtPage) = true →
        exec (.dumpAck src) s = .next { s with dump := { s.dump with held := false } })

/-- A UCIe module is removed from its tent link: MODULES falls by one, DEGRADED is set, UNFIT with 30 or fewer left, and MDW
cause 0 is raised. Leaving and entering the guaranteed corner sets and clears BELOW_GUARANTEE with PWR causes 0 and 1, and
an excursion is counted once. A junction above 105 °C leaves the corner; one at 120 °C trips the device: both alarm pins,
every laser enable low, every shutter closed. The model's own choices in it: log entries 60, 126, 134. -/
def Obligations.OperatingPointIsWatched : Prop :=
  ∀ s : State, s.phase = .run →
    (∀ t : TentIx, s.rd (MDW_LINK_STATUS_MODULES t.toNat) ≠ 0 → ∃ u, exec (.ucieModuleFail t) s = .next u
      ∧ u.rd (MDW_LINK_STATUS_MODULES t.toNat) + 1 = s.rd (MDW_LINK_STATUS_MODULES t.toNat)
      ∧ u.is (MDW_LINK_STATUS_DEGRADED t.toNat) = true
      ∧ u.is (MDW_LINK_STATUS_UNFIT t.toNat) = decide (u.rd (MDW_LINK_STATUS_MODULES t.toNat) ≤ 30)
      ∧ u.is (pageFld mdwPage 16 0 1) = true ∧ u.is (pageFld mgtPage 16 1 1) = true)
    ∧ (∀ (mv : BitVec 16) (die : DieIx) (tj : BitVec 16),
        ∃ u, exec (.envExcursionStart mv die tj) s = .next u ∧ exec (.envExcursionEnd mv die tj) s = .next u
        ∧ if mv.toNat < 550 ∨ 850 < mv.toNat then u.phase = .held ∧ u.rd (PWR_RAIL_MV 0) = mv.toNat
        else if 960 ≤ toSigned 16 tj.toNat then u.phase = .tripped ∧ u.trip = true ∧ u.alarm = true
        else u.rd (PWR_RAIL_MV 0) = mv.toNat ∧ u.rd (PWR_TJ_TJ die.toNat) = tj.toNat
          ∧ u.is PWR_ENV_STATUS_RAIL_LOW = decide (mv.toNat < 620)
          ∧ (u.is PWR_ENV_STATUS_BELOW_GUARANTEE = (u.is PWR_ENV_STATUS_RAIL_LOW || u.is PWR_ENV_STATUS_TJ_HIGH))
          ∧ (s.is PWR_ENV_STATUS_BELOW_GUARANTEE = false → u.is PWR_ENV_STATUS_BELOW_GUARANTEE = true →
              u.ctr pwrPage 0 = s.ctr pwrPage 0 + 1 ∧ u.is (pageFld pwrPage 16 0 1) = true)
          ∧ (s.is PWR_ENV_STATUS_BELOW_GUARANTEE = true → u.is PWR_ENV_STATUS_BELOW_GUARANTEE = false →
              u.is (pageFld pwrPage 16 1 1) = true)
          ∧ u = { s with regs := u.regs, ctrs := u.ctrs, outbox := u.outbox })
    ∧ ∀ (die : DieIx) (tj : BitVec 16),
        if toSigned 16 tj.toNat < 960 then
          ∃ u, exec (.thermalTrip die tj) s = .next u ∧ u.rd (PWR_TJ_TJ die.toNat) = tj.toNat ∧ u.phase = .run
            ∧ (840 < toSigned 16 tj.toNat → u.is PWR_ENV_STATUS_TJ_HIGH = true ∧ u.is PWR_ENV_STATUS_BELOW_GUARANTEE = true)
            ∧ u = { s with regs := u.regs, ctrs := u.ctrs, outbox := u.outbox }
        else ∃ u, exec (.thermalTrip die tj) s = .next u ∧ u.phase = .tripped ∧ u.trip = true ∧ u.alarm = true
          ∧ (∀ e, e ∈ u.engines → e.2.elm = false) ∧ (∀ e, e ∈ u.aprs → e.2.open_ = false) ∧ u.mem = s.mem
          ∧ u.tabs = s.tabs

/-! ### Itzal links (02_itzal_link.md) -/

/-- RETRY_REQ rewinds to the SEQ it names where the retry buffer holds it, counted in LNK_RETRY_CNT, and is counted in
LNK_PROTO_ERR where it does not; an own RETRY_REQ that has left without its flit coming is repeated after LNK_RTT plus 256
tk; a planned pause of the partner and its RESUME suspend and restart the link. A flit that passes its CRC with the
expected SEQ is accepted once: the expected SEQ advances and no RETRY_REQ stays out. One that fails, or does not come on
the wavelength of its slot's lane, advances nothing and a RETRY_REQ for the expected SEQ is out. A lane marker that agrees
restores its wavelength and is kept. The model's own choices in it: log entries 38, 39, 41, 152. -/
def Obligations.FlitsRetryAndPauseInSequence : Prop :=
  (∀ (s : State) (p : Slot), s.phase = .run → s.up p.toNat = true →
    let x := s.port p.toNat
    (∀ seq : BitVec 16, s.isPort p.toNat = true →
      ((x.retry.any fun f => f.seq == seq.toNat) = true → ∃ t, exec (.retryReq p seq) s = .next t
        ∧ t.ctr (lnkPage (p.toNat / 256)) (p.toNat % 256) = s.ctr (lnkPage (p.toNat / 256)) (p.toNat % 256) + 1
        ∧ t = { s with ports := (s.setPort p.toNat { x with resend := some seq.toNat }).ports,
                       ctrs := t.ctrs, regs := t.regs, outbox := t.outbox })
      ∧ ((x.retry.any fun f => f.seq == seq.toNat) = false → ∃ t, exec (.retryReq p seq) s = .next t
        ∧ t.ctr (lnkPage (p.toNat / 256)) (256 + p.toNat % 256) = s.ctr (lnkPage (p.toNat / 256)) (256 + p.toNat % 256) + 1
        ∧ t = { s with ctrs := t.ctrs, regs := t.regs, outbox := t.outbox }))
    ∧ (∀ n at_, x.rrOut = some (n, at_) → (x.ctlQ.any fun m => beAt m 0 1 == 1) = false → x.pauseTx = none →
        x.inWindow = false → x.aligning = false → n < 8 → at_ + s.rd (LNK_RTT_RTT p.toNat) / 32 + 256 ≤ s.raw →
        exec (.retryReqRepeat p) s = .next { s with ports :=
          (s.setPort p.toNat { x with rrOut := some (n + 1, s.raw), ctlQ := ctlFirst x.ctlQ (msgRetryReq x.rxSeq) }).ports })
    ∧ (2 ≤ s.minor p.toNat → ∀ len : BitVec 24, ∃ t, exec (.pause p len) s = .next t
        ∧ t.is (LNK_PORT_STATUS_PAUSED p.toNat) = true
        ∧ t = { s with regs := t.regs, outbox := t.outbox, ports :=
            (s.setPort p.toNat { x with 
              pauseRx := some (s.raw + len.toNat + 5120), pendTx := none, pendRx := none, ctlQ := dropLaneReq x.ctlQ }).ports }
        ∧ sameWords (LNK_PORT_STATUS_at p.toNat :: CAL_SCHED_STATUS_at p.toNat :: causeWords (calPage (p.toNat / 256)))
            s.toBox t.toBox)
    ∧ (2 ≤ s.minor p.toNat → x.pauseRx ≠ none → ∃ t, exec (.resume p) s = .next t
        ∧ t = { s with regs := t.regs, ports :=
            (s.setPort p.toNat { x with
              pauseRx := none, txSlot := 0, rxSlot := 1, lastGood := s.raw,
              ctlQ := ctlFirst x.ctlQ (msgRetryReq x.rxSeq) }).ports }
        ∧ sameWords [LNK_PORT_STATUS_at p.toNat] s.toBox t.toBox))
  ∧ (∀ (s : State) (p : Slot) (rx : FlitRx), s.phase = .run → s.isPort p.toNat = true → s.up p.toNat = true → rx.wf = true →
    let x := s.port p.toNat
    x.inWindow = false → x.aligning = false →
    (rx.fecBad = false → flCrcOk rx.bytes = true → flType rx.bytes = 0 → flSeq rx.bytes = x.rxSeq →
      rx.wl.toNat = (s.rxLanes p.toNat).getD (x.rxSlot % max 1 (s.rxLanes p.toNat).length) 7 →
      ∃ t, exec (.flitReceive p rx) s = .next t ∧ (t.port p.toNat).rxSeq = (x.rxSeq + 1) % 65536
        ∧ (t.port p.toNat).rrOut = none ∧ (t.port p.toNat).lastGood = s.raw
        ∧ (t.port p.toNat).rxSlot = (x.rxSlot + 1) % 2 ^ 32)
    ∧ (rx.fecBad = true ∨ flCrcOk rx.bytes = false
        ∨ rx.wl.toNat ≠ (s.rxLanes p.toNat).getD (x.rxSlot % max 1 (s.rxLanes p.toNat).length) 7 → flType rx.bytes = 0 → ∃ t, exec (.flitReceive p rx) s = .next t
        ∧ (t.port p.toNat).rxSeq = x.rxSeq ∧ (t.port p.toNat).landed = x.landed ∧ (t.port p.toNat).rrOut ≠ none
        ∧ (x.rrOut = none → (t.port p.toNat).ctlQ = ctlFirst x.ctlQ (msgRetryReq x.rxSeq))
        ∧ (t.port p.toNat).rxSlot = (x.rxSlot + 1) % 2 ^ 32)
    ∧ ∀ m : LaneMarker, s.is (LNK_PORT_STATUS_TRAINING p.toNat) = false → m.skewPs ≤ 160000 →
        m.afterGap = false ∨ m.ctr.toNat = x.rxSlot →
        exec (.laneMarkerReceive p m) s = .next { s with ports := (s.setPort p.toNat { x with
          laneLost := x.laneLost.filter (· ≠ m.wl.toNat),
          aligned := m.wl.toNat :: x.aligned.filter (· ≠ m.wl.toNat),
          marks := mapSet (fun _ => (0, 0)) x.marks m.wl.toNat (m.pos.toNat, m.portSlot.toNat) }).ports })

/-- The handshake of a lane map change: a request that can be followed, its T counted from the slot that carried it, is
acknowledged and pends, an ACK confirms and a NAK ends the change it names, an unanswered planned change is cancelled
1,024 slots before its switch slot, and at that slot the new map is in force. The model's own choices in it: log entries
42, 152. -/
def Obligations.LaneMapChangesFollowTheHandshake : Prop :=
  ∀ (s : State) (p : Slot), s.phase = .run →
    let x := s.port p.toNat
    (∀ (force : Bool) (map : BitVec 12) (at_ : BitVec 32), s.up p.toNat = true →
      (([0, 1, 2, 3].map (mapLane map.toNat)).filter (· ≠ 7)).all (fun w => decide (w ∈ s.receivable p.toNat ∧ w ∈ x.aligned)) = true →
      x.pendRx = none ∨ force = true →
      (if force then 64 else 4096) ≤ (at_.toNat + 2 ^ 32 + 1 - x.rxSlot) % 2 ^ 32 →
      (at_.toNat + 2 ^ 32 + 1 - x.rxSlot) % 2 ^ 32 ≤ 65536 →
      ∃ t, exec (.laneMapReq p force map at_) s = .next t ∧ t.is (LNK_PORT_STATUS_CHANGE_PENDING p.toNat) = true
        ∧ t = { s with regs := t.regs, ports := (s.setPort p.toNat { x with
            pendRx := some ⟨map.toNat, at_.toNat, force, true, true⟩, ctlQ := x.ctlQ ++ [msgLaneAck at_.toNat] }).ports }
        ∧ sameWords [LNK_PORT_STATUS_at p.toNat] s.toBox t.toBox)
    ∧ (∀ c : LaneChange, x.pendTx = some c → c.sent = true → ∀ at_ : BitVec 32, c.at_ = at_.toNat →
        exec (.laneMapAck p at_) s = .next { s with ports :=
          (s.setPort p.toNat { x with pendTx := some { c with acked := true } }).ports }
        ∧ ∀ reason, c.force = false → ∃ t, exec (.laneMapNak p reason at_) s = .next t
          ∧ t = { s with regs := t.regs, ports := (s.setPort p.toNat { x with pendTx := none }).ports }
          ∧ sameWords [LNK_PORT_STATUS_at p.toNat] s.toBox t.toBox)
    ∧ (∀ c : LaneChange, x.pendTx = some c → c.sent = true → c.force = false → c.acked = false →
        slotReached (x.txSlot + 1024) c.at_ = true → ∃ t, exec (.laneMapCancel p) s = .next t
          ∧ t = { s with regs := t.regs, ports := (s.setPort p.toNat { x with pendTx := none }).ports }
          ∧ sameWords [LNK_PORT_STATUS_at p.toNat] s.toBox t.toBox)
    ∧ (∀ c : LaneChange, x.pendTx = some c → c.sent = true → slotReached x.txSlot c.at_ = true → c.acked = true ∨ c.force = true →
        ∃ t, exec (.laneMapSwitch p .tx) s = .next t ∧ t.rd (LNK_LANE_MAP_TX p.toNat) = c.map % 4096
          ∧ t.rd (LNK_LANE_MAP_RX p.toNat) = s.rd (LNK_LANE_MAP_RX p.toNat) ∧ (t.port p.toNat) = { x with pendTx := none })
    ∧ ∀ c : LaneChange, x.pendRx = some c → slotReached x.rxSlot c.at_ = true →
        ∃ t, exec (.laneMapSwitch p .rx) s = .next t ∧ t.rd (LNK_LANE_MAP_RX p.toNat) = c.map % 4096
          ∧ t.rd (LNK_LANE_MAP_TX p.toNat) = s.rd (LNK_LANE_MAP_TX p.toNat)
          ∧ t = { s with regs := t.regs, ports := (s.setPort p.toNat { x with pendRx := none }).ports }
          ∧ sameWords [LNK_LANE_MAP_at p.toNat, LNK_PORT_STATUS_at p.toNat] s.toBox t.toBox

/-- A lost lane: the receiver adopts another wavelength that carries the lane's flits after 16 failed ones, with
LNK_LANE_ADOPT counted and LNK cause 4; a lane that loses FEC lock while others hold it is reported by LANE_FAIL; a
received LANE_FAIL forces a map without its wavelength, whose T is 64 slots after the slot its request leaves in. The
model's own choices in it: log entries 42, 60, 152. -/
def Obligations.LostLanesAreLeftOut : Prop :=
  ∀ (s : State) (p : Slot) (lane : BitVec 2), s.phase = .run → s.up p.toNat = true →
    let x := s.port p.toNat
    let n := p.toNat
    (∀ (wl : BitVec 3) (old i : Nat), (s.rxLanes n)[lane.toNat]? = some old →
      [0, 1, 2, 3].find? (fun i => mapLane (s.rd (LNK_LANE_MAP_RX n)) i == old) = some i →
      16 ≤ x.laneBad.getD lane.toNat 0 → (s.rxLanes n).contains wl.toNat = false →
      wl.toNat ∈ s.modeLanes n → x.stray.getD lane.toNat 7 = wl.toNat →
      ∃ t, exec (.laneAdopt p lane wl) s = .next t
        ∧ t.rd (LNK_LANE_MAP_RX n) = mapWithLane (s.rd (LNK_LANE_MAP_RX n)) i wl.toNat % 4096
        ∧ t.rd (LNK_LANE_MAP_TX n) = s.rd (LNK_LANE_MAP_TX n)
        ∧ (s.isPort n = true →
            t.ctr (lnkPage (n / 256)) (2048 + n % 256) = s.ctr (lnkPage (n / 256)) (2048 + n % 256) + 1)
        ∧ t.is (pageFld (lnkPage (n / 256)) 16 4 1) = true
        ∧ t = { s with regs := t.regs, ctrs := t.ctrs, outbox := t.outbox, ports :=
            (s.setPort n { x with laneBad := x.laneBad.set lane.toNat 0, stray := x.stray.set lane.toNat 7 }).ports })
    ∧ (∀ w, (s.rxLanes n)[lane.toNat]? = some w → ∀ others : Bool, ∃ t,
        exec (.laneFecLoss p lane others) s = .next t ∧ w ∈ (t.port n).laneLost
          ∧ (t.port n).ctlQ = x.ctlQ ++ (if others = true ∧ 1 < (s.rxLanes n).length then [msgLaneFail lane.toNat] else [])
          ∧ ∀ q, q ≠ n → t.port q = s.port q)
    ∧ ∀ w, (s.txLanes n)[lane.toNat]? = some w → mapLanes (s.mapWithout n w) ≠ [] →
        ∃ t, exec (.laneFail p lane) s = .next t
          ∧ t = { s with regs := t.regs, ports := (s.setPort n { x with
              pendTx := some ⟨s.mapWithout n w, 0, true, false, false⟩,
              ctlQ := (x.ctlQ.filter fun m => beAt m 0 1 != 2) ++ [msgLaneReq true (s.mapWithout n w) 0] }).ports }
          ∧ sameWords [LNK_PORT_STATUS_at n] s.toBox t.toBox
          ∧ (t.stampCtl n (msgLaneReq true (s.mapWithout n w) 0)).1
            = msgLaneReq true (s.mapWithout n w) ((x.txSlot + 64) % 2 ^ 32)

/-! ### Training and port control (02_itzal_link.md; 16_registers.md R454 to R460) -/

/-- Training completes where the lanes are deskewed, both capability blocks agree and a lane is left to send on: LNK_RTT the
median of the sixteen round trips with STEP 5, then UP with LNK cause 0, every sequence number 0, credits at their start
and the maps built afresh; an attempt over 100 ms is counted, raises LNK cause 2 and starts again. Silence of 1,280 tk
that nothing suspends, a pause that outlasts its limit, a RETRY_REQ repeated eight times in vain, a TRAIN flit and too
much skew each take the port down: TRAIN flits leave, the retry buffer and partly received frames go, counters restart, UP
clears with LNK cause 1, queued and staged frames for it are flushed and no live candidate names it. The model's own
choices in it: log entries 40, 43, 44. -/
def Obligations.PortsComeUpAndGoDown : Prop :=
  (∀ (s : State) (p : Slot), s.phase = .run → s.is (LNK_PORT_STATUS_TRAINING p.toNat) = true →
    let x := s.port p.toNat
    let n := p.toNat
    (∀ trips : Vector Nat 16, s.deskewed n = true → x.twice = true → x.echoSeen = true → s.trainCauses n = (false, false, false) →
      mapLanes (s.upTxMap n) ≠ [] →
      (∃ t, exec (.portUp p trips false) s = .next t ∧ t.rd (LNK_RTT_RTT n) = medianTrip trips.toList % 2 ^ 24
        ∧ t.rd (LNK_TRAIN_STATUS_STEP n) = 5 ∧ t = { s with regs := t.regs }
        ∧ sameWords [LNK_RTT_at n, LNK_TRAIN_STATUS_at n] s.toBox t.toBox)
      ∧ ∃ t, exec (.portUp p trips true) s = .next t ∧ t.up n = true ∧ t.is (LNK_PORT_STATUS_TRAINING n) = false
        ∧ t.rd (LNK_RTT_RTT n) = medianTrip trips.toList % 2 ^ 24 ∧ t.is (pageFld (lnkPage (n / 256)) 16 0 1) = true
        ∧ t.rd (LNK_LANE_MAP_TX n) = s.upTxMap n % 4096 ∧ t.rd (LNK_LANE_MAP_RX n) = s.upRxMap n % 4096
        ∧ t.rd (LNK_TRAIN_STATUS_STEP n) = 6 ∧ (t.port n).txSeq = 0 ∧ (t.port n).rxSeq = 0 ∧ (t.port n).retry = []
        ∧ (t.port n).pccum = (List.range 8).map (blkCredit x.block)
        ∧ (t.port n).freed = (List.range 8).map (fun v => s.creditInit n v)
        ∧ (∀ q, q ≠ n → t.port q = s.port q)
        ∧ t = { s with regs := t.regs, ports := t.ports, outbox := t.outbox }
        ∧ sameWords ([LNK_LANE_MAP_at n, LNK_RTT_at n, LNK_TRAIN_STATUS_at n, LNK_PORT_STATUS_at n]
            ++ causeWords (lnkPage (n / 256))) s.toBox t.toBox)
    ∧ ∀ start, x.trainAt = some start → start + 64000000 ≤ s.raw → s.is (LNK_PORT_CTRL_ENABLE n) = true →
        s.isPort n = true → s.ringsReady n = true → s.up n = false → ∃ t, exec (.trainingRetry p) s = .next t
          ∧ t.ctr (lnkPage (n / 256)) (1792 + n % 256) = s.ctr (lnkPage (n / 256)) (1792 + n % 256) + 1
          ∧ t.is (pageFld (lnkPage (n / 256)) 16 2 1) = true ∧ (t.port n).trainAt = some s.raw ∧ (t.port n).block = []
          ∧ t.rd (LNK_TRAIN_STATUS_STEP n) = 1 ∧ t.is (LNK_PORT_STATUS_TRAINING n) = true
          ∧ (∀ q, q ≠ n → t.port q = s.port q)
          ∧ t = { s with regs := t.regs, ports := t.ports, ctrs := t.ctrs, outbox := t.outbox })
  ∧ (∀ (s : State) (p : Slot), s.phase = .run → s.up p.toNat = true →
    let x := s.port p.toNat
    (x.lastGood + 1280 ≤ s.raw → x.pauseRx = none → x.inWindow = false → x.darkTill = none →
      ∃ t, exec (.linkSilenceTimeout p) s = .next t ∧ wentDown s.toBox t.toBox p.toNat)
    ∧ (∀ limit, x.pauseRx = some limit → limit ≤ s.raw →
        ∃ t, exec (.pauseTimeout p) s = .next t ∧ wentDown s.toBox t.toBox p.toNat)
    ∧ (∀ rx : FlitRx, s.isPort p.toNat = true → rx.wf = true → rx.fecBad = false → flCrcOk rx.bytes = true →
        flType rx.bytes = 3 → x.inWindow = false → ∃ t, exec (.flitReceive p rx) s = .next t ∧ portCleared t.toBox p.toNat)
    ∧ (∀ m : LaneMarker, s.is (LNK_PORT_STATUS_TRAINING p.toNat) = false → x.inWindow = false → 160000 < m.skewPs →
        ∃ t, exec (.laneMarkerReceive p m) s = .next t ∧ portCleared t.toBox p.toNat
          ∧ t.is (LNK_PORT_STATUS_SKEW p.toNat) = true)
    ∧ (∀ n at_, x.rrOut = some (n, at_) → (x.ctlQ.any fun m => beAt m 0 1 == 1) = false → x.pauseTx = none →
        x.inWindow = false → x.aligning = false → 8 ≤ n → at_ + s.rd (LNK_RTT_RTT p.toNat) / 32 + 256 ≤ s.raw →
        ∃ t, exec (.retryReqRepeat p) s = .next t ∧ portCleared t.toBox p.toNat
          ∧ t.is (LNK_PORT_STATUS_RETRY_EXHAUSTED p.toNat) = true))

/-- The controls of a port: LNK_FP_MODE takes a mode while no port of the pair is enabled and loads the default credits; an
enable that passes both checks of R94 takes landing reserves of the initial credits in a generation of its own, one that
does not sets RESV_SHORT and the access-error indication and leaves ENABLE clear; a disable ends training, and takes a
port that is up down as R42 and R77 say; reserves return once nothing is charged to them. The model's own choices in it:
log entries 121, 122. -/
def Obligations.PortControlsTakeEffect : Prop :=
  ∀ (s : State) (src : Requester),
    (∀ (f : FpIx) (value : Word), takesWrite s src (LNK_FP_MODE_at f.toNat) → natField value.toNat 0 3 < 4 →
      s.pairEnabled f.toNat = false → ∃ t, exec (.fpModeWrite src f value) s = .next t
        ∧ t.pairMode f.toNat = natField value.toNat 0 3
        ∧ ∀ p v, p ∈ t.pairPorts f.toNat → v < 8 → t.creditInit p v
            = [256, 256, 512, 512, 256, 32, 32, 0].getD v 0 / 2 ^ (natField value.toNat 0 3 - 1))
    ∧ (∀ (p : Slot) (value : Word), takesWrite s src (LNK_PORT_CTRL_at p.toNat) → s.isPort p.toNat = true →
        natField value.toNat 1 2 ≠ 3 →
        (s.is (LNK_PORT_CTRL_ENABLE p.toNat) = false → s.reservesFit p.toNat = true →
          ∃ t, exec (.portEnable src p value) s = .next t ∧ t.is (LNK_PORT_CTRL_ENABLE p.toNat) = true
            ∧ t.rd (LNK_PORT_CTRL_ROLE p.toNat) = natField value.toNat 1 2
            ∧ (t.port p.toNat).gen = (s.port p.toNat).gen + 1
            ∧ (t.port p.toNat).resv = (s.port p.toNat).resv ++ [⟨(s.port p.toNat).gen + 1,
                (List.range 8).map fun v => s.creditInit p.toNat v⟩])
        ∧ (s.is (LNK_PORT_CTRL_ENABLE p.toNat) = false → s.reservesFit p.toNat = false →
          ∃ t, exec (.portEnable src p value) s = .next t ∧ t.is (LNK_PORT_CTRL_ENABLE p.toNat) = false
            ∧ t.is (USH_STATUS_RESV_SHORT (p.toNat / 256)) = true ∧ t.is (PAGE_ERR_ACCERR (lnkPage (p.toNat / 256))) = true
            ∧ t = { s with regs := t.regs, outbox := t.outbox })
        ∧ (s.is (LNK_PORT_CTRL_ENABLE p.toNat) = true → s.up p.toNat = true →
          ∃ t, exec (.portDisable src p value) s = .next t ∧ t.is (LNK_PORT_CTRL_ENABLE p.toNat) = false
            ∧ t.is (LNK_PORT_STATUS_TRAINING p.toNat) = false ∧ t.rd (LNK_TRAIN_STATUS_STEP p.toNat) = 0
            ∧ portCleared t.toBox p.toNat)
        ∧ (s.is (LNK_PORT_CTRL_ENABLE p.toNat) = true → s.up p.toNat = false →
          ∃ t, exec (.portDisable src p value) s = .next t ∧ t.is (LNK_PORT_CTRL_ENABLE p.toNat) = false
            ∧ t.is (LNK_PORT_STATUS_TRAINING p.toNat) = false ∧ t.rd (LNK_TRAIN_STATUS_STEP p.toNat) = 0
            ∧ (t.port p.toNat).trainAt = none ∧ t = { s with regs := t.regs, ports := t.ports, outbox := t.outbox }))
    ∧ ∀ p : Slot, s.phase = .run → exec (.reserveReturn p) s = .next { s with ports := (s.setPort p.toNat { s.port p.toNat with
        resv := (s.port p.toNat).resv.filter fun g => s.genInUse p.toNat g.gen
          || (s.is (LNK_PORT_CTRL_ENABLE p.toNat) && g.gen == (s.port p.toNat).gen) }).ports }

/-! ### Frames through the switch (02_itzal_link.md R49; 04_buffers.md; 05_egress_scheduling.md) -/

/-- The header stage takes the oldest landed frame of a port: one whose check fails is counted and returns its cells as
credit, one on a closed VC gives none, and one bound for a port is queued there. A fence is released once no ordered frame
of the port is left under the old bank, and a backlog report shows every VC's cells. The model's own choices in it: log
entry 46. -/
def Obligations.HeaderStageTakesTheOldestFrame : Prop :=
  ∀ (s : State) (p : Slot), s.phase = .run →
    let n := p.toNat
    let lnk := lnkPage (n / 256)
    (∀ l ls (entry : Ecc), (s.port n).landed = l :: ls →
      (∀ k, s.headerCheck n l.frame = some (.bad k) → s.isPort n = true → ∃ t,
          exec (.ingressHeaderStage p entry) s = .next t
        ∧ (t.port n).landed = ls ∧ t.ctr lnk (256 * k + n % 256) = s.ctr lnk (256 * k + n % 256) + 1
        ∧ (t.port n).freed = (if (s.port n).gen = l.gen then addAt16 (s.port n).freed (frVc l.frame) (frCells l.frame)
            else (s.port n).freed)
        ∧ t.descs = s.descs)
      ∧ (s.vcClosed n (frVc l.frame) = true → s.isPort n = true → ∃ t, exec (.ingressHeaderStage p entry) s = .next t
        ∧ (t.port n).landed = ls ∧ t.ctr lnk (768 + n % 256) = s.ctr lnk (768 + n % 256) + 1
        ∧ (t.port n).freed = (s.port n).freed ∧ t.descs = s.descs)
      ∧ ∀ q, ((((s.toBox.setPort n { s.port n with landed := ls }).followTrace n l).2).judge n l entry).1 = .queue q →
        ∃ t, exec (.ingressHeaderStage p entry) s = .next t ∧ (t.port n).landed = ls
          ∧ ∃ d ∈ t.descs, d.id = s.descId ∧ d.frame = l.frame ∧ d.egress = q ∧ d.vc = frVc l.frame ∧ d.inPort = some n
            ∧ d.cls = s.vcClass (n / 256) (frVc l.frame))
    ∧ (s.orderedOld n = false → ∃ t, exec (.fenceRelease p) s = .next t ∧ (∀ d ∈ t.descs, d.inPort = some n → d.fence = false)
        ∧ t.descs.map (fun d => { d with fence := false }) = s.descs.map (fun d => { d with fence := false })
        ∧ t.is (FWD_EPOCH_STATUS_FENCED 0) = (t.descs.any fun d => d.fence)
        ∧ t = { s with regs := t.regs, descs := t.descs } ∧ sameWords [FWD_EPOCH_STATUS_at 0] s.toBox t.toBox)
    ∧ ∃ t, exec (.backlogReport p) s = .next t ∧ (∀ v, v < 8 → mapGet (fun _ => 0) t.backlog (8 * n + v) = s.backlogNow n v)
        ∧ (∀ k, k / 8 ≠ n → mapGet (fun _ => 0) t.backlog k = mapGet (fun _ => 0) s.backlog k)
        ∧ t = { s with backlog := t.backlog, tents := t.tents, hot := t.hot, hotQ := t.hotQ }

/-- A frame on VC7, or on a VC whose credit is 0, is discarded in the header stage: it is counted in LNK_DISC_KIND, its cells
are freed at once and no credit is returned for them, so that CCUM of its VC stays as it was and nothing is queued. The
frame is one that the other checks of the header stage would let pass: its version, its kind's, its PLEN and its HOPS. -/
def Obligations.ClosedChannelsTakeNoFrames : Prop :=
  ∀ (s : State) (p : Slot) (l : Landed) (ls : List Landed) (entry : Ecc), s.phase = .run → s.isPort p.toNat = true →
    (s.port p.toNat).landed = l :: ls → frVc l.frame = 7 ∨ s.creditInit p.toNat (frVc l.frame) = 0 →
    frVmaj l.frame = 1 → frVmin l.frame ≤ s.minor p.toNat → kindMinMinor (frKind l.frame) ≤ s.minor p.toNat →
    frPlen l.frame ≤ 64 → frHops l.frame ≠ 15 →
    ∃ t, exec (.ingressHeaderStage p entry) s = .next t ∧ (t.port p.toNat).landed = ls
      ∧ t.ctr (lnkPage (p.toNat / 256)) (768 + p.toNat % 256) = s.ctr (lnkPage (p.toNat / 256)) (768 + p.toNat % 256) + 1
      ∧ t.landingUse p.toNat (frVc l.frame) + frCells l.frame = s.landingUse p.toNat (frVc l.frame)
      ∧ (t.port p.toNat).freed = (s.port p.toNat).freed ∧ t.descs = s.descs ∧ t.staging = s.staging ∧ t.inbox = s.inbox

/-- Midway grants what its round picks while the port's staging has room, counting the frame's bytes for the tent; a transfer
whose turn it is on the links of both tents stages the frame's next cells, one that fails is counted and sent again, the
adapters' retries are counted, and with the fourth failure its data are zeros and MDW cause 1 is raised. The model's own
choices in it: log entries 53, 54, 92, 159. -/
def Obligations.MidwayGrantsAndTransfers : Prop :=
  ∀ (s : State) (p : Slot) (v : Vc) (reads : List CellRead) (n : Nat), s.phase = .run →
    let k := 8 * p.toNat + v.toNat
    let s0 := s.toBox.crossTent (p.toNat / 256)
    let retried (u : Box) : Prop := u.ctr mdwPage (16 + p.toNat / 256) = s.ctr mdwPage (16 + p.toNat / 256) + BitVec.ofNat 64 n
    (∀ t o m, s0.midwayPick p.toNat v.toNat = some (t, o, m) → s0.stagingRoom p.toNat v.toNat (frCells o.bytes) = true →
      ∃ u, exec (.midwayGrant p v reads) s = .next u ∧ u.mdwOf p.toNat v.toNat = m
        ∧ u.ctr mdwPage (8 + t) = s.ctr mdwPage (8 + t) + BitVec.ofNat 64 o.bytes.length
        ∧ (∀ d, o = .frame d →
            let d' := (s0.readDesc d reads).1
            u.descs.map (fun e => e.id) = (s0.descs.filter (fun e => e.id ≠ d.id)).map (fun e => e.id)
            ∧ u.staged k = s0.staged k ++ [stagedOf { d' with trace := traceStage d'.trace 3 (s.tick32 d'.tent) } none])
        ∧ ∀ r, o = .result r → ∀ q ∈ u.results, q.id = r.id → p.toNat ∉ q.due)
    ∧ ∀ x, v.toNat ≠ 3 → firstOpen (s.staged k) = some x →
        s.sameTransfer p.toNat (s.linkTurn x.desc.tent) v.toNat x = true →
        s.sameTransfer p.toNat (s.outTurn (p.toNat / 256)) v.toNat x = true →
        let out := p.toNat / 256
        let crossed := s.setTent x.desc.tent { s.tent x.desc.tent with linkAt := s.linkTurn x.desc.tent }
        (x.result = none → ∃ u, exec (.midwayTransfer p v false n reads) s = .next u ∧ retried u.toBox
          ∧ u.staged k = putOpen (s.stagedNext p.toNat x false) (s.staged k))
        ∧ (x.tries < 3 → ∃ u, exec (.midwayTransfer p v true n reads) s = .next u ∧ retried u.toBox
          ∧ u.ctr mdwPage (p.toNat / 256) = s.ctr mdwPage (p.toNat / 256) + 1
          ∧ u.staged k = putOpen { x with tries := x.tries + 1 } (s.staged k)
          ∧ u.tents = (crossed.setTent out { crossed.tent out with linkOut := s.outTurn out }).tents
          ∧ u = { s with staging := u.staging, ctrs := u.ctrs, regs := u.regs, outbox := u.outbox, tents := u.tents })
        ∧ (3 ≤ x.tries → x.result = none → ∃ u, exec (.midwayTransfer p v true n reads) s = .next u ∧ retried u.toBox
          ∧ u.ctr mdwPage (p.toNat / 256) = s.ctr mdwPage (p.toNat / 256) + 1 ∧ u.is (pageFld mdwPage 16 1 1) = true
          ∧ u.staged k = putOpen (s.stagedNext p.toNat x true) (s.staged k))

/-- A flit slot of a port completes whatever the port does: a port in training sends a TRAIN flit with its capability block on
every lane; a bypass window sends nothing and is counted; one that is up sends its oldest control message first, then a
flit held for resend, then new frames in a DATA flit kept for retry, and an IDLE flit where there is nothing to send, the
retry buffer is full or its own receiver is not aligned yet; under its own PAUSE it sends nothing. Every flit but a TRAIN
flit counts one transmit slot, leaves on the lane of that slot and has the bytes that slotFlit gives. The model's own
choices in it: log entries 45, 105, 153, 166. -/
def Obligations.FlitSlotsSendInOrder : Prop :=
  ∀ (s : State) (p : Slot) (sub : BitVec 5), s.phase = .run → s.isPort p.toNat = true →
    let x := s.port p.toNat
    let r := Box.fillBody p.toNat sub.toNat 31 [] 31 s.toBox
    let y := r.2.2.port p.toNat
    let counted (u : Box) (k : Nat) (t : State) : Prop :=
      t.ctr (calPage (p.toNat / 256)) (256 * k + p.toNat % 256) = u.ctr (calPage (p.toNat / 256)) (256 * k + p.toNat % 256) + 1
    (∃ t, exec (.flitSlot p sub) s = .next t)
    ∧ (s.up p.toNat = false → s.is (LNK_PORT_STATUS_TRAINING p.toNat) = true → ∃ t,
      exec (.flitSlot p sub) s = .next t ∧ t = { s with ports := t.ports, outbox := t.outbox }
        ∧ (∀ w, w ∈ s.modeLanes p.toNat → Out.flit p.toNat w w (mkFlit 3 x.txSeq (sub16 x.rxSeq 1) 31 0 (x.freed.getD 0 0)
            (s.ownBlock p.toNat) 0) ∈ t.outbox)
        ∧ (t.port p.toNat).txSlot = x.txSlot)
    ∧ (s.up p.toNat = true → x.inWindow = true → ∃ t, exec (.flitSlot p sub) s = .next t
        ∧ counted s.toBox 7 t ∧ t = { s with ctrs := t.ctrs, regs := t.regs, outbox := t.outbox })
    ∧ (s.up p.toNat = true → x.inWindow = false →
        (s.ownPause p.toNat = true → ∃ t, exec (.flitSlot p sub) s = .next t ∧ counted s.toBox 6 t
          ∧ (t.port p.toNat).txSlot = x.txSlot)
        ∧ (x.aligning = true → x.pauseTx = none → ∃ t, exec (.flitSlot p sub) s = .next t
          ∧ sentFlit s.toBox t.toBox p.toNat 1 x.txSeq 31 [])
        ∧ (x.aligning = false → x.pauseTx = none →
          (∀ m ms, x.ctlQ = m :: ms → ∃ t, exec (.flitSlot p sub) s = .next t
            ∧ sentFlit s.toBox t.toBox p.toNat 2 x.txSeq 31 (s.stampCtl p.toNat m).1
            ∧ (t.port p.toNat).ctlQ = ms ∧ (t.port p.toNat).retry = x.retry ∧ (t.port p.toNat).txSeq = x.txSeq)
          ∧ (∀ f, x.ctlQ = [] → x.again = some f → ∃ t, exec (.flitSlot p sub) s = .next t
            ∧ sentFlit s.toBox t.toBox p.toNat 0 f.seq f.fstart f.body ∧ counted s.toBox 4 t
            ∧ (t.port p.toNat).retry = x.retry ∧ (t.port p.toNat).txSeq = x.txSeq
            ∧ (t.port p.toNat).resend = (if x.retry.any (fun g => g.seq == (f.seq + 1) % 65536) then some ((f.seq + 1) % 65536)
                else none))
          ∧ (x.ctlQ = [] → x.again = none → retryDepth (s.slotMode p.toNat) ≤ x.retry.length →
            ∃ t, exec (.flitSlot p sub) s = .next t ∧ sentFlit s.toBox t.toBox p.toNat 1 x.txSeq 31 [] ∧ counted s.toBox 6 t
              ∧ (t.port p.toNat).retry = x.retry)
          ∧ (x.ctlQ = [] → x.again = none → x.retry.length < retryDepth (s.slotMode p.toNat) →
            (r.1 = [] → ∃ t, exec (.flitSlot p sub) s = .next t ∧ sentFlit r.2.2 t.toBox p.toNat 1 y.txSeq 31 [])
            ∧ (r.1 ≠ [] → ∃ t, exec (.flitSlot p sub) s = .next t
              ∧ sentFlit r.2.2 t.toBox p.toNat 0 y.txSeq r.2.1 (padTo 240 0 r.1) ∧ counted r.2.2 3 t
              ∧ (t.port p.toNat).retry = y.retry ++ [⟨y.txSeq, r.2.1, padTo 240 0 r.1⟩]
              ∧ (t.port p.toNat).txSeq = (y.txSeq + 1) % 65536))))

/-- Buckets and gate lists: a write of a bucket's rate or burst word takes effect at once; COMMIT of an acceptable bank
schedules its switch and a rejected one shows the reason with CAL cause 1; CANCEL and STOP act on what is pending and what
runs; at its instant the standby bank becomes active, or the list stops, with CAL cause 2; from an entry's start its gates
are those a frame meets. The model's own choices in it: log entries 22, 28, 52, 158. -/
def Obligations.GateListsSwitchAtTheirInstant : Prop :=
  ∀ (s : State) (src : Requester) (p : Slot), s.isPort p.toNat = true →
    let n := p.toNat
    let b := 1 - s.activeBank n
    let c := s.cal n
    (∀ (v : Vc) (value : Word), takesWrite s src (pageBase (trnPage (n / 256)) + 0x8000 + 128 * (n % 256) + 16 * v.toNat) →
      maskWord value 0x80FFFFFF = value → ∃ t, exec (.trnBucketWrite src p v 0 value) s = .next t
        ∧ t.tab (bucketAt n v.toNat) = value ∧ (∀ a, a ≠ bucketAt n v.toNat → t.tab a = s.tab a)
        ∧ t.bucket n v.toNat = (s.bucket n v.toNat).configure (wordBit value 31 && !wordBit (s.tab (bucketAt n v.toNat)) 31)
            (wordField (s.tab (bucketAt n v.toNat + 4)) 0 24) (s.replTick (n / 256))
        ∧ t = { s with tabs := t.tabs, buckets := t.buckets })
    ∧ (∀ (v : Vc) (value : Word),
      takesWrite s src (pageBase (trnPage (n / 256)) + 0x8000 + 128 * (n % 256) + 16 * v.toNat + 4) →
      maskWord value 0x00FFFFFF = value → ∃ t, exec (.trnBucketWrite src p v 1 value) s = .next t
        ∧ t.tab (bucketAt n v.toNat + 4) = value ∧ (∀ a, a ≠ bucketAt n v.toNat + 4 → t.tab a = s.tab a)
        ∧ t.bucket n v.toNat = (s.bucket n v.toNat).configure false (wordField value 0 24) (s.replTick (n / 256))
        ∧ t = { s with tabs := t.tabs, buckets := t.buckets })
    ∧ (takesWrite s src (CAL_GL_CMD_at n) →
        (s.is (CAL_GL_STATUS_PENDING n) = false → s.glReason n b = 0 → ∃ t, exec (.glCommit src p) s = .next t
          ∧ t.is (CAL_GL_STATUS_PENDING n) = true ∧ t.rd (CAL_GL_STATUS_REASON n) = 0
          ∧ t = { s with regs := t.regs, cals := (s.setCal n { c with switchAt := some (if s.listRuns n
              then s.boundary n (s.glSwitchTime n) else max (s.glSwitchTime n) (s.tentTick (n / 256))) }).cals }
          ∧ sameWords [CAL_GL_STATUS_at n] s.toBox t.toBox)
        ∧ (s.is (CAL_GL_STATUS_PENDING n) = false → s.glReason n b ≠ 0 → ∃ t, exec (.glCommit src p) s = .next t
          ∧ t.rd (CAL_GL_STATUS_REASON n) = s.glReason n b ∧ t.is (CAL_GL_STATUS_REJECTED n) = true
          ∧ t.is (pageFld (calPage (n / 256)) 16 1 1) = true ∧ t = { s with regs := t.regs, outbox := t.outbox }
          ∧ sameWords (CAL_GL_STATUS_at n :: causeWords (calPage (n / 256))) s.toBox t.toBox)
        ∧ (s.is (CAL_GL_STATUS_PENDING n) = true → ∃ t, exec (.glCancel src p) s = .next t
          ∧ t.is (CAL_GL_STATUS_PENDING n) = false
          ∧ t = { s with regs := t.regs, cals := (s.setCal n { c with switchAt := none, stopAt := none }).cals }
          ∧ sameWords [CAL_GL_STATUS_at n] s.toBox t.toBox)
        ∧ (s.is (CAL_GL_STATUS_PENDING n) = false → s.listRuns n = true → ∃ t, exec (.glStop src p) s = .next t
          ∧ t.is (CAL_GL_STATUS_PENDING n) = true
          ∧ t = { s with regs := t.regs, cals :=
              (s.setCal n { c with stopAt := some (s.boundary n (s.glSwitchTime n)) }).cals }
          ∧ sameWords [CAL_GL_STATUS_at n] s.toBox t.toBox))
    ∧ (s.phase = .run →
        (∀ at_, c.switchAt = some at_ → at_ ≤ s.tentTick (n / 256) → ∃ t, exec (.glSwitch p) s = .next t
          ∧ t.activeBank n = b ∧ t.listRuns n = true ∧ t.is (CAL_GL_STATUS_PENDING n) = false
          ∧ t.is (pageFld (calPage (n / 256)) 16 2 1) = true
          ∧ t.is (CAL_GL_STATUS_BYPASS_ACTIVE n) = (t.gateNow n).bypass
          ∧ t.cals = (s.setCal n { c with switchAt := none, since := at_, entryAt := (t.gateNow n).start }).cals
          ∧ t = { s with regs := t.regs, outbox := t.outbox, cals := t.cals }
          ∧ sameWords ([CAL_GL_STATUS_at n, CAL_GL_CYCLE_LO_at n, CAL_GL_CYCLE_HI_at n] ++ causeWords (calPage (n / 256)))
              s.toBox t.toBox)
        ∧ (∀ at_, c.switchAt = none → c.stopAt = some at_ → at_ ≤ s.tentTick (n / 256) → ∃ t, exec (.glSwitch p) s = .next t
          ∧ t.listRuns n = false ∧ t.is (CAL_GL_STATUS_PENDING n) = false ∧ t.is (CAL_GL_STATUS_BYPASS_ACTIVE n) = false
          ∧ t.rd (CAL_GL_CYCLE_LO_CYCLE n) = 0 ∧ t.rd (CAL_GL_CYCLE_HI_CYCLE n) = 0
          ∧ t.is (pageFld (calPage (n / 256)) 16 2 1) = true
          ∧ t = { s with regs := t.regs, outbox := t.outbox, cals := (s.setCal n { c with stopAt := none }).cals }
          ∧ sameWords ([CAL_GL_STATUS_at n, CAL_GL_CYCLE_LO_at n, CAL_GL_CYCLE_HI_at n] ++ causeWords (calPage (n / 256)))
              s.toBox t.toBox)
        ∧ (s.listRuns n = true → ∃ t, exec (.gateEntryStart p) s = .next t
          ∧ t.gateNow n = s.gateNow n
          ∧ (c.switchAt = none → c.stopAt = none → t.gateNow n = s.bankGate n (s.activeBank n) (s.tentTick (n / 256)))
          ∧ (∀ (v : Vc) (x : Staged) (sub : BitVec 5), t.headFrame n v.toNat = some x → x.started = false →
              (t.gateNow n).gates.testBit v.toNat = false → t.heldBy n v.toNat sub.toNat (t.gateNow n) = .gate)
          ∧ t.is (CAL_GL_STATUS_BYPASS_ACTIVE n) = (s.gateNow n).bypass
          ∧ t = { s with regs := t.regs, cals := (s.setCal n { c with entryAt := (s.gateNow n).start }).cals }
          ∧ sameWords [CAL_GL_STATUS_at n] s.toBox t.toBox))

/-- A bypass window: at its start the port stops sending and its pair is joined where the partner's window agrees, 7,680 tk
before its end the fibres return, at its end sending resumes with slot 0 and 5,120 tk to realign, and a receiver that does
not realign in time goes down. The model's own choices in it: log entry 114. -/
def Obligations.BypassWindowsOpenAndClose : Prop :=
  ∀ (s : State) (p : Slot), s.phase = .run →
    let n := p.toNat
    let c := s.cal n
    (s.listRuns n = true → (s.gateNow n).bypass = true → c.window = .none →
      (s.partnerWindow n (s.gateNow n).start = true → ∃ t, exec (.bypassStart p) s = .next t ∧ (t.port n).inWindow = true
        ∧ (t.cal n).window = .connected ∧ (t.cal n).winEnd = (s.gateNow n).stop.getD 0
        ∧ t.is (pairBit TRP_JOINED_JOINED (n / 4)) = true ∧ ∀ q, q ≠ n → t.port q = s.port q)
      ∧ (s.partnerWindow n (s.gateNow n).start = false → s.isPort n = true → ∃ t, exec (.bypassStart p) s = .next t
        ∧ (t.port n).inWindow = true ∧ (t.cal n).window = .dark ∧ t.is (pageFld (calPage (n / 256)) 16 0 1) = true
        ∧ t.ctr (calPage (n / 256)) (256 + n % 256) = s.ctr (calPage (n / 256)) (256 + n % 256) + 1
        ∧ t = { s with regs := t.regs, ports := t.ports, cals := t.cals, ctrs := t.ctrs, outbox := t.outbox }))
    ∧ (c.window = .connected → c.winEnd ≤ s.tentTick (n / 256) + 7680 →
        exec (.bypassRestore p) s = .next { s with cals := (s.setCal n { c with window := .restoring }).cals })
    ∧ (c.window ≠ .none → c.winEnd ≤ s.tentTick (n / 256) → ∃ t, exec (.bypassEnd p) s = .next t
        ∧ (t.cal n).window = .none ∧ t.is (pairBit TRP_JOINED_JOINED (n / 4)) = false
        ∧ t.ports = (s.setPort n { s.port n with
            inWindow := false, txSlot := 0, realign := [], aligning := s.up n, darkTill := some (s.raw + 5120) }).ports)
    ∧ ∀ limit, s.up n = true → (s.port n).darkTill = some limit → limit ≤ s.raw → (s.port n).aligning = true →
        ∃ t, exec (.bypassRealignTimeout p) s = .next t ∧ wentDown s.toBox t.toBox n

/-- Spill blocks and audits: a block is written when it is full, or 640 tk after its first cell, no sooner than WRATE allows
and never with WRATE 0 or while the tent's memory rebuilds; the oldest written block is read back while its VOQ runs low
and the recall reserve has room, and a frame with all its cells back lies in SRAM again; a block read that is
uncorrectable is counted and raises the USH and MEM errors; an audit frees the allocated cells that nothing reaches,
counts them and raises USH cause 1. The model's own choices in it: log entries 56, 154, 155, 156. -/
def Obligations.SpillAndAuditKeepTheCells : Prop :=
  ∀ (s : State) (t : TentIx) (q : VoqIx) (reads : List CellRead), s.phase = .run →
    let rate := s.rd (USH_SPILL_CTRL_WRATE t.toNat)
    (∀ sp b bs, s.spillOf t.toNat q.toNat = some sp → sp.blocks = b :: bs → b.written = false →
      (rate ≠ 0 → (s.tent t.toNat).writeAt ≤ 100 * s.raw → s.rebuilding t.toNat = false →
          (s.voq t.toNat (q.toNat / 8) (q.toNat % 8)).any (fun d => d.spilled) = true →
        (16 ≤ b.cells → ∃ u sp', exec (.spillBlockWritten t q reads) s = .next u ∧ u.spillOf t.toNat q.toNat = some sp'
          ∧ sp'.blocks.head? = some { b with written := true } ∧ (u.tent t.toNat).writeAt = 100 * s.raw + blockTime rate)
        ∧ (b.firstAt + 640 ≤ s.raw → ∃ u sp', exec (.spillBlockTimer t q reads) s = .next u
          ∧ u.spillOf t.toNat q.toNat = some sp' ∧ sp'.blocks.head? = some { b with written := true }))
      ∧ (rate = 0 ∨ 100 * s.raw < (s.tent t.toNat).writeAt ∨ s.rebuilding t.toNat = true →
        exec (.spillBlockWritten t q reads) s = .next s ∧ exec (.spillBlockTimer t q reads) s = .next s))
    ∧ (∀ sp b bs, s.spillOf t.toNat q.toNat = some sp → sp.blocks = b :: bs →
        (b.written = true → sp.recalling = false → s.aheadOfSpill t.toNat q.toNat < 32 →
          s.rd (USH_SPILL_CTRL_RDRATE t.toNat) ≠ 0 → (s.tent t.toNat).readAt ≤ 100 * s.raw →
          s.recallUse t.toNat q.toNat + b.left ≤ 32 →
          (b.parts.all fun x => s.descs.any fun d => d.id == x.1 && d.spilled) = true →
          exec (.spillRecall t q) s = .next { s with
            spills := (s.setSpill t.toNat q.toNat (some { sp with recalling := true })).spills,
            tents := (s.setTent t.toNat { s.tent t.toNat with
              readAt := 100 * s.raw + blockTime (s.rd (USH_SPILL_CTRL_RDRATE t.toNat)) }).tents })
        ∧ (∀ d n, sp.recalling = true → b.gone = false → b.bad = none → b.parts = [(d.id, n)] → d.tent = t.toNat →
          8 * d.egress + d.vc = q.toNat → (s.descs.find? fun e => e.id == d.id) = some d →
          let cs := (s.growCells t.toNat d.cells (d.cells.length + n)).1
          d.ncells ≤ cs.length → ∃ u, exec (.spillRecallDone t q none) s = .next u
            ∧ ∃ e ∈ u.descs, e.id = d.id ∧ e.frame = d.frame ∧ e.spilled = false ∧ e.cells = cs
              ∧ (e.charge = .recall ∨ e.charge = .partition sp.part))
        ∧ (∀ bytes, sp.recalling = true → b.gone = false → ∃ u, exec (.spillRecallDone t q (some bytes)) s = .next u
          ∧ u.ctr (ushPage t.toNat) 2051 = s.ctr (ushPage t.toNat) 2051 + 1
          ∧ u.is (pageFld (ushPage t.toNat) 16 0 1) = true ∧ u.is (pageFld (memPage t.toNat) 16 0 1) = true))
    ∧ (∀ src : Requester, takesWrite s src (USH_CTRL_at t.toNat) → s.is (USH_STATUS_AUDIT_BUSY t.toNat) = false →
        ∃ u, exec (.ushAudit src t) s = .next u ∧ u.is (USH_STATUS_AUDIT_BUSY t.toNat) = true
          ∧ u = { s with regs := u.regs, tents :=
              (s.setTent t.toNat { s.tent t.toNat with audit := some (s.tent t.toNat).alloc }).tents }
          ∧ sameWords [USH_STATUS_at t.toNat] s.toBox u.toBox)
    ∧ ∀ was, (s.tent t.toNat).audit = some was → was.Nodup → (∀ c, c ∈ was → c < storeCells) →
        let lost := was.filter fun c => c ∈ (s.tent t.toNat).alloc ∧ c ∉ s.reachedCells t.toNat
        ∃ u, exec (.ushAuditDone t) s = .next u ∧ u.is (USH_STATUS_AUDIT_BUSY t.toNat) = false
          ∧ u.is (pageFld (ushPage t.toNat) 16 1 1) = true
          ∧ u.ctr (ushPage t.toNat) 2052 = s.ctr (ushPage t.toNat) 2052 + BitVec.ofNat 64 lost.length
          ∧ (u.tent t.toNat).alloc = ((s.tent t.toNat).alloc.filter fun c => c ∉ lost) ∧ (u.tent t.toNat).audit = none
          ∧ (∀ v, v ≠ t.toNat → u.tent v = s.tent v)
          ∧ u = { s with regs := u.regs, ctrs := u.ctrs, outbox := u.outbox, tents := u.tents, events := u.events }

/-! ### Forwarding (03_forwarding.md; 16_registers.md R461, R462) -/

/-- Forwarding table commands: an acceptable write or a read makes BUSY hold until it is done, a rejected write changes no
table and raises FWD cause 4, and when it is done the entry holds the words written, or the window holds the entry, and
nothing else changes. A copy makes the standby bank equal to the live one. The model's own choices in it: log entries 24,
62. -/
def Obligations.ForwardingTablesChangeAsCommanded : Prop :=
  ∀ (s : State) (src : Requester) (table : BitVec 2) (bank : Bool) (index : BitVec 14),
    let e := fwdEntryAt table.toNat (b2n bank) index.toNat
    let ws := (List.range e.2).map fun k => s.word (FWD_WIN_at 0 k)
    (takesWrite s src (FWD_TBL_CMD_at 0) → table.toNat ≠ 3 → s.is (FWD_TBL_STATUS_BUSY 0) = false →
      index.toNat < fwdTableLen table.toNat →
      (s.is (FWD_EPOCH_STATUS_COPY_BUSY 0) = false → s.fwdReject table.toNat (b2n bank) ws = false →
        ∃ t, exec (.fwdTblWrite src table bank index) s = .next t ∧ t.is (FWD_TBL_STATUS_BUSY 0) = true
          ∧ t = { s with regs := t.regs, outbox := t.outbox, fwdOp := some ⟨e.1, fwdClean table.toNat ws, false⟩ })
      ∧ (s.is (FWD_EPOCH_STATUS_COPY_BUSY 0) = false → s.fwdReject table.toNat (b2n bank) ws = true →
        ∃ t, exec (.fwdTblWrite src table bank index) s = .next t ∧ t.is (FWD_TBL_STATUS_REJECTED 0) = true
          ∧ t.is (pageFld (fwdPage 0) 16 4 1) = true ∧ t.is (PAGE_ERR_ACCERR (fwdPage 0)) = true
          ∧ t = { s with regs := t.regs, outbox := t.outbox })
      ∧ ∃ t, exec (.fwdTblRead src table bank index) s = .next t ∧ t.is (FWD_TBL_STATUS_BUSY 0) = true
          ∧ t = { s with regs := t.regs, fwdOp := some ⟨e.1, [], true⟩ })
    ∧ (∀ o : FwdOp, s.phase = .run → s.fwdOp = some o → ∃ t, exec .fwdTblDone s = .next t
        ∧ t.is (FWD_TBL_STATUS_BUSY 0) = false
        ∧ (o.read = false → t.tabEntry o.at_ o.words.length = o.words
            ∧ (∀ a, a < o.at_ ∨ o.at_ + 4 * o.words.length ≤ a → t.tab a = s.tab a)
            ∧ t = { s with regs := t.regs, tabs := t.tabs, fwdOp := none })
        ∧ (o.read = true → (∀ k, k < fwdEntryWords o.at_ → t.word (FWD_WIN_at 0 k) = s.tab (o.at_ + 4 * k))
            ∧ t = { s with regs := t.regs, fwdOp := none }))
    ∧ (takesWrite s src (FWD_EPOCH_CTRL_at 0) → s.is (FWD_EPOCH_STATUS_DRAINED 0) = true →
        s.is (FWD_EPOCH_STATUS_COPY_BUSY 0) = false → s.is (FWD_TBL_STATUS_BUSY 0) = false →
        s.is (FWD_EPOCH_STATUS_PENDING 0) = false → ∃ t, exec (.fwdCopy src) s = .next t
          ∧ t.is (FWD_EPOCH_STATUS_COPY_BUSY 0) = true ∧ t = { s with regs := t.regs }
          ∧ sameWords [FWD_EPOCH_STATUS_at 0] s.toBox t.toBox)
    ∧ (s.phase = .run → s.is (FWD_EPOCH_STATUS_COPY_BUSY 0) = true → ∃ t, exec .fwdCopyDone s = .next t
        ∧ t.is (FWD_EPOCH_STATUS_COPY_BUSY 0) = false
        ∧ (∀ off, off < 0x30000 → t.tab (0x100000 * (1 - s.rd (FWD_EPOCH_STATUS_LIVE 0)) + off)
            = s.tab (0x100000 * s.rd (FWD_EPOCH_STATUS_LIVE 0) + off))
        ∧ t = { s with regs := t.regs, tabs := t.tabs } ∧ sameWords [FWD_EPOCH_STATUS_at 0] s.toBox t.toBox)

/-- A bank switch: an allowed request pends, at once or for its trigger unit, whose instant each tent evaluates on its own
replica; each tent that takes it looks up in the new bank, where only members whose port is up are LIVE, and with the last
LIVE names the new bank. FLUSH_OLD leaves no queued frame under the old bank and no fence, and DRAINED is set once none is
left. Restoration notices leave one at a time. The model's own choices in it: log entries 63, 64, 160. -/
def Obligations.BankSwitchesDrainTheOldBank : Prop :=
  ∀ (s : State) (src : Requester),
    (∀ (atTrig : Bool) (trig : BitVec 5), takesWrite s src (FWD_EPOCH_CTRL_at 0) → s.is (FWD_EPOCH_STATUS_PENDING 0) = false →
      s.is (FWD_EPOCH_STATUS_DRAINED 0) = true → s.is (FWD_TBL_STATUS_BUSY 0) = false →
      s.is (FWD_EPOCH_STATUS_COPY_BUSY 0) = false → ∃ t, exec (.fwdSwitch src atTrig trig) s = .next t
        ∧ t.is (FWD_EPOCH_STATUS_PENDING 0) = true
        ∧ t = { s with regs := t.regs,
                       fwdSw := some ⟨if atTrig then some trig.toNat else none, none, List.range 8⟩ }
        ∧ sameWords [FWD_EPOCH_CTRL_at 0, FWD_EPOCH_STATUS_at 0] s.toBox t.toBox)
    ∧ (∀ (t : TentIx) (w : FwdSwitch), s.phase = .run → s.fwdSw = some w → s.switchDue w t.toNat = true → t.toNat ∈ w.left →
        let new := 1 - s.rd (FWD_EPOCH_STATUS_LIVE 0)
        ∃ u, exec (.fwdBankSwitch t) s = .next u ∧ (u.tent t.toNat).bank = new
          ∧ (∀ k m, k < 2048 → m < u.nmem new k → u.memLive new k m = true → u.up (u.member new k m) = true)
          ∧ (w.left.filter (· ≠ t.toNat) ≠ [] → u.fwdSw = some { w with
              left := w.left.filter (· ≠ t.toNat), inst := w.inst <|> w.trig.map s.trigTime })
          ∧ (w.left.filter (· ≠ t.toNat) = [] → u.fwdSw = none ∧ u.rd (FWD_EPOCH_STATUS_LIVE 0) = new
              ∧ u.is (FWD_EPOCH_STATUS_PENDING 0) = false ∧ u.is (pageFld (fwdPage 0) 16 0 1) = true))
    ∧ (takesWrite s src (FWD_EPOCH_CTRL_at 0) → s.is (FWD_EPOCH_STATUS_DRAINED 0) = false →
        ∃ t, exec (.fwdFlushOld src) s = .next t
          ∧ (∀ d ∈ t.descs, d.fence = false ∧ s.oldBank d.tent d.bank = false)
          ∧ (∀ r ∈ t.results, s.oldBank r.tent r.bank = false)
          ∧ (∀ x ∈ t.allStaged, x.started = false → s.oldBank x.desc.tent x.desc.bank = false))
    ∧ (s.phase = .run → s.is (FWD_EPOCH_STATUS_DRAINED 0) = false → s.fwdSw = none → s.oldFrames = 0 →
        ∃ t, exec .fwdDrained s = .next t ∧ t.is (FWD_EPOCH_STATUS_DRAINED 0) = true
          ∧ t.is (pageFld (fwdPage 0) 16 1 1) = true ∧ t = { s with regs := t.regs, outbox := t.outbox })
    ∧ (∀ (count : BitVec 15) (first : BitVec 14), takesWrite s src (FWD_NOTICE_CTRL_at 0) →
        s.is (FWD_NOTICE_STATUS_BUSY 0) = false → count ≠ 0 → first.toNat + count.toNat ≤ 16384 →
        let rs := toRanges ((s.reachable (s.rd (FWD_EPOCH_STATUS_LIVE 0))).filter fun r =>
          first.toNat ≤ r ∧ r < first.toNat + count.toNat)
        rs ≠ [] → ∃ t, exec (.fwdNoticeGo src count first) s = .next t ∧ t.is (FWD_NOTICE_STATUS_BUSY 0) = true
          ∧ t = { s with regs := t.regs, notices := chunksOf 1024 (rs.length + 1) rs }
          ∧ sameWords [FWD_NOTICE_CTRL_at 0, FWD_NOTICE_STATUS_at 0] s.toBox t.toBox)
    ∧ ∀ n ns, s.phase = .run → s.notices = n :: ns → s.is (FWD_NOTICE_STATUS_BUSY 0) = true →
        ∃ t, exec .fwdNoticeSend s = .next t ∧ t.notices = ns
          ∧ t.is (FWD_NOTICE_STATUS_BUSY 0) = !ns.isEmpty
          ∧ ∀ p ∈ s.leafPorts, (t.port p).nseq = ((s.port p).nseq + 1) % 65536

/-! ### Carousel (06_collectives.md) -/

/-- Carousel's table commands: an acceptable write replaces the entry's writable bits and nothing else, a rejected one keeps
the tables and raises CAR cause 2, a read shows the entry in the window, and each is BUSY till the next tick. The model's
own choices in it: log entries 62, 67. -/
def Obligations.CarouselTablesChangeAsCommanded : Prop :=
  ∀ (s : State) (src : Requester) (table : BitVec 2) (index : BitVec 16), takesWrite s src CAR_TBL_CMD_at →
    s.is CAR_TBL_STATUS_BUSY = false → index.toNat < carTableLen table.toNat →
    let k := table.toNat
    let at_ := carEntryAt k index.toNat
    let old := s.tabEntry at_ (carEntryWords k)
    let clean := ((List.range (carEntryWords k)).map fun i => s.word (CAR_WIN_at i)).mapIdx fun i w => maskWord w (carWordMask k i)
    let ws := if k = 1 then clean.mapIdx fun i w =>
        maskWord w (0xFFFFFFFF - strmRoMask i) ||| maskWord (old.getD i 0) (strmRoMask i) else clean
    (s.carWriteOk k index.toNat ws old = true → ∃ t, exec (.carTblWrite src table index) s = .next t
      ∧ t.tabEntry at_ (carEntryWords k) = ws
      ∧ (∀ a, a < at_ ∨ at_ + 4 * carEntryWords k ≤ a → t.tab a = s.tab a)
      ∧ t.is CAR_TBL_STATUS_BUSY = true ∧ (k ≠ 0 → t.streams = s.streams)
      ∧ t = { s with regs := t.regs, outbox := t.outbox, tabs := t.tabs, bOpened := t.bOpened, streams := t.streams })
    ∧ (s.carWriteOk k index.toNat ws old = false → ∃ t, exec (.carTblWrite src table index) s = .next t
      ∧ t.is CAR_TBL_STATUS_REJECTED = true ∧ t.is (pageFld carPage 16 2 1) = true ∧ t.is (PAGE_ERR_ACCERR carPage) = true
      ∧ t = { s with regs := t.regs, outbox := t.outbox })
    ∧ ∃ t, exec (.carTblRead src table index) s = .next t
      ∧ (∀ i, i < carEntryWords k → t.word (CAR_WIN_at i) = s.tab (at_ + 4 * i)) ∧ t.is CAR_TBL_STATUS_BUSY = true
      ∧ t = { s with regs := t.regs }

/-- The stream commands: RESERVE takes every resource at once or refuses with a reason and CAR cause 3; its end shows SLOTS
and the reserved state; ACTIVATE, DRAIN, ABORT and RELEASE move the state as R153 says; a released stream is free once
nothing of it is left. The model's own choices in it: log entries 68, 85, 182. -/
def Obligations.StreamCommandsMoveTheState : Prop :=
  ∀ (s : State) (src : Requester) (st : StreamIx),
    let n := st.toNat
    let e := s.strm n
    (takesWrite s src CAR_STREAM_CMD_at → s.is CAR_STREAM_STATUS_BUSY = false →
      (s.reserveReason n = 0 → (s.sx n).releasing = false → ∃ t, exec (.streamReserve src st) s = .next t ∧ t.is CAR_STREAM_STATUS_BUSY = true
        ∧ t.carOp = some (1, n) ∧ (t.sx n).held = true ∧ (t.sx n).gen = (s.sx n).gen
        ∧ (∀ u, u < 8 → (t.tent u).coll = (s.tent u).coll + (if u ∈ e.tents then e.rquota else 0))
        ∧ t = { s with regs := t.regs, streams := t.streams, tents := t.tents, carOp := t.carOp, slivers := t.slivers })
      ∧ (s.reserveReason n ≠ 0 ∨ (s.sx n).releasing = true → ∃ t, exec (.streamReserve src st) s = .next t
        ∧ t.rd CAR_STREAM_STATUS_REASON = (if (s.sx n).releasing then 10 else s.reserveReason n) ∧ t.is CAR_STREAM_STATUS_REFUSED = true
        ∧ t.is (pageFld carPage 16 3 1) = true ∧ t = { s with regs := t.regs, outbox := t.outbox })
      ∧ (∀ c : BitVec 16, e.state = 1 → (s.sx n).releasing = false → ∃ t, exec (.streamActivate src st c) s = .next t
        ∧ (t.strm n).state = 2 ∧ (t.strm n).cur = c.toNat ∧ t.curOpen n = false ∧ t.nextOpen n = false
        ∧ (t.sx n).gen = (s.sx n).gen + 1 ∧ t = { s with tabs := t.tabs, streams := t.streams })
      ∧ (e.state = 2 → ∃ t, exec (.streamDrain src st) s = .next t
        ∧ (t.strm n).state = (if s.curOpen n || s.nextOpen n then 3 else 1) ∧ (t.sx n).drainOn = true)
      ∧ (∀ c : BitVec 16, e.state = 2 ∨ e.state = 3 → c.toNat ∉ [e.cur, (e.cur + 1) % 65536] →
        (c.toNat + 1) % 65536 ∉ [e.cur, (e.cur + 1) % 65536] → ∃ t, exec (.streamAbort src st c) s = .next t
          ∧ t.is CAR_STREAM_STATUS_BUSY = true ∧ t.carOp = some (4, n) ∧ (t.strm n).cur = c.toNat
          ∧ t.curOpen n = false ∧ t.nextOpen n = false ∧ (t.sx n).gen = (s.sx n).gen + 1
          ∧ ∀ i ∈ e.slivers, ∀ k ∈ (t.sliver i).slots, k.stream ≠ n)
      ∧ (e.state = 1 → (s.sx n).releasing = false → exec (.streamRelease src st) s
          = .next { s with streams := (s.setSx n { s.sx n with releasing := true }).streams }))
    ∧ (s.phase = .run →
        (s.carOp = some (1, n) → ∃ t, exec (.streamReserveDone st) s = .next t ∧ (t.strm n).state = 1
          ∧ (t.strm n).slots = slotsOf (s.grp e.group) e ∧ t.is CAR_STREAM_STATUS_BUSY = false
          ∧ t = { s with regs := t.regs, tabs := t.tabs, streams := t.streams, carOp := none })
        ∧ (s.carOp = some (4, n) → ∃ t, exec (.streamAbortDone st) s = .next t ∧ (t.strm n).state = 2
          ∧ (t.sx n).aborted = [] ∧ t.is CAR_STREAM_STATUS_BUSY = false ∧ t.carOp = none)
        ∧ ((s.sx n).releasing = true → s.strmResults n = false → (s.sx n).retract = none → (s.sx n).retractQ = [] →
          s.replay = none → ∃ t, exec (.streamFreed st) s = .next t ∧ (t.strm n).state = 0 ∧ (t.sx n).held = false
            ∧ (∀ u, u < 8 → (t.tent u).coll = (s.tent u).coll - (if u ∈ e.tents then e.rquota else 0))
            ∧ (t.sx n).epochs = []))

/-! ### Contributions and results (06_collectives.md R155 to R183; 12_faults.md R368, R375) -/

/-- A contribution's way: the first that can go on is steered to its sliver's intake, or discarded and counted; a sliver takes
a whole part once, or discards and counts it; a drain marker with no contribution before it marks its port; a slot that
stays open for CAR_STALL_TK is shown with CAR cause 0. The model's own choices in it: log entries 80, 81, 89, 179, 181. -/
def Obligations.ContributionsReachTheirSlot : Prop :=
  ∀ s : State, s.phase = .run →
    (∀ (p : Slot) (i : Nat) (it : Arrived), let x := s.port p.toNat
      let n := s.strm (frStream it.frame)
      let sl := n.owner (frElemOff it.frame / n.chunk)
      x.steer[i]? = some it → frKind it.frame = 1 → it.dest = none →
      (∀ h y, h < i → x.steer[h]? = some y → frKind y.frame ≠ 1 ∨ y.dest ≠ none ∨ s.steerOne p.toNat h y = none) →
      (∀ k, s.steerCheck p.toNat it.frame = .error k → s.isPort p.toNat = true → ∃ t, exec (.contributionSteer p) s = .next t
        ∧ (t.port p.toNat).steer = x.steer.eraseIdx i ∧ t.slivers = s.slivers
        ∧ t.ctr (carTentPage (p.toNat / 256)) (256 * k + p.toNat % 256)
            = s.ctr (carTentPage (p.toNat / 256)) (256 * k + p.toNat % 256) + 1)
      ∧ ∀ j m me, s.steerCheck p.toNat it.frame = .ok (j, m, me) → (s.sliver sl).intake.length < 2 →
        ∃ (t : State) (q : Part), exec (.contributionSteer p) s = .next t ∧ q.frame = it.frame ∧ q.port = p.toNat ∧ q.j = j
          ∧ q.mset = m ∧ q.mepoch = me ∧ q.arrived = 0 ∧ q.total = frCells it.frame
          ∧ t = { s with ports := (s.setPort p.toNat { x with steer := x.steer.set i { it with dest := some sl } }).ports,
                         slivers := (s.setSliver sl { s.sliver sl with intake := (s.sliver sl).intake ++ [q] }).slivers })
    ∧ (∀ (sl : SliverIx) (q : Part) (up : Upset), let v := s.sliver sl.toNat
        let s1 := (s.toBox.setSliver sl.toNat { v with intake := v.intake.erase q }).traceExit (sl.toNat % 8)
          (traceStage q.trace 4 (s.tick32 (sl.toNat % 8))) none 5 q.frame
        v.inv = none → (v.intake.find? fun q => decide (q.arrived = q.total)) = some q →
        (∀ k, s1.takeCheck sl.toNat q = .error k → s.isPort q.port = true → ∃ t,
            exec (.sliverTakePart sl up) s = .next t
          ∧ (t.sliver sl.toNat) = { v with intake := v.intake.erase q }
          ∧ t.ctr (carTentPage (q.port / 256)) (256 * k + q.port % 256)
              = s.ctr (carTentPage (q.port / 256)) (256 * k + q.port % 256) + 1)
        ∧ ∀ c k, s1.takeCheck sl.toNat q = .ok (c, k) → ∃ t, exec (.sliverTakePart sl up) s = .next t
          ∧ (t.sliver sl.toNat).intake = v.intake.erase q
          ∧ ∃ y ∈ (t.sliver sl.toNat).slots, y.stream = frStream q.frame ∧ y.epoch = frCepoch q.frame ∧ y.chunk = c
            ∧ (q.j, k) ∈ y.arrived)
    ∧ (∀ (p : Slot) (st : StreamIx) (i : Nat), let x := s.port p.toNat
        (x.steer.findIdx? fun a => frKind a.frame == 4 && markStream a.frame == st.toNat) = some i →
        i < (x.steer.takeWhile fun a => frKind a.frame != 1).length → (s.sx st.toNat).drainOn = true →
        ∃ t, exec (.drainMarkSet p st) s = .next t ∧ (t.port p.toNat) = { x with steer := x.steer.eraseIdx i }
          ∧ p.toNat ∈ (t.sx st.toNat).marked
          ∧ t = { s with regs := t.regs, outbox := t.outbox, ports := t.ports, streams := t.streams, tents := t.tents,
                         ctrs := t.ctrs, mem := t.mem, badBlocks := t.badBlocks })
    ∧ ∀ (st : StreamIx) (e : BitVec 16) (c : Word) (y : ChunkSlot), let sl := (s.strm st.toNat).owner c.toNat
        s.slotOf sl st.toNat e.toNat c.toNat = some y → s.rd CAR_STALL_TK_LIMIT ≠ 0 → y.stalled = false → y.done = false →
        y.opened + s.rd CAR_STALL_TK_LIMIT ≤ s.raw → ∃ t, exec (.slotStall st e c) s = .next t
          ∧ t.slotOf sl st.toNat e.toNat c.toNat = some { y with stalled := true }
          ∧ t.rd CAR_STALL_INFO0_CEPOCH = e.toNat ∧ t.rd CAR_STALL_INFO0_STREAM = st.toNat
          ∧ t.rd CAR_STALL_INFO1_CHUNK = c.toNat ∧ t.is (pageFld carPage 16 0 1) = true

/-- A complete chunk that nothing holds, and whose sliver is not under watch or whose result needs no twin, releases its
result: each frame that the quota holds enters the result queue for the ports that carry it, its fingerprint is kept, and
with the last frame the slot is freed and the chunk counts as released. The model's own choices in it: log entries 69, 82,
162. -/
def Obligations.CompleteChunksReleaseResults : Prop :=
  ∀ (s : State) (sl : SliverIx) (y : ChunkSlot) (r : EpochRec) (o : ResultPart), s.phase = .run →
    ((s.sliver sl.toNat).slots.find? fun y => y.done && !y.poisoned && y.hold == .none && y.out != []) = some y →
    (s.sx y.stream).epochRec y.epoch = some r → y.out = [o] → s.watched sl.toNat = false ∨ y.checked = true →
    let f := s.resultFrame y.stream r o
    let due := r.bmap.filter (s.carries f)
    s.quotaUsed y.stream (sl.toNat % 8) + frCells f ≤ (s.strm y.stream).rquota →
    ∃ t, exec (.resultRelease sl) s = .next t
      ∧ (∀ z ∈ (t.sliver sl.toNat).slots, ¬ (z.stream = y.stream ∧ z.epoch = y.epoch ∧ z.chunk = y.chunk))
      ∧ (∃ q ∈ (t.sx y.stream).epochs, q.epoch = y.epoch ∧ y.chunk ∈ q.released
          ∧ (y.chunk, o.part, frFprint f) ∈ q.rfps)
      ∧ ((s.strmGrp y.stream).dest = true → due ≠ [] → ∃ x ∈ t.results, x.frame = f ∧ x.due = due ∧ x.stream = y.stream
          ∧ x.chunk = y.chunk ∧ x.part = o.part ∧ x.tent = sl.toNat % 8)

/-! ### Safety Net, seals and twins (07_determinism_audit.md; 12_faults.md R354 to R358) -/

/-- Safety Net: an acceptable REPLAY is BUSY until its last frame has left, a refused one shows its reason with SNT cause 0; a
RETRACT waits for its recomputation where the contributions are kept; a recomputation from the parts that are kept, or
what a fault gives for it, that is equal is a null retraction, a different one takes the next RSEQ and raises SNT cause 1.
Seal records take the next SEQ, and the newest one is signed in time. The model's own choices in it: log entries 82, 83,
86, 87. -/
def Obligations.RetractionsAndSealsAreOrdered : Prop :=
  ∀ (s : State) (src : Requester) (st : StreamIx) (e : BitVec 16),
    let n := st.toNat
    let x := s.sx n
    let why := s.sntReason n e.toNat (s.rd SNT_CHUNK_FIRST) (s.rd SNT_TARGET_COUNT) true
    (takesWrite s src SNT_CMD_at → s.is SNT_STATUS_BUSY = false →
      (why = 0 → (x.epochRec e.toNat).isSome = true → ∃ t, exec (.sntReplay src st e) s = .next t
        ∧ t.is SNT_STATUS_BUSY = true ∧ ∃ ids, t.replay = some { stream := n, ids := ids }
          ∧ ∀ i, i ∈ ids ↔ s.resId ≤ i ∧ i < t.resId)
      ∧ (why ≠ 0 → ∃ t, exec (.sntReplay src st e) s = .next t ∧ t.rd SNT_STATUS_REASON = why
        ∧ t.is SNT_STATUS_REFUSED = true ∧ t.is (pageFld sntPage 16 0 1) = true
        ∧ t = { s with regs := t.regs, outbox := t.outbox })
      ∧ ∀ r, x.epochRec e.toNat = some r → s.sntReason n e.toNat (s.rd SNT_CHUNK_FIRST) 1 false = 0 →
        (x.retract = none → s.policy n = 2 → s.chunkKept n r (s.rd SNT_CHUNK_FIRST) = true →
          ∃ t, exec (.sntRetract src st e) s = .next t
            ∧ (t.sx n).retract = some ⟨e.toNat, s.rd SNT_CHUNK_FIRST, 2, none⟩ ∧ t = { s with streams := t.streams })
        ∧ (x.retract = none → s.policy n ≠ 2 ∨ s.chunkKept n r (s.rd SNT_CHUNK_FIRST) = false →
          ∃ t, exec (.sntRetract src st e) s = .next t ∧ t.is SNT_STATUS_UNRECOV = true
            ∧ t.is (pageFld sntPage 16 1 1) = true ∧ (t.sx n).rseq = (x.rseq + 1) % 65536))
    ∧ (s.phase = .run →
        (∀ r : Replay, s.replay = some r → r.broken = false → (s.results.all fun q => decide (q.id ∉ r.ids)) = true →
          (s.allStaged.all fun y => y.result.all fun k => decide (k.id ∉ r.ids)) = true →
          ∃ t, exec .replayDone s = .next t ∧ t.is SNT_STATUS_BUSY = false
            ∧ t = { s with regs := t.regs, replay := none } ∧ sameWords [SNT_STATUS_at] s.toBox t.toBox)
        ∧ (∀ q r, x.retract = some q → x.retractQ = [] → x.epochRec q.epoch = some r →
          s.chunkKept n r q.chunk = true → ∀ faulty : Option (List (List Byte)),
          let pays := faulty.getD (payloadsOf (s.recompute n r q.chunk (partsOf q.chunk r.kept)))
          let fps := (List.range (chunkFps r q.chunk).length).map fun i =>
            (pays[i]?).elim ((chunkFps r q.chunk).getD i (0, 0)).2 fun b => crc64 (padPayload b)
          (fps = (chunkFps r q.chunk).map (·.2) → ∃ t, exec (.retractRecomputeDone st faulty) s = .next t
            ∧ (t.sx n).retract = none ∧ t.is SNT_STATUS_NULL = true
            ∧ t.ctr sntPage 1 = s.ctr sntPage 1 + 1 ∧ (t.sx n).rseq = x.rseq)
          ∧ (fps ≠ (chunkFps r q.chunk).map (·.2) → ∃ t, exec (.retractRecomputeDone st faulty) s = .next t
            ∧ (t.sx n).retract = none ∧ t.is (pageFld sntPage 16 1 1) = true ∧ (t.sx n).rseq = (x.rseq + 1) % 65536))
        ∧ (∀ j js, s.sealJobs = j :: js → j.stream = n → s.sealLast ≠ none → ∃ t, exec (.sealRecordWrite st) s = .next t
          ∧ t.sealJobs = js ∧ t.sealSeqNow = (s.sealSeqNow + 1) % 2 ^ 64)
        ∧ ∀ l, s.sealLast = some l → s.maySign = true → s.sealSigned + s.rd SEC_SEAL_CTRL_SIGN_TK ≤ s.raw →
          leAt l.bytes 2 2 < 2 ^ 15 → ∃ t, exec .sealSignTimer s = .next t ∧ t.sealSigned = s.raw
            ∧ t.sealLast = some ⟨s.sealBytes
                (bytesAt l.bytes 0 2 ++ bytesLE 2 (leAt l.bytes 2 2 + 2 ^ 15) ++ bytesAt l.bytes 4 156) true, l.index⟩
            ∧ t = { s with sealLast := t.sealLast, sealSigned := t.sealSigned, mem := t.mem, sealQ := t.sealQ })

/-- Twins compute from the parts at hand, or give what a fault gives them: a held result that its twin confirms may be
released, one that its twin contradicts waits for a third computation with MISMATCH and CAR cause 4, and where all three
differ the slot is poisoned with THREEWAY and CAR cause 5; a released chunk's twin that agrees is counted in CAR_TWIN_OK.
A watch bit is cleared WINDOW seconds after its last event. The model's own choices in it: log entries 88, 90. -/
def Obligations.TwinsCheckResults : Prop :=
  ∀ s : State, s.phase = .run →
    (∀ (st : StreamIx) (e : BitVec 16) (c : Word) (y : ChunkSlot), let sl := (s.strm st.toNat).owner c.toNat
      s.slotOf sl st.toNat e.toNat c.toNat = some y →
      s.twinParts y = true → ∀ faulty : Option (List (List Byte)),
      let pays := s.heldPays y faulty
      (∀ u, y.hold = .twin u →
        (payFps pays = y.outFps → ∃ t, exec (.twinComplete st e c faulty) s = .next t
          ∧ t.slotOf sl st.toNat e.toNat c.toNat = some { y with hold := .none, checked := true }
          ∧ t = { s with slivers := t.slivers })
        ∧ (payFps pays ≠ y.outFps → ∃ t, exec (.twinComplete st e c faulty) s = .next t
          ∧ t.slotOf sl st.toNat e.toNat c.toNat = some { y with hold := .third u (pays.map padPayload) }
          ∧ t.is CAR_TWIN_STATUS_MISMATCH = true ∧ t.is (pageFld carPage 16 4 1) = true
          ∧ t = { s with slivers := t.slivers, regs := t.regs, outbox := t.outbox }))
      ∧ ∀ u twin, y.hold = .third u twin →
        (payFps pays = y.outFps → ∃ t, exec (.thirdComputeDone st e c faulty) s = .next t
          ∧ t.slotOf sl st.toNat e.toNat c.toNat = some { y with hold := .none, checked := true })
        ∧ (payFps pays ≠ y.outFps → payFps pays ≠ payFps twin →
          ∃ t z, exec (.thirdComputeDone st e c faulty) s = .next t
            ∧ t.slotOf sl st.toNat e.toNat c.toNat = some z ∧ z.poisoned = true ∧ z.out = [] ∧ z.done = false
            ∧ t.is CAR_TWIN_STATUS_THREEWAY = true ∧ t.is (pageFld carPage 16 5 1) = true
            ∧ t = { s with slivers := t.slivers, regs := t.regs, outbox := t.outbox }))
    ∧ (∀ (st : StreamIx) (e : BitVec 16) (c : Word) (w : Twin) (r : EpochRec) (faulty : Option (List (List Byte))),
        s.slotOf ((s.strm st.toNat).owner c.toNat) st.toNat e.toNat c.toNat = none →
        ((s.sx st.toNat).twins.find? fun w => w.epoch == e.toNat && w.chunk == c.toNat) = some w →
        (s.sx st.toNat).epochRec e.toNat = some r → s.chunkKept st.toNat r c.toNat = true →
        payFps (faulty.getD (payloadsOf (s.recompute st.toNat r c.toNat (partsOf c.toNat r.kept))))
          = (chunkFps r c.toNat).map (·.2) →
        ∃ t, exec (.twinComplete st e c faulty) s = .next t ∧ t.ctr carPage 2 = s.ctr carPage 2 + 1
          ∧ (t.sx st.toNat).twins = (s.sx st.toNat).twins.filter (· ≠ w)
          ∧ t = { s with streams := t.streams, ctrs := t.ctrs, regs := t.regs, outbox := t.outbox })
    ∧ ∀ sl : SliverIx, (s.events.all fun x => !(x.cls == 7 && x.unit == sl.toNat / 8 && x.tent == sl.toNat % 8
          && decide (s.raw < x.raw + s.rd MGT_FAULT_CFG_WINDOW * 640000000))) = true →
        s.is (TMB_SLIVER_MAP_QUAR (sl.toNat % 8) (sl.toNat / 8)) = false → sl.toNat ∉ s.substs →
        ∃ t, exec (.watchExpire sl) s = .next t ∧ t.watched sl.toNat = false ∧ t = { s with regs := t.regs }
          ∧ sameWords [CAR_WATCH_at (sl.toNat / 32)] s.toBox t.toBox
          ∧ ∀ k : SliverIx, k ≠ sl → t.watched k.toNat = s.watched k.toNat

/-! ### The kernel library (08_tumblers.md R220 to R225, R254) -/

/-- The kernel library: STAGE and VERIFY are BUSY until done; a staged piece is the window's content; a verified image is
written to its slot or rejected with its first failing reason; UNLOAD empties a slot that no stream uses; INFO shows a
slot's figures. A substitution moves a sliver to its array's spare at once, or once its stream is not running. The model's
own choices in it: log entries 62, 70, 71. -/
def Obligations.KernelLibraryCommands : Prop :=
  ∀ (s : State) (src : Requester),
    (takesWrite s src TMB_KLOAD_CMD_at → s.is TMB_KLOAD_STATUS_BUSY = false →
      (∀ piece : BitVec 2, piece ≠ 3 → ∃ t, exec (.kloadStage src piece) s = .next t ∧ t.is TMB_KLOAD_STATUS_BUSY = true
        ∧ t = { s with regs := t.regs, kop := some (.stage piece.toNat) } ∧ sameWords [TMB_KLOAD_STATUS_at] s.toBox t.toBox)
      ∧ ∀ slot : BitVec 8,
        (s.kslotInUse slot.toNat = false → (∃ t, exec (.kloadVerify src slot) s = .next t
            ∧ t.is TMB_KLOAD_STATUS_BUSY = true ∧ t = { s with regs := t.regs, kop := some (.verify slot.toNat) })
          ∧ ∃ t, exec (.kloadUnload src slot) s = .next t ∧ mapGet (fun _ => []) t.kernels slot.toNat = []
            ∧ (∀ k, k ≠ slot.toNat → mapGet (fun _ => []) t.kernels k = mapGet (fun _ => []) s.kernels k)
            ∧ t = { s with regs := t.regs, outbox := t.outbox, kernels := t.kernels, kernBad := t.kernBad })
        ∧ ∃ t, exec (.kloadInfo src slot) s = .next t
          ∧ t.is TMB_KINFO_VALID = (mapGet (fun _ => []) s.kernels slot.toNat != [])
          ∧ t = { s with regs := t.regs, outbox := t.outbox })
    ∧ (s.phase = .run →
        (∀ p, s.kop = some (.stage p) → ∃ t, exec .kloadStageDone s = .next t ∧ t.is TMB_KLOAD_STATUS_BUSY = false
          ∧ t = { s with regs := t.regs, kop := none, kpieces := t.kpieces }
          ∧ mapGet (fun _ => []) t.kpieces p = wordBytesLE ((List.range 8192).map fun i => s.word (TMB_WIN_at i))
          ∧ (p < 3 → (t.rd TMB_KLOAD_STATUS_STAGED).testBit p = true))
        ∧ ∀ slot, s.kop = some (.verify slot) →
          (s.loaderReason slot = 0 → ∃ t, exec .kloadVerifyDone s = .next t ∧ t.is TMB_KLOAD_STATUS_ACCEPTED = true
            ∧ t = { s with regs := t.regs, outbox := t.outbox, kop := none, kpieces := [], kernels := t.kernels, kernBad := t.kernBad }
            ∧ t.kernels = mapSet (fun _ => []) s.kernels slot (s.stagedImage.take (s.rd TMB_KLOAD_LEN_LENGTH)))
          ∧ (s.loaderReason slot ≠ 0 → ∃ t, exec .kloadVerifyDone s = .next t ∧ t.is TMB_KLOAD_STATUS_REJECTED = true
            ∧ t.rd TMB_KLOAD_STATUS_REASON = s.loaderReason slot
            ∧ t = { s with regs := t.regs, outbox := t.outbox, kop := none, kpieces := [] }))
    ∧ (∀ (t : TentIx) (l : BitVec 9), takesWrite s src (TMB_SUBST_CMD_at t.toNat) →
        s.is (TMB_SLIVER_MAP_SUBST t.toNat l.toNat) = false →
        (s.substs.any fun x => x % 8 == t.toNat && arrayOf (x / 8) == arrayOf l.toNat) = false →
        s.spareUsed t.toNat (arrayOf l.toNat) = false →
        (s.sliverOwner (8 * l.toNat + t.toNat) = none → ∃ u, exec (.tmbSubst src t l) s = .next u
          ∧ u.is (TMB_SLIVER_MAP_SUBST t.toNat l.toNat) = true ∧ u.rd (TMB_SLIVER_MAP_POS t.toNat l.toNat) = 16
          ∧ u.is (TMB_SLIVER_MAP_QUAR t.toNat l.toNat) = false ∧ u.is (pageFld (tmbTentPage t.toNat) 16 1 1) = true)
        ∧ ∀ st, s.sliverOwner (8 * l.toNat + t.toNat) = some st → 2 ≤ (s.strm st).state →
          ∃ u, exec (.tmbSubst src t l) s = .next u ∧ u.is (TMB_SUBST_STATUS_PENDING t.toNat) = true
            ∧ u = { s with regs := u.regs, substs := s.substs ++ [8 * l.toNat + t.toNat] })
    ∧ ∀ sl : SliverIx, s.phase = .run → sl.toNat ∈ s.substs → s.sliverOwner sl.toNat = none →
        ∃ u, exec (.substTake sl) s = .next u ∧ sl.toNat ∉ u.substs
          ∧ u.is (TMB_SLIVER_MAP_SUBST (sl.toNat % 8) (sl.toNat / 8)) = true
          ∧ u.rd (TMB_SLIVER_MAP_POS (sl.toNat % 8) (sl.toNat / 8)) = 16
          ∧ u = { s with regs := u.regs, outbox := u.outbox, ctrs := u.ctrs, substs := u.substs }

/-! ### Tumblers (08_tumblers.md R226 to R251) -/

/-- The scalar instructions write their destination register with the result of R236, R239 to R241, and change nothing but the
invocation; s0 discards. RDSYS writes what its selector names; on a sliver of no stream it runs in a diagnostic image,
which has registers of its own. The model's own choices in it: log entries 72, 76, 77. -/
def Obligations.ScalarInstructionsWriteTheirRegister : Prop :=
  (∀ (s : State) (sl : SliverIx) (st w : Nat) (v : Inv) (d a b c : Reg5), atWord s sl.toNat st v w →
    let wr (x : Nat) : State := ranNext s sl.toNat st w (v.setS d.toNat x)
    let ra := v.sr a.toNat
    let rb := v.sr b.toNat
    (∀ func : BitVec 8,
      (w = encR 0x01 d.toNat a.toNat b.toNat func.toNat → exec (.salu sl d a b func) s = .next (wr (salu func.toNat ra rb)))
      ∧ (w = encR 0x08 d.toNat a.toNat b.toNat func.toNat → exec (.sfpu sl d a b func) s = .next (wr (sfpu func.toNat ra rb))))
    ∧ (∀ imm : BitVec 16,
        (w = encI 0x02 d.toNat a.toNat imm.toNat →
          exec (.addi sl d a imm) s = .next (wr (ofSigned 32 ((ra : Int) + toSigned 16 imm.toNat))))
        ∧ (w = encI 0x03 d.toNat a.toNat imm.toNat → exec (.andi sl d a imm) s = .next (wr (ra &&& imm.toNat)))
        ∧ (w = encI 0x04 d.toNat a.toNat imm.toNat → exec (.ori sl d a imm) s = .next (wr (ra ||| imm.toNat)))
        ∧ (w = encI 0x05 d.toNat a.toNat imm.toNat → exec (.xori sl d a imm) s = .next (wr (ra ^^^ imm.toNat)))
        ∧ (w = encI 0x06 d.toNat a.toNat imm.toNat → exec (.lui sl d a imm) s = .next (wr (imm.toNat * 2 ^ 16)))
        ∧ (w = encI 0x07 d.toNat a.toNat imm.toNat →
          exec (.shifti sl d a imm) s = .next (wr (salu (5 + imm.toNat / 2 ^ 14) ra (imm.toNat % 32)))))
    ∧ (w = encF 0x09 d.toNat a.toNat b.toNat c.toNat →
        exec (.ffma sl d a b c) s = .next (wr (fma32 ra rb (v.sr c.toNat))))
    ∧ (w = encI 0x3E d.toNat a.toNat 0 →
        exec (.rdsys sl d a) s = .next { wr (s.toBox.rdsys sl.toNat a.toNat s.freeCtr) with freeCtr := s.freeCtr + 1 }))
    ∧ ∀ (s : State) (sl : SliverIx) (d a : Reg5), s.phase = .run → s.sliverOwner sl.toNat = none → a.toNat ≤ 4 →
      ∃ t r, exec (.rdsys sl d a) s = .next t ∧ (t.sliver sl.toNat).diag = some r
        ∧ r = ((s.sliver sl.toNat).diag.getD { entry := .openE, epoch := 0, chunk := 0, part := none, k := 0 }).setS d.toNat
          (s.toBox.rdsys sl.toNat a.toNat s.freeCtr)
        ∧ t = { s with slivers := t.slivers, freeCtr := s.freeCtr + 1 }
        ∧ ∀ k, k ≠ sl.toNat → t.sliver k = s.sliver k

/-- Loads and stores: the bytes at base plus offset times size, big-endian, sign-extended by LDH and LDB; a store changes
exactly those bytes of its window. A misaligned access faults with cause 3, one that no window holds whole with cause 2, a
store into a window that is read only with cause 4, and each ends the invocation. The model's own choices in it: log
entries 73, 76. -/
def Obligations.LoadsAndStoresUseTheWindows : Prop :=
  (∀ (v : Inv) (img bs : List Byte) (at_ n al : Nat), bs.length = n →
    let wins : List (Nat × Nat × Nat × Bool) := (if v.entry = .combineE then [] else [(0, 0, 64 * imgStateLines img, true)])
      ++ [(1, 0x2000, 0x8000, true), (2, 0xA000, 64 * imgConstLines img, false), (3, 0xE000, 0x1000, false),
          (4, 0xF000, 0x1000, false), (5, 0x10000, 0x1000, true)]
    let holder := wins.find? fun x => decide (x.2.1 ≤ at_) && decide (at_ + n ≤ x.2.1 + x.2.2.1)
    (at_ % al ≠ 0 → v.load img at_ n al = .error 3 ∧ v.store img at_ al bs = .error 3)
    ∧ (at_ % al = 0 → holder = none → v.load img at_ n al = .error 2 ∧ v.store img at_ al bs = .error 2)
    ∧ ∀ k lo len rw, at_ % al = 0 → holder = some (k, lo, len, rw) →
        v.load img at_ n al = .ok ((List.range n).map fun i => v.byteAt img k (at_ + i))
        ∧ (rw = false → v.store img at_ al bs = .error 4)
        ∧ (rw = true → ∃ x, v.store img at_ al bs = .ok x
          ∧ x = { v with state := x.state, work := x.work, result := x.result }
          ∧ ∀ j a, j < 6 → x.byteAt img j a
              = if j = k ∧ at_ ≤ a ∧ a < at_ + n then bs.getD (a - at_) 0 else v.byteAt img j a))
  ∧ ∀ (s : State) (sl : SliverIx) (st w : Nat) (v : Inv) (t base : Reg5) (pg : Reg3) (off : BitVec 13),
    atWord s sl.toNat st v w →
    let img := (s.sx st).image
    let ea (n : Nat) : Nat := ofSigned 32 ((v.sr base.toNat : Int) + toSigned 13 off.toNat * n)
    let load (n : Nat) := v.load img (ea n) n n
    let store (n : Nat) := v.store img (ea n) n (bytesBE n (v.sr t.toNat))
    let wr (x : Nat) : State := ranNext s sl.toNat st w (v.setS t.toNat x)
    let ends (i : Instr) (cause : Nat) : Prop := ∃ u, exec i s = .next u ∧ (u.sliver sl.toNat).inv = none
      ∧ u.ctr (tmbTentPage (sl.toNat % 8)) 1 = s.ctr (tmbTentPage (sl.toNat % 8)) 1 + 1
      ∧ (s.is TMB_FAULT_INFO2_VALID = false → u.rd TMB_FAULT_INFO0_CAUSE = cause)
    (∀ bs : List Byte,
      (w = encM 0x10 t.toNat base.toNat 0 off.toNat → load 4 = .ok bs → exec (.ldw sl t base off) s = .next (wr (natBE bs)))
      ∧ (w = encM 0x11 t.toNat base.toNat 0 off.toNat → load 2 = .ok bs →
        exec (.ldh sl t base off) s = .next (wr (ofSigned 32 (toSigned 16 (natBE bs)))))
      ∧ (w = encM 0x12 t.toNat base.toNat 0 off.toNat → load 2 = .ok bs → exec (.ldhu sl t base off) s = .next (wr (natBE bs)))
      ∧ (w = encM 0x13 t.toNat base.toNat 0 off.toNat → load 1 = .ok bs →
        exec (.ldb sl t base off) s = .next (wr (ofSigned 32 (toSigned 8 (natBE bs)))))
      ∧ (w = encM 0x14 t.toNat base.toNat 0 off.toNat → load 1 = .ok bs → exec (.ldbu sl t base off) s = .next (wr (natBE bs)))
      ∧ (w = encM 0x18 t.toNat base.toNat pg.toNat off.toNat →
        v.load img (ea 4) 64 4 = .ok bs → exec (.vld sl t base pg off) s
          = .next (ranNext s sl.toNat st w (v.setV t.toNat (mergeBytes (v.pr pg.toNat) (v.vr t.toNat) bs))))
      ∧ ∀ x, w = encM 0x19 t.toNat base.toNat pg.toNat off.toNat →
        v.load img (ea 4) 64 4 = .ok bs →
        v.store img (ea 4) 4 (mergeBytes (v.pr pg.toNat) bs (v.vr t.toNat)) = .ok x →
        exec (.vst sl t base pg off) s = .next (ranNext s sl.toNat st w x))
    ∧ (∀ x,
        (w = encM 0x15 t.toNat base.toNat 0 off.toNat → store 4 = .ok x →
          exec (.stw sl t base off) s = .next (ranNext s sl.toNat st w x))
        ∧ (w = encM 0x16 t.toNat base.toNat 0 off.toNat → store 2 = .ok x →
          exec (.sth sl t base off) s = .next (ranNext s sl.toNat st w x))
        ∧ (w = encM 0x17 t.toNat base.toNat 0 off.toNat → store 1 = .ok x →
          exec (.stb sl t base off) s = .next (ranNext s sl.toNat st w x)))
    ∧ ∀ cause,
        (w = encM 0x10 t.toNat base.toNat 0 off.toNat → load 4 = .error cause → ends (.ldw sl t base off) cause)
        ∧ (w = encM 0x11 t.toNat base.toNat 0 off.toNat → load 2 = .error cause → ends (.ldh sl t base off) cause)
        ∧ (w = encM 0x12 t.toNat base.toNat 0 off.toNat → load 2 = .error cause → ends (.ldhu sl t base off) cause)
        ∧ (w = encM 0x13 t.toNat base.toNat 0 off.toNat → load 1 = .error cause → ends (.ldb sl t base off) cause)
        ∧ (w = encM 0x14 t.toNat base.toNat 0 off.toNat → load 1 = .error cause → ends (.ldbu sl t base off) cause)
        ∧ (w = encM 0x15 t.toNat base.toNat 0 off.toNat → store 4 = .error cause → ends (.stw sl t base off) cause)
        ∧ (w = encM 0x16 t.toNat base.toNat 0 off.toNat → store 2 = .error cause → ends (.sth sl t base off) cause)
        ∧ (w = encM 0x17 t.toNat base.toNat 0 off.toNat → store 1 = .error cause → ends (.stb sl t base off) cause)
        ∧ (w = encM 0x18 t.toNat base.toNat pg.toNat off.toNat →
          v.load img (ea 4) 64 4 = .error cause → ends (.vld sl t base pg off) cause)
        ∧ (w = encM 0x19 t.toNat base.toNat pg.toNat off.toNat →
          (v.load img (ea 4) 64 4 = .error cause → ends (.vst sl t base pg off) cause)
          ∧ ∀ bs, v.load img (ea 4) 64 4 = .ok bs →
            v.store img (ea 4) 4 (mergeBytes (v.pr pg.toNat) bs (v.vr t.toNat)) = .error cause →
            ends (.vst sl t base pg off) cause)

/-- Branches, LOOP, EXIT and FAULT: control goes forward by the signed offset where the condition holds; LOOP counts down and
jumps back at most LOOPLIM times; EXIT of an OPEN starts its STEP and keeps the state window; FAULT and a word that is no
instruction end the invocation, counted, with the slot poisoned and TMB cause 0. The model's own choices in it: log
entries 75, 76. -/
def Obligations.ControlInstructionsMoveTheInvocation : Prop :=
  ∀ (s : State) (sl : SliverIx) (st w : Nat) (v : Inv) (a b : Reg5) (off : BitVec 16),
    let img := (s.sx st).image
    let pg := tmbTentPage (sl.toNat % 8)
    let ra := v.sr a.toNat
    let rb := v.sr b.toNat
    let go (taken : Bool) (bits o : Nat) : State :=
      if taken then ranWord s sl.toNat st w v ((v.pc : Int) + toSigned bits o).toNat none else ranNext s sl.toNat st w v
    let ends (i : Instr) (cause fcode : Nat) : Prop := ∃ u, exec i s = .next u ∧ (u.sliver sl.toNat).inv = none
      ∧ u.ctr pg 1 = s.ctr pg 1 + 1 ∧ u.is (pageFld pg 16 0 1) = true
      ∧ (s.is TMB_FAULT_INFO2_VALID = false → u.rd TMB_FAULT_INFO0_CAUSE = cause ∧ u.rd TMB_FAULT_INFO3_FCODE = fcode
          ∧ u.rd TMB_FAULT_INFO2_SLIVER = sl.toNat)
      ∧ ∀ y, s.slotOf sl.toNat st v.epoch v.chunk = some y →
          ∃ z, u.slotOf sl.toNat st v.epoch v.chunk = some z ∧ z.poisoned = true
    (atWord s sl.toNat st v w →
      (w = encI 0x20 a.toNat b.toNat off.toNat → exec (.beq sl a b off) s = .next (go (ra == rb) 16 off.toNat))
      ∧ (w = encI 0x21 a.toNat b.toNat off.toNat → exec (.bne sl a b off) s = .next (go (ra != rb) 16 off.toNat))
      ∧ (w = encI 0x22 a.toNat b.toNat off.toNat →
        exec (.blt sl a b off) s = .next (go (decide (toSigned 32 ra < toSigned 32 rb)) 16 off.toNat))
      ∧ (w = encI 0x23 a.toNat b.toNat off.toNat →
        exec (.bge sl a b off) s = .next (go (decide (toSigned 32 rb ≤ toSigned 32 ra)) 16 off.toNat))
      ∧ (w = encI 0x24 a.toNat b.toNat off.toNat → exec (.bltu sl a b off) s = .next (go (decide (ra < rb)) 16 off.toNat))
      ∧ (w = encI 0x25 a.toNat b.toNat off.toNat → exec (.bgeu sl a b off) s = .next (go (decide (rb ≤ ra)) 16 off.toNat))
      ∧ (∀ o : BitVec 26, w = encJ 0x26 o.toNat → exec (.kjump sl o) s = .next (go true 26 o.toNat))
      ∧ (w = encI 0x27 a.toNat b.toNat off.toNat →
        let v1 := v.setS a.toNat (ofSigned 32 ((ra : Int) - 1))
        let n := mapGet (fun _ => 0) v.loops v.pc + 1
        (v1.sr a.toNat = 0 → exec (.kloop sl a b off) s = .next (ranNext s sl.toNat st w v1))
        ∧ (v1.sr a.toNat ≠ 0 → n + 1 ≤ imgLoopLim img b.toNat → exec (.kloop sl a b off) s
            = .next (ranWord s sl.toNat st w { v1 with loops := mapSet (fun _ => 0) v1.loops v.pc n }
                ((v.pc : Int) + toSigned 16 off.toNat).toNat (some v.pc)))
        ∧ (v1.sr a.toNat ≠ 0 → imgLoopLim img b.toNat < n + 1 → ends (.kloop sl a b off) 5 0))
      ∧ (w = encJ 0x28 0 → ∀ y, s.slotOf sl.toNat st v.epoch v.chunk = some y →
        (∀ q, v.entry = .openE → v.part = some q → ∃ t i, exec (.kexit sl) s = .next t ∧ (t.sliver sl.toNat).inv = some i
          ∧ i.entry = .stepE ∧ i.part = some q ∧ i.state = v.state ∧ i.pc = imgEntry img 1)
        ∧ (v.entry = .stepE → s.allArrived y = false → ∃ t, exec (.kexit sl) s = .next t ∧ (t.sliver sl.toNat).inv = none
          ∧ t.slotOf sl.toNat st v.epoch v.chunk = some { y with kstate := v.state }))
      ∧ ∀ imm : BitVec 16, w = encI 0x29 a.toNat b.toNat imm.toNat → ends (.kfault sl a b imm) 6 imm.toNat)
    ∧ (s.phase = .run → (s.sliver sl.toNat).inv = some v → s.sliverOwner sl.toNat = some st →
        kLegal (kWordAt img v.pc) = false → ends (.illegalInstructionWord sl) 1 0)

/-- The vector and predicate instructions write their destination register, lane by lane under the predicate, with the results
of R240 and R242 to R245, and change nothing but the invocation: VRED adds adjacent lanes in a fixed tree, or keeps the
largest or smallest with its lane, and zeros the other lanes; PLOGIC works bit by bit. The model's own choices in it: log
entries 72, 74, 76. -/
def Obligations.VectorInstructionsWriteTheirRegister : Prop :=
  ∀ (s : State) (sl : SliverIx) (st w : Nat) (v : Inv) (d a b c : Reg5) (pg ty : Reg3) (func : BitVec 5),
    atWord s sl.toNat st v w →
    let lane (r : Reg5) (i : Nat) : Nat := (lanesOf ty.toNat (v.vr r.toNat)).getD i 0
    let num (r : Reg5) (i : Nat) : Fp := (tyFmt ty.toNat).decode (lane r i)
    let each (f : Nat → Nat) : State :=
      ranNext s sl.toNat st w (v.setV d.toNat (predLanes ty.toNat (v.pr pg.toNat) (v.vr d.toNat) f))
    let on := (List.range (lanes ty.toNat)).filter fun i => laneOn ty.toNat (v.pr pg.toNat) i
    let red (l : List Nat) : State := ranNext s sl.toNat st w (v.setV d.toNat (ofLanes ty.toNat (padTo (lanes ty.toNat) 0 l)))
    let off0 := if tyFp ty.toNat then (tyFmt ty.toNat).code (.fin true 0 0) else 0
    let best (big : Bool) : Nat :=
      on.foldl (fun m i => laneMinMax ty.toNat big m (lane a i)) (laneExtreme ty.toNat big)
    let holds (m y : Nat) : Bool := if laneNan ty.toNat m then laneNan ty.toNat y
      else !laneNan ty.toNat y && !laneBelow ty.toNat y m && !laneBelow ty.toNat m y
    let vw (op : Nat) := encV op d.toNat a.toNat b.toNat pg.toNat ty.toNat func.toNat
    let vw4 (op : Nat) := encV4 op d.toNat a.toNat b.toNat c.toNat pg.toNat ty.toNat
    (w = vw 0x30 → exec (.valu sl d a b pg ty func) s
      = .next (each fun i => valuLane ty.toNat func.toNat (lane a i) (lane b i)))
    ∧ (w = vw 0x31 → ∃ m, exec (.vcmp sl d a b pg ty func) s = .next (ranNext s sl.toNat st w (v.setP d.toNat m))
        ∧ ∀ k, k < 32 → m.testBit k =
          (let i := k / (laneBytes ty.toNat / 2)
           if laneOn ty.toNat (v.pr pg.toNat) i then vcmpLane ty.toNat func.toNat (lane a i) (lane b i)
           else (v.pr d.toNat).testBit k))
    ∧ (w = vw4 0x32 → exec (.vfma sl d a b c pg ty) s
        = .next (each fun i => (tyFmt ty.toNat).code (((num a i).mul (num b i)).add (num c i))))
    ∧ (w = vw4 0x33 → exec (.vfms sl d a b c pg ty) s
        = .next (each fun i => (tyFmt ty.toNat).code (((num a i).mul (num b i)).add (num c i).neg)))
    ∧ (w = vw4 0x34 → exec (.vfnma sl d a b c pg ty) s
        = .next (each fun i => (tyFmt ty.toNat).code (((num a i).mul (num b i)).neg.add (num c i))))
    ∧ (w = vw 0x35 → (∀ es k, vcvtElems func.toNat (v.vr a.toNat) (v.vr b.toNat) = (some k, es) →
          exec (.vcvt sl d a b pg ty func) s = .next (ranNext s sl.toNat st w (v.setV d.toNat
            (predLanes k (v.pr pg.toNat) (v.vr d.toNat) fun i => es.getD i 0))))
        ∧ ∃ x, exec (.vcvt sl d a b pg ty func) s = .next (ranNext s sl.toNat st w (v.setV d.toNat x)))
    ∧ (w = vw 0x36 →
        (func = 0 → exec (.vred sl d a b pg ty func) s = .next (red [laneTree ty.toNat
          (fun i => if i ∈ on then lane a i else off0) (Nat.log2 (lanes ty.toNat)) 0]))
        ∧ (∀ big : Bool, func = (if big then 1 else 2) → exec (.vred sl d a b pg ty func) s = .next (red [best big]))
        ∧ (∀ big : Bool, func = (if big then 3 else 4) → exec (.vred sl d a b pg ty func) s
          = .next (red [best big, (on.find? fun i => holds (best big) (lane a i)).getD 16])))
    ∧ (w = vw 0x37 → exec (.vsel sl d a b pg ty func) s = .next (ranNext s sl.toNat st w (v.setV d.toNat
        (predLanes ty.toNat (v.pr pg.toNat) (v.vr b.toNat) fun i => lane a i))))
    ∧ (w = vw 0x38 → exec (.vxf sl d a b pg ty func) s
        = .next (each fun i => vxfLane ty.toNat func.toNat (lane a i) (lane b i)))
    ∧ (w = vw 0x39 →
        (func = 0 → exec (.vmov sl d a b pg ty func) s
          = .next (each fun _ => v.sr a.toNat % 2 ^ (8 * laneBytes ty.toNat)))
        ∧ (func = 1 → exec (.vmov sl d a b pg ty func) s = .next (ranNext s sl.toNat st w (v.setS d.toNat (lane a b.toNat))))
        ∧ (func = 2 → exec (.vmov sl d a b pg ty func) s = .next (ranNext s sl.toNat st w (v.setV d.toNat (ofLanes ty.toNat
            ((lanesOf ty.toNat (v.vr d.toNat)).set b.toNat (v.sr a.toNat % 2 ^ (8 * laneBytes ty.toNat))))))))
    ∧ ∀ f : BitVec 8, w = encR 0x3A d.toNat a.toNat b.toNat f.toNat →
        let pa := v.pr a.toNat
        let pb := v.pr b.toNat
        let setP (x : Nat) : Result := .next (ranNext s sl.toNat st w (v.setP d.toNat x))
        let setS (x : Nat) : Result := .next (ranNext s sl.toNat st w (v.setS d.toNat x))
        (f = 0 → exec (.plogic sl d a b f) s = setP (pa &&& pb))
        ∧ (f = 1 → exec (.plogic sl d a b f) s = setP (pa ||| pb))
        ∧ (f = 2 → exec (.plogic sl d a b f) s = setP (pa ^^^ pb))
        ∧ (f = 3 → exec (.plogic sl d a b f) s = setP (pa &&& ((2 ^ 32 - 1) ^^^ pb)))
        ∧ (f = 4 → exec (.plogic sl d a b f) s = setP ((2 ^ 32 - 1) ^^^ pa))
        ∧ (f = 5 → exec (.plogic sl d a b f) s = setP (v.sr a.toNat))
        ∧ (f = 6 → exec (.plogic sl d a b f) s = setS pa)
        ∧ (f = 7 → exec (.plogic sl d a b f) s = setS ((List.range 32).filter fun i => pa.testBit i).length)
        ∧ (f = 8 → exec (.plogic sl d a b f) s = setS (((List.range 32).find? fun i => pa.testBit i).getD 32))

/-! ### Tightrope (09_network_time.md; 01_architecture.md R18) -/

/-- Fabric time. A read of TGT_NOW lo latches fabric time and its offset; a rate change is requested in FREE and ROOT only. A
requested change takes effect at its apply tick: a rate change anchors fabric time there, so that it stays continuous; a
step or a set moves it and is a discontinuity. The model's own choices in it: log entries 93, 94. -/
def Obligations.FabricTimeChangesAtItsApplyTick : Prop :=
  ∀ (s : State) (src : Requester),
    (s.phase = .run → s.reaches src = true → s.is (PAGE_STATUS_READY tgtPage) = true → ∃ t, exec (.nowRead src) s = .next t
      ∧ t.rd TGT_NOW_LO_F + t.rd TGT_NOW_HI_F * 2 ^ 32 = s.nowTick
      ∧ t.rd TGT_NOW_FRAC_FRAC = (s.fabric48 s.raw / 2 ^ 32 % 2 ^ 16).toNat
      ∧ t.rd TGT_OFFSET_LO_OFF + t.rd TGT_OFFSET_HI_OFF * 2 ^ 32
          = ((s.fabric48 s.raw - (s.raw : Int) * 2 ^ 48) / 2 ^ 48 % 2 ^ 64).toNat
      ∧ t = { s with regs := t.regs, outbox := .readData src [t.word TGT_NOW_LO_at] :: s.outbox }
      ∧ sameWords [TGT_NOW_LO_at, TGT_NOW_HI_at, TGT_NOW_FRAC_at, TGT_OFFSET_LO_at, TGT_OFFSET_HI_at, TGT_OFFSET_FRAC_at]
          s.toBox t.toBox)
    ∧ (s.phase = .run → s.reaches src = true → s.is (PAGE_STATUS_READY tgtPage) = false →
        exec (.nowRead src) s = .next { s with outbox := .readData src [0] :: s.outbox })
    ∧ (∀ value : Word, takesWrite s src TGT_RATE_HI_at → value.toNat < 256 →
        (s.servoState < 2 → exec (.rateHiWrite src value) s = .next { s with applies := s.applies
            ++ [{ at_ := s.raw + 64, rate := some (toSigned 40 (value.toNat * 2 ^ 32 + s.servo.rateLo)) }] })
        ∧ (2 ≤ s.servoState → ∃ t, exec (.rateHiWrite src value) s = .next t ∧ t.is (PAGE_ERR_ACCERR tgtPage) = true
          ∧ t = { s with regs := t.regs, outbox := t.outbox } ∧ sameWords (errorWords tgtPage) s.toBox t.toBox))
    ∧ ((s.phase = .run ∧ ∀ a ∈ s.applies, s.raw < a.at_) → exec .timeApply s = .next s)
    ∧ ∀ a rest, s.phase = .run → s.applies = a :: rest → a.at_ ≤ s.raw → (∀ b ∈ rest, s.raw < b.at_) → a.track = false →
        let before := Anchor.time ⟨s.fa, s.na, s.rate⟩ a.at_
        (∀ r, a = { at_ := a.at_, rate := some r } → ∃ t, exec .timeApply s = .next t ∧ t.rate = clampRate r
          ∧ t.fa = before ∧ t.na = a.at_ ∧ t.fabric48 a.at_ = before
          ∧ t.rd TGT_RATE_LO_RATE + t.rd TGT_RATE_HI_RATE * 2 ^ 32 = ofSigned 40 (clampRate r)
          ∧ (clampRate r ≠ r → t.is TGT_SERVO_STATUS_RATE_CLAMP = true)
          ∧ t = { s with regs := t.regs, applies := rest, rate := t.rate, fa := t.fa, na := t.na }
          ∧ sameWords [TGT_RATE_LO_at, TGT_RATE_HI_at, TGT_SERVO_STATUS_at] s.toBox t.toBox)
        ∧ ((∀ u, u < 32 → s.is (TGT_TRIG_CTRL_ARM u) = false) → a.rate = none →
          (∀ d, a.set = none → a.step = some d → ∃ t, exec .timeApply s = .next t ∧ t.is TGT_SERVO_STATUS_DISCONT = true
            ∧ t.fa = before + d * 2 ^ 43 ∧ t.na = a.at_ ∧ t.rate = s.rate ∧ t.is (pageFld tgtPage 16 0 1) = true
            ∧ t = { s with regs := t.regs, outbox := t.outbox, cals := t.cals, applies := rest, fa := t.fa, na := t.na })
          ∧ ∀ v, a.set = some v → ∃ t, exec .timeApply s = .next t ∧ t.is TGT_SERVO_STATUS_DISCONT = true
            ∧ t.fa = (v : Int) * 2 ^ 48 ∧ t.na = a.at_ ∧ t.rate = s.rate ∧ t.is (pageFld tgtPage 16 0 1) = true
            ∧ t = { s with regs := t.regs, outbox := t.outbox, cals := t.cals, applies := rest, fa := t.fa, na := t.na })

/-- The servo takes START in FREE, REARM from ACQUIRE on, SETTIME in ROOT and STOP everywhere but in FREE; ROOT and PARENT are
written first. A command in another state changes neither STATE nor fabric time and is shown by REFUSED with TGT cause 4.
STOP keeps the offset and the RATE in force, with a rate change that has come due, and drops what has not. Eight intervals
without a valid Sync in TRACK are HOLDOVER, which holds the rate at the integral term. The model's own choices in it: log
entries 93, 95. -/
def Obligations.ServoCommandsMoveItsState : Prop :=
  ∀ (s : State) (src : Requester) (root : Bool) (parent : Slot),
    (takesWrite s src TGT_SERVO_CTRL_at → (∀ a ∈ s.applies, a.at_ ≤ s.raw → a.set = none ∧ a.step = none) →
      s.servoState ≠ 0 → ∃ t, exec (.servoStop src root parent) s = .next t ∧ t.servoState = 0 ∧ t.applies = []
        ∧ (⟨t.fa, t.na, t.rate⟩ : Anchor) = s.anchor s.raw)
    ∧ (takesWrite s src TGT_SERVO_CTRL_at → (∀ a ∈ s.applies, s.raw < a.at_) →
      (∀ c, c ∈ [Instr.servoStart src root parent, .servoRearm src root parent, .servoSettime src root parent,
          .servoStop src root parent] → ∃ t, exec c s = .next t ∧ t.is TGT_SERVO_CTRL_ROOT = root
        ∧ t.rd TGT_SERVO_CTRL_PARENT = parent.toNat ∧ t.fa = s.fa ∧ t.na = s.na ∧ t.rate = s.rate
        ∧ t.servo.integ = s.servo.integ
        ∧ t = { s with regs := t.regs, outbox := t.outbox, servo := t.servo, applies := t.applies }
        ∧ ∀ a, a / 0x10000 = 9 → a ∉ [TGT_SERVO_CTRL_at, TGT_SERVO_STATUS_at, 0x90010] → t.word a = s.word a)
      ∧ (∃ t, exec (.servoStart src root parent) s = .next t ∧ if s.servoState = 0
          then t.servoState = (if root then 1 else 2) ∧ (root = false → t.servo.offs = [] ∧ t.servo.oob = 0)
          else t.servoState = s.servoState ∧ t.applies = s.applies ∧ t.is TGT_SERVO_STATUS_REFUSED = true
            ∧ t.is (pageFld tgtPage 16 4 1) = true)
      ∧ (∃ t, exec (.servoRearm src root parent) s = .next t ∧ if 2 ≤ s.servoState
          then t.servoState = 2 ∧ t.servo.offs = [] ∧ t.servo.oob = 0
          else t.servoState = s.servoState ∧ t.applies = s.applies ∧ t.is TGT_SERVO_STATUS_REFUSED = true
            ∧ t.is (pageFld tgtPage 16 4 1) = true)
      ∧ (∃ t, exec (.servoSettime src root parent) s = .next t ∧ if s.servoState = 1
          then t.servoState = 1 ∧ t.applies = s.applies
            ++ [{ at_ := s.raw + 64, set := some (s.rd TGT_SET_HI_SET * 2 ^ 32 + s.rd TGT_SET_LO_SET) }]
          else t.servoState = s.servoState ∧ t.applies = s.applies ∧ t.is TGT_SERVO_STATUS_REFUSED = true
            ∧ t.is (pageFld tgtPage 16 4 1) = true)
      ∧ ∃ t, exec (.servoStop src root parent) s = .next t ∧ if s.servoState = 0
          then t.servoState = 0 ∧ t.applies = s.applies ∧ t.is TGT_SERVO_STATUS_REFUSED = true
            ∧ t.is (pageFld tgtPage 16 4 1) = true
          else t.servoState = 0 ∧ t.applies = [])
    ∧ (s.phase = .run → if s.servoState = 3 ∧ s.servo.heard + 8 * 2 ^ s.logInt ≤ s.raw
        then ∃ t, exec .syncTimeout s = .next t ∧ t.servoState = 4
          ∧ t = { s with regs := t.regs, outbox := t.outbox, applies := s.applies
              ++ [{ at_ := s.raw + 64, rate := some s.servo.integ }] }
        else exec .syncTimeout s = .next s)

/-- Time messages move what their port and the servo hold. A Sync of the parent keeps its sequence number, correction and
arrival; its Follow_Up is a measurement that the servo takes by its state: collected in ACQUIRE, where the eighth requests
the one step; correcting the rate in TRACK, or leaving it OUT_OF_BOUND; bringing HOLDOVER back to TRACK. A Sync of the
relayed domain goes on at every other port of ROLE 3 that is up, and its Follow_Up with the correction, the path delay and
the residence time once the Sync has left there. The delay messages of a port that measures answer each other and give its
path delay. A message that a port does not take, or with a TLV or the security option, is counted in TGT_PTP_DISC. The
model's own choices in it: log entries 96, 97, 98, 99, 100. -/
def Obligations.TimeMessagesDriveTheServo : Prop :=
  ∀ (s : State) (p : Slot) (a : Arrived) (rest : List Arrived), s.phase = .run →
    let n := p.toNat
    let m := frPayload a.frame
    let x := s.ptp n
    let taken := s.setPort n { s.port n with ptp := rest }
    (∀ c ∈ [Instr.sync p, .followUp p, .pdelayReq p, .pdelayResp p, .pdelayRespFollowUp p],
      (s.port n).ptp = a :: rest → s.timeRole n = 0 ∨ s.partnerTimes n = false ∨ ptpVersion m ≠ 2
          ∨ ptpType m ∉ ptpTypes ∨ ptpOption m = true →
      ∃ t, exec c s = .next t ∧ t.ctr tgtPage 1 = s.ctr tgtPage 1 + 1
        ∧ t = { s with ports := taken.ports, ctrs := t.ctrs, regs := t.regs, outbox := t.outbox })
    ∧ (timeHead s.toBox n 0 a rest → s.fromParent n m = true → ptpTwoStep m = true → s.servoTakes = true →
        exec (.sync p) s = .next { s with
          ports := taken.ports
          servo := { s.servo with heard := s.raw }
          ptps := (s.setPtp n { x with sync := some (ptpSeq m, ptpCorr m, stamp32 a.stamp) }).ptps })
    ∧ (∀ c t2, timeHead s.toBox n 8 a rest → s.fromParent n m = true → x.sync = some (ptpSeq m, c, t2) →
        let o := ((ptpTime m 34 : Int) + c + ptpCorr m + s.pathDelay n
          + toSigned 16 (s.rd (TGT_PORT_ASYM_ASYM n)) * 3200 - (unitsOf t2 : Nat)).tdiv 3200
        let bound := 32 * s.rd TGT_SERVO_GAIN_OOB
        let i := clampRate (s.servo.integ + scaleBy o (43 - (s.logInt : Int) - s.rd TGT_SERVO_GAIN_KI))
        let kp := scaleBy o (43 - (s.logInt : Int) - s.rd TGT_SERVO_GAIN_KP)
        let r := (scaleBy (o - s.servo.offs.getD 0 0) (43 - (s.logInt : Int))).tdiv 7
        let used := { s with ports := taken.ports, ptps := (s.setPtp n { x with sync := none }).ptps }
        (s.servoState = 2 → s.servo.offs.length < 7 → exec (.followUp p) s = .next { used with
            servo := { s.servo with fresh := false, offs := s.servo.offs ++ [o] } })
        ∧ (s.servoState = 2 → s.servo.offs.length = 7 → exec (.followUp p) s = .next { used with
            servo := { s.servo with fresh := false, offs := s.servo.offs ++ [o], integ := clampRate r }
            applies := s.applies
              ++ [{ at_ := s.raw + 64, rate := some r, step := some (medianEight (s.servo.offs ++ [o])), track := true }] })
        ∧ (s.servoState = 3 → o.natAbs ≤ bound → exec (.followUp p) s = .next { used with
            servo := { s.servo with fresh := false, integ := i, oob := 0 }
            applies := s.applies ++ [{ at_ := s.raw + 64, rate := some (i + kp) }] })
        ∧ (s.servoState = 3 → bound < o.natAbs → ∃ t, exec (.followUp p) s = .next t ∧ t.applies = s.applies
            ∧ t.servo.integ = s.servo.integ ∧ if s.servo.fresh = true ∨ s.servo.oob = 3 then t.servoState = 5
              else t.servoState = 3 ∧ t.servo.oob = s.servo.oob + 1)
        ∧ (s.servoState = 4 → ∃ t, exec (.followUp p) s = .next t
            ∧ t.servoState = if o.natAbs ≤ bound then 3 else 5))
    ∧ (timeHead s.toBox n 0 a rest → s.relays n m = true → ptpTwoStep m = true → ∃ t, exec (.sync p) s = .next t
        ∧ t = { s with ports := t.ports, ptps := t.ptps, staging := t.staging, descId := t.descId }
        ∧ ∀ q, q < 2048 → if q ≠ n ∧ s.up q = true ∧ s.timeRole q = 3
          then (t.ptp q).relays = (s.ptp q).relays
              ++ [{ src := n, seq := ptpSeq m, ident := ptpIdent m, rx := stamp32 a.stamp }]
            ∧ sentPtp s.toBox t.toBox q m
          else t.ptp q = s.ptp q)
    ∧ (∀ q r, timeHead s.toBox n 8 a rest → s.relays n m = true → q < 2048 → (s.ptp q).relays = [r] → r.src = n →
        r.seq = ptpSeq m → r.ident = ptpIdent m → r.fu = none → ∃ t, exec (.followUp p) s = .next t
          ∧ (r.tx = none → (t.ptp q).relays = [{ r with fu := some m }])
          ∧ ∀ tx, r.tx = some tx → (t.ptp q).relays = []
            ∧ sentPtp s.toBox t.toBox q (ptpWithCorr m (ptpCorr m + s.pathDelay n + ((tx : Int) - r.rx) * 3200)))
    ∧ (timeHead s.toBox n 2 a rest → s.measures n m = true → ∃ t, exec (.pdelayReq p) s = .next t
        ∧ (t.ptp n).answer = x.answer ++ [(ptpSeq m, ptpIdent m, ptpCorr m)]
        ∧ sentPtp s.toBox t.toBox n (s.portMsg n 3 0x0200 (-((ptpFrac (unitsOf (stamp32 a.stamp)) : Nat) : Int)) (ptpSeq m)
            (ptpStamp (unitsOf (stamp32 a.stamp)) ++ ptpIdent m))
        ∧ t = { s with ports := t.ports, ptps := t.ptps, staging := t.staging, descId := t.descId })
    ∧ (∀ t1, timeHead s.toBox n 3 a rest → s.measures n m = true → ptpTwoStep m = true → x.req = some (ptpSeq m, some t1) →
        exec (.pdelayResp p) s = .next { s with ports := taken.ports, ptps := (s.setPtp n { x with
          resp := some ⟨ptpSeq m, (ptpTime m 34 : Int) - ptpCorr m, stamp32 a.stamp⟩ }).ptps })
    ∧ ∀ q t1 r, timeHead s.toBox n 10 a rest → s.measures n m = true → x.req = some (q, some t1) → x.resp = some r →
        r.seq = ptpSeq m →
        let d := (((r.t4 : Int) - t1) * 3200 - ((ptpTime m 34 : Int) + ptpCorr m - r.t2)).tdiv 2
        let l := (x.delays ++ [d]).drop (x.delays.length - 7)
        ∃ t, exec (.pdelayRespFollowUp p) s = .next t ∧ (t.ptp n).delays = l ∧ (t.ptp n).req = none
          ∧ (l.length = 8 → t.rd (TGT_PORT_DELAY_DELAY n) = ((medianEight l).tdiv 3200).toNat % 2 ^ 24)
          ∧ (l.length ≠ 8 → t.regs = s.regs) ∧ t = { s with ports := taken.ports, ptps := t.ptps, regs := t.regs }
          ∧ sameWords [TGT_PORT_DELAY_at n] s.toBox t.toBox

/-- The timers send when their interval has passed and not before: a Sync on every port of ROLE 2 that is up, a Pdelay_Req on
every one of ROLE 1 or 2, and, with ETH_EN, Announce, Sync and Follow_Up on management Ethernet. A Delay_Req that comes
there is answered with Delay_Resp, with an option it is counted in TGT_PTP_DISC, and without ETH_EN dropped and counted.
The model's own choices in it: log entries 98, 101, 145. -/
def Obligations.TimeTimersSendMessages : Prop :=
  ∀ s : State, s.phase = .run →
    (s.raw < s.servo.syncAt + 2 ^ s.logInt → exec .syncSendTimer s = .next s)
    ∧ (s.servo.syncAt + 2 ^ s.logInt ≤ s.raw → ∃ t, exec .syncSendTimer s = .next t
        ∧ t = { s with servo := { s.servo with syncAt := s.raw }, ports := t.ports, ptps := t.ptps, staging := t.staging,
                       descId := t.descId }
        ∧ ∀ p, p < 2048 → if s.up p = true ∧ s.timeRole p = 2
          then sentPtp s.toBox t.toBox p (s.portMsg p 0 0x0200 0 (s.ptp p).seqS (List.replicate 10 0))
            ∧ t.ptp p = { s.ptp p with seqS := ((s.ptp p).seqS + 1) % 65536 }
          else t.ptp p = s.ptp p ∧ t.port p = s.port p)
    ∧ (s.raw < s.servo.pdAt + 8 * 2 ^ s.logInt → exec .pdelayReqTimer s = .next s)
    ∧ (s.servo.pdAt + 8 * 2 ^ s.logInt ≤ s.raw → ∃ t, exec .pdelayReqTimer s = .next t
        ∧ t = { s with servo := { s.servo with pdAt := s.raw }, ports := t.ports, ptps := t.ptps, staging := t.staging,
                       descId := t.descId }
        ∧ ∀ p, p < 2048 → if s.up p = true ∧ (s.timeRole p = 1 ∨ s.timeRole p = 2)
          then sentPtp s.toBox t.toBox p (s.portMsg p 2 0 0 (s.ptp p).seqP (List.replicate 20 0))
            ∧ t.ptp p = { s.ptp p with seqP := ((s.ptp p).seqP + 1) % 65536, req := some ((s.ptp p).seqP, none), resp := none }
          else t.ptp p = s.ptp p ∧ t.port p = s.port p)
    ∧ (s.is TGT_PTP_CTRL_ETH_EN = false ∨ s.raw < s.servo.ethAt + 2 ^ s.logInt → exec .ethPtpTimer s = .next s)
    ∧ (s.is TGT_PTP_CTRL_ETH_EN = true → s.servo.ethAt + 2 ^ s.logInt ≤ s.raw →
        let q := s.servo.ethSeq
        let u := unitsOf (s.now32 0)
        ∃ body, body.length = 30 ∧ exec .ethPtpTimer s = .next { s with
          servo := { s.servo with ethAt := s.raw, ethSeq := (q + 1) % 65536 }
          freeCtr := s.freeCtr + 1
          outbox := .ethPtp false (s.ethMsg 8 0 (ptpFrac u : Nat) q (ptpStamp u))
            :: .ethPtp true (s.ethMsg 0 0x0200 0 q (List.replicate 10 0)) :: .ethPtp false (s.ethMsg 11 0x0008 0 q body)
            :: s.outbox })
    ∧ ∀ (seq : BitVec 16) (ident : BitVec 80) (corr : BitVec 64) (domain : BitVec 8) (sub : BitVec 5),
        let sent := if s.ethSecond.1 = s.raw / 640000000 then s.ethSecond.2 else 0
        let u := unitsOf (s.now32 sub.toNat)
        (sent < 50000 → s.is TGT_PTP_CTRL_ETH_EN = true → domain.toNat = s.rd TGT_PTP_CTRL_DOMAIN →
          exec (.delayReq seq ident corr domain false sub) s = .next { s with
            ethSecond := (s.raw / 640000000, sent + 1)
            outbox := .ethPtp false (s.ethMsg 9 0 (corr.toInt - ptpFrac u) seq.toNat (ptpStamp u ++ bytesBE 10 ident.toNat))
              :: s.outbox })
        ∧ (sent < 50000 → s.is TGT_PTP_CTRL_ETH_EN = true → ∃ t, exec (.delayReq seq ident corr domain true sub) s = .next t
          ∧ t.ctr tgtPage 1 = s.ctr tgtPage 1 + 1
          ∧ t = { s with ethSecond := (s.raw / 640000000, sent + 1), ctrs := t.ctrs, regs := t.regs, outbox := t.outbox })
        ∧ (50000 ≤ sent ∨ s.is TGT_PTP_CTRL_ETH_EN = false → ∀ option, ∃ t,
            exec (.delayReq seq ident corr domain option sub) s = .next t
          ∧ t.ctr mgtPage 4 = s.ctr mgtPage 4 + 1
          ∧ t = { s with ethSecond := (s.raw / 640000000, sent + 1), ctrs := t.ctrs, regs := t.regs, outbox := t.outbox })

/-- Trigger units. Arming restarts COUNT; it is refused where the action cannot run, and a unit armed fewer than 640 tk before
its instant fires at once, late. A unit whose instant has been reached fires: it counts, its action runs, a one-shot unit
is disarmed and a periodic one goes on to its next instant; lower-numbered units due at the same tick on the same target
act before it. A launch leaves in the first flit slot in which it can. The owner disarms a unit, and releases it; a disarm
in a tick after the instant finds the unit fired. The model's own choices in it: log entries 102, 103, 105, 180. -/
def Obligations.TriggerUnitsFireAtTheirInstant : Prop :=
  ∀ (s : State) (src : Requester) (u : BitVec 5),
    let n := u.toNat
    let a := TGT_TRIG_CTRL_at n
    let quiet := ∀ c ∈ s.applies, s.raw < c.at_
    let still := quiet ∧ (s.trigDue n = true → (s.raw : Int) ≤ s.trigAt n)
    (∀ value : Word, takesWrite s src a → still →
      let b := (s.plainWrite src a (value ||| 0x20000000#32).toNat).put (TGT_TRIG_CTRL_ARM n) false
      (natField value.toNat 30 2 = 3 ∨ 5 ≤ natField value.toNat 24 4 → ∃ t, exec (.triggerArm src u value) s = .next t
        ∧ t.is (PAGE_ERR_RSVW tgtPage) = true ∧ t = { s with regs := t.regs, outbox := t.outbox }
        ∧ sameWords (errorWords tgtPage) s.toBox t.toBox)
      ∧ (natField value.toNat 24 4 < 5 → natField value.toNat 30 2 = 0 → s.rd (TGT_TRIG_CTRL_OWNER n) = ownerCode src →
        ∃ t, exec (.triggerArm src u value) s = .next t ∧ t.is (TGT_TRIG_CTRL_ARM n) = false
          ∧ t.rd (TGT_TRIG_CTRL_OWNER n) = 0 ∧ t = { s with regs := t.regs, outbox := t.outbox })
      ∧ (natField value.toNat 30 2 ∈ [1, 2] → natField value.toNat 24 4 < 5 →
      (ownerOk (ownerCode src) (s.rd (TGT_TRIG_CTRL_OWNER n)) (natField value.toNat 30 2) = false
          ∨ s.is (TGT_TRIG_CTRL_ARM n) = true → ∃ t, exec (.triggerArm src u value) s = .next t
        ∧ t.is (PAGE_ERR_ACCERR tgtPage) = true ∧ t = { s with regs := t.regs, outbox := t.outbox }
        ∧ sameWords (errorWords tgtPage) s.toBox t.toBox)
      ∧ (ownerOk (ownerCode src) (s.rd (TGT_TRIG_CTRL_OWNER n)) (natField value.toNat 30 2) = true →
          s.is (TGT_TRIG_CTRL_ARM n) = false →
        (b.armRefused n = true → ∃ t, exec (.triggerArm src u value) s = .next t ∧ t.is (TGT_TRIG_CTRL_ARM n) = false
          ∧ t.is (PAGE_ERR_ACCERR tgtPage) = true ∧ t = { s with regs := t.regs, outbox := t.outbox })
        ∧ (b.armRefused n = false → b.trigTick n + 640 ≤ b.trigTime n → ∃ t, exec (.triggerArm src u value) s = .next t
          ∧ t.is (TGT_TRIG_CTRL_ARM n) = true ∧ t.rd (TGT_TRIG_COUNT_COUNT n) = 0
          ∧ t.rd (TGT_TRIG_CTRL_ACTION n) = natField value.toNat 24 4
          ∧ t.rd (TGT_TRIG_CTRL_OWNER n) = natField value.toNat 30 2
          ∧ t = { s with regs := t.regs, outbox := t.outbox }
          ∧ sameWords (a :: TGT_TRIG_COUNT_at n :: errorWords tgtPage) s.toBox t.toBox)
        ∧ (b.armRefused n = false → b.trigTime n < b.trigTick n + 640 → ∃ t, exec (.triggerArm src u value) s = .next t
          ∧ t.is (TGT_TRIG_STATUS_LATE n) = true ∧ t.is (TGT_TRIG_STATUS_FIRED n) = true
          ∧ t.rd (TGT_TRIG_COUNT_COUNT n) = 1 ∧ t.ctr tgtPage 2 = s.ctr tgtPage 2 + 1
          ∧ t.is (pageFld tgtPage 16 2 1) = true))))
    ∧ (takesWrite s src a → quiet → s.rd (TGT_TRIG_CTRL_OWNER n) = ownerCode src → s.rd (TGT_TRIG_CTRL_ACTION n) < 5 →
        s.rd (TGT_TRIG_PERIOD_PERIOD n) = 0 → s.trigDue n = true → s.trigAt n < (s.raw : Int) →
        ∃ t, exec (.triggerDisarm src u) s = .next t ∧ t.is (TGT_TRIG_STATUS_FIRED n) = true
          ∧ t.rd (TGT_TRIG_COUNT_COUNT n) = (s.rd (TGT_TRIG_COUNT_COUNT n) + 1) % 2 ^ 32)
    ∧ (takesWrite s src a → still → s.rd (TGT_TRIG_CTRL_OWNER n) = ownerCode src → s.rd (TGT_TRIG_CTRL_ACTION n) < 5 →
        (∃ t, exec (.triggerDisarm src u) s = .next t ∧ t.word a = s.word a &&& 0xDFFFFFFF#32
          ∧ t = { s with regs := t.regs, outbox := t.outbox } ∧ sameWords (a :: errorWords tgtPage) s.toBox t.toBox)
        ∧ ∃ t, exec (.ownerRelease src (.unit u)) s = .next t ∧ t.word a = s.word a &&& 0x1FFFFFFF#32
          ∧ t = { s with regs := t.regs, outbox := t.outbox } ∧ sameWords (a :: errorWords tgtPage) s.toBox t.toBox)
    ∧ (s.phase = .run → quiet →
        let period := s.rd (TGT_TRIG_PERIOD_PERIOD n)
        let tgt := s.rd (TGT_TRIG_CTRL_TARGET n)
        (s.is (TGT_TRIG_CTRL_ARM n) = false ∨ s.trigTick n < s.trigTime n → exec (.triggerFire u) s = .next s)
        ∧ (s.is (TGT_TRIG_CTRL_ARM n) = true → s.trigTime n ≤ s.trigTick n → ∃ t, exec (.triggerFire u) s = .next t
          ∧ t.is (TGT_TRIG_STATUS_FIRED n) = true
          ∧ t.rd (TGT_TRIG_COUNT_COUNT n) = (s.rd (TGT_TRIG_COUNT_COUNT n) + 1) % 2 ^ 32
          ∧ (period = 0 → t.is (TGT_TRIG_CTRL_ARM n) = false ∧ t.trigTime n = s.trigTime n)
          ∧ (period ≠ 0 → t.is (TGT_TRIG_CTRL_ARM n) = true
            ∧ t.trigTime n = (nextInstant (s.trigTime n) period (s.trigTick n)).1 % 2 ^ 64
            ∧ ((nextInstant (s.trigTime n) period (s.trigTick n)).2 = true → t.is (TGT_TRIG_STATUS_SKIPPED n) = true))
          ∧ ((∀ v, v < n → s.trigDue v = true → s.trigTarget v = s.trigTarget n → s.trigAt v ≠ s.trigAt n) →
            (s.rd (TGT_TRIG_CTRL_ACTION n) = 1 → t.pins = (s.pinFire n (32 * s.trigTime n + s.rd (TGT_TRIG_SUB_SUB n))).pins)
            ∧ (s.rd (TGT_TRIG_CTRL_ACTION n) = 4 → ∃ l, t.launches = s.launches ++ [l] ∧ l.port = tgt ∧ l.unit = n
                ∧ l.at_ = s.tent32 (tgt / 256) 0)
            ∧ ∀ w, s.fwdSw = some w → t.fwdSw
              = some (if w.trig = some n ∧ w.inst = none then { w with inst := some (s.trigTime n) } else w))
          ∧ (s.rd (TGT_TRIG_CTRL_ACTION n) = 3 → s.is (SPT_HEAT_CTRL_SRC tgt) = true → (t.engine tgt).heatRun = true)
          ∧ (s.rd (TGT_TRIG_CTRL_ACTION n) ≠ 1 → t.pins = s.pins) ∧ (s.rd (TGT_TRIG_CTRL_ACTION n) ≠ 4 → t.launches = s.launches)))
    ∧ ∀ (p : Slot) (sub : BitVec 5) (l : Launch), s.phase = .run → (s.launches.find? fun l => l.port == p.toNat) = some l →
        let x := s.port p.toNat
        let may := s.up p.toNat = true ∧ x.inWindow = false ∧ x.aligning = false ∧ x.pauseTx = none ∧ x.resend = none
          ∧ x.retry.length < retryDepth (s.slotMode p.toNat) ∧ x.txVc = none
          ∧ (s.gateNow p.toNat).gates.testBit 5 = true
          ∧ s.guardOk p.toNat 5 (l.frame.length + 8) sub.toNat (s.gateNow p.toNat) = true
          ∧ s.creditCovers p.toNat 5 (l.frame.length + 8) = true
        (may → ∃ t, exec (.launchBufferSend p sub) s = .next t ∧ t.launches = s.launches.erase l
          ∧ (t.port p.toNat).txVc = some 5)
        ∧ (¬ may → exec (.launchBufferSend p sub) s = .next s)

/-- Time pins and replicas. An edge on a capturing pin is taken with its fabric time, unless it comes less than 64 tk after
the last one, or has not the sense of POL; a pulse ends at its tick; a released pin drives nothing and its units are
disarmed. Replicas are compared once per 640,000,000 tk; one that differs is in error, with TGT cause 3, until it is
reloaded at the next whole second, which is a discontinuity of its tent. The model's own choices in it: log entries 106,
107. -/
def Obligations.PinsAndReplicasFollowTime : Prop :=
  ∀ s : State,
    (∀ (pin : Reg3) (rising : Bool) (sub : BitVec 5), s.phase = .run →
      let i := pin.toNat
      let x : Pin := mapGet (fun _ => {}) s.pins i
      let now := s.raw * 32 + sub.toNat
      (s.rd (TGT_PIN_CFG_MODE i) = 3 → rising ≠ s.is (TGT_PIN_CFG_POL i) → (∀ l, x.last = some l → l + 2048 ≤ now) →
        ∃ t, exec (.pinCapture pin rising sub) s = .next t
        ∧ t.rd (TGT_PIN_CAP_LO_T i) + t.rd (TGT_PIN_CAP_HI_T i) * 2 ^ 32 = s.now32 sub.toNat / 32
        ∧ t.rd (TGT_PIN_CAP_SUB_SUB i) = s.now32 sub.toNat % 32 ∧ t.is (TGT_PIN_CAP_SUB_OVW i) = x.unread
        ∧ t.is (pageFld tgtPage 16 1 1) = true
        ∧ t.pins = mapSet (fun _ => {}) s.pins i { x with last := some now, unread := true }
        ∧ t = { s with regs := t.regs, outbox := t.outbox, pins := t.pins }
        ∧ sameWords ([TGT_PIN_CAP_LO_at i, TGT_PIN_CAP_HI_at i, TGT_PIN_CAP_SUB_at i] ++ causeWords tgtPage) s.toBox t.toBox)
      ∧ ((s.rd (TGT_PIN_CFG_MODE i) ≠ 3 ∨ rising = s.is (TGT_PIN_CFG_POL i) ∨ ∃ l, x.last = some l ∧ now < l + 2048) →
        exec (.pinCapture pin rising sub) s = .next s)
      ∧ (∀ e, x.till = some e → if e / 32 ≤ s.nowTick then
            let y := { s with pins := mapSet (fun _ => {}) s.pins i { x with active := false, till := none } }
            exec (.pinPulseEnd pin) s = .next { y with outbox := .pin i (y.pinLevel i) e :: s.outbox }
          else exec (.pinPulseEnd pin) s = .next s)
      ∧ (x.till = none → exec (.pinPulseEnd pin) s = .next s))
    ∧ (∀ (src : Requester) (i : Fin 8), takesWrite s src (TGT_PIN_CFG_at i.val) →
        (∀ c ∈ s.applies, s.raw < c.at_) → (∀ u, u < 32 → s.trigDue u = true → (s.raw : Int) ≤ s.trigAt u) →
        s.rd (TGT_PIN_CFG_OWNER i.val) = ownerCode src → ∃ t, exec (.ownerRelease src (.pin i)) s = .next t
          ∧ t.rd (TGT_PIN_CFG_OWNER i.val) = 0 ∧ t.rd (TGT_PIN_CFG_MODE i.val) = 0 ∧ t.pinLevel i.val = none
          ∧ (∀ u, u < 32 → s.rd (TGT_TRIG_CTRL_ACTION u) = 1 → s.rd (TGT_TRIG_CTRL_PIN u) = i.val →
              t.is (TGT_TRIG_CTRL_ARM u) = false)
          ∧ t.pins = (if s.rd (TGT_PIN_CFG_MODE i.val) = 0 then s.pins else mapSet (fun _ => {}) s.pins i.val {})
          ∧ t = { s with regs := t.regs, outbox := t.outbox, pins := t.pins })
    ∧ ∀ t : TentIx, s.phase = .run →
        let x := s.tent t.toNat
        let due := x.checkAt + 640000000 ≤ s.raw
        (¬ due → ∀ diff, exec (.replicaCheck t diff) s = .next s)
        ∧ (due → exec (.replicaCheck t 0) s = .next { s with
            repl := mapSet (fun _ => 0) s.repl t.toNat 0, tents := (s.setTent t.toNat { x with checkAt := s.raw }).tents })
        ∧ (∀ diff : Int, diff ≠ 0 → due → ∃ u, exec (.replicaCheck t diff) s = .next u ∧ u.replOff t.toNat = diff
          ∧ u.is { TGT_REPLICA_ERR_ERR with lo := t.toNat, width := 1 } = true ∧ u.is (pageFld tgtPage 16 3 1) = true
          ∧ u = { s with regs := u.regs, outbox := u.outbox, repl := mapSet (fun _ => 0) s.repl t.toNat diff
                         tents := (s.setTent t.toNat { x with checkAt := s.raw }).tents })
        ∧ (s.replOff t.toNat = 0 ∨ s.raw / 640000000 ≤ x.checkAt / 640000000 → exec (.replicaReload t) s = .next s)
        ∧ (0 < s.replOff t.toNat → x.checkAt / 640000000 < s.raw / 640000000 → ∃ u, exec (.replicaReload t) s = .next u ∧ u.replOff t.toNat = 0
          ∧ u.is TGT_SERVO_STATUS_DISCONT = true ∧ u.is (pageFld tgtPage 16 0 1) = true
          ∧ u = { s with regs := u.regs, outbox := u.outbox, cals := u.cals, repl := mapSet (fun _ => 0) s.repl t.toNat 0 })
        ∧ (s.replOff t.toNat < 0 → x.checkAt / 640000000 < s.raw / 640000000 → ∃ u, exec (.replicaReload t) s = .next u ∧ u.replOff t.toNat = 0
          ∧ u.is TGT_SERVO_STATUS_DISCONT = true)

/-! ### Spotlight and Trapeze (10_optics.md) -/

/-- Microrings and heaters. A verification passes to verified, or parked for the fifth wavelength of a breakout pair, and
fails to a new search or off, counted; a search rises by one step, locks on a tone that passes and fails at its last step.
A heater cycle comes every PERIOD ticks or with its firing; it takes the loops' setpoints from their lock samples, but a
parked or clamped microring keeps its own, and writes every heater from the matrix in force, clamped to its range; a new
matrix moves no heater. The model's own choices in it: log entries 101, 108, 109, 110, 161. -/
def Obligations.RingsLockAndHeatersFollow : Prop :=
  ∀ (s : State) (e : EngIx), s.phase = .run →
    let n := e.toNat
    (∀ (site : RingIx) (own : Nat) (gaps : List Int) (tone : Reg3),
      let i := site.val
      let m := s.pairMode (32 * n + i % 160 / 5)
      let locked := if i % 5 = 4 ∧ (m = 2 ∨ m = 3) then 5 else 3
      (∀ c st, (c, st) ∈ [(Instr.ringVerifyDone e site own gaps tone, 2), (.ringReverify e site own gaps tone, 3)] →
        (s.rd (ringState n i) ≠ st ∨ (st = 2 ∧ s.ringDark n i = true) → exec c s = .next s)
        ∧ (s.rd (ringState n i) = st → st = 3 ∨ s.ringDark n i = false → ringPasses own gaps = true → ∃ t, exec c s = .next t
          ∧ t.rd (ringState n i) = locked ∧ (t.ring n i).byp = false)
        ∧ (s.rd (ringState n i) = st → st = 3 ∨ s.ringDark n i = false → ringPasses own gaps = false → ∃ t, exec c s = .next t
          ∧ (t.rd (ringState n i) = 1 ∨ t.rd (ringState n i) = 0)
          ∧ t.ctr (sptPage (n / 2)) (4 + n % 2) = s.ctr (sptPage (n / 2)) (4 + n % 2) + 1))
      ∧ ∀ peak : Bool,
        (s.rd (ringState n i) ≠ 1 → exec (.ringSearchStep e site peak own gaps tone) s = .next s)
        ∧ (s.rd (ringState n i) = 1 → ∃ t, exec (.ringSearchStep e site peak own gaps tone) s = .next t
          ∧ if peak = true ∧ ringPasses own gaps = true then t.rd (ringState n i) = locked
            else if (s.ring n i).step < 4095 then t.rd (ringState n i) = 1 ∧ (t.ring n i).step = (s.ring n i).step + 1
            else t.rd (ringState n i) = 6 ∧ t.rd (SPT_RING_HEAT (n / 2) (512 * (n % 2) + i)) = 0
              ∧ t.is (pageFld (sptPage (n / 2)) 16 0 1) = true))
    ∧ ∀ loops : List Int,
      let b := s.runLoops n loops
      let due := if s.is (SPT_HEAT_CTRL_SRC n) = true then (s.engine n).heatRun = true
        else (s.engine n).heatAt + s.rd (SPT_HEAT_CTRL_PERIOD n) ≤ s.raw
      (¬ due → exec (.heaterCycle e loops) s = .next s)
      ∧ (due → ∃ t, exec (.heaterCycle e loops) s = .next t
        ∧ (s.is (SPT_HEAT_CTRL_SRC n) = false → (t.engine n).heatAt = s.raw)
        ∧ (t.engine n).heatRun = false ∧ t = { s with regs := t.regs, rings := t.rings, engines := t.engines }
        ∧ (∀ i v, i < 320 → loops[i]? = some v → (s.engine n).commit = false → (t.ring n i).set =
            if s.rd (ringState n i) ∈ [2, 3, 5] ∧ (s.ring n i).parked = false ∧ (s.ring n i).clamped = false
            then Config.lockLoop (decide (i < 160)) (lockTarget n i) (s.ring n i).set v else (s.ring n i).set)
        ∧ (∀ i, i < 320 → t.rd (SPT_RING_HEAT (n / 2) (512 * (n % 2) + i)) =
            if b.heated n i = false ∨ b.heatOf n i < 0 then 0
            else if 65535 * 2 ^ 30 < b.heatOf n i then 65535 else (roundCode (b.heatOf n i)).toNat)
        ∧ (∀ i, i < 320 → b.heated n i = true → b.heatOf n i < 0 ∨ 65535 * 2 ^ 30 < b.heatOf n i →
            t.is (SPT_HEAT_STATUS_CLAMP n) = true ∧ (t.ring n i).clamped = true)
        ∧ ((s.engine n).commit = true → (t.engine n).matrix = s.stagedMatrix n ∧ t.is (SPT_XT_STATUS_BUSY n) = false
          ∧ ∀ i, i < 320 → b.heated n i = true → t.heatOf n i = b.heatOf n i))
      ∧ (s.is (SPT_HEAT_CTRL_SRC n) = true → (s.engine n).heatAt + 640000 ≤ s.raw →
          ∃ t, exec (.heaterStarved e loops) s = .next t ∧ t.is (SPT_HEAT_STATUS_STARVED n) = true
            ∧ (t.engine n).heatAt = s.raw ∧ t = { s with regs := t.regs, rings := t.rings, engines := t.engines })
      ∧ (s.is (SPT_HEAT_CTRL_SRC n) = false ∨ s.raw < (s.engine n).heatAt + 640000 →
          exec (.heaterStarved e loops) s = .next s)

/-- Calibration and bring-up. A calibration asked for, or due by its timer, starts where nothing defers it and is refused
while BUSY; one that has waited 1 s shows DEFERRED; its end is FAIL with SPT cause 3, or DONE. START, the continuity check
and the end of step 5 bring an engine to READY. The model's own choices in it: log entries 109, 111, 115, 178. -/
def Obligations.EnginesCalibrateAndComeUp : Prop :=
  ∀ (s : State) (e : EngIx) (src : Requester),
    let n := e.toNat
    let x := s.engine n
    let spt := sptPage (n / 2)
    let due (at_ : Nat) (t : State) : Prop :=
      if s.calBlocked n = false ∧ s.is (SPT_XT_STATUS_BUSY n) = false
      then t.is (SPT_XT_STATUS_BUSY n) = true ∧ (t.engine n).due = none
      else t.is (SPT_XT_STATUS_BUSY n) = s.is (SPT_XT_STATUS_BUSY n) ∧ (t.engine n).due = some at_
    (takesWrite s src (SPT_XT_CTRL_at n) →
      (s.is (SPT_XT_STATUS_BUSY n) = true → ∃ t, exec (.xtCal src e) s = .next t ∧ exec (.xtCommit src e) s = .next t
        ∧ t.is (PAGE_ERR_ACCERR spt) = true ∧ t = { s with regs := t.regs, outbox := t.outbox }
        ∧ sameWords (errorWords spt) s.toBox t.toBox)
      ∧ (s.is (SPT_XT_STATUS_BUSY n) = false → (∃ t, exec (.xtCal src e) s = .next t ∧ due (x.due.getD s.raw) t
          ∧ t = { s with regs := t.regs, engines := t.engines } ∧ sameWords [SPT_XT_STATUS_at n] s.toBox t.toBox)
        ∧ ∃ t, exec (.xtCommit src e) s = .next t ∧ (t.engine n).commit = true ∧ t.is (SPT_XT_STATUS_BUSY n) = true
          ∧ t = { s with regs := t.regs, engines := t.engines } ∧ sameWords [SPT_XT_STATUS_at n] s.toBox t.toBox))
    ∧ (takesWrite s src (SPT_CTRL_at (n / 2)) → if s.is (engReady n) = true ∨ x.boot ≠ 0
        then ∃ t, exec (.engineStart src e) s = .next t ∧ t.is (PAGE_ERR_ACCERR spt) = true
          ∧ t = { s with regs := t.regs, outbox := t.outbox } ∧ sameWords (errorWords spt) s.toBox t.toBox
        else ∃ t, exec (.engineStart src e) s = .next t ∧ Out.elmEn n true ∈ t.outbox
          ∧ (x.ready = false → Out.laserBus n 0 (.module true) ∈ t.outbox)
          ∧ t = { s with engines := (s.setEngine n { x with boot := 1, bootAt := s.raw, elm := true }).engines,
                         outbox := t.outbox })
    ∧ (s.phase = .run →
        (s.is (SPT_XT_CTRL_AUTO n) = true → s.calInstant n ≤ s.raw → ∃ t, exec (.xtCalTimer e) s = .next t
          ∧ due (x.due.getD s.raw) t ∧ (t.engine n).calSlot = x.calSlot + 1
          ∧ t = { s with regs := t.regs, engines := t.engines } ∧ sameWords [SPT_XT_STATUS_at n] s.toBox t.toBox)
        ∧ (s.is (SPT_XT_CTRL_AUTO n) = false ∨ s.raw < s.calInstant n → exec (.xtCalTimer e) s = .next s)
        ∧ (∀ w, x.due = some w → (∃ t, exec (.xtCalDeferredStart e) s = .next t ∧ due w t
            ∧ t = { s with regs := t.regs, engines := t.engines } ∧ sameWords [SPT_XT_STATUS_at n] s.toBox t.toBox)
          ∧ ∃ t, exec (.calibrationDeferred e) s = .next t ∧ t = { s with regs := t.regs }
            ∧ (w + 640000000 ≤ s.raw → t.is (SPT_XT_STATUS_DEFERRED n) = true)
            ∧ (s.raw < w + 640000000 → t = s) ∧ sameWords [SPT_XT_STATUS_at n] s.toBox t.toBox)
        ∧ (∀ cal : CalResult, s.is (SPT_XT_STATUS_BUSY n) = true → x.commit = false → ∃ t, exec (.xtCalDone e cal) s = .next t
          ∧ if s.calFails n cal = false then t.is (SPT_XT_STATUS_DONE n) = true ∧ t.is (SPT_XT_STATUS_FAIL n) = false
              ∧ (if s.is (SPT_XT_CTRL_AUTO n) = true then (t.engine n).commit = true else t.is (SPT_XT_STATUS_BUSY n) = false)
              ∧ t.rd (SPT_XT_STATUS_ROWDIFF n) = s.rowDiff n cal % 2 ^ 16 ∧ (t.engine n).couple = s.couplings n cal
              ∧ t = { s with regs := t.regs, engines := t.engines, freeCtr := s.freeCtr + 1440 }
            else t.is (SPT_XT_STATUS_FAIL n) = true ∧ t.is (pageFld spt 16 3 1) = true ∧ t.is (SPT_XT_STATUS_BUSY n) = false
              ∧ t = { s with regs := t.regs, outbox := t.outbox }
              ∧ sameWords (SPT_XT_STATUS_at n :: causeWords spt) s.toBox t.toBox)
        ∧ (∀ pwr : List Int, x.boot = 1 → x.bootAt + 6400000 ≤ s.raw → ∃ t, exec (.engineContinuityCheck e pwr) s = .next t
          ∧ if (s.activeLasers n).all (s.litOk n pwr s.freeCtr) = true
            then (t.engine n).boot = 2 ∧ (∀ q k, q < 4 → k < 7 → s.rd (laserState n q k) = 0 →
                t.rd (laserState n q k) = if k < 5 then 1 else 6)
              ∧ ∀ j k, j < 32 → k < 5 → s.pairEnabled (32 * n + j) = true → s.ringQuar n (5 * j + k) = false →
                t.rd (ringState n (5 * j + k)) = 1
            else (t.engine n).boot = 0 ∧ (t.engine n).elm = false ∧ t.is (pageFld spt 16 4 1) = true
              ∧ t = { s with regs := t.regs, outbox := t.outbox, engines := t.engines, freeCtr := s.freeCtr + 28 })
        ∧ ∀ cal : CalResult, x.boot = 2 → (∀ j k, j < 32 → k < 5 → s.pairEnabled (32 * n + j) = true →
              s.rd (ringState n (5 * j + k)) = 3 ∨ s.rd (ringState n (5 * j + k)) = 5 ∨ s.ringQuar n (5 * j + k) = true) →
            ∃ t, exec (.engineReady e cal) s = .next t ∧ if (s.setEngine n { x with calLost := false }).calFails n cal = false
              then t.is (engReady n) = true ∧ (t.engine n).boot = 0 ∧ t.is (pageFld spt 16 5 1) = true
              else t.is (engReady n) = s.is (engReady n) ∧ (t.engine n).boot = 2 ∧ t.is (SPT_XT_STATUS_FAIL n) = true)

/-- Lasers and their light. An integration takes every reading, and an active laser against NOM is warned, migrated or forced;
a ready spare takes the role of a faded laser by a swap and a release. Eye safety closes the shutter of a fibre pair,
opens it for pulses and leaves it open at its exit. A lost laser input takes its engine out of READY. Lane health is read
every millisecond; a cross-connect entry is written with its partner's, or rejected. The model's own choices in it: log
entries 112, 113, 114, 161, 178. -/
def Obligations.LasersAreWatchedAndReplaced : Prop :=
  ∀ (s : State) (e : EngIx), s.phase = .run →
    let n := e.toNat
    let t' := n / 2
    (∀ rd : MonReadings,
      (s.is (SPT_MON_CTRL_SRC n) = false ∨ (s.engine n).monRun = true ∨ (s.engine n).monFree = true →
        ∃ t, exec (.monitorIntegration e rd) s = .next t ∧ (t.engine n).monRun = false
          ∧ (∀ i v, i < 28 → rd.lasers[i]? = some v → t.rd (SPT_LSR_PWR_PWR t' (laserIx n (i / 7) (i % 7))) = ofSigned 16 v)
          ∧ (∀ j v, j < 32 → rd.taps[j]? = some v → t.rd (TRP_TAP_PWR (32 * n + j)) = ofSigned 16 v)
          ∧ ((s.engine n).boot ≠ 0 → t = { s with regs := t.regs, engines := t.engines })
          ∧ ∀ i v nom, i < 28 → rd.lasers[i]? = some v → (s.engine n).boot = 0 → s.nom n (i / 7) (i % 7) = some nom →
              let st := s.rd (laserState n (i / 7) (i % 7))
              let x := s.laser n (i / 7) (i % 7)
              let y := t.laser n (i / 7) (i % 7)
              (1 ≤ st ∧ st ≤ 4) ∨ (st = 7 ∧ s.laserRole n (i / 7) (i % 7) ≠ 7) →
              y.warn = (if v - nom ≤ -100 then x.warn + 1 else 0) ∧ y.clear = (if -50 < v - nom then x.clear + 1 else 0)
                ∧ y.mig = (if v - nom ≤ -200 then x.mig + 1 else 0)
                ∧ t.rd (laserState n (i / 7) (i % 7)) =
                  if v - nom ≤ -300 ∧ st ≠ 4 then 4 else if 4 ≤ y.mig ∧ (st = 1 ∨ st = 7 ∨ st = 2) then 3
                  else if 16 ≤ y.warn ∧ (st = 1 ∨ st = 7) then 2
                  else if 64 ≤ y.clear ∧ st = 2 then (if i % 7 < 5 then 1 else 7) else st)
      ∧ (s.is (SPT_MON_CTRL_SRC n) = true → (s.engine n).monFree = false →
          (s.engine n).monAt + 10 * monTicks (s.rd (SPT_MON_CTRL_INT n)) ≤ s.raw → ∃ t, exec (.monitorStarved e rd) s = .next t
            ∧ t.is (SPT_HEAT_STATUS_STARVED n) = true ∧ (t.engine n).monFree = true ∧ (t.engine n).monRun = false))
    ∧ (∀ (q : BitVec 2) (a : Arm) (w : Nat),
        let g := s.lgroup n q.toNat
        (∀ upper : Bool, (g.arms.find? fun a => !a.ready && a.spare == if upper then 6 else 5) = some a → ∃ t,
            exec (.spareReady e q upper) s = .next t
          ∧ t.rd (laserState n q.toNat a.spare) = 7
          ∧ (t.lgroup n q.toNat).arms = g.arms.map (fun b => if b.spare = a.spare then { b with ready := true } else b)
          ∧ t = { s with regs := t.regs, lgroups := t.lgroups })
        ∧ ((g.arms.find? fun a => a.mig && a.ready) = some a → (g.arms.any fun b => b.swap) = false →
            w = s.laserRole n q.toNat a.laser → s.lanesOff n q.toNat w = true → ∃ t, exec (.laserSwap e q) s = .next t ∧ Out.elmSync n ∈ t.outbox
              ∧ (t.lgroup n q.toNat).syncAt = s.raw ∧ (t.lgroup n q.toNat).held = s.groupSites n q.toNat w
              ∧ (t.lgroup n q.toNat).arms = g.arms.map (fun b => if b.laser = a.laser then { b with swap := true } else b))
        ∧ ((g.arms.find? fun a => a.swap) = some a → a.laser < 7 → a.spare < 7 → a.laser ≠ a.spare → g.syncAt + 9600 ≤ s.raw →
            ∃ t, exec (.laserSwapRelease e q) s = .next t ∧ t.rd (laserState n q.toNat a.laser) = 5
              ∧ t.laserRole n q.toNat a.laser = 7 ∧ t.laserRole n q.toNat a.spare = s.laserRole n q.toNat a.laser
              ∧ t.nom n q.toNat a.spare = s.nom n q.toNat a.laser
              ∧ (t.lgroup n q.toNat).arms = g.arms.filter (fun b => b.laser ≠ a.laser) ∧ (t.lgroup n q.toNat).held = []
              ∧ s.laserRole n q.toNat a.laser ∈ (t.lgroup n q.toNat).back
              ∧ t.ctr (sptPage t') (70 + groupIx n q.toNat) = s.ctr (sptPage t') (70 + groupIx n q.toNat) + 1)
        ∧ ∃ t, exec (.laserInputLost e q) s = .next t ∧ (t.engine n).elm = false ∧ t.is (engReady n) = false
            ∧ t.is (SPT_LSR_GROUP_INPUT_LOST t' (groupIx n q.toNat)) = true ∧ t.is (pageFld (sptPage t') 16 1 1) = true
            ∧ Out.elmEn n false ∈ t.outbox ∧ t = { s with regs := t.regs, outbox := t.outbox, engines := t.engines })
    ∧ (∀ (ready : Bool) (failed : List Nat) (monitors : List Int),
        (s.raw < (s.engine n).pollAt + 6400000 → exec (.modulePoll e ready failed monitors) s = .next s)
        ∧ ((s.engine n).pollAt + 6400000 ≤ s.raw → ∃ t, exec (.modulePoll e ready failed monitors) s = .next t
        ∧ Out.laserBus n 0 .flags ∈ t.outbox ∧ (t.engine n).polls = (s.engine n).polls ++ [(s.raw, ready, failed, monitors)]
        ∧ (t.engine n).ready = ready
        ∧ ∀ q k, q < 4 → k < 7 → let st := s.rd (laserState n q k)
          t.rd (laserState n q k)
            = if 7 * q + k ∈ failed ∧ ((1 ≤ st ∧ st ≤ 3) ∨ (st = 7 ∧ s.laserRole n q k ≠ 7)) then 4 else st))
    ∧ (∀ f : FpIx,
        let i := f.toNat
        let spt := sptPage (i / 64)
        let x := s.apr i
        (s.pairMode i ≠ 0 → s.inApr i = false → ∃ t, exec (.aprEnter f) s = .next t ∧ t.inApr i = true
          ∧ t.ctr spt (6 + i % 64) = s.ctr spt (6 + i % 64) + 1 ∧ t.is (pageFld spt 16 2 1) = true
          ∧ t = { s with regs := t.regs, outbox := t.outbox, ctrs := t.ctrs, aprs := (s.setApr i ⟨s.raw, s.raw, false⟩).aprs })
        ∧ (s.pairMode i ≠ 0 → s.inApr i = true →
          (x.open_ = false → x.pulseAt + 64000000 ≤ s.raw → exec (.aprPulseStart f) s
            = .next { s with aprs := (s.setApr i { x with pulseAt := s.raw, open_ := true }).aprs })
          ∧ (x.open_ = true → x.pulseAt + 1280000 ≤ s.raw → exec (.aprPulseEnd f) s
            = .next { s with aprs := (s.setApr i { x with open_ := false }).aprs })
          ∧ ∃ t, exec (.aprExit f) s = .next t ∧ t.inApr i = false ∧ (t.apr i).open_ = true))
    ∧ (∀ p : Slot,
        let m := p.toNat
        let cnt (w : Nat) : Int := (s.ctr (lnkPage (m / 256)) (2305 + 2 * (5 * (m / 4 % 64) + w))).toNat
        (s.joined (m / 4) = true → exec (.laneHealthCheck p) s = .next s)
        ∧ (s.up m = false → s.joined (m / 4) = false → exec (.laneHealthCheck p) s
          = .next { s with ports := (s.setPort m { s.port m with fecPrev := (List.range 5).map cnt }).ports })
        ∧ (s.up m = true → s.joined (m / 4) = false → ∃ t, exec (.laneHealthCheck p) s = .next t
          ∧ (t.port m).fecPrev = (List.range 5).map cnt
          ∧ ∀ i, i < (s.rxLanes m).length → s.rd (SPT_LANE_CFG_UNCORR_LIM (m / 256)) ≠ 0 →
              (let w := (s.rxLanes m).getD i 0
               (s.rd (SPT_LANE_CFG_UNCORR_LIM (m / 256)) : Int) ≤ (cnt w - (s.port m).fecPrev.getD w 0) % 2 ^ 64) →
              msgLaneFail i ∈ (t.port m).ctlQ))
    ∧ ∀ (src : Requester) (f : FpIx) (value : Word), takesWrite s src (TRP_XCONN_at f.toNat) → natField value.toNat 5 26 = 0 →
        let g := f.toNat / 32 * 32 + value.toNat % 32
        (natField value.toNat 31 1 = 0 → ∃ t, exec (.trpXconnWrite src f value) s = .next t
          ∧ t.is (TRP_XCONN_VALID f.toNat) = false ∧ t.rd (TRP_XCONN_PARTNER f.toNat) = value.toNat % 32
          ∧ t = { s with regs := t.regs } ∧ sameWords [TRP_XCONN_at f.toNat] s.toBox t.toBox)
        ∧ (natField value.toNat 31 1 = 1 → if (s.is (TRP_XCONN_VALID g) && s.rd (TRP_XCONN_PARTNER g) != f.toNat % 32)
              || s.joined f.toNat || s.joined g || s.bypassList (4 * f.toNat) || s.bypassList (4 * g)
            then ∃ t, exec (.trpXconnWrite src f value) s = .next t ∧ t.is (PAGE_ERR_ACCERR (wordPage (TRP_XCONN_at f.toNat))) = true
              ∧ t = { s with regs := t.regs, outbox := t.outbox }
              ∧ sameWords (errorWords (wordPage (TRP_XCONN_at f.toNat))) s.toBox t.toBox
            else ∃ t, exec (.trpXconnWrite src f value) s = .next t ∧ t.is (TRP_XCONN_VALID f.toNat) = true
              ∧ t.rd (TRP_XCONN_PARTNER f.toNat) = g % 32 ∧ t.is (TRP_XCONN_VALID g) = true
              ∧ t.rd (TRP_XCONN_PARTNER g) = f.toNat % 32 ∧ t = { s with regs := t.regs }
              ∧ sameWords [TRP_XCONN_at f.toNat, TRP_XCONN_at g] s.toBox t.toBox)

/-! ### Counters and measurement (13_counters.md) -/

/-- At every tick an enabled occupancy monitor counts when its quantity is above N, counts an episode with the monitor
interrupt under IE when it was not above N at the tick before, and keeps the largest value in MAX. A write of its
configuration or its threshold clears MAX, and the next tick is the first comparison; a write with a reserved SRC is
ignored as reserved, one with an INDEX out of range as an access error. The model's own choices in it: log entry 66. -/
def Obligations.OccupancyMonitorsCount : Prop :=
  ∀ s : State,
    (∀ (t : TentIx) (m : BitVec 4), s.phase = .run →
      let n := t.toNat
      let i := m.toNat
      let pg := brkPage n
      let q := s.occQuantity n (s.rd (BRK_OCC_CFG_SRC n i)) (s.rd (BRK_OCC_CFG_INDEX n i))
      let above := decide (s.rd (BRK_OCC_N_N n i) < q)
      let was := mapGet (fun _ => false) s.occs (16 * n + i)
      (s.is (BRK_OCC_CFG_EN n i) = false → exec (.occMonitorTick t m) s = .next s)
      ∧ (s.is (BRK_OCC_CFG_EN n i) = true → ∃ u, exec (.occMonitorTick t m) s = .next u
        ∧ u.ctr pg (32 + 2 * i) = (if above then s.ctr pg (32 + 2 * i) + 1 else s.ctr pg (32 + 2 * i))
        ∧ u.ctr pg (33 + 2 * i) = (if above && !was then s.ctr pg (33 + 2 * i) + 1 else s.ctr pg (33 + 2 * i))
        ∧ u.rd (BRK_OCC_MAX_MAX n i) = max (s.rd (BRK_OCC_MAX_MAX n i)) (min q 0xFFFFFFFF)
        ∧ (above = true → was = false → s.is (BRK_OCC_CFG_IE n i) = true → u.is (pageFld pg 16 0 1) = true)
        ∧ u = { s with regs := u.regs, outbox := u.outbox, ctrs := u.ctrs
                       occs := mapSet (fun _ => false) s.occs (16 * n + i) above }))
    ∧ (∀ (src : Requester) (t : TentIx) (m : BitVec 4) (thr : Bool) (value : Word),
        let n := t.toNat
        let i := m.toNat
        let a := if thr then BRK_OCC_N_at n i else BRK_OCC_CFG_at n i
        takesWrite s src a →
        if thr = false ∧ 8 ≤ natField value.toNat 26 4 then ∃ u, exec (.occCfgWrite src t m thr value) s = .next u
          ∧ u.is (PAGE_ERR_RSVW (brkPage n)) = true ∧ u = { s with regs := u.regs, outbox := u.outbox }
          ∧ sameWords (errorWords (brkPage n)) s.toBox u.toBox
        else if thr = false ∧ occMaxIndex (natField value.toNat 26 4) < natField value.toNat 0 14 then
          ∃ u, exec (.occCfgWrite src t m thr value) s = .next u
            ∧ u.is (PAGE_ERR_ACCERR (brkPage n)) = true ∧ u = { s with regs := u.regs, outbox := u.outbox }
            ∧ sameWords (errorWords (brkPage n)) s.toBox u.toBox
        else ∃ u, exec (.occCfgWrite src t m thr value) s = .next u
          ∧ u.word a = BitVec.ofNat 32 (writtenWord (maskAt a) (s.word a).toNat value.toNat)
          ∧ u.rd (BRK_OCC_MAX_MAX n i) = 0
          ∧ u = { s with regs := u.regs, outbox := u.outbox, occs := mapSet (fun _ => false) s.occs (16 * n + i) false }
          ∧ sameWords ([a, BRK_OCC_MAX_at n i] ++ errorWords (brkPage n)) s.toBox u.toBox)

/-- A sampler takes its configuration, a new one drawing afresh. The reader's TAIL releases sampled records up to HEAD. A
backlog notice leaves on every leaf-facing port at most once per interval. The model's own choices in it: log entry 65. -/
def Obligations.SamplersAndNoticesMeasure : Prop :=
  ∀ s : State,
    (∀ (src : Requester) (t : TentIx) (k : BitVec 4) (filt : Bool) (value : Word),
        let n := t.toNat
        let a := if filt then BRK_SMP_FILT_at n k.toNat else BRK_SMP_CFG_at n k.toNat
        takesWrite s src a →
        (filt = true ∨ (value.toNat.testBit 31 = true → 4 ≤ natField value.toNat 21 5 ∧ natField value.toNat 21 5 ≤ 24)
          ∧ (value.toNat.testBit 27 = true → value.toNat.testBit 30 = false)) →
        ∃ u, exec (.samplerCfgWrite src t k filt value) s = .next u
          ∧ u.word a = BitVec.ofNat 32 (writtenWord (maskAt a) (s.word a).toNat value.toNat)
          ∧ u = { s with regs := u.regs, outbox := u.outbox, samplers := u.samplers }
          ∧ (∀ j, j ≠ 16 * n + k.toNat → u.sampler j = s.sampler j)
          ∧ (if filt = false ∧ s.samplerOn n k.toNat = false ∧ s.is (BRK_CTRL_EN n) = true ∧ value.toNat.testBit 31 = true
            then u.sampler (16 * n + k.toNat) = u.samplerDraw n k.toNat
              { s.sampler (16 * n + k.toNat) with lfsr := rotl32 (s.rd (BRK_SEED_SEED n)) k.toNat }
            else u.sampler (16 * n + k.toNat) = { s.sampler (16 * n + k.toNat) with fresh := true })
          ∧ sameWords (a :: errorWords (brkPage n)) s.toBox u.toBox)
    ∧ (∀ (src : Requester) (value : Word), takesWrite s src MGT_SMPQ_TAIL_at → value.toNat < 512 →
        let n := (value.toNat + 512 - s.rd MGT_SMPQ_TAIL_INDEX) % 512
        if s.smpq.length < n then ∃ u, exec (.smpqTailWrite src value) s = .next u ∧ u.is (PAGE_ERR_ACCERR mgtPage) = true
          ∧ u = { s with regs := u.regs, outbox := u.outbox } ∧ sameWords (errorWords mgtPage) s.toBox u.toBox
        else ∃ u, exec (.smpqTailWrite src value) s = .next u ∧ u.rd MGT_SMPQ_TAIL_INDEX = value.toNat
          ∧ u = { s with regs := u.regs, smpq := s.smpq.drop n } ∧ sameWords [MGT_SMPQ_TAIL_at] s.toBox u.toBox)
    ∧ (s.phase = .run →
        let due := s.is (BRK_HINT_HOT_EN 0) = true ∧ s.hotQ ≠ [] ∧ s.hintAt + s.rd (BRK_HINT_INTERVAL_INTERVAL 0) ≤ s.raw
        (¬ due → exec .backlogNotice s = .next s)
        ∧ (due → ∃ u, exec .backlogNotice s = .next u ∧ u.hotQ = s.hotQ.drop 256 ∧ u.hintAt = s.raw
          ∧ u.ctr (brkPage 0) 66 = s.ctr (brkPage 0) 66 + BitVec.ofNat 64 s.leafPorts.length
          ∧ ∀ p, p < 2048 → (u.port p).hseq = if p ∈ s.leafPorts then ((s.port p).hseq + 1) % 65536 else (s.port p).hseq))

/-! ### Management (14_host_mgmt.md, 15_boot_security.md) -/

/-- The memory device mailbox answers each of its commands and no other; the event log loses the records cleared, oldest
first, and the timestamp is the wall time. The DOE instances answer discovery, and Table Access on instance 1, and are
Busy from an object on; an object written while one is Busy is discarded, one too large sets the Error bit, and an abort
clears both. The model's own choices in it: log entries 10, 123, 142, 176. -/
def Obligations.MailboxAndDoeAnswer : Prop :=
  ∀ s : State, s.phase = .run → s.reaches .driver = true →
    let answered (r : Reply) : State := { s with outbox := .reply r :: s.outbox }
    exec .getEventRecords s = .next (answered (.mboxEvents s.cxlLog))
    ∧ (∀ n, n ≤ s.cxlLog.length → exec (.clearEventRecords n) s = .next { answered .mboxDone with cxlLog := s.cxlLog.drop n })
    ∧ (∀ n, s.cxlLog.length < n → exec (.clearEventRecords n) s = .next (answered .mboxInvalid))
    ∧ exec .getTimestamp s = .next (answered (.mboxTimestamp s.wallNow))
    ∧ (∀ ns : BitVec 64, ∃ t, exec (.setTimestamp ns) s = .next t ∧ t = { answered .mboxDone with wall := some (ns.toNat, s.raw) }
        ∧ t.wallNow = ns.toNat)
    ∧ exec .getSupportedLogs s = .next (answered (.mboxLogs ["Command Effects Log"]))
    ∧ (∀ offset len, exec (.getLog offset len) s = .next (answered (if offset + len ≤ effectsLog.length
        then .mboxLog ((effectsLog.drop offset).take len) else .mboxInvalid)))
    ∧ exec .identifyMemoryDevice s
        = .next (answered (.mboxIdentify (s.rd CXL_WIN_CFG_UNITS * 256) (s.rd CXL_WIN_CFG_UNITS * 256) 0))
    ∧ exec .getHealthInfo s = .next (answered (.mboxHealth (s.dieDegrees 8) 0))
    ∧ (∀ op : BitVec 16, op.toNat ∉ mailboxOpcodes → exec (.mailboxUnsupported op) s = .next (answered .mboxUnsupported))
    ∧ ∀ inst : Bool,
        let busy (r : Reply) : State := { answered r with doeBusy := b2n inst :: s.doeBusy }
        (b2n inst ∉ s.doeBusy →
          exec (.doeRequest inst (.discovery 0)) s = .next (busy (.doeProtocol (b2n inst) 0 1))
          ∧ exec (.doeRequest inst (.discovery 1)) s = .next (busy (.doeProtocol (b2n inst) (if inst then 2 else 1) 0))
          ∧ (∀ h : BitVec 16, inst = true → exec (.doeRequest inst (.table h)) s
              = .next (busy (.doeCdat (s.rd CXL_WIN_CFG_UNITS * 256) true 2000 8 0)))
          ∧ ∀ r, doeTooLarge r = true → ∃ t, exec (.doeRequest inst r) s = .next t ∧ b2n inst ∈ t.doeError
            ∧ t = { s with doeError := t.doeError })
        ∧ (b2n inst ∈ s.doeBusy → ∀ r, exec (.doeRequest inst r) s = .next s)
        ∧ exec (.doeAbort inst) s = .next { s with doeError := s.doeError.filter (· ≠ b2n inst)
                                                   doeBusy := s.doeBusy.filter (· ≠ b2n inst) }

/-- Management Ethernet and BMT while firmware runs. A READ is answered with its words and a WRITE applied where the path may
write, a bad one with a NACK; SUBSCRIBE names the collector. The lane answers ARP and ICMP for its address and takes its
address and the time; another frame, and one beyond the lane's rate, is counted in MGT_ETH_DISC. The model's own choices
in it: log entries 10, 140, 141, 145, 175. -/
def Obligations.BmtAndEthernetServe : Prop :=
  ∀ s : State, s.phase = .run →
    (∀ (path : BmtPath) (seq : Word) (space : BitVec 8) (addr : Word) (r : BmtReq) (s1 : Box),
      (∀ count : BitVec 16,
        bmtHere s.toBox path ⟨0, 1, 1, count.toNat, seq.toNat, space.toNat, addr.toNat, []⟩ r s1 →
        (r.good = false → exec (.bmtRead path seq space count addr) s
          = .next { s with toBox := s1.bmtAnswer path r.dst 4 seq.toNat 1 [3] })
        ∧ (r.good = true → ∃ t, exec (.bmtRead path seq space count addr) s = .next t
          ∧ let q := s1.bmtWords space.toNat addr.toNat count.toNat
            q.1.length = count.toNat ∧ t.regs = q.2.regs ∧ t.tabs = s.tabs ∧ t.mem = s.mem
              ∧ t.outbox = (q.2.bmtAnswer path r.dst 3 seq.toNat count.toNat q.1).outbox
              ∧ t.vc6Q = (q.2.bmtAnswer path r.dst 3 seq.toNat count.toNat q.1).vc6Q))
      ∧ (∀ data : List Word,
        bmtHere s.toBox path ⟨0, 1, 2, data.length, seq.toNat, space.toNat, addr.toNat, data⟩ r s1 →
        (s1.bmtMayWrite path = false ∨ r.barred = true → exec (.bmtWrite path seq space addr data) s
          = .next { s with toBox := s1.bmtAnswer path r.dst 4 seq.toNat 1 [2] })
        ∧ (s1.bmtMayWrite path = true → r.barred = false → r.good = false → exec (.bmtWrite path seq space addr data) s
          = .next { s with toBox := s1.bmtAnswer path r.dst 4 seq.toNat 1 [3] })
        ∧ (s1.bmtMayWrite path = true → r.barred = false → r.data.length ≠ r.count →
          exec (.bmtWrite path seq space addr data) s
            = .next { s with toBox := s1.bmtAnswer path r.dst 4 seq.toNat 1 [3] })
        ∧ (s1.bmtMayWrite path = true → r.barred = false → r.good = true → r.data.length = r.count →
          let b := s1.bmtStore (bmtSource path) space.toNat addr.toNat data
          ∃ t, exec (.bmtWrite path seq space addr data) s = .next t ∧ t.regs = b.regs ∧ t.tabs = b.tabs
            ∧ (b.firmware = true → t.outbox = (b.bmtAnswer path r.dst 3 seq.toNat 0 []).outbox
              ∧ t.vc6Q = (b.bmtAnswer path r.dst 3 seq.toNat 0 []).vc6Q)))
      ∧ ∀ sender : BitVec 48,
        bmtHere s.toBox path (s.subscribeOf path seq.toNat) r s1 → r.count = 0 → r.seq = seq.toNat →
        ∃ t, exec (.bmtSubscribe path seq sender) s = .next t
          ∧ t.collector = some (path, if path = .vc6 then BitVec.ofNat 48 r.dst else sender)
          ∧ t = { s with
                  toBox := { s1.bmtAnswer path r.dst 3 seq.toNat 0 [] with collector := t.collector } })
    ∧ ∀ m : EthMsg, s.firmware = true →
        let sent := if s.ethSecond.1 = s.raw / 640000000 then s.ethSecond.2 else 0
        let s1 : State := { s with ethSecond := (s.raw / 640000000, sent + 1) }
        (sent < 50000 → match m with
          | .arp target sender => exec (.ethFrameReceive m) s = .next (if s.ip = some target
              then { s1 with outbox := .reply (.arp (s.rd MGT_ETH_MAC_HI_MAC * 2 ^ 32 + s.rd MGT_ETH_MAC_LO_MAC) sender.toNat)
                :: s.outbox } else s1)
          | .icmpEcho dst src data =>
              (s.ip = some dst →
                exec (.ethFrameReceive m) s = .next { s1 with outbox := .reply (.icmpEcho src.toNat data) :: s.outbox })
              ∧ (s.ip ≠ some dst → ∃ t, exec (.ethFrameReceive m) s = .next t ∧ t.ctr mgtPage 4 = s.ctr mgtPage 4 + 1
                ∧ t = { s1 with ctrs := t.ctrs, regs := t.regs, outbox := t.outbox })
          | .ptp => ∃ t, exec (.ethFrameReceive m) s = .next t
              ∧ (if s.is TGT_PTP_CTRL_ETH_EN then t.ctr tgtPage 1 = s.ctr tgtPage 1 + 1
                else t.ctr mgtPage 4 = s.ctr mgtPage 4 + 1)
              ∧ t = { s1 with ctrs := t.ctrs, regs := t.regs, outbox := t.outbox }
          | .dhcpOffer a => exec (.ethFrameReceive m) s = .next { s1 with outbox := .dhcpRequest a :: s.outbox }
          | .dhcpAck a => exec (.ethFrameReceive m) s = .next { s1 with ip := some a, outbox := .ntpRequest :: s.outbox }
          | .ntp ns => exec (.ethFrameReceive m) s = .next { s1 with wall := some (ns.toNat, s.raw) }
          | .bmtBad seq => exec (.ethFrameReceive m) s
              = .next { s1 with outbox := .reply (.bmt .ethernet 4 1 seq.toNat [1]) :: s.outbox }
          | .other => ∃ t, exec (.ethFrameReceive m) s = .next t ∧ t.ctr mgtPage 4 = s.ctr mgtPage 4 + 1
              ∧ t = { s1 with ctrs := t.ctrs, regs := t.regs, outbox := t.outbox })
        ∧ (50000 ≤ sent → ∃ t, exec (.ethFrameReceive m) s = .next t ∧ t.ctr mgtPage 4 = s.ctr mgtPage 4 + 1
          ∧ t = { s1 with ctrs := t.ctrs, regs := t.regs, outbox := t.outbox })

/-- Each transport has one SPDM connection. GET_VERSION restarts the connection of its transport, whatever it was, for the
endpoint that sends it, whichever endpoint held it before, and leaves the other transport's alone; a request from any
other endpoint ID than the one that holds the connection is answered with ERROR RequestResynch. -/
def Obligations.SpdmConnectionsRestart : Prop :=
  ∃ start : Nat, start ≠ 0 ∧ ∀ (s : State) (via : SpdmVia), s.phase = .run → spdmHere s.toBox via →
    (∃ t, exec (.getVersion via) s = .next t ∧ t.spdm via = ⟨start, viaEid via⟩
      ∧ (∀ other : SpdmVia, (via = .doe ∧ other ≠ .doe) ∨ (via ≠ .doe ∧ other = .doe) → t.spdm other = s.spdm other)
      ∧ t = { s with spdmDoe := t.spdmDoe, spdmMctp := t.spdmMctp, outbox := t.outbox, doeBusy := t.doeBusy })
    ∧ ∀ (offset len : Nat) (nonce : BitVec 256) (index : BitVec 8), (s.spdm via).phase ≠ 0 → (s.spdm via).eid ≠ viaEid via →
        ∀ c ∈ [Instr.getCapabilities via, .negotiateAlgorithms via, .getDigests via, .getCertificate via offset len,
          .challenge via nonce, .getMeasurements via index nonce], ∃ t, exec c s = .next t
            ∧ t.outbox = .reply (.spdmError "RequestResynch") :: s.outbox ∧ t = { s with outbox := t.outbox, doeBusy := t.doeBusy }

/-- I3C, MCTP, PLDM and SPDM. ENTDAA gives the dynamic address and is answered with the provisional ID, RSTDAA takes it back,
GETSTATUS shows BOOT_STATE; private transfers are taken once the port has its address and firmware runs. Control messages
give or read the endpoint's ID; the PLDM commands answer, the sensors with the registers of the PWR page and the last
readings of the memory devices, which are taken every 1 ms; an SPDM connection goes through version, capabilities and
algorithms and then answers for its certificates and measurements, a request out of its phase being refused, and signs at
most 100 times a second. The model's own choices in it: log entries 10, 142, 143, 144, 164, 176, 177. -/
def Obligations.SidebandAndAttestationAnswer : Prop :=
  (∀ b : Box, if b.raw % 640000 = 0
      then b.aliveTick.rd PWR_PKG_W = (Config.freeBits b.freeCtr).toNat % 65536
        ∧ ∀ d, d < 16 → b.aliveTick.memTemps.getD d 0 = (Config.freeBits (b.freeCtr + (d + 1))).toNat % 65536
      else b.aliveTick = { b with doeBusy := [] })
  ∧ ∀ s : State, s.phase = .run →
    let answered (r : Reply) : State := { s with outbox := .reply r :: s.outbox }
    (∀ a : BitVec 7, (s.i3cAddr = none → exec (.i3cEntdaa (.entdaa a)) s
        = .next { answered (.i3cPid (Config.provisionalId Config.serial)) with i3cAddr := some a })
      ∧ (s.i3cAddr.isSome = true → exec (.i3cEntdaa (.entdaa a)) s = .next s)
      ∧ exec (.i3cEntdaa (.other a)) s = .next (answered .i3cAck))
    ∧ exec (.i3cEntdaa .rstdaa) s = .next { answered .i3cAck with i3cAddr := none }
    ∧ (s.i3cAddr = none → exec .i3cGetstatus s = .next (answered .i3cNack))
    ∧ (s.i3cAddr.isSome = true → exec .i3cGetstatus s
        = .next { answered (.i3cStatus (s.bootState * 256 + (Config.freeBits s.freeCtr).toNat % 256)) with
                  freeCtr := s.freeCtr + 1 })
    ∧ (s.i3cReady = false → ∀ (ty : BitVec 7) (eid e : BitVec 8) (set : Option (BitVec 8)) (x : PldmSensor) (n : Nat),
        ∀ c ∈ [Instr.mctpControl ty eid set, .getTid, .getPldmTypes, .getPldmVersion e, .getPldmCommands e, .pldmSensorRead x,
          .getVersion (.mctp e), .getCapabilities (.mctp e), .negotiateAlgorithms (.mctp e), .getDigests (.mctp e),
          .getCertificate (.mctp e) n n, .challenge (.mctp e) 0, .getMeasurements (.mctp e) e 0],
        exec c s = .next (answered .i3cNack))
    ∧ (s.i3cReady = true →
        (∀ (ty : BitVec 7) (eid e : BitVec 8) (set : Option (BitVec 8)),
          (eid ≠ 0 → eid.toNat ≠ s.eid → exec (.mctpControl ty eid set) s = .next s)
          ∧ (eid = 0 ∨ eid.toNat = s.eid →
            (ty = 0 → e.toNat ≠ 0 → e.toNat ≠ 255 → exec (.mctpControl ty eid (some e)) s
              = .next { answered (.mctpEid e.toNat) with eid := e.toNat })
            ∧ (ty = 0 → e.toNat = 0 ∨ e.toNat = 255 → exec (.mctpControl ty eid (some e)) s = .next (answered .mctpError))
            ∧ (ty = 0 → exec (.mctpControl ty eid none) s
              = .next { s with outbox := .reply (.mctpTypes [0, 1, 5]) :: .reply (.mctpEid s.eid) :: s.outbox })
            ∧ (ty = 1 → exec (.mctpControl ty eid set) s = .next s)
            ∧ (ty = 5 → exec (.mctpControl ty eid set) s = .next (answered (.spdmError "UnsupportedRequest")))
            ∧ (ty.toNat ∉ [0, 1, 5] → ∃ t, exec (.mctpControl ty eid set) s = .next t
              ∧ t.ctr mgtPage 5 = s.ctr mgtPage 5 + 1 ∧ t = { s with ctrs := t.ctrs, regs := t.regs, outbox := t.outbox })))
        ∧ exec .getTid s = .next (answered (.pldmTid Config.tid.toNat))
        ∧ exec .getPldmTypes s = .next (answered (.pldmTypes [0, 2, 5]))
        ∧ (∀ ty : BitVec 8, exec (.getPldmVersion ty) s
              = .next (answered (if ty.toNat ∈ [0, 2, 5] then .pldmVersion ty.toNat else .pldmInvalid))
            ∧ exec (.getPldmCommands ty) s
              = .next (answered (if ty.toNat ∈ [0, 2, 5] then .pldmCommands ty.toNat else .pldmInvalid)))
        ∧ (∀ d : DieIx, exec (.pldmSensorRead (.junction d)) s
            = .next (answered (.pldmSensor (toSigned 16 (s.rd (PWR_TJ_TJ d.toNat))))))
        ∧ (∀ d : BitVec 4, exec (.pldmSensorRead (.memTemp d)) s
            = .next (answered (.pldmSensor (toSigned 16 (s.memTemps.getD d.toNat 0)))))
        ∧ exec (.pldmSensorRead .packagePower) s = .next (answered (.pldmSensor (s.rd PWR_PKG_W)))
        ∧ exec (.pldmSensorRead .coreRail) s = .next (answered (.pldmSensor (s.rd (PWR_RAIL_MV 0))))
        ∧ exec (.pldmSensorRead .deviceState) s = .next (answered (.pldmState s.deviceState)))
    ∧ ∀ via : SpdmVia, spdmHere s.toBox via →
        let c := s.spdm via
        let u := spdmTaken s via
        let said (r : Reply) : State := { u with outbox := .reply r :: s.outbox }
        let moved (k : Nat) (r : Reply) : State :=
          { u with toBox := { u.setSpdm via ⟨k, viaEid via⟩ with outbox := .reply r :: s.outbox } }
        let signed (r : List Byte → Reply) : State :=
          { said (r (ecdsaSign s.aliasKey (s.freeBytes 6).1)) with
            freeCtr := s.freeCtr + 6
            spdmSigs := s.raw :: s.recentSigs }
        exec (.getVersion via) s = .next (moved 1 (.spdmVersions [0x11, 0x12]))
        ∧ (c.eid ≠ viaEid via → ∀ i ∈ [Instr.getCapabilities via, .negotiateAlgorithms via, .getDigests via,
            .getCertificate via 0 0, .challenge via 0, .getMeasurements via 0 0],
            exec i s = .next (said (.spdmError "RequestResynch")))
        ∧ (∀ (k : Nat) (i : Instr), (k, i) ∈ [(1, Instr.getCapabilities via), (2, .negotiateAlgorithms via), (3, .getDigests via),
              (3, .getCertificate via 0 0), (3, .challenge via 0), (3, .getMeasurements via 0 0)] →
            c.eid = viaEid via → c.phase ≠ k → exec i s = .next (said (.spdmError "UnexpectedRequest")))
        ∧ (c.eid = viaEid via →
            (c.phase = 1 → exec (.getCapabilities via) s = .next (moved 2 (.spdmCapabilities true true 2 16)))
            ∧ (c.phase = 2 → exec (.negotiateAlgorithms via) s = .next (moved 3 spdmAlgs))
            ∧ (c.phase = 3 →
              exec (.getDigests via) s = .next (said (.spdmDigests (sha384 s.certSlot)))
              ∧ (∀ offset len, (offset ≤ s.certSlot.length → exec (.getCertificate via offset len) s
                  = .next (said (.spdmCertificate ((s.certSlot.drop offset).take len)
                      (s.certSlot.length - offset - min len (s.certSlot.length - offset)))))
                ∧ (s.certSlot.length < offset → exec (.getCertificate via offset len) s
                  = .next (said (.spdmError "InvalidRequest"))))
              ∧ (∀ nonce, s.recentSigs.length < 100 → exec (.challenge via nonce) s
                = .next (signed (.spdmChallenge (sha384 s.certSlot) (sha384 (s.allMeasurements.flatMap Meas.value)) nonce)))
              ∧ (∀ nonce, 100 ≤ s.recentSigs.length → exec (.challenge via nonce) s = .next (said (.spdmError "Busy")))
              ∧ ∀ (index : BitVec 8) nonce, (∀ l, s.measurementsAt index.toNat = some l →
                  (s.recentSigs.length < 100 → exec (.getMeasurements via index nonce) s
                    = .next (signed (.spdmMeasurements 7 l nonce)))
                  ∧ (100 ≤ s.recentSigs.length → exec (.getMeasurements via index nonce) s = .next (said (.spdmError "Busy"))))
                ∧ (s.measurementsAt index.toNat = none → exec (.getMeasurements via index nonce) s
                  = .next (said (.spdmError "InvalidRequest")))))
end

