-- ==== Sys2Proof/Laws/Bits.lean ====
section
/-!
SUPPORT. Laws of bit fields: a field reads back what was written to it, and writing one field leaves every disjoint field
as it was.
-/

namespace Sys2Proof.Laws

open Sys2Proof Sys2Proof.Machine

theorem b2n_le_one (b : Bool) : b2n b ≤ 1 := by cases b <;> simp [b2n]

@[simp] theorem b2n_true : b2n true = 1 := rfl
@[simp] theorem b2n_false : b2n false = 0 := rfl

/-- A field stays below its width's power of two. -/
theorem natField_lt (n lo width : Nat) : natField n lo width < 2 ^ width :=
  Nat.mod_lt _ (by positivity)

theorem wordField_lt (w : Word) (lo width : Nat) : wordField w lo width < 2 ^ width := natField_lt _ _ _

/-- A number split at a field: the bits below it, the field, the bits above it. -/
theorem natField_split (n lo width : Nat) :
    n = n % 2 ^ lo + 2 ^ lo * (natField n lo width + 2 ^ width * (n / 2 ^ (lo + width))) := by
  have h1 := Nat.mod_add_div n (2 ^ lo)
  have h2 := Nat.mod_add_div (n / 2 ^ lo) (2 ^ width)
  rw [Nat.div_div_eq_div_mul, ← pow_add] at h2
  simp only [natField]
  rw [h2, h1]

/-- The number with a field replaced, split in the same way. -/
theorem natField_replace (n lo width v : Nat) :
    n - natField n lo width * 2 ^ lo + v * 2 ^ lo
      = n % 2 ^ lo + 2 ^ lo * (v + 2 ^ width * (n / 2 ^ (lo + width))) := by
  have h := natField_split n lo width
  generalize natField n lo width = f at *
  generalize n / 2 ^ (lo + width) = q at *
  generalize n % 2 ^ lo = r at *
  have e1 : 2 ^ lo * (f + 2 ^ width * q) = f * 2 ^ lo + 2 ^ lo * (2 ^ width * q) := by ring
  have e2 : 2 ^ lo * (v + 2 ^ width * q) = v * 2 ^ lo + 2 ^ lo * (2 ^ width * q) := by ring
  rw [e1] at h
  rw [e2, h]
  omega

/-- What `wordWith` writes, before it is cut to 32 bits, fits in them. -/
theorem wordWith_toNat (w : Word) (lo width v : Nat) (h : lo + width ≤ 32) :
    (wordWith w lo width v).toNat
      = w.toNat % 2 ^ lo + 2 ^ lo * (v % 2 ^ width + 2 ^ width * (w.toNat / 2 ^ (lo + width))) := by
  have hw : w.toNat < 2 ^ 32 := w.isLt
  have hp : (2:Nat) ^ 32 = 2 ^ lo * (2 ^ width * 2 ^ (32 - (lo + width))) := by
    rw [← pow_add, ← pow_add]; congr 1; omega
  have hq : w.toNat / 2 ^ (lo + width) < 2 ^ (32 - (lo + width)) := by
    apply Nat.div_lt_of_lt_mul
    calc w.toNat < 2 ^ 32 := hw
      _ = 2 ^ (lo + width) * 2 ^ (32 - (lo + width)) := by rw [hp, pow_add]; ring
  have hv : v % 2 ^ width < 2 ^ width := Nat.mod_lt _ (by positivity)
  have hr : w.toNat % 2 ^ lo < 2 ^ lo := Nat.mod_lt _ (by positivity)
  have hin : v % 2 ^ width + 2 ^ width * (w.toNat / 2 ^ (lo + width)) + 1 ≤ 2 ^ width * 2 ^ (32 - (lo + width)) := by
    have := Nat.mul_le_mul_left (2 ^ width) (Nat.succ_le_of_lt hq)
    have e : 2 ^ width * (w.toNat / 2 ^ (lo + width)).succ
        = 2 ^ width * (w.toNat / 2 ^ (lo + width)) + 2 ^ width := by rw [Nat.mul_succ]
    omega
  have hall : w.toNat % 2 ^ lo + 2 ^ lo * (v % 2 ^ width + 2 ^ width * (w.toNat / 2 ^ (lo + width))) < 2 ^ 32 := by
    rw [hp]
    have := Nat.mul_le_mul_left (2 ^ lo) hin
    rw [Nat.mul_add, Nat.mul_one] at this
    omega
  simp only [wordWith, wordField, BitVec.toNat_ofNat]
  rw [natField_replace, Nat.mod_eq_of_lt hall]

/-- A field reads back what was written to it, modulo its width. -/
theorem wordField_wordWith_same (w : Word) (lo width v : Nat) (h : lo + width ≤ 32) :
    wordField (wordWith w lo width v) lo width = v % 2 ^ width := by
  rw [wordField, wordWith_toNat w lo width v h, natField]
  rw [Nat.add_mul_div_left _ _ (by positivity), Nat.div_eq_of_lt (Nat.mod_lt _ (by positivity)), Nat.zero_add]
  rw [Nat.add_mul_mod_self_left, Nat.mod_mod]

/-- Writing a field leaves every field above it. -/
theorem wordField_wordWith_above (w : Word) (lo width v lo' width' : Nat) (h : lo + width ≤ 32) (hd : lo + width ≤ lo') :
    wordField (wordWith w lo width v) lo' width' = wordField w lo' width' := by
  rw [wordField, wordField, wordWith_toNat w lo width v h, natField, natField]
  have hv : v % 2 ^ width < 2 ^ width := Nat.mod_lt _ (by positivity)
  have hr : w.toNat % 2 ^ lo < 2 ^ lo := Nat.mod_lt _ (by positivity)
  have key : (w.toNat % 2 ^ lo + 2 ^ lo * (v % 2 ^ width + 2 ^ width * (w.toNat / 2 ^ (lo + width)))) / 2 ^ (lo + width)
      = w.toNat / 2 ^ (lo + width) := by
    rw [pow_add, ← Nat.div_div_eq_div_mul, Nat.add_mul_div_left _ _ (by positivity), Nat.div_eq_of_lt hr, Nat.zero_add,
      Nat.add_mul_div_left _ _ (by positivity), Nat.div_eq_of_lt hv, Nat.zero_add]
  have e : (2:Nat) ^ lo' = 2 ^ (lo + width) * 2 ^ (lo' - (lo + width)) := by rw [← pow_add]; congr 1; omega
  rw [e, ← Nat.div_div_eq_div_mul, key, Nat.div_div_eq_div_mul]

/-- Writing a field leaves every field below it. -/
theorem wordField_wordWith_below (w : Word) (lo width v lo' width' : Nat) (h : lo + width ≤ 32) (hd : lo' + width' ≤ lo) :
    wordField (wordWith w lo width v) lo' width' = wordField w lo' width' := by
  rw [wordField, wordField, wordWith_toNat w lo width v h, natField, natField]
  have e : (2:Nat) ^ lo = 2 ^ lo' * (2 ^ width' * 2 ^ (lo - (lo' + width'))) := by
    rw [← pow_add, ← pow_add]; congr 1; omega
  have hm : ∀ x : Nat, (w.toNat % 2 ^ lo + 2 ^ lo * x) / 2 ^ lo' % 2 ^ width' = w.toNat % 2 ^ lo / 2 ^ lo' % 2 ^ width' := by
    intro x
    have : 2 ^ lo * x = 2 ^ lo' * (2 ^ width' * (2 ^ (lo - (lo' + width')) * x)) := by rw [e]; ring
    rw [this, Nat.add_mul_div_left _ _ (by positivity), Nat.add_mul_mod_self_left]
  rw [hm]
  have hs := hm (w.toNat / 2 ^ lo)
  rw [Nat.mod_add_div] at hs
  exact hs.symm

/-- Writing a field twice leaves the last value. -/
theorem wordWith_wordWith (w : Word) (lo width u v : Nat) (h : lo + width ≤ 32) :
    wordWith (wordWith w lo width u) lo width v = wordWith w lo width v := by
  apply BitVec.eq_of_toNat_eq
  rw [wordWith_toNat _ _ _ _ h, wordWith_toNat _ _ _ _ h, wordWith_toNat _ _ _ _ h]
  have hv : u % 2 ^ width < 2 ^ width := Nat.mod_lt _ (by positivity)
  have hr : w.toNat % 2 ^ lo < 2 ^ lo := Nat.mod_lt _ (by positivity)
  congr 1
  · rw [Nat.add_mul_mod_self_left, Nat.mod_mod]
  · congr 3
    rw [pow_add, ← Nat.div_div_eq_div_mul, Nat.add_mul_div_left _ _ (by positivity), Nat.div_eq_of_lt hr, Nat.zero_add,
      Nat.add_mul_div_left _ _ (by positivity), Nat.div_eq_of_lt hv, Nat.zero_add]

end Sys2Proof.Laws
end

