-- ==== Sys2Proof/Laws/Maps.lean ====
section
/-!
SUPPORT. Laws of sparse maps: a read after a write to the same key gives the value written, a write leaves every other key,
and every operation keeps the canonical form.
-/

namespace Sys2Proof.Laws

open Sys2Proof Sys2Proof.Machine

variable {α : Type}

theorem mapWfFrom_mono [DecidableEq α] {d : Nat → α} {m : Sparse α} {lo lo' : Nat} (h : mapWfFrom d lo m = true)
    (hl : lo' ≤ lo) : mapWfFrom d lo' m = true := by
  cases m with
  | nil => rfl
  | cons e m =>
    obtain ⟨k, v⟩ := e
    simp only [mapWfFrom, Bool.and_eq_true, decide_eq_true_eq] at h ⊢
    exact ⟨⟨le_trans hl h.1.1, h.1.2⟩, h.2⟩

theorem filter_wfFrom [DecidableEq α] {d : Nat → α} {m : Sparse α} {lo : Nat} (p : Nat × α → Bool)
    (h : mapWfFrom d lo m = true) : mapWfFrom d lo (m.filter p) = true := by
  induction m generalizing lo with
  | nil => rfl
  | cons e m ih =>
    obtain ⟨k, v⟩ := e
    simp only [mapWfFrom, Bool.and_eq_true, decide_eq_true_eq] at h
    rw [List.filter_cons]
    split
    · simp only [mapWfFrom, Bool.and_eq_true, decide_eq_true_eq]
      exact ⟨h.1, ih h.2⟩
    · exact mapWfFrom_mono (ih h.2) (by omega)

theorem mapGet_filter (d : Nat → α) (m : Sparse α) (p : Nat → Bool) (k : Nat) :
    mapGet d (m.filter fun e => p e.1) k = if p k then mapGet d m k else d k := by
  induction m with
  | nil => simp [mapGet]
  | cons e m ih =>
    obtain ⟨a, x⟩ := e
    rw [List.filter_cons]
    by_cases hp : p a = true
    · simp only [hp, if_true, mapGet]
      by_cases ha : a = k
      · subst ha; simp [hp]
      · simp only [ha, if_false, ih]
    · have hpa : p a = false := by simpa using hp
      simp only [hpa, Bool.false_eq_true, if_false, mapGet]
      rw [ih]
      by_cases ha : a = k
      · subst ha; simp [hpa]
      · simp only [ha, if_false]

/-- A read after a write to the same key gives the value written. -/
@[simp] theorem mapGet_mapSet_same [DecidableEq α] (d : Nat → α) (m : Sparse α) (k : Nat) (v : α) :
    mapGet d (mapSet d m k v) k = v := by
  have drop : ∀ l : Sparse α, mapGet d (l.filter fun e => decide (e.1 ≠ k)) k = d k := by
    intro l
    have := mapGet_filter d l (fun j => decide (j ≠ k)) k
    simpa using this
  induction m with
  | nil =>
    simp only [mapSet]
    split
    · next hv => rw [hv]; rfl
    · simp [mapGet]
  | cons e m ih =>
    obtain ⟨k', v'⟩ := e
    simp only [mapSet]
    split
    · split
      · next hv => rw [drop, hv]
      · simp [mapGet]
    · split
      · split
        · next hv => rw [drop, hv]
        · simp [mapGet]
      · next hne =>
        simp only [mapGet]
        rw [if_neg (Ne.symm hne)]
        exact ih

/-- A write leaves every other key. -/
theorem mapGet_mapSet_other [DecidableEq α] (d : Nat → α) (m : Sparse α) {k k' : Nat} (v : α) (h : k' ≠ k) :
    mapGet d (mapSet d m k v) k' = mapGet d m k' := by
  have keep : ∀ l : Sparse α, mapGet d (l.filter fun e => decide (e.1 ≠ k)) k' = mapGet d l k' := by
    intro l
    have := mapGet_filter d l (fun j => decide (j ≠ k)) k'
    simpa [h] using this
  induction m with
  | nil =>
    simp only [mapSet]
    split
    · rfl
    · simp [mapGet, Ne.symm h]
  | cons e m ih =>
    obtain ⟨a, x⟩ := e
    simp only [mapSet]
    split
    · split
      · exact keep _
      · simp [mapGet, Ne.symm h]
    · split
      · next heq =>
        subst heq
        split
        · rw [keep]; simp [mapGet, Ne.symm h]
        · simp [mapGet, Ne.symm h]
      · simp only [mapGet, ih]

theorem mapSet_wfFrom [DecidableEq α] {d : Nat → α} {m : Sparse α} {lo : Nat} (h : mapWfFrom d lo m = true) {k : Nat}
    (hk : lo ≤ k) (v : α) : mapWfFrom d lo (mapSet d m k v) = true := by
  induction m generalizing lo with
  | nil =>
    simp only [mapSet]
    split
    · rfl
    · simp_all [mapWfFrom]
  | cons e m ih =>
    obtain ⟨k', v'⟩ := e
    have h0 := h
    simp only [mapWfFrom, Bool.and_eq_true, decide_eq_true_eq] at h
    simp only [mapSet]
    split
    · split
      · exact filter_wfFrom _ h0
      · simp only [mapWfFrom, Bool.and_eq_true, decide_eq_true_eq]
        exact ⟨⟨hk, by assumption⟩, ⟨by omega, h.1.2⟩, h.2⟩
    · split
      · next heq =>
        subst heq
        split
        · exact mapWfFrom_mono (filter_wfFrom _ h.2) (by omega)
        · simp only [mapWfFrom, Bool.and_eq_true, decide_eq_true_eq]
          exact ⟨⟨hk, by assumption⟩, h.2⟩
      · simp only [mapWfFrom, Bool.and_eq_true, decide_eq_true_eq]
        exact ⟨h.1, ih h.2 (by omega)⟩

/-- A write keeps the canonical form. -/
theorem mapSet_wf [DecidableEq α] {d : Nat → α} {m : Sparse α} (h : mapWf d m = true) (k : Nat) (v : α) :
    mapWf d (mapSet d m k v) = true := mapSet_wfFrom h (Nat.zero_le k) v

/-- Clearing a range keeps the canonical form. -/
theorem mapClear_wf [DecidableEq α] {d : Nat → α} {m : Sparse α} (h : mapWf d m = true) (lo n : Nat) :
    mapWf d (mapClear m lo n) = true := filter_wfFrom _ h

/-- Dropping entries keeps the canonical form. -/
theorem mapDrop_wf [DecidableEq α] {d : Nat → α} {m : Sparse α} (h : mapWf d m = true) (p : Nat → Bool) :
    mapWf d (mapDrop m p) = true := filter_wfFrom _ h

/-- Writing consecutive keys keeps the canonical form. -/
theorem mapSetAll_wf [DecidableEq α] {d : Nat → α} {m : Sparse α} (h : mapWf d m = true) (k : Nat) (vs : List α) :
    mapWf d (mapSetAll d m k vs) = true := by
  induction vs generalizing m k with
  | nil => exact h
  | cons v vs ih => exact ih (mapSet_wf h k v) (k + 1)

/-- A cleared range reads as unlisted; the rest stays. -/
theorem mapGet_mapClear (d : Nat → α) (m : Sparse α) (lo n k : Nat) :
    mapGet d (mapClear m lo n) k = if lo ≤ k ∧ k < lo + n then d k else mapGet d m k := by
  have := mapGet_filter d m (fun j => !(decide (lo ≤ j) && decide (j < lo + n))) k
  rw [mapClear, this]
  by_cases h : lo ≤ k ∧ k < lo + n
  · simp [h]
  · rw [if_neg h]
    have : (!(decide (lo ≤ k) && decide (k < lo + n))) = true := by
      simp only [Bool.not_eq_true', Bool.and_eq_false_iff, decide_eq_false_iff_not]
      omega
    simp [this]

/-- Dropped keys read as unlisted; the rest stays. -/
theorem mapGet_mapDrop (d : Nat → α) (m : Sparse α) (p : Nat → Bool) (k : Nat) :
    mapGet d (mapDrop m p) k = if p k then d k else mapGet d m k := by
  have := mapGet_filter d m (fun j => !p j) k
  rw [mapDrop, this]
  by_cases h : p k = true
  · simp [h]
  · have : p k = false := by simpa using h
    simp [this]

/-- Writing consecutive keys leaves every key outside them. -/
theorem mapGet_mapSetAll_other [DecidableEq α] (d : Nat → α) (m : Sparse α) (k : Nat) (vs : List α) {j : Nat}
    (h : j < k ∨ k + vs.length ≤ j) : mapGet d (mapSetAll d m k vs) j = mapGet d m j := by
  induction vs generalizing m k with
  | nil => rfl
  | cons v vs ih =>
    simp only [List.length_cons] at h
    rw [mapSetAll, ih _ _ (by omega), mapGet_mapSet_other _ _ _ (by omega)]

end Sys2Proof.Laws
end

