-- ==== Sys2Proof/Laws/State.lean ====
section
/-!
SUPPORT. What each update of the state does to each field of it, so that no proof unfolds an update; and what a read gives
after a write.
-/

namespace Sys2Proof.Laws

open Sys2Proof Sys2Proof.Machine

variable (s : Box)

/-! ### `Box.setWord` -/

@[simp] theorem setWord_phase (a : Nat) (w : Word) : (s.setWord a w).phase = s.phase := rfl
@[simp] theorem setWord_raw (a : Nat) (w : Word) : (s.setWord a w).raw = s.raw := rfl
@[simp] theorem setWord_freeCtr (a : Nat) (w : Word) : (s.setWord a w).freeCtr = s.freeCtr := rfl
@[simp] theorem setWord_outbox (a : Nat) (w : Word) : (s.setWord a w).outbox = s.outbox := rfl
@[simp] theorem setWord_regs (a : Nat) (w : Word) : (s.setWord a w).regs = mapSet resetWord s.regs a w := rfl
@[simp] theorem setWord_tabs (a : Nat) (w : Word) : (s.setWord a w).tabs = s.tabs := rfl
@[simp] theorem setWord_ctrs (a : Nat) (w : Word) : (s.setWord a w).ctrs = s.ctrs := rfl
@[simp] theorem setWord_shadows (a : Nat) (w : Word) : (s.setWord a w).shadows = s.shadows := rfl
@[simp] theorem setWord_copying (a : Nat) (w : Word) : (s.setWord a w).copying = s.copying := rfl
@[simp] theorem setWord_copyTick (a : Nat) (w : Word) : (s.setWord a w).copyTick = s.copyTick := rfl
@[simp] theorem setWord_preClear (a : Nat) (w : Word) : (s.setWord a w).preClear = s.preClear := rfl
@[simp] theorem setWord_clearAt (a : Nat) (w : Word) : (s.setWord a w).clearAt = s.clearAt := rfl
@[simp] theorem setWord_snapWait (a : Nat) (w : Word) : (s.setWord a w).snapWait = s.snapWait := rfl
@[simp] theorem setWord_snapHad (a : Nat) (w : Word) : (s.setWord a w).snapHad = s.snapHad := rfl
@[simp] theorem setWord_hiLatch (a : Nat) (w : Word) : (s.setWord a w).hiLatch = s.hiLatch := rfl
@[simp] theorem setWord_fa (a : Nat) (w : Word) : (s.setWord a w).fa = s.fa := rfl
@[simp] theorem setWord_na (a : Nat) (w : Word) : (s.setWord a w).na = s.na := rfl
@[simp] theorem setWord_rate (a : Nat) (w : Word) : (s.setWord a w).rate = s.rate := rfl
@[simp] theorem setWord_repl (a : Nat) (w : Word) : (s.setWord a w).repl = s.repl := rfl
@[simp] theorem setWord_ports (a : Nat) (w : Word) : (s.setWord a w).ports = s.ports := rfl
@[simp] theorem setWord_tents (a : Nat) (w : Word) : (s.setWord a w).tents = s.tents := rfl
@[simp] theorem setWord_descs (a : Nat) (w : Word) : (s.setWord a w).descs = s.descs := rfl
@[simp] theorem setWord_descId (a : Nat) (w : Word) : (s.setWord a w).descId = s.descId := rfl
@[simp] theorem setWord_admits (a : Nat) (w : Word) : (s.setWord a w).admits = s.admits := rfl
@[simp] theorem setWord_spills (a : Nat) (w : Word) : (s.setWord a w).spills = s.spills := rfl
@[simp] theorem setWord_staging (a : Nat) (w : Word) : (s.setWord a w).staging = s.staging := rfl
@[simp] theorem setWord_results (a : Nat) (w : Word) : (s.setWord a w).results = s.results := rfl
@[simp] theorem setWord_fwdOp (a : Nat) (w : Word) : (s.setWord a w).fwdOp = s.fwdOp := rfl
@[simp] theorem setWord_fwdSw (a : Nat) (w : Word) : (s.setWord a w).fwdSw = s.fwdSw := rfl
@[simp] theorem setWord_notices (a : Nat) (w : Word) : (s.setWord a w).notices = s.notices := rfl
@[simp] theorem setWord_mdw (a : Nat) (w : Word) : (s.setWord a w).mdw = s.mdw := rfl
@[simp] theorem setWord_cals (a : Nat) (w : Word) : (s.setWord a w).cals = s.cals := rfl
@[simp] theorem setWord_buckets (a : Nat) (w : Word) : (s.setWord a w).buckets = s.buckets := rfl
@[simp] theorem setWord_backlog (a : Nat) (w : Word) : (s.setWord a w).backlog = s.backlog := rfl
@[simp] theorem setWord_mem (a : Nat) (w : Word) : (s.setWord a w).mem = s.mem := rfl
@[simp] theorem setWord_samplers (a : Nat) (w : Word) : (s.setWord a w).samplers = s.samplers := rfl
@[simp] theorem setWord_smpq (a : Nat) (w : Word) : (s.setWord a w).smpq = s.smpq := rfl
@[simp] theorem setWord_inbox (a : Nat) (w : Word) : (s.setWord a w).inbox = s.inbox := rfl
@[simp] theorem setWord_qlens (a : Nat) (w : Word) : (s.setWord a w).qlens = s.qlens := rfl
@[simp] theorem setWord_collector (a : Nat) (w : Word) : (s.setWord a w).collector = s.collector := rfl
@[simp] theorem setWord_vc6Q (a : Nat) (w : Word) : (s.setWord a w).vc6Q = s.vc6Q := rfl
@[simp] theorem setWord_bmtSecond (a : Nat) (w : Word) : (s.setWord a w).bmtSecond = s.bmtSecond := rfl
@[simp] theorem setWord_portErrs (a : Nat) (w : Word) : (s.setWord a w).portErrs = s.portErrs := rfl
@[simp] theorem setWord_slivers (a : Nat) (w : Word) : (s.setWord a w).slivers = s.slivers := rfl
@[simp] theorem setWord_streams (a : Nat) (w : Word) : (s.setWord a w).streams = s.streams := rfl
@[simp] theorem setWord_carOp (a : Nat) (w : Word) : (s.setWord a w).carOp = s.carOp := rfl
@[simp] theorem setWord_bOpened (a : Nat) (w : Word) : (s.setWord a w).bOpened = s.bOpened := rfl
@[simp] theorem setWord_resId (a : Nat) (w : Word) : (s.setWord a w).resId = s.resId := rfl
@[simp] theorem setWord_replay (a : Nat) (w : Word) : (s.setWord a w).replay = s.replay := rfl
@[simp] theorem setWord_kernels (a : Nat) (w : Word) : (s.setWord a w).kernels = s.kernels := rfl
@[simp] theorem setWord_kpieces (a : Nat) (w : Word) : (s.setWord a w).kpieces = s.kpieces := rfl
@[simp] theorem setWord_kop (a : Nat) (w : Word) : (s.setWord a w).kop = s.kop := rfl
@[simp] theorem setWord_substs (a : Nat) (w : Word) : (s.setWord a w).substs = s.substs := rfl
@[simp] theorem setWord_sealJobs (a : Nat) (w : Word) : (s.setWord a w).sealJobs = s.sealJobs := rfl
@[simp] theorem setWord_sealQ (a : Nat) (w : Word) : (s.setWord a w).sealQ = s.sealQ := rfl
@[simp] theorem setWord_sealLast (a : Nat) (w : Word) : (s.setWord a w).sealLast = s.sealLast := rfl
@[simp] theorem setWord_sealSigned (a : Nat) (w : Word) : (s.setWord a w).sealSigned = s.sealSigned := rfl
@[simp] theorem setWord_aliasKey (a : Nat) (w : Word) : (s.setWord a w).aliasKey = s.aliasKey := rfl
@[simp] theorem setWord_aliasCert (a : Nat) (w : Word) : (s.setWord a w).aliasCert = s.aliasCert := rfl
@[simp] theorem setWord_deviceKey (a : Nat) (w : Word) : (s.setWord a w).deviceKey = s.deviceKey := rfl
@[simp] theorem setWord_udsLocked (a : Nat) (w : Word) : (s.setWord a w).udsLocked = s.udsLocked := rfl
@[simp] theorem setWord_events (a : Nat) (w : Word) : (s.setWord a w).events = s.events := rfl
@[simp] theorem setWord_spareQuar (a : Nat) (w : Word) : (s.setWord a w).spareQuar = s.spareQuar := rfl
@[simp] theorem setWord_occs (a : Nat) (w : Word) : (s.setWord a w).occs = s.occs := rfl
@[simp] theorem setWord_hot (a : Nat) (w : Word) : (s.setWord a w).hot = s.hot := rfl
@[simp] theorem setWord_hotQ (a : Nat) (w : Word) : (s.setWord a w).hotQ = s.hotQ := rfl
@[simp] theorem setWord_hintAt (a : Nat) (w : Word) : (s.setWord a w).hintAt = s.hintAt := rfl
@[simp] theorem setWord_rings (a : Nat) (w : Word) : (s.setWord a w).rings = s.rings := rfl
@[simp] theorem setWord_lasers (a : Nat) (w : Word) : (s.setWord a w).lasers = s.lasers := rfl
@[simp] theorem setWord_lgroups (a : Nat) (w : Word) : (s.setWord a w).lgroups = s.lgroups := rfl
@[simp] theorem setWord_engines (a : Nat) (w : Word) : (s.setWord a w).engines = s.engines := rfl
@[simp] theorem setWord_aprs (a : Nat) (w : Word) : (s.setWord a w).aprs = s.aprs := rfl
@[simp] theorem setWord_plans (a : Nat) (w : Word) : (s.setWord a w).plans = s.plans := rfl
@[simp] theorem setWord_trained (a : Nat) (w : Word) : (s.setWord a w).trained = s.trained := rfl
@[simp] theorem setWord_initing (a : Nat) (w : Word) : (s.setWord a w).initing = s.initing := rfl
@[simp] theorem setWord_spares (a : Nat) (w : Word) : (s.setWord a w).spares = s.spares := rfl
@[simp] theorem setWord_memKept (a : Nat) (w : Word) : (s.setWord a w).memKept = s.memKept := rfl
@[simp] theorem setWord_hostReads (a : Nat) (w : Word) : (s.setWord a w).hostReads = s.hostReads := rfl
@[simp] theorem setWord_badBlocks (a : Nat) (w : Word) : (s.setWord a w).badBlocks = s.badBlocks := rfl
@[simp] theorem setWord_kernBad (a : Nat) (w : Word) : (s.setWord a w).kernBad = s.kernBad := rfl
@[simp] theorem setWord_deadDevs (a : Nat) (w : Word) : (s.setWord a w).deadDevs = s.deadDevs := rfl
@[simp] theorem setWord_applies (a : Nat) (w : Word) : (s.setWord a w).applies = s.applies := rfl
@[simp] theorem setWord_servo (a : Nat) (w : Word) : (s.setWord a w).servo = s.servo := rfl
@[simp] theorem setWord_ptps (a : Nat) (w : Word) : (s.setWord a w).ptps = s.ptps := rfl
@[simp] theorem setWord_pins (a : Nat) (w : Word) : (s.setWord a w).pins = s.pins := rfl
@[simp] theorem setWord_launches (a : Nat) (w : Word) : (s.setWord a w).launches = s.launches := rfl
@[simp] theorem setWord_fuses (a : Nat) (w : Word) : (s.setWord a w).fuses = s.fuses := rfl
@[simp] theorem setWord_fuseOp (a : Nat) (w : Word) : (s.setWord a w).fuseOp = s.fuseOp := rfl
@[simp] theorem setWord_fuseRail (a : Nat) (w : Word) : (s.setWord a w).fuseRail = s.fuseRail := rfl
@[simp] theorem setWord_flash (a : Nat) (w : Word) : (s.setWord a w).flash = s.flash := rfl
@[simp] theorem setWord_image (a : Nat) (w : Word) : (s.setWord a w).image = s.image := rfl
@[simp] theorem setWord_update (a : Nat) (w : Word) : (s.setWord a w).update = s.update := rfl
@[simp] theorem setWord_resetReq (a : Nat) (w : Word) : (s.setWord a w).resetReq = s.resetReq := rfl
@[simp] theorem setWord_pwrOk (a : Nat) (w : Word) : (s.setWord a w).pwrOk = s.pwrOk := rfl
@[simp] theorem setWord_railsBad (a : Nat) (w : Word) : (s.setWord a w).railsBad = s.railsBad := rfl
@[simp] theorem setWord_refLost (a : Nat) (w : Word) : (s.setWord a w).refLost = s.refLost := rfl
@[simp] theorem setWord_straps (a : Nat) (w : Word) : (s.setWord a w).straps = s.straps := rfl
@[simp] theorem setWord_memTemps (a : Nat) (w : Word) : (s.setWord a w).memTemps = s.memTemps := rfl
@[simp] theorem setWord_tap (a : Nat) (w : Word) : (s.setWord a w).tap = s.tap := rfl
@[simp] theorem setWord_alarm (a : Nat) (w : Word) : (s.setWord a w).alarm = s.alarm := rfl
@[simp] theorem setWord_trip (a : Nat) (w : Word) : (s.setWord a w).trip = s.trip := rfl
@[simp] theorem setWord_calShed (a : Nat) (w : Word) : (s.setWord a w).calShed = s.calShed := rfl
@[simp] theorem setWord_cores (a : Nat) (w : Word) : (s.setWord a w).cores = s.cores := rfl
@[simp] theorem setWord_dump (a : Nat) (w : Word) : (s.setWord a w).dump = s.dump := rfl
@[simp] theorem setWord_sealHash (a : Nat) (w : Word) : (s.setWord a w).sealHash = s.sealHash := rfl
@[simp] theorem setWord_wall (a : Nat) (w : Word) : (s.setWord a w).wall = s.wall := rfl
@[simp] theorem setWord_cxlLog (a : Nat) (w : Word) : (s.setWord a w).cxlLog = s.cxlLog := rfl
@[simp] theorem setWord_doeError (a : Nat) (w : Word) : (s.setWord a w).doeError = s.doeError := rfl
@[simp] theorem setWord_doeBusy (a : Nat) (w : Word) : (s.setWord a w).doeBusy = s.doeBusy := rfl
@[simp] theorem setWord_cfg (a : Nat) (w : Word) : (s.setWord a w).cfg = s.cfg := rfl
@[simp] theorem setWord_cxlRegs (a : Nat) (w : Word) : (s.setWord a w).cxlRegs = s.cxlRegs := rfl
@[simp] theorem setWord_ip (a : Nat) (w : Word) : (s.setWord a w).ip = s.ip := rfl
@[simp] theorem setWord_ethSecond (a : Nat) (w : Word) : (s.setWord a w).ethSecond = s.ethSecond := rfl
@[simp] theorem setWord_i3cAddr (a : Nat) (w : Word) : (s.setWord a w).i3cAddr = s.i3cAddr := rfl
@[simp] theorem setWord_eid (a : Nat) (w : Word) : (s.setWord a w).eid = s.eid := rfl
@[simp] theorem setWord_spdmDoe (a : Nat) (w : Word) : (s.setWord a w).spdmDoe = s.spdmDoe := rfl
@[simp] theorem setWord_spdmMctp (a : Nat) (w : Word) : (s.setWord a w).spdmMctp = s.spdmMctp := rfl
@[simp] theorem setWord_spdmSigs (a : Nat) (w : Word) : (s.setWord a w).spdmSigs = s.spdmSigs := rfl
@[simp] theorem setWord_bar2 (a : Nat) (w : Word) : (s.setWord a w).bar2 = s.bar2 := rfl
@[simp] theorem setWord_read_tab (a : Nat) (w : Word) (b : Nat) : (s.setWord a w).tab b = s.tab b := rfl
@[simp] theorem setWord_read_strm (a : Nat) (w : Word) (b : Nat) : (s.setWord a w).strm b = s.strm b := rfl
@[simp] theorem setWord_read_grp (a : Nat) (w : Word) (b : Nat) : (s.setWord a w).grp b = s.grp b := rfl
@[simp] theorem setWord_read_ctr (a : Nat) (w : Word) (b i : Nat) : (s.setWord a w).ctr b i = s.ctr b i := rfl
@[simp] theorem setWord_read_port (a : Nat) (w : Word) (b : Nat) : (s.setWord a w).port b = s.port b := rfl
@[simp] theorem setWord_read_tent (a : Nat) (w : Word) (b : Nat) : (s.setWord a w).tent b = s.tent b := rfl
@[simp] theorem setWord_read_cal (a : Nat) (w : Word) (b : Nat) : (s.setWord a w).cal b = s.cal b := rfl
@[simp] theorem setWord_read_staged (a : Nat) (w : Word) (b : Nat) : (s.setWord a w).staged b = s.staged b := rfl
@[simp] theorem setWord_read_sx (a : Nat) (w : Word) (b : Nat) : (s.setWord a w).sx b = s.sx b := rfl
@[simp] theorem setWord_read_sliver (a : Nat) (w : Word) (b : Nat) : (s.setWord a w).sliver b = s.sliver b := rfl
@[simp] theorem setWord_read_queued (a : Nat) (w : Word) (g : RecQueue) : (s.setWord a w).queued g = s.queued g := rfl

/-! ### `Box.wr` -/

@[simp] theorem wr_phase (f : Fld) (v : Nat) : (s.wr f v).phase = s.phase := rfl
@[simp] theorem wr_raw (f : Fld) (v : Nat) : (s.wr f v).raw = s.raw := rfl
@[simp] theorem wr_freeCtr (f : Fld) (v : Nat) : (s.wr f v).freeCtr = s.freeCtr := rfl
@[simp] theorem wr_outbox (f : Fld) (v : Nat) : (s.wr f v).outbox = s.outbox := rfl
@[simp] theorem wr_regs (f : Fld) (v : Nat) : (s.wr f v).regs = mapSet resetWord s.regs f.addr (wordWith (s.word f.addr) f.lo f.width v) := rfl
@[simp] theorem wr_tabs (f : Fld) (v : Nat) : (s.wr f v).tabs = s.tabs := rfl
@[simp] theorem wr_ctrs (f : Fld) (v : Nat) : (s.wr f v).ctrs = s.ctrs := rfl
@[simp] theorem wr_shadows (f : Fld) (v : Nat) : (s.wr f v).shadows = s.shadows := rfl
@[simp] theorem wr_copying (f : Fld) (v : Nat) : (s.wr f v).copying = s.copying := rfl
@[simp] theorem wr_copyTick (f : Fld) (v : Nat) : (s.wr f v).copyTick = s.copyTick := rfl
@[simp] theorem wr_preClear (f : Fld) (v : Nat) : (s.wr f v).preClear = s.preClear := rfl
@[simp] theorem wr_clearAt (f : Fld) (v : Nat) : (s.wr f v).clearAt = s.clearAt := rfl
@[simp] theorem wr_snapWait (f : Fld) (v : Nat) : (s.wr f v).snapWait = s.snapWait := rfl
@[simp] theorem wr_snapHad (f : Fld) (v : Nat) : (s.wr f v).snapHad = s.snapHad := rfl
@[simp] theorem wr_hiLatch (f : Fld) (v : Nat) : (s.wr f v).hiLatch = s.hiLatch := rfl
@[simp] theorem wr_fa (f : Fld) (v : Nat) : (s.wr f v).fa = s.fa := rfl
@[simp] theorem wr_na (f : Fld) (v : Nat) : (s.wr f v).na = s.na := rfl
@[simp] theorem wr_rate (f : Fld) (v : Nat) : (s.wr f v).rate = s.rate := rfl
@[simp] theorem wr_repl (f : Fld) (v : Nat) : (s.wr f v).repl = s.repl := rfl
@[simp] theorem wr_ports (f : Fld) (v : Nat) : (s.wr f v).ports = s.ports := rfl
@[simp] theorem wr_tents (f : Fld) (v : Nat) : (s.wr f v).tents = s.tents := rfl
@[simp] theorem wr_descs (f : Fld) (v : Nat) : (s.wr f v).descs = s.descs := rfl
@[simp] theorem wr_descId (f : Fld) (v : Nat) : (s.wr f v).descId = s.descId := rfl
@[simp] theorem wr_admits (f : Fld) (v : Nat) : (s.wr f v).admits = s.admits := rfl
@[simp] theorem wr_spills (f : Fld) (v : Nat) : (s.wr f v).spills = s.spills := rfl
@[simp] theorem wr_staging (f : Fld) (v : Nat) : (s.wr f v).staging = s.staging := rfl
@[simp] theorem wr_results (f : Fld) (v : Nat) : (s.wr f v).results = s.results := rfl
@[simp] theorem wr_fwdOp (f : Fld) (v : Nat) : (s.wr f v).fwdOp = s.fwdOp := rfl
@[simp] theorem wr_fwdSw (f : Fld) (v : Nat) : (s.wr f v).fwdSw = s.fwdSw := rfl
@[simp] theorem wr_notices (f : Fld) (v : Nat) : (s.wr f v).notices = s.notices := rfl
@[simp] theorem wr_mdw (f : Fld) (v : Nat) : (s.wr f v).mdw = s.mdw := rfl
@[simp] theorem wr_cals (f : Fld) (v : Nat) : (s.wr f v).cals = s.cals := rfl
@[simp] theorem wr_buckets (f : Fld) (v : Nat) : (s.wr f v).buckets = s.buckets := rfl
@[simp] theorem wr_backlog (f : Fld) (v : Nat) : (s.wr f v).backlog = s.backlog := rfl
@[simp] theorem wr_mem (f : Fld) (v : Nat) : (s.wr f v).mem = s.mem := rfl
@[simp] theorem wr_samplers (f : Fld) (v : Nat) : (s.wr f v).samplers = s.samplers := rfl
@[simp] theorem wr_smpq (f : Fld) (v : Nat) : (s.wr f v).smpq = s.smpq := rfl
@[simp] theorem wr_inbox (f : Fld) (v : Nat) : (s.wr f v).inbox = s.inbox := rfl
@[simp] theorem wr_qlens (f : Fld) (v : Nat) : (s.wr f v).qlens = s.qlens := rfl
@[simp] theorem wr_collector (f : Fld) (v : Nat) : (s.wr f v).collector = s.collector := rfl
@[simp] theorem wr_vc6Q (f : Fld) (v : Nat) : (s.wr f v).vc6Q = s.vc6Q := rfl
@[simp] theorem wr_bmtSecond (f : Fld) (v : Nat) : (s.wr f v).bmtSecond = s.bmtSecond := rfl
@[simp] theorem wr_portErrs (f : Fld) (v : Nat) : (s.wr f v).portErrs = s.portErrs := rfl
@[simp] theorem wr_slivers (f : Fld) (v : Nat) : (s.wr f v).slivers = s.slivers := rfl
@[simp] theorem wr_streams (f : Fld) (v : Nat) : (s.wr f v).streams = s.streams := rfl
@[simp] theorem wr_carOp (f : Fld) (v : Nat) : (s.wr f v).carOp = s.carOp := rfl
@[simp] theorem wr_bOpened (f : Fld) (v : Nat) : (s.wr f v).bOpened = s.bOpened := rfl
@[simp] theorem wr_resId (f : Fld) (v : Nat) : (s.wr f v).resId = s.resId := rfl
@[simp] theorem wr_replay (f : Fld) (v : Nat) : (s.wr f v).replay = s.replay := rfl
@[simp] theorem wr_kernels (f : Fld) (v : Nat) : (s.wr f v).kernels = s.kernels := rfl
@[simp] theorem wr_kpieces (f : Fld) (v : Nat) : (s.wr f v).kpieces = s.kpieces := rfl
@[simp] theorem wr_kop (f : Fld) (v : Nat) : (s.wr f v).kop = s.kop := rfl
@[simp] theorem wr_substs (f : Fld) (v : Nat) : (s.wr f v).substs = s.substs := rfl
@[simp] theorem wr_sealJobs (f : Fld) (v : Nat) : (s.wr f v).sealJobs = s.sealJobs := rfl
@[simp] theorem wr_sealQ (f : Fld) (v : Nat) : (s.wr f v).sealQ = s.sealQ := rfl
@[simp] theorem wr_sealLast (f : Fld) (v : Nat) : (s.wr f v).sealLast = s.sealLast := rfl
@[simp] theorem wr_sealSigned (f : Fld) (v : Nat) : (s.wr f v).sealSigned = s.sealSigned := rfl
@[simp] theorem wr_aliasKey (f : Fld) (v : Nat) : (s.wr f v).aliasKey = s.aliasKey := rfl
@[simp] theorem wr_aliasCert (f : Fld) (v : Nat) : (s.wr f v).aliasCert = s.aliasCert := rfl
@[simp] theorem wr_deviceKey (f : Fld) (v : Nat) : (s.wr f v).deviceKey = s.deviceKey := rfl
@[simp] theorem wr_udsLocked (f : Fld) (v : Nat) : (s.wr f v).udsLocked = s.udsLocked := rfl
@[simp] theorem wr_events (f : Fld) (v : Nat) : (s.wr f v).events = s.events := rfl
@[simp] theorem wr_spareQuar (f : Fld) (v : Nat) : (s.wr f v).spareQuar = s.spareQuar := rfl
@[simp] theorem wr_occs (f : Fld) (v : Nat) : (s.wr f v).occs = s.occs := rfl
@[simp] theorem wr_hot (f : Fld) (v : Nat) : (s.wr f v).hot = s.hot := rfl
@[simp] theorem wr_hotQ (f : Fld) (v : Nat) : (s.wr f v).hotQ = s.hotQ := rfl
@[simp] theorem wr_hintAt (f : Fld) (v : Nat) : (s.wr f v).hintAt = s.hintAt := rfl
@[simp] theorem wr_rings (f : Fld) (v : Nat) : (s.wr f v).rings = s.rings := rfl
@[simp] theorem wr_lasers (f : Fld) (v : Nat) : (s.wr f v).lasers = s.lasers := rfl
@[simp] theorem wr_lgroups (f : Fld) (v : Nat) : (s.wr f v).lgroups = s.lgroups := rfl
@[simp] theorem wr_engines (f : Fld) (v : Nat) : (s.wr f v).engines = s.engines := rfl
@[simp] theorem wr_aprs (f : Fld) (v : Nat) : (s.wr f v).aprs = s.aprs := rfl
@[simp] theorem wr_plans (f : Fld) (v : Nat) : (s.wr f v).plans = s.plans := rfl
@[simp] theorem wr_trained (f : Fld) (v : Nat) : (s.wr f v).trained = s.trained := rfl
@[simp] theorem wr_initing (f : Fld) (v : Nat) : (s.wr f v).initing = s.initing := rfl
@[simp] theorem wr_spares (f : Fld) (v : Nat) : (s.wr f v).spares = s.spares := rfl
@[simp] theorem wr_memKept (f : Fld) (v : Nat) : (s.wr f v).memKept = s.memKept := rfl
@[simp] theorem wr_hostReads (f : Fld) (v : Nat) : (s.wr f v).hostReads = s.hostReads := rfl
@[simp] theorem wr_badBlocks (f : Fld) (v : Nat) : (s.wr f v).badBlocks = s.badBlocks := rfl
@[simp] theorem wr_kernBad (f : Fld) (v : Nat) : (s.wr f v).kernBad = s.kernBad := rfl
@[simp] theorem wr_deadDevs (f : Fld) (v : Nat) : (s.wr f v).deadDevs = s.deadDevs := rfl
@[simp] theorem wr_applies (f : Fld) (v : Nat) : (s.wr f v).applies = s.applies := rfl
@[simp] theorem wr_servo (f : Fld) (v : Nat) : (s.wr f v).servo = s.servo := rfl
@[simp] theorem wr_ptps (f : Fld) (v : Nat) : (s.wr f v).ptps = s.ptps := rfl
@[simp] theorem wr_pins (f : Fld) (v : Nat) : (s.wr f v).pins = s.pins := rfl
@[simp] theorem wr_launches (f : Fld) (v : Nat) : (s.wr f v).launches = s.launches := rfl
@[simp] theorem wr_fuses (f : Fld) (v : Nat) : (s.wr f v).fuses = s.fuses := rfl
@[simp] theorem wr_fuseOp (f : Fld) (v : Nat) : (s.wr f v).fuseOp = s.fuseOp := rfl
@[simp] theorem wr_fuseRail (f : Fld) (v : Nat) : (s.wr f v).fuseRail = s.fuseRail := rfl
@[simp] theorem wr_flash (f : Fld) (v : Nat) : (s.wr f v).flash = s.flash := rfl
@[simp] theorem wr_image (f : Fld) (v : Nat) : (s.wr f v).image = s.image := rfl
@[simp] theorem wr_update (f : Fld) (v : Nat) : (s.wr f v).update = s.update := rfl
@[simp] theorem wr_resetReq (f : Fld) (v : Nat) : (s.wr f v).resetReq = s.resetReq := rfl
@[simp] theorem wr_pwrOk (f : Fld) (v : Nat) : (s.wr f v).pwrOk = s.pwrOk := rfl
@[simp] theorem wr_railsBad (f : Fld) (v : Nat) : (s.wr f v).railsBad = s.railsBad := rfl
@[simp] theorem wr_refLost (f : Fld) (v : Nat) : (s.wr f v).refLost = s.refLost := rfl
@[simp] theorem wr_straps (f : Fld) (v : Nat) : (s.wr f v).straps = s.straps := rfl
@[simp] theorem wr_memTemps (f : Fld) (v : Nat) : (s.wr f v).memTemps = s.memTemps := rfl
@[simp] theorem wr_tap (f : Fld) (v : Nat) : (s.wr f v).tap = s.tap := rfl
@[simp] theorem wr_alarm (f : Fld) (v : Nat) : (s.wr f v).alarm = s.alarm := rfl
@[simp] theorem wr_trip (f : Fld) (v : Nat) : (s.wr f v).trip = s.trip := rfl
@[simp] theorem wr_calShed (f : Fld) (v : Nat) : (s.wr f v).calShed = s.calShed := rfl
@[simp] theorem wr_cores (f : Fld) (v : Nat) : (s.wr f v).cores = s.cores := rfl
@[simp] theorem wr_dump (f : Fld) (v : Nat) : (s.wr f v).dump = s.dump := rfl
@[simp] theorem wr_sealHash (f : Fld) (v : Nat) : (s.wr f v).sealHash = s.sealHash := rfl
@[simp] theorem wr_wall (f : Fld) (v : Nat) : (s.wr f v).wall = s.wall := rfl
@[simp] theorem wr_cxlLog (f : Fld) (v : Nat) : (s.wr f v).cxlLog = s.cxlLog := rfl
@[simp] theorem wr_doeError (f : Fld) (v : Nat) : (s.wr f v).doeError = s.doeError := rfl
@[simp] theorem wr_doeBusy (f : Fld) (v : Nat) : (s.wr f v).doeBusy = s.doeBusy := rfl
@[simp] theorem wr_cfg (f : Fld) (v : Nat) : (s.wr f v).cfg = s.cfg := rfl
@[simp] theorem wr_cxlRegs (f : Fld) (v : Nat) : (s.wr f v).cxlRegs = s.cxlRegs := rfl
@[simp] theorem wr_ip (f : Fld) (v : Nat) : (s.wr f v).ip = s.ip := rfl
@[simp] theorem wr_ethSecond (f : Fld) (v : Nat) : (s.wr f v).ethSecond = s.ethSecond := rfl
@[simp] theorem wr_i3cAddr (f : Fld) (v : Nat) : (s.wr f v).i3cAddr = s.i3cAddr := rfl
@[simp] theorem wr_eid (f : Fld) (v : Nat) : (s.wr f v).eid = s.eid := rfl
@[simp] theorem wr_spdmDoe (f : Fld) (v : Nat) : (s.wr f v).spdmDoe = s.spdmDoe := rfl
@[simp] theorem wr_spdmMctp (f : Fld) (v : Nat) : (s.wr f v).spdmMctp = s.spdmMctp := rfl
@[simp] theorem wr_spdmSigs (f : Fld) (v : Nat) : (s.wr f v).spdmSigs = s.spdmSigs := rfl
@[simp] theorem wr_bar2 (f : Fld) (v : Nat) : (s.wr f v).bar2 = s.bar2 := rfl
@[simp] theorem wr_read_tab (f : Fld) (v : Nat) (b : Nat) : (s.wr f v).tab b = s.tab b := rfl
@[simp] theorem wr_read_strm (f : Fld) (v : Nat) (b : Nat) : (s.wr f v).strm b = s.strm b := rfl
@[simp] theorem wr_read_grp (f : Fld) (v : Nat) (b : Nat) : (s.wr f v).grp b = s.grp b := rfl
@[simp] theorem wr_read_ctr (f : Fld) (v : Nat) (b i : Nat) : (s.wr f v).ctr b i = s.ctr b i := rfl
@[simp] theorem wr_read_port (f : Fld) (v : Nat) (b : Nat) : (s.wr f v).port b = s.port b := rfl
@[simp] theorem wr_read_tent (f : Fld) (v : Nat) (b : Nat) : (s.wr f v).tent b = s.tent b := rfl
@[simp] theorem wr_read_cal (f : Fld) (v : Nat) (b : Nat) : (s.wr f v).cal b = s.cal b := rfl
@[simp] theorem wr_read_staged (f : Fld) (v : Nat) (b : Nat) : (s.wr f v).staged b = s.staged b := rfl
@[simp] theorem wr_read_sx (f : Fld) (v : Nat) (b : Nat) : (s.wr f v).sx b = s.sx b := rfl
@[simp] theorem wr_read_sliver (f : Fld) (v : Nat) (b : Nat) : (s.wr f v).sliver b = s.sliver b := rfl
@[simp] theorem wr_read_queued (f : Fld) (v : Nat) (g : RecQueue) : (s.wr f v).queued g = s.queued g := rfl

/-! ### `Box.put` -/

@[simp] theorem put_phase (f : Fld) (v : Bool) : (s.put f v).phase = s.phase := rfl
@[simp] theorem put_raw (f : Fld) (v : Bool) : (s.put f v).raw = s.raw := rfl
@[simp] theorem put_freeCtr (f : Fld) (v : Bool) : (s.put f v).freeCtr = s.freeCtr := rfl
@[simp] theorem put_outbox (f : Fld) (v : Bool) : (s.put f v).outbox = s.outbox := rfl
@[simp] theorem put_regs (f : Fld) (v : Bool) : (s.put f v).regs = mapSet resetWord s.regs f.addr (wordWith (s.word f.addr) f.lo f.width (b2n v)) := rfl
@[simp] theorem put_tabs (f : Fld) (v : Bool) : (s.put f v).tabs = s.tabs := rfl
@[simp] theorem put_ctrs (f : Fld) (v : Bool) : (s.put f v).ctrs = s.ctrs := rfl
@[simp] theorem put_shadows (f : Fld) (v : Bool) : (s.put f v).shadows = s.shadows := rfl
@[simp] theorem put_copying (f : Fld) (v : Bool) : (s.put f v).copying = s.copying := rfl
@[simp] theorem put_copyTick (f : Fld) (v : Bool) : (s.put f v).copyTick = s.copyTick := rfl
@[simp] theorem put_preClear (f : Fld) (v : Bool) : (s.put f v).preClear = s.preClear := rfl
@[simp] theorem put_clearAt (f : Fld) (v : Bool) : (s.put f v).clearAt = s.clearAt := rfl
@[simp] theorem put_snapWait (f : Fld) (v : Bool) : (s.put f v).snapWait = s.snapWait := rfl
@[simp] theorem put_snapHad (f : Fld) (v : Bool) : (s.put f v).snapHad = s.snapHad := rfl
@[simp] theorem put_hiLatch (f : Fld) (v : Bool) : (s.put f v).hiLatch = s.hiLatch := rfl
@[simp] theorem put_fa (f : Fld) (v : Bool) : (s.put f v).fa = s.fa := rfl
@[simp] theorem put_na (f : Fld) (v : Bool) : (s.put f v).na = s.na := rfl
@[simp] theorem put_rate (f : Fld) (v : Bool) : (s.put f v).rate = s.rate := rfl
@[simp] theorem put_repl (f : Fld) (v : Bool) : (s.put f v).repl = s.repl := rfl
@[simp] theorem put_ports (f : Fld) (v : Bool) : (s.put f v).ports = s.ports := rfl
@[simp] theorem put_tents (f : Fld) (v : Bool) : (s.put f v).tents = s.tents := rfl
@[simp] theorem put_descs (f : Fld) (v : Bool) : (s.put f v).descs = s.descs := rfl
@[simp] theorem put_descId (f : Fld) (v : Bool) : (s.put f v).descId = s.descId := rfl
@[simp] theorem put_admits (f : Fld) (v : Bool) : (s.put f v).admits = s.admits := rfl
@[simp] theorem put_spills (f : Fld) (v : Bool) : (s.put f v).spills = s.spills := rfl
@[simp] theorem put_staging (f : Fld) (v : Bool) : (s.put f v).staging = s.staging := rfl
@[simp] theorem put_results (f : Fld) (v : Bool) : (s.put f v).results = s.results := rfl
@[simp] theorem put_fwdOp (f : Fld) (v : Bool) : (s.put f v).fwdOp = s.fwdOp := rfl
@[simp] theorem put_fwdSw (f : Fld) (v : Bool) : (s.put f v).fwdSw = s.fwdSw := rfl
@[simp] theorem put_notices (f : Fld) (v : Bool) : (s.put f v).notices = s.notices := rfl
@[simp] theorem put_mdw (f : Fld) (v : Bool) : (s.put f v).mdw = s.mdw := rfl
@[simp] theorem put_cals (f : Fld) (v : Bool) : (s.put f v).cals = s.cals := rfl
@[simp] theorem put_buckets (f : Fld) (v : Bool) : (s.put f v).buckets = s.buckets := rfl
@[simp] theorem put_backlog (f : Fld) (v : Bool) : (s.put f v).backlog = s.backlog := rfl
@[simp] theorem put_mem (f : Fld) (v : Bool) : (s.put f v).mem = s.mem := rfl
@[simp] theorem put_samplers (f : Fld) (v : Bool) : (s.put f v).samplers = s.samplers := rfl
@[simp] theorem put_smpq (f : Fld) (v : Bool) : (s.put f v).smpq = s.smpq := rfl
@[simp] theorem put_inbox (f : Fld) (v : Bool) : (s.put f v).inbox = s.inbox := rfl
@[simp] theorem put_qlens (f : Fld) (v : Bool) : (s.put f v).qlens = s.qlens := rfl
@[simp] theorem put_collector (f : Fld) (v : Bool) : (s.put f v).collector = s.collector := rfl
@[simp] theorem put_vc6Q (f : Fld) (v : Bool) : (s.put f v).vc6Q = s.vc6Q := rfl
@[simp] theorem put_bmtSecond (f : Fld) (v : Bool) : (s.put f v).bmtSecond = s.bmtSecond := rfl
@[simp] theorem put_portErrs (f : Fld) (v : Bool) : (s.put f v).portErrs = s.portErrs := rfl
@[simp] theorem put_slivers (f : Fld) (v : Bool) : (s.put f v).slivers = s.slivers := rfl
@[simp] theorem put_streams (f : Fld) (v : Bool) : (s.put f v).streams = s.streams := rfl
@[simp] theorem put_carOp (f : Fld) (v : Bool) : (s.put f v).carOp = s.carOp := rfl
@[simp] theorem put_bOpened (f : Fld) (v : Bool) : (s.put f v).bOpened = s.bOpened := rfl
@[simp] theorem put_resId (f : Fld) (v : Bool) : (s.put f v).resId = s.resId := rfl
@[simp] theorem put_replay (f : Fld) (v : Bool) : (s.put f v).replay = s.replay := rfl
@[simp] theorem put_kernels (f : Fld) (v : Bool) : (s.put f v).kernels = s.kernels := rfl
@[simp] theorem put_kpieces (f : Fld) (v : Bool) : (s.put f v).kpieces = s.kpieces := rfl
@[simp] theorem put_kop (f : Fld) (v : Bool) : (s.put f v).kop = s.kop := rfl
@[simp] theorem put_substs (f : Fld) (v : Bool) : (s.put f v).substs = s.substs := rfl
@[simp] theorem put_sealJobs (f : Fld) (v : Bool) : (s.put f v).sealJobs = s.sealJobs := rfl
@[simp] theorem put_sealQ (f : Fld) (v : Bool) : (s.put f v).sealQ = s.sealQ := rfl
@[simp] theorem put_sealLast (f : Fld) (v : Bool) : (s.put f v).sealLast = s.sealLast := rfl
@[simp] theorem put_sealSigned (f : Fld) (v : Bool) : (s.put f v).sealSigned = s.sealSigned := rfl
@[simp] theorem put_aliasKey (f : Fld) (v : Bool) : (s.put f v).aliasKey = s.aliasKey := rfl
@[simp] theorem put_aliasCert (f : Fld) (v : Bool) : (s.put f v).aliasCert = s.aliasCert := rfl
@[simp] theorem put_deviceKey (f : Fld) (v : Bool) : (s.put f v).deviceKey = s.deviceKey := rfl
@[simp] theorem put_udsLocked (f : Fld) (v : Bool) : (s.put f v).udsLocked = s.udsLocked := rfl
@[simp] theorem put_events (f : Fld) (v : Bool) : (s.put f v).events = s.events := rfl
@[simp] theorem put_spareQuar (f : Fld) (v : Bool) : (s.put f v).spareQuar = s.spareQuar := rfl
@[simp] theorem put_occs (f : Fld) (v : Bool) : (s.put f v).occs = s.occs := rfl
@[simp] theorem put_hot (f : Fld) (v : Bool) : (s.put f v).hot = s.hot := rfl
@[simp] theorem put_hotQ (f : Fld) (v : Bool) : (s.put f v).hotQ = s.hotQ := rfl
@[simp] theorem put_hintAt (f : Fld) (v : Bool) : (s.put f v).hintAt = s.hintAt := rfl
@[simp] theorem put_rings (f : Fld) (v : Bool) : (s.put f v).rings = s.rings := rfl
@[simp] theorem put_lasers (f : Fld) (v : Bool) : (s.put f v).lasers = s.lasers := rfl
@[simp] theorem put_lgroups (f : Fld) (v : Bool) : (s.put f v).lgroups = s.lgroups := rfl
@[simp] theorem put_engines (f : Fld) (v : Bool) : (s.put f v).engines = s.engines := rfl
@[simp] theorem put_aprs (f : Fld) (v : Bool) : (s.put f v).aprs = s.aprs := rfl
@[simp] theorem put_plans (f : Fld) (v : Bool) : (s.put f v).plans = s.plans := rfl
@[simp] theorem put_trained (f : Fld) (v : Bool) : (s.put f v).trained = s.trained := rfl
@[simp] theorem put_initing (f : Fld) (v : Bool) : (s.put f v).initing = s.initing := rfl
@[simp] theorem put_spares (f : Fld) (v : Bool) : (s.put f v).spares = s.spares := rfl
@[simp] theorem put_memKept (f : Fld) (v : Bool) : (s.put f v).memKept = s.memKept := rfl
@[simp] theorem put_hostReads (f : Fld) (v : Bool) : (s.put f v).hostReads = s.hostReads := rfl
@[simp] theorem put_badBlocks (f : Fld) (v : Bool) : (s.put f v).badBlocks = s.badBlocks := rfl
@[simp] theorem put_kernBad (f : Fld) (v : Bool) : (s.put f v).kernBad = s.kernBad := rfl
@[simp] theorem put_deadDevs (f : Fld) (v : Bool) : (s.put f v).deadDevs = s.deadDevs := rfl
@[simp] theorem put_applies (f : Fld) (v : Bool) : (s.put f v).applies = s.applies := rfl
@[simp] theorem put_servo (f : Fld) (v : Bool) : (s.put f v).servo = s.servo := rfl
@[simp] theorem put_ptps (f : Fld) (v : Bool) : (s.put f v).ptps = s.ptps := rfl
@[simp] theorem put_pins (f : Fld) (v : Bool) : (s.put f v).pins = s.pins := rfl
@[simp] theorem put_launches (f : Fld) (v : Bool) : (s.put f v).launches = s.launches := rfl
@[simp] theorem put_fuses (f : Fld) (v : Bool) : (s.put f v).fuses = s.fuses := rfl
@[simp] theorem put_fuseOp (f : Fld) (v : Bool) : (s.put f v).fuseOp = s.fuseOp := rfl
@[simp] theorem put_fuseRail (f : Fld) (v : Bool) : (s.put f v).fuseRail = s.fuseRail := rfl
@[simp] theorem put_flash (f : Fld) (v : Bool) : (s.put f v).flash = s.flash := rfl
@[simp] theorem put_image (f : Fld) (v : Bool) : (s.put f v).image = s.image := rfl
@[simp] theorem put_update (f : Fld) (v : Bool) : (s.put f v).update = s.update := rfl
@[simp] theorem put_resetReq (f : Fld) (v : Bool) : (s.put f v).resetReq = s.resetReq := rfl
@[simp] theorem put_pwrOk (f : Fld) (v : Bool) : (s.put f v).pwrOk = s.pwrOk := rfl
@[simp] theorem put_railsBad (f : Fld) (v : Bool) : (s.put f v).railsBad = s.railsBad := rfl
@[simp] theorem put_refLost (f : Fld) (v : Bool) : (s.put f v).refLost = s.refLost := rfl
@[simp] theorem put_straps (f : Fld) (v : Bool) : (s.put f v).straps = s.straps := rfl
@[simp] theorem put_memTemps (f : Fld) (v : Bool) : (s.put f v).memTemps = s.memTemps := rfl
@[simp] theorem put_tap (f : Fld) (v : Bool) : (s.put f v).tap = s.tap := rfl
@[simp] theorem put_alarm (f : Fld) (v : Bool) : (s.put f v).alarm = s.alarm := rfl
@[simp] theorem put_trip (f : Fld) (v : Bool) : (s.put f v).trip = s.trip := rfl
@[simp] theorem put_calShed (f : Fld) (v : Bool) : (s.put f v).calShed = s.calShed := rfl
@[simp] theorem put_cores (f : Fld) (v : Bool) : (s.put f v).cores = s.cores := rfl
@[simp] theorem put_dump (f : Fld) (v : Bool) : (s.put f v).dump = s.dump := rfl
@[simp] theorem put_sealHash (f : Fld) (v : Bool) : (s.put f v).sealHash = s.sealHash := rfl
@[simp] theorem put_wall (f : Fld) (v : Bool) : (s.put f v).wall = s.wall := rfl
@[simp] theorem put_cxlLog (f : Fld) (v : Bool) : (s.put f v).cxlLog = s.cxlLog := rfl
@[simp] theorem put_doeError (f : Fld) (v : Bool) : (s.put f v).doeError = s.doeError := rfl
@[simp] theorem put_doeBusy (f : Fld) (v : Bool) : (s.put f v).doeBusy = s.doeBusy := rfl
@[simp] theorem put_cfg (f : Fld) (v : Bool) : (s.put f v).cfg = s.cfg := rfl
@[simp] theorem put_cxlRegs (f : Fld) (v : Bool) : (s.put f v).cxlRegs = s.cxlRegs := rfl
@[simp] theorem put_ip (f : Fld) (v : Bool) : (s.put f v).ip = s.ip := rfl
@[simp] theorem put_ethSecond (f : Fld) (v : Bool) : (s.put f v).ethSecond = s.ethSecond := rfl
@[simp] theorem put_i3cAddr (f : Fld) (v : Bool) : (s.put f v).i3cAddr = s.i3cAddr := rfl
@[simp] theorem put_eid (f : Fld) (v : Bool) : (s.put f v).eid = s.eid := rfl
@[simp] theorem put_spdmDoe (f : Fld) (v : Bool) : (s.put f v).spdmDoe = s.spdmDoe := rfl
@[simp] theorem put_spdmMctp (f : Fld) (v : Bool) : (s.put f v).spdmMctp = s.spdmMctp := rfl
@[simp] theorem put_spdmSigs (f : Fld) (v : Bool) : (s.put f v).spdmSigs = s.spdmSigs := rfl
@[simp] theorem put_bar2 (f : Fld) (v : Bool) : (s.put f v).bar2 = s.bar2 := rfl
@[simp] theorem put_read_tab (f : Fld) (v : Bool) (b : Nat) : (s.put f v).tab b = s.tab b := rfl
@[simp] theorem put_read_strm (f : Fld) (v : Bool) (b : Nat) : (s.put f v).strm b = s.strm b := rfl
@[simp] theorem put_read_grp (f : Fld) (v : Bool) (b : Nat) : (s.put f v).grp b = s.grp b := rfl
@[simp] theorem put_read_ctr (f : Fld) (v : Bool) (b i : Nat) : (s.put f v).ctr b i = s.ctr b i := rfl
@[simp] theorem put_read_port (f : Fld) (v : Bool) (b : Nat) : (s.put f v).port b = s.port b := rfl
@[simp] theorem put_read_tent (f : Fld) (v : Bool) (b : Nat) : (s.put f v).tent b = s.tent b := rfl
@[simp] theorem put_read_cal (f : Fld) (v : Bool) (b : Nat) : (s.put f v).cal b = s.cal b := rfl
@[simp] theorem put_read_staged (f : Fld) (v : Bool) (b : Nat) : (s.put f v).staged b = s.staged b := rfl
@[simp] theorem put_read_sx (f : Fld) (v : Bool) (b : Nat) : (s.put f v).sx b = s.sx b := rfl
@[simp] theorem put_read_sliver (f : Fld) (v : Bool) (b : Nat) : (s.put f v).sliver b = s.sliver b := rfl
@[simp] theorem put_read_queued (f : Fld) (v : Bool) (g : RecQueue) : (s.put f v).queued g = s.queued g := rfl

/-! ### `Box.setTab` -/

@[simp] theorem setTab_phase (a : Nat) (w : Word) : (s.setTab a w).phase = s.phase := rfl
@[simp] theorem setTab_raw (a : Nat) (w : Word) : (s.setTab a w).raw = s.raw := rfl
@[simp] theorem setTab_freeCtr (a : Nat) (w : Word) : (s.setTab a w).freeCtr = s.freeCtr := rfl
@[simp] theorem setTab_outbox (a : Nat) (w : Word) : (s.setTab a w).outbox = s.outbox := rfl
@[simp] theorem setTab_regs (a : Nat) (w : Word) : (s.setTab a w).regs = s.regs := rfl
@[simp] theorem setTab_tabs (a : Nat) (w : Word) : (s.setTab a w).tabs = mapSet (fun _ => 0) s.tabs a w := rfl
@[simp] theorem setTab_ctrs (a : Nat) (w : Word) : (s.setTab a w).ctrs = s.ctrs := rfl
@[simp] theorem setTab_shadows (a : Nat) (w : Word) : (s.setTab a w).shadows = s.shadows := rfl
@[simp] theorem setTab_copying (a : Nat) (w : Word) : (s.setTab a w).copying = s.copying := rfl
@[simp] theorem setTab_copyTick (a : Nat) (w : Word) : (s.setTab a w).copyTick = s.copyTick := rfl
@[simp] theorem setTab_preClear (a : Nat) (w : Word) : (s.setTab a w).preClear = s.preClear := rfl
@[simp] theorem setTab_clearAt (a : Nat) (w : Word) : (s.setTab a w).clearAt = s.clearAt := rfl
@[simp] theorem setTab_snapWait (a : Nat) (w : Word) : (s.setTab a w).snapWait = s.snapWait := rfl
@[simp] theorem setTab_snapHad (a : Nat) (w : Word) : (s.setTab a w).snapHad = s.snapHad := rfl
@[simp] theorem setTab_hiLatch (a : Nat) (w : Word) : (s.setTab a w).hiLatch = s.hiLatch := rfl
@[simp] theorem setTab_fa (a : Nat) (w : Word) : (s.setTab a w).fa = s.fa := rfl
@[simp] theorem setTab_na (a : Nat) (w : Word) : (s.setTab a w).na = s.na := rfl
@[simp] theorem setTab_rate (a : Nat) (w : Word) : (s.setTab a w).rate = s.rate := rfl
@[simp] theorem setTab_repl (a : Nat) (w : Word) : (s.setTab a w).repl = s.repl := rfl
@[simp] theorem setTab_ports (a : Nat) (w : Word) : (s.setTab a w).ports = s.ports := rfl
@[simp] theorem setTab_tents (a : Nat) (w : Word) : (s.setTab a w).tents = s.tents := rfl
@[simp] theorem setTab_descs (a : Nat) (w : Word) : (s.setTab a w).descs = s.descs := rfl
@[simp] theorem setTab_descId (a : Nat) (w : Word) : (s.setTab a w).descId = s.descId := rfl
@[simp] theorem setTab_admits (a : Nat) (w : Word) : (s.setTab a w).admits = s.admits := rfl
@[simp] theorem setTab_spills (a : Nat) (w : Word) : (s.setTab a w).spills = s.spills := rfl
@[simp] theorem setTab_staging (a : Nat) (w : Word) : (s.setTab a w).staging = s.staging := rfl
@[simp] theorem setTab_results (a : Nat) (w : Word) : (s.setTab a w).results = s.results := rfl
@[simp] theorem setTab_fwdOp (a : Nat) (w : Word) : (s.setTab a w).fwdOp = s.fwdOp := rfl
@[simp] theorem setTab_fwdSw (a : Nat) (w : Word) : (s.setTab a w).fwdSw = s.fwdSw := rfl
@[simp] theorem setTab_notices (a : Nat) (w : Word) : (s.setTab a w).notices = s.notices := rfl
@[simp] theorem setTab_mdw (a : Nat) (w : Word) : (s.setTab a w).mdw = s.mdw := rfl
@[simp] theorem setTab_cals (a : Nat) (w : Word) : (s.setTab a w).cals = s.cals := rfl
@[simp] theorem setTab_buckets (a : Nat) (w : Word) : (s.setTab a w).buckets = s.buckets := rfl
@[simp] theorem setTab_backlog (a : Nat) (w : Word) : (s.setTab a w).backlog = s.backlog := rfl
@[simp] theorem setTab_mem (a : Nat) (w : Word) : (s.setTab a w).mem = s.mem := rfl
@[simp] theorem setTab_samplers (a : Nat) (w : Word) : (s.setTab a w).samplers = s.samplers := rfl
@[simp] theorem setTab_smpq (a : Nat) (w : Word) : (s.setTab a w).smpq = s.smpq := rfl
@[simp] theorem setTab_inbox (a : Nat) (w : Word) : (s.setTab a w).inbox = s.inbox := rfl
@[simp] theorem setTab_qlens (a : Nat) (w : Word) : (s.setTab a w).qlens = s.qlens := rfl
@[simp] theorem setTab_collector (a : Nat) (w : Word) : (s.setTab a w).collector = s.collector := rfl
@[simp] theorem setTab_vc6Q (a : Nat) (w : Word) : (s.setTab a w).vc6Q = s.vc6Q := rfl
@[simp] theorem setTab_bmtSecond (a : Nat) (w : Word) : (s.setTab a w).bmtSecond = s.bmtSecond := rfl
@[simp] theorem setTab_portErrs (a : Nat) (w : Word) : (s.setTab a w).portErrs = s.portErrs := rfl
@[simp] theorem setTab_slivers (a : Nat) (w : Word) : (s.setTab a w).slivers = s.slivers := rfl
@[simp] theorem setTab_streams (a : Nat) (w : Word) : (s.setTab a w).streams = s.streams := rfl
@[simp] theorem setTab_carOp (a : Nat) (w : Word) : (s.setTab a w).carOp = s.carOp := rfl
@[simp] theorem setTab_bOpened (a : Nat) (w : Word) : (s.setTab a w).bOpened = s.bOpened := rfl
@[simp] theorem setTab_resId (a : Nat) (w : Word) : (s.setTab a w).resId = s.resId := rfl
@[simp] theorem setTab_replay (a : Nat) (w : Word) : (s.setTab a w).replay = s.replay := rfl
@[simp] theorem setTab_kernels (a : Nat) (w : Word) : (s.setTab a w).kernels = s.kernels := rfl
@[simp] theorem setTab_kpieces (a : Nat) (w : Word) : (s.setTab a w).kpieces = s.kpieces := rfl
@[simp] theorem setTab_kop (a : Nat) (w : Word) : (s.setTab a w).kop = s.kop := rfl
@[simp] theorem setTab_substs (a : Nat) (w : Word) : (s.setTab a w).substs = s.substs := rfl
@[simp] theorem setTab_sealJobs (a : Nat) (w : Word) : (s.setTab a w).sealJobs = s.sealJobs := rfl
@[simp] theorem setTab_sealQ (a : Nat) (w : Word) : (s.setTab a w).sealQ = s.sealQ := rfl
@[simp] theorem setTab_sealLast (a : Nat) (w : Word) : (s.setTab a w).sealLast = s.sealLast := rfl
@[simp] theorem setTab_sealSigned (a : Nat) (w : Word) : (s.setTab a w).sealSigned = s.sealSigned := rfl
@[simp] theorem setTab_aliasKey (a : Nat) (w : Word) : (s.setTab a w).aliasKey = s.aliasKey := rfl
@[simp] theorem setTab_aliasCert (a : Nat) (w : Word) : (s.setTab a w).aliasCert = s.aliasCert := rfl
@[simp] theorem setTab_deviceKey (a : Nat) (w : Word) : (s.setTab a w).deviceKey = s.deviceKey := rfl
@[simp] theorem setTab_udsLocked (a : Nat) (w : Word) : (s.setTab a w).udsLocked = s.udsLocked := rfl
@[simp] theorem setTab_events (a : Nat) (w : Word) : (s.setTab a w).events = s.events := rfl
@[simp] theorem setTab_spareQuar (a : Nat) (w : Word) : (s.setTab a w).spareQuar = s.spareQuar := rfl
@[simp] theorem setTab_occs (a : Nat) (w : Word) : (s.setTab a w).occs = s.occs := rfl
@[simp] theorem setTab_hot (a : Nat) (w : Word) : (s.setTab a w).hot = s.hot := rfl
@[simp] theorem setTab_hotQ (a : Nat) (w : Word) : (s.setTab a w).hotQ = s.hotQ := rfl
@[simp] theorem setTab_hintAt (a : Nat) (w : Word) : (s.setTab a w).hintAt = s.hintAt := rfl
@[simp] theorem setTab_rings (a : Nat) (w : Word) : (s.setTab a w).rings = s.rings := rfl
@[simp] theorem setTab_lasers (a : Nat) (w : Word) : (s.setTab a w).lasers = s.lasers := rfl
@[simp] theorem setTab_lgroups (a : Nat) (w : Word) : (s.setTab a w).lgroups = s.lgroups := rfl
@[simp] theorem setTab_engines (a : Nat) (w : Word) : (s.setTab a w).engines = s.engines := rfl
@[simp] theorem setTab_aprs (a : Nat) (w : Word) : (s.setTab a w).aprs = s.aprs := rfl
@[simp] theorem setTab_plans (a : Nat) (w : Word) : (s.setTab a w).plans = s.plans := rfl
@[simp] theorem setTab_trained (a : Nat) (w : Word) : (s.setTab a w).trained = s.trained := rfl
@[simp] theorem setTab_initing (a : Nat) (w : Word) : (s.setTab a w).initing = s.initing := rfl
@[simp] theorem setTab_spares (a : Nat) (w : Word) : (s.setTab a w).spares = s.spares := rfl
@[simp] theorem setTab_memKept (a : Nat) (w : Word) : (s.setTab a w).memKept = s.memKept := rfl
@[simp] theorem setTab_hostReads (a : Nat) (w : Word) : (s.setTab a w).hostReads = s.hostReads := rfl
@[simp] theorem setTab_badBlocks (a : Nat) (w : Word) : (s.setTab a w).badBlocks = s.badBlocks := rfl
@[simp] theorem setTab_kernBad (a : Nat) (w : Word) : (s.setTab a w).kernBad = s.kernBad := rfl
@[simp] theorem setTab_deadDevs (a : Nat) (w : Word) : (s.setTab a w).deadDevs = s.deadDevs := rfl
@[simp] theorem setTab_applies (a : Nat) (w : Word) : (s.setTab a w).applies = s.applies := rfl
@[simp] theorem setTab_servo (a : Nat) (w : Word) : (s.setTab a w).servo = s.servo := rfl
@[simp] theorem setTab_ptps (a : Nat) (w : Word) : (s.setTab a w).ptps = s.ptps := rfl
@[simp] theorem setTab_pins (a : Nat) (w : Word) : (s.setTab a w).pins = s.pins := rfl
@[simp] theorem setTab_launches (a : Nat) (w : Word) : (s.setTab a w).launches = s.launches := rfl
@[simp] theorem setTab_fuses (a : Nat) (w : Word) : (s.setTab a w).fuses = s.fuses := rfl
@[simp] theorem setTab_fuseOp (a : Nat) (w : Word) : (s.setTab a w).fuseOp = s.fuseOp := rfl
@[simp] theorem setTab_fuseRail (a : Nat) (w : Word) : (s.setTab a w).fuseRail = s.fuseRail := rfl
@[simp] theorem setTab_flash (a : Nat) (w : Word) : (s.setTab a w).flash = s.flash := rfl
@[simp] theorem setTab_image (a : Nat) (w : Word) : (s.setTab a w).image = s.image := rfl
@[simp] theorem setTab_update (a : Nat) (w : Word) : (s.setTab a w).update = s.update := rfl
@[simp] theorem setTab_resetReq (a : Nat) (w : Word) : (s.setTab a w).resetReq = s.resetReq := rfl
@[simp] theorem setTab_pwrOk (a : Nat) (w : Word) : (s.setTab a w).pwrOk = s.pwrOk := rfl
@[simp] theorem setTab_railsBad (a : Nat) (w : Word) : (s.setTab a w).railsBad = s.railsBad := rfl
@[simp] theorem setTab_refLost (a : Nat) (w : Word) : (s.setTab a w).refLost = s.refLost := rfl
@[simp] theorem setTab_straps (a : Nat) (w : Word) : (s.setTab a w).straps = s.straps := rfl
@[simp] theorem setTab_memTemps (a : Nat) (w : Word) : (s.setTab a w).memTemps = s.memTemps := rfl
@[simp] theorem setTab_tap (a : Nat) (w : Word) : (s.setTab a w).tap = s.tap := rfl
@[simp] theorem setTab_alarm (a : Nat) (w : Word) : (s.setTab a w).alarm = s.alarm := rfl
@[simp] theorem setTab_trip (a : Nat) (w : Word) : (s.setTab a w).trip = s.trip := rfl
@[simp] theorem setTab_calShed (a : Nat) (w : Word) : (s.setTab a w).calShed = s.calShed := rfl
@[simp] theorem setTab_cores (a : Nat) (w : Word) : (s.setTab a w).cores = s.cores := rfl
@[simp] theorem setTab_dump (a : Nat) (w : Word) : (s.setTab a w).dump = s.dump := rfl
@[simp] theorem setTab_sealHash (a : Nat) (w : Word) : (s.setTab a w).sealHash = s.sealHash := rfl
@[simp] theorem setTab_wall (a : Nat) (w : Word) : (s.setTab a w).wall = s.wall := rfl
@[simp] theorem setTab_cxlLog (a : Nat) (w : Word) : (s.setTab a w).cxlLog = s.cxlLog := rfl
@[simp] theorem setTab_doeError (a : Nat) (w : Word) : (s.setTab a w).doeError = s.doeError := rfl
@[simp] theorem setTab_doeBusy (a : Nat) (w : Word) : (s.setTab a w).doeBusy = s.doeBusy := rfl
@[simp] theorem setTab_cfg (a : Nat) (w : Word) : (s.setTab a w).cfg = s.cfg := rfl
@[simp] theorem setTab_cxlRegs (a : Nat) (w : Word) : (s.setTab a w).cxlRegs = s.cxlRegs := rfl
@[simp] theorem setTab_ip (a : Nat) (w : Word) : (s.setTab a w).ip = s.ip := rfl
@[simp] theorem setTab_ethSecond (a : Nat) (w : Word) : (s.setTab a w).ethSecond = s.ethSecond := rfl
@[simp] theorem setTab_i3cAddr (a : Nat) (w : Word) : (s.setTab a w).i3cAddr = s.i3cAddr := rfl
@[simp] theorem setTab_eid (a : Nat) (w : Word) : (s.setTab a w).eid = s.eid := rfl
@[simp] theorem setTab_spdmDoe (a : Nat) (w : Word) : (s.setTab a w).spdmDoe = s.spdmDoe := rfl
@[simp] theorem setTab_spdmMctp (a : Nat) (w : Word) : (s.setTab a w).spdmMctp = s.spdmMctp := rfl
@[simp] theorem setTab_spdmSigs (a : Nat) (w : Word) : (s.setTab a w).spdmSigs = s.spdmSigs := rfl
@[simp] theorem setTab_bar2 (a : Nat) (w : Word) : (s.setTab a w).bar2 = s.bar2 := rfl
@[simp] theorem setTab_read_word (a : Nat) (w : Word) (b : Nat) : (s.setTab a w).word b = s.word b := rfl
@[simp] theorem setTab_read_rd (a : Nat) (w : Word) (g : Fld) : (s.setTab a w).rd g = s.rd g := rfl
@[simp] theorem setTab_read_is (a : Nat) (w : Word) (g : Fld) : (s.setTab a w).is g = s.is g := rfl
@[simp] theorem setTab_read_ctr (a : Nat) (w : Word) (b i : Nat) : (s.setTab a w).ctr b i = s.ctr b i := rfl
@[simp] theorem setTab_read_port (a : Nat) (w : Word) (b : Nat) : (s.setTab a w).port b = s.port b := rfl
@[simp] theorem setTab_read_tent (a : Nat) (w : Word) (b : Nat) : (s.setTab a w).tent b = s.tent b := rfl
@[simp] theorem setTab_read_cal (a : Nat) (w : Word) (b : Nat) : (s.setTab a w).cal b = s.cal b := rfl
@[simp] theorem setTab_read_staged (a : Nat) (w : Word) (b : Nat) : (s.setTab a w).staged b = s.staged b := rfl
@[simp] theorem setTab_read_sx (a : Nat) (w : Word) (b : Nat) : (s.setTab a w).sx b = s.sx b := rfl
@[simp] theorem setTab_read_sliver (a : Nat) (w : Word) (b : Nat) : (s.setTab a w).sliver b = s.sliver b := rfl
@[simp] theorem setTab_read_queued (a : Nat) (w : Word) (g : RecQueue) : (s.setTab a w).queued g = s.queued g := rfl

/-! ### `Box.emit` -/

@[simp] theorem emit_phase (o : Out) : (s.emit o).phase = s.phase := rfl
@[simp] theorem emit_raw (o : Out) : (s.emit o).raw = s.raw := rfl
@[simp] theorem emit_freeCtr (o : Out) : (s.emit o).freeCtr = s.freeCtr := rfl
@[simp] theorem emit_outbox (o : Out) : (s.emit o).outbox = o :: s.outbox := rfl
@[simp] theorem emit_regs (o : Out) : (s.emit o).regs = s.regs := rfl
@[simp] theorem emit_tabs (o : Out) : (s.emit o).tabs = s.tabs := rfl
@[simp] theorem emit_ctrs (o : Out) : (s.emit o).ctrs = s.ctrs := rfl
@[simp] theorem emit_shadows (o : Out) : (s.emit o).shadows = s.shadows := rfl
@[simp] theorem emit_copying (o : Out) : (s.emit o).copying = s.copying := rfl
@[simp] theorem emit_copyTick (o : Out) : (s.emit o).copyTick = s.copyTick := rfl
@[simp] theorem emit_preClear (o : Out) : (s.emit o).preClear = s.preClear := rfl
@[simp] theorem emit_clearAt (o : Out) : (s.emit o).clearAt = s.clearAt := rfl
@[simp] theorem emit_snapWait (o : Out) : (s.emit o).snapWait = s.snapWait := rfl
@[simp] theorem emit_snapHad (o : Out) : (s.emit o).snapHad = s.snapHad := rfl
@[simp] theorem emit_hiLatch (o : Out) : (s.emit o).hiLatch = s.hiLatch := rfl
@[simp] theorem emit_fa (o : Out) : (s.emit o).fa = s.fa := rfl
@[simp] theorem emit_na (o : Out) : (s.emit o).na = s.na := rfl
@[simp] theorem emit_rate (o : Out) : (s.emit o).rate = s.rate := rfl
@[simp] theorem emit_repl (o : Out) : (s.emit o).repl = s.repl := rfl
@[simp] theorem emit_ports (o : Out) : (s.emit o).ports = s.ports := rfl
@[simp] theorem emit_tents (o : Out) : (s.emit o).tents = s.tents := rfl
@[simp] theorem emit_descs (o : Out) : (s.emit o).descs = s.descs := rfl
@[simp] theorem emit_descId (o : Out) : (s.emit o).descId = s.descId := rfl
@[simp] theorem emit_admits (o : Out) : (s.emit o).admits = s.admits := rfl
@[simp] theorem emit_spills (o : Out) : (s.emit o).spills = s.spills := rfl
@[simp] theorem emit_staging (o : Out) : (s.emit o).staging = s.staging := rfl
@[simp] theorem emit_results (o : Out) : (s.emit o).results = s.results := rfl
@[simp] theorem emit_fwdOp (o : Out) : (s.emit o).fwdOp = s.fwdOp := rfl
@[simp] theorem emit_fwdSw (o : Out) : (s.emit o).fwdSw = s.fwdSw := rfl
@[simp] theorem emit_notices (o : Out) : (s.emit o).notices = s.notices := rfl
@[simp] theorem emit_mdw (o : Out) : (s.emit o).mdw = s.mdw := rfl
@[simp] theorem emit_cals (o : Out) : (s.emit o).cals = s.cals := rfl
@[simp] theorem emit_buckets (o : Out) : (s.emit o).buckets = s.buckets := rfl
@[simp] theorem emit_backlog (o : Out) : (s.emit o).backlog = s.backlog := rfl
@[simp] theorem emit_mem (o : Out) : (s.emit o).mem = s.mem := rfl
@[simp] theorem emit_samplers (o : Out) : (s.emit o).samplers = s.samplers := rfl
@[simp] theorem emit_smpq (o : Out) : (s.emit o).smpq = s.smpq := rfl
@[simp] theorem emit_inbox (o : Out) : (s.emit o).inbox = s.inbox := rfl
@[simp] theorem emit_qlens (o : Out) : (s.emit o).qlens = s.qlens := rfl
@[simp] theorem emit_collector (o : Out) : (s.emit o).collector = s.collector := rfl
@[simp] theorem emit_vc6Q (o : Out) : (s.emit o).vc6Q = s.vc6Q := rfl
@[simp] theorem emit_bmtSecond (o : Out) : (s.emit o).bmtSecond = s.bmtSecond := rfl
@[simp] theorem emit_portErrs (o : Out) : (s.emit o).portErrs = s.portErrs := rfl
@[simp] theorem emit_slivers (o : Out) : (s.emit o).slivers = s.slivers := rfl
@[simp] theorem emit_streams (o : Out) : (s.emit o).streams = s.streams := rfl
@[simp] theorem emit_carOp (o : Out) : (s.emit o).carOp = s.carOp := rfl
@[simp] theorem emit_bOpened (o : Out) : (s.emit o).bOpened = s.bOpened := rfl
@[simp] theorem emit_resId (o : Out) : (s.emit o).resId = s.resId := rfl
@[simp] theorem emit_replay (o : Out) : (s.emit o).replay = s.replay := rfl
@[simp] theorem emit_kernels (o : Out) : (s.emit o).kernels = s.kernels := rfl
@[simp] theorem emit_kpieces (o : Out) : (s.emit o).kpieces = s.kpieces := rfl
@[simp] theorem emit_kop (o : Out) : (s.emit o).kop = s.kop := rfl
@[simp] theorem emit_substs (o : Out) : (s.emit o).substs = s.substs := rfl
@[simp] theorem emit_sealJobs (o : Out) : (s.emit o).sealJobs = s.sealJobs := rfl
@[simp] theorem emit_sealQ (o : Out) : (s.emit o).sealQ = s.sealQ := rfl
@[simp] theorem emit_sealLast (o : Out) : (s.emit o).sealLast = s.sealLast := rfl
@[simp] theorem emit_sealSigned (o : Out) : (s.emit o).sealSigned = s.sealSigned := rfl
@[simp] theorem emit_aliasKey (o : Out) : (s.emit o).aliasKey = s.aliasKey := rfl
@[simp] theorem emit_aliasCert (o : Out) : (s.emit o).aliasCert = s.aliasCert := rfl
@[simp] theorem emit_deviceKey (o : Out) : (s.emit o).deviceKey = s.deviceKey := rfl
@[simp] theorem emit_udsLocked (o : Out) : (s.emit o).udsLocked = s.udsLocked := rfl
@[simp] theorem emit_events (o : Out) : (s.emit o).events = s.events := rfl
@[simp] theorem emit_spareQuar (o : Out) : (s.emit o).spareQuar = s.spareQuar := rfl
@[simp] theorem emit_occs (o : Out) : (s.emit o).occs = s.occs := rfl
@[simp] theorem emit_hot (o : Out) : (s.emit o).hot = s.hot := rfl
@[simp] theorem emit_hotQ (o : Out) : (s.emit o).hotQ = s.hotQ := rfl
@[simp] theorem emit_hintAt (o : Out) : (s.emit o).hintAt = s.hintAt := rfl
@[simp] theorem emit_rings (o : Out) : (s.emit o).rings = s.rings := rfl
@[simp] theorem emit_lasers (o : Out) : (s.emit o).lasers = s.lasers := rfl
@[simp] theorem emit_lgroups (o : Out) : (s.emit o).lgroups = s.lgroups := rfl
@[simp] theorem emit_engines (o : Out) : (s.emit o).engines = s.engines := rfl
@[simp] theorem emit_aprs (o : Out) : (s.emit o).aprs = s.aprs := rfl
@[simp] theorem emit_plans (o : Out) : (s.emit o).plans = s.plans := rfl
@[simp] theorem emit_trained (o : Out) : (s.emit o).trained = s.trained := rfl
@[simp] theorem emit_initing (o : Out) : (s.emit o).initing = s.initing := rfl
@[simp] theorem emit_spares (o : Out) : (s.emit o).spares = s.spares := rfl
@[simp] theorem emit_memKept (o : Out) : (s.emit o).memKept = s.memKept := rfl
@[simp] theorem emit_hostReads (o : Out) : (s.emit o).hostReads = s.hostReads := rfl
@[simp] theorem emit_badBlocks (o : Out) : (s.emit o).badBlocks = s.badBlocks := rfl
@[simp] theorem emit_kernBad (o : Out) : (s.emit o).kernBad = s.kernBad := rfl
@[simp] theorem emit_deadDevs (o : Out) : (s.emit o).deadDevs = s.deadDevs := rfl
@[simp] theorem emit_applies (o : Out) : (s.emit o).applies = s.applies := rfl
@[simp] theorem emit_servo (o : Out) : (s.emit o).servo = s.servo := rfl
@[simp] theorem emit_ptps (o : Out) : (s.emit o).ptps = s.ptps := rfl
@[simp] theorem emit_pins (o : Out) : (s.emit o).pins = s.pins := rfl
@[simp] theorem emit_launches (o : Out) : (s.emit o).launches = s.launches := rfl
@[simp] theorem emit_fuses (o : Out) : (s.emit o).fuses = s.fuses := rfl
@[simp] theorem emit_fuseOp (o : Out) : (s.emit o).fuseOp = s.fuseOp := rfl
@[simp] theorem emit_fuseRail (o : Out) : (s.emit o).fuseRail = s.fuseRail := rfl
@[simp] theorem emit_flash (o : Out) : (s.emit o).flash = s.flash := rfl
@[simp] theorem emit_image (o : Out) : (s.emit o).image = s.image := rfl
@[simp] theorem emit_update (o : Out) : (s.emit o).update = s.update := rfl
@[simp] theorem emit_resetReq (o : Out) : (s.emit o).resetReq = s.resetReq := rfl
@[simp] theorem emit_pwrOk (o : Out) : (s.emit o).pwrOk = s.pwrOk := rfl
@[simp] theorem emit_railsBad (o : Out) : (s.emit o).railsBad = s.railsBad := rfl
@[simp] theorem emit_refLost (o : Out) : (s.emit o).refLost = s.refLost := rfl
@[simp] theorem emit_straps (o : Out) : (s.emit o).straps = s.straps := rfl
@[simp] theorem emit_memTemps (o : Out) : (s.emit o).memTemps = s.memTemps := rfl
@[simp] theorem emit_tap (o : Out) : (s.emit o).tap = s.tap := rfl
@[simp] theorem emit_alarm (o : Out) : (s.emit o).alarm = s.alarm := rfl
@[simp] theorem emit_trip (o : Out) : (s.emit o).trip = s.trip := rfl
@[simp] theorem emit_calShed (o : Out) : (s.emit o).calShed = s.calShed := rfl
@[simp] theorem emit_cores (o : Out) : (s.emit o).cores = s.cores := rfl
@[simp] theorem emit_dump (o : Out) : (s.emit o).dump = s.dump := rfl
@[simp] theorem emit_sealHash (o : Out) : (s.emit o).sealHash = s.sealHash := rfl
@[simp] theorem emit_wall (o : Out) : (s.emit o).wall = s.wall := rfl
@[simp] theorem emit_cxlLog (o : Out) : (s.emit o).cxlLog = s.cxlLog := rfl
@[simp] theorem emit_doeError (o : Out) : (s.emit o).doeError = s.doeError := rfl
@[simp] theorem emit_doeBusy (o : Out) : (s.emit o).doeBusy = s.doeBusy := rfl
@[simp] theorem emit_cfg (o : Out) : (s.emit o).cfg = s.cfg := rfl
@[simp] theorem emit_cxlRegs (o : Out) : (s.emit o).cxlRegs = s.cxlRegs := rfl
@[simp] theorem emit_ip (o : Out) : (s.emit o).ip = s.ip := rfl
@[simp] theorem emit_ethSecond (o : Out) : (s.emit o).ethSecond = s.ethSecond := rfl
@[simp] theorem emit_i3cAddr (o : Out) : (s.emit o).i3cAddr = s.i3cAddr := rfl
@[simp] theorem emit_eid (o : Out) : (s.emit o).eid = s.eid := rfl
@[simp] theorem emit_spdmDoe (o : Out) : (s.emit o).spdmDoe = s.spdmDoe := rfl
@[simp] theorem emit_spdmMctp (o : Out) : (s.emit o).spdmMctp = s.spdmMctp := rfl
@[simp] theorem emit_spdmSigs (o : Out) : (s.emit o).spdmSigs = s.spdmSigs := rfl
@[simp] theorem emit_bar2 (o : Out) : (s.emit o).bar2 = s.bar2 := rfl
@[simp] theorem emit_read_word (o : Out) (b : Nat) : (s.emit o).word b = s.word b := rfl
@[simp] theorem emit_read_rd (o : Out) (g : Fld) : (s.emit o).rd g = s.rd g := rfl
@[simp] theorem emit_read_is (o : Out) (g : Fld) : (s.emit o).is g = s.is g := rfl
@[simp] theorem emit_read_tab (o : Out) (b : Nat) : (s.emit o).tab b = s.tab b := rfl
@[simp] theorem emit_read_strm (o : Out) (b : Nat) : (s.emit o).strm b = s.strm b := rfl
@[simp] theorem emit_read_grp (o : Out) (b : Nat) : (s.emit o).grp b = s.grp b := rfl
@[simp] theorem emit_read_ctr (o : Out) (b i : Nat) : (s.emit o).ctr b i = s.ctr b i := rfl
@[simp] theorem emit_read_port (o : Out) (b : Nat) : (s.emit o).port b = s.port b := rfl
@[simp] theorem emit_read_tent (o : Out) (b : Nat) : (s.emit o).tent b = s.tent b := rfl
@[simp] theorem emit_read_cal (o : Out) (b : Nat) : (s.emit o).cal b = s.cal b := rfl
@[simp] theorem emit_read_staged (o : Out) (b : Nat) : (s.emit o).staged b = s.staged b := rfl
@[simp] theorem emit_read_sx (o : Out) (b : Nat) : (s.emit o).sx b = s.sx b := rfl
@[simp] theorem emit_read_sliver (o : Out) (b : Nat) : (s.emit o).sliver b = s.sliver b := rfl
@[simp] theorem emit_read_queued (o : Out) (g : RecQueue) : (s.emit o).queued g = s.queued g := rfl

/-! ### `Box.setPort` -/

@[simp] theorem setPort_phase (p : Nat) (x : Port) : (s.setPort p x).phase = s.phase := rfl
@[simp] theorem setPort_raw (p : Nat) (x : Port) : (s.setPort p x).raw = s.raw := rfl
@[simp] theorem setPort_freeCtr (p : Nat) (x : Port) : (s.setPort p x).freeCtr = s.freeCtr := rfl
@[simp] theorem setPort_outbox (p : Nat) (x : Port) : (s.setPort p x).outbox = s.outbox := rfl
@[simp] theorem setPort_regs (p : Nat) (x : Port) : (s.setPort p x).regs = s.regs := rfl
@[simp] theorem setPort_tabs (p : Nat) (x : Port) : (s.setPort p x).tabs = s.tabs := rfl
@[simp] theorem setPort_ctrs (p : Nat) (x : Port) : (s.setPort p x).ctrs = s.ctrs := rfl
@[simp] theorem setPort_shadows (p : Nat) (x : Port) : (s.setPort p x).shadows = s.shadows := rfl
@[simp] theorem setPort_copying (p : Nat) (x : Port) : (s.setPort p x).copying = s.copying := rfl
@[simp] theorem setPort_copyTick (p : Nat) (x : Port) : (s.setPort p x).copyTick = s.copyTick := rfl
@[simp] theorem setPort_preClear (p : Nat) (x : Port) : (s.setPort p x).preClear = s.preClear := rfl
@[simp] theorem setPort_clearAt (p : Nat) (x : Port) : (s.setPort p x).clearAt = s.clearAt := rfl
@[simp] theorem setPort_snapWait (p : Nat) (x : Port) : (s.setPort p x).snapWait = s.snapWait := rfl
@[simp] theorem setPort_snapHad (p : Nat) (x : Port) : (s.setPort p x).snapHad = s.snapHad := rfl
@[simp] theorem setPort_hiLatch (p : Nat) (x : Port) : (s.setPort p x).hiLatch = s.hiLatch := rfl
@[simp] theorem setPort_fa (p : Nat) (x : Port) : (s.setPort p x).fa = s.fa := rfl
@[simp] theorem setPort_na (p : Nat) (x : Port) : (s.setPort p x).na = s.na := rfl
@[simp] theorem setPort_rate (p : Nat) (x : Port) : (s.setPort p x).rate = s.rate := rfl
@[simp] theorem setPort_repl (p : Nat) (x : Port) : (s.setPort p x).repl = s.repl := rfl
@[simp] theorem setPort_ports (p : Nat) (x : Port) : (s.setPort p x).ports = mapSet (fun _ => {}) s.ports p x := rfl
@[simp] theorem setPort_tents (p : Nat) (x : Port) : (s.setPort p x).tents = s.tents := rfl
@[simp] theorem setPort_descs (p : Nat) (x : Port) : (s.setPort p x).descs = s.descs := rfl
@[simp] theorem setPort_descId (p : Nat) (x : Port) : (s.setPort p x).descId = s.descId := rfl
@[simp] theorem setPort_admits (p : Nat) (x : Port) : (s.setPort p x).admits = s.admits := rfl
@[simp] theorem setPort_spills (p : Nat) (x : Port) : (s.setPort p x).spills = s.spills := rfl
@[simp] theorem setPort_staging (p : Nat) (x : Port) : (s.setPort p x).staging = s.staging := rfl
@[simp] theorem setPort_results (p : Nat) (x : Port) : (s.setPort p x).results = s.results := rfl
@[simp] theorem setPort_fwdOp (p : Nat) (x : Port) : (s.setPort p x).fwdOp = s.fwdOp := rfl
@[simp] theorem setPort_fwdSw (p : Nat) (x : Port) : (s.setPort p x).fwdSw = s.fwdSw := rfl
@[simp] theorem setPort_notices (p : Nat) (x : Port) : (s.setPort p x).notices = s.notices := rfl
@[simp] theorem setPort_mdw (p : Nat) (x : Port) : (s.setPort p x).mdw = s.mdw := rfl
@[simp] theorem setPort_cals (p : Nat) (x : Port) : (s.setPort p x).cals = s.cals := rfl
@[simp] theorem setPort_buckets (p : Nat) (x : Port) : (s.setPort p x).buckets = s.buckets := rfl
@[simp] theorem setPort_backlog (p : Nat) (x : Port) : (s.setPort p x).backlog = s.backlog := rfl
@[simp] theorem setPort_mem (p : Nat) (x : Port) : (s.setPort p x).mem = s.mem := rfl
@[simp] theorem setPort_samplers (p : Nat) (x : Port) : (s.setPort p x).samplers = s.samplers := rfl
@[simp] theorem setPort_smpq (p : Nat) (x : Port) : (s.setPort p x).smpq = s.smpq := rfl
@[simp] theorem setPort_inbox (p : Nat) (x : Port) : (s.setPort p x).inbox = s.inbox := rfl
@[simp] theorem setPort_qlens (p : Nat) (x : Port) : (s.setPort p x).qlens = s.qlens := rfl
@[simp] theorem setPort_collector (p : Nat) (x : Port) : (s.setPort p x).collector = s.collector := rfl
@[simp] theorem setPort_vc6Q (p : Nat) (x : Port) : (s.setPort p x).vc6Q = s.vc6Q := rfl
@[simp] theorem setPort_bmtSecond (p : Nat) (x : Port) : (s.setPort p x).bmtSecond = s.bmtSecond := rfl
@[simp] theorem setPort_portErrs (p : Nat) (x : Port) : (s.setPort p x).portErrs = s.portErrs := rfl
@[simp] theorem setPort_slivers (p : Nat) (x : Port) : (s.setPort p x).slivers = s.slivers := rfl
@[simp] theorem setPort_streams (p : Nat) (x : Port) : (s.setPort p x).streams = s.streams := rfl
@[simp] theorem setPort_carOp (p : Nat) (x : Port) : (s.setPort p x).carOp = s.carOp := rfl
@[simp] theorem setPort_bOpened (p : Nat) (x : Port) : (s.setPort p x).bOpened = s.bOpened := rfl
@[simp] theorem setPort_resId (p : Nat) (x : Port) : (s.setPort p x).resId = s.resId := rfl
@[simp] theorem setPort_replay (p : Nat) (x : Port) : (s.setPort p x).replay = s.replay := rfl
@[simp] theorem setPort_kernels (p : Nat) (x : Port) : (s.setPort p x).kernels = s.kernels := rfl
@[simp] theorem setPort_kpieces (p : Nat) (x : Port) : (s.setPort p x).kpieces = s.kpieces := rfl
@[simp] theorem setPort_kop (p : Nat) (x : Port) : (s.setPort p x).kop = s.kop := rfl
@[simp] theorem setPort_substs (p : Nat) (x : Port) : (s.setPort p x).substs = s.substs := rfl
@[simp] theorem setPort_sealJobs (p : Nat) (x : Port) : (s.setPort p x).sealJobs = s.sealJobs := rfl
@[simp] theorem setPort_sealQ (p : Nat) (x : Port) : (s.setPort p x).sealQ = s.sealQ := rfl
@[simp] theorem setPort_sealLast (p : Nat) (x : Port) : (s.setPort p x).sealLast = s.sealLast := rfl
@[simp] theorem setPort_sealSigned (p : Nat) (x : Port) : (s.setPort p x).sealSigned = s.sealSigned := rfl
@[simp] theorem setPort_aliasKey (p : Nat) (x : Port) : (s.setPort p x).aliasKey = s.aliasKey := rfl
@[simp] theorem setPort_aliasCert (p : Nat) (x : Port) : (s.setPort p x).aliasCert = s.aliasCert := rfl
@[simp] theorem setPort_deviceKey (p : Nat) (x : Port) : (s.setPort p x).deviceKey = s.deviceKey := rfl
@[simp] theorem setPort_udsLocked (p : Nat) (x : Port) : (s.setPort p x).udsLocked = s.udsLocked := rfl
@[simp] theorem setPort_events (p : Nat) (x : Port) : (s.setPort p x).events = s.events := rfl
@[simp] theorem setPort_spareQuar (p : Nat) (x : Port) : (s.setPort p x).spareQuar = s.spareQuar := rfl
@[simp] theorem setPort_occs (p : Nat) (x : Port) : (s.setPort p x).occs = s.occs := rfl
@[simp] theorem setPort_hot (p : Nat) (x : Port) : (s.setPort p x).hot = s.hot := rfl
@[simp] theorem setPort_hotQ (p : Nat) (x : Port) : (s.setPort p x).hotQ = s.hotQ := rfl
@[simp] theorem setPort_hintAt (p : Nat) (x : Port) : (s.setPort p x).hintAt = s.hintAt := rfl
@[simp] theorem setPort_rings (p : Nat) (x : Port) : (s.setPort p x).rings = s.rings := rfl
@[simp] theorem setPort_lasers (p : Nat) (x : Port) : (s.setPort p x).lasers = s.lasers := rfl
@[simp] theorem setPort_lgroups (p : Nat) (x : Port) : (s.setPort p x).lgroups = s.lgroups := rfl
@[simp] theorem setPort_engines (p : Nat) (x : Port) : (s.setPort p x).engines = s.engines := rfl
@[simp] theorem setPort_aprs (p : Nat) (x : Port) : (s.setPort p x).aprs = s.aprs := rfl
@[simp] theorem setPort_plans (p : Nat) (x : Port) : (s.setPort p x).plans = s.plans := rfl
@[simp] theorem setPort_trained (p : Nat) (x : Port) : (s.setPort p x).trained = s.trained := rfl
@[simp] theorem setPort_initing (p : Nat) (x : Port) : (s.setPort p x).initing = s.initing := rfl
@[simp] theorem setPort_spares (p : Nat) (x : Port) : (s.setPort p x).spares = s.spares := rfl
@[simp] theorem setPort_memKept (p : Nat) (x : Port) : (s.setPort p x).memKept = s.memKept := rfl
@[simp] theorem setPort_hostReads (p : Nat) (x : Port) : (s.setPort p x).hostReads = s.hostReads := rfl
@[simp] theorem setPort_badBlocks (p : Nat) (x : Port) : (s.setPort p x).badBlocks = s.badBlocks := rfl
@[simp] theorem setPort_kernBad (p : Nat) (x : Port) : (s.setPort p x).kernBad = s.kernBad := rfl
@[simp] theorem setPort_deadDevs (p : Nat) (x : Port) : (s.setPort p x).deadDevs = s.deadDevs := rfl
@[simp] theorem setPort_applies (p : Nat) (x : Port) : (s.setPort p x).applies = s.applies := rfl
@[simp] theorem setPort_servo (p : Nat) (x : Port) : (s.setPort p x).servo = s.servo := rfl
@[simp] theorem setPort_ptps (p : Nat) (x : Port) : (s.setPort p x).ptps = s.ptps := rfl
@[simp] theorem setPort_pins (p : Nat) (x : Port) : (s.setPort p x).pins = s.pins := rfl
@[simp] theorem setPort_launches (p : Nat) (x : Port) : (s.setPort p x).launches = s.launches := rfl
@[simp] theorem setPort_fuses (p : Nat) (x : Port) : (s.setPort p x).fuses = s.fuses := rfl
@[simp] theorem setPort_fuseOp (p : Nat) (x : Port) : (s.setPort p x).fuseOp = s.fuseOp := rfl
@[simp] theorem setPort_fuseRail (p : Nat) (x : Port) : (s.setPort p x).fuseRail = s.fuseRail := rfl
@[simp] theorem setPort_flash (p : Nat) (x : Port) : (s.setPort p x).flash = s.flash := rfl
@[simp] theorem setPort_image (p : Nat) (x : Port) : (s.setPort p x).image = s.image := rfl
@[simp] theorem setPort_update (p : Nat) (x : Port) : (s.setPort p x).update = s.update := rfl
@[simp] theorem setPort_resetReq (p : Nat) (x : Port) : (s.setPort p x).resetReq = s.resetReq := rfl
@[simp] theorem setPort_pwrOk (p : Nat) (x : Port) : (s.setPort p x).pwrOk = s.pwrOk := rfl
@[simp] theorem setPort_railsBad (p : Nat) (x : Port) : (s.setPort p x).railsBad = s.railsBad := rfl
@[simp] theorem setPort_refLost (p : Nat) (x : Port) : (s.setPort p x).refLost = s.refLost := rfl
@[simp] theorem setPort_straps (p : Nat) (x : Port) : (s.setPort p x).straps = s.straps := rfl
@[simp] theorem setPort_memTemps (p : Nat) (x : Port) : (s.setPort p x).memTemps = s.memTemps := rfl
@[simp] theorem setPort_tap (p : Nat) (x : Port) : (s.setPort p x).tap = s.tap := rfl
@[simp] theorem setPort_alarm (p : Nat) (x : Port) : (s.setPort p x).alarm = s.alarm := rfl
@[simp] theorem setPort_trip (p : Nat) (x : Port) : (s.setPort p x).trip = s.trip := rfl
@[simp] theorem setPort_calShed (p : Nat) (x : Port) : (s.setPort p x).calShed = s.calShed := rfl
@[simp] theorem setPort_cores (p : Nat) (x : Port) : (s.setPort p x).cores = s.cores := rfl
@[simp] theorem setPort_dump (p : Nat) (x : Port) : (s.setPort p x).dump = s.dump := rfl
@[simp] theorem setPort_sealHash (p : Nat) (x : Port) : (s.setPort p x).sealHash = s.sealHash := rfl
@[simp] theorem setPort_wall (p : Nat) (x : Port) : (s.setPort p x).wall = s.wall := rfl
@[simp] theorem setPort_cxlLog (p : Nat) (x : Port) : (s.setPort p x).cxlLog = s.cxlLog := rfl
@[simp] theorem setPort_doeError (p : Nat) (x : Port) : (s.setPort p x).doeError = s.doeError := rfl
@[simp] theorem setPort_doeBusy (p : Nat) (x : Port) : (s.setPort p x).doeBusy = s.doeBusy := rfl
@[simp] theorem setPort_cfg (p : Nat) (x : Port) : (s.setPort p x).cfg = s.cfg := rfl
@[simp] theorem setPort_cxlRegs (p : Nat) (x : Port) : (s.setPort p x).cxlRegs = s.cxlRegs := rfl
@[simp] theorem setPort_ip (p : Nat) (x : Port) : (s.setPort p x).ip = s.ip := rfl
@[simp] theorem setPort_ethSecond (p : Nat) (x : Port) : (s.setPort p x).ethSecond = s.ethSecond := rfl
@[simp] theorem setPort_i3cAddr (p : Nat) (x : Port) : (s.setPort p x).i3cAddr = s.i3cAddr := rfl
@[simp] theorem setPort_eid (p : Nat) (x : Port) : (s.setPort p x).eid = s.eid := rfl
@[simp] theorem setPort_spdmDoe (p : Nat) (x : Port) : (s.setPort p x).spdmDoe = s.spdmDoe := rfl
@[simp] theorem setPort_spdmMctp (p : Nat) (x : Port) : (s.setPort p x).spdmMctp = s.spdmMctp := rfl
@[simp] theorem setPort_spdmSigs (p : Nat) (x : Port) : (s.setPort p x).spdmSigs = s.spdmSigs := rfl
@[simp] theorem setPort_bar2 (p : Nat) (x : Port) : (s.setPort p x).bar2 = s.bar2 := rfl
@[simp] theorem setPort_read_word (p : Nat) (x : Port) (b : Nat) : (s.setPort p x).word b = s.word b := rfl
@[simp] theorem setPort_read_rd (p : Nat) (x : Port) (g : Fld) : (s.setPort p x).rd g = s.rd g := rfl
@[simp] theorem setPort_read_is (p : Nat) (x : Port) (g : Fld) : (s.setPort p x).is g = s.is g := rfl
@[simp] theorem setPort_read_tab (p : Nat) (x : Port) (b : Nat) : (s.setPort p x).tab b = s.tab b := rfl
@[simp] theorem setPort_read_strm (p : Nat) (x : Port) (b : Nat) : (s.setPort p x).strm b = s.strm b := rfl
@[simp] theorem setPort_read_grp (p : Nat) (x : Port) (b : Nat) : (s.setPort p x).grp b = s.grp b := rfl
@[simp] theorem setPort_read_ctr (p : Nat) (x : Port) (b i : Nat) : (s.setPort p x).ctr b i = s.ctr b i := rfl
@[simp] theorem setPort_read_tent (p : Nat) (x : Port) (b : Nat) : (s.setPort p x).tent b = s.tent b := rfl
@[simp] theorem setPort_read_cal (p : Nat) (x : Port) (b : Nat) : (s.setPort p x).cal b = s.cal b := rfl
@[simp] theorem setPort_read_staged (p : Nat) (x : Port) (b : Nat) : (s.setPort p x).staged b = s.staged b := rfl
@[simp] theorem setPort_read_sx (p : Nat) (x : Port) (b : Nat) : (s.setPort p x).sx b = s.sx b := rfl
@[simp] theorem setPort_read_sliver (p : Nat) (x : Port) (b : Nat) : (s.setPort p x).sliver b = s.sliver b := rfl
@[simp] theorem setPort_read_queued (p : Nat) (x : Port) (g : RecQueue) : (s.setPort p x).queued g = s.queued g := rfl

/-! ### `Box.setTent` -/

@[simp] theorem setTent_phase (t : Nat) (x : Tent) : (s.setTent t x).phase = s.phase := rfl
@[simp] theorem setTent_raw (t : Nat) (x : Tent) : (s.setTent t x).raw = s.raw := rfl
@[simp] theorem setTent_freeCtr (t : Nat) (x : Tent) : (s.setTent t x).freeCtr = s.freeCtr := rfl
@[simp] theorem setTent_outbox (t : Nat) (x : Tent) : (s.setTent t x).outbox = s.outbox := rfl
@[simp] theorem setTent_regs (t : Nat) (x : Tent) : (s.setTent t x).regs = s.regs := rfl
@[simp] theorem setTent_tabs (t : Nat) (x : Tent) : (s.setTent t x).tabs = s.tabs := rfl
@[simp] theorem setTent_ctrs (t : Nat) (x : Tent) : (s.setTent t x).ctrs = s.ctrs := rfl
@[simp] theorem setTent_shadows (t : Nat) (x : Tent) : (s.setTent t x).shadows = s.shadows := rfl
@[simp] theorem setTent_copying (t : Nat) (x : Tent) : (s.setTent t x).copying = s.copying := rfl
@[simp] theorem setTent_copyTick (t : Nat) (x : Tent) : (s.setTent t x).copyTick = s.copyTick := rfl
@[simp] theorem setTent_preClear (t : Nat) (x : Tent) : (s.setTent t x).preClear = s.preClear := rfl
@[simp] theorem setTent_clearAt (t : Nat) (x : Tent) : (s.setTent t x).clearAt = s.clearAt := rfl
@[simp] theorem setTent_snapWait (t : Nat) (x : Tent) : (s.setTent t x).snapWait = s.snapWait := rfl
@[simp] theorem setTent_snapHad (t : Nat) (x : Tent) : (s.setTent t x).snapHad = s.snapHad := rfl
@[simp] theorem setTent_hiLatch (t : Nat) (x : Tent) : (s.setTent t x).hiLatch = s.hiLatch := rfl
@[simp] theorem setTent_fa (t : Nat) (x : Tent) : (s.setTent t x).fa = s.fa := rfl
@[simp] theorem setTent_na (t : Nat) (x : Tent) : (s.setTent t x).na = s.na := rfl
@[simp] theorem setTent_rate (t : Nat) (x : Tent) : (s.setTent t x).rate = s.rate := rfl
@[simp] theorem setTent_repl (t : Nat) (x : Tent) : (s.setTent t x).repl = s.repl := rfl
@[simp] theorem setTent_ports (t : Nat) (x : Tent) : (s.setTent t x).ports = s.ports := rfl
@[simp] theorem setTent_tents (t : Nat) (x : Tent) : (s.setTent t x).tents = mapSet (fun _ => {}) s.tents t x := rfl
@[simp] theorem setTent_descs (t : Nat) (x : Tent) : (s.setTent t x).descs = s.descs := rfl
@[simp] theorem setTent_descId (t : Nat) (x : Tent) : (s.setTent t x).descId = s.descId := rfl
@[simp] theorem setTent_admits (t : Nat) (x : Tent) : (s.setTent t x).admits = s.admits := rfl
@[simp] theorem setTent_spills (t : Nat) (x : Tent) : (s.setTent t x).spills = s.spills := rfl
@[simp] theorem setTent_staging (t : Nat) (x : Tent) : (s.setTent t x).staging = s.staging := rfl
@[simp] theorem setTent_results (t : Nat) (x : Tent) : (s.setTent t x).results = s.results := rfl
@[simp] theorem setTent_fwdOp (t : Nat) (x : Tent) : (s.setTent t x).fwdOp = s.fwdOp := rfl
@[simp] theorem setTent_fwdSw (t : Nat) (x : Tent) : (s.setTent t x).fwdSw = s.fwdSw := rfl
@[simp] theorem setTent_notices (t : Nat) (x : Tent) : (s.setTent t x).notices = s.notices := rfl
@[simp] theorem setTent_mdw (t : Nat) (x : Tent) : (s.setTent t x).mdw = s.mdw := rfl
@[simp] theorem setTent_cals (t : Nat) (x : Tent) : (s.setTent t x).cals = s.cals := rfl
@[simp] theorem setTent_buckets (t : Nat) (x : Tent) : (s.setTent t x).buckets = s.buckets := rfl
@[simp] theorem setTent_backlog (t : Nat) (x : Tent) : (s.setTent t x).backlog = s.backlog := rfl
@[simp] theorem setTent_mem (t : Nat) (x : Tent) : (s.setTent t x).mem = s.mem := rfl
@[simp] theorem setTent_samplers (t : Nat) (x : Tent) : (s.setTent t x).samplers = s.samplers := rfl
@[simp] theorem setTent_smpq (t : Nat) (x : Tent) : (s.setTent t x).smpq = s.smpq := rfl
@[simp] theorem setTent_inbox (t : Nat) (x : Tent) : (s.setTent t x).inbox = s.inbox := rfl
@[simp] theorem setTent_qlens (t : Nat) (x : Tent) : (s.setTent t x).qlens = s.qlens := rfl
@[simp] theorem setTent_collector (t : Nat) (x : Tent) : (s.setTent t x).collector = s.collector := rfl
@[simp] theorem setTent_vc6Q (t : Nat) (x : Tent) : (s.setTent t x).vc6Q = s.vc6Q := rfl
@[simp] theorem setTent_bmtSecond (t : Nat) (x : Tent) : (s.setTent t x).bmtSecond = s.bmtSecond := rfl
@[simp] theorem setTent_portErrs (t : Nat) (x : Tent) : (s.setTent t x).portErrs = s.portErrs := rfl
@[simp] theorem setTent_slivers (t : Nat) (x : Tent) : (s.setTent t x).slivers = s.slivers := rfl
@[simp] theorem setTent_streams (t : Nat) (x : Tent) : (s.setTent t x).streams = s.streams := rfl
@[simp] theorem setTent_carOp (t : Nat) (x : Tent) : (s.setTent t x).carOp = s.carOp := rfl
@[simp] theorem setTent_bOpened (t : Nat) (x : Tent) : (s.setTent t x).bOpened = s.bOpened := rfl
@[simp] theorem setTent_resId (t : Nat) (x : Tent) : (s.setTent t x).resId = s.resId := rfl
@[simp] theorem setTent_replay (t : Nat) (x : Tent) : (s.setTent t x).replay = s.replay := rfl
@[simp] theorem setTent_kernels (t : Nat) (x : Tent) : (s.setTent t x).kernels = s.kernels := rfl
@[simp] theorem setTent_kpieces (t : Nat) (x : Tent) : (s.setTent t x).kpieces = s.kpieces := rfl
@[simp] theorem setTent_kop (t : Nat) (x : Tent) : (s.setTent t x).kop = s.kop := rfl
@[simp] theorem setTent_substs (t : Nat) (x : Tent) : (s.setTent t x).substs = s.substs := rfl
@[simp] theorem setTent_sealJobs (t : Nat) (x : Tent) : (s.setTent t x).sealJobs = s.sealJobs := rfl
@[simp] theorem setTent_sealQ (t : Nat) (x : Tent) : (s.setTent t x).sealQ = s.sealQ := rfl
@[simp] theorem setTent_sealLast (t : Nat) (x : Tent) : (s.setTent t x).sealLast = s.sealLast := rfl
@[simp] theorem setTent_sealSigned (t : Nat) (x : Tent) : (s.setTent t x).sealSigned = s.sealSigned := rfl
@[simp] theorem setTent_aliasKey (t : Nat) (x : Tent) : (s.setTent t x).aliasKey = s.aliasKey := rfl
@[simp] theorem setTent_aliasCert (t : Nat) (x : Tent) : (s.setTent t x).aliasCert = s.aliasCert := rfl
@[simp] theorem setTent_deviceKey (t : Nat) (x : Tent) : (s.setTent t x).deviceKey = s.deviceKey := rfl
@[simp] theorem setTent_udsLocked (t : Nat) (x : Tent) : (s.setTent t x).udsLocked = s.udsLocked := rfl
@[simp] theorem setTent_events (t : Nat) (x : Tent) : (s.setTent t x).events = s.events := rfl
@[simp] theorem setTent_spareQuar (t : Nat) (x : Tent) : (s.setTent t x).spareQuar = s.spareQuar := rfl
@[simp] theorem setTent_occs (t : Nat) (x : Tent) : (s.setTent t x).occs = s.occs := rfl
@[simp] theorem setTent_hot (t : Nat) (x : Tent) : (s.setTent t x).hot = s.hot := rfl
@[simp] theorem setTent_hotQ (t : Nat) (x : Tent) : (s.setTent t x).hotQ = s.hotQ := rfl
@[simp] theorem setTent_hintAt (t : Nat) (x : Tent) : (s.setTent t x).hintAt = s.hintAt := rfl
@[simp] theorem setTent_rings (t : Nat) (x : Tent) : (s.setTent t x).rings = s.rings := rfl
@[simp] theorem setTent_lasers (t : Nat) (x : Tent) : (s.setTent t x).lasers = s.lasers := rfl
@[simp] theorem setTent_lgroups (t : Nat) (x : Tent) : (s.setTent t x).lgroups = s.lgroups := rfl
@[simp] theorem setTent_engines (t : Nat) (x : Tent) : (s.setTent t x).engines = s.engines := rfl
@[simp] theorem setTent_aprs (t : Nat) (x : Tent) : (s.setTent t x).aprs = s.aprs := rfl
@[simp] theorem setTent_plans (t : Nat) (x : Tent) : (s.setTent t x).plans = s.plans := rfl
@[simp] theorem setTent_trained (t : Nat) (x : Tent) : (s.setTent t x).trained = s.trained := rfl
@[simp] theorem setTent_initing (t : Nat) (x : Tent) : (s.setTent t x).initing = s.initing := rfl
@[simp] theorem setTent_spares (t : Nat) (x : Tent) : (s.setTent t x).spares = s.spares := rfl
@[simp] theorem setTent_memKept (t : Nat) (x : Tent) : (s.setTent t x).memKept = s.memKept := rfl
@[simp] theorem setTent_hostReads (t : Nat) (x : Tent) : (s.setTent t x).hostReads = s.hostReads := rfl
@[simp] theorem setTent_badBlocks (t : Nat) (x : Tent) : (s.setTent t x).badBlocks = s.badBlocks := rfl
@[simp] theorem setTent_kernBad (t : Nat) (x : Tent) : (s.setTent t x).kernBad = s.kernBad := rfl
@[simp] theorem setTent_deadDevs (t : Nat) (x : Tent) : (s.setTent t x).deadDevs = s.deadDevs := rfl
@[simp] theorem setTent_applies (t : Nat) (x : Tent) : (s.setTent t x).applies = s.applies := rfl
@[simp] theorem setTent_servo (t : Nat) (x : Tent) : (s.setTent t x).servo = s.servo := rfl
@[simp] theorem setTent_ptps (t : Nat) (x : Tent) : (s.setTent t x).ptps = s.ptps := rfl
@[simp] theorem setTent_pins (t : Nat) (x : Tent) : (s.setTent t x).pins = s.pins := rfl
@[simp] theorem setTent_launches (t : Nat) (x : Tent) : (s.setTent t x).launches = s.launches := rfl
@[simp] theorem setTent_fuses (t : Nat) (x : Tent) : (s.setTent t x).fuses = s.fuses := rfl
@[simp] theorem setTent_fuseOp (t : Nat) (x : Tent) : (s.setTent t x).fuseOp = s.fuseOp := rfl
@[simp] theorem setTent_fuseRail (t : Nat) (x : Tent) : (s.setTent t x).fuseRail = s.fuseRail := rfl
@[simp] theorem setTent_flash (t : Nat) (x : Tent) : (s.setTent t x).flash = s.flash := rfl
@[simp] theorem setTent_image (t : Nat) (x : Tent) : (s.setTent t x).image = s.image := rfl
@[simp] theorem setTent_update (t : Nat) (x : Tent) : (s.setTent t x).update = s.update := rfl
@[simp] theorem setTent_resetReq (t : Nat) (x : Tent) : (s.setTent t x).resetReq = s.resetReq := rfl
@[simp] theorem setTent_pwrOk (t : Nat) (x : Tent) : (s.setTent t x).pwrOk = s.pwrOk := rfl
@[simp] theorem setTent_railsBad (t : Nat) (x : Tent) : (s.setTent t x).railsBad = s.railsBad := rfl
@[simp] theorem setTent_refLost (t : Nat) (x : Tent) : (s.setTent t x).refLost = s.refLost := rfl
@[simp] theorem setTent_straps (t : Nat) (x : Tent) : (s.setTent t x).straps = s.straps := rfl
@[simp] theorem setTent_memTemps (t : Nat) (x : Tent) : (s.setTent t x).memTemps = s.memTemps := rfl
@[simp] theorem setTent_tap (t : Nat) (x : Tent) : (s.setTent t x).tap = s.tap := rfl
@[simp] theorem setTent_alarm (t : Nat) (x : Tent) : (s.setTent t x).alarm = s.alarm := rfl
@[simp] theorem setTent_trip (t : Nat) (x : Tent) : (s.setTent t x).trip = s.trip := rfl
@[simp] theorem setTent_calShed (t : Nat) (x : Tent) : (s.setTent t x).calShed = s.calShed := rfl
@[simp] theorem setTent_cores (t : Nat) (x : Tent) : (s.setTent t x).cores = s.cores := rfl
@[simp] theorem setTent_dump (t : Nat) (x : Tent) : (s.setTent t x).dump = s.dump := rfl
@[simp] theorem setTent_sealHash (t : Nat) (x : Tent) : (s.setTent t x).sealHash = s.sealHash := rfl
@[simp] theorem setTent_wall (t : Nat) (x : Tent) : (s.setTent t x).wall = s.wall := rfl
@[simp] theorem setTent_cxlLog (t : Nat) (x : Tent) : (s.setTent t x).cxlLog = s.cxlLog := rfl
@[simp] theorem setTent_doeError (t : Nat) (x : Tent) : (s.setTent t x).doeError = s.doeError := rfl
@[simp] theorem setTent_doeBusy (t : Nat) (x : Tent) : (s.setTent t x).doeBusy = s.doeBusy := rfl
@[simp] theorem setTent_cfg (t : Nat) (x : Tent) : (s.setTent t x).cfg = s.cfg := rfl
@[simp] theorem setTent_cxlRegs (t : Nat) (x : Tent) : (s.setTent t x).cxlRegs = s.cxlRegs := rfl
@[simp] theorem setTent_ip (t : Nat) (x : Tent) : (s.setTent t x).ip = s.ip := rfl
@[simp] theorem setTent_ethSecond (t : Nat) (x : Tent) : (s.setTent t x).ethSecond = s.ethSecond := rfl
@[simp] theorem setTent_i3cAddr (t : Nat) (x : Tent) : (s.setTent t x).i3cAddr = s.i3cAddr := rfl
@[simp] theorem setTent_eid (t : Nat) (x : Tent) : (s.setTent t x).eid = s.eid := rfl
@[simp] theorem setTent_spdmDoe (t : Nat) (x : Tent) : (s.setTent t x).spdmDoe = s.spdmDoe := rfl
@[simp] theorem setTent_spdmMctp (t : Nat) (x : Tent) : (s.setTent t x).spdmMctp = s.spdmMctp := rfl
@[simp] theorem setTent_spdmSigs (t : Nat) (x : Tent) : (s.setTent t x).spdmSigs = s.spdmSigs := rfl
@[simp] theorem setTent_bar2 (t : Nat) (x : Tent) : (s.setTent t x).bar2 = s.bar2 := rfl
@[simp] theorem setTent_read_word (t : Nat) (x : Tent) (b : Nat) : (s.setTent t x).word b = s.word b := rfl
@[simp] theorem setTent_read_rd (t : Nat) (x : Tent) (g : Fld) : (s.setTent t x).rd g = s.rd g := rfl
@[simp] theorem setTent_read_is (t : Nat) (x : Tent) (g : Fld) : (s.setTent t x).is g = s.is g := rfl
@[simp] theorem setTent_read_tab (t : Nat) (x : Tent) (b : Nat) : (s.setTent t x).tab b = s.tab b := rfl
@[simp] theorem setTent_read_strm (t : Nat) (x : Tent) (b : Nat) : (s.setTent t x).strm b = s.strm b := rfl
@[simp] theorem setTent_read_grp (t : Nat) (x : Tent) (b : Nat) : (s.setTent t x).grp b = s.grp b := rfl
@[simp] theorem setTent_read_ctr (t : Nat) (x : Tent) (b i : Nat) : (s.setTent t x).ctr b i = s.ctr b i := rfl
@[simp] theorem setTent_read_port (t : Nat) (x : Tent) (b : Nat) : (s.setTent t x).port b = s.port b := rfl
@[simp] theorem setTent_read_cal (t : Nat) (x : Tent) (b : Nat) : (s.setTent t x).cal b = s.cal b := rfl
@[simp] theorem setTent_read_staged (t : Nat) (x : Tent) (b : Nat) : (s.setTent t x).staged b = s.staged b := rfl
@[simp] theorem setTent_read_sx (t : Nat) (x : Tent) (b : Nat) : (s.setTent t x).sx b = s.sx b := rfl
@[simp] theorem setTent_read_sliver (t : Nat) (x : Tent) (b : Nat) : (s.setTent t x).sliver b = s.sliver b := rfl
@[simp] theorem setTent_read_queued (t : Nat) (x : Tent) (g : RecQueue) : (s.setTent t x).queued g = s.queued g := rfl

/-! ### `Box.setCal` -/

@[simp] theorem setCal_phase (p : Nat) (x : Cal) : (s.setCal p x).phase = s.phase := rfl
@[simp] theorem setCal_raw (p : Nat) (x : Cal) : (s.setCal p x).raw = s.raw := rfl
@[simp] theorem setCal_freeCtr (p : Nat) (x : Cal) : (s.setCal p x).freeCtr = s.freeCtr := rfl
@[simp] theorem setCal_outbox (p : Nat) (x : Cal) : (s.setCal p x).outbox = s.outbox := rfl
@[simp] theorem setCal_regs (p : Nat) (x : Cal) : (s.setCal p x).regs = s.regs := rfl
@[simp] theorem setCal_tabs (p : Nat) (x : Cal) : (s.setCal p x).tabs = s.tabs := rfl
@[simp] theorem setCal_ctrs (p : Nat) (x : Cal) : (s.setCal p x).ctrs = s.ctrs := rfl
@[simp] theorem setCal_shadows (p : Nat) (x : Cal) : (s.setCal p x).shadows = s.shadows := rfl
@[simp] theorem setCal_copying (p : Nat) (x : Cal) : (s.setCal p x).copying = s.copying := rfl
@[simp] theorem setCal_copyTick (p : Nat) (x : Cal) : (s.setCal p x).copyTick = s.copyTick := rfl
@[simp] theorem setCal_preClear (p : Nat) (x : Cal) : (s.setCal p x).preClear = s.preClear := rfl
@[simp] theorem setCal_clearAt (p : Nat) (x : Cal) : (s.setCal p x).clearAt = s.clearAt := rfl
@[simp] theorem setCal_snapWait (p : Nat) (x : Cal) : (s.setCal p x).snapWait = s.snapWait := rfl
@[simp] theorem setCal_snapHad (p : Nat) (x : Cal) : (s.setCal p x).snapHad = s.snapHad := rfl
@[simp] theorem setCal_hiLatch (p : Nat) (x : Cal) : (s.setCal p x).hiLatch = s.hiLatch := rfl
@[simp] theorem setCal_fa (p : Nat) (x : Cal) : (s.setCal p x).fa = s.fa := rfl
@[simp] theorem setCal_na (p : Nat) (x : Cal) : (s.setCal p x).na = s.na := rfl
@[simp] theorem setCal_rate (p : Nat) (x : Cal) : (s.setCal p x).rate = s.rate := rfl
@[simp] theorem setCal_repl (p : Nat) (x : Cal) : (s.setCal p x).repl = s.repl := rfl
@[simp] theorem setCal_ports (p : Nat) (x : Cal) : (s.setCal p x).ports = s.ports := rfl
@[simp] theorem setCal_tents (p : Nat) (x : Cal) : (s.setCal p x).tents = s.tents := rfl
@[simp] theorem setCal_descs (p : Nat) (x : Cal) : (s.setCal p x).descs = s.descs := rfl
@[simp] theorem setCal_descId (p : Nat) (x : Cal) : (s.setCal p x).descId = s.descId := rfl
@[simp] theorem setCal_admits (p : Nat) (x : Cal) : (s.setCal p x).admits = s.admits := rfl
@[simp] theorem setCal_spills (p : Nat) (x : Cal) : (s.setCal p x).spills = s.spills := rfl
@[simp] theorem setCal_staging (p : Nat) (x : Cal) : (s.setCal p x).staging = s.staging := rfl
@[simp] theorem setCal_results (p : Nat) (x : Cal) : (s.setCal p x).results = s.results := rfl
@[simp] theorem setCal_fwdOp (p : Nat) (x : Cal) : (s.setCal p x).fwdOp = s.fwdOp := rfl
@[simp] theorem setCal_fwdSw (p : Nat) (x : Cal) : (s.setCal p x).fwdSw = s.fwdSw := rfl
@[simp] theorem setCal_notices (p : Nat) (x : Cal) : (s.setCal p x).notices = s.notices := rfl
@[simp] theorem setCal_mdw (p : Nat) (x : Cal) : (s.setCal p x).mdw = s.mdw := rfl
@[simp] theorem setCal_cals (p : Nat) (x : Cal) : (s.setCal p x).cals = mapSet (fun _ => {}) s.cals p x := rfl
@[simp] theorem setCal_buckets (p : Nat) (x : Cal) : (s.setCal p x).buckets = s.buckets := rfl
@[simp] theorem setCal_backlog (p : Nat) (x : Cal) : (s.setCal p x).backlog = s.backlog := rfl
@[simp] theorem setCal_mem (p : Nat) (x : Cal) : (s.setCal p x).mem = s.mem := rfl
@[simp] theorem setCal_samplers (p : Nat) (x : Cal) : (s.setCal p x).samplers = s.samplers := rfl
@[simp] theorem setCal_smpq (p : Nat) (x : Cal) : (s.setCal p x).smpq = s.smpq := rfl
@[simp] theorem setCal_inbox (p : Nat) (x : Cal) : (s.setCal p x).inbox = s.inbox := rfl
@[simp] theorem setCal_qlens (p : Nat) (x : Cal) : (s.setCal p x).qlens = s.qlens := rfl
@[simp] theorem setCal_collector (p : Nat) (x : Cal) : (s.setCal p x).collector = s.collector := rfl
@[simp] theorem setCal_vc6Q (p : Nat) (x : Cal) : (s.setCal p x).vc6Q = s.vc6Q := rfl
@[simp] theorem setCal_bmtSecond (p : Nat) (x : Cal) : (s.setCal p x).bmtSecond = s.bmtSecond := rfl
@[simp] theorem setCal_portErrs (p : Nat) (x : Cal) : (s.setCal p x).portErrs = s.portErrs := rfl
@[simp] theorem setCal_slivers (p : Nat) (x : Cal) : (s.setCal p x).slivers = s.slivers := rfl
@[simp] theorem setCal_streams (p : Nat) (x : Cal) : (s.setCal p x).streams = s.streams := rfl
@[simp] theorem setCal_carOp (p : Nat) (x : Cal) : (s.setCal p x).carOp = s.carOp := rfl
@[simp] theorem setCal_bOpened (p : Nat) (x : Cal) : (s.setCal p x).bOpened = s.bOpened := rfl
@[simp] theorem setCal_resId (p : Nat) (x : Cal) : (s.setCal p x).resId = s.resId := rfl
@[simp] theorem setCal_replay (p : Nat) (x : Cal) : (s.setCal p x).replay = s.replay := rfl
@[simp] theorem setCal_kernels (p : Nat) (x : Cal) : (s.setCal p x).kernels = s.kernels := rfl
@[simp] theorem setCal_kpieces (p : Nat) (x : Cal) : (s.setCal p x).kpieces = s.kpieces := rfl
@[simp] theorem setCal_kop (p : Nat) (x : Cal) : (s.setCal p x).kop = s.kop := rfl
@[simp] theorem setCal_substs (p : Nat) (x : Cal) : (s.setCal p x).substs = s.substs := rfl
@[simp] theorem setCal_sealJobs (p : Nat) (x : Cal) : (s.setCal p x).sealJobs = s.sealJobs := rfl
@[simp] theorem setCal_sealQ (p : Nat) (x : Cal) : (s.setCal p x).sealQ = s.sealQ := rfl
@[simp] theorem setCal_sealLast (p : Nat) (x : Cal) : (s.setCal p x).sealLast = s.sealLast := rfl
@[simp] theorem setCal_sealSigned (p : Nat) (x : Cal) : (s.setCal p x).sealSigned = s.sealSigned := rfl
@[simp] theorem setCal_aliasKey (p : Nat) (x : Cal) : (s.setCal p x).aliasKey = s.aliasKey := rfl
@[simp] theorem setCal_aliasCert (p : Nat) (x : Cal) : (s.setCal p x).aliasCert = s.aliasCert := rfl
@[simp] theorem setCal_deviceKey (p : Nat) (x : Cal) : (s.setCal p x).deviceKey = s.deviceKey := rfl
@[simp] theorem setCal_udsLocked (p : Nat) (x : Cal) : (s.setCal p x).udsLocked = s.udsLocked := rfl
@[simp] theorem setCal_events (p : Nat) (x : Cal) : (s.setCal p x).events = s.events := rfl
@[simp] theorem setCal_spareQuar (p : Nat) (x : Cal) : (s.setCal p x).spareQuar = s.spareQuar := rfl
@[simp] theorem setCal_occs (p : Nat) (x : Cal) : (s.setCal p x).occs = s.occs := rfl
@[simp] theorem setCal_hot (p : Nat) (x : Cal) : (s.setCal p x).hot = s.hot := rfl
@[simp] theorem setCal_hotQ (p : Nat) (x : Cal) : (s.setCal p x).hotQ = s.hotQ := rfl
@[simp] theorem setCal_hintAt (p : Nat) (x : Cal) : (s.setCal p x).hintAt = s.hintAt := rfl
@[simp] theorem setCal_rings (p : Nat) (x : Cal) : (s.setCal p x).rings = s.rings := rfl
@[simp] theorem setCal_lasers (p : Nat) (x : Cal) : (s.setCal p x).lasers = s.lasers := rfl
@[simp] theorem setCal_lgroups (p : Nat) (x : Cal) : (s.setCal p x).lgroups = s.lgroups := rfl
@[simp] theorem setCal_engines (p : Nat) (x : Cal) : (s.setCal p x).engines = s.engines := rfl
@[simp] theorem setCal_aprs (p : Nat) (x : Cal) : (s.setCal p x).aprs = s.aprs := rfl
@[simp] theorem setCal_plans (p : Nat) (x : Cal) : (s.setCal p x).plans = s.plans := rfl
@[simp] theorem setCal_trained (p : Nat) (x : Cal) : (s.setCal p x).trained = s.trained := rfl
@[simp] theorem setCal_initing (p : Nat) (x : Cal) : (s.setCal p x).initing = s.initing := rfl
@[simp] theorem setCal_spares (p : Nat) (x : Cal) : (s.setCal p x).spares = s.spares := rfl
@[simp] theorem setCal_memKept (p : Nat) (x : Cal) : (s.setCal p x).memKept = s.memKept := rfl
@[simp] theorem setCal_hostReads (p : Nat) (x : Cal) : (s.setCal p x).hostReads = s.hostReads := rfl
@[simp] theorem setCal_badBlocks (p : Nat) (x : Cal) : (s.setCal p x).badBlocks = s.badBlocks := rfl
@[simp] theorem setCal_kernBad (p : Nat) (x : Cal) : (s.setCal p x).kernBad = s.kernBad := rfl
@[simp] theorem setCal_deadDevs (p : Nat) (x : Cal) : (s.setCal p x).deadDevs = s.deadDevs := rfl
@[simp] theorem setCal_applies (p : Nat) (x : Cal) : (s.setCal p x).applies = s.applies := rfl
@[simp] theorem setCal_servo (p : Nat) (x : Cal) : (s.setCal p x).servo = s.servo := rfl
@[simp] theorem setCal_ptps (p : Nat) (x : Cal) : (s.setCal p x).ptps = s.ptps := rfl
@[simp] theorem setCal_pins (p : Nat) (x : Cal) : (s.setCal p x).pins = s.pins := rfl
@[simp] theorem setCal_launches (p : Nat) (x : Cal) : (s.setCal p x).launches = s.launches := rfl
@[simp] theorem setCal_fuses (p : Nat) (x : Cal) : (s.setCal p x).fuses = s.fuses := rfl
@[simp] theorem setCal_fuseOp (p : Nat) (x : Cal) : (s.setCal p x).fuseOp = s.fuseOp := rfl
@[simp] theorem setCal_fuseRail (p : Nat) (x : Cal) : (s.setCal p x).fuseRail = s.fuseRail := rfl
@[simp] theorem setCal_flash (p : Nat) (x : Cal) : (s.setCal p x).flash = s.flash := rfl
@[simp] theorem setCal_image (p : Nat) (x : Cal) : (s.setCal p x).image = s.image := rfl
@[simp] theorem setCal_update (p : Nat) (x : Cal) : (s.setCal p x).update = s.update := rfl
@[simp] theorem setCal_resetReq (p : Nat) (x : Cal) : (s.setCal p x).resetReq = s.resetReq := rfl
@[simp] theorem setCal_pwrOk (p : Nat) (x : Cal) : (s.setCal p x).pwrOk = s.pwrOk := rfl
@[simp] theorem setCal_railsBad (p : Nat) (x : Cal) : (s.setCal p x).railsBad = s.railsBad := rfl
@[simp] theorem setCal_refLost (p : Nat) (x : Cal) : (s.setCal p x).refLost = s.refLost := rfl
@[simp] theorem setCal_straps (p : Nat) (x : Cal) : (s.setCal p x).straps = s.straps := rfl
@[simp] theorem setCal_memTemps (p : Nat) (x : Cal) : (s.setCal p x).memTemps = s.memTemps := rfl
@[simp] theorem setCal_tap (p : Nat) (x : Cal) : (s.setCal p x).tap = s.tap := rfl
@[simp] theorem setCal_alarm (p : Nat) (x : Cal) : (s.setCal p x).alarm = s.alarm := rfl
@[simp] theorem setCal_trip (p : Nat) (x : Cal) : (s.setCal p x).trip = s.trip := rfl
@[simp] theorem setCal_calShed (p : Nat) (x : Cal) : (s.setCal p x).calShed = s.calShed := rfl
@[simp] theorem setCal_cores (p : Nat) (x : Cal) : (s.setCal p x).cores = s.cores := rfl
@[simp] theorem setCal_dump (p : Nat) (x : Cal) : (s.setCal p x).dump = s.dump := rfl
@[simp] theorem setCal_sealHash (p : Nat) (x : Cal) : (s.setCal p x).sealHash = s.sealHash := rfl
@[simp] theorem setCal_wall (p : Nat) (x : Cal) : (s.setCal p x).wall = s.wall := rfl
@[simp] theorem setCal_cxlLog (p : Nat) (x : Cal) : (s.setCal p x).cxlLog = s.cxlLog := rfl
@[simp] theorem setCal_doeError (p : Nat) (x : Cal) : (s.setCal p x).doeError = s.doeError := rfl
@[simp] theorem setCal_doeBusy (p : Nat) (x : Cal) : (s.setCal p x).doeBusy = s.doeBusy := rfl
@[simp] theorem setCal_cfg (p : Nat) (x : Cal) : (s.setCal p x).cfg = s.cfg := rfl
@[simp] theorem setCal_cxlRegs (p : Nat) (x : Cal) : (s.setCal p x).cxlRegs = s.cxlRegs := rfl
@[simp] theorem setCal_ip (p : Nat) (x : Cal) : (s.setCal p x).ip = s.ip := rfl
@[simp] theorem setCal_ethSecond (p : Nat) (x : Cal) : (s.setCal p x).ethSecond = s.ethSecond := rfl
@[simp] theorem setCal_i3cAddr (p : Nat) (x : Cal) : (s.setCal p x).i3cAddr = s.i3cAddr := rfl
@[simp] theorem setCal_eid (p : Nat) (x : Cal) : (s.setCal p x).eid = s.eid := rfl
@[simp] theorem setCal_spdmDoe (p : Nat) (x : Cal) : (s.setCal p x).spdmDoe = s.spdmDoe := rfl
@[simp] theorem setCal_spdmMctp (p : Nat) (x : Cal) : (s.setCal p x).spdmMctp = s.spdmMctp := rfl
@[simp] theorem setCal_spdmSigs (p : Nat) (x : Cal) : (s.setCal p x).spdmSigs = s.spdmSigs := rfl
@[simp] theorem setCal_bar2 (p : Nat) (x : Cal) : (s.setCal p x).bar2 = s.bar2 := rfl
@[simp] theorem setCal_read_word (p : Nat) (x : Cal) (b : Nat) : (s.setCal p x).word b = s.word b := rfl
@[simp] theorem setCal_read_rd (p : Nat) (x : Cal) (g : Fld) : (s.setCal p x).rd g = s.rd g := rfl
@[simp] theorem setCal_read_is (p : Nat) (x : Cal) (g : Fld) : (s.setCal p x).is g = s.is g := rfl
@[simp] theorem setCal_read_tab (p : Nat) (x : Cal) (b : Nat) : (s.setCal p x).tab b = s.tab b := rfl
@[simp] theorem setCal_read_strm (p : Nat) (x : Cal) (b : Nat) : (s.setCal p x).strm b = s.strm b := rfl
@[simp] theorem setCal_read_grp (p : Nat) (x : Cal) (b : Nat) : (s.setCal p x).grp b = s.grp b := rfl
@[simp] theorem setCal_read_ctr (p : Nat) (x : Cal) (b i : Nat) : (s.setCal p x).ctr b i = s.ctr b i := rfl
@[simp] theorem setCal_read_port (p : Nat) (x : Cal) (b : Nat) : (s.setCal p x).port b = s.port b := rfl
@[simp] theorem setCal_read_tent (p : Nat) (x : Cal) (b : Nat) : (s.setCal p x).tent b = s.tent b := rfl
@[simp] theorem setCal_read_staged (p : Nat) (x : Cal) (b : Nat) : (s.setCal p x).staged b = s.staged b := rfl
@[simp] theorem setCal_read_sx (p : Nat) (x : Cal) (b : Nat) : (s.setCal p x).sx b = s.sx b := rfl
@[simp] theorem setCal_read_sliver (p : Nat) (x : Cal) (b : Nat) : (s.setCal p x).sliver b = s.sliver b := rfl
@[simp] theorem setCal_read_queued (p : Nat) (x : Cal) (g : RecQueue) : (s.setCal p x).queued g = s.queued g := rfl

/-! ### `Box.setStaged` -/

@[simp] theorem setStaged_phase (k : Nat) (x : List Staged) : (s.setStaged k x).phase = s.phase := rfl
@[simp] theorem setStaged_raw (k : Nat) (x : List Staged) : (s.setStaged k x).raw = s.raw := rfl
@[simp] theorem setStaged_freeCtr (k : Nat) (x : List Staged) : (s.setStaged k x).freeCtr = s.freeCtr := rfl
@[simp] theorem setStaged_outbox (k : Nat) (x : List Staged) : (s.setStaged k x).outbox = s.outbox := rfl
@[simp] theorem setStaged_regs (k : Nat) (x : List Staged) : (s.setStaged k x).regs = s.regs := rfl
@[simp] theorem setStaged_tabs (k : Nat) (x : List Staged) : (s.setStaged k x).tabs = s.tabs := rfl
@[simp] theorem setStaged_ctrs (k : Nat) (x : List Staged) : (s.setStaged k x).ctrs = s.ctrs := rfl
@[simp] theorem setStaged_shadows (k : Nat) (x : List Staged) : (s.setStaged k x).shadows = s.shadows := rfl
@[simp] theorem setStaged_copying (k : Nat) (x : List Staged) : (s.setStaged k x).copying = s.copying := rfl
@[simp] theorem setStaged_copyTick (k : Nat) (x : List Staged) : (s.setStaged k x).copyTick = s.copyTick := rfl
@[simp] theorem setStaged_preClear (k : Nat) (x : List Staged) : (s.setStaged k x).preClear = s.preClear := rfl
@[simp] theorem setStaged_clearAt (k : Nat) (x : List Staged) : (s.setStaged k x).clearAt = s.clearAt := rfl
@[simp] theorem setStaged_snapWait (k : Nat) (x : List Staged) : (s.setStaged k x).snapWait = s.snapWait := rfl
@[simp] theorem setStaged_snapHad (k : Nat) (x : List Staged) : (s.setStaged k x).snapHad = s.snapHad := rfl
@[simp] theorem setStaged_hiLatch (k : Nat) (x : List Staged) : (s.setStaged k x).hiLatch = s.hiLatch := rfl
@[simp] theorem setStaged_fa (k : Nat) (x : List Staged) : (s.setStaged k x).fa = s.fa := rfl
@[simp] theorem setStaged_na (k : Nat) (x : List Staged) : (s.setStaged k x).na = s.na := rfl
@[simp] theorem setStaged_rate (k : Nat) (x : List Staged) : (s.setStaged k x).rate = s.rate := rfl
@[simp] theorem setStaged_repl (k : Nat) (x : List Staged) : (s.setStaged k x).repl = s.repl := rfl
@[simp] theorem setStaged_ports (k : Nat) (x : List Staged) : (s.setStaged k x).ports = s.ports := rfl
@[simp] theorem setStaged_tents (k : Nat) (x : List Staged) : (s.setStaged k x).tents = s.tents := rfl
@[simp] theorem setStaged_descs (k : Nat) (x : List Staged) : (s.setStaged k x).descs = s.descs := rfl
@[simp] theorem setStaged_descId (k : Nat) (x : List Staged) : (s.setStaged k x).descId = s.descId := rfl
@[simp] theorem setStaged_admits (k : Nat) (x : List Staged) : (s.setStaged k x).admits = s.admits := rfl
@[simp] theorem setStaged_spills (k : Nat) (x : List Staged) : (s.setStaged k x).spills = s.spills := rfl
@[simp] theorem setStaged_staging (k : Nat) (x : List Staged) : (s.setStaged k x).staging = mapSet (fun _ => []) s.staging k x := rfl
@[simp] theorem setStaged_results (k : Nat) (x : List Staged) : (s.setStaged k x).results = s.results := rfl
@[simp] theorem setStaged_fwdOp (k : Nat) (x : List Staged) : (s.setStaged k x).fwdOp = s.fwdOp := rfl
@[simp] theorem setStaged_fwdSw (k : Nat) (x : List Staged) : (s.setStaged k x).fwdSw = s.fwdSw := rfl
@[simp] theorem setStaged_notices (k : Nat) (x : List Staged) : (s.setStaged k x).notices = s.notices := rfl
@[simp] theorem setStaged_mdw (k : Nat) (x : List Staged) : (s.setStaged k x).mdw = s.mdw := rfl
@[simp] theorem setStaged_cals (k : Nat) (x : List Staged) : (s.setStaged k x).cals = s.cals := rfl
@[simp] theorem setStaged_buckets (k : Nat) (x : List Staged) : (s.setStaged k x).buckets = s.buckets := rfl
@[simp] theorem setStaged_backlog (k : Nat) (x : List Staged) : (s.setStaged k x).backlog = s.backlog := rfl
@[simp] theorem setStaged_mem (k : Nat) (x : List Staged) : (s.setStaged k x).mem = s.mem := rfl
@[simp] theorem setStaged_samplers (k : Nat) (x : List Staged) : (s.setStaged k x).samplers = s.samplers := rfl
@[simp] theorem setStaged_smpq (k : Nat) (x : List Staged) : (s.setStaged k x).smpq = s.smpq := rfl
@[simp] theorem setStaged_inbox (k : Nat) (x : List Staged) : (s.setStaged k x).inbox = s.inbox := rfl
@[simp] theorem setStaged_qlens (k : Nat) (x : List Staged) : (s.setStaged k x).qlens = s.qlens := rfl
@[simp] theorem setStaged_collector (k : Nat) (x : List Staged) : (s.setStaged k x).collector = s.collector := rfl
@[simp] theorem setStaged_vc6Q (k : Nat) (x : List Staged) : (s.setStaged k x).vc6Q = s.vc6Q := rfl
@[simp] theorem setStaged_bmtSecond (k : Nat) (x : List Staged) : (s.setStaged k x).bmtSecond = s.bmtSecond := rfl
@[simp] theorem setStaged_portErrs (k : Nat) (x : List Staged) : (s.setStaged k x).portErrs = s.portErrs := rfl
@[simp] theorem setStaged_slivers (k : Nat) (x : List Staged) : (s.setStaged k x).slivers = s.slivers := rfl
@[simp] theorem setStaged_streams (k : Nat) (x : List Staged) : (s.setStaged k x).streams = s.streams := rfl
@[simp] theorem setStaged_carOp (k : Nat) (x : List Staged) : (s.setStaged k x).carOp = s.carOp := rfl
@[simp] theorem setStaged_bOpened (k : Nat) (x : List Staged) : (s.setStaged k x).bOpened = s.bOpened := rfl
@[simp] theorem setStaged_resId (k : Nat) (x : List Staged) : (s.setStaged k x).resId = s.resId := rfl
@[simp] theorem setStaged_replay (k : Nat) (x : List Staged) : (s.setStaged k x).replay = s.replay := rfl
@[simp] theorem setStaged_kernels (k : Nat) (x : List Staged) : (s.setStaged k x).kernels = s.kernels := rfl
@[simp] theorem setStaged_kpieces (k : Nat) (x : List Staged) : (s.setStaged k x).kpieces = s.kpieces := rfl
@[simp] theorem setStaged_kop (k : Nat) (x : List Staged) : (s.setStaged k x).kop = s.kop := rfl
@[simp] theorem setStaged_substs (k : Nat) (x : List Staged) : (s.setStaged k x).substs = s.substs := rfl
@[simp] theorem setStaged_sealJobs (k : Nat) (x : List Staged) : (s.setStaged k x).sealJobs = s.sealJobs := rfl
@[simp] theorem setStaged_sealQ (k : Nat) (x : List Staged) : (s.setStaged k x).sealQ = s.sealQ := rfl
@[simp] theorem setStaged_sealLast (k : Nat) (x : List Staged) : (s.setStaged k x).sealLast = s.sealLast := rfl
@[simp] theorem setStaged_sealSigned (k : Nat) (x : List Staged) : (s.setStaged k x).sealSigned = s.sealSigned := rfl
@[simp] theorem setStaged_aliasKey (k : Nat) (x : List Staged) : (s.setStaged k x).aliasKey = s.aliasKey := rfl
@[simp] theorem setStaged_aliasCert (k : Nat) (x : List Staged) : (s.setStaged k x).aliasCert = s.aliasCert := rfl
@[simp] theorem setStaged_deviceKey (k : Nat) (x : List Staged) : (s.setStaged k x).deviceKey = s.deviceKey := rfl
@[simp] theorem setStaged_udsLocked (k : Nat) (x : List Staged) : (s.setStaged k x).udsLocked = s.udsLocked := rfl
@[simp] theorem setStaged_events (k : Nat) (x : List Staged) : (s.setStaged k x).events = s.events := rfl
@[simp] theorem setStaged_spareQuar (k : Nat) (x : List Staged) : (s.setStaged k x).spareQuar = s.spareQuar := rfl
@[simp] theorem setStaged_occs (k : Nat) (x : List Staged) : (s.setStaged k x).occs = s.occs := rfl
@[simp] theorem setStaged_hot (k : Nat) (x : List Staged) : (s.setStaged k x).hot = s.hot := rfl
@[simp] theorem setStaged_hotQ (k : Nat) (x : List Staged) : (s.setStaged k x).hotQ = s.hotQ := rfl
@[simp] theorem setStaged_hintAt (k : Nat) (x : List Staged) : (s.setStaged k x).hintAt = s.hintAt := rfl
@[simp] theorem setStaged_rings (k : Nat) (x : List Staged) : (s.setStaged k x).rings = s.rings := rfl
@[simp] theorem setStaged_lasers (k : Nat) (x : List Staged) : (s.setStaged k x).lasers = s.lasers := rfl
@[simp] theorem setStaged_lgroups (k : Nat) (x : List Staged) : (s.setStaged k x).lgroups = s.lgroups := rfl
@[simp] theorem setStaged_engines (k : Nat) (x : List Staged) : (s.setStaged k x).engines = s.engines := rfl
@[simp] theorem setStaged_aprs (k : Nat) (x : List Staged) : (s.setStaged k x).aprs = s.aprs := rfl
@[simp] theorem setStaged_plans (k : Nat) (x : List Staged) : (s.setStaged k x).plans = s.plans := rfl
@[simp] theorem setStaged_trained (k : Nat) (x : List Staged) : (s.setStaged k x).trained = s.trained := rfl
@[simp] theorem setStaged_initing (k : Nat) (x : List Staged) : (s.setStaged k x).initing = s.initing := rfl
@[simp] theorem setStaged_spares (k : Nat) (x : List Staged) : (s.setStaged k x).spares = s.spares := rfl
@[simp] theorem setStaged_memKept (k : Nat) (x : List Staged) : (s.setStaged k x).memKept = s.memKept := rfl
@[simp] theorem setStaged_hostReads (k : Nat) (x : List Staged) : (s.setStaged k x).hostReads = s.hostReads := rfl
@[simp] theorem setStaged_badBlocks (k : Nat) (x : List Staged) : (s.setStaged k x).badBlocks = s.badBlocks := rfl
@[simp] theorem setStaged_kernBad (k : Nat) (x : List Staged) : (s.setStaged k x).kernBad = s.kernBad := rfl
@[simp] theorem setStaged_deadDevs (k : Nat) (x : List Staged) : (s.setStaged k x).deadDevs = s.deadDevs := rfl
@[simp] theorem setStaged_applies (k : Nat) (x : List Staged) : (s.setStaged k x).applies = s.applies := rfl
@[simp] theorem setStaged_servo (k : Nat) (x : List Staged) : (s.setStaged k x).servo = s.servo := rfl
@[simp] theorem setStaged_ptps (k : Nat) (x : List Staged) : (s.setStaged k x).ptps = s.ptps := rfl
@[simp] theorem setStaged_pins (k : Nat) (x : List Staged) : (s.setStaged k x).pins = s.pins := rfl
@[simp] theorem setStaged_launches (k : Nat) (x : List Staged) : (s.setStaged k x).launches = s.launches := rfl
@[simp] theorem setStaged_fuses (k : Nat) (x : List Staged) : (s.setStaged k x).fuses = s.fuses := rfl
@[simp] theorem setStaged_fuseOp (k : Nat) (x : List Staged) : (s.setStaged k x).fuseOp = s.fuseOp := rfl
@[simp] theorem setStaged_fuseRail (k : Nat) (x : List Staged) : (s.setStaged k x).fuseRail = s.fuseRail := rfl
@[simp] theorem setStaged_flash (k : Nat) (x : List Staged) : (s.setStaged k x).flash = s.flash := rfl
@[simp] theorem setStaged_image (k : Nat) (x : List Staged) : (s.setStaged k x).image = s.image := rfl
@[simp] theorem setStaged_update (k : Nat) (x : List Staged) : (s.setStaged k x).update = s.update := rfl
@[simp] theorem setStaged_resetReq (k : Nat) (x : List Staged) : (s.setStaged k x).resetReq = s.resetReq := rfl
@[simp] theorem setStaged_pwrOk (k : Nat) (x : List Staged) : (s.setStaged k x).pwrOk = s.pwrOk := rfl
@[simp] theorem setStaged_railsBad (k : Nat) (x : List Staged) : (s.setStaged k x).railsBad = s.railsBad := rfl
@[simp] theorem setStaged_refLost (k : Nat) (x : List Staged) : (s.setStaged k x).refLost = s.refLost := rfl
@[simp] theorem setStaged_straps (k : Nat) (x : List Staged) : (s.setStaged k x).straps = s.straps := rfl
@[simp] theorem setStaged_memTemps (k : Nat) (x : List Staged) : (s.setStaged k x).memTemps = s.memTemps := rfl
@[simp] theorem setStaged_tap (k : Nat) (x : List Staged) : (s.setStaged k x).tap = s.tap := rfl
@[simp] theorem setStaged_alarm (k : Nat) (x : List Staged) : (s.setStaged k x).alarm = s.alarm := rfl
@[simp] theorem setStaged_trip (k : Nat) (x : List Staged) : (s.setStaged k x).trip = s.trip := rfl
@[simp] theorem setStaged_calShed (k : Nat) (x : List Staged) : (s.setStaged k x).calShed = s.calShed := rfl
@[simp] theorem setStaged_cores (k : Nat) (x : List Staged) : (s.setStaged k x).cores = s.cores := rfl
@[simp] theorem setStaged_dump (k : Nat) (x : List Staged) : (s.setStaged k x).dump = s.dump := rfl
@[simp] theorem setStaged_sealHash (k : Nat) (x : List Staged) : (s.setStaged k x).sealHash = s.sealHash := rfl
@[simp] theorem setStaged_wall (k : Nat) (x : List Staged) : (s.setStaged k x).wall = s.wall := rfl
@[simp] theorem setStaged_cxlLog (k : Nat) (x : List Staged) : (s.setStaged k x).cxlLog = s.cxlLog := rfl
@[simp] theorem setStaged_doeError (k : Nat) (x : List Staged) : (s.setStaged k x).doeError = s.doeError := rfl
@[simp] theorem setStaged_doeBusy (k : Nat) (x : List Staged) : (s.setStaged k x).doeBusy = s.doeBusy := rfl
@[simp] theorem setStaged_cfg (k : Nat) (x : List Staged) : (s.setStaged k x).cfg = s.cfg := rfl
@[simp] theorem setStaged_cxlRegs (k : Nat) (x : List Staged) : (s.setStaged k x).cxlRegs = s.cxlRegs := rfl
@[simp] theorem setStaged_ip (k : Nat) (x : List Staged) : (s.setStaged k x).ip = s.ip := rfl
@[simp] theorem setStaged_ethSecond (k : Nat) (x : List Staged) : (s.setStaged k x).ethSecond = s.ethSecond := rfl
@[simp] theorem setStaged_i3cAddr (k : Nat) (x : List Staged) : (s.setStaged k x).i3cAddr = s.i3cAddr := rfl
@[simp] theorem setStaged_eid (k : Nat) (x : List Staged) : (s.setStaged k x).eid = s.eid := rfl
@[simp] theorem setStaged_spdmDoe (k : Nat) (x : List Staged) : (s.setStaged k x).spdmDoe = s.spdmDoe := rfl
@[simp] theorem setStaged_spdmMctp (k : Nat) (x : List Staged) : (s.setStaged k x).spdmMctp = s.spdmMctp := rfl
@[simp] theorem setStaged_spdmSigs (k : Nat) (x : List Staged) : (s.setStaged k x).spdmSigs = s.spdmSigs := rfl
@[simp] theorem setStaged_bar2 (k : Nat) (x : List Staged) : (s.setStaged k x).bar2 = s.bar2 := rfl
@[simp] theorem setStaged_read_word (k : Nat) (x : List Staged) (b : Nat) : (s.setStaged k x).word b = s.word b := rfl
@[simp] theorem setStaged_read_rd (k : Nat) (x : List Staged) (g : Fld) : (s.setStaged k x).rd g = s.rd g := rfl
@[simp] theorem setStaged_read_is (k : Nat) (x : List Staged) (g : Fld) : (s.setStaged k x).is g = s.is g := rfl
@[simp] theorem setStaged_read_tab (k : Nat) (x : List Staged) (b : Nat) : (s.setStaged k x).tab b = s.tab b := rfl
@[simp] theorem setStaged_read_strm (k : Nat) (x : List Staged) (b : Nat) : (s.setStaged k x).strm b = s.strm b := rfl
@[simp] theorem setStaged_read_grp (k : Nat) (x : List Staged) (b : Nat) : (s.setStaged k x).grp b = s.grp b := rfl
@[simp] theorem setStaged_read_ctr (k : Nat) (x : List Staged) (b i : Nat) : (s.setStaged k x).ctr b i = s.ctr b i := rfl
@[simp] theorem setStaged_read_port (k : Nat) (x : List Staged) (b : Nat) : (s.setStaged k x).port b = s.port b := rfl
@[simp] theorem setStaged_read_tent (k : Nat) (x : List Staged) (b : Nat) : (s.setStaged k x).tent b = s.tent b := rfl
@[simp] theorem setStaged_read_cal (k : Nat) (x : List Staged) (b : Nat) : (s.setStaged k x).cal b = s.cal b := rfl
@[simp] theorem setStaged_read_sx (k : Nat) (x : List Staged) (b : Nat) : (s.setStaged k x).sx b = s.sx b := rfl
@[simp] theorem setStaged_read_sliver (k : Nat) (x : List Staged) (b : Nat) : (s.setStaged k x).sliver b = s.sliver b := rfl
@[simp] theorem setStaged_read_queued (k : Nat) (x : List Staged) (g : RecQueue) : (s.setStaged k x).queued g = s.queued g := rfl

/-! ### `Box.setSx` -/

@[simp] theorem setSx_phase (st : Nat) (x : StreamX) : (s.setSx st x).phase = s.phase := rfl
@[simp] theorem setSx_raw (st : Nat) (x : StreamX) : (s.setSx st x).raw = s.raw := rfl
@[simp] theorem setSx_freeCtr (st : Nat) (x : StreamX) : (s.setSx st x).freeCtr = s.freeCtr := rfl
@[simp] theorem setSx_outbox (st : Nat) (x : StreamX) : (s.setSx st x).outbox = s.outbox := rfl
@[simp] theorem setSx_regs (st : Nat) (x : StreamX) : (s.setSx st x).regs = s.regs := rfl
@[simp] theorem setSx_tabs (st : Nat) (x : StreamX) : (s.setSx st x).tabs = s.tabs := rfl
@[simp] theorem setSx_ctrs (st : Nat) (x : StreamX) : (s.setSx st x).ctrs = s.ctrs := rfl
@[simp] theorem setSx_shadows (st : Nat) (x : StreamX) : (s.setSx st x).shadows = s.shadows := rfl
@[simp] theorem setSx_copying (st : Nat) (x : StreamX) : (s.setSx st x).copying = s.copying := rfl
@[simp] theorem setSx_copyTick (st : Nat) (x : StreamX) : (s.setSx st x).copyTick = s.copyTick := rfl
@[simp] theorem setSx_preClear (st : Nat) (x : StreamX) : (s.setSx st x).preClear = s.preClear := rfl
@[simp] theorem setSx_clearAt (st : Nat) (x : StreamX) : (s.setSx st x).clearAt = s.clearAt := rfl
@[simp] theorem setSx_snapWait (st : Nat) (x : StreamX) : (s.setSx st x).snapWait = s.snapWait := rfl
@[simp] theorem setSx_snapHad (st : Nat) (x : StreamX) : (s.setSx st x).snapHad = s.snapHad := rfl
@[simp] theorem setSx_hiLatch (st : Nat) (x : StreamX) : (s.setSx st x).hiLatch = s.hiLatch := rfl
@[simp] theorem setSx_fa (st : Nat) (x : StreamX) : (s.setSx st x).fa = s.fa := rfl
@[simp] theorem setSx_na (st : Nat) (x : StreamX) : (s.setSx st x).na = s.na := rfl
@[simp] theorem setSx_rate (st : Nat) (x : StreamX) : (s.setSx st x).rate = s.rate := rfl
@[simp] theorem setSx_repl (st : Nat) (x : StreamX) : (s.setSx st x).repl = s.repl := rfl
@[simp] theorem setSx_ports (st : Nat) (x : StreamX) : (s.setSx st x).ports = s.ports := rfl
@[simp] theorem setSx_tents (st : Nat) (x : StreamX) : (s.setSx st x).tents = s.tents := rfl
@[simp] theorem setSx_descs (st : Nat) (x : StreamX) : (s.setSx st x).descs = s.descs := rfl
@[simp] theorem setSx_descId (st : Nat) (x : StreamX) : (s.setSx st x).descId = s.descId := rfl
@[simp] theorem setSx_admits (st : Nat) (x : StreamX) : (s.setSx st x).admits = s.admits := rfl
@[simp] theorem setSx_spills (st : Nat) (x : StreamX) : (s.setSx st x).spills = s.spills := rfl
@[simp] theorem setSx_staging (st : Nat) (x : StreamX) : (s.setSx st x).staging = s.staging := rfl
@[simp] theorem setSx_results (st : Nat) (x : StreamX) : (s.setSx st x).results = s.results := rfl
@[simp] theorem setSx_fwdOp (st : Nat) (x : StreamX) : (s.setSx st x).fwdOp = s.fwdOp := rfl
@[simp] theorem setSx_fwdSw (st : Nat) (x : StreamX) : (s.setSx st x).fwdSw = s.fwdSw := rfl
@[simp] theorem setSx_notices (st : Nat) (x : StreamX) : (s.setSx st x).notices = s.notices := rfl
@[simp] theorem setSx_mdw (st : Nat) (x : StreamX) : (s.setSx st x).mdw = s.mdw := rfl
@[simp] theorem setSx_cals (st : Nat) (x : StreamX) : (s.setSx st x).cals = s.cals := rfl
@[simp] theorem setSx_buckets (st : Nat) (x : StreamX) : (s.setSx st x).buckets = s.buckets := rfl
@[simp] theorem setSx_backlog (st : Nat) (x : StreamX) : (s.setSx st x).backlog = s.backlog := rfl
@[simp] theorem setSx_mem (st : Nat) (x : StreamX) : (s.setSx st x).mem = s.mem := rfl
@[simp] theorem setSx_samplers (st : Nat) (x : StreamX) : (s.setSx st x).samplers = s.samplers := rfl
@[simp] theorem setSx_smpq (st : Nat) (x : StreamX) : (s.setSx st x).smpq = s.smpq := rfl
@[simp] theorem setSx_inbox (st : Nat) (x : StreamX) : (s.setSx st x).inbox = s.inbox := rfl
@[simp] theorem setSx_qlens (st : Nat) (x : StreamX) : (s.setSx st x).qlens = s.qlens := rfl
@[simp] theorem setSx_collector (st : Nat) (x : StreamX) : (s.setSx st x).collector = s.collector := rfl
@[simp] theorem setSx_vc6Q (st : Nat) (x : StreamX) : (s.setSx st x).vc6Q = s.vc6Q := rfl
@[simp] theorem setSx_bmtSecond (st : Nat) (x : StreamX) : (s.setSx st x).bmtSecond = s.bmtSecond := rfl
@[simp] theorem setSx_portErrs (st : Nat) (x : StreamX) : (s.setSx st x).portErrs = s.portErrs := rfl
@[simp] theorem setSx_slivers (st : Nat) (x : StreamX) : (s.setSx st x).slivers = s.slivers := rfl
@[simp] theorem setSx_streams (st : Nat) (x : StreamX) : (s.setSx st x).streams = mapSet (fun _ => {}) s.streams st x := rfl
@[simp] theorem setSx_carOp (st : Nat) (x : StreamX) : (s.setSx st x).carOp = s.carOp := rfl
@[simp] theorem setSx_bOpened (st : Nat) (x : StreamX) : (s.setSx st x).bOpened = s.bOpened := rfl
@[simp] theorem setSx_resId (st : Nat) (x : StreamX) : (s.setSx st x).resId = s.resId := rfl
@[simp] theorem setSx_replay (st : Nat) (x : StreamX) : (s.setSx st x).replay = s.replay := rfl
@[simp] theorem setSx_kernels (st : Nat) (x : StreamX) : (s.setSx st x).kernels = s.kernels := rfl
@[simp] theorem setSx_kpieces (st : Nat) (x : StreamX) : (s.setSx st x).kpieces = s.kpieces := rfl
@[simp] theorem setSx_kop (st : Nat) (x : StreamX) : (s.setSx st x).kop = s.kop := rfl
@[simp] theorem setSx_substs (st : Nat) (x : StreamX) : (s.setSx st x).substs = s.substs := rfl
@[simp] theorem setSx_sealJobs (st : Nat) (x : StreamX) : (s.setSx st x).sealJobs = s.sealJobs := rfl
@[simp] theorem setSx_sealQ (st : Nat) (x : StreamX) : (s.setSx st x).sealQ = s.sealQ := rfl
@[simp] theorem setSx_sealLast (st : Nat) (x : StreamX) : (s.setSx st x).sealLast = s.sealLast := rfl
@[simp] theorem setSx_sealSigned (st : Nat) (x : StreamX) : (s.setSx st x).sealSigned = s.sealSigned := rfl
@[simp] theorem setSx_aliasKey (st : Nat) (x : StreamX) : (s.setSx st x).aliasKey = s.aliasKey := rfl
@[simp] theorem setSx_aliasCert (st : Nat) (x : StreamX) : (s.setSx st x).aliasCert = s.aliasCert := rfl
@[simp] theorem setSx_deviceKey (st : Nat) (x : StreamX) : (s.setSx st x).deviceKey = s.deviceKey := rfl
@[simp] theorem setSx_udsLocked (st : Nat) (x : StreamX) : (s.setSx st x).udsLocked = s.udsLocked := rfl
@[simp] theorem setSx_events (st : Nat) (x : StreamX) : (s.setSx st x).events = s.events := rfl
@[simp] theorem setSx_spareQuar (st : Nat) (x : StreamX) : (s.setSx st x).spareQuar = s.spareQuar := rfl
@[simp] theorem setSx_occs (st : Nat) (x : StreamX) : (s.setSx st x).occs = s.occs := rfl
@[simp] theorem setSx_hot (st : Nat) (x : StreamX) : (s.setSx st x).hot = s.hot := rfl
@[simp] theorem setSx_hotQ (st : Nat) (x : StreamX) : (s.setSx st x).hotQ = s.hotQ := rfl
@[simp] theorem setSx_hintAt (st : Nat) (x : StreamX) : (s.setSx st x).hintAt = s.hintAt := rfl
@[simp] theorem setSx_rings (st : Nat) (x : StreamX) : (s.setSx st x).rings = s.rings := rfl
@[simp] theorem setSx_lasers (st : Nat) (x : StreamX) : (s.setSx st x).lasers = s.lasers := rfl
@[simp] theorem setSx_lgroups (st : Nat) (x : StreamX) : (s.setSx st x).lgroups = s.lgroups := rfl
@[simp] theorem setSx_engines (st : Nat) (x : StreamX) : (s.setSx st x).engines = s.engines := rfl
@[simp] theorem setSx_aprs (st : Nat) (x : StreamX) : (s.setSx st x).aprs = s.aprs := rfl
@[simp] theorem setSx_plans (st : Nat) (x : StreamX) : (s.setSx st x).plans = s.plans := rfl
@[simp] theorem setSx_trained (st : Nat) (x : StreamX) : (s.setSx st x).trained = s.trained := rfl
@[simp] theorem setSx_initing (st : Nat) (x : StreamX) : (s.setSx st x).initing = s.initing := rfl
@[simp] theorem setSx_spares (st : Nat) (x : StreamX) : (s.setSx st x).spares = s.spares := rfl
@[simp] theorem setSx_memKept (st : Nat) (x : StreamX) : (s.setSx st x).memKept = s.memKept := rfl
@[simp] theorem setSx_hostReads (st : Nat) (x : StreamX) : (s.setSx st x).hostReads = s.hostReads := rfl
@[simp] theorem setSx_badBlocks (st : Nat) (x : StreamX) : (s.setSx st x).badBlocks = s.badBlocks := rfl
@[simp] theorem setSx_kernBad (st : Nat) (x : StreamX) : (s.setSx st x).kernBad = s.kernBad := rfl
@[simp] theorem setSx_deadDevs (st : Nat) (x : StreamX) : (s.setSx st x).deadDevs = s.deadDevs := rfl
@[simp] theorem setSx_applies (st : Nat) (x : StreamX) : (s.setSx st x).applies = s.applies := rfl
@[simp] theorem setSx_servo (st : Nat) (x : StreamX) : (s.setSx st x).servo = s.servo := rfl
@[simp] theorem setSx_ptps (st : Nat) (x : StreamX) : (s.setSx st x).ptps = s.ptps := rfl
@[simp] theorem setSx_pins (st : Nat) (x : StreamX) : (s.setSx st x).pins = s.pins := rfl
@[simp] theorem setSx_launches (st : Nat) (x : StreamX) : (s.setSx st x).launches = s.launches := rfl
@[simp] theorem setSx_fuses (st : Nat) (x : StreamX) : (s.setSx st x).fuses = s.fuses := rfl
@[simp] theorem setSx_fuseOp (st : Nat) (x : StreamX) : (s.setSx st x).fuseOp = s.fuseOp := rfl
@[simp] theorem setSx_fuseRail (st : Nat) (x : StreamX) : (s.setSx st x).fuseRail = s.fuseRail := rfl
@[simp] theorem setSx_flash (st : Nat) (x : StreamX) : (s.setSx st x).flash = s.flash := rfl
@[simp] theorem setSx_image (st : Nat) (x : StreamX) : (s.setSx st x).image = s.image := rfl
@[simp] theorem setSx_update (st : Nat) (x : StreamX) : (s.setSx st x).update = s.update := rfl
@[simp] theorem setSx_resetReq (st : Nat) (x : StreamX) : (s.setSx st x).resetReq = s.resetReq := rfl
@[simp] theorem setSx_pwrOk (st : Nat) (x : StreamX) : (s.setSx st x).pwrOk = s.pwrOk := rfl
@[simp] theorem setSx_railsBad (st : Nat) (x : StreamX) : (s.setSx st x).railsBad = s.railsBad := rfl
@[simp] theorem setSx_refLost (st : Nat) (x : StreamX) : (s.setSx st x).refLost = s.refLost := rfl
@[simp] theorem setSx_straps (st : Nat) (x : StreamX) : (s.setSx st x).straps = s.straps := rfl
@[simp] theorem setSx_memTemps (st : Nat) (x : StreamX) : (s.setSx st x).memTemps = s.memTemps := rfl
@[simp] theorem setSx_tap (st : Nat) (x : StreamX) : (s.setSx st x).tap = s.tap := rfl
@[simp] theorem setSx_alarm (st : Nat) (x : StreamX) : (s.setSx st x).alarm = s.alarm := rfl
@[simp] theorem setSx_trip (st : Nat) (x : StreamX) : (s.setSx st x).trip = s.trip := rfl
@[simp] theorem setSx_calShed (st : Nat) (x : StreamX) : (s.setSx st x).calShed = s.calShed := rfl
@[simp] theorem setSx_cores (st : Nat) (x : StreamX) : (s.setSx st x).cores = s.cores := rfl
@[simp] theorem setSx_dump (st : Nat) (x : StreamX) : (s.setSx st x).dump = s.dump := rfl
@[simp] theorem setSx_sealHash (st : Nat) (x : StreamX) : (s.setSx st x).sealHash = s.sealHash := rfl
@[simp] theorem setSx_wall (st : Nat) (x : StreamX) : (s.setSx st x).wall = s.wall := rfl
@[simp] theorem setSx_cxlLog (st : Nat) (x : StreamX) : (s.setSx st x).cxlLog = s.cxlLog := rfl
@[simp] theorem setSx_doeError (st : Nat) (x : StreamX) : (s.setSx st x).doeError = s.doeError := rfl
@[simp] theorem setSx_doeBusy (st : Nat) (x : StreamX) : (s.setSx st x).doeBusy = s.doeBusy := rfl
@[simp] theorem setSx_cfg (st : Nat) (x : StreamX) : (s.setSx st x).cfg = s.cfg := rfl
@[simp] theorem setSx_cxlRegs (st : Nat) (x : StreamX) : (s.setSx st x).cxlRegs = s.cxlRegs := rfl
@[simp] theorem setSx_ip (st : Nat) (x : StreamX) : (s.setSx st x).ip = s.ip := rfl
@[simp] theorem setSx_ethSecond (st : Nat) (x : StreamX) : (s.setSx st x).ethSecond = s.ethSecond := rfl
@[simp] theorem setSx_i3cAddr (st : Nat) (x : StreamX) : (s.setSx st x).i3cAddr = s.i3cAddr := rfl
@[simp] theorem setSx_eid (st : Nat) (x : StreamX) : (s.setSx st x).eid = s.eid := rfl
@[simp] theorem setSx_spdmDoe (st : Nat) (x : StreamX) : (s.setSx st x).spdmDoe = s.spdmDoe := rfl
@[simp] theorem setSx_spdmMctp (st : Nat) (x : StreamX) : (s.setSx st x).spdmMctp = s.spdmMctp := rfl
@[simp] theorem setSx_spdmSigs (st : Nat) (x : StreamX) : (s.setSx st x).spdmSigs = s.spdmSigs := rfl
@[simp] theorem setSx_bar2 (st : Nat) (x : StreamX) : (s.setSx st x).bar2 = s.bar2 := rfl
@[simp] theorem setSx_read_word (st : Nat) (x : StreamX) (b : Nat) : (s.setSx st x).word b = s.word b := rfl
@[simp] theorem setSx_read_rd (st : Nat) (x : StreamX) (g : Fld) : (s.setSx st x).rd g = s.rd g := rfl
@[simp] theorem setSx_read_is (st : Nat) (x : StreamX) (g : Fld) : (s.setSx st x).is g = s.is g := rfl
@[simp] theorem setSx_read_tab (st : Nat) (x : StreamX) (b : Nat) : (s.setSx st x).tab b = s.tab b := rfl
@[simp] theorem setSx_read_strm (st : Nat) (x : StreamX) (b : Nat) : (s.setSx st x).strm b = s.strm b := rfl
@[simp] theorem setSx_read_grp (st : Nat) (x : StreamX) (b : Nat) : (s.setSx st x).grp b = s.grp b := rfl
@[simp] theorem setSx_read_ctr (st : Nat) (x : StreamX) (b i : Nat) : (s.setSx st x).ctr b i = s.ctr b i := rfl
@[simp] theorem setSx_read_port (st : Nat) (x : StreamX) (b : Nat) : (s.setSx st x).port b = s.port b := rfl
@[simp] theorem setSx_read_tent (st : Nat) (x : StreamX) (b : Nat) : (s.setSx st x).tent b = s.tent b := rfl
@[simp] theorem setSx_read_cal (st : Nat) (x : StreamX) (b : Nat) : (s.setSx st x).cal b = s.cal b := rfl
@[simp] theorem setSx_read_staged (st : Nat) (x : StreamX) (b : Nat) : (s.setSx st x).staged b = s.staged b := rfl
@[simp] theorem setSx_read_sliver (st : Nat) (x : StreamX) (b : Nat) : (s.setSx st x).sliver b = s.sliver b := rfl
@[simp] theorem setSx_read_queued (st : Nat) (x : StreamX) (g : RecQueue) : (s.setSx st x).queued g = s.queued g := rfl

/-! ### `Box.setSliver` -/

@[simp] theorem setSliver_phase (sl : Nat) (x : Sliver) : (s.setSliver sl x).phase = s.phase := rfl
@[simp] theorem setSliver_raw (sl : Nat) (x : Sliver) : (s.setSliver sl x).raw = s.raw := rfl
@[simp] theorem setSliver_freeCtr (sl : Nat) (x : Sliver) : (s.setSliver sl x).freeCtr = s.freeCtr := rfl
@[simp] theorem setSliver_outbox (sl : Nat) (x : Sliver) : (s.setSliver sl x).outbox = s.outbox := rfl
@[simp] theorem setSliver_regs (sl : Nat) (x : Sliver) : (s.setSliver sl x).regs = s.regs := rfl
@[simp] theorem setSliver_tabs (sl : Nat) (x : Sliver) : (s.setSliver sl x).tabs = s.tabs := rfl
@[simp] theorem setSliver_ctrs (sl : Nat) (x : Sliver) : (s.setSliver sl x).ctrs = s.ctrs := rfl
@[simp] theorem setSliver_shadows (sl : Nat) (x : Sliver) : (s.setSliver sl x).shadows = s.shadows := rfl
@[simp] theorem setSliver_copying (sl : Nat) (x : Sliver) : (s.setSliver sl x).copying = s.copying := rfl
@[simp] theorem setSliver_copyTick (sl : Nat) (x : Sliver) : (s.setSliver sl x).copyTick = s.copyTick := rfl
@[simp] theorem setSliver_preClear (sl : Nat) (x : Sliver) : (s.setSliver sl x).preClear = s.preClear := rfl
@[simp] theorem setSliver_clearAt (sl : Nat) (x : Sliver) : (s.setSliver sl x).clearAt = s.clearAt := rfl
@[simp] theorem setSliver_snapWait (sl : Nat) (x : Sliver) : (s.setSliver sl x).snapWait = s.snapWait := rfl
@[simp] theorem setSliver_snapHad (sl : Nat) (x : Sliver) : (s.setSliver sl x).snapHad = s.snapHad := rfl
@[simp] theorem setSliver_hiLatch (sl : Nat) (x : Sliver) : (s.setSliver sl x).hiLatch = s.hiLatch := rfl
@[simp] theorem setSliver_fa (sl : Nat) (x : Sliver) : (s.setSliver sl x).fa = s.fa := rfl
@[simp] theorem setSliver_na (sl : Nat) (x : Sliver) : (s.setSliver sl x).na = s.na := rfl
@[simp] theorem setSliver_rate (sl : Nat) (x : Sliver) : (s.setSliver sl x).rate = s.rate := rfl
@[simp] theorem setSliver_repl (sl : Nat) (x : Sliver) : (s.setSliver sl x).repl = s.repl := rfl
@[simp] theorem setSliver_ports (sl : Nat) (x : Sliver) : (s.setSliver sl x).ports = s.ports := rfl
@[simp] theorem setSliver_tents (sl : Nat) (x : Sliver) : (s.setSliver sl x).tents = s.tents := rfl
@[simp] theorem setSliver_descs (sl : Nat) (x : Sliver) : (s.setSliver sl x).descs = s.descs := rfl
@[simp] theorem setSliver_descId (sl : Nat) (x : Sliver) : (s.setSliver sl x).descId = s.descId := rfl
@[simp] theorem setSliver_admits (sl : Nat) (x : Sliver) : (s.setSliver sl x).admits = s.admits := rfl
@[simp] theorem setSliver_spills (sl : Nat) (x : Sliver) : (s.setSliver sl x).spills = s.spills := rfl
@[simp] theorem setSliver_staging (sl : Nat) (x : Sliver) : (s.setSliver sl x).staging = s.staging := rfl
@[simp] theorem setSliver_results (sl : Nat) (x : Sliver) : (s.setSliver sl x).results = s.results := rfl
@[simp] theorem setSliver_fwdOp (sl : Nat) (x : Sliver) : (s.setSliver sl x).fwdOp = s.fwdOp := rfl
@[simp] theorem setSliver_fwdSw (sl : Nat) (x : Sliver) : (s.setSliver sl x).fwdSw = s.fwdSw := rfl
@[simp] theorem setSliver_notices (sl : Nat) (x : Sliver) : (s.setSliver sl x).notices = s.notices := rfl
@[simp] theorem setSliver_mdw (sl : Nat) (x : Sliver) : (s.setSliver sl x).mdw = s.mdw := rfl
@[simp] theorem setSliver_cals (sl : Nat) (x : Sliver) : (s.setSliver sl x).cals = s.cals := rfl
@[simp] theorem setSliver_buckets (sl : Nat) (x : Sliver) : (s.setSliver sl x).buckets = s.buckets := rfl
@[simp] theorem setSliver_backlog (sl : Nat) (x : Sliver) : (s.setSliver sl x).backlog = s.backlog := rfl
@[simp] theorem setSliver_mem (sl : Nat) (x : Sliver) : (s.setSliver sl x).mem = s.mem := rfl
@[simp] theorem setSliver_samplers (sl : Nat) (x : Sliver) : (s.setSliver sl x).samplers = s.samplers := rfl
@[simp] theorem setSliver_smpq (sl : Nat) (x : Sliver) : (s.setSliver sl x).smpq = s.smpq := rfl
@[simp] theorem setSliver_inbox (sl : Nat) (x : Sliver) : (s.setSliver sl x).inbox = s.inbox := rfl
@[simp] theorem setSliver_qlens (sl : Nat) (x : Sliver) : (s.setSliver sl x).qlens = s.qlens := rfl
@[simp] theorem setSliver_collector (sl : Nat) (x : Sliver) : (s.setSliver sl x).collector = s.collector := rfl
@[simp] theorem setSliver_vc6Q (sl : Nat) (x : Sliver) : (s.setSliver sl x).vc6Q = s.vc6Q := rfl
@[simp] theorem setSliver_bmtSecond (sl : Nat) (x : Sliver) : (s.setSliver sl x).bmtSecond = s.bmtSecond := rfl
@[simp] theorem setSliver_portErrs (sl : Nat) (x : Sliver) : (s.setSliver sl x).portErrs = s.portErrs := rfl
@[simp] theorem setSliver_slivers (sl : Nat) (x : Sliver) : (s.setSliver sl x).slivers = mapSet (fun _ => {}) s.slivers sl x := rfl
@[simp] theorem setSliver_streams (sl : Nat) (x : Sliver) : (s.setSliver sl x).streams = s.streams := rfl
@[simp] theorem setSliver_carOp (sl : Nat) (x : Sliver) : (s.setSliver sl x).carOp = s.carOp := rfl
@[simp] theorem setSliver_bOpened (sl : Nat) (x : Sliver) : (s.setSliver sl x).bOpened = s.bOpened := rfl
@[simp] theorem setSliver_resId (sl : Nat) (x : Sliver) : (s.setSliver sl x).resId = s.resId := rfl
@[simp] theorem setSliver_replay (sl : Nat) (x : Sliver) : (s.setSliver sl x).replay = s.replay := rfl
@[simp] theorem setSliver_kernels (sl : Nat) (x : Sliver) : (s.setSliver sl x).kernels = s.kernels := rfl
@[simp] theorem setSliver_kpieces (sl : Nat) (x : Sliver) : (s.setSliver sl x).kpieces = s.kpieces := rfl
@[simp] theorem setSliver_kop (sl : Nat) (x : Sliver) : (s.setSliver sl x).kop = s.kop := rfl
@[simp] theorem setSliver_substs (sl : Nat) (x : Sliver) : (s.setSliver sl x).substs = s.substs := rfl
@[simp] theorem setSliver_sealJobs (sl : Nat) (x : Sliver) : (s.setSliver sl x).sealJobs = s.sealJobs := rfl
@[simp] theorem setSliver_sealQ (sl : Nat) (x : Sliver) : (s.setSliver sl x).sealQ = s.sealQ := rfl
@[simp] theorem setSliver_sealLast (sl : Nat) (x : Sliver) : (s.setSliver sl x).sealLast = s.sealLast := rfl
@[simp] theorem setSliver_sealSigned (sl : Nat) (x : Sliver) : (s.setSliver sl x).sealSigned = s.sealSigned := rfl
@[simp] theorem setSliver_aliasKey (sl : Nat) (x : Sliver) : (s.setSliver sl x).aliasKey = s.aliasKey := rfl
@[simp] theorem setSliver_aliasCert (sl : Nat) (x : Sliver) : (s.setSliver sl x).aliasCert = s.aliasCert := rfl
@[simp] theorem setSliver_deviceKey (sl : Nat) (x : Sliver) : (s.setSliver sl x).deviceKey = s.deviceKey := rfl
@[simp] theorem setSliver_udsLocked (sl : Nat) (x : Sliver) : (s.setSliver sl x).udsLocked = s.udsLocked := rfl
@[simp] theorem setSliver_events (sl : Nat) (x : Sliver) : (s.setSliver sl x).events = s.events := rfl
@[simp] theorem setSliver_spareQuar (sl : Nat) (x : Sliver) : (s.setSliver sl x).spareQuar = s.spareQuar := rfl
@[simp] theorem setSliver_occs (sl : Nat) (x : Sliver) : (s.setSliver sl x).occs = s.occs := rfl
@[simp] theorem setSliver_hot (sl : Nat) (x : Sliver) : (s.setSliver sl x).hot = s.hot := rfl
@[simp] theorem setSliver_hotQ (sl : Nat) (x : Sliver) : (s.setSliver sl x).hotQ = s.hotQ := rfl
@[simp] theorem setSliver_hintAt (sl : Nat) (x : Sliver) : (s.setSliver sl x).hintAt = s.hintAt := rfl
@[simp] theorem setSliver_rings (sl : Nat) (x : Sliver) : (s.setSliver sl x).rings = s.rings := rfl
@[simp] theorem setSliver_lasers (sl : Nat) (x : Sliver) : (s.setSliver sl x).lasers = s.lasers := rfl
@[simp] theorem setSliver_lgroups (sl : Nat) (x : Sliver) : (s.setSliver sl x).lgroups = s.lgroups := rfl
@[simp] theorem setSliver_engines (sl : Nat) (x : Sliver) : (s.setSliver sl x).engines = s.engines := rfl
@[simp] theorem setSliver_aprs (sl : Nat) (x : Sliver) : (s.setSliver sl x).aprs = s.aprs := rfl
@[simp] theorem setSliver_plans (sl : Nat) (x : Sliver) : (s.setSliver sl x).plans = s.plans := rfl
@[simp] theorem setSliver_trained (sl : Nat) (x : Sliver) : (s.setSliver sl x).trained = s.trained := rfl
@[simp] theorem setSliver_initing (sl : Nat) (x : Sliver) : (s.setSliver sl x).initing = s.initing := rfl
@[simp] theorem setSliver_spares (sl : Nat) (x : Sliver) : (s.setSliver sl x).spares = s.spares := rfl
@[simp] theorem setSliver_memKept (sl : Nat) (x : Sliver) : (s.setSliver sl x).memKept = s.memKept := rfl
@[simp] theorem setSliver_hostReads (sl : Nat) (x : Sliver) : (s.setSliver sl x).hostReads = s.hostReads := rfl
@[simp] theorem setSliver_badBlocks (sl : Nat) (x : Sliver) : (s.setSliver sl x).badBlocks = s.badBlocks := rfl
@[simp] theorem setSliver_kernBad (sl : Nat) (x : Sliver) : (s.setSliver sl x).kernBad = s.kernBad := rfl
@[simp] theorem setSliver_deadDevs (sl : Nat) (x : Sliver) : (s.setSliver sl x).deadDevs = s.deadDevs := rfl
@[simp] theorem setSliver_applies (sl : Nat) (x : Sliver) : (s.setSliver sl x).applies = s.applies := rfl
@[simp] theorem setSliver_servo (sl : Nat) (x : Sliver) : (s.setSliver sl x).servo = s.servo := rfl
@[simp] theorem setSliver_ptps (sl : Nat) (x : Sliver) : (s.setSliver sl x).ptps = s.ptps := rfl
@[simp] theorem setSliver_pins (sl : Nat) (x : Sliver) : (s.setSliver sl x).pins = s.pins := rfl
@[simp] theorem setSliver_launches (sl : Nat) (x : Sliver) : (s.setSliver sl x).launches = s.launches := rfl
@[simp] theorem setSliver_fuses (sl : Nat) (x : Sliver) : (s.setSliver sl x).fuses = s.fuses := rfl
@[simp] theorem setSliver_fuseOp (sl : Nat) (x : Sliver) : (s.setSliver sl x).fuseOp = s.fuseOp := rfl
@[simp] theorem setSliver_fuseRail (sl : Nat) (x : Sliver) : (s.setSliver sl x).fuseRail = s.fuseRail := rfl
@[simp] theorem setSliver_flash (sl : Nat) (x : Sliver) : (s.setSliver sl x).flash = s.flash := rfl
@[simp] theorem setSliver_image (sl : Nat) (x : Sliver) : (s.setSliver sl x).image = s.image := rfl
@[simp] theorem setSliver_update (sl : Nat) (x : Sliver) : (s.setSliver sl x).update = s.update := rfl
@[simp] theorem setSliver_resetReq (sl : Nat) (x : Sliver) : (s.setSliver sl x).resetReq = s.resetReq := rfl
@[simp] theorem setSliver_pwrOk (sl : Nat) (x : Sliver) : (s.setSliver sl x).pwrOk = s.pwrOk := rfl
@[simp] theorem setSliver_railsBad (sl : Nat) (x : Sliver) : (s.setSliver sl x).railsBad = s.railsBad := rfl
@[simp] theorem setSliver_refLost (sl : Nat) (x : Sliver) : (s.setSliver sl x).refLost = s.refLost := rfl
@[simp] theorem setSliver_straps (sl : Nat) (x : Sliver) : (s.setSliver sl x).straps = s.straps := rfl
@[simp] theorem setSliver_memTemps (sl : Nat) (x : Sliver) : (s.setSliver sl x).memTemps = s.memTemps := rfl
@[simp] theorem setSliver_tap (sl : Nat) (x : Sliver) : (s.setSliver sl x).tap = s.tap := rfl
@[simp] theorem setSliver_alarm (sl : Nat) (x : Sliver) : (s.setSliver sl x).alarm = s.alarm := rfl
@[simp] theorem setSliver_trip (sl : Nat) (x : Sliver) : (s.setSliver sl x).trip = s.trip := rfl
@[simp] theorem setSliver_calShed (sl : Nat) (x : Sliver) : (s.setSliver sl x).calShed = s.calShed := rfl
@[simp] theorem setSliver_cores (sl : Nat) (x : Sliver) : (s.setSliver sl x).cores = s.cores := rfl
@[simp] theorem setSliver_dump (sl : Nat) (x : Sliver) : (s.setSliver sl x).dump = s.dump := rfl
@[simp] theorem setSliver_sealHash (sl : Nat) (x : Sliver) : (s.setSliver sl x).sealHash = s.sealHash := rfl
@[simp] theorem setSliver_wall (sl : Nat) (x : Sliver) : (s.setSliver sl x).wall = s.wall := rfl
@[simp] theorem setSliver_cxlLog (sl : Nat) (x : Sliver) : (s.setSliver sl x).cxlLog = s.cxlLog := rfl
@[simp] theorem setSliver_doeError (sl : Nat) (x : Sliver) : (s.setSliver sl x).doeError = s.doeError := rfl
@[simp] theorem setSliver_doeBusy (sl : Nat) (x : Sliver) : (s.setSliver sl x).doeBusy = s.doeBusy := rfl
@[simp] theorem setSliver_cfg (sl : Nat) (x : Sliver) : (s.setSliver sl x).cfg = s.cfg := rfl
@[simp] theorem setSliver_cxlRegs (sl : Nat) (x : Sliver) : (s.setSliver sl x).cxlRegs = s.cxlRegs := rfl
@[simp] theorem setSliver_ip (sl : Nat) (x : Sliver) : (s.setSliver sl x).ip = s.ip := rfl
@[simp] theorem setSliver_ethSecond (sl : Nat) (x : Sliver) : (s.setSliver sl x).ethSecond = s.ethSecond := rfl
@[simp] theorem setSliver_i3cAddr (sl : Nat) (x : Sliver) : (s.setSliver sl x).i3cAddr = s.i3cAddr := rfl
@[simp] theorem setSliver_eid (sl : Nat) (x : Sliver) : (s.setSliver sl x).eid = s.eid := rfl
@[simp] theorem setSliver_spdmDoe (sl : Nat) (x : Sliver) : (s.setSliver sl x).spdmDoe = s.spdmDoe := rfl
@[simp] theorem setSliver_spdmMctp (sl : Nat) (x : Sliver) : (s.setSliver sl x).spdmMctp = s.spdmMctp := rfl
@[simp] theorem setSliver_spdmSigs (sl : Nat) (x : Sliver) : (s.setSliver sl x).spdmSigs = s.spdmSigs := rfl
@[simp] theorem setSliver_bar2 (sl : Nat) (x : Sliver) : (s.setSliver sl x).bar2 = s.bar2 := rfl
@[simp] theorem setSliver_read_word (sl : Nat) (x : Sliver) (b : Nat) : (s.setSliver sl x).word b = s.word b := rfl
@[simp] theorem setSliver_read_rd (sl : Nat) (x : Sliver) (g : Fld) : (s.setSliver sl x).rd g = s.rd g := rfl
@[simp] theorem setSliver_read_is (sl : Nat) (x : Sliver) (g : Fld) : (s.setSliver sl x).is g = s.is g := rfl
@[simp] theorem setSliver_read_tab (sl : Nat) (x : Sliver) (b : Nat) : (s.setSliver sl x).tab b = s.tab b := rfl
@[simp] theorem setSliver_read_strm (sl : Nat) (x : Sliver) (b : Nat) : (s.setSliver sl x).strm b = s.strm b := rfl
@[simp] theorem setSliver_read_grp (sl : Nat) (x : Sliver) (b : Nat) : (s.setSliver sl x).grp b = s.grp b := rfl
@[simp] theorem setSliver_read_ctr (sl : Nat) (x : Sliver) (b i : Nat) : (s.setSliver sl x).ctr b i = s.ctr b i := rfl
@[simp] theorem setSliver_read_port (sl : Nat) (x : Sliver) (b : Nat) : (s.setSliver sl x).port b = s.port b := rfl
@[simp] theorem setSliver_read_tent (sl : Nat) (x : Sliver) (b : Nat) : (s.setSliver sl x).tent b = s.tent b := rfl
@[simp] theorem setSliver_read_cal (sl : Nat) (x : Sliver) (b : Nat) : (s.setSliver sl x).cal b = s.cal b := rfl
@[simp] theorem setSliver_read_staged (sl : Nat) (x : Sliver) (b : Nat) : (s.setSliver sl x).staged b = s.staged b := rfl
@[simp] theorem setSliver_read_sx (sl : Nat) (x : Sliver) (b : Nat) : (s.setSliver sl x).sx b = s.sx b := rfl
@[simp] theorem setSliver_read_queued (sl : Nat) (x : Sliver) (g : RecQueue) : (s.setSliver sl x).queued g = s.queued g := rfl

/-! ### `Box.setStrm` -/

@[simp] theorem setStrm_phase (st word lo width v : Nat) : (s.setStrm st word lo width v).phase = s.phase := rfl
@[simp] theorem setStrm_raw (st word lo width v : Nat) : (s.setStrm st word lo width v).raw = s.raw := rfl
@[simp] theorem setStrm_freeCtr (st word lo width v : Nat) : (s.setStrm st word lo width v).freeCtr = s.freeCtr := rfl
@[simp] theorem setStrm_outbox (st word lo width v : Nat) : (s.setStrm st word lo width v).outbox = s.outbox := rfl
@[simp] theorem setStrm_regs (st word lo width v : Nat) : (s.setStrm st word lo width v).regs = s.regs := rfl
@[simp] theorem setStrm_tabs (st word lo width v : Nat) : (s.setStrm st word lo width v).tabs = mapSet (fun _ => 0) s.tabs (carEntryAt 1 st + 4 * word) (wordWith (s.tab (carEntryAt 1 st + 4 * word)) lo width v) := rfl
@[simp] theorem setStrm_ctrs (st word lo width v : Nat) : (s.setStrm st word lo width v).ctrs = s.ctrs := rfl
@[simp] theorem setStrm_shadows (st word lo width v : Nat) : (s.setStrm st word lo width v).shadows = s.shadows := rfl
@[simp] theorem setStrm_copying (st word lo width v : Nat) : (s.setStrm st word lo width v).copying = s.copying := rfl
@[simp] theorem setStrm_copyTick (st word lo width v : Nat) : (s.setStrm st word lo width v).copyTick = s.copyTick := rfl
@[simp] theorem setStrm_preClear (st word lo width v : Nat) : (s.setStrm st word lo width v).preClear = s.preClear := rfl
@[simp] theorem setStrm_clearAt (st word lo width v : Nat) : (s.setStrm st word lo width v).clearAt = s.clearAt := rfl
@[simp] theorem setStrm_snapWait (st word lo width v : Nat) : (s.setStrm st word lo width v).snapWait = s.snapWait := rfl
@[simp] theorem setStrm_snapHad (st word lo width v : Nat) : (s.setStrm st word lo width v).snapHad = s.snapHad := rfl
@[simp] theorem setStrm_hiLatch (st word lo width v : Nat) : (s.setStrm st word lo width v).hiLatch = s.hiLatch := rfl
@[simp] theorem setStrm_fa (st word lo width v : Nat) : (s.setStrm st word lo width v).fa = s.fa := rfl
@[simp] theorem setStrm_na (st word lo width v : Nat) : (s.setStrm st word lo width v).na = s.na := rfl
@[simp] theorem setStrm_rate (st word lo width v : Nat) : (s.setStrm st word lo width v).rate = s.rate := rfl
@[simp] theorem setStrm_repl (st word lo width v : Nat) : (s.setStrm st word lo width v).repl = s.repl := rfl
@[simp] theorem setStrm_ports (st word lo width v : Nat) : (s.setStrm st word lo width v).ports = s.ports := rfl
@[simp] theorem setStrm_tents (st word lo width v : Nat) : (s.setStrm st word lo width v).tents = s.tents := rfl
@[simp] theorem setStrm_descs (st word lo width v : Nat) : (s.setStrm st word lo width v).descs = s.descs := rfl
@[simp] theorem setStrm_descId (st word lo width v : Nat) : (s.setStrm st word lo width v).descId = s.descId := rfl
@[simp] theorem setStrm_admits (st word lo width v : Nat) : (s.setStrm st word lo width v).admits = s.admits := rfl
@[simp] theorem setStrm_spills (st word lo width v : Nat) : (s.setStrm st word lo width v).spills = s.spills := rfl
@[simp] theorem setStrm_staging (st word lo width v : Nat) : (s.setStrm st word lo width v).staging = s.staging := rfl
@[simp] theorem setStrm_results (st word lo width v : Nat) : (s.setStrm st word lo width v).results = s.results := rfl
@[simp] theorem setStrm_fwdOp (st word lo width v : Nat) : (s.setStrm st word lo width v).fwdOp = s.fwdOp := rfl
@[simp] theorem setStrm_fwdSw (st word lo width v : Nat) : (s.setStrm st word lo width v).fwdSw = s.fwdSw := rfl
@[simp] theorem setStrm_notices (st word lo width v : Nat) : (s.setStrm st word lo width v).notices = s.notices := rfl
@[simp] theorem setStrm_mdw (st word lo width v : Nat) : (s.setStrm st word lo width v).mdw = s.mdw := rfl
@[simp] theorem setStrm_cals (st word lo width v : Nat) : (s.setStrm st word lo width v).cals = s.cals := rfl
@[simp] theorem setStrm_buckets (st word lo width v : Nat) : (s.setStrm st word lo width v).buckets = s.buckets := rfl
@[simp] theorem setStrm_backlog (st word lo width v : Nat) : (s.setStrm st word lo width v).backlog = s.backlog := rfl
@[simp] theorem setStrm_mem (st word lo width v : Nat) : (s.setStrm st word lo width v).mem = s.mem := rfl
@[simp] theorem setStrm_samplers (st word lo width v : Nat) : (s.setStrm st word lo width v).samplers = s.samplers := rfl
@[simp] theorem setStrm_smpq (st word lo width v : Nat) : (s.setStrm st word lo width v).smpq = s.smpq := rfl
@[simp] theorem setStrm_inbox (st word lo width v : Nat) : (s.setStrm st word lo width v).inbox = s.inbox := rfl
@[simp] theorem setStrm_qlens (st word lo width v : Nat) : (s.setStrm st word lo width v).qlens = s.qlens := rfl
@[simp] theorem setStrm_collector (st word lo width v : Nat) : (s.setStrm st word lo width v).collector = s.collector := rfl
@[simp] theorem setStrm_vc6Q (st word lo width v : Nat) : (s.setStrm st word lo width v).vc6Q = s.vc6Q := rfl
@[simp] theorem setStrm_bmtSecond (st word lo width v : Nat) : (s.setStrm st word lo width v).bmtSecond = s.bmtSecond := rfl
@[simp] theorem setStrm_portErrs (st word lo width v : Nat) : (s.setStrm st word lo width v).portErrs = s.portErrs := rfl
@[simp] theorem setStrm_slivers (st word lo width v : Nat) : (s.setStrm st word lo width v).slivers = s.slivers := rfl
@[simp] theorem setStrm_streams (st word lo width v : Nat) : (s.setStrm st word lo width v).streams = s.streams := rfl
@[simp] theorem setStrm_carOp (st word lo width v : Nat) : (s.setStrm st word lo width v).carOp = s.carOp := rfl
@[simp] theorem setStrm_bOpened (st word lo width v : Nat) : (s.setStrm st word lo width v).bOpened = s.bOpened := rfl
@[simp] theorem setStrm_resId (st word lo width v : Nat) : (s.setStrm st word lo width v).resId = s.resId := rfl
@[simp] theorem setStrm_replay (st word lo width v : Nat) : (s.setStrm st word lo width v).replay = s.replay := rfl
@[simp] theorem setStrm_kernels (st word lo width v : Nat) : (s.setStrm st word lo width v).kernels = s.kernels := rfl
@[simp] theorem setStrm_kpieces (st word lo width v : Nat) : (s.setStrm st word lo width v).kpieces = s.kpieces := rfl
@[simp] theorem setStrm_kop (st word lo width v : Nat) : (s.setStrm st word lo width v).kop = s.kop := rfl
@[simp] theorem setStrm_substs (st word lo width v : Nat) : (s.setStrm st word lo width v).substs = s.substs := rfl
@[simp] theorem setStrm_sealJobs (st word lo width v : Nat) : (s.setStrm st word lo width v).sealJobs = s.sealJobs := rfl
@[simp] theorem setStrm_sealQ (st word lo width v : Nat) : (s.setStrm st word lo width v).sealQ = s.sealQ := rfl
@[simp] theorem setStrm_sealLast (st word lo width v : Nat) : (s.setStrm st word lo width v).sealLast = s.sealLast := rfl
@[simp] theorem setStrm_sealSigned (st word lo width v : Nat) : (s.setStrm st word lo width v).sealSigned = s.sealSigned := rfl
@[simp] theorem setStrm_aliasKey (st word lo width v : Nat) : (s.setStrm st word lo width v).aliasKey = s.aliasKey := rfl
@[simp] theorem setStrm_aliasCert (st word lo width v : Nat) : (s.setStrm st word lo width v).aliasCert = s.aliasCert := rfl
@[simp] theorem setStrm_deviceKey (st word lo width v : Nat) : (s.setStrm st word lo width v).deviceKey = s.deviceKey := rfl
@[simp] theorem setStrm_udsLocked (st word lo width v : Nat) : (s.setStrm st word lo width v).udsLocked = s.udsLocked := rfl
@[simp] theorem setStrm_events (st word lo width v : Nat) : (s.setStrm st word lo width v).events = s.events := rfl
@[simp] theorem setStrm_spareQuar (st word lo width v : Nat) : (s.setStrm st word lo width v).spareQuar = s.spareQuar := rfl
@[simp] theorem setStrm_occs (st word lo width v : Nat) : (s.setStrm st word lo width v).occs = s.occs := rfl
@[simp] theorem setStrm_hot (st word lo width v : Nat) : (s.setStrm st word lo width v).hot = s.hot := rfl
@[simp] theorem setStrm_hotQ (st word lo width v : Nat) : (s.setStrm st word lo width v).hotQ = s.hotQ := rfl
@[simp] theorem setStrm_hintAt (st word lo width v : Nat) : (s.setStrm st word lo width v).hintAt = s.hintAt := rfl
@[simp] theorem setStrm_rings (st word lo width v : Nat) : (s.setStrm st word lo width v).rings = s.rings := rfl
@[simp] theorem setStrm_lasers (st word lo width v : Nat) : (s.setStrm st word lo width v).lasers = s.lasers := rfl
@[simp] theorem setStrm_lgroups (st word lo width v : Nat) : (s.setStrm st word lo width v).lgroups = s.lgroups := rfl
@[simp] theorem setStrm_engines (st word lo width v : Nat) : (s.setStrm st word lo width v).engines = s.engines := rfl
@[simp] theorem setStrm_aprs (st word lo width v : Nat) : (s.setStrm st word lo width v).aprs = s.aprs := rfl
@[simp] theorem setStrm_plans (st word lo width v : Nat) : (s.setStrm st word lo width v).plans = s.plans := rfl
@[simp] theorem setStrm_trained (st word lo width v : Nat) : (s.setStrm st word lo width v).trained = s.trained := rfl
@[simp] theorem setStrm_initing (st word lo width v : Nat) : (s.setStrm st word lo width v).initing = s.initing := rfl
@[simp] theorem setStrm_spares (st word lo width v : Nat) : (s.setStrm st word lo width v).spares = s.spares := rfl
@[simp] theorem setStrm_memKept (st word lo width v : Nat) : (s.setStrm st word lo width v).memKept = s.memKept := rfl
@[simp] theorem setStrm_hostReads (st word lo width v : Nat) : (s.setStrm st word lo width v).hostReads = s.hostReads := rfl
@[simp] theorem setStrm_badBlocks (st word lo width v : Nat) : (s.setStrm st word lo width v).badBlocks = s.badBlocks := rfl
@[simp] theorem setStrm_kernBad (st word lo width v : Nat) : (s.setStrm st word lo width v).kernBad = s.kernBad := rfl
@[simp] theorem setStrm_deadDevs (st word lo width v : Nat) : (s.setStrm st word lo width v).deadDevs = s.deadDevs := rfl
@[simp] theorem setStrm_applies (st word lo width v : Nat) : (s.setStrm st word lo width v).applies = s.applies := rfl
@[simp] theorem setStrm_servo (st word lo width v : Nat) : (s.setStrm st word lo width v).servo = s.servo := rfl
@[simp] theorem setStrm_ptps (st word lo width v : Nat) : (s.setStrm st word lo width v).ptps = s.ptps := rfl
@[simp] theorem setStrm_pins (st word lo width v : Nat) : (s.setStrm st word lo width v).pins = s.pins := rfl
@[simp] theorem setStrm_launches (st word lo width v : Nat) : (s.setStrm st word lo width v).launches = s.launches := rfl
@[simp] theorem setStrm_fuses (st word lo width v : Nat) : (s.setStrm st word lo width v).fuses = s.fuses := rfl
@[simp] theorem setStrm_fuseOp (st word lo width v : Nat) : (s.setStrm st word lo width v).fuseOp = s.fuseOp := rfl
@[simp] theorem setStrm_fuseRail (st word lo width v : Nat) : (s.setStrm st word lo width v).fuseRail = s.fuseRail := rfl
@[simp] theorem setStrm_flash (st word lo width v : Nat) : (s.setStrm st word lo width v).flash = s.flash := rfl
@[simp] theorem setStrm_image (st word lo width v : Nat) : (s.setStrm st word lo width v).image = s.image := rfl
@[simp] theorem setStrm_update (st word lo width v : Nat) : (s.setStrm st word lo width v).update = s.update := rfl
@[simp] theorem setStrm_resetReq (st word lo width v : Nat) : (s.setStrm st word lo width v).resetReq = s.resetReq := rfl
@[simp] theorem setStrm_pwrOk (st word lo width v : Nat) : (s.setStrm st word lo width v).pwrOk = s.pwrOk := rfl
@[simp] theorem setStrm_railsBad (st word lo width v : Nat) : (s.setStrm st word lo width v).railsBad = s.railsBad := rfl
@[simp] theorem setStrm_refLost (st word lo width v : Nat) : (s.setStrm st word lo width v).refLost = s.refLost := rfl
@[simp] theorem setStrm_straps (st word lo width v : Nat) : (s.setStrm st word lo width v).straps = s.straps := rfl
@[simp] theorem setStrm_memTemps (st word lo width v : Nat) : (s.setStrm st word lo width v).memTemps = s.memTemps := rfl
@[simp] theorem setStrm_tap (st word lo width v : Nat) : (s.setStrm st word lo width v).tap = s.tap := rfl
@[simp] theorem setStrm_alarm (st word lo width v : Nat) : (s.setStrm st word lo width v).alarm = s.alarm := rfl
@[simp] theorem setStrm_trip (st word lo width v : Nat) : (s.setStrm st word lo width v).trip = s.trip := rfl
@[simp] theorem setStrm_calShed (st word lo width v : Nat) : (s.setStrm st word lo width v).calShed = s.calShed := rfl
@[simp] theorem setStrm_cores (st word lo width v : Nat) : (s.setStrm st word lo width v).cores = s.cores := rfl
@[simp] theorem setStrm_dump (st word lo width v : Nat) : (s.setStrm st word lo width v).dump = s.dump := rfl
@[simp] theorem setStrm_sealHash (st word lo width v : Nat) : (s.setStrm st word lo width v).sealHash = s.sealHash := rfl
@[simp] theorem setStrm_wall (st word lo width v : Nat) : (s.setStrm st word lo width v).wall = s.wall := rfl
@[simp] theorem setStrm_cxlLog (st word lo width v : Nat) : (s.setStrm st word lo width v).cxlLog = s.cxlLog := rfl
@[simp] theorem setStrm_doeError (st word lo width v : Nat) : (s.setStrm st word lo width v).doeError = s.doeError := rfl
@[simp] theorem setStrm_doeBusy (st word lo width v : Nat) : (s.setStrm st word lo width v).doeBusy = s.doeBusy := rfl
@[simp] theorem setStrm_cfg (st word lo width v : Nat) : (s.setStrm st word lo width v).cfg = s.cfg := rfl
@[simp] theorem setStrm_cxlRegs (st word lo width v : Nat) : (s.setStrm st word lo width v).cxlRegs = s.cxlRegs := rfl
@[simp] theorem setStrm_ip (st word lo width v : Nat) : (s.setStrm st word lo width v).ip = s.ip := rfl
@[simp] theorem setStrm_ethSecond (st word lo width v : Nat) : (s.setStrm st word lo width v).ethSecond = s.ethSecond := rfl
@[simp] theorem setStrm_i3cAddr (st word lo width v : Nat) : (s.setStrm st word lo width v).i3cAddr = s.i3cAddr := rfl
@[simp] theorem setStrm_eid (st word lo width v : Nat) : (s.setStrm st word lo width v).eid = s.eid := rfl
@[simp] theorem setStrm_spdmDoe (st word lo width v : Nat) : (s.setStrm st word lo width v).spdmDoe = s.spdmDoe := rfl
@[simp] theorem setStrm_spdmMctp (st word lo width v : Nat) : (s.setStrm st word lo width v).spdmMctp = s.spdmMctp := rfl
@[simp] theorem setStrm_spdmSigs (st word lo width v : Nat) : (s.setStrm st word lo width v).spdmSigs = s.spdmSigs := rfl
@[simp] theorem setStrm_bar2 (st word lo width v : Nat) : (s.setStrm st word lo width v).bar2 = s.bar2 := rfl
@[simp] theorem setStrm_read_word (st word lo width v : Nat) (b : Nat) : (s.setStrm st word lo width v).word b = s.word b := rfl
@[simp] theorem setStrm_read_rd (st word lo width v : Nat) (g : Fld) : (s.setStrm st word lo width v).rd g = s.rd g := rfl
@[simp] theorem setStrm_read_is (st word lo width v : Nat) (g : Fld) : (s.setStrm st word lo width v).is g = s.is g := rfl
@[simp] theorem setStrm_read_ctr (st word lo width v : Nat) (b i : Nat) : (s.setStrm st word lo width v).ctr b i = s.ctr b i := rfl
@[simp] theorem setStrm_read_port (st word lo width v : Nat) (b : Nat) : (s.setStrm st word lo width v).port b = s.port b := rfl
@[simp] theorem setStrm_read_tent (st word lo width v : Nat) (b : Nat) : (s.setStrm st word lo width v).tent b = s.tent b := rfl
@[simp] theorem setStrm_read_cal (st word lo width v : Nat) (b : Nat) : (s.setStrm st word lo width v).cal b = s.cal b := rfl
@[simp] theorem setStrm_read_staged (st word lo width v : Nat) (b : Nat) : (s.setStrm st word lo width v).staged b = s.staged b := rfl
@[simp] theorem setStrm_read_sx (st word lo width v : Nat) (b : Nat) : (s.setStrm st word lo width v).sx b = s.sx b := rfl
@[simp] theorem setStrm_read_sliver (st word lo width v : Nat) (b : Nat) : (s.setStrm st word lo width v).sliver b = s.sliver b := rfl
@[simp] theorem setStrm_read_queued (st word lo width v : Nat) (g : RecQueue) : (s.setStrm st word lo width v).queued g = s.queued g := rfl

/-! ### `Box.setQueued` -/

@[simp] theorem setQueued_phase (q : RecQueue) (n : Nat) : (s.setQueued q n).phase = s.phase := rfl
@[simp] theorem setQueued_raw (q : RecQueue) (n : Nat) : (s.setQueued q n).raw = s.raw := rfl
@[simp] theorem setQueued_freeCtr (q : RecQueue) (n : Nat) : (s.setQueued q n).freeCtr = s.freeCtr := rfl
@[simp] theorem setQueued_outbox (q : RecQueue) (n : Nat) : (s.setQueued q n).outbox = s.outbox := rfl
@[simp] theorem setQueued_regs (q : RecQueue) (n : Nat) : (s.setQueued q n).regs = s.regs := rfl
@[simp] theorem setQueued_tabs (q : RecQueue) (n : Nat) : (s.setQueued q n).tabs = s.tabs := rfl
@[simp] theorem setQueued_ctrs (q : RecQueue) (n : Nat) : (s.setQueued q n).ctrs = s.ctrs := rfl
@[simp] theorem setQueued_shadows (q : RecQueue) (n : Nat) : (s.setQueued q n).shadows = s.shadows := rfl
@[simp] theorem setQueued_copying (q : RecQueue) (n : Nat) : (s.setQueued q n).copying = s.copying := rfl
@[simp] theorem setQueued_copyTick (q : RecQueue) (n : Nat) : (s.setQueued q n).copyTick = s.copyTick := rfl
@[simp] theorem setQueued_preClear (q : RecQueue) (n : Nat) : (s.setQueued q n).preClear = s.preClear := rfl
@[simp] theorem setQueued_clearAt (q : RecQueue) (n : Nat) : (s.setQueued q n).clearAt = s.clearAt := rfl
@[simp] theorem setQueued_snapWait (q : RecQueue) (n : Nat) : (s.setQueued q n).snapWait = s.snapWait := rfl
@[simp] theorem setQueued_snapHad (q : RecQueue) (n : Nat) : (s.setQueued q n).snapHad = s.snapHad := rfl
@[simp] theorem setQueued_hiLatch (q : RecQueue) (n : Nat) : (s.setQueued q n).hiLatch = s.hiLatch := rfl
@[simp] theorem setQueued_fa (q : RecQueue) (n : Nat) : (s.setQueued q n).fa = s.fa := rfl
@[simp] theorem setQueued_na (q : RecQueue) (n : Nat) : (s.setQueued q n).na = s.na := rfl
@[simp] theorem setQueued_rate (q : RecQueue) (n : Nat) : (s.setQueued q n).rate = s.rate := rfl
@[simp] theorem setQueued_repl (q : RecQueue) (n : Nat) : (s.setQueued q n).repl = s.repl := rfl
@[simp] theorem setQueued_ports (q : RecQueue) (n : Nat) : (s.setQueued q n).ports = s.ports := rfl
@[simp] theorem setQueued_tents (q : RecQueue) (n : Nat) : (s.setQueued q n).tents = s.tents := rfl
@[simp] theorem setQueued_descs (q : RecQueue) (n : Nat) : (s.setQueued q n).descs = s.descs := rfl
@[simp] theorem setQueued_descId (q : RecQueue) (n : Nat) : (s.setQueued q n).descId = s.descId := rfl
@[simp] theorem setQueued_admits (q : RecQueue) (n : Nat) : (s.setQueued q n).admits = s.admits := rfl
@[simp] theorem setQueued_spills (q : RecQueue) (n : Nat) : (s.setQueued q n).spills = s.spills := rfl
@[simp] theorem setQueued_staging (q : RecQueue) (n : Nat) : (s.setQueued q n).staging = s.staging := rfl
@[simp] theorem setQueued_results (q : RecQueue) (n : Nat) : (s.setQueued q n).results = s.results := rfl
@[simp] theorem setQueued_fwdOp (q : RecQueue) (n : Nat) : (s.setQueued q n).fwdOp = s.fwdOp := rfl
@[simp] theorem setQueued_fwdSw (q : RecQueue) (n : Nat) : (s.setQueued q n).fwdSw = s.fwdSw := rfl
@[simp] theorem setQueued_notices (q : RecQueue) (n : Nat) : (s.setQueued q n).notices = s.notices := rfl
@[simp] theorem setQueued_mdw (q : RecQueue) (n : Nat) : (s.setQueued q n).mdw = s.mdw := rfl
@[simp] theorem setQueued_cals (q : RecQueue) (n : Nat) : (s.setQueued q n).cals = s.cals := rfl
@[simp] theorem setQueued_buckets (q : RecQueue) (n : Nat) : (s.setQueued q n).buckets = s.buckets := rfl
@[simp] theorem setQueued_backlog (q : RecQueue) (n : Nat) : (s.setQueued q n).backlog = s.backlog := rfl
@[simp] theorem setQueued_mem (q : RecQueue) (n : Nat) : (s.setQueued q n).mem = s.mem := rfl
@[simp] theorem setQueued_samplers (q : RecQueue) (n : Nat) : (s.setQueued q n).samplers = s.samplers := rfl
@[simp] theorem setQueued_smpq (q : RecQueue) (n : Nat) : (s.setQueued q n).smpq = s.smpq := rfl
@[simp] theorem setQueued_inbox (q : RecQueue) (n : Nat) : (s.setQueued q n).inbox = s.inbox := rfl
@[simp] theorem setQueued_qlens (q : RecQueue) (n : Nat) : (s.setQueued q n).qlens = mapSet (fun _ => 0) s.qlens q.ix n := rfl
@[simp] theorem setQueued_collector (q : RecQueue) (n : Nat) : (s.setQueued q n).collector = s.collector := rfl
@[simp] theorem setQueued_vc6Q (q : RecQueue) (n : Nat) : (s.setQueued q n).vc6Q = s.vc6Q := rfl
@[simp] theorem setQueued_bmtSecond (q : RecQueue) (n : Nat) : (s.setQueued q n).bmtSecond = s.bmtSecond := rfl
@[simp] theorem setQueued_portErrs (q : RecQueue) (n : Nat) : (s.setQueued q n).portErrs = s.portErrs := rfl
@[simp] theorem setQueued_slivers (q : RecQueue) (n : Nat) : (s.setQueued q n).slivers = s.slivers := rfl
@[simp] theorem setQueued_streams (q : RecQueue) (n : Nat) : (s.setQueued q n).streams = s.streams := rfl
@[simp] theorem setQueued_carOp (q : RecQueue) (n : Nat) : (s.setQueued q n).carOp = s.carOp := rfl
@[simp] theorem setQueued_bOpened (q : RecQueue) (n : Nat) : (s.setQueued q n).bOpened = s.bOpened := rfl
@[simp] theorem setQueued_resId (q : RecQueue) (n : Nat) : (s.setQueued q n).resId = s.resId := rfl
@[simp] theorem setQueued_replay (q : RecQueue) (n : Nat) : (s.setQueued q n).replay = s.replay := rfl
@[simp] theorem setQueued_kernels (q : RecQueue) (n : Nat) : (s.setQueued q n).kernels = s.kernels := rfl
@[simp] theorem setQueued_kpieces (q : RecQueue) (n : Nat) : (s.setQueued q n).kpieces = s.kpieces := rfl
@[simp] theorem setQueued_kop (q : RecQueue) (n : Nat) : (s.setQueued q n).kop = s.kop := rfl
@[simp] theorem setQueued_substs (q : RecQueue) (n : Nat) : (s.setQueued q n).substs = s.substs := rfl
@[simp] theorem setQueued_sealJobs (q : RecQueue) (n : Nat) : (s.setQueued q n).sealJobs = s.sealJobs := rfl
@[simp] theorem setQueued_sealQ (q : RecQueue) (n : Nat) : (s.setQueued q n).sealQ = s.sealQ := rfl
@[simp] theorem setQueued_sealLast (q : RecQueue) (n : Nat) : (s.setQueued q n).sealLast = s.sealLast := rfl
@[simp] theorem setQueued_sealSigned (q : RecQueue) (n : Nat) : (s.setQueued q n).sealSigned = s.sealSigned := rfl
@[simp] theorem setQueued_aliasKey (q : RecQueue) (n : Nat) : (s.setQueued q n).aliasKey = s.aliasKey := rfl
@[simp] theorem setQueued_aliasCert (q : RecQueue) (n : Nat) : (s.setQueued q n).aliasCert = s.aliasCert := rfl
@[simp] theorem setQueued_deviceKey (q : RecQueue) (n : Nat) : (s.setQueued q n).deviceKey = s.deviceKey := rfl
@[simp] theorem setQueued_udsLocked (q : RecQueue) (n : Nat) : (s.setQueued q n).udsLocked = s.udsLocked := rfl
@[simp] theorem setQueued_events (q : RecQueue) (n : Nat) : (s.setQueued q n).events = s.events := rfl
@[simp] theorem setQueued_spareQuar (q : RecQueue) (n : Nat) : (s.setQueued q n).spareQuar = s.spareQuar := rfl
@[simp] theorem setQueued_occs (q : RecQueue) (n : Nat) : (s.setQueued q n).occs = s.occs := rfl
@[simp] theorem setQueued_hot (q : RecQueue) (n : Nat) : (s.setQueued q n).hot = s.hot := rfl
@[simp] theorem setQueued_hotQ (q : RecQueue) (n : Nat) : (s.setQueued q n).hotQ = s.hotQ := rfl
@[simp] theorem setQueued_hintAt (q : RecQueue) (n : Nat) : (s.setQueued q n).hintAt = s.hintAt := rfl
@[simp] theorem setQueued_rings (q : RecQueue) (n : Nat) : (s.setQueued q n).rings = s.rings := rfl
@[simp] theorem setQueued_lasers (q : RecQueue) (n : Nat) : (s.setQueued q n).lasers = s.lasers := rfl
@[simp] theorem setQueued_lgroups (q : RecQueue) (n : Nat) : (s.setQueued q n).lgroups = s.lgroups := rfl
@[simp] theorem setQueued_engines (q : RecQueue) (n : Nat) : (s.setQueued q n).engines = s.engines := rfl
@[simp] theorem setQueued_aprs (q : RecQueue) (n : Nat) : (s.setQueued q n).aprs = s.aprs := rfl
@[simp] theorem setQueued_plans (q : RecQueue) (n : Nat) : (s.setQueued q n).plans = s.plans := rfl
@[simp] theorem setQueued_trained (q : RecQueue) (n : Nat) : (s.setQueued q n).trained = s.trained := rfl
@[simp] theorem setQueued_initing (q : RecQueue) (n : Nat) : (s.setQueued q n).initing = s.initing := rfl
@[simp] theorem setQueued_spares (q : RecQueue) (n : Nat) : (s.setQueued q n).spares = s.spares := rfl
@[simp] theorem setQueued_memKept (q : RecQueue) (n : Nat) : (s.setQueued q n).memKept = s.memKept := rfl
@[simp] theorem setQueued_hostReads (q : RecQueue) (n : Nat) : (s.setQueued q n).hostReads = s.hostReads := rfl
@[simp] theorem setQueued_badBlocks (q : RecQueue) (n : Nat) : (s.setQueued q n).badBlocks = s.badBlocks := rfl
@[simp] theorem setQueued_kernBad (q : RecQueue) (n : Nat) : (s.setQueued q n).kernBad = s.kernBad := rfl
@[simp] theorem setQueued_deadDevs (q : RecQueue) (n : Nat) : (s.setQueued q n).deadDevs = s.deadDevs := rfl
@[simp] theorem setQueued_applies (q : RecQueue) (n : Nat) : (s.setQueued q n).applies = s.applies := rfl
@[simp] theorem setQueued_servo (q : RecQueue) (n : Nat) : (s.setQueued q n).servo = s.servo := rfl
@[simp] theorem setQueued_ptps (q : RecQueue) (n : Nat) : (s.setQueued q n).ptps = s.ptps := rfl
@[simp] theorem setQueued_pins (q : RecQueue) (n : Nat) : (s.setQueued q n).pins = s.pins := rfl
@[simp] theorem setQueued_launches (q : RecQueue) (n : Nat) : (s.setQueued q n).launches = s.launches := rfl
@[simp] theorem setQueued_fuses (q : RecQueue) (n : Nat) : (s.setQueued q n).fuses = s.fuses := rfl
@[simp] theorem setQueued_fuseOp (q : RecQueue) (n : Nat) : (s.setQueued q n).fuseOp = s.fuseOp := rfl
@[simp] theorem setQueued_fuseRail (q : RecQueue) (n : Nat) : (s.setQueued q n).fuseRail = s.fuseRail := rfl
@[simp] theorem setQueued_flash (q : RecQueue) (n : Nat) : (s.setQueued q n).flash = s.flash := rfl
@[simp] theorem setQueued_image (q : RecQueue) (n : Nat) : (s.setQueued q n).image = s.image := rfl
@[simp] theorem setQueued_update (q : RecQueue) (n : Nat) : (s.setQueued q n).update = s.update := rfl
@[simp] theorem setQueued_resetReq (q : RecQueue) (n : Nat) : (s.setQueued q n).resetReq = s.resetReq := rfl
@[simp] theorem setQueued_pwrOk (q : RecQueue) (n : Nat) : (s.setQueued q n).pwrOk = s.pwrOk := rfl
@[simp] theorem setQueued_railsBad (q : RecQueue) (n : Nat) : (s.setQueued q n).railsBad = s.railsBad := rfl
@[simp] theorem setQueued_refLost (q : RecQueue) (n : Nat) : (s.setQueued q n).refLost = s.refLost := rfl
@[simp] theorem setQueued_straps (q : RecQueue) (n : Nat) : (s.setQueued q n).straps = s.straps := rfl
@[simp] theorem setQueued_memTemps (q : RecQueue) (n : Nat) : (s.setQueued q n).memTemps = s.memTemps := rfl
@[simp] theorem setQueued_tap (q : RecQueue) (n : Nat) : (s.setQueued q n).tap = s.tap := rfl
@[simp] theorem setQueued_alarm (q : RecQueue) (n : Nat) : (s.setQueued q n).alarm = s.alarm := rfl
@[simp] theorem setQueued_trip (q : RecQueue) (n : Nat) : (s.setQueued q n).trip = s.trip := rfl
@[simp] theorem setQueued_calShed (q : RecQueue) (n : Nat) : (s.setQueued q n).calShed = s.calShed := rfl
@[simp] theorem setQueued_cores (q : RecQueue) (n : Nat) : (s.setQueued q n).cores = s.cores := rfl
@[simp] theorem setQueued_dump (q : RecQueue) (n : Nat) : (s.setQueued q n).dump = s.dump := rfl
@[simp] theorem setQueued_sealHash (q : RecQueue) (n : Nat) : (s.setQueued q n).sealHash = s.sealHash := rfl
@[simp] theorem setQueued_wall (q : RecQueue) (n : Nat) : (s.setQueued q n).wall = s.wall := rfl
@[simp] theorem setQueued_cxlLog (q : RecQueue) (n : Nat) : (s.setQueued q n).cxlLog = s.cxlLog := rfl
@[simp] theorem setQueued_doeError (q : RecQueue) (n : Nat) : (s.setQueued q n).doeError = s.doeError := rfl
@[simp] theorem setQueued_doeBusy (q : RecQueue) (n : Nat) : (s.setQueued q n).doeBusy = s.doeBusy := rfl
@[simp] theorem setQueued_cfg (q : RecQueue) (n : Nat) : (s.setQueued q n).cfg = s.cfg := rfl
@[simp] theorem setQueued_cxlRegs (q : RecQueue) (n : Nat) : (s.setQueued q n).cxlRegs = s.cxlRegs := rfl
@[simp] theorem setQueued_ip (q : RecQueue) (n : Nat) : (s.setQueued q n).ip = s.ip := rfl
@[simp] theorem setQueued_ethSecond (q : RecQueue) (n : Nat) : (s.setQueued q n).ethSecond = s.ethSecond := rfl
@[simp] theorem setQueued_i3cAddr (q : RecQueue) (n : Nat) : (s.setQueued q n).i3cAddr = s.i3cAddr := rfl
@[simp] theorem setQueued_eid (q : RecQueue) (n : Nat) : (s.setQueued q n).eid = s.eid := rfl
@[simp] theorem setQueued_spdmDoe (q : RecQueue) (n : Nat) : (s.setQueued q n).spdmDoe = s.spdmDoe := rfl
@[simp] theorem setQueued_spdmMctp (q : RecQueue) (n : Nat) : (s.setQueued q n).spdmMctp = s.spdmMctp := rfl
@[simp] theorem setQueued_spdmSigs (q : RecQueue) (n : Nat) : (s.setQueued q n).spdmSigs = s.spdmSigs := rfl
@[simp] theorem setQueued_bar2 (q : RecQueue) (n : Nat) : (s.setQueued q n).bar2 = s.bar2 := rfl
@[simp] theorem setQueued_read_word (q : RecQueue) (n : Nat) (b : Nat) : (s.setQueued q n).word b = s.word b := rfl
@[simp] theorem setQueued_read_rd (q : RecQueue) (n : Nat) (g : Fld) : (s.setQueued q n).rd g = s.rd g := rfl
@[simp] theorem setQueued_read_is (q : RecQueue) (n : Nat) (g : Fld) : (s.setQueued q n).is g = s.is g := rfl
@[simp] theorem setQueued_read_tab (q : RecQueue) (n : Nat) (b : Nat) : (s.setQueued q n).tab b = s.tab b := rfl
@[simp] theorem setQueued_read_strm (q : RecQueue) (n : Nat) (b : Nat) : (s.setQueued q n).strm b = s.strm b := rfl
@[simp] theorem setQueued_read_grp (q : RecQueue) (n : Nat) (b : Nat) : (s.setQueued q n).grp b = s.grp b := rfl
@[simp] theorem setQueued_read_ctr (q : RecQueue) (n : Nat) (b i : Nat) : (s.setQueued q n).ctr b i = s.ctr b i := rfl
@[simp] theorem setQueued_read_port (q : RecQueue) (n : Nat) (b : Nat) : (s.setQueued q n).port b = s.port b := rfl
@[simp] theorem setQueued_read_tent (q : RecQueue) (n : Nat) (b : Nat) : (s.setQueued q n).tent b = s.tent b := rfl
@[simp] theorem setQueued_read_cal (q : RecQueue) (n : Nat) (b : Nat) : (s.setQueued q n).cal b = s.cal b := rfl
@[simp] theorem setQueued_read_staged (q : RecQueue) (n : Nat) (b : Nat) : (s.setQueued q n).staged b = s.staged b := rfl
@[simp] theorem setQueued_read_sx (q : RecQueue) (n : Nat) (b : Nat) : (s.setQueued q n).sx b = s.sx b := rfl
@[simp] theorem setQueued_read_sliver (q : RecQueue) (n : Nat) (b : Nat) : (s.setQueued q n).sliver b = s.sliver b := rfl

/-! ### `Box.anchored` -/

@[simp] theorem anchored_phase (a : Box) : (s.anchored a).phase = s.phase := rfl
@[simp] theorem anchored_raw (a : Box) : (s.anchored a).raw = a.raw := rfl
@[simp] theorem anchored_freeCtr (a : Box) : (s.anchored a).freeCtr = s.freeCtr := rfl
@[simp] theorem anchored_outbox (a : Box) : (s.anchored a).outbox = s.outbox := rfl
@[simp] theorem anchored_regs (a : Box) : (s.anchored a).regs = s.regs := rfl
@[simp] theorem anchored_tabs (a : Box) : (s.anchored a).tabs = s.tabs := rfl
@[simp] theorem anchored_ctrs (a : Box) : (s.anchored a).ctrs = s.ctrs := rfl
@[simp] theorem anchored_shadows (a : Box) : (s.anchored a).shadows = s.shadows := rfl
@[simp] theorem anchored_copying (a : Box) : (s.anchored a).copying = s.copying := rfl
@[simp] theorem anchored_copyTick (a : Box) : (s.anchored a).copyTick = s.copyTick := rfl
@[simp] theorem anchored_preClear (a : Box) : (s.anchored a).preClear = s.preClear := rfl
@[simp] theorem anchored_clearAt (a : Box) : (s.anchored a).clearAt = s.clearAt := rfl
@[simp] theorem anchored_snapWait (a : Box) : (s.anchored a).snapWait = s.snapWait := rfl
@[simp] theorem anchored_snapHad (a : Box) : (s.anchored a).snapHad = s.snapHad := rfl
@[simp] theorem anchored_hiLatch (a : Box) : (s.anchored a).hiLatch = s.hiLatch := rfl
@[simp] theorem anchored_fa (a : Box) : (s.anchored a).fa = s.fa := rfl
@[simp] theorem anchored_na (a : Box) : (s.anchored a).na = s.na := rfl
@[simp] theorem anchored_rate (a : Box) : (s.anchored a).rate = s.rate := rfl
@[simp] theorem anchored_repl (a : Box) : (s.anchored a).repl = s.repl := rfl
@[simp] theorem anchored_ports (a : Box) : (s.anchored a).ports = s.ports := rfl
@[simp] theorem anchored_tents (a : Box) : (s.anchored a).tents = s.tents := rfl
@[simp] theorem anchored_descs (a : Box) : (s.anchored a).descs = s.descs := rfl
@[simp] theorem anchored_descId (a : Box) : (s.anchored a).descId = s.descId := rfl
@[simp] theorem anchored_admits (a : Box) : (s.anchored a).admits = s.admits := rfl
@[simp] theorem anchored_spills (a : Box) : (s.anchored a).spills = s.spills := rfl
@[simp] theorem anchored_staging (a : Box) : (s.anchored a).staging = s.staging := rfl
@[simp] theorem anchored_results (a : Box) : (s.anchored a).results = s.results := rfl
@[simp] theorem anchored_fwdOp (a : Box) : (s.anchored a).fwdOp = s.fwdOp := rfl
@[simp] theorem anchored_fwdSw (a : Box) : (s.anchored a).fwdSw = s.fwdSw := rfl
@[simp] theorem anchored_notices (a : Box) : (s.anchored a).notices = s.notices := rfl
@[simp] theorem anchored_mdw (a : Box) : (s.anchored a).mdw = s.mdw := rfl
@[simp] theorem anchored_cals (a : Box) : (s.anchored a).cals = s.cals := rfl
@[simp] theorem anchored_buckets (a : Box) : (s.anchored a).buckets = s.buckets := rfl
@[simp] theorem anchored_backlog (a : Box) : (s.anchored a).backlog = s.backlog := rfl
@[simp] theorem anchored_mem (a : Box) : (s.anchored a).mem = s.mem := rfl
@[simp] theorem anchored_samplers (a : Box) : (s.anchored a).samplers = s.samplers := rfl
@[simp] theorem anchored_smpq (a : Box) : (s.anchored a).smpq = s.smpq := rfl
@[simp] theorem anchored_inbox (a : Box) : (s.anchored a).inbox = s.inbox := rfl
@[simp] theorem anchored_qlens (a : Box) : (s.anchored a).qlens = s.qlens := rfl
@[simp] theorem anchored_collector (a : Box) : (s.anchored a).collector = s.collector := rfl
@[simp] theorem anchored_vc6Q (a : Box) : (s.anchored a).vc6Q = s.vc6Q := rfl
@[simp] theorem anchored_bmtSecond (a : Box) : (s.anchored a).bmtSecond = s.bmtSecond := rfl
@[simp] theorem anchored_portErrs (a : Box) : (s.anchored a).portErrs = s.portErrs := rfl
@[simp] theorem anchored_slivers (a : Box) : (s.anchored a).slivers = s.slivers := rfl
@[simp] theorem anchored_streams (a : Box) : (s.anchored a).streams = s.streams := rfl
@[simp] theorem anchored_carOp (a : Box) : (s.anchored a).carOp = s.carOp := rfl
@[simp] theorem anchored_bOpened (a : Box) : (s.anchored a).bOpened = s.bOpened := rfl
@[simp] theorem anchored_resId (a : Box) : (s.anchored a).resId = s.resId := rfl
@[simp] theorem anchored_replay (a : Box) : (s.anchored a).replay = s.replay := rfl
@[simp] theorem anchored_kernels (a : Box) : (s.anchored a).kernels = s.kernels := rfl
@[simp] theorem anchored_kpieces (a : Box) : (s.anchored a).kpieces = s.kpieces := rfl
@[simp] theorem anchored_kop (a : Box) : (s.anchored a).kop = s.kop := rfl
@[simp] theorem anchored_substs (a : Box) : (s.anchored a).substs = s.substs := rfl
@[simp] theorem anchored_sealJobs (a : Box) : (s.anchored a).sealJobs = s.sealJobs := rfl
@[simp] theorem anchored_sealQ (a : Box) : (s.anchored a).sealQ = s.sealQ := rfl
@[simp] theorem anchored_sealLast (a : Box) : (s.anchored a).sealLast = s.sealLast := rfl
@[simp] theorem anchored_sealSigned (a : Box) : (s.anchored a).sealSigned = s.sealSigned := rfl
@[simp] theorem anchored_aliasKey (a : Box) : (s.anchored a).aliasKey = s.aliasKey := rfl
@[simp] theorem anchored_aliasCert (a : Box) : (s.anchored a).aliasCert = s.aliasCert := rfl
@[simp] theorem anchored_deviceKey (a : Box) : (s.anchored a).deviceKey = s.deviceKey := rfl
@[simp] theorem anchored_udsLocked (a : Box) : (s.anchored a).udsLocked = s.udsLocked := rfl
@[simp] theorem anchored_events (a : Box) : (s.anchored a).events = s.events := rfl
@[simp] theorem anchored_spareQuar (a : Box) : (s.anchored a).spareQuar = s.spareQuar := rfl
@[simp] theorem anchored_occs (a : Box) : (s.anchored a).occs = s.occs := rfl
@[simp] theorem anchored_hot (a : Box) : (s.anchored a).hot = s.hot := rfl
@[simp] theorem anchored_hotQ (a : Box) : (s.anchored a).hotQ = s.hotQ := rfl
@[simp] theorem anchored_hintAt (a : Box) : (s.anchored a).hintAt = s.hintAt := rfl
@[simp] theorem anchored_rings (a : Box) : (s.anchored a).rings = s.rings := rfl
@[simp] theorem anchored_lasers (a : Box) : (s.anchored a).lasers = s.lasers := rfl
@[simp] theorem anchored_lgroups (a : Box) : (s.anchored a).lgroups = s.lgroups := rfl
@[simp] theorem anchored_engines (a : Box) : (s.anchored a).engines = s.engines := rfl
@[simp] theorem anchored_aprs (a : Box) : (s.anchored a).aprs = s.aprs := rfl
@[simp] theorem anchored_plans (a : Box) : (s.anchored a).plans = s.plans := rfl
@[simp] theorem anchored_trained (a : Box) : (s.anchored a).trained = s.trained := rfl
@[simp] theorem anchored_initing (a : Box) : (s.anchored a).initing = s.initing := rfl
@[simp] theorem anchored_spares (a : Box) : (s.anchored a).spares = s.spares := rfl
@[simp] theorem anchored_memKept (a : Box) : (s.anchored a).memKept = s.memKept := rfl
@[simp] theorem anchored_hostReads (a : Box) : (s.anchored a).hostReads = s.hostReads := rfl
@[simp] theorem anchored_badBlocks (a : Box) : (s.anchored a).badBlocks = s.badBlocks := rfl
@[simp] theorem anchored_kernBad (a : Box) : (s.anchored a).kernBad = s.kernBad := rfl
@[simp] theorem anchored_deadDevs (a : Box) : (s.anchored a).deadDevs = s.deadDevs := rfl
@[simp] theorem anchored_applies (a : Box) : (s.anchored a).applies = s.applies := rfl
@[simp] theorem anchored_servo (a : Box) : (s.anchored a).servo = s.servo := rfl
@[simp] theorem anchored_ptps (a : Box) : (s.anchored a).ptps = s.ptps := rfl
@[simp] theorem anchored_pins (a : Box) : (s.anchored a).pins = s.pins := rfl
@[simp] theorem anchored_launches (a : Box) : (s.anchored a).launches = s.launches := rfl
@[simp] theorem anchored_fuses (a : Box) : (s.anchored a).fuses = a.fuses := rfl
@[simp] theorem anchored_fuseOp (a : Box) : (s.anchored a).fuseOp = s.fuseOp := rfl
@[simp] theorem anchored_fuseRail (a : Box) : (s.anchored a).fuseRail = s.fuseRail := rfl
@[simp] theorem anchored_flash (a : Box) : (s.anchored a).flash = s.flash := rfl
@[simp] theorem anchored_image (a : Box) : (s.anchored a).image = s.image := rfl
@[simp] theorem anchored_update (a : Box) : (s.anchored a).update = s.update := rfl
@[simp] theorem anchored_resetReq (a : Box) : (s.anchored a).resetReq = s.resetReq := rfl
@[simp] theorem anchored_pwrOk (a : Box) : (s.anchored a).pwrOk = a.pwrOk := rfl
@[simp] theorem anchored_railsBad (a : Box) : (s.anchored a).railsBad = a.railsBad := rfl
@[simp] theorem anchored_refLost (a : Box) : (s.anchored a).refLost = a.refLost := rfl
@[simp] theorem anchored_straps (a : Box) : (s.anchored a).straps = a.straps := rfl
@[simp] theorem anchored_memTemps (a : Box) : (s.anchored a).memTemps = s.memTemps := rfl
@[simp] theorem anchored_tap (a : Box) : (s.anchored a).tap = s.tap := rfl
@[simp] theorem anchored_alarm (a : Box) : (s.anchored a).alarm = s.alarm := rfl
@[simp] theorem anchored_trip (a : Box) : (s.anchored a).trip = s.trip := rfl
@[simp] theorem anchored_calShed (a : Box) : (s.anchored a).calShed = s.calShed := rfl
@[simp] theorem anchored_cores (a : Box) : (s.anchored a).cores = s.cores := rfl
@[simp] theorem anchored_dump (a : Box) : (s.anchored a).dump = s.dump := rfl
@[simp] theorem anchored_sealHash (a : Box) : (s.anchored a).sealHash = s.sealHash := rfl
@[simp] theorem anchored_wall (a : Box) : (s.anchored a).wall = s.wall := rfl
@[simp] theorem anchored_cxlLog (a : Box) : (s.anchored a).cxlLog = s.cxlLog := rfl
@[simp] theorem anchored_doeError (a : Box) : (s.anchored a).doeError = s.doeError := rfl
@[simp] theorem anchored_doeBusy (a : Box) : (s.anchored a).doeBusy = s.doeBusy := rfl
@[simp] theorem anchored_cfg (a : Box) : (s.anchored a).cfg = s.cfg := rfl
@[simp] theorem anchored_cxlRegs (a : Box) : (s.anchored a).cxlRegs = s.cxlRegs := rfl
@[simp] theorem anchored_ip (a : Box) : (s.anchored a).ip = s.ip := rfl
@[simp] theorem anchored_ethSecond (a : Box) : (s.anchored a).ethSecond = s.ethSecond := rfl
@[simp] theorem anchored_i3cAddr (a : Box) : (s.anchored a).i3cAddr = s.i3cAddr := rfl
@[simp] theorem anchored_eid (a : Box) : (s.anchored a).eid = s.eid := rfl
@[simp] theorem anchored_spdmDoe (a : Box) : (s.anchored a).spdmDoe = s.spdmDoe := rfl
@[simp] theorem anchored_spdmMctp (a : Box) : (s.anchored a).spdmMctp = s.spdmMctp := rfl
@[simp] theorem anchored_spdmSigs (a : Box) : (s.anchored a).spdmSigs = s.spdmSigs := rfl
@[simp] theorem anchored_bar2 (a : Box) : (s.anchored a).bar2 = s.bar2 := rfl
@[simp] theorem anchored_read_word (a : Box) (b : Nat) : (s.anchored a).word b = s.word b := rfl
@[simp] theorem anchored_read_rd (a : Box) (g : Fld) : (s.anchored a).rd g = s.rd g := rfl
@[simp] theorem anchored_read_is (a : Box) (g : Fld) : (s.anchored a).is g = s.is g := rfl
@[simp] theorem anchored_read_tab (a : Box) (b : Nat) : (s.anchored a).tab b = s.tab b := rfl
@[simp] theorem anchored_read_strm (a : Box) (b : Nat) : (s.anchored a).strm b = s.strm b := rfl
@[simp] theorem anchored_read_grp (a : Box) (b : Nat) : (s.anchored a).grp b = s.grp b := rfl
@[simp] theorem anchored_read_ctr (a : Box) (b i : Nat) : (s.anchored a).ctr b i = s.ctr b i := rfl
@[simp] theorem anchored_read_port (a : Box) (b : Nat) : (s.anchored a).port b = s.port b := rfl
@[simp] theorem anchored_read_tent (a : Box) (b : Nat) : (s.anchored a).tent b = s.tent b := rfl
@[simp] theorem anchored_read_cal (a : Box) (b : Nat) : (s.anchored a).cal b = s.cal b := rfl
@[simp] theorem anchored_read_staged (a : Box) (b : Nat) : (s.anchored a).staged b = s.staged b := rfl
@[simp] theorem anchored_read_sx (a : Box) (b : Nat) : (s.anchored a).sx b = s.sx b := rfl
@[simp] theorem anchored_read_sliver (a : Box) (b : Nat) : (s.anchored a).sliver b = s.sliver b := rfl
@[simp] theorem anchored_read_queued (a : Box) (g : RecQueue) : (s.anchored a).queued g = s.queued g := rfl

/-! ### A read after a write -/

@[simp] theorem word_setWord (a : Nat) (w : Word) : (s.setWord a w).word a = w := mapGet_mapSet_same _ _ _ _

theorem word_setWord_other {a b : Nat} (w : Word) (h : b ≠ a) : (s.setWord a w).word b = s.word b :=
  mapGet_mapSet_other _ _ _ h

/-- A field reads back what was written to it. -/
theorem rd_wr (f : Fld) (v : Nat) (h : f.lo + f.width ≤ 32) : (s.wr f v).rd f = v % 2 ^ f.width := by
  simp only [Box.rd, Box.wr, word_setWord]
  exact wordField_wordWith_same _ _ _ _ h

/-- A write of a field leaves the fields of other words. -/
theorem rd_wr_word (f g : Fld) (v : Nat) (h : g.addr ≠ f.addr) : (s.wr f v).rd g = s.rd g := by
  simp only [Box.rd, Box.wr, word_setWord_other s _ h]

/-- A write of a field leaves the disjoint fields of its word. -/
theorem rd_wr_disjoint (f g : Fld) (v : Nat) (h : f.lo + f.width ≤ 32)
    (hd : g.lo + g.width ≤ f.lo ∨ f.lo + f.width ≤ g.lo) : (s.wr f v).rd g = s.rd g := by
  by_cases ha : g.addr = f.addr
  · simp only [Box.rd, Box.wr, ha, word_setWord]
    rcases hd with hd | hd
    · exact wordField_wordWith_below _ _ _ _ _ _ h hd
    · exact wordField_wordWith_above _ _ _ _ _ _ h hd
  · exact rd_wr_word s f g v ha

/-- A one-bit field reads back what was put into it. -/
theorem is_put (f : Fld) (v : Bool) (h : f.lo + f.width ≤ 32) (hw : 0 < f.width) : (s.put f v).is f = v := by
  have h2 : 2 ≤ 2 ^ f.width := by
    calc 2 = 2 ^ 1 := rfl
      _ ≤ 2 ^ f.width := Nat.pow_le_pow_right (by omega) hw
  simp only [Box.is, Box.put, rd_wr s f _ h]
  cases v
  · simp
  · simp only [b2n_true]
    rw [Nat.mod_eq_of_lt (by omega)]
    rfl

theorem is_put_word (f g : Fld) (v : Bool) (h : g.addr ≠ f.addr) : (s.put f v).is g = s.is g := by
  simp only [Box.is, Box.put, rd_wr_word s f g _ h]

theorem rd_put_word (f g : Fld) (v : Bool) (h : g.addr ≠ f.addr) : (s.put f v).rd g = s.rd g := rd_wr_word s f g _ h

theorem is_wr_word (f g : Fld) (v : Nat) (h : g.addr ≠ f.addr) : (s.wr f v).is g = s.is g := by
  simp only [Box.is, rd_wr_word s f g _ h]

@[simp] theorem tab_setTab (a : Nat) (w : Word) : (s.setTab a w).tab a = w := mapGet_mapSet_same _ _ _ _

theorem tab_setTab_other {a b : Nat} (w : Word) (h : b ≠ a) : (s.setTab a w).tab b = s.tab b :=
  mapGet_mapSet_other _ _ _ h

@[simp] theorem port_setPort (p : Nat) (x : Port) : (s.setPort p x).port p = x := mapGet_mapSet_same _ _ _ _

theorem port_setPort_other {p q : Nat} (x : Port) (h : q ≠ p) : (s.setPort p x).port q = s.port q :=
  mapGet_mapSet_other _ _ _ h

@[simp] theorem tent_setTent (t : Nat) (x : Tent) : (s.setTent t x).tent t = x := mapGet_mapSet_same _ _ _ _
@[simp] theorem cal_setCal (p : Nat) (x : Cal) : (s.setCal p x).cal p = x := mapGet_mapSet_same _ _ _ _
@[simp] theorem staged_setStaged (k : Nat) (x : List Staged) : (s.setStaged k x).staged k = x := mapGet_mapSet_same _ _ _ _
@[simp] theorem sx_setSx (st : Nat) (x : StreamX) : (s.setSx st x).sx st = x := mapGet_mapSet_same _ _ _ _
@[simp] theorem sliver_setSliver (i : Nat) (x : Sliver) : (s.setSliver i x).sliver i = x := mapGet_mapSet_same _ _ _ _
@[simp] theorem queued_setQueued (q : RecQueue) (n : Nat) : (s.setQueued q n).queued q = n := mapGet_mapSet_same _ _ _ _

end Sys2Proof.Laws
end

