-- ==== Sys2Proof/Laws/Ops.lean ====
section
/-!
SUPPORT. What each shared operation can do, once: how a command acts, what a cause bit, an error indication, a counter and a
record change.
-/

namespace Sys2Proof.Laws

open Sys2Proof Sys2Proof.Machine

/-! ### How a command acts -/

section act

variable (s : State) (f : Box → Box)

@[simp] theorem onBox_pending : (s.onBox f).pending = s.pending := rfl
@[simp] theorem onBox_raw : (s.onBox f).raw = s.raw := rfl
@[simp] theorem onBox_fuses : (s.onBox f).fuses = s.fuses := rfl
@[simp] theorem onBox_pwrOk : (s.onBox f).pwrOk = s.pwrOk := rfl
@[simp] theorem onBox_railsBad : (s.onBox f).railsBad = s.railsBad := rfl
@[simp] theorem onBox_refLost : (s.onBox f).refLost = s.refLost := rfl
@[simp] theorem onBox_straps : (s.onBox f).straps = s.straps := rfl
@[simp] theorem onPart_pending : (s.onPart f).pending = s.pending := rfl
@[simp] theorem onPart_toBox : (s.onPart f).toBox = f s.toBox := rfl
@[simp] theorem onBox_toBox : (s.onBox f).toBox = (f s.toBox).anchored s.toBox := rfl

/-- The clock, the fuses, the pins and the queue of a state. -/
def sameAnchors (s t : State) : Prop :=
  t.pending = s.pending ∧ t.raw = s.raw ∧ t.fuses = s.fuses ∧ t.pwrOk = s.pwrOk ∧ t.railsBad = s.railsBad
    ∧ t.refLost = s.refLost ∧ t.straps = s.straps

theorem onBox_sameAnchors : sameAnchors s (s.onBox f) := ⟨rfl, rfl, rfl, rfl, rfl, rfl, rfl⟩

theorem sameAnchors_refl : sameAnchors s s := ⟨rfl, rfl, rfl, rfl, rfl, rfl, rfl⟩

/-- A command on the block answers a next state with the same anchors. -/
theorem act_cases : ∃ t, s.act f = .next t ∧ sameAnchors s t := by
  by_cases h : s.phase.alive = true
  · exact ⟨s.onBox f, by simp [State.act, h], onBox_sameAnchors s f⟩
  · exact ⟨s, by simp [State.act, h], sameAnchors_refl s⟩

theorem actRun_cases : ∃ t, s.actRun f = .next t ∧ sameAnchors s t := by
  by_cases h : s.phase = .run
  · exact ⟨s.onBox f, by simp [State.actRun, h], onBox_sameAnchors s f⟩
  · exact ⟨s, by simp [State.actRun, h], sameAnchors_refl s⟩

theorem actReg_cases (a : Nat) (src : Requester) : ∃ t, s.actReg a src f = .next t ∧ sameAnchors s t := act_cases s _

/-- A reset or fuse command answers a next state with the same queue. -/
theorem actPart_cases : ∃ t, s.actPart f = .next t ∧ t.pending = s.pending := by
  by_cases h : s.phase.alive = true
  · exact ⟨s.onPart f, by simp [State.actPart, h], rfl⟩
  · exact ⟨s, by simp [State.actPart, h], rfl⟩

/-- While the device runs, a command acts. -/
theorem actRun_run (h : s.phase = .run) : s.actRun f = .next (s.onBox f) := by simp [State.actRun, h]

theorem act_run (h : s.phase = .run) : s.act f = .next (s.onBox f) := by simp [State.act, h, Phase.alive]

theorem actPart_run (h : s.phase = .run) : s.actPart f = .next (s.onPart f) := by simp [State.actPart, h, Phase.alive]

/-- While the device runs, a command of a requester whose accesses reach it acts. -/
theorem actHost_run (src : Requester) (h : s.phase = .run) (hs : s.reaches src = true) :
    s.actHost src f = .next (s.onBox f) := by
  rw [State.actHost, act_run s _ h]
  simp [State.onBox, hs]

/-- While the device runs and the register's page is READY, a register write that reaches it acts. -/
theorem actReg_run (a : Nat) (src : Requester) (h : s.phase = .run) (hs : s.reaches src = true)
    (hr : s.is (PAGE_STATUS_READY (wordPage a)) = true) :
    s.actReg a src f = .next (s.onBox f) := by
  rw [State.actReg, actHost_run s _ src h hs]
  simp [State.onBox, Box.gateWrite, h, hr]

/-- Every requester but the driver reaches the device whether or not the CXL link is up. -/
theorem reaches_of_ne (b : Box) (src : Requester) (h : src ≠ .driver) : b.reaches src = true := by simp [Box.reaches, h]

end act

/-! ### Registers and messages -/

/-- `t` is `s` but for register words and what has left the block. -/
def onlyRegs (s t : Box) : Prop := ∃ r o, t = { s with regs := r, outbox := o }

variable {s t u : Box}

theorem onlyRegs_refl (s : Box) : onlyRegs s s := ⟨s.regs, s.outbox, rfl⟩

theorem onlyRegs_trans (h : onlyRegs s t) (k : onlyRegs t u) : onlyRegs s u := by
  obtain ⟨_, _, rfl⟩ := h
  obtain ⟨r, o, rfl⟩ := k
  exact ⟨r, o, rfl⟩

theorem setWord_onlyRegs (s : Box) (a : Nat) (w : Word) : onlyRegs s (s.setWord a w) := ⟨_, s.outbox, rfl⟩
theorem wr_onlyRegs (s : Box) (f : Fld) (v : Nat) : onlyRegs s (s.wr f v) := ⟨_, s.outbox, rfl⟩
theorem put_onlyRegs (s : Box) (f : Fld) (b : Bool) : onlyRegs s (s.put f b) := ⟨_, s.outbox, rfl⟩
theorem emit_onlyRegs (s : Box) (o : Out) : onlyRegs s (s.emit o) := ⟨s.regs, _, rfl⟩

theorem setWords_onlyRegs (s : Box) (a : Nat) (ws : List Word) : onlyRegs s (s.setWords a ws) := by
  induction ws generalizing s a with
  | nil => exact onlyRegs_refl s
  | cons w ws ih => exact onlyRegs_trans (setWord_onlyRegs s a w) (ih _ _)

theorem sendVector_onlyRegs (s : Box) (v : Nat) : onlyRegs s (s.sendVector v) := by
  rw [Box.sendVector]
  split
  · exact put_onlyRegs _ _ _
  · exact emit_onlyRegs _ _

/-- Setting a cause bit changes register words and sends at most a message. -/
theorem raiseInt_onlyRegs (s : Box) (p : Page) (bit : Nat) : onlyRegs s (s.raiseInt p bit) := by
  simp only [Box.raiseInt]
  split
  · exact onlyRegs_trans (put_onlyRegs _ _ _) (sendVector_onlyRegs _ _)
  · exact put_onlyRegs _ _ _

theorem resendVector_onlyRegs (s : Box) (p : Page) : onlyRegs s (s.resendVector p) := by
  rw [Box.resendVector]
  split
  · exact sendVector_onlyRegs _ _
  · exact onlyRegs_refl _

/-- An error indication changes register words and sends at most a message. -/
theorem pageErr_onlyRegs (s : Box) (p : Page) (off : Nat) (src : Requester) (f : Fld) :
    onlyRegs s (s.pageErr p off src f) := by
  simp only [Box.pageErr]
  have h1 : onlyRegs s
      (if s.is (PAGE_ERR_ACCERR p) || s.is (PAGE_ERR_RSVW p) then s.put (PAGE_ERR_OVERRUN p) true
       else (s.wr (PAGE_ERR_OFFSET p) off).wr (PAGE_ERR_SOURCE p) (srcCode src)) := by
    split
    · exact put_onlyRegs _ _ _
    · exact onlyRegs_trans (wr_onlyRegs _ _ _) (wr_onlyRegs _ _ _)
  have h2 := onlyRegs_trans h1 (put_onlyRegs _ f true)
  split
  · exact h2
  · exact onlyRegs_trans h2 (raiseInt_onlyRegs _ _ _)

theorem accErr_onlyRegs (s : Box) (p : Page) (off : Nat) (src : Requester) : onlyRegs s (s.accErr p off src) :=
  pageErr_onlyRegs _ _ _ _ _

theorem rsvWrite_onlyRegs (s : Box) (p : Page) (off : Nat) (src : Requester) : onlyRegs s (s.rsvWrite p off src) :=
  pageErr_onlyRegs _ _ _ _ _

/-- A register write changes beside its own effect no more than an access error does. -/
theorem gateWrite_cases (s : Box) (a : Nat) (src : Requester) (f : Box → Box) :
    s.gateWrite a src f = f s ∨ onlyRegs s (s.gateWrite a src f) := by
  simp only [Box.gateWrite]
  split
  · exact .inr (onlyRegs_refl _)
  · split
    · exact .inr (accErr_onlyRegs _ _ _ _)
    · exact .inl rfl

/-! ### Counters -/

/-- Counting changes the counter, and at a wrap the overflow indications. -/
theorem bump_ctrs (s : Box) (p : Page) (i n : Nat) :
    (s.bump p i n).ctrs = mapSet (fun _ => 0) s.ctrs (p * 4096 + i) (BitVec.ofNat 64 ((s.ctr p i).toNat + n)) := by
  simp only [Box.bump]
  split
  · obtain ⟨r, o, h⟩ := raiseInt_onlyRegs
      (({ s with ctrs := mapSet (fun _ => 0) s.ctrs (p * 4096 + i) (BitVec.ofNat 64 ((s.ctr p i).toNat + n)) } : Box).put
        (ovfFld p i) true) p 30
    rw [h]; rfl
  · rfl

/-- A counter counts modulo 2^64. -/
theorem ctr_bump (s : Box) (p : Page) (i n : Nat) :
    (s.bump p i n).ctr p i = BitVec.ofNat 64 ((s.ctr p i).toNat + n) := by
  rw [Box.ctr, bump_ctrs, mapGet_mapSet_same]

/-- Another counter stays. -/
theorem ctr_bump_other (s : Box) (p q : Page) (i j n : Nat) (h : q * 4096 + j ≠ p * 4096 + i) :
    (s.bump p i n).ctr q j = s.ctr q j := by
  rw [Box.ctr, bump_ctrs, mapGet_mapSet_other _ _ _ h]; rfl

theorem count_ctr (s : Box) (p : Page) (i : Nat) : (s.count p i).ctr p i = BitVec.ofNat 64 ((s.ctr p i).toNat + 1) :=
  ctr_bump s p i 1

/-- `t` is `s` but for register words, counters and what has left the block. -/
def onlyRegsCtrs (s t : Box) : Prop := ∃ r o c, t = { s with regs := r, outbox := o, ctrs := c }

theorem onlyRegs.toCtrs (h : onlyRegs s t) : onlyRegsCtrs s t := by
  obtain ⟨r, o, rfl⟩ := h
  exact ⟨r, o, s.ctrs, rfl⟩

theorem onlyRegsCtrs_refl (s : Box) : onlyRegsCtrs s s := (onlyRegs_refl s).toCtrs

theorem onlyRegsCtrs_trans (h : onlyRegsCtrs s t) (k : onlyRegsCtrs t u) : onlyRegsCtrs s u := by
  obtain ⟨_, _, _, rfl⟩ := h
  obtain ⟨r, o, c, rfl⟩ := k
  exact ⟨r, o, c, rfl⟩

theorem bump_onlyRegsCtrs (s : Box) (p : Page) (i n : Nat) : onlyRegsCtrs s (s.bump p i n) := by
  simp only [Box.bump]
  have h : onlyRegsCtrs s
      { s with ctrs := mapSet (fun _ => 0) s.ctrs (p * 4096 + i) (BitVec.ofNat 64 ((s.ctr p i).toNat + n)) } :=
    ⟨s.regs, s.outbox, _, rfl⟩
  split
  · exact onlyRegsCtrs_trans h (onlyRegs_trans (put_onlyRegs _ _ _) (raiseInt_onlyRegs _ _ _)).toCtrs
  · exact h

theorem countPort_onlyRegsCtrs (s : Box) (pg : Page) (i p n : Nat) : onlyRegsCtrs s (s.countPort pg i p n) := by
  rw [Box.countPort]
  split
  · exact bump_onlyRegsCtrs _ _ _ _
  · exact onlyRegsCtrs_refl _

/-! ### What has nothing to do -/

/-- No change's apply tick has come: fabric time stays as it is. -/
theorem timeDue_none (s : Box) (h : ∀ a ∈ s.applies, s.raw < a.at_) : s.timeDue = s := by
  have : (s.applies.any fun a => decide (a.at_ ≤ s.raw)) = false := by simpa using h
  simp [Box.timeDue, this]

/-- No upset is under way in the sliver. -/
theorem upsetTick_none (s : Box) (sl n : Nat) (h : (s.sliver sl).upsetIn = none) : s.upsetTick sl n = s := by
  simp [Box.upsetTick, h]

/-- Between two readings of the sensors a tick only ends the Busy of the DOE mailboxes. -/
theorem aliveTick_between (s : Box) (h : s.raw % 640000 ≠ 0) : s.aliveTick = { s with doeBusy := [] } := by
  simp [Box.aliveTick, h]

/-! ### One step -/

/-- A step with a command waiting is that command's effect on the queue's rest. -/
theorem step_cons (s : State) (c : Instr) (q : List Instr) (h : s.pending = c :: q) :
    step s = exec c { s with pending := q } := by
  simp [step, h]

/-- A step with none waiting is a raw tick. -/
theorem step_nil (s : State) (h : s.pending = []) : step s = .next s.tick := by
  simp [step, h]

theorem tick_pending (s : State) : s.tick.pending = s.pending := by
  simp only [State.tick]
  split <;> split <;> rfl

theorem tick_raw (s : State) : s.tick.raw = s.raw + 1 := by
  simp only [State.tick]
  split <;> split <;> rfl

theorem tick_fuses (s : State) : s.tick.fuses = s.fuses := by
  simp only [State.tick]
  split <;> split <;> rfl

end Sys2Proof.Laws
end

