-- ==== Sys2Proof/Laws/Words.lean ====
section
/-!
SUPPORT. Which register words a write, a cause bit, an error indication and a counter leave as they were.
-/

namespace Sys2Proof.Laws

open Sys2Proof Sys2Proof.Machine Sys2Proof.Safety

theorem sameWords_refl (ws : List Nat) (s : Box) : sameWords ws s s := fun _ _ => rfl

theorem sameWords_trans {ws : List Nat} {s t u : Box} (h : sameWords ws s t) (k : sameWords ws t u) : sameWords ws s u :=
  fun a ha => (k a ha).trans (h a ha)

theorem sameWords_mono {ws vs : List Nat} {s t : Box} (h : sameWords ws s t) (hs : ∀ a, a ∈ ws → a ∈ vs) :
    sameWords vs s t := fun a ha => h a fun hw => ha (hs a hw)

theorem setWord_sameWords (s : Box) (a : Nat) (w : Word) : sameWords [a] s (s.setWord a w) := by
  intro b hb
  exact word_setWord_other s w (by simpa using hb)

theorem wr_sameWords (s : Box) (f : Fld) (v : Nat) : sameWords [f.addr] s (s.wr f v) := setWord_sameWords _ _ _

theorem put_sameWords (s : Box) (f : Fld) (b : Bool) : sameWords [f.addr] s (s.put f b) := setWord_sameWords _ _ _

theorem emit_sameWords (s : Box) (o : Out) : sameWords [] s (s.emit o) := fun _ _ => rfl

theorem sendVector_sameWords (s : Box) (v : Nat) : sameWords [0xF28000 + 4 * (v / 32)] s (s.sendVector v) := by
  rw [Box.sendVector]
  split
  · exact put_sameWords _ (msixPba v) _
  · exact sameWords_mono (emit_sameWords _ _) (by simp)

theorem raiseInt_sameWords (s : Box) (p : Page) (bit : Nat) : sameWords (causeWords p) s (s.raiseInt p bit) := by
  have h1 : sameWords (causeWords p) s (s.put (pageFld p 16 bit 1) true) :=
    sameWords_mono (put_sameWords _ _ _) (by simp [causeWords, pageFld])
  simp only [Box.raiseInt]
  split
  · exact sameWords_trans h1 (sameWords_mono (sendVector_sameWords _ _) (by simp [causeWords]))
  · exact h1

theorem resendVector_sameWords (s : Box) (p : Page) : sameWords (causeWords p) s (s.resendVector p) := by
  rw [Box.resendVector]
  split
  · exact sameWords_mono (sendVector_sameWords _ _) (by simp [causeWords])
  · exact sameWords_refl _ _

theorem pageErr_sameWords (s : Box) (p : Page) (off : Nat) (src : Requester) (f : Fld) (hf : f.addr = pageBase p + 12) :
    sameWords (errorWords p) s (s.pageErr p off src f) := by
  have e : ∀ (b : Box) (g : Fld) (v : Nat), g.addr = pageBase p + 12 → sameWords (errorWords p) b (b.wr g v) := by
    intro b g v hg
    exact sameWords_mono (wr_sameWords _ _ _) (by simp [errorWords, hg])
  have e' : ∀ (b : Box) (g : Fld) (v : Bool), g.addr = pageBase p + 12 → sameWords (errorWords p) b (b.put g v) :=
    fun b g v hg => e b g _ hg
  simp only [Box.pageErr]
  have h1 : sameWords (errorWords p) s
      (if s.is (PAGE_ERR_ACCERR p) || s.is (PAGE_ERR_RSVW p) then s.put (PAGE_ERR_OVERRUN p) true
       else (s.wr (PAGE_ERR_OFFSET p) off).wr (PAGE_ERR_SOURCE p) (srcCode src)) := by
    split
    · exact e' _ _ _ rfl
    · exact sameWords_trans (e _ _ _ rfl) (e _ _ _ rfl)
  have h2 := sameWords_trans h1 (e' _ f true hf)
  split
  · exact h2
  · exact sameWords_trans h2 (sameWords_mono (raiseInt_sameWords _ _ _) (by simp [errorWords]; tauto))

theorem bump_sameWords (s : Box) (p : Page) (i n : Nat) :
    sameWords ((ovfFld p i).addr :: causeWords p) s (s.bump p i n) := by
  simp only [Box.bump]
  generalize mapSet (fun _ => (0 : BitVec 64)) s.ctrs (p * 4096 + i) (BitVec.ofNat 64 ((s.ctr p i).toNat + n)) = c
  have h0 : sameWords ((ovfFld p i).addr :: causeWords p) s { s with ctrs := c } := fun _ _ => rfl
  split
  · have h1 := sameWords_mono (vs := (ovfFld p i).addr :: causeWords p)
      (put_sameWords { s with ctrs := c } (ovfFld p i) true) (by simp)
    have h2 := sameWords_mono (vs := (ovfFld p i).addr :: causeWords p)
      (raiseInt_sameWords (({ s with ctrs := c } : Box).put (ovfFld p i) true) p 30) (by simp; tauto)
    exact sameWords_trans h0 (sameWords_trans h1 h2)
  · exact h0

/-- The offset of an INT_PEND word on its page. -/
theorem pageBase_mod (p : Page) : pageBase p % 0x10000 = 0 := by
  simp only [pageBase]
  split <;> omega

/-- Setting a cause bit sets it. -/
theorem raiseInt_sets (s : Box) (p : Page) (bit : Nat) (hb : bit < 32) (hv : pageVector p / 32 < 0x1000) :
    (s.raiseInt p bit).is (pageFld p 16 bit 1) = true := by
  have h1 : (s.put (pageFld p 16 bit 1) true).is (pageFld p 16 bit 1) = true :=
    is_put _ _ _ (by simp [pageFld]; omega) (by simp [pageFld])
  simp only [Box.raiseInt]
  split
  · have hm := pageBase_mod p
    have := sendVector_sameWords (s.put (pageFld p 16 bit 1) true) (pageVector p) (pageBase p + 16) (by
      simp only [List.mem_singleton]
      omega)
    rw [Box.is, Box.rd] at h1 ⊢
    rw [show (pageFld p 16 bit 1).addr = pageBase p + 16 from rfl] at h1 ⊢
    rw [this]
    exact h1
  · exact h1

end Sys2Proof.Laws
end

