-- ==== Sys2Proof/Tests/Slice0.lean ====
section
/-!
SUPPORT. Tests. Each `test_` theorem is one command on a small state with an expected result worked out from the spec; each
`witness_` theorem shows small states and operands that meet the hypotheses of the obligation it names, clause by clause;
`illformed_` theorems show an ill-formed command for every check of `Instr.wf`.
-/

namespace Sys2Proof.Tests

open Sys2Proof Sys2Proof.Machine Sys2Proof.Safety

-- Each theorem's kernel check ends before the next begins: the checks in waiting would hold a thread each.
set_option Elab.async false

/-! ### Small states -/

/-- The block after reset with every page READY and firmware running. -/
def ready : State :=
  { State.reset with regs := sortBy (fun a b => decide (a.1 ≤ b.1)) (allPages.map fun p => (pageBase p + 8, 1)) }

theorem ready_wf : wellFormed ready = true := by decide +kernel

/-- A state with register fields set. -/
def fields (s : State) : List (Fld × Nat) → State
  | [] => s
  | (f, v) :: l => fields { s with toBox := s.toBox.wr f v } l

/-- The block with firmware running. -/
def served : State := fields ready [(SEC_BOOT_STATUS_BOOT_STATE, 1)]

/-! ### Ill-formed commands -/

theorem illformed_counter_reads : (Instr.counterLoRead .driver 4).wf = false ∧ (Instr.counterHiRead .driver 0).wf = false
    ∧ (Instr.counterLoRead .driver (BitVec.ofNat 28 (pageBase 0xC + 0x1300))).wf = true := by decide +kernel

theorem illformed_flit : (Instr.flitReceive 0 ⟨[], false, 0, 0, 0, 0⟩).wf = false := rfl

/-- Page 0x808 has no counters (16_registers.md R454). -/
theorem illformed_pages_without_counters : (Instr.cntSnap .driver 0x808).wf = false
    ∧ (Instr.cntClear .driver 0x808).wf = false ∧ (Instr.snapshotDone 0x808).wf = false := by decide +kernel

theorem illformed_bar2_unaligned : (Instr.bar2Write .driver 2 [0]).wf = false := rfl

theorem illformed_pages_unmapped : (Instr.intForce .driver 0x8FF 0).wf = false
    ∧ (Instr.intEnWrite .driver 0x8FF true 0).wf = false := by decide +kernel

theorem illformed_supported_opcode : (Instr.mailboxUnsupported 0x0100).wf = false := by decide +kernel

theorem illformed_long_image (image : List Byte) (h : image.length = imageMax + 1) :
    (Instr.transferComplete true image).wf = false :=
  decide_eq_false (h ▸ Nat.not_succ_le_self imageMax)

/-- An ill-formed command runs all the same: what a page without counters has at the offset of CNT_CTRL takes the write, here
nothing, with the reserved-write indication. -/
theorem test_ill_formed_commands_answer :
    (match exec (.cntSnap .bmtVc6 0x808) ready with | .next t => t.is (PAGE_ERR_RSVW 0x808) | _ => false) = true
    ∧ exec (.mailboxUnsupported 0x0100) ready = .next ready := ⟨by decide +kernel, rfl⟩

/-! ### The machine as a whole -/

theorem witness_StepRunsTheFrontCommand : State.reset.pending = [] := rfl

theorem witness_WellFormedCommandsComplete :
    (wellFormed ready = true ∧ ∃ t, step ready = .next t)
      ∧ (Instr.flitReceive 0 ⟨List.replicate 256 0, false, 4, 0, 0, 31⟩).wf = true
      ∧ ({ State.reset with pending := [.pwrOkFall] } : State).pending = .pwrOkFall :: [] :=
  ⟨⟨ready_wf, _, rfl⟩, by decide +kernel⟩

theorem witness_CommandsTouchOnlyTheirPart :
    (∃ t, exec .cxlLinkLoss State.reset = .next t) ∧ ∃ t, exec .pwrOkFall State.reset = .next t := ⟨⟨_, rfl⟩, ⟨_, rfl⟩⟩

/-- A fuse operation that raises MIN_SVN to 128 whose end is the command in front. -/
def blowing : State :=
  { State.reset with pending := [.fuseOperationDone], fuseOp := some (.advance 128), fuseRail := true }

theorem witness_FusesOnlyBlow : ∃ t, step blowing = .next t := ⟨_, rfl⟩

theorem witness_RunsOnlyWithPowerAndReference : releasedRight blowing ∧ ∃ t, step blowing = .next t := by
  refine ⟨?_, _, rfl⟩
  unfold releasedRight
  decide +kernel

/-! ### Power, resets, boot -/

/-- A device whose power is not yet good, held. -/
def held : State := { State.reset with phase := .held, pwrOk := false }

theorem witness_PowerOnResetHoldsAndRestarts :
    (State.reset.phase.alive = true ∧ held.phase.alive = false)
      ∧ ((railRange 0).1 ≤ 2 * (620#16).toNat ∧ 2 * (620#16).toNat ≤ (railRange 0).2)
      ∧ ((railRange 8).1 ≤ 2 * (1710#16).toNat ∧ 2 * (1890#16).toNat ≤ (railRange 8).2)
      ∧ ¬ ((railRange 8).1 ≤ 2 * (1709#16).toNat ∧ 2 * (1709#16).toNat ≤ (railRange 8).2)
      ∧ State.reset.pwrOk = true
      ∧ (let s : State := { State.reset with refLost := true, phase := .held }
         s.refLost = true ∧ s.pwrOk = true ∧ s.railsBad = [])
      ∧ (held.pwrOk = false ∧ held.refLost = false ∧ held.railsBad = [])
      ∧ (State.reset.pwrOk = true ∧ State.reset.refLost = false ∧ State.reset.fuseOp = none) := by
  decide +kernel

/-- A device in its quiesce interval after a reset request at raw tick 0. -/
def quiesced (kind raw : Nat) : State :=
  { State.reset with phase := .quiesced, resetReq := some ⟨kind, 2, 0⟩, raw := raw }

theorem witness_ResetsQuiesceThenTakeEffect :
    (takesWrite ready .bmtVc6 SEC_RESET_CMD_at ∧ ready.resetReq = none)
      ∧ ((quiesced 1 6399).phase = .quiesced ∧ (quiesced 1 6399).resetReq = some ⟨1, 2, 0⟩
          ∧ (quiesced 1 6399).raw < 0 + 6400)
      ∧ ((quiesced 1 6400).phase = .quiesced ∧ (quiesced 1 6400).resetReq = some ⟨1, 2, 0⟩
          ∧ 0 + 6400 ≤ (quiesced 1 6400).raw ∧ (quiesced 1 6400).fuseOp = none)
      ∧ ((quiesced 2 6400).phase = .quiesced ∧ (quiesced 2 6400).resetReq = some ⟨2, 2, 0⟩
          ∧ 0 + 6400 ≤ (quiesced 2 6400).raw ∧ (quiesced 2 6400).fuseOp = none)
      ∧ (ready.phase ≠ .held ∧ ready.resetReq = none) := by
  unfold takesWrite
  decide +kernel

/-- The block with firmware running and the CXL link up, eight lanes wide. -/
def hosted : State := fields served [(CXL_LINK_STATUS_WIDTH, 4)]

theorem witness_NarrowResetsLeaveTraffic :
    (takesWrite served .bmtVc6 SEC_RESET_CMD_at ∧ served.resetReq = none ∧ served.bootState ≠ 0)
      ∧ served.phase = .run
      ∧ (served.resetReq = none ∧ served.bootState ≠ 0)
      ∧ hosted.reaches .driver = true
      ∧ (served.firmware = true ∧ served.is CXL_LINK_STATUS_NOFLIT = false)
      ∧ (CXL_LINK_STATUS_at ≠ SEC_RESET_STATUS_at ∧ SEC_FWUP_CMD_at / 0x10000 ≠ 0x10
          ∧ SEC_FWUP_CMD_at / 0x10000 ≠ 0xF2) := by
  unfold takesWrite
  decide +kernel

/-- A state whose flash holds a confirmed boot record in a slot, with no image. -/
def bootable (s : State) (slot : Nat) : State :=
  { s with flash := mapSet flashDflt (mapSetAll flashDflt s.flash (flashKey slot 0) ((newRec 1).take 13)) (flashKey slot 13) 0 }

/-- A memory device of every tent ready, and the I3C port with its address. -/
def serving : State :=
  { fields served ((List.range 8).map fun t => (MEM_DEV_STATUS_STATE t 0, 2)) with i3cAddr := some 8 }

theorem witness_BootVerdictIsReachedAndConfirmed :
    (State.reset.phase = .run ∧ State.reset.bootState = 0)
      ∧ (served.phase = .run ∧ served.bootState ≠ 0)
      ∧ (State.reset.straps.testBit 1 = false ∧ State.reset.slotOrder = [])
      ∧ ({ State.reset with straps := 2 } : State).straps.testBit 1 = true
      ∧ (bootable State.reset 1).slotOrder = [1]
      ∧ ((bootable State.reset 1).senseFuses.trySlot 1).1 ≠ 0
      ∧ (serving.phase = .run ∧ serving.firmware = true ∧ serving.startupOk = true)
      ∧ (served.phase = .run ∧ served.startupOk = false) := by
  decide +kernel

/-- The fuse rail is present and firmware has confirmed an image of SVN 128. -/
def fusable : State :=
  { fields hosted [(SEC_BOOT_STATUS_CONFIRMED, 1), (SEC_BOOT_STATUS_SVN, 128)] with fuseRail := true }

theorem witness_FuseOperationsBlowWhatTheyName :
    takesWrite fusable .driver SEC_FUSE_CMD_at ∧ fusable.fuseOp = none ∧ fusable.fuseRail = true
      ∧ fusable.is SEC_BOOT_STATUS_CONFIRMED = true
      ∧ (fusable.fuses.svn < (128#8).toNat ∧ (128#8).toNat ≤ fusable.rd SEC_BOOT_STATUS_SVN ∧ (128#8).toNat ≤ 128)
      ∧ (fusable.fuses.svn < (1#8).toNat ∧ (1#8).toNat ≤ fusable.rd SEC_BOOT_STATUS_SVN)
      ∧ fusable.fuses.ownerMode = false
      ∧ Requester.firmware ≠ Requester.driver
      ∧ ({ fusable with fuseOp := some (.advance 1) } : State).fuseOp.isSome = true := by
  unfold takesWrite
  decide +kernel

/-- Firmware running and the I3C port with its address. -/
def sideband : State := { served with i3cAddr := some 8 }

/-- An update session held by a path. -/
def updating (path : Nat) : State := { sideband with update := { path := some path } }

/-- An update session of the registers whose command runs. -/
def updateBusy : State :=
  { fields sideband [(SEC_FWUP_STATUS_BUSY, 1)] with update := { path := some 0, op := some .openSlot } }

theorem witness_UpdateCommandsOpenAndFollowTheSession :
    (takesWrite served .bmtVc6 SEC_FWUP_CMD_at ∧ served.is SEC_FWUP_STATUS_BUSY = false ∧ served.update.path = none
        ∧ served.mayRevert = false ∧ served.phase = .run ∧ served.firmware = true)
      ∧ (takesWrite (updating 0) .bmtVc6 SEC_FWUP_CMD_at ∧ (updating 0).is SEC_FWUP_STATUS_BUSY = false
        ∧ (updating 0).update.path = some 0)
      ∧ ((bootable served 1).firmware = true ∧ (bootable served 1).mayRevert = true)
      ∧ (takesWrite ready .bmtVc6 SEC_FWUP_CMD_at ∧ ready.is SEC_FWUP_STATUS_BUSY = false ∧ ready.firmware = false)
      ∧ served.resetReq = none
      ∧ (sideband.phase = .run ∧ sideband.i3cReady = true ∧ sideband.update.path = none
        ∧ sideband.is SEC_FWUP_STATUS_BUSY = false ∧ sideband.resetReq = none)
      ∧ (updateBusy.phase = .run ∧ updateBusy.i3cReady = true ∧ updateBusy.update.path ≠ none
        ∧ updateBusy.is SEC_FWUP_STATUS_BUSY = true)
      ∧ (([] : List Byte).length ≤ imageMax ∧ (List.replicate 3 (0 : Byte)).length ≤ imageMax
        ∧ (updating 1).update.path = some 1 ∧ (updating 1).is SEC_FWUP_STATUS_BUSY = false ∧ (updating 1).phase = .run
        ∧ (updating 1).i3cReady = true) := by
  unfold takesWrite
  decide +kernel

/-- An update with a command in progress. -/
def finishing (o : FwOp) : State := { served with update := { path := some 0, op := some o } }

theorem witness_UpdateCommandsFinish :
    ∀ o ∈ [FwOp.openSlot, .write 1023, .close 1, .revert],
      (finishing o).phase = .run ∧ (finishing o).update.op = some o := by
  decide +kernel

/-! ### Memory -/

/-- Firmware runs and the one trained device of a tent waits for INIT. -/
def trainedDev (d : Nat) : State :=
  { fields served [(MEM_DEV_STATUS_STATE (d / 2) (d % 2), 0), (MEM_DEV_STATUS_STATE (otherDev d / 2) (otherDev d % 2), 4)] with
    trained := [d] }

theorem witness_MemoryTrainsAndIsPlanned :
    (served.phase = .run ∧ served.devState (15#4).toNat < 2 ∧ (15#4).toNat ∉ served.trained
        ∧ (TrainResult.mk true 0).excluded = true ∧ (TrainResult.mk false 15).excluded = false
        ∧ (TrainResult.mk false 15).ports = 15)
      ∧ (takesWrite (trainedDev 15) .bmtVc6 (MEM_CTRL_at (7#3).toNat) ∧ (7#3).toNat ∉ (trainedDev 15).initing
        ∧ ([14, 15].filter (trainedDev 15).devPresent).all
            (fun d => (trainedDev 15).devState d == 2 || (trainedDev 15).trained.contains d) = true
        ∧ ([14, 15].filter (trainedDev 15).devPresent).any (trainedDev 15).waitsInit = true)
      ∧ ((7#3).toNat ∈ ({ trainedDev 15 with initing := [7] } : State).initing ∧ served.memKept = false)
      ∧ (let s := fields served [(MEM_PLAN_STATUS_BUSY 7, 1)]
         takesWrite s .bmtVc6 (MEM_PLAN_CMD_at (7#3).toNat) ∧ s.is (MEM_PLAN_STATUS_BUSY (7#3).toNat) = true)
      ∧ (let s := fields served [(MEM_USABLE_MIB_MIB 7, 132505)]
         takesWrite s .bmtVc6 (MEM_PLAN_CMD_at (7#3).toNat) ∧ s.is (MEM_PLAN_STATUS_BUSY (7#3).toNat) = false
          ∧ s.planReason 7 ((List.range 8).map fun r => s.rd (MEM_REGION_SIZE_MIB 7 r)) = 0)
      ∧ (let s := fields served [(MEM_REGION_SIZE_MIB 7 3, 1)]
         takesWrite s .bmtVc6 (MEM_PLAN_CMD_at (7#3).toNat) ∧ s.is (MEM_PLAN_STATUS_BUSY (7#3).toNat) = false
          ∧ s.planReason 7 ((List.range 8).map fun r => s.rd (MEM_REGION_SIZE_MIB 7 r)) ≠ 0) := by
  unfold takesWrite
  decide +kernel

/-- Both devices of tent 7 ready, 256 MiB of its region 3 mapped to the host's first unit. -/
def windowed : State :=
  { fields hosted [(MEM_DEV_STATUS_STATE 7 0, 2), (MEM_DEV_STATUS_STATE 7 1, 2), (MEM_USABLE_MIB_MIB 7, 132505),
      (CXL_WIN_CFG_UNITS, 1), (CXL_WIN_MAP_VALID 0, 1), (CXL_WIN_MAP_COUNT 0, 1), (CXL_WIN_MAP_TENT 0, 7),
      (CXL_WIN_MAP_REGION 0, 3)] with plans := [(59, 256)] }

/-- 256 MiB of tent 7's region 0 mapped to the host's second unit, with its copy on the even device poisoned in one block. -/
def mirrored : State :=
  { fields windowed [(CXL_WIN_CFG_UNITS, 2), (CXL_WIN_MAP_VALID 1, 1), (CXL_WIN_MAP_COUNT 1, 1), (CXL_WIN_MAP_TENT 1, 7), (CXL_WIN_MAP_REGION 1, 0)] with
    plans := [(56, 256), (59, 256)], badBlocks := [(14, memKey 7 0 64)] }

theorem witness_MemoryIsRefreshedReadAndKept :
    (windowed.phase = .run ∧ windowed.reaches .driver = true ∧ windowed.devState (2 * (7#3).toNat + (7#3).toNat / 4) = 2
        ∧ (RefreshWork.mk 3 1 0 [.block 7 65]).uncorr ≠ 0 ∧ (RefreshWork.mk 3 1 0 [.block 7 65]).held = [.block 7 65]
        ∧ (RefreshWork.mk 0 1 5 []).uncorr ≠ 0 ∧ (RefreshWork.mk 0 1 5 []).held = [] ∧ windowed.is (MEM_DEV_STATUS_HOT 7 1) = false)
      ∧ windowed.winPlace 0x10000000 = none
      ∧ (windowed.winPlace ((0xFFFFFFF#36).toNat - (0xFFFFFFF#36).toNat % 64) = some (7, 3, 0xFFFFFC0)
        ∧ windowed.hostWaits (0xFFFFFC0#36).toNat = false ∧ 0xFFFFFC0 < windowed.regionBytes 7 3
        ∧ windowed.holders 7 3 0xFFFFFC0 ≠ []
        ∧ (windowed.holders 7 3 0xFFFFFC0).all (fun c => !((0#2).toNat.testBit c
            || windowed.badBlocks.contains (2 * 7 + c, memKey 7 3 0xFFFFFC0))) = true)
      ∧ (let fails (bad : BitVec 2) (c : Nat) :=
            bad.toNat.testBit c || mirrored.badBlocks.contains (2 * 7 + c, memKey 7 0 64)
         mirrored.winPlace 0x10000040 = some (7, 0, 64) ∧ mirrored.hostWaits 0x10000040 = false
          ∧ 64 < mirrored.regionBytes 7 0 ∧ (mirrored.holders 7 0 64).any (fun c => !fails 1 c) = true
          ∧ (mirrored.holders 7 0 64).all (fails 2) = true)
      ∧ (fields windowed [(MEM_PLAN_STATUS_REBUILD 7, 1)]).hostWaits (0xFFFFFFF#36).toNat = true
      ∧ (windowed.devPresent (15#4).toNat = true ∧ windowed.devState (otherDev (15#4).toNat) = 2
        ∧ windowed.rd (MEM_USABLE_MIB_MIB ((15#4).toNat / 2)) ≠ 0)
      ∧ ((fields windowed [(MEM_PLAN_STATUS_REBUILD 7, 1)]).rebuilding (7#3).toNat = true
        ∧ (fields windowed [(MEM_PLAN_STATUS_REBUILD 7, 1)]).hostReads = []) := by
  decide +kernel

/-! ### Register accesses, counters and interrupts -/

theorem witness_RegisterAndTableAccesses :
    (((regAt (CAR_STALL_TK_at : BitVec 28).toNat).any fun r => decide (r.id ∈ plainRegs)) = true ∧ ready.phase = .run ∧ hosted.reaches .driver = true
        ∧ (CAR_STALL_TK_at : BitVec 28).toNat % 4 = 0
        ∧ ready.place (CAR_STALL_TK_at : BitVec 28).toNat = .reg (CAR_STALL_TK_at : BitVec 28).toNat
        ∧ ready.is (PAGE_STATUS_READY (addrPage (CAR_STALL_TK_at : BitVec 28).toNat)) = true
        ∧ 0x100 ≤ (CAR_STALL_TK_at : BitVec 28).toNat % 0x10000 ∧ State.reset.reaches .bmtVc6 = true
        ∧ State.reset.place (CAR_STALL_TK_at : BitVec 28).toNat = .reg (CAR_STALL_TK_at : BitVec 28).toNat
        ∧ State.reset.is (PAGE_STATUS_READY (addrPage (CAR_STALL_TK_at : BitVec 28).toNat)) = false)
      ∧ ready.is (PAGE_STATUS_READY tgtPage) = true
      ∧ ((0x8FFFFFF#28).toNat < 0x9000000 ∧ (0x1080002#28).toNat < 0x9000000
        ∧ (pageNcnt (addrPage (0x1080002#28).toNat)).isSome = true ∧ (0x1080002#28).toNat / 0x10000 ∉ [0xF0, 0xF1, 0xF2]
        ∧ ¬ (4 = 4 ∧ (0x1080002#28).toNat % 4 = 0) ∧ ¬ (4 = 8 ∧ (0x1080002#28).toNat % 8 = 0))
      ∧ ((pageNcnt (addrPage (0x800000#28).toNat)).isNone = true ∧ (0x800000#28).toNat / 0x10000 ∉ [0xF0, 0xF1, 0xF2]
        ∧ (0x800000#28).toNat % 4 = 0)
      ∧ ((0x20000#32).toNat % 4 = 0 ∧ bar2Entry (0x20000#32).toNat = some (.fwd 2 0 0, (0x20000#32).toNat, 8)
        ∧ ready.bar2 = none ∧ 0 < (List.replicate 7 (0 : Word)).length ∧ (List.replicate 7 (0 : Word)).length < 8
        ∧ (List.replicate 8 (0 : Word)).length = 8)
      ∧ (let s : State := { ready with bar2 := some ((0x20000#32).toNat, [0, 1, 2]) }
         s.reaches .bmtVc6 = true ∧ s.bar2 = some ((0x20000#32).toNat, [0, 1, 2])
          ∧ bar2Entry (0x20020#32).toNat = some (.fwd 2 0 1, (0x20020#32).toNat, 8)
          ∧ (0x20000#32).toNat ≠ (0x20020#32).toNat) := by
  decide +kernel

/-- The lo word of the last counter of the LNK page of tent 0. -/
def lastLo : BitVec 28 := BitVec.ofNat 28 (pageBase (lnkPage 0) + 0x1300 + 8 * ((pageNcnt (lnkPage 0)).getD 0 - 1))

theorem witness_CountersReadSnapAndClear :
    (ready.phase = .run ∧ ready.reaches .bmtVc6 = true ∧ ctrAddr lastLo 0 = true ∧ ctrAddr (lastLo + 4) 4 = true
        ∧ ready.is (PAGE_STATUS_READY (addrPage (lastLo + 4).toNat)) = true)
      ∧ (hasCounters (0xC#12).toNat = true ∧ ready.is (PAGE_STATUS_READY (0xC#12).toNat) = true
        ∧ ready.is (CNT_CTRL_SRC (0xC#12).toNat) = false ∧ ready.is (CNT_STATUS_BUSY (0xC#12).toNat) = false)
      ∧ mapGet (fun _ => 0) ready.clearAt (0xC#12).toNat ≠ ready.raw + 1
      ∧ (let s : State := { ready with clearAt := [(0xC, 1)] }
         mapGet (fun _ => 0) s.clearAt (0xC#12).toNat = s.raw + 1)
      ∧ (fields ready [(CNT_STATUS_BUSY 0xC, 1)]).is (CNT_STATUS_BUSY (0xC#12).toNat) = true := by
  decide +kernel

theorem witness_InterruptRegistersSetAndClear :
    ready.phase = .run ∧ ready.reaches .bmtVc6 = true ∧ (pageNcnt (0x806#12).toNat).isSome = true ∧ bitsOut (3#32).toNat (pageIntMask 0x806) = 0 := by
  decide +kernel

/-! ### Fatal conditions and the guaranteed corner -/

/-- Fail-stopped with the dump being written. -/
def dumping : State := { fields served [(MGT_DUMP_STATUS_WRITING, 1)] with phase := .failStopped }

theorem witness_FatalConditionsStopAndDump :
    (served.phase = .run ∧ FatalCause.cores ≠ FatalCause.ordered ∧ served.dump.held = false ∧ ({ served with dump := { held := true } } : State).dump.held = true)
      ∧ (dumping.phase = .failStopped ∧ dumping.is MGT_DUMP_STATUS_WRITING = true)
      ∧ served.bootState = 1
      ∧ takesWrite served .bmtVc6 MGT_DUMP_CMD_at
      ∧ ((4 : Fin 5).toNat ∉ served.cores ∧ served.cores.length < 4
        ∧ (4 : Fin 5).toNat ∉ ({ served with cores := [0, 1, 2, 3] } : State).cores
        ∧ ({ served with cores := [0, 1, 2, 3] } : State).cores.length = 4)
      ∧ dumping.firmware = true ∧ dumping.reaches .bmtVc6 = true
      ∧ dumping.is (PAGE_STATUS_READY mgtPage) = true := by
  unfold takesWrite
  decide +kernel

/-- The core rail below the guaranteed corner. -/
def excursion : State := (match exec (.envExcursionStart 619 8 0) served with | .next t => t | _ => served)

theorem witness_OperatingPointIsWatched :
    (served.phase = .run ∧ served.rd (MDW_LINK_STATUS_MODULES (7#3).toNat) ≠ 0)
      ∧ ((619#16).toNat < 620 ∧ ¬ (620#16).toNat < 620
        ∧ served.is PWR_ENV_STATUS_BELOW_GUARANTEE = false ∧ excursion.is PWR_ENV_STATUS_BELOW_GUARANTEE = true
        ∧ excursion.ctr pwrPage 0 = 1)
      ∧ (match exec (.envExcursionEnd 620 8 0) excursion with
          | .next t => !t.is PWR_ENV_STATUS_BELOW_GUARANTEE && t.is (pageFld pwrPage 16 1 1)
          | _ => false) = true
      ∧ (toSigned 16 (959#16).toNat < 960 ∧ 840 < toSigned 16 (841#16).toNat ∧ toSigned 16 (841#16).toNat < 960 ∧ ¬ toSigned 16 (960#16).toNat < 960) := by
  decide +kernel

/-! ### Itzal links -/

/-- STATE 3 in the ten microrings of fibre pair 511. -/
def ringsOf511 : List (Fld × Nat) :=
  (List.range 5).flatMap fun w => [(ringState 15 (155 + w), 3), (ringState 15 (315 + w), 3)]

/-- Port slot 2044, the last that is a port at 800G, up over verified microrings, with its link record. -/
def linked (x : Port) : State :=
  { fields served <| ringsOf511 ++ [(LNK_FP_MODE_MODE 511, 1), (LNK_PORT_CTRL_ENABLE 2044, 1), (LNK_PORT_STATUS_UP 2044, 1),
      (LNK_PORT_STATUS_VER 2044, 0x12), (LNK_LANE_MAP_TX 2044, 0o0123), (LNK_LANE_MAP_RX 2044, 0o0123),
      (⟨LNK_CREDIT_INIT0_at 2044, 0, 32⟩, 0x01000000)] with ports := [(2044, x)], raw := 100000 }

/-- A DATA flit with an empty body. -/
def dataFlit (seq : Nat) : List Byte := mkFlit 0 seq 0 31 0 0 [] 0

theorem witness_FlitsRetryAndPauseInSequence :
    (let s := linked { retry := [⟨65535, 31, []⟩], rrOut := some (7, 99000), pauseRx := some 0 }
     s.phase = .run ∧ s.up (2044#11).toNat = true ∧ s.isPort (2044#11).toNat = true
        ∧ ((s.port 2044).retry.any fun f => f.seq == (65535#16).toNat) = true
        ∧ ((s.port 2044).retry.any fun f => f.seq == (0#16).toNat) = false
        ∧ (s.port 2044).rrOut = some (7, 99000) ∧ 7 < 8 ∧ ((s.port 2044).ctlQ.any fun m => beAt m 0 1 == 1) = false
        ∧ (s.port 2044).pauseTx = none ∧ (s.port 2044).inWindow = false ∧ (s.port 2044).aligning = false ∧ 99000 + s.rd (LNK_RTT_RTT 2044) / 32 + 256 ≤ s.raw
        ∧ 2 ≤ s.minor 2044 ∧ (s.port 2044).pauseRx ≠ none)
      ∧ (let s := linked { rxSeq := 65535, rxSlot := 7 }
         let rx : FlitRx := ⟨dataFlit 65535, false, 3, 0, 0, 31⟩
         s.phase = .run ∧ s.isPort 2044 = true ∧ s.up 2044 = true ∧ rx.wf = true ∧ (s.port 2044).inWindow = false
          ∧ (s.port 2044).aligning = false ∧ rx.wl.toNat = (s.rxLanes 2044).getD ((s.port 2044).rxSlot % max 1 (s.rxLanes 2044).length) 7
          ∧ (2 : Fin 5).toNat ≠ (s.rxLanes 2044).getD ((s.port 2044).rxSlot % max 1 (s.rxLanes 2044).length) 7
          ∧ s.is (LNK_PORT_STATUS_TRAINING 2044) = false ∧ rx.fecBad = false ∧ flCrcOk rx.bytes = true ∧ flType rx.bytes = 0
          ∧ flSeq rx.bytes = (s.port 2044).rxSeq
          ∧ flCrcOk (List.replicate 256 0) = false ∧ flType (List.replicate 256 0) = 0 ∧ (s.port 2044).rrOut = none
          ∧ 160000 ≤ 160000 ∧ (7#32).toNat = (s.port 2044).rxSlot) := by
  decide +kernel

theorem witness_LaneMapChangesFollowTheHandshake :
    (let s := linked { rxSlot := 0xFFFFFFFF, aligned := [0, 1, 2, 3, 4] }
     s.phase = .run ∧ s.up 2044 = true ∧ (s.port 2044).pendRx = none
        ∧ (([0, 1, 2, 3].map (mapLane 0o0124)).filter (· ≠ 7)).all
            (fun w => decide (w ∈ s.receivable 2044 ∧ w ∈ (s.port 2044).aligned)) = true
        ∧ 4096 = ((4094#32).toNat + 2 ^ 32 + 1 - (s.port 2044).rxSlot) % 2 ^ 32
        ∧ ((65534#32).toNat + 2 ^ 32 + 1 - (s.port 2044).rxSlot) % 2 ^ 32 = 65536
        ∧ 64 = ((62#32).toNat + 2 ^ 32 + 1 - (s.port 2044).rxSlot) % 2 ^ 32)
      ∧ (let s := linked { txSlot := 4000, pendTx := some ⟨0o0124, 5024, false, false, true⟩ }
         (s.port 2044).pendTx = some ⟨0o0124, 5024, false, false, true⟩ ∧ 5024 = (5024#32).toNat
          ∧ slotReached ((s.port 2044).txSlot + 1024) 5024 = true)
      ∧ (let s := linked { txSlot := 5024, pendTx := some ⟨0o0124, 5024, false, true, true⟩, rxSlot := 5024,
                           pendRx := some ⟨0o0124, 5024, false, true, true⟩ }
         (s.port 2044).pendTx = some ⟨0o0124, 5024, false, true, true⟩ ∧ slotReached (s.port 2044).txSlot 5024 = true
          ∧ (s.port 2044).pendRx = some ⟨0o0124, 5024, false, true, true⟩ ∧ slotReached (s.port 2044).rxSlot 5024 = true) := by
  decide +kernel

theorem witness_LostLanesAreLeftOut :
    let s := linked { laneBad := [0, 0, 0, 16], stray := [7, 7, 7, 4] }
    s.phase = .run ∧ s.up 2044 = true ∧ (s.rxLanes 2044)[(3#2).toNat]? = some 3
      ∧ [0, 1, 2, 3].find? (fun i => mapLane (s.rd (LNK_LANE_MAP_RX 2044)) i == 3) = some 3
      ∧ 16 ≤ (s.port 2044).laneBad.getD (3#2).toNat 0 ∧ (s.rxLanes 2044).contains (4#3).toNat = false
      ∧ (4#3).toNat ∈ s.modeLanes 2044 ∧ (s.port 2044).stray.getD (3#2).toNat 7 = (4#3).toNat
      ∧ s.isPort 2044 = true ∧ 1 < (s.rxLanes 2044).length
      ∧ (s.txLanes 2044)[(3#2).toNat]? = some 3 ∧ mapLanes (s.mapWithout 2044 3) ≠ [] := by
  decide +kernel

/-! ### Training and port control -/

/-- The same port in training, with the partner's capability block as it stands. -/
def training (raw : Nat) : State :=
  let s := fields (linked {}) [(LNK_PORT_STATUS_UP 2044, 0), (LNK_PORT_STATUS_TRAINING 2044, 1)]
  { s with
    ports := [(2044, { block := s.ownBlock 2044, twice := true, echoSeen := true, trainAt := some 0, aligned := [0, 1, 2, 3, 4] })]
    raw := raw }

theorem witness_PortsComeUpAndGoDown :
    (let s := training 64000000
     s.phase = .run ∧ s.is (LNK_PORT_STATUS_TRAINING 2044) = true ∧ s.deskewed 2044 = true
        ∧ (s.port 2044).twice = true ∧ (s.port 2044).echoSeen = true ∧ s.trainCauses 2044 = (false, false, false)
        ∧ mapLanes (s.upTxMap 2044) ≠ [] ∧ (s.port 2044).trainAt = some 0 ∧ 0 + 64000000 ≤ s.raw ∧ s.is (LNK_PORT_CTRL_ENABLE 2044) = true
        ∧ s.isPort 2044 = true ∧ s.ringsReady 2044 = true ∧ s.up 2044 = false)
      ∧ (let s := linked { lastGood := 98720 }
         s.up 2044 = true ∧ (s.port 2044).lastGood + 1280 ≤ s.raw ∧ (s.port 2044).pauseRx = none
          ∧ (s.port 2044).inWindow = false ∧ (s.port 2044).darkTill = none)
      ∧ (let s := linked { pauseRx := some 100000, rrOut := some (8, 99000) }
         s.up 2044 = true ∧ (s.port 2044).pauseRx = some 100000 ∧ 100000 ≤ s.raw ∧ (s.port 2044).rrOut = some (8, 99000)
          ∧ ((s.port 2044).ctlQ.any fun m => beAt m 0 1 == 1) = false ∧ (s.port 2044).pauseTx = none
          ∧ (s.port 2044).inWindow = false ∧ (s.port 2044).aligning = false ∧ 8 ≤ 8
          ∧ 99000 + s.rd (LNK_RTT_RTT 2044) / 32 + 256 ≤ s.raw)
      ∧ (let rx : FlitRx := ⟨mkFlit 3 0 0 31 0 0 [] 0, false, 4, 0, 0, 31⟩
         (linked {}).phase = .run ∧ (linked {}).isPort 2044 = true ∧ (linked {}).up 2044 = true ∧ rx.wf = true
          ∧ rx.fecBad = false ∧ flCrcOk rx.bytes = true ∧ flType rx.bytes = 3 ∧ ((linked {}).port 2044).inWindow = false
          ∧ (linked {}).is (LNK_PORT_STATUS_TRAINING 2044) = false ∧ 160000 < 160001) := by
  decide +kernel

theorem witness_PortControlsTakeEffect :
    (takesWrite ready .bmtVc6 (LNK_FP_MODE_at (511#9).toNat) ∧ natField (3#32).toNat 0 3 < 4 ∧ ready.pairEnabled (511#9).toNat = false)
      ∧ (let s := fields served [(LNK_FP_MODE_MODE 511, 1)]
         takesWrite s .bmtVc6 (LNK_PORT_CTRL_at (2044#11).toNat) ∧ s.isPort 2044 = true ∧ natField (5#32).toNat 1 2 ≠ 3
          ∧ s.is (LNK_PORT_CTRL_ENABLE 2044) = false ∧ s.reservesFit 2044 = true)
      ∧ (let s := fields served [(LNK_FP_MODE_MODE 511, 1), (⟨LNK_CREDIT_INIT0_at 2044, 0, 32⟩, 0xFFFFFFFF)]
         takesWrite s .bmtVc6 (LNK_PORT_CTRL_at (2044#11).toNat) ∧ s.isPort 2044 = true
          ∧ s.is (LNK_PORT_CTRL_ENABLE 2044) = false ∧ s.reservesFit 2044 = false)
      ∧ (takesWrite (linked {}) .bmtVc6 (LNK_PORT_CTRL_at (2044#11).toNat) ∧ (linked {}).isPort 2044 = true
        ∧ (linked {}).is (LNK_PORT_CTRL_ENABLE 2044) = true ∧ (linked {}).up 2044 = true)
      ∧ (takesWrite (training 0) .bmtVc6 (LNK_PORT_CTRL_at (2044#11).toNat) ∧ (training 0).isPort 2044 = true
        ∧ (training 0).is (LNK_PORT_CTRL_ENABLE 2044) = true ∧ (training 0).up 2044 = false ∧ (training 0).phase = .run) := by
  unfold takesWrite
  decide +kernel

/-! ### Frames through the switch -/

/-- A frame of a kind for a destination on a VC, with one payload unit. -/
def aFrame (kind dst vc : Nat) : Frame :=
  mkFrame ([frWord0 0 kind vc 0 1, dst, 7] ++ List.replicate 13 0) (List.replicate 64 1) 0

/-- A landed frame of one cell. -/
def landing (f : Frame) : Landed := ⟨f, {}, 0, [5], 0, 0⟩

/-- Port 2044 up with a route to itself: forwarding on, row 0 to bundle 0, whose one live member it is. -/
def routed (x : Port) : State :=
  { fields (linked x) [(FWD_CTRL_FWD_EN 0, 1)] with
    tabs := [(rowAt 0 0, 0x80000000), (bundleAt 0 0, 0x10100000), (bundleAt 0 0 + 4, 2044 * 65536)] }

/-- The next state of a command, or the state itself. -/
def after (s : State) (r : Result) : State := match r with
  | .next t => t
  | _ => s

/-- A frame has landed on port 2044. -/
def landed (f : Frame) : State := routed { landed := [landing f] }

/-- The frame has been queued for port 2044 on VC0. -/
def queued : State :=
  let s := landed (aFrame 0 1 0)
  after s (exec (.ingressHeaderStage 2044 .good) s)

theorem witness_HeaderStageTakesTheOldestFrame :
    (let f := (aFrame 7 1 0)
     (landed f).phase = .run ∧ ((landed f).port 2044).landed = [landing f] ∧ (landed f).headerCheck 2044 f = some (.bad 3)
        ∧ (landed f).isPort 2044 = true)
      ∧ (let s := landed (aFrame 0 1 7)
         (s.port 2044).landed = [landing (aFrame 0 1 7)] ∧ s.vcClosed 2044 (frVc (aFrame 0 1 7)) = true ∧ s.isPort 2044 = true)
      ∧ (let s := landed (aFrame 0 1 0)
         let l := landing (aFrame 0 1 0)
         (((s.toBox.setPort 2044 { s.port 2044 with landed := [] }).followTrace 2044 l).2.judge 2044 l .good).1 = .queue 2044
          ∧ (((s.toBox.setPort 2044 { s.port 2044 with landed := [] }).followTrace 2044 l).2.judge 2044 l .corrected).1 = .queue 2044)
      ∧ queued.orderedOld 2044 = false := by
  decide +kernel

theorem witness_ClosedChannelsTakeNoFrames :
    (let s := landed (aFrame 0 1 7)
     s.phase = .run ∧ s.isPort (2044#11).toNat = true ∧ (s.port 2044).landed = [landing (aFrame 0 1 7)]
        ∧ frVc (aFrame 0 1 7) = 7 ∧ frVmaj (aFrame 0 1 7) = 1 ∧ frVmin (aFrame 0 1 7) ≤ s.minor 2044
        ∧ kindMinMinor (frKind (aFrame 0 1 7)) ≤ s.minor 2044 ∧ frPlen (aFrame 0 1 7) ≤ 64 ∧ frHops (aFrame 0 1 7) ≠ 15)
      ∧ (let s := landed (aFrame 0 1 1)
         (s.port 2044).landed = [landing (aFrame 0 1 1)] ∧ s.creditInit 2044 (frVc (aFrame 0 1 1)) = 0
          ∧ frVmaj (aFrame 0 1 1) = 1 ∧ frVmin (aFrame 0 1 1) ≤ s.minor 2044 ∧ kindMinMinor (frKind (aFrame 0 1 1)) ≤ s.minor 2044
          ∧ frPlen (aFrame 0 1 1) ≤ 64 ∧ frHops (aFrame 0 1 1) ≠ 15) := by
  decide +kernel

/-- The queued frame has been granted, so that its one transfer may cross. -/
def granted : State := after queued (exec (.midwayGrant 2044 0 [⟨.good, [], .good⟩]) queued)

/-- A staged frame whose next transfer has failed three times. -/
def failing : State :=
  { granted with staging := granted.staging.map fun e => (e.1, e.2.map fun x => { x with tries := 3 }) }

/-- A result of stream 3 that is due at port 2044. -/
def resulting : State :=
  { linked {} with results := [⟨9, 3, 1, 0, 0, 2, aFrame 2 1 3, false, [2044], [], [], [6], 0, false, none, false⟩] }

theorem witness_MidwayGrantsAndTransfers :
    (queued.phase = .run
        ∧ ((queued.toBox.crossTent 7).midwayPick 2044 0).any (fun x => x.1 == 7 && decide (x.2.1.bytes = aFrame 0 1 0)) = true
        ∧ (queued.toBox.crossTent 7).stagingRoom 2044 0 1 = true)
      ∧ (((resulting.toBox.crossTent 7).midwayPick 2044 3).any (fun x => x.1 == 2) = true
        ∧ (resulting.toBox.crossTent 7).stagingRoom 2044 3 1 = true)
      ∧ ((0#3).toNat ≠ 3 ∧ (firstOpen (granted.staged (8 * 2044))).any 
          (fun x => x.result.isNone && decide (x.tries < 3) && granted.sameTransfer 2044 (granted.linkTurn x.desc.tent) 0 x
            && granted.sameTransfer 2044 (granted.outTurn 7) 0 x) = true
        ∧ (firstOpen (failing.staged (8 * 2044))).any 
          (fun x => x.result.isNone && decide (3 ≤ x.tries) && failing.sameTransfer 2044 (failing.linkTurn x.desc.tent) 0 x
            && failing.sameTransfer 2044 (failing.outTurn 7) 0 x) = true) := by
  decide +kernel

/-- The frame is staged whole and the partner's credit covers it. -/
def staged : State :=
  let s := after granted (exec (.midwayTransfer 2044 0 false 0 []) granted)
  { s with ports := [(2044, { s.port 2044 with pccum := List.replicate 8 64 })] }

theorem witness_FlitSlotsSendInOrder :
    ((training 0).phase = .run ∧ (training 0).isPort 2044 = true ∧ (training 0).up 2044 = false
        ∧ (training 0).is (LNK_PORT_STATUS_TRAINING 2044) = true ∧ 4 ∈ (training 0).modeLanes 2044)
      ∧ ((linked { inWindow := true }).up 2044 = true ∧ ((linked { inWindow := true }).port 2044).inWindow = true)
      ∧ ((linked { pauseTx := some 200000 }).up 2044 = true
        ∧ ((linked { pauseTx := some 200000 }).port 2044).inWindow = false
        ∧ (linked { pauseTx := some 200000 }).ownPause 2044 = true)
      ∧ (let x := (linked { aligning := true }).port 2044
         x.inWindow = false ∧ x.aligning = true ∧ x.pauseTx = none)
      ∧ (let s := linked { retry := List.replicate 4096 ⟨0, 31, []⟩ }
         retryDepth (s.slotMode 2044) ≤ (s.port 2044).retry.length ∧ (s.port 2044).ctlQ = [] ∧ (s.port 2044).again = none
          ∧ s.up 2044 = true ∧ (s.port 2044).inWindow = false ∧ (s.port 2044).aligning = false ∧ (s.port 2044).pauseTx = none)
      ∧ (let x := (linked { ctlQ := [msgRetryReq 0] }).port 2044
         x.inWindow = false ∧ x.aligning = false ∧ x.pauseTx = none ∧ x.ctlQ = [msgRetryReq 0])
      ∧ (let x := (linked { retry := [⟨65535, 31, []⟩, ⟨0, 31, []⟩], resend := some 65535 }).port 2044
         (linked {}).up 2044 = true ∧ x.inWindow = false ∧ x.aligning = false ∧ x.pauseTx = none ∧ x.ctlQ = []
          ∧ x.again = some ⟨65535, 31, []⟩)
      ∧ (let s := linked {}
         (s.port 2044).ctlQ = [] ∧ (s.port 2044).again = none ∧ (s.port 2044).retry.length < retryDepth (s.slotMode 2044)
          ∧ (s.port 2044).inWindow = false ∧ (s.port 2044).aligning = false ∧ (s.port 2044).pauseTx = none
          ∧ (Box.fillBody 2044 (31#5).toNat 31 [] 31 s.toBox).1 = [])
      ∧ (staged.up 2044 = true ∧ (staged.port 2044).ctlQ = [] ∧ (staged.port 2044).again = none
        ∧ (staged.port 2044).inWindow = false ∧ (staged.port 2044).aligning = false ∧ (staged.port 2044).pauseTx = none
        ∧ (staged.port 2044).retry.length < retryDepth (staged.slotMode 2044)
        ∧ (Box.fillBody 2044 (31#5).toNat 31 [] 31 staged.toBox).1 ≠ []) := by
  decide +kernel

/-- Port 2044 with gate lists of one entry in both banks: bank 0 runs and is a bypass window, bank 1 stands by. -/
def gated (c : Cal) (raw : Nat) : State :=
  { fields (linked {}) [(CAL_GL_LEN_LEN 2044 0, 1), (CAL_GL_LEN_LEN 2044 1, 1), (CAL_GL_STATUS_RUNNING 2044, 1)] with
    tabs := [(gateAt 2044 0 0, 20000), (gateAt 2044 0 0 + 4, 1), (gateAt 2044 1 0, 0xFF000010)], cals := [(2044, c)], raw := raw }

/-- A frame staged whole for VC0 of port 2044, whose list runs an entry of which no gate is open. -/
def gatedStaged : State :=
  { fields staged [(CAL_GL_LEN_LEN 2044 0, 1), (CAL_GL_STATUS_RUNNING 2044, 1)] with
    tabs := (gateAt 2044 0 0, 20000) :: staged.tabs }

theorem witness_GateListsSwitchAtTheirInstant :
    (takesWrite (linked {}) .bmtVc6 (pageBase (trnPage 7) + 0x8000 + 128 * 252 + 16 * (7#3).toNat) ∧ (linked {}).isPort 2044 = true
        ∧ maskWord 0x80FFFFFF 0x80FFFFFF = 0x80FFFFFF ∧ maskWord 0x00FFFFFF 0x00FFFFFF = 0x00FFFFFF
        ∧ takesWrite (linked {}) .bmtVc6 (pageBase (trnPage 7) + 0x8000 + 128 * 252 + 16 * (7#3).toNat + 4))
      ∧ (takesWrite (gated {} 0) .bmtVc6 (CAL_GL_CMD_at 2044) ∧ (gated {} 0).isPort 2044 = true
        ∧ (gated {} 0).is (CAL_GL_STATUS_PENDING 2044) = false
        ∧ (gated {} 0).glReason 2044 (1 - (gated {} 0).activeBank 2044) = 0 ∧ (gated {} 0).listRuns 2044 = true)
      ∧ (linked {}).glReason 2044 (1 - (linked {}).activeBank 2044) ≠ 0
      ∧ (fields (gated {} 0) [(CAL_GL_STATUS_PENDING 2044, 1)]).is (CAL_GL_STATUS_PENDING 2044) = true
      ∧ (let s := gated { switchAt := some 1000 } 1000
         s.phase = .run ∧ (s.cal 2044).switchAt = some 1000 ∧ 1000 ≤ s.tentTick 7 ∧ s.listRuns 2044 = true)
      ∧ (let s := gated { stopAt := some 1000 } 1000
         (s.cal 2044).switchAt = none ∧ (s.cal 2044).stopAt = some 1000 ∧ 1000 ≤ s.tentTick 7)
      ∧ (let s := gatedStaged
         s.phase = .run ∧ s.isPort 2044 = true ∧ s.listRuns 2044 = true ∧ (s.cal 2044).switchAt = none
          ∧ (s.cal 2044).stopAt = none
          ∧ (let t := after s (exec (.gateEntryStart 2044) s)
             ((t.headFrame 2044 0).any fun x => !x.started) = true ∧ (t.gateNow 2044).gates.testBit 0 = false)) := by
  unfold takesWrite
  decide +kernel

/-- The pair joined to 2044's is that of port 1920, whose list agrees. -/
def agreeing : State :=
  { fields (gated {} 0) [(TRP_XCONN_VALID 511, 1), (TRP_XCONN_PARTNER 511, 0), (CAL_GL_LEN_LEN 1920 0, 1),
      (CAL_GL_STATUS_RUNNING 1920, 1), (LNK_FP_MODE_MODE 480, 1)] with
    tabs := [(gateAt 1920 0 0, 20000), (gateAt 1920 0 0 + 4, 1), (gateAt 2044 0 0, 20000), (gateAt 2044 0 0 + 4, 1)] }

theorem witness_BypassWindowsOpenAndClose :
    (agreeing.phase = .run ∧ agreeing.listRuns 2044 = true ∧ (agreeing.gateNow 2044).bypass = true
        ∧ (agreeing.cal 2044).window = .none ∧ agreeing.partnerWindow 2044 (agreeing.gateNow 2044).start = true)
      ∧ ((gated {} 0).partnerWindow 2044 ((gated {} 0).gateNow 2044).start = false ∧ (gated {} 0).isPort 2044 = true)
      ∧ (let s := gated { window := .connected, winEnd := 20000 } 12320
         (s.cal 2044).window = .connected ∧ (s.cal 2044).winEnd ≤ s.tentTick 7 + 7680)
      ∧ (let s := gated { window := .restoring, winEnd := 20000 } 20000
         (s.cal 2044).window ≠ .none ∧ (s.cal 2044).winEnd ≤ s.tentTick 7)
      ∧ (let s := linked { darkTill := some 100000, aligning := true }
         (s.port 2044).aligning = true ∧ s.up 2044 = true ∧ (s.port 2044).darkTill = some 100000 ∧ 100000 ≤ s.raw) := by
  decide +kernel

/-- A spill block that holds a cell of frame 4. -/
def oneBlock (cells : Nat) (written : Bool) : SpillBlock := { parts := [(4, 1)], cells := cells, written := written, firstAt := 0 }

/-- VOQ 16383 of tent 7 with one spill block. -/
def spilling (b : SpillBlock) (recalling : Bool) : State :=
  { fields served [(USH_SPILL_CTRL_RDRATE 7, 1), (USH_SPILL_CTRL_WRATE 7, 1)] with
    raw := 640
    spills := [(7 * 16384 + 16383, ⟨0, [b], recalling⟩)]
    descs := [⟨4, aFrame 0 1 7, 7, some 2044, 2047, 7, 0, [], 1, .spill, none, 0, 0, false, true, true, none, false, {}, none⟩] }

theorem witness_SpillAndAuditKeepTheCells :
    (let s := spilling (oneBlock 16 false) false
     s.phase = .run ∧ s.spillOf 7 16383 = some ⟨0, [oneBlock 16 false], false⟩
        ∧ s.rebuilding 7 = false ∧ 16 ≤ 16 ∧ 0 + 640 ≤ s.raw ∧ s.rd (USH_SPILL_CTRL_WRATE 7) ≠ 0 ∧ (s.tent 7).writeAt ≤ 100 * s.raw
        ∧ (s.voq 7 (16383 / 8) (16383 % 8)).any (fun d => d.spilled) = true)
      ∧ (let s : State := { spilling (oneBlock 16 false) false with tents := [(7, { writeAt := 64001 })] }
         100 * s.raw < (s.tent 7).writeAt)
      ∧ (let s := spilling (oneBlock 32 true) false
         s.spillOf 7 16383 = some ⟨0, [oneBlock 32 true], false⟩
          ∧ s.aheadOfSpill 7 16383 < 32 ∧ s.rd (USH_SPILL_CTRL_RDRATE 7) ≠ 0 ∧ (s.tent 7).readAt ≤ 100 * s.raw
          ∧ s.recallUse 7 16383 + (oneBlock 32 true).left ≤ 32
          ∧ ([(4, 1)].all fun x : Nat × Nat => s.descs.any fun d => d.id == x.1 && d.spilled) = true)
      ∧ (let s := spilling (oneBlock 16 true) true
         s.spillOf 7 16383 = some ⟨0, [oneBlock 16 true], true⟩
          ∧ (oneBlock 16 true).gone = false ∧ (oneBlock 16 true).bad = none ∧ (oneBlock 16 true).parts = [(4, 1)]
          ∧ (s.descs.find? fun e => e.id == 4).any (fun d => d.tent == 7 && 8 * d.egress + d.vc == 16383
              && decide (d.ncells ≤ (s.growCells 7 d.cells (d.cells.length + 1)).1.length)) = true)
      ∧ (takesWrite served .bmtVc6 (USH_CTRL_at 7) ∧ served.is (USH_STATUS_AUDIT_BUSY 7) = false)
      ∧ (let s : State := { served with tents := [(7, { audit := some [3], alloc := [3, 4] })] }
         (s.tent 7).audit = some [3] ∧ [3].Nodup ∧ 3 < storeCells) := by
  unfold takesWrite
  decide +kernel

/-! ### Forwarding -/

theorem witness_ForwardingTablesChangeAsCommanded :
    (takesWrite served .bmtVc6 (FWD_TBL_CMD_at 0) ∧ (2#2).toNat ≠ 3 ∧ served.is (FWD_TBL_STATUS_BUSY 0) = false
        ∧ (2047#14).toNat < fwdTableLen (2#2).toNat ∧ (16383#14).toNat < fwdTableLen (1#2).toNat
        ∧ served.is (FWD_EPOCH_STATUS_COPY_BUSY 0) = false
        ∧ served.fwdReject 2 1 (List.replicate 8 0) = false ∧ served.fwdReject 2 0 (List.replicate 8 0) = true)
      ∧ (let s : State := { served with fwdOp := some ⟨rackAt 1 16383, [5], false⟩ }
         s.phase = .run ∧ s.fwdOp = some ⟨rackAt 1 16383, [5], false⟩)
      ∧ ({ served with fwdOp := some ⟨bundleAt 1 2047, [], true⟩ } : State).fwdOp = some ⟨bundleAt 1 2047, [], true⟩
      ∧ (takesWrite served .bmtVc6 (FWD_EPOCH_CTRL_at 0) ∧ served.is (FWD_EPOCH_STATUS_DRAINED 0) = true
        ∧ served.is (FWD_EPOCH_STATUS_PENDING 0) = false)
      ∧ (fields served [(FWD_EPOCH_STATUS_COPY_BUSY 0, 1)]).is (FWD_EPOCH_STATUS_COPY_BUSY 0) = true := by
  unfold takesWrite
  decide +kernel

/-- A bank switch that two tents still have to take. -/
def switching (left : List Nat) : State := { routed {} with fwdSw := some ⟨none, none, left⟩ }

theorem witness_BankSwitchesDrainTheOldBank :
    (takesWrite served .bmtVc6 (FWD_EPOCH_CTRL_at 0) ∧ served.is (FWD_EPOCH_STATUS_PENDING 0) = false
        ∧ served.is (FWD_EPOCH_STATUS_DRAINED 0) = true ∧ served.is (FWD_TBL_STATUS_BUSY 0) = false
        ∧ served.is (FWD_EPOCH_STATUS_COPY_BUSY 0) = false)
      ∧ ((switching [0, 7]).phase = .run ∧ (7#3).toNat ∈ [0, 7] ∧ (switching [0, 7]).switchDue ⟨none, none, [0, 7]⟩ 7 = true
        ∧ ({ switching [0, 7] with raw := 100001 } : State).switchDue ⟨some 31, some 100000, [0, 7]⟩ 7 = true ∧ [0, 7].filter (· ≠ 7) ≠ []
        ∧ [7].filter (· ≠ 7) = [])
      ∧ (let s := fields served [(FWD_EPOCH_STATUS_DRAINED 0, 0)]
         takesWrite s .bmtVc6 (FWD_EPOCH_CTRL_at 0) ∧ s.is (FWD_EPOCH_STATUS_DRAINED 0) = false ∧ s.fwdSw = none ∧ s.oldFrames = 0)
      ∧ (takesWrite (routed {}) .bmtVc6 (FWD_NOTICE_CTRL_at 0) ∧ (routed {}).is (FWD_NOTICE_STATUS_BUSY 0) = false
        ∧ (16384#15) ≠ 0 ∧ (0#14).toNat + (16384#15).toNat ≤ 16384
        ∧ toRanges (((routed {}).reachable ((routed {}).rd (FWD_EPOCH_STATUS_LIVE 0))).filter fun r =>
            decide ((0#14).toNat ≤ r ∧ r < (0#14).toNat + (16384#15).toNat)) ≠ [])
      ∧ (let s : State := { fields (routed {}) [(FWD_NOTICE_STATUS_BUSY 0, 1)] with notices := [[(0, 64)]] }
         s.phase = .run ∧ s.notices = [[(0, 64)]] ∧ s.is (FWD_NOTICE_STATUS_BUSY 0) = true) := by
  unfold takesWrite
  decide +kernel

/-! ### Carousel -/

/-- Group 0 sums FP32 values for port 2044, and its stream 4095, in a state, has sliver 0 to itself. -/
def carousel (state : Nat) : State :=
  { linked {} with
    tabs := [(carEntryAt 0 0, 0x80048000), (carEntryAt 0 0 + 8, 0x4000), (carEntryAt 0 0 + 12, 1),
      (carEntryAt 1 4095, BitVec.ofNat 32 (state * 2 ^ 30)), (carEntryAt 1 4095 + 4, 16), (carEntryAt 1 4095 + 8, 0x00100102),
      (carEntryAt 1 4095 + 12, 0x80), (carEntryAt 1 4095 + 20, 16),
      (carEntryAt 2 0, 1), (carEntryAt 2 0 + 268, 0x10000000), (carEntryAt 3 0, 2044), (carEntryAt 3 0 + 4, 0x4000)]
    streams := [(4095, { held := decide (state ≠ 0) })] }

theorem witness_CarouselTablesChangeAsCommanded :
    takesWrite served .bmtVc6 CAR_TBL_CMD_at ∧ served.is CAR_TBL_STATUS_BUSY = false ∧ (16383#16).toNat < carTableLen (0#2).toNat ∧ (65535#16).toNat < carTableLen (3#2).toNat
      ∧ served.carWriteOk 3 65535 [0, 0] [0, 0] = true
      ∧ (carousel 1).carWriteOk 1 4095 (List.replicate 8 0) ((carousel 1).tabEntry (carEntryAt 1 4095) 8) = false := by
  unfold takesWrite
  decide +kernel

theorem witness_StreamCommandsMoveTheState :
    (takesWrite (carousel 0) .bmtVc6 CAR_STREAM_CMD_at ∧ (carousel 0).is CAR_STREAM_STATUS_BUSY = false
        ∧ (carousel 0).reserveReason (4095#12).toNat = 0 ∧ ((carousel 0).sx (4095#12).toNat).releasing = false)
      ∧ (carousel 1).reserveReason (4095#12).toNat ≠ 0
      ∧ (((carousel 1).strm 4095).state = 1 ∧ ((carousel 1).sx 4095).releasing = false)
      ∧ (((carousel 2).strm 4095).state = 2 ∧ (2#16).toNat ∉ [((carousel 2).strm 4095).cur, 1]
        ∧ ((2#16).toNat + 1) % 65536 ∉ [((carousel 2).strm 4095).cur, 1])
      ∧ ((carousel 3).strm 4095).state = 3
      ∧ (({ carousel 0 with carOp := some (1, 4095) } : State).carOp = some (1, 4095)
        ∧ ({ carousel 3 with carOp := some (4, 4095) } : State).carOp = some (4, 4095))
      ∧ (let s : State := { carousel 1 with streams := [(4095, { held := true, releasing := true })] }
         (s.sx 4095).releasing = true ∧ s.strmResults 4095 = false ∧ (s.sx 4095).retract = none
          ∧ (s.sx 4095).retractQ = [] ∧ s.replay = none) := by
  unfold takesWrite
  decide +kernel

/-! ### Contributions and results -/

/-- The contribution of port 2044 to chunk 0 of epoch 0 of stream 4095: 16 FP32 values with its fingerprint. -/
def contribution (mepoch : Nat) : Frame :=
  let pay : List Byte := List.replicate 64 1
  let fp := (crc64 pay).toNat
  mkFrame [frWord0 2 1 3 0 1, 1, 7, 0, 4095 * 16, mepoch, 0, 0, 0x1000, 16 * 65536, fp / 2 ^ 32, fp % 2 ^ 32, 0, 0, 0, 0] pay 0

/-- A frame that waits on port 2044 for Carousel, with policy 2 of the stream. -/
def steered (f : Frame) : State :=
  { fields (carousel 2) [(SNT_POLICY_POLICY 4095, 2), (SNT_TARGET_COUNT, 1), (MEM_USABLE_MIB_MIB 0, 132505)] with
    tabs := (carousel 2).tabs.takeWhile (fun e => decide (e.1 < carEntryAt 2 0)) ++ [(carEntryAt 1 4095 + 28, 1)]
      ++ (carousel 2).tabs.dropWhile (fun e => decide (e.1 < carEntryAt 2 0))
    ports := [(2044, { (linked {}).port 2044 with steer := [⟨f, {}, [5], 0, none, none⟩] })] }

/-- The contribution has crossed to its sliver's intake. -/
def taken : State :=
  let t := after (steered (contribution 0)) (exec (.contributionSteer 2044) (steered (contribution 0)))
  { t with slivers := t.slivers.map fun e => (e.1, { e.2 with intake := e.2.intake.map fun q => { q with arrived := q.total } }) }

/-- The sliver has taken it, so that the chunk is complete. -/
def complete : State := after taken (exec (.sliverTakePart 0 .none) taken)

/-- A drain marker for the stream waits on the port, after a DRAIN. -/
def marking : State :=
  let s := steered (mkControl 4 0 0 [4095 * 4096] [] 0)
  { s with streams := [(4095, { held := true, drainOn := true })] }

/-- An open slot of chunk 0xFFFFFFFF that has waited for CAR_STALL_TK. -/
def stalling : State :=
  { fields (carousel 2) [(CAR_STALL_TK_LIMIT, 100)] with
    slivers := [(0, { slots := [{ stream := 4095, epoch := 65535, chunk := 0xFFFFFFFF, mset := 0, mepoch := 0, opened := 99900 }] })] }

theorem witness_ContributionsReachTheirSlot :
    ((steered (contribution 0)).phase = .run
        ∧ ((steered (contribution 0)).port 2044).steer[0]? = some ⟨contribution 0, {}, [5], 0, none, none⟩
        ∧ frKind (contribution 0) = 1
        ∧ (match (steered (contribution 0)).steerCheck 2044 (contribution 0) with
            | .ok (0, 0, 0) => true
            | _ => false) = true
        ∧ ((steered (contribution 0)).sliver 0).intake.length < 2)
      ∧ (match (steered (contribution 1)).steerCheck 2044 (contribution 1) with
          | .error 2 => true
          | _ => false) = true
      ∧ (let v := taken.sliver 0
         v.inv = none ∧ (v.intake.find? fun q => decide (q.arrived = q.total)) = v.intake.head? ∧ v.intake.length = 1)
      ∧ ((complete.sliver 0).slots.length = 1 ∧ (complete.sliver 0).intake = [])
      ∧ ((marking.port 2044).steer.findIdx? (fun a => frKind a.frame == 4 && markStream a.frame == (4095#12).toNat) = some 0
        ∧ 0 < ((marking.port 2044).steer.takeWhile fun a => frKind a.frame != 1).length
        ∧ (marking.sx 4095).drainOn = true)
      ∧ ((stalling.slotOf ((stalling.strm 4095).owner (0xFFFFFFFF#32).toNat) 4095 65535 0xFFFFFFFF).any
          (fun y => !y.stalled && !y.done && decide (y.opened + stalling.rd CAR_STALL_TK_LIMIT ≤ stalling.raw)) = true
        ∧ stalling.rd CAR_STALL_TK_LIMIT ≠ 0) := by
  decide +kernel

theorem witness_CompleteChunksReleaseResults :
    complete.phase = .run
      ∧ (((complete.sliver 0).slots.find? fun y => y.done && !y.poisoned && y.hold == .none && y.out != []).any fun y =>
          match (complete.sx y.stream).epochRec y.epoch, y.out with
          | some r, [o] =>
            let f := complete.resultFrame y.stream r o
            (!complete.watched 0) && decide (complete.quotaUsed y.stream 0 + frCells f ≤ (complete.strm y.stream).rquota)
              && (complete.strmGrp y.stream).dest && !(r.bmap.filter (complete.carries f)).isEmpty
          | _, _ => false) = true := by
  decide +kernel

/-! ### Safety Net, seals and twins -/

/-- The result has been released and is kept. -/
def released : State := after complete (exec (.resultRelease 0) complete)

/-- A retraction of chunk 0 waits for its recomputation. -/
def retracting : State := after released (exec (.sntRetract .bmtVc6 4095 0) released)

theorem witness_RetractionsAndSealsAreOrdered :
    (let s := fields released [(SNT_TARGET_ALL, 1)]
     takesWrite s .bmtVc6 SNT_CMD_at ∧ s.is SNT_STATUS_BUSY = false
        ∧ s.sntReason 4095 0 (s.rd SNT_CHUNK_FIRST) (s.rd SNT_TARGET_COUNT) true = 0
        ∧ ((s.sx 4095).epochRec (0#16).toNat).isSome = true)
      ∧ released.sntReason 4095 65535 (released.rd SNT_CHUNK_FIRST) (released.rd SNT_TARGET_COUNT) true ≠ 0
      ∧ (released.sntReason 4095 0 (released.rd SNT_CHUNK_FIRST) 1 false = 0 ∧ (released.sx 4095).retract = none
        ∧ released.policy 4095 = 2
        ∧ (((released.sx 4095).epochRec 0).any fun r => released.chunkKept 4095 r (released.rd SNT_CHUNK_FIRST)) = true
        ∧ (fields released [(SNT_POLICY_POLICY 4095, 1)]).policy 4095 ≠ 2
        ∧ (fields released [(SNT_POLICY_POLICY 4095, 1)]).sntReason 4095 0 0 1 false = 0)
      ∧ (let s : State := { served with replay := some { stream := 4095, ids := [7] } }
         s.replay = some { stream := 4095, ids := [7] } ∧ (s.results.all fun q => decide (q.id ∉ [7])) = true
          ∧ (s.allStaged.all fun y => y.result.all fun k => decide (k.id ∉ [7])) = true)
      ∧ (((retracting.sx 4095).retract.any fun q => ((retracting.sx 4095).epochRec q.epoch).any fun r =>
          retracting.chunkKept 4095 r q.chunk && decide (((List.range (chunkFps r q.chunk).length).map fun i =>
            (([List.replicate 64 7] : List (List Byte))[i]?).elim ((chunkFps r q.chunk).getD i (0, 0)).2 fun b => crc64 (padPayload b))
            ≠ (chunkFps r q.chunk).map (·.2))
          && decide (((List.range (chunkFps r q.chunk).length).map fun i =>
            ((payloadsOf (retracting.recompute 4095 r q.chunk (partsOf q.chunk r.kept)))[i]?).elim
              ((chunkFps r q.chunk).getD i (0, 0)).2 fun b => crc64 (padPayload b)) = (chunkFps r q.chunk).map (·.2))) = true
        ∧ (retracting.sx 4095).retractQ = [])
      ∧ (let s : State := { fields served [(SEC_SEAL_CTRL_EN, 1), (SEC_SEAL_STATUS_KEY_READY, 1)] with
            sealLast := some ⟨List.replicate 160 0, none⟩, raw := 2 ^ 40
            sealJobs := [⟨4095, 0, 1, 0, [], [], [], [], false, 0⟩] }
         s.sealJobs = [⟨4095, 0, 1, 0, [], [], [], [], false, 0⟩] ∧ s.sealLast ≠ none ∧ s.maySign = true
          ∧ s.sealSigned + s.rd SEC_SEAL_CTRL_SIGN_TK ≤ s.raw ∧ leAt (List.replicate 160 0) 2 2 < 2 ^ 15) := by
  unfold takesWrite
  decide +kernel

/-- The complete chunk held for its twin, or for the third computation. -/
def twinned (h : Hold) : State :=
  { complete with slivers := complete.slivers.map fun e => (e.1, { e.2 with slots := e.2.slots.map fun y => { y with hold := h } }) }

/-- A twin of the released chunk runs. -/
def twinning : State :=
  { released with streams := released.streams.map fun e => (e.1, { e.2 with twins := [⟨0, 0, 1⟩] }) }

theorem witness_TwinsCheckResults :
    (let s := twinned (.twin 3)
     ((s.slotOf ((s.strm 4095).owner 0) 4095 0 0).any fun y =>
        s.twinParts y && decide (y.hold = .twin 3) && decide (payFps (s.heldPays y none) = y.outFps)
          && decide (payFps (s.heldPays y (some [[1]])) ≠ y.outFps)) = true)
      ∧ (let s := twinned (.third 3 [[2]])
         ((s.slotOf ((s.strm 4095).owner 0) 4095 0 0).any fun y =>
          s.twinParts y && decide (y.hold = .third 3 [[2]]) && decide (payFps (s.heldPays y none) = y.outFps)
            && decide (payFps (s.heldPays y (some [[1]])) ≠ y.outFps)
            && decide (payFps (s.heldPays y (some [[1]])) ≠ payFps [[2]])) = true)
      ∧ (twinning.slotOf ((twinning.strm 4095).owner 0) 4095 0 0 = none
          ∧ ((twinning.sx 4095).twins.find? fun w => w.epoch == 0 && w.chunk == 0) = some ⟨0, 0, 1⟩
          ∧ (((twinning.sx 4095).epochRec 0).any fun r => twinning.chunkKept 4095 r 0
            && decide (payFps (payloadsOf (twinning.recompute 4095 r 0 (partsOf 0 r.kept))) = (chunkFps r 0).map (·.2))) = true)
      ∧ ((served.events.all fun x => !(x.cls == 7 && x.unit == 511 && x.tent == 7
            && decide (served.raw < x.raw + served.rd MGT_FAULT_CFG_WINDOW * 640000000))) = true
        ∧ served.is (TMB_SLIVER_MAP_QUAR 7 511) = false ∧ (4095#12).toNat ∉ served.substs) := by
  decide +kernel

/-! ### The kernel library -/

/-- The smallest image: STEP and CLOSE are one EXIT word. -/
def exitImage : List Byte :=
  [0x31, 0x4B, 0x42, 0x54, 1, 0, 0, 0, 1, 0, 0, 0, 0, 0, 0, 0, 0xFF, 0xFF, 0, 0, 0, 0, 0xFF, 0xFF,
   0, 0, 0, 0, 1, 0, 0, 0, 1, 0, 0, 0, 0, 0, 0, 0] ++ List.replicate 216 0 ++ [0, 0, 0, 0xA0]

/-- A verification of the staged image is in progress. -/
def verifying (img : List Byte) : State :=
  { fields served [(TMB_KLOAD_LEN_LENGTH, 260)] with kpieces := [(0, img)], kop := some (.verify 255) }

theorem witness_KernelLibraryCommands :
    (takesWrite served .bmtVc6 TMB_KLOAD_CMD_at ∧ served.is TMB_KLOAD_STATUS_BUSY = false ∧ (2#2) ≠ 3
        ∧ served.kslotInUse (255#8).toNat = false)
      ∧ ((verifying exitImage).phase = .run ∧ (verifying exitImage).kop = some (.verify 255)
        ∧ (verifying exitImage).loaderReason 255 = 0 ∧ (verifying []).loaderReason 255 ≠ 0)
      ∧ ({ served with kop := some (.stage 2) } : State).kop = some (.stage 2)
      ∧ (takesWrite served .bmtVc6 (TMB_SUBST_CMD_at (7#3).toNat) ∧ served.is (TMB_SLIVER_MAP_SUBST 7 511) = false
        ∧ (served.substs.any fun x => x % 8 == 7 && arrayOf (x / 8) == arrayOf 511) = false
        ∧ served.spareUsed 7 (arrayOf 511) = false ∧ served.sliverOwner (8 * 511 + 7) = none)
      ∧ ((carousel 2).sliverOwner 0 = some 4095 ∧ 2 ≤ ((carousel 2).strm 4095).state)
      ∧ ((4095#12).toNat ∈ ({ served with substs := [4095] } : State).substs
        ∧ ({ served with substs := [4095] } : State).sliverOwner 4095 = none) := by
  unfold takesWrite
  decide +kernel

/-! ### Tumblers -/

/-- An image of one code word, its four entries at word 0, with LOOPLIM 0 `lim` and no state line. -/
def codeOf (w lim : Nat) : List Byte :=
  [0x31, 0x4B, 0x42, 0x54, 1, 0, 0, 0, 1, 0, 0, 0, 0, 0, 0, 0, 0, 0, 0, 0, 0, 0, 0, 0,
   0, 1, 0, 0, 0, 1, 0, 0, 0, 1, 0, 0, 0, 1, 0, 0] ++ bytesLE 4 lim ++ List.replicate 212 0 ++ bytesLE 4 w

/-- An OPEN of chunk 0 has reached the word, with s1 = 0x2000, s2 = 0x10000, s3 = 0xE000, s4 = 1 and s5 = 5. -/
def opening : Inv :=
  { entry := .openE, epoch := 0, chunk := 0, part := some ⟨[], 2044, {}, none, 0, 0, 0, 1, 1, 1, 0⟩, k := 0
    s := [0, 0x2000, 0x10000, 0xE000, 1, 5] ++ List.replicate 26 0 }

/-- Sliver 0 of stream 4095 runs that word. -/
def running (v : Inv) (w lim : Nat) : State :=
  { carousel 2 with
    streams := [(4095, { held := true, image := codeOf w lim })]
    slivers := [(0, { inv := some v, slots := [{ stream := 4095, epoch := 0, chunk := 0, mset := 0, mepoch := 0, opened := 0 }] })] }

theorem witness_ScalarInstructionsWriteTheirRegister :
    (∀ w ∈ [encR 0x01 31 1 2 17, encR 0x08 31 1 2 13, encI 0x02 31 1 0xFFFF, encI 0x03 31 1 0xFFFF, encI 0x04 31 1 0xFFFF,
        encI 0x05 31 1 0xFFFF, encI 0x06 31 0 0xFFFF, encI 0x07 31 1 0x801F, encF 0x09 31 1 2 3, encI 0x3E 31 4 0],
      atWord (running opening w 0) 0 4095 opening w)
      ∧ ((carousel 2).phase = .run ∧ (carousel 2).sliverOwner 2047 = none) := by
  unfold atWord
  decide +kernel

theorem witness_LoadsAndStoresUseTheWindows :
    (∀ w ∈ [encM 0x10 31 1 0 0, encM 0x11 31 1 0 0, encM 0x12 31 1 0 0, encM 0x13 31 1 0 0, encM 0x14 31 1 0 0,
        encM 0x15 5 1 0 0, encM 0x16 5 1 0 0, encM 0x17 5 1 0 0, encM 0x18 31 1 7 0, encM 0x19 31 1 7 0,
        encM 0x19 31 3 0 0, encM 0x10 31 5 0 0, encM 0x18 31 5 0 0],
      atWord (running opening w 0) 0 4095 opening w)
      ∧ (let wins : List (Nat × Nat × Nat × Bool) := [(0, 0, 64 * imgStateLines (codeOf 0 0), true), (1, 0x2000, 0x8000, true),
            (2, 0xA000, 64 * imgConstLines (codeOf 0 0), false), (3, 0xE000, 0x1000, false), (4, 0xF000, 0x1000, false),
            (5, 0x10000, 0x1000, true)]
         let holder (at_ n : Nat) := wins.find? fun x => decide (x.2.1 ≤ at_) && decide (at_ + n ≤ x.2.1 + x.2.2.1)
         opening.entry ≠ .combineE ∧ holder 0x2000 4 = some (1, 0x2000, 0x8000, true) ∧ holder 0x9FFE 4 = none
          ∧ holder 0x10FFC 4 = some (5, 0x10000, 0x1000, true) ∧ holder 0xEFFF 1 = some (3, 0xE000, 0x1000, false)
          ∧ 0x2000 % 4 = 0 ∧ 0x9FFE % 2 = 0 ∧ 0x2001 % 4 ≠ 0)
      ∧ (∀ n ∈ [1, 2, 4],
        (match opening.load (codeOf 0 0) (opening.addr 1 0 n) n n, opening.store (codeOf 0 0) (opening.addr 1 0 n) n (bytesBE n 5) with
          | .ok bs, .ok x => decide (bs.length = n ∧ x.work ≠ [])
          | _, _ => false) = true
        ∧ (match opening.load (codeOf 0 0) (opening.addr 0 0x1FFF n) n n, opening.store (codeOf 0 0) (opening.addr 3 0 n) n (bytesBE n 5) with
          | .error 2, .error 4 => true
          | _, _ => false) = true)
      ∧ (∀ n ∈ [2, 4], (match opening.load (codeOf 0 0) (opening.addr 5 0 n) n n with
          | .error 3 => true
          | _ => false) = true)
      ∧ (match opening.load (codeOf 0 0) (opening.addr 1 0 4) 64 4, opening.load (codeOf 0 0) (opening.addr 5 0 4) 64 4 with
          | .ok bs, .error 3 => match opening.store (codeOf 0 0) (opening.addr 1 0 4) 4 (mergeBytes 1 bs (List.replicate 64 1)) with
            | .ok _ => true
            | _ => false
          | _, _ => false) = true
      ∧ (match opening.load (codeOf 0 0) (opening.addr 3 0 4) 64 4 with
          | .ok bs => match opening.store (codeOf 0 0) (opening.addr 3 0 4) 4 (mergeBytes (opening.pr 0) bs (opening.vr 31)) with
            | .error 4 => true
            | _ => false
          | _ => false) = true := by
  unfold atWord
  decide +kernel

theorem witness_ControlInstructionsMoveTheInvocation :
    (∀ w ∈ [encI 0x20 1 2 0xFFFF, encI 0x21 1 2 0x7FFF, encI 0x22 1 2 1, encI 0x23 1 2 1, encI 0x24 1 2 1, encI 0x25 1 2 1,
        encJ 0x26 (2 ^ 26 - 1), encI 0x27 4 0 0, encI 0x27 5 0 0, encJ 0x28 0, encI 0x29 31 31 0xFFFF],
      atWord (running opening w 3) 0 4095 opening w)
      ∧ (running opening 0 0).slotOf 0 4095 opening.epoch opening.chunk ≠ none
      ∧ ((opening.setS 4 (ofSigned 32 ((opening.sr 4 : Int) - 1))).sr 4 = 0
        ∧ (opening.setS 5 (ofSigned 32 ((opening.sr 5 : Int) - 1))).sr 5 ≠ 0
        ∧ mapGet (fun _ => 0) opening.loops opening.pc + 2 ≤ imgLoopLim (codeOf 0 3) 0
        ∧ imgLoopLim (codeOf 0 0) 0 < mapGet (fun _ => 0) opening.loops opening.pc + 2)
      ∧ atWord (running opening (encI 0x27 5 0 0) 0) 0 4095 opening (encI 0x27 5 0 0)
      ∧ (opening.entry = .openE ∧ opening.part ≠ none)
      ∧ (let v : Inv := { opening with entry := .stepE }
         let s := running v (encJ 0x28 0) 0
         atWord s 0 4095 v (encJ 0x28 0) ∧ ((s.slotOf 0 4095 v.epoch v.chunk).any fun y => !s.allArrived y) = true)
      ∧ ((running opening 0 0).phase = .run ∧ ((running opening 0 0).sliver 0).inv = some opening
        ∧ (running opening 0 0).sliverOwner 0 = some 4095
        ∧ kLegal (kWordAt ((running opening 0 0).sx 4095).image opening.pc) = false) := by
  unfold atWord
  decide +kernel

theorem witness_VectorInstructionsWriteTheirRegister :
    (∀ w ∈ [encV 0x30 31 1 2 7 0 9, encV 0x31 7 1 2 7 0 3, encV4 0x32 31 1 2 3 7 3, encV4 0x33 31 1 2 3 7 1,
        encV4 0x34 31 1 2 3 7 2, encV 0x35 31 1 2 7 0 20, encV 0x36 31 1 0 7 4 0, encV 0x36 31 1 0 7 4 1,
        encV 0x36 31 1 0 7 4 2, encV 0x36 31 1 0 7 4 3, encV 0x36 31 1 0 7 4 4, encV 0x37 31 1 2 7 6 0,
        encV 0x38 31 1 2 7 3 3, encV 0x39 31 1 0 7 2 0, encV 0x39 31 1 15 0 0 1, encV 0x39 31 1 15 0 0 2,
        encR 0x3A 7 1 2 0, encR 0x3A 7 1 2 1, encR 0x3A 7 1 2 2, encR 0x3A 7 1 2 3, encR 0x3A 7 1 2 4, encR 0x3A 7 1 2 5, encR 0x3A 31 7 0 6, encR 0x3A 31 7 0 7, encR 0x3A 7 1 2 8],
      atWord (running opening w 0) 0 4095 opening w)
      ∧ (vcvtElems 0 (opening.vr 1) (opening.vr 2)).1 = some 0 := by
  unfold atWord
  decide +kernel

/-! ### Tightrope -/

/-- The servo in a state, with the parent port 2044 up, as it stands after reset otherwise. -/
def timed (st : Nat) : State :=
  let s := fields (linked {}) [(TGT_SERVO_STATUS_STATE, st), (TGT_SERVO_CTRL_PARENT, 2044), (TGT_PORT_TIME_ROLE 2044, 1),
    (CXL_LINK_STATUS_WIDTH, 4)]
  { s with servo := { s.servo with integ := 7 } }

/-- A change whose apply tick has come. -/
def applying (a : Apply) : State := { timed 1 with applies := [{ a with at_ := 99999 }] }

theorem witness_FabricTimeChangesAtItsApplyTick :
    ((timed 0).phase = .run ∧ (timed 0).is (PAGE_STATUS_READY tgtPage) = true
        ∧ State.reset.phase = .run ∧ State.reset.is (PAGE_STATUS_READY tgtPage) = false)
      ∧ (takesWrite (timed 1) .bmtVc6 TGT_RATE_HI_at ∧ takesWrite (timed 2) .bmtVc6 TGT_RATE_HI_at ∧ (255#32).toNat < 256
        ∧ (timed 1).servoState = 1 ∧ (timed 2).servoState = 2)
      ∧ (let s : State := { timed 1 with applies := [{ at_ := 100001 }] }
         s.phase = .run ∧ (s.applies.all fun a => decide (s.raw < a.at_)) = true)
      ∧ (∀ a ∈ [({ at_ := 99999, rate := some (-(2 ^ 39)) } : Apply), { at_ := 99999, step := some (-5) },
            { at_ := 99999, set := some (2 ^ 64 - 1) }],
          (applying a).phase = .run ∧ (applying a).applies = [a] ∧ a.at_ ≤ (applying a).raw ∧ a.track = false
            ∧ ∀ u, u < 32 → (applying a).is (TGT_TRIG_CTRL_ARM u) = false)
      ∧ clampRate (-(2 ^ 39)) ≠ -(2 ^ 39) := by
  unfold takesWrite
  decide +kernel

theorem witness_ServoCommandsMoveItsState :
    (∀ st, st < 6 → takesWrite (timed st) .bmtVc6 TGT_SERVO_CTRL_at ∧ (timed st).servoState = st ∧ (timed st).applies = [])
      ∧ (let s : State := { timed 3 with applies := [{ at_ := 99999, rate := some 5 }, { at_ := 100063, rate := some 9 }] }
         takesWrite s .bmtVc6 TGT_SERVO_CTRL_at ∧ s.servoState ≠ 0
          ∧ (s.applies.all fun a => decide (s.raw < a.at_) || (a.set.isNone && a.step.isNone)) = true)
      ∧ ((timed 3).phase = .run ∧ (timed 3).servo.heard + 8 * 2 ^ (timed 3).logInt ≤ 2 ^ 26)
      ∧ ({ timed 3 with raw := 2 ^ 26 } : State).servoState = 3 := by
  unfold takesWrite
  decide +kernel

/-- A PTP message of sequence number 65535 with a body of 20 bytes, which reads as a time of 2 s 3 ns. -/
def timeMsg (ty flags : Nat) : List Byte :=
  [BitVec.ofNat 8 ty, 0x12, 0, BitVec.ofNat 8 (ptpLen ty), 0, 0, BitVec.ofNat 8 flags, 0] ++ List.replicate 20 0 ++ [0, 1, 0xFF, 0xFF, 0, 0x7F]
    ++ [0, 0, 0, 0, 0, 2, 0, 0, 0, 3] ++ List.replicate 10 0

/-- It waits at port 2044, whose partner takes time. -/
def hearing (st ty flags : Nat) (servo : Servo) (x : Ptp) : State :=
  { timed st with
    ports := [(2044, { block := List.replicate 34 0 ++ [1], ptp := [⟨mkControl 4 0 0 [0x30000000] (timeMsg ty flags) 0, {}, [], 0, none, none⟩] })]
    servo := servo, ptps := [(2044, x)] }

/-- It is the head of the port's messages and of the type given. -/
def heard (s : State) (ty : Nat) : Bool :=
  match (s.port 2044).ptp with
  | a :: _ =>
    let m := frPayload a.frame
    s.phase == .run && s.timeRole 2044 != 0 && s.partnerTimes 2044 && decide (44 ≤ m.length) && ptpVersion m == 2 && ptpType m == ty
      && s.fromParent 2044 m && s.measures 2044 m && ptpSeq m == 65535 && !ptpOption m
  | _ => false

/-- A message that waits at port 2044 of ROLE 3 is to be relayed to port 1920, which is up with ROLE 3 and has these relays. -/
def relaying (ty flags : Nat) (rs : List Relay) : State :=
  let s := hearing 0 ty flags {} {}
  { fields s [(TGT_PORT_TIME_ROLE 2044, 3), (TGT_PORT_TIME_ROLE 1920, 3), (LNK_FP_MODE_MODE 480, 1), (LNK_PORT_STATUS_UP 1920, 1),
      (TGT_PTP_CTRL_RELAY_EN, 1), (TGT_PTP_CTRL_RELAY_DOMAIN, 0)] with ptps := [(1920, { relays := rs })] }

/-- It is the head of the port's messages, of the type given, in the relayed domain. -/
def heardRelay (s : State) (ty : Nat) : Bool :=
  match (s.port 2044).ptp with
  | a :: _ =>
    let m := frPayload a.frame
    s.phase == .run && s.timeRole 2044 != 0 && s.partnerTimes 2044 && decide (44 ≤ m.length) && ptpVersion m == 2 && ptpType m == ty
      && s.relays 2044 m && ptpSeq m == 65535 && !ptpOption m
  | _ => false

theorem witness_TimeMessagesDriveTheServo :
    (let s := hearing 2 9 0 {} {}
     (s.port (2044#11).toNat).ptp ≠ [] ∧ 9 ∉ ptpTypes ∧ heard s 9 = true ∧ ptpOption (timeMsg 0 0x80) = true
      ∧ ptpOption ((timeMsg 0 0).set 3 45) = true ∧ ptpOption (timeMsg 0 2) = false)
      ∧ (let s := hearing 3 0 2 {} {}
         heard s 0 = true ∧ ptpTwoStep (timeMsg 0 2) = true ∧ s.servoTakes = true)
      ∧ (∀ st ∈ [2, 3, 4], ∀ n ∈ [0, 7],
          let s := hearing st 8 0 { offs := List.replicate n 0 } { sync := some (65535, 0, 640000000 * 64) }
          heard s 8 = true ∧ (s.ptp 2044).sync = some (65535, 0, 640000000 * 64) ∧ s.servoState = st ∧ s.servo.offs.length = n)
      ∧ (let s := hearing 3 8 0 {} { sync := some (65535, 0, 640000000 * 64) }
         let o := ((ptpTime (timeMsg 8 0) 34 : Int) + ptpCorr (timeMsg 8 0) + s.pathDelay 2044 - (unitsOf (640000000 * 64) : Nat)).tdiv 3200
         o.natAbs ≤ 32 * s.rd TGT_SERVO_GAIN_OOB
          ∧ 32 * s.rd TGT_SERVO_GAIN_OOB
            < ((ptpTime (timeMsg 8 0) 34 : Int) + ptpCorr (timeMsg 8 0) + s.pathDelay 2044 - (unitsOf 0 : Nat)).natAbs / 3200)
      ∧ heard (hearing 3 2 0 {} {}) 2 = true
      ∧ (heard (hearing 3 3 2 {} { req := some (65535, some 5) }) 3 = true ∧ ptpTwoStep (timeMsg 3 2) = true)
      ∧ (∀ n ∈ [6, 7, 8], let s := hearing 3 10 0 {} { req := some (65535, some 5), resp := some ⟨65535, 0, 9⟩, delays := List.replicate n 4 }
          heard s 10 = true ∧ (s.ptp 2044).req = some (65535, some 5) ∧ (s.ptp 2044).resp = some ⟨65535, 0, 9⟩
            ∧ ((s.ptp 2044).delays ++ [0]).length - ((s.ptp 2044).delays.length - 7) = min 8 (n + 1))
      ∧ (let s := relaying 0 2 []
         heardRelay s 0 = true ∧ s.up 1920 = true ∧ s.timeRole 1920 = 3 ∧ ptpTwoStep (timeMsg 0 2) = true)
      ∧ (∀ tx ∈ [none, some 77], let s := relaying 8 0 [{ src := 2044, seq := 65535, ident := ptpIdent (timeMsg 8 0), rx := 5, tx := tx }]
          heardRelay s 8 = true ∧ ∃ r ∈ (s.ptp 1920).relays, (s.ptp 1920).relays = [r] ∧ r.src = 2044
            ∧ r.seq = ptpSeq (timeMsg 8 0) ∧ r.ident = ptpIdent (timeMsg 8 0) ∧ r.fu = none ∧ r.tx = tx) := by
  decide +kernel

/-- The timers' intervals have passed, with PTP over management Ethernet. -/
def timerRuns (role : Nat) : State :=
  { fields (timed 1) [(TGT_PORT_TIME_ROLE 2044, role), (TGT_PTP_CTRL_ETH_EN, 1)] with raw := 2 ^ 24 }

theorem witness_TimeTimersSendMessages :
    (let s := State.reset
     s.phase = .run ∧ s.raw < s.servo.syncAt + 2 ^ s.logInt ∧ s.raw < s.servo.pdAt + 8 * 2 ^ s.logInt ∧ s.is TGT_PTP_CTRL_ETH_EN = false)
      ∧ (let s := timerRuns 2
         s.servo.syncAt + 2 ^ s.logInt ≤ s.raw ∧ s.servo.pdAt + 8 * 2 ^ s.logInt ≤ s.raw ∧ s.servo.ethAt + 2 ^ s.logInt ≤ s.raw
          ∧ s.up 2044 = true ∧ s.timeRole 2044 = 2 ∧ s.timeRole 0 = 0 ∧ s.is TGT_PTP_CTRL_ETH_EN = true)
      ∧ ((timerRuns 2).ethSecond.2 < 50000 ∧ (255#8).toNat ≠ (timerRuns 2).rd TGT_PTP_CTRL_DOMAIN
        ∧ (0#8).toNat = (timerRuns 2).rd TGT_PTP_CTRL_DOMAIN)
      ∧ (let s : State := { timerRuns 2 with ethSecond := (0, 50000) }
         s.ethSecond.1 = s.raw / 640000000 ∧ 50000 ≤ s.ethSecond.2) := by
  decide +kernel

/-- Trigger unit 31 with a word +0, a time and a period; pin 7 in pulse mode, and engine 15 started by a trigger. -/
def trigger (ctrl time period : Nat) : State :=
  fields (timed 1) [(⟨TGT_TRIG_CTRL_at 31, 0, 32⟩, ctrl), (TGT_TRIG_TIME_LO_TIME 31, time), (TGT_TRIG_PERIOD_PERIOD 31, period),
    (TGT_PIN_CFG_OWNER 7, 2), (TGT_PIN_CFG_MODE 7, 1), (SPT_HEAT_CTRL_SRC 15, 1)]

theorem witness_TriggerUnitsFireAtTheirInstant :
    (let s := trigger 0x80000000 0 0
     let a := TGT_TRIG_CTRL_at (31#5).toNat
     let b (t : State) (v : Word) := (t.plainWrite .driver a (v ||| 0x20000000#32).toNat).put (TGT_TRIG_CTRL_ARM 31) false
     takesWrite s .driver a ∧ s.applies = [] ∧ s.trigDue 31 = false ∧ (natField (0xC0000000#32).toNat 30 2 = 3 ∧ 5 ≤ natField (0x8F000000#32).toNat 24 4)
        ∧ (natField (0x04000000#32).toNat 24 4 < 5 ∧ natField (0x04000000#32).toNat 30 2 = 0
          ∧ s.rd (TGT_TRIG_CTRL_OWNER 31) = ownerCode .driver)
        ∧ (natField (0x84000000#32).toNat 30 2 ∈ [1, 2] ∧ natField (0x84000000#32).toNat 24 4 < 5
          ∧ ownerOk (ownerCode .firmware) (s.rd (TGT_TRIG_CTRL_OWNER 31)) 1 = false
          ∧ ownerOk (ownerCode .driver) (s.rd (TGT_TRIG_CTRL_OWNER 31)) 2 = true ∧ s.is (TGT_TRIG_CTRL_ARM 31) = false
          ∧ (trigger 0xA0000000 0 0).is (TGT_TRIG_CTRL_ARM 31) = true)
        ∧ (b s 0x84000000#32).armRefused 31 = true
        ∧ ((b s 0x80000000#32).armRefused 31 = false ∧ (b s 0x80000000#32).trigTime 31 < (b s 0x80000000#32).trigTick 31 + 640)
        ∧ (let t := trigger 0x80000000 100640 0
           (b t 0x80000000#32).armRefused 31 = false ∧ (b t 0x80000000#32).trigTick 31 + 640 ≤ (b t 0x80000000#32).trigTime 31)
        ∧ s.rd (TGT_TRIG_CTRL_ACTION 31) < 5)
      ∧ (let s := trigger 0xA0000000 99999 0
         takesWrite s .driver (TGT_TRIG_CTRL_at (31#5).toNat) ∧ s.applies = [] ∧ s.rd (TGT_TRIG_CTRL_OWNER 31) = ownerCode .driver
          ∧ s.rd (TGT_TRIG_CTRL_ACTION 31) < 5 ∧ s.rd (TGT_TRIG_PERIOD_PERIOD 31) = 0 ∧ s.trigDue 31 = true
          ∧ s.trigAt 31 < (s.raw : Int))
      ∧ (let s := trigger 0xA0000000 100000 0
         s.trigDue 31 = true ∧ (s.raw : Int) ≤ s.trigAt 31)
      ∧ ((trigger 0x80000000 0 0).is (TGT_TRIG_CTRL_ARM 31) = false ∧ (trigger 0xA0000000 100001 0).trigTick 31 < (trigger 0xA0000000 100001 0).trigTime 31)
      ∧ (∀ act, act < 5 → ∀ period ∈ [0, 64],
          let s := trigger (0xA0000000 + act * 2 ^ 24) 100000 period
          s.phase = .run ∧ s.is (TGT_TRIG_CTRL_ARM 31) = true ∧ s.trigTime 31 ≤ s.trigTick 31
            ∧ s.rd (TGT_TRIG_CTRL_ACTION 31) = act ∧ s.rd (TGT_TRIG_PERIOD_PERIOD 31) = period
            ∧ (∀ v, v < 31 → s.trigDue v = false))
      ∧ ((nextInstant 0 64 100000).2 = true ∧ (nextInstant 100000 64 100000).2 = false)
      ∧ (let l : Launch := ⟨2044, 31, mkControl 4 0 0 [] [] 0, 0⟩
         let s : State := { linked { pccum := List.replicate 8 64 } with launches := [l] }
         let x := s.port 2044
         s.phase = .run ∧ (s.launches.find? fun l => l.port == (2044#11).toNat) = some l
          ∧ s.up 2044 = true ∧ x.inWindow = false ∧ x.aligning = false ∧ x.pauseTx = none ∧ x.resend = none ∧ x.retry.length < retryDepth (s.slotMode 2044)
          ∧ x.txVc = none ∧ (s.gateNow 2044).gates.testBit 5 = true
          ∧ s.guardOk 2044 5 (l.frame.length + 8) (31#5).toNat (s.gateNow 2044) = true ∧ s.creditCovers 2044 5 (l.frame.length + 8) = true)
      ∧ (let l : Launch := ⟨2044, 31, mkControl 4 0 0 [] [] 0, 0⟩
         let s : State := { linked {} with launches := [l] }
         s.creditCovers 2044 5 (l.frame.length + 8) = false) := by
  unfold takesWrite
  refine ⟨?_, ?_, ?_, ?_⟩ <;> decide +kernel

/-- Pin 7 in a mode, owned by the driver. -/
def pinned (mode : Nat) (x : Pin) : State :=
  { fields (timed 1) [(TGT_PIN_CFG_OWNER 7, 2), (TGT_PIN_CFG_MODE 7, mode), (TGT_TRIG_CTRL_ACTION 31, 1), (TGT_TRIG_CTRL_PIN 31, 7)] with
    pins := [(7, x)] }

theorem witness_PinsAndReplicasFollowTime :
    (let s := pinned 3 { last := some (100000 * 32 + 31 - 2048) }
     s.phase = .run ∧ s.rd (TGT_PIN_CFG_MODE (7#3).toNat) = 3 ∧ s.is (TGT_PIN_CFG_POL 7) = false
        ∧ (mapGet (fun _ => ({} : Pin)) s.pins 7).last = some (100000 * 32 + 31 - 2048)
        ∧ (100000 * 32 + 31 - 2048) + 2048 ≤ s.raw * 32 + (31#5).toNat ∧ s.raw * 32 + (30#5).toNat < (100000 * 32 + 31 - 2048) + 2048)
      ∧ (pinned 1 {}).rd (TGT_PIN_CFG_MODE 7) ≠ 3
      ∧ (mapGet (fun _ => ({} : Pin)) (pinned 1 { till := some 3200031 }).pins 7).till = some 3200031
      ∧ (3200031 / 32 ≤ (pinned 1 {}).nowTick ∧ ¬ 3200032 / 32 ≤ (pinned 1 {}).nowTick)
      ∧ (takesWrite (pinned 1 {}) .driver (TGT_PIN_CFG_at (7 : Fin 8).val) ∧ (pinned 1 {}).applies = []
        ∧ (∀ u, u < 32 → (pinned 1 {}).trigDue u = false)
        ∧ (pinned 1 {}).rd (TGT_PIN_CFG_OWNER 7) = ownerCode .driver
        ∧ (pinned 1 {}).rd (TGT_TRIG_CTRL_ACTION 31) = 1 ∧ (pinned 1 {}).rd (TGT_TRIG_CTRL_PIN 31) = 7)
      ∧ (∀ d ∈ [(0 : Int), 1, -1],
          let s : State := { served with repl := mapSet (fun _ => 0) served.repl 7 d, raw := 640000000 }
          s.replOff (7#3).toNat = d ∧ (s.tent 7).checkAt + 640000000 ≤ s.raw ∧ (s.tent 7).checkAt / 640000000 < s.raw / 640000000)
      ∧ (let s : State := { served with raw := 639999999 }
         s.raw < (s.tent 7).checkAt + 640000000 ∧ s.raw / 640000000 ≤ (s.tent 7).checkAt / 640000000) := by
  unfold takesWrite
  decide +kernel

/-! ### Spotlight and Trapeze -/

/-- Engine 15 with microring 319 in a state, and fibre pair 511 in a mode. -/
def lit (ring mode : Nat) (x : Ring) (g : Engine) : State :=
  { fields (linked {}) [(ringState 15 319, ring), (ringState 15 318, ring), (LNK_FP_MODE_MODE 511, mode)] with
    rings := [(320 * 15 + 318, x), (320 * 15 + 319, x)], engines := [(15, g)] }

theorem runLoops_none (s : Box) (e : Nat) : s.runLoops e [] = s := by
  unfold Box.runLoops
  generalize List.range 320 = l
  induction l with
  | nil => rfl
  | cons i l ih => simp_all [List.foldl]

theorem witness_RingsLockAndHeatersFollow :
    (∀ st, st < 7 → ((lit st 2 {} {}).phase = .run ∧ (lit st 2 {} {}).rd (ringState 15 319) = st
        ∧ (lit st 2 {} {}).rd (ringState 15 318) = st))
      ∧ ((lit 2 2 {} {}).pairMode (32 * 15 + 319 % 160 / 5) = 2 ∧ 319 % 5 = 4 ∧ 318 % 5 = 3)
      ∧ ((lit 5 2 { parked := true } {}).ring 15 319).parked = true
      ∧ ((lit 2 2 {} {}).ringDark 15 319 = false ∧ ({ lit 2 2 {} {} with ports := [(2044, { inWindow := true })] } : State).ringDark 15 319 = true)
      ∧ (ringPasses 50 [10, 11] = true ∧ ringPasses 49 [] = false ∧ ringPasses 100 [9] = false)
      ∧ ((lit 1 1 { step := 4094 } {}).ring 15 319).step < 4095 ∧ ¬ ((lit 1 1 { step := 4095 } {}).ring 15 319).step < 4095
      ∧ (∀ src, src < 2 → let s := fields (lit 3 1 {} { heatRun := true }) [(SPT_HEAT_CTRL_SRC 15, src)]
          s.rd (SPT_HEAT_CTRL_SRC 15) = src ∧ (s.engine 15).heatRun = true ∧ (s.engine 14).heatRun = false
            ∧ (s.engine 15).heatAt + s.rd (SPT_HEAT_CTRL_PERIOD 15) ≤ ({ s with raw := 2 ^ 24 } : State).raw
            ∧ ({ s with raw := 0 } : State).raw < (s.engine 15).heatAt + s.rd (SPT_HEAT_CTRL_PERIOD 15))
      ∧ (∀ x, x ∈ [(-1 : Int), 2 ^ 32, 5] → let s := fields (lit 4 1 { set := x } { commit := true }) ((List.range 4).map fun j => (ringState 15 (315 + j), 4))
          let b := s.runLoops 15 []
          b.heated 15 319 = true ∧ s.rd (ringState 15 319) = 4 ∧ (s.ring 15 319).clamped = false ∧ (s.engine 15).commit = true
            ∧ (decide (b.heatOf 15 319 < 0) || decide (65535 * 2 ^ 30 < b.heatOf 15 319)) = decide (x ≠ 5))
      ∧ (let s := { fields (lit 3 1 {} {}) [(SPT_HEAT_CTRL_SRC 15, 1)] with raw := 640000 }
         s.is (SPT_HEAT_CTRL_SRC 15) = true ∧ (s.engine 15).heatAt + 640000 ≤ s.raw)
      ∧ ((lit 3 1 {} {}).raw < ((lit 3 1 {} {}).engine 15).heatAt + 640000) := by
  simp only [runLoops_none]
  decide +kernel

theorem calFails_quiet (s : Box) (e : Nat) : s.calFails e ⟨false, false, [], []⟩ = (s.engine e).calLost := by
  simp [Box.calFails, calCoupling]

/-- Every laser of engine 15 has a NOM, and the λ transmit microrings of port 2044's fibre pair are verified. -/
def lased : State :=
  fields (linked {}) ((List.range 20).map (fun n => (SPT_LSR_CFG_NOM 7 (laserIx 15 (n / 5) (n % 5)), 1000))
    ++ (List.range 5).map (fun k => (ringState 15 (155 + k), 3)) ++ [(pairBit SPT_APR_STATUS_APR 511, 0)])

/-- Engine 15's record, in `lased`. -/
def engined (x : Engine) (raw : Nat) : State := { lased with engines := [(15, x)], raw := raw }

theorem witness_EnginesCalibrateAndComeUp :
    (takesWrite lased .bmtVc6 (SPT_XT_CTRL_at (15#4).toNat) ∧ lased.is (SPT_XT_STATUS_BUSY 15) = false
        ∧ (fields lased [(SPT_XT_STATUS_BUSY 15, 1)]).is (SPT_XT_STATUS_BUSY 15) = true
        ∧ lased.calBlocked 15 = false ∧ (fields lased [(SPT_HEAT_STATUS_SEARCH 15, 1)]).calBlocked 15 = true)
      ∧ (takesWrite lased .bmtVc6 (SPT_CTRL_at ((15#4).toNat / 2)) ∧ lased.is (engReady 15) = false ∧ (lased.engine 15).boot = 0
        ∧ (fields lased [(engReady 15, 1)]).is (engReady 15) = true)
      ∧ (let s := fields lased [(SPT_XT_CTRL_AUTO 15, 1)]
         s.phase = .run ∧ s.is (SPT_XT_CTRL_AUTO 15) = true ∧ s.calInstant 15 ≤ 2 ^ 60
          ∧ (fields lased [(SPT_XT_CTRL_AUTO 15, 0)]).is (SPT_XT_CTRL_AUTO 15) = false)
      ∧ (let x : Engine := { due := some 0 }
         ((engined x 640000000).engine 15).due = some 0 ∧ 0 + 640000000 ≤ (engined x 640000000).raw
          ∧ (engined x 639999999).raw < 0 + 640000000)
      ∧ (let s := fields (engined {} 0) [(SPT_XT_STATUS_BUSY 15, 1)]
         s.is (SPT_XT_STATUS_BUSY 15) = true ∧ (s.engine 15).commit = false ∧ s.toBox.calFails 15 ⟨false, false, [], []⟩ = false
          ∧ s.calFails 15 (CalResult.mk true false [] []) = true ∧ s.calFails 15 (CalResult.mk false true [] []) = true)
      ∧ (let s := engined { boot := 1 } 6400000
         (s.engine 15).boot = 1 ∧ (s.engine 15).bootAt + 6400000 ≤ s.raw
          ∧ (s.activeLasers 15).all (s.litOk 15 (List.replicate 28 150) 0) = true
          ∧ (s.activeLasers 15).all (s.litOk 15 (List.replicate 28 151) 0) = false)
      ∧ (let s := engined { boot := 2 } 0
         (s.engine 15).boot = 2 ∧ s.pairEnabled 511 = true
          ∧ ∀ j, j < 32 → ∀ k, k < 5 → s.pairEnabled (32 * 15 + j) = true →
              s.rd (ringState 15 (5 * j + k)) = 3 ∨ s.rd (ringState 15 (5 * j + k)) = 5 ∨ s.ringQuar 15 (5 * j + k) = true) := by
  unfold takesWrite
  simp only [calFails_quiet]
  decide +kernel

/-- Laser 4 of group 3 of engine 15 in a state with the readings counted so far. -/
def fading (st : Nat) (x : Laser) : State :=
  { fields lased [(laserState 15 3 4, st), (SPT_LSR_CFG_ROLE 7 (laserIx 15 3 4), 4), (SPT_LSR_CFG_ROLE 7 (laserIx 15 3 6), 7)] with
    lasers := [((4 * 15 + 3) * 7 + 4, x)] }

/-- Its replacement by laser 6. -/
def replacing (a : Arm) : State := { fading 3 {} with lgroups := [(63, { arms := [a] })], raw := 9600 }

theorem witness_LasersAreWatchedAndReplaced :
    ((fading 1 {}).phase = .run ∧ (fading 1 {}).is (SPT_MON_CTRL_SRC 15) = false ∧ ((fading 1 {}).engine 15).boot = 0
        ∧ (List.replicate 28 (700 : Int))[25]? = some 700 ∧ (fading 1 {}).nom 15 (25 / 7) (25 % 7) = some 1000
        ∧ ∀ st ∈ [1, 2, 3, 4], (fading st {}).rd (laserState 15 (25 / 7) (25 % 7)) = st)
      ∧ (((fading 2 { mig := 3 }).laser 15 3 4).mig + 1 = 4 ∧ ((fading 1 { warn := 15 }).laser 15 3 4).warn + 1 = 16
        ∧ ((fading 2 { clear := 63 }).laser 15 3 4).clear + 1 = 64)
      ∧ (let s := { fields (fading 1 {}) [(SPT_MON_CTRL_SRC 15, 1)] with raw := 6400000 }
         s.is (SPT_MON_CTRL_SRC 15) = true ∧ (s.engine 15).monFree = false
          ∧ (s.engine 15).monAt + 10 * monTicks (s.rd (SPT_MON_CTRL_INT 15)) ≤ s.raw)
      ∧ (let a : Arm := ⟨4, 6, false, true, false, false⟩
         (((replacing a).lgroup 15 3).arms.find? fun a => !a.ready && a.spare == if true then 6 else 5) = some a)
      ∧ (((fading 1 {}).engine 15).pollAt + 6400000 ≤ 6400000 ∧ (fading 1 {}).raw < ((fading 1 {}).engine 15).pollAt + 6400000)
      ∧ (let a : Arm := ⟨4, 6, true, true, false, false⟩
         (((replacing a).lgroup 15 3).arms.find? fun a => a.mig && a.ready) = some a
          ∧ (((replacing a).lgroup 15 3).arms.any fun b => b.swap) = false ∧ (replacing a).laserRole 15 3 4 = 4
          ∧ (replacing a).lanesOff 15 3 4 = true)
      ∧ (let a : Arm := ⟨4, 6, true, true, false, true⟩
         (((replacing a).lgroup 15 3).arms.find? fun a => a.swap) = some a ∧ a.laser < 7 ∧ a.spare < 7 ∧ a.laser ≠ a.spare
          ∧ ((replacing a).lgroup 15 3).syncAt + 9600 ≤ (replacing a).raw)
      ∧ (lased.pairMode (511#9).toNat ≠ 0 ∧ lased.inApr 511 = false
        ∧ (let s : State := { fields lased [(pairBit SPT_APR_STATUS_APR 511, 1)] with raw := 64000000 }
           s.inApr 511 = true ∧ (s.apr 511).open_ = false ∧ (s.apr 511).pulseAt + 64000000 ≤ s.raw
            ∧ (({ s with aprs := [(511, ⟨0, 0, true⟩)] } : State).apr 511).open_ = true
            ∧ (({ s with aprs := [(511, ⟨0, 0, true⟩)] } : State).apr 511).pulseAt + 1280000 ≤ s.raw))
      ∧ (let s := { fields lased [(SPT_LANE_CFG_UNCORR_LIM 7, 5)] with ctrs := [(lnkPage 7 * 4096 + (2305 + 2 * (5 * 63 + 3)), 5)] }
         s.up 2044 = true ∧ (fields s [(pairBit TRP_JOINED_JOINED 511, 1)]).joined 511 = true ∧ s.joined 511 = false ∧ s.up 2040 = false ∧ s.rxLanes 2044 ≠ []
          ∧ (s.rd (SPT_LANE_CFG_UNCORR_LIM 7) : Int)
            ≤ (((s.ctr (lnkPage 7) (2305 + 2 * (5 * 63 + 3))).toNat : Int) - (s.port 2044).fecPrev.getD 3 0) % 2 ^ 64)
      ∧ (takesWrite lased .bmtVc6 (TRP_XCONN_at (511#9).toNat)
        ∧ natField (0x80000000#32).toNat 5 26 = 0 ∧ natField (0#32).toNat 5 26 = 0
        ∧ (natField (0x80000000#32).toNat 31 1 = 1 ∧ natField (0#32).toNat 31 1 = 0)
        ∧ (let g := 511 / 32 * 32 + 0
           ((lased.is (TRP_XCONN_VALID g) && lased.rd (TRP_XCONN_PARTNER g) != 31) || lased.joined 511 || lased.joined g
            || lased.bypassList (4 * 511) || lased.bypassList (4 * g)) = false
          ∧ (let s := fields lased [(TRP_XCONN_VALID g, 1), (TRP_XCONN_PARTNER g, 5)]
             (s.is (TRP_XCONN_VALID g) && s.rd (TRP_XCONN_PARTNER g) != 31) = true))) := by
  unfold takesWrite
  decide +kernel

/-! ### Counters and measurement -/

/-- Monitor 15 of tent 7 watches the slots of sliver 7, of which one is open, with its interrupt. -/
def watched (en n : Nat) : State :=
  { fields (carousel 2) [(BRK_OCC_CFG_EN 7 15, en), (BRK_OCC_CFG_SRC 7 15, 5), (BRK_OCC_CFG_IE 7 15, 1), (BRK_OCC_N_N 7 15, n)] with
    slivers := [(7, { slots := [{ stream := 4095, epoch := 0, chunk := 0, mset := 0, mepoch := 0, opened := 0 }] })] }

theorem witness_OccupancyMonitorsCount :
    ((watched 0 0).phase = .run ∧ (watched 0 0).is (BRK_OCC_CFG_EN 7 15) = false ∧ (watched 1 0).is (BRK_OCC_CFG_EN 7 15) = true)
      ∧ (let q (s : State) := s.occQuantity 7 (s.rd (BRK_OCC_CFG_SRC 7 15)) (s.rd (BRK_OCC_CFG_INDEX 7 15))
         (watched 1 0).rd (BRK_OCC_N_N 7 15) < q (watched 1 0) ∧ ¬ (watched 1 1).rd (BRK_OCC_N_N 7 15) < q (watched 1 1)
          ∧ mapGet (fun _ => false) (watched 1 0).occs (16 * 7 + 15) = false ∧ (watched 1 0).is (BRK_OCC_CFG_IE 7 15) = true)
      ∧ (takesWrite served .bmtVc6 (BRK_OCC_CFG_at 7 15) ∧ takesWrite served .bmtVc6 (BRK_OCC_N_at 7 15))
      ∧ (8 ≤ natField (0x20000000#32).toNat 26 4
        ∧ occMaxIndex (natField (0x10000001#32).toNat 26 4) < natField (0x10000001#32).toNat 0 14
        ∧ natField (0x1C003FFF#32).toNat 26 4 < 8
        ∧ ¬ occMaxIndex (natField (0x1C003FFF#32).toNat 26 4) < natField (0x1C003FFF#32).toNat 0 14) := by
  unfold takesWrite
  decide +kernel

/-- Port 2044 is leaf-facing, and 300 ports wait for a notice. -/
def hinting (en raw : Nat) : State :=
  { fields (linked {}) [(LNK_PORT_CTRL_ROLE 2044, 1), (BRK_HINT_HOT_EN 0, en), (BRK_HINT_INTERVAL_INTERVAL 0, 1000)] with
    hotQ := [1, 2044], raw := raw }

theorem witness_SamplersAndNoticesMeasure :
    (takesWrite served .bmtVc6 (BRK_SMP_CFG_at 7 15) ∧ takesWrite served .bmtVc6 (BRK_SMP_FILT_at 7 15)
        ∧ (0x80800000#32).toNat.testBit 31 = true ∧ 4 ≤ natField (0x80800000#32).toNat 21 5 ∧ natField (0x80800000#32).toNat 21 5 ≤ 24
        ∧ (0x80800000#32).toNat.testBit 27 = false
        ∧ (0x08000000#32).toNat.testBit 27 = true ∧ (0x08000000#32).toNat.testBit 30 = false
        ∧ served.samplerOn 7 15 = false ∧ (fields served [(BRK_CTRL_EN 7, 1)]).is (BRK_CTRL_EN 7) = true)
      ∧ (takesWrite served .bmtVc6 MGT_SMPQ_TAIL_at ∧ (511#32).toNat < 512 ∧ served.smpq.length < (511 + 512 - served.rd MGT_SMPQ_TAIL_INDEX) % 512
        ∧ ¬ ({ served with smpq := [[], []] } : State).smpq.length < ((2#32).toNat + 512 - served.rd MGT_SMPQ_TAIL_INDEX) % 512)
      ∧ ((hinting 1 1000).phase = .run ∧ (hinting 1 1000).is (BRK_HINT_HOT_EN 0) = true ∧ (hinting 1 1000).hotQ ≠ []
        ∧ (hinting 1 1000).hintAt + (hinting 1 1000).rd (BRK_HINT_INTERVAL_INTERVAL 0) ≤ (hinting 1 1000).raw
        ∧ ¬ (hinting 1 999).hintAt + (hinting 1 999).rd (BRK_HINT_INTERVAL_INTERVAL 0) ≤ (hinting 1 999).raw
        ∧ (hinting 0 1000).is (BRK_HINT_HOT_EN 0) = false) := by
  unfold takesWrite
  decide +kernel

/-! ### Management -/

theorem witness_MailboxAndDoeAnswer :
    hosted.phase = .run ∧ hosted.reaches .driver = true ∧ 0 ≤ hosted.cxlLog.length ∧ hosted.cxlLog.length < 1
      ∧ (0x4001#16).toNat ∉ mailboxOpcodes ∧ b2n true ∉ hosted.doeBusy
      ∧ b2n true ∈ ({ hosted with doeBusy := [1] } : State).doeBusy ∧ doeTooLarge (.spdm 4097) = true ∧ doeTooLarge .tooLarge = true := by
  decide +kernel

/-- A BMT request of one word of BAR0 has come over VC6. -/
def asked (op count addr : Nat) (data : List Byte) : State :=
  { fields served [(MGT_OOB_CTRL_VC6_WR, 1)] with
    inbox := [aFrame 1 0 6, mkFrame ([frWord0 0 0 6 0 1, 0, 9] ++ List.replicate 13 0)
      (padPayload ([1, BitVec.ofNat 8 op] ++ bytesBE 2 count ++ [0, 0, 0, 7, 0, 0, 0, 0] ++ bytesBE 4 addr ++ data)) 0] }

/-- The request that heads the inbox. -/
def askedReq (s : State) : BmtReq := bmtOf ((s.inbox.dropWhile fun g => frKind g != 0).headD [])

theorem witness_BmtAndEthernetServe :
    (served.phase = .run ∧ served.firmware = true ∧ served.ethSecond.2 < 50000 ∧ served.bmtSecond.2 < 10000
        ∧ served.is TGT_PTP_CTRL_ETH_EN = false ∧ (fields served [(TGT_PTP_CTRL_ETH_EN, 1)]).is TGT_PTP_CTRL_ETH_EN = true)
      ∧ (let s := asked 1 1 8 []
         (s.inbox.dropWhile fun g => frKind g != 0) ≠ [] ∧ askedReq s = ⟨9, 1, 1, 1, 7, 0, 8, []⟩ ∧ (askedReq s).good = true
          ∧ (⟨0, 1, 1, 0, 7, 0, 8, []⟩ : BmtReq).good = false)
      ∧ (let s := asked 2 1 SEC_FUSE_CMD_at [0, 0, 0, 0]
         askedReq s = ⟨9, 1, 2, 1, 7, 0, SEC_FUSE_CMD_at, [0]⟩ ∧ (askedReq s).barred = true ∧ s.bmtMayWrite .vc6 = true
          ∧ served.bmtMayWrite .vc6 = false)
      ∧ (let s := asked 2 1 0x100 [1, 2, 3, 4]
         askedReq s = ⟨9, 1, 2, 1, 7, 0, 0x100, [0x01020304]⟩ ∧ (askedReq s).barred = false ∧ (askedReq s).good = true
          ∧ (askedReq s).data.length = (askedReq s).count ∧ (askedReq (asked 2 2 0x100 [])).data.length ≠ (askedReq (asked 2 17 0x100 [])).count
          ∧ (⟨0, 1, 2, 0, 7, 0, 0x100, []⟩ : BmtReq).good = false ∧ (⟨0, 1, 2, 0, 7, 0, 0x100, []⟩ : BmtReq).barred = false)
      ∧ (let s := asked 6 0 0 []
         s.subscribeOf .vc6 7 = { askedReq s with dst := 0 } ∧ (askedReq s).count = 0 ∧ (askedReq s).seq = (7#32).toNat
          ∧ (askedReq s).ver = 1)
      ∧ (({ served with ip := some 5 } : State).ip = some 5 ∧ served.ip ≠ some 5
        ∧ (let s : State := { served with ethSecond := (0, 50000) }
           s.ethSecond.1 = s.raw / 640000000 ∧ 50000 ≤ s.ethSecond.2)) := by
  decide +kernel

/-- An SPDM connection of endpoint 9 in a phase, with the signatures of the last second. -/
def attested (phase sigs : Nat) : State :=
  { sideband with spdmMctp := ⟨phase, 9⟩, spdmSigs := List.replicate sigs 0 }

theorem witness_SpdmConnectionsRestart :
    (hosted.phase = .run ∧ spdmHere hosted.toBox .doe)
      ∧ (let s : State := { hosted with spdmDoe := ⟨1, 7⟩ }
         spdmHere s.toBox .doe ∧ (s.spdm .doe).phase ≠ 0 ∧ (s.spdm .doe).eid ≠ viaEid .doe)
      ∧ (let s : State := { sideband with spdmMctp := ⟨3, 8⟩ }
         s.phase = .run ∧ spdmHere s.toBox (.mctp 9) ∧ (s.spdm (.mctp 9)).phase ≠ 0
          ∧ (s.spdm (.mctp 9)).eid ≠ viaEid (.mctp 9)) := by
  simp only [spdmHere]
  decide +kernel

theorem witness_SidebandAndAttestationAnswer :
    (State.reset.raw % 640000 = 0 ∧ ({ State.reset with raw := 1 } : State).raw % 640000 ≠ 0)
      ∧ (served.phase = .run ∧ served.i3cAddr = none ∧ served.i3cReady = false ∧ sideband.i3cAddr.isSome = true)
      ∧ (sideband.phase = .run ∧ sideband.i3cReady = true ∧ (1#8).toNat ≠ 0 ∧ (1#8).toNat ≠ 255 ∧ (2#7).toNat ∉ [0, 1, 5]
        ∧ (9#8) ≠ 0 ∧ (9#8).toNat ≠ sideband.eid ∧ (9#8).toNat = ({ sideband with eid := 9 } : State).eid
        ∧ (255#8).toNat = 255)
      ∧ (spdmHere hosted.toBox .doe ∧ (hosted.spdm .doe).eid = viaEid .doe ∧ (hosted.spdm .doe).phase ≠ 1
        ∧ ∀ k ∈ [1, 2, 3], let s : State := { hosted with spdmDoe := ⟨k, viaEid .doe⟩ }
            spdmHere s.toBox .doe ∧ (s.spdm .doe).phase = k)
      ∧ (∀ k ∈ [1, 2, 3], let s := attested k 99
          s.phase = .run ∧ spdmHere s.toBox (.mctp 9) ∧ (s.spdm (.mctp 8)).eid ≠ viaEid (.mctp 8)
            ∧ (s.spdm (.mctp 9)).eid = viaEid (.mctp 9) ∧ (s.spdm (.mctp 9)).phase = k ∧ s.recentSigs.length < 100)
      ∧ 100 ≤ (attested 3 100).recentSigs.length
      ∧ (((attested 3 0).measurementsAt (0#8).toNat).isSome = true ∧ (attested 3 0).measurementsAt (8#8).toNat = none) := by
  simp only [spdmHere]
  decide +kernel

/-! ### The spec's own numbers -/

/-- The ASCII string "123456789". -/
def nineDigits : List Byte := [0x31, 0x32, 0x33, 0x34, 0x35, 0x36, 0x37, 0x38, 0x39]

/-- 02_itzal_link.md R36, R53, R55. -/
theorem test_crc_check_values : crc32 nineDigits = 0xCBF43926#32 ∧ crc32c nineDigits = 0xE3069283#32
    ∧ crc64 nineDigits = 0x6C40DF5F0B497347#64 := by decide +kernel

/-- 02_itzal_link.md, worked example: W0 of the request. -/
theorem test_header_word : frWord0 3 0 0 3 8 = 0x70006200 := by decide +kernel

/-- 03_forwarding.md R76: the bucket of that request is 1. -/
theorem test_hash_bucket :
    ready.hashBucket (mkFrame ([0x70006200, 0x00C08301, 0x00594B61, 0, 0x00012A17] ++ List.replicate 11 0) [] 0) = 1 := by
  decide +kernel

/-- 13_counters.md R398: 3,000 cells have the code 0x87. -/
theorem test_backlog_code : backlogCode 3000 = 0x87 := by decide +kernel

/-- 06_collectives.md, worked example: the partial of contributor 0 has limb 2 alone, and the sum of both arrangements rounds
to 0x4B80_8000. -/
theorem test_exact_sum : wideOut 1 { a := 0x20000FF00000 * 2 ^ 128, allnz := false }
      = bytesBE 8 0x0100000000000000 ++ bytesBE 8 0x20000FF00000
    ∧ fp32.code (.fin false 0x201FFFF (-1)) = 0x4B808000 := by decide +kernel

/-- 08_tumblers.md R241: SRA of the most negative number by 33 & 31 keeps its sign; a sum wraps. -/
theorem test_salu_corners : salu 7 0x80000000 33 = 0xC0000000 ∧ salu 0 0xFFFFFFFF 1 = 0 ∧ salu 16 0 0 = 32 := by decide +kernel

/-- 08_tumblers.md R236, R246: LDH reads big-endian and sign-extends. -/
theorem test_ldh : (match exec (.ldh 0 31 1 0) (running { opening with work := [(0x2000, 0x80), (0x2001, 0x01)] } (encM 0x11 31 1 0 0) 0) with
    | .next t => (t.sliver 0).inv.map fun v => v.sr 31
    | _ => none) = some 0xFFFF8001 := by decide +kernel

/-- 09_network_time.md R259: a rate is at most 2^34 in magnitude. -/
theorem test_rate_clamp : clampRate (-(2 ^ 39)) = -(2 ^ 34) ∧ clampRate 5 = 5 := by decide +kernel

end Sys2Proof.Tests
end

section
/-!
# What a discard in the header stage leaves as it was

A landed frame that ends in the header stage frees its cells and writes its trace record. Neither reaches the port records, the
queued and staged frames or Ringmaster's inbox, nor the register words and counters of a page of another block.
-/

namespace Sys2Proof.Proofs

open Sys2Proof Sys2Proof.Machine Sys2Proof.Safety Sys2Proof.Laws

/-- The frames that the links, the switch and Ringmaster hold are as before. -/
structure KeepsFrames (s t : Box) : Prop where
  ports   : t.ports = s.ports
  descs   : t.descs = s.descs
  staging : t.staging = s.staging
  inbox   : t.inbox = s.inbox

/-- The frames are as before, and so are the register words and the counters of page `q`. -/
structure KeepsPage (q : Page) (s t : Box) : Prop extends KeepsFrames s t where
  word : ∀ a, addrPage a = q → t.word a = s.word a
  ctr  : ∀ i, i < 4096 → t.ctr q i = s.ctr q i

section rules

variable {q : Page} {s t u : Box}

theorem KeepsFrames.trans (h : KeepsFrames s t) (k : KeepsFrames t u) : KeepsFrames s u :=
  ⟨k.ports.trans h.ports, k.descs.trans h.descs, k.staging.trans h.staging, k.inbox.trans h.inbox⟩

theorem KeepsFrames.port (h : KeepsFrames s t) (p : Nat) : t.port p = s.port p := by rw [Box.port, Box.port, h.ports]

theorem KeepsFrames.held (h : KeepsFrames s t) (n : Nat) : t.held n = s.held n := by
  rw [Box.held, Box.held, Box.allStaged, Box.allStaged, h.descs, h.staging]

theorem KeepsFrames.landingUse (h : KeepsFrames s t) (p v : Nat) : t.landingUse p v = s.landingUse p v := by
  rw [Box.landingUse, Box.landingUse, h.port, h.held]

theorem keepsFrames_of_onlyRegsCtrs (h : onlyRegsCtrs s t) : KeepsFrames s t := by
  obtain ⟨_, _, _, rfl⟩ := h
  exact ⟨rfl, rfl, rfl, rfl⟩

theorem KeepsPage.refl (q : Page) (s : Box) : KeepsPage q s s := ⟨⟨rfl, rfl, rfl, rfl⟩, fun _ _ => rfl, fun _ _ => rfl⟩

theorem KeepsPage.trans (h : KeepsPage q s t) (k : KeepsPage q t u) : KeepsPage q s u :=
  ⟨h.toKeepsFrames.trans k.toKeepsFrames, fun a ha => (k.word a ha).trans (h.word a ha),
    fun i hi => (k.ctr i hi).trans (h.ctr i hi)⟩

end rules

/-! ### Pages and their words -/

theorem addrPage_of_lt {a : Nat} (h : a < 0x1000000) : @Eq Nat (addrPage a) (2048 + a / 0x10000) := if_pos h

theorem addrPage_of_le {a : Nat} (h : 0x1000000 ≤ a) :
    @Eq Nat (addrPage a) ((a / 0x1000000 - 1) * 256 + a / 0x10000 % 256) := if_neg (Nat.not_lt.2 h)

theorem addrPage_pageBase_add {r off : Nat} (hr : r < 2304) (ho : off < 0x10000) :
    @Eq Nat (addrPage (pageBase r + off)) r := by
  by_cases h : @Eq Nat (r / 256) 8
  · rw [pageBase, if_pos h, addrPage_of_lt (by omega)]
    omega
  · rw [pageBase, if_neg h, addrPage_of_le (by omega)]
    omega

theorem pageVector_lt {r : Nat} (hr : r < 2304) : pageVector r < 256 := by
  simp only [pageVector]
  split
  · split <;> omega
  · omega

/-- A word that holds pending bits of vectors lies on a page of Big Top. -/
theorem addrPage_msixPba {v : Nat} (hv : v < 256) : @LE.le Nat _ 2048 (addrPage (0xF28000 + 4 * (v / 32))) := by
  rw [addrPage_of_lt (by omega)]
  omega

/-- The words of a page's causes lie on that page and on a page of Big Top: on no other page of a tent. -/
theorem not_mem_causeWords {q r : Nat} (hq : q < 2048) (hr : r < 2304) (h : r ≠ q) {a : Nat} (ha : addrPage a = q) :
    a ∉ causeWords r := by
  have hpend : addrPage (pageBase r + 16) = r := addrPage_pageBase_add hr (by omega)
  have hpba := addrPage_msixPba (pageVector_lt hr)
  simp only [causeWords, List.mem_cons, List.not_mem_nil, or_false, not_or]
  constructor
  · rintro rfl
    exact h (hpend.symm.trans ha)
  · rintro rfl
    rw [ha] at hpba
    exact absurd hpba (Nat.not_le.2 hq)

theorem tentPage_ne {c d : Nat} (t : Nat) (h : c ≠ d) : tentPage t c ≠ tentPage t d := fun e => h (Nat.add_left_cancel e)

/-- Where the words of a tent's page of block code `c` lie. -/
theorem addrPage_tentWord {a t c off : Nat} (hc : c < 256) (ho : off < 0x10000)
    (ha : a = 0x1000000 * (t + 1) + 0x10000 * c + off) : addrPage a = tentPage t c := by
  have h : @Eq Nat (addrPage a) (256 * t + c) := by
    rw [addrPage_of_le (by omega)]
    omega
  exact h

theorem tentPage_lt {t c : Nat} (ht : t < 8) (hc : c < 256) : tentPage t c < 2048 := by
  change 256 * t + c < 2048
  omega

/-! ### Registers and counters of another page -/

theorem wr_keepsPage {q : Page} (s : Box) {f : Fld} (v : Nat) (h : addrPage f.addr ≠ q) : KeepsPage q s (s.wr f v) where
  toKeepsFrames := keepsFrames_of_onlyRegsCtrs (wr_onlyRegs s f v).toCtrs
  word _ ha := word_setWord_other s _ fun e => h (e ▸ ha)
  ctr _ _ := rfl

theorem raiseInt_keepsPage {q r : Nat} (hq : q < 2048) (hr : r < 2304) (h : r ≠ q) (s : Box) (bit : Nat) :
    KeepsPage q s (s.raiseInt r bit) where
  toKeepsFrames := keepsFrames_of_onlyRegsCtrs (raiseInt_onlyRegs s r bit).toCtrs
  word a ha := raiseInt_sameWords s r bit a (not_mem_causeWords hq hr h ha)
  ctr i _ := by
    obtain ⟨_, _, e⟩ := raiseInt_onlyRegs s r bit
    rw [e]
    rfl

theorem count_keepsPage {q r : Nat} (hq : q < 2048) (hr : r < 2304) (h : r ≠ q) (s : Box) {i : Nat} (hi : i < 4096) :
    KeepsPage q s (s.count r i) where
  toKeepsFrames := keepsFrames_of_onlyRegsCtrs (bump_onlyRegsCtrs s r i 1)
  word a ha := by
    have hovf : addrPage (ovfFld r i).addr = r := addrPage_pageBase_add hr (by omega)
    refine bump_sameWords s r i 1 a (List.not_mem_cons_of_ne_of_not_mem ?_ (not_mem_causeWords hq hr h ha))
    rintro rfl
    exact h (hovf.symm.trans ha)
  ctr j hj := ctr_bump_other s r q i j 1 (by
    change (q * 4096 + j : Nat) ≠ r * 4096 + i
    omega)

/-! ### Rings -/

theorem setTent_keepsPage (q : Page) (s : Box) (t : Nat) (x : Tent) : KeepsPage q s (s.setTent t x) :=
  ⟨⟨rfl, rfl, rfl, rfl⟩, fun _ _ => rfl, fun _ _ => rfl⟩

/-- Of the register words, a record that enters a ring moves the ring's HEAD and TAIL alone (13_counters.md R394). -/
theorem ringWrite_keepsPage {q : Page} {s s' : Box} {n base cap size : Nat} {head tail : Fld} {r : List Byte}
    (hh : addrPage head.addr ≠ q) (ht : addrPage tail.addr ≠ q) (h : s.ringWrite n base cap size head tail r = some s') :
    KeepsPage q s s' := by
  have written (x : Tent) (k : Nat) : KeepsPage q s ((s.setTent n x).memWrite n 4 k r) :=
    ⟨⟨rfl, rfl, rfl, rfl⟩, fun _ _ => rfl, fun _ _ => rfl⟩
  simp only [Box.ringWrite, Option.ite_none_left_eq_some] at h
  obtain ⟨-, h⟩ := h
  split at h
  · obtain ⟨-, h⟩ := Option.ite_none_right_eq_some.1 h
    cases h
    exact ((written _ _).trans (wr_keepsPage _ _ hh)).trans (wr_keepsPage _ _ ht)
  · cases h
    exact (written _ _).trans (wr_keepsPage _ _ hh)

theorem traceRing_keepsPage {n : Nat} {s s' : Box} {r : List Byte} (h : s.traceRing n r = some s') :
    KeepsPage (lnkPage n) s s' := by
  have hh : addrPage (BRK_TRING_HEAD_INDEX n).addr = brkPage n :=
    addrPage_tentWord (off := 0x128) (by decide) (by decide) (Nat.add_assoc _ 0xE0000 0x128).symm
  have ht : addrPage (BRK_TRING_TAIL_INDEX n).addr = brkPage n :=
    addrPage_tentWord (off := 0x12C) (by decide) (by decide) (Nat.add_assoc _ 0xE0000 0x12C).symm
  have hne : brkPage n ≠ lnkPage n := tentPage_ne n (by decide)
  exact ringWrite_keepsPage (hh ▸ hne) (ht ▸ hne) h

/-! ### Freeing cells -/

theorem rowRepair_keepsPage (q : Page) (s : Box) (t r : Nat) : KeepsPage q s (s.rowRepair t r) := by
  simp only [Box.rowRepair]
  split
  · exact ⟨⟨rfl, rfl, rfl, rfl⟩, fun _ _ => rfl, fun _ _ => rfl⟩
  · exact KeepsPage.refl q s

section discard

variable {n : Nat} (hn : n < 8)
include hn

theorem ushPage_count_keepsPage (s : Box) : KeepsPage (lnkPage n) s (s.count (ushPage n) 2048) :=
  count_keepsPage (tentPage_lt hn (by omega)) ((tentPage_lt hn (by omega)).trans (by decide)) (tentPage_ne n (by omega)) s
    (by omega)

theorem freeCell_keepsPage (s : Box) (c : Nat) : KeepsPage (lnkPage n) s (s.freeCell n c) := by
  simp only [Box.freeCell, Box.freeCellFrom]
  split
  · exact (setTent_keepsPage _ _ _ _).trans (rowRepair_keepsPage _ _ _ _)
  · exact ushPage_count_keepsPage hn s

theorem freeCells_keepsPage (s : Box) (cs : List Nat) : KeepsPage (lnkPage n) s (s.freeCells n cs) := by
  unfold Box.freeCells
  induction cs generalizing s with
  | nil => exact KeepsPage.refl _ s
  | cons c cs ih => exact (freeCell_keepsPage hn s c).trans (ih _)

/-! ### Traces -/

theorem brkPage_count_keepsPage (s : Box) {i : Nat} (hi : i < 4096) : KeepsPage (lnkPage n) s (s.count (brkPage n) i) :=
  count_keepsPage (tentPage_lt hn (by omega)) ((tentPage_lt hn (by omega)).trans (by decide)) (tentPage_ne n (by omega)) s hi

theorem brkPage_raiseInt_keepsPage (s : Box) (bit : Nat) : KeepsPage (lnkPage n) s (s.raiseInt (brkPage n) bit) :=
  raiseInt_keepsPage (tentPage_lt hn (by omega)) ((tentPage_lt hn (by omega)).trans (by decide)) (tentPage_ne n (by omega)) s
    bit

/-- The trace of a frame that no sampler tagged ends in the ring or raises the cause of a lost record. -/
theorem traceExit_keepsPage (s : Box) {tr : Option Trace} (htr : ∀ x, tr = some x → x.by_ = none) (out : Option Nat)
    (exit : Nat) (f : Frame) : KeepsPage (lnkPage n) s (s.traceExit n tr out exit f) := by
  -- The ring stays opaque, or the kernel would run `ringWrite` to reduce the match on its answer.
  have hring : ∀ r u, s.traceRing n r = some u → KeepsPage (lnkPage n) s u := fun _ _ h => traceRing_keepsPage h
  delta Box.traceExit
  obtain ⟨ring, e⟩ : ∃ g, g = s.traceRing n := ⟨_, rfl⟩
  rw [← e] at hring ⊢
  split
  · exact KeepsPage.refl _ s
  · next x =>
    split
    · next u hu => exact hring _ u hu
    · simp only [htr x rfl]
      exact brkPage_raiseInt_keepsPage hn s 1

end discard

theorem followTrace_keepsPage (s : Box) {p : Nat} (hp : p / 256 < 8) (l : Landed) :
    KeepsPage (lnkPage (p / 256)) s (s.followTrace p l).2 := by
  simp only [Box.followTrace]
  split
  · split <;> exact brkPage_count_keepsPage hp s (by omega)
  · exact KeepsPage.refl _ s

/-- A frame that arrived tagged names no sampler in its trace. -/
theorem followTrace_by (s : Box) (p : Nat) (l : Landed) :
    ∀ x, (s.followTrace p l).1 = some x → x.by_ = none := by
  intro x h
  simp only [Box.followTrace] at h
  split at h
  · split at h
    · cases h
      rfl
    · cases h
  · cases h

theorem traceStage_by {tr : Option Trace} (h : ∀ x, tr = some x → x.by_ = none) (i v : Nat) :
    ∀ x, traceStage tr i v = some x → x.by_ = none := by
  intro x hx
  obtain ⟨y, hy, rfl⟩ := Option.map_eq_some_iff.1 hx
  exact h y hy

end Sys2Proof.Proofs
end

section
/-!
# A frame on a closed VC in the header stage (02_itzal_link.md R45)

The header stage asks first whether the VC is closed, and a frame on a closed VC goes through four steps: it leaves the port's
queue, a trace may follow it, its cells are freed, and it is counted and its trace ends.
-/

namespace Sys2Proof.Proofs

open Sys2Proof Sys2Proof.Machine Sys2Proof.Safety Sys2Proof.Laws

/-- The block once the oldest landed frame of a port is taken and `ls` wait behind it. -/
def takeLanded (s : Box) (p : Nat) (ls : List Landed) : Box := s.setPort p { s.port p with landed := ls }

section closed

variable {s t : Box} {p : Nat}

/-! ### What a port's words decide -/

theorem addrPage_lnkPortWord (p : Nat) {off : Nat} (ho : off < 0x40) :
    addrPage (0x1000000 * (p / 256 + 1) + (0x18000 + off) + 64 * (p % 256)) = lnkPage (p / 256) :=
  addrPage_tentWord (off := 0x8000 + off + 64 * (p % 256)) (by decide) (by omega) (by omega)

theorem creditInit_of_keepsPage (h : KeepsPage (lnkPage (p / 256)) s t) (v : Nat) : t.creditInit p v = s.creditInit p v := by
  unfold Box.creditInit
  refine congrArg (wordField · _ 16) (h.word _ ?_)
  split
  · exact addrPage_lnkPortWord p (off := 0x28) (by decide)
  · exact addrPage_lnkPortWord p (off := 0x2C) (by decide)
  · exact addrPage_lnkPortWord p (off := 0x30) (by decide)
  · exact addrPage_lnkPortWord p (off := 0x34) (by decide)

theorem vcClosed_of_keepsPage (h : KeepsPage (lnkPage (p / 256)) s t) (v : Nat) : t.vcClosed p v = s.vcClosed p v := by
  rw [Box.vcClosed, Box.vcClosed, creditInit_of_keepsPage h]

theorem isPort_of_keepsPage (h : KeepsPage (lnkPage (p / 256)) s t) : t.isPort p = s.isPort p := by
  have hpage : addrPage (LNK_FP_MODE_at (p / 4)) = lnkPage (p / 256) :=
    addrPage_tentWord (off := 0x200 + 4 * (p / 4 % 64)) (by decide) (by omega) (by unfold LNK_FP_MODE_at; omega)
  have hmode : t.slotMode p = s.slotMode p := congrArg (wordField · 0 3) (h.word _ hpage)
  rw [Box.isPort, Box.isPort, hmode]

/-! ### The stage of a frame on a closed VC -/

theorem judge_of_vcClosed {l : Landed} (h : s.vcClosed p (frVc l.frame) = true) (entry : Ecc) :
    s.judge p l entry = (.closed, s) := by
  simp [Box.judge, Box.headerCheck, h]

theorem ingressSample_closed (s : Box) (p : Nat) (l : Landed) : s.ingressSample p l .closed = (s, none) := rfl

theorem tagTrace_untagged (s : Box) (p : Nat) (l : Landed) (tr : Option Trace) : s.tagTrace p l none tr = (tr, s) := by
  cases tr <;> rfl

theorem settle_closed (s : Box) (p : Nat) (l : Landed) (tr : Option Trace) :
    s.settle p l .closed tr = ((s.freeCells (p / 256) l.cells).lnkCount 3 p).traceExit (p / 256) tr none 1 l.frame := rfl

theorem headerStage_of_vcClosed {l : Landed} {ls : List Landed} (hl : (s.port p).landed = l :: ls) (hp : p / 256 < 8)
    (h : s.vcClosed p (frVc l.frame) = true) (entry : Ecc) {tr : Option Trace} {u : Box}
    (hu : (takeLanded s p ls).followTrace p l = (tr, u)) :
    s.headerStage p entry = u.settle p l .closed (traceStage tr 1 (u.tick32 (p / 256))) := by
  have hfollow := followTrace_keepsPage (takeLanded s p ls) hp l
  rw [hu] at hfollow
  have hclosed : u.vcClosed p (frVc l.frame) = true := (vcClosed_of_keepsPage hfollow _).trans h
  simp only [Box.headerStage, hl]
  rw [← takeLanded, hu, judge_of_vcClosed hclosed]
  simp only [ingressSample_closed, tagTrace_untagged]

/-! ### What the steps leave -/

theorem lnkCount_keepsFrames (s : Box) (k p : Nat) : KeepsFrames s (s.lnkCount k p) :=
  keepsFrames_of_onlyRegsCtrs (countPort_onlyRegsCtrs _ _ _ _ _)

theorem ctr_lnkCount (hp : s.isPort p = true) (k : Nat) :
    (s.lnkCount k p).ctr (lnkPage (p / 256)) (256 * k + p % 256) = s.ctr (lnkPage (p / 256)) (256 * k + p % 256) + 1 := by
  rw [Box.lnkCount, Box.countPort, if_pos hp, ctr_bump, BitVec.ofNat_add, BitVec.ofNat_toNat, BitVec.setWidth_eq]
  rfl

/-- The reserve of a landed frame's VC falls by the frame's cells when the frame is taken. -/
theorem landingUse_takeLanded {l : Landed} {ls : List Landed} (hl : (s.port p).landed = l :: ls) :
    (takeLanded s p ls).landingUse p (frVc l.frame) + frCells l.frame = s.landingUse p (frVc l.frame) := by
  have hheld : (takeLanded s p ls).held (p / 256) = s.held (p / 256) := rfl
  simp only [Box.landingUse, hheld, hl]
  simp only [takeLanded, port_setPort, List.filter_cons, beq_self_eq_true, if_true, List.map_cons, List.sum_cons]
  omega

/-- A frame on a closed VC is taken and counted under KIND, and that is all that the links and the switch see of it (R45). -/
theorem headerStage_closed_discards {l : Landed} {ls : List Landed} (hl : (s.port p).landed = l :: ls)
    (hp : p / 256 < 8) (hport : s.isPort p = true) (h : s.vcClosed p (frVc l.frame) = true) (entry : Ecc) :
    KeepsFrames (takeLanded s p ls) (s.headerStage p entry)
      ∧ (s.headerStage p entry).ctr (lnkPage (p / 256)) (768 + p % 256)
        = s.ctr (lnkPage (p / 256)) (768 + p % 256) + 1 := by
  obtain ⟨tr, u, hu⟩ : ∃ tr u, (takeLanded s p ls).followTrace p l = (tr, u) := ⟨_, _, rfl⟩
  have hfollow := followTrace_keepsPage (takeLanded s p ls) hp l
  have hby := followTrace_by (takeLanded s p ls) p l
  rw [hu] at hfollow hby
  have hfree := hfollow.trans (freeCells_keepsPage hp u l.cells)
  have hexit := traceExit_keepsPage hp ((u.freeCells (p / 256) l.cells).lnkCount 3 p)
    (traceStage_by hby 1 (u.tick32 (p / 256))) none 1 l.frame
  rw [headerStage_of_vcClosed hl hp h entry hu, settle_closed]
  refine ⟨(hfree.toKeepsFrames.trans (lnkCount_keepsFrames _ _ _)).trans hexit.toKeepsFrames, ?_⟩
  rw [hexit.ctr _ (by omega), ctr_lnkCount ((isPort_of_keepsPage hfree).trans hport) 3, hfree.ctr _ (by omega)]
  rfl

end closed

/-- Settles O27: the header stage asks for a closed VC before anything else, and what it then does to the frame reaches neither
the port's record nor what is queued. -/
theorem closedChannelsTakeNoFrames : Obligations.ClosedChannelsTakeNoFrames := by
  unfold Obligations.ClosedChannelsTakeNoFrames
  intro s p l ls entry hrun hport hl hvc _ _ _ _ _
  have hclosed : s.vcClosed p.toNat (frVc l.frame) = true := by simpa [Box.vcClosed] using hvc
  have hp : p.toNat / 256 < 8 := by have := p.isLt; omega
  obtain ⟨hkeeps, hctr⟩ := headerStage_closed_discards hl hp hport hclosed entry
  have hport' : (s.headerStage p.toNat entry).port p.toNat = { s.port p.toNat with landed := ls } :=
    (hkeeps.port p.toNat).trans (port_setPort _ _ _)
  have hlanded := congrArg Port.landed hport'
  have hfreed := congrArg Port.freed hport'
  have huse := landingUse_takeLanded hl
  rw [← hkeeps.landingUse] at huse
  exact ⟨_, actRun_run s _ hrun, hlanded, hctr, huse, hfreed, hkeeps.descs, hkeeps.staging, hkeeps.inbox⟩

end Sys2Proof.Proofs
end

section
/-!
# SPDM connections and the endpoints that hold them (15_boot_security.md R444)

An SPDM request that reaches firmware acts on the state in which its transport has taken it. GET_VERSION sets the transport's
connection there; every other request first asks who holds the connection.
-/

namespace Sys2Proof.Proofs

open Sys2Proof Sys2Proof.Machine Sys2Proof.Safety Sys2Proof.Laws

/-! ### A transport's connection -/

@[simp] theorem spdm_setSpdm_same (b : Box) (via : SpdmVia) (c : Spdm) : (b.setSpdm via c).spdm via = c := by
  cases via <;> rfl

/-- DOE has one connection and MCTP, whichever endpoint asks, has the other. -/
theorem spdm_setSpdm_otherTransport (b : Box) {via other : SpdmVia} (c : Spdm)
    (h : (via = .doe ∧ other ≠ .doe) ∨ (via ≠ .doe ∧ other = .doe)) : (b.setSpdm via c).spdm other = b.spdm other := by
  obtain ⟨rfl, hother⟩ | ⟨hvia, rfl⟩ := h
  · cases other with
    | doe => exact absurd rfl hother
    | mctp e => rfl
  · cases via with
    | doe => exact absurd rfl hvia
    | mctp e => rfl

@[simp] theorem spdmTaken_spdm (s : State) (via v : SpdmVia) : (spdmTaken s via).spdm v = s.spdm v := by
  cases via <;> cases v <;> rfl

/-- Where a transport has taken a request and its connection is set, the connections and DOE's Busy alone are other than before. -/
theorem spdmTaken_setSpdm (s : State) (via : SpdmVia) (c : Spdm) :
    (spdmTaken s via).setSpdm via c = { s.toBox with
      spdmDoe := (s.setSpdm via c).spdmDoe, spdmMctp := (s.setSpdm via c).spdmMctp, doeBusy := (spdmTaken s via).doeBusy } := by
  cases via <;> rfl

theorem spdmTaken_eq (s : State) (via : SpdmVia) :
    (spdmTaken s via).toBox = { s.toBox with doeBusy := (spdmTaken s via).doeBusy } := by
  cases via <;> rfl

/-! ### A request that reaches firmware -/

theorem spdmTake_of_spdmHere {s : State} {via : SpdmVia} (h : spdmHere s.toBox via) (f : Box → Box) :
    s.toBox.spdmTake via f = f (spdmTaken s via).toBox := by
  cases via with
  | doe =>
    obtain ⟨hreaches, hfree, hfirmware⟩ := h
    have hfirmware' : ({ s.toBox with doeBusy := 0 :: s.doeBusy } : Box).firmware = true := hfirmware
    simp [Box.spdmTake, Box.doeTake, spdmTaken, hreaches, hfree, hfirmware']
  | mctp e =>
    have hready : s.toBox.i3cReady = true := h
    simp [Box.spdmTake, spdmTaken, hready]

theorem actSpdm_of_spdmHere {s : State} {via : SpdmVia} (hrun : s.phase = .run) (h : spdmHere s.toBox via) (f : Box → Box) :
    s.actSpdm via f = .next (s.onBox fun _ => f (spdmTaken s via).toBox) := by
  rw [State.actSpdm, act_run s _ hrun, State.onBox, spdmTake_of_spdmHere h]
  rfl

theorem spdmIn_of_otherRequester {b : Box} {via : SpdmVia} (h : (b.spdm via).eid ≠ viaEid via) (phase : Nat) (f : Box → Box) :
    b.spdmIn via phase f = b.answer (.spdmError "RequestResynch") := if_pos h

/-- Every request that the rows name but GET_VERSION meets the requester's check before it acts. -/
theorem spdmRequest_spdmIn (s : State) (via : SpdmVia) (offset len : Nat) (nonce : BitVec 256) (index : BitVec 8) :
    ∀ c ∈ [Instr.getCapabilities via, .negotiateAlgorithms via, .getDigests via, .getCertificate via offset len,
      .challenge via nonce, .getMeasurements via index nonce],
      ∃ phase f, exec c s = s.actSpdm via fun b => b.spdmIn via phase f := by
  simp only [List.forall_mem_cons, List.not_mem_nil, IsEmpty.forall_iff, implies_true, and_true]
  exact ⟨⟨1, _, rfl⟩, ⟨2, _, rfl⟩, ⟨3, _, rfl⟩, ⟨3, _, rfl⟩, ⟨3, _, rfl⟩, ⟨3, _, rfl⟩⟩

/-! ### What the two answers leave -/

/-- A request whose handling sets the two connections and gives one answer changes nothing else but DOE's Busy. -/
theorem actSpdm_answer {s : State} {via : SpdmVia} (hrun : s.phase = .run) (h : spdmHere s.toBox via) {f : Box → Box}
    {doe mctp : Spdm} {busy : List Nat} {r : Reply}
    (hf : f (spdmTaken s via).toBox
      = ({ s.toBox with spdmDoe := doe, spdmMctp := mctp, doeBusy := busy } : Box).answer r) :
    s.actSpdm via f
      = .next { s with spdmDoe := doe, spdmMctp := mctp, doeBusy := busy, outbox := .reply r :: s.outbox } := by
  rw [actSpdm_of_spdmHere hrun h, hf]
  rfl

/-- GET_VERSION sets the connection of its transport, whoever held it. -/
theorem exec_getVersion {s : State} {via : SpdmVia} (hrun : s.phase = .run) (h : spdmHere s.toBox via) :
    exec (.getVersion via) s = .next { s with
      spdmDoe := (s.setSpdm via ⟨1, viaEid via⟩).spdmDoe, spdmMctp := (s.setSpdm via ⟨1, viaEid via⟩).spdmMctp,
      doeBusy := (spdmTaken s via).doeBusy, outbox := .reply (.spdmVersions [0x11, 0x12]) :: s.outbox } :=
  actSpdm_answer hrun h (congrArg (Box.answer · _) (spdmTaken_setSpdm s via _))

/-- A request from an endpoint that does not hold the connection stops at the requester's check. -/
theorem actSpdm_spdmIn_of_otherRequester {s : State} {via : SpdmVia} (hrun : s.phase = .run) (h : spdmHere s.toBox via)
    (hother : (s.spdm via).eid ≠ viaEid via) (phase : Nat) (f : Box → Box) :
    (s.actSpdm via fun b => b.spdmIn via phase f) = .next { s with
      doeBusy := (spdmTaken s via).doeBusy, outbox := .reply (.spdmError "RequestResynch") :: s.outbox } := by
  rw [← spdmTaken_spdm s via] at hother
  exact actSpdm_answer hrun h
    ((spdmIn_of_otherRequester hother phase f).trans (congrArg (Box.answer · _) (spdmTaken_eq s via)))

theorem spdm_of_connections (s : State) (b : Box) (busy : List Nat) (out : List Out) (v : SpdmVia) :
    ({ s with spdmDoe := b.spdmDoe, spdmMctp := b.spdmMctp, doeBusy := busy, outbox := out } : State).spdm v = b.spdm v := by
  cases v <;> rfl

/-- Settles O59: GET_VERSION sets the connection of its transport, and every other request asks first whether its endpoint holds
the connection. -/
theorem spdmConnectionsRestart : Obligations.SpdmConnectionsRestart := by
  unfold Obligations.SpdmConnectionsRestart
  refine ⟨1, Nat.one_ne_zero, fun s via hrun hhere => ⟨⟨_, exec_getVersion hrun hhere, ?_, ?_, rfl⟩, ?_⟩⟩
  · exact (spdm_of_connections ..).trans (spdm_setSpdm_same ..)
  · intro other hother
    exact (spdm_of_connections ..).trans (spdm_setSpdm_otherTransport _ _ hother)
  · intro offset len nonce index _ hother c hc
    obtain ⟨phase, f, hexec⟩ := spdmRequest_spdmIn s via offset len nonce index c hc
    exact ⟨_, hexec.trans (actSpdm_spdmIn_of_otherRequester hrun hhere hother phase f), rfl, rfl⟩

end Sys2Proof.Proofs
end

section
/-!
# What a command may do to the part

All but thirteen commands act on the block: the clock, the fuses, the power pins and the queue are as before them, and a held
device takes no notice. The thirteen of power, resets and fuses act on the whole part but never on the queue.
-/

namespace Sys2Proof.Proofs

open Sys2Proof Sys2Proof.Machine Sys2Proof.Safety Sys2Proof.Laws

/-! ### The commands that act on the block -/

/-- The outcome is a next state that differs from `s` in the block alone, and in nothing while the device is held. -/
def Quiet (s : State) (r : Result) : Prop := ∃ t, r = .next t ∧ sameAnchors s t ∧ (s.phase = .held → t = s)

section quiet

variable (s : State) (f : Box → Box)

theorem Quiet.act : Quiet s (s.act f) := by
  by_cases h : s.phase.alive = true
  · exact ⟨s.onBox f, by simp [State.act, h], onBox_sameAnchors s f, fun hh => by simp [hh, Phase.alive] at h⟩
  · exact ⟨s, by simp [State.act, h], sameAnchors_refl s, fun _ => rfl⟩

theorem Quiet.actRun : Quiet s (s.actRun f) := by
  by_cases h : s.phase = .run
  · exact ⟨s.onBox f, by simp [State.actRun, h], onBox_sameAnchors s f, fun hh => by simp [hh] at h⟩
  · exact ⟨s, by simp [State.actRun, h], sameAnchors_refl s, fun _ => rfl⟩

theorem Quiet.flitSlot (p : Slot) (sub : BitVec 5) : Quiet s (execFlitSlot p sub s) := by
  unfold execFlitSlot
  cases h : s.phase with
  | held => exact ⟨s, rfl, sameAnchors_refl s, fun _ => rfl⟩
  | run => exact ⟨_, rfl, onBox_sameAnchors s _, fun hh => by rw [h] at hh; cases hh⟩
  | quiesced => exact ⟨_, rfl, onBox_sameAnchors s _, fun hh => by rw [h] at hh; cases hh⟩
  | failStopped => exact ⟨_, rfl, onBox_sameAnchors s _, fun hh => by rw [h] at hh; cases hh⟩
  | tripped => exact ⟨_, rfl, onBox_sameAnchors s _, fun hh => by rw [h] at hh; cases hh⟩

theorem Quiet.ite {c : Prop} [Decidable c] {x y : Result} (hx : Quiet s x) (hy : Quiet s y) : Quiet s (if c then x else y) := by
  split
  · exact hx
  · exact hy

end quiet

/-! ### The commands of power, resets and fuses -/

/-- `f` acts where the device has power and no reset source holds it. -/
def whileAlive (f : Box → Box) (b : Box) : Box := if b.phase.alive then f b else b

theorem actPart_eq (s : State) (f : Box → Box) : s.actPart f = .next (s.onPart (whileAlive f)) := by
  cases h : s.phase.alive <;> simp [State.actPart, State.onPart, whileAlive, h]

/-- The commands that act on the whole part, with what each does to it. -/
inductive PartRow : Instr → (Box → Box) → Prop
  | fuseRailChange (present : Bool) : PartRow (.fuseRailChange present) fun b => b.fuseRailChange present
  | fuseOperationDone : PartRow .fuseOperationDone (whileAlive Box.fuseDone)
  | resetTakeEffect (straps : BitVec 4) : PartRow (.resetTakeEffect straps) (whileAlive fun b => b.resetEffect straps.toNat)
  | rstColdPin (straps : BitVec 4) (board : List BoardAct) :
      PartRow (.rstColdPin straps board) fun b => b.resetPin 1 straps.toNat board
  | rstWarmPin (board : List BoardAct) : PartRow (.rstWarmPin board) fun b => b.resetPin 2 0 board
  | powerOnReset (straps : BitVec 4) :
      PartRow (.powerOnReset straps) fun b => { b with railsBad := [] }.powerRelease straps.toNat
  | pwrOkRise (straps : BitVec 4) : PartRow (.pwrOkRise straps) fun b => b.pwrOkRise straps.toNat
  | pwrOkFall : PartRow .pwrOkFall Box.pwrOkFall
  | railFault (rail : Fin 9) (mv : BitVec 16) : PartRow (.railFault rail mv) fun b => b.railRead rail.toNat mv.toNat
  | refclkLoss : PartRow .refclkLoss fun b => { b with refLost := true }.powerOn
  | refclkReturn (straps : BitVec 4) :
      PartRow (.refclkReturn straps) fun b => if b.refLost then { b with refLost := false }.powerRelease straps.toNat else b
  | envExcursionStart (mv : BitVec 16) (die : DieIx) (tj : BitVec 16) :
      PartRow (.envExcursionStart mv die tj) (whileAlive fun b => b.cornerRead mv.toNat die.toNat tj.toNat)
  | envExcursionEnd (mv : BitVec 16) (die : DieIx) (tj : BitVec 16) :
      PartRow (.envExcursionEnd mv die tj) (whileAlive fun b => b.cornerRead mv.toNat die.toNat tj.toNat)

/-- Every command acts on the block, or is one of power, resets and fuses, which acts on the part. -/
theorem exec_quiet_or_part (i : Instr) (s : State) :
    Quiet s (exec i s) ∨ ∃ f, PartRow i f ∧ exec i s = .next (s.onPart f) :=
  match i with
  | .registerWrite .. | .fpModeWrite .. | .portEnable .. | .portDisable .. | .trnBucketWrite .. | .ushAudit ..
  | .glCommit .. | .glCancel .. | .glStop .. | .fwdTblWrite .. | .fwdTblRead .. | .fwdSwitch .. | .fwdFlushOld ..
  | .fwdCopy .. | .fwdNoticeGo .. | .carTblWrite .. | .carTblRead .. | .streamReserve .. | .streamActivate ..
  | .streamDrain .. | .streamAbort .. | .streamRelease .. | .sntReplay .. | .sntRetract .. | .kloadStage ..
  | .kloadVerify .. | .kloadUnload .. | .kloadInfo .. | .tmbSubst .. | .timeApply | .nowRead .. | .rateHiWrite ..
  | .servoStart .. | .servoRearm .. | .servoSettime .. | .servoStop .. | .triggerArm .. | .triggerDisarm ..
  | .xtCal .. | .xtCommit .. | .engineStart .. | .trpXconnWrite .. | .memInit .. | .memPlanCommit ..
  | .hostMemRead .. | .hostMemWrite .. | .coreFail .. | .fatalCondition .. | .watchdogExpire | .dumpDone ..
  | .dumpFatalOrder .. | .dumpAck .. | .snapshotDone .. | .samplerCfgWrite .. | .occCfgWrite .. | .smpqTailWrite ..
  | .bar2Write .. | .functionLevelReset | .getEventRecords | .clearEventRecords .. | .getTimestamp | .setTimestamp ..
  | .getSupportedLogs | .getLog .. | .identifyMemoryDevice | .getHealthInfo | .mailboxUnsupported .. | .doeRequest ..
  | .doeAbort .. | .ethFrameReceive .. | .bmtRead .. | .bmtWrite .. | .bmtSubscribe .. | .i3cEntdaa ..
  | .i3cGetstatus | .mctpControl .. | .getTid | .getPldmVersion .. | .getPldmTypes | .getPldmCommands ..
  | .pldmSensorRead .. | .getVersion .. | .getCapabilities .. | .negotiateAlgorithms .. | .getDigests ..
  | .getCertificate .. | .challenge .. | .getMeasurements .. | .resetCold .. | .resetWarm .. | .resetManagement ..
  | .hostInterfaceReset | .bootRomRun .. | .fwupOpen .. | .fwupWrite .. | .fwupClose .. | .fwupActivate ..
  | .fwupRevert .. | .fwupAbort .. | .advanceSvn .. | .setOwner .. | .cxlRefclkLoss | .thermalTrip ..
  | .registerRead .. | .fwupCommandDone .. | .cxlLinkTrain .. | .cxlLinkLoss =>
    .inl (Quiet.act s _)
  | .ucieModuleFail .. | .replicaCheck .. | .replicaReload .. | .flitReceive .. | .laneMarkerReceive ..
  | .retryReq .. | .retryReqRepeat .. | .laneMapReq .. | .laneMapAck .. | .laneMapNak .. | .laneMapSwitch ..
  | .laneMapCancel .. | .laneAdopt .. | .laneFail .. | .laneFecLoss .. | .pause .. | .resume .. | .pauseTimeout ..
  | .linkSilenceTimeout .. | .portUp .. | .trainingRetry .. | .reserveReturn .. | .ingressHeaderStage ..
  | .fenceRelease .. | .backlogReport .. | .midwayGrant .. | .midwayTransfer .. | .spillBlockTimer ..
  | .spillRecall .. | .spillRecallDone .. | .ushAuditDone .. | .gateEntryStart .. | .glSwitch .. | .bypassStart ..
  | .bypassRestore .. | .bypassEnd .. | .bypassRealignTimeout .. | .fwdTblDone | .fwdBankSwitch .. | .fwdCopyDone
  | .fwdDrained | .streamReserveDone .. | .streamAbortDone .. | .streamFreed .. | .contributionSteer ..
  | .sliverTakePart .. | .resultRelease .. | .slotStall .. | .drainMarkSet .. | .retractRecomputeDone ..
  | .sealRecordWrite .. | .sealSignTimer | .twinComplete .. | .thirdComputeDone .. | .watchExpire ..
  | .kloadVerifyDone | .substTake .. | .salu .. | .addi .. | .andi .. | .ori .. | .xori .. | .lui .. | .shifti ..
  | .sfpu .. | .ffma .. | .ldw .. | .ldh .. | .ldhu .. | .ldb .. | .ldbu .. | .stw .. | .sth .. | .stb .. | .vld ..
  | .vst .. | .beq .. | .bne .. | .blt .. | .bge .. | .bltu .. | .bgeu .. | .kjump .. | .kloop .. | .kexit ..
  | .kfault .. | .valu .. | .vcmp .. | .vfma .. | .vfms .. | .vfnma .. | .vcvt .. | .vred .. | .vsel .. | .vxf ..
  | .vmov .. | .plogic .. | .rdsys .. | .sync .. | .followUp .. | .pdelayReq .. | .pdelayResp ..
  | .pdelayRespFollowUp .. | .delayReq .. | .syncSendTimer | .pdelayReqTimer | .ethPtpTimer | .syncTimeout
  | .triggerFire .. | .launchBufferSend .. | .pinCapture .. | .heaterCycle .. | .heaterStarved ..
  | .monitorIntegration .. | .spareReady .. | .laserSwap .. | .laserSwapRelease .. | .modulePoll ..
  | .laneHealthCheck .. | .ringVerifyDone .. | .ringReverify .. | .ringSearchStep .. | .xtCalTimer ..
  | .xtCalDeferredStart .. | .xtCalDone .. | .aprEnter .. | .aprPulseStart .. | .aprPulseEnd .. | .aprExit ..
  | .laserInputLost .. | .engineContinuityCheck .. | .engineReady .. | .memTrainDone .. | .memInitDone ..
  | .refreshSlot .. | .memDeviceFail .. | .memRebuildDone .. | .occMonitorTick .. | .backlogNotice | .requestUpdate
  | .transferComplete .. | .verifyComplete | .applyComplete | .activateFirmware .. | .cancelUpdate | .fwConfirm
  | .spillBlockWritten .. | .replayDone | .kloadStageDone | .fwdNoticeSend | .monitorStarved ..
  | .calibrationDeferred .. | .pinPulseEnd .. | .memDeviceHot .. | .illegalInstructionWord .. =>
    .inl (Quiet.actRun s _)
  | .counterLoRead .. | .counterHiRead .. | .cntSnap .. | .cntClear .. | .intForce .. | .intEnWrite .. =>
    .inl (Quiet.ite s (Quiet.act s _) (Quiet.act s _))
  | .ownerRelease _ (.pin _) | .ownerRelease _ (.unit _) => .inl (Quiet.act s _)
  | .flitSlot p sub => .inl (Quiet.flitSlot s p sub)
  | .envExcursionStart a b c => .inr ⟨_, .envExcursionStart a b c, actPart_eq s _⟩
  | .envExcursionEnd a b c => .inr ⟨_, .envExcursionEnd a b c, actPart_eq s _⟩
  | .powerOnReset a => .inr ⟨_, .powerOnReset a, rfl⟩
  | .resetTakeEffect a => .inr ⟨_, .resetTakeEffect a, actPart_eq s _⟩
  | .rstColdPin a b => .inr ⟨_, .rstColdPin a b, rfl⟩
  | .rstWarmPin a => .inr ⟨_, .rstWarmPin a, rfl⟩
  | .pwrOkRise a => .inr ⟨_, .pwrOkRise a, rfl⟩
  | .pwrOkFall => .inr ⟨_, .pwrOkFall, rfl⟩
  | .railFault a b => .inr ⟨_, .railFault a b, rfl⟩
  | .refclkLoss => .inr ⟨_, .refclkLoss, rfl⟩
  | .fuseRailChange a => .inr ⟨_, .fuseRailChange a, rfl⟩
  | .fuseOperationDone => .inr ⟨_, .fuseOperationDone, actPart_eq s _⟩
  | .refclkReturn a => .inr ⟨_, .refclkReturn a, rfl⟩

theorem exec_next (i : Instr) (s : State) : ∃ t, exec i s = .next t ∧ t.pending = s.pending := by
  obtain ⟨t, ht, hsame, -⟩ | ⟨f, -, h⟩ := exec_quiet_or_part i s
  · exact ⟨t, ht, hsame.1⟩
  · exact ⟨_, h, rfl⟩

/-- A step is a command's, on the queue's rest, or a tick; neither stops the block. -/
theorem step_next (s : State) : ∃ t, step s = .next t := by
  unfold step
  split
  · exact ⟨_, rfl⟩
  · obtain ⟨t, ht, -⟩ := exec_next _ _
    exact ⟨t, ht⟩

/-! ### A raw tick -/

/-- A tick advances the raw counter; the fuses, the pins and the queue stay, and a held device does nothing else. -/
theorem tick_sameAnchors (s : State) :
    sameAnchors { s with raw := s.raw + 1 } s.tick ∧ (s.phase = .held → s.tick = { s with raw := s.raw + 1 }) := by
  constructor
  · simp only [State.tick]
    split <;> split <;> exact ⟨rfl, rfl, rfl, rfl, rfl, rfl, rfl⟩
  · intro h
    simp [State.tick, State.onPart, h, Phase.alive]

/-- Settles O1: the step of the model, on a queue with a command and on an empty one. -/
theorem stepRunsTheFrontCommand : Obligations.StepRunsTheFrontCommand := by
  refine ⟨fun s c q => rfl, fun s h => ?_⟩
  obtain ⟨⟨hpending, hraw, hfuses, hpwrOk, hrails, href, hstraps⟩, -⟩ := tick_sameAnchors s
  exact ⟨s.tick, step_nil s h, hraw, hpending.trans h, hfuses, hpwrOk, hrails, href, hstraps⟩

/-! ### Only thirteen commands reach the clock, the fuses and the pins -/

/-- Within the core rail's range a reading of the corner leaves them. -/
theorem cornerRead_sameAnchors (s : State) {mv : Nat} (die tj : Nat) (h : ¬ (2 * mv < 1100 ∨ 1700 < 2 * mv)) :
    sameAnchors s (s.onPart (whileAlive fun b => b.cornerRead mv die tj)) := by
  simp only [State.onPart, whileAlive, Box.cornerRead, railRange, if_neg h]
  split
  · split <;> exact ⟨rfl, rfl, rfl, rfl, rfl, rfl, rfl⟩
  · exact sameAnchors_refl s

/-- Settles O3: a command acts on the block or is one of the thirteen that the statement lists. -/
theorem commandsTouchOnlyTheirPart : Obligations.CommandsTouchOnlyTheirPart := by
  intro i s t h
  obtain ⟨u, hu, ⟨hpending, hsame⟩, -⟩ | ⟨f, hrow, hf⟩ := exec_quiet_or_part i s
  · obtain rfl : u = t := Host.Outcome.next.inj (hu.symm.trans h)
    exact ⟨hpending, .inl hsame⟩
  · obtain rfl : s.onPart f = t := Host.Outcome.next.inj (hf.symm.trans h)
    refine ⟨rfl, ?_⟩
    cases hrow with
    | fuseRailChange b => simp
    | fuseOperationDone => simp
    | resetTakeEffect straps => simp
    | rstColdPin straps board => simp
    | rstWarmPin board => simp
    | powerOnReset straps => simp
    | pwrOkRise straps => simp
    | pwrOkFall => simp
    | railFault rail mv => simp
    | refclkLoss => simp
    | refclkReturn straps => simp
    | envExcursionStart mv die tj | envExcursionEnd mv die tj =>
      by_cases hmv : 2 * mv.toNat < 1100 ∨ 1700 < 2 * mv.toNat
      · exact .inr (.inr (.inr (.inr (.inr (.inl ⟨mv, die, tj, hmv, by simp⟩)))))
      · exact .inl (cornerRead_sameAnchors s _ _ hmv).2

/-! ### Fuses only blow -/

theorem fusesKept_refl (x : Fuses) : fusesKept x x := ⟨le_refl _, BitVec.and_self, id⟩

theorem fuseBreak_fusesKept (s : Box) : fusesKept s.fuses s.fuseBreak.fuses := by
  unfold Box.fuseBreak
  split
  · exact fusesKept_refl _
  · exact ⟨Nat.le_add_right _ _, BitVec.and_self, id⟩
  · exact ⟨le_refl _, by ext; simp +contextual, id⟩

@[simp] theorem powerOn_fuses (s : Box) : s.powerOn.fuses = s.fuseBreak.fuses := rfl
@[simp] theorem coldReset_fuses (s : Box) (src straps : Nat) : (s.coldReset src straps).fuses = s.fuseBreak.fuses := rfl
@[simp] theorem warmReset_fuses (s : Box) (src : Nat) : (s.warmReset src).fuses = s.fuseBreak.fuses := rfl
@[simp] theorem showFuses_fuses (s : Box) : s.showFuses.fuses = s.fuses := rfl
@[simp] theorem raiseInt_fuses (s : Box) (p : Page) (bit : Nat) : (s.raiseInt p bit).fuses = s.fuses := by
  obtain ⟨_, _, h⟩ := raiseInt_onlyRegs s p bit
  rw [h]

/-- An interrupted operation leaves the same fuses whatever else of the block has changed. -/
theorem powerOn_fusesKept {s t : Box} (h : t.fuses = s.fuses) : fusesKept s.fuses t.powerOn.fuses :=
  h ▸ fuseBreak_fusesKept t

theorem powerRelease_fusesKept {s t : Box} (h : t.fuses = s.fuses) (straps : Nat) :
    fusesKept s.fuses (t.powerRelease straps).fuses := by
  unfold Box.powerRelease
  split <;> exact powerOn_fusesKept h

theorem railRead_fusesKept (s : Box) (rail mv : Nat) : fusesKept s.fuses (s.railRead rail mv).fuses := by
  simp only [Box.railRead]
  split
  · split <;> exact fusesKept_refl _
  · exact powerOn_fusesKept (s := s) (t := { s with railsBad := rail :: s.railsBad.filter (· ≠ rail) }) rfl

theorem boardActs_fuses (board : List BoardAct) (s : Box) : (board.foldl Box.boardAct s).fuses = s.fuses := by
  induction board generalizing s with
  | nil => rfl
  | cons a board ih =>
    rw [List.foldl_cons, ih]
    cases a with
    | flash cs off bytes => simp only [Box.boardAct]; split <;> rfl
    | jtag i => rfl

theorem resetPin_fusesKept (s : Box) (kind straps : Nat) (board : List BoardAct) :
    fusesKept s.fuses (s.resetPin kind straps board).fuses := by
  rw [← boardActs_fuses board s]
  simp only [Box.resetPin]
  split
  · exact fusesKept_refl _
  · split
    · exact fuseBreak_fusesKept _
    · split
      · exact fusesKept_refl _
      · exact fuseBreak_fusesKept _

theorem fuseDone_fusesKept (s : Box) : fusesKept s.fuses s.fuseDone.fuses := by
  unfold Box.fuseDone
  split
  · exact fusesKept_refl _
  · simp only [raiseInt_fuses, showFuses_fuses, put_fuses]
    split
    · exact ⟨le_max_left _ _, BitVec.and_self, id⟩
    · exact ⟨le_refl _, by ext; simp +contextual, fun _ => rfl⟩

theorem fuseRailChange_fusesKept (s : Box) (present : Bool) : fusesKept s.fuses (s.fuseRailChange present).fuses := by
  have hfuses : ({ s with fuseRail := present }.put SEC_FUSE_STATUS_FUSE_RAIL present).fuses = s.fuses := rfl
  simp only [Box.fuseRailChange]
  generalize { s with fuseRail := present }.put SEC_FUSE_STATUS_FUSE_RAIL present = b at hfuses ⊢
  split
  · rw [showFuses_fuses, put_fuses, ← hfuses]
    exact fuseBreak_fusesKept b
  · exact hfuses ▸ fusesKept_refl _

theorem resetEffect_fusesKept (s : Box) (straps : Nat) : fusesKept s.fuses (s.resetEffect straps).fuses := by
  unfold Box.resetEffect
  split
  · split
    · split <;> exact fuseBreak_fusesKept _
    · exact fusesKept_refl _
  · exact fusesKept_refl _

theorem cornerRead_fusesKept (s : Box) (mv die tj : Nat) : fusesKept s.fuses (s.cornerRead mv die tj).fuses := by
  simp only [Box.cornerRead]
  split
  · exact railRead_fusesKept s 0 mv
  · split <;> exact fusesKept_refl _

theorem pwrOkFall_fusesKept (s : Box) : fusesKept s.fuses s.pwrOkFall.fuses := by
  rw [Box.pwrOkFall]
  split
  · exact fusesKept_refl _
  · have hfuses : (if s.phase.alive then s.trainAll.anchored s else s).fuses = s.fuses := by split <;> simp
    generalize (if s.phase.alive then s.trainAll.anchored s else s) = b at hfuses ⊢
    exact powerOn_fusesKept (t := { b with pwrOk := false }) hfuses

theorem whileAlive_rel {P : Box → Box → Prop} {f : Box → Box} {s : Box} (hs : P s s) (hf : s.phase.alive = true → P s (f s)) :
    P s (whileAlive f s) := by
  unfold whileAlive
  split
  · exact hf ‹_›
  · exact hs

theorem PartRow.fusesKept {i : Instr} {f : Box → Box} (h : PartRow i f) (s : Box) : fusesKept s.fuses (f s).fuses := by
  have alive {g : Box → Box} (hg : Safety.fusesKept s.fuses (g s).fuses) : Safety.fusesKept s.fuses (whileAlive g s).fuses :=
    whileAlive_rel (P := fun x y => Safety.fusesKept x.fuses y.fuses) (fusesKept_refl _) fun _ => hg
  cases h with
  | fuseRailChange b => exact fuseRailChange_fusesKept s b
  | fuseOperationDone => exact alive (fuseDone_fusesKept s)
  | resetTakeEffect straps => exact alive (resetEffect_fusesKept s _)
  | rstColdPin straps board => exact resetPin_fusesKept s _ _ board
  | rstWarmPin board => exact resetPin_fusesKept s _ _ board
  | powerOnReset straps => exact powerRelease_fusesKept (t := { s with railsBad := [] }) rfl _
  | pwrOkRise straps =>
    simp only [Box.pwrOkRise]
    split
    · exact fusesKept_refl _
    · exact powerRelease_fusesKept (t := { s with pwrOk := true }) rfl _
  | pwrOkFall => exact pwrOkFall_fusesKept s
  | railFault rail mv => exact railRead_fusesKept s _ _
  | refclkLoss => exact powerOn_fusesKept (t := { s with refLost := true }) rfl
  | refclkReturn straps =>
    dsimp only
    split
    · exact powerRelease_fusesKept (t := { s with refLost := false }) rfl _
    · exact fusesKept_refl _
  | envExcursionStart mv die tj => exact alive (cornerRead_fusesKept s _ _ _)
  | envExcursionEnd mv die tj => exact alive (cornerRead_fusesKept s _ _ _)

/-- Settles O4: only the commands of power, resets and fuses reach the fuses, and each of them keeps what is blown. -/
theorem fusesOnlyBlow : Obligations.FusesOnlyBlow := by
  intro s t h
  unfold step at h
  split at h
  · obtain rfl := Host.Outcome.next.inj h
    obtain ⟨⟨-, -, hfuses, -⟩, -⟩ := tick_sameAnchors s
    exact hfuses ▸ fusesKept_refl _
  · next c q _ =>
    obtain ⟨u, hu, ⟨-, -, hfuses, -⟩, -⟩ | ⟨f, hrow, hf⟩ := exec_quiet_or_part c { s with pending := q }
    · obtain rfl := Host.Outcome.next.inj (hu.symm.trans h)
      exact hfuses ▸ fusesKept_refl _
    · obtain rfl := Host.Outcome.next.inj (hf.symm.trans h)
      exact hrow.fusesKept s.toBox

/-! ### Out of reset only with power, rails and reference -/

/-- A block that is not held has what it needs to run. -/
def Released (b : Box) : Prop := b.phase ≠ .held → b.mayRun = true

/-- A block of the same phase and pins is as free to run. -/
theorem Released.of_pins {s t : Box} (h : Released s) (hphase : t.phase = s.phase) (hpwr : t.pwrOk = s.pwrOk)
    (hrails : t.railsBad = s.railsBad) (href : t.refLost = s.refLost) : Released t := by
  unfold Released Box.mayRun at *
  rwa [hphase, hpwr, hrails, href]

theorem Released.of_onlyRegs {s t : Box} (h : Released s) (k : onlyRegs s t) : Released t := by
  obtain ⟨_, _, rfl⟩ := k
  exact h.of_pins rfl rfl rfl rfl

theorem showFuses_onlyRegs (s : Box) : onlyRegs s s.showFuses :=
  onlyRegs_trans (onlyRegs_trans (onlyRegs_trans (onlyRegs_trans (wr_onlyRegs _ _ _) (wr_onlyRegs _ _ _)) (put_onlyRegs _ _ _))
    (put_onlyRegs _ _ _)) (put_onlyRegs _ _ _)

theorem fuseBreak_pins (s : Box) : s.fuseBreak.phase = s.phase ∧ s.fuseBreak.pwrOk = s.pwrOk
    ∧ s.fuseBreak.railsBad = s.railsBad ∧ s.fuseBreak.refLost = s.refLost := by
  unfold Box.fuseBreak
  split <;> exact ⟨rfl, rfl, rfl, rfl⟩

theorem fuseBreak_mayRun (s : Box) : s.fuseBreak.mayRun = s.mayRun := by
  obtain ⟨-, hpwr, hrails, href⟩ := fuseBreak_pins s
  simp only [Box.mayRun, hpwr, hrails, href]

theorem powerOn_phase (s : Box) : s.powerOn.phase = if s.mayRun then .run else .held := by
  rw [← fuseBreak_mayRun]
  rfl

theorem powerOn_mayRun (s : Box) : s.powerOn.mayRun = s.mayRun := fuseBreak_mayRun s

/-- A power-on reset holds the device unless it may run. -/
theorem powerOn_released (s : Box) : Released s.powerOn := by
  intro h
  rw [powerOn_phase] at h
  rw [powerOn_mayRun]
  by_contra hm
  exact h (if_neg hm)

theorem powerRelease_released (s : Box) (straps : Nat) : Released (s.powerRelease straps) := powerOn_released _

theorem coldReset_mayRun (s : Box) (src straps : Nat) : (s.coldReset src straps).mayRun = s.mayRun := fuseBreak_mayRun s

theorem warmReset_mayRun (s : Box) (src : Nat) : (s.warmReset src).mayRun = s.mayRun := fuseBreak_mayRun s

theorem boardActs_pins (board : List BoardAct) (s : Box) :
    (board.foldl Box.boardAct s).phase = s.phase ∧ (board.foldl Box.boardAct s).mayRun = s.mayRun := by
  induction board generalizing s with
  | nil => exact ⟨rfl, rfl⟩
  | cons a board ih =>
    rw [List.foldl_cons, (ih _).1, (ih _).2]
    cases a with
    | flash cs off bytes => simp only [Box.boardAct]; split <;> exact ⟨rfl, rfl⟩
    | jtag i => exact ⟨rfl, rfl⟩

theorem resetPin_released {s : Box} (h : Released s) (kind straps : Nat) (board : List BoardAct) :
    Released (s.resetPin kind straps board) := by
  obtain ⟨hphase, hmay⟩ := boardActs_pins board s
  simp only [Box.resetPin]
  split
  · exact fun hne => absurd ‹_› hne
  · have hrun : (board.foldl Box.boardAct s).mayRun = true := by rw [hmay]; exact h (hphase ▸ ‹_›)
    split
    · exact fun _ => (coldReset_mayRun _ _ _).trans hrun
    · split
      · exact fun _ => hrun
      · exact fun _ => (warmReset_mayRun _ _).trans hrun

theorem resetEffect_released {s : Box} (h : Released s) (ha : s.phase.alive = true) (straps : Nat) :
    Released (s.resetEffect straps) := by
  have hrun : s.mayRun = true := h fun hh => by simp [hh, Phase.alive] at ha
  unfold Box.resetEffect
  split
  · split
    · split
      · exact fun _ => (coldReset_mayRun _ _ _).trans hrun
      · exact fun _ => (warmReset_mayRun _ _).trans hrun
    · exact h
  · exact h

theorem fuseRailChange_released {s : Box} (h : Released s) (present : Bool) : Released (s.fuseRailChange present) := by
  have hshown : Released ({ s with fuseRail := present }.put SEC_FUSE_STATUS_FUSE_RAIL present) := h.of_pins rfl rfl rfl rfl
  simp only [Box.fuseRailChange]
  generalize { s with fuseRail := present }.put SEC_FUSE_STATUS_FUSE_RAIL present = b at hshown ⊢
  split
  · obtain ⟨hphase, hpwr, hrails, href⟩ := fuseBreak_pins b
    have hbroken : Released b.fuseBreak := hshown.of_pins hphase hpwr hrails href
    exact hbroken.of_onlyRegs (onlyRegs_trans (put_onlyRegs _ _ _) (showFuses_onlyRegs _))
  · exact hshown

theorem fuseDone_released {s : Box} (h : Released s) : Released s.fuseDone := by
  unfold Box.fuseDone
  split
  · exact h
  · refine Released.of_onlyRegs ?_
      (onlyRegs_trans (onlyRegs_trans (put_onlyRegs _ _ _) (showFuses_onlyRegs _)) (raiseInt_onlyRegs _ _ _))
    exact h.of_pins rfl rfl rfl rfl

/-- While the device may run, an operation that leaves the pins leaves it released. -/
theorem anchored_released {s : Box} (h : s.mayRun = true) (b : Box) : Released (b.anchored s) := fun _ => h

theorem Released.mayRun_of_alive {s : Box} (h : Released s) (ha : s.phase.alive = true) : s.mayRun = true :=
  h fun hh => by simp [hh, Phase.alive] at ha

theorem railRead_released {s : Box} (h : Released s) (rail mv : Nat) : Released (s.railRead rail mv) := by
  simp only [Box.railRead]
  split
  · split
    · next hc => exact anchored_released (h.mayRun_of_alive hc.2) _
    · exact h.of_onlyRegs (wr_onlyRegs _ _ _)
  · exact (powerOn_released _).of_onlyRegs (wr_onlyRegs _ _ _)

theorem cornerRead_released {s : Box} (h : Released s) (ha : s.phase.alive = true) (mv die tj : Nat) :
    Released (s.cornerRead mv die tj) := by
  simp only [Box.cornerRead]
  split
  · exact railRead_released h 0 mv
  · split <;> exact anchored_released (h.mayRun_of_alive ha) _

theorem pwrOkFall_released {s : Box} (h : Released s) : Released s.pwrOkFall := by
  unfold Box.pwrOkFall
  split
  · exact h
  · exact (powerOn_released _).of_pins rfl rfl rfl rfl

theorem PartRow.released {i : Instr} {f : Box → Box} (hrow : PartRow i f) {s : Box} (h : Released s) : Released (f s) := by
  have alive {g : Box → Box} (hg : s.phase.alive = true → Released (g s)) : Released (whileAlive g s) :=
    whileAlive_rel (P := fun _ => Released) h hg
  cases hrow with
  | fuseRailChange b => exact fuseRailChange_released h b
  | fuseOperationDone => exact alive fun _ => fuseDone_released h
  | resetTakeEffect straps => exact alive fun ha => resetEffect_released h ha _
  | rstColdPin straps board => exact resetPin_released h _ _ board
  | rstWarmPin board => exact resetPin_released h _ _ board
  | powerOnReset straps => exact powerRelease_released _ _
  | pwrOkRise straps =>
    simp only [Box.pwrOkRise]
    split
    · exact h
    · exact powerRelease_released _ _
  | pwrOkFall => exact pwrOkFall_released h
  | railFault rail mv => exact railRead_released h _ _
  | refclkLoss => exact powerOn_released _
  | refclkReturn straps =>
    dsimp only
    split
    · exact powerRelease_released _ _
    · exact h
  | envExcursionStart mv die tj => exact alive fun ha => cornerRead_released h ha _ _ _
  | envExcursionEnd mv die tj => exact alive fun ha => cornerRead_released h ha _ _ _

/-- A command on the block leaves a held device held and every other one with its power. -/
theorem releasedRight_of_sameAnchors {s t : State} (h : releasedRight s) (hsame : sameAnchors s t)
    (hheld : s.phase = .held → t = s) : releasedRight t := by
  intro ht
  by_cases hs : s.phase = .held
  · exact absurd ((hheld hs).symm ▸ hs) ht
  · obtain ⟨-, -, -, hpwr, hrails, href, -⟩ := hsame
    have := h hs
    rwa [Box.mayRun, ← hpwr, ← hrails, ← href] at this

/-- Settles O5: the commands on the block cannot release a held device, and those on the part release none without power. -/
theorem runsOnlyWithPowerAndReference : Obligations.RunsOnlyWithPowerAndReference := by
  intro s t hs h
  unfold step at h
  split at h
  · obtain rfl := Host.Outcome.next.inj h
    obtain ⟨⟨-, -, -, hpwr, hrails, href, -⟩, hheld⟩ := tick_sameAnchors s
    intro ht
    by_cases hsheld : s.phase = .held
    · rw [hheld hsheld] at ht
      exact absurd hsheld ht
    · have hrun := hs hsheld
      rwa [Box.mayRun, ← hpwr, ← hrails, ← href] at hrun
  · next c q _ =>
    obtain ⟨u, hu, hsame, hheld⟩ | ⟨f, hrow, hf⟩ := exec_quiet_or_part c { s with pending := q }
    · obtain rfl := Host.Outcome.next.inj (hu.symm.trans h)
      exact releasedRight_of_sameAnchors (s := { s with pending := q }) hs hsame hheld
    · obtain rfl := Host.Outcome.next.inj (hf.symm.trans h)
      exact hrow.released (s := s.toBox) hs

/-- Settles O6: `State.reset` is the default state. -/
theorem resetLeavesTheMachineReady : Obligations.ResetLeavesTheMachineReady :=
  ⟨rfl, rfl, rfl, rfl, fun _ => rfl, rfl, rfl, fun _ => rfl⟩

end Sys2Proof.Proofs
end


section
/-!
# Reading a field after a write of another

A field of a register word reads as before after a write of a field that shares no bit with it, and after any change that leaves
its word.
-/

namespace Sys2Proof.Proofs

open Sys2Proof Sys2Proof.Machine Sys2Proof.Safety Sys2Proof.Laws

/-- No bit of a register word is in both fields, and the first lies in its word. -/
abbrev Apart (f g : Fld) : Prop :=
  f.lo + f.width ≤ 32 ∧ (g.addr ≠ f.addr ∨ g.lo + g.width ≤ f.lo ∨ f.lo + f.width ≤ g.lo)

section fields

variable {s t u : Box} {f g : Fld}

theorem rd_wr_apart (s : Box) (v : Nat) (h : Apart f g) : (s.wr f v).rd g = s.rd g := by
  obtain ⟨hfits, haddr | hbits⟩ := h
  · exact rd_wr_word s f g v haddr
  · exact rd_wr_disjoint s f g v hfits hbits

theorem rd_put_apart (s : Box) (b : Bool) (h : Apart f g) : (s.put f b).rd g = s.rd g := rd_wr_apart s _ h

theorem is_wr_apart (s : Box) (v : Nat) (h : Apart f g) : (s.wr f v).is g = s.is g := by
  rw [Box.is, Box.is, rd_wr_apart s v h]

theorem is_put_apart (s : Box) (b : Bool) (h : Apart f g) : (s.put f b).is g = s.is g := is_wr_apart s _ h

theorem rd_of_regs (h : t.regs = s.regs) (f : Fld) : t.rd f = s.rd f := by
  rw [Box.rd, Box.rd, Box.word, Box.word, h]

theorem is_of_regs (h : t.regs = s.regs) (f : Fld) : t.is f = s.is f := by rw [Box.is, Box.is, rd_of_regs h]

theorem rd_of_sameWords {ws : List Nat} (h : sameWords ws s t) (hf : f.addr ∉ ws) : t.rd f = s.rd f :=
  congrArg (wordField · f.lo f.width) (h _ hf)

theorem is_of_sameWords {ws : List Nat} (h : sameWords ws s t) (hf : f.addr ∉ ws) : t.is f = s.is f :=
  congrArg (· != 0) (rd_of_sameWords h hf)

theorem rd_raiseInt (s : Box) (p : Page) (bit : Nat) (h : f.addr ∉ causeWords p) : (s.raiseInt p bit).rd f = s.rd f :=
  rd_of_sameWords (raiseInt_sameWords s p bit) h

theorem is_raiseInt (s : Box) (p : Page) (bit : Nat) (h : f.addr ∉ causeWords p) : (s.raiseInt p bit).is f = s.is f :=
  is_of_sameWords (raiseInt_sameWords s p bit) h

theorem word_raiseInt (s : Box) (p : Page) (bit : Nat) {a : Nat} (h : a ∉ causeWords p) :
    (s.raiseInt p bit).word a = s.word a := raiseInt_sameWords s p bit a h

@[simp] theorem emit_rd (s : Box) (o : Out) (f : Fld) : (s.emit o).rd f = s.rd f := rfl
@[simp] theorem emit_is (s : Box) (o : Out) (f : Fld) : (s.emit o).is f = s.is f := rfl
@[simp] theorem anchored_rd (s a : Box) (f : Fld) : (s.anchored a).rd f = s.rd f := rfl
@[simp] theorem anchored_is (s a : Box) (f : Fld) : (s.anchored a).is f = s.is f := rfl
@[simp] theorem anchored_word (s b : Box) (a : Nat) : (s.anchored b).word a = s.word a := rfl

/-- Words that each of two changes leaves, both leave. -/
theorem sameWords_append {ws vs : List Nat} (h : sameWords ws s t) (k : sameWords vs t u) : sameWords (ws ++ vs) s u :=
  sameWords_trans (sameWords_mono h fun _ => List.mem_append_left _) (sameWords_mono k fun _ => List.mem_append_right _)

/-- What happens on a block that is anchored there already. -/
theorem anchored_of_onlyRegs (h : onlyRegs s t) : t.anchored s = { s with regs := t.regs, outbox := t.outbox } := by
  obtain ⟨_, _, rfl⟩ := h
  rfl

/-- A value that fits its field reads back. -/
theorem rd_wr_lt (s : Box) {v : Nat} (h : f.lo + f.width ≤ 32) (hv : v < 2 ^ f.width) : (s.wr f v).rd f = v := by
  rw [rd_wr s f v h, Nat.mod_eq_of_lt hv]

end fields

/-- A command that acts on the block as `f` leaves what `f` gives on the block it finds. -/
theorem next_onBox {s : State} {f : Box → Box} {b : Box} {r : Result} (h : r = .next (s.onBox f)) (hb : f s.toBox = b) :
    r = .next (s.onBox fun _ => b) := by
  rw [h, State.onBox, hb]
  rfl

theorem flash_of_onlyRegs {s t : Box} (h : onlyRegs s t) : t.flash = s.flash := by
  obtain ⟨_, _, rfl⟩ := h
  rfl

theorem straps_of_onlyRegs {s t : Box} (h : onlyRegs s t) : t.straps = s.straps := by
  obtain ⟨_, _, rfl⟩ := h
  rfl

theorem udsLocked_of_onlyRegs {s t : Box} (h : onlyRegs s t) : t.udsLocked = s.udsLocked := by
  obtain ⟨_, _, rfl⟩ := h
  rfl

/-- The same for a command that acts on the whole part. -/
theorem next_onPart {s : State} {f : Box → Box} {b : Box} {r : Result} (h : r = .next (s.onPart f)) (hb : f s.toBox = b) :
    r = .next (s.onPart fun _ => b) := by
  rw [h, State.onPart, hb]
  rfl

/-! ### Words by where they lie -/

/-- Every register word at an address of `P` is as before. -/
def sameOn (P : Nat → Prop) (s t : Box) : Prop := ∀ a, P a → t.word a = s.word a

section sameOn

variable {P : Nat → Prop} {s t u : Box}

theorem sameOn_refl (P : Nat → Prop) (s : Box) : sameOn P s s := fun _ _ => rfl

theorem sameOn_trans (h : sameOn P s t) (k : sameOn P t u) : sameOn P s u := fun a ha => (k a ha).trans (h a ha)

theorem sameOn_of_sameWords {ws : List Nat} (h : sameWords ws s t) (hws : ∀ a ∈ ws, ¬ P a) : sameOn P s t :=
  fun a ha => h a fun hmem => hws a hmem ha

theorem sameOn_of_regs (h : t.regs = s.regs) : sameOn P s t := fun a _ => by rw [Box.word, Box.word, h]

theorem wr_sameOn (s : Box) {f : Fld} (v : Nat) (h : ¬ P f.addr) : sameOn P s (s.wr f v) :=
  sameOn_of_sameWords (wr_sameWords s f v) (by simpa using h)

theorem put_sameOn (s : Box) {f : Fld} (b : Bool) (h : ¬ P f.addr) : sameOn P s (s.put f b) := wr_sameOn s _ h

theorem rd_of_sameOn (h : sameOn P s t) {f : Fld} (hf : P f.addr) : t.rd f = s.rd f :=
  congrArg (wordField · f.lo f.width) (h _ hf)

theorem is_of_sameOn (h : sameOn P s t) {f : Fld} (hf : P f.addr) : t.is f = s.is f :=
  congrArg (· != 0) (rd_of_sameOn h hf)

end sameOn

/-- The words of Big Top's pages below the MSI-X table. -/
abbrev bigTopWord (a : Nat) : Prop := a < 0xF20000

/-- A cause of a tent's page leaves the words of Big Top. -/
theorem raiseInt_bigTop (s : Box) {p : Page} (hp : p / 256 ≠ 8) (bit : Nat) : sameOn bigTopWord s (s.raiseInt p bit) := by
  refine sameOn_of_sameWords (raiseInt_sameWords s p bit) ?_
  simp only [causeWords, List.mem_cons, List.not_mem_nil, or_false, pageBase, if_neg hp, bigTopWord]
  rintro a (rfl | rfl) <;> omega

/-! ### Folds -/

/-- What every round of a fold keeps, the fold keeps. -/
theorem foldl_rel {α β : Type} {R : β → β → Prop} (hrefl : ∀ b, R b b) (htrans : ∀ {a b c}, R a b → R b c → R a c)
    {f : β → α → β} (l : List α) (hf : ∀ b, ∀ x ∈ l, R b (f b x)) (b : β) : R b (l.foldl f b) := by
  induction l generalizing b with
  | nil => exact hrefl b
  | cons x l ih =>
    rw [List.foldl_cons]
    exact htrans (hf b x List.mem_cons_self) (ih (fun c y hy => hf c y (List.mem_cons_of_mem _ hy)) _)

theorem foldl_onlyRegs {α : Type} {f : Box → α → Box} (l : List α) (hf : ∀ b, ∀ x ∈ l, onlyRegs b (f b x)) (b : Box) :
    onlyRegs b (l.foldl f b) := foldl_rel onlyRegs_refl onlyRegs_trans l hf b

theorem foldl_sameWords {α : Type} {ws : List Nat} {f : Box → α → Box} (l : List α)
    (hf : ∀ b, ∀ x ∈ l, sameWords ws b (f b x)) (b : Box) : sameWords ws b (l.foldl f b) :=
  foldl_rel (sameWords_refl ws) sameWords_trans l hf b

theorem foldl_sameOn {α : Type} {P : Nat → Prop} {f : Box → α → Box} (l : List α)
    (hf : ∀ b, ∀ x ∈ l, sameOn P b (f b x)) (b : Box) : sameOn P b (l.foldl f b) :=
  foldl_rel (sameOn_refl P) sameOn_trans l hf b

/-! ### What leaves the block -/

/-- Everything that had left the block is still in its record. -/
def emits (s t : Box) : Prop := ∃ o, t.outbox = o ++ s.outbox

theorem emits_of_eq {s t : Box} (h : t.outbox = s.outbox) : emits s t := ⟨[], h⟩

theorem emits_trans {s t u : Box} (h : emits s t) (k : emits t u) : emits s u := by
  obtain ⟨o, ho⟩ := h
  obtain ⟨o', ho'⟩ := k
  exact ⟨o' ++ o, by rw [ho', ho, List.append_assoc]⟩

theorem emit_emits (s : Box) (o : Out) : emits s (s.emit o) := ⟨[o], rfl⟩

theorem sendVector_emits (s : Box) (v : Nat) : emits s (s.sendVector v) := by
  rw [Box.sendVector]
  split
  · exact emits_of_eq rfl
  · exact emit_emits _ _

theorem raiseInt_emits (s : Box) (p : Page) (bit : Nat) : emits s (s.raiseInt p bit) := by
  simp only [Box.raiseInt]
  split
  · exact emits_trans (emits_of_eq (put_outbox s _ _)) (sendVector_emits _ _)
  · exact emits_of_eq (put_outbox s _ _)

/-! ### Error indications -/

/-- An access error sets the indication of its page. -/
theorem accErr_sets (s : Box) {p : Page} (hv : pageVector p / 32 < 0x1000) (off : Nat) (src : Requester) :
    (s.accErr p off src).is (PAGE_ERR_ACCERR p) = true := by
  have hset (b : Box) : (b.put (PAGE_ERR_ACCERR p) true).is (PAGE_ERR_ACCERR p) = true :=
    is_put b _ true (show 0 + 1 ≤ 32 by decide) (show 0 < 1 by decide)
  simp only [Box.accErr, Box.pageErr]
  split
  · exact hset _
  · rw [is_raiseInt _ _ _ ?_]
    · exact hset _
    · have hmod := pageBase_mod p
      simp only [PAGE_ERR_ACCERR, pageFld, causeWords, List.mem_cons, List.not_mem_nil, or_false]
      omega

theorem accErr_sameWords (s : Box) (p : Page) (off : Nat) (src : Requester) :
    sameWords (errorWords p) s (s.accErr p off src) := pageErr_sameWords s p off src _ rfl

theorem rsvWrite_sameWords (s : Box) (p : Page) (off : Nat) (src : Requester) :
    sameWords (errorWords p) s (s.rsvWrite p off src) := pageErr_sameWords s p off src _ rfl

end Sys2Proof.Proofs
end

section
/-!
# Fuse operations (15_boot_security.md R438; 17_electrical_package.md R471)
-/

namespace Sys2Proof.Proofs

open Sys2Proof Sys2Proof.Machine Sys2Proof.Safety Sys2Proof.Laws

/-! ### What a command to SEC_FUSE_CMD names -/

theorem fuseWord_advance (v : BitVec 8) : natField (2 ^ 28 + v.toNat) 28 4 = 1 ∧ natField (2 ^ 28 + v.toNat) 0 8 = v.toNat := by
  have := v.isLt
  simp only [natField]
  omega

theorem known_SEC_FUSE_CMD : (maskAt SEC_FUSE_CMD_at).known = 0xF00000FF := by decide

theorem fuseWord_known : ∀ v : BitVec 8, bitsOut (2 ^ 28 + v.toNat) 0xF00000FF = 0 := by decide

theorem rsvCheck_of_known {b : Box} {src : Requester} {a v : Nat} (h : bitsOut v (maskAt a).known = 0) :
    b.rsvCheck src a v = b := if_pos h

/-- The bits of the window that SET_OWNER blows. -/
def windowHash (b : Box) : BitVec 384 :=
  BitVec.ofNat 384 (natBE (wordBytesLE ((List.range 12).map fun i => b.word (SEC_WIN_at i))))

/-- FUSE_BUSY is set and the operation begins. -/
def beginFuse (b : Box) (o : FuseOp) : Box := { b.put SEC_FUSE_STATUS_FUSE_BUSY true with fuseOp := some o }

section commands

variable {b : Box}

theorem fuseCmd_advance (hop : b.fuseOp = none) (hrail : b.fuseRail = true) (hconf : b.is SEC_BOOT_STATUS_CONFIRMED = true)
    {v : BitVec 8} (hmore : b.fuses.svn < v.toNat) (hsvn : v.toNat ≤ b.rd SEC_BOOT_STATUS_SVN) (hmax : v.toNat ≤ 128) :
    b.fuseCmd .driver (2 ^ 28 + v.toNat) = beginFuse b (.advance v.toNat) := by
  obtain ⟨hfield, hvalue⟩ := fuseWord_advance v
  have hknown := rsvCheck_of_known (b := b) (src := .driver) (known_SEC_FUSE_CMD ▸ fuseWord_known v)
  simp [-Nat.reducePow, Box.fuseCmd, beginFuse, hfield, hvalue, hknown, hop, hrail, hconf, hmore, hsvn, hmax, Box.minSvn]

theorem fuseCmd_setOwner (hop : b.fuseOp = none) (hrail : b.fuseRail = true) (howner : b.fuses.ownerMode = false) :
    b.fuseCmd .driver (2 * 2 ^ 28) = beginFuse b (.owner (windowHash b)) := by
  have hknown := rsvCheck_of_known (b := b) (src := .driver) (a := SEC_FUSE_CMD_at) (v := 2 * 2 ^ 28)
    (known_SEC_FUSE_CMD ▸ by decide)
  have hfield : natField (2 * 2 ^ 28) 28 4 = 2 := by decide
  simp only [Box.fuseCmd, hfield, hknown, hop, hrail, howner]
  rfl

/-- No requester but the driver begins a fuse operation. -/
theorem fuseCmd_other {src : Requester} (hsrc : src ≠ .driver) {v : Nat} (h : natField v 28 4 = 1 ∨ natField v 28 4 = 2) :
    b.fuseCmd src v = b.accErrAt SEC_FUSE_CMD_at src := by
  have hop : ¬ (natField v 28 4 ≠ 1 ∧ natField v 28 4 ≠ 2) := by tauto
  simp only [Box.fuseCmd, if_neg hop, if_pos (Or.inl hsrc)]

/-- The fuses once an operation has blown its bits. -/
def blown : FuseOp → Fuses → Fuses
  | .advance v, x => { x with svn := max x.svn v }
  | .owner h, x => { x with owner := x.owner ||| h, ownerMode := true }

/-- An operation ends and leaves the fuses `x`. -/
def endFuse (b : Box) (x : Fuses) : Box :=
  ((({ b with fuseOp := none, fuses := x } : Box).put SEC_FUSE_STATUS_FUSE_BUSY false).showFuses).raiseInt secPage 2

theorem fuseDone_of_fuseOp {o : FuseOp} (h : b.fuseOp = some o) : b.fuseDone = endFuse b (blown o b.fuses) := by
  simp only [Box.fuseDone, h]
  cases o <;> rfl

theorem showFuses_busy (b : Box) : b.showFuses.is SEC_FUSE_STATUS_FUSE_BUSY = b.is SEC_FUSE_STATUS_FUSE_BUSY := by
  simp (disch := decide) only [Box.showFuses, is_put_apart, is_wr_apart]

theorem showFuses_ownerMode (b : Box) : b.showFuses.is SEC_FUSE_STATUS_OWNER_MODE = b.fuses.ownerMode := by
  simp (disch := decide) only [Box.showFuses, is_put_apart, is_put]

theorem showFuses_minSvn (b : Box) (h : b.fuses.svn < 256) : b.showFuses.rd SEC_FUSE_STATUS_MIN_SVN = b.fuses.svn := by
  simp (disch := decide) only [Box.showFuses, rd_put_apart, rd_wr_apart]
  exact rd_wr_lt _ (by decide) h

end commands

theorem endFuse_onlyRegs (b : Box) (x : Fuses) : onlyRegs { b with fuseOp := none, fuses := x } (endFuse b x) :=
  onlyRegs_trans (onlyRegs_trans (put_onlyRegs _ _ _) (showFuses_onlyRegs _)) (raiseInt_onlyRegs _ _ _)

/-- What the end of an operation shows. -/
theorem endFuse_shows (b : Box) (x : Fuses) :
    (endFuse b x).is SEC_FUSE_STATUS_FUSE_BUSY = false ∧ (endFuse b x).is SEC_FUSE_STATUS_OWNER_MODE = x.ownerMode
      ∧ (x.svn < 256 → (endFuse b x).rd SEC_FUSE_STATUS_MIN_SVN = x.svn) ∧ (endFuse b x).is (pageFld secPage 16 2 1) = true := by
  unfold endFuse
  refine ⟨?_, ?_, fun hsvn => ?_, raiseInt_sets _ _ _ (by decide) (by decide)⟩
  · rw [is_raiseInt _ _ _ (by decide), showFuses_busy, is_put _ _ _ (by decide) (by decide)]
  · rw [is_raiseInt _ _ _ (by decide), showFuses_ownerMode]
    rfl
  · rw [rd_raiseInt _ _ _ (by decide)]
    exact showFuses_minSvn _ hsvn

theorem endFuse_fuses (b : Box) (x : Fuses) : (endFuse b x).fuses = x ∧ (endFuse b x).fuseOp = none := by
  obtain ⟨_, _, h⟩ := endFuse_onlyRegs b x
  rw [h]
  exact ⟨rfl, rfl⟩

/-- The end of an operation that has begun. -/
theorem exec_fuseOperationDone {t : State} (hrun : t.phase = .run) {o : FuseOp} (h : t.fuseOp = some o) :
    ∃ u, exec .fuseOperationDone t = .next u ∧ u.fuses = blown o t.fuses ∧ u.fuseOp = none
      ∧ u.is SEC_FUSE_STATUS_FUSE_BUSY = false ∧ u.is SEC_FUSE_STATUS_OWNER_MODE = (blown o t.fuses).ownerMode
      ∧ ((blown o t.fuses).svn < 256 → u.rd SEC_FUSE_STATUS_MIN_SVN = (blown o t.fuses).svn)
      ∧ u.is (pageFld secPage 16 2 1) = true := by
  have hexec : exec .fuseOperationDone t = .next (t.onPart fun b => endFuse b (blown o t.fuses)) := by
    refine (actPart_run _ _ hrun).trans ?_
    rw [State.onPart, fuseDone_of_fuseOp h]
    rfl
  obtain ⟨hfuses, hend⟩ := endFuse_fuses t.toBox (blown o t.fuses)
  exact ⟨_, hexec, hfuses, hend, endFuse_shows t.toBox (blown o t.fuses)⟩

theorem accErrAt_SEC (b : Box) {a : Nat} (h : wordPage a = secPage) (src : Requester) :
    onlyRegs b (b.accErrAt a src) ∧ (b.accErrAt a src).is (PAGE_ERR_ACCERR secPage) = true
      ∧ sameWords (errorWords secPage) b (b.accErrAt a src) := by
  simp only [Box.accErrAt, h]
  exact ⟨accErr_onlyRegs _ _ _ _, accErr_sets b (by decide) _ _, accErr_sameWords _ _ _ _⟩

/-- The rail's removal during an operation leaves what a power loss leaves. -/
theorem fuseBreak_fuseOp (b : Box) : b.fuseBreak.fuseOp = none := by
  unfold Box.fuseBreak
  split
  · assumption
  · rfl
  · rfl

theorem fuseBreak_ownerMode (b : Box) : b.fuseBreak.fuses.ownerMode = b.fuses.ownerMode := by
  unfold Box.fuseBreak
  split <;> rfl

theorem fuseBreak_fuseRail (b : Box) : b.fuseBreak.fuseRail = b.fuseRail := by
  unfold Box.fuseBreak
  split <;> rfl

theorem fuseRailChange_false {b : Box} (h : b.fuseOp.isSome = true) :
    b.fuseRailChange false
      = (({ b with fuseRail := false }.put SEC_FUSE_STATUS_FUSE_RAIL false).fuseBreak.put SEC_FUSE_STATUS_FUSE_BUSY
          false).showFuses := by
  simp [Box.fuseRailChange, h]

/-- Settles O11: a command begins the operation it names, the end of the operation blows that, and the rail's removal ends it. -/
theorem fuseOperationsBlowWhatTheyName : Obligations.FuseOperationsBlowWhatTheyName := by
  refine ⟨fun s htake hop => ⟨?_, ?_, ?_⟩, fun s => ⟨?_, ?_⟩⟩
  · intro value hrail hconf hmore hsvn hmax
    obtain ⟨hrun, hreach, hready⟩ := htake
    have hexec : exec (.advanceSvn .driver value) s = .next (s.onBox fun _ => beginFuse s.toBox (.advance value.toNat)) := by
      refine (actReg_run s _ _ _ hrun hreach hready).trans ?_
      rw [State.onBox, fuseCmd_advance hop hrail hconf hmore hsvn hmax]
      rfl
    have hblown : blown (.advance value.toNat) s.fuses = { s.fuses with svn := value.toNat } := by
      rw [blown, max_eq_right hmore.le]
    obtain ⟨u, hu, hfuses, hend, hbusy, -, hshown, hint⟩ :=
      exec_fuseOperationDone (t := s.onBox fun _ => beginFuse s.toBox (.advance value.toNat)) hrun rfl
    rw [onBox_fuses, hblown] at hfuses hshown
    exact ⟨_, hexec, rfl, is_put _ _ true (by decide) (by decide), rfl,
      put_sameWords s.toBox SEC_FUSE_STATUS_FUSE_BUSY true, u, hu, hfuses, hend, hbusy, hshown value.isLt, hint⟩
  · intro hrail howner
    obtain ⟨hrun, hreach, hready⟩ := htake
    have hexec : exec (.setOwner .driver) s = .next (s.onBox fun _ => beginFuse s.toBox (.owner (windowHash s.toBox))) := by
      refine (actReg_run s _ _ _ hrun hreach hready).trans ?_
      rw [State.onBox, fuseCmd_setOwner hop hrail howner]
      rfl
    obtain ⟨u, hu, hfuses, -, -, hshown, -⟩ :=
      exec_fuseOperationDone (t := s.onBox fun _ => beginFuse s.toBox (.owner (windowHash s.toBox))) hrun rfl
    rw [onBox_fuses] at hfuses
    refine ⟨_, hexec, is_put _ _ true (by decide) (by decide), rfl, u, hu, ?_, ?_, ?_, hshown⟩
    · exact congrArg Fuses.ownerMode hfuses
    · exact (congrArg Fuses.svn hfuses).trans rfl
    · refine (congrArg (s.fuses.owner &&& ·.owner) hfuses).trans ?_
      ext
      simp +contextual [blown]
  · intro src value hsrc
    obtain ⟨hrun, -, hready⟩ := htake
    obtain ⟨honly, hset, hwords⟩ := accErrAt_SEC s.toBox (a := SEC_FUSE_CMD_at) (by decide) src
    have hact (v : Nat) (hv : natField v 28 4 = 1 ∨ natField v 28 4 = 2) :
        s.actReg SEC_FUSE_CMD_at src (fun b => b.fuseCmd src v) = .next (s.onBox fun b => b.accErrAt SEC_FUSE_CMD_at src) := by
      rw [actReg_run s _ _ _ hrun (reaches_of_ne _ _ hsrc) hready, State.onBox, fuseCmd_other hsrc hv]
      rfl
    refine ⟨_, hact _ (.inl (fuseWord_advance value).1), hact _ (.inr (by decide)), ?_, hset, hwords⟩
    exact congrArg (fun b => { s with toBox := b }) (anchored_of_onlyRegs honly)
  · intro present hop
    have hact : s.toBox.fuseRailChange present
        = { s.toBox with fuseRail := present, regs := (s.put SEC_FUSE_STATUS_FUSE_RAIL present).regs } := by
      simp only [Box.fuseRailChange, hop, Option.isSome_none, Bool.false_eq_true, and_false, if_false]
      rfl
    exact congrArg (fun b => Host.Outcome.next { s with toBox := b }) hact
  · intro hop
    have hbox := fuseRailChange_false hop
    generalize hcut : ({ s.toBox with fuseRail := false }.put SEC_FUSE_STATUS_FUSE_RAIL false) = b at hbox
    have hfuses : b.fuses = s.fuses := by rw [← hcut]; rfl
    have hrail : b.fuseRail = false := by rw [← hcut]; rfl
    obtain ⟨_, _, honly⟩ := onlyRegs_trans (put_onlyRegs b.fuseBreak SEC_FUSE_STATUS_FUSE_BUSY false) (showFuses_onlyRegs _)
    have hbusy : (s.toBox.fuseRailChange false).is SEC_FUSE_STATUS_FUSE_BUSY = false := by
      rw [hbox, showFuses_busy, is_put _ _ _ (by decide) (by decide)]
    have hparts := hbox.trans honly
    refine ⟨_, rfl, ?_, ?_, hbusy, ?_, ?_⟩
    · exact (congrArg Box.fuseOp hparts).trans (fuseBreak_fuseOp b)
    · exact (congrArg Box.fuseRail hparts).trans ((fuseBreak_fuseRail b).trans hrail)
    · exact (congrArg (·.fuses.ownerMode) hparts).trans ((fuseBreak_ownerMode b).trans (congrArg Fuses.ownerMode hfuses))
    · exact fuseRailChange_fusesKept s.toBox false

end Sys2Proof.Proofs
end

section
/-!
# Flash and the firmware update (15_boot_security.md R434, R445 to R448)
-/

namespace Sys2Proof.Proofs

open Sys2Proof Sys2Proof.Machine Sys2Proof.Safety Sys2Proof.Laws

/-! ### Flash bytes -/

/-- Writing consecutive keys gives each its value. -/
theorem mapGet_mapSetAll_in {α : Type} [DecidableEq α] (d : Nat → α) (m : Sparse α) (k : Nat) (vs : List α) {i : Nat}
    (hi : i < vs.length) : mapGet d (mapSetAll d m k vs) (k + i) = vs[i] := by
  induction vs generalizing m k i with
  | nil => simp at hi
  | cons v vs ih =>
    rw [mapSetAll]
    cases i with
    | zero =>
      change mapGet d (mapSetAll d (mapSet d m k v) (k + 1) vs) k = v
      rw [mapGet_mapSetAll_other _ _ _ _ (.inl (Nat.lt_add_one k)), mapGet_mapSet_same]
    | succ i =>
      rw [← Nat.add_assoc, Nat.add_right_comm]
      exact ih _ _ (by simpa using hi)

theorem flashProgram_byte (s : Box) (cs off : Nat) {bs : List Byte} {i : Nat} (hi : i < bs.length) :
    mapGet flashDflt (s.flashProgram cs off bs).flash (flashKey cs off + i)
      = mapGet flashDflt s.flash (flashKey cs off + i) &&& bs[i] := by
  have hlen : i < (List.zipWith (· &&& ·) (s.flashRead cs off bs.length) bs).length := by
    simp [Box.flashRead, mapRange, hi]
  simp only [Box.flashProgram]
  rw [mapGet_mapSetAll_in _ _ _ _ hlen]
  simp [Box.flashRead, mapRange]

theorem flashProgram_other (s : Box) (cs off : Nat) {bs : List Byte} {k : Nat}
    (hk : k < flashKey cs off ∨ flashKey cs off + bs.length ≤ k) :
    mapGet flashDflt (s.flashProgram cs off bs).flash k = mapGet flashDflt s.flash k := by
  simp only [Box.flashProgram]
  refine mapGet_mapSetAll_other _ _ _ _ ?_
  simpa [Box.flashRead, mapRange] using hk

/-- A slot whose boot control record has been erased is not usable. -/
theorem erased_not_usable {s : Box} {cs : Nat}
    (h : ∀ k, flashKey cs 0 ≤ k → k < flashKey cs 0 + imageAt → mapGet flashDflt s.flash k = flashDflt k) :
    recUsable (s.bootRec cs) = false := by
  have hbyte (i : Nat) (hi : i < 64) : mapGet flashDflt s.flash (flashKey cs 0 + i) = 0xFF := by
    rw [h _ (by omega) (by simp only [imageAt]; omega), flashDflt, if_pos]
    simp only [flashKey, identityAt]
    omega
  have hrec : s.bootRec cs = List.replicate 64 0xFF := by
    rw [Box.bootRec, Box.flashRead, mapRange, List.eq_replicate_iff]
    refine ⟨by simp, fun b hb => ?_⟩
    obtain ⟨i, hi, rfl⟩ := List.mem_map.1 hb
    exact hbyte i (List.mem_range.1 hi)
  rw [hrec]
  decide

/-! ### The end and the start of a command -/

section update

variable {b : Box}

/-- The end of a command changes beside register words only the operation. -/
theorem fwupEnd_onlyRegs (b : Box) (reason : Nat) :
    onlyRegs { b with update := { b.update with op := none } } (b.fwupEnd reason) :=
  onlyRegs_trans (onlyRegs_trans (onlyRegs_trans (put_onlyRegs _ _ _) (wr_onlyRegs _ _ _)) (put_onlyRegs _ _ _))
    (raiseInt_onlyRegs _ _ _)

theorem fwupEnd_eq (b : Box) (reason : Nat) : ∃ r o, b.fwupEnd reason
    = { b with update := { b.update with op := none }, regs := r, outbox := o } := by
  obtain ⟨r, o, h⟩ := fwupEnd_onlyRegs b reason
  exact ⟨r, o, h⟩

@[simp] theorem fwupEnd_flash (b : Box) (reason : Nat) : (b.fwupEnd reason).flash = b.flash := by
  obtain ⟨_, _, h⟩ := fwupEnd_eq b reason
  rw [h]

@[simp] theorem fwupEnd_path (b : Box) (reason : Nat) : (b.fwupEnd reason).update.path = b.update.path := by
  obtain ⟨_, _, h⟩ := fwupEnd_eq b reason
  rw [h]

theorem fwupEnd_sameWords (b : Box) (reason : Nat) :
    sameWords (SEC_FWUP_STATUS_at :: causeWords secPage) b (b.fwupEnd reason) := by
  have h (c : Box) (f : Fld) (v : Nat) (hf : f.addr = SEC_FWUP_STATUS_at) :
      sameWords (SEC_FWUP_STATUS_at :: causeWords secPage) c (c.wr f v) :=
    sameWords_mono (wr_sameWords c f v) (by simp [hf])
  have hstart : sameWords (SEC_FWUP_STATUS_at :: causeWords secPage) b { b with update := { b.update with op := none } } :=
    fun _ _ => rfl
  exact sameWords_trans (sameWords_trans (sameWords_trans (sameWords_trans hstart (h _ _ _ rfl)) (h _ _ _ rfl)) (h _ _ _ rfl))
    (sameWords_mono (raiseInt_sameWords _ _ _) fun _ => List.mem_cons_of_mem _)

/-- What the end of a command shows. -/
theorem fwupEnd_shows (b : Box) {reason : Nat} (h : reason < 256) :
    (b.fwupEnd reason).is SEC_FWUP_STATUS_BUSY = false ∧ (b.fwupEnd reason).is SEC_FWUP_STATUS_DONE = true
      ∧ (b.fwupEnd reason).rd SEC_FWUP_STATUS_REASON = reason
      ∧ (b.fwupEnd reason).is SEC_FWUP_STATUS_OPEN = b.is SEC_FWUP_STATUS_OPEN := by
  refine ⟨?_, ?_, ?_, ?_⟩
  · simp (disch := decide) only [Box.fwupEnd, is_raiseInt, is_put_apart, is_wr_apart, is_put]
  · simp (disch := decide) only [Box.fwupEnd, is_raiseInt, is_put]
  · simp (disch := decide) only [Box.fwupEnd, rd_raiseInt, rd_put_apart]
    exact rd_wr_lt _ (by decide) h
  · simp (disch := decide) only [Box.fwupEnd, is_raiseInt, is_put_apart, is_wr_apart]
    rfl

theorem fwupEnd_bootState (b : Box) (reason : Nat) : (b.fwupEnd reason).bootState = b.bootState :=
  rd_of_sameWords (fwupEnd_sameWords b reason) (by decide)

theorem fwupStart_busy (b : Box) (o : FwOp) : (b.fwupStart o).is SEC_FWUP_STATUS_BUSY = true :=
  is_put b SEC_FWUP_STATUS_BUSY true (by decide) (by decide)

/-! ### Commands of SEC_FWUP_CMD -/

/-- The commands with a piece, a mode or no operand set no reserved bit. -/
theorem known_SEC_FWUP_CMD : (maskAt SEC_FWUP_CMD_at).known = 0xF80003FF := by decide

theorem fwupWrite_known : ∀ p : BitVec 10, bitsOut (2 * 2 ^ 28 + p.toNat) 0xF80003FF = 0 := by decide

theorem fwupWrite_word (p : BitVec 10) : bitsOut (2 * 2 ^ 28 + p.toNat) 0xF80003FF = 0
    ∧ natField (2 * 2 ^ 28 + p.toNat) 28 4 = 2 ∧ natField (2 * 2 ^ 28 + p.toNat) 0 10 = p.toNat := by
  have hp := p.isLt
  refine ⟨?_, ?_, ?_⟩
  · exact fwupWrite_known p
  · simp only [natField]; omega
  · simp only [natField]; omega

section command

variable (hbusy : b.is SEC_FWUP_STATUS_BUSY = false) (hfw : b.firmware = true) {src : Requester} {v : Nat}
include hbusy hfw

/-- A command that SEC_FWUP_CMD names reaches its operation while firmware runs and no command does. -/
theorem fwupCmd_named (hknown : bitsOut v 0xF80003FF = 0) (hcmd : ¬ (natField v 28 4 = 0 ∨ 6 < natField v 28 4)) :
    b.fwupCmd src v = match natField v 28 4 with
      | 1 => b.fwupOpen 0
      | 2 => if decide (b.update.path = some 0) then b.fwupStart (.write (natField v 0 10)) else b.fwupEnd 17
      | 3 => if decide (b.update.path = some 0) then b.fwupStart (.close (b.rd SEC_FWUP_LEN_LENGTH)) else b.fwupEnd 17
      | 4 => b.fwupActivate (v.testBit 27) (resetSource src)
      | 5 => if b.mayRevert then b.fwupStart .revert else b.fwupEnd 19
      | _ => b.fwupAbort 0 := by
  have hcheck : b.rsvCheck src SEC_FWUP_CMD_at v = b := rsvCheck_of_known (known_SEC_FWUP_CMD ▸ hknown)
  simp only [Box.fwupCmd, if_neg hcmd, hbusy, hfw, Bool.false_eq_true, Bool.true_eq_false, or_self, if_false, hcheck]
    <;> rfl

theorem fwupCmd_open : b.fwupCmd src (2 ^ 28) = b.fwupOpen 0 := fwupCmd_named hbusy hfw (by decide) (by decide)

theorem fwupCmd_write (p : BitVec 10) : b.fwupCmd src (2 * 2 ^ 28 + p.toNat)
    = if b.update.path = some 0 then b.fwupStart (.write p.toNat) else b.fwupEnd 17 := by
  obtain ⟨hknown, hcmd, hpiece⟩ := fwupWrite_word p
  rw [fwupCmd_named hbusy hfw hknown (by rw [hcmd]; decide), hcmd, hpiece]
  simp

theorem fwupCmd_close : b.fwupCmd src (3 * 2 ^ 28)
    = if b.update.path = some 0 then b.fwupStart (.close (b.rd SEC_FWUP_LEN_LENGTH)) else b.fwupEnd 17 := by
  rw [fwupCmd_named hbusy hfw (by decide) (by decide), show natField (3 * 2 ^ 28) 28 4 = 3 by decide]
  simp

theorem fwupCmd_activate (mode : Bool) :
    b.fwupCmd src (4 * 2 ^ 28 + b2n mode * 2 ^ 27) = b.fwupActivate mode (resetSource src) := by
  cases mode with
  | false => exact fwupCmd_named hbusy hfw (by decide) (by decide)
  | true => exact fwupCmd_named hbusy hfw (by decide) (by decide)

theorem fwupCmd_revert : b.fwupCmd src (5 * 2 ^ 28) = if b.mayRevert then b.fwupStart .revert else b.fwupEnd 19 :=
  fwupCmd_named hbusy hfw (by decide) (by decide)

theorem fwupCmd_abort : b.fwupCmd src (6 * 2 ^ 28) = b.fwupAbort 0 := fwupCmd_named hbusy hfw (by decide) (by decide)

end command

theorem fwupCmd_noFirmware (hfw : b.firmware = false) (src : Requester) :
    b.fwupCmd src (2 ^ 28) = b.accErrAt SEC_FWUP_CMD_at src := by
  have hcmd : ¬ (natField (2 ^ 28) 28 4 = 0 ∨ 6 < natField (2 ^ 28) 28 4) := by decide
  simp only [Box.fwupCmd, if_neg hcmd, hfw, or_true, if_true]

/-! ### What the commands do -/

/-- Where a session opens. -/
theorem fwupOpen_none (h : b.update.path = none) (path : Nat) : b.fwupOpen path
    = { (b.put SEC_FWUP_STATUS_OPEN true).put SEC_FWUP_STATUS_BUSY true with
        update := { path := some path, op := some .openSlot }, flash := mapClear b.flash (flashKey b.otherSlot 0) imageAt } := by
  simp only [Box.fwupOpen, h]
  rfl

theorem fwupOpen_some {path : Nat} (h : b.update.path ≠ none) : b.fwupOpen path = b.fwupEnd 16 :=
  if_pos (Option.isSome_iff_ne_none.2 h)

theorem bootState_of_firmware (h : b.firmware = true) : b.bootState = 1 := by
  simp only [Box.firmware, Bool.and_eq_true, beq_iff_eq] at h
  exact h.1

/-- KEY_READY changes beside words of the SEC page's nothing but what leaves the block. -/
theorem keyReady_onlyRegs (b : Box) (v : Bool) : onlyRegs b (b.keyReady v) := by
  unfold Box.keyReady
  split
  · exact onlyRegs_refl _
  · exact onlyRegs_trans (put_onlyRegs _ _ _) (raiseInt_onlyRegs _ _ _)

/-- What a management reset leaves, by the parts it touches. -/
theorem mgmtReset_eq (b : Box) (src : Nat) : ∃ r o, b.mgmtReset src = { b with
    aliasKey := 0, aliasCert := [], udsLocked := false, image := {}, update := {}, collector := none, vc6Q := [], eid := 0,
    spdmDoe := {}, spdmMctp := {}, spdmSigs := [], inbox := [], portErrs := [], events := b.queuedEvents, alarm := b.trip,
    regs := r, outbox := o } := by
  have hevent : onlyRegs b (if b.firmware then b.emit (.reply (.pldmEvent 0)) else b) := by
    split
    · exact emit_onlyRegs _ _
    · exact onlyRegs_refl _
  obtain ⟨_, _, h⟩ := onlyRegs_trans hevent (keyReady_onlyRegs _ false)
  simp only [Box.mgmtReset, h]
  exact ⟨_, _, rfl⟩

theorem mgmtReset_bootState (b : Box) (src : Nat) : (b.mgmtReset src).bootState = 0 := by
  simp only [Box.mgmtReset, Box.resetNote, Box.bootState]
  simp (disch := decide) only [rd_put_apart, rd_wr_apart]
  exact rd_wr_lt _ (by decide) (by decide)

/-- ACTIVATE in mode 0 ends at once; in mode 1 a management reset follows, unless another reset is in progress. -/
theorem fwupActivate_false (b : Box) (src : Nat) : b.fwupActivate false src = b.fwupEnd 0 := rfl

theorem fwupActivate_true (hreq : b.resetReq = none) (hstate : b.bootState ≠ 0) (src : Nat) :
    b.fwupActivate true src = (b.fwupEnd 0).mgmtReset src := by
  obtain ⟨r, o, h⟩ := fwupEnd_eq b 0
  have hreq' : (b.fwupEnd 0).resetReq = none := by rw [h]; exact hreq
  have hstate' : (b.fwupEnd 0).bootState ≠ 0 := by rwa [fwupEnd_bootState]
  simp [Box.fwupActivate, Box.mgmtAsk, hreq', hstate']

/-- What ACTIVATE in mode 1 leaves. -/
theorem fwupActivate_resets (hreq : b.resetReq = none) (hstate : b.bootState ≠ 0) (src : Nat) :
    (b.fwupActivate true src).bootState = 0 ∧ (b.fwupActivate true src).update = {}
      ∧ (b.fwupActivate true src).flash = b.flash := by
  rw [fwupActivate_true hreq hstate]
  refine ⟨mgmtReset_bootState _ _, ?_⟩
  obtain ⟨_, _, hend⟩ := fwupEnd_eq b 0
  obtain ⟨_, _, hreset⟩ := mgmtReset_eq (b.fwupEnd 0) src
  rw [hreset, hend]
  exact ⟨rfl, rfl⟩

/-- What ABORT on the path of the session leaves. -/
theorem fwupAbort_mine {path : Nat} (h : b.update.path = some path) :
    (b.fwupAbort path).update = {} ∧ (b.fwupAbort path).is SEC_FWUP_STATUS_OPEN = false
      ∧ (b.fwupAbort path).rd SEC_FWUP_STATUS_REASON = 0 ∧ (b.fwupAbort path).flash = b.flash := by
  have habort : b.fwupAbort path = b.fwupClosed.fwupEnd 0 := by simp [Box.fwupAbort, h]
  obtain ⟨-, -, hreason, hopen⟩ := fwupEnd_shows b.fwupClosed (reason := 0) (by decide)
  obtain ⟨_, _, hend⟩ := fwupEnd_eq b.fwupClosed 0
  rw [habort]
  refine ⟨by rw [hend]; rfl, hopen.trans (is_put b SEC_FWUP_STATUS_OPEN false (by decide) (by decide)), hreason, by rw [hend]; rfl⟩

theorem fwupAbort_other {path : Nat} (h : b.update.path ≠ some path) : b.fwupAbort path = b.fwupEnd 17 := if_pos h

end update

/-! ### PLDM -/

/-- A PLDM command acts while firmware runs and the port has its address. -/
theorem actPldm_run (s : State) (f : Box → Box) (hrun : s.phase = .run) (h : s.i3cReady = true) :
    s.actPldm f = .next (s.onBox f) := by
  rw [Box.i3cReady, Bool.and_eq_true] at h
  rw [State.actPldm, actRun_run s _ hrun, State.onBox, if_pos h.symm]
  rfl

theorem firmware_of_i3cReady {b : Box} (h : b.i3cReady = true) : b.firmware = true := by
  rw [Box.i3cReady, Bool.and_eq_true] at h
  exact h.2

/-- Every place of an image in a slot is beyond the slot's records and below its end. -/
theorem image_flash {b : Box} {image : List Byte} (hlen : image.length ≤ imageMax) {i : Nat} (hi : i < image.length) :
    mapGet flashDflt (b.flashProgram b.otherSlot imageAt (image.take imageMax)).flash (flashKey b.otherSlot (imageAt + i))
      = mapGet flashDflt b.flash (flashKey b.otherSlot (imageAt + i)) &&& image.getD i 0 := by
  have hkey : flashKey b.otherSlot (imageAt + i) = flashKey b.otherSlot imageAt + i := (Nat.add_assoc _ _ _).symm
  rw [List.take_of_length_le hlen, hkey, flashProgram_byte b _ _ hi, List.getD_eq_getElem _ _ hi]

section register

variable {s : State} {src : Requester} (htake : takesWrite s src SEC_FWUP_CMD_at)
include htake

/-- A write of SEC_FWUP_CMD that acts leaves what its operation leaves. -/
theorem actReg_fwup {f : Box → Box} {b : Box} (h : f s.toBox = b) :
    s.actReg SEC_FWUP_CMD_at src f = .next (s.onBox fun _ => b) := by
  obtain ⟨hrun, hreach, hready⟩ := htake
  exact next_onBox (actReg_run s _ _ _ hrun hreach hready) h

/-- A command that may begin begins, and one out of its place ends with its reason. -/
theorem actReg_startOrEnd {f : Box → Box} {c : Prop} [Decidable c] {o : FwOp} {reason : Nat}
    (h : f s.toBox = if c then s.toBox.fwupStart o else s.toBox.fwupEnd reason) (hreason : reason < 256) :
    ∃ t, s.actReg SEC_FWUP_CMD_at src f = .next t ∧ if c
      then t.update = { s.update with op := some o } ∧ t.is SEC_FWUP_STATUS_BUSY = true
        ∧ t = { s with regs := t.regs, update := t.update }
      else t.rd SEC_FWUP_STATUS_REASON = reason := by
  refine ⟨_, actReg_fwup htake h, ?_⟩
  split
  · exact ⟨rfl, fwupStart_busy s.toBox o, rfl⟩
  · obtain ⟨-, -, hshown, -⟩ := fwupEnd_shows s.toBox hreason
    exact hshown

variable (hbusy : s.is SEC_FWUP_STATUS_BUSY = false) (hfw : s.firmware = true)
include hbusy hfw

theorem exec_fwupOpen_none (hpath : s.update.path = none) :
    ∃ t, exec (.fwupOpen src) s = .next t ∧ t.update = { path := some 0, op := some .openSlot }
      ∧ t.is SEC_FWUP_STATUS_BUSY = true ∧ t.is SEC_FWUP_STATUS_OPEN = true ∧ recUsable (t.bootRec t.otherSlot) = false
      ∧ t = { s with regs := t.regs, update := t.update, flash := mapClear s.flash (flashKey s.otherSlot 0) imageAt } := by
  have hopen := (fwupCmd_open hbusy hfw (src := src)).trans (fwupOpen_none hpath 0)
  refine ⟨_, actReg_fwup htake hopen, rfl, is_put _ _ true (by decide) (by decide), ?_, ?_, rfl⟩
  · refine (is_put_apart (s.put SEC_FWUP_STATUS_OPEN true) true (f := SEC_FWUP_STATUS_BUSY) (by decide)).trans ?_
    exact is_put _ _ true (by decide) (by decide)
  · refine erased_not_usable fun k hlo hhi => ?_
    exact (mapGet_mapClear _ _ _ _ _).trans (if_pos ⟨hlo, hhi⟩)

theorem exec_fwupAbort : ∃ t, exec (.fwupAbort src) s = .next t ∧ t.flash = s.flash ∧ if s.update.path = some 0
    then t.update = {} ∧ t.is SEC_FWUP_STATUS_OPEN = false ∧ t.rd SEC_FWUP_STATUS_REASON = 0
    else t.rd SEC_FWUP_STATUS_REASON = 17 := by
  refine ⟨_, actReg_fwup htake (fwupCmd_abort hbusy hfw), ?_⟩
  by_cases hpath : s.update.path = some 0
  · rw [if_pos hpath]
    obtain ⟨hupdate, hopen, hreason, hflash⟩ := fwupAbort_mine hpath
    exact ⟨hflash, hupdate, hopen, hreason⟩
  · rw [if_neg hpath, fwupAbort_other hpath]
    obtain ⟨-, -, hreason, -⟩ := fwupEnd_shows s.toBox (reason := 17) (by decide)
    exact ⟨fwupEnd_flash s.toBox 17, hreason⟩

end register

/-- Settles O12: each command of SEC_FWUP_CMD and each of PLDM reaches its operation of the one session. -/
theorem updateCommandsOpenAndFollowTheSession : Obligations.UpdateCommandsOpenAndFollowTheSession := by
  refine ⟨fun s src htake hbusy => ⟨fun hfw => ?_, fun hfw => ⟨?_, ?_, ?_, ?_, ?_, ?_, ?_⟩⟩,
    fun s hrun hi3c => ⟨?_, ?_, ?_, ?_, ?_, ?_, ?_⟩⟩
  · obtain ⟨honly, hset, hwords⟩ := accErrAt_SEC s.toBox (a := SEC_FWUP_CMD_at) (by decide) src
    refine ⟨_, actReg_fwup htake (fwupCmd_noFirmware hfw src), hset, ?_, hwords⟩
    exact congrArg (fun b => { s with toBox := b }) (anchored_of_onlyRegs honly)
  · by_cases hpath : s.update.path = none
    · simp only [if_pos hpath]
      exact exec_fwupOpen_none htake hbusy hfw hpath
    · simp only [if_neg hpath]
      obtain ⟨-, -, hreason, -⟩ := fwupEnd_shows s.toBox (reason := 16) (by decide)
      exact ⟨_, actReg_fwup htake ((fwupCmd_open hbusy hfw).trans (fwupOpen_some hpath)), hreason, fwupEnd_path s.toBox 16⟩
  · exact fun piece => actReg_startOrEnd htake (fwupCmd_write hbusy hfw piece) (by decide)
  · exact actReg_startOrEnd htake (fwupCmd_close hbusy hfw) (by decide)
  · exact actReg_startOrEnd htake (fwupCmd_revert hbusy hfw) (by decide)
  · exact exec_fwupAbort htake hbusy hfw
  · obtain ⟨-, hdone, hreason, -⟩ := fwupEnd_shows s.toBox (reason := 0) (by decide)
    have hend := (fwupCmd_activate hbusy hfw false (src := src)).trans (fwupActivate_false s.toBox _)
    exact ⟨_, actReg_fwup htake hend, hreason, hdone, fwupEnd_bootState s.toBox 0, fwupEnd_flash s.toBox 0⟩
  · intro hreq
    have hstate : s.bootState ≠ 0 := by rw [bootState_of_firmware hfw]; decide
    exact ⟨_, actReg_fwup htake (fwupCmd_activate hbusy hfw true), fwupActivate_resets hreq hstate _⟩
  · intro hpath hbusy
    have hbox : (if s.is SEC_FWUP_STATUS_BUSY then s.toBox.fwupBusy else s.toBox.fwupOpen 1).componentReply.updateReply
        = (s.wr SEC_FWUP_STATUS_REASON 16).componentReply.updateReply := by
      rw [if_pos hbusy, Box.fwupBusy, if_pos (Option.isSome_iff_ne_none.2 hpath)]
    refine ⟨_, next_onBox (actPldm_run s _ hrun hi3c) hbox, ?_, rfl, rfl⟩
    exact rd_wr_lt s.toBox (by decide) (by decide)
  · intro hpath hbusy
    have hbox : (if s.is SEC_FWUP_STATUS_BUSY then s.toBox.fwupBusy else s.toBox.fwupOpen 1).componentReply.updateReply
        = (s.toBox.fwupOpen 1).componentReply.updateReply := by rw [hbusy]; rfl
    have hopened := fwupOpen_none hpath 1
    have hbusy' : (s.toBox.fwupOpen 1).is SEC_FWUP_STATUS_BUSY = true := by
      rw [hopened]
      exact is_put (s.put SEC_FWUP_STATUS_OPEN true) SEC_FWUP_STATUS_BUSY true (by decide) (by decide)
    have hopen : (s.toBox.fwupOpen 1).is SEC_FWUP_STATUS_OPEN = true := by
      rw [hopened]
      refine (is_put_apart (s.put SEC_FWUP_STATUS_OPEN true) true (f := SEC_FWUP_STATUS_BUSY) (by decide)).trans ?_
      exact is_put s.toBox SEC_FWUP_STATUS_OPEN true (by decide) (by decide)
    have hreason : (s.toBox.fwupOpen 1).rd SEC_FWUP_STATUS_REASON = s.rd SEC_FWUP_STATUS_REASON := by
      rw [hopened]
      refine (rd_put_apart (s.put SEC_FWUP_STATUS_OPEN true) true (f := SEC_FWUP_STATUS_BUSY) (by decide)).trans ?_
      exact rd_put_apart s.toBox true (by decide)
    refine ⟨_, next_onBox (actPldm_run s _ hrun hi3c) hbox, congrArg Box.update hopened, hopen, congrArg Box.flash hopened, ?_⟩
    change .reply (.pldmUpdate (!(s.toBox.fwupOpen 1).is SEC_FWUP_STATUS_BUSY) ((s.toBox.fwupOpen 1).rd SEC_FWUP_STATUS_REASON))
      :: .reply (.pldmComponent 0x000A 0x0001 (s.toBox.fwupOpen 1).image.fwver 256) :: (s.toBox.fwupOpen 1).outbox = _
    rw [hbusy', hreason, hopened]
    rfl
  · intro image hlen hpath hbusy
    have hdone : s.toBox.transferDone true image
        = ({ s.toBox.flashProgram s.otherSlot imageAt (image.take imageMax) with
            update := { s.update with pieces := List.range (ceilDiv image.length 32768) } } : Box).fwupStart
              (.close image.length) := by
      simp [Box.transferDone, hpath, hbusy, Box.flashProgram]
    refine ⟨_, next_onBox (actPldm_run s _ hrun hi3c) (congrArg Box.updateReply hdone), rfl, ?_, fun i hi => image_flash hlen hi⟩
    exact fwupStart_busy _ (.close image.length)
  · exact ⟨_, actPldm_run s _ hrun hi3c, actPldm_run s _ hrun hi3c, rfl⟩
  · intro hbusy
    obtain ⟨-, hdone, hreason, -⟩ := fwupEnd_shows s.toBox.updateReply (reason := 0) (by decide)
    have hbox : (if s.is SEC_FWUP_STATUS_BUSY then s.toBox.updateReply else s.toBox.updateReply.fwupActivate false 4)
        = s.toBox.updateReply.fwupEnd 0 := by rw [hbusy]; rfl
    exact ⟨_, next_onBox (actPldm_run s _ hrun hi3c) hbox, hreason, hdone, fwupEnd_bootState s.toBox.updateReply 0,
      fwupEnd_flash s.toBox.updateReply 0⟩
  · intro hbusy hreq
    have hstate : s.bootState ≠ 0 := by rw [bootState_of_firmware (firmware_of_i3cReady hi3c)]; decide
    obtain ⟨hboot, -, hflash⟩ := fwupActivate_resets (b := s.toBox.updateReply) hreq hstate 4
    have hbox : (if s.is SEC_FWUP_STATUS_BUSY then s.toBox.updateReply else s.toBox.updateReply.fwupActivate true 4)
        = s.toBox.updateReply.fwupActivate true 4 := by rw [hbusy]; rfl
    exact ⟨_, next_onBox (actPldm_run s _ hrun hi3c) hbox, hboot, hflash⟩
  · intro hpath hbusy
    obtain ⟨hupdate, hopen, -, hflash⟩ := fwupAbort_mine hpath
    have hbox : (if s.is SEC_FWUP_STATUS_BUSY then s.toBox else s.toBox.fwupAbort 1).updateReply
        = (s.toBox.fwupAbort 1).updateReply := by rw [hbusy]; rfl
    exact ⟨_, next_onBox (actPldm_run s _ hrun hi3c) hbox, hupdate, hopen, hflash⟩

end Sys2Proof.Proofs
end

section
/-!
# The boot ROM and the confirmation of an image (15_boot_security.md R433 to R440, R447)
-/

namespace Sys2Proof.Proofs

open Sys2Proof Sys2Proof.Machine Sys2Proof.Safety Sys2Proof.Laws

/-- Memory and tables are as before. -/
def KeepsStore (s t : Box) : Prop := t.mem = s.mem ∧ t.tabs = s.tabs

section store

variable {s t u : Box}

theorem KeepsStore.refl (s : Box) : KeepsStore s s := ⟨rfl, rfl⟩

theorem KeepsStore.trans (h : KeepsStore s t) (k : KeepsStore t u) : KeepsStore s u := ⟨k.1.trans h.1, k.2.trans h.2⟩

theorem KeepsStore.of_onlyRegs (h : onlyRegs s t) : KeepsStore s t := by
  obtain ⟨_, _, rfl⟩ := h
  exact ⟨rfl, rfl⟩

end store

/-! ### Choosing a slot -/

theorem bootRec_of_flash {s t : Box} (h : t.flash = s.flash) (slot : Nat) : t.bootRec slot = s.bootRec slot := by
  rw [Box.bootRec, Box.bootRec, Box.flashRead, Box.flashRead, h]

theorem slotOrder_of_flash {s t : Box} (h : t.flash = s.flash) : t.slotOrder = s.slotOrder := by
  delta Box.slotOrder
  rw [bootRec_of_flash h, bootRec_of_flash h]

theorem slotOrder_lt_two (s : Box) : ∀ slot ∈ s.slotOrder, slot < 2 := by
  delta Box.slotOrder
  generalize s.bootRec 0 = a
  generalize s.bootRec 1 = b
  dsimp only
  split
  · split <;> decide
  · decide
  · decide
  · decide

theorem senseFuses_onlyRegs (s : Box) : onlyRegs s s.senseFuses :=
  onlyRegs_trans (onlyRegs_trans (wr_onlyRegs _ _ _) (wr_onlyRegs _ _ _)) (showFuses_onlyRegs _)

theorem senseFuses_straps (s : Box) : s.senseFuses.straps = s.straps := straps_of_onlyRegs (senseFuses_onlyRegs s)

/-- `t` is `s` but for flash and register words. -/
def onlyFlash (s t : Box) : Prop := ∃ fl r, t = { s with flash := fl, regs := r }

theorem onlyFlash_refl (s : Box) : onlyFlash s s := ⟨s.flash, s.regs, rfl⟩

theorem onlyFlash_trans {s t u : Box} (h : onlyFlash s t) (k : onlyFlash t u) : onlyFlash s u := by
  obtain ⟨_, _, rfl⟩ := h
  obtain ⟨fl, r, rfl⟩ := k
  exact ⟨fl, r, rfl⟩

theorem flashProgram_onlyFlash (s : Box) (cs off : Nat) (bs : List Byte) : onlyFlash s (s.flashProgram cs off bs) :=
  ⟨_, s.regs, rfl⟩

theorem wr_onlyFlash (s : Box) (f : Fld) (v : Nat) : onlyFlash s (s.wr f v) := ⟨s.flash, _, rfl⟩

/-- A slot that is tried changes flash and register words alone. -/
theorem trySlot_onlyFlash (s : Box) (slot : Nat) : onlyFlash s (s.trySlot slot).2 := by
  have hspend : onlyFlash s (if leAt (s.bootRec slot) 13 1 = 0xFF then s.spendTry slot else s) := by
    split
    · exact flashProgram_onlyFlash _ _ _ _
    · exact onlyFlash_refl s
  simp only [Box.trySlot]
  generalize (if leAt (s.bootRec slot) 13 1 = 0xFF then s.spendTry slot else s) = b at hspend ⊢
  split
  · exact hspend
  · exact onlyFlash_trans hspend (onlyFlash_trans (flashProgram_onlyFlash _ _ _ _) (wr_onlyFlash _ _ _))

theorem udsLocked_of_onlyFlash {s t : Box} (h : onlyFlash s t) : t.udsLocked = s.udsLocked := by
  obtain ⟨_, _, rfl⟩ := h
  rfl

theorem KeepsStore.of_onlyFlash {s t : Box} (h : onlyFlash s t) : KeepsStore s t := by
  obtain ⟨_, _, rfl⟩ := h
  exact ⟨rfl, rfl⟩

/-! ### The boot stops -/

theorem bootStop_shows (s : Box) {v : Nat} (h : v < 256) : (s.bootStop v).bootState = v ∧ (s.bootStop v).alarm = true :=
  ⟨rd_wr_lt s (f := SEC_BOOT_STATUS_BOOT_STATE) (by decide) h, rfl⟩

theorem bootStop_keepsStore (s : Box) (v : Nat) : KeepsStore s (s.bootStop v) := ⟨rfl, rfl⟩

/-! ### Control passes to an image -/

theorem moduleMove_onlyRegs (s : Box) (e : Nat) (ready : Bool) : onlyRegs s (s.moduleMove e ready) := by
  refine onlyRegs_trans ?_ (emit_onlyRegs _ _)
  split
  · exact emit_onlyRegs _ _
  · exact onlyRegs_refl _

theorem moduleMove_sameWords (s : Box) (e : Nat) (ready : Bool) : sameWords [] s (s.moduleMove e ready) := by
  refine sameWords_trans ?_ (emit_sameWords _ _)
  split
  · exact emit_sameWords _ _
  · exact sameWords_refl _ _

theorem pldmNotify_onlyRegs (s : Box) : onlyRegs s s.pldmNotify := by
  unfold Box.pldmNotify
  split
  · exact emit_onlyRegs _ _
  · exact onlyRegs_refl _

theorem pldmNotify_sameWords (s : Box) : sameWords [] s s.pldmNotify := by
  unfold Box.pldmNotify
  split
  · exact emit_sameWords _ _
  · exact sameWords_refl _ _

/-- The words that show whether memory devices train. -/
def memTrainWords : List Nat := (List.range 16).flatMap fun d => [MEM_DEV_STATUS_at (d / 2) (d % 2), MEM_PLAN_STATUS_at (d / 2)]

theorem memTrain_onlyRegs (s : Box) : onlyRegs s s.memTrain := by
  refine foldl_onlyRegs _ (fun b d _ => ?_) s
  dsimp only
  split
  · exact onlyRegs_refl _
  · split
    · exact onlyRegs_trans (wr_onlyRegs _ _ _) (put_onlyRegs _ _ _)
    · exact wr_onlyRegs _ _ _

theorem memTrain_sameWords (s : Box) : sameWords memTrainWords s s.memTrain := by
  refine foldl_sameWords _ (fun b d hd => ?_) s
  have hdev : MEM_DEV_STATUS_at (d / 2) (d % 2) ∈ memTrainWords := List.mem_flatMap.2 ⟨d, hd, by simp⟩
  have hplan : MEM_PLAN_STATUS_at (d / 2) ∈ memTrainWords := List.mem_flatMap.2 ⟨d, hd, by simp⟩
  have hwr (v : Nat) : sameWords memTrainWords b (b.wr (MEM_DEV_STATUS_STATE (d / 2) (d % 2)) v) :=
    sameWords_mono (wr_sameWords _ _ _) fun a ha => List.mem_singleton.1 ha ▸ hdev
  dsimp only
  split
  · exact sameWords_refl _ _
  · split
    · exact sameWords_trans (hwr 3) (sameWords_mono (put_sameWords _ _ _) fun a ha => List.mem_singleton.1 ha ▸ hplan)
    · exact hwr 1

theorem passRestart_onlyRegs (s : Box) : onlyRegs s s.passRestart := by
  unfold Box.passRestart
  split
  · exact wr_onlyRegs _ _ _
  · exact onlyRegs_refl _

theorem passRestart_sameWords (s : Box) : sameWords [MGT_RECOVERY_at] s s.passRestart := by
  unfold Box.passRestart
  split
  · exact wr_sameWords s MGT_RECOVERY_GEN _
  · exact sameWords_refl _ _

theorem windowStart_onlyRegs (s : Box) : onlyRegs s s.windowStart := by
  unfold Box.windowStart
  split
  · exact onlyRegs_refl _
  · split
    · exact onlyRegs_refl _
    · exact wr_onlyRegs _ _ _

theorem windowStart_sameWords (s : Box) : sameWords [CXL_WIN_CFG_at] s s.windowStart := by
  unfold Box.windowStart
  split
  · exact sameWords_refl _ _
  · split
    · exact sameWords_refl _ _
    · exact wr_sameWords s CXL_WIN_CFG_UNITS _

/-- The management lane's start changes what leaves the block and the port's address. -/
theorem netStart_eq (s : Box) : ∃ o a, s.netStart = { s with outbox := o, ip := a } := ⟨_, _, rfl⟩

/-- Every page is READY. -/
def pagesReady (s : Box) : Box := allPages.foldl (fun (b : Box) p => b.put (PAGE_STATUS_READY p) true) s

/-- The words that firmware's start-up changes after the pages are READY. -/
def startWords : List Nat := memTrainWords ++ [MGT_RECOVERY_at] ++ [CXL_WIN_CFG_at]

/-- Firmware starts memory training, a recovery pass in progress, the host window and the management lane. -/
def startUp (s : Box) : Box := (s.memTrain.passRestart.windowStart.netStart).pldmNotify

theorem startUp_eq (s : Box) : ∃ r o a, startUp s = { s with regs := r, outbox := o, ip := a } := by
  obtain ⟨_, _, h⟩ := onlyRegs_trans (onlyRegs_trans (memTrain_onlyRegs s) (passRestart_onlyRegs _)) (windowStart_onlyRegs _)
  obtain ⟨_, _, hnet⟩ := netStart_eq s.memTrain.passRestart.windowStart
  obtain ⟨_, _, hnotify⟩ := pldmNotify_onlyRegs s.memTrain.passRestart.windowStart.netStart
  rw [startUp, hnotify, hnet, h]
  exact ⟨_, _, _, rfl⟩

theorem startUp_sameWords (s : Box) : sameWords startWords s (startUp s) := by
  have h := sameWords_append (sameWords_append (memTrain_sameWords s) (passRestart_sameWords _)) (windowStart_sameWords _)
  have hnet : sameWords startWords s s.memTrain.passRestart.windowStart.netStart := h
  exact sameWords_trans hnet (sameWords_mono (pldmNotify_sameWords _) (by simp))

theorem pagesReady_onlyRegs (s : Box) : onlyRegs s (pagesReady s) := foldl_onlyRegs _ (fun _ _ _ => put_onlyRegs _ _ _) s

theorem pagesReady_sameWords (s : Box) : sameWords (allPages.map fun p => pageBase p + 8) s (pagesReady s) :=
  foldl_sameWords _ (fun b p hp => sameWords_mono (put_sameWords b (PAGE_STATUS_READY p) true)
    fun _ ha => List.mem_map.2 ⟨p, hp, (List.mem_singleton.1 ha).symm⟩) s

theorem startWords_mod : ∀ a ∈ startWords, a % 0x10000 ≠ 8 := by decide

theorem readyWord_mod (p : Page) : (pageBase p + 8) % 0x10000 = 8 := by
  have := pageBase_mod p
  omega

/-- A READY bit that is set stays set while others are. -/
theorem is_ready_put {b : Box} {p : Page} (h : b.is (PAGE_STATUS_READY p) = true) (q : Page) :
    (b.put (PAGE_STATUS_READY q) true).is (PAGE_STATUS_READY p) = true := by
  by_cases hpq : (PAGE_STATUS_READY p).addr = (PAGE_STATUS_READY q).addr
  · have hfld : PAGE_STATUS_READY p = PAGE_STATUS_READY q := congrArg (Fld.mk · 0 1) hpq
    rw [hfld]
    exact is_put b _ true (show 0 + 1 ≤ 32 by decide) (show 0 < 1 by decide)
  · rw [is_put_word b _ _ true hpq, h]

theorem pagesReady_ready (s : Box) {p : Page} (hp : p ∈ allPages) : (pagesReady s).is (PAGE_STATUS_READY p) = true := by
  have key (l : List Page) (b : Box) (h : b.is (PAGE_STATUS_READY p) = true ∨ p ∈ l) :
      (l.foldl (fun (b : Box) p => b.put (PAGE_STATUS_READY p) true) b).is (PAGE_STATUS_READY p) = true := by
    induction l generalizing b with
    | nil => simpa using h
    | cons q l ih =>
      refine ih _ ?_
      obtain h | h := h
      · exact .inl (is_ready_put h q)
      · obtain rfl | h := List.mem_cons.1 h
        · exact .inl (is_put b _ true (show 0 + 1 ≤ 32 by decide) (show 0 < 1 by decide))
        · exact .inr h
  exact key allPages s (.inr hp)

/-- The identity keys as step 5 leaves them: what changes besides is the SEC page's. -/
theorem lockSecrets_eq (s : Box) : ∃ r o, s.lockSecrets
    = { s with deviceKey := 0, udsLocked := true, sealHash := s.lastSealHash, sealLast := none, regs := r, outbox := o } := by
  obtain ⟨r, o, h⟩ := keyReady_onlyRegs
    ({ s with deviceKey := 0, udsLocked := true, sealHash := s.lastSealHash, sealLast := none } : Box) true
  exact ⟨r, o, h⟩

theorem keyReady_shows (s : Box) (v : Bool) : (s.keyReady v).is SEC_SEAL_STATUS_KEY_READY = v := by
  unfold Box.keyReady
  split
  · assumption
  · rw [is_raiseInt _ _ _ (by decide), is_put _ _ _ (by decide) (by decide)]

theorem deriveKeys_unlocked {s : Box} (h : s.udsLocked = false) (slot : Nat) :
    (s.deriveKeys slot).image.slot = slot ∧ (s.deriveKeys slot).aliasKey = aliasOf (s.measure slot) := by
  simp [Box.deriveKeys, h]

theorem deriveKeys_keepsStore (s : Box) (slot : Nat) : KeepsStore s (s.deriveKeys slot) := by
  unfold Box.deriveKeys
  split <;> exact ⟨rfl, rfl⟩

/-- SEC_BOOT_STATUS of the image that control passes to. -/
def bootStatus (s : Box) (svn : Nat) (confirmed fallback : Bool) (slot : Nat) : Box :=
  (((((s.wr SEC_BOOT_STATUS_SVN svn).put SEC_BOOT_STATUS_CONFIRMED confirmed).put SEC_BOOT_STATUS_TRIAL (!confirmed)).put
    SEC_BOOT_STATUS_FALLBACK fallback).wr SEC_BOOT_STATUS_SLOT slot).wr SEC_BOOT_STATUS_BOOT_STATE 1

theorem bootStatus_onlyRegs (s : Box) (svn : Nat) (confirmed fallback : Bool) (slot : Nat) :
    onlyRegs s (bootStatus s svn confirmed fallback slot) :=
  onlyRegs_trans (onlyRegs_trans (onlyRegs_trans (onlyRegs_trans (onlyRegs_trans (wr_onlyRegs _ _ _) (put_onlyRegs _ _ _))
    (put_onlyRegs _ _ _)) (put_onlyRegs _ _ _)) (wr_onlyRegs _ _ _)) (wr_onlyRegs _ _ _)

theorem bootStatus_shows (s : Box) (svn : Nat) (confirmed fallback : Bool) {slot : Nat} (h : slot < 2) :
    let t := bootStatus s svn confirmed fallback slot
    t.rd SEC_BOOT_STATUS_BOOT_STATE = 1 ∧ t.rd SEC_BOOT_STATUS_SLOT = slot ∧ t.is SEC_BOOT_STATUS_FALLBACK = fallback
      ∧ t.is SEC_SEAL_STATUS_KEY_READY = s.is SEC_SEAL_STATUS_KEY_READY := by
  refine ⟨rd_wr_lt _ (by decide) (by decide), ?_, ?_, ?_⟩
  · simp (disch := decide) only [bootStatus, rd_wr_apart]
    exact rd_wr_lt _ (by decide) h
  · simp (disch := decide) only [bootStatus, is_wr_apart, is_put]
  · simp (disch := decide) only [bootStatus, is_wr_apart, is_put_apart]

/-- Firmware's start, in its parts. -/
theorem handOver_parts (s : Box) (slot : Nat) (fallback : Bool) : ∃ svn confirmed, s.handOver slot fallback
    = startUp (pagesReady ((List.range 16).foldl (fun b e => b.moduleMove e true)
        (bootStatus (s.deriveKeys slot).lockSecrets svn confirmed fallback slot))) := ⟨_, _, rfl⟩

section handOver

variable (s : Box) (slot : Nat) (fallback : Bool)

/-- What control passing to an image leaves. -/
theorem handOver_eq : ∃ r o a, s.handOver slot fallback = { s.deriveKeys slot with
    deviceKey := 0, udsLocked := true, sealHash := (s.deriveKeys slot).lastSealHash, sealLast := none,
    regs := r, outbox := o, ip := a } := by
  obtain ⟨svn, confirmed, h⟩ := handOver_parts s slot fallback
  obtain ⟨_, _, hlock⟩ := lockSecrets_eq (s.deriveKeys slot)
  obtain ⟨_, _, hregs⟩ := onlyRegs_trans (onlyRegs_trans
    (bootStatus_onlyRegs (s.deriveKeys slot).lockSecrets svn confirmed fallback slot)
    (foldl_onlyRegs (List.range 16) (fun b e _ => moduleMove_onlyRegs b e true) _)) (pagesReady_onlyRegs _)
  obtain ⟨_, _, _, hstart⟩ := startUp_eq (pagesReady ((List.range 16).foldl (fun b e => b.moduleMove e true)
    (bootStatus (s.deriveKeys slot).lockSecrets svn confirmed fallback slot)))
  rw [h, hstart, hregs, hlock]
  exact ⟨_, _, _, rfl⟩

theorem handOver_keepsStore : KeepsStore s (s.handOver slot fallback) := by
  obtain ⟨_, _, _, h⟩ := handOver_eq s slot fallback
  rw [h]
  exact deriveKeys_keepsStore s slot

theorem handOver_ready {p : Page} (hp : p ∈ allPages) : (s.handOver slot fallback).is (PAGE_STATUS_READY p) = true := by
  have hword : (PAGE_STATUS_READY p).addr ∉ startWords := fun h => startWords_mod _ h (readyWord_mod p)
  obtain ⟨_, _, h⟩ := handOver_parts s slot fallback
  rw [h, is_of_sameWords (startUp_sameWords _) hword]
  exact pagesReady_ready _ hp

/-- SEC_BOOT_STATUS and SEC_SEAL_STATUS read as the hand-over wrote them. -/
theorem handOver_status (hslot : slot < 2) :
    (s.handOver slot fallback).bootState = 1 ∧ (s.handOver slot fallback).rd SEC_BOOT_STATUS_SLOT = slot
      ∧ (s.handOver slot fallback).is SEC_BOOT_STATUS_FALLBACK = fallback
      ∧ (s.handOver slot fallback).is SEC_SEAL_STATUS_KEY_READY = true := by
  obtain ⟨svn, confirmed, h⟩ := handOver_parts s slot fallback
  have hwords := sameWords_append (sameWords_append
    (foldl_sameWords (List.range 16) (fun b e _ => moduleMove_sameWords b e true)
      (bootStatus (s.deriveKeys slot).lockSecrets svn confirmed fallback slot)) (pagesReady_sameWords _)) (startUp_sameWords _)
  rw [← h] at hwords
  have hready {a : Nat} (ha : a % 0x10000 ≠ 8) : a ∉ allPages.map fun p => pageBase p + 8 := by
    simp only [List.mem_map, not_exists, not_and]
    rintro p - rfl
    exact ha (readyWord_mod p)
  have hmem {a : Nat} (ha : a % 0x10000 ≠ 8) (hstart : a ∉ startWords) :
      a ∉ ([] ++ allPages.map fun p => pageBase p + 8) ++ startWords := by
    simp only [List.nil_append, List.mem_append, not_or]
    exact ⟨hready ha, hstart⟩
  obtain ⟨hstate, hs, hfall, hkey⟩ := bootStatus_shows (s.deriveKeys slot).lockSecrets svn confirmed fallback hslot
  refine ⟨?_, ?_, ?_, ?_⟩
  · exact (rd_of_sameWords hwords (hmem (by decide) (by decide))).trans hstate
  · exact (rd_of_sameWords hwords (hmem (by decide) (by decide))).trans hs
  · exact (is_of_sameWords hwords (hmem (by decide) (by decide))).trans hfall
  · exact (is_of_sameWords hwords (hmem (by decide) (by decide))).trans (hkey.trans (keyReady_shows _ true))

end handOver

/-! ### A run of the ROM -/

theorem bootSlots_keepsStore (l : List Nat) (s : Box) (fallback : Bool) : KeepsStore s (s.bootSlots l fallback) := by
  induction l generalizing s fallback with
  | nil => exact bootStop_keepsStore s 2
  | cons slot rest ih =>
    have htry := KeepsStore.of_onlyFlash (trySlot_onlyFlash s slot)
    simp only [Box.bootSlots]
    split
    · exact htry.trans (handOver_keepsStore _ _ _)
    · exact htry.trans (ih _ _)

section run

variable {s : Box} {rom : RomRun} (h0 : s.bootState = 0)
include h0

theorem bootRun_keepsStore : KeepsStore s (s.bootRun rom) := by
  have hsense := KeepsStore.of_onlyRegs (senseFuses_onlyRegs s)
  have hput (b : Box) (f : Fld) (v : Bool) : KeepsStore b (b.put f v) := .of_onlyRegs (put_onlyRegs b f v)
  simp only [Box.bootRun, h0, ne_eq, not_true_eq_false, if_false]
  split
  · exact bootStop_keepsStore _ _
  · split
    · exact hsense.trans (bootStop_keepsStore _ _)
    · split
      · exact hsense.trans (bootStop_keepsStore _ _)
      · split
        · exact (hsense.trans (hput _ _ _)).trans ((KeepsStore.of_onlyRegs (wr_onlyRegs _ _ _)).trans (bootStop_keepsStore _ _))
        · exact (hsense.trans (hput _ _ _)).trans (bootSlots_keepsStore _ _ _)

theorem bootRun_fuseFail (h : rom.fuseOk = false) : s.bootRun rom = s.bootStop 4 := by simp [Box.bootRun, h0, h]

variable (hfuse : rom.fuseOk = true)
include hfuse

theorem bootRun_testFail (h : rom.testOk = false) : s.bootRun rom = s.senseFuses.bootStop 3 := by
  simp [Box.bootRun, h0, hfuse, h]

variable (htest : rom.testOk = true)
include htest

theorem bootRun_recovery (h : s.straps.testBit 1 = true) : s.bootRun rom = s.senseFuses.bootStop 2 := by
  simp [Box.bootRun, h0, hfuse, htest, senseFuses_straps, h]

variable (hstrap : s.straps.testBit 1 = false)
include hstrap

theorem bootRun_slots : s.bootRun rom =
    let b := s.senseFuses.put SEC_BOOT_STATUS_OCTAL_FAIL (!(rom.octalA && rom.octalB))
    if s.slotOrder = [] ∧ (recValid (b.bootRec 0) && recValid (b.bootRec 1)) = false then
      (b.wr SEC_BOOT_STATUS_REASON 10).bootStop 2
    else b.bootSlots s.slotOrder false := by
  have horder : (s.senseFuses.put SEC_BOOT_STATUS_OCTAL_FAIL (!(rom.octalA && rom.octalB))).slotOrder = s.slotOrder :=
    slotOrder_of_flash (flash_of_onlyRegs (onlyRegs_trans (senseFuses_onlyRegs s) (put_onlyRegs _ _ _)))
  simp only [Box.bootRun, h0, ne_eq, not_true_eq_false, if_false, hfuse, htest, senseFuses_straps, hstrap, horder, Bool.true_eq_false,
    Bool.false_eq_true]

theorem bootRun_noSlot (h : s.slotOrder = []) : (s.bootRun rom).bootState = 2 ∧ (s.bootRun rom).alarm = true := by
  rw [bootRun_slots h0 hfuse htest hstrap]
  simp only [h, true_and]
  split <;> exact bootStop_shows _ (by decide)

theorem bootRun_firstSlot {slot : Nat} {rest : List Nat} (h : s.slotOrder = slot :: rest) : s.bootRun rom =
    let b := s.senseFuses.put SEC_BOOT_STATUS_OCTAL_FAIL (!(rom.octalA && rom.octalB))
    if (b.trySlot slot).1 = 0 then (b.trySlot slot).2.handOver slot false else (b.trySlot slot).2.bootSlots rest true := by
  rw [bootRun_slots h0 hfuse htest hstrap]
  simp only [h, reduceCtorEq, false_and, if_false, Box.bootSlots]

end run

/-! ### Confirmation -/

theorem fwConfirm_of (s : Box) (hfw : s.firmware = true) (hok : s.startupOk = true) :
    s.fwConfirm = (s.flashProgram s.image.slot 13 [0]).put SEC_BOOT_STATUS_CONFIRMED true := by
  simp [Box.fwConfirm, hfw, hok]

theorem fwConfirm_not {s : Box} (h : s.firmware = false ∨ s.startupOk = false) : s.fwConfirm = s := by
  obtain h | h := h <;> simp [Box.fwConfirm, h]

/-- What acts on the block and leaves it leaves the state. -/
theorem onBox_of_eq {s : State} {f : Box → Box} (h : f s.toBox = s.toBox) : s.onBox f = s := by
  rw [State.onBox, h]
  rfl

/-- Settles O10: the ROM's verdict is read off the branch of `Box.bootRun` that the fuses, the self-test, the straps and the slots
choose. -/
theorem bootVerdictIsReachedAndConfirmed : Obligations.BootVerdictIsReachedAndConfirmed := by
  refine ⟨fun s rom hrun => ⟨fun hstate => ?_, fun hstate => ?_⟩, fun s hrun => ⟨fun hfw hok => ?_, fun h => ?_⟩⟩
  · refine (act_run s _ hrun).trans (congrArg _ (onBox_of_eq ?_))
    exact if_pos hstate
  · obtain ⟨hmem, htabs⟩ := bootRun_keepsStore hstate (rom := rom)
    refine ⟨_, act_run s _ hrun, rfl, hmem, htabs, fun hfuse => ?_, fun hfuse htest => ?_, fun hfuse htest hstrap => ?_,
      fun hfuse htest hstrap => ⟨fun hnone => ?_, fun slot rest horder => ?_⟩⟩
    · have h := bootStop_shows s.toBox (v := 4) (by decide)
      rwa [← bootRun_fuseFail hstate hfuse] at h
    · have h := bootStop_shows s.toBox.senseFuses (v := 3) (by decide)
      rwa [← bootRun_testFail hstate hfuse htest] at h
    · have h := bootStop_shows s.toBox.senseFuses (v := 2) (by decide)
      rwa [← bootRun_recovery hstate hfuse htest hstrap] at h
    · exact bootRun_noSlot hstate hfuse htest hstrap hnone
    · have hfirst := bootRun_firstSlot hstate hfuse htest hstrap horder
      have hslot : slot < 2 := slotOrder_lt_two s.toBox slot (horder ▸ List.mem_cons_self)
      have hlocked : (s.senseFuses.put SEC_BOOT_STATUS_OCTAL_FAIL (!(rom.octalA && rom.octalB))).udsLocked = s.udsLocked :=
        udsLocked_of_onlyRegs (onlyRegs_trans (senseFuses_onlyRegs s.toBox) (put_onlyRegs _ _ _))
      revert hfirst hlocked
      generalize s.senseFuses.put SEC_BOOT_STATUS_OCTAL_FAIL (!(rom.octalA && rom.octalB)) = b
      intro hfirst hlocked
      dsimp only at hfirst ⊢
      have htry := udsLocked_of_onlyFlash (trySlot_onlyFlash b slot)
      revert htry hfirst
      generalize b.trySlot slot = r
      intro hfirst htry
      split
      · next hgood =>
        rw [if_pos hgood] at hfirst
        obtain ⟨hstate, hs, hfall, hkey⟩ := handOver_status r.2 slot false hslot
        obtain ⟨_, _, _, hparts⟩ := handOver_eq r.2 slot false
        rw [onBox_toBox, hfirst]
        refine ⟨hstate, hs, hfall, fun hopen => ?_, ?_, ?_, hkey, fun p hp => handOver_ready r.2 slot false hp⟩
        · rw [anchored_image, anchored_aliasKey, hparts]
          exact deriveKeys_unlocked (htry.trans (hlocked.trans hopen)) slot
        · rw [anchored_udsLocked, hparts]
        · rw [anchored_deviceKey, hparts]
      · next hbad =>
        rw [if_neg hbad] at hfirst
        rintro rfl
        rw [onBox_toBox, hfirst]
        exact bootStop_shows r.2 (v := 2) (by decide)
  · refine ⟨_, next_onBox (actRun_run s _ hrun) (fwConfirm_of s.toBox hfw hok), ?_, ?_, ?_, rfl, ?_⟩
    · exact is_put _ _ true (by decide) (by decide)
    · have h := flashProgram_byte s.toBox s.image.slot 13 (bs := [0]) (i := 0) (by decide)
      exact h.trans BitVec.and_zero
    · intro k hk
      refine flashProgram_other s.toBox s.image.slot 13 ?_
      rw [List.length_singleton]
      omega
    · exact put_sameWords (s.toBox.flashProgram s.image.slot 13 [0]) SEC_BOOT_STATUS_CONFIRMED true
  · exact (actRun_run s _ hrun).trans (congrArg _ (onBox_of_eq (fwConfirm_not h)))

end Sys2Proof.Proofs
end

section
/-!
# Power-on, cold, warm and narrow resets (15_boot_security.md R427 to R432; 17_electrical_package.md R468 to R480)
-/

namespace Sys2Proof.Proofs

open Sys2Proof Sys2Proof.Machine Sys2Proof.Safety Sys2Proof.Laws

/-! ### What every reset writes -/

/-- The registers that a reset of the whole part writes over reset values: pins, fuses and its own kind and source. -/
def stamped (s : Box) (kind src : Nat) : Box := s.pinWords.resetNote kind src

theorem pinWords_onlyRegs (s : Box) : onlyRegs s s.pinWords :=
  onlyRegs_trans (setWord_onlyRegs _ _ _) (put_onlyRegs _ _ _)

theorem resetNote_onlyRegs (s : Box) (kind src : Nat) : onlyRegs s (s.resetNote kind src) :=
  onlyRegs_trans (wr_onlyRegs _ _ _) (wr_onlyRegs _ _ _)

theorem resetNote_sameWords (s : Box) (kind src : Nat) : sameWords [SEC_RESET_STATUS_at] s (s.resetNote kind src) :=
  sameWords_trans (wr_sameWords s SEC_RESET_STATUS_LAST kind) (wr_sameWords _ SEC_RESET_STATUS_SOURCE src)

theorem resetNote_shows (s : Box) (kind src : Nat) : (s.resetNote kind src).rd SEC_RESET_STATUS_LAST = kind % 8
    ∧ (s.resetNote kind src).rd SEC_RESET_STATUS_SOURCE = src % 16 := by
  refine ⟨?_, rd_wr _ SEC_RESET_STATUS_SOURCE _ (by decide)⟩
  simp (disch := decide) only [Box.resetNote, rd_wr_apart]
  exact rd_wr _ SEC_RESET_STATUS_LAST _ (by decide)

/-- What a stamp leaves: no field of the block but register words. -/
theorem stamped_eq (s : Box) (kind src : Nat) : ∃ r, stamped s kind src = { s with regs := r } := ⟨_, rfl⟩

theorem stamped_sameWords (s : Box) (kind src : Nat) :
    sameWords [SEC_RESET_STATUS_at, SEC_FUSE_STATUS_at, PWR_STRAPS_at] s (stamped s kind src) := by
  have hpins : sameWords [SEC_RESET_STATUS_at, SEC_FUSE_STATUS_at, PWR_STRAPS_at] s s.pinWords :=
    sameWords_trans (sameWords_mono (setWord_sameWords s PWR_STRAPS_at _) (by simp))
      (sameWords_mono (put_sameWords _ SEC_FUSE_STATUS_FUSE_RAIL _) (by decide))
  exact sameWords_trans hpins (sameWords_mono (resetNote_sameWords _ kind src) (by simp))

theorem stamped_shows (s : Box) (kind src : Nat) :
    (stamped s kind src).word PWR_STRAPS_at = BitVec.ofNat 32 s.straps
      ∧ (stamped s kind src).rd SEC_RESET_STATUS_LAST = kind % 8
      ∧ (stamped s kind src).rd SEC_RESET_STATUS_SOURCE = src % 16 := by
  refine ⟨?_, resetNote_shows _ _ _⟩
  rw [stamped, resetNote_sameWords _ _ _ _ (by decide), Box.pinWords, put_sameWords _ _ _ _ (by decide), word_setWord]

/-! ### A power-on reset -/

/-- The block as a power-on reset finds it, but for its phase and the words that show pins and fuses. -/
def powered (s : Box) (ph : Phase) : Box := { { s.fuseBreak with trip := false }.bare with phase := ph }

theorem powerOn_eq (s : Box) : s.powerOn = stamped (powered s (if s.mayRun then .run else .held)) 0 0 := by
  rw [← fuseBreak_mayRun s]
  rfl

theorem fuseBreak_flash (s : Box) : s.fuseBreak.flash = s.flash := by
  unfold Box.fuseBreak
  split <;> rfl

theorem fuseBreak_straps (s : Box) : s.fuseBreak.straps = s.straps := by
  unfold Box.fuseBreak
  split <;> rfl

theorem fuseBreak_none {s : Box} (h : s.fuseOp = none) : s.fuseBreak = s := by
  unfold Box.fuseBreak
  rw [h]

/-- What a power-on reset empties. -/
theorem powerOn_empty (s : Box) : s.powerOn.raw = 0 ∧ s.powerOn.tabs = [] ∧ s.powerOn.ctrs = [] ∧ s.powerOn.mem = []
    ∧ s.powerOn.ports = [] ∧ s.powerOn.descs = [] ∧ s.powerOn.streams = [] := by
  obtain ⟨_, h⟩ := stamped_eq (powered s (if s.mayRun then .run else .held)) 0 0
  rw [powerOn_eq, h]
  exact ⟨rfl, rfl, rfl, rfl, rfl, rfl, rfl⟩

/-- What it keeps: the pins, flash and, with no operation in progress, the fuses. -/
theorem powerOn_keeps (s : Box) : s.powerOn.pwrOk = s.pwrOk ∧ s.powerOn.railsBad = s.railsBad
    ∧ s.powerOn.refLost = s.refLost ∧ s.powerOn.straps = s.straps ∧ s.powerOn.flash = s.flash
    ∧ (s.fuseOp = none → s.powerOn.fuses = s.fuses) := by
  obtain ⟨-, hpwr, hrails, href⟩ := fuseBreak_pins s
  obtain ⟨_, h⟩ := stamped_eq (powered s (if s.mayRun then .run else .held)) 0 0
  rw [powerOn_eq, h]
  refine ⟨hpwr, hrails, href, fuseBreak_straps s, fuseBreak_flash s, fun hop => ?_⟩
  change s.fuseBreak.fuses = s.fuses
  rw [fuseBreak_none hop]

theorem powerOn_shows (s : Box) : s.powerOn.word PWR_STRAPS_at = BitVec.ofNat 32 s.straps
    ∧ s.powerOn.rd SEC_RESET_STATUS_LAST = 0
    ∧ sameWords [SEC_RESET_STATUS_at, SEC_FUSE_STATUS_at, PWR_STRAPS_at] State.reset.toBox s.powerOn := by
  obtain ⟨hstraps, hlast, -⟩ := stamped_shows (powered s (if s.mayRun then .run else .held)) 0 0
  have hwords := stamped_sameWords (powered s (if s.mayRun then .run else .held)) 0 0
  rw [powerOn_eq]
  refine ⟨hstraps.trans ?_, hlast, hwords⟩
  exact congrArg (BitVec.ofNat 32) (fuseBreak_straps s)

/-- As the device leaves reset it has sampled its straps. -/
theorem powerRelease_run {s : Box} (h : s.mayRun = true) (straps : Nat) :
    s.powerRelease straps = { s with straps := straps }.powerOn := by rw [Box.powerRelease, if_pos h]

/-- What the release of a device that may run leaves. -/
theorem powerRelease_shows {s : Box} (h : s.mayRun = true) (straps : Nat) :
    (s.powerRelease straps).phase = .run ∧ (s.powerRelease straps).straps = straps
      ∧ (s.powerRelease straps).word PWR_STRAPS_at = BitVec.ofNat 32 straps := by
  rw [powerRelease_run h, powerOn_phase]
  obtain ⟨-, -, -, hstraps, -⟩ := powerOn_keeps { s with straps := straps }
  obtain ⟨hword, -⟩ := powerOn_shows { s with straps := straps }
  exact ⟨if_pos h, hstraps, hword⟩

theorem mayRun_iff (s : Box) : s.mayRun = true ↔ s.pwrOk = true ∧ s.railsBad = [] ∧ s.refLost = false := by
  simp [Box.mayRun, and_assoc]

/-- A power-on reset while something is missing holds the device. -/
theorem powerOn_held {s : Box} (h : s.mayRun = false) : s.powerOn.phase = .held := by rw [powerOn_phase, h]; rfl

/-! ### The core rail -/

theorem envBreak_onlyRegs (s : Box) (p bit : Nat) : onlyRegs s (s.envBreak p bit) := by
  simp only [Box.envBreak]
  split
  · exact onlyRegs_refl _
  · exact onlyRegs_trans (put_onlyRegs _ _ _) (raiseInt_onlyRegs _ _ _)

theorem envBreak_bigTop (s : Box) {p : Nat} (hp : p / 256 ≠ 8) (bit : Nat) : sameOn bigTopWord s (s.envBreak p bit) := by
  simp only [Box.envBreak]
  split
  · exact sameOn_refl _ _
  · refine sameOn_trans (put_sameOn _ _ ?_) (raiseInt_bigTop _ ?_ _)
    · change ¬ CAL_SCHED_STATUS_at p < 0xF20000
      simp only [CAL_SCHED_STATUS_at]
      omega
    · change (256 * (p / 256) + 5) / 256 ≠ 8
      omega

theorem envBreakAll_onlyRegs (s : Box) (ts : List Nat) (bit : Nat) : onlyRegs s (s.envBreakAll ts bit) :=
  foldl_onlyRegs _ (fun b p _ => envBreak_onlyRegs b p bit) s

theorem envBreakAll_bigTop (s : Box) (bit : Nat) : sameOn bigTopWord s (s.envBreakAll (List.range 8) bit) := by
  refine foldl_sameOn _ (fun b p hp => envBreak_bigTop b ?_ bit) s
  have htent : p / 256 ∈ List.range 8 := by simpa using (List.mem_filter.1 hp).2
  have := List.mem_range.1 htent
  omega

theorem guarantee_onlyRegsCtrs (s : Box) : onlyRegsCtrs s s.guarantee := by
  simp only [Box.guarantee]
  have hput (v : Bool) : onlyRegsCtrs s (s.put PWR_ENV_STATUS_BELOW_GUARANTEE v) := (put_onlyRegs _ _ _).toCtrs
  split
  · exact onlyRegsCtrs_trans (onlyRegsCtrs_trans (hput _) (bump_onlyRegsCtrs _ _ _ _))
      (onlyRegs_trans (raiseInt_onlyRegs _ _ _) (envBreakAll_onlyRegs _ _ _)).toCtrs
  · split
    · exact onlyRegsCtrs_trans (hput _) (raiseInt_onlyRegs _ _ _).toCtrs
    · exact hput _

/-- The words that the corner's rail and its status lie in. -/
abbrev cornerWord (a : Nat) : Prop := a = PWR_ENV_STATUS_at ∨ a = PWR_RAIL_at 0

theorem cornerWord_bigTop {a : Nat} (h : cornerWord a) : bigTopWord a := by
  obtain rfl | rfl := h <;> decide

theorem guarantee_sameOn (s : Box) : ∃ below : Bool, below = (s.is PWR_ENV_STATUS_RAIL_LOW || s.is PWR_ENV_STATUS_TJ_HIGH)
    ∧ sameOn cornerWord (s.put PWR_ENV_STATUS_BELOW_GUARANTEE below) s.guarantee := by
  have hcause (b : Box) (bit : Nat) : sameOn cornerWord b (b.raiseInt pwrPage bit) := by
    refine sameOn_of_sameWords (raiseInt_sameWords _ _ _) ?_
    rintro a ha (rfl | rfl) <;> revert ha <;> decide
  have hcount (b : Box) : sameOn cornerWord b (b.count pwrPage 0) := by
    refine sameOn_of_sameWords (bump_sameWords _ _ _ _) ?_
    rintro a ha (rfl | rfl) <;> revert ha <;> decide
  refine ⟨_, rfl, ?_⟩
  simp only [Box.guarantee]
  split
  · refine sameOn_trans (sameOn_trans (hcount _) (hcause _ 0)) ?_
    exact fun a ha => envBreakAll_bigTop _ 0 a (cornerWord_bigTop ha)
  · split
    · exact hcause _ _
    · exact sameOn_refl _ _

/-- A reading of the core rail within its range. -/
theorem coreRail_guarantee_shows (s : Box) (mv : BitVec 16) :
    let t := (s.coreRail mv.toNat).guarantee
    t.rd (PWR_RAIL_MV 0) = mv.toNat ∧ t.is PWR_ENV_STATUS_RAIL_LOW = decide (mv.toNat < 620)
      ∧ t.is PWR_ENV_STATUS_BELOW_GUARANTEE = (decide (mv.toNat < 620) || s.is PWR_ENV_STATUS_TJ_HIGH) := by
  obtain ⟨below, hbelow, hsame⟩ := guarantee_sameOn (s.coreRail mv.toNat)
  have hlow : (s.coreRail mv.toNat).is PWR_ENV_STATUS_RAIL_LOW = decide (mv.toNat < 620) :=
    is_put _ _ _ (by decide) (by decide)
  have hhigh : (s.coreRail mv.toNat).is PWR_ENV_STATUS_TJ_HIGH = s.is PWR_ENV_STATUS_TJ_HIGH := by
    simp (disch := decide) only [Box.coreRail, is_put_apart, is_wr_apart]
  refine ⟨?_, ?_, ?_⟩
  · rw [rd_of_sameOn hsame (.inr rfl)]
    simp (disch := decide) only [Box.coreRail, rd_put_apart]
    exact rd_wr_lt s (by decide) mv.isLt
  · rw [is_of_sameOn hsame (.inl rfl), is_put_apart _ _ (by decide), hlow]
  · rw [is_of_sameOn hsame (.inl rfl), is_put _ _ _ (by decide) (by decide), hbelow, hlow, hhigh]

theorem railRead_core {s : Box} {mv : Nat} (h : 1100 ≤ 2 * mv ∧ 2 * mv ≤ 1700) (ha : s.phase.alive = true) :
    s.railRead 0 mv = ((s.coreRail mv).guarantee).anchored s := by
  simp only [Box.railRead, railRange, if_pos h, ha, and_self, if_true]

theorem railRead_shown {s : Box} {rail mv : Nat} (h : (railRange rail).1 ≤ 2 * mv ∧ 2 * mv ≤ (railRange rail).2)
    (hc : ¬ (rail = 0 ∧ s.phase.alive = true)) : s.railRead rail mv = s.wr (PWR_RAIL_MV rail) mv := by
  simp only [Box.railRead, if_pos h, if_neg hc]

theorem railRead_bad {s : Box} {rail mv : Nat} (h : ¬ ((railRange rail).1 ≤ 2 * mv ∧ 2 * mv ≤ (railRange rail).2)) :
    s.railRead rail mv = ({ s with railsBad := rail :: s.railsBad.filter (· ≠ rail) }.powerOn).wr (PWR_RAIL_MV rail) mv := by
  simp only [Box.railRead, if_neg h]

/-- Settles O7: every source of a power-on reset reaches `Box.powerOn`, which empties the block and holds it unless it may run. -/
theorem powerOnResetHoldsAndRestarts : Obligations.PowerOnResetHoldsAndRestarts := by
  refine fun s => ⟨fun rail mv => ?_, fun hok => ?_, ?_, fun straps href hok hrails => ?_, fun straps hok href hrails => ?_,
    fun straps hok href => ?_⟩
  · dsimp only
    split
    · next hin =>
      refine ⟨fun hshown => ?_, fun hcore halive => ?_⟩
      · refine congrArg (fun b => Host.Outcome.next { s with toBox := b }) (railRead_shown hin ?_)
        rintro ⟨hzero, halive⟩
        obtain hne | hdead := hshown
        · exact hne (Fin.ext hzero)
        · exact absurd halive (by rw [hdead]; decide)
      · subst hcore
        obtain ⟨hmv, hlow, hbelow⟩ := coreRail_guarantee_shows s.toBox mv
        obtain ⟨_, _, _, hparts⟩ := onlyRegsCtrs_trans
          (onlyRegs_trans (wr_onlyRegs s.toBox (PWR_RAIL_MV 0) mv.toNat) (put_onlyRegs _ _ _)).toCtrs
          (guarantee_onlyRegsCtrs (s.coreRail mv.toNat))
        have hphase : (s.coreRail mv.toNat).guarantee.phase = s.phase := by rw [hparts]
        have hbox := railRead_core hin halive
        exact ⟨_, next_onPart rfl hbox, hphase, hmv, hlow, hbelow, rfl⟩
    · next hout =>
      have hheld : ({ s.toBox with railsBad := rail.toNat :: s.railsBad.filter (· ≠ rail.toNat) } : Box).mayRun = false := by
        simp [Box.mayRun]
      obtain ⟨-, hbad, -⟩ := powerOn_keeps { s.toBox with railsBad := rail.toNat :: s.railsBad.filter (· ≠ rail.toNat) }
      refine ⟨_, next_onPart rfl (railRead_bad hout), powerOn_held hheld, ?_, rd_wr_lt _ (show 0 + 16 ≤ 32 by decide) mv.isLt, rfl⟩
      rw [onPart_toBox, wr_railsBad, hbad]
      exact List.mem_cons_self
  · have hbox : s.toBox.pwrOkFall = { ({ (if s.phase.alive then s.trainAll.anchored s.toBox else s.toBox) with
        pwrOk := false } : Box).powerOn with trip := s.trip } := if_neg (by rw [hok]; decide)
    revert hbox
    generalize (if s.phase.alive then s.trainAll.anchored s.toBox else s.toBox) = b
    intro hbox
    obtain ⟨hraw, -, -, hmem, -⟩ := powerOn_empty { b with pwrOk := false }
    obtain ⟨hpwr, -⟩ := powerOn_keeps { b with pwrOk := false }
    exact ⟨_, next_onPart rfl hbox, powerOn_held rfl, hpwr, hmem, hraw⟩
  · obtain ⟨hraw, -⟩ := powerOn_empty { s.toBox with refLost := true }
    obtain ⟨-, -, href, -⟩ := powerOn_keeps { s.toBox with refLost := true }
    exact ⟨_, rfl, powerOn_held (Bool.and_false _), href, hraw⟩
  · have hmay : ({ s.toBox with refLost := false } : Box).mayRun = true := (mayRun_iff _).2 ⟨hok, hrails, rfl⟩
    have hbox : (if s.refLost then ({ s.toBox with refLost := false } : Box).powerRelease straps.toNat else s.toBox)
        = ({ s.toBox with refLost := false } : Box).powerRelease straps.toNat := if_pos href
    obtain ⟨hphase, -, hword⟩ := powerRelease_shows hmay straps.toNat
    have hrun := powerRelease_run hmay straps.toNat
    obtain ⟨hraw, htabs, -, hmem, -⟩ := powerOn_empty { s.toBox with refLost := false, straps := straps.toNat }
    obtain ⟨-, -, hkept, -⟩ := powerOn_keeps { s.toBox with refLost := false, straps := straps.toNat }
    exact ⟨_, next_onPart rfl hbox, hphase, (congrArg Box.refLost hrun).trans hkept, hword, (congrArg Box.raw hrun).trans hraw,
      (congrArg Box.mem hrun).trans hmem, (congrArg Box.tabs hrun).trans htabs⟩
  · have hmay : ({ s.toBox with pwrOk := true } : Box).mayRun = true := (mayRun_iff _).2 ⟨rfl, hrails, href⟩
    have hbox : s.toBox.pwrOkRise straps.toNat = ({ s.toBox with pwrOk := true } : Box).powerRelease straps.toNat :=
      if_neg (by rw [hok]; decide)
    obtain ⟨hphase, -, hword⟩ := powerRelease_shows hmay straps.toNat
    have hrun := powerRelease_run hmay straps.toNat
    obtain ⟨hraw, -, -, hmem, -⟩ := powerOn_empty { s.toBox with pwrOk := true, straps := straps.toNat }
    obtain ⟨hkept, -⟩ := powerOn_keeps { s.toBox with pwrOk := true, straps := straps.toNat }
    exact ⟨_, next_onPart rfl hbox, hphase, (congrArg Box.pwrOk hrun).trans hkept, hword, (congrArg Box.raw hrun).trans hraw,
      (congrArg Box.mem hrun).trans hmem⟩
  · have hmay : ({ s.toBox with railsBad := [] } : Box).mayRun = true := (mayRun_iff _).2 ⟨hok, rfl, href⟩
    obtain ⟨hphase, hstraps, hword⟩ := powerRelease_shows hmay straps.toNat
    have hrun := powerRelease_run hmay straps.toNat
    obtain ⟨hraw, htabs, hctrs, hmem, hports, hdescs, hstreams⟩ :=
      powerOn_empty { s.toBox with railsBad := [], straps := straps.toNat }
    obtain ⟨-, hrails, -, -, hflash, hfuses⟩ := powerOn_keeps { s.toBox with railsBad := [], straps := straps.toNat }
    obtain ⟨-, hlast, hwords⟩ := powerOn_shows { s.toBox with railsBad := [], straps := straps.toNat }
    refine ⟨_, next_onPart rfl hrun, powerOn_phase _ |>.trans (if_pos hmay), hrails, ?_, ?_, hraw, htabs, hctrs, hmem, hports,
      hdescs, hstreams, hflash, hfuses, hlast, hwords⟩
    · exact (congrArg Box.straps hrun).symm.trans hstraps
    · exact (congrArg (Box.word · PWR_STRAPS_at) hrun).symm.trans hword

end Sys2Proof.Proofs
end

section
/-!
# Resets that are asked for, reset pins and the narrow resets (15_boot_security.md R427 to R432; 14_host_mgmt.md R406, R407, R426)
-/

namespace Sys2Proof.Proofs

open Sys2Proof Sys2Proof.Machine Sys2Proof.Safety Sys2Proof.Laws

/-! ### TRAIN flits -/

/-- `t` is `s` but for the ports' records and what has left the block. -/
def onlyPorts (s t : Box) : Prop := ∃ ps o, t = { s with ports := ps, outbox := o }

section onlyPorts

variable {s t u : Box}

theorem onlyPorts_refl (s : Box) : onlyPorts s s := ⟨s.ports, s.outbox, rfl⟩

theorem onlyPorts_trans (h : onlyPorts s t) (k : onlyPorts t u) : onlyPorts s u := by
  obtain ⟨_, _, rfl⟩ := h
  obtain ⟨ps, o, rfl⟩ := k
  exact ⟨ps, o, rfl⟩

theorem setPort_onlyPorts (s : Box) (p : Nat) (x : Port) : onlyPorts s (s.setPort p x) := ⟨_, s.outbox, rfl⟩

theorem emit_onlyPorts (s : Box) (o : Out) : onlyPorts s (s.emit o) := ⟨s.ports, _, rfl⟩

end onlyPorts

theorem laneFlit_onlyPorts (s : Box) (p pos w : Nat) (fl : List Byte) : onlyPorts s (s.laneFlit p pos w fl) := by
  refine onlyPorts_trans (onlyPorts_trans ?_ (setPort_onlyPorts _ _ _)) (emit_onlyPorts _ _)
  split
  · exact emit_onlyPorts _ _
  · exact onlyPorts_refl _

theorem trainFlit_onlyPorts (s : Box) (p : Nat) : onlyPorts s (s.trainFlit p) :=
  onlyPorts_trans (foldl_rel onlyPorts_refl onlyPorts_trans (s.modeLanes p) (fun b w _ => laneFlit_onlyPorts b p w w _) s)
    (setPort_onlyPorts _ _ _)

theorem trainAll_onlyPorts (s : Box) : onlyPorts s s.trainAll :=
  foldl_rel onlyPorts_refl onlyPorts_trans _ (fun b p _ => trainFlit_onlyPorts b p) s

/-! ### Requests through SEC_RESET_CMD -/

theorem known_SEC_RESET_CMD : (maskAt SEC_RESET_CMD_at).known = 0xFF000007 := by decide

theorem resetCmd_quiesces (b : Box) (src : Requester) {kind : Nat} (hk : kind = 1 ∨ kind = 2) :
    b.resetCmd src (resetWordOf kind) = b.quiesce kind (resetSource src) := by
  have hcheck : b.rsvCheck src SEC_RESET_CMD_at (resetWordOf kind) = b :=
    rsvCheck_of_known (known_SEC_RESET_CMD ▸ by obtain rfl | rfl := hk <;> decide)
  obtain rfl | rfl := hk
  · simp only [Box.resetCmd, hcheck, show natField (resetWordOf 1) 24 8 = 0xA5 by decide,
      show natField (resetWordOf 1) 0 3 = 1 by decide]
    rfl
  · simp only [Box.resetCmd, hcheck, show natField (resetWordOf 2) 24 8 = 0xA5 by decide,
      show natField (resetWordOf 2) 0 3 = 2 by decide]
    rfl

theorem resetCmd_management (b : Box) (src : Requester) :
    b.resetCmd src (resetWordOf 3) = b.mgmtAsk (resetSource src) := by
  have hcheck : b.rsvCheck src SEC_RESET_CMD_at (resetWordOf 3) = b := rsvCheck_of_known (known_SEC_RESET_CMD ▸ by decide)
  simp only [Box.resetCmd, hcheck, show natField (resetWordOf 3) 24 8 = 0xA5 by decide,
    show natField (resetWordOf 3) 0 3 = 3 by decide]
  rfl

/-- A first request stops the device, which sends TRAIN flits, and waits. -/
theorem quiesce_none {b : Box} (h : b.resetReq = none) (kind src : Nat) : ∃ ps o, b.quiesce kind src
    = { b with ports := ps, outbox := o, phase := .quiesced, resetReq := some ⟨kind, src, b.raw⟩ } := by
  obtain ⟨ps, o, htrain⟩ := trainAll_onlyPorts b
  refine ⟨ps, o, ?_⟩
  rw [Box.quiesce, h, htrain]

/-- A cold or warm reset that is asked for first. -/
theorem exec_quiesce {s : State} {src : Requester} {kind : Nat} (hk : kind = 1 ∨ kind = 2)
    (htake : takesWrite s src SEC_RESET_CMD_at) (hreq : s.resetReq = none) :
    ∃ t, s.actReg SEC_RESET_CMD_at src (fun b => b.resetCmd src (resetWordOf kind)) = .next t ∧ t.phase = .quiesced
      ∧ t.resetReq = some ⟨kind, resetSource src, s.raw⟩
      ∧ t = { s with ports := t.ports, outbox := t.outbox, phase := .quiesced, resetReq := t.resetReq } := by
  obtain ⟨hrun, hreach, hready⟩ := htake
  obtain ⟨ps, o, hquiet⟩ := quiesce_none hreq kind (resetSource src)
  exact ⟨_, next_onBox (actReg_run s _ _ _ hrun hreach hready) ((resetCmd_quiesces s.toBox src hk).trans hquiet), rfl, rfl, rfl⟩

/-! ### Cold and warm resets -/

/-- What the cold reset writes its stamp on. -/
def coldBase (s : Box) (straps : Nat) : Box := { s.fuseBreak with straps := straps }.bare

theorem coldReset_eq (s : Box) (src straps : Nat) : s.coldReset src straps = stamped (coldBase s straps) 1 src := rfl

/-- What a cold reset leaves. -/
theorem coldReset_shows (s : Box) (src straps : Nat) :
    let t := s.coldReset src straps
    t.phase = .run ∧ t.resetReq = none ∧ t.raw = 0 ∧ t.mem = [] ∧ t.tabs = [] ∧ t.spares = [] ∧ t.flash = s.flash
      ∧ t.tap = s.tap ∧ (s.fuseOp = none → t.fuses = s.fuses) ∧ t.straps = straps
      ∧ t.word PWR_STRAPS_at = BitVec.ofNat 32 straps ∧ t.rd SEC_RESET_STATUS_LAST = 1
      ∧ t.rd SEC_RESET_STATUS_SOURCE = src % 16 := by
  have htap : s.fuseBreak.tap = s.tap := by
    unfold Box.fuseBreak
    split <;> rfl
  have hfuses (hop : s.fuseOp = none) : s.fuseBreak.fuses = s.fuses := by rw [fuseBreak_none hop]
  obtain ⟨hword, hlast, hsource⟩ := stamped_shows (coldBase s straps) 1 src
  obtain ⟨_, hparts⟩ := stamped_eq (coldBase s straps) 1 src
  dsimp only
  refine ⟨?_, ?_, ?_, ?_, ?_, ?_, ?_, ?_, ?_, ?_, hword, hlast, hsource⟩ <;> rw [coldReset_eq, hparts]
  · rfl
  · rfl
  · rfl
  · rfl
  · rfl
  · rfl
  · exact fuseBreak_flash s
  · exact htap
  · exact hfuses
  · rfl

/-- What the warm reset writes its stamp on: besides what every reset keeps, regions 0 and 1, spares, failed devices, the seal
chain and the dump's numbers. -/
def warmBase (s : Box) : Box :=
  ((({ s.fuseBreak.bare with
    mem := mapDrop s.mem fun k => decide (1 < k / 2 ^ 40 % 8), memKept := true, spares := s.spares,
    deadDevs := s.deadDevs, badBlocks := s.badBlocks.filter fun x => decide (x.2 / 2 ^ 40 % 8 ≤ 1),
    sealHash := s.lastSealHash, dump := { seq := s.dump.seq, held := s.dump.held } } : Box).setWord SEC_SEAL_SEQ_LO_at
      (s.word SEC_SEAL_SEQ_LO_at)).setWord SEC_SEAL_SEQ_HI_at (s.word SEC_SEAL_SEQ_HI_at))

theorem warmReset_eq (s : Box) (src : Nat) : s.warmReset src = stamped (warmBase s) 2 src := rfl

/-- What a warm reset leaves. -/
theorem warmReset_shows (s : Box) (src : Nat) :
    let t := s.warmReset src
    t.phase = .run ∧ t.resetReq = none ∧ t.raw = 0 ∧ t.tabs = [] ∧ t.spares = s.spares ∧ t.flash = s.flash
      ∧ t.tap = s.tap ∧ (s.fuseOp = none → t.fuses = s.fuses) ∧ t.straps = s.straps
      ∧ t.mem = (mapDrop s.mem fun k => decide (1 < k / 2 ^ 40 % 8)) ∧ t.dump.seq = s.dump.seq ∧ t.dump.held = s.dump.held
      ∧ t.sealHash = s.lastSealHash := by
  have htap : s.fuseBreak.tap = s.tap := by
    unfold Box.fuseBreak
    split <;> rfl
  have hfuses (hop : s.fuseOp = none) : s.fuseBreak.fuses = s.fuses := by rw [fuseBreak_none hop]
  obtain ⟨_, hparts⟩ := stamped_eq (warmBase s) 2 src
  dsimp only
  refine ⟨?_, ?_, ?_, ?_, ?_, ?_, ?_, ?_, ?_, ?_, ?_, ?_, ?_⟩ <;> rw [warmReset_eq, hparts]
  · rfl
  · rfl
  · rfl
  · rfl
  · rfl
  · exact fuseBreak_flash s
  · exact htap
  · exact hfuses
  · exact fuseBreak_straps s
  · rfl
  · rfl
  · rfl
  · rfl

/-- The words that a warm reset shows. -/
theorem warmReset_words (s : Box) (src : Nat) :
    let t := s.warmReset src
    t.word SEC_SEAL_SEQ_LO_at = s.word SEC_SEAL_SEQ_LO_at ∧ t.word SEC_SEAL_SEQ_HI_at = s.word SEC_SEAL_SEQ_HI_at
      ∧ t.rd SEC_RESET_STATUS_LAST = 2 ∧ t.rd SEC_RESET_STATUS_SOURCE = src % 16 := by
  obtain ⟨-, hlast, hsource⟩ := stamped_shows (warmBase s) 2 src
  have hwords := stamped_sameWords (warmBase s) 2 src
  rw [warmReset_eq]
  refine ⟨?_, ?_, hlast, hsource⟩
  · rw [hwords _ (by decide), warmBase, word_setWord_other _ _ (by decide), word_setWord]
  · rw [hwords _ (by decide), warmBase, word_setWord]

theorem resetEffect_of {b : Box} {r : ResetReq} (h : b.resetReq = some r) (straps : Nat) :
    b.resetEffect straps
      = if r.at_ + 6400 ≤ b.raw then (if r.kind = 1 then b.coldReset r.src straps else b.warmReset r.src) else b := by
  simp only [Box.resetEffect, h]

theorem exec_resetTakeEffect {s : State} (hphase : s.phase = .quiesced) (straps : BitVec 4) :
    exec (.resetTakeEffect straps) s = .next (s.onPart fun b => b.resetEffect straps.toNat) := by
  refine (actPart_eq s _).trans ?_
  rw [State.onPart, whileAlive, if_pos (by rw [hphase]; rfl)]
  rfl

/-! ### Reset pins -/

/-- What the board does at other pins reaches flash and the JTAG port. -/
theorem boardActs_eq (board : List BoardAct) (s : Box) :
    ∃ fl i, board.foldl Box.boardAct s = { s with flash := fl, tap := i } := by
  have hact (b : Box) (a : BoardAct) : ∃ fl i, b.boardAct a = { b with flash := fl, tap := i } := by
    cases a with
    | flash cs off bytes =>
      simp only [Box.boardAct]
      split
      · exact ⟨_, b.tap, rfl⟩
      · exact ⟨b.flash, b.tap, rfl⟩
    | jtag i => exact ⟨b.flash, _, rfl⟩
  refine foldl_rel (R := fun b c => ∃ fl i, c = { b with flash := fl, tap := i }) (fun b => ⟨b.flash, b.tap, rfl⟩) ?_ board
    (fun b a _ => hact b a) s
  rintro a b c ⟨_, _, rfl⟩ ⟨fl, i, rfl⟩
  exact ⟨fl, i, rfl⟩

/-- Settles O8: a request quiesces, the end of its interval and the pins reset. -/
theorem resetsQuiesceThenTakeEffect : Obligations.ResetsQuiesceThenTakeEffect := by
  refine fun s => ⟨fun src htake hreq => ⟨exec_quiesce (.inl rfl) htake hreq, exec_quiesce (.inr rfl) htake hreq⟩,
    fun r straps hphase hreq => ⟨fun hearly => ?_, fun hdue hkind => ?_⟩, fun straps board hphase => ?_,
    fun board hphase hreq => ?_⟩
  · have hbox : s.toBox.resetEffect straps.toNat = s.toBox := (resetEffect_of hreq _).trans (if_neg (by omega))
    exact next_onPart (exec_resetTakeEffect hphase straps) hbox
  · have hbox := (resetEffect_of hreq straps.toNat).trans (if_pos hdue)
    obtain hcold | hwarm := hkind
    · rw [if_pos hcold] at hbox
      obtain ⟨hrun, hnone, hraw, hmem, htabs, -, hflash, -, hfuses, hstraps, hword, hlast, hsource⟩ :=
        coldReset_shows s.toBox r.src straps.toNat
      refine ⟨_, next_onPart (exec_resetTakeEffect hphase straps) hbox, hrun, hnone, hraw, hlast.trans hcold.symm, hsource, htabs,
        hflash, hfuses, fun _ => ⟨hmem, hstraps, hword⟩, fun h => ?_⟩
      omega
    · rw [if_neg (by omega)] at hbox
      obtain ⟨hrun, hnone, hraw, htabs, -, hflash, -, hfuses, -, hmem, -⟩ := warmReset_shows s.toBox r.src
      obtain ⟨-, -, hlast, hsource⟩ := warmReset_words s.toBox r.src
      refine ⟨_, next_onPart (exec_resetTakeEffect hphase straps) hbox, hrun, hnone, hraw, hlast.trans hwarm.symm, hsource, htabs,
        hflash, hfuses, fun h => ?_, fun _ k => ?_⟩
      · omega
      · refine (congrArg (mapGet memDflt · k) hmem).trans ((mapGet_mapDrop _ _ _ _).trans ?_)
        simp only [decide_eq_true_eq]
  · obtain ⟨_, _, hboard⟩ := boardActs_eq board s.toBox
    obtain ⟨hphase', -⟩ := boardActs_pins board s.toBox
    have hbox : s.toBox.resetPin 1 straps.toNat board = (board.foldl Box.boardAct s.toBox).coldReset 1 straps.toNat := by
      simp only [Box.resetPin, if_neg (hphase'.trans_ne hphase), if_true]
    obtain ⟨hrun, -, -, hmem, -, hspares, hflash, htap, -, hstraps, hword, hlast, hsource⟩ :=
      coldReset_shows (board.foldl Box.boardAct s.toBox) 1 straps.toNat
    exact ⟨_, next_onPart rfl hbox, hrun, hmem, hspares, hflash, htap, hstraps, hword, hlast, hsource, rfl⟩
  · obtain ⟨_, _, hboard⟩ := boardActs_eq board s.toBox
    obtain ⟨hphase', -⟩ := boardActs_pins board s.toBox
    have hreq' : (board.foldl Box.boardAct s.toBox).resetReq = none := by rw [hboard]; exact hreq
    have hbox : s.toBox.resetPin 2 0 board = (board.foldl Box.boardAct s.toBox).warmReset 1 := by
      simp only [Box.resetPin, if_neg (hphase'.trans_ne hphase), hreq']
      rfl
    obtain ⟨hrun, -, -, -, hspares, hflash, htap, -, hstraps, -, hseq, hheld, hseal⟩ :=
      warmReset_shows (board.foldl Box.boardAct s.toBox) 1
    obtain ⟨hlo, hhi, hlast, hsource⟩ := warmReset_words (board.foldl Box.boardAct s.toBox) 1
    refine ⟨_, next_onPart rfl hbox, hrun, hspares.trans ?_, hstraps.trans ?_, hflash, htap, hseq.trans ?_, hheld.trans ?_,
      hlo.trans ?_, hhi.trans ?_, hseal.trans ?_, hlast, hsource, rfl⟩ <;> rw [hboard] <;> rfl

/-! ### The narrow resets -/

theorem keyReady_emits (b : Box) (v : Bool) : emits b (b.keyReady v) := by
  unfold Box.keyReady
  split
  · exact emits_of_eq rfl
  · exact emits_trans (emits_of_eq (put_outbox b _ _)) (raiseInt_emits _ _ _)

theorem keyReady_sameWords (b : Box) (v : Bool) : sameWords (SEC_SEAL_STATUS_at :: causeWords secPage) b (b.keyReady v) := by
  unfold Box.keyReady
  split
  · exact sameWords_refl _ _
  · exact sameWords_trans (sameWords_mono (put_sameWords b SEC_SEAL_STATUS_KEY_READY v) (by decide))
      (sameWords_mono (raiseInt_sameWords _ _ _) fun _ => List.mem_cons_of_mem _)

/-- That the device boots is told before KEY_READY changes. -/
def bootTold (b : Box) : Box := if b.firmware then b.emit (.reply (.pldmEvent 0)) else b

/-- The words that a management reset writes once KEY_READY is clear. -/
def mgmtStamped (k : Box) (src : Nat) : Box :=
  (((k.wr SEC_BOOT_STATUS_BOOT_STATE 0).put SEC_FWUP_STATUS_OPEN false).put SEC_FWUP_STATUS_BUSY false).resetNote 3 src

theorem mgmtStamped_shows (k : Box) (src : Nat) :
    (mgmtStamped k src).is SEC_SEAL_STATUS_KEY_READY = k.is SEC_SEAL_STATUS_KEY_READY
      ∧ (mgmtStamped k src).is SEC_FWUP_STATUS_OPEN = false ∧ (mgmtStamped k src).is SEC_FWUP_STATUS_BUSY = false
      ∧ (mgmtStamped k src).rd SEC_BOOT_STATUS_REASON = k.rd SEC_BOOT_STATUS_REASON
      ∧ (mgmtStamped k src).rd SEC_RESET_STATUS_LAST = 3 ∧ (mgmtStamped k src).rd SEC_RESET_STATUS_SOURCE = src % 16 := by
  refine ⟨?_, ?_, ?_, ?_, resetNote_shows _ 3 src⟩
  · simp (disch := decide) only [mgmtStamped, Box.resetNote, is_put_apart, is_wr_apart]
  · simp (disch := decide) only [mgmtStamped, Box.resetNote, is_put_apart, is_wr_apart, is_put]
  · simp (disch := decide) only [mgmtStamped, Box.resetNote, is_wr_apart, is_put]
  · simp (disch := decide) only [mgmtStamped, Box.resetNote, rd_put_apart, rd_wr_apart]

/-- The words that a management reset can touch. -/
abbrev mgmtWords : List Nat :=
  [SEC_RESET_STATUS_at, SEC_BOOT_STATUS_at, SEC_FWUP_STATUS_at, SEC_SEAL_STATUS_at] ++ causeWords secPage

theorem mgmtStamped_sameWords (k : Box) (src : Nat) : sameWords mgmtWords k (mgmtStamped k src) :=
  sameWords_mono (sameWords_append (sameWords_append (sameWords_append (wr_sameWords k SEC_BOOT_STATUS_BOOT_STATE 0)
    (put_sameWords _ SEC_FWUP_STATUS_OPEN false)) (put_sameWords _ SEC_FWUP_STATUS_BUSY false)) (resetNote_sameWords _ 3 src))
    (by decide)

/-- A management reset's words are those of the stamp on the block that has lost its key. -/
theorem mgmtReset_regs (b : Box) (src : Nat) :
    (b.mgmtReset src).regs = (mgmtStamped ((bootTold b).keyReady false) src).regs := rfl

theorem mgmtReset_outbox (b : Box) (src : Nat) : (b.mgmtReset src).outbox = ((bootTold b).keyReady false).outbox := by
  delta Box.mgmtReset bootTold
  dsimp only [Box.resetNote, put_outbox, wr_outbox]

theorem bootTold_sameWords (b : Box) : sameWords [] b (bootTold b) := by
  unfold bootTold
  split
  · exact emit_sameWords _ _
  · exact sameWords_refl _ _

/-- What a management reset shows. -/
theorem mgmtReset_shows (b : Box) (src : Nat) :
    (b.mgmtReset src).is SEC_SEAL_STATUS_KEY_READY = false ∧ (b.mgmtReset src).is SEC_FWUP_STATUS_OPEN = false
      ∧ (b.mgmtReset src).is SEC_FWUP_STATUS_BUSY = false
      ∧ (b.mgmtReset src).rd SEC_BOOT_STATUS_REASON = b.rd SEC_BOOT_STATUS_REASON
      ∧ (b.mgmtReset src).rd SEC_RESET_STATUS_LAST = 3 ∧ (b.mgmtReset src).rd SEC_RESET_STATUS_SOURCE = src % 16 := by
  have hwords := sameWords_append (bootTold_sameWords b) (keyReady_sameWords (bootTold b) false)
  obtain ⟨hkey, hopen, hbusy, hreason, hlast, hsource⟩ := mgmtStamped_shows ((bootTold b).keyReady false) src
  have hregs := mgmtReset_regs b src
  generalize b.mgmtReset src = t at hregs ⊢
  rw [is_of_regs hregs, is_of_regs hregs, is_of_regs hregs, rd_of_regs hregs, rd_of_regs hregs, rd_of_regs hregs]
  exact ⟨hkey.trans (keyReady_shows _ false), hopen, hbusy, hreason.trans (rd_of_sameWords hwords (by decide)), hlast, hsource⟩

theorem mgmtReset_sameWords (b : Box) (src : Nat) : sameWords mgmtWords b (b.mgmtReset src) := by
  intro a ha
  rw [Box.word, mgmtReset_regs]
  refine (mgmtStamped_sameWords _ src a ha).trans ?_
  refine sameWords_append (bootTold_sameWords b) (keyReady_sameWords (bootTold b) false) a fun hmem => ha ?_
  exact (by decide : ∀ a ∈ [] ++ SEC_SEAL_STATUS_at :: causeWords secPage, a ∈ mgmtWords) a hmem

theorem resetSource_lt (src : Requester) : resetSource src % 16 = resetSource src := by cases src <;> rfl

/-! ### The host's interface -/

/-- The words of the CXL page and of the function. -/
abbrev hostWord (a : Nat) : Prop := a / 0x10000 = 0x10 ∨ a / 0x10000 = 0xF2

/-- The block with its CXL page cleared. -/
def hostCleared (b : Box) : Box :=
  { b with
    regs := mapClear b.regs (pageBase cxlPage) 0x10000, ctrs := mapClear b.ctrs (cxlPage * 4096) 4096,
    shadows := mapClear b.shadows (cxlPage * 4096) 4096, copying := mapClear b.copying (cxlPage * 4096) 4096,
    bar2 := none, cxlLog := [], cxlRegs := [] }

theorem hostReset_eq {b : Box} (hreq : b.resetReq = none) (hstate : b.bootState ≠ 0) : b.hostReset
    = ((((hostCleared b).put (PAGE_STATUS_READY cxlPage) (b.is (PAGE_STATUS_READY cxlPage))).put
        (PAGE_STATUS_FROZEN cxlPage) (b.is (PAGE_STATUS_FROZEN cxlPage))).functionReset).resetNote 4 5 := by
  simp only [Box.hostReset, hostCleared, hreq, hstate, Option.isSome_none, Bool.false_eq_true, or_self, if_false]

/-- A word outside a range of registers that is cleared stays. -/
theorem word_mapClear {b : Box} {c : Box} {lo n a : Nat} (hc : c.regs = mapClear b.regs lo n) (ha : ¬ (lo ≤ a ∧ a < lo + n)) :
    c.word a = b.word a := by rw [Box.word, hc, mapGet_mapClear, if_neg ha, Box.word]

/-- The link's loss clears WIDTH and SPEED. -/
theorem cxlDown_shows (b : Box) : b.cxlDown.rd CXL_LINK_STATUS_WIDTH = 0 ∧ b.cxlDown.rd CXL_LINK_STATUS_SPEED = 0
    ∧ sameWords [CXL_LINK_STATUS_at] b b.cxlDown := by
  refine ⟨?_, rd_wr_lt _ (by decide) (by decide), ?_⟩
  · simp (disch := decide) only [Box.cxlDown, rd_wr_apart]
    exact rd_wr_lt _ (by decide) (by decide)
  · exact sameWords_trans (wr_sameWords b CXL_LINK_STATUS_WIDTH 0) (wr_sameWords _ CXL_LINK_STATUS_SPEED 0)

/-- A link that trains with 256-byte flits. -/
theorem cxlTrain_flit {b : Box} (hfw : b.firmware = true) {width speed : Nat} (hw : width < 8) (hs : speed < 16) :
    (b.cxlTrain width speed true).rd CXL_LINK_STATUS_WIDTH = width ∧ (b.cxlTrain width speed true).rd CXL_LINK_STATUS_SPEED = speed
      ∧ (b.cxlTrain width speed true).is CXL_LINK_STATUS_NOFLIT = false
      ∧ ∃ r, b.cxlTrain width speed true = { b with regs := r } := by
  have hbox : b.cxlTrain width speed true
      = ((b.wr CXL_LINK_STATUS_WIDTH width).wr CXL_LINK_STATUS_SPEED speed).put CXL_LINK_STATUS_NOFLIT false := by
    simp [Box.cxlTrain, hfw]
  rw [hbox]
  refine ⟨?_, ?_, is_put _ _ _ (by decide) (by decide), _, rfl⟩
  · simp (disch := decide) only [rd_put_apart, rd_wr_apart]
    exact rd_wr_lt _ (by decide) hw
  · simp (disch := decide) only [rd_put_apart]
    exact rd_wr_lt _ (by decide) hs

/-- A link whose partner has no 256-byte flits. -/
theorem cxlTrain_noflit {b : Box} (hfw : b.firmware = true) (hno : b.is CXL_LINK_STATUS_NOFLIT = false) (width speed : Nat) :
    (b.cxlTrain width speed false).is CXL_LINK_STATUS_NOFLIT = true
      ∧ (b.cxlTrain width speed false).is (pageFld cxlPage 16 0 1) = true ∧ onlyRegs b (b.cxlTrain width speed false) := by
  have hbox : b.cxlTrain width speed false = ((b.put CXL_LINK_STATUS_NOFLIT true).raiseInt cxlPage 0).pldmNotify := by
    simp [Box.cxlTrain, hfw, hno]
  rw [hbox]
  refine ⟨?_, ?_, onlyRegs_trans (onlyRegs_trans (put_onlyRegs _ _ _) (raiseInt_onlyRegs _ _ _)) (pldmNotify_onlyRegs _)⟩
  · rw [is_of_sameWords (pldmNotify_sameWords _) (by simp), is_raiseInt _ _ _ (by decide), is_put _ _ _ (by decide) (by decide)]
  · rw [is_of_sameWords (pldmNotify_sameWords _) (by simp)]
    exact raiseInt_sets _ _ _ (by decide) (by decide)

/-- A host-interface reset, in what it leaves. -/
theorem hostReset_shows {b : Box} (hreq : b.resetReq = none) (hstate : b.bootState ≠ 0) :
    ∃ r, b.hostReset = { hostCleared b with
        regs := r, cfg := [], cxlRegs := [], doeError := [], doeBusy := [], spdmDoe := {}, hostReads := [] } := by
  rw [hostReset_eq hreq hstate]
  exact ⟨_, rfl⟩

/-- The words of a host-interface reset. -/
theorem hostReset_words {b : Box} (hreq : b.resetReq = none) (hstate : b.bootState ≠ 0) :
    b.hostReset.rd SEC_RESET_STATUS_LAST = 4 ∧ b.hostReset.rd SEC_RESET_STATUS_SOURCE = 5
      ∧ b.hostReset.is (PAGE_STATUS_READY cxlPage) = b.is (PAGE_STATUS_READY cxlPage)
      ∧ ∀ a, a ≠ SEC_RESET_STATUS_at → a / 0x10000 ≠ 0x10 → a / 0x10000 ≠ 0xF2 → b.hostReset.word a = b.word a := by
  rw [hostReset_eq hreq hstate]
  have hregs : (hostCleared b).regs = mapClear b.regs 0x100000 0x10000 := rfl
  generalize hostCleared b = c at hregs ⊢
  generalize b.is (PAGE_STATUS_READY cxlPage) = ready
  generalize b.is (PAGE_STATUS_FROZEN cxlPage) = frozen
  obtain ⟨hlast, hsource⟩ := resetNote_shows
    ((c.put (PAGE_STATUS_READY cxlPage) ready).put (PAGE_STATUS_FROZEN cxlPage) frozen).functionReset 4 5
  refine ⟨hlast, hsource, ?_, fun a hne hpage hfun => ?_⟩
  · rw [is_of_sameWords (resetNote_sameWords _ 4 5) (by decide)]
    have hfunction : ((c.put (PAGE_STATUS_READY cxlPage) ready).put (PAGE_STATUS_FROZEN cxlPage) frozen).functionReset.word
        (PAGE_STATUS_READY cxlPage).addr = ((c.put (PAGE_STATUS_READY cxlPage) ready).put (PAGE_STATUS_FROZEN cxlPage)
          frozen).word (PAGE_STATUS_READY cxlPage).addr := word_mapClear rfl (by decide)
    rw [Box.is, Box.rd, hfunction, ← Box.rd, ← Box.is, is_put_apart _ _ (by decide), is_put _ _ _ (by decide) (by decide)]
  · rw [resetNote_sameWords _ 4 5 a (by simpa using hne), Box.functionReset,
      word_mapClear (b := (c.put (PAGE_STATUS_READY cxlPage) ready).put (PAGE_STATUS_FROZEN cxlPage) frozen) rfl (by omega),
      put_sameWords _ _ _ _ ?_, put_sameWords _ _ _ _ ?_, word_mapClear hregs (by omega)]
    · simp only [PAGE_STATUS_READY, pageFld, List.mem_singleton]
      rintro rfl
      exact hpage (by decide)
    · simp only [PAGE_STATUS_FROZEN, pageFld, List.mem_singleton]
      rintro rfl
      exact hpage (by decide)

/-- Settles O9: a management reset and the resets of the host's interface change the parts that they name. -/
theorem narrowResetsLeaveTraffic : Obligations.NarrowResetsLeaveTraffic := by
  refine ⟨fun s src htake hreq hstate => ?_, fun s hrun => ⟨fun hreq hstate => ?_, fun hreach => ?_, ?_, fun x8 speed hfw =>
    ⟨?_, fun hno => ?_⟩⟩⟩
  · obtain ⟨hrun, hreach, hready⟩ := htake
    have hbox : s.toBox.resetCmd src (resetWordOf 3) = s.toBox.mgmtReset (resetSource src) :=
      (resetCmd_management _ src).trans (by simp [Box.mgmtAsk, hreq, hstate])
    obtain ⟨hkey, hopen, hbusy, hreason, hlast, hsource⟩ := mgmtReset_shows s.toBox (resetSource src)
    obtain ⟨r, o, hparts⟩ := mgmtReset_eq s.toBox (resetSource src)
    have hemits := mgmtReset_outbox s.toBox (resetSource src)
    have hkeyless := keyReady_emits (bootTold s.toBox) false
    have hboot := mgmtReset_bootState s.toBox (resetSource src)
    have hwords := mgmtReset_sameWords s.toBox (resetSource src)
    generalize s.toBox.mgmtReset (resetSource src) = m at *
    have hfields {α : Type} (f : Box → α) := congrArg f hparts
    refine ⟨_, next_onBox (actReg_run s _ _ _ hrun hreach hready) hbox, hboot, hkey, hfields Box.update, hfields Box.collector,
      hfields Box.eid, hfields Box.spdmDoe, hfields Box.spdmMctp, hfields Box.inbox, hopen, hbusy, hreason, hlast,
      hsource.trans (resetSource_lt src), fun hfw => ?_, ?_, hwords⟩
    · obtain ⟨o, ho⟩ := hkeyless
      refine ⟨o, hemits.trans (ho.trans ?_)⟩
      rw [bootTold, if_pos hfw]
      rfl
    · subst hparts
      rfl
  · have hbox := hostReset_shows (b := s.toBox) hreq hstate
    obtain ⟨hlast, hsource, hready, hwords⟩ := hostReset_words (b := s.toBox) hreq hstate
    generalize hm : s.toBox.hostReset = m at *
    obtain ⟨r, hparts⟩ := hbox
    have hfields {α : Type} (f : Box → α) := congrArg f hparts
    have hctrs : m.ctrs = mapClear s.ctrs (cxlPage * 4096) 4096 := hfields Box.ctrs
    refine ⟨_, next_onBox (act_run s _ hrun) hm, hfields Box.cxlLog, hfields Box.bar2,
      hfields Box.doeError, hfields Box.doeBusy, hfields Box.hostReads, hfields Box.cfg, hfields Box.cxlRegs, fun i hi => ?_,
      fun k hk => ?_, hlast, hsource, hfields Box.tabs, hfields Box.mem, hready, hwords⟩
    · refine (congrArg (mapGet (fun _ => 0) · (cxlPage * 4096 + i)) hctrs).trans ?_
      rw [mapGet_mapClear, if_pos (by omega)]
    · refine (congrArg (mapGet (fun _ => 0) · k) hctrs).trans ?_
      rw [mapGet_mapClear, if_neg]
      exact fun ⟨hlo, hhi⟩ => hk.elim (Nat.not_lt.mpr hlo) (Nat.not_le.mpr hhi)
  · exact actHost_run s _ .driver hrun hreach
  · obtain ⟨hwidth, hspeed, hwords⟩ := cxlDown_shows s.toBox
    exact ⟨_, act_run s _ hrun, act_run s _ hrun, hwidth, hspeed, rfl, hwords⟩
  · have hspeed : 4 + speed.toNat < 16 := Nat.add_lt_add_left (Nat.lt_trans speed.isLt (by decide : 3 < 12)) 4
    have hx8 : 3 + b2n x8 = if x8 then 4 else 3 := by cases x8 <;> rfl
    obtain ⟨hwidth, hrate, hno, hparts⟩ := cxlTrain_flit (b := s.toBox) hfw (show 3 + b2n x8 < 8 by cases x8 <;> decide)
      hspeed
    generalize hm : s.toBox.cxlTrain (3 + b2n x8) (4 + speed.toNat) true = m at *
    refine ⟨_, next_onBox (act_run s _ hrun) hm, hwidth.trans hx8, hrate, hno, ?_⟩
    obtain ⟨r, rfl⟩ := hparts
    rfl
  · obtain ⟨hshown, hcause, hparts⟩ := cxlTrain_noflit (b := s.toBox) hfw hno (3 + b2n x8) (4 + speed.toNat)
    generalize hm : s.toBox.cxlTrain (3 + b2n x8) (4 + speed.toNat) false = m at *
    refine ⟨_, next_onBox (act_run s _ hrun) hm, hshown, hcause, ?_⟩
    obtain ⟨r, o, rfl⟩ := hparts
    rfl

end Sys2Proof.Proofs
end

section
/-!
# Counters and interrupt registers

The words of a page's header and counter area by their addresses, and what a plain write leaves in a word, bit by bit.
-/

namespace Sys2Proof.Proofs

open Sys2Proof Sys2Proof.Machine Sys2Proof.Safety Sys2Proof.Laws

/-! ### Bits -/

/-- Numbers without a common bit add as they combine. -/
theorem add_eq_lor {a b : Nat} (h : a &&& b = 0) : a + b = a ||| b := by
  have hsum : a + b < 2 ^ (a + b) := Nat.lt_two_pow_self
  have hbits : BitVec.ofNat (a + b) a &&& BitVec.ofNat (a + b) b = 0#(a + b) := by rw [← BitVec.ofNat_and, h]
  have hor : a ||| b < 2 ^ (a + b) := Nat.or_lt_two_pow (by omega) (by omega)
  have hadd := congrArg BitVec.toNat (BitVec.add_eq_or_of_and_eq_zero _ _ hbits)
  rwa [← BitVec.ofNat_add, ← BitVec.ofNat_or, BitVec.toNat_ofNat, BitVec.toNat_ofNat, Nat.mod_eq_of_lt hsum,
    Nat.mod_eq_of_lt hor] at hadd

theorem bitsOut_eq_xor (v m : Nat) : bitsOut v m = v ^^^ (v &&& m) := by
  have hdisjoint : (v &&& m) &&& (v ^^^ (v &&& m)) = 0 := Nat.eq_of_testBit_eq fun i => by
    rw [Nat.testBit_and, Nat.testBit_xor, Nat.testBit_and, Nat.zero_testBit]
    cases v.testBit i <;> cases m.testBit i <;> rfl
  have hall : (v &&& m) ||| (v ^^^ (v &&& m)) = v := Nat.eq_of_testBit_eq fun i => by
    rw [Nat.testBit_or, Nat.testBit_xor, Nat.testBit_and]
    cases v.testBit i <;> cases m.testBit i <;> rfl
  have hsum := add_eq_lor hdisjoint
  rw [hall] at hsum
  exact Nat.sub_eq_of_eq_add' hsum.symm

/-- The bits outside a mask. -/
theorem bitsOut_testBit (v m i : Nat) : (bitsOut v m).testBit i = (v.testBit i && !m.testBit i) := by
  rw [bitsOut_eq_xor, Nat.testBit_xor, Nat.testBit_and]
  cases v.testBit i <;> cases m.testBit i <;> rfl

/-- What a write leaves in a word, bit by bit (R10). -/
theorem writtenWord_testBit (m : RegMask) (old v i : Nat) :
    (writtenWord m old v).testBit i
      = if m.rw.testBit i then v.testBit i else (old.testBit i && !(m.w1c.testBit i && v.testBit i)) := by
  have hdisjoint : bitsOut (bitsOut old m.rw) (v &&& m.w1c) &&& (v &&& m.rw) = 0 := Nat.eq_of_testBit_eq fun j => by
    rw [Nat.testBit_and, bitsOut_testBit, bitsOut_testBit, Nat.testBit_and, Nat.testBit_and, Nat.zero_testBit]
    cases m.rw.testBit j <;> simp
  rw [writtenWord]
  refine (congrArg (Nat.testBit · i) (add_eq_lor hdisjoint)).trans ?_
  rw [Nat.testBit_or, bitsOut_testBit, bitsOut_testBit, Nat.testBit_and, Nat.testBit_and]
  cases m.rw.testBit i <;> cases m.w1c.testBit i <;> cases v.testBit i <;> simp

/-- A one-bit field of a page's word is that bit. -/
theorem is_pageFld_bit (b : Box) (p : Page) (off i : Nat) :
    b.is (pageFld p off i 1) = (b.word (pageBase p + off)).getLsbD i := by
  have hbit : b.rd (pageFld p off i 1) = (b.word (pageBase p + off)).toNat / 2 ^ i % 2 := rfl
  rw [Box.is, hbit, BitVec.getLsbD, Nat.testBit_eq_decide_div_mod_eq]
  obtain h | h := Nat.mod_two_eq_zero_or_one ((b.word (pageBase p + off)).toNat / 2 ^ i) <;> rw [h] <;> rfl

theorem getLsbD_ofNat_lt {i : Nat} (hi : i < 32) (v : Nat) : (BitVec.ofNat 32 v).getLsbD i = v.testBit i := by
  rw [BitVec.getLsbD_ofNat, decide_eq_true hi, Bool.true_and]

/-! ### Plain writes -/

theorem rsvCheck_onlyRegs (b : Box) (src : Requester) (a v : Nat) : onlyRegs b (b.rsvCheck src a v) := by
  unfold Box.rsvCheck
  split
  · exact onlyRegs_refl _
  · exact rsvWrite_onlyRegs _ _ _ _

theorem rsvCheck_sameWords (b : Box) (src : Requester) (a v : Nat) : sameWords (errorWords (wordPage a)) b (b.rsvCheck src a v) := by
  unfold Box.rsvCheck
  split
  · exact sameWords_refl _ _
  · exact rsvWrite_sameWords _ _ _ _

theorem plainWrite_onlyRegs (b : Box) (src : Requester) (a v : Nat) : onlyRegs b (b.plainWrite src a v) :=
  onlyRegs_trans (rsvCheck_onlyRegs b src a v) (setWord_onlyRegs _ _ _)

theorem plainWrite_sameWords (b : Box) (src : Requester) (a v : Nat) :
    sameWords (a :: errorWords (wordPage a)) b (b.plainWrite src a v) :=
  sameWords_trans (sameWords_mono (rsvCheck_sameWords b src a v) fun _ => List.mem_cons_of_mem _)
    (sameWords_mono (setWord_sameWords _ _ _) (by simp))

/-- A plain write that sets no reserved bit. -/
theorem plainWrite_of_known {b : Box} {src : Requester} {a v : Nat} (h : bitsOut v (maskAt a).known = 0) :
    b.plainWrite src a v = b.setWord a (BitVec.ofNat 32 (writtenWord (maskAt a) (b.word a).toNat v)) := by
  simp only [Box.plainWrite, rsvCheck_of_known h]

/-! ### The addresses of a page's words -/

/-- A page that exists is one of the nine dies'. -/
theorem page_lt_of_isSome {p : Nat} (h : (pageNcnt p).isSome = true) : p < 2304 := by
  by_contra hp
  have hdie : 9 ≤ p / 256 := by omega
  have hnone : pageNcnt p = none := by
    rw [pageNcnt, if_neg (Nat.ne_of_gt hdie), if_neg (Nat.not_lt.mpr (Nat.le_of_succ_le hdie))]
  rw [hnone] at h
  exact absurd h (by decide)

theorem isSome_of_hasCounters {p : Page} (h : hasCounters p = true) : (pageNcnt p).isSome = true := by
  cases hn : pageNcnt p with
  | none => rw [hasCounters, hn] at h; exact absurd h (by decide)
  | some n => rfl

theorem pageBase_cases (p : Nat) : p / 256 = 8 ∧ pageBase p = p % 256 * 0x10000
    ∨ p / 256 ≠ 8 ∧ pageBase p = 0x1000000 * (p / 256 + 1) + p % 256 * 0x10000 := by
  by_cases h : p / 256 = 8
  · exact .inl ⟨h, if_pos h⟩
  · exact .inr ⟨h, if_neg h⟩

theorem pageBase_lt {p : Nat} (hp : p < 2304) : pageBase p < 0x9000000 := by
  obtain ⟨hdie, hbase⟩ | ⟨hdie, hbase⟩ := pageBase_cases p <;> omega

theorem wordPage_pageBase {p off : Nat} (hp : p < 2304) (hoff : off < 0x10000) : wordPage (pageBase p + off) = p := by
  have hlt := pageBase_lt hp
  rw [wordPage, if_neg (by omega), addrPage_pageBase_add hp hoff]

/-- Every page that exists has its header (R418). -/
theorem regAt_header {p off : Nat} (h : (pageNcnt p).isSome = true) (hoff : off < 0x100) :
    regAt (pageBase p + off) = findRow (p / 256) off headerRows := by
  have hp := page_lt_of_isSome h
  have hlt := pageBase_lt hp
  have hmod := pageBase_mod p
  have hoff' : (pageBase p + off) % 0x10000 = off := by omega
  have hslot : (pageBase p + off) / 0x10000 ≠ 0xF2 := by
    intro hslot
    have hpage : p = 2048 + 0xF2 := by
      obtain ⟨hdie, hbase⟩ | ⟨hdie, hbase⟩ := pageBase_cases p <;> omega
    rw [hpage] at h
    exact absurd h (by decide)
  obtain ⟨n, hn⟩ := Option.isSome_iff_exists.mp h
  simp only [regAt, if_neg (show ¬ 0x20000000 ≤ pageBase p + off by omega), if_neg (show ¬ 0x9000000 ≤ pageBase p + off by omega),
    if_neg hslot, addrPage_pageBase_add hp (show off < 0x10000 by omega), hn, hoff', if_pos hoff]

theorem maskAt_intPend {p : Nat} (h : (pageNcnt p).isSome = true) : maskAt (pageBase p + 16) = ⟨0, pageIntMask p, 0, 0⟩ := by
  rw [maskAt, regAt_header h (by decide), wordPage_pageBase (page_lt_of_isSome h) (by decide)]
  rfl

theorem maskAt_intEn {p : Nat} (h : (pageNcnt p).isSome = true) : maskAt (pageBase p + 20) = ⟨0xFFFFFFFF, 0, 0, 0⟩ := by
  rw [maskAt, regAt_header h (by decide)]
  rfl

/-! ### INT_FORCE, INT_EN and INT_PEND -/

/-- A cause that is raised sets its bit of INT_PEND and leaves the others. -/
theorem is_raiseInt_cause (b : Box) {p : Nat} (hp : p < 2304) {k i : Nat} (hk : k < 32) :
    (b.raiseInt p k).is (pageFld p 16 i 1) = (b.is (pageFld p 16 i 1) || decide (i = k)) := by
  have hmod := pageBase_mod p
  have hput : (b.put (pageFld p 16 k 1) true).is (pageFld p 16 i 1) = (b.is (pageFld p 16 i 1) || decide (i = k)) := by
    by_cases hik : i = k
    · rw [hik, is_put _ _ _ (show k + 1 ≤ 32 by omega) (show 0 < 1 by decide), decide_eq_true rfl, Bool.or_true]
    · rw [is_put_apart _ _ ⟨show k + 1 ≤ 32 by omega, .inr (show i + 1 ≤ k ∨ k + 1 ≤ i by omega)⟩, decide_eq_false hik,
        Bool.or_false]
  simp only [Box.raiseInt]
  split
  · rw [is_of_sameWords (sendVector_sameWords _ _) ?_, hput]
    have hlt := pageVector_lt hp
    simp only [pageFld, List.mem_singleton]
    omega
  · exact hput

/-- INT_FORCE over the first causes. -/
theorem intForce_range (b : Box) {p : Nat} (hp : p < 2304) (v i n : Nat) (hn : n ≤ 32) :
    ((List.range n).foldl (fun (b : Box) i => if v.testBit i && (pageIntMask p).testBit i then b.raiseInt p i else b) b).is
        (pageFld p 16 i 1)
      = (b.is (pageFld p 16 i 1) || (decide (i < n) && (v.testBit i && (pageIntMask p).testBit i))) := by
  induction n with
  | zero => simp
  | succ n ih =>
    rw [List.range_succ, List.foldl_append, List.foldl_cons, List.foldl_nil]
    by_cases hset : (v.testBit n && (pageIntMask p).testBit n) = true
    · rw [if_pos hset, is_raiseInt_cause _ hp (by omega), ih (by omega)]
      by_cases hin : i = n
      · subst hin
        simp [hset]
      · have hlt : decide (i < n + 1) = decide (i < n) := decide_eq_decide.mpr (by omega)
        rw [decide_eq_false hin, hlt, Bool.or_false]
    · rw [if_neg hset, ih (by omega)]
      by_cases hin : i = n
      · subst hin
        simp [Bool.eq_false_iff.mpr hset]
      · have hlt : decide (i < n + 1) = decide (i < n) := decide_eq_decide.mpr (by omega)
        rw [hlt]

theorem intForce_onlyRegs (b : Box) (p : Page) (v : Nat) : onlyRegs b (b.intForce p v) := by
  refine foldl_onlyRegs _ (fun b i _ => ?_) b
  split
  · exact raiseInt_onlyRegs _ _ _
  · exact onlyRegs_refl _

theorem intForce_sameWords (b : Box) (p : Page) (v : Nat) : sameWords (causeWords p) b (b.intForce p v) := by
  refine foldl_sameWords _ (fun b i _ => ?_) b
  split
  · exact raiseInt_sameWords _ _ _
  · exact sameWords_refl _ _

/-- A write of a header word that sets no reserved bit. -/
theorem headerWrite_of_known {b : Box} {src : Requester} {a v : Nat} (h : bitsOut v (maskAt a).known = 0) :
    b.headerWrite src a v = b.setWord a (BitVec.ofNat 32 (writtenWord (maskAt a) (b.word a).toNat v)) := rsvCheck_of_known h

/-- A write of INT_EN replaces it. -/
theorem intWrite_en {b : Box} {src : Requester} {p : Nat} (hp : (pageNcnt p).isSome = true) (value : Word) :
    b.intWrite src p false value.toNat = (b.setWord (pageBase p + 20) value).resendVector p := by
  have hall : bitsOut value.toNat 0xFFFFFFFF = 0 := Nat.eq_of_testBit_eq fun i => by
    rw [bitsOut_testBit, Nat.zero_testBit, show (0xFFFFFFFF : Nat) = 2 ^ 32 - 1 from rfl, Nat.testBit_two_pow_sub_one]
    by_cases hi : i < 32
    · simp [hi]
    · rw [Nat.testBit_lt_two_pow (Nat.lt_of_lt_of_le value.isLt (Nat.pow_le_pow_right (by decide) (by omega))), Bool.false_and]
  have hknown : bitsOut value.toNat (maskAt (pageBase p + 20)).known = 0 := by rw [maskAt_intEn hp]; exact hall
  have hword : BitVec.ofNat 32 (writtenWord (maskAt (pageBase p + 20)) (b.word (pageBase p + 20)).toNat value.toNat) = value := by
    refine BitVec.eq_of_getLsbD_eq fun i hi => ?_
    rw [getLsbD_ofNat_lt hi, writtenWord_testBit, maskAt_intEn hp, if_pos]
    · rfl
    · show (0xFFFFFFFF : Nat).testBit i = true
      rw [show (0xFFFFFFFF : Nat) = 2 ^ 32 - 1 from rfl, Nat.testBit_two_pow_sub_one, decide_eq_true hi]
  simp only [Box.intWrite, Bool.false_eq_true, if_false, headerWrite_of_known hknown, hword]

/-- A write of INT_PEND clears the causes written as 1. -/
theorem intWrite_pend {b : Box} {src : Requester} {p : Nat} (hp : (pageNcnt p).isSome = true) {value : Word}
    (hv : bitsOut value.toNat (pageIntMask p) = 0) :
    b.intWrite src p true value.toNat
        = (b.setWord (pageBase p + 16) (BitVec.ofNat 32 (writtenWord ⟨0, pageIntMask p, 0, 0⟩ (b.word (pageBase p + 16)).toNat
            value.toNat))).resendVector p := by
  have hmask : RegMask.known ⟨0, pageIntMask p, 0, 0⟩ = pageIntMask p := by simp [RegMask.known]
  have hknown : bitsOut value.toNat (maskAt (pageBase p + 16)).known = 0 := by rw [maskAt_intPend hp, hmask]; exact hv
  simp only [Box.intWrite, if_true, headerWrite_of_known hknown, maskAt_intPend hp]

/-- A header word is written whether or not its page is READY. -/
theorem actReg_header {s : State} {src : Requester} {p off : Nat} (hp : p < 2304) (hoff : off < 0x100) (hrun : s.phase = .run)
    (hreach : s.reaches src = true) (f : Box → Box) : s.actReg (pageBase p + off) src f = .next (s.onBox f) := by
  have hlt := pageBase_lt hp
  have hmod := pageBase_mod p
  have hword : wordOff (pageBase p + off) = off := by
    rw [wordOff, if_neg (by omega)]
    omega
  have hgate : s.toBox.gateWrite (pageBase p + off) src f = f s.toBox := by
    rw [Box.gateWrite, if_neg (by rw [hrun]; exact fun h => absurd h.1 (by decide)), if_neg]
    rw [hword]
    exact fun h => absurd h.2 (by omega)
  exact next_onBox (actHost_run s _ src hrun hreach) hgate

theorem is_pend_of_word {c : Box} {p : Page} {w : Word} (h : c.word (pageBase p + 16) = w) (i : Nat) :
    c.is (pageFld p 16 i 1) = w.getLsbD i := by rw [is_pageFld_bit, h]

/-- Settles O18: INT_FORCE raises its causes, INT_EN is replaced and INT_PEND cleared by ones. -/
theorem interruptRegistersSetAndClear : Obligations.InterruptRegistersSetAndClear := by
  intro s src page value hrun hreach hpage
  have hp := page_lt_of_isSome hpage
  have hmod := pageBase_mod page.toNat
  have hvector := pageVector_lt hp
  have hresend (b : Box) : sameWords [0xF28000 + 4 * (pageVector page.toNat / 32)] b (b.resendVector page.toNat) := by
    rw [Box.resendVector]
    split
    · exact sendVector_sameWords _ _
    · exact sameWords_refl _ _
  refine ⟨?_, ?_, fun hknown => ?_⟩
  · have hparts := intForce_onlyRegs s.toBox page.toNat value.toNat
    have hset (i : Nat) (hi : i < 32) := intForce_range s.toBox hp value.toNat i 32 (Nat.le_refl _)
    have hwords := intForce_sameWords s.toBox page.toNat value.toNat
    refine ⟨_, (if_pos hpage).trans (actReg_header hp (by decide) hrun hreach _), ?_, fun i hi => ?_, hwords⟩
    · exact congrArg (fun b : Box => ({ s with toBox := b } : State)) (anchored_of_onlyRegs hparts)
    · refine (hset i hi).trans ?_
      rw [decide_eq_true hi, Bool.true_and]
  · have hbox := intWrite_en (b := s.toBox) (src := src) hpage value
    refine ⟨_, next_onBox ((if_pos hpage).trans (actReg_header hp (by decide) hrun hreach _)) hbox, ?_, ?_, ?_⟩
    · refine (hresend _ (pageBase page.toNat + 20) ?_).trans (word_setWord _ _ _)
      simp only [List.mem_singleton]
      omega
    · exact congrArg (fun b : Box => ({ s with toBox := b } : State))
        (anchored_of_onlyRegs (onlyRegs_trans (setWord_onlyRegs _ _ _) (resendVector_onlyRegs _ _)))
    · exact sameWords_append (setWord_sameWords _ _ _) (hresend _)
  · have hbox := intWrite_pend (b := s.toBox) (src := src) hpage hknown
    refine ⟨_, next_onBox ((if_pos hpage).trans (actReg_header hp (by decide) hrun hreach _)) hbox, ?_, fun i hi => ?_, ?_⟩
    · exact congrArg (fun b : Box => ({ s with toBox := b } : State))
        (anchored_of_onlyRegs (onlyRegs_trans (setWord_onlyRegs _ _ _) (resendVector_onlyRegs _ _)))
    · have hout : (value.toNat.testBit i && !(pageIntMask page.toNat).testBit i) = false := by
        rw [← bitsOut_testBit, hknown, Nat.zero_testBit]
      have hbit := is_pend_of_word ((hresend _ (pageBase page.toNat + 16) (by simp only [List.mem_singleton]; omega)).trans
        (word_setWord s.toBox _ (BitVec.ofNat 32 (writtenWord ⟨0, pageIntMask page.toNat, 0, 0⟩
          (s.word (pageBase page.toNat + 16)).toNat value.toNat)))) i
      refine hbit.trans ?_
      rw [getLsbD_ofNat_lt hi, writtenWord_testBit, Nat.zero_testBit, is_pageFld_bit, BitVec.getLsbD]
      generalize (s.word (pageBase page.toNat + 16)).toNat.testBit i = old
      generalize (pageIntMask page.toNat).testBit i = known at hout ⊢
      cases known <;> cases hv : value.toNat.testBit i <;> simp_all
    · refine sameWords_trans (sameWords_mono (setWord_sameWords _ _ _) (by simp [causeWords])) (resendVector_sameWords _ _)

/-! ### Counters -/

theorem wordField_shift (w : Word) {i : Nat} (hi : 2 ≤ i) (cmd : Nat) (hcmd : cmd < 4) :
    (w.toNat / 4 * 4 + cmd).testBit i = (wordField w i 1 != 0) := by
  have hpow : 2 ^ i = 4 * 2 ^ (i - 2) := by
    rw [show (4 : Nat) = 2 ^ 2 from rfl, ← Nat.pow_add]
    congr 1
    omega
  have hdiv : (w.toNat / 4 * 4 + cmd) / 2 ^ i = w.toNat / 2 ^ i := by
    rw [hpow, ← Nat.div_div_eq_div_mul, ← Nat.div_div_eq_div_mul]
    congr 1
    omega
  rw [Nat.testBit_eq_decide_div_mod_eq, hdiv, wordField, natField]
  obtain h | h := Nat.mod_two_eq_zero_or_one (w.toNat / 2 ^ i) <;> rw [h] <;> simp [h]

/-- CLEAR in a write of CNT_CTRL. -/
theorem cntCtrl_clear (b : Box) (src : Requester) (p : Page) :
    b.cntCtrl src p (b.cntWith p 1) = (b.plainWrite src (pageBase p + 0x1000) (b.cntWith p 1)).cntClear p := by
  have hclear : (b.cntWith p 1).testBit 0 = true := by
    rw [Nat.testBit_eq_decide_div_mod_eq, Box.cntWith]
    exact decide_eq_true (by omega)
  have hsnap : (b.cntWith p 1).testBit 1 = false := by
    rw [Nat.testBit_eq_decide_div_mod_eq, Box.cntWith]
    exact decide_eq_false (by omega)
  simp only [Box.cntCtrl, hsnap, hclear, Bool.false_and, Bool.false_eq_true, if_false, if_true]

/-- SNAP in a write of CNT_CTRL that leaves SRC at 0. -/
theorem cntCtrl_snap {b : Box} (src : Requester) {p : Page} (hsrc : b.is (CNT_CTRL_SRC p) = false) :
    b.cntCtrl src p (b.cntWith p 2) = (b.plainWrite src (pageBase p + 0x1000) (b.cntWith p 2)).snapTake p := by
  have hclear : (b.cntWith p 2).testBit 0 = false := by
    rw [Nat.testBit_eq_decide_div_mod_eq, Box.cntWith]
    exact decide_eq_false (by omega)
  have hsnap : (b.cntWith p 2).testBit 1 = true := by
    rw [Nat.testBit_eq_decide_div_mod_eq, Box.cntWith]
    exact decide_eq_true (by omega)
  have htrig : (b.cntWith p 2).testBit 4 = false := (wordField_shift _ (by decide) 2 (by decide)).trans hsrc
  simp only [Box.cntCtrl, hsnap, hclear, htrig, Bool.or_self, Bool.and_false, Bool.false_eq_true, if_false, if_true]

theorem cntClear_eq (b : Box) (p : Page) : b.cntClear p = { b with
    ports := (b.fecRebase p).ports, preClear := replaceCounters b.preClear (b.snapSource p) p,
    clearAt := mapSet (fun _ => 0) b.clearAt p (b.raw + 1), ctrs := mapClear b.ctrs (p * 4096) 4096,
    regs := mapClear b.regs (pageBase p + 0x1100) 0x200 } := rfl

theorem snapTake_idle {b : Box} {p : Page} (h : b.is (CNT_STATUS_BUSY p) = false) : b.snapTake p
    = { b.put (CNT_STATUS_BUSY p) true with
        copying := replaceCounters b.copying (b.snapSource p) p, copyTick := mapSet (fun _ => 0) b.copyTick p (b.pageTick p) } :=
  if_neg (by rw [h]; decide)

/-- Fields of one page share no bit where their offsets or their bits differ. -/
theorem apart_pageFld {p : Page} {lo lo' off off' w w' : Nat}
    (h : lo + w ≤ 32 ∧ (off' ≠ off ∨ lo' + w' ≤ lo ∨ lo + w ≤ lo')) : Apart (pageFld p off lo w) (pageFld p off' lo' w') :=
  h.imp_right fun hd => hd.imp_left fun hne heq => hne (Nat.add_left_cancel heq)

/-- The end of a copy, in the words that it writes. -/
theorem snapDone_shows {b : Box} {p : Page} (h : b.is (CNT_STATUS_BUSY p) = true) :
    (b.snapDone p).is (CNT_STATUS_BUSY p) = false ∧ (b.snapDone p).is (CNT_STATUS_VALID p) = true
      ∧ (b.snapDone p).shadows = replaceCounters b.shadows (pageCounters b.copying p) p ∧ (b.snapDone p).ctrs = b.ctrs
      ∧ (b.snapDone p).rd (CNT_SNAP_LO p) + (b.snapDone p).rd (CNT_SNAP_HI p) * 2 ^ 32
          = mapGet (fun _ => 0) b.copyTick p % 2 ^ 64 := by
  simp only [Box.snapDone, h, Bool.true_eq_false, if_false]
  simp only [CNT_STATUS_BUSY, CNT_STATUS_VALID, CNT_SNAP_LO, CNT_SNAP_HI]
  generalize hcopied : ({ b with
    shadows := replaceCounters b.shadows (pageCounters b.copying p) p, copying := mapClear b.copying (p * 4096) 4096,
    copyTick := mapSet (fun _ => 0) b.copyTick p 0 } : Box) = c
  generalize mapGet (fun _ => 0) b.copyTick p = tick
  refine ⟨?_, ?_, ?_, ?_, ?_⟩
  · rw [is_wr_apart _ _ (apart_pageFld (by decide)), is_wr_apart _ _ (apart_pageFld (by decide)),
      is_put_apart _ _ (apart_pageFld (by decide))]
    exact is_put _ (pageFld p 0x1004 0 1) _ (show 0 + 1 ≤ 32 by decide) (show 0 < 1 by decide)
  · rw [is_wr_apart _ _ (apart_pageFld (by decide)), is_wr_apart _ _ (apart_pageFld (by decide))]
    exact is_put _ (pageFld p 0x1004 1 1) _ (show 1 + 1 ≤ 32 by decide) (show 0 < 1 by decide)
  · simp [← hcopied]
  · simp [← hcopied]
  · have hword (b : Box) (off v : Nat) : (b.wr (pageFld p off 0 32) v).rd (pageFld p off 0 32) = v % 2 ^ 32 :=
      rd_wr b (pageFld p off 0 32) v (show 0 + 32 ≤ 32 by decide)
    rw [rd_wr_apart _ _ (apart_pageFld (by decide)), hword, hword]
    omega

/-- The page of CNT_CTRL is READY, so that a write of it acts. -/
theorem actReg_counters {s : State} {src : Requester} {p : Nat} (hp : p < 2304) (hrun : s.phase = .run)
    (hreach : s.reaches src = true) (hready : s.is (PAGE_STATUS_READY p) = true) (f : Box → Box) :
    s.actReg (pageBase p + 0x1000) src f = .next (s.onBox f) :=
  actReg_run s _ _ _ hrun hreach (by rw [wordPage_pageBase hp (by decide)]; exact hready)

/-- Settles O17: reads latch, CLEAR clears a page, SNAP copies it. -/
theorem countersReadSnapAndClear : Obligations.CountersReadSnapAndClear := by
  refine ⟨fun s src addr hrun hreach => ⟨fun hlo => ?_, fun hhi hready v hv => ?_⟩, fun s src page hrun hreach hcounters =>
    ⟨fun hready => ?_, fun hready hsrc hidle => ?_, fun hbusy => ?_⟩⟩
  · simp only [ctrAddr, Bool.and_eq_true, beq_iff_eq] at hlo
    exact (if_pos hlo).trans (actHost_run s _ src hrun hreach)
  · simp only [ctrAddr, Bool.and_eq_true, beq_iff_eq] at hhi
    refine (if_pos hhi).trans ((actHost_run s _ src hrun hreach).trans ?_)
    have hhalf : s.toBox.ctrHi (addrPage addr.toNat) (ctrIndex (addr.toNat % 0x10000)) = BitVec.ofNat 32 (v.toNat / 2 ^ 32) := by
      rw [Box.ctrHi, if_pos hready, Box.hiHalf, hv]
    rw [State.onBox, hhalf]
    rfl
  · have hp := page_lt_of_isSome (isSome_of_hasCounters hcounters)
    have hbox := (cntCtrl_clear s.toBox src page.toNat).trans (cntClear_eq _ _)
    obtain ⟨_, _, hwritten⟩ := plainWrite_onlyRegs s.toBox src (pageBase page.toNat + 0x1000) (s.cntWith page.toNat 1)
    rw [hwritten] at hbox
    refine ⟨_, next_onBox ((if_pos hcounters).trans (actReg_counters hp hrun hreach hready _)) hbox, fun i hi => ?_,
      fun k hk => ?_, rfl, rfl⟩
    · exact (mapGet_mapClear _ _ _ _ _).trans (if_pos (by omega))
    · exact (mapGet_mapClear _ _ _ _ _).trans (if_neg fun ⟨hlo, hhi⟩ => hk.elim (Nat.not_lt.mpr hlo) (Nat.not_le.mpr hhi))
  · have hp := page_lt_of_isSome (isSome_of_hasCounters hcounters)
    have hbox := cntCtrl_snap (b := s.toBox) src hsrc
    obtain ⟨r, o, hwritten⟩ := plainWrite_onlyRegs s.toBox src (pageBase page.toNat + 0x1000) (s.cntWith page.toNat 2)
    have hstill : (s.plainWrite src (pageBase page.toNat + 0x1000) (s.cntWith page.toNat 2)).is (CNT_STATUS_BUSY page.toNat) = false := by
      refine (is_of_sameWords (plainWrite_sameWords _ _ _ _) ?_).trans hidle
      have hmod := pageBase_mod page.toNat
      have hvector := pageVector_lt hp
      simp only [wordPage_pageBase hp (show 0x1000 < 0x10000 by decide), CNT_STATUS_BUSY, pageFld, errorWords, causeWords,
        List.mem_cons, List.not_mem_nil, or_false]
      omega
    rw [snapTake_idle hstill, hwritten] at hbox
    refine ⟨_, next_onBox ((if_pos hcounters).trans (actReg_counters hp hrun hreach hready _)) hbox, ?_, fun hclear => ?_,
      fun hclear => ?_, mapGet_mapSet_same _ _ _ _, rfl, rfl⟩
    · exact is_put ({ s.toBox with regs := r, outbox := o } : Box) (pageFld page.toNat 0x1004 0 1) true (show 0 + 1 ≤ 32 by decide)
        (show 0 < 1 by decide)
    · exact congrArg (replaceCounters s.copying · page.toNat) (if_neg hclear)
    · exact congrArg (replaceCounters s.copying · page.toNat) (if_pos hclear)
  · obtain ⟨hdone, hvalid, hshadows, hctrs, htick⟩ := snapDone_shows hbusy
    exact ⟨_, act_run s _ hrun, hdone, hvalid, hshadows, hctrs, htick⟩

end Sys2Proof.Proofs
end

section
/-!
# Register and table accesses

An access of BAR0 by the place of its word, the words of configuration space, and the entries of BAR2.
-/

namespace Sys2Proof.Proofs

open Sys2Proof Sys2Proof.Machine Sys2Proof.Safety Sys2Proof.Laws

/-! ### Places -/

/-- The word at an address of an existing page lies at its offset from the page's base. -/
theorem pageBase_addrPage {a : Nat} (ha : a < 0x9000000) : pageBase (addrPage a) + a % 0x10000 = a := by
  by_cases hlt : a < 0x1000000
  · have hpage : @Eq Nat (addrPage a) (2048 + a / 0x10000) := if_pos hlt
    obtain ⟨hdie, hbase⟩ | ⟨hdie, hbase⟩ := pageBase_cases (2048 + a / 0x10000) <;> rw [hpage, hbase] <;> omega
  · have hpage : @Eq Nat (addrPage a) ((a / 0x1000000 - 1) * 256 + a / 0x10000 % 256) := if_neg hlt
    obtain ⟨hdie, hbase⟩ | ⟨hdie, hbase⟩ := pageBase_cases ((a / 0x1000000 - 1) * 256 + a / 0x10000 % 256) <;>
      rw [hpage, hbase] <;> omega

/-- The slots of BAR0 that hold no page of the register format. -/
abbrev plainSlot (a : Nat) : Prop := a / 0x10000 ∉ [0xF0, 0xF1, 0xF2]

theorem plainSlot_iff {a : Nat} : plainSlot a ↔ a / 0x10000 ≠ 0xF0 ∧ a / 0x10000 ≠ 0xF1 ∧ a / 0x10000 ≠ 0xF2 := by
  simp [plainSlot]

/-- A word whose place is a register of its own address lies in a page that exists. -/
theorem place_reg {b : Box} {a : Nat} (h : b.place a = .reg a) :
    plainSlot a ∧ a < 0x9000000 ∧ (pageNcnt (addrPage a)).isSome = true := by
  simp only [Box.place] at h
  split at h
  · exact absurd h (by simp)
  · next hblock =>
    split at h
    · exact absurd h (by simp)
    · next hmsix =>
      split at h
      · exact absurd h (by simp)
      · next hpage =>
        rw [not_or, Nat.not_le, Option.isNone_iff_eq_none, ← ne_eq, Option.ne_none_iff_isSome] at hpage
        exact ⟨plainSlot_iff.mpr ⟨fun h => hblock (.inl h), fun h => hblock (.inr h), hmsix⟩, hpage⟩

/-- A word of a slot without a page is nothing. -/
theorem place_nothing {b : Box} {a : Nat} (hslot : plainSlot a) (h : (pageNcnt (addrPage a)).isNone = true) :
    b.place a = .nothing := by
  obtain ⟨h0, h1, h2⟩ := plainSlot_iff.mp hslot
  simp only [Box.place, h0, h1, h2, or_self, if_false, h, or_true, if_true]

/-- A word of an existing page is something. -/
theorem place_ne_nothing {b : Box} {a : Nat} (ha : a < 0x9000000) (h : (pageNcnt (addrPage a)).isSome = true) :
    b.place a ≠ .nothing := by
  have hnone : ¬ (0x9000000 ≤ a ∨ (pageNcnt (addrPage a)).isNone = true) := by
    rw [not_or, Nat.not_le, Option.isNone_iff_eq_none, ← ne_eq, Option.ne_none_iff_isSome]
    exact ⟨ha, h⟩
  simp only [Box.place, if_neg hnone]
  repeat' split
  all_goals simp

/-- The words of a page's error indication are those of no plain register. -/
theorem plain_not_error {b : Box} {a : Nat} {r : RegAt} (hplace : b.place a = .reg a) (hr : regAt a = some r) (hplain : r.id ∈ plainRegs) :
    a ∉ errorWords (addrPage a) := by
  obtain ⟨hslot, hlt, hpage⟩ := place_reg hplace
  obtain ⟨-, -, h2⟩ := plainSlot_iff.mp hslot
  have hvector := pageVector_lt (page_lt_of_isSome hpage)
  have header {off : Nat} {id : RegId} {d : Nat} (hoff : off < 0x100)
      (hrow : ∀ die, findRow die off headerRows = some ⟨id, die, d⟩) (hid : id ∉ plainRegs) : a ≠ pageBase (addrPage a) + off := by
    intro ha
    have hfound := regAt_header hpage hoff
    rw [← ha, hr, hrow] at hfound
    rw [Option.some.inj hfound] at hplain
    exact hid hplain
  simp only [errorWords, causeWords, List.mem_cons, List.not_mem_nil, or_false, not_or]
  refine ⟨header (by decide) (fun _ => rfl) (by decide), header (by decide) (fun _ => rfl) (by decide), ?_⟩
  omega

theorem wordPage_of_lt {a : Nat} (h : a < 0x9000000) : wordPage a = addrPage a := if_neg (by omega)

/-! ### Plain registers -/

/-- The registers without a rule of their own are written plainly. -/
theorem regRule_plain {b : Box} {src : Requester} {r : RegAt} (h : r.id ∈ plainRegs) (a v : Nat) :
    b.regRule src r a v = b.plainWrite src a v := by
  obtain ⟨id, die, ix⟩ := r
  revert id
  simp only [plainRegs, List.forall_mem_cons, List.not_mem_nil, false_imp_iff, implies_true, and_true]
  repeat' apply And.intro
  all_goals rfl

/-- And a read of one returns its word, of a copy that of tent 0. -/
theorem regView_plain {b : Box} {r : RegAt} (h : r.id ∈ plainRegs) (a : Nat) :
    b.regView r a = (b.word (if tentZero r.id then tentZeroAt a else a), b) := by
  obtain ⟨id, die, ix⟩ := r
  revert id
  simp only [plainRegs, List.forall_mem_cons, List.not_mem_nil, false_imp_iff, implies_true, and_true]
  repeat' apply And.intro
  all_goals rfl

/-- A reserved write sets the indication of its page. -/
theorem rsvWrite_sets (b : Box) {p : Page} (hv : pageVector p / 32 < 0x1000) (off : Nat) (src : Requester) :
    (b.rsvWrite p off src).is (PAGE_ERR_RSVW p) = true := by
  have hset (b : Box) : (b.put (PAGE_ERR_RSVW p) true).is (PAGE_ERR_RSVW p) = true :=
    is_put b _ true (show 1 + 1 ≤ 32 by decide) (show 0 < 1 by decide)
  simp only [Box.rsvWrite, Box.pageErr]
  split
  · exact hset _
  · rw [is_raiseInt _ _ _ ?_]
    · exact hset _
    · have hmod := pageBase_mod p
      simp only [PAGE_ERR_RSVW, pageFld, causeWords, List.mem_cons, List.not_mem_nil, or_false]
      omega

section plain

variable {b : Box} {src : Requester} {a : Nat} {r : RegAt}

/-- A plain write's indication of reserved bits. -/
theorem rsvCheck_shows (hplace : b.place a = .reg a) (v : Nat) :
    if bitsOut v (maskAt a).known = 0 then b.rsvCheck src a v = b
    else (b.rsvCheck src a v).is (PAGE_ERR_RSVW (addrPage a)) = true := by
  obtain ⟨-, hlt, hpage⟩ := place_reg hplace
  have hvector := pageVector_lt (page_lt_of_isSome hpage)
  unfold Box.rsvCheck
  split
  · rfl
  · rw [Box.rsvWriteAt, wordPage_of_lt hlt]
    exact rsvWrite_sets b (by omega) _ _

/-- A write of a register without a rule of its own. -/
theorem writeWord_plain (hplace : b.place a = .reg a) (hr : regAt a = some r) (hplain : r.id ∈ plainRegs) (hrun : b.phase = .run)
    (hready : b.is (PAGE_STATUS_READY (addrPage a)) = true) (v : Nat) :
    b.writeWord src a v = if tentZero r.id = true ∧ r.die ≠ 0 then b.rsvCheck src a v else b.plainWrite src a v := by
  obtain ⟨-, hlt, -⟩ := place_reg hplace
  have hgate (f : Box → Box) : b.gateWrite a src f = f b := by
    simp only [Box.gateWrite, hrun, wordPage_of_lt hlt, hready, Bool.true_eq_false, false_and, if_false]
    exact if_neg fun h => absurd h.1 (by decide)
  rw [Box.writeWord, hplace]
  refine (hgate _).trans ?_
  simp only [Box.placeWrite, hr, if_neg (show ¬ 0x20000000 ≤ a by omega), regRule_plain hplain]

/-- What it leaves in its word. -/
theorem writeWord_plain_bits (hplace : b.place a = .reg a) (hr : regAt a = some r) (hplain : r.id ∈ plainRegs)
    (hrun : b.phase = .run) (hready : b.is (PAGE_STATUS_READY (addrPage a)) = true) (v : Nat) {i : Nat} (hi : i < 32) :
    ((b.writeWord src a v).word a).getLsbD i
      = if tentZero r.id = true ∧ r.die ≠ 0 then (b.word a).getLsbD i
        else if (maskAt a).rw.testBit i then v.testBit i
        else ((b.word a).getLsbD i && !((maskAt a).w1c.testBit i && v.testBit i)) := by
  obtain ⟨-, hlt, -⟩ := place_reg hplace
  have hsame : (b.rsvCheck src a v).word a = b.word a :=
    rsvCheck_sameWords b src a v a (by rw [wordPage_of_lt hlt]; exact plain_not_error hplace hr hplain)
  rw [writeWord_plain hplace hr hplain hrun hready]
  by_cases hcopy : tentZero r.id = true ∧ r.die ≠ 0
  · rw [if_pos hcopy, if_pos hcopy, hsame]
  · rw [if_neg hcopy, if_neg hcopy, Box.plainWrite, word_setWord, getLsbD_ofNat_lt hi, writtenWord_testBit, hsame,
      BitVec.getLsbD]

theorem writeWord_plain_onlyRegs (hplace : b.place a = .reg a) (hr : regAt a = some r) (hplain : r.id ∈ plainRegs)
    (hrun : b.phase = .run) (hready : b.is (PAGE_STATUS_READY (addrPage a)) = true) (v : Nat) :
    onlyRegs b (b.writeWord src a v) := by
  rw [writeWord_plain hplace hr hplain hrun hready]
  split
  · exact rsvCheck_onlyRegs _ _ _ _
  · exact plainWrite_onlyRegs _ _ _ _

/-- The words that it leaves, and its indication of reserved bits. -/
theorem writeWord_plain_words (hplace : b.place a = .reg a) (hr : regAt a = some r) (hplain : r.id ∈ plainRegs)
    (hrun : b.phase = .run) (hready : b.is (PAGE_STATUS_READY (addrPage a)) = true) (v : Nat) :
    if bitsOut v (maskAt a).known = 0 then sameWords [a] b (b.writeWord src a v)
    else (b.writeWord src a v).is (PAGE_ERR_RSVW (addrPage a)) = true
      ∧ sameWords (a :: errorWords (addrPage a)) b (b.writeWord src a v) := by
  obtain ⟨-, hlt, -⟩ := place_reg hplace
  have hshows := rsvCheck_shows (src := src) hplace v
  have hwords := rsvCheck_sameWords b src a v
  have herr : (PAGE_ERR_RSVW (addrPage a)).addr ∉ [a] := fun h =>
    plain_not_error hplace hr hplain (List.mem_cons.mpr (.inl (List.mem_singleton.mp h).symm))
  rw [wordPage_of_lt hlt] at hwords
  rw [writeWord_plain hplace hr hplain hrun hready]
  by_cases hknown : bitsOut v (maskAt a).known = 0
  · rw [if_pos hknown] at hshows ⊢
    split
    · rw [hshows]; exact sameWords_refl _ _
    · rw [Box.plainWrite, hshows]; exact setWord_sameWords _ _ _
  · rw [if_neg hknown] at hshows ⊢
    split
    · exact ⟨hshows, sameWords_mono hwords fun _ => List.mem_cons_of_mem _⟩
    · refine ⟨(is_of_sameWords (setWord_sameWords _ _ _) herr).trans hshows, ?_⟩
      exact sameWords_mono (sameWords_append hwords (setWord_sameWords _ _ _)) (by simp [or_comm])

/-- A read of a register without a rule of its own. -/
theorem readWord_plain (hplace : b.place a = .reg a) (hr : regAt a = some r) (hplain : r.id ∈ plainRegs)
    (hready : b.is (PAGE_STATUS_READY (addrPage a)) = true) :
    b.readWord a = (b.word (if tentZero r.id then tentZeroAt a else a), b) := by
  rw [Box.readWord, hplace]
  simp only [hready, Bool.true_eq_false, false_and, if_false, Box.placeRead, hr, regView_plain hplain]

end plain

/-! ### Other accesses of BAR0 -/

/-- An access of nothing. -/
theorem unmapped_shows (b : Box) {a : Nat} (ha : a < 2 ^ 32) :
    (b.unmapped a).ctr cxlPage 0 = b.ctr cxlPage 0 + 1 ∧ (b.unmapped a).rd CXL_UNMAPPED_ADDR_ADDR = a
      ∧ (b.unmapped a).is (pageFld cxlPage 16 1 1) = true ∧ onlyRegsCtrs b (b.unmapped a) := by
  have hctr : (b.count cxlPage 0).ctr cxlPage 0 = b.ctr cxlPage 0 + 1 := by
    rw [count_ctr, BitVec.ofNat_add, BitVec.ofNat_toNat, BitVec.setWidth_eq]
    rfl
  have hregs := onlyRegs_trans (wr_onlyRegs (b.count cxlPage 0) CXL_UNMAPPED_ADDR_ADDR a) (raiseInt_onlyRegs _ cxlPage 1)
  refine ⟨?_, ?_, raiseInt_sets _ _ _ (by decide) (by decide), onlyRegsCtrs_trans (bump_onlyRegsCtrs _ _ _ _) hregs.toCtrs⟩
  · obtain ⟨_, _, h⟩ := hregs
    rw [Box.unmapped, h]
    exact hctr
  · rw [Box.unmapped, rd_raiseInt _ _ _ (by decide)]
    exact rd_wr_lt _ (by decide) ha

/-- An access of BAR0 whose size or place none has. -/
theorem regWrite_skew {b : Box} {src : Requester} {a size : Nat} (hrun : b.phase = .run) (ha : a < 0x9000000)
    (hpage : (pageNcnt (addrPage a)).isSome = true) (h4 : ¬ (size = 4 ∧ a % 4 = 0)) (h8 : ¬ (size = 8 ∧ a % 8 = 0)) (v : Nat) :
    b.regWrite src a size v = b.accErr (addrPage a) (a % 0x10000) src
      ∧ b.regRead src a size = (onesRead size, b.accErr (addrPage a) (a % 0x10000) src) := by
  have hplace := place_ne_nothing (b := b) ha hpage
  have hnone : (pageNcnt (addrPage a)).isNone = false := by rw [← Option.not_isSome, hpage]; rfl
  refine ⟨?_, ?_⟩
  · rw [Box.regWrite, if_neg h4, if_neg h8, if_neg hplace, if_neg]
    rw [hrun, hnone]
    exact fun h => h.elim (fun h => absurd h.1 (by decide)) (by decide)
  · rw [Box.regRead, if_neg h4, if_neg h8, if_neg hplace, hnone, if_neg (by decide)]

/-- A register of a page that is not READY takes no write. -/
theorem writeWord_notReady {b : Box} {src : Requester} {a : Nat} (hplace : b.place a = .reg a) (hrun : b.phase = .run)
    (hoff : 0x100 ≤ a % 0x10000) (hready : b.is (PAGE_STATUS_READY (addrPage a)) = false) (v : Nat) :
    b.writeWord src a v = b.accErr (addrPage a) (a % 0x10000) src := by
  obtain ⟨-, hlt, -⟩ := place_reg hplace
  have hword : wordOff a = a % 0x10000 := if_neg (by omega)
  rw [Box.writeWord, hplace]
  simp only [Box.gateWrite, hrun, wordPage_of_lt hlt, hready, hword, hoff, and_self, if_true]
  exact if_neg fun h => absurd h.1 (by decide)

/-! ### Configuration space -/

theorem natLE_bytesLE (n v : Nat) : natLE (bytesLE n v) = v % 256 ^ n := by
  induction n generalizing v with
  | zero => simp [bytesLE, natLE, Nat.mod_one]
  | succ n ih =>
    have hcons : natLE (bytesLE (n + 1) v) = (BitVec.ofNat 8 v).toNat + natLE (bytesLE n (v / 256)) * 256 := rfl
    rw [hcons, ih, BitVec.toNat_ofNat, Nat.pow_succ 256 n, Nat.mul_comm (256 ^ n), Nat.mod_mul]
    omega

theorem bytesLE_length (n v : Nat) : (bytesLE n v).length = n := by
  induction n generalizing v with
  | zero => rfl
  | succ n ih => simp only [bytesLE, List.length_cons, ih]

/-- A write of all four bytes. -/
theorem cfgMerge_whole (old : Word) (v : Nat) : cfgMerge old 0 4 v = BitVec.ofNat 32 v := by
  have hput : listPut (bytesLE 4 old.toNat) 0 (bytesLE 4 v) = bytesLE 4 v := by
    refine List.ext_getElem (by simp [listPut, bytesLE_length]) fun i hi hi' => ?_
    simp only [listPut, List.length_mapIdx, bytesLE_length] at hi
    simp [listPut, bytesLE_length, hi, List.getD_eq_getElem?_getD]
  rw [cfgMerge, hput, natLE_bytesLE]
  exact BitVec.eq_of_toNat_eq (by simp [BitVec.toNat_ofNat])

theorem cfgStore_word (b : Box) {a : Nat} (ha : a % 4 = 0) (v : Nat) :
    (∃ r c, b.cfgStore a 4 v = { b with regs := r, cfg := c })
      ∧ (b.cfgStore a 4 v).cfgRead a = cfgWritten a (b.cfgRead a) (BitVec.ofNat 32 v) := by
  have hsize : cfgSize a 4 = true := by simp [cfgSize, ha]
  have hword : a / 4 * 4 = a := by omega
  simp only [Box.cfgStore, hsize, Bool.true_eq_false, if_false, hword, ha, cfgMerge_whole]
  split
  · exact ⟨⟨_, _, rfl⟩, by simp [Box.cfgRead]⟩
  · exact ⟨⟨b.regs, _, rfl⟩, by simp [Box.cfgRead]⟩

theorem cfgAccess_word (b : Box) : b.cfgAccess 0 4 = [b.cfgRead 0] := by
  have hsize : cfgSize 0 4 = true := rfl
  have hbytes (n : Nat) : leAt (bytesLE 4 n) 0 4 = n % 256 ^ 4 := natLE_bytesLE 4 n
  simp only [Box.cfgAccess, hsize, if_true, Nat.zero_div, Nat.zero_mul, Nat.zero_mod, hbytes]
  exact congrArg (fun w => [w]) (BitVec.eq_of_toNat_eq (by
    have hlt := (b.cfgRead 0).isLt
    rw [BitVec.toNat_ofNat]
    omega))

/-! ### BAR2 -/

/-- The words of an entry of BAR2, of which it holds more than none, share its table and first offset. -/
theorem bar2Entry_words {e n : Nat} {tb : Table} (he : e % 4 = 0) (h : bar2Entry e = some (tb, e, n)) :
    0 < n ∧ e + 4 * n ≤ 2 ^ 32 ∧ ∀ j, j < n → bar2Entry (e + 4 * j) = some (tb, e, n) := by
  have h0 := h
  unfold bar2Entry at h
  dsimp only at h
  split_ifs at h with h1 h2 h3 h4 h5 h6 h7 h8 h9 h10
  all_goals
    simp only [Option.some.injEq, Prod.mk.injEq] at h
    obtain ⟨rfl, hfirst, rfl⟩ := h
    refine ⟨by decide, by omega, fun j hj => ?_⟩
  · obtain rfl : j = 0 := by omega
    exact h0
  · obtain rfl : j = 0 := by omega
    exact h0
  · have hbank : (e + 4 * j) / 0x100000 = e / 0x100000 := by omega
    have hindex : ((e + 4 * j) % 0x100000 - 0x20000) / 32 = (e % 0x100000 - 0x20000) / 32 := by omega
    have hbase : (e + 4 * j) / 32 * 32 = e := by omega
    unfold bar2Entry
    dsimp only
    rw [if_pos (by omega), if_neg (by omega), if_neg (by omega), if_pos (by omega), hbank, hindex, hbase]
  · have hindex : (e + 4 * j) % 0x100000 / 64 = e % 0x100000 / 64 := by omega
    have hbase : (e + 4 * j) / 64 * 64 = e := by omega
    unfold bar2Entry
    dsimp only
    rw [if_neg (by omega), if_pos (by omega), hindex, hbase]
  · have hindex : (e + 4 * j) % 0x100000 / 32 = e % 0x100000 / 32 := by omega
    have hbase : (e + 4 * j) / 32 * 32 = e := by omega
    unfold bar2Entry
    dsimp only
    rw [if_neg (by omega), if_neg (by omega), if_pos (by omega), hindex, hbase]
  · have hblock : (e + 4 * j) / 0x100000 = e / 0x100000 := by omega
    have hindex : (e + 4 * j - 0x1200000) / 512 = (e - 0x1200000) / 512 := by omega
    have hrow : (e + 4 * j) / 512 = e / 512 := Nat.div_eq_of_lt_le (by omega) (by omega)
    have hbase : (e + 4 * j) / 512 * 512 = e := by rw [hrow, hfirst]
    unfold bar2Entry
    dsimp only
    rw [hblock, if_neg (by omega), if_neg h5, if_neg (by omega), if_pos ⟨h7.1, by omega⟩, hindex, hbase]
  · have hindex : (e + 4 * j) % 0x100000 / 8 = e % 0x100000 / 8 := by omega
    have hbase : (e + 4 * j) / 8 * 8 = e := by omega
    unfold bar2Entry
    dsimp only
    rw [if_neg (by omega), if_neg (by omega), if_neg (by omega), if_neg (by omega), if_pos (by omega), hindex, hbase]
  · have hport : (e + 4 * j - 0x2000000) / 0x4000 = (e - 0x2000000) / 0x4000 := by omega
    have hbank : (e + 4 * j - 0x2000000) % 0x4000 / 0x2000 = (e - 0x2000000) % 0x4000 / 0x2000 := by omega
    have hindex : (e + 4 * j - 0x2000000) % 0x2000 / 8 = (e - 0x2000000) % 0x2000 / 8 := by omega
    have hbase : (e + 4 * j) / 8 * 8 = e := by omega
    unfold bar2Entry
    dsimp only
    rw [if_neg (by omega), if_neg (by omega), if_neg (by omega), if_neg (by omega), if_neg (by omega), if_pos (by omega), hport,
      hbank, hindex, hbase]
  · have hport : (e + 4 * j - 0x4000000) / 0x80 = (e - 0x4000000) / 0x80 := by omega
    have hvc : (e + 4 * j) % 0x80 / 16 = e % 0x80 / 16 := by omega
    have hbase : (e + 4 * j) / 16 * 16 = e := by omega
    unfold bar2Entry
    dsimp only
    rw [if_neg (by omega), if_neg (by omega), if_neg (by omega), if_neg (by omega), if_neg (by omega), if_neg (by omega),
      if_pos (by omega), hport, hvc, hbase]

/-- One word that goes on with the entry that is staged. -/
theorem bar2Word_next {b : Box} {src : Requester} {e n : Nat} {tb : Table} {old : List Word} {a : Nat}
    (ha : a = e + 4 * old.length) (hentry : bar2Entry a = some (tb, e, n))
    (hold : b.bar2 = if old = [] then none else some (e, old)) (w : Word) :
    b.bar2Word src a w = if old.length + 1 = n then Box.tableCommit { b with bar2 := none } src tb (old ++ [w])
      else { b with bar2 := some (e, old ++ [w]) } := by
  have hk : (a - e) / 4 = old.length := by omega
  cases old with
  | nil => simp [Box.bar2Word, hentry, hk, hold]
  | cons x xs => simp [Box.bar2Word, hentry, hk, hold]

/-- Words that go on with the entry that is staged and do not complete it. -/
theorem bar2Words_stage {src : Requester} {e n : Nat} {tb : Table} (hentry : ∀ j, j < n → bar2Entry (e + 4 * j) = some (tb, e, n))
    (ws : List Word) {b : Box} {old : List Word} (hrun : b.phase ≠ .failStopped)
    (hold : b.bar2 = if old = [] then none else some (e, old)) (hlen : old.length + ws.length < n) :
    b.bar2Words src (e + 4 * old.length) ws = { b with bar2 := if old ++ ws = [] then none else some (e, old ++ ws) } := by
  induction ws generalizing b old with
  | nil => simp only [Box.bar2Words, List.append_nil, ← hold]
  | cons w ws ih =>
    rw [List.length_cons] at hlen
    have hword := bar2Word_next (src := src) rfl (hentry old.length (by omega)) hold w
    rw [if_neg (by omega)] at hword
    have hnext := ih (b := { b with bar2 := some (e, old ++ [w]) }) (old := old ++ [w]) hrun (by simp) (by simp; omega)
    simp only [Box.bar2Words, if_neg hrun, hword]
    simpa [Nat.mul_add, Nat.add_assoc] using hnext

/-- Words that complete it. -/
theorem bar2Words_commit {src : Requester} {e n : Nat} {tb : Table} (hentry : ∀ j, j < n → bar2Entry (e + 4 * j) = some (tb, e, n))
    (ws : List Word) {b : Box} {old : List Word} (hrun : b.phase ≠ .failStopped)
    (hold : b.bar2 = if old = [] then none else some (e, old)) (hlt : old.length < n) (hlen : old.length + ws.length = n) :
    b.bar2Words src (e + 4 * old.length) ws = Box.tableCommit { b with bar2 := none } src tb (old ++ ws) := by
  induction ws generalizing b old with
  | nil => exact absurd hlen (by rw [List.length_nil]; omega)
  | cons w ws ih =>
    rw [List.length_cons] at hlen
    have hword := bar2Word_next (src := src) rfl (hentry old.length hlt) hold w
    by_cases hlast : ws = []
    · subst hlast
      rw [if_pos (by simpa using hlen)] at hword
      simp only [Box.bar2Words, if_neg hrun, hword]
    · have hmore := List.length_pos_of_ne_nil hlast
      rw [if_neg (by omega)] at hword
      have hnext := ih (b := { b with bar2 := some (e, old ++ [w]) }) (old := old ++ [w]) hrun (by simp) (by simp; omega)
        (by simp; omega)
      simp only [Box.bar2Words, if_neg hrun, hword]
      simpa [Nat.mul_add, Nat.add_assoc] using hnext

/-- A word that begins another entry discards what is staged. -/
theorem bar2Word_restart {b : Box} {src : Requester} {a e n : Nat} {tb : Table} {old : List Word}
    (hentry : bar2Entry a = some (tb, a, n)) (hold : b.bar2 = some (e, old)) (he : e ≠ a) (hn : 1 < n) (w : Word) :
    b.bar2Word src a w = { Box.count { b with bar2 := none } cxlPage 2 with bar2 := some (a, [w]) } := by
  have hn' : ¬ 1 = n := by omega
  simp [Box.bar2Word, hentry, hold, he, hn']

/-- The pair of words at TGT_SET. -/
theorem place_tgtSet (b : Box) : b.place TGT_SET_LO_at = .reg TGT_SET_LO_at ∧ b.place TGT_SET_HI_at = .reg TGT_SET_HI_at :=
  ⟨rfl, rfl⟩

theorem regAt_tgtSet : regAt TGT_SET_LO_at = some ⟨.TGT_SET_LO, 8, 0⟩ ∧ regAt TGT_SET_HI_at = some ⟨.TGT_SET_HI, 8, 0⟩ := by
  decide

theorem maskAt_tgtSet : maskAt TGT_SET_LO_at = ⟨0xFFFFFFFF, 0, 0, 0⟩ ∧ maskAt TGT_SET_HI_at = ⟨0xFFFFFFFF, 0, 0, 0⟩ := by
  decide

/-- A plain write of a register that is RW in all its bits. -/
theorem plainWrite_all {b : Box} {src : Requester} {a v : Nat} (hmask : maskAt a = ⟨0xFFFFFFFF, 0, 0, 0⟩) (hv : v < 2 ^ 32) :
    b.plainWrite src a v = b.setWord a (BitVec.ofNat 32 v) := by
  have hall (i : Nat) : (0xFFFFFFFF : Nat).testBit i = decide (i < 32) := Nat.testBit_two_pow_sub_one 32 i
  have hknown : bitsOut v (maskAt a).known = 0 := by
    refine hmask ▸ Nat.eq_of_testBit_eq fun i => ?_
    rw [bitsOut_testBit, Nat.zero_testBit, show RegMask.known ⟨0xFFFFFFFF, 0, 0, 0⟩ = 0xFFFFFFFF from rfl, hall]
    by_cases hi : i < 32
    · simp [hi]
    · rw [Nat.testBit_lt_two_pow (Nat.lt_of_lt_of_le hv (Nat.pow_le_pow_right (by decide) (by omega))), Bool.false_and]
  rw [plainWrite_of_known hknown, hmask]
  refine congrArg _ (BitVec.eq_of_getLsbD_eq fun i hi => ?_)
  rw [getLsbD_ofNat_lt hi, getLsbD_ofNat_lt hi, writtenWord_testBit, if_pos ((hall i).trans (decide_eq_true hi))]

/-- The words that a write of TGT_SET leaves. -/
def tgtSetWritten (b : Box) (v : Nat) : Box :=
  (b.setWord TGT_SET_LO_at (BitVec.ofNat 32 v)).setWord TGT_SET_HI_at (BitVec.ofNat 32 (v / 2 ^ 32))

/-- Both words of TGT_SET at once. -/
theorem regWrite_tgtSet {b : Box} {src : Requester} (hrun : b.phase = .run) (hready : b.is (PAGE_STATUS_READY tgtPage) = true)
    {v : Nat} (hv : v < 2 ^ 64) : b.regWrite src TGT_SET_LO_at 8 v = tgtSetWritten b v := by
  have hlo : b.writeWord src TGT_SET_LO_at (v % 2 ^ 32) = b.setWord TGT_SET_LO_at (BitVec.ofNat 32 v) := by
    rw [writeWord_plain (place_tgtSet b).1 regAt_tgtSet.1 (by decide) hrun hready, if_neg (by decide),
      plainWrite_all maskAt_tgtSet.1 (Nat.mod_lt _ (by decide))]
    exact congrArg _ (BitVec.eq_of_toNat_eq (by simp only [BitVec.toNat_ofNat, Nat.mod_mod]))
  have hready' : (b.setWord TGT_SET_LO_at (BitVec.ofNat 32 v)).is (PAGE_STATUS_READY tgtPage) = true :=
    (is_of_sameWords (setWord_sameWords _ _ _) (by decide)).trans hready
  have hhi : (b.setWord TGT_SET_LO_at (BitVec.ofNat 32 v)).writeWord src TGT_SET_HI_at (v / 2 ^ 32) = tgtSetWritten b v := by
    rw [writeWord_plain (b := b.setWord _ _) (place_tgtSet _).2 regAt_tgtSet.2 (by decide) hrun hready', if_neg (by decide),
      plainWrite_all maskAt_tgtSet.2 (by omega)]
    rfl
  rw [Box.regWrite, if_neg (by decide), if_pos (by decide), hlo]
  exact hhi

theorem regRead_tgtSet {b : Box} {src : Requester} (hready : b.is (PAGE_STATUS_READY tgtPage) = true) :
    b.regRead src TGT_SET_LO_at 8 = ([b.word TGT_SET_LO_at, b.word TGT_SET_HI_at], b) := by
  have hlo := readWord_plain (place_tgtSet b).1 regAt_tgtSet.1 (by decide) hready
  have hhi : b.readWord (TGT_SET_LO_at + 4) = _ := readWord_plain (place_tgtSet b).2 regAt_tgtSet.2 (by decide) hready
  rw [Box.regRead, if_neg (by decide), if_pos (by decide), hlo]
  simp only [hhi]
  rfl

/-- Settles O16: accesses of BAR0 by place, of configuration space, and of the entries of BAR2. -/
theorem registerAndTableAccesses : Obligations.RegisterAndTableAccesses := by
  refine ⟨fun s src hrun hreach => ⟨fun addr data r halign hplace hr hplain hready => ?_, fun data hready => ?_,
    fun addr data r halign hplace hr hoff hready => ?_, fun addr size data hlt hpage hslot h4 h8 => ?_,
    fun addr data hpage hslot halign => ?_⟩, fun s data hrun hreach => ⟨?_, ?_, ?_⟩,
    fun s src addr tb n w ws hrun hreach halign hentry => ?_⟩
  · have hwrite (v : Nat) : s.toBox.regWrite src addr.toNat 4 v = s.toBox.writeWord src addr.toNat (v % 2 ^ 32) :=
      if_pos ⟨rfl, halign⟩
    have hread : s.toBox.regRead src addr.toNat 4
        = ([s.word (if tentZero r.id then tentZeroAt addr.toNat else addr.toNat)], s.toBox) := by
      rw [Box.regRead, if_pos ⟨rfl, halign⟩, readWord_plain hplace hr hplain hready]
    have hparts := writeWord_plain_onlyRegs (src := src) hplace hr hplain hrun hready (data.toNat % 2 ^ 32)
    refine ⟨⟨_, next_onBox (actHost_run s _ src hrun hreach) (hwrite data.toNat), ?_, fun i hi =>
      writeWord_plain_bits (src := src) hplace hr hplain hrun hready (data.toNat % 2 ^ 32) hi,
      writeWord_plain_words (src := src) hplace hr hplain hrun hready (data.toNat % 2 ^ 32)⟩, ?_⟩
    · exact congrArg (fun b : Box => ({ s with toBox := b } : State)) (anchored_of_onlyRegs hparts)
    · exact next_onBox (b := s.toBox.emit (.readData src [s.word (if tentZero r.id then tentZeroAt addr.toNat else addr.toNat)]))
        (actHost_run s _ src hrun hreach) (by
          show (s.toBox.regRead src addr.toNat 4).2.emit (.readData src (s.toBox.regRead src addr.toNat 4).1) = _
          rw [hread])
  · have hlo : (BitVec.ofNat 28 TGT_SET_LO_at).toNat = TGT_SET_LO_at := by decide
    have hwrite : s.toBox.regWrite src (BitVec.ofNat 28 TGT_SET_LO_at).toNat 8 data.toNat = tgtSetWritten s.toBox data.toNat := by
      rw [hlo, regWrite_tgtSet hrun hready data.isLt]
    refine ⟨⟨_, next_onBox (actHost_run s _ src hrun hreach) hwrite, ?_, word_setWord _ _ _, rfl,
      sameWords_append (setWord_sameWords _ _ _) (setWord_sameWords _ _ _)⟩, ?_⟩
    · exact (word_setWord_other _ _ (by decide)).trans (word_setWord _ _ _)
    · refine next_onBox (b := s.toBox.emit (.readData src [s.word TGT_SET_LO_at, s.word TGT_SET_HI_at]))
        (actHost_run s _ src hrun hreach) ?_
      show (s.toBox.regRead src (BitVec.ofNat 28 TGT_SET_LO_at).toNat 8).2.emit
        (.readData src (s.toBox.regRead src (BitVec.ofNat 28 TGT_SET_LO_at).toNat 8).1) = _
      rw [hlo, regRead_tgtSet hready]
  · obtain ⟨-, hlt, hpage⟩ := place_reg hplace
    have hbox : s.toBox.regWrite src addr.toNat 4 data.toNat = s.toBox.accErr (addrPage addr.toNat) (addr.toNat % 0x10000) src :=
      (if_pos ⟨rfl, halign⟩).trans (writeWord_notReady hplace hrun hoff hready _)
    have hvector := pageVector_lt (page_lt_of_isSome hpage)
    refine ⟨_, next_onBox (actHost_run s _ src hrun hreach) hbox, accErr_sets s.toBox (by omega) _ _, ?_,
      accErr_sameWords s.toBox _ _ _⟩
    exact congrArg (fun b : Box => ({ s with toBox := b } : State)) (anchored_of_onlyRegs (accErr_onlyRegs _ _ _ _))
  · obtain ⟨hwrite, hread⟩ := regWrite_skew (src := src) hrun hlt hpage h4 h8 data.toNat
    have hvector := pageVector_lt (page_lt_of_isSome hpage)
    have herr := accErr_sets s.toBox (p := addrPage addr.toNat) (by omega) (addr.toNat % 0x10000) src
    refine ⟨⟨_, next_onBox (actHost_run s _ src hrun hreach) hwrite, herr, ?_, accErr_sameWords s.toBox _ _ _⟩, ?_⟩
    · exact congrArg (fun b : Box => ({ s with toBox := b } : State)) (anchored_of_onlyRegs (accErr_onlyRegs _ _ _ _))
    · refine ⟨_, next_onBox (b := (s.toBox.accErr (addrPage addr.toNat) (addr.toNat % 0x10000) src).emit
        (.readData src (onesRead size))) (actHost_run s _ src hrun hreach) ?_, herr, rfl⟩
      show (s.toBox.regRead src addr.toNat size).2.emit (.readData src (s.toBox.regRead src addr.toNat size).1) = _
      rw [hread]
  · have hplace := place_nothing (b := s.toBox) hslot hpage
    have hbox : s.toBox.regWrite src addr.toNat 4 data.toNat = s.toBox.unmapped addr.toNat := by
      rw [Box.regWrite, if_pos ⟨rfl, halign⟩, Box.writeWord, hplace]
    obtain ⟨hctr, haddr, hcause, hparts⟩ := unmapped_shows s.toBox (Nat.lt_trans addr.isLt (by decide))
    generalize s.toBox.unmapped addr.toNat = u at *
    refine ⟨_, next_onBox (actHost_run s _ src hrun hreach) hbox, hctr, haddr, hcause, ?_⟩
    obtain ⟨r, o, c, rfl⟩ := hparts
    rfl
  · obtain ⟨hparts, hread⟩ := cfgStore_word s.toBox (a := 0x10) (by decide) data.toNat
    have hbox : s.toBox.hostWrite .driver (.config 0x10) 4 data = s.toBox.cfgStore 0x10 4 data.toNat := rfl
    generalize s.toBox.cfgStore 0x10 4 data.toNat = c at *
    refine ⟨_, next_onBox (actHost_run s _ .driver hrun hreach) hbox, ?_, hread⟩
    obtain ⟨r, f, rfl⟩ := hparts
    rfl
  · obtain ⟨-, hread⟩ := cfgStore_word s.toBox (a := 0x20) (by decide) data.toNat
    have hbox : s.toBox.hostWrite .driver (.config 0x20) 4 data = s.toBox.cfgStore 0x20 4 data.toNat := rfl
    generalize s.toBox.cfgStore 0x20 4 data.toNat = c at *
    exact ⟨_, next_onBox (actHost_run s _ .driver hrun hreach) hbox, hread⟩
  · refine next_onBox (b := s.toBox.emit (.readData .driver [s.cfgRead 0])) (actHost_run s _ .driver hrun hreach) ?_
    show s.toBox.emit (.readData .driver (s.toBox.cfgAccess 0 4)) = _
    rw [cfgAccess_word]
  · obtain ⟨hpos, hfits, hwords⟩ := bar2Entry_words halign hentry
    have hnotStopped : s.phase ≠ .failStopped := by rw [hrun]; decide
    have hexec (a : BitVec 32) (xs : List Word) (ha : a.toNat % 4 = 0) {b : Box} (hb : s.toBox.bar2Words src a.toNat xs = b) :
        exec (.bar2Write src a xs) s = .next (s.onBox fun _ => b) :=
      next_onBox (actHost_run s _ src hrun hreach) ((if_pos ha).trans hb)
    refine ⟨fun hnone hsome hless => ?_, fun hnone hall => ?_, fun old hold hsome hless => ?_, fun e old hold he hn => ?_⟩
    · have hne : ws ≠ [] := List.ne_nil_of_length_pos hsome
      refine (hexec addr ws halign (bar2Words_stage hwords ws (old := []) hnotStopped hnone (by simpa using hless))).trans ?_
      rw [List.nil_append, if_neg hne]
      rfl
    · refine (hexec addr ws halign (bar2Words_commit hwords ws (old := []) hnotStopped hnone hpos (by simpa using hall))).trans ?_
      rw [List.nil_append, ← hnone]
      rfl
    · have hat : (addr + BitVec.ofNat 32 (4 * old.length)).toNat = addr.toNat + 4 * old.length := by
        rw [BitVec.toNat_add, BitVec.toNat_ofNat]
        omega
      have hstaged : s.bar2 = if old = [] then none else some (addr.toNat, old) := by
        rw [hold, if_neg (List.ne_nil_of_length_pos hsome)]
      refine ⟨fun hmore => ?_, fun hall => ?_⟩
      · have hne : old ++ ws ≠ [] := List.append_ne_nil_of_left_ne_nil (List.ne_nil_of_length_pos hsome) _
        have hbox := bar2Words_stage (src := src) hwords ws hnotStopped hstaged hmore
        rw [if_neg hne, ← hat] at hbox
        exact hexec _ ws (by omega) hbox
      · refine hexec _ ws (by omega) ?_
        rw [hat, bar2Words_commit hwords ws hnotStopped hstaged hless hall]
    · have hword : s.toBox.bar2Words src addr.toNat [w]
          = { Box.count { s.toBox with bar2 := none } cxlPage 2 with bar2 := some (addr.toNat, [w]) } := by
        simp only [Box.bar2Words, if_neg hnotStopped]
        exact bar2Word_restart hentry hold he hn w
      have hctr := count_ctr { s.toBox with bar2 := none } cxlPage 2
      obtain ⟨r, o, c, hparts⟩ := bump_onlyRegsCtrs { s.toBox with bar2 := none } cxlPage 2 1
      rw [Box.count] at hword hctr
      rw [hparts] at hword hctr
      refine ⟨_, hexec addr [w] halign hword, rfl, ?_, rfl⟩
      exact hctr.trans (by rw [BitVec.ofNat_add, BitVec.ofNat_toNat, BitVec.setWidth_eq]; rfl)

end Sys2Proof.Proofs
end

section
/-!
# Fault events

What the shared operations of Ringmaster's records can change: fields outside of registers, and register words by their 64 KiB blocks.
-/

namespace Sys2Proof.Proofs

open Sys2Proof Sys2Proof.Machine Sys2Proof.Safety Sys2Proof.Laws

/-! ### Words by their blocks of 64 KiB -/

/-- A word lies neither in the MSI-X slot nor in one of the blocks. -/
abbrev offBlocks (ks : List Nat) (a : Nat) : Prop := a / 0x10000 ≠ 0xF2 ∧ a / 0x10000 ∉ ks

section blocks

variable {ks : List Nat}

theorem raiseInt_offBlocks (b : Box) {p : Nat} (hp : p < 2304) (hk : pageBase p / 0x10000 ∈ ks) (bit : Nat) :
    sameOn (offBlocks ks) b (b.raiseInt p bit) := by
  refine sameOn_of_sameWords (raiseInt_sameWords b p bit) ?_
  have hvector := pageVector_lt hp
  simp only [causeWords, List.mem_cons, List.not_mem_nil, or_false]
  rintro a (rfl | rfl) ⟨hslot, hout⟩
  · have hmod := pageBase_mod p
    exact hout ((by omega : (pageBase p + 16) / 0x10000 = pageBase p / 0x10000) ▸ hk)
  · omega

theorem bump_offBlocks (b : Box) {p : Nat} (hp : p < 2304) (hk : pageBase p / 0x10000 ∈ ks) {i : Nat} (hi : i < 4096) (n : Nat) :
    sameOn (offBlocks ks) b (b.bump p i n) := by
  refine sameOn_of_sameWords (bump_sameWords b p i n) ?_
  have hvector := pageVector_lt hp
  have hmod := pageBase_mod p
  simp only [causeWords, ovfFld, pageFld, List.mem_cons, List.not_mem_nil, or_false]
  rintro a (rfl | rfl | rfl) ⟨hslot, hout⟩
  · exact hout ((by omega : (pageBase p + (0x1100 + 4 * (i / 32))) / 0x10000 = pageBase p / 0x10000) ▸ hk)
  · exact hout ((by omega : (pageBase p + 16) / 0x10000 = pageBase p / 0x10000) ▸ hk)
  · omega

theorem wr_offBlocks (b : Box) {f : Fld} (hk : f.addr / 0x10000 ∈ ks) (v : Nat) : sameOn (offBlocks ks) b (b.wr f v) :=
  wr_sameOn b v fun h => h.2 hk

theorem setWords_other (b : Box) (a : Nat) (ws : List Word) {c : Nat} (h : c < a ∨ a + 4 * ws.length ≤ c) :
    (b.setWords a ws).word c = b.word c := by
  induction ws generalizing b a with
  | nil => rfl
  | cons w ws ih =>
    rw [List.length_cons] at h
    exact (ih _ _ (by omega)).trans (word_setWord_other _ _ (by omega))

end blocks

/-! ### Records -/

/-- A counter that is counted once. -/
theorem count_ctr_succ (b : Box) (p : Page) (i : Nat) : (b.count p i).ctr p i = b.ctr p i + 1 := by
  rw [count_ctr, BitVec.ofNat_add, BitVec.ofNat_toNat, BitVec.setWidth_eq]
  rfl

/-- `t` is `s` but for register words, counters, what has left the block, and the records and events it keeps. -/
def logged (s t : Box) : Prop := ∃ r o c q ev v n, t =
  { s with regs := r, outbox := o, ctrs := c, qlens := q, events := ev, vc6Q := v, freeCtr := n }

section logged

variable {s t u : Box}

theorem logged_trans (h : logged s t) (k : logged t u) : logged s u := by
  obtain ⟨_, _, _, _, _, _, _, rfl⟩ := h
  obtain ⟨r, o, c, q, ev, v, n, rfl⟩ := k
  exact ⟨r, o, c, q, ev, v, n, rfl⟩

theorem logged_of_onlyRegsCtrs (h : onlyRegsCtrs s t) : logged s t := by
  obtain ⟨r, o, c, rfl⟩ := h
  exact ⟨r, o, c, s.qlens, s.events, s.vc6Q, s.freeCtr, rfl⟩

theorem logged_of_onlyRegs (h : onlyRegs s t) : logged s t := logged_of_onlyRegsCtrs h.toCtrs

theorem logged_refl (s : Box) : logged s s := logged_of_onlyRegs (onlyRegs_refl s)

end logged

theorem post_logged (s : Box) (q : RecQueue) (p : Page) (i : Nat) (rec : List Byte) : logged s (s.post q p i rec) := by
  unfold Box.post
  split
  · split
    · exact logged_of_onlyRegsCtrs (onlyRegsCtrs_trans (bump_onlyRegsCtrs _ _ _ _) (raiseInt_onlyRegs _ _ _).toCtrs)
    · exact logged_of_onlyRegsCtrs (bump_onlyRegsCtrs _ _ _ _)
  · obtain ⟨r, o, h⟩ := onlyRegs_trans (setWords_onlyRegs s (q.base + q.size * s.rd q.head) (wordsLE rec))
      (wr_onlyRegs _ q.head ((s.rd q.head + 1) % q.recs))
    dsimp only
    rw [h]
    exact ⟨_, _, _, _, _, _, _, rfl⟩

theorem bmtEvent_logged (s : Box) (rec : List Byte) : logged s (s.bmtEvent rec) := by
  unfold Box.bmtEvent
  split
  · exact logged_refl s
  · exact logged_of_onlyRegs (emit_onlyRegs _ _)
  · exact ⟨_, _, _, _, _, _, _, rfl⟩

theorem bmtNotify_logged (s : Box) (rec : List Byte) : logged s (s.bmtNotify rec) := by
  unfold Box.bmtNotify
  refine logged_trans ?_ (bmtEvent_logged _ _)
  split
  · exact logged_of_onlyRegs (emit_onlyRegs _ _)
  · exact logged_refl s

theorem postFault_logged (s : Box) (cls cause unit tent pattern : Nat) : logged s (s.postFault cls cause unit tent pattern) := by
  refine logged_trans (logged_trans (logged_trans ?_ (post_logged _ _ _ _ _)) (bmtNotify_logged _ _))
    (logged_of_onlyRegs (raiseInt_onlyRegs _ _ _))
  exact ⟨_, _, _, _, _, _, _, rfl⟩

theorem bmtNotify_regs (s : Box) (rec : List Byte) : (s.bmtNotify rec).regs = s.regs := by
  have hevent (b : Box) : (b.bmtEvent rec).regs = b.regs := by
    unfold Box.bmtEvent
    split <;> rfl
  rw [Box.bmtNotify, hevent]
  split <;> rfl

theorem wordsLE_length (bs : List Byte) : (wordsLE bs).length = bs.length / 4 := by simp [wordsLE]

/-- A record lands in its window and moves the head; a full queue counts and raises MGT cause 3. -/
theorem post_offBlocks {ks : List Nat} (s : Box) {q : RecQueue} {p i : Nat} {rec : List Byte} (hp : p < 2304) (hi : i < 4096)
    (hpage : pageBase p / 0x10000 ∈ ks) (hhead : q.head.addr / 0x10000 ∈ ks)
    (hwindow : ∀ h, h < 2 ^ q.head.width → ∀ a, q.base + q.size * h ≤ a → a < q.base + q.size * h + 4 * (wordsLE rec).length →
      a / 0x10000 ∈ ks) : sameOn (offBlocks ks) s (s.post q p i rec) := by
  unfold Box.post
  split
  · split
    · exact sameOn_trans (bump_offBlocks s hp hpage hi 1) (raiseInt_offBlocks _ hp hpage 3)
    · exact bump_offBlocks s hp hpage hi 1
  · refine sameOn_trans (sameOn_trans (fun a ha => ?_) (wr_offBlocks _ hhead _)) (sameOn_of_regs rfl)
    refine setWords_other _ _ _ ?_
    by_contra hin
    exact ha.2 (hwindow (s.rd q.head) (wordField_lt _ _ _) a (by omega) (by omega))

theorem postFaultQueue_offBlocks (s : Box) {rec : List Byte} (hlen : rec.length = 16) :
    sameOn (offBlocks [0xF]) s (s.post faultQueue mgtPage 1 rec) := by
  refine post_offBlocks s (by decide) (by decide) (by decide) (by decide) fun h hh a hlo hhi => ?_
  rw [wordsLE_length, hlen] at hhi
  simp only [faultQueue, MGT_FQ_at, MGT_FQ_HEAD_INDEX, List.mem_singleton] at hh hlo hhi ⊢
  omega

theorem postFault_offBlocks (s : Box) (cls cause unit tent pattern : Nat) :
    sameOn (offBlocks [0xF]) s (s.postFault cls cause unit tent pattern) := by
  have hkept (ev : List FaultEvent) : sameOn (offBlocks [0xF]) s { s with events := ev } := fun _ _ => rfl
  refine sameOn_trans (sameOn_trans (sameOn_trans (hkept _) (postFaultQueue_offBlocks _ ?_))
    (sameOn_of_regs (bmtNotify_regs _ _))) (raiseInt_offBlocks _ (by decide) (by decide) 1)
  simp only [List.length_append, bytesLE_length, List.length_singleton]

/-- A fault event raises MGT cause 1. -/
theorem postFault_sets (s : Box) (cls cause unit tent pattern : Nat) :
    (s.postFault cls cause unit tent pattern).is (pageFld mgtPage 16 1 1) = true := raiseInt_sets _ _ _ (by decide) (by decide)

end Sys2Proof.Proofs
end

section
/-!
# Fatal conditions and the guaranteed corner

What a fatal condition leaves of a running and of a stopped device, the dump's end, failed cores and UCIe modules, and the readings
of the core rail and the junctions.
-/

namespace Sys2Proof.Proofs

open Sys2Proof Sys2Proof.Machine Sys2Proof.Safety Sys2Proof.Laws

/-! ### Stopping -/

/-- Whether a page of a list is frozen once every page of it has been. -/
theorem foldl_frozen (l : List Page) (b : Box) {p : Page} (h : b.is (PAGE_STATUS_FROZEN p) = true ∨ p ∈ l) :
    (l.foldl (fun b p => b.put (PAGE_STATUS_FROZEN p) true) b).is (PAGE_STATUS_FROZEN p) = true := by
  induction l generalizing b with
  | nil => exact h.resolve_right (List.not_mem_nil)
  | cons q l ih =>
    refine ih _ (or_iff_not_imp_right.mpr fun hmem => ?_)
    by_cases haddr : (PAGE_STATUS_FROZEN p).addr = (PAGE_STATUS_FROZEN q).addr
    · have hfield : PAGE_STATUS_FROZEN p = PAGE_STATUS_FROZEN q := congrArg (fun a => (⟨a, 1, 1⟩ : Fld)) haddr
      rw [hfield]
      exact is_put _ (pageFld q 8 1 1) true (show 1 + 1 ≤ 32 by decide) (show 0 < 1 by decide)
    · rw [is_put_word _ _ _ _ haddr]
      refine h.resolve_right fun hcons => ?_
      obtain rfl | hin := List.mem_cons.mp hcons
      · exact haddr rfl
      · exact hmem hin

theorem freeze_shows (b : Box) {p : Page} (hp : p ∈ allPages) : b.freeze.is (PAGE_STATUS_FROZEN p) = true :=
  foldl_frozen allPages b (.inr hp)

theorem freeze_onlyRegs (b : Box) : onlyRegs b b.freeze := foldl_onlyRegs _ (fun b _ _ => put_onlyRegs b _ _) b

/-- A device that has sent its TRAIN flits and stopped. -/
def halted (b : Box) (c : Nat) : Box :=
  { b.trainAll with phase := .failStopped, dump := { b.dump with cause := c, add := 0, ftick := b.nowTick, raw := b.raw } }

theorem halted_eq (b : Box) (c : Nat) : ∃ o ps, halted b c = { b with
    outbox := o, ports := ps, phase := .failStopped,
    dump := { b.dump with cause := c, add := 0, ftick := b.nowTick, raw := b.raw } } := by
  obtain ⟨ps, o, htrain⟩ := trainAll_onlyPorts b
  rw [halted, htrain]
  exact ⟨_, _, rfl⟩

/-- The dump's words of a device that stops. -/
def stopped (b : Box) (c : Nat) : Box :=
  let s := (halted b c).freeze.wr MGT_DUMP_STATUS_CAUSE c
  if c = 4 then { s.put MGT_DUMP_STATUS_NODUMP true with alarm := true }
  else if b.dump.held then s.put MGT_DUMP_STATUS_SKIPPED true
  else s.put MGT_DUMP_STATUS_WRITING true

theorem fatal_run {b : Box} (h : b.phase ≠ .failStopped) (c : Nat) : b.fatal c = (stopped b c).pldmNotify := if_neg h

/-- The fields that stopping leaves. -/
theorem stopped_eq (b : Box) (c : Nat) : ∃ r o ps al, stopped b c = { b with
    regs := r, outbox := o, ports := ps, alarm := al, phase := .failStopped,
    dump := { b.dump with cause := c, add := 0, ftick := b.nowTick, raw := b.raw } } := by
  obtain ⟨o, ps, hhalted⟩ := halted_eq b c
  obtain ⟨r, o', hfreeze⟩ := freeze_onlyRegs (halted b c)
  simp only [stopped, hfreeze]
  rw [hhalted]
  split
  · exact ⟨_, _, _, _, rfl⟩
  · split
    · exact ⟨_, _, _, b.alarm, rfl⟩
    · exact ⟨_, _, _, b.alarm, rfl⟩

theorem frozen_ne_dump (p : Page) : (PAGE_STATUS_FROZEN p).addr ≠ MGT_DUMP_STATUS_at := by
  have hmod := pageBase_mod p
  have haddr : (PAGE_STATUS_FROZEN p).addr = pageBase p + 8 := rfl
  have hdump : MGT_DUMP_STATUS_at % 0x10000 = 0x124 := rfl
  omega

/-- What a stopped device shows. -/
theorem stopped_shows (b : Box) {c : Nat} (hc : c < 256) : (stopped b c).rd MGT_DUMP_STATUS_CAUSE = c
    ∧ (∀ p ∈ allPages, (stopped b c).is (PAGE_STATUS_FROZEN p) = true)
    ∧ (c = 4 → (stopped b c).is MGT_DUMP_STATUS_NODUMP = true ∧ (stopped b c).alarm = true)
    ∧ (c ≠ 4 → b.dump.held = true → (stopped b c).is MGT_DUMP_STATUS_SKIPPED = true)
    ∧ (c ≠ 4 → b.dump.held = false → (stopped b c).is MGT_DUMP_STATUS_WRITING = true) := by
  simp only [stopped]
  generalize halted b c = s
  have hcause : (s.freeze.wr MGT_DUMP_STATUS_CAUSE c).rd MGT_DUMP_STATUS_CAUSE = c := rd_wr_lt _ (by decide) hc
  have hfrozen (p : Page) (hp : p ∈ allPages) : (s.freeze.wr MGT_DUMP_STATUS_CAUSE c).is (PAGE_STATUS_FROZEN p) = true :=
    (is_wr_word s.freeze MGT_DUMP_STATUS_CAUSE _ c (frozen_ne_dump p)).trans (freeze_shows s hp)
  generalize s.freeze.wr MGT_DUMP_STATUS_CAUSE c = t at hcause hfrozen ⊢
  have hput (f : Fld) (hf : Apart f MGT_DUMP_STATUS_CAUSE) (haddr : f.addr = MGT_DUMP_STATUS_at) :
      (t.put f true).rd MGT_DUMP_STATUS_CAUSE = c
        ∧ ∀ p ∈ allPages, (t.put f true).is (PAGE_STATUS_FROZEN p) = true :=
    ⟨(rd_put_apart t true hf).trans hcause,
      fun p hp => (is_put_word t f _ true (haddr ▸ frozen_ne_dump p)).trans (hfrozen p hp)⟩
  split
  · next h4 =>
    obtain ⟨hshown, hstill⟩ := hput MGT_DUMP_STATUS_NODUMP (by decide) rfl
    have hset := is_put t MGT_DUMP_STATUS_NODUMP true (by decide) (by decide)
    generalize t.put MGT_DUMP_STATUS_NODUMP true = u at *
    have hregs : ({ u with alarm := true } : Box).regs = u.regs := rfl
    exact ⟨(rd_of_regs hregs _).trans hshown, fun p hp => (is_of_regs hregs _).trans (hstill p hp),
      fun _ => ⟨(is_of_regs hregs _).trans hset, rfl⟩, fun h => absurd h4 h, fun h => absurd h4 h⟩
  · next h4 =>
    split
    · next hheld =>
      obtain ⟨hshown, hstill⟩ := hput MGT_DUMP_STATUS_SKIPPED (by decide) rfl
      exact ⟨hshown, hstill, fun h => absurd h h4, fun _ _ => is_put t _ _ (by decide) (by decide),
        fun _ h => absurd h (by rw [hheld]; decide)⟩
    · next hfree =>
      obtain ⟨hshown, hstill⟩ := hput MGT_DUMP_STATUS_WRITING (by decide) rfl
      exact ⟨hshown, hstill, fun h => absurd h h4, fun _ h => absurd h hfree, fun _ _ => is_put t _ _ (by decide) (by decide)⟩

/-- A fatal condition of a device that has not stopped yet. -/
theorem fatal_shows {b : Box} (h : b.phase ≠ .failStopped) {c : Nat} (hc : c < 256) : (b.fatal c).phase = .failStopped
    ∧ (b.fatal c).rd MGT_DUMP_STATUS_CAUSE = c
    ∧ (∀ p ∈ allPages, (b.fatal c).is (PAGE_STATUS_FROZEN p) = true)
    ∧ (c = 4 → (b.fatal c).is MGT_DUMP_STATUS_NODUMP = true ∧ (b.fatal c).alarm = true)
    ∧ (c ≠ 4 → b.dump.held = true → (b.fatal c).is MGT_DUMP_STATUS_SKIPPED = true)
    ∧ (c ≠ 4 → b.dump.held = false → (b.fatal c).is MGT_DUMP_STATUS_WRITING = true)
    ∧ ∃ r o ps al, b.fatal c = { b with
        regs := r, outbox := o, ports := ps, alarm := al, phase := .failStopped,
        dump := { b.dump with cause := c, add := 0, ftick := b.nowTick, raw := b.raw } } := by
  obtain ⟨hcause, hfrozen, hnodump, hskipped, hwriting⟩ := stopped_shows b hc
  obtain ⟨r, o, ps, al, hparts⟩ := stopped_eq b c
  have hwords := pldmNotify_sameWords (stopped b c)
  have hregs := pldmNotify_onlyRegs (stopped b c)
  rw [fatal_run h]
  generalize stopped b c = t at *
  generalize t.pldmNotify = u at *
  have hrd (f : Fld) : u.rd f = t.rd f := rd_of_sameWords hwords (by simp)
  have his (f : Fld) : u.is f = t.is f := is_of_sameWords hwords (by simp)
  obtain ⟨_, _, rfl⟩ := hregs
  refine ⟨congrArg Box.phase hparts, (hrd _).trans hcause, fun p hp => (his _).trans (hfrozen p hp), fun h4 => ?_,
    fun h4 hheld => (his _).trans (hskipped h4 hheld), fun h4 hfree => (his _).trans (hwriting h4 hfree), ?_⟩
  · obtain ⟨hset, halarm⟩ := hnodump h4
    exact ⟨(his _).trans hset, halarm⟩
  · subst hparts
    exact ⟨_, _, _, _, rfl⟩

/-- A fatal condition while the dump of the first is written. -/
theorem fatal_dumping {b : Box} (h : b.phase = .failStopped) (hw : b.is MGT_DUMP_STATUS_WRITING = true) {c : Nat} (hc : c < 256) :
    (b.fatal c).rd MGT_DUMP_STATUS_CAUSE = c ∧ (b.fatal c).is MGT_DUMP_STATUS_WRITING = decide (c ≠ 4)
      ∧ (c = 4 → (b.fatal c).is MGT_DUMP_STATUS_NODUMP = true ∧ (b.fatal c).alarm = true)
      ∧ sameWords [MGT_DUMP_STATUS_at] b (b.fatal c)
      ∧ ∃ r al, b.fatal c = { b with regs := r, alarm := al, dump := { b.dump with add := c } } := by
  have hbox : b.fatal c = if c = 4 then
      { ((({ b with dump := { b.dump with add := c } } : Box).wr MGT_DUMP_STATUS_CAUSE c).put MGT_DUMP_STATUS_WRITING false).put
        MGT_DUMP_STATUS_NODUMP true with alarm := true }
      else ({ b with dump := { b.dump with add := c } } : Box).wr MGT_DUMP_STATUS_CAUSE c := by
    simp only [Box.fatal, h, hw, if_true, Bool.true_eq_false, if_false]
  have hw' : ({ b with dump := { b.dump with add := c } } : Box).is MGT_DUMP_STATUS_WRITING = true := hw
  have hsame (t : Box) (ht : sameWords [MGT_DUMP_STATUS_at] { b with dump := { b.dump with add := c } } t) :
      sameWords [MGT_DUMP_STATUS_at] b t := ht
  have hparts (r : Sparse Word) (al : Bool) : ({ { b with dump := { b.dump with add := c } } with regs := r, alarm := al } : Box)
      = { b with regs := r, alarm := al, dump := { b.dump with add := c } } := rfl
  have halarm : ({ b with dump := { b.dump with add := c } } : Box).alarm = b.alarm := rfl
  rw [hbox]
  revert hw' hsame hparts halarm
  generalize ({ b with dump := { b.dump with add := c } } : Box) = s
  intro hw' hsame hparts halarm
  by_cases h4 : c = 4
  · rw [if_pos h4, decide_eq_false (not_not.mpr h4)]
    have hcause : (((s.wr MGT_DUMP_STATUS_CAUSE c).put MGT_DUMP_STATUS_WRITING false).put MGT_DUMP_STATUS_NODUMP true).rd
        MGT_DUMP_STATUS_CAUSE = c := by
      simp (disch := decide) only [rd_put_apart]
      exact rd_wr_lt _ (by decide) hc
    have hwriting : (((s.wr MGT_DUMP_STATUS_CAUSE c).put MGT_DUMP_STATUS_WRITING false).put MGT_DUMP_STATUS_NODUMP true).is
        MGT_DUMP_STATUS_WRITING = false := by
      rw [is_put_apart _ _ (by decide)]
      exact is_put _ _ _ (by decide) (by decide)
    have hnodump := is_put ((s.wr MGT_DUMP_STATUS_CAUSE c).put MGT_DUMP_STATUS_WRITING false) MGT_DUMP_STATUS_NODUMP true
      (by decide) (by decide)
    have hwords : sameWords [MGT_DUMP_STATUS_at] s
        (((s.wr MGT_DUMP_STATUS_CAUSE c).put MGT_DUMP_STATUS_WRITING false).put MGT_DUMP_STATUS_NODUMP true) :=
      sameWords_trans (sameWords_trans (wr_sameWords s MGT_DUMP_STATUS_CAUSE c) (put_sameWords _ MGT_DUMP_STATUS_WRITING false))
        (put_sameWords _ MGT_DUMP_STATUS_NODUMP true)
    obtain ⟨r, hr⟩ : ∃ r, ((s.wr MGT_DUMP_STATUS_CAUSE c).put MGT_DUMP_STATUS_WRITING false).put MGT_DUMP_STATUS_NODUMP true
        = { s with regs := r } := ⟨_, rfl⟩
    generalize ((s.wr MGT_DUMP_STATUS_CAUSE c).put MGT_DUMP_STATUS_WRITING false).put MGT_DUMP_STATUS_NODUMP true = u at *
    have hregs : ({ u with alarm := true } : Box).regs = u.regs := rfl
    refine ⟨(rd_of_regs hregs _).trans hcause, (is_of_regs hregs _).trans hwriting,
      fun _ => ⟨(is_of_regs hregs _).trans hnodump, rfl⟩, hsame _ (sameWords_trans hwords fun a _ => rfl), r, true, ?_⟩
    rw [hr, ← hparts]
  · rw [if_neg h4, decide_eq_true h4]
    obtain ⟨r, hr⟩ : ∃ r, s.wr MGT_DUMP_STATUS_CAUSE c = { s with regs := r } := ⟨_, rfl⟩
    refine ⟨rd_wr_lt s (by decide) hc, (is_wr_apart s c (by decide)).trans hw', fun h => absurd h h4,
      hsame _ (wr_sameWords s MGT_DUMP_STATUS_CAUSE c), r, b.alarm, ?_⟩
    rw [hr, ← hparts, ← halarm]

/-! ### Orders of the dump -/

theorem known_MGT_DUMP_CMD : (maskAt MGT_DUMP_CMD_at).known = 0xC0000000 := by decide

theorem dumpCmd_fatal (b : Box) (src : Requester) : b.dumpCmd src (2 ^ 31) = b.fatal 7 := by
  have hcheck : b.rsvCheck src MGT_DUMP_CMD_at (2 ^ 31) = b := rsvCheck_of_known (known_MGT_DUMP_CMD ▸ by decide)
  simp only [Box.dumpCmd, hcheck, show (2 ^ 31 : Nat).testBit 30 = false by decide, show (2 ^ 31 : Nat).testBit 31 = true by decide,
    Bool.false_eq_true, if_false, if_true]

theorem dumpCmd_ack (b : Box) (src : Requester) : b.dumpCmd src (2 ^ 30) = { b with dump := { b.dump with held := false } } := by
  have hcheck : b.rsvCheck src MGT_DUMP_CMD_at (2 ^ 30) = b := rsvCheck_of_known (known_MGT_DUMP_CMD ▸ by decide)
  simp only [Box.dumpCmd, hcheck, show (2 ^ 30 : Nat).testBit 30 = true by decide, show (2 ^ 30 : Nat).testBit 31 = false by decide,
    Bool.false_eq_true, if_false, if_true]

/-- A write of MGT_DUMP_CMD acts on a fail-stopped device too (R419). -/
theorem actReg_dumpCmd {s : State} (src : Requester) (hphase : s.phase = .run ∨ s.phase = .failStopped)
    (hreach : s.reaches src = true) (hready : s.is (PAGE_STATUS_READY mgtPage) = true) (f : Box → Box) :
    s.actReg MGT_DUMP_CMD_at src f = .next (s.onBox f) := by
  have halive : s.phase.alive = true := by obtain h | h := hphase <;> rw [h] <;> rfl
  have hgate : s.toBox.gateWrite MGT_DUMP_CMD_at src f = f s.toBox := by
    rw [Box.gateWrite, if_neg (fun h => absurd h.2 (by decide)), if_neg]
    exact fun h => absurd (h.1.symm.trans hready) (by decide)
  rw [State.actReg, State.actHost, State.act, if_pos halive]
  exact next_onBox (b := f s.toBox) rfl ((if_pos hreach).trans hgate)

/-! ### The end of a dump -/

/-- `t` is `s` but for what device memory holds. -/
def onlyMem (s t : Box) : Prop := ∃ m bb, t = { s with mem := m, badBlocks := bb }

theorem onlyMem_refl (s : Box) : onlyMem s s := ⟨s.mem, s.badBlocks, rfl⟩

theorem onlyMem_trans {s t u : Box} (h : onlyMem s t) (k : onlyMem t u) : onlyMem s u := by
  obtain ⟨_, _, rfl⟩ := h
  obtain ⟨m, bb, rfl⟩ := k
  exact ⟨m, bb, rfl⟩

theorem memWrite_onlyMem (s : Box) (t r off : Nat) (bs : List Byte) : onlyMem s (s.memWrite t r off bs) := ⟨_, _, rfl⟩

theorem dumpTent_onlyMem (s : Box) (secs : List DumpSection) (t : Nat) : onlyMem s (s.dumpTent secs t) := by
  unfold Box.dumpTent
  split
  · exact onlyMem_refl s
  · exact onlyMem_trans (foldl_rel onlyMem_refl onlyMem_trans _ (fun b x _ => memWrite_onlyMem b _ _ _ _) s)
      (memWrite_onlyMem _ _ _ _ _)

/-- The device with its dump complete, before the event that tells of it. -/
def dumpEnded (b : Box) : Box :=
  { ((b.put MGT_DUMP_STATUS_WRITING false).put MGT_DUMP_STATUS_DONE true).raiseInt mgtPage 2 with
    alarm := true, dump := { b.dump with seq := b.dump.seq + 1, held := true } }

theorem dumpEnded_shows (b : Box) : (dumpEnded b).is MGT_DUMP_STATUS_DONE = true ∧ (dumpEnded b).is MGT_DUMP_STATUS_WRITING = false
    ∧ (dumpEnded b).is (pageFld mgtPage 16 2 1) = true
    ∧ ∃ r o, dumpEnded b = { b with
        regs := r, outbox := o, alarm := true, dump := { b.dump with seq := b.dump.seq + 1, held := true } } := by
  have hdone : (((b.put MGT_DUMP_STATUS_WRITING false).put MGT_DUMP_STATUS_DONE true).raiseInt mgtPage 2).is MGT_DUMP_STATUS_DONE
      = true := by
    rw [is_raiseInt _ _ _ (by decide)]
    exact is_put _ _ _ (by decide) (by decide)
  have hwriting : (((b.put MGT_DUMP_STATUS_WRITING false).put MGT_DUMP_STATUS_DONE true).raiseInt mgtPage 2).is
      MGT_DUMP_STATUS_WRITING = false := by
    rw [is_raiseInt _ _ _ (by decide), is_put_apart _ _ (by decide)]
    exact is_put _ _ _ (by decide) (by decide)
  have hcause := raiseInt_sets ((b.put MGT_DUMP_STATUS_WRITING false).put MGT_DUMP_STATUS_DONE true) mgtPage 2 (by decide) (by decide)
  obtain ⟨r, o, hparts⟩ := onlyRegs_trans (onlyRegs_trans (put_onlyRegs b MGT_DUMP_STATUS_WRITING false)
    (put_onlyRegs _ MGT_DUMP_STATUS_DONE true)) (raiseInt_onlyRegs _ mgtPage 2)
  unfold dumpEnded
  generalize ((b.put MGT_DUMP_STATUS_WRITING false).put MGT_DUMP_STATUS_DONE true).raiseInt mgtPage 2 = u at *
  have hregs : ({ u with alarm := true, dump := { b.dump with seq := b.dump.seq + 1, held := true } } : Box).regs = u.regs := rfl
  refine ⟨(is_of_regs hregs _).trans hdone, (is_of_regs hregs _).trans hwriting, (is_of_regs hregs _).trans hcause, r, o, ?_⟩
  rw [hparts]

theorem dumpDone_eq {b : Box} (hw : b.is MGT_DUMP_STATUS_WRITING = true) (hf : b.firmware = true) (secs : List DumpSection) :
    ∃ m bb, b.dumpDone secs = (dumpEnded { b with mem := m, badBlocks := bb }).pldmNotify := by
  obtain ⟨m, bb, hmem⟩ := foldl_rel onlyMem_refl onlyMem_trans (List.range 8) (fun b t _ => dumpTent_onlyMem b secs t) b
  refine ⟨m, bb, ?_⟩
  obtain ⟨_, _, hraise⟩ := onlyRegs_trans (onlyRegs_trans
    (put_onlyRegs ({ b with mem := m, badBlocks := bb } : Box) MGT_DUMP_STATUS_WRITING false)
    (put_onlyRegs _ MGT_DUMP_STATUS_DONE true)) (raiseInt_onlyRegs _ mgtPage 2)
  simp only [Box.dumpDone, hw, hf, and_self, if_true, hmem, dumpEnded]
  rw [hraise]

/-! ### Failed cores -/

theorem requestsLost_eq (b : Box) : (∃ r n ib up, b.requestsLost = { b with regs := r, freeCtr := n, inbox := ib, update := up })
    ∧ sameWords [SEC_FWUP_STATUS_at] b b.requestsLost := by
  have hcase (n : Nat) (ib : List Frame) (lost : Bool) :
      let q : Box := { b with freeCtr := n, inbox := ib }
      let t : Box := if lost then { q.put SEC_FWUP_STATUS_BUSY false with update := { q.update with op := none } } else q
      (∃ r n ib up, t = { b with regs := r, freeCtr := n, inbox := ib, update := up }) ∧ sameWords [SEC_FWUP_STATUS_at] b t := by
    cases lost
    · exact ⟨⟨b.regs, n, ib, b.update, rfl⟩, fun _ _ => rfl⟩
    · exact ⟨⟨_, n, ib, _, rfl⟩, put_sameWords b SEC_FWUP_STATUS_BUSY false⟩
  exact hcase _ _ _

theorem shedCalibration_eq (b : Box) : ∃ n cs en, b.shedCalibration = { b with freeCtr := n, calShed := cs, engines := en } := by
  have hfold (l : List Nat) (c : Box) : ∃ en, l.foldl (fun (b : Box) e => b.setEngine e { b.engine e with calSlot := b.calSlots e }) c
      = { c with engines := en } := by
    induction l generalizing c with
    | nil => exact ⟨c.engines, rfl⟩
    | cons e l ih =>
      obtain ⟨en, h⟩ := ih (c.setEngine e { c.engine e with calSlot := c.calSlots e })
      exact ⟨en, h⟩
  simp only [Box.shedCalibration, Box.takeFree]
  split
  · obtain ⟨en, h⟩ := hfold (List.range 16)
      { b with freeCtr := b.freeCtr + 1, calShed := 1 + (Config.freeBits b.freeCtr).toNat % 65535 }
    exact ⟨_, _, en, h⟩
  · exact ⟨b.freeCtr, b.calShed, b.engines, rfl⟩

/-- The device once a core's failure has been noted. -/
def coreLost (b : Box) (c : Nat) : Box :=
  (((({ b with freeCtr := b.freeCtr + 1, cores := c :: b.cores } : Box).postFault 8 ((Config.freeBits b.freeCtr).toNat % 256) c 8
    0).requestsLost).shedCalibration)

theorem coreFail_eq {b : Box} {c : Nat} (h : c ∉ b.cores) :
    b.coreFail c = if 5 ≤ (coreLost b c).cores.length then (coreLost b c).fatal 4 else coreLost b c := by
  rw [Box.coreFail, if_neg h]
  rfl

theorem coreLost_shows (b : Box) (c : Nat) : (coreLost b c).cores = c :: b.cores ∧ (coreLost b c).phase = b.phase
    ∧ (coreLost b c).is (pageFld mgtPage 16 1 1) = true := by
  have hlogged := postFault_logged ({ b with freeCtr := b.freeCtr + 1, cores := c :: b.cores } : Box) 8
    ((Config.freeBits b.freeCtr).toNat % 256) c 8 0
  have hset := postFault_sets ({ b with freeCtr := b.freeCtr + 1, cores := c :: b.cores } : Box) 8
    ((Config.freeBits b.freeCtr).toNat % 256) c 8 0
  have hstart : ({ b with freeCtr := b.freeCtr + 1, cores := c :: b.cores } : Box).cores = c :: b.cores
      ∧ ({ b with freeCtr := b.freeCtr + 1, cores := c :: b.cores } : Box).phase = b.phase := ⟨rfl, rfl⟩
  unfold coreLost
  revert hlogged hset hstart
  generalize ({ b with freeCtr := b.freeCtr + 1, cores := c :: b.cores } : Box) = d
  generalize d.postFault 8 ((Config.freeBits b.freeCtr).toNat % 256) c 8 0 = e
  rintro ⟨_, _, _, _, _, _, _, rfl⟩ hset hstart
  generalize hq : ({ d with regs := _, outbox := _, ctrs := _, qlens := _, events := _, vc6Q := _, freeCtr := _ } : Box) = q at *
  obtain ⟨⟨_, _, _, _, hlost⟩, hwords⟩ := requestsLost_eq q
  obtain ⟨_, _, _, hshed⟩ := shedCalibration_eq q.requestsLost
  refine ⟨?_, ?_, ?_⟩
  · rw [hshed, hlost, ← hq]; exact hstart.1
  · rw [hshed, hlost, ← hq]; exact hstart.2
  · have hregs : q.requestsLost.shedCalibration.regs = q.requestsLost.regs := by rw [hshed]
    rw [is_of_regs hregs, is_of_sameWords hwords (by decide), hset]

/-- Settles O19: what stops the device, and the dump that follows. -/
theorem fatalConditionsStopAndDump : Obligations.FatalConditionsStopAndDump := by
  have hcode (cause : FatalCause) : fatalCode cause < 256 ∧ (fatalCode cause = 4 ↔ cause = .cores) := by
    cases cause <;> decide
  refine ⟨fun s => ⟨fun hrun cause => ?_, fun hstop hwriting cause => ?_, fun hrun hstate => ?_, fun src htake => ?_,
    fun core hrun hcore => ?_⟩, fun s hphase => ⟨fun core log hwriting hfw => ?_, fun src hreach hready => ?_⟩⟩
  · obtain ⟨hlt, h4⟩ := hcode cause
    have hnot : s.phase ≠ .failStopped := by rw [hrun]; decide
    obtain ⟨hphase, hcause, hfrozen, hnodump, hskipped, hdump, hparts⟩ := fatal_shows (b := s.toBox) hnot hlt
    generalize hm : s.toBox.fatal (fatalCode cause) = m at *
    obtain ⟨r, o, ps, al, hparts⟩ := hparts
    have hfields {α : Type} (f : Box → α) := congrArg f hparts
    exact ⟨_, next_onBox (act_run s _ hrun) hm, hphase, hcause, hfrozen, hfields (·.dump.cause), hfields (·.dump.ftick),
      hfields (·.dump.raw), fun h => hnodump (h4.mpr h), fun h => hskipped (mt h4.mp h), fun h => hdump (mt h4.mp h),
      hfields Box.mem, hfields Box.tabs, hfields Box.ctrs⟩
  · obtain ⟨hlt, h4⟩ := hcode cause
    have hact : exec (.fatalCondition cause) s = .next (s.onBox fun b => b.fatal (fatalCode cause)) :=
      congrArg Host.Outcome.next (if_pos (by rw [hstop]; rfl))
    obtain ⟨hcause, hstill, hnodump, hwords, hparts⟩ := fatal_dumping (b := s.toBox) hstop hwriting hlt
    generalize hm : s.toBox.fatal (fatalCode cause) = m at *
    obtain ⟨r, al, hparts⟩ := hparts
    refine ⟨_, next_onBox hact hm, hcause, congrArg Box.dump hparts, hstill.trans (decide_eq_decide.mpr (not_congr h4)),
      fun h => hnodump (h4.mpr h), ?_, hwords⟩
    subst hparts
    rfl
  · have hnot : s.phase ≠ .failStopped := by rw [hrun]; decide
    obtain ⟨hphase, hcause, -⟩ := fatal_shows (b := s.toBox) hnot (show 6 < 256 by decide)
    obtain ⟨m, hm⟩ : ∃ m, m = s.toBox.fatal 6 := ⟨_, rfl⟩
    rw [← hm] at hphase hcause
    exact ⟨_, next_onBox (act_run s _ hrun) ((if_pos hstate).trans hm.symm), hphase, hcause⟩
  · obtain ⟨hrun, hreach, hready⟩ := htake
    have hnot : s.phase ≠ .failStopped := by rw [hrun]; decide
    obtain ⟨hphase, hcause, -⟩ := fatal_shows (b := s.toBox) hnot (show 7 < 256 by decide)
    have hm := dumpCmd_fatal s.toBox src
    generalize s.toBox.fatal 7 = m at *
    exact ⟨_, next_onBox (actReg_run s _ _ _ hrun hreach hready) hm, hphase, hcause⟩
  · obtain ⟨hcores, hphase, hset⟩ := coreLost_shows s.toBox core.toNat
    have hm := coreFail_eq (b := s.toBox) hcore
    generalize coreLost s.toBox core.toNat = m at *
    have hlen : m.cores.length = s.cores.length + 1 := by rw [hcores]; rfl
    by_cases hlast : 5 ≤ m.cores.length
    · rw [if_pos hlast] at hm
      have hnot : m.phase ≠ .failStopped := by rw [hphase, hrun]; decide
      obtain ⟨hstop, hcause, -, -, -, -, hparts⟩ := fatal_shows hnot (show 4 < 256 by decide)
      have hkept : (m.fatal 4).cores = m.cores := by
        obtain ⟨_, _, _, _, hparts⟩ := hparts
        rw [hparts]
      generalize m.fatal 4 = u at *
      exact ⟨_, next_onBox (act_run s _ hrun) hm, hkept.trans hcores, fun _ => ⟨hstop, hcause⟩, fun h => by omega⟩
    · rw [if_neg hlast] at hm
      exact ⟨_, next_onBox (act_run s _ hrun) hm, hcores, fun h => by omega, fun _ => ⟨hphase.trans hrun, hset⟩⟩
  · have hact : exec (.dumpDone core log) s = .next (s.onBox fun b => b.dumpDone (b.dumpSections core log)) :=
      congrArg Host.Outcome.next (if_pos (by obtain h | h := hphase <;> rw [h] <;> rfl))
    obtain ⟨m, bb, hm⟩ := dumpDone_eq (b := s.toBox) hwriting hfw (s.toBox.dumpSections core log)
    obtain ⟨hdone, hnot, hcause, hparts⟩ := dumpEnded_shows ({ s.toBox with mem := m, badBlocks := bb } : Box)
    have hregs := pldmNotify_onlyRegs (dumpEnded ({ s.toBox with mem := m, badBlocks := bb } : Box))
    have hwords := pldmNotify_sameWords (dumpEnded ({ s.toBox with mem := m, badBlocks := bb } : Box))
    generalize dumpEnded ({ s.toBox with mem := m, badBlocks := bb } : Box) = t at *
    generalize t.pldmNotify = u at *
    have his (f : Fld) : u.is f = t.is f := is_of_sameWords hwords (by simp)
    obtain ⟨r, o, hparts⟩ := hparts
    obtain ⟨r', o', rfl⟩ := hregs
    subst hparts
    exact ⟨_, next_onBox hact hm, (his _).trans hdone, (his _).trans hnot, rfl, rfl, rfl, (his _).trans hcause, rfl⟩
  · exact next_onBox (actReg_dumpCmd src hphase hreach hready fun b => b.dumpCmd src (2 ^ 30)) (dumpCmd_ack s.toBox src)

end Sys2Proof.Proofs
end

section
/-!
# The guaranteed corner

UCIe modules, and the readings of the core rail and the junctions.
-/

namespace Sys2Proof.Proofs

open Sys2Proof Sys2Proof.Machine Sys2Proof.Safety Sys2Proof.Laws

/-- Fields of one word whose bits do not meet. -/
theorem apart_bits {f g : Fld} (h : decide (f.lo + f.width ≤ 32 ∧ (g.lo + g.width ≤ f.lo ∨ f.lo + f.width ≤ g.lo)) = true) :
    Apart f g := (of_decide_eq_true h).imp_right .inr

theorem is_put_self (b : Box) {f : Fld} (v : Bool) (h : decide (f.lo + f.width ≤ 32 ∧ 0 < f.width) = true) : (b.put f v).is f = v :=
  is_put b f v (of_decide_eq_true h).1 (of_decide_eq_true h).2

/-! ### UCIe modules -/

/-- The words of a tent link once a module has gone. -/
def moduleGone (b : Box) (t : Nat) : Box :=
  ((b.wr (MDW_LINK_STATUS_MODULES t) (b.rd (MDW_LINK_STATUS_MODULES t) - 1)).put (MDW_LINK_STATUS_DEGRADED t) true).put
    (MDW_LINK_STATUS_UNFIT t) (decide (b.rd (MDW_LINK_STATUS_MODULES t) ≤ 31))

theorem moduleGone_shows {b : Box} {t : Nat} (h : b.rd (MDW_LINK_STATUS_MODULES t) ≠ 0) :
    (moduleGone b t).rd (MDW_LINK_STATUS_MODULES t) + 1 = b.rd (MDW_LINK_STATUS_MODULES t)
      ∧ (moduleGone b t).is (MDW_LINK_STATUS_DEGRADED t) = true
      ∧ (moduleGone b t).is (MDW_LINK_STATUS_UNFIT t) = decide ((moduleGone b t).rd (MDW_LINK_STATUS_MODULES t) ≤ 30) := by
  have hlt : b.rd (MDW_LINK_STATUS_MODULES t) < 2 ^ 6 := wordField_lt _ _ _
  have hmodules : (moduleGone b t).rd (MDW_LINK_STATUS_MODULES t) = b.rd (MDW_LINK_STATUS_MODULES t) - 1 := by
    simp (disch := exact apart_bits rfl) only [moduleGone, rd_put_apart]
    exact rd_wr_lt b (show 0 + 6 ≤ 32 by decide) (show _ < 2 ^ 6 by omega)
  refine ⟨by omega, ?_, ?_⟩
  · simp (disch := exact apart_bits rfl) only [moduleGone, is_put_apart]
    exact is_put_self _ _ rfl
  · rw [hmodules, moduleGone]
    refine (is_put_self _ _ rfl).trans (decide_eq_decide.mpr ?_)
    omega

/-- The event that a module's failure posts, on the state with its words written. -/
theorem moduleFail_eq {b : Box} {t : Nat} (h : b.rd (MDW_LINK_STATUS_MODULES t) ≠ 0) : ∃ cause unit n,
    b.moduleFail t = (({ moduleGone b t with freeCtr := n } : Box).postFault 4 cause unit t 0).raiseInt mdwPage 0 := by
  rw [Box.moduleFail, if_neg h]
  exact ⟨_, _, _, rfl⟩

theorem moduleFail_shows {b : Box} {t : Nat} (ht : t < 8) (h : b.rd (MDW_LINK_STATUS_MODULES t) ≠ 0) :
    (b.moduleFail t).rd (MDW_LINK_STATUS_MODULES t) + 1 = b.rd (MDW_LINK_STATUS_MODULES t)
      ∧ (b.moduleFail t).is (MDW_LINK_STATUS_DEGRADED t) = true
      ∧ (b.moduleFail t).is (MDW_LINK_STATUS_UNFIT t) = decide ((b.moduleFail t).rd (MDW_LINK_STATUS_MODULES t) ≤ 30)
      ∧ (b.moduleFail t).is (pageFld mdwPage 16 0 1) = true ∧ (b.moduleFail t).is (pageFld mgtPage 16 1 1) = true := by
  obtain ⟨cause, unit, n, hbox⟩ := moduleFail_eq h
  obtain ⟨hmodules, hdegraded, hunfit⟩ := moduleGone_shows h
  have hset := postFault_sets ({ moduleGone b t with freeCtr := n } : Box) 4 cause unit t 0
  have hstart (a : Nat) : ({ moduleGone b t with freeCtr := n } : Box).word a = (moduleGone b t).word a := rfl
  have hpost : sameOn (offBlocks [0xF]) (moduleGone b t) (({ moduleGone b t with freeCtr := n } : Box).postFault 4 cause unit t 0) :=
    fun a ha => (postFault_offBlocks ({ moduleGone b t with freeCtr := n } : Box) 4 cause unit t 0 a ha).trans (hstart a)
  have hfield (f : Fld) (hf : f.addr = MDW_LINK_STATUS_at t) : (b.moduleFail t).rd f = (moduleGone b t).rd f := by
    rw [hbox, rd_raiseInt _ _ _ ?_]
    · refine rd_of_sameOn hpost ?_
      rw [hf, MDW_LINK_STATUS_at]
      exact ⟨by omega, by simp only [List.mem_singleton]; omega⟩
    · rw [hf]
      show MDW_LINK_STATUS_at t ∉ [0x60010, 0xF28000]
      rw [MDW_LINK_STATUS_at]
      simp only [List.mem_cons, List.not_mem_nil, or_false]
      omega
  have hflag (f : Fld) (hf : f.addr = MDW_LINK_STATUS_at t) : (b.moduleFail t).is f = (moduleGone b t).is f :=
    congrArg (· != 0) (hfield f hf)
  refine ⟨?_, ?_, ?_, ?_, ?_⟩
  · rw [hfield _ rfl, hmodules]
  · rw [hflag _ rfl, hdegraded]
  · rw [hflag _ rfl, hfield _ rfl, hunfit]
  · rw [hbox]
    exact raiseInt_sets _ _ _ (by decide) (by decide)
  · rw [hbox, is_raiseInt _ _ _ (by decide), hset]

/-! ### Readings -/

/-- The words of the PWR page's status, rails and junctions. -/
abbrev pwrWord (a : Nat) : Prop := 0x120100 ≤ a ∧ a < 0x120200

theorem raiseInt_pwr (b : Box) (bit : Nat) : sameOn pwrWord b (b.raiseInt pwrPage bit) := by
  refine sameOn_of_sameWords (raiseInt_sameWords b pwrPage bit) (fun a ha => ?_)
  have hmem : a ∈ [0x120010, 0xF28000] := ha
  simp only [List.mem_cons, List.not_mem_nil, or_false] at hmem
  omega

theorem count_pwr (b : Box) : sameOn pwrWord b (b.count pwrPage 0) := by
  refine sameOn_of_sameWords (bump_sameWords b pwrPage 0 1) (fun a ha => ?_)
  have hmem : a ∈ [0x121100, 0x120010, 0xF28000] := ha
  simp only [List.mem_cons, List.not_mem_nil, or_false] at hmem
  omega

/-- Whether the corner is left, as the status shows it. -/
def belowCorner (b : Box) : Bool := b.is PWR_ENV_STATUS_RAIL_LOW || b.is PWR_ENV_STATUS_TJ_HIGH

/-- The guaranteed corner follows the status; leaving it is counted once. -/
theorem guarantee_shows (b : Box) : sameOn pwrWord (b.put PWR_ENV_STATUS_BELOW_GUARANTEE (belowCorner b)) b.guarantee
    ∧ (b.is PWR_ENV_STATUS_BELOW_GUARANTEE = false → belowCorner b = true →
        b.guarantee.ctr pwrPage 0 = b.ctr pwrPage 0 + 1 ∧ b.guarantee.is (pageFld pwrPage 16 0 1) = true)
    ∧ (b.is PWR_ENV_STATUS_BELOW_GUARANTEE = true → belowCorner b = false → b.guarantee.is (pageFld pwrPage 16 1 1) = true) := by
  have hbox : b.guarantee = if belowCorner b && !b.is PWR_ENV_STATUS_BELOW_GUARANTEE then
      (((b.put PWR_ENV_STATUS_BELOW_GUARANTEE (belowCorner b)).count pwrPage 0).raiseInt pwrPage 0).envBreakAll (List.range 8) 0
      else if !belowCorner b && b.is PWR_ENV_STATUS_BELOW_GUARANTEE then
        (b.put PWR_ENV_STATUS_BELOW_GUARANTEE (belowCorner b)).raiseInt pwrPage 1
      else b.put PWR_ENV_STATUS_BELOW_GUARANTEE (belowCorner b) := rfl
  have hctr : (b.put PWR_ENV_STATUS_BELOW_GUARANTEE (belowCorner b)).ctr pwrPage 0 = b.ctr pwrPage 0 := put_read_ctr _ _ _ _ _
  rw [hbox]
  revert hctr
  generalize b.put PWR_ENV_STATUS_BELOW_GUARANTEE (belowCorner b) = s
  intro hctr
  cases hbelow : belowCorner b <;> cases hwas : b.is PWR_ENV_STATUS_BELOW_GUARANTEE <;>
    simp only [Bool.and_true, Bool.and_false, Bool.not_true, Bool.not_false, Bool.false_eq_true, if_false, if_true,
      Bool.true_eq_false, false_imp_iff, imp_true_iff, and_true, true_and, forall_const]
  · exact sameOn_refl _ s
  · exact ⟨raiseInt_pwr s 1, raiseInt_sets _ _ _ (by decide) (by decide)⟩
  · refine ⟨sameOn_trans (sameOn_trans (count_pwr s) (raiseInt_pwr _ 0)) fun a ha => envBreakAll_bigTop _ 0 a ?_, ?_, ?_⟩
    · exact (by omega : a < 0xF20000)
    · obtain ⟨_, _, h⟩ := onlyRegs_trans (raiseInt_onlyRegs (s.count pwrPage 0) pwrPage 0) (envBreakAll_onlyRegs _ (List.range 8) 0)
      rw [h]
      exact (count_ctr_succ s pwrPage 0).trans (congrArg (· + 1) hctr)
    · exact (is_of_sameOn (envBreakAll_bigTop _ 0) (by decide)).trans (raiseInt_sets _ _ _ (by decide) (by decide))
  · exact sameOn_refl _ s

/-- A junction's reading, and the status it leaves. -/
theorem junction_shows (b : Box) {die tj : Nat} (hd : die < 9) (htj : tj < 2 ^ 16) :
    (b.junction die tj).rd (PWR_TJ_TJ die) = tj ∧ (840 < toSigned 16 tj → (b.junction die tj).is PWR_ENV_STATUS_TJ_HIGH = true)
      ∧ (b.junction die tj).is PWR_ENV_STATUS_RAIL_LOW = b.is PWR_ENV_STATUS_RAIL_LOW
      ∧ (b.junction die tj).is PWR_ENV_STATUS_BELOW_GUARANTEE = b.is PWR_ENV_STATUS_BELOW_GUARANTEE
      ∧ (b.junction die tj).rd (PWR_RAIL_MV 0) = b.rd (PWR_RAIL_MV 0) ∧ ∃ r, b.junction die tj = { b with regs := r } := by
  have hread : (b.wr (PWR_TJ_TJ die) tj).rd (PWR_TJ_TJ die) = tj := rd_wr_lt b (show 0 + 16 ≤ 32 by decide) htj
  have hword : (PWR_TJ_TJ die).addr = 0x120110 + 4 * die := rfl
  have hjunction (g : Fld) (hg : g.addr = 0x120100 ∨ g.addr = 0x120140) : Apart (PWR_TJ_TJ die) g :=
    ⟨by show 0 + 16 ≤ 32; decide, .inl (by omega)⟩
  have hstatus : Apart PWR_ENV_STATUS_TJ_HIGH (PWR_TJ_TJ die) ∧ Apart PWR_ENV_STATUS_TJ_MAX (PWR_TJ_TJ die) := by
    have haddr : (PWR_TJ_TJ die).addr ≠ 0x120100 := by omega
    exact ⟨⟨by decide, .inl haddr⟩, ⟨by decide, .inl haddr⟩⟩
  simp only [Box.junction]
  refine ⟨?_, fun hhot => ?_, ?_, ?_, ?_, _, rfl⟩
  · rw [rd_wr_apart _ _ hstatus.2, rd_put_apart _ _ hstatus.1, hread]
  · rw [is_wr_apart _ _ (by decide), is_put_self _ _ rfl, List.any_eq_true]
    refine ⟨_, List.mem_map_of_mem (List.mem_range.mpr hd), ?_⟩
    rw [hread]
    exact decide_eq_true hhot
  · rw [is_wr_apart _ _ (by decide), is_put_apart _ _ (by decide), is_wr_apart _ _ (hjunction _ (.inl rfl))]
  · rw [is_wr_apart _ _ (by decide), is_put_apart _ _ (by decide), is_wr_apart _ _ (hjunction _ (.inl rfl))]
  · rw [rd_wr_apart _ _ (by decide), rd_put_apart _ _ (by decide), rd_wr_apart _ _ (hjunction _ (.inr rfl))]

/-- The reading of a junction and of the corner that it decides. -/
theorem junction_guarantee_shows (b : Box) {die tj : Nat} (hd : die < 9) (htj : tj < 2 ^ 16) :
    let u := (b.junction die tj).guarantee
    u.rd (PWR_TJ_TJ die) = tj ∧ (840 < toSigned 16 tj → u.is PWR_ENV_STATUS_TJ_HIGH = true)
      ∧ u.is PWR_ENV_STATUS_RAIL_LOW = b.is PWR_ENV_STATUS_RAIL_LOW ∧ u.rd (PWR_RAIL_MV 0) = b.rd (PWR_RAIL_MV 0)
      ∧ u.is PWR_ENV_STATUS_BELOW_GUARANTEE = (u.is PWR_ENV_STATUS_RAIL_LOW || u.is PWR_ENV_STATUS_TJ_HIGH)
      ∧ (b.is PWR_ENV_STATUS_BELOW_GUARANTEE = false → u.is PWR_ENV_STATUS_BELOW_GUARANTEE = true →
          u.ctr pwrPage 0 = b.ctr pwrPage 0 + 1 ∧ u.is (pageFld pwrPage 16 0 1) = true)
      ∧ (b.is PWR_ENV_STATUS_BELOW_GUARANTEE = true → u.is PWR_ENV_STATUS_BELOW_GUARANTEE = false →
          u.is (pageFld pwrPage 16 1 1) = true)
      ∧ onlyRegsCtrs b u := by
  obtain ⟨hread, hhot, hlow, hbelow, hrail, r, hparts⟩ := junction_shows b hd htj
  have hctr : (b.junction die tj).ctr pwrPage 0 = b.ctr pwrPage 0 := by rw [hparts]; rfl
  have honly : onlyRegsCtrs b (b.junction die tj) := by rw [hparts]; exact ⟨r, b.outbox, b.ctrs, rfl⟩
  generalize b.junction die tj = j at *
  obtain ⟨hsame, hleft, hback⟩ := guarantee_shows j
  have hparts' := onlyRegsCtrs_trans honly (guarantee_onlyRegsCtrs j)
  generalize j.guarantee = u at *
  have hrd (f : Fld) (hf : pwrWord f.addr) (ha : Apart PWR_ENV_STATUS_BELOW_GUARANTEE f) : u.rd f = j.rd f :=
    (rd_of_sameOn hsame hf).trans (rd_put_apart j _ ha)
  have his (f : Fld) (hf : pwrWord f.addr) (ha : Apart PWR_ENV_STATUS_BELOW_GUARANTEE f) : u.is f = j.is f :=
    congrArg (· != 0) (hrd f hf ha)
  have hshown : u.is PWR_ENV_STATUS_BELOW_GUARANTEE = belowCorner j :=
    (is_of_sameOn hsame (by decide)).trans (is_put_self j _ rfl)
  have hcorner : belowCorner j = (u.is PWR_ENV_STATUS_RAIL_LOW || u.is PWR_ENV_STATUS_TJ_HIGH) := by
    rw [his _ (by decide) (by decide), his _ (by decide) (by decide)]
    rfl
  have htjAddr : (PWR_TJ_TJ die).addr = 0x120110 + 4 * die := rfl
  refine ⟨(hrd _ ⟨by omega, by omega⟩ ⟨by decide, .inl ?_⟩).trans hread, fun h => (his _ (by decide) (by decide)).trans (hhot h),
    (his _ (by decide) (by decide)).trans hlow, (hrd _ (by decide) (by decide)).trans hrail, hshown.trans hcorner,
    fun hwas hnow => ?_, fun hwas hnow => hback (hbelow.trans hwas) (hshown.symm.trans hnow), hparts'⟩
  · rw [htjAddr]
    show 0x120110 + 4 * die ≠ 0x120100
    omega
  · obtain ⟨hcount, hcause⟩ := hleft (hbelow.trans hwas) (hshown.symm.trans hnow)
    exact ⟨hcount.trans (congrArg (· + 1) hctr), hcause⟩

/-- A thermal trip. -/
theorem thermalTrip_trips (b : Box) {die tj : Nat} (h : ¬ toSigned 16 tj < 960) : ∃ r o c ps, b.thermalTrip die tj = { b with
    regs := r, outbox := o, ctrs := c, ports := ps, phase := .tripped, trip := true, alarm := true,
    engines := b.engines.map fun e => (e.1, { e.2 with elm := false }),
    aprs := b.aprs.map fun e => (e.1, { e.2 with open_ := false }) } := by
  obtain ⟨r, hjunction⟩ : ∃ r, b.junction die tj = { b with regs := r } := ⟨_, rfl⟩
  obtain ⟨r', o, c, hguarantee⟩ := guarantee_onlyRegsCtrs (b.junction die tj)
  obtain ⟨ps, o', htrain⟩ := trainAll_onlyPorts (b.junction die tj).guarantee
  rw [Box.thermalTrip, if_neg h, htrain, hguarantee, hjunction]
  exact ⟨_, _, _, _, rfl⟩

theorem coreRail_shows (b : Box) {mv : Nat} (hmv : mv < 2 ^ 16) : (b.coreRail mv).rd (PWR_RAIL_MV 0) = mv
    ∧ (b.coreRail mv).is PWR_ENV_STATUS_RAIL_LOW = decide (mv < 620)
    ∧ (b.coreRail mv).is PWR_ENV_STATUS_BELOW_GUARANTEE = b.is PWR_ENV_STATUS_BELOW_GUARANTEE
    ∧ ∃ r, b.coreRail mv = { b with regs := r } := by
  refine ⟨?_, is_put_self _ _ rfl, ?_, _, rfl⟩
  · rw [Box.coreRail, rd_put_apart _ _ (by decide)]
    exact rd_wr_lt b (by decide) hmv
  · simp (disch := decide) only [Box.coreRail, is_put_apart, is_wr_apart]

/-- Settles O20: modules, the guaranteed corner and the thermal trip. -/
theorem operatingPointIsWatched : Obligations.OperatingPointIsWatched := by
  refine fun s hrun => ⟨fun t hmodules => ?_, fun mv die tj => ?_, fun die tj => ?_⟩
  · obtain ⟨hleft, hdegraded, hunfit, hcause, hevent⟩ := moduleFail_shows (b := s.toBox) t.isLt hmodules
    generalize hm : s.toBox.moduleFail t.toNat = m at *
    exact ⟨_, next_onBox (actRun_run s _ hrun) hm, hleft, hdegraded, hunfit, hcause, hevent⟩
  · have hdie : die.toNat < 9 := die.isLt
    have hact (f : Box → Box) := actPart_run s f hrun
    by_cases hrail : mv.toNat < 550 ∨ 850 < mv.toNat
    · have hbad : ¬ ((railRange 0).1 ≤ 2 * mv.toNat ∧ 2 * mv.toNat ≤ (railRange 0).2) := by
        simp only [railRange]
        omega
      have hbox : s.toBox.cornerRead mv.toNat die.toNat tj.toNat = _ := 
        (if_pos (show 2 * mv.toNat < 1100 ∨ 1700 < 2 * mv.toNat by omega)).trans (railRead_bad hbad)
      have hheld : ({ s.toBox with railsBad := 0 :: s.railsBad.filter (· ≠ 0) } : Box).mayRun = false := by simp [Box.mayRun]
      have hphase := powerOn_held hheld
      refine ⟨_, next_onPart (hact _) hbox, next_onPart (hact _) hbox, ?_⟩
      rw [if_pos hrail]
      exact ⟨hphase, rd_wr_lt _ (show 0 + 16 ≤ 32 by decide) mv.isLt⟩
    · obtain ⟨hmv, hlow, hwas, r, hcore⟩ := coreRail_shows s.toBox mv.isLt
      have hin : ¬ (2 * mv.toNat < 1100 ∨ 1700 < 2 * mv.toNat) := by omega
      by_cases htj : toSigned 16 tj.toNat < 960
      · have hbox : s.toBox.cornerRead mv.toNat die.toNat tj.toNat
            = (((s.toBox.coreRail mv.toNat).junction die.toNat tj.toNat).guarantee).anchored s.toBox :=
          (if_neg hin).trans (if_pos htj)
        have hparts : onlyRegsCtrs s.toBox (s.toBox.coreRail mv.toNat) := by rw [hcore]; exact ⟨r, s.outbox, s.ctrs, rfl⟩
        have hctr : (s.toBox.coreRail mv.toNat).ctr pwrPage 0 = s.ctr pwrPage 0 := by rw [hcore]; rfl
        obtain ⟨hread, -, hkeptLow, hkeptRail, hbelow, hleft, hback, hparts'⟩ :=
          junction_guarantee_shows (s.toBox.coreRail mv.toNat) hdie tj.isLt
        generalize s.toBox.coreRail mv.toNat = c at *
        generalize (c.junction die.toNat tj.toNat).guarantee = u at *
        refine ⟨_, next_onPart (hact _) hbox, next_onPart (hact _) hbox, ?_⟩
        rw [if_neg hrail, if_neg (Int.not_le.mpr htj)]
        refine ⟨hkeptRail.trans hmv, hread, hkeptLow.trans hlow, hbelow, fun hs hu => ?_, fun hs hu => hback (hwas.trans hs) hu, ?_⟩
        · obtain ⟨hcount, hcause⟩ := hleft (hwas.trans hs) hu
          exact ⟨hcount.trans (congrArg (· + 1) hctr), hcause⟩
        · obtain ⟨r, o, c, rfl⟩ := onlyRegsCtrs_trans hparts hparts'
          rfl
      · have hbox : s.toBox.cornerRead mv.toNat die.toNat tj.toNat
            = ((s.toBox.coreRail mv.toNat).thermalTrip die.toNat tj.toNat).anchored s.toBox := (if_neg hin).trans (if_neg htj)
        obtain ⟨r', o, c, ps, htrip⟩ := thermalTrip_trips (s.toBox.coreRail mv.toNat) (die := die.toNat) htj
        rw [htrip] at hbox
        refine ⟨_, next_onPart (hact _) hbox, next_onPart (hact _) hbox, ?_⟩
        rw [if_neg hrail, if_pos (Int.not_lt.mp htj)]
        exact ⟨rfl, rfl, rfl⟩
  · have hdie : die.toNat < 9 := die.isLt
    have hact := act_run s (fun b => b.thermalTrip die.toNat tj.toNat) hrun
    split
    · next htj =>
      have hbox : s.toBox.thermalTrip die.toNat tj.toNat = (s.toBox.junction die.toNat tj.toNat).guarantee := if_pos htj
      obtain ⟨hread, hhot, -, -, hbelow, -, -, hparts⟩ := junction_guarantee_shows s.toBox hdie tj.isLt
      generalize (s.toBox.junction die.toNat tj.toNat).guarantee = u at *
      obtain ⟨r, o, c, rfl⟩ := hparts
      refine ⟨_, next_onBox hact hbox, hread, hrun, fun h => ⟨hhot h, ?_⟩, rfl⟩
      refine hbelow.trans ?_
      rw [hhot h, Bool.or_true]
    · next htj =>
      obtain ⟨r, o, c, ps, htrip⟩ := thermalTrip_trips s.toBox (die := die.toNat) htj
      refine ⟨_, next_onBox hact htrip, rfl, rfl, rfl, fun e he => ?_, fun e he => ?_, rfl, rfl⟩
      · obtain ⟨e', -, rfl⟩ := List.mem_map.mp he
        rfl
      · obtain ⟨e', -, rfl⟩ := List.mem_map.mp he
        rfl

end Sys2Proof.Proofs
end

section
/-!
# A tumbler's instructions

What an instruction word does where an invocation has reached it, said once for every word; O42 is then a line per
instruction.
-/

namespace Sys2Proof.Proofs
open Sys2Proof Sys2Proof.Machine Sys2Proof.Safety Sys2Proof.Laws

/-! ### The invocation with the word's issue slots charged -/

/-- The invocation with the issue slots of the word `w` charged to it (R249). -/
def charged (v : Inv) (w : Nat) : Inv := { v with slots := v.slots + kCost w }

section
variable (v : Inv) (w : Nat)

@[simp] theorem charged_sr (i : Nat) : (charged v w).sr i = v.sr i := rfl
@[simp] theorem charged_vr (i : Nat) : (charged v w).vr i = v.vr i := rfl
@[simp] theorem charged_pr (i : Nat) : (charged v w).pr i = v.pr i := rfl
@[simp] theorem charged_pc : (charged v w).pc = v.pc := rfl
@[simp] theorem charged_loops : (charged v w).loops = v.loops := rfl
@[simp] theorem charged_load (img : List Byte) (a n al : Nat) : (charged v w).load img a n al = v.load img a n al := rfl

@[simp] theorem setS_pc (i x : Nat) : (v.setS i x).pc = v.pc := by rw [Inv.setS]; split <;> rfl
@[simp] theorem setP_pc (i x : Nat) : (v.setP i x).pc = v.pc := by rw [Inv.setP]; split <;> rfl
@[simp] theorem setV_pc (i : Nat) (x : List Byte) : (v.setV i x).pc = v.pc := rfl

theorem setS_charged (i x : Nat) : (charged v w).setS i x = charged (v.setS i x) w := by
  unfold Inv.setS; split <;> rfl
theorem setP_charged (i x : Nat) : (charged v w).setP i x = charged (v.setP i x) w := by
  unfold Inv.setP; split <;> rfl
theorem setV_charged (i : Nat) (x : List Byte) : (charged v w).setV i x = charged (v.setV i x) w := rfl
end

/-! ### What a word's outcome leaves -/

/-- What the outcome of a word leaves of the machine, `v` the invocation with its slots charged (R247, R230, R233). -/
def ranOut (b : Box) (sl st : Nat) (v : Inv) : KOut → Box
  | .next x => b.setSliver sl { b.sliver sl with inv := some (x.enter (b.sx st).image (v.pc + 1) none) }
  | .jump x pc => b.setSliver sl { b.sliver sl with inv := some (x.enter (b.sx st).image pc none) }
  | .loop x pc => b.setSliver sl { b.sliver sl with inv := some (x.enter (b.sx st).image pc (some v.pc)) }
  | .exit => b.invExit sl st v
  | .fault c fc => b.invFault sl st v c fc

section
variable {s : State} {sl st w : Nat} {v x : Inv} {r : Result} {f : List Byte → Inv → KOut}

theorem kRun_atWord (h : atWord s sl st v w) (f : List Byte → Inv → KOut) :
    s.toBox.kRun sl w f = ranOut s.toBox sl st (charged v w) (f (s.sx st).image (charged v w)) := by
  obtain ⟨-, hinv, hup, howner, hword, hlegal, hslots⟩ := h
  have hmet : (s.sliver sl).upsetIn ≠ some 0 := by rw [hup]; exact nofun
  unfold Box.kRun
  rw [hinv, howner]
  dsimp only
  rw [if_neg (not_not.mpr hword), if_neg hmet, upsetTick_none _ _ _ hup, if_neg (by rw [hlegal]; exact Bool.true_eq_false_eq_False),
    if_neg (Nat.not_lt.mpr hslots)]
  change (match f (s.sx st).image (charged v w) with | .next x => _ | .jump x pc => _ | .loop x pc => _ | .exit => _ | .fault c fc => _) = _
  cases f (s.sx st).image (charged v w) <;> rfl

/-- A word whose outcome is `k`. -/
theorem exec_word {w' : Nat} (hr : r = s.actRun fun b => b.kRun sl w' f) (hw : w = w') (h : atWord s sl st v w) {k : KOut}
    (hk : f (s.sx st).image (charged v w) = k) : r = .next (s.onBox fun b => ranOut b sl st (charged v w) k) := by
  subst hw
  rw [hr, actRun_run s _ h.1]
  exact congrArg Host.Outcome.next (congrArg (fun b : Box => ({ s with toBox := b.anchored s.toBox } : State))
    ((kRun_atWord h f).trans (by rw [hk])))

/-- A word after which control goes to the next one. -/
theorem exec_word_next {w' : Nat} (hr : r = s.actRun fun b => b.kRun sl w' f) (hw : w = w') (h : atWord s sl st v w)
    (hf : f (s.sx st).image (charged v w) = .next (charged x w)) (hpc : x.pc = v.pc) : r = .next (ranNext s sl st w x) := by
  rw [exec_word hr hw h hf, ranNext, hpc]
  rfl

/-- A word that writes one scalar register. -/
theorem exec_scalar {w' d y : Nat} {g : Inv → Nat} (hr : r = s.actRun fun b => b.kRun sl w' (kScalar d g)) (hw : w = w')
    (h : atWord s sl st v w) (hg : g (charged v w) = y) : r = .next (ranNext s sl st w (v.setS d y)) :=
  exec_word_next hr hw h (congrArg KOut.next ((congrArg ((charged v w).setS d) hg).trans (setS_charged v w d y))) (setS_pc v d _)
end

/-- RDSYS on a sliver of no stream. -/
theorem rdsysRun_diagnostic {b : Box} {sl : Nat} (howner : b.sliverOwner sl = none) {d a : Nat}
    (hlegal : kLegal (encI 0x3E d a 0) = true) : b.rdsysRun sl d a = { b with
      freeCtr := b.freeCtr + 1
      slivers := (b.setSliver sl { b.sliver sl with diag := some (((b.sliver sl).diag.getD
        { entry := .openE, epoch := 0, chunk := 0, part := none, k := 0 }).setS d (b.rdsys sl a b.freeCtr)) }).slivers } := by
  have howner' : Box.sliverOwner { b with freeCtr := b.freeCtr + 1 } sl = none := howner
  simp only [Box.rdsysRun, Box.takeFree, howner', hlegal, if_true]
  rfl

theorem rdsysRun_owned {b : Box} {sl st : Nat} (howner : b.sliverOwner sl = some st) (d a : Nat) : b.rdsysRun sl d a
    = Box.kRun { b with freeCtr := b.freeCtr + 1 } sl (encI 0x3E d a 0) (kScalar d fun _ => b.rdsys sl a b.freeCtr) := by
  have howner' : Box.sliverOwner { b with freeCtr := b.freeCtr + 1 } sl = some st := howner
  simp only [Box.rdsysRun, Box.takeFree, howner']
  rfl

theorem kLegal_rdsys (d : Nat) (hd : d < 32) (a : Nat) (ha : a ≤ 4) : kLegal (encI 0x3E d a 0) = true := by
  interval_cases a <;> revert d <;> decide

/-- Settles O42: each word is one register write, by the rule of a word after which control goes on. -/
theorem scalarInstructionsWriteTheirRegister : Obligations.ScalarInstructionsWriteTheirRegister := by
  unfold Obligations.ScalarInstructionsWriteTheirRegister
  refine ⟨fun s sl st w v d a b c h => ⟨fun func => ⟨?_, ?_⟩, fun imm => ⟨?_, ?_, ?_, ?_, ?_, ?_⟩, ?_, ?_⟩, fun s sl d a hrun howner ha => ?_⟩
  iterate 9 · exact fun hw => exec_scalar rfl hw h rfl
  · intro hw
    obtain ⟨hrun, -, -, howner, -⟩ := id h
    have hbox : exec (.rdsys sl d a) s = State.actRun { s with freeCtr := s.freeCtr + 1 } fun b =>
        b.kRun sl.toNat (encI 0x3E d.toNat a.toNat 0) (kScalar d.toNat fun _ => s.toBox.rdsys sl.toNat a.toNat s.freeCtr) := by
      rw [actRun_run { s with freeCtr := s.freeCtr + 1 } _ hrun]
      exact (actRun_run s _ hrun).trans (congrArg Host.Outcome.next (congrArg
        (fun b : Box => ({ s with toBox := b.anchored s.toBox } : State)) (rdsysRun_owned howner d.toNat a.toNat)))
    exact exec_scalar hbox hw h rfl
  · have hlegal := kLegal_rdsys d.toNat d.isLt a.toNat ha
    refine ⟨_, _, next_onBox (actRun_run s _ hrun) (rdsysRun_diagnostic howner hlegal), ?_, rfl, rfl, ?_⟩
    · exact congrArg Sliver.diag (mapGet_mapSet_same _ _ _ _)
    · exact fun k hk => mapGet_mapSet_other _ _ _ hk

end Sys2Proof.Proofs
end

section
/-!
# The end of an invocation by a fault

What a fault leaves (08_tumblers.md R233): its counter, its record in TMB_FAULT_INFO, the chunk's slot poisoned.
-/

namespace Sys2Proof.Proofs
open Sys2Proof Sys2Proof.Machine Sys2Proof.Safety Sys2Proof.Laws

/-! ### Chunk slots -/

theorem find?_replaced {α : Type} (p : α → Bool) (l : List α) {y : α} (hy : p y = true) :
    (if l.any p then l.map fun x => if p x then y else x else l ++ [y]).find? p = some y := by
  split
  case isTrue hany =>
    induction l with
    | nil => simp at hany
    | cons x l ih =>
      by_cases hx : p x = true
      · simp [hx, hy]
      · have hrest : l.any p = true := by simpa [hx] using hany
        simpa [hx] using ih hrest
  case isFalse hnone =>
    rw [List.find?_append, List.find?_eq_none.mpr fun x hx hp => hnone (List.any_eq_true.mpr ⟨x, hx, hp⟩)]
    simp [hy]

/-- A slot's chunk. -/
abbrev ofChunk (st e c : Nat) (x : ChunkSlot) : Bool := x.stream == st && x.epoch == e && x.chunk == c

theorem slotOf_putSlot (b : Box) (sl : Nat) (y : ChunkSlot) : (b.putSlot sl y).slotOf sl y.stream y.epoch y.chunk = some y := by
  rw [Box.slotOf, Box.putSlot, sliver_setSliver]
  exact find?_replaced (ofChunk y.stream y.epoch y.chunk) _ (by simp [ofChunk])

theorem putSlot_inv (b : Box) (sl : Nat) (y : ChunkSlot) : ((b.putSlot sl y).sliver sl).inv = (b.sliver sl).inv := by
  rw [Box.putSlot, sliver_setSliver]

theorem chunk_of_slotOf {b : Box} {sl st e c : Nat} {y : ChunkSlot} (h : b.slotOf sl st e c = some y) :
    y.stream = st ∧ y.epoch = e ∧ y.chunk = c := by
  have hy := List.find?_some h
  simp only [Bool.and_eq_true, beq_iff_eq] at hy
  exact ⟨hy.1.1, hy.1.2, hy.2⟩

theorem poison_slotOf {b : Box} {sl st e c : Nat} {y : ChunkSlot} (h : b.slotOf sl st e c = some y) :
    ∃ z, (b.poison sl st e c).slotOf sl st e c = some z ∧ z.poisoned = true := by
  obtain ⟨rfl, rfl, rfl⟩ := chunk_of_slotOf h
  rw [Box.poison, h]
  exact ⟨_, slotOf_putSlot b sl { y with poisoned := true, done := false, watch := [], hold := .none, out := [], nodes := [], roots := [] }, rfl⟩

theorem poison_inv (b : Box) (sl st e c : Nat) : ((b.poison sl st e c).sliver sl).inv = (b.sliver sl).inv := by
  rw [Box.poison]
  split
  · rfl
  · exact putSlot_inv _ _ _

theorem poison_keeps (b : Box) (sl st e c : Nat) : ∃ x, b.poison sl st e c = { b with slivers := x } := by
  rw [Box.poison]
  split
  · exact ⟨_, rfl⟩
  · exact ⟨_, rfl⟩

/-! ### Counters of other pages -/

theorem ctr_of_onlyRegs {s t : Box} (h : onlyRegs s t) (p : Page) (i : Nat) : t.ctr p i = s.ctr p i := by
  obtain ⟨r, o, rfl⟩ := h; rfl

theorem bmtNotify_ctrs (s : Box) (rec : List Byte) : (s.bmtNotify rec).ctrs = s.ctrs := by
  have hevent (b : Box) : (b.bmtEvent rec).ctrs = b.ctrs := by
    unfold Box.bmtEvent
    split <;> rfl
  rw [Box.bmtNotify, hevent]
  split <;> rfl

theorem post_ctr_other (s : Box) (q : RecQueue) (p : Page) (i : Nat) (rec : List Byte) {r : Page} {j : Nat}
    (h : r * 4096 + j ≠ p * 4096 + i) : (s.post q p i rec).ctr r j = s.ctr r j := by
  have hcount : (s.count p i).ctr r j = s.ctr r j := ctr_bump_other s p r i j 1 h
  unfold Box.post
  split
  · split
    · rw [ctr_of_onlyRegs (raiseInt_onlyRegs _ _ _), hcount]
    · exact hcount
  · exact ctr_of_onlyRegs (onlyRegs_trans (setWords_onlyRegs s (q.base + q.size * s.rd q.head) (wordsLE rec)) (wr_onlyRegs _ q.head ((s.rd q.head + 1) % q.recs))) r j

theorem postFault_ctr_other (s : Box) (cls cause unit tent pattern : Nat) {r : Page} {j : Nat}
    (h : r * 4096 + j ≠ mgtPage * 4096 + 1) : (s.postFault cls cause unit tent pattern).ctr r j = s.ctr r j := by
  rw [Box.postFault, ctr_of_onlyRegs (raiseInt_onlyRegs _ _ _), Box.ctr, bmtNotify_ctrs]
  exact post_ctr_other _ _ _ _ _ h

/-! ### A sliver's fault event -/

/-- The words that a tumbler's fault writes: TMB_FAULT_INFO and the tent page's INT_PEND. -/
abbrev faultWord (sl a : Nat) : Prop := a / 16 = 0x8018 ∨ a = pageBase (tmbTentPage (sl % 8)) + 16

theorem pageBase_tmbTentPage (t : Nat) (ht : t < 8) : pageBase (tmbTentPage t) = 0x1000000 * (t + 1) + 0x80000 := by
  interval_cases t <;> decide

theorem tmbTentPage_eq (t : Nat) : tmbTentPage t = 256 * t + 8 := rfl

theorem sliverFault_shows (b : Box) {sl : Nat} (hsl : sl < 4096) (pattern : Nat) :
    (b.sliverFault sl pattern).slivers = b.slivers
      ∧ (b.sliverFault sl pattern).ctr (tmbTentPage (sl % 8)) 1 = b.ctr (tmbTentPage (sl % 8)) 1
      ∧ sameOn (faultWord sl) b (b.sliverFault sl pattern) := by
  have hbase := pageBase_tmbTentPage (sl % 8) (by omega)
  have hslivers {s t : Box} (h : logged s t) : t.slivers = s.slivers := by
    obtain ⟨_, _, _, _, _, _, _, rfl⟩ := h; rfl
  have hctr : tmbTentPage (sl % 8) * 4096 + 1 ≠ mgtPage * 4096 + 1 := by
    show (256 * (sl % 8) + 8) * 4096 + 1 ≠ (256 * 8 + 15) * 4096 + 1
    omega
  have hpost : sameOn (faultWord sl) b (Box.postFault { b with freeCtr := b.freeCtr + 1 } 7
      ((Config.freeBits b.freeCtr).toNat % 256) (sl / 8) (sl % 8) pattern) := fun a ha =>
    postFault_offBlocks { b with freeCtr := b.freeCtr + 1 } _ _ _ _ _ a (by
      rcases ha with ha | ha <;> exact ⟨by omega, by simp only [List.mem_singleton]; omega⟩)
  have hp_sliv : (Box.postFault { b with freeCtr := b.freeCtr + 1 } 7
      ((Config.freeBits b.freeCtr).toNat % 256) (sl / 8) (sl % 8) pattern).slivers = b.slivers :=
    hslivers (s := { b with freeCtr := b.freeCtr + 1 }) (postFault_logged _ _ _ _ _ _)
  have hp_ctr : (Box.postFault { b with freeCtr := b.freeCtr + 1 } 7
      ((Config.freeBits b.freeCtr).toNat % 256) (sl / 8) (sl % 8) pattern).ctr (tmbTentPage (sl % 8)) 1
      = b.ctr (tmbTentPage (sl % 8)) 1 := postFault_ctr_other { b with freeCtr := b.freeCtr + 1 } _ _ _ _ _ hctr
  rw [Box.sliverFault]
  dsimp only [Box.takeFree]
  generalize Box.postFault { b with freeCtr := b.freeCtr + 1 } 7
      ((Config.freeBits b.freeCtr).toNat % 256) (sl / 8) (sl % 8) pattern = m at *
  have hwatch : sameOn (faultWord sl) m (m.put { CAR_WATCH_WATCH (sl / 32) with lo := sl % 32, width := 1 } true) := by
    refine put_sameOn m true ?_
    simp only [faultWord, CAR_WATCH_WATCH, CAR_WATCH_at]
    omega
  split
  · refine ⟨hp_sliv, hp_ctr, sameOn_trans (sameOn_trans hpost hwatch) (put_sameOn _ true ?_)⟩
    simp only [faultWord, TMB_SLIVER_MAP_QUAR, TMB_SLIVER_MAP_at]
    omega
  · exact ⟨hp_sliv, hp_ctr, sameOn_trans hpost hwatch⟩

/-! ### The record of a fault -/

/-- TMB_FAULT_INFO with a fault recorded, where none is. -/
def faultRecorded (b : Box) (sl st epoch chunk pc cause fcode : Nat) : Box :=
  if b.is TMB_FAULT_INFO2_VALID then b
  else
    let a := ((b.wr TMB_FAULT_INFO0_CEPOCH epoch).wr TMB_FAULT_INFO0_CAUSE cause).wr TMB_FAULT_INFO0_STREAM st
    let c := ((a.wr TMB_FAULT_INFO1_CHUNK chunk).wr TMB_FAULT_INFO2_SLIVER sl).wr TMB_FAULT_INFO2_PC pc
    (c.wr TMB_FAULT_INFO3_FCODE fcode).put TMB_FAULT_INFO2_VALID true

theorem faultRecorded_onlyRegs (b : Box) (sl st epoch chunk pc cause fcode : Nat) :
    onlyRegs b (faultRecorded b sl st epoch chunk pc cause fcode) := by
  unfold faultRecorded
  split
  · exact onlyRegs_refl b
  · refine onlyRegs_trans ?_ (put_onlyRegs _ _ _)
    iterate 7 refine onlyRegs_trans ?_ (wr_onlyRegs _ _ _)
    exact onlyRegs_refl b

theorem faultRecorded_shows {b : Box} (h : b.is TMB_FAULT_INFO2_VALID = false) {sl cause fcode : Nat} (hsl : sl < 2 ^ 12)
    (hcause : cause < 2 ^ 4) (hfcode : fcode < 2 ^ 16) (st epoch chunk pc : Nat) :
    (faultRecorded b sl st epoch chunk pc cause fcode).rd TMB_FAULT_INFO0_CAUSE = cause
      ∧ (faultRecorded b sl st epoch chunk pc cause fcode).rd TMB_FAULT_INFO3_FCODE = fcode
      ∧ (faultRecorded b sl st epoch chunk pc cause fcode).rd TMB_FAULT_INFO2_SLIVER = sl := by
  rw [faultRecorded, if_neg (by simp [h])]
  refine ⟨?_, ?_, ?_⟩ <;> simp (disch := decide) only [rd_put_apart, rd_wr_apart]
  · exact rd_wr_lt _ (by decide) hcause
  · exact rd_wr_lt _ (by decide) hfcode
  · exact rd_wr_lt _ (by decide) hsl

theorem tumblerFault_eq (b : Box) (sl st epoch chunk pc cause fcode : Nat) : b.tumblerFault sl st epoch chunk pc cause fcode
    = (if cause = 1 ∨ cause = 8 ∨ cause = 9 then fun c : Box => c.sliverFault sl (b.strmGrp st).fmt else id)
      (((faultRecorded (b.count (tmbTentPage (sl % 8)) 1) sl st epoch chunk pc cause fcode).poison sl st epoch chunk).raiseInt
        (tmbTentPage (sl % 8)) 0) := by
  by_cases hown : cause = 1 ∨ cause = 8 ∨ cause = 9
  · rw [if_pos hown]
    exact if_pos hown
  · rw [if_neg hown]
    exact if_neg hown

theorem tumblerFault_shows (b : Box) {sl cause fcode : Nat} (hsl : sl < 4096)
    (hcause : cause < 16) (hfcode : fcode < 0x10000) (st epoch chunk pc : Nat) :
    ((b.tumblerFault sl st epoch chunk pc cause fcode).sliver sl).inv = (b.sliver sl).inv
      ∧ (b.tumblerFault sl st epoch chunk pc cause fcode).ctr (tmbTentPage (sl % 8)) 1 = b.ctr (tmbTentPage (sl % 8)) 1 + 1
      ∧ (b.tumblerFault sl st epoch chunk pc cause fcode).is (pageFld (tmbTentPage (sl % 8)) 16 0 1) = true
      ∧ (b.is TMB_FAULT_INFO2_VALID = false →
          (b.tumblerFault sl st epoch chunk pc cause fcode).rd TMB_FAULT_INFO0_CAUSE = cause
          ∧ (b.tumblerFault sl st epoch chunk pc cause fcode).rd TMB_FAULT_INFO3_FCODE = fcode
          ∧ (b.tumblerFault sl st epoch chunk pc cause fcode).rd TMB_FAULT_INFO2_SLIVER = sl)
      ∧ ∀ y, b.slotOf sl st epoch chunk = some y →
          ∃ z, (b.tumblerFault sl st epoch chunk pc cause fcode).slotOf sl st epoch chunk = some z ∧ z.poisoned = true := by
  have hpage : 256 * (sl % 8) + 8 < 2304 := by omega
  have hbase := pageBase_tmbTentPage (sl % 8) (by omega)
  have hvector : pageVector (tmbTentPage (sl % 8)) < 256 := pageVector_lt hpage
  obtain ⟨hslivers0, hctr0, hvalid0⟩ : (b.count (tmbTentPage (sl % 8)) 1).slivers = b.slivers
      ∧ (b.count (tmbTentPage (sl % 8)) 1).ctr (tmbTentPage (sl % 8)) 1 = b.ctr (tmbTentPage (sl % 8)) 1 + 1
      ∧ (b.count (tmbTentPage (sl % 8)) 1).is TMB_FAULT_INFO2_VALID = b.is TMB_FAULT_INFO2_VALID := by
    refine ⟨?_, count_ctr_succ _ _ _, is_of_sameWords (bump_sameWords _ _ _ _) ?_⟩
    · obtain ⟨_, _, _, h⟩ := bump_onlyRegsCtrs b (tmbTentPage (sl % 8)) 1 1
      rw [Box.count, h]
    · simp only [causeWords, ovfFld, pageFld, hbase, TMB_FAULT_INFO2_VALID, TMB_FAULT_INFO2_at, List.mem_cons, List.not_mem_nil, or_false]
      omega
  rw [tumblerFault_eq]
  generalize b.count (tmbTentPage (sl % 8)) 1 = c at *
  have hrec := faultRecorded_onlyRegs c sl st epoch chunk pc cause fcode
  have hshown := fun h => faultRecorded_shows (b := c) (h : c.is TMB_FAULT_INFO2_VALID = false) (by omega : sl < 2 ^ 12) hcause hfcode st epoch chunk pc
  generalize faultRecorded c sl st epoch chunk pc cause fcode = d at *
  have hslivers1 : d.slivers = b.slivers := by obtain ⟨_, _, rfl⟩ := hrec; exact hslivers0
  have hctr1 : d.ctr (tmbTentPage (sl % 8)) 1 = b.ctr (tmbTentPage (sl % 8)) 1 + 1 := (ctr_of_onlyRegs hrec _ _).trans hctr0
  -- the slot is poisoned and the interrupt raised
  obtain ⟨hinv2, hctr2, hint2, hshown2, hslot2⟩ : (((d.poison sl st epoch chunk).raiseInt (tmbTentPage (sl % 8)) 0).sliver sl).inv
        = (b.sliver sl).inv
      ∧ ((d.poison sl st epoch chunk).raiseInt (tmbTentPage (sl % 8)) 0).ctr (tmbTentPage (sl % 8)) 1 = b.ctr (tmbTentPage (sl % 8)) 1 + 1
      ∧ ((d.poison sl st epoch chunk).raiseInt (tmbTentPage (sl % 8)) 0).is (pageFld (tmbTentPage (sl % 8)) 16 0 1) = true
      ∧ (∀ f : Fld, f.addr / 16 = 0x8018 → ((d.poison sl st epoch chunk).raiseInt (tmbTentPage (sl % 8)) 0).rd f = d.rd f)
      ∧ ∀ y, b.slotOf sl st epoch chunk = some y →
          ∃ z, ((d.poison sl st epoch chunk).raiseInt (tmbTentPage (sl % 8)) 0).slotOf sl st epoch chunk = some z ∧ z.poisoned = true := by
    have hsl_raise : ((d.poison sl st epoch chunk).raiseInt (tmbTentPage (sl % 8)) 0).slivers = (d.poison sl st epoch chunk).slivers := by
      obtain ⟨_, _, h⟩ := raiseInt_onlyRegs (d.poison sl st epoch chunk) (tmbTentPage (sl % 8)) 0
      rw [h]
    refine ⟨?_, ?_, raiseInt_sets _ _ _ (by decide) (by omega), fun f hf => ?_, fun y hy => ?_⟩
    · rw [Box.sliver, hsl_raise]
      refine (poison_inv d sl st epoch chunk).trans ?_
      rw [Box.sliver, hslivers1, Box.sliver]
    · rw [ctr_of_onlyRegs (raiseInt_onlyRegs _ _ _)]
      obtain ⟨_, h⟩ := poison_keeps d sl st epoch chunk
      rw [h]
      exact hctr1
    · rw [rd_raiseInt]
      · obtain ⟨_, h⟩ := poison_keeps d sl st epoch chunk
        rw [h]
        rfl
      · simp only [causeWords, hbase, List.mem_cons, List.not_mem_nil, or_false]
        omega
    · have hd : d.slotOf sl st epoch chunk = some y := by
        rw [Box.slotOf, Box.sliver, hslivers1]
        exact hy
      obtain ⟨z, hz, hp⟩ := poison_slotOf hd
      refine ⟨z, ?_, hp⟩
      rw [Box.slotOf, Box.sliver, hsl_raise]
      exact hz
  generalize (d.poison sl st epoch chunk).raiseInt (tmbTentPage (sl % 8)) 0 = e at *
  have hfields (h : b.is TMB_FAULT_INFO2_VALID = false) : e.rd TMB_FAULT_INFO0_CAUSE = cause
      ∧ e.rd TMB_FAULT_INFO3_FCODE = fcode ∧ e.rd TMB_FAULT_INFO2_SLIVER = sl := by
    rw [hshown2 _ (by decide), hshown2 _ (by decide), hshown2 _ (by decide)]
    exact hshown (hvalid0.trans h)
  split
  · obtain ⟨hslivers, hctr, hwords⟩ := sliverFault_shows e hsl (b.strmGrp st).fmt
    refine ⟨?_, hctr.trans hctr2, (is_of_sameOn hwords (.inr rfl)).trans hint2, fun h => ?_, fun y hy => ?_⟩
    · rw [Box.sliver, hslivers]
      exact hinv2
    · rw [rd_of_sameOn hwords (.inl (by decide)), rd_of_sameOn hwords (.inl (by decide)), rd_of_sameOn hwords (.inl (by decide))]
      exact hfields h
    · rw [Box.slotOf, Box.sliver, hslivers]
      exact hslot2 y hy
  · exact ⟨hinv2, hctr2, hint2, hfields, hslot2⟩

theorem invFault_shows (b : Box) {sl cause fcode : Nat} (hsl : sl < 4096) (hcause : cause < 16) (hfcode : fcode < 0x10000)
    (st : Nat) (v : Machine.Inv) : ((b.invFault sl st v cause fcode).sliver sl).inv = none
      ∧ (b.invFault sl st v cause fcode).ctr (tmbTentPage (sl % 8)) 1 = b.ctr (tmbTentPage (sl % 8)) 1 + 1
      ∧ (b.invFault sl st v cause fcode).is (pageFld (tmbTentPage (sl % 8)) 16 0 1) = true
      ∧ (b.is TMB_FAULT_INFO2_VALID = false → (b.invFault sl st v cause fcode).rd TMB_FAULT_INFO0_CAUSE = cause
          ∧ (b.invFault sl st v cause fcode).rd TMB_FAULT_INFO3_FCODE = fcode
          ∧ (b.invFault sl st v cause fcode).rd TMB_FAULT_INFO2_SLIVER = sl)
      ∧ ∀ y, b.slotOf sl st v.epoch v.chunk = some y →
          ∃ z, (b.invFault sl st v cause fcode).slotOf sl st v.epoch v.chunk = some z ∧ z.poisoned = true := by
  have hbase := pageBase_tmbTentPage (sl % 8) (by omega)
  have hvector : pageVector (tmbTentPage (sl % 8)) < 256 := pageVector_lt (r := 256 * (sl % 8) + 8) (by omega)
  rw [Box.invFault]
  obtain ⟨_, _, _, hbump⟩ := bump_onlyRegsCtrs (b.setSliver sl { b.sliver sl with inv := none }) (tmbTentPage (sl % 8))
    (3 + 4 * (sl / 8) + 1) v.slots
  have hslivers : ((b.setSliver sl { b.sliver sl with inv := none }).bump (tmbTentPage (sl % 8)) (3 + 4 * (sl / 8) + 1) v.slots).slivers
      = (b.setSliver sl { b.sliver sl with inv := none }).slivers := by rw [hbump]
  have hctr := ctr_bump_other (b.setSliver sl { b.sliver sl with inv := none }) (tmbTentPage (sl % 8)) (tmbTentPage (sl % 8))
    (3 + 4 * (sl / 8) + 1) 1 v.slots (by
      show (256 * (sl % 8) + 8) * 4096 + 1 ≠ (256 * (sl % 8) + 8) * 4096 + (3 + 4 * (sl / 8) + 1)
      omega)
  have hvalid : ((b.setSliver sl { b.sliver sl with inv := none }).bump (tmbTentPage (sl % 8)) (3 + 4 * (sl / 8) + 1) v.slots).is
      TMB_FAULT_INFO2_VALID = b.is TMB_FAULT_INFO2_VALID := by
    refine is_of_sameWords (bump_sameWords _ _ _ _) ?_
    simp only [causeWords, ovfFld, pageFld, hbase, TMB_FAULT_INFO2_VALID, TMB_FAULT_INFO2_at, List.mem_cons, List.not_mem_nil, or_false]
    omega
  generalize (b.setSliver sl { b.sliver sl with inv := none }).bump (tmbTentPage (sl % 8)) (3 + 4 * (sl / 8) + 1) v.slots = c at *
  obtain ⟨hinv, hcount, hint, hfields, hslot⟩ := tumblerFault_shows c hsl hcause hfcode st v.epoch v.chunk v.pc
  refine ⟨hinv.trans ?_, hcount.trans (congrArg (· + 1) hctr), hint, fun h => hfields (hvalid.trans h), fun y hy => hslot y ?_⟩
  · rw [Box.sliver, hslivers]
    exact congrArg Sliver.inv (sliver_setSliver b sl { b.sliver sl with inv := none })
  · rw [Box.slotOf, Box.sliver, hslivers]
    exact (congrArg (fun x : Sliver => x.slots.find? (ofChunk st v.epoch v.chunk))
      (sliver_setSliver b sl { b.sliver sl with inv := none })).trans hy

end Sys2Proof.Proofs
end

section
/-!
# Loads and stores
-/

namespace Sys2Proof.Proofs
open Sys2Proof Sys2Proof.Machine Sys2Proof.Safety Sys2Proof.Laws

/-! ### Windows (R227, R229) -/

/-- The windows of an invocation: number, first address, length, whether it may be stored to. -/
def windows (v : Machine.Inv) (img : List Byte) : List (Nat × Nat × Nat × Bool) :=
  (if v.entry = .combineE then [] else [(0, 0, 64 * imgStateLines img, true)])
    ++ [(1, 0x2000, 0x8000, true), (2, 0xA000, 64 * imgConstLines img, false), (3, 0xE000, 0x1000, false),
        (4, 0xF000, 0x1000, false), (5, 0x10000, 0x1000, true)]

/-- The window that holds `n` bytes at `a`. -/
def windowAt (v : Machine.Inv) (img : List Byte) (a n : Nat) : Option (Nat × Nat × Nat × Bool) :=
  (windows v img).find? fun x => decide (x.2.1 ≤ a) && decide (a + n ≤ x.2.1 + x.2.2.1)

theorem find?_cons_map {α β : Type} (p : α → Bool) (f : α → β) (x : α) (l : List α) :
    ((x :: l).find? p).map f = if p x = true then some (f x) else (l.find? p).map f := by
  rw [List.find?_cons]
  cases p x <;> rfl

theorem window_eq (v : Machine.Inv) (img : List Byte) (a n : Nat) :
    v.window img a n = (windowAt v img a n).map fun x => (x.1, x.2.2.2) := by
  by_cases hc : v.entry = .combineE
  · rw [windowAt, windows, if_pos hc, List.nil_append]
    simp only [find?_cons_map, List.find?_nil, Option.map_none]
    rw [Inv.window, if_neg fun h => h.1 hc]
  · rw [windowAt, windows, if_neg hc, List.cons_append, List.nil_append]
    simp only [find?_cons_map, List.find?_nil, Option.map_none]
    simp only [Inv.window, ne_eq, hc, not_false_eq_true, true_and]

/-- What may be stored to: the state, the workspace and the result. -/
theorem windowAt_stored {v : Machine.Inv} {img : List Byte} {a n k lo len : Nat} (h : windowAt v img a n = some (k, lo, len, true)) :
    k = 0 ∨ k = 1 ∨ k = 5 := by
  have hmem := List.mem_of_find?_eq_some h
  rw [windows] at hmem
  split at hmem <;> simp at hmem <;> omega

/-! ### Bytes stored -/

theorem mapGet_mapSetAll {α : Type} [DecidableEq α] (d : Nat → α) (m : Sparse α) (k : Nat) (vs : List α) (j : Nat) (x : α) :
    mapGet d (mapSetAll d m k vs) j = if k ≤ j ∧ j < k + vs.length then vs.getD (j - k) x else mapGet d m j := by
  split
  case isTrue h =>
    have hi : j - k < vs.length := by omega
    have hj := mapGet_mapSetAll_in d m k vs hi
    rw [show k + (j - k) = j by omega] at hj
    rw [hj]
    simp [List.getD, hi]
  case isFalse h => exact mapGet_mapSetAll_other d m k vs (by omega)

theorem byteAt_storeBytes (v : Machine.Inv) (img : List Byte) {k : Nat} (hk : k = 0 ∨ k = 1 ∨ k = 5) (a : Nat) (bs : List Byte)
    {j : Nat} (hj : j < 6) (c : Nat) : (v.storeBytes k a bs).byteAt img j c
      = if j = k ∧ a ≤ c ∧ c < a + bs.length then bs.getD (c - a) 0 else v.byteAt img j c := by
  rcases hk with rfl | rfl | rfl <;> interval_cases j <;>
    simp [Inv.byteAt, Inv.storeBytes, mapGet_mapSetAll _ _ _ _ _ (0 : Byte)]

theorem storeBytes_keeps (v : Machine.Inv) (k a : Nat) (bs : List Byte) : v.storeBytes k a bs
    = { v with state := (v.storeBytes k a bs).state, work := (v.storeBytes k a bs).work, result := (v.storeBytes k a bs).result } := by
  unfold Inv.storeBytes
  split <;> rfl

theorem storeBytes_charged (v : Machine.Inv) (w k a : Nat) (bs : List Byte) :
    (charged v w).storeBytes k a bs = charged (v.storeBytes k a bs) w := by
  unfold Inv.storeBytes
  split <;> rfl

/-- A store is the same whatever slots have been charged. -/
theorem store_charged (v : Machine.Inv) (w : Nat) (img : List Byte) (a al : Nat) (bs : List Byte) :
    (charged v w).store img a al bs = (v.store img a al bs).map (charged · w) := by
  have hwin : (charged v w).window img a bs.length = v.window img a bs.length := rfl
  rw [Inv.store, Inv.store, hwin]
  split
  · rfl
  · cases v.window img a bs.length with
    | none => rfl
    | some x =>
      obtain ⟨k, rw_⟩ := x
      dsimp only
      split
      · exact congrArg Except.ok (storeBytes_charged v w k a bs)
      · rfl

theorem store_pc {v x : Machine.Inv} {img : List Byte} {a al : Nat} {bs : List Byte} (h : v.store img a al bs = .ok x) :
    x.pc = v.pc := by
  rw [Inv.store] at h
  split at h
  · cases h
  · cases hw : v.window img a bs.length with
    | none => rw [hw] at h; cases h
    | some y =>
      rw [hw] at h
      dsimp only at h
      split at h
      · cases h
        rw [storeBytes_keeps]
      · cases h

theorem load_error {v : Machine.Inv} {img : List Byte} {a n al cause : Nat} (h : v.load img a n al = .error cause) : cause < 16 := by
  rw [Inv.load] at h
  split at h
  · cases h; decide
  · cases hw : v.window img a n with
    | none => rw [hw] at h; cases h; decide
    | some y => rw [hw] at h; cases h

theorem store_error {v : Machine.Inv} {img : List Byte} {a al cause : Nat} {bs : List Byte} (h : v.store img a al bs = .error cause) :
    cause < 16 := by
  rw [Inv.store] at h
  split at h
  · cases h; decide
  · cases hw : v.window img a bs.length with
    | none => rw [hw] at h; cases h; decide
    | some y =>
      rw [hw] at h
      dsimp only at h
      split at h
      · cases h
      · cases h; decide

/-- Loads and stores by the window that holds them. -/
theorem access_windows (v : Machine.Inv) (img bs : List Byte) (a al : Nat) :
    (a % al ≠ 0 → v.load img a bs.length al = .error 3 ∧ v.store img a al bs = .error 3)
    ∧ (a % al = 0 → windowAt v img a bs.length = none → v.load img a bs.length al = .error 2 ∧ v.store img a al bs = .error 2)
    ∧ ∀ k lo len rw, a % al = 0 → windowAt v img a bs.length = some (k, lo, len, rw) →
        v.load img a bs.length al = .ok ((List.range bs.length).map fun i => v.byteAt img k (a + i))
        ∧ (rw = false → v.store img a al bs = .error 4)
        ∧ (rw = true → v.store img a al bs = .ok (v.storeBytes k a bs)) := by
  refine ⟨fun h => ⟨if_pos h, if_pos h⟩, fun h hw => ?_, fun k lo len rw h hw => ?_⟩
  · have hwin : v.window img a bs.length = none := by rw [window_eq, hw]; rfl
    rw [Inv.load, Inv.store, if_neg (not_not.mpr h), if_neg (not_not.mpr h), hwin]
    exact ⟨rfl, rfl⟩
  · have hwin : v.window img a bs.length = some (k, rw) := by rw [window_eq, hw]; rfl
    rw [Inv.load, Inv.store, if_neg (not_not.mpr h), if_neg (not_not.mpr h), hwin]
    exact ⟨rfl, fun h => by rw [h]; rfl, fun h => by rw [h]; rfl⟩

/-! ### The instructions -/

section
variable {s : State} {sl : SliverIx} {st w w' : Nat} {v : Machine.Inv} {r : Result} {f : List Byte → Machine.Inv → KOut}

/-- A word that faults ends the invocation, counted and recorded. -/
theorem exec_word_fault (hr : r = s.actRun fun b => b.kRun sl.toNat w' f) (hw : w = w') (h : atWord s sl.toNat st v w)
    {cause fcode : Nat} (hf : f (s.sx st).image (charged v w) = .fault cause fcode) (hcause : cause < 16) (hfcode : fcode < 0x10000) :
    ∃ u, r = .next u ∧ (u.sliver sl.toNat).inv = none
      ∧ u.ctr (tmbTentPage (sl.toNat % 8)) 1 = s.ctr (tmbTentPage (sl.toNat % 8)) 1 + 1
      ∧ u.is (pageFld (tmbTentPage (sl.toNat % 8)) 16 0 1) = true
      ∧ (s.is TMB_FAULT_INFO2_VALID = false → u.rd TMB_FAULT_INFO0_CAUSE = cause ∧ u.rd TMB_FAULT_INFO3_FCODE = fcode
          ∧ u.rd TMB_FAULT_INFO2_SLIVER = sl.toNat)
      ∧ ∀ y, s.slotOf sl.toNat st v.epoch v.chunk = some y →
          ∃ z, u.slotOf sl.toNat st v.epoch v.chunk = some z ∧ z.poisoned = true := by
  have hsl : sl.toNat < 4096 := sl.isLt
  obtain ⟨hinv, hctr, hint, hinfo, hslot⟩ := invFault_shows s.toBox hsl hcause hfcode st (charged v w)
  refine ⟨_, exec_word hr hw h hf, ?_⟩
  exact ⟨hinv, hctr, hint, hinfo, hslot⟩

theorem exec_load {n : Nat} {sx : Bool} {t base off : Nat} (hr : r = s.actRun fun b => b.kRun sl.toNat w' (kLoad n sx t base off))
    (hw : w = w') (h : atWord s sl.toNat st v w) {bs : List Byte} (hl : v.load (s.sx st).image (v.addr base off n) n n = .ok bs)
    {y : Nat} (hy : (if sx then ofSigned 32 (toSigned (8 * n) (natBE bs)) else natBE bs) = y) :
    r = .next (ranNext s sl.toNat st w (v.setS t y)) := by
  refine exec_word_next hr hw h ?_ (setS_pc v t y)
  have hl' : (charged v w).load (s.sx st).image ((charged v w).addr base off n) n n = .ok bs := hl
  rw [kLoad, hl']
  dsimp only
  rw [hy, setS_charged]

/-- A word whose memory access faults. -/
theorem exec_access_fault (hr : r = s.actRun fun b => b.kRun sl.toNat w' f) (hw : w = w') (h : atWord s sl.toNat st v w)
    {cause : Nat} (hf : f (s.sx st).image (charged v w) = .fault cause 0) (hcause : cause < 16) :
    ∃ u, r = .next u ∧ (u.sliver sl.toNat).inv = none
      ∧ u.ctr (tmbTentPage (sl.toNat % 8)) 1 = s.ctr (tmbTentPage (sl.toNat % 8)) 1 + 1
      ∧ (s.is TMB_FAULT_INFO2_VALID = false → u.rd TMB_FAULT_INFO0_CAUSE = cause) := by
  obtain ⟨u, hu, hinv, hctr, -, hinfo, -⟩ := exec_word_fault hr hw h hf hcause (by decide)
  exact ⟨u, hu, hinv, hctr, fun h => (hinfo h).1⟩

section
variable {x : Machine.Inv} {cause t base pg off n : Nat} {bs : List Byte} {sx : Bool} {img : List Byte}

theorem kLoad_error (h : v.load img (v.addr base off n) n n = .error cause) :
    kLoad n sx t base off img (charged v w) = .fault cause 0 := by
  have h' : (charged v w).load img ((charged v w).addr base off n) n n = .error cause := h
  rw [kLoad, h']

theorem kStore_ok (h : v.store img (v.addr base off n) n (bytesBE n (v.sr t)) = .ok x) :
    kStore n t base off img (charged v w) = .next (charged x w) := by
  have h' : (charged v w).store img ((charged v w).addr base off n) n (bytesBE n ((charged v w).sr t)) = .ok (charged x w) := by
    rw [store_charged]
    exact congrArg (Except.map (charged · w)) h
  rw [kStore, h']

theorem kStore_error (h : v.store img (v.addr base off n) n (bytesBE n (v.sr t)) = .error cause) :
    kStore n t base off img (charged v w) = .fault cause 0 := by
  have h' : (charged v w).store img ((charged v w).addr base off n) n (bytesBE n ((charged v w).sr t)) = .error cause := by
    rw [store_charged]
    exact congrArg (Except.map (charged · w)) h
  rw [kStore, h']

theorem kVld_ok (h : v.load img (v.addr base off 4) 64 4 = .ok bs) :
    kVld t base pg off img (charged v w) = .next (charged (v.setV t (mergeBytes (v.pr pg) (v.vr t) bs)) w) := by
  have h' : (charged v w).load img ((charged v w).addr base off 4) 64 4 = .ok bs := h
  rw [kVld, h']
  rfl

theorem kVld_error (h : v.load img (v.addr base off 4) 64 4 = .error cause) :
    kVld t base pg off img (charged v w) = .fault cause 0 := by
  have h' : (charged v w).load img ((charged v w).addr base off 4) 64 4 = .error cause := h
  rw [kVld, h']

/-- VST is the store of what memory holds merged with the register. -/
theorem kVst_loaded (h : v.load img (v.addr base off 4) 64 4 = .ok bs) : kVst t base pg off img (charged v w)
    = match v.store img (v.addr base off 4) 4 (mergeBytes (v.pr pg) bs (v.vr t)) with
      | .error c => .fault c 0
      | .ok y => .next (charged y w) := by
  have h' : (charged v w).load img ((charged v w).addr base off 4) 64 4 = .ok bs := h
  have hstore : (charged v w).store img ((charged v w).addr base off 4) 4 (mergeBytes ((charged v w).pr pg) bs ((charged v w).vr t))
      = (v.store img (v.addr base off 4) 4 (mergeBytes (v.pr pg) bs (v.vr t))).map (charged · w) := store_charged v w img _ 4 _
  rw [kVst, h']
  dsimp only
  rw [hstore]
  cases v.store img (v.addr base off 4) 4 (mergeBytes (v.pr pg) bs (v.vr t)) <;> rfl

theorem kVst_ok (h : v.load img (v.addr base off 4) 64 4 = .ok bs)
    (hs : v.store img (v.addr base off 4) 4 (mergeBytes (v.pr pg) bs (v.vr t)) = .ok x) :
    kVst t base pg off img (charged v w) = .next (charged x w) := by
  rw [kVst_loaded h, hs]

theorem kVst_unloaded (h : v.load img (v.addr base off 4) 64 4 = .error cause) :
    kVst t base pg off img (charged v w) = .fault cause 0 := by
  have h' : (charged v w).load img ((charged v w).addr base off 4) 64 4 = .error cause := h
  rw [kVst, h']

theorem kVst_unstored (h : v.load img (v.addr base off 4) 64 4 = .ok bs)
    (hs : v.store img (v.addr base off 4) 4 (mergeBytes (v.pr pg) bs (v.vr t)) = .error cause) :
    kVst t base pg off img (charged v w) = .fault cause 0 := by
  rw [kVst_loaded h, hs]

end
end

/-- Settles O43: the window that holds an access decides it; a word that loads or stores goes on or faults. -/
theorem loadsAndStoresUseTheWindows : Obligations.LoadsAndStoresUseTheWindows := by
  unfold Obligations.LoadsAndStoresUseTheWindows
  refine ⟨fun v img bs a n al hlen => ?_, fun s sl st w v t base pg off h => ⟨fun bs => ?_, fun x => ?_, fun cause => ?_⟩⟩
  · subst hlen
    obtain ⟨hmisaligned, hnone, hsome⟩ := access_windows v img bs a al
    refine ⟨hmisaligned, hnone, fun k lo len rw hal hwin => ?_⟩
    obtain ⟨hload, hro, hrw⟩ := hsome k lo len rw hal hwin
    refine ⟨hload, hro, fun hrw1 => ⟨_, hrw hrw1, storeBytes_keeps _ _ _ _, fun j c hj => ?_⟩⟩
    subst hrw1
    exact byteAt_storeBytes v img (windowAt_stored hwin) a bs hj c
  · refine ⟨?_, ?_, ?_, ?_, ?_, ?_, ?_⟩
    iterate 5 · exact fun hw hl => exec_load rfl hw h hl rfl
    · exact fun hw hl => exec_word_next rfl hw h (kVld_ok hl) (setV_pc v _ _)
    · exact fun x hw hl hs => exec_word_next rfl hw h (kVst_ok hl hs) (store_pc hs)
  · refine ⟨?_, ?_, ?_⟩
    iterate 3 · exact fun hw hs => exec_word_next rfl hw h (kStore_ok hs) (store_pc hs)
  · refine ⟨?_, ?_, ?_, ?_, ?_, ?_, ?_, ?_, ?_, ?_⟩
    iterate 5 · exact fun hw hl => exec_access_fault rfl hw h (kLoad_error hl) (load_error hl)
    iterate 3 · exact fun hw hs => exec_access_fault rfl hw h (kStore_error hs) (store_error hs)
    · exact fun hw hl => exec_access_fault rfl hw h (kVld_error hl) (load_error hl)
    · exact fun hw => ⟨fun hl => exec_access_fault rfl hw h (kVst_unloaded hl) (load_error hl),
        fun bs hl hs => exec_access_fault rfl hw h (kVst_unstored hl hs) (store_error hs)⟩

end Sys2Proof.Proofs
end

section
/-!
# Control, vector and predicate instructions
-/

namespace Sys2Proof.Proofs
open Sys2Proof Sys2Proof.Machine Sys2Proof.Safety Sys2Proof.Laws

/-! ### Where control goes (R247) -/

section
variable {s : State} {sl st w w' : Nat} {v x : Machine.Inv} {r : Result} {f : List Byte → Machine.Inv → KOut}

/-- A word after which control goes to the word `pc`. -/
theorem exec_word_jump (hr : r = s.actRun fun b => b.kRun sl w' f) (hw : w = w') (h : atWord s sl st v w) {pc : Nat}
    (hf : f (s.sx st).image (charged v w) = .jump (charged x w) pc) : r = .next (ranWord s sl st w x pc none) := by
  rw [exec_word hr hw h hf]
  rfl

/-- A LOOP that jumps back. -/
theorem exec_word_loop (hr : r = s.actRun fun b => b.kRun sl w' f) (hw : w = w') (h : atWord s sl st v w) {pc : Nat}
    (hf : f (s.sx st).image (charged v w) = .loop (charged x w) pc) : r = .next (ranWord s sl st w x pc (some v.pc)) := by
  rw [exec_word hr hw h hf]
  rfl

theorem exec_branch {bits off : Nat} {g : Machine.Inv → Bool} (hr : r = s.actRun fun b => b.kRun sl w' fun _ v => kBranch (g v) bits off v)
    (hw : w = w') (h : atWord s sl st v w) {taken : Bool} (hg : g (charged v w) = taken) : r = .next
      (if taken = true then ranWord s sl st w v ((v.pc : Int) + toSigned bits off).toNat none else ranNext s sl st w v) := by
  have hk : (fun (_ : List Byte) v => kBranch (g v) bits off v) (s.sx st).image (charged v w)
      = if taken = true then .jump (charged v w) ((v.pc : Int) + toSigned bits off).toNat else .next (charged v w) := by
    dsimp only
    rw [hg]
    rfl
  cases taken with
  | true => exact exec_word_jump hr hw h hk
  | false => exact exec_word_next hr hw h hk rfl
end

section
variable {v : Machine.Inv} {w a lidx off : Nat} {img : List Byte}

/-- LOOP on the invocation with its slots charged. -/
theorem kLoop_charged : kLoop a lidx off img (charged v w) =
    if (v.setS a (ofSigned 32 ((v.sr a : Int) - 1))).sr a = 0 then .next (charged (v.setS a (ofSigned 32 ((v.sr a : Int) - 1))) w)
    else if imgLoopLim img lidx < mapGet (fun _ => 0) v.loops v.pc + 1 + 1 then .fault 5 0
    else .loop (charged { v.setS a (ofSigned 32 ((v.sr a : Int) - 1)) with
        loops := mapSet (fun _ => 0) (v.setS a (ofSigned 32 ((v.sr a : Int) - 1))).loops v.pc (mapGet (fun _ => 0) v.loops v.pc + 1) } w)
      ((v.pc : Int) + toSigned 16 off).toNat := by
  rw [kLoop]
  dsimp only
  rw [charged_sr, setS_charged, charged_sr]
  rfl
end

/-! ### EXIT (R230) -/

theorem bump_slivers (b : Box) (p : Page) (i n : Nat) : (b.bump p i n).slivers = b.slivers := by
  obtain ⟨_, _, _, h⟩ := bump_onlyRegsCtrs b p i n
  rw [h]

theorem invoke_inv (b : Box) (sl : Nat) (v : Machine.Inv) : ((b.invoke sl v).sliver sl).inv = some v := by
  rw [Box.sliver, Box.invoke, Box.count, bump_slivers]
  exact congrArg Sliver.inv (sliver_setSliver b sl _)

/-- The machine once an invocation has ended with nothing to follow it yet. -/
def exited (b : Box) (sl : Nat) (v : Machine.Inv) : Box :=
  (b.setSliver sl { b.sliver sl with inv := none }).bump (tmbTentPage (sl % 8)) (3 + 4 * (sl / 8)) v.slots

theorem exited_sliver (b : Box) (sl : Nat) (v : Machine.Inv) : (exited b sl v).sliver sl = { b.sliver sl with inv := none } := by
  rw [Box.sliver, exited, bump_slivers]
  exact sliver_setSliver b sl _

theorem exited_slotOf (b : Box) (sl st e c : Nat) (v : Machine.Inv) : (exited b sl v).slotOf sl st e c = b.slotOf sl st e c := by
  rw [Box.slotOf, exited_sliver]
  rfl

theorem exited_keeps (b : Box) (sl : Nat) (v : Machine.Inv) : (exited b sl v).streams = b.streams ∧ (exited b sl v).tabs = b.tabs := by
  obtain ⟨_, _, _, h⟩ := bump_onlyRegsCtrs (b.setSliver sl { b.sliver sl with inv := none }) (tmbTentPage (sl % 8)) (3 + 4 * (sl / 8)) v.slots
  rw [exited, h]
  exact ⟨rfl, rfl⟩

theorem strm_of_tabs {s t : Box} (h : t.tabs = s.tabs) (st : Nat) : t.strm st = s.strm st := by
  simp only [Box.strm, Box.tab, h]

theorem setRange_of_tabs {s t : Box} (h : t.tabs = s.tabs) (m : Nat) : t.setRange m = s.setRange m := by
  simp only [Box.setRange, Box.tab, h]

theorem invExit_open {b : Box} {sl st : Nat} {v : Machine.Inv} {y : ChunkSlot} {q : Part} (he : v.entry = .openE)
    (hp : v.part = some q) (hy : b.slotOf sl st v.epoch v.chunk = some y) : b.invExit sl st v
    = ((exited b sl v).putSlot sl { y with kstate := v.state }).invokeStep sl { y with kstate := v.state } q
        ((partNamed (b.strmGrp st) (b.strm st) q.frame).elim 0 fun x => x.2) := by
  have hy' := (exited_slotOf b sl st v.epoch v.chunk v).trans hy
  rw [Box.invExit, if_neg (by rw [he]; exact fun h => h.1.elim nofun nofun)]
  dsimp only
  change (match (exited b sl v).slotOf sl st v.epoch v.chunk with | none => _ | some y => _) = _
  rw [hy']
  dsimp only
  rw [he, hp]
  rfl

theorem invExit_step {b : Box} {sl st : Nat} {v : Machine.Inv} {y : ChunkSlot} (he : v.entry = .stepE)
    (hy : b.slotOf sl st v.epoch v.chunk = some y) (hall : b.allArrived y = false) : b.invExit sl st v
    = (exited b sl v).putSlot sl { y with kstate := v.state } := by
  have hy' := (exited_slotOf b sl st v.epoch v.chunk v).trans hy
  have hall' : (exited b sl v).allArrived { y with kstate := v.state } = false := by
    rw [← hall, Box.allArrived, Box.allArrived, strm_of_tabs (exited_keeps b sl v).2, setRange_of_tabs (exited_keeps b sl v).2]
  rw [Box.invExit, if_neg (by rw [he]; exact fun h => h.1.elim nofun nofun)]
  dsimp only
  change (match (exited b sl v).slotOf sl st v.epoch v.chunk with | none => _ | some y => _) = _
  rw [hy']
  dsimp only
  rw [he]
  dsimp only
  change (if (exited b sl v).allArrived { y with kstate := v.state } = true then _ else (exited b sl v).putSlot sl _) = _
  rw [hall']
  rfl

/-- EXIT of an OPEN: the STEP of its part begins, on the state window it left. -/
theorem exit_open {b : Box} {sl st : Nat} {v : Machine.Inv} {y : ChunkSlot} {q : Part} (he : v.entry = .openE)
    (hp : v.part = some q) (hy : b.slotOf sl st v.epoch v.chunk = some y) : ∃ i, ((b.invExit sl st v).sliver sl).inv = some i
      ∧ i.entry = .stepE ∧ i.part = some q ∧ i.state = v.state ∧ i.pc = imgEntry (b.sx st).image 1 := by
  rw [invExit_open he hp hy, Box.invokeStep]
  refine ⟨_, invoke_inv _ _ _, rfl, rfl, rfl, ?_⟩
  have hstream : (((exited b sl v).putSlot sl { y with kstate := v.state }).sx y.stream) = b.sx st := by
    rw [(chunk_of_slotOf hy).1, Box.sx, Box.sx]
    exact congrArg (fun m => mapGet (fun _ => {}) m st) (exited_keeps b sl v).1
  exact congrArg (fun x : StreamX => imgEntry x.image 1) hstream

/-- EXIT of a STEP that does not complete its chunk. -/
theorem exit_step {b : Box} {sl st : Nat} {v : Machine.Inv} {y : ChunkSlot} (he : v.entry = .stepE)
    (hy : b.slotOf sl st v.epoch v.chunk = some y) (hall : b.allArrived y = false) : ((b.invExit sl st v).sliver sl).inv = none
      ∧ (b.invExit sl st v).slotOf sl st v.epoch v.chunk = some { y with kstate := v.state } := by
  rw [invExit_step he hy hall]
  refine ⟨?_, ?_⟩
  · rw [putSlot_inv, exited_sliver]
  · obtain ⟨hstream, hepoch, hchunk⟩ := chunk_of_slotOf hy
    rw [← hstream, ← hepoch, ← hchunk]
    exact slotOf_putSlot _ sl { y with kstate := v.state }

/-- A word that is no instruction. -/
theorem kIllegal_fault {b : Box} {sl st : Nat} {v : Machine.Inv} (hinv : (b.sliver sl).inv = some v) (howner : b.sliverOwner sl = some st)
    (hw : kLegal (kWordAt (b.sx st).image v.pc) = false) : b.kIllegal sl = b.invFault sl st v 1 0 := by
  rw [Box.kIllegal, hinv, howner]
  dsimp only
  rw [if_neg (by rw [hw]; exact Bool.false_ne_true)]

/-- Settles O44: control goes where the word's outcome says. -/
theorem controlInstructionsMoveTheInvocation : Obligations.ControlInstructionsMoveTheInvocation := by
  unfold Obligations.ControlInstructionsMoveTheInvocation
  refine fun s sl st w v a b off => ⟨fun h => ⟨?_, ?_, ?_, ?_, ?_, ?_, ?_, fun hw => ⟨?_, ?_, ?_⟩, fun hw y hy => ⟨?_, ?_⟩, ?_⟩, ?_⟩
  iterate 6 · exact fun hw => exec_branch rfl hw h rfl
  · exact fun o hw => exec_branch (g := fun _ => true) rfl hw h rfl
  · intro hzero
    exact exec_word_next rfl hw h (kLoop_charged.trans (if_pos hzero)) (setS_pc _ _ _)
  · intro hne hle
    exact exec_word_loop rfl hw h (kLoop_charged.trans ((if_neg hne).trans (if_neg (Nat.not_lt.mpr hle))))
  · intro hne hlt
    exact exec_word_fault rfl hw h (kLoop_charged.trans ((if_neg hne).trans (if_pos hlt))) (by decide) (by decide)
  · intro q he hp
    obtain ⟨i, hi, hentry, hpart, hstate, hpc⟩ := exit_open (b := s.toBox) (v := charged v w) (st := st) he hp hy
    exact ⟨_, i, exec_word rfl hw h rfl, hi, hentry, hpart, hstate, hpc⟩
  · intro he hall
    obtain ⟨hi, hslot⟩ := exit_step (b := s.toBox) (v := charged v w) (st := st) he hy hall
    exact ⟨_, exec_word rfl hw h rfl, hi, hslot⟩
  · exact fun imm hw => exec_word_fault rfl hw h rfl (by decide) imm.isLt
  · intro hrun hinv howner hlegal
    obtain ⟨hnone, hctr, hint, hinfo, hslot⟩ := invFault_shows s.toBox (sl := sl.toNat) (cause := 1) (fcode := 0) sl.isLt (by decide)
      (by decide) st v
    exact ⟨_, next_onBox (actRun_run s _ hrun) (kIllegal_fault hinv howner hlegal), hnone, hctr, hint, hinfo, hslot⟩

end Sys2Proof.Proofs
end

section
/-!
# Vector and predicate instructions
-/

namespace Sys2Proof.Proofs
open Sys2Proof Sys2Proof.Machine Sys2Proof.Safety Sys2Proof.Laws

/-! ### Bits gathered into a number -/

theorem sum_bits_lt (f : Nat → Bool) (n : Nat) : ((List.range n).map fun k => b2n (f k) * 2 ^ k).sum < 2 ^ n := by
  induction n with
  | zero => simp
  | succ n ih =>
    have hbit : b2n (f n) ≤ 1 := by unfold b2n; split <;> decide
    have := Nat.mul_le_mul_right (2 ^ n) hbit
    rw [List.range_succ, List.map_append, List.sum_append, Nat.pow_succ]
    simp only [List.map_singleton, List.sum_singleton]
    omega

theorem sum_bits_testBit (f : Nat → Bool) (n k : Nat) :
    ((List.range n).map fun k => b2n (f k) * 2 ^ k).sum.testBit k = (decide (k < n) && f k) := by
  induction n with
  | zero => simp
  | succ n ih =>
    have hlt := sum_bits_lt f n
    rw [List.range_succ, List.map_append, List.sum_append]
    simp only [List.map_singleton, List.sum_singleton]
    generalize ((List.range n).map fun k => b2n (f k) * 2 ^ k).sum = x at *
    rw [Nat.add_comm, Nat.mul_comm, Nat.testBit_two_pow_mul_add _ hlt]
    by_cases hk : k < n
    · rw [if_pos hk, ih]
      simp [hk, Nat.lt_succ_of_lt hk]
    · rw [if_neg hk]
      by_cases hkn : k = n
      · subst hkn
        cases hf : f k <;> simp [b2n]
      · have hbit : (b2n (f n)).testBit (k - n) = false := by
          refine Nat.testBit_lt_two_pow (Nat.lt_of_lt_of_le (m := 2) ?_ ?_)
          · unfold b2n; split <;> decide
          · exact Nat.le_self_pow (by omega) 2
        rw [hbit]
        simp [show ¬ k < n + 1 by omega]

/-! ### VRED's tree of additions (R245) -/

theorem laneTree_congr (ty : Nat) {f g : Nat → Nat} (k i : Nat) (h : ∀ j, j < (i + 1) * 2 ^ k → f j = g j) :
    laneTree ty f k i = laneTree ty g k i := by
  induction k generalizing i with
  | zero => exact h i (by omega)
  | succ k ih =>
    rw [Nat.pow_succ] at h
    rw [laneTree, laneTree, ih (2 * i) fun j hj => h j (by nlinarith), ih (2 * i + 1) fun j hj => h j (by nlinarith)]

/-- A level of pairwise sums is a level of the tree. -/
theorem laneTree_pairs (ty : Nat) {f g : Nat → Nat} (k i : Nat)
    (h : ∀ j, j < (i + 1) * 2 ^ k → g j = laneAdd ty (f (2 * j)) (f (2 * j + 1))) : laneTree ty g k i = laneTree ty f (k + 1) i := by
  induction k generalizing i with
  | zero => exact h i (by omega)
  | succ k ih =>
    rw [Nat.pow_succ] at h
    rw [laneTree, laneTree, ih (2 * i) fun j hj => h j (by nlinarith), ih (2 * i + 1) fun j hj => h j (by nlinarith)]

theorem pairSum_eq_laneTree (ty k : Nat) (l : List Nat) (hl : l.length = 2 ^ k) :
    pairSum ty k l = laneTree ty (fun i => l.getD i 0) k 0 := by
  induction k generalizing l with
  | zero => cases l <;> rfl
  | succ k ih =>
    have hhalf : l.length / 2 = 2 ^ k := by rw [hl, Nat.pow_succ]; omega
    rw [pairSum, ih _ (by simp [hhalf])]
    refine laneTree_pairs ty k 0 fun j hj => ?_
    rw [hhalf]
    have hj' : j < 2 ^ k := by omega
    simp [List.getD, hj']

theorem lanes_log2 (ty : Nat) : lanes ty = 2 ^ Nat.log2 (lanes ty) := by
  unfold lanes laneBytes
  split <;> decide

/-- The sum of a register's lanes is the tree over its leaves. -/
theorem pairSum_lanes (ty : Nat) (leaf : Nat → Nat) :
    pairSum ty (Nat.log2 (lanes ty)) ((List.range (lanes ty)).map leaf) = laneTree ty leaf (Nat.log2 (lanes ty)) 0 := by
  rw [pairSum_eq_laneTree _ _ _ (by rw [List.length_map, List.length_range]; exact lanes_log2 ty)]
  refine laneTree_congr ty _ 0 fun j hj => ?_
  rw [← lanes_log2] at hj
  have hj' : j < lanes ty := by omega
  simp [List.getD, hj']

/-- Settles O45: each word is one register write; VCMP's bits and VRED's tree are read from the sums that gather them. -/
theorem vectorInstructionsWriteTheirRegister : Obligations.VectorInstructionsWriteTheirRegister := by
  unfold Obligations.VectorInstructionsWriteTheirRegister
  intro s sl st w v d a b c pg ty func h
  refine ⟨fun hw => ?_, fun hw => ?_, fun hw => ?_, fun hw => ?_, fun hw => ?_, fun hw => ⟨fun es k hes => ?_, ?_⟩,
    fun hw => ⟨fun hf => ?_, fun big hf => ?_, fun big hf => ?_⟩, fun hw => ?_, fun hw => ?_, fun hw => ⟨fun hf => ?_, fun hf => ?_, fun hf => ?_⟩,
    fun f hw => ?_⟩
  · exact exec_word_next rfl hw h rfl rfl
  · refine ⟨_, exec_word_next rfl hw h (congrArg KOut.next (setP_charged v w d.toNat _)) (setP_pc _ _ _), fun k hk => ?_⟩
    rw [sum_bits_testBit, decide_eq_true hk]
    rfl
  iterate 3 · exact exec_word_next rfl hw h rfl rfl
  · have hk : kVcvt d.toNat a.toNat b.toNat pg.toNat func.toNat (s.sx st).image (charged v w)
        = .next (charged (v.setV d.toNat (predLanes k (v.pr pg.toNat) (v.vr d.toNat) fun i => es.getD i 0)) w) := by
      rw [kVcvt, charged_vr, charged_vr, hes]
      rfl
    exact exec_word_next rfl hw h hk rfl
  · have hk : ∃ x, kVcvt d.toNat a.toNat b.toNat pg.toNat func.toNat (s.sx st).image (charged v w) = .next (charged (v.setV d.toNat x) w) := by
      unfold kVcvt
      split <;> exact ⟨_, rfl⟩
    obtain ⟨x, hx⟩ := hk
    exact ⟨x, exec_word_next rfl hw h hx rfl⟩
  · subst hf
    refine exec_word_next rfl hw h ?_ rfl
    exact congrArg (fun x => KOut.next ((charged v w).setV d.toNat (ofLanes ty.toNat (padTo (lanes ty.toNat) 0 [x])))) (pairSum_lanes ty.toNat _)
  · subst hf
    cases big <;> exact exec_word_next rfl hw h rfl rfl
  · subst hf
    cases big <;> exact exec_word_next rfl hw h rfl rfl
  · exact exec_word_next rfl hw h rfl rfl
  · exact exec_word_next rfl hw h rfl rfl
  · subst hf; exact exec_word_next rfl hw h rfl rfl
  · subst hf; exact exec_word_next rfl hw h (congrArg KOut.next (setS_charged v w d.toNat _)) (setS_pc _ _ _)
  · subst hf; exact exec_word_next rfl hw h rfl rfl
  · refine ⟨?_, ?_, ?_, ?_, ?_, ?_, ?_, ?_, ?_⟩ <;> intro hf <;> subst hf
    iterate 6 · exact exec_word_next rfl hw h (congrArg KOut.next (setP_charged v w d.toNat _)) (setP_pc _ _ _)
    iterate 3 · exact exec_word_next rfl hw h (congrArg KOut.next (setS_charged v w d.toNat _)) (setS_pc _ _ _)

end Sys2Proof.Proofs
end

section
/-!
# The servo

Fabric time's changes and the servo's commands (09_network_time.md R259 to R266).
-/

namespace Sys2Proof.Proofs
open Sys2Proof Sys2Proof.Machine Sys2Proof.Safety Sys2Proof.Laws

/-! ### A step under a bypass window -/

/-- A device whose port 0 runs a gate list in a bypass window, with a step of fabric time due. -/
def stepInWindow : State :=
  { State.reset with
      regs := [(CAL_GL_STATUS_at 0, 2)]
      cals := [(0, { window := .dark })]
      applies := [{ at_ := 0, step := some 1 }] }

/-- The step is a discontinuity: it ends the window, and the port stays dark while it realigns; no unit is armed. -/
theorem stepInWindow_shows : (stepInWindow.toBox.timeApply.port 0).darkTill = some 5120
    ∧ ∀ u, u < 32 → stepInWindow.is (TGT_TRIG_CTRL_ARM u) = false := by decide +kernel

theorem onBox_port (s : State) (f : Box → Box) (p : Nat) : (s.onBox f).port p = (f s.toBox).port p := rfl

/-- Refutes O46: a step of fabric time ends a bypass window on a port whose gate list runs, so that the port's own state changes
as well as the calendar's. -/
theorem not_fabricTimeChangesAtItsApplyTick : ¬ Obligations.FabricTimeChangesAtItsApplyTick := by
  unfold Obligations.FabricTimeChangesAtItsApplyTick
  intro h
  obtain ⟨-, -, -, -, hdue⟩ := h stepInWindow .driver
  obtain ⟨-, hmoved⟩ := hdue { at_ := 0, step := some 1 } [] rfl rfl (Nat.zero_le _) (by simp) rfl
  obtain ⟨hstep, -⟩ := hmoved stepInWindow_shows.2 rfl
  obtain ⟨t, ht, -, -, -, -, -, hframe⟩ := hstep 1 rfl rfl
  have hrun : t = stepInWindow.onBox Box.timeApply :=
    Host.Outcome.next.inj (ht.symm.trans (act_run stepInWindow Box.timeApply rfl))
  have hports : t.ports = [] := by rw [hframe]; rfl
  have hdark : (t.port 0).darkTill = some 5120 := by
    rw [hrun, onBox_port]
    exact stepInWindow_shows.1
  rw [Box.port, hports] at hdark
  exact absurd hdark (by decide)

/-! ### Fields of a plain write -/

theorem natField_testBit (n lo w i : Nat) : (natField n lo w).testBit i = (decide (i < w) && n.testBit (lo + i)) := by
  rw [natField, Nat.testBit_mod_two_pow, Nat.testBit_div_two_pow, Nat.add_comm]

/-- A field all of whose bits a write takes. -/
theorem plainWrite_rd (b : Box) (src : Requester) {f : Fld} (v : Nat) (hfits : f.lo + f.width ≤ 32)
    (hrw : ∀ i, i < f.width → (maskAt f.addr).rw.testBit (f.lo + i) = true) :
    (b.plainWrite src f.addr v).rd f = natField v f.lo f.width := by
  refine Nat.eq_of_testBit_eq fun i => ?_
  rw [Box.rd, wordField, natField_testBit, natField_testBit, Box.plainWrite]
  rw [word_setWord, BitVec.toNat_ofNat, Nat.testBit_mod_two_pow, writtenWord_testBit]
  by_cases hi : i < f.width
  · rw [hrw i hi, decide_eq_true (by omega : f.lo + i < 32)]
    simp
  · simp [hi]

/-! ### The servo's state -/

/-- A word of the time page. -/
abbrev tgtWord (a : Nat) : Prop := a / 0x10000 = 9

theorem raiseInt_calPage_tgtWord (b : Box) (t bit : Nat) : sameOn tgtWord b (b.raiseInt (calPage t) bit) := by
  refine sameOn_of_sameWords (raiseInt_sameWords b (calPage t) bit) ?_
  have hbase := pageBase_cases (256 * t + 5)
  simp only [causeWords, List.mem_cons, List.not_mem_nil, or_false]
  rintro a (rfl | rfl)
  · show ¬ (pageBase (256 * t + 5) + 16) / 0x10000 = 9
    omega
  · omega

theorem envBreak_tgtWord (b : Box) (p bit : Nat) : sameOn tgtWord b (b.envBreak p bit) := by
  rw [Box.envBreak]
  split
  · exact sameOn_refl _ b
  · refine sameOn_trans (put_sameOn b true ?_) (raiseInt_calPage_tgtWord _ _ 4)
    simp only [tgtWord, CAL_SCHED_STATUS_ENV, CAL_SCHED_STATUS_at]
    omega

theorem envBreakAll_tgtWord (b : Box) (ts : List Nat) (bit : Nat) : sameOn tgtWord b (b.envBreakAll ts bit) :=
  foldl_sameOn _ (fun b p _ => envBreak_tgtWord b p bit) b

/-- A word of the time page that a change of the servo's state leaves. -/
abbrev servoKept (a : Nat) : Prop := a / 0x10000 = 9 ∧ a ≠ TGT_SERVO_STATUS_at ∧ a ≠ 0x90010

theorem raiseInt_tgt_kept (b : Box) (bit : Nat) : sameWords [0x90010, 0xF28000] b (b.raiseInt tgtPage bit) :=
  raiseInt_sameWords b tgtPage bit

theorem servoEnter_onlyRegs (b : Box) (st : Nat) : onlyRegs b (b.servoEnter st) := by
  have henv : onlyRegs b (if st = 1 ∨ st = 3 then b.wr TGT_SERVO_STATUS_STATE st
      else (b.wr TGT_SERVO_STATUS_STATE st).envBreakAll (List.range 8) 1) := by
    split
    · exact wr_onlyRegs _ _ _
    · exact onlyRegs_trans (wr_onlyRegs _ _ _) (envBreakAll_onlyRegs _ _ _)
  rw [Box.servoEnter]
  split
  · exact onlyRegs_trans henv (raiseInt_onlyRegs _ _ _)
  · exact henv

/-- The time page's words as a change of state leaves them. -/
theorem servoEnter_words (b : Box) (st : Nat) : ∀ a, a / 0x10000 = 9 → a ≠ 0x90010 →
    (b.servoEnter st).word a = (b.wr TGT_SERVO_STATUS_STATE st).word a := by
  intro a ha hint
  have henv : (if st = 1 ∨ st = 3 then b.wr TGT_SERVO_STATUS_STATE st
      else (b.wr TGT_SERVO_STATUS_STATE st).envBreakAll (List.range 8) 1).word a = (b.wr TGT_SERVO_STATUS_STATE st).word a := by
    split
    · rfl
    · exact envBreakAll_tgtWord _ _ _ a ha
  rw [Box.servoEnter]
  split
  · refine (raiseInt_tgt_kept _ 0 a ?_).trans henv
    simp only [List.mem_cons, List.not_mem_nil, or_false]
    omega
  · exact henv

theorem servoEnter_kept (b : Box) (st : Nat) : sameOn servoKept b (b.servoEnter st) := fun a ha =>
  (servoEnter_words b st a ha.1 ha.2.2).trans (wr_sameWords b TGT_SERVO_STATUS_STATE st a fun h => ha.2.1 (List.mem_singleton.mp h))

theorem servoEnter_state (b : Box) {st : Nat} (h : st < 8) : (b.servoEnter st).servoState = st := by
  have hword := servoEnter_words b st TGT_SERVO_STATUS_at (by decide) (by decide)
  rw [Box.servoState, Box.rd]
  refine (congrArg (fun w => wordField w 0 3) hword).trans ?_
  exact rd_wr_lt b (f := TGT_SERVO_STATUS_STATE) (by decide) h

/-! ### The word of a command (R288) -/

theorem servoWord_known : ∀ cmd : Fin 5, ∀ root : Bool, ∀ parent : BitVec 11,
    bitsOut (servoWord cmd root parent) 0xF00087FF = 0 := by decide +kernel

theorem servoWord_fields (cmd : Nat) (root : Bool) (parent : Slot) (h : cmd < 16) : natField (servoWord cmd root parent) 28 4 = cmd
    ∧ natField (servoWord cmd root parent) 15 1 = b2n root ∧ natField (servoWord cmd root parent) 0 11 = parent.toNat := by
  have hp : parent.toNat < 2048 := parent.isLt
  have hr : b2n root ≤ 1 := by cases root <;> decide
  simp only [natField, servoWord]
  generalize b2n root = r at *
  omega

/-- The machine with the value of a command written to TGT_SERVO_CTRL, before the command itself. -/
def servoWritten (b : Box) (src : Requester) (v : Nat) : Box :=
  let c := b.plainWrite src TGT_SERVO_CTRL_at v
  if c.rd TGT_SERVO_CTRL_PARENT = b.rd TGT_SERVO_CTRL_PARENT then c else { c with servo := { c.servo with fresh := true } }

theorem servoCtrl_eq (b : Box) (src : Requester) {cmd v : Nat} (hcmd : natField v 28 4 = cmd) (h : cmd < 5) :
    b.servoCtrl src v = ((servoWritten b src v).servoCmd cmd).getD
      (((servoWritten b src v).put TGT_SERVO_STATUS_REFUSED true).raiseInt tgtPage 4) := by
  rw [Box.servoCtrl, hcmd]
  dsimp only
  rw [if_neg (by omega)]
  change (match (servoWritten b src v).servoCmd cmd with | some t => t | none => _) = _
  cases (servoWritten b src v).servoCmd cmd <;> rfl

theorem servoWritten_shows (b : Box) (src : Requester) {v parent : Nat} {root : Bool} (hknown : bitsOut v 0xF00087FF = 0)
    (hroot : natField v 15 1 = b2n root) (hparent : natField v 0 11 = parent) :
    (∃ r o fr, servoWritten b src v = { b with regs := r, outbox := o, servo := { b.servo with fresh := fr } })
      ∧ (servoWritten b src v).is TGT_SERVO_CTRL_ROOT = root
      ∧ (servoWritten b src v).rd TGT_SERVO_CTRL_PARENT = parent
      ∧ sameWords [TGT_SERVO_CTRL_at] b (servoWritten b src v) := by
  rw [← show (maskAt TGT_SERVO_CTRL_at).known = 0xF00087FF by decide] at hknown
  have hwrite := plainWrite_of_known (b := b) (src := src) hknown
  have hrw : (maskAt TGT_SERVO_CTRL_at).rw = 0x87FF := by decide
  have hr : (b.plainWrite src TGT_SERVO_CTRL_at v).rd TGT_SERVO_CTRL_ROOT = b2n root :=
    (plainWrite_rd b src (f := TGT_SERVO_CTRL_ROOT) v (by decide) (by
      rw [show TGT_SERVO_CTRL_ROOT.addr = TGT_SERVO_CTRL_at from rfl, hrw]; decide)).trans hroot
  have hp : (b.plainWrite src TGT_SERVO_CTRL_at v).rd TGT_SERVO_CTRL_PARENT = parent :=
    (plainWrite_rd b src (f := TGT_SERVO_CTRL_PARENT) v (by decide) (by
      rw [show TGT_SERVO_CTRL_PARENT.addr = TGT_SERVO_CTRL_at from rfl, hrw]; decide)).trans hparent
  have hwords := setWord_sameWords b TGT_SERVO_CTRL_at
    (BitVec.ofNat 32 (writtenWord (maskAt TGT_SERVO_CTRL_at) (b.word TGT_SERVO_CTRL_at).toNat v))
  rw [← hwrite] at hwords
  obtain ⟨r, o, hregs⟩ := plainWrite_onlyRegs b src TGT_SERVO_CTRL_at v
  rw [servoWritten]
  generalize b.plainWrite src TGT_SERVO_CTRL_at v = c at *
  have his : c.is TGT_SERVO_CTRL_ROOT = root := by
    rw [Box.is, hr]
    cases root <;> rfl
  dsimp only
  split
  · exact ⟨⟨r, o, b.servo.fresh, hregs⟩, his, hp, hwords⟩
  · exact ⟨⟨r, o, true, by rw [hregs]⟩, his, hp, hwords⟩

/-! ### Changes that have come due -/

/-- A rate change, tracked or not, moves the anchor of fabric time as `Anchor.change` says. -/
theorem applyOne_anchor (b : Box) {a : Apply} (hset : a.set = none) (hstep : a.step = none) :
    (⟨(b.applyOne a).fa, (b.applyOne a).na, (b.applyOne a).rate⟩ : Anchor) = Anchor.change ⟨b.fa, b.na, b.rate⟩ a := by
  have hrate (c : Box) (r : Int) : (c.setRate r).fa = c.fa ∧ (c.setRate r).na = c.na ∧ (c.setRate r).rate = clampRate r := by
    rw [Box.setRate]
    split <;> exact ⟨rfl, rfl, rfl⟩
  have htrack (c : Box) (sv : Servo) : (({ c with servo := sv } : Box).servoEnter 3).fa = c.fa
      ∧ (({ c with servo := sv } : Box).servoEnter 3).na = c.na ∧ (({ c with servo := sv } : Box).servoEnter 3).rate = c.rate := by
    obtain ⟨_, _, h⟩ := servoEnter_onlyRegs { c with servo := sv } 3
    rw [h]
    exact ⟨rfl, rfl, rfl⟩
  have hnone : (a.set.isSome || a.step.isSome) = false := by rw [hset, hstep]; rfl
  rw [Box.applyOne, hnone]
  dsimp only
  rw [if_neg Bool.false_ne_true]
  cases hr : a.rate with
  | none =>
    split
    · rw [(htrack _ _).1, (htrack _ _).2.1, (htrack _ _).2.2]
      simp only [Anchor.change, hr]
    · simp only [Anchor.change, hr]
  | some r =>
    split
    · rw [(htrack _ _).1, (htrack _ _).2.1, (htrack _ _).2.2, (hrate _ _).1, (hrate _ _).2.1, (hrate _ _).2.2]
      simp only [Anchor.change, hr]
    · rw [(hrate _ _).1, (hrate _ _).2.1, (hrate _ _).2.2]
      simp only [Anchor.change, hr]

theorem foldl_applyOne_anchor (l : List Apply) (hl : ∀ a ∈ l, a.set = none ∧ a.step = none) (b : Box) :
    (⟨(l.foldl Box.applyOne b).fa, (l.foldl Box.applyOne b).na, (l.foldl Box.applyOne b).rate⟩ : Anchor)
      = l.foldl Anchor.change ⟨b.fa, b.na, b.rate⟩ := by
  induction l generalizing b with
  | nil => rfl
  | cons a l ih =>
    obtain ⟨hset, hstep⟩ := hl a List.mem_cons_self
    rw [List.foldl_cons, List.foldl_cons, ih (fun x hx => hl x (List.mem_cons_of_mem a hx)), applyOne_anchor b hset hstep]

/-- Once the changes that have come due have taken effect, the anchor is that of the present. -/
theorem timeDue_anchor (b : Box) (h : ∀ a ∈ b.applies, a.at_ ≤ b.raw → a.set = none ∧ a.step = none) :
    (⟨b.timeDue.fa, b.timeDue.na, b.timeDue.rate⟩ : Anchor) = b.anchor b.raw := by
  have hcast (a : Apply) : decide ((a.at_ : Int) ≤ (b.raw : Int)) = decide (a.at_ ≤ b.raw) := decide_eq_decide.mpr Int.ofNat_le
  rw [Box.anchor]
  simp only [hcast]
  by_cases hany : (b.applies.any fun a => decide (a.at_ ≤ b.raw)) = true
  · rw [Box.timeDue, if_pos hany, Box.timeApply]
    refine foldl_applyOne_anchor _ (fun a ha => ?_) _
    obtain ⟨hmem, hle⟩ := List.mem_filter.mp ha
    exact h a hmem (of_decide_eq_true hle)
  · have hnone : b.applies.filter (fun a => decide (a.at_ ≤ b.raw)) = [] :=
      List.filter_eq_nil_iff.mpr fun a ha hle => hany (List.any_eq_true.mpr ⟨a, ha, hle⟩)
    rw [Box.timeDue, if_neg hany, hnone]
    rfl

/-! ### The commands -/

/-- `t` is `s` but for the servo, the changes requested, and the words of state and interrupt. -/
def servoMoved (s t : Box) : Prop := (∃ r o sv ap, t = { s with regs := r, outbox := o, servo := sv, applies := ap })
  ∧ t.servo.integ = s.servo.integ ∧ sameOn servoKept s t

theorem servoEnter_moved {b c : Box} (hc : ∃ sv ap, c = { b with servo := sv, applies := ap }) (hi : c.servo.integ = b.servo.integ)
    (st : Nat) : servoMoved b (c.servoEnter st) := by
  obtain ⟨sv, ap, rfl⟩ := hc
  obtain ⟨r, o, h⟩ := servoEnter_onlyRegs { b with servo := sv, applies := ap } st
  have hwords := servoEnter_kept { b with servo := sv, applies := ap } st
  generalize Box.servoEnter { b with servo := sv, applies := ap } st = x at *
  refine ⟨⟨r, o, sv, ap, h⟩, ?_, hwords⟩
  rw [h]
  exact hi

/-- What shows a command that the state does not take. -/
def servoRefused (b : Box) : Box := (b.put TGT_SERVO_STATUS_REFUSED true).raiseInt tgtPage 4

theorem servoRefused_onlyRegs (b : Box) : onlyRegs b (servoRefused b) :=
  onlyRegs_trans (put_onlyRegs _ _ _) (raiseInt_onlyRegs _ _ _)

theorem servoRefused_moved (b : Box) : servoMoved b (servoRefused b) := by
  have hwords : sameOn servoKept b (servoRefused b) := by
    refine sameOn_trans (put_sameOn b true fun h => h.2.1 rfl) (sameOn_of_sameWords (raiseInt_tgt_kept _ 4) ?_)
    simp only [List.mem_cons, List.not_mem_nil, or_false, servoKept]
    omega
  obtain ⟨r, o, h⟩ := servoRefused_onlyRegs b
  refine ⟨⟨r, o, b.servo, b.applies, h⟩, ?_, hwords⟩
  rw [h]

theorem servoRefused_shows (b : Box) : (servoRefused b).servoState = b.servoState ∧ (servoRefused b).applies = b.applies
    ∧ (servoRefused b).is TGT_SERVO_STATUS_REFUSED = true ∧ (servoRefused b).is (pageFld tgtPage 16 4 1) = true := by
  have hout : TGT_SERVO_STATUS_at ∉ causeWords tgtPage := by decide
  refine ⟨?_, ?_, ?_, raiseInt_sets _ _ _ (by decide) (by decide)⟩
  · rw [servoRefused, Box.servoState, rd_raiseInt _ _ _ hout, rd_put_apart _ _ (by decide)]
    rfl
  · obtain ⟨_, _, h⟩ := servoRefused_onlyRegs b
    rw [h]
  · rw [servoRefused, is_raiseInt _ _ _ hout]
    exact is_put_self _ _ rfl

/-- The servo begins to collect measurements. -/
def collecting (b : Box) : Box :=
  { b with servo := { b.servo with offs := [], oob := 0, fresh := false }, applies := b.applies.filter fun a => !a.track }

section
variable {s : State} {src : Requester} {root : Bool} {parent : Slot} {cmd v : Nat} {r : Result} {x : Box}

/-- A command of the servo where TGT_SERVO_CTRL takes writes. -/
theorem exec_servo (hr : r = s.actReg TGT_SERVO_CTRL_at src fun b => b.servoCtrl src v) (htakes : takesWrite s src TGT_SERVO_CTRL_at)
    (hv : natField v 28 4 = cmd) (hcmd : cmd < 5)
    (hx : ((servoWritten s.toBox src v).servoCmd cmd).getD (servoRefused (servoWritten s.toBox src v)) = x) :
    r = .next (s.onBox fun _ => x) := by
  obtain ⟨hrun, hreach, hready⟩ := htakes
  exact next_onBox (hr.trans (actReg_run s _ _ _ hrun hreach hready)) ((servoCtrl_eq s.toBox src hv hcmd).trans hx)

/-- What every command of the servo leaves. -/
theorem servo_leaves {p : Nat} (hknown : bitsOut v 0xF00087FF = 0) (hroot : natField v 15 1 = b2n root) (hparent : natField v 0 11 = p)
    (hx : servoMoved (servoWritten s.toBox src v) x) : (s.onBox fun _ => x).is TGT_SERVO_CTRL_ROOT = root
      ∧ (s.onBox fun _ => x).rd TGT_SERVO_CTRL_PARENT = p ∧ (s.onBox fun _ => x).fa = s.fa ∧ (s.onBox fun _ => x).na = s.na
      ∧ (s.onBox fun _ => x).rate = s.rate ∧ (s.onBox fun _ => x).servo.integ = s.servo.integ
      ∧ (s.onBox fun _ => x) = { s with
          regs := (s.onBox fun _ => x).regs
          outbox := (s.onBox fun _ => x).outbox
          servo := (s.onBox fun _ => x).servo
          applies := (s.onBox fun _ => x).applies }
      ∧ ∀ a, a / 0x10000 = 9 → a ∉ [TGT_SERVO_CTRL_at, TGT_SERVO_STATUS_at, 0x90010] → (s.onBox fun _ => x).word a = s.word a := by
  obtain ⟨⟨r0, o0, fr, hb⟩, hshown, hpar, hwords⟩ := servoWritten_shows s.toBox src hknown hroot hparent
  obtain ⟨⟨r, o, sv, ap, hx⟩, hinteg, hkept⟩ := hx
  have hkeptCtrl : servoKept TGT_SERVO_CTRL_at := by decide
  have hroot' : x.is TGT_SERVO_CTRL_ROOT = root := (is_of_sameOn hkept hkeptCtrl).trans hshown
  have hpar' : x.rd TGT_SERVO_CTRL_PARENT = p := (rd_of_sameOn hkept hkeptCtrl).trans hpar
  have hw (a : Nat) (ha : a / 0x10000 = 9) (hout : a ∉ [TGT_SERVO_CTRL_at, TGT_SERVO_STATUS_at, 0x90010]) : x.word a = s.word a := by
    simp only [List.mem_cons, List.not_mem_nil, or_false, not_or] at hout
    exact (hkept a ⟨ha, hout.2.1, hout.2.2⟩).trans (hwords a fun h => hout.1 (List.mem_singleton.mp h))
  have hinteg' : x.servo.integ = s.servo.integ := hinteg.trans (by rw [hb])
  rw [hb] at hx
  subst hx
  exact ⟨hroot', hpar', rfl, rfl, rfl, hinteg', rfl, hw⟩

end

section
variable {c : Box}

theorem servoAcquire_eq (hdue : c.timeDue = c) : c.servoAcquire = (collecting c).servoEnter 2 := by
  rw [Box.servoAcquire, hdue]
  rfl

theorem servoCmd_start (hdue : c.timeDue = c) : c.servoCmd 1
    = if c.servoState = 0 then some (if c.is TGT_SERVO_CTRL_ROOT then c.servoEnter 1 else (collecting c).servoEnter 2) else none := by
  rw [← servoAcquire_eq hdue]
  rfl

theorem servoCmd_rearm (hdue : c.timeDue = c) : c.servoCmd 2
    = if 2 ≤ c.servoState then some ((collecting c).servoEnter 2) else none := by
  rw [← servoAcquire_eq hdue]
  rfl

/-- The request that SETTIME makes. -/
def setTime (c : Box) : Apply :=
  { at_ := c.raw + 64, set := some (c.rd TGT_SET_HI_SET * 2 ^ 32 + c.rd TGT_SET_LO_SET) }

theorem servoCmd_settime : c.servoCmd 3
    = if c.servoState = 1 then some { c with applies := c.applies ++ [setTime c] } else none := by
  rw [Box.servoCmd]
  by_cases h : c.servoState = 1
  · rw [if_pos h]
    exact (if_pos h).symm
  · rw [if_neg h]
    exact (if_neg h).symm

theorem servoCmd_stop : c.servoCmd 4 = if c.servoState = 0 then none else some (Box.servoEnter { c.timeDue with applies := [] } 0) := rfl

theorem collecting_moved (c : Box) (st : Nat) : servoMoved c ((collecting c).servoEnter st) := by
  refine servoEnter_moved (b := c) (c := collecting c) ⟨{ c.servo with offs := [], oob := 0, fresh := false }, c.applies.filter fun a => !a.track, ?_⟩ ?_ st
  · rfl
  · rfl

theorem collecting_shows (c : Box) : ((collecting c).servoEnter 2).servoState = 2 ∧ ((collecting c).servoEnter 2).servo.offs = []
    ∧ ((collecting c).servoEnter 2).servo.oob = 0 := by
  obtain ⟨_, _, h⟩ := servoEnter_onlyRegs (collecting c) 2
  refine ⟨servoEnter_state _ (by decide), ?_, ?_⟩ <;> rw [h] <;> rfl

theorem stopped_servo_shows (c : Box) : (Box.servoEnter { c with applies := [] } 0).servoState = 0
    ∧ (Box.servoEnter { c with applies := [] } 0).applies = []
    ∧ (⟨(Box.servoEnter { c with applies := [] } 0).fa, (Box.servoEnter { c with applies := [] } 0).na,
        (Box.servoEnter { c with applies := [] } 0).rate⟩ : Anchor) = ⟨c.fa, c.na, c.rate⟩ := by
  obtain ⟨_, _, h⟩ := servoEnter_onlyRegs { c with applies := [] } 0
  refine ⟨servoEnter_state _ (by decide), ?_, ?_⟩ <;> rw [h]
end

/-- HOLDOVER holds the rate at the integral term. -/
theorem servoHoldover_shows (b : Box) : b.servoHoldover.servoState = 4 ∧ ∃ r o, b.servoHoldover = { b with
    regs := r, outbox := o, applies := b.applies ++ [{ at_ := b.raw + 64, rate := some b.servo.integ }] } := by
  obtain ⟨r, o, h⟩ := servoEnter_onlyRegs b 4
  have hstate := servoEnter_state b (st := 4) (by decide)
  rw [Box.servoHoldover]
  generalize b.servoEnter 4 = c at *
  refine ⟨hstate, r, o, ?_⟩
  rw [h]
  rfl

theorem servoWord_of_command (root : Bool) (parent : Slot) {cmd : Nat} (hcmd : cmd < 5) : ∃ v, servoWord cmd root parent = v
    ∧ natField v 28 4 = cmd ∧ natField v 15 1 = b2n root ∧ natField v 0 11 = parent.toNat ∧ bitsOut v 0xF00087FF = 0 := by
  obtain ⟨hc, hr, hp⟩ := servoWord_fields cmd root parent (by omega)
  exact ⟨_, rfl, hc, hr, hp, servoWord_known ⟨cmd, hcmd⟩ root parent⟩

/-- What the write of TGT_SERVO_CTRL leaves for the command to find. -/
theorem servoWritten_finds {s : Box} {src : Requester} {root : Bool} {p v : Nat} (hr : natField v 15 1 = b2n root)
    (hp : natField v 0 11 = p) (hk : bitsOut v 0xF00087FF = 0) :
    (∃ r o fr, servoWritten s src v = { s with regs := r, outbox := o, servo := { s.servo with fresh := fr } })
      ∧ (servoWritten s src v).is TGT_SERVO_CTRL_ROOT = root ∧ (servoWritten s src v).servoState = s.servoState
      ∧ setTime (servoWritten s src v) = setTime s := by
  obtain ⟨hb, hroot, -, hwords⟩ := servoWritten_shows s src hk hr hp
  refine ⟨hb, hroot, rd_of_sameWords hwords (by decide), ?_⟩
  rw [setTime, rd_of_sameWords hwords (by decide), rd_of_sameWords hwords (by decide)]
  obtain ⟨_, _, _, hb⟩ := hb
  rw [hb]
  rfl

/-- The machine `x` follows the write of TGT_SERVO_CTRL of a command. -/
def afterServo (s : Box) (src : Requester) (root : Bool) (parent : Slot) (x : Box) : Prop :=
  ∃ v, natField v 15 1 = b2n root ∧ natField v 0 11 = parent.toNat ∧ bitsOut v 0xF00087FF = 0 ∧ servoMoved (servoWritten s src v) x

section
variable {s : State} {src : Requester} (root : Bool) (parent : Slot) (h : takesWrite s src TGT_SERVO_CTRL_at)
  (hdue : ∀ a ∈ s.applies, s.raw < a.at_)
include h

/-- A command of the servo, with no change due, from what its code does to the machine that the write leaves. -/
theorem exec_servo_command {cmd : Nat} (hcmd : cmd < 5) (hdue : ∀ a ∈ s.applies, s.raw < a.at_) {r : Result}
    (hr : r = s.actReg TGT_SERVO_CTRL_at src fun b => b.servoCtrl src (servoWord cmd root parent)) {f : Box → Option Box} {P : Box → Prop}
    (hf : ∀ c : Box, c.timeDue = c → c.servoCmd cmd = f c)
    (hP : ∀ c : Box, (∃ r o fr, c = { s.toBox with regs := r, outbox := o, servo := { s.servo with fresh := fr } }) →
      c.is TGT_SERVO_CTRL_ROOT = root → c.servoState = s.servoState → setTime c = setTime s.toBox →
      servoMoved c ((f c).getD (servoRefused c)) ∧ P ((f c).getD (servoRefused c))) :
    ∃ x, r = .next (s.onBox fun _ => x) ∧ afterServo s.toBox src root parent x ∧ P x := by
  obtain ⟨v, hv, hc, hroot, hpar, hk⟩ := servoWord_of_command root parent hcmd
  obtain ⟨hb, hshown, hstate, hset⟩ := servoWritten_finds (s := s.toBox) (src := src) hroot hpar hk
  have hnow : (servoWritten s.toBox src v).timeDue = servoWritten s.toBox src v := by
    refine timeDue_none _ ?_
    obtain ⟨_, _, _, hb⟩ := hb
    rw [hb]
    exact hdue
  obtain ⟨hmoved, hx⟩ := hP _ hb hshown hstate hset
  rw [hv] at hr
  exact ⟨_, exec_servo hr h hc hcmd (congrArg (Option.getD · _) (hf _ hnow)), ⟨v, hroot, hpar, hk, hmoved⟩, hx⟩

omit h in
/-- A command that the state does not take. -/
theorem servo_refuses {c : Box} (hb : ∃ r o fr, c = { s.toBox with regs := r, outbox := o, servo := { s.servo with fresh := fr } })
    (hstate : c.servoState = s.servoState) : servoMoved c (servoRefused c) ∧ ((servoRefused c).servoState = s.servoState
      ∧ (servoRefused c).applies = s.applies ∧ (servoRefused c).is TGT_SERVO_STATUS_REFUSED = true
      ∧ (servoRefused c).is (pageFld tgtPage 16 4 1) = true) := by
  obtain ⟨hst, hap, hshown, hint⟩ := servoRefused_shows c
  refine ⟨servoRefused_moved c, hst.trans hstate, hap.trans ?_, hshown, hint⟩
  obtain ⟨_, _, _, rfl⟩ := hb
  rfl

include hdue

theorem exec_servoStart : ∃ x, exec (.servoStart src root parent) s = .next (s.onBox fun _ => x) ∧ afterServo s.toBox src root parent x
    ∧ if s.servoState = 0 then x.servoState = (if root then 1 else 2) ∧ (root = false → x.servo.offs = [] ∧ x.servo.oob = 0)
      else x.servoState = s.servoState ∧ x.applies = s.applies ∧ x.is TGT_SERVO_STATUS_REFUSED = true
        ∧ x.is (pageFld tgtPage 16 4 1) = true := by
  refine exec_servo_command root parent h (by decide) hdue rfl (fun c hc => servoCmd_start hc) fun c hb hroot hstate _ => ?_
  rw [hstate, hroot]
  by_cases hzero : s.servoState = 0
  · rw [if_pos hzero, if_pos hzero, Option.getD_some]
    cases root with
    | true =>
      rw [if_pos rfl, if_pos rfl]
      exact ⟨servoEnter_moved (c := c) ⟨c.servo, c.applies, rfl⟩ rfl 1, servoEnter_state c (by decide), nofun⟩
    | false =>
      rw [if_neg Bool.false_ne_true, if_neg Bool.false_ne_true]
      exact ⟨collecting_moved c 2, (collecting_shows c).1, fun _ => (collecting_shows c).2⟩
  · rw [if_neg hzero, if_neg hzero]
    exact servo_refuses hb hstate

theorem exec_servoRearm : ∃ x, exec (.servoRearm src root parent) s = .next (s.onBox fun _ => x) ∧ afterServo s.toBox src root parent x
    ∧ if 2 ≤ s.servoState then x.servoState = 2 ∧ x.servo.offs = [] ∧ x.servo.oob = 0
      else x.servoState = s.servoState ∧ x.applies = s.applies ∧ x.is TGT_SERVO_STATUS_REFUSED = true
        ∧ x.is (pageFld tgtPage 16 4 1) = true := by
  refine exec_servo_command root parent h (by decide) hdue rfl (fun c hc => servoCmd_rearm hc) fun c hb _ hstate _ => ?_
  rw [hstate]
  by_cases htwo : 2 ≤ s.servoState
  · rw [if_pos htwo, if_pos htwo, Option.getD_some]
    exact ⟨collecting_moved c 2, collecting_shows c⟩
  · rw [if_neg htwo, if_neg htwo]
    exact servo_refuses hb hstate

theorem exec_servoSettime : ∃ x, exec (.servoSettime src root parent) s = .next (s.onBox fun _ => x) ∧ afterServo s.toBox src root parent x
    ∧ if s.servoState = 1 then x.servoState = 1 ∧ x.applies = s.applies ++ [setTime s.toBox]
      else x.servoState = s.servoState ∧ x.applies = s.applies ∧ x.is TGT_SERVO_STATUS_REFUSED = true
        ∧ x.is (pageFld tgtPage 16 4 1) = true := by
  refine exec_servo_command root parent h (by decide) hdue rfl (fun c _ => servoCmd_settime) fun c hb _ hstate hset => ?_
  rw [hstate]
  by_cases hone : s.servoState = 1
  · rw [if_pos hone, if_pos hone, Option.getD_some]
    refine ⟨⟨⟨_, _, _, _, rfl⟩, rfl, fun _ _ => rfl⟩, hstate.trans hone, ?_⟩
    dsimp only
    rw [hset]
    obtain ⟨_, _, _, rfl⟩ := hb
    rfl
  · rw [if_neg hone, if_neg hone]
    exact servo_refuses hb hstate

theorem exec_servoStop : ∃ x, exec (.servoStop src root parent) s = .next (s.onBox fun _ => x) ∧ afterServo s.toBox src root parent x
    ∧ if s.servoState = 0 then x.servoState = 0 ∧ x.applies = s.applies ∧ x.is TGT_SERVO_STATUS_REFUSED = true
        ∧ x.is (pageFld tgtPage 16 4 1) = true
      else x.servoState = 0 ∧ x.applies = [] := by
  refine exec_servo_command (f := fun c => if c.servoState = 0 then none else some (Box.servoEnter { c with applies := [] } 0)) root parent h
    (by decide) hdue rfl (fun c hc => ?_) fun c hb _ hstate _ => ?_
  · rw [servoCmd_stop, hc]
  rw [hstate]
  by_cases hzero : s.servoState = 0
  · rw [if_pos hzero, if_pos hzero]
    obtain ⟨hmoved, hst, hrest⟩ := servo_refuses hb hstate
    exact ⟨hmoved, hst.trans hzero, hrest⟩
  · rw [if_neg hzero, if_neg hzero, Option.getD_some]
    exact ⟨servoEnter_moved ⟨_, _, rfl⟩ rfl 0, (stopped_servo_shows c).1, (stopped_servo_shows c).2.1⟩

end

/-- Settles O47: a command is the write of TGT_SERVO_CTRL and what the state makes of its code. -/
theorem servoCommandsMoveItsState : Obligations.ServoCommandsMoveItsState := by
  unfold Obligations.ServoCommandsMoveItsState
  intro s src root parent
  refine ⟨fun h hdue hst => ?_, fun h hdue => ?_, fun hrun => ?_⟩
  · obtain ⟨v, hv, hc, hr, hp, hk⟩ := servoWord_of_command root parent (show 4 < 5 by decide)
    obtain ⟨⟨r, o, fr, hb⟩, -, hstate, -⟩ := servoWritten_finds (s := s.toBox) (src := src) hr hp hk
    have hanchor := timeDue_anchor (servoWritten s.toBox src v) (by rw [hb]; exact hdue)
    obtain ⟨hstopped, happlies, hfa⟩ := stopped_servo_shows (servoWritten s.toBox src v).timeDue
    have hx := servoCmd_stop (c := servoWritten s.toBox src v)
    rw [if_neg (hstate.trans_ne hst)] at hx
    refine ⟨_, exec_servo (congrArg (fun v => s.actReg TGT_SERVO_CTRL_at src fun b => b.servoCtrl src v) hv) h hc (by decide)
      (congrArg (Option.getD · _) hx), hstopped, happlies, hfa.trans (hanchor.trans ?_)⟩
    rw [hb]
    rfl
  · obtain ⟨x1, hx1, ⟨v1, hr1, hp1, hk1, hm1⟩, hstart⟩ := exec_servoStart root parent h hdue
    obtain ⟨x2, hx2, ⟨v2, hr2, hp2, hk2, hm2⟩, hrearm⟩ := exec_servoRearm root parent h hdue
    obtain ⟨x3, hx3, ⟨v3, hr3, hp3, hk3, hm3⟩, hsettime⟩ := exec_servoSettime root parent h hdue
    obtain ⟨x4, hx4, ⟨v4, hr4, hp4, hk4, hm4⟩, hstop⟩ := exec_servoStop root parent h hdue
    refine ⟨fun c hc => ?_, ⟨_, hx1, hstart⟩, ⟨_, hx2, hrearm⟩, ⟨_, hx3, hsettime⟩, ⟨_, hx4, hstop⟩⟩
    simp only [List.mem_cons, List.not_mem_nil, or_false] at hc
    rcases hc with rfl | rfl | rfl | rfl
    · exact ⟨_, hx1, servo_leaves hk1 hr1 hp1 hm1⟩
    · exact ⟨_, hx2, servo_leaves hk2 hr2 hp2 hm2⟩
    · exact ⟨_, hx3, servo_leaves hk3 hr3 hp3 hm3⟩
    · exact ⟨_, hx4, servo_leaves hk4 hr4 hp4 hm4⟩
  · have hshows := servoHoldover_shows s.toBox
    split
    case isTrue hlate =>
      obtain ⟨hstate, r, o, hb⟩ := hshows
      have hx : s.toBox.syncTimeout = s.toBox.servoHoldover := if_pos hlate
      generalize s.toBox.servoHoldover = x at *
      subst hb
      exact ⟨_, next_onBox (actRun_run s _ hrun) hx, hstate, rfl⟩
    case isFalse hintime =>
      have hx : s.toBox.syncTimeout = s.toBox := if_neg hintime
      exact next_onBox (actRun_run s _ hrun) hx

end Sys2Proof.Proofs
end

section
/-!
# Time messages

What the originated messages of time transfer leave, port by port, and what each message that comes does (09_network_time.md
R268 to R274).
-/

namespace Sys2Proof.Proofs
open Sys2Proof Sys2Proof.Machine Sys2Proof.Safety Sys2Proof.Laws

/-! ### What a port holds of time transfer -/

/-- `t` is `s` but for what ports hold, what they have staged and the number of the next descriptor. -/
def timeOnly (s t : Box) : Prop := ∃ po pt st d, t = { s with ports := po, ptps := pt, staging := st, descId := d }

/-- Port `p` holds and stages in `t` what it does in `s`. -/
def sameSlot (p : Nat) (s t : Box) : Prop :=
  t.port p = s.port p ∧ t.ptp p = s.ptp p ∧ ∀ v, v < 8 → t.staged (8 * p + v) = s.staged (8 * p + v)

section
variable {s t u : Box} {p q : Nat}

theorem timeOnly_refl (s : Box) : timeOnly s s := ⟨s.ports, s.ptps, s.staging, s.descId, rfl⟩

theorem timeOnly_trans (h : timeOnly s t) (k : timeOnly t u) : timeOnly s u := by
  obtain ⟨_, _, _, _, rfl⟩ := h
  obtain ⟨_, _, _, _, rfl⟩ := k
  exact ⟨_, _, _, _, rfl⟩

theorem timeOnly_regs (h : timeOnly s t) : t.regs = s.regs := by
  obtain ⟨_, _, _, _, rfl⟩ := h
  rfl

theorem sameSlot_refl (p : Nat) (s : Box) : sameSlot p s s := ⟨rfl, rfl, fun _ _ => rfl⟩

theorem sameSlot_trans (h : sameSlot p s t) (k : sameSlot p t u) : sameSlot p s u :=
  ⟨k.1.trans h.1, k.2.1.trans h.2.1, fun v hv => (k.2.2 v hv).trans (h.2.2 v hv)⟩

theorem setPtp_timeOnly (s : Box) (p : Nat) (x : Ptp) : timeOnly s (s.setPtp p x) := ⟨_, _, _, _, rfl⟩

@[simp] theorem ptp_setPtp (s : Box) (p : Nat) (x : Ptp) : (s.setPtp p x).ptp p = x := mapGet_mapSet_same _ _ _ _

theorem ptp_setPtp_other (s : Box) (x : Ptp) (h : q ≠ p) : (s.setPtp p x).ptp q = s.ptp q := mapGet_mapSet_other _ _ _ h

theorem setPtp_sameSlot (s : Box) (x : Ptp) (h : q ≠ p) : sameSlot q s (s.setPtp p x) := ⟨rfl, ptp_setPtp_other s x h, fun _ _ => rfl⟩

end

/-! ### A message sent (R268) -/

/-- The control frame that carries a message. -/
def timeFrame (s : Box) (p : Nat) (m : List Byte) : Frame :=
  frRetag (mkControl 4 (s.rd (LNK_PARTNER_ID_ADDR_ADDR p)) (s.rd (FWD_SELF_ADDR_ADDR 0)) [0x30 * 2 ^ 24] m 0) (s.port p).ctags

theorem frVc_lt (f : Frame) : frVc f < 8 := Nat.mod_lt _ (by decide)

theorem sendPtp_timeOnly (s : Box) (p : Nat) (m : List Byte) : timeOnly s (s.sendPtp p m) := ⟨_, _, _, _, rfl⟩

theorem sendPtp_ptp (s : Box) (p : Nat) (m : List Byte) (q : Nat) : (s.sendPtp p m).ptp q = s.ptp q := rfl

theorem sendPtp_sameSlot (s : Box) {p q : Nat} (m : List Byte) (h : q ≠ p) : sameSlot q s (s.sendPtp p m) := by
  refine ⟨mapGet_mapSet_other _ _ _ h, rfl, fun v hv => ?_⟩
  have hvc := frVc_lt (timeFrame s p m)
  exact mapGet_mapSet_other _ _ _ (show 8 * q + v ≠ 8 * p + frVc (timeFrame s p m) by omega)

theorem sendPtp_sent (s : Box) (p : Nat) (m : List Byte) : sentPtp s (s.sendPtp p m) p m :=
  ⟨_, mapGet_mapSet_same _ _ _ _, rfl, rfl, congrArg Port.ctags (mapGet_mapSet_same _ _ _ _)⟩

theorem sendPtp_port (s : Box) (p : Nat) (m : List Byte) :
    (s.sendPtp p m).port p = { s.port p with ctags := ((s.port p).ctags + 1) % 2 ^ 32 } := mapGet_mapSet_same _ _ _ _

/-- A message is sent where nothing it depends on differs. -/
theorem sentPtp_of_same {s s' t t' : Box} {p : Nat} {m : List Byte} (h : sentPtp s' t' p m) (hregs : s'.regs = s.regs)
    (hctags : (s'.port p).ctags = (s.port p).ctags) (hstaged : ∀ v, v < 8 → s'.staged (8 * p + v) = s.staged (8 * p + v))
    (ht : sameSlot p t' t) : sentPtp s t p m := by
  obtain ⟨x, hx, hframe, hegress, htags⟩ := h
  have hf : timeFrame s' p m = timeFrame s p m := by rw [timeFrame, timeFrame, rd_of_regs hregs, rd_of_regs hregs, hctags]
  have hv := frVc_lt (timeFrame s p m)
  refine ⟨x, ?_, hframe.trans hf, hegress, ?_⟩
  · refine (ht.2.2 _ hv).trans ?_
    change t'.staged (8 * p + frVc (timeFrame s p m)) = s.staged (8 * p + frVc (timeFrame s p m)) ++ [x]
    rw [← hstaged _ hv, ← hf]
    exact hx
  · rw [ht.1, ← hctags]
    exact htags

/-! ### The same at every port of a list -/

/-- What is done for each port of a list is done for it alone; `R` is what every step leaves. -/
theorem foldl_slots {R : Box → Box → Prop} (hrefl : ∀ b, R b b) (htrans : ∀ {b c d}, R b c → R c d → R b d) {f : Box → Nat → Box}
    (hf : ∀ b q, R b (f b q) ∧ ∀ p, p ≠ q → sameSlot p b (f b q)) {l : List Nat} (hl : l.Nodup) (b : Box) :
    R b (l.foldl f b) ∧ (∀ p, p ∉ l → sameSlot p b (l.foldl f b))
      ∧ ∀ p, p ∈ l → ∃ c, R b c ∧ sameSlot p b c ∧ sameSlot p (f c p) (l.foldl f b) := by
  induction l generalizing b with
  | nil => exact ⟨hrefl b, fun p _ => sameSlot_refl p b, nofun⟩
  | cons q l ih =>
    obtain ⟨hq, hl⟩ := List.nodup_cons.mp hl
    obtain ⟨hstep, hother⟩ := hf b q
    obtain ⟨honly, hout, hin⟩ := ih hl (f b q)
    refine ⟨htrans hstep honly, fun p hp => ?_, fun p hp => ?_⟩
    · obtain ⟨hpq, hpl⟩ := not_or.mp (mt List.mem_cons.mpr hp)
      exact sameSlot_trans (hother p hpq) (hout p hpl)
    · by_cases hpq : p = q
      · subst hpq
        exact ⟨b, hrefl b, sameSlot_refl p b, hout p hq⟩
      · obtain ⟨c, hc, hslot, hdone⟩ := hin p ((List.mem_cons.mp hp).resolve_left hpq)
        exact ⟨c, htrans hstep hc, sameSlot_trans (hother p hpq) hslot, hdone⟩

theorem allSlots_filter_nodup (f : Nat → Bool) : (allSlots.filter f).Nodup := List.Nodup.filter f List.nodup_range

/-! ### Timers (R270, R271, R273) -/

theorem up_of_regs {s t : Box} (h : t.regs = s.regs) (p : Nat) : t.up p = s.up p := is_of_regs h _

theorem timeRole_of_regs {s t : Box} (h : t.regs = s.regs) (p : Nat) : t.timeRole p = s.timeRole p := rd_of_regs h _

theorem portMsg_of_regs {s t : Box} (h : t.regs = s.regs) (p ty flags : Nat) (corr : Int) (seq : Nat) (body : List Byte) :
    t.portMsg p ty flags corr seq body = s.portMsg p ty flags corr seq body := by rw [Box.portMsg, Box.portMsg, rd_of_regs h]

theorem mem_rolePorts (s : Box) (rs : List Nat) (p : Nat) : p ∈ s.rolePorts rs ↔ p < 2048 ∧ s.up p = true ∧ s.timeRole p ∈ rs := by
  simp [Box.rolePorts, allSlots]

/-- A port's part in a timer's round: its record moves and a message leaves. -/
def timerSend (next : Ptp → Ptp) (msg : Box → Nat → List Byte) (b : Box) (p : Nat) : Box :=
  (b.setPtp p (next (b.ptp p))).sendPtp p (msg b p)

/-- A round over ports: each moves its record and sends its message, the others do nothing. -/
theorem timerSend_each {next : Ptp → Ptp} {msg : Box → Nat → List Byte} (b : Box) {l : List Nat} (hl : l.Nodup)
    (hmsg : ∀ c p, c.regs = b.regs → c.ptp p = b.ptp p → msg c p = msg b p) :
    timeOnly b (l.foldl (timerSend next msg) b) ∧ (∀ p, p ∉ l → sameSlot p b (l.foldl (timerSend next msg) b))
      ∧ ∀ p, p ∈ l → sentPtp b (l.foldl (timerSend next msg) b) p (msg b p)
          ∧ (l.foldl (timerSend next msg) b).ptp p = next (b.ptp p) := by
  have hstep (c : Box) (q : Nat) : timeOnly c (timerSend next msg c q) ∧ ∀ p, p ≠ q → sameSlot p c (timerSend next msg c q) :=
    ⟨timeOnly_trans (setPtp_timeOnly _ _ _) (sendPtp_timeOnly _ _ _),
      fun p hp => sameSlot_trans (setPtp_sameSlot _ _ hp) (sendPtp_sameSlot _ _ hp)⟩
  obtain ⟨honly, hout, hin⟩ := foldl_slots timeOnly_refl timeOnly_trans hstep hl b
  refine ⟨honly, hout, fun p hp => ?_⟩
  obtain ⟨c, hc, hslot, hdone⟩ := hin p hp
  have hm := hmsg c p (timeOnly_regs hc) hslot.2.1
  refine ⟨sentPtp_of_same (s' := c.setPtp p (next (c.ptp p))) ?_ (timeOnly_regs (timeOnly_trans hc (setPtp_timeOnly c p _)))
    (congrArg Port.ctags hslot.1) hslot.2.2 hdone, ?_⟩
  · rw [← hm]
    exact sendPtp_sent _ _ _
  · refine hdone.2.1.trans ?_
    rw [timerSend, sendPtp_ptp, ptp_setPtp, hslot.2.1]

/-- A timer's round over the ports of some roles. -/
theorem timerSend_round {next : Ptp → Ptp} {msg : Box → Nat → List Byte} (b : Box) (rs : List Nat)
    (hmsg : ∀ c p, c.regs = b.regs → c.ptp p = b.ptp p → msg c p = msg b p) :
    timeOnly b ((b.rolePorts rs).foldl (timerSend next msg) b)
      ∧ ∀ p, p < 2048 → if b.up p = true ∧ b.timeRole p ∈ rs
        then sentPtp b ((b.rolePorts rs).foldl (timerSend next msg) b) p (msg b p)
          ∧ ((b.rolePorts rs).foldl (timerSend next msg) b).ptp p = next (b.ptp p)
        else ((b.rolePorts rs).foldl (timerSend next msg) b).ptp p = b.ptp p
          ∧ ((b.rolePorts rs).foldl (timerSend next msg) b).port p = b.port p := by
  obtain ⟨honly, hout, hin⟩ := timerSend_each b (allSlots_filter_nodup _ : (b.rolePorts rs).Nodup) hmsg
  refine ⟨honly, fun p hp => ?_⟩
  split
  case isTrue h => exact hin p ((mem_rolePorts b rs p).mpr ⟨hp, h⟩)
  case isFalse h =>
    have hnot : p ∉ b.rolePorts rs := fun hmem => h ((mem_rolePorts b rs p).mp hmem).2
    exact ⟨(hout p hnot).2.1, (hout p hnot).1⟩

theorem syncSend_due {b : Box} (h : ¬ b.raw < b.servo.syncAt + 2 ^ b.logInt) : b.syncSend
    = ((Box.rolePorts { b with servo := { b.servo with syncAt := b.raw } } [2]).foldl
        (timerSend (fun x => { x with seqS := (x.seqS + 1) % 65536 })
          fun c p => c.portMsg p 0 0x0200 0 (c.ptp p).seqS (List.replicate 10 0)) { b with servo := { b.servo with syncAt := b.raw } }) :=
  if_neg h

theorem pdelaySend_due {b : Box} (h : ¬ b.raw < b.servo.pdAt + 8 * 2 ^ b.logInt) : b.pdelaySend
    = ((Box.rolePorts { b with servo := { b.servo with pdAt := b.raw } } [1, 2]).foldl
        (timerSend (fun x => { x with seqP := (x.seqP + 1) % 65536, req := some (x.seqP, none), resp := none })
          fun c p => c.portMsg p 2 0 0 (c.ptp p).seqP (List.replicate 20 0)) { b with servo := { b.servo with pdAt := b.raw } }) :=
  if_neg h

/-- The Announce that the interval sends. -/
def announceBody (k : Nat) : List Byte :=
  List.replicate 13 0 ++ (bytesBE 8 (Config.freeBits k).toNat).take 6 ++ bytesBE 8 Config.clockId.toNat
    ++ (bytesBE 8 (Config.freeBits k).toNat).drop 6 ++ [0]

theorem bytesBE_length (n v : Nat) : (bytesBE n v).length = n := by
  induction n with
  | zero => rfl
  | succ n ih => rw [bytesBE, List.length_cons, ih]

theorem announceBody_length (k : Nat) : (announceBody k).length = 30 := by
  simp [announceBody, bytesBE_length]

theorem ethSend_due {b : Box} (hen : b.is TGT_PTP_CTRL_ETH_EN = true) (h : ¬ b.raw < b.servo.ethAt + 2 ^ b.logInt) :
    b.ethSend = { b with
      servo := { b.servo with ethAt := b.raw, ethSeq := (b.servo.ethSeq + 1) % 65536 }
      freeCtr := b.freeCtr + 1
      outbox := .ethPtp false (b.ethMsg 8 0 (ptpFrac (unitsOf (b.now32 0)) : Nat) b.servo.ethSeq (ptpStamp (unitsOf (b.now32 0))))
        :: .ethPtp true (b.ethMsg 0 0x0200 0 b.servo.ethSeq (List.replicate 10 0))
        :: .ethPtp false (b.ethMsg 11 0x0008 0 b.servo.ethSeq (announceBody b.freeCtr)) :: b.outbox } := by
  rw [Box.ethSend, if_neg (by rw [hen]; simpa using h)]
  rfl

/-! ### Delay_Req (R269, R273) -/

/-- A management Ethernet frame counted in its second. -/
def frameCounted (b : Box) : Box :=
  { b with ethSecond := (b.raw / 640000000, (if b.ethSecond.1 = b.raw / 640000000 then b.ethSecond.2 else 0) + 1) }

theorem ethFrame_within {b : Box} (h : (if b.ethSecond.1 = b.raw / 640000000 then b.ethSecond.2 else 0) < 50000) (f : Box → Box) :
    b.ethFrame f = f (frameCounted b) := if_neg (Nat.not_le.mpr h)

theorem ethFrame_beyond {b : Box} (h : 50000 ≤ (if b.ethSecond.1 = b.raw / 640000000 then b.ethSecond.2 else 0)) (f : Box → Box) :
    b.ethFrame f = (frameCounted b).count mgtPage 4 := if_pos h

/-- A count and no more. -/
theorem count_shows (b : Box) (p : Page) (i : Nat) : (b.count p i).ctr p i = b.ctr p i + 1
    ∧ ∃ r o c, b.count p i = { b with regs := r, outbox := o, ctrs := c } :=
  ⟨count_ctr_succ b p i, bump_onlyRegsCtrs b p i 1⟩

/-- A command that only counts, on a machine `b` made ready for it. -/
theorem exec_counts {s : State} {r : Result} {f : Box → Box} {b : Box} {p : Page} {i : Nat} (hr : r = .next (s.onBox f))
    (hf : f s.toBox = b.count p i) (hb : ∀ q j, b.ctr q j = s.ctr q j) : ∃ t, r = .next t ∧ t.ctr p i = s.ctr p i + 1
      ∧ ∃ rg o c, t = s.onBox fun _ => { b with regs := rg, outbox := o, ctrs := c } := by
  obtain ⟨hctr, rg, o, c, hbox⟩ := count_shows b p i
  refine ⟨_, next_onBox hr hf, hctr.trans (by rw [hb]), rg, o, c, ?_⟩
  rw [hbox]

/-- Settles O49: a timer that is due sends at each port of its roles and nowhere else. -/
theorem timeTimersSendMessages : Obligations.TimeTimersSendMessages := by
  unfold Obligations.TimeTimersSendMessages
  intro s hrun
  refine ⟨fun h => ?_, fun h => ?_, fun h => ?_, fun h => ?_, fun h => ?_, fun hen h => ?_, fun seq ident corr domain sub => ?_⟩
  · exact next_onBox (actRun_run s _ hrun) (b := s.toBox) (if_pos h)
  · have hbox := syncSend_due (b := s.toBox) (Nat.not_lt.mpr h)
    obtain ⟨honly, hports⟩ := timerSend_round (next := fun x => { x with seqS := (x.seqS + 1) % 65536 })
      (msg := fun c p => c.portMsg p 0 0x0200 0 (c.ptp p).seqS (List.replicate 10 0))
      { s.toBox with servo := { s.servo with syncAt := s.raw } } [2]
      fun c p hc hp => by dsimp only; rw [portMsg_of_regs hc, hp]
    generalize (Box.rolePorts { s.toBox with servo := { s.servo with syncAt := s.raw } } [2]).foldl _ _ = m at *
    obtain ⟨po, pt, st, d, rfl⟩ := honly
    refine ⟨_, next_onBox (actRun_run s _ hrun) hbox, rfl, fun p hp => ?_⟩
    have hone := hports p hp
    simp only [List.mem_singleton] at hone
    exact hone
  · exact next_onBox (actRun_run s _ hrun) (b := s.toBox) (if_pos h)
  · have hbox := pdelaySend_due (b := s.toBox) (Nat.not_lt.mpr h)
    obtain ⟨honly, hports⟩ := timerSend_round
      (next := fun x => { x with seqP := (x.seqP + 1) % 65536, req := some (x.seqP, none), resp := none })
      (msg := fun c p => c.portMsg p 2 0 0 (c.ptp p).seqP (List.replicate 20 0))
      { s.toBox with servo := { s.servo with pdAt := s.raw } } [1, 2]
      fun c p hc hp => by dsimp only; rw [portMsg_of_regs hc, hp]
    generalize (Box.rolePorts { s.toBox with servo := { s.servo with pdAt := s.raw } } [1, 2]).foldl _ _ = m at *
    obtain ⟨po, pt, st, d, rfl⟩ := honly
    refine ⟨_, next_onBox (actRun_run s _ hrun) hbox, rfl, fun p hp => ?_⟩
    have hone := hports p hp
    simp only [List.mem_cons, List.not_mem_nil, or_false] at hone
    exact hone
  · exact next_onBox (actRun_run s _ hrun) (b := s.toBox) (if_pos h)
  · exact ⟨_, announceBody_length s.freeCtr, next_onBox (actRun_run s _ hrun) (ethSend_due (b := s.toBox) hen (Nat.not_lt.mpr h))⟩
  · have hexec (option : Bool) : exec (.delayReq seq ident corr domain option sub) s = .next (s.onBox fun b => b.ethFrame fun x =>
        x.ethDelay seq.toNat ident.toNat corr.toInt domain.toNat option sub.toNat) := actRun_run s _ hrun
    refine ⟨fun hsent hen hdom => ?_, fun hsent hen => ?_, fun hlost option => ?_⟩
    · have hbox : s.toBox.ethFrame (fun x => x.ethDelay seq.toNat ident.toNat corr.toInt domain.toNat false sub.toNat)
          = (frameCounted s.toBox).emit (.ethPtp false (s.ethMsg 9 0 (corr.toInt - ptpFrac (unitsOf (s.now32 sub.toNat))) seq.toNat
            (ptpStamp (unitsOf (s.now32 sub.toNat)) ++ bytesBE 10 ident.toNat))) := by
        have hen' : (frameCounted s.toBox).is TGT_PTP_CTRL_ETH_EN = true := hen
        have hdom' : domain.toNat = (frameCounted s.toBox).rd TGT_PTP_CTRL_DOMAIN := hdom
        rw [ethFrame_within hsent, Box.ethDelay, hen', if_neg (by simp), if_neg (by simp [← hdom'])]
        rfl
      exact next_onBox (hexec false) hbox
    · have hbox : s.toBox.ethFrame (fun x => x.ethDelay seq.toNat ident.toNat corr.toInt domain.toNat true sub.toNat)
          = (frameCounted s.toBox).count tgtPage 1 := by
        have hen' : (frameCounted s.toBox).is TGT_PTP_CTRL_ETH_EN = true := hen
        rw [ethFrame_within hsent, Box.ethDelay, hen', if_neg (by simp), if_pos (.inl rfl)]
        rfl
      obtain ⟨t, ht, hctr, rg, o, c, rfl⟩ := exec_counts (hexec true) hbox fun _ _ => rfl
      exact ⟨_, ht, hctr, rfl⟩
    · have hbox : s.toBox.ethFrame (fun x => x.ethDelay seq.toNat ident.toNat corr.toInt domain.toNat option sub.toNat)
          = (frameCounted s.toBox).count mgtPage 4 := by
        by_cases hsent : 50000 ≤ (if s.ethSecond.1 = s.raw / 640000000 then s.ethSecond.2 else 0)
        · exact ethFrame_beyond hsent _
        · have hen' : (frameCounted s.toBox).is TGT_PTP_CTRL_ETH_EN = false := hlost.resolve_left hsent
          rw [ethFrame_within (Nat.not_le.mp hsent), Box.ethDelay, if_pos hen']
      obtain ⟨t, ht, hctr, rg, o, c, rfl⟩ := exec_counts (hexec option) hbox fun _ _ => rfl
      exact ⟨_, ht, hctr, rfl⟩

end Sys2Proof.Proofs
end

section
/-!
# The messages that come

Each message of time transfer that a port takes, and what it moves (09_network_time.md R264, R268 to R274).
-/

namespace Sys2Proof.Proofs
open Sys2Proof Sys2Proof.Machine Sys2Proof.Safety Sys2Proof.Laws

/-! ### Taking the head (R269, R274) -/

/-- The machine once the head of a port's messages is taken. -/
def headTaken (b : Box) (p : Nat) (rest : List Arrived) : Box := b.setPort p { b.port p with ptp := rest }

section
variable {b : Box} {p ty : Nat} {a : Arrived} {rest : List Arrived}

theorem ptpTake_head (h : timeHead b p ty a rest) (hty : ty ∈ ptpTypes) (f : List Byte → Nat → Box → Box) :
    b.ptpTake p ty f = f (frPayload a.frame) (stamp32 a.stamp) (headTaken b p rest) := by
  obtain ⟨hhead, hrole, hpartner, hlen, hversion, htype, hoption⟩ := h
  rw [Box.ptpTake, hhead]
  dsimp only
  rw [if_neg (by simp [hrole, hpartner, hlen, hversion, htype, hty, hoption]), if_pos htype]
  rfl

theorem ptpTake_discards (hhead : (b.port p).ptp = a :: rest) (h : b.timeRole p = 0 ∨ b.partnerTimes p = false
      ∨ ptpVersion (frPayload a.frame) ≠ 2 ∨ ptpType (frPayload a.frame) ∉ ptpTypes ∨ ptpOption (frPayload a.frame) = true)
    (f : List Byte → Nat → Box → Box) : b.ptpTake p ty f = (headTaken b p rest).count tgtPage 1 := by
  rw [Box.ptpTake, hhead]
  exact if_pos (h.imp_right fun h => h.imp_right .inr)

end

/-! ### A measurement (R263 to R265) -/

section
variable {b : Box} {o : Int}

/-- The machine with a measurement noted that is not the first after a new parent. -/
def measured (b : Box) : Box := { b with servo := { b.servo with fresh := false } }

/-- The machine with a measurement of ACQUIRE collected. -/
def collected (b : Box) (o : Int) : Box := { b with servo := { b.servo with fresh := false, offs := b.servo.offs ++ [o] } }

theorem servoMeasure_acquire (hst : b.servoState = 2) : b.servoMeasure o = if 8 ≤ b.servo.offs.length then measured b
    else if (b.servo.offs ++ [o]).length = 8 then (collected b o).acquire (b.servo.offs ++ [o]) else collected b o := by
  rw [Box.servoMeasure, hst]
  rfl

theorem servoMeasure_track (hst : b.servoState = 3) : b.servoMeasure o
    = if b.servo.fresh = true ∧ decide (o.natAbs ≤ 32 * b.rd TGT_SERVO_GAIN_OOB) = false then (measured b).servoEnter 5
      else (measured b).trackOffset o := by
  rw [Box.servoMeasure, hst]
  rfl

/-- The machine back in TRACK. -/
def heldAgain (b : Box) : Box := Box.servoEnter { b with servo := { b.servo with fresh := false, oob := 0 } } 3

theorem servoMeasure_holds (hst : b.servoState = 4) : b.servoMeasure o
    = if decide (o.natAbs ≤ 32 * b.rd TGT_SERVO_GAIN_OOB) = true then (heldAgain b).trackOffset o else (measured b).servoEnter 5 := by
  rw [Box.servoMeasure, hst]
  rfl

theorem servoMeasure_collect (hst : b.servoState = 2) (hl : b.servo.offs.length < 7) : b.servoMeasure o
    = { b with servo := { b.servo with fresh := false, offs := b.servo.offs ++ [o] } } := by
  rw [servoMeasure_acquire hst, if_neg (by omega), if_neg (by rw [List.length_append, List.length_singleton]; omega), collected]

theorem servoMeasure_eighth (hst : b.servoState = 2) (hl : b.servo.offs.length = 7) : b.servoMeasure o
    = { b with
        servo := { b.servo with
          fresh := false
          offs := b.servo.offs ++ [o]
          integ := clampRate ((scaleBy (o - b.servo.offs.getD 0 0) (43 - (b.logInt : Int))).tdiv 7) }
        applies := b.applies ++ [{
          at_ := b.raw + 64
          rate := some ((scaleBy (o - b.servo.offs.getD 0 0) (43 - (b.logInt : Int))).tdiv 7)
          step := some (medianEight (b.servo.offs ++ [o]))
          track := true }] } := by
  have hlast : (b.servo.offs ++ [o]).getD 7 0 = o := by
    rw [List.getD_eq_getElem?_getD, List.getElem?_append_right (by omega), hl]
    rfl
  have hfirst : (b.servo.offs ++ [o]).getD 0 0 = b.servo.offs.getD 0 0 := by
    rw [List.getD_eq_getElem?_getD, List.getElem?_append_left (by omega), List.getD_eq_getElem?_getD]
  rw [servoMeasure_acquire hst, if_neg (by omega), if_pos (by rw [List.length_append, List.length_singleton]; omega), Box.acquire, hlast,
    hfirst]
  rfl

/-- A measurement within OOB corrects the rate. -/
theorem trackOffset_small (h : o.natAbs ≤ 32 * b.rd TGT_SERVO_GAIN_OOB) : b.trackOffset o = { b with
    servo := { b.servo with
      integ := clampRate (b.servo.integ + scaleBy o (43 - (b.logInt : Int) - b.rd TGT_SERVO_GAIN_KI))
      oob := 0 }
    applies := b.applies ++ [{
      at_ := b.raw + 64
      rate := some (clampRate (b.servo.integ + scaleBy o (43 - (b.logInt : Int) - b.rd TGT_SERVO_GAIN_KI))
        + scaleBy o (43 - (b.logInt : Int) - b.rd TGT_SERVO_GAIN_KP)) }] } := by
  rw [Box.trackOffset, if_neg (by omega)]
  rfl

theorem count_servo_state (c : Box) : (c.count tgtPage 0).servoState = c.servoState := by
  refine rd_of_sameWords (bump_sameWords _ _ _ _) ?_
  decide

/-- A measurement beyond OOB in TRACK: the fourth in a row leaves it. -/
theorem trackOffset_large (h : 32 * b.rd TGT_SERVO_GAIN_OOB < o.natAbs) : (b.trackOffset o).applies = b.applies
    ∧ (b.trackOffset o).servo.integ = b.servo.integ ∧ if b.servo.oob = 3 then (b.trackOffset o).servoState = 5
      else (b.trackOffset o).servoState = b.servoState ∧ (b.trackOffset o).servo.oob = b.servo.oob + 1 := by
  have hstate := count_servo_state b
  obtain ⟨rg, ob, c, hcount⟩ := bump_onlyRegsCtrs b tgtPage 0 1
  rw [Box.trackOffset, if_pos (by omega)]
  dsimp only
  rw [← Box.count] at hcount
  by_cases hfour : b.servo.oob = 3
  · rw [if_pos (by omega), if_pos hfour]
    have hst := servoEnter_state { b.count tgtPage 0 with servo := { (b.count tgtPage 0).servo with oob := 0 } } (st := 5) (by decide)
    obtain ⟨_, _, h⟩ := servoEnter_onlyRegs { b.count tgtPage 0 with servo := { (b.count tgtPage 0).servo with oob := 0 } } 5
    generalize Box.servoEnter { b.count tgtPage 0 with servo := { (b.count tgtPage 0).servo with oob := 0 } } 5 = x at *
    refine ⟨?_, ?_, hst⟩ <;> rw [h, hcount]
  · rw [if_neg (by omega), if_neg hfour]
    refine ⟨?_, ?_, hstate, rfl⟩ <;> rw [hcount]

theorem servoMeasure_track_small (hst : b.servoState = 3) (h : o.natAbs ≤ 32 * b.rd TGT_SERVO_GAIN_OOB) :
    b.servoMeasure o = (measured b).trackOffset o := by
  rw [servoMeasure_track hst, if_neg (by simp [h])]

theorem servoMeasure_track_large (hst : b.servoState = 3) (h : 32 * b.rd TGT_SERVO_GAIN_OOB < o.natAbs) :
    (b.servoMeasure o).applies = b.applies ∧ (b.servoMeasure o).servo.integ = b.servo.integ
      ∧ if b.servo.fresh = true ∨ b.servo.oob = 3 then (b.servoMeasure o).servoState = 5
        else (b.servoMeasure o).servoState = 3 ∧ (b.servoMeasure o).servo.oob = b.servo.oob + 1 := by
  obtain ⟨happlies, hinteg, hrest⟩ := trackOffset_large (b := measured b) (o := o) h
  rw [servoMeasure_track hst]
  by_cases hfresh : b.servo.fresh = true
  · rw [if_pos (by simp [hfresh]; omega), if_pos (.inl hfresh)]
    obtain ⟨_, _, hb⟩ := servoEnter_onlyRegs (measured b) 5
    have hst := servoEnter_state (measured b) (st := 5) (by decide)
    refine ⟨?_, ?_, hst⟩
    · exact (congrArg Box.applies hb).trans rfl
    · exact (congrArg (fun x : Box => x.servo.integ) hb).trans rfl
  · rw [if_neg fun hboth => hfresh hboth.1]
    refine ⟨happlies, hinteg, ?_⟩
    by_cases hthree : b.servo.oob = 3
    · rw [if_pos (.inr hthree)]
      rw [if_pos (show (measured b).servo.oob = 3 from hthree)] at hrest
      exact hrest
    · rw [if_neg (by simp [hfresh, hthree])]
      rw [if_neg (show ¬ (measured b).servo.oob = 3 from hthree)] at hrest
      exact ⟨hrest.1.trans hst, hrest.2⟩

theorem servoMeasure_holdover (hst : b.servoState = 4) : (b.servoMeasure o).servoState
    = if o.natAbs ≤ 32 * b.rd TGT_SERVO_GAIN_OOB then 3 else 5 := by
  rw [servoMeasure_holds hst]
  by_cases h : o.natAbs ≤ 32 * b.rd TGT_SERVO_GAIN_OOB
  · rw [if_pos (by simpa using h), if_pos h]
    have hoob : (heldAgain b).rd TGT_SERVO_GAIN_OOB = b.rd TGT_SERVO_GAIN_OOB :=
      rd_of_sameOn (servoEnter_kept _ 3) (f := TGT_SERVO_GAIN_OOB) (by decide)
    have hstate : (heldAgain b).servoState = 3 := servoEnter_state _ (by decide)
    generalize heldAgain b = x at *
    rw [trackOffset_small (hoob ▸ h)]
    exact hstate
  · rw [if_neg (by simpa using h), if_neg h]
    exact servoEnter_state _ (by decide)

end

/-! ### Sync and Follow_Up (R264, R270 to R272) -/

section
variable {b : Box} {p : Nat} {m : List Byte}

theorem relays_of_fromParent (h : b.fromParent p m = true) : b.relays p m = false := by
  have hrole : b.timeRole p = 1 := by
    simp only [Box.fromParent, Bool.and_eq_true, beq_iff_eq] at h
    exact h.1.2
  simp [Box.relays, hrole]

theorem onSync_parent (h : b.fromParent p m = true) (htwo : ptpTwoStep m = true) (htakes : b.servoTakes = true) (t2 : Nat) :
    b.onSync p m t2 = { b with servo := { b.servo with heard := b.raw } }.setPtp p
      { b.ptp p with sync := some (ptpSeq m, ptpCorr m, t2) } := by
  rw [Box.onSync, htwo, relays_of_fromParent h, h, htakes]
  rfl

/-- The offset that a Follow_Up gives of its Sync, in 1/32 tk (R270). -/
def offsetOf (b : Box) (p : Nat) (m : List Byte) (c : Int) (t2 : Nat) : Int :=
  ((ptpTime m 34 : Int) + c + ptpCorr m + b.pathDelay p + toSigned 16 (b.rd (TGT_PORT_ASYM_ASYM p)) * 3200 - (unitsOf t2 : Nat)).tdiv 3200

theorem onFollowUp_parent {c : Int} {t2 : Nat} (h : b.fromParent p m = true) (hsync : (b.ptp p).sync = some (ptpSeq m, c, t2))
    (htakes : b.servoTakes = true) : b.onFollowUp p m
      = (b.setPtp p { b.ptp p with sync := none }).servoMeasure (offsetOf b p m c t2) := by
  rw [Box.onFollowUp, relays_of_fromParent h, h, hsync, if_neg Bool.false_ne_true, if_pos rfl]
  exact if_pos ⟨rfl, htakes⟩

/-- What the relay of a Sync notes at a port. -/
def relayNoted (p : Nat) (m : List Byte) (t2 : Nat) (x : Ptp) : Ptp :=
  { x with relays := x.relays ++ [{ src := p, seq := ptpSeq m, ident := ptpIdent m, rx := t2 }] }

/-- The ports that a Sync is relayed to. -/
def relayPorts (b : Box) (p : Nat) : List Nat := allSlots.filter fun q => q != p && b.up q && b.timeRole q == 3

theorem mem_relayPorts (b : Box) (p q : Nat) : q ∈ relayPorts b p ↔ q < 2048 ∧ q ≠ p ∧ b.up q = true ∧ b.timeRole q = 3 := by
  simp [relayPorts, allSlots, and_assoc]

theorem relayPorts_nodup (b : Box) (p : Nat) : (relayPorts b p).Nodup := allSlots_filter_nodup _

theorem onSync_relayed (h : b.relays p m = true) (htwo : ptpTwoStep m = true) (t2 : Nat) :
    b.onSync p m t2 = (relayPorts b p).foldl (timerSend (relayNoted p m t2) fun _ _ => m) b := by
  rw [Box.onSync, htwo, h]
  rfl

/-! ### A relayed Follow_Up (R272) -/

/-- `t` is `s` but for what ports hold and stage, and every port's delay measurements stay. -/
def relayOnly (s t : Box) : Prop := timeOnly s t ∧ ∀ q, (t.ptp q).delays = (s.ptp q).delays

theorem relayOnly_refl (s : Box) : relayOnly s s := ⟨timeOnly_refl s, fun _ => rfl⟩

theorem relayOnly_trans {s t u : Box} (h : relayOnly s t) (k : relayOnly t u) : relayOnly s u :=
  ⟨timeOnly_trans h.1 k.1, fun q => (k.2 q).trans (h.2 q)⟩

theorem setPtp_relayOnly (s : Box) (q : Nat) {x : Ptp} (h : x.delays = (s.ptp q).delays) : relayOnly s (s.setPtp q x) := by
  refine ⟨setPtp_timeOnly s q x, fun k => ?_⟩
  by_cases hk : k = q
  · subst hk
    rw [ptp_setPtp, h]
  · rw [ptp_setPtp_other s x hk]

/-- A port's relayed Syncs without those whose Follow_Up goes out. -/
def settled (x : Ptp) : Ptp := { x with relays := x.relays.filter fun r => r.tx = none ∨ r.fu = none }

/-- The Follow_Up of a relayed Sync. -/
def relayedFollow (s : Box) (r : Relay) : List Byte :=
  ptpWithCorr (r.fu.getD []) (ptpCorr (r.fu.getD []) + s.pathDelay r.src + ((r.tx.getD 0 : Int) - r.rx) * 3200)

theorem relaySettle_eq (s : Box) (q : Nat) : s.relaySettle q
    = ((s.ptp q).relays.filter fun r => r.tx.isSome && r.fu.isSome).foldl (fun b r => b.sendPtp q (relayedFollow s r))
        (s.setPtp q (settled (s.ptp q))) := rfl

theorem relaySettle_slot (s : Box) (q : Nat) : relayOnly s (s.relaySettle q) ∧ ∀ k, k ≠ q → sameSlot k s (s.relaySettle q) := by
  have hsend (l : List Relay) (c : Box) : relayOnly c (l.foldl (fun b r => b.sendPtp q (relayedFollow s r)) c)
      ∧ ∀ k, k ≠ q → sameSlot k c (l.foldl (fun b r => b.sendPtp q (relayedFollow s r)) c) :=
    ⟨foldl_rel relayOnly_refl relayOnly_trans l (fun b r _ => ⟨sendPtp_timeOnly b q _, fun _ => rfl⟩) c,
      fun k hk => foldl_rel (sameSlot_refl k) sameSlot_trans l (fun b r _ => sendPtp_sameSlot b _ hk) c⟩
  obtain ⟨honly, hslot⟩ := hsend ((s.ptp q).relays.filter fun r => r.tx.isSome && r.fu.isSome) (s.setPtp q (settled (s.ptp q)))
  rw [relaySettle_eq]
  exact ⟨relayOnly_trans (setPtp_relayOnly s q (x := settled (s.ptp q)) rfl) honly,
    fun k hk => sameSlot_trans (setPtp_sameSlot s _ hk) (hslot k hk)⟩

/-- A Sync that has not left yet keeps its Follow_Up. -/
theorem relaySettle_waits {q : Nat} {r : Relay} (h : (b.ptp q).relays = [r]) (htx : r.tx = none) :
    ((b.relaySettle q).ptp q).relays = [r] := by
  rw [relaySettle_eq, h]
  simp [htx, settled, h]

/-- A Sync that has left is followed up. -/
theorem relaySettle_goes {q : Nat} {r : Relay} {tx : Nat} (h : (b.ptp q).relays = [r]) (htx : r.tx = some tx) (hfu : r.fu = some m) :
    b.relaySettle q = (b.setPtp q { b.ptp q with relays := [] }).sendPtp q
      (ptpWithCorr m (ptpCorr m + b.pathDelay r.src + ((tx : Int) - r.rx) * 3200)) := by
  rw [relaySettle_eq, h]
  simp [htx, hfu, settled, h, relayedFollow]

/-- Whether a relayed Sync waits for this Follow_Up. -/
def awaits (p : Nat) (m : List Byte) (r : Relay) : Bool := r.src == p && r.seq == ptpSeq m && r.ident == ptpIdent m && r.fu.isNone

/-- A port's record with the Follow_Up noted. -/
def followed (p : Nat) (m : List Byte) (x : Ptp) : Ptp :=
  { x with relays := x.relays.map fun r => if awaits p m r then { r with fu := some m } else r }

/-- A port's part in the relay of a Follow_Up. -/
def followRelay (p : Nat) (m : List Byte) (b : Box) (q : Nat) : Box := (b.setPtp q (followed p m (b.ptp q))).relaySettle q

/-- The ports at which a relayed Sync waits for this Follow_Up. -/
def awaiting (b : Box) (p : Nat) (m : List Byte) : List Nat := allSlots.filter fun q => (b.ptp q).relays.any (awaits p m)

theorem awaiting_nodup (b : Box) (p : Nat) (m : List Byte) : (awaiting b p m).Nodup := allSlots_filter_nodup _

theorem onFollowUp_relayed (h : b.relays p m = true) (hq : awaiting b p m ≠ []) :
    b.onFollowUp p m = (awaiting b p m).foldl (followRelay p m) b := by
  rw [Box.onFollowUp, if_pos h]
  exact if_neg hq

theorem followRelay_slot (p : Nat) (m : List Byte) (c : Box) (q : Nat) :
    relayOnly c (followRelay p m c q) ∧ ∀ k, k ≠ q → sameSlot k c (followRelay p m c q) := by
  obtain ⟨honly, hslot⟩ := relaySettle_slot (c.setPtp q (followed p m (c.ptp q))) q
  exact ⟨relayOnly_trans (setPtp_relayOnly c q (x := followed p m (c.ptp q)) rfl) honly,
    fun k hk => sameSlot_trans (setPtp_sameSlot c _ hk) (hslot k hk)⟩

theorem pathDelay_of_relayOnly {s t : Box} (h : relayOnly s t) (q : Nat) : t.pathDelay q = s.pathDelay q := by
  have hregs := timeOnly_regs h.1
  rw [Box.pathDelay, Box.pathDelay, h.2, rd_of_regs hregs, rd_of_regs hregs]

end

/-! ### Delay messages (R270) -/

section
variable {b : Box} {p : Nat} {m : List Byte}

/-- What a Pdelay_Req leaves for its follow-up. -/
def asked (m : List Byte) (x : Ptp) : Ptp := { x with answer := x.answer ++ [(ptpSeq m, ptpIdent m, ptpCorr m)] }

theorem onPdReq_measures (h : b.measures p m = true) (t2 : Nat) : b.onPdReq p m t2
    = (b.setPtp p (asked m (b.ptp p))).sendPtp p (b.portMsg p 3 0x0200 (-((ptpFrac (unitsOf t2) : Nat) : Int)) (ptpSeq m)
        (ptpStamp (unitsOf t2) ++ ptpIdent m)) := by
  rw [Box.onPdReq, if_pos h]
  rfl

theorem onPdResp_measures {t1 t4 : Nat} (h : b.measures p m = true) (htwo : ptpTwoStep m = true)
    (hreq : (b.ptp p).req = some (ptpSeq m, some t1)) : b.onPdResp p m t4
      = b.setPtp p { b.ptp p with resp := some ⟨ptpSeq m, (ptpTime m 34 : Int) - ptpCorr m, t4⟩ } := by
  rw [Box.onPdResp]
  dsimp only
  split
  next q t heq =>
    obtain rfl : ptpSeq m = q := congrArg Prod.fst (Option.some.inj (hreq.symm.trans heq))
    rw [if_pos ⟨h, htwo, rfl⟩]
  next hno => exact absurd hreq (hno _ _)

/-- A delay measurement taken. -/
def delayTaken (x : Ptp) (l : List Int) : Ptp := { x with req := none, resp := none, delays := l }

theorem onPdFollow_measures {q t1 : Nat} {r : PdResp} (h : b.measures p m = true) (hreq : (b.ptp p).req = some (q, some t1))
    (hresp : (b.ptp p).resp = some r) (hseq : r.seq = ptpSeq m) {l : List Int}
    (hl : ((b.ptp p).delays ++ [(((r.t4 : Int) - t1) * 3200 - ((ptpTime m 34 : Int) + ptpCorr m - r.t2)).tdiv 2]).drop
      ((b.ptp p).delays.length - 7) = l) : b.onPdFollow p m
      = if l.length = 8 then (b.setPtp p (delayTaken (b.ptp p) l)).wr (TGT_PORT_DELAY_DELAY p) ((medianEight l).tdiv 3200).toNat
        else b.setPtp p (delayTaken (b.ptp p) l) := by
  subst hl
  rw [Box.onPdFollow, hreq, hresp]
  dsimp only
  exact if_pos ⟨h, hseq⟩
end

/-! ### The messages on the machine before their head is taken -/

theorem headTaken_timeOnly (b : Box) (p : Nat) (rest : List Arrived) : timeOnly b (headTaken b p rest) := ⟨_, _, _, _, rfl⟩

/-- The machine with a message taken and its port's record replaced. -/
theorem headTaken_setPtp (b : Box) (p : Nat) (rest : List Arrived) (x : Ptp) : ∃ u, (headTaken b p rest).setPtp p x = u
    ∧ u = { b with ports := (b.setPort p { b.port p with ptp := rest }).ports, ptps := (b.setPtp p x).ptps } := ⟨_, rfl, rfl⟩

theorem headTaken_ctags (b : Box) (p : Nat) (rest : List Arrived) (q : Nat) :
    ((headTaken b p rest).port q).ctags = (b.port q).ctags := by
  by_cases h : q = p
  · subst h
    rw [headTaken, port_setPort]
  · rw [headTaken, port_setPort_other _ _ h]

section
variable {b : Box} {p : Nat} {rest : List Arrived} {m : List Byte}

theorem sync_relayed (h : b.relays p m = true) (htwo : ptpTwoStep m = true) (t2 : Nat) :
    timeOnly b ((headTaken b p rest).onSync p m t2) ∧ ∀ q, q < 2048 → if q ≠ p ∧ b.up q = true ∧ b.timeRole q = 3
      then (((headTaken b p rest).onSync p m t2).ptp q).relays
          = (b.ptp q).relays ++ [{ src := p, seq := ptpSeq m, ident := ptpIdent m, rx := t2 }]
        ∧ sentPtp b ((headTaken b p rest).onSync p m t2) q m
      else ((headTaken b p rest).onSync p m t2).ptp q = b.ptp q := by
  have hgone := headTaken_timeOnly b p rest
  have hmem (q : Nat) : q ∈ relayPorts (headTaken b p rest) p ↔ q < 2048 ∧ q ≠ p ∧ b.up q = true ∧ b.timeRole q = 3 :=
    mem_relayPorts (headTaken b p rest) p q
  have hbox := onSync_relayed (b := headTaken b p rest) (p := p) (m := m) h htwo t2
  obtain ⟨honly, hout, hin⟩ := timerSend_each (next := relayNoted p m t2) (msg := fun _ _ => m) (headTaken b p rest)
    (relayPorts_nodup (headTaken b p rest) p) fun _ _ _ _ => rfl
  rw [← hbox] at honly hout hin
  have hctags := headTaken_ctags b p rest
  have hptp (q : Nat) : (headTaken b p rest).ptp q = b.ptp q := rfl
  have hstaged (k : Nat) : (headTaken b p rest).staged k = b.staged k := rfl
  have hregs : (headTaken b p rest).regs = b.regs := rfl
  generalize (headTaken b p rest).onSync p m t2 = x at *
  generalize headTaken b p rest = g at *
  refine ⟨timeOnly_trans hgone honly, fun q hq => ?_⟩
  split
  case isTrue hq' =>
    obtain ⟨hsent, hnoted⟩ := hin q ((hmem q).mpr ⟨hq, hq'⟩)
    rw [hptp] at hnoted
    exact ⟨congrArg Ptp.relays hnoted, sentPtp_of_same hsent hregs (hctags q) (fun v _ => hstaged _) (sameSlot_refl q x)⟩
  case isFalse hq' => exact (hout q fun hmem' => hq' ((hmem q).mp hmem').2).2.1.trans (hptp q)

theorem followUp_relayed {q : Nat} {r : Relay} (h : b.relays p m = true) (hq : q < 2048) (hr : (b.ptp q).relays = [r]) (hsrc : r.src = p)
    (hseq : r.seq = ptpSeq m) (hident : r.ident = ptpIdent m) (hfu : r.fu = none) :
    (r.tx = none → (((headTaken b p rest).onFollowUp p m).ptp q).relays = [{ r with fu := some m }])
      ∧ ∀ tx, r.tx = some tx → (((headTaken b p rest).onFollowUp p m).ptp q).relays = []
        ∧ sentPtp b ((headTaken b p rest).onFollowUp p m) q
            (ptpWithCorr m (ptpCorr m + b.pathDelay p + ((tx : Int) - r.rx) * 3200)) := by
  have hawaits : awaits p m r = true := by simp [awaits, hsrc, hseq, hident, hfu]
  have hrelays : ((headTaken b p rest).ptp q).relays = [r] := hr
  have hmem : q ∈ awaiting (headTaken b p rest) p m := List.mem_filter.mpr ⟨List.mem_range.mpr hq, by rw [hrelays]; simp [hawaits]⟩
  have hbox := onFollowUp_relayed (b := headTaken b p rest) (p := p) (m := m) h (List.ne_nil_of_mem hmem)
  obtain ⟨-, -, hin⟩ := foldl_slots relayOnly_refl relayOnly_trans (followRelay_slot p m)
    (awaiting_nodup (headTaken b p rest) p m) (headTaken b p rest)
  rw [← hbox] at hin
  have hctags := headTaken_ctags b p rest q
  have hgone : relayOnly b (headTaken b p rest) := ⟨headTaken_timeOnly b p rest, fun _ => rfl⟩
  have hstaged (k : Nat) : (headTaken b p rest).staged k = b.staged k := rfl
  generalize (headTaken b p rest).onFollowUp p m = x at *
  generalize headTaken b p rest = g at *
  obtain ⟨c, hc, hslot, hdone⟩ := hin q hmem
  have hone : ((c.setPtp q (followed p m (c.ptp q))).ptp q).relays = [{ r with fu := some m }] := by
    rw [ptp_setPtp]
    simp [followed, hslot.2.1, hrelays, hawaits]
  have hnoted := setPtp_relayOnly c q (x := followed p m (c.ptp q)) rfl
  refine ⟨fun htx => ?_, fun tx htx => ?_⟩
  · exact (congrArg Ptp.relays hdone.2.1).trans (relaySettle_waits hone htx)
  · have hgoes := relaySettle_goes (m := m) (tx := tx) hone htx rfl
    have hdelay : (c.setPtp q (followed p m (c.ptp q))).pathDelay r.src = b.pathDelay p := by
      rw [hsrc]
      exact pathDelay_of_relayOnly (relayOnly_trans hgone (relayOnly_trans hc hnoted)) p
    rw [followRelay, hgoes] at hdone
    refine ⟨(congrArg Ptp.relays hdone.2.1).trans ?_, ?_⟩
    · rw [sendPtp_ptp, ptp_setPtp]
    · rw [← hdelay]
      refine sentPtp_of_same (sendPtp_sent _ _ _) ?_ ?_ ?_ hdone
      · exact timeOnly_regs (timeOnly_trans (timeOnly_trans hgone.1 (timeOnly_trans hc.1 hnoted.1)) (setPtp_timeOnly _ q _))
      · exact (congrArg Port.ctags hslot.1).trans hctags
      · exact fun v hv => (hslot.2.2 v hv).trans (hstaged _)

theorem pdelayReq_shows (h : b.measures p m = true) (t2 : Nat) :
    (((headTaken b p rest).onPdReq p m t2).ptp p).answer = (b.ptp p).answer ++ [(ptpSeq m, ptpIdent m, ptpCorr m)]
      ∧ sentPtp b ((headTaken b p rest).onPdReq p m t2) p (b.portMsg p 3 0x0200 (-((ptpFrac (unitsOf t2) : Nat) : Int)) (ptpSeq m)
          (ptpStamp (unitsOf t2) ++ ptpIdent m))
      ∧ timeOnly b ((headTaken b p rest).onPdReq p m t2) := by
  have hbox := onPdReq_measures (b := headTaken b p rest) (p := p) (m := m) h t2
  have hmsg : (headTaken b p rest).portMsg p 3 0x0200 (-((ptpFrac (unitsOf t2) : Nat) : Int)) (ptpSeq m)
      (ptpStamp (unitsOf t2) ++ ptpIdent m) = b.portMsg p 3 0x0200 (-((ptpFrac (unitsOf t2) : Nat) : Int)) (ptpSeq m)
        (ptpStamp (unitsOf t2) ++ ptpIdent m) := rfl
  have hctags := headTaken_ctags b p rest p
  have hgone := headTaken_timeOnly b p rest
  have hptp : (headTaken b p rest).ptp p = b.ptp p := rfl
  have hstaged (k : Nat) : (headTaken b p rest).staged k = b.staged k := rfl
  rw [hbox, hmsg, hptp]
  generalize headTaken b p rest = g at *
  refine ⟨?_, ?_, timeOnly_trans hgone (timeOnly_trans (setPtp_timeOnly g p _) (sendPtp_timeOnly _ p _))⟩
  · rw [sendPtp_ptp, ptp_setPtp]
    rfl
  · exact sentPtp_of_same (s' := g.setPtp p (asked m (b.ptp p))) (sendPtp_sent _ _ _) (timeOnly_regs (timeOnly_trans hgone (setPtp_timeOnly g p _))) hctags (fun v _ => hstaged _) (sameSlot_refl _ _)

theorem pdFollow_shows {q t1 : Nat} {r : PdResp} (h : b.measures p m = true) (hreq : (b.ptp p).req = some (q, some t1))
    (hresp : (b.ptp p).resp = some r) (hseq : r.seq = ptpSeq m) {l : List Int}
    (hl : ((b.ptp p).delays ++ [(((r.t4 : Int) - t1) * 3200 - ((ptpTime m 34 : Int) + ptpCorr m - r.t2)).tdiv 2]).drop
      ((b.ptp p).delays.length - 7) = l) : (((headTaken b p rest).onPdFollow p m).ptp p).delays = l
      ∧ (((headTaken b p rest).onPdFollow p m).ptp p).req = none
      ∧ (l.length = 8 → ((headTaken b p rest).onPdFollow p m).rd (TGT_PORT_DELAY_DELAY p) = ((medianEight l).tdiv 3200).toNat % 2 ^ 24)
      ∧ (l.length ≠ 8 → ((headTaken b p rest).onPdFollow p m).regs = b.regs)
      ∧ (∃ pt rg, (headTaken b p rest).onPdFollow p m
          = { b with ports := (b.setPort p { b.port p with ptp := rest }).ports, ptps := pt, regs := rg })
      ∧ sameWords [TGT_PORT_DELAY_at p] b ((headTaken b p rest).onPdFollow p m) := by
  have hbox := onPdFollow_measures (b := headTaken b p rest) (p := p) h hreq hresp hseq hl
  have hptp : (Box.setPtp (headTaken b p rest) p (delayTaken (b.ptp p) l)).ptp p = delayTaken (b.ptp p) l := ptp_setPtp _ _ _
  obtain ⟨u, hu, hframe⟩ := headTaken_setPtp b p rest (delayTaken (b.ptp p) l)
  have hregs : u.regs = b.regs := by rw [hframe]
  rw [hu] at hptp
  change (headTaken b p rest).onPdFollow p m = if l.length = 8
    then ((headTaken b p rest).setPtp p (delayTaken (b.ptp p) l)).wr (TGT_PORT_DELAY_DELAY p) ((medianEight l).tdiv 3200).toNat
    else (headTaken b p rest).setPtp p (delayTaken (b.ptp p) l) at hbox
  rw [hu] at hbox
  rw [hbox]
  by_cases hlen : l.length = 8
  · rw [if_pos hlen]
    refine ⟨congrArg Ptp.delays hptp, congrArg Ptp.req hptp, fun _ => rd_wr _ _ _ (show 0 + 24 ≤ 32 by decide), fun h => absurd hlen h,
      ⟨u.ptps, (u.wr (TGT_PORT_DELAY_DELAY p) ((medianEight l).tdiv 3200).toNat).regs, ?_⟩, fun a ha => ?_⟩
    · rw [hframe]
      rfl
    · rw [wr_sameWords u (TGT_PORT_DELAY_DELAY p) _ a ha, Box.word, Box.word, hregs]
  · rw [if_neg hlen]
    exact ⟨congrArg Ptp.delays hptp, congrArg Ptp.req hptp, fun h => absurd h hlen, fun _ => hregs, ⟨u.ptps, u.regs, by rw [hframe]⟩,
      fun a _ => by rw [Box.word, Box.word, hregs]⟩

end

section
variable {s : State} {p : Slot} {a : Arrived} {rest : List Arrived} (hrun : s.phase = .run)
include hrun

/-- A command whose port's head is of its type. -/
theorem exec_head {c : Instr} {ty : Nat} (f : List Byte → Nat → Box → Box) (hc : exec c s = s.actRun fun b => b.ptpTake p.toNat ty f)
    (hhead : timeHead s.toBox p.toNat ty a rest) (hty : ty ∈ ptpTypes) {x : Box}
    (hx : f (frPayload a.frame) (stamp32 a.stamp) (headTaken s.toBox p.toNat rest) = x) : exec c s = .next (s.onBox fun _ => x) :=
  next_onBox (hc.trans (actRun_run s _ hrun)) ((ptpTake_head hhead hty f).trans hx)

theorem exec_sync {x : Box} (hhead : timeHead s.toBox p.toNat 0 a rest)
    (hx : (headTaken s.toBox p.toNat rest).onSync p.toNat (frPayload a.frame) (stamp32 a.stamp) = x) :
    exec (.sync p) s = .next (s.onBox fun _ => x) := exec_head hrun (fun m t c => c.onSync p.toNat m t) rfl hhead (by decide) hx

theorem exec_followUp {x : Box} (hhead : timeHead s.toBox p.toNat 8 a rest)
    (hx : (headTaken s.toBox p.toNat rest).onFollowUp p.toNat (frPayload a.frame) = x) :
    exec (.followUp p) s = .next (s.onBox fun _ => x) := exec_head hrun (fun m _ c => c.onFollowUp p.toNat m) rfl hhead (by decide) hx

end

/-- Settles O48: each message is its head taken and what its handler makes of it. -/
theorem timeMessagesDriveTheServo : Obligations.TimeMessagesDriveTheServo := by
  unfold Obligations.TimeMessagesDriveTheServo
  intro s p a rest hrun
  refine ⟨fun c hc hhead hbad => ?_, fun hhead hpar htwo htakes => ?_, fun c t2 hhead hpar hsync => ?_, fun hhead hrel htwo => ?_,
    fun q r hhead hrel hq hr hsrc hseq hident hfu => ?_, fun hhead hmeas => ?_, fun t1 hhead hmeas htwo hreq => ?_,
    fun q t1 r hhead hmeas hreq hresp hseq => ?_⟩
  · have hact : ∃ ty f, exec c s = s.actRun fun b => b.ptpTake p.toNat ty f := by
      simp only [List.mem_cons, List.not_mem_nil, or_false] at hc
      rcases hc with rfl | rfl | rfl | rfl | rfl <;> exact ⟨_, _, rfl⟩
    obtain ⟨ty, f, hact⟩ := hact
    obtain ⟨t, ht, hctr, r, o, ct, rfl⟩ := exec_counts (hact.trans (actRun_run s _ hrun)) (ptpTake_discards hhead hbad f) fun _ _ => rfl
    exact ⟨_, ht, hctr, rfl⟩
  · exact exec_sync hrun hhead (onSync_parent (b := headTaken s.toBox p.toNat rest) hpar htwo htakes _)
  · have htakes (k : Nat) (hk : 2 ≤ k ∧ k ≤ 4) (hst : s.servoState = k) : (headTaken s.toBox p.toNat rest).servoTakes = true := by
      have hst' : (headTaken s.toBox p.toNat rest).servoState = k := hst
      simp [Box.servoTakes, hst', hk]
    have hexec (k : Nat) (hk : 2 ≤ k ∧ k ≤ 4) (hst : s.servoState = k) := exec_followUp hrun hhead
      (onFollowUp_parent (b := headTaken s.toBox p.toNat rest) hpar hsync (htakes k hk hst))
    have ho : offsetOf (headTaken s.toBox p.toNat rest) p.toNat (frPayload a.frame) c t2
        = ((ptpTime (frPayload a.frame) 34 : Int) + c + ptpCorr (frPayload a.frame) + s.pathDelay p.toNat
          + toSigned 16 (s.rd (TGT_PORT_ASYM_ASYM p.toNat)) * 3200 - (unitsOf t2 : Nat)).tdiv 3200 := rfl
    dsimp only
    rw [← ho]
    generalize offsetOf (headTaken s.toBox p.toNat rest) p.toNat (frPayload a.frame) c t2 = o at *
    obtain ⟨u, hu, hframe⟩ := headTaken_setPtp s.toBox p.toNat rest { s.ptp p.toNat with sync := none }
    have hregs : u.regs = s.regs := by rw [hframe]
    have hexec (k : Nat) (hk : 2 ≤ k ∧ k ≤ 4) (hst : s.servoState = k) : exec (.followUp p) s = .next (s.onBox fun _ => u.servoMeasure o) := by
      rw [← hu]
      exact hexec k hk hst
    have hstate : u.servoState = s.servoState := rd_of_regs hregs _
    have hoob : u.rd TGT_SERVO_GAIN_OOB = s.rd TGT_SERVO_GAIN_OOB := rd_of_regs hregs _
    have hservo : u.servo = s.servo := by rw [hframe]
    refine ⟨fun hst hl => ?_, fun hst hl => ?_, fun hst hsmall => ?_, fun hst hlarge => ?_, fun hst => ?_⟩
    · rw [hexec 2 (by decide) hst, servoMeasure_collect (hstate.trans hst) (by rw [hservo]; exact hl), hframe]
      rfl
    · rw [hexec 2 (by decide) hst, servoMeasure_eighth (hstate.trans hst) (by rw [hservo]; exact hl), hframe]
      rfl
    · rw [hexec 3 (by decide) hst, servoMeasure_track_small (hstate.trans hst) (by rw [hoob]; exact hsmall), trackOffset_small (b := measured u) (show _ ≤ 32 * u.rd TGT_SERVO_GAIN_OOB by rw [hoob]; exact hsmall),
        hframe]
      rfl
    · obtain ⟨happlies, hinteg, hrest⟩ := servoMeasure_track_large (b := u) (hstate.trans hst) (by rw [hoob]; exact hlarge)
      rw [hservo] at hinteg hrest
      exact ⟨_, hexec 3 (by decide) hst, happlies.trans (by rw [hframe]), hinteg, hrest⟩
    · refine ⟨_, hexec 4 (by decide) hst, ?_⟩
      rw [← hoob]
      exact servoMeasure_holdover (hstate.trans hst)
  · obtain ⟨honly, hports⟩ := sync_relayed (b := s.toBox) (rest := rest) hrel htwo (stamp32 a.stamp)
    have hexec := exec_sync hrun hhead rfl
    generalize (headTaken s.toBox p.toNat rest).onSync p.toNat (frPayload a.frame) (stamp32 a.stamp) = x at *
    obtain ⟨_, _, _, _, rfl⟩ := honly
    exact ⟨_, hexec, rfl, hports⟩
  · obtain ⟨hwaits, hgoes⟩ := followUp_relayed (b := s.toBox) (rest := rest) hrel hq hr hsrc hseq hident hfu
    exact ⟨_, exec_followUp hrun hhead rfl, hwaits, hgoes⟩
  · obtain ⟨hanswer, hsent, honly⟩ := pdelayReq_shows (b := s.toBox) (rest := rest) hmeas (stamp32 a.stamp)
    have hexec := exec_head hrun (fun m t c => c.onPdReq p.toNat m t) (c := .pdelayReq p) rfl hhead (by decide) rfl
    generalize (headTaken s.toBox p.toNat rest).onPdReq p.toNat (frPayload a.frame) (stamp32 a.stamp) = x at *
    obtain ⟨_, _, _, _, rfl⟩ := honly
    exact ⟨_, hexec, hanswer, hsent, rfl⟩
  · exact exec_head hrun (fun m t c => c.onPdResp p.toNat m t) (c := .pdelayResp p) rfl hhead (by decide)
      (onPdResp_measures (b := headTaken s.toBox p.toNat rest) hmeas htwo hreq)
  · obtain ⟨l, hl⟩ : ∃ l, ((s.ptp p.toNat).delays ++ [(((r.t4 : Int) - t1) * 3200
        - ((ptpTime (frPayload a.frame) 34 : Int) + ptpCorr (frPayload a.frame) - r.t2)).tdiv 2]).drop
          ((s.ptp p.toNat).delays.length - 7) = l := ⟨_, rfl⟩
    obtain ⟨hdelays, hnone, hshown, hkept, hframe, hwords⟩ := pdFollow_shows (b := s.toBox) (rest := rest) hmeas hreq hresp hseq hl
    have hexec := exec_head hrun (fun m _ c => c.onPdFollow p.toNat m) (c := .pdelayRespFollowUp p) rfl hhead (by decide) rfl
    dsimp only
    rw [hl]
    generalize (headTaken s.toBox p.toNat rest).onPdFollow p.toNat (frPayload a.frame) = x at *
    obtain ⟨pt, rg, rfl⟩ := hframe
    exact ⟨_, hexec, hdelays, hnone, hshown, hkept, rfl, hwords⟩

end Sys2Proof.Proofs
end

section
/-!
# A replica reloaded under a bypass window
-/

namespace Sys2Proof.Proofs
open Sys2Proof Sys2Proof.Machine Sys2Proof.Safety Sys2Proof.Laws

/-- A device whose port 0 runs a gate list in a bypass window, with tent 0's replica a tick ahead and its reload due. -/
def reloadInWindow : State :=
  { State.reset with
      raw := 640000000
      regs := [(CAL_GL_STATUS_at 0, 2)]
      cals := [(0, { window := .dark })]
      repl := [(0, 1)] }

/-- The reload is a discontinuity: it ends the window, and the port stays dark while it realigns. -/
theorem reloadInWindow_ends : ((reloadInWindow.toBox.replicaReload 0).port 0).darkTill = some 640005120 := by decide +kernel

/-- Refutes O51: a replica's reload is a discontinuity of its tent, which ends a bypass window on a port whose gate list runs; the
port's own state changes as well as the calendar's. -/
theorem not_pinsAndReplicasFollowTime : ¬ Obligations.PinsAndReplicasFollowTime := by
  unfold Obligations.PinsAndReplicasFollowTime
  intro h
  obtain ⟨-, -, hreplica⟩ := h reloadInWindow
  obtain ⟨-, -, -, -, hreload, -⟩ := hreplica 0 rfl
  obtain ⟨t, ht, -, -, -, hframe⟩ := hreload (by decide) (by decide)
  have hrun : t = reloadInWindow.onBox fun b => b.replicaReload 0 :=
    Host.Outcome.next.inj (ht.symm.trans (actRun_run reloadInWindow (fun b => b.replicaReload 0) rfl))
  have hports : t.ports = [] := by rw [hframe]; rfl
  have hdark : (t.port 0).darkTill = some 640005120 := by
    rw [hrun, onBox_port]
    exact reloadInWindow_ends
  rw [Box.port, hports] at hdark
  exact absurd hdark (by decide)

end Sys2Proof.Proofs
end

section
/-!
# The memory device mailbox and DOE

Every command of the mailbox answers through the same gate of the host's requester (section 14.4).
-/

namespace Sys2Proof.Proofs

open Sys2Proof Sys2Proof.Machine Sys2Proof.Safety Sys2Proof.Laws

variable {s : State}

/-- The driver's command with effect `f` on a running device it reaches ends in the state that `f` gives. -/
theorem actHost_onBox {f : Box → Box} {b : Box} (hrun : s.phase = .run) (hreach : s.reaches .driver = true)
    (hf : f s.toBox = b) : s.actHost .driver f = .next { s with toBox := b.anchored s.toBox } :=
  (actHost_run s f .driver hrun hreach).trans (by rw [State.onBox, hf])

/-- A DOE mailbox that is not Busy takes an object: the object's effect on the box that shows it Busy. -/
theorem doeRequest_free {b : Box} {inst : Nat} (h : inst ∉ b.doeBusy) {r : DoeReq} (hr : doeTooLarge r = false) :
    b.doeRequest inst r = Box.doeAnswer { b with doeBusy := inst :: b.doeBusy } inst r := by
  rw [Box.doeRequest, Box.doeTake, if_neg (by simpa using h), if_neg (by simp [hr])]

theorem doeRequest_busy {b : Box} {inst : Nat} (h : inst ∈ b.doeBusy) (r : DoeReq) : b.doeRequest inst r = b := by
  rw [Box.doeRequest, Box.doeTake, if_pos (by simpa using h)]

/-- An object that is too large leaves the DOE mailbox free, with its Error bit set. -/
theorem doeRequest_tooLarge {b : Box} {inst : Nat} (h : inst ∉ b.doeBusy) {r : DoeReq} (hr : doeTooLarge r = true) :
    ∃ e, inst ∈ e ∧ b.doeRequest inst r = { b with doeError := e } := by
  rw [Box.doeRequest, Box.doeTake, if_neg (by simpa using h), if_pos hr]
  refine ⟨_, ?_, rfl⟩
  split
  next hmem => simpa using hmem
  next => exact List.mem_cons_self

/-- Settles O57: each mailbox command is its answer; a DOE object is answered, discarded or refused by its mailbox's state. -/
theorem mailboxAndDoeAnswer : Obligations.MailboxAndDoeAnswer := by
  intro s hrun hreach answered
  have hact (f : Box → Box) {b : Box} (hf : f s.toBox = b) : s.actHost .driver f = .next { s with toBox := b.anchored s.toBox } :=
    actHost_onBox hrun hreach hf
  have hdoe {inst : Bool} {r : DoeReq} {b : Box} (hf : s.toBox.doeRequest (b2n inst) r = b) :
      exec (.doeRequest inst r) s = .next { s with toBox := b.anchored s.toBox } := hact (fun b => b.doeRequest (b2n inst) r) hf
  refine ⟨hact _ rfl, fun n hn => hact (fun b => b.clearEvents n) (if_pos hn),
    fun n hn => hact (fun b => b.clearEvents n) (if_neg (Nat.not_le.mpr hn)), hact _ rfl, fun ns => ?_, hact _ rfl,
    fun offset len => hact _ rfl, hact _ rfl, hact _ rfl,
    fun op hop => hact (fun b => if op.toNat ∈ mailboxOpcodes then b else b.answer .mboxUnsupported) (if_neg hop), fun inst => ?_⟩
  · refine ⟨_, hact _ rfl, rfl, ?_⟩
    show ns.toNat + (s.raw - s.raw) * 25 / 16 = ns.toNat
    simp
  intro busy
  refine ⟨fun hfree => ⟨hdoe (doeRequest_free hfree rfl), ?_, fun h hinst => ?_, fun r hr => ?_⟩,
    fun hbusy r => hdoe (doeRequest_busy hbusy r), hact _ rfl⟩
  · cases inst with
    | false => exact hdoe (doeRequest_free hfree rfl)
    | true => exact hdoe (doeRequest_free hfree rfl)
  · subst hinst
    exact hdoe (doeRequest_free hfree rfl)
  · obtain ⟨e, he, heq⟩ := doeRequest_tooLarge hfree hr
    exact ⟨_, hdoe heq, he, rfl⟩

end Sys2Proof.Proofs
end

section
/-!
# Words that interrupts, counters and error indications leave

Raising a cause writes its page's INT_PEND and the pending bit of a vector, counting also an overflow bit of the page. Every
other word of a page, and every word of the ports' own pages, stays (sections 16.2 and 13.1).
-/

namespace Sys2Proof.Proofs

open Sys2Proof Sys2Proof.Machine Sys2Proof.Safety Sys2Proof.Laws

/-- A word outside the header, the overflow words and the vector table. -/
abbrev bodyWord (a : Nat) : Prop :=
  (0x100 ≤ a % 0x10000 ∧ (a % 0x10000 < 0x1100 ∨ 0x1400 ≤ a % 0x10000) ∧ a / 0x10000 ≠ 0xF2) ∨ 0x9000000 ≤ a

theorem errorWords_not_body {p : Nat} (hp : p < 2304) {a : Nat} (ha : a ∈ errorWords p) : ¬ bodyWord a := by
  have hvector := pageVector_lt hp
  have hmod := pageBase_mod p
  have hlt := pageBase_lt hp
  simp only [errorWords, causeWords, List.mem_cons, List.not_mem_nil, or_false] at ha
  omega

theorem causeWords_not_body {p : Nat} (hp : p < 2304) {a : Nat} (ha : a ∈ causeWords p) : ¬ bodyWord a :=
  errorWords_not_body hp (List.mem_cons_of_mem _ ha)

theorem raiseInt_body (b : Box) {p : Nat} (hp : p < 2304) (bit : Nat) : sameOn bodyWord b (b.raiseInt p bit) :=
  sameOn_of_sameWords (raiseInt_sameWords b p bit) fun _ ha => causeWords_not_body hp ha

theorem bump_body (b : Box) {p : Nat} (hp : p < 2304) {i : Nat} (hi : i < 4096) (n : Nat) : sameOn bodyWord b (b.bump p i n) := by
  refine sameOn_of_sameWords (bump_sameWords b p i n) fun a ha => ?_
  rcases List.mem_cons.mp ha with rfl | ha
  · have hmod := pageBase_mod p
    have hlt := pageBase_lt hp
    simp only [ovfFld, pageFld]
    omega
  · exact causeWords_not_body hp ha

theorem count_body (b : Box) {p : Nat} (hp : p < 2304) {i : Nat} (hi : i < 4096) : sameOn bodyWord b (b.count p i) :=
  bump_body b hp hi 1

theorem accErr_body (b : Box) {p : Nat} (hp : p < 2304) (off : Nat) (src : Requester) : sameOn bodyWord b (b.accErr p off src) :=
  sameOn_of_sameWords (accErr_sameWords b p off src) fun _ ha => errorWords_not_body hp ha

theorem rsvWrite_body (b : Box) {p : Nat} (hp : p < 2304) (off : Nat) (src : Requester) :
    sameOn bodyWord b (b.rsvWrite p off src) :=
  sameOn_of_sameWords (rsvWrite_sameWords b p off src) fun _ ha => errorWords_not_body hp ha

theorem rsvCheck_body (b : Box) (src : Requester) {a : Nat} (hp : wordPage a < 2304) (v : Nat) :
    sameOn bodyWord b (b.rsvCheck src a v) :=
  sameOn_of_sameWords (rsvCheck_sameWords b src a v) fun _ ha => errorWords_not_body hp ha

theorem pageVector_word_lt {p : Nat} (hp : p < 2304) : pageVector p / 32 < 0x1000 := by
  have := pageVector_lt hp
  omega

/-- A command that only shows the access error of its register. -/
theorem exec_accErr {s : State} {r : Result} {f : Box → Box} {p off : Nat} {src : Requester} (hr : r = .next (s.onBox f))
    (hf : f s.toBox = s.toBox.accErr p off src) (hp : p < 2304) : ∃ t, r = .next t ∧ t.is (PAGE_ERR_ACCERR p) = true
      ∧ t = { s with regs := t.regs, outbox := t.outbox } ∧ sameWords (errorWords p) s.toBox t.toBox := by
  have hset := accErr_sets s.toBox (pageVector_word_lt hp) off src
  have hwords := accErr_sameWords s.toBox p off src
  obtain ⟨rg, o, hbox⟩ := accErr_onlyRegs s.toBox p off src
  rw [hbox] at hf hset hwords
  exact ⟨_, next_onBox hr hf, hset, rfl, hwords⟩

/-- A command that only shows a reserved write of its register. -/
theorem exec_rsvWrite {s : State} {r : Result} {f : Box → Box} {p off : Nat} {src : Requester} (hr : r = .next (s.onBox f))
    (hf : f s.toBox = s.toBox.rsvWrite p off src) (hp : p < 2304) : ∃ t, r = .next t ∧ t.is (PAGE_ERR_RSVW p) = true
      ∧ t = { s with regs := t.regs, outbox := t.outbox } ∧ sameWords (errorWords p) s.toBox t.toBox := by
  have hset := rsvWrite_sets s.toBox (pageVector_word_lt hp) off src
  have hwords := rsvWrite_sameWords s.toBox p off src
  obtain ⟨rg, o, hbox⟩ := rsvWrite_onlyRegs s.toBox p off src
  rw [hbox] at hf hset hwords
  exact ⟨_, next_onBox hr hf, hset, rfl, hwords⟩

/-- The base of a tent's page. -/
theorem pageBase_tentPage {t c : Nat} (ht : t < 8) (hc : c < 256) :
    pageBase (tentPage t c) = 0x1000000 * (t + 1) + 0x10000 * c := by
  have hdiv : tentPage t c / 256 = t := show (256 * t + c) / 256 = t by omega
  have hmod : tentPage t c % 256 = c := show (256 * t + c) % 256 = c by omega
  rw [pageBase, hdiv, hmod, if_neg (Nat.ne_of_lt ht), Nat.mul_comm c]

/-- A word of a tent's page names that page. -/
theorem wordPage_tentPage {t c off : Nat} (ht : t < 8) (hc : c < 256) (hoff : off < 0x10000) :
    wordPage (0x1000000 * (t + 1) + 0x10000 * c + off) = tentPage t c :=
  (congrArg wordPage (congrArg (· + off) (pageBase_tentPage ht hc).symm)).trans (wordPage_pageBase ((tentPage_lt ht hc).trans (by decide)) hoff)

/-- What a plain write of a body word stores. -/
theorem plainWrite_word (b : Box) (src : Requester) {a : Nat} (hp : wordPage a < 2304) (ha : bodyWord a) (v : Nat) :
    (b.plainWrite src a v).word a = BitVec.ofNat 32 (writtenWord (maskAt a) (b.word a).toNat v) := by
  simp only [Box.plainWrite, word_setWord]
  rw [rsvCheck_body b src hp v a ha]

end Sys2Proof.Proofs
end

section
/-! # Occupancy monitors (section 13.4) -/

namespace Sys2Proof.Proofs

open Sys2Proof Sys2Proof.Machine Sys2Proof.Safety Sys2Proof.Laws

/-- The two registers of a monitor that its configuration command writes, and its maximum, are body words of its page. -/
theorem occ_words {t m : Nat} (ht : t < 8) (hm : m < 16) :
    wordPage (BRK_OCC_N_at t m) = brkPage t ∧ wordPage (BRK_OCC_CFG_at t m) = brkPage t
      ∧ bodyWord (BRK_OCC_N_at t m) ∧ bodyWord (BRK_OCC_CFG_at t m) ∧ bodyWord (BRK_OCC_MAX_at t m) := by
  have hpage (off : Nat) (h : off < 0x10000) := wordPage_tentPage (c := 0x0E) (off := off) ht (by decide) h
  refine ⟨?_, ?_, ?_⟩
  · exact (congrArg wordPage (by rw [BRK_OCC_N_at]; omega)).trans (hpage (0x404 + 16 * m) (by omega))
  · exact (congrArg wordPage (by rw [BRK_OCC_CFG_at]; omega)).trans (hpage (0x400 + 16 * m) (by omega))
  · simp only [bodyWord, BRK_OCC_N_at, BRK_OCC_CFG_at, BRK_OCC_MAX_at]
    omega

/-! ### A tick of a monitor -/

/-- What a monitor counts at a tick: one tick above its threshold, and one episode where it was not above it before. -/
def occCounted (b : Box) (t m : Nat) (above was : Bool) : Box :=
  let c := if above then b.count (brkPage t) (32 + 2 * m) else b
  if above && !was then
    if b.is (BRK_OCC_CFG_IE t m) then (c.count (brkPage t) (33 + 2 * m)).raiseInt (brkPage t) 0
    else c.count (brkPage t) (33 + 2 * m)
  else c

section tick

variable {b : Box} {t m : Nat}

theorem occTick_eq (hen : b.is (BRK_OCC_CFG_EN t m) = true) {above was : Bool} {q : Nat}
    (hq : b.occQuantity t (b.rd (BRK_OCC_CFG_SRC t m)) (b.rd (BRK_OCC_CFG_INDEX t m)) = q)
    (habove : decide (b.rd (BRK_OCC_N_N t m) < q) = above) (hwas : mapGet (fun _ => false) b.occs (16 * t + m) = was) :
    b.occTick t m = Box.wr { occCounted b t m above was with
      occs := mapSet (fun _ => false) (occCounted b t m above was).occs (16 * t + m) above } (BRK_OCC_MAX_MAX t m)
        (max ((occCounted b t m above was).rd (BRK_OCC_MAX_MAX t m)) (min q 0xFFFFFFFF)) := by
  subst hq habove hwas
  exact if_neg (by simp [hen])

/-- What the counts of a tick change. -/
theorem occCounted_shows (ht : t < 8) (hm : m < 16) (above was : Bool) :
    (occCounted b t m above was).ctr (brkPage t) (32 + 2 * m)
        = (if above then b.ctr (brkPage t) (32 + 2 * m) + 1 else b.ctr (brkPage t) (32 + 2 * m))
      ∧ (occCounted b t m above was).ctr (brkPage t) (33 + 2 * m)
        = (if above && !was then b.ctr (brkPage t) (33 + 2 * m) + 1 else b.ctr (brkPage t) (33 + 2 * m))
      ∧ sameOn bodyWord b (occCounted b t m above was)
      ∧ (above = true → was = false → b.is (BRK_OCC_CFG_IE t m) = true →
          (occCounted b t m above was).is (pageFld (brkPage t) 16 0 1) = true)
      ∧ onlyRegsCtrs b (occCounted b t m above was) := by
  have hp : brkPage t < 2304 := (tentPage_lt ht (by decide)).trans (by decide)
  have hne : brkPage t * 4096 + (33 + 2 * m) ≠ brkPage t * 4096 + (32 + 2 * m) :=
    fun h => absurd (Nat.add_left_cancel h) (by omega)
  have hthis := count_ctr_succ b (brkPage t) (32 + 2 * m)
  have hother := ctr_bump_other b (brkPage t) (brkPage t) (32 + 2 * m) (33 + 2 * m) 1 hne
  have hbody := count_body b hp (show 32 + 2 * m < 4096 by omega)
  have honly := bump_onlyRegsCtrs b (brkPage t) (32 + 2 * m) 1
  cases above with
  | false => exact ⟨rfl, rfl, sameOn_refl _ _, by simp, onlyRegsCtrs_refl b⟩
  | true =>
    cases was with
    | true => exact ⟨hthis, hother, hbody, by simp, honly⟩
    | false =>
      let c := b.count (brkPage t) (32 + 2 * m)
      have hfirst := (ctr_bump_other c (brkPage t) (brkPage t) (33 + 2 * m) (32 + 2 * m) 1 hne.symm).trans hthis
      have hsecond := (count_ctr_succ c (brkPage t) (33 + 2 * m)).trans (congrArg (· + 1) hother)
      have hbody2 := sameOn_trans hbody (count_body c hp (show 33 + 2 * m < 4096 by omega))
      have honly2 := onlyRegsCtrs_trans honly (bump_onlyRegsCtrs c (brkPage t) (33 + 2 * m) 1)
      by_cases hie : b.is (BRK_OCC_CFG_IE t m) = true
      · have hcounted : occCounted b t m true false = (c.count (brkPage t) (33 + 2 * m)).raiseInt (brkPage t) 0 := if_pos hie
        have hraise := raiseInt_onlyRegs (c.count (brkPage t) (33 + 2 * m)) (brkPage t) 0
        rw [hcounted]
        refine ⟨(ctr_of_onlyRegs hraise _ _).trans hfirst, (ctr_of_onlyRegs hraise _ _).trans hsecond,
          sameOn_trans hbody2 (raiseInt_body _ hp 0), fun _ _ _ => raiseInt_sets _ _ _ (by decide) ?_,
          onlyRegsCtrs_trans honly2 hraise.toCtrs⟩
        have := pageVector_lt hp
        omega
      · have hcounted : occCounted b t m true false = c.count (brkPage t) (33 + 2 * m) := if_neg hie
        rw [hcounted]
        exact ⟨hfirst, hsecond, hbody2, fun _ _ h => absurd h hie, honly2⟩

/-- What a tick of an enabled monitor changes. -/
theorem occTick_shows (ht : t < 8) (hm : m < 16) (hen : b.is (BRK_OCC_CFG_EN t m) = true) {above was : Bool} {q : Nat}
    (hq : b.occQuantity t (b.rd (BRK_OCC_CFG_SRC t m)) (b.rd (BRK_OCC_CFG_INDEX t m)) = q)
    (habove : decide (b.rd (BRK_OCC_N_N t m) < q) = above) (hwas : mapGet (fun _ => false) b.occs (16 * t + m) = was) :
    (b.occTick t m).ctr (brkPage t) (32 + 2 * m)
        = (if above then b.ctr (brkPage t) (32 + 2 * m) + 1 else b.ctr (brkPage t) (32 + 2 * m))
      ∧ (b.occTick t m).ctr (brkPage t) (33 + 2 * m)
        = (if above && !was then b.ctr (brkPage t) (33 + 2 * m) + 1 else b.ctr (brkPage t) (33 + 2 * m))
      ∧ (b.occTick t m).rd (BRK_OCC_MAX_MAX t m) = max (b.rd (BRK_OCC_MAX_MAX t m)) (min q 0xFFFFFFFF)
      ∧ (above = true → was = false → b.is (BRK_OCC_CFG_IE t m) = true →
          (b.occTick t m).is (pageFld (brkPage t) 16 0 1) = true)
      ∧ ∃ r o c, b.occTick t m
        = { b with regs := r, outbox := o, ctrs := c, occs := mapSet (fun _ => false) b.occs (16 * t + m) above } := by
  obtain ⟨hticks, hepisodes, hbody, hint, honly⟩ := occCounted_shows (b := b) ht hm above was
  rw [occTick_eq hen hq habove hwas]
  generalize occCounted b t m above was = c at *
  have hmaxword : bodyWord (BRK_OCC_MAX_at t m) := (occ_words ht hm).2.2.2.2
  have hold : c.rd (BRK_OCC_MAX_MAX t m) = b.rd (BRK_OCC_MAX_MAX t m) := rd_of_sameOn hbody hmaxword
  have hlt : max (c.rd (BRK_OCC_MAX_MAX t m)) (min q 0xFFFFFFFF) < 2 ^ 32 :=
    max_lt (wordField_lt _ _ _) (by omega)
  refine ⟨hticks, hepisodes, (rd_wr_lt _ (show 0 + 32 ≤ 32 by decide) hlt).trans (by rw [hold]), fun ha hw hie => ?_, ?_⟩
  · refine (is_wr_apart _ _ ⟨show 0 + 32 ≤ 32 by decide, Or.inl ?_⟩).trans (hint ha hw hie)
    intro h
    refine causeWords_not_body (p := brkPage t) ((tentPage_lt ht (by decide)).trans (by decide)) List.mem_cons_self
      ((show pageBase (brkPage t) + 16 = BRK_OCC_MAX_at t m from h) ▸ hmaxword)
  · obtain ⟨r, o, x, rfl⟩ := honly
    exact ⟨_, _, _, rfl⟩

end tick

/-- Settles O55: a tick counts and keeps the largest value; an acceptable write clears it. -/
theorem occupancyMonitorsCount : Obligations.OccupancyMonitorsCount := by
  intro s
  refine ⟨fun t m hrun => ?_, fun src t m thr value => ?_⟩
  · intro n i pg q above was
    have hact := actRun_run s (fun b => b.occTick n i) hrun
    refine ⟨fun hen => next_onBox hact (if_pos hen), fun hen => ?_⟩
    have hshows := occTick_shows (b := s.toBox) (above := above) (was := was) t.isLt m.isLt hen rfl rfl rfl
    obtain ⟨x, hx⟩ : ∃ x, s.toBox.occTick n i = x := ⟨_, rfl⟩
    obtain ⟨hticks, hepisodes, hmax, hint, r, o, c, rfl⟩ := hx ▸ hshows
    exact ⟨_, next_onBox hact hx, hticks, hepisodes, hmax, hint, rfl⟩
  · intro n i a htakes
    obtain ⟨hn, hcfg, hbodyN, hbodyCfg, hbodyMax⟩ := occ_words t.isLt m.isLt
    have hpage : wordPage a = brkPage n := by
      cases thr
      · exact hcfg
      · exact hn
    have hbody : bodyWord a := by
      cases thr
      · exact hbodyCfg
      · exact hbodyN
    have hp : brkPage n < 2304 := (tentPage_lt t.isLt (by decide)).trans (by decide)
    obtain ⟨hrun, hreach, hready⟩ := htakes
    have hact := actReg_run s (fun b => b.occCfg src n i thr value.toNat) a src hrun hreach hready
    split_ifs with hsrc hindex
    · exact exec_rsvWrite (off := wordOff a) (src := src) hact
        ((if_pos hsrc).trans (congrArg (s.toBox.rsvWrite · (wordOff a) src) hpage)) hp
    · exact exec_accErr (off := wordOff a) (src := src) hact
        ((if_neg hsrc).trans ((if_pos hindex).trans (congrArg (s.toBox.accErr · (wordOff a) src) hpage))) hp
    · have hword := plainWrite_word s.toBox src (hpage ▸ hp) hbody value.toNat
      have hwords := plainWrite_sameWords s.toBox src a value.toNat
      have honly := plainWrite_onlyRegs s.toBox src a value.toNat
      have hcmd : s.toBox.occCfg src n i thr value.toNat = { (s.toBox.plainWrite src a value.toNat).wr (BRK_OCC_MAX_MAX n i) 0 with
          occs := mapSet (fun _ => false) (s.toBox.plainWrite src a value.toNat).occs (16 * n + i) false } :=
        (if_neg hsrc).trans (if_neg hindex)
      have hne : a ≠ BRK_OCC_MAX_at n i := by
        cases thr
        · show 0x1000000 * (n + 1) + 0xE0400 + 16 * i ≠ 0x1000000 * (n + 1) + 0xE0408 + 16 * i
          omega
        · show 0x1000000 * (n + 1) + 0xE0404 + 16 * i ≠ 0x1000000 * (n + 1) + 0xE0408 + 16 * i
          omega
      generalize s.toBox.plainWrite src a value.toNat = c at *
      obtain ⟨r, o, rfl⟩ := honly
      refine ⟨_, next_onBox hact hcmd, (word_setWord_other _ _ hne).trans hword, rd_wr_lt _ (show 0 + 32 ≤ 32 by decide) (show 0 < 2 ^ 32 by decide), rfl, ?_⟩
      refine sameWords_trans (sameWords_mono hwords ?_) (sameWords_mono (wr_sameWords _ (BRK_OCC_MAX_MAX n i) 0) ?_)
      · rw [hpage]
        simp +contextual
      · simp [BRK_OCC_MAX_MAX]

end Sys2Proof.Proofs
end

section
/-! # Samplers, the sample queue and backlog notices (sections 13.5 and 13.6) -/

namespace Sys2Proof.Proofs

open Sys2Proof Sys2Proof.Machine Sys2Proof.Safety Sys2Proof.Laws

/-! ### A sampler's configuration -/

/-- A field of one bit is set where its bit is. -/
theorem natField_bit (v i : Nat) : (natField v i 1 != 0) = v.testBit i := by
  rw [natField, Nat.testBit_eq_decide_div_mod_eq]
  rcases Nat.mod_two_eq_zero_or_one (v / 2 ^ i) with h | h <;> simp [h]

/-- A value that fits a mask of low bits has no bit outside it. -/
theorem bitsOut_of_lt {v n : Nat} (h : v < 2 ^ n) : bitsOut v (2 ^ n - 1) = 0 := by
  rw [bitsOut_eq_xor, Nat.and_two_pow_sub_one_eq_mod, Nat.mod_eq_of_lt h, Nat.xor_self]

section sampler

variable {b : Box} {src : Requester} {t k v : Nat}

theorem maskAt_samplerCfg (ht : t < 8) (hk : k < 16) : maskAt (BRK_SMP_CFG_at t k) = ⟨0xFFE000FF, 0, 0, 0⟩ := by
  have h : ∀ t : Fin 8, ∀ k : Fin 16, maskAt (BRK_SMP_CFG_at t k) = ⟨0xFFE000FF, 0, 0, 0⟩ := by decide +kernel
  exact h ⟨t, ht⟩ ⟨k, hk⟩

/-- A sampler's two registers and BRK_CTRL are body words of its page. -/
theorem sampler_words (ht : t < 8) (hk : k < 16) :
    wordPage (BRK_SMP_CFG_at t k) = brkPage t ∧ wordPage (BRK_SMP_FILT_at t k) = brkPage t
      ∧ bodyWord (BRK_SMP_CFG_at t k) ∧ bodyWord (BRK_SMP_FILT_at t k) ∧ bodyWord (BRK_CTRL_at t)
      ∧ bodyWord (BRK_SEED_at t) ∧ BRK_CTRL_at t ≠ BRK_SMP_CFG_at t k ∧ BRK_SEED_at t ≠ BRK_SMP_CFG_at t k := by
  have hpage (off : Nat) (h : off < 0x10000) := wordPage_tentPage (c := 0x0E) (off := off) ht (by decide) h
  refine ⟨?_, ?_, ?_⟩
  · exact (congrArg wordPage (by rw [BRK_SMP_CFG_at]; omega)).trans (hpage (0x200 + 8 * k) (by omega))
  · exact (congrArg wordPage (by rw [BRK_SMP_FILT_at]; omega)).trans (hpage (0x204 + 8 * k) (by omega))
  · simp only [bodyWord, BRK_SMP_CFG_at, BRK_SMP_FILT_at, BRK_CTRL_at, BRK_SEED_at]
    omega

/-- A write of a sampler's configuration leaves the tent's own enable and seed, and writes the sampler's enable. -/
theorem samplerCfg_written (ht : t < 8) (hk : k < 16) :
    (b.plainWrite src (BRK_SMP_CFG_at t k) v).is (BRK_CTRL_EN t) = b.is (BRK_CTRL_EN t)
      ∧ (b.plainWrite src (BRK_SMP_CFG_at t k) v).rd (BRK_SEED_SEED t) = b.rd (BRK_SEED_SEED t)
      ∧ (b.plainWrite src (BRK_SMP_CFG_at t k) v).is (BRK_SMP_CFG_EN t k) = v.testBit 31 := by
  obtain ⟨hpage, -, -, -, hctrl, hseed, hctrlne, hseedne⟩ := sampler_words (t := t) ht hk
  have hp : wordPage (BRK_SMP_CFG_at t k) < 2304 := hpage ▸ (tentPage_lt ht (by decide)).trans (by decide)
  have hother {a : Nat} (ha : bodyWord a) (hne : a ≠ BRK_SMP_CFG_at t k) : a ∉ BRK_SMP_CFG_at t k :: errorWords (wordPage (BRK_SMP_CFG_at t k)) :=
    fun h => (List.mem_cons.mp h).elim hne fun h => errorWords_not_body hp h ha
  have hwords := plainWrite_sameWords b src (BRK_SMP_CFG_at t k) v
  refine ⟨is_of_sameWords hwords (hother hctrl hctrlne), rd_of_sameWords hwords (hother hseed hseedne), ?_⟩
  have hrd := plainWrite_rd b src (f := BRK_SMP_CFG_EN t k) v (show 31 + 1 ≤ 32 by decide) fun i hi => by
    obtain rfl : i = 0 := Nat.lt_one_iff.mp hi
    exact (congrArg (fun m : RegMask => m.rw.testBit 31) (maskAt_samplerCfg ht hk)).trans (by decide)
  rw [Box.is, show (b.plainWrite src (BRK_SMP_CFG_at t k) v).rd (BRK_SMP_CFG_EN t k) = natField v 31 1 from hrd]
  exact natField_bit v 31

end sampler

/-- A write that a sampler's register takes sets the sampler's record, drawn afresh where it becomes enabled. -/
theorem samplerCfg_eq {b : Box} {src : Requester} {t k v : Nat} (filt : Bool) (ht : t < 8) (hk : k < 16)
    (h : filt = true ∨ (v.testBit 31 = true → 4 ≤ natField v 21 5 ∧ natField v 21 5 ≤ 24)
      ∧ (v.testBit 27 = true → v.testBit 30 = false)) {a : Nat} {c : Box}
    (ha : (if filt then BRK_SMP_FILT_at t k else BRK_SMP_CFG_at t k) = a) (hc : b.plainWrite src a v = c) :
    b.samplerCfg src t k filt v = c.setSampler (16 * t + k)
      (if filt = false ∧ b.samplerOn t k = false ∧ b.is (BRK_CTRL_EN t) = true ∧ v.testBit 31 = true
        then c.samplerDraw t k { c.sampler (16 * t + k) with lfsr := rotl32 (c.rd (BRK_SEED_SEED t)) k }
        else { c.sampler (16 * t + k) with fresh := true }) := by
  have hlog : ¬ (filt = false ∧ v.testBit 31 = true ∧ (natField v 21 5 < 4 ∨ 24 < natField v 21 5)) := by
    rintro ⟨hf, hen, hrange⟩
    obtain hfilt | ⟨hlog, -⟩ := h
    · simp [hf] at hfilt
    · have := hlog hen
      omega
  have hmode : ¬ (filt = false ∧ v.testBit 27 = true ∧ v.testBit 30 = true) := by
    rintro ⟨hf, h27, h30⟩
    obtain hfilt | ⟨-, hmode⟩ := h
    · simp [hf] at hfilt
    · simp [hmode h27] at h30
  have hon : (filt = false ∧ b.samplerOn t k = false ∧ c.samplerOn t k = true)
      ↔ filt = false ∧ b.samplerOn t k = false ∧ b.is (BRK_CTRL_EN t) = true ∧ v.testBit 31 = true := by
    refine and_congr_right fun hf => and_congr_right fun _ => ?_
    subst hf ha hc
    obtain ⟨hctrl, -, hen⟩ := samplerCfg_written (b := b) (src := src) (v := v) ht hk
    rw [← hctrl, ← hen]
    exact Bool.and_eq_true _ _ ▸ Iff.rfl
  subst ha hc
  refine (if_neg hlog).trans ((if_neg hmode).trans ?_)
  by_cases hnew : filt = false ∧ b.samplerOn t k = false ∧ b.is (BRK_CTRL_EN t) = true ∧ v.testBit 31 = true
  · rw [if_pos hnew]
    exact if_pos (hon.mpr hnew)
  · rw [if_neg hnew]
    exact if_neg (mt hon.mp hnew)

theorem samplerDraw_of_regs {b c : Box} (h : c.regs = b.regs) (t k : Nat) (x : Sampler) :
    c.samplerDraw t k x = b.samplerDraw t k x := by rw [Box.samplerDraw, Box.samplerDraw, rd_of_regs h]

theorem samplerDraw_onBox (s : State) (c : Box) (i : Nat) (x : Sampler) (t k : Nat) (y : Sampler) :
    (s.onBox fun _ => c.setSampler i x).samplerDraw t k y = c.samplerDraw t k y :=
  samplerDraw_of_regs (b := c) (c := (s.onBox fun _ => c.setSampler i x).toBox) rfl t k y

/-! ### Backlog notices -/

/-- The next notice of port `p`: the payload `pay` of `n` entries. -/
def hintFrame (pay : List Byte) (n : Nat) (b : Box) (p : Nat) : Frame :=
  mkControl 4 (b.rd (LNK_PARTNER_ID_ADDR_ADDR p)) (b.rd (FWD_SELF_ADDR_ADDR 0))
    [0x23 * 2 ^ 24 + (b.port p).hseq, n * 2 ^ 23] pay 0

/-- A notice leaves on port `p` under the port's next sequence number. -/
def hintSend (pay : List Byte) (n : Nat) (b : Box) (p : Nat) : Box :=
  ((b.setPort p { b.port p with hseq := ((b.port p).hseq + 1) % 65536 }).originate p (hintFrame pay n b p)).count (brkPage 0) 66

theorem backlogNotice_due {b : Box} (hen : b.is (BRK_HINT_HOT_EN 0) = true) (hq : b.hotQ ≠ [])
    (hat : b.hintAt + b.rd (BRK_HINT_INTERVAL_INTERVAL 0) ≤ b.raw) : b.backlogNotice
      = b.leafPorts.foldl (hintSend ((b.hotQ.take 256).flatMap b.hintEntry) (b.hotQ.take 256).length)
          { b with hotQ := b.hotQ.drop 256, hintAt := b.raw } :=
  if_neg (by simp only [hen, hq]; simp; omega)

theorem originate_keeps (b : Box) (p : Nat) (f : Frame) : ∃ staging id, b.originate p f
    = { b with ports := mapSet (fun _ => {}) b.ports p { b.port p with ctags := ((b.port p).ctags + 1) % 2 ^ 32 }
               staging := staging
               descId := id } := ⟨_, _, rfl⟩

theorem hintOriginate_keeps (b : Box) (p : Nat) (f : Frame) : ∃ ports staging id,
    (b.setPort p { b.port p with hseq := ((b.port p).hseq + 1) % 65536 }).originate p f
        = { b with ports := ports, staging := staging, descId := id }
      ∧ ∀ q, (mapGet (fun _ => {}) ports q : Port).hseq = if q = p then ((b.port p).hseq + 1) % 65536 else (b.port q).hseq := by
  obtain ⟨staging, id, heq⟩ := originate_keeps (b.setPort p { b.port p with hseq := ((b.port p).hseq + 1) % 65536 }) p f
  refine ⟨_, _, _, heq, fun q => ?_⟩
  by_cases hq : q = p
  · subst hq
    rw [if_pos rfl, mapGet_mapSet_same, Box.port, Box.setPort, mapGet_mapSet_same]
  · rw [if_neg hq, mapGet_mapSet_other _ _ _ hq, Box.setPort, mapGet_mapSet_other _ _ _ hq]
    rfl

/-- A notice leaves on its port and is counted. -/
theorem hintSend_shows (pay : List Byte) (n : Nat) (b : Box) (p : Nat) :
    (hintSend pay n b p).hotQ = b.hotQ ∧ (hintSend pay n b p).hintAt = b.hintAt
      ∧ (hintSend pay n b p).ctr (brkPage 0) 66 = b.ctr (brkPage 0) 66 + 1
      ∧ ∀ q, ((hintSend pay n b p).port q).hseq = if q = p then ((b.port p).hseq + 1) % 65536 else (b.port q).hseq := by
  rw [hintSend]
  obtain ⟨ports, staging, id, heq, hseq⟩ := hintOriginate_keeps b p (hintFrame pay n b p)
  obtain ⟨hctr, r, o, c, hbox⟩ := count_shows { b with ports := ports, staging := staging, descId := id } (brkPage 0) 66
  rw [heq]
  refine ⟨?_, ?_, hctr, fun q => ?_⟩
  · rw [hbox]
  · rw [hbox]
  · rw [hbox]
    exact hseq q

theorem hintSend_foldl (pay : List Byte) (n : Nat) {l : List Nat} (hl : l.Nodup) (b : Box) :
    (l.foldl (hintSend pay n) b).hotQ = b.hotQ ∧ (l.foldl (hintSend pay n) b).hintAt = b.hintAt
      ∧ (l.foldl (hintSend pay n) b).ctr (brkPage 0) 66 = b.ctr (brkPage 0) 66 + BitVec.ofNat 64 l.length
      ∧ ∀ q, ((l.foldl (hintSend pay n) b).port q).hseq = if q ∈ l then ((b.port q).hseq + 1) % 65536 else (b.port q).hseq := by
  induction l generalizing b with
  | nil => exact ⟨rfl, rfl, by simp, fun _ => rfl⟩
  | cons p l ih =>
    obtain ⟨hp, hl⟩ := List.nodup_cons.mp hl
    obtain ⟨hhot, hat, hctr, hseq⟩ := ih hl (hintSend pay n b p)
    obtain ⟨hhot1, hat1, hctr1, hseq1⟩ := hintSend_shows pay n b p
    refine ⟨hhot.trans hhot1, hat.trans hat1, hctr.trans ?_, fun q => (hseq q).trans ?_⟩
    · rw [hctr1, List.length_cons, Nat.add_comm, BitVec.ofNat_add, ← BitVec.add_assoc]
      rfl
    · rw [hseq1]
      by_cases hq : q = p
      · subst hq
        simp [hp]
      · simp [hq]

/-- Settles O56: each sampler has its own record; the queue loses what its reader names; notices go out port by port. -/
theorem samplersAndNoticesMeasure : Obligations.SamplersAndNoticesMeasure := by
  intro s
  refine ⟨fun src t k filt value => ?_, fun src value htakes hvalue => ?_, fun hrun => ?_⟩
  · intro n a htakes h
    obtain ⟨hrun, hreach, hready⟩ := htakes
    have hact := actReg_run s (fun b => b.samplerCfg src n k.toNat filt value.toNat) a src hrun hreach hready
    obtain ⟨hpageCfg, hpageFilt, hcfg, hfilt, -, hseedbody, -, hseedne⟩ := sampler_words t.isLt k.isLt
    have hpage : wordPage a = brkPage n := by
      cases filt
      · exact hpageCfg
      · exact hpageFilt
    have hbody : bodyWord a := by
      cases filt
      · exact hcfg
      · exact hfilt
    have hp : brkPage n < 2304 := (tentPage_lt t.isLt (by decide)).trans (by decide)
    have hword := plainWrite_word s.toBox src (hpage ▸ hp) hbody value.toNat
    have hwords := plainWrite_sameWords s.toBox src a value.toNat
    obtain ⟨r, o, hc⟩ := plainWrite_onlyRegs s.toBox src a value.toNat
    have hcmd := samplerCfg_eq filt t.isLt k.isLt h rfl hc
    have hseed : filt = false → (s.toBox.plainWrite src a value.toNat).rd (BRK_SEED_SEED n) = s.rd (BRK_SEED_SEED n) := fun hf => by
      subst hf
      exact (samplerCfg_written t.isLt k.isLt).2.1
    rw [hpage] at hwords
    obtain ⟨x, hx⟩ : ∃ x, (if filt = false ∧ s.samplerOn n k.toNat = false ∧ s.is (BRK_CTRL_EN n) = true ∧ value.toNat.testBit 31 = true
        then (s.toBox.plainWrite src a value.toNat).samplerDraw n k.toNat
          { (s.toBox.plainWrite src a value.toNat).sampler (16 * n + k.toNat) with
            lfsr := rotl32 ((s.toBox.plainWrite src a value.toNat).rd (BRK_SEED_SEED n)) k.toNat }
        else { (s.toBox.plainWrite src a value.toNat).sampler (16 * n + k.toNat) with fresh := true }) = x := ⟨_, rfl⟩
    rw [hc] at hword hwords hseed hx
    rw [hx] at hcmd
    refine ⟨_, next_onBox hact hcmd, hword, rfl, fun j hj => mapGet_mapSet_other _ _ _ hj, ?_, hwords⟩
    split_ifs with hnew
    · rw [if_pos hnew, hseed hnew.1] at hx
      refine (mapGet_mapSet_same _ _ _ _).trans (hx.symm.trans ?_)
      exact (samplerDraw_onBox s _ (16 * n + k.toNat) x n k.toNat _).symm
    · rw [if_neg hnew] at hx
      exact (mapGet_mapSet_same _ _ _ _).trans hx.symm
  · intro n
    obtain ⟨hrun, hreach, hready⟩ := htakes
    have hact := actReg_run s (fun b => b.smpqTail src value.toNat) MGT_SMPQ_TAIL_at src hrun hreach hready
    have hn : (value.toNat % 512 + 512 - s.rd MGT_SMPQ_TAIL_INDEX) % 512 = n := by rw [Nat.mod_eq_of_lt hvalue]
    split_ifs with hlong
    · exact exec_accErr (off := wordOff MGT_SMPQ_TAIL_at) (src := src) hact (if_pos (hn.symm ▸ hlong)) (by decide)
    · have hknown : bitsOut value.toNat (maskAt MGT_SMPQ_TAIL_at).known = 0 := bitsOut_of_lt (n := 9) hvalue
      have hcmd : s.toBox.smpqTail src value.toNat = { s.toBox.setWord MGT_SMPQ_TAIL_at
          (BitVec.ofNat 32 (writtenWord (maskAt MGT_SMPQ_TAIL_at) (s.toBox.word MGT_SMPQ_TAIL_at).toNat value.toNat)) with
            smpq := s.smpq.drop n } :=
        (if_neg (hn.symm ▸ hlong)).trans (by rw [plainWrite_of_known hknown, hn])
      have hfield : natField value.toNat 0 9 = value.toNat := by
        rw [natField, pow_zero, Nat.div_one, Nat.mod_eq_of_lt (show value.toNat < 2 ^ 9 from hvalue)]
      have hrd := plainWrite_rd s.toBox src (f := MGT_SMPQ_TAIL_INDEX) value.toNat (by decide) (by decide)
      rw [show MGT_SMPQ_TAIL_INDEX.addr = MGT_SMPQ_TAIL_at from rfl, plainWrite_of_known hknown] at hrd
      exact ⟨_, next_onBox hact hcmd, hrd.trans hfield, rfl, setWord_sameWords _ _ _⟩
  · intro due
    have hact := actRun_run s Box.backlogNotice hrun
    refine ⟨fun hnot => next_onBox hact (if_pos ?_), fun ⟨hen, hq, hat⟩ => ?_⟩
    · by_contra hall
      simp only [not_or, Bool.not_eq_false, Nat.not_lt] at hall
      exact hnot hall
    · have hports : s.leafPorts.Nodup := allSlots_filter_nodup _
      obtain ⟨hhot, hhint, hctr, hseq⟩ := hintSend_foldl ((s.hotQ.take 256).flatMap s.toBox.hintEntry) (s.hotQ.take 256).length
        hports { s.toBox with hotQ := s.hotQ.drop 256, hintAt := s.raw }
      have hcmd := backlogNotice_due hen hq hat
      generalize s.leafPorts.foldl (hintSend ((s.hotQ.take 256).flatMap s.toBox.hintEntry) (s.hotQ.take 256).length)
        { s.toBox with hotQ := s.hotQ.drop 256, hintAt := s.raw } = x at *
      exact ⟨_, next_onBox hact hcmd, hhot, hhint, hctr, fun p _ => hseq p⟩

end Sys2Proof.Proofs
end

section
/-! # Forwarding table commands (sections 3.3 and 3.5) -/

namespace Sys2Proof.Proofs

open Sys2Proof Sys2Proof.Machine Sys2Proof.Safety Sys2Proof.Laws

/-! ### Entries of a table and words of a window -/

theorem setWords_word (b : Box) (a : Nat) (ws : List Word) {i : Nat} (hi : i < ws.length) :
    (b.setWords a ws).word (a + 4 * i) = ws[i] := by
  induction ws generalizing b a i with
  | nil => exact absurd hi (Nat.not_lt_zero i)
  | cons w ws ih =>
    cases i with
    | zero => exact (setWords_other _ (a + 4) ws (by omega)).trans (word_setWord _ _ _)
    | succ i => exact (congrArg _ (by omega)).trans (ih (b.setWord a w) (a + 4) (Nat.lt_of_succ_lt_succ hi))

theorem setWords_eq (b : Box) (a : Nat) (ws : List Word) : ∃ r, b.setWords a ws = { b with regs := r } := by
  induction ws generalizing b a with
  | nil => exact ⟨_, rfl⟩
  | cons w ws ih => exact ih (b.setWord a w) (a + 4)

theorem setTabEntry_eq (b : Box) (a : Nat) (ws : List Word) : ∃ t, b.setTabEntry a ws = { b with tabs := t } := by
  induction ws generalizing b a with
  | nil => exact ⟨_, rfl⟩
  | cons w ws ih => exact ih (b.setTab a w) (a + 4)

theorem setTabEntry_other (b : Box) (a : Nat) (ws : List Word) {c : Nat} (h : c < a ∨ a + 4 * ws.length ≤ c) :
    (b.setTabEntry a ws).tab c = b.tab c := by
  induction ws generalizing b a with
  | nil => rfl
  | cons w ws ih =>
    rw [List.length_cons] at h
    exact (ih _ _ (by omega)).trans (tab_setTab_other _ _ (by omega))

theorem setTabEntry_tab (b : Box) (a : Nat) (ws : List Word) {i : Nat} (hi : i < ws.length) :
    (b.setTabEntry a ws).tab (a + 4 * i) = ws[i] := by
  induction ws generalizing b a i with
  | nil => exact absurd hi (Nat.not_lt_zero i)
  | cons w ws ih =>
    cases i with
    | zero => exact (setTabEntry_other _ (a + 4) ws (by omega)).trans (tab_setTab _ _ _)
    | succ i => exact (congrArg _ (by omega)).trans (ih (b.setTab a w) (a + 4) (Nat.lt_of_succ_lt_succ hi))

/-- An entry that has been written holds the words written. -/
theorem tabEntry_setTabEntry (b : Box) (a : Nat) (ws : List Word) : (b.setTabEntry a ws).tabEntry a ws.length = ws :=
  List.ext_getElem (by simp [Box.tabEntry]) fun i h _ => by
    have hi : i < ws.length := by simpa [Box.tabEntry] using h
    simpa [Box.tabEntry] using setTabEntry_tab b a ws hi

/-! ### The copy of a bank -/

/-- An entry of bank `live` goes to the same place of the other bank. -/
def bankCopy (live : Nat) (e : Nat × Word) (b : Box) : Box := b.setTab (0x100000 * (1 - live) + (e.1 - 0x100000 * live)) e.2

theorem bankCopy_foldr_eq (live : Nat) (m : List (Nat × Word)) (b : Box) : ∃ t, m.foldr (bankCopy live) b = { b with tabs := t } := by
  induction m with
  | nil => exact ⟨_, rfl⟩
  | cons e m ih =>
    obtain ⟨t, h⟩ := ih
    rw [List.foldr_cons, h]
    exact ⟨_, rfl⟩

/-- What the copies of the listed entries leave at an offset: the entry listed first, and the word that was there without one. -/
theorem bankCopy_foldr_tab (live : Nat) {m : List (Nat × Word)} (hm : ∀ e ∈ m, 0x100000 * live ≤ e.1) (b : Box) (off : Nat)
    (hb : b.tab (0x100000 * (1 - live) + off) = 0) :
    (m.foldr (bankCopy live) b).tab (0x100000 * (1 - live) + off) = mapGet (fun _ => 0) m (0x100000 * live + off) := by
  induction m with
  | nil => exact hb
  | cons e m ih =>
    have hle := hm e List.mem_cons_self
    have ih := ih fun e he => hm e (List.mem_cons_of_mem _ he)
    rw [List.foldr_cons, bankCopy]
    obtain ⟨k, v⟩ := e
    dsimp only at hle ⊢
    by_cases hk : k = 0x100000 * live + off
    · subst hk
      rw [Nat.add_sub_cancel_left, tab_setTab, mapGet, if_pos rfl]
    · rw [tab_setTab_other _ _ (by omega), ih, mapGet, if_neg hk]

theorem fwdCopyDone_shows {b : Box} (h : b.is (FWD_EPOCH_STATUS_COPY_BUSY 0) = true) :
    b.fwdCopyDone.is (FWD_EPOCH_STATUS_COPY_BUSY 0) = false
      ∧ (∀ off, off < 0x30000 → b.fwdCopyDone.tab (0x100000 * (1 - b.rd (FWD_EPOCH_STATUS_LIVE 0)) + off)
          = b.tab (0x100000 * b.rd (FWD_EPOCH_STATUS_LIVE 0) + off))
      ∧ sameWords [FWD_EPOCH_STATUS_at 0] b b.fwdCopyDone
      ∧ ∃ r t, b.fwdCopyDone = { b with regs := r, tabs := t } := by
  let live := b.rd (FWD_EPOCH_STATUS_LIVE 0)
  let listed := b.tabs.filter fun e => decide (0x100000 * live ≤ e.1) && decide (e.1 < 0x100000 * live + 0x30000)
  let cleared : Box := { b with tabs := mapClear b.tabs (0x100000 * (1 - live)) 0x30000 }
  have heq : b.fwdCopyDone = (listed.foldr (bankCopy live) cleared).put (FWD_EPOCH_STATUS_COPY_BUSY 0) false := if_pos h
  have htabs : ∀ off, off < 0x30000 → (listed.foldr (bankCopy live) cleared).tab (0x100000 * (1 - live) + off)
      = b.tab (0x100000 * live + off) := fun off hoff => by
    have hempty : cleared.tab (0x100000 * (1 - live) + off) = 0 :=
      (mapGet_mapClear _ _ _ _ _).trans (if_pos ⟨by omega, by omega⟩)
    have hin : (decide (0x100000 * live ≤ 0x100000 * live + off)
        && decide (0x100000 * live + off < 0x100000 * live + 0x30000)) = true := by simpa using hoff
    refine (bankCopy_foldr_tab live (fun e he => ?_) cleared off hempty).trans ?_
    · have := (List.mem_filter.mp he).2
      simp only [Bool.and_eq_true, decide_eq_true_eq] at this
      exact this.1
    · exact (mapGet_filter (fun _ => 0) b.tabs
        (fun k => decide (0x100000 * live ≤ k) && decide (k < 0x100000 * live + 0x30000)) _).trans (if_pos hin)
  obtain ⟨t, hcopied⟩ := bankCopy_foldr_eq live listed cleared
  have hwords : sameWords [FWD_EPOCH_STATUS_at 0] b (listed.foldr (bankCopy live) cleared) := by
    rw [hcopied]
    exact fun _ _ => rfl
  rw [heq]
  refine ⟨is_put_self _ false rfl, fun off hoff => htabs off hoff, sameWords_trans hwords (put_sameWords _ (FWD_EPOCH_STATUS_COPY_BUSY 0) _), ?_⟩
  rw [hcopied]
  exact ⟨_, _, rfl⟩

/-! ### The commands -/

theorem fwd_win_ne_status (k : Nat) : FWD_WIN_at 0 k ≠ FWD_TBL_STATUS_at 0 := by
  rw [FWD_WIN_at, FWD_TBL_STATUS_at]
  omega

section commands

variable {b : Box} {src : Requester} {table bank i : Nat}

theorem fwdTblCmd_read (htable : table ≠ 3) (hidle : b.is (FWD_TBL_STATUS_BUSY 0) = false) (hi : i < fwdTableLen table) :
    b.fwdTblCmd src table bank i true
      = { b.put (FWD_TBL_STATUS_BUSY 0) true with fwdOp := some ⟨(fwdEntryAt table bank i).1, [], true⟩ } :=
  (if_neg htable).trans ((if_neg (by simp [hidle])).trans (if_neg (Nat.not_le.mpr hi)))

/-- The words of the window that a write of an entry takes. -/
abbrev fwdWritten (b : Box) (table bank i : Nat) : List Word :=
  (List.range (fwdEntryAt table bank i).2).map fun k => b.word (FWD_WIN_at 0 k)

theorem fwdTblCmd_rejects (htable : table ≠ 3) (hidle : b.is (FWD_TBL_STATUS_BUSY 0) = false) (hi : i < fwdTableLen table)
    (hcopy : b.is (FWD_EPOCH_STATUS_COPY_BUSY 0) = false) (h : b.fwdReject table bank (fwdWritten b table bank i) = true) :
    b.fwdTblCmd src table bank i false
      = ((b.put (FWD_TBL_STATUS_REJECTED 0) true).accErrAt (FWD_TBL_CMD_at 0) src).raiseInt (fwdPage 0) 4 :=
  (if_neg htable).trans ((if_neg (by simp [hidle])).trans ((if_neg (Nat.not_le.mpr hi)).trans
    ((if_neg Bool.false_ne_true).trans ((if_neg (by simp [hcopy])).trans (if_pos h)))))

theorem fwdTblCmd_writes (htable : table ≠ 3) (hidle : b.is (FWD_TBL_STATUS_BUSY 0) = false) (hi : i < fwdTableLen table)
    (hcopy : b.is (FWD_EPOCH_STATUS_COPY_BUSY 0) = false) (h : b.fwdReject table bank (fwdWritten b table bank i) = false) :
    ∃ c, onlyRegs b c ∧ b.fwdTblCmd src table bank i false = { c.put (FWD_TBL_STATUS_BUSY 0) true with
      fwdOp := some ⟨(fwdEntryAt table bank i).1, fwdClean table (fwdWritten b table bank i), false⟩ } := by
  refine ⟨if fwdReserved table (fwdWritten b table bank i) then b.rsvWriteAt (FWD_TBL_CMD_at 0) src else b, ?_,
    (if_neg htable).trans ((if_neg (by simp [hidle])).trans ((if_neg (Nat.not_le.mpr hi)).trans
      ((if_neg Bool.false_ne_true).trans ((if_neg (by simp [hcopy])).trans (if_neg (ne_true_of_eq_false h))))))⟩
  split
  · exact rsvWrite_onlyRegs _ _ _ _
  · exact onlyRegs_refl _

/-- A rejected write shows so, with cause 4. -/
theorem fwdRejected_shows (b : Box) (src : Requester) (off : Nat) :
    let t := ((b.put (FWD_TBL_STATUS_REJECTED 0) true).accErr (fwdPage 0) off src).raiseInt (fwdPage 0) 4
    t.is (FWD_TBL_STATUS_REJECTED 0) = true ∧ t.is (pageFld (fwdPage 0) 16 4 1) = true
      ∧ t.is (PAGE_ERR_ACCERR (fwdPage 0)) = true ∧ onlyRegs b t := by
  intro t
  let c := b.put (FWD_TBL_STATUS_REJECTED 0) true
  have hbody : sameOn bodyWord c t :=
    sameOn_trans (accErr_body c (p := fwdPage 0) (by decide) off src) (raiseInt_body _ (by decide) 4)
  refine ⟨(is_of_sameOn hbody (by decide)).trans (is_put_self b true rfl), raiseInt_sets _ _ _ (by decide) (by decide),
    (is_raiseInt _ _ _ (by decide)).trans (accErr_sets _ (by decide) _ _), ?_⟩
  exact onlyRegs_trans (put_onlyRegs b _ _) (onlyRegs_trans (accErr_onlyRegs _ _ _ _) (raiseInt_onlyRegs _ _ _))

theorem fwdTblDone_eq {o : FwdOp} (h : b.fwdOp = some o) : b.fwdTblDone = Box.put
    { (if o.read then b.setWords (FWD_WIN_at 0 0) (b.tabEntry o.at_ (fwdEntryWords o.at_)) else b.setTabEntry o.at_ o.words) with
      fwdOp := none } (FWD_TBL_STATUS_BUSY 0) false := by
  rw [Box.fwdTblDone, h]
  rfl

end commands

/-- Settles O33: a command stages its entry, and its end writes the table or the window. -/
theorem forwardingTablesChangeAsCommanded : Obligations.ForwardingTablesChangeAsCommanded := by
  intro s src table bank index e ws
  refine ⟨fun htakes htable hidle hi => ?_, fun o hrun hop => ?_, fun htakes hdrained hcopy hidle hpend => ?_, fun hrun hcopy => ?_⟩
  · obtain ⟨hrun, hreach, hready⟩ := htakes
    have hact (read : Bool) := actReg_run s (fun b => b.fwdTblCmd src table.toNat (b2n bank) index.toNat read) (FWD_TBL_CMD_at 0)
      src hrun hreach hready
    refine ⟨fun hcopy hok => ?_, fun hcopy hbad => ?_, ?_⟩
    · obtain ⟨_, ⟨r, o, rfl⟩, hcmd⟩ := fwdTblCmd_writes (src := src) htable hidle hi hcopy hok
      exact ⟨_, next_onBox (hact false) hcmd, is_put_self _ true rfl, rfl⟩
    · have hcmd := fwdTblCmd_rejects (src := src) htable hidle hi hcopy hbad
      obtain ⟨hrej, hcause, herr, r, o, hbox⟩ := fwdRejected_shows s.toBox src (wordOff (FWD_TBL_CMD_at 0))
      have hcmd := hcmd.trans hbox
      rw [hbox] at hrej hcause herr
      exact ⟨_, next_onBox (hact false) hcmd, hrej, hcause, herr, rfl⟩
    · exact ⟨_, next_onBox (hact true) (fwdTblCmd_read htable hidle hi), is_put_self _ true rfl, rfl⟩
  · have hact := actRun_run s Box.fwdTblDone hrun
    have hcmd := fwdTblDone_eq hop
    by_cases hread : o.read = true
    · rw [if_pos hread] at hcmd
      have hwin : ∀ k, k < fwdEntryWords o.at_ → (s.toBox.setWords (FWD_WIN_at 0 0) (s.tabEntry o.at_ (fwdEntryWords o.at_))).word
          (FWD_WIN_at 0 k) = s.tab (o.at_ + 4 * k) := fun k hk => by
        have hlen : k < (s.tabEntry o.at_ (fwdEntryWords o.at_)).length := by simpa [Box.tabEntry] using hk
        exact (setWords_word s.toBox (FWD_WIN_at 0 0) _ hlen).trans (by simp [Box.tabEntry])
      obtain ⟨r, hbox⟩ := setWords_eq s.toBox (FWD_WIN_at 0 0) (s.tabEntry o.at_ (fwdEntryWords o.at_))
      rw [hbox] at hcmd hwin
      refine ⟨_, next_onBox hact hcmd, is_put_self _ false rfl, fun h => absurd (hread.symm.trans h) (by decide), fun _ =>
        ⟨fun k hk => (word_setWord_other _ _ (fwd_win_ne_status k)).trans (hwin k hk), rfl⟩⟩
    · rw [if_neg hread] at hcmd
      have hthis := tabEntry_setTabEntry s.toBox o.at_ o.words
      have hother := fun a => setTabEntry_other s.toBox o.at_ o.words (c := a)
      obtain ⟨t, hbox⟩ := setTabEntry_eq s.toBox o.at_ o.words
      rw [hbox] at hcmd hthis hother
      exact ⟨_, next_onBox hact hcmd, is_put_self _ false rfl, fun _ => ⟨hthis, hother, rfl⟩, fun h => absurd h hread⟩
  · obtain ⟨hrun, hreach, hready⟩ := htakes
    have hact := actReg_run s (fun b => b.fwdCopy src) (FWD_EPOCH_CTRL_at 0) src hrun hreach hready
    have hcmd : s.toBox.fwdCopy src = s.toBox.put (FWD_EPOCH_STATUS_COPY_BUSY 0) true :=
      if_neg (by simp [hdrained, hcopy, hidle, hpend])
    exact ⟨_, next_onBox hact hcmd, is_put_self _ true rfl, rfl, put_sameWords s.toBox (FWD_EPOCH_STATUS_COPY_BUSY 0) true⟩
  · have hact := actRun_run s Box.fwdCopyDone hrun
    have hshows := fwdCopyDone_shows hcopy
    obtain ⟨x, hx⟩ : ∃ x, s.toBox.fwdCopyDone = x := ⟨_, rfl⟩
    obtain ⟨hbusy, htab, hwords, r, t, rfl⟩ := hx ▸ hshows
    exact ⟨_, next_onBox hact hx, hbusy, htab, rfl, hwords⟩

end Sys2Proof.Proofs
end

section
/-! # Carousel's table commands (section 6.3) -/

namespace Sys2Proof.Proofs

open Sys2Proof Sys2Proof.Machine Sys2Proof.Safety Sys2Proof.Laws

/-! ### Streams looked at again -/

/-- `t` is `s` but for streams, with the words of Carousel's causes and what has left the block. -/
def drainOnly (s t : Box) : Prop :=
  (∃ r o x, t = { s with regs := r, outbox := o, streams := x }) ∧ sameWords (causeWords carPage) s t

theorem drainOnly_refl (s : Box) : drainOnly s s := ⟨⟨_, _, _, rfl⟩, sameWords_refl _ _⟩

theorem drainOnly_trans {s t u : Box} (h : drainOnly s t) (k : drainOnly t u) : drainOnly s u := by
  obtain ⟨⟨_, _, _, rfl⟩, hw⟩ := h
  obtain ⟨⟨_, _, _, rfl⟩, kw⟩ := k
  exact ⟨⟨_, _, _, rfl⟩, sameWords_trans hw kw⟩

theorem drainEval_drainOnly (b : Box) (st : Nat) : drainOnly b (b.drainEval st) := by
  rw [Box.drainEval]
  split
  · let c := b.setSx st { b.sx st with drained := true }
    obtain ⟨r, o, h⟩ := raiseInt_onlyRegs c carPage 7
    have hwords : sameWords (causeWords carPage) b (c.raiseInt carPage 7) := raiseInt_sameWords c carPage 7
    exact ⟨⟨r, o, c.streams, h⟩, hwords⟩
  · exact drainOnly_refl b

theorem drainGroup_drainOnly (b : Box) (g : Nat) : drainOnly b (b.drainGroup g) :=
  foldl_rel drainOnly_refl drainOnly_trans _ (fun b st _ => drainEval_drainOnly b st) b

/-! ### The judgement of a write -/

theorem setOk_of_ports {b c : Box} (hports : ∀ p, c.isPort p = b.isPort p) (htabs : c.tabs = b.tabs) (ws : List Word) :
    c.setOk ws = b.setOk ws := by
  simp only [Box.setOk, Box.contribEntry, Box.tab, htabs, hports]

theorem grp_of_tabs {b c : Box} (htabs : c.tabs = b.tabs) (g : Nat) : c.grp g = b.grp g := by
  simp only [Box.grp, Box.tab, htabs]

theorem contribs_of_tabs {b c : Box} (htabs : c.tabs = b.tabs) (m : Nat) : c.contribs m = b.contribs m := by
  simp only [Box.contribs, setRange_of_tabs htabs, Box.contribEntry, Box.tab, htabs]

theorem busyStreams_of {b c : Box} (htabs : c.tabs = b.tabs) (hstreams : c.streams = b.streams) : c.busyStreams = b.busyStreams := by
  simp only [Box.busyStreams, Box.strmBusy, strm_of_tabs htabs, Box.sx, hstreams]

theorem setFits_of {b c : Box} (htabs : c.tabs = b.tabs) (hkernels : c.kernels = b.kernels) (g : Grp) (m : Nat) :
    c.setFits g m = b.setFits g m := by
  simp only [Box.setFits, contribs_of_tabs htabs, Box.treeGroup, hkernels]

/-- Whether a write is allowed depends on no register word but the ports' modes. -/
theorem carWriteOk_of {b c : Box} (htabs : c.tabs = b.tabs) (hstreams : c.streams = b.streams) (hkernels : c.kernels = b.kernels)
    (hopened : c.bOpened = b.bOpened) (hports : ∀ p, c.isPort p = b.isPort p) (table i : Nat) (ws old : List Word) :
    c.carWriteOk table i ws old = b.carWriteOk table i ws old := by
  have hbusy := busyStreams_of htabs hstreams
  have hsets : c.busySets = b.busySets := by
    simp only [Box.busySets, hbusy, Box.strmGrp, strm_of_tabs htabs, grp_of_tabs htabs]
  simp only [Box.carWriteOk, hbusy, hsets, strm_of_tabs htabs, setFits_of htabs hkernels, hopened, Box.strmBusy, Box.sx, hstreams,
    setOk_of_ports hports htabs, setRange_of_tabs htabs]

theorem isPort_put_carTbl (b : Box) (v : Bool) (p : Nat) : (b.put CAR_TBL_STATUS_BUSY v).isPort p = b.isPort p := by
  have hmode : (b.put CAR_TBL_STATUS_BUSY v).slotMode p = b.slotMode p := by
    refine rd_put_apart b v ⟨by decide, Or.inl ?_⟩
    show 0x1000000 * (p / 4 / 64 + 1) + 0x10200 + 4 * (p / 4 % 64) ≠ 0x70104
    omega
  rw [Box.isPort, Box.isPort, hmode]

/-! ### The commands -/

/-- The words that a write of an entry stores: the writable bits of the window, with a stream's own bits kept. -/
def carStored (b : Box) (table i : Nat) : List Word :=
  let clean := ((List.range (carEntryWords table)).map fun j => b.word (CAR_WIN_at j)).mapIdx fun j w => maskWord w (carWordMask table j)
  if table = 1 then clean.mapIdx fun j w => maskWord w (0xFFFFFFFF - strmRoMask j)
    ||| maskWord ((b.tabEntry (carEntryAt table i) (carEntryWords table)).getD j 0) (strmRoMask j)
  else clean

section commands

variable {b : Box} {src : Requester} {table i : Nat}

theorem carStored_length : (carStored b table i).length = carEntryWords table := by
  rw [carStored]
  split <;> simp

/-- The block while a table command is busy. -/
def carBusy (b : Box) : Box := b.put CAR_TBL_STATUS_BUSY true

theorem carStored_carBusy : carStored (carBusy b) table i = carStored b table i := by
  have hwin (j : Nat) : (carBusy b).word (CAR_WIN_at j) = b.word (CAR_WIN_at j) :=
    word_setWord_other _ _ (by show 0x78000 + 4 * j ≠ 0x70104; omega)
  simp only [carStored, hwin]
  rfl

theorem carTblCmd_write (hidle : b.is CAR_TBL_STATUS_BUSY = false) (hi : i < carTableLen table) :
    ∃ c, onlyRegs (carBusy b) c ∧ sameWords (errorWords carPage) (carBusy b) c ∧ b.carTblCmd src table i false
      = if b.carWriteOk table i (carStored b table i) (b.tabEntry (carEntryAt table i) (carEntryWords table)) = false then
          ((c.put CAR_TBL_STATUS_REJECTED true).accErrAt CAR_TBL_CMD_at src).raiseInt carPage 2
        else
          let old := b.tabEntry (carEntryAt table i) (carEntryWords table)
          let d := if table = 0 ∧ ((carStored b table i).getD 5 0 ≠ old.getD 5 0 ∨ (carStored b table i).getD 6 0 ≠ old.getD 6 0) then
              { c with bOpened := c.bOpened.filter (· ≠ i) } else c
          if table = 0 then (d.setTabEntry (carEntryAt table i) (carStored b table i)).drainGroup i
          else d.setTabEntry (carEntryAt table i) (carStored b table i) := by
  have hcmd : b.carTblCmd src table i false = (carBusy b).carEntryWrite src table i
      ((List.range (carEntryWords table)).map fun k => (carBusy b).word (CAR_WIN_at k)) := by
    refine (if_neg ?_).trans (if_neg Bool.false_ne_true)
    simp [hidle, hi]
  have hok := carWriteOk_of (b := b) (c := carBusy b) rfl rfl rfl rfl (isPort_put_carTbl b true) table i
    (carStored b table i) (b.tabEntry (carEntryAt table i) (carEntryWords table))
  let raw := (List.range (carEntryWords table)).map fun k => (carBusy b).word (CAR_WIN_at k)
  let c := if ((List.range raw.length).any fun k => maskWord (raw.getD k 0) (carWordMask table k) != raw.getD k 0) then
    (carBusy b).rsvWriteAt CAR_TBL_CMD_at src else carBusy b
  have hc : onlyRegs (carBusy b) c ∧ sameWords (errorWords carPage) (carBusy b) c := by
    by_cases h : ((List.range raw.length).any fun k => maskWord (raw.getD k 0) (carWordMask table k) != raw.getD k 0) = true
    · rw [show c = _ from if_pos h]
      exact ⟨rsvWrite_onlyRegs _ _ _ _, rsvWrite_sameWords _ _ _ _⟩
    · rw [show c = _ from if_neg h]
      exact ⟨onlyRegs_refl _, sameWords_refl _ _⟩
  refine ⟨c, hc.1, hc.2, hcmd.trans ?_⟩
  rw [← hok, ← carStored_carBusy]
  rfl

theorem carTblCmd_read (hidle : b.is CAR_TBL_STATUS_BUSY = false) (hi : i < carTableLen table) :
    b.carTblCmd src table i true
      = (carBusy b).setWords (CAR_WIN_at 0) (b.tabEntry (carEntryAt table i) (carEntryWords table)) := by
  refine (if_neg ?_).trans (if_pos rfl)
  simp [hidle, hi]

end commands

/-- A rejected write shows so, with cause 2. -/
theorem carRejected_shows (c : Box) (src : Requester) (off : Nat) :
    let t := ((c.put CAR_TBL_STATUS_REJECTED true).accErr carPage off src).raiseInt carPage 2
    t.is CAR_TBL_STATUS_REJECTED = true ∧ t.is (pageFld carPage 16 2 1) = true ∧ t.is (PAGE_ERR_ACCERR carPage) = true
      ∧ onlyRegs c t := by
  intro t
  have hbody : sameOn bodyWord (c.put CAR_TBL_STATUS_REJECTED true) t :=
    sameOn_trans (accErr_body _ (p := carPage) (by decide) off src) (raiseInt_body _ (by decide) 2)
  refine ⟨(is_of_sameOn hbody (by decide)).trans (is_put_self c true rfl), raiseInt_sets _ _ _ (by decide) (by decide),
    (is_raiseInt _ _ _ (by decide)).trans (accErr_sets _ (by decide) _ _), ?_⟩
  exact onlyRegs_trans (put_onlyRegs c _ _) (onlyRegs_trans (accErr_onlyRegs _ _ _ _) (raiseInt_onlyRegs _ _ _))

/-- An entry that is stored on the box `d`, with the streams of a group looked at again. -/
theorem carStore_shows (d : Box) (table i at_ : Nat) (ws : List Word) :
    let t := if table = 0 then (d.setTabEntry at_ ws).drainGroup i else d.setTabEntry at_ ws
    t.tabEntry at_ ws.length = ws ∧ (∀ a, a < at_ ∨ at_ + 4 * ws.length ≤ a → t.tab a = d.tab a)
      ∧ t.is CAR_TBL_STATUS_BUSY = d.is CAR_TBL_STATUS_BUSY ∧ (table ≠ 0 → t.streams = d.streams)
      ∧ ∃ r o tb x, t = { d with regs := r, outbox := o, tabs := tb, streams := x } := by
  have hthis := tabEntry_setTabEntry d at_ ws
  have hother := fun a => setTabEntry_other d at_ ws (c := a)
  obtain ⟨tb, hbox⟩ := setTabEntry_eq d at_ ws
  rw [hbox] at hthis hother ⊢
  intro t
  by_cases htable : table = 0
  · rw [show t = _ from if_pos htable]
    obtain ⟨⟨r, o, x, heq⟩, hwords⟩ := drainGroup_drainOnly { d with tabs := tb } i
    have hbusy := is_of_sameWords hwords (f := CAR_TBL_STATUS_BUSY) (by decide)
    rw [heq] at hbusy ⊢
    exact ⟨hthis, hother, hbusy, fun h => absurd htable h, _, _, _, _, rfl⟩
  · rw [show t = _ from if_neg htable]
    exact ⟨hthis, hother, rfl, fun _ => rfl, _, _, _, _, rfl⟩

/-- Settles O35: a write stores the entry's writable bits or is rejected; a read fills the window. -/
theorem carouselTablesChangeAsCommanded : Obligations.CarouselTablesChangeAsCommanded := by
  intro s src table index htakes hidle hi k at_ old clean ws
  obtain ⟨hrun, hreach, hready⟩ := htakes
  have hact (read : Bool) := actReg_run s (fun b => b.carTblCmd src k index.toNat read) CAR_TBL_CMD_at src hrun hreach hready
  obtain ⟨c, ⟨r, o, hc⟩, hcwords, hcmd⟩ := carTblCmd_write (src := src) hidle hi
  have hbusy : c.is CAR_TBL_STATUS_BUSY = true :=
    (is_of_sameWords hcwords (f := CAR_TBL_STATUS_BUSY) (by decide)).trans (is_put_self s.toBox true rfl)
  refine ⟨fun hok => ?_, fun hbad => ?_, ?_⟩
  · have hcmd := hcmd.trans (if_neg (ne_false_of_eq_true hok))
    let d : Box := if k = 0 ∧ (ws.getD 5 0 ≠ old.getD 5 0 ∨ ws.getD 6 0 ≠ old.getD 6 0) then
      { c with bOpened := c.bOpened.filter (· ≠ index.toNat) } else c
    have hd : ∃ bo, d = { c with bOpened := bo } := by
      by_cases h : k = 0 ∧ (ws.getD 5 0 ≠ old.getD 5 0 ∨ ws.getD 6 0 ≠ old.getD 6 0)
      · exact ⟨_, if_pos h⟩
      · exact ⟨_, if_neg h⟩
    have hlen : ws.length = carEntryWords k := carStored_length
    obtain ⟨hthis, hother, hkept, hstreams, hframe⟩ := carStore_shows d k index.toNat at_ ws
    obtain ⟨x, hx⟩ : ∃ x, s.toBox.carTblCmd src k index.toNat false = x := ⟨_, rfl⟩
    rw [show (if k = 0 then (d.setTabEntry at_ ws).drainGroup index.toNat else d.setTabEntry at_ ws) = x from hcmd.symm.trans hx]
      at hthis hother hkept hstreams hframe
    rw [hlen] at hthis hother
    obtain ⟨bo, hd⟩ := hd
    rw [hd] at hother hkept hstreams hframe
    subst hc
    obtain ⟨r', o', tb, xs, rfl⟩ := hframe
    exact ⟨_, next_onBox (hact false) hx, hthis, hother, hkept.trans hbusy, hstreams, rfl⟩
  · have hcmd := hcmd.trans (if_pos hbad)
    obtain ⟨hrej, hcause, herr, hframe⟩ := carRejected_shows c src (wordOff CAR_TBL_CMD_at)
    subst hc
    obtain ⟨r', o', hbox⟩ := hframe
    have hcmd := hcmd.trans hbox
    rw [hbox] at hrej hcause herr
    exact ⟨_, next_onBox (hact false) hcmd, hrej, hcause, herr, rfl⟩
  · have hcmd := carTblCmd_read (src := src) hidle hi
    have hwin (j : Nat) (hj : j < carEntryWords k) : ((carBusy s.toBox).setWords (CAR_WIN_at 0) (s.tabEntry at_ (carEntryWords k))).word
        (CAR_WIN_at j) = s.tab (at_ + 4 * j) := by
      have hlen : j < (s.tabEntry at_ (carEntryWords k)).length := by simpa [Box.tabEntry] using hj
      exact (setWords_word (carBusy s.toBox) (CAR_WIN_at 0) _ hlen).trans (by simp [Box.tabEntry])
    have hkept : ((carBusy s.toBox).setWords (CAR_WIN_at 0) (s.tabEntry at_ (carEntryWords k))).word CAR_TBL_STATUS_at
        = (carBusy s.toBox).word CAR_TBL_STATUS_at := setWords_other _ _ _ (Or.inl (by decide))
    obtain ⟨r', hbox⟩ := setWords_eq (carBusy s.toBox) (CAR_WIN_at 0) (s.tabEntry at_ (carEntryWords k))
    have hcmd := hcmd.trans hbox
    rw [hbox] at hwin hkept
    exact ⟨_, next_onBox (hact true) hcmd, hwin, (congrArg (fun w => wordField w 0 1 != 0) hkept).trans (is_put_self s.toBox true rfl), rfl⟩

end Sys2Proof.Proofs
end

section
/-! # The kernel library and substitutions (sections 8.2 and 8.9) -/

namespace Sys2Proof.Proofs

open Sys2Proof Sys2Proof.Machine Sys2Proof.Safety Sys2Proof.Laws

/-! ### What INFO shows -/

/-- The words that INFO writes for an image's kind, format, worst cases and digest. -/
def infoShown (b : Box) (has : Bool) (kind fmt : Nat) (w : Nat → Nat) (figure : Nat) (digest : Nat → Nat) : Box :=
  let s1 := ((b.put TMB_KINFO_VALID has).wr TMB_KINFO_KIND kind).wr TMB_KINFO_FMT fmt
  let s2 := (List.range 4).foldl (fun (x : Box) i => x.wr (TMB_KWC_W i) (w i)) s1
  let s3 := s2.wr (TMB_KWC_W 4) figure
  ((List.range 12).foldl (fun (x : Box) i => x.wr (TMB_KDIGEST_DIGEST i) (digest i)) s3).raiseInt tmbPage 0

theorem infoShown_shows (b : Box) (has : Bool) (kind fmt : Nat) (w : Nat → Nat) (figure : Nat) (digest : Nat → Nat) :
    (infoShown b has kind fmt w figure digest).is TMB_KINFO_VALID = has
      ∧ onlyRegs b (infoShown b has kind fmt w figure digest) := by
  let s1 := ((b.put TMB_KINFO_VALID has).wr TMB_KINFO_KIND kind).wr TMB_KINFO_FMT fmt
  have h1 : s1.is TMB_KINFO_VALID = has :=
    (is_wr_apart _ _ (apart_bits rfl)).trans ((is_wr_apart _ _ (apart_bits rfl)).trans (is_put_self b has rfl))
  have hcases := foldl_sameOn (P := (· = TMB_KINFO_at)) (f := fun (x : Box) i => x.wr (TMB_KWC_W i) (w i)) (List.range 4)
    (fun c i _ => wr_sameOn c (w i) (f := TMB_KWC_W i) (by simp only [TMB_KWC_W, TMB_KWC_at, TMB_KINFO_at]; omega)) s1
  generalize hs2 : (List.range 4).foldl (fun (x : Box) i => x.wr (TMB_KWC_W i) (w i)) s1 = s2 at hcases
  have hfigure := wr_sameOn (P := (· = TMB_KINFO_at)) s2 figure (f := TMB_KWC_W 4) (by decide)
  have hdigest := foldl_sameOn (P := (· = TMB_KINFO_at)) (f := fun (x : Box) i => x.wr (TMB_KDIGEST_DIGEST i) (digest i)) (List.range 12)
    (fun c i _ => wr_sameOn c (digest i) (f := TMB_KDIGEST_DIGEST i) (by simp only [TMB_KDIGEST_DIGEST, TMB_KDIGEST_at, TMB_KINFO_at]; omega))
    (s2.wr (TMB_KWC_W 4) figure)
  have honly : onlyRegs b ((List.range 12).foldl (fun (x : Box) i => x.wr (TMB_KDIGEST_DIGEST i) (digest i)) (s2.wr (TMB_KWC_W 4) figure)) := by
    subst hs2
    refine onlyRegs_trans ?_ (foldl_onlyRegs _ (fun c i _ => wr_onlyRegs c _ _) _)
    refine onlyRegs_trans ?_ (wr_onlyRegs _ _ _)
    refine onlyRegs_trans ?_ (foldl_onlyRegs _ (fun c i _ => wr_onlyRegs c _ _) _)
    exact onlyRegs_trans (put_onlyRegs _ _ _) (onlyRegs_trans (wr_onlyRegs _ _ _) (wr_onlyRegs _ _ _))
  have heq : infoShown b has kind fmt w figure digest
      = ((List.range 12).foldl (fun (x : Box) i => x.wr (TMB_KDIGEST_DIGEST i) (digest i)) (s2.wr (TMB_KWC_W 4) figure)).raiseInt tmbPage 0 := by
    subst hs2
    rfl
  rw [heq]
  refine ⟨?_, onlyRegs_trans honly (raiseInt_onlyRegs _ _ _)⟩
  exact (is_raiseInt _ _ _ (by decide)).trans
    ((is_of_sameOn (sameOn_trans hcases (sameOn_trans hfigure hdigest)) (f := TMB_KINFO_VALID) rfl).trans h1)

theorem kInfo_shows (b : Box) (slot : Nat) : (b.kInfo slot).is TMB_KINFO_VALID = (mapGet (fun _ => []) b.kernels slot != [])
    ∧ onlyRegs b (b.kInfo slot) := infoShown_shows b _ _ _ _ _ _

/-! ### A command's end -/

section verify

variable {b : Box} {slot : Nat}

/-- The block when a verification has ended: the staged pieces are gone. -/
def verifyEnded (b : Box) : Box :=
  { (b.put TMB_KLOAD_STATUS_BUSY false).wr TMB_KLOAD_STATUS_STAGED 0 with kop := none, kpieces := [] }

theorem kloadVerifyDone_accepts (hop : b.kop = some (.verify slot)) (h : b.loaderReason slot = 0) : b.kloadVerifyDone
    = (((verifyEnded b).put TMB_KLOAD_STATUS_ACCEPTED true).putKernel slot
        (b.stagedImage.take (b.rd TMB_KLOAD_LEN_LENGTH))).raiseInt tmbPage 0 := by
  rw [Box.kloadVerifyDone, hop]
  exact if_neg (by simp [h])

theorem verifyAccepted_shows (b : Box) (slot : Nat) (image : List Byte) :
    let t := (((verifyEnded b).put TMB_KLOAD_STATUS_ACCEPTED true).putKernel slot image).raiseInt tmbPage 0
    t.is TMB_KLOAD_STATUS_ACCEPTED = true
      ∧ ∃ r o kb, t = { b with regs := r, outbox := o, kop := none, kpieces := [], kernBad := kb
                               kernels := mapSet (fun _ => []) b.kernels slot image } := by
  intro t
  have hset : t.is TMB_KLOAD_STATUS_ACCEPTED = true := (is_raiseInt _ _ _ (by decide)).trans (is_put_self (verifyEnded b) true rfl)
  have hput : ∃ r, (verifyEnded b).put TMB_KLOAD_STATUS_ACCEPTED true = { b with regs := r, kop := none, kpieces := [] } := by
    obtain ⟨r, h⟩ : ∃ r, verifyEnded b = { b with regs := r, kop := none, kpieces := [] } := ⟨_, rfl⟩
    rw [h]
    exact ⟨_, rfl⟩
  obtain ⟨r1, h1⟩ := hput
  obtain ⟨r, o, hbox⟩ := raiseInt_onlyRegs (((verifyEnded b).put TMB_KLOAD_STATUS_ACCEPTED true).putKernel slot image) tmbPage 0
  have hframe : t = _ := hbox
  rw [h1] at hframe
  exact ⟨hset, r, o, _, hframe⟩

theorem kloadVerifyDone_rejects (hop : b.kop = some (.verify slot)) (h : b.loaderReason slot ≠ 0) :
    b.kloadVerifyDone = (verifyEnded b).kReject (b.loaderReason slot) := by
  rw [Box.kloadVerifyDone, hop]
  exact if_pos h

theorem loaderReason_lt (b : Box) (slot : Nat) : b.loaderReason slot < 256 := by
  unfold Box.loaderReason
  dsimp only
  split_ifs <;> decide

theorem kReject_shows (b : Box) {reason : Nat} (h : reason < 256) : (b.kReject reason).is TMB_KLOAD_STATUS_REJECTED = true
    ∧ (b.kReject reason).rd TMB_KLOAD_STATUS_REASON = reason ∧ onlyRegs b (b.kReject reason) :=
  ⟨(is_raiseInt _ _ _ (by decide)).trans (is_put_self _ true rfl),
    (rd_raiseInt _ _ _ (by decide)).trans ((rd_put_apart _ _ (apart_bits rfl)).trans (rd_wr_lt b (by decide) h)),
    onlyRegs_trans (wr_onlyRegs b _ _) (onlyRegs_trans (put_onlyRegs _ _ _) (raiseInt_onlyRegs _ _ _))⟩

end verify

/-- The end of STAGE: the piece holds the window's content, and STAGED names it too. -/
theorem kloadStageDone_eq {b : Box} {p : Nat} (hop : b.kop = some (.stage p)) : b.kloadStageDone =
    { (b.put TMB_KLOAD_STATUS_BUSY false).wr TMB_KLOAD_STATUS_STAGED (b.rd TMB_KLOAD_STATUS_STAGED ||| 2 ^ p) with
      kop := none
      kpieces := mapSet (fun _ => []) b.kpieces p (wordBytesLE ((List.range 8192).map fun i => b.word (TMB_WIN_at i))) } := by
  rw [Box.kloadStageDone, hop]

/-! ### Substitutions -/

/-- A sliver that its array's spare takes over. -/
theorem substTake_shows (b : Box) {t l : Nat} (ht : t < 8) (hl : l < 512) :
    (b.substTake (8 * l + t)).is (TMB_SLIVER_MAP_SUBST t l) = true ∧ (b.substTake (8 * l + t)).rd (TMB_SLIVER_MAP_POS t l) = 16
      ∧ (b.substTake (8 * l + t)).is (TMB_SLIVER_MAP_QUAR t l) = false
      ∧ (b.substTake (8 * l + t)).is (pageFld (tmbTentPage t) 16 1 1) = true
      ∧ (b.substTake (8 * l + t)).substs = b.substs.filter (· ≠ 8 * l + t)
      ∧ ∃ r o c x, b.substTake (8 * l + t) = { b with regs := r, outbox := o, ctrs := c, substs := x } := by
  have htent : (8 * l + t) % 8 = t := by omega
  have hsliver : (8 * l + t) / 8 = l := by omega
  have hp : tmbTentPage t < 2304 := (tentPage_lt ht (by decide)).trans (by decide)
  rw [Box.substTake, htent, hsliver]
  generalize hsubsts : b.substs.filter (fun x => decide (x ≠ 8 * l + t)) = ys
  let c : Box := { b with substs := ys }
  let d := ((c.put (TMB_SLIVER_MAP_SUBST t l) true).wr (TMB_SLIVER_MAP_POS t l) 16).put (TMB_SLIVER_MAP_QUAR t l) false
  have hsubst : d.is (TMB_SLIVER_MAP_SUBST t l) = true :=
    (is_put_apart _ _ ⟨show 31 + 1 ≤ 32 by decide, Or.inr (Or.inl (show 30 + 1 ≤ 31 by decide))⟩).trans
      ((is_wr_apart _ _ ⟨show 0 + 5 ≤ 32 by decide, Or.inr (Or.inr (show 0 + 5 ≤ 30 by decide))⟩).trans
        (is_put c _ true (show 30 + 1 ≤ 32 by decide) (show 0 < 1 by decide)))
  have hpos : d.rd (TMB_SLIVER_MAP_POS t l) = 16 :=
    (rd_put_apart _ _ ⟨show 31 + 1 ≤ 32 by decide, Or.inr (Or.inl (show 0 + 5 ≤ 31 by decide))⟩).trans
      (rd_wr_lt _ (show 0 + 5 ≤ 32 by decide) (show 16 < 2 ^ 5 by decide))
  have hquar : d.is (TMB_SLIVER_MAP_QUAR t l) = false := is_put _ _ false (show 31 + 1 ≤ 32 by decide) (show 0 < 1 by decide)
  have hmap : bodyWord (TMB_SLIVER_MAP_at t l) ∧ TMB_SLIVER_MAP_at t l ≠ TMB_SUBST_STATUS_at t := by
    simp only [bodyWord, TMB_SLIVER_MAP_at, TMB_SUBST_STATUS_at]
    omega
  generalize hpend : (d.substs.any fun x => x % 8 == t) = pending
  have hkept : sameOn (· = TMB_SLIVER_MAP_at t l) d
      (((d.put (TMB_SUBST_STATUS_PENDING t) pending).count (tmbTentPage t) 2).raiseInt (tmbTentPage t) 1) := by
    refine sameOn_trans (put_sameOn d (f := TMB_SUBST_STATUS_PENDING t) pending fun h => hmap.2 h.symm) ?_
    rintro a rfl
    exact sameOn_trans (count_body _ hp (by decide)) (raiseInt_body _ hp 1) _ hmap.1
  have honly : onlyRegsCtrs c
      (((d.put (TMB_SUBST_STATUS_PENDING t) pending).count (tmbTentPage t) 2).raiseInt (tmbTentPage t) 1) := by
    refine onlyRegsCtrs_trans (onlyRegs.toCtrs ?_) (onlyRegsCtrs_trans (bump_onlyRegsCtrs _ _ _ _) (raiseInt_onlyRegs _ _ _).toCtrs)
    exact onlyRegs_trans (put_onlyRegs _ _ _) (onlyRegs_trans (wr_onlyRegs _ _ _) (onlyRegs_trans (put_onlyRegs _ _ _) (put_onlyRegs _ _ _)))
  obtain ⟨r, o, x, heq⟩ := honly
  refine ⟨(is_of_sameOn hkept rfl).trans hsubst, (rd_of_sameOn hkept rfl).trans hpos, (is_of_sameOn hkept rfl).trans hquar,
    raiseInt_sets _ _ _ (by decide) (pageVector_word_lt hp), ?_, ?_⟩
  · exact congrArg Box.substs heq
  · exact ⟨r, o, x, ys, heq⟩

section command

variable {b : Box} {src : Requester} {slot : Nat}

theorem kloadCmd_idle (h : b.is TMB_KLOAD_STATUS_BUSY = false) (cmd piece slot : Nat) : b.kloadCmd src cmd piece slot
    = match cmd with
      | 1 =>
        if piece = 3 then b.rsvWriteAt TMB_KLOAD_CMD_at src
        else { b.put TMB_KLOAD_STATUS_BUSY true with kop := some (.stage piece) }
      | 2 => if b.kslotInUse slot then b.kReject 8
             else { b.put TMB_KLOAD_STATUS_BUSY true with kop := some (.verify slot) }
      | 3 => if b.kslotInUse slot then b.kReject 8 else (b.putKernel slot []).raiseInt tmbPage 0
      | 4 => b.kInfo slot
      | _ => b.rsvWriteAt TMB_KLOAD_CMD_at src :=
  if_neg (by simp [h])

/-- What a substitution that is not refused does, by the sliver's stream. -/
def substGranted (b : Box) (t l : Nat) : Box :=
  let s1 := b.wr (TMB_SUBST_STATUS_SPARES_FREE t) (b.rd (TMB_SUBST_STATUS_SPARES_FREE t) - 1)
  match b.sliverOwner (8 * l + t) with
  | some st =>
    if 2 ≤ (b.strm st).state then { s1.put (TMB_SUBST_STATUS_PENDING t) true with substs := s1.substs ++ [8 * l + t] }
    else s1.substTake (8 * l + t)
  | none => s1.substTake (8 * l + t)

theorem tmbSubst_allowed {t l : Nat} (hfree : b.is (TMB_SLIVER_MAP_SUBST t l) = false)
    (hpend : (b.substs.any fun x => x % 8 == t && arrayOf (x / 8) == arrayOf l) = false) (hspare : b.spareUsed t (arrayOf l) = false) :
    b.tmbSubst t l = substGranted b t l := by
  rw [Box.tmbSubst, hfree, hpend, hspare]
  rfl

theorem substGranted_none {t l : Nat} (h : b.sliverOwner (8 * l + t) = none) : substGranted b t l
    = (b.wr (TMB_SUBST_STATUS_SPARES_FREE t) (b.rd (TMB_SUBST_STATUS_SPARES_FREE t) - 1)).substTake (8 * l + t) := by
  rw [substGranted, h]

theorem substGranted_waits {t l st : Nat} (h : b.sliverOwner (8 * l + t) = some st) (hstate : 2 ≤ (b.strm st).state) :
    substGranted b t l = { (b.wr (TMB_SUBST_STATUS_SPARES_FREE t) (b.rd (TMB_SUBST_STATUS_SPARES_FREE t) - 1)).put
      (TMB_SUBST_STATUS_PENDING t) true with substs := b.substs ++ [8 * l + t] } := by
  rw [substGranted, h]
  exact if_pos hstate

end command

/-- Settles O41: each command is done at once or begins its work, and the work's end shows its result. -/
theorem kernelLibraryCommands : Obligations.KernelLibraryCommands := by
  intro s src
  refine ⟨fun htakes hidle => ?_, fun hrun => ?_, fun t l htakes hfree hpend hspare => ?_, fun sl hrun hmem hnone => ?_⟩
  · obtain ⟨hrun, hreach, hready⟩ := htakes
    have hact (cmd piece slot : Nat) := actReg_run s (fun b => b.kloadCmd src cmd piece slot) TMB_KLOAD_CMD_at src hrun hreach hready
    have hcmd (cmd piece slot : Nat) := kloadCmd_idle (src := src) hidle cmd piece slot
    refine ⟨fun piece hpiece => ?_, fun slot => ⟨fun hfree => ⟨?_, ?_⟩, ?_⟩⟩
    · have hne : piece.toNat ≠ 3 := fun h => hpiece (BitVec.eq_of_toNat_eq h)
      exact ⟨_, next_onBox (hact 1 piece.toNat 0) ((hcmd _ _ _).trans (if_neg hne)), is_put_self _ true rfl, rfl,
        put_sameWords s.toBox TMB_KLOAD_STATUS_BUSY true⟩
    · exact ⟨_, next_onBox (hact 2 0 slot.toNat) ((hcmd _ _ _).trans (if_neg (ne_true_of_eq_false hfree))), is_put_self _ true rfl, rfl⟩
    · obtain ⟨r, o, hbox⟩ := raiseInt_onlyRegs (s.toBox.putKernel slot.toNat []) tmbPage 0
      exact ⟨_, next_onBox (hact 3 0 slot.toNat) ((hcmd _ _ _).trans ((if_neg (ne_true_of_eq_false hfree)).trans hbox)),
        mapGet_mapSet_same _ _ _ _, fun k hk => mapGet_mapSet_other _ _ _ hk, rfl⟩
    · obtain ⟨hvalid, r, o, hbox⟩ := kInfo_shows s.toBox slot.toNat
      rw [hbox] at hvalid
      exact ⟨_, next_onBox (hact 4 0 slot.toNat) ((hcmd _ _ _).trans hbox), hvalid, rfl⟩
  · refine ⟨fun p hop => ?_, fun slot hop => ⟨fun hok => ?_, fun hbad => ?_⟩⟩
    · refine ⟨_, next_onBox (actRun_run s Box.kloadStageDone hrun) (kloadStageDone_eq hop),
        (is_wr_apart _ _ (apart_bits rfl)).trans (is_put_self _ false rfl), rfl, mapGet_mapSet_same _ _ _ _, fun hp => ?_⟩
      have hlt : s.rd TMB_KLOAD_STATUS_STAGED ||| 2 ^ p < 2 ^ 3 :=
        Nat.or_lt_two_pow (wordField_lt _ _ _) (Nat.pow_lt_pow_right (by decide) hp)
      refine (congrArg (·.testBit p) (rd_wr_lt (f := TMB_KLOAD_STATUS_STAGED) _ (show 4 + 3 ≤ 32 by decide) hlt)).trans ?_
      rw [Nat.testBit_or, Nat.testBit_two_pow_self, Bool.or_true]
    · obtain ⟨hset, r, o, kb, hbox⟩ := verifyAccepted_shows s.toBox slot (s.stagedImage.take (s.rd TMB_KLOAD_LEN_LENGTH))
      have hcmd := (kloadVerifyDone_accepts hop hok).trans hbox
      rw [hbox] at hset
      exact ⟨_, next_onBox (actRun_run s Box.kloadVerifyDone hrun) hcmd, hset, rfl, rfl⟩
    · obtain ⟨hrej, hreason, r, o, hbox⟩ := kReject_shows (verifyEnded s.toBox) (loaderReason_lt s.toBox slot)
      have hcmd := (kloadVerifyDone_rejects hop hbad).trans hbox
      rw [hbox] at hrej hreason
      exact ⟨_, next_onBox (actRun_run s Box.kloadVerifyDone hrun) hcmd, hrej, hreason, rfl⟩
  · obtain ⟨hrun, hreach, hready⟩ := htakes
    have hact := actReg_run s (fun b => b.tmbSubst t.toNat l.toNat) (TMB_SUBST_CMD_at t.toNat) src hrun hreach hready
    refine ⟨fun hnone => ?_, fun st hsome hstate => ?_⟩
    · have hcmd := (tmbSubst_allowed hfree hpend hspare).trans (substGranted_none hnone)
      have hshows := substTake_shows (s.toBox.wr (TMB_SUBST_STATUS_SPARES_FREE t.toNat) (s.rd (TMB_SUBST_STATUS_SPARES_FREE t.toNat) - 1))
        t.isLt l.isLt
      rw [← hcmd] at hshows
      obtain ⟨x, hx⟩ : ∃ x, s.toBox.tmbSubst t.toNat l.toNat = x := ⟨_, rfl⟩
      rw [hx] at hshows
      obtain ⟨hsubst, hpos, hquar, hcause, -, -⟩ := hshows
      exact ⟨_, next_onBox hact hx, hsubst, hpos, hquar, hcause⟩
    · exact ⟨_, next_onBox hact ((tmbSubst_allowed hfree hpend hspare).trans (substGranted_waits hsome hstate)),
        is_put _ _ true (show 6 + 1 ≤ 32 by decide) (show 0 < 1 by decide), rfl⟩
  · have hsl : 8 * (sl.toNat / 8) + sl.toNat % 8 = sl.toNat := by omega
    have hcmd : (if sl.toNat ∉ s.toBox.substs then s.toBox
        else match s.toBox.sliverOwner sl.toNat with
          | some st => if (s.toBox.strm st).state ≤ 1 ∨ s.toBox.carOp = some (4, st) then s.toBox.substTake sl.toNat else s.toBox
          | none => s.toBox.substTake sl.toNat) = s.toBox.substTake sl.toNat := by
      rw [if_neg (not_not.mpr hmem), hnone]
    have hshows := substTake_shows s.toBox (t := sl.toNat % 8) (l := sl.toNat / 8) (by omega) (by have := sl.isLt; omega)
    rw [hsl] at hshows
    obtain ⟨x, hx⟩ : ∃ x, s.toBox.substTake sl.toNat = x := ⟨_, rfl⟩
    rw [hx] at hshows
    obtain ⟨hsubst, hpos, -, -, hsubsts, r, o, c, ys, rfl⟩ := hshows
    refine ⟨_, next_onBox (actRun_run s _ hrun) (hcmd.trans hx), ?_, hsubst, hpos, rfl⟩
    intro h
    rw [show ys = _ from hsubsts] at h
    simpa using (List.mem_filter.mp h).2

end Sys2Proof.Proofs
end

section
/-!
# A drain of a stream whose open epoch is complete
-/

namespace Sys2Proof.Proofs
open Sys2Proof Sys2Proof.Machine Sys2Proof.Safety Sys2Proof.Laws

/-- A running device whose stream 0 is active with epoch 0 open, complete and sealed, and not advanced yet. -/
def drainOfDone : State :=
  { State.reset with
      regs := [((PAGE_STATUS_READY carPage).addr, 1)]
      tabs := [(carEntryAt 1 0, 0x80000000), (carEntryAt 1 0 + 16, 1)]
      streams := [(0, { epochs := [{ epoch := 0, mset := 0, mepoch := 0, nc := 0, bmap := [], done := true, passed := true }] })] }

/-- No epoch of the stream is live, so the drain ends at once. -/
theorem drainOfDone_shows : drainOfDone.is (PAGE_STATUS_READY (wordPage CAR_STREAM_CMD_at)) = true ∧ drainOfDone.curOpen 0 = true
    ∧ (drainOfDone.strm 0).state = 2 ∧ ((drainOfDone.toBox.strmCmd .firmware 3 0 0).strm 0).state = 1 := by decide +kernel

/-- Refutes O36: a stream whose open epoch has completed has no live epoch, so DRAIN leaves it in state 1 although CUR_OPEN is set. -/
theorem not_streamCommandsMoveTheState : ¬ Obligations.StreamCommandsMoveTheState := by
  unfold Obligations.StreamCommandsMoveTheState
  intro h
  obtain ⟨hcommands, -⟩ := h drainOfDone .firmware 0
  obtain ⟨hready, hopen, hstate, hends⟩ := drainOfDone_shows
  obtain ⟨-, -, -, hdrain, -⟩ := hcommands ⟨rfl, rfl, hready⟩ (by decide +kernel)
  obtain ⟨t, ht, htstate, -⟩ := hdrain hstate
  have hrun : t = drainOfDone.onBox fun b => b.strmCmd .firmware 3 0 0 :=
    Host.Outcome.next.inj (ht.symm.trans (actReg_run drainOfDone (fun b => b.strmCmd .firmware 3 0 0) CAR_STREAM_CMD_at .firmware
      rfl rfl hready))
  have hdone : (t.strm 0).state = 1 := by
    rw [hrun]
    exact hends
  have hopen' : (drainOfDone.curOpen 0 || drainOfDone.nextOpen 0) = true := by rw [hopen, Bool.true_or]
  rw [show (t.strm 0).state = 3 from htstate.trans (if_pos hopen')] at hdone
  exact absurd hdone (by decide)

end Sys2Proof.Proofs
end

section
/-!
# Ports and their status

What the accessors of a port's state and status leave (sections 2.5 and 16.6).
-/

namespace Sys2Proof.Proofs

open Sys2Proof Sys2Proof.Machine Sys2Proof.Safety Sys2Proof.Laws

/-- A key that is set again holds the last value alone. -/
theorem mapSet_mapSet {α : Type} [DecidableEq α] (d : Nat → α) (m : Sparse α) (k : Nat) {v w : α} (hv : v ≠ d k) :
    mapSet d (mapSet d m k v) k w = mapSet d m k w := by
  induction m with
  | nil =>
    by_cases hw : w = d k
    · simp [mapSet, hv, hw]
    · simp [mapSet, hv, hw]
  | cons e m ih =>
    obtain ⟨j, u⟩ := e
    by_cases hlt : k < j
    · by_cases hw : w = d k
      · simp [mapSet, hlt, hv, hw]
      · simp [mapSet, hlt, hv, hw]
    · by_cases heq : k = j
      · subst heq
        simp [mapSet, hv]
      · simp [mapSet, hlt, heq, ih]

section status

variable {b : Box} {p : Nat}

/-- A word of port `p`'s block of control registers. -/
theorem lnkWord_body (p : Nat) : bodyWord (LNK_PORT_STATUS_at p) ∧ bodyWord (LNK_LANE_MAP_at p) ∧ bodyWord (LNK_PORT_CTRL_at p)
    ∧ bodyWord (LNK_TRAIN_STATUS_at p) ∧ bodyWord (LNK_RTT_at p) := by
  simp only [bodyWord, LNK_PORT_STATUS_at, LNK_LANE_MAP_at, LNK_PORT_CTRL_at, LNK_TRAIN_STATUS_at, LNK_RTT_at]
  omega

theorem lane_map_ne_status (p q : Nat) : LNK_LANE_MAP_at p ≠ LNK_PORT_STATUS_at q := by
  rw [LNK_LANE_MAP_at, LNK_PORT_STATUS_at]
  omega

/-- The status of port `p` but for the lanes in use and what is pending. -/
theorem syncLink_shows (b : Box) (p : Nat) :
    (b.syncLink p).is (LNK_PORT_STATUS_CHANGE_PENDING p) = ((b.port p).pendTx.isSome || (b.port p).pendRx.isSome)
      ∧ (b.syncLink p).is (LNK_PORT_STATUS_PAUSED p) = ((b.port p).pauseTx.isSome || (b.port p).pauseRx.isSome)
      ∧ sameWords [LNK_PORT_STATUS_at p] b (b.syncLink p) ∧ ∃ r, b.syncLink p = { b with regs := r } := by
  let c := b.put (LNK_PORT_STATUS_CHANGE_PENDING p) ((b.port p).pendTx.isSome || (b.port p).pendRx.isSome)
  let d := c.put (LNK_PORT_STATUS_PAUSED p) ((b.port p).pauseTx.isSome || (b.port p).pauseRx.isSome)
  refine ⟨?_, ?_, ?_, _, rfl⟩
  · exact (is_wr_apart d _ (apart_bits rfl)).trans ((is_put_apart c _ (apart_bits rfl)).trans (is_put_self b _ rfl))
  · exact (is_wr_apart d _ (apart_bits rfl)).trans (is_put_self c _ rfl)
  · exact sameWords_trans (put_sameWords b (LNK_PORT_STATUS_CHANGE_PENDING p) _)
      (sameWords_trans (put_sameWords c (LNK_PORT_STATUS_PAUSED p) _) (wr_sameWords d (LNK_PORT_STATUS_N p) _))

/-- A port's state with its status after it. -/
theorem setLink_shows (b : Box) (p : Nat) (x : Port) :
    (b.setLink p x).is (LNK_PORT_STATUS_CHANGE_PENDING p) = (x.pendTx.isSome || x.pendRx.isSome)
      ∧ (b.setLink p x).is (LNK_PORT_STATUS_PAUSED p) = (x.pauseTx.isSome || x.pauseRx.isSome)
      ∧ sameWords [LNK_PORT_STATUS_at p] b (b.setLink p x) ∧ ∃ r, b.setLink p x = { b with regs := r, ports := (b.setPort p x).ports } := by
  obtain ⟨hpend, hpaused, hwords, r, heq⟩ := syncLink_shows (b.setPort p x) p
  rw [port_setPort] at hpend hpaused
  exact ⟨hpend, hpaused, hwords, r, heq⟩

theorem sendCtl_eq (b : Box) (p : Nat) (m : List Byte) :
    b.sendCtl p m = b.setPort p { b.port p with ctlQ := (b.port p).ctlQ ++ [m] } := rfl

end status

/-! ### Lane map changes (R59) -/

section lanes

variable {b : Box} {p : Nat} {c : LaneChange}

theorem onLaneReq_follows {force : Bool} {map t : Nat}
    (hlanes : (([0, 1, 2, 3].map (mapLane map)).filter (· ≠ 7)).all (fun w => decide (w ∈ b.receivable p ∧ w ∈ (b.port p).aligned)) = true)
    (hpend : (b.port p).pendRx = none ∨ force = true)
    (hmin : (if force then 64 else 4096) ≤ (t + 2 ^ 32 + 1 - (b.port p).rxSlot) % 2 ^ 32)
    (hmax : (t + 2 ^ 32 + 1 - (b.port p).rxSlot) % 2 ^ 32 ≤ 65536) : b.onLaneReq p force map t
      = (b.setLink p { b.port p with pendRx := some ⟨map, t, force, true, true⟩ }).sendCtl p (msgLaneAck t) := by
  have hused : ¬ (([0, 1, 2, 3].map (mapLane map)).filter (· ≠ 7)).any (fun w => decide (w ∉ b.receivable p ∨ w ∉ (b.port p).aligned)) = true := by
    intro h
    obtain ⟨w, hw, hout⟩ := List.any_eq_true.mp h
    have hin := List.all_eq_true.mp hlanes w hw
    simp only [decide_eq_true_eq] at hin hout
    exact hout.elim (· hin.1) (· hin.2)
  have hfree : ¬ ((b.port p).pendRx.isSome && !force) = true := by
    rcases hpend with h | h
    · simp [h]
    · simp [h]
  exact (if_neg hused).trans ((if_neg hfree).trans (if_neg (not_or.mpr ⟨by simpa using hmin, Nat.not_lt.mpr hmax⟩)))

/-- A followed request pends and is acknowledged. -/
theorem laneReq_shows (b : Box) (p : Nat) (x : Port) (hx : x.pendRx ≠ none) (m : List Byte) :
    ((b.setLink p x).sendCtl p m).is (LNK_PORT_STATUS_CHANGE_PENDING p) = true
      ∧ sameWords [LNK_PORT_STATUS_at p] b ((b.setLink p x).sendCtl p m)
      ∧ ∃ r, (b.setLink p x).sendCtl p m
        = { b with regs := r, ports := (b.setPort p { x with ctlQ := x.ctlQ ++ [m] }).ports } := by
  obtain ⟨hpend, -, hwords, r, heq⟩ := setLink_shows b p x
  have hport : (b.setLink p x).port p = x := by
    rw [heq]
    exact port_setPort _ p x
  have hsome : (x.pendTx.isSome || x.pendRx.isSome) = true := by
    rw [Option.isSome_iff_ne_none.mpr hx, Bool.or_true]
  have hset : x ≠ {} := fun h => hx (by rw [h])
  rw [hsome] at hpend
  refine ⟨hpend, hwords, r, ?_⟩
  rw [sendCtl_eq, hport, heq]
  exact congrArg (fun ps => ({ b with regs := r, ports := ps } : Box)) (mapSet_mapSet _ b.ports p hset)

theorem onLaneAck_named {t : Nat} (h : (b.port p).pendTx = some c) (hsent : c.sent = true) (hat : c.at_ = t) :
    b.onLaneAck p t = b.setPort p { b.port p with pendTx := some { c with acked := true } } := by
  rw [Box.onLaneAck, h]
  exact if_pos ⟨hsent, hat⟩

theorem onLaneNak_named {t : Nat} (h : (b.port p).pendTx = some c) (hsent : c.sent = true) (hforce : c.force = false)
    (hat : c.at_ = t) : b.onLaneNak p t = b.setLink p { b.port p with pendTx := none } := by
  rw [Box.onLaneNak, h]
  exact if_pos ⟨hsent, hat, hforce⟩

theorem laneCancel_due (h : (b.port p).pendTx = some c) (hsent : c.sent = true) (hforce : c.force = false)
    (hacked : c.acked = false) (hslot : slotReached ((b.port p).txSlot + 1024) c.at_ = true) :
    b.laneCancel p = b.setLink p { b.port p with pendTx := none } := by
  rw [Box.laneCancel, h]
  exact if_pos (by rw [hsent, hforce, hacked, hslot]; rfl)

theorem laneSwitch_rx (h : (b.port p).pendRx = some c) (hslot : slotReached (b.port p).rxSlot c.at_ = true) :
    b.laneSwitch p .rx = (b.wr (LNK_LANE_MAP_RX p) c.map).setLink p { b.port p with pendRx := none } := by
  rw [Box.laneSwitch, h]
  exact if_pos hslot

/-- The switched map, before a change of the number of lanes shows. -/
def txSwitched (b : Box) (p map : Nat) : Box := (b.wr (LNK_LANE_MAP_TX p) map).setLink p { b.port p with pendTx := none }

/-- The block with a new transmit map in force. -/
def txInForce (b : Box) (p map : Nat) : Box :=
  if ((txSwitched b p map).txLanes p).length = (b.txLanes p).length then txSwitched b p map
  else (txSwitched b p map).envEvent p 2

theorem laneSwitch_tx (h : (b.port p).pendTx = some c) (hsent : c.sent = true) (hslot : slotReached (b.port p).txSlot c.at_ = true)
    (hack : c.acked = true ∨ c.force = true) : b.laneSwitch p .tx = txInForce b p c.map := by
  rw [Box.laneSwitch, h]
  refine if_pos ?_
  rw [hsent, hslot, Bool.true_and, Bool.true_and, Bool.or_eq_true]
  exact hack

theorem envEvent_onlyRegs (b : Box) (p bit : Nat) : onlyRegs b (b.envEvent p bit) := by
  rw [Box.envEvent]
  split
  · exact envBreak_onlyRegs b p bit
  · exact onlyRegs_refl b

/-- A break of the envelope writes the port's schedule status and the causes of its page. -/
theorem envEvent_sameWords (b : Box) (p bit : Nat) :
    sameWords (CAL_SCHED_STATUS_at p :: causeWords (calPage (p / 256))) b (b.envEvent p bit) := by
  rw [Box.envEvent]
  split
  · rw [Box.envBreak]
    split
    · exact sameWords_refl _ _
    · exact sameWords_trans (sameWords_mono (put_sameWords b { CAL_SCHED_STATUS_ENV p with lo := bit } true) (by simp [CAL_SCHED_STATUS_ENV]))
        (sameWords_mono (raiseInt_sameWords _ _ _) fun _ => List.mem_cons_of_mem _)
  · exact sameWords_refl _ _

theorem txInForce_shows (hp : p < 2048) (map : Nat) :
    (txInForce b p map).rd (LNK_LANE_MAP_TX p) = map % 4096
      ∧ (txInForce b p map).rd (LNK_LANE_MAP_RX p) = b.rd (LNK_LANE_MAP_RX p)
      ∧ (txInForce b p map).port p = { b.port p with pendTx := none } := by
  obtain ⟨-, -, hwords, r, heq⟩ := setLink_shows (b.wr (LNK_LANE_MAP_TX p) map) p { b.port p with pendTx := none }
  have hmap : (LNK_LANE_MAP_at p) ∉ [LNK_PORT_STATUS_at p] := by simpa using lane_map_ne_status p p
  have htx : (txSwitched b p map).rd (LNK_LANE_MAP_TX p) = map % 4096 :=
    (rd_of_sameWords hwords hmap).trans (rd_wr b (LNK_LANE_MAP_TX p) map (show 16 + 12 ≤ 32 by decide))
  have hrx : (txSwitched b p map).rd (LNK_LANE_MAP_RX p) = b.rd (LNK_LANE_MAP_RX p) :=
    (rd_of_sameWords hwords hmap).trans (rd_wr_apart b map (apart_bits rfl))
  have hport : (txSwitched b p map).port p = { b.port p with pendTx := none } := by
    rw [txSwitched, heq]
    exact port_setPort _ p _
  by_cases hn : ((txSwitched b p map).txLanes p).length = (b.txLanes p).length
  · rw [txInForce, if_pos hn]
    exact ⟨htx, hrx, hport⟩
  · rw [txInForce, if_neg hn]
    have hkept : LNK_LANE_MAP_at p ∉ CAL_SCHED_STATUS_at p :: causeWords (calPage (p / 256)) := by
      intro h
      rcases List.mem_cons.mp h with h | h
      · rw [LNK_LANE_MAP_at, CAL_SCHED_STATUS_at] at h
        omega
      · exact causeWords_not_body (p := calPage (p / 256)) ((tentPage_lt (by omega) (by decide)).trans (by decide)) h (lnkWord_body p).2.1
    have henv := envEvent_sameWords (txSwitched b p map) p 2
    obtain ⟨r', o, honly⟩ := envEvent_onlyRegs (txSwitched b p map) p 2
    refine ⟨(rd_of_sameWords henv hkept).trans htx, (rd_of_sameWords henv hkept).trans hrx, ?_⟩
    rw [honly]
    exact hport

end lanes

/-- Settles O22: each message of the handshake acts on the change it names. -/
theorem laneMapChangesFollowTheHandshake : Obligations.LaneMapChangesFollowTheHandshake := by
  intro s p hrun x
  refine ⟨fun force map at_ hup hlanes hpend hmin hmax => ?_, fun c hc hsent at_ hat => ⟨?_, fun reason hforce => ?_⟩,
    fun c hc hsent hforce hacked hslot => ?_, fun c hc hsent hslot hack => ?_, fun c hc hslot => ?_⟩
  · have hact := actRun_run s (fun b => if b.up p.toNat then b.onLaneReq p.toNat force map.toNat at_.toNat else b) hrun
    have hcmd : (if s.toBox.up p.toNat = true then s.toBox.onLaneReq p.toNat force map.toNat at_.toNat else s.toBox) = _ :=
      (if_pos hup).trans (onLaneReq_follows hlanes hpend hmin hmax)
    obtain ⟨hset, hwords, r, hbox⟩ := laneReq_shows s.toBox p.toNat
      { x with pendRx := some ⟨map.toNat, at_.toNat, force, true, true⟩ } (by simp) (msgLaneAck at_.toNat)
    have hcmd := hcmd.trans hbox
    rw [hbox] at hset hwords
    exact ⟨_, next_onBox hact hcmd, hset, rfl, hwords⟩
  · exact next_onBox (actRun_run s (fun b => b.onLaneAck p.toNat at_.toNat) hrun) (onLaneAck_named hc hsent hat)
  · obtain ⟨-, -, hwords, r, hbox⟩ := setLink_shows s.toBox p.toNat { x with pendTx := none }
    have hcmd := (onLaneNak_named hc hsent hforce hat).trans hbox
    rw [hbox] at hwords
    exact ⟨_, next_onBox (actRun_run s (fun b => b.onLaneNak p.toNat at_.toNat) hrun) hcmd, rfl, hwords⟩
  · obtain ⟨-, -, hwords, r, hbox⟩ := setLink_shows s.toBox p.toNat { x with pendTx := none }
    have hcmd := (laneCancel_due hc hsent hforce hacked hslot).trans hbox
    rw [hbox] at hwords
    exact ⟨_, next_onBox (actRun_run s (fun b => b.laneCancel p.toNat) hrun) hcmd, rfl, hwords⟩
  · have hshows := txInForce_shows (b := s.toBox) p.isLt c.map
    have hcmd := laneSwitch_tx hc hsent hslot hack
    generalize txInForce s.toBox p.toNat c.map = y at hshows hcmd
    obtain ⟨htx, hrx, hport⟩ := hshows
    exact ⟨_, next_onBox (actRun_run s (fun b => b.laneSwitch p.toNat .tx) hrun) hcmd, htx, hrx, hport⟩
  · obtain ⟨-, -, hwords, r, hbox⟩ := setLink_shows (s.toBox.wr (LNK_LANE_MAP_RX p.toNat) c.map) p.toNat { x with pendRx := none }
    have hcmd := (laneSwitch_rx hc hslot).trans hbox
    have hmap : (LNK_LANE_MAP_at p.toNat) ∉ [LNK_PORT_STATUS_at p.toNat] := by simpa using lane_map_ne_status p.toNat p.toNat
    have hrx := (rd_of_sameWords hwords hmap).trans (rd_wr s.toBox (LNK_LANE_MAP_RX p.toNat) c.map (show 0 + 12 ≤ 32 by decide))
    have htx := (rd_of_sameWords hwords hmap).trans (rd_wr_apart (g := LNK_LANE_MAP_TX p.toNat) s.toBox c.map (apart_bits rfl))
    rw [hbox] at hwords hrx htx
    exact ⟨_, next_onBox (actRun_run s (fun b => b.laneSwitch p.toNat .rx) hrun) hcmd, hrx, htx, rfl,
      sameWords_append (wr_sameWords s.toBox (LNK_LANE_MAP_RX p.toNat) c.map) hwords⟩

end Sys2Proof.Proofs
end

section
/-! # Lost lanes (R60) -/

namespace Sys2Proof.Proofs

open Sys2Proof Sys2Proof.Machine Sys2Proof.Safety Sys2Proof.Laws

theorem fp_mode_ne_lane_map (f p : Nat) : LNK_FP_MODE_at f ≠ LNK_LANE_MAP_at p := by
  have hf : f % 64 < 64 := Nat.mod_lt _ (by decide)
  have hp : p % 256 < 256 := Nat.mod_lt _ (by decide)
  rw [LNK_FP_MODE_at, LNK_LANE_MAP_at]
  generalize f % 64 = i at *
  generalize p % 256 = j at *
  omega

/-- A count of a port's link. -/
theorem lnkCount_shows (b : Box) {k p : Nat} (hk : k < 15) (hp : p < 2048) :
    (b.isPort p = true → (b.lnkCount k p).ctr (lnkPage (p / 256)) (256 * k + p % 256)
        = b.ctr (lnkPage (p / 256)) (256 * k + p % 256) + 1)
      ∧ onlyRegsCtrs b (b.lnkCount k p) ∧ sameOn bodyWord b (b.lnkCount k p) := by
  have hpage : lnkPage (p / 256) < 2304 := (tentPage_lt (by omega) (by decide)).trans (by decide)
  rw [Box.lnkCount, Box.countPort]
  by_cases h : b.isPort p = true
  · rw [if_pos h]
    exact ⟨fun _ => count_ctr_succ b _ _, bump_onlyRegsCtrs b _ _ 1, bump_body b hpage (by omega) 1⟩
  · rw [if_neg h]
    exact ⟨fun h' => absurd h' h, onlyRegsCtrs_refl b, sameOn_refl _ _⟩

section adopt

variable {b : Box} {p lane w old i : Nat}

/-- The block with wavelength `w` adopted on lane `i` of the receive map, before it is counted. -/
def adopted (b : Box) (p lane i w : Nat) : Box :=
  (b.wr (LNK_LANE_MAP_RX p) (mapWithLane (b.rd (LNK_LANE_MAP_RX p)) i w)).setPort p
    { b.port p with laneBad := (b.port p).laneBad.set lane 0, stray := (b.port p).stray.set lane 7 }

theorem laneAdopt_eq (hold : (b.rxLanes p)[lane]? = some old)
    (hi : [0, 1, 2, 3].find? (fun i => mapLane (b.rd (LNK_LANE_MAP_RX p)) i == old) = some i) (hup : b.up p = true)
    (hbad : 16 ≤ (b.port p).laneBad.getD lane 0) (hout : (b.rxLanes p).contains w = false) (hmode : w ∈ b.modeLanes p)
    (hstray : (b.port p).stray.getD lane 7 = w) :
    b.laneAdopt p lane w = ((adopted b p lane i w).lnkCount 8 p).raiseInt (lnkPage (p / 256)) 4 := by
  rw [Box.laneAdopt, hold]
  dsimp only
  rw [hi]
  exact if_pos ⟨hup, hbad, hout, hmode, hstray⟩

theorem laneAdopt_shows (hp : p < 2048) (b : Box) (lane i w : Nat) :
    let t := ((adopted b p lane i w).lnkCount 8 p).raiseInt (lnkPage (p / 256)) 4
    t.rd (LNK_LANE_MAP_RX p) = mapWithLane (b.rd (LNK_LANE_MAP_RX p)) i w % 4096
      ∧ t.rd (LNK_LANE_MAP_TX p) = b.rd (LNK_LANE_MAP_TX p)
      ∧ (b.isPort p = true → t.ctr (lnkPage (p / 256)) (2048 + p % 256) = b.ctr (lnkPage (p / 256)) (2048 + p % 256) + 1)
      ∧ t.is (pageFld (lnkPage (p / 256)) 16 4 1) = true
      ∧ ∃ r c o, t = { b with regs := r, ctrs := c, outbox := o, ports := (b.setPort p
          { b.port p with laneBad := (b.port p).laneBad.set lane 0, stray := (b.port p).stray.set lane 7 }).ports } := by
  intro t
  have hpage : lnkPage (p / 256) < 2304 := (tentPage_lt (by omega) (by decide)).trans (by decide)
  obtain ⟨hctr, honly, hbody⟩ := lnkCount_shows (adopted b p lane i w) (k := 8) (by decide) hp
  have hraise := raiseInt_onlyRegs ((adopted b p lane i w).lnkCount 8 p) (lnkPage (p / 256)) 4
  have hkept : sameOn bodyWord (adopted b p lane i w) t := sameOn_trans hbody (raiseInt_body _ hpage 4)
  have hmap : bodyWord (LNK_LANE_MAP_at p) := (lnkWord_body p).2.1
  have hport : (adopted b p lane i w).isPort p = b.isPort p := by
    have hmode : (adopted b p lane i w).slotMode p = b.slotMode p := by
      exact rd_wr_apart (f := LNK_LANE_MAP_RX p) b _ ⟨show 0 + 12 ≤ 32 by decide, Or.inl (fp_mode_ne_lane_map (p / 4) p)⟩
    rw [Box.isPort, Box.isPort, hmode]
  refine ⟨(rd_of_sameOn hkept hmap).trans (rd_wr b (LNK_LANE_MAP_RX p) _ (show 0 + 12 ≤ 32 by decide)),
    (rd_of_sameOn hkept hmap).trans (rd_wr_apart (g := LNK_LANE_MAP_TX p) b _ (apart_bits rfl)),
    fun h => (ctr_of_onlyRegs hraise _ _).trans (hctr (hport.trans h)),
    raiseInt_sets _ _ _ (by decide) (pageVector_word_lt hpage), ?_⟩
  obtain ⟨r, o, c, heq⟩ := onlyRegsCtrs_trans honly hraise.toCtrs
  exact ⟨r, c, o, heq⟩

end adopt

/-! ### Faults of a lane -/

/-- A fault event against a lane leaves every port but for the wavelengths that are quarantined. -/
theorem laneFault_port (b : Box) (p w : Nat) : (∃ q, (b.laneFault p w).port p = { b.port p with quar := q })
    ∧ ∀ q, q ≠ p → (b.laneFault p w).port q = b.port q := by
  let c := (b.takeFree.2).postFault 1 ((Config.freeBits b.freeCtr).toNat % 256) (5 * (p / 4 % 64) + w) (p / 256) (b.takeFree.2.rxLanes p).length
  have hport (q : Nat) : c.port q = b.port q := by
    obtain ⟨_, _, _, _, _, _, _, h⟩ := postFault_logged (b.takeFree.2) 1 ((Config.freeBits b.freeCtr).toNat % 256)
      (5 * (p / 4 % 64) + w) (p / 256) (b.takeFree.2.rxLanes p).length
    rw [show c = _ from h]
    rfl
  have heq : b.laneFault p w = if c.lasting 1 (5 * (p / 4 % 64) + w) (p / 256) then
      c.setPort p { c.port p with quar := w :: (c.port p).quar.filter (· ≠ w) } else c := rfl
  rw [heq]
  split
  · exact ⟨⟨_, (port_setPort _ _ _).trans (by rw [hport p])⟩, fun q hq => (port_setPort_other _ _ hq).trans (hport q)⟩
  · exact ⟨⟨_, hport p⟩, fun q _ => hport q⟩

/-- A lane that has lost FEC lock. -/
theorem laneFecLoss_shows {b : Box} {p lane w : Nat} (hw : (b.rxLanes p)[lane]? = some w) (hup : b.up p = true) (others : Bool) :
    w ∈ ((b.laneFecLoss p lane others).port p).laneLost
      ∧ ((b.laneFecLoss p lane others).port p).ctlQ
        = (b.port p).ctlQ ++ (if others = true ∧ 1 < (b.rxLanes p).length then [msgLaneFail lane] else [])
      ∧ ∀ q, q ≠ p → (b.laneFecLoss p lane others).port q = b.port q := by
  let c := b.setPort p { b.port p with
    laneLost := w :: (b.port p).laneLost.filter (· ≠ w), aligned := (b.port p).aligned.filter (· ≠ w) }
  have heq : b.laneFecLoss p lane others = if others = true ∧ 1 < (b.rxLanes p).length then
      (c.laneFault p w).sendCtl p (msgLaneFail lane) else c.laneFault p w := by
    rw [Box.laneFecLoss, hw]
    exact if_neg (by simp [hup])
  obtain ⟨⟨quar, hthis⟩, hother⟩ := laneFault_port c p w
  rw [port_setPort] at hthis
  have hothers (q : Nat) (hq : q ≠ p) : (c.laneFault p w).port q = b.port q := (hother q hq).trans (port_setPort_other _ _ hq)
  rw [heq]
  split
  · rw [sendCtl_eq, port_setPort, hthis]
    exact ⟨List.mem_cons_self, rfl, fun q hq => (port_setPort_other _ _ hq).trans (hothers q hq)⟩
  · rw [hthis]
    exact ⟨List.mem_cons_self, (List.append_nil _).symm, hothers⟩

/-! ### A lane that the partner has lost -/

theorem onLaneFail_forces {b : Box} {p lane w : Nat} (hw : (b.txLanes p)[lane]? = some w) (hup : b.up p = true)
    (hleft : mapLanes (b.mapWithout p w) ≠ []) : b.onLaneFail p lane = b.setLink p { b.port p with
      pendTx := some ⟨b.mapWithout p w, 0, true, false, false⟩
      ctlQ := ((b.port p).ctlQ.filter fun m => beAt m 0 1 != 2) ++ [msgLaneReq true (b.mapWithout p w) 0] } := by
  rw [Box.onLaneFail, hw]
  exact (if_neg hleft).trans (if_neg (by simp [hup]))

theorem beAt_msgLaneReq (force : Bool) (map t : Nat) : beAt (msgLaneReq force map t) 0 1 = 2 := rfl

/-- A forced request that leaves names the slot 64 after its own. -/
theorem stampCtl_forced {b : Box} {p map t : Nat} (h : (b.port p).pendTx = some ⟨map, 0, true, false, false⟩) :
    (b.stampCtl p (msgLaneReq true map t)).1 = msgLaneReq true map (((b.port p).txSlot + 64) % 2 ^ 32) := by
  rw [Box.stampCtl, beAt_msgLaneReq, if_neg (by decide), h]
  rfl

/-- Settles O23: a lost lane is adopted elsewhere, reported, or left out of the map. -/
theorem lostLanesAreLeftOut : Obligations.LostLanesAreLeftOut := by
  intro s p lane hrun hup x n
  refine ⟨fun wl old i hold hi hbad hout hmode hstray => ?_, fun w hw others => ?_, fun w hw hleft => ?_⟩
  · have hact := actRun_run s (fun b => b.laneAdopt n lane.toNat wl.toNat) hrun
    have hcmd := laneAdopt_eq hold hi hup hbad hout hmode hstray
    obtain ⟨hrx, htx, hctr, hcause, r, c, o, hbox⟩ := laneAdopt_shows p.isLt s.toBox lane.toNat i wl.toNat
    have hcmd := hcmd.trans hbox
    rw [hbox] at hrx htx hctr hcause
    exact ⟨_, next_onBox hact hcmd, hrx, htx, hctr, hcause, rfl⟩
  · have hshows := laneFecLoss_shows hw hup others
    obtain ⟨y, hy⟩ : ∃ y, s.toBox.laneFecLoss n lane.toNat others = y := ⟨_, rfl⟩
    rw [hy] at hshows
    obtain ⟨hlost, hctl, hother⟩ := hshows
    exact ⟨_, next_onBox (actRun_run s (fun b => b.laneFecLoss n lane.toNat others) hrun) hy, hlost, hctl, hother⟩
  · have hact := actRun_run s (fun b => if b.up n then b.onLaneFail n lane.toNat else b) hrun
    generalize hmap : s.mapWithout n w = map at hleft
    let y : Port := { x with pendTx := some ⟨map, 0, true, false, false⟩
                             ctlQ := (x.ctlQ.filter fun m => beAt m 0 1 != 2) ++ [msgLaneReq true map 0] }
    have hcmd : (if s.toBox.up n = true then s.toBox.onLaneFail n lane.toNat else s.toBox) = s.toBox.setLink n y :=
      (if_pos hup).trans ((onLaneFail_forces hw hup (hmap.symm ▸ hleft)).trans (by rw [hmap]))
    obtain ⟨-, -, hwords, r, hbox⟩ := setLink_shows s.toBox n y
    have hcmd := hcmd.trans hbox
    rw [hbox] at hwords
    refine ⟨_, next_onBox hact hcmd, rfl, hwords, ?_⟩
    have hport : ({ s.toBox with regs := r, ports := (s.toBox.setPort n y).ports } : Box).port n = y := port_setPort s.toBox n y
    exact (stampCtl_forced (congrArg Port.pendTx hport)).trans (by rw [hport])

end Sys2Proof.Proofs
end

section
/-! # Received flits and control messages (sections 2.3, 2.4 and 2.7) -/

namespace Sys2Proof.Proofs

open Sys2Proof Sys2Proof.Machine Sys2Proof.Safety Sys2Proof.Laws

/-! ### The frame layer leaves the sequence -/

/-- What port `p` keeps of the flits it has received: the sequence, its request for a resend, and its receive slot. -/
structure RxKept (p : Nat) (b c : Box) : Prop where
  rxSeq : (c.port p).rxSeq = (b.port p).rxSeq
  rrOut : (c.port p).rrOut = (b.port p).rrOut
  lastGood : (c.port p).lastGood = (b.port p).lastGood
  rxSlot : (c.port p).rxSlot = (b.port p).rxSlot

section frames

variable {p : Nat} {b c d : Box}

theorem RxKept.refl (p : Nat) (b : Box) : RxKept p b b := ⟨rfl, rfl, rfl, rfl⟩

theorem RxKept.trans (h : RxKept p b c) (k : RxKept p c d) : RxKept p b d :=
  ⟨k.rxSeq.trans h.rxSeq, k.rrOut.trans h.rrOut, k.lastGood.trans h.lastGood, k.rxSlot.trans h.rxSlot⟩

theorem rxKept_of_ports (h : c.ports = b.ports) : RxKept p b c := by
  constructor <;> rw [Box.port, Box.port, h]

/-- A port's record changes in other fields alone. -/
theorem rxKept_setPort {x : Port} (hseq : x.rxSeq = (b.port p).rxSeq) (hout : x.rrOut = (b.port p).rrOut)
    (hgood : x.lastGood = (b.port p).lastGood) (hslot : x.rxSlot = (b.port p).rxSlot) : RxKept p b (b.setPort p x) := by
  constructor <;> rw [port_setPort]
  · exact hseq
  · exact hout
  · exact hgood
  · exact hslot

theorem lnkCount_rxKept (b : Box) (k : Nat) : RxKept p b (b.lnkCount k p) := rxKept_of_ports (lnkCount_keepsFrames b k p).ports

theorem partFree_rxKept (hp : p / 256 < 8) (b : Box) : RxKept p b (b.partFree p) :=
  (rxKept_of_ports (freeCells_keepsPage hp b (b.port p).partCells).ports).trans (rxKept_setPort rfl rfl rfl rfl)

theorem framingError_rxKept (hp : p / 256 < 8) (b : Box) (bs : List Byte) : RxKept p b (b.framingError p bs) := by
  have hskip (c : Box) : RxKept p c ((c.setPort p { c.port p with skip := true }).lnkCount 2 p) :=
    (rxKept_setPort (x := { c.port p with skip := true }) rfl rfl rfl rfl).trans (lnkCount_rxKept _ 2)
  refine RxKept.trans ?_ (hskip _)
  refine RxKept.trans ?_ (partFree_rxKept hp _)
  split
  · exact RxKept.refl p b
  · split
    · exact lnkCount_rxKept b 3
    · exact rxKept_setPort rfl rfl rfl rfl

theorem growCells_ports (b : Box) (t : Nat) (own : List Nat) (n : Nat) : (b.growCells t own n).2.ports = b.ports := rfl

theorem frameLand_rxKept (b : Box) (f : Frame) (at_ : FirstFlit) : RxKept p b (b.frameLand p f at_) :=
  (rxKept_of_ports (growCells_ports b (p / 256) (b.port p).partCells (frCells f))).trans (rxKept_setPort rfl rfl rfl rfl)

theorem frameGrow_rxKept (b : Box) (bs : List Byte) (at_ : FirstFlit) : RxKept p b (b.frameGrow p bs at_) :=
  (rxKept_of_ports (growCells_ports b (p / 256) (b.port p).partCells (cellsOf bs.length))).trans (rxKept_setPort rfl rfl rfl rfl)

theorem takeFrames_rxKept (hp : p / 256 < 8) (now : FirstFlit) (fuel : Nat) (bs : List Byte) (b : Box) :
    RxKept p b (Box.takeFrames p now fuel bs b) := by
  induction fuel generalizing bs b with
  | zero => exact RxKept.refl p b
  | succ fuel ih =>
    rw [Box.takeFrames]
    split
    · exact RxKept.refl p b
    · split
      · exact framingError_rxKept hp b bs
      · dsimp only
        split
        · exact (frameLand_rxKept b _ now).trans (ih _ _)
        · exact frameGrow_rxKept b bs now

theorem deliverBody_rxKept (hp : p / 256 < 8) (b : Box) (fstart : Nat) (body : List Byte) (now : FirstFlit) :
    RxKept p b (b.deliverBody p fstart body now) := by
  have hfound : RxKept p b (b.setPort p { b.port p with skip := false }) := rxKept_setPort rfl rfl rfl rfl
  rw [Box.deliverBody]
  dsimp only
  generalize (if (b.port p).part = [] then 0 else partLen (b.port p).part - (b.port p).part.length) = need
  split
  · split
    · exact hfound.trans (takeFrames_rxKept hp now 31 _ _)
    · exact RxKept.refl p b
  · split
    · exact framingError_rxKept hp b _
    · have hlanded (got : List Byte) (at_ : FirstFlit) : RxKept p b
          (if (b.port p).part = [] then b else if need ≤ 240 then b.frameLand p got at_ else b.frameGrow p got at_) := by
        split
        · exact RxKept.refl p b
        · split
          · exact frameLand_rxKept b got at_
          · exact frameGrow_rxKept b got at_
      split
      · exact (hlanded _ _).trans (takeFrames_rxKept hp now 31 _ _)
      · exact hlanded _ _

end frames

/-! ### A DATA flit -/

section flit

variable {b : Box} {p lane : Nat} {rx : FlitRx}

/-- The header of a good flit is taken, and its lane is good. -/
theorem takeHeader_shows (b : Box) (p : Nat) (bytes : List Byte) : ∃ ret res pc, b.takeHeader p bytes
    = b.setPort p { b.port p with retry := ret, resend := res, pccum := pc, lastGood := b.raw } := ⟨_, _, _, rfl⟩

/-- A DATA flit that is expected moves the sequence on. -/
theorem flitUp_expected (hp : p / 256 < 8) (hfec : rx.fecBad = false) (hcrc : flCrcOk rx.bytes = true) (htype : flType rx.bytes = 0)
    (hseq : flSeq rx.bytes = (b.port p).rxSeq) (hwl : rx.wl.toNat = (b.rxLanes p).getD lane 7) :
    ((b.flitUp p lane rx).port p).rxSeq = ((b.port p).rxSeq + 1) % 65536 ∧ ((b.flitUp p lane rx).port p).rrOut = none
      ∧ ((b.flitUp p lane rx).port p).lastGood = b.raw ∧ ((b.flitUp p lane rx).port p).rxSlot = (b.port p).rxSlot := by
  obtain ⟨ret, res, pc, htaken⟩ := takeHeader_shows (b.setPort p { b.port p with laneBad := (b.port p).laneBad.set lane 0 }) p rx.bytes
  rw [port_setPort] at htaken
  let c := (b.setPort p { b.port p with laneBad := (b.port p).laneBad.set lane 0 }).takeHeader p rx.bytes
  have hcport : c.port p = { b.port p with
      laneBad := (b.port p).laneBad.set lane 0, retry := ret, resend := res, pccum := pc, lastGood := b.raw } := by
    rw [show c = _ from htaken, port_setPort]
    rfl
  let d := c.setPort p { c.port p with rxSeq := ((b.port p).rxSeq + 1) % 65536, rrOut := none }
  have heq : b.flitUp p lane rx = d.deliverBody p (flFstart rx.bytes) (flBody rx.bytes)
      ⟨b.laneStamp (p / 256) rx.sub.toNat, b.replTick (p / 256), rx.wl.toNat⟩ := by
    rw [Box.flitUp, hfec, hcrc, htype, ← hwl]
    simp only [Bool.not_true, Bool.or_false, bne_self_eq_false, Bool.not_false, Bool.true_and]
    exact if_pos hseq
  obtain ⟨hs, hr, hg, hl⟩ := deliverBody_rxKept hp d (flFstart rx.bytes) (flBody rx.bytes)
    ⟨b.laneStamp (p / 256) rx.sub.toNat, b.replTick (p / 256), rx.wl.toNat⟩
  have hdport : d.port p = { c.port p with rxSeq := ((b.port p).rxSeq + 1) % 65536, rrOut := none } := port_setPort _ _ _
  rw [heq, hs, hr, hg, hl, hdport, hcport]
  exact ⟨rfl, rfl, rfl, rfl⟩

/-- A request for the expected flit is out. -/
theorem wantRetry_shows (b : Box) (p : Nat) : ((b.wantRetry p).port p).rxSeq = (b.port p).rxSeq
    ∧ ((b.wantRetry p).port p).landed = (b.port p).landed ∧ ((b.wantRetry p).port p).rrOut ≠ none
    ∧ ((b.port p).rrOut = none → ((b.wantRetry p).port p).ctlQ = ctlFirst (b.port p).ctlQ (msgRetryReq (b.port p).rxSeq))
    ∧ ((b.wantRetry p).port p).rxSlot = (b.port p).rxSlot := by
  rw [Box.wantRetry]
  cases h : (b.port p).rrOut with
  | some r => exact ⟨rfl, rfl, by simp [h], nofun, rfl⟩
  | none => simp [port_setPort]

/-- A DATA flit that fails, or comes on another wavelength than its lane's, is asked for again. -/
theorem flitUp_bad (hbad : rx.fecBad = true ∨ flCrcOk rx.bytes = false ∨ rx.wl.toNat ≠ (b.rxLanes p).getD lane 7)
    (htype : flType rx.bytes = 0) : ∃ lb st, b.flitUp p lane rx
      = (b.setPort p { b.port p with laneBad := lb, stray := st }).wantRetry p := by
  have hb : (rx.fecBad || !flCrcOk rx.bytes || rx.wl.toNat != (b.rxLanes p).getD lane 7) = true := by
    rcases hbad with h | h | h
    · rw [h, Bool.true_or, Bool.true_or]
    · rw [h, Bool.not_false, Bool.or_true, Bool.true_or]
    · rw [bne_iff_ne.mpr h, Bool.or_true]
  rw [Box.flitUp]
  dsimp only
  rw [hb, htype]
  exact ⟨_, _, rfl⟩

end flit

/-- A flit that arrives on a port that is up is counted, moves the receive slot, and goes to its lane. -/
theorem flitReceive_up {b : Box} {p : Nat} {rx : FlitRx} (hslot : p < 2048) (hport : b.isPort p = true) (hup : b.up p = true)
    (hwindow : (b.port p).inWindow = false) (haligning : (b.port p).aligning = false) (htype : flType rx.bytes = 0) :
    ∃ c, onlyRegsCtrs b c ∧ sameOn bodyWord b c ∧ b.flitReceive p rx
      = (c.setPort p { b.port p with rxSlot := ((b.port p).rxSlot + 1) % 2 ^ 32 }).flitUp p
          ((b.port p).rxSlot % max 1 (b.rxLanes p).length) rx := by
  have hpage : lnkPage (p / 256) < 2304 := (tentPage_lt (by omega) (by decide)).trans (by decide)
  let l := 2304 + 2 * (5 * (p / 4 % 64) + rx.wl.toNat)
  have hl : l + 1 < 4096 := by
    have hwl : rx.wl.toNat < 5 := rx.wl.isLt
    show 2304 + 2 * (5 * (p / 4 % 64) + rx.wl.toNat) + 1 < 4096
    omega
  let c := (b.bump (lnkPage (p / 256)) l rx.corr).bump (lnkPage (p / 256)) (l + 1) rx.uncorr
  have honly : onlyRegsCtrs b c := onlyRegsCtrs_trans (bump_onlyRegsCtrs _ _ _ _) (bump_onlyRegsCtrs _ _ _ _)
  have hbody : sameOn bodyWord b c := sameOn_trans (bump_body b hpage (by omega) _) (bump_body _ hpage hl _)
  have hcport : c.port p = b.port p := by rw [Box.port, Box.port, (keepsFrames_of_onlyRegsCtrs honly).ports]
  have hcup : c.up p = true := (is_of_sameOn hbody (lnkWord_body p).1).trans hup
  have hlanes : c.rxLanes p = b.rxLanes p := by
    rw [Box.rxLanes, Box.rxLanes, rd_of_sameOn hbody (lnkWord_body p).2.1]
  refine ⟨c, honly, hbody, ?_⟩
  rw [Box.flitReceive, if_neg (by simp [hport])]
  refine (if_pos hcup).trans ?_
  rw [hcport, hlanes]
  refine (if_neg (by simp [hwindow])).trans ((if_neg (by simp [htype])).trans (if_neg (by simp [haligning])))

/-- A pause of the partner: the port's record, its status, and the envelope it breaks. -/
theorem paused_shows (b : Box) {p : Nat} (hp : p < 2048) (y : Port) :
    ((b.setLink p y).envEvent p 2).is (LNK_PORT_STATUS_PAUSED p) = (y.pauseTx.isSome || y.pauseRx.isSome)
      ∧ sameWords (LNK_PORT_STATUS_at p :: CAL_SCHED_STATUS_at p :: causeWords (calPage (p / 256))) b ((b.setLink p y).envEvent p 2)
      ∧ ∃ r o, (b.setLink p y).envEvent p 2 = { b with regs := r, outbox := o, ports := (b.setPort p y).ports } := by
  obtain ⟨-, hpaused, hwords, r, hset⟩ := setLink_shows b p y
  have henv := envEvent_sameWords (b.setLink p y) p 2
  obtain ⟨r', o, honly⟩ := envEvent_onlyRegs (b.setLink p y) p 2
  have hkept : LNK_PORT_STATUS_at p ∉ CAL_SCHED_STATUS_at p :: causeWords (calPage (p / 256)) := by
    intro h
    rcases List.mem_cons.mp h with h | h
    · rw [LNK_PORT_STATUS_at, CAL_SCHED_STATUS_at] at h
      omega
    · exact causeWords_not_body (p := calPage (p / 256)) ((tentPage_lt (by omega) (by decide)).trans (by decide)) h (lnkWord_body p).1
  refine ⟨(is_of_sameWords henv hkept).trans hpaused, sameWords_append hwords henv, r', o, honly.trans ?_⟩
  rw [hset]

theorem padTo_length_self {α : Type} {n : Nat} (x : α) {l : List α} (h : l.length = n) : padTo n x l = l := by
  subst h
  simp [padTo]

/-- Settles O21: control messages act on the link's sequence; a flit is accepted in sequence or asked for again. -/
theorem flitsRetryAndPauseInSequence : Obligations.FlitsRetryAndPauseInSequence := by
  constructor
  · intro s p hrun hup x
    refine ⟨fun seq hport => ⟨fun hheld => ?_, fun hnot => ?_⟩, fun n at_ hout hwait hpause hwindow haligning hn hdue => ?_,
      fun hminor len => ?_, fun hminor hpaused => ?_⟩
    · have hact := actRun_run s (fun b => if b.up p.toNat then b.onRetryReq p.toNat seq.toNat else b) hrun
      let c := s.toBox.setPort p.toNat { x with resend := some seq.toNat }
      have hcmd : (if s.toBox.up p.toNat = true then s.toBox.onRetryReq p.toNat seq.toNat else s.toBox) = c.lnkCount 0 p.toNat :=
        (if_pos hup).trans (if_pos hheld)
      obtain ⟨hctr, ⟨r, o, k, hbox⟩, -⟩ := lnkCount_shows c (k := 0) (by decide) p.isLt
      have hctr := hctr hport
      rw [Nat.mul_zero, Nat.zero_add] at hctr
      have hcmd := hcmd.trans hbox
      rw [hbox] at hctr
      exact ⟨_, next_onBox hact hcmd, hctr, rfl⟩
    · have hact := actRun_run s (fun b => if b.up p.toNat then b.onRetryReq p.toNat seq.toNat else b) hrun
      have hcmd : (if s.toBox.up p.toNat = true then s.toBox.onRetryReq p.toNat seq.toNat else s.toBox) = s.toBox.lnkCount 1 p.toNat :=
        (if_pos hup).trans (if_neg (ne_true_of_eq_false hnot))
      obtain ⟨hctr, ⟨r, o, k, hbox⟩, -⟩ := lnkCount_shows s.toBox (k := 1) (by decide) p.isLt
      have hctr := hctr hport
      have hcmd := hcmd.trans hbox
      rw [hbox] at hctr
      exact ⟨_, next_onBox hact hcmd, hctr, rfl⟩
    · have hcmd : s.toBox.retryRepeat p.toNat = s.toBox.setPort p.toNat
          { x with rrOut := some (n + 1, s.raw), ctlQ := ctlFirst x.ctlQ (msgRetryReq x.rxSeq) } := by
        rw [Box.retryRepeat, hout]
        exact (if_neg (by rw [hwait, hpause, hwindow, haligning]; exact Bool.false_ne_true)).trans
          ((if_pos ⟨hup, hdue⟩).trans (if_neg (Nat.not_le.mpr hn)))
      exact next_onBox (actRun_run s (fun b => b.retryRepeat p.toNat) hrun) hcmd
    · have hact := actRun_run s (fun b => if b.up p.toNat then b.onPause p.toNat len.toNat else b) hrun
      let y : Port := { x with
        pauseRx := some (s.raw + len.toNat + 5120), pendTx := none, pendRx := none, ctlQ := dropLaneReq x.ctlQ }
      have hcmd : (if s.toBox.up p.toNat = true then s.toBox.onPause p.toNat len.toNat else s.toBox)
          = (s.toBox.setLink p.toNat y).envEvent p.toNat 2 := (if_pos hup).trans (if_neg (Nat.not_lt.mpr hminor))
      obtain ⟨hset, hwords, r, o, hbox⟩ := paused_shows s.toBox p.isLt y
      have hcmd := hcmd.trans hbox
      rw [hbox] at hset hwords
      exact ⟨_, next_onBox hact hcmd, hset.trans (Bool.or_true _), rfl, hwords⟩
    · have hact := actRun_run s (fun b => if b.up p.toNat then b.onResume p.toNat else b) hrun
      let y : Port := { x with pauseRx := none, txSlot := 0, rxSlot := 1, lastGood := s.raw
                               ctlQ := ctlFirst x.ctlQ (msgRetryReq x.rxSeq) }
      have hcmd : (if s.toBox.up p.toNat = true then s.toBox.onResume p.toNat else s.toBox) = s.toBox.setLink p.toNat y :=
        (if_pos hup).trans ((if_neg (Nat.not_lt.mpr hminor)).trans (if_neg hpaused))
      obtain ⟨-, -, hwords, r, hbox⟩ := setLink_shows s.toBox p.toNat y
      have hcmd := hcmd.trans hbox
      rw [hbox] at hwords
      exact ⟨_, next_onBox hact hcmd, rfl, hwords⟩
  · intro s p rx hrun hport hup hwf x hwindow haligning
    have hbytes : ({ rx with bytes := padTo 256 0 rx.bytes } : FlitRx) = rx := by
      rw [padTo_length_self 0 (beq_iff_eq.mp hwf)]
    have hact := actRun_run s (fun b => b.flitReceive p.toNat { rx with bytes := padTo 256 0 rx.bytes }) hrun
    have hdata (htype : flType rx.bytes = 0) := flitReceive_up (b := s.toBox) p.isLt hport hup hwindow haligning htype
    refine ⟨fun hfec hcrc htype hseq hwl => ?_, fun hbad htype => ?_, fun m htraining hskew hgap => ?_⟩
    · obtain ⟨c, ⟨r, o, k, hc⟩, hbody, heq⟩ := hdata htype
      let d := c.setPort p.toNat { x with rxSlot := (x.rxSlot + 1) % 2 ^ 32 }
      have hdport : d.port p.toNat = { x with rxSlot := (x.rxSlot + 1) % 2 ^ 32 } := port_setPort _ _ _
      have hlanes : d.rxLanes p.toNat = s.rxLanes p.toNat :=
        congrArg mapLanes (rd_of_sameOn (f := LNK_LANE_MAP_RX p.toNat) hbody (lnkWord_body p.toNat).2.1)
      have hraw : d.raw = s.raw := by
        rw [show d = c.setPort p.toNat _ from rfl, hc]
        rfl
      have hshows := flitUp_expected (b := d) (p := p.toNat) (lane := x.rxSlot % max 1 (s.rxLanes p.toNat).length) (rx := rx)
        (by have := p.isLt; omega) hfec hcrc htype (by rw [hdport]; exact hseq) (by rw [hlanes]; exact hwl)
      rw [hdport, hraw] at hshows
      have hcmd : s.toBox.flitReceive p.toNat { rx with bytes := padTo 256 0 rx.bytes }
          = d.flitUp p.toNat (x.rxSlot % max 1 (s.rxLanes p.toNat).length) rx :=
        (congrArg (s.toBox.flitReceive p.toNat) hbytes).trans heq
      generalize d.flitUp p.toNat (x.rxSlot % max 1 (s.rxLanes p.toNat).length) rx = y at hshows hcmd
      obtain ⟨hrx, hout, hgood, hslot⟩ := hshows
      exact ⟨_, next_onBox hact hcmd, hrx, hout, hgood, hslot⟩
    · obtain ⟨c, ⟨r, o, k, hc⟩, hbody, heq⟩ := hdata htype
      let d := c.setPort p.toNat { x with rxSlot := (x.rxSlot + 1) % 2 ^ 32 }
      have hdport : d.port p.toNat = { x with rxSlot := (x.rxSlot + 1) % 2 ^ 32 } := port_setPort _ _ _
      have hlanes : d.rxLanes p.toNat = s.rxLanes p.toNat :=
        congrArg mapLanes (rd_of_sameOn (f := LNK_LANE_MAP_RX p.toNat) hbody (lnkWord_body p.toNat).2.1)
      obtain ⟨lb, st, hbadeq⟩ := flitUp_bad (b := d) (p := p.toNat) (lane := x.rxSlot % max 1 (s.rxLanes p.toNat).length) (rx := rx)
        (by rw [hlanes]; exact hbad) htype
      have hshows := wantRetry_shows (d.setPort p.toNat { d.port p.toNat with laneBad := lb, stray := st }) p.toNat
      rw [← hbadeq, port_setPort, hdport] at hshows
      have hcmd : s.toBox.flitReceive p.toNat { rx with bytes := padTo 256 0 rx.bytes }
          = d.flitUp p.toNat (x.rxSlot % max 1 (s.rxLanes p.toNat).length) rx :=
        (congrArg (s.toBox.flitReceive p.toNat) hbytes).trans heq
      generalize d.flitUp p.toNat (x.rxSlot % max 1 (s.rxLanes p.toNat).length) rx = y at hshows hcmd
      obtain ⟨hrx, hlanded, hout, hctl, hslot⟩ := hshows
      exact ⟨_, next_onBox hact hcmd, hrx, hlanded, hout, hctl, hslot⟩
    · have hcmd : s.toBox.laneMarker p.toNat m = s.toBox.setPort p.toNat { x with
          laneLost := x.laneLost.filter (· ≠ m.wl.toNat), aligned := m.wl.toNat :: x.aligned.filter (· ≠ m.wl.toNat)
          marks := mapSet (fun _ => (0, 0)) x.marks m.wl.toNat (m.pos.toNat, m.portSlot.toNat) } := by
        refine (if_neg (by simp [htraining])).trans ((if_neg ?_).trans ((if_neg (Nat.not_lt.mpr hskew)).trans
          ((if_neg (by rw [haligning]; exact Bool.false_ne_true)).trans (if_neg ?_))))
        · exact fun h => h.elim (fun h => absurd (hup.symm.trans h) (by decide)) (fun h => absurd (hwindow.symm.trans h) (by decide))
        · exact fun h => hgap.elim (fun hg => absurd (hg.symm.trans h.1) (by decide)) h.2
      exact next_onBox (actRun_run s (fun b => b.laneMarker p.toNat m) hrun) hcmd

end Sys2Proof.Proofs
end

section
/-! # Flit slots (R33, R39, R123, R389) -/

namespace Sys2Proof.Proofs

open Sys2Proof Sys2Proof.Machine Sys2Proof.Safety Sys2Proof.Laws

/-! ### Spilling settles -/

/-- What spilling moves: the blocks of the spill region, what a descriptor is charged to, and status words. -/
def spillOnly (s t : Box) : Prop :=
  (∃ r o d sp, t = { s with regs := r, outbox := o, descs := d, spills := sp }) ∧ emits s t
    ∧ t.descs.map (fun d => { d with charge := .recall }) = s.descs.map fun d => { d with charge := .recall }

theorem spillOnly_refl (s : Box) : spillOnly s s := ⟨⟨_, _, _, _, rfl⟩, emits_of_eq rfl, rfl⟩

theorem spillOnly_trans {s t u : Box} (h : spillOnly s t) (k : spillOnly t u) : spillOnly s u := by
  obtain ⟨⟨_, _, _, _, rfl⟩, ho, hd⟩ := h
  obtain ⟨⟨_, _, _, _, rfl⟩, ko, kd⟩ := k
  exact ⟨⟨_, _, _, _, rfl⟩, emits_trans ho ko, kd.trans hd⟩

theorem raiseInt_spillOnly (b : Box) (p : Page) (bit : Nat) : spillOnly b (b.raiseInt p bit) := by
  have hout := raiseInt_emits b p bit
  obtain ⟨r, o, h⟩ := raiseInt_onlyRegs b p bit
  rw [h] at hout ⊢
  exact ⟨⟨_, _, _, _, rfl⟩, hout, rfl⟩

theorem put_spillOnly (b : Box) (f : Fld) (v : Bool) : spillOnly b (b.put f v) := ⟨⟨_, _, _, _, rfl⟩, emits_of_eq rfl, rfl⟩

theorem envEvent_spillOnly (b : Box) (p bit : Nat) : spillOnly b (b.envEvent p bit) := by
  rw [Box.envEvent]
  split
  · rw [Box.envBreak]
    split
    · exact spillOnly_refl b
    · exact spillOnly_trans (put_spillOnly b _ _) (raiseInt_spillOnly _ _ _)
  · exact spillOnly_refl b

theorem setSpill_spillOnly (b : Box) (t q : Nat) (x : Option Spill) : spillOnly b (b.setSpill t q x) :=
  ⟨⟨_, _, _, _, rfl⟩, emits_of_eq rfl, rfl⟩

theorem congest_spillOnly (b : Box) (t part : Nat) : spillOnly b (b.congest t part) :=
  foldl_rel spillOnly_refl spillOnly_trans _ (fun b p _ => envEvent_spillOnly b p 4) b

theorem spillAssign_spillOnly (b : Box) (t q : Nat) : spillOnly b (b.spillAssign t q) := by
  rw [Box.spillAssign]
  split
  · exact spillOnly_refl b
  · split
    · exact spillOnly_refl b
    · dsimp only
      split
      · exact spillOnly_refl b
      · exact spillOnly_trans (setSpill_spillOnly b t q _) (congest_spillOnly _ _ _)

theorem spillStart_spillOnly (b : Box) (t p : Nat) : spillOnly b (b.spillStart t p) := by
  rw [Box.spillStart]
  split
  · split
    · exact spillOnly_refl b
    · exact spillOnly_trans (setSpill_spillOnly b t _ _) (spillAssign_spillOnly _ _ _)
  · exact spillOnly_refl b

/-- A queue that leaves the spill region charges its recalled frames to its partition again. -/
theorem spillLeaveOne_spillOnly (b : Box) (t q : Nat) : spillOnly b (b.spillLeaveOne t q) := by
  rw [Box.spillLeaveOne]
  split
  · exact spillOnly_refl b
  · split
    · exact spillOnly_refl b
    · refine ⟨⟨_, _, _, _, rfl⟩, emits_of_eq rfl, ?_⟩
      simp only [List.map_map]
      refine List.map_congr_left fun d _ => ?_
      simp only [Function.comp]
      split <;> rfl

theorem spillStop_spillOnly (b : Box) (t : Nat) : spillOnly b (b.spillStop t) := by
  rw [Box.spillStop]
  split
  · exact spillOnly_refl b
  · exact ⟨⟨_, _, _, _, rfl⟩, emits_of_eq rfl, rfl⟩

theorem spillStatus_spillOnly (b : Box) (t : Nat) : spillOnly b (b.spillStatus t) := by
  rw [Box.spillStatus]
  split
  · exact spillOnly_trans (spillOnly_trans (spillOnly_trans (put_spillOnly _ _ _) (put_spillOnly _ _ _)) (put_spillOnly _ _ _))
      (raiseInt_spillOnly _ _ _)
  · exact spillOnly_trans (spillOnly_trans (put_spillOnly _ _ _) (put_spillOnly _ _ _)) (put_spillOnly _ _ _)

theorem spillSettle_spillOnly (b : Box) (t : Nat) : spillOnly b (b.spillSettle t) := by
  have hleave := spillOnly_trans (spillStop_spillOnly b t)
    (foldl_rel spillOnly_refl spillOnly_trans ((b.spillStop t).spillVoqs t) (fun b q _ => spillLeaveOne_spillOnly b t q) _)
  refine spillOnly_trans (spillOnly_trans (spillOnly_trans hleave
    (foldl_rel spillOnly_refl spillOnly_trans [0, 1, 2, 3] (fun b p _ => spillStart_spillOnly b t p) _))
    (foldl_rel spillOnly_refl spillOnly_trans _ (fun b q _ => spillAssign_spillOnly b t q) _)) (spillStatus_spillOnly _ _)

theorem port_of_ports {b c : Box} (h : c.ports = b.ports) (p : Nat) : c.port p = b.port p := by rw [Box.port, Box.port, h]

/-! ### One flit leaves -/

/-- The credit slots of a flit change what has been told of credit and the rotation alone (R46). -/
theorem creditSlots_port (x : Port) (two : Bool) : ∃ told five rot, (creditSlots x two).2.2
    = { x with told := told, vc5Last := five, rot := rot } := by
  rw [creditSlots]
  dsimp only
  split <;> exact ⟨_, _, _, rfl⟩

theorem laneFlit_shows (b : Box) (p pos w : Nat) (fl : List Byte) : ∃ bits o,
    b.laneFlit p pos w fl = { b with ports := (b.setPort p { b.port p with laneBits := bits }).ports
                                     outbox := .flit p pos w fl :: (o ++ b.outbox) } := by
  rw [Box.laneFlit]
  dsimp only
  split
  · exact ⟨_, [_], rfl⟩
  · exact ⟨_, [], rfl⟩

theorem sendFlit_eq (b : Box) (p ftype seq fstart : Nat) (body : List Byte) : ∃ pos w fl c,
    slotFlit b p ftype seq fstart body = .flit p pos w fl ∧ (∃ two, c = (creditSlots (b.port p) two).2.2)
      ∧ b.sendFlit p ftype seq fstart body = ((b.setPort p c).laneFlit p pos w fl).setPort p
          { ((b.setPort p c).laneFlit p pos w fl).port p with txSlot := ((b.port p).txSlot + 1) % 2 ^ 32, lastTx := b.raw } :=
  ⟨_, _, _, _, rfl, ⟨_, rfl⟩, rfl⟩

/-- A flit goes out in the port's next transmit slot. -/
theorem sendFlit_shows (b : Box) (p ftype seq fstart : Nat) (body : List Byte) : ∃ ps o,
    b.sendFlit p ftype seq fstart body = { b with ports := ps, outbox := slotFlit b p ftype seq fstart body :: (o ++ b.outbox) }
      ∧ ∃ told five rot bits, (mapGet (fun _ => {}) ps p : Port) = { b.port p with
          told := told, vc5Last := five, rot := rot, laneBits := bits, txSlot := ((b.port p).txSlot + 1) % 2 ^ 32, lastTx := b.raw } := by
  obtain ⟨pos, w, fl, c, hslot, ⟨two, hc⟩, heq⟩ := sendFlit_eq b p ftype seq fstart body
  obtain ⟨told, five, rot, hport⟩ := creditSlots_port (b.port p) two
  obtain ⟨bits, o, hlane⟩ := laneFlit_shows (b.setPort p c) p pos w fl
  rw [heq, hlane, hslot]
  refine ⟨_, o, rfl, told, five, rot, bits, ?_⟩
  rw [show b.setPort p c = b.setPort p { b.port p with told := told, vc5Last := five, rot := rot } by rw [hc, hport]]
  simp only [Box.setPort, Box.port, mapGet_mapSet_same]

/-- Two link records whose next flit has the same header: sequence numbers, slot and credit agree. -/
structure SlotAlike (x y : Port) : Prop where
  freed : y.freed = x.freed
  told : y.told = x.told
  five : y.vc5Last = x.vc5Last
  rot : y.rot = x.rot
  rxSeq : y.rxSeq = x.rxSeq
  txSlot : y.txSlot = x.txSlot

theorem slotAlike_refl (x : Port) : SlotAlike x x := ⟨rfl, rfl, rfl, rfl, rfl, rfl⟩

theorem creditSlots_alike {x y : Port} (h : SlotAlike x y) (two : Bool) :
    (creditSlots y two).1 = (creditSlots x two).1 ∧ (creditSlots y two).2.1 = (creditSlots x two).2.1 := by
  cases two <;> simp only [creditSlots, nextCredit, h.freed, h.told, h.five, h.rot] <;> exact ⟨rfl, rfl⟩

/-- From `s` to `t` nothing moved that the port's next flit shows. -/
structure SlotKept (p : Nat) (s t : Box) : Prop where
  out : emits s t
  port : SlotAlike (s.port p) (t.port p)
  lanes : t.txLanes p = s.txLanes p
  minor : t.minor p = s.minor p
  raw : t.raw = s.raw

theorem slotFlit_of_kept {p : Nat} {s t : Box} (h : SlotKept p s t) (ftype seq fstart : Nat) (body : List Byte) :
    slotFlit t p ftype seq fstart body = slotFlit s p ftype seq fstart body := by
  obtain ⟨hone, htwo⟩ := creditSlots_alike h.port (decide (3 ≤ s.minor p))
  simp only [slotFlit, h.minor, h.lanes, h.port.freed, h.port.rxSeq, h.port.txSlot, hone, htwo]

theorem sentFlit_of_sendFlit (b : Box) (p ftype seq fstart : Nat) (body : List Byte) :
    sentFlit b (b.sendFlit p ftype seq fstart body) p ftype seq fstart body := by
  obtain ⟨ps, o, heq, told, five, rot, bits, hport⟩ := sendFlit_shows b p ftype seq fstart body
  rw [heq]
  refine ⟨⟨[], o, rfl⟩, ?_⟩
  rw [show ({ b with ports := ps, outbox := slotFlit b p ftype seq fstart body :: (o ++ b.outbox) } : Box).port p = _ from hport]
  exact ⟨rfl, rfl⟩

theorem sentFlit_of_kept {p : Nat} {s t u : Box} (h : SlotKept p s t) {ftype seq fstart : Nat} {body : List Byte}
    (hsent : sentFlit t u p ftype seq fstart body) : sentFlit s u p ftype seq fstart body := by
  obtain ⟨⟨o, r, hout⟩, hslot, hlast⟩ := hsent
  obtain ⟨o', hbefore⟩ := h.out
  rw [slotFlit_of_kept h, hbefore, ← List.append_assoc r] at hout
  exact ⟨⟨o, _, hout⟩, by rw [hslot, h.port.txSlot], by rw [hlast, h.raw]⟩

theorem sentFlit_later {p : Nat} {s t u : Box} {ftype seq fstart : Nat} {body : List Byte}
    (hsent : sentFlit s t p ftype seq fstart body) (hports : u.ports = t.ports) (hout : emits t u) :
    sentFlit s u p ftype seq fstart body := by
  obtain ⟨⟨o, r, hflit⟩, hslot, hlast⟩ := hsent
  obtain ⟨o', hafter⟩ := hout
  rw [hflit, ← List.append_assoc] at hafter
  exact ⟨⟨_, r, hafter⟩, by rw [port_of_ports hports, hslot], by rw [port_of_ports hports, hlast]⟩

/-! ### Slot counters -/

theorem bump_emits (b : Box) (p : Page) (i n : Nat) : emits b (b.bump p i n) := by
  rw [Box.bump]
  split
  · exact raiseInt_emits _ _ _
  · exact emits_of_eq rfl

theorem calCount_emits (b : Box) (k p n : Nat) : emits b (b.calCount k p n) := by
  rw [Box.calCount, Box.countPort]
  split
  · exact bump_emits _ _ _ _
  · exact emits_of_eq rfl

theorem calCount_shows (b : Box) {k p : Nat} (hk : k < 15) (hp : p < 2048) :
    (b.isPort p = true → (b.calCount k p 1).ctr (calPage (p / 256)) (256 * k + p % 256)
        = b.ctr (calPage (p / 256)) (256 * k + p % 256) + 1)
      ∧ onlyRegsCtrs b (b.calCount k p 1) ∧ sameOn bodyWord b (b.calCount k p 1) := by
  have hpage : calPage (p / 256) < 2304 := (tentPage_lt (by omega) (by decide)).trans (by decide)
  rw [Box.calCount, Box.countPort]
  by_cases h : b.isPort p = true
  · rw [if_pos h]
    exact ⟨fun _ => count_ctr_succ b _ _, bump_onlyRegsCtrs b _ _ 1, bump_body b hpage (by omega) 1⟩
  · rw [if_neg h]
    exact ⟨fun h' => absurd h' h, onlyRegsCtrs_refl b, sameOn_refl _ _⟩

theorem calCount_slotKept (b : Box) {k p : Nat} (hk : k < 15) (hp : p < 2048) : SlotKept p b (b.calCount k p 1) := by
  obtain ⟨-, hctrs, hbody⟩ := calCount_shows b hk hp
  have hout := calCount_emits b k p 1
  have hlane : (b.calCount k p 1).rd (LNK_LANE_MAP_TX p) = b.rd (LNK_LANE_MAP_TX p) := rd_of_sameOn hbody (lnkWord_body p).2.1
  have hver : (b.calCount k p 1).rd (LNK_PORT_STATUS_VER p) = b.rd (LNK_PORT_STATUS_VER p) := rd_of_sameOn hbody (lnkWord_body p).1
  obtain ⟨_, _, _, heq⟩ := hctrs
  rw [heq] at hout hlane hver ⊢
  exact ⟨hout, slotAlike_refl _, congrArg mapLanes hlane, congrArg (· % 4) hver, rfl⟩

/-! ### Where a port lies stays -/

/-- What was a port of its mode still is. -/
def modeKept (p : Nat) (s t : Box) : Prop := s.isPort p = true → t.isPort p = true

section mode

variable {p : Nat} {s t u : Box}

theorem modeKept_refl (s : Box) : modeKept p s s := id

theorem modeKept_trans (h : modeKept p s t) (k : modeKept p t u) : modeKept p s u := k ∘ h

theorem modeKept_of_slotMode (h : t.slotMode p = s.slotMode p) : modeKept p s t := fun hp => by
  rw [Box.isPort, h]
  exact hp

theorem modeKept_of_regs (h : t.regs = s.regs) : modeKept p s t := modeKept_of_slotMode (rd_of_regs h _)

theorem modeKept_of_keepsPage (h : KeepsPage (lnkPage (p / 256)) s t) : modeKept p s t := fun hp =>
  (isPort_of_keepsPage h).trans hp

theorem fpMode_body (f : Nat) : bodyWord (LNK_FP_MODE_at f) := by
  simp only [bodyWord, LNK_FP_MODE_at]
  omega

theorem modeKept_of_sameWords {ws : List Nat} (h : sameWords ws s t) (hws : LNK_FP_MODE_at (p / 4) ∉ ws) : modeKept p s t :=
  modeKept_of_slotMode (rd_of_sameWords h hws)

/-- A mode bit 1 that becomes set makes every port of the pair one of its mode. -/
theorem isPort_of_mode {m m' : Nat} (hs : s.slotMode p = m) (ht : t.slotMode p = m') (h : m' = m ∨ m % 4 < 2 ∧ m' = m + 2)
    (hm : m < 8) : modeKept p s t := by
  intro hp
  obtain rfl | ⟨hlow, rfl⟩ := h
  · rwa [Box.isPort, ht, ← hs]
  · rw [Box.isPort, hs] at hp
    rw [Box.isPort, ht]
    have hcases : m = 0 ∨ m = 1 ∨ m = 4 ∨ m = 5 := by omega
    obtain rfl | rfl | rfl | rfl := hcases
    · cases hp
    · rfl
    · cases hp
    · cases hp

/-- A bit set in a word leaves its three low bits, or sets the middle one. -/
theorem wordWith_low3 (w : Word) {lo : Nat} (hlo : lo < 32) (hbit : lo = 1 ∨ 3 ≤ lo) :
    (wordWith w lo 1 1).toNat % 8 = w.toNat % 8
      ∨ w.toNat % 8 % 4 < 2 ∧ (wordWith w lo 1 1).toNat % 8 = w.toNat % 8 + 2 := by
  have hw := w.isLt
  rw [wordWith, BitVec.toNat_ofNat, wordField, natField]
  generalize w.toNat = n at *
  obtain rfl | h3 := hbit
  · omega
  · obtain ⟨k, hk⟩ : ∃ k, 2 ^ lo = 8 * k := ⟨2 ^ (lo - 3), by rw [show 8 = 2 ^ 3 from rfl, ← Nat.pow_add, Nat.add_sub_cancel' h3]⟩
    have hle : n / 2 ^ lo % 2 ^ 1 * 2 ^ lo ≤ n :=
      (Nat.mul_le_mul_right _ (Nat.mod_le _ _)).trans (Nat.div_mul_le_self n _)
    rw [hk] at hle ⊢
    obtain h | h : n / (8 * k) % 2 ^ 1 = 0 ∨ n / (8 * k) % 2 ^ 1 = 1 := by omega
    all_goals
      rw [h] at hle ⊢
      omega

/-- A one-bit field set in whatever word leaves a mode that is one, unless it is bit 0 or bit 2 of its word. -/
theorem put_modeKept (s : Box) {f : Fld} (hw : f.width = 1) (hlo : f.lo < 32) (hbit : f.lo = 1 ∨ 3 ≤ f.lo) :
    modeKept p s (s.put f true) := by
  by_cases ha : LNK_FP_MODE_at (p / 4) = f.addr
  · have hmode : s.slotMode p = (s.word f.addr).toNat % 8 := by
      rw [Box.slotMode, Box.rd, ← ha]
      exact congrArg (· % 8) (Nat.div_one _)
    have hafter : (s.put f true).slotMode p = (wordWith (s.word f.addr) f.lo 1 1).toNat % 8 := by
      have hword : (s.put f true).word f.addr = wordWith (s.word f.addr) f.lo 1 1 := by
        rw [Box.put, Box.wr, word_setWord, hw]
        rfl
      rw [Box.slotMode, Box.rd, ← hword, ← ha]
      exact congrArg (· % 8) (Nat.div_one _)
    refine isPort_of_mode hmode hafter ?_ (Nat.mod_lt _ (by decide))
    exact wordWith_low3 _ hlo hbit
  · exact modeKept_of_slotMode (rd_of_sameWords (put_sameWords s f true) (by simpa [LNK_FP_MODE_MODE] using ha))

/-- A cause raised on whatever page leaves it, unless its vector's pending bit is bit 0 or bit 2 of its word. -/
theorem raiseInt_modeKept (s : Box) {r : Page} (hv : pageVector r % 32 = 1 ∨ 3 ≤ pageVector r % 32) (bit : Nat) :
    modeKept p s (s.raiseInt r bit) := by
  have hmod := pageBase_mod r
  have hpend : LNK_FP_MODE_at (p / 4) ∉ [(pageFld r 16 bit 1).addr] := by
    simp only [List.mem_cons, List.not_mem_nil, or_false, pageFld, LNK_FP_MODE_at]
    omega
  have hput : modeKept p s (s.put (pageFld r 16 bit 1) true) := modeKept_of_sameWords (put_sameWords s _ _) hpend
  rw [Box.raiseInt]
  split
  · refine modeKept_trans hput ?_
    rw [Box.sendVector]
    split
    · exact put_modeKept _ rfl (Nat.mod_lt _ (by decide)) hv
    · exact modeKept_of_regs rfl
  · exact hput

theorem pageVector_mod {r : Nat} (hr : r % 256 = 14) : pageVector r % 32 = 14 ∨ pageVector r % 32 = 30 := by
  simp only [pageVector, hr]
  split
  · exact Or.inl rfl
  · omega

theorem brkPage_vector (u : Nat) : pageVector (brkPage u) % 32 = 1 ∨ 3 ≤ pageVector (brkPage u) % 32 := by
  have hr : (256 * u + 14) % 256 = 14 := by omega
  obtain h | h := pageVector_mod hr
  · exact Or.inr (le_of_le_of_eq (by decide) h.symm)
  · exact Or.inr (le_of_le_of_eq (by decide) h.symm)

theorem bump_modeKept (s : Box) {r : Page} (hv : pageVector r % 32 = 1 ∨ 3 ≤ pageVector r % 32) {i : Nat} (hi : i % 32 = 1 ∨ 3 ≤ i % 32)
    (n : Nat) : modeKept p s (s.bump r i n) := by
  have hcount (c : Box) (hc : c.regs = s.regs) : modeKept p s ((c.put (ovfFld r i) true).raiseInt r 30) :=
    modeKept_trans (t := c.put (ovfFld r i) true) (modeKept_trans (t := c) (modeKept_of_regs hc)
      (put_modeKept c rfl (Nat.mod_lt _ (by decide)) hi)) (raiseInt_modeKept _ hv 30)
  rw [Box.bump]
  split
  · exact hcount _ rfl
  · exact modeKept_of_regs rfl

/-- The loss of a sampler's record, whatever sampler a trace names. -/
theorem sampleLost_modeKept (s c : Box) (hc : c.regs = s.regs) (u k : Nat) :
    modeKept p s ((c.count (brkPage u) (2 * k + 1)).raiseInt (brkPage u) 1) :=
  modeKept_trans (t := c.count (brkPage u) (2 * k + 1))
    (modeKept_trans (t := c) (modeKept_of_regs hc) (bump_modeKept c (brkPage_vector u) (by omega) 1))
    (raiseInt_modeKept _ (brkPage_vector u) 1)

theorem traceExit_modeKept (s : Box) (tr : Option Trace) (out : Option Nat) (exit : Nat) (f : Frame) :
    modeKept p s (s.traceExit (p / 256) tr out exit f) := by
  have hring : ∀ r u, s.traceRing (p / 256) r = some u → modeKept p s u := fun _ _ h =>
    modeKept_of_keepsPage (traceRing_keepsPage h)
  delta Box.traceExit
  obtain ⟨ring, e⟩ : ∃ g, g = s.traceRing (p / 256) := ⟨_, rfl⟩
  rw [← e] at hring ⊢
  split
  · exact modeKept_refl s
  · next x =>
    split
    · next u hu => exact hring _ u hu
    · split
      · next k _ =>
        have hlost := sampleLost_modeKept (p := p) s (s.setSampler (16 * (x.inPort / 256) + k)
          { s.sampler (16 * (x.inPort / 256) + k) with lost := (s.sampler (16 * (x.inPort / 256) + k)).lost + 1 }) rfl (x.inPort / 256) k
        exact hlost
      · exact raiseInt_modeKept (r := brkPage (p / 256)) s (brkPage_vector _) 1

theorem setWords_wr_modeKept (s : Box) (f : Fld) (v : Nat) (h : LNK_FP_MODE_at (p / 4) ≠ f.addr) : modeKept p s (s.wr f v) :=
  modeKept_of_sameWords (wr_sameWords s f v) (by simpa using h)

end mode

/-! ### Samples -/

section samples

variable {p : Nat}

theorem tentCount_modeKept (b : Box) {t c : Nat} (ht : t < 8) (hc : c < 256) {i : Nat} (hi : i < 4096) :
    modeKept p b (b.count (tentPage t c) i) :=
  modeKept_of_slotMode (rd_of_sameOn (count_body b ((tentPage_lt ht hc).trans (by decide)) hi) (fpMode_body _))

theorem tentRaise_modeKept (b : Box) {t c : Nat} (ht : t < 8) (hc : c < 256) (bit : Nat) :
    modeKept p b (b.raiseInt (tentPage t c) bit) :=
  modeKept_of_slotMode (rd_of_sameOn (raiseInt_body b ((tentPage_lt ht hc).trans (by decide)) bit) (fpMode_body _))

theorem sampleRing_modeKept {b c : Box} {r : List Byte} (h : b.sampleRing (p / 256) r = some c) : modeKept p b c := by
  have hh : addrPage (BRK_SRING_HEAD_INDEX (p / 256)).addr = brkPage (p / 256) :=
    addrPage_tentWord (off := 0x120) (by decide) (by decide) (Nat.add_assoc _ 0xE0000 0x120).symm
  have ht : addrPage (BRK_SRING_TAIL_INDEX (p / 256)).addr = brkPage (p / 256) :=
    addrPage_tentWord (off := 0x124) (by decide) (by decide) (Nat.add_assoc _ 0xE0000 0x124).symm
  have hne : brkPage (p / 256) ≠ lnkPage (p / 256) := tentPage_ne _ (by decide)
  exact modeKept_of_keepsPage (ringWrite_keepsPage (hh ▸ hne) (ht ▸ hne) h)

/-- The end of a sample: a record in the queue on the die, or its loss. -/
theorem sampleQueued_modeKept (ht : p / 256 < 8) (b : Box) (drop on : Bool) (r : List Byte) :
    modeKept p b (if drop then (b.count mgtPage 3).raiseInt (brkPage (p / 256)) 1
      else if on then { (b.wr MGT_SMPQ_HEAD_INDEX (b.rd MGT_SMPQ_HEAD_INDEX + 1)) with smpq := b.smpq ++ [r] } else b) := by
  have hqueue : LNK_FP_MODE_at (p / 4) ≠ MGT_SMPQ_HEAD_INDEX.addr := by
    simp only [LNK_FP_MODE_at, MGT_SMPQ_HEAD_INDEX, MGT_SMPQ_HEAD_at]
    omega
  split
  · exact modeKept_trans (t := b.count mgtPage 3)
      (modeKept_of_slotMode (rd_of_sameOn (count_body b (p := mgtPage) (by decide) (by decide)) (fpMode_body _)))
      (tentRaise_modeKept _ ht (by decide) 1)
  · split
    · exact modeKept_trans (t := b.wr MGT_SMPQ_HEAD_INDEX (b.rd MGT_SMPQ_HEAD_INDEX + 1)) (setWords_wr_modeKept b _ _ hqueue)
        (modeKept_of_regs rfl)
    · exact modeKept_refl b

theorem sampleWrite_modeKept (ht : p / 256 < 8) (b : Box) {k : Nat} (hk : k < 16) (point : Nat) (i : SampleInfo) :
    modeKept p b (b.sampleWrite (p / 256) k point i) := by
  have hcount : modeKept p b (b.count (brkPage (p / 256)) (2 * k)) := tentCount_modeKept b ht (by decide) (by omega)
  rw [Box.sampleWrite]
  dsimp only
  generalize b.count (brkPage (p / 256)) (2 * k) = c at hcount ⊢
  generalize hring : (if (b.rd (BRK_SMP_CFG_DEST (p / 256) k)).testBit 0 = true then
    c.sampleRing (p / 256) (sampleRecord k point (p / 256) i (b.sampler (16 * (p / 256) + k))) else none) = ring
  have hsome : ∀ u, ring = some u → modeKept p c u := fun u hu => by
    rw [← hring, Option.ite_none_right_eq_some] at hu
    exact sampleRing_modeKept hu.2
  generalize hone : (if ((b.rd (BRK_SMP_CFG_DEST (p / 256) k)).testBit 0 && ring.isNone) = true then
    (c.count (brkPage (p / 256)) (2 * k + 1)).raiseInt (brkPage (p / 256)) 1 else ring.getD c) = d
  have hd : modeKept p c d := by
    rw [← hone]
    split
    · exact modeKept_trans (tentCount_modeKept c ht (by decide) (by omega)) (tentRaise_modeKept _ ht (by decide) 1)
    · cases ring with
      | none => exact modeKept_refl c
      | some u => exact hsome u rfl
  exact modeKept_trans (modeKept_trans hcount hd)
    (modeKept_trans (t := d.setSampler _ _) (modeKept_of_regs rfl) (sampleQueued_modeKept ht _ _ _ _))

theorem sampleOne_modeKept (ht : p / 256 < 8) (b : Box) {k : Nat} (hk : k < 16) (point : Nat) (i : SampleInfo) :
    modeKept p b (b.sampleOne (p / 256) k point i).1 := by
  rw [Box.sampleOne]
  split
  · dsimp only
    generalize (if (b.sampler (16 * (p / 256) + k)).fresh = true then _ else _ : Sampler) = x
    split
    · split
      · exact modeKept_of_regs rfl
      · exact modeKept_trans (t := b.setSampler (16 * (p / 256) + k) x) (modeKept_of_regs rfl)
          (modeKept_trans (sampleWrite_modeKept ht _ hk point i) (modeKept_of_regs rfl))
    · exact modeKept_of_regs rfl
  · exact modeKept_refl b

theorem samplePoint_modeKept (ht : p / 256 < 8) (b : Box) (point : Nat) (i : SampleInfo) :
    modeKept p b (b.samplePoint (p / 256) point i).1 :=
  foldl_rel (R := fun x y : Box × Option Nat => modeKept p x.1 y.1) (fun _ => modeKept_refl _)
    (fun h k => modeKept_trans h k) (List.range 16)
    (fun x _ hk => sampleOne_modeKept ht x.1 (List.mem_range.mp hk) point i) (b, none)

end samples

/-! ### Frames start -/

theorem foldl_regs {α : Type} {f : Box → α → Box} (l : List α) (hf : ∀ b, ∀ x ∈ l, (f b x).regs = b.regs) (b : Box) :
    (l.foldl f b).regs = b.regs :=
  foldl_rel (R := fun x y : Box => y.regs = x.regs) (fun _ => rfl) (fun h k => k.trans h) l hf b

theorem sendPtp_regs (b : Box) (p : Nat) (m : List Byte) : (b.sendPtp p m).regs = b.regs := rfl

theorem relaySettle_regs (b : Box) (p : Nat) : (b.relaySettle p).regs = b.regs := by
  rw [Box.relaySettle]
  dsimp only
  rw [foldl_regs]
  · rfl
  · exact fun _ _ _ => rfl

theorem noteHeld_regs (b : Box) (p v sub : Nat) : (b.noteHeld p v sub).regs = b.regs := by
  rw [Box.noteHeld]
  split <;> rfl

theorem trigLate_modeKept {p : Nat} (b : Box) (u : Nat) : modeKept p b (b.trigLate u) :=
  modeKept_trans (put_modeKept b rfl (show 3 < 32 by decide) (Or.inr (show 3 ≤ 3 by decide)))
    (modeKept_of_slotMode (rd_of_sameOn (raiseInt_body _ (p := tgtPage) (by decide) 2) (fpMode_body _)))

theorem ptpLaunch_regs (b : Box) (p : Nat) (f : Frame) (t32 : Nat) : (b.ptpLaunch p f t32).regs = b.regs := by
  simp only [Box.ptpLaunch]
  split
  · rfl
  · split
    · split
      · exact relaySettle_regs _ _
      · rfl
    · split
      · split <;> rfl
      · rfl
    · split <;> rfl
    · rfl

theorem refilled_regs (b : Box) (p : Nat) (l : List Nat) : (l.foldl (fun (b : Box) v => b.refillShapers p v) b).regs = b.regs := by
  rw [foldl_regs]
  exact fun _ _ _ => rfl

theorem heldNoted_regs (b : Box) (p sub : Nat) (l : List Nat) :
    (l.foldl (fun (b : Box) v => b.noteHeld p v sub) b).regs = b.regs := foldl_regs l (fun b v _ => noteHeld_regs b p v sub) b

section start

variable {p : Nat} (hp : p < 2048)
include hp

theorem countPort_modeKept (b : Box) {c : Nat} (hc : c < 256) {i : Nat} (hi : i < 4096) (n : Nat) :
    modeKept p b (b.countPort (tentPage (p / 256) c) i p n) := by
  rw [Box.countPort]
  split
  · exact modeKept_of_slotMode (rd_of_sameOn (bump_body b ((tentPage_lt (by omega) hc).trans (by decide)) hi n) (fpMode_body _))
  · exact modeKept_refl b

theorem calCount_modeKept (b : Box) {k : Nat} (hk : k < 15) : modeKept p b (b.calCount k p 1) :=
  countPort_modeKept hp b (by decide) (by omega) 1

theorem envEvent_modeKept (b : Box) (bit : Nat) : modeKept p b (b.envEvent p bit) := by
  refine modeKept_of_sameWords (envEvent_sameWords b p bit) ?_
  have hpage : calPage (p / 256) < 2304 := (tentPage_lt (by omega) (by decide)).trans (by decide)
  have hsched : LNK_FP_MODE_at (p / 4) ≠ CAL_SCHED_STATUS_at p := by
    simp only [LNK_FP_MODE_at, CAL_SCHED_STATUS_at]
    omega
  rw [List.mem_cons, not_or]
  exact ⟨hsched, fun h => causeWords_not_body hpage h (fpMode_body _)⟩

theorem barrierLate_modeKept (b : Box) (f : Frame) (now : Nat) : modeKept p b (b.barrierLate p f now) := by
  rw [Box.barrierLate]
  split
  · exact modeKept_trans (countPort_modeKept hp b (by decide) (by omega) 1) (tentRaise_modeKept _ (by omega) (by decide) 0)
  · exact modeKept_refl b

theorem startFrame_modeKept (b : Box) (v sub : Nat) : modeKept p b (b.startFrame p v sub) := by
  have ht : p / 256 < 8 := by omega
  rw [Box.startFrame]
  split
  · exact modeKept_refl b
  · next x _ =>
    dsimp only
    generalize (b.hopWord p x.desc).1 = w
    generalize (b.hopWord p x.desc).2 = mark
    generalize hs3 : Box.setHead _ _ _ = c
    have hc : modeKept p b c := modeKept_of_regs (by rw [← hs3]; rfl)
    generalize hs4 : (if mark = true then c.calCount 8 p 1 else c) = d
    have hd : modeKept p c d := by
      rw [← hs4]
      split
      · exact calCount_modeKept hp c (by decide)
      · exact modeKept_refl c
    generalize hs5 : (d.samplePoint (p / 256) 1 _).1 = e
    have he : modeKept p d e := hs5 ▸ samplePoint_modeKept ht d 1 _
    exact modeKept_trans (modeKept_trans (modeKept_trans hc hd) he)
      (modeKept_trans (modeKept_trans (barrierLate_modeKept hp e _ _) (modeKept_of_regs (ptpLaunch_regs _ _ _ _)))
        (traceExit_modeKept _ _ _ _ _))

theorem lateCheck_modeKept (b : Box) (cands : List Nat) (g : GateNow) : modeKept p b (b.lateCheck p cands g) := by
  simp only [Box.lateCheck]
  split
  · exact modeKept_refl b
  · refine foldl_rel modeKept_refl modeKept_trans _ (fun c v _ => ?_) b
    split
    · split
      · exact modeKept_trans (t := c.setHead _ _) (modeKept_of_regs rfl)
          (modeKept_trans (envEvent_modeKept hp _ _) (calCount_modeKept hp _ (by decide)))
      · exact modeKept_refl c
    · exact modeKept_refl c

theorem chosen_modeKept (b c d : Box) (hc : c.regs = b.regs) (v sub : Nat) {len : Nat} (hd : d = c.takeShapers p v len) :
    modeKept p b (d.startFrame p v sub) :=
  modeKept_trans (modeKept_of_regs (by rw [hd, ← hc]; rfl)) (startFrame_modeKept hp d v sub)

theorem pickStaged_modeKept (b : Box) (sub : Nat) : modeKept p b (b.pickStaged p sub) := by
  simp only [Box.pickStaged]
  generalize hc : List.foldl (fun b v => Box.refillShapers b p v) b _ = c
  have hbc : modeKept p b c := modeKept_of_regs (by rw [← hc, refilled_regs])
  generalize hd : (List.range 8).foldl (fun (x : Box) v =>
    if c.heldBy p v sub (b.gateNow p) = .credit ∧ c.gatedVc p v = true then x.envEvent p 3 else x) c = d
  have hcd : modeKept p c d := by
    rw [← hd]
    refine foldl_rel modeKept_refl modeKept_trans _ (fun x v _ => ?_) c
    split
    · exact envEvent_modeKept hp x 3
    · exact modeKept_refl x
  generalize he : List.foldl (fun b v => Box.noteHeld b p v sub) d _ = e
  have hde : modeKept p d e := modeKept_of_regs (by rw [← he, heldNoted_regs])
  have hlate := lateCheck_modeKept hp e ((List.range 8).filter fun v => c.heldBy p v sub (b.gateNow p) = .free) (b.gateNow p)
  generalize e.lateCheck p _ _ = f at hlate ⊢
  have hbf := modeKept_trans (modeKept_trans (modeKept_trans hbc hcd) hde) hlate
  split
  · exact modeKept_trans hbf (chosen_modeKept hp f (f.setCal p _) _ rfl _ _ rfl)
  · exact hbf

theorem pickFrame_modeKept (b : Box) (sub : Nat) : modeKept p b (b.pickFrame p sub) := by
  rw [Box.pickFrame]
  split
  · next c h =>
    simp only [Box.launchStart] at h
    split at h
    · cases h
    · next l _ =>
      obtain ⟨-, h⟩ := Option.ite_none_right_eq_some.mp h
      cases h
      have hstart := startFrame_modeKept hp (Box.stageLaunch { b with launches := b.launches.erase l } l) 5 sub
      have hlaunch : modeKept p b (Box.stageLaunch { b with launches := b.launches.erase l } l) := modeKept_of_regs rfl
      split
      · exact modeKept_trans (modeKept_trans hlaunch hstart) (trigLate_modeKept _ _)
      · exact modeKept_trans hlaunch hstart
  · exact pickStaged_modeKept hp b sub

theorem fillBody_modeKept (sub fuel : Nat) (body : List Byte) (fs : Nat) (b : Box) :
    modeKept p b (Box.fillBody p sub fuel body fs b).2.2 := by
  induction fuel generalizing body fs b with
  | zero => exact modeKept_refl b
  | succ fuel ih =>
    rw [Box.fillBody]
    dsimp only
    split
    · exact modeKept_refl b
    · split
      · split
        · exact modeKept_refl b
        · split
          · exact modeKept_refl b
          · split
            · exact modeKept_trans (t := b.frameSent p _) (modeKept_of_regs rfl) (ih _ _ _)
            · exact modeKept_of_regs rfl
      · split
        · exact pickFrame_modeKept hp b sub
        · exact modeKept_trans (pickFrame_modeKept hp b sub) (ih _ _ _)

end start

end Sys2Proof.Proofs
end

section
/-! # What a flit slot sends (R33, R39, R40, R389) -/

namespace Sys2Proof.Proofs

open Sys2Proof Sys2Proof.Machine Sys2Proof.Safety Sys2Proof.Laws

/-! ### What a slot sends -/

/-- A slot whose oldest control message leaves, `ms` still waiting. -/
def ctlTaken (b : Box) (p sub : Nat) (ms : List (List Byte)) : Box :=
  (b.calCount (b.idleClass p sub) p 1).setPort p { b.port p with ctlQ := ms }

theorem ctr_of_ctrs {b c : Box} (h : c.ctrs = b.ctrs) (p : Page) (i : Nat) : c.ctr p i = b.ctr p i := by rw [Box.ctr, Box.ctr, h]

section slot

variable {b : Box} {p : Nat} {sub : Nat}

theorem ownPause_none (h : (b.port p).pauseTx = none) : b.ownPause p = false := by rw [Box.ownPause, h]; rfl

theorem upSlot_paused (h : b.ownPause p = true) : b.upSlot p sub = b.calCount 6 p 1 := by
  have hpause : (b.port p).pauseTx.isSome = true := ((Bool.and_eq_true _ _).mp h).1
  rw [Box.upSlot, h, Bool.true_or, if_pos rfl]
  exact if_pos hpause

theorem upSlot_aligning (hal : (b.port p).aligning = true) (h : (b.port p).pauseTx = none) :
    b.upSlot p sub = (b.calCount (b.idleClass p sub) p 1).sendFlit p 1 ((b.calCount (b.idleClass p sub) p 1).port p).txSeq 31 [] := by
  rw [Box.upSlot, hal, Bool.or_true, if_pos rfl, h]
  rfl

section free

variable (hal : (b.port p).aligning = false) (hpause : (b.port p).pauseTx = none)
include hal hpause

theorem ctlWaiting : (if (b.ownPause p || (b.port p).aligning) = true then [] else (b.port p).ctlQ) = (b.port p).ctlQ := by
  rw [ownPause_none hpause, hal]
  rfl

theorem upSlot_ctl {m : List Byte} {ms : List (List Byte)} (hq : (b.port p).ctlQ = m :: ms) :
    b.upSlot p sub = ((ctlTaken b p sub ms).stampCtl p m).2.sendFlit p 2 (b.port p).txSeq 31
      ((ctlTaken b p sub ms).stampCtl p m).1 := by
  rw [Box.upSlot, ctlWaiting hal hpause, hq]
  rfl

variable (hq : (b.port p).ctlQ = [])
include hq

theorem upSlot_free : b.upSlot p sub = match (b.port p).again with
    | some f => (b.sendAgain p f).calCount 4 p 1
    | none =>
      if retryDepth (b.slotMode p) ≤ (b.port p).retry.length then
        (b.calCount 6 p 1).sendFlit p 1 ((b.calCount 6 p 1).port p).txSeq 31 []
      else
        let r := Box.fillBody p sub 31 [] 31 b
        if r.1 = [] then (r.2.2.calCount (r.2.2.idleClass p sub) p 1).sendFlit p 1
            ((r.2.2.calCount (r.2.2.idleClass p sub) p 1).port p).txSeq 31 []
        else (r.2.2.sendData p r.2.1 r.1).calCount 3 p 1 := by
  rw [Box.upSlot, ctlWaiting hal hpause, hq, hal, hpause]
  rfl

end free

end slot

theorem idleClass_lt (b : Box) (p sub : Nat) : b.idleClass p sub < 15 := by
  rw [Box.idleClass]
  split
  · decide
  · split
    · decide
    · split <;> decide

/-- An IDLE flit of a counted slot. -/
theorem idle_sent (b : Box) {k p : Nat} (hk : k < 15) (hp : p < 2048) :
    sentFlit b ((b.calCount k p 1).sendFlit p 1 ((b.calCount k p 1).port p).txSeq 31 []) p 1 (b.port p).txSeq 31 []
      ∧ ((b.calCount k p 1).sendFlit p 1 ((b.calCount k p 1).port p).txSeq 31 []).ctrs = (b.calCount k p 1).ctrs
      ∧ (((b.calCount k p 1).sendFlit p 1 ((b.calCount k p 1).port p).txSeq 31 []).port p).retry = (b.port p).retry := by
  have hkept := calCount_slotKept b hk hp
  have hport : (b.calCount k p 1).port p = b.port p := by
    obtain ⟨_, _, _, h⟩ := (calCount_shows b hk hp).2.1
    rw [h]
    rfl
  have hsent := sentFlit_of_kept hkept (sentFlit_of_sendFlit (b.calCount k p 1) p 1 ((b.calCount k p 1).port p).txSeq 31 [])
  obtain ⟨ps, o, heq, _, _, _, _, hps⟩ := sendFlit_shows (b.calCount k p 1) p 1 ((b.calCount k p 1).port p).txSeq 31 []
  refine ⟨hport ▸ hsent, by rw [heq], ?_⟩
  have hread : ((b.calCount k p 1).sendFlit p 1 ((b.calCount k p 1).port p).txSeq 31 []).port p
      = (mapGet (fun _ => {}) ps p : Port) := by
    rw [heq]
    rfl
  rw [hread, hps, hport]

/-- A control message that takes a slot keeps what the slot's header shows. -/
theorem stampCtl_shows (b : Box) (p : Nat) (m : List Byte) : ∃ rr pend, (b.stampCtl p m).2
    = { b with ports := (b.stampCtl p m).2.ports } ∧ (b.stampCtl p m).2.port p = { b.port p with rrOut := rr, pendTx := pend } := by
  rw [Box.stampCtl]
  dsimp only
  split
  · exact ⟨_, (b.port p).pendTx, rfl, port_setPort _ _ _⟩
  · split
    · split
      · exact ⟨(b.port p).rrOut, _, rfl, port_setPort _ _ _⟩
      · exact ⟨(b.port p).rrOut, (b.port p).pendTx, rfl, rfl⟩
    · exact ⟨(b.port p).rrOut, (b.port p).pendTx, rfl, rfl⟩

theorem stampCtl_message {b c : Box} {p : Nat} (hpend : (c.port p).pendTx = (b.port p).pendTx)
    (hslot : (c.port p).txSlot = (b.port p).txSlot) (m : List Byte) : (c.stampCtl p m).1 = (b.stampCtl p m).1 := by
  simp only [Box.stampCtl, hpend, hslot]
  split
  · rfl
  · split
    · split <;> rfl
    · rfl

/-- What a flit leaves in the port's record and the counters. -/
theorem sendFlit_port (b : Box) (p ftype seq fstart : Nat) (body : List Byte) : ∃ told five rot bits,
    (b.sendFlit p ftype seq fstart body).port p = { b.port p with
          told := told, vc5Last := five, rot := rot, laneBits := bits, txSlot := ((b.port p).txSlot + 1) % 2 ^ 32, lastTx := b.raw }
      ∧ ∃ ps o, b.sendFlit p ftype seq fstart body = { b with ports := ps, outbox := o } := by
  obtain ⟨ps, o, heq, told, five, rot, bits, hps⟩ := sendFlit_shows b p ftype seq fstart body
  refine ⟨told, five, rot, bits, ?_, _, _, heq⟩
  rw [← hps, heq]
  rfl

theorem ctl_sent (b : Box) {p : Nat} (hp : p < 2048) (sub : Nat) (m : List Byte) (ms : List (List Byte)) :
    let u := ((ctlTaken b p sub ms).stampCtl p m).2.sendFlit p 2 (b.port p).txSeq 31 ((ctlTaken b p sub ms).stampCtl p m).1
    sentFlit b u p 2 (b.port p).txSeq 31 (b.stampCtl p m).1 ∧ (u.port p).ctlQ = ms ∧ (u.port p).retry = (b.port p).retry
      ∧ (u.port p).txSeq = (b.port p).txSeq := by
  intro u
  have hcount := calCount_slotKept b (idleClass_lt b p sub) hp
  have hport : (ctlTaken b p sub ms).port p = { b.port p with ctlQ := ms } := port_setPort _ _ _
  obtain ⟨rr, pend, hstamp, hstamped⟩ := stampCtl_shows (ctlTaken b p sub ms) p m
  have hmessage : ((ctlTaken b p sub ms).stampCtl p m).1 = (b.stampCtl p m).1 :=
    stampCtl_message (by rw [hport]) (by rw [hport]) m
  rw [hport] at hstamped
  have hkept : SlotKept p b ((ctlTaken b p sub ms).stampCtl p m).2 := by
    rw [hstamp] at hstamped ⊢
    exact ⟨hcount.out, by rw [hstamped]; exact ⟨rfl, rfl, rfl, rfl, rfl, rfl⟩, hcount.lanes, hcount.minor, hcount.raw⟩
  obtain ⟨_, _, _, _, hafter, -⟩ := sendFlit_port ((ctlTaken b p sub ms).stampCtl p m).2 p 2 (b.port p).txSeq 31
    ((ctlTaken b p sub ms).stampCtl p m).1
  have hu : u.port p = _ := hafter
  rw [hstamped] at hu
  refine ⟨?_, by rw [hu], by rw [hu], by rw [hu]⟩
  rw [← hmessage]
  exact sentFlit_of_kept hkept (sentFlit_of_sendFlit _ _ _ _ _ _)

theorem setPort_slotKept (b : Box) {p : Nat} {x : Port} (h : SlotAlike (b.port p) x) : SlotKept p b (b.setPort p x) :=
  ⟨emits_of_eq rfl, by rwa [port_setPort], rfl, rfl, rfl⟩

/-- A flit of a port whose record has changed where a flit's header does not show it. -/
theorem sent_alike (b : Box) {p : Nat} {x : Port} (h : SlotAlike (b.port p) x) (ftype seq fs : Nat) (body : List Byte) :
    sentFlit b ((b.setPort p x).sendFlit p ftype seq fs body) p ftype seq fs body
      ∧ (((b.setPort p x).sendFlit p ftype seq fs body).port p).retry = x.retry
      ∧ (((b.setPort p x).sendFlit p ftype seq fs body).port p).txSeq = x.txSeq
      ∧ (((b.setPort p x).sendFlit p ftype seq fs body).port p).resend = x.resend
      ∧ ∃ ps o, (b.setPort p x).sendFlit p ftype seq fs body = { b with ports := ps, outbox := o } := by
  obtain ⟨_, _, _, _, hport, ps, o, heq⟩ := sendFlit_port (b.setPort p x) p ftype seq fs body
  rw [port_setPort] at hport
  refine ⟨sentFlit_of_kept (setPort_slotKept b h) (sentFlit_of_sendFlit _ _ _ _ _ _), by rw [hport], by rw [hport], by rw [hport],
    ps, o, ?_⟩
  rw [heq]
  rfl

/-- The port's record after a flit has been sent again. -/
def againKept (x : Port) (f : TxFlit) : Port :=
  { x with resend := if x.retry.any (fun g => g.seq == (f.seq + 1) % 65536) then some ((f.seq + 1) % 65536) else none }

/-- A flit that is sent again. -/
theorem sendAgain_sent (b : Box) (p : Nat) (f : TxFlit) :
    sentFlit b (b.sendAgain p f) p 0 f.seq f.fstart f.body ∧ ((b.sendAgain p f).port p).retry = (b.port p).retry
      ∧ ((b.sendAgain p f).port p).txSeq = (b.port p).txSeq
      ∧ ((b.sendAgain p f).port p).resend = (if (b.port p).retry.any (fun g => g.seq == (f.seq + 1) % 65536)
          then some ((f.seq + 1) % 65536) else none)
      ∧ ∃ ps o, b.sendAgain p f = { b with ports := ps, outbox := o } :=
  have halike : SlotAlike (b.port p) (againKept (b.port p) f) := ⟨rfl, rfl, rfl, rfl, rfl, rfl⟩
  sent_alike b halike 0 f.seq f.fstart f.body

/-- The port's record with a DATA flit kept for retry. -/
def dataKept (x : Port) (fs : Nat) (body : List Byte) : Port :=
  { x with retry := x.retry ++ [⟨x.txSeq, fs, body⟩], txSeq := (x.txSeq + 1) % 65536 }

/-- A DATA flit that leaves for the first time. -/
theorem sendData_sent (b : Box) (p fs : Nat) (body : List Byte) :
    sentFlit b (b.sendData p fs body) p 0 (b.port p).txSeq fs (padTo 240 0 body)
      ∧ ((b.sendData p fs body).port p).retry = (b.port p).retry ++ [⟨(b.port p).txSeq, fs, padTo 240 0 body⟩]
      ∧ ((b.sendData p fs body).port p).txSeq = ((b.port p).txSeq + 1) % 65536
      ∧ ∃ ps o, b.sendData p fs body = { b with ports := ps, outbox := o } := by
  have halike : SlotAlike (b.port p) (dataKept (b.port p) fs (padTo 240 0 body)) := ⟨rfl, rfl, rfl, rfl, rfl, rfl⟩
  obtain ⟨hsent, hretry, hseq, -, heq⟩ := sent_alike b halike 0 (b.port p).txSeq fs (padTo 240 0 body)
  exact ⟨hsent, hretry, hseq, heq⟩

/-! ### The port in training -/

theorem trainFlits_shows (p : Nat) (fl : List Byte) (l : List Nat) (b : Box) : ∃ ps o,
    l.foldl (fun (b : Box) w => b.laneFlit p w w fl) b = { b with ports := ps, outbox := o ++ b.outbox }
      ∧ (∀ w ∈ l, Out.flit p w w fl ∈ o) ∧ (mapGet (fun _ => {}) ps p : Port).txSlot = (b.port p).txSlot := by
  induction l generalizing b with
  | nil => exact ⟨b.ports, [], rfl, by simp, rfl⟩
  | cons w l ih =>
    obtain ⟨bits, o, heq⟩ := laneFlit_shows b p w w fl
    obtain ⟨ps, o', hrest, hmem, hslot⟩ := ih (b.laneFlit p w w fl)
    rw [List.foldl_cons, hrest]
    rw [heq] at hslot ⊢
    refine ⟨ps, o' ++ .flit p w w fl :: o, by simp, ?_, ?_⟩
    · intro v hv
      rcases List.mem_cons.mp hv with rfl | hv
      · simp
      · simp [hmem v hv]
    · rw [hslot]
      simp only [Box.port, Box.setPort, mapGet_mapSet_same]

/-- A TRAIN flit leaves on every lane of the port's mode. -/
theorem trainFlit_shows (b : Box) (p : Nat) : ∃ ps o, b.trainFlit p = { b with ports := ps, outbox := o }
    ∧ (∀ w ∈ b.modeLanes p, Out.flit p w w (mkFlit 3 (b.port p).txSeq (sub16 (b.port p).rxSeq 1) 31 0 ((b.port p).freed.getD 0 0)
        (b.ownBlock p) 0) ∈ o)
    ∧ (mapGet (fun _ => {}) ps p : Port).txSlot = (b.port p).txSlot := by
  obtain ⟨ps, o, heq, hmem, hslot⟩ := trainFlits_shows p (mkFlit 3 (b.port p).txSeq (sub16 (b.port p).rxSeq 1) 31 0
    ((b.port p).freed.getD 0 0) (b.ownBlock p) 0) (b.modeLanes p) b
  rw [Box.trainFlit]
  dsimp only
  rw [heq]
  refine ⟨_, _, rfl, fun w hw => List.mem_append_left _ (hmem w hw), ?_⟩
  rw [mapGet_mapSet_same]
  exact hslot

/-! ### The obligation -/

section obligation

variable {s : State} {p : Slot} {sub : BitVec 5} (hrun : s.phase = .run) (hport : s.isPort p.toNat = true)
include hrun

theorem exec_flitSlot : exec (.flitSlot p sub) s = .next (s.onBox fun b => b.flitSlot p.toNat sub.toNat) := by
  show Host.Outcome.next (match s.phase with
    | .held => s
    | .run => s.onBox fun b => b.flitSlot p.toNat sub.toNat
    | _ => s.onBox fun b => b.stoppedSlot p.toNat) = _
  rw [hrun]

include hport

omit hrun in
theorem flitSlot_eq (hup : s.up p.toNat = true) (hwin : (s.port p.toNat).inWindow = false) :
    s.toBox.flitSlot p.toNat sub.toNat = (s.toBox.upSlot p.toNat sub.toNat).spillSettle (p.toNat / 256) := by
  rw [Box.flitSlot, if_neg (by rw [hport]; decide), if_pos hup, if_neg (by rw [hwin]; decide)]

/-- A slot of a port that is up and in no bypass window: what it sends, and then spilling settles. -/
theorem flitSlot_up (hup : s.up p.toNat = true) (hwin : (s.port p.toNat).inWindow = false) : ∃ t,
    exec (.flitSlot p sub) s = .next t ∧ ∃ c, spillOnly (s.toBox.upSlot p.toNat sub.toNat) c ∧ t.outbox = c.outbox
      ∧ t.ports = c.ports ∧ t.ctrs = c.ctrs := by
  have hsettle := spillSettle_spillOnly (s.toBox.upSlot p.toNat sub.toNat) (p.toNat / 256)
  rw [← flitSlot_eq hport hup hwin] at hsettle
  generalize hc : s.toBox.flitSlot p.toNat sub.toNat = c at hsettle
  exact ⟨_, next_onBox (exec_flitSlot hrun) hc, c, hsettle, rfl, rfl, rfl⟩

/-- What a slot has sent stays sent while spilling settles. -/
theorem slot_settled {u : Box} (hup : s.up p.toNat = true) (hwin : (s.port p.toNat).inWindow = false)
    (h : s.toBox.upSlot p.toNat sub.toNat = u) : ∃ t, exec (.flitSlot p sub) s = .next t ∧ emits u t.toBox
      ∧ t.ports = u.ports ∧ t.ctrs = u.ctrs := by
  obtain ⟨t, hexec, c, ⟨⟨_, _, _, _, heq⟩, ⟨o, ho⟩, -⟩, hout, hports, hctrs⟩ := flitSlot_up (sub := sub) hrun hport hup hwin
  rw [h] at heq ho
  exact ⟨t, hexec, ⟨o, hout.trans ho⟩, hports.trans (by rw [heq]), hctrs.trans (by rw [heq])⟩

/-- Under its own PAUSE a port sends nothing. -/
theorem flitSlot_paused (hup : s.up p.toNat = true) (hwin : (s.port p.toNat).inWindow = false) (hpause : s.ownPause p.toNat = true) :
    ∃ t, exec (.flitSlot p sub) s = .next t
      ∧ t.ctr (calPage (p.toNat / 256)) (256 * 6 + p.toNat % 256) = s.ctr (calPage (p.toNat / 256)) (256 * 6 + p.toNat % 256) + 1
      ∧ (t.port p.toNat).txSlot = (s.port p.toNat).txSlot := by
  obtain ⟨hctr, ⟨_, _, _, heq⟩, -⟩ := calCount_shows s.toBox (k := 6) (by decide) p.isLt
  obtain ⟨t, hexec, -, hports, hctrs⟩ := slot_settled hrun hport hup hwin (upSlot_paused (sub := sub.toNat) hpause)
  refine ⟨t, hexec, ?_, ?_⟩
  · rw [ctr_of_ctrs hctrs, hctr hport]
  · rw [port_of_ports hports, heq]
    rfl

/-- A slot of a full retry buffer or of a receiver that is not aligned yet sends an IDLE flit. -/
theorem flitSlot_idle {k : Nat} (hk : k < 15) (hup : s.up p.toNat = true) (hwin : (s.port p.toNat).inWindow = false)
    (h : s.toBox.upSlot p.toNat sub.toNat = (s.calCount k p.toNat 1).sendFlit p.toNat 1 ((s.calCount k p.toNat 1).port p.toNat).txSeq 31 []) :
    ∃ t, exec (.flitSlot p sub) s = .next t ∧ sentFlit s.toBox t.toBox p.toNat 1 (s.port p.toNat).txSeq 31 []
      ∧ t.ctr (calPage (p.toNat / 256)) (256 * k + p.toNat % 256) = s.ctr (calPage (p.toNat / 256)) (256 * k + p.toNat % 256) + 1
      ∧ (t.port p.toNat).retry = (s.port p.toNat).retry := by
  obtain ⟨hsent, hsame, hretry⟩ := idle_sent s.toBox hk p.isLt
  obtain ⟨t, hexec, hout, hports, hctrs⟩ := slot_settled hrun hport hup hwin h
  refine ⟨t, hexec, sentFlit_later hsent hports hout, ?_, ?_⟩
  · rw [ctr_of_ctrs (hctrs.trans hsame), (calCount_shows s.toBox hk p.isLt).1 hport]
  · rw [port_of_ports hports, hretry]

section free

variable (hup : s.up p.toNat = true) (hwin : (s.port p.toNat).inWindow = false) (hal : (s.port p.toNat).aligning = false)
  (hpause : (s.port p.toNat).pauseTx = none)
include hup hwin hal hpause

theorem flitSlot_ctl (m : List Byte) (ms : List (List Byte)) (hq : (s.port p.toNat).ctlQ = m :: ms) :
    ∃ t, exec (.flitSlot p sub) s = .next t
      ∧ sentFlit s.toBox t.toBox p.toNat 2 (s.port p.toNat).txSeq 31 (s.stampCtl p.toNat m).1
      ∧ (t.port p.toNat).ctlQ = ms ∧ (t.port p.toNat).retry = (s.port p.toNat).retry
      ∧ (t.port p.toNat).txSeq = (s.port p.toNat).txSeq := by
  obtain ⟨hsent, hms, hretry, hseq⟩ := ctl_sent s.toBox p.isLt sub.toNat m ms
  obtain ⟨t, hexec, hout, hports, -⟩ := slot_settled hrun hport hup hwin (upSlot_ctl (sub := sub.toNat) hal hpause hq)
  rw [← port_of_ports hports] at hms hretry hseq
  exact ⟨t, hexec, sentFlit_later hsent hports hout, hms, hretry, hseq⟩

variable (hq : (s.port p.toNat).ctlQ = [])
include hq

theorem flitSlot_again (f : TxFlit) (hf : (s.port p.toNat).again = some f) :
    ∃ t, exec (.flitSlot p sub) s = .next t ∧ sentFlit s.toBox t.toBox p.toNat 0 f.seq f.fstart f.body
      ∧ t.ctr (calPage (p.toNat / 256)) (256 * 4 + p.toNat % 256) = s.ctr (calPage (p.toNat / 256)) (256 * 4 + p.toNat % 256) + 1
      ∧ (t.port p.toNat).retry = (s.port p.toNat).retry ∧ (t.port p.toNat).txSeq = (s.port p.toNat).txSeq
      ∧ (t.port p.toNat).resend = (if (s.port p.toNat).retry.any (fun g => g.seq == (f.seq + 1) % 65536)
          then some ((f.seq + 1) % 65536) else none) := by
  obtain ⟨hsent, hretry, hseq, hnext, ps, o, heq⟩ := sendAgain_sent s.toBox p.toNat f
  have hmode : (s.toBox.sendAgain p.toNat f).isPort p.toNat = true ∧ (s.toBox.sendAgain p.toNat f).ctrs = s.ctrs := by
    rw [heq]
    exact ⟨hport, rfl⟩
  obtain ⟨hctr, ⟨_, _, _, hcount⟩, -⟩ := calCount_shows (s.toBox.sendAgain p.toNat f) (k := 4) (by decide) p.isLt
  have hafter : ((s.toBox.sendAgain p.toNat f).calCount 4 p.toNat 1).ports = (s.toBox.sendAgain p.toNat f).ports := by rw [hcount]
  have hslot := upSlot_free (sub := sub.toNat) hal hpause hq
  rw [hf] at hslot
  obtain ⟨t, hexec, hout, hports, hctrs⟩ := slot_settled hrun hport hup hwin hslot
  have hread := port_of_ports (hports.trans hafter) p.toNat
  refine ⟨t, hexec, sentFlit_later hsent (hports.trans hafter) (emits_trans (calCount_emits _ _ _ _) hout), ?_,
    by rw [hread, hretry], by rw [hread, hseq], by rw [hread, hnext]⟩
  rw [ctr_of_ctrs hctrs, hctr hmode.1, ctr_of_ctrs hmode.2]

variable (hnone : (s.port p.toNat).again = none)
include hnone

theorem flitSlot_full (hfull : retryDepth (s.slotMode p.toNat) ≤ (s.port p.toNat).retry.length) :
    ∃ t, exec (.flitSlot p sub) s = .next t ∧ sentFlit s.toBox t.toBox p.toNat 1 (s.port p.toNat).txSeq 31 []
      ∧ t.ctr (calPage (p.toNat / 256)) (256 * 6 + p.toNat % 256) = s.ctr (calPage (p.toNat / 256)) (256 * 6 + p.toNat % 256) + 1
      ∧ (t.port p.toNat).retry = (s.port p.toNat).retry := by
  have hslot := upSlot_free (sub := sub.toNat) hal hpause hq
  rw [hnone] at hslot
  exact flitSlot_idle hrun hport (by decide) hup hwin (hslot.trans (if_pos hfull))

variable (hroom : (s.port p.toNat).retry.length < retryDepth (s.slotMode p.toNat)) {r : List Byte × Nat × Box}
  (hr : Box.fillBody p.toNat sub.toNat 31 [] 31 s.toBox = r)
include hroom hr

omit hrun hport hup hwin in
theorem upSlot_new : s.toBox.upSlot p.toNat sub.toNat = if r.1 = [] then
      (r.2.2.calCount (r.2.2.idleClass p.toNat sub.toNat) p.toNat 1).sendFlit p.toNat 1
        ((r.2.2.calCount (r.2.2.idleClass p.toNat sub.toNat) p.toNat 1).port p.toNat).txSeq 31 []
    else (r.2.2.sendData p.toNat r.2.1 r.1).calCount 3 p.toNat 1 := by
  have hslot := upSlot_free (sub := sub.toNat) hal hpause hq
  rw [hnone, hr] at hslot
  exact hslot.trans (if_neg (Nat.not_le.2 hroom))

theorem flitSlot_empty (h : r.1 = []) :
    ∃ t, exec (.flitSlot p sub) s = .next t ∧ sentFlit r.2.2 t.toBox p.toNat 1 (r.2.2.port p.toNat).txSeq 31 [] := by
  obtain ⟨hsent, -, -⟩ := idle_sent r.2.2 (idleClass_lt r.2.2 p.toNat sub.toNat) p.isLt
  obtain ⟨t, hexec, hout, hports, -⟩ := slot_settled hrun hport hup hwin
    ((upSlot_new hal hpause hq hnone hroom hr).trans (if_pos h))
  exact ⟨t, hexec, sentFlit_later hsent hports hout⟩

theorem flitSlot_data (h : r.1 ≠ []) :
    ∃ t, exec (.flitSlot p sub) s = .next t
      ∧ sentFlit r.2.2 t.toBox p.toNat 0 (r.2.2.port p.toNat).txSeq r.2.1 (padTo 240 0 r.1)
      ∧ t.ctr (calPage (p.toNat / 256)) (256 * 3 + p.toNat % 256)
        = r.2.2.ctr (calPage (p.toNat / 256)) (256 * 3 + p.toNat % 256) + 1
      ∧ (t.port p.toNat).retry
        = (r.2.2.port p.toNat).retry ++ [⟨(r.2.2.port p.toNat).txSeq, r.2.1, padTo 240 0 r.1⟩]
      ∧ (t.port p.toNat).txSeq = ((r.2.2.port p.toNat).txSeq + 1) % 65536 := by
  obtain ⟨hsent, hretry, hseq, ps, o, heq⟩ := sendData_sent r.2.2 p.toNat r.2.1 r.1
  have hmode : (r.2.2.sendData p.toNat r.2.1 r.1).isPort p.toNat = true
      ∧ (r.2.2.sendData p.toNat r.2.1 r.1).ctrs = r.2.2.ctrs := by
    rw [heq]
    exact ⟨hr ▸ fillBody_modeKept p.isLt _ _ _ _ s.toBox hport, rfl⟩
  obtain ⟨hctr, ⟨_, _, _, hcount⟩, -⟩ := calCount_shows (r.2.2.sendData p.toNat r.2.1 r.1) (k := 3) (by decide) p.isLt
  have hafter : ((r.2.2.sendData p.toNat r.2.1 r.1).calCount 3 p.toNat 1).ports = (r.2.2.sendData p.toNat r.2.1 r.1).ports := by
    rw [hcount]
  obtain ⟨t, hexec, hout, hports, hctrs⟩ := slot_settled hrun hport hup hwin
    ((upSlot_new hal hpause hq hnone hroom hr).trans (if_neg h))
  have hread := port_of_ports (hports.trans hafter) p.toNat
  refine ⟨t, hexec, sentFlit_later hsent (hports.trans hafter) (emits_trans (calCount_emits _ _ _ _) hout), ?_,
    by rw [hread, hretry], by rw [hread, hseq]⟩
  rw [ctr_of_ctrs hctrs, hctr hmode.1, ctr_of_ctrs hmode.2]

end free

end obligation

/-- Settles O29: the branches of a slot in their order, each one flit and one count, with the frames that start on the way. -/
theorem flitSlotsSendInOrder : Obligations.FlitSlotsSendInOrder := by
  unfold Obligations.FlitSlotsSendInOrder
  intro s p sub hrun hport x r y counted
  refine ⟨⟨_, exec_flitSlot hrun⟩, ?_, ?_, ?_⟩
  · intro hdown htrain
    obtain ⟨ps, o, heq, hmem, hslot⟩ := trainFlit_shows s.toBox p.toNat
    have hcmd : s.toBox.flitSlot p.toNat sub.toNat = _ := heq ▸ show s.toBox.flitSlot p.toNat sub.toNat = s.toBox.trainFlit p.toNat by
      rw [Box.flitSlot, if_neg (by rw [hport]; decide), if_neg (by rw [hdown]; decide), if_pos htrain]
    exact ⟨_, next_onBox (exec_flitSlot hrun) hcmd, rfl, hmem, hslot⟩
  · intro hup hwin
    obtain ⟨hctr, ⟨rg, o, c, heq⟩, -⟩ := calCount_shows s.toBox (k := 7) (by decide) p.isLt
    have hcount := hctr hport
    have hcmd : s.toBox.flitSlot p.toNat sub.toNat = _ := heq ▸ show s.toBox.flitSlot p.toNat sub.toNat = s.toBox.calCount 7 p.toNat 1 by
      rw [Box.flitSlot, if_neg (by rw [hport]; decide), if_pos hup, if_pos hwin]
    rw [heq] at hcount
    exact ⟨_, next_onBox (exec_flitSlot hrun) hcmd, hcount, rfl⟩
  · intro hup hwin
    refine ⟨flitSlot_paused hrun hport hup hwin, fun hal hpause => ?_, fun hal hpause => ⟨flitSlot_ctl hrun hport hup hwin hal hpause,
      fun f hq hf => flitSlot_again hrun hport hup hwin hal hpause hq f hf,
      fun hq hnone hfull => flitSlot_full hrun hport hup hwin hal hpause hq hnone hfull,
      fun hq hnone hroom => ⟨flitSlot_empty hrun hport hup hwin hal hpause hq hnone hroom rfl,
        flitSlot_data hrun hport hup hwin hal hpause hq hnone hroom rfl⟩⟩⟩
    obtain ⟨t, hexec, hsent, -, -⟩ := flitSlot_idle hrun hport (idleClass_lt s.toBox p.toNat sub.toNat) hup hwin
      (upSlot_aligning (sub := sub.toNat) hal hpause)
    exact ⟨t, hexec, hsent⟩

end Sys2Proof.Proofs
end

section
/-!
# A port that goes down with a frame whose trace names no sampler

The loss of a traced frame's record is counted for the sampler that its trace names (R396). Where the trace names a number
beyond the sixteen samplers of a tent, the overflow bit of that counter is a bit of another word: here bit 7 of the status
of the very port that goes down.
-/

namespace Sys2Proof.Proofs

open Sys2Proof Sys2Proof.Machine Sys2Proof.Safety Sys2Proof.Laws

theorem rd_onBox (s : State) (f : Box → Box) (x : Fld) : (s.onBox f).rd x = (f s.toBox).rd x := rfl

/-- The counter of lost records, on the BRK page of tent 0, whose overflow bit is bit 7 of LNK_PORT_STATUS of port 256. -/
def strayCounter : Nat := 32 * 0x3CDBC1 + 7

/-- A frame queued for port 256 whose trace names that sampler. -/
def strayFrame : Desc :=
  { id := 0, frame := [], tent := 0, inPort := none, egress := 256, vc := 0, cls := 0, cells := [], ncells := 0,
    charge := .recall, pool := none, admitAt := 0, bank := 0, fence := false, alone := false, spilled := false, bad := none,
    corrupt := false, stamp := {},
    trace := some { followed := false, inPort := 0, by_ := some (strayCounter / 2), s0 := {}, stages := [] } }

/-- A running device whose port 256 is up and has been silent for 2,000 tk, with that frame queued, the counter at its largest
value and the fault queue full. -/
def strayTrace : State :=
  { State.reset with
      regs := [(LNK_PORT_STATUS_at 256, 1)]
      raw := 2000
      qlens := [(1, 1024)]
      ctrs := [(brkPage 0 * 4096 + strayCounter, 0xFFFFFFFFFFFFFFFF)]
      descs := [strayFrame] }

/-- The port is up and silent; the counter overflows as the frame is flushed, after the port's version has been cleared. -/
theorem strayTrace_shows : strayTrace.up 256 = true ∧ (strayTrace.port 256).lastGood + 1280 ≤ strayTrace.raw
    ∧ (strayTrace.toBox.silence 256).rd (LNK_PORT_STATUS_VER 256) = 2 := by decide +kernel

/-- Refutes O24: a frame queued for the port names in its trace a sampler that is none, and the overflow of that sampler's
counter sets a bit of VER of the port that has gone down. -/
theorem not_portsComeUpAndGoDown : ¬ Obligations.PortsComeUpAndGoDown := by
  unfold Obligations.PortsComeUpAndGoDown
  intro h
  obtain ⟨hup, hsilent, hafter⟩ := strayTrace_shows
  obtain ⟨hsilence, -⟩ := h.2 strayTrace 256 rfl hup
  obtain ⟨t, ht, ⟨-, -, -, hver, -⟩, -⟩ := hsilence hsilent rfl rfl rfl
  have hrun : t = strayTrace.onBox fun b => b.silence 256 :=
    Host.Outcome.next.inj (ht.symm.trans (actRun_run strayTrace (fun b => b.silence 256) rfl))
  have hshown : t.rd (LNK_PORT_STATUS_VER 256) = 2 := by
    rw [hrun]
    exact (rd_onBox _ _ _).trans hafter
  have hclear : t.rd (LNK_PORT_STATUS_VER 256) = 0 := hver
  rw [hshown] at hclear
  exact absurd hclear (by decide)

end Sys2Proof.Proofs
end

section
/-! # The same frame where a window ends and where a port is disabled (R131, R457) -/

namespace Sys2Proof.Proofs

open Sys2Proof Sys2Proof.Machine Sys2Proof.Safety Sys2Proof.Laws

/-- The device with that frame, its port waiting to be realigned after a bypass window. -/
def strayWindow : State := { strayTrace with ports := [(256, { darkTill := some 0, aligning := true })] }

theorem strayWindow_shows : (strayWindow.port 256).darkTill = some 0 ∧ (strayWindow.port 256).aligning = true ∧ strayWindow.up 256 = true
    ∧ (strayWindow.toBox.realignTimeout 256).rd (LNK_PORT_STATUS_VER 256) = 2 := by decide +kernel

/-- Refutes O31: the receiver goes down, and the flush of a frame whose trace names a sampler that is none sets a bit of VER of
the port again. -/
theorem not_bypassWindowsOpenAndClose : ¬ Obligations.BypassWindowsOpenAndClose := by
  unfold Obligations.BypassWindowsOpenAndClose
  intro h
  obtain ⟨-, -, -, htimeout⟩ := h strayWindow 256 rfl
  obtain ⟨hdark, hal, hup, hafter⟩ := strayWindow_shows
  obtain ⟨t, ht, ⟨-, -, -, hver, -⟩, -⟩ := htimeout 0 hup hdark (Nat.zero_le _) hal
  have hrun : t = strayWindow.onBox fun b => b.realignTimeout 256 :=
    Host.Outcome.next.inj (ht.symm.trans (actRun_run strayWindow (fun b => b.realignTimeout 256) rfl))
  have hclear : t.rd (LNK_PORT_STATUS_VER 256) = 0 := hver
  rw [hrun, rd_onBox, hafter] at hclear
  exact absurd hclear (by decide)

/-- The device with that frame, its port enabled and its page ready. -/
def strayEnabled : State :=
  { strayTrace with
      regs := [((PAGE_STATUS_READY (lnkPage 1)).addr, 1), (LNK_FP_MODE_at 64, 3), (LNK_PORT_CTRL_at 256, 1),
        (LNK_PORT_STATUS_at 256, 1)] }

theorem strayEnabled_shows : strayEnabled.is (PAGE_STATUS_READY (wordPage (LNK_PORT_CTRL_at 256))) = true ∧ strayEnabled.isPort 256 = true
    ∧ strayEnabled.is (LNK_PORT_CTRL_ENABLE 256) = true ∧ strayEnabled.up 256 = true
    ∧ (strayEnabled.toBox.portCtrl .firmware 256 0).rd (LNK_PORT_STATUS_VER 256) = 2 := by decide +kernel

/-- Refutes O25: a port that is up is disabled, and the flush of a frame whose trace names a sampler that is none sets a bit of
VER of the port. -/
theorem not_portControlsTakeEffect : ¬ Obligations.PortControlsTakeEffect := by
  unfold Obligations.PortControlsTakeEffect
  intro h
  obtain ⟨-, hports, -⟩ := h strayEnabled .firmware
  obtain ⟨hready, hport, hon, hup, hafter⟩ := strayEnabled_shows
  obtain ⟨-, -, hdisable, -⟩ := hports 256 0 ⟨rfl, rfl, hready⟩ hport (by decide)
  obtain ⟨t, ht, -, -, -, -, -, -, hver, -⟩ := hdisable hon hup
  have hrun : t = strayEnabled.onBox fun b => b.portCtrl .firmware 256 0 :=
    Host.Outcome.next.inj (ht.symm.trans (actReg_run strayEnabled (fun b => b.portCtrl .firmware 256 0) (LNK_PORT_CTRL_at 256) .firmware
      rfl rfl hready))
  have hclear : t.rd (LNK_PORT_STATUS_VER 256) = 0 := hver
  rw [hrun, rd_onBox, hafter] at hclear
  exact absurd hclear (by decide)

end Sys2Proof.Proofs
end

section
/-!
# A gate list's switch where the record of its port stands twice

Calliope's records are a finite map. In a map that holds a key twice, a record that is set to its default first takes every
entry of the key away, and one that is set at once replaces the first alone.
-/

namespace Sys2Proof.Proofs

open Sys2Proof Sys2Proof.Machine Sys2Proof.Safety Sys2Proof.Laws

/-- A running device at tick 100 whose port 0 has a switch due to a list of one entry of 16 tk; its record stands twice. -/
def twoCals : State :=
  { State.reset with
      regs := [(LNK_FP_MODE_at 0, 1), (CAL_GL_LEN_at 0 1, 1)]
      tabs := [(gateAt 0 1 0, 16)]
      raw := 100
      cals := [(0, { switchAt := some 0 }), (0, { since := 1 })] }

/-- What the switch leaves of the records. -/
def switchedCals : Sparse Cal := [(0, { entryAt := 96 })]

theorem twoCals_shows : twoCals.isPort 0 = true ∧ (twoCals.cal 0).switchAt = some 0 ∧ (twoCals.toBox.glSwitch 0).cals = switchedCals := by
  decide +kernel

/-- A record set at once leaves the other entry of its key, or takes both away. -/
theorem mapSet_twice_length (x y v : Cal) : (mapSet (fun _ => {}) [(0, x), (0, y)] 0 v).length ≠ 1 := by
  rw [mapSet, if_neg (Nat.lt_irrefl 0), if_pos rfl]
  split <;> simp

theorem twoCals_set (v : Cal) : (twoCals.setCal 0 v).cals ≠ switchedCals := fun h =>
  mapSet_twice_length { switchAt := some 0 } { since := 1 } v (congrArg List.length h)

/-- Refutes O30: at the switch of a list whose port's record stands twice, the record goes through its default on the way, which
takes the second entry away. -/
theorem not_gateListsSwitchAtTheirInstant : ¬ Obligations.GateListsSwitchAtTheirInstant := by
  unfold Obligations.GateListsSwitchAtTheirInstant
  intro h
  obtain ⟨hport, hdue, hswitched⟩ := twoCals_shows
  obtain ⟨-, -, -, hrun⟩ := h twoCals .firmware 0 hport
  obtain ⟨hswitch, -, -⟩ := hrun rfl
  obtain ⟨t, ht, -, -, -, -, -, hcals, -⟩ := hswitch 0 hdue (Nat.zero_le _)
  have ht' : t = twoCals.onBox fun b => b.glSwitch 0 :=
    Host.Outcome.next.inj (ht.symm.trans (actRun_run twoCals (fun b => b.glSwitch 0) rfl))
  have hafter : t.cals = switchedCals := by
    rw [ht']
    exact hswitched
  exact twoCals_set _ (hcals.symm.trans hafter)

end Sys2Proof.Proofs
end

section
/-! # A discarded contribution whose trace names no sampler (R158, R396) -/

namespace Sys2Proof.Proofs

open Sys2Proof Sys2Proof.Machine Sys2Proof.Safety Sys2Proof.Laws

/-- The index of a counter on the BRK page of tent 0, far beyond the page, that is counter 1 of the CAR page of tent 1. -/
def strayLost : Nat := (carTentPage 1 - brkPage 0) * 4096 + 1

/-- A contribution to a group that is none, whose trace names the sampler of that counter. -/
def strayPart : Arrived :=
  { frame := mkFrame [frWord0 0 1 3 0 0] [] 0, stamp := {}, cells := [], gen := 0, dest := none,
    trace := some { followed := false, inPort := 0, by_ := some (strayLost / 2), s0 := {}, stages := [] } }

/-- A running device with that contribution waiting at port 257. -/
def strayContribution : State :=
  { State.reset with
      regs := [(LNK_FP_MODE_at 64, 3)]
      ports := [(257, { steer := [strayPart] })] }

/-- The contribution waits and is refused; its discard and the loss of the trace's record count in the same counter. -/
theorem strayContribution_shows : (strayContribution.port 257).steer = [strayPart] ∧ frKind strayPart.frame = 1
    ∧ strayContribution.isPort 257 = true ∧ strayContribution.steerCheck 257 strayPart.frame = .error 0
    ∧ (strayContribution.toBox.steer 257).ctr (carTentPage 1) 1 = 2 ∧ strayContribution.ctr (carTentPage 1) 1 = 0 := by decide +kernel

/-- Refutes O37: a contribution is discarded whose trace names a sampler that is none; the counter of that sampler's lost records
is the port's own counter of discards, which rises by 2. -/
theorem not_contributionsReachTheirSlot : ¬ Obligations.ContributionsReachTheirSlot := by
  unfold Obligations.ContributionsReachTheirSlot
  intro h
  obtain ⟨hwaits, hkind, hport, hrefused, hafter, hbefore⟩ := strayContribution_shows
  obtain ⟨hsteer, -⟩ := h strayContribution rfl
  have hitem : (strayContribution.port 257).steer[0]? = some strayPart := by rw [hwaits]; rfl
  obtain ⟨hdiscard, -⟩ := hsteer 257 0 strayPart hitem hkind rfl fun _ _ hlt => absurd hlt (Nat.not_lt_zero _)
  obtain ⟨t, ht, -, -, hctr⟩ := hdiscard 0 hrefused hport
  have hrun : t = strayContribution.onBox fun b => b.steer 257 :=
    Host.Outcome.next.inj (ht.symm.trans (actRun_run strayContribution (fun b => b.steer 257) rfl))
  have hcount : t.ctr (carTentPage 1) 1 = strayContribution.ctr (carTentPage 1) 1 + 1 := hctr
  have hshown : t.ctr (carTentPage 1) 1 = 2 := by
    rw [hrun]
    exact hafter
  rw [hshown, hbefore] at hcount
  exact absurd hcount (by decide)

end Sys2Proof.Proofs
end

section
/-! # The same frame where a bypass window released a microring (R301, R322, R396) -/

namespace Sys2Proof.Proofs

open Sys2Proof Sys2Proof.Machine Sys2Proof.Safety Sys2Proof.Laws

theorem ctr_onBox (s : State) (f : Box → Box) (p : Page) (i : Nat) : (s.onBox f).ctr p i = (f s.toBox).ctr p i := rfl

/-- The index of a counter on the BRK page of tent 0, far beyond the page, that is SPT_WRONG_LOCK of engine 3. -/
def strayLock : Nat := (sptPage 1 - brkPage 0) * 4096 + 5

/-- A frame queued for port 384, of a fibre pair of engine 3, whose trace names the sampler of that counter. -/
def strayLockFrame : Desc :=
  { strayFrame with
      egress := 384
      trace := some { followed := false, inPort := 0, by_ := some (strayLock / 2), s0 := {}, stages := [] } }

/-- A running device with that frame, its port up, and a verified receive microring of the pair that a bypass window has released. -/
def strayRing : State :=
  { State.reset with
      regs := [(LNK_FP_MODE_at 96, 1), ((ringState 3 160).addr, 3 * 2 ^ (ringState 3 160).lo), (LNK_PORT_STATUS_at 384, 1)]
      qlens := [(1, 1024)]
      rings := [(320 * 3 + 160, { byp := true })]
      descs := [strayLockFrame] }

/-- The failed verification and the loss of the trace's record count in the same counter. -/
theorem strayRing_shows : strayRing.rd (ringState 3 160) = 3 ∧ strayRing.ctr (sptPage 1) 5 = 0
    ∧ (strayRing.toBox.ringJudge 3 160 3 0 [] 0).ctr (sptPage 1) 5 = 2 := by decide +kernel

/-- Refutes O52: the port of a microring that a bypass window has released goes down as its verification fails, with a frame whose
trace names a sampler that is none; the counter of that sampler's lost records is SPT_WRONG_LOCK, which rises by 2. -/
theorem not_ringsLockAndHeatersFollow : ¬ Obligations.RingsLockAndHeatersFollow := by
  unfold Obligations.RingsLockAndHeatersFollow
  intro h
  obtain ⟨hstate, hbefore, hafter⟩ := strayRing_shows
  obtain ⟨hrings, -⟩ := h strayRing 3 rfl
  obtain ⟨hjudge, -⟩ := hrings 160 0 [] 0
  obtain ⟨-, -, hfails⟩ := hjudge (.ringReverify 3 160 0 [] 0) 3 (by simp)
  obtain ⟨t, ht, -, hctr⟩ := hfails hstate (.inl rfl) rfl
  have hrun : t = strayRing.onBox fun b => b.ringJudge 3 160 3 0 [] 0 :=
    Host.Outcome.next.inj (ht.symm.trans (actRun_run strayRing (fun b => b.ringJudge 3 160 3 0 [] 0) rfl))
  have hcount : t.ctr (sptPage 1) 5 = strayRing.ctr (sptPage 1) 5 + 1 := hctr
  have hshown : t.ctr (sptPage 1) 5 = 2 := by
    rw [hrun]
    exact (ctr_onBox _ _ _ _).trans hafter
  rw [hshown, hbefore] at hcount
  exact absurd hcount (by decide)

end Sys2Proof.Proofs
end

section
/-! # I3C, MCTP, PLDM and SPDM (14_host_mgmt.md, 15_boot_security.md) -/

namespace Sys2Proof.Proofs

open Sys2Proof Sys2Proof.Machine Sys2Proof.Safety Sys2Proof.Laws

/-! ### The sensors -/

/-- At a whole millisecond the package power and the sixteen memory devices are read afresh. -/
theorem aliveTick_senses (b : Box) (h : b.raw % 640000 = 0) :
    b.aliveTick.rd PWR_PKG_W = (Config.freeBits b.freeCtr).toNat % 65536
      ∧ ∀ d, d < 16 → b.aliveTick.memTemps.getD d 0 = (Config.freeBits (b.freeCtr + (d + 1))).toNat % 65536 := by
  have hsense : b.aliveTick = ({ b with doeBusy := [] } : Box).sense := if_pos h
  rw [hsense]
  refine ⟨?_, fun d hd => ?_⟩
  · exact rd_wr_lt (f := PWR_PKG_W) _ (by decide) (Nat.mod_lt _ (by decide))
  · show ((List.range 16).map fun d => (Config.freeBits (b.freeCtr + (d + 1))).toNat % 65536).getD d 0 = _
    simp [List.getD, hd]

/-! ### Commands of the sideband port -/

section
variable {s : State} (hrun : s.phase = .run)
include hrun

theorem act_onBox {f : Box → Box} {b : Box} (hf : f s.toBox = b) : s.act f = .next { s with toBox := b.anchored s.toBox } :=
  (act_run s f hrun).trans (by rw [State.onBox, hf])

/-- Without its address, or without firmware, the port refuses a transfer. -/
theorem actMctp_notReady (h : s.i3cReady = false) (f : Box → Box) :
    s.actMctp f = .next { s with outbox := .reply .i3cNack :: s.outbox } :=
  act_onBox hrun (f := fun b => if b.i3cReady then f b else b.answer .i3cNack) (if_neg (ne_true_of_eq_false h))

theorem actMctp_ready (h : s.i3cReady = true) {f : Box → Box} {b : Box} (hf : f s.toBox = b) :
    s.actMctp f = .next { s with toBox := b.anchored s.toBox } :=
  act_onBox hrun (f := fun b => if b.i3cReady then f b else b.answer .i3cNack) ((if_pos h).trans hf)

theorem actSpdm_notReady (h : s.i3cReady = false) (e : BitVec 8) (f : Box → Box) :
    s.actSpdm (.mctp e) f = .next { s with outbox := .reply .i3cNack :: s.outbox } :=
  act_onBox hrun (f := fun b => b.spdmTake (.mctp e) f) (if_neg (ne_true_of_eq_false h))

end

/-- A message for another endpoint is not taken. -/
theorem mctp_otherEid {b : Box} {eid : Nat} (h0 : eid ≠ 0) (h : eid ≠ b.eid) (ty : Nat) (set : Option Nat) :
    b.mctp ty eid set = b := if_pos ⟨h0, h⟩

/-- The four kinds of message for this endpoint. -/
theorem mctp_here {b : Box} {eid : Nat} (h : eid = 0 ∨ eid = b.eid) :
    (∀ e, b.mctp 0 eid (some e) = if e = 0 ∨ e = 255 then b.answer .mctpError else Box.answer { b with eid := e } (.mctpEid e))
      ∧ b.mctp 0 eid none = (b.answer (.mctpEid b.eid)).answer (.mctpTypes [0, 1, 5])
      ∧ (∀ set, b.mctp 1 eid set = b)
      ∧ (∀ set, b.mctp 5 eid set = b.answer (.spdmError "UnsupportedRequest"))
      ∧ ∀ ty set, ty ∉ [0, 1, 5] → b.mctp ty eid set = b.count mgtPage 5 := by
  have hhere : ¬ (eid ≠ 0 ∧ eid ≠ b.eid) := fun hne => h.elim hne.1 hne.2
  refine ⟨fun _ => if_neg hhere, if_neg hhere, fun _ => if_neg hhere, fun _ => if_neg hhere, fun ty set hty => ?_⟩
  obtain ⟨h0, h1, h5⟩ : ty ≠ 0 ∧ ty ≠ 1 ∧ ty ≠ 5 := by simpa using hty
  exact (if_neg hhere).trans ((if_neg h0).trans ((if_neg h5).trans (if_neg h1)))

/-! ### SPDM requests in and out of their phase -/

theorem spdmIn_of_otherPhase {b : Box} {via : SpdmVia} (h : (b.spdm via).eid = viaEid via) {phase : Nat}
    (hp : (b.spdm via).phase ≠ phase) (f : Box → Box) : b.spdmIn via phase f = b.answer (.spdmError "UnexpectedRequest") :=
  (if_neg (not_not_intro h)).trans (if_pos hp)

theorem spdmIn_of_phase {b : Box} {via : SpdmVia} (h : (b.spdm via).eid = viaEid via) {phase : Nat}
    (hp : (b.spdm via).phase = phase) (f : Box → Box) : b.spdmIn via phase f = f b :=
  (if_neg (not_not_intro h)).trans (if_neg (not_not_intro hp))

theorem spdmSigned_busy {b : Box} (h : 100 ≤ b.recentSigs.length) (f : Box → List Byte → Box) :
    b.spdmSigned f = b.answer (.spdmError "Busy") := if_pos h

/-- The box once a signature has been made: its random bytes are taken and its instant is kept. -/
def signing (b : Box) : Box := { b with freeCtr := b.freeCtr + 6, spdmSigs := b.raw :: b.recentSigs }

theorem spdmSigned_signs {b : Box} (h : b.recentSigs.length < 100) (f : Box → List Byte → Box) :
    b.spdmSigned f = f (signing b) (ecdsaSign b.aliasKey (b.freeBytes 6).1) := if_neg (Nat.not_le.mpr h)

section
variable {s : State} {via : SpdmVia} (hrun : s.phase = .run) (h : spdmHere s.toBox via)
include hrun h

/-- A request that is answered and changes nothing else. -/
theorem actSpdm_said {f : Box → Box} {r : Reply} (hf : f (spdmTaken s via).toBox = (spdmTaken s via).toBox.answer r) :
    s.actSpdm via f = .next { spdmTaken s via with outbox := .reply r :: s.outbox } := by
  rw [actSpdm_of_spdmHere hrun h, hf]
  cases via <;> rfl

/-- A request that moves its connection. -/
theorem actSpdm_moved {f : Box → Box} {k : Nat} {r : Reply}
    (hf : f (spdmTaken s via).toBox = ((spdmTaken s via).setSpdm via ⟨k, viaEid via⟩).answer r) :
    s.actSpdm via f = .next { spdmTaken s via with
      toBox := { (spdmTaken s via).setSpdm via ⟨k, viaEid via⟩ with outbox := .reply r :: s.outbox } } := by
  rw [actSpdm_of_spdmHere hrun h, hf]
  cases via <;> rfl

theorem actSpdm_otherRequester (he : (s.spdm via).eid ≠ viaEid via) (phase : Nat) (f : Box → Box) :
    (s.actSpdm via fun b => b.spdmIn via phase f)
      = .next { spdmTaken s via with outbox := .reply (.spdmError "RequestResynch") :: s.outbox } :=
  actSpdm_said hrun h (f := fun b => b.spdmIn via phase f)
    (spdmIn_of_otherRequester (by rwa [spdmTaken_spdm]) phase f)

theorem actSpdm_otherPhase (he : (s.spdm via).eid = viaEid via) {phase : Nat} (hp : (s.spdm via).phase ≠ phase) (f : Box → Box) :
    (s.actSpdm via fun b => b.spdmIn via phase f)
      = .next { spdmTaken s via with outbox := .reply (.spdmError "UnexpectedRequest") :: s.outbox } :=
  actSpdm_said hrun h (f := fun b => b.spdmIn via phase f)
    (spdmIn_of_otherPhase (by rwa [spdmTaken_spdm]) (by rwa [spdmTaken_spdm]) f)

/-- In its phase a request acts as it would alone. -/
theorem actSpdm_inPhase (he : (s.spdm via).eid = viaEid via) {phase : Nat} (hp : (s.spdm via).phase = phase) (f : Box → Box) :
    (s.actSpdm via fun b => b.spdmIn via phase f) = s.actSpdm via f := by
  rw [actSpdm_of_spdmHere hrun h, actSpdm_of_spdmHere hrun h,
    spdmIn_of_phase (by rwa [spdmTaken_spdm]) (by rwa [spdmTaken_spdm]) f]

end

/-- What a signature and a certificate rest on is not changed by a request that has been taken. -/
theorem spdmTaken_identity (s : State) (via : SpdmVia) :
    (spdmTaken s via).recentSigs = s.recentSigs ∧ (spdmTaken s via).aliasKey = s.aliasKey
      ∧ (spdmTaken s via).certSlot = s.certSlot ∧ (spdmTaken s via).allMeasurements = s.allMeasurements
      ∧ ((spdmTaken s via).freeBytes 6).1 = (s.freeBytes 6).1
      ∧ ∀ i, (spdmTaken s via).measurementsAt i = s.measurementsAt i := by
  cases via <;> exact ⟨rfl, rfl, rfl, rfl, rfl, fun _ => rfl⟩

/-- A signed answer, while fewer than 100 signatures have been made in the last second. -/
theorem actSpdm_signed {s : State} {via : SpdmVia} (hrun : s.phase = .run) (h : spdmHere s.toBox via) (hfew : s.recentSigs.length < 100)
    {f : Box → Box} {g : Box → List Byte → Box} {r : List Byte → Reply}
    (hf : f (spdmTaken s via).toBox = (spdmTaken s via).toBox.spdmSigned g)
    (hg : ∀ sig, g (signing (spdmTaken s via).toBox) sig = (signing (spdmTaken s via).toBox).answer (r sig)) :
    s.actSpdm via f = .next { spdmTaken s via with
      outbox := .reply (r (ecdsaSign s.aliasKey (s.freeBytes 6).1)) :: s.outbox
      freeCtr := s.freeCtr + 6
      spdmSigs := s.raw :: s.recentSigs } := by
  obtain ⟨hrecent, hkey, -, -, hbytes, -⟩ := spdmTaken_identity s via
  have hsigned := spdmSigned_signs (b := (spdmTaken s via).toBox) (by rwa [hrecent]) g
  rw [hg, hkey, hbytes] at hsigned
  rw [actSpdm_of_spdmHere hrun h, hf, hsigned]
  cases via <;> rfl

/-- A request to sign, once 100 signatures have been made in the last second. -/
theorem actSpdm_busy {s : State} {via : SpdmVia} (hrun : s.phase = .run) (h : spdmHere s.toBox via) (hmany : 100 ≤ s.recentSigs.length)
    {f : Box → Box} {g : Box → List Byte → Box} (hf : f (spdmTaken s via).toBox = (spdmTaken s via).toBox.spdmSigned g) :
    s.actSpdm via f = .next { spdmTaken s via with outbox := .reply (.spdmError "Busy") :: s.outbox } :=
  actSpdm_said hrun h (hf.trans (spdmSigned_busy (by rwa [(spdmTaken_identity s via).1]) g))

/-! ### The statement -/

/-- Settles O60: ENTDAA, control messages, PLDM and SPDM each by the one answer that its branch gives. -/
theorem sidebandAndAttestationAnswer : Obligations.SidebandAndAttestationAnswer := by
  unfold Obligations.SidebandAndAttestationAnswer
  refine ⟨fun b => ?_, fun s hrun => ?_⟩
  · split
    case isTrue h => exact aliveTick_senses b h
    case isFalse h => exact if_neg h
  have hact {f : Box → Box} {b : Box} (hf : f s.toBox = b) : s.act f = .next { s with toBox := b.anchored s.toBox } :=
    act_onBox hrun hf
  refine ⟨fun a => ⟨fun hnone => ?_, fun hsome => ?_, hact (f := fun b => b.i3cCcc (.other a)) rfl⟩,
    hact (f := fun b => b.i3cCcc .rstdaa) rfl, fun hnone => ?_, fun hsome => ?_, fun hoff => ?_, fun hon => ?_, fun via hhere => ?_⟩
  · exact hact (f := fun b => b.i3cCcc (.entdaa a)) (if_neg (by simp [hnone]))
  · exact hact (f := fun b => b.i3cCcc (.entdaa a)) (if_pos hsome)
  · exact hact (f := Box.i3cStatus) (b := s.toBox.answer .i3cNack) (by rw [Box.i3cStatus, hnone])
  · obtain ⟨a, ha⟩ := Option.isSome_iff_exists.mp hsome
    refine hact (f := Box.i3cStatus) (b := s.toBox.takeFree.2.answer
      (.i3cStatus (s.bootState * 256 + (Config.freeBits s.freeCtr).toNat % 256))) ?_
    rw [Box.i3cStatus, ha]
    rfl
  · intro ty eid e set x n
    have hmctp (f : Box → Box) := actMctp_notReady hrun hoff f
    have hspdm (f : Box → Box) := actSpdm_notReady hrun hoff e f
    simp only [List.forall_mem_cons, List.not_mem_nil, IsEmpty.forall_iff, implies_true, and_true]
    exact ⟨hmctp _, hmctp _, hmctp _, hmctp _, hmctp _, hmctp _, hspdm _, hspdm _, hspdm _, hspdm _, hspdm _, hspdm _, hspdm _⟩
  · have hmctp {f : Box → Box} {b : Box} (hf : f s.toBox = b) := actMctp_ready hrun hon hf
    refine ⟨fun ty eid e set => ⟨fun h0 hne => ?_, fun hhere => ?_⟩, hmctp (f := fun b => b.answer _) rfl,
      hmctp (f := fun b => b.answer _) rfl, fun ty => ⟨hmctp (f := fun b => b.answer _) rfl, hmctp (f := fun b => b.answer _) rfl⟩,
      fun d => hmctp (f := fun b => b.pldmSensor (.junction d)) rfl, fun d => hmctp (f := fun b => b.pldmSensor (.memTemp d)) rfl,
      hmctp (f := fun b => b.pldmSensor .packagePower) rfl, hmctp (f := fun b => b.pldmSensor .coreRail) rfl,
      hmctp (f := fun b => b.pldmSensor .deviceState) rfl⟩
    · have hne0 : eid.toNat ≠ 0 := fun hz => h0 (BitVec.eq_of_toNat_eq hz)
      exact hmctp (f := fun b => b.mctp ty.toNat eid.toNat (set.map BitVec.toNat)) (mctp_otherEid hne0 hne _ _)
    · have hto : eid.toNat = 0 ∨ eid.toNat = s.toBox.eid := hhere.imp_left fun hz => by rw [hz]; rfl
      obtain ⟨hset, hget, hspdm, hother, hcount⟩ := mctp_here hto
      have hexec {b : Box} {st : Option (BitVec 8)} (hf : s.toBox.mctp ty.toNat eid.toNat (st.map BitVec.toNat) = b) :=
        hmctp (f := fun b => b.mctp ty.toNat eid.toNat (st.map BitVec.toNat)) hf
      refine ⟨fun hty h0 h255 => ?_, fun hty hres => ?_, fun hty => ?_, fun hty => ?_, fun hty => ?_, fun hty => ?_⟩
      · subst hty
        exact hexec (st := some e) ((hset _).trans (if_neg (not_or.mpr ⟨h0, h255⟩)))
      · subst hty
        exact hexec (st := some e) ((hset _).trans (if_pos hres))
      · subst hty
        exact hexec (st := none) hget
      · subst hty
        exact hexec (hspdm _)
      · subst hty
        exact hexec (hother _)
      · obtain ⟨hctr, r, o, c, hbox⟩ := count_shows s.toBox mgtPage 5
        rw [hbox] at hctr
        exact ⟨_, hexec ((hcount _ _ hty).trans hbox), hctr, rfl⟩
  · obtain ⟨-, -, hcert, hmeas, -, hmeasAt⟩ := spdmTaken_identity s via
    intro c u said moved signed
    refine ⟨actSpdm_moved hrun hhere rfl, fun hother => ?_, fun k i hi he hp => ?_, fun he => ⟨fun hp => ?_, fun hp => ?_, fun hp => ?_⟩⟩
    · have hsaid := actSpdm_otherRequester hrun hhere hother
      simp only [List.forall_mem_cons, List.not_mem_nil, IsEmpty.forall_iff, implies_true, and_true]
      exact ⟨hsaid 1 _, hsaid 2 _, hsaid 3 _, hsaid 3 _, hsaid 3 _, hsaid 3 _⟩
    · have hsaid := actSpdm_otherPhase hrun hhere he hp
      simp only [List.mem_cons, Prod.mk.injEq, List.not_mem_nil, or_false] at hi
      obtain ⟨rfl, rfl⟩ | ⟨rfl, rfl⟩ | ⟨rfl, rfl⟩ | ⟨rfl, rfl⟩ | ⟨rfl, rfl⟩ | ⟨rfl, rfl⟩ := hi <;> exact hsaid _
    · exact (actSpdm_inPhase hrun hhere he hp _).trans (actSpdm_moved hrun hhere rfl)
    · exact (actSpdm_inPhase hrun hhere he hp _).trans (actSpdm_moved hrun hhere rfl)
    · have hin (f : Box → Box) := actSpdm_inPhase hrun hhere he hp f
      refine ⟨(hin _).trans (actSpdm_said hrun hhere (by rw [hcert])), fun offset len => ⟨fun hle => ?_, fun hlt => ?_⟩,
        fun nonce hfew => ?_, fun nonce hmany => ?_, fun index nonce => ⟨fun l hl => ⟨fun hfew => ?_, fun hmany => ?_⟩, fun hnone => ?_⟩⟩
      · refine (hin _).trans (actSpdm_said hrun hhere ?_)
        rw [Box.spdmCert, hcert, if_neg (Nat.not_lt.mpr hle)]
        simp only [List.length_take, List.length_drop]
      · refine (hin _).trans (actSpdm_said hrun hhere ?_)
        rw [Box.spdmCert, hcert, if_pos hlt]
      · refine (hin _).trans (actSpdm_signed hrun hhere hfew rfl fun sig => ?_)
        show Box.answer _ (.spdmChallenge (sha384 (spdmTaken s via).certSlot)
          (sha384 ((spdmTaken s via).allMeasurements.flatMap Meas.value)) nonce _) = _
        rw [hcert, hmeas]
      · exact (hin _).trans (actSpdm_busy hrun hhere hmany rfl)
      · refine (hin _).trans (actSpdm_signed hrun hhere hfew (g := fun y sig => y.answer (.spdmMeasurements 7 l nonce sig)) ?_ fun _ => rfl)
        rw [Box.spdmMeasure, hmeasAt, hl]
      · refine (hin _).trans (actSpdm_busy hrun hhere hmany (g := fun y sig => y.answer (.spdmMeasurements 7 l nonce sig)) ?_)
        rw [Box.spdmMeasure, hmeasAt, hl]
      · refine (hin _).trans (actSpdm_said hrun hhere ?_)
        rw [Box.spdmMeasure, hmeasAt, hnone]

end Sys2Proof.Proofs
end

section
/-! # BMT and management Ethernet (14_host_mgmt.md) -/

namespace Sys2Proof.Proofs

open Sys2Proof Sys2Proof.Machine Sys2Proof.Safety Sys2Proof.Laws

/-! ### An answer -/

/-- What an answer of BMT may change: Ethernet's answers leave, VC6's frames are staged. -/
def bmtSent (s t : Box) : Prop := ∃ o n tn st d, t =
  { s with outbox := o, freeCtr := n, tents := tn, staging := st, descId := d }

theorem lookup_collector (s : Box) (c : Option (BmtPath × BitVec 48)) (t pipe b : Nat) (f : Frame) :
    Box.lookup { s with collector := c } t pipe b f = ((s.lookup t pipe b f).1, { (s.lookup t pipe b f).2 with collector := c }) := by
  have hself : Box.rd { s with collector := c } (FWD_SELF_ADDR_ADDR 0) = s.rd (FWD_SELF_ADDR_ADDR 0) := rfl
  have hroute (d : Nat) : Box.routeBundle { s with collector := c } b d = s.routeBundle b d := rfl
  have hspray (k ptr v : Nat) : Box.sprayMember { s with collector := c } t b k ptr v = s.sprayMember t b k ptr v := rfl
  have hpin (k : Nat) : Box.liveFrom { s with collector := c } b k (Box.pin { s with collector := c } b k (Box.hashBucket { s with collector := c } f))
      = s.liveFrom b k (s.pin b k (s.hashBucket f)) := rfl
  have htent : Box.tent { s with collector := c } t = s.tent t := rfl
  unfold Box.lookup
  simp only [hself, hroute, hspray, hpin, htent]
  split
  · rfl
  · split
    · rfl
    · split <;> split <;> rfl

theorem lookup_bmtSent (s : Box) (t pipe b : Nat) (f : Frame) : ∃ tn, (s.lookup t pipe b f).2 = { s with tents := tn } := by
  unfold Box.lookup
  split
  · exact ⟨_, rfl⟩
  split
  · exact ⟨_, rfl⟩
  split
  · dsimp only
    split <;> exact ⟨_, rfl⟩
  · split <;> exact ⟨_, rfl⟩

/-- The frame that carries a message over VC6. -/
def vc6Frame (s : Box) (dst : Nat) (m : List Byte) : Frame :=
  let r (i : Nat) : Nat := (Config.freeBits (s.freeCtr + i)).toNat
  let own := (List.range 8).map fun i => r (1 + i / 2) / 2 ^ (32 * (i % 2)) % 2 ^ 32
  mkFrame ([frWord0 0 0 6 0 ((padPayload m).length / 64), dst, s.rd (FWD_SELF_ADDR_ADDR 0), 0] ++ own ++ [0, 0, 0, 0]) (padPayload m) (r 0)

/-- A frame whose lookup names a port is staged there; another is not sent. -/
def stageRouted (l : Route × Box) (bank : Nat) (f : Frame) : Box :=
  match l.1 with
  | .out q => l.2.stageOwn q bank f
  | _ => l.2

theorem vc6Send_eq (s : Box) (dst : Nat) (m : List Byte) : s.vc6Send dst m
    = stageRouted (Box.lookup { s with freeCtr := s.freeCtr + 5 } 0 9 (s.tent 0).bank (vc6Frame s dst m)) (s.tent 0).bank
        (vc6Frame s dst m) := by
  unfold Box.vc6Send stageRouted vc6Frame
  dsimp only
  generalize Box.lookup _ _ _ _ _ = l
  obtain ⟨route, b⟩ := l
  cases route <;> rfl

theorem vc6Send_bmtSent (s : Box) (dst : Nat) (m : List Byte) : bmtSent s (s.vc6Send dst m) := by
  rw [vc6Send_eq]
  generalize hl : Box.lookup _ _ _ _ _ = l
  obtain ⟨tn, htn⟩ : ∃ tn, l.2 = { s with freeCtr := s.freeCtr + 5, tents := tn } := hl ▸ lookup_bmtSent _ _ _ _ _
  obtain ⟨route, b⟩ := l
  obtain rfl : b = _ := htn
  cases route <;> exact ⟨_, _, _, _, _, rfl⟩

theorem bmtAnswer_bmtSent (s : Box) (path : BmtPath) (dst op seq count : Nat) (data : List Word) :
    bmtSent s (s.bmtAnswer path dst op seq count data) := by
  cases path with
  | ethernet => exact ⟨_, _, _, _, _, rfl⟩
  | vc6 =>
    obtain ⟨o, n, tn, st, d, h⟩ := vc6Send_bmtSent s.takeFree.2 dst (bmtMessage op count seq (Config.freeBits s.takeFree.1).toNat
      (data.flatMap fun w => bytesBE 4 w.toNat))
    exact ⟨o, n, tn, st, d, h⟩

theorem stageRouted_collector (route : Route) (b : Box) (c : Option (BmtPath × BitVec 48)) (bank : Nat) (f : Frame) :
    stageRouted (route, { b with collector := c }) bank f = { stageRouted (route, b) bank f with collector := c } := by
  cases route <;> rfl

theorem vc6Send_collector (s : Box) (c : Option (BmtPath × BitVec 48)) (dst : Nat) (m : List Byte) :
    Box.vc6Send { s with collector := c } dst m = { s.vc6Send dst m with collector := c } := by
  have hframe : vc6Frame { s with collector := c } dst m = vc6Frame s dst m := rfl
  have htent : Box.tent { s with collector := c } 0 = s.tent 0 := rfl
  rw [vc6Send_eq, vc6Send_eq, hframe, htent]
  generalize vc6Frame s dst m = f
  generalize (s.tent 0).bank = bank
  exact (congrArg (stageRouted · bank f) (lookup_collector { s with freeCtr := s.freeCtr + 5 } c 0 9 bank f)).trans
    (stageRouted_collector _ _ c bank f)

/-- An answer does not look at the collector. -/
theorem bmtAnswer_collector (s : Box) (c : Option (BmtPath × BitVec 48)) (path : BmtPath) (dst op seq count : Nat) (data : List Word) :
    Box.bmtAnswer { s with collector := c } path dst op seq count data
      = { s.bmtAnswer path dst op seq count data with collector := c } := by
  cases path with
  | ethernet => rfl
  | vc6 => exact vc6Send_collector { s with freeCtr := s.freeCtr + 1 } c dst _

/-! ### The words that a READ answers -/

/-- A read leaves tables and memory. -/
def keepsTables (s t : Box) : Prop := t.tabs = s.tabs ∧ t.mem = s.mem

theorem keepsTables_of_onlyRegsCtrs {s t : Box} (h : onlyRegsCtrs s t) : keepsTables s t := by
  obtain ⟨_, _, _, rfl⟩ := h
  exact ⟨rfl, rfl⟩

theorem unmapped_keepsTables (s : Box) (a : Nat) : keepsTables s (s.unmapped a) := by
  obtain ⟨htabs, hmem⟩ := keepsTables_of_onlyRegsCtrs (bump_onlyRegsCtrs s cxlPage 0 1)
  obtain ⟨hrtabs, hrmem⟩ := keepsTables_of_onlyRegsCtrs (raiseInt_onlyRegs ((s.count cxlPage 0).wr CXL_UNMAPPED_ADDR_ADDR a) cxlPage 1).toCtrs
  exact ⟨hrtabs.trans htabs, hrmem.trans hmem⟩

theorem regView_keepsTables (s : Box) (r : RegAt) (a : Nat) : keepsTables s (s.regView r a).2 := by
  unfold Box.regView Box.smpqWord
  dsimp only
  split
  any_goals exact ⟨rfl, rfl⟩
  split <;> exact ⟨rfl, rfl⟩

theorem placeRead_keepsTables (s : Box) (pl : Place) : keepsTables s (s.placeRead pl).2 := by
  unfold Box.placeRead
  split
  case h_1 => split <;> exact ⟨rfl, rfl⟩
  case h_5 a =>
    split
    · exact ⟨rfl, rfl⟩
    · exact regView_keepsTables ..
  all_goals exact ⟨rfl, rfl⟩

theorem readWord_keepsTables (s : Box) (a : Nat) : keepsTables s (s.readWord a).2 := by
  unfold Box.readWord
  split
  case h_1 => exact unmapped_keepsTables s a
  case h_4 =>
    split
    · exact ⟨rfl, rfl⟩
    · exact placeRead_keepsTables s _
  all_goals exact ⟨rfl, rfl⟩

theorem bar2Read_keepsTables (s : Box) (a : Nat) : keepsTables s (s.bar2Read a).2 := by
  unfold Box.bar2Read
  split <;> exact ⟨rfl, rfl⟩

/-- A READ answers one word per place, and its reads leave tables and memory. -/
theorem bmtWords_shows (space n : Nat) : ∀ (s : Box) (a : Nat),
    (s.bmtWords space a n).1.length = n ∧ keepsTables s (s.bmtWords space a n).2 := by
  induction n with
  | zero => exact fun s a => ⟨rfl, rfl, rfl⟩
  | succ n ih =>
    intro s a
    have hread : keepsTables s (if space = 0 then s.readWord a else s.bar2Read a).2 := by
      split
      · exact readWord_keepsTables s a
      · exact bar2Read_keepsTables s a
    obtain ⟨hlen, htabs, hmem⟩ := ih (if space = 0 then s.readWord a else s.bar2Read a).2 (a + 4)
    exact ⟨congrArg (· + 1) hlen, htabs.trans hread.1, hmem.trans hread.2⟩

/-! ### A request that is served -/

theorem bmtRated_within {b : Box} {m : Nat} (hm : (if b.bmtSecond.1 = b.raw / 640000000 then b.bmtSecond.2 else 0) = m)
    (h : m < 10000) (path : BmtPath) (r : BmtReq) (f : Box → BmtReq → Box) :
    b.bmtRated path r f = f { b with bmtSecond := (b.raw / 640000000, m + 1) } r := by
  subst hm
  exact if_pos h

/-- A request that is here and within its rate is served. -/
theorem bmtServe_here {b s1 : Box} {path : BmtPath} {want r : BmtReq} (h : bmtHere b path want r s1)
    (hop : want.op = 1 ∨ want.op = 2 ∨ want.op = 6) (f : Box → BmtReq → Box) : b.bmtServe path want f = f s1 r := by
  obtain ⟨hfw, hrate, hpath⟩ := h
  unfold Box.bmtServe
  rw [if_neg (ne_false_of_eq_true hfw)]
  cases path with
  | ethernet =>
    obtain ⟨hn, rfl, rfl⟩ := hpath
    exact (ethFrame_within hn _).trans (bmtRated_within (b := frameCounted b) rfl hrate _ _ _)
  | vc6 =>
    obtain ⟨g, rest, hwaits, rfl, hver, hwant, rfl⟩ := hpath
    have hopg : (bmtOf g).op = want.op := hwant ▸ rfl
    have hknown : ¬ ((bmtOf g).ver ≠ 1 ∨ ((bmtOf g).op ≠ 1 ∧ (bmtOf g).op ≠ 2 ∧ (bmtOf g).op ≠ 6)) := by
      rw [hopg]
      rintro (hne | ⟨h1, h2, h6⟩)
      · exact hne hver
      · exact hop.elim h1 fun h => h.elim h2 h6
    simp only [hwaits]
    rw [if_neg hknown, if_pos hwant]
    exact bmtRated_within (b := { b with inbox := rest }) rfl hrate _ _ _

/-- What a request that is here names is what the command waits for. -/
theorem bmtHere_names {b s1 : Box} {path : BmtPath} {want r : BmtReq} (h : bmtHere b path want r s1) :
    r.op = want.op ∧ r.seq = want.seq ∧ r.space = want.space ∧ r.addr = want.addr ∧ r.data = want.data
      ∧ (want.op ≠ 2 → r.count = want.count) := by
  obtain ⟨-, -, hpath⟩ := h
  cases path with
  | ethernet =>
    obtain ⟨-, rfl, -⟩ := hpath
    exact ⟨rfl, rfl, rfl, rfl, rfl, fun _ => rfl⟩
  | vc6 =>
    obtain ⟨g, rest, -, -, -, rfl, -⟩ := hpath
    exact ⟨rfl, rfl, rfl, rfl, rfl, fun hop => (if_neg hop).symm⟩

/-- Taking a request changes the two rates and the frames that wait. -/
theorem bmtHere_box {b s1 : Box} {path : BmtPath} {want r : BmtReq} (h : bmtHere b path want r s1) :
    ∃ i e m, s1 = { b with inbox := i, ethSecond := e, bmtSecond := m } := by
  obtain ⟨-, -, hpath⟩ := h
  cases path with
  | ethernet =>
    obtain ⟨-, -, rfl⟩ := hpath
    exact ⟨_, _, _, rfl⟩
  | vc6 =>
    obtain ⟨g, rest, -, -, -, -, rfl⟩ := hpath
    exact ⟨_, _, _, rfl⟩

theorem bmtSent_keeps {s t : Box} (h : bmtSent s t) : t.regs = s.regs ∧ keepsTables s t := by
  obtain ⟨_, _, _, _, _, rfl⟩ := h
  exact ⟨rfl, rfl, rfl⟩

theorem bmtHere_keepsTables {b s1 : Box} {path : BmtPath} {want r : BmtReq} (h : bmtHere b path want r s1) : keepsTables b s1 := by
  obtain ⟨_, _, _, rfl⟩ := bmtHere_box h
  exact ⟨rfl, rfl⟩

/-- An answer to a request that has been taken, as a state. -/
theorem onBox_bmtAnswer {s : State} {s1 : Box} {path : BmtPath} {want r : BmtReq} (h : bmtHere s.toBox path want r s1)
    (dst op seq count : Nat) (data : List Word) :
    (s.onBox fun _ => s1.bmtAnswer path dst op seq count data) = { s with toBox := s1.bmtAnswer path dst op seq count data } := by
  obtain ⟨i, e, m, rfl⟩ := bmtHere_box h
  obtain ⟨o, n, tn, st, d, hbox⟩ := bmtAnswer_bmtSent ({ s.toBox with inbox := i, ethSecond := e, bmtSecond := m } : Box) path dst op seq
    count data
  rw [hbox]
  rfl

/-! ### The statement -/

section
variable {s : State} {s1 : Box} {path : BmtPath} {r : BmtReq} (hrun : s.phase = .run)
include hrun

/-- A request that is served with an answer alone. -/
theorem act_bmtServe_answers {want : BmtReq} (h : bmtHere s.toBox path want r s1) (hop : want.op = 1 ∨ want.op = 2 ∨ want.op = 6)
    {f : Box → BmtReq → Box} {dst op seq count : Nat} {data : List Word} (hf : f s1 r = s1.bmtAnswer path dst op seq count data) :
    (s.act fun b => b.bmtServe path want f) = .next { s with toBox := s1.bmtAnswer path dst op seq count data } :=
  (next_onBox (act_run s _ hrun) ((bmtServe_here h hop f).trans hf)).trans (congrArg _ (onBox_bmtAnswer h ..))

/-- A READ: a bad one is refused, a good one answered with its words. -/
theorem exec_bmtRead {seq addr : Word} {space : BitVec 8} {count : BitVec 16}
    (h : bmtHere s.toBox path ⟨0, 1, 1, count.toNat, seq.toNat, space.toNat, addr.toNat, []⟩ r s1) :
    (r.good = false → exec (.bmtRead path seq space count addr) s
        = .next { s with toBox := s1.bmtAnswer path r.dst 4 seq.toNat 1 [3] })
      ∧ (r.good = true → exec (.bmtRead path seq space count addr) s = .next (s.onBox fun _ =>
          (s1.bmtWords space.toNat addr.toNat count.toNat).2.bmtAnswer path r.dst 3 seq.toNat count.toNat
            (s1.bmtWords space.toNat addr.toNat count.toNat).1)) := by
  obtain ⟨-, (hseq : r.seq = seq.toNat), (hspace : r.space = space.toNat), (haddr : r.addr = addr.toNat), -, hcount⟩ := bmtHere_names h
  have hcount : r.count = count.toNat := hcount (show 1 ≠ 2 by decide)
  refine ⟨fun hbad => act_bmtServe_answers hrun h (.inl rfl) ?_, fun hgood => next_onBox (act_run s _ hrun)
    ((bmtServe_here h (.inl rfl) _).trans ?_)⟩
  · exact (if_pos hbad).trans (by rw [hseq]; rfl)
  · rw [← hseq, ← hspace, ← haddr, ← hcount]
    exact if_neg (ne_false_of_eq_true hgood)

/-- A WRITE: refused where the path may not write or the request is bad, else stored and answered. -/
theorem exec_bmtWrite {seq addr : Word} {space : BitVec 8} {data : List Word}
    (h : bmtHere s.toBox path ⟨0, 1, 2, data.length, seq.toNat, space.toNat, addr.toNat, data⟩ r s1) :
    (s1.bmtMayWrite path = false ∨ r.barred = true → exec (.bmtWrite path seq space addr data) s
        = .next { s with toBox := s1.bmtAnswer path r.dst 4 seq.toNat 1 [2] })
      ∧ (s1.bmtMayWrite path = true → r.barred = false → r.good = false ∨ r.data.length ≠ r.count →
        exec (.bmtWrite path seq space addr data) s = .next { s with toBox := s1.bmtAnswer path r.dst 4 seq.toNat 1 [3] })
      ∧ (s1.bmtMayWrite path = true → r.barred = false → r.good = true → r.data.length = r.count →
        exec (.bmtWrite path seq space addr data) s = .next (s.onBox fun _ =>
          let b := s1.bmtStore (bmtSource path) space.toNat addr.toNat data
          if b.firmware then b.bmtAnswer path r.dst 3 seq.toNat 0 [] else b)) := by
  obtain ⟨-, (hseq : r.seq = seq.toNat), (hspace : r.space = space.toNat), (haddr : r.addr = addr.toNat), (hdata : r.data = data), -⟩ :=
    bmtHere_names h
  have hmay (hok : s1.bmtMayWrite path = true) (hbar : r.barred = false) : ¬ (s1.bmtMayWrite path = false ∨ r.barred = true) := by
    simp [hok, hbar]
  refine ⟨fun hno => act_bmtServe_answers hrun h (.inr (.inl rfl)) ?_, fun hok hbar hbad => act_bmtServe_answers hrun h (.inr (.inl rfl)) ?_,
    fun hok hbar hgood hlen => next_onBox (act_run s _ hrun) ((bmtServe_here h (.inr (.inl rfl)) _).trans ?_)⟩
  · exact (if_pos hno).trans (by rw [hseq]; rfl)
  · exact (if_neg (hmay hok hbar)).trans ((if_pos hbad).trans (by rw [hseq]; rfl))
  · have hfits : ¬ (r.good = false ∨ r.data.length ≠ r.count) := by simp [hgood, hlen]
    rw [Box.bmtWrite, if_neg (hmay hok hbar), if_neg hfits, hseq, hspace, haddr, hdata]

/-- A SUBSCRIBE names its sender as the collector. -/
theorem exec_bmtSubscribe {seq : Word} (h : bmtHere s.toBox path (s.subscribeOf path seq.toNat) r s1) (hcount : r.count = 0)
    (hseq : r.seq = seq.toNat) (sender : BitVec 48) :
    exec (.bmtSubscribe path seq sender) s = .next { s with
      toBox := { s1.bmtAnswer path r.dst 3 seq.toNat 0 [] with
        collector := some (path, if path = .vc6 then BitVec.ofNat 48 r.dst else sender) } } := by
  have hop : (s.subscribeOf path seq.toNat).op = 6 := by
    cases path with
    | ethernet => rfl
    | vc6 =>
      unfold Box.subscribeOf
      dsimp only
      split <;> rfl
  have hname : BitVec.ofNat 48 (if path = .vc6 then r.dst else sender.toNat)
      = if path = .vc6 then BitVec.ofNat 48 r.dst else sender := by
    split
    · rfl
    · simp
  have hserved : s1.bmtSubscribe path r (if path = .vc6 then r.dst else sender.toNat)
      = { s1.bmtAnswer path r.dst 3 seq.toNat 0 [] with
          collector := some (path, if path = .vc6 then BitVec.ofNat 48 r.dst else sender) } := by
    rw [Box.bmtSubscribe, if_neg (not_not_intro hcount), hname, hseq]
    exact bmtAnswer_collector ..
  refine (next_onBox (act_run s _ hrun) ((bmtServe_here h (.inr (.inr hop)) _).trans hserved)).trans ?_
  generalize some (path, if path = .vc6 then BitVec.ofNat 48 r.dst else sender) = c
  exact congrArg (fun u : State => Host.Outcome.next { u with collector := c })
    (onBox_bmtAnswer (s := s) h r.dst 3 seq.toNat 0 [])

end

/-- Settles O58: a BMT request that is served is answered by its own branch, and a frame of management Ethernet within the rate goes
to its service. -/
theorem bmtAndEthernetServe : Obligations.BmtAndEthernetServe := by
  unfold Obligations.BmtAndEthernetServe
  refine fun s hrun => ⟨fun path seq space addr r s1 => ⟨fun count hhere => ?_, fun data hhere => ?_, fun sender hhere hcount hseq => ?_⟩,
    fun m hfw => ?_⟩
  · obtain ⟨hbad, hgood⟩ := exec_bmtRead hrun hhere
    obtain ⟨hlen, htabs, hmem⟩ := bmtWords_shows space.toNat count.toNat s1 addr.toNat
    refine ⟨hbad, fun hok => ⟨_, hgood hok, hlen, ?_⟩⟩
    obtain ⟨htaken, hmtaken⟩ := bmtHere_keepsTables hhere
    obtain ⟨hregs, hstabs, hsmem⟩ := bmtSent_keeps (bmtAnswer_bmtSent (s1.bmtWords space.toNat addr.toNat count.toNat).2 path r.dst 3 seq.toNat
      count.toNat (s1.bmtWords space.toNat addr.toNat count.toNat).1)
    exact ⟨hregs, hstabs.trans (htabs.trans htaken), hsmem.trans (hmem.trans hmtaken), rfl, rfl⟩
  · obtain ⟨hno, hbad, hgood⟩ := exec_bmtWrite hrun hhere
    refine ⟨hno, fun hok hbar hb => hbad hok hbar (.inl hb), fun hok hbar hlen => hbad hok hbar (.inr hlen),
      fun hok hbar hg hlen => ?_⟩
    have hexec := hgood hok hbar hg hlen
    generalize s1.bmtStore (bmtSource path) space.toNat addr.toNat data = b at hexec ⊢
    obtain ⟨hregs, htabs, -⟩ := bmtSent_keeps (bmtAnswer_bmtSent b path r.dst 3 seq.toNat 0 [])
    cases hb : b.firmware with
    | false => exact ⟨_, next_onBox hexec (if_neg (ne_true_of_eq_false hb)), rfl, rfl, fun hon => absurd hon (ne_true_of_eq_false hb)⟩
    | true => exact ⟨_, next_onBox hexec (if_pos hb), hregs, htabs, fun _ => ⟨rfl, rfl⟩⟩
  · exact ⟨_, exec_bmtSubscribe hrun hhere hcount hseq sender, rfl, rfl⟩
  · have hserved (hin : (if s.ethSecond.1 = s.raw / 640000000 then s.ethSecond.2 else 0) < 50000) {b : Box}
        (hb : (frameCounted s.toBox).ethService m = b) :
        exec (.ethFrameReceive m) s = .next { s with toBox := b.anchored s.toBox } :=
      act_onBox hrun ((if_pos hfw).trans ((ethFrame_within hin _).trans hb))
    have hcounted {r : Result} {p : Page} {i : Nat}
        (hr : ∀ {b : Box}, (frameCounted s.toBox).count p i = b → r = .next { s with toBox := b.anchored s.toBox }) :
        ∃ t, r = .next t ∧ t.ctr p i = s.ctr p i + 1 ∧ t = { s with
          ethSecond := (frameCounted s.toBox).ethSecond, ctrs := t.ctrs, regs := t.regs, outbox := t.outbox } := by
      obtain ⟨hctr, rg, o, c, hbox⟩ := count_shows (frameCounted s.toBox) p i
      rw [hbox] at hctr
      exact ⟨_, hr hbox, hctr, rfl⟩
    refine ⟨fun hin => ?_, fun hout => hcounted fun hb => act_onBox hrun ((if_pos hfw).trans ((ethFrame_beyond hout _).trans hb))⟩
    cases m with
    | arp target sender =>
      by_cases hip : s.ip = some target
      · exact (hserved hin (if_pos hip)).trans (by rw [if_pos hip]; rfl)
      · exact (hserved hin (if_neg hip)).trans (by rw [if_neg hip]; rfl)
    | icmpEcho dst src data =>
      exact ⟨fun hip => hserved hin (if_pos hip), fun hip => hcounted fun hb => hserved hin ((if_neg hip).trans hb)⟩
    | ptp =>
      cases hen : s.is TGT_PTP_CTRL_ETH_EN with
      | true =>
        obtain ⟨t, ht, hctr, hbox⟩ := hcounted (p := tgtPage) (i := 1) fun hb => hserved hin ((if_pos hen).trans hb)
        exact ⟨t, ht, hctr, hbox⟩
      | false =>
        obtain ⟨t, ht, hctr, hbox⟩ := hcounted (p := mgtPage) (i := 4) fun hb => hserved hin ((if_neg (ne_true_of_eq_false hen)).trans hb)
        exact ⟨t, ht, hctr, hbox⟩
    | dhcpOffer a => exact hserved hin rfl
    | dhcpAck a => exact hserved hin rfl
    | ntp ns => exact hserved hin rfl
    | bmtBad seq => exact hserved hin rfl
    | other => exact hcounted fun hb => hserved hin hb

end Sys2Proof.Proofs
end

section
/-! # The release of results (06_collectives.md R111, R157, R180) -/

namespace Sys2Proof.Proofs

open Sys2Proof Sys2Proof.Machine Sys2Proof.Safety Sys2Proof.Laws

/-! ### What leaves slots, records and results alone -/

/-- The slots of the slivers, the records of the streams and the result queue are the same. -/
def keepsResults (s t : Box) : Prop := t.slivers = s.slivers ∧ t.streams = s.streams ∧ t.results = s.results

theorem keepsResults_refl (s : Box) : keepsResults s s := ⟨rfl, rfl, rfl⟩

theorem keepsResults_trans {s t u : Box} (h : keepsResults s t) (k : keepsResults t u) : keepsResults s u :=
  ⟨k.1.trans h.1, k.2.1.trans h.2.1, k.2.2.trans h.2.2⟩

theorem keepsResults_of_onlyRegsCtrs {s t : Box} (h : onlyRegsCtrs s t) : keepsResults s t := by
  obtain ⟨_, _, _, rfl⟩ := h
  exact keepsResults_refl s

theorem bump_keepsResults (b : Box) (p : Page) (i n : Nat) : keepsResults b (b.bump p i n) :=
  keepsResults_of_onlyRegsCtrs (bump_onlyRegsCtrs b p i n)

theorem raiseInt_keepsResults (b : Box) (p : Page) (bit : Nat) : keepsResults b (b.raiseInt p bit) :=
  keepsResults_of_onlyRegsCtrs (raiseInt_onlyRegs b p bit).toCtrs

theorem keepsResults_raiseInt {s t : Box} (h : keepsResults s t) (p : Page) (bit : Nat) : keepsResults s (t.raiseInt p bit) :=
  keepsResults_trans h (raiseInt_keepsResults t p bit)

theorem keepsResults_count {s t : Box} (h : keepsResults s t) (p : Page) (i : Nat) : keepsResults s (t.count p i) :=
  keepsResults_trans h (bump_keepsResults t p i 1)

theorem freeCell_keepsResults (b : Box) (t c : Nat) : keepsResults b (b.freeCell t c) := by
  rw [Box.freeCell, Box.freeCellFrom]
  split
  · rw [Box.rowRepair]
    split <;> exact ⟨rfl, rfl, rfl⟩
  · exact bump_keepsResults b _ _ 1

theorem freeCells_keepsResults (b : Box) (t : Nat) (cs : List Nat) : keepsResults b (b.freeCells t cs) :=
  foldl_rel keepsResults_refl keepsResults_trans cs (fun b c _ => freeCell_keepsResults b t c) b

theorem postFlushed_keepsResults (b : Box) (st e c part port reason : Nat) :
    keepsResults b (b.postFlushed st e c part port reason) := by
  have hpost (r : List Byte) : keepsResults b (b.post flushQueue sntPage 2 r) := by
    obtain ⟨_, _, _, _, _, _, _, h⟩ := post_logged b flushQueue sntPage 2 r
    rw [h]
    exact keepsResults_refl b
  unfold Box.postFlushed
  dsimp only
  split
  · exact keepsResults_trans (hpost _) (raiseInt_keepsResults _ _ _)
  · exact hpost _

theorem notSent_keepsResults (b : Box) (st e c part : Nat) (f : Frame) (port : Nat) :
    keepsResults b (b.notSent st e c part f port) := by
  rw [Box.notSent]
  split
  · split <;> exact ⟨rfl, rfl, rfl⟩
  · exact postFlushed_keepsResults b ..

theorem withheld_keepsResults (b : Box) (st e c part : Nat) (f : Frame) (p : Nat) :
    keepsResults b (b.withheld st e c part f p) := by
  refine keepsResults_trans ?_ (notSent_keepsResults _ ..)
  rw [Box.lnkCount, Box.countPort]
  split
  · split
    · exact bump_keepsResults b ..
    · exact keepsResults_refl b
  · exact keepsResults_refl b

theorem substTake_keepsResults (b : Box) (sl : Nat) : keepsResults b (b.substTake sl) := by
  unfold Box.substTake
  dsimp only
  refine keepsResults_raiseInt (keepsResults_count ?_ _ _) _ _
  exact ⟨rfl, rfl, rfl⟩

/-! ### Records that only grow -/

/-- A record of the same epoch with at least the chunks and fingerprints of the other. -/
def recGrows (q q' : EpochRec) : Prop := q'.epoch = q.epoch ∧ q.released ⊆ q'.released ∧ q.rfps ⊆ q'.rfps

theorem recGrows_refl (q : EpochRec) : recGrows q q := ⟨rfl, List.Subset.refl _, List.Subset.refl _⟩

/-- The slots are the same, no result has gone, and every record is still there, grown or as it was. -/
def recordsGrow (s t : Box) : Prop := t.slivers = s.slivers ∧ s.results ⊆ t.results
  ∧ ∀ st, ∀ q ∈ (s.sx st).epochs, ∃ q' ∈ (t.sx st).epochs, recGrows q q'

theorem recordsGrow_refl (s : Box) : recordsGrow s s := ⟨rfl, List.Subset.refl _, fun _ q hq => ⟨q, hq, recGrows_refl q⟩⟩

theorem recordsGrow_trans {s t u : Box} (h : recordsGrow s t) (k : recordsGrow t u) : recordsGrow s u := by
  refine ⟨k.1.trans h.1, List.Subset.trans h.2.1 k.2.1, fun st q hq => ?_⟩
  obtain ⟨q', hq', he, hr, hf⟩ := h.2.2 st q hq
  obtain ⟨q'', hq'', he', hr', hf'⟩ := k.2.2 st q' hq'
  exact ⟨q'', hq'', he'.trans he, List.Subset.trans hr hr', List.Subset.trans hf hf'⟩

theorem recordsGrow_of_keepsResults {s t : Box} (h : keepsResults s t) : recordsGrow s t := by
  obtain ⟨hsl, hst, hres⟩ := h
  refine ⟨hsl, hres ▸ List.Subset.refl _, fun st q hq => ⟨q, ?_, recGrows_refl q⟩⟩
  rwa [Box.sx, hst]

/-- Replacing a stream's record by one whose epochs have grown. -/
theorem setSx_recordsGrow {b : Box} {st : Nat} {x : StreamX}
    (h : ∀ q ∈ (b.sx st).epochs, ∃ q' ∈ x.epochs, recGrows q q') : recordsGrow b (b.setSx st x) := by
  refine ⟨rfl, List.Subset.refl _, fun st' q hq => ?_⟩
  by_cases hst : st' = st
  · subst hst
    rw [Box.sx, Box.setSx, mapGet_mapSet_same]
    exact h q hq
  · rw [Box.sx, Box.setSx, mapGet_mapSet_other _ _ _ hst]
    exact ⟨q, hq, recGrows_refl q⟩

theorem setSx_recordsGrow_of_epochs {b : Box} {st : Nat} {x : StreamX} (h : x.epochs = (b.sx st).epochs) :
    recordsGrow b (b.setSx st x) := setSx_recordsGrow fun q hq => ⟨q, h ▸ hq, recGrows_refl q⟩

theorem onRec_epochs (b : Box) (st e : Nat) (f : EpochRec → EpochRec) :
    ((b.onRec st e f).sx st).epochs = (b.sx st).epochs.map fun r => if r.epoch = e then f r else r := by
  rw [Box.onRec, Box.sx, Box.setSx, mapGet_mapSet_same]

theorem onRec_recordsGrow (b : Box) (st e : Nat) {f : EpochRec → EpochRec} (h : ∀ q, recGrows q (f q)) :
    recordsGrow b (b.onRec st e f) :=
  setSx_recordsGrow fun q hq => by
    refine ⟨_, List.mem_map_of_mem hq, ?_⟩
    split
    · exact h q
    · exact recGrows_refl q

/-- The record that the change has been made to. -/
theorem onRec_mem {b : Box} {st e : Nat} {q : EpochRec} (hq : q ∈ (b.sx st).epochs) (he : q.epoch = e) (f : EpochRec → EpochRec) :
    f q ∈ ((b.onRec st e f).sx st).epochs := by
  rw [onRec_epochs]
  exact List.mem_map.mpr ⟨q, hq, if_pos he⟩

theorem epochRec_mem {x : StreamX} {e : Nat} {r : EpochRec} (h : x.epochRec e = some r) : r ∈ x.epochs ∧ r.epoch = e :=
  ⟨List.mem_of_find?_eq_some h, by simpa using List.find?_some h⟩

theorem keepShort_recordsGrow (b : Box) (st e t : Nat) : recordsGrow b (b.keepShort st e t) := by
  have hrec : recordsGrow b (b.onRec st e fun r => { r with short := t :: r.short }) :=
    onRec_recordsGrow b st e fun q => recGrows_refl q
  rw [Box.keepShort]
  generalize (b.onRec st e fun r => { r with short := t :: r.short }) = c at hrec ⊢
  exact recordsGrow_trans hrec (recordsGrow_of_keepsResults (keepsResults_raiseInt (bump_keepsResults c sntPage 0 1) sntPage 3))

theorem keepResult_recordsGrow (b : Box) (st e c part t : Nat) (f : Frame) : recordsGrow b (b.keepResult st e c part t f) := by
  unfold Box.keepResult
  split
  · exact recordsGrow_refl b
  · dsimp only
    split
    · exact recordsGrow_refl b
    split
    · exact onRec_recordsGrow b st e fun q => recGrows_refl q
    · exact keepShort_recordsGrow b st e t

/-! ### A released frame -/

theorem lookup_keepsResults (b : Box) (t pipe bank : Nat) (f : Frame) : keepsResults b (b.lookup t pipe bank f).2 := by
  obtain ⟨tn, h⟩ := lookup_bmtSent b t pipe bank f
  rw [h]
  exact keepsResults_refl b

/-- The entry of the result queue for a frame of a result. -/
def resultEntry (b : Box) (st e c part t : Nat) (f : Frame) (bcast : Bool) (cells due : List Nat) (replay : Bool) : ResRec :=
  { id := b.resId, stream := st, cepoch := e, chunk := c, part := part, tent := t, frame := f,
    bcast := bcast, due := due, won := [], crossing := [], cells := cells, bank := b.liveBank t, replay := replay }

/-- The queue with one more entry. -/
def addResult (b : Box) (r : ResRec) : Box := { b with results := b.results ++ [r], resId := b.resId + 1 }

theorem addResult_recordsGrow (b : Box) (r : ResRec) : recordsGrow b (addResult b r) :=
  ⟨rfl, List.subset_append_left _ _, fun _ q hq => ⟨q, hq, recGrows_refl q⟩⟩

/-- The ports that do not carry a broadcast frame, each with its copy counted as not sent. -/
def withholdAll (b : Box) (st e c part : Nat) (f : Frame) (ports : List Nat) : Box :=
  (ports.filter fun p => !b.carries f p).foldl (fun x p => x.withheld st e c part f p) b

theorem withholdAll_keepsResults (b : Box) (st e c part : Nat) (f : Frame) (ports : List Nat) :
    keepsResults b (withholdAll b st e c part f ports) :=
  foldl_rel keepsResults_refl keepsResults_trans _ (fun b p _ => withheld_keepsResults b st e c part f p) b

/-- A broadcast result that a port carries enters the queue for those ports. -/
theorem queueResult_bcast (b : Box) (st e c part t : Nat) (f : Frame) (ports cells : List Nat) (replay : Bool)
    (h : ports.filter (b.carries f) ≠ []) : b.queueResult st e c part t f true ports cells replay
      = addResult (withholdAll b st e c part f ports) (resultEntry (withholdAll b st e c part f ports) st e c part t f true cells
          (ports.filter (b.carries f)) replay) := by
  unfold Box.queueResult
  dsimp only
  rw [if_pos rfl]
  generalize ports.filter (b.carries f) = due at h ⊢
  cases due with
  | nil => exact absurd rfl h
  | cons p ps => rfl

theorem queueResult_recordsGrow (b : Box) (st e c part t : Nat) (f : Frame) (bcast : Bool) (ports cells : List Nat) (replay : Bool) :
    recordsGrow b (b.queueResult st e c part t f bcast ports cells replay) := by
  unfold Box.queueResult
  dsimp only
  split
  · have hheld := withholdAll_keepsResults b st e c part f ports
    split
    · exact recordsGrow_of_keepsResults (keepsResults_trans hheld (freeCells_keepsResults _ _ _))
    · exact recordsGrow_trans (recordsGrow_of_keepsResults hheld) (addResult_recordsGrow _ _)
  · have hlook := lookup_keepsResults b t 8 (b.liveBank t) f
    generalize b.lookup t 8 (b.liveBank t) f = l at hlook ⊢
    obtain ⟨route, b1⟩ := l
    cases route with
    | out q =>
      dsimp only at hlook ⊢
      split
      · exact recordsGrow_of_keepsResults (keepsResults_trans (withheld_keepsResults b ..) (freeCells_keepsResults _ _ _))
      · exact recordsGrow_trans (recordsGrow_of_keepsResults hlook) (addResult_recordsGrow _ _)
    | self => exact recordsGrow_of_keepsResults (keepsResults_trans (notSent_keepsResults b ..) (freeCells_keepsResults _ _ _))
    | discard k => exact recordsGrow_of_keepsResults (keepsResults_trans (notSent_keepsResults b ..) (freeCells_keepsResults _ _ _))

/-! ### What follows a released chunk -/

theorem setStrm_recordsGrow (b : Box) (st word lo width v : Nat) : recordsGrow b (b.setStrm st word lo width v) :=
  recordsGrow_of_keepsResults ⟨rfl, rfl, rfl⟩

theorem twinStart_recordsGrow (b : Box) (st e c : Nat) : recordsGrow b (b.twinStart st e c) := by
  have hskip : recordsGrow b b.twinSkip := recordsGrow_of_keepsResults (bump_keepsResults b _ _ 1)
  unfold Box.twinStart
  dsimp only
  split
  · exact recordsGrow_refl b
  · split
    · split
      · exact setSx_recordsGrow_of_epochs rfl
      · exact hskip
    · exact hskip

theorem sealPush_recordsGrow (b : Box) (st : Nat) (r : EpochRec) (type amends : Nat) (unrecov : Bool) :
    recordsGrow b (b.sealPush st r type amends unrecov) := by
  unfold Box.sealPush
  dsimp only
  split
  · exact recordsGrow_trans (t := { b with sealJobs := _ }) (recordsGrow_of_keepsResults ⟨rfl, rfl, rfl⟩)
      (onRec_recordsGrow _ st r.epoch fun q => recGrows_refl q)
  · exact recordsGrow_of_keepsResults ⟨rfl, rfl, rfl⟩

theorem sealAsk_recordsGrow (b : Box) (st : Nat) (r : EpochRec) : recordsGrow b (b.sealAsk st r) := by
  unfold Box.sealAsk
  dsimp only
  refine recordsGrow_trans ?_ (onRec_recordsGrow _ st r.epoch fun q => recGrows_refl q)
  split
  · refine recordsGrow_trans (sealPush_recordsGrow b st r 1 0 false) (foldl_rel recordsGrow_refl recordsGrow_trans _ (fun c _ _ => ?_) _)
    split
    · exact sealPush_recordsGrow c ..
    · exact recordsGrow_refl c
  · exact recordsGrow_refl b

theorem setCur_recordsGrow (b : Box) (st e : Nat) : recordsGrow b (b.setCur st e) :=
  recordsGrow_trans (setStrm_recordsGrow b st 4 16 16 e) (setSx_recordsGrow_of_epochs rfl)

theorem advance_recordsGrow (st fuel : Nat) : ∀ b : Box, recordsGrow b (Box.advance st fuel b) := by
  induction fuel with
  | zero => exact recordsGrow_refl
  | succ n ih =>
    intro b
    rw [Box.advance]
    dsimp only
    split
    · split
      · refine recordsGrow_trans ?_ (ih _)
        exact recordsGrow_trans (recordsGrow_trans (sealAsk_recordsGrow b st _) (setCur_recordsGrow _ st _)) (setStrm_recordsGrow ..)
      · exact recordsGrow_refl b
    · exact recordsGrow_refl b

theorem drainEval_recordsGrow (b : Box) (st : Nat) : recordsGrow b (b.drainEval st) := by
  rw [Box.drainEval]
  split
  · have hset : recordsGrow b (b.setSx st { b.sx st with drained := true }) := setSx_recordsGrow_of_epochs rfl
    exact recordsGrow_trans hset (recordsGrow_of_keepsResults (raiseInt_keepsResults _ _ _))
  · exact recordsGrow_refl b

theorem promote_recordsGrow (b : Box) (g : Nat) : recordsGrow b (b.promote g) := by
  unfold Box.promote
  dsimp only
  split
  · refine recordsGrow_trans ?_ (foldl_rel recordsGrow_refl recordsGrow_trans _ (fun c st _ => drainEval_recordsGrow c st) _)
    exact recordsGrow_of_keepsResults ⟨rfl, rfl, rfl⟩
  · exact recordsGrow_refl b

theorem drainEnd_recordsGrow (b : Box) (st : Nat) : recordsGrow b (b.drainEnd st) := by
  have howed : recordsGrow b (b.sealOwed st) :=
    foldl_rel recordsGrow_refl recordsGrow_trans _ (fun c r _ => sealAsk_recordsGrow c st r) b
  rw [Box.drainEnd]
  split
  · refine recordsGrow_trans (recordsGrow_trans howed (setStrm_recordsGrow _ st 0 30 2 1)) ?_
    exact recordsGrow_of_keepsResults (foldl_rel keepsResults_refl keepsResults_trans _ (fun c sl _ => substTake_keepsResults c sl) _)
  · exact recordsGrow_refl b

/-- The slivers without the slots of an epoch. -/
def dropEpoch (m : Sparse Sliver) (st e : Nat) : Sparse Sliver :=
  (m.map fun x => (x.1, { x.2 with slots := x.2.slots.filter fun c => !(c.stream == st && c.epoch == e) })).filter fun x => x.2 ≠ {}

theorem mem_dropEpoch {m : Sparse Sliver} {st e i : Nat} {z : ChunkSlot}
    (h : z ∈ (mapGet (fun _ => ({} : Sliver)) (dropEpoch m st e) i).slots) : ¬ (z.stream = st ∧ z.epoch = e) := by
  have hget : mapGet (fun _ => ({} : Sliver)) (dropEpoch m st e) i = {} ∨
      ∃ x ∈ dropEpoch m st e, mapGet (fun _ => ({} : Sliver)) (dropEpoch m st e) i = x.2 := by
    generalize dropEpoch m st e = l
    induction l with
    | nil => exact .inl rfl
    | cons x xs ih =>
      rw [mapGet]
      split
      · exact .inr ⟨x, List.mem_cons_self, rfl⟩
      · exact ih.imp_right fun ⟨y, hy, hv⟩ => ⟨y, List.mem_cons_of_mem _ hy, hv⟩
  obtain hnone | ⟨x, hx, hv⟩ := hget
  · rw [hnone] at h
    exact absurd h List.not_mem_nil
  · obtain ⟨w, -, rfl⟩ := List.mem_map.mp (List.mem_of_mem_filter hx)
    rw [hv] at h
    exact not_and_or.mpr (by simpa using (List.mem_filter.mp h).2)

/-- A complete epoch with its flags counted and shown. -/
def epochCounted (b : Box) (st : Nat) (r : EpochRec) : Box :=
  let s1 := b.onRec st r.epoch fun z => { z with done := true, tdone := b.nowTick }
  let s2 := (s1.bump carPage 0 r.guards).bump carPage 1 r.ranges
  let s3 := s2.setStrm st 4 2 2 (2 * b2n (decide (0 < r.guards)) + b2n (decide (0 < r.ranges)))
  if 0 < r.guards + r.ranges then s3.raiseInt carPage 1 else s3

theorem epochCounted_recordsGrow (b : Box) (st : Nat) (r : EpochRec) : recordsGrow b (epochCounted b st r) := by
  have hrec : recordsGrow b (b.onRec st r.epoch fun z => { z with done := true, tdone := b.nowTick }) :=
    onRec_recordsGrow b st r.epoch fun q => recGrows_refl q
  unfold epochCounted
  generalize (b.onRec st r.epoch fun z => { z with done := true, tdone := b.nowTick }) = c at hrec ⊢
  have hcounted := recordsGrow_trans hrec (recordsGrow_of_keepsResults
    (keepsResults_trans (bump_keepsResults c carPage 0 r.guards) (bump_keepsResults _ carPage 1 r.ranges)))
  have hshown (v : Nat) := recordsGrow_trans hcounted (setStrm_recordsGrow _ st 4 2 2 v)
  dsimp only
  split
  · exact recordsGrow_trans (hshown _) (recordsGrow_of_keepsResults (raiseInt_keepsResults _ _ _))
  · exact hshown _

theorem epochDone_eq (b : Box) (st : Nat) (r : EpochRec) : b.epochDone st r
    = ((Box.advance st 3 { epochCounted b st r with slivers := dropEpoch (epochCounted b st r).slivers st r.epoch }).promote
        (b.strm st).group).drainEnd st := rfl

/-- A complete epoch: its slots go, and no record and no result. -/
theorem epochDone_shows (b : Box) (st : Nat) (r : EpochRec) :
    (b.epochDone st r).slivers = dropEpoch b.slivers st r.epoch ∧ b.results ⊆ (b.epochDone st r).results
      ∧ ∀ k, ∀ q ∈ (b.sx k).epochs, ∃ q' ∈ ((b.epochDone st r).sx k).epochs, recGrows q q' := by
  have hc := epochCounted_recordsGrow b st r
  rw [epochDone_eq]
  generalize epochCounted b st r = c at hc ⊢
  have hrest := recordsGrow_trans (recordsGrow_trans
    (advance_recordsGrow st 3 { c with slivers := dropEpoch c.slivers st r.epoch }) (promote_recordsGrow _ (b.strm st).group))
    (drainEnd_recordsGrow _ st)
  refine ⟨hrest.1.trans (by rw [← hc.1]), List.Subset.trans hc.2.1 hrest.2.1, fun k q hq => ?_⟩
  obtain ⟨q', hq', he, hr, hf⟩ := hc.2.2 k q hq
  obtain ⟨q'', hq'', he', hr', hf'⟩ := hrest.2.2 k q' hq'
  exact ⟨q'', hq'', he'.trans he, List.Subset.trans hr hr', List.Subset.trans hf hf'⟩

/-- A released chunk: its slots are gone and its record, with what it held, names it. -/
theorem chunkReleased_shows (b : Box) (sl : Nat) (y : ChunkSlot) :
    (∀ z ∈ ((b.chunkReleased sl y).sliver sl).slots, ¬ (z.stream = y.stream ∧ z.epoch = y.epoch ∧ z.chunk = y.chunk))
      ∧ b.results ⊆ (b.chunkReleased sl y).results
      ∧ ∀ q ∈ (b.sx y.stream).epochs, q.epoch = y.epoch → ∃ q' ∈ ((b.chunkReleased sl y).sx y.stream).epochs,
          q'.epoch = y.epoch ∧ y.chunk ∈ q'.released ∧ q.rfps ⊆ q'.rfps := by
  let c := (b.freeSlot sl y.stream y.epoch y.chunk).onRec y.stream y.epoch fun r =>
    { r with released := if y.chunk ∈ r.released then r.released else r.released ++ [y.chunk] }
  have hslot : ∀ z ∈ (c.sliver sl).slots, ¬ (z.stream = y.stream ∧ z.epoch = y.epoch ∧ z.chunk = y.chunk) := by
    intro z hz
    have hsliver : c.sliver sl = { b.sliver sl with slots := (b.sliver sl).slots.filter fun x =>
        !(x.stream == y.stream && x.epoch == y.epoch && x.chunk == y.chunk) } := mapGet_mapSet_same ..
    rw [hsliver] at hz
    rintro ⟨hs, he, hc⟩
    have hkept := (List.mem_filter.mp hz).2
    simp [hs, he, hc] at hkept
  have hrec : ∀ q ∈ (b.sx y.stream).epochs, q.epoch = y.epoch → ∃ q' ∈ (c.sx y.stream).epochs,
      q'.epoch = y.epoch ∧ y.chunk ∈ q'.released ∧ q.rfps ⊆ q'.rfps := by
    intro q hq he
    refine ⟨_, onRec_mem (b := b.freeSlot sl y.stream y.epoch y.chunk) hq he _, he, ?_, List.Subset.refl _⟩
    dsimp only
    split
    · assumption
    · exact List.mem_append_right _ (List.mem_singleton_self _)
  have htwin := twinStart_recordsGrow c y.stream y.epoch y.chunk
  have hafter : b.chunkReleased sl y = c.twinStart y.stream y.epoch y.chunk
      ∨ ∃ r, r.epoch = y.epoch ∧ b.chunkReleased sl y = (c.twinStart y.stream y.epoch y.chunk).epochDone y.stream r := by
    unfold Box.chunkReleased
    dsimp only
    generalize hd : Box.twinStart _ _ _ _ = d
    obtain rfl : d = c.twinStart y.stream y.epoch y.chunk := hd.symm
    split
    next r hr =>
      split
      · exact .inr ⟨r, (epochRec_mem hr).2, rfl⟩
      · exact .inl rfl
    next => exact .inl rfl
  generalize c.twinStart y.stream y.epoch y.chunk = d at htwin hafter
  obtain ⟨hsl, hres, hgrow⟩ := htwin
  obtain hsame | ⟨r, hre, hdone⟩ := hafter
  · rw [hsame]
    refine ⟨?_, hres, fun q hq he => ?_⟩
    · rw [Box.sliver, hsl]
      exact hslot
    · obtain ⟨q', hq', he', hrel, hf⟩ := hrec q hq he
      obtain ⟨q'', hq'', he'', hrel', hf'⟩ := hgrow _ q' hq'
      exact ⟨q'', hq'', he''.trans he', hrel' hrel, List.Subset.trans hf hf'⟩
  · obtain ⟨hdrop, hdres, hdgrow⟩ := epochDone_shows d y.stream r
    rw [hdone]
    refine ⟨fun z hz hkey => ?_, List.Subset.trans hres hdres, fun q hq he => ?_⟩
    · rw [Box.sliver, hdrop] at hz
      exact mem_dropEpoch hz ⟨hkey.1, hkey.2.1.trans hre.symm⟩
    · obtain ⟨q', hq', he', hrel, hf⟩ := hrec q hq he
      obtain ⟨q'', hq'', he'', hrel', hf'⟩ := hgrow _ q' hq'
      obtain ⟨p, hp, hpe, hprel, hpf⟩ := hdgrow _ q'' hq''
      exact ⟨p, hp, hpe.trans (he''.trans he'), hprel (hrel' hrel), List.Subset.trans hf (List.Subset.trans hf' hpf)⟩

/-- The first frame of a result that the quota holds. -/
theorem releaseFrames_one {b : Box} {sl st : Nat} {r : EpochRec} {y : ChunkSlot} {o : ResultPart} (hout : y.out = [o])
    (hquota : b.quotaUsed st (sl % 8) + frCells (b.resultFrame st r o) ≤ (b.strm st).rquota) : ∃ c : Box,
      Box.releaseFrames sl st r y.out.length { y with checked := true } b = ({ y with checked := true, out := [] }, c)
      ∧ b.results ⊆ c.results
      ∧ (r ∈ (b.sx st).epochs → ∃ q ∈ (c.sx st).epochs, q.epoch = r.epoch
          ∧ (y.chunk, o.part, frFprint (b.resultFrame st r o)) ∈ q.rfps)
      ∧ ((b.strmGrp st).dest = true → r.bmap.filter (b.carries (b.resultFrame st r o)) ≠ [] → ∃ x ∈ c.results,
          x.frame = b.resultFrame st r o ∧ x.due = r.bmap.filter (b.carries (b.resultFrame st r o)) ∧ x.stream = st
            ∧ x.chunk = y.chunk ∧ x.part = o.part ∧ x.tent = sl % 8) := by
  let f := b.resultFrame st r o
  let a := b.allocCells (sl % 8) (frCells f)
  let c2 := a.2.queueResult st r.epoch y.chunk o.part (sl % 8) f (b.strmGrp st).dest r.bmap a.1 false
  let c3 := c2.onRec st r.epoch fun z => { z with rfps := z.rfps ++ [(y.chunk, o.part, frFprint f)] }
  have halloc : keepsResults b a.2 := ⟨rfl, rfl, rfl⟩
  have hqueue : recordsGrow b c2 := recordsGrow_trans (recordsGrow_of_keepsResults halloc) (queueResult_recordsGrow a.2 ..)
  have hrfps : recordsGrow c2 c3 := onRec_recordsGrow c2 st r.epoch fun q => ⟨rfl, List.Subset.refl _, List.subset_append_left _ _⟩
  have hkeep : recordsGrow c3 (c3.keepResult st r.epoch y.chunk o.part (sl % 8) f) := keepResult_recordsGrow c3 ..
  refine ⟨c3.keepResult st r.epoch y.chunk o.part (sl % 8) f, ?_,
    List.Subset.trans hqueue.2.1 (List.Subset.trans hrfps.2.1 hkeep.2.1), fun hr => ?_, fun hdest hdue => ?_⟩
  · cases y
    cases hout
    exact if_neg (Nat.not_lt.mpr hquota)
  · obtain ⟨q, hq, he, -, -⟩ := hqueue.2.2 st r hr
    obtain ⟨q', hq', he', -, hf'⟩ := hkeep.2.2 st _ (onRec_mem hq he fun z => { z with rfps := z.rfps ++ [(y.chunk, o.part, frFprint f)] })
    exact ⟨q', hq', he'.trans he, hf' (List.mem_append_right _ (List.mem_singleton_self _))⟩
  · obtain ⟨x, hx, hshown⟩ : ∃ x ∈ c2.results, x.frame = f ∧ x.due = r.bmap.filter (b.carries f) ∧ x.stream = st
        ∧ x.chunk = y.chunk ∧ x.part = o.part ∧ x.tent = sl % 8 := by
      have hadded := queueResult_bcast a.2 st r.epoch y.chunk o.part (sl % 8) f r.bmap a.1 false hdue
      rw [← hdest] at hadded
      rw [show c2 = _ from hadded]
      exact ⟨_, List.mem_append_right _ (List.mem_singleton_self _), rfl, rfl, rfl, rfl, rfl, rfl⟩
    exact ⟨x, hkeep.2.1 (hrfps.2.1 hx), hshown⟩

/-- Settles O38: the frame enters the queue as it is released, its fingerprint the record, and what ends the chunk and the epoch
takes nothing from either. -/
theorem completeChunksReleaseResults : Obligations.CompleteChunksReleaseResults := by
  unfold Obligations.CompleteChunksReleaseResults
  intro s sl y r o hrun hfind hrec hout hwatch f due hquota
  obtain ⟨hmem, hepoch⟩ := epochRec_mem hrec
  obtain ⟨c, hframes, hresults, hrfp, hentry⟩ := releaseFrames_one (sl := sl.toNat) hout hquota
  obtain ⟨hgone, hkept, hrecord⟩ := chunkReleased_shows c sl.toNat { y with checked := true, out := [] }
  have hbox : s.toBox.releaseResult sl.toNat = c.chunkReleased sl.toNat { y with checked := true, out := [] } := by
    have hfree : ¬ (s.watched sl.toNat = true ∧ y.checked = false) := by
      rintro ⟨hw, hc⟩
      exact hwatch.elim (fun h => Bool.false_ne_true (h.symm.trans hw)) (fun h => Bool.false_ne_true (hc.symm.trans h))
    rw [Box.releaseResult, hfind]
    dsimp only
    rw [hrec]
    dsimp only
    rw [if_neg hfree, hframes]
    exact if_pos rfl
  refine ⟨_, next_onBox (actRun_run s (fun b => b.releaseResult sl.toNat) hrun) hbox, hgone, ?_, fun hdest hdue => ?_⟩
  · obtain ⟨q, hq, hqe, hqr⟩ := hrfp hmem
    obtain ⟨q', hq', he, hrel, hf⟩ := hrecord q hq (hqe.trans hepoch)
    exact ⟨q', hq', he, hrel, hf hqr⟩
  · obtain ⟨x, hx, hshown⟩ := hentry hdest hdue
    exact ⟨x, hkept hx, hshown⟩

end Sys2Proof.Proofs
end

section
/-! # Twins, third computations and watches (12_faults.md R355 to R358) -/

namespace Sys2Proof.Proofs

open Sys2Proof Sys2Proof.Machine Sys2Proof.Safety Sys2Proof.Laws

/-! ### What a contradiction shows -/

/-- A bit of CAR_TWIN_STATUS that is set with a cause of the CAR page. -/
theorem twinStatus_shows (b : Box) {f : Fld} (hf : f = CAR_TWIN_STATUS_MISMATCH ∨ f = CAR_TWIN_STATUS_THREEWAY) {k : Nat}
    (hk : k < 32) : ((b.put f true).raiseInt carPage k).is f = true
      ∧ ((b.put f true).raiseInt carPage k).is (pageFld carPage 16 k 1) = true
      ∧ onlyRegs b ((b.put f true).raiseInt carPage k) := by
  have haddr : f.addr ∉ causeWords carPage := by obtain rfl | rfl := hf <;> decide
  have hbit : f.lo + f.width ≤ 32 ∧ 0 < f.width := by obtain rfl | rfl := hf <;> decide
  refine ⟨?_, ?_, onlyRegs_trans (wr_onlyRegs b f _) (raiseInt_onlyRegs _ _ _)⟩
  · rw [is_raiseInt _ _ _ haddr, is_put _ _ _ hbit.1 hbit.2]
  · rw [is_raiseInt_cause _ (by decide) hk, decide_eq_true rfl, Bool.or_true]

theorem spareFault_slivers (b : Box) (t pattern : Nat) : (b.spareFault t pattern).slivers = b.slivers := by
  unfold Box.spareFault
  dsimp only
  obtain ⟨_, _, _, _, _, _, _, h⟩ := postFault_logged b.takeFree.2 7 ((Config.freeBits b.takeFree.1).toNat % 256)
    (512 + (Config.freeBits b.takeFree.1).toNat / 256 % 32) t pattern
  rw [h]
  split <;> rfl

theorem slotOf_of_slivers {b c : Box} (h : c.slivers = b.slivers) (sl st e k : Nat) : c.slotOf sl st e k = b.slotOf sl st e k := by
  rw [Box.slotOf, Box.slotOf, Box.sliver, Box.sliver, h]

/-- A slot that is replaced by another of its chunk. -/
theorem slotOf_replaced {b : Box} {sl st e c : Nat} {y : ChunkSlot} (h : b.slotOf sl st e c = some y) {z : ChunkSlot}
    (hst : z.stream = y.stream) (he : z.epoch = y.epoch) (hc : z.chunk = y.chunk) : (b.putSlot sl z).slotOf sl st e c = some z := by
  obtain ⟨rfl, rfl, rfl⟩ := chunk_of_slotOf h
  rw [← hst, ← he, ← hc]
  exact slotOf_putSlot b sl z

/-! ### A twin or third computation of a held result -/

section
variable {b : Box} {st e c : Nat} {y : ChunkSlot} (hslot : b.slotOf ((b.strm st).owner c) st e c = some y)
  (hparts : b.twinParts y = true) (faulty : Option (List (List Byte)))
include hslot hparts

theorem twinComplete_agrees {u : Nat} (hhold : y.hold = .twin u) (heq : payFps (b.heldPays y faulty) = y.outFps) :
    b.twinComplete st e c faulty = b.putSlot ((b.strm st).owner c) { y with hold := .none, checked := true } := by
  unfold Box.twinComplete
  dsimp only
  rw [hslot]
  dsimp only
  rw [hhold]
  exact (if_neg (ne_false_of_eq_true hparts)).trans (if_pos heq)

theorem twinComplete_contradicts {u : Nat} (hhold : y.hold = .twin u) (hne : payFps (b.heldPays y faulty) ≠ y.outFps) :
    b.twinComplete st e c faulty = (b.putSlot ((b.strm st).owner c)
      { y with hold := .third u ((b.heldPays y faulty).map padPayload) }).twinBad := by
  unfold Box.twinComplete
  dsimp only
  rw [hslot]
  dsimp only
  rw [hhold]
  exact (if_neg (ne_false_of_eq_true hparts)).trans (if_neg hne)

theorem thirdDone_agrees {u : Nat} {twin : List (List Byte)} (hhold : y.hold = .third u twin)
    (heq : payFps (b.heldPays y faulty) = y.outFps) :
    b.thirdDone st e c faulty = (b.putSlot ((b.strm st).owner c) { y with hold := .none, checked := true }).spareFault u
      (b.strmGrp st).fmt := by
  unfold Box.thirdDone
  dsimp only
  rw [hslot]
  dsimp only
  rw [hhold]
  exact (if_neg (ne_false_of_eq_true hparts)).trans (if_pos heq)

theorem thirdDone_threeWay {u : Nat} {twin : List (List Byte)} (hhold : y.hold = .third u twin)
    (hne : payFps (b.heldPays y faulty) ≠ y.outFps) (htwin : payFps (b.heldPays y faulty) ≠ payFps twin) :
    b.thirdDone st e c faulty = (b.poison ((b.strm st).owner c) st e c).threeWay := by
  unfold Box.thirdDone
  dsimp only
  rw [hslot]
  dsimp only
  rw [hhold]
  exact (if_neg (ne_false_of_eq_true hparts)).trans ((if_neg hne).trans (if_neg htwin))

end

/-! ### The twin of a released chunk -/

/-- A stream's twins without one of them, and the old epochs that go with it. -/
theorem dropOld_shows (b : Box) (st : Nat) : ((b.dropOld st).sx st).twins = (b.sx st).twins
    ∧ ∃ x, b.dropOld st = { b with streams := x } := by
  refine ⟨?_, _, rfl⟩
  rw [Box.dropOld, Box.sx, Box.setSx, mapGet_mapSet_same]

theorem twinPost_agrees {b : Box} {st : Nat} {w : Twin} {r : EpochRec} (hr : (b.sx st).epochRec w.epoch = some r)
    {pays : List (List Byte)} (h : payFps pays = (chunkFps r w.chunk).map (·.2)) :
    b.twinPost st w pays = ((b.setSx st { b.sx st with twins := (b.sx st).twins.filter (· ≠ w) }).count carPage 2).dropOld st := by
  unfold Box.twinPost
  dsimp only
  rw [hr]
  exact if_pos h

/-! ### The watch bit of a sliver -/

theorem watched_put (b : Box) {i k : Nat} (hne : k ≠ i) (v : Bool) :
    (b.put { CAR_WATCH_WATCH (i / 32) with lo := i % 32, width := 1 } v).watched k = b.watched k := by
  refine is_put_apart b v ⟨?_, ?_⟩
  · show i % 32 + 1 ≤ 32
    omega
  · show 0x70600 + 4 * (k / 32) ≠ 0x70600 + 4 * (i / 32) ∨ k % 32 + 1 ≤ i % 32 ∨ i % 32 + 1 ≤ k % 32
    omega

theorem watchExpire_quiet {b : Box} {sl : Nat}
    (hquiet : (b.events.all fun x => !(x.cls == 7 && x.unit == sl / 8 && x.tent == sl % 8
      && decide (b.raw < x.raw + b.rd MGT_FAULT_CFG_WINDOW * 640000000))) = true)
    (hquar : b.is (TMB_SLIVER_MAP_QUAR (sl % 8) (sl / 8)) = false) (hsub : sl ∉ b.substs) :
    b.watchExpire sl = b.put { CAR_WATCH_WATCH (sl / 32) with lo := sl % 32, width := 1 } false := by
  refine if_neg ?_
  rintro (hrecent | hq | hs)
  · obtain ⟨x, hx, hrecent⟩ := List.any_eq_true.mp hrecent
    have hnone := List.all_eq_true.mp hquiet x hx
    rw [hrecent] at hnone
    exact absurd hnone (by decide)
  · exact Bool.false_ne_true (hquar.symm.trans hq)
  · exact hsub hs

/-! ### The statement -/

/-- Settles O40: the branches of a twin's and of a third computation's end, and the one bit that an expired watch clears. -/
theorem twinsCheckResults : Obligations.TwinsCheckResults := by
  unfold Obligations.TwinsCheckResults
  refine fun s hrun => ⟨?_, fun st e c w r faulty hnone hw hr hkept hagree => ?_, fun sl hquiet hquar hsub => ?_⟩
  · intro st e c y sl hslot hparts faulty pays
    refine ⟨fun u hhold => ⟨fun heq => ?_, fun hne => ?_⟩, fun u twin hhold => ⟨fun heq => ?_, fun hne htwin => ?_⟩⟩
    · refine ⟨_, next_onBox (actRun_run s (fun b => b.twinComplete st.toNat e.toNat c.toNat faulty) hrun)
        (twinComplete_agrees hslot hparts faulty hhold heq), ?_, rfl⟩
      exact slotOf_replaced hslot rfl rfl rfl
    · let z : ChunkSlot := { y with hold := .third u (pays.map padPayload) }
      obtain ⟨hmis, hint, r, o, hbox⟩ := twinStatus_shows (s.toBox.putSlot sl z) (.inl rfl) (k := 4) (by decide)
      have htwin : s.toBox.twinComplete st.toNat e.toNat c.toNat faulty = _ :=
        (twinComplete_contradicts hslot hparts faulty hhold hne).trans hbox
      rw [hbox] at hmis hint
      refine ⟨_, next_onBox (actRun_run s (fun b => b.twinComplete st.toNat e.toNat c.toNat faulty) hrun) htwin, ?_, hmis, hint, rfl⟩
      exact slotOf_replaced hslot rfl rfl rfl
    · refine ⟨_, next_onBox (actRun_run s (fun b => b.thirdDone st.toNat e.toNat c.toNat faulty) hrun)
        (thirdDone_agrees hslot hparts faulty hhold heq), ?_⟩
      refine (slotOf_of_slivers (b := s.toBox.putSlot sl { y with hold := .none, checked := true }) (spareFault_slivers _ _ _) ..).trans ?_
      exact slotOf_replaced hslot rfl rfl rfl
    · let z : ChunkSlot :=
        { y with poisoned := true, done := false, watch := [], hold := .none, out := [], nodes := [], roots := [] }
      have hpoison : s.toBox.poison sl st.toNat e.toNat c.toNat = s.toBox.putSlot sl z := by
        rw [Box.poison, hslot]
      obtain ⟨hthree, hint, r, o, hbox⟩ := twinStatus_shows (s.toBox.putSlot sl z) (.inr rfl) (k := 5) (by decide)
      have hthird : s.toBox.thirdDone st.toNat e.toNat c.toNat faulty = _ :=
        (thirdDone_threeWay hslot hparts faulty hhold hne htwin).trans ((congrArg Box.threeWay hpoison).trans hbox)
      rw [hbox] at hthree hint
      refine ⟨_, z, next_onBox (actRun_run s (fun b => b.thirdDone st.toNat e.toNat c.toNat faulty) hrun) hthird, ?_, rfl, rfl, rfl,
        hthree, hint, rfl⟩
      exact slotOf_replaced hslot rfl rfl rfl
  · obtain ⟨hwe, hwc⟩ : w.epoch = e.toNat ∧ w.chunk = c.toNat := by simpa using List.find?_some hw
    have hpost : s.toBox.twinComplete st.toNat e.toNat c.toNat faulty = s.toBox.twinPost st.toNat w
        (faulty.getD (payloadsOf (s.recompute st.toNat r c.toNat (partsOf c.toNat r.kept)))) := by
      unfold Box.twinComplete
      dsimp only
      rw [hnone]
      dsimp only
      rw [hw, hr]
      exact if_pos hkept
    have hagreed := hpost.trans (twinPost_agrees (by rw [hwe]; exact hr) (by rw [hwc]; exact hagree))
    let d := s.toBox.setSx st.toNat { s.sx st.toNat with twins := (s.sx st.toNat).twins.filter (· ≠ w) }
    obtain ⟨hctr, rg, o, cs, hcount⟩ := count_shows d carPage 2
    obtain ⟨htwins, x, hdrop⟩ := dropOld_shows (d.count carPage 2) st.toNat
    rw [hcount] at htwins hdrop hctr
    refine ⟨_, next_onBox (actRun_run s (fun b => b.twinComplete st.toNat e.toNat c.toNat faulty) hrun)
      (hagreed.trans ((congrArg (Box.dropOld · st.toNat) hcount).trans hdrop)), hctr, ?_, rfl⟩
    rw [hdrop] at htwins
    exact htwins.trans (congrArg StreamX.twins (mapGet_mapSet_same ..))
  · have hput := watchExpire_quiet hquiet hquar hsub
    refine ⟨_, next_onBox (actRun_run s (fun b => b.watchExpire sl.toNat) hrun) hput, ?_, rfl, put_sameWords s.toBox { CAR_WATCH_WATCH (sl.toNat / 32) with lo := sl.toNat % 32, width := 1 } false,
      fun k hk => ?_⟩
    · exact is_put s.toBox { CAR_WATCH_WATCH (sl.toNat / 32) with lo := sl.toNat % 32, width := 1 } false
        (show sl.toNat % 32 + 1 ≤ 32 by omega) (show 0 < 1 by decide)
    · exact watched_put s.toBox (fun h => hk (BitVec.eq_of_toNat_eq h)) false

end Sys2Proof.Proofs
end

section
/-! # The signature of the newest seal record (R211) -/

namespace Sys2Proof.Proofs

open Sys2Proof Sys2Proof.Machine Sys2Proof.Safety Sys2Proof.Laws

/-- A running device that may sign, with an unsigned record of zeros at the start of the ring, where a block of memory cannot be
corrected. -/
def badRing : State :=
  { State.reset with
      regs := [(SEC_SEAL_CTRL_EN.addr, 2 ^ SEC_SEAL_CTRL_EN.lo), (SEC_SEAL_STATUS_KEY_READY.addr, 2 ^ SEC_SEAL_STATUS_KEY_READY.lo)]
      raw := 2 ^ 32
      badBlocks := [(0, memKey 0 0 0)]
      sealLast := some ⟨List.replicate 256 0, some 0⟩ }

theorem badRing_signs : badRing.maySign = true ∧ badRing.sealSigned + badRing.rd SEC_SEAL_CTRL_SIGN_TK ≤ badRing.raw
    ∧ leAt (List.replicate 256 (0 : Byte)) 2 2 < 2 ^ 15 := by decide +kernel

theorem badBlocks_onBox (s : State) (f : Box → Box) : (s.onBox f).badBlocks = (f s.toBox).badBlocks := rfl

/-- A write over an uncorrectable block makes it readable again. -/
theorem memWrite_badBlocks_nil {b : Box} {d t r off : Nat} (hbad : b.badBlocks = [(d, memKey t r off)]) {bs : List Byte}
    (h : 64 ≤ bs.length) : (b.memWrite t r off bs).badBlocks = [] := by
  show b.badBlocks.filter _ = []
  rw [hbad]
  simp [h]

/-- The signed record. -/
def signedRecord (b : Box) (bytes : List Byte) : List Byte :=
  b.sealBytes (bytesAt bytes 0 2 ++ bytesLE 2 (leAt bytes 2 2 + 2 ^ 15) ++ bytesAt bytes 4 156) true

theorem signedRecord_length (b : Box) (bytes : List Byte) : 64 ≤ (signedRecord b bytes).length := by
  have hbody (n i : Nat) : (bytesAt bytes i n).length = n := by simp [bytesAt]
  rw [signedRecord, Box.sealBytes, List.length_append, List.length_append, hbody 156]
  omega

/-- The newest record is signed where it lies in the ring. -/
theorem sealSign_ring {b : Box} {bytes : List Byte} {i : Nat} (hlast : b.sealLast = some ⟨bytes, some i⟩) (hmay : b.maySign = true)
    (hdue : b.sealSigned + b.rd SEC_SEAL_CTRL_SIGN_TK ≤ b.raw) (hunsigned : leAt bytes 2 2 < 2 ^ 15) :
    b.sealSign = Box.memWrite { b with sealLast := some ⟨signedRecord b bytes, some i⟩, sealSigned := b.raw } 0 0
      (256 * (i % max 1 b.sealCap)) (signedRecord b bytes) := by
  unfold Box.sealSign
  rw [hlast]
  exact if_pos ⟨hmay, hdue, hunsigned⟩

/-- Refutes O39: the signed record is written over a block of memory that could not be corrected, which then can be read: more
changes than the record, the instant, memory and the queue. -/
theorem not_retractionsAndSealsAreOrdered : ¬ Obligations.RetractionsAndSealsAreOrdered := by
  unfold Obligations.RetractionsAndSealsAreOrdered
  intro h
  obtain ⟨hmay, hdue, hunsigned⟩ := badRing_signs
  obtain ⟨-, hseal⟩ := h badRing .firmware 0 0
  obtain ⟨-, -, -, hsign⟩ := hseal rfl
  obtain ⟨t, ht, -, -, hbox⟩ := hsign ⟨List.replicate 256 0, some 0⟩ rfl hmay hdue hunsigned
  have hrun : t = badRing.onBox Box.sealSign := Host.Outcome.next.inj (ht.symm.trans (actRun_run badRing Box.sealSign rfl))
  have hkept : t.badBlocks = [(0, memKey 0 0 0)] := (congrArg (fun u : State => u.badBlocks) hbox).trans rfl
  have hhealed : t.badBlocks = [] := by
    rw [hrun, badBlocks_onBox, sealSign_ring rfl hmay hdue hunsigned, Nat.zero_mod, Nat.mul_zero]
    exact memWrite_badBlocks_nil (d := 0) rfl (signedRecord_length _ _)
  rw [hhealed] at hkept
  exact List.cons_ne_nil _ _ hkept.symm

end Sys2Proof.Proofs
end

section
/-! # The end of initialisation under a frame that can spill (R332, R105) -/

namespace Sys2Proof.Proofs

open Sys2Proof Sys2Proof.Machine Sys2Proof.Safety Sys2Proof.Laws

/-- A port far beyond the device: the pending bit of its page's interrupt vector is bit 5 of MEM_USABLE_MIB of tent 0. -/
def strayCalPort : Nat := 256 * 0xCC085

/-- A frame of VOQ 0 of tent 0. -/
def spillFrame (id n : Nat) : Desc :=
  { strayFrame with id := id, egress := 0, ncells := n, charge := .partition 0, trace := none }

/-- A device whose tent 0 is being initialised, with a spilling VOQ whose second frame may go to its first block; a gate list runs for
that port, and the vector of its page is masked. -/
def straySpill : State :=
  { State.reset with
      regs := [(USH_SPILL_CTRL_at 0, 2 ^ 8),
        (0xF20000 + 16 * pageVector (calPage (strayCalPort / 256)) + 12, 1),
        ((CAL_GL_STATUS_RUNNING strayCalPort).addr, 2 ^ (CAL_GL_STATUS_RUNNING strayCalPort).lo),
        ((CAL_GL_LEN_LEN strayCalPort 0).addr, 1),
        ((INT_EN_ALL (calPage (strayCalPort / 256))).addr, 2 ^ 4)]
      initing := [0]
      plans := [(7, 1)]
      spills := [(0, ⟨0, [], false⟩)]
      descs := [spillFrame 0 32, spillFrame 1 1] }

/-- The frame that goes to a block breaks the envelope of that port, and the interrupt sets the bit. -/
theorem straySpill_shows : usableMib ([2 * 0, 2 * 0 + 1].filter straySpill.devPresent).length = 132505
    ∧ (straySpill.toBox.memInitDone 0).rd (MEM_USABLE_MIB_MIB 0) = 132537 := by decide +kernel

/-- Refutes O14: as the initialised tent assigns a frame to a spill block, a gate list that runs for a port that is none has its
envelope broken, and the pending bit of that interrupt's vector is a bit of MEM_USABLE_MIB. -/
theorem not_memoryTrainsAndIsPlanned : ¬ Obligations.MemoryTrainsAndIsPlanned := by
  unfold Obligations.MemoryTrainsAndIsPlanned
  intro h
  obtain ⟨hrunning, -⟩ := h
  obtain ⟨-, -, hdone⟩ := hrunning straySpill rfl
  obtain ⟨u, hu, -, -, husable, -⟩ := hdone 0 (List.mem_singleton_self 0)
  obtain ⟨hdevices, husable'⟩ := straySpill_shows
  have hrun : u = straySpill.onBox fun b => b.memInitDone 0 :=
    Host.Outcome.next.inj (hu.symm.trans (actRun_run straySpill (fun b => b.memInitDone 0) rfl))
  have hcount : u.rd (MEM_USABLE_MIB_MIB 0) = 132505 := husable.trans hdevices
  rw [hrun, rd_onBox, husable'] at hcount
  exact absurd hcount (by decide)

end Sys2Proof.Proofs
end

section
/-! # Calibration of an engine (10_optics.md R295 to R297) -/

namespace Sys2Proof.Proofs

open Sys2Proof Sys2Proof.Machine Sys2Proof.Safety Sys2Proof.Laws

/-! ### Records of engines -/

theorem engine_setEngine (b : Box) (e : Nat) (x : Engine) : (b.setEngine e x).engine e = x := mapGet_mapSet_same ..

/-- A second record of an engine takes the place of the first. -/
theorem engine_of_engines {b c : Box} (h : c.engines = b.engines) (e : Nat) : c.engine e = b.engine e := by
  rw [Box.engine, Box.engine, h]

/-! ### The status word of an engine -/

/-- Two fields of SPT_XT_STATUS that share no bit. -/
theorem xtStatus_kept (b : Box) (v : Nat) {f g : Fld} (hf : f.lo + f.width ≤ 32) (h : g.lo + g.width ≤ f.lo ∨ f.lo + f.width ≤ g.lo) :
    (b.wr f v).is g = b.is g := is_wr_apart b v ⟨hf, .inr h⟩

theorem sptPage_lt {e : Nat} (he : e < 16) : sptPage (e / 2) < 2304 := (tentPage_lt (by omega) (by decide)).trans (by decide)

theorem xtStatus_body (e : Nat) : bodyWord (SPT_XT_STATUS_at e) := by
  refine .inl ?_
  rw [SPT_XT_STATUS_at]
  omega

/-! ### A calibration that is due -/

/-- A calibration that became due at `w` runs where nothing defers it, and waits else. -/
def calWaits (b : Box) (e w : Nat) (t : Box) : Prop :=
  if b.calBlocked e = false ∧ b.is (SPT_XT_STATUS_BUSY e) = false
  then t.is (SPT_XT_STATUS_BUSY e) = true ∧ (t.engine e).due = none
  else t.is (SPT_XT_STATUS_BUSY e) = b.is (SPT_XT_STATUS_BUSY e) ∧ (t.engine e).due = some w

/-- The attempt changes the record of the engine and BUSY alone. -/
theorem calTry_shows (b : Box) {e w : Nat} (hdue : (b.engine e).due = some w) : ∃ r n, b.calTry e = { b with regs := r, engines := n }
    ∧ calWaits b e w { b with regs := r, engines := n } ∧ sameWords [SPT_XT_STATUS_at e] b { b with regs := r, engines := n }
    ∧ (({ b with regs := r, engines := n } : Box).engine e).calSlot = (b.engine e).calSlot := by
  have hsome : (b.engine e).due.isSome = true := by rw [hdue]; rfl
  unfold calWaits
  by_cases hfree : b.calBlocked e = false ∧ b.is (SPT_XT_STATUS_BUSY e) = false
  · let c := b.setEngine e { b.engine e with due := none, calLost := false }
    have htry : b.calTry e = c.put (SPT_XT_STATUS_BUSY e) true := if_pos ⟨hsome, hfree⟩
    refine ⟨_, _, htry, ?_, put_sameWords c (SPT_XT_STATUS_BUSY e) true, ?_⟩
    · rw [if_pos hfree]
      exact ⟨is_put c (SPT_XT_STATUS_BUSY e) true (Nat.le_of_ble_eq_true rfl) Nat.one_pos, congrArg Engine.due (engine_setEngine ..)⟩
    · have hslot := congrArg Engine.calSlot (engine_setEngine b e { b.engine e with due := none, calLost := false })
      exact hslot
  · have htry : b.calTry e = b := if_neg fun h => hfree h.2
    refine ⟨b.regs, b.engines, htry, ?_, sameWords_refl _ _, rfl⟩
    rw [if_neg hfree]
    exact ⟨rfl, hdue⟩

/-- A calibration becomes due, and is attempted. -/
theorem calDue_shows (b : Box) (e : Nat) : ∃ r n, b.calDue e = { b with regs := r, engines := n }
    ∧ calWaits b e ((b.engine e).due.getD b.raw) { b with regs := r, engines := n }
    ∧ sameWords [SPT_XT_STATUS_at e] b { b with regs := r, engines := n }
    ∧ (({ b with regs := r, engines := n } : Box).engine e).calSlot = (b.engine e).calSlot := by
  let x : Engine := { b.engine e with due := some ((b.engine e).due.getD b.raw) }
  obtain ⟨r, n, htry, hwaits, hwords, hslot⟩ :=
    calTry_shows (b.setEngine e x) (e := e) (w := (b.engine e).due.getD b.raw) (congrArg Engine.due (engine_setEngine b e x))
  have hkept := congrArg Engine.calSlot (engine_setEngine b e x)
  exact ⟨r, n, htry, hwaits, hwords, hslot.trans hkept⟩

/-! ### The end of a calibration -/

/-- A failed calibration shows FAIL with SPT cause 3. -/
theorem calEnd_fails (b : Box) {e : Nat} (he : e < 16) {cal : CalResult} (hfail : b.calFails e cal = true) :
    onlyRegs b (b.calEnd e cal)
      ∧ (b.calEnd e cal).is (SPT_XT_STATUS_FAIL e) = true ∧ (b.calEnd e cal).is (pageFld (sptPage (e / 2)) 16 3 1) = true
      ∧ (b.calEnd e cal).is (SPT_XT_STATUS_BUSY e) = false
      ∧ sameWords (SPT_XT_STATUS_at e :: causeWords (sptPage (e / 2))) b (b.calEnd e cal) := by
  have hend : b.calEnd e cal = ((b.put (SPT_XT_STATUS_FAIL e) true).raiseInt (sptPage (e / 2)) 3).put (SPT_XT_STATUS_BUSY e) false :=
    if_pos hfail
  have hbody : SPT_XT_STATUS_at e ∉ causeWords (sptPage (e / 2)) := fun h => causeWords_not_body (sptPage_lt he) h (xtStatus_body e)
  have hset := is_put b (SPT_XT_STATUS_FAIL e) true (Nat.le_of_ble_eq_true rfl) Nat.one_pos
  rw [hend]
  refine ⟨onlyRegs_trans (onlyRegs_trans (wr_onlyRegs _ _ _) (raiseInt_onlyRegs _ _ _)) (wr_onlyRegs _ _ _), ?_, ?_,
    is_put _ _ _ (Nat.le_of_ble_eq_true rfl) Nat.one_pos, ?_⟩
  · exact (xtStatus_kept _ _ (Nat.le_of_ble_eq_true rfl) (.inr (Nat.le_of_ble_eq_true rfl))).trans ((is_raiseInt _ _ _ hbody).trans hset)
  · refine (is_put_apart _ false ⟨Nat.le_of_ble_eq_true rfl, .inl fun h => ?_⟩).trans ?_
    · have hmem : (pageFld (sptPage (e / 2)) 16 3 1).addr ∈ causeWords (sptPage (e / 2)) := List.mem_cons_self
      exact hbody (show (SPT_XT_STATUS_BUSY e).addr ∈ causeWords (sptPage (e / 2)) from h ▸ hmem)
    · rw [is_raiseInt_cause _ (sptPage_lt he) (by decide), decide_eq_true rfl, Bool.or_true]
  · refine sameWords_trans (sameWords_trans (sameWords_mono (put_sameWords b (SPT_XT_STATUS_FAIL e) true) ?_)
      (sameWords_mono (raiseInt_sameWords _ _ _) fun a ha => List.mem_cons_of_mem _ ha))
      (sameWords_mono (put_sameWords _ (SPT_XT_STATUS_BUSY e) false) ?_)
    all_goals exact fun a ha => List.mem_singleton.mp ha ▸ List.mem_cons_self

/-- The words of the staging rows. -/
abbrev stagingWord (a : Nat) : Prop := 0xAC000 ≤ a % 0x1000000 ∧ a % 0x1000000 < 0xB0000

/-- The staging rows are written, and nothing else. -/
theorem calRows_shows (b : Box) (e : Nat) (cal : CalResult) : (∃ r, b.calRows e cal = { b with regs := r, freeCtr := b.freeCtr + 1440 })
    ∧ sameOn (fun a => ¬ stagingWord a) b (b.calRows e cal) := by
  let c : Box := { b with freeCtr := b.freeCtr + 1440 }
  have hrows : (∃ r, b.calRows e cal = { c with regs := r }) ∧ sameOn (fun a => ¬ stagingWord a) c (b.calRows e cal) := by
    let R (s t : Box) : Prop := (∃ r, t = { s with regs := r }) ∧ sameOn (fun a => ¬ stagingWord a) s t
    have hrefl (s : Box) : R s s := ⟨⟨s.regs, rfl⟩, sameOn_refl _ s⟩
    have htrans {s t u : Box} (h : R s t) (k : R t u) : R s u := by
      obtain ⟨⟨_, rfl⟩, hw⟩ := h
      obtain ⟨⟨_, rfl⟩, kw⟩ := k
      exact ⟨⟨_, rfl⟩, sameOn_trans hw kw⟩
    refine foldl_rel (R := R) hrefl htrans (List.range 160) (fun x i hi => ?_) c
    refine foldl_rel (R := R) hrefl htrans (List.range 9) (fun y d hd => ?_) x
    dsimp only
    split
    · exact hrefl y
    · refine ⟨⟨_, rfl⟩, wr_sameOn y _ fun h => h ?_⟩
      have hi := List.mem_range.mp hi
      have hd := List.mem_range.mp hd
      show stagingWord (0x1000000 * (e / 2 + 1) + 0xAC000 + 4 * (1024 * (e % 2) + 5 * i + d / 2))
      have hrow : e % 2 < 2 ∧ d / 2 < 5 := by omega
      unfold stagingWord
      generalize e / 2 + 1 = t, e % 2 = m, d / 2 = k at hrow ⊢
      omega
  obtain ⟨⟨r, hr⟩, hwords⟩ := hrows
  exact ⟨⟨r, hr⟩, hwords⟩

/-- A good calibration before its matrix is put to use: the couplings in the engine's record, ROWDIFF, DONE and no FAIL. -/
def calShown (b : Box) (e : Nat) (x : Engine) (v : Nat) : Box :=
  (((b.setEngine e x).wr (SPT_XT_STATUS_ROWDIFF e) v).put (SPT_XT_STATUS_DONE e) true).put (SPT_XT_STATUS_FAIL e) false

theorem calShown_status (b : Box) (e : Nat) (x : Engine) (v : Nat) :
    (calShown b e x v).is (SPT_XT_STATUS_DONE e) = true ∧ (calShown b e x v).is (SPT_XT_STATUS_FAIL e) = false
      ∧ (calShown b e x v).rd (SPT_XT_STATUS_ROWDIFF e) = v % 2 ^ 16
      ∧ (calShown b e x v).is (SPT_XT_CTRL_AUTO e) = b.is (SPT_XT_CTRL_AUTO e) := by
  refine ⟨?_, is_put _ _ _ (Nat.le_of_ble_eq_true rfl) Nat.one_pos, ?_, ?_⟩
  · exact (xtStatus_kept _ _ (Nat.le_of_ble_eq_true rfl) (.inl (Nat.le_of_ble_eq_true rfl))).trans
      (is_put _ (SPT_XT_STATUS_DONE e) true (Nat.le_of_ble_eq_true rfl) Nat.one_pos)
  · refine (rd_put_apart _ _ ⟨Nat.le_of_ble_eq_true rfl, .inr (.inr (Nat.le_of_ble_eq_true rfl))⟩).trans ?_
    refine (rd_put_apart _ _ ⟨Nat.le_of_ble_eq_true rfl, .inr (.inr (Nat.le_of_ble_eq_true rfl))⟩).trans ?_
    exact rd_wr _ (SPT_XT_STATUS_ROWDIFF e) v (Nat.le_of_ble_eq_true rfl)
  · have hwords : sameWords [SPT_XT_STATUS_at e] b (calShown b e x v) :=
      sameWords_trans (sameWords_trans (wr_sameWords (b.setEngine e x) (SPT_XT_STATUS_ROWDIFF e) v)
        (put_sameWords _ (SPT_XT_STATUS_DONE e) true)) (put_sameWords _ (SPT_XT_STATUS_FAIL e) false)
    refine is_of_sameWords hwords fun h => ?_
    have haddr : SPT_XT_CTRL_at e = SPT_XT_STATUS_at e := List.mem_singleton.mp h
    unfold SPT_XT_CTRL_at SPT_XT_STATUS_at at haddr
    omega

theorem calShown_engine (b : Box) (e : Nat) (x : Engine) (v : Nat) : (calShown b e x v).engine e = x := engine_setEngine b e x

theorem calEnd_eq (b : Box) (e : Nat) {cal : CalResult} (hok : b.calFails e cal = false) {rows : Box} (hrows : b.calRows e cal = rows) :
    ∃ x v c, x = { rows.engine e with couple := b.couplings e cal } ∧ v = b.rowDiff e cal ∧ c = calShown rows e x v
      ∧ b.calEnd e cal = if c.is (SPT_XT_CTRL_AUTO e) then c.setEngine e { c.engine e with commit := true }
        else c.put (SPT_XT_STATUS_BUSY e) false := by
  subst hrows
  exact ⟨_, _, _, rfl, rfl, rfl, if_neg (ne_true_of_eq_false hok)⟩

/-- A calibration that ends well changes registers, the records of engines and the 1,440 free values that it takes. -/
def calFrame (b c : Box) : Prop := ∃ r n, c = { b with regs := r, engines := n, freeCtr := b.freeCtr + 1440 }

theorem calFrame_setEngine {b c : Box} (h : calFrame b c) (e : Nat) (x : Engine) : calFrame b (c.setEngine e x) := by
  obtain ⟨_, _, rfl⟩ := h
  exact ⟨_, _, rfl⟩

theorem calFrame_wr {b c : Box} (h : calFrame b c) (f : Fld) (v : Nat) : calFrame b (c.wr f v) := by
  obtain ⟨_, _, rfl⟩ := h
  exact ⟨_, _, rfl⟩

/-- A calibration that ends well writes the staging rows, its couplings and the status; with AUTO the matrix waits for the next cycle. -/
theorem calEnd_done (b : Box) (e : Nat) {cal : CalResult} (hok : b.calFails e cal = false) :
    calFrame b (b.calEnd e cal)
      ∧ (b.calEnd e cal).is (SPT_XT_STATUS_DONE e) = true ∧ (b.calEnd e cal).is (SPT_XT_STATUS_FAIL e) = false
      ∧ (if b.is (SPT_XT_CTRL_AUTO e) = true then ((b.calEnd e cal).engine e).commit = true
          else (b.calEnd e cal).is (SPT_XT_STATUS_BUSY e) = false)
      ∧ (b.calEnd e cal).rd (SPT_XT_STATUS_ROWDIFF e) = b.rowDiff e cal % 2 ^ 16
      ∧ ((b.calEnd e cal).engine e).couple = b.couplings e cal := by
  obtain ⟨⟨r, hrows⟩, hkept⟩ := calRows_shows b e cal
  have hauto : (b.calRows e cal).is (SPT_XT_CTRL_AUTO e) = b.is (SPT_XT_CTRL_AUTO e) := by
    refine is_of_sameOn hkept fun h => ?_
    obtain ⟨hlo, -⟩ : stagingWord (0x1000000 * (e / 2 + 1) + 0xA014C + 64 * (e % 2)) := h
    omega
  generalize hrw : b.calRows e cal = rows at hrows hkept hauto
  obtain ⟨x, v, c, hx, hv, hc, hend⟩ := calEnd_eq b e hok hrw
  obtain ⟨hdone, hfail, hdiff, hctrl⟩ := calShown_status rows e x v
  have hengine := calShown_engine rows e x v
  have hcouple : x.couple = b.couplings e cal := by rw [hx]
  have hframe : calFrame b (calShown rows e x v) :=
    calFrame_wr (calFrame_wr (calFrame_wr (calFrame_setEngine (hrows ▸ ⟨_, _, rfl⟩) e x) _ _) _ _) _ _
  rw [← hc] at hdone hfail hdiff hctrl hengine hframe
  rw [hv] at hdiff
  clear hc
  rw [hend]
  have hon : c.is (SPT_XT_CTRL_AUTO e) = b.is (SPT_XT_CTRL_AUTO e) := hctrl.trans hauto
  cases h : b.is (SPT_XT_CTRL_AUTO e) with
  | true =>
    rw [if_pos (hon.trans h), if_pos rfl]
    have hset := engine_setEngine c e { c.engine e with commit := true }
    refine ⟨calFrame_setEngine hframe _ _, hdone, hfail, congrArg Engine.commit hset, hdiff, ?_⟩
    · rw [hset]
      exact (congrArg Engine.couple hengine).trans hcouple
  | false =>
    rw [if_neg (ne_true_of_eq_false (hon.trans h)), if_neg Bool.false_ne_true]
    refine ⟨calFrame_wr hframe _ _, ?_, ?_, is_put _ _ _ (Nat.le_of_ble_eq_true rfl) Nat.one_pos, ?_,
      (congrArg Engine.couple hengine).trans hcouple⟩
    · exact (xtStatus_kept _ _ (Nat.le_of_ble_eq_true rfl) (.inr (Nat.le_of_ble_eq_true rfl))).trans hdone
    · exact (xtStatus_kept _ _ (Nat.le_of_ble_eq_true rfl) (.inr (Nat.le_of_ble_eq_true rfl))).trans hfail
    · exact (rd_put_apart _ _ ⟨Nat.le_of_ble_eq_true rfl, .inr (.inr (Nat.le_of_ble_eq_true rfl))⟩).trans hdiff

end Sys2Proof.Proofs
end

section
/-! # Bringing an engine up (10_optics.md R296, R301, R319) -/

namespace Sys2Proof.Proofs

open Sys2Proof Sys2Proof.Machine Sys2Proof.Safety Sys2Proof.Laws

/-! ### A search of a microring -/

/-- What a change of a microring's state may touch. -/
def ringFrame (s t : Box) : Prop := ∃ r p g, t = { s with regs := r, ports := p, rings := g }

theorem ringFrame_refl (s : Box) : ringFrame s s := ⟨_, _, _, rfl⟩

theorem ringFrame_trans {s t u : Box} (h : ringFrame s t) (k : ringFrame t u) : ringFrame s u := by
  obtain ⟨_, _, _, rfl⟩ := h
  obtain ⟨_, _, _, rfl⟩ := k
  exact ⟨_, _, _, rfl⟩

theorem ringFrame_wr {s t : Box} (h : ringFrame s t) (f : Fld) (v : Nat) : ringFrame s (t.wr f v) := by
  obtain ⟨_, _, _, rfl⟩ := h
  exact ⟨_, _, _, rfl⟩

/-- The words of the lasers and of the microrings of a tent. -/
abbrev opticsWord (a : Nat) : Prop := (0xA0200 ≤ a % 0x1000000 ∧ a % 0x1000000 < 0xA0400)
  ∨ (0xA8000 ≤ a % 0x1000000 ∧ a % 0x1000000 < 0xAC000)

/-- The causes of a partner's capability block show where one has come. -/
def trainShown (b : Box) (p : Nat) (x : Port) : Box := if x.peer = [] then b.setPort p x else (b.setPort p x).showCauses p

theorem trainShown_words (b : Box) (p : Nat) (x : Port) : ringFrame b (trainShown b p x) ∧ sameOn opticsWord b (trainShown b p x) := by
  have htrain : ¬ opticsWord (LNK_TRAIN_STATUS_at p) := by
    unfold LNK_TRAIN_STATUS_at opticsWord
    generalize p / 256 + 1 = t
    omega
  have hset : ringFrame b (b.setPort p x) ∧ sameOn opticsWord b (b.setPort p x) := ⟨⟨_, _, _, rfl⟩, sameOn_of_regs rfl⟩
  unfold trainShown
  split
  · exact hset
  · unfold Box.showCauses
    dsimp only
    exact ⟨⟨_, _, _, rfl⟩, sameOn_trans hset.2 (sameOn_trans (sameOn_trans (put_sameOn _ _ htrain) (put_sameOn _ _ htrain))
      (put_sameOn _ _ htrain))⟩

theorem trainStart_eq (b : Box) (p : Nat) : b.trainStart p = b
    ∨ ∃ x y, b.trainStart p
      = (((trainShown b p x).setPort p y).put (LNK_PORT_STATUS_TRAINING p) true).wr (LNK_TRAIN_STATUS_STEP p) 1 := by
  unfold Box.trainStart
  split
  · exact .inr ⟨_, _, rfl⟩
  · exact .inl rfl

theorem trainStart_words (b : Box) (p : Nat) : ringFrame b (b.trainStart p) ∧ sameOn opticsWord b (b.trainStart p) := by
  have hstatus : ¬ opticsWord (LNK_PORT_STATUS_TRAINING p).addr := by
    show ¬ opticsWord (LNK_PORT_STATUS_at p)
    unfold LNK_PORT_STATUS_at opticsWord
    generalize p / 256 + 1 = t
    omega
  have htrain : ¬ opticsWord (LNK_TRAIN_STATUS_STEP p).addr := by
    show ¬ opticsWord (LNK_TRAIN_STATUS_at p)
    unfold LNK_TRAIN_STATUS_at opticsWord
    generalize p / 256 + 1 = t
    omega
  rcases trainStart_eq b p with h | ⟨x, y, h⟩
  · rw [h]
    exact ⟨ringFrame_refl b, sameOn_refl _ b⟩
  · have hshown := trainShown_words b p x
    rw [h]
    exact ⟨ringFrame_trans hshown.1 ⟨_, _, _, rfl⟩, sameOn_trans hshown.2
      (sameOn_trans (sameOn_trans (sameOn_of_regs rfl) (put_sameOn _ true hstatus)) (wr_sameOn _ 1 htrain))⟩

theorem ringState_optics (e : Nat) {i : Nat} (hi : i < 320) : opticsWord (ringState e i).addr := by
  show opticsWord (0x1000000 * (e / 2 + 1) + 0xA8000 + 4 * (512 * (e % 2) + i))
  unfold opticsWord
  generalize e / 2 + 1 = t
  omega

/-- A microring's state is set, and no other word of a laser or a microring is. -/
theorem ringTo_words (b : Box) (e i : Nat) {v : Nat} (hv : v < 8) : ringFrame b (b.ringTo e i v)
    ∧ (opticsWord (ringState e i).addr → (b.ringTo e i v).rd (ringState e i) = v)
    ∧ sameOn (fun a => opticsWord a ∧ a ≠ (ringState e i).addr) b (b.ringTo e i v) := by
  let c := (((b.wr (ringState e i) v).ringLevels e).pairReady (32 * e + i % 160 / 5))
  have hlevels : sameOn opticsWord (b.wr (ringState e i) v) c := by
    have hheat : ¬ opticsWord (SPT_HEAT_STATUS_at e) := by
      unfold SPT_HEAT_STATUS_at opticsWord
      generalize e / 2 + 1 = t
      omega
    have hready (g : Nat) : ¬ opticsWord (SPT_FP_READY_at g) := by
      unfold SPT_FP_READY_at opticsWord
      generalize g / 2 + 1 = t
      omega
    exact sameOn_trans (sameOn_trans (put_sameOn _ _ hheat) (put_sameOn _ _ hheat)) (put_sameOn _ _ (hready _))
  have hframe : ringFrame b c := ⟨_, _, _, rfl⟩
  have hports : ringFrame c (b.ringTo e i v) ∧ sameOn opticsWord c (b.ringTo e i v) := by
    refine foldl_rel (R := fun s t => ringFrame s t ∧ sameOn opticsWord s t) (fun s => ⟨ringFrame_refl s, sameOn_refl _ s⟩)
      (fun h k => ⟨ringFrame_trans h.1 k.1, sameOn_trans h.2 k.2⟩) _ (fun s p _ => trainStart_words s p) c
  have hwords := sameOn_trans hlevels hports.2
  refine ⟨ringFrame_trans hframe hports.1, fun hin => ?_, fun a ha => ?_⟩
  · exact (rd_of_sameOn hwords hin).trans (rd_wr_lt b (Nat.le_of_ble_eq_true rfl) hv)
  · exact (hwords a ha.1).trans (wr_sameWords b (ringState e i) v a (by simpa using ha.2))

theorem ringSearch_words (b : Box) (e i : Nat) : ringFrame b (b.ringSearch e i)
    ∧ (opticsWord (ringState e i).addr → (b.ringSearch e i).rd (ringState e i) = 1)
    ∧ sameOn (fun a => opticsWord a ∧ a ≠ (ringState e i).addr) b (b.ringSearch e i) := by
  obtain ⟨c, hc, hsearch, hframe⟩ : ∃ c : Box, sameWords [(ringState e i).addr] b c ∧ b.ringSearch e i = c.ringTo e i 1 ∧ ringFrame b c :=
    ⟨_, wr_sameWords (b.setRing e i _) (SPT_RING_HEAT (e / 2) (512 * (e % 2) + i)) 0, rfl, ⟨_, _, _, rfl⟩⟩
  obtain ⟨hto, hset, hwords⟩ := ringTo_words c e i (v := 1) (by decide)
  rw [hsearch]
  exact ⟨ringFrame_trans hframe hto, hset, fun a ha => (hwords a ha).trans (hc a (by simpa using ha.2))⟩

/-! ### The continuity check -/

/-- What one element of a list establishes of a state that meets an invariant, and every element keeps, the fold has. -/
theorem foldl_establishes {α β : Type} {I P : β → Prop} {f : β → α → β} {l : List α} {x : α} (hx : x ∈ l)
    (hkeep : ∀ b, ∀ y ∈ l, I b → I (f b y)) (hkept : ∀ b, ∀ y ∈ l, P b → P (f b y)) (hset : ∀ b, I b → P (f b x)) (b : β) (hb : I b) :
    P (l.foldl f b) := by
  induction l generalizing b with
  | nil => cases hx
  | cons y l ih =>
    have htail : ∀ c, P c → P (l.foldl f c) := fun c hc =>
      List.foldlRecOn (motive := P) l f hc fun d hd z hz => hkept d z (List.mem_cons_of_mem _ hz) hd
    rcases List.mem_cons.mp hx with rfl | hmem
    · exact htail _ (hset b hb)
    · exact ih hmem (fun c z hz => hkeep c z (List.mem_cons_of_mem _ hz)) (fun c z hz => hkept c z (List.mem_cons_of_mem _ hz)) _
        (hkeep b y List.mem_cons_self hb)

/-- Setting the lasers is all on their bus. -/
theorem setLasers_shows (b : Box) (e : Nat) (down : Int) : ∃ o, b.setLasers e down = { b with outbox := o ++ b.outbox } := by
  refine foldl_rel (R := fun s t : Box => ∃ o, t = { s with outbox := o ++ s.outbox }) (fun s => ⟨[], rfl⟩) ?_ (b.litLasers e)
    (fun s n _ => ⟨[_], rfl⟩) b
  rintro s t u ⟨o, rfl⟩ ⟨o', rfl⟩
  exact ⟨o' ++ o, by rw [List.append_assoc]⟩

theorem laserState_addr (e n : Nat) : (laserState e (n / 7) (n % 7)).addr
    = 0x1000000 * (e / 2 + 1) + 0xA0200 + 4 * (8 * (4 * (e % 2) + n / 7) + n % 7) := rfl

/-- What the ramp to NOM makes of one laser. -/
def rampLaser (e : Nat) (b : Box) (n : Nat) : Box :=
  if b.rd (laserState e (n / 7) (n % 7)) = 0 then b.wr (laserState e (n / 7) (n % 7)) (if n % 7 < 5 then 1 else 6) else b

theorem rampLaser_frame (e : Nat) (b : Box) (n : Nat) : onlyRegs b (rampLaser e b n) := by
  unfold rampLaser
  split
  · exact wr_onlyRegs ..
  · exact onlyRegs_refl b

theorem rampLaser_other (e : Nat) (b : Box) {m n : Nat} (h : m ≠ n) :
    (rampLaser e b n).rd (laserState e (m / 7) (m % 7)) = b.rd (laserState e (m / 7) (m % 7)) := by
  unfold rampLaser
  split
  · refine rd_wr_word b _ _ _ fun haddr => h ?_
    rw [laserState_addr, laserState_addr] at haddr
    omega
  · rfl

/-- An absent laser ramps up as active, or idle where it is a spare. -/
theorem rampLasers_state (b : Box) {e q k : Nat} (hq : q < 4) (hk : k < 7) (habsent : b.rd (laserState e q k) = 0) :
    ((List.range 28).foldl (rampLaser e) b).rd (laserState e q k) = if k < 5 then 1 else 6 := by
  obtain ⟨m, hm, rfl, rfl⟩ : ∃ m < 28, m / 7 = q ∧ m % 7 = k := ⟨7 * q + k, by omega, by omega, by omega⟩
  generalize hv : (if m % 7 < 5 then 1 else 6) = v
  have hv8 : v < 8 ∧ v ≠ 0 := by
    subst hv
    split <;> decide
  have hset (c : Box) (h : c.rd (laserState e (m / 7) (m % 7)) = 0) : (rampLaser e c m).rd (laserState e (m / 7) (m % 7)) = v := by
    rw [rampLaser, if_pos h, hv]
    exact rd_wr_lt c (Nat.le_of_ble_eq_true rfl) hv8.1
  have hstay (c : Box) (h : c.rd (laserState e (m / 7) (m % 7)) = v) : (rampLaser e c m).rd (laserState e (m / 7) (m % 7)) = v := by
    rw [rampLaser, if_neg (by rw [h]; exact hv8.2)]
    exact h
  have hstep (c : Box) (n : Nat) (h : c.rd (laserState e (m / 7) (m % 7)) = v) : (rampLaser e c n).rd (laserState e (m / 7) (m % 7)) = v := by
    by_cases hmn : m = n
    · exact hmn ▸ hstay c h
    · exact (rampLaser_other e c hmn).trans h
  refine foldl_establishes (I := fun c => c.rd (laserState e (m / 7) (m % 7)) = 0 ∨ c.rd (laserState e (m / 7) (m % 7)) = v)
    (P := fun c => c.rd (laserState e (m / 7) (m % 7)) = v) (List.mem_range.mpr hm) (fun c n _ h => ?_) (fun c n _ => hstep c n)
    (fun c h => h.elim (hset c) (hstay c)) b (.inl habsent)
  by_cases hmn : m = n
  · exact .inr (h.elim (hmn ▸ hset c) (hmn ▸ hstay c))
  · rw [rampLaser_other e c hmn]
    exact h

/-- The searches that follow the ramp. -/
def searchPairs (e : Nat) (on : Nat → Bool) (quar : Nat → Bool) (b : Box) : Box :=
  ((List.range 32).filter on).foldl (fun (b : Box) j =>
    ((List.range 5).filter fun k => !quar (5 * j + k)).foldl (fun b k => b.ringSearch e (5 * j + k)) b) b

/-- The searches leave the lasers and what is not about microrings and training. -/
theorem searchPairs_lasers (e : Nat) (on quar : Nat → Bool) (b : Box) : ringFrame b (searchPairs e on quar b)
    ∧ ∀ q k, q < 4 → k < 7 → (searchPairs e on quar b).rd (laserState e q k) = b.rd (laserState e q k) := by
  let R (s t : Box) : Prop := ringFrame s t ∧ ∀ q k, q < 4 → k < 7 → t.rd (laserState e q k) = s.rd (laserState e q k)
  have hrefl (s : Box) : R s s := ⟨ringFrame_refl s, fun _ _ _ _ => rfl⟩
  have htrans {s t u : Box} (h : R s t) (k : R t u) : R s u :=
    ⟨ringFrame_trans h.1 k.1, fun q l hq hl => (k.2 q l hq hl).trans (h.2 q l hq hl)⟩
  refine foldl_rel (R := R) hrefl htrans _ (fun s j _ => foldl_rel (R := R) hrefl htrans _ (fun t i _ => ?_) s) b
  obtain ⟨hframe, -, hwords⟩ := ringSearch_words t e (5 * j + i)
  refine ⟨hframe, fun q k hq hk => rd_of_sameOn hwords ?_⟩
  have haddr : (laserState e q k).addr = 0x1000000 * (e / 2 + 1) + 0xA0200 + 4 * (8 * (4 * (e % 2) + q) + k) := rfl
  have hring : (ringState e (5 * j + i)).addr = 0x1000000 * (e / 2 + 1) + 0xA8000 + 4 * (512 * (e % 2) + (5 * j + i)) := rfl
  have he : e % 2 < 2 := Nat.mod_lt _ (by decide)
  rw [haddr, hring]
  unfold opticsWord
  generalize e / 2 + 1 = x, e % 2 = y at he ⊢
  omega

/-- A search leaves a microring that is being searched as it is. -/
theorem ringSearch_keeps (b : Box) (e : Nat) {i m : Nat} (hi : i < 320) (h : b.rd (ringState e i) = 1) :
    (b.ringSearch e m).rd (ringState e i) = 1 := by
  obtain ⟨-, hset, hwords⟩ := ringSearch_words b e m
  by_cases him : i = m
  · exact him ▸ hset (him ▸ ringState_optics e hi)
  · refine (rd_of_sameOn hwords ⟨ringState_optics e hi, fun haddr => him ?_⟩).trans h
    have heq : 0x1000000 * (e / 2 + 1) + 0xA8000 + 4 * (512 * (e % 2) + i)
        = 0x1000000 * (e / 2 + 1) + 0xA8000 + 4 * (512 * (e % 2) + m) := haddr
    omega

theorem searchPairs_state (e : Nat) {on quar : Nat → Bool} (b : Box) {j k : Nat} (hj : j < 32) (hk : k < 5) (hon : on j = true)
    (hquar : quar (5 * j + k) = false) : (searchPairs e on quar b).rd (ringState e (5 * j + k)) = 1 := by
  have hring : 5 * j + k < 320 := by omega
  have hrow (c : Box) (i : Nat) (h : c.rd (ringState e (5 * j + k)) = 1) :
      (((List.range 5).filter fun k => !quar (5 * i + k)).foldl (fun b k => b.ringSearch e (5 * i + k)) c).rd (ringState e (5 * j + k)) = 1 :=
    List.foldlRecOn (motive := fun c : Box => c.rd (ringState e (5 * j + k)) = 1) _ _ h fun d hd l _ => ringSearch_keeps d e hring hd
  refine foldl_establishes (I := fun _ => True) (P := fun c : Box => c.rd (ringState e (5 * j + k)) = 1)
    (List.mem_filter.mpr ⟨List.mem_range.mpr hj, hon⟩) (fun _ _ _ _ => trivial) (fun c i _ => hrow c i) (fun c _ => ?_) b trivial
  have hmem : k ∈ (List.range 5).filter fun k => !quar (5 * j + k) := by
    refine List.mem_filter.mpr ⟨List.mem_range.mpr hk, ?_⟩
    rw [hquar]
    rfl
  refine foldl_establishes (I := fun _ => True) (P := fun c : Box => c.rd (ringState e (5 * j + k)) = 1) hmem (fun _ _ _ _ => trivial)
    (fun d l _ => ringSearch_keeps d e hring) (fun d _ => ?_) c trivial
  exact (ringSearch_words d e (5 * j + k)).2.1 (ringState_optics e hring)

end Sys2Proof.Proofs
end

section
/-! # Settling O53: calibration and bring-up of an engine (10_optics.md R295 to R297, R319) -/

namespace Sys2Proof.Proofs

open Sys2Proof Sys2Proof.Machine Sys2Proof.Safety Sys2Proof.Laws

/-! ### START -/

/-- START of an engine that is down: its record, and what goes out on its laser bus. -/
theorem engineStart_shows {b : Box} {src : Requester} {e : Nat} (hdown : ¬ (b.is (engReady e) = true ∨ (b.engine e).boot ≠ 0)) :
    ∃ o, b.engineStart src e
        = { b with engines := (b.setEngine e { b.engine e with boot := 1, bootAt := b.raw, elm := true }).engines, outbox := o }
      ∧ Out.elmEn e true ∈ o ∧ ((b.engine e).ready = false → Out.laserBus e 0 (.module true) ∈ o) := by
  let moved := if (b.engine e).ready then b else b.moduleMove e true
  obtain ⟨o₀, hmoved, hmodule⟩ : ∃ o₀, moved = { b with outbox := o₀ }
      ∧ ((b.engine e).ready = false → Out.laserBus e 0 (.module true) ∈ o₀) := by
    cases h : (b.engine e).ready with
    | true => exact ⟨b.outbox, if_pos h, fun h => nomatch h⟩
    | false => exact ⟨_, if_neg (ne_true_of_eq_false h), fun _ => List.mem_cons_self⟩
  let started := (moved.setEngine e { b.engine e with boot := 1, bootAt := b.raw, elm := true }).emit (.laserBus e 0 .vendor)
  obtain ⟨o₁, hset⟩ := setLasers_shows started e 1000
  have hstart : b.engineStart src e = (started.setLasers e 1000).emit (.elmEn e true) := if_neg hdown
  have hstarted : started = { b with engines := (b.setEngine e { b.engine e with boot := 1, bootAt := b.raw, elm := true }).engines,
                                     outbox := .laserBus e 0 .vendor :: o₀ } := by
    show Box.emit (Box.setEngine moved _ _) _ = _
    rw [hmoved]
    rfl
  rw [hstart, hset, hstarted]
  exact ⟨_, rfl, List.mem_cons_self,
    fun h => List.mem_cons_of_mem _ (List.mem_append_right _ (List.mem_cons_of_mem _ (hmodule h)))⟩

/-! ### The continuity check -/

/-- The check fails: ELM_EN falls and SPT cause 4 is raised. -/
theorem continuity_fails {b : Box} {e : Nat} (he : e < 16) {pwr : List Int} (hdue : ¬ ((b.engine e).boot ≠ 1 ∨ b.raw < (b.engine e).bootAt + 6400000))
    (hdark : (b.activeLasers e).all (b.litOk e pwr b.freeCtr) = false) :
    ((b.continuity e pwr).engine e).boot = 0 ∧ ((b.continuity e pwr).engine e).elm = false
      ∧ (b.continuity e pwr).is (pageFld (sptPage (e / 2)) 16 4 1) = true
      ∧ ∃ r o n, b.continuity e pwr = { b with regs := r, outbox := o, engines := n, freeCtr := b.freeCtr + 28 } := by
  obtain ⟨c, f, o, hcheck, hc⟩ : ∃ c f o, b.continuity e pwr = (c.put f true).raiseInt (sptPage (e / 2)) 4
      ∧ c = { b with engines := (b.setEngine e { b.engine e with boot := 0, elm := false }).engines, freeCtr := b.freeCtr + 28, outbox := o } := by
    unfold Box.continuity
    rw [if_neg hdue]
    exact ⟨_, _, _, if_pos hdark, rfl⟩
  obtain ⟨r, o', hregs⟩ := onlyRegs_trans (wr_onlyRegs c f true.toNat) (raiseInt_onlyRegs (c.put f true) (sptPage (e / 2)) 4)
  have hrec : c.engine e = { b.engine e with boot := 0, elm := false } := by
    rw [hc]
    exact engine_setEngine b e _
  have hset : (b.continuity e pwr).engine e = { b.engine e with boot := 0, elm := false } := by
    rw [hcheck, ← hrec]
    exact engine_of_engines (congrArg Box.engines hregs) e
  refine ⟨congrArg Engine.boot hset, congrArg Engine.elm hset, ?_, r, o', c.engines, ?_⟩
  · rw [hcheck, is_raiseInt_cause _ (sptPage_lt he) (by decide), decide_eq_true rfl, Bool.or_true]
  · rw [hcheck, hregs, hc]

/-- The check passes: the lasers ramp up and the microrings of enabled pairs are searched. -/
theorem continuity_passes {b : Box} {e : Nat} {pwr : List Int} (hdue : ¬ ((b.engine e).boot ≠ 1 ∨ b.raw < (b.engine e).bootAt + 6400000))
    (hlit : (b.activeLasers e).all (b.litOk e pwr b.freeCtr) = true) :
    ((b.continuity e pwr).engine e).boot = 2
      ∧ (∀ q k, q < 4 → k < 7 → b.rd (laserState e q k) = 0 → (b.continuity e pwr).rd (laserState e q k) = if k < 5 then 1 else 6)
      ∧ ∀ j k, j < 32 → k < 5 → b.pairEnabled (32 * e + j) = true → b.ringQuar e (5 * j + k) = false →
        (b.continuity e pwr).rd (ringState e (5 * j + k)) = 1 := by
  let c : Box := { b with freeCtr := b.freeCtr + 28 }
  let d := (c.setEngine e { b.engine e with boot := 2 }).setLasers e 0
  let lit := (List.range 28).foldl (rampLaser e) d
  have hcheck : b.continuity e pwr = searchPairs e (fun j => b.pairEnabled (32 * e + j)) (b.ringQuar e) lit := by
    unfold Box.continuity
    rw [if_neg hdue]
    exact if_neg (ne_false_of_eq_true hlit)
  obtain ⟨o, hd⟩ : ∃ o, d = { c.setEngine e { b.engine e with boot := 2 } with outbox := o } := ⟨_, (setLasers_shows _ e 0).choose_spec⟩
  obtain ⟨r, o', hramp⟩ : onlyRegs d lit := foldl_onlyRegs _ (fun s n _ => rampLaser_frame e s n) d
  obtain ⟨⟨r', p, g, hframe⟩, hlasers⟩ := searchPairs_lasers e (fun j => b.pairEnabled (32 * e + j)) (b.ringQuar e) lit
  have hengines : (b.continuity e pwr).engines = (c.setEngine e { b.engine e with boot := 2 }).engines := by
    rw [hcheck, hframe]
    show lit.engines = _
    rw [hramp]
    show d.engines = _
    rw [hd]
  refine ⟨(congrArg Engine.boot (engine_of_engines hengines e)).trans (congrArg Engine.boot (engine_setEngine c e _)),
    fun q k hq hk habsent => ?_, fun j k hj hk hon hquar => ?_⟩
  · rw [hcheck, hlasers q k hq hk]
    refine rampLasers_state d hq hk ?_
    rw [hd]
    exact habsent
  · rw [hcheck]
    exact searchPairs_state e lit hj hk hon hquar

/-! ### Steps 4 and 5 -/

theorem engReady_addr (e : Nat) : (engReady e).addr = SPT_STATUS_at (e / 2) ∧ (engReady e).width = 1 ∧ (engReady e).lo < 2 := by
  unfold engReady
  split
  · exact ⟨rfl, rfl, Nat.zero_lt_two⟩
  · exact ⟨rfl, rfl, Nat.one_lt_two⟩

/-- The microrings of enabled pairs are verified, so the matrix is calibrated. -/
theorem engineUp_eq {b : Box} {e : Nat} (cal : CalResult) (hboot : (b.engine e).boot = 2)
    (hlocked : ∀ j k, j < 32 → k < 5 → b.pairEnabled (32 * e + j) = true →
      b.rd (ringState e (5 * j + k)) = 3 ∨ b.rd (ringState e (5 * j + k)) = 5 ∨ b.ringQuar e (5 * j + k) = true) :
    b.engineUp e cal
      = let c := b.setEngine e { b.engine e with calLost := false }
        let d := (c.put (SPT_XT_STATUS_BUSY e) true).calEnd e cal
        if c.calFails e cal = false then
          ((d.setEngine e { d.engine e with boot := 0 }).put (engReady e) true).raiseInt (sptPage (e / 2)) 5
        else d := by
  refine if_neg fun h => h.elim (fun hne => hne hboot) fun hopen => ne_true_of_eq_false hopen ?_
  refine List.all_eq_true.mpr fun j hj => List.all_eq_true.mpr fun k hk => ?_
  obtain ⟨hrange, hon⟩ := List.mem_filter.mp hj
  rcases hlocked j k (List.mem_range.mp hrange) (List.mem_range.mp hk) hon with h | h | h
  · simp [h]
  · simp [h]
  · simp [h]

/-- BUSY and the free values say nothing of a calibration's failure. -/
theorem calFails_busy (b : Box) (e : Nat) (cal : CalResult) : (b.put (SPT_XT_STATUS_BUSY e) true).calFails e cal = b.calFails e cal := by
  have hout (i : Nat) : (b.put (SPT_XT_STATUS_BUSY e) true).calOut e i = b.calOut e i := by
    have hrd : (b.put (SPT_XT_STATUS_BUSY e) true).rd (ringState e i) = b.rd (ringState e i) := by
      refine rd_put_word b _ _ _ fun h => ?_
      have haddr : 0x1000000 * (e / 2 + 1) + 0xA8000 + 4 * (512 * (e % 2) + i) = 0x1000000 * (e / 2 + 1) + 0xA0150 + 64 * (e % 2) := h
      omega
    rw [Box.calOut, Box.calOut, hrd]
  have hpair : (b.put (SPT_XT_STATUS_BUSY e) true).calPair e = b.calPair e := by
    funext row i j
    rw [Box.calPair, Box.calPair, hout, hout]
  have hpairs : (b.put (SPT_XT_STATUS_BUSY e) true).calPairs e = b.calPairs e := by rw [Box.calPairs, Box.calPairs, hpair]
  rw [Box.calFails, Box.calFails, hpairs]
  rfl

/-- A calibration that ends well brings the engine to READY; one that fails leaves it as it is, with FAIL. -/
theorem engineUp_shows {b : Box} {e : Nat} (he : e < 16) (cal : CalResult) (hboot : (b.engine e).boot = 2)
    (hlocked : ∀ j k, j < 32 → k < 5 → b.pairEnabled (32 * e + j) = true →
      b.rd (ringState e (5 * j + k)) = 3 ∨ b.rd (ringState e (5 * j + k)) = 5 ∨ b.ringQuar e (5 * j + k) = true) :
    if (b.setEngine e { b.engine e with calLost := false }).calFails e cal = false
    then (b.engineUp e cal).is (engReady e) = true ∧ ((b.engineUp e cal).engine e).boot = 0
      ∧ (b.engineUp e cal).is (pageFld (sptPage (e / 2)) 16 5 1) = true
    else (b.engineUp e cal).is (engReady e) = b.is (engReady e) ∧ ((b.engineUp e cal).engine e).boot = 2
      ∧ (b.engineUp e cal).is (SPT_XT_STATUS_FAIL e) = true := by
  obtain ⟨haddr, hwidth, hlo⟩ := engReady_addr e
  have hup := engineUp_eq cal hboot hlocked
  have hrec := engine_setEngine b e { b.engine e with calLost := false }
  have hready : (b.setEngine e { b.engine e with calLost := false }).is (engReady e) = b.is (engReady e) := rfl
  generalize b.setEngine e { b.engine e with calLost := false } = c at hup hrec hready
  dsimp only at hup
  have hbusy := calFails_busy c e cal
  have hbody : bodyWord (engReady e).addr := by
    rw [haddr]
    refine .inl ?_
    rw [SPT_STATUS_at]
    omega
  cases hfails : c.calFails e cal with
  | false =>
    rw [hfails, if_pos rfl] at hup
    rw [if_pos rfl, hup]
    generalize (c.put (SPT_XT_STATUS_BUSY e) true).calEnd e cal = d
    have hset : ((d.setEngine e { d.engine e with boot := 0 }).put (engReady e) true).is (engReady e) = true :=
      is_put _ (engReady e) true (by omega) (by omega)
    refine ⟨(is_raiseInt _ _ _ fun h => causeWords_not_body (sptPage_lt he) h hbody).trans hset, ?_, ?_⟩
    · obtain ⟨r, o, hregs⟩ := raiseInt_onlyRegs ((d.setEngine e { d.engine e with boot := 0 }).put (engReady e) true) (sptPage (e / 2)) 5
      have hengines := (engine_of_engines (congrArg Box.engines hregs) e).trans (engine_setEngine d e { d.engine e with boot := 0 })
      exact congrArg Engine.boot hengines
    · rw [is_raiseInt_cause _ (sptPage_lt he) (by decide), decide_eq_true rfl, Bool.or_true]
  | true =>
    rw [hfails, if_neg Bool.false_ne_true.symm] at hup
    rw [if_neg Bool.false_ne_true.symm, hup]
    obtain ⟨⟨r, o, hregs⟩, hfail, -, -, hwords⟩ := calEnd_fails (c.put (SPT_XT_STATUS_BUSY e) true) he (hbusy.trans hfails)
    have hengine := engine_of_engines (congrArg Box.engines hregs) e
    refine ⟨?_, ?_, hfail⟩
    · refine (is_of_sameWords hwords fun h => ?_).trans ((is_put_apart _ true ⟨Nat.le_of_ble_eq_true rfl, .inl ?_⟩).trans hready)
      · rcases List.mem_cons.mp h with h | h
        · rw [haddr, SPT_STATUS_at, SPT_XT_STATUS_at] at h
          omega
        · exact causeWords_not_body (sptPage_lt he) h hbody
      · rw [haddr]
        show SPT_STATUS_at (e / 2) ≠ SPT_XT_STATUS_at e
        rw [SPT_STATUS_at, SPT_XT_STATUS_at]
        omega
    · exact (congrArg Engine.boot hengine).trans ((congrArg Engine.boot hrec).trans hboot)

/-! ### O53 -/

section
variable {s : State} (e : EngIx)

theorem spt_wordPage {off : Nat} (hoff : off < 0x10000) : wordPage (0x1000000 * (e.toNat / 2 + 1) + 0x10000 * 0x0A + off) = sptPage (e.toNat / 2) :=
  wordPage_tentPage (by have := e.isLt; have : e.toNat < 16 := e.isLt; omega) (by decide) hoff

/-- While BUSY neither a calibration nor a COMMIT is taken. -/
theorem exec_cal_busy {src : Requester} (htake : takesWrite s src (SPT_XT_CTRL_at e.toNat)) (hbusy : s.is (SPT_XT_STATUS_BUSY e.toNat) = true) :
    ∃ t, exec (.xtCal src e) s = .next t ∧ exec (.xtCommit src e) s = .next t
      ∧ t.is (PAGE_ERR_ACCERR (sptPage (e.toNat / 2))) = true ∧ t = { s with regs := t.regs, outbox := t.outbox }
      ∧ sameWords (errorWords (sptPage (e.toNat / 2))) s.toBox t.toBox := by
  obtain ⟨hrun, hreach, hready⟩ := htake
  have hpage : wordPage (SPT_XT_CTRL_at e.toNat) = sptPage (e.toNat / 2) :=
    (congrArg wordPage (by rw [SPT_XT_CTRL_at]; omega)).trans (spt_wordPage e (off := 0x14C + 64 * (e.toNat % 2)) (by omega))
  obtain ⟨t, ht, hacc, hframe, hwords⟩ := exec_accErr (actReg_run s _ _ _ hrun hreach hready : exec (.xtCal src e) s = _)
    (if_pos hbusy) (hpage ▸ sptPage_lt e.isLt)
  have hcommit := next_onBox (actReg_run s _ _ _ hrun hreach hready : exec (.xtCommit src e) s = _) (if_pos hbusy)
  have hcal := next_onBox (actReg_run s _ _ _ hrun hreach hready : exec (.xtCal src e) s = _) (if_pos hbusy)
  rw [hpage] at hacc hwords
  exact ⟨t, ht, hcommit.trans (hcal.symm.trans ht), hacc, hframe, hwords⟩

/-- XT_CAL runs or waits, and COMMIT is BUSY. -/
theorem exec_cal_idle {src : Requester} (htake : takesWrite s src (SPT_XT_CTRL_at e.toNat)) (hidle : s.is (SPT_XT_STATUS_BUSY e.toNat) = false) :
    (∃ t, exec (.xtCal src e) s = .next t ∧ calWaits s.toBox e.toNat ((s.engine e.toNat).due.getD s.raw) t.toBox
      ∧ t = { s with regs := t.regs, engines := t.engines } ∧ sameWords [SPT_XT_STATUS_at e.toNat] s.toBox t.toBox)
    ∧ ∃ t, exec (.xtCommit src e) s = .next t ∧ (t.engine e.toNat).commit = true ∧ t.is (SPT_XT_STATUS_BUSY e.toNat) = true
      ∧ t = { s with regs := t.regs, engines := t.engines } ∧ sameWords [SPT_XT_STATUS_at e.toNat] s.toBox t.toBox := by
  obtain ⟨hrun, hreach, hready⟩ := htake
  constructor
  · obtain ⟨r, n, hdue, hwaits, hwords, -⟩ := calDue_shows s.toBox e.toNat
    exact ⟨_, next_onBox (actReg_run s _ _ _ hrun hreach hready) ((if_neg (ne_true_of_eq_false hidle)).trans hdue), hwaits, rfl, hwords⟩
  · let c := s.toBox.setEngine e.toNat { s.engine e.toNat with commit := true }
    have hcommit := congrArg Engine.commit (engine_setEngine s.toBox e.toNat { s.engine e.toNat with commit := true })
    exact ⟨_, next_onBox (actReg_run s _ _ _ hrun hreach hready) (if_neg (ne_true_of_eq_false hidle)), hcommit,
      is_put c _ true (Nat.le_of_ble_eq_true rfl) Nat.one_pos, rfl, put_sameWords c (SPT_XT_STATUS_BUSY e.toNat) true⟩

theorem exec_engineStart {src : Requester} (htake : takesWrite s src (SPT_CTRL_at (e.toNat / 2))) :
    if s.is (engReady e.toNat) = true ∨ (s.engine e.toNat).boot ≠ 0
    then ∃ t, exec (.engineStart src e) s = .next t ∧ t.is (PAGE_ERR_ACCERR (sptPage (e.toNat / 2))) = true
      ∧ t = { s with regs := t.regs, outbox := t.outbox } ∧ sameWords (errorWords (sptPage (e.toNat / 2))) s.toBox t.toBox
    else ∃ t, exec (.engineStart src e) s = .next t ∧ Out.elmEn e.toNat true ∈ t.outbox
      ∧ ((s.engine e.toNat).ready = false → Out.laserBus e.toNat 0 (.module true) ∈ t.outbox)
      ∧ t = { s with engines := (s.setEngine e.toNat { s.engine e.toNat with boot := 1, bootAt := s.raw, elm := true }).engines,
                     outbox := t.outbox } := by
  obtain ⟨hrun, hreach, hready⟩ := htake
  split
  next hup =>
    have hpage : wordPage (SPT_CTRL_at (e.toNat / 2)) = sptPage (e.toNat / 2) := spt_wordPage e (off := 0x100) (by decide)
    have herr := exec_accErr (actReg_run s _ _ _ hrun hreach hready : exec (.engineStart src e) s = _) (if_pos hup) (hpage ▸ sptPage_lt e.isLt)
    rw [hpage] at herr
    exact herr
  next hdown =>
    obtain ⟨o, hstart, helm, hmodule⟩ := engineStart_shows (src := src) hdown
    exact ⟨_, next_onBox (actReg_run s _ _ _ hrun hreach hready) hstart, helm, hmodule, rfl⟩

theorem exec_calTimer (hrun : s.phase = .run) (hauto : s.is (SPT_XT_CTRL_AUTO e.toNat) = true) (hinst : s.calInstant e.toNat ≤ s.raw) :
    ∃ t, exec (.xtCalTimer e) s = .next t ∧ calWaits s.toBox e.toNat ((s.engine e.toNat).due.getD s.raw) t.toBox
      ∧ (t.engine e.toNat).calSlot = (s.engine e.toNat).calSlot + 1
      ∧ t = { s with regs := t.regs, engines := t.engines } ∧ sameWords [SPT_XT_STATUS_at e.toNat] s.toBox t.toBox := by
  obtain ⟨r, n, hdue, hwaits, hwords, hslot⟩ :=
    calDue_shows (s.toBox.setEngine e.toNat { s.engine e.toNat with calSlot := (s.engine e.toNat).calSlot + 1 }) e.toNat
  have hset := engine_setEngine s.toBox e.toNat { s.engine e.toNat with calSlot := (s.engine e.toNat).calSlot + 1 }
  have hwas := congrArg (fun x : Engine => x.due.getD s.raw) hset
  exact ⟨_, next_onBox (actRun_run s _ hrun) ((if_pos ⟨hauto, hinst⟩).trans hdue), hwas ▸ hwaits,
    hslot.trans (congrArg Engine.calSlot hset), rfl, hwords⟩

theorem exec_deferredStart (hrun : s.phase = .run) {w : Nat} (hdue : (s.engine e.toNat).due = some w) :
    ∃ t, exec (.xtCalDeferredStart e) s = .next t ∧ calWaits s.toBox e.toNat w t.toBox
      ∧ t = { s with regs := t.regs, engines := t.engines } ∧ sameWords [SPT_XT_STATUS_at e.toNat] s.toBox t.toBox := by
  obtain ⟨r, n, htry, hwaits, hwords, -⟩ := calTry_shows s.toBox hdue
  exact ⟨_, next_onBox (actRun_run s _ hrun) htry, hwaits, rfl, hwords⟩

theorem exec_deferred (hrun : s.phase = .run) {w : Nat} (hdue : (s.engine e.toNat).due = some w) :
    ∃ t, exec (.calibrationDeferred e) s = .next t ∧ t = { s with regs := t.regs }
      ∧ (w + 640000000 ≤ s.raw → t.is (SPT_XT_STATUS_DEFERRED e.toNat) = true)
      ∧ (s.raw < w + 640000000 → t = s) ∧ sameWords [SPT_XT_STATUS_at e.toNat] s.toBox t.toBox := by
  have hact := actRun_run s (fun b => match (b.engine e.toNat).due with
    | some t => if t + 640000000 ≤ b.raw then b.put (SPT_XT_STATUS_DEFERRED e.toNat) true else b
    | none => b) hrun
  have hcmd : (match (s.engine e.toNat).due with
      | some t => if t + 640000000 ≤ s.raw then s.toBox.put (SPT_XT_STATUS_DEFERRED e.toNat) true else s.toBox
      | none => s.toBox)
      = if w + 640000000 ≤ s.raw then s.toBox.put (SPT_XT_STATUS_DEFERRED e.toNat) true else s.toBox := by rw [hdue]
  by_cases hlong : w + 640000000 ≤ s.raw
  · rw [if_pos hlong] at hcmd
    exact ⟨_, next_onBox hact hcmd, rfl, fun _ => is_put s.toBox _ true (Nat.le_of_ble_eq_true rfl) Nat.one_pos,
      fun h => absurd hlong (Nat.not_le.mpr h), put_sameWords s.toBox (SPT_XT_STATUS_DEFERRED e.toNat) true⟩
  · rw [if_neg hlong] at hcmd
    exact ⟨_, next_onBox hact hcmd, rfl, fun h => absurd h hlong, fun _ => rfl, sameWords_refl _ _⟩

theorem exec_calDone (hrun : s.phase = .run) (cal : CalResult) (hbusy : s.is (SPT_XT_STATUS_BUSY e.toNat) = true)
    (hopen : (s.engine e.toNat).commit = false) : ∃ t, exec (.xtCalDone e cal) s = .next t
      ∧ if s.calFails e.toNat cal = false
        then t.is (SPT_XT_STATUS_DONE e.toNat) = true ∧ t.is (SPT_XT_STATUS_FAIL e.toNat) = false
          ∧ (if s.is (SPT_XT_CTRL_AUTO e.toNat) = true then (t.engine e.toNat).commit = true else t.is (SPT_XT_STATUS_BUSY e.toNat) = false)
          ∧ t.rd (SPT_XT_STATUS_ROWDIFF e.toNat) = s.rowDiff e.toNat cal % 2 ^ 16 ∧ (t.engine e.toNat).couple = s.couplings e.toNat cal
          ∧ t = { s with regs := t.regs, engines := t.engines, freeCtr := s.freeCtr + 1440 }
        else t.is (SPT_XT_STATUS_FAIL e.toNat) = true ∧ t.is (pageFld (sptPage (e.toNat / 2)) 16 3 1) = true
          ∧ t.is (SPT_XT_STATUS_BUSY e.toNat) = false ∧ t = { s with regs := t.regs, outbox := t.outbox }
          ∧ sameWords (SPT_XT_STATUS_at e.toNat :: causeWords (sptPage (e.toNat / 2))) s.toBox t.toBox := by
  have hact := actRun_run s (fun b => if b.is (SPT_XT_STATUS_BUSY e.toNat) = true ∧ (b.engine e.toNat).commit = false
    then b.calEnd e.toNat cal else b) hrun
  have hcmd : (if s.is (SPT_XT_STATUS_BUSY e.toNat) = true ∧ (s.engine e.toNat).commit = false
      then s.toBox.calEnd e.toNat cal else s.toBox) = s.toBox.calEnd e.toNat cal := if_pos ⟨hbusy, hopen⟩
  cases hfails : s.calFails e.toNat cal with
  | false =>
    obtain ⟨⟨r, n, hframe⟩, hdone, hfail, hauto, hdiff, hcouple⟩ := calEnd_done s.toBox e.toNat hfails
    rw [hframe] at hdone hfail hauto hdiff hcouple
    exact ⟨_, next_onBox hact (hcmd.trans hframe), hdone, hfail, hauto, hdiff, hcouple, rfl⟩
  | true =>
    obtain ⟨⟨r, o, hframe⟩, hfail, hcause, hidle, hwords⟩ := calEnd_fails s.toBox e.isLt hfails
    rw [hframe] at hfail hcause hidle hwords
    exact ⟨_, next_onBox hact (hcmd.trans hframe), hfail, hcause, hidle, rfl, hwords⟩

theorem exec_continuity (hrun : s.phase = .run) (pwr : List Int) (hboot : (s.engine e.toNat).boot = 1)
    (hinst : (s.engine e.toNat).bootAt + 6400000 ≤ s.raw) : ∃ t, exec (.engineContinuityCheck e pwr) s = .next t
      ∧ if (s.activeLasers e.toNat).all (s.litOk e.toNat pwr s.freeCtr) = true
        then (t.engine e.toNat).boot = 2 ∧ (∀ q k, q < 4 → k < 7 → s.rd (laserState e.toNat q k) = 0 →
            t.rd (laserState e.toNat q k) = if k < 5 then 1 else 6)
          ∧ ∀ j k, j < 32 → k < 5 → s.pairEnabled (32 * e.toNat + j) = true → s.ringQuar e.toNat (5 * j + k) = false →
            t.rd (ringState e.toNat (5 * j + k)) = 1
        else (t.engine e.toNat).boot = 0 ∧ (t.engine e.toNat).elm = false ∧ t.is (pageFld (sptPage (e.toNat / 2)) 16 4 1) = true
          ∧ t = { s with regs := t.regs, outbox := t.outbox, engines := t.engines, freeCtr := s.freeCtr + 28 } := by
  have hdue : ¬ ((s.engine e.toNat).boot ≠ 1 ∨ s.raw < (s.engine e.toNat).bootAt + 6400000) :=
    fun h => h.elim (fun hne => hne hboot) (Nat.not_lt.mpr hinst)
  have hact : exec (.engineContinuityCheck e pwr) s = .next (s.onBox fun b => b.continuity e.toNat pwr) := actRun_run s _ hrun
  cases hlit : (s.activeLasers e.toNat).all (s.litOk e.toNat pwr s.freeCtr) with
  | true => exact ⟨_, hact, continuity_passes hdue hlit⟩
  | false =>
    obtain ⟨hdown, helm, hcause, r, o, n, hframe⟩ := continuity_fails e.isLt hdue hlit
    rw [hframe] at hdown helm hcause
    exact ⟨_, next_onBox hact hframe, hdown, helm, hcause, rfl⟩

end

/-- Settles O53: a calibration starts or waits, shows its end, and the three steps of bring-up, each by what its command shows. -/
theorem enginesCalibrateAndComeUp : Obligations.EnginesCalibrateAndComeUp := by
  unfold Obligations.EnginesCalibrateAndComeUp
  intro s e src
  refine ⟨fun htake => ⟨exec_cal_busy e htake, exec_cal_idle e htake⟩, exec_engineStart e, fun hrun => ?_⟩
  refine ⟨exec_calTimer e hrun, fun hno => ?_, fun w hdue => ⟨exec_deferredStart e hrun hdue, exec_deferred e hrun hdue⟩,
    exec_calDone e hrun, exec_continuity e hrun, fun cal hboot hlocked => ?_⟩
  · refine next_onBox (actRun_run s _ hrun) (if_neg fun h => ?_)
    exact hno.elim (fun hoff => ne_true_of_eq_false hoff h.1) fun hlate => Nat.not_lt.mpr h.2 hlate
  · exact ⟨_, actRun_run s _ hrun, engineUp_shows e.isLt cal hboot hlocked⟩

end Sys2Proof.Proofs
end

section
/-! # Refresh slots, and the temperature of a memory device (11_memory.md R336, R337, R339) -/

namespace Sys2Proof.Proofs

open Sys2Proof Sys2Proof.Machine Sys2Proof.Safety Sys2Proof.Laws

theorem memPage_lt (t : TentIx) : memPage t.toNat < 2304 := (tentPage_lt t.isLt (by decide)).trans (by decide)

/-- A word of the page's own registers. -/
theorem mem_body {t a : Nat} (hlo : 0x1000000 * (t + 1) + 0xC0100 ≤ a) (hhi : a < 0x1000000 * (t + 1) + 0xC1100) : bodyWord a := by
  refine .inl ⟨?_, ?_, ?_⟩
  all_goals omega

/-! ### Counters -/

theorem bump_ctr_add (b : Box) (p : Page) (i n : Nat) : (b.bump p i n).ctr p i = b.ctr p i + BitVec.ofNat 64 n := by
  rw [ctr_bump, BitVec.ofNat_add, BitVec.ofNat_toNat, BitVec.setWidth_eq]

/-- The counters of a refresh slot: two counts and the corrected errors. -/
def refreshCounted (b : Box) (pg : Page) (port : Nat) (w : RefreshWork) : Box :=
  ((b.count pg (5 * port + 2)).bump pg (5 * port + 3) w.stalls).bump pg (5 * port) w.corr

theorem refreshCounted_onlyRegsCtrs (b : Box) (pg : Page) (port : Nat) (w : RefreshWork) : onlyRegsCtrs b (refreshCounted b pg port w) :=
  onlyRegsCtrs_trans (onlyRegsCtrs_trans (bump_onlyRegsCtrs _ _ _ _) (bump_onlyRegsCtrs _ _ _ _)) (bump_onlyRegsCtrs _ _ _ _)

/-- A counter that is not one of the port's is as before. -/
theorem refreshCounted_other (b : Box) (pg : Page) (port : Nat) (w : RefreshWork) {p i : Nat}
    (h0 : p * 4096 + i ≠ pg * 4096 + 5 * port) (h2 : p * 4096 + i ≠ pg * 4096 + (5 * port + 2))
    (h3 : p * 4096 + i ≠ pg * 4096 + (5 * port + 3)) : (refreshCounted b pg port w).ctr p i = b.ctr p i :=
  ((ctr_bump_other _ _ _ _ _ _ h0).trans (ctr_bump_other _ _ _ _ _ _ h3)).trans (ctr_bump_other _ _ _ _ _ _ h2)

theorem refreshCounted_ctr (b : Box) (pg : Page) (port : Nat) (w : RefreshWork) :
    (refreshCounted b pg port w).ctr pg (5 * port) = b.ctr pg (5 * port) + BitVec.ofNat 64 w.corr
      ∧ (refreshCounted b pg port w).ctr pg (5 * port + 2) = b.ctr pg (5 * port + 2) + 1
      ∧ (refreshCounted b pg port w).ctr pg (5 * port + 3) = b.ctr pg (5 * port + 3) + BitVec.ofNat 64 w.stalls := by
  have hne {i j : Nat} (h : i ≠ j) : pg * 4096 + i ≠ pg * 4096 + j := fun heq => h (Nat.add_left_cancel heq)
  have h02 := hne (show 5 * port ≠ 5 * port + 2 by omega)
  have h03 := hne (show 5 * port ≠ 5 * port + 3 by omega)
  have h23 := hne (show 5 * port + 2 ≠ 5 * port + 3 by omega)
  refine ⟨?_, ?_, ?_⟩
  · exact (bump_ctr_add _ _ _ _).trans (congrArg (· + _) ((ctr_bump_other _ _ _ _ _ _ h03).trans (ctr_bump_other _ _ _ _ _ _ h02)))
  · exact (ctr_bump_other _ _ _ _ _ _ h02.symm).trans ((ctr_bump_other _ _ _ _ _ _ h23).trans (count_ctr_succ b pg (5 * port + 2)))
  · exact (ctr_bump_other _ _ _ _ _ _ h03.symm).trans ((bump_ctr_add _ _ _ _).trans (congrArg (· + _)
      (ctr_bump_other _ _ _ _ _ _ h23.symm)))

/-! ### Row sparing -/

/-- What the sparing of a row touches. -/
def spareFrame (b c : Box) : Prop := ∃ r o k sp, c = { b with regs := r, outbox := o, ctrs := k, spares := sp }

theorem spareFrame_trans {b c d : Box} (h : spareFrame b c) (k : spareFrame c d) : spareFrame b d := by
  obtain ⟨_, _, _, _, rfl⟩ := h
  obtain ⟨_, _, _, _, rfl⟩ := k
  exact ⟨_, _, _, _, rfl⟩

theorem spareFrame_of_onlyRegsCtrs {b c : Box} (h : onlyRegsCtrs b c) : spareFrame b c := by
  obtain ⟨_, _, _, rfl⟩ := h
  exact ⟨_, _, _, _, rfl⟩

/-- A free spare row of the row's bank, or the memory error interrupt. -/
theorem spareRow_eq (b : Box) (t port row : Nat) (poison : Bool) : b.spareRow t port row poison = b.memError t
    ∨ ∃ sp, b.spareRow t port row poison = (({ b with spares := sp } : Box).count (memPage t) (5 * port + 4)).spareFree t (port / 4) := by
  unfold Box.spareRow
  cases b.spareSlot t port row with
  | none => exact .inl rfl
  | some i => exact .inr ⟨_, rfl⟩

theorem spareRow_frame (b : Box) (t port row : Nat) (poison : Bool) : spareFrame b (b.spareRow t port row poison) := by
  rcases spareRow_eq b t port row poison with h | ⟨sp, h⟩
  · rw [h]
    exact spareFrame_of_onlyRegsCtrs (raiseInt_onlyRegs b _ _).toCtrs
  · rw [h]
    exact spareFrame_trans ⟨_, _, _, sp, rfl⟩ (spareFrame_of_onlyRegsCtrs
      (onlyRegsCtrs_trans (bump_onlyRegsCtrs _ _ _ _) (wr_onlyRegs _ _ _).toCtrs))

/-- The sparing of a row counts in MEM_SPARED alone. -/
theorem spareRow_ctr (b : Box) (t port row : Nat) (poison : Bool) {p i : Nat} (h : p * 4096 + i ≠ memPage t * 4096 + (5 * port + 4)) :
    (b.spareRow t port row poison).ctr p i = b.ctr p i := by
  rcases spareRow_eq b t port row poison with hrow | ⟨sp, hrow⟩
  · rw [hrow]
    exact ctr_of_onlyRegs (raiseInt_onlyRegs b _ _) p i
  · rw [hrow]
    exact ctr_bump_other _ _ _ _ _ _ h

/-- A cause that is shown stays shown as another one is raised. -/
theorem raiseInt_cause_kept (b : Box) {p q : Nat} (hp : p < 2304) (hq : q < 2304) {j k : Nat} (hj : j < 32)
    (h : b.is (pageFld p 16 k 1) = true) : (b.raiseInt q j).is (pageFld p 16 k 1) = true := by
  by_cases hpq : p = q
  · subst hpq
    rw [is_raiseInt_cause b hp hj, h, Bool.true_or]
  · refine (is_raiseInt _ _ _ fun hmem => ?_).trans h
    have hmod := pageBase_mod p
    have hvector := pageVector_lt hq
    rcases List.mem_cons.mp hmem with haddr | haddr
    · have hbase : pageBase p + 16 = pageBase q + 16 := haddr
      have hpages := (wordPage_pageBase hp (off := 16) (by decide)).symm.trans ((congrArg wordPage hbase).trans (wordPage_pageBase hq (by decide)))
      exact hpq hpages
    · have hword : pageBase p + 16 = 0xF28000 + 4 * (pageVector q / 32) := List.mem_singleton.mp haddr
      omega

/-- Counting leaves a cause of a page shown. -/
theorem bump_cause_kept (b : Box) {p q : Nat} (hp : p < 2304) (hq : q < 2304) {i : Nat} (hi : i < 4096) (n : Nat) {k : Nat}
    (h : b.is (pageFld p 16 k 1) = true) : (b.bump q i n).is (pageFld p 16 k 1) = true := by
  unfold Box.bump
  dsimp only
  split
  · refine raiseInt_cause_kept _ hp hq (by decide) ((is_put_apart _ true ⟨?_, .inl ?_⟩).trans h)
    · show i % 32 + 1 ≤ 32
      omega
    · show pageBase p + 16 ≠ pageBase q + (0x1100 + 4 * (i / 32))
      have hmod := pageBase_mod p
      have hmod' := pageBase_mod q
      omega
  · exact h

/-- It leaves a memory error shown. -/
theorem spareRow_cause (b : Box) (t : TentIx) {port : Nat} (hport : port < 8) (row : Nat) (poison : Bool)
    (h : b.is (pageFld (memPage t.toNat) 16 0 1) = true) :
    (b.spareRow t.toNat port row poison).is (pageFld (memPage t.toNat) 16 0 1) = true := by
  rcases spareRow_eq b t.toNat port row poison with hrow | ⟨sp, hrow⟩
  · rw [hrow, Box.memError, is_raiseInt_cause _ (memPage_lt t) (by decide), decide_eq_true rfl, Bool.or_true]
  · rw [hrow]
    refine (is_of_sameWords (wr_sameWords _ (MEM_DEV_STATUS_SPARE_FREE t.toNat (port / 4)) _) fun hmem => ?_).trans
      (bump_cause_kept { b with spares := sp } (memPage_lt t) (memPage_lt t) (i := 5 * port + 4) (by omega) 1 h)
    have haddr : pageBase (memPage t.toNat) + 16 = 0x1000000 * (t.toNat + 1) + 0xC0110 + 4 * (port / 4) := List.mem_singleton.mp hmem
    rw [show pageBase (memPage t.toNat) = 0x1000000 * (t.toNat + 1) + 0x10000 * 0x0C from pageBase_tentPage t.isLt (by decide)] at haddr
    omega

/-- The row's sparing after an uncorrectable error of a slot. -/
def refreshSpared (b : Box) (t port row : Nat) (w : RefreshWork) : Box :=
  (((refreshCounted b (memPage t) port w).bump (memPage t) (5 * port + 1) w.uncorr).memError t).spareRow t port row true

theorem refreshSlot_uncorr {b : Box} {t port row : Nat} {w : RefreshWork} (hready : b.devState (2 * t + port / 4) = 2) (hbad : w.uncorr ≠ 0) :
    b.refreshSlot t port row w = w.held.foldl (fun b x => b.itemLost (2 * t + port / 4) x) (refreshSpared b t port row w) :=
  (if_neg fun h => h hready).trans (if_pos hbad)

theorem refreshSpared_frame (b : Box) (t port row : Nat) (w : RefreshWork) : spareFrame b (refreshSpared b t port row w) :=
  spareFrame_trans (spareFrame_of_onlyRegsCtrs (onlyRegsCtrs_trans (onlyRegsCtrs_trans (refreshCounted_onlyRegsCtrs b _ port w)
    (bump_onlyRegsCtrs _ _ _ _)) (raiseInt_onlyRegs _ _ _).toCtrs)) (spareRow_frame _ _ _ _ _)

theorem refreshSpared_shows (b : Box) (t : TentIx) {port : Nat} (hport : port < 8) (row : Nat) (w : RefreshWork) :
    (refreshSpared b t.toNat port row w).ctr (memPage t.toNat) (5 * port) = b.ctr (memPage t.toNat) (5 * port) + BitVec.ofNat 64 w.corr
      ∧ (refreshSpared b t.toNat port row w).ctr (memPage t.toNat) (5 * port + 1)
        = b.ctr (memPage t.toNat) (5 * port + 1) + BitVec.ofNat 64 w.uncorr
      ∧ (refreshSpared b t.toNat port row w).is (pageFld (memPage t.toNat) 16 0 1) = true := by
  have hne {i j : Nat} (h : i ≠ j) : memPage t.toNat * 4096 + i ≠ memPage t.toNat * 4096 + j := fun heq => h (Nat.add_left_cancel heq)
  let c := refreshCounted b (memPage t.toNat) port w
  have hspared (i : Nat) (h : i ≠ 5 * port + 4) : (refreshSpared b t.toNat port row w).ctr (memPage t.toNat) i
      = (c.bump (memPage t.toNat) (5 * port + 1) w.uncorr).ctr (memPage t.toNat) i :=
    (spareRow_ctr _ _ _ _ _ (hne h)).trans (ctr_of_onlyRegs (raiseInt_onlyRegs _ _ _) _ _)
  refine ⟨?_, ?_, ?_⟩
  · refine (hspared _ (by omega)).trans ((ctr_bump_other _ _ _ _ _ _ (hne (by omega))).trans (refreshCounted_ctr b _ port w).1)
  · refine (hspared _ (by omega)).trans ((bump_ctr_add _ _ _ _).trans (congrArg (· + _) ?_))
    exact refreshCounted_other b _ port w (hne (by omega)) (hne (by omega)) (hne (by omega))
  · refine spareRow_cause _ t hport row true ?_
    rw [Box.memError, is_raiseInt_cause _ (memPage_lt t) (by decide), decide_eq_true rfl, Bool.or_true]

/-! ### The clauses of O15 on a refresh slot and on the temperature -/

section
variable {s : State} (hrun : s.phase = .run)
include hrun

theorem exec_refresh_clean (t : TentIx) (port : Reg3) (row : BitVec 24) (hready : s.devState (2 * t.toNat + port.toNat / 4) = 2)
    (n : Nat) (held : List MemItem) : ∃ u, exec (.refreshSlot t port row ⟨0, 0, n, held⟩) s = .next u
      ∧ u.ctr (memPage t.toNat) (5 * port.toNat + 2) = s.ctr (memPage t.toNat) (5 * port.toNat + 2) + 1
      ∧ u.ctr (memPage t.toNat) (5 * port.toNat + 3) = s.ctr (memPage t.toNat) (5 * port.toNat + 3) + BitVec.ofNat 64 n
      ∧ (∀ p i, p * 4096 + i ∉ [2, 3].map (fun j => memPage t.toNat * 4096 + (5 * port.toNat + j)) → u.ctr p i = s.ctr p i)
      ∧ u = { s with regs := u.regs, ctrs := u.ctrs, outbox := u.outbox } := by
  let w : RefreshWork := ⟨0, 0, n, held⟩
  have hslot : s.toBox.refreshSlot t.toNat port.toNat row.toNat w = refreshCounted s.toBox (memPage t.toNat) port.toNat w :=
    if_neg fun h => h hready
  obtain ⟨hcorr, hcnt, hstall⟩ := refreshCounted_ctr s.toBox (memPage t.toNat) port.toNat w
  have hother : ∀ p i, p * 4096 + i ∉ [2, 3].map (fun j => memPage t.toNat * 4096 + (5 * port.toNat + j)) →
      (refreshCounted s.toBox (memPage t.toNat) port.toNat w).ctr p i = s.ctr p i := by
    intro p i hnot
    simp only [List.map_cons, List.map_nil, List.mem_cons, List.not_mem_nil, or_false, not_or] at hnot
    by_cases h0 : p * 4096 + i = memPage t.toNat * 4096 + 5 * port.toNat
    · have hsame : ∀ b : Box, b.ctr p i = b.ctr (memPage t.toNat) (5 * port.toNat) := fun b => by rw [Box.ctr, Box.ctr, h0]
      rw [hsame, hcorr, hsame s.toBox]
      exact BitVec.add_zero _
    · exact refreshCounted_other s.toBox _ _ w h0 hnot.1 hnot.2
  obtain ⟨r, o, c, hframe⟩ := refreshCounted_onlyRegsCtrs s.toBox (memPage t.toNat) port.toNat w
  rw [hframe] at hslot hcnt hstall hother
  exact ⟨_, next_onBox (actRun_run s _ hrun) hslot, hcnt, hstall, hother, rfl⟩

/-- A block that a slot could not correct stays uncorrectable. -/
theorem exec_refresh_block (t : TentIx) (port : Reg3) (row : BitVec 24) (hready : s.devState (2 * t.toNat + port.toNat / 4) = 2)
    (w : RefreshWork) (r off : Nat) (hbad : w.uncorr ≠ 0) (hheld : w.held = [.block r off]) :
    ∃ u, exec (.refreshSlot t port row w) s = .next u
      ∧ (2 * t.toNat + port.toNat / 4, memKey t.toNat r (off - off % 64)) ∈ u.badBlocks ∧ u.mem = s.mem := by
  obtain ⟨rg, o, k, sp, hframe⟩ := refreshSpared_frame s.toBox t.toNat port.toNat row.toNat w
  have hdev : (2 * t.toNat + port.toNat / 4) / 2 = t.toNat := by
    have : port.toNat < 8 := port.isLt
    omega
  have hslot := refreshSlot_uncorr (row := row.toNat) hready hbad
  rw [hheld, hframe] at hslot
  refine ⟨_, next_onBox (actRun_run s _ hrun) hslot, ?_, rfl⟩
  have hkey : (2 * t.toNat + port.toNat / 4, memKey ((2 * t.toNat + port.toNat / 4) / 2) r (off - off % 64))
      = (2 * t.toNat + port.toNat / 4, memKey t.toNat r (off - off % 64)) := by rw [hdev]
  exact hkey ▸ List.mem_cons_self

theorem exec_refresh_uncorr (t : TentIx) (port : Reg3) (row : BitVec 24) (hready : s.devState (2 * t.toNat + port.toNat / 4) = 2)
    (w : RefreshWork) (hbad : w.uncorr ≠ 0) (hheld : w.held = []) : ∃ u, exec (.refreshSlot t port row w) s = .next u
      ∧ u.ctr (memPage t.toNat) (5 * port.toNat) = s.ctr (memPage t.toNat) (5 * port.toNat) + BitVec.ofNat 64 w.corr
      ∧ u.ctr (memPage t.toNat) (5 * port.toNat + 1) = s.ctr (memPage t.toNat) (5 * port.toNat + 1) + BitVec.ofNat 64 w.uncorr
      ∧ u.is (pageFld (memPage t.toNat) 16 0 1) = true
      ∧ u = { s with regs := u.regs, ctrs := u.ctrs, outbox := u.outbox, spares := u.spares } := by
  have hslot := refreshSlot_uncorr (row := row.toNat) hready hbad
  rw [hheld] at hslot
  obtain ⟨hcorr, hother, hcause⟩ := refreshSpared_shows s.toBox t (port := port.toNat) port.isLt row.toNat w
  obtain ⟨rg, o, k, sp, hframe⟩ := refreshSpared_frame s.toBox t.toNat port.toNat row.toNat w
  rw [hframe] at hslot hcorr hother hcause
  exact ⟨_, next_onBox (actRun_run s _ hrun) hslot, hcorr, hother, hcause, rfl⟩

theorem exec_deviceHot (d : BitVec 4) (hot : Bool) : ∃ u, exec (.memDeviceHot d hot) s = .next u
    ∧ u.is (MEM_DEV_STATUS_HOT (d.toNat / 2) (d.toNat % 2)) = hot
    ∧ (hot = true → s.is (MEM_DEV_STATUS_HOT (d.toNat / 2) (d.toNat % 2)) = false → u.is (pageFld (memPage (d.toNat / 2)) 16 3 1) = true)
    ∧ u = { s with regs := u.regs, outbox := u.outbox }
    ∧ sameWords ((MEM_DEV_STATUS_HOT (d.toNat / 2) (d.toNat % 2)).addr :: causeWords (memPage (d.toNat / 2))) s.toBox u.toBox := by
  have hd : d.toNat / 2 < 8 := by
    have : d.toNat < 16 := d.isLt
    omega
  have hpage : memPage (d.toNat / 2) < 2304 := (tentPage_lt hd (by decide)).trans (by decide)
  let f := MEM_DEV_STATUS_HOT (d.toNat / 2) (d.toNat % 2)
  have hf : f.lo + f.width ≤ 32 := Nat.le_of_ble_eq_true rfl
  have hmem : bodyWord f.addr := by
    have haddr : f.addr = 0x1000000 * (d.toNat / 2 + 1) + 0xC0110 + 4 * (d.toNat % 2) := rfl
    exact mem_body (t := d.toNat / 2) (by omega) (by omega)
  have hbody : f.addr ∉ causeWords (memPage (d.toNat / 2)) := fun h => causeWords_not_body hpage h hmem
  by_cases hrise : hot = true ∧ s.is f = false
  · have hcmd : s.toBox.deviceHot d.toNat hot = (s.toBox.put f true).raiseInt (memPage (d.toNat / 2)) 3 := if_pos hrise
    have hset := (is_raiseInt (s.toBox.put f true) _ 3 hbody).trans (is_put s.toBox f true hf Nat.one_pos)
    have hcause := is_raiseInt_cause (s.toBox.put f true) hpage (k := 3) (i := 3) (by decide)
    have hwords := sameWords_trans (sameWords_mono (put_sameWords s.toBox f true) fun a ha => List.mem_singleton.mp ha ▸ List.mem_cons_self)
      (sameWords_mono (raiseInt_sameWords (s.toBox.put f true) (memPage (d.toNat / 2)) 3) fun a ha => List.mem_cons_of_mem f.addr ha)
    obtain ⟨r, o, hframe⟩ := onlyRegs_trans (put_onlyRegs s.toBox f true) (raiseInt_onlyRegs (s.toBox.put f true) (memPage (d.toNat / 2)) 3)
    rw [hframe] at hcmd hset hcause hwords
    exact ⟨_, next_onBox (actRun_run s _ hrun) hcmd, hset.trans hrise.1.symm, fun _ _ => hcause.trans (Bool.or_true _), rfl, hwords⟩
  · have hcmd : s.toBox.deviceHot d.toNat hot = s.toBox.put f hot := if_neg hrise
    exact ⟨_, next_onBox (actRun_run s _ hrun) hcmd, is_put s.toBox f hot hf Nat.one_pos, fun h h' => absurd ⟨h, h'⟩ hrise, rfl,
      sameWords_mono (put_sameWords s.toBox f hot) fun a ha => List.mem_singleton.mp ha ▸ List.mem_cons_self⟩

end

end Sys2Proof.Proofs
end

section
/-! # The host's window to memory (11_memory.md R334, R336, R344; 14_host_mgmt.md R412, R413) -/

namespace Sys2Proof.Proofs

open Sys2Proof Sys2Proof.Machine Sys2Proof.Safety Sys2Proof.Laws

/-- What reads that cannot be corrected touch. -/
def readFrame (b c : Box) : Prop := ∃ r o k sp n bad, c = { b with regs := r, outbox := o, ctrs := k, spares := sp, freeCtr := n, badBlocks := bad }

theorem readFrame_refl (b : Box) : readFrame b b := ⟨_, _, _, _, _, _, rfl⟩

theorem readFrame_trans {b c d : Box} (h : readFrame b c) (k : readFrame c d) : readFrame b d := by
  obtain ⟨_, _, _, _, _, _, rfl⟩ := h
  obtain ⟨_, _, _, _, _, _, rfl⟩ := k
  exact ⟨_, _, _, _, _, _, rfl⟩

theorem readFrame_of_spare {b c : Box} (h : spareFrame b c) : readFrame b c := by
  obtain ⟨_, _, _, _, rfl⟩ := h
  exact ⟨_, _, _, _, _, _, rfl⟩

theorem readUncorr_eq (b : Box) (t c r off : Nat) : ∃ port row, b.readUncorr t c r off
    = ((({ b with freeCtr := b.freeCtr + 1 } : Box).count (memPage t) (5 * port + 1)).memError t).spareRow t port row true := by
  unfold Box.readUncorr Box.takeFree
  dsimp only
  generalize (if mirrored r = false ∧ b.is (MEM_PLAN_STATUS_SINGLE t) = false then off / 1984 % 8 else 4 * c + _) = port
  exact ⟨port, _, rfl⟩

theorem readUncorr_frame (b : Box) (t c r off : Nat) : readFrame b (b.readUncorr t c r off) := by
  obtain ⟨port, row, hread⟩ := readUncorr_eq b t c r off
  let d : Box := { b with freeCtr := b.freeCtr + 1 }
  have hcounted : spareFrame d ((d.count (memPage t) (5 * port + 1)).memError t) :=
    spareFrame_of_onlyRegsCtrs (onlyRegsCtrs_trans (bump_onlyRegsCtrs _ _ _ _) (raiseInt_onlyRegs _ _ _).toCtrs)
  rw [hread]
  exact readFrame_trans ⟨_, _, _, _, b.freeCtr + 1, _, rfl⟩ (readFrame_of_spare (spareFrame_trans hcounted (spareRow_frame _ _ _ _ _)))

/-- A copy of a block that reads uncorrectable, as `bad` says or because the block is poisoned. -/
abbrev copyFails (b : Box) (bad t r off c : Nat) : Bool := bad.testBit c || b.badBlocks.contains (2 * t + c, memKey t r off)

/-- The copies that fail are counted, their rows spared and the block stays poisoned. -/
def copiesLost (b : Box) (t r off : Nat) (lost : List Nat) : Box :=
  lost.foldl (fun (b : Box) c => { b.readUncorr t c r off with
    badBlocks := (2 * t + c, memKey t r off) :: b.badBlocks.filter fun x => x != (2 * t + c, memKey t r off) }) b

theorem copiesLost_frame (b : Box) (t r off : Nat) (lost : List Nat) : readFrame b (copiesLost b t r off lost) :=
  foldl_rel readFrame_refl readFrame_trans lost
    (fun d c _ => readFrame_trans (readUncorr_frame d t c r off) ⟨_, _, _, _, _, _, rfl⟩) b

section
variable {b : Box} {dpa bad t r off : Nat} (hplace : b.winPlace (dpa - dpa % 64) = some (t, r, off)) (hin : off < b.regionBytes t r)
include hplace hin

theorem hostServe_eq : b.hostServe dpa bad
    = let lost := (b.holders t r off).filter (copyFails b bad t r off)
      let c := copiesLost b t r off lost
      if lost.length < (b.holders t r off).length then c.emit (.memData (dpa - dpa % 64) (c.memRead t r off 64) false)
      else (c.freeBytes 8).2.emit (.memData (dpa - dpa % 64) (if r = 0 then List.replicate 64 0 else (c.freeBytes 8).1) true) := by
  unfold Box.hostServe
  dsimp only
  rw [hplace]
  exact if_neg (Nat.not_le.mpr hin)

/-- A copy reads correctly. -/
theorem hostServe_good (hgood : (b.holders t r off).any (fun c => !copyFails b bad t r off c) = true) :
    b.hostServe dpa bad = (copiesLost b t r off ((b.holders t r off).filter (copyFails b bad t r off))).emit
      (.memData (dpa - dpa % 64) (b.memRead t r off 64) false) := by
  obtain ⟨x, hx, hok⟩ := List.any_eq_true.mp hgood
  have hshort : ((b.holders t r off).filter (copyFails b bad t r off)).length < (b.holders t r off).length := by
    refine List.length_filter_lt_length_iff_exists.mpr ⟨x, hx, fun h => ?_⟩
    rw [h] at hok
    exact Bool.false_ne_true hok
  have hread : (copiesLost b t r off ((b.holders t r off).filter (copyFails b bad t r off))).memRead t r off 64 = b.memRead t r off 64 := by
    obtain ⟨_, _, _, _, _, _, h⟩ := copiesLost_frame b t r off ((b.holders t r off).filter (copyFails b bad t r off))
    rw [h]
    rfl
  rw [hostServe_eq hplace hin]
  dsimp only
  rw [if_pos hshort, hread]

/-- No copy of a seal record's block reads correctly. -/
theorem hostServe_lost (hall : (b.holders t r off).all (copyFails b bad t r off) = true) (hr : r = 0) : ∃ c, readFrame b c
    ∧ b.hostServe dpa bad = c.emit (.memData (dpa - dpa % 64) (List.replicate 64 0) true) := by
  have hlost : (b.holders t r off).filter (copyFails b bad t r off) = b.holders t r off :=
    List.filter_eq_self.mpr fun x hx => List.all_eq_true.mp hall x hx
  rw [hostServe_eq hplace hin]
  dsimp only
  rw [hlost, if_neg (Nat.lt_irrefl _), if_pos hr]
  exact ⟨_, readFrame_trans (copiesLost_frame b t r off _) ⟨_, _, _, _, _, _, rfl⟩, rfl⟩

end

theorem hostServe_unmapped {b : Box} {dpa : Nat} (hplace : b.winPlace (dpa - dpa % 64) = none) (bad : Nat) :
    b.hostServe dpa bad = b.emit (.memData (dpa - dpa % 64) (List.replicate 64 0) false) := by
  unfold Box.hostServe
  dsimp only
  rw [hplace]

/-! ### The clauses of O15 on the host's window -/

section
variable {s : State} (hrun : s.phase = .run) (hreach : s.reaches .driver = true)
include hrun hreach

theorem exec_hostRead (dpa : BitVec 36) (bad : BitVec 2) : exec (.hostMemRead dpa bad) s = .next (s.onBox fun b =>
    if b.hostWaits dpa.toNat then { b with hostReads := b.hostReads ++ [(dpa.toNat, bad.toNat)] } else b.hostServe dpa.toNat bad.toNat) :=
  actHost_run s _ .driver hrun hreach

theorem exec_hostRead_unmapped (dpa : BitVec 36) (hplace : s.winPlace (dpa.toNat - dpa.toNat % 64) = none) (bad : BitVec 2) :
    exec (.hostMemRead dpa bad) s
      = .next { s with outbox := .memData (dpa.toNat - dpa.toNat % 64) (List.replicate 64 0) false :: s.outbox } := by
  have hgo : s.hostWaits dpa.toNat = false := by
    rw [Box.hostWaits, hplace]
  exact next_onBox (exec_hostRead hrun hreach dpa bad) ((if_neg (ne_true_of_eq_false hgo)).trans (hostServe_unmapped hplace bad.toNat))

theorem exec_hostRead_waits (dpa : BitVec 36) (hwait : s.hostWaits dpa.toNat = true) (bad : BitVec 2) :
    exec (.hostMemRead dpa bad) s = .next { s with hostReads := s.hostReads ++ [(dpa.toNat, bad.toNat)] } :=
  next_onBox (exec_hostRead hrun hreach dpa bad) (if_pos hwait)

theorem exec_hostWrite (dpa : BitVec 36) (data : List Byte) : ∃ u, exec (.hostMemWrite dpa data) s = .next u
    ∧ u.ctr cxlPage 1 = s.ctr cxlPage 1 + 1
    ∧ u = { s with regs := u.regs, ctrs := u.ctrs, outbox := u.outbox } ∧ u.outbox.head? = some (.memAck dpa.toNat) := by
  obtain ⟨hctr, r, o, c, hframe⟩ := count_shows s.toBox cxlPage 1
  have hcmd : (s.toBox.count cxlPage 1).emit (.memAck dpa.toNat) = { s.toBox with regs := r, outbox := .memAck dpa.toNat :: o, ctrs := c } := by
    rw [hframe]
    rfl
  rw [hframe] at hctr
  exact ⟨_, next_onBox (actHost_run s _ .driver hrun hreach) hcmd, hctr, rfl, rfl⟩

theorem exec_hostRead_mapped (dpa : BitVec 36) (bad : BitVec 2) (t r off : Nat)
    (hplace : s.winPlace (dpa.toNat - dpa.toNat % 64) = some (t, r, off)) (hgo : s.hostWaits dpa.toNat = false)
    (hin : off < s.regionBytes t r) :
    (s.holders t r off ≠ [] → (s.holders t r off).all (fun c => !copyFails s.toBox bad.toNat t r off c) = true →
      exec (.hostMemRead dpa bad) s
        = .next { s with outbox := .memData (dpa.toNat - dpa.toNat % 64) (s.memRead t r off 64) false :: s.outbox })
    ∧ ((s.holders t r off).any (fun c => !copyFails s.toBox bad.toNat t r off c) = true → ∃ u, exec (.hostMemRead dpa bad) s = .next u
      ∧ u.outbox.head? = some (.memData (dpa.toNat - dpa.toNat % 64) (s.memRead t r off 64) false) ∧ u.mem = s.mem)
    ∧ ((s.holders t r off).all (copyFails s.toBox bad.toNat t r off) = true → r = 0 → ∃ u, exec (.hostMemRead dpa bad) s = .next u
      ∧ u.outbox.head? = some (.memData (dpa.toNat - dpa.toNat % 64) (List.replicate 64 0) true) ∧ u.mem = s.mem) := by
  have hact := exec_hostRead hrun hreach dpa bad
  have hserve : (if s.hostWaits dpa.toNat then { s.toBox with hostReads := s.hostReads ++ [(dpa.toNat, bad.toNat)] }
      else s.toBox.hostServe dpa.toNat bad.toNat) = s.toBox.hostServe dpa.toNat bad.toNat := if_neg (ne_true_of_eq_false hgo)
  refine ⟨fun hne hall => ?_, fun hany => ?_, fun hall hr => ?_⟩
  · obtain ⟨x, hx⟩ := List.exists_mem_of_ne_nil _ hne
    have hgood := hostServe_good hplace hin (bad := bad.toNat) (List.any_eq_true.mpr ⟨x, hx, List.all_eq_true.mp hall x hx⟩)
    have hnone : (s.holders t r off).filter (copyFails s.toBox bad.toNat t r off) = [] := by
      refine List.filter_eq_nil_iff.mpr fun c hc h => ?_
      have hok := List.all_eq_true.mp hall c hc
      rw [h] at hok
      exact Bool.false_ne_true hok
    rw [hnone] at hgood
    exact next_onBox hact (hserve.trans hgood)
  · have hgood := hostServe_good hplace hin (bad := bad.toNat) hany
    obtain ⟨_, _, _, _, _, _, hframe⟩ := copiesLost_frame s.toBox t r off ((s.holders t r off).filter (copyFails s.toBox bad.toNat t r off))
    rw [hframe] at hgood
    exact ⟨_, next_onBox hact (hserve.trans hgood), rfl, rfl⟩
  · obtain ⟨c, ⟨_, _, _, _, _, _, rfl⟩, hlost⟩ := hostServe_lost hplace hin (bad := bad.toNat) hall hr
    exact ⟨_, next_onBox hact (hserve.trans hlost), rfl, rfl⟩

end

end Sys2Proof.Proofs
end

section
/-! # Settling O15: the failure of a memory device and the end of its rebuild (11_memory.md R344 to R347) -/

namespace Sys2Proof.Proofs

open Sys2Proof Sys2Proof.Machine Sys2Proof.Safety Sys2Proof.Laws

/-! ### What leaves the memory, its logs and its registers as they are -/

/-- The words of a tent's MEM page below the sizes of its regions. -/
abbrev memLow (t a : Nat) : Prop := 0x1000000 * (t + 1) + 0xC0000 ≤ a ∧ a < 0x1000000 * (t + 1) + 0xC0120

/-- The memory, the log of the host's events, the failed devices, the host's waiting reads and the low words of the tent's MEM page are as before. -/
def beside (t : Nat) (b c : Box) : Prop := c.mem = b.mem ∧ c.cxlLog = b.cxlLog ∧ c.deadDevs = b.deadDevs ∧ c.hostReads = b.hostReads
  ∧ sameOn (memLow t) b c

section beside

variable {t : Nat}

theorem beside_refl (b : Box) : beside t b b := ⟨rfl, rfl, rfl, rfl, sameOn_refl _ b⟩

theorem beside_trans {b c d : Box} (h : beside t b c) (k : beside t c d) : beside t b d :=
  ⟨k.1.trans h.1, k.2.1.trans h.2.1, k.2.2.1.trans h.2.2.1, k.2.2.2.1.trans h.2.2.2.1, sameOn_trans h.2.2.2.2 k.2.2.2.2⟩

theorem beside_wr (b : Box) {f : Fld} (hf : ¬ memLow t f.addr) (v : Nat) : beside t b (b.wr f v) := ⟨rfl, rfl, rfl, rfl, wr_sameOn b v hf⟩

theorem beside_onlyRegsCtrs {b c : Box} (h : onlyRegsCtrs b c) (hwords : sameOn (memLow t) b c) : beside t b c := by
  obtain ⟨_, _, _, rfl⟩ := h
  exact ⟨rfl, rfl, rfl, rfl, hwords⟩

/-- A word of a page's own block is none of the MEM page's where the blocks differ. -/
theorem sameOn_memLow {b c : Box} {k : Nat} (h : sameOn (offBlocks [k]) b c) (hk : k ≠ 0x100 * (t + 1) + 0xC) : sameOn (memLow t) b c := by
  intro a ha
  have hblock : a / 0x10000 = 0x100 * (t + 1) + 0xC := by
    unfold memLow at ha
    omega
  exact h a ⟨by omega, by simpa [hblock] using hk.symm⟩

theorem raiseInt_beside (b : Box) {p : Nat} (hp : p < 2304) (hk : pageBase p / 0x10000 ≠ 0x100 * (t + 1) + 0xC) (bit : Nat) :
    beside t b (b.raiseInt p bit) :=
  beside_onlyRegsCtrs (raiseInt_onlyRegs b p bit).toCtrs (sameOn_memLow (raiseInt_offBlocks b hp List.mem_cons_self bit) hk)

theorem bump_beside (b : Box) {p : Nat} (hp : p < 2304) (hk : pageBase p / 0x10000 ≠ 0x100 * (t + 1) + 0xC) {i : Nat} (hi : i < 4096) (n : Nat) :
    beside t b (b.bump p i n) :=
  beside_onlyRegsCtrs (bump_onlyRegsCtrs b p i n) (sameOn_memLow (bump_offBlocks b hp List.mem_cons_self hi n) hk)

theorem ushBlock {t : Nat} (ht : t < 8) : pageBase (ushPage t) / 0x10000 ≠ 0x100 * (t + 1) + 0xC := by
  rw [show pageBase (ushPage t) = 0x1000000 * (t + 1) + 0x10000 * 4 from pageBase_tentPage ht (by decide)]
  omega

theorem ushPage_lt {t : Nat} (ht : t < 8) : ushPage t < 2304 := (tentPage_lt ht (by decide)).trans (by decide)

theorem cxlBlock (t : Nat) : pageBase cxlPage / 0x10000 ≠ 0x100 * (t + 1) + 0xC := by
  rw [show pageBase cxlPage / 0x10000 = 0x10 by decide]
  omega

end beside

/-! ### What a tent loses -/

theorem sealLose_beside (t : Nat) (b : Box) (st e : Nat) : beside t b (b.sealLose st e) := ⟨rfl, rfl, rfl, rfl, sameOn_refl _ b⟩

theorem epochsLost_beside (t : Nat) (b : Box) (u : Nat) : beside t b (b.epochsLost u) := by
  refine beside_trans (c := { b with streams := _, slivers := _ }) ⟨rfl, rfl, rfl, rfl, sameOn_of_regs rfl⟩
    (foldl_rel (R := beside t) beside_refl beside_trans (f := fun (c : Box) (x : Nat × Nat) => c.sealLose x.1 x.2) _
      (fun c x _ => sealLose_beside t c x.1 x.2) _)

theorem treesLost_beside (t : Nat) (b : Box) (u : Nat) : beside t b (b.treesLost u) := by
  refine foldl_rel (R := beside t) beside_refl beside_trans _ (fun c x _ => ?_) _
  refine foldl_rel (R := beside t) beside_refl beside_trans _ (fun d y _ => ?_) _
  obtain ⟨v, h⟩ := poison_keeps d x.1 y.stream y.epoch y.chunk
  rw [h]
  exact ⟨rfl, rfl, rfl, rfl, sameOn_refl _ d⟩

theorem spillLost_beside {t : Nat} (ht : t < 8) (b : Box) : beside t b (b.spillLost t) := by
  unfold Box.spillLost
  dsimp only
  split
  · exact ⟨rfl, rfl, rfl, rfl, sameOn_refl _ b⟩
  · refine beside_trans (beside_trans ?_ (bump_beside _ (ushPage_lt ht) (ushBlock ht) (by decide) _)) (raiseInt_beside _ (ushPage_lt ht) (ushBlock ht) 0)
    exact ⟨rfl, rfl, rfl, rfl, sameOn_refl _ b⟩

theorem ringsEmpty_beside (t : Nat) (b : Box) : beside t b (b.ringsEmpty t) := by
  have hbrk {a : Nat} (h : 0x1000000 * (t + 1) + 0xE0000 ≤ a) : ¬ memLow t a := by
    unfold memLow
    omega
  refine beside_trans (beside_trans (beside_trans (beside_wr b (hbrk ?_) 0) (beside_wr _ (hbrk ?_) 0)) (beside_wr _ (hbrk ?_) 0)) (beside_wr _ (hbrk ?_) 0)
  all_goals exact Nat.add_le_add_left (Nat.le_of_ble_eq_true rfl) _

/-- Regions 3 to 7 are gone; what is noted of it lies beside the memory. -/
theorem loseInterleaved_shows {t : Nat} (ht : t < 8) (b : Box) : beside t (b.memForget t [3, 4, 5, 6, 7]) (b.loseInterleaved t) :=
  beside_trans (beside_trans (beside_trans (ringsEmpty_beside t _) (epochsLost_beside t _ t)) (treesLost_beside t _ t)) (spillLost_beside ht _)

/-- The interleaved regions of the tent read as never written. -/
theorem memForget_get (b : Box) (t k : Nat) : mapGet memDflt (b.memForget t [3, 4, 5, 6, 7]).mem k
    = if k / 2 ^ 40 / 8 = t ∧ 3 ≤ k / 2 ^ 40 % 8 then memDflt k else mapGet memDflt b.mem k := by
  rw [show (b.memForget t [3, 4, 5, 6, 7]).mem
    = mapDrop b.mem fun k => decide (k / 2 ^ 40 / 8 = t) && [3, 4, 5, 6, 7].contains (k / 2 ^ 40 % 8) from rfl, mapGet_mapDrop]
  have hregion : k / 2 ^ 40 % 8 < 8 := Nat.mod_lt _ (by decide)
  generalize k / 2 ^ 40 % 8 = r, k / 2 ^ 40 / 8 = u at hregion
  have hhit : ((decide (u = t) && [3, 4, 5, 6, 7].contains r) = true) ↔ (u = t ∧ 3 ≤ r) := by
    simp only [Bool.and_eq_true, decide_eq_true_eq, List.contains_iff_mem, List.mem_cons, List.not_mem_nil, or_false]
    omega
  simp only [hhit]

/-! ### A device fails -/

/-- The registers and records of a device that has failed. -/
def failShown (b : Box) (d : Nat) : Box :=
  let s1 := ((b.wr (MEM_DEV_STATUS_STATE (d / 2) (d % 2)) 3).wr (MEM_DEV_STATUS_PORT_OK (d / 2) (d % 2)) 0).put (MEM_PLAN_STATUS_SINGLE (d / 2)) true
  { s1 with trained := s1.trained.filter (· ≠ d), deadDevs := d :: s1.deadDevs.filter (· ≠ d),
            badBlocks := s1.badBlocks.filter fun x => x.1 != d, kernBad := s1.kernBad.filter fun x => x.1 != d }

theorem replayBreak_beside (t : Nat) (b : Box) (u : Nat) : beside t b (b.replayBreak u) := by
  unfold Box.replayBreak
  split
  · split
    · exact ⟨rfl, rfl, rfl, rfl, sameOn_refl _ b⟩
    · exact beside_refl b
  · exact beside_refl b

/-- The words of the failure: STATE 3, the other device's STATE, SINGLE. -/
theorem failShown_words (b : Box) (d : Nat) : (failShown b d).devState d = 3
    ∧ (failShown b d).devState (otherDev d) = b.devState (otherDev d) ∧ (failShown b d).is (MEM_PLAN_STATUS_SINGLE (d / 2)) = true
    ∧ (failShown b d).rd (MEM_USABLE_MIB_MIB (d / 2)) = b.rd (MEM_USABLE_MIB_MIB (d / 2)) := by
  have hother : otherDev d / 2 = d / 2 ∧ otherDev d % 2 = 1 - d % 2 := by
    unfold otherDev
    split <;> omega
  have hd : d % 2 < 2 := Nat.mod_lt _ (by decide)
  have hdev : MEM_DEV_STATUS_at (d / 2) (d % 2) = 0x1000000 * (d / 2 + 1) + 0xC0110 + 4 * (d % 2) := rfl
  have hdev' : MEM_DEV_STATUS_at (d / 2) (1 - d % 2) = 0x1000000 * (d / 2 + 1) + 0xC0110 + 4 * (1 - d % 2) := rfl
  have hplan : MEM_PLAN_STATUS_at (d / 2) = 0x1000000 * (d / 2 + 1) + 0xC0108 := rfl
  have huse : MEM_USABLE_MIB_at (d / 2) = 0x1000000 * (d / 2 + 1) + 0xC010C := rfl
  refine ⟨?_, ?_, ?_, ?_⟩
  · refine (rd_put_word _ (MEM_PLAN_STATUS_SINGLE (d / 2)) (MEM_DEV_STATUS_STATE (d / 2) (d % 2)) true ?_).trans
      ((rd_wr_apart _ 0 ⟨Nat.le_of_ble_eq_true rfl, .inr (.inl (Nat.le_of_ble_eq_true rfl))⟩).trans (rd_wr_lt b (Nat.le_of_ble_eq_true rfl) (show 3 < 2 ^ 3 by decide)))
    show MEM_DEV_STATUS_at (d / 2) (d % 2) ≠ MEM_PLAN_STATUS_at (d / 2)
    omega
  · rw [Box.devState, Box.devState, hother.1, hother.2]
    have hword (f : Fld) (hf : f.addr = MEM_DEV_STATUS_at (d / 2) (d % 2) ∨ f.addr = MEM_PLAN_STATUS_at (d / 2)) :
        (MEM_DEV_STATUS_STATE (d / 2) (1 - d % 2)).addr ≠ f.addr := by
      show MEM_DEV_STATUS_at (d / 2) (1 - d % 2) ≠ f.addr
      omega
    exact (rd_put_word _ (MEM_PLAN_STATUS_SINGLE (d / 2)) _ true (hword _ (.inr rfl))).trans
      ((rd_wr_word _ (MEM_DEV_STATUS_PORT_OK (d / 2) (d % 2)) _ 0 (hword _ (.inl rfl))).trans
        (rd_wr_word b (MEM_DEV_STATUS_STATE (d / 2) (d % 2)) _ 3 (hword _ (.inl rfl))))
  · exact is_put _ (MEM_PLAN_STATUS_SINGLE (d / 2)) true (Nat.le_of_ble_eq_true rfl) Nat.one_pos
  · have hword (f : Fld) (hf : f.addr = MEM_DEV_STATUS_at (d / 2) (d % 2) ∨ f.addr = MEM_PLAN_STATUS_at (d / 2)) :
        (MEM_USABLE_MIB_MIB (d / 2)).addr ≠ f.addr := by
      show MEM_USABLE_MIB_at (d / 2) ≠ f.addr
      omega
    exact (rd_put_word _ (MEM_PLAN_STATUS_SINGLE (d / 2)) _ true (hword _ (.inr rfl))).trans
      ((rd_wr_word _ (MEM_DEV_STATUS_PORT_OK (d / 2) (d % 2)) _ 0 (hword _ (.inl rfl))).trans
        (rd_wr_word b (MEM_DEV_STATUS_STATE (d / 2) (d % 2)) _ 3 (hword _ (.inl rfl))))

/-- The state of a tent of which a device has failed, in the words of its MEM page. -/
structure DownTo (b : Box) (d other : Nat) : Prop where
  failed : b.devState d = 3
  other : b.devState (otherDev d) = other
  single : b.is (MEM_PLAN_STATUS_SINGLE (d / 2)) = true
  cause : b.is (pageFld (memPage (d / 2)) 16 0 1) = true

theorem DownTo.kept {b c : Box} {d v : Nat} (h : DownTo b d v) (hd : d < 16) (k : sameOn (memLow (d / 2)) b c) : DownTo c d v := by
  have hother : otherDev d / 2 = d / 2 ∧ otherDev d % 2 < 2 := by
    unfold otherDev
    split <;> omega
  have hdev {i : Nat} (hi : i < 2) : memLow (d / 2) (MEM_DEV_STATUS_at (d / 2) i) := by
    rw [MEM_DEV_STATUS_at]
    unfold memLow
    omega
  obtain ⟨hfailed, hoth, hsingle, hcause⟩ := h
  refine ⟨(rd_of_sameOn k (hdev (Nat.mod_lt _ (by decide)))).trans hfailed, (rd_of_sameOn k ?_).trans hoth,
    (is_of_sameOn k ?_).trans hsingle, (is_of_sameOn k ?_).trans hcause⟩
  · exact hother.1 ▸ hdev hother.2
  · show memLow (d / 2) (MEM_PLAN_STATUS_at (d / 2))
    rw [MEM_PLAN_STATUS_at]
    unfold memLow
    omega
  · show memLow (d / 2) (pageBase (memPage (d / 2)) + 16)
    rw [show pageBase (memPage (d / 2)) = 0x1000000 * (d / 2 + 1) + 0x10000 * 0x0C from pageBase_tentPage (by omega) (by decide)]
    unfold memLow
    omega

/-- A write of another field of MEM_PLAN_STATUS, or of MEM_USABLE_MIB, leaves that state. -/
theorem DownTo.wr {b : Box} {d v : Nat} (h : DownTo b d v) (hd : d < 16) {f : Fld} (w : Nat)
    (hf : f.addr = MEM_PLAN_STATUS_at (d / 2) ∧ f.lo + f.width ≤ 32 ∧ 2 < f.lo ∨ f.addr = MEM_USABLE_MIB_at (d / 2)) : DownTo (b.wr f w) d v := by
  have haddr : f.addr = 0x1000000 * (d / 2 + 1) + 0xC0108 ∨ f.addr = 0x1000000 * (d / 2 + 1) + 0xC010C := hf.imp And.left id
  obtain ⟨hfailed, hoth, hsingle, hcause⟩ := h
  have hdev (t i : Nat) (ht : t = d / 2) : MEM_DEV_STATUS_at t i ≠ f.addr := by
    rw [ht, MEM_DEV_STATUS_at]
    omega
  have hother : otherDev d / 2 = d / 2 := by
    unfold otherDev
    split <;> omega
  refine ⟨(rd_wr_word b f _ w (hdev _ _ rfl)).trans hfailed, (rd_wr_word b f _ w (hdev _ _ hother)).trans hoth, ?_, ?_⟩
  · rcases hf with ⟨-, hfits, hlo⟩ | huse
    · have happart : (MEM_PLAN_STATUS_SINGLE (d / 2)).lo + (MEM_PLAN_STATUS_SINGLE (d / 2)).width ≤ f.lo := hlo
      exact (is_wr_apart b w ⟨hfits, .inr (.inl happart)⟩).trans hsingle
    · refine (is_wr_word b f _ w ?_).trans hsingle
      show MEM_PLAN_STATUS_at (d / 2) ≠ f.addr
      rw [huse, MEM_PLAN_STATUS_at, MEM_USABLE_MIB_at]
      omega
  · refine (is_wr_word b f _ w ?_).trans hcause
    show pageBase (memPage (d / 2)) + 16 ≠ f.addr
    rw [show pageBase (memPage (d / 2)) = 0x1000000 * (d / 2 + 1) + 0x10000 * 0x0C from pageBase_tentPage (by omega) (by decide)]
    omega

theorem cxlEvent_shows (t : Nat) (b : Box) (e : CxlEvent) : (b.cxlEvent e).mem = b.mem ∧ (b.cxlEvent e).cxlLog = b.cxlLog ++ [e]
    ∧ (b.cxlEvent e).deadDevs = b.deadDevs ∧ (b.cxlEvent e).hostReads = b.hostReads ∧ sameOn (memLow t) b (b.cxlEvent e) := by
  obtain ⟨hmem, hlog, hdead, hreads, hwords⟩ := raiseInt_beside (t := t) { b with cxlLog := b.cxlLog ++ [e] } (p := cxlPage) (by decide) (cxlBlock t) 2
  exact ⟨hmem, hlog, hdead, hreads, sameOn_trans (sameOn_of_regs rfl) hwords⟩

theorem spillStatus_beside {t : Nat} (ht : t < 8) (b : Box) : beside t b (b.spillStatus t) := by
  have hush : ¬ memLow t (USH_STATUS_at t) := by
    rw [USH_STATUS_at]
    unfold memLow
    omega
  unfold Box.spillStatus
  dsimp only
  have hputs (x y z : Bool) : beside t b (((b.put (USH_STATUS_SPILLING t) x).put (USH_STATUS_SPILL_FULL t) y).put (USH_STATUS_DESC_LIMIT t) z) :=
    beside_trans (beside_trans (beside_wr b hush _) (beside_wr _ hush _)) (beside_wr _ hush _)
  split
  · exact beside_trans (hputs _ _ _) (raiseInt_beside _ (ushPage_lt ht) (ushBlock ht) 2)
  · exact hputs _ _ _

theorem setPlan_beside (t : Nat) (b : Box) (sizes : List Nat) : beside t b (b.setPlan t sizes) := by
  refine foldl_rel (R := beside t) beside_refl beside_trans _ (fun c r _ => ?_) b
  refine beside_trans (c := { c with plans := _ }) ⟨rfl, rfl, rfl, rfl, sameOn_of_regs rfl⟩ (beside_wr _ ?_ _)
  show ¬ memLow t (MEM_REGION_SIZE_at t r)
  rw [MEM_REGION_SIZE_at]
  unfold memLow
  omega

/-- The tent of a failed device before its plan is laid out anew. -/
theorem failed_shows (b : Box) {d : Nat} (hd : d < 16) : ∃ c, c = (((failShown b d).memError (d / 2)).cxlEvent (.deviceFail d)).replayBreak (d / 2)
    ∧ DownTo c d (b.devState (otherDev d)) ∧ c.mem = b.mem ∧ c.cxlLog = b.cxlLog ++ [.deviceFail d] ∧ d ∈ c.deadDevs := by
  obtain ⟨hstate, hother, hsingle, -⟩ := failShown_words b d
  have hpage : memPage (d / 2) < 2304 := (tentPage_lt (by omega) (by decide)).trans (by decide)
  have hbody {f : Fld} (h : 0x1000000 * (d / 2 + 1) + 0xC0100 ≤ f.addr ∧ f.addr < 0x1000000 * (d / 2 + 1) + 0xC1100) :
      f.addr ∉ causeWords (memPage (d / 2)) := fun hmem => causeWords_not_body hpage hmem (mem_body h.1 h.2)
  have hdev {i : Nat} (hi : i < 2) : 0x1000000 * (d / 2 + 1) + 0xC0100 ≤ (MEM_DEV_STATUS_STATE (d / 2) i).addr
      ∧ (MEM_DEV_STATUS_STATE (d / 2) i).addr < 0x1000000 * (d / 2 + 1) + 0xC1100 := by
    have haddr : (MEM_DEV_STATUS_STATE (d / 2) i).addr = 0x1000000 * (d / 2 + 1) + 0xC0110 + 4 * i := rfl
    omega
  have hoth : otherDev d / 2 = d / 2 ∧ otherDev d % 2 < 2 := by
    unfold otherDev
    split <;> omega
  have herror : DownTo ((failShown b d).memError (d / 2)) d (b.devState (otherDev d)) := by
    refine ⟨(rd_raiseInt _ _ 0 (hbody (hdev (Nat.mod_lt _ (by decide))))).trans hstate, (rd_raiseInt _ _ 0 ?_).trans hother,
      (is_raiseInt _ _ 0 (hbody ?_)).trans hsingle, ?_⟩
    · rw [hoth.1]
      exact hbody (hdev hoth.2)
    · have haddr : (MEM_PLAN_STATUS_SINGLE (d / 2)).addr = 0x1000000 * (d / 2 + 1) + 0xC0108 := rfl
      omega
    · rw [Box.memError, is_raiseInt_cause _ hpage (by decide), decide_eq_true rfl, Bool.or_true]
  obtain ⟨r, o, hframe⟩ := raiseInt_onlyRegs (failShown b d) (memPage (d / 2)) 0
  obtain ⟨hmem, hlog, hdead, -, hwords⟩ := cxlEvent_shows (d / 2) ((failShown b d).memError (d / 2)) (.deviceFail d)
  obtain ⟨kmem, klog, kdead, -, kwords⟩ := replayBreak_beside (d / 2) (((failShown b d).memError (d / 2)).cxlEvent (.deviceFail d)) (d / 2)
  have hkeep : ((failShown b d).memError (d / 2)).mem = b.mem ∧ ((failShown b d).memError (d / 2)).cxlLog = b.cxlLog
      ∧ d ∈ ((failShown b d).memError (d / 2)).deadDevs := by
    rw [Box.memError, hframe]
    exact ⟨rfl, rfl, List.mem_cons_self⟩
  obtain ⟨lmem, llog, ldead⟩ := hkeep
  refine ⟨_, rfl, herror.kept hd (sameOn_trans hwords kwords), kmem.trans (hmem.trans lmem), klog.trans (hlog.trans (by rw [llog])), ?_⟩
  rw [kdead, hdead]
  exact ldead

/-- The surviving device serves the tent: what is usable, the rebuild, and the plan that fits. -/
theorem survivor_shows {c : Box} {d v : Nat} (hd : d < 16) (h : DownTo c d v) :
    ∃ e, e = ((((c.wr (MEM_USABLE_MIB_MIB (d / 2)) (usableMib 1)).put (MEM_PLAN_STATUS_REBUILD (d / 2)) true).shrink (d / 2)).spillStatus (d / 2)).cxlEvent
        (.rebuildStart (d / 2))
      ∧ DownTo e d v ∧ e.rd (MEM_USABLE_MIB_MIB (d / 2)) = 66252 ∧ e.rebuilding (d / 2) = true
      ∧ e.mem = c.mem ∧ e.cxlLog = c.cxlLog ++ [.rebuildStart (d / 2)] ∧ e.deadDevs = c.deadDevs := by
  have ht : d / 2 < 8 := by omega
  let c1 := c.wr (MEM_USABLE_MIB_MIB (d / 2)) (usableMib 1)
  let c2 := c1.put (MEM_PLAN_STATUS_REBUILD (d / 2)) true
  let c3 := c2.setPlan (d / 2) (shrinkPlan (usableMib 1) (c2.planNow (d / 2)))
  let c4 := c3.overcommit (d / 2)
  have huse : memLow (d / 2) (MEM_USABLE_MIB_at (d / 2)) := by
    rw [MEM_USABLE_MIB_at]
    unfold memLow
    omega
  have hplan : memLow (d / 2) (MEM_PLAN_STATUS_at (d / 2)) := by
    rw [MEM_PLAN_STATUS_at]
    unfold memLow
    omega
  have hne : (MEM_USABLE_MIB_MIB (d / 2)).addr ≠ MEM_PLAN_STATUS_at (d / 2) := by
    show MEM_USABLE_MIB_at (d / 2) ≠ _
    rw [MEM_USABLE_MIB_at, MEM_PLAN_STATUS_at]
    omega
  have h2 : DownTo c2 d v := (h.wr hd _ (.inr rfl)).wr hd _ (.inl ⟨rfl, Nat.le_of_ble_eq_true rfl, Nat.le_of_ble_eq_true rfl⟩)
  have husable : c2.rd (MEM_USABLE_MIB_MIB (d / 2)) = 66252 :=
    (rd_put_word c1 (MEM_PLAN_STATUS_REBUILD (d / 2)) _ true hne).trans
      (rd_wr_lt c (f := MEM_USABLE_MIB_MIB (d / 2)) (Nat.le_of_ble_eq_true rfl) (show 66252 < 2 ^ 18 by decide))
  have hrebuild : c2.is (MEM_PLAN_STATUS_REBUILD (d / 2)) = true := is_put c1 _ true (Nat.le_of_ble_eq_true rfl) Nat.one_pos
  obtain ⟨mem3, log3, dead3, -, words3⟩ := setPlan_beside (d / 2) c2 (shrinkPlan (usableMib 1) (c2.planNow (d / 2)))
  have h4 : DownTo c4 d v := (h2.kept hd words3).wr hd _ (.inl ⟨rfl, Nat.le_of_ble_eq_true rfl, Nat.le_of_ble_eq_true rfl⟩)
  have husable4 : c4.rd (MEM_USABLE_MIB_MIB (d / 2)) = 66252 :=
    (rd_put_word c3 (MEM_PLAN_STATUS_OVERCOMMIT (d / 2)) _ _ hne).trans ((rd_of_sameOn words3 huse).trans husable)
  have hrebuild4 : c4.is (MEM_PLAN_STATUS_REBUILD (d / 2)) = true :=
    (is_put_apart c3 _ ⟨Nat.le_of_ble_eq_true rfl, .inr (.inr (Nat.le_of_ble_eq_true rfl))⟩).trans ((is_of_sameOn words3 hplan).trans hrebuild)
  obtain ⟨mem5, log5, dead5, -, words5⟩ := spillStatus_beside ht c4
  obtain ⟨mem6, log6, dead6, -, words6⟩ := cxlEvent_shows (d / 2) (c4.spillStatus (d / 2)) (.rebuildStart (d / 2))
  have hwords := sameOn_trans words5 words6
  refine ⟨_, rfl, h4.kept hd hwords, (rd_of_sameOn hwords huse).trans husable4, (is_of_sameOn hwords hplan).trans hrebuild4,
    mem6.trans (mem5.trans mem3), log6.trans (congrArg (· ++ _) (log5.trans log3)), dead6.trans (dead5.trans dead3)⟩

theorem serveWaiting_none (t : Nat) {b : Box} (h : b.hostReads = []) : beside t b b.serveWaiting := by
  unfold Box.serveWaiting
  rw [h]
  exact ⟨rfl, rfl, rfl, h.symm, sameOn_of_regs rfl⟩

theorem rebuildDone_eq {b : Box} {t : Nat} (h : b.rebuilding t = true) : b.rebuildDone t
    = ((((b.put (MEM_PLAN_STATUS_REBUILD t) false).raiseInt (memPage t) 1).spillStatus t).cxlEvent (.rebuildEnd t)).serveWaiting := by
  unfold Box.rebuildDone
  rw [if_neg (ne_false_of_eq_true h)]

section
variable {s : State} (hrun : s.phase = .run)
include hrun

theorem exec_deviceFail (d : BitVec 4) (hpresent : s.devPresent d.toNat = true) (hother : s.devState (otherDev d.toNat) = 2)
    (husable : s.rd (MEM_USABLE_MIB_MIB (d.toNat / 2)) ≠ 0) : ∃ u, exec (.memDeviceFail d) s = .next u ∧ u.devState d.toNat = 3
      ∧ u.devState (otherDev d.toNat) = 2 ∧ u.is (MEM_PLAN_STATUS_SINGLE (d.toNat / 2)) = true
      ∧ u.rd (MEM_USABLE_MIB_MIB (d.toNat / 2)) = 66252 ∧ u.rebuilding (d.toNat / 2) = true
      ∧ u.is (pageFld (memPage (d.toNat / 2)) 16 0 1) = true ∧ d.toNat ∈ u.deadDevs
      ∧ u.cxlLog = s.cxlLog ++ [.deviceFail d.toNat, .rebuildStart (d.toNat / 2)]
      ∧ ∀ k, mapGet memDflt u.mem k
          = if k / 2 ^ 40 / 8 = d.toNat / 2 ∧ 3 ≤ k / 2 ^ 40 % 8 then memDflt k else mapGet memDflt s.mem k := by
  have hd : d.toNat < 16 := d.isLt
  obtain ⟨c, hc, hdown, hmem, hlog, hdead⟩ := failed_shows s.toBox hd
  obtain ⟨lmem, llog, ldead, -, lwords⟩ := loseInterleaved_shows (t := d.toNat / 2) (by omega) c
  have hlost : DownTo (c.loseInterleaved (d.toNat / 2)) d.toNat (s.devState (otherDev d.toNat)) :=
    hdown.kept hd (sameOn_trans (sameOn_of_regs rfl) lwords)
  obtain ⟨e, he, hend, huse, hreb, emem, elog, edead⟩ := survivor_shows hd hlost
  have hcmd : s.toBox.deviceFail d.toNat = e := by
    rw [he, hc]
    exact (if_neg (ne_false_of_eq_true hpresent)).trans ((if_neg husable).trans (if_pos hother))
  refine ⟨_, next_onBox (actRun_run s _ hrun) hcmd, hend.failed, hend.other.trans hother, hend.single, huse, hreb, hend.cause, ?_, ?_, fun k => ?_⟩
  · have hkept : e.deadDevs = c.deadDevs := edead.trans ldead
    exact hkept ▸ hdead
  · have hcat := elog.trans (congrArg (· ++ [CxlEvent.rebuildStart (d.toNat / 2)]) (llog.trans hlog))
    exact hcat.trans (List.append_assoc _ _ _)
  · have hget := memForget_get c (d.toNat / 2) k
    rw [hmem] at hget
    have hkept : e.mem = (c.memForget (d.toNat / 2) [3, 4, 5, 6, 7]).mem := emem.trans lmem
    exact (congrArg (mapGet memDflt · k) hkept).trans hget

/-- The command's end read off the box that it gives. -/
theorem rebuildDone_of_box (t : TentIx) {e : Box} (hcmd : s.toBox.rebuildDone t.toNat = e) (hend : e.is (MEM_PLAN_STATUS_REBUILD t.toNat) = false)
    (hshown : e.is (pageFld (memPage t.toNat) 16 1 1) = true) (hlog : e.cxlLog = s.cxlLog ++ [.rebuildEnd t.toNat]) (hmem : e.mem = s.mem) :
    ∃ u, exec (.memRebuildDone t) s = .next u ∧ u.rebuilding t.toNat = false ∧ u.is (pageFld (memPage t.toNat) 16 1 1) = true
      ∧ u.cxlLog = s.cxlLog ++ [.rebuildEnd t.toNat] ∧ u.mem = s.mem :=
  ⟨_, next_onBox (actRun_run s _ hrun) hcmd, hend, hshown, hlog, hmem⟩

theorem exec_rebuildDone (t : TentIx) (hreb : s.rebuilding t.toNat = true) (hreads : s.hostReads = []) :
    ∃ u, exec (.memRebuildDone t) s = .next u ∧ u.rebuilding t.toNat = false ∧ u.is (pageFld (memPage t.toNat) 16 1 1) = true
      ∧ u.cxlLog = s.cxlLog ++ [.rebuildEnd t.toNat] ∧ u.mem = s.mem := by
  have hbody : (MEM_PLAN_STATUS_REBUILD t.toNat).addr ∉ causeWords (memPage t.toNat) := by
    have haddr : (MEM_PLAN_STATUS_REBUILD t.toNat).addr = 0x1000000 * (t.toNat + 1) + 0xC0108 := rfl
    exact fun h => causeWords_not_body (memPage_lt t) h (mem_body (t := t.toNat) (by omega) (by omega))
  have hoff := (is_raiseInt _ _ 1 hbody).trans (is_put s.toBox (MEM_PLAN_STATUS_REBUILD t.toNat) false (Nat.le_of_ble_eq_true rfl) Nat.one_pos)
  have hcause := is_raiseInt_cause (s.toBox.put (MEM_PLAN_STATUS_REBUILD t.toNat) false) (memPage_lt t) (k := 1) (i := 1) (by decide)
  obtain ⟨r, o, hframe⟩ := onlyRegs_trans (put_onlyRegs s.toBox (MEM_PLAN_STATUS_REBUILD t.toNat) false) (raiseInt_onlyRegs _ (memPage t.toNat) 1)
  have hcmd := rebuildDone_eq hreb
  rw [decide_eq_true rfl, Bool.or_true] at hcause
  generalize (s.toBox.put (MEM_PLAN_STATUS_REBUILD t.toNat) false).raiseInt (memPage t.toNat) 1 = c at hoff hcause hframe hcmd
  have hkeep : c.mem = s.mem ∧ c.cxlLog = s.cxlLog ∧ c.hostReads = [] := by
    rw [hframe]
    exact ⟨rfl, rfl, hreads⟩
  obtain ⟨cmem, clog, creads⟩ := hkeep
  obtain ⟨smem, slog, -, sreads, swords⟩ := spillStatus_beside t.isLt c
  obtain ⟨emem, elog, -, ereads, ewords⟩ := cxlEvent_shows t.toNat (c.spillStatus t.toNat) (.rebuildEnd t.toNat)
  obtain ⟨gmem, glog, -, -, gwords⟩ := serveWaiting_none t.toNat (ereads.trans (sreads.trans creads))
  have hwords := sameOn_trans swords (sameOn_trans ewords gwords)
  have hmem := gmem.trans (emem.trans (smem.trans cmem))
  have hlog := glog.trans (elog.trans (congrArg (· ++ [CxlEvent.rebuildEnd t.toNat]) (slog.trans clog)))
  generalize ((c.spillStatus t.toNat).cxlEvent (.rebuildEnd t.toNat)).serveWaiting = e at hcmd hmem hlog hwords
  have hlow : memLow t.toNat (MEM_PLAN_STATUS_at t.toNat) ∧ memLow t.toNat (pageBase (memPage t.toNat) + 16) := by
    rw [show pageBase (memPage t.toNat) = 0x1000000 * (t.toNat + 1) + 0x10000 * 0x0C from pageBase_tentPage t.isLt (by decide), MEM_PLAN_STATUS_at]
    unfold memLow
    omega
  have hend := (is_of_sameOn hwords (f := MEM_PLAN_STATUS_REBUILD t.toNat) hlow.1).trans hoff
  have hshown := (is_of_sameOn hwords (f := pageFld (memPage t.toNat) 16 1 1) hlow.2).trans hcause
  exact rebuildDone_of_box hrun t hcmd hend hshown hlog hmem

end

/-- Settles O15: refresh slots and reads of the window by what they count and return, a failure and a rebuild's end by the words and
records they leave. -/
theorem memoryIsRefreshedReadAndKept : Obligations.MemoryIsRefreshedReadAndKept := by
  unfold Obligations.MemoryIsRefreshedReadAndKept
  refine ⟨fun s hrun => ⟨fun t port row hready => ⟨exec_refresh_clean hrun t port row hready, exec_refresh_block hrun t port row hready,
    exec_refresh_uncorr hrun t port row hready⟩, exec_deviceHot hrun⟩, fun s dpa hrun hreach => ⟨exec_hostRead_unmapped hrun hreach dpa,
    fun bad t r off hplace hgo hin => exec_hostRead_mapped hrun hreach dpa bad t r off hplace hgo hin,
    exec_hostRead_waits hrun hreach dpa, exec_hostWrite hrun hreach dpa⟩, fun s hrun => ⟨exec_deviceFail hrun, exec_rebuildDone hrun⟩⟩

end Sys2Proof.Proofs
end

section
/-! # The header stage of a frame that fails a check, fences and backlog reports (R49, R75, R85) -/

namespace Sys2Proof.Proofs

open Sys2Proof Sys2Proof.Machine Sys2Proof.Safety Sys2Proof.Laws

/-! ### A frame that fails a check -/

theorem headerCheck_of_keepsPage {s t : Box} {p : Nat} (h : KeepsPage (lnkPage (p / 256)) s t) (f : Frame) : t.headerCheck p f = s.headerCheck p f := by
  have hminor : t.minor p = s.minor p := by
    refine congrArg (wordField · _ _ % 4) (h.word _ ?_)
    have haddr : (LNK_PORT_STATUS_VER p).addr = LNK_PORT_STATUS_at p := rfl
    rw [haddr]
    exact addrPage_tentWord (off := LNK_PORT_STATUS_at p - 0x1000000 * (p / 256 + 1) - 0x10000) (by decide)
      (by unfold LNK_PORT_STATUS_at; omega) (by unfold LNK_PORT_STATUS_at; omega)
  rw [Box.headerCheck, Box.headerCheck, vcClosed_of_keepsPage h, hminor]

theorem headerStage_of_bad {s : Box} {p k : Nat} {l : Landed} {ls : List Landed} (hl : (s.port p).landed = l :: ls) (hp : p / 256 < 8)
    (h : s.headerCheck p l.frame = some (.bad k)) (entry : Ecc) {tr : Option Trace} {u : Box} (hu : (takeLanded s p ls).followTrace p l = (tr, u)) :
    s.headerStage p entry = ((u.landedGone p l true).lnkCount k p).traceExit (p / 256) (traceStage tr 1 (u.tick32 (p / 256))) none 1 l.frame := by
  have hfollow := followTrace_keepsPage (takeLanded s p ls) hp l
  rw [hu] at hfollow
  have hjudge : u.judge p l entry = (.bad k, u) := by
    have hcheck : u.headerCheck p l.frame = some (.bad k) := (headerCheck_of_keepsPage hfollow _).trans h
    rw [Box.judge, hcheck]
  have hsample : u.ingressSample p l (.bad k) = (u, none) := rfl
  simp only [Box.headerStage, hl]
  rw [← takeLanded, hu, hjudge]
  simp only [hsample, tagTrace_untagged]
  rfl

/-- A frame that goes returns its cells as credit while the port is of the frame's generation. -/
def creditedPort (x : Port) (l : Landed) : Port :=
  if x.gen = l.gen then { x with freed := addAt16 x.freed (frVc l.frame) (frCells l.frame) } else x

theorem creditedPort_fields (x : Port) (l : Landed) : (creditedPort x l).landed = x.landed
    ∧ (creditedPort x l).freed = if x.gen = l.gen then addAt16 x.freed (frVc l.frame) (frCells l.frame) else x.freed := by
  unfold creditedPort
  split
  · exact ⟨rfl, rfl⟩
  · exact ⟨rfl, rfl⟩

/-- The frame's cells are freed and its credit given; registers, counters and queued frames are as the freeing of cells leaves them. -/
theorem landedGone_shows (s : Box) {p : Nat} (hp : p / 256 < 8) (l : Landed) :
    (s.landedGone p l true).port p = creditedPort (s.port p) l
      ∧ (s.landedGone p l true).regs = (s.freeCells (p / 256) l.cells).regs ∧ (s.landedGone p l true).ctrs = (s.freeCells (p / 256) l.cells).ctrs
      ∧ (s.landedGone p l true).descs = s.descs := by
  have hfree := freeCells_keepsPage hp s l.cells
  have hport := hfree.port p
  unfold Box.landedGone creditedPort
  generalize s.freeCells (p / 256) l.cells = c at hfree hport
  dsimp only
  rw [← hport]
  by_cases hgen : (c.port p).gen = l.gen
  · rw [if_pos ⟨rfl, hgen⟩, if_pos hgen]
    exact ⟨port_setPort _ _ _, rfl, rfl, hfree.descs⟩
  · rw [if_neg fun h => hgen h.2, if_neg hgen]
    exact ⟨rfl, rfl, rfl, hfree.descs⟩

/-- A frame that fails a check is taken and counted, and its cells come back as credit. -/
theorem headerStage_bad_discards {s : Box} {p k : Nat} {l : Landed} {ls : List Landed} (hl : (s.port p).landed = l :: ls) (hp : p / 256 < 8)
    (hport : s.isPort p = true) (h : s.headerCheck p l.frame = some (.bad k)) (hk : k < 15) (entry : Ecc) :
    (s.headerStage p entry).port p = creditedPort { s.port p with landed := ls } l ∧ (s.headerStage p entry).descs = s.descs
      ∧ (s.headerStage p entry).ctr (lnkPage (p / 256)) (256 * k + p % 256) = s.ctr (lnkPage (p / 256)) (256 * k + p % 256) + 1 := by
  obtain ⟨tr, u, hu⟩ : ∃ tr u, (takeLanded s p ls).followTrace p l = (tr, u) := ⟨_, _, rfl⟩
  have hfollow := followTrace_keepsPage (takeLanded s p ls) hp l
  have hby := followTrace_by (takeLanded s p ls) p l
  rw [headerStage_of_bad hl hp h entry hu]
  rw [hu] at hfollow hby
  have hfree := hfollow.trans (freeCells_keepsPage hp u l.cells)
  obtain ⟨hgone, hregs, hctrs, hdescs⟩ := landedGone_shows u hp l
  generalize u.landedGone p l true = c at hgone hregs hctrs hdescs
  have hexit := traceExit_keepsPage hp (c.lnkCount k p) (traceStage_by hby 1 (u.tick32 (p / 256))) none 1 l.frame
  have hmode : c.isPort p = true := by
    have hfreed := (isPort_of_keepsPage hfree).trans hport
    have hslot : c.slotMode p = (u.freeCells (p / 256) l.cells).slotMode p := rd_of_regs hregs _
    rwa [Box.isPort, hslot]
  refine ⟨?_, ?_, ?_⟩
  · rw [hexit.port, (lnkCount_keepsFrames c k p).port, hgone, hfollow.port]
    exact congrArg (creditedPort · l) (port_setPort _ _ _)
  · rw [hexit.descs, (lnkCount_keepsFrames c k p).descs, hdescs, hfollow.descs]
    rfl
  · rw [hexit.ctr _ (by omega), ctr_lnkCount hmode k, ctr_of_ctrs hctrs, hfree.ctr _ (by omega)]
    rfl

theorem headerCheck_bad_lt {s : Box} {p k : Nat} {f : Frame} (h : s.headerCheck p f = some (.bad k)) : k < 15 := by
  unfold Box.headerCheck at h
  dsimp only at h
  split at h
  · cases h
  · split at h
    · cases h
      decide
    · split at h
      · cases h
        decide
      · split at h
        · cases h
          decide
        · split at h
          · cases h
            decide
          · cases h

/-! ### Fences -/

/-- The fence of a port's frames is gone. -/
def unfenced (p : Nat) (d : Desc) : Desc := if d.inPort = some p then { d with fence := false } else d

theorem unfenced_fence {p : Nat} {d : Desc} (h : (unfenced p d).inPort = some p) : (unfenced p d).fence = false := by
  unfold unfenced at h ⊢
  split
  · rfl
  · next hin =>
    rw [if_neg hin] at h
    exact absurd h hin

theorem unfenced_rest (p : Nat) (d : Desc) : ({ unfenced p d with fence := false } : Desc) = { d with fence := false } := by
  unfold unfenced
  split <;> rfl

theorem exec_fenceRelease {s : State} (p : Slot) (hrun : s.phase = .run) (hold : s.orderedOld p.toNat = false) :
    ∃ t, exec (.fenceRelease p) s = .next t ∧ (∀ d ∈ t.descs, d.inPort = some p.toNat → d.fence = false)
      ∧ t.descs.map (fun d => { d with fence := false }) = s.descs.map (fun d => { d with fence := false })
      ∧ t.is (FWD_EPOCH_STATUS_FENCED 0) = (t.descs.any fun d => d.fence)
      ∧ t = { s with regs := t.regs, descs := t.descs } ∧ sameWords [FWD_EPOCH_STATUS_at 0] s.toBox t.toBox := by
  let c : Box := { s.toBox with descs := s.descs.map (unfenced p.toNat) }
  have hcmd : s.toBox.fenceRelease p.toNat = c.put (FWD_EPOCH_STATUS_FENCED 0) (c.descs.any fun d => d.fence) :=
    if_neg (ne_true_of_eq_false hold)
  refine ⟨_, next_onBox (actRun_run s _ hrun) hcmd, fun d hd hin => ?_, ?_, is_put c _ _ (Nat.le_of_ble_eq_true rfl) Nat.one_pos, rfl,
    put_sameWords c (FWD_EPOCH_STATUS_FENCED 0) _⟩
  · obtain ⟨e, -, rfl⟩ := List.mem_map.mp hd
    exact unfenced_fence hin
  · refine (List.map_map (f := unfenced p.toNat) (l := s.descs)).trans (List.map_congr_left fun d _ => ?_)
    exact unfenced_rest p.toNat d

/-! ### Backlog -/

/-- A map once the keys `8 * n + v` of a list are set. -/
theorem mapGet_foldl_mapSet (n : Nat) (val : Nat → Nat) (l : List Nat) (m : Sparse Nat) (k : Nat) :
    mapGet (fun _ => 0) (l.foldl (fun m v => mapSet (fun _ => 0) m (8 * n + v) (val v)) m) k
      = if ∃ v ∈ l, k = 8 * n + v then val (k - 8 * n) else mapGet (fun _ => 0) m k := by
  induction l generalizing m with
  | nil => rw [if_neg (by simp)]; rfl
  | cons v l ih =>
    rw [List.foldl_cons, ih]
    by_cases hl : ∃ w ∈ l, k = 8 * n + w
    · obtain ⟨w, hw, hk⟩ := hl
      rw [if_pos ⟨w, hw, hk⟩, if_pos ⟨w, List.mem_cons_of_mem _ hw, hk⟩]
    · rw [if_neg hl]
      by_cases hk : k = 8 * n + v
      · rw [if_pos ⟨v, List.mem_cons_self, hk⟩, hk, mapGet_mapSet_same, Nat.add_sub_cancel_left]
      · rw [mapGet_mapSet_other _ _ _ hk, if_neg]
        rintro ⟨w, hw, hkw⟩
        rcases List.mem_cons.mp hw with rfl | hw
        · exact hk hkw
        · exact hl ⟨w, hw, hkw⟩

/-- One VC of a backlog report. -/
def backlogRound (s : Box) (p : Nat) (b : Box) (v : Nat) : Box :=
  (List.range 8).foldl (fun (c : Box) t => c.setTent t { c.tent t with own := mapSet (fun _ => 0) (c.tent t).own (8 * p + v) (s.voqCells t p v) })
    { b with backlog := mapSet (fun _ => 0) b.backlog (8 * p + v) (s.backlogNow p v) }

theorem backlogRound_shows (s : Box) (p : Nat) (b : Box) (v : Nat) : ∃ ts, backlogRound s p b v
    = { b with backlog := mapSet (fun _ => 0) b.backlog (8 * p + v) (s.backlogNow p v), tents := ts } := by
  refine foldl_rel (R := fun x y : Box => ∃ ts, y = { x with tents := ts }) (fun x => ⟨x.tents, rfl⟩) ?_ _ (fun c t _ => ⟨_, rfl⟩) _
  rintro x y z ⟨_, rfl⟩ ⟨ts, rfl⟩
  exact ⟨ts, rfl⟩

theorem backlogRounds_show (s : Box) (p : Nat) (l : List Nat) (b : Box) : ∃ ts, l.foldl (backlogRound s p) b
    = { b with backlog := l.foldl (fun m v => mapSet (fun _ => 0) m (8 * p + v) (s.backlogNow p v)) b.backlog, tents := ts } := by
  induction l generalizing b with
  | nil => exact ⟨b.tents, rfl⟩
  | cons v l ih =>
    obtain ⟨ts, h⟩ := backlogRound_shows s p b v
    obtain ⟨ts', h'⟩ := ih { b with backlog := mapSet (fun _ => 0) b.backlog (8 * p + v) (s.backlogNow p v), tents := ts }
    rw [List.foldl_cons, List.foldl_cons, h]
    exact ⟨ts', h'⟩

theorem hotCheck_shows (b : Box) (p : Nat) : ∃ h q, b.hotCheck p = { b with hot := h, hotQ := q } := by
  unfold Box.hotCheck
  dsimp only
  generalize (if decide (p ∈ b.hot) = true then _ else _ : Bool) = now
  split
  · exact ⟨b.hot, b.hotQ, rfl⟩
  · exact ⟨_, _, rfl⟩

theorem exec_backlogReport {s : State} (p : Slot) (hrun : s.phase = .run) : ∃ t, exec (.backlogReport p) s = .next t
    ∧ (∀ v, v < 8 → mapGet (fun _ => 0) t.backlog (8 * p.toNat + v) = s.backlogNow p.toNat v)
    ∧ (∀ k, k / 8 ≠ p.toNat → mapGet (fun _ => 0) t.backlog k = mapGet (fun _ => 0) s.backlog k)
    ∧ t = { s with backlog := t.backlog, tents := t.tents, hot := t.hot, hotQ := t.hotQ } := by
  obtain ⟨ts, hrounds⟩ := backlogRounds_show s.toBox p.toNat (List.range 8) s.toBox
  obtain ⟨h, q, hhot⟩ := hotCheck_shows ((List.range 8).foldl (backlogRound s.toBox p.toNat) s.toBox) p.toNat
  rw [hrounds] at hhot
  have hget := mapGet_foldl_mapSet p.toNat (s.backlogNow p.toNat) (List.range 8) s.backlog
  have hcmd : s.toBox.backlogReport p.toNat = _ := (congrArg (Box.hotCheck · p.toNat) hrounds).trans hhot
  refine ⟨_, next_onBox (actRun_run s _ hrun) hcmd, fun v hv => ?_, fun k hk => ?_, rfl⟩
  · refine (hget _).trans ((if_pos ⟨v, List.mem_range.mpr hv, rfl⟩).trans ?_)
    rw [Nat.add_sub_cancel_left]
  · refine (hget _).trans (if_neg ?_)
    rintro ⟨v, hv, rfl⟩
    have := List.mem_range.mp hv
    omega

end Sys2Proof.Proofs
end

section
/-! # Settling O26: a frame bound for a port is queued there (R69, R93, R119, R391) -/

namespace Sys2Proof.Proofs

open Sys2Proof Sys2Proof.Machine Sys2Proof.Safety Sys2Proof.Laws

/-! ### The stage up to the verdict leaves the switch of its tent -/

/-- The frames, the tent's USH page and the number of the next descriptor are as before. -/
def beforeQueue (t : Nat) (b c : Box) : Prop := KeepsPage (ushPage t) b c ∧ c.descId = b.descId

section before

variable {t : Nat}

theorem beforeQueue_refl (b : Box) : beforeQueue t b b := ⟨KeepsPage.refl _ b, rfl⟩

theorem beforeQueue_trans {b c d : Box} (h : beforeQueue t b c) (k : beforeQueue t c d) : beforeQueue t b d :=
  ⟨h.1.trans k.1, k.2.trans h.2⟩

theorem descId_of_onlyRegsCtrs {b c : Box} (h : onlyRegsCtrs b c) : c.descId = b.descId := by
  obtain ⟨_, _, _, rfl⟩ := h
  rfl

theorem wr_beforeQueue (b : Box) {f : Fld} (v : Nat) (h : addrPage f.addr ≠ ushPage t) : beforeQueue t b (b.wr f v) :=
  ⟨wr_keepsPage b v h, rfl⟩

theorem setSampler_beforeQueue (b : Box) (i : Nat) (x : Sampler) : beforeQueue t b (b.setSampler i x) :=
  ⟨⟨⟨rfl, rfl, rfl, rfl⟩, fun _ _ => rfl, fun _ _ => rfl⟩, rfl⟩

variable (ht : t < 8)
include ht

theorem count_beforeQueue (b : Box) {r : Nat} (hr : r < 2304) (h : r ≠ ushPage t) {i : Nat} (hi : i < 4096) : beforeQueue t b (b.count r i) :=
  ⟨count_keepsPage (tentPage_lt ht (by decide)) hr h b hi, descId_of_onlyRegsCtrs (bump_onlyRegsCtrs b r i 1)⟩

theorem raiseInt_beforeQueue (b : Box) {r : Nat} (hr : r < 2304) (h : r ≠ ushPage t) (bit : Nat) : beforeQueue t b (b.raiseInt r bit) :=
  ⟨raiseInt_keepsPage (tentPage_lt ht (by decide)) hr h b bit, descId_of_onlyRegsCtrs (raiseInt_onlyRegs b r bit).toCtrs⟩

/-- Counts and causes of another page of the tent. -/
theorem tentCount_beforeQueue (b : Box) {c : Nat} (hc : c < 256) (h : c ≠ 4) {i : Nat} (hi : i < 4096) : beforeQueue t b (b.count (tentPage t c) i) :=
  count_beforeQueue ht b ((tentPage_lt ht hc).trans (by decide)) (tentPage_ne t h) hi

theorem tentRaise_beforeQueue (b : Box) {c : Nat} (hc : c < 256) (h : c ≠ 4) (bit : Nat) : beforeQueue t b (b.raiseInt (tentPage t c) bit) :=
  raiseInt_beforeQueue ht b ((tentPage_lt ht hc).trans (by decide)) (tentPage_ne t h) bit

omit ht in
theorem ringWrite_descId {b c : Box} {n base cap size : Nat} {head tail : Fld} {r : List Byte}
    (h : b.ringWrite n base cap size head tail r = some c) : c.descId = b.descId := by
  simp only [Box.ringWrite, Option.ite_none_left_eq_some] at h
  obtain ⟨-, h⟩ := h
  split at h
  · obtain ⟨-, h⟩ := Option.ite_none_right_eq_some.1 h
    cases h
    rfl
  · cases h
    rfl

omit ht in
theorem sampleRing_beforeQueue {b c : Box} {r : List Byte} (h : b.sampleRing t r = some c) : beforeQueue t b c := by
  have hh : addrPage (BRK_SRING_HEAD_INDEX t).addr = brkPage t :=
    addrPage_tentWord (off := 0x120) (by decide) (by decide) (Nat.add_assoc _ 0xE0000 0x120).symm
  have ht' : addrPage (BRK_SRING_TAIL_INDEX t).addr = brkPage t :=
    addrPage_tentWord (off := 0x124) (by decide) (by decide) (Nat.add_assoc _ 0xE0000 0x124).symm
  have hne : brkPage t ≠ ushPage t := tentPage_ne t (by decide)
  exact ⟨ringWrite_keepsPage (hh ▸ hne) (ht' ▸ hne) h, ringWrite_descId h⟩

/-- The end of a sample: a record in the queue on the die, or its loss. -/
theorem sampleQueued_beforeQueue (b : Box) (drop on : Bool) (r : List Byte) :
    beforeQueue t b (if drop then (b.count mgtPage 3).raiseInt (brkPage t) 1
      else if on then { (b.wr MGT_SMPQ_HEAD_INDEX (b.rd MGT_SMPQ_HEAD_INDEX + 1)) with smpq := b.smpq ++ [r] } else b) := by
  have hush : (ushPage t : Nat) < 2048 := tentPage_lt ht (by decide)
  have hmgt : (mgtPage : Nat) ≠ ushPage t := fun h => by
    have hbig : (2048 : Nat) ≤ mgtPage := by decide
    exact absurd (h ▸ hbig) (Nat.not_le.mpr hush)
  split
  · exact beforeQueue_trans (count_beforeQueue ht b (r := mgtPage) (by decide) hmgt (by decide)) (tentRaise_beforeQueue ht _ (by decide) (by decide) 1)
  · split
    · refine beforeQueue_trans (c := b.wr MGT_SMPQ_HEAD_INDEX (b.rd MGT_SMPQ_HEAD_INDEX + 1)) (wr_beforeQueue b _ fun h => ?_)
        ⟨⟨⟨rfl, rfl, rfl, rfl⟩, fun _ _ => rfl, fun _ _ => rfl⟩, rfl⟩
      have haddr : (addrPage MGT_SMPQ_HEAD_INDEX.addr : Nat) = mgtPage := by decide
      exact hmgt (haddr.symm.trans h)
    · exact beforeQueue_refl b

theorem sampleWrite_beforeQueue (b : Box) {k : Nat} (hk : k < 16) (point : Nat) (i : SampleInfo) : beforeQueue t b (b.sampleWrite t k point i) := by
  have hcount : beforeQueue t b (b.count (brkPage t) (2 * k)) := tentCount_beforeQueue ht b (by decide) (by decide) (by omega)
  rw [Box.sampleWrite]
  dsimp only
  generalize b.count (brkPage t) (2 * k) = c at hcount ⊢
  generalize hring : (if (b.rd (BRK_SMP_CFG_DEST t k)).testBit 0 = true then
    c.sampleRing t (sampleRecord k point t i (b.sampler (16 * t + k))) else none) = ring
  have hsome : ∀ u, ring = some u → beforeQueue t c u := fun u hu => by
    rw [← hring, Option.ite_none_right_eq_some] at hu
    exact sampleRing_beforeQueue hu.2
  generalize hone : (if ((b.rd (BRK_SMP_CFG_DEST t k)).testBit 0 && ring.isNone) = true then
    (c.count (brkPage t) (2 * k + 1)).raiseInt (brkPage t) 1 else ring.getD c) = d
  have hd : beforeQueue t c d := by
    rw [← hone]
    split
    · exact beforeQueue_trans (tentCount_beforeQueue ht c (by decide) (by decide) (by omega)) (tentRaise_beforeQueue ht _ (by decide) (by decide) 1)
    · cases ring with
      | none => exact beforeQueue_refl c
      | some u => exact hsome u rfl
  exact beforeQueue_trans (beforeQueue_trans hcount hd)
    (beforeQueue_trans (c := d.setSampler _ _) (setSampler_beforeQueue d _ _) (sampleQueued_beforeQueue ht _ _ _ _))

theorem sampleOne_beforeQueue (b : Box) {k : Nat} (hk : k < 16) (point : Nat) (i : SampleInfo) : beforeQueue t b (b.sampleOne t k point i).1 := by
  rw [Box.sampleOne]
  split
  · dsimp only
    generalize (if (b.sampler (16 * t + k)).fresh = true then _ else _ : Sampler) = x
    split
    · split
      · exact beforeQueue_trans (setSampler_beforeQueue b _ x) (setSampler_beforeQueue _ _ _)
      · exact beforeQueue_trans (setSampler_beforeQueue b _ x) (beforeQueue_trans (sampleWrite_beforeQueue ht _ hk point i) (setSampler_beforeQueue _ _ _))
    · exact setSampler_beforeQueue b _ _
  · exact beforeQueue_refl b

theorem samplePoint_beforeQueue (b : Box) (point : Nat) (i : SampleInfo) : beforeQueue t b (b.samplePoint t point i).1 :=
  foldl_rel (R := fun x y : Box × Option Nat => beforeQueue t x.1 y.1) (fun _ => beforeQueue_refl _)
    (fun h k => beforeQueue_trans h k) (List.range 16)
    (fun x _ hk => sampleOne_beforeQueue ht x.1 (List.mem_range.mp hk) point i) (b, none)

omit ht in
theorem lookup_beforeQueue (b : Box) (u pipe bank : Nat) (f : Frame) : beforeQueue t b (b.lookup u pipe bank f).2 := by
  unfold Box.lookup
  split
  · exact beforeQueue_refl b
  · split
    · exact beforeQueue_refl b
    · split
      · dsimp only
        split
        · exact beforeQueue_refl b
        · exact ⟨setTent_keepsPage _ _ _ _, rfl⟩
      · split
        · exact beforeQueue_refl b
        · exact beforeQueue_refl b

end before

theorem police_beforeQueue (b : Box) {p v : Nat} (hp : p / 256 < 8) (hv : v < 8) (n at_ : Nat) : beforeQueue (p / 256) b (b.police p v n at_).2 := by
  have hset (c : Bucket) (a : Nat) (w : Word) : beforeQueue (p / 256) b ((b.setBucket p v c).setTab a w) :=
    ⟨⟨⟨rfl, rfl, rfl, rfl⟩, fun _ _ => rfl, fun _ _ => rfl⟩, rfl⟩
  have hlate (c : Box) : beforeQueue (p / 256) c ((c.countPort (trnPage (p / 256)) (8 * (p % 256) + v) p 1).raiseInt (trnPage (p / 256)) 0) := by
    refine beforeQueue_trans ?_ (tentRaise_beforeQueue hp _ (by decide) (by decide) 0)
    unfold Box.countPort
    split
    · exact tentCount_beforeQueue hp c (by decide) (by decide) (by omega)
    · exact beforeQueue_refl c
  unfold Box.police
  dsimp only
  split
  · exact beforeQueue_refl b
  · dsimp only
    split
    · exact hset _ _ _
    · exact beforeQueue_trans (hset _ _ _) (hlate _)

theorem followTrace_beforeQueue (b : Box) {p : Nat} (hp : p / 256 < 8) (l : Landed) : beforeQueue (p / 256) b (b.followTrace p l).2 := by
  simp only [Box.followTrace]
  split
  · split
    · exact tentCount_beforeQueue hp b (by decide) (by decide) (by decide)
    · exact tentCount_beforeQueue hp b (by decide) (by decide) (by decide)
  · exact beforeQueue_refl b

theorem tagTrace_beforeQueue (b : Box) {p : Nat} (hp : p / 256 < 8) (l : Landed) (g : Option Nat) (tr : Option Trace) :
    beforeQueue (p / 256) b (b.tagTrace p l g tr).2 := by
  unfold Box.tagTrace
  dsimp only
  split
  · exact beforeQueue_refl b
  · split
    · exact beforeQueue_refl b
    · split
      · exact tentCount_beforeQueue hp b (by decide) (by decide) (by decide)
      · exact tentCount_beforeQueue hp b (by decide) (by decide) (by decide)

theorem judge_beforeQueue (b : Box) {p : Nat} (hp : p / 256 < 8) (l : Landed) (entry : Ecc) : beforeQueue (p / 256) b (b.judge p l entry).2 := by
  have hpol (c : Box) := police_beforeQueue c hp (frVc_lt l.frame) l.frame.length l.rawAt
  have hlook : beforeQueue (p / 256) b (if (frKind l.frame == 1 || frKind l.frame == 4) = true then (Route.self, b)
      else b.lookup (p / 256) (pipelineOf p) (b.liveBank (p / 256)) l.frame).2 := by
    split
    · exact beforeQueue_refl b
    · exact lookup_beforeQueue b _ _ _ _
  unfold Box.judge
  dsimp only
  split
  · exact beforeQueue_refl b
  · split
    · exact beforeQueue_refl b
    · generalize (if (frKind l.frame == 1 || frKind l.frame == 4) = true then (Route.self, b)
        else b.lookup (p / 256) (pipelineOf p) (b.liveBank (p / 256)) l.frame) = r at hlook ⊢
      obtain ⟨rt, c⟩ := r
      have hpolice (v : Verdict) : beforeQueue (p / 256) b (match b.police p (frVc l.frame) l.frame.length l.rawAt with
          | (false, s') => (Verdict.policed, s')
          | (true, _) => (v, (c.police p (frVc l.frame) l.frame.length l.rawAt).2)).2 := by
        have hb := hpol b
        split
        · next h =>
          rw [h] at hb
          exact hb
        · exact beforeQueue_trans hlook (hpol c)
      cases rt with
      | discard k => exact beforeQueue_refl b
      | out q =>
        dsimp only
        split
        · exact beforeQueue_refl b
        · exact hpolice _
      | self => exact hpolice _

/-! ### Entering the queue leaves what has landed -/

/-- What has landed and waits at each port, and the number of the next descriptor, are as before. -/
def keepsLanded (b c : Box) : Prop := (∀ n, (c.port n).landed = (b.port n).landed) ∧ c.descId = b.descId

theorem keepsLanded_refl (b : Box) : keepsLanded b b := ⟨fun _ => rfl, rfl⟩

theorem keepsLanded_trans {b c d : Box} (h : keepsLanded b c) (k : keepsLanded c d) : keepsLanded b d :=
  ⟨fun n => (k.1 n).trans (h.1 n), k.2.trans h.2⟩

theorem keepsLanded_of_ports {b c : Box} (hp : c.ports = b.ports) (hid : c.descId = b.descId) : keepsLanded b c :=
  ⟨fun n => congrArg Port.landed (port_of_ports hp n), hid⟩

theorem keepsLanded_of_onlyRegsCtrs {b c : Box} (h : onlyRegsCtrs b c) : keepsLanded b c := by
  obtain ⟨_, _, _, rfl⟩ := h
  exact keepsLanded_refl b

theorem giveCredit_keepsLanded (b : Box) (p v n : Nat) : keepsLanded b (b.giveCredit p v n) := by
  refine ⟨fun m => ?_, rfl⟩
  by_cases hm : m = p
  · subst hm
    have hset := congrArg Port.landed (port_setPort b m { b.port m with freed := addAt16 (b.port m).freed v n })
    exact hset
  · exact congrArg Port.landed (mapGet_mapSet_other _ _ _ hm)

theorem freeCellFrom_keepsLanded (b : Box) (t lo c : Nat) : keepsLanded b (b.freeCellFrom t lo c) := by
  unfold Box.freeCellFrom
  dsimp only
  split
  · unfold Box.rowRepair
    dsimp only
    split
    · exact keepsLanded_refl b
    · exact keepsLanded_refl b
  · exact keepsLanded_of_onlyRegsCtrs (bump_onlyRegsCtrs b _ _ _)

theorem freeCells_keepsLanded (b : Box) (t : Nat) (cs : List Nat) : keepsLanded b (b.freeCells t cs) :=
  foldl_rel keepsLanded_refl keepsLanded_trans cs (fun c x _ => freeCellFrom_keepsLanded c t _ x) b

theorem freeBlockAt_keepsLanded (b : Box) (t k : Nat) (cs : List Nat) : keepsLanded b (b.freeBlockAt t k cs) := by
  unfold Box.freeBlockAt
  split
  · exact foldl_rel keepsLanded_refl keepsLanded_trans _ (fun c x _ => freeCellFrom_keepsLanded c _ _ x) b
  · exact keepsLanded_of_onlyRegsCtrs (bump_onlyRegsCtrs b _ _ _)

theorem release_keepsLanded (b : Box) (d : Desc) : keepsLanded b (b.release d) := by
  have hcharge (c : Box) (h : keepsLanded b c) : keepsLanded b (match d.charge with
      | .landing p g v => if (c.port p).gen = g then c.giveCredit p v d.ncells else c
      | _ => c) := by
    split
    · split
      · exact keepsLanded_trans h (giveCredit_keepsLanded _ _ _ _)
      · exact h
    · exact h
  unfold Box.release
  dsimp only
  cases d.pool with
  | none => exact hcharge _ (freeCells_keepsLanded b _ _)
  | some x => exact hcharge _ (freeBlockAt_keepsLanded b _ x.1 _)

theorem ringWrite_keepsLanded {b c : Box} {n base cap size : Nat} {head tail : Fld} {r : List Byte}
    (h : b.ringWrite n base cap size head tail r = some c) : keepsLanded b c := by
  refine keepsLanded_of_ports ?_ (ringWrite_descId h)
  simp only [Box.ringWrite, Option.ite_none_left_eq_some] at h
  obtain ⟨-, h⟩ := h
  split at h
  · obtain ⟨-, h⟩ := Option.ite_none_right_eq_some.1 h
    cases h
    rfl
  · cases h
    rfl

theorem traceExit_keepsLanded (b : Box) (t : Nat) (tr : Option Trace) (out : Option Nat) (exit : Nat) (f : Frame) :
    keepsLanded b (b.traceExit t tr out exit f) := by
  -- The ring stays opaque, or the kernel would run `ringWrite` to reduce the match on its answer.
  have hring : ∀ r u, b.traceRing t r = some u → keepsLanded b u := fun _ _ h => ringWrite_keepsLanded h
  delta Box.traceExit
  obtain ⟨ring, e⟩ : ∃ g, g = b.traceRing t := ⟨_, rfl⟩
  rw [← e] at hring ⊢
  split
  · exact keepsLanded_refl b
  · next x =>
    split
    · next u hu => exact hring _ u hu
    · split
      · exact keepsLanded_of_onlyRegsCtrs (b := b.setSampler _ _) (onlyRegsCtrs_trans (bump_onlyRegsCtrs _ _ _ _) (raiseInt_onlyRegs _ _ _).toCtrs)
      · exact keepsLanded_of_onlyRegsCtrs (raiseInt_onlyRegs b _ _).toCtrs

theorem dropDesc_keepsLanded (b : Box) (d : Desc) (exit : Nat) : keepsLanded b (b.dropDesc d exit) := by
  let c : Box := { b with descs := b.descs.filter fun e => e.id ≠ d.id }
  have hfreed : keepsLanded b ((c.release d).unspill d) := keepsLanded_trans (c := c.release d) (release_keepsLanded c d) (keepsLanded_refl _)
  exact keepsLanded_trans hfreed (traceExit_keepsLanded _ _ _ _ _ _)

theorem evict_keepsLanded (b : Box) (t : Nat) (d : Desc) : keepsLanded b (b.evict t d) := by
  unfold Box.evict
  split
  · exact keepsLanded_trans (dropDesc_keepsLanded b d 3) (keepsLanded_of_onlyRegsCtrs (countPort_onlyRegsCtrs _ _ _ _ _))
  · exact dropDesc_keepsLanded b d 3

theorem pushOut_keepsLanded (t p n plen cls fuel : Nat) (b : Box) : keepsLanded b (Box.pushOut t p n plen cls fuel b) := by
  induction fuel generalizing b with
  | zero => exact keepsLanded_refl b
  | succ fuel ih =>
    unfold Box.pushOut
    split
    · exact keepsLanded_refl b
    · split
      · exact keepsLanded_refl b
      · exact keepsLanded_trans (evict_keepsLanded b t _) (ih _)

theorem admitFrame_keepsLanded (b : Box) (t p egress v n plen : Nat) : keepsLanded b (b.admitFrame t p egress v n plen).2 := by
  have hregrow : keepsLanded b (b.regrow t p) := by
    unfold Box.regrow
    split <;> exact keepsLanded_refl b
  unfold Box.admitFrame
  dsimp only
  split
  · exact hregrow
  · refine keepsLanded_trans hregrow ?_
    generalize b.regrow t p = c
    unfold Box.admitOpen
    dsimp only
    split
    · exact keepsLanded_refl c
    · split
      · exact keepsLanded_refl c
      · split
        · exact keepsLanded_refl c
        · exact pushOut_keepsLanded _ _ _ _ _ _ c

/-! ### The queue -/

/-- A descriptor keeps its place while spilling settles. -/
theorem spillOnly_desc {b c : Box} (h : spillOnly b c) {d : Desc} (hd : d ∈ b.descs) :
    ∃ e ∈ c.descs, ({ e with charge := .recall } : Desc) = { d with charge := .recall } := by
  obtain ⟨-, -, hmap⟩ := h
  have hmem : ({ d with charge := .recall } : Desc) ∈ b.descs.map fun d => { d with charge := .recall } := List.mem_map_of_mem hd
  rw [← hmap] at hmem
  exact List.mem_map.mp hmem

theorem spillOnly_keepsLanded {b c : Box} (h : spillOnly b c) : keepsLanded b c := by
  obtain ⟨⟨_, _, _, _, rfl⟩, -⟩ := h
  exact keepsLanded_refl b

/-- What identifies a frame that a port's header stage has queued. -/
def queuedAs (b : Box) (p : Nat) (f : Frame) (slot : Nat) (d : Desc) : Prop :=
  d.id = b.descId ∧ d.frame = f ∧ d.egress = slot ∧ d.vc = frVc f ∧ d.inPort = some p ∧ d.cls = b.vcClass (p / 256) (frVc f)

theorem queuedAs_of_charge {b : Box} {p slot : Nat} {f : Frame} {d e : Desc} (h : queuedAs b p f slot d)
    (he : ({ e with charge := .recall } : Desc) = { d with charge := .recall }) : queuedAs b p f slot e := by
  cases d
  cases e
  cases he
  exact h

theorem fenceStatus_shows {b c e : Box} {p slot : Nat} {f : Frame} {d : Desc} (h : spillOnly c e) (hd : d ∈ c.descs) (hq : queuedAs b p f slot d) :
    keepsLanded c e.fenceStatus ∧ ∃ x ∈ e.fenceStatus.descs, queuedAs b p f slot x := by
  obtain ⟨x, hx, hsame⟩ := spillOnly_desc h hd
  exact ⟨keepsLanded_trans (spillOnly_keepsLanded h) (keepsLanded_refl e), x, hx, queuedAs_of_charge hq hsame⟩

/-- The end of an entry in the queue: spilling and fences. -/
theorem queueSettled_shows {b c : Box} {p slot : Nat} {f : Frame} {d : Desc} (hd : d ∈ c.descs) (hq : queuedAs b p f slot d) (u : Nat) :
    keepsLanded c ((c.spillSettle u).fenceStatus) ∧ ∃ e ∈ ((c.spillSettle u).fenceStatus).descs, queuedAs b p f slot e :=
  fenceStatus_shows (spillSettle_spillOnly c u) hd hq

/-- A descriptor that is on the list stays there as credit is given and congestion shown. -/
theorem queueCharged_shows {b c : Box} {p slot : Nat} {f : Frame} {d : Desc} (hd : d ∈ c.descs) (hq : queuedAs b p f slot d)
    (credit quiet : Prop) [Decidable credit] [Decidable quiet] (v n t part : Nat) :
    let e := if credit then c.giveCredit p v n else c
    let g := if quiet then e else e.congest t part
    keepsLanded c ((g.spillSettle t).fenceStatus) ∧ ∃ x ∈ ((g.spillSettle t).fenceStatus).descs, queuedAs b p f slot x := by
  intro e g
  have he : keepsLanded c e ∧ d ∈ e.descs := by
    unfold e
    split
    · exact ⟨giveCredit_keepsLanded c p v n, hd⟩
    · exact ⟨keepsLanded_refl c, hd⟩
  have hg : keepsLanded c g ∧ ∃ x ∈ g.descs, queuedAs b p f slot x := by
    unfold g
    split
    · exact ⟨he.1, d, he.2, hq⟩
    · obtain ⟨x, hx, hsame⟩ := spillOnly_desc (congest_spillOnly e t part) he.2
      exact ⟨keepsLanded_trans he.1 (spillOnly_keepsLanded (congest_spillOnly e t part)), x, hx, queuedAs_of_charge hq hsame⟩
  obtain ⟨hkeep, x, hx, hqx⟩ := hg
  obtain ⟨hsettled, hlast⟩ := queueSettled_shows hx hqx t
  exact ⟨keepsLanded_trans hkeep hsettled, hlast⟩

/-- A new descriptor at the end of the list. -/
theorem queued_shows {b e : Box} {p slot : Nat} {f : Frame} {d : Desc} (he : ∀ m, (e.port m).landed = (b.port m).landed) (hq : queuedAs b p f slot d)
    (i j : Nat) (credit quiet : Prop) [Decidable credit] [Decidable quiet] (v n t part : Nat) :
    let c : Box := { e with descs := e.descs ++ [d], descId := i, admits := j }
    let g := if credit then c.giveCredit p v n else c
    let h := if quiet then g else g.congest t part
    (∀ m, (((h.spillSettle t).fenceStatus).port m).landed = (b.port m).landed) ∧ ∃ x ∈ ((h.spillSettle t).fenceStatus).descs, queuedAs b p f slot x := by
  intro c g h
  obtain ⟨⟨hkeep, -⟩, hlast⟩ := queueCharged_shows (c := c) (List.mem_append_right e.descs List.mem_cons_self) hq credit quiet v n t part
  exact ⟨fun m => (hkeep m).trans (he m), hlast⟩

theorem enqueue_shows (b : Box) (p : Nat) (l : Landed) (slot : Nat) (tr : Option Trace) :
    (∀ n, ((b.enqueue p l slot tr).port n).landed = (b.port n).landed) ∧ ∃ d ∈ (b.enqueue p l slot tr).descs, queuedAs b p l.frame slot d := by
  have hadmit := admitFrame_keepsLanded b (p / 256) (b.vcPart (p / 256) (frVc l.frame)) slot (frVc l.frame) (frCells l.frame) (frPlen l.frame)
  unfold Box.enqueue
  dsimp only
  generalize b.admitFrame (p / 256) (b.vcPart (p / 256) (frVc l.frame)) slot (frVc l.frame) (frCells l.frame) (frPlen l.frame) = r at hadmit ⊢
  obtain ⟨ok, c⟩ := r
  obtain ⟨hlanded, hid⟩ := hadmit
  dsimp only at hlanded hid ⊢
  generalize (if (b.poolMode (p / 256) && ok) = true then _ else none : Option (Nat × Nat)) = pool
  cases pool with
  | none => exact queued_shows hlanded ⟨hid, rfl, rfl, rfl, rfl, rfl⟩ _ _ _ _ _ _ _ _
  | some x =>
    have hfreed (y : Tent) (m : Nat) : (((c.freeCells (p / 256) l.cells).setTent (p / 256) y).port m).landed = (b.port m).landed :=
      ((freeCells_keepsLanded c (p / 256) l.cells).1 m).trans (hlanded m)
    exact queued_shows (hfreed _) ⟨hid, rfl, rfl, rfl, rfl, rfl⟩ _ _ _ _ _ _ _ _

/-! ### O26 -/

theorem settle_queue (b : Box) (p : Nat) (l : Landed) (q : Nat) (tr : Option Trace) : b.settle p l (.queue q) tr = b.enqueue p l q tr := rfl

theorem headerStage_queue {b : Box} {p q : Nat} {l : Landed} {ls : List Landed} {entry : Ecc} (hp : p / 256 < 8) (hl : (b.port p).landed = l :: ls)
    (hq : (((takeLanded b p ls).followTrace p l).2.judge p l entry).1 = .queue q) :
    ∃ c tr, b.headerStage p entry = c.enqueue p l q tr ∧ beforeQueue (p / 256) (takeLanded b p ls) c := by
  have hfollow := followTrace_beforeQueue (takeLanded b p ls) hp l
  simp only [Box.headerStage, hl]
  rw [← takeLanded]
  generalize (takeLanded b p ls).followTrace p l = r at hq hfollow ⊢
  have hjudge := judge_beforeQueue r.2 hp l entry
  generalize r.2.judge p l entry = j at hq hjudge ⊢
  obtain ⟨v, s2⟩ := j
  dsimp only at hq hjudge ⊢
  subst hq
  have hsample : beforeQueue (p / 256) s2 (s2.ingressSample p l (.queue q)).1 := samplePoint_beforeQueue hp s2 0 _
  generalize s2.ingressSample p l (.queue q) = g at hsample ⊢
  have htag := tagTrace_beforeQueue g.1 hp l g.2 r.1
  exact ⟨_, _, settle_queue _ _ _ _ _, beforeQueue_trans (beforeQueue_trans hfollow hjudge) (beforeQueue_trans hsample htag)⟩

theorem vcClass_of_keepsPage {b c : Box} {t : Nat} (h : KeepsPage (ushPage t) b c) (v : Nat) : c.vcClass t v = b.vcClass t v :=
  congrArg (wordField · (3 * v) 3) (h.word _ (addrPage_tentWord (c := 4) (off := 0x124) (by decide) (by decide) (Nat.add_assoc _ 0x40000 0x124).symm))

/-- Settles O26: a frame that fails a check is counted and credited, one on a closed VC is not credited, one for a port enters its queue;
fences and backlogs follow from what their commands write. -/
theorem headerStageTakesTheOldestFrame : Obligations.HeaderStageTakesTheOldestFrame := by
  unfold Obligations.HeaderStageTakesTheOldestFrame
  intro s p hrun
  have hp : p.toNat / 256 < 8 := by have := p.isLt; omega
  refine ⟨fun l ls entry hl => ⟨fun k hbad hport => ?_, fun hclosed hport => ?_, fun q hq => ?_⟩, exec_fenceRelease p hrun, exec_backlogReport p hrun⟩
  · obtain ⟨hx, hdescs, hctr⟩ := headerStage_bad_discards hl hp hport hbad (headerCheck_bad_lt hbad) entry
    obtain ⟨hlanded, hfreed⟩ := creditedPort_fields { s.port p.toNat with landed := ls } l
    rw [← hx] at hlanded hfreed
    exact ⟨_, actRun_run s _ hrun, hlanded, hctr, hfreed, hdescs⟩
  · obtain ⟨hkeeps, hctr⟩ := headerStage_closed_discards hl hp hport hclosed entry
    have hport' : (s.headerStage p.toNat entry).port p.toNat = { s.port p.toNat with landed := ls } :=
      (hkeeps.port p.toNat).trans (port_setPort _ _ _)
    have hlanded := congrArg Port.landed hport'
    have hfreed := congrArg Port.freed hport'
    exact ⟨_, actRun_run s _ hrun, hlanded, hctr, hfreed, hkeeps.descs⟩
  · obtain ⟨c, tr, hstage, hpage, hid⟩ := headerStage_queue hp hl hq
    obtain ⟨e, he⟩ : ∃ e, c.enqueue p.toNat l q tr = e := ⟨_, rfl⟩
    obtain ⟨hlanded, d, hd, hdid, hframe, hegress, hvc, hin, hcls⟩ := enqueue_shows c p.toNat l q tr
    rw [he] at hstage hlanded hd
    refine ⟨_, next_onBox (actRun_run s _ hrun) hstage, (hlanded _).trans ?_, d, hd, hdid.trans hid, hframe, hegress, hvc, hin,
      hcls.trans (vcClass_of_keepsPage hpage _)⟩
    exact (congrArg Port.landed (hpage.port p.toNat)).trans (congrArg Port.landed (port_setPort s.toBox p.toNat { s.port p.toNat with landed := ls }))

end Sys2Proof.Proofs
end

section
/-! # Grants of Midway (R24, R97, R111, R136) -/

namespace Sys2Proof.Proofs

open Sys2Proof Sys2Proof.Machine Sys2Proof.Safety Sys2Proof.Laws

/-! ### What reading a granted frame leaves -/

/-- Staged and queued frames, results, Midway's rounds and counters, and the tents' ticks are as before. -/
structure ReadKeeps (b c : Box) : Prop where
  staging : c.staging = b.staging
  descs : c.descs = b.descs
  results : c.results = b.results
  mdw : c.mdw = b.mdw
  tick : ∀ t, c.tick32 t = b.tick32 t
  ctr : ∀ j, j < 4096 → c.ctr mdwPage j = b.ctr mdwPage j

theorem ReadKeeps.refl (b : Box) : ReadKeeps b b := ⟨rfl, rfl, rfl, rfl, fun _ => rfl, fun _ _ => rfl⟩

theorem ReadKeeps.trans {b c d : Box} (h : ReadKeeps b c) (k : ReadKeeps c d) : ReadKeeps b d :=
  ⟨k.staging.trans h.staging, k.descs.trans h.descs, k.results.trans h.results, k.mdw.trans h.mdw, fun t => (k.tick t).trans (h.tick t),
    fun j hj => (k.ctr j hj).trans (h.ctr j hj)⟩

theorem readKeeps_of_logged {b c : Box} (h : logged b c) (hctr : ∀ j, j < 4096 → c.ctr mdwPage j = b.ctr mdwPage j) : ReadKeeps b c := by
  obtain ⟨_, _, _, _, _, _, _, rfl⟩ := h
  exact ⟨rfl, rfl, rfl, rfl, fun _ => rfl, hctr⟩

theorem raiseInt_readKeeps (b : Box) (p : Page) (bit : Nat) : ReadKeeps b (b.raiseInt p bit) :=
  readKeeps_of_logged (logged_of_onlyRegs (raiseInt_onlyRegs b p bit)) fun _ _ => ctr_of_onlyRegs (raiseInt_onlyRegs b p bit) _ _

/-- A counter of a USH page is none of Midway's. -/
theorem ushCtr_ne (t : Nat) {i j : Nat} (hi : i < 4096) (hj : j < 4096) : mdwPage * 4096 + j ≠ ushPage t * 4096 + i := by
  change (2054 * 4096 + j : Nat) ≠ (256 * t + 4) * 4096 + i
  omega

theorem ushCount_readKeeps (b : Box) (t : Nat) {i : Nat} (hi : i < 4096) : ReadKeeps b (b.count (ushPage t) i) :=
  readKeeps_of_logged (logged_of_onlyRegsCtrs (bump_onlyRegsCtrs b _ i 1)) fun _ hj => ctr_bump_other b _ _ i _ 1 (ushCtr_ne t hi hj)

theorem rowRepair_readKeeps (b : Box) (t r : Nat) : ReadKeeps b (b.rowRepair t r) := by
  unfold Box.rowRepair
  dsimp only
  split
  · exact ⟨rfl, rfl, rfl, rfl, fun _ => rfl, fun _ _ => rfl⟩
  · exact ReadKeeps.refl b

theorem postFault_readKeeps (b : Box) (cls cause unit tent pattern : Nat) : ReadKeeps b (b.postFault cls cause unit tent pattern) := by
  refine readKeeps_of_logged (postFault_logged b _ _ _ _ _) fun j hj => postFault_ctr_other b _ _ _ _ _ fun h => ?_
  have hnum : 2054 * 4096 + j = 2063 * 4096 + 1 := h
  omega

theorem rowFault_readKeeps (b : Box) (t c : Nat) : ReadKeeps b (b.rowFault t c) := by
  let d : Box := { b with freeCtr := b.freeCtr + 1 }
  have hpost : ReadKeeps b (d.postFault 5 ((Config.freeBits b.freeCtr).toNat % 256) (cellRow c) t 0) :=
    ReadKeeps.trans (c := d) ⟨rfl, rfl, rfl, rfl, fun _ => rfl, fun _ _ => rfl⟩ (postFault_readKeeps d _ _ _ _ _)
  unfold Box.rowFault Box.takeFree
  dsimp only
  split
  · exact hpost.trans (ReadKeeps.trans (c := Box.setTent _ _ _) ⟨rfl, rfl, rfl, rfl, fun _ => rfl, fun _ _ => rfl⟩ (rowRepair_readKeeps _ _ _))
  · exact hpost

theorem foldl_readKeeps {α : Type} {f : Box → α → Box} (hf : ∀ c x, ReadKeeps c (f c x)) (l : List α) (b : Box) : ReadKeeps b (l.foldl f b) :=
  foldl_rel ReadKeeps.refl ReadKeeps.trans l (fun c x _ => hf c x) b

theorem readSpan_readKeeps (b : Box) (t : Nat) (cells : List Nat) (pool : Option (Nat × Nat)) (f : Frame) (reads : List CellRead) (off n : Nat) :
    ReadKeeps b (b.readSpan t cells pool f reads off n).2 := by
  unfold Box.readSpan
  dsimp only
  have hwrong (c : Box) : ReadKeeps c ((c.count (ushPage t) 2050).raiseInt (ushPage t) 0) :=
    (ushCount_readKeeps c t (by decide)).trans (raiseInt_readKeeps _ _ _)
  have hcorrected (c : Box) (x : Nat) : ReadKeeps c ((c.count (ushPage t) 2049).rowFault t x) :=
    (ushCount_readKeeps c t (by decide)).trans (rowFault_readKeeps _ _ _)
  have hfail (c : Box) : ReadKeeps c ((c.count (ushPage t) 2048).raiseInt (ushPage t) 0) :=
    (ushCount_readKeeps c t (by decide)).trans (raiseInt_readKeeps _ _ _)
  have hlink (c : Box) : ReadKeeps c (c.count (ushPage t) 2049) := ushCount_readKeeps c t (by decide)
  split
  · exact ReadKeeps.trans (foldl_readKeeps (fun c _ => hwrong c) _ b) (ReadKeeps.trans (foldl_readKeeps (fun c _ => hcorrected c _) _ _)
      (foldl_readKeeps (fun c _ => hlink c) _ _))
  · refine ReadKeeps.trans ?_ (hfail _)
    exact ReadKeeps.trans (foldl_readKeeps (fun c _ => hwrong c) _ b) (ReadKeeps.trans (foldl_readKeeps (fun c _ => hcorrected c _) _ _)
      (foldl_readKeeps (fun c _ => hlink c) _ _))

/-- What is read depends on the tent's chain and pools alone. -/
theorem readSpan_out {b c : Box} {t : Nat} (htent : c.tent t = b.tent t) (hok : c.blockOk t = b.blockOk t) (hbase : c.chainBase t = b.chainBase t)
    (cells : List Nat) (pool : Option (Nat × Nat)) (f : Frame) (reads : List CellRead) (off n : Nat) :
    (c.readSpan t cells pool f reads off n).1 = (b.readSpan t cells pool f reads off n).1 := by
  unfold Box.readSpan
  dsimp only
  rw [htent, hok, hbase]
  split
  · rfl
  · rfl

/-! ### Copies of results that cross -/

/-- What the crossing of results leaves. -/
structure CrossKeeps (b c : Box) : Prop where
  mdw : c.mdw = b.mdw
  ctrs : c.ctrs = b.ctrs
  dues : c.results.map (fun r => (r.id, r.due)) = b.results.map fun r => (r.id, r.due)
  tick : ∀ t, c.tick32 t = b.tick32 t

theorem CrossKeeps.refl (b : Box) : CrossKeeps b b := ⟨rfl, rfl, rfl, fun _ => rfl⟩

theorem CrossKeeps.trans {b c d : Box} (h : CrossKeeps b c) (k : CrossKeeps c d) : CrossKeeps b d :=
  ⟨k.mdw.trans h.mdw, k.ctrs.trans h.ctrs, k.dues.trans h.dues, fun t => (k.tick t).trans (h.tick t)⟩

theorem copyTo_crossKeeps (b : Box) (r : ResRec) (p : Nat) : CrossKeeps b (b.copyTo r p) := by
  unfold Box.copyTo
  dsimp only
  split
  · exact ⟨rfl, rfl, rfl, fun _ => rfl⟩
  · exact ⟨rfl, rfl, rfl, fun _ => rfl⟩

theorem sendCopies_crossKeeps (b : Box) (u : Nat) (r : ResRec) : CrossKeeps b (b.sendCopies u r) := by
  unfold Box.sendCopies
  split
  · exact CrossKeeps.refl b
  · next r' _ =>
    dsimp only
    split
    · exact CrossKeeps.refl b
    · refine CrossKeeps.trans (foldl_rel CrossKeeps.refl CrossKeeps.trans (inTent u r'.won) (fun c p _ => copyTo_crossKeeps c r' p) b) ?_
      generalize (inTent u r'.won).foldl (fun (b : Box) p => b.copyTo r' p) b = c
      refine ⟨rfl, rfl, ?_, fun _ => rfl⟩
      rw [List.map_map]
      refine List.map_congr_left fun q _ => ?_
      simp only [Function.comp]
      split <;> rfl

theorem crossTent_crossKeeps (b : Box) (u : Nat) : CrossKeeps b (b.crossTent u) :=
  foldl_rel CrossKeeps.refl CrossKeeps.trans b.results (fun c r _ => sendCopies_crossKeeps c u r) b

/-! ### The grant -/

theorem grantBytes_shows (b : Box) {t : Nat} (n : Nat) (ht : t < 8) : (b.grantBytes t n).ctr mdwPage (8 + t) = b.ctr mdwPage (8 + t) + BitVec.ofNat 64 n
    ∧ (b.grantBytes t n).tents = b.tents ∧ (b.grantBytes t n).results = b.results ∧ (b.grantBytes t n).staging = b.staging
    ∧ (b.grantBytes t n).descs = b.descs ∧ (b.grantBytes t n).mdw = b.mdw ∧ (∀ u, (b.grantBytes t n).tick32 u = b.tick32 u)
    ∧ ∀ f : Fld, 0x1000000 ≤ f.addr → (b.grantBytes t n).rd f = b.rd f := by
  have hctr := bump_ctr_add b mdwPage (8 + t) n
  have hwords := bump_sameWords b mdwPage (8 + t) n
  obtain ⟨r, o, c, hframe⟩ := bump_onlyRegsCtrs b mdwPage (8 + t) n
  have hrd : ∀ f : Fld, 0x1000000 ≤ f.addr → (b.bump mdwPage (8 + t) n).rd f = b.rd f := fun f hf => rd_of_sameWords hwords fun hmem => by
    have hbase : pageBase mdwPage = 0x60000 := by decide
    have hvector := pageVector_lt (r := mdwPage) (by decide)
    simp only [causeWords, ovfFld, pageFld, List.mem_cons, List.not_mem_nil, or_false, hbase] at hmem
    omega
  unfold Box.grantBytes
  rw [hframe] at hctr hrd ⊢
  exact ⟨hctr, rfl, rfl, rfl, rfl, rfl, fun _ => rfl, hrd⟩

theorem chain_of_rd {b c : Box} (t : Nat) (h : ∀ f : Fld, 0x1000000 ≤ f.addr → c.rd f = b.rd f) :
    c.blockOk t = b.blockOk t ∧ c.chainBase t = b.chainBase t := by
  have hsmall : c.rd (USH_POOL_SMALL_BLOCKS t) = b.rd (USH_POOL_SMALL_BLOCKS t) := h _ (by
    show 0x1000000 ≤ USH_POOL_SMALL_at t
    unfold USH_POOL_SMALL_at
    omega)
  have hmed : c.rd (USH_POOL_MED_BLOCKS t) = b.rd (USH_POOL_MED_BLOCKS t) := h _ (by
    show 0x1000000 ≤ USH_POOL_MED_at t
    unfold USH_POOL_MED_at
    omega)
  have hlarge : c.rd (USH_POOL_LARGE_BLOCKS t) = b.rd (USH_POOL_LARGE_BLOCKS t) := h _ (by
    show 0x1000000 ≤ USH_POOL_LARGE_at t
    unfold USH_POOL_LARGE_at
    omega)
  have hmode : c.rd (USH_CTRL_ALLOC_MODE t) = b.rd (USH_CTRL_ALLOC_MODE t) := h _ (by
    show 0x1000000 ≤ USH_CTRL_at t
    unfold USH_CTRL_at
    omega)
  have hbase : c.poolBase t = b.poolBase t := by
    funext k
    unfold Box.poolBase
    rw [hsmall, hmed]
  have hblocks : c.poolBlocks t = b.poolBlocks t := by
    funext k
    unfold Box.poolBlocks
    rw [hsmall, hmed, hlarge]
  constructor
  · funext k x
    rw [Box.blockOk, Box.blockOk, hbase, hblocks]
  · rw [Box.chainBase, Box.chainBase, Box.poolMode, Box.poolMode, Box.poolEnd, Box.poolEnd, hmode, hsmall, hmed, hlarge]

theorem midwayPick_tent {b : Box} {p v t : Nat} {o : Offer} {m : Mdw} (h : b.midwayPick p v = some (t, o, m)) : t < 8 := by
  unfold Box.midwayPick at h
  dsimp only at h
  split at h
  · next t' d hd =>
    obtain ⟨x, hx, heq⟩ := Option.map_eq_some_iff.mp h
    cases heq
    refine Nat.lt_of_not_le fun hle => ?_
    rw [List.getD_eq_default _ _ (by simpa using hle)] at hx
    cases hx
  · cases h

/-- The granted frame and the box before it is read. -/
def granted (b : Box) (p v t n : Nat) (m : Mdw) : Box := Box.grantBytes { b with mdw := mapSet (fun _ => {}) b.mdw (8 * p + v) m } t n

section
variable {b : Box} {p v t : Nat} {m : Mdw} (reads : List CellRead)

theorem midwayGrant_frame {d : Desc} (hpick : (b.crossTent (p / 256)).midwayPick p v = some (t, .frame d, m))
    (hroom : (b.crossTent (p / 256)).stagingRoom p v (frCells d.frame) = true) : b.midwayGrant p v reads
      = let c := granted (b.crossTent (p / 256)) p v t d.frame.length m
        ((c.readDesc d reads).2.grantFrame p v (c.readDesc d reads).1).spillSettle t := by
  unfold Box.midwayGrant
  dsimp only
  rw [hpick]
  exact if_neg (ne_false_of_eq_true hroom)

theorem midwayGrant_result {r : ResRec} (hpick : (b.crossTent (p / 256)).midwayPick p v = some (t, .result r, m))
    (hroom : (b.crossTent (p / 256)).stagingRoom p v (frCells r.frame) = true) : b.midwayGrant p v reads
      = ((((granted (b.crossTent (p / 256)) p v t r.frame.length m).readResult r reads).winTurn p r).crossTent (p / 256)) := by
  unfold Box.midwayGrant
  dsimp only
  rw [hpick]
  exact if_neg (ne_false_of_eq_true hroom)

end

theorem granted_shows (b : Box) (p v n : Nat) (m : Mdw) {t : Nat} (ht : t < 8) :
    (granted b p v t n m).ctr mdwPage (8 + t) = b.ctr mdwPage (8 + t) + BitVec.ofNat 64 n ∧ (granted b p v t n m).mdwOf p v = m
    ∧ (granted b p v t n m).staging = b.staging ∧ (granted b p v t n m).descs = b.descs ∧ (granted b p v t n m).results = b.results
    ∧ (∀ u, (granted b p v t n m).tick32 u = b.tick32 u) ∧ ∀ u, (granted b p v t n m).tent u = b.tent u
      ∧ (granted b p v t n m).blockOk u = b.blockOk u ∧ (granted b p v t n m).chainBase u = b.chainBase u := by
  obtain ⟨hctr, htents, hres, hstage, hdescs, hmdw, htick, hrd⟩ := grantBytes_shows { b with mdw := mapSet (fun _ => {}) b.mdw (8 * p + v) m } n ht
  refine ⟨hctr, ?_, hstage, hdescs, hres, htick, fun u => ⟨?_, ?_⟩⟩
  · unfold Box.mdwOf granted
    rw [hmdw, mapGet_mapSet_same]
  · unfold granted
    rw [Box.tent, Box.tent, htents]
  · exact chain_of_rd u hrd

/-- A queued frame that is granted leaves its queue for the port's staging, as it was read. -/
theorem grantFrame_shows (b : Box) (p v t n : Nat) (m : Mdw) (ht : t < 8) (d : Desc) (reads : List CellRead) :
    let c := granted b p v t n m
    let u := ((c.readDesc d reads).2.grantFrame p v (c.readDesc d reads).1).spillSettle t
    let d' := (b.readDesc d reads).1
    u.mdwOf p v = m ∧ u.ctr mdwPage (8 + t) = b.ctr mdwPage (8 + t) + BitVec.ofNat 64 n
      ∧ u.descs.map (fun e => e.id) = (b.descs.filter fun e => e.id ≠ d.id).map (fun e => e.id)
      ∧ u.staged (8 * p + v) = b.staged (8 * p + v) ++ [stagedOf { d' with trace := traceStage d'.trace 3 (b.tick32 d'.tent) } none] := by
  intro c u d'
  obtain ⟨hctr, hmdw, hstage, hdescs, -, htick, hchain⟩ := granted_shows b p v n m ht
  have hread : (c.readDesc d reads).1 = d' :=
    congrArg d.readAs (readSpan_out (hchain d.tent).1 (hchain d.tent).2.1 (hchain d.tent).2.2 d.cells d.pool d.frame reads 0 d.cells.length)
  have hkeep : ReadKeeps c (c.readDesc d reads).2 := readSpan_readKeeps c d.tent d.cells d.pool d.frame reads 0 d.cells.length
  have hu : u = ((c.readDesc d reads).2.grantFrame p v d').spillSettle t := by
    unfold u
    rw [hread]
  obtain ⟨⟨r, o, ds, sp, hframe⟩, -, hmap⟩ := spillSettle_spillOnly ((c.readDesc d reads).2.grantFrame p v d') t
  rw [← hu] at hframe hmap
  generalize (c.readDesc d reads).2 = e at hkeep hframe hmap
  have hids : u.descs.map (fun x => x.id) = (e.descs.filter fun x => x.id ≠ d.id).map fun x => x.id := by
    have h := congrArg (List.map Desc.id) hmap
    rw [List.map_map, List.map_map] at h
    exact h
  have hstaged : u.staged (8 * p + v) = e.staged (8 * p + v) ++ [stagedOf { d' with trace := traceStage d'.trace 3 (e.tick32 d'.tent) } none] := by
    rw [hframe]
    exact mapGet_mapSet_same ..
  refine ⟨?_, ?_, ?_, ?_⟩
  · rw [hframe]
    exact (congrArg (fun x : Sparse Mdw => mapGet (fun _ => {}) x (8 * p + v)) hkeep.mdw).trans hmdw
  · rw [hframe]
    exact (hkeep.ctr (8 + t) (by omega)).trans hctr
  · rw [hids, hkeep.descs, hdescs]
  · rw [hstaged, (hkeep.tick d'.tent).trans (htick d'.tent), Box.staged, hkeep.staging, hstage]
    rfl

/-- A result that wins its turn at a port is due there no more. -/
theorem winTurn_due (b : Box) (p : Nat) (r : ResRec) : ∀ q ∈ (b.winTurn p r).results, q.id = r.id → p ∉ q.due := by
  intro q hq hid hdue
  obtain ⟨q', -, rfl⟩ := List.mem_map.mp hq
  by_cases h : q'.id = r.id
  · rw [if_pos h] at hdue
    exact absurd rfl (of_decide_eq_true (List.mem_filter.mp hdue).2)
  · rw [if_neg h] at hid
    exact h hid

theorem readResult_readKeeps (b : Box) (r : ResRec) (reads : List CellRead) : (b.readResult r reads).mdw = b.mdw
    ∧ (∀ j, j < 4096 → (b.readResult r reads).ctr mdwPage j = b.ctr mdwPage j) := by
  have hkeep := readSpan_readKeeps b r.tent r.cells none r.frame reads 0 r.cells.length
  unfold Box.readResult Box.readFrame
  dsimp only
  generalize b.readSpan r.tent r.cells none r.frame reads 0 r.cells.length = x at hkeep ⊢
  exact ⟨hkeep.mdw, hkeep.ctr⟩

theorem grantResult_shows (b : Box) (p v t n : Nat) (m : Mdw) (ht : t < 8) (r : ResRec) (reads : List CellRead) :
    let u := ((((granted b p v t n m).readResult r reads).winTurn p r).crossTent (p / 256))
    u.mdwOf p v = m ∧ u.ctr mdwPage (8 + t) = b.ctr mdwPage (8 + t) + BitVec.ofNat 64 n ∧ ∀ q ∈ u.results, q.id = r.id → p ∉ q.due := by
  obtain ⟨hctr, hmdw, -⟩ := granted_shows b p v n m ht
  obtain ⟨hkeep, hkctr⟩ := readResult_readKeeps (granted b p v t n m) r reads
  have hdue := winTurn_due ((granted b p v t n m).readResult r reads) p r
  have hcross := crossTent_crossKeeps (((granted b p v t n m).readResult r reads).winTurn p r) (p / 256)
  intro u
  refine ⟨?_, ?_, fun q hq hid => ?_⟩
  · exact (congrArg (fun x : Sparse Mdw => mapGet (fun _ => {}) x (8 * p + v)) (hcross.mdw.trans hkeep)).trans hmdw
  · exact (ctr_of_ctrs hcross.ctrs _ _).trans ((hkctr (8 + t) (by omega)).trans hctr)
  · have hmem : (q.id, q.due) ∈ u.results.map fun r => (r.id, r.due) := List.mem_map_of_mem hq
    rw [hcross.dues] at hmem
    obtain ⟨q', hq', heq⟩ := List.mem_map.mp hmem
    obtain ⟨hqid, hqdue⟩ := Prod.mk.inj heq
    exact hqdue ▸ hdue q' hq' (hqid.trans hid)

end Sys2Proof.Proofs
end

section
/-! # Settling O28: transfers of Midway (R137, R194, R351, R465) -/

namespace Sys2Proof.Proofs

open Sys2Proof Sys2Proof.Machine Sys2Proof.Safety Sys2Proof.Laws

/-! ### Spilling, by what its steps keep -/

/-- What every step of the settling of spilling keeps, it keeps. -/
theorem spillSettle_rel {R : Box → Box → Prop} (hrefl : ∀ b, R b b) (htrans : ∀ {b c d}, R b c → R c d → R b d)
    (hmaps : ∀ b d sp, R b { b with descs := d, spills := sp }) (henv : ∀ b p, R b (b.envEvent p 4)) (hstatus : ∀ b u, R b (b.spillStatus u))
    (b : Box) (t : Nat) : R b (b.spillSettle t) := by
  have hset (c : Box) (u q : Nat) (x : Option Spill) : R c (c.setSpill u q x) := hmaps c c.descs _
  have hcongest (c : Box) (u part : Nat) : R c (c.congest u part) := foldl_rel hrefl htrans _ (fun c p _ => henv c p) c
  have hassign (c : Box) (q : Nat) : R c (c.spillAssign t q) := by
    rw [Box.spillAssign]
    split
    · exact hrefl c
    · split
      · exact hrefl c
      · dsimp only
        split
        · exact hrefl c
        · exact htrans (hset c t q _) (hcongest _ _ _)
  have hstart (c : Box) (p : Nat) : R c (c.spillStart t p) := by
    rw [Box.spillStart]
    split
    · split
      · exact hrefl c
      · exact htrans (hset c t _ _) (hassign _ _)
    · exact hrefl c
  have hleave (c : Box) (q : Nat) : R c (c.spillLeaveOne t q) := by
    rw [Box.spillLeaveOne]
    split
    · exact hrefl c
    · split
      · exact hrefl c
      · exact hmaps c _ _
  have hstop : R b (b.spillStop t) := by
    rw [Box.spillStop]
    split
    · exact hrefl b
    · exact hmaps b b.descs _
  have hleft : R b ((b.spillStop t).spillLeave t) := htrans hstop (foldl_rel hrefl htrans _ (fun c q _ => hleave c q) _)
  exact htrans (htrans (htrans hleft (foldl_rel hrefl htrans [0, 1, 2, 3] (fun c p _ => hstart c p) _))
    (foldl_rel hrefl htrans _ (fun c q _ => hassign c q) _)) (hstatus _ _)

/-! ### The Midway error stays shown -/

/-- A Midway error that is shown stays shown. -/
def mdwKept (b c : Box) : Prop := b.is (pageFld mdwPage 16 1 1) = true → c.is (pageFld mdwPage 16 1 1) = true

theorem mdwKept_of_regs {b c : Box} (h : c.regs = b.regs) : mdwKept b c := fun hb => (is_of_regs h _).trans hb

theorem mdwCause_addr : (pageFld mdwPage 16 1 1).addr = 0x60010 := by decide

theorem wr_mdwKept (b : Box) {f : Fld} (v : Nat) (h : 0x1000000 ≤ f.addr) : mdwKept b (b.wr f v) := fun hb =>
  (is_wr_word b f _ v (by rw [mdwCause_addr]; omega)).trans hb

theorem raiseInt_mdwKept (b : Box) {q : Nat} {bit : Nat} (hbit : bit < 32) : mdwKept b (b.raiseInt q bit) := fun hb => by
  by_cases hq : q < 2304
  · exact raiseInt_cause_kept b (p := mdwPage) (by decide) hq hbit hb
  · have hfar : ¬ @Eq Nat (q / 256) 8 := by omega
    refine (is_raiseInt _ _ _ fun hmem => ?_).trans hb
    rw [mdwCause_addr] at hmem
    rcases List.mem_cons.mp hmem with h | h
    · have hbase : pageBase q = 0x1000000 * (q / 256 + 1) + q % 256 * 0x10000 := if_neg hfar
      rw [hbase] at h
      omega
    · have h := List.mem_singleton.mp h
      omega

theorem bump_mdwKept (b : Box) {q i : Nat} (hi : i < 4096) (n : Nat) : mdwKept b (b.bump q i n) := by
  unfold Box.bump
  dsimp only
  split
  · refine fun hb => raiseInt_mdwKept _ (by decide) ?_
    refine (is_put_apart _ true ⟨?_, .inl ?_⟩).trans hb
    · show i % 32 + 1 ≤ 32
      omega
    · show pageBase mdwPage + 16 ≠ pageBase q + (0x1100 + 4 * (i / 32))
      have hmod := pageBase_mod mdwPage
      have hmod' := pageBase_mod q
      omega
  · exact mdwKept_of_regs rfl

theorem mdwKept_trans {b c d : Box} (h : mdwKept b c) (k : mdwKept c d) : mdwKept b d := k ∘ h

theorem envEvent_mdwKept (b : Box) (p : Nat) : mdwKept b (b.envEvent p 4) := by
  have hput : mdwKept b (b.put { CAL_SCHED_STATUS_ENV p with lo := 4 } true) := by
    refine wr_mdwKept b _ ?_
    show 0x1000000 ≤ CAL_SCHED_STATUS_at p
    unfold CAL_SCHED_STATUS_at
    omega
  unfold Box.envEvent
  split
  · unfold Box.envBreak
    dsimp only
    split
    · exact mdwKept_of_regs rfl
    · exact mdwKept_trans hput (raiseInt_mdwKept _ (by decide))
  · exact mdwKept_of_regs rfl

theorem spillStatus_mdwKept (b : Box) (t : Nat) : mdwKept b (b.spillStatus t) := by
  have hush : 0x1000000 ≤ USH_STATUS_at t := by
    unfold USH_STATUS_at
    omega
  have hputs (x y z : Bool) : mdwKept b (((b.put (USH_STATUS_SPILLING t) x).put (USH_STATUS_SPILL_FULL t) y).put (USH_STATUS_DESC_LIMIT t) z) :=
    mdwKept_trans (mdwKept_trans (wr_mdwKept b _ hush) (wr_mdwKept _ _ hush)) (wr_mdwKept _ _ hush)
  unfold Box.spillStatus
  dsimp only
  split
  · exact mdwKept_trans (hputs _ _ _) (raiseInt_mdwKept _ (by decide))
  · exact hputs _ _ _

theorem spillSettle_mdwKept (b : Box) (t : Nat) : mdwKept b (b.spillSettle t) :=
  spillSettle_rel (R := mdwKept) (fun _ => id) (fun h k => k ∘ h) (fun _ _ _ => mdwKept_of_regs rfl) envEvent_mdwKept spillStatus_mdwKept b t

/-! ### A frame whose last transfer has been accepted -/

/-- Staged frames, Midway's counters and a shown Midway error are as before. -/
structure TransferKeeps (b c : Box) : Prop where
  staging : c.staging = b.staging
  ctr : ∀ j, j < 4096 → c.ctr mdwPage j = b.ctr mdwPage j
  cause : mdwKept b c

theorem TransferKeeps.refl (b : Box) : TransferKeeps b b := ⟨rfl, fun _ _ => rfl, id⟩

theorem TransferKeeps.trans {b c d : Box} (h : TransferKeeps b c) (k : TransferKeeps c d) : TransferKeeps b d :=
  ⟨k.staging.trans h.staging, fun j hj => (k.ctr j hj).trans (h.ctr j hj), k.cause ∘ h.cause⟩

theorem ushCount_transferKeeps (b : Box) (t : Nat) : TransferKeeps b (b.count (ushPage t) 2048) := by
  have hkeep := ushCount_readKeeps b t (i := 2048) (by decide)
  exact ⟨hkeep.staging, hkeep.ctr, bump_mdwKept b (by decide) 1⟩

theorem freeCellFrom_transferKeeps (b : Box) (t lo c : Nat) : TransferKeeps b (b.freeCellFrom t lo c) := by
  unfold Box.freeCellFrom
  dsimp only
  split
  · unfold Box.rowRepair
    dsimp only
    split
    · exact ⟨rfl, fun _ _ => rfl, id⟩
    · exact ⟨rfl, fun _ _ => rfl, id⟩
  · exact ushCount_transferKeeps b t

theorem release_transferKeeps (b : Box) (d : Desc) : TransferKeeps b (b.release d) := by
  have hcharge (c : Box) (h : TransferKeeps b c) : TransferKeeps b (match d.charge with
      | .landing p g v => if (c.port p).gen = g then c.giveCredit p v d.ncells else c
      | _ => c) := by
    split
    · split
      · exact h.trans ⟨rfl, fun _ _ => rfl, id⟩
      · exact h
    · exact h
  have hfree : TransferKeeps b (b.freeCells d.tent d.cells) :=
    foldl_rel TransferKeeps.refl TransferKeeps.trans d.cells (fun e x _ => freeCellFrom_transferKeeps e d.tent _ x) b
  have hblock (k : Nat) : TransferKeeps b (b.freeBlockAt d.tent k d.cells) := by
    unfold Box.freeBlockAt
    split
    · exact foldl_rel TransferKeeps.refl TransferKeeps.trans d.cells (fun e x _ => freeCellFrom_transferKeeps e d.tent 0 x) b
    · exact ushCount_transferKeeps b _
  unfold Box.release
  dsimp only
  cases d.pool with
  | none => exact hcharge _ hfree
  | some x => exact hcharge _ (hblock x.1)

theorem spillSettle_transferKeeps (b : Box) (t : Nat) : TransferKeeps b (b.spillSettle t) := by
  have hcause := spillSettle_mdwKept b t
  obtain ⟨⟨_, _, _, _, h⟩, -⟩ := spillSettle_spillOnly b t
  rw [h] at hcause ⊢
  exact ⟨rfl, fun _ _ => rfl, hcause⟩

/-- The frame is staged as it stands after one more transfer. -/
theorem frameTransfer_shows (b : Box) (p v : Nat) (x : Staged) (zero : Bool) :
    (b.frameTransfer p v x zero).staged (8 * p + v) = putOpen (b.stagedNext p x zero) (b.staged (8 * p + v))
      ∧ (∀ j, j < 4096 → (b.frameTransfer p v x zero).ctr mdwPage j = b.ctr mdwPage j) ∧ mdwKept b (b.frameTransfer p v x zero) := by
  let c := b.setStaged (8 * p + v) (putOpen (b.stagedNext p x zero) (b.staged (8 * p + v)))
  have hset : c.staged (8 * p + v) = putOpen (b.stagedNext p x zero) (b.staged (8 * p + v)) := mapGet_mapSet_same ..
  have hkeep : TransferKeeps c (b.frameTransfer p v x zero) := by
    unfold Box.frameTransfer
    dsimp only
    split
    · exact (release_transferKeeps c x.desc).trans (spillSettle_transferKeeps _ _)
    · exact TransferKeeps.refl c
  refine ⟨?_, hkeep.ctr, hkeep.cause⟩
  rw [Box.staged, hkeep.staging]
  exact hset

/-! ### A transfer whose turn it is -/

theorem mdwBump_rd (b : Box) {i : Nat} (hi : i < 4096) (n : Nat) {f : Fld} (hf : 0x1000000 ≤ f.addr) : (b.bump mdwPage i n).rd f = b.rd f :=
  rd_of_sameWords (bump_sameWords b mdwPage i n) fun hmem => by
    have hbase : pageBase mdwPage = 0x60000 := by decide
    have hvector := pageVector_lt (r := mdwPage) (by decide)
    simp only [causeWords, ovfFld, pageFld, List.mem_cons, List.not_mem_nil, or_false, hbase] at hmem
    omega

theorem mdwRaise_rd (b : Box) (bit : Nat) {f : Fld} (hf : 0x1000000 ≤ f.addr) : (b.raiseInt mdwPage bit).rd f = b.rd f :=
  rd_raiseInt b mdwPage bit fun hmem => by
    have hbase : pageBase mdwPage = 0x60000 := by decide
    have hvector := pageVector_lt (r := mdwPage) (by decide)
    simp only [causeWords, List.mem_cons, List.not_mem_nil, or_false, hbase] at hmem
    omega

/-- A transfer looks at no word of Big Top. -/
theorem stagedNext_of_rd {b c : Box} (h : onlyRegsCtrs b c) (hrd : ∀ f : Fld, 0x1000000 ≤ f.addr → c.rd f = b.rd f) (p : Nat) (x : Staged)
    (zero : Bool) : c.stagedNext p x zero = b.stagedNext p x zero := by
  have hmode (q : Nat) : c.slotMode q = b.slotMode q := hrd _ (by
    show 0x1000000 ≤ LNK_FP_MODE_at (q / 4)
    unfold LNK_FP_MODE_at
    omega)
  obtain ⟨r, o, k, hframe⟩ := h
  have hcut (d : Desc) : c.cutThrough p d = b.cutThrough p d := by
    unfold Box.cutThrough
    simp only [hmode]
    rw [hframe]
    rfl
  have htick : c.tick32 (p / 256) = b.tick32 (p / 256) := by
    rw [hframe]
    rfl
  unfold Box.stagedNext
  simp only [htick, hcut]

/-- The links of both tents have had their turn. -/
def linksTurned (b : Box) (p : Nat) (x : Staged) : Box :=
  let c := b.setTent x.desc.tent { b.tent x.desc.tent with linkAt := b.linkTurn x.desc.tent }
  c.setTent (p / 256) { c.tent (p / 256) with linkOut := b.outTurn (p / 256) }

/-- They have had it, and the adapters' retries are counted. -/
def linksServed (b : Box) (p retries : Nat) (x : Staged) : Box := (linksTurned b p x).d2dRetries (p / 256) retries

theorem linksServed_shows (b : Box) {p : Nat} (hp : p / 256 < 8) (retries : Nat) (x : Staged) :
    onlyRegsCtrs (linksTurned b p x) (linksServed b p retries x)
    ∧ (linksServed b p retries x).ctr mdwPage (16 + p / 256) = b.ctr mdwPage (16 + p / 256) + BitVec.ofNat 64 retries
    ∧ (∀ j, j ≠ 16 + p / 256 → (linksServed b p retries x).ctr mdwPage j = b.ctr mdwPage j)
    ∧ ∀ zero, (linksServed b p retries x).stagedNext p x zero = b.stagedNext p x zero :=
  ⟨bump_onlyRegsCtrs _ mdwPage (16 + p / 256) retries, bump_ctr_add (linksTurned b p x) mdwPage (16 + p / 256) retries,
    fun j hj => ctr_bump_other (linksTurned b p x) mdwPage mdwPage (16 + p / 256) j retries fun h => hj (Nat.add_left_cancel h),
    fun zero => stagedNext_of_rd (b := linksTurned b p x) (bump_onlyRegsCtrs _ mdwPage (16 + p / 256) retries)
      (fun _ hf => mdwBump_rd _ (by omega) _ hf) p x zero⟩

section
variable {b : Box} {p v retries : Nat} {x : Staged} (hopen : firstOpen (b.staged (8 * p + v)) = some x)
  (hlink : b.sameTransfer p (b.linkTurn x.desc.tent) v x = true) (hout : b.sameTransfer p (b.outTurn (p / 256)) v x = true)
include hopen hlink hout

/-- A transfer of a queued frame arrives. -/
theorem egressTransfer_good (hframe : x.result = none) :
    b.egressTransfer p v false retries = (linksServed b p retries x).frameTransfer p v x false := by
  unfold Box.egressTransfer
  rw [hopen]
  dsimp only
  rw [if_neg fun h => h.elim (fun h => Bool.false_ne_true (h.symm.trans hlink)) fun h => Bool.false_ne_true (h.symm.trans hout),
    if_neg Bool.false_ne_true]
  rw [hframe]
  rfl

/-- A transfer fails its CRC and is sent again. -/
theorem egressTransfer_again (htries : x.tries < 3) : b.egressTransfer p v true retries
    = let c := (linksServed b p retries x).count mdwPage (p / 256)
      c.setStaged (8 * p + v) (putOpen { x with tries := x.tries + 1 } (c.staged (8 * p + v))) := by
  have hbad (c : Box) : c.transferBad (p / 256) x.tries = (false, c.count mdwPage (p / 256)) := if_pos (by omega)
  unfold Box.egressTransfer
  rw [hopen]
  dsimp only
  rw [if_neg fun h => h.elim (fun h => Bool.false_ne_true (h.symm.trans hlink)) fun h => Bool.false_ne_true (h.symm.trans hout),
    if_pos rfl, hbad]
  rfl

/-- The fourth failure: the transfer's data are zeros. -/
theorem egressTransfer_zero (hframe : x.result = none) (htries : 3 ≤ x.tries) : b.egressTransfer p v true retries
    = (((linksServed b p retries x).count mdwPage (p / 256)).raiseInt mdwPage 1).frameTransfer p v x true := by
  have hbad (c : Box) : c.transferBad (p / 256) x.tries = (true, (c.count mdwPage (p / 256)).raiseInt mdwPage 1) := if_neg (by omega)
  unfold Box.egressTransfer
  rw [hopen]
  dsimp only
  rw [if_neg fun h => h.elim (fun h => Bool.false_ne_true (h.symm.trans hlink)) fun h => Bool.false_ne_true (h.symm.trans hout),
    if_pos rfl, hbad]
  dsimp only
  rw [hframe]
  rfl

end

/-! ### O28 -/

section
variable {s : State} (p : Slot) (v : Vc) (reads : List CellRead) (n : Nat) (hrun : s.phase = .run) {x : Staged}
include hrun

theorem exec_midwayGrant {t : Nat} {o : Offer} {m : Mdw}
    (hpick : (s.toBox.crossTent (p.toNat / 256)).midwayPick p.toNat v.toNat = some (t, o, m))
    (hroom : (s.toBox.crossTent (p.toNat / 256)).stagingRoom p.toNat v.toNat (frCells o.bytes) = true) :
    ∃ u, exec (.midwayGrant p v reads) s = .next u ∧ u.mdwOf p.toNat v.toNat = m
      ∧ u.ctr mdwPage (8 + t) = s.ctr mdwPage (8 + t) + BitVec.ofNat 64 o.bytes.length
      ∧ (∀ d, o = .frame d →
          let d' := ((s.toBox.crossTent (p.toNat / 256)).readDesc d reads).1
          u.descs.map (fun e => e.id) = ((s.toBox.crossTent (p.toNat / 256)).descs.filter (fun e => e.id ≠ d.id)).map (fun e => e.id)
          ∧ u.staged (8 * p.toNat + v.toNat) = (s.toBox.crossTent (p.toNat / 256)).staged (8 * p.toNat + v.toNat)
            ++ [stagedOf { d' with trace := traceStage d'.trace 3 (s.tick32 d'.tent) } none])
      ∧ ∀ r, o = .result r → ∀ q ∈ u.results, q.id = r.id → p.toNat ∉ q.due := by
  obtain ⟨e, he⟩ : ∃ e, s.toBox.midwayGrant p.toNat v.toNat reads = e := ⟨_, rfl⟩
  have ht := midwayPick_tent hpick
  have hcross := crossTent_crossKeeps s.toBox (p.toNat / 256)
  have hctr : (s.toBox.crossTent (p.toNat / 256)).ctr mdwPage (8 + t) = s.ctr mdwPage (8 + t) := ctr_of_ctrs hcross.ctrs _ _
  cases o with
  | frame d =>
    have hcmd := midwayGrant_frame reads hpick hroom
    obtain ⟨hmdw, hbytes, hids, hstaged⟩ :=
      grantFrame_shows (s.toBox.crossTent (p.toNat / 256)) p.toNat v.toNat t d.frame.length m ht d reads
    dsimp only at hcmd hmdw hbytes hids hstaged
    rw [← hcmd, he] at hmdw hbytes hids hstaged
    rw [hctr] at hbytes
    rw [hcross.tick] at hstaged
    exact ⟨_, next_onBox (actRun_run s _ hrun) he, hmdw, hbytes, fun d' h => Offer.frame.inj h ▸ ⟨hids, hstaged⟩, fun r h => nomatch h⟩
  | result r =>
    have hcmd := midwayGrant_result reads hpick hroom
    obtain ⟨hmdw, hbytes, hdue⟩ :=
      grantResult_shows (s.toBox.crossTent (p.toNat / 256)) p.toNat v.toNat t r.frame.length m ht r reads
    rw [← hcmd, he] at hmdw hbytes hdue
    rw [hctr] at hbytes
    refine ⟨_, next_onBox (actRun_run s _ hrun) he, hmdw, hbytes, fun d' h => (by cases h), fun r' h => ?_⟩
    cases h
    exact hdue

/-- A command of a transfer on another VC than VC3. -/
theorem exec_transfer (hv : v.toNat ≠ 3) (bad : Bool) : exec (.midwayTransfer p v bad n reads) s
    = .next (s.onBox fun _ => s.toBox.egressTransfer p.toNat v.toNat bad n) := by
  have hact := actRun_run s (fun b => if v.toNat = 3 then b.partTransfer p.toNat bad n reads else b.egressTransfer p.toNat v.toNat bad n) hrun
  exact next_onBox hact (if_neg hv)

end

section
variable {b : Box} {p v : Nat} (hp : p / 256 < 8) (n : Nat) {x : Staged} (hopen : firstOpen (b.staged (8 * p + v)) = some x)
  (hlink : b.sameTransfer p (b.linkTurn x.desc.tent) v x = true) (hout : b.sameTransfer p (b.outTurn (p / 256)) v x = true)
include hp hopen hlink hout

theorem egressTransfer_good_shows (hframe : x.result = none) :
    (b.egressTransfer p v false n).ctr mdwPage (16 + p / 256) = b.ctr mdwPage (16 + p / 256) + BitVec.ofNat 64 n
      ∧ (b.egressTransfer p v false n).staged (8 * p + v) = putOpen (b.stagedNext p x false) (b.staged (8 * p + v)) := by
  obtain ⟨hregs, hctr, -, hnext⟩ := linksServed_shows b hp n x
  obtain ⟨hstaged, hkeep, -⟩ := frameTransfer_shows (linksServed b p n x) p v x false
  have hsame : (linksServed b p n x).staged (8 * p + v) = b.staged (8 * p + v) := by
    obtain ⟨r, o, c, h⟩ := hregs
    rw [h]
    rfl
  rw [egressTransfer_good hopen hlink hout hframe]
  exact ⟨(hkeep _ (by omega)).trans hctr, by rw [hstaged, hnext, hsame]⟩

theorem egressTransfer_again_shows (htries : x.tries < 3) :
    (b.egressTransfer p v true n).ctr mdwPage (16 + p / 256) = b.ctr mdwPage (16 + p / 256) + BitVec.ofNat 64 n
      ∧ (b.egressTransfer p v true n).ctr mdwPage (p / 256) = b.ctr mdwPage (p / 256) + 1
      ∧ (b.egressTransfer p v true n).staged (8 * p + v) = putOpen { x with tries := x.tries + 1 } (b.staged (8 * p + v))
      ∧ ∃ g c r o, b.egressTransfer p v true n = { b with staging := g, ctrs := c, regs := r, outbox := o, tents := (linksTurned b p x).tents } := by
  obtain ⟨hregs, hctr, hother, -⟩ := linksServed_shows b hp n x
  obtain ⟨e, he⟩ : ∃ e, (linksServed b p n x).count mdwPage (p / 256) = e := ⟨_, rfl⟩
  have hcounted := count_ctr_succ (linksServed b p n x) mdwPage (p / 256)
  have hrest := ctr_bump_other (linksServed b p n x) mdwPage mdwPage (p / 256) (16 + p / 256) 1 fun h => by
    have := Nat.add_left_cancel h
    omega
  obtain ⟨r, o, c, hframe⟩ := onlyRegsCtrs_trans hregs (bump_onlyRegsCtrs (linksServed b p n x) mdwPage (p / 256) 1)
  change (linksServed b p n x).count mdwPage (p / 256) = _ at hframe
  change ((linksServed b p n x).count mdwPage (p / 256)).ctr mdwPage (16 + p / 256) = _ at hrest
  rw [egressTransfer_again hopen hlink hout htries]
  dsimp only
  rw [he] at hcounted hrest hframe ⊢
  have hsame : e.staged (8 * p + v) = b.staged (8 * p + v) := by
    rw [hframe]
    rfl
  rw [hsame]
  refine ⟨hrest.trans hctr, hcounted.trans (congrArg (· + 1) (hother (p / 256) (by omega))), mapGet_mapSet_same .., ?_⟩
  rw [hframe]
  exact ⟨_, _, _, _, rfl⟩

theorem egressTransfer_zero_shows (hframe : x.result = none) (htries : 3 ≤ x.tries) :
    (b.egressTransfer p v true n).ctr mdwPage (16 + p / 256) = b.ctr mdwPage (16 + p / 256) + BitVec.ofNat 64 n
      ∧ (b.egressTransfer p v true n).ctr mdwPage (p / 256) = b.ctr mdwPage (p / 256) + 1
      ∧ (b.egressTransfer p v true n).is (pageFld mdwPage 16 1 1) = true
      ∧ (b.egressTransfer p v true n).staged (8 * p + v) = putOpen (b.stagedNext p x true) (b.staged (8 * p + v)) := by
  obtain ⟨hregs, hctr, hother, hnext⟩ := linksServed_shows b hp n x
  let c := (linksServed b p n x).count mdwPage (p / 256)
  have hcounted := count_ctr_succ (linksServed b p n x) mdwPage (p / 256)
  have hrest : c.ctr mdwPage (16 + p / 256) = (linksServed b p n x).ctr mdwPage (16 + p / 256) :=
    ctr_bump_other (linksServed b p n x) mdwPage mdwPage (p / 256) (16 + p / 256) 1 fun h => by
      have := Nat.add_left_cancel h
      omega
  have hraised := raiseInt_onlyRegs c mdwPage 1
  have hall := onlyRegsCtrs_trans (bump_onlyRegsCtrs (linksServed b p n x) mdwPage (p / 256) 1) hraised.toCtrs
  have hzero := stagedNext_of_rd hall (fun f hf => (mdwRaise_rd c 1 hf).trans (mdwBump_rd _ (by omega) 1 hf)) p x true
  have hcause := is_raiseInt_cause c (p := mdwPage) (by decide) (k := 1) (i := 1) (by decide)
  have hsame : (c.raiseInt mdwPage 1).staged (8 * p + v) = b.staged (8 * p + v) := by
    obtain ⟨r, o, k, h⟩ := onlyRegsCtrs_trans hregs hall
    rw [h]
    rfl
  obtain ⟨hstaged, hkeep, hkept⟩ := frameTransfer_shows (c.raiseInt mdwPage 1) p v x true
  rw [egressTransfer_zero hopen hlink hout hframe htries]
  refine ⟨?_, ?_, hkept (hcause.trans (Bool.or_true _)), ?_⟩
  · exact (hkeep _ (by omega)).trans ((ctr_of_onlyRegs hraised _ _).trans (hrest.trans hctr))
  · exact (hkeep _ (by omega)).trans ((ctr_of_onlyRegs hraised _ _).trans (hcounted.trans (congrArg (· + 1) (hother (p / 256) (by omega)))))
  · rw [hstaged, hzero, hnext, hsame]

end

/-- Settles O28: a grant by what Midway picks and reads, a transfer by what the served links leave and what arrives. -/
theorem midwayGrantsAndTransfers : Obligations.MidwayGrantsAndTransfers := by
  unfold Obligations.MidwayGrantsAndTransfers
  intro s p v reads n hrun
  have hp : p.toNat / 256 < 8 := by have := p.isLt; omega
  refine ⟨fun t o m hpick hroom => exec_midwayGrant p v reads hrun hpick hroom, fun x hv hopen hlink hout => ⟨fun hframe => ?_, fun htries => ?_,
    fun htries hframe => ?_⟩⟩
  · obtain ⟨e, he⟩ : ∃ e, s.toBox.egressTransfer p.toNat v.toNat false n = e := ⟨_, rfl⟩
    obtain ⟨hctr, hstaged⟩ := egressTransfer_good_shows hp n hopen hlink hout hframe
    have hact := exec_transfer p v reads n hrun hv false
    rw [he] at hctr hstaged hact
    exact ⟨_, hact, hctr, hstaged⟩
  · obtain ⟨e, he⟩ : ∃ e, s.toBox.egressTransfer p.toNat v.toNat true n = e := ⟨_, rfl⟩
    obtain ⟨hctr, hfailed, hstaged, g, c, r, o, hframe⟩ := egressTransfer_again_shows hp n hopen hlink hout htries
    have hact := exec_transfer p v reads n hrun hv true
    rw [he] at hctr hfailed hstaged hact hframe
    rw [hframe] at hctr hfailed hstaged hact
    exact ⟨_, hact, hctr, hfailed, hstaged, rfl, rfl⟩
  · obtain ⟨e, he⟩ : ∃ e, s.toBox.egressTransfer p.toNat v.toNat true n = e := ⟨_, rfl⟩
    obtain ⟨hctr, hfailed, hcause, hstaged⟩ := egressTransfer_zero_shows hp n hopen hlink hout hframe htries
    have hact := exec_transfer p v reads n hrun hv true
    rw [he] at hctr hfailed hcause hstaged hact
    exact ⟨_, hact, hctr, hfailed, hcause, hstaged⟩

end Sys2Proof.Proofs
end

section
/-! # The cell audit and the start of a recall (04_buffers.md R99, R107) -/

namespace Sys2Proof.Proofs

open Sys2Proof Sys2Proof.Machine Sys2Proof.Safety Sys2Proof.Laws

/-! ### Spill records -/

theorem find_setSpillIn_same (k : Nat) (y : Spill) (m : Sparse Spill) :
    (setSpillIn k (some y) m).find? (fun e => e.1 = k) = some (k, y) := by
  induction m with
  | nil => exact List.find?_cons_of_pos (decide_eq_true rfl)
  | cons e m ih =>
    unfold setSpillIn
    split
    · exact List.find?_cons_of_pos (decide_eq_true rfl)
    · split
      · exact List.find?_cons_of_pos (decide_eq_true rfl)
      · next _ hne => exact (List.find?_cons_of_neg fun h => hne (of_decide_eq_true h).symm).trans ih

theorem find_setSpillIn_other {k j : Nat} (h : k ≠ j) (x : Option Spill) (m : Sparse Spill) :
    (setSpillIn k x m).find? (fun e => e.1 = j) = m.find? fun e => e.1 = j := by
  have hskip (y : Spill) (m : Sparse Spill) : ((k, y) :: m).find? (fun e => e.1 = j) = m.find? fun e => e.1 = j :=
    List.find?_cons_of_neg fun hkey => h (of_decide_eq_true hkey)
  induction m with
  | nil =>
    cases x with
    | none => rfl
    | some y => exact hskip y []
  | cons e m ih =>
    unfold setSpillIn
    split
    · cases x with
      | none => rfl
      | some y => exact hskip y _
    · split
      · next _ heq =>
        obtain ⟨k', y'⟩ := e
        subst heq
        cases x with
        | none => exact (hskip y' m).symm
        | some y => exact (hskip y m).trans (hskip y' m).symm
      · rw [List.find?_cons, List.find?_cons, ih]

theorem spillOf_setSpill_same (b : Box) (t q : Nat) (y : Spill) : (b.setSpill t q (some y)).spillOf t q = some y :=
  congrArg (Option.map fun e : Nat × Spill => e.2) (find_setSpillIn_same (t * 16384 + q) y b.spills)

theorem spillOf_setSpill_other (b : Box) (t : Nat) {q q' : Nat} (h : q ≠ q') (x : Option Spill) :
    (b.setSpill t q x).spillOf t q' = b.spillOf t q' :=
  congrArg (Option.map fun e : Nat × Spill => e.2) (find_setSpillIn_other (fun hkey => h (Nat.add_left_cancel hkey)) x b.spills)

theorem spillOf_of_spills {b c : Box} (h : c.spills = b.spills) (t q : Nat) : c.spillOf t q = b.spillOf t q := by
  rw [Box.spillOf, Box.spillOf, h]

theorem tent_setTent_same (b : Box) (t : Nat) (x : Tent) : (b.setTent t x).tent t = x := mapGet_mapSet_same ..

theorem tent_setTent_other (b : Box) {t v : Nat} (h : v ≠ t) (x : Tent) : (b.setTent t x).tent v = b.tent v :=
  mapGet_mapSet_other _ _ _ h

/-! ### Cells that an audit frees -/

/-- What the freeing of lost cells does to a tent: they leave its allocation, and rows may be mapped. -/
structure AuditFrees (t : Nat) (b c : Box) (lost : List Nat) : Prop where
  frame : ∃ ts ev, c = { b with tents := ts, events := ev }
  alloc : (c.tent t).alloc = (b.tent t).alloc.filter fun x => x ∉ lost
  audit : (c.tent t).audit = none
  other : ∀ v, v ≠ t → c.tent v = b.tent v

theorem AuditFrees.trans {t : Nat} {b c d : Box} {l m : List Nat} (h : AuditFrees t b c l) (k : AuditFrees t c d m) : AuditFrees t b d (l ++ m) := by
  obtain ⟨⟨_, _, rfl⟩, halloc, -, hother⟩ := h
  obtain ⟨⟨_, _, rfl⟩, kalloc, kaudit, kother⟩ := k
  refine ⟨⟨_, _, rfl⟩, ?_, kaudit, fun v hv => (kother v hv).trans (hother v hv)⟩
  rw [kalloc, halloc, List.filter_filter]
  refine List.filter_congr fun x _ => ?_
  by_cases hl : x ∈ l <;> by_cases hm : x ∈ m <;> simp [hl, hm]

/-- Mapping a row onto a redundant one leaves the tent's allocation and its audit. -/
theorem rowRepair_auditFrees {b : Box} {t : Nat} (haudit : (b.tent t).audit = none) (r : Nat) : AuditFrees t b (b.rowRepair t r) [] := by
  have hall (x : List Nat) : x = x.filter fun y => y ∉ ([] : List Nat) := (List.filter_eq_self.mpr fun y _ => by simp).symm
  unfold Box.rowRepair
  dsimp only
  split
  · exact ⟨⟨_, _, rfl⟩, (congrArg Tent.alloc (tent_setTent_same b t _)).trans (hall _),
      (congrArg Tent.audit (tent_setTent_same b t _)).trans haudit, fun v hv => tent_setTent_other b hv _⟩
  · exact ⟨⟨_, _, rfl⟩, hall _, haudit, fun _ _ => rfl⟩

theorem freeLost_auditFrees {b : Box} {t c : Nat} (hc : c < storeCells) (hmem : c ∈ (b.tent t).alloc) (haudit : (b.tent t).audit = none) :
    AuditFrees t b (b.freeCellFrom t 0 c) [c] := by
  have hset (x : Tent) := tent_setTent_same b t x
  unfold Box.freeCellFrom
  dsimp only
  rw [if_pos ⟨hc, Nat.zero_le c, hmem⟩, haudit]
  refine AuditFrees.trans (l := [c]) (m := []) (c := b.setTent t _) ⟨⟨_, _, rfl⟩, ?_, congrArg Tent.audit (hset _), fun v hv => tent_setTent_other b hv _⟩
    (rowRepair_auditFrees (congrArg Tent.audit (hset _)) (cellRow c))
  refine (congrArg Tent.alloc (hset _)).trans (List.filter_congr fun x _ => ?_)
  by_cases h : x = c <;> simp [h]

theorem freeLostCells_auditFrees {t : Nat} {lost : List Nat} (hnodup : lost.Nodup) (b : Box) (hc : ∀ c ∈ lost, c < storeCells)
    (hmem : ∀ c ∈ lost, c ∈ (b.tent t).alloc) (haudit : (b.tent t).audit = none) :
    AuditFrees t b (lost.foldl (fun b c => b.freeCellFrom t 0 c) b) lost := by
  induction lost generalizing b with
  | nil => exact ⟨⟨_, _, rfl⟩, (List.filter_eq_self.mpr fun y _ => by simp).symm, haudit, fun _ _ => rfl⟩
  | cons c lost ih =>
    obtain ⟨hnew, hrest⟩ := List.nodup_cons.mp hnodup
    have hone := freeLost_auditFrees (hc c List.mem_cons_self) (hmem c List.mem_cons_self) haudit
    refine hone.trans (ih hrest _ (fun x hx => hc x (List.mem_cons_of_mem c hx)) (fun x hx => ?_) hone.audit)
    rw [hone.alloc]
    refine List.mem_filter.mpr ⟨hmem x (List.mem_cons_of_mem c hx), decide_eq_true fun h => hnew ?_⟩
    rw [← List.mem_singleton.mp h]
    exact hx

theorem auditBusy_body (t : TentIx) : (USH_STATUS_AUDIT_BUSY t.toNat).addr ∉ causeWords (ushPage t.toNat) := by
  have hbase := pageBase_tentPage t.isLt (c := 4) (by decide)
  have hvector := pageVector_lt (ushPage_lt t.isLt)
  have haddr : (USH_STATUS_AUDIT_BUSY t.toNat).addr = 0x1000000 * (t.toNat + 1) + 0x40140 := rfl
  have hpage : pageBase (ushPage t.toNat) = 0x1000000 * (t.toNat + 1) + 0x10000 * 0x04 := hbase
  simp only [causeWords, List.mem_cons, List.not_mem_nil, or_false]
  omega

/-- The words and counters at the end of an audit. -/
theorem auditShown (b : Box) (t : TentIx) (n : Nat) : ∃ c, c = ((b.bump (ushPage t.toNat) 2052 n).put (USH_STATUS_AUDIT_BUSY t.toNat) false).raiseInt
      (ushPage t.toNat) 1
    ∧ onlyRegsCtrs b c ∧ c.is (USH_STATUS_AUDIT_BUSY t.toNat) = false ∧ c.is (pageFld (ushPage t.toNat) 16 1 1) = true
    ∧ c.ctr (ushPage t.toNat) 2052 = b.ctr (ushPage t.toNat) 2052 + BitVec.ofNat 64 n := by
  refine ⟨_, rfl, onlyRegsCtrs_trans (bump_onlyRegsCtrs b _ _ _) (onlyRegs_trans (put_onlyRegs _ _ _) (raiseInt_onlyRegs _ _ _)).toCtrs, ?_, ?_, ?_⟩
  · exact (is_raiseInt _ _ 1 (auditBusy_body t)).trans (is_put _ _ false (Nat.le_of_ble_eq_true rfl) Nat.one_pos)
  · rw [is_raiseInt_cause _ (ushPage_lt t.isLt) (by decide), decide_eq_true rfl, Bool.or_true]
  · exact (ctr_of_onlyRegs (onlyRegs_trans (put_onlyRegs _ _ _) (raiseInt_onlyRegs _ _ _)) _ _).trans (bump_ctr_add b _ _ _)

/-! ### The clauses of O32 on an audit and on the start of a recall -/

section
variable {s : State} (hrun : s.phase = .run) (t : TentIx)

include hrun

theorem exec_spillRecall (q : VoqIx) {sp : Spill} {b : SpillBlock} {bs : List SpillBlock} (hsp : s.spillOf t.toNat q.toNat = some sp)
    (hblocks : sp.blocks = b :: bs) (hwritten : b.written = true) (hidle : sp.recalling = false)
    (hlow : s.aheadOfSpill t.toNat q.toNat < 32) (hrate : s.rd (USH_SPILL_CTRL_RDRATE t.toNat) ≠ 0)
    (hat : (s.tent t.toNat).readAt ≤ 100 * s.raw) (hroom : s.recallUse t.toNat q.toNat + b.left ≤ 32)
    (hparts : (b.parts.all fun x => s.descs.any fun d => d.id == x.1 && d.spilled) = true) :
    exec (.spillRecall t q) s = .next { s with
      spills := (s.setSpill t.toNat q.toNat (some { sp with recalling := true })).spills,
      tents := (s.setTent t.toNat { s.tent t.toNat with
        readAt := 100 * s.raw + blockTime (s.rd (USH_SPILL_CTRL_RDRATE t.toNat)) }).tents } := by
  have hcmd : s.toBox.spillRecall t.toNat q.toNat = (s.toBox.setTent t.toNat { s.tent t.toNat with
      readAt := 100 * s.raw + blockTime (s.rd (USH_SPILL_CTRL_RDRATE t.toNat)) }).setSpill t.toNat q.toNat (some { sp with recalling := true }) := by
    unfold Box.spillRecall
    rw [hsp]
    dsimp only
    rw [hblocks]
    exact if_pos ⟨hwritten, hidle, hlow, hrate, hat, hroom, hparts⟩
  exact next_onBox (f := fun b => b.spillRecall t.toNat q.toNat) (actRun_run s _ hrun) hcmd

theorem exec_ushAuditDone {was : List Nat} (hwas : (s.tent t.toNat).audit = some was) (hnodup : was.Nodup)
    (hcells : ∀ c, c ∈ was → c < storeCells) :
    let lost := was.filter fun c => c ∈ (s.tent t.toNat).alloc ∧ c ∉ s.reachedCells t.toNat
    ∃ u, exec (.ushAuditDone t) s = .next u ∧ u.is (USH_STATUS_AUDIT_BUSY t.toNat) = false
      ∧ u.is (pageFld (ushPage t.toNat) 16 1 1) = true
      ∧ u.ctr (ushPage t.toNat) 2052 = s.ctr (ushPage t.toNat) 2052 + BitVec.ofNat 64 lost.length
      ∧ (u.tent t.toNat).alloc = ((s.tent t.toNat).alloc.filter fun c => c ∉ lost) ∧ (u.tent t.toNat).audit = none
      ∧ (∀ v, v ≠ t.toNat → u.tent v = s.tent v)
      ∧ u = { s with regs := u.regs, ctrs := u.ctrs, outbox := u.outbox, tents := u.tents, events := u.events } := by
  intro lost
  let c := s.toBox.setTent t.toNat { s.tent t.toNat with audit := none }
  have hset : c.tent t.toNat = { s.tent t.toNat with audit := none } := tent_setTent_same _ _ _
  have hin (x : Nat) (hx : x ∈ lost) : x ∈ was ∧ x ∈ (s.tent t.toNat).alloc := by
    obtain ⟨hold, hlost⟩ := List.mem_filter.mp hx
    exact ⟨hold, (of_decide_eq_true hlost).1⟩
  obtain ⟨⟨ts, ev, hframe⟩, halloc, haudit, hother⟩ := freeLostCells_auditFrees (hnodup.filter _) c (lost := lost) (fun x hx => hcells x (hin x hx).1)
    (fun x hx => by rw [hset]; exact (hin x hx).2) (congrArg Tent.audit hset)
  obtain ⟨e, he, ⟨r, o, k, hshown⟩, hbusy, hcause, hctr⟩ := auditShown (lost.foldl (fun b c => b.freeCellFrom t.toNat 0 c) c) t lost.length
  have hcmd : s.toBox.ushAuditDone t.toNat = e := by
    rw [he]
    unfold Box.ushAuditDone
    rw [hwas]
  rw [hset] at halloc
  replace hother := fun v hv => (hother v hv).trans (tent_setTent_other s.toBox hv _)
  rw [hframe] at hshown hctr halloc haudit hother
  rw [hshown] at hcmd hbusy hcause hctr
  exact ⟨_, next_onBox (actRun_run s _ hrun) hcmd, hbusy, hcause, hctr, halloc, haudit, hother, rfl⟩

end

theorem exec_ushAudit {s : State} {t : TentIx} (src : Requester) (htakes : takesWrite s src (USH_CTRL_at t.toNat))
    (hidle : s.is (USH_STATUS_AUDIT_BUSY t.toNat) = false) :
    ∃ u, exec (.ushAudit src t) s = .next u ∧ u.is (USH_STATUS_AUDIT_BUSY t.toNat) = true
      ∧ u = { s with regs := u.regs, tents := (s.setTent t.toNat { s.tent t.toNat with audit := some (s.tent t.toNat).alloc }).tents }
      ∧ sameWords [USH_STATUS_at t.toNat] s.toBox u.toBox := by
  obtain ⟨hrun, hreach, hready⟩ := htakes
  let c := s.toBox.setTent t.toNat { s.tent t.toNat with audit := some (s.tent t.toNat).alloc }
  have hcmd : s.toBox.ushAudit src t.toNat = c.put (USH_STATUS_AUDIT_BUSY t.toNat) true := if_neg (ne_true_of_eq_false hidle)
  exact ⟨_, next_onBox (actReg_run s _ _ src hrun hreach hready) hcmd, is_put c _ true (Nat.le_of_ble_eq_true rfl) Nat.one_pos, rfl,
    wr_sameWords c (USH_STATUS_AUDIT_BUSY t.toNat) 1⟩

end Sys2Proof.Proofs
end

section
/-! # Blocks that come back from the spill region (R106, R107, R108) -/

namespace Sys2Proof.Proofs

open Sys2Proof Sys2Proof.Machine Sys2Proof.Safety Sys2Proof.Laws

/-! ### The settling of spilling, one step at a time -/

theorem congest_descs (b : Box) (t part : Nat) : (b.congest t part).descs = b.descs ∧ (b.congest t part).spills = b.spills := by
  obtain ⟨r, o, h⟩ := foldl_onlyRegs (f := fun b p => b.envEvent p 4)
    (b.listPorts.filter fun p => landVcs.any fun v => decide (b.vcPart t v = part) && b.gatedVc p v) (fun c p _ => envEvent_onlyRegs c p 4) b
  rw [Box.congest, h]
  exact ⟨rfl, rfl⟩

theorem spillAssign_descs (b : Box) (t q : Nat) : (b.spillAssign t q).descs = b.descs := by
  rw [Box.spillAssign]
  split
  · rfl
  · split
    · rfl
    · dsimp only
      split
      · rfl
      · exact (congest_descs _ _ _).1

theorem spillStart_descs (b : Box) (t p : Nat) : (b.spillStart t p).descs = b.descs := by
  rw [Box.spillStart]
  split
  · split
    · rfl
    · exact spillAssign_descs _ _ _
  · rfl

theorem spillStatus_onlyRegs (b : Box) (t : Nat) : onlyRegs b (b.spillStatus t) := by
  have hputs (x y z : Bool) : onlyRegs b (((b.put (USH_STATUS_SPILLING t) x).put (USH_STATUS_SPILL_FULL t) y).put (USH_STATUS_DESC_LIMIT t) z) :=
    onlyRegs_trans (onlyRegs_trans (put_onlyRegs b _ _) (put_onlyRegs _ _ _)) (put_onlyRegs _ _ _)
  rw [Box.spillStatus]
  split
  · exact onlyRegs_trans (hputs _ _ _) (raiseInt_onlyRegs _ _ _)
  · exact hputs _ _ _

/-- Frames are charged anew only as VOQs leave the spill state. -/
theorem spillSettle_descs (b : Box) (t : Nat) : (b.spillSettle t).descs = ((b.spillStop t).spillLeave t).descs := by
  have hstart := foldl_rel (R := fun c d : Box => d.descs = c.descs) (fun _ => rfl) (fun h k => k.trans h) [0, 1, 2, 3]
    (fun c p _ => spillStart_descs c t p) ((b.spillStop t).spillLeave t)
  have hassign (c : Box) := foldl_rel (R := fun c d : Box => d.descs = c.descs) (fun _ => rfl) (fun h k => k.trans h) (c.spillVoqs t)
    (fun c q _ => spillAssign_descs c t q) c
  have hstatus (c : Box) : (c.spillStatus t).descs = c.descs := by
    obtain ⟨r, o, h⟩ := spillStatus_onlyRegs c t
    rw [h]
  exact (hstatus _).trans ((hassign _).trans hstart)

/-- Where a frame is charged once it is back: the recall reserve, while its VOQ spills for the partition, or the partition. -/
def ChargedBack (q part : Nat) (d : Desc) (b : Box) : Prop := ∃ c, { d with charge := c } ∈ b.descs
  ∧ (c = .recall ∧ (∀ sp, b.spillOf d.tent q = some sp → sp.part = part) ∨ c = .partition part)

theorem spillStop_chargedBack {q part : Nat} {d : Desc} {b : Box} (h : ChargedBack q part d b) (t : Nat) : ChargedBack q part d (b.spillStop t) := by
  obtain ⟨c, hmem, hc⟩ := h
  unfold Box.spillStop
  split
  · exact ⟨c, hmem, hc⟩
  · refine ⟨c, hmem, hc.imp (fun h => ⟨h.1, fun sp hsp => ?_⟩) id⟩
    obtain ⟨-, hpart⟩ := h
    dsimp only at hsp
    unfold Box.spillOf at hsp hpart
    dsimp only at hsp
    rw [List.find?_map, show ((fun e : Nat × Spill => decide (e.1 = d.tent * 16384 + q)) ∘ fun e => if e.1 / 16384 = t then
        (e.1, keepParts (fun i => decide (i ∈ ((b.descs.filter fun d => d.spilled).map fun d => d.id))) e.2) else e)
      = fun e => decide (e.1 = d.tent * 16384 + q) from funext fun e => by simp only [Function.comp]; split <;> rfl] at hsp
    cases hfind : b.spills.find? fun e => decide (e.1 = d.tent * 16384 + q) with
    | none => rw [hfind] at hsp; exact nomatch hsp
    | some e =>
      rw [hfind] at hsp hpart
      have hold := hpart e.2 rfl
      simp only [Option.map_some, Option.some.injEq] at hsp
      rw [← hsp]
      split
      · exact hold
      · exact hold

theorem spillLeaveOne_chargedBack {q part : Nat} {d : Desc} {b : Box} (hd : 8 * d.egress + d.vc = q) (h : ChargedBack q part d b) (r : Nat) :
    ChargedBack q part d (b.spillLeaveOne d.tent r) := by
  obtain ⟨c, hmem, hc⟩ := h
  unfold Box.spillLeaveOne
  split
  · exact ⟨c, hmem, hc⟩
  · next sp hsp =>
    split
    · exact ⟨c, hmem, hc⟩
    · have hnew := List.mem_map_of_mem (f := fun e : Desc => if e.tent = d.tent ∧ 8 * e.egress + e.vc = r ∧ e.charge = .recall then
        { e with charge := .partition sp.part } else e) hmem
      dsimp only at hnew
      rcases hc with ⟨rfl, hpart⟩ | rfl
      · by_cases hr : q = r
        · obtain rfl := hpart sp (hr ▸ hsp)
          rw [if_pos ⟨rfl, hd.trans hr, rfl⟩] at hnew
          exact ⟨_, hnew, .inr rfl⟩
        · rw [if_neg fun h => hr (hd.symm.trans h.2.1)] at hnew
          exact ⟨_, hnew, .inl ⟨rfl, fun x hx => hpart x ((spillOf_setSpill_other b d.tent (Ne.symm hr) none).symm.trans hx)⟩⟩
      · rw [if_neg fun h => nomatch h.2.2] at hnew
        exact ⟨_, hnew, .inr rfl⟩

theorem spillSettle_chargedBack {q part : Nat} {d : Desc} {b : Box} (hd : 8 * d.egress + d.vc = q) (h : ChargedBack q part d b) :
    ∃ c, { d with charge := c } ∈ (b.spillSettle d.tent).descs ∧ (c = .recall ∨ c = .partition part) := by
  have hleft := foldl_rel (R := fun x y => ChargedBack q part d x → ChargedBack q part d y) (fun _ => id) (fun h k => k ∘ h)
    ((b.spillStop d.tent).spillVoqs d.tent) (fun x r _ hx => spillLeaveOne_chargedBack hd hx r) (b.spillStop d.tent)
    (spillStop_chargedBack h d.tent)
  obtain ⟨c, hmem, hc⟩ := hleft
  exact ⟨c, (spillSettle_descs b d.tent).symm ▸ hmem, hc.imp And.left id⟩

/-! ### A block comes back -/

section
variable {s : Box} {t q : Nat} {sp : Spill} {b : SpillBlock} {bs : List SpillBlock} (hsp : s.spillOf t q = some sp) (hblocks : sp.blocks = b :: bs)
  (hback : sp.recalling = true)
include hsp hblocks hback

theorem recallBlock_eq : s.recallBlock t q = some b := by
  unfold Box.recallBlock
  rw [hsp]
  dsimp only
  rw [if_pos hback, hblocks]
  rfl

omit hsp in
theorem spillRecallDone_eq {c : Box} (hc : c.spillOf t q = some sp) (read : Option (List Byte)) (uncorr : Bool) :
    c.spillRecallDone t q read uncorr = (recallParts t read b.parts 0 ((if uncorr then (c.count (ushPage t) 2051).raiseInt (ushPage t) 0
      else c).setSpill t q (some { sp with blocks := bs, recalling := false }))).spillSettle t := by
  unfold Box.spillRecallDone
  rw [hc]
  dsimp only
  rw [hback, hblocks]

theorem spillBack_good (hgone : b.gone = false) (hbad : b.bad = none) : s.spillBack t q none
    = (recallParts t none b.parts 0 (s.setSpill t q (some { sp with blocks := bs, recalling := false }))).spillSettle t := by
  refine Eq.trans ?_ (spillRecallDone_eq hblocks hback hsp none false)
  unfold Box.spillBack
  rw [recallBlock_eq hsp hblocks hback]
  dsimp only
  rw [if_neg (ne_true_of_eq_false hgone), hbad]
  rfl

end

/-- All the cells of a frame are back. -/
theorem recallPart_whole {s : Box} {d : Desc} (hfind : s.descs.find? (fun e => e.id == d.id) = some d) (n : Nat)
    (hwhole : d.ncells ≤ (s.growCells d.tent d.cells (d.cells.length + n)).1.length) :
    { d with cells := (s.growCells d.tent d.cells (d.cells.length + n)).1, spilled := false, charge := .recall }
        ∈ (s.recallPart d.tent d.id n none).descs
      ∧ (s.recallPart d.tent d.id n none).spills = s.spills := by
  have hmem := List.mem_of_find?_eq_some hfind
  unfold Box.recallPart
  rw [hfind]
  dsimp only
  refine ⟨?_, rfl⟩
  rw [decide_eq_true hwhole]
  refine List.mem_map.mpr ⟨d, hmem, ?_⟩
  exact if_pos rfl

theorem exec_spillRecallDone_good {s : State} (hrun : s.phase = .run) (t : TentIx) (q : VoqIx) {sp : Spill} {b : SpillBlock} {bs : List SpillBlock}
    (hsp : s.spillOf t.toNat q.toNat = some sp) (hblocks : sp.blocks = b :: bs) (d : Desc) (n : Nat) (hback : sp.recalling = true)
    (hgone : b.gone = false) (hbad : b.bad = none) (hparts : b.parts = [(d.id, n)]) (htent : d.tent = t.toNat) (hq : 8 * d.egress + d.vc = q.toNat)
    (hfind : (s.descs.find? fun e => e.id == d.id) = some d) :
    let cs := (s.growCells t.toNat d.cells (d.cells.length + n)).1
    d.ncells ≤ cs.length → ∃ u, exec (.spillRecallDone t q none) s = .next u
      ∧ ∃ e ∈ u.descs, e.id = d.id ∧ e.frame = d.frame ∧ e.spilled = false ∧ e.cells = cs ∧ (e.charge = .recall ∨ e.charge = .partition sp.part) := by
  intro cs hwhole
  let c := s.toBox.setSpill t.toNat q.toNat (some { sp with blocks := bs, recalling := false })
  have hspill : c.spillOf t.toNat q.toNat = some { sp with blocks := bs, recalling := false } := spillOf_setSpill_same ..
  obtain ⟨hmem, hspills⟩ := recallPart_whole (s := c) hfind n (htent ▸ hwhole)
  have hcmd := spillBack_good hsp hblocks hback hgone hbad
  rw [hparts] at hcmd
  have hcharge : ChargedBack q.toNat sp.part { d with cells := cs, spilled := false, charge := .recall } (c.recallPart d.tent d.id n none) := by
    refine ⟨.recall, ?_, .inl ⟨rfl, fun x hx => ?_⟩⟩
    · have hcs : cs = (c.growCells d.tent d.cells (d.cells.length + n)).1 := htent ▸ rfl
      rw [hcs]
      exact hmem
    · rw [spillOf_of_spills hspills, htent, hspill] at hx
      rw [← Option.some.inj hx]
  obtain ⟨x, hx, hback'⟩ := spillSettle_chargedBack (d := { d with cells := cs, spilled := false, charge := .recall }) hq hcharge
  have hend : s.toBox.spillBack t.toNat q.toNat none = (c.recallPart d.tent d.id n none).spillSettle d.tent := by
    rw [hcmd, htent]
    rfl
  obtain ⟨e, he⟩ : ∃ e, (c.recallPart d.tent d.id n none).spillSettle d.tent = e := ⟨_, rfl⟩
  rw [he] at hx hend
  exact ⟨_, next_onBox (f := fun b => b.spillBack t.toNat q.toNat none) (actRun_run s _ hrun) hend, _, hx, rfl, rfl, rfl, rfl, hback'⟩

end Sys2Proof.Proofs
end

section
/-! # A spill block that reads uncorrectable (R108, R336) -/

namespace Sys2Proof.Proofs

open Sys2Proof Sys2Proof.Machine Sys2Proof.Safety Sys2Proof.Laws

/-! ### Bits of tent pages that stay set -/

/-- A bit of a tent's page that reads 1 reads 1 still, but for the spill levels of USH_STATUS. -/
def bitsKept (b c : Box) : Prop := ∀ f : Fld, 0x1000000 ≤ f.addr → (∀ t, f.addr ≠ USH_STATUS_at t) → f.lo < 32 → f.width = 1 →
  b.is f = true → c.is f = true

theorem bitsKept_refl (b : Box) : bitsKept b b := fun _ _ _ _ _ h => h

theorem bitsKept_trans {b c d : Box} (h : bitsKept b c) (k : bitsKept c d) : bitsKept b d :=
  fun f ha hne hlo hw hb => k f ha hne hlo hw (h f ha hne hlo hw hb)

theorem bitsKept_of_regs {b c : Box} (h : c.regs = b.regs) : bitsKept b c := fun _ _ _ _ _ hb => (is_of_regs h _).trans hb

theorem bitsKept_of_sameOn {P : Nat → Prop} {b c : Box} (h : sameOn P b c) (hP : ∀ a, 0x1000000 ≤ a → P a) : bitsKept b c :=
  fun _ ha _ _ _ hb => (is_of_sameOn h (hP _ ha)).trans hb

/-- Setting a bit clears none. -/
theorem put_true_bitsKept (b : Box) {g : Fld} (hlo : g.lo < 32) (hw : g.width = 1) : bitsKept b (b.put g true) := by
  intro f _ _ hflo hfw hb
  by_cases hsame : g.addr = f.addr ∧ g.lo = f.lo
  · have hfg : f = g := by
      obtain ⟨a, l, w⟩ := f
      obtain ⟨a', l', w'⟩ := g
      simp only at hsame hfw hw
      rw [hsame.1, hsame.2, hfw, hw]
    rw [hfg]
    exact is_put b g true (by omega) (by omega)
  · refine (is_put_apart b true ⟨by omega, ?_⟩).trans hb
    by_cases haddr : g.addr = f.addr
    · exact .inr (by
        have := fun h => hsame ⟨haddr, h⟩
        omega)
    · exact .inl (Ne.symm haddr)

theorem raiseInt_bitsKept (b : Box) (p : Page) {bit : Nat} (hbit : bit < 32) : bitsKept b (b.raiseInt p bit) := by
  have hput : bitsKept b (b.put (pageFld p 16 bit 1) true) := put_true_bitsKept b hbit rfl
  unfold Box.raiseInt
  dsimp only
  split
  · refine bitsKept_trans hput ?_
    unfold Box.sendVector
    split
    · exact put_true_bitsKept _ (Nat.mod_lt _ (by decide)) rfl
    · exact bitsKept_of_regs rfl
  · exact hput

theorem bump_bitsKept (b : Box) (p : Page) (i n : Nat) : bitsKept b (b.bump p i n) := by
  have hcounted (k : Sparse (BitVec 64)) : bitsKept b ((({ b with ctrs := k } : Box).put (ovfFld p i) true).raiseInt p 30) := by
    have hput : bitsKept { b with ctrs := k } (({ b with ctrs := k } : Box).put (ovfFld p i) true) :=
      put_true_bitsKept _ (Nat.mod_lt i (by decide)) rfl
    exact bitsKept_trans (bitsKept_trans (bitsKept_of_regs rfl) hput) (raiseInt_bitsKept _ _ (by decide))
  unfold Box.bump
  dsimp only
  split
  · exact hcounted _
  · exact bitsKept_of_regs rfl

theorem postFault_bitsKept (b : Box) (cls cause unit tent pattern : Nat) : bitsKept b (b.postFault cls cause unit tent pattern) :=
  bitsKept_of_sameOn (postFault_offBlocks b cls cause unit tent pattern) fun a ha => ⟨by omega, by simp only [List.mem_singleton]; omega⟩

theorem envEvent_bitsKept (b : Box) (p : Nat) : bitsKept b (b.envEvent p 4) := by
  unfold Box.envEvent
  split
  · unfold Box.envBreak
    dsimp only
    split
    · exact bitsKept_refl b
    · exact bitsKept_trans (put_true_bitsKept b (g := { CAL_SCHED_STATUS_ENV p with lo := 4 }) (by decide : 4 < 32) rfl)
        (raiseInt_bitsKept _ _ (by decide))
  · exact bitsKept_refl b

theorem spillStatus_bitsKept (b : Box) (t : Nat) : bitsKept b (b.spillStatus t) := by
  have hwr (c : Box) (f : Fld) (v : Nat) (hf : f.addr = USH_STATUS_at t) : bitsKept c (c.wr f v) :=
    fun g _ hne _ _ hb => (is_wr_word c f g v (fun h => hne t (h.trans hf))).trans hb
  have hputs (x y z : Bool) : bitsKept b (((b.put (USH_STATUS_SPILLING t) x).put (USH_STATUS_SPILL_FULL t) y).put (USH_STATUS_DESC_LIMIT t) z) :=
    bitsKept_trans (bitsKept_trans (hwr b _ _ rfl) (hwr _ _ _ rfl)) (hwr _ _ _ rfl)
  unfold Box.spillStatus
  dsimp only
  split
  · exact bitsKept_trans (hputs _ _ _) (raiseInt_bitsKept _ _ (by decide))
  · exact hputs _ _ _

theorem spillSettle_bitsKept (b : Box) (t : Nat) : bitsKept b (b.spillSettle t) :=
  spillSettle_rel bitsKept_refl bitsKept_trans (fun _ _ _ => bitsKept_of_regs rfl) envEvent_bitsKept spillStatus_bitsKept b t

/-- A cause of a tent's page is such a bit. -/
theorem bitsKept.cause {b c : Box} (h : bitsKept b c) {t k i : Nat} (ht : t < 8) (hk : k < 256) (hi : i < 32)
    (hb : b.is (pageFld (tentPage t k) 16 i 1) = true) : c.is (pageFld (tentPage t k) 16 i 1) = true := by
  have haddr : (pageFld (tentPage t k) 16 i 1).addr = 0x1000000 * (t + 1) + 0x10000 * k + 16 := congrArg (· + 16) (pageBase_tentPage ht hk)
  refine h _ (by omega) (fun u => ?_) hi rfl hb
  unfold USH_STATUS_at
  omega

/-! ### The read, and the cells that come back with it -/

theorem holders_lt (b : Box) (t r off : Nat) : (b.holders t r off).headD 0 < 2 := by
  have hhead {l : List Nat} (h : ∀ x ∈ l, x < 2) : l.headD 0 < 2 := by
    cases l with
    | nil => exact Nat.two_pos
    | cons x l => exact h x List.mem_cons_self
  unfold Box.holders
  dsimp only
  refine hhead fun x hx => ?_
  split at hx
  · have := (List.mem_filter.mp hx).1
    simp only [List.mem_cons, List.not_mem_nil, or_false] at this
    omega
  · rw [List.mem_singleton.mp hx]
    omega

/-- An uncorrectable read counts at the memory's page and shows its error there. -/
theorem readUncorr_shows (b : Box) (t : TentIx) {c : Nat} (hc : c < 2) (r off : Nat) :
    (b.readUncorr t.toNat c r off).is (pageFld (memPage t.toNat) 16 0 1) = true
      ∧ ∀ i, i < 4096 → (b.readUncorr t.toNat c r off).ctr (ushPage t.toNat) i = b.ctr (ushPage t.toNat) i := by
  obtain ⟨port, row, hport, hread⟩ : ∃ port row, port < 8 ∧ b.readUncorr t.toNat c r off
      = ((({ b with freeCtr := b.freeCtr + 1 } : Box).count (memPage t.toNat) (5 * port + 1)).memError t.toNat).spareRow t.toNat port row true := by
    unfold Box.readUncorr Box.takeFree
    dsimp only
    refine ⟨if mirrored r = false ∧ b.is (MEM_PLAN_STATUS_SINGLE t.toNat) = false then off / 1984 % 8
      else 4 * c + (Config.freeBits b.freeCtr).toNat % 4, _, ?_, rfl⟩
    split <;> omega
  have hne {i j : Nat} (hi : i < 4096) : ushPage t.toNat * 4096 + i ≠ memPage t.toNat * 4096 + j := by
    change (256 * t.toNat + 4) * 4096 + i ≠ (256 * t.toNat + 12) * 4096 + j
    omega
  rw [hread]
  refine ⟨spareRow_cause _ t hport row true ?_, fun i hi => ?_⟩
  · rw [Box.memError, is_raiseInt_cause _ (memPage_lt t) (by decide), decide_eq_true rfl, Bool.or_true]
  · exact (spareRow_ctr _ _ _ _ _ (hne hi)).trans ((ctr_of_onlyRegs (raiseInt_onlyRegs _ _ _) _ _).trans (ctr_bump_other _ _ _ _ _ _ (hne hi)))

/-- Cells that come back move tents and frames alone. -/
theorem recallParts_frame (t : Nat) (read : Option (List Byte)) (ps : List (Nat × Nat)) (off : Nat) (b : Box) :
    ∃ ts ds, recallParts t read ps off b = { b with tents := ts, descs := ds } := by
  induction ps generalizing off b with
  | nil => exact ⟨_, _, rfl⟩
  | cons p ps ih =>
    have hpart (r : Option (List Byte)) : ∃ ts ds, b.recallPart t p.1 p.2 r = { b with tents := ts, descs := ds } := by
      unfold Box.recallPart
      split
      · exact ⟨_, _, rfl⟩
      · exact ⟨_, _, rfl⟩
    obtain ⟨ts, ds, hone⟩ := hpart (read.map fun bs => bs.drop (256 * off))
    obtain ⟨ts', ds', hrest⟩ := ih (off + p.2) (b.recallPart t p.1 p.2 (read.map fun bs => bs.drop (256 * off)))
    refine ⟨ts', ds', hrest.trans ?_⟩
    rw [hone]

/-- An uncorrectable recall is counted, and shown where the memory's error is. -/
theorem recallUncorr_shows (t : TentIx) {c : Box} {q : Nat} {sp : Spill} {b : SpillBlock} {bs : List SpillBlock}
    (hsp : c.spillOf t.toNat q = some sp) (hblocks : sp.blocks = b :: bs) (hback : sp.recalling = true) (bytes : List Byte)
    (hmem : c.is (pageFld (memPage t.toNat) 16 0 1) = true) :
    let e := c.spillRecallDone t.toNat q (some bytes) true
    e.ctr (ushPage t.toNat) 2051 = c.ctr (ushPage t.toNat) 2051 + 1 ∧ e.is (pageFld (ushPage t.toNat) 16 0 1) = true
      ∧ e.is (pageFld (memPage t.toNat) 16 0 1) = true := by
  let c1 := (c.count (ushPage t.toNat) 2051).raiseInt (ushPage t.toNat) 0
  have hctr : c1.ctr (ushPage t.toNat) 2051 = c.ctr (ushPage t.toNat) 2051 + 1 :=
    (ctr_of_onlyRegs (raiseInt_onlyRegs _ _ _) _ _).trans (count_ctr_succ c (ushPage t.toNat) 2051)
  have hush : c1.is (pageFld (ushPage t.toNat) 16 0 1) = true := by
    rw [is_raiseInt_cause _ (ushPage_lt t.isLt) (by decide), decide_eq_true rfl, Bool.or_true]
  have hkept := (bitsKept_trans (bump_bitsKept c (ushPage t.toNat) 2051 1) (raiseInt_bitsKept _ (ushPage t.toNat) (bit := 0) (by decide))).cause
    (k := 12) t.isLt (by decide) (i := 0) (by decide) hmem
  obtain ⟨ts, ds, hparts⟩ := recallParts_frame t.toNat (some bytes) b.parts 0 (c1.setSpill t.toNat q (some { sp with blocks := bs, recalling := false }))
  have hdone := spillRecallDone_eq hblocks hback hsp (some bytes) true
  rw [if_pos rfl, hparts] at hdone
  obtain ⟨x, hx⟩ : ∃ x, c1 = x := ⟨_, rfl⟩
  change c1.is (pageFld (memPage t.toNat) 16 0 1) = true at hkept
  change c.spillRecallDone t.toNat q (some bytes) true = ({ c1.setSpill t.toNat q _ with tents := ts, descs := ds } : Box).spillSettle t.toNat at hdone
  rw [hx] at hctr hush hkept hdone
  intro e
  obtain ⟨y, hy⟩ : ∃ y, ({ x.setSpill t.toNat q (some { sp with blocks := bs, recalling := false }) with tents := ts, descs := ds } : Box) = y := ⟨_, rfl⟩
  have hyregs : y.regs = x.regs := hy ▸ rfl
  have hyctr : y.ctrs = x.ctrs := hy ▸ rfl
  have he : e = y.spillSettle t.toNat := hdone.trans (congrArg (fun z : Box => z.spillSettle t.toNat) hy)
  have hbits := bitsKept_trans (bitsKept_of_regs hyregs) (spillSettle_bitsKept y t.toNat)
  obtain ⟨⟨r, o, d, sps, hframe⟩, -⟩ := spillSettle_spillOnly y t.toNat
  rw [he]
  refine ⟨?_, hbits.cause (k := 4) t.isLt (by decide) (by decide) hush, hbits.cause (k := 12) t.isLt (by decide) (by decide) hkept⟩
  rw [hframe]
  exact (ctr_of_ctrs hyctr _ _).trans hctr

theorem exec_spillRecallDone_bad {s : State} (hrun : s.phase = .run) (t : TentIx) (q : VoqIx) {sp : Spill} {b : SpillBlock} {bs : List SpillBlock}
    (hsp : s.spillOf t.toNat q.toNat = some sp) (hblocks : sp.blocks = b :: bs) (bytes : List Byte) (hback : sp.recalling = true)
    (hgone : b.gone = false) : ∃ u, exec (.spillRecallDone t q (some bytes)) s = .next u
      ∧ u.ctr (ushPage t.toNat) 2051 = s.ctr (ushPage t.toNat) 2051 + 1
      ∧ u.is (pageFld (ushPage t.toNat) 16 0 1) = true ∧ u.is (pageFld (memPage t.toNat) 16 0 1) = true := by
  let s1 : Box := { s.toBox with freeCtr := s.freeCtr + 1 }
  obtain ⟨off, hcmd⟩ : ∃ off, s.toBox.spillBack t.toNat q.toNat (some bytes)
      = (s1.readUncorr t.toNat ((s1.holders t.toNat 7 off).headD 0) 7 off).spillRecallDone t.toNat q.toNat (some bytes) true := by
    unfold Box.spillBack
    rw [recallBlock_eq hsp hblocks hback]
    dsimp only
    rw [if_neg (ne_true_of_eq_false hgone)]
    exact ⟨_, rfl⟩
  obtain ⟨hmem, hctr⟩ := readUncorr_shows s1 t (holders_lt s1 t.toNat 7 off) 7 off
  obtain ⟨r, o, k, sps, n, bad, hframe⟩ := readUncorr_frame s1 t.toNat ((s1.holders t.toNat 7 off).headD 0) 7 off
  have hkeep : (s1.readUncorr t.toNat ((s1.holders t.toNat 7 off).headD 0) 7 off).spills = s.spills := by
    rw [hframe]
  obtain ⟨c, hc⟩ : ∃ c, s1.readUncorr t.toNat ((s1.holders t.toNat 7 off).headD 0) 7 off = c := ⟨_, rfl⟩
  rw [hc] at hcmd hmem hctr hkeep
  obtain ⟨ectr, eush, emem⟩ := recallUncorr_shows t ((spillOf_of_spills hkeep _ _).trans hsp) hblocks hback bytes hmem
  obtain ⟨e, he⟩ : ∃ e, c.spillRecallDone t.toNat q.toNat (some bytes) true = e := ⟨_, rfl⟩
  rw [he] at hcmd ectr eush emem
  exact ⟨_, next_onBox (f := fun b => b.spillBack t.toNat q.toNat (some bytes)) (actRun_run s _ hrun) hcmd,
    ectr.trans (congrArg (· + 1) (hctr 2051 (by decide))), eush, emem⟩

end Sys2Proof.Proofs
end

section
/-! # Spill blocks that are written (R106, R107, R108) -/

namespace Sys2Proof.Proofs

open Sys2Proof Sys2Proof.Machine Sys2Proof.Safety Sys2Proof.Laws

/-! ### A field that is not zero -/

theorem is_bit (b : Box) (a j : Nat) : b.is ⟨a, j, 1⟩ = (b.word a).toNat.testBit j := natField_bit _ _

/-- Where bits stay set, a field that is not zero stays so. -/
theorem bitsKept.ne_zero {b c : Box} (h : bitsKept b c) {f : Fld} (hfits : f.lo + f.width ≤ 32) (haddr : 0x1000000 ≤ f.addr)
    (hnot : ∀ t, f.addr ≠ USH_STATUS_at t) (hb : b.rd f ≠ 0) : c.rd f ≠ 0 := by
  obtain ⟨j, hj⟩ := Nat.exists_testBit_of_ne_zero hb
  have hbit (d : Box) : (d.rd f).testBit j = (decide (j < f.width) && (d.word f.addr).toNat.testBit (f.lo + j)) :=
    natField_testBit (d.word f.addr).toNat f.lo f.width j
  rw [hbit, Bool.and_eq_true] at hj
  obtain ⟨hwidth, hset⟩ := hj
  have hlt := of_decide_eq_true hwidth
  have hkept := h ⟨f.addr, f.lo + j, 1⟩ haddr hnot (show f.lo + j < 32 by omega) rfl ((is_bit b _ _).trans hset)
  intro hzero
  have hclear := hbit c
  rw [hzero, hwidth, Bool.true_and, ← is_bit, hkept, Nat.zero_testBit] at hclear
  exact Bool.false_ne_true hclear

/-! ### What reading and freeing cells leaves -/

/-- What every count, cause and row fault of a read keeps, the read keeps. -/
theorem readSpan_rel {R : Box → Box → Prop} (hrefl : ∀ b, R b b) (htrans : ∀ {b c d}, R b c → R c d → R b d) {t : Nat}
    (hcount : ∀ b i, R b (b.count (ushPage t) i)) (hraise : ∀ b, R b (b.raiseInt (ushPage t) 0)) (hrow : ∀ b x, R b (b.rowFault t x))
    (b : Box) (cells : List Nat) (pool : Option (Nat × Nat)) (f : Frame) (reads : List CellRead) (off n : Nat) :
    R b (b.readSpan t cells pool f reads off n).2 := by
  have hthree (wrong corrected links : List Nat) (chain : Nat → Nat) : R b (links.foldl (fun (b : Box) _ => b.count (ushPage t) 2049)
      (corrected.foldl (fun (b : Box) i => (b.count (ushPage t) 2049).rowFault t (chain i))
        (wrong.foldl (fun (b : Box) _ => (b.count (ushPage t) 2050).raiseInt (ushPage t) 0) b))) :=
    htrans (foldl_rel hrefl htrans wrong (fun c _ _ => htrans (hcount c 2050) (hraise _)) b)
      (htrans (foldl_rel hrefl htrans corrected (fun c i _ => htrans (hcount c 2049) (hrow _ (chain i))) _)
        (foldl_rel hrefl htrans links (fun c _ _ => hcount c 2049) _))
  unfold Box.readSpan
  dsimp only
  split
  · exact hthree _ _ _ fun i => _
  · exact htrans (hthree _ _ _ fun i => _) (htrans (hcount _ 2048) (hraise _))

/-- Spill records, frames, the tents' write times and set bits are as before. -/
structure SpillBeside (b c : Box) : Prop where
  spills : c.spills = b.spills
  descs : c.descs = b.descs
  writeAt : ∀ u, (c.tent u).writeAt = (b.tent u).writeAt
  bits : bitsKept b c

theorem SpillBeside.refl (b : Box) : SpillBeside b b := ⟨rfl, rfl, fun _ => rfl, bitsKept_refl b⟩

theorem SpillBeside.trans {b c d : Box} (h : SpillBeside b c) (k : SpillBeside c d) : SpillBeside b d :=
  ⟨k.spills.trans h.spills, k.descs.trans h.descs, fun u => (k.writeAt u).trans (h.writeAt u), bitsKept_trans h.bits k.bits⟩

theorem spillBeside_of_onlyRegsCtrs {b c : Box} (h : onlyRegsCtrs b c) (hbits : bitsKept b c) : SpillBeside b c := by
  obtain ⟨_, _, _, rfl⟩ := h
  exact ⟨rfl, rfl, fun _ => rfl, hbits⟩

theorem setTent_spillBeside (b : Box) (t : Nat) {x : Tent} (h : x.writeAt = (b.tent t).writeAt) : SpillBeside b (b.setTent t x) := by
  refine ⟨rfl, rfl, fun u => ?_, bitsKept_of_regs rfl⟩
  by_cases hu : u = t
  · rw [hu, tent_setTent_same, h]
  · rw [tent_setTent_other b hu]

theorem rowRepair_spillBeside (b : Box) (t r : Nat) : SpillBeside b (b.rowRepair t r) := by
  unfold Box.rowRepair
  dsimp only
  split
  · obtain ⟨hsp, hd, hat, hbits⟩ := setTent_spillBeside b t
      (x := { b.tent t with weak := (b.tent t).weak.filter (· ≠ r), mapped := (b.tent t).mapped ++ [r] }) rfl
    exact ⟨hsp, hd, hat, hbits⟩
  · exact SpillBeside.refl b

theorem count_spillBeside (b : Box) (p : Page) (i : Nat) : SpillBeside b (b.count p i) :=
  spillBeside_of_onlyRegsCtrs (bump_onlyRegsCtrs b p i 1) (bump_bitsKept b p i 1)

theorem rowFault_spillBeside (b : Box) (t c : Nat) : SpillBeside b (b.rowFault t c) := by
  have hpost (d : Box) (hd : SpillBeside b d) (cause unit : Nat) : SpillBeside b (d.postFault 5 cause unit t 0) := by
    have hbits := postFault_bitsKept d 5 cause unit t 0
    obtain ⟨_, _, _, _, _, _, _, h⟩ := postFault_logged d 5 cause unit t 0
    rw [h] at hbits ⊢
    exact hd.trans ⟨rfl, rfl, fun _ => rfl, hbits⟩
  have hfault := hpost { b with freeCtr := b.freeCtr + 1 } ⟨rfl, rfl, fun _ => rfl, bitsKept_of_regs rfl⟩
  unfold Box.rowFault Box.takeFree
  dsimp only
  split
  · refine (hfault ((Config.freeBits b.freeCtr).toNat % 256) (cellRow c)).trans (SpillBeside.trans ?_ (rowRepair_spillBeside _ t _))
    exact setTent_spillBeside _ t rfl
  · exact hfault _ _

theorem readSpan_spillBeside (b : Box) (t : Nat) (cells : List Nat) (pool : Option (Nat × Nat)) (f : Frame) (reads : List CellRead) (off n : Nat) :
    SpillBeside b (b.readSpan t cells pool f reads off n).2 :=
  readSpan_rel SpillBeside.refl SpillBeside.trans (fun b i => count_spillBeside b (ushPage t) i)
    (fun b => spillBeside_of_onlyRegsCtrs (raiseInt_onlyRegs b _ _).toCtrs (raiseInt_bitsKept b _ (by decide)))
    (fun b x => rowFault_spillBeside b t x) b cells pool f reads off n

theorem freeCells_spillBeside (b : Box) (t : Nat) (cells : List Nat) : SpillBeside b (b.freeCells t cells) := by
  refine foldl_rel SpillBeside.refl SpillBeside.trans cells (fun c x _ => ?_) b
  unfold Box.freeCell Box.freeCellFrom
  dsimp only
  split
  · refine SpillBeside.trans ?_ (rowRepair_spillBeside _ t _)
    exact setTent_spillBeside c t rfl
  · exact count_spillBeside c _ _

/-! ### A VOQ with a spilled frame keeps its written block -/

/-- The VOQ's oldest block is `x`, and it holds a spilled frame. -/
structure Spilling (t q : Nat) (x : SpillBlock) (b : Box) : Prop where
  head : ∃ sp, b.spillOf t q = some sp ∧ sp.blocks.head? = some x
  spilled : (b.voq t (q / 8) (q % 8)).any (fun d => d.spilled) = true

/-- Frames that keep their place in a VOQ, spilled ones spilled. -/
theorem voq_any_map {f : Desc → Desc} (hf : ∀ d, (f d).tent = d.tent ∧ (f d).egress = d.egress ∧ (f d).vc = d.vc ∧ (d.spilled = true → (f d).spilled = true))
    {b c : Box} (hdescs : c.descs = b.descs.map f) {t e v : Nat} (h : (b.voq t e v).any (fun d => d.spilled) = true) :
    (c.voq t e v).any (fun d => d.spilled) = true := by
  obtain ⟨d, hd, hsp⟩ := List.any_eq_true.mp h
  obtain ⟨hmem, hplace⟩ := List.mem_filter.mp hd
  obtain ⟨htent, hegress, hvc, hspilled⟩ := hf d
  refine List.any_eq_true.mpr ⟨f d, List.mem_filter.mpr ⟨hdescs ▸ List.mem_map_of_mem hmem, ?_⟩, hspilled hsp⟩
  rw [htent, hegress, hvc]
  exact hplace

theorem Spilling.kept {t q : Nat} {x : SpillBlock} {b c : Box} (h : Spilling t q x b) (hspills : c.spills = b.spills) (hdescs : c.descs = b.descs) :
    Spilling t q x c := by
  obtain ⟨⟨sp, hsp, hhead⟩, hspilled⟩ := h
  refine ⟨⟨sp, (spillOf_of_spills hspills t q).trans hsp, hhead⟩, ?_⟩
  rw [Box.voq, hdescs]
  exact hspilled

/-- Cells join the youngest block or a new one. -/
theorem addSpill_head {x : SpillBlock} (hx : x.written = true) (id now fuel n : Nat) (bs : List SpillBlock) (h : bs.head? = some x) :
    (addSpill id now fuel n bs).head? = some x := by
  induction fuel generalizing n bs with
  | zero => exact h
  | succ fuel ih =>
    obtain ⟨rest, rfl⟩ : ∃ rest, bs = x :: rest := by
      cases bs with
      | nil => exact nomatch h
      | cons y rest => exact ⟨rest, congrArg (· :: rest) (Option.some.inj h)⟩
    unfold addSpill
    split
    · exact h
    · split
      · next b hlast =>
        split
        · next hopen =>
          cases rest with
          | nil =>
            have hxb : x = b := Option.some.inj hlast
            exact absurd (hx.symm.trans ((congrArg SpillBlock.written hxb).trans hopen.1)) (by decide)
          | cons y rest => exact ih _ _ rfl
        · exact ih _ _ rfl
      · exact ih _ _ rfl

/-- What assigning frames of a VOQ does to its record: blocks are added behind the oldest. -/
theorem spillAssign_shape (b : Box) (t q : Nat) : b.spillAssign t q = b ∨ ∃ sp bs, b.spillOf t q = some sp
    ∧ (∀ x, x.written = true → sp.blocks.head? = some x → bs.head? = some x)
    ∧ b.spillAssign t q = (b.setSpill t q (some { sp with blocks := bs })).congest t sp.part := by
  unfold Box.spillAssign
  split
  · exact .inl rfl
  · next sp hsp =>
    split
    · exact .inl rfl
    · dsimp only
      split
      · exact .inl rfl
      · refine .inr ⟨sp, _, hsp, fun x hx hhead => ?_, rfl⟩
        refine List.foldlRecOn (motive := fun acc : Nat × Option Nat × List SpillBlock => acc.2.2.head? = some x) _ _ hhead fun acc hacc d _ => ?_
        obtain ⟨ahead, k, bs⟩ := acc
        cases k with
        | none => exact hacc
        | some k =>
          dsimp only
          split
          · split
            · exact addSpill_head hx _ _ _ _ _ hacc
            · exact hacc
          · exact hacc

theorem argMax_mem {α : Type} (key : α → Nat) {l : List α} {y : α} (h : argMax key l = some y) : y ∈ l := by
  induction l generalizing y with
  | nil => exact nomatch h
  | cons z l ih =>
    unfold argMax at h
    cases hrest : argMax key l with
    | none =>
      rw [hrest] at h
      exact Option.some.inj h ▸ List.mem_cons_self
    | some w =>
      rw [hrest] at h
      dsimp only at h
      split at h
      · exact Option.some.inj h ▸ List.mem_cons_self
      · exact Option.some.inj h ▸ List.mem_cons_of_mem _ (ih hrest)

theorem mem_insertBy {α : Type} (le : α → α → Bool) {x y : α} {l : List α} (h : y ∈ insertBy le x l) : y = x ∨ y ∈ l := by
  induction l with
  | nil => exact .inl (List.mem_singleton.mp h)
  | cons z l ih =>
    unfold insertBy at h
    split at h
    · exact List.mem_cons.mp h
    · rcases List.mem_cons.mp h with rfl | h
      · exact .inr List.mem_cons_self
      · exact (ih h).imp id (List.mem_cons_of_mem z)

theorem mem_sortBy {α : Type} (le : α → α → Bool) {y : α} {l : List α} (h : y ∈ sortBy le l) : y ∈ l := by
  induction l with
  | nil => exact h
  | cons x l ih =>
    rcases mem_insertBy le (h : y ∈ insertBy le x (sortBy le l)) with rfl | h
    · exact List.mem_cons_self
    · exact List.mem_cons_of_mem x (ih h)

section
variable {t q : Nat} {x : SpillBlock} (hx : x.written = true)

include hx

theorem spillAssign_spilling {b : Box} (h : Spilling t q x b) (r : Nat) : Spilling t q x (b.spillAssign t r) := by
  rcases spillAssign_shape b t r with heq | ⟨sp, bs, hsp, hbs, heq⟩
  · rw [heq]
    exact h
  · obtain ⟨hdescs, hspills⟩ := congest_descs (b.setSpill t r (some { sp with blocks := bs })) t sp.part
    rw [heq]
    refine Spilling.kept ?_ hspills hdescs
    obtain ⟨⟨sp', hsp', hhead⟩, hspilled⟩ := h
    refine ⟨?_, hspilled⟩
    by_cases hr : r = q
    · rw [hr] at hsp ⊢
      have hsame : sp' = sp := Option.some.inj (hsp'.symm.trans hsp)
      exact ⟨_, spillOf_setSpill_same b t q _, hbs x hx (hsame ▸ hhead)⟩
    · exact ⟨sp', (spillOf_setSpill_other b t hr _).trans hsp', hhead⟩

omit hx in
theorem spillLeaveOne_spilling {b : Box} (h : Spilling t q x b) (r : Nat) : Spilling t q x (b.spillLeaveOne t r) := by
  unfold Box.spillLeaveOne
  split
  · exact h
  · next sp hsp =>
    split
    · exact h
    · next hstay =>
      obtain ⟨⟨sp', hsp', hhead⟩, hspilled⟩ := h
      have hr : r ≠ q := fun hr => hstay (.inl (hr ▸ hspilled))
      refine ⟨⟨sp', (spillOf_setSpill_other b t hr none).trans hsp', hhead⟩, ?_⟩
      refine voq_any_map (f := fun d => if d.tent = t ∧ 8 * d.egress + d.vc = r ∧ d.charge = .recall then
        { d with charge := .partition sp.part } else d) (fun d => ?_) rfl hspilled
      split <;> exact ⟨rfl, rfl, rfl, id⟩

theorem spillStart_spilling {b : Box} (h : Spilling t q x b) (p : Nat) : Spilling t q x (b.spillStart t p) := by
  unfold Box.spillStart
  dsimp only
  split
  · split
    · exact h
    · next r hr =>
      have hnone := (List.mem_filter.mp (mem_sortBy _ (argMax_mem _ hr))).2
      obtain ⟨⟨sp, hsp, hhead⟩, hspilled⟩ := h
      have hne : r ≠ q := fun heq => by
        rw [heq, hsp] at hnone
        exact Bool.false_ne_true hnone
      exact spillAssign_spilling hx ⟨⟨sp, (spillOf_setSpill_other b t hne _).trans hsp, hhead⟩, hspilled⟩ r
  · exact h

/-- Where writes run, the settling of spilling leaves such a VOQ's oldest block. -/
theorem spillSettle_spilling {b : Box} (hrate : b.rd (USH_SPILL_CTRL_WRATE t) ≠ 0) (h : Spilling t q x b) : Spilling t q x (b.spillSettle t) := by
  have hstop : b.spillStop t = b := if_pos hrate
  have hleft := foldl_rel (R := fun c d => Spilling t q x c → Spilling t q x d) (fun _ => id) (fun h k => k ∘ h) (b.spillVoqs t)
    (fun c r _ hc => spillLeaveOne_spilling hc r) b h
  have hstart := foldl_rel (R := fun c d => Spilling t q x c → Spilling t q x d) (fun _ => id) (fun h k => k ∘ h) [0, 1, 2, 3]
    (fun c p _ hc => spillStart_spilling hx hc p) (b.spillLeave t) hleft
  have hassign (c : Box) := foldl_rel (R := fun c d => Spilling t q x c → Spilling t q x d) (fun _ => id) (fun h k => k ∘ h) (c.spillVoqs t)
    (fun c r _ hc => spillAssign_spilling hx hc r) c
  have hstatus (c : Box) (hc : Spilling t q x c) : Spilling t q x (c.spillStatus t) := by
    obtain ⟨r, o, heq⟩ := spillStatus_onlyRegs c t
    rw [heq]
    exact hc.kept rfl rfl
  unfold Box.spillSettle
  dsimp only
  rw [hstop]
  exact hstatus _ (hassign _ hstart)

end

end Sys2Proof.Proofs
end

section
/-! # Settling O32: a spill block is written (R97, R98, R106, R107, R108) -/

namespace Sys2Proof.Proofs

open Sys2Proof Sys2Proof.Machine Sys2Proof.Safety Sys2Proof.Laws

/-- Spill records, set bits and write times are as before, and a VOQ with a spilled frame has one still. -/
structure VoqsKept (b c : Box) : Prop where
  spills : c.spills = b.spills
  writeAt : ∀ u, (c.tent u).writeAt = (b.tent u).writeAt
  bits : bitsKept b c
  voqs : ∀ t e v, (b.voq t e v).any (fun d => d.spilled) = true → (c.voq t e v).any (fun d => d.spilled) = true

theorem VoqsKept.refl (b : Box) : VoqsKept b b := ⟨rfl, fun _ => rfl, bitsKept_refl b, fun _ _ _ => id⟩

theorem VoqsKept.trans {b c d : Box} (h : VoqsKept b c) (k : VoqsKept c d) : VoqsKept b d :=
  ⟨k.spills.trans h.spills, fun u => (k.writeAt u).trans (h.writeAt u), bitsKept_trans h.bits k.bits, fun t e v => k.voqs t e v ∘ h.voqs t e v⟩

/-- Frames change in place after cells have been read or freed. -/
theorem SpillBeside.voqsKept {b c : Box} (h : SpillBeside b c) {f : Desc → Desc}
    (hf : ∀ d, (f d).tent = d.tent ∧ (f d).egress = d.egress ∧ (f d).vc = d.vc ∧ (d.spilled = true → (f d).spilled = true)) :
    VoqsKept b { c with descs := c.descs.map f } :=
  ⟨h.spills, h.writeAt, bitsKept_trans h.bits (bitsKept_of_regs rfl), fun _ _ _ hany => voq_any_map hf (by rw [h.descs]) hany⟩

theorem spillRead_voqsKept (b : Box) (id off n : Nat) (reads : List CellRead) : VoqsKept b (b.spillRead id off n reads) := by
  unfold Box.spillRead
  split
  · exact VoqsKept.refl b
  · next d _ =>
    refine (readSpan_spillBeside b d.tent d.cells d.pool d.frame reads off n).voqsKept fun x => ?_
    split
    · exact ⟨rfl, rfl, rfl, fun h => h⟩
    · exact ⟨rfl, rfl, rfl, fun h => h⟩

theorem spillReads_voqsKept (bs : List SpillBlock) (ps : List (Nat × Nat)) (reads : List CellRead) (b : Box) : VoqsKept b (spillReads bs ps reads b) := by
  induction ps generalizing reads b with
  | nil => exact VoqsKept.refl b
  | cons p ps ih => exact (spillRead_voqsKept b p.1 _ p.2 _).trans (ih _ _)

theorem spillCommit_voqsKept (b : Box) (t q : Nat) : VoqsKept b (b.spillCommit t q) := by
  unfold Box.spillCommit
  split
  · exact VoqsKept.refl b
  · dsimp only
    refine SpillBeside.voqsKept (foldl_rel SpillBeside.refl SpillBeside.trans _ (fun c d _ => freeCells_spillBeside c t d.cells) b) fun x => ?_
    split
    · exact ⟨rfl, rfl, rfl, fun _ => rfl⟩
    · exact ⟨rfl, rfl, rfl, fun h => h⟩

section
variable {s : Box} {t q : Nat} {sp : Spill} {b : SpillBlock} {bs : List SpillBlock} (hsp : s.spillOf t q = some sp) (hblocks : sp.blocks = b :: bs)
  (hopen : b.written = false) {ready : SpillBlock → Bool} (reads : List CellRead)
include hsp

/-- What keeps a tent from writing a block keeps it from changing anything. -/
theorem spillWrite_refused (h : s.rd (USH_SPILL_CTRL_WRATE t) = 0 ∨ 100 * s.raw < (s.tent t).writeAt ∨ s.rebuilding t = true) :
    s.spillWrite t q ready reads = s := by
  unfold Box.spillWrite
  rw [hsp]
  refine if_pos ?_
  rcases h with h | h | h
  · exact .inl h
  · exact .inr (.inl h)
  · exact .inr (.inr (.inr h))

include hblocks hopen

theorem spillWrite_eq (hready : ready b = true) (hrate : s.rd (USH_SPILL_CTRL_WRATE t) ≠ 0) (hat : (s.tent t).writeAt ≤ 100 * s.raw)
    (hreb : s.rebuilding t = false) : ∃ s0, VoqsKept s s0 ∧ s.spillWrite t q ready reads
      = (((s0.setTent t { s0.tent t with writeAt := 100 * s.raw + blockTime (s.rd (USH_SPILL_CTRL_WRATE t)) }).setSpill t q
          (some { sp with blocks := { b with written := true } :: bs })).spillCommit t q).spillSettle t := by
  have hmark : markWritten ready (b :: bs) = { b with written := true } :: bs := by
    unfold markWritten
    rw [if_neg (ne_true_of_eq_false hopen), if_pos hready]
  have hchanged : { b with written := true } :: bs ≠ b :: bs := fun h => by
    have hb := congrArg SpillBlock.written (List.cons.inj h).1
    exact Bool.false_ne_true (hopen.symm.trans hb.symm)
  refine ⟨_, spillReads_voqsKept sp.blocks ((sp.blocks.find? fun b => !b.written).elim [] fun b => b.parts) reads s, ?_⟩
  unfold Box.spillWrite
  rw [hsp]
  dsimp only
  rw [hblocks, hmark]
  refine if_neg ?_
  rintro (h | h | h | h)
  · exact hrate h
  · exact Nat.not_lt.mpr hat h
  · exact hchanged h
  · exact Bool.false_ne_true (hreb.symm.trans h)

/-- A block that is ready is written: it stands at the head of its VOQ's record, and the next may follow at the tent's rate. -/
theorem spillWrite_shows (hready : ready b = true) (hrate : s.rd (USH_SPILL_CTRL_WRATE t) ≠ 0) (hat : (s.tent t).writeAt ≤ 100 * s.raw)
    (hreb : s.rebuilding t = false) (hspilled : (s.voq t (q / 8) (q % 8)).any (fun d => d.spilled) = true) :
    ∃ e, s.spillWrite t q ready reads = e ∧ (∃ sp', e.spillOf t q = some sp' ∧ sp'.blocks.head? = some { b with written := true })
      ∧ (e.tent t).writeAt = 100 * s.raw + blockTime (s.rd (USH_SPILL_CTRL_WRATE t)) := by
  obtain ⟨s0, ⟨-, -, hbits, hvoqs⟩, heq⟩ := spillWrite_eq hsp hblocks hopen reads hready hrate hat hreb
  let s1 := (s0.setTent t { s0.tent t with writeAt := 100 * s.raw + blockTime (s.rd (USH_SPILL_CTRL_WRATE t)) }).setSpill t q
    (some { sp with blocks := { b with written := true } :: bs })
  have htime : (s1.tent t).writeAt = 100 * s.raw + blockTime (s.rd (USH_SPILL_CTRL_WRATE t)) := congrArg Tent.writeAt (tent_setTent_same s0 t _)
  have hrecord : s1.spillOf t q = some { sp with blocks := { b with written := true } :: bs } := spillOf_setSpill_same _ t q _
  obtain ⟨cspills, cat, cbits, cvoqs⟩ := spillCommit_voqsKept s1 t q
  obtain ⟨c, hc⟩ : ∃ c, s1.spillCommit t q = c := ⟨_, rfl⟩
  rw [hc] at cspills cat cbits cvoqs
  have hrate' : c.rd (USH_SPILL_CTRL_WRATE t) ≠ 0 := by
    have hs1 : bitsKept s0 s1 := bitsKept_of_regs rfl
    have haddr : (USH_SPILL_CTRL_WRATE t).addr = 0x1000000 * (t + 1) + 0x40130 := rfl
    refine (bitsKept_trans hbits (bitsKept_trans hs1 cbits)).ne_zero (Nat.le_of_ble_eq_true rfl) (by omega) (fun u => ?_) hrate
    unfold USH_STATUS_at
    omega
  have hspilling : Spilling t q { b with written := true } c :=
    ⟨⟨_, (spillOf_of_spills cspills t q).trans hrecord, rfl⟩, cvoqs _ _ _ (hvoqs _ _ _ hspilled)⟩
  obtain ⟨hhead, -⟩ := spillSettle_spilling (x := { b with written := true }) rfl hrate' hspilling
  obtain ⟨⟨r, o, d, sps, hframe⟩, -⟩ := spillSettle_spillOnly c t
  refine ⟨c.spillSettle t, heq.trans (congrArg (fun z : Box => z.spillSettle t) hc), hhead, ?_⟩
  rw [hframe]
  exact (cat t).trans htime

end

section
variable {s : State} (hrun : s.phase = .run) (t : TentIx) (q : VoqIx) (reads : List CellRead) {sp : Spill} {b : SpillBlock} {bs : List SpillBlock}
  (hsp : s.spillOf t.toNat q.toNat = some sp)
include hrun hsp

theorem exec_spillWrite_refused (h : s.rd (USH_SPILL_CTRL_WRATE t.toNat) = 0 ∨ 100 * s.raw < (s.tent t.toNat).writeAt ∨ s.rebuilding t.toNat = true) :
    exec (.spillBlockWritten t q reads) s = .next s ∧ exec (.spillBlockTimer t q reads) s = .next s :=
  ⟨next_onBox (f := fun b => b.spillWrite t.toNat q.toNat (fun k => decide (16 ≤ k.cells)) reads) (actRun_run s _ hrun)
    (spillWrite_refused hsp reads h),
   next_onBox (f := fun b => b.spillWrite t.toNat q.toNat (fun k => decide (k.firstAt + 640 ≤ b.raw)) reads) (actRun_run s _ hrun)
    (spillWrite_refused hsp reads h)⟩

theorem exec_spillWrite (hblocks : sp.blocks = b :: bs) (hopen : b.written = false) (hrate : s.rd (USH_SPILL_CTRL_WRATE t.toNat) ≠ 0)
    (hat : (s.tent t.toNat).writeAt ≤ 100 * s.raw) (hreb : s.rebuilding t.toNat = false)
    (hspilled : (s.voq t.toNat (q.toNat / 8) (q.toNat % 8)).any (fun d => d.spilled) = true) :
    (16 ≤ b.cells → ∃ u sp', exec (.spillBlockWritten t q reads) s = .next u ∧ u.spillOf t.toNat q.toNat = some sp'
      ∧ sp'.blocks.head? = some { b with written := true }
      ∧ (u.tent t.toNat).writeAt = 100 * s.raw + blockTime (s.rd (USH_SPILL_CTRL_WRATE t.toNat)))
    ∧ (b.firstAt + 640 ≤ s.raw → ∃ u sp', exec (.spillBlockTimer t q reads) s = .next u
      ∧ u.spillOf t.toNat q.toNat = some sp' ∧ sp'.blocks.head? = some { b with written := true }) := by
  refine ⟨fun hfull => ?_, fun hold => ?_⟩
  · obtain ⟨e, he, ⟨sp', hsp', hhead⟩, hnext⟩ := spillWrite_shows hsp hblocks hopen (ready := fun k => decide (16 ≤ k.cells)) reads
      (decide_eq_true hfull) hrate hat hreb hspilled
    exact ⟨_, sp', next_onBox (f := fun b => b.spillWrite t.toNat q.toNat (fun k => decide (16 ≤ k.cells)) reads) (actRun_run s _ hrun) he,
      hsp', hhead, hnext⟩
  · obtain ⟨e, he, ⟨sp', hsp', hhead⟩, -⟩ := spillWrite_shows hsp hblocks hopen (ready := fun k => decide (k.firstAt + 640 ≤ s.raw)) reads
      (decide_eq_true hold) hrate hat hreb hspilled
    exact ⟨_, sp', next_onBox (f := fun b => b.spillWrite t.toNat q.toNat (fun k => decide (k.firstAt + 640 ≤ b.raw)) reads)
      (actRun_run s _ hrun) he, hsp', hhead⟩

end

/-- Settles O32: an audit by the cells it frees one by one, a block by the record of its VOQ, which the settling of spilling keeps while a
frame of the VOQ is spilled. -/
theorem spillAndAuditKeepTheCells : Obligations.SpillAndAuditKeepTheCells := by
  unfold Obligations.SpillAndAuditKeepTheCells
  intro s t q reads hrun
  refine ⟨fun sp b bs hsp hblocks hopen => ⟨exec_spillWrite hrun t q reads hsp hblocks hopen, exec_spillWrite_refused hrun t q reads hsp⟩,
    fun sp b bs hsp hblocks => ⟨exec_spillRecall hrun t q hsp hblocks, exec_spillRecallDone_good hrun t q hsp hblocks,
      exec_spillRecallDone_bad hrun t q hsp hblocks⟩, exec_ushAudit, fun was hwas => exec_ushAuditDone hrun t hwas⟩

end Sys2Proof.Proofs
end

section
/-! # Live members, and a tent's bank switch (R77, R80, R83, R84) -/

namespace Sys2Proof.Proofs

open Sys2Proof Sys2Proof.Machine Sys2Proof.Safety Sys2Proof.Laws

/-! ### LIVE bits -/

/-- A bit of a word that is cleared, and no other. -/
theorem clearBit_bits (w : Word) {i : Nat} (hi : i < 32) (j : Nat) : (wordWith w i 1 0).getLsbD j = (decide (j ≠ i) && w.getLsbD j) := by
  have hfits : i + 1 ≤ 32 := hi
  have hbit (x : Word) (k : Nat) : x.getLsbD k = (wordField x k 1 != 0) := (natField_bit x.toNat k).symm
  rw [hbit, hbit w j]
  rcases Nat.lt_trichotomy j i with h | h | h
  · rw [wordField_wordWith_below w i 1 0 j 1 hfits h, decide_eq_true (Nat.ne_of_lt h), Bool.true_and]
  · rw [h, wordField_wordWith_same w i 1 0 hfits, decide_eq_false (fun hne => hne rfl), Bool.false_and]
    rfl
  · rw [wordField_wordWith_above w i 1 0 j 1 hfits h, decide_eq_true (Nat.ne_of_gt h), Bool.true_and]

/-- A bundle counts no more members for it. -/
theorem clearBit_count (w : Word) {i : Nat} (hi : i < 32) : wordField (wordWith w i 1 0) 28 4 ≤ wordField w 28 4 := by
  have hsplit := natField_split w.toNat i 1
  have hle : (wordWith w i 1 0).toNat ≤ w.toNat := by
    rw [wordWith_toNat w i 1 0 hi]
    generalize w.toNat / 2 ^ (i + 1) = a at *
    generalize w.toNat % 2 ^ i = r at *
    generalize natField w.toNat i 1 = f at *
    generalize 2 ^ i = m at *
    have hmul := Nat.mul_le_mul_left m (show 0 % 2 ^ 1 + 2 ^ 1 * a ≤ f + 2 ^ 1 * a by omega)
    omega
  have hw := w.isLt
  have hw' := (wordWith w i 1 0).isLt
  simp only [wordField, natField]
  have hdiv := Nat.div_le_div_right (c := 2 ^ 28) hle
  omega

/-- Between `b` and `c` LIVE bits of a bank have been cleared. -/
structure LiveCleared (n : Nat) (b c : Box) : Prop where
  frame : ∃ tabs, c = { b with tabs := tabs }
  live : ∀ k m, c.memLive n k m = true → b.memLive n k m = true ∧ c.member n k m = b.member n k m

theorem LiveCleared.refl (n : Nat) (b : Box) : LiveCleared n b b := ⟨⟨_, rfl⟩, fun _ _ h => ⟨h, rfl⟩⟩

theorem LiveCleared.trans {n : Nat} {b c d : Box} (h : LiveCleared n b c) (k : LiveCleared n c d) : LiveCleared n b d := by
  obtain ⟨⟨_, rfl⟩, hlive⟩ := h
  obtain ⟨⟨_, rfl⟩, klive⟩ := k
  refine ⟨⟨_, rfl⟩, fun j m hd => ?_⟩
  obtain ⟨hc, hmember⟩ := klive j m hd
  obtain ⟨hb, hmember'⟩ := hlive j m hc
  exact ⟨hb, hmember.trans hmember'⟩

theorem memLive_lt {b : Box} {n k m : Nat} (h : b.memLive n k m = true) : m < 12 := by
  obtain ⟨-, hbit⟩ := Bool.and_eq_true_iff.mp h
  by_contra hm
  rw [BitVec.getLsbD_of_ge _ _ (by omega)] at hbit
  exact Bool.false_ne_true hbit

/-- The LIVE bit of a member is cleared. -/
def clearMember (n k m : Nat) (b : Box) : Box := b.setTab (bundleAt n k) (wordWith (b.tab (bundleAt n k)) (20 + m) 1 0)

theorem tab_clearMember_other (n k m : Nat) (b : Box) {a : Nat} (h : a ≠ bundleAt n k) : (clearMember n k m b).tab a = b.tab a :=
  mapGet_mapSet_other _ _ _ h

theorem tab_clearMember_same (n k m : Nat) (b : Box) : (clearMember n k m b).tab (bundleAt n k) = wordWith (b.tab (bundleAt n k)) (20 + m) 1 0 :=
  mapGet_mapSet_same ..

theorem bundleAt_ne (n : Nat) {j k : Nat} (h : j ≠ k) : bundleAt n j ≠ bundleAt n k := by
  unfold bundleAt
  omega

theorem clearMember_cleared (n k : Nat) {m : Nat} (hm : m < 12) (b : Box) :
    LiveCleared n b (clearMember n k m b) ∧ (clearMember n k m b).memLive n k m = false := by
  have hcount := clearBit_count (b.tab (bundleAt n k)) (i := 20 + m) (by omega)
  have hbits := clearBit_bits (b.tab (bundleAt n k)) (i := 20 + m) (by omega)
  refine ⟨⟨⟨_, rfl⟩, fun j i hlive => ⟨?_, ?_⟩⟩, ?_⟩
  · by_cases hjk : j = k
    · subst hjk
      unfold Box.memLive Box.nmem at hlive ⊢
      rw [tab_clearMember_same, hbits, Bool.and_eq_true, Bool.and_eq_true] at hlive
      obtain ⟨hin, -, hbit⟩ := hlive
      rw [hbit, Bool.and_true]
      exact decide_eq_true (Nat.lt_of_lt_of_le (of_decide_eq_true hin) hcount)
    · unfold Box.memLive Box.nmem at hlive ⊢
      rw [tab_clearMember_other n k m b (bundleAt_ne n hjk)] at hlive
      exact hlive
  · have hi := memLive_lt hlive
    have hne : bundleAt n j + 4 * (1 + i / 2) ≠ bundleAt n k := by
      unfold bundleAt
      omega
    rw [Box.member, Box.member, tab_clearMember_other n k m b hne]
  · unfold Box.memLive
    rw [tab_clearMember_same, hbits, decide_eq_false (p := 20 + m ≠ 20 + m) (fun h => h rfl), Bool.false_and, Bool.and_false]

/-- A member is cleared where it is live and `p` holds of it. -/
def clearWhere (n : Nat) (p : Nat → Bool) (k : Nat) (b : Box) (m : Nat) : Box :=
  if b.memLive n k m && p (b.member n k m) then clearMember n k m b else b

theorem clearLive_eq (b : Box) (n : Nat) (p : Nat → Bool) : b.clearLive n p = ((b.tabs.filterMap fun e =>
    if bundleAt n 0 ≤ e.1 ∧ e.1 < bundleAt n 2048 then some ((e.1 - bundleAt n 0) / 32) else none).eraseDups).foldl
      (fun acc k => (List.range (acc.nmem n k)).foldl (clearWhere n p k) acc) b := rfl

/-- No live member meets `p`. -/
def noneLive (n : Nat) (p : Nat → Bool) (k m : Nat) (b : Box) : Prop := b.memLive n k m = true → p (b.member n k m) = false

theorem LiveCleared.noneLive {n : Nat} {p : Nat → Bool} {k m : Nat} {b c : Box} (h : LiveCleared n b c) (hb : noneLive n p k m b) :
    noneLive n p k m c := fun hc => by
  obtain ⟨hlive, hmember⟩ := h.live k m hc
  rw [hmember]
  exact hb hlive

theorem clearWhere_cleared (n : Nat) (p : Nat → Bool) (k m : Nat) (b : Box) :
    LiveCleared n b (clearWhere n p k b m) ∧ noneLive n p k m (clearWhere n p k b m) := by
  unfold clearWhere
  split
  · next h =>
    obtain ⟨hcleared, hoff⟩ := clearMember_cleared n k (memLive_lt (Bool.and_eq_true_iff.mp h).1) b
    exact ⟨hcleared, fun hlive => absurd (hoff.symm.trans hlive) Bool.false_ne_true⟩
  · next h =>
    refine ⟨LiveCleared.refl n b, fun hlive => ?_⟩
    rw [hlive, Bool.true_and] at h
    exact Bool.eq_false_iff.mpr h

theorem clearBundle_cleared (n : Nat) (p : Nat → Bool) (k : Nat) (b : Box) :
    LiveCleared n b ((List.range (b.nmem n k)).foldl (clearWhere n p k) b)
      ∧ ∀ m, noneLive n p k m ((List.range (b.nmem n k)).foldl (clearWhere n p k) b) := by
  have hcleared := foldl_rel (R := LiveCleared n) (LiveCleared.refl n) LiveCleared.trans (f := clearWhere n p k) (List.range (b.nmem n k))
    (fun c m _ => (clearWhere_cleared n p k m c).1) b
  refine ⟨hcleared, fun m => ?_⟩
  by_cases hm : m < b.nmem n k
  · exact foldl_establishes (I := fun _ => True) (P := noneLive n p k m) (List.mem_range.mpr hm) (fun _ _ _ _ => trivial)
      (fun c i _ hc => (clearWhere_cleared n p k i c).1.noneLive hc) (fun c _ => (clearWhere_cleared n p k m c).2) b trivial
  · refine hcleared.noneLive fun hlive => ?_
    exact absurd (of_decide_eq_true (Bool.and_eq_true_iff.mp hlive).1) hm

/-- A key that reads as something is listed. -/
theorem mem_of_mapGet_ne {α : Type} {d : Nat → α} {m : Sparse α} {k : Nat} (h : mapGet d m k ≠ d k) : ∃ e ∈ m, e.1 = k := by
  induction m with
  | nil => exact absurd rfl h
  | cons e m ih =>
    unfold mapGet at h
    split at h
    · next heq => exact ⟨e, List.mem_cons_self, heq⟩
    · obtain ⟨x, hx, hk⟩ := ih h
      exact ⟨x, List.mem_cons_of_mem e hx, hk⟩

/-- After the clearing no live member of the bank meets `p`. -/
theorem clearLive_shows (b : Box) (n : Nat) (p : Nat → Bool) : (∃ tabs, b.clearLive n p = { b with tabs := tabs })
    ∧ ∀ k m, k < 2048 → (b.clearLive n p).memLive n k m = true → p ((b.clearLive n p).member n k m) = false := by
  have hcleared : LiveCleared n b (b.clearLive n p) := by
    rw [clearLive_eq]
    exact foldl_rel (LiveCleared.refl n) LiveCleared.trans _ (fun c k _ => (clearBundle_cleared n p k c).1) b
  refine ⟨hcleared.frame, fun k m hk hlive => ?_⟩
  obtain ⟨hbefore, -⟩ := hcleared.live k m hlive
  have hlisted : b.tab (bundleAt n k) ≠ 0 := fun hzero => by
    unfold Box.memLive at hbefore
    rw [hzero, show (0 : Word).getLsbD (20 + m) = false from BitVec.getLsbD_zero, Bool.and_false] at hbefore
    exact Bool.false_ne_true hbefore
  obtain ⟨e, he, hkey⟩ := mem_of_mapGet_ne hlisted
  have hmem : k ∈ ((b.tabs.filterMap fun e =>
      if bundleAt n 0 ≤ e.1 ∧ e.1 < bundleAt n 2048 then some ((e.1 - bundleAt n 0) / 32) else none).eraseDups) := by
    refine List.mem_eraseDups.mpr (List.mem_filterMap.mpr ⟨e, he, ?_⟩)
    rw [hkey]
    unfold bundleAt
    rw [if_pos (by omega)]
    exact congrArg some (by omega)
  have hdone : noneLive n p k m (b.clearLive n p) := by
    rw [clearLive_eq]
    exact foldl_establishes (I := fun _ => True) (P := noneLive n p k m) hmem (fun _ _ _ _ => trivial)
      (fun c i _ hc => (clearBundle_cleared n p i c).1.noneLive hc) (fun c _ => (clearBundle_cleared n p k c).2 m) b trivial
  exact hdone hlive

end Sys2Proof.Proofs
end

section
/-! # Bank switches and restoration notices (R80, R83, R84, R86, R462) -/

namespace Sys2Proof.Proofs

open Sys2Proof Sys2Proof.Machine Sys2Proof.Safety Sys2Proof.Laws

/-! ### Notices -/

/-- A word of a tent's page behind its interrupt words. -/
abbrev tentBody (a : Nat) : Prop := 0x1000000 ≤ a ∧ 0x100 ≤ a % 0x10000

theorem raiseInt_tentBody (b : Box) {p : Page} (hp : p < 2304) (bit : Nat) : sameOn tentBody b (b.raiseInt p bit) := by
  refine sameOn_of_sameWords (raiseInt_sameWords b p bit) ?_
  have hmod := pageBase_mod p
  have hvector := pageVector_lt hp
  simp only [causeWords, List.mem_cons, List.not_mem_nil, or_false]
  rintro a (rfl | rfl) ⟨hlo, hoff⟩
  · omega
  · omega

/-- What notices touch. -/
def noticeFrame (b c : Box) : Prop := (∃ r o k q ev v n ps st id, c = { b with
    regs := r, outbox := o, ctrs := k, qlens := q, events := ev, vc6Q := v, freeCtr := n, ports := ps, staging := st, descId := id })
  ∧ sameOn tentBody b c

theorem noticeFrame_refl (b : Box) : noticeFrame b b := ⟨⟨_, _, _, _, _, _, _, _, _, _, rfl⟩, sameOn_refl _ b⟩

theorem noticeFrame_trans {b c d : Box} (h : noticeFrame b c) (k : noticeFrame c d) : noticeFrame b d := by
  obtain ⟨⟨_, _, _, _, _, _, _, _, _, _, rfl⟩, hwords⟩ := h
  obtain ⟨⟨_, _, _, _, _, _, _, _, _, _, rfl⟩, kwords⟩ := k
  exact ⟨⟨_, _, _, _, _, _, _, _, _, _, rfl⟩, sameOn_trans hwords kwords⟩

theorem noticeFrame_of_logged {b c : Box} (h : logged b c) (hwords : sameOn tentBody b c) : noticeFrame b c := by
  obtain ⟨_, _, _, _, _, _, _, rfl⟩ := h
  exact ⟨⟨_, _, _, _, _, _, _, _, _, _, rfl⟩, hwords⟩

/-- The notice of code `code` and payload `pay` of `n` ranges that port `p` sends next. -/
def noticeSent (code n : Nat) (pay : List Byte) (b : Box) (p : Nat) : Box :=
  (b.setPort p { b.port p with nseq := ((b.port p).nseq + 1) % 65536 }).originate p
    (mkControl 4 (b.rd (LNK_PARTNER_ID_ADDR_ADDR p)) (b.rd (FWD_SELF_ADDR_ADDR 0)) [code * 2 ^ 24 + (b.port p).nseq, n * 2 ^ 21] pay 0)

theorem sendNotice_eq (b : Box) (code : Nat) (rs : List (Nat × Nat)) : b.sendNotice code rs
    = let c := b.leafPorts.foldl (noticeSent code rs.length (rs.flatMap fun r => bytesBE 2 r.1 ++ bytesBE 2 r.2)) b
      if code = 0x21 then ((b.leafPorts.map (· / 256)).eraseDups).foldl (fun b t => b.raiseInt (fwdPage t) 2) c else c := rfl

/-- A port that originates a frame has sent as many notices as it is given. -/
theorem setPort_originate_keeps (b : Box) (p : Nat) (x : Port) (f : Frame) : ∃ ps st id,
    (b.setPort p x).originate p f = { b with ports := ps, staging := st, descId := id }
      ∧ ∀ q, (mapGet (fun _ => {}) ps q : Port).nseq = if q = p then x.nseq else (b.port q).nseq := by
  obtain ⟨st, id, heq⟩ := originate_keeps (b.setPort p x) p f
  refine ⟨_, _, _, heq, fun q => ?_⟩
  by_cases hq : q = p
  · rw [hq, if_pos rfl, mapGet_mapSet_same, Box.port, Box.setPort, mapGet_mapSet_same]
  · rw [if_neg hq, mapGet_mapSet_other _ _ _ hq, Box.setPort, mapGet_mapSet_other _ _ _ hq]
    rfl

/-- What sending notices touches. -/
def noticesOnly (b c : Box) : Prop := ∃ ps st id, c = { b with ports := ps, staging := st, descId := id }

theorem noticesOnly_refl (b : Box) : noticesOnly b b := ⟨b.ports, b.staging, b.descId, rfl⟩

theorem noticesOnly_trans {b c d : Box} (h : noticesOnly b c) (k : noticesOnly c d) : noticesOnly b d := by
  obtain ⟨_, _, _, rfl⟩ := h
  obtain ⟨_, _, _, rfl⟩ := k
  exact ⟨_, _, _, rfl⟩

theorem noticeSent_shows (code n : Nat) (pay : List Byte) (b : Box) (p : Nat) : noticesOnly b (noticeSent code n pay b p)
    ∧ ∀ q, ((noticeSent code n pay b p).port q).nseq = if q = p then ((b.port p).nseq + 1) % 65536 else (b.port q).nseq := by
  unfold noticeSent
  generalize mkControl 4 (b.rd (LNK_PARTNER_ID_ADDR_ADDR p)) (b.rd (FWD_SELF_ADDR_ADDR 0)) [code * 2 ^ 24 + (b.port p).nseq, n * 2 ^ 21] pay 0 = f
  obtain ⟨ps, st, id, heq, hseq⟩ := setPort_originate_keeps b p { b.port p with nseq := ((b.port p).nseq + 1) % 65536 } f
  rw [heq]
  exact ⟨⟨ps, st, id, rfl⟩, hseq⟩

theorem noticesSent_shows (code n : Nat) (pay : List Byte) {l : List Nat} (hl : l.Nodup) (b : Box) :
    noticesOnly b (l.foldl (noticeSent code n pay) b)
      ∧ ∀ q ∈ l, ((l.foldl (noticeSent code n pay) b).port q).nseq = ((b.port q).nseq + 1) % 65536 := by
  have hother (m : List Nat) (c : Box) (q : Nat) (hq : q ∉ m) : ((m.foldl (noticeSent code n pay) c).port q).nseq = (c.port q).nseq :=
    List.foldlRecOn (motive := fun d : Box => (d.port q).nseq = (c.port q).nseq) m _ rfl fun d hd p hp =>
      ((noticeSent_shows code n pay d p).2 q).trans ((if_neg fun h : q = p => hq (h ▸ hp)).trans hd)
  refine ⟨foldl_rel noticesOnly_refl noticesOnly_trans l (fun c p _ => (noticeSent_shows code n pay c p).1) b, ?_⟩
  induction l generalizing b with
  | nil => exact fun q hq => nomatch hq
  | cons p l ih =>
    obtain ⟨hp, hl⟩ := List.nodup_cons.mp hl
    have hone := (noticeSent_shows code n pay b p).2
    intro q hq
    rw [List.foldl_cons]
    rcases List.mem_cons.mp hq with rfl | hmem
    · exact (hother l _ q hp).trans ((hone q).trans (if_pos rfl))
    · have hne : q ≠ p := fun h => hp (h ▸ hmem)
      refine (ih hl (noticeSent code n pay b p) q hmem).trans ?_
      rw [hone q, if_neg hne]

theorem leafPorts_lt {b : Box} {p : Nat} (h : p ∈ b.leafPorts) : p < 2048 := List.mem_range.mp (List.mem_filter.mp h).1

theorem sendNotice_frame (b : Box) (code : Nat) (rs : List (Nat × Nat)) : noticeFrame b (b.sendNotice code rs) := by
  obtain ⟨⟨ps, st, id, heq⟩, -⟩ := noticesSent_shows code rs.length (rs.flatMap fun r => bytesBE 2 r.1 ++ bytesBE 2 r.2)
    (l := b.leafPorts) (allSlots_filter_nodup _) b
  have hsent : noticeFrame b (b.leafPorts.foldl (noticeSent code rs.length (rs.flatMap fun r => bytesBE 2 r.1 ++ bytesBE 2 r.2)) b) := by
    rw [heq]
    exact ⟨⟨_, _, _, _, _, _, _, _, _, _, rfl⟩, sameOn_of_regs rfl⟩
  rw [sendNotice_eq]
  dsimp only
  split
  · refine noticeFrame_trans hsent (foldl_rel noticeFrame_refl noticeFrame_trans _ (fun c t ht => ?_) _)
    obtain ⟨p, hp, rfl⟩ := List.mem_map.mp (List.mem_eraseDups.mp ht)
    have htent : p / 256 < 8 := by
      have := leafPorts_lt hp
      omega
    exact noticeFrame_of_logged (logged_of_onlyRegs (raiseInt_onlyRegs c _ _)) (raiseInt_tentBody c ((tentPage_lt htent (by decide)).trans (by decide)) 2)
  · exact hsent

theorem postSuspect_frame (b : Box) (kind port stream cepoch mepoch contrib chunk : Nat) :
    noticeFrame b (b.postSuspect kind port stream cepoch mepoch contrib chunk) := by
  have hpost (r : List Byte) (hr : r.length = 32) : sameOn (offBlocks [0xF]) b (b.post suspectQueue mgtPage 2 r) := by
    refine post_offBlocks b (by decide) (by decide) (by decide) (by decide) fun h hh a hlo hhi => ?_
    rw [wordsLE_length, hr] at hhi
    simp only [suspectQueue, MGT_SQ_at, MGT_SQ_HEAD_INDEX, List.mem_singleton] at hh hlo hhi ⊢
    omega
  unfold Box.postSuspect
  dsimp only
  refine noticeFrame_of_logged (logged_trans (logged_trans (post_logged _ _ _ _ _) (bmtNotify_logged _ _)) (logged_of_onlyRegs (raiseInt_onlyRegs _ _ _))) ?_
  refine sameOn_trans (sameOn_trans (fun a ha => hpost _ ?_ a ?_) (sameOn_of_regs (bmtNotify_regs _ _))) (raiseInt_tentBody _ (by decide) 0)
  · simp only [List.length_append, bytesLE_length, List.length_singleton]
  · refine ⟨by omega, ?_⟩
    rw [List.mem_singleton]
    omega

/-- Racks that are withdrawn touch no more than their notices and the report do. -/
theorem withdraw_frame (b : Box) (before after : List Nat) (port : Nat) : noticeFrame b (b.withdraw before after port) := by
  unfold Box.withdraw
  dsimp only
  split
  · exact noticeFrame_refl b
  · exact noticeFrame_trans (foldl_rel noticeFrame_refl noticeFrame_trans _ (fun c rs _ => sendNotice_frame c 0x21 rs) b) (postSuspect_frame _ _ _ _ _ _ _ _)

/-! ### A tent takes a switch -/

/-- The tent looks up in bank `n`, where only members whose port is up are live. -/
def bankTaken (b : Box) (t n : Nat) : Box :=
  let c := b.clearLive n fun p => !b.up p
  c.setTent t { c.tent t with bank := n }

/-- DRAINED falls where a frame is queued under the old bank. -/
def bankShown (b : Box) (t n : Nat) : Box :=
  if (bankTaken b t n).oldFrames = 0 then bankTaken b t n else (bankTaken b t n).put (FWD_EPOCH_STATUS_DRAINED 0) false

/-- The last tent has taken the switch: the new bank is the live one, and racks that are reached no more are withdrawn. -/
def bankSwitched (c : Box) (old n : Nat) : Box :=
  let d : Box := { ((c.wr (FWD_EPOCH_STATUS_LIVE 0) n).put (FWD_EPOCH_STATUS_PENDING 0) false) with fwdSw := none }
  let e := Box.withdraw { d with freeCtr := d.freeCtr + 1 } (d.reachable old) (d.reachable n) ((Config.freeBits d.freeCtr).toNat % 65536)
  (e.raiseInt (fwdPage 0) 0).fenceStatus

theorem fwdBankSwitch_eq {b : Box} {w : FwdSwitch} {t : Nat} (hsw : b.fwdSw = some w) (hdue : b.switchDue w t = true) (ht : t ∈ w.left) :
    let n := 1 - b.rd (FWD_EPOCH_STATUS_LIVE 0)
    b.fwdBankSwitch t = if w.left.filter (· ≠ t) = [] then bankSwitched (bankShown b t n) (b.rd (FWD_EPOCH_STATUS_LIVE 0)) n
      else { bankShown b t n with fwdSw := some { w with left := w.left.filter (· ≠ t), inst := w.inst <|> w.trig.map b.trigTime } } := by
  intro n
  obtain ⟨c, hc⟩ : ∃ c, bankShown b t n = c := ⟨_, rfl⟩
  rw [hc]
  unfold Box.fwdBankSwitch
  rw [hsw]
  refine (if_pos ⟨hdue, ht⟩).trans ?_
  extract_lets old new s1 x s1' s2 left
  have hshown : s2 = c := hc
  clear_value s2
  subst hshown
  rfl

/-- Words of ports, tables and tents are as before. -/
structure SwitchKeeps (b c : Box) : Prop where
  tabs : c.tabs = b.tabs
  tents : c.tents = b.tents
  words : sameOn (fun a => 0x1000000 ≤ a ∧ 0x8000 ≤ a % 0x10000) b c

theorem SwitchKeeps.trans {b c d : Box} (h : SwitchKeeps b c) (k : SwitchKeeps c d) : SwitchKeeps b d :=
  ⟨k.tabs.trans h.tabs, k.tents.trans h.tents, sameOn_trans h.words k.words⟩

theorem NoticeFrame.switchKeeps {b c : Box} (h : noticeFrame b c) : SwitchKeeps b c := by
  obtain ⟨⟨_, _, _, _, _, _, _, _, _, _, rfl⟩, hwords⟩ := h
  exact ⟨rfl, rfl, fun a ha => hwords a ⟨ha.1, by omega⟩⟩

theorem epochWrite_switchKeeps (b : Box) {f : Fld} (hf : f.addr = FWD_EPOCH_STATUS_at 0) (v : Nat) : SwitchKeeps b (b.wr f v) := by
  refine ⟨rfl, rfl, wr_sameOn b v fun h => ?_⟩
  have haddr : f.addr = 0x1020114 := hf
  omega

/-- What a bank shows of its members reads tables and the ports' words alone. -/
theorem liveUp_of_keeps {b c : Box} (h : SwitchKeeps b c) {n k m : Nat} (hb : b.memLive n k m = true → b.up (b.member n k m) = true)
    (hc : c.memLive n k m = true) : c.up (c.member n k m) = true := by
  have htab (a : Nat) : c.tab a = b.tab a := by rw [Box.tab, Box.tab, h.tabs]
  have hmember : c.member n k m = b.member n k m := by rw [Box.member, Box.member, htab]
  have hlive : c.memLive n k m = b.memLive n k m := by
    unfold Box.memLive Box.nmem
    rw [htab]
  have hup (p : Nat) (hp : p < 2048) : c.up p = b.up p := by
    refine is_of_sameOn h.words ?_
    show 0x1000000 ≤ LNK_PORT_STATUS_at p ∧ 0x8000 ≤ LNK_PORT_STATUS_at p % 0x10000
    unfold LNK_PORT_STATUS_at
    omega
  rw [hmember, hup _ (wordField_lt _ _ _)]
  exact hb (hlive ▸ hc)

theorem bankShown_shows (b : Box) (t n : Nat) : ((bankShown b t n).tent t).bank = n
    ∧ ∀ k m, k < 2048 → (bankShown b t n).memLive n k m = true → (bankShown b t n).up ((bankShown b t n).member n k m) = true := by
  obtain ⟨⟨tabs, hframe⟩, hlive⟩ := clearLive_shows b n fun p => !b.up p
  have hregs : (b.clearLive n fun p => !b.up p).regs = b.regs := by rw [hframe]
  have hbank : ((bankTaken b t n).tent t).bank = n := congrArg Tent.bank (tent_setTent_same _ t _)
  have htaken (k m : Nat) (hk : k < 2048) (h : (bankTaken b t n).memLive n k m = true) : (bankTaken b t n).up ((bankTaken b t n).member n k m) = true := by
    have hoff := hlive k m hk h
    rw [Bool.not_eq_false'] at hoff
    exact (is_of_regs (s := b) (t := bankTaken b t n) hregs _).trans hoff
  unfold bankShown
  split
  · exact ⟨hbank, htaken⟩
  · have hkeep := epochWrite_switchKeeps (bankTaken b t n) (f := FWD_EPOCH_STATUS_DRAINED 0) rfl (b2n false)
    exact ⟨hbank, fun k m hk => liveUp_of_keeps hkeep (htaken k m hk)⟩

theorem epoch_body : FWD_EPOCH_STATUS_at 0 ∉ causeWords (fwdPage 0) := by decide

theorem bankSwitched_shows (c : Box) (old : Nat) {n : Nat} (hn : n < 2) : ∃ e, bankSwitched c old n = e ∧ SwitchKeeps c e ∧ e.fwdSw = none
    ∧ e.rd (FWD_EPOCH_STATUS_LIVE 0) = n ∧ e.is (FWD_EPOCH_STATUS_PENDING 0) = false ∧ e.is (pageFld (fwdPage 0) 16 0 1) = true := by
  let d0 := (c.wr (FWD_EPOCH_STATUS_LIVE 0) n).put (FWD_EPOCH_STATUS_PENDING 0) false
  let d : Box := { d0 with fwdSw := none, freeCtr := d0.freeCtr + 1 }
  have hlive : d.rd (FWD_EPOCH_STATUS_LIVE 0) = n := (rd_put_apart (f := FWD_EPOCH_STATUS_PENDING 0) _ false (by decide)).trans
    (rd_wr_lt c (f := FWD_EPOCH_STATUS_LIVE 0) (by decide) hn)
  have hpending : d.is (FWD_EPOCH_STATUS_PENDING 0) = false := is_put _ _ false (by decide) (by decide)
  have hwritten : SwitchKeeps c d0 := (epochWrite_switchKeeps c (f := FWD_EPOCH_STATUS_LIVE 0) rfl n).trans
    (epochWrite_switchKeeps _ (f := FWD_EPOCH_STATUS_PENDING 0) rfl (b2n false))
  have hdkeep : SwitchKeeps c d := ⟨hwritten.tabs, hwritten.tents, hwritten.words⟩
  obtain ⟨e, he⟩ : ∃ e, Box.withdraw d ({ d0 with fwdSw := none }.reachable old) ({ d0 with fwdSw := none }.reachable n)
      ((Config.freeBits d0.freeCtr).toNat % 65536) = e := ⟨_, rfl⟩
  have hframe := withdraw_frame d ({ d0 with fwdSw := none }.reachable old) ({ d0 with fwdSw := none }.reachable n)
    ((Config.freeBits d0.freeCtr).toNat % 65536)
  rw [he] at hframe
  have hend : bankSwitched c old n = (e.raiseInt (fwdPage 0) 0).fenceStatus := congrArg (fun x : Box => (x.raiseInt (fwdPage 0) 0).fenceStatus) he
  have hkeep := NoticeFrame.switchKeeps hframe
  obtain ⟨⟨_, _, _, _, _, _, _, _, _, _, hbox⟩, hwords⟩ := hframe
  have hcause := is_raiseInt_cause e (p := fwdPage 0) (by decide) (k := 0) (i := 0) (by decide)
  rw [decide_eq_true rfl, Bool.or_true] at hcause
  have hraise : SwitchKeeps e (e.raiseInt (fwdPage 0) 0) := NoticeFrame.switchKeeps
    (noticeFrame_of_logged (logged_of_onlyRegs (raiseInt_onlyRegs e _ _)) (raiseInt_tentBody e (by decide) 0))
  refine ⟨_, hend, hdkeep.trans (hkeep.trans (hraise.trans (epochWrite_switchKeeps _ (f := FWD_EPOCH_STATUS_FENCED 0) rfl _))), ?_, ?_, ?_, ?_⟩
  · obtain ⟨r, o, h⟩ := raiseInt_onlyRegs e (fwdPage 0) 0
    unfold Box.fenceStatus
    rw [h, hbox]
    rfl
  · refine (rd_put_apart (f := FWD_EPOCH_STATUS_FENCED 0) _ _ (by decide)).trans ((rd_raiseInt (f := FWD_EPOCH_STATUS_LIVE 0) e _ 0 epoch_body).trans ?_)
    exact (rd_of_sameOn hwords (f := FWD_EPOCH_STATUS_LIVE 0) ⟨by decide, by decide⟩).trans hlive
  · refine (is_put_apart (f := FWD_EPOCH_STATUS_FENCED 0) _ _ (by decide)).trans ((is_raiseInt (f := FWD_EPOCH_STATUS_PENDING 0) e _ 0 epoch_body).trans ?_)
    exact (is_of_sameOn hwords (f := FWD_EPOCH_STATUS_PENDING 0) ⟨by decide, by decide⟩).trans hpending
  · exact (is_put_apart (f := FWD_EPOCH_STATUS_FENCED 0) _ _ (by decide)).trans hcause

end Sys2Proof.Proofs
end

section
/-! # Settling O34: what FLUSH_OLD discards (R86, R366) -/

namespace Sys2Proof.Proofs

open Sys2Proof Sys2Proof.Machine Sys2Proof.Safety Sys2Proof.Laws

/-! ### What the discarding of a frame keeps -/

/-- What freeing a cell, counting and giving credit keep, the release of a frame's cells keeps. -/
theorem release_rel {R : Box → Box → Prop} (hrefl : ∀ b, R b b) (htrans : ∀ {b c d}, R b c → R c d → R b d) (hcount : ∀ b p i, R b (b.count p i)) (hcell : ∀ b t lo c, R b (b.freeCellFrom t lo c))
    (hcredit : ∀ b p v n, R b (b.giveCredit p v n)) (b : Box) (d : Desc) : R b (b.release d) := by
  have hcharge (c : Box) (h : R b c) : R b (match d.charge with
      | .landing p g v => if (c.port p).gen = g then c.giveCredit p v d.ncells else c
      | _ => c) := by
    split
    · split
      · exact htrans h (hcredit _ _ _ _)
      · exact h
    · exact h
  have hblock (k : Nat) : R b (b.freeBlockAt d.tent k d.cells) := by
    unfold Box.freeBlockAt
    split
    · exact foldl_rel hrefl htrans d.cells (fun c x _ => hcell c d.tent 0 x) b
    · exact hcount b _ _
  unfold Box.release
  dsimp only
  cases d.pool with
  | none => exact hcharge _ (foldl_rel hrefl htrans d.cells (fun c x _ => hcell c d.tent _ x) b)
  | some x => exact hcharge _ (hblock x.1)

/-- Queued and staged frames and results are as before. -/
structure FlushKeeps (b c : Box) : Prop where
  descs : c.descs = b.descs
  staging : c.staging = b.staging
  results : c.results = b.results

theorem FlushKeeps.refl (b : Box) : FlushKeeps b b := ⟨rfl, rfl, rfl⟩

theorem FlushKeeps.trans {b c d : Box} (h : FlushKeeps b c) (k : FlushKeeps c d) : FlushKeeps b d :=
  ⟨k.descs.trans h.descs, k.staging.trans h.staging, k.results.trans h.results⟩

theorem flushKeeps_of_logged {b c : Box} (h : logged b c) : FlushKeeps b c := by
  obtain ⟨_, _, _, _, _, _, _, rfl⟩ := h
  exact ⟨rfl, rfl, rfl⟩

theorem flushKeeps_of_onlyRegsCtrs {b c : Box} (h : onlyRegsCtrs b c) : FlushKeeps b c := flushKeeps_of_logged (logged_of_onlyRegsCtrs h)

theorem freeCellFrom_flushKeeps (b : Box) (t lo c : Nat) : FlushKeeps b (b.freeCellFrom t lo c) := by
  unfold Box.freeCellFrom
  dsimp only
  split
  · unfold Box.rowRepair
    dsimp only
    split
    · exact ⟨rfl, rfl, rfl⟩
    · exact ⟨rfl, rfl, rfl⟩
  · exact flushKeeps_of_onlyRegsCtrs (bump_onlyRegsCtrs b _ _ _)

theorem freeCells_flushKeeps (b : Box) (t : Nat) (cells : List Nat) : FlushKeeps b (b.freeCells t cells) :=
  foldl_rel FlushKeeps.refl FlushKeeps.trans cells (fun c x _ => freeCellFrom_flushKeeps c t _ x) b

theorem release_flushKeeps (b : Box) (d : Desc) : FlushKeeps b (b.release d) :=
  release_rel FlushKeeps.refl FlushKeeps.trans (fun b p i => flushKeeps_of_onlyRegsCtrs (bump_onlyRegsCtrs b p i 1)) freeCellFrom_flushKeeps
    (fun _ _ _ _ => ⟨rfl, rfl, rfl⟩) b d

theorem ringWrite_flushKeeps {b c : Box} {n base cap size : Nat} {head tail : Fld} {r : List Byte}
    (h : b.ringWrite n base cap size head tail r = some c) : FlushKeeps b c := by
  simp only [Box.ringWrite, Option.ite_none_left_eq_some] at h
  obtain ⟨-, h⟩ := h
  split at h
  · obtain ⟨-, h⟩ := Option.ite_none_right_eq_some.1 h
    cases h
    exact ⟨rfl, rfl, rfl⟩
  · cases h
    exact ⟨rfl, rfl, rfl⟩

theorem traceExit_flushKeeps (b : Box) (t : Nat) (tr : Option Trace) (out : Option Nat) (exit : Nat) (f : Frame) :
    FlushKeeps b (b.traceExit t tr out exit f) := by
  -- The ring stays opaque, or the kernel would run `ringWrite` to reduce the match on its answer.
  have hring : ∀ r u, b.traceRing t r = some u → FlushKeeps b u := fun _ _ h => ringWrite_flushKeeps h
  delta Box.traceExit
  obtain ⟨ring, e⟩ : ∃ g, g = b.traceRing t := ⟨_, rfl⟩
  rw [← e] at hring ⊢
  split
  · exact FlushKeeps.refl b
  · next x =>
    split
    · next u hu => exact hring _ u hu
    · split
      · refine FlushKeeps.trans (c := b.setSampler _ _) ⟨rfl, rfl, rfl⟩ (flushKeeps_of_onlyRegsCtrs
          (onlyRegsCtrs_trans (bump_onlyRegsCtrs _ _ _ _) (raiseInt_onlyRegs _ _ _).toCtrs))
      · exact flushKeeps_of_onlyRegsCtrs (raiseInt_onlyRegs b _ _).toCtrs

theorem loseCopy_flushKeeps (b : Box) (f : Frame) (k : ResKey) (port reason : Nat) : FlushKeeps b (b.loseCopy f k port reason) := by
  unfold Box.loseCopy
  split
  · unfold Box.postFlushed
    dsimp only
    split
    · exact flushKeeps_of_logged (logged_trans (post_logged _ _ _ _ _) (logged_of_onlyRegs (raiseInt_onlyRegs _ _ _)))
    · exact flushKeeps_of_logged (post_logged _ _ _ _ _)
  · exact FlushKeeps.refl b

theorem fwdCount_flushKeeps (b : Box) (k p : Nat) : FlushKeeps b (b.fwdCount k p) := flushKeeps_of_onlyRegsCtrs (countPort_onlyRegsCtrs _ _ _ _ _)

/-- A discarded frame is queued no more. -/
theorem dropDesc_flushed (b : Box) (d : Desc) (exit : Nat) : (b.dropDesc d exit).descs = b.descs.filter (fun e => e.id ≠ d.id)
    ∧ (b.dropDesc d exit).staging = b.staging ∧ (b.dropDesc d exit).results = b.results := by
  let c : Box := { b with descs := b.descs.filter fun e => e.id ≠ d.id }
  have hfreed : FlushKeeps c ((c.release d).unspill d) := (release_flushKeeps c d).trans ⟨rfl, rfl, rfl⟩
  obtain ⟨hdescs, hstaging, hresults⟩ := hfreed.trans (traceExit_flushKeeps _ d.tent d.trace (some d.egress) exit d.frame)
  exact ⟨hdescs, hstaging, hresults⟩

/-- The frames that are discarded, and only they and those of their numbers, are queued no more. -/
theorem discardWhere_gone {act : Box → Desc → Box} (hact : ∀ b d, FlushKeeps b (act b d)) (b : Box) (p : Desc → Bool) (exit : Nat) :
    ∀ d ∈ (b.discardWhere p exit act).descs, p d = false := by
  have hdrop (c : Box) (d : Desc) : (act (c.dropDesc d exit) d).descs = c.descs.filter fun e => e.id ≠ d.id :=
    (hact _ _).descs.trans (dropDesc_flushed c d exit).1
  intro d hd
  have hold : d ∈ b.descs := foldl_rel (R := fun c e : Box => ∀ x ∈ e.descs, x ∈ c.descs) (fun _ _ => id) (fun h k x hx => h x (k x hx))
    (b.descs.filter p) (fun c x _ y hy => (List.mem_filter.mp (hdrop c x ▸ hy)).1) b d hd
  by_contra hp
  have hlisted : d ∈ b.descs.filter p := List.mem_filter.mpr ⟨hold, Bool.eq_true_of_not_eq_false hp⟩
  refine absurd hd (foldl_establishes (I := fun _ => True) (P := fun c : Box => d ∉ c.descs) hlisted (fun _ _ _ _ => trivial) (fun c x _ hc => ?_)
    (fun c _ => ?_) b trivial)
  · rw [hdrop]
    exact fun h => hc (List.mem_filter.mp h).1
  · rw [hdrop]
    exact fun h => of_decide_eq_true (List.mem_filter.mp h).2 rfl

end Sys2Proof.Proofs
end

section
/-! # Settling O34 (R82 to R86, R462) -/

namespace Sys2Proof.Proofs

open Sys2Proof Sys2Proof.Machine Sys2Proof.Safety Sys2Proof.Laws

/-! ### FLUSH_OLD -/

theorem fenceStatus_onlyRegs (b : Box) : onlyRegs b b.fenceStatus := put_onlyRegs b _ _

theorem drainCheck_onlyRegs (b : Box) : onlyRegs b b.drainCheck := by
  unfold Box.drainCheck
  split
  · exact onlyRegs_trans (onlyRegs_trans (put_onlyRegs b _ _) (raiseInt_onlyRegs _ _ _)) (fenceStatus_onlyRegs _)
  · exact onlyRegs_refl b

/-- Copies that a lost result was due at are reported. -/
theorem loseResult_flushKeeps (b : Box) (r : ResRec) (ports : List Nat) (reason : Nat) : FlushKeeps b (b.loseResult r ports reason) :=
  foldl_rel FlushKeeps.refl FlushKeeps.trans ports (fun c p _ => loseCopy_flushKeeps c r.frame ⟨r.id, r.chunk, r.part⟩ p reason) b

/-- What the discarding of a staged frame leaves. -/
theorem stagedGone_flushKeeps (b : Box) (x : Staged) : FlushKeeps b (
    let b1 := (if x.arrived < x.total then b.release x.desc else b).traceExit x.heldIn x.desc.trace (some x.desc.egress) 4 x.desc.frame
    match x.desc.inPort with
    | some p => b1.fwdCount 5 p
    | none => match x.result with
      | some k => b1.loseCopy x.desc.frame k x.desc.egress 1
      | none => b1) := by
  have hfreed : FlushKeeps b (if x.arrived < x.total then b.release x.desc else b) := by
    split
    · exact release_flushKeeps b x.desc
    · exact FlushKeeps.refl b
  have htraced := hfreed.trans (traceExit_flushKeeps _ x.heldIn x.desc.trace (some x.desc.egress) 4 x.desc.frame)
  dsimp only
  cases x.desc.inPort with
  | some p => exact htraced.trans (fwdCount_flushKeeps _ _ _)
  | none =>
    cases x.result with
    | some k => exact htraced.trans (loseCopy_flushKeeps _ _ _ _ _)
    | none => exact htraced

/-- Fences fall; then spilling settles and the status words follow. -/
theorem flushEnd_shows (b : Box) : ∃ e, (((List.range 8).foldl (fun (c : Box) t => c.spillSettle t)
      { b with descs := b.descs.map fun d => { d with fence := false } }).fenceStatus).drainCheck = e
    ∧ e.staging = b.staging ∧ e.results = b.results ∧ ∀ d ∈ e.descs, d.fence = false ∧ ∃ d' ∈ b.descs, d'.tent = d.tent ∧ d'.bank = d.bank := by
  let c : Box := { b with descs := b.descs.map fun d => { d with fence := false } }
  have hsettle : spillOnly c ((List.range 8).foldl (fun b t => b.spillSettle t) c) :=
    foldl_rel spillOnly_refl spillOnly_trans _ (fun d t _ => spillSettle_spillOnly d t) c
  obtain ⟨r, o, hend⟩ := onlyRegs_trans (fenceStatus_onlyRegs ((List.range 8).foldl (fun b t => b.spillSettle t) c)) (drainCheck_onlyRegs _)
  obtain ⟨⟨r', o', ds, sps, hframe⟩, -, hmap⟩ := hsettle
  rw [hframe] at hmap
  refine ⟨_, hend, ?_, ?_, fun d hd => ?_⟩
  · rw [hframe]
  · rw [hframe]
  · have hin : d ∈ ds := by
      rw [hframe] at hd
      exact hd
    have hmem := List.mem_map_of_mem (f := fun d : Desc => { d with charge := .recall }) hin
    rw [hmap] at hmem
    obtain ⟨d1, hd1, heq⟩ := List.mem_map.mp hmem
    obtain ⟨d', hd', rfl⟩ := List.mem_map.mp hd1
    have htent := congrArg Desc.tent heq
    have hbank := congrArg Desc.bank heq
    exact ⟨(congrArg Desc.fence heq).symm, d', hd', htent, hbank⟩

theorem flushOld_shows {b : Box} (hleft : b.is (FWD_EPOCH_STATUS_DRAINED 0) = false) : ∃ e, b.fwdFlushOld = e
    ∧ (∀ d ∈ e.descs, d.fence = false ∧ b.oldBank d.tent d.bank = false) ∧ (∀ r ∈ e.results, b.oldBank r.tent r.bank = false)
    ∧ ∀ x ∈ e.allStaged, x.started = false → b.oldBank x.desc.tent x.desc.bank = false := by
  unfold Box.fwdFlushOld
  rw [if_neg (ne_true_of_eq_false hleft)]
  extract_lets s1 oldSt gone s2 s3 oldRes s4 s5
  have hqueued : ∀ d ∈ s1.descs, b.oldBank d.tent d.bank = false := discardWhere_gone (fun c d => by
    cases d.inPort with
    | some p => exact fwdCount_flushKeeps c 5 p
    | none => exact FlushKeeps.refl c) b (fun d => b.oldBank d.tent d.bank) 4
  have hstaged : ∀ x ∈ s2.allStaged, oldSt x = false := by
    intro x hx
    obtain ⟨e, he, hin⟩ := List.mem_flatMap.mp hx
    obtain ⟨e', -, rfl⟩ := List.mem_map.mp (List.mem_filter.mp he).1
    have hkept := (List.mem_filter.mp hin).2
    rwa [Bool.not_eq_true'] at hkept
  have h3 : FlushKeeps s2 s3 := foldl_rel FlushKeeps.refl FlushKeeps.trans gone (fun c x _ => stagedGone_flushKeeps c x) s2
  have h4 : FlushKeeps { s3 with results := s3.results.filter fun r => !b.oldBank r.tent r.bank } s4 :=
    foldl_rel FlushKeeps.refl FlushKeeps.trans oldRes (fun c r _ => (freeCells_flushKeeps c r.tent r.cells).trans (loseResult_flushKeeps _ r _ 1)) _
  obtain ⟨e, he, hstaging, hresults, hdescs⟩ := flushEnd_shows s4
  refine ⟨e, he, fun d hd => ?_, fun r hr => ?_, fun x hx hwait => ?_⟩
  · obtain ⟨hfence, d', hd', htent, hbank⟩ := hdescs d hd
    rw [h4.descs] at hd'
    have hold := hqueued d' (h3.descs ▸ hd' : d' ∈ s2.descs)
    rw [htent, hbank] at hold
    exact ⟨hfence, hold⟩
  · rw [hresults, h4.results] at hr
    have hkept := (List.mem_filter.mp hr).2
    rwa [Bool.not_eq_true'] at hkept
  · have hall : e.allStaged = s2.allStaged := congrArg (List.flatMap (fun e : Nat × List Staged => e.2)) (hstaging.trans (h4.staging.trans h3.staging))
    have hnot := hstaged x (hall ▸ hx)
    have hsplit : (b.oldBank x.desc.tent x.desc.bank && !x.started) = false := hnot
    rw [hwait, Bool.not_false, Bool.and_true] at hsplit
    exact hsplit

/-! ### The clauses of O34 -/

section
variable {s : State} {src : Requester}

theorem exec_fwdSwitch (atTrig : Bool) (trig : BitVec 5) (htakes : takesWrite s src (FWD_EPOCH_CTRL_at 0))
    (hidle : s.is (FWD_EPOCH_STATUS_PENDING 0) = false) (hdrained : s.is (FWD_EPOCH_STATUS_DRAINED 0) = true)
    (htable : s.is (FWD_TBL_STATUS_BUSY 0) = false) (hcopy : s.is (FWD_EPOCH_STATUS_COPY_BUSY 0) = false) :
    ∃ t, exec (.fwdSwitch src atTrig trig) s = .next t ∧ t.is (FWD_EPOCH_STATUS_PENDING 0) = true
      ∧ t = { s with regs := t.regs, fwdSw := some ⟨if atTrig then some trig.toNat else none, none, List.range 8⟩ }
      ∧ sameWords [FWD_EPOCH_CTRL_at 0, FWD_EPOCH_STATUS_at 0] s.toBox t.toBox := by
  obtain ⟨hrun, hreach, hready⟩ := htakes
  let c := (s.toBox.put (FWD_EPOCH_CTRL_SRC 0) atTrig).wr (FWD_EPOCH_CTRL_TRIG 0) trig.toNat
  have hctrl : sameWords [FWD_EPOCH_CTRL_at 0] s.toBox c :=
    sameWords_trans (wr_sameWords s.toBox (FWD_EPOCH_CTRL_SRC 0) _) (wr_sameWords _ (FWD_EPOCH_CTRL_TRIG 0) _)
  have his (f : Fld) (hf : f.addr ≠ FWD_EPOCH_CTRL_at 0) : c.is f = s.is f := is_of_sameWords hctrl fun h => hf (List.mem_singleton.mp h)
  have hcmd : c.fwdSwitch src atTrig trig.toNat = { (c.put (FWD_EPOCH_STATUS_PENDING 0) true) with
      fwdSw := some ⟨if atTrig then some trig.toNat else none, none, List.range 8⟩ } := by
    unfold Box.fwdSwitch
    rw [his _ (by decide), his _ (by decide), his _ (by decide), his _ (by decide)]
    exact if_neg (by rw [hidle, hdrained, htable, hcopy]; decide)
  have hwords := sameWords_append hctrl (wr_sameWords c (FWD_EPOCH_STATUS_PENDING 0) 1)
  have hset := is_put c (FWD_EPOCH_STATUS_PENDING 0) true (by decide) (by decide)
  obtain ⟨r, hframe⟩ : ∃ r, c.put (FWD_EPOCH_STATUS_PENDING 0) true = { s.toBox with regs := r } := ⟨_, rfl⟩
  change sameWords _ s.toBox (c.put (FWD_EPOCH_STATUS_PENDING 0) true) at hwords
  rw [hframe] at hcmd hwords hset
  exact ⟨_, next_onBox (f := fun b => ((b.put (FWD_EPOCH_CTRL_SRC 0) atTrig).wr (FWD_EPOCH_CTRL_TRIG 0) trig.toNat).fwdSwitch src atTrig trig.toNat)
    (actReg_run s _ _ src hrun hreach hready) hcmd, hset, rfl, hwords⟩

theorem exec_fwdFlushOld (htakes : takesWrite s src (FWD_EPOCH_CTRL_at 0)) (hleft : s.is (FWD_EPOCH_STATUS_DRAINED 0) = false) :
    ∃ t, exec (.fwdFlushOld src) s = .next t ∧ (∀ d ∈ t.descs, d.fence = false ∧ s.oldBank d.tent d.bank = false)
      ∧ (∀ r ∈ t.results, s.oldBank r.tent r.bank = false)
      ∧ (∀ x ∈ t.allStaged, x.started = false → s.oldBank x.desc.tent x.desc.bank = false) := by
  obtain ⟨hrun, hreach, hready⟩ := htakes
  obtain ⟨e, he, hqueued, hresults, hstaged⟩ := flushOld_shows hleft
  exact ⟨_, next_onBox (f := Box.fwdFlushOld) (actReg_run s _ _ src hrun hreach hready) he, hqueued, hresults, hstaged⟩

theorem exec_fwdNoticeGo (count : BitVec 15) (first : BitVec 14) (htakes : takesWrite s src (FWD_NOTICE_CTRL_at 0))
    (hidle : s.is (FWD_NOTICE_STATUS_BUSY 0) = false) (hcount : count ≠ 0) (hin : first.toNat + count.toNat ≤ 16384) :
    let rs := toRanges ((s.reachable (s.rd (FWD_EPOCH_STATUS_LIVE 0))).filter fun r => first.toNat ≤ r ∧ r < first.toNat + count.toNat)
    rs ≠ [] → ∃ t, exec (.fwdNoticeGo src count first) s = .next t ∧ t.is (FWD_NOTICE_STATUS_BUSY 0) = true
      ∧ t = { s with regs := t.regs, notices := chunksOf 1024 (rs.length + 1) rs }
      ∧ sameWords [FWD_NOTICE_CTRL_at 0, FWD_NOTICE_STATUS_at 0] s.toBox t.toBox := by
  intro rs hrs
  obtain ⟨hrun, hreach, hready⟩ := htakes
  let c := (s.toBox.wr (FWD_NOTICE_CTRL_COUNT 0) count.toNat).wr (FWD_NOTICE_CTRL_FIRST 0) first.toNat
  have hctrl : sameWords [FWD_NOTICE_CTRL_at 0] s.toBox c :=
    sameWords_trans (wr_sameWords s.toBox (FWD_NOTICE_CTRL_COUNT 0) _) (wr_sameWords _ (FWD_NOTICE_CTRL_FIRST 0) _)
  have hlive : c.rd (FWD_EPOCH_STATUS_LIVE 0) = s.rd (FWD_EPOCH_STATUS_LIVE 0) := rd_of_sameWords hctrl (by decide)
  have hbusy : c.is (FWD_NOTICE_STATUS_BUSY 0) = false := (is_of_sameWords hctrl (by decide)).trans hidle
  have hchunks : chunksOf 1024 (rs.length + 1) rs ≠ [] := by
    unfold chunksOf
    rw [if_neg hrs]
    exact List.cons_ne_nil _ _
  have hracks : c.reachable (s.rd (FWD_EPOCH_STATUS_LIVE 0)) = s.reachable (s.rd (FWD_EPOCH_STATUS_LIVE 0)) := rfl
  have hzero : count.toNat ≠ 0 := fun h => hcount (BitVec.eq_of_toNat_eq h)
  have hcmd : c.noticeGo src count.toNat first.toNat = { (c.put (FWD_NOTICE_STATUS_BUSY 0) true) with notices := chunksOf 1024 (rs.length + 1) rs } := by
    unfold Box.noticeGo
    rw [hbusy, beq_false_of_ne hzero, decide_eq_false (Nat.not_lt.mpr hin), hlive, hracks]
    exact (if_neg Bool.false_ne_true).trans (if_neg hchunks)
  have hwords := sameWords_append hctrl (wr_sameWords c (FWD_NOTICE_STATUS_BUSY 0) 1)
  have hset := is_put c (FWD_NOTICE_STATUS_BUSY 0) true (by decide) (by decide)
  obtain ⟨r, hframe⟩ : ∃ r, c.put (FWD_NOTICE_STATUS_BUSY 0) true = { s.toBox with regs := r } := ⟨_, rfl⟩
  change sameWords _ s.toBox (c.put (FWD_NOTICE_STATUS_BUSY 0) true) at hwords
  rw [hframe] at hcmd hwords hset
  exact ⟨_, next_onBox (f := fun b => ((b.wr (FWD_NOTICE_CTRL_COUNT 0) count.toNat).wr (FWD_NOTICE_CTRL_FIRST 0) first.toNat).noticeGo src
      count.toNat first.toNat) (actReg_run s _ _ src hrun hreach hready) hcmd, hset, rfl, hwords⟩

end

section
variable {s : State} (hrun : s.phase = .run)
include hrun

theorem exec_fwdBankSwitch (t : TentIx) (w : FwdSwitch) (hsw : s.fwdSw = some w) (hdue : s.switchDue w t.toNat = true) (ht : t.toNat ∈ w.left) :
    let new := 1 - s.rd (FWD_EPOCH_STATUS_LIVE 0)
    ∃ u, exec (.fwdBankSwitch t) s = .next u ∧ (u.tent t.toNat).bank = new
      ∧ (∀ k m, k < 2048 → m < u.nmem new k → u.memLive new k m = true → u.up (u.member new k m) = true)
      ∧ (w.left.filter (· ≠ t.toNat) ≠ [] → u.fwdSw = some { w with
          left := w.left.filter (· ≠ t.toNat), inst := w.inst <|> w.trig.map s.trigTime })
      ∧ (w.left.filter (· ≠ t.toNat) = [] → u.fwdSw = none ∧ u.rd (FWD_EPOCH_STATUS_LIVE 0) = new
          ∧ u.is (FWD_EPOCH_STATUS_PENDING 0) = false ∧ u.is (pageFld (fwdPage 0) 16 0 1) = true) := by
  intro n
  have hcmd := fwdBankSwitch_eq hsw hdue ht
  obtain ⟨hbank, hlive⟩ := bankShown_shows s.toBox t.toNat n
  by_cases hlast : w.left.filter (· ≠ t.toNat) = []
  · obtain ⟨e, he, hkeep, hsw', hnew, hpending, hcause⟩ := bankSwitched_shows (bankShown s.toBox t.toNat n) (s.rd (FWD_EPOCH_STATUS_LIVE 0))
      (n := n) (by omega)
    have hend : (e.tent t.toNat).bank = n := by
      rw [Box.tent, hkeep.tents]
      exact hbank
    exact ⟨_, next_onBox (f := fun b => b.fwdBankSwitch t.toNat) (actRun_run s _ hrun) (hcmd.trans ((if_pos hlast).trans he)), hend,
      fun k m hk _ => liveUp_of_keeps hkeep (hlive k m hk), fun h => absurd hlast h, fun _ => ⟨hsw', hnew, hpending, hcause⟩⟩
  · obtain ⟨e, he⟩ : ∃ e, bankShown s.toBox t.toNat n = e := ⟨_, rfl⟩
    have hnext := hcmd.trans (if_neg hlast)
    change s.toBox.fwdBankSwitch t.toNat = { bankShown s.toBox t.toNat n with
      fwdSw := some { w with left := w.left.filter (· ≠ t.toNat), inst := w.inst <|> w.trig.map s.trigTime } } at hnext
    rw [he] at hnext hbank hlive
    exact ⟨_, next_onBox (f := fun b => b.fwdBankSwitch t.toNat) (actRun_run s _ hrun) hnext, hbank, fun k m hk _ => hlive k m hk,
      fun _ => rfl, fun h => absurd h hlast⟩

theorem exec_fwdDrained (hleft : s.is (FWD_EPOCH_STATUS_DRAINED 0) = false) (hsw : s.fwdSw = none) (hold : s.oldFrames = 0) :
    ∃ t, exec .fwdDrained s = .next t ∧ t.is (FWD_EPOCH_STATUS_DRAINED 0) = true
      ∧ t.is (pageFld (fwdPage 0) 16 1 1) = true ∧ t = { s with regs := t.regs, outbox := t.outbox } := by
  let c := (s.toBox.put (FWD_EPOCH_STATUS_DRAINED 0) true).raiseInt (fwdPage 0) 1
  have hcmd : s.toBox.drainCheck = c.fenceStatus := if_pos ⟨hleft, hsw, hold⟩
  have hset : c.is (FWD_EPOCH_STATUS_DRAINED 0) = true :=
    (is_raiseInt (f := FWD_EPOCH_STATUS_DRAINED 0) _ _ 1 epoch_body).trans (is_put s.toBox _ true (by decide) (by decide))
  have hcause := is_raiseInt_cause (s.toBox.put (FWD_EPOCH_STATUS_DRAINED 0) true) (p := fwdPage 0) (by decide) (k := 1) (i := 1) (by decide)
  rw [decide_eq_true rfl, Bool.or_true] at hcause
  have hdrained := (is_put_apart (f := FWD_EPOCH_STATUS_FENCED 0) c (c.descs.any fun d => d.fence) (by decide)).trans hset
  have hshown := (is_put_apart (f := FWD_EPOCH_STATUS_FENCED 0) c (c.descs.any fun d => d.fence) (by decide)).trans hcause
  obtain ⟨r, o, hframe⟩ := onlyRegs_trans (onlyRegs_trans (put_onlyRegs s.toBox (FWD_EPOCH_STATUS_DRAINED 0) true)
    (raiseInt_onlyRegs _ (fwdPage 0) 1)) (fenceStatus_onlyRegs c)
  change c.fenceStatus.is (FWD_EPOCH_STATUS_DRAINED 0) = true at hdrained
  change c.fenceStatus.is (pageFld (fwdPage 0) 16 1 1) = true at hshown
  rw [hframe] at hcmd hdrained hshown
  exact ⟨_, next_onBox (f := Box.drainCheck) (actRun_run s _ hrun) hcmd, hdrained, hshown, rfl⟩

theorem exec_fwdNoticeSend {n : List (Nat × Nat)} {ns : List (List (Nat × Nat))} (hqueue : s.notices = n :: ns)
    (hbusy : s.is (FWD_NOTICE_STATUS_BUSY 0) = true) : ∃ t, exec .fwdNoticeSend s = .next t ∧ t.notices = ns
      ∧ t.is (FWD_NOTICE_STATUS_BUSY 0) = !ns.isEmpty ∧ ∀ p ∈ s.leafPorts, (t.port p).nseq = ((s.port p).nseq + 1) % 65536 := by
  obtain ⟨⟨ps, st, id, hframe⟩, hseq⟩ := noticesSent_shows 0x22 n.length (n.flatMap fun r => bytesBE 2 r.1 ++ bytesBE 2 r.2)
    (l := s.leafPorts) (allSlots_filter_nodup _) s.toBox
  have hsend : s.toBox.sendNotice 0x22 n = { s.toBox with ports := ps, staging := st, descId := id } :=
    (sendNotice_eq s.toBox 0x22 n).trans ((if_neg (by decide)).trans hframe)
  rw [hframe] at hseq
  let c : Box := { s.toBox with ports := ps, staging := st, descId := id, notices := ns }
  have hcmd : s.toBox.noticeSend = if ns = [] then c.put (FWD_NOTICE_STATUS_BUSY 0) false else c := by
    unfold Box.noticeSend
    rw [hqueue]
    dsimp only
    rw [hsend]
  cases ns with
  | nil => exact ⟨_, next_onBox (f := Box.noticeSend) (actRun_run s _ hrun) (hcmd.trans (if_pos rfl)), rfl, is_put c _ false (by decide) (by decide), hseq⟩
  | cons m ns => exact ⟨_, next_onBox (f := Box.noticeSend) (actRun_run s _ hrun) (hcmd.trans (if_neg (List.cons_ne_nil m ns))), rfl, hbusy, hseq⟩

end

/-- Settles O34: a bank by the members that the clearing of LIVE bits leaves, a flush by the frames that it filters, notices by the ports
that send them. -/
theorem bankSwitchesDrainTheOldBank : Obligations.BankSwitchesDrainTheOldBank := by
  unfold Obligations.BankSwitchesDrainTheOldBank
  exact fun s src => ⟨exec_fwdSwitch, fun t w hrun => exec_fwdBankSwitch hrun t w, exec_fwdFlushOld, exec_fwdDrained, exec_fwdNoticeGo,
    fun n ns hrun => exec_fwdNoticeSend hrun⟩

end Sys2Proof.Proofs
end

section
/-! # Lasers that fade (10_optics.md R305 to R312) -/

namespace Sys2Proof.Proofs

open Sys2Proof Sys2Proof.Machine Sys2Proof.Safety Sys2Proof.Laws

/-! ### What the care of a laser leaves -/

/-- A word of Spotlight or Trapeze behind the interrupt words, but for the words of the laser groups. -/
abbrev lightWord (a : Nat) : Prop := a < 0x10000000 ∧ 0xA0100 ≤ a % 0x1000000 ∧ a % 0x1000000 < 0xB1000
  ∧ ¬ (0xA0200 ≤ a % 0x1000000 ∧ a % 0x1000000 < 0xA0300 ∧ a % 32 = 0x1C)

/-- The words of lasers, of taps and of the engine's status, and all but ports and laser groups, are as before. -/
structure LightKeeps (b c : Box) : Prop where
  frame : ∃ r o p g, c = { b with regs := r, outbox := o, ports := p, lgroups := g }
  words : sameOn lightWord b c
  out : emits b c

theorem LightKeeps.refl (b : Box) : LightKeeps b b := ⟨⟨_, _, _, _, rfl⟩, sameOn_refl _ b, emits_of_eq rfl⟩

theorem LightKeeps.trans {b c d : Box} (h : LightKeeps b c) (k : LightKeeps c d) : LightKeeps b d := by
  obtain ⟨⟨_, _, _, _, rfl⟩, hwords, hout⟩ := h
  obtain ⟨⟨_, _, _, _, rfl⟩, kwords, kout⟩ := k
  exact ⟨⟨_, _, _, _, rfl⟩, sameOn_trans hwords kwords, emits_trans hout kout⟩

theorem groupWord_light (e : Nat) {q : Nat} (hq : q < 4) : ¬ lightWord (SPT_LSR_GROUP_at (e / 2) (groupIx e q)) := by
  unfold SPT_LSR_GROUP_at groupIx lightWord
  omega

theorem wr_lightKeeps (b : Box) {f : Fld} (hf : ¬ lightWord f.addr) (v : Nat) : LightKeeps b (b.wr f v) :=
  ⟨⟨_, _, _, _, rfl⟩, wr_sameOn b v hf, emits_of_eq rfl⟩

theorem setLgroup_lightKeeps (b : Box) (e q : Nat) (x : LaserGroup) : LightKeeps b (b.setLgroup e q x) :=
  ⟨⟨_, _, _, _, rfl⟩, sameOn_of_regs rfl, emits_of_eq rfl⟩

theorem emit_lightKeeps (b : Box) (o : Out) : LightKeeps b (b.emit o) := ⟨⟨_, _, _, _, rfl⟩, sameOn_of_regs rfl, emit_emits b o⟩

theorem laserInt_lightKeeps (b : Box) {e : Nat} (he : e < 16) : LightKeeps b (b.laserInt e) := by
  have hwords : sameOn lightWord b (b.raiseInt (sptPage (e / 2)) 1) := by
    refine sameOn_of_sameWords (raiseInt_sameWords b _ _) ?_
    have hbase : pageBase (sptPage (e / 2)) = 0x1000000 * (e / 2 + 1) + 0x10000 * 0x0A := pageBase_tentPage (by omega) (by decide)
    have hvector := pageVector_lt (sptPage_lt he)
    simp only [causeWords, List.mem_cons, List.not_mem_nil, or_false, hbase, lightWord]
    rintro a (rfl | rfl) h <;> omega
  have hout := raiseInt_emits b (sptPage (e / 2)) 1
  obtain ⟨r, o, h⟩ := raiseInt_onlyRegs b (sptPage (e / 2)) 1
  unfold Box.laserInt
  rw [h] at hwords hout ⊢
  exact ⟨⟨_, _, _, _, rfl⟩, hwords, hout⟩

theorem sparesFree_lightKeeps (b : Box) (e : Nat) {q : Nat} (hq : q < 4) : LightKeeps b (b.sparesFree e q) :=
  wr_lightKeeps b (f := SPT_LSR_GROUP_SPARES_FREE (e / 2) (groupIx e q)) (groupWord_light e hq) _

theorem armSpare_lightKeeps (b : Box) {e q : Nat} (he : e < 16) (hq : q < 4) (k : Nat) : LightKeeps b (b.armSpare e q k) := by
  unfold Box.armSpare
  dsimp only
  split
  · exact LightKeeps.refl b
  · split
    · exact ((setLgroup_lightKeeps b e q _).trans (emit_lightKeeps _ _)).trans (emit_lightKeeps _ _)
    · exact (wr_lightKeeps b (f := SPT_LSR_GROUP_NOSPARE (e / 2) (groupIx e q)) (groupWord_light e hq) _).trans (laserInt_lightKeeps _ he)

theorem setLink_lightKeeps (b : Box) (p : Nat) (x : Port) : LightKeeps b (b.setLink p x) := by
  obtain ⟨-, -, hwords, r, heq⟩ := setLink_shows b p x
  have hkeep : sameOn lightWord b (b.setLink p x) := by
    refine sameOn_of_sameWords hwords fun a ha => ?_
    rw [List.mem_singleton.mp ha]
    unfold LNK_PORT_STATUS_at lightWord
    omega
  rw [heq] at hkeep ⊢
  exact ⟨⟨_, _, _, _, rfl⟩, hkeep, emits_of_eq rfl⟩

theorem moveLanes_lightKeeps (b : Box) (e q w : Nat) (force : Bool) : LightKeeps b (b.moveLanes e q w force) := by
  have hchange (c : Box) (p m : Nat) : LightKeeps c (c.laneChange p force m) := by
    unfold Box.laneChange
    dsimp only
    split
    · exact LightKeeps.refl c
    · exact setLink_lightKeeps c p _
  unfold Box.moveLanes
  exact foldl_rel LightKeeps.refl LightKeeps.trans _ (fun c f _ => foldl_rel LightKeeps.refl LightKeeps.trans _
    (fun d p _ => (hchange d p _).trans (setLgroup_lightKeeps _ e q _)) c) b

/-- A migration sets the laser's state, and leaves the light else as it is. -/
theorem migrate_shows (b : Box) {e q : Nat} (he : e < 16) (hq : q < 4) (k : Nat) (force : Bool) : ∃ c, LightKeeps b c
    ∧ LightKeeps (c.wr (laserState e q k) (if force then 4 else 3)) (b.migrate e q k force) := by
  let s1 := b.armSpare e q k
  let up (a : Arm) : Arm := if a.laser = k then { a with mig := true, forced := a.forced || force } else a
  let busy := s1.is (SPT_LSR_GROUP_SWAP_BUSY (e / 2) (groupIx e q)) || (s1.lgroup e q).arms.any fun a => a.laser == k
  let s2 := (s1.setLgroup e q { s1.lgroup e q with arms := (s1.lgroup e q).arms.map up }).put (SPT_LSR_GROUP_SWAP_BUSY (e / 2) (groupIx e q)) busy
  let s3 := s2.wr (laserState e q k) (if force then 4 else 3)
  have hmigrate : b.migrate e q k force = ((s3.moveLanes e q (b.laserRole e q k) force).sparesFree e q).laserInt e := rfl
  have hbefore : LightKeeps b s2 := ((armSpare_lightKeeps b he hq k).trans (setLgroup_lightKeeps s1 e q _)).trans
    (wr_lightKeeps _ (f := SPT_LSR_GROUP_SWAP_BUSY (e / 2) (groupIx e q)) (groupWord_light e hq) _)
  refine ⟨s2, hbefore, ?_⟩
  rw [hmigrate]
  exact ((moveLanes_lightKeeps s3 e q _ force).trans (sparesFree_lightKeeps _ e hq)).trans (laserInt_lightKeeps _ he)

/-! ### One laser at a time -/

/-- The configuration word of laser `n`, as 7 q + k. -/
def laserAt (e n : Nat) : Nat := SPT_LSR_CFG_at (e / 2) (laserIx e (n / 7) (n % 7))

theorem laserAt_light {e n : Nat} (he : e < 16) (hn : n < 28) : lightWord (laserAt e n) := by
  unfold laserAt SPT_LSR_CFG_at laserIx groupIx lightWord
  omega

theorem laserAt_inj (e : Nat) {m n : Nat} (h : laserAt e m = laserAt e n) : m = n := by
  unfold laserAt SPT_LSR_CFG_at laserIx groupIx at h
  omega

/-- The word of laser `n`'s power. -/
def powerAt (e n : Nat) : Nat := SPT_LSR_PWR_at (e / 2) (laserIx e (n / 7) (n % 7))

theorem powerAt_light {e n : Nat} (he : e < 16) (hn : n < 28) : lightWord (powerAt e n) := by
  unfold powerAt SPT_LSR_PWR_at laserIx groupIx lightWord
  omega

theorem powerAt_inj (e : Nat) {m n : Nat} (h : powerAt e m = powerAt e n) : m = n := by
  unfold powerAt SPT_LSR_PWR_at laserIx groupIx at h
  omega

theorem laserAt_ne_powerAt (e : Nat) {m n : Nat} (hm : m < 28) (hn : n < 28) : laserAt e m ≠ powerAt e n := by
  unfold laserAt powerAt SPT_LSR_CFG_at SPT_LSR_PWR_at laserIx groupIx
  omega

/-- Every round of a fold but one element's keeps something of that element: it comes between. -/
theorem foldl_turn {α β : Type} {R : β → β → Prop} (hrefl : ∀ b, R b b) (htrans : ∀ {b c d}, R b c → R c d → R b d) {f : β → α → β} {l : List α}
    (hl : l.Nodup) {x : α} (hx : x ∈ l) (hother : ∀ b, ∀ y ∈ l, y ≠ x → R b (f b y)) (b : β) : ∃ c, R b c ∧ R (f c x) (l.foldl f b) := by
  induction l generalizing b with
  | nil => exact nomatch hx
  | cons y l ih =>
    obtain ⟨hy, hl⟩ := List.nodup_cons.mp hl
    have hrest (d : β) (z : α) (hz : z ∈ l) (hne : z ≠ x) := hother d z (List.mem_cons_of_mem y hz) hne
    rcases List.mem_cons.mp hx with rfl | hmem
    · exact ⟨b, hrefl b, foldl_rel hrefl htrans l (fun d z hz => hrest d z hz fun h => hy (h ▸ hz)) _⟩
    · obtain ⟨c, hc, hend⟩ := ih hl hmem hrest (f b y)
      exact ⟨c, htrans (hother b y List.mem_cons_self fun h => hy (h ▸ hmem)) hc, hend⟩

end Sys2Proof.Proofs
end

section
/-! # An integration of an engine's monitors (10_optics.md R304, R306, R307, R329) -/

namespace Sys2Proof.Proofs

open Sys2Proof Sys2Proof.Machine Sys2Proof.Safety Sys2Proof.Laws

/-! ### Records of lasers -/

theorem laser_key (b : Box) (e n : Nat) : b.laser e (n / 7) (n % 7) = mapGet (fun _ => {}) b.lasers (28 * e + n) := by
  unfold Box.laser
  congr 1
  omega

theorem laser_setLaser_same (b : Box) (e n : Nat) (x : Laser) : (b.setLaser e (n / 7) (n % 7) x).laser e (n / 7) (n % 7) = x :=
  mapGet_mapSet_same ..

theorem laser_setLaser_other (b : Box) (e : Nat) {m n : Nat} (h : m ≠ n) (x : Laser) :
    (b.setLaser e (n / 7) (n % 7) x).laser e (m / 7) (m % 7) = b.laser e (m / 7) (m % 7) := by
  refine mapGet_mapSet_other _ _ _ ?_
  omega

theorem laser_of_lasers {b c : Box} (h : c.lasers = b.lasers) (e q k : Nat) : c.laser e q k = b.laser e q k := by
  rw [Box.laser, Box.laser, h]

/-! ### A laser's turn -/

/-- What the turn of laser `n` leaves: every other laser's record, and all words of the light but its own two. -/
structure TurnKeeps (e n : Nat) (b c : Box) : Prop where
  frame : ∃ r o p g l f, c = { b with regs := r, outbox := o, ports := p, lgroups := g, lasers := l, freeCtr := f }
  lasers : ∀ m, m ≠ n → c.laser e (m / 7) (m % 7) = b.laser e (m / 7) (m % 7)
  words : sameOn (fun a => lightWord a ∧ a ≠ laserAt e n ∧ a ≠ powerAt e n) b c

theorem TurnKeeps.refl (e n : Nat) (b : Box) : TurnKeeps e n b b := ⟨⟨_, _, _, _, _, _, rfl⟩, fun _ _ => rfl, sameOn_refl _ b⟩

theorem TurnKeeps.trans {e n : Nat} {b c d : Box} (h : TurnKeeps e n b c) (k : TurnKeeps e n c d) : TurnKeeps e n b d := by
  obtain ⟨⟨_, _, _, _, _, _, rfl⟩, hlasers, hwords⟩ := h
  obtain ⟨⟨_, _, _, _, _, _, rfl⟩, klasers, kwords⟩ := k
  exact ⟨⟨_, _, _, _, _, _, rfl⟩, fun m hm => (klasers m hm).trans (hlasers m hm), sameOn_trans hwords kwords⟩

theorem LightKeeps.turn {b c : Box} (h : LightKeeps b c) (e n : Nat) : TurnKeeps e n b c := by
  obtain ⟨⟨_, _, _, _, rfl⟩, hwords, -⟩ := h
  exact ⟨⟨_, _, _, _, _, _, rfl⟩, fun _ _ => rfl, fun a ha => hwords a ha.1⟩

theorem wr_turnKeeps (b : Box) (e n : Nat) {f : Fld} (hf : f.addr = laserAt e n ∨ f.addr = powerAt e n) (v : Nat) : TurnKeeps e n b (b.wr f v) :=
  ⟨⟨_, _, _, _, _, _, rfl⟩, fun _ _ => rfl, wr_sameOn b v fun h => hf.elim h.2.1 h.2.2⟩

theorem setLaser_turnKeeps (b : Box) (e n : Nat) (x : Laser) : TurnKeeps e n b (b.setLaser e (n / 7) (n % 7) x) :=
  ⟨⟨_, _, _, _, _, _, rfl⟩, fun _ hm => laser_setLaser_other b e hm x, sameOn_of_regs rfl⟩

/-- A laser's state is set while the light is kept before and after. -/
theorem stateSet_shows {e n : Nat} (he : e < 16) (hn : n < 28) {b c d : Box} {v : Nat} (hv : v < 8) (hb : LightKeeps b c)
    (hd : LightKeeps (c.wr (laserState e (n / 7) (n % 7)) v) d) :
    TurnKeeps e n b d ∧ d.laser e (n / 7) (n % 7) = b.laser e (n / 7) (n % 7) ∧ d.rd (laserState e (n / 7) (n % 7)) = v
      ∧ sameOn (fun a => a = powerAt e n) b d := by
  have hpower : sameOn (fun a => a = powerAt e n) c (c.wr (laserState e (n / 7) (n % 7)) v) :=
    wr_sameOn c v fun h : laserAt e n = powerAt e n => laserAt_ne_powerAt e hn hn h
  refine ⟨((hb.turn e n).trans (wr_turnKeeps c e n (.inl rfl) v)).trans (hd.turn e n), ?_, ?_, fun a ha => ?_⟩
  · obtain ⟨⟨_, _, _, _, rfl⟩, -⟩ := hb
    obtain ⟨⟨_, _, _, _, rfl⟩, -⟩ := hd
    rfl
  · exact (rd_of_sameOn hd.words (f := laserState e (n / 7) (n % 7)) (laserAt_light he hn)).trans
      (rd_wr_lt c (f := laserState e (n / 7) (n % 7)) (Nat.le_of_ble_eq_true rfl) hv)
  · have hlight : lightWord a := ha ▸ powerAt_light he hn
    exact (hd.words a hlight).trans ((hpower a ha).trans (hb.words a hlight))

/-- The counts of a laser's readings after one at `d` from NOM (R307). -/
def judgedCounts (x : Laser) (d : Int) : Laser :=
  { x with warn := if d ≤ -100 then x.warn + 1 else 0, clear := if -50 < d then x.clear + 1 else 0, mig := if d ≤ -200 then x.mig + 1 else 0 }

/-- The state of an active laser after a reading at `d` from NOM. -/
def judgedState (k : Nat) (d : Int) (y : Laser) (st : Nat) : Nat :=
  if d ≤ -300 ∧ st ≠ 4 then 4 else if 4 ≤ y.mig ∧ (st = 1 ∨ st = 7 ∨ st = 2) then 3
  else if 16 ≤ y.warn ∧ (st = 1 ∨ st = 7) then 2
  else if 64 ≤ y.clear ∧ st = 2 then (if k < 5 then 1 else 7) else st

section
variable {e n : Nat} (he : e < 16) (hn : n < 28) (b : Box) (v nom : Int)

/-- What one reading does to an active laser. -/
theorem judgeLaser_eq : b.judgeLaser e (n / 7) (n % 7) v nom
    = let y := judgedCounts (b.laser e (n / 7) (n % 7)) (v - nom)
      let st := b.rd (laserState e (n / 7) (n % 7))
      let c := b.setLaser e (n / 7) (n % 7) y
      if v - nom ≤ -300 ∧ ((st == 1 || st == 7) = true ∨ st = 2 ∨ st = 3) then c.migrate e (n / 7) (n % 7) true
      else if 4 ≤ y.mig ∧ ((st == 1 || st == 7) = true ∨ st = 2) then c.migrate e (n / 7) (n % 7) false
      else if 16 ≤ y.warn ∧ (st == 1 || st == 7) = true then
        (((c.wr (laserState e (n / 7) (n % 7)) 2).armSpare e (n / 7) (n % 7)).sparesFree e (n / 7)).laserInt e
      else if 64 ≤ y.clear ∧ st = 2 then c.wr (laserState e (n / 7) (n % 7)) (if n % 7 < 5 then 1 else 7)
      else c := rfl

include he hn

theorem judgeLaser_shows (hst : (1 ≤ b.rd (laserState e (n / 7) (n % 7)) ∧ b.rd (laserState e (n / 7) (n % 7)) ≤ 4)
      ∨ b.rd (laserState e (n / 7) (n % 7)) = 7) : ∃ c, b.judgeLaser e (n / 7) (n % 7) v nom = c ∧ TurnKeeps e n b c
    ∧ c.laser e (n / 7) (n % 7) = judgedCounts (b.laser e (n / 7) (n % 7)) (v - nom)
    ∧ c.rd (laserState e (n / 7) (n % 7)) = judgedState (n % 7) (v - nom) (judgedCounts (b.laser e (n / 7) (n % 7)) (v - nom))
        (b.rd (laserState e (n / 7) (n % 7))) ∧ sameOn (fun a => a = powerAt e n) b c := by
  have hq : n / 7 < 4 := by omega
  rw [judgeLaser_eq]
  dsimp only
  generalize hy : judgedCounts (b.laser e (n / 7) (n % 7)) (v - nom) = y
  obtain ⟨c, hc⟩ : ∃ c, b.setLaser e (n / 7) (n % 7) y = c := ⟨_, rfl⟩
  have hturn : TurnKeeps e n b c := hc ▸ setLaser_turnKeeps b e n y
  have hlaser : c.laser e (n / 7) (n % 7) = y := hc ▸ laser_setLaser_same b e n y
  have hstate : c.rd (laserState e (n / 7) (n % 7)) = b.rd (laserState e (n / 7) (n % 7)) := hc ▸ rfl
  have hpower : sameOn (fun a => a = powerAt e n) b c := hc ▸ sameOn_of_regs rfl
  rw [hc]
  generalize b.rd (laserState e (n / 7) (n % 7)) = st at hst hstate
  have hset {d x : Box} {w : Nat} (hw : w < 8) (hx : LightKeeps c x) (hd : LightKeeps (x.wr (laserState e (n / 7) (n % 7)) w) d)
      (hw' : judgedState (n % 7) (v - nom) y st = w) : ∃ z, d = z ∧ TurnKeeps e n b z ∧ z.laser e (n / 7) (n % 7) = y
        ∧ z.rd (laserState e (n / 7) (n % 7)) = judgedState (n % 7) (v - nom) y st ∧ sameOn (fun a => a = powerAt e n) b z := by
    obtain ⟨hkeep, hsame, hrd, hpow⟩ := stateSet_shows he hn hw hx hd
    exact ⟨d, rfl, hturn.trans hkeep, hsame.trans hlaser, hrd.trans hw'.symm, sameOn_trans hpower hpow⟩
  have hnormal : (st == 1 || st == 7) = true ↔ st = 1 ∨ st = 7 := by simp
  simp only [hnormal]
  split
  · next h =>
    obtain ⟨x, hx, hend⟩ := migrate_shows c he hq (n % 7) true
    exact hset (by decide) hx hend (if_pos ⟨h.1, by omega⟩)
  · next h1 =>
    have hnot1 : ¬ (v - nom ≤ -300 ∧ st ≠ 4) := fun h => h1 ⟨h.1, by omega⟩
    split
    · next h =>
      obtain ⟨x, hx, hend⟩ := migrate_shows c he hq (n % 7) false
      exact hset (by decide) hx hend ((if_neg hnot1).trans (if_pos ⟨h.1, by omega⟩))
    · next h2 =>
      have hnot2 : ¬ (4 ≤ y.mig ∧ (st = 1 ∨ st = 7 ∨ st = 2)) := fun h => h2 ⟨h.1, by omega⟩
      have hlater : judgedState (n % 7) (v - nom) y st = _ := (if_neg hnot1).trans (if_neg hnot2)
      split
      · next h =>
        exact hset (by decide) (LightKeeps.refl c) (((armSpare_lightKeeps _ he hq _).trans (sparesFree_lightKeeps _ e hq)).trans
          (laserInt_lightKeeps _ he)) (hlater.trans (if_pos h))
      · next h3 =>
        split
        · next h => exact hset (by split <;> decide) (LightKeeps.refl c) (LightKeeps.refl _) (hlater.trans ((if_neg h3).trans (if_pos h)))
        · next h4 => exact ⟨c, rfl, hturn, hlaser, hstate.trans (hlater.trans ((if_neg h3).trans (if_neg h4))).symm, hpower⟩

end

theorem ofSigned_lt (w : Nat) (i : Int) : ofSigned w i < 2 ^ w := by
  have hpos : (0 : Int) < (2 ^ w : Nat) := by exact_mod_cast Nat.two_pow_pos w
  exact (Int.toNat_lt (Int.emod_nonneg i (Int.ne_of_gt hpos))).mpr (Int.emod_lt_of_pos i hpos)

/-- A laser is active: it serves a wavelength, or is a spare in role. -/
def laserActive (b : Box) (e n : Nat) : Bool :=
  decide (1 ≤ b.rd (laserState e (n / 7) (n % 7)) ∧ b.rd (laserState e (n / 7) (n % 7)) ≤ 4)
    || (b.rd (laserState e (n / 7) (n % 7)) == 7 && b.laserRole e (n / 7) (n % 7) != 7)

/-- The reading of laser `n` is taken. -/
def laserTurn (e boot : Nat) (r : MonReadings) (b : Box) (n : Nat) : Box :=
  match r.lasers[n]? with
  | none => b
  | some v =>
    let b1 := b.wr (SPT_LSR_PWR_PWR (e / 2) (laserIx e (n / 7) (n % 7))) (ofSigned 16 v)
    if laserActive b1 e n = false ∨ boot ≠ 0 then b1
    else match b1.nom e (n / 7) (n % 7) with
      | some nom => b1.judgeLaser e (n / 7) (n % 7) v nom
      | none => b1.firstNom e (n / 7) (n % 7) v

/-- The reading of tap `j` is taken. -/
def tapTurn (e : Nat) (r : MonReadings) (b : Box) (j : Nat) : Box :=
  match r.taps[j]? with
  | some v => b.wr (TRP_TAP_PWR (32 * e + j)) (ofSigned 16 v)
  | none => b

/-- Every reading is taken. -/
def readingsTaken (e : Nat) (r : MonReadings) (b : Box) : Box :=
  (List.range 32).foldl (tapTurn e r) ((List.range 28).foldl (laserTurn e (b.engine e).boot r) b)

theorem integrate_eq (b : Box) (e : Nat) (r : MonReadings) :
    b.integrate e r = (readingsTaken e r b).setEngine e { (readingsTaken e r b).engine e with monRun := false } := rfl

theorem firstNom_shows {e n : Nat} (hn : n < 28) (b : Box) (v : Int) :
    TurnKeeps e n b (b.firstNom e (n / 7) (n % 7) v) ∧ sameOn (fun a => a = powerAt e n) b (b.firstNom e (n / 7) (n % 7) v) := by
  have hfree : TurnKeeps e n b { b with freeCtr := b.freeCtr + 1 } := ⟨⟨_, _, _, _, _, _, rfl⟩, fun _ _ => rfl, sameOn_of_regs rfl⟩
  unfold Box.firstNom Box.takeFree
  dsimp only
  split
  · exact ⟨setLaser_turnKeeps b e n _, sameOn_of_regs rfl⟩
  · refine ⟨(hfree.trans (setLaser_turnKeeps _ e n _)).trans (wr_turnKeeps _ e n (f := SPT_LSR_CFG_NOM (e / 2) (laserIx e (n / 7) (n % 7))) (.inl rfl) _), ?_⟩
    refine sameOn_trans (t := Box.setLaser { b with freeCtr := b.freeCtr + 1 } e (n / 7) (n % 7) _) (sameOn_of_regs rfl) (wr_sameOn _ _ ?_)
    exact fun h : laserAt e n = powerAt e n => laserAt_ne_powerAt e hn hn h

theorem laserActive_state {e n : Nat} {b : Box} (h : laserActive b e n = true) : (1 ≤ b.rd (laserState e (n / 7) (n % 7)) ∧ b.rd (laserState e (n / 7) (n % 7)) ≤ 4)
    ∨ b.rd (laserState e (n / 7) (n % 7)) = 7 := by
  unfold laserActive at h
  simp only [Bool.or_eq_true, decide_eq_true_eq, Bool.and_eq_true, beq_iff_eq] at h
  exact h.imp id And.left

theorem powerWritten_keeps {e n : Nat} (hn : n < 28) (b : Box) (v : Int) : TurnKeeps e n b (b.wr (SPT_LSR_PWR_PWR (e / 2) (laserIx e (n / 7) (n % 7))) (ofSigned 16 v))
    ∧ sameOn (fun a => a = laserAt e n) b (b.wr (SPT_LSR_PWR_PWR (e / 2) (laserIx e (n / 7) (n % 7))) (ofSigned 16 v)) := by
  refine ⟨wr_turnKeeps b e n (.inr rfl) _, wr_sameOn b _ fun h => ?_⟩
  exact laserAt_ne_powerAt e hn hn (show powerAt e n = laserAt e n from h).symm

section
variable {e n : Nat} (he : e < 16) (hn : n < 28) (boot : Nat) (r : MonReadings) (b : Box)
include he hn

theorem laserTurn_keeps : TurnKeeps e n b (laserTurn e boot r b n) ∧ ∀ v, r.lasers[n]? = some v →
    (laserTurn e boot r b n).rd (SPT_LSR_PWR_PWR (e / 2) (laserIx e (n / 7) (n % 7))) = ofSigned 16 v := by
  unfold laserTurn
  cases hv : r.lasers[n]? with
  | none => exact ⟨TurnKeeps.refl e n b, fun v h => nomatch h⟩
  | some v =>
    obtain ⟨hpower, -⟩ := powerWritten_keeps (e := e) hn b v
    have hrd : (b.wr (SPT_LSR_PWR_PWR (e / 2) (laserIx e (n / 7) (n % 7))) (ofSigned 16 v)).rd (SPT_LSR_PWR_PWR (e / 2) (laserIx e (n / 7) (n % 7)))
        = ofSigned 16 v := rd_wr_lt b (Nat.le_of_ble_eq_true rfl) (ofSigned_lt 16 v)
    dsimp only
    generalize b.wr (SPT_LSR_PWR_PWR (e / 2) (laserIx e (n / 7) (n % 7))) (ofSigned 16 v) = b1 at hpower hrd
    have hend {c : Box} (hturn : TurnKeeps e n b1 c) (hp : sameOn (fun a => a = powerAt e n) b1 c) : TurnKeeps e n b c ∧ ∀ w, some v = some w →
        c.rd (SPT_LSR_PWR_PWR (e / 2) (laserIx e (n / 7) (n % 7))) = ofSigned 16 w :=
      ⟨hpower.trans hturn, fun w hw => Option.some.inj hw ▸ (rd_of_sameOn hp rfl).trans hrd⟩
    split
    · exact hend (TurnKeeps.refl e n b1) (sameOn_refl _ b1)
    · next hact =>
      have hon : laserActive b1 e n = true := Bool.eq_true_of_not_eq_false fun h => hact (.inl h)
      cases b1.nom e (n / 7) (n % 7) with
      | none =>
        obtain ⟨hturn, hp⟩ := firstNom_shows (e := e) hn b1 v
        exact hend hturn hp
      | some nom =>
        obtain ⟨c, hc, hturn, -, -, hp⟩ := judgeLaser_shows he hn b1 v nom (laserActive_state hon)
        dsimp only
        rw [hc]
        exact hend hturn hp

/-- The reading of an active laser of a lit engine is judged against NOM. -/
theorem laserTurn_judged {v nom : Int} (hv : r.lasers[n]? = some v) (hact : laserActive b e n = true) (hnom : b.nom e (n / 7) (n % 7) = some nom) :
    (laserTurn e 0 r b n).laser e (n / 7) (n % 7) = judgedCounts (b.laser e (n / 7) (n % 7)) (v - nom)
      ∧ (laserTurn e 0 r b n).rd (laserState e (n / 7) (n % 7)) = judgedState (n % 7) (v - nom)
          (judgedCounts (b.laser e (n / 7) (n % 7)) (v - nom)) (b.rd (laserState e (n / 7) (n % 7))) := by
  obtain ⟨-, hown⟩ := powerWritten_keeps (e := e) hn b v
  let b1 := b.wr (SPT_LSR_PWR_PWR (e / 2) (laserIx e (n / 7) (n % 7))) (ofSigned 16 v)
  have hstate : b1.rd (laserState e (n / 7) (n % 7)) = b.rd (laserState e (n / 7) (n % 7)) := rd_of_sameOn hown rfl
  have hrole : b1.laserRole e (n / 7) (n % 7) = b.laserRole e (n / 7) (n % 7) :=
    rd_of_sameOn hown (f := SPT_LSR_CFG_ROLE (e / 2) (laserIx e (n / 7) (n % 7))) rfl
  have hnom1 : b1.nom e (n / 7) (n % 7) = some nom := by
    have hword : b1.rd (SPT_LSR_CFG_NOM (e / 2) (laserIx e (n / 7) (n % 7))) = b.rd (SPT_LSR_CFG_NOM (e / 2) (laserIx e (n / 7) (n % 7))) :=
      rd_of_sameOn hown rfl
    rw [← hnom, Box.nom, Box.nom, hword]
  have hact1 : laserActive b1 e n = true := by
    unfold laserActive at hact ⊢
    rw [hstate, hrole]
    exact hact
  have hturn : laserTurn e 0 r b n = b1.judgeLaser e (n / 7) (n % 7) v nom := by
    unfold laserTurn
    rw [hv]
    refine (if_neg ?_).trans ?_
    · exact fun h => h.elim (fun h => Bool.false_ne_true (h.symm.trans hact1)) fun h => h rfl
    · rw [hnom1]
  obtain ⟨c, hc, -, hlaser, hrd, -⟩ := judgeLaser_shows he hn b1 v nom (laserActive_state hact1)
  rw [hturn, hc, hlaser, hrd, hstate]
  exact ⟨rfl, rfl⟩

end

/-! ### All readings -/

/-- What the readings of an engine leave: all words of the light but lasers', powers' and taps'. -/
structure ReadingsKeep (e : Nat) (b c : Box) : Prop where
  frame : ∃ r o p g l f, c = { b with regs := r, outbox := o, ports := p, lgroups := g, lasers := l, freeCtr := f }
  words : sameOn (fun a => lightWord a ∧ a % 0x1000000 < 0xA0200) b c

theorem ReadingsKeep.refl (e : Nat) (b : Box) : ReadingsKeep e b b := ⟨⟨_, _, _, _, _, _, rfl⟩, sameOn_refl _ b⟩

theorem ReadingsKeep.trans {e : Nat} {b c d : Box} (h : ReadingsKeep e b c) (k : ReadingsKeep e c d) : ReadingsKeep e b d := by
  obtain ⟨⟨_, _, _, _, _, _, rfl⟩, hwords⟩ := h
  obtain ⟨⟨_, _, _, _, _, _, rfl⟩, kwords⟩ := k
  exact ⟨⟨_, _, _, _, _, _, rfl⟩, sameOn_trans hwords kwords⟩

theorem TurnKeeps.readings {e n : Nat} (hn : n < 28) {b c : Box} (h : TurnKeeps e n b c) : ReadingsKeep e b c := by
  obtain ⟨hframe, -, hwords⟩ := h
  refine ⟨hframe, fun a ha => hwords a ⟨ha.1, ?_, ?_⟩⟩
  · rintro rfl
    obtain ⟨-, hlow⟩ := ha
    unfold laserAt SPT_LSR_CFG_at laserIx groupIx at hlow
    omega
  · rintro rfl
    obtain ⟨-, hlow⟩ := ha
    unfold powerAt SPT_LSR_PWR_at laserIx groupIx at hlow
    omega

theorem tapWord (e : Nat) {j : Nat} (hj : j < 32) : TRP_TAP_at (32 * e + j) = 0x1000000 * (e / 2 + 1) + 0xB0300 + 4 * (32 * (e % 2) + j) := by
  unfold TRP_TAP_at
  omega

/-- A tap's reading changes its own word alone. -/
theorem tapTurn_words (e : Nat) (r : MonReadings) (b : Box) (j : Nat) : (∃ g, tapTurn e r b j = { b with regs := g })
    ∧ sameWords [TRP_TAP_at (32 * e + j)] b (tapTurn e r b j)
    ∧ ∀ v, r.taps[j]? = some v → (tapTurn e r b j).rd (TRP_TAP_PWR (32 * e + j)) = ofSigned 16 v := by
  unfold tapTurn
  cases r.taps[j]? with
  | none => exact ⟨⟨_, rfl⟩, sameWords_refl _ b, fun v h => nomatch h⟩
  | some v => exact ⟨⟨_, rfl⟩, wr_sameWords b (TRP_TAP_PWR (32 * e + j)) _, fun w hw => Option.some.inj hw ▸
      rd_wr_lt b (f := TRP_TAP_PWR (32 * e + j)) (Nat.le_of_ble_eq_true rfl) (ofSigned_lt 16 v)⟩

/-- The taps' readings change their words alone. -/
theorem tapsTaken_shows (e : Nat) (r : MonReadings) (b : Box) : (∃ g, (List.range 32).foldl (tapTurn e r) b = { b with regs := g })
    ∧ sameOn (fun a => a % 0x1000000 < 0xB0300) b ((List.range 32).foldl (tapTurn e r) b)
    ∧ ∀ j v, j < 32 → r.taps[j]? = some v → ((List.range 32).foldl (tapTurn e r) b).rd (TRP_TAP_PWR (32 * e + j)) = ofSigned 16 v := by
  refine ⟨?_, ?_, fun j v hj hv => ?_⟩
  · refine foldl_rel (R := fun c d : Box => ∃ g, d = { c with regs := g }) (fun c => ⟨c.regs, rfl⟩) ?_ _ (fun c j _ => (tapTurn_words e r c j).1) b
    rintro _ _ _ ⟨_, rfl⟩ ⟨g, rfl⟩
    exact ⟨g, rfl⟩
  · refine foldl_sameOn _ (fun c j hj => sameOn_of_sameWords (tapTurn_words e r c j).2.1 fun a ha hlow => ?_) b
    have hword := tapWord e (List.mem_range.mp hj)
    rw [List.mem_singleton.mp ha, hword] at hlow
    have := List.mem_range.mp hj
    omega
  · obtain ⟨c, -, hend⟩ := foldl_turn (R := sameOn fun a => a = TRP_TAP_at (32 * e + j)) (sameOn_refl _) sameOn_trans (f := tapTurn e r)
      List.nodup_range (List.mem_range.mpr hj) (fun c i hi hne => sameOn_of_sameWords (tapTurn_words e r c i).2.1 fun a ha heq => by
        have hi32 := List.mem_range.mp hi
        have hsame : TRP_TAP_at (32 * e + i) = TRP_TAP_at (32 * e + j) := (List.mem_singleton.mp ha).symm.trans heq
        rw [tapWord e hi32, tapWord e hj] at hsame
        omega) b
    exact (rd_of_sameOn hend rfl).trans ((tapTurn_words e r c j).2.2 v hv)

/-- What concerns laser `i`: its record and its two words. -/
def laserSame (e i : Nat) (b c : Box) : Prop :=
  c.laser e (i / 7) (i % 7) = b.laser e (i / 7) (i % 7) ∧ sameOn (fun a => a = laserAt e i ∨ a = powerAt e i) b c

theorem TurnKeeps.laserSame {e i n : Nat} (he : e < 16) (hi : i < 28) (hn : n < 28) (h : i ≠ n) {b c : Box} (hturn : TurnKeeps e n b c) :
    laserSame e i b c := by
  refine ⟨hturn.lasers i h, fun a ha => hturn.words a ?_⟩
  rcases ha with rfl | rfl
  · exact ⟨laserAt_light he hi, fun heq => h (laserAt_inj e heq), laserAt_ne_powerAt e hi hn⟩
  · exact ⟨powerAt_light he hi, fun heq => laserAt_ne_powerAt e hn hi heq.symm, fun heq => h (powerAt_inj e heq)⟩

/-- The turn of laser `i` among the readings: what concerns it is as before up to its turn, and as left after it. -/
theorem readingsTaken_turn {e i : Nat} (he : e < 16) (hi : i < 28) (r : MonReadings) (b : Box) : ∃ c, laserSame e i b c
    ∧ laserSame e i (laserTurn e (b.engine e).boot r c i) (readingsTaken e r b) := by
  obtain ⟨c, hc, hend⟩ := foldl_turn (R := laserSame e i) (fun _ => ⟨rfl, sameOn_refl _ _⟩)
    (fun h k => ⟨k.1.trans h.1, sameOn_trans h.2 k.2⟩) (f := laserTurn e (b.engine e).boot r) List.nodup_range (List.mem_range.mpr hi)
    (fun d n hn hne => (laserTurn_keeps he (List.mem_range.mp hn) _ r d).1.laserSame he hi (List.mem_range.mp hn) (Ne.symm hne)) b
  obtain ⟨⟨g, hframe⟩, hwords, -⟩ := tapsTaken_shows e r ((List.range 28).foldl (laserTurn e (b.engine e).boot r) b)
  refine ⟨c, hc, Eq.trans ?_ hend.1, sameOn_trans hend.2 fun a ha => hwords a ?_⟩
  · unfold readingsTaken
    rw [hframe]
    rfl
  · rcases ha with rfl | rfl
    · unfold laserAt SPT_LSR_CFG_at laserIx groupIx
      omega
    · unfold powerAt SPT_LSR_PWR_at laserIx groupIx
      omega

theorem readingsTaken_keep {e : Nat} (he : e < 16) (r : MonReadings) (b : Box) : ReadingsKeep e b (readingsTaken e r b) := by
  have hlasers := foldl_rel (R := ReadingsKeep e) (ReadingsKeep.refl e) ReadingsKeep.trans (f := laserTurn e (b.engine e).boot r) (List.range 28)
    (fun c n hn => (laserTurn_keeps he (List.mem_range.mp hn) _ r c).1.readings (List.mem_range.mp hn)) b
  obtain ⟨⟨g, hframe⟩, hwords, -⟩ := tapsTaken_shows e r ((List.range 28).foldl (laserTurn e (b.engine e).boot r) b)
  refine hlasers.trans ⟨⟨_, _, _, _, _, _, hframe⟩, fun a ha => hwords a ?_⟩
  omega

/-- The readings of a dark engine are shown and no more. -/
theorem readingsTaken_dark {e : Nat} (r : MonReadings) {b : Box} (hdark : (b.engine e).boot ≠ 0) : ∃ g, readingsTaken e r b = { b with regs := g } := by
  have hlasers : ∃ g, (List.range 28).foldl (laserTurn e (b.engine e).boot r) b = { b with regs := g } := by
    refine foldl_rel (R := fun c d : Box => ∃ g, d = { c with regs := g }) (fun c => ⟨c.regs, rfl⟩) ?_ _ (fun c n _ => ?_) b
    · rintro _ _ _ ⟨_, rfl⟩ ⟨g, rfl⟩
      exact ⟨g, rfl⟩
    · unfold laserTurn
      cases r.lasers[n]? with
      | none => exact ⟨_, rfl⟩
      | some v =>
        dsimp only
        rw [if_pos (.inr hdark)]
        exact ⟨_, rfl⟩
  obtain ⟨g, hg⟩ := hlasers
  obtain ⟨⟨g', hframe⟩, -⟩ := tapsTaken_shows e r ((List.range 28).foldl (laserTurn e (b.engine e).boot r) b)
  refine ⟨g', hframe.trans ?_⟩
  rw [hg]

end Sys2Proof.Proofs
end

section
/-! # Monitors, spares, swaps and polls of an engine's lasers (10_optics.md R303 to R312, R318) -/

namespace Sys2Proof.Proofs

open Sys2Proof Sys2Proof.Machine Sys2Proof.Safety Sys2Proof.Laws

/-! ### Integrations -/

section
variable {s : State} (hrun : s.phase = .run) (e : EngIx) (rd : MonReadings)
include hrun

theorem exec_monitorIntegration (hgo : s.is (SPT_MON_CTRL_SRC e.toNat) = false ∨ (s.engine e.toNat).monRun = true ∨ (s.engine e.toNat).monFree = true) :
    ∃ t, exec (.monitorIntegration e rd) s = .next t ∧ (t.engine e.toNat).monRun = false
      ∧ (∀ i v, i < 28 → rd.lasers[i]? = some v → t.rd (SPT_LSR_PWR_PWR (e.toNat / 2) (laserIx e.toNat (i / 7) (i % 7))) = ofSigned 16 v)
      ∧ (∀ j v, j < 32 → rd.taps[j]? = some v → t.rd (TRP_TAP_PWR (32 * e.toNat + j)) = ofSigned 16 v)
      ∧ ((s.engine e.toNat).boot ≠ 0 → t = { s with regs := t.regs, engines := t.engines })
      ∧ ∀ i v nom, i < 28 → rd.lasers[i]? = some v → (s.engine e.toNat).boot = 0 → s.nom e.toNat (i / 7) (i % 7) = some nom →
          let st := s.rd (laserState e.toNat (i / 7) (i % 7))
          let x := s.laser e.toNat (i / 7) (i % 7)
          let y := t.laser e.toNat (i / 7) (i % 7)
          (1 ≤ st ∧ st ≤ 4) ∨ (st = 7 ∧ s.laserRole e.toNat (i / 7) (i % 7) ≠ 7) →
          y.warn = (if v - nom ≤ -100 then x.warn + 1 else 0) ∧ y.clear = (if -50 < v - nom then x.clear + 1 else 0)
            ∧ y.mig = (if v - nom ≤ -200 then x.mig + 1 else 0)
            ∧ t.rd (laserState e.toNat (i / 7) (i % 7)) =
              if v - nom ≤ -300 ∧ st ≠ 4 then 4 else if 4 ≤ y.mig ∧ (st = 1 ∨ st = 7 ∨ st = 2) then 3
              else if 16 ≤ y.warn ∧ (st = 1 ∨ st = 7) then 2
              else if 64 ≤ y.clear ∧ st = 2 then (if i % 7 < 5 then 1 else 7) else st := by
  have he : e.toNat < 16 := e.isLt
  have hpower : ∀ i v, i < 28 → rd.lasers[i]? = some v →
      (readingsTaken e.toNat rd s.toBox).rd (SPT_LSR_PWR_PWR (e.toNat / 2) (laserIx e.toNat (i / 7) (i % 7))) = ofSigned 16 v := by
    intro i v hi hv
    obtain ⟨c, -, -, hwords⟩ := readingsTaken_turn he hi rd s.toBox
    exact (rd_of_sameOn hwords (f := SPT_LSR_PWR_PWR (e.toNat / 2) (laserIx e.toNat (i / 7) (i % 7))) (.inr rfl)).trans
      ((laserTurn_keeps he hi _ rd c).2 v hv)
  have htaps := (tapsTaken_shows e.toNat rd ((List.range 28).foldl (laserTurn e.toNat (s.engine e.toNat).boot rd) s.toBox)).2.2
  have hdark := readingsTaken_dark rd (b := s.toBox) (e := e.toNat)
  have hjudged : ∀ i v nom, i < 28 → rd.lasers[i]? = some v → (s.engine e.toNat).boot = 0 → s.nom e.toNat (i / 7) (i % 7) = some nom →
      laserActive s.toBox e.toNat i = true →
      (readingsTaken e.toNat rd s.toBox).laser e.toNat (i / 7) (i % 7) = judgedCounts (s.laser e.toNat (i / 7) (i % 7)) (v - nom)
        ∧ (readingsTaken e.toNat rd s.toBox).rd (laserState e.toNat (i / 7) (i % 7)) = judgedState (i % 7) (v - nom)
          (judgedCounts (s.laser e.toNat (i / 7) (i % 7)) (v - nom)) (s.rd (laserState e.toNat (i / 7) (i % 7))) := by
    intro i v nom hi hv hboot hnom hact
    obtain ⟨c, ⟨hlaser, hwords⟩, hend, hendWords⟩ := readingsTaken_turn he hi rd s.toBox
    have hown {f : Fld} (hf : f.addr = laserAt e.toNat i) : c.rd f = s.rd f := rd_of_sameOn hwords (.inl hf)
    have hstate := hown (f := laserState e.toNat (i / 7) (i % 7)) rfl
    have hrole : c.laserRole e.toNat (i / 7) (i % 7) = s.laserRole e.toNat (i / 7) (i % 7) :=
      hown (f := SPT_LSR_CFG_ROLE (e.toNat / 2) (laserIx e.toNat (i / 7) (i % 7))) rfl
    have hnomc : c.nom e.toNat (i / 7) (i % 7) = some nom := by
      rw [← hnom, Box.nom, Box.nom, hown (f := SPT_LSR_CFG_NOM (e.toNat / 2) (laserIx e.toNat (i / 7) (i % 7))) rfl]
    have hactc : laserActive c e.toNat i = true := by
      unfold laserActive at hact ⊢
      rw [hstate, hrole]
      exact hact
    have hturn := laserTurn_judged he hi rd c hv hactc hnomc
    rw [show (s.toBox.engine e.toNat).boot = 0 from hboot] at hend hendWords
    rw [hlaser, hstate] at hturn
    exact ⟨hend.trans hturn.1, (rd_of_sameOn hendWords (f := laserState e.toNat (i / 7) (i % 7)) (.inl rfl)).trans hturn.2⟩
  change ∀ j v, j < 32 → rd.taps[j]? = some v → (readingsTaken e.toNat rd s.toBox).rd (TRP_TAP_PWR (32 * e.toNat + j)) = ofSigned 16 v at htaps
  have hcmd : (if s.is (SPT_MON_CTRL_SRC e.toNat) = false ∨ (s.engine e.toNat).monRun = true ∨ (s.engine e.toNat).monFree = true
      then s.toBox.integrate e.toNat rd else s.toBox) = (readingsTaken e.toNat rd s.toBox).setEngine e.toNat
        { (readingsTaken e.toNat rd s.toBox).engine e.toNat with monRun := false } := (if_pos hgo).trans (integrate_eq s.toBox e.toNat rd)
  obtain ⟨c, hc⟩ : ∃ c, readingsTaken e.toNat rd s.toBox = c := ⟨_, rfl⟩
  rw [hc] at hpower htaps hdark hjudged hcmd
  refine ⟨_, next_onBox (f := fun b => if b.is (SPT_MON_CTRL_SRC e.toNat) = false ∨ (b.engine e.toNat).monRun = true
      ∨ (b.engine e.toNat).monFree = true then b.integrate e.toNat rd else b) (actRun_run s _ hrun) hcmd,
    congrArg Engine.monRun (engine_setEngine c e.toNat _), hpower, htaps, fun hboot => ?_, fun i v nom hi hv hboot hnom => ?_⟩
  · obtain ⟨g, rfl⟩ := hdark hboot
    rfl
  · intro st x y hst
    have hact : laserActive s.toBox e.toNat i = true := by
      unfold laserActive
      simp only [Bool.or_eq_true, decide_eq_true_eq, Bool.and_eq_true, beq_iff_eq, bne_iff_ne]
      exact hst
    obtain ⟨hlaser, hstate⟩ := hjudged i v nom hi hv hboot hnom hact
    have hy : y = judgedCounts x (v - nom) := hlaser
    rw [hy]
    exact ⟨rfl, rfl, rfl, hstate⟩

theorem exec_monitorStarved (hsrc : s.is (SPT_MON_CTRL_SRC e.toNat) = true) (hfree : (s.engine e.toNat).monFree = false)
    (hlate : (s.engine e.toNat).monAt + 10 * monTicks (s.rd (SPT_MON_CTRL_INT e.toNat)) ≤ s.raw) :
    ∃ t, exec (.monitorStarved e rd) s = .next t ∧ t.is (SPT_HEAT_STATUS_STARVED e.toNat) = true
      ∧ (t.engine e.toNat).monFree = true ∧ (t.engine e.toNat).monRun = false := by
  have he : e.toNat < 16 := e.isLt
  let b := (s.toBox.setEngine e.toNat { s.engine e.toNat with monFree := true }).put (SPT_HEAT_STATUS_STARVED e.toNat) true
  have hcmd : s.toBox.monStarved e.toNat rd = b.integrate e.toNat rd := if_pos ⟨hsrc, hfree, hlate⟩
  have hshown : b.is (SPT_HEAT_STATUS_STARVED e.toNat) = true := is_put _ _ true (Nat.le_of_ble_eq_true rfl) Nat.one_pos
  have hengine : b.engine e.toNat = { s.engine e.toNat with monFree := true } := engine_setEngine s.toBox e.toNat _
  obtain ⟨⟨r, o, p, g, l, f, hframe⟩, hwords⟩ := readingsTaken_keep he rd b
  rw [integrate_eq] at hcmd
  obtain ⟨c, hc⟩ : ∃ c, readingsTaken e.toNat rd b = c := ⟨_, rfl⟩
  rw [hc] at hcmd hframe hwords
  have hword : lightWord (SPT_HEAT_STATUS_at e.toNat) ∧ SPT_HEAT_STATUS_at e.toNat % 0x1000000 < 0xA0200 := by
    unfold SPT_HEAT_STATUS_at lightWord
    omega
  have hend : c.is (SPT_HEAT_STATUS_STARVED e.toNat) = true := (is_of_sameOn hwords (f := SPT_HEAT_STATUS_STARVED e.toNat) hword).trans hshown
  have hkept : c.engine e.toNat = { s.engine e.toNat with monFree := true } := by
    rw [hframe]
    exact hengine
  have hlast := engine_setEngine c e.toNat { c.engine e.toNat with monRun := false }
  rw [hkept] at hlast hcmd
  exact ⟨_, next_onBox (f := fun b => b.monStarved e.toNat rd) (actRun_run s _ hrun) hcmd, hend, congrArg Engine.monFree hlast, congrArg Engine.monRun hlast⟩

end

/-! ### Groups of lasers -/

theorem lgroup_setLgroup (b : Box) (e q : Nat) (x : LaserGroup) : (b.setLgroup e q x).lgroup e q = x := mapGet_mapSet_same ..

theorem laserState_light {e q k : Nat} (he : e < 16) (hq : q < 4) (hk : k < 7) : lightWord (laserState e q k).addr := by
  show lightWord (SPT_LSR_CFG_at (e / 2) (laserIx e q k))
  unfold SPT_LSR_CFG_at laserIx groupIx lightWord
  omega

/-- A count at the page of an engine leaves the words of its lasers. -/
theorem sptCount_laser (b : Box) {e q k i : Nat} (he : e < 16) (hq : q < 4) (hk : k < 7) (hi : i < 4096) {f : Fld}
    (hf : f.addr = SPT_LSR_CFG_at (e / 2) (laserIx e q k)) : (b.count (sptPage (e / 2)) i).rd f = b.rd f := by
  refine rd_of_sameWords (bump_sameWords b _ i 1) ?_
  have hbase : pageBase (sptPage (e / 2)) = 0x1000000 * (e / 2 + 1) + 0x10000 * 0x0A := pageBase_tentPage (by omega) (by decide)
  have hvector := pageVector_lt (sptPage_lt he)
  simp only [causeWords, ovfFld, pageFld, List.mem_cons, List.not_mem_nil, or_false, hbase, hf, SPT_LSR_CFG_at, laserIx, groupIx]
  omega

/-- A lost laser input takes the engine out of READY (R318). -/
theorem inputLost_shows (b : Box) {e q : Nat} (he : e < 16) (hq : q < 4) : ∃ c, b.inputLost e q = c ∧ (c.engine e).elm = false
    ∧ c.is (engReady e) = false ∧ c.is (SPT_LSR_GROUP_INPUT_LOST (e / 2) (groupIx e q)) = true ∧ c.is (pageFld (sptPage (e / 2)) 16 1 1) = true
    ∧ Out.elmEn e false ∈ c.outbox ∧ ∃ r o g, c = { b with regs := r, outbox := o, engines := g } := by
  obtain ⟨x, hx, hxout, g0, o0, hxeq⟩ : ∃ x, ((b.setEngine e { b.engine e with elm := false, boot := 0 }).emit (.elmEn e false)).moduleMove e false = x
      ∧ Out.elmEn e false ∈ x.outbox ∧ ∃ g o, x = { b with outbox := o, engines := g } :=
    ⟨_, rfl, List.mem_cons_of_mem _ List.mem_cons_self, _, _, rfl⟩
  have hengine : (x.engine e).elm = false := hx ▸ congrArg Engine.elm (engine_setEngine b e _)
  obtain ⟨haddr, hwidth, hlo⟩ := engReady_addr e
  have hraddr : (engReady e).addr = 0x1000000 * (e / 2 + 1) + 0xA0104 := haddr
  have hbase : pageBase (sptPage (e / 2)) = 0x1000000 * (e / 2 + 1) + 0x10000 * 0x0A := pageBase_tentPage (by omega) (by decide)
  have hvector := pageVector_lt (sptPage_lt he)
  obtain ⟨f, hf, hfaddr, hfwidth, hflo⟩ : ∃ f : Fld, SPT_LSR_GROUP_INPUT_LOST (e / 2) (groupIx e q) = f
      ∧ f.addr = 0x1000000 * (e / 2 + 1) + 0xA021C + 32 * (4 * (e % 2) + q) ∧ f.width = 1 ∧ f.lo + f.width ≤ 32 :=
    ⟨_, rfl, rfl, rfl, Nat.le_of_ble_eq_true rfl⟩
  have hcmd : b.inputLost e q = ((x.put (engReady e) false).put f true).laserInt e := by
    rw [← hx, ← hf]
    rfl
  rw [hcmd, hf]
  have hbody {g : Fld} (hg : g.addr = f.addr ∨ g.addr = (engReady e).addr) : g.addr ∉ causeWords (sptPage (e / 2)) := by
    simp only [causeWords, List.mem_cons, List.not_mem_nil, or_false, hbase]
    omega
  obtain ⟨y, hy⟩ : ∃ y, (x.put (engReady e) false).put f true = y := ⟨_, rfl⟩
  have hready : y.is (engReady e) = false := hy ▸ (is_put_apart (f := f) _ true ⟨hflo, .inl (by omega)⟩).trans (is_put x _ false (by omega) (by omega))
  have hlost : y.is f = true := hy ▸ is_put _ f true hflo (by omega)
  have hyout : Out.elmEn e false ∈ y.outbox := hy ▸ hxout
  obtain ⟨g1, hyeq⟩ : ∃ r, y = { x with regs := r } := ⟨_, hy.symm⟩
  rw [hy]
  unfold Box.laserInt
  obtain ⟨o', hemit⟩ := raiseInt_emits y (sptPage (e / 2)) 1
  have hready' := (is_raiseInt y _ 1 (f := engReady e) (hbody (.inr rfl))).trans hready
  have hlost' := (is_raiseInt y _ 1 (f := f) (hbody (.inl rfl))).trans hlost
  have hcause : (y.raiseInt (sptPage (e / 2)) 1).is (pageFld (sptPage (e / 2)) 16 1 1) = true := by
    rw [is_raiseInt_cause y (sptPage_lt he) (by decide), decide_eq_true rfl, Bool.or_true]
  obtain ⟨r, o, hraise⟩ := raiseInt_onlyRegs y (sptPage (e / 2)) 1
  rw [hraise] at hemit hready' hlost' hcause ⊢
  refine ⟨_, rfl, ?_, hready', hlost', hcause, ?_, ?_⟩
  · rw [hyeq]
    exact hengine
  · rw [hemit]
    exact List.mem_append_right o' hyout
  · rw [hyeq, hxeq]
    exact ⟨_, _, _, rfl⟩

section
variable {s : State} (hrun : s.phase = .run) (e : EngIx) (q : BitVec 2)
include hrun

theorem exec_spareReady {a : Arm} (upper : Bool)
    (hfind : ((s.lgroup e.toNat q.toNat).arms.find? fun a => !a.ready && a.spare == if upper then 6 else 5) = some a) :
    ∃ t, exec (.spareReady e q upper) s = .next t ∧ t.rd (laserState e.toNat q.toNat a.spare) = 7
      ∧ (t.lgroup e.toNat q.toNat).arms = (s.lgroup e.toNat q.toNat).arms.map (fun b => if b.spare = a.spare then { b with ready := true } else b)
      ∧ t = { s with regs := t.regs, lgroups := t.lgroups } := by
  have hspare : a.spare < 7 := by
    have hfound := List.find?_some hfind
    simp only [Bool.and_eq_true, beq_iff_eq] at hfound
    rw [hfound.2]
    split <;> decide
  let c := (s.toBox.setLgroup e.toNat q.toNat { s.lgroup e.toNat q.toNat with
    arms := (s.lgroup e.toNat q.toNat).arms.map fun b => if b.spare = a.spare then { b with ready := true } else b }).wr
      (laserState e.toNat q.toNat a.spare) 7
  have hcmd : s.toBox.spareReady e.toNat q.toNat (if upper then 6 else 5) = c.sparesFree e.toNat q.toNat := by
    unfold Box.spareReady
    dsimp only
    rw [hfind]
  have hset : c.rd (laserState e.toNat q.toNat a.spare) = 7 := rd_wr_lt _ (Nat.le_of_ble_eq_true rfl) (by decide : 7 < 2 ^ 3)
  have hstate := (rd_of_sameOn (sparesFree_lightKeeps c e.toNat q.isLt).words (laserState_light e.isLt q.isLt hspare)).trans hset
  have harms : (c.lgroup e.toNat q.toNat).arms = (s.lgroup e.toNat q.toNat).arms.map fun b => if b.spare = a.spare then { b with ready := true } else b :=
    congrArg LaserGroup.arms (lgroup_setLgroup s.toBox e.toNat q.toNat _)
  obtain ⟨r, hframe⟩ : ∃ r, c.sparesFree e.toNat q.toNat = { c with regs := r } := ⟨_, rfl⟩
  rw [hframe] at hcmd hstate
  exact ⟨_, next_onBox (f := fun b => b.spareReady e.toNat q.toNat (if upper then 6 else 5)) (actRun_run s _ hrun) hcmd, hstate, harms, rfl⟩

theorem exec_laserSwap {a : Arm} {w : Nat} (hfind : ((s.lgroup e.toNat q.toNat).arms.find? fun a => a.mig && a.ready) = some a)
    (hidle : ((s.lgroup e.toNat q.toNat).arms.any fun b => b.swap) = false) (hw : w = s.laserRole e.toNat q.toNat a.laser)
    (hoff : s.lanesOff e.toNat q.toNat w = true) : ∃ t, exec (.laserSwap e q) s = .next t ∧ Out.elmSync e.toNat ∈ t.outbox
      ∧ (t.lgroup e.toNat q.toNat).syncAt = s.raw ∧ (t.lgroup e.toNat q.toNat).held = s.groupSites e.toNat q.toNat w
      ∧ (t.lgroup e.toNat q.toNat).arms = (s.lgroup e.toNat q.toNat).arms.map (fun b => if b.laser = a.laser then { b with swap := true } else b) := by
  subst hw
  obtain ⟨c, g, hg, hcmd⟩ : ∃ (c : Box) (g : LaserGroup), (g.syncAt = s.raw ∧ g.held = s.groupSites e.toNat q.toNat (s.laserRole e.toNat q.toNat a.laser)
      ∧ g.arms = (s.lgroup e.toNat q.toNat).arms.map fun b => if b.laser = a.laser then { b with swap := true } else b)
      ∧ s.toBox.laserSwap e.toNat q.toNat = (c.setLgroup e.toNat q.toNat g).emit (.elmSync e.toNat) := by
    unfold Box.laserSwap
    dsimp only
    rw [hfind]
    dsimp only
    rw [if_neg (ne_true_of_eq_false hidle), if_neg (ne_false_of_eq_true hoff)]
    exact ⟨_, _, ⟨rfl, rfl, rfl⟩, rfl⟩
  have hgroup := lgroup_setLgroup c e.toNat q.toNat g
  exact ⟨_, next_onBox (f := fun b => b.laserSwap e.toNat q.toNat) (actRun_run s _ hrun) hcmd, List.mem_cons_self,
    (congrArg LaserGroup.syncAt hgroup).trans hg.1, (congrArg LaserGroup.held hgroup).trans hg.2.1, (congrArg LaserGroup.arms hgroup).trans hg.2.2⟩

theorem exec_inputLost : ∃ t, exec (.laserInputLost e q) s = .next t ∧ (t.engine e.toNat).elm = false ∧ t.is (engReady e.toNat) = false
    ∧ t.is (SPT_LSR_GROUP_INPUT_LOST (e.toNat / 2) (groupIx e.toNat q.toNat)) = true ∧ t.is (pageFld (sptPage (e.toNat / 2)) 16 1 1) = true
    ∧ Out.elmEn e.toNat false ∈ t.outbox ∧ t = { s with regs := t.regs, outbox := t.outbox, engines := t.engines } := by
  obtain ⟨c, hcmd, hengine, hready, hlost, hcause, hout, _, _, _, rfl⟩ := inputLost_shows s.toBox (e := e.toNat) e.isLt (q := q.toNat) q.isLt
  exact ⟨_, next_onBox (f := fun b => b.inputLost e.toNat q.toNat) (actRun_run s _ hrun) hcmd, hengine, hready, hlost, hcause, hout, rfl⟩

end

end Sys2Proof.Proofs
end

section
/-! # The end of a laser swap and the poll of a module (10_optics.md R305, R309, R312) -/

namespace Sys2Proof.Proofs

open Sys2Proof Sys2Proof.Machine Sys2Proof.Safety Sys2Proof.Laws

/-! ### The end of a swap -/

/-- The holds released and the ports resumed move registers, ports and rings alone. -/
theorem swapReleased_frame (b : Box) (e : Nat) (held paused : List Nat) :
    ringFrame b (paused.foldl (fun b p => b.sendResume p) (held.foldl (fun b i => b.ringRelease e i) b)) := by
  have hrelease (c : Box) (i : Nat) : ringFrame c (c.ringRelease e i) := by
    unfold Box.ringRelease
    dsimp only
    split
    · have hset : ringFrame c (c.setRing e i { c.ring e i with seeking := false }) := ⟨_, _, _, rfl⟩
      exact ringFrame_trans hset (ringTo_words _ e i (by split <;> [decide; split <;> decide])).1
    · exact ringFrame_refl c
  have hresume (c : Box) (p : Nat) : ringFrame c (c.sendResume p) := by
    unfold Box.sendResume
    dsimp only
    split
    · exact ringFrame_refl c
    · exact ⟨_, _, _, rfl⟩
  exact ringFrame_trans (foldl_rel ringFrame_refl ringFrame_trans held (fun c i _ => hrelease c i) b)
    (foldl_rel ringFrame_refl ringFrame_trans paused (fun c p _ => hresume c p) _)

theorem laserWords_apart {e q k k' : Nat} (h : k ≠ k') :
    SPT_LSR_CFG_at (e / 2) (laserIx e q k) ≠ SPT_LSR_CFG_at (e / 2) (laserIx e q k') := by
  unfold SPT_LSR_CFG_at laserIx
  omega

/-- The swap of lasers `o` and `n` on wavelength `w`, with NOM `v`: the old one is retired and the spare takes its role. -/
def lasersSwapped (b : Box) (e q o n w v : Nat) : Box :=
  (((b.wr (laserState e q o) 5).wr (SPT_LSR_CFG_ROLE (e / 2) (laserIx e q o)) 7).wr (SPT_LSR_CFG_ROLE (e / 2) (laserIx e q n)) w).wr
    (SPT_LSR_CFG_NOM (e / 2) (laserIx e q n)) v

theorem lasersSwapped_shows (b : Box) {e q o n w v : Nat} (hne : o ≠ n) (hw : w < 2 ^ 3) (hv : v < 2 ^ 16) :
    (lasersSwapped b e q o n w v).rd (laserState e q o) = 5 ∧ (lasersSwapped b e q o n w v).rd (SPT_LSR_CFG_ROLE (e / 2) (laserIx e q o)) = 7
      ∧ (lasersSwapped b e q o n w v).rd (SPT_LSR_CFG_ROLE (e / 2) (laserIx e q n)) = w
      ∧ (lasersSwapped b e q o n w v).rd (SPT_LSR_CFG_NOM (e / 2) (laserIx e q n)) = v := by
  have hword := laserWords_apart (e := e) (q := q) hne
  have hlast (c : Box) {f : Fld} (hf : f.addr = SPT_LSR_CFG_at (e / 2) (laserIx e q o)) :
      ((c.wr (SPT_LSR_CFG_ROLE (e / 2) (laserIx e q n)) w).wr (SPT_LSR_CFG_NOM (e / 2) (laserIx e q n)) v).rd f = c.rd f :=
    (rd_wr_word _ _ _ _ (by rw [hf]; exact hword)).trans (rd_wr_word _ _ _ _ (by rw [hf]; exact hword))
  refine ⟨?_, ?_, ?_, rd_wr_lt _ (Nat.le_of_ble_eq_true rfl) hv⟩
  · refine (hlast _ rfl).trans ((rd_wr_apart (f := SPT_LSR_CFG_ROLE (e / 2) (laserIx e q o)) _ _ ⟨Nat.le_of_ble_eq_true rfl, .inr (.inr (Nat.le_of_ble_eq_true rfl))⟩).trans
      (rd_wr_lt b (f := laserState e q o) (Nat.le_of_ble_eq_true rfl) (by decide : 5 < 2 ^ 3)))
  · exact (hlast _ rfl).trans (rd_wr_lt _ (Nat.le_of_ble_eq_true rfl) (by decide : 7 < 2 ^ 3))
  · refine (rd_wr_apart (f := SPT_LSR_CFG_NOM (e / 2) (laserIx e q n)) _ _ ⟨Nat.le_of_ble_eq_true rfl, .inr (.inl (Nat.le_of_ble_eq_true rfl))⟩).trans
      (rd_wr_lt _ (Nat.le_of_ble_eq_true rfl) hw)

/-- The swap of a laser in a box whose group's record is as at the command. -/
theorem laserRelease_shows (b : Box) {e q : Nat} (he : e < 16) (hq : q < 4) {a : Arm} (hfind : ((b.lgroup e q).arms.find? fun a => a.swap) = some a)
    (ho : a.laser < 7) (hn : a.spare < 7) (hne : a.laser ≠ a.spare) (hdue : (b.lgroup e q).syncAt + 9600 ≤ b.raw) :
    ∃ c, b.laserRelease e q = c ∧ c.rd (laserState e q a.laser) = 5 ∧ c.laserRole e q a.laser = 7 ∧ c.laserRole e q a.spare = b.laserRole e q a.laser
      ∧ c.nom e q a.spare = b.nom e q a.laser ∧ (c.lgroup e q).arms = (b.lgroup e q).arms.filter (fun x => x.laser ≠ a.laser)
      ∧ (c.lgroup e q).held = [] ∧ b.laserRole e q a.laser ∈ (c.lgroup e q).back
      ∧ c.ctr (sptPage (e / 2)) (70 + groupIx e q) = b.ctr (sptPage (e / 2)) (70 + groupIx e q) + 1 := by
  obtain ⟨d, hd, hframe⟩ : ∃ d, (b.lgroup e q).paused.foldl (fun b p => b.sendResume p) ((b.lgroup e q).held.foldl (fun b i => b.ringRelease e i) b) = d
      ∧ ringFrame b d := ⟨_, rfl, swapReleased_frame b e _ _⟩
  have hswap := lasersSwapped_shows d (e := e) (q := q) (w := b.laserRole e q a.laser) (v := b.rd (SPT_LSR_CFG_NOM (e / 2) (laserIx e q a.laser)))
    hne (wordField_lt _ _ _) (wordField_lt _ _ _)
  obtain ⟨x, hx, rx, hxeq⟩ : ∃ x, lasersSwapped d e q a.laser a.spare (b.laserRole e q a.laser) (b.rd (SPT_LSR_CFG_NOM (e / 2) (laserIx e q a.laser))) = x
      ∧ ∃ r, x = { d with regs := r } := ⟨_, rfl, _, rfl⟩
  rw [hx] at hswap
  obtain ⟨y, g, hg, hyeq, hy⟩ : ∃ (y : Box) (g : LaserGroup), (g.arms = (b.lgroup e q).arms.filter (fun x => x.laser ≠ a.laser) ∧ g.held = []
      ∧ b.laserRole e q a.laser ∈ g.back) ∧ y = (x.setLaser e q a.spare {}).setLgroup e q g
      ∧ b.laserRelease e q = ((y.put (SPT_LSR_GROUP_SWAP_BUSY (e / 2) (groupIx e q)) (((b.lgroup e q).arms.filter fun b => b.laser != a.laser).any
        fun b => b.mig)).sparesFree e q).count (sptPage (e / 2)) (70 + groupIx e q) := by
    refine ⟨_, { x.lgroup e q with
      arms := (b.lgroup e q).arms.filter (fun x => x.laser != a.laser), back := b.laserRole e q a.laser :: (b.lgroup e q).back,
      paused := [], held := [] }, ⟨List.filter_congr fun x _ => (by rw [bne, decide_not]; rfl), rfl, List.mem_cons_self⟩, rfl, ?_⟩
    unfold Box.laserRelease
    extract_lets g
    rw [hfind]
    refine (if_neg (Nat.not_lt.mpr hdue)).trans ?_
    extract_lets _ _ _ _ s4
    have hs4 : s4 = x.setLaser e q a.spare {} := by
      rw [← hx, ← hd]
      rfl
    clear_value s4
    subst hs4
    rfl
  have hquiet : LightKeeps y ((y.put (SPT_LSR_GROUP_SWAP_BUSY (e / 2) (groupIx e q)) (((b.lgroup e q).arms.filter fun b => b.laser != a.laser).any
      fun b => b.mig)).sparesFree e q) :=
    (wr_lightKeeps y (f := SPT_LSR_GROUP_SWAP_BUSY (e / 2) (groupIx e q)) (groupWord_light e hq) _).trans (sparesFree_lightKeeps _ e hq)
  obtain ⟨z, hz, r, hzeq⟩ : ∃ z, (y.put (SPT_LSR_GROUP_SWAP_BUSY (e / 2) (groupIx e q)) (((b.lgroup e q).arms.filter fun b => b.laser != a.laser).any
      fun b => b.mig)).sparesFree e q = z ∧ ∃ r, z = { y with regs := r } := ⟨_, rfl, _, rfl⟩
  rw [hz] at hy hquiet
  obtain ⟨r', o', m', hcount⟩ := bump_onlyRegsCtrs z (sptPage (e / 2)) (70 + groupIx e q) 1
  have hctr := count_ctr_succ z (sptPage (e / 2)) (70 + groupIx e q)
  have hword {k : Nat} (hk : k < 7) {f : Fld} (hf : f.addr = SPT_LSR_CFG_at (e / 2) (laserIx e q k)) :
      (z.count (sptPage (e / 2)) (70 + groupIx e q)).rd f = x.rd f := by
    refine (sptCount_laser z he hq hk (by unfold groupIx; omega) hf).trans ((rd_of_sameOn hquiet.words (hf ▸ laserState_light he hq hk)).trans ?_)
    rw [hyeq]
    rfl
  obtain ⟨hstate, hrole, hnew, hnom⟩ := hswap
  have hrecord : (z.lgroup e q) = g := by
    rw [hzeq, hyeq]
    exact lgroup_setLgroup _ e q g
  have hctrs : z.ctr (sptPage (e / 2)) (70 + groupIx e q) = b.ctr (sptPage (e / 2)) (70 + groupIx e q) := by
    obtain ⟨_, _, _, rfl⟩ := hframe
    rw [hzeq, hyeq, hxeq]
    rfl
  have hnewWord := (hword (k := a.spare) hn (f := SPT_LSR_CFG_NOM (e / 2) (laserIx e q a.spare)) rfl).trans hnom
  obtain ⟨c, hc⟩ : ∃ c, z.count (sptPage (e / 2)) (70 + groupIx e q) = c := ⟨_, rfl⟩
  change z.count _ _ = _ at hcount
  rw [hc] at hword hctr hcount hy hnewWord
  have hgroup : c.lgroup e q = g := by
    rw [hcount]
    exact hrecord
  refine ⟨c, hy, (hword (f := laserState e q a.laser) ho rfl).trans hstate, (hword (f := SPT_LSR_CFG_ROLE (e / 2) (laserIx e q a.laser)) ho rfl).trans hrole,
    (hword (f := SPT_LSR_CFG_ROLE (e / 2) (laserIx e q a.spare)) hn rfl).trans hnew, ?_, ?_, ?_, ?_, hctr.trans (congrArg (· + 1) hctrs)⟩
  · rw [Box.nom, hnewWord]
    rfl
  · rw [hgroup, hg.1]
  · rw [hgroup, hg.2.1]
  · rw [hgroup]
    exact hg.2.2

section
variable {s : State} (hrun : s.phase = .run) (e : EngIx)
include hrun

theorem exec_laserSwapRelease (q : BitVec 2) {a : Arm} (hfind : ((s.lgroup e.toNat q.toNat).arms.find? fun a => a.swap) = some a)
    (ho : a.laser < 7) (hn : a.spare < 7) (hne : a.laser ≠ a.spare) (hdue : (s.lgroup e.toNat q.toNat).syncAt + 9600 ≤ s.raw) :
    ∃ t, exec (.laserSwapRelease e q) s = .next t ∧ t.rd (laserState e.toNat q.toNat a.laser) = 5
      ∧ t.laserRole e.toNat q.toNat a.laser = 7 ∧ t.laserRole e.toNat q.toNat a.spare = s.laserRole e.toNat q.toNat a.laser
      ∧ t.nom e.toNat q.toNat a.spare = s.nom e.toNat q.toNat a.laser
      ∧ (t.lgroup e.toNat q.toNat).arms = (s.lgroup e.toNat q.toNat).arms.filter (fun b => b.laser ≠ a.laser) ∧ (t.lgroup e.toNat q.toNat).held = []
      ∧ s.laserRole e.toNat q.toNat a.laser ∈ (t.lgroup e.toNat q.toNat).back
      ∧ t.ctr (sptPage (e.toNat / 2)) (70 + groupIx e.toNat q.toNat) = s.ctr (sptPage (e.toNat / 2)) (70 + groupIx e.toNat q.toNat) + 1 := by
  obtain ⟨c, hcmd, hshows⟩ := laserRelease_shows s.toBox (e := e.toNat) e.isLt (q := q.toNat) q.isLt hfind ho hn hne hdue
  exact ⟨_, next_onBox (f := fun b => b.laserRelease e.toNat q.toNat) (actRun_run s _ hrun) hcmd, hshows⟩

end

/-! ### The poll of a module -/

/-- A laser that its module reports failed migrates as at -3 dB, where it is in use. -/
def failedTurn (e : Nat) (b : Box) (n : Nat) : Box :=
  if (1 ≤ b.rd (laserState e (n / 7) (n % 7)) ∧ b.rd (laserState e (n / 7) (n % 7)) ≤ 3)
      ∨ (b.rd (laserState e (n / 7) (n % 7)) = 7 ∧ b.laserRole e (n / 7) (n % 7) ≠ 7) then b.migrate e (n / 7) (n % 7) true else b

/-- The state of a laser in use once its module has reported it failed. -/
def failedState (b : Box) (e n : Nat) : Nat :=
  let st := b.rd (laserState e (n / 7) (n % 7))
  if (1 ≤ st ∧ st ≤ 3) ∨ (st = 7 ∧ b.laserRole e (n / 7) (n % 7) ≠ 7) then 4 else st

/-- What a poll's migrations leave of the box, and what leaves it. -/
structure PollKeeps (b c : Box) : Prop where
  frame : ∃ r o p g l f, c = { b with regs := r, outbox := o, ports := p, lgroups := g, lasers := l, freeCtr := f }
  out : emits b c

theorem PollKeeps.refl (b : Box) : PollKeeps b b := ⟨⟨_, _, _, _, _, _, rfl⟩, emits_of_eq rfl⟩

theorem PollKeeps.trans {b c d : Box} (h : PollKeeps b c) (k : PollKeeps c d) : PollKeeps b d := by
  obtain ⟨⟨_, _, _, _, _, _, rfl⟩, hout⟩ := h
  obtain ⟨⟨_, _, _, _, _, _, rfl⟩, kout⟩ := k
  exact ⟨⟨_, _, _, _, _, _, rfl⟩, emits_trans hout kout⟩

theorem LightKeeps.poll {b c : Box} (h : LightKeeps b c) : PollKeeps b c := by
  obtain ⟨⟨_, _, _, _, rfl⟩, -, hout⟩ := h
  exact ⟨⟨_, _, _, _, _, _, rfl⟩, hout⟩

theorem failedTurn_shows {e n : Nat} (he : e < 16) (hn : n < 28) (b : Box) : TurnKeeps e n b (failedTurn e b n) ∧ PollKeeps b (failedTurn e b n)
    ∧ (failedTurn e b n).rd (laserState e (n / 7) (n % 7)) = failedState b e n := by
  unfold failedTurn failedState
  dsimp only
  split
  · obtain ⟨c, hc, hend⟩ := migrate_shows b he (q := n / 7) (by omega) (n % 7) true
    obtain ⟨hturn, -, hstate, -⟩ := stateSet_shows he hn (v := 4) (by decide) hc hend
    refine ⟨hturn, hc.poll.trans (PollKeeps.trans ?_ hend.poll), hstate⟩
    exact ⟨⟨_, _, _, _, _, _, rfl⟩, emits_of_eq rfl⟩
  · exact ⟨TurnKeeps.refl e n b, PollKeeps.refl b, rfl⟩

theorem laserAt_split {e q k : Nat} (hk : k < 7) : laserAt e (7 * q + k) = SPT_LSR_CFG_at (e / 2) (laserIx e q k) := by
  rw [laserAt, show (7 * q + k) / 7 = q by omega, show (7 * q + k) % 7 = k by omega]

/-- A failed laser stays so. -/
theorem failedState_again {e n : Nat} (he : e < 16) (hn : n < 28) (b : Box) : failedState (failedTurn e b n) e n = failedState b e n := by
  obtain ⟨-, -, hset⟩ := failedTurn_shows he hn b
  by_cases h : (1 ≤ b.rd (laserState e (n / 7) (n % 7)) ∧ b.rd (laserState e (n / 7) (n % 7)) ≤ 3)
      ∨ (b.rd (laserState e (n / 7) (n % 7)) = 7 ∧ b.laserRole e (n / 7) (n % 7) ≠ 7)
  · have hfour : failedState b e n = 4 := if_pos h
    rw [hfour] at hset ⊢
    unfold failedState
    rw [hset]
    exact if_neg (by omega)
  · exact congrArg (failedState · e n) (if_neg h)

/-- A laser's state once a list of its module's has been reported failed. -/
theorem failedTurns_state {e m : Nat} (he : e < 16) (hm : m < 28) (l : List Nat) (hl : ∀ n ∈ l, n < 28) (b : Box) :
    (l.foldl (failedTurn e) b).rd (laserState e (m / 7) (m % 7))
      = if m ∈ l then failedState b e m else b.rd (laserState e (m / 7) (m % 7)) := by
  induction l generalizing b with
  | nil => rfl
  | cons n l ih =>
    obtain ⟨hturn, -, hset⟩ := failedTurn_shows he (hl n List.mem_cons_self) b
    have hrest := ih (fun k hk => hl k (List.mem_cons_of_mem n hk)) (failedTurn e b n)
    rw [List.foldl_cons, hrest]
    by_cases h : m = n
    · subst h
      rw [failedState_again he hm, hset, ite_self, if_pos List.mem_cons_self]
    · have hsame : sameOn (fun a => a = laserAt e m) b (failedTurn e b n) := by
        rintro a rfl
        exact hturn.words _ ⟨laserAt_light he hm, fun heq => h (laserAt_inj e heq), laserAt_ne_powerAt e hm (hl n List.mem_cons_self)⟩
      have hstate : (failedTurn e b n).rd (laserState e (m / 7) (m % 7)) = b.rd (laserState e (m / 7) (m % 7)) := rd_of_sameOn hsame rfl
      have hrole : (failedTurn e b n).laserRole e (m / 7) (m % 7) = b.laserRole e (m / 7) (m % 7) :=
        rd_of_sameOn hsame (f := SPT_LSR_CFG_ROLE (e / 2) (laserIx e (m / 7) (m % 7))) rfl
      have hfailed : failedState (failedTurn e b n) e m = failedState b e m := by
        unfold failedState
        rw [hstate, hrole]
      rw [hfailed, hstate]
      simp only [List.mem_cons, h, false_or]

section
variable {s : State} (hrun : s.phase = .run) (e : EngIx) (ready : Bool) (failed : List Nat) (monitors : List Int)
include hrun

theorem exec_modulePoll_early (h : s.raw < (s.engine e.toNat).pollAt + 6400000) : exec (.modulePoll e ready failed monitors) s = .next s :=
  next_onBox (f := fun b => b.modulePoll e.toNat ready failed monitors) (actRun_run s _ hrun) (if_pos h : s.toBox.modulePoll e.toNat ready failed monitors = s.toBox)

theorem exec_modulePoll (h : (s.engine e.toNat).pollAt + 6400000 ≤ s.raw) : ∃ t, exec (.modulePoll e ready failed monitors) s = .next t
    ∧ Out.laserBus e.toNat 0 .flags ∈ t.outbox ∧ (t.engine e.toNat).polls = (s.engine e.toNat).polls ++ [(s.raw, ready, failed, monitors)]
    ∧ (t.engine e.toNat).ready = ready
    ∧ ∀ q k, q < 4 → k < 7 → let st := s.rd (laserState e.toNat q k)
      t.rd (laserState e.toNat q k)
        = if 7 * q + k ∈ failed ∧ ((1 ≤ st ∧ st ≤ 3) ∨ (st = 7 ∧ s.laserRole e.toNat q k ≠ 7)) then 4 else st := by
  have he : e.toNat < 16 := e.isLt
  let x := s.engine e.toNat
  obtain ⟨b, hb, hengine, hflags, hregs⟩ : ∃ b, (s.toBox.setEngine e.toNat { x with pollAt := s.raw, ready := ready, polls := x.polls ++ [(s.raw, ready, failed, monitors)] }).emit
      (.laserBus e.toNat 0 .flags) = b ∧ b.engine e.toNat = { x with pollAt := s.raw, ready := ready, polls := x.polls ++ [(s.raw, ready, failed, monitors)] }
      ∧ Out.laserBus e.toNat 0 .flags ∈ b.outbox ∧ b.regs = s.regs := ⟨_, rfl, engine_setEngine s.toBox e.toNat _, List.mem_cons_self, rfl⟩
  have hcmd : s.toBox.modulePoll e.toNat ready failed monitors = (failed.filter (· < 28)).foldl (failedTurn e.toNat) b := by
    rw [← hb]
    exact if_neg (Nat.not_lt.mpr h)
  have hlow : ∀ n ∈ failed.filter (· < 28), n < 28 := fun n hn => of_decide_eq_true (List.mem_filter.mp hn).2
  have hkeep := foldl_rel PollKeeps.refl PollKeeps.trans (f := failedTurn e.toNat) (failed.filter (· < 28))
    (fun c n hn => (failedTurn_shows he (hlow n hn) c).2.1) b
  have hstates (m : Nat) (hm : m < 28) := failedTurns_state he hm _ hlow b
  obtain ⟨c, hc⟩ : ∃ c, (failed.filter (· < 28)).foldl (failedTurn e.toNat) b = c := ⟨_, rfl⟩
  rw [hc] at hcmd hkeep
  obtain ⟨⟨_, _, _, _, _, _, hframe⟩, o, hout⟩ := hkeep
  have hkept : c.engine e.toNat = b.engine e.toNat := by rw [hframe]; rfl
  rw [hengine] at hkept
  refine ⟨_, next_onBox (f := fun b => b.modulePoll e.toNat ready failed monitors) (actRun_run s _ hrun) hcmd, ?_, congrArg Engine.polls hkept,
    congrArg Engine.ready hkept, fun q k hq hk => ?_⟩
  · change Out.laserBus e.toNat 0 .flags ∈ c.outbox
    rw [hout]
    exact List.mem_append_right o hflags
  · have hturn := hstates (7 * q + k) (by omega)
    rw [hc, show (7 * q + k) / 7 = q by omega, show (7 * q + k) % 7 = k by omega] at hturn
    have hmem : 7 * q + k ∈ failed.filter (· < 28) ↔ 7 * q + k ∈ failed := by
      rw [List.mem_filter, decide_eq_true_eq]
      exact and_iff_left (by omega)
    have hstate : b.rd (laserState e.toNat q k) = s.rd (laserState e.toNat q k) := rd_of_regs hregs _
    have hrole : b.laserRole e.toNat q k = s.laserRole e.toNat q k := rd_of_regs hregs _
    intro st
    change c.rd _ = _
    rw [hturn, failedState, show (7 * q + k) / 7 = q by omega, show (7 * q + k) % 7 = k by omega, hstate, hrole, ite_and]
    simp only [hmem, st]

end

end Sys2Proof.Proofs
end

section
/-! # Eye safety, lane health and Trapeze's entries (10_optics.md R313 to R317, R321) -/

namespace Sys2Proof.Proofs

open Sys2Proof Sys2Proof.Machine Sys2Proof.Safety Sys2Proof.Laws

/-! ### Eye safety -/

/-- A word of eye safety. -/
abbrev aprWord (a : Nat) : Prop := a % 0x1000000 = 0xA0154 ∨ a % 0x1000000 = 0xA0194

theorem aprWord_at (g : Nat) : aprWord (SPT_APR_STATUS_at g) := by
  unfold SPT_APR_STATUS_at aprWord
  generalize g / 2 + 1 = t
  omega

theorem lnkWord_not_apr (p : Nat) : ¬ aprWord (LNK_PORT_STATUS_at p) ∧ ¬ aprWord (LNK_TRAIN_STATUS_at p) := by
  unfold LNK_PORT_STATUS_at LNK_TRAIN_STATUS_at aprWord
  generalize p / 256 + 1 = t
  omega

theorem ringWord_not_apr (e : Nat) {i : Nat} (hi : i < 320) : ¬ aprWord (ringState e i).addr := by
  show ¬ aprWord (0x1000000 * (e / 2 + 1) + 0xA8000 + 4 * (512 * (e % 2) + i))
  unfold aprWord
  generalize e / 2 + 1 = t
  omega

/-- The start of a port's training leaves the words of eye safety. -/
theorem trainStart_apr (b : Box) (p : Nat) : sameOn aprWord b (b.trainStart p) := by
  obtain ⟨hstatus, htrain⟩ := lnkWord_not_apr p
  have hshown (x : Port) : sameOn aprWord b (trainShown b p x) := by
    unfold trainShown
    split
    · exact sameOn_of_regs rfl
    · unfold Box.showCauses
      dsimp only
      exact sameOn_trans (sameOn_trans (sameOn_trans (t := b.setPort p x) (sameOn_of_regs rfl) (put_sameOn _ _ htrain)) (put_sameOn _ _ htrain))
        (put_sameOn _ _ htrain)
  rcases trainStart_eq b p with h | ⟨x, y, h⟩
  · rw [h]
    exact sameOn_refl _ b
  · rw [h]
    exact sameOn_trans (sameOn_trans (sameOn_trans (hshown x) (sameOn_of_regs rfl)) (put_sameOn _ true hstatus)) (wr_sameOn _ 1 htrain)

/-- A microring's state leaves the words of eye safety. -/
theorem ringTo_apr (b : Box) (e : Nat) {i : Nat} (hi : i < 320) (v : Nat) : sameOn aprWord b (b.ringTo e i v) := by
  have hheat : ¬ aprWord (SPT_HEAT_STATUS_at e) := by
    unfold SPT_HEAT_STATUS_at aprWord
    generalize e / 2 + 1 = t
    omega
  have hready (g : Nat) : ¬ aprWord (SPT_FP_READY_at g) := by
    unfold SPT_FP_READY_at aprWord
    generalize g / 2 + 1 = t
    omega
  have hlevels : sameOn aprWord b (((b.wr (ringState e i) v).ringLevels e).pairReady (32 * e + i % 160 / 5)) :=
    sameOn_trans (sameOn_trans (sameOn_trans (wr_sameOn b (f := ringState e i) v (ringWord_not_apr e hi)) (put_sameOn _ _ hheat))
      (put_sameOn _ _ hheat)) (put_sameOn _ _ (hready _))
  exact sameOn_trans hlevels (foldl_sameOn _ (fun c p _ => trainStart_apr c p) _)

theorem pairRing_lt {f i : Nat} (h : i ∈ pairRings f) : i < 320 := by
  obtain ⟨k, hk, hi⟩ := List.mem_flatMap.mp h
  have := List.mem_range.mp hk
  simp only [List.mem_cons, List.not_mem_nil, or_false] at hi
  omega

/-- What the end of a pair's shutdown does to a microring. -/
def exitTurn (e : Nat) (quar : Nat → Bool) (b : Box) (i : Nat) : Box :=
  if b.rd (ringState e i) = 0 then (if 160 ≤ i ∧ quar i = false then b.ringSearch e i else b)
  else if b.rd (ringState e i) = 3 then b.ringTo e i 2 else b

theorem exitTurn_keeps (b : Box) (e : Nat) {i : Nat} (hi : i < 320) (quar : Nat → Bool) :
    ringFrame b (exitTurn e quar b i) ∧ sameOn aprWord b (exitTurn e quar b i) := by
  have hsearch : sameOn aprWord b (b.ringSearch e i) := sameOn_trans (sameOn_trans (t := b.setRing e i _) (sameOn_of_regs rfl)
    (wr_sameOn _ (f := SPT_RING_HEAT (e / 2) (512 * (e % 2) + i)) 0 (ringWord_not_apr e hi))) (ringTo_apr _ e hi 1)
  unfold exitTurn
  split
  · split
    · exact ⟨(ringSearch_words b e i).1, hsearch⟩
    · exact ⟨ringFrame_refl b, sameOn_refl _ b⟩
  · split
    · exact ⟨(ringTo_words b e i (by decide)).1, ringTo_apr b e hi 2⟩
    · exact ⟨ringFrame_refl b, sameOn_refl _ b⟩

theorem apr_setApr (b : Box) (f : Nat) (x : Apr) : (b.setApr f x).apr f = x := mapGet_mapSet_same ..

/-- A pair in shutdown leaves it with its shutter open. -/
theorem aprExit_shows {b : Box} {f : Nat} (hmode : b.pairMode f ≠ 0) (hin : b.inApr f = true) :
    ∃ c, b.aprExit f = c ∧ c.inApr f = false ∧ (c.apr f).open_ = true := by
  obtain ⟨x, hx, hclear, hopen⟩ : ∃ x, (b.put (pairBit SPT_APR_STATUS_APR f) false).setApr f { b.apr f with open_ := true } = x
      ∧ x.inApr f = false ∧ (x.apr f).open_ = true :=
    ⟨_, rfl, is_put b (pairBit SPT_APR_STATUS_APR f) false (Nat.mod_lt f (by decide)) Nat.one_pos,
      congrArg Apr.open_ (apr_setApr (b.put (pairBit SPT_APR_STATUS_APR f) false) f _)⟩
  have hcmd : b.aprExit f = (pairRings f).foldl (exitTurn (f / 32) (b.ringQuar (f / 32))) x := by
    rw [← hx]
    refine if_neg fun h => h.elim hmode fun h => ?_
    exact Bool.false_ne_true (h.symm.trans hin)
  obtain ⟨hframe, hwords⟩ := foldl_rel (R := fun c d => ringFrame c d ∧ sameOn aprWord c d) (fun c => ⟨ringFrame_refl c, sameOn_refl _ c⟩)
    (fun h k => ⟨ringFrame_trans h.1 k.1, sameOn_trans h.2 k.2⟩) (f := exitTurn (f / 32) (b.ringQuar (f / 32))) (pairRings f)
    (fun c i hi => exitTurn_keeps c (f / 32) (pairRing_lt hi) _) x
  obtain ⟨c, hc⟩ : ∃ c, (pairRings f).foldl (exitTurn (f / 32) (b.ringQuar (f / 32))) x = c := ⟨_, rfl⟩
  rw [hc] at hcmd hframe hwords
  refine ⟨c, hcmd, (is_of_sameOn hwords (f := pairBit SPT_APR_STATUS_APR f) (aprWord_at _)).trans hclear, ?_⟩
  obtain ⟨_, _, _, rfl⟩ := hframe
  exact hopen

/-- A pair enters shutdown: its bit, its record, its count and the interrupt. -/
theorem aprEnter_shows {b : Box} {f : Nat} (hf : f < 512) (hmode : b.pairMode f ≠ 0) (hin : b.inApr f = false) : ∃ c, b.aprEnter f = c
    ∧ c.inApr f = true ∧ c.ctr (sptPage (f / 64)) (6 + f % 64) = b.ctr (sptPage (f / 64)) (6 + f % 64) + 1
    ∧ c.is (pageFld (sptPage (f / 64)) 16 2 1) = true
    ∧ ∃ r o m, c = { b with regs := r, outbox := o, ctrs := m, aprs := (b.setApr f ⟨b.raw, b.raw, false⟩).aprs } := by
  have hpage : sptPage (f / 64) < 2304 := (tentPage_lt (by omega) (by decide)).trans (by decide)
  have hbody : bodyWord (pairBit SPT_APR_STATUS_APR f).addr := by
    show bodyWord (SPT_APR_STATUS_at (f / 32))
    unfold SPT_APR_STATUS_at bodyWord
    omega
  obtain ⟨x, hx, hset, g, hxeq⟩ : ∃ x, (b.put (pairBit SPT_APR_STATUS_APR f) true).setApr f ⟨b.raw, b.raw, false⟩ = x ∧ x.inApr f = true
      ∧ ∃ g, x = { b with regs := g, aprs := (b.setApr f ⟨b.raw, b.raw, false⟩).aprs } :=
    ⟨_, rfl, is_put b (pairBit SPT_APR_STATUS_APR f) true (Nat.mod_lt f (by decide)) Nat.one_pos, _, rfl⟩
  have hcmd : b.aprEnter f = (x.count (sptPage (f / 64)) (6 + f % 64)).raiseInt (sptPage (f / 64)) 2 := by
    rw [← hx]
    refine if_neg fun h => h.elim hmode fun h => ?_
    exact Bool.false_ne_true (hin.symm.trans h)
  have hcount := count_body x hpage (i := 6 + f % 64) (by omega)
  obtain ⟨hctr, r, o, m, hy⟩ := count_shows x (sptPage (f / 64)) (6 + f % 64)
  obtain ⟨y, hyeq⟩ : ∃ y, x.count (sptPage (f / 64)) (6 + f % 64) = y := ⟨_, rfl⟩
  rw [hyeq] at hcmd hcount hctr hy
  have hraise := raiseInt_body y hpage 2
  have honly := raiseInt_onlyRegs y (sptPage (f / 64)) 2
  refine ⟨_, hcmd, (is_of_sameOn (sameOn_trans hcount hraise) hbody).trans hset, (ctr_of_onlyRegs honly _ _).trans (hctr.trans ?_), ?_, ?_⟩
  · rw [hxeq]
    rfl
  · rw [is_raiseInt_cause y hpage (by decide), decide_eq_true rfl, Bool.or_true]
  · obtain ⟨r', o', hz⟩ := honly
    rw [hz, hy, hxeq]
    exact ⟨_, _, _, rfl⟩

section
variable {s : State} (hrun : s.phase = .run) (f : FpIx) (hmode : s.pairMode f.toNat ≠ 0)
include hrun hmode

theorem exec_aprEnter (hin : s.inApr f.toNat = false) : ∃ t, exec (.aprEnter f) s = .next t ∧ t.inApr f.toNat = true
    ∧ t.ctr (sptPage (f.toNat / 64)) (6 + f.toNat % 64) = s.ctr (sptPage (f.toNat / 64)) (6 + f.toNat % 64) + 1
    ∧ t.is (pageFld (sptPage (f.toNat / 64)) 16 2 1) = true
    ∧ t = { s with regs := t.regs, outbox := t.outbox, ctrs := t.ctrs, aprs := (s.setApr f.toNat ⟨s.raw, s.raw, false⟩).aprs } := by
  obtain ⟨c, hcmd, hset, hctr, hcause, _, _, _, rfl⟩ := aprEnter_shows (b := s.toBox) (f := f.toNat) f.isLt hmode hin
  exact ⟨_, next_onBox (f := fun b => b.aprEnter f.toNat) (actRun_run s _ hrun) hcmd, hset, hctr, hcause, rfl⟩

theorem exec_aprPulseStart (hin : s.inApr f.toNat = true) (hopen : (s.apr f.toNat).open_ = false) (hdue : (s.apr f.toNat).pulseAt + 64000000 ≤ s.raw) :
    exec (.aprPulseStart f) s = .next { s with aprs := (s.setApr f.toNat { s.apr f.toNat with pulseAt := s.raw, open_ := true }).aprs } :=
  next_onBox (f := fun b => b.aprPulse f.toNat) (actRun_run s _ hrun) (if_pos ⟨hmode, hin, hopen, hdue⟩ : s.toBox.aprPulse f.toNat = _)

omit hmode in
theorem exec_aprPulseEnd (hin : s.inApr f.toNat = true) (hopen : (s.apr f.toNat).open_ = true) (hdue : (s.apr f.toNat).pulseAt + 1280000 ≤ s.raw) :
    exec (.aprPulseEnd f) s = .next { s with aprs := (s.setApr f.toNat { s.apr f.toNat with open_ := false }).aprs } :=
  next_onBox (f := fun b => b.aprPulseEnd f.toNat) (actRun_run s _ hrun) (if_pos ⟨hin, hopen, hdue⟩ : s.toBox.aprPulseEnd f.toNat = _)

theorem exec_aprExit (hin : s.inApr f.toNat = true) : ∃ t, exec (.aprExit f) s = .next t ∧ t.inApr f.toNat = false ∧ (t.apr f.toNat).open_ = true := by
  obtain ⟨c, hcmd, hshows⟩ := aprExit_shows (b := s.toBox) (f := f.toNat) hmode hin
  exact ⟨_, next_onBox (f := fun b => b.aprExit f.toNat) (actRun_run s _ hrun) hcmd, hshows⟩

end

end Sys2Proof.Proofs
end

section
/-! # Lane health and Trapeze's entries (10_optics.md R313, R321) -/

namespace Sys2Proof.Proofs

open Sys2Proof Sys2Proof.Machine Sys2Proof.Safety Sys2Proof.Laws

/-! ### Lane health -/

/-- The counts of a port's receive lanes, by wavelength. -/
def laneCount (b : Box) (p w : Nat) : Int := (b.ctr (lnkPage (p / 256)) (2305 + 2 * (5 * (p / 4 % 64) + w))).toNat

/-- A lane's count has risen by the limit or more. -/
def laneBad (b : Box) (p : Nat) (lanes : List Nat) (i : Nat) : Bool :=
  decide (b.rd (SPT_LANE_CFG_UNCORR_LIM (p / 256)) ≠ 0) && decide ((b.rd (SPT_LANE_CFG_UNCORR_LIM (p / 256)) : Int)
    ≤ (laneCount b p (lanes.getD i 0) - (b.port p).fecPrev.getD (lanes.getD i 0) 0) % 2 ^ 64)

/-- Port `p` with its counts noted. -/
def countsNoted (b : Box) (p : Nat) : Box := b.setPort p { b.port p with fecPrev := (List.range 5).map (laneCount b p) }

theorem laneHealth_eq {b : Box} {p : Nat} (h : b.joined (p / 4) = false) : b.laneHealth p
    = ((List.range (if b.up p then b.rxLanes p else []).length).filter (laneBad b p (if b.up p then b.rxLanes p else []))).foldl
        (fun b' i => (b'.laneFault p ((if b.up p then b.rxLanes p else []).getD i 0)).sendCtl p (msgLaneFail i)) (countsNoted b p) :=
  if_neg (ne_true_of_eq_false h)

/-- A lane that is reported: its message joins the port's, whose counts stay as noted. -/
theorem laneReported_port (b : Box) (p w i : Nat) : (((b.laneFault p w).sendCtl p (msgLaneFail i)).port p).fecPrev = (b.port p).fecPrev
    ∧ (((b.laneFault p w).sendCtl p (msgLaneFail i)).port p).ctlQ = (b.port p).ctlQ ++ [msgLaneFail i] := by
  obtain ⟨⟨q, hport⟩, -⟩ := laneFault_port b p w
  rw [sendCtl_eq, port_setPort, hport]
  exact ⟨rfl, rfl⟩

theorem lanesReported_port (p : Nat) (lane : Nat → Nat) (l : List Nat) (b : Box) :
    ((l.foldl (fun b i => (b.laneFault p (lane i)).sendCtl p (msgLaneFail i)) b).port p).fecPrev = (b.port p).fecPrev
      ∧ ((l.foldl (fun b i => (b.laneFault p (lane i)).sendCtl p (msgLaneFail i)) b).port p).ctlQ = (b.port p).ctlQ ++ l.map msgLaneFail := by
  induction l generalizing b with
  | nil => exact ⟨rfl, (List.append_nil _).symm⟩
  | cons i l ih =>
    obtain ⟨hprev, hctl⟩ := laneReported_port b p (lane i) i
    obtain ⟨hprevs, hctls⟩ := ih ((b.laneFault p (lane i)).sendCtl p (msgLaneFail i))
    rw [List.foldl_cons]
    refine ⟨hprevs.trans hprev, hctls.trans ?_⟩
    rw [hctl, List.append_assoc]
    rfl

section
variable {s : State} (hrun : s.phase = .run) (p : Slot)
include hrun

theorem exec_laneHealth_joined (h : s.joined (p.toNat / 4) = true) : exec (.laneHealthCheck p) s = .next s :=
  next_onBox (f := fun b => b.laneHealth p.toNat) (actRun_run s _ hrun) (if_pos h : s.toBox.laneHealth p.toNat = s.toBox)

theorem exec_laneHealth_down (hup : s.up p.toNat = false) (h : s.joined (p.toNat / 4) = false) : exec (.laneHealthCheck p) s
    = .next { s with ports := (s.setPort p.toNat { s.port p.toNat with fecPrev := (List.range 5).map (laneCount s.toBox p.toNat) }).ports } := by
  have hcmd := laneHealth_eq (b := s.toBox) h
  have hlanes : (if s.toBox.up p.toNat then s.toBox.rxLanes p.toNat else []) = [] := if_neg (ne_true_of_eq_false hup)
  rw [hlanes] at hcmd
  exact next_onBox (f := fun b => b.laneHealth p.toNat) (actRun_run s _ hrun) hcmd

theorem exec_laneHealth_up (hup : s.up p.toNat = true) (h : s.joined (p.toNat / 4) = false) : ∃ t, exec (.laneHealthCheck p) s = .next t
    ∧ (t.port p.toNat).fecPrev = (List.range 5).map (laneCount s.toBox p.toNat)
    ∧ ∀ i, i < (s.rxLanes p.toNat).length → laneBad s.toBox p.toNat (s.rxLanes p.toNat) i = true → msgLaneFail i ∈ (t.port p.toNat).ctlQ := by
  have hcmd := laneHealth_eq (b := s.toBox) h
  have hlanes : (if s.toBox.up p.toNat then s.toBox.rxLanes p.toNat else []) = s.rxLanes p.toNat := if_pos hup
  rw [hlanes] at hcmd
  obtain ⟨hprev, hctl⟩ := lanesReported_port p.toNat (fun i => (s.rxLanes p.toNat).getD i 0)
    ((List.range (s.rxLanes p.toNat).length).filter (laneBad s.toBox p.toNat (s.rxLanes p.toNat))) (countsNoted s.toBox p.toNat)
  obtain ⟨c, hc⟩ : ∃ c, ((List.range (s.rxLanes p.toNat).length).filter (laneBad s.toBox p.toNat (s.rxLanes p.toNat))).foldl
    (fun b i => (b.laneFault p.toNat ((s.rxLanes p.toNat).getD i 0)).sendCtl p.toNat (msgLaneFail i)) (countsNoted s.toBox p.toNat) = c := ⟨_, rfl⟩
  rw [hc] at hcmd hprev hctl
  have hnoted : ((countsNoted s.toBox p.toNat).port p.toNat).fecPrev = (List.range 5).map (laneCount s.toBox p.toNat) :=
    congrArg Port.fecPrev (port_setPort s.toBox p.toNat _)
  refine ⟨_, next_onBox (f := fun b => b.laneHealth p.toNat) (actRun_run s _ hrun) hcmd, hprev.trans hnoted, fun i hi hbad => ?_⟩
  change msgLaneFail i ∈ (c.port p.toNat).ctlQ
  rw [hctl]
  exact List.mem_append_right _ (List.mem_map_of_mem (List.mem_filter.mpr ⟨List.mem_range.mpr hi, hbad⟩))

end

/-! ### Trapeze's entries -/

/-- One entry of a joined pair. -/
def xconnEntry (b : Box) (x y : Nat) : Box := (b.put (TRP_XCONN_VALID x) true).wr (TRP_XCONN_PARTNER x) (y % 32)

theorem xconnEntry_shows (b : Box) (x y : Nat) : (xconnEntry b x y).is (TRP_XCONN_VALID x) = true ∧ (xconnEntry b x y).rd (TRP_XCONN_PARTNER x) = y % 32
    ∧ sameWords [TRP_XCONN_at x] b (xconnEntry b x y) := by
  refine ⟨(is_wr_apart (f := TRP_XCONN_PARTNER x) _ _ ⟨Nat.le_of_ble_eq_true rfl, .inr (.inr (Nat.le_of_ble_eq_true rfl))⟩).trans
    (is_put b (TRP_XCONN_VALID x) true (Nat.le_of_ble_eq_true rfl) Nat.one_pos),
    rd_wr_lt _ (f := TRP_XCONN_PARTNER x) (Nat.le_of_ble_eq_true rfl) (Nat.mod_lt y (by decide) : y % 32 < 2 ^ 5),
    sameWords_trans (put_sameWords b (TRP_XCONN_VALID x) true) (wr_sameWords _ (TRP_XCONN_PARTNER x) _)⟩

/-- Both entries of a pair; they may be one. -/
theorem xconnPair_shows (b : Box) (f g : Nat) (hinj : TRP_XCONN_at f = TRP_XCONN_at g → f % 32 = g % 32) :
    ∃ c, xconnEntry (xconnEntry b f g) g f = c ∧ c.is (TRP_XCONN_VALID f) = true ∧ c.rd (TRP_XCONN_PARTNER f) = g % 32
      ∧ c.is (TRP_XCONN_VALID g) = true ∧ c.rd (TRP_XCONN_PARTNER g) = f % 32 ∧ sameWords [TRP_XCONN_at f, TRP_XCONN_at g] b c
      ∧ ∃ r, c = { b with regs := r } := by
  obtain ⟨hvalid, hpartner, hwords⟩ := xconnEntry_shows b f g
  obtain ⟨hvalid', hpartner', hwords'⟩ := xconnEntry_shows (xconnEntry b f g) g f
  obtain ⟨c, hc, r, hframe⟩ : ∃ c, xconnEntry (xconnEntry b f g) g f = c ∧ ∃ r, c = { b with regs := r } := ⟨_, rfl, _, rfl⟩
  rw [hc] at hvalid' hpartner' hwords'
  refine ⟨c, hc, ?_⟩
  have hboth : sameWords [TRP_XCONN_at f, TRP_XCONN_at g] b c := sameWords_trans (sameWords_mono hwords (by simp)) (sameWords_mono hwords' (by simp))
  by_cases h : TRP_XCONN_at f = TRP_XCONN_at g
  · have hv : TRP_XCONN_VALID f = TRP_XCONN_VALID g := by rw [TRP_XCONN_VALID, h]; rfl
    have hp : TRP_XCONN_PARTNER f = TRP_XCONN_PARTNER g := by rw [TRP_XCONN_PARTNER, h]; rfl
    rw [hv, hp]
    exact ⟨hvalid', hpartner'.trans (hinj h), hvalid', hpartner', hboth, r, hframe⟩
  · have hapart {x : Fld} (hx : x.addr = TRP_XCONN_at f) : x.addr ∉ [TRP_XCONN_at g] := by simpa [hx] using h
    exact ⟨(is_of_sameWords hwords' (f := TRP_XCONN_VALID f) (hapart rfl)).trans hvalid,
      (rd_of_sameWords hwords' (f := TRP_XCONN_PARTNER f) (hapart rfl)).trans hpartner, hvalid', hpartner', hboth, r, hframe⟩

/-- An entry without VALID. -/
theorem xconnCleared_shows (b : Box) (f v : Nat) : ∃ c, (b.put (TRP_XCONN_VALID f) false).wr (TRP_XCONN_PARTNER f) (v % 32) = c
    ∧ c.is (TRP_XCONN_VALID f) = false ∧ c.rd (TRP_XCONN_PARTNER f) = v % 32 ∧ sameWords [TRP_XCONN_at f] b c ∧ ∃ r, c = { b with regs := r } := by
  refine ⟨_, rfl, (is_wr_apart (f := TRP_XCONN_PARTNER f) _ _ ⟨Nat.le_of_ble_eq_true rfl, .inr (.inr (Nat.le_of_ble_eq_true rfl))⟩).trans
    (is_put b (TRP_XCONN_VALID f) false (Nat.le_of_ble_eq_true rfl) Nat.one_pos),
    rd_wr_lt _ (f := TRP_XCONN_PARTNER f) (Nat.le_of_ble_eq_true rfl) (Nat.mod_lt _ (by decide) : _ < 2 ^ 5),
    sameWords_trans (put_sameWords b (TRP_XCONN_VALID f) false) (wr_sameWords _ (TRP_XCONN_PARTNER f) _), _, rfl⟩

/-- A pair of entries cannot be joined: one is joined to another, or in a bypass. -/
def xconnBarred (b : Box) (f g : Nat) : Bool :=
  (b.is (TRP_XCONN_VALID g) && b.rd (TRP_XCONN_PARTNER g) != f % 32) || b.joined f || b.joined g || b.bypassList (4 * f) || b.bypassList (4 * g)

theorem xconnWrite_eq (b : Box) (src : Requester) (f v : Nat) (h : natField v 5 26 = 0) : b.xconnWrite src f v =
    if natField v 31 1 = 0 then (b.put (TRP_XCONN_VALID f) false).wr (TRP_XCONN_PARTNER f) (v % 32)
    else if xconnBarred b f (f / 32 * 32 + v % 32) then b.accErrAt (TRP_XCONN_at f) src
    else xconnEntry (xconnEntry b f (f / 32 * 32 + v % 32)) (f / 32 * 32 + v % 32) f := by
  unfold Box.xconnWrite
  rw [if_pos h]
  rfl

theorem xconn_page {f : Nat} (hf : f < 512) : wordPage (TRP_XCONN_at f) < 2304 := by
  have hbase : pageBase (tentPage (f / 64) 0x0B) = 0x1000000 * (f / 64 + 1) + 0x10000 * 0x0B := pageBase_tentPage (by omega) (by decide)
  have hlt : tentPage (f / 64) 0x0B < 2304 := (tentPage_lt (by omega) (by decide)).trans (by decide)
  have hword : TRP_XCONN_at f = pageBase (tentPage (f / 64) 0x0B) + (0x100 + 4 * (f % 64)) := by
    rw [hbase]
    unfold TRP_XCONN_at
    omega
  rw [hword, wordPage_pageBase hlt (by omega)]
  exact hlt

section
variable {s : State} {src : Requester} {f : FpIx} {value : Word} (htakes : takesWrite s src (TRP_XCONN_at f.toNat))
  (hrsv : natField value.toNat 5 26 = 0)
include htakes hrsv

theorem exec_xconnCleared (h : natField value.toNat 31 1 = 0) : ∃ t, exec (.trpXconnWrite src f value) s = .next t
    ∧ t.is (TRP_XCONN_VALID f.toNat) = false ∧ t.rd (TRP_XCONN_PARTNER f.toNat) = value.toNat % 32
    ∧ t = { s with regs := t.regs } ∧ sameWords [TRP_XCONN_at f.toNat] s.toBox t.toBox := by
  obtain ⟨hrun, hreach, hready⟩ := htakes
  have hact := actReg_run s (fun b => b.xconnWrite src f.toNat value.toNat) (TRP_XCONN_at f.toNat) src hrun hreach hready
  obtain ⟨c, hc, hvalid, hpartner, hwords, r, rfl⟩ := xconnCleared_shows s.toBox f.toNat value.toNat
  exact ⟨_, next_onBox hact ((xconnWrite_eq s.toBox src f.toNat value.toNat hrsv).trans ((if_pos h).trans hc)), hvalid, hpartner, rfl, hwords⟩

section
variable (hvalid : natField value.toNat 31 1 = 1)
include hvalid

theorem exec_xconnBarred (h : xconnBarred s.toBox f.toNat (f.toNat / 32 * 32 + value.toNat % 32) = true) : ∃ t,
    exec (.trpXconnWrite src f value) s = .next t ∧ t.is (PAGE_ERR_ACCERR (wordPage (TRP_XCONN_at f.toNat))) = true
      ∧ t = { s with regs := t.regs, outbox := t.outbox } ∧ sameWords (errorWords (wordPage (TRP_XCONN_at f.toNat))) s.toBox t.toBox := by
  obtain ⟨hrun, hreach, hready⟩ := htakes
  have hact := actReg_run s (fun b => b.xconnWrite src f.toNat value.toNat) (TRP_XCONN_at f.toNat) src hrun hreach hready
  exact exec_accErr hact ((xconnWrite_eq s.toBox src f.toNat value.toNat hrsv).trans ((if_neg (by omega)).trans (if_pos h))) (xconn_page f.isLt)

theorem exec_xconnJoined (h : xconnBarred s.toBox f.toNat (f.toNat / 32 * 32 + value.toNat % 32) = false) :
    let g := f.toNat / 32 * 32 + value.toNat % 32
    ∃ t, exec (.trpXconnWrite src f value) s = .next t ∧ t.is (TRP_XCONN_VALID f.toNat) = true
      ∧ t.rd (TRP_XCONN_PARTNER f.toNat) = g % 32 ∧ t.is (TRP_XCONN_VALID g) = true
      ∧ t.rd (TRP_XCONN_PARTNER g) = f.toNat % 32 ∧ t = { s with regs := t.regs }
      ∧ sameWords [TRP_XCONN_at f.toNat, TRP_XCONN_at g] s.toBox t.toBox := by
  obtain ⟨hrun, hreach, hready⟩ := htakes
  have hact := actReg_run s (fun b => b.xconnWrite src f.toNat value.toNat) (TRP_XCONN_at f.toNat) src hrun hreach hready
  have hcmd := (xconnWrite_eq s.toBox src f.toNat value.toNat hrsv).trans ((if_neg (by omega)).trans (if_neg (ne_true_of_eq_false h)))
  generalize hg : f.toNat / 32 * 32 + value.toNat % 32 = g at hcmd
  obtain ⟨c, hc, hvf, hpf, hvg, hpg, hwords, r, rfl⟩ := xconnPair_shows s.toBox f.toNat g fun hsame => by
    unfold TRP_XCONN_at at hsame
    omega
  exact ⟨_, next_onBox hact (hcmd.trans hc), hvf, hpf, hvg, hpg, rfl, hwords⟩

end

end

/-- Settles O54: a laser is judged by its own reading in its turn, a swap moves roles under the holds, and shutters, lanes and
entries follow their own records. -/
theorem lasersAreWatchedAndReplaced : Obligations.LasersAreWatchedAndReplaced := by
  intro s e hrun n t'
  refine ⟨fun rd => ⟨exec_monitorIntegration hrun e rd, exec_monitorStarved hrun e rd⟩, fun q a w => ?_, fun ready failed monitors => ?_, fun f => ?_,
    fun p => ?_, fun src f value htakes hrsv => ?_⟩
  · exact ⟨fun upper => exec_spareReady hrun e q upper, exec_laserSwap hrun e q, exec_laserSwapRelease hrun e q, exec_inputLost hrun e q⟩
  · exact ⟨exec_modulePoll_early hrun e ready failed monitors, exec_modulePoll hrun e ready failed monitors⟩
  · exact ⟨exec_aprEnter hrun f, fun hmode hin => ⟨exec_aprPulseStart hrun f hmode hin, exec_aprPulseEnd hrun f hin, exec_aprExit hrun f hmode hin⟩⟩
  · refine ⟨exec_laneHealth_joined hrun p, exec_laneHealth_down hrun p, fun hup hjoined => ?_⟩
    obtain ⟨t, ht, hprev, hctl⟩ := exec_laneHealth_up hrun p hup hjoined
    refine ⟨t, ht, hprev, fun i hi hlim hrise => hctl i hi ?_⟩
    exact Bool.and_eq_true_iff.mpr ⟨decide_eq_true hlim, decide_eq_true hrise⟩
  · refine ⟨exec_xconnCleared htakes hrsv, fun hvalid => ?_⟩
    split_ifs with h
    · exact exec_xconnBarred htakes hrsv hvalid h
    · exact exec_xconnJoined htakes hrsv hvalid (Bool.eq_false_iff.mpr h)

end Sys2Proof.Proofs
end

section
/-! # A trigger unit fires (09_network_time.md R278, R279) -/

namespace Sys2Proof.Proofs

open Sys2Proof Sys2Proof.Machine Sys2Proof.Safety Sys2Proof.Laws

/-! ### A unit's own words -/

/-- A word of trigger unit `u`. -/
abbrev unitWord (u a : Nat) : Prop := 0x98000 + 32 * u ≤ a ∧ a < 0x98020 + 32 * u

/-- TIME of a unit as words write it. -/
theorem trigTime_written (b : Box) (u r : Nat) :
    ((b.wr (TGT_TRIG_TIME_LO_TIME u) (r % 2 ^ 32)).wr (TGT_TRIG_TIME_HI_TIME u) (r / 2 ^ 32)).trigTime u = r % 2 ^ 64 := by
  have hlo : TGT_TRIG_TIME_LO_at u ≠ TGT_TRIG_TIME_HI_at u := by
    unfold TGT_TRIG_TIME_LO_at TGT_TRIG_TIME_HI_at
    omega
  have hhi := rd_wr (b.wr (TGT_TRIG_TIME_LO_TIME u) (r % 2 ^ 32)) (TGT_TRIG_TIME_HI_TIME u) (r / 2 ^ 32) (Nat.le_of_ble_eq_true rfl)
  have hlow := (rd_wr_word (b.wr (TGT_TRIG_TIME_LO_TIME u) (r % 2 ^ 32)) (TGT_TRIG_TIME_HI_TIME u) (TGT_TRIG_TIME_LO_TIME u) (r / 2 ^ 32) hlo).trans
    (rd_wr b (TGT_TRIG_TIME_LO_TIME u) (r % 2 ^ 32) (Nat.le_of_ble_eq_true rfl))
  rw [Box.trigTime, hhi, hlow]
  show r / 2 ^ 32 % 2 ^ 32 * 2 ^ 32 + r % 2 ^ 32 % 2 ^ 32 = r % 2 ^ 64
  omega

theorem trigTime_of_words {b c : Box} {u : Nat} {P : Nat → Prop} (h : sameOn P b c) (hlo : P (TGT_TRIG_TIME_LO_at u)) (hhi : P (TGT_TRIG_TIME_HI_at u)) :
    c.trigTime u = b.trigTime u := by
  rw [Box.trigTime, Box.trigTime, rd_of_sameOn h (f := TGT_TRIG_TIME_HI_TIME u) hhi, rd_of_sameOn h (f := TGT_TRIG_TIME_LO_TIME u) hlo]

/-- The next instant of a unit is written, and whether one was skipped. -/
theorem setInstant_shows (b : Box) (u : Nat) (r : Nat × Bool) : (b.setInstant u r).trigTime u = r.1 % 2 ^ 64
    ∧ (r.2 = true → (b.setInstant u r).is (TGT_TRIG_STATUS_SKIPPED u) = true)
    ∧ sameOn (fun a => a ≠ TGT_TRIG_TIME_LO_at u ∧ a ≠ TGT_TRIG_TIME_HI_at u ∧ a ≠ TGT_TRIG_STATUS_at u) b (b.setInstant u r)
    ∧ (∀ f : Fld, f.addr = TGT_TRIG_STATUS_at u → f.lo + f.width ≤ 1 ∨ 2 ≤ f.lo → (b.setInstant u r).rd f = b.rd f) ∧ ∃ g, b.setInstant u r = { b with regs := g } := by
  let c := (b.wr (TGT_TRIG_TIME_LO_TIME u) (r.1 % 2 ^ 32)).wr (TGT_TRIG_TIME_HI_TIME u) (r.1 / 2 ^ 32)
  have htime : c.trigTime u = r.1 % 2 ^ 64 := trigTime_written b u r.1
  have hwords : sameOn (fun a => a ≠ TGT_TRIG_TIME_LO_at u ∧ a ≠ TGT_TRIG_TIME_HI_at u) b c :=
    sameOn_trans (wr_sameOn b _ fun h => h.1 rfl) (wr_sameOn _ _ fun h => h.2 rfl)
  have hstatus : TGT_TRIG_STATUS_at u ≠ TGT_TRIG_TIME_LO_at u ∧ TGT_TRIG_STATUS_at u ≠ TGT_TRIG_TIME_HI_at u := by
    unfold TGT_TRIG_STATUS_at TGT_TRIG_TIME_LO_at TGT_TRIG_TIME_HI_at
    omega
  have hother (f : Fld) (hf : f.addr = TGT_TRIG_STATUS_at u) : c.rd f = b.rd f := rd_of_sameOn hwords (hf ▸ hstatus)
  have hcase : b.setInstant u r = if r.2 then c.put (TGT_TRIG_STATUS_SKIPPED u) true else c := rfl
  obtain ⟨c, hc, g, hframe⟩ : ∃ c', c = c' ∧ ∃ g, c' = { b with regs := g } := ⟨c, rfl, _, rfl⟩
  rw [hc] at htime hwords hother hcase
  rw [hcase]
  split
  · have hput : sameOn (fun a => a ≠ TGT_TRIG_STATUS_at u) c (c.put (TGT_TRIG_STATUS_SKIPPED u) true) := put_sameOn c true fun h => h rfl
    refine ⟨(trigTime_of_words hput hstatus.1.symm hstatus.2.symm).trans htime, fun _ => is_put c (TGT_TRIG_STATUS_SKIPPED u) true (Nat.le_of_ble_eq_true rfl) Nat.one_pos,
      fun a ha => (hput a ha.2.2).trans (hwords a ⟨ha.1, ha.2.1⟩),
      fun f hf hbits => (rd_put_apart (f := TGT_TRIG_STATUS_SKIPPED u) c true ⟨Nat.le_of_ble_eq_true rfl, .inr hbits⟩).trans (hother f hf), ?_⟩
    rw [hframe]
    exact ⟨_, rfl⟩
  · next h => exact ⟨htime, fun h' => absurd h' h, fun a ha => hwords a ⟨ha.1, ha.2.1⟩, fun f hf _ => hother f hf, g, hframe⟩

/-- What a firing writes in its unit before the action. -/
def trigMarked (b : Box) (u : Nat) (next : Nat → Nat → Nat → Nat × Bool) : Box :=
  let c := (b.put (TGT_TRIG_STATUS_FIRED u) true).wr (TGT_TRIG_COUNT_COUNT u) (b.rd (TGT_TRIG_COUNT_COUNT u) + 1)
  if b.rd (TGT_TRIG_PERIOD_PERIOD u) = 0 then c.put (TGT_TRIG_CTRL_ARM u) false
  else c.setInstant u (next (b.trigTime u) (b.rd (TGT_TRIG_PERIOD_PERIOD u)) (b.trigTick u))

/-- A word that says what a unit does and on what, but for the bit of arming. -/
def unitKept (u : Nat) (b c : Box) : Prop := sameOn (fun a => ¬ unitWord u a ∨ a = TGT_TRIG_SUB_at u ∨ a = TGT_TRIG_PERIOD_at u ∨ a = TGT_TRIG_WIDTH_at u) b c
  ∧ ∀ f : Fld, f.addr = TGT_TRIG_CTRL_at u → f.lo + f.width ≤ 29 ∨ 30 ≤ f.lo → c.rd f = b.rd f

theorem keptWord_ne {u a : Nat} (h : ¬ unitWord u a ∨ a = TGT_TRIG_SUB_at u ∨ a = TGT_TRIG_PERIOD_at u ∨ a = TGT_TRIG_WIDTH_at u) :
    a ≠ TGT_TRIG_CTRL_at u ∧ a ≠ TGT_TRIG_STATUS_at u ∧ a ≠ TGT_TRIG_COUNT_at u ∧ a ≠ TGT_TRIG_TIME_LO_at u ∧ a ≠ TGT_TRIG_TIME_HI_at u := by
  unfold TGT_TRIG_SUB_at TGT_TRIG_PERIOD_at TGT_TRIG_WIDTH_at at h
  unfold TGT_TRIG_CTRL_at TGT_TRIG_STATUS_at TGT_TRIG_COUNT_at TGT_TRIG_TIME_LO_at TGT_TRIG_TIME_HI_at
  omega

theorem trigMarked_shows (b : Box) (u : Nat) (next : Nat → Nat → Nat → Nat × Bool) : ∃ c, trigMarked b u next = c
    ∧ c.is (TGT_TRIG_STATUS_FIRED u) = true ∧ c.rd (TGT_TRIG_COUNT_COUNT u) = (b.rd (TGT_TRIG_COUNT_COUNT u) + 1) % 2 ^ 32
    ∧ (b.rd (TGT_TRIG_PERIOD_PERIOD u) = 0 → c.is (TGT_TRIG_CTRL_ARM u) = false ∧ c.trigTime u = b.trigTime u)
    ∧ (b.rd (TGT_TRIG_PERIOD_PERIOD u) ≠ 0 → c.is (TGT_TRIG_CTRL_ARM u) = b.is (TGT_TRIG_CTRL_ARM u)
      ∧ c.trigTime u = (next (b.trigTime u) (b.rd (TGT_TRIG_PERIOD_PERIOD u)) (b.trigTick u)).1 % 2 ^ 64
      ∧ ((next (b.trigTime u) (b.rd (TGT_TRIG_PERIOD_PERIOD u)) (b.trigTick u)).2 = true → c.is (TGT_TRIG_STATUS_SKIPPED u) = true))
    ∧ unitKept u b c ∧ c.is (TGT_TRIG_STATUS_LATE u) = b.is (TGT_TRIG_STATUS_LATE u) ∧ ∃ g, c = { b with regs := g } := by
  obtain ⟨c, hc, hfired, hcount, hlate, hwords, g, hframe⟩ : ∃ c, (b.put (TGT_TRIG_STATUS_FIRED u) true).wr (TGT_TRIG_COUNT_COUNT u) (b.rd (TGT_TRIG_COUNT_COUNT u) + 1) = c
      ∧ c.is (TGT_TRIG_STATUS_FIRED u) = true ∧ c.rd (TGT_TRIG_COUNT_COUNT u) = (b.rd (TGT_TRIG_COUNT_COUNT u) + 1) % 2 ^ 32
      ∧ c.is (TGT_TRIG_STATUS_LATE u) = b.is (TGT_TRIG_STATUS_LATE u)
      ∧ sameOn (fun a => a ≠ TGT_TRIG_STATUS_at u ∧ a ≠ TGT_TRIG_COUNT_at u) b c ∧ ∃ g, c = { b with regs := g } := by
    have hne : TGT_TRIG_STATUS_at u ≠ TGT_TRIG_COUNT_at u := by
      unfold TGT_TRIG_STATUS_at TGT_TRIG_COUNT_at
      omega
    refine ⟨_, rfl, (is_wr_word _ (TGT_TRIG_COUNT_COUNT u) (TGT_TRIG_STATUS_FIRED u) _ hne).trans
      (is_put b (TGT_TRIG_STATUS_FIRED u) true (Nat.le_of_ble_eq_true rfl) Nat.one_pos), rd_wr _ (TGT_TRIG_COUNT_COUNT u) _ (Nat.le_of_ble_eq_true rfl),
      (is_wr_word _ (TGT_TRIG_COUNT_COUNT u) (TGT_TRIG_STATUS_LATE u) _ hne).trans
        (is_put_apart (f := TGT_TRIG_STATUS_FIRED u) b true ⟨Nat.le_of_ble_eq_true rfl, .inr (.inr (Nat.le_of_ble_eq_true rfl))⟩),
      sameOn_trans (put_sameOn b true fun h => h.1 rfl) (wr_sameOn _ _ fun h => h.2 rfl), _, rfl⟩
  have hctrl : TGT_TRIG_CTRL_at u ≠ TGT_TRIG_STATUS_at u ∧ TGT_TRIG_CTRL_at u ≠ TGT_TRIG_COUNT_at u := by
    unfold TGT_TRIG_CTRL_at TGT_TRIG_STATUS_at TGT_TRIG_COUNT_at
    omega
  have hmarked : trigMarked b u next = if b.rd (TGT_TRIG_PERIOD_PERIOD u) = 0 then c.put (TGT_TRIG_CTRL_ARM u) false
      else c.setInstant u (next (b.trigTime u) (b.rd (TGT_TRIG_PERIOD_PERIOD u)) (b.trigTick u)) := hc ▸ rfl
  rw [hmarked]
  by_cases hperiod : b.rd (TGT_TRIG_PERIOD_PERIOD u) = 0
  · rw [if_pos hperiod]
    have hput : sameOn (fun a => a ≠ TGT_TRIG_CTRL_at u) c (c.put (TGT_TRIG_CTRL_ARM u) false) := put_sameOn c false fun h => h rfl
    refine ⟨_, rfl, (is_of_sameOn hput (f := TGT_TRIG_STATUS_FIRED u) hctrl.1.symm).trans hfired,
      (rd_of_sameOn hput (f := TGT_TRIG_COUNT_COUNT u) hctrl.2.symm).trans hcount,
      fun _ => ⟨is_put c (TGT_TRIG_CTRL_ARM u) false (Nat.le_of_ble_eq_true rfl) Nat.one_pos, ?_⟩, fun h => absurd hperiod h, ⟨fun a ha => ?_, fun f hf hbits => ?_⟩,
      (is_of_sameOn hput (f := TGT_TRIG_STATUS_LATE u) hctrl.1.symm).trans hlate, ?_⟩
    · refine (trigTime_of_words hput ?_ ?_).trans (trigTime_of_words hwords ?_ ?_) <;>
        simp only [TGT_TRIG_TIME_LO_at, TGT_TRIG_TIME_HI_at, TGT_TRIG_STATUS_at, TGT_TRIG_COUNT_at, TGT_TRIG_CTRL_at] <;> omega
    · obtain ⟨hctrl, hstatus, hcount, -⟩ := keptWord_ne ha
      exact (hput a hctrl).trans (hwords a ⟨hstatus, hcount⟩)
    · refine (rd_put_apart (f := TGT_TRIG_CTRL_ARM u) c false ⟨Nat.le_of_ble_eq_true rfl, .inr hbits⟩).trans (rd_of_sameOn hwords ?_)
      rw [hf]
      exact hctrl
    · rw [hframe]
      exact ⟨_, rfl⟩
  · rw [if_neg hperiod]
    obtain ⟨htime, hskipped, hset, hkept, hregs⟩ := setInstant_shows c u (next (b.trigTime u) (b.rd (TGT_TRIG_PERIOD_PERIOD u)) (b.trigTick u))
    obtain ⟨d, hd⟩ : ∃ d, c.setInstant u (next (b.trigTime u) (b.rd (TGT_TRIG_PERIOD_PERIOD u)) (b.trigTick u)) = d := ⟨_, rfl⟩
    rw [hd] at htime hskipped hset hkept hregs
    have hrd {f : Fld} (hf : f.addr = TGT_TRIG_CTRL_at u) : d.rd f = b.rd f := by
      refine (rd_of_sameOn hset ?_).trans (rd_of_sameOn hwords (hf ▸ hctrl))
      rw [hf]
      unfold TGT_TRIG_CTRL_at TGT_TRIG_TIME_LO_at TGT_TRIG_TIME_HI_at TGT_TRIG_STATUS_at
      omega
    refine ⟨d, hd, (congrArg (· != 0) (hkept (TGT_TRIG_STATUS_FIRED u) rfl (.inl (Nat.le_of_ble_eq_true rfl)))).trans hfired, (rd_of_sameOn hset (f := TGT_TRIG_COUNT_COUNT u) ?_).trans hcount, fun h => absurd h hperiod,
      fun _ => ⟨congrArg (· != 0) (hrd (f := TGT_TRIG_CTRL_ARM u) rfl), htime, hskipped⟩, ⟨fun a ha => ?_, fun f hf _ => hrd hf⟩,
      (congrArg (· != 0) (hkept (TGT_TRIG_STATUS_LATE u) rfl (.inr (Nat.le_of_ble_eq_true rfl)))).trans hlate, ?_⟩
    · show TGT_TRIG_COUNT_at u ≠ TGT_TRIG_TIME_LO_at u ∧ TGT_TRIG_COUNT_at u ≠ TGT_TRIG_TIME_HI_at u ∧ TGT_TRIG_COUNT_at u ≠ TGT_TRIG_STATUS_at u
      unfold TGT_TRIG_COUNT_at TGT_TRIG_TIME_LO_at TGT_TRIG_TIME_HI_at TGT_TRIG_STATUS_at
      omega
    · obtain ⟨-, hstatus, hcount, hlo, hhi⟩ := keptWord_ne ha
      exact (hset a ⟨hlo, hhi, hstatus⟩).trans (hwords a ⟨hstatus, hcount⟩)
    · obtain ⟨g', hg'⟩ := hregs
      rw [hg', hframe]
      exact ⟨_, rfl⟩

/-! ### What an action leaves -/

/-- A word that neither a count of an engine's page nor a snapshot writes; the causes of Tightrope's page are one. -/
abbrev fireWord (a : Nat) : Prop := (((0x100 ≤ a % 0x10000 ∧ a % 0x10000 < 0x1000) ∨ 0x1400 ≤ a % 0x10000) ∧ a / 0x10000 ≠ 0xF2) ∨ a = 0x90010

/-- A count at the page of an engine that TARGET can name. -/
theorem count_fireWord (b : Box) {p : Nat} (hp : p / 256 < 1024) (hten : p % 256 = 0x0A) {i : Nat} (hi : i < 4096) : sameOn fireWord b (b.count p i) := by
  refine sameOn_of_sameWords (bump_sameWords b p i 1) fun a ha => ?_
  have hmod := pageBase_mod p
  have hvector : pageVector p < 16448 := by
    unfold pageVector
    split
    · split <;> omega
    · omega
  have hbase : pageBase p ≠ 0x90000 := by
    unfold pageBase
    split <;> omega
  simp only [causeWords, ovfFld, pageFld, List.mem_cons, List.not_mem_nil, or_false] at ha
  omega

/-- What a firing moves beside registers. -/
def fireFrame (b c : Box) : Prop := ∃ r o m pn l g w sh sw cp ct, c = { b with
  regs := r, outbox := o, ctrs := m, pins := pn, launches := l, engines := g, fwdSw := w, snapHad := sh, snapWait := sw, copying := cp, copyTick := ct }

/-- What an engine's converters and heaters do at a firing leaves this. -/
structure EngineFires (b c : Box) : Prop where
  frame : ∃ r o m g, c = { b with regs := r, outbox := o, ctrs := m, engines := g }
  words : sameOn fireWord b c
  heats : ∀ e, (b.engine e).heatRun = true → (c.engine e).heatRun = true
  late : c.ctr tgtPage 2 = b.ctr tgtPage 2

theorem EngineFires.refl (b : Box) : EngineFires b b := ⟨⟨_, _, _, _, rfl⟩, sameOn_refl _ b, fun _ h => h, rfl⟩

theorem engineSet_fires (b : Box) (e : Nat) {x : Engine} (h : (b.engine e).heatRun = true → x.heatRun = true) : EngineFires b (b.setEngine e x) := by
  refine ⟨⟨_, _, _, _, rfl⟩, sameOn_of_regs rfl, fun e' he' => ?_, rfl⟩
  by_cases hee : e' = e
  · subst hee
    exact (congrArg Engine.heatRun (engine_setEngine b e' x)).trans (h he')
  · exact (congrArg Engine.heatRun (mapGet_mapSet_other _ _ _ hee : (b.setEngine e x).engine e' = b.engine e')).trans he'

theorem engineCounted_fires (b : Box) {e i : Nat} (he : e < 2048) (hi : i < 4096) {x : Engine} (h : (b.engine e).heatRun = true → x.heatRun = true) :
    EngineFires b ((b.count (sptPage (e / 2)) i).setEngine e x) := by
  have hpage : sptPage (e / 2) / 256 < 1024 := by
    show (256 * (e / 2) + 0x0A) / 256 < 1024
    omega
  have hwords := count_fireWord b hpage (show (256 * (e / 2) + 0x0A) % 256 = 0x0A by omega) hi
  have hlate : (b.count (sptPage (e / 2)) i).ctr tgtPage 2 = b.ctr tgtPage 2 := by
    refine ctr_bump_other b _ _ i 2 1 ?_
    show (256 * 8 + 0x09) * 4096 + 2 ≠ (256 * (e / 2) + 0x0A) * 4096 + i
    omega
  obtain ⟨r, o, m, hcount⟩ := bump_onlyRegsCtrs b (sptPage (e / 2)) i 1
  change b.count _ _ = _ at hcount
  rw [hcount] at hwords hlate ⊢
  obtain ⟨⟨_, _, _, _, hframe⟩, kwords, kheats, klate⟩ := engineSet_fires { b with regs := r, outbox := o, ctrs := m } e h
  exact ⟨⟨_, _, _, _, hframe⟩, sameOn_trans hwords kwords, kheats, klate.trans hlate⟩

theorem heatFire_fires (b : Box) {e : Nat} (he : e < 2048) : EngineFires b (b.heatFire e)
    ∧ (b.is (SPT_HEAT_CTRL_SRC e) = true → ((b.heatFire e).engine e).heatRun = true) := by
  unfold Box.heatFire
  dsimp only
  split
  · next h => exact ⟨EngineFires.refl b, fun hsrc => absurd (hsrc.symm.trans h) (by decide)⟩
  · split
    · next hheat => exact ⟨engineCounted_fires b he (by omega) fun h => h, fun _ => (congrArg Engine.heatRun (engine_setEngine _ e _)).trans hheat⟩
    · exact ⟨engineSet_fires b e fun _ => rfl, fun _ => congrArg Engine.heatRun (engine_setEngine b e _)⟩

theorem monFire_fires (b : Box) {e : Nat} (he : e < 2048) : EngineFires b (b.monFire e) := by
  unfold Box.monFire
  dsimp only
  split
  · exact EngineFires.refl b
  · split
    · exact engineCounted_fires b he (by omega) fun h => h
    · exact engineSet_fires b e fun h => h

end Sys2Proof.Proofs
end

section
/-! # What a trigger unit's firing shows (09_network_time.md R278, R279, R385) -/

namespace Sys2Proof.Proofs

open Sys2Proof Sys2Proof.Machine Sys2Proof.Safety Sys2Proof.Laws

/-! ### The action -/

theorem pinFire_frame (b : Box) (u at_ : Nat) : ∃ p o, b.pinFire u at_ = { b with pins := p, outbox := o } := by
  unfold Box.pinFire
  dsimp only
  split <;> exact ⟨_, _, rfl⟩

/-- What the action of a firing moves, and what of the engines it keeps. -/
structure ActionShows (b : Box) (u at_ : Nat) (c : Box) : Prop where
  frame : ∃ r o m p g l, c = { b with regs := r, outbox := o, ctrs := m, pins := p, engines := g, launches := l }
  words : sameOn fireWord b c
  heats : ∀ e, (b.engine e).heatRun = true → (c.engine e).heatRun = true
  late : c.ctr tgtPage 2 = b.ctr tgtPage 2
  heat : b.rd (TGT_TRIG_CTRL_ACTION u) = 3 → b.is (SPT_HEAT_CTRL_SRC (b.rd (TGT_TRIG_CTRL_TARGET u))) = true →
    (c.engine (b.rd (TGT_TRIG_CTRL_TARGET u))).heatRun = true
  pins : c.pins = if b.rd (TGT_TRIG_CTRL_ACTION u) = 1 then (b.pinFire u at_).pins else b.pins
  launch : b.rd (TGT_TRIG_CTRL_ACTION u) = 4 → ∃ f, c.launches = b.launches
    ++ [⟨b.rd (TGT_TRIG_CTRL_TARGET u), u, f, b.tent32 (b.rd (TGT_TRIG_CTRL_TARGET u) / 256) 0⟩]
  launches : b.rd (TGT_TRIG_CTRL_ACTION u) ≠ 4 → c.launches = b.launches

/-- The action of engines. -/
theorem EngineFires.action {b c : Box} {u at_ : Nat} (h : EngineFires b c) (hone : b.rd (TGT_TRIG_CTRL_ACTION u) ≠ 1)
    (hfour : b.rd (TGT_TRIG_CTRL_ACTION u) ≠ 4) (hheat : b.rd (TGT_TRIG_CTRL_ACTION u) = 3 → b.is (SPT_HEAT_CTRL_SRC (b.rd (TGT_TRIG_CTRL_TARGET u))) = true →
      (c.engine (b.rd (TGT_TRIG_CTRL_TARGET u))).heatRun = true) : ActionShows b u at_ c := by
  obtain ⟨⟨r, o, m, g, hframe⟩, hwords, hheats, hlate⟩ := h
  refine ⟨⟨r, o, m, b.pins, g, b.launches, hframe⟩, hwords, hheats, hlate, hheat, ?_, fun h => absurd h hfour, fun _ => by rw [hframe]⟩
  rw [if_neg hone, hframe]

theorem trigAction_shows (b : Box) (u at_ : Nat) : ActionShows b u at_ (b.trigAction u at_) := by
  have htgt : b.rd (TGT_TRIG_CTRL_TARGET u) < 2 ^ 11 := wordField_lt _ _ _
  unfold Box.trigAction
  dsimp only
  split
  · next h =>
    obtain ⟨p, o, hpin⟩ := pinFire_frame b u at_
    have hpins : (b.pinFire u at_).pins = if b.rd (TGT_TRIG_CTRL_ACTION u) = 1 then (b.pinFire u at_).pins else b.pins := (if_pos h).symm
    refine ⟨?_, ?_, ?_, ?_, fun h3 => absurd (h.symm.trans h3) (by decide), hpins, fun h4 => absurd (h.symm.trans h4) (by decide), fun _ => ?_⟩
    · exact ⟨_, _, _, _, _, _, hpin⟩
    · exact sameOn_of_regs (by rw [hpin])
    · intro e he
      rw [hpin]
      exact he
    · rw [hpin]
      rfl
    · rw [hpin]
  · next h => exact (monFire_fires b htgt).action (by omega) (by omega) fun h3 => absurd (h.symm.trans h3) (by decide)
  · next h => exact (heatFire_fires b htgt).1.action (by omega) (by omega) fun _ => (heatFire_fires b htgt).2
  · next h =>
    refine ⟨⟨_, _, _, _, _, _, rfl⟩, sameOn_of_regs rfl, fun _ h => h, rfl, fun h3 => absurd (h.symm.trans h3) (by decide), ?_, fun _ => ⟨_, rfl⟩,
      fun h4 => absurd h h4⟩
    rw [if_neg (by omega)]
  · next h1 h2 h3 h4 => exact (EngineFires.refl b).action h1 h4 fun h => absurd h h3

/-! ### Snapshots -/

/-- What a snapshot that starts leaves. -/
def SnapKeeps (b c : Box) : Prop := (∃ r sh sw cp ct, c = { b with regs := r, snapHad := sh, snapWait := sw, copying := cp, copyTick := ct })
  ∧ sameOn fireWord b c

theorem SnapKeeps.refl (b : Box) : SnapKeeps b b := ⟨⟨_, _, _, _, _, rfl⟩, sameOn_refl _ b⟩

theorem SnapKeeps.trans {b c d : Box} (h : SnapKeeps b c) (k : SnapKeeps c d) : SnapKeeps b d := by
  obtain ⟨⟨_, _, _, _, _, rfl⟩, hwords⟩ := h
  obtain ⟨⟨_, _, _, _, _, rfl⟩, kwords⟩ := k
  exact ⟨⟨_, _, _, _, _, rfl⟩, sameOn_trans hwords kwords⟩

theorem snapTake_keeps (b : Box) (p : Nat) : SnapKeeps b (b.snapTake p) := by
  have hstatus {f : Fld} (hf : f.addr = pageBase p + 0x1004) : ¬ fireWord f.addr := by
    have hmod := pageBase_mod p
    rw [hf]
    omega
  unfold Box.snapTake
  split
  · exact ⟨⟨_, _, _, _, _, rfl⟩, put_sameOn b true (hstatus rfl)⟩
  · exact ⟨⟨_, _, _, _, _, rfl⟩, sameOn_trans (put_sameOn b (f := CNT_STATUS_BUSY p) true (hstatus rfl)) (sameOn_of_regs rfl)⟩

theorem snapTrigger_keeps (b : Box) (u i : Nat) : SnapKeeps b (b.snapTrigger u i) := by
  unfold Box.snapTrigger
  refine foldl_rel SnapKeeps.refl SnapKeeps.trans _ (fun c p _ => ?_) b
  split
  · exact ⟨⟨_, _, _, _, _, rfl⟩, sameOn_of_regs rfl⟩
  · split
    · exact snapTake_keeps c p
    · exact ⟨⟨_, _, _, _, _, rfl⟩, sameOn_of_regs rfl⟩

theorem fwdTrigger_frame (b : Box) (u i : Nat) : ∃ w, b.fwdTrigger u i = { b with fwdSw := w } := by
  unfold Box.fwdTrigger
  split
  · split <;> exact ⟨_, rfl⟩
  · exact ⟨_, rfl⟩

/-! ### A firing -/

theorem pinFire_of_marked {b c : Box} {u : Nat} (hu : u < 32) (h : unitKept u b c) (hpins : c.pins = b.pins) (at_ : Nat) :
    (c.pinFire u at_).pins = (b.pinFire u at_).pins := by
  obtain ⟨hwords, hctrl⟩ := h
  have hpin : c.rd (TGT_TRIG_CTRL_PIN u) = b.rd (TGT_TRIG_CTRL_PIN u) := hctrl (TGT_TRIG_CTRL_PIN u) rfl (.inl (Nat.le_of_ble_eq_true rfl))
  have hmode : c.rd (TGT_PIN_CFG_MODE (b.rd (TGT_TRIG_CTRL_PIN u))) = b.rd (TGT_PIN_CFG_MODE (b.rd (TGT_TRIG_CTRL_PIN u))) := by
    refine rd_of_sameOn hwords (.inl ?_)
    have hlt : b.rd (TGT_TRIG_CTRL_PIN u) < 2 ^ 3 := wordField_lt _ _ _
    show ¬ unitWord u (0x90200 + 4 * b.rd (TGT_TRIG_CTRL_PIN u))
    omega
  have hwidth : c.rd (TGT_TRIG_WIDTH_WIDTH u) = b.rd (TGT_TRIG_WIDTH_WIDTH u) := rd_of_sameOn hwords (f := TGT_TRIG_WIDTH_WIDTH u) (.inr (.inr (.inr rfl)))
  have hrecord (i : Nat) : c.timePin i = b.timePin i := by rw [Box.timePin, Box.timePin, hpins]
  unfold Box.pinFire
  dsimp only
  rw [hpin, hmode, hwidth, hrecord]
  split
  · exact congrArg (mapSet _ · _ _) hpins
  · exact congrArg (mapSet _ · _ _) hpins
  · exact hpins

/-- What the firing of unit `u` at `at_` shows, the blocks that name it acting at `i`. -/
structure TrigShows (b : Box) (u at_ i : Nat) (next : Nat → Nat → Nat → Nat × Bool) (c : Box) : Prop where
  frame : fireFrame b c
  words : sameOn (fun a => fireWord a ∧ (¬ unitWord u a ∨ a = TGT_TRIG_SUB_at u ∨ a = TGT_TRIG_PERIOD_at u ∨ a = TGT_TRIG_WIDTH_at u)) b c
  ctrl : ∀ f : Fld, f.addr = TGT_TRIG_CTRL_at u → f.lo + f.width ≤ 29 ∨ 30 ≤ f.lo → c.rd f = b.rd f
  fired : c.is (TGT_TRIG_STATUS_FIRED u) = true
  count : c.rd (TGT_TRIG_COUNT_COUNT u) = (b.rd (TGT_TRIG_COUNT_COUNT u) + 1) % 2 ^ 32
  once : b.rd (TGT_TRIG_PERIOD_PERIOD u) = 0 → c.is (TGT_TRIG_CTRL_ARM u) = false ∧ c.trigTime u = b.trigTime u
  again : b.rd (TGT_TRIG_PERIOD_PERIOD u) ≠ 0 → c.is (TGT_TRIG_CTRL_ARM u) = b.is (TGT_TRIG_CTRL_ARM u)
    ∧ c.trigTime u = (next (b.trigTime u) (b.rd (TGT_TRIG_PERIOD_PERIOD u)) (b.trigTick u)).1 % 2 ^ 64
    ∧ ((next (b.trigTime u) (b.rd (TGT_TRIG_PERIOD_PERIOD u)) (b.trigTick u)).2 = true → c.is (TGT_TRIG_STATUS_SKIPPED u) = true)
  heats : ∀ e, (b.engine e).heatRun = true → (c.engine e).heatRun = true
  late : c.ctr tgtPage 2 = b.ctr tgtPage 2
  heat : b.rd (TGT_TRIG_CTRL_ACTION u) = 3 → b.is (SPT_HEAT_CTRL_SRC (b.rd (TGT_TRIG_CTRL_TARGET u))) = true →
    (c.engine (b.rd (TGT_TRIG_CTRL_TARGET u))).heatRun = true
  pins : c.pins = if b.rd (TGT_TRIG_CTRL_ACTION u) = 1 then (b.pinFire u at_).pins else b.pins
  launch : b.rd (TGT_TRIG_CTRL_ACTION u) = 4 → ∃ f, c.launches = b.launches
    ++ [⟨b.rd (TGT_TRIG_CTRL_TARGET u), u, f, b.tent32 (b.rd (TGT_TRIG_CTRL_TARGET u) / 256) 0⟩]
  launches : b.rd (TGT_TRIG_CTRL_ACTION u) ≠ 4 → c.launches = b.launches
  lates : c.is (TGT_TRIG_STATUS_LATE u) = b.is (TGT_TRIG_STATUS_LATE u)
  switch : c.fwdSw = (b.fwdTrigger u i).fwdSw

theorem unitWord_fire {u a : Nat} (hu : u < 32) (h : unitWord u a) : fireWord a := by
  obtain ⟨hlo, hhi⟩ := h
  omega

theorem trigRun_shows (b : Box) {u : Nat} (hu : u < 32) (at_ : Nat) (next : Nat → Nat → Nat → Nat × Bool) :
    TrigShows b u at_ (if b.trigTime u ≤ b.trigTick u then b.trigTime u else 0) next (b.trigRun u at_ next) := by
  generalize hi : (if b.trigTime u ≤ b.trigTick u then b.trigTime u else 0) = i
  have hrun : b.trigRun u at_ next = (((trigMarked b u next).trigAction u at_).fwdTrigger u i).snapTrigger u i := hi ▸ rfl
  obtain ⟨c, hc, hfired, hcount, honce, hagain, hkept, hlates, g, hframe⟩ := trigMarked_shows b u next
  obtain ⟨⟨r, o, m, pn, g', l, haframe⟩, hawords, hheats, hlate, hheat, hpins, hlaunch, hlaunches⟩ := trigAction_shows c u at_
  rw [hc] at hrun
  obtain ⟨d, hd⟩ : ∃ d, c.trigAction u at_ = d := ⟨_, rfl⟩
  rw [hd] at hrun haframe hawords hheats hlate hheat hpins hlaunch hlaunches
  obtain ⟨w, hw⟩ := fwdTrigger_frame d u i
  have hswitch : (d.fwdTrigger u i).fwdSw = (b.fwdTrigger u i).fwdSw := by
    have hsw : d.fwdSw = b.fwdSw := by rw [haframe, hframe]
    unfold Box.fwdTrigger
    rw [hsw]
    cases h : b.fwdSw with
    | none => exact hsw
    | some w =>
      dsimp only
      split
      · rfl
      · exact hsw
  obtain ⟨⟨r', sh, sw, cp, ct, hsframe⟩, hswords⟩ := snapTrigger_keeps (d.fwdTrigger u i) u i
  obtain ⟨x, hx⟩ : ∃ x, (d.fwdTrigger u i).snapTrigger u i = x := ⟨_, rfl⟩
  rw [hx] at hrun hsframe hswords
  rw [hrun]
  have hlast : sameOn fireWord c x := sameOn_trans hawords (sameOn_trans (sameOn_of_regs (t := d.fwdTrigger u i) (by rw [hw])) hswords)
  have hunit {f : Fld} (hf : unitWord u f.addr) : x.rd f = c.rd f := rd_of_sameOn hlast (unitWord_fire hu hf)
  have htime : x.trigTime u = c.trigTime u := trigTime_of_words hlast (unitWord_fire hu (by unfold TGT_TRIG_TIME_LO_at; omega))
    (unitWord_fire hu (by unfold TGT_TRIG_TIME_HI_at; omega))
  have harm : x.is (TGT_TRIG_CTRL_ARM u) = c.is (TGT_TRIG_CTRL_ARM u) :=
    congrArg (· != 0) (hunit (f := TGT_TRIG_CTRL_ARM u) (show unitWord u (TGT_TRIG_CTRL_at u) by unfold TGT_TRIG_CTRL_at; omega))
  have hstatus : unitWord u (TGT_TRIG_STATUS_at u) := by unfold TGT_TRIG_STATUS_at; omega
  have haction : c.rd (TGT_TRIG_CTRL_ACTION u) = b.rd (TGT_TRIG_CTRL_ACTION u) := hkept.2 (TGT_TRIG_CTRL_ACTION u) rfl (.inl (Nat.le_of_ble_eq_true rfl))
  have htarget : c.rd (TGT_TRIG_CTRL_TARGET u) = b.rd (TGT_TRIG_CTRL_TARGET u) := hkept.2 (TGT_TRIG_CTRL_TARGET u) rfl (.inl (Nat.le_of_ble_eq_true rfl))
  have hsource (e : Nat) : c.is (SPT_HEAT_CTRL_SRC e) = b.is (SPT_HEAT_CTRL_SRC e) := by
    refine is_of_sameOn hkept.1 (.inl ?_)
    show ¬ unitWord u (0x1000000 * (e / 2 + 1) + 0xA0140 + 64 * (e % 2))
    omega
  have hengines (e : Nat) : x.engine e = d.engine e := engine_of_engines (by rw [hsframe, hw]) e
  have hbefore (e : Nat) : c.engine e = b.engine e := engine_of_engines (by rw [hframe]) e
  have hsame {α : Type} {F : Box → α} (hF : ∀ (y : Box) r sh sw cp ct w, F { y with
      regs := r, fwdSw := w, snapHad := sh, snapWait := sw, copying := cp, copyTick := ct } = F y) : F x = F d := by
    rw [hsframe, hw]
    exact hF d r' sh sw cp ct w
  have hpinned := pinFire_of_marked hu hkept (by rw [hframe]) at_
  rw [haction, htarget] at hlaunch
  rw [haction, htarget, hsource] at hheat
  rw [haction] at hlaunches
  rw [haction, hpinned] at hpins
  have htent : c.tent32 (b.rd (TGT_TRIG_CTRL_TARGET u) / 256) 0 = b.tent32 (b.rd (TGT_TRIG_CTRL_TARGET u) / 256) 0 := by rw [hframe]; rfl
  have hcl : c.launches = b.launches := by rw [hframe]
  rw [htent, hcl] at hlaunch
  refine ⟨?_, fun a ha => (hlast a ha.1).trans (hkept.1 a ha.2), fun f hf hbits => (hunit ?_).trans (hkept.2 f hf hbits),
    (congrArg (· != 0) (hunit (f := TGT_TRIG_STATUS_FIRED u) hstatus)).trans hfired,
    (hunit (f := TGT_TRIG_COUNT_COUNT u) (show unitWord u (TGT_TRIG_COUNT_at u) by unfold TGT_TRIG_COUNT_at; omega)).trans hcount,
    fun h => ⟨harm.trans (honce h).1, htime.trans (honce h).2⟩, fun h => ?_, fun e he => ?_, ?_, fun h3 hsrc => ?_, ?_, fun h4 => ?_, fun h4 => ?_,
    (congrArg (· != 0) (hunit (f := TGT_TRIG_STATUS_LATE u) hstatus)).trans hlates, ?_⟩
  · rw [hsframe, hw, haframe, hframe]
    exact ⟨_, _, _, _, _, _, _, _, _, _, _, rfl⟩
  · rw [hf]
    unfold TGT_TRIG_CTRL_at
    omega
  · obtain ⟨harmed, hnext, hskipped⟩ := hagain h
    exact ⟨harm.trans harmed, htime.trans hnext, fun h' => (congrArg (· != 0) (hunit (f := TGT_TRIG_STATUS_SKIPPED u) hstatus)).trans (hskipped h')⟩
  · rw [hengines]
    exact hheats e (by rw [hbefore]; exact he)
  · exact (hsame (F := fun y => y.ctr tgtPage 2) fun _ _ _ _ _ _ _ => rfl).trans (hlate.trans (by rw [hframe]; rfl))
  · rw [hengines]
    exact hheat h3 hsrc
  · refine (hsame (F := Box.pins) fun _ _ _ _ _ _ _ => rfl).trans (hpins.trans ?_)
    rw [hframe]
  · obtain ⟨f, hf⟩ := hlaunch h4
    exact ⟨f, (hsame (F := Box.launches) fun _ _ _ _ _ _ _ => rfl).trans hf⟩
  · exact (hsame (F := Box.launches) fun _ _ _ _ _ _ _ => rfl).trans ((hlaunches h4).trans hcl)
  · exact (congrArg Box.fwdSw hsframe).trans hswitch

end Sys2Proof.Proofs
end

section
/-! # TRIGGER_FIRE (09_network_time.md R279) -/

namespace Sys2Proof.Proofs

open Sys2Proof Sys2Proof.Machine Sys2Proof.Safety Sys2Proof.Laws

/-! ### The units that fire before -/

/-- What the firing of other units leaves of unit `u`, and of what all units do. -/
structure FiresKeep (u : Nat) (b c : Box) : Prop where
  frame : fireFrame b c
  words : sameOn (fun a => unitWord u a ∨ (fireWord a ∧ ¬ (0x98000 ≤ a ∧ a < 0x98400))) b c
  ctrl : ∀ w, w < 32 → ∀ f : Fld, f.addr = TGT_TRIG_CTRL_at w → f.lo + f.width ≤ 29 ∨ 30 ≤ f.lo → c.rd f = b.rd f
  heats : ∀ e, (b.engine e).heatRun = true → (c.engine e).heatRun = true
  late : c.ctr tgtPage 2 = b.ctr tgtPage 2

theorem fireFrame_refl (b : Box) : fireFrame b b := ⟨_, _, _, _, _, _, _, _, _, _, _, rfl⟩

theorem fireFrame_trans {b c d : Box} (h : fireFrame b c) (k : fireFrame c d) : fireFrame b d := by
  obtain ⟨_, _, _, _, _, _, _, _, _, _, _, rfl⟩ := h
  obtain ⟨_, _, _, _, _, _, _, _, _, _, _, rfl⟩ := k
  exact ⟨_, _, _, _, _, _, _, _, _, _, _, rfl⟩

theorem FiresKeep.refl (u : Nat) (b : Box) : FiresKeep u b b :=
  ⟨fireFrame_refl b, sameOn_refl _ b, fun _ _ _ _ _ => rfl, fun _ h => h, rfl⟩

theorem FiresKeep.trans {u : Nat} {b c d : Box} (h : FiresKeep u b c) (k : FiresKeep u c d) : FiresKeep u b d :=
  ⟨fireFrame_trans h.frame k.frame, sameOn_trans h.words k.words, fun w hw f hf hbits => (k.ctrl w hw f hf hbits).trans (h.ctrl w hw f hf hbits),
    fun e he => k.heats e (h.heats e he), k.late.trans h.late⟩

theorem TrigShows.keeps {b c : Box} {u v at_ i : Nat} {next : Nat → Nat → Nat → Nat × Bool} (hu : u < 32) (hv : v < 32) (hne : u ≠ v)
    (h : TrigShows b v at_ i next c) : FiresKeep u b c := by
  refine ⟨h.frame, fun a ha => h.words a ?_, fun w hw f hf hbits => ?_, h.heats, h.late⟩
  · rcases ha with ha | ⟨hfire, hout⟩
    · exact ⟨unitWord_fire hu ha, .inl (by omega)⟩
    · exact ⟨hfire, .inl (by omega)⟩
  · by_cases hwv : w = v
    · subst hwv
      exact h.ctrl f hf hbits
    · have hunit : unitWord w f.addr := by
        rw [hf]
        unfold TGT_TRIG_CTRL_at
        omega
      exact rd_of_sameOn h.words ⟨unitWord_fire hw hunit, .inl (by omega)⟩

/-- A unit's instant and its counter's tick, after others have fired. -/
theorem FiresKeep.time {u : Nat} (hu : u < 32) {b c : Box} (h : FiresKeep u b c) : c.trigTime u = b.trigTime u ∧ c.trigTick u = b.trigTick u := by
  refine ⟨trigTime_of_words h.words (.inl ?_) (.inl ?_), ?_⟩
  · unfold TGT_TRIG_TIME_LO_at
    omega
  · unfold TGT_TRIG_TIME_HI_at
    omega
  · have haction := h.ctrl u hu (TGT_TRIG_CTRL_ACTION u) rfl (.inl (Nat.le_of_ble_eq_true rfl))
    have htarget := h.ctrl u hu (TGT_TRIG_CTRL_TARGET u) rfl (.inl (Nat.le_of_ble_eq_true rfl))
    obtain ⟨_, _, _, _, _, _, _, _, _, _, _, hframe⟩ := h.frame
    rw [Box.trigTick, Box.trigTick, haction, htarget, hframe]
    rfl

/-- The units that act on what a unit acts on have an action of its kind. -/
theorem trigTarget_kind {b : Box} {u v : Nat} (h : b.trigTarget v = b.trigTarget u) :
    (b.rd (TGT_TRIG_CTRL_ACTION u) ≠ 1 → b.rd (TGT_TRIG_CTRL_ACTION v) ≠ 1) ∧ (b.rd (TGT_TRIG_CTRL_ACTION u) ≠ 4 → b.rd (TGT_TRIG_CTRL_ACTION v) ≠ 4) := by
  have hkind (w : Nat) : ((b.trigTarget w).1 = 1 ↔ b.rd (TGT_TRIG_CTRL_ACTION w) = 1) ∧ ((b.trigTarget w).1 = 4 ↔ b.rd (TGT_TRIG_CTRL_ACTION w) = 4) := by
    unfold Box.trigTarget
    split <;> simp_all
  exact ⟨fun hu hv => hu ((hkind u).1.mp (h ▸ (hkind v).1.mpr hv)), fun hu hv => hu ((hkind u).2.mp (h ▸ (hkind v).2.mpr hv))⟩

/-! ### A unit whose instant has been reached -/

/-- The lower-numbered units that fire at the tick of unit `u` on its target. -/
def firesBefore (b : Box) (u : Nat) : List Nat := (List.range u).filter fun v => b.trigDue v && b.trigTarget v == b.trigTarget u && b.trigAt v == b.trigAt u

/-- One unit's firing in its turn. -/
def fireTurn (b : Box) (v : Nat) : Box := b.trigRun v (32 * b.trigTime v + b.rd (TGT_TRIG_SUB_SUB v)) nextInstant

theorem trigFire_eq {b : Box} {u : Nat} (h : b.trigDue u = true) : b.trigFire u = fireTurn ((firesBefore b u).foldl fireTurn b) u := by
  unfold Box.trigFire firesBefore
  rw [if_pos h, List.range_succ, List.filter_append, List.filter_singleton]
  simp only [h, beq_self_eq_true, Bool.and_self, cond_true, List.foldl_append, List.foldl_cons, List.foldl_nil]
  rfl

/-- What the lower-numbered units' firing leaves. -/
theorem firesBefore_keep (b : Box) {u : Nat} (hu : u < 32) : FiresKeep u b ((firesBefore b u).foldl fireTurn b)
    ∧ (b.rd (TGT_TRIG_CTRL_ACTION u) ≠ 1 → ((firesBefore b u).foldl fireTurn b).pins = b.pins)
    ∧ (b.rd (TGT_TRIG_CTRL_ACTION u) ≠ 4 → ((firesBefore b u).foldl fireTurn b).launches = b.launches) := by
  refine List.foldlRecOn (motive := fun c => FiresKeep u b c ∧ (b.rd (TGT_TRIG_CTRL_ACTION u) ≠ 1 → c.pins = b.pins)
    ∧ (b.rd (TGT_TRIG_CTRL_ACTION u) ≠ 4 → c.launches = b.launches)) (firesBefore b u) fireTurn ⟨FiresKeep.refl u b, fun _ => rfl, fun _ => rfl⟩ ?_
  rintro c ⟨hkeep, hpins, hlaunches⟩ v hv
  obtain ⟨hlow, hsame⟩ := List.mem_filter.mp hv
  have hlt : v < u := List.mem_range.mp hlow
  simp only [Bool.and_eq_true, beq_iff_eq] at hsame
  obtain ⟨hone, hfour⟩ := trigTarget_kind hsame.1.2
  have hshows := trigRun_shows c (u := v) (by omega) (32 * c.trigTime v + c.rd (TGT_TRIG_SUB_SUB v)) nextInstant
  have haction : c.rd (TGT_TRIG_CTRL_ACTION v) = b.rd (TGT_TRIG_CTRL_ACTION v) :=
    hkeep.ctrl v (by omega) (TGT_TRIG_CTRL_ACTION v) rfl (.inl (Nat.le_of_ble_eq_true rfl))
  refine ⟨hkeep.trans (hshows.keeps hu (by omega) (by omega)), fun h => ?_, fun h => ?_⟩
  · exact (hshows.pins.trans (if_neg (by rw [haction]; exact hone h))).trans (hpins h)
  · exact (hshows.launches (by rw [haction]; exact hfour h)).trans (hlaunches h)

/-- A due unit fires after the lower-numbered ones of its tick and target. -/
theorem trigFire_shows {b : Box} {u : Nat} (hu : u < 32) (h : b.trigDue u = true) : ∃ d, FiresKeep u b d
    ∧ (b.rd (TGT_TRIG_CTRL_ACTION u) ≠ 1 → d.pins = b.pins) ∧ (b.rd (TGT_TRIG_CTRL_ACTION u) ≠ 4 → d.launches = b.launches)
    ∧ ((∀ v, v < u → b.trigDue v = true → b.trigTarget v = b.trigTarget u → b.trigAt v ≠ b.trigAt u) → d = b)
    ∧ TrigShows d u (32 * b.trigTime u + b.rd (TGT_TRIG_SUB_SUB u)) (b.trigTime u) nextInstant (b.trigFire u) := by
  obtain ⟨hkeep, hpins, hlaunches⟩ := firesBefore_keep b hu
  have hfire := trigFire_eq h
  have halone : (∀ v, v < u → b.trigDue v = true → b.trigTarget v = b.trigTarget u → b.trigAt v ≠ b.trigAt u) → firesBefore b u = [] := by
    refine fun hnone => List.filter_eq_nil_iff.mpr fun v hv hdue => ?_
    simp only [Bool.and_eq_true, beq_iff_eq] at hdue
    exact hnone v (List.mem_range.mp hv) hdue.1.1 hdue.1.2 hdue.2
  refine ⟨_, hkeep, hpins, hlaunches, fun hnone => by rw [halone hnone]; rfl, ?_⟩
  obtain ⟨d, hd⟩ : ∃ d, (firesBefore b u).foldl fireTurn b = d := ⟨_, rfl⟩
  rw [hd] at hkeep hfire ⊢
  obtain ⟨htime, htick⟩ := hkeep.time hu
  have hsub : d.rd (TGT_TRIG_SUB_SUB u) = b.rd (TGT_TRIG_SUB_SUB u) := rd_of_sameOn hkeep.words (f := TGT_TRIG_SUB_SUB u)
    (.inl (show unitWord u (TGT_TRIG_SUB_at u) by unfold TGT_TRIG_SUB_at; omega))
  have hreached : b.trigTime u ≤ b.trigTick u := of_decide_eq_true (Bool.and_eq_true_iff.mp h).2
  have hshows := trigRun_shows d hu (32 * d.trigTime u + d.rd (TGT_TRIG_SUB_SUB u)) nextInstant
  rw [htime, htick, hsub, if_pos hreached] at hshows
  rw [hfire, fireTurn, htime, hsub]
  exact hshows

end Sys2Proof.Proofs
end

section
/-! # Commands of trigger units (09_network_time.md R277 to R282) -/

namespace Sys2Proof.Proofs

open Sys2Proof Sys2Proof.Machine Sys2Proof.Safety Sys2Proof.Laws

/-! ### TRIGGER_FIRE -/

theorem heatCtrl_fire (e : Nat) : fireWord (SPT_HEAT_CTRL_at e) ∧ ¬ (0x98000 ≤ SPT_HEAT_CTRL_at e ∧ SPT_HEAT_CTRL_at e < 0x98400) := by
  unfold SPT_HEAT_CTRL_at
  generalize e / 2 + 1 = t
  omega

section
variable {s : State} (hrun : s.phase = .run) (hquiet : ∀ c ∈ s.applies, s.raw < c.at_) (u : BitVec 5)
include hrun hquiet

theorem exec_triggerFire_early (h : s.is (TGT_TRIG_CTRL_ARM u.toNat) = false ∨ s.trigTick u.toNat < s.trigTime u.toNat) :
    exec (.triggerFire u) s = .next s := by
  have hdue : s.toBox.trigDue u.toNat = false := by
    unfold Box.trigDue
    rcases h with h | h
    · rw [h, Bool.false_and]
    · rw [decide_eq_false (Nat.not_le.mpr h), Bool.and_false]
  have hcmd : s.toBox.timeDue.trigFire u.toNat = s.toBox := by
    rw [timeDue_none s.toBox hquiet]
    exact if_neg (ne_true_of_eq_false hdue)
  exact next_onBox (f := fun b => b.timeDue.trigFire u.toNat) (actRun_run s _ hrun) hcmd

theorem exec_triggerFire (harm : s.is (TGT_TRIG_CTRL_ARM u.toNat) = true) (hreached : s.trigTime u.toNat ≤ s.trigTick u.toNat) :
    let n := u.toNat
    let period := s.rd (TGT_TRIG_PERIOD_PERIOD n)
    let tgt := s.rd (TGT_TRIG_CTRL_TARGET n)
    ∃ t, exec (.triggerFire u) s = .next t
      ∧ t.is (TGT_TRIG_STATUS_FIRED n) = true
      ∧ t.rd (TGT_TRIG_COUNT_COUNT n) = (s.rd (TGT_TRIG_COUNT_COUNT n) + 1) % 2 ^ 32
      ∧ (period = 0 → t.is (TGT_TRIG_CTRL_ARM n) = false ∧ t.trigTime n = s.trigTime n)
      ∧ (period ≠ 0 → t.is (TGT_TRIG_CTRL_ARM n) = true
        ∧ t.trigTime n = (nextInstant (s.trigTime n) period (s.trigTick n)).1 % 2 ^ 64
        ∧ ((nextInstant (s.trigTime n) period (s.trigTick n)).2 = true → t.is (TGT_TRIG_STATUS_SKIPPED n) = true))
      ∧ ((∀ v, v < n → s.trigDue v = true → s.trigTarget v = s.trigTarget n → s.trigAt v ≠ s.trigAt n) →
        (s.rd (TGT_TRIG_CTRL_ACTION n) = 1 → t.pins = (s.pinFire n (32 * s.trigTime n + s.rd (TGT_TRIG_SUB_SUB n))).pins)
        ∧ (s.rd (TGT_TRIG_CTRL_ACTION n) = 4 → ∃ l, t.launches = s.launches ++ [l] ∧ l.port = tgt ∧ l.unit = n
            ∧ l.at_ = s.tent32 (tgt / 256) 0)
        ∧ ∀ w, s.fwdSw = some w → t.fwdSw
          = some (if w.trig = some n ∧ w.inst = none then { w with inst := some (s.trigTime n) } else w))
      ∧ (s.rd (TGT_TRIG_CTRL_ACTION n) = 3 → s.is (SPT_HEAT_CTRL_SRC tgt) = true → (t.engine tgt).heatRun = true)
      ∧ (s.rd (TGT_TRIG_CTRL_ACTION n) ≠ 1 → t.pins = s.pins) ∧ (s.rd (TGT_TRIG_CTRL_ACTION n) ≠ 4 → t.launches = s.launches) := by
  intro n period tgt
  have hu : n < 32 := u.isLt
  have hdue : s.toBox.trigDue n = true := Bool.and_eq_true_iff.mpr ⟨harm, decide_eq_true hreached⟩
  have hcmd : s.toBox.timeDue.trigFire n = s.toBox.trigFire n := by rw [timeDue_none s.toBox hquiet]
  obtain ⟨d, hkeep, hpins, hlaunches, halone, hshows⟩ := trigFire_shows hu hdue
  obtain ⟨htime, htick⟩ := hkeep.time hu
  have hunit {f : Fld} (hf : unitWord n f.addr) : d.rd f = s.rd f := rd_of_sameOn hkeep.words (.inl hf)
  have hcount : d.rd (TGT_TRIG_COUNT_COUNT n) = s.rd (TGT_TRIG_COUNT_COUNT n) :=
    hunit (f := TGT_TRIG_COUNT_COUNT n) (show unitWord n (TGT_TRIG_COUNT_at n) by unfold TGT_TRIG_COUNT_at; omega)
  have hperiod : d.rd (TGT_TRIG_PERIOD_PERIOD n) = period :=
    hunit (f := TGT_TRIG_PERIOD_PERIOD n) (show unitWord n (TGT_TRIG_PERIOD_at n) by unfold TGT_TRIG_PERIOD_at; omega)
  have hctrl : unitWord n (TGT_TRIG_CTRL_at n) := by
    unfold TGT_TRIG_CTRL_at
    omega
  have harmed : d.is (TGT_TRIG_CTRL_ARM n) = true := (congrArg (· != 0) (hunit (f := TGT_TRIG_CTRL_ARM n) hctrl)).trans harm
  have haction : d.rd (TGT_TRIG_CTRL_ACTION n) = s.rd (TGT_TRIG_CTRL_ACTION n) := hunit (f := TGT_TRIG_CTRL_ACTION n) hctrl
  have htarget : d.rd (TGT_TRIG_CTRL_TARGET n) = tgt := hunit (f := TGT_TRIG_CTRL_TARGET n) hctrl
  have hsource : d.is (SPT_HEAT_CTRL_SRC tgt) = s.is (SPT_HEAT_CTRL_SRC tgt) := is_of_sameOn hkeep.words (.inr (heatCtrl_fire tgt))
  obtain ⟨hframe, -, -, hfired, hcounted, honce, hagain, -, -, hheat, htpins, htlaunch, htlaunches, -, hswitch⟩ := hshows
  obtain ⟨c, hc⟩ : ∃ c, s.toBox.trigFire n = c := ⟨_, rfl⟩
  rw [hc] at hframe hfired hcounted honce hagain hheat htpins htlaunch htlaunches hswitch hcmd
  rw [hcount] at hcounted
  rw [hperiod, htime] at honce
  rw [hperiod, htime, htick, harmed] at hagain
  rw [haction, htarget, hsource] at hheat
  rw [haction] at htpins htlaunches htlaunch
  rw [htarget] at htlaunch
  refine ⟨_, next_onBox (f := fun b => b.timeDue.trigFire n) (actRun_run s _ hrun) hcmd, hfired, hcounted, honce, hagain, fun hnone => ?_, hheat,
    fun h1 => (htpins.trans (if_neg h1)).trans (hpins h1), fun h4 => (htlaunches h4).trans (hlaunches h4)⟩
  have hd := halone hnone
  rw [hd] at htpins htlaunch hswitch
  refine ⟨fun h1 => htpins.trans (if_pos h1), fun h4 => ?_, fun w hw => ?_⟩
  · obtain ⟨f, hf⟩ := htlaunch h4
    exact ⟨_, hf, rfl, rfl, rfl⟩
  · refine hswitch.trans ?_
    unfold Box.fwdTrigger
    rw [show s.toBox.fwdSw = some w from hw]
    dsimp only
    split
    · rfl
    · exact hw

end

end Sys2Proof.Proofs
end

section
/-! # Writes of a trigger unit's word (09_network_time.md R277 to R279, R282) -/

namespace Sys2Proof.Proofs

open Sys2Proof Sys2Proof.Machine Sys2Proof.Safety Sys2Proof.Laws

/-! ### The word -/

theorem tgtPage_lt : tgtPage < 2304 := by decide

theorem trigCtrl_page {u : Nat} (hu : u < 32) : wordPage (TGT_TRIG_CTRL_at u) = tgtPage := by
  have hword : TGT_TRIG_CTRL_at u = pageBase tgtPage + (0x8000 + 32 * u) := by
    show 0x98000 + 32 * u = 0x90000 + (0x8000 + 32 * u)
    omega
  rw [hword, wordPage_pageBase tgtPage_lt (by omega)]

theorem trigCtrl_mask {u : Nat} (hu : u < 32) : maskAt (TGT_TRIG_CTRL_at u) = ⟨0xEFFE07FF, 0, 0, 0⟩ := by
  have h : ∀ v : Fin 32, maskAt (TGT_TRIG_CTRL_at v) = ⟨0xEFFE07FF, 0, 0, 0⟩ := by decide +kernel
  exact h ⟨u, hu⟩

/-- A word of a unit is none of Tightrope's error words. -/
theorem unitWord_not_error {u a : Nat} (hu : u < 32) (h : unitWord u a) : a ∉ errorWords tgtPage := by
  have hvector := pageVector_lt tgtPage_lt
  simp only [errorWords, causeWords, List.mem_cons, List.not_mem_nil, or_false, show pageBase tgtPage = 0x90000 from rfl]
  omega

theorem ctrl_unitWord (u : Nat) : unitWord u (TGT_TRIG_CTRL_at u) := by
  unfold TGT_TRIG_CTRL_at
  omega

theorem count_unitWord (u : Nat) : unitWord u (TGT_TRIG_COUNT_at u) := by
  unfold TGT_TRIG_COUNT_at
  omega

/-- A field of a word with ARM set is the word's, where it is not ARM. -/
theorem natField_armed (value : Word) {lo w : Nat} (h : lo + w ≤ 29 ∨ 30 ≤ lo) : natField (value ||| 0x20000000#32).toNat lo w = natField value.toNat lo w := by
  refine Nat.eq_of_testBit_eq fun i => ?_
  rw [natField_testBit, natField_testBit, BitVec.toNat_or, Nat.testBit_or, show (0x20000000#32).toNat = 2 ^ 29 from rfl, Nat.testBit_two_pow]
  by_cases hi : i < w
  · rw [decide_eq_false (by omega : ¬ 29 = lo + i), Bool.or_false]
  · rw [decide_eq_false hi, Bool.false_and, Bool.false_and]

theorem testBit_armed (value : Word) : (value ||| 0x20000000#32).toNat.testBit 29 = true := by
  rw [BitVec.toNat_or, Nat.testBit_or, show (0x20000000#32).toNat = 2 ^ 29 from rfl, Nat.testBit_two_pow, decide_eq_true rfl, Bool.or_true]

/-! ### A write that is taken -/

/-- A unit's word as written, ARM clear. -/
def trigWritten (b : Box) (src : Requester) (u v : Nat) : Box := (b.plainWrite src (TGT_TRIG_CTRL_at u) v).put (TGT_TRIG_CTRL_ARM u) false

theorem trigWritten_shows (b : Box) (src : Requester) {u : Nat} (hu : u < 32) (v : Nat) : ∃ c, trigWritten b src u v = c
    ∧ c.is (TGT_TRIG_CTRL_ARM u) = false ∧ c.rd (TGT_TRIG_CTRL_OWNER u) = natField v 30 2 ∧ c.rd (TGT_TRIG_CTRL_ACTION u) = natField v 24 4
    ∧ sameWords (TGT_TRIG_CTRL_at u :: errorWords tgtPage) b c ∧ ∃ r o, c = { b with regs := r, outbox := o } := by
  have hmask := trigCtrl_mask hu
  have hrw {lo w : Nat} (hall : (List.range w).all (fun i => Nat.testBit 0xEFFE07FF (lo + i)) = true) (i : Nat) (hi : i < w) :
      (maskAt (TGT_TRIG_CTRL_at u)).rw.testBit (lo + i) = true := by
    rw [hmask]
    exact List.all_eq_true.mp hall i (List.mem_range.mpr hi)
  have howner := plainWrite_rd b src (f := TGT_TRIG_CTRL_OWNER u) v (Nat.le_of_ble_eq_true rfl) (hrw (lo := 30) (w := 2) (by decide))
  have haction := plainWrite_rd b src (f := TGT_TRIG_CTRL_ACTION u) v (Nat.le_of_ble_eq_true rfl) (hrw (lo := 24) (w := 4) (by decide))
  have hwords := plainWrite_sameWords b src (TGT_TRIG_CTRL_at u) v
  rw [trigCtrl_page hu] at hwords
  obtain ⟨r, o, hframe⟩ := plainWrite_onlyRegs b src (TGT_TRIG_CTRL_at u) v
  obtain ⟨c, hc⟩ : ∃ c, b.plainWrite src (TGT_TRIG_CTRL_at u) v = c := ⟨_, rfl⟩
  change (b.plainWrite src (TGT_TRIG_CTRL_at u) v).rd _ = _ at howner haction
  rw [hc] at howner haction hwords hframe
  refine ⟨c.put (TGT_TRIG_CTRL_ARM u) false, hc ▸ rfl, is_put c (TGT_TRIG_CTRL_ARM u) false (Nat.le_of_ble_eq_true rfl) Nat.one_pos,
    (rd_put_apart (f := TGT_TRIG_CTRL_ARM u) c false ⟨Nat.le_of_ble_eq_true rfl, .inr (.inr (Nat.le_of_ble_eq_true rfl))⟩).trans howner,
    (rd_put_apart (f := TGT_TRIG_CTRL_ARM u) c false ⟨Nat.le_of_ble_eq_true rfl, .inr (.inl (Nat.le_of_ble_eq_true rfl))⟩).trans haction,
    sameWords_trans hwords (sameWords_mono (put_sameWords c (TGT_TRIG_CTRL_ARM u) false) (by simp [TGT_TRIG_CTRL_ARM])), ?_⟩
  rw [hframe]
  exact ⟨_, _, rfl⟩

/-- The word as it stands but for some of OWNER and ARM, written back. -/
theorem trigWritten_word (b : Box) (src : Requester) {u : Nat} (hu : u < 32) {m : Word} (hm : ∀ i, i < 29 → m.getLsbD i = true) :
    (trigWritten b src u (b.word (TGT_TRIG_CTRL_at u) &&& m).toNat).word (TGT_TRIG_CTRL_at u)
      = b.word (TGT_TRIG_CTRL_at u) &&& (m &&& 0xDFFFFFFF#32) := by
  have hbody : bodyWord (TGT_TRIG_CTRL_at u) := by
    unfold TGT_TRIG_CTRL_at
    omega
  have hmask : ∀ i : Fin 32, (Nat.testBit 0xEFFE07FF i = true ∨ i.val < 29) ∧ (0xDFFFFFFF#32).getLsbD i = decide (i.val ≠ 29) := by decide
  have hplain := plainWrite_word b src ((trigCtrl_page hu).symm ▸ tgtPage_lt) hbody (b.word (TGT_TRIG_CTRL_at u) &&& m).toNat
  have hput : (trigWritten b src u (b.word (TGT_TRIG_CTRL_at u) &&& m).toNat).word (TGT_TRIG_CTRL_at u)
      = wordWith ((b.plainWrite src (TGT_TRIG_CTRL_at u) (b.word (TGT_TRIG_CTRL_at u) &&& m).toNat).word (TGT_TRIG_CTRL_at u)) 29 1 0 :=
    word_setWord (b.plainWrite src (TGT_TRIG_CTRL_at u) (b.word (TGT_TRIG_CTRL_at u) &&& m).toNat) _ _
  rw [hput, hplain, trigCtrl_mask hu]
  refine BitVec.eq_of_getLsbD_eq fun i hi => ?_
  obtain ⟨hrw, harm⟩ := hmask ⟨i, hi⟩
  rw [clearBit_bits _ (by decide), getLsbD_ofNat_lt hi, writtenWord_testBit, BitVec.toNat_and, Nat.testBit_and, BitVec.getLsbD_and,
    BitVec.getLsbD_and, harm, Nat.zero_testBit, Bool.false_and, Bool.not_false, Bool.and_true]
  change (decide (i ≠ 29) && if _ then (b.word (TGT_TRIG_CTRL_at u)).getLsbD i && m.getLsbD i else (b.word (TGT_TRIG_CTRL_at u)).getLsbD i) = _
  split
  · rw [Bool.and_comm, Bool.and_assoc]
  · next hout =>
    rw [hm i (hrw.resolve_left hout), Bool.true_and, Bool.and_comm]

/-! ### A write of the word -/

theorem trigOverdue_still {b : Box} {u : Nat} (hquiet : ∀ c ∈ b.applies, b.raw < c.at_) (h : b.trigDue u = true → (b.raw : Int) ≤ b.trigAt u) :
    b.trigOverdue u = b := by
  unfold Box.trigOverdue
  rw [timeDue_none b hquiet]
  exact if_neg fun hdue => Int.not_lt.mpr (h hdue.1) hdue.2

/-- A write of a unit's word once what is overdue has fired. -/
theorem trigCtrl_eq {b c : Box} {u : Nat} (h : b.trigOverdue u = c) (src : Requester) (v : Nat) : b.trigCtrl src u v =
    if natField v 30 2 = 3 ∨ 5 ≤ natField v 24 4 then c.rsvWriteAt (TGT_TRIG_CTRL_at u) src
    else if ownerOk (ownerCode src) (c.rd (TGT_TRIG_CTRL_OWNER u)) (natField v 30 2) = false then c.accErrAt (TGT_TRIG_CTRL_at u) src
    else if c.is (TGT_TRIG_CTRL_ARM u) = true ∧ v.testBit 29 = true ∧ natField v 30 2 ≠ 0 then c.accErrAt (TGT_TRIG_CTRL_at u) src
    else if v.testBit 29 = true ∧ natField v 30 2 ≠ 0 then (trigWritten c src u v).trigArm src u else trigWritten c src u v := by
  subst h
  rfl

/-- A unit is armed, its COUNT restarted. -/
def trigArmed (b : Box) (u : Nat) : Box := (b.put (TGT_TRIG_CTRL_ARM u) true).wr (TGT_TRIG_COUNT_COUNT u) 0

theorem trigArmed_shows (b : Box) (u : Nat) : ∃ c, trigArmed b u = c ∧ c.is (TGT_TRIG_CTRL_ARM u) = true ∧ c.rd (TGT_TRIG_COUNT_COUNT u) = 0
    ∧ (∀ f : Fld, f.addr = TGT_TRIG_CTRL_at u → f.lo + f.width ≤ 29 ∨ 30 ≤ f.lo → c.rd f = b.rd f)
    ∧ sameWords [TGT_TRIG_CTRL_at u, TGT_TRIG_COUNT_at u] b c ∧ ∃ r, c = { b with regs := r } := by
  have hne : TGT_TRIG_CTRL_at u ≠ TGT_TRIG_COUNT_at u := by
    unfold TGT_TRIG_CTRL_at TGT_TRIG_COUNT_at
    omega
  refine ⟨_, rfl, (is_wr_word _ (TGT_TRIG_COUNT_COUNT u) (TGT_TRIG_CTRL_ARM u) 0 hne).trans
    (is_put b (TGT_TRIG_CTRL_ARM u) true (Nat.le_of_ble_eq_true rfl) Nat.one_pos), rd_wr _ (TGT_TRIG_COUNT_COUNT u) 0 (Nat.le_of_ble_eq_true rfl),
    fun f hf hbits => ?_, ?_, _, rfl⟩
  · exact (rd_wr_word _ (TGT_TRIG_COUNT_COUNT u) f 0 (hf ▸ hne)).trans
      (rd_put_apart (f := TGT_TRIG_CTRL_ARM u) b true ⟨Nat.le_of_ble_eq_true rfl, .inr hbits⟩)
  · exact sameWords_trans (sameWords_mono (put_sameWords b (TGT_TRIG_CTRL_ARM u) true) (by simp [TGT_TRIG_CTRL_ARM]))
      (sameWords_mono (wr_sameWords _ (TGT_TRIG_COUNT_COUNT u) 0) (by simp [TGT_TRIG_COUNT_COUNT]))

theorem trigArm_eq (b : Box) (src : Requester) (u : Nat) : b.trigArm src u = if b.armRefused u then b.accErrAt (TGT_TRIG_CTRL_at u) src
    else if b.trigTime u < b.trigTick u + 640 then (((trigArmed b u).trigLate u).count tgtPage 2).trigRun u (b.now32 0) nextInstant else trigArmed b u := rfl

/-- A unit armed late fires at once, and is counted late. -/
theorem firesLate_shows {b : Box} {u : Nat} (hu : u < 32) (hcount : b.rd (TGT_TRIG_COUNT_COUNT u) = 0) (at_ : Nat) :
    ∃ c, ((b.trigLate u).count tgtPage 2).trigRun u at_ nextInstant = c ∧ c.is (TGT_TRIG_STATUS_LATE u) = true ∧ c.is (TGT_TRIG_STATUS_FIRED u) = true
      ∧ c.rd (TGT_TRIG_COUNT_COUNT u) = 1 ∧ c.ctr tgtPage 2 = b.ctr tgtPage 2 + 1 ∧ c.is (pageFld tgtPage 16 2 1) = true := by
  have hbody {a : Nat} (h : unitWord u a) : bodyWord a := by omega
  have hstatus : unitWord u (TGT_TRIG_STATUS_at u) := by
    unfold TGT_TRIG_STATUS_at
    omega
  have hne : TGT_TRIG_COUNT_at u ≠ TGT_TRIG_STATUS_at u := by
    unfold TGT_TRIG_COUNT_at TGT_TRIG_STATUS_at
    omega
  obtain ⟨x, hx, hxlate, hxcount⟩ : ∃ x, b.put (TGT_TRIG_STATUS_LATE u) true = x ∧ x.is (TGT_TRIG_STATUS_LATE u) = true
      ∧ x.rd (TGT_TRIG_COUNT_COUNT u) = 0 := ⟨_, rfl, is_put b (TGT_TRIG_STATUS_LATE u) true (Nat.le_of_ble_eq_true rfl) Nat.one_pos,
        (rd_put_word b (TGT_TRIG_STATUS_LATE u) (TGT_TRIG_COUNT_COUNT u) true hne).trans hcount⟩
  obtain ⟨y, hy⟩ : ∃ y, x.raiseInt tgtPage 2 = y := ⟨_, rfl⟩
  have hywords : sameOn bodyWord x y := hy ▸ raiseInt_body x tgtPage_lt 2
  have hycause : y.is (pageFld tgtPage 16 2 1) = true := by
    rw [← hy, is_raiseInt_cause x tgtPage_lt (by decide), decide_eq_true rfl, Bool.or_true]
  have hyctr : y.ctr tgtPage 2 = b.ctr tgtPage 2 := by
    rw [← hy, ctr_of_onlyRegs (raiseInt_onlyRegs x tgtPage 2), ← hx]
    rfl
  obtain ⟨z, hz⟩ : ∃ z, y.count tgtPage 2 = z := ⟨_, rfl⟩
  have hzwords : sameOn bodyWord y z := hz ▸ count_body y tgtPage_lt (by decide)
  have hzcause : z.is (pageFld tgtPage 16 2 1) = true := hz ▸ bump_cause_kept y tgtPage_lt tgtPage_lt (by decide) 1 hycause
  have hzctr : z.ctr tgtPage 2 = b.ctr tgtPage 2 + 1 := hz ▸ (count_ctr_succ y tgtPage 2).trans (congrArg (· + 1) hyctr)
  have hwords := sameOn_trans hywords hzwords
  have hzlate := (is_of_sameOn hwords (f := TGT_TRIG_STATUS_LATE u) (hbody hstatus)).trans hxlate
  have hzcount := (rd_of_sameOn hwords (f := TGT_TRIG_COUNT_COUNT u) (hbody (count_unitWord u))).trans hxcount
  have hstart : (b.trigLate u).count tgtPage 2 = z := by
    rw [← hz, ← hy, ← hx]
    rfl
  have hshows := trigRun_shows z hu at_ nextInstant
  rw [hstart]
  obtain ⟨-, hcwords, -, hfired, hcounted, -, -, -, hlate, -, -, -, -, hlates, -⟩ := hshows
  refine ⟨_, rfl, hlates.trans hzlate, hfired, hcounted.trans (by rw [hzcount]; rfl), hlate.trans hzctr,
    (is_of_sameOn hcwords (f := pageFld tgtPage 16 2 1) ?_).trans hzcause⟩
  show fireWord 0x90010 ∧ (¬ unitWord u 0x90010 ∨ _)
  exact ⟨.inr rfl, .inl (by omega)⟩

end Sys2Proof.Proofs
end

section
/-! # Arming, disarming and releasing trigger units (09_network_time.md R278, R279, R282) -/

namespace Sys2Proof.Proofs

open Sys2Proof Sys2Proof.Machine Sys2Proof.Safety Sys2Proof.Laws

/-! ### Words written back -/

/-- A field whose bits a mask keeps. -/
theorem natField_and (w m : Word) {lo width : Nat} (h : ∀ i, i < width → m.getLsbD (lo + i) = true) :
    natField (w &&& m).toNat lo width = natField w.toNat lo width := by
  refine Nat.eq_of_testBit_eq fun i => ?_
  rw [natField_testBit, natField_testBit, BitVec.toNat_and, Nat.testBit_and]
  by_cases hi : i < width
  · rw [show m.toNat.testBit (lo + i) = true from h i hi, Bool.and_true]
  · rw [decide_eq_false hi, Bool.false_and, Bool.false_and]

/-- The owner's write that keeps its unit without ARM, or releases it, is taken. -/
theorem trigCtrl_taken {b c : Box} {u v : Nat} {src : Requester} (h : b.trigOverdue u = c) (howner : c.rd (TGT_TRIG_CTRL_OWNER u) = ownerCode src)
    (hv : natField v 24 4 < 5 ∧ (natField v 30 2 = ownerCode src ∧ v.testBit 29 = false ∨ natField v 30 2 = 0)) :
    b.trigCtrl src u v = trigWritten c src u v := by
  obtain ⟨haction, hnew⟩ := hv
  have hcode : ownerCode src = 1 ∨ ownerCode src = 2 := by cases src <;> simp [ownerCode]
  have hok : ownerOk (ownerCode src) (c.rd (TGT_TRIG_CTRL_OWNER u)) (natField v 30 2) = true := by
    rw [howner]
    rcases hnew with ⟨hnew, -⟩ | hnew <;> rw [hnew] <;> cases src <;> rfl
  have hoff : ¬ (v.testBit 29 = true ∧ natField v 30 2 ≠ 0) := by
    rintro ⟨hbit, hne⟩
    exact hnew.elim (fun h => Bool.false_ne_true (h.2.symm.trans hbit)) hne
  exact (trigCtrl_eq h src v).trans ((if_neg (by omega)).trans ((if_neg (ne_false_of_eq_true hok)).trans ((if_neg fun h => hoff h.2).trans (if_neg hoff))))

theorem writtenBack_taken {b : Box} {u : Nat} {src : Requester} {m : Word} (hm : m = 0xDFFFFFFF#32 ∨ m = 0x3FFFFFFF#32)
    (howner : b.rd (TGT_TRIG_CTRL_OWNER u) = ownerCode src) (haction : b.rd (TGT_TRIG_CTRL_ACTION u) < 5) :
    natField (b.word (TGT_TRIG_CTRL_at u) &&& m).toNat 24 4 < 5 ∧ (natField (b.word (TGT_TRIG_CTRL_at u) &&& m).toNat 30 2 = ownerCode src
      ∧ (b.word (TGT_TRIG_CTRL_at u) &&& m).toNat.testBit 29 = false ∨ natField (b.word (TGT_TRIG_CTRL_at u) &&& m).toNat 30 2 = 0) := by
  have hbits : ∀ i : Fin 4, (0xDFFFFFFF#32).getLsbD (24 + i) = true ∧ (0x3FFFFFFF#32).getLsbD (24 + i) = true := by decide
  have htop : ∀ i : Fin 2, (0xDFFFFFFF#32).getLsbD (30 + i) = true := by decide
  rcases hm with rfl | rfl
  · refine ⟨lt_of_eq_of_lt (natField_and _ _ fun i hi => (hbits ⟨i, hi⟩).1) haction, .inl ⟨?_, ?_⟩⟩
    · exact (natField_and _ _ fun i hi => htop ⟨i, hi⟩).trans howner
    · rw [BitVec.toNat_and, Nat.testBit_and, show (0xDFFFFFFF#32).toNat.testBit 29 = false from rfl, Bool.and_false]
  · refine ⟨lt_of_eq_of_lt (natField_and _ _ fun i hi => (hbits ⟨i, hi⟩).2) haction, .inr ?_⟩
    have hle : (b.word (TGT_TRIG_CTRL_at u) &&& 0x3FFFFFFF#32).toNat ≤ 0x3FFFFFFF := BitVec.toNat_and .. ▸ Nat.and_le_right
    rw [natField, Nat.div_eq_of_lt (by omega), Nat.zero_mod]

/-! ### Arming -/

section
variable {s : State} {src : Requester} {u : BitVec 5} (htakes : takesWrite s src (TGT_TRIG_CTRL_at u.toNat))

include htakes in
theorem exec_triggerArm_run (value : Word) : exec (.triggerArm src u value) s
    = .next (s.onBox fun b => b.trigCtrl src u.toNat (value ||| 0x20000000#32).toNat) :=
  actReg_run s (fun b => b.trigCtrl src u.toNat (value ||| 0x20000000#32).toNat) (TGT_TRIG_CTRL_at u.toNat) src htakes.1 htakes.2.1 htakes.2.2

section
variable (hquiet : ∀ c ∈ s.applies, s.raw < c.at_) (hstill : s.trigDue u.toNat = true → (s.raw : Int) ≤ s.trigAt u.toNat)
include htakes hquiet hstill

theorem exec_triggerArm_reserved {value : Word} (h : natField value.toNat 30 2 = 3 ∨ 5 ≤ natField value.toNat 24 4) :
    ∃ t, exec (.triggerArm src u value) s = .next t ∧ t.is (PAGE_ERR_RSVW tgtPage) = true ∧ t = { s with regs := t.regs, outbox := t.outbox }
      ∧ sameWords (errorWords tgtPage) s.toBox t.toBox := by
  rw [← natField_armed value (lo := 30) (w := 2) (by omega), ← natField_armed value (lo := 24) (w := 4) (by omega)] at h
  have hcmd := (trigCtrl_eq (trigOverdue_still (b := s.toBox) hquiet hstill) src (value ||| 0x20000000#32).toNat).trans (if_pos h)
  rw [Box.rsvWriteAt, trigCtrl_page u.isLt] at hcmd
  exact exec_rsvWrite (exec_triggerArm_run htakes value) hcmd tgtPage_lt

theorem exec_triggerArm_denied {value : Word} (hnew : natField value.toNat 30 2 ∈ [1, 2]) (haction : natField value.toNat 24 4 < 5)
    (h : ownerOk (ownerCode src) (s.rd (TGT_TRIG_CTRL_OWNER u.toNat)) (natField value.toNat 30 2) = false ∨ s.is (TGT_TRIG_CTRL_ARM u.toNat) = true) :
    ∃ t, exec (.triggerArm src u value) s = .next t ∧ t.is (PAGE_ERR_ACCERR tgtPage) = true ∧ t = { s with regs := t.regs, outbox := t.outbox }
      ∧ sameWords (errorWords tgtPage) s.toBox t.toBox := by
  have hone : natField value.toNat 30 2 = 1 ∨ natField value.toNat 30 2 = 2 := by simpa using hnew
  rw [← natField_armed value (lo := 30) (w := 2) (by omega)] at hone h
  rw [← natField_armed value (lo := 24) (w := 4) (by omega)] at haction
  have hcmd := (trigCtrl_eq (trigOverdue_still (b := s.toBox) hquiet hstill) src (value ||| 0x20000000#32).toNat).trans (if_neg (by omega))
  have herr : s.toBox.trigCtrl src u.toNat (value ||| 0x20000000#32).toNat = s.toBox.accErrAt (TGT_TRIG_CTRL_at u.toNat) src := by
    refine hcmd.trans ?_
    split
    · rfl
    · next hok => exact if_pos ⟨h.resolve_left hok, testBit_armed value, by omega⟩
  rw [Box.accErrAt, trigCtrl_page u.isLt] at herr
  exact exec_accErr (exec_triggerArm_run htakes value) herr tgtPage_lt

/-- A write of OWNER 0 by the owner releases. -/
theorem exec_triggerArm_released {value : Word} (haction : natField value.toNat 24 4 < 5) (hnew : natField value.toNat 30 2 = 0)
    (howner : s.rd (TGT_TRIG_CTRL_OWNER u.toNat) = ownerCode src) : ∃ t, exec (.triggerArm src u value) s = .next t
      ∧ t.is (TGT_TRIG_CTRL_ARM u.toNat) = false ∧ t.rd (TGT_TRIG_CTRL_OWNER u.toNat) = 0 ∧ t = { s with regs := t.regs, outbox := t.outbox } := by
  rw [← natField_armed value (lo := 30) (w := 2) (by omega)] at hnew
  rw [← natField_armed value (lo := 24) (w := 4) (by omega)] at haction
  have hok : ownerOk (ownerCode src) (s.rd (TGT_TRIG_CTRL_OWNER u.toNat)) (natField (value ||| 0x20000000#32).toNat 30 2) = true := by
    rw [howner, hnew]
    cases src <;> rfl
  obtain ⟨c, hc, harm, hcowner, -, -, r, o, rfl⟩ := trigWritten_shows s.toBox src u.isLt (value ||| 0x20000000#32).toNat
  have hcmd := (trigCtrl_eq (trigOverdue_still (b := s.toBox) hquiet hstill) src (value ||| 0x20000000#32).toNat).trans ((if_neg (by omega)).trans
    ((if_neg (ne_false_of_eq_true hok)).trans ((if_neg fun h => h.2.2 hnew).trans ((if_neg fun h => h.2 hnew).trans hc))))
  exact ⟨_, next_onBox (exec_triggerArm_run htakes value) hcmd, harm, hcowner.trans hnew, rfl⟩

section
variable {value : Word} (hnew : natField value.toNat 30 2 ∈ [1, 2]) (haction : natField value.toNat 24 4 < 5)
  (hok : ownerOk (ownerCode src) (s.rd (TGT_TRIG_CTRL_OWNER u.toNat)) (natField value.toNat 30 2) = true)
  (hoff : s.is (TGT_TRIG_CTRL_ARM u.toNat) = false)
include hnew haction hok hoff

omit htakes in
/-- A write that may arm the unit goes on with the word as written. -/
theorem trigCtrl_arms : s.toBox.trigCtrl src u.toNat (value ||| 0x20000000#32).toNat
    = (trigWritten s.toBox src u.toNat (value ||| 0x20000000#32).toNat).trigArm src u.toNat := by
  have hone : natField value.toNat 30 2 = 1 ∨ natField value.toNat 30 2 = 2 := by simpa using hnew
  rw [← natField_armed value (lo := 30) (w := 2) (by omega)] at hone hok
  rw [← natField_armed value (lo := 24) (w := 4) (by omega)] at haction
  exact (trigCtrl_eq (trigOverdue_still (b := s.toBox) hquiet hstill) src (value ||| 0x20000000#32).toNat).trans ((if_neg (by omega)).trans
    ((if_neg (ne_false_of_eq_true hok)).trans ((if_neg fun h => Bool.false_ne_true (hoff.symm.trans h.1)).trans
      (if_pos ⟨testBit_armed value, by omega⟩))))

theorem exec_triggerArm_refused (h : (trigWritten s.toBox src u.toNat (value ||| 0x20000000#32).toNat).armRefused u.toNat = true) :
    ∃ t, exec (.triggerArm src u value) s = .next t ∧ t.is (TGT_TRIG_CTRL_ARM u.toNat) = false
      ∧ t.is (PAGE_ERR_ACCERR tgtPage) = true ∧ t = { s with regs := t.regs, outbox := t.outbox } := by
  have harms := trigCtrl_arms hquiet hstill hnew haction hok hoff
  obtain ⟨c, hc, harm, -, -, -, r, o, hframe⟩ := trigWritten_shows s.toBox src u.isLt (value ||| 0x20000000#32).toNat
  rw [hc] at h harms
  have hcmd := harms.trans ((trigArm_eq c src u.toNat).trans (if_pos h))
  rw [Box.accErrAt, trigCtrl_page u.isLt] at hcmd
  have hset := accErr_sets c (pageVector_word_lt tgtPage_lt) (wordOff (TGT_TRIG_CTRL_at u.toNat)) src
  have hwords := accErr_sameWords c tgtPage (wordOff (TGT_TRIG_CTRL_at u.toNat)) src
  obtain ⟨r', o', herr⟩ := accErr_onlyRegs c tgtPage (wordOff (TGT_TRIG_CTRL_at u.toNat)) src
  have hkept := (is_of_sameWords hwords (f := TGT_TRIG_CTRL_ARM u.toNat) (unitWord_not_error u.isLt (ctrl_unitWord _))).trans harm
  rw [herr, hframe] at hcmd hset hkept
  exact ⟨_, next_onBox (exec_triggerArm_run htakes value) hcmd, hkept, hset, rfl⟩

theorem exec_triggerArm_armed (h : (trigWritten s.toBox src u.toNat (value ||| 0x20000000#32).toNat).armRefused u.toNat = false)
    (hearly : (trigWritten s.toBox src u.toNat (value ||| 0x20000000#32).toNat).trigTick u.toNat + 640
      ≤ (trigWritten s.toBox src u.toNat (value ||| 0x20000000#32).toNat).trigTime u.toNat) :
    ∃ t, exec (.triggerArm src u value) s = .next t ∧ t.is (TGT_TRIG_CTRL_ARM u.toNat) = true ∧ t.rd (TGT_TRIG_COUNT_COUNT u.toNat) = 0
      ∧ t.rd (TGT_TRIG_CTRL_ACTION u.toNat) = natField value.toNat 24 4 ∧ t.rd (TGT_TRIG_CTRL_OWNER u.toNat) = natField value.toNat 30 2
      ∧ t = { s with regs := t.regs, outbox := t.outbox }
      ∧ sameWords (TGT_TRIG_CTRL_at u.toNat :: TGT_TRIG_COUNT_at u.toNat :: errorWords tgtPage) s.toBox t.toBox := by
  have harms := trigCtrl_arms hquiet hstill hnew haction hok hoff
  obtain ⟨c, hc, -, howner, hact, hwords, r, o, hframe⟩ := trigWritten_shows s.toBox src u.isLt (value ||| 0x20000000#32).toNat
  rw [hc] at h harms hearly
  obtain ⟨d, hd, harm, hcount, hctrl, hdwords, r', hdframe⟩ := trigArmed_shows c u.toNat
  have hcmd := harms.trans ((trigArm_eq c src u.toNat).trans ((if_neg (ne_true_of_eq_false h)).trans ((if_neg (Nat.not_lt.mpr hearly)).trans hd)))
  have hdact := (hctrl (TGT_TRIG_CTRL_ACTION u.toNat) rfl (.inl (Nat.le_of_ble_eq_true rfl))).trans hact
  have hdowner := (hctrl (TGT_TRIG_CTRL_OWNER u.toNat) rfl (.inr (Nat.le_of_ble_eq_true rfl))).trans howner
  have hall : sameWords (TGT_TRIG_CTRL_at u.toNat :: TGT_TRIG_COUNT_at u.toNat :: errorWords tgtPage) s.toBox d :=
    sameWords_trans (sameWords_mono hwords (by simp +contextual)) (sameWords_mono hdwords (by simp +contextual))
  rw [natField_armed value (lo := 24) (w := 4) (by omega)] at hdact
  rw [natField_armed value (lo := 30) (w := 2) (by omega)] at hdowner
  rw [hdframe, hframe] at hcmd harm hcount hdact hdowner hall
  exact ⟨_, next_onBox (exec_triggerArm_run htakes value) hcmd, harm, hcount, hdact, hdowner, rfl, hall⟩

theorem exec_triggerArm_late (h : (trigWritten s.toBox src u.toNat (value ||| 0x20000000#32).toNat).armRefused u.toNat = false)
    (hlate : (trigWritten s.toBox src u.toNat (value ||| 0x20000000#32).toNat).trigTime u.toNat
      < (trigWritten s.toBox src u.toNat (value ||| 0x20000000#32).toNat).trigTick u.toNat + 640) :
    ∃ t, exec (.triggerArm src u value) s = .next t ∧ t.is (TGT_TRIG_STATUS_LATE u.toNat) = true ∧ t.is (TGT_TRIG_STATUS_FIRED u.toNat) = true
      ∧ t.rd (TGT_TRIG_COUNT_COUNT u.toNat) = 1 ∧ t.ctr tgtPage 2 = s.ctr tgtPage 2 + 1 ∧ t.is (pageFld tgtPage 16 2 1) = true := by
  have harms := trigCtrl_arms hquiet hstill hnew haction hok hoff
  obtain ⟨c, hc, -, -, -, -, r, o, hframe⟩ := trigWritten_shows s.toBox src u.isLt (value ||| 0x20000000#32).toNat
  rw [hc] at h harms hlate
  obtain ⟨d, hd, -, hcount, -, -, r', hdframe⟩ := trigArmed_shows c u.toNat
  obtain ⟨x, hx, hshows⟩ := firesLate_shows u.isLt hcount (c.now32 0)
  have hfires : (((trigArmed c u.toNat).trigLate u.toNat).count tgtPage 2).trigRun u.toNat (c.now32 0) nextInstant = x := by
    rw [hd]
    exact hx
  have hcmd := harms.trans ((trigArm_eq c src u.toNat).trans ((if_neg (ne_true_of_eq_false h)).trans ((if_pos hlate).trans hfires)))
  have hctr : d.ctr tgtPage 2 = s.ctr tgtPage 2 := by
    rw [hdframe, hframe]
    rfl
  rw [hctr] at hshows
  exact ⟨_, next_onBox (exec_triggerArm_run htakes value) hcmd, hshows⟩

end

/-! ### Disarming and releasing -/

omit htakes in
/-- The owner's write of its word as it stands, but for ARM or for OWNER too. -/
theorem exec_writesBack {r : Result} {m : Word} (hrun : r = .next (s.onBox fun b => b.trigCtrl src u.toNat (b.word (TGT_TRIG_CTRL_at u.toNat) &&& m).toNat))
    (hm : m = 0xDFFFFFFF#32 ∨ m = 0x3FFFFFFF#32) (howner : s.rd (TGT_TRIG_CTRL_OWNER u.toNat) = ownerCode src)
    (haction : s.rd (TGT_TRIG_CTRL_ACTION u.toNat) < 5) : ∃ t, r = .next t
      ∧ t.word (TGT_TRIG_CTRL_at u.toNat) = s.word (TGT_TRIG_CTRL_at u.toNat) &&& (m &&& 0xDFFFFFFF#32)
      ∧ t = { s with regs := t.regs, outbox := t.outbox } ∧ sameWords (TGT_TRIG_CTRL_at u.toNat :: errorWords tgtPage) s.toBox t.toBox := by
  have hlow : ∀ i, i < 29 → m.getLsbD i = true := by
    have hall : ∀ i : Fin 29, (0xDFFFFFFF#32).getLsbD i = true ∧ (0x3FFFFFFF#32).getLsbD i = true := by decide
    intro i hi
    rcases hm with rfl | rfl
    · exact (hall ⟨i, hi⟩).1
    · exact (hall ⟨i, hi⟩).2
  have hcmd := trigCtrl_taken (trigOverdue_still (b := s.toBox) hquiet hstill) howner (writtenBack_taken hm howner haction)
  have hword := trigWritten_word s.toBox src u.isLt hlow
  obtain ⟨c, hc, -, -, -, hwords, r', o, rfl⟩ := trigWritten_shows s.toBox src u.isLt (s.toBox.word (TGT_TRIG_CTRL_at u.toNat) &&& m).toNat
  rw [hc] at hcmd hword
  exact ⟨_, next_onBox hrun hcmd, hword, rfl, hwords⟩

end

include htakes in
/-- A unit whose instant came in an earlier tick has fired before it is disarmed. -/
theorem exec_triggerDisarm_fired (hquiet : ∀ c ∈ s.applies, s.raw < c.at_) (howner : s.rd (TGT_TRIG_CTRL_OWNER u.toNat) = ownerCode src)
    (haction : s.rd (TGT_TRIG_CTRL_ACTION u.toNat) < 5) (hdue : s.trigDue u.toNat = true)
    (hpast : s.trigAt u.toNat < (s.raw : Int)) : ∃ t, exec (.triggerDisarm src u) s = .next t ∧ t.is (TGT_TRIG_STATUS_FIRED u.toNat) = true
      ∧ t.rd (TGT_TRIG_COUNT_COUNT u.toNat) = (s.rd (TGT_TRIG_COUNT_COUNT u.toNat) + 1) % 2 ^ 32 := by
  have hu : u.toNat < 32 := u.isLt
  have hact := actReg_run s (fun b => b.trigCtrl src u.toNat (b.word (TGT_TRIG_CTRL_at u.toNat) &&& 0xDFFFFFFF#32).toNat) (TGT_TRIG_CTRL_at u.toNat) src
    htakes.1 htakes.2.1 htakes.2.2
  have hover : s.toBox.trigOverdue u.toNat = s.toBox.trigFire u.toNat := by
    unfold Box.trigOverdue
    rw [timeDue_none s.toBox hquiet]
    exact if_pos ⟨hdue, hpast⟩
  obtain ⟨d, hkeep, -, -, -, hshows⟩ := trigFire_shows hu hdue
  obtain ⟨x, hx⟩ : ∃ x, s.toBox.trigFire u.toNat = x := ⟨_, rfl⟩
  rw [hx] at hover hshows
  have hunit {f : Fld} (hf : unitWord u.toNat f.addr) : d.rd f = s.rd f := rd_of_sameOn hkeep.words (.inl hf)
  have hdowner : d.rd (TGT_TRIG_CTRL_OWNER u.toNat) = s.rd (TGT_TRIG_CTRL_OWNER u.toNat) := hunit (f := TGT_TRIG_CTRL_OWNER u.toNat) (ctrl_unitWord _)
  have hdcount : d.rd (TGT_TRIG_COUNT_COUNT u.toNat) = s.rd (TGT_TRIG_COUNT_COUNT u.toNat) := hunit (f := TGT_TRIG_COUNT_COUNT u.toNat) (count_unitWord _)
  have hxowner : x.rd (TGT_TRIG_CTRL_OWNER u.toNat) = ownerCode src :=
    ((hshows.ctrl (TGT_TRIG_CTRL_OWNER u.toNat) rfl (.inr (Nat.le_of_ble_eq_true rfl))).trans hdowner).trans howner
  have hfired := hshows.fired
  have hcount := hshows.count
  rw [hdcount] at hcount
  have hcmd := trigCtrl_taken hover hxowner (writtenBack_taken (b := s.toBox) (.inl rfl) howner haction)
  obtain ⟨c, hc, -, -, -, hwords, -⟩ := trigWritten_shows x src hu (s.toBox.word (TGT_TRIG_CTRL_at u.toNat) &&& 0xDFFFFFFF#32).toNat
  have hout {a : Nat} (hne : a ≠ TGT_TRIG_CTRL_at u.toNat) (ha : unitWord u.toNat a) : a ∉ TGT_TRIG_CTRL_at u.toNat :: errorWords tgtPage :=
    List.not_mem_cons_of_ne_of_not_mem hne (unitWord_not_error hu ha)
  refine ⟨_, next_onBox hact (hcmd.trans hc), (is_of_sameWords hwords (f := TGT_TRIG_STATUS_FIRED u.toNat) (hout ?_ ?_)).trans hfired,
    (rd_of_sameWords hwords (f := TGT_TRIG_COUNT_COUNT u.toNat) (hout ?_ (count_unitWord _))).trans hcount⟩
  · show TGT_TRIG_STATUS_at u.toNat ≠ _
    unfold TGT_TRIG_STATUS_at TGT_TRIG_CTRL_at
    omega
  · show unitWord u.toNat (TGT_TRIG_STATUS_at u.toNat)
    unfold TGT_TRIG_STATUS_at
    omega
  · show TGT_TRIG_COUNT_at u.toNat ≠ _
    unfold TGT_TRIG_COUNT_at TGT_TRIG_CTRL_at
    omega

end

end Sys2Proof.Proofs
end

section
/-! # LAUNCH_BUFFER_SEND (09_network_time.md R283) -/

namespace Sys2Proof.Proofs

open Sys2Proof Sys2Proof.Machine Sys2Proof.Safety Sys2Proof.Laws

/-! ### What the start of a frame keeps -/

/-- The launches that wait and the frames that ports send are as before. -/
structure SendKeeps (b c : Box) : Prop where
  launches : c.launches = b.launches
  txVc : ∀ q, (c.port q).txVc = (b.port q).txVc

theorem SendKeeps.refl (b : Box) : SendKeeps b b := ⟨rfl, fun _ => rfl⟩

theorem SendKeeps.trans {b c d : Box} (h : SendKeeps b c) (k : SendKeeps c d) : SendKeeps b d :=
  ⟨k.launches.trans h.launches, fun q => (k.txVc q).trans (h.txVc q)⟩

theorem sendKeeps_of_ports {b c : Box} (hlaunches : c.launches = b.launches) (hports : c.ports = b.ports) : SendKeeps b c :=
  ⟨hlaunches, fun q => by rw [Box.port, Box.port, hports]⟩

theorem sendKeeps_of_onlyRegsCtrs {b c : Box} (h : onlyRegsCtrs b c) : SendKeeps b c := by
  obtain ⟨_, _, _, rfl⟩ := h
  exact sendKeeps_of_ports rfl rfl

theorem countPort_sendKeeps (b : Box) (pg : Page) (i p n : Nat) : SendKeeps b (b.countPort pg i p n) := by
  unfold Box.countPort
  split
  · exact sendKeeps_of_onlyRegsCtrs (bump_onlyRegsCtrs b _ _ _)
  · exact SendKeeps.refl b

theorem ringWrite_sendKeeps {b c : Box} {n base cap size : Nat} {head tail : Fld} {r : List Byte}
    (h : b.ringWrite n base cap size head tail r = some c) : SendKeeps b c := by
  simp only [Box.ringWrite, Option.ite_none_left_eq_some] at h
  obtain ⟨-, h⟩ := h
  split at h
  · obtain ⟨-, h⟩ := Option.ite_none_right_eq_some.1 h
    cases h
    exact sendKeeps_of_ports rfl rfl
  · cases h
    exact sendKeeps_of_ports rfl rfl

theorem traceExit_sendKeeps (b : Box) (t : Nat) (tr : Option Trace) (out : Option Nat) (exit : Nat) (f : Frame) :
    SendKeeps b (b.traceExit t tr out exit f) := by
  -- The ring stays opaque, or the kernel would run `ringWrite` to reduce the match on its answer.
  have hring : ∀ r u, b.traceRing t r = some u → SendKeeps b u := fun _ _ h => ringWrite_sendKeeps h
  delta Box.traceExit
  obtain ⟨ring, e⟩ : ∃ g, g = b.traceRing t := ⟨_, rfl⟩
  rw [← e] at hring ⊢
  split
  · exact SendKeeps.refl b
  · split
    · next u hu => exact hring _ u hu
    · split
      · refine SendKeeps.trans (c := b.setSampler _ _) (sendKeeps_of_ports rfl rfl) (sendKeeps_of_onlyRegsCtrs
          (onlyRegsCtrs_trans (bump_onlyRegsCtrs _ _ _ _) (raiseInt_onlyRegs _ _ _).toCtrs))
      · exact sendKeeps_of_onlyRegsCtrs (raiseInt_onlyRegs b _ _).toCtrs

/-- The end of a sample: a record in the queue on the die, or its loss. -/
theorem sampleQueued_sendKeeps (b : Box) (t : Nat) (drop on : Bool) (r : List Byte) :
    SendKeeps b (if drop then (b.count mgtPage 3).raiseInt (brkPage t) 1
      else if on then { (b.wr MGT_SMPQ_HEAD_INDEX (b.rd MGT_SMPQ_HEAD_INDEX + 1)) with smpq := b.smpq ++ [r] } else b) := by
  split
  · exact sendKeeps_of_onlyRegsCtrs (onlyRegsCtrs_trans (bump_onlyRegsCtrs _ _ _ _) (raiseInt_onlyRegs _ _ _).toCtrs)
  · split
    · exact sendKeeps_of_ports rfl rfl
    · exact SendKeeps.refl b

theorem sampleWrite_sendKeeps (b : Box) (t k point : Nat) (i : SampleInfo) : SendKeeps b (b.sampleWrite t k point i) := by
  have hcount : SendKeeps b (b.count (brkPage t) (2 * k)) := sendKeeps_of_onlyRegsCtrs (bump_onlyRegsCtrs b _ _ _)
  rw [Box.sampleWrite]
  dsimp only
  generalize b.count (brkPage t) (2 * k) = c at hcount ⊢
  generalize hring : (if (b.rd (BRK_SMP_CFG_DEST t k)).testBit 0 = true then
    c.sampleRing t (sampleRecord k point t i (b.sampler (16 * t + k))) else none) = ring
  have hsome : ∀ u, ring = some u → SendKeeps c u := fun u hu => by
    rw [← hring, Option.ite_none_right_eq_some] at hu
    exact ringWrite_sendKeeps hu.2
  generalize hone : (if ((b.rd (BRK_SMP_CFG_DEST t k)).testBit 0 && ring.isNone) = true then
    (c.count (brkPage t) (2 * k + 1)).raiseInt (brkPage t) 1 else ring.getD c) = d
  have hd : SendKeeps c d := by
    rw [← hone]
    split
    · exact sendKeeps_of_onlyRegsCtrs (onlyRegsCtrs_trans (bump_onlyRegsCtrs _ _ _ _) (raiseInt_onlyRegs _ _ _).toCtrs)
    · cases ring with
      | none => exact SendKeeps.refl c
      | some u => exact hsome u rfl
  exact (hcount.trans hd).trans (SendKeeps.trans (c := d.setSampler _ _) (sendKeeps_of_ports rfl rfl) (sampleQueued_sendKeeps _ t _ _ _))

theorem samplePoint_sendKeeps (b : Box) (t point : Nat) (i : SampleInfo) : SendKeeps b (b.samplePoint t point i).1 := by
  refine foldl_rel (R := fun x y : Box × Option Nat => SendKeeps x.1 y.1) (fun _ => SendKeeps.refl _) (fun h k => h.trans k) (List.range 16)
    (fun x k _ => ?_) (b, none)
  dsimp only
  rw [Box.sampleOne]
  split
  · dsimp only
    generalize (if (x.1.sampler (16 * t + k)).fresh = true then _ else _ : Sampler) = y
    have hset (c : Box) (j : Nat) (z : Sampler) : SendKeeps c (c.setSampler j z) := sendKeeps_of_ports rfl rfl
    split
    · split
      · exact (hset _ _ y).trans (hset _ _ _)
      · exact (hset _ _ y).trans ((sampleWrite_sendKeeps _ t k point i).trans (hset _ _ _))
    · exact hset _ _ _
  · exact SendKeeps.refl _

theorem sendPtp_sendKeeps (b : Box) (p : Nat) (m : List Byte) : SendKeeps b (b.sendPtp p m) := by
  refine ⟨rfl, fun q => ?_⟩
  by_cases hq : q = p
  · subst hq
    show ((b.setPort q { b.port q with ctags := ((b.port q).ctags + 1) % 2 ^ 32 }).port q).txVc = _
    rw [port_setPort]
  · exact congrArg Port.txVc (port_setPort_other b { b.port p with ctags := ((b.port p).ctags + 1) % 2 ^ 32 } hq)

theorem setPtp_sendKeeps (b : Box) (p : Nat) (x : Ptp) : SendKeeps b (b.setPtp p x) := sendKeeps_of_ports rfl rfl

theorem ptpLaunch_sendKeeps (b : Box) (p : Nat) (f : Frame) (t32 : Nat) : SendKeeps b (b.ptpLaunch p f t32) := by
  have hsettle (c : Box) : SendKeeps c (c.relaySettle p) := by
    rw [relaySettle_eq]
    exact (setPtp_sendKeeps c p _).trans (foldl_rel SendKeeps.refl SendKeeps.trans _ (fun d r _ => sendPtp_sendKeeps d p _) _)
  simp only [Box.ptpLaunch]
  split
  · exact SendKeeps.refl b
  · split
    · split
      · exact (setPtp_sendKeeps b p _).trans (hsettle _)
      · exact sendPtp_sendKeeps b p _
    · split
      · split
        · exact setPtp_sendKeeps b p _
        · exact SendKeeps.refl b
      · exact SendKeeps.refl b
    · split
      · exact (setPtp_sendKeeps b p _).trans (sendPtp_sendKeeps _ p _)
      · exact SendKeeps.refl b
    · exact SendKeeps.refl b

theorem barrierLate_sendKeeps (b : Box) (p : Nat) (f : Frame) (now : Nat) : SendKeeps b (b.barrierLate p f now) := by
  unfold Box.barrierLate
  split
  · exact (countPort_sendKeeps b _ _ _ _).trans (sendKeeps_of_onlyRegsCtrs (raiseInt_onlyRegs _ _ _).toCtrs)
  · exact SendKeeps.refl b

/-- A frame that starts is what its port sends. -/
theorem startFrame_shows (b : Box) {p v : Nat} {x : Staged} (h : b.headFrame p v = some x) (sub : Nat) :
    (b.startFrame p v sub).launches = b.launches ∧ ((b.startFrame p v sub).port p).txVc = some v := by
  rw [Box.startFrame, h]
  dsimp only
  generalize (b.hopWord p x.desc).1 = w
  generalize (b.hopWord p x.desc).2 = mark
  generalize hs3 : Box.setHead _ _ _ = c
  have hlaunches : c.launches = b.launches := by rw [← hs3]; rfl
  have htx : (c.port p).txVc = some v := by
    rw [← hs3]
    exact congrArg Port.txVc (port_setPort b p _)
  generalize hs4 : (if mark = true then c.calCount 8 p 1 else c) = d
  have hd : SendKeeps c d := by
    rw [← hs4]
    split
    · exact countPort_sendKeeps c _ _ _ _
    · exact SendKeeps.refl c
  generalize hs5 : (d.samplePoint (p / 256) 1 _).1 = e
  have he : SendKeeps d e := hs5 ▸ samplePoint_sendKeeps d (p / 256) 1 _
  have hend {z : Box} (hz : SendKeeps e z) : z.launches = b.launches ∧ (z.port p).txVc = some v :=
    ⟨((hd.trans he).trans hz).launches.trans hlaunches, (((hd.trans he).trans hz).txVc p).trans htx⟩
  exact hend (((barrierLate_sendKeeps e p _ _).trans (ptpLaunch_sendKeeps _ p _ _)).trans (traceExit_sendKeeps _ _ _ _ _ _))

/-! ### The command -/

/-- A launch waits whole at the head of its port's staging. -/
theorem stageLaunch_head (b : Box) (l : Launch) : (∃ x, (b.stageLaunch l).headFrame l.port 5 = some x) ∧ (b.stageLaunch l).launches = b.launches := by
  obtain ⟨x, q, hx, hstaged⟩ : ∃ x q, x.arrived = x.total ∧ (b.stageLaunch l).staged (8 * l.port + 5) = x :: q :=
    ⟨_, _, rfl, mapGet_mapSet_same (fun _ => []) _ _ _⟩
  refine ⟨⟨x, ?_⟩, rfl⟩
  rw [Box.headFrame, hstaged]
  exact if_pos (.inl hx)

/-- A launch may start on its port in this flit slot (R54, R283). -/
def mayLaunch (b : Box) (p sub : Nat) (l : Launch) : Prop :=
  b.up p = true ∧ (b.port p).inWindow = false ∧ (b.port p).aligning = false ∧ (b.port p).pauseTx = none ∧ (b.port p).resend = none
    ∧ (b.port p).retry.length < retryDepth (b.slotMode p) ∧ (b.port p).txVc = none ∧ (b.gateNow p).gates.testBit 5 = true
    ∧ b.guardOk p 5 (l.frame.length + 8) sub (b.gateNow p) = true ∧ b.creditCovers p 5 (l.frame.length + 8) = true

theorem mayLaunch_iff (b : Box) (p sub : Nat) (l : Launch) : mayLaunch b p sub l ↔
    (b.up p && !(b.port p).inWindow && !(b.port p).aligning && (b.port p).pauseTx.isNone && (b.port p).resend.isNone
      && decide ((b.port p).retry.length < retryDepth (b.slotMode p))) = true ∧ (b.port p).txVc = none ∧ (b.gateNow p).gates.testBit 5 = true
      ∧ b.guardOk p 5 (l.frame.length + 8) sub (b.gateNow p) = true ∧ b.creditCovers p 5 (l.frame.length + 8) = true := by
  simp only [mayLaunch, Bool.and_eq_true, Bool.not_eq_true', Option.isNone_iff_eq_none, decide_eq_true_eq, and_assoc]

section
variable {b : Box} {p sub : Nat} {l : Launch} (hfind : (b.launches.find? fun l => l.port == p) = some l)
include hfind

theorem launchStart_starts (h : mayLaunch b p sub l) : ∃ c, b.launchStart p sub = some c ∧ c.launches = b.launches.erase l
    ∧ (c.port p).txVc = some 5 := by
  have hport : l.port = p := beq_iff_eq.mp (List.find?_some (p := fun l : Launch => l.port == p) hfind)
  obtain ⟨⟨x, hx⟩, hlaunches⟩ := stageLaunch_head { b with launches := b.launches.erase l } l
  rw [hport] at hx
  obtain ⟨hstarted, htx⟩ := startFrame_shows (Box.stageLaunch { b with launches := b.launches.erase l } l) hx sub
  unfold Box.launchStart
  rw [hfind]
  dsimp only
  rw [if_pos ((mayLaunch_iff b p sub l).mp h)]
  generalize (Box.stageLaunch { b with launches := b.launches.erase l } l).startFrame p 5 sub = c at hstarted htx ⊢
  refine ⟨_, rfl, ?_⟩
  split
  · have hlate : SendKeeps c (c.trigLate l.unit) :=
      sendKeeps_of_onlyRegsCtrs (onlyRegs_trans (put_onlyRegs c _ true) (raiseInt_onlyRegs _ _ _)).toCtrs
    exact ⟨hlate.launches.trans (hstarted.trans hlaunches), (hlate.txVc p).trans htx⟩
  · exact ⟨hstarted.trans hlaunches, htx⟩

theorem launchStart_waits (h : ¬ mayLaunch b p sub l) : b.launchStart p sub = none := by
  unfold Box.launchStart
  rw [hfind]
  exact if_neg fun hmay => h ((mayLaunch_iff b p sub l).mpr hmay)

end

section
variable {s : State} (hrun : s.phase = .run) (p : Slot) (sub : BitVec 5) {l : Launch} (hfind : (s.launches.find? fun l => l.port == p.toNat) = some l)
include hrun hfind

theorem exec_launchBufferSend (h : mayLaunch s.toBox p.toNat sub.toNat l) :
    ∃ t, exec (.launchBufferSend p sub) s = .next t ∧ t.launches = s.launches.erase l ∧ (t.port p.toNat).txVc = some 5 := by
  obtain ⟨c, hc, hshows⟩ := launchStart_starts hfind h
  exact ⟨_, next_onBox (f := fun b => (b.launchStart p.toNat sub.toNat).getD b) (actRun_run s _ hrun) (by rw [hc]; rfl), hshows⟩

theorem exec_launchBufferSend_waits (h : ¬ mayLaunch s.toBox p.toNat sub.toNat l) : exec (.launchBufferSend p sub) s = .next s :=
  next_onBox (f := fun b => (b.launchStart p.toNat sub.toNat).getD b) (actRun_run s _ hrun) (b := s.toBox) (by rw [launchStart_waits hfind h]; rfl)

end

/-! ### Trigger units -/

/-- Settles O50: a write of a unit's word is judged in its order, a firing runs the unit's own words and action after those of lower units, and
a launch starts where its port may send. -/
theorem triggerUnitsFireAtTheirInstant : Obligations.TriggerUnitsFireAtTheirInstant := by
  intro s src u n a quiet still
  refine ⟨fun value htakes ⟨hquiet, hstill⟩ => ?_, fun htakes hquiet howner haction hperiod hdue hpast => ?_,
    fun htakes ⟨hquiet, hstill⟩ howner haction => ?_, fun hrun hquiet => ?_, fun p sub l hrun hfind => ?_⟩
  · exact ⟨exec_triggerArm_reserved htakes hquiet hstill, exec_triggerArm_released htakes hquiet hstill, fun hnew haction =>
      ⟨exec_triggerArm_denied htakes hquiet hstill hnew haction, fun hok hoff => ⟨exec_triggerArm_refused htakes hquiet hstill hnew haction hok hoff,
        exec_triggerArm_armed htakes hquiet hstill hnew haction hok hoff, exec_triggerArm_late htakes hquiet hstill hnew haction hok hoff⟩⟩⟩
  · exact exec_triggerDisarm_fired htakes hquiet howner haction hdue hpast
  · obtain ⟨hrun, hreach, hready⟩ := htakes
    exact ⟨exec_writesBack hquiet hstill (actReg_run s _ (TGT_TRIG_CTRL_at u.toNat) src hrun hreach hready) (.inl rfl) howner haction,
      exec_writesBack hquiet hstill (actReg_run s _ (TGT_TRIG_CTRL_at u.toNat) src hrun hreach hready) (.inr rfl) howner haction⟩
  · exact ⟨exec_triggerFire_early hrun hquiet u, exec_triggerFire hrun hquiet u⟩
  · exact ⟨exec_launchBufferSend hrun p sub hfind, exec_launchBufferSend_waits hrun p sub hfind⟩

end Sys2Proof.Proofs
end

section
/-!
# Canonical maps: accessors, tracing and cells

The canonical form of the maps that `wellFormed` speaks of, as a property of the block. Only a few operations write a map
(`mapSet`, `mapSetAll`, `mapClear`, `mapDrop`); the others are built from them. Each operation has one lemma, which bears its
name, so that the proof about a composite operation reads as the operation does: `h.put.raiseInt` is about
`(s.put f v).raiseInt p b`.
-/

namespace Sys2Proof.Proofs

open Sys2Proof Sys2Proof.Machine Sys2Proof.Safety Sys2Proof.Laws

-- A lemma's proof ends before the next begins: proofs that wait for the lemmas they cite would hold a thread each.
set_option Elab.async false

/-- The four maps of `wellFormed`. -/
abbrev boxMaps (s : Box) : Sparse Word × Sparse Word × Sparse (BitVec 64) × Sparse Byte := (s.regs, s.tabs, s.ctrs, s.mem)

/-- Each of the four maps is in canonical form. -/
def MapsCanon (m : Sparse Word × Sparse Word × Sparse (BitVec 64) × Sparse Byte) : Prop :=
  mapWf resetWord m.1 = true ∧ mapWf (fun _ => 0) m.2.1 = true ∧ mapWf (fun _ => 0) m.2.2.1 = true
    ∧ mapWf memDflt m.2.2.2 = true

/-- The block's maps are in canonical form. -/
def Canon (s : Box) : Prop := MapsCanon (boxMaps s)

theorem wellFormed_iff (s : State) : wellFormed s = true ↔ Canon s.toBox := by
  simp [wellFormed, Canon, MapsCanon, and_assoc]

namespace Canon

variable {s : Box}

/-! ### Closure -/

theorem same (h : Canon s) {t : Box} (e : boxMaps t = boxMaps s := by rfl) : Canon t := by
  unfold Canon
  rw [e]
  exact h

/-- The same where the block is written out as an update of `s`, which need not be known before. -/
theorem upd {t : Box} (e : boxMaps t = boxMaps s := by with_reducible rfl) (h : Canon s) : Canon t := h.same e

theorem setCtr (h : Canon s) {k v} : Canon { s with ctrs := mapSet (fun _ => 0) s.ctrs k v } :=
  ⟨h.1, h.2.1, mapSet_wf h.2.2.1 _ _, h.2.2.2⟩

theorem clearTabs (h : Canon s) {lo n} : Canon { s with tabs := mapClear s.tabs lo n } :=
  ⟨h.1, mapClear_wf h.2.1 _ _, h.2.2⟩

theorem dropCtrs (h : Canon s) {p} : Canon { s with ctrs := mapDrop s.ctrs p } :=
  ⟨h.1, h.2.1, mapDrop_wf h.2.2.1 p, h.2.2.2⟩

theorem dropMem (h : Canon s) {p} : Canon { s with mem := mapDrop s.mem p } :=
  ⟨h.1, h.2.1, h.2.2.1, mapDrop_wf h.2.2.2 p⟩

section closure

variable {c : Prop} {i : Decidable c} {α β γ : Type}

theorem ite {a b : Box} (ha : Canon a) (hb : Canon b) : Canon (if c then a else b) := by
  split
  · exact ha
  · exact hb

theorem ite1 {a b : Box × α} (ha : Canon a.1) (hb : Canon b.1) : Canon (if c then a else b).1 := by
  split
  · exact ha
  · exact hb

theorem ite2 {a b : α × Box} (ha : Canon a.2) (hb : Canon b.2) : Canon (if c then a else b).2 := by
  split
  · exact ha
  · exact hb

theorem ite22 {a b : α × β × Box} (ha : Canon a.2.2) (hb : Canon b.2.2) : Canon (if c then a else b).2.2 := by
  split
  · exact ha
  · exact hb

theorem of2 {x : α × Box} {a b} (e : x = (a, b)) (h : Canon x.2) : Canon b := by
  rw [e] at h
  exact h

theorem of22 {x : α × β × Box} {a a' b} (e : x = (a, a', b)) (h : Canon x.2.2) : Canon b := by
  rw [e] at h
  exact h

theorem foldl {f : Box → α → Box} {l : List α} (h : Canon s) (hf : ∀ {b a}, Canon b → Canon (f b a)) :
    Canon (l.foldl f s) := by
  induction l generalizing s with
  | nil => exact h
  | cons a l ih => exact ih (hf h)

theorem foldr {f : α → Box → Box} {l : List α} (h : Canon s) (hf : ∀ {a b}, Canon b → Canon (f a b)) :
    Canon (l.foldr f s) := by
  induction l with
  | nil => exact h
  | cons a l ih => exact hf ih

theorem foldl1 {f : Box × β → α → Box × β} {l : List α} {x : Box × β} (h : Canon x.1)
    (hf : ∀ {b a}, Canon b.1 → Canon (f b a).1) : Canon (l.foldl f x).1 := by
  induction l generalizing x with
  | nil => exact h
  | cons a l ih => exact ih (hf h)

theorem optSome (h : Canon s) : ∀ b ∈ some s, Canon b := by
  rintro b ⟨⟩
  exact h

theorem optNone : ∀ b ∈ (none : Option Box), Canon b := fun _ hb => absurd hb (Option.not_mem_none _)

theorem optIte {a b : Option Box} (ha : ∀ x ∈ a, Canon x) (hb : ∀ x ∈ b, Canon x) :
    ∀ x ∈ (if c then a else b), Canon x := by
  split
  · exact ha
  · exact hb

theorem optGetD {o : Option Box} (ho : ∀ b ∈ o, Canon b) (h : Canon s) : Canon (o.getD s) := by
  cases o with
  | none => exact h
  | some b => exact ho b rfl

end closure

/-! ### Machine/Flags.lean -/

theorem setWord (h : Canon s) {a w} : Canon (s.setWord a w) :=
  ⟨mapSet_wf h.1 _ _, h.2⟩

theorem wr (h : Canon s) {f v} : Canon (s.wr f v) :=
  h.setWord

theorem put (h : Canon s) {f b} : Canon (s.put f b) :=
  h.wr

theorem setTab (h : Canon s) {a w} : Canon (s.setTab a w) :=
  ⟨h.1, mapSet_wf h.2.1 _ _, h.2.2⟩

theorem setTabEntry {ws : List Word} : ∀ {s : Box} (_ : Canon s) {a}, Canon (s.setTabEntry a ws) := by
  induction ws with
  | nil => exact fun h => h
  | cons w ws ih => exact fun h => ih h.setTab

theorem emit (h : Canon s) {o} : Canon (s.emit o) :=
  h.same

theorem sendVector (h : Canon s) {v} : Canon (s.sendVector v) :=
  h.put.ite h.emit

theorem raiseInt (h : Canon s) {p bit} : Canon (s.raiseInt p bit) :=
  h.put.sendVector.ite h.put

theorem resendVector (h : Canon s) {p} : Canon (s.resendVector p) :=
  h.sendVector.ite h

theorem pageErr (h : Canon s) {p off src f} : Canon (s.pageErr p off src f) :=
  have h2 := (h.put.ite h.wr.wr).put
  h2.ite h2.raiseInt

theorem accErr (h : Canon s) {p off src} : Canon (s.accErr p off src) :=
  h.pageErr

theorem rsvWrite (h : Canon s) {p off src} : Canon (s.rsvWrite p off src) :=
  h.pageErr

theorem accErrAt (h : Canon s) {a src} : Canon (s.accErrAt a src) :=
  h.accErr

theorem rsvWriteAt (h : Canon s) {a src} : Canon (s.rsvWriteAt a src) :=
  h.rsvWrite

theorem bump (h : Canon s) {p i n} : Canon (s.bump p i n) :=
  have h1 := h.setCtr
  h1.put.raiseInt.ite h1

theorem count (h : Canon s) {p i} : Canon (s.count p i) :=
  h.bump

theorem countPort (h : Canon s) {pg i p n} : Canon (s.countPort pg i p n) :=
  h.bump.ite h

theorem lnkCount (h : Canon s) {k p} : Canon (s.lnkCount k p) :=
  h.countPort

theorem fwdCount (h : Canon s) {k p} : Canon (s.fwdCount k p) :=
  h.countPort

theorem calCount (h : Canon s) {k p n} : Canon (s.calCount k p n) :=
  h.countPort

theorem carCount (h : Canon s) {k p} : Canon (s.carCount k p) :=
  h.countPort

theorem takeFree (h : Canon s) : Canon (s.takeFree).2 :=
  h.same

theorem setPort (h : Canon s) {p x} : Canon (s.setPort p x) :=
  h.same

theorem setTent (h : Canon s) {t x} : Canon (s.setTent t x) :=
  h.same

theorem setCal (h : Canon s) {p x} : Canon (s.setCal p x) :=
  h.same

theorem setStaged (h : Canon s) {k x} : Canon (s.setStaged k x) :=
  h.same

/-! ### Machine/Ops.lean -/

theorem anchored {b a : Box} (h : Canon b) (_ : Canon a) : Canon (b.anchored a) :=
  h.same

theorem gateWrite (h : Canon s) {a src f} (hf : ∀ {y0}, Canon y0 → Canon (f y0)) : Canon (s.gateWrite a src f) :=
  h.ite (h.accErr.ite (hf h))

theorem setQueued (h : Canon s) {q n} : Canon (s.setQueued q n) :=
  h.same

theorem setWords {ws : List Word} : ∀ {s : Box} (_ : Canon s) {a}, Canon (s.setWords a ws) := by
  induction ws with
  | nil => exact fun h => h
  | cons w ws ih => exact fun h => ih h.setWord

theorem post (h : Canon s) {q p i rec} : Canon (s.post q p i rec) :=
  (h.count.raiseInt.ite h.count).ite h.setWords.wr.setQueued

theorem bmtEvent (h : Canon s) {rec} : Canon (s.bmtEvent rec) := by
  unfold Box.bmtEvent
  split
  · exact h
  · exact h.emit
  · exact h.upd

theorem bmtNotify (h : Canon s) {rec} : Canon (s.bmtNotify rec) :=
  (h.emit.ite h).bmtEvent

theorem postFlushed (h : Canon s) {stream cepoch chunk part port reason} : Canon (s.postFlushed stream cepoch chunk part
    port reason) :=
  h.post.raiseInt.ite h.post

theorem postFault (h : Canon s) {cls cause unit tent pattern} : Canon (s.postFault cls cause unit tent pattern) :=
  h.upd.post.bmtNotify.raiseInt

theorem postSuspect (h : Canon s) {kind port stream cepoch mepoch contrib chunk} : Canon (s.postSuspect kind port stream
    cepoch mepoch contrib chunk) :=
  h.post.bmtNotify.raiseInt

theorem envBreak (h : Canon s) {p bit} : Canon (s.envBreak p bit) :=
  h.ite h.put.raiseInt

theorem envEvent (h : Canon s) {p bit} : Canon (s.envEvent p bit) :=
  h.envBreak.ite h

theorem envBreakAll (h : Canon s) {ts bit} : Canon (s.envBreakAll ts bit) :=
  h.foldl fun h1 => h1.envBreak

theorem giveCredit (h : Canon s) {p v n} : Canon (s.giveCredit p v n) :=
  h.setPort

theorem sendCtl (h : Canon s) {p m} : Canon (s.sendCtl p m) :=
  h.setPort

theorem stageOwn (h : Canon s) {p bank g} : Canon (s.stageOwn p bank g) := by
  unfold Box.stageOwn
  exact h.setStaged.upd

theorem originate (h : Canon s) {p f} : Canon (s.originate p f) :=
  h.setPort.stageOwn

theorem ethFrame (h : Canon s) {f} (hf : ∀ {y0}, Canon y0 → Canon (f y0)) : Canon (s.ethFrame f) :=
  h.upd.count.ite (hf h.upd)

/-! ### Machine/Barker.lean -/

theorem memWrite (h : Canon s) {t r off bs} : Canon (s.memWrite t r off bs) :=
  ⟨h.1, h.2.1, h.2.2.1, mapSetAll_wf h.2.2.2 _ _⟩

theorem setSampler (h : Canon s) {i x} : Canon (s.setSampler i x) :=
  h.same

theorem samplerEnable (h : Canon s) {t k} : Canon (s.samplerEnable t k) :=
  h.setSampler

theorem ringWrite (h : Canon s) {t base cap size head tail r} : ∀ b ∈ s.ringWrite t base cap size head tail r, Canon b :=
  have h1 := h.setTent.memWrite.wr
  optIte optNone (optIte (optIte (optSome h1.wr) optNone) (optSome h1))

theorem sampleRing (h : Canon s) {t r} : ∀ b ∈ s.sampleRing t r, Canon b :=
  h.ringWrite

theorem traceRing (h : Canon s) {t r} : ∀ b ∈ s.traceRing t r, Canon b :=
  h.ringWrite

theorem sampleWrite (h : Canon s) {t k point i} : Canon (s.sampleWrite t k point i) := by
  unfold Box.sampleWrite
  extract_lets x r s0 dest ring full drop0 drop1 s1 s2
  have h0 : Canon s0 := h.count
  have hring : ∀ b ∈ ring, Canon b := optIte h0.sampleRing optNone
  have h2 : Canon s2 := (h0.count.raiseInt.ite (optGetD hring h0)).setSampler
  exact h2.count.raiseInt.ite ((h2.wr.same).ite h2)

theorem sampleOne (h : Canon s) {t k point i} : Canon (s.sampleOne t k point i).1 := by
  unfold Box.sampleOne
  refine ite1 ?_ h
  extract_lets +onlyGivenNames x0 x
  refine ite1 ?_ h.setSampler
  extract_lets s1 s2 y
  have hs1 : Canon s1 := h.setSampler
  have hs2 : Canon s2 := hs1.ite hs1.sampleWrite
  exact hs2.setSampler

theorem samplePoint (h : Canon s) {t point i} : Canon (s.samplePoint t point i).1 :=
  foldl1 h fun h1 => h1.sampleOne

theorem traceExit (h : Canon s) {t tr outPort exit f} : Canon (s.traceExit t tr outPort exit f) := by
  -- The ring stays opaque, or the kernel would run `ringWrite` to reduce the match on its answer.
  have hring : ∀ r, ∀ b ∈ s.traceRing t r, Canon b := fun _ => h.traceRing
  delta Box.traceExit
  obtain ⟨ring, e⟩ : ∃ g, g = s.traceRing t := ⟨_, rfl⟩
  rw [← e] at hring ⊢
  split
  · exact h
  · split
    · next hb => exact hring _ _ hb
    · split
      · exact h.setSampler.count.raiseInt
      · exact h.raiseInt

/-! ### Machine/Usher.lean -/

theorem growCells (h : Canon s) {t own n} : Canon (s.growCells t own n).2 :=
  h.setTent

theorem allocCells (h : Canon s) {t n} : Canon (s.allocCells t n).2 :=
  h.growCells

theorem rowRepair (h : Canon s) {t r} : Canon (s.rowRepair t r) :=
  h.setTent.upd.ite h

theorem rowFault (h : Canon s) {t c} : Canon (s.rowFault t c) :=
  have h1 := h.takeFree.postFault
  h1.setTent.rowRepair.ite h1

theorem freeCellFrom (h : Canon s) {t lo c} : Canon (s.freeCellFrom t lo c) :=
  h.setTent.rowRepair.ite h.count

theorem freeCell (h : Canon s) {t c} : Canon (s.freeCell t c) :=
  h.freeCellFrom

theorem freeCells (h : Canon s) {t cs} : Canon (s.freeCells t cs) :=
  h.foldl fun h1 => h1.freeCell

theorem freeBlockAt (h : Canon s) {t k cs} : Canon (s.freeBlockAt t k cs) :=
  (h.foldl fun h1 => h1.freeCellFrom).ite h.count

theorem readSpan (h : Canon s) {t cells pool f reads off n} : Canon (s.readSpan t cells pool f reads off n).2 := by
  unfold Box.readSpan
  extract_lets chain stop at_ link ok fail m wrong f1 s1 s2 s3
  have hs1 : Canon s1 := h.foldl fun h1 => h1.count.raiseInt
  have hs2 : Canon s2 := hs1.foldl fun h1 => h1.count.rowFault
  have hs3 : Canon s3 := hs2.foldl fun h1 => h1.count
  cases fail with
  | none => exact hs3
  | some i => exact hs3.count.raiseInt

theorem readFrame (h : Canon s) {t cells pool f reads} : Canon (s.readFrame t cells pool f reads).2 :=
  h.readSpan

theorem release (h : Canon s) {d} : Canon (s.release d) := by
  unfold Box.release
  extract_lets s1
  have hs1 : Canon s1 := by
    unfold s1
    split
    · exact h.freeBlockAt
    · exact h.freeCells
  split
  · exact hs1.giveCredit.ite hs1
  · exact hs1

theorem partFree (h : Canon s) {p} : Canon (s.partFree p) :=
  h.freeCells.setPort

theorem unspill (h : Canon s) {d} : Canon (s.unspill d) :=
  h.same

theorem dropDesc (h : Canon s) {d exit} : Canon (s.dropDesc d exit) :=
  h.upd.release.unspill.traceExit

theorem evict (h : Canon s) {t d} : Canon (s.evict t d) := by
  unfold Box.evict
  split
  · exact h.dropDesc.countPort
  · exact h.dropDesc

theorem pushOut {fuel : Nat} : ∀ {s : Box} (_ : Canon s) {t p n plen cls}, Canon (Box.pushOut t p n plen cls fuel s) := by
  induction fuel with
  | zero => exact fun h => h
  | succ fuel ih => exact fun h => h.ite (by split; exacts [h, ih h.evict])

theorem regrow (h : Canon s) {t p} : Canon (s.regrow t p) :=
  h.setTent.ite h

theorem admitOpen (h : Canon s) {t p egress v n plen} : Canon (s.admitOpen t p egress v n plen).2 :=
  ite2 h (ite2 h (ite2 h h.pushOut))

theorem admitFrame (h : Canon s) {t p egress v n plen} : Canon (s.admitFrame t p egress v n plen).2 :=
  ite2 h.regrow h.regrow.admitOpen

theorem congest (h : Canon s) {t part} : Canon (s.congest t part) :=
  h.foldl fun h1 => h1.envEvent

theorem setSpill (h : Canon s) {t q x} : Canon (s.setSpill t q x) :=
  h.same

theorem spillStatus (h : Canon s) {t} : Canon (s.spillStatus t) :=
  have h1 := h.put.put.put
  h1.raiseInt.ite h1

theorem spillAssign (h : Canon s) {t q} : Canon (s.spillAssign t q) := by
  unfold Box.spillAssign
  split
  · exact h
  · exact h.ite (h.ite h.setSpill.congest)

theorem spillStart (h : Canon s) {t p} : Canon (s.spillStart t p) := by
  unfold Box.spillStart
  extract_lets occ
  refine ite ?_ h
  split
  · exact h
  · exact h.setSpill.spillAssign

theorem spillLeaveOne (h : Canon s) {t q} : Canon (s.spillLeaveOne t q) := by
  unfold Box.spillLeaveOne
  split
  · exact h
  · exact h.ite h.setSpill.upd

theorem spillLeave (h : Canon s) {t} : Canon (s.spillLeave t) :=
  h.foldl fun h1 => h1.spillLeaveOne

theorem spillStop (h : Canon s) {t} : Canon (s.spillStop t) := by
  unfold Box.spillStop
  exact h.ite h.upd

theorem spillSettle (h : Canon s) {t} : Canon (s.spillSettle t) :=
  ((h.spillStop.spillLeave.foldl fun h2 => h2.spillStart).foldl fun h3 => h3.spillAssign).spillStatus

theorem spillCommit (h : Canon s) {t q} : Canon (s.spillCommit t q) := by
  unfold Box.spillCommit
  split
  · exact h
  · exact (h.foldl fun h1 => h1.freeCells).upd

theorem spillRead (h : Canon s) {id off n reads} : Canon (s.spillRead id off n reads) := by
  unfold Box.spillRead
  split
  · exact h
  · split
    next r s1 e =>
      have hs1 : Canon s1 := of2 e h.readSpan
      exact hs1.upd

theorem spillReads {bs : List SpillBlock} {ps} :
    ∀ {s : Box} (_ : Canon s) {reads}, Canon (Machine.spillReads bs ps reads s) := by
  induction ps with
  | nil => exact fun h => h
  | cons e ps ih => exact fun h => ih h.spillRead

theorem spillWrite (h : Canon s) {t q ready reads} : Canon (s.spillWrite t q ready reads) := by
  unfold Box.spillWrite
  split
  · exact h
  · exact h.ite h.spillReads.setTent.setSpill.spillCommit.spillSettle

theorem spillRecall (h : Canon s) {t q} : Canon (s.spillRecall t q) := by
  unfold Box.spillRecall
  split
  · exact h
  · extract_lets +onlyGivenNames rate
    split
    · exact h.setTent.setSpill.ite h
    · exact h

theorem recallPart (h : Canon s) {t id n read} : Canon (s.recallPart t id n read) := by
  unfold Box.recallPart
  split
  · exact h
  · next d _ => exact (h.growCells (t := t) (own := d.cells) (n := d.cells.length + n)).same

theorem recallParts {t : Nat} {read ps} :
    ∀ {s : Box} (_ : Canon s) {off}, Canon (Machine.recallParts t read ps off s) := by
  induction ps with
  | nil => exact fun h => h
  | cons e ps ih => exact fun h => ih h.recallPart

theorem spillRecallDone (h : Canon s) {t q read uncorr} : Canon (s.spillRecallDone t q read uncorr) := by
  unfold Box.spillRecallDone
  split
  · exact h
  · split
    · exact (h.count.raiseInt.ite h).setSpill.recallParts.spillSettle
    · exact h

theorem discardWhere (h : Canon s) {p exit act} (hact : ∀ {y0 y1}, Canon y0 → Canon (act y0 y1)) : Canon (s.discardWhere
    p exit act) :=
  h.foldl fun h1 => hact h1.dropDesc

theorem ushAudit (h : Canon s) {src t} : Canon (s.ushAudit src t) :=
  h.accErrAt.ite h.setTent.put

theorem ushAuditDone (h : Canon s) {t} : Canon (s.ushAuditDone t) := by
  unfold Box.ushAuditDone
  split
  · exact h
  · exact (h.setTent.foldl fun h1 => h1.freeCellFrom).bump.put.raiseInt

theorem reserveReturn (h : Canon s) {p} : Canon (s.reserveReturn p) :=
  h.setPort

end Canon

end Sys2Proof.Proofs
end

section
/-!
# Canonical maps: forwarding, groups, time and links
-/

namespace Sys2Proof.Proofs

open Sys2Proof Sys2Proof.Machine Sys2Proof.Safety Sys2Proof.Laws

-- A lemma's proof ends before the next begins: proofs that wait for the lemmas they cite would hold a thread each.
set_option Elab.async false

namespace Canon

variable {s : Box}

/-! ### Machine/Forward.lean -/

theorem lookup (h : Canon s) {t pipe b f} : Canon (s.lookup t pipe b f).2 := by
  unfold Box.lookup
  refine ite2 h ?_
  split
  · exact h
  · refine ite2 ?_ ?_
    · extract_lets x ptr
      split
      · exact h
      · exact h.setTent
    · split
      · exact h
      · exact h

theorem sendNotice (h : Canon s) {code rs} : Canon (s.sendNotice code rs) := by
  unfold Box.sendNotice
  extract_lets ports pay s1
  have hs1 : Canon s1 := h.foldl fun h1 => h1.setPort.originate
  exact (hs1.foldl fun h1 => h1.raiseInt).ite hs1

theorem withdraw (h : Canon s) {before after port} : Canon (s.withdraw before after port) :=
  h.ite (h.foldl fun h1 => h1.sendNotice).postSuspect

theorem vc6Send (h : Canon s) {dst m} : Canon (s.vc6Send dst m) := by
  unfold Box.vc6Send
  extract_lets r pay own f
  have h1 {s1 : Box} (hs1 : Canon s1) {t b f} := hs1.lookup (t := t) (pipe := 9) (b := b) (f := f)
  split
  · next e => exact (of2 e (h1 h.same)).stageOwn
  · next e => exact of2 e (h1 h.same)

theorem vc6Drain (h : Canon s) : Canon s.vc6Drain :=
  h.upd.foldl fun h1 => h1.vc6Send

theorem clearLive (h : Canon s) {b p} : Canon (s.clearLive b p) :=
  h.foldl fun h1 => h1.foldl fun h2 => h2.setTab.ite h2

theorem fenceStatus (h : Canon s) : Canon s.fenceStatus :=
  h.put

theorem drainCheck (h : Canon s) : Canon s.drainCheck :=
  h.put.raiseInt.fenceStatus.ite h

theorem fenceRelease (h : Canon s) {p} : Canon (s.fenceRelease p) :=
  h.ite h.upd.fenceStatus

theorem fwdTblCmd (h : Canon s) {src table b i read} : Canon (s.fwdTblCmd src table b i read) :=
  h.rsvWriteAt.ite (h.accErrAt.ite (h.accErrAt.ite (h.put.upd.ite (h.accErrAt.ite (h.put.accErrAt.raiseInt.ite
      (h.rsvWriteAt.ite h).put.upd)))))

theorem fwdTblDone (h : Canon s) : Canon s.fwdTblDone := by
  unfold Box.fwdTblDone
  split
  · exact h
  · exact (h.setWords.ite h.setTabEntry).put.upd

theorem fwdSwitch (h : Canon s) {src atTrig trig} : Canon (s.fwdSwitch src atTrig trig) := by
  unfold Box.fwdSwitch
  exact h.accErrAt.ite h.put.upd

theorem fwdBankSwitch (h : Canon s) {t} : Canon (s.fwdBankSwitch t) := by
  unfold Box.fwdBankSwitch
  split
  · exact h
  · refine ite ?_ h
    extract_lets +onlyGivenNames old new s1 _ s1' s2 left
    have h1 : Canon s1' := h.clearLive.setTent
    have h2 : Canon s2 := h1.ite h1.put
    refine ite ?_ h2.same
    extract_lets +onlyGivenNames _ s3 port s4
    have h3 : Canon s3 := (h2.wr (f := FWD_EPOCH_STATUS_LIVE 0) (v := new)).put.same
    have h4 : Canon s4 := (h3.same (t := { s3 with freeCtr := s3.freeCtr + 1 })).withdraw
    exact h4.raiseInt.fenceStatus

theorem fwdTrigger (h : Canon s) {u i} : Canon (s.fwdTrigger u i) := by
  unfold Box.fwdTrigger
  split
  · exact h.upd.ite h
  · exact h

theorem loseCopy (h : Canon s) {f k port reason} : Canon (s.loseCopy f k port reason) :=
  h.postFlushed.ite h

theorem loseResult (h : Canon s) {r ports reason} : Canon (s.loseResult r ports reason) :=
  h.foldl fun h1 => h1.loseCopy

theorem fwdFlushOld (h : Canon s) : Canon s.fwdFlushOld := by
  unfold Box.fwdFlushOld
  refine ite h ?_
  extract_lets s1 oldSt gone s2 s3 oldRes s4 s5
  have hs1 : Canon s1 := by
    unfold s1
    refine h.discardWhere fun h1 => ?_
    split
    · exact h1.fwdCount
    · exact h1
  have hs2 : Canon s2 := hs1.upd
  have hs3 : Canon s3 := by
    unfold s3
    refine hs2.foldl fun h1 => ?_
    extract_lets b1
    have hb1 : Canon b1 := (h1.release.ite h1).traceExit
    split
    · exact hb1.fwdCount
    · split
      · exact hb1.loseCopy
      · exact hb1
  have hs4 : Canon s4 := hs3.upd.foldl fun h1 => h1.freeCells.loseResult
  have hs5 : Canon s5 := hs4.upd
  exact (hs5.foldl fun h1 => h1.spillSettle).fenceStatus.drainCheck

theorem fwdCopy (h : Canon s) {src} : Canon (s.fwdCopy src) :=
  h.accErrAt.ite h.put

theorem fwdCopyDone (h : Canon s) : Canon s.fwdCopyDone :=
  ite (put (foldr (clearTabs h) fun h1 => h1.setTab)) h

theorem noticeGo (h : Canon s) {src count first} : Canon (s.noticeGo src count first) :=
  h.accErrAt.ite (h.ite h.put.upd)

theorem noticeSend (h : Canon s) : Canon s.noticeSend := by
  unfold Box.noticeSend
  split
  · exact h
  · next n ns _ =>
    have h1 := (h.sendNotice (code := 0x22) (rs := n)).upd (t := { s.sendNotice 0x22 n with notices := ns })
    exact h1.put.ite h1

theorem flushPort (h : Canon s) {p} : Canon (s.flushPort p) := by
  unfold Box.flushPort
  extract_lets s1 st s2 s3 hit s4 cut gone dead
  have hs1 : Canon s1 := h.discardWhere (fun h1 => h1.count)
  have hs2 : Canon s2 := hs1.foldl fun h1 => h1.setStaged
  have hs3 : Canon s3 := by
    unfold s3
    refine hs2.foldl fun h1 => ?_
    extract_lets +onlyGivenNames b1
    have hb1 : Canon b1 := h1.release.ite h1
    refine ite hb1 ?_
    extract_lets b2
    have hb2 : Canon b2 := hb1.traceExit.count
    split
    · exact hb2.loseCopy
    · exact hb2
  have hs4 : Canon s4 := hs3.foldl fun h1 => h1.loseResult.count
  exact hs4.upd.foldl fun h1 => h1.freeCells

theorem reroute (h : Canon s) {p} : Canon (s.reroute p) :=
  (h.clearLive.clearLive.flushPort.withdraw.foldl fun h4 => h4.spillSettle).fenceStatus

/-! ### Machine/Groups.lean -/

theorem setStrm (h : Canon s) {st word lo width v} : Canon (s.setStrm st word lo width v) :=
  h.setTab

theorem setStrmState (h : Canon s) {st v} : Canon (s.setStrmState st v) :=
  h.setStrm

theorem setSx (h : Canon s) {st x} : Canon (s.setSx st x) :=
  h.same

theorem setSliver (h : Canon s) {i x} : Canon (s.setSliver i x) :=
  h.same

theorem drainEval (h : Canon s) {st} : Canon (s.drainEval st) :=
  h.setSx.raiseInt.ite h

theorem drainMark (h : Canon s) {st p} : Canon (s.drainMark st p) :=
  h.ite h.setSx.drainEval

theorem drainGroup (h : Canon s) {gi} : Canon (s.drainGroup gi) :=
  h.foldl fun h1 => h1.drainEval

theorem drainPortDown (h : Canon s) {p} : Canon (s.drainPortDown p) :=
  h.foldl fun h1 => h1.drainMark

/-! ### Machine/Time.lean -/

theorem request (h : Canon s) {a} : Canon (s.request a) :=
  h.same

theorem requestRate (h : Canon s) {r} : Canon (s.requestRate r) :=
  h.request

theorem servoEnter (h : Canon s) {st} : Canon (s.servoEnter st) :=
  have h2 := h.wr.ite h.wr.envBreakAll
  h2.raiseInt.ite h2

theorem servoHoldover (h : Canon s) : Canon s.servoHoldover :=
  h.servoEnter.requestRate

theorem servoParentLost (h : Canon s) {p} : Canon (s.servoParentLost p) :=
  h.servoHoldover.ite h

theorem setPtp (h : Canon s) {p x} : Canon (s.setPtp p x) :=
  h.same

theorem sendPtp (h : Canon s) {p m} : Canon (s.sendPtp p m) :=
  h.originate

theorem relaySettle (h : Canon s) {p} : Canon (s.relaySettle p) :=
  h.setPtp.foldl fun h2 => h2.sendPtp

theorem ptpLaunch (h : Canon s) {p f t32} : Canon (s.ptpLaunch p f t32) := by
  unfold Box.ptpLaunch
  extract_lets m x q u
  refine ite h ?_
  split
  · exact h.setPtp.relaySettle.ite h.sendPtp
  · split
    · exact h.setPtp.ite h
    · exact h
  · split
    · exact h.setPtp.sendPtp
    · exact h
  · exact h

/-! ### Machine/Link.lean -/

theorem syncLink (h : Canon s) {p} : Canon (s.syncLink p) :=
  h.put.put.wr

theorem setLink (h : Canon s) {p x} : Canon (s.setLink p x) :=
  h.setPort.syncLink

theorem laneFlit (h : Canon s) {p pos w fl} : Canon (s.laneFlit p pos w fl) :=
  (h.emit.ite h).setPort.emit

theorem sendFlit (h : Canon s) {p ftype seq fstart body} : Canon (s.sendFlit p ftype seq fstart body) :=
  h.setPort.laneFlit.setPort

theorem trainFlit (h : Canon s) {p} : Canon (s.trainFlit p) :=
  (h.foldl fun h1 => h1.laneFlit).setPort

theorem showCauses (h : Canon s) {p} : Canon (s.showCauses p) :=
  h.put.put.put

theorem trainStart (h : Canon s) {p} : Canon (s.trainStart p) := by
  unfold Box.trainStart
  refine ite ?_ h
  extract_lets _ x s0 s1
  have hs0 : Canon s0 := h.setPort
  have hs1 : Canon s1 := hs0.ite hs0.showCauses
  exact hs1.setPort.put.wr

theorem blockReceive (h : Canon s) {p blk} : Canon (s.blockReceive p blk) :=
  have h1 := h.setPort
  h1.setPort.wr.wr.wr.wr.wr.showCauses.wr.ite h1

theorem tripsTimed (h : Canon s) {p trips} : Canon (s.tripsTimed p trips) :=
  h.wr.wr

theorem portUp {s0 : Box} (h : Canon s0) {p trips} : Canon (s0.portUp p trips) :=
  h.tripsTimed.setPort.wr.wr.wr.put.put.wr.syncLink.raiseInt.ite h

theorem trainingRetry (h : Canon s) {p} : Canon (s.trainingRetry p) := by
  unfold Box.trainingRetry
  split
  · exact h
  · exact h.lnkCount.raiseInt.trainStart.ite h

theorem linkDown {s0 : Box} (h : Canon s0) {p} : Canon (s0.linkDown p) :=
  h.trainFlit.partFree.setPort.put.wr.wr.wr.syncLink.wr.raiseInt.envBreak.servoParentLost

theorem portDown (h : Canon s) {p} : Canon (s.portDown p) := by
  unfold Box.portDown
  refine ite h ?_
  split
  next i s3 e =>
    have hs3 : Canon s3 := of2 e h.linkDown.takeFree
    extract_lets s4 s5
    have hs4 : Canon s4 := hs3.postFault.postSuspect
    have hs5 : Canon s5 := hs4.reroute.drainPortDown
    exact hs5.put.postSuspect.ite hs5.trainStart

theorem silence (h : Canon s) {p} : Canon (s.silence p) :=
  h.portDown.ite h

theorem skewDown (h : Canon s) {p} : Canon (s.skewDown p) :=
  h.put.raiseInt.portDown

theorem wantRetry (h : Canon s) {p} : Canon (s.wantRetry p) := by
  unfold Box.wantRetry
  extract_lets x
  split
  · exact h
  · exact h.setPort

theorem onRetryReq (h : Canon s) {p seq} : Canon (s.onRetryReq p seq) :=
  h.setPort.lnkCount.ite h.lnkCount

theorem retryRepeat (h : Canon s) {p} : Canon (s.retryRepeat p) := by
  unfold Box.retryRepeat
  extract_lets x waits
  split
  · exact h
  · exact h.ite ((h.put.raiseInt.portDown.ite h.setPort).ite h)

theorem onLaneReq (h : Canon s) {p force map t} : Canon (s.onLaneReq p force map t) :=
  h.sendCtl.ite (h.sendCtl.ite (h.sendCtl.ite h.setLink.sendCtl))

theorem onLaneAck (h : Canon s) {p t} : Canon (s.onLaneAck p t) := by
  unfold Box.onLaneAck
  extract_lets x
  split
  · exact h.setPort.ite h
  · exact h

theorem onLaneNak (h : Canon s) {p t} : Canon (s.onLaneNak p t) := by
  unfold Box.onLaneNak
  extract_lets x
  split
  · exact h.setLink.ite h
  · exact h

theorem laneSwitch (h : Canon s) {p d} : Canon (s.laneSwitch p d) := by
  unfold Box.laneSwitch
  extract_lets +onlyGivenNames x
  split
  · split
    · refine ite ?_ h
      extract_lets n s1
      have hs1 : Canon s1 := h.wr.setLink
      exact hs1.ite hs1.envEvent
    · exact h
  · split
    · exact h.wr.setLink.ite h
    · exact h

theorem laneCancel (h : Canon s) {p} : Canon (s.laneCancel p) := by
  unfold Box.laneCancel
  extract_lets x
  split
  · exact h.setLink.ite h
  · exact h

theorem laneChange (h : Canon s) {p force map} : Canon (s.laneChange p force map) :=
  h.ite h.setLink

theorem stampCtl (h : Canon s) {p m} : Canon (s.stampCtl p m).2 := by
  unfold Box.stampCtl
  extract_lets x
  refine ite2 h.setPort ?_
  split
  · exact ite2 h.setPort h
  · exact h

theorem onLaneFail (h : Canon s) {p lane} : Canon (s.onLaneFail p lane) := by
  unfold Box.onLaneFail
  split
  · exact h
  · exact h.ite h.laneChange

theorem laneAdopt (h : Canon s) {p lane w} : Canon (s.laneAdopt p lane w) := by
  unfold Box.laneAdopt
  extract_lets +onlyGivenNames m
  split
  · exact h
  · split
    · exact h
    · exact h.wr.setPort.lnkCount.raiseInt.ite h

theorem laneFault (h : Canon s) {p w} : Canon (s.laneFault p w) :=
  have h1 := h.takeFree.postFault
  h1.setPort.ite h1

theorem laneFecLoss (h : Canon s) {p lane others} : Canon (s.laneFecLoss p lane others) := by
  unfold Box.laneFecLoss
  split
  · exact h
  · refine ite h ?_
    extract_lets x s1 s2
    have hs1 : Canon s1 := h.setPort
    have hs2 : Canon s2 := hs1.laneFault
    exact hs2.sendCtl.ite hs2

theorem onPause (h : Canon s) {p len} : Canon (s.onPause p len) :=
  h.lnkCount.ite h.setLink.envEvent

theorem onResume (h : Canon s) {p} : Canon (s.onResume p) :=
  h.lnkCount.ite (h.ite h.setLink)

theorem pauseTimeout (h : Canon s) {p} : Canon (s.pauseTimeout p) := by
  unfold Box.pauseTimeout
  split
  · exact h.portDown.ite h
  · exact h

theorem sendPause (h : Canon s) {p len} : Canon (s.sendPause p len) :=
  h.ite h.setLink.envEvent

theorem sendResume (h : Canon s) {p} : Canon (s.sendResume p) :=
  h.ite h.setLink

theorem frameLand (h : Canon s) {p f at_} : Canon (s.frameLand p f at_) :=
  h.growCells.setPort

theorem frameGrow (h : Canon s) {p bs at_} : Canon (s.frameGrow p bs at_) :=
  h.growCells.setPort

theorem framingError (h : Canon s) {p inProgress} : Canon (s.framingError p inProgress) :=
  (h.ite (h.lnkCount.ite h.giveCredit)).partFree.setPort.lnkCount

theorem takeFrames {fuel : Nat} : ∀ {s : Box} (_ : Canon s) {p now bs}, Canon (Box.takeFrames p now fuel bs s) := by
  induction fuel with
  | zero => exact fun h => h
  | succ fuel ih => exact fun h => h.ite (h.framingError.ite ((ih h.frameLand).ite h.frameGrow))

theorem deliverBody (h : Canon s) {p fstart body now} : Canon (s.deliverBody p fstart body now) := by
  unfold Box.deliverBody
  extract_lets +onlyGivenNames x
  refine ite (h.setPort.takeFrames.ite h) ?_
  extract_lets +onlyGivenNames need carried
  refine ite h.framingError ?_
  extract_lets got s1
  have hs1 : Canon s1 := h.ite (h.frameLand.ite h.frameGrow)
  exact hs1.takeFrames.ite hs1

theorem onCtl (h : Canon s) {p body} : Canon (s.onCtl p body) := by
  unfold Box.onCtl
  split
  · exact h.onRetryReq
  · exact h.onLaneReq
  · exact h.onLaneAck
  · exact h.onLaneNak
  · exact h.onLaneFail
  · exact h.onPause
  · exact h.onResume
  · exact h.lnkCount

theorem takeHeader (h : Canon s) {p b} : Canon (s.takeHeader p b) :=
  h.setPort

theorem flitUp (h : Canon s) {p lane rx} : Canon (s.flitUp p lane rx) := by
  unfold Box.flitUp
  extract_lets +onlyGivenNames b bad reserved
  refine ite ?_ ?_
  · extract_lets x out s1 s2
    have hs1 : Canon s1 := h.setPort
    have hs2 : Canon s2 := hs1.lnkCount.ite hs1
    exact hs2.wantRetry.ite hs2
  · extract_lets +onlyGivenNames x s1
    have hs1 : Canon s1 := h.setPort.takeHeader
    split
    · exact hs1.setPort.deliverBody.ite (hs1.lnkCount.wantRetry.ite hs1.wantRetry)
    · exact hs1.onCtl
    · exact hs1

theorem flitDropped (h : Canon s) {p b} : Canon (s.flitDropped p b) :=
  h.setPort.ite h

theorem flitReceive (h : Canon s) {p rx} : Canon (s.flitReceive p rx) := by
  unfold Box.flitReceive
  extract_lets +onlyGivenNames lnk l
  refine ite h ?_
  extract_lets +onlyGivenNames s1
  have hs1 : Canon s1 := h.bump.bump
  refine ite ?_ (hs1.blockReceive.ite hs1)
  extract_lets x s2 good
  have hs2 : Canon s2 := hs1.setPort
  exact hs2.ite (hs2.portDown.ite (hs2.flitDropped.ite hs2.flitUp))

theorem markerTrain (h : Canon s) {p m} : Canon (s.markerTrain p m) :=
  have h1 := h.setPort
  h1.ite (h1.wr.ite (h1.wr.ite h1))

theorem laneMarker (h : Canon s) {p m} : Canon (s.laneMarker p m) := by
  unfold Box.laneMarker
  extract_lets +onlyGivenNames x
  refine ite h.markerTrain ?_
  refine ite h ?_
  refine ite h.skewDown ?_
  refine ite (h.setPort.ite h.setPort) ?_
  extract_lets w s1
  have hs1 : Canon s1 := h.setPort
  exact hs1.skewDown.ite hs1

end Canon

end Sys2Proof.Proofs
end

section
/-!
# Canonical maps: ingress, egress, counters, seals and streams
-/

namespace Sys2Proof.Proofs

open Sys2Proof Sys2Proof.Machine Sys2Proof.Safety Sys2Proof.Laws

-- A lemma's proof ends before the next begins: proofs that wait for the lemmas they cite would hold a thread each.
set_option Elab.async false

namespace Canon

variable {s : Box}

/-! ### Machine/Ingress.lean -/

theorem setBucket (h : Canon s) {p v b} : Canon (s.setBucket p v b) :=
  h.same

theorem police (h : Canon s) {p v n t} : Canon (s.police p v n t).2 := by
  unfold Box.police
  extract_lets +onlyGivenNames cfg
  refine ite2 h ?_
  extract_lets len b ok c s1
  have hs1 : Canon s1 := h.setBucket.setTab
  exact hs1.ite hs1.countPort.raiseInt

theorem bucketWrite (h : Canon s) {src p v w x} : Canon (s.bucketWrite src p v w x) := by
  unfold Box.bucketWrite
  extract_lets +onlyGivenNames a pg off t chk
  have hchk {m b} (hb : Canon b) : Canon (chk m b) := by
    unfold chk
    exact hb.ite hb.rsvWrite
  refine ite h.rsvWrite ?_
  split
  · exact hchk h.setTab.setBucket
  · exact hchk h.setTab.setBucket
  · exact hchk h
  · exact hchk h

theorem landedGone (h : Canon s) {p l credit} : Canon (s.landedGone p l credit) :=
  have h1 := h.freeCells
  h1.giveCredit.ite h1

theorem judge (h : Canon s) {p l entry} : Canon (s.judge p l entry).2 := by
  unfold Box.judge
  extract_lets +onlyGivenNames f
  split
  · exact h
  · extract_lets local_
    refine ite2 h ?_
    split
    next r s1 e =>
      have h1 : Canon s1 := of2 e (ite2 h h.lookup)
      split
      · exact h
      · extract_lets egr
        refine ite2 (by split; exacts [h, h]) ?_
        split
        · next e' => exact of2 e' h.police
        · exact h1.police

theorem enqueue (h : Canon s) {p l slot tr} : Canon (s.enqueue p l slot tr) := by
  unfold Box.enqueue
  extract_lets +onlyGivenNames t f v n part
  split
  next ok s1 e =>
    have hs1 : Canon s1 := of2 e h.admitFrame
    extract_lets alone pool' d _ _ s2 s3 s4 s5
    have hs2 : Canon s2 := by
      unfold s2
      generalize pool' = x
      split
      · exact hs1.freeCells.setTent
      · exact hs1
    have hs3 : Canon s3 := hs2.upd
    have hs4 : Canon s4 := hs3.giveCredit.ite hs3
    have hs5 : Canon s5 := hs4.ite hs4.congest
    exact hs5.spillSettle.fenceStatus

theorem followTrace (h : Canon s) {p l} : Canon (s.followTrace p l).2 :=
  ite2 (ite2 h.count h.count) h

theorem tagTrace (h : Canon s) {p l tagged tr} : Canon (s.tagTrace p l tagged tr).2 := by
  unfold Box.tagTrace
  extract_lets t
  split
  · exact h
  · exact ite2 h (ite2 h.count h.count)

theorem ingressSample (h : Canon s) {p l v} : Canon (s.ingressSample p l v).1 := by
  unfold Box.ingressSample
  extract_lets info
  split
  · exact h
  · exact h
  · exact h
  · exact h.samplePoint

theorem settle (h : Canon s) {p l v tr} : Canon (s.settle p l v tr) := by
  unfold Box.settle
  extract_lets gone it _ _ s1
  have hgone : Canon gone := h.landedGone
  have hs1 : Canon s1 := by
    unfold s1
    split
    · exact hgone.lnkCount
    · exact hgone.lnkCount
    · exact hgone.lnkCount
    · exact hgone.fwdCount
    · exact hgone.count.raiseInt
    · exact hgone
    · exact hgone.lnkCount
    · exact hgone.lnkCount
    · exact hgone.carCount
    · exact hgone.count
    · exact hgone.upd
    · exact hgone.setPort
    · exact h.setPort.ite hgone.setPort
    · exact h.enqueue
  split
  · exact hs1.traceExit
  · exact hs1

theorem headerStage (h : Canon s) {p entry} : Canon (s.headerStage p entry) := by
  unfold Box.headerStage
  split
  · exact h
  · exact h.setPort.followTrace.judge.ingressSample.tagTrace.settle

theorem hotCheck (h : Canon s) {p} : Canon (s.hotCheck p) := by
  unfold Box.hotCheck
  exact h.ite h.upd

theorem backlogReport (h : Canon s) {p} : Canon (s.backlogReport p) :=
  (h.foldl fun h1 => h1.upd.foldl fun h3 => h3.setTent).hotCheck

/-! ### Machine/Calliope.lean -/

theorem refillShapers (h : Canon s) {p v} : Canon (s.refillShapers p v) :=
  h.setCal

theorem takeShapers (h : Canon s) {p v len} : Canon (s.takeShapers p v len) :=
  h.setCal

theorem setHead (h : Canon s) {k x} : Canon (s.setHead k x) :=
  h.setStaged

theorem barrierLate (h : Canon s) {p f now} : Canon (s.barrierLate p f now) :=
  h.countPort.raiseInt.ite h

theorem startFrame (h : Canon s) {p v sub} : Canon (s.startFrame p v sub) := by
  unfold Box.startFrame
  split
  · exact h
  · extract_lets +onlyGivenNames t now
    exact have h2 := h.setPort.setHead; (h2.calCount.ite h2).samplePoint.barrierLate.ptpLaunch.traceExit

theorem noteHeld (h : Canon s) {p v sub} : Canon (s.noteHeld p v sub) := by
  unfold Box.noteHeld
  split
  · exact h.setHead
  · exact h

theorem lateCheck (h : Canon s) {p cands g} : Canon (s.lateCheck p cands g) := by
  unfold Box.lateCheck
  split
  · exact h
  · extract_lets start old
    refine h.foldl fun h1 => ?_
    split
    · exact h1.setHead.envEvent.calCount.ite h1
    · exact h1

theorem trigLate (h : Canon s) {u} : Canon (s.trigLate u) :=
  h.put.raiseInt

theorem stageLaunch (h : Canon s) {l} : Canon (s.stageLaunch l) := by
  unfold Box.stageLaunch
  exact h.setPort.setStaged.upd

theorem launchStart (h : Canon s) {p sub} : ∀ b ∈ s.launchStart p sub, Canon b := by
  unfold Box.launchStart
  split
  · exact optNone
  · extract_lets x sends delta n s1 s2
    have hs2 : Canon s2 := (h.same (t := s1)).stageLaunch.startFrame
    exact optIte (optSome (hs2.trigLate.ite hs2)) optNone

theorem pickStaged {s0 : Box} (h : Canon s0) {p sub} : Canon (s0.pickStaged p sub) := by
  unfold Box.pickStaged
  extract_lets g s cands s1 s2 s3
  have hs : Canon s := h.foldl fun h1 => h1.refillShapers
  have hs1 : Canon s1 := hs.foldl fun h1 => h1.envEvent.ite h1
  have hs2 : Canon s2 := hs1.foldl fun h1 => h1.noteHeld
  have hs3 : Canon s3 := hs2.lateCheck
  split
  · exact hs3.setCal.takeShapers.startFrame
  · exact hs3

theorem pickFrame (h : Canon s) {p sub} : Canon (s.pickFrame p sub) := by
  unfold Box.pickFrame
  split
  · next e => exact h.launchStart _ (Option.mem_def.2 e)
  · exact h.pickStaged

theorem frameSent (h : Canon s) {p v} : Canon (s.frameSent p v) :=
  h.setStaged.setPort

theorem fillBody {fuel : Nat} :
    ∀ {s : Box} (_ : Canon s) {p sub body fs}, Canon (Box.fillBody p sub fuel body fs s).2.2 := by
  induction fuel with
  | zero => exact fun h => h
  | succ fuel ih =>
    intro s h p sub body fs
    unfold Box.fillBody
    refine ite22 h ?_
    split
    · split
      · exact h
      · exact ite22 h (ite22 (ih h.frameSent) h.setHead)
    · exact ite22 h.pickFrame (ih h.pickFrame)

theorem sendData (h : Canon s) {p fs body} : Canon (s.sendData p fs body) :=
  h.setPort.sendFlit

theorem sendAgain (h : Canon s) {p f} : Canon (s.sendAgain p f) :=
  h.setPort.sendFlit

theorem upSlot (h : Canon s) {p sub} : Canon (s.upSlot p sub) := by
  unfold Box.upSlot
  extract_lets x idle
  have hidle {b : Box} (hb : Canon b) : Canon (idle b) := hb.sendFlit
  split
  · split
    next c s1 e =>
      have hs1 : Canon s1 := of2 e h.calCount.setPort.stampCtl
      exact hs1.sendFlit
  · refine ite h.calCount (ite (hidle h.calCount) ?_)
    split
    · exact h.sendAgain.calCount
    · refine ite (hidle h.calCount) ?_
      split
      next body fs s1 e =>
        have hs1 : Canon s1 := of22 e h.fillBody
        exact (hidle hs1.calCount).ite hs1.sendData.calCount

theorem flitSlot (h : Canon s) {p sub} : Canon (s.flitSlot p sub) :=
  h.ite ((h.calCount.ite h.upSlot.spillSettle).ite (h.trainFlit.ite h))

theorem stoppedSlot (h : Canon s) {p} : Canon (s.stoppedSlot p) :=
  h.trainFlit.ite h

theorem glCommit (h : Canon s) {src p} : Canon (s.glCommit src p) :=
  h.accErrAt.ite (h.wr.put.raiseInt.ite h.wr.setCal.put)

theorem glStop (h : Canon s) {src p} : Canon (s.glStop src p) :=
  h.accErrAt.ite h.setCal.put

theorem glCancel (h : Canon s) {src p} : Canon (s.glCancel src p) :=
  h.accErrAt.ite h.setCal.put

theorem onPort (h : Canon s) {src p a f} (hf : ∀ {y0}, Canon y0 → Canon (f y0)) : Canon (s.onPort src p a f) :=
  (hf h).ite h.rsvWriteAt

theorem gateEntryStart (h : Canon s) {p} : Canon (s.gateEntryStart p) :=
  h.setCal.put.ite h

theorem glSwitch (h : Canon s) {p} : Canon (s.glSwitch p) :=
  h.wr.put.put.wr.wr.setCal.raiseInt.gateEntryStart.ite (h.put.put.wr.wr.put.setCal.raiseInt.ite h)

theorem glDiscont (h : Canon s) {p} : Canon (s.glDiscont p) :=
  h.put.raiseInt.gateEntryStart.ite h

/-! ### Machine/RegOps.lean -/

theorem rsvCheck (h : Canon s) {src a v} : Canon (s.rsvCheck src a v) :=
  h.ite h.rsvWriteAt

theorem plainWrite (h : Canon s) {src a v} : Canon (s.plainWrite src a v) :=
  h.rsvCheck.setWord

/-! ### Machine/Counters.lean -/

theorem snapTake (h : Canon s) {p} : Canon (s.snapTake p) := by
  unfold Box.snapTake
  exact h.put.ite h.put.upd

theorem snapDone (h : Canon s) {p} : Canon (s.snapDone p) :=
  h.ite h.upd.put.put.wr.wr

theorem snapTrigger (h : Canon s) {u i} : Canon (s.snapTrigger u i) :=
  h.foldl fun h1 => h1.upd.ite (h1.snapTake.ite h1.upd)

theorem snapTick (h : Canon s) : Canon s.snapTick := by
  unfold Box.snapTick
  extract_lets due s1
  have hs1 : Canon s1 := h.upd.foldl fun h1 => h1.snapTake
  exact hs1.ite (hs1.foldl fun h1 => h1.foldl fun h2 => h2.snapTake.upd)

theorem fecRebase (h : Canon s) {p} : Canon (s.fecRebase p) :=
  h.same

theorem cntClear (h : Canon s) {p} : Canon (s.cntClear p) :=
  ⟨mapClear_wf h.1 _ _, h.2.1, mapClear_wf h.2.2.1 _ _, h.2.2.2⟩

theorem cntCtrl (h : Canon s) {src p v} : Canon (s.cntCtrl src p v) := by
  unfold Box.cntCtrl
  extract_lets +onlyGivenNames a clear snap
  refine ite h.accErrAt ?_
  extract_lets s1
  have hs1 : Canon s1 := h.plainWrite
  exact hs1.cntClear.ite (hs1.snapTake.ite hs1)

theorem ctrLo (h : Canon s) {p i} : Canon (s.ctrLo p i).2 :=
  h.same

theorem occTick (h : Canon s) {t m} : Canon (s.occTick t m) := by
  unfold Box.occTick
  refine ite h ?_
  extract_lets q above was s1 _ s2 s3
  have hs1 : Canon s1 := h.count.ite h
  have hs2 : Canon s2 := ite (have h1 := hs1.count; h1.raiseInt.ite h1) hs1
  have hs3 : Canon s3 := hs2.upd
  exact hs3.wr

theorem occCfg (h : Canon s) {src t m n v} : Canon (s.occCfg src t m n v) :=
  h.rsvWriteAt.ite (h.accErrAt.ite h.plainWrite.wr.upd)

theorem samplersEnable (h : Canon s) {t} : Canon (s.samplersEnable t) :=
  h.foldl fun h1 => h1.samplerEnable

theorem samplerCfg (h : Canon s) {src t k filt v} : Canon (s.samplerCfg src t k filt v) := by
  unfold Box.samplerCfg
  extract_lets +onlyGivenNames a log
  refine ite h.rsvWriteAt ?_
  refine ite h.accErrAt ?_
  extract_lets +onlyGivenNames s1
  have hs1 : Canon s1 := h.plainWrite
  exact hs1.samplerEnable.ite hs1.setSampler

theorem smpqTail (h : Canon s) {src v} : Canon (s.smpqTail src v) := by
  unfold Box.smpqTail
  exact h.accErrAt.ite h.plainWrite.upd

theorem backlogNotice (h : Canon s) : Canon s.backlogNotice :=
  h.ite (h.upd.foldl fun h1 => h1.setPort.originate.count)

/-! ### Machine/Seal.lean -/

theorem setCur (h : Canon s) {st e} : Canon (s.setCur st e) :=
  h.setStrm.setSx

theorem setOpen (h : Canon s) {st c n} : Canon (s.setOpen st c n) :=
  h.setStrm

theorem onRec (h : Canon s) {st e f} : Canon (s.onRec st e f) :=
  h.setSx

theorem promote (h : Canon s) {gi} : Canon (s.promote gi) :=
  h.setTab.setTab.upd.drainGroup.ite h

theorem sealPush (h : Canon s) {st r type amends unrecov} : Canon (s.sealPush st r type amends unrecov) := by
  unfold Box.sealPush
  exact h.upd.onRec.ite h.upd

theorem sealAsk (h : Canon s) {st r} : Canon (s.sealAsk st r) := by
  unfold Box.sealAsk
  extract_lets amend s1
  have hamend {b : Box} (hb : Canon b) : Canon (amend b) := by
    unfold amend
    split
    · exact hb.sealPush
    · exact hb
  have hs1 : Canon s1 := (h.sealPush.foldl fun h1 => hamend h1).ite h
  exact hs1.onRec

theorem sealOwed (h : Canon s) {st} : Canon (s.sealOwed st) :=
  h.foldl fun h1 => h1.sealAsk

theorem sealRing (h : Canon s) {b} : Canon (s.sealRing b) :=
  h.memWrite.wr

theorem sealDrain {fuel : Nat} : ∀ {s : Box} (_ : Canon s), Canon (Box.sealDrain fuel s) := by
  induction fuel with
  | zero => exact fun h => h
  | succ fuel ih =>
    intro s h
    unfold Box.sealDrain
    split
    · exact h
    · next b bs _ =>
      have h1 := (h.sealRing (b := b)).same (t := { s.sealRing b with sealQ := bs })
      exact (ih (h1.same.ite h1)).ite h

theorem sealPlace (h : Canon s) {b} : Canon (s.sealPlace b) := by
  have last {b : Box} (hb : Canon b) {x} : Canon { b with sealLast := x } := hb.same
  have wait {b : Box} (hb : Canon b) {q x} : Canon { b with sealQ := q, sealLast := x } := hb.same
  exact
    have h1 := h.wr.wr
    have h2 := h1.count.put
    (last h1.sealRing).ite ((wait h1).ite (h2.ite h2.raiseInt))

theorem sealWrite (h : Canon s) {type flags head amends digest} : Canon (s.sealWrite type flags head amends digest) :=
  have h1 := h.sealPlace
  h1.upd.ite h1

theorem sealStart (h : Canon s) : Canon s.sealStart :=
  h.ite h.sealWrite

theorem sealRecord (h : Canon s) {st} : Canon (s.sealRecord st) := by
  unfold Box.sealRecord
  split
  · exact h
  · refine ite h ?_
    extract_lets s1 seq s2
    have hs1 : Canon s1 := h.upd.sealStart
    have hs2 : Canon s2 := hs1.sealWrite
    exact hs2.onRec.ite hs2

theorem sealSign (h : Canon s) : Canon s.sealSign := by
  unfold Box.sealSign
  split
  · exact h
  · refine ite ?_ h
    extract_lets body b s1
    have hs1 : Canon s1 := h.upd
    split
    · exact hs1.memWrite
    · exact hs1.upd

/-! ### Machine/Carousel.lean -/

theorem carEntryWrite (h : Canon s) {src table i raw} : Canon (s.carEntryWrite src table i raw) := by
  unfold Box.carEntryWrite
  extract_lets +onlyGivenNames at_ old rsv s1 clean ws
  have hs1 : Canon s1 := h.rsvWriteAt.ite h
  refine ite hs1.put.accErrAt.raiseInt ?_
  extract_lets s2 s3
  have hs2 : Canon s2 := hs1.upd.ite hs1
  have hs3 : Canon s3 := hs2.setTabEntry
  exact hs3.drainGroup.ite hs3

theorem carTblCmd {s0 : Box} (h : Canon s0) {src table i read} : Canon (s0.carTblCmd src table i read) :=
  h.accErrAt.ite (h.put.setWords.ite h.put.carEntryWrite)

theorem substTake (h : Canon s) {sl} : Canon (s.substTake sl) :=
  h.upd.put.wr.put.put.count.raiseInt

theorem substStream (h : Canon s) {st} : Canon (s.substStream st) :=
  h.foldl fun h1 => h1.substTake

theorem tmbSubst (h : Canon s) {t l} : Canon (s.tmbSubst t l) := by
  unfold Box.tmbSubst
  extract_lets +onlyGivenNames sl reason
  refine ite h.wr.put.raiseInt ?_
  extract_lets +onlyGivenNames s1
  split
  · exact h.wr.put.upd.ite h.wr.substTake
  · exact h.wr.substTake

theorem strmRefuse (h : Canon s) {reason} : Canon (s.strmRefuse reason) :=
  h.wr.put.raiseInt

theorem clearSlots (h : Canon s) {st} : Canon (s.clearSlots st) :=
  h.same

theorem strmReserve (h : Canon s) {st} : Canon (s.strmReserve st) := by
  unfold Box.strmReserve
  exact h.strmRefuse.ite (h.setSx.foldl fun h2 => h2.setTent).put.upd

theorem strmActivate (h : Canon s) {st e} : Canon (s.strmActivate st e) :=
  h.strmRefuse.ite h.setCur.setOpen.setSx.setStrmState

theorem drainEnd (h : Canon s) {st} : Canon (s.drainEnd st) :=
  h.sealOwed.setStrmState.substStream.ite h

theorem strmDrain (h : Canon s) {st} : Canon (s.strmDrain st) :=
  h.strmRefuse.ite h.setSx.drainEval.setStrmState.drainEnd

theorem strmAbort (h : Canon s) {st e} : Canon (s.strmAbort st e) := by
  unfold Box.strmAbort
  exact h.strmRefuse.ite h.sealOwed.clearSlots.setCur.setOpen.setSx.promote.put.upd

theorem strmRelease (h : Canon s) {st} : Canon (s.strmRelease st) :=
  h.strmRefuse.ite h.setSx

theorem strmCmd (h : Canon s) {src cmd st arg} : Canon (s.strmCmd src cmd st arg) := by
  unfold Box.strmCmd
  refine ite h.accErrAt ?_
  split
  · exact h.strmReserve
  · exact h.strmActivate
  · exact h.strmDrain
  · exact h.strmAbort
  · exact h.strmRelease
  · exact h.rsvWriteAt

theorem reserveDone (h : Canon s) {st} : Canon (s.reserveDone st) := by
  unfold Box.reserveDone
  refine ite h ?_
  extract_lets e g s1 _ s2 _'
  have hs1 : Canon s1 := h.setStrm.setStrmState
  have hs2 : Canon s2 := hs1.setSx.ite hs1
  exact hs2.put.upd

theorem abortDone (h : Canon s) {st} : Canon (s.abortDone st) := by
  unfold Box.abortDone
  exact h.ite h.substStream.setStrmState.setSx.put.upd

theorem strmFreed (h : Canon s) {st} : Canon (s.strmFreed st) :=
  h.ite (h.clearSlots.substStream.foldl fun h2 => h2.setTent).setSx.setStrmState

end Canon

end Sys2Proof.Proofs
end

section
/-!
# Canonical maps: Safety Net, slivers and the clock
-/

namespace Sys2Proof.Proofs

open Sys2Proof Sys2Proof.Machine Sys2Proof.Safety Sys2Proof.Laws

-- A lemma's proof ends before the next begins: proofs that wait for the lemmas they cite would hold a thread each.
set_option Elab.async false

namespace Canon

variable {s : Box}

/-! ### Machine/SafetyNet.lean -/

theorem keepShort (h : Canon s) {st e t} : Canon (s.keepShort st e t) :=
  h.onRec.count.raiseInt

theorem keepPart (h : Canon s) {st e c j k t f} : Canon (s.keepPart st e c j k t f) := by
  unfold Box.keepPart
  split
  · exact h
  · exact h.ite (h.onRec.ite h.keepShort)

theorem keepResult (h : Canon s) {st e c part t f} : Canon (s.keepResult st e c part t f) := by
  unfold Box.keepResult
  split
  · exact h
  · exact h.ite (h.onRec.ite h.keepShort)

theorem stageFp (h : Canon s) {st e c j k fp} : Canon (s.stageFp st e c j k fp) := by
  unfold Box.stageFp
  extract_lets +onlyGivenNames t
  split
  · exact h
  · exact h.ite (h.onRec.ite h.onRec.memWrite)

theorem dropOld (h : Canon s) {st} : Canon (s.dropOld st) :=
  h.setSx

theorem missed (h : Canon s) {p} : Canon (s.missed p) :=
  h.put

theorem notSent (h : Canon s) {st e c part f port} : Canon (s.notSent st e c part f port) :=
  (h.missed.ite h).ite h.postFlushed

theorem withheld (h : Canon s) {st e c part f p} : Canon (s.withheld st e c part f p) :=
  (h.lnkCount.ite h).notSent

theorem queueResult (h : Canon s) {st e c part t f bcast ports cells replay} :
    Canon (s.queueResult st e c part t f bcast ports cells replay) := by
  unfold Box.queueResult
  extract_lets add s1
  have hs1 : Canon s1 := h.foldl fun h1 => h1.withheld
  refine ite ?_ ?_
  · split
    · exact hs1.freeCells
    · exact hs1.same
  · split
    · next e => exact h.withheld.freeCells.ite (of2 e h.lookup).same
    · exact h.notSent.freeCells

theorem sliverFault (h : Canon s) {sl pattern} : Canon (s.sliverFault sl pattern) :=
  have h2 := h.takeFree.postFault.put
  h2.put.ite h2

theorem spareFault (h : Canon s) {t pattern} : Canon (s.spareFault t pattern) := by
  unfold Box.spareFault
  split
  next i s1 e =>
    have hs1 : Canon s1 := of2 e h.takeFree
    exact hs1.postFault.upd.ite hs1.postFault

theorem threeWay (h : Canon s) : Canon s.threeWay :=
  h.put.raiseInt

theorem judgeTwin (h : Canon s) {st q old new} : Canon (s.judgeTwin st q old new) := by
  unfold Box.judgeTwin
  extract_lets own fmt
  split
  · exact h
  · exact h.spareFault.ite (h.sliverFault.ite h.threeWay.sliverFault.spareFault.spareFault)

theorem retractSend (h : Canon s) {st q new fl} : Canon (s.retractSend st q new fl) := by
  unfold Box.retractSend
  split
  · exact h
  · extract_lets +onlyGivenNames g t old fpAt newFps s0
    have hs0 : Canon s0 := h.judgeTwin.ite h
    refine ite hs0.put.count ?_
    extract_lets +onlyGivenNames code x rseq _ s1 head change s2 r2
    split
    next i s3 e =>
      have hs3 : Canon s3 := of2 e hs0.setSx.onRec.takeFree
      extract_lets seq _ _ s4 send s5
      have hs4 : Canon s4 := hs3.ite (hs3.sealPush.ite hs3.onRec)
      have hsend {b : Box} (hb : Canon b) {k} : Canon (send b k) := by
        unfold send
        extract_lets +onlyGivenNames o n b1
        split
        · exact hb.queueResult
        · exact hb.queueResult.queueResult
      have hs5 : Canon s5 := raiseInt (hs4.foldl fun h1 => hsend h1)
      exact hs5.put.ite hs5

theorem retractBegin (h : Canon s) {st q} : Canon (s.retractBegin st q).2 := by
  unfold Box.retractBegin
  split
  · exact h
  · exact ite2 h.setSx (h.retractSend (fl := (0, 0)))

theorem retractNext {fuel : Nat} : ∀ {s : Box} (_ : Canon s) {st}, Canon (Box.retractNext st fuel s) := by
  induction fuel with
  | zero => exact fun h => h
  | succ fuel ih =>
    intro s h st
    unfold Box.retractNext
    extract_lets +onlyGivenNames x
    split
    · split
      · next e => exact of2 e h.setSx.retractBegin
      · next e => exact ih (of2 e h.setSx.retractBegin)
    · exact h

theorem retractAsk (h : Canon s) {st q} : Canon (s.retractAsk st q) :=
  h.retractBegin.dropOld.ite (h.setSx.ite h.retractSend)

theorem sntRefuse (h : Canon s) {reason} : Canon (s.sntRefuse reason) :=
  h.wr.put.raiseInt

theorem sntReplay (h : Canon s) {st e} : Canon (s.sntReplay st e) := by
  unfold Box.sntReplay
  extract_lets +onlyGivenNames first count reason
  split
  · exact h.sntRefuse
  · exact h.sntRefuse.ite (h.foldl fun h1 => h1.queueResult).put.upd

theorem sntRetract (h : Canon s) {st e} : Canon (s.sntRetract st e) :=
  h.sntRefuse.ite h.retractAsk

theorem sntCmd (h : Canon s) {src cmd st e} : Canon (s.sntCmd src cmd st e) := by
  unfold Box.sntCmd
  refine ite h.accErrAt ?_
  split
  · exact h.sntReplay
  · exact h.sntRetract
  · exact h.rsvWriteAt

theorem replayDone (h : Canon s) : Canon s.replayDone := by
  unfold Box.replayDone
  split
  · exact h
  · extract_lets +onlyGivenNames left
    refine ite h ?_
    extract_lets _ s1
    have hs1 : Canon s1 := h.put.upd
    exact hs1.sntRefuse.ite hs1

theorem twinSkip (h : Canon s) : Canon s.twinSkip :=
  h.count

theorem twinStart (h : Canon s) {st e c} : Canon (s.twinStart st e c) := by
  unfold Box.twinStart
  extract_lets +onlyGivenNames sl
  refine ite h ?_
  split
  · exact h.setSx.ite h.twinSkip
  · exact h.twinSkip

theorem twinBad (h : Canon s) : Canon s.twinBad :=
  h.put.raiseInt

theorem twinPost (h : Canon s) {st w pays} : Canon (s.twinPost st w pays) := by
  unfold Box.twinPost
  extract_lets x s1
  split
  · exact h.setSx.count.dropOld.ite h.setSx.twinBad.retractAsk
  · exact h.setSx

/-! ### Machine/Sliver.lean -/

theorem steerGone (h : Canon s) {p it} : Canon (s.steerGone p it) :=
  have h1 := h.freeCells
  h1.giveCredit.ite h1

theorem steerOne (h : Canon s) {p i it} : ∀ b ∈ s.steerOne p i it, Canon b := by
  unfold Box.steerOne
  extract_lets x without
  split
  · exact optSome h.setPort.steerGone.carCount.traceExit
  · exact optIte optNone (optSome h.setPort.setSliver)

theorem steer (h : Canon s) {p} : Canon (s.steer p) := by
  refine optGetD (fun b hb => ?_) h
  obtain ⟨i, -, hi⟩ := List.exists_of_findSome?_eq_some hb
  split at hi
  · exact optIte h.steerOne optNone b hi
  · exact optNone b hi

theorem drainMarkSet (h : Canon s) {p st} : Canon (s.drainMarkSet p st) := by
  unfold Box.drainMarkSet
  extract_lets x ahead
  split
  · exact h
  · split
    · exact h.setPort.drainMark.traceExit.ite h
    · exact h

theorem putSlot (h : Canon s) {sl y} : Canon (s.putSlot sl y) :=
  h.setSliver

theorem freeSlot (h : Canon s) {sl st e c} : Canon (s.freeSlot sl st e c) :=
  h.setSliver

theorem poison (h : Canon s) {sl st e c} : Canon (s.poison sl st e c) := by
  unfold Box.poison
  split
  · exact h
  · exact h.putSlot

theorem holdWatched (h : Canon s) {sl y} : Canon (s.holdWatched sl y) := by
  unfold Box.holdWatched
  refine ite h.putSlot ?_
  split
  · exact h.putSlot
  · exact h.putSlot.poison.ite h.putSlot.twinSkip

theorem chunkDone (h : Canon s) {sl y out guards ranges check} : Canon (s.chunkDone sl y out guards ranges check) :=
  h.onRec.holdWatched.ite h.onRec.putSlot

theorem exactDone (h : Canon s) {sl y} : Canon (s.exactDone sl y) := by
  unfold Box.exactDone
  extract_lets +onlyGivenNames g e
  refine ite ?_ h.chunkDone
  extract_lets s1
  have hs1 : Canon s1 := h.count.raiseInt.sliverFault
  split
  · exact hs1.chunkDone.ite hs1.putSlot.poison
  · exact hs1.putSlot.poison

theorem tumblerFault (h : Canon s) {sl st epoch chunk pc cause fcode} : Canon (s.tumblerFault sl st epoch chunk pc cause
    fcode) :=
  have h3 := (h.count.ite h.count.wr.wr.wr.wr.wr.wr.wr.put).poison.raiseInt
  h3.sliverFault.ite h3

theorem upsetTick (h : Canon s) {sl n} : Canon (s.upsetTick sl n) := by
  unfold Box.upsetTick
  split
  · exact h
  · exact h.setSliver

theorem upsetMet (h : Canon s) {sl} : Canon (s.upsetMet sl) :=
  h.setSliver

theorem invoke (h : Canon s) {sl v} : Canon (s.invoke sl v) :=
  h.setSliver.count

theorem invokeChunk (h : Canon s) {sl y entry part} : Canon (s.invokeChunk sl y entry part) :=
  h.invoke

theorem invokeStep (h : Canon s) {sl y q k} : Canon (s.invokeStep sl y q k) :=
  h.invoke

theorem invokeCombine (h : Canon s) {sl y k a lv left right} : Canon (s.invokeCombine sl y k a lv left right) :=
  h.invoke

theorem treeDone (h : Canon s) {sl y} : Canon (s.treeDone sl y) :=
  h.chunkDone.ite h.putSlot

theorem treeKernel (h : Canon s) {sl y k a lv x} : Canon (s.treeKernel sl y k a lv x) := by
  unfold Box.treeKernel
  extract_lets g cs
  split
  · exact h.treeDone
  · exact h.putSlot
  · exact h.putSlot.invokeCombine

theorem treeBuiltin (h : Canon s) {sl y k a lv x} : Canon (s.treeBuiltin sl y k a lv x) := by
  unfold Box.treeBuiltin
  extract_lets +onlyGivenNames g cs n
  split
  split
  next i s1 e =>
    have hs1 : Canon s1 := of2 e h.takeFree
    extract_lets +onlyGivenNames s2 s3
    have hs2 : Canon s2 := hs1.ite hs1.bump
    have hs3 : Canon s3 := hs2.upsetTick
    refine ite ?_ ?_
    · split
      next e' => exact (of2 e' hs1.takeFree).putSlot.upsetMet.tumblerFault
    · split
      · exact hs3.treeDone
      · exact hs3.putSlot

theorem openEpoch (h : Canon s) {st e mset mepoch} : Canon (s.openEpoch st e mset mepoch) := by
  unfold Box.openEpoch
  extract_lets +onlyGivenNames n isCur
  refine ite h ?_
  extract_lets s1 x r s2 s3
  have hs1 : Canon s1 := h.setOpen
  have hs2 : Canon s2 := hs1.setSx.dropOld
  have hs3 : Canon s3 := hs2.upd.ite hs2
  exact hs3.promote

theorem contribError (h : Canon s) {p st} : Canon (s.contribError p st) :=
  have h2 := h.upd.raiseInt
  h2.postSuspect.ite h2

theorem acceptPart (h : Canon s) {sl q c k up} : Canon (s.acceptPart sl q c k up) := by
  unfold Box.acceptPart
  extract_lets +onlyGivenNames f st e s1 n g fresh y0 s2 y1
  have hs1 : Canon s1 := h.openEpoch
  have hs2 : Canon s2 := hs1.keepPart.stageFp
  refine ite hs2.putSlot ?_
  extract_lets +onlyGivenNames x y
  split
  · exact hs2.exactDone.ite hs2.putSlot
  · exact hs2.treeKernel.ite hs2.treeBuiltin
  · exact hs2.putSlot.invokeChunk.ite hs2.putSlot.invokeStep

theorem takePart (h : Canon s) {sl up} : Canon (s.takePart sl up) := by
  unfold Box.takePart
  extract_lets v
  split
  · extract_lets s0 p tr s1
    have hs0 : Canon s0 := h.setSliver
    have hs1 : Canon s1 := hs0.traceExit
    split
    · exact hs1.acceptPart
    · extract_lets s2
      have hs2 : Canon s2 := hs1.carCount
      exact hs2.contribError.ite hs2
  · exact h

theorem releaseFrames {fuel : Nat} :
    ∀ {s : Box} (_ : Canon s) {sl st r y}, Canon (Box.releaseFrames sl st r fuel y s).2 := by
  induction fuel with
  | zero => exact fun h => h
  | succ fuel ih =>
    intro s h sl st r y
    unfold Box.releaseFrames
    split
    · exact h
    · exact ite2 h (ih h.allocCells.queueResult.onRec.keepResult)

theorem advance {fuel : Nat} : ∀ {s : Box} (_ : Canon s) {st}, Canon (Box.advance st fuel s) := by
  induction fuel with
  | zero => exact fun h => h
  | succ fuel ih =>
    intro s h st
    unfold Box.advance
    extract_lets +onlyGivenNames cur
    split
    · exact (ih h.sealAsk.setCur.setOpen).ite h
    · exact h

theorem epochDone (h : Canon s) {st r} : Canon (s.epochDone st r) :=
  have h3 := h.onRec.bump.bump.setStrm
  (h3.raiseInt.ite h3).upd.advance.promote.drainEnd

theorem chunkReleased (h : Canon s) {sl y} : Canon (s.chunkReleased sl y) := by
  unfold Box.chunkReleased
  extract_lets st s1 s2
  have hs1 : Canon s1 := h.freeSlot.onRec
  have hs2 : Canon s2 := hs1.twinStart
  split
  · exact hs2.epochDone.ite hs2
  · exact hs2

theorem releaseResult (h : Canon s) {sl} : Canon (s.releaseResult sl) := by
  unfold Box.releaseResult
  split
  · exact h
  · split
    · exact h
    · exact h.holdWatched.ite (h.releaseFrames.chunkReleased.ite h.releaseFrames.putSlot)

theorem slotStall (h : Canon s) {st e c} : Canon (s.slotStall st e c) := by
  unfold Box.slotStall
  extract_lets +onlyGivenNames sl
  split
  · exact h
  · extract_lets +onlyGivenNames lim
    refine ite h ?_
    extract_lets parts cs miss
    split
    next i s1 e =>
      have hs1 : Canon s1 := of2 e h.putSlot.takeFree
      extract_lets m s2 s3
      have hs2 : Canon s2 := hs1.wr.wr.wr.wr
      have hs3 : Canon s3 := hs2.raiseInt
      generalize miss = x
      split
      · exact hs3.postSuspect
      · exact hs3

theorem watchExpire (h : Canon s) {sl} : Canon (s.watchExpire sl) :=
  h.ite h.put

/-! ### Machine/TumblerRun.lean -/

theorem invFault (h : Canon s) {sl st v cause fcode} : Canon (s.invFault sl st v cause fcode) :=
  h.setSliver.bump.tumblerFault

theorem invExit (h : Canon s) {sl st v} : Canon (s.invExit sl st v) := by
  unfold Box.invExit
  refine ite h.invFault ?_
  extract_lets +onlyGivenNames _ s1
  have hs1 : Canon s1 := h.setSliver.bump
  split
  · exact hs1
  · extract_lets +onlyGivenNames z
    split
    · split
      · exact hs1.putSlot.invokeStep
      · exact hs1.putSlot
    · exact hs1.putSlot.invokeChunk.ite hs1.putSlot
    · exact hs1.chunkDone
    · exact hs1.treeKernel

theorem takeUpset (h : Canon s) {sl up} : Canon (s.takeUpset sl up) := by
  unfold Box.takeUpset
  split
  · exact h.setSliver.takePart
  · exact h.takePart

theorem kRun (h : Canon s) {sl w f} : Canon (s.kRun sl w f) := by
  unfold Box.kRun
  split
  · extract_lets +onlyGivenNames img
    refine ite h ?_
    refine ite h.upsetMet.invFault ?_
    extract_lets +onlyGivenNames s
    have hs : Canon s := h.upsetTick
    refine ite hs.invFault ?_
    extract_lets +onlyGivenNames v1
    refine ite hs.invFault ?_
    extract_lets _ keep
    have hkeep {x} : Canon (keep x) := by
      unfold keep
      exact hs.setSliver
    split
    · exact hkeep
    · exact hkeep
    · exact hkeep
    · exact hs.invExit
    · exact hs.invFault
  · exact h

theorem kIllegal (h : Canon s) {sl} : Canon (s.kIllegal sl) := by
  unfold Box.kIllegal
  split
  · exact h.ite h.invFault
  · exact h

theorem rdsysRun {s0 : Box} (h : Canon s0) {sl d sel} : Canon (s0.rdsysRun sl d sel) := by
  unfold Box.rdsysRun
  split
  next i s e =>
    have hs : Canon s := of2 e h.takeFree
    extract_lets +onlyGivenNames x
    split
    · exact hs.kRun
    · exact hs.setSliver.ite hs

/-! ### Machine/Recompute.lean -/

theorem retractDone (h : Canon s) {st faulty} : Canon (s.retractDone st faulty) := by
  unfold Box.retractDone
  extract_lets +onlyGivenNames x
  split
  · exact h
  · extract_lets s1 s2
    have hs2 : Canon s2 := by
      unfold s2
      split
      · exact h.setSx
      · exact h.setSx.retractSend.ite h.setSx.retractSend
    exact hs2.retractNext.dropOld

theorem twinComplete (h : Canon s) {st e c faulty} : Canon (s.twinComplete st e c faulty) := by
  unfold Box.twinComplete
  extract_lets +onlyGivenNames sl
  split
  · split
    · exact h.holdWatched.ite (h.putSlot.ite h.putSlot.twinBad)
    · exact h
  · split
    · exact h.twinPost.ite h.setSx.twinSkip
    · exact h

theorem thirdDone (h : Canon s) {st e c faulty} : Canon (s.thirdDone st e c faulty) := by
  unfold Box.thirdDone
  extract_lets sl fmt
  split
  · exact h
  · split
    · exact h.holdWatched.ite (h.putSlot.spareFault.ite (h.putSlot.sliverFault.ite h.poison.threeWay))
    · exact h

/-! ### Machine/Clock.lean -/

theorem fenceTick (h : Canon s) : Canon s.fenceTick :=
  h.foldl fun h1 => h1.count.ite h1

theorem guardTick (h : Canon s) {p} : Canon (s.guardTick p) :=
  h.calCount.ite h

theorem envelopeTick (h : Canon s) {p} : Canon (s.envelopeTick p) :=
  have h1 := h.envBreak.ite h
  have h2 := h1.envBreak.ite h1
  h2.ite h2.envBreak

theorem starveTick (h : Canon s) {sl} : Canon (s.starveTick sl) :=
  h.ite h.takeFree.bump

theorem busyTick (h : Canon s) : Canon s.busyTick :=
  have h1 := h.put.ite h
  (h1.put.ite h1).foldl fun h3 => h3.put.ite h3

theorem tickWork (h : Canon s) : Canon s.tickWork :=
  (((h.fenceTick.foldl fun h1 => h1.guardTick).foldl fun h2 => h2.envelopeTick).foldl fun h3 =>
      h3.starveTick).busyTick.snapTick.vc6Drain

theorem sense (h : Canon s) : Canon s.sense := by
  unfold Box.sense
  exact h.wr.upd

theorem aliveTick (h : Canon s) : Canon s.aliveTick := by
  unfold Box.aliveTick
  exact h.upd.sense.ite h.upd

end Canon

end Sys2Proof.Proofs
end

section
/-!
# Canonical maps: memory and optics
-/

namespace Sys2Proof.Proofs

open Sys2Proof Sys2Proof.Machine Sys2Proof.Safety Sys2Proof.Laws

-- A lemma's proof ends before the next begins: proofs that wait for the lemmas they cite would hold a thread each.
set_option Elab.async false

namespace Canon

variable {s : Box}

/-! ### Machine/Memory.lean -/

theorem spareFree (h : Canon s) {t c} : Canon (s.spareFree t c) :=
  h.wr

theorem memError (h : Canon s) {t} : Canon (s.memError t) :=
  h.raiseInt

theorem spareRow (h : Canon s) {t port row poison} : Canon (s.spareRow t port row poison) := by
  unfold Box.spareRow
  split
  · exact h.memError
  · exact h.upd.count.spareFree

theorem spareWrite (h : Canon s) {src t i a v} : Canon (s.spareWrite src t i a v) := by
  unfold Box.spareWrite
  extract_lets +onlyGivenNames devs at_
  refine ite ?_ h.accErrAt
  extract_lets port k s1
  have hs1 : Canon s1 := h.ite h.rsvWriteAt
  exact hs1.ite hs1.upd.spareFree

theorem sealLose (h : Canon s) {st e} : Canon (s.sealLose st e) := by
  unfold Box.sealLose
  exact h.onRec.upd

theorem keptLose (h : Canon s) {st e c} : Canon (s.keptLose st e c) := by
  unfold Box.keptLose
  extract_lets sl s1 s2
  have hs2 : Canon s2 := by
    unfold s2
    split
    · exact h.onRec.putSlot
    · exact h.onRec
  split
  · exact hs2.upd.ite hs2
  · exact hs2

theorem spillBad (h : Canon s) {t q i bytes} : Canon (s.spillBad t q i bytes) := by
  unfold Box.spillBad
  split
  · exact h
  · exact h.setSpill

theorem itemLost (h : Canon s) {d x} : Canon (s.itemLost d x) := by
  unfold Box.itemLost
  extract_lets t mine
  split
  · exact h.upd
  · extract_lets sl
    split
    · exact h.poison.ite h
    · exact h
  · exact h.keptLose.ite h
  · exact h.sealLose.ite h
  · exact h.upd
  · exact h.spillBad

theorem refreshSlot (h : Canon s) {t port row w} : Canon (s.refreshSlot t port row w) := by
  unfold Box.refreshSlot
  extract_lets +onlyGivenNames pg d
  refine ite h ?_
  extract_lets +onlyGivenNames s1
  have hs1 : Canon s1 := h.count.bump.bump
  refine ite (hs1.bump.memError.spareRow.foldl fun h1 => h1.itemLost) ?_
  refine ite hs1 ?_
  extract_lets unit
  split
  next k s2 e =>
    have hs2 : Canon s2 := of2 e hs1.takeFree
    extract_lets s3
    have hs3 : Canon s3 := hs2.postFault
    exact hs3.spareRow.ite hs3

theorem deviceHot (h : Canon s) {d hot} : Canon (s.deviceHot d hot) :=
  h.put.raiseInt.ite h.put

theorem setPlan (h : Canon s) {t sizes} : Canon (s.setPlan t sizes) :=
  h.foldl fun h1 => h1.upd.wr

theorem overcommit (h : Canon s) {t} : Canon (s.overcommit t) :=
  h.put

theorem shrink (h : Canon s) {t} : Canon (s.shrink t) :=
  h.setPlan.overcommit

theorem planCommit {s0 : Box} (h : Canon s0) {src t} : Canon (s0.planCommit src t) :=
  h.accErrAt.ite (h.put.setPlan.overcommit.spillStatus.ite h.put.wr.put.raiseInt)

theorem regionSizeWrite (h : Canon s) {src t r a v} : Canon (s.regionSizeWrite src t r a v) :=
  h.accErrAt.ite h.plainWrite

theorem memForget (h : Canon s) {t rs} : Canon (s.memForget t rs) := by
  unfold Box.memForget
  extract_lets hit
  exact (h.dropMem (p := hit)).same

theorem ringsEmpty (h : Canon s) {t} : Canon (s.ringsEmpty t) :=
  h.wr.wr.wr.wr

theorem epochsLost (h : Canon s) {t} : Canon (s.epochsLost t) :=
  h.upd.foldl fun h2 => h2.sealLose

theorem treesLost (h : Canon s) {t} : Canon (s.treesLost t) :=
  h.foldl fun h1 => h1.foldl fun h2 => h2.poison

theorem spillLost (h : Canon s) {t} : Canon (s.spillLost t) :=
  h.upd.ite h.upd.bump.raiseInt

theorem loseInterleaved (h : Canon s) {t} : Canon (s.loseInterleaved t) :=
  h.memForget.ringsEmpty.epochsLost.treesLost.spillLost

theorem cxlEvent (h : Canon s) {e} : Canon (s.cxlEvent e) :=
  h.upd.raiseInt

theorem replayBreak (h : Canon s) {t} : Canon (s.replayBreak t) := by
  unfold Box.replayBreak
  split
  · exact h.upd.ite h
  · exact h

theorem freeBytes (h : Canon s) {n} : Canon (s.freeBytes n).2 :=
  h.same

theorem readUncorr (h : Canon s) {t c r off} : Canon (s.readUncorr t c r off) := by
  unfold Box.readUncorr
  split
  next k s1 e =>
    have hs1 : Canon s1 := of2 e h.takeFree
    exact hs1.count.memError.spareRow

theorem hostServe (h : Canon s) {dpa bad} : Canon (s.hostServe dpa bad) := by
  unfold Box.hostServe
  extract_lets a zeros
  split
  · exact h.emit
  · refine ite h.emit ?_
    extract_lets fails all lost s1
    have hs1 : Canon s1 := h.foldl fun h1 => h1.readUncorr.upd
    exact hs1.emit.ite hs1.freeBytes.emit

theorem serveWaiting (h : Canon s) : Canon s.serveWaiting :=
  h.upd.foldl fun h1 => h1.hostServe

theorem deviceFail (h : Canon s) {d} : Canon (s.deviceFail d) := by
  unfold Box.deviceFail
  extract_lets +onlyGivenNames t
  refine ite h ?_
  extract_lets +onlyGivenNames s1 s2
  have hs1 : Canon s1 := h.wr.wr.put
  have hs2 : Canon s2 := hs1.upd.memError.cxlEvent.replayBreak
  refine ite hs2 ?_
  extract_lets s3
  have hs3 : Canon s3 := hs2.loseInterleaved
  exact hs3.wr.put.shrink.spillStatus.cxlEvent.ite hs3.memForget.wr.put.spillStatus.serveWaiting

theorem rebuildDone (h : Canon s) {t} : Canon (s.rebuildDone t) :=
  h.ite h.put.raiseInt.spillStatus.cxlEvent.serveWaiting

theorem spillBack (h : Canon s) {t q bad} : Canon (s.spillBack t q bad) := by
  unfold Box.spillBack
  split
  · exact h
  · refine ite h.spillRecallDone ?_
    split
    · exact h.spillRecallDone
    · split
      next k s1 e =>
        have hs1 : Canon s1 := of2 e h.takeFree
        exact hs1.readUncorr.spillRecallDone

theorem trainDone (h : Canon s) {d tr} : Canon (s.trainDone d tr) :=
  h.ite (h.wr.put.ite (h.deviceFail.ite h.wr.wr.upd.spareFree))

theorem memInit (h : Canon s) {src t} : Canon (s.memInit src t) :=
  h.accErrAt.ite (h.ite h.upd)

theorem memInitDone (h : Canon s) {t} : Canon (s.memInitDone t) := by
  unfold Box.memInitDone
  refine ite h ?_
  extract_lets devs s1 s2 s3
  have hs1 : Canon s1 := h.upd.memForget
  have hs2 : Canon s2 := hs1.foldl fun h1 => h1.wr
  exact (hs2.wr.shrink.ite hs2.wr).spillSettle

/-! ### Machine/Optics.lean -/

theorem setRing (h : Canon s) {e i x} : Canon (s.setRing e i x) :=
  h.same

theorem setEngine (h : Canon s) {e x} : Canon (s.setEngine e x) :=
  h.same

theorem setLgroup (h : Canon s) {e q x} : Canon (s.setLgroup e q x) :=
  h.same

theorem setLaser (h : Canon s) {e q k x} : Canon (s.setLaser e q k x) :=
  h.same

theorem setApr (h : Canon s) {f x} : Canon (s.setApr f x) :=
  h.same

theorem ringLevels (h : Canon s) {e} : Canon (s.ringLevels e) :=
  h.put.put

theorem pairReady (h : Canon s) {f} : Canon (s.pairReady f) :=
  h.put

theorem ringTo (h : Canon s) {e i v} : Canon (s.ringTo e i v) :=
  h.wr.ringLevels.pairReady.foldl fun h2 => h2.trainStart

theorem ringSearch (h : Canon s) {e i} : Canon (s.ringSearch e i) :=
  h.setRing.wr.ringTo

theorem ringOff (h : Canon s) {e i v} : Canon (s.ringOff e i v) :=
  h.setRing.wr.ringTo

theorem addBack (h : Canon s) {e i} : Canon (s.addBack e i) := by
  unfold Box.addBack
  extract_lets f q k g
  split
  · exact h
  · exact h.ite h.laneChange.setLgroup

theorem ringVerified (h : Canon s) {e i} : Canon (s.ringVerified e i) :=
  (h.setRing.ringTo.ite h.takeFree.setRing.ringTo).ite h.setRing.ringTo.addBack

theorem laneOut (h : Canon s) {p w} : Canon (s.laneOut p w) :=
  h.ite (h.portDown.ite h.laneChange)

theorem ringFault (h : Canon s) {e i} : Canon (s.ringFault e i).2 := by
  unfold Box.ringFault
  split
  next k s1 e =>
    have hs1 : Canon s1 := of2 e h.takeFree
    extract_lets +onlyGivenNames unit s2
    have hs2 : Canon s2 := hs1.postFault
    refine ite2 ?_ hs2
    extract_lets w
    exact by split; exacts [hs2.setPort.laneOut.ite hs2.setPort, hs2]

theorem calBroken (h : Canon s) {e} : Canon (s.calBroken e) :=
  h.setEngine.ite h

theorem ringWrong (h : Canon s) {e i} : Canon (s.ringWrong e i) :=
  have h2 := (h.calBroken.count.ringFault.ringOff.ite h.calBroken.count.ringFault.ringSearch).setRing
  (h2.foldl fun h3 => h3.portDown).ite h2

theorem ringJudge (h : Canon s) {e i state own gaps tone} : Canon (s.ringJudge e i state own gaps tone) :=
  h.ite (h.wr.ringVerified.ite h.wr.ringWrong)

theorem ringStep (h : Canon s) {e i peak own gaps tone} : Canon (s.ringStep e i peak own gaps tone) := by
  unfold Box.ringStep
  extract_lets +onlyGivenNames x
  refine ite h ?_
  extract_lets span s1 s2
  have hs1 : Canon s1 := h.setRing
  exact hs1.wr.ringVerified.ite (hs1.wr.ringOff.raiseInt.ite hs1.wr)

theorem runLoops (h : Canon s) {e samples} : Canon (s.runLoops e samples) := by
  unfold Box.runLoops
  refine h.foldl fun h1 => ?_
  extract_lets x
  split
  · exact h1.setRing.ite h1
  · exact h1

theorem writeHeaters (h : Canon s) {e} : Canon (s.writeHeaters e) := by
  unfold Box.writeHeaters
  refine h.foldl fun h1 => ?_
  refine ite h1.wr ?_
  extract_lets h' out code _ b1
  have hb1 : Canon b1 := h1.setRing.wr
  exact hb1.put.ite hb1

theorem takeMatrix (h : Canon s) {e} : Canon (s.takeMatrix e) :=
  h.ite ((h.setEngine.foldl fun h1 => h1.setRing).foldl fun h2 => h2.setRing).put

theorem heaterCycle (h : Canon s) {e samples} : Canon (s.heaterCycle e samples) :=
  h.runLoops.writeHeaters.takeMatrix.setEngine

theorem cycleDue (h : Canon s) {e samples} : Canon (s.cycleDue e samples) :=
  (h.heaterCycle.ite h).ite (h.setEngine.heaterCycle.ite h)

theorem heatCtrl (h : Canon s) {src e v} : Canon (s.heatCtrl src e v) := by
  unfold Box.heatCtrl
  extract_lets +onlyGivenNames a
  refine ite h.accErrAt ?_
  extract_lets +onlyGivenNames s1
  have hs1 : Canon s1 := h.plainWrite
  exact hs1.setEngine.ite hs1

theorem monCtrl (h : Canon s) {src e v} : Canon (s.monCtrl src e v) := by
  unfold Box.monCtrl
  extract_lets +onlyGivenNames a
  refine ite h.rsvWriteAt ?_
  extract_lets +onlyGivenNames s1
  have hs1 : Canon s1 := h.plainWrite
  exact hs1.setEngine.ite hs1

theorem heaterStarved (h : Canon s) {e samples} : Canon (s.heaterStarved e samples) :=
  h.setEngine.put.heaterCycle.ite h

theorem heatFire (h : Canon s) {e} : Canon (s.heatFire e) :=
  h.ite (h.count.setEngine.ite h.setEngine)

theorem calTry (h : Canon s) {e} : Canon (s.calTry e) :=
  h.setEngine.put.ite h

theorem calDue (h : Canon s) {e} : Canon (s.calDue e) :=
  h.setEngine.calTry

theorem xtCal (h : Canon s) {src e} : Canon (s.xtCal src e) :=
  h.accErrAt.ite h.calDue

theorem calRows (h : Canon s) {e cal} : Canon (s.calRows e cal) :=
  h.upd.foldl fun h1 => h1.foldl fun h2 => h2.ite h2.wr

theorem calEnd (h : Canon s) {e cal} : Canon (s.calEnd e cal) := by
  unfold Box.calEnd
  refine ite h.put.raiseInt.put ?_
  extract_lets +onlyGivenNames s0 _ s1 s2
  have hs0 : Canon s0 := h.calRows
  have hs1 : Canon s1 := hs0.setEngine.wr
  have hs2 : Canon s2 := hs1.put.put
  exact hs2.setEngine.ite hs2.put

theorem xtCommit (h : Canon s) {src e} : Canon (s.xtCommit src e) :=
  h.accErrAt.ite h.setEngine.put

theorem sparesFree (h : Canon s) {e q} : Canon (s.sparesFree e q) :=
  h.wr

theorem laserInt (h : Canon s) {e} : Canon (s.laserInt e) :=
  h.raiseInt

theorem armSpare (h : Canon s) {e q k} : Canon (s.armSpare e q k) := by
  unfold Box.armSpare
  extract_lets g
  refine ite h ?_
  split
  · exact h.setLgroup.emit.emit
  · exact h.put.laserInt

theorem moveLanes (h : Canon s) {e q w force} : Canon (s.moveLanes e q w force) :=
  h.foldl fun h1 => h1.foldl fun h2 => h2.laneChange.setLgroup

theorem migrate (h : Canon s) {e q k force} : Canon (s.migrate e q k force) :=
  h.armSpare.setLgroup.put.wr.moveLanes.sparesFree.laserInt

theorem judgeLaser (h : Canon s) {e q k v nom} : Canon (s.judgeLaser e q k v nom) :=
  have h1 := h.setLaser
  h1.migrate.ite (h1.migrate.ite (h1.wr.armSpare.sparesFree.laserInt.ite (h1.wr.ite h1)))

theorem firstNom (h : Canon s) {e q k v} : Canon (s.firstNom e q k v) :=
  h.setLaser.ite h.takeFree.setLaser.wr

theorem integrate (h : Canon s) {e r} : Canon (s.integrate e r) := by
  unfold Box.integrate
  extract_lets +onlyGivenNames x one s1 tap s2
  have hone {b n} (hb : Canon b) : Canon (one b n) := by
    unfold one
    split
    · exact hb
    · extract_lets q k b1 st active
      refine ite hb.wr ?_
      split
      · exact hb.wr.judgeLaser
      · exact hb.wr.firstNom
  have hs1 : Canon s1 := h.foldl fun h1 => hone h1
  have htap {b j} (hb : Canon b) : Canon (tap b j) := by
    unfold tap
    split
    · exact hb.wr
    · exact hb
  have hs2 : Canon s2 := hs1.foldl fun h1 => htap h1
  exact hs2.setEngine

theorem monStarved (h : Canon s) {e r} : Canon (s.monStarved e r) :=
  h.setEngine.put.integrate.ite h

theorem monFire (h : Canon s) {e} : Canon (s.monFire e) :=
  h.ite (h.count.setEngine.ite h.setEngine)

theorem spareReady (h : Canon s) {e q k} : Canon (s.spareReady e q k) := by
  unfold Box.spareReady
  extract_lets g
  split
  · exact h
  · exact h.setLgroup.wr.sparesFree

theorem ringHold (h : Canon s) {e i} : Canon (s.ringHold e i) :=
  h.setRing.ringTo.ite h

theorem ringRelease (h : Canon s) {e i} : Canon (s.ringRelease e i) :=
  h.setRing.ringTo.ite h

theorem laserSwap (h : Canon s) {e q} : Canon (s.laserSwap e q) := by
  unfold Box.laserSwap
  extract_lets g
  split
  · exact h
  · exact h.ite (h.moveLanes.ite ((h.foldl fun h1 => h1.sendPause).foldl fun h2 => h2.ringHold).setLgroup.emit)

theorem laserRelease (h : Canon s) {e q} : Canon (s.laserRelease e q) := by
  unfold Box.laserRelease
  extract_lets +onlyGivenNames g
  split
  · exact h
  · exact h.ite ((h.foldl fun h1 => h1.ringRelease).foldl fun h2 =>
      h2.sendResume).wr.wr.wr.wr.setLaser.setLgroup.put.sparesFree.count

theorem moduleMove (h : Canon s) {e ready} : Canon (s.moduleMove e ready) :=
  (h.emit.ite h).emit

theorem modulePoll {s0 : Box} (h : Canon s0) {e ready failed monitors} : Canon (s0.modulePoll e ready failed monitors) :=
  h.ite (h.setEngine.emit.foldl fun h2 => h2.migrate.ite h2)

theorem inputLost (h : Canon s) {e q} : Canon (s.inputLost e q) :=
  h.setEngine.emit.moduleMove.put.put.laserInt

theorem laneHealth (h : Canon s) {p} : Canon (s.laneHealth p) :=
  h.ite (h.setPort.foldl fun h2 => h2.laneFault.sendCtl)

theorem aprEnter (h : Canon s) {f} : Canon (s.aprEnter f) :=
  h.ite h.put.setApr.count.raiseInt

theorem aprPulse (h : Canon s) {f} : Canon (s.aprPulse f) :=
  h.setApr.ite h

theorem aprPulseEnd (h : Canon s) {f} : Canon (s.aprPulseEnd f) :=
  h.setApr.ite h

theorem aprExit (h : Canon s) {f} : Canon (s.aprExit f) :=
  h.ite (h.put.setApr.foldl fun h2 => (h2.ringSearch.ite h2).ite (h2.ringTo.ite h2))

theorem setLasers (h : Canon s) {e down} : Canon (s.setLasers e down) :=
  h.foldl fun h1 => h1.emit

theorem engineStart (h : Canon s) {src e} : Canon (s.engineStart src e) :=
  h.accErrAt.ite (h.ite h.moduleMove).setEngine.emit.setLasers.emit

theorem continuity (h : Canon s) {e pwr} : Canon (s.continuity e pwr) :=
  h.ite (h.upd.setEngine.emit.moduleMove.put.raiseInt.ite ((h.upd.setEngine.setLasers.foldl fun h2 => h2.wr.ite h2).foldl
      fun h3 => h3.foldl fun h4 => h4.ringSearch))

theorem engineUp (h : Canon s) {e cal} : Canon (s.engineUp e cal) := by
  unfold Box.engineUp
  extract_lets +onlyGivenNames x done
  refine ite h ?_
  extract_lets +onlyGivenNames s0 s1
  have hs0 : Canon s0 := h.setEngine
  have hs1 : Canon s1 := hs0.put.calEnd
  exact hs1.setEngine.put.raiseInt.ite hs1

theorem xconnWrite (h : Canon s) {src f v} : Canon (s.xconnWrite src f v) :=
  have h1 := h.ite h.rsvWriteAt
  h1.put.wr.ite (h1.accErrAt.ite h1.put.wr.put.wr)

theorem bypassStart (h : Canon s) {p} : Canon (s.bypassStart p) := by
  unfold Box.bypassStart
  extract_lets +onlyGivenNames g
  refine ite h ?_
  extract_lets +onlyGivenNames e end_ _ s1
  have hs1 : Canon s1 := h.setPort
  exact (hs1.setCal.put.foldl fun h2 => h2.ringHold).ite hs1.setCal.calCount.raiseInt.envEvent

theorem bypassRestore (h : Canon s) {p} : Canon (s.bypassRestore p) :=
  h.setCal.ite h

theorem bypassStop (h : Canon s) {p} : Canon (s.bypassStop p) := by
  unfold Box.bypassStop
  extract_lets +onlyGivenNames x
  refine ite h ?_
  extract_lets e y s1 s2
  have hs1 : Canon s1 := h.setCal.setPort
  exact hs1.put.ite (hs1.put.foldl fun h1 => h1.setRing.ringRelease.ite h1)

theorem bypassEnd (h : Canon s) {p} : Canon (s.bypassEnd p) :=
  h.ite h.bypassStop

theorem listJump (h : Canon s) {p} : Canon (s.listJump p) :=
  h.bypassStop.glDiscont.ite h

theorem realignTimeout (h : Canon s) {p} : Canon (s.realignTimeout p) := by
  unfold Box.realignTimeout
  split
  · exact h.ite (h.portDown.ite h.setPort)
  · exact h

end Canon

end Sys2Proof.Proofs
end

section
/-!
# Canonical maps: faults, flash, resets and boot
-/

namespace Sys2Proof.Proofs

open Sys2Proof Sys2Proof.Machine Sys2Proof.Safety Sys2Proof.Laws

-- A lemma's proof ends before the next begins: proofs that wait for the lemmas they cite would hold a thread each.
set_option Elab.async false

namespace Canon

variable {s : Box}

/-! ### Machine/Fault.lean -/

theorem trainAll (h : Canon s) : Canon s.trainAll :=
  h.foldl fun h1 => h1.trainFlit

theorem pldmNotify (h : Canon s) : Canon s.pldmNotify :=
  h.emit.ite h

theorem freeze (h : Canon s) : Canon s.freeze :=
  h.foldl fun h1 => h1.put

theorem fatal (h : Canon s) {c} : Canon (s.fatal c) := by
  have alarm {b : Box} (hb : Canon b) : Canon { b with alarm := true } := hb.same
  have dump {b : Box} (hb : Canon b) {d} : Canon { b with dump := d } := hb.same
  have stop {b : Box} (hb : Canon b) {d} : Canon { b with phase := .failStopped, dump := d } := hb.same
  exact
    have h2 := (stop h.trainAll).freeze.wr
    (h.ite ((alarm (dump h).wr.put.put).ite (dump h).wr)).ite ((alarm h2.put).ite (h2.put.ite h2.put)).pldmNotify

theorem requestsLost (h : Canon s) : Canon s.requestsLost := by
  unfold Box.requestsLost
  split
  next k s1 e =>
    have hs1 : Canon s1 := of2 e h.takeFree
    exact (upd (h := hs1.upd.put)).ite hs1.upd

theorem shedCalibration (h : Canon s) : Canon s.shedCalibration := by
  unfold Box.shedCalibration
  refine ite ?_ h
  split
  next i s1 e =>
    have hs1 : Canon s1 := of2 e h.takeFree
    exact hs1.upd.foldl fun h1 => h1.setEngine

theorem coreFail (h : Canon s) {c} : Canon (s.coreFail c) := by
  unfold Box.coreFail
  refine ite h ?_
  split
  next k s1 e =>
    have hs1 : Canon s1 := of2 e h.takeFree
    extract_lets s2
    have hs2 : Canon s2 := hs1.upd.postFault.requestsLost.shedCalibration
    exact hs2.fatal.ite hs2

theorem dumpCmd (h : Canon s) {src v} : Canon (s.dumpCmd src v) := by
  unfold Box.dumpCmd
  extract_lets s1 _ s2
  have hs1 : Canon s1 := h.rsvCheck
  have hs2 : Canon s2 := hs1.upd.ite hs1
  exact hs2.fatal.ite hs2

theorem moduleFail (h : Canon s) {t} : Canon (s.moduleFail t) :=
  h.ite h.takeFree.wr.put.put.postFault.raiseInt

theorem coreRail (h : Canon s) {mv} : Canon (s.coreRail mv) :=
  h.wr.put

theorem junction (h : Canon s) {die tj} : Canon (s.junction die tj) :=
  h.wr.put.wr

theorem guarantee (h : Canon s) : Canon s.guarantee :=
  h.put.count.raiseInt.envBreakAll.ite (h.put.raiseInt.ite h.put)

theorem envUpdate (h : Canon s) {mv die tj} : Canon (s.envUpdate mv die tj) :=
  h.coreRail.junction.guarantee

/-! ### Machine/Flash.lean -/

theorem flashProgram (h : Canon s) {cs off bs} : Canon (s.flashProgram cs off bs) :=
  h.same

theorem boardAct (h : Canon s) {x} : Canon (s.boardAct x) := by
  unfold Box.boardAct
  split
  · exact h.upd.ite h
  · exact h.upd

theorem flashErase (h : Canon s) {cs off n} : Canon (s.flashErase cs off n) :=
  h.same

theorem showFuses (h : Canon s) : Canon s.showFuses :=
  h.wr.wr.put.put.put

theorem fuseBreak (h : Canon s) : Canon s.fuseBreak := by
  unfold Box.fuseBreak
  split
  · exact h
  · split
    next k s1 e =>
      have hs1 : Canon s1 := of2 e h.takeFree
      exact hs1.upd
  · exact h.upd

theorem fuseRailChange (h : Canon s) {present} : Canon (s.fuseRailChange present) := by
  unfold Box.fuseRailChange
  extract_lets s1
  have hs1 : Canon s1 := h.upd.put
  exact hs1.fuseBreak.put.showFuses.ite hs1

theorem fuseCmd (h : Canon s) {src v} : Canon (s.fuseCmd src v) :=
  h.rsvWriteAt.ite (h.accErrAt.ite h.rsvCheck.put.upd)

theorem fuseDone (h : Canon s) : Canon s.fuseDone := by
  unfold Box.fuseDone
  split
  · exact h
  · exact h.upd.put.showFuses.raiseInt

/-! ### Machine/Reset.lean -/

theorem bare (_ : Canon s) : Canon s.bare :=
  ⟨rfl, rfl, rfl, rfl⟩

theorem resetNote (h : Canon s) {kind src} : Canon (s.resetNote kind src) :=
  h.wr.wr

theorem pinWords (h : Canon s) : Canon s.pinWords :=
  h.setWord.put

theorem powerOn (h : Canon s) : Canon s.powerOn :=
  (upd (h := h.fuseBreak.upd.bare)).pinWords.resetNote

theorem powerRelease (h : Canon s) {straps} : Canon (s.powerRelease straps) :=
  (h.upd.ite h).powerOn

theorem coldReset (h : Canon s) {src straps} : Canon (s.coldReset src straps) :=
  h.fuseBreak.upd.bare.pinWords.resetNote

theorem warmReset (h : Canon s) {src} : Canon (s.warmReset src) := by
  unfold Box.warmReset
  extract_lets +onlyGivenNames _ b
  have hb : Canon b := by
    have hmem : mapWf memDflt (mapDrop s.mem fun k => decide (1 < k / 2 ^ 40 % 8)) = true := mapDrop_wf h.2.2.2 _
    exact ⟨rfl, rfl, rfl, hmem⟩
  exact hb.setWord.setWord.pinWords.resetNote

theorem keyReady (h : Canon s) {v} : Canon (s.keyReady v) :=
  h.ite h.put.raiseInt

theorem mgmtReset (h : Canon s) {src} : Canon (s.mgmtReset src) :=
  (h.emit.ite h).keyReady.upd.wr.put.put.resetNote

theorem mgmtAsk (h : Canon s) {src} : Canon (s.mgmtAsk src) :=
  h.ite h.mgmtReset

theorem quiesce (h : Canon s) {kind src} : Canon (s.quiesce kind src) := by
  unfold Box.quiesce
  split
  · exact h.upd.ite h
  · exact h.trainAll.upd

theorem resetCmd (h : Canon s) {src v} : Canon (s.resetCmd src v) := by
  unfold Box.resetCmd
  extract_lets +onlyGivenNames a kind
  refine ite h.accErrAt ?_
  refine ite h.rsvWriteAt ?_
  extract_lets s1
  have hs1 : Canon s1 := h.rsvCheck
  exact hs1.quiesce.ite hs1.mgmtAsk

theorem resetEffect (h : Canon s) {straps} : Canon (s.resetEffect straps) := by
  unfold Box.resetEffect
  split
  · exact (h.coldReset.ite h.warmReset).ite h
  · exact h

theorem resetPin (h : Canon s) {kind straps board} : Canon (s.resetPin kind straps board) := by
  unfold Box.resetPin
  extract_lets s
  have hs : Canon s := h.foldl fun h1 => h1.boardAct
  exact hs.ite (hs.coldReset.ite (hs.ite hs.warmReset))

theorem functionReset (h : Canon s) : Canon s.functionReset :=
  ⟨mapClear_wf h.1 _ _, h.2⟩

theorem cxlDown (h : Canon s) : Canon s.cxlDown :=
  h.wr.wr

theorem hostReset (h : Canon s) : Canon s.hostReset := by
  unfold Box.hostReset
  refine ite h ?_
  extract_lets f frozen s1
  have hs1 : Canon s1 := ⟨mapClear_wf h.1 _ _, h.2.1, mapClear_wf h.2.2.1 _ _, h.2.2.2⟩
  exact hs1.put.put.functionReset.resetNote

theorem cxlTrain (h : Canon s) {width speed flit256} : Canon (s.cxlTrain width speed flit256) :=
  h.ite (h.wr.wr.put.ite (h.ite h.put.raiseInt.pldmNotify))

theorem pwrOkRise (h : Canon s) {straps} : Canon (s.pwrOkRise straps) :=
  h.ite h.upd.powerRelease

theorem pwrOkFall (h : Canon s) : Canon s.pwrOkFall :=
  have h1 : Canon (if s.phase.alive then s.trainAll.anchored s else s) := (h.trainAll.anchored h).ite h
  h.ite (upd (h := powerOn (h1.upd)))

theorem railRead (h : Canon s) {rail mv} : Canon (s.railRead rail mv) :=
  ((h.coreRail.guarantee.anchored h).ite h.wr).ite h.upd.powerOn.wr

theorem thermalTrip (h : Canon s) {die tj} : Canon (s.thermalTrip die tj) := by
  unfold Box.thermalTrip
  exact have h1 := h.junction.guarantee; h1.ite h1.trainAll.upd

theorem cornerRead (h : Canon s) {mv die tj} : Canon (s.cornerRead mv die tj) :=
  h.railRead.ite ((h.envUpdate.anchored h).ite (h.coreRail.thermalTrip.anchored h))

/-! ### Machine/Boot.lean -/

theorem deriveKeys (h : Canon s) {slot} : Canon (s.deriveKeys slot) := by
  unfold Box.deriveKeys
  exact h.ite h.upd

theorem lockSecrets (h : Canon s) : Canon s.lockSecrets :=
  h.upd.keyReady

theorem senseFuses (h : Canon s) : Canon s.senseFuses :=
  h.wr.wr.showFuses

theorem bootStop (h : Canon s) {v} : Canon (s.bootStop v) := by
  unfold Box.bootStop
  exact h.wr.upd

theorem spendTry (h : Canon s) {slot} : Canon (s.spendTry slot) :=
  h.flashProgram

theorem trySlot (h : Canon s) {slot} : Canon (s.trySlot slot).2 := by
  unfold Box.trySlot
  extract_lets s1 reason
  have h1 : Canon s1 := h.spendTry.ite h
  clear_value reason s1
  exact ite2 h1 h1.flashProgram.wr

theorem memTrain (h : Canon s) : Canon s.memTrain :=
  h.foldl fun h1 => h1.ite (h1.wr.put.ite h1.wr)

theorem netStart (h : Canon s) : Canon s.netStart :=
  h.emit.upd.emit

theorem windowStart (h : Canon s) : Canon s.windowStart := by
  unfold Box.windowStart
  split
  · exact h
  · exact h.ite h.wr

theorem passRestart (h : Canon s) : Canon s.passRestart :=
  h.wr.ite h

theorem handOver (h : Canon s) {slot fallback} : Canon (s.handOver slot fallback) :=
  ((h.deriveKeys.lockSecrets.wr.put.put.put.wr.wr.foldl fun h4 => h4.moduleMove).foldl fun h5 =>
      h5.put).memTrain.passRestart.windowStart.netStart.pldmNotify

theorem bootSlots {slots : List Nat} : ∀ {s : Box} (_ : Canon s) {fallback}, Canon (s.bootSlots slots fallback) := by
  induction slots with
  | nil => exact fun h => h.bootStop
  | cons slot rest ih =>
    intro s h fallback
    unfold Box.bootSlots
    split
    next reason s1 e =>
      have h1 : Canon s1 := of2 e h.trySlot
      exact h1.handOver.ite (ih h1)

theorem bootRun (h : Canon s) {r} : Canon (s.bootRun r) := by
  unfold Box.bootRun
  extract_lets s1 s2 order
  have h1 : Canon s1 := h.senseFuses
  have h2 : Canon s2 := h1.put
  exact h.ite (h.bootStop.ite (h1.bootStop.ite (h1.bootStop.ite (h2.wr.bootStop.ite h2.bootSlots))))

theorem fwConfirm (h : Canon s) : Canon s.fwConfirm :=
  h.flashProgram.put.ite h

theorem fwupEnd (h : Canon s) {reason} : Canon (s.fwupEnd reason) :=
  h.upd.put.wr.put.raiseInt

theorem fwupStart (h : Canon s) {o} : Canon (s.fwupStart o) := by
  unfold Box.fwupStart
  exact h.put.upd

theorem fwupClosed (h : Canon s) : Canon s.fwupClosed := by
  unfold Box.fwupClosed
  exact h.put.upd

theorem fwupOpen (h : Canon s) {path} : Canon (s.fwupOpen path) :=
  h.fwupEnd.ite h.put.upd.fwupStart.flashErase

theorem fwupActivate (h : Canon s) {mode src} : Canon (s.fwupActivate mode src) :=
  have h1 := h.fwupEnd
  h1.mgmtAsk.ite h1

theorem fwupAbort (h : Canon s) {path} : Canon (s.fwupAbort path) :=
  h.fwupEnd.ite h.fwupClosed.fwupEnd

theorem fwupCmd (h : Canon s) {src v} : Canon (s.fwupCmd src v) := by
  unfold Box.fwupCmd
  extract_lets +onlyGivenNames a cmd
  refine ite h.rsvWriteAt ?_
  refine ite h.accErrAt ?_
  extract_lets s1 mine
  have hs1 : Canon s1 := h.rsvCheck
  generalize cmd = x
  split
  · exact hs1.fwupOpen
  · exact hs1.fwupStart.ite hs1.fwupEnd
  · exact hs1.fwupStart.ite hs1.fwupEnd
  · exact hs1.fwupActivate
  · exact hs1.fwupStart.ite hs1.fwupEnd
  · exact hs1.fwupAbort

theorem fwupCloseDone (h : Canon s) {len} : Canon (s.fwupCloseDone len) :=
  h.flashProgram.fwupClosed.fwupEnd.ite h.fwupEnd

theorem flashLost (h : Canon s) {slot off n} : Canon (s.flashLost slot off n) := by
  unfold Box.flashLost
  exact h.freeBytes.upd

theorem fwupDone (h : Canon s) {flashError} : Canon (s.fwupDone flashError) := by
  unfold Box.fwupDone
  extract_lets slot
  split
  · exact h
  · exact h.flashLost.fwupEnd.ite h.flashErase.fwupEnd
  · exact h.flashLost.fwupEnd.ite h.flashProgram.upd.fwupEnd
  · exact h.flashLost.fwupEnd.ite h.fwupCloseDone
  · exact h.fwupEnd.ite h.flashProgram.fwupEnd

theorem componentReply (h : Canon s) : Canon s.componentReply :=
  h.emit

theorem fwupBusy (h : Canon s) : Canon s.fwupBusy :=
  h.wr.ite h

theorem updateReply (h : Canon s) : Canon s.updateReply :=
  h.emit

theorem transferDone (h : Canon s) {ok image} : Canon (s.transferDone ok image) :=
  h.ite h.flashProgram.upd.fwupStart

end Canon

end Sys2Proof.Proofs
end

section
/-!
# Canonical maps: Midway, port controls, the loader and Tightrope
-/

namespace Sys2Proof.Proofs

open Sys2Proof Sys2Proof.Machine Sys2Proof.Safety Sys2Proof.Laws

-- A lemma's proof ends before the next begins: proofs that wait for the lemmas they cite would hold a thread each.
set_option Elab.async false

namespace Canon

variable {s : Box}

/-! ### Machine/Midway.lean -/

theorem stageOn (h : Canon s) {p v x} : Canon (s.stageOn p v x) :=
  h.setStaged

theorem grantFrame (h : Canon s) {p v d} : Canon (s.grantFrame p v d) :=
  h.upd.stageOn

theorem copyTo (h : Canon s) {r p} : Canon (s.copyTo r p) :=
  (h.setPort.ite h).upd.stageOn

theorem sendCopies (h : Canon s) {u r} : Canon (s.sendCopies u r) := by
  unfold Box.sendCopies
  split
  · exact h
  · exact h.ite (h.foldl fun h1 => h1.copyTo).upd

theorem crossTent (h : Canon s) {u} : Canon (s.crossTent u) :=
  h.foldl fun h1 => h1.sendCopies

theorem winTurn (h : Canon s) {p r} : Canon (s.winTurn p r) :=
  h.same

theorem grantBytes (h : Canon s) {t n} : Canon (s.grantBytes t n) :=
  h.bump

theorem readDesc (h : Canon s) {d reads} : Canon (s.readDesc d reads).2 :=
  h.readFrame

theorem readResult (h : Canon s) {r reads} : Canon (s.readResult r reads) := by
  unfold Box.readResult
  exact h.readFrame.upd

theorem midwayGrant (h : Canon s) {p v reads} : Canon (s.midwayGrant p v reads) := by
  unfold Box.midwayGrant
  extract_lets s0
  have hs0 : Canon s0 := h.crossTent
  split
  · exact hs0
  · refine ite hs0 ?_
    extract_lets s1
    have hs1 : Canon s1 := hs0.upd.grantBytes
    split
    · split
      next d' s2 e =>
        have hs2 : Canon s2 := of2 e hs1.readDesc
        exact hs2.grantFrame.spillSettle
    · exact hs1.readResult.winTurn.crossTent

theorem transferBad (h : Canon s) {t tries} : Canon (s.transferBad t tries).2 :=
  ite2 h.count h.count.raiseInt

theorem d2dRetries (h : Canon s) {t retries} : Canon (s.d2dRetries t retries) :=
  h.bump

theorem crossed (h : Canon s) {id ps} : Canon (s.crossed id ps) :=
  h.upd.foldl fun h1 => h1.freeCells

theorem egressCheck (h : Canon s) {p v id} : Canon (s.egressCheck p v id) := by
  unfold Box.egressCheck
  split
  · exact h
  · refine ite ?_ h
    extract_lets s1 s2
    have hs1 : Canon s1 := h.setStaged
    have hs2 : Canon s2 := hs1.carCount.raiseInt
    split
    · exact hs2.loseCopy
    · exact hs2

theorem frameTransfer (h : Canon s) {p v x zero} : Canon (s.frameTransfer p v x zero) :=
  have h1 := h.setStaged
  h1.release.spillSettle.ite h1

theorem resultTransfer (h : Canon s) {p v x key zero} : Canon (s.resultTransfer p v x key zero) := by
  unfold Box.resultTransfer
  extract_lets ports step s1
  have hstep {b q} (hb : Canon b) : Canon (step b q) := by
    unfold step
    exact hb.setStaged
  have hs1 : Canon s1 := h.foldl fun h1 => hstep h1
  exact (hs1.crossed.foldl fun h1 => h1.egressCheck).ite hs1

theorem onPartOf (h : Canon s) {sl j f} : Canon (s.onPartOf sl j f) :=
  h.setSliver

theorem partRead (h : Canon s) {p i j it reads} : Canon (s.partRead p i j it reads) := by
  unfold Box.partRead
  extract_lets sl
  split
  · exact h
  · refine ite ?_ h
    split
    next r s1 e =>
      have hs1 : Canon s1 := of2 e h.readSpan
      exact hs1.setPort.onPartOf

theorem partArrive (h : Canon s) {p i j it zero} : Canon (s.partArrive p i j it zero) :=
  have h1 := h.onPartOf
  h1.setPort.steerGone.ite h1

theorem partTransfer (h : Canon s) {p bad retries reads} : Canon (s.partTransfer p bad retries reads) := by
  unfold Box.partTransfer
  split
  · exact h
  · extract_lets sl s0
    have h0 : Canon s0 := h.partRead.d2dRetries
    refine ite ?_ h0.partArrive
    split
    · next e => exact (of2 e h0.transferBad).partArrive
    · next e => exact (of2 e h0.transferBad).onPartOf

theorem egressTransfer {s0 : Box} (h : Canon s0) {p v bad retries} : Canon (s0.egressTransfer p v bad retries) := by
  unfold Box.egressTransfer
  split
  · exact h
  · extract_lets +onlyGivenNames q r
    refine h.ite ?_
    extract_lets +onlyGivenNames _ s1 _ s next
    have hs : Canon s := h.setTent.setTent.d2dRetries
    have hnext {b : Box} (hb : Canon b) {zero} : Canon (next b zero) := by
      unfold next
      split
      · exact hb.resultTransfer
      · exact hb.frameTransfer
    refine ite ?_ (hnext hs)
    split
    · next e => exact hnext (of2 e hs.transferBad)
    · next e => exact (of2 e hs.transferBad).setStaged

/-! ### Machine/PortCtl.lean -/

theorem loadCredits (h : Canon s) {f} : Canon (s.loadCredits f) :=
  h.foldl fun h1 => h1.setWords

theorem clearPair {s0 : Box} (h : Canon s0) {f} : Canon (s0.clearPair f) := by
  unfold Box.clearPair
  extract_lets s
  have hs : Canon s := h.foldl fun h1 => h1.setPort
  exact hs.dropCtrs

theorem aprBegin (h : Canon s) {f} : Canon (s.aprBegin f) :=
  h.put.aprEnter

theorem modeRings (h : Canon s) {f} : Canon (s.modeRings f) :=
  (h.foldl fun h1 => h1.ringOff).ite (h.foldl fun h1 => (h1.ringSearch.ite h1).ite (h1.ringVerified.ite h1)).pairReady

theorem fpMode (h : Canon s) {src f v} : Canon (s.fpMode src f v) := by
  unfold Box.fpMode
  extract_lets +onlyGivenNames a
  refine ite h.rsvWriteAt ?_
  refine ite h.accErrAt ?_
  extract_lets was old s1 s2 s3 s4
  have hs1 : Canon s1 := h.plainWrite
  have hs2 : Canon s2 := hs1.foldl fun h1 => h1.reroute
  have hs3 : Canon s3 := hs2.loadCredits.clearPair
  have hs4 : Canon s4 := hs3.aprBegin.ite (hs3.put.setApr.ite hs3)
  exact hs4.modeRings

theorem seekRings (h : Canon s) {f} : Canon (s.seekRings f) :=
  h.foldl fun h1 => h1.ringSearch

theorem portOpen (h : Canon s) {p} : Canon (s.portOpen p) :=
  h.setPort.seekRings.trainStart

theorem portClose (h : Canon s) {p} : Canon (s.portClose p) :=
  (h.linkDown.reroute.drainPortDown.ite h).put.wr.setPort.reserveReturn

theorem portCtrl (h : Canon s) {src p v} : Canon (s.portCtrl src p v) := by
  unfold Box.portCtrl
  extract_lets +onlyGivenNames a on was
  refine ite h.rsvWriteAt ?_
  refine ite ?_ (h.plainWrite.portClose.ite h.plainWrite)
  refine ite h.plainWrite.portOpen ?_
  extract_lets t f s1 s2
  have hs1 : Canon s1 := h.plainWrite
  have hs2 : Canon s2 := hs1.ite hs1.put.raiseInt
  exact hs2.accErrAt

theorem creditWrite (h : Canon s) {src p w v} : Canon (s.creditWrite src p w v) :=
  h.rsvWriteAt.ite (h.accErrAt.ite (h.rsvWriteAt.ite h).setWord)

/-! ### Machine/CalRegs.lean -/

theorem ovhWrite (h : Canon s) {src p v} : Canon (s.ovhWrite src p v) :=
  h.onPort (fun h1 => h1.plainWrite.ite h1.rsvWriteAt)

theorem gateWord (h : Canon s) {src a p b k w v} : Canon (s.gateWord src a p b k w v) :=
  h.onPort (fun h1 => h1.accErrAt.ite (h1.rsvWriteAt.ite h1).setTab)

theorem shaperWrite (h : Canon s) {src a p vc burst v} : Canon (s.shaperWrite src a p vc burst v) := by
  unfold Box.shaperWrite
  extract_lets rate rise s1 depth t x
  have hs1 : Canon s1 := h.plainWrite
  split
  · exact hs1.setCal
  · exact hs1.setCal

theorem glCmd (h : Canon s) {src p v} : Canon (s.glCmd src p v) := by
  unfold Box.glCmd
  extract_lets a s1
  have hs1 : Canon s1 := h.rsvCheck
  split
  · exact hs1
  · exact hs1.glCommit
  · exact hs1.glCancel
  · exact hs1.glStop
  · exact hs1.accErrAt

theorem reasonWrite (h : Canon s) {src bit reason v} : Canon (s.reasonWrite src bit reason v) :=
  have h1 := h.plainWrite
  h1.wr.ite h1

theorem calWrite (h : Canon s) {src r a v} : Canon (s.calWrite src r a v) := by
  unfold Box.calWrite
  extract_lets p
  refine h.onPort fun h1 => ?_
  split
  · exact h1.plainWrite.ite h1.rsvWriteAt
  · exact h1.accErrAt.ite h1.plainWrite
  · exact h1.accErrAt.ite h1.plainWrite
  · exact h1.shaperWrite
  · exact h1.shaperWrite
  · exact h1.shaperWrite
  · exact h1.shaperWrite
  · exact h1.accErrAt.ite h1.plainWrite
  · exact h1.accErrAt.ite h1.plainWrite
  · exact h1.accErrAt.ite h1.plainWrite
  · exact h1.glCmd
  · exact h1.reasonWrite
  · exact h1.plainWrite

theorem ushCtrl (h : Canon s) {src t v} : Canon (s.ushCtrl src t v) := by
  unfold Box.ushCtrl
  extract_lets +onlyGivenNames a m sizes bad
  refine ite h.rsvWriteAt ?_
  refine ite h.accErrAt ?_
  extract_lets s1
  have hs1 : Canon s1 := h.plainWrite
  exact hs1.ushAudit.ite hs1

theorem poolWrite (h : Canon s) {src t a v} : Canon (s.poolWrite src t a v) :=
  h.accErrAt.ite h.plainWrite

theorem collWrite (h : Canon s) {src t v} : Canon (s.collWrite src t v) :=
  h.accErrAt.ite h.plainWrite

theorem partWrite (h : Canon s) {src t i v} : Canon (s.partWrite src t i v) :=
  h.rsvWriteAt.ite (h.accErrAt.ite h.plainWrite.setTent)

theorem spillCtrl (h : Canon s) {src t v} : Canon (s.spillCtrl src t v) :=
  h.accErrAt.ite h.plainWrite.spillSettle

/-! ### Machine/Loader.lean -/

theorem kReject (h : Canon s) {reason} : Canon (s.kReject reason) :=
  h.wr.put.raiseInt

theorem kInfo (h : Canon s) {slot} : Canon (s.kInfo slot) :=
  ((h.put.wr.wr.foldl fun h2 => h2.wr).wr.foldl fun h4 => h4.wr).raiseInt

theorem putKernel (h : Canon s) {slot image} : Canon (s.putKernel slot image) :=
  h.same

theorem kloadCmd (h : Canon s) {src cmd piece slot} : Canon (s.kloadCmd src cmd piece slot) := by
  unfold Box.kloadCmd
  refine ite h.accErrAt ?_
  split
  · exact h.rsvWriteAt.ite h.put.upd
  · exact h.kReject.ite h.put.upd
  · exact h.kReject.ite h.putKernel.raiseInt
  · exact h.kInfo
  · exact h.rsvWriteAt

theorem kloadStageDone (h : Canon s) : Canon s.kloadStageDone := by
  unfold Box.kloadStageDone
  split
  · exact h.put.wr.upd
  · exact h

theorem kloadVerifyDone (h : Canon s) : Canon s.kloadVerifyDone := by
  unfold Box.kloadVerifyDone
  split
  · extract_lets r _ s1
    have hs1 : Canon s1 := h.put.wr.upd
    exact hs1.kReject.ite hs1.put.putKernel.raiseInt
  · exact h

/-! ### Machine/Tightrope.lean -/

theorem setPin (h : Canon s) {i x} : Canon (s.setPin i x) :=
  h.same

theorem pinOut (h : Canon s) {i at_} : Canon (s.pinOut i at_) :=
  h.emit

theorem pinFire (h : Canon s) {u at_} : Canon (s.pinFire u at_) := by
  unfold Box.pinFire
  extract_lets i x
  split
  · exact h.setPin.pinOut
  · exact h.setPin.pinOut
  · exact h

theorem trigAction (h : Canon s) {u at_} : Canon (s.trigAction u at_) := by
  unfold Box.trigAction
  extract_lets +onlyGivenNames tgt
  split
  · exact h.pinFire
  · exact h.monFire
  · exact h.heatFire
  · exact h.upd
  · exact h

theorem setInstant (h : Canon s) {u r} : Canon (s.setInstant u r) :=
  h.wr.wr.put.ite h.wr.wr

theorem trigRun (h : Canon s) {u at_ next} : Canon (s.trigRun u at_ next) :=
  (h.put.wr.put.ite h.put.wr.setInstant).trigAction.fwdTrigger.snapTrigger

theorem trigStep (h : Canon s) {u} : Canon (s.trigStep u) :=
  h.put.trigRun.ite h

theorem discontinuity (h : Canon s) {ts us forward} : Canon (s.discontinuity ts us forward) := by
  unfold Box.discontinuity
  extract_lets s1 s2 s3
  have hs1 : Canon s1 := h.put.raiseInt
  have hs2 : Canon s2 := hs1.envBreakAll
  have hs3 : Canon s3 := hs2.foldl fun h1 => h1.listJump
  exact (hs3.foldl fun h1 => h1.trigStep).ite hs3

theorem setRate (h : Canon s) {r} : Canon (s.setRate r) := by
  unfold Box.setRate
  extract_lets c w s1
  have hs1 : Canon s1 := h.upd.wr.wr
  exact hs1.ite hs1.put

theorem applyOne (h : Canon s) {a} : Canon (s.applyOne a) := by
  unfold Box.applyOne
  extract_lets +onlyGivenNames old new s1 s2 s3
  have hs1 : Canon s1 := h.upd
  have hs2 : Canon s2 := by
    unfold s2
    split
    · exact hs1.setRate
    · exact hs1
  have hs3 : Canon s3 := hs2.discontinuity.ite hs2
  exact hs3.upd.servoEnter.ite hs3

theorem timeApply (h : Canon s) : Canon s.timeApply :=
  h.upd.foldl fun h2 => h2.applyOne

theorem timeDue (h : Canon s) : Canon s.timeDue :=
  h.timeApply.ite h

theorem trigFire (h : Canon s) {u} : Canon (s.trigFire u) :=
  (h.foldl fun h1 => h1.trigRun).ite h

theorem trigOverdue (h : Canon s) {u} : Canon (s.trigOverdue u) :=
  have h1 := h.timeDue
  h1.trigFire.ite h1

theorem trigArm (h : Canon s) {src u} : Canon (s.trigArm src u) :=
  h.accErrAt.ite (h.put.wr.trigLate.count.trigRun.ite h.put.wr)

theorem trigCtrl (h : Canon s) {src u v} : Canon (s.trigCtrl src u v) := by
  unfold Box.trigCtrl
  extract_lets +onlyGivenNames s a new armed
  have hs : Canon s := h.trigOverdue
  refine ite hs.rsvWriteAt ?_
  refine ite hs.accErrAt ?_
  refine ite hs.accErrAt ?_
  extract_lets s1
  have hs1 : Canon s1 := hs.plainWrite.put
  exact hs1.trigArm.ite hs1

theorem trigWord (h : Canon s) {src u a v} : Canon (s.trigWord src u a v) :=
  have h1 := h.trigOverdue
  h1.accErrAt.ite (h1.accErrAt.ite (h1.accErrAt.ite h1.plainWrite))

theorem launchWord (h : Canon s) {src t i a v} : Canon (s.launchWord src t i a v) :=
  h.accErrAt.ite h.plainWrite

theorem pinDisarm (h : Canon s) {i} : Canon (s.pinDisarm i) :=
  h.foldl fun h1 => have h2 := h1.trigOverdue; h2.put.ite h2

theorem pinCfg (h : Canon s) {src i v} : Canon (s.pinCfg src i v) := by
  unfold Box.pinCfg
  extract_lets +onlyGivenNames a new
  refine ite h.rsvWriteAt ?_
  refine ite h.accErrAt ?_
  extract_lets mode s1 s2 s3
  have hs1 : Canon s1 := h.plainWrite
  have hs2 : Canon s2 := hs1.wr.pinDisarm.ite hs1
  have hs3 : Canon s3 := hs2.ite hs2.setPin
  exact hs3.ite hs3.pinOut

theorem pinEdge (h : Canon s) {i rising sub} : Canon (s.pinEdge i rising sub) :=
  h.ite h.wr.wr.wr.put.setPin.raiseInt

theorem pulseEnd (h : Canon s) {i} : Canon (s.pulseEnd i) := by
  unfold Box.pulseEnd
  split
  · exact h.setPin.pinOut.ite h
  · exact h

theorem latchNow (h : Canon s) : Canon s.latchNow :=
  h.wr.wr.wr.wr.wr.wr

theorem acquire (h : Canon s) {l} : Canon (s.acquire l) :=
  h.upd.request

theorem trackOffset (h : Canon s) {o} : Canon (s.trackOffset o) :=
  (h.count.upd.servoEnter.ite h.count.upd).ite h.upd.requestRate

theorem servoMeasure (h : Canon s) {o} : Canon (s.servoMeasure o) := by
  unfold Box.servoMeasure
  extract_lets +onlyGivenNames small _ s1
  have hs1 : Canon s1 := h.upd
  split
  · exact hs1.ite (hs1.upd.acquire.ite hs1.upd)
  · exact hs1.servoEnter.ite hs1.trackOffset
  · exact hs1.upd.servoEnter.trackOffset.ite hs1.servoEnter
  · exact h

theorem servoAcquire {s0 : Box} (h : Canon s0) : Canon s0.servoAcquire :=
  h.timeDue.upd.servoEnter

theorem servoCmd (h : Canon s) {cmd} : ∀ b ∈ s.servoCmd cmd, Canon b := by
  unfold Box.servoCmd
  split
  · exact optIte (optSome (h.servoEnter.ite h.servoAcquire)) optNone
  · exact optIte (optSome h.servoAcquire) optNone
  · exact optIte (optSome h.request) optNone
  · exact optIte optNone (optSome (h.timeDue.same).servoEnter)
  · exact optSome h

theorem servoCtrl (h : Canon s) {src v} : Canon (s.servoCtrl src v) := by
  unfold Box.servoCtrl
  extract_lets +onlyGivenNames cmd
  refine h.rsvWriteAt.ite ?_
  extract_lets +onlyGivenNames old s1 _ s2
  have h1 : Canon s1 := h.plainWrite
  have h2 : Canon s2 := h1.ite h1.upd
  clear_value s2
  split
  · next e => exact h2.servoCmd _ (Option.mem_def.2 e)
  · exact h2.put.raiseInt

theorem rateHi (h : Canon s) {src v} : Canon (s.rateHi src v) :=
  h.accErrAt.ite h.rsvCheck.requestRate

theorem rateLo (h : Canon s) {src v} : Canon (s.rateLo src v) := by
  unfold Box.rateLo
  exact h.accErrAt.ite h.upd

theorem servoGain (h : Canon s) {src v} : Canon (s.servoGain src v) :=
  h.accErrAt.ite h.plainWrite

theorem syncTimeout (h : Canon s) : Canon s.syncTimeout :=
  h.servoHoldover.ite h

theorem ptpDiscard (h : Canon s) : Canon s.ptpDiscard :=
  h.count

theorem ptpTake (h : Canon s) {p ty f} (hf : ∀ {y0 y1 y2}, Canon y2 → Canon (f y0 y1 y2)) : Canon (s.ptpTake p ty f) := by
  unfold Box.ptpTake
  split
  · exact h
  · extract_lets m _ gone short
    have hgone : Canon gone := h.setPort
    exact hgone.ptpDiscard.ite ((hf hgone).ite h)

theorem onSync (h : Canon s) {p m t2} : Canon (s.onSync p m t2) :=
  h.ptpDiscard.ite ((h.foldl fun h1 => h1.setPtp.sendPtp).ite ((h.upd.setPtp.ite h).ite h.ptpDiscard))

theorem onFollowUp (h : Canon s) {p m} : Canon (s.onFollowUp p m) := by
  unfold Box.onFollowUp
  refine ite (h.ptpDiscard.ite (h.foldl fun h1 => h1.setPtp.relaySettle)) ?_
  refine ite ?_ h.ptpDiscard
  split
  · exact h.setPtp.servoMeasure.ite h.ptpDiscard
  · exact h.ptpDiscard

theorem onPdReq (h : Canon s) {p m t2} : Canon (s.onPdReq p m t2) :=
  h.setPtp.sendPtp.ite h.ptpDiscard

theorem onPdResp (h : Canon s) {p m t4} : Canon (s.onPdResp p m t4) := by
  unfold Box.onPdResp
  extract_lets x
  split
  · exact h.setPtp.ite h.ptpDiscard
  · exact h.ptpDiscard

theorem onPdFollow (h : Canon s) {p m} : Canon (s.onPdFollow p m) := by
  unfold Box.onPdFollow
  extract_lets x
  split
  · exact (h.setPtp.wr.ite h.setPtp).ite h.ptpDiscard
  · exact h.ptpDiscard

theorem syncSend (h : Canon s) : Canon s.syncSend :=
  h.ite (h.upd.foldl fun h2 => h2.setPtp.sendPtp)

theorem pdelaySend (h : Canon s) : Canon s.pdelaySend :=
  h.ite (h.upd.foldl fun h2 => h2.setPtp.sendPtp)

theorem ethSend (h : Canon s) : Canon s.ethSend :=
  h.ite h.upd.takeFree.emit.emit.emit

theorem ethDelay (h : Canon s) {seq ident corr domain option sub} : Canon (s.ethDelay seq ident corr domain option sub) :=
  h.count.ite (h.ptpDiscard.ite h.emit)

theorem replicaCheck (h : Canon s) {t diff} : Canon (s.replicaCheck t diff) := by
  unfold Box.replicaCheck
  extract_lets +onlyGivenNames _ s1
  have hs1 : Canon s1 := h.upd.setTent
  exact h.ite (hs1.ite hs1.put.raiseInt.envBreakAll)

theorem replicaReload (h : Canon s) {t} : Canon (s.replicaReload t) :=
  h.ite h.upd.discontinuity

end Canon

end Sys2Proof.Proofs
end

section
/-!
# Canonical maps: register accesses, dumps and management
-/

namespace Sys2Proof.Proofs

open Sys2Proof Sys2Proof.Machine Sys2Proof.Safety Sys2Proof.Laws

-- A lemma's proof ends before the next begins: proofs that wait for the lemmas they cite would hold a thread each.
set_option Elab.async false

namespace Canon

variable {s : Box}

/-! ### Machine/Mmio.lean -/

theorem unmapped (h : Canon s) {addr} : Canon (s.unmapped addr) :=
  h.count.wr.raiseInt

theorem headerWrite (h : Canon s) {src a v} : Canon (s.headerWrite src a v) :=
  h.setWord.rsvCheck

theorem intWrite (h : Canon s) {src p pend v} : Canon (s.intWrite src p pend v) :=
  h.headerWrite.resendVector

theorem intForce (h : Canon s) {p v} : Canon (s.intForce p v) :=
  h.foldl fun h1 => h1.raiseInt.ite h1

theorem pageErrWrite (h : Canon s) {src p v} : Canon (s.pageErrWrite src p v) :=
  have h1 := h.setWord
  (h1.ite h1.wr.wr).rsvCheck

theorem msixWrite (h : Canon s) {a v} : Canon (s.msixWrite a v) :=
  have h1 := h.setWord
  h1.put.emit.ite h1

theorem fwdCtrl (h : Canon s) {src a v} : Canon (s.fwdCtrl src a v) :=
  h.rsvWriteAt.ite h.plainWrite

theorem epochCtrl (h : Canon s) {src v} : Canon (s.epochCtrl src v) := by
  unfold Box.epochCtrl
  extract_lets a
  split
  · exact h.plainWrite
  · exact h.plainWrite.fwdSwitch
  · exact h.plainWrite.fwdFlushOld
  · exact h.plainWrite.fwdCopy
  · exact h.accErrAt

theorem tblCmdWrite (h : Canon s) {src v} : Canon (s.tblCmdWrite src v) :=
  h.rsvCheck.fwdTblCmd

theorem noticeCtrl (h : Canon s) {src v} : Canon (s.noticeCtrl src v) :=
  have h1 := h.plainWrite
  h1.noticeGo.ite h1

theorem sptCtrl (h : Canon s) {src t v} : Canon (s.sptCtrl src t v) :=
  have h1 := h.rsvCheck
  have h2 := h1.engineStart.ite h1
  h2.engineStart.ite h2

theorem xtCtrl (h : Canon s) {src e v} : Canon (s.xtCtrl src e v) := by
  unfold Box.xtCtrl
  extract_lets +onlyGivenNames a
  refine ite h.accErrAt ?_
  extract_lets old s1 _ s2 s3
  have hs1 : Canon s1 := h.plainWrite
  have hs2 : Canon s2 := hs1.ite hs1.setEngine
  have hs3 : Canon s3 := hs2.xtCal.ite hs2
  exact hs3.xtCommit.ite hs3

theorem xtWinWrite (h : Canon s) {src t i a v} : Canon (s.xtWinWrite src t i a v) :=
  h.accErrAt.ite ((h.ite h.rsvWriteAt).ite (h.rsvWriteAt.ite h).setWord)

theorem lsrCfg (h : Canon s) {src t i a v} : Canon (s.lsrCfg src t i a v) :=
  h.accErrAt.ite h.plainWrite

theorem policyWrite (h : Canon s) {src st a v} : Canon (s.policyWrite src st a v) :=
  h.rsvWriteAt.ite (h.accErrAt.ite h.plainWrite)

theorem queueTail (h : Canon s) {src q v} : Canon (s.queueTail src q v) :=
  h.plainWrite.setQueued

theorem brkCtrl (h : Canon s) {src t v} : Canon (s.brkCtrl src t v) :=
  have h1 := h.plainWrite
  h1.samplersEnable.ite h1

theorem ringCfg (h : Canon s) {src t v} : Canon (s.ringCfg src t v) :=
  h.accErrAt.ite h.plainWrite

theorem hintWrite (h : Canon s) {src id a v} : Canon (s.hintWrite src id a v) :=
  h.accErrAt.ite h.plainWrite

theorem winCfg (h : Canon s) {src v} : Canon (s.winCfg src v) :=
  h.accErrAt.ite h.plainWrite

theorem winMap (h : Canon s) {src k v} : Canon (s.winMap src k v) :=
  h.accErrAt.ite h.plainWrite

theorem regRule (h : Canon s) {src r a v} : Canon (s.regRule src r a v) := by
  obtain ⟨id, die, ix⟩ := r
  cases id with
  | PAGE_ERR => exact h.pageErrWrite
  | INT_PEND => exact h.intWrite
  | INT_EN => exact h.intWrite
  | INT_FORCE => exact h.intForce
  | CNT_CTRL => exact h.cntCtrl
  | LNK_FP_MODE => exact h.fpMode
  | LNK_PORT_CTRL => exact h.portCtrl
  | LNK_PARTNER_ID_ADDR => exact h.onPort (fun h1 => h1.plainWrite)
  | LNK_CREDIT_INIT0 => exact h.creditWrite
  | LNK_CREDIT_INIT1 => exact h.creditWrite
  | LNK_CREDIT_INIT2 => exact h.creditWrite
  | LNK_CREDIT_INIT3 => exact h.creditWrite
  | FWD_CTRL => exact h.fwdCtrl
  | FWD_EPOCH_CTRL => exact h.epochCtrl
  | FWD_TBL_CMD => exact h.tblCmdWrite.ite h.accErrAt
  | FWD_NOTICE_CTRL => exact h.noticeCtrl
  | TRN_PORT_OVH => exact h.ovhWrite
  | USH_CTRL => exact h.ushCtrl
  | USH_COLL_CELLS => exact h.collWrite
  | USH_PART_CFG => exact h.partWrite
  | USH_SPILL_CTRL => exact h.spillCtrl
  | USH_POOL_SMALL | USH_POOL_MED | USH_POOL_LARGE => exact h.poolWrite
  | CAR_TBL_CMD => exact h.rsvCheck.carTblCmd
  | CAR_STREAM_CMD => exact h.strmCmd
  | CAR_STREAM_STATUS => exact h.reasonWrite
  | CAR_TWIN_CTRL => exact h.rsvWriteAt.ite h.plainWrite
  | TMB_KLOAD_CMD => exact h.rsvCheck.kloadCmd
  | TMB_KLOAD_STATUS => exact h.reasonWrite
  | TMB_WIN => exact h.accErrAt.ite h.plainWrite
  | TMB_SUBST_CMD => exact h.rsvCheck.tmbSubst.ite h.rsvCheck
  | TMB_SUBST_STATUS => exact h.reasonWrite
  | TGT_SERVO_CTRL => exact h.servoCtrl
  | TGT_SERVO_GAIN => exact h.servoGain
  | TGT_RATE_LO => exact h.rateLo
  | TGT_RATE_HI => exact h.rateHi
  | TGT_PIN_CFG => exact h.pinCfg
  | TGT_TRIG_CTRL => exact h.trigCtrl
  | TGT_TRIG_TIME_LO | TGT_TRIG_TIME_HI | TGT_TRIG_SUB | TGT_TRIG_PERIOD | TGT_TRIG_WIDTH | TGT_TRIG_STATUS
  | TGT_TRIG_COUNT =>
    exact h.trigWord
  | TGT_PORT_TIME | TGT_PORT_ASYM => exact h.onPort (fun h1 => h1.plainWrite)
  | TGT_LAUNCH_BUF => exact h.launchWord
  | SPT_CTRL => exact h.sptCtrl
  | SPT_HEAT_CTRL => exact h.heatCtrl
  | SPT_MON_CTRL => exact h.monCtrl
  | SPT_XT_CTRL => exact h.xtCtrl
  | SPT_XT_WIN => exact h.xtWinWrite
  | SPT_LSR_CFG => exact h.lsrCfg
  | TRP_XCONN => exact h.xconnWrite
  | MEM_CTRL => exact h.rsvCheck.memInit.ite h.rsvCheck
  | MEM_PLAN_CMD => exact h.rsvCheck.planCommit.ite h.rsvCheck
  | MEM_PLAN_STATUS => exact h.reasonWrite
  | MEM_REGION_SIZE => exact h.regionSizeWrite
  | SNT_CMD => exact h.sntCmd
  | SNT_STATUS => exact h.reasonWrite
  | SNT_FQ_TAIL => exact h.queueTail
  | SNT_POLICY => exact h.policyWrite
  | BRK_CTRL => exact h.brkCtrl
  | BRK_SEED => exact h.accErrAt.ite h.plainWrite
  | BRK_RING_CFG => exact h.ringCfg
  | BRK_HINT_HOT | BRK_HINT_COOL | BRK_HINT_INTERVAL => exact h.hintWrite
  | BRK_SMP_CFG => exact h.samplerCfg
  | BRK_SMP_FILT => exact h.samplerCfg
  | BRK_OCC_CFG => exact h.occCfg
  | BRK_OCC_N => exact h.occCfg
  | MGT_FAULT_CFG => exact h.accErrAt.ite h.plainWrite
  | MGT_RECOVERY => exact h.accErrAt.ite h.plainWrite
  | MGT_FQ_TAIL => exact h.queueTail
  | MGT_SQ_TAIL => exact h.queueTail
  | MGT_DUMP_CMD => exact h.dumpCmd
  | MGT_OOB_CTRL => exact h.plainWrite.ite h
  | MGT_SMPQ_TAIL => exact h.smpqTail
  | CXL_WIN_CFG => exact h.winCfg
  | CXL_WIN_MAP => exact h.winMap
  | SEC_RESET_CMD => exact h.resetCmd
  | SEC_FWUP_CMD => exact h.fwupCmd
  | SEC_FUSE_CMD => exact h.fuseCmd
  | SEC_SEAL_CTRL => exact h.accErrAt.ite h.plainWrite
  | SEC_SEAL_TAIL => exact h.plainWrite.sealDrain
  | SEC_WIN => exact h.accErrAt.ite h.plainWrite
  | _ => exact h.plainWrite

theorem placeWrite (h : Canon s) {src a pl v} : Canon (s.placeWrite src a pl v) := by
  unfold Box.placeWrite
  split
  · exact h.gateWord
  · exact h.bucketWrite
  · exact h.spareWrite
  · split
    · exact h.ite h.rsvWriteAt
    · exact h.calWrite.ite (h.rsvCheck.ite h.regRule)
  · exact h

theorem writeWord (h : Canon s) {src a v} : Canon (s.writeWord src a v) := by
  unfold Box.writeWord
  split
  · exact h.unmapped
  · exact h.msixWrite
  · exact h.upd
  · exact h.gateWrite (fun h1 => h1.placeWrite)

theorem regWrite (h : Canon s) {src a size v} : Canon (s.regWrite src a size v) :=
  h.writeWord.ite (h.writeWord.writeWord.ite (h.unmapped.ite (h.ite h.accErr)))

theorem latchPair (h : Canon s) {p i lo hi} : Canon (s.latchPair p i lo hi).2 :=
  h.same

theorem smpqWord (h : Canon s) {i} : Canon (s.smpqWord i).2 := by
  unfold Box.smpqWord
  split
  · exact h
  · split
    next k s1 e =>
      have hs1 : Canon s1 := of2 e h.takeFree
      exact hs1

theorem pinRead (h : Canon s) {i} : Canon (s.pinRead i) :=
  h.same

theorem regView (h : Canon s) {r a} : Canon (s.regView r a).2 := by
  unfold Box.regView
  extract_lets +onlyGivenNames t i live
  have hlive {n} : Canon (live n).2 := by
    unfold live
    exact h
  split
  · exact h.latchPair
  · exact h
  · exact h.latchPair
  · exact h
  · exact hlive
  · exact hlive
  · exact hlive
  · exact hlive
  · exact h
  · exact hlive
  · exact hlive
  · exact h.latchNow
  · exact hlive
  · exact hlive
  · exact h.pinRead
  · exact hlive
  · exact hlive
  · exact hlive
  · exact hlive
  · exact h.smpqWord
  · exact hlive
  · exact h

theorem placeRead (h : Canon s) {pl} : Canon (s.placeRead pl).2 := by
  unfold Box.placeRead
  split
  · exact ite2 h h.ctrLo
  · exact h
  · exact h
  · exact h
  · split
    · exact h
    · exact h.regView
  · exact h

theorem readWord (h : Canon s) {a} : Canon (s.readWord a).2 := by
  unfold Box.readWord
  split
  · exact h.unmapped
  · exact h
  · exact h
  · exact ite2 h h.placeRead

theorem regRead (h : Canon s) {src a size} : Canon (s.regRead src a size).2 :=
  ite2 h.readWord (ite2 h.readWord.readWord (ite2 h.unmapped (ite2 h h.accErr)))

theorem fwdCommit (h : Canon s) {src table bank i ws} : Canon (s.fwdCommit src table bank i ws) :=
  h.accErrAt.ite (h.put.accErrAt.raiseInt.ite (h.rsvWriteAt.ite h).setTabEntry.put)

theorem tableCommit (h : Canon s) {src tb ws} : Canon (s.tableCommit src tb ws) := by
  unfold Box.tableCommit
  extract_lets w
  refine h.gateWrite fun h1 => ?_
  split
  · exact h1.fwdCommit
  · exact h1.carEntryWrite.put
  · extract_lets x
    have hx : Canon x := h1.gateWord
    exact hx.ite hx.gateWord
  · extract_lets x
    have hx : Canon x := h1.bucketWrite
    exact hx.ite hx.bucketWrite.bucketWrite.bucketWrite

theorem bar2Word (h : Canon s) {src a w} : Canon (s.bar2Word src a w) := by
  unfold Box.bar2Word
  split
  · exact (h.upd.count.ite h).unmapped
  · extract_lets +onlyGivenNames k take
    have htake {b ws} (hb : Canon b) : Canon (take b ws) := by
      unfold take
      exact hb.upd.tableCommit.ite hb.upd
    split
    · refine ite (htake h) ?_
      extract_lets s1
      have hs1 : Canon s1 := h.upd.count
      exact (htake hs1).ite hs1
    · exact (htake h).ite h.count

theorem bar2Words {ws : List Word} : ∀ {s : Box} (_ : Canon s) {src a}, Canon (s.bar2Words src a ws) := by
  induction ws with
  | nil => exact fun h => h
  | cons w ws ih => exact fun h => ih (h.ite h.bar2Word)

theorem bar2Skew (h : Canon s) {src a} : Canon (s.bar2Skew src a) := by
  unfold Box.bar2Skew
  split
  · exact h.unmapped
  · exact h.ite h.accErrAt

theorem bar2Read (h : Canon s) {a} : Canon (s.bar2Read a).2 := by
  unfold Box.bar2Read
  split
  · exact h
  · exact h

theorem bar2Access (h : Canon s) {src a size} : Canon (s.bar2Access src a size).2 := by
  unfold Box.bar2Access
  refine ite2 h ?_
  exact by split; exacts [h, h.accErrAt]

theorem cfgStore (h : Canon s) {a size v} : Canon (s.cfgStore a size v) := by
  unfold Box.cfgStore
  refine ite h ?_
  extract_lets w x s1
  have hs1 : Canon s1 := h.upd
  split
  · exact hs1.put
  · exact hs1

theorem hostWrite (h : Canon s) {src addr size data} : Canon (s.hostWrite src addr size data) := by
  unfold Box.hostWrite
  split
  · exact h.regWrite
  · exact h.bar2Words.ite h.bar2Skew
  · exact h.cfgStore.ite h

theorem hostRead (h : Canon s) {src addr size} : Canon (s.hostRead src addr size).2 := by
  unfold Box.hostRead
  split
  · exact h.regRead
  · exact h.bar2Access
  · exact h

/-! ### Machine/Dump.lean -/

theorem dumpTent (h : Canon s) {secs t} : Canon (s.dumpTent secs t) :=
  h.ite (h.foldl fun h1 => h1.memWrite).memWrite

theorem dumpDone (h : Canon s) {secs} : Canon (s.dumpDone secs) :=
  (h.foldl fun h1 => h1.dumpTent).put.put.raiseInt.upd.pldmNotify.ite h

/-! ### Machine/Mgmt.lean -/

theorem answer (h : Canon s) {r} : Canon (s.answer r) :=
  h.emit

theorem clearEvents (h : Canon s) {n} : Canon (s.clearEvents n) :=
  h.upd.answer.ite h.answer

theorem setWall (h : Canon s) {ns} : Canon (s.setWall ns) :=
  h.same

theorem doeTake (h : Canon s) {inst f} (hf : ∀ {y0}, Canon y0 → Canon (f y0)) : Canon (s.doeTake inst f) :=
  h.ite (hf h.upd)

theorem doeAnswer (h : Canon s) {inst r} : Canon (s.doeAnswer inst r) := by
  unfold Box.doeAnswer
  split
  · exact h.answer.ite (h.answer.ite h.answer)
  · exact h.answer.ite h
  · exact h.answer.ite h
  · exact h

theorem doeRequest (h : Canon s) {inst r} : Canon (s.doeRequest inst r) :=
  h.doeTake (fun h1 => h.upd.ite h1.doeAnswer)

theorem bmtAnswer (h : Canon s) {path dst op seq count data} : Canon (s.bmtAnswer path dst op seq count data) := by
  unfold Box.bmtAnswer
  split
  · exact h.answer
  · split
    next k s1 e =>
      have hs1 : Canon s1 := of2 e h.takeFree
      exact hs1.vc6Send

theorem bmtNack (h : Canon s) {path dst seq reason} : Canon (s.bmtNack path dst seq reason) :=
  h.bmtAnswer

theorem ethService (h : Canon s) {m} : Canon (s.ethService m) := by
  unfold Box.ethService
  split
  · exact h.answer.ite h
  · exact h.answer.ite h.count
  · exact h.emit
  · exact h.upd.emit
  · exact h.setWall
  · exact h.count.ite h.count
  · exact h.bmtNack
  · exact h.count

theorem bmtWords {n : Nat} : ∀ {s : Box} (_ : Canon s) {space a}, Canon (s.bmtWords space a n).2 := by
  induction n with
  | zero => exact fun h => h
  | succ n ih => exact fun h => ih (ite2 h.readWord h.bar2Read)

theorem bmtStore {ws : List Word} : ∀ {s : Box} (_ : Canon s) {src space a}, Canon (s.bmtStore src space a ws) := by
  induction ws with
  | nil => exact fun h => h
  | cons w ws ih => exact fun h => ih (h.ite (h.writeWord.ite h.bar2Words))

theorem bmtRead (h : Canon s) {path r} : Canon (s.bmtRead path r) :=
  h.bmtNack.ite h.bmtWords.bmtAnswer

theorem bmtWrite (h : Canon s) {path r} : Canon (s.bmtWrite path r) := by
  unfold Box.bmtWrite
  refine ite h.bmtNack ?_
  refine ite h.bmtNack ?_
  extract_lets s1
  have hs1 : Canon s1 := h.bmtStore
  exact hs1.bmtAnswer.ite hs1

theorem bmtSubscribe (h : Canon s) {path r sender} : Canon (s.bmtSubscribe path r sender) :=
  h.bmtNack.ite h.upd.bmtAnswer

theorem bmtRated (h : Canon s) {path r f} (hf : ∀ {y0 y1}, Canon y0 → Canon (f y0 y1)) : Canon (s.bmtRated path r f) :=
  (hf h.upd).ite (h.upd.takeFree.bmtNack.ite (hf h.upd.takeFree))

theorem bmtServe (h : Canon s) {path want f} (hf : ∀ {y0 y1}, Canon y0 → Canon (f y0 y1)) : Canon (s.bmtServe path want
    f) := by
  unfold Box.bmtServe
  refine ite h ?_
  split
  · exact h.ethFrame (fun h1 => h1.bmtRated (fun h3 => hf h3))
  · split
    · exact h
    · exact h.upd.bmtNack.ite ((h.upd.bmtRated (fun h2 => hf h2)).ite h)

theorem i3cCcc (h : Canon s) {c} : Canon (s.i3cCcc c) := by
  unfold Box.i3cCcc
  split
  · exact h.ite h.upd.answer
  · exact h.upd.answer
  · exact h.answer

theorem i3cStatus (h : Canon s) : Canon s.i3cStatus := by
  unfold Box.i3cStatus
  split
  · exact h.answer
  · split
    next k s1 e =>
      have hs1 : Canon s1 := of2 e h.takeFree
      exact hs1.answer

theorem mctp (h : Canon s) {ty eid setEid} : Canon (s.mctp ty eid setEid) := by
  unfold Box.mctp
  refine ite h ?_
  refine ite ?_ (h.answer.ite (h.ite h.count))
  split
  · exact h.answer.ite h.upd.answer
  · exact h.answer.answer

theorem pldmSensor (h : Canon s) {x} : Canon (s.pldmSensor x) := by
  unfold Box.pldmSensor
  split
  · exact h.answer
  · exact h.answer
  · exact h.answer
  · exact h.answer
  · exact h.answer

theorem setSpdm (h : Canon s) {via c} : Canon (s.setSpdm via c) := by
  unfold Box.setSpdm
  split
  · exact h.upd
  · exact h.upd

theorem spdmTake (h : Canon s) {via f} (hf : ∀ {y0}, Canon y0 → Canon (f y0)) : Canon (s.spdmTake via f) := by
  unfold Box.spdmTake
  split
  · exact (h.doeTake (fun h1 => (hf h1).ite h1)).ite h
  · exact (hf h).ite h.answer

theorem spdmIn (h : Canon s) {via phase f} (hf : ∀ {y0}, Canon y0 → Canon (f y0)) : Canon (s.spdmIn via phase f) :=
  h.answer.ite (h.answer.ite (hf h))

theorem spdmCert (h : Canon s) {offset len} : Canon (s.spdmCert offset len) :=
  h.answer.ite h.answer

theorem spdmSigned (h : Canon s) {f} (hf : ∀ {y0 y1}, Canon y0 → Canon (f y0 y1)) : Canon (s.spdmSigned f) := by
  unfold Box.spdmSigned
  refine h.answer.ite ?_
  split
  next digest s1 e =>
    have hs1 : Canon s1 := of2 e h.freeBytes
    exact hf hs1.upd

theorem spdmMeasure (h : Canon s) {i nonce} : Canon (s.spdmMeasure i nonce) := by
  unfold Box.spdmMeasure
  split
  · exact h.answer
  · exact h.spdmSigned (fun h1 => h1.answer)

end Canon

end Sys2Proof.Proofs
end

section
/-!
# Canonical maps: commands and steps

Every command acts through one of the `act` forms; each keeps the maps in canonical form where the block's operation does.
-/

namespace Sys2Proof.Proofs

open Sys2Proof Sys2Proof.Machine Sys2Proof.Safety Sys2Proof.Laws

-- A lemma's proof ends before the next begins: proofs that wait for the lemmas they cite would hold a thread each.
set_option Elab.async false

/-- The outcome's state, where there is one, has its maps in canonical form. -/
def CanonResult (r : Result) : Prop := ∀ t, r = .next t → Canon t.toBox

namespace Canon

section act

variable {s : State} {f : Box → Box}

theorem next (h : Canon s.toBox) : CanonResult (.next s) := by
  rintro t ⟨⟩
  exact h

theorem onBox (h : Canon s.toBox) (hf : ∀ {b}, Canon b → Canon (f b)) : Canon (s.onBox f).toBox :=
  (hf h).anchored h

theorem act (h : Canon s.toBox) (hf : ∀ {b}, Canon b → Canon (f b)) : CanonResult (s.act f) := by
  unfold State.act
  split
  · exact next (h.onBox hf)
  · exact next h

theorem actRun (h : Canon s.toBox) (hf : ∀ {b}, Canon b → Canon (f b)) : CanonResult (s.actRun f) := by
  unfold State.actRun
  split
  · exact next (h.onBox hf)
  · exact next h

theorem part (h : Canon s.toBox) (hf : ∀ {b}, Canon b → Canon (f b)) : CanonResult (.next (s.onPart f)) :=
  next (s := s.onPart f) (hf h)

theorem actPart (h : Canon s.toBox) (hf : ∀ {b}, Canon b → Canon (f b)) : CanonResult (s.actPart f) := by
  unfold State.actPart
  split
  · exact h.part hf
  · exact next h

theorem actHost (h : Canon s.toBox) {src} (hf : ∀ {b}, Canon b → Canon (f b)) : CanonResult (s.actHost src f) :=
  h.act fun hb => (hf hb).ite hb

theorem actReg (h : Canon s.toBox) {a src} (hf : ∀ {b}, Canon b → Canon (f b)) : CanonResult (s.actReg a src f) :=
  h.actHost fun hb => hb.gateWrite hf

theorem actPldm (h : Canon s.toBox) (hf : ∀ {b}, Canon b → Canon (f b)) : CanonResult (s.actPldm f) :=
  h.actRun fun hb => (hf hb).ite hb.emit

theorem actMctp (h : Canon s.toBox) (hf : ∀ {b}, Canon b → Canon (f b)) : CanonResult (s.actMctp f) :=
  h.act fun hb => (hf hb).ite hb.answer

theorem actSpdm (h : Canon s.toBox) {via} (hf : ∀ {b}, Canon b → Canon (f b)) : CanonResult (s.actSpdm via f) :=
  h.act fun hb => hb.spdmTake hf

theorem resIte {c : Prop} {i : Decidable c} {x y : Result} (hx : CanonResult x) (hy : CanonResult y) :
    CanonResult (if c then x else y) := by
  split
  · exact hx
  · exact hy

theorem flitSlotResult (h : Canon s.toBox) {p sub} : CanonResult (execFlitSlot p sub s) := by
  unfold execFlitSlot
  refine next ?_
  split
  · exact h
  · exact h.onBox fun hb => hb.flitSlot
  · exact h.onBox fun hb => hb.stoppedSlot

end act

theorem exec {s : State} (h : Canon s.toBox) (i : Instr) : CanonResult (Machine.exec i s) := by
  cases i with
  | registerWrite => exact h.actHost fun hb => hb.hostWrite
  | counterLoRead => exact resIte (h.actHost fun hb => hb.ctrLo.emit) (h.actHost fun hb => hb.regRead.emit)
  | counterHiRead => exact resIte (h.actHost fun hb => hb.emit) (h.actHost fun hb => hb.regRead.emit)
  | ucieModuleFail => exact h.actRun fun hb => hb.moduleFail
  | replicaCheck => exact h.actRun fun hb => hb.replicaCheck
  | replicaReload => exact h.actRun fun hb => hb.replicaReload
  | envExcursionStart | envExcursionEnd => exact h.actPart fun hb => hb.cornerRead
  | flitReceive => exact h.actRun fun hb => hb.flitReceive
  | laneMarkerReceive => exact h.actRun fun hb => hb.laneMarker
  | retryReq => exact h.actRun fun hb => hb.onRetryReq.ite hb
  | retryReqRepeat => exact h.actRun fun hb => hb.retryRepeat
  | laneMapReq => exact h.actRun fun hb => hb.onLaneReq.ite hb
  | laneMapAck => exact h.actRun fun hb => hb.onLaneAck
  | laneMapNak => exact h.actRun fun hb => hb.onLaneNak
  | laneMapSwitch => exact h.actRun fun hb => hb.laneSwitch
  | laneMapCancel => exact h.actRun fun hb => hb.laneCancel
  | laneAdopt => exact h.actRun fun hb => hb.laneAdopt
  | laneFail => exact h.actRun fun hb => hb.onLaneFail.ite hb
  | laneFecLoss => exact h.actRun fun hb => hb.laneFecLoss
  | pause => exact h.actRun fun hb => hb.onPause.ite hb
  | resume => exact h.actRun fun hb => hb.onResume.ite hb
  | pauseTimeout => exact h.actRun fun hb => hb.pauseTimeout
  | linkSilenceTimeout => exact h.actRun fun hb => hb.silence
  | portUp => exact h.actRun fun hb => hb.portUp.ite (hb.tripsTimed.ite hb)
  | trainingRetry => exact h.actRun fun hb => hb.trainingRetry
  | fpModeWrite => exact h.actReg fun hb => hb.fpMode
  | portEnable | portDisable => exact h.actReg fun hb => hb.portCtrl
  | reserveReturn => exact h.actRun fun hb => hb.reserveReturn
  | ingressHeaderStage => exact h.actRun fun hb => hb.headerStage
  | fenceRelease => exact h.actRun fun hb => hb.fenceRelease
  | backlogReport => exact h.actRun fun hb => hb.backlogReport
  | midwayGrant => exact h.actRun fun hb => hb.midwayGrant
  | midwayTransfer => exact h.actRun fun hb => hb.partTransfer.ite hb.egressTransfer
  | flitSlot => exact h.flitSlotResult
  | trnBucketWrite => exact h.actReg fun hb => hb.bucketWrite
  | spillBlockTimer | spillBlockWritten => exact h.actRun fun hb => hb.spillWrite
  | spillRecall => exact h.actRun fun hb => hb.spillRecall
  | spillRecallDone => exact h.actRun fun hb => hb.spillBack
  | ushAudit => exact h.actReg fun hb => hb.ushAudit
  | ushAuditDone => exact h.actRun fun hb => hb.ushAuditDone
  | gateEntryStart => exact h.actRun fun hb => hb.gateEntryStart
  | glCommit => exact h.actReg fun hb => hb.onPort (fun h2 => h2.glCommit)
  | glCancel => exact h.actReg fun hb => hb.onPort (fun h2 => h2.glCancel)
  | glStop => exact h.actReg fun hb => hb.onPort (fun h2 => h2.glStop)
  | glSwitch => exact h.actRun fun hb => hb.glSwitch
  | bypassStart => exact h.actRun fun hb => hb.bypassStart
  | bypassRestore => exact h.actRun fun hb => hb.bypassRestore
  | bypassEnd => exact h.actRun fun hb => hb.bypassEnd
  | bypassRealignTimeout => exact h.actRun fun hb => hb.realignTimeout
  | fwdTblWrite | fwdTblRead => exact h.actReg fun hb => hb.fwdTblCmd
  | fwdTblDone => exact h.actRun fun hb => hb.fwdTblDone
  | fwdSwitch => exact h.actReg fun hb => hb.put.wr.fwdSwitch
  | fwdBankSwitch => exact h.actRun fun hb => hb.fwdBankSwitch
  | fwdFlushOld => exact h.actReg fun hb => hb.fwdFlushOld
  | fwdCopy => exact h.actReg fun hb => hb.fwdCopy
  | fwdCopyDone => exact h.actRun fun hb => hb.fwdCopyDone
  | fwdDrained => exact h.actRun fun hb => hb.drainCheck
  | fwdNoticeGo => exact h.actReg fun hb => hb.wr.wr.noticeGo
  | carTblWrite | carTblRead => exact h.actReg fun hb => hb.carTblCmd
  | streamReserve | streamActivate | streamDrain | streamAbort | streamRelease => exact h.actReg fun hb => hb.strmCmd
  | streamReserveDone => exact h.actRun fun hb => hb.reserveDone
  | streamAbortDone => exact h.actRun fun hb => hb.abortDone
  | streamFreed => exact h.actRun fun hb => hb.strmFreed
  | contributionSteer => exact h.actRun fun hb => hb.steer
  | sliverTakePart => exact h.actRun fun hb => hb.takeUpset
  | resultRelease => exact h.actRun fun hb => hb.releaseResult
  | slotStall => exact h.actRun fun hb => hb.slotStall
  | drainMarkSet => exact h.actRun fun hb => hb.drainMarkSet
  | sntReplay | sntRetract => exact h.actReg fun hb => hb.sntCmd
  | retractRecomputeDone => exact h.actRun fun hb => hb.retractDone
  | sealRecordWrite => exact h.actRun fun hb => hb.sealRecord
  | sealSignTimer => exact h.actRun fun hb => hb.sealSign
  | twinComplete => exact h.actRun fun hb => hb.twinComplete
  | thirdComputeDone => exact h.actRun fun hb => hb.thirdDone
  | watchExpire => exact h.actRun fun hb => hb.watchExpire
  | kloadStage | kloadVerify | kloadUnload | kloadInfo => exact h.actReg fun hb => hb.kloadCmd
  | kloadVerifyDone => exact h.actRun fun hb => hb.kloadVerifyDone
  | tmbSubst => exact h.actReg fun hb => hb.tmbSubst
  | substTake => exact h.actRun fun hb => hb.ite (by split; exacts [hb.substTake.ite hb, hb.substTake])
  | salu | addi | andi | ori | xori | lui | shifti | sfpu | ffma | ldw | ldh | ldhu | ldb | ldbu | stw | sth | stb
  | vld | vst | beq | bne | blt | bge | bltu | bgeu | kjump | kloop | kexit | kfault | valu | vcmp | vfma | vfms
  | vfnma | vcvt | vred | vsel | vxf | vmov | plogic =>
    exact h.actRun fun hb => hb.kRun
  | rdsys => exact h.actRun fun hb => hb.rdsysRun
  | timeApply => exact h.act fun hb => hb.timeApply
  | nowRead => exact h.actHost fun hb => hb.latchNow.emit.ite hb.emit
  | rateHiWrite => exact h.actReg fun hb => hb.rateHi
  | servoStart | servoRearm | servoSettime | servoStop => exact h.actReg fun hb => hb.servoCtrl
  | sync => exact h.actRun fun hb => hb.ptpTake (fun h2 => h2.onSync)
  | followUp => exact h.actRun fun hb => hb.ptpTake (fun h2 => h2.onFollowUp)
  | pdelayReq => exact h.actRun fun hb => hb.ptpTake (fun h2 => h2.onPdReq)
  | pdelayResp => exact h.actRun fun hb => hb.ptpTake (fun h2 => h2.onPdResp)
  | pdelayRespFollowUp => exact h.actRun fun hb => hb.ptpTake (fun h2 => h2.onPdFollow)
  | delayReq => exact h.actRun fun hb => hb.ethFrame (fun h2 => h2.ethDelay)
  | syncSendTimer => exact h.actRun fun hb => hb.syncSend
  | pdelayReqTimer => exact h.actRun fun hb => hb.pdelaySend
  | ethPtpTimer => exact h.actRun fun hb => hb.ethSend
  | syncTimeout => exact h.actRun fun hb => hb.syncTimeout
  | triggerArm | triggerDisarm => exact h.actReg fun hb => hb.trigCtrl
  | triggerFire => exact h.actRun fun hb => hb.timeDue.trigFire
  | launchBufferSend => exact h.actRun fun hb => optGetD hb.launchStart hb
  | pinCapture => exact h.actRun fun hb => hb.pinEdge
  | heaterCycle => exact h.actRun fun hb => hb.cycleDue
  | heaterStarved => exact h.actRun fun hb => hb.heaterStarved
  | monitorIntegration => exact h.actRun fun hb => hb.integrate.ite hb
  | spareReady => exact h.actRun fun hb => hb.spareReady
  | laserSwap => exact h.actRun fun hb => hb.laserSwap
  | laserSwapRelease => exact h.actRun fun hb => hb.laserRelease
  | modulePoll => exact h.actRun fun hb => hb.modulePoll
  | laneHealthCheck => exact h.actRun fun hb => hb.laneHealth
  | ringVerifyDone | ringReverify => exact h.actRun fun hb => hb.ringJudge
  | ringSearchStep => exact h.actRun fun hb => hb.ringStep
  | xtCal => exact h.actReg fun hb => hb.xtCal
  | xtCalTimer => exact h.actRun fun hb => hb.setEngine.calDue.ite hb
  | xtCalDeferredStart => exact h.actRun fun hb => hb.calTry
  | xtCalDone => exact h.actRun fun hb => hb.calEnd.ite hb
  | xtCommit => exact h.actReg fun hb => hb.xtCommit
  | aprEnter => exact h.actRun fun hb => hb.aprEnter
  | aprPulseStart => exact h.actRun fun hb => hb.aprPulse
  | aprPulseEnd => exact h.actRun fun hb => hb.aprPulseEnd
  | aprExit => exact h.actRun fun hb => hb.aprExit
  | laserInputLost => exact h.actRun fun hb => hb.inputLost
  | engineStart => exact h.actReg fun hb => hb.engineStart
  | engineContinuityCheck => exact h.actRun fun hb => hb.continuity
  | engineReady => exact h.actRun fun hb => hb.engineUp
  | trpXconnWrite => exact h.actReg fun hb => hb.xconnWrite
  | memTrainDone => exact h.actRun fun hb => hb.trainDone
  | memInit => exact h.actReg fun hb => hb.memInit
  | memInitDone => exact h.actRun fun hb => hb.memInitDone
  | refreshSlot => exact h.actRun fun hb => hb.refreshSlot
  | memPlanCommit => exact h.actReg fun hb => hb.planCommit
  | memDeviceFail => exact h.actRun fun hb => hb.deviceFail
  | memRebuildDone => exact h.actRun fun hb => hb.rebuildDone
  | hostMemRead => exact h.actHost fun hb => hb.upd.ite hb.hostServe
  | hostMemWrite => exact h.actHost fun hb => hb.count.emit
  | coreFail => exact h.act fun hb => hb.coreFail
  | fatalCondition => exact h.act fun hb => hb.fatal
  | watchdogExpire => exact h.act fun hb => hb.fatal.ite hb
  | dumpDone => exact h.act fun hb => hb.dumpDone
  | dumpFatalOrder | dumpAck => exact h.actReg fun hb => hb.dumpCmd
  | cntSnap | cntClear => exact resIte (h.actReg fun hb => hb.cntCtrl) (h.actHost fun hb => hb.writeWord)
  | snapshotDone => exact h.act fun hb => hb.snapDone
  | occMonitorTick => exact h.actRun fun hb => hb.occTick
  | samplerCfgWrite => exact h.actReg fun hb => hb.samplerCfg
  | occCfgWrite => exact h.actReg fun hb => hb.occCfg
  | smpqTailWrite => exact h.actReg fun hb => hb.smpqTail
  | backlogNotice => exact h.actRun fun hb => hb.backlogNotice
  | bar2Write => exact h.actHost fun hb => hb.bar2Words.ite hb.bar2Skew
  | intForce => exact resIte (h.actReg fun hb => hb.intForce) (h.actHost fun hb => hb.writeWord)
  | intEnWrite => exact resIte (h.actReg fun hb => hb.intWrite) (h.actHost fun hb => hb.writeWord)
  | functionLevelReset => exact h.actHost fun hb => hb.functionReset
  | getEventRecords | getTimestamp | getSupportedLogs | getLog | identifyMemoryDevice | getHealthInfo =>
    exact h.actHost fun hb => hb.answer
  | clearEventRecords => exact h.actHost fun hb => hb.clearEvents
  | setTimestamp => exact h.actHost fun hb => hb.setWall.answer
  | mailboxUnsupported => exact h.actHost fun hb => hb.ite hb.answer
  | doeRequest => exact h.actHost fun hb => hb.doeRequest
  | doeAbort => exact h.actHost fun hb => hb.upd
  | ethFrameReceive => exact h.act fun hb => (hb.ethFrame (fun h2 => h2.ethService)).ite hb
  | bmtRead => exact h.act fun hb => hb.bmtServe (fun h2 => h2.bmtRead)
  | bmtWrite => exact h.act fun hb => hb.bmtServe (fun h2 => h2.bmtWrite)
  | bmtSubscribe => exact h.act fun hb => hb.bmtServe (fun h2 => h2.bmtSubscribe)
  | i3cEntdaa => exact h.act fun hb => hb.i3cCcc
  | i3cGetstatus => exact h.act fun hb => hb.i3cStatus
  | mctpControl => exact h.actMctp fun hb => hb.mctp
  | getTid | getPldmVersion | getPldmTypes | getPldmCommands => exact h.actMctp fun hb => hb.answer
  | pldmSensorRead => exact h.actMctp fun hb => hb.pldmSensor
  | requestUpdate => exact h.actPldm fun hb => (hb.fwupBusy.ite hb.fwupOpen).componentReply.updateReply
  | transferComplete => exact h.actPldm fun hb => hb.transferDone.updateReply
  | verifyComplete | applyComplete => exact h.actPldm fun hb => hb.updateReply
  | activateFirmware => exact h.actPldm fun hb => hb.updateReply.ite hb.updateReply.fwupActivate
  | cancelUpdate => exact h.actPldm fun hb => (hb.ite hb.fwupAbort).updateReply
  | getVersion => exact h.actSpdm fun hb => hb.setSpdm.answer
  | getCapabilities | negotiateAlgorithms => exact h.actSpdm fun hb => hb.spdmIn (fun h2 => h2.setSpdm.answer)
  | getDigests => exact h.actSpdm fun hb => hb.spdmIn (fun h2 => h2.answer)
  | getCertificate => exact h.actSpdm fun hb => hb.spdmIn (fun h2 => h2.spdmCert)
  | challenge => exact h.actSpdm fun hb => hb.spdmIn (fun h2 => h2.spdmSigned (fun h4 => h4.answer))
  | getMeasurements => exact h.actSpdm fun hb => hb.spdmIn (fun h2 => h2.spdmMeasure)
  | powerOnReset => exact h.part fun hb => hb.upd.powerRelease
  | resetCold | resetWarm | resetManagement => exact h.actReg fun hb => hb.resetCmd
  | resetTakeEffect => exact h.actPart fun hb => hb.resetEffect
  | rstColdPin | rstWarmPin => exact h.part fun hb => hb.resetPin
  | hostInterfaceReset => exact h.act fun hb => hb.hostReset
  | bootRomRun => exact h.act fun hb => hb.bootRun
  | fwConfirm => exact h.actRun fun hb => hb.fwConfirm
  | fwupOpen | fwupWrite | fwupClose | fwupActivate | fwupRevert | fwupAbort => exact h.actReg fun hb => hb.fwupCmd
  | advanceSvn | setOwner => exact h.actReg fun hb => hb.fuseCmd
  | pwrOkRise => exact h.part fun hb => hb.pwrOkRise
  | pwrOkFall => exact h.part fun hb => hb.pwrOkFall
  | railFault => exact h.part fun hb => hb.railRead
  | refclkLoss => exact h.part fun hb => hb.upd.powerOn
  | cxlRefclkLoss | cxlLinkLoss => exact h.act fun hb => hb.cxlDown
  | thermalTrip => exact h.act fun hb => hb.thermalTrip
  | fuseRailChange => exact h.part fun hb => hb.fuseRailChange
  | registerRead => exact h.actHost fun hb => hb.hostRead.emit
  | replayDone => exact h.actRun fun hb => hb.replayDone
  | fwupCommandDone => exact h.act fun hb => hb.fwupDone
  | fuseOperationDone => exact h.actPart fun hb => hb.fuseDone
  | kloadStageDone => exact h.actRun fun hb => hb.kloadStageDone
  | fwdNoticeSend => exact h.actRun fun hb => hb.noticeSend
  | cxlLinkTrain => exact h.act fun hb => hb.cxlTrain
  | refclkReturn => exact h.part fun hb => hb.upd.powerRelease.ite hb
  | monitorStarved => exact h.actRun fun hb => hb.monStarved
  | calibrationDeferred => exact h.actRun fun hb => by split; exacts [hb.put.ite hb, hb]
  | pinPulseEnd => exact h.actRun fun hb => hb.pulseEnd
  | memDeviceHot => exact h.actRun fun hb => hb.deviceHot
  | illegalInstructionWord => exact h.actRun fun hb => hb.kIllegal
  | ownerRelease src o =>
    cases o with
    | pin _ => exact h.actReg fun hb => hb.pinCfg
    | unit _ => exact h.actReg fun hb => hb.trigCtrl

theorem tick {s : State} (h : Canon s.toBox) : Canon s.tick.toBox := by
  unfold State.tick
  extract_lets s1 s2
  have h1 : Canon s1.toBox := h.same
  have h2 : Canon s2.toBox := by
    unfold s2
    split
    · exact h1.onBox fun hb => hb.aliveTick
    · exact h1
  split
  · exact h2.onBox fun hb => hb.tickWork
  · exact h2

/-- A step is a command's, on the queue's rest, or a tick; the queue is none of the maps. -/
theorem step {s : State} (h : Canon s.toBox) : CanonResult (Machine.step s) := by
  unfold Machine.step
  split
  · exact next h.tick
  · next c q _ => exact exec (s := { s with pending := q }) h c

end Canon

theorem step_wellFormed {s t : State} (hs : wellFormed s = true) (h : step s = .next t) : wellFormed t = true :=
  (wellFormed_iff t).2 (((wellFormed_iff s).1 hs).step t h)

/-- Settles O2: each operation of the block keeps its maps in canonical form, because all of them write a map through
`mapSet`, `mapSetAll`, `mapClear` or `mapDrop` alone; and every command answers a next state. -/
theorem wellFormedCommandsComplete : Obligations.WellFormedCommandsComplete := by
  refine ⟨fun s t hs h => step_wellFormed hs h, fun i s => ?_, step_next, fun i s q _ hq => ?_⟩
  · obtain ⟨t, ht, -⟩ := exec_next i s
    exact ⟨t, ht⟩
  · obtain ⟨t, ht, hpending⟩ := exec_next i { s with pending := q }
    refine ⟨t, ?_, hpending⟩
    unfold step
    rw [hq]
    exact ht

end Sys2Proof.Proofs
end
